-- ==== Sys2Proof/Word.lean ====
section
/-!
DEFINITION. The word types of the register interface (R13, R143).
-/

namespace Sys2Proof

/-- One 32-bit register word. -/
abbrev Word := BitVec 32

/-- One byte of flash, NVM or a serial frame. -/
abbrev Byte := BitVec 8

end Sys2Proof
end

