-- ==== Sys2Proof/Syntax.lean ====
section
/-!
DEFINITION. The commands of the block: one constructor per row of the operation table, in its order, with the row's
operands. Every command's first operand `dt` is the time that has passed since the command before it, in 2.5 ns cycles of
the main clock; the command then acts at that instant.
-/

namespace Sys2Proof

/-- The two host links (R1 of the links: SPI host port and Grelas link). -/
inductive Link where
  | spi | gr
  deriving DecidableEq, Repr

/-- The other link. -/
def Link.other : Link → Link
  | .spi => .gr
  | .gr => .spi

/-- The two error-protected memories (R33). -/
inductive Mem where
  | motion | mgmt
  deriving DecidableEq, Repr

/-- The pins that can carry a home or limit function (Table 2-4). -/
inductive LimPin where
  | fb2 | step | dir
  deriving DecidableEq, Repr

/-- The level of a line and for how many counts of its filter it has stood unbroken (R58, R368). -/
structure Stood where
  high : Bool
  held : Nat
  deriving DecidableEq, Repr

/-- One of `k` like inputs and for how many counts of its filter its new level has stood unbroken (R334, R368). -/
structure Held (k : Nat) where
  pin : Fin k
  held : Nat
  deriving DecidableEq, Repr

/-- A rising edge: the time since the command before, and for how many cycles the pin has been high (R406). -/
structure Rise where
  dt : Nat
  held : Nat
  deriving DecidableEq, Repr

/-- The parameters of a descriptor beside its opcode (Table 8-2, Table 8-4). -/
structure Desc where
  tag : BitVec 10
  chain : Bool
  replace : Bool
  sel : BitVec 4
  flags : BitVec 8
  d1 : Word
  d2 : Word
  d3 : Word
  deriving DecidableEq, Repr

/-- One Citen frame as it arrives on the SPI host port (Table 6-2): the number of HSCK rising edges, the fields beside OP,
and the CRC received. -/
structure Frame where
  edges : Nat
  alive : BitVec 4
  hseq : BitVec 16
  addr : BitVec 16
  data : Word
  flags : BitVec 8
  crc : BitVec 16
  deriving DecidableEq, Repr

/-- One Grelas packet as it arrives on the pair: the line level in each half-bit of 200 ns, from the first preamble bit that the
receiver has locked onto to the end delimiter; true is high (R206, R207). -/
structure Packet where
  line : List Bool
  deriving DecidableEq, Repr

/-- What one read attempt of an identity memory gave (R421): no acknowledge of the address, a bus error, or 256 bytes. -/
inductive IdRead where
  | absent
  | busError
  | bytes (b : List Byte)
  deriving DecidableEq, Repr

/-- The commands: one constructor per row of the operation table. -/
inductive Instr where
  /-- TICK_MARK (R21). -/
  | tickMark (dt : Nat) (pins : BitVec 48)
  /-- COMMIT_POINT (R21). -/
  | commitPoint (dt : Nat) (fin : Vector (BitVec 16) 8)
  /-- SYNC_IN_EDGE (R29). -/
  | syncInEdge (dt : Nat) (pins : BitVec 48)
  /-- MARK_TIMEOUT (R29). -/
  | markTimeout (dt : Nat) (pins : BitVec 48)
  /-- SCRUB_READ (R37). -/
  | scrubRead (dt : Nat) (mem : Mem)
  /-- ECC_WRITE_BACK (R35). -/
  | eccWriteBack (dt : Nat) (mem : Mem) (written : Bool)
  /-- MEM_INJECT (R39). -/
  | memInject (dt : Nat) (lk : Link) (data : Word)
  /-- MEM_CLR_CNT (R38). -/
  | memClrCnt (dt : Nat) (lk : Link)
  /-- MEM_CLR_FIRST (R38). -/
  | memClrFirst (dt : Nat) (lk : Link)
  /-- CLR_MAX (R31). -/
  | clrMax (dt : Nat) (lk : Link)
  /-- CLR_TOTAL (R31). -/
  | clrTotal (dt : Nat) (lk : Link)
  /-- ARB_WEIGHT_UPDATE (R43). -/
  | arbWeightUpdate (dt : Nat) (act : BitVec 8) (sp : BitVec 3) (wait : BitVec 8)
  /-- CLR_MAXWAIT (R46). -/
  | clrMaxwait (dt : Nat) (lk : Link)
  /-- HOME_LIMIT_FILTER_PASS (R58). -/
  | homeLimitFilterPass (dt : Nat) (n : Fin 8) (pin : LimPin) (lvl : Stood)
  /-- BRAKE_CLAMP_ENGAGE (R62). -/
  | brakeClampEngage (dt : Nat) (st : Fin 2)
  /-- BRAKE_CLAMP_RELEASE (R62). -/
  | brakeClampRelease (dt : Nat) (st : Fin 2)
  /-- BLOCKING_SWITCH_ON (R65). -/
  | blockingSwitchOn (dt : Nat) (st : Fin 2)
  /-- BLOCKING_SWITCH_OFF (R65). -/
  | blockingSwitchOff (dt : Nat) (st : Fin 2)
  /-- VM_LOCKOUT (R69). -/
  | vmLockout (dt : Nat) (st : Fin 2) (mv : BitVec 16)
  /-- VM_LOCKOUT_RELEASE (R69). -/
  | vmLockoutRelease (dt : Nat) (st : Fin 2)
  /-- UV_WARN_CHANGE (R67). -/
  | uvWarnChange (dt : Nat) (st : Fin 2) (below : Bool)
  /-- VM_OVERVOLTAGE (R70). -/
  | vmOvervoltage (dt : Nat) (st : Fin 2) (mv : BitVec 16)
  /-- VM_OVERVOLTAGE_CLEAR (R70). -/
  | vmOvervoltageClear (dt : Nat) (st : Fin 2) (mv : BitVec 16)
  /-- VM_REVERSED (R70). -/
  | vmReversed (dt : Nat) (st : Fin 2) (mv : BitVec 16)
  /-- VM_REVERSE_CLEAR (R70). -/
  | vmReverseClear (dt : Nat) (st : Fin 2)
  /-- BRAKE_DUMP_ON (R72). -/
  | brakeDumpOn (dt : Nat)
  /-- BRAKE_DUMP_RELEASE (R72). -/
  | brakeDumpRelease (dt : Nat)
  /-- BRAKE_HOT (R73). -/
  | brakeHot (dt : Nat)
  /-- BRAKE_HOLDOFF_END (R73). -/
  | brakeHoldoffEnd (dt : Nat)
  /-- LOGIC_SOURCE_CHANGE (R76). -/
  | logicSourceChange (dt : Nat) (toVm : Bool)
  /-- FULL_LOGIC_POWER_LOSS (R79). -/
  | fullLogicPowerLoss (dt : Nat)
  /-- FULL_LOGIC_POWER_DOWN (R79). -/
  | fullLogicPowerDown (dt : Nat)
  /-- FULL_LOGIC_POWER_RETURN (R79). -/
  | fullLogicPowerReturn (dt : Nat)
  /-- FULL_LOGIC_RESTORE (R80). -/
  | fullLogicRestore (dt : Nat) (bad : Fin 3)
  /-- V5OUT_OVERLOAD (R83). -/
  | v5outOverload (dt : Nat)
  /-- V5OUT_RETRY (R83). -/
  | v5outRetry (dt : Nat)
  /-- V5OUT_FAULT_CLEAR (R83). -/
  | v5outFaultClear (dt : Nat)
  /-- POWER_FAIL (R85). -/
  | powerFail (dt : Nat) (vm0 : BitVec 16) (vm1 : BitVec 16) (vlink : BitVec 16) (vbak : BitVec 16)
  /-- HOLDUP_END (R85). -/
  | holdupEnd (dt : Nat)
  /-- FET_OVERCURRENT (R88). -/
  | fetOvercurrent (dt : Nat) (c : Fin 16) (fets : BitVec 4)
  /-- CLR_OC (R89). -/
  | clrOc (dt : Nat) (lk : Link) (mask : BitVec 16)
  /-- CLR_OPEN (R91). -/
  | clrOpen (dt : Nat) (lk : Link) (mask : BitVec 16)
  /-- OPEN_COIL_DETECT (R90). -/
  | openCoilDetect (dt : Nat) (c : Fin 16)
  /-- THERMAL_BACKSTOP (R92). -/
  | thermalBackstop (dt : Nat) (st : Fin 2) (k : Fin 3) (temp : BitVec 16)
  /-- THERMAL_BACKSTOP_RELEASE (R92). -/
  | thermalBackstopRelease (dt : Nat) (st : Fin 2) (k : Fin 3) (temp : BitVec 16)
  /-- TEMP_READING_STALE (R93). -/
  | tempReadingStale (dt : Nat) (st : Fin 2)
  /-- BOOST_LOCK (R98). -/
  | boostLock (dt : Nat) (n : Fin 8)
  /-- BOOST_UNLOCK (R98). -/
  | boostUnlock (dt : Nat) (n : Fin 8)
  /-- POWER_ON_RESET (R112). -/
  | powerOnReset (dt : Nat)
  /-- POWER_ON_RESET_RELEASE (R112). -/
  | powerOnResetRelease (dt : Nat)
  /-- SYSTEM_RESET (R110). -/
  | systemReset (dt : Nat)
  /-- SYSTEM_RESET_RELEASE (R110). -/
  | systemResetRelease (dt : Nat) (count : BitVec 32)
  /-- CORE_RESET (R115). -/
  | coreReset (dt : Nat) (count : BitVec 32)
  /-- CORE_RESET_RELEASE (R110). -/
  | coreResetRelease (dt : Nat)
  /-- OPTION_COMMIT (R119). -/
  | optionCommit (dt : Nat) (bad : Option (Fin 8)) (corr : BitVec 8)
  /-- ENTER_BOOT (R121). -/
  | enterBoot (dt : Nat)
  /-- CLOCK_FAILURE (R121). -/
  | clockFailure (dt : Nat)
  /-- FIRMWARE_SELECT (R462). -/
  | firmwareSelect (dt : Nat)
  /-- IMAGE_VALIDATE (R434). -/
  | imageValidate (dt : Nat) (id : BitVec 24)
  /-- CONFIG_MONUMENT_READS (R122). -/
  | configMonumentReads (dt : Nat) (rd : Vector IdRead 8)
  /-- FULL_LOGIC_AVAILABLE (R123). -/
  | fullLogicAvailable (dt : Nat)
  /-- FULL_LOGIC_LOAD (R436). -/
  | fullLogicLoad (dt : Nat) (bad : Fin 3)
  /-- ENTER_READY (R121). -/
  | enterReady (dt : Nat) (pins : BitVec 48)
  /-- ENTER_RUN (R125). -/
  | enterRun (dt : Nat)
  /-- BOOT_WATCHDOG_EXPIRY (R127). -/
  | bootWatchdogExpiry (dt : Nat)
  /-- SURVEYOR_WATCHDOG_EXPIRY (R130). -/
  | surveyorWatchdogExpiry (dt : Nat)
  /-- HOST_WATCHDOG_EXPIRY (R131). -/
  | hostWatchdogExpiry (dt : Nat)
  /-- RESTART (R129). -/
  | restart (dt : Nat) (lk : Link)
  /-- CLR_FAILCNT (R129). -/
  | clrFailcnt (dt : Nat) (lk : Link)
  /-- SAFE_EXIT (R133). -/
  | safeExit (dt : Nat) (lk : Link)
  /-- AXIS_RESET (R134). -/
  | axisReset (dt : Nat) (lk : Link) (mask : BitVec 8)
  /-- AXIS_RESET_TIMEOUT (R134). -/
  | axisResetTimeout (dt : Nat) (n : Fin 8)
  /-- RING_RESET (R136). -/
  | ringReset (dt : Nat) (lk : Link) (mask : BitVec 16)
  /-- REGISTER_WRITE (R144). -/
  | registerWrite (dt : Nat) (lk : Link) (addr : BitVec 16) (data : Word)
  /-- UNLOCK (R149). -/
  | unlock (dt : Nat) (lk : Link) (key : Word)
  /-- UPDATE_STROBE (R154). -/
  | updateStrobe (dt : Nat) (lk : Link) (data : Word)
  /-- IND_ADDR_WRITE (R160). -/
  | indAddrWrite (dt : Nat) (lk : Link) (data : Word)
  /-- IND_PREFETCH_DONE (R162). -/
  | indPrefetchDone (dt : Nat) (lk : Link)
  /-- IND_DATA_READ (R161). -/
  | indDataRead (dt : Nat) (lk : Link)
  /-- IND_DATA_WRITE (R164). -/
  | indDataWrite (dt : Nat) (lk : Link) (data : Word)
  /-- IND_WRITE_APPLY (R164). -/
  | indWriteApply (dt : Nat)
  /-- MAILBOX_REQUEST (R167). -/
  | mailboxRequest (dt : Nat) (lk : Link) (m : Fin 8) (data : Word)
  /-- MAILBOX_LAST_WORD_READ (R170). -/
  | mailboxLastWordRead (dt : Nat) (lk : Link) (m : Fin 8)
  /-- ACCSTAT_CLR (R172). -/
  | accstatClr (dt : Nat) (lk : Link)
  /-- FRAME_START (R185). -/
  | frameStart (dt : Nat) (mode3 : Bool)
  /-- CITEN_NOP (R178). -/
  | citenNop (dt : Nat) (f : Frame)
  /-- CITEN_READ (R178). -/
  | citenRead (dt : Nat) (f : Frame)
  /-- CITEN_WRITE (R178). -/
  | citenWrite (dt : Nat) (f : Frame)
  /-- CITEN_BAD_OP (R178). -/
  | citenBadOp (dt : Nat) (op : BitVec 4) (f : Frame)
  /-- FRAME_DEFERRED_PERFORM (R185). -/
  | frameDeferredPerform (dt : Nat) (lk : Link)
  /-- SNAP (R190). -/
  | snap (dt : Nat) (lk : Link)
  /-- SPI_CNT_CLR (R194). -/
  | spiCntClr (dt : Nat) (lk : Link)
  /-- CHAIN_MODE_SELECT (R195). -/
  | chainModeSelect (dt : Nat) (lk : Link) (data : Word)
  /-- CHAIN_TRANSFER (R198). -/
  | chainTransfer (dt : Nat) (edges : Nat) (ws : List (BitVec 40))
  /-- CHAIN_WINDOW_READ (R198). -/
  | chainWindowRead (dt : Nat) (v : Fin 8) (addr : BitVec 7)
  /-- CHAIN_ENABLE (R199). -/
  | chainEnable (dt : Nat) (v : Fin 8) (on : Bool)
  /-- CHAIN_FOLLOW (R199). -/
  | chainFollow (dt : Nat) (v : Fin 8) (on : Bool)
  /-- CHAIN_QSTOP (R199). -/
  | chainQstop (dt : Nat) (v : Fin 8)
  /-- CHAIN_CLRFLT (R199). -/
  | chainClrflt (dt : Nat) (v : Fin 8)
  /-- CHAIN_CURRENT (R199). -/
  | chainCurrent (dt : Nat) (v : Fin 8) (data : Word)
  /-- CHAIN_STEPSCALE (R199). -/
  | chainStepscale (dt : Nat) (v : Fin 8) (data : Word)
  /-- CHAIN_VMAX (R199). -/
  | chainVmax (dt : Nat) (v : Fin 8) (data : Word)
  /-- CHAIN_AMAX (R199). -/
  | chainAmax (dt : Nat) (v : Fin 8) (data : Word)
  /-- CHAIN_DMAX (R199). -/
  | chainDmax (dt : Nat) (v : Fin 8) (data : Word)
  /-- CHAIN_TARGET (R200). -/
  | chainTarget (dt : Nat) (v : Fin 8) (data : Word)
  /-- GRELAS_POLL (R214). -/
  | grelasPoll (dt : Nat) (p : Packet)
  /-- GRELAS_RESPONSE_COMPOSE (R214). -/
  | grelasResponseCompose (dt : Nat)
  /-- GRELAS_RESPONSE_TRANSMIT (R214). -/
  | grelasResponseTransmit (dt : Nat)
  /-- GRELAS_TICK_PACKET (R218). -/
  | grelasTickPacket (dt : Nat) (p : Packet)
  /-- GRELAS_MARK_ISSUE (R218). -/
  | grelasMarkIssue (dt : Nat) (pins : BitVec 48)
  /-- LINK_CURRENT_LIMIT (R205). -/
  | linkCurrentLimit (dt : Nat) (on : Bool)
  /-- LINK_REVERSED (R204). -/
  | linkReversed (dt : Nat) (rev : Bool)
  /-- GRELAS_CNT_CLR (R225). -/
  | grelasCntClr (dt : Nat) (lk : Link)
  /-- ENABLE (R253). -/
  | enable (dt : Nat) (lk : Link) (r : Fin 11) (d : Desc)
  /-- RELEASE (R253). -/
  | release (dt : Nat) (lk : Link) (r : Fin 11) (d : Desc)
  /-- STOP (R264). -/
  | stop (dt : Nat) (lk : Link) (r : Fin 11) (d : Desc)
  /-- QSTOP (R264). -/
  | qstop (dt : Nat) (lk : Link) (r : Fin 11) (d : Desc)
  /-- CLEAR_FAULT (R255). -/
  | clearFault (dt : Nat) (lk : Link) (r : Fin 11) (d : Desc)
  /-- SET_POSITION (R276). -/
  | setPosition (dt : Nat) (lk : Link) (r : Fin 11) (d : Desc)
  /-- FOLLOW_ON (R282). -/
  | followOn (dt : Nat) (lk : Link) (r : Fin 11) (d : Desc)
  /-- FOLLOW_OFF (R284). -/
  | followOff (dt : Nat) (lk : Link) (r : Fin 11) (d : Desc)
  /-- MOVE_TRAP (R259). -/
  | moveTrap (dt : Nat) (lk : Link) (r : Fin 11) (d : Desc)
  /-- MOVE_SCURVE (R261). -/
  | moveScurve (dt : Nat) (lk : Link) (r : Fin 11) (d : Desc)
  /-- MOVE_VEL (R263). -/
  | moveVel (dt : Nat) (lk : Link) (r : Fin 11) (d : Desc)
  /-- HOME (R285). -/
  | home (dt : Nat) (lk : Link) (r : Fin 11) (d : Desc)
  /-- DWELL (R238). -/
  | dwell (dt : Nat) (lk : Link) (r : Fin 11) (d : Desc)
  /-- DWELL_COMPLETE (R238). -/
  | dwellComplete (dt : Nat) (q : Fin 10)
  /-- COORD_PART (R237). -/
  | coordPart (dt : Nat) (lk : Link) (r : Fin 11) (d : Desc)
  /-- STATION_STOP (R280). -/
  | stationStop (dt : Nat) (lk : Link) (r : Fin 11) (d : Desc)
  /-- NOP (R228). -/
  | nop (dt : Nat) (lk : Link) (r : Fin 11) (d : Desc)
  /-- FENCE (R244). -/
  | fence (dt : Nat) (lk : Link) (r : Fin 11) (d : Desc)
  /-- CANCEL_TAG (R249). -/
  | cancelTag (dt : Nat) (lk : Link) (r : Fin 11) (d : Desc)
  /-- CANCEL_RING (R250). -/
  | cancelRing (dt : Nat) (lk : Link) (r : Fin 11) (d : Desc)
  /-- PROG_START (R441). -/
  | progStart (dt : Nat) (lk : Link) (r : Fin 11) (d : Desc)
  /-- PROG_STOP (R441). -/
  | progStop (dt : Nat) (lk : Link) (r : Fin 11) (d : Desc)
  /-- BACKLOG_POST (R245). -/
  | backlogPost (dt : Nat)
  /-- TAG_QUERY (R235). -/
  | tagQuery (dt : Nat) (lk : Link) (tag : BitVec 10)
  /-- RING_RELEASE (R247). -/
  | ringRelease (dt : Nat) (lk : Link) (q : Fin 5) (upto : BitVec 16)
  /-- RING_RECORD_AUTO_ADVANCE (R246). -/
  | ringRecordAutoAdvance (dt : Nat) (lk : Link) (q : Fin 5)
  /-- RING_CNT_CLR (R251). -/
  | ringCntClr (dt : Nat) (lk : Link) (r : Fin 16)
  /-- STALL_REPORT (R356). -/
  | stallReport (dt : Nat) (n : Fin 8)
  /-- CLOSURE_ERROR (R275). -/
  | closureError (dt : Nat) (n : Fin 8)
  /-- HOMING_TIMEOUT (R287). -/
  | homingTimeout (dt : Nat) (n : Fin 8)
  /-- STEP_PULSE (R281). -/
  | stepPulse (dt : Nat) (n : Fin 8) (dir : Bool)
  /-- HOLD_REDUCTION_START (R295). -/
  | holdReductionStart (dt : Nat) (n : Fin 8)
  /-- IDCHK_GO (R311). -/
  | idchkGo (dt : Nat) (lk : Link) (n : Fin 8)
  /-- IDCHK_PULSE_END (R312). -/
  | idchkPulseEnd (dt : Nat) (n : Fin 8) (reached : Bool)
  /-- IDCHK_COMPLETE (R315). -/
  | idchkComplete (dt : Nat) (n : Fin 8) (dutyA : Unit) (dutyB : Unit)
  /-- PWM_BOUNDARY (R325). -/
  | pwmBoundary (dt : Nat) (c : Fin 16)
  /-- PWM_EDGE (R323). -/
  | pwmEdge (dt : Nat) (c : Fin 16)
  /-- PEAK_COMPARATOR_TRIP (R303). -/
  | peakComparatorTrip (dt : Nat) (c : Fin 16)
  /-- PHASE_TIME_LIMIT (R305). -/
  | phaseTimeLimit (dt : Nat) (c : Fin 16)
  /-- DECAY_ZERO_CROSS (R307). -/
  | decayZeroCross (dt : Nat) (c : Fin 16)
  /-- COIL_SAMPLE (R395). -/
  | coilSample (dt : Nat) (c : Fin 16) (slot : Fin 3)
  /-- COIL_CONVERSION_DONE (R398). -/
  | coilConversionDone (dt : Nat) (c : Fin 16) (code : BitVec 12)
  /-- SYNC_PULSE (R331). -/
  | syncPulse (dt : Nat) (c : Fin 16)
  /-- REG_CNT_CLR (R318). -/
  | regCntClr (dt : Nat) (lk : Link) (c : Fin 16)
  /-- PWM_CNT_CLR (R340). -/
  | pwmCntClr (dt : Nat) (lk : Link) (c : Fin 16)
  /-- ADC_CNT_CLR (R419). -/
  | adcCntClr (dt : Nat) (lk : Link) (c : Fin 16)
  /-- TRIP_ASSERT (R335). -/
  | tripAssert (dt : Nat) (t : Held 4)
  /-- TRIP_RELEASE (R334). -/
  | tripRelease (dt : Nat) (t : Held 4)
  /-- TRIP_CLEAR (R337). -/
  | tripClear (dt : Nat) (lk : Link) (mask : BitVec 4)
  /-- TRIP_CNT_CLR (R341). -/
  | tripCntClr (dt : Nat) (lk : Link)
  /-- BACKDRIVE_EPISODE_START (R359). -/
  | backdriveEpisodeStart (dt : Nat) (n : Fin 8)
  /-- BACKDRIVE_EPISODE_END (R359). -/
  | backdriveEpisodeEnd (dt : Nat) (n : Fin 8)
  /-- OBS_CAL_GO (R360). -/
  | obsCalGo (dt : Nat) (lk : Link) (n : Fin 8)
  /-- OBS_CAL_STILL_END (R361). -/
  | obsCalStillEnd (dt : Nat) (n : Fin 8)
  /-- OBS_CAL_COMPLETE (R362). -/
  | obsCalComplete (dt : Nat) (n : Fin 8)
  /-- OBS_CAL_ABORT (R363). -/
  | obsCalAbort (dt : Nat) (lk : Link) (n : Fin 8)
  /-- OBS_CAL_TIMEOUT (R363). -/
  | obsCalTimeout (dt : Nat) (n : Fin 8)
  /-- OBS_CNT_CLR (R365). -/
  | obsCntClr (dt : Nat) (lk : Link) (n : Fin 8)
  /-- ENCODER_TRANSITION (R367). -/
  | encoderTransition (dt : Nat) (n : Fin 8) (a : Stood) (b : Stood)
  /-- INDEX_MARK (R386). -/
  | indexMark (dt : Nat) (n : Held 8)
  /-- ENCODER_STANDSTILL (R382). -/
  | encoderStandstill (dt : Nat) (n : Fin 8)
  /-- SSI_REQUEST (R377). -/
  | ssiRequest (dt : Nat) (lk : Link) (n : Fin 8) (high : Bool)
  /-- SSI_AUTO_REQUEST (R377). -/
  | ssiAutoRequest (dt : Nat) (n : Fin 8) (high : Bool)
  /-- SSI_WORD_DONE (R378). -/
  | ssiWordDone (dt : Nat) (n : Fin 8) (w : BitVec 32) (endBit : Bool)
  /-- SSI_RECOVERY_END (R376). -/
  | ssiRecoveryEnd (dt : Nat) (n : Fin 8) (high : Bool)
  /-- ENC_FAULT_CLEAR (R392). -/
  | encFaultClear (dt : Nat) (lk : Link) (n : Fin 8)
  /-- DP_CNT_CLR (R393). -/
  | dpCntClr (dt : Nat) (lk : Link) (n : Fin 8)
  /-- DIRCHK_RESTART (R389). -/
  | dirchkRestart (dt : Nat) (lk : Link) (n : Fin 8)
  /-- SURVEY_ROUND_START (R406). -/
  | surveyRoundStart (dt : Nat) (st : Fin 2)
  /-- SURVEY_TICK_TRIGGER (R406). -/
  | surveyTickTrigger (dt : Nat) (st : Fin 2)
  /-- AINTRG_EDGE (R406). -/
  | aintrgEdge (dt : Rise)
  /-- SV_TRG (R406). -/
  | svTrg (dt : Nat) (lk : Link) (st : Fin 2)
  /-- SV_ITRG (R409). -/
  | svItrg (dt : Nat) (lk : Link) (st : Fin 2)
  /-- SURVEY_INJECTED_TICK_TRIGGER (R409). -/
  | surveyInjectedTickTrigger (dt : Nat) (st : Fin 2)
  /-- SURVEY_CONVERSION_DONE (R400). -/
  | surveyConversionDone (dt : Nat) (st : Fin 2) (uv : BitVec 32)
  /-- SURVEY_ENTRY_COMPLETE (R401). -/
  | surveyEntryComplete (dt : Nat) (st : Fin 2)
  /-- HOUSEKEEPING_DUE (R403). -/
  | housekeepingDue (dt : Nat) (st : Fin 2)
  /-- HOUSEKEEPING_COMPLETE (R402). -/
  | housekeepingComplete (dt : Nat) (st : Fin 2)
  /-- XCHK_FAIL (R413). -/
  | xchkFail (dt : Nat)
  /-- SURVEY_POWER_DOWN (R407). -/
  | surveyPowerDown (dt : Nat) (st : Fin 2)
  /-- SURVEY_STARTUP_DONE (R407). -/
  | surveyStartupDone (dt : Nat) (st : Fin 2)
  /-- SV_CNT_CLR (R418). -/
  | svCntClr (dt : Nat) (lk : Link) (st : Fin 2)
  /-- SV_CAL_ZERO (R414). -/
  | svCalZero (dt : Nat) (lk : Link) (st : Fin 2)
  /-- SV_CAL_FULL (R414). -/
  | svCalFull (dt : Nat) (lk : Link) (st : Fin 2)
  /-- SV_CAL_READINGS_DONE (R415). -/
  | svCalReadingsDone (dt : Nat) (st : Fin 2)
  /-- SV_CAL_STORE (R416). -/
  | svCalStore (dt : Nat) (lk : Link) (st : Fin 2) (ok : Bool)
  /-- ID_PRESENCE_POLL (R422). -/
  | idPresencePoll (dt : Nat) (ack : BitVec 8)
  /-- ID_LINE_PRESENT_READ (R423). -/
  | idLinePresentRead (dt : Nat) (n : Fin 8)
  /-- ID_RESCAN (R423). -/
  | idRescan (dt : Nat) (lk : Link) (mask : BitVec 8)
  /-- ID_READ_DONE (R425). -/
  | idReadDone (dt : Nat) (n : Fin 8) (rd : IdRead)
  /-- ID_READ_RETRY (R423). -/
  | idReadRetry (dt : Nat) (n : Fin 8)
  /-- ID_CNT_CLR (R430). -/
  | idCntClr (dt : Nat) (lk : Link)
  /-- PUSH (R445). -/
  | push (dt : Nat) (x : Fin 4) (w1 : BitVec 64) (w2 : BitVec 64) (w3 : BitVec 64)
  /-- WAITTAG (R445). -/
  | waittag (dt : Nat) (x : Fin 4) (w : BitVec 64)
  /-- WAITTAG_TIMEOUT (R445). -/
  | waittagTimeout (dt : Nat) (x : Fin 4)
  /-- WAITIN (R445). -/
  | waitin (dt : Nat) (x : Fin 4) (w : BitVec 64)
  /-- WAITIN_TIMEOUT (R445). -/
  | waitinTimeout (dt : Nat) (x : Fin 4)
  /-- WAITTIME (R445). -/
  | waittime (dt : Nat) (x : Fin 4) (w : BitVec 64)
  /-- WAITTIME_EXPIRY (R445). -/
  | waittimeExpiry (dt : Nat) (x : Fin 4)
  /-- BREV (R445). -/
  | brev (dt : Nat) (x : Fin 4) (w : BitVec 64)
  /-- LOOP (R445). -/
  | loop (dt : Nat) (x : Fin 4) (w : BitVec 64)
  /-- RAISE (R445). -/
  | raise (dt : Nat) (x : Fin 4) (w : BitVec 64)
  /-- PROG_HOME (R445). -/
  | progHome (dt : Nat) (x : Fin 4) (w1 : BitVec 64) (w2 : BitVec 64)
  /-- SETREG (R445). -/
  | setreg (dt : Nat) (x : Fin 4) (w : BitVec 64)
  /-- END (R445). -/
  | progEnd (dt : Nat) (x : Fin 4) (w : BitVec 64)
  /-- KA_MONITOR_READING (R449). -/
  | kaMonitorReading (dt : Nat) (t6 : BitVec 16) (t7 : BitVec 16) (vlink : BitVec 16) (vbak : BitVec 16) (ilink : BitVec 12)
  /-- FIELD_CLOCK_SET (R450). -/
  | fieldClockSet (dt : Nat) (lk : Link) (secs : Word)
  /-- FIELD_BOOK_WRITE_DONE (R453). -/
  | fieldBookWriteDone (dt : Nat)
  /-- FB_CNT_CLR (R472). -/
  | fbCntClr (dt : Nat) (lk : Link)
  /-- SEAL_COMMIT (R459). -/
  | sealCommit (dt : Nat) (lk : Link) (data : Word)
  /-- SEAL_PROGRAM_DONE (R459). -/
  | sealProgramDone (dt : Nat) (ok : Bool)
  /-- UPD_BEGIN (R465). -/
  | updBegin (dt : Nat) (lk : Link) (image : Bool)
  /-- UPD_WRITE (R467). -/
  | updWrite (dt : Nat) (lk : Link)
  /-- UPD_VERIFY (R465). -/
  | updVerify (dt : Nat) (lk : Link)
  /-- UPD_ACTIVATE (R468). -/
  | updActivate (dt : Nat) (lk : Link)
  /-- UPD_ABORT (R465). -/
  | updAbort (dt : Nat) (lk : Link)
  /-- UPD_REVOKE (R465). -/
  | updRevoke (dt : Nat) (lk : Link) (image : Bool) (slotB : Bool)
  /-- UPD_OPERATION_DONE (R465). -/
  | updOperationDone (dt : Nat) (ok : Bool)
  /-- MOISTURE_ROUND (R469). -/
  | moistureRound (dt : Nat)
  /-- MOISTURE_TEST (R94). -/
  | moistureTest (dt : Nat) (mv : BitVec 16)
  /-- MW_CNT_CLR (R472). -/
  | mwCntClr (dt : Nat) (lk : Link)
  /-- EVENT_ACK (R476). -/
  | eventAck (dt : Nat) (lk : Link) (e : Fin 64)
  /-- EVENT_SIMULATE (R478). -/
  | eventSimulate (dt : Nat) (lk : Link) (e : Fin 64)
  /-- CAPTURE_FREEZE (R486). -/
  | captureFreeze (dt : Nat)
  /-- CLOS_MAX_CLR (R288). -/
  | closMaxClr (dt : Nat) (lk : Link) (n : Fin 8)
  /-- RESET_HOLDOFF_END (R114). -/
  | resetHoldoffEnd (dt : Nat)
  deriving DecidableEq, Repr

end Sys2Proof
end

