-- ==== Sys2Proof/Decode.lean ====
section
/-!
DEFINITION. The decoder over the operation table's bits. Every row of spec/opcode_table.json has an empty field list: the
table gives no bits, a command is an access, a frame, a packet or an event, and no word spells one. So the decoder answers
none for every word. Frames, packets, descriptors and program words have their own decoders beside the meanings that take
them (Frames.lean, Grelas.lean, Operands.lean, Programs.lean).
-/

namespace Sys2Proof

/-- The command that a word spells by the table's bits: none, since no row of the table has bits. -/
def decodeTableWord (_nbits _w : Nat) : Option Instr := none

end Sys2Proof
end

