-- ==== Sys2Proof/Machine/Bits.lean ====
section
/-!
DEFINITION. Plain arithmetic shared by the whole model: bit fields, two's complement, saturation, integer square roots,
rounding, vectors and lists of fixed size, and the canonical sparse map that registers, flash and NVM are held in.
-/

namespace Sys2Proof.Machine

/-- Bits [lo+w-1:lo] of `x`. -/
def bits (x lo w : Nat) : Nat := x / 2 ^ lo % 2 ^ w

/-- One bit of `x` as a truth value. -/
def bit (x i : Nat) : Bool := x / 2 ^ i % 2 == 1

/-- `x` with bits [lo+w-1:lo] replaced by the low `w` bits of `v`. -/
def setBits (x lo w v : Nat) : Nat := x - bits x lo w * 2 ^ lo + v % 2 ^ w * 2 ^ lo

/-- 1 for true, 0 for false. -/
def b2n (b : Bool) : Nat := if b then 1 else 0

/-- The signed value of a `w`-bit two's-complement pattern. -/
def sgn (w x : Nat) : Int := if x % 2 ^ w < 2 ^ (w - 1) then (x % 2 ^ w : Nat) else ((x % 2 ^ w : Nat) : Int) - (2 ^ w : Nat)

/-- The `w`-bit two's-complement pattern of an integer. -/
def pat (w : Nat) (i : Int) : Nat := (i % (2 ^ w : Nat)).toNat

/-- `i` limited to a signed `w`-bit range. -/
def satS (w : Nat) (i : Int) : Int :=
  if i < -(2 ^ (w - 1) : Nat) then -(2 ^ (w - 1) : Nat) else if i > (2 ^ (w - 1) : Nat) - 1 then (2 ^ (w - 1) : Nat) - 1 else i

/-- `x` limited to a `w`-bit unsigned range. -/
def satU (w x : Nat) : Nat := min x (2 ^ w - 1)

/-- `x` limited to `lo`..`hi`. -/
def clampN (lo hi x : Nat) : Nat := if x < lo then lo else if x > hi then hi else x

/-- The integer `x` limited to `lo`..`hi`. -/
def clampI (lo hi x : Int) : Int := if x < lo then lo else if x > hi then hi else x

/-- 0 acts as 1 (the register tables' "0 acts as 1"). -/
def or1 (x : Nat) : Nat := if x = 0 then 1 else x

/-- The sign of an integer: -1, 0 or 1. -/
def isgn (i : Int) : Int := if i < 0 then -1 else if i = 0 then 0 else 1

/-- The quotient rounded to the nearest integer, halves up. -/
def rdiv (a b : Int) : Int := (2 * a + b) / (2 * b)

/-- The quotient rounded toward zero. -/
def tdiv (a b : Int) : Int := if a < 0 then -((-a) / b) else a / b

/-- One bit-by-bit refinement of a square root: `k` bits still to settle. -/
def isqrtGo (n : Nat) : Nat → Nat → Nat
  | 0, r => r
  | k + 1, r => isqrtGo n k (if (r + 2 ^ k) * (r + 2 ^ k) ≤ n then r + 2 ^ k else r)

/-- The integer square root (floor) of a number below 2^256. -/
def isqrt (n : Nat) : Nat := isqrtGo n 128 0

/-- Bit-wise AND, OR and exclusive OR of numbers. -/
def nand (a b : Nat) : Nat := a &&& b

/-- The value at key `a`, `d` where none is listed. -/
def kvGet {α : Type} (m : List (Nat × α)) (a : Nat) (d : α) : α :=
  match m with
  | [] => d
  | (b, x) :: t => if a = b then x else kvGet t a d

/-- The map with entry `(a, v)` in its place. -/
def kvIns {α : Type} (m : List (Nat × α)) (a : Nat) (v : α) : List (Nat × α) :=
  match m with
  | [] => [(a, v)]
  | (b, x) :: t => if a < b then (a, v) :: (b, x) :: t else if a = b then (a, v) :: t else (b, x) :: kvIns t a v

/-- The map with `v` at key `a`; the entry is dropped where `v` is the value `d` that an unlisted key has. -/
def kvSet {α : Type} [DecidableEq α] (m : List (Nat × α)) (a : Nat) (v d : α) : List (Nat × α) :=
  if v = d then m.filter (fun e => !decide (e.1 = a)) else kvIns m a v

/-- The canonical form: keys strictly rising from `lo` on, no entry equal to what an unlisted key reads as. -/
def kvWfFrom {α : Type} [DecidableEq α] (dflt : Nat → α) : Nat → List (Nat × α) → Bool
  | _, [] => true
  | lo, (a, v) :: t => decide (lo ≤ a) && decide (v ≠ dflt a) && kvWfFrom dflt (a + 1) t

/-- The canonical form of a sparse map. -/
def kvWf {α : Type} [DecidableEq α] (dflt : Nat → α) (m : List (Nat × α)) : Bool := kvWfFrom dflt 0 m

/-- The map without the keys that `p` holds of. -/
def kvDrop {α : Type} (m : List (Nat × α)) (p : Nat → Bool) : List (Nat × α) := m.filter (fun e => !p e.1)

/-- Element `i` of a vector changed by `f`. -/
def vupd {α : Type} {k : Nat} (v : Vector α k) (i : Fin k) (f : α → α) : Vector α k := v.set i (f v[i])

/-- `f` folded over 0 … k - 1, in order. -/
def forFin {σ : Type} (k : Nat) (f : Fin k → σ → σ) (s : σ) : σ := (List.finRange k).foldl (fun s i => f i s) s

/-- `f` folded over a list, in order. -/
def forList {α σ : Type} (l : List α) (f : α → σ → σ) (s : σ) : σ := l.foldl (fun s x => f x s) s

/-- A word from its number. -/
def W (x : Nat) : Word := BitVec.ofNat 32 x

/-- The axis of a device coil number (R3). -/
def axisOf (c : Fin 16) : Fin 8 := ⟨c.val / 2, by omega⟩

/-- The station of an axis (R2). -/
def stationOf (n : Fin 8) : Fin 2 := ⟨n.val / 4, by omega⟩

/-- The station of a device coil number. -/
def stationOfCoil (c : Fin 16) : Fin 2 := ⟨c.val / 8, by omega⟩

/-- The device coil number of coil A (`b` = false) or B of an axis (R3). -/
def coilOf (n : Fin 8) (b : Bool) : Fin 16 := ⟨2 * n.val + b2n b, by unfold b2n; split <;> omega⟩

/-- The axes of a station. -/
def axesOf (st : Fin 2) : List (Fin 8) := (List.finRange 8).filter (fun n => stationOf n == st)

/-- The set bits of the low `k` bits of `x`, as indices. -/
def setBitsOf (k x : Nat) : List (Fin k) := (List.finRange k).filter (fun i => bit x i.val)

/-- Nanoseconds, microseconds and milliseconds in 2.5 ns cycles of the main clock (R19). -/
def usCyc (us : Nat) : Nat := us * 400

/-- Milliseconds in 2.5 ns cycles. -/
def msCyc (ms : Nat) : Nat := ms * 400000

end Sys2Proof.Machine
end

