-- ==== Sys2Proof/Machine/RegMap.lean ====
section
/-!
DEFINITION. The register map: for every register of the spec its address and the fields it holds (bits, access code of
R14 and R144, reset value), and one name per field. Addresses of the indirect space (R159) stand at `mgBase` plus the
24-bit indirect address. Every row follows the register table that its comment names.
-/

namespace Sys2Proof.Machine

/-- Access codes of Table 0-8 (R14). -/
inductive Acc where
  | rw | ro | rs | wp | rwk | rwb | rwm
  deriving DecidableEq, Repr

/-- One field of a register: lowest bit, width, access code, reset value. -/
structure FRow where
  lo : Nat
  w : Nat
  acc : Acc
  rst : Nat
  deriving DecidableEq, Repr

/-- A run of registers of one layout: `count` registers from `base`, `stride` apart. -/
structure RDef where
  base : Nat
  stride : Nat
  count : Nat
  rows : List FRow
  deriving DecidableEq, Repr

/-- A named field: the address of its register, its lowest bit and its width. -/
structure Fld where
  a : Nat
  lo : Nat
  w : Nat
  deriving DecidableEq, Repr

/-- Where the 24-bit indirect space (Table 5-5) stands in the key space of the register file. -/
def mgBase : Nat := 0x1000000

/-! ## Layout tables -/

/-- Registers of the dev block, part 1. -/
def devRegs1 : List RDef := [
  ⟨0x0, 0x1, 1, [⟨0, 16, .ro, 0x8640⟩, ⟨16, 8, .ro, 0x56⟩]⟩,  -- DEV_ID, Table 5-3
  ⟨0x1, 0x1, 1, [⟨0, 4, .ro, 0⟩, ⟨4, 1, .ro, 0⟩]⟩,  -- DEV_REV, Table 5-3
  ⟨0x2, 0x1, 1, [⟨0, 32, .ro, 0⟩]⟩,  -- DEV_SERIAL, Table 5-3
  ⟨0x3, 0x1, 1, [⟨0, 8, .ro, 0⟩, ⟨8, 8, .ro, 0⟩, ⟨16, 8, .ro, 0⟩]⟩,  -- DEV_FWVER, Table 5-3
  ⟨0x4, 0x1, 1, [⟨0, 32, .ro, 0⟩]⟩,  -- DEV_IMGVER, Table 5-3
  ⟨0x10, 0x1, 1, [⟨0, 3, .ro, 2⟩, ⟨3, 1, .rs, 0⟩, ⟨8, 7, .rs, 0⟩, ⟨16, 4, .ro, 0⟩]⟩,  -- DEV_STATE, Table 4-6
  ⟨0x11, 0x1, 1, [⟨0, 2, .ro, 0⟩, ⟨2, 1, .ro, 0⟩, ⟨3, 1, .ro, 0⟩, ⟨4, 12, .ro, 0⟩, ⟨16, 8, .ro, 0⟩]⟩,  -- DEV_RSTCAUSE, Table 4-7
  ⟨0x12, 0x1, 1, [⟨0, 2, .ro, 0⟩, ⟨2, 1, .ro, 0⟩, ⟨3, 1, .ro, 0⟩, ⟨4, 1, .ro, 0⟩, ⟨5, 3, .ro, 0⟩, ⟨8, 1, .ro, 0⟩, ⟨9, 1, .ro, 0⟩, ⟨10, 3, .ro, 0⟩, ⟨16, 16, .ro, 0⟩]⟩,  -- DEV_BOOTSTAT, Table 4-8
  ⟨0x13, 0x1, 1, [⟨0, 1, .wp, 0⟩, ⟨1, 1, .wp, 0⟩, ⟨2, 1, .wp, 0⟩]⟩,  -- DEV_BOOTCTL, Table 4-9
  ⟨0x14, 0x1, 1, [⟨0, 12, .rw, 0⟩, ⟨12, 1, .rw, 0⟩, ⟨13, 1, .rs, 0⟩, ⟨16, 8, .rw, 0⟩]⟩,  -- DEV_WDOG_CFG, Table 4-10
  ⟨0x15, 0x1, 1, [⟨0, 8, .wp, 0⟩, ⟨8, 16, .wp, 0⟩]⟩,  -- DEV_BLKRST, Table 4-11
  ⟨0x16, 0x1, 1, [⟨0, 10, .rw, 0xc8⟩]⟩  -- DEV_BLKRST_CFG, Table 4-12
]

/-- Registers of the dev block, part 2. -/
def devRegs2 : List RDef := [
  ⟨0x17, 0x1, 1, [⟨0, 8, .rs, 0⟩, ⟨8, 8, .ro, 0⟩, ⟨16, 16, .ro, 0⟩]⟩,  -- DEV_BLKRST_STAT, Table 4-13
  ⟨0x20, 0x1, 1, [⟨0, 32, .wp, 0⟩]⟩,  -- DEV_UNLOCK, Table 5-8
  ⟨0x21, 0x1, 1, [⟨0, 8, .wp, 0⟩, ⟨8, 2, .wp, 0⟩, ⟨10, 1, .wp, 0⟩]⟩,  -- DEV_UPDATE, Table 5-8
  ⟨0x22, 0x1, 1, [⟨0, 8, .rs, 0⟩, ⟨8, 2, .rs, 0⟩, ⟨10, 1, .rs, 0⟩, ⟨16, 8, .ro, 0⟩]⟩,  -- DEV_UPDATE_STAT, Table 5-8
  ⟨0x23, 0x1, 1, [⟨0, 8, .ro, 0⟩, ⟨8, 8, .ro, 0⟩, ⟨16, 8, .ro, 0⟩, ⟨24, 1, .rs, 0⟩, ⟨25, 1, .rs, 0⟩, ⟨31, 1, .wp, 0⟩]⟩,  -- DEV_ACCSTAT, Table 5-8
  ⟨0x24, 0x1, 1, [⟨0, 24, .rw, 0⟩, ⟨24, 1, .rw, 1⟩, ⟨25, 1, .ro, 0⟩]⟩,  -- DEV_IND_ADDR, Table 5-9
  ⟨0x25, 0x1, 1, [⟨0, 32, .rw, 0⟩]⟩,  -- DEV_IND_DATA, Table 5-9
  ⟨0x26, 0x1, 1, [⟨0, 1, .rs, 0⟩, ⟨1, 1, .rs, 0⟩, ⟨4, 3, .ro, 0⟩, ⟨8, 1, .ro, 0⟩]⟩,  -- DEV_IND_STAT, Table 5-9
  ⟨0x30, 0x1, 1, [⟨0, 1, .wp, 0⟩, ⟨8, 8, .ro, 0⟩]⟩,  -- DEV_RW_CTL, Table 6-6
  ⟨0x31, 0x1, 1, [⟨0, 16, .ro, 0⟩, ⟨16, 16, .ro, 0⟩]⟩,  -- DEV_RW_SPI_SEQ, Table 6-6
  ⟨0x32, 0x1, 1, [⟨0, 16, .ro, 0⟩, ⟨16, 16, .ro, 0⟩]⟩,  -- DEV_RW_SPI_WR, Table 6-6
  ⟨0x33, 0x1, 1, [⟨0, 16, .ro, 0⟩, ⟨16, 4, .ro, 0⟩, ⟨20, 1, .ro, 0⟩]⟩  -- DEV_RW_SPI_RPL, Table 6-6
]

/-- Registers of the dev block, part 3. -/
def devRegs3 : List RDef := [
  ⟨0x34, 0x1, 1, [⟨0, 16, .ro, 0⟩, ⟨16, 16, .ro, 0⟩]⟩,  -- DEV_RW_LNK_SEQ, Table 6-6
  ⟨0x35, 0x1, 1, [⟨0, 16, .ro, 0⟩, ⟨16, 16, .ro, 0⟩]⟩,  -- DEV_RW_LNK_WR, Table 6-6
  ⟨0x36, 0x1, 1, [⟨0, 16, .ro, 0⟩, ⟨16, 4, .ro, 0⟩, ⟨20, 1, .ro, 0⟩]⟩,  -- DEV_RW_LNK_RPL, Table 6-6
  ⟨0x38, 0x1, 1, [⟨0, 16, .ro, 0⟩, ⟨16, 16, .ro, 0⟩]⟩,  -- DEV_RW_CSEQ, Table 6-6
  ⟨0x39, 0x1, 1, [⟨0, 16, .ro, 0⟩, ⟨16, 16, .ro, 0⟩]⟩,  -- DEV_RW_EVSEQ, Table 6-6
  ⟨0x3a, 0x1, 1, [⟨0, 10, .ro, 0⟩]⟩,  -- DEV_RW_TAGS, Table 6-6
  ⟨0x3b, 0x1, 1, [⟨0, 32, .ro, 0⟩]⟩,  -- DEV_RW_TIME, Table 6-6
  ⟨0x40, 0x1, 1, [⟨0, 1, .rwk, 0⟩, ⟨4, 3, .rw, 7⟩, ⟨8, 2, .ro, 0⟩]⟩,  -- LNK_SPI_CFG, Table 6-7
  ⟨0x41, 0x1, 1, [⟨0, 1, .ro, 0⟩, ⟨1, 1, .ro, 0⟩, ⟨2, 1, .rs, 0⟩, ⟨8, 8, .ro, 0⟩, ⟨31, 1, .wp, 0⟩]⟩,  -- LNK_SPI_STAT, Table 6-7
  ⟨0x42, 0x1, 1, [⟨0, 8, .ro, 0⟩, ⟨8, 8, .ro, 0⟩, ⟨16, 8, .ro, 0⟩, ⟨24, 8, .ro, 0⟩]⟩,  -- LNK_SPI_CNT, Table 6-7
  ⟨0x50, 0x1, 1, [⟨0, 5, .ro, 0⟩, ⟨8, 1, .ro, 0⟩, ⟨9, 1, .rw, 0⟩, ⟨16, 8, .rw, 0x28⟩]⟩,  -- LNK_GR_CFG, Table 7-4
  ⟨0x51, 0x1, 1, [⟨0, 1, .rs, 0⟩, ⟨1, 1, .rs, 0⟩, ⟨2, 1, .rs, 0⟩, ⟨3, 1, .rs, 0⟩, ⟨8, 8, .ro, 0⟩, ⟨31, 1, .wp, 0⟩]⟩  -- LNK_GR_STAT, Table 7-4
]

/-- Registers of the dev block, part 4. -/
def devRegs4 : List RDef := [
  ⟨0x52, 0x1, 1, [⟨0, 8, .ro, 0⟩, ⟨8, 8, .ro, 0⟩, ⟨16, 8, .ro, 0⟩]⟩,  -- LNK_GR_CNT, Table 7-5
  ⟨0x53, 0x1, 1, [⟨0, 8, .ro, 0⟩, ⟨8, 8, .ro, 0⟩, ⟨16, 8, .ro, 0⟩, ⟨24, 8, .ro, 0⟩]⟩,  -- LNK_GR_FCNT, Table 7-5
  ⟨0x54, 0x1, 1, [⟨0, 32, .ro, 0⟩]⟩,  -- LNK_GR_EPOCH, Table 7-6
  ⟨0x55, 0x1, 1, [⟨0, 10, .rw, 0⟩]⟩,  -- LNK_GR_TICK, Table 7-6
  ⟨0x56, 0x1, 1, [⟨0, 32, .ro, 0⟩]⟩,  -- LNK_GR_TICKNUM, Table 7-6
  ⟨0x57, 0x1, 1, [⟨0, 16, .ro, 0⟩, ⟨16, 12, .ro, 0⟩]⟩,  -- LNK_GR_PWR, Table 7-6
  ⟨0x60, 0x1, 1, [⟨0, 1, .rwk, 0⟩, ⟨8, 1, .wp, 0⟩]⟩,  -- DEV_ARB_CFG, Table 1-16
  ⟨0x61, 0x1, 1, [⟨0, 1, .ro, 0⟩, ⟨4, 4, .ro, 0⟩, ⟨8, 4, .ro, 0⟩, ⟨12, 4, .ro, 0⟩, ⟨16, 8, .ro, 0⟩]⟩,  -- DEV_ARB_STAT, Table 1-17
  ⟨0x62, 0x1, 1, [⟨0, 1, .rwk, 1⟩, ⟨8, 8, .rw, 4⟩, ⟨16, 1, .wp, 0⟩, ⟨17, 1, .wp, 0⟩]⟩,  -- DEV_MEM_CFG, Table 1-11
  ⟨0x63, 0x1, 1, [⟨0, 8, .ro, 0⟩, ⟨8, 8, .ro, 0⟩, ⟨16, 1, .ro, 1⟩, ⟨17, 1, .ro, 0⟩, ⟨24, 8, .ro, 0⟩]⟩,  -- DEV_MEM_STAT, Table 1-12
  ⟨0x64, 0x1, 2, [⟨0, 16, .ro, 0⟩, ⟨16, 16, .ro, 0⟩]⟩,  -- DEV_MEM_CNTS, Table 1-13
  ⟨0x66, 0x1, 1, [⟨0, 15, .ro, 0⟩, ⟨15, 1, .ro, 0⟩, ⟨16, 1, .ro, 0⟩, ⟨17, 5, .ro, 0⟩, ⟨22, 1, .ro, 0⟩, ⟨23, 1, .ro, 0⟩]⟩  -- DEV_MEM_FIRST, Table 1-14
]

/-- Registers of the dev block, part 5. -/
def devRegs5 : List RDef := [
  ⟨0x67, 0x1, 1, [⟨0, 15, .rwk, 0⟩, ⟨15, 1, .rwk, 0⟩, ⟨16, 5, .rwk, 0⟩, ⟨21, 5, .rwk, 0⟩, ⟨26, 1, .rwk, 0⟩, ⟨27, 1, .rwk, 0⟩]⟩  -- DEV_MEM_INJ, Table 1-15
]

/-- All registers of the dev block. -/
def devRegs : List RDef := devRegs1 ++ devRegs2 ++ devRegs3 ++ devRegs4 ++ devRegs5

/-- Registers of the ring block, part 1. -/
def ringRegs1 : List RDef := [
  ⟨0x80, 0xc, 11, [⟨0, 32, .rw, 0⟩]⟩,  -- RNG_STG, Table 8-8
  ⟨0x81, 0xc, 11, [⟨0, 32, .rw, 0⟩]⟩,  -- RNG_STG, Table 8-8
  ⟨0x82, 0xc, 11, [⟨0, 32, .rw, 0⟩]⟩,  -- RNG_STG, Table 8-8
  ⟨0x83, 0xc, 11, [⟨0, 32, .rw, 0⟩]⟩,  -- RNG_STG, Table 8-8
  ⟨0x84, 0xc, 11, [⟨0, 8, .ro, 0⟩, ⟨8, 10, .ro, 0⟩, ⟨24, 7, .ro, 0⟩, ⟨31, 1, .wp, 0⟩]⟩,  -- RNG_COMMIT, Table 8-8
  ⟨0x85, 0xc, 11, [⟨0, 7, .ro, 0⟩, ⟨8, 7, .ro, 0⟩, ⟨16, 1, .rs, 0⟩, ⟨17, 1, .rs, 0⟩, ⟨18, 10, .ro, 0⟩, ⟨31, 1, .wp, 0⟩]⟩,  -- CRNG_STAT, Table 8-8
  ⟨0x86, 0xc, 11, [⟨0, 8, .ro, 0⟩, ⟨8, 8, .ro, 0⟩, ⟨16, 8, .ro, 0⟩, ⟨24, 8, .ro, 0⟩]⟩,  -- CRNG_CNT, Table 8-8
  ⟨0x87, 0xc, 11, [⟨0, 10, .ro, 0⟩, ⟨10, 8, .ro, 0⟩, ⟨18, 2, .ro, 0⟩, ⟨20, 5, .ro, 0⟩]⟩,  -- RNG_LASTREJ, Table 8-8
  ⟨0x100, 0x1, 1, [⟨0, 10, .rw, 0⟩, ⟨10, 3, .ro, 0⟩, ⟨13, 4, .ro, 0⟩]⟩,  -- RNG10_TAGQ, Table 8-8
  ⟨0x104, 0xc, 2, [⟨0, 16, .rw, 1⟩]⟩,  -- RRNG_CFG, Table 8-9
  ⟨0x105, 0xc, 5, [⟨0, 15, .ro, 0⟩, ⟨16, 1, .rs, 0⟩, ⟨17, 1, .rs, 0⟩, ⟨18, 1, .rs, 0⟩, ⟨31, 1, .wp, 0⟩]⟩,  -- RRNG_STAT, Table 8-9
  ⟨0x106, 0xc, 5, [⟨0, 16, .ro, 0⟩, ⟨16, 16, .ro, 0⟩]⟩  -- RRNG_SEQ, Table 8-9
]

/-- Registers of the ring block, part 2. -/
def ringRegs2 : List RDef := [
  ⟨0x107, 0xc, 5, [⟨0, 16, .rw, 0⟩, ⟨16, 1, .rw, 1⟩, ⟨17, 1, .ro, 0⟩]⟩,  -- RRNG_PEEK, Table 8-9
  ⟨0x108, 0xc, 5, [⟨0, 32, .ro, 0⟩]⟩,  -- RRNG_D0, Table 8-9
  ⟨0x109, 0xc, 5, [⟨0, 32, .ro, 0⟩]⟩,  -- RRNG_D1, Table 8-9
  ⟨0x10a, 0xc, 5, [⟨0, 16, .wp, 0⟩]⟩,  -- RRNG_REL, Table 8-9
  ⟨0x10b, 0xc, 5, [⟨0, 8, .ro, 0⟩, ⟨8, 8, .ro, 0⟩, ⟨16, 8, .ro, 0⟩]⟩,  -- RRNG_CNT, Table 8-9
  ⟨0x11c, 0xc, 3, [⟨0, 16, .rw, 0⟩]⟩  -- RRNG_CFG, Table 8-9
]

/-- All registers of the ring block. -/
def ringRegs : List RDef := ringRegs1 ++ ringRegs2

/-- Registers of the pwr block, part 1. -/
def pwrRegs1 : List RDef := [
  ⟨0x140, 0x1, 1, [⟨0, 1, .rs, 0⟩, ⟨1, 1, .rs, 0⟩, ⟨2, 1, .rs, 0⟩, ⟨3, 1, .rs, 0⟩, ⟨4, 1, .rs, 0⟩, ⟨5, 1, .rs, 0⟩, ⟨6, 1, .rs, 0⟩, ⟨7, 1, .rs, 0⟩, ⟨8, 1, .rs, 0⟩, ⟨9, 1, .rs, 0⟩, ⟨10, 1, .rs, 0⟩, ⟨11, 1, .rs, 0⟩, ⟨12, 1, .rs, 0⟩, ⟨13, 1, .rs, 0⟩, ⟨14, 1, .rs, 0⟩, ⟨15, 1, .rs, 0⟩, ⟨16, 1, .rs, 0⟩, ⟨17, 1, .rs, 0⟩, ⟨18, 1, .rs, 0⟩, ⟨19, 1, .rs, 0⟩, ⟨20, 1, .rs, 0⟩, ⟨21, 1, .rs, 0⟩, ⟨22, 1, .rs, 0⟩, ⟨23, 1, .rs, 0⟩, ⟨24, 1, .rs, 0⟩, ⟨25, 1, .rs, 0⟩, ⟨26, 1, .rs, 0⟩]⟩,  -- PWR_STAT, Table 3-5
  ⟨0x141, 0x1, 1, [⟨0, 16, .rw, 0xd2f0⟩, ⟨16, 16, .rw, 0x2328⟩]⟩,  -- PWR_VM_CFG, Table 3-6
  ⟨0x142, 0x1, 1, [⟨0, 16, .ro, 0xee48⟩, ⟨16, 8, .rw, 0x14⟩, ⟨24, 8, .rw, 0x32⟩]⟩,  -- PWR_VM_AUX, Table 3-7
  ⟨0x143, 0x1, 1, [⟨0, 16, .ro, 0⟩, ⟨16, 16, .ro, 0⟩]⟩,  -- PWR_VMS, Table 3-8
  ⟨0x144, 0x1, 1, [⟨0, 1, .rw, 0⟩, ⟨1, 1, .rw, 0⟩, ⟨2, 1, .rw, 1⟩, ⟨3, 1, .rw, 1⟩]⟩,  -- PWR_PATH_CFG, Table 3-9
  ⟨0x148, 0x1, 1, [⟨0, 16, .ro, 0⟩, ⟨16, 16, .ro, 0⟩]⟩,  -- PWR_COILFLT, Table 3-10
  ⟨0x149, 0x1, 1, [⟨0, 16, .wp, 0⟩, ⟨16, 16, .wp, 0⟩]⟩,  -- PWR_COILFLT_CLR, Table 3-11
  ⟨0x14a, 0x1, 1, [⟨0, 2, .ro, 0⟩, ⟨2, 2, .ro, 0⟩, ⟨4, 2, .ro, 0⟩, ⟨6, 2, .ro, 0⟩, ⟨8, 2, .ro, 0⟩, ⟨10, 2, .ro, 0⟩, ⟨12, 2, .ro, 0⟩, ⟨14, 2, .ro, 0⟩, ⟨16, 2, .ro, 0⟩, ⟨18, 2, .ro, 0⟩, ⟨20, 2, .ro, 0⟩, ⟨22, 2, .ro, 0⟩, ⟨24, 2, .ro, 0⟩, ⟨26, 2, .ro, 0⟩, ⟨28, 2, .ro, 0⟩, ⟨30, 2, .ro, 0⟩]⟩,  -- PWR_OCKIND, Table 3-12
  ⟨0x150, 0x1, 1, [⟨0, 16, .rwk, 0x3e80⟩, ⟨16, 8, .rwk, 0x87⟩, ⟨24, 3, .rw, 3⟩, ⟨28, 4, .rw, 4⟩]⟩,  -- PWR_GOV_CFG, Table 3-13
  ⟨0x151, 0x1, 1, [⟨0, 16, .ro, 0⟩, ⟨16, 9, .ro, 0x100⟩]⟩,  -- PWR_GOV_STAT, Table 3-14
  ⟨0x152, 0x1, 1, [⟨0, 16, .ro, 0⟩, ⟨16, 16, .ro, 0⟩]⟩,  -- PWR_GOV_TEMP, Table 3-14
  ⟨0x153, 0x1, 1, [⟨0, 8, .rw, 0x7d⟩, ⟨8, 8, .ro, 0x96⟩, ⟨16, 8, .ro, 0x87⟩]⟩  -- PWR_TEMP_CFG, Table 3-15
]

/-- Registers of the pwr block, part 2. -/
def pwrRegs2 : List RDef := [
  ⟨0x158, 0x1, 8, [⟨0, 12, .ro, 0⟩, ⟨12, 1, .ro, 0⟩, ⟨13, 1, .ro, 0⟩, ⟨16, 16, .ro, 0⟩]⟩,  -- PWR_GOV_CEIL, Table 3-16
  ⟨0x160, 0x1, 8, [⟨0, 1, .rw, 0⟩, ⟨1, 1, .rw, 0⟩, ⟨8, 4, .rw, 8⟩]⟩,  -- PWR_AXCFG, Table 3-17
  ⟨0x168, 0x1, 8, [⟨0, 10, .ro, 0⟩]⟩,  -- PWR_FLTCAUSE, Table 3-17
  ⟨0x170, 0x1, 1, [⟨0, 16, .rw, 0x1f4⟩, ⟨16, 16, .rw, 0x32⟩]⟩,  -- PWR_MOIST_CFG, Table 3-18
  ⟨0x171, 0x1, 1, [⟨0, 16, .rw, 0x125c⟩]⟩,  -- PWR_MOIST_RPU, Table 3-18
  ⟨0x172, 0x1, 1, [⟨0, 8, .rs, 0⟩, ⟨8, 8, .rs, 0⟩, ⟨16, 8, .rs, 0⟩, ⟨24, 8, .rs, 0⟩]⟩,  -- PWR_MOIST_STAT, Table 3-18
  ⟨0x180, 0x1, 4, [⟨0, 8, .rwb, 0⟩, ⟨16, 9, .rwb, 0x28⟩]⟩,  -- PWR_TRIP_CFG, Table 11-7
  ⟨0x184, 0x1, 1, [⟨0, 4, .rs, 0⟩, ⟨8, 4, .ro, 0⟩]⟩,  -- PWR_TRIP_STAT, Table 11-7
  ⟨0x185, 0x1, 1, [⟨0, 4, .wp, 0⟩, ⟨8, 1, .wp, 0⟩]⟩,  -- PWR_TRIP_CLR, Table 11-7
  ⟨0x186, 0x1, 1, [⟨0, 8, .ro, 0⟩, ⟨8, 8, .ro, 0⟩, ⟨16, 8, .ro, 0⟩, ⟨24, 8, .ro, 0⟩]⟩,  -- PWR_TRIP_CNT, Table 11-7
  ⟨0x188, 0x1, 4, [⟨0, 16, .ro, 0⟩, ⟨16, 4, .ro, 0⟩, ⟨20, 4, .ro, 0⟩, ⟨24, 1, .ro, 0⟩]⟩,  -- PWR_TRIP_CAP, Table 11-7
  ⟨0x18c, 0x1, 4, [⟨0, 32, .ro, 0⟩]⟩  -- PWR_TRIP_TS, Table 11-7
]

/-- Registers of the pwr block, part 3. -/
def pwrRegs3 : List RDef := [
  ⟨0x1c0, 0x1, 1, [⟨0, 1, .rs, 0⟩, ⟨1, 1, .rs, 0⟩, ⟨2, 1, .rs, 0⟩]⟩,  -- CLK_STAT, Table 5-3
  ⟨0x1c8, 0x1, 1, [⟨0, 16, .rwb, 0x2710⟩, ⟨16, 4, .rwb, 3⟩, ⟨20, 4, .rwb, 0xc⟩, ⟨24, 2, .rwb, 0⟩, ⟨26, 1, .rwb, 0⟩]⟩,  -- CLK_TICK_CFG, Table 1-6
  ⟨0x1c9, 0x1, 1, [⟨0, 1, .rs, 0⟩, ⟨1, 1, .rs, 0⟩, ⟨2, 1, .rs, 0⟩, ⟨3, 1, .rs, 0⟩, ⟨4, 4, .ro, 0⟩, ⟨8, 1, .wp, 0⟩, ⟨9, 1, .wp, 0⟩]⟩,  -- CLK_TICK_STAT, Table 1-7
  ⟨0x1ca, 0x1, 1, [⟨0, 16, .ro, 0⟩, ⟨16, 8, .ro, 0⟩, ⟨24, 8, .ro, 0⟩]⟩,  -- CLK_TICK_LAST, Table 1-8
  ⟨0x1cc, 0x1, 8, [⟨0, 16, .ro, 0⟩]⟩  -- CLK_TICK_MAX, Table 1-9
]

/-- All registers of the pwr block. -/
def pwrRegs : List RDef := pwrRegs1 ++ pwrRegs2 ++ pwrRegs3

/-- Registers of the mb block, part 1. -/
def mbRegs1 : List RDef := [
  ⟨0x200, 0x10, 8, [⟨0, 8, .rw, 0⟩, ⟨8, 4, .rw, 0⟩, ⟨12, 1, .rw, 0⟩, ⟨16, 1, .wp, 0⟩]⟩,  -- MB_REQ, Table 5-10
  ⟨0x201, 0x10, 8, [⟨0, 1, .ro, 0⟩, ⟨1, 1, .ro, 0⟩, ⟨2, 1, .ro, 0⟩, ⟨3, 1, .ro, 0⟩, ⟨4, 4, .ro, 0⟩, ⟨8, 8, .ro, 0⟩, ⟨16, 8, .ro, 0⟩]⟩,  -- MB_STAT, Table 5-10
  ⟨0x202, 0x1, 8, [⟨0, 32, .ro, 0⟩]⟩,  -- MB_D, Table 5-10
  ⟨0x20c, 0x10, 8, [⟨0, 8, .rw, 0xff⟩, ⟨8, 8, .rw, 0⟩, ⟨16, 8, .rw, 0⟩]⟩,  -- DEV_EVRT, Table 17-2
  ⟨0x20d, 0x10, 8, [⟨0, 2, .rw, 0⟩, ⟨2, 2, .rw, 0⟩, ⟨4, 2, .rw, 0⟩, ⟨6, 2, .rw, 0⟩, ⟨8, 2, .rw, 0⟩, ⟨10, 2, .rw, 0⟩, ⟨12, 2, .rw, 0⟩, ⟨14, 2, .rw, 0⟩]⟩,  -- DEV_EVCAP, Table 17-2
  ⟨0x20e, 0x10, 8, [⟨0, 8, .ro, 0⟩, ⟨8, 8, .rs, 0⟩, ⟨16, 8, .wp, 0⟩, ⟨24, 8, .wp, 0⟩]⟩,  -- DEV_EVST, Table 17-2
  ⟨0x20f, 0x10, 8, [⟨0, 4, .ro, 0⟩, ⟨4, 4, .ro, 0⟩, ⟨8, 4, .ro, 0⟩, ⟨12, 4, .ro, 0⟩, ⟨16, 4, .ro, 0⟩, ⟨20, 4, .ro, 0⟩, ⟨24, 4, .ro, 0⟩, ⟨28, 4, .ro, 0⟩]⟩,  -- DEV_EVCNT, Table 17-2
  ⟨0x212, 0x1, 8, [⟨0, 32, .ro, 0⟩]⟩,  -- MB_D, Table 5-10
  ⟨0x222, 0x1, 8, [⟨0, 32, .ro, 0⟩]⟩,  -- MB_D, Table 5-10
  ⟨0x232, 0x1, 8, [⟨0, 32, .ro, 0⟩]⟩,  -- MB_D, Table 5-10
  ⟨0x242, 0x1, 8, [⟨0, 32, .ro, 0⟩]⟩,  -- MB_D, Table 5-10
  ⟨0x252, 0x1, 8, [⟨0, 32, .ro, 0⟩]⟩  -- MB_D, Table 5-10
]

/-- Registers of the mb block, part 2. -/
def mbRegs2 : List RDef := [
  ⟨0x262, 0x1, 8, [⟨0, 32, .ro, 0⟩]⟩,  -- MB_D, Table 5-10
  ⟨0x272, 0x1, 8, [⟨0, 32, .ro, 0⟩]⟩  -- MB_D, Table 5-10
]

/-- All registers of the mb block. -/
def mbRegs : List RDef := mbRegs1 ++ mbRegs2

/-- Registers of the st block, part 1. -/
def stRegs1 : List RDef := [
  ⟨0x400, 0x100, 2, [⟨0, 1, .rwb, 0⟩]⟩,  -- ST_COORD_CFG, Table 9-9
  ⟨0x401, 0x100, 2, [⟨0, 1, .rs, 0⟩, ⟨1, 1, .rs, 0⟩, ⟨2, 1, .rs, 0⟩, ⟨3, 1, .rs, 0⟩, ⟨4, 4, .ro, 0⟩, ⟨8, 8, .ro, 0⟩]⟩,  -- ST_COORD_STAT, Table 9-9
  ⟨0x402, 0x100, 2, [⟨0, 32, .ro, 0⟩]⟩,  -- ST_COORD_U, Table 9-9
  ⟨0x440, 0x100, 2, [⟨0, 1, .rwb, 0⟩, ⟨1, 2, .rwb, 0⟩, ⟨3, 5, .rwb, 0x10⟩, ⟨8, 3, .rwb, 1⟩, ⟨11, 4, .rwb, 0⟩, ⟨15, 1, .rwb, 0⟩, ⟨16, 4, .rwb, 0⟩, ⟨20, 1, .rwb, 0⟩]⟩,  -- ST_SV_CFG, Table 14-4
  ⟨0x441, 0x100, 2, [⟨0, 16, .rwb, 0⟩, ⟨16, 16, .rwb, 0⟩]⟩,  -- ST_SV_TIME, Table 14-4
  ⟨0x442, 0x100, 2, [⟨0, 16, .rwb, 0⟩, ⟨16, 16, .rwb, 0⟩]⟩,  -- ST_SV_TPH, Table 14-4
  ⟨0x443, 0x100, 2, [⟨0, 1, .wp, 0⟩, ⟨1, 1, .wp, 0⟩, ⟨2, 1, .wp, 0⟩]⟩,  -- ST_SV_CTL, Table 14-4
  ⟨0x444, 0x100, 2, [⟨0, 1, .rs, 0⟩, ⟨1, 1, .rs, 0⟩, ⟨2, 1, .rs, 0⟩, ⟨3, 1, .rs, 0⟩, ⟨4, 1, .rs, 0⟩, ⟨5, 1, .rs, 0⟩, ⟨16, 16, .ro, 0⟩]⟩,  -- ST_SV_STAT, Table 14-4
  ⟨0x445, 0x100, 2, [⟨0, 8, .ro, 0⟩, ⟨8, 8, .ro, 0⟩, ⟨16, 8, .ro, 0⟩, ⟨24, 8, .ro, 0⟩]⟩,  -- ST_SV_CNT, Table 14-4
  ⟨0x446, 0x100, 2, [⟨0, 16, .ro, 0⟩, ⟨16, 16, .ro, 0⟩]⟩,  -- ST_HK_VM, Table 14-4
  ⟨0x447, 0x100, 2, [⟨0, 14, .ro, 0⟩]⟩,  -- ST_HK_REF, Table 14-4
  ⟨0x448, 0x100, 2, [⟨0, 16, .ro, 0⟩, ⟨16, 16, .ro, 0⟩]⟩  -- ST_HK_T01, Table 14-4
]

/-- Registers of the st block, part 2. -/
def stRegs2 : List RDef := [
  ⟨0x449, 0x100, 2, [⟨0, 16, .ro, 0⟩]⟩,  -- ST_HK_T2, Table 14-4
  ⟨0x44a, 0x1, 1, [⟨0, 16, .rw, 0x3e8⟩, ⟨16, 8, .rw, 0x30⟩, ⟨24, 3, .rw, 3⟩, ⟨27, 1, .rw, 1⟩]⟩,  -- XCHK_CFG, Table 14-4
  ⟨0x44b, 0x1, 1, [⟨0, 1, .rs, 0⟩, ⟨1, 1, .rs, 0⟩, ⟨2, 1, .rs, 0⟩, ⟨3, 1, .rs, 0⟩, ⟨4, 4, .ro, 0⟩, ⟨8, 8, .ro, 0⟩, ⟨16, 16, .ro, 0⟩]⟩,  -- XCHK_STAT, Table 14-4
  ⟨0x44c, 0x100, 2, [⟨0, 5, .rw, 0⟩, ⟨5, 4, .rw, 0⟩, ⟨9, 2, .rw, 0⟩, ⟨16, 1, .wp, 0⟩, ⟨17, 1, .wp, 0⟩, ⟨18, 1, .wp, 0⟩]⟩,  -- ST_CAL_CTL, Table 14-4
  ⟨0x44d, 0x100, 2, [⟨0, 23, .rw, 0⟩]⟩,  -- ST_CAL_VFS, Table 14-4
  ⟨0x44e, 0x100, 2, [⟨0, 1, .rs, 0⟩, ⟨1, 2, .ro, 0⟩, ⟨3, 3, .ro, 0⟩]⟩,  -- ST_CAL_STAT, Table 14-4
  ⟨0x44f, 0x100, 2, [⟨0, 16, .ro, 0⟩, ⟨16, 16, .ro, 0⟩]⟩,  -- ST_CAL_RES, Table 14-4
  ⟨0x450, 0x100, 2, [⟨0, 5, .rwb, 0⟩, ⟨5, 4, .rwb, 0⟩, ⟨9, 2, .rwb, 0⟩, ⟨11, 3, .rwb, 0⟩, ⟨14, 4, .rwb, 0⟩, ⟨18, 4, .rwb, 0⟩, ⟨22, 1, .rwb, 0⟩]⟩,  -- ST_SEQ, Table 14-5
  ⟨0x451, 0x100, 2, [⟨0, 5, .rwb, 1⟩, ⟨5, 4, .rwb, 0⟩, ⟨9, 2, .rwb, 0⟩, ⟨11, 3, .rwb, 0⟩, ⟨14, 4, .rwb, 0⟩, ⟨18, 4, .rwb, 0⟩, ⟨22, 1, .rwb, 0⟩]⟩,  -- ST_SEQ, Table 14-5
  ⟨0x452, 0x100, 2, [⟨0, 5, .rwb, 2⟩, ⟨5, 4, .rwb, 0⟩, ⟨9, 2, .rwb, 0⟩, ⟨11, 3, .rwb, 0⟩, ⟨14, 4, .rwb, 0⟩, ⟨18, 4, .rwb, 0⟩, ⟨22, 1, .rwb, 0⟩]⟩,  -- ST_SEQ, Table 14-5
  ⟨0x453, 0x100, 2, [⟨0, 5, .rwb, 3⟩, ⟨5, 4, .rwb, 0⟩, ⟨9, 2, .rwb, 0⟩, ⟨11, 3, .rwb, 0⟩, ⟨14, 4, .rwb, 0⟩, ⟨18, 4, .rwb, 0⟩, ⟨22, 1, .rwb, 0⟩]⟩,  -- ST_SEQ, Table 14-5
  ⟨0x454, 0x100, 2, [⟨0, 5, .rwb, 4⟩, ⟨5, 4, .rwb, 0⟩, ⟨9, 2, .rwb, 0⟩, ⟨11, 3, .rwb, 0⟩, ⟨14, 4, .rwb, 0⟩, ⟨18, 4, .rwb, 0⟩, ⟨22, 1, .rwb, 0⟩]⟩  -- ST_SEQ, Table 14-5
]

/-- Registers of the st block, part 3. -/
def stRegs3 : List RDef := [
  ⟨0x455, 0x100, 2, [⟨0, 5, .rwb, 5⟩, ⟨5, 4, .rwb, 0⟩, ⟨9, 2, .rwb, 0⟩, ⟨11, 3, .rwb, 0⟩, ⟨14, 4, .rwb, 0⟩, ⟨18, 4, .rwb, 0⟩, ⟨22, 1, .rwb, 0⟩]⟩,  -- ST_SEQ, Table 14-5
  ⟨0x456, 0x100, 2, [⟨0, 5, .rwb, 6⟩, ⟨5, 4, .rwb, 0⟩, ⟨9, 2, .rwb, 0⟩, ⟨11, 3, .rwb, 0⟩, ⟨14, 4, .rwb, 0⟩, ⟨18, 4, .rwb, 0⟩, ⟨22, 1, .rwb, 0⟩]⟩,  -- ST_SEQ, Table 14-5
  ⟨0x457, 0x100, 2, [⟨0, 5, .rwb, 7⟩, ⟨5, 4, .rwb, 0⟩, ⟨9, 2, .rwb, 0⟩, ⟨11, 3, .rwb, 0⟩, ⟨14, 4, .rwb, 0⟩, ⟨18, 4, .rwb, 0⟩, ⟨22, 1, .rwb, 0⟩]⟩,  -- ST_SEQ, Table 14-5
  ⟨0x458, 0x100, 2, [⟨0, 5, .rwb, 8⟩, ⟨5, 4, .rwb, 0⟩, ⟨9, 2, .rwb, 0⟩, ⟨11, 3, .rwb, 0⟩, ⟨14, 4, .rwb, 0⟩, ⟨18, 4, .rwb, 0⟩, ⟨22, 1, .rwb, 0⟩]⟩,  -- ST_SEQ, Table 14-5
  ⟨0x459, 0x100, 2, [⟨0, 5, .rwb, 9⟩, ⟨5, 4, .rwb, 0⟩, ⟨9, 2, .rwb, 0⟩, ⟨11, 3, .rwb, 0⟩, ⟨14, 4, .rwb, 0⟩, ⟨18, 4, .rwb, 0⟩, ⟨22, 1, .rwb, 0⟩]⟩,  -- ST_SEQ, Table 14-5
  ⟨0x45a, 0x100, 2, [⟨0, 5, .rwb, 0xa⟩, ⟨5, 4, .rwb, 0⟩, ⟨9, 2, .rwb, 0⟩, ⟨11, 3, .rwb, 0⟩, ⟨14, 4, .rwb, 0⟩, ⟨18, 4, .rwb, 0⟩, ⟨22, 1, .rwb, 0⟩]⟩,  -- ST_SEQ, Table 14-5
  ⟨0x45b, 0x100, 2, [⟨0, 5, .rwb, 0xb⟩, ⟨5, 4, .rwb, 0⟩, ⟨9, 2, .rwb, 0⟩, ⟨11, 3, .rwb, 0⟩, ⟨14, 4, .rwb, 0⟩, ⟨18, 4, .rwb, 0⟩, ⟨22, 1, .rwb, 0⟩]⟩,  -- ST_SEQ, Table 14-5
  ⟨0x45c, 0x100, 2, [⟨0, 5, .rwb, 0xc⟩, ⟨5, 4, .rwb, 0⟩, ⟨9, 2, .rwb, 0⟩, ⟨11, 3, .rwb, 0⟩, ⟨14, 4, .rwb, 0⟩, ⟨18, 4, .rwb, 0⟩, ⟨22, 1, .rwb, 0⟩]⟩,  -- ST_SEQ, Table 14-5
  ⟨0x45d, 0x100, 2, [⟨0, 5, .rwb, 0xd⟩, ⟨5, 4, .rwb, 0⟩, ⟨9, 2, .rwb, 0⟩, ⟨11, 3, .rwb, 0⟩, ⟨14, 4, .rwb, 0⟩, ⟨18, 4, .rwb, 0⟩, ⟨22, 1, .rwb, 0⟩]⟩,  -- ST_SEQ, Table 14-5
  ⟨0x45e, 0x100, 2, [⟨0, 5, .rwb, 0xe⟩, ⟨5, 4, .rwb, 0⟩, ⟨9, 2, .rwb, 0⟩, ⟨11, 3, .rwb, 0⟩, ⟨14, 4, .rwb, 0⟩, ⟨18, 4, .rwb, 0⟩, ⟨22, 1, .rwb, 0⟩]⟩,  -- ST_SEQ, Table 14-5
  ⟨0x45f, 0x100, 2, [⟨0, 5, .rwb, 0xf⟩, ⟨5, 4, .rwb, 0⟩, ⟨9, 2, .rwb, 0⟩, ⟨11, 3, .rwb, 0⟩, ⟨14, 4, .rwb, 0⟩, ⟨18, 4, .rwb, 0⟩, ⟨22, 1, .rwb, 0⟩]⟩,  -- ST_SEQ, Table 14-5
  ⟨0x460, 0x100, 2, [⟨0, 5, .rwb, 0x13⟩, ⟨5, 4, .rwb, 3⟩, ⟨9, 2, .rwb, 0⟩, ⟨11, 3, .rwb, 0⟩, ⟨14, 4, .rwb, 0⟩, ⟨18, 4, .rwb, 0⟩, ⟨22, 1, .rwb, 0⟩]⟩  -- ST_SEQ, Table 14-5
]

/-- Registers of the st block, part 4. -/
def stRegs4 : List RDef := [
  ⟨0x461, 0x100, 2, [⟨0, 5, .rwb, 0x13⟩, ⟨5, 4, .rwb, 4⟩, ⟨9, 2, .rwb, 0⟩, ⟨11, 3, .rwb, 0⟩, ⟨14, 4, .rwb, 0⟩, ⟨18, 4, .rwb, 0⟩, ⟨22, 1, .rwb, 0⟩]⟩,  -- ST_SEQ, Table 14-5
  ⟨0x462, 0x100, 2, [⟨0, 5, .rwb, 0x13⟩, ⟨5, 4, .rwb, 5⟩, ⟨9, 2, .rwb, 0⟩, ⟨11, 3, .rwb, 0⟩, ⟨14, 4, .rwb, 0⟩, ⟨18, 4, .rwb, 0⟩, ⟨22, 1, .rwb, 0⟩]⟩,  -- ST_SEQ, Table 14-5
  ⟨0x463, 0x100, 2, [⟨0, 5, .rwb, 0x13⟩, ⟨5, 4, .rwb, 6⟩, ⟨9, 2, .rwb, 0⟩, ⟨11, 3, .rwb, 0⟩, ⟨14, 4, .rwb, 0⟩, ⟨18, 4, .rwb, 0⟩, ⟨22, 1, .rwb, 0⟩]⟩,  -- ST_SEQ, Table 14-5
  ⟨0x464, 0x1, 20, [⟨0, 16, .ro, 0⟩, ⟨16, 1, .ro, 0⟩, ⟨17, 15, .ro, 0⟩]⟩,  -- ST_RES, Table 14-5
  ⟨0x564, 0x1, 20, [⟨0, 16, .ro, 0⟩, ⟨16, 1, .ro, 0⟩, ⟨17, 15, .ro, 0⟩]⟩  -- ST_RES, Table 14-5
]

/-- All registers of the st block. -/
def stRegs : List RDef := stRegs1 ++ stRegs2 ++ stRegs3 ++ stRegs4

/-- Registers of the ax block, part 1. -/
def axRegs1 : List RDef := [
  ⟨0x800, 0x100, 8, [⟨0, 4, .ro, 0⟩, ⟨4, 1, .ro, 0⟩, ⟨5, 1, .rs, 0⟩, ⟨6, 1, .rs, 0⟩, ⟨7, 1, .rs, 0⟩, ⟨8, 1, .rs, 0⟩, ⟨9, 1, .rs, 0⟩, ⟨10, 1, .rs, 0⟩, ⟨11, 1, .rs, 0⟩, ⟨12, 1, .rs, 0⟩, ⟨13, 1, .rs, 0⟩, ⟨14, 1, .rs, 0⟩]⟩,  -- AX_STATE, Table 9-4
  ⟨0x801, 0x100, 8, [⟨0, 1, .rwb, 0⟩, ⟨1, 1, .rwb, 0⟩, ⟨2, 1, .rwb, 0⟩, ⟨3, 1, .rwb, 0⟩, ⟨4, 1, .rwb, 1⟩]⟩,  -- AX_PLN_CFG, Table 9-4
  ⟨0x802, 0x100, 8, [⟨0, 7, .ro, 0⟩]⟩,  -- AX_FAULT, Table 9-4
  ⟨0x803, 0x100, 8, [⟨0, 32, .rwb, 0x3e8000⟩]⟩,  -- AX_QDEC, Table 9-5
  ⟨0x804, 0x100, 8, [⟨0, 32, .rwb, 0⟩]⟩,  -- AX_SLIM_NEG_L, Table 9-5
  ⟨0x805, 0x100, 8, [⟨0, 16, .rwb, 0⟩]⟩,  -- AX_SLIM_NEG_H, Table 9-5
  ⟨0x806, 0x100, 8, [⟨0, 32, .rwb, 0⟩]⟩,  -- AX_SLIM_POS_L, Table 9-5
  ⟨0x807, 0x100, 8, [⟨0, 16, .rwb, 0⟩]⟩,  -- AX_SLIM_POS_H, Table 9-5
  ⟨0x808, 0x100, 8, [⟨0, 32, .ro, 0⟩]⟩,  -- AX_VEL, Table 9-5
  ⟨0x809, 0x100, 8, [⟨0, 32, .ro, 0⟩]⟩,  -- AX_ACC, Table 9-5
  ⟨0x80a, 0x100, 8, [⟨0, 3, .ro, 0⟩, ⟨3, 2, .ro, 0⟩, ⟨5, 1, .ro, 0⟩, ⟨6, 1, .ro, 0⟩, ⟨7, 1, .ro, 0⟩]⟩,  -- AX_PLN_STAT, Table 9-5
  ⟨0x810, 0x100, 8, [⟨0, 32, .rwb, 0xc8000⟩]⟩  -- AX_PS_VMAX, Table 9-6
]

/-- Registers of the ax block, part 2. -/
def axRegs2 : List RDef := [
  ⟨0x811, 0x100, 8, [⟨0, 32, .rwb, 0x190000⟩]⟩,  -- AX_PS_ACC, Table 9-6
  ⟨0x812, 0x100, 8, [⟨0, 32, .rwb, 0x190000⟩]⟩,  -- AX_PS_DEC, Table 9-6
  ⟨0x813, 0x100, 8, [⟨0, 32, .rwb, 0xc80000⟩]⟩,  -- AX_PS_JERK, Table 9-6
  ⟨0x814, 0x100, 8, [⟨0, 32, .rwb, 0xc8000⟩]⟩,  -- AX_PS_VMAX, Table 9-6
  ⟨0x815, 0x100, 8, [⟨0, 32, .rwb, 0x190000⟩]⟩,  -- AX_PS_ACC, Table 9-6
  ⟨0x816, 0x100, 8, [⟨0, 32, .rwb, 0x190000⟩]⟩,  -- AX_PS_DEC, Table 9-6
  ⟨0x817, 0x100, 8, [⟨0, 32, .rwb, 0xc80000⟩]⟩,  -- AX_PS_JERK, Table 9-6
  ⟨0x818, 0x100, 8, [⟨0, 32, .rwb, 0xc8000⟩]⟩,  -- AX_PS_VMAX, Table 9-6
  ⟨0x819, 0x100, 8, [⟨0, 32, .rwb, 0x190000⟩]⟩,  -- AX_PS_ACC, Table 9-6
  ⟨0x81a, 0x100, 8, [⟨0, 32, .rwb, 0x190000⟩]⟩,  -- AX_PS_DEC, Table 9-6
  ⟨0x81b, 0x100, 8, [⟨0, 32, .rwb, 0xc80000⟩]⟩,  -- AX_PS_JERK, Table 9-6
  ⟨0x81c, 0x100, 8, [⟨0, 32, .rwb, 0xc8000⟩]⟩  -- AX_PS_VMAX, Table 9-6
]

/-- Registers of the ax block, part 3. -/
def axRegs3 : List RDef := [
  ⟨0x81d, 0x100, 8, [⟨0, 32, .rwb, 0x190000⟩]⟩,  -- AX_PS_ACC, Table 9-6
  ⟨0x81e, 0x100, 8, [⟨0, 32, .rwb, 0x190000⟩]⟩,  -- AX_PS_DEC, Table 9-6
  ⟨0x81f, 0x100, 8, [⟨0, 32, .rwb, 0xc80000⟩]⟩,  -- AX_PS_JERK, Table 9-6
  ⟨0x820, 0x100, 8, [⟨0, 16, .rwb, 0⟩, ⟨16, 8, .rwb, 0xc0⟩]⟩,  -- AX_TORQ_CFG, Table 9-7
  ⟨0x821, 0x100, 8, [⟨0, 32, .rwb, 0⟩]⟩,  -- AX_TORQ_J, Table 9-7
  ⟨0x822, 0x100, 8, [⟨0, 16, .ro, 0⟩]⟩,  -- AX_TORQ_STAT, Table 9-7
  ⟨0x823, 0x100, 8, [⟨0, 32, .ro, 0⟩]⟩,  -- AX_TORQ_ALIM, Table 9-7
  ⟨0x824, 0x100, 8, [⟨0, 13, .rwb, 0x10⟩, ⟨13, 1, .rwb, 0⟩]⟩,  -- AX_FOL_CFG, Table 9-7
  ⟨0x825, 0x100, 8, [⟨0, 16, .ro, 0⟩, ⟨16, 16, .ro, 0⟩]⟩,  -- AX_FOL_STAT, Table 9-7
  ⟨0x826, 0x100, 8, [⟨0, 2, .rwb, 0⟩, ⟨8, 8, .rwb, 0x80⟩]⟩,  -- AX_HOME_CFG, Table 9-8
  ⟨0x827, 0x100, 8, [⟨0, 32, .rwb, 0xc800⟩]⟩,  -- AX_HOME_CREEP, Table 9-8
  ⟨0x828, 0x100, 8, [⟨0, 32, .rwb, 0x4000⟩]⟩  -- AX_HOME_BACK, Table 9-8
]

/-- Registers of the ax block, part 4. -/
def axRegs4 : List RDef := [
  ⟨0x829, 0x100, 8, [⟨0, 32, .rwb, 0⟩]⟩,  -- AX_HOME_MAXD, Table 9-8
  ⟨0x82a, 0x100, 8, [⟨0, 3, .ro, 0⟩, ⟨3, 1, .ro, 0⟩, ⟨4, 3, .ro, 0⟩]⟩,  -- AX_HOME_STAT, Table 9-8
  ⟨0x82b, 0x100, 8, [⟨0, 16, .rwb, 0x80⟩, ⟨16, 8, .rwb, 0⟩, ⟨24, 8, .rwb, 0⟩]⟩,  -- AX_CLOS_CFG, Table 9-8
  ⟨0x82c, 0x100, 8, [⟨0, 16, .rwb, 0x20⟩]⟩,  -- AX_CLOS_WARN, Table 9-8
  ⟨0x82d, 0x100, 8, [⟨0, 32, .ro, 0⟩]⟩,  -- AX_CLOS_ERR, Table 9-8
  ⟨0x82e, 0x100, 8, [⟨0, 31, .ro, 0⟩, ⟨31, 1, .wp, 0⟩]⟩,  -- AX_CLOS_MAX, Table 9-8
  ⟨0x840, 0x100, 8, [⟨0, 2, .rwb, 1⟩, ⟨2, 14, .rwb, 0⟩, ⟨16, 1, .rwb, 0⟩, ⟨17, 1, .rwb, 1⟩]⟩,  -- AX_SEQ_CFG, Table 10-6
  ⟨0x841, 0x100, 8, [⟨0, 12, .rwb, 0x800⟩, ⟨16, 12, .rwb, 0x400⟩]⟩,  -- AX_SEQ_CUR, Table 10-6
  ⟨0x842, 0x100, 8, [⟨0, 16, .rwb, 0x64⟩, ⟨16, 16, .rwb, 0x32⟩]⟩,  -- AX_SEQ_HOLD, Table 10-6
  ⟨0x843, 0x100, 8, [⟨0, 8, .rwb, 0x39⟩, ⟨8, 8, .rwb, 0x80⟩, ⟨16, 8, .rwb, 0x60⟩, ⟨24, 4, .rwb, 1⟩, ⟨28, 4, .rwb, 4⟩]⟩,  -- AX_ACR_CFG, Table 10-6
  ⟨0x844, 0x100, 8, [⟨0, 12, .ro, 0⟩, ⟨12, 1, .rs, 0⟩, ⟨13, 1, .rs, 0⟩, ⟨14, 1, .rs, 0⟩, ⟨15, 1, .rs, 0⟩, ⟨16, 14, .ro, 0⟩, ⟨30, 2, .ro, 1⟩]⟩,  -- AX_SEQ_STAT, Table 10-6
  ⟨0x845, 0x100, 8, [⟨0, 16, .ro, 0⟩, ⟨16, 16, .ro, 0⟩]⟩  -- AX_SEQ_SP, Table 10-6
]

/-- Registers of the ax block, part 5. -/
def axRegs5 : List RDef := [
  ⟨0x846, 0x100, 8, [⟨0, 9, .ro, 0x100⟩]⟩,  -- AX_ACR_STAT, Table 10-6
  ⟨0x847, 0x100, 8, [⟨0, 1, .wp, 0⟩, ⟨1, 1, .rw, 0⟩, ⟨2, 1, .rw, 0⟩, ⟨8, 12, .rw, 0x400⟩, ⟨20, 4, .rw, 2⟩, ⟨24, 8, .rw, 0x19⟩]⟩,  -- AX_IDCHK_CFG, Table 10-7
  ⟨0x848, 0x100, 8, [⟨0, 1, .rs, 0⟩, ⟨1, 3, .ro, 0⟩, ⟨4, 4, .ro, 0⟩, ⟨8, 2, .ro, 0⟩, ⟨10, 1, .ro, 0⟩, ⟨11, 1, .ro, 0⟩, ⟨12, 6, .ro, 0⟩]⟩,  -- AX_IDCHK_STAT, Table 10-7
  ⟨0x849, 0x100, 8, [⟨0, 16, .ro, 0⟩, ⟨16, 16, .ro, 0⟩]⟩,  -- AX_IDCHK_RA, Table 10-7
  ⟨0x84a, 0x100, 8, [⟨0, 16, .ro, 0⟩, ⟨16, 16, .ro, 0⟩]⟩,  -- AX_IDCHK_RB, Table 10-7
  ⟨0x850, 0x100, 8, [⟨0, 2, .rwb, 1⟩, ⟨2, 2, .rwb, 0⟩, ⟨4, 8, .rwb, 0x40⟩, ⟨12, 7, .rwb, 0x14⟩]⟩,  -- CO_REG_CFG, Table 10-8
  ⟨0x851, 0x100, 8, [⟨0, 16, .rwb, 0x200⟩, ⟨16, 16, .rwb, 0x40⟩]⟩,  -- CO_REG_GAIN, Table 10-8
  ⟨0x852, 0x100, 8, [⟨0, 14, .rwb, 0x320⟩, ⟨16, 14, .rwb, 0x320⟩]⟩,  -- CO_REG_TIME, Table 10-8
  ⟨0x853, 0x100, 8, [⟨0, 16, .rwb, 0⟩, ⟨16, 16, .rwb, 0xffff⟩]⟩,  -- CO_REG_SLOT01, Table 10-8
  ⟨0x854, 0x100, 8, [⟨0, 16, .rwb, 0xffff⟩]⟩,  -- CO_REG_SLOT2, Table 10-8
  ⟨0x855, 0x100, 8, [⟨0, 16, .ro, 0⟩, ⟨16, 1, .rs, 0⟩, ⟨17, 1, .rs, 0⟩, ⟨18, 1, .rs, 0⟩, ⟨19, 1, .rs, 0⟩]⟩,  -- CO_REG_STAT, Table 10-8
  ⟨0x856, 0x100, 8, [⟨0, 8, .ro, 0⟩, ⟨8, 8, .ro, 0⟩, ⟨16, 8, .ro, 0⟩, ⟨31, 1, .wp, 0⟩]⟩  -- CO_REG_CNT, Table 10-8
]

/-- Registers of the ax block, part 6. -/
def axRegs6 : List RDef := [
  ⟨0x857, 0x100, 8, [⟨0, 20, .rwb, 0x27100⟩]⟩,  -- CO_PWM_PER, Table 11-6
  ⟨0x858, 0x100, 8, [⟨0, 20, .rwb, 0⟩, ⟨20, 1, .rwb, 0⟩]⟩,  -- CO_PWM_CMP, Table 11-6
  ⟨0x859, 0x100, 8, [⟨0, 9, .rwb, 0x28⟩, ⟨9, 1, .rwb, 0⟩, ⟨10, 1, .rwb, 0⟩, ⟨11, 1, .rwb, 1⟩, ⟨12, 2, .ro, 1⟩, ⟨16, 16, .rwb, 0x271⟩]⟩,  -- CO_PWM_CFG, Table 11-6
  ⟨0x85a, 0x100, 8, [⟨0, 1, .rs, 0⟩, ⟨1, 1, .rs, 0⟩, ⟨2, 1, .rs, 0⟩, ⟨3, 1, .rs, 0⟩, ⟨4, 1, .rs, 0⟩, ⟨5, 1, .rs, 0⟩, ⟨8, 4, .ro, 0⟩, ⟨12, 20, .ro, 0x27100⟩]⟩,  -- CO_PWM_STAT, Table 11-6
  ⟨0x85b, 0x100, 8, [⟨0, 8, .ro, 0⟩, ⟨8, 8, .ro, 0⟩, ⟨16, 8, .ro, 0⟩, ⟨31, 1, .wp, 0⟩]⟩,  -- CO_PWM_CNT, Table 11-6
  ⟨0x85c, 0x100, 8, [⟨0, 16, .ro, 0⟩, ⟨16, 16, .ro, 0⟩]⟩,  -- CO_ADC_S01, Table 14-6
  ⟨0x85d, 0x100, 8, [⟨0, 16, .ro, 0⟩]⟩,  -- CO_ADC_S2, Table 14-6
  ⟨0x85e, 0x100, 8, [⟨0, 8, .ro, 0⟩, ⟨8, 8, .ro, 0⟩, ⟨16, 8, .ro, 0⟩, ⟨31, 1, .wp, 0⟩]⟩,  -- CO_ADC_CNT, Table 14-6
  ⟨0x860, 0x100, 8, [⟨0, 2, .rwb, 1⟩, ⟨2, 2, .rwb, 0⟩, ⟨4, 8, .rwb, 0x40⟩, ⟨12, 7, .rwb, 0x14⟩]⟩,  -- CO_REG_CFG, Table 10-8
  ⟨0x861, 0x100, 8, [⟨0, 16, .rwb, 0x200⟩, ⟨16, 16, .rwb, 0x40⟩]⟩,  -- CO_REG_GAIN, Table 10-8
  ⟨0x862, 0x100, 8, [⟨0, 14, .rwb, 0x320⟩, ⟨16, 14, .rwb, 0x320⟩]⟩,  -- CO_REG_TIME, Table 10-8
  ⟨0x863, 0x100, 8, [⟨0, 16, .rwb, 0⟩, ⟨16, 16, .rwb, 0xffff⟩]⟩  -- CO_REG_SLOT01, Table 10-8
]

/-- Registers of the ax block, part 7. -/
def axRegs7 : List RDef := [
  ⟨0x864, 0x100, 8, [⟨0, 16, .rwb, 0xffff⟩]⟩,  -- CO_REG_SLOT2, Table 10-8
  ⟨0x865, 0x100, 8, [⟨0, 16, .ro, 0⟩, ⟨16, 1, .rs, 0⟩, ⟨17, 1, .rs, 0⟩, ⟨18, 1, .rs, 0⟩, ⟨19, 1, .rs, 0⟩]⟩,  -- CO_REG_STAT, Table 10-8
  ⟨0x866, 0x100, 8, [⟨0, 8, .ro, 0⟩, ⟨8, 8, .ro, 0⟩, ⟨16, 8, .ro, 0⟩, ⟨31, 1, .wp, 0⟩]⟩,  -- CO_REG_CNT, Table 10-8
  ⟨0x867, 0x100, 8, [⟨0, 20, .rwb, 0x27100⟩]⟩,  -- CO_PWM_PER, Table 11-6
  ⟨0x868, 0x100, 8, [⟨0, 20, .rwb, 0⟩, ⟨20, 1, .rwb, 0⟩]⟩,  -- CO_PWM_CMP, Table 11-6
  ⟨0x869, 0x100, 8, [⟨0, 9, .rwb, 0x28⟩, ⟨9, 1, .rwb, 0⟩, ⟨10, 1, .rwb, 0⟩, ⟨11, 1, .rwb, 1⟩, ⟨12, 2, .ro, 1⟩, ⟨16, 16, .rwb, 0x271⟩]⟩,  -- CO_PWM_CFG, Table 11-6
  ⟨0x86a, 0x100, 8, [⟨0, 1, .rs, 0⟩, ⟨1, 1, .rs, 0⟩, ⟨2, 1, .rs, 0⟩, ⟨3, 1, .rs, 0⟩, ⟨4, 1, .rs, 0⟩, ⟨5, 1, .rs, 0⟩, ⟨8, 4, .ro, 0⟩, ⟨12, 20, .ro, 0x27100⟩]⟩,  -- CO_PWM_STAT, Table 11-6
  ⟨0x86b, 0x100, 8, [⟨0, 8, .ro, 0⟩, ⟨8, 8, .ro, 0⟩, ⟨16, 8, .ro, 0⟩, ⟨31, 1, .wp, 0⟩]⟩,  -- CO_PWM_CNT, Table 11-6
  ⟨0x86c, 0x100, 8, [⟨0, 16, .ro, 0⟩, ⟨16, 16, .ro, 0⟩]⟩,  -- CO_ADC_S01, Table 14-6
  ⟨0x86d, 0x100, 8, [⟨0, 16, .ro, 0⟩]⟩,  -- CO_ADC_S2, Table 14-6
  ⟨0x86e, 0x100, 8, [⟨0, 8, .ro, 0⟩, ⟨8, 8, .ro, 0⟩, ⟨16, 8, .ro, 0⟩, ⟨31, 1, .wp, 0⟩]⟩,  -- CO_ADC_CNT, Table 14-6
  ⟨0x870, 0x100, 8, [⟨0, 1, .rwb, 0⟩, ⟨1, 1, .rwb, 1⟩, ⟨2, 1, .rwb, 1⟩, ⟨3, 1, .rwb, 1⟩, ⟨4, 1, .rwb, 0⟩, ⟨5, 1, .rwb, 1⟩, ⟨6, 1, .rwb, 1⟩, ⟨7, 1, .rwb, 1⟩, ⟨8, 6, .rwb, 0x20⟩, ⟨16, 6, .rwb, 0x3d⟩, ⟨24, 8, .rwb, 0x20⟩]⟩  -- AX_OBS_CFG, Table 12-5
]

/-- Registers of the ax block, part 8. -/
def axRegs8 : List RDef := [
  ⟨0x871, 0x100, 8, [⟨0, 16, .rwb, 0xc0⟩, ⟨16, 16, .rwb, 0x140⟩]⟩,  -- AX_OBS_BLEND, Table 12-5
  ⟨0x872, 0x100, 8, [⟨0, 16, .rwb, 0⟩, ⟨16, 16, .rwb, 0⟩]⟩,  -- AX_OBS_HF, Table 12-5
  ⟨0x873, 0x100, 8, [⟨0, 8, .rwb, 0⟩, ⟨16, 16, .rwb, 0⟩]⟩,  -- AX_OBS_HFREF, Table 12-5
  ⟨0x874, 0x100, 8, [⟨0, 16, .rwb, 0⟩, ⟨16, 4, .rwb, 4⟩, ⟨24, 8, .rwb, 0x14⟩]⟩,  -- AX_OBS_EMF, Table 12-5
  ⟨0x875, 0x100, 8, [⟨0, 8, .rwb, 0xa0⟩, ⟨8, 8, .rwb, 0x28⟩, ⟨16, 8, .rwb, 0x80⟩, ⟨24, 8, .rwb, 0x40⟩]⟩,  -- AX_STALL_CFG, Table 12-6
  ⟨0x876, 0x100, 8, [⟨0, 8, .rwb, 0x50⟩, ⟨16, 16, .rwb, 0x190⟩]⟩,  -- AX_STALL_TIME, Table 12-6
  ⟨0x877, 0x100, 8, [⟨0, 16, .rwb, 0x1f4⟩, ⟨16, 8, .rwb, 5⟩, ⟨24, 8, .rwb, 0x64⟩]⟩,  -- AX_BD_CFG, Table 12-6
  ⟨0x878, 0x100, 8, [⟨0, 16, .ro, 0⟩, ⟨16, 1, .rs, 0⟩, ⟨17, 1, .rs, 0⟩, ⟨18, 2, .ro, 0⟩, ⟨20, 8, .ro, 0⟩, ⟨28, 1, .rs, 0⟩]⟩,  -- AX_OBS_LA, Table 12-7
  ⟨0x879, 0x100, 8, [⟨0, 16, .ro, 0⟩, ⟨16, 16, .ro, 0⟩]⟩,  -- AX_OBS_HFDQ, Table 12-7
  ⟨0x87a, 0x100, 8, [⟨0, 16, .ro, 0⟩, ⟨16, 16, .ro, 0⟩]⟩,  -- AX_OBS_HFRAT, Table 12-7
  ⟨0x87b, 0x100, 8, [⟨0, 16, .ro, 0⟩, ⟨16, 16, .ro, 0⟩]⟩,  -- AX_OBS_EMFSTAT, Table 12-7
  ⟨0x87c, 0x100, 8, [⟨0, 1, .rs, 0⟩, ⟨1, 1, .rs, 0⟩, ⟨2, 2, .ro, 0⟩, ⟨16, 16, .ro, 0⟩]⟩  -- AX_STALL_STAT, Table 12-7
]

/-- Registers of the ax block, part 9. -/
def axRegs9 : List RDef := [
  ⟨0x87d, 0x100, 8, [⟨0, 1, .rs, 0⟩, ⟨1, 1, .ro, 0⟩, ⟨2, 1, .rs, 0⟩, ⟨3, 1, .ro, 0⟩, ⟨8, 8, .ro, 0⟩, ⟨16, 16, .ro, 0⟩]⟩,  -- AX_BD_STAT, Table 12-7
  ⟨0x87e, 0x100, 8, [⟨0, 32, .ro, 0⟩]⟩,  -- AX_BD_TRAVEL, Table 12-7
  ⟨0x87f, 0x100, 8, [⟨0, 1, .wp, 0⟩, ⟨1, 1, .wp, 0⟩, ⟨2, 1, .rw, 0⟩, ⟨8, 8, .rw, 0x1e⟩]⟩,  -- AX_OBS_CAL, Table 12-6
  ⟨0x880, 0x100, 8, [⟨0, 1, .rs, 0⟩, ⟨1, 2, .ro, 0⟩, ⟨3, 1, .ro, 0⟩, ⟨4, 4, .ro, 0⟩, ⟨8, 8, .ro, 0⟩, ⟨16, 8, .ro, 0⟩]⟩,  -- AX_OBS_CALSTAT, Table 12-7
  ⟨0x881, 0x100, 8, [⟨0, 8, .ro, 0⟩, ⟨8, 8, .ro, 0⟩, ⟨31, 1, .wp, 0⟩]⟩,  -- AX_OBS_CNT, Table 12-6
  ⟨0x888, 0x100, 8, [⟨0, 1, .rwb, 0⟩, ⟨1, 3, .rwb, 3⟩, ⟨4, 4, .rwb, 0⟩, ⟨8, 8, .rwb, 0x32⟩, ⟨16, 1, .rwb, 1⟩, ⟨17, 1, .rwb, 0⟩, ⟨18, 1, .rwb, 0⟩, ⟨19, 1, .rwb, 0⟩, ⟨20, 1, .rwb, 0⟩, ⟨21, 1, .rwb, 1⟩, ⟨24, 8, .rwb, 2⟩]⟩,  -- AX_DP_CFG, Table 13-3
  ⟨0x889, 0x100, 8, [⟨0, 24, .rwb, 0⟩]⟩,  -- AX_DP_SCALE, Table 13-3
  ⟨0x88a, 0x100, 8, [⟨0, 5, .rwb, 0x18⟩, ⟨5, 1, .rwb, 1⟩, ⟨6, 1, .rwb, 0⟩, ⟨8, 4, .rwb, 1⟩, ⟨12, 9, .rwb, 0x28⟩]⟩,  -- AX_DP_SSI_CFG, Table 13-3
  ⟨0x88b, 0x100, 8, [⟨0, 10, .rwb, 0⟩, ⟨16, 8, .rwb, 0x40⟩]⟩,  -- AX_DP_SSI_TIME, Table 13-3
  ⟨0x88c, 0x100, 8, [⟨0, 24, .rwb, 0⟩]⟩,  -- AX_DP_SSI_JMAX, Table 13-3
  ⟨0x88d, 0x100, 8, [⟨0, 1, .wp, 0⟩, ⟨1, 1, .wp, 0⟩, ⟨2, 1, .wp, 0⟩, ⟨3, 1, .wp, 0⟩]⟩,  -- AX_DP_CTL, Table 13-4
  ⟨0x88e, 0x100, 8, [⟨0, 1, .rs, 0⟩, ⟨1, 1, .rs, 0⟩, ⟨2, 1, .rs, 0⟩, ⟨3, 1, .ro, 0⟩, ⟨4, 1, .rs, 0⟩, ⟨5, 1, .rs, 0⟩, ⟨6, 1, .ro, 0⟩, ⟨7, 3, .ro, 0⟩, ⟨10, 2, .ro, 0⟩, ⟨12, 1, .rs, 0⟩, ⟨13, 1, .rs, 0⟩, ⟨14, 1, .rs, 0⟩, ⟨15, 1, .rs, 0⟩, ⟨16, 2, .ro, 0⟩]⟩  -- AX_DP_STAT, Table 13-4
]

/-- Registers of the ax block, part 10. -/
def axRegs10 : List RDef := [
  ⟨0x88f, 0x100, 8, [⟨0, 32, .ro, 0⟩]⟩,  -- AX_DP_COUNT, Table 13-5
  ⟨0x890, 0x100, 8, [⟨0, 32, .ro, 0⟩]⟩,  -- AX_DP_SPEED, Table 13-5
  ⟨0x891, 0x100, 8, [⟨0, 32, .ro, 0⟩]⟩,  -- AX_DP_IDX, Table 13-5
  ⟨0x892, 0x100, 8, [⟨0, 16, .ro, 0⟩]⟩,  -- AX_DP_IDXERR, Table 13-5
  ⟨0x893, 0x100, 8, [⟨0, 32, .ro, 0⟩]⟩,  -- AX_DP_SSI_WORD, Table 13-5
  ⟨0x894, 0x100, 8, [⟨0, 32, .ro, 0⟩]⟩,  -- AX_DP_SSI_TS, Table 13-5
  ⟨0x895, 0x100, 8, [⟨0, 8, .ro, 0⟩, ⟨8, 8, .ro, 0⟩, ⟨16, 8, .ro, 0⟩, ⟨24, 8, .ro, 0⟩]⟩,  -- AX_DP_CNT, Table 13-5
  ⟨0x89e, 0x100, 8, [⟨0, 2, .rwb, 0⟩, ⟨2, 2, .rwb, 0⟩, ⟨4, 2, .rwb, 0⟩, ⟨6, 2, .rwb, 0⟩, ⟨8, 1, .rwb, 0⟩, ⟨9, 1, .rwb, 0⟩, ⟨10, 1, .rwb, 0⟩, ⟨16, 4, .rwb, 0⟩]⟩,  -- AX_PINSEL, Table 2-5
  ⟨0x89f, 0x100, 8, [⟨0, 1, .ro, 0⟩, ⟨1, 1, .ro, 0⟩, ⟨2, 1, .ro, 0⟩, ⟨3, 1, .ro, 0⟩, ⟨4, 1, .ro, 0⟩, ⟨5, 1, .ro, 0⟩, ⟨8, 1, .rs, 0⟩, ⟨9, 1, .rs, 0⟩, ⟨16, 2, .ro, 0⟩, ⟨18, 2, .ro, 0⟩, ⟨20, 2, .ro, 0⟩, ⟨22, 2, .ro, 0⟩]⟩  -- AX_PINSTAT, Table 2-6
]

/-- All registers of the ax block. -/
def axRegs : List RDef := axRegs1 ++ axRegs2 ++ axRegs3 ++ axRegs4 ++ axRegs5 ++ axRegs6 ++ axRegs7 ++ axRegs8 ++ axRegs9 ++ axRegs10

/-- Registers of the mg block, part 1. -/
def mgRegs1 : List RDef := [
  ⟨0x1000000, 0x1, 4, [⟨0, 16, .ro, 0x8000⟩, ⟨16, 16, .ro, 0x8000⟩]⟩,  -- MG_TEMP, Table 16-8
  ⟨0x1000004, 0x1, 1, [⟨0, 16, .ro, 0⟩, ⟨16, 16, .ro, 0⟩]⟩,  -- MG_VSUP, Table 16-8
  ⟨0x1000005, 0x1, 1, [⟨0, 1, .rs, 0⟩, ⟨1, 1, .rs, 0⟩, ⟨2, 1, .rs, 0⟩, ⟨8, 8, .ro, 0⟩]⟩,  -- MG_SV_STAT, Table 16-8
  ⟨0x1000008, 0x1, 1, [⟨0, 32, .rw, 0⟩]⟩,  -- MG_FCLK, Table 16-8
  ⟨0x1000009, 0x1, 1, [⟨0, 10, .ro, 0⟩, ⟨10, 1, .ro, 0⟩]⟩,  -- MG_FCLK_STAT, Table 16-8
  ⟨0x1000010, 0x1, 1, [⟨0, 32, .ro, 0⟩]⟩,  -- MG_FB_HEAD, Table 16-8
  ⟨0x1000011, 0x1, 1, [⟨0, 32, .ro, 0⟩]⟩,  -- MG_FB_OLD, Table 16-8
  ⟨0x1000012, 0x1, 1, [⟨0, 8, .ro, 0⟩, ⟨8, 8, .ro, 0⟩, ⟨16, 1, .rs, 0⟩, ⟨31, 1, .wp, 0⟩]⟩,  -- MG_FB_STAT, Table 16-8
  ⟨0x1000020, 0x1, 1, [⟨0, 1, .rw, 0⟩, ⟨1, 1, .rw, 0⟩, ⟨8, 8, .rw, 0x3c⟩]⟩,  -- MG_MW_CFG, Table 16-8
  ⟨0x1000021, 0x1, 1, [⟨0, 8, .ro, 0⟩, ⟨8, 8, .ro, 0⟩, ⟨16, 8, .ro, 0⟩, ⟨31, 1, .wp, 0⟩]⟩,  -- MG_MW_STAT, Table 16-8
  ⟨0x1000028, 0x1, 16, [⟨0, 16, .ro, 0xffff⟩, ⟨16, 16, .ro, 0xffff⟩]⟩,  -- MG_MW_RES, Table 16-8
  ⟨0x1000100, 0x1, 1, [⟨0, 3, .rwk, 0⟩, ⟨8, 5, .rwk, 0⟩, ⟨16, 1, .wp, 0⟩]⟩  -- MG_SEAL_CTL, Table 16-9
]

/-- Registers of the mg block, part 2. -/
def mgRegs2 : List RDef := [
  ⟨0x1000101, 0x1, 1, [⟨0, 1, .rs, 0⟩, ⟨1, 4, .ro, 0⟩, ⟨5, 3, .ro, 0⟩]⟩,  -- MG_SEAL_STAT, Table 16-9
  ⟨0x1000108, 0x1, 8, [⟨0, 32, .rw, 0⟩]⟩,  -- MG_SEAL_VAL, Table 16-9
  ⟨0x1000110, 0x1, 8, [⟨0, 5, .ro, 0⟩, ⟨8, 4, .ro, 0⟩, ⟨12, 1, .ro, 0⟩, ⟨13, 1, .ro, 0⟩]⟩,  -- MG_SEAL_SLOT, Table 16-9
  ⟨0x1000140, 0x1, 64, [⟨0, 32, .ro, 0⟩]⟩,  -- MG_SEAL_CUR, Table 16-9
  ⟨0x1000200, 0x1, 1, [⟨0, 3, .rw, 0⟩, ⟨4, 1, .rw, 0⟩, ⟨5, 1, .rw, 0⟩, ⟨16, 1, .wp, 0⟩]⟩,  -- MG_UPD_CTL, Table 16-10
  ⟨0x1000201, 0x1, 1, [⟨0, 21, .rw, 0⟩]⟩,  -- MG_UPD_OFS, Table 16-10
  ⟨0x1000202, 0x1, 1, [⟨0, 13, .rw, 0⟩]⟩,  -- MG_UPD_LEN, Table 16-10
  ⟨0x1000203, 0x1, 1, [⟨0, 32, .rw, 0⟩]⟩,  -- MG_UPD_CRC, Table 16-10
  ⟨0x1000204, 0x1, 1, [⟨0, 1, .rs, 0⟩, ⟨1, 2, .ro, 0⟩, ⟨3, 1, .ro, 0⟩, ⟨4, 4, .ro, 0⟩, ⟨8, 1, .ro, 0⟩, ⟨9, 1, .ro, 0⟩]⟩,  -- MG_UPD_STAT, Table 16-10
  ⟨0x1000205, 0x1, 1, [⟨0, 22, .ro, 0⟩]⟩,  -- MG_UPD_NEXT, Table 16-10
  ⟨0x1000210, 0x1, 2, [⟨0, 24, .ro, 0⟩, ⟨24, 2, .ro, 0⟩, ⟨26, 1, .ro, 0⟩]⟩,  -- MG_UPD_FW, Table 16-10
  ⟨0x1000212, 0x1, 2, [⟨0, 32, .ro, 0⟩]⟩  -- MG_UPD_FWSEQ, Table 16-10
]

/-- Registers of the mg block, part 3. -/
def mgRegs3 : List RDef := [
  ⟨0x1000218, 0x1, 2, [⟨0, 32, .ro, 0⟩]⟩,  -- MG_UPD_IMG, Table 16-10
  ⟨0x100021a, 0x1, 1, [⟨0, 2, .ro, 0⟩, ⟨2, 2, .ro, 0⟩, ⟨4, 1, .ro, 0⟩, ⟨5, 1, .ro, 0⟩]⟩,  -- MG_UPD_IMGST, Table 16-10
  ⟨0x1000300, 0x1, 1, [⟨0, 16, .ro, 0⟩, ⟨16, 8, .ro, 0⟩, ⟨24, 8, .ro, 0⟩]⟩,  -- MG_NVM_CNT, Table 16-11
  ⟨0x1000340, 0x1, 32, [⟨0, 17, .ro, 0⟩]⟩,  -- MG_FB_WEAR, Table 16-11
  ⟨0x1000400, 0x1, 1, [⟨0, 1, .rw, 1⟩, ⟨1, 1, .rw, 1⟩, ⟨16, 16, .rw, 0x3e8⟩]⟩,  -- MG_ID_CFG, Table 15-3
  ⟨0x1000401, 0x1, 1, [⟨0, 8, .wp, 0⟩, ⟨8, 1, .wp, 0⟩]⟩,  -- MG_ID_CTL, Table 15-3
  ⟨0x1000402, 0x1, 1, [⟨0, 8, .rs, 0⟩, ⟨8, 8, .rs, 0⟩, ⟨16, 8, .rs, 0⟩]⟩,  -- MG_ID_PRES, Table 15-3
  ⟨0x1000408, 0x1, 8, [⟨0, 3, .ro, 0⟩, ⟨4, 2, .ro, 0⟩, ⟨6, 1, .rs, 0⟩, ⟨8, 7, .ro, 0⟩, ⟨16, 8, .ro, 0⟩, ⟨24, 8, .ro, 0⟩]⟩,  -- MG_ID_AX, Table 15-3
  ⟨0x1000410, 0x1, 8, [⟨0, 32, .ro, 0⟩]⟩  -- MG_ID_SER, Table 15-3
]

/-- All registers of the mg block. -/
def mgRegs : List RDef := mgRegs1 ++ mgRegs2 ++ mgRegs3

/-- The block tables an address can lie in (Table 5-1, Table 5-5). -/
def blockOf (a : Nat) : List RDef :=
  if a < 0x80 then devRegs
  else if a < 0x140 then ringRegs
  else if a < 0x200 then pwrRegs
  else if a < 0x280 then mbRegs
  else if a < 0x600 then stRegs
  else if a < mgBase then axRegs
  else mgRegs

/-- The fields of the register that `d` puts at address `a`, none where `a` is not of its run. -/
def RDef.at (d : RDef) (a : Nat) : Option (List FRow) :=
  if d.base ≤ a ∧ (a - d.base) % d.stride = 0 ∧ (a - d.base) / d.stride < d.count then some d.rows else none

/-- The fields of the register at address `a`; empty at a reserved address (R141). -/
def layout (a : Nat) : List FRow := ((blockOf a).findSome? (fun d => d.at a)).getD []

/-- The word that register `a` holds at a power-on reset: every field at the reset value of its table. -/
def resetWord (a : Nat) : Word :=
  BitVec.ofNat 32 ((layout a).foldl (fun x r => x + r.rst * 2 ^ r.lo) 0)

/-! ## Field names -/

def CLK_TICK_CFG_PERIOD : Fld := ⟨0x1c8, 0, 16⟩
def CLK_TICK_CFG_OVR_LIMIT : Fld := ⟨0x1c8, 16, 4⟩
def CLK_TICK_CFG_WARN : Fld := ⟨0x1c8, 20, 4⟩
def CLK_TICK_CFG_SRC : Fld := ⟨0x1c8, 24, 2⟩
def CLK_TICK_CFG_SYNC_OUT_EN : Fld := ⟨0x1c8, 26, 1⟩
def CLK_TICK_STAT_PEND : Fld := ⟨0x1c9, 0, 1⟩
def CLK_TICK_STAT_MARGIN : Fld := ⟨0x1c9, 1, 1⟩
def CLK_TICK_STAT_SRC_LOST : Fld := ⟨0x1c9, 2, 1⟩
def CLK_TICK_STAT_OVERRUN : Fld := ⟨0x1c9, 3, 1⟩
def CLK_TICK_STAT_OVR_CONSEC : Fld := ⟨0x1c9, 4, 4⟩
def CLK_TICK_STAT_CLR_MAX : Fld := ⟨0x1c9, 8, 1⟩
def CLK_TICK_STAT_CLR_TOTAL : Fld := ⟨0x1c9, 9, 1⟩
def CLK_TICK_LAST_FINISH : Fld := ⟨0x1ca, 0, 16⟩
def CLK_TICK_LAST_LATE : Fld := ⟨0x1ca, 16, 8⟩
def CLK_TICK_LAST_OVR_TOTAL : Fld := ⟨0x1ca, 24, 8⟩
def CLK_TICK_MAX_MAX (n : Nat) : Fld := ⟨0x1cc + n, 0, 16⟩
def DEV_MEM_CFG_SCRUB_EN : Fld := ⟨0x62, 0, 1⟩
def DEV_MEM_CFG_CE_THRESH : Fld := ⟨0x62, 8, 8⟩
def DEV_MEM_CFG_CLR_CNT : Fld := ⟨0x62, 16, 1⟩
def DEV_MEM_CFG_CLR_FIRST : Fld := ⟨0x62, 17, 1⟩
def DEV_MEM_STAT_PASS_M : Fld := ⟨0x63, 0, 8⟩
def DEV_MEM_STAT_PASS_G : Fld := ⟨0x63, 8, 8⟩
def DEV_MEM_STAT_SCRUB_ON : Fld := ⟨0x63, 16, 1⟩
def DEV_MEM_STAT_INJ_ARMED : Fld := ⟨0x63, 17, 1⟩
def DEV_MEM_STAT_DROP : Fld := ⟨0x63, 24, 8⟩
def DEV_MEM_CNTS_CNT_M (k : Nat) : Fld := ⟨0x64 + k, 0, 16⟩
def DEV_MEM_CNTS_CNT_G (k : Nat) : Fld := ⟨0x64 + k, 16, 16⟩
def DEV_MEM_FIRST_ADDR : Fld := ⟨0x66, 0, 15⟩
def DEV_MEM_FIRST_MEM : Fld := ⟨0x66, 15, 1⟩
def DEV_MEM_FIRST_TYPE : Fld := ⟨0x66, 16, 1⟩
def DEV_MEM_FIRST_SYM : Fld := ⟨0x66, 17, 5⟩
def DEV_MEM_FIRST_VALID : Fld := ⟨0x66, 22, 1⟩
def DEV_MEM_FIRST_SOURCE : Fld := ⟨0x66, 23, 1⟩
def DEV_MEM_INJ_ADDR : Fld := ⟨0x67, 0, 15⟩
def DEV_MEM_INJ_MEM : Fld := ⟨0x67, 15, 1⟩
def DEV_MEM_INJ_SYM0 : Fld := ⟨0x67, 16, 5⟩
def DEV_MEM_INJ_SYM1 : Fld := ⟨0x67, 21, 5⟩
def DEV_MEM_INJ_DOUBLE : Fld := ⟨0x67, 26, 1⟩
def DEV_MEM_INJ_ARM : Fld := ⟨0x67, 27, 1⟩
def DEV_ARB_CFG_MODE : Fld := ⟨0x60, 0, 1⟩
def DEV_ARB_CFG_CLR_MAXWAIT : Fld := ⟨0x60, 8, 1⟩
def DEV_ARB_STAT_MODE_ACT : Fld := ⟨0x61, 0, 1⟩
def DEV_ARB_STAT_ACT_S0 : Fld := ⟨0x61, 4, 4⟩
def DEV_ARB_STAT_ACT_S1 : Fld := ⟨0x61, 8, 4⟩
def DEV_ARB_STAT_ACT_SP : Fld := ⟨0x61, 12, 4⟩
def DEV_ARB_STAT_MAXWAIT : Fld := ⟨0x61, 16, 8⟩
def AX_PINSEL_FB_MODE (n : Nat) : Fld := ⟨0x89e + 0x100 * n, 0, 2⟩
def AX_PINSEL_FB2_FN (n : Nat) : Fld := ⟨0x89e + 0x100 * n, 2, 2⟩
def AX_PINSEL_STEP_FN (n : Nat) : Fld := ⟨0x89e + 0x100 * n, 4, 2⟩
def AX_PINSEL_DIR_FN (n : Nat) : Fld := ⟨0x89e + 0x100 * n, 6, 2⟩
def AX_PINSEL_FB2_INV (n : Nat) : Fld := ⟨0x89e + 0x100 * n, 8, 1⟩
def AX_PINSEL_STEP_INV (n : Nat) : Fld := ⟨0x89e + 0x100 * n, 9, 1⟩
def AX_PINSEL_DIR_INV (n : Nat) : Fld := ⟨0x89e + 0x100 * n, 10, 1⟩
def AX_PINSEL_FILT (n : Nat) : Fld := ⟨0x89e + 0x100 * n, 16, 4⟩
def AX_PINSTAT_FB0_LVL (n : Nat) : Fld := ⟨0x89f + 0x100 * n, 0, 1⟩
def AX_PINSTAT_FB1_LVL (n : Nat) : Fld := ⟨0x89f + 0x100 * n, 1, 1⟩
def AX_PINSTAT_FB2_LVL (n : Nat) : Fld := ⟨0x89f + 0x100 * n, 2, 1⟩
def AX_PINSTAT_STEP_LVL (n : Nat) : Fld := ⟨0x89f + 0x100 * n, 3, 1⟩
def AX_PINSTAT_DIR_LVL (n : Nat) : Fld := ⟨0x89f + 0x100 * n, 4, 1⟩
def AX_PINSTAT_IDD_LVL (n : Nat) : Fld := ⟨0x89f + 0x100 * n, 5, 1⟩
def AX_PINSTAT_SEL_PEND (n : Nat) : Fld := ⟨0x89f + 0x100 * n, 8, 1⟩
def AX_PINSTAT_SEL_CONFLICT (n : Nat) : Fld := ⟨0x89f + 0x100 * n, 9, 1⟩
def AX_PINSTAT_FB_ACT (n : Nat) : Fld := ⟨0x89f + 0x100 * n, 16, 2⟩
def AX_PINSTAT_FB2_ACT (n : Nat) : Fld := ⟨0x89f + 0x100 * n, 18, 2⟩
def AX_PINSTAT_STEP_ACT (n : Nat) : Fld := ⟨0x89f + 0x100 * n, 20, 2⟩
def AX_PINSTAT_DIR_ACT (n : Nat) : Fld := ⟨0x89f + 0x100 * n, 22, 2⟩
def PWR_STAT_VM_OK (i : Nat) : Fld := ⟨0x140, i, 1⟩
def PWR_STAT_UV_WARN (i : Nat) : Fld := ⟨0x140, 2 + i, 1⟩
def PWR_STAT_OV (i : Nat) : Fld := ⟨0x140, 4 + i, 1⟩
def PWR_STAT_REV (i : Nat) : Fld := ⟨0x140, 6 + i, 1⟩
def PWR_STAT_CLAMP (i : Nat) : Fld := ⟨0x140, 8 + i, 1⟩
def PWR_STAT_DUMP : Fld := ⟨0x140, 10, 1⟩
def PWR_STAT_BRK_HOT : Fld := ⟨0x140, 11, 1⟩
def PWR_STAT_LINK_REV : Fld := ⟨0x140, 12, 1⟩
def PWR_STAT_LINK_OK : Fld := ⟨0x140, 13, 1⟩
def PWR_STAT_SRC_VM : Fld := ⟨0x140, 14, 1⟩
def PWR_STAT_FL_ON : Fld := ⟨0x140, 15, 1⟩
def PWR_STAT_V5_ON : Fld := ⟨0x140, 16, 1⟩
def PWR_STAT_V5_FAULT : Fld := ⟨0x140, 17, 1⟩
def PWR_STAT_VBAK_OK : Fld := ⟨0x140, 18, 1⟩
def PWR_STAT_TEMP_WARN (i : Nat) : Fld := ⟨0x140, 19 + i, 1⟩
def PWR_STAT_TEMP_TRIP (i : Nat) : Fld := ⟨0x140, 21 + i, 1⟩
def PWR_STAT_TEMP_CTRL : Fld := ⟨0x140, 23, 1⟩
def PWR_STAT_GOV_ACTIVE : Fld := ⟨0x140, 24, 1⟩
def PWR_STAT_MOIST_WARN : Fld := ⟨0x140, 25, 1⟩
def PWR_STAT_MOIST_FAULT : Fld := ⟨0x140, 26, 1⟩
def PWR_VM_CFG_DUMP_ON : Fld := ⟨0x141, 0, 16⟩
def PWR_VM_CFG_UV_WARN : Fld := ⟨0x141, 16, 16⟩
def PWR_VM_AUX_OV_LIM : Fld := ⟨0x142, 0, 16⟩
def PWR_VM_AUX_DUMP_HYST : Fld := ⟨0x142, 16, 8⟩
def PWR_VM_AUX_BRK_MAXON : Fld := ⟨0x142, 24, 8⟩
def PWR_VMS_VM0 : Fld := ⟨0x143, 0, 16⟩
def PWR_VMS_VM1 : Fld := ⟨0x143, 16, 16⟩
def PWR_PATH_CFG_FL_ON_LINK : Fld := ⟨0x144, 0, 1⟩
def PWR_PATH_CFG_V5_EN : Fld := ⟨0x144, 1, 1⟩
def PWR_PATH_CFG_V5_SAFE : Fld := ⟨0x144, 2, 1⟩
def PWR_PATH_CFG_VBAK_CHG : Fld := ⟨0x144, 3, 1⟩
def PWR_COILFLT_OC : Fld := ⟨0x148, 0, 16⟩
def PWR_COILFLT_OPEN : Fld := ⟨0x148, 16, 16⟩
def PWR_COILFLT_CLR_CLR_OC : Fld := ⟨0x149, 0, 16⟩
def PWR_COILFLT_CLR_CLR_OPEN : Fld := ⟨0x149, 16, 16⟩
def PWR_OCKIND_KIND (i : Nat) : Fld := ⟨0x14a, 2 * i, 2⟩
def PWR_GOV_CFG_BUDGET : Fld := ⟨0x150, 0, 16⟩
def PWR_GOV_CFG_T_GOV : Fld := ⟨0x150, 16, 8⟩
def PWR_GOV_CFG_TAU : Fld := ⟨0x150, 24, 3⟩
def PWR_GOV_CFG_FLOOR : Fld := ⟨0x150, 28, 4⟩
def PWR_GOV_STAT_P_EST : Fld := ⟨0x151, 0, 16⟩
def PWR_GOV_STAT_KP : Fld := ⟨0x151, 16, 9⟩
def PWR_GOV_TEMP_TMAX_S0 : Fld := ⟨0x152, 0, 16⟩
def PWR_GOV_TEMP_TMAX_S1 : Fld := ⟨0x152, 16, 16⟩
def PWR_TEMP_CFG_T_WARN : Fld := ⟨0x153, 0, 8⟩
def PWR_TEMP_CFG_T_TRIP : Fld := ⟨0x153, 8, 8⟩
def PWR_TEMP_CFG_T_REL : Fld := ⟨0x153, 16, 8⟩
def PWR_GOV_CEIL_CEIL (n : Nat) : Fld := ⟨0x158 + n, 0, 12⟩
def PWR_GOV_CEIL_BOOST_LOCK (n : Nat) : Fld := ⟨0x158 + n, 12, 1⟩
def PWR_GOV_CEIL_LIMITED (n : Nat) : Fld := ⟨0x158 + n, 13, 1⟩
def PWR_GOV_CEIL_CEIL_MA (n : Nat) : Fld := ⟨0x158 + n, 16, 16⟩
def PWR_AXCFG_GOV_PRIO (n : Nat) : Fld := ⟨0x160 + n, 0, 1⟩
def PWR_AXCFG_MOIST_ACT (n : Nat) : Fld := ⟨0x160 + n, 1, 1⟩
def PWR_AXCFG_OPEN_TICKS (n : Nat) : Fld := ⟨0x160 + n, 8, 4⟩
def PWR_FLTCAUSE_BITS (n : Nat) : Fld := ⟨0x168 + n, 0, 10⟩
def PWR_MOIST_CFG_WARN_KOHM : Fld := ⟨0x170, 0, 16⟩
def PWR_MOIST_CFG_FAULT_KOHM : Fld := ⟨0x170, 16, 16⟩
def PWR_MOIST_RPU_IDD_RPU : Fld := ⟨0x171, 0, 16⟩
def PWR_MOIST_STAT_FB_WARN : Fld := ⟨0x172, 0, 8⟩
def PWR_MOIST_STAT_FB_FAULT : Fld := ⟨0x172, 8, 8⟩
def PWR_MOIST_STAT_IDD_WARN : Fld := ⟨0x172, 16, 8⟩
def PWR_MOIST_STAT_IDD_FAULT : Fld := ⟨0x172, 24, 8⟩
def DEV_STATE_STATE : Fld := ⟨0x10, 0, 3⟩
def DEV_STATE_WAIT_FL : Fld := ⟨0x10, 3, 1⟩
def DEV_STATE_SAFE_CAUSE : Fld := ⟨0x10, 8, 7⟩
def DEV_STATE_EXIT_REFUSED : Fld := ⟨0x10, 16, 4⟩
def DEV_RSTCAUSE_CAUSE : Fld := ⟨0x11, 0, 2⟩
def DEV_RSTCAUSE_PROMOTED : Fld := ⟨0x11, 2, 1⟩
def DEV_RSTCAUSE_HELDOFF : Fld := ⟨0x11, 3, 1⟩
def DEV_RSTCAUSE_LOWTIME : Fld := ⟨0x11, 4, 12⟩
def DEV_RSTCAUSE_RSTCNT : Fld := ⟨0x11, 16, 8⟩
def DEV_BOOTSTAT_FAILCNT : Fld := ⟨0x12, 0, 2⟩
def DEV_BOOTSTAT_FW_SLOT : Fld := ⟨0x12, 2, 1⟩
def DEV_BOOTSTAT_IMG_SLOT : Fld := ⟨0x12, 3, 1⟩
def DEV_BOOTSTAT_OPT_DEFAULT : Fld := ⟨0x12, 4, 1⟩
def DEV_BOOTSTAT_OPT_CORR : Fld := ⟨0x12, 5, 3⟩
def DEV_BOOTSTAT_NO_IMAGE : Fld := ⟨0x12, 8, 1⟩
def DEV_BOOTSTAT_CLK_FAIL : Fld := ⟨0x12, 9, 1⟩
def DEV_BOOTSTAT_REC_CAUSE : Fld := ⟨0x12, 10, 3⟩
def DEV_BOOTSTAT_BOOT_MS : Fld := ⟨0x12, 16, 16⟩
def DEV_BOOTCTL_RESTART : Fld := ⟨0x13, 0, 1⟩
def DEV_BOOTCTL_CLR_FAILCNT : Fld := ⟨0x13, 1, 1⟩
def DEV_BOOTCTL_SAFE_EXIT : Fld := ⟨0x13, 2, 1⟩
def DEV_WDOG_CFG_HOST_TO : Fld := ⟨0x14, 0, 12⟩
def DEV_WDOG_CFG_HOST_ACT : Fld := ⟨0x14, 12, 1⟩
def DEV_WDOG_CFG_EXPIRED : Fld := ⟨0x14, 13, 1⟩
def DEV_WDOG_CFG_AXMASK : Fld := ⟨0x14, 16, 8⟩
def DEV_BLKRST_AXIS : Fld := ⟨0x15, 0, 8⟩
def DEV_BLKRST_RING : Fld := ⟨0x15, 8, 16⟩
def DEV_BLKRST_CFG_QTO : Fld := ⟨0x16, 0, 10⟩
def DEV_BLKRST_STAT_BUSY : Fld := ⟨0x17, 0, 8⟩
def DEV_BLKRST_STAT_FORCED : Fld := ⟨0x17, 8, 8⟩
def DEV_BLKRST_STAT_RING_REF : Fld := ⟨0x17, 16, 16⟩
def DEV_ID_PART : Fld := ⟨0x0, 0, 16⟩
def DEV_ID_FAMILY : Fld := ⟨0x0, 16, 8⟩
def DEV_REV_REV : Fld := ⟨0x1, 0, 4⟩
def DEV_REV_GRADE : Fld := ⟨0x1, 4, 1⟩
def DEV_SERIAL_SERIAL : Fld := ⟨0x2, 0, 32⟩
def DEV_FWVER_PATCH : Fld := ⟨0x3, 0, 8⟩
def DEV_FWVER_MINOR : Fld := ⟨0x3, 8, 8⟩
def DEV_FWVER_MAJOR : Fld := ⟨0x3, 16, 8⟩
def DEV_IMGVER_IMGVER : Fld := ⟨0x4, 0, 32⟩
def CLK_STAT_PLL_LOCK : Fld := ⟨0x1c0, 0, 1⟩
def CLK_STAT_XTAL_OK : Fld := ⟨0x1c0, 1, 1⟩
def CLK_STAT_RC_ONLY : Fld := ⟨0x1c0, 2, 1⟩
def DEV_UNLOCK_KEY : Fld := ⟨0x20, 0, 32⟩
def DEV_UPDATE_AXIS : Fld := ⟨0x21, 0, 8⟩
def DEV_UPDATE_STATION : Fld := ⟨0x21, 8, 2⟩
def DEV_UPDATE_GLOBAL : Fld := ⟨0x21, 10, 1⟩
def DEV_UPDATE_STAT_AX_PEND : Fld := ⟨0x22, 0, 8⟩
def DEV_UPDATE_STAT_ST_PEND : Fld := ⟨0x22, 8, 2⟩
def DEV_UPDATE_STAT_GL_PEND : Fld := ⟨0x22, 10, 1⟩
def DEV_UPDATE_STAT_STROBES : Fld := ⟨0x22, 16, 8⟩
def DEV_ACCSTAT_KEY_REF : Fld := ⟨0x23, 0, 8⟩
def DEV_ACCSTAT_PASTEND : Fld := ⟨0x23, 8, 8⟩
def DEV_ACCSTAT_IND_OVF : Fld := ⟨0x23, 16, 8⟩
def DEV_ACCSTAT_ARMED_SPI : Fld := ⟨0x23, 24, 1⟩
def DEV_ACCSTAT_ARMED_LNK : Fld := ⟨0x23, 25, 1⟩
def DEV_ACCSTAT_CLR : Fld := ⟨0x23, 31, 1⟩
def DEV_IND_ADDR_ADDR : Fld := ⟨0x24, 0, 24⟩
def DEV_IND_ADDR_INC : Fld := ⟨0x24, 24, 1⟩
def DEV_IND_ADDR_PAST_END : Fld := ⟨0x24, 25, 1⟩
def DEV_IND_DATA_DATA : Fld := ⟨0x25, 0, 32⟩
def DEV_IND_STAT_RBUSY : Fld := ⟨0x26, 0, 1⟩
def DEV_IND_STAT_WBUSY : Fld := ⟨0x26, 1, 1⟩
def DEV_IND_STAT_WQ : Fld := ⟨0x26, 4, 3⟩
def DEV_IND_STAT_ERR : Fld := ⟨0x26, 8, 1⟩
def MB_REQ_ITEM (m : Nat) : Fld := ⟨0x200 + 0x10 * m, 0, 8⟩
def MB_REQ_INDEX (m : Nat) : Fld := ⟨0x200 + 0x10 * m, 8, 4⟩
def MB_REQ_MODE (m : Nat) : Fld := ⟨0x200 + 0x10 * m, 12, 1⟩
def MB_REQ_GO (m : Nat) : Fld := ⟨0x200 + 0x10 * m, 16, 1⟩
def MB_STAT_VALID (m : Nat) : Fld := ⟨0x201 + 0x10 * m, 0, 1⟩
def MB_STAT_STALE (m : Nat) : Fld := ⟨0x201 + 0x10 * m, 1, 1⟩
def MB_STAT_PEND (m : Nat) : Fld := ⟨0x201 + 0x10 * m, 2, 1⟩
def MB_STAT_BADREQ (m : Nat) : Fld := ⟨0x201 + 0x10 * m, 3, 1⟩
def MB_STAT_LEN (m : Nat) : Fld := ⟨0x201 + 0x10 * m, 4, 4⟩
def MB_STAT_DNUM (m : Nat) : Fld := ⟨0x201 + 0x10 * m, 8, 8⟩
def MB_STAT_LOST (m : Nat) : Fld := ⟨0x201 + 0x10 * m, 16, 8⟩
def MB_D_DATA (m k : Nat) : Fld := ⟨0x202 + 0x10 * m + k, 0, 32⟩
def DEV_RW_CTL_SNAP : Fld := ⟨0x30, 0, 1⟩
def DEV_RW_CTL_SNAPNUM : Fld := ⟨0x30, 8, 8⟩
def DEV_RW_SPI_SEQ_ACC_HSEQ : Fld := ⟨0x31, 0, 16⟩
def DEV_RW_SPI_SEQ_PERF_HSEQ : Fld := ⟨0x31, 16, 16⟩
def DEV_RW_SPI_WR_WR_HSEQ : Fld := ⟨0x32, 0, 16⟩
def DEV_RW_SPI_WR_WR_ADDR : Fld := ⟨0x32, 16, 16⟩
def DEV_RW_SPI_RPL_DSEQ : Fld := ⟨0x33, 0, 16⟩
def DEV_RW_SPI_RPL_EXP_ALIVE : Fld := ⟨0x33, 16, 4⟩
def DEV_RW_SPI_RPL_ACC_ANY : Fld := ⟨0x33, 20, 1⟩
def DEV_RW_CSEQ_OLD_CSEQ : Fld := ⟨0x38, 0, 16⟩
def DEV_RW_CSEQ_NEXT_CSEQ : Fld := ⟨0x38, 16, 16⟩
def DEV_RW_EVSEQ_OLD_EVSEQ : Fld := ⟨0x39, 0, 16⟩
def DEV_RW_EVSEQ_NEXT_EVSEQ : Fld := ⟨0x39, 16, 16⟩
def DEV_RW_TAGS_INFLIGHT : Fld := ⟨0x3a, 0, 10⟩
def DEV_RW_TIME_TIME : Fld := ⟨0x3b, 0, 32⟩
def LNK_SPI_CFG_MODE : Fld := ⟨0x40, 0, 1⟩
def LNK_SPI_CFG_CHAIN_LEN : Fld := ⟨0x40, 4, 3⟩
def LNK_SPI_CFG_CHAIN_PERM : Fld := ⟨0x40, 8, 2⟩
def LNK_SPI_STAT_MODE_ACT : Fld := ⟨0x41, 0, 1⟩
def LNK_SPI_STAT_CPHA_MODE3 : Fld := ⟨0x41, 1, 1⟩
def LNK_SPI_STAT_SELECTED : Fld := ⟨0x41, 2, 1⟩
def LNK_SPI_STAT_HSEQ_GAP : Fld := ⟨0x41, 8, 8⟩
def LNK_SPI_STAT_CLR : Fld := ⟨0x41, 31, 1⟩
def LNK_SPI_CNT_CRC_ERR : Fld := ⟨0x42, 0, 8⟩
def LNK_SPI_CNT_ALIVE_ERR : Fld := ⟨0x42, 8, 8⟩
def LNK_SPI_CNT_LEN_ERR : Fld := ⟨0x42, 16, 8⟩
def LNK_SPI_CNT_UNDERRUN : Fld := ⟨0x42, 24, 8⟩
def LNK_GR_CFG_NODE : Fld := ⟨0x50, 0, 5⟩
def LNK_GR_CFG_AUTH : Fld := ⟨0x50, 8, 1⟩
def LNK_GR_CFG_TERM : Fld := ⟨0x50, 9, 1⟩
def LNK_GR_CFG_MARK_DIV : Fld := ⟨0x50, 16, 8⟩
def LNK_GR_STAT_RX_INV : Fld := ⟨0x51, 0, 1⟩
def LNK_GR_STAT_MARK_OK : Fld := ⟨0x51, 1, 1⟩
def LNK_GR_STAT_ILIM : Fld := ⟨0x51, 2, 1⟩
def LNK_GR_STAT_FL_QUAL : Fld := ⟨0x51, 3, 1⟩
def LNK_GR_STAT_HSEQ_GAP : Fld := ⟨0x51, 8, 8⟩
def LNK_GR_STAT_CLR : Fld := ⟨0x51, 31, 1⟩
def LNK_GR_CNT_PKT_CRC : Fld := ⟨0x52, 0, 8⟩
def LNK_GR_CNT_PKT_FMT : Fld := ⟨0x52, 8, 8⟩
def LNK_GR_CNT_TAG_ERR : Fld := ⟨0x52, 16, 8⟩
def LNK_GR_FCNT_CRC_ERR : Fld := ⟨0x53, 0, 8⟩
def LNK_GR_FCNT_ALIVE_ERR : Fld := ⟨0x53, 8, 8⟩
def LNK_GR_FCNT_AUTH_ERR : Fld := ⟨0x53, 16, 8⟩
def LNK_GR_FCNT_UNDERRUN : Fld := ⟨0x53, 24, 8⟩
def LNK_GR_EPOCH_EPOCH : Fld := ⟨0x54, 0, 32⟩
def LNK_GR_TICK_DELAY : Fld := ⟨0x55, 0, 10⟩
def LNK_GR_TICKNUM_TICKNUM : Fld := ⟨0x56, 0, 32⟩
def LNK_GR_PWR_VLINK : Fld := ⟨0x57, 0, 16⟩
def LNK_GR_PWR_ILINK : Fld := ⟨0x57, 16, 12⟩
def RNG_STG_Dk (r k : Nat) : Fld := ⟨0x80 + 12 * r + k, 0, 32⟩
def RNG_COMMIT_RESULT (r : Nat) : Fld := ⟨0x84 + 12 * r, 0, 8⟩
def RNG_COMMIT_TAG (r : Nat) : Fld := ⟨0x84 + 12 * r, 8, 10⟩
def RNG_COMMIT_CNUM (r : Nat) : Fld := ⟨0x84 + 12 * r, 24, 7⟩
def RNG_COMMIT_GO (r : Nat) : Fld := ⟨0x84 + 12 * r, 31, 1⟩
def CRNG_STAT_FILL (r : Nat) : Fld := ⟨0x85 + 12 * r, 0, 7⟩
def CRNG_STAT_QUEUED (r : Nat) : Fld := ⟨0x85 + 12 * r, 8, 7⟩
def CRNG_STAT_EXEC (r : Nat) : Fld := ⟨0x85 + 12 * r, 16, 1⟩
def CRNG_STAT_FULL (r : Nat) : Fld := ⟨0x85 + 12 * r, 17, 1⟩
def CRNG_STAT_EXEC_TAG (r : Nat) : Fld := ⟨0x85 + 12 * r, 18, 10⟩
def CRNG_STAT_CLR (r : Nat) : Fld := ⟨0x85 + 12 * r, 31, 1⟩
def CRNG_CNT_REJ_STATE (r : Nat) : Fld := ⟨0x86 + 12 * r, 0, 8⟩
def CRNG_CNT_REJ_PARAM (r : Nat) : Fld := ⟨0x86 + 12 * r, 8, 8⟩
def CRNG_CNT_REJ_TAG (r : Nat) : Fld := ⟨0x86 + 12 * r, 16, 8⟩
def CRNG_CNT_REJ_FULL (r : Nat) : Fld := ⟨0x86 + 12 * r, 24, 8⟩
def RNG_LASTREJ_TAG (r : Nat) : Fld := ⟨0x87 + 12 * r, 0, 10⟩
def RNG_LASTREJ_STATUS (r : Nat) : Fld := ⟨0x87 + 12 * r, 10, 8⟩
def RNG_LASTREJ_WORD (r : Nat) : Fld := ⟨0x87 + 12 * r, 18, 2⟩
def RNG_LASTREJ_BIT (r : Nat) : Fld := ⟨0x87 + 12 * r, 20, 5⟩
def RNG10_TAGQ_TAG : Fld := ⟨0x100, 0, 10⟩
def RNG10_TAGQ_STATE : Fld := ⟨0x100, 10, 3⟩
def RNG10_TAGQ_RING : Fld := ⟨0x100, 13, 4⟩
def RRNG_CFG_WATER (r : Nat) : Fld := ⟨0x80 + 12 * r, 0, 16⟩
def RRNG_STAT_FILL (r : Nat) : Fld := ⟨0x81 + 12 * r, 0, 15⟩
def RRNG_STAT_WATER_HIT (r : Nat) : Fld := ⟨0x81 + 12 * r, 16, 1⟩
def RRNG_STAT_BACKLOG (r : Nat) : Fld := ⟨0x81 + 12 * r, 17, 1⟩
def RRNG_STAT_FULL (r : Nat) : Fld := ⟨0x81 + 12 * r, 18, 1⟩
def RRNG_STAT_CLR (r : Nat) : Fld := ⟨0x81 + 12 * r, 31, 1⟩
def RRNG_SEQ_OLD (r : Nat) : Fld := ⟨0x82 + 12 * r, 0, 16⟩
def RRNG_SEQ_NEXT (r : Nat) : Fld := ⟨0x82 + 12 * r, 16, 16⟩
def RRNG_PEEK_SEQ (r : Nat) : Fld := ⟨0x83 + 12 * r, 0, 16⟩
def RRNG_PEEK_AUTO (r : Nat) : Fld := ⟨0x83 + 12 * r, 16, 1⟩
def RRNG_PEEK_HELD (r : Nat) : Fld := ⟨0x83 + 12 * r, 17, 1⟩
def RRNG_D0_D0 (r : Nat) : Fld := ⟨0x84 + 12 * r, 0, 32⟩
def RRNG_D1_D1 (r : Nat) : Fld := ⟨0x85 + 12 * r, 0, 32⟩
def RRNG_REL_UPTO (r : Nat) : Fld := ⟨0x86 + 12 * r, 0, 16⟩
def RRNG_CNT_REL_BAD (r : Nat) : Fld := ⟨0x87 + 12 * r, 0, 8⟩
def RRNG_CNT_REJ_LOST (r : Nat) : Fld := ⟨0x87 + 12 * r, 8, 8⟩
def RRNG_CNT_OVF (r : Nat) : Fld := ⟨0x87 + 12 * r, 16, 8⟩
def AX_STATE_STATE (n : Nat) : Fld := ⟨0x800 + 0x100 * n, 0, 4⟩
def AX_STATE_REF (n : Nat) : Fld := ⟨0x800 + 0x100 * n, 4, 1⟩
def AX_STATE_ENGAGED (n : Nat) : Fld := ⟨0x800 + 0x100 * n, 5, 1⟩
def AX_STATE_TORQ_LIM (n : Nat) : Fld := ⟨0x800 + 0x100 * n, 6, 1⟩
def AX_STATE_VCAP (n : Nat) : Fld := ⟨0x800 + 0x100 * n, 7, 1⟩
def AX_STATE_SLIM_NEG_HIT (n : Nat) : Fld := ⟨0x800 + 0x100 * n, 8, 1⟩
def AX_STATE_SLIM_POS_HIT (n : Nat) : Fld := ⟨0x800 + 0x100 * n, 9, 1⟩
def AX_STATE_LIM_NEG (n : Nat) : Fld := ⟨0x800 + 0x100 * n, 10, 1⟩
def AX_STATE_LIM_POS (n : Nat) : Fld := ⟨0x800 + 0x100 * n, 11, 1⟩
def AX_STATE_HOME_IN (n : Nat) : Fld := ⟨0x800 + 0x100 * n, 12, 1⟩
def AX_STATE_CLOS_WARN (n : Nat) : Fld := ⟨0x800 + 0x100 * n, 13, 1⟩
def AX_STATE_NOCURVE (n : Nat) : Fld := ⟨0x800 + 0x100 * n, 14, 1⟩
def AX_PLN_CFG_STALL_ACT (n : Nat) : Fld := ⟨0x801 + 0x100 * n, 0, 1⟩
def AX_PLN_CFG_CLOS_ACT (n : Nat) : Fld := ⟨0x801 + 0x100 * n, 1, 1⟩
def AX_PLN_CFG_SLIM_EN (n : Nat) : Fld := ⟨0x801 + 0x100 * n, 2, 1⟩
def AX_PLN_CFG_TORQ_EN (n : Nat) : Fld := ⟨0x801 + 0x100 * n, 3, 1⟩
def AX_PLN_CFG_LIM_STOP (n : Nat) : Fld := ⟨0x801 + 0x100 * n, 4, 1⟩
def AX_FAULT_BITS (n : Nat) : Fld := ⟨0x802 + 0x100 * n, 0, 7⟩
def AX_QDEC_QDEC (n : Nat) : Fld := ⟨0x803 + 0x100 * n, 0, 32⟩
def AX_SLIM_NEG_L_NEG_L (n : Nat) : Fld := ⟨0x804 + 0x100 * n, 0, 32⟩
def AX_SLIM_NEG_H_NEG_H (n : Nat) : Fld := ⟨0x805 + 0x100 * n, 0, 16⟩
def AX_SLIM_POS_L_POS_L (n : Nat) : Fld := ⟨0x806 + 0x100 * n, 0, 32⟩
def AX_SLIM_POS_H_POS_H (n : Nat) : Fld := ⟨0x807 + 0x100 * n, 0, 16⟩
def AX_VEL_VEL (n : Nat) : Fld := ⟨0x808 + 0x100 * n, 0, 32⟩
def AX_ACC_ACC (n : Nat) : Fld := ⟨0x809 + 0x100 * n, 0, 32⟩
def AX_PLN_STAT_SEG (n : Nat) : Fld := ⟨0x80a + 0x100 * n, 0, 3⟩
def AX_PLN_STAT_TYPE (n : Nat) : Fld := ⟨0x80a + 0x100 * n, 3, 2⟩
def AX_PLN_STAT_TORQ_OVER (n : Nat) : Fld := ⟨0x80a + 0x100 * n, 5, 1⟩
def AX_PLN_STAT_DLIM (n : Nat) : Fld := ⟨0x80a + 0x100 * n, 6, 1⟩
def AX_PLN_STAT_PRE (n : Nat) : Fld := ⟨0x80a + 0x100 * n, 7, 1⟩
def AX_PS_VMAX_VMAX (n k : Nat) : Fld := ⟨0x810 + 0x100 * n + 4 * k, 0, 32⟩
def AX_PS_ACC_ACC (n k : Nat) : Fld := ⟨0x811 + 0x100 * n + 4 * k, 0, 32⟩
def AX_PS_DEC_DEC (n k : Nat) : Fld := ⟨0x812 + 0x100 * n + 4 * k, 0, 32⟩
def AX_PS_JERK_JERK (n k : Nat) : Fld := ⟨0x813 + 0x100 * n + 4 * k, 0, 32⟩
def AX_TORQ_CFG_T_LOAD (n : Nat) : Fld := ⟨0x820 + 0x100 * n, 0, 16⟩
def AX_TORQ_CFG_MARGIN (n : Nat) : Fld := ⟨0x820 + 0x100 * n, 16, 8⟩
def AX_TORQ_J_J (n : Nat) : Fld := ⟨0x821 + 0x100 * n, 0, 32⟩
def AX_TORQ_STAT_T_AVAIL (n : Nat) : Fld := ⟨0x822 + 0x100 * n, 0, 16⟩
def AX_TORQ_ALIM_A_ACC (n : Nat) : Fld := ⟨0x823 + 0x100 * n, 0, 32⟩
def AX_FOL_CFG_STEPSCALE (n : Nat) : Fld := ⟨0x824 + 0x100 * n, 0, 13⟩
def AX_FOL_CFG_INTERP (n : Nat) : Fld := ⟨0x824 + 0x100 * n, 13, 1⟩
def AX_FOL_STAT_STEP_DROP (n : Nat) : Fld := ⟨0x825 + 0x100 * n, 0, 16⟩
def AX_FOL_STAT_STEP_IGN (n : Nat) : Fld := ⟨0x825 + 0x100 * n, 16, 16⟩
def AX_HOME_CFG_HSET (n : Nat) : Fld := ⟨0x826 + 0x100 * n, 0, 2⟩
def AX_HOME_CFG_HCUR (n : Nat) : Fld := ⟨0x826 + 0x100 * n, 8, 8⟩
def AX_HOME_CREEP_CREEP (n : Nat) : Fld := ⟨0x827 + 0x100 * n, 0, 32⟩
def AX_HOME_BACK_BACK (n : Nat) : Fld := ⟨0x828 + 0x100 * n, 0, 32⟩
def AX_HOME_MAXD_MAXD (n : Nat) : Fld := ⟨0x829 + 0x100 * n, 0, 32⟩
def AX_HOME_STAT_PHASE (n : Nat) : Fld := ⟨0x82a + 0x100 * n, 0, 3⟩
def AX_HOME_STAT_FAILED (n : Nat) : Fld := ⟨0x82a + 0x100 * n, 3, 1⟩
def AX_HOME_STAT_FAIL_CAUSE (n : Nat) : Fld := ⟨0x82a + 0x100 * n, 4, 3⟩
def AX_CLOS_CFG_LIMIT (n : Nat) : Fld := ⟨0x82b + 0x100 * n, 0, 16⟩
def AX_CLOS_CFG_COUNT (n : Nat) : Fld := ⟨0x82b + 0x100 * n, 16, 8⟩
def AX_CLOS_CFG_VLAG (n : Nat) : Fld := ⟨0x82b + 0x100 * n, 24, 8⟩
def AX_CLOS_WARN_WARN (n : Nat) : Fld := ⟨0x82c + 0x100 * n, 0, 16⟩
def AX_CLOS_ERR_ERR (n : Nat) : Fld := ⟨0x82d + 0x100 * n, 0, 32⟩
def AX_CLOS_MAX_MAX (n : Nat) : Fld := ⟨0x82e + 0x100 * n, 0, 31⟩
def AX_CLOS_MAX_CLR (n : Nat) : Fld := ⟨0x82e + 0x100 * n, 31, 1⟩
def ST_COORD_CFG_SCURVE (st : Nat) : Fld := ⟨0x400 + 0x100 * st, 0, 1⟩
def ST_COORD_STAT_OPEN (st : Nat) : Fld := ⟨0x401 + 0x100 * st, 0, 1⟩
def ST_COORD_STAT_EXEC (st : Nat) : Fld := ⟨0x401 + 0x100 * st, 1, 1⟩
def ST_COORD_STAT_WAIT_PAIR (st : Nat) : Fld := ⟨0x401 + 0x100 * st, 2, 1⟩
def ST_COORD_STAT_LIMITED (st : Nat) : Fld := ⟨0x401 + 0x100 * st, 3, 1⟩
def ST_COORD_STAT_AXES (st : Nat) : Fld := ⟨0x401 + 0x100 * st, 4, 4⟩
def ST_COORD_STAT_PAIR (st : Nat) : Fld := ⟨0x401 + 0x100 * st, 8, 8⟩
def ST_COORD_U_U (st : Nat) : Fld := ⟨0x402 + 0x100 * st, 0, 32⟩
def AX_SEQ_CFG_RANGE (n : Nat) : Fld := ⟨0x840 + 0x100 * n, 0, 2⟩
def AX_SEQ_CFG_EOFS (n : Nat) : Fld := ⟨0x840 + 0x100 * n, 2, 14⟩
def AX_SEQ_CFG_ACR_EN (n : Nat) : Fld := ⟨0x840 + 0x100 * n, 16, 1⟩
def AX_SEQ_CFG_FF_EN (n : Nat) : Fld := ⟨0x840 + 0x100 * n, 17, 1⟩
def AX_SEQ_CUR_RUN (n : Nat) : Fld := ⟨0x841 + 0x100 * n, 0, 12⟩
def AX_SEQ_CUR_HOLD (n : Nat) : Fld := ⟨0x841 + 0x100 * n, 16, 12⟩
def AX_SEQ_HOLD_HOLD_DLY (n : Nat) : Fld := ⟨0x842 + 0x100 * n, 0, 16⟩
def AX_SEQ_HOLD_HOLD_RAMP (n : Nat) : Fld := ⟨0x842 + 0x100 * n, 16, 16⟩
def AX_ACR_CFG_LA_LO (n : Nat) : Fld := ⟨0x843 + 0x100 * n, 0, 8⟩
def AX_ACR_CFG_LA_HI (n : Nat) : Fld := ⟨0x843 + 0x100 * n, 8, 8⟩
def AX_ACR_CFG_MIN (n : Nat) : Fld := ⟨0x843 + 0x100 * n, 16, 8⟩
def AX_ACR_CFG_DN (n : Nat) : Fld := ⟨0x843 + 0x100 * n, 24, 4⟩
def AX_ACR_CFG_UP (n : Nat) : Fld := ⟨0x843 + 0x100 * n, 28, 4⟩
def AX_SEQ_STAT_AMP (n : Nat) : Fld := ⟨0x844 + 0x100 * n, 0, 12⟩
def AX_SEQ_STAT_HOLD_RED (n : Nat) : Fld := ⟨0x844 + 0x100 * n, 12, 1⟩
def AX_SEQ_STAT_CEIL_LIM (n : Nat) : Fld := ⟨0x844 + 0x100 * n, 13, 1⟩
def AX_SEQ_STAT_ACR_RED (n : Nat) : Fld := ⟨0x844 + 0x100 * n, 14, 1⟩
def AX_SEQ_STAT_PEND (n : Nat) : Fld := ⟨0x844 + 0x100 * n, 15, 1⟩
def AX_SEQ_STAT_ANGLE (n : Nat) : Fld := ⟨0x844 + 0x100 * n, 16, 14⟩
def AX_SEQ_STAT_RANGE_ACT (n : Nat) : Fld := ⟨0x844 + 0x100 * n, 30, 2⟩
def AX_SEQ_SP_SP_A (n : Nat) : Fld := ⟨0x845 + 0x100 * n, 0, 16⟩
def AX_SEQ_SP_SP_B (n : Nat) : Fld := ⟨0x845 + 0x100 * n, 16, 16⟩
def AX_ACR_STAT_G (n : Nat) : Fld := ⟨0x846 + 0x100 * n, 0, 9⟩
def AX_IDCHK_CFG_GO (n : Nat) : Fld := ⟨0x847 + 0x100 * n, 0, 1⟩
def AX_IDCHK_CFG_DIR_EN (n : Nat) : Fld := ⟨0x847 + 0x100 * n, 1, 1⟩
def AX_IDCHK_CFG_AUTOFIX (n : Nat) : Fld := ⟨0x847 + 0x100 * n, 2, 1⟩
def AX_IDCHK_CFG_ITEST (n : Nat) : Fld := ⟨0x847 + 0x100 * n, 8, 12⟩
def AX_IDCHK_CFG_TMAX (n : Nat) : Fld := ⟨0x847 + 0x100 * n, 20, 4⟩
def AX_IDCHK_CFG_RTOL (n : Nat) : Fld := ⟨0x847 + 0x100 * n, 24, 8⟩
def AX_IDCHK_STAT_BUSY (n : Nat) : Fld := ⟨0x848 + 0x100 * n, 0, 1⟩
def AX_IDCHK_STAT_PHASE (n : Nat) : Fld := ⟨0x848 + 0x100 * n, 1, 3⟩
def AX_IDCHK_STAT_RESULT (n : Nat) : Fld := ⟨0x848 + 0x100 * n, 4, 4⟩
def AX_IDCHK_STAT_DIR (n : Nat) : Fld := ⟨0x848 + 0x100 * n, 8, 2⟩
def AX_IDCHK_STAT_FIXED (n : Nat) : Fld := ⟨0x848 + 0x100 * n, 10, 1⟩
def AX_IDCHK_STAT_REFUSED (n : Nat) : Fld := ⟨0x848 + 0x100 * n, 11, 1⟩
def AX_IDCHK_STAT_PAIRS (n : Nat) : Fld := ⟨0x848 + 0x100 * n, 12, 6⟩
def AX_IDCHK_RA_R_MOHM (n : Nat) : Fld := ⟨0x849 + 0x100 * n, 0, 16⟩
def AX_IDCHK_RA_L_UH (n : Nat) : Fld := ⟨0x849 + 0x100 * n, 16, 16⟩
def AX_IDCHK_RB_R_MOHM (n : Nat) : Fld := ⟨0x84a + 0x100 * n, 0, 16⟩
def AX_IDCHK_RB_L_UH (n : Nat) : Fld := ⟨0x84a + 0x100 * n, 16, 16⟩
def CO_REG_CFG_MODE (c : Nat) : Fld := ⟨0x850 + 0x100 * (c / 2) + 0x10 * (c % 2), 0, 2⟩
def CO_REG_CFG_DECAY (c : Nat) : Fld := ⟨0x850 + 0x100 * (c / 2) + 0x10 * (c % 2), 2, 2⟩
def CO_REG_CFG_FASTPCT (c : Nat) : Fld := ⟨0x850 + 0x100 * (c / 2) + 0x10 * (c % 2), 4, 8⟩
def CO_REG_CFG_TBLANK (c : Nat) : Fld := ⟨0x850 + 0x100 * (c / 2) + 0x10 * (c % 2), 12, 7⟩
def CO_REG_GAIN_KP (c : Nat) : Fld := ⟨0x851 + 0x100 * (c / 2) + 0x10 * (c % 2), 0, 16⟩
def CO_REG_GAIN_KI (c : Nat) : Fld := ⟨0x851 + 0x100 * (c / 2) + 0x10 * (c % 2), 16, 16⟩
def CO_REG_TIME_TOFF (c : Nat) : Fld := ⟨0x852 + 0x100 * (c / 2) + 0x10 * (c % 2), 0, 14⟩
def CO_REG_TIME_TON (c : Nat) : Fld := ⟨0x852 + 0x100 * (c / 2) + 0x10 * (c % 2), 16, 14⟩
def CO_REG_SLOT01_SP0 (c : Nat) : Fld := ⟨0x853 + 0x100 * (c / 2) + 0x10 * (c % 2), 0, 16⟩
def CO_REG_SLOT01_SP1 (c : Nat) : Fld := ⟨0x853 + 0x100 * (c / 2) + 0x10 * (c % 2), 16, 16⟩
def CO_REG_SLOT2_SP2 (c : Nat) : Fld := ⟨0x854 + 0x100 * (c / 2) + 0x10 * (c % 2), 0, 16⟩
def CO_REG_STAT_IMEAS (c : Nat) : Fld := ⟨0x855 + 0x100 * (c / 2) + 0x10 * (c % 2), 0, 16⟩
def CO_REG_STAT_SAT (c : Nat) : Fld := ⟨0x855 + 0x100 * (c / 2) + 0x10 * (c % 2), 16, 1⟩
def CO_REG_STAT_SLOT_ERR (c : Nat) : Fld := ⟨0x855 + 0x100 * (c / 2) + 0x10 * (c % 2), 17, 1⟩
def CO_REG_STAT_MAXON (c : Nat) : Fld := ⟨0x855 + 0x100 * (c / 2) + 0x10 * (c % 2), 18, 1⟩
def CO_REG_STAT_NEG (c : Nat) : Fld := ⟨0x855 + 0x100 * (c / 2) + 0x10 * (c % 2), 19, 1⟩
def CO_REG_CNT_S0_SKIP (c : Nat) : Fld := ⟨0x856 + 0x100 * (c / 2) + 0x10 * (c % 2), 0, 8⟩
def CO_REG_CNT_OBS_SKIP (c : Nat) : Fld := ⟨0x856 + 0x100 * (c / 2) + 0x10 * (c % 2), 8, 8⟩
def CO_REG_CNT_FORCED (c : Nat) : Fld := ⟨0x856 + 0x100 * (c / 2) + 0x10 * (c % 2), 16, 8⟩
def CO_REG_CNT_CLR (c : Nat) : Fld := ⟨0x856 + 0x100 * (c / 2) + 0x10 * (c % 2), 31, 1⟩
def CO_PWM_PER_PERIOD (c : Nat) : Fld := ⟨0x857 + 0x100 * (c / 2) + 0x10 * (c % 2), 0, 20⟩
def CO_PWM_CMP_CMP (c : Nat) : Fld := ⟨0x858 + 0x100 * (c / 2) + 0x10 * (c % 2), 0, 20⟩
def CO_PWM_CMP_DIR (c : Nat) : Fld := ⟨0x858 + 0x100 * (c / 2) + 0x10 * (c % 2), 20, 1⟩
def CO_PWM_CFG_DT (c : Nat) : Fld := ⟨0x859 + 0x100 * (c / 2) + 0x10 * (c % 2), 0, 9⟩
def CO_PWM_CFG_SWAP (c : Nat) : Fld := ⟨0x859 + 0x100 * (c / 2) + 0x10 * (c % 2), 9, 1⟩
def CO_PWM_CFG_INV (c : Nat) : Fld := ⟨0x859 + 0x100 * (c / 2) + 0x10 * (c % 2), 10, 1⟩
def CO_PWM_CFG_SYNC_EN (c : Nat) : Fld := ⟨0x859 + 0x100 * (c / 2) + 0x10 * (c % 2), 11, 1⟩
def CO_PWM_CFG_SLEW (c : Nat) : Fld := ⟨0x859 + 0x100 * (c / 2) + 0x10 * (c % 2), 12, 2⟩
def CO_PWM_CFG_PHASE (c : Nat) : Fld := ⟨0x859 + 0x100 * (c / 2) + 0x10 * (c % 2), 16, 16⟩
def CO_PWM_STAT_SPLIT_COMMIT (c : Nat) : Fld := ⟨0x85a + 0x100 * (c / 2) + 0x10 * (c % 2), 0, 1⟩
def CO_PWM_STAT_ALWAYS_ON (c : Nat) : Fld := ⟨0x85a + 0x100 * (c / 2) + 0x10 * (c % 2), 1, 1⟩
def CO_PWM_STAT_SYNCED (c : Nat) : Fld := ⟨0x85a + 0x100 * (c / 2) + 0x10 * (c % 2), 2, 1⟩
def CO_PWM_STAT_SYNC_LOST (c : Nat) : Fld := ⟨0x85a + 0x100 * (c / 2) + 0x10 * (c % 2), 3, 1⟩
def CO_PWM_STAT_GATES_OFF (c : Nat) : Fld := ⟨0x85a + 0x100 * (c / 2) + 0x10 * (c % 2), 4, 1⟩
def CO_PWM_STAT_TRIPPED (c : Nat) : Fld := ⟨0x85a + 0x100 * (c / 2) + 0x10 * (c % 2), 5, 1⟩
def CO_PWM_STAT_DIDX (c : Nat) : Fld := ⟨0x85a + 0x100 * (c / 2) + 0x10 * (c % 2), 8, 4⟩
def CO_PWM_STAT_PER_ACT (c : Nat) : Fld := ⟨0x85a + 0x100 * (c / 2) + 0x10 * (c % 2), 12, 20⟩
def CO_PWM_CNT_NARROW (c : Nat) : Fld := ⟨0x85b + 0x100 * (c / 2) + 0x10 * (c % 2), 0, 8⟩
def CO_PWM_CNT_SLIP (c : Nat) : Fld := ⟨0x85b + 0x100 * (c / 2) + 0x10 * (c % 2), 8, 8⟩
def CO_PWM_CNT_TRIP_CANCEL (c : Nat) : Fld := ⟨0x85b + 0x100 * (c / 2) + 0x10 * (c % 2), 16, 8⟩
def CO_PWM_CNT_CLR (c : Nat) : Fld := ⟨0x85b + 0x100 * (c / 2) + 0x10 * (c % 2), 31, 1⟩
def PWR_TRIP_CFG_AXMASK (t : Nat) : Fld := ⟨0x180 + t, 0, 8⟩
def PWR_TRIP_CFG_FILT (t : Nat) : Fld := ⟨0x180 + t, 16, 9⟩
def PWR_TRIP_STAT_LVL : Fld := ⟨0x184, 0, 4⟩
def PWR_TRIP_STAT_LATCH : Fld := ⟨0x184, 8, 4⟩
def PWR_TRIP_CLR_CLR : Fld := ⟨0x185, 0, 4⟩
def PWR_TRIP_CLR_CLR_CNT : Fld := ⟨0x185, 8, 1⟩
def PWR_TRIP_CNT_REFUSED (i : Nat) : Fld := ⟨0x186, 8 * i, 8⟩
def PWR_TRIP_CAP_PEND (t : Nat) : Fld := ⟨0x188 + t, 0, 16⟩
def PWR_TRIP_CAP_FETS (t : Nat) : Fld := ⟨0x188 + t, 16, 4⟩
def PWR_TRIP_CAP_COIL (t : Nat) : Fld := ⟨0x188 + t, 20, 4⟩
def PWR_TRIP_CAP_VALID (t : Nat) : Fld := ⟨0x188 + t, 24, 1⟩
def PWR_TRIP_TS_TS (t : Nat) : Fld := ⟨0x18c + t, 0, 32⟩
def AX_OBS_CFG_CAR_EN (n : Nat) : Fld := ⟨0x870 + 0x100 * n, 0, 1⟩
def AX_OBS_CFG_HF_EN (n : Nat) : Fld := ⟨0x870 + 0x100 * n, 1, 1⟩
def AX_OBS_CFG_EMF_EN (n : Nat) : Fld := ⟨0x870 + 0x100 * n, 2, 1⟩
def AX_OBS_CFG_BD_EN (n : Nat) : Fld := ⟨0x870 + 0x100 * n, 3, 1⟩
def AX_OBS_CFG_HOLD_DET (n : Nat) : Fld := ⟨0x870 + 0x100 * n, 4, 1⟩
def AX_OBS_CFG_DET_JAM (n : Nat) : Fld := ⟨0x870 + 0x100 * n, 5, 1⟩
def AX_OBS_CFG_DET_SLIP (n : Nat) : Fld := ⟨0x870 + 0x100 * n, 6, 1⟩
def AX_OBS_CFG_DET_COLL (n : Nat) : Fld := ⟨0x870 + 0x100 * n, 7, 1⟩
def AX_OBS_CFG_CAR_DIV (n : Nat) : Fld := ⟨0x870 + 0x100 * n, 8, 6⟩
def AX_OBS_CFG_CAR_AMP (n : Nat) : Fld := ⟨0x870 + 0x100 * n, 16, 6⟩
def AX_OBS_CFG_AMP_MIN (n : Nat) : Fld := ⟨0x870 + 0x100 * n, 24, 8⟩
def AX_OBS_BLEND_BL_LO (n : Nat) : Fld := ⟨0x871 + 0x100 * n, 0, 16⟩
def AX_OBS_BLEND_BL_HI (n : Nat) : Fld := ⟨0x871 + 0x100 * n, 16, 16⟩
def AX_OBS_HF_HF_GAIN (n : Nat) : Fld := ⟨0x872 + 0x100 * n, 0, 16⟩
def AX_OBS_HF_HF_OFS (n : Nat) : Fld := ⟨0x872 + 0x100 * n, 16, 16⟩
def AX_OBS_HFREF_PHASE (n : Nat) : Fld := ⟨0x873 + 0x100 * n, 0, 8⟩
def AX_OBS_HFREF_D0 (n : Nat) : Fld := ⟨0x873 + 0x100 * n, 16, 16⟩
def AX_OBS_EMF_KE (n : Nat) : Fld := ⟨0x874 + 0x100 * n, 0, 16⟩
def AX_OBS_EMF_EMF_TAU (n : Nat) : Fld := ⟨0x874 + 0x100 * n, 16, 4⟩
def AX_OBS_EMF_VDT (n : Nat) : Fld := ⟨0x874 + 0x100 * n, 24, 8⟩
def AX_STALL_CFG_LVL (n : Nat) : Fld := ⟨0x875 + 0x100 * n, 0, 8⟩
def AX_STALL_CFG_LVL_TICKS (n : Nat) : Fld := ⟨0x875 + 0x100 * n, 8, 8⟩
def AX_STALL_CFG_JUMP (n : Nat) : Fld := ⟨0x875 + 0x100 * n, 16, 8⟩
def AX_STALL_CFG_COLL (n : Nat) : Fld := ⟨0x875 + 0x100 * n, 24, 8⟩
def AX_STALL_TIME_COLL_TICKS (n : Nat) : Fld := ⟨0x876 + 0x100 * n, 0, 8⟩
def AX_STALL_TIME_GRACE (n : Nat) : Fld := ⟨0x876 + 0x100 * n, 16, 16⟩
def AX_BD_CFG_BD_LVL (n : Nat) : Fld := ⟨0x877 + 0x100 * n, 0, 16⟩
def AX_BD_CFG_BD_TIME (n : Nat) : Fld := ⟨0x877 + 0x100 * n, 16, 8⟩
def AX_BD_CFG_BD_QUIET (n : Nat) : Fld := ⟨0x877 + 0x100 * n, 24, 8⟩
def AX_OBS_CAL_GO (n : Nat) : Fld := ⟨0x87f + 0x100 * n, 0, 1⟩
def AX_OBS_CAL_ABORT (n : Nat) : Fld := ⟨0x87f + 0x100 * n, 1, 1⟩
def AX_OBS_CAL_MODE (n : Nat) : Fld := ⟨0x87f + 0x100 * n, 2, 1⟩
def AX_OBS_CAL_TO (n : Nat) : Fld := ⟨0x87f + 0x100 * n, 8, 8⟩
def AX_OBS_CNT_GAP (n : Nat) : Fld := ⟨0x881 + 0x100 * n, 0, 8⟩
def AX_OBS_CNT_HF_LOST (n : Nat) : Fld := ⟨0x881 + 0x100 * n, 8, 8⟩
def AX_OBS_CNT_CLR (n : Nat) : Fld := ⟨0x881 + 0x100 * n, 31, 1⟩
def AX_OBS_LA_LA (n : Nat) : Fld := ⟨0x878 + 0x100 * n, 0, 16⟩
def AX_OBS_LA_VALID (n : Nat) : Fld := ⟨0x878 + 0x100 * n, 16, 1⟩
def AX_OBS_LA_SAT (n : Nat) : Fld := ⟨0x878 + 0x100 * n, 17, 1⟩
def AX_OBS_LA_SRC (n : Nat) : Fld := ⟨0x878 + 0x100 * n, 18, 2⟩
def AX_OBS_LA_W (n : Nat) : Fld := ⟨0x878 + 0x100 * n, 20, 8⟩
def AX_OBS_LA_NOSLOT (n : Nat) : Fld := ⟨0x878 + 0x100 * n, 28, 1⟩
def AX_OBS_HFDQ_D (n : Nat) : Fld := ⟨0x879 + 0x100 * n, 0, 16⟩
def AX_OBS_HFDQ_Q (n : Nat) : Fld := ⟨0x879 + 0x100 * n, 16, 16⟩
def AX_OBS_HFRAT_RATIO (n : Nat) : Fld := ⟨0x87a + 0x100 * n, 0, 16⟩
def AX_OBS_HFRAT_LA_HF (n : Nat) : Fld := ⟨0x87a + 0x100 * n, 16, 16⟩
def AX_OBS_EMFSTAT_EMAG (n : Nat) : Fld := ⟨0x87b + 0x100 * n, 0, 16⟩
def AX_OBS_EMFSTAT_LA_EMF (n : Nat) : Fld := ⟨0x87b + 0x100 * n, 16, 16⟩
def AX_STALL_STAT_CRIT (n : Nat) : Fld := ⟨0x87c + 0x100 * n, 0, 1⟩
def AX_STALL_STAT_ARMED (n : Nat) : Fld := ⟨0x87c + 0x100 * n, 1, 1⟩
def AX_STALL_STAT_CAUSE (n : Nat) : Fld := ⟨0x87c + 0x100 * n, 2, 2⟩
def AX_STALL_STAT_REPORTS (n : Nat) : Fld := ⟨0x87c + 0x100 * n, 16, 16⟩
def AX_BD_STAT_ACTIVE (n : Nat) : Fld := ⟨0x87d + 0x100 * n, 0, 1⟩
def AX_BD_STAT_DIR (n : Nat) : Fld := ⟨0x87d + 0x100 * n, 1, 1⟩
def AX_BD_STAT_NOSRC (n : Nat) : Fld := ⟨0x87d + 0x100 * n, 2, 1⟩
def AX_BD_STAT_ALIAS (n : Nat) : Fld := ⟨0x87d + 0x100 * n, 3, 1⟩
def AX_BD_STAT_EPISODES (n : Nat) : Fld := ⟨0x87d + 0x100 * n, 8, 8⟩
def AX_BD_STAT_PEAK (n : Nat) : Fld := ⟨0x87d + 0x100 * n, 16, 16⟩
def AX_BD_TRAVEL_TRAVEL (n : Nat) : Fld := ⟨0x87e + 0x100 * n, 0, 32⟩
def AX_OBS_CALSTAT_BUSY (n : Nat) : Fld := ⟨0x880 + 0x100 * n, 0, 1⟩
def AX_OBS_CALSTAT_PHASE (n : Nat) : Fld := ⟨0x880 + 0x100 * n, 1, 2⟩
def AX_OBS_CALSTAT_REFUSED (n : Nat) : Fld := ⟨0x880 + 0x100 * n, 3, 1⟩
def AX_OBS_CALSTAT_RESULT (n : Nat) : Fld := ⟨0x880 + 0x100 * n, 4, 4⟩
def AX_OBS_CALSTAT_KE_PCT (n : Nat) : Fld := ⟨0x880 + 0x100 * n, 8, 8⟩
def AX_OBS_CALSTAT_HF_PCT (n : Nat) : Fld := ⟨0x880 + 0x100 * n, 16, 8⟩
def AX_DP_CFG_CNT_INV (n : Nat) : Fld := ⟨0x888 + 0x100 * n, 0, 1⟩
def AX_DP_CFG_SPAN (n : Nat) : Fld := ⟨0x888 + 0x100 * n, 1, 3⟩
def AX_DP_CFG_DFILT (n : Nat) : Fld := ⟨0x888 + 0x100 * n, 4, 4⟩
def AX_DP_CFG_STILL_TO (n : Nat) : Fld := ⟨0x888 + 0x100 * n, 8, 8⟩
def AX_DP_CFG_IDX_EN (n : Nat) : Fld := ⟨0x888 + 0x100 * n, 16, 1⟩
def AX_DP_CFG_REDATUM (n : Nat) : Fld := ⟨0x888 + 0x100 * n, 17, 1⟩
def AX_DP_CFG_ENC_ACT (n : Nat) : Fld := ⟨0x888 + 0x100 * n, 18, 1⟩
def AX_DP_CFG_QERR_ACT (n : Nat) : Fld := ⟨0x888 + 0x100 * n, 19, 1⟩
def AX_DP_CFG_ABS (n : Nat) : Fld := ⟨0x888 + 0x100 * n, 20, 1⟩
def AX_DP_CFG_DIRCHK_EN (n : Nat) : Fld := ⟨0x888 + 0x100 * n, 21, 1⟩
def AX_DP_CFG_TOL (n : Nat) : Fld := ⟨0x888 + 0x100 * n, 24, 8⟩
def AX_DP_SCALE_CPR (n : Nat) : Fld := ⟨0x889 + 0x100 * n, 0, 24⟩
def AX_DP_SSI_CFG_LEN (n : Nat) : Fld := ⟨0x88a + 0x100 * n, 0, 5⟩
def AX_DP_SSI_CFG_GRAY (n : Nat) : Fld := ⟨0x88a + 0x100 * n, 5, 1⟩
def AX_DP_SSI_CFG_AUTO (n : Nat) : Fld := ⟨0x88a + 0x100 * n, 6, 1⟩
def AX_DP_SSI_CFG_DIV (n : Nat) : Fld := ⟨0x88a + 0x100 * n, 8, 4⟩
def AX_DP_SSI_CFG_CDIV (n : Nat) : Fld := ⟨0x88a + 0x100 * n, 12, 9⟩
def AX_DP_SSI_TIME_SDLY (n : Nat) : Fld := ⟨0x88b + 0x100 * n, 0, 10⟩
def AX_DP_SSI_TIME_TREC (n : Nat) : Fld := ⟨0x88b + 0x100 * n, 16, 8⟩
def AX_DP_SSI_JMAX_JMAX (n : Nat) : Fld := ⟨0x88c + 0x100 * n, 0, 24⟩
def AX_DP_CTL_CLR_FLT (n : Nat) : Fld := ⟨0x88d + 0x100 * n, 0, 1⟩
def AX_DP_CTL_SSI_REQ (n : Nat) : Fld := ⟨0x88d + 0x100 * n, 1, 1⟩
def AX_DP_CTL_CLR_CNT (n : Nat) : Fld := ⟨0x88d + 0x100 * n, 2, 1⟩
def AX_DP_CTL_CLR_DIR (n : Nat) : Fld := ⟨0x88d + 0x100 * n, 3, 1⟩
def AX_DP_STAT_PEND (n : Nat) : Fld := ⟨0x88e + 0x100 * n, 0, 1⟩
def AX_DP_STAT_STILL (n : Nat) : Fld := ⟨0x88e + 0x100 * n, 1, 1⟩
def AX_DP_STAT_SPEED_VALID (n : Nat) : Fld := ⟨0x88e + 0x100 * n, 2, 1⟩
def AX_DP_STAT_DIR (n : Nat) : Fld := ⟨0x88e + 0x100 * n, 3, 1⟩
def AX_DP_STAT_IDX_MISMATCH (n : Nat) : Fld := ⟨0x88e + 0x100 * n, 4, 1⟩
def AX_DP_STAT_IDX_MISSING (n : Nat) : Fld := ⟨0x88e + 0x100 * n, 5, 1⟩
def AX_DP_STAT_ENC_FLT (n : Nat) : Fld := ⟨0x88e + 0x100 * n, 6, 1⟩
def AX_DP_STAT_FLT_CAUSE (n : Nat) : Fld := ⟨0x88e + 0x100 * n, 7, 3⟩
def AX_DP_STAT_DIRCHK (n : Nat) : Fld := ⟨0x88e + 0x100 * n, 10, 2⟩
def AX_DP_STAT_NOSCALE (n : Nat) : Fld := ⟨0x88e + 0x100 * n, 12, 1⟩
def AX_DP_STAT_SSI_BUSY (n : Nat) : Fld := ⟨0x88e + 0x100 * n, 13, 1⟩
def AX_DP_STAT_MW_HOLD (n : Nat) : Fld := ⟨0x88e + 0x100 * n, 14, 1⟩
def AX_DP_STAT_WORD_OK (n : Nat) : Fld := ⟨0x88e + 0x100 * n, 15, 1⟩
def AX_DP_STAT_MIS_CONSEC (n : Nat) : Fld := ⟨0x88e + 0x100 * n, 16, 2⟩
def AX_DP_COUNT_COUNT (n : Nat) : Fld := ⟨0x88f + 0x100 * n, 0, 32⟩
def AX_DP_SPEED_SPEED (n : Nat) : Fld := ⟨0x890 + 0x100 * n, 0, 32⟩
def AX_DP_IDX_IDXCNT (n : Nat) : Fld := ⟨0x891 + 0x100 * n, 0, 32⟩
def AX_DP_IDXERR_DELTA (n : Nat) : Fld := ⟨0x892 + 0x100 * n, 0, 16⟩
def AX_DP_SSI_WORD_WORD (n : Nat) : Fld := ⟨0x893 + 0x100 * n, 0, 32⟩
def AX_DP_SSI_TS_TS (n : Nat) : Fld := ⟨0x894 + 0x100 * n, 0, 32⟩
def AX_DP_CNT_QERR (n : Nat) : Fld := ⟨0x895 + 0x100 * n, 0, 8⟩
def AX_DP_CNT_SSI_DROP (n : Nat) : Fld := ⟨0x895 + 0x100 * n, 8, 8⟩
def AX_DP_CNT_SSI_FERR (n : Nat) : Fld := ⟨0x895 + 0x100 * n, 16, 8⟩
def AX_DP_CNT_IDX_MIS (n : Nat) : Fld := ⟨0x895 + 0x100 * n, 24, 8⟩
def ST_SV_CFG_ORG (st : Nat) : Fld := ⟨0x440 + 0x100 * st, 0, 1⟩
def ST_SV_CFG_RMODE (st : Nat) : Fld := ⟨0x440 + 0x100 * st, 1, 2⟩
def ST_SV_CFG_REG_LEN (st : Nat) : Fld := ⟨0x440 + 0x100 * st, 3, 5⟩
def ST_SV_CFG_INJ_LEN (st : Nat) : Fld := ⟨0x440 + 0x100 * st, 8, 3⟩
def ST_SV_CFG_INJ_SRC (st : Nat) : Fld := ⟨0x440 + 0x100 * st, 11, 4⟩
def ST_SV_CFG_OVWR (st : Nat) : Fld := ⟨0x440 + 0x100 * st, 15, 1⟩
def ST_SV_CFG_TRIPMASK (st : Nat) : Fld := ⟨0x440 + 0x100 * st, 16, 4⟩
def ST_SV_CFG_HK_DMA (st : Nat) : Fld := ⟨0x440 + 0x100 * st, 20, 1⟩
def ST_SV_TIME_GAP (st : Nat) : Fld := ⟨0x441 + 0x100 * st, 0, 16⟩
def ST_SV_TIME_PD_THR (st : Nat) : Fld := ⟨0x441 + 0x100 * st, 16, 16⟩
def ST_SV_TPH_RTPH (st : Nat) : Fld := ⟨0x442 + 0x100 * st, 0, 16⟩
def ST_SV_TPH_ITPH (st : Nat) : Fld := ⟨0x442 + 0x100 * st, 16, 16⟩
def ST_SV_CTL_TRG (st : Nat) : Fld := ⟨0x443 + 0x100 * st, 0, 1⟩
def ST_SV_CTL_ITRG (st : Nat) : Fld := ⟨0x443 + 0x100 * st, 1, 1⟩
def ST_SV_CTL_CLR_CNT (st : Nat) : Fld := ⟨0x443 + 0x100 * st, 2, 1⟩
def ST_SV_STAT_BUSY (st : Nat) : Fld := ⟨0x444 + 0x100 * st, 0, 1⟩
def ST_SV_STAT_INJ_BUSY (st : Nat) : Fld := ⟨0x444 + 0x100 * st, 1, 1⟩
def ST_SV_STAT_PWRDN (st : Nat) : Fld := ⟨0x444 + 0x100 * st, 2, 1⟩
def ST_SV_STAT_TRG_PEND (st : Nat) : Fld := ⟨0x444 + 0x100 * st, 3, 1⟩
def ST_SV_STAT_ITRG_PEND (st : Nat) : Fld := ⟨0x444 + 0x100 * st, 4, 1⟩
def ST_SV_STAT_CFG_ERR (st : Nat) : Fld := ⟨0x444 + 0x100 * st, 5, 1⟩
def ST_SV_STAT_ROUND (st : Nat) : Fld := ⟨0x444 + 0x100 * st, 16, 16⟩
def ST_SV_CNT_TRG_OVR (st : Nat) : Fld := ⟨0x445 + 0x100 * st, 0, 8⟩
def ST_SV_CNT_INJ_OVR (st : Nat) : Fld := ⟨0x445 + 0x100 * st, 8, 8⟩
def ST_SV_CNT_ABORTS (st : Nat) : Fld := ⟨0x445 + 0x100 * st, 16, 8⟩
def ST_SV_CNT_KEEP (st : Nat) : Fld := ⟨0x445 + 0x100 * st, 24, 8⟩
def ST_HK_VM_VMB (st : Nat) : Fld := ⟨0x446 + 0x100 * st, 0, 16⟩
def ST_HK_VM_VMX (st : Nat) : Fld := ⟨0x446 + 0x100 * st, 16, 16⟩
def ST_HK_REF_REF (st : Nat) : Fld := ⟨0x447 + 0x100 * st, 0, 14⟩
def ST_HK_T01_T0 (st : Nat) : Fld := ⟨0x448 + 0x100 * st, 0, 16⟩
def ST_HK_T01_T1 (st : Nat) : Fld := ⟨0x448 + 0x100 * st, 16, 16⟩
def ST_HK_T2_T2 (st : Nat) : Fld := ⟨0x449 + 0x100 * st, 0, 16⟩
def XCHK_CFG_VM_TOL : Fld := ⟨0x44a, 0, 16⟩
def XCHK_CFG_REF_TOL : Fld := ⟨0x44a, 16, 8⟩
def XCHK_CFG_COUNT : Fld := ⟨0x44a, 24, 3⟩
def XCHK_CFG_XCHK_SAFE : Fld := ⟨0x44a, 27, 1⟩
def XCHK_STAT_FAIL : Fld := ⟨0x44b, 0, 1⟩
def XCHK_STAT_BAD0 : Fld := ⟨0x44b, 1, 1⟩
def XCHK_STAT_BAD1 : Fld := ⟨0x44b, 2, 1⟩
def XCHK_STAT_LAST_OK : Fld := ⟨0x44b, 3, 1⟩
def XCHK_STAT_CONSEC : Fld := ⟨0x44b, 4, 4⟩
def XCHK_STAT_FAILS : Fld := ⟨0x44b, 8, 8⟩
def XCHK_STAT_VMDIFF : Fld := ⟨0x44b, 16, 16⟩
def ST_CAL_CTL_CH (st : Nat) : Fld := ⟨0x44c + 0x100 * st, 0, 5⟩
def ST_CAL_CTL_SUB (st : Nat) : Fld := ⟨0x44c + 0x100 * st, 5, 4⟩
def ST_CAL_CTL_GAIN (st : Nat) : Fld := ⟨0x44c + 0x100 * st, 9, 2⟩
def ST_CAL_CTL_ZERO (st : Nat) : Fld := ⟨0x44c + 0x100 * st, 16, 1⟩
def ST_CAL_CTL_FULL (st : Nat) : Fld := ⟨0x44c + 0x100 * st, 17, 1⟩
def ST_CAL_CTL_STORE (st : Nat) : Fld := ⟨0x44c + 0x100 * st, 18, 1⟩
def ST_CAL_VFS_VFS (st : Nat) : Fld := ⟨0x44d + 0x100 * st, 0, 23⟩
def ST_CAL_STAT_BUSY (st : Nat) : Fld := ⟨0x44e + 0x100 * st, 0, 1⟩
def ST_CAL_STAT_STATE (st : Nat) : Fld := ⟨0x44e + 0x100 * st, 1, 2⟩
def ST_CAL_STAT_RESULT (st : Nat) : Fld := ⟨0x44e + 0x100 * st, 3, 3⟩
def ST_CAL_RES_OFS (st : Nat) : Fld := ⟨0x44f + 0x100 * st, 0, 16⟩
def ST_CAL_RES_GC (st : Nat) : Fld := ⟨0x44f + 0x100 * st, 16, 16⟩
def ST_SEQ_CH (st e : Nat) : Fld := ⟨0x450 + 0x100 * st + e, 0, 5⟩
def ST_SEQ_SUB (st e : Nat) : Fld := ⟨0x450 + 0x100 * st + e, 5, 4⟩
def ST_SEQ_GAIN (st e : Nat) : Fld := ⟨0x450 + 0x100 * st + e, 9, 2⟩
def ST_SEQ_SMP (st e : Nat) : Fld := ⟨0x450 + 0x100 * st + e, 11, 3⟩
def ST_SEQ_AVG (st e : Nat) : Fld := ⟨0x450 + 0x100 * st + e, 14, 4⟩
def ST_SEQ_SHIFT (st e : Nat) : Fld := ⟨0x450 + 0x100 * st + e, 18, 4⟩
def ST_SEQ_DMA (st e : Nat) : Fld := ⟨0x450 + 0x100 * st + e, 22, 1⟩
def ST_RES_VALUE (st e : Nat) : Fld := ⟨0x464 + 0x100 * st + e, 0, 16⟩
def ST_RES_SAT (st e : Nat) : Fld := ⟨0x464 + 0x100 * st + e, 16, 1⟩
def ST_RES_ROUND (st e : Nat) : Fld := ⟨0x464 + 0x100 * st + e, 17, 15⟩
def CO_ADC_S01_S0 (c : Nat) : Fld := ⟨0x85c + 0x100 * (c / 2) + 0x10 * (c % 2), 0, 16⟩
def CO_ADC_S01_S1 (c : Nat) : Fld := ⟨0x85c + 0x100 * (c / 2) + 0x10 * (c % 2), 16, 16⟩
def CO_ADC_S2_S2 (c : Nat) : Fld := ⟨0x85d + 0x100 * (c / 2) + 0x10 * (c % 2), 0, 16⟩
def CO_ADC_CNT_S0_LATE (c : Nat) : Fld := ⟨0x85e + 0x100 * (c / 2) + 0x10 * (c % 2), 0, 8⟩
def CO_ADC_CNT_URG_DROP (c : Nat) : Fld := ⟨0x85e + 0x100 * (c / 2) + 0x10 * (c % 2), 8, 8⟩
def CO_ADC_CNT_CLIP (c : Nat) : Fld := ⟨0x85e + 0x100 * (c / 2) + 0x10 * (c % 2), 16, 8⟩
def CO_ADC_CNT_CLR (c : Nat) : Fld := ⟨0x85e + 0x100 * (c / 2) + 0x10 * (c % 2), 31, 1⟩
def MG_ID_CFG_SPEED : Fld := ⟨0x1000400, 0, 1⟩
def MG_ID_CFG_ABSENT_KEEP : Fld := ⟨0x1000400, 1, 1⟩
def MG_ID_CFG_POLL : Fld := ⟨0x1000400, 16, 16⟩
def MG_ID_CTL_RESCAN : Fld := ⟨0x1000401, 0, 8⟩
def MG_ID_CTL_CLR_CNT : Fld := ⟨0x1000401, 8, 1⟩
def MG_ID_PRES_PRESENT : Fld := ⟨0x1000402, 0, 8⟩
def MG_ID_PRES_INFORCE : Fld := ⟨0x1000402, 8, 8⟩
def MG_ID_PRES_PEND : Fld := ⟨0x1000402, 16, 8⟩
def MG_ID_AX_RESULT (n : Nat) : Fld := ⟨0x1000408 + n, 0, 3⟩
def MG_ID_AX_SRC (n : Nat) : Fld := ⟨0x1000408 + n, 4, 2⟩
def MG_ID_AX_ENC_MISMATCH (n : Nat) : Fld := ⟨0x1000408 + n, 6, 1⟩
def MG_ID_AX_OVR (n : Nat) : Fld := ⟨0x1000408 + n, 8, 7⟩
def MG_ID_AX_READS (n : Nat) : Fld := ⟨0x1000408 + n, 16, 8⟩
def MG_ID_AX_ERRS (n : Nat) : Fld := ⟨0x1000408 + n, 24, 8⟩
def MG_ID_SER_SERIAL (n : Nat) : Fld := ⟨0x1000410 + n, 0, 32⟩
def MG_TEMP_T_EVEN (k : Nat) : Fld := ⟨0x1000000 + k, 0, 16⟩
def MG_TEMP_T_ODD (k : Nat) : Fld := ⟨0x1000000 + k, 16, 16⟩
def MG_VSUP_VLINK : Fld := ⟨0x1000004, 0, 16⟩
def MG_VSUP_VBAK : Fld := ⟨0x1000004, 16, 16⟩
def MG_SV_STAT_FW : Fld := ⟨0x1000005, 0, 1⟩
def MG_SV_STAT_HALTED : Fld := ⟨0x1000005, 1, 1⟩
def MG_SV_STAT_MW_RUN : Fld := ⟨0x1000005, 2, 1⟩
def MG_SV_STAT_QFILL : Fld := ⟨0x1000005, 8, 8⟩
def MG_FCLK_SECONDS : Fld := ⟨0x1000008, 0, 32⟩
def MG_FCLK_STAT_MS : Fld := ⟨0x1000009, 0, 10⟩
def MG_FCLK_STAT_SYNC : Fld := ⟨0x1000009, 10, 1⟩
def MG_FB_HEAD_HEAD : Fld := ⟨0x1000010, 0, 32⟩
def MG_FB_OLD_OLD : Fld := ⟨0x1000011, 0, 32⟩
def MG_FB_STAT_LOST : Fld := ⟨0x1000012, 0, 8⟩
def MG_FB_STAT_TORN : Fld := ⟨0x1000012, 8, 8⟩
def MG_FB_STAT_WEAR : Fld := ⟨0x1000012, 16, 1⟩
def MG_FB_STAT_CLR : Fld := ⟨0x1000012, 31, 1⟩
def MG_MW_CFG_FB_EN : Fld := ⟨0x1000020, 0, 1⟩
def MG_MW_CFG_IDD_EN : Fld := ⟨0x1000020, 1, 1⟩
def MG_MW_CFG_PERIOD : Fld := ⟨0x1000020, 8, 8⟩
def MG_MW_STAT_ROUNDS : Fld := ⟨0x1000021, 0, 8⟩
def MG_MW_STAT_SKIP : Fld := ⟨0x1000021, 8, 8⟩
def MG_MW_STAT_ABANDON : Fld := ⟨0x1000021, 16, 8⟩
def MG_MW_STAT_CLR : Fld := ⟨0x1000021, 31, 1⟩
def MG_MW_RES_R_2j (j : Nat) : Fld := ⟨0x1000028 + j, 0, 16⟩
def MG_MW_RES_R_2j1 (j : Nat) : Fld := ⟨0x1000028 + j, 16, 16⟩
def MG_SEAL_CTL_ID : Fld := ⟨0x1000100, 0, 3⟩
def MG_SEAL_CTL_EXPECT : Fld := ⟨0x1000100, 8, 5⟩
def MG_SEAL_CTL_GO : Fld := ⟨0x1000100, 16, 1⟩
def MG_SEAL_STAT_BUSY : Fld := ⟨0x1000101, 0, 1⟩
def MG_SEAL_STAT_RESULT : Fld := ⟨0x1000101, 1, 4⟩
def MG_SEAL_STAT_ID_LAST : Fld := ⟨0x1000101, 5, 3⟩
def MG_SEAL_VAL_VAL (w : Nat) : Fld := ⟨0x1000108 + w, 0, 32⟩
def MG_SEAL_SLOT_REMAIN (k : Nat) : Fld := ⟨0x1000110 + k, 0, 5⟩
def MG_SEAL_SLOT_INFORCE (k : Nat) : Fld := ⟨0x1000110 + k, 8, 4⟩
def MG_SEAL_SLOT_NONE (k : Nat) : Fld := ⟨0x1000110 + k, 12, 1⟩
def MG_SEAL_SLOT_RESET_DUE (k : Nat) : Fld := ⟨0x1000110 + k, 13, 1⟩
def MG_SEAL_CUR_CUR (k w : Nat) : Fld := ⟨0x1000140 + 8 * k + w, 0, 32⟩
def MG_UPD_CTL_OP : Fld := ⟨0x1000200, 0, 3⟩
def MG_UPD_CTL_TARGET : Fld := ⟨0x1000200, 4, 1⟩
def MG_UPD_CTL_SLOT : Fld := ⟨0x1000200, 5, 1⟩
def MG_UPD_CTL_GO : Fld := ⟨0x1000200, 16, 1⟩
def MG_UPD_OFS_OFS : Fld := ⟨0x1000201, 0, 21⟩
def MG_UPD_LEN_LEN : Fld := ⟨0x1000202, 0, 13⟩
def MG_UPD_CRC_CRC : Fld := ⟨0x1000203, 0, 32⟩
def MG_UPD_STAT_BUSY : Fld := ⟨0x1000204, 0, 1⟩
def MG_UPD_STAT_STATE : Fld := ⟨0x1000204, 1, 2⟩
def MG_UPD_STAT_TGT_ACT : Fld := ⟨0x1000204, 3, 1⟩
def MG_UPD_STAT_RESULT : Fld := ⟨0x1000204, 4, 4⟩
def MG_UPD_STAT_STAGED : Fld := ⟨0x1000204, 8, 1⟩
def MG_UPD_STAT_DEST : Fld := ⟨0x1000204, 9, 1⟩
def MG_UPD_NEXT_NEXT : Fld := ⟨0x1000205, 0, 22⟩
def MG_UPD_FW_VERSION (x : Nat) : Fld := ⟨0x1000210 + x, 0, 24⟩
def MG_UPD_FW_STATE (x : Nat) : Fld := ⟨0x1000210 + x, 24, 2⟩
def MG_UPD_FW_LAST (x : Nat) : Fld := ⟨0x1000210 + x, 26, 1⟩
def MG_UPD_FWSEQ_SEQ (x : Nat) : Fld := ⟨0x1000212 + x, 0, 32⟩
def MG_UPD_IMG_SEQ (x : Nat) : Fld := ⟨0x1000218 + x, 0, 32⟩
def MG_UPD_IMGST_PRESENT : Fld := ⟨0x100021a, 0, 2⟩
def MG_UPD_IMGST_REVOKED : Fld := ⟨0x100021a, 2, 2⟩
def MG_UPD_IMGST_TRIAL : Fld := ⟨0x100021a, 4, 1⟩
def MG_UPD_IMGST_TRIAL_SLOT : Fld := ⟨0x100021a, 5, 1⟩
def MG_NVM_CNT_CORR : Fld := ⟨0x1000300, 0, 16⟩
def MG_NVM_CNT_PFAIL : Fld := ⟨0x1000300, 16, 8⟩
def MG_NVM_CNT_EFAIL : Fld := ⟨0x1000300, 24, 8⟩
def MG_FB_WEAR_ERASES (k : Nat) : Fld := ⟨0x1000340 + k, 0, 17⟩
def DEV_EVRT_REC (m : Nat) : Fld := ⟨0x20c + 0x10 * m, 0, 8⟩
def DEV_EVRT_IRQ0 (m : Nat) : Fld := ⟨0x20c + 0x10 * m, 8, 8⟩
def DEV_EVRT_IRQ1 (m : Nat) : Fld := ⟨0x20c + 0x10 * m, 16, 8⟩
def DEV_EVCAP_CAP (m i : Nat) : Fld := ⟨0x20d + 0x10 * m, 2 * i, 2⟩
def DEV_EVST_PEND (m : Nat) : Fld := ⟨0x20e + 0x10 * m, 0, 8⟩
def DEV_EVST_ACTIVE (m : Nat) : Fld := ⟨0x20e + 0x10 * m, 8, 8⟩
def DEV_EVST_ACK (m : Nat) : Fld := ⟨0x20e + 0x10 * m, 16, 8⟩
def DEV_EVST_SIM (m : Nat) : Fld := ⟨0x20e + 0x10 * m, 24, 8⟩
def DEV_EVCNT_CNT (m i : Nat) : Fld := ⟨0x20f + 0x10 * m, 4 * i, 4⟩
def DEV_RW_LNK_SEQ_ACC_HSEQ : Fld := ⟨0x34, 0, 16⟩
def DEV_RW_LNK_SEQ_PERF_HSEQ : Fld := ⟨0x34, 16, 16⟩
def DEV_RW_LNK_WR_WR_HSEQ : Fld := ⟨0x35, 0, 16⟩
def DEV_RW_LNK_WR_WR_ADDR : Fld := ⟨0x35, 16, 16⟩
def DEV_RW_LNK_RPL_DSEQ : Fld := ⟨0x36, 0, 16⟩
def DEV_RW_LNK_RPL_EXP_ALIVE : Fld := ⟨0x36, 16, 4⟩
def DEV_RW_LNK_RPL_ACC_ANY : Fld := ⟨0x36, 20, 1⟩

end Sys2Proof.Machine
end

