-- ==== Sys2Proof/Machine/State.lean ====
section
/-!
DEFINITION. The state of the block as plain data. Every software-visible register field lives in `State.regs` (one sparse
map of words, named field by field in RegMap.lean), in the per-link and per-context copies of the registers that exist once
per link or context, or, where a field only mirrors working state, in that working state (Ops.lean computes its word at the
read). Everything the spec gives the machine beside registers is a field of one of the structures below.
-/

namespace Sys2Proof.Machine

/-- Sparse register words in canonical form (keys rising, no entry at its default). -/
abbrev RegFile := List (Nat × Word)

/-- Why the machine would stop. No rule of the spec stops the block, so no meaning raises one. -/
inductive Fault where
  /-- Raised by nothing: the spec gives every command an effect in every state (R121). Safe: it never occurs. -/
  | none
  deriving DecidableEq, Repr

/-- Why a command would have no meaning. -/
inductive Refusal where
  /-- Raised by an arm of `exec` whose command has no meaning in the model yet; the argument is its mnemonic. Safe. -/
  | notModelled (mnemonic : String)
  deriving DecidableEq, Repr

/-- The device states of Table 4-4, in the order of `DEV_STATE.STATE` (R121, Table 4-6). -/
inductive DevState where
  | reset | optionLoad | boot | configLoad | ready | run | safe | recovery
  deriving DecidableEq, Repr

/-- The axis states of Table 9-1 (R252). -/
inductive AxState where
  | off | idle | hold | moving | follow | homing | quiescing | fault
  deriving DecidableEq, Repr

/-- Who issued a command (R243; R200 for chain mode). -/
inductive Src where
  | spi | gr
  | prog (x : Fin 4)
  | chain (v : Fin 8)
  deriving DecidableEq, Repr

/-- Where a command in flight stands (R227, R236, R238, R245). -/
inductive Phase where
  | accepted
  | applied
  | waitPair
  | exec
  | ending (st : Nat)
  | ended (st : Nat)
  deriving DecidableEq, Repr

/-- One command in flight: descriptor words, issuer, progress (R227, R234). -/
structure Cmd where
  id : Nat               -- acceptance number: commit order across all rings (R227)
  ring : Nat
  src : Src
  d0 : Word
  d1 : Word
  d2 : Word
  d3 : Word
  ph : Phase
  wait : List Nat        -- commands whose records come first (R244, R249, R250)
  causes : List Nat      -- remembered quiescing causes, as status codes (R506)
  at_ : Nat              -- tick number at which it started
  ran : Bool             -- it had begun to execute, or had been applied, when its ending fell due
  deriving DecidableEq, Repr

/-- A record that waits for space in ring 11: an ended command or a rejection (R232, R245). -/
structure BackItem where
  cmd : Option Nat
  tag : Nat
  ring : Nat
  src : Nat
  status : Nat
  deriving DecidableEq, Repr

/-- A record ring: oldest held sequence number and the held records (R243, R247). -/
structure RecRing where
  old : Nat
  recs : List (BitVec 64)
  lost : List Nat                   -- sequence numbers of held records that were discarded (Table 1-10)
  deriving DecidableEq, Repr

/-- One reply frame (Table 6-3), its CRC left to `Crypto`. -/
structure Reply where
  status : Nat
  dseq : Nat
  echo : Nat
  data : Nat
  evsum : Nat
  deriving DecidableEq, Repr

/-- An accepted frame not yet performed (R183, R185). -/
structure HeldFrame where
  op : Nat
  hseq : Nat
  addr : Nat
  data : Nat
  flags : Nat
  deriving DecidableEq, Repr

/-- What a falling edge of HCS_N has changed, kept until an HSCK edge or the end of the interval tells whether it opened a frame
(R175, R185). -/
structure EdgeSt where
  rstDue : Bool
  dseq : Nat
  last : Reply
  out : Option Reply
  held : Option HeldFrame
  under : Nat                       -- LNK_SPI_CNT.UNDERRUN
  deriving DecidableEq, Repr

/-- What one link keeps for itself: unlock, indirect pointer, staging, query, sequence state and replies
(R149, R160, R182, R188, R189, R229, R235, R246). -/
structure LinkSt where
  armed : Bool                      -- unlock armed (R149)
  ptr : Nat                         -- indirect pointer (R160)
  inc : Bool                        -- DEV_IND_ADDR.INC
  pastEnd : Bool                    -- DEV_IND_ADDR.PAST_END
  err : Bool                        -- DEV_IND_STAT.ERR
  bad : Bool                        -- the pointer was set outside every block (R160)
  rbusy : Bool                      -- prefetch in progress (R162)
  pfAt : Nat                        -- time at which the prefetch began
  line : Option Nat                 -- NVM line held by the prefetch (R162)
  stg : RegFile                     -- staging words, key 4*ring + k (R229)
  commit : RegFile                  -- RNGr_COMMIT, key ring
  peek : RegFile                    -- RNGr_PEEK SEQ and AUTO, key ring
  tagq : Nat                        -- RNG10_TAGQ.TAG
  expAlive : Option Nat             -- ALIVE expected next; none: the next frame is in step whatever it holds (R182)
  accAny : Bool
  accHseq : Nat
  perfHseq : Nat
  wrHseq : Nat
  wrAddr : Nat
  dseq : Nat                        -- DSEQ of the last reply composed (R188)
  last : Reply                      -- last reply composed
  out : Option Reply                -- reply sent during the present or last frame (R184)
  rstDue : Bool                     -- the next reply is the first after a reset (R187)
  held : Option HeldFrame           -- accepted frame not yet performed (R185)
  edge : Option EdgeSt              -- before the falling edge that opened the present interval (R175)
  chain : Bool                      -- the present interval began in chain mode (R195, R201)
  deriving DecidableEq, Repr

/-- The Grelas link's own state (R211 to R223). -/
structure GrelasSt where
  hx : Nat                          -- HX of the last tagged frame (R223)
  todo : List (List Nat)            -- frames of the poll not yet taken, 12 bytes each
  slots : List Reply                -- replies so far, in poll order
  pollAt : Option Nat               -- end of the poll being answered
  tagged : Bool                     -- the response carries a tag
  x : Nat                           -- X of the poll (R222)
  inv : Bool                        -- polarity of the poll (R208)
  composed : Option Nat             -- time of composition (R214)
  sent : List Bool                  -- half-bits of the last response sent (R206, R207)
  mark : Option Nat                 -- time at which the next mark falls due (R218)
  marksLeft : Nat                   -- further marks before the next packet
  tickNum : Option Nat              -- TICKNUM of the packet whose mark is due
  lastTick : Option Nat             -- last TICKNUM accepted since the last reset (R221)
  lastPkt : Option Nat              -- time of the last packet that issued a mark (R218)
  deriving DecidableEq, Repr

/-- An event record that waits for the end of its cycle: event, KIND, INFO and time (R480). -/
structure EvRec where
  e : Nat
  kind : Nat
  info : Nat
  time : Nat
  deriving DecidableEq, Repr

/-- One mailbox's hidden part: a request not yet delivered and a pending delivery (R167, R169, R170). -/
structure MboxSt where
  req : Option Nat                  -- time of a request that waits for a commit point
  pend : Option (List Nat)          -- delivery that waits behind a Full value
  deriving DecidableEq, Repr

/-- One strobe group: the pending tick-class set and its strobe instant (R154 to R157). -/
structure GroupSt where
  pend : Option RegFile
  at_ : Nat
  deriving DecidableEq, Repr

/-- The control tick (R21, R29, R44). -/
structure TickSt where
  on : Bool                         -- ticks run (from entry to READY)
  mark : Nat                        -- time of the last tick mark
  no : Nat                          -- number of the present tick
  commitDue : Bool                  -- the commit point of this tick is still to come
  lost : Bool                       -- last mark was the module's own, made for want of an external one
  held : Option (Nat × Nat)         -- waiting PERIOD and SRC (R28)
  sync : Option Nat                 -- tick mark at which SYNC_OUT last rose (R30)
  gov : List Word                   -- PWR_GOV_CFG, PWR_GOV_TEMP, PWR_AXCFGn and the stale stations as sampled at the mark (R20)
  trip : Nat                        -- trip levels as sampled at the mark (R442)
  rst : Nat                         -- ring resets due at the next tick mark, a bit per ring (R136)
  fins : List Nat                   -- recorded finish times of the last commit point (R32)
  deriving DecidableEq, Repr

/-- The arbiter stack of the motion memory (R41 to R44). Requesters of the device arbiter are numbered 0 station 0, 1 station 1,
2 surveyor port; engines 0 to 7; port users 0 surveyor, 1 ring engine, 2 record DMA. -/
structure ArbSt where
  w : List Nat                      -- weights of the device arbiter (R43)
  credits : List Nat                -- its credits (R43, R44)
  last : Nat                        -- its last granted requester
  lastLink : Link                   -- link whose frame was performed last (R45)
  rr : List Nat                     -- last granted engine of each station, and last granted user of the port (R41)
  grants : List Nat                 -- grants of the last window: engines 0 to 7, then port users 0 to 2
  deriving DecidableEq, Repr

/-- Error marks of one protected memory: the inverted symbols of each word, and the scrubber (R33 to R38). -/
structure EccSt where
  bad : List (Nat × BitVec 20)      -- words with inverted symbols
  scrub : Nat                       -- next word of the scrubber
  passCorr : Nat                    -- corrections counted in this pass (R38)
  writeBack : List Nat              -- words whose corrected values wait to be written, oldest first (R35)
  slotAt : Nat                      -- start of the scrubber's present read slot (R37)
  deriving DecidableEq, Repr

/-- One segment of a profile: start time and state, constant jerk (R258 to R261). Times are in 1/256 cycle from the
profile's start; positions, velocities, accelerations and jerks carry 16 fractional bits (R256). -/
structure Seg where
  t0 : Nat
  dur : Nat
  p : Int
  v : Int
  a : Int
  j : Int
  code : Nat
  deriving DecidableEq, Repr

/-- What the profile in force does when its last segment ends. -/
inductive EndKind where
  | target          -- a position stake reaches its target (R258)
  | velocity        -- a velocity stake reaches its velocity (R263)
  | limitCont       -- an overshoot rests at a soft limit and continues to its target (R269)
  | limitEnd        -- a soft limit ends the motion with CANCELLED_STATE (R269)
  | stop            -- QUIESCING reaches standstill (R253)
  | home            -- a homing phase's profile ends (R285)
  deriving DecidableEq, Repr

/-- The profile an axis or a path follows: its segments, captured values and how it ends (R257, R258). Rates are in
microsteps/s and so on, or, for a path, in 2^-46 of the path. -/
structure Prof where
  segs : List Seg
  start : Nat                       -- tick number k_s of its time zero
  endP : Int                        -- position at its end, 16 fractional bits
  endV : Int                        -- velocity at its end, kept beyond it
  kind : EndKind
  typ : Nat                         -- AXn_PLN_STAT.TYPE
  pre : Nat                         -- segments that are an initial ramp (R259, R260, R262)
  target : Option Int               -- target of a position stake, microsteps; of a velocity stake, microsteps/s
  vlim : Nat                        -- velocity limit, V_CAP included
  acc : Nat
  dec : Nat
  jerk : Nat                        -- 0 for a profile without jerk
  tq : Option (Nat × Nat × Nat)     -- T_LOAD, MARGIN and J captured with TORQ_EN (R257)
  limited : Bool                    -- will end DONE_LIMITED (R272)
  torqOver : Bool                   -- R273 applied
  step : Bool                       -- re-solved tick by tick (R272)
  brake : Bool                      -- its final deceleration under R272 has been planned
  lim : Option Int                  -- soft limit it brakes to, microsteps (R269)
  past : Bool                       -- that braking exceeds QDEC
  cmdV : Nat                        -- velocity commanded before any limit (R256)
  deriving DecidableEq, Repr

/-- A homing sequence in progress (R285 to R287). -/
structure HomeSt where
  cmd : Nat
  method : Nat
  neg : Bool
  speed : Nat                       -- search speed commanded
  creep : Nat                       -- creep speed, back-off distance and the values of set HSET, captured at its start
  back : Nat
  vmax : Nat
  acc : Nat
  dec : Nat
  ofs : Int
  timeout : Nat                     -- in 10 ms units; 0 none
  t0 : Nat                          -- time of its start
  phase : Nat                       -- Table 9-3; 0 once it has failed
  from_ : Int                       -- planned position at the start of the phase, 16 fractional bits
  stopping : Bool                   -- feature seen, stopping at DEC
  oppPrev : Bool                    -- level of the opposite limit at the last tick mark (R287)
  stall : Option Int                -- rotor estimate of a stall in the search of method 0 (R286)
  idxFrom : Nat                     -- index marks and missing indexes seen when the INDEX phase began
  missFrom : Nat
  deriving DecidableEq, Repr

/-- Step-follow (R281 to R284). -/
structure FollowSt where
  origin : Int                      -- follow origin, 16 fractional bits
  steps : List (Nat × Bool)         -- timestamp and direction of recent steps, oldest first
  base : Int                        -- net count before the oldest of `steps`
  lastT : Option (Nat × Bool)       -- last step before `steps`
  lastStep : Nat                    -- time of the last step
  brake : Option (Nat × Nat × Bool) -- braking to a soft limit: speed (16 fractional bits), deceleration, beyond QDEC (R269)
  deriving DecidableEq, Repr

/-- The datum port of one axis (R367 to R392). -/
structure DatumSt where
  c : Int                           -- count C, signed 48-bit
  coff : Int
  moff : Int
  m : Int                           -- measured position at the last tick mark (R374)
  mOld : Int                        -- the one before, which a late axis keeps (R26)
  cTick : Int                       -- C at the last tick mark
  a : Bool                          -- filtered levels of A and B
  b : Bool
  runTs : List Nat                  -- timestamps of the run, newest first (R380)
  runN : Nat                        -- transitions of the run, saturated
  dirNeg : Bool                     -- direction of the run or of the last one
  x : Int                           -- extreme count X of the run, or the count at the standstill (R383)
  lastT : Nat                       -- last transition that counts for the standstill timer
  inRun : Bool
  everValid : Bool
  spdNum : Int                      -- run speed, counts …
  spdDen : Nat                      -- … per this many cycles
  ci : Option Int                   -- index reference C_I (R386)
  cm : Int                          -- C_m (R387)
  idxCap : Option Int               -- C captured at the last index mark (R385)
  idxTs : Nat                       -- and its timestamp
  idxN : Nat                        -- index marks since the restart
  ssiT0 : Nat                       -- t0 of the transfer in progress
  ssiHost : Bool                    -- that the host requested
  ssiEnd : Option Nat               -- time of step 5 of the transfer in progress (Table 13-1)
  ssiRec : Option Nat               -- time at which TREC ends
  wPrev : Option Nat                -- last good word
  t0Prev : Option Nat
  cPrev : Int
  fConsec : Nat                     -- consecutive transfers with a frame error
  fBad : Bool                       -- the present transfer already has one
  divCnt : Nat                      -- tick marks since the restart (R377)
  autoDue : Bool                    -- this tick mark requests a word
  missN : Nat                       -- missing indexes since the restart
  idxT : Nat                        -- both counts as sampled at the last tick mark (R20)
  missT : Nat
  dirMot : Bool                     -- the axis was in motion at the last tick mark (R389)
  encDue : Bool                     -- FAULT with cause ENC at the next tick mark (R391)
  dirP : Option (Int × Int)         -- planned and measured position where the direction check began (R389)
  held : Option (Nat × Nat)         -- waiting CNT_INV and CPR (R372)
  deriving DecidableEq, Repr

/-- One tick of the demodulation window (R347, R348). -/
structure WinTick where
  d : Int
  q : Int
  mc : Nat
  gap : Bool
  amp : Nat
  deriving DecidableEq, Repr

/-- A calibration in progress (R360 to R363). -/
structure CalSt where
  phase : Nat
  t0 : Nat
  all : Nat                         -- ticks of the still phase
  ticks : Nat                       -- those in the demodulation span
  gaps : Nat
  sumI : Int                        -- sums of the demodulated Id, Cd, Iq, Cq
  sumC : Int
  sumIq : Int
  sumCq : Int
  keN : Nat
  keSum : Nat
  fitN : Nat
  fitX : Int                        -- sums of RATIO, λ_ref, products
  fitY : Int
  fitXX : Int
  fitXY : Int
  fitYY : Int
  fitMin : Int
  fitMax : Int
  keDone : Bool
  hfDone : Bool
  deriving DecidableEq, Repr

/-- What the regulators of an axis follow: angle, carrier index, suspension of the carrier, Amp (R347, R348). -/
structure ObsReg where
  th : Nat
  m : Nat
  susp : Bool
  amp : Nat
  deriving DecidableEq, Repr

/-- The bearing observer of one axis (R342 to R363). The words `la` to `crit` are what the next commit point publishes. -/
structure ObsSt where
  la : Int                          -- λ
  valid : Bool
  src : Nat
  w : Nat
  d : Int                           -- D and Q, 1/16 code
  q : Int
  ratio : Int
  laHf : Int
  satHf : Bool
  emag : Nat
  laEmf : Int
  crit : Nat                        -- criteria met in this tick
  armed : Bool
  gaps : Nat                        -- gap ticks found in this tick
  lost : Bool                       -- λ_HF has become invalid in this tick
  r0 : ObsReg                       -- last passed to the regulators
  r1 : ObsReg                       -- in force at this tick mark
  r2 : ObsReg                       -- in force at the tick mark before: that of this tick's samples
  m : Nat                           -- carrier index (R344)
  susp : Bool                       -- carrier suspended (R345)
  win : List WinTick                -- demodulation window, newest first
  yA : Int
  yB : Int
  edf : Int                         -- filtered back-EMF, mV with 8 fractional bits
  eqf : Int
  iPrevA : Int
  iPrevB : Int
  loTicks : Nat                     -- ticks at or above BL_LO without a break (R350)
  emfTicks : Nat                    -- ticks with λ_EMF valid (R355)
  hist : List (Int × Int)           -- valid λ and P of the last N + 1 ticks, newest first (R354)
  hfValid : Bool
  jam : Nat                         -- consecutive ticks with the jam criterion met
  coll : Nat
  rearm : Option Nat                -- ticks until ARMED sets again (R357)
  due : Option (Nat × Int × Int)    -- a report due in this tick: cause, λ, P (R356)
  cal : Option CalSt
  deriving DecidableEq, Repr

/-- The back-drive watch of one axis (R358, R359). -/
structure BackdriveSt where
  v : List Nat                      -- last terminal voltages, mV, channels k = 0 … 3
  got : Nat                         -- channels sampled since the last complete set
  at_ : List Nat                    -- time of each channel's last sample
  late : Bool                       -- a channel went longer than 1 ms without one since the last complete set
  above : Option Nat                -- magnitude at or above BD_LVL since
  below : Option Nat                -- magnitude below BD_LVL/2 since
  psi : Option Int                  -- angle of the last sample above BD_LVL/2, 1/16,384 of a turn
  travel : Int
  peak : Nat
  alias_ : Bool
  start : Nat
  deriving DecidableEq, Repr

/-- A coil identity check in progress (R311 to R316). -/
structure IdchkSt where
  pair : Nat                        -- pair under test, 1 … 6; 7 in phase 2, 8 in phase 3, 9 after its last phase
  t0 : Nat                          -- start of the pulse or phase
  testI : Nat                       -- I_T
  had : Nat                         -- causes of AXn_FAULT that stood at its start and still stand (R316)
  decay : Bool                      -- phase 1: the pulse has ended, the current is driven back to zero from `t0` on
  na : Nat                          -- phase 2: duties of coil A and coil B in their last 5 ms, count and sum
  sa : Int
  nb : Nat
  sb : Int
  m0 : Int                          -- measured position at the start of the sweep
  theta : Nat                       -- angle from which the sweep starts
  dm : Option Int                   -- ΔM of the sweep
  deriving DecidableEq, Repr

/-- The monument record of one axis and its identity line (R420 to R429). -/
structure MonSt where
  image : List Byte                 -- accepted record in force, 256 bytes, or empty
  ovrMask : Nat                     -- override mask of the image (R438)
  ovr : List Byte                   -- override record
  pend : Option (List Byte)         -- record (or its withdrawal, empty) that waits for OFF or IDLE (R427)
  misses : Nat                      -- consecutive polls without an acknowledge (R422)
  since : Option Nat                -- time at which the line became present, until its read (R423)
  reading : Bool
  tries : Nat                       -- attempts of the read in progress
  retryAt : Option Nat
  deriving DecidableEq, Repr

/-- An axis block reset in progress (R134): waiting for its tick mark, or for standstill since a time, or complete at the
next tick mark. -/
inductive RstPhase where
  | none
  | due
  | wait (since : Nat)
  | finish
  deriving DecidableEq, Repr

/-- Everything an axis holds beside its registers. -/
structure Axis where
  st : AxState
  pos : Int                         -- planned position, 16 fractional bits (R256)
  at_ : Nat                         -- number of the tick mark that position, velocity and acceleration belong to (R26)
  vel : Int                         -- planned velocity, 16 fractional bits
  acc : Int                         -- planned acceleration, 16 fractional bits
  prof : Option Prof                -- profile in force
  lastTgt : Option Int              -- target of the stake that ended last, for REL (R265)
  tqPub : Option (Nat × Nat × Nat)  -- a_acc, a_dec and their zero speed as published for the station engine (R271)
  qdec : Nat                        -- deceleration in force while QUIESCING (R264)
  ownD : Nat                        -- DEC and JERK of the profile set in force when it began to quiesce (R264)
  ownJ : Nat
  hwdog : Bool                      -- faults at standstill for the host watchdog (R131)
  home : Option HomeSt
  fol : FollowSt
  coord : Option (Int × Int)        -- start and displacement in the coordinated move that engages it (R277)
  zeroAt : Option Nat               -- time since which the planned velocity has been zero (R295)
  rampAt : Option Nat               -- tick number at which the fall to HOLD began (R295)
  holdStart : Bool                  -- energised at HOLD by ENABLE (R295)
  pinF : Nat                        -- filtered, inverted levels: bit 0 FBn_2, 1 STEPn, 2 DIRn (R58)
  closN : Nat                       -- consecutive ticks beyond the closure allowance (R275)
  closDue : Bool                    -- a closure error falls due in this tick
  closRep : Bool                    -- it has been reported ahead of the commit point
  rep : Option Int                  -- rotor estimate of a stall reported in this tick, for the planner (R356)
  keep : Option (ObsSt × Nat)       -- committed observer and closure count, while a report has run ahead of the commit point (R26)
  obsRan : Bool                     -- the observer has run in this tick (R22)
  stallT : Bool                     -- a stall has been reported in this tick (R296)
  closRan : Bool                    -- the closure monitor has run in this tick
  moistDue : Bool                   -- FAULT with cause MOIST at the next tick mark (R95)
  ocDue : Nat                       -- FAULT causes after an overcurrent, due at the next tick mark (Table 3-4)
  tempCtrl : Bool                   -- its TEMP cause came from the controller die (R96)
  heldPin : Option Nat              -- waiting pin selection (R55)
  heldSeq : Option (Nat × Nat)      -- waiting RANGE and EOFS (R294)
  rst : RstPhase
  trips : Nat                       -- trip inputs assigned at the last tick mark (R338)
  dp : DatumSt
  obs : ObsSt
  bd : BackdriveSt
  idgo : Bool                       -- an identity check is requested (R311)
  idc : Option IdchkSt
  calgo : Bool                      -- a calibration is requested (R360)
  mon : MonSt
  boostA : Nat                      -- time above 4,200 mA of coils A and B, in quarter cycles (R98)
  boostB : Nat
  boostAt : Nat
  deriving DecidableEq, Repr

/-- The commanded side of a half-bridge (R323). -/
inductive Side where
  | off | low | high
  deriving DecidableEq, Repr

/-- A scheduled change of a commanded side: instant, terminal, turn-off of the old FET or turn-on of the new one. -/
structure Edge where
  t : Nat
  term2 : Bool
  on : Bool
  side : Side
  ph : Option Nat                   -- chopping phase that begins with it
  deriving DecidableEq, Repr

/-- The pending PWM-class set of a coil (R155, R326, R327). -/
structure PwmPend where
  per : Word
  cmp : Word
  cfg : Word
  at_ : Nat
  perW : Bool
  cmpW : Bool
  deriving DecidableEq, Repr

/-- One conversion of a coil converter (R395). -/
structure Conv where
  slot : Nat
  t : Nat
  tick : Nat                        -- tick in which the period of the sample began
  deriving DecidableEq, Repr

/-- Everything a coil holds beside its registers. -/
structure Coil where
  on : Bool                         -- the generator counts (R319)
  t0 : Nat                          -- time of the last PWM boundary
  pj : Nat                          -- length of the period, counts
  cj : Nat                          -- compare of the period, counts
  tick : Nat                        -- tick in which the period began
  mode : Nat                        -- regulator mode taken at the last boundary (R300)
  neg : Bool                        -- direction of the drive
  side1 : Side                      -- commanded sides now in effect
  side2 : Side
  dead1 : Option Side               -- turn-on whose dead time has started
  dead2 : Option Side
  edges : List Edge                 -- scheduled changes, in time order
  phase : Nat                       -- chopping: 0 on-time, 1 fast decay, 2 slow decay, 3 none, 4 valley found, 5 setpoint 0
  phT : Nat                         -- start of the chopping phase
  edgeOn : Nat                      -- last turn-on edge (R302)
  refT : Nat                        -- reference phase of the sample slots: start and length (R308)
  refL : Nat
  car : Int                         -- carrier added to the setpoint of this tick (R344)
  gates : Bool                      -- the coil takes its gates from the generator (R333)
  sp : Int                          -- setpoint passed at the last commit point (R293)
  spIn : Int                        -- setpoint with carrier taken at the last boundary (R344)
  spNew : Bool                      -- a setpoint passed since the axis was energised waits for its boundary
  xi : Int                          -- integrator, mV (R301)
  duty : Int                        -- signed duty of the period, 1/65,536
  conv : Option Conv                -- conversion running
  s0Wait : Bool                     -- S0 waits for a running conversion (R396)
  slots : List (Nat × Nat)          -- settled slots of the period: slot, instant (R309)
  plan : List (Nat × Nat)           -- slots that the reference phase of this period takes: slot, position (R310)
  lastS0 : Int
  markS0 : Int                      -- last S0 sample delivered before the last tick mark (R483)
  pkS0 : Nat                        -- largest magnitude of a sample in this tick, setpoint codes (R90)
  n12 : Nat                         -- S1 and S2 samples of periods begun in this tick: count, sum
  sum12 : Int
  n0 : Nat                          -- S0 samples of this tick: count, sum, sum of squares, sum of magnitudes
  sum0 : Int
  sq0 : Nat
  ab0 : Nat
  tpos : Nat                        -- drive time of this tick in each direction (R349)
  tneg : Nat
  drvAt : Option Nat                -- start of the drive interval in progress
  p12 : Nat                         -- the same of the previous tick
  ps12 : Int
  p0 : Nat
  ps0 : Int
  psq0 : Nat
  pab0 : Nat
  ptpos : Nat
  ptneg : Nat
  maxAll : Bool                     -- every period of the tick so far was at maximum duty or on-time (R90)
  maxCur : Bool                     -- the present period is
  maxAny : Bool                     -- a phase was ended at 40 µs in this tick (R305)
  openN : Nat                       -- consecutive ticks that meet R90
  ocFets : Nat                      -- FETs that their comparators hold off until CLR_OC (R88, R89), bits as in PWR_TRIP_CAPt.FETS
  ocMore : Nat                      -- later trips of a latched coil (R88)
  pend : Option PwmPend
  perW : Bool                       -- written flags of R327
  cmpW : Bool
  relay : List (Nat × Nat × Nat)    -- sync pulses on their way to this coil: due time, P_j, j (R330)
  ims : Nat                         -- averaged mean square and mean magnitude of the current (R99), mA² and mA, 32 fractional bits
  iavg : Nat
  nsw : Nat                         -- switching periods begun since the last average
  fsw : Nat                         -- averaged switching frequency, Hz, 32 fractional bits
  deriving DecidableEq, Repr

/-- A coordinated move that executes or waits for its partner (R237, R277 to R280). -/
structure MoveSt where
  ids : List Nat                    -- its parts, in commit order
  axes : List (Fin 8)               -- axes on its line
  out : List (Fin 8)                -- axes it names that a stall or a fault has taken from the line (R278, R280)
  pair : Nat
  waiting : Bool
  set : Nat                         -- profile set and VPCT of its LAST part (R277)
  vpct : Nat
  prof : Option Prof                -- profile of u, 2^62 for u = 1
  at_ : Nat                         -- tick mark that u belongs to
  u : Int                           -- u at the coming tick mark, 2^62 for u = 1
  uVel : Int
  uAcc : Int
  stopping : Bool
  quick : Bool                      -- at the quick rate (R280)
  plain : Bool                      -- a stop at the profile rate has reached it as well (R264)
  own : Nat × Nat                   -- deceleration and jerk of its profile
  built : Option (Bool × Bool)      -- its stop has been laid out for these two
  cap : Bool                        -- a limit holds u below the velocity commanded (R256)
  deriving DecidableEq, Repr

/-- One run of conversions: a regular entry, an injected entry, a housekeeping entry or a calibration. -/
structure ConvRun where
  kind : Nat                        -- 0 regular, 1 injected, 2 housekeeping, 3 calibration
  idx : Nat
  done : Nat                        -- conversions completed
  sum : Nat
  sat : Bool
  t : Nat                           -- start of the conversion in progress
  deriving DecidableEq, Repr

/-- The survey converter of one station (R399 to R417). -/
structure SurveySt where
  on : Bool                         -- started (R417)
  run : Option ConvRun              -- conversions in progress
  saved : Option ConvRun            -- abandoned for an injected sequence (R409)
  interp : Option ConvRun           -- round interrupted by interposed housekeeping (R403)
  inRound : Bool
  endAt : Nat                       -- end of the last round
  idleAt : Nat                      -- idle since
  hkAt : Nat                        -- last housekeeping began
  hkStart : Nat                     -- start of the last complete housekeeping (R412)
  startup : Option Nat              -- power-up began at (R407)
  afterUp : Nat                     -- what runs after start-up: bit 0 round, 1 injected, 2 housekeeping
  began : Bool                      -- a round has started since the last power-on or system reset (R402)
  rtAt : Nat                        -- tick mark (plus 1) whose regular and injected triggers have been given
  itAt : Nat
  hkMo : Bool                       -- the running housekeeping includes entry 6
  hkEnds : Bool                     -- it ends the running round
  hkBegan : Nat                     -- start of the running housekeeping
  corrNext : Option (List (Nat × (Int × Nat))) -- corrections from the next round start on (R414)
  ents : RegFile                    -- entries and settings in force for the running round (R405)
  injEnts : RegFile
  hkDue : Bool                      -- housekeeping waits for the next boundary between conversions (R403)
  vmx : Option Nat                  -- last complete housekeeping's VMX, reference and start
  ref : Nat
  vmb : Nat
  vchk : Option Nat
  temps : List Nat
  moistRes : Option Nat             -- result of HK entry 6 for the line under test, as a code (R404)
  ovf : Bool                        -- the ring has been full since it was last below full (R411)
  first : Bool                      -- the first round since READY has completed
  corr : List (Nat × (Int × Nat))   -- corrections in force: 4*I + g, OFS, GC (R416)
  cal : Nat                         -- calibration conversions still to take; 0 none
  calFull : Bool
  calSum : Nat
  rz : Int
  rf : Int
  calIn : Nat                       -- CH, SUB and GAIN of the zero step
  calOf : Nat                       -- CH, SUB and GAIN of the accepted result
  deriving DecidableEq, Repr

/-- Everything a station holds beside its registers. -/
structure Station where
  open_ : List Nat                  -- parts of an open coordinated move (R237)
  mv : Option MoveSt
  uEnd : Option Nat                 -- STs_COORD_U of a move that has completed, shown from the next tick mark (Table 9-9)
  sv : SurveySt
  deriving DecidableEq, Repr

/-- What a program context waits for (R445). -/
inductive PWait where
  | none
  | tag (t : Nat) (since : Nat)
  | inp (since : Nat)
  | time (untilTick : Nat)
  | homeTag (t : Nat)
  | retry
  deriving DecidableEq, Repr

/-- One traverse program context (R440 to R443). -/
structure Ctx where
  running : Bool
  pc : Nat
  lc : Vector Nat 4
  ev : BitVec 64                    -- event latch
  trk : List (Nat × Nat × Option Nat) -- tag, command and ending status of tracked commands
  wait : PWait
  stg : RegFile                     -- staging words, key 4*ring + k
  auto : Bool
  post : Bool
  entry : Nat
  lastSt : Nat                      -- last ending status read
  n : Nat                           -- instructions executed in this tick
  hold : Bool                       -- waits for the next tick
  deriving DecidableEq, Repr

/-- The option values in force (Table 4-3). -/
structure Opts where
  serial : Nat
  grade : Nat
  rev : Nat
  node : Nat
  chainPerm : Nat
  retryPor : Bool
  ovLim : Nat
  ceil : List Nat
  hashes : List (Option (List Byte))
  authKey : Option (List Byte)
  dflt : Bool
  deriving DecidableEq, Repr

/-- The OTP: identity record and the slots of each sealed setting, used slots in order; a slot without a valid marker is
`none` (R458). -/
structure Otp where
  serial : Nat
  grade : Nat
  rev : Nat
  slots : List (List (Option (List Nat)))
  deriving DecidableEq, Repr

/-- One firmware slot in NVM (R461). -/
structure FwSlot where
  state : Nat                       -- 0 EMPTY, 1 GOOD, 2 TRIAL, 3 FAILED
  seq : Nat
  version : Nat
  bytes : List (Nat × Byte)
  deriving DecidableEq, Repr

/-- The internal NVM (Table 0-2, R126, R223, R416, R452, R461, R463). -/
structure Nvm where
  failcnt : Nat
  epoch : Nat
  fw : Vector FwSlot 2
  lastFw : Nat
  lastTrial : Bool                  -- the previous start used the TRIAL slot
  imgTrial : Option (Nat × Nat)     -- trial image: slot and SEQ
  lastImg : Option Nat              -- image slot of the previous start
  fb : RegFile                      -- field book words, erased words unlisted
  fbNext : Nat                      -- number of the next record
  bench : RegFile                   -- benchmark store words
  wear : RegFile                    -- erases of each field-book sector (R457)
  deriving DecidableEq, Repr

/-- A field-book record before it is numbered (R451). -/
structure FbRec where
  secs : Nat
  ms : Nat
  typ : Nat
  flags : Nat
  src : Nat
  state : Nat
  hseq : Nat
  payload : List Nat
  deriving DecidableEq, Repr

/-- Boot, reset and watchdogs (R107 to R131). -/
structure BootSt where
  opts : Opts
  optDone : Bool                    -- option values committed or defaulted
  optAt : Nat
  stage : Nat                       -- CONFIG_LOAD: 0 entered, 1 image done, 2 monuments done, 3 full logic loaded
  cfgValid : Bool                   -- valid peripheral configuration (R111)
  fromCore : Bool                   -- this start follows a core reset (R117)
  relAt : Nat                       -- release of the last reset
  wdAt : Nat                        -- boot watchdog counts from here
  wdOn : Bool                       -- it runs: from a reset's release to RUN
  coreOn : Bool                     -- core reset asserted
  coreAt : Nat
  pulseEnd : Nat                    -- a program pulse of the firmware's own may last until this time (R114)
  held : Option (Bool × Nat)        -- a reset held for an NVM or OTP pulse: system class, count (R114)
  optBad : Option Nat               -- option record whose failure is still to be recorded (R119)
  fromReady : Bool                  -- SAFE was entered from READY
  hostAt : Nat                      -- last accepted frame (R131)
  imgOk : Bool                      -- a valid image is in use
  imgSlot : Nat
  reload : Bool                     -- reloading after full-logic power returned (R80)
  porCause : Bool                   -- the last reset was a power-on reset
  failRead : Nat                    -- failed-start count as read by the check (R126, R462)
  fwRunning : Bool
  por : Bool                        -- power-on reset asserted
  sys : Bool                        -- system reset asserted
  ceilFrozen : Bool                 -- the governor publishes no ceilings until READY (R116)
  flashId : Nat                     -- identification of the configuration flash as last read (R124)
  deriving DecidableEq, Repr

/-- Power path timers and sensors (R62 to R104). -/
structure PowerSt where
  sw : Vector Bool 2                -- reverse-blocking switches (R65)
  clampAt : Vector Nat 2            -- start of the clamp episode
  clampPeak : Vector Nat 2          -- peak VMB of the episode, mV
  clampOn : Vector Bool 2           -- brake clamps, which act without logic (R62, R74)
  dumpAt : Nat                      -- start of the dump
  dumpEnd : Option Nat              -- a release asked for within the first 20 µs: when it acts (R72)
  hotAt : Nat                       -- start of the hold-off
  grace : Option Nat                -- start of the 200 ms of R79
  flUp : Bool                       -- full-logic domain powered
  v5Off : Option Nat                -- V5OUT switched off for overload at
  v5On : Option Nat                 -- V5OUT switched on for a test at
  vbakSet : Bool                    -- VBAK_OK has been set since power-on
  vbakLow : Bool                    -- VBAK is below 3.0 V
  holdup : Bool                     -- running from VBAK (R85)
  dead : Bool                       -- the hold-up has ended
  temps : Vector Int 8              -- die sensors, 1/16 °C
  tempAt : Vector Nat 2             -- last publication of each station's sensors
  stale : Vector Bool 2             -- treated as at T_GOV (R93)
  tWarn : Nat                       -- warning, trip and backstop per sensor
  tTrip : Nat
  tBack : Nat
  seenRev : Bool                    -- EV_LINK_REV raised since power-on (R204)
  vms : Vector Nat 2                -- last published VMB of each station
  ceilAt : Nat                      -- time of the last publication of the ceilings
  frac : Vector Nat 8               -- ceilings with 16 fractional bits, for the limited rise (R103); 0 before the first
  gov : Nat                         -- kP with 16 fractional bits
  xdue : Bool                       -- the cross-check has reached COUNT; FAIL is still to set (R413)
  xbad : Nat                        -- bit s: station s's reference reading failed at that check
  deriving DecidableEq, Repr

/-- The update path (R464 to R468): the operation being carried out as it was requested. -/
structure UpdSt where
  first : Option Word               -- withheld first word (R466)
  op : Nat
  image : Bool                      -- TARGET and SLOT of the request
  slot : Nat
  ofs : Nat                         -- OFS and bytes of a WRITE
  chunk : List Nat
  src : Nat                         -- SRC and HSEQ of the frame that requested it (Table 16-2)
  hseq : Nat
  res : Nat                         -- result it will end with
  deriving DecidableEq, Repr

/-- A sealed change that is being programmed (R459). -/
structure SealReq where
  id : Nat
  val : List Nat
  src : Nat                         -- SRC and HSEQ of the frame that requested it
  hseq : Nat
  deriving DecidableEq, Repr

/-- An indirect write in the shared queue (R164): the link that carried it, address, word, whether it consumed an unlock, HSEQ
of its frame. -/
structure IndWrite where
  lk : Link
  addr : Nat
  data : Word
  key : Bool
  hseq : Nat
  deriving DecidableEq, Repr

/-- The surveyor (R447 to R471). -/
structure SurvSt where
  fcMs : Nat                        -- field clock in ms at `fcAt`
  fcAt : Nat
  fbQ : List FbRec                  -- field-book queue
  lostSince : Nat                   -- records discarded since the last QUEUE_LOST record
  wearDone : Bool                   -- EV_FIELDBOOK raised for wear
  sealing : Option SealReq          -- sealed change in progress
  ceilDue : Option (List Nat)       -- sealed ceilings that take force at the next tick mark (Table 16-4)
  upd : UpdSt
  mwLines : List Nat                -- lines still to test in the round
  mwCur : Option Nat                -- line under test
  mwAt : Nat
  mwDue : Nat                       -- start of the last round
  mwWarn : Nat                      -- lines at warning and at fault level when last tested, a bit each (R95)
  mwFault : Nat
  idPollAt : Nat                    -- last presence poll, or the entry to READY (R422)
  deriving DecidableEq, Repr

/-- The capture trace (R483 to R486). -/
structure CapSt where
  frozen : Bool
  trig : Option (Nat × Nat)         -- triggering event and its CAP
  left : Option Nat                 -- sets still to write after the trigger set
  deriving DecidableEq, Repr

/-- Everything that the spec gives the block, its clock apart. -/
structure Block where
  dev : DevState
  regs : RegFile                    -- registers, direct and indirect, values in force
  staged : RegFile                  -- staged copies of RWB fields (R153)
  groups : Vector GroupSt 11        -- axis 0-7, station 0-1, global
  links : Vector LinkSt 2           -- SPI, Grelas
  grelas : GrelasSt
  mbox : Vector MboxSt 8
  indQ : List IndWrite              -- indirect write queue, oldest first (R164)
  window : RegFile                  -- update staging window (Table 5-5)
  cmds : List Cmd                   -- commands in flight, in acceptance order
  nextId : Nat
  lastEnd : Vector Nat 11           -- status of the ring's queued command that completed last (R239)
  backlog : List BackItem           -- records waiting for ring 11 (R232, R245)
  rings : Vector RecRing 5          -- rings 11-15
  evq : List EvRec                  -- event records of the present cycle, not yet in ring 12 (R480); empty between commands
  evLost : Nat                      -- event records lost (R482)
  levels : List (Nat × Nat)         -- active level instances: event, INDEX (R473)
  cap : CapSt
  tick : TickSt
  arb : ArbSt
  ecc : Vector EccSt 2              -- motion, management
  axes : Vector Axis 8
  coils : Vector Coil 16
  stations : Vector Station 2
  ctxs : Vector Ctx 4
  store : List (Nat × BitVec 64)    -- traverse program store (R440)
  chain : RegFile                   -- chain window VMAX, AMAX, DMAX of each virtual device, key 8*v + address (Table 6-10)
  chainOut : Vector (BitVec 40) 8   -- replies loaded for the next transfer (R198)
  chainRst : BitVec 8               -- RST due per device (Table 6-9)
  chainRej : BitVec 8
  chainReach : BitVec 8
  chainStall : BitVec 8
  chainMode : Bool                  -- MODE as last written; takes effect at the next falling edge of HCS_N (R195)
  boot : BootSt
  power : PowerSt
  surv : SurvSt
  nvm : Nvm
  otp : Otp
  flash : List (Nat × Byte)         -- configuration flash, erased bytes unlisted
  free : Nat                        -- the model's own counter: advanced at each use of an open value
  deriving DecidableEq, Repr

/-- What the module remembers of the present main-clock cycle, for the rules on what meets in one cycle. -/
structure CycSt where
  start : Block                     -- the block as the cycle found it (R145)
  acc : Bool                        -- a host access has been performed; the next one falls in a cycle of its own (R45)
  host : List (Nat × Word × Word)   -- host writes of the cycle: address, bits acted on, values (R145)
  prog : List (Nat × Word × Bool)   -- writes of program contexts in the cycle: address, word, strobe (R442)
  err : Option Word                 -- first memory error of the cycle, as DEV_MEM_FIRST would hold it (R38)
  wrote : List Nat                  -- words of the memories written by functional writes: 32,768 * memory + address (R37)
  posted : Bool                     -- ring 11 takes no further backlogged record in this cycle (R245)
  ends : Option (List Nat)          -- commands that have ended in what is being performed, their records still to come (R244)
  deriving DecidableEq, Repr

/-- The whole block, its clock, and the commands that wait. -/
structure State extends Block where
  pending : List Instr              -- commands that wait, first in, first out
  now : Nat                         -- time since power-on, 2.5 ns cycles; the device timestamp modulo 2^64
  cyc : CycSt
  deriving DecidableEq, Repr

/-! ## Reset values -/

/-- Factory-safe option values (Table 4-3). -/
def Opts.factory : Opts :=
  { serial := 0, grade := 1, rev := 0, node := 16, chainPerm := 0, retryPor := false, ovLim := 61000,
    ceil := List.replicate 8 1500, hashes := [none, none, none], authKey := none, dflt := true }

/-- A datum port at its restart, with the planned position at 0 (R371). -/
def DatumSt.init : DatumSt :=
  { c := 0, coff := 0, moff := 0, m := 0, mOld := 0, cTick := 0, a := false, b := false, runTs := [], runN := 0, dirNeg := false,
    x := 0, lastT := 0, inRun := false, everValid := false, spdNum := 0, spdDen := 1, ci := none, cm := 0, idxCap := none,
    idxN := 0, idxTs := 0, ssiHost := false, ssiT0 := 0, ssiEnd := none, ssiRec := none, wPrev := none, t0Prev := none, cPrev := 0, fConsec := 0, fBad := false,
    divCnt := 0, autoDue := false, missN := 0, idxT := 0, missT := 0, dirMot := false, encDue := false, dirP := none, held := none }

/-- An observer with its window and filters empty (R364). -/
def ObsSt.init : ObsSt :=
  { la := 0, valid := false, src := 0, w := 0, d := 0, q := 0, ratio := 0, laHf := 0, satHf := false, emag := 0, laEmf := 0,
    crit := 0, armed := true, gaps := 0, lost := false, r0 := ⟨0, 0, false, 0⟩, r1 := ⟨0, 0, false, 0⟩,
    r2 := ⟨0, 0, false, 0⟩, m := 0, susp := false, win := [], yA := 0, yB := 0, edf := 0, eqf := 0, iPrevA := 0, iPrevB := 0, loTicks := 0,
    emfTicks := 0, hist := [], hfValid := false, jam := 0, coll := 0, rearm := none, due := none, cal := none }

/-- A back-drive watch without an episode. -/
def BackdriveSt.init : BackdriveSt :=
  { v := [0, 0, 0, 0], got := 0, at_ := [0, 0, 0, 0], late := false, above := none, below := none, psi := none, travel := 0, peak := 0,
    alias_ := false, start := 0 }

/-- An axis without monument data. -/
def MonSt.init : MonSt :=
  { image := [], ovrMask := 0, ovr := [], pend := none, misses := 0, since := none, reading := false, tries := 0,
    retryAt := none }

/-- Step-follow at rest. -/
def FollowSt.init : FollowSt :=
  { origin := 0, steps := [], base := 0, lastT := none, lastStep := 0,
    brake := none }

/-- An axis in OFF at planned position 0 (Table 9-2). -/
def Axis.init : Axis :=
  { st := .off, pos := 0, at_ := 0, vel := 0, acc := 0, prof := none, lastTgt := none, tqPub := none, qdec := 1, ownD := 1, ownJ := 0, hwdog := false, home := none,
    fol := FollowSt.init, coord := none, zeroAt := none, rampAt := none, holdStart := false, pinF := 0, closN := 0,
    closDue := false, closRep := false, rep := none, keep := none, obsRan := false, stallT := false, closRan := false, moistDue := false, ocDue := 0, tempCtrl := false, heldPin := none, heldSeq := none, rst := .none, trips := 0,
    dp := DatumSt.init, obs := ObsSt.init, bd := BackdriveSt.init, idgo := false, idc := none, calgo := false,
    mon := MonSt.init, boostA := 0, boostB := 0, boostAt := 0 }

/-- A coil before its generator starts (R319): mode 1, period of 10,000 counts. -/
def Coil.init : Coil :=
  { on := false, t0 := 0, pj := 10000, cj := 0, tick := 0, mode := 1, neg := false, side1 := .off, side2 := .off, dead1 := none,
    dead2 := none, edges := [], phase := 3, phT := 0, edgeOn := 0, refT := 0, refL := 0, car := 0, gates := false, sp := 0, spIn := 0, spNew := false, xi := 0, duty := 0, plan := [],
    conv := none, s0Wait := false, slots := [], lastS0 := 0, markS0 := 0, pkS0 := 0, n12 := 0, sum12 := 0, n0 := 0, sum0 := 0, sq0 := 0, ab0 := 0, tpos := 0, tneg := 0,
    drvAt := none, p12 := 0, ps12 := 0, p0 := 0, ps0 := 0, psq0 := 0, pab0 := 0, ptpos := 0, ptneg := 0, maxAll := true, maxCur := false, maxAny := false,
    openN := 0, ocFets := 0, ocMore := 0, pend := none, perW := false, cmpW := false, relay := [], ims := 0, iavg := 0,
    nsw := 0, fsw := 0 }

/-- A survey converter that has not started (R417). -/
def SurveySt.init : SurveySt :=
  { on := false, run := none, saved := none, interp := none, inRound := false, endAt := 0, idleAt := 0, hkAt := 0,
    hkStart := 0, startup := none, afterUp := 0, began := false, rtAt := 0, itAt := 0, hkMo := false,
    hkEnds := false, hkBegan := 0, corrNext := none, ents := [], injEnts := [], hkDue := false, vmx := none,
    ref := 0, vmb := 0, vchk := none, temps := [0, 0, 0], moistRes := none, ovf := false, first := false,
    corr := [], cal := 0, calFull := false, calSum := 0, rz := 0, rf := 0, calIn := 0, calOf := 0 }

/-- A link after a power-on or system reset: the first frame is in step, its reply is the reset reply (R182, R187). -/
def LinkSt.init : LinkSt :=
  { armed := false, ptr := 0, inc := true, pastEnd := false, err := false, bad := false, rbusy := false, pfAt := 0,
    line := none, stg := [], commit := [], peek := [], tagq := 0, expAlive := none, accAny := false, accHseq := 0,
    perfHseq := 0, wrHseq := 0, wrAddr := 0, dseq := 0, last := ⟨0, 0, 0, 0, 0⟩, out := none, rstDue := true,
    held := none, edge := none, chain := false }

/-- The Grelas link after a power-on or system reset (R221, R223). -/
def GrelasSt.init : GrelasSt :=
  { hx := 0, todo := [], slots := [], pollAt := none, tagged := false, x := 0, inv := false, composed := none, sent := [],
    mark := none, marksLeft := 0, tickNum := none, lastTick := none, lastPkt := none }

/-- A stopped program context without a PROG_CFG section (R439). -/
def Ctx.init : Ctx :=
  { running := false, pc := 0, lc := Vector.replicate 4 0, ev := 0, trk := [], wait := .none, stg := [], auto := false,
    post := true, entry := 0, lastSt := 0, n := 0, hold := false }

/-- Ticks not yet running. -/
def TickSt.init : TickSt :=
  { on := false, mark := 0, no := 0, commitDue := false, lost := false, held := none, sync := none, gov := [], trip := 0,
    rst := 0, fins := [] }

/-- The arbiter with no credit, no weight and nothing granted. -/
def ArbSt.init : ArbSt :=
  { w := [0, 0, 0], credits := [0, 0, 0], last := 2, lastLink := .gr, rr := [3, 3, 2], grants := List.replicate 11 0 }

/-- A memory initialised under R108. -/
def EccSt.init : EccSt := { bad := [], scrub := 0, passCorr := 0, writeBack := [], slotAt := 0 }

/-- A firmware slot as the model's part is shipped (log entry 9). -/
def FwSlot.empty : FwSlot := { state := 0, seq := 0, version := 0, bytes := [] }

/-- The NVM of a part before its first start. -/
def Nvm.init : Nvm :=
  { failcnt := 0, epoch := 0, fw := Vector.replicate 2 FwSlot.empty, lastFw := 0, lastTrial := false, imgTrial := none,
    lastImg := none, fb := [], fbNext := 1, bench := [], wear := [] }

/-- Boot state with power-on reset asserted. -/
def BootSt.init : BootSt :=
  { opts := Opts.factory, optDone := false, optAt := 0, stage := 0, cfgValid := false, fromCore := false, relAt := 0,
    wdAt := 0, wdOn := false, coreOn := false, coreAt := 0, pulseEnd := 0, held := none, optBad := none, fromReady := false, hostAt := 0,
    imgOk := false, imgSlot := 0, reload := false, porCause := true, failRead := 0, fwRunning := false, por := true,
    sys := false, ceilFrozen := false, flashId := 0 }

/-- Power path timers at rest. -/
def PowerSt.init : PowerSt :=
  { sw := Vector.replicate 2 false, clampAt := Vector.replicate 2 0, clampPeak := Vector.replicate 2 0, clampOn := Vector.replicate 2 false,
    dumpAt := 0, dumpEnd := none,
    hotAt := 0, grace := none, flUp := false, v5Off := none, v5On := none, vbakSet := false, vbakLow := false,
    holdup := false, dead := false, temps := Vector.replicate 8 0, tempAt := Vector.replicate 2 0,
    stale := Vector.replicate 2 false, tWarn := 0, tTrip := 0, tBack := 0, seenRev := false, vms := Vector.replicate 2 0,
    ceilAt := 0, frac := Vector.replicate 8 0, gov := 65536, xdue := false, xbad := 0 }

/-- The surveyor before it starts. -/
def SurvSt.init : SurvSt :=
  { fcMs := 0, fcAt := 0, fbQ := [], lostSince := 0, wearDone := false, sealing := none, ceilDue := none,
    upd := { first := none, op := 0, image := false, slot := 0, ofs := 0, chunk := [], src := 0, hseq := 0, res := 0 }, mwLines := [], mwCur := none, mwAt := 0, mwDue := 0, mwWarn := 0,
    mwFault := 0, idPollAt := 0 }

/-- The block with power-on reset asserted: every register at its reset value, nothing in flight. -/
def Block.reset : Block :=
  { dev := .reset, regs := [], staged := [],
    groups := Vector.replicate 11 { pend := none, at_ := 0 },
    links := Vector.replicate 2 LinkSt.init, grelas := GrelasSt.init,
    mbox := Vector.replicate 8 { req := none, pend := none }, indQ := [], window := [], cmds := [], nextId := 0,
    lastEnd := Vector.replicate 11 0, backlog := [], rings := Vector.replicate 5 { old := 0, recs := [], lost := [] }, evq := [], evLost := 0,
    levels := [], cap := { frozen := false, trig := none, left := none }, tick := TickSt.init, arb := ArbSt.init,
    ecc := Vector.replicate 2 EccSt.init, axes := Vector.replicate 8 Axis.init, coils := Vector.replicate 16 Coil.init,
    stations := Vector.replicate 2 { open_ := [], mv := none, uEnd := none, sv := SurveySt.init },
    ctxs := Vector.replicate 4 Ctx.init, store := [], chain := [], chainOut := Vector.replicate 8 0, chainRst := 0xFF,
    chainRej := 0, chainReach := 0, chainStall := 0, chainMode := false, boot := BootSt.init, power := PowerSt.init,
    surv := SurvSt.init, nvm := Nvm.init, otp := { serial := 0, grade := 0, rev := 1, slots := List.replicate 8 [] },
    flash := [], free := 0 }

/-- A cycle that began with block `b` and in which nothing has happened. -/
def CycSt.from_ (b : Block) : CycSt :=
  { start := b, acc := false, host := [], prog := [], err := none, wrote := [], posted := false, ends := none }

/-- The block with power-on reset asserted, no command waiting. -/
def State.reset : State := { Block.reset with pending := [], now := 0, cyc := CycSt.from_ Block.reset }

end Sys2Proof.Machine
end

