-- ==== Sys2Proof/Machine/Operands.lean ====
section
/-!
DEFINITION. The operand forms: the fields of a descriptor (Tables 8-2 to 8-4), of a program word (Table 15-7), and the
conversions between them and numbers. Every form the spec gives a command is read here, once.
-/

namespace Sys2Proof.Machine

/-! ## Descriptor words (Table 8-2) -/

/-- Opcode of a descriptor. -/
def dOp (d0 : Word) : Nat := bits d0.toNat 24 8
/-- Tag of a descriptor. -/
def dTag (d0 : Word) : Nat := bits d0.toNat 14 10
/-- CHAIN bit of a descriptor. -/
def dChain (d0 : Word) : Bool := bit d0.toNat 13
/-- REPLACE bit of a descriptor. -/
def dReplace (d0 : Word) : Bool := bit d0.toNat 12
/-- SEL field of a descriptor. -/
def dSel (d0 : Word) : Nat := bits d0.toNat 8 4
/-- FLAGS field of a descriptor. -/
def dFlags (d0 : Word) : Nat := bits d0.toNat 0 8

/-- The first word that an opcode and the other fields make. -/
def mkD0 (op tag : Nat) (chain replace : Bool) (sel flags : Nat) : Word :=
  W (op % 256 * 2 ^ 24 + tag % 1024 * 2 ^ 14 + b2n chain * 2 ^ 13 + b2n replace * 2 ^ 12 + sel % 16 * 2 ^ 8 + flags % 256)

/-- The four descriptor words of a descriptor command with opcode `op`. -/
def descWords (op : Nat) (d : Desc) : Word × Word × Word × Word :=
  (mkD0 op d.tag.toNat d.chain d.replace d.sel.toNat d.flags.toNat, d.d1, d.d2, d.d3)

/-- A stake opcode: MOVE_TRAP, MOVE_SCURVE or MOVE_VEL. -/
def isStakeOp (op : Nat) : Bool := op == 0x20 || op == 0x21 || op == 0x22

/-- A queued-class descriptor (Table 8-3). -/
def isQueued (d0 : Word) : Bool :=
  (isStakeOp (dOp d0) && !dReplace d0) || dOp d0 == 0x23 || dOp d0 == 0x24 || dOp d0 == 0x40 || dOp d0 == 0x61

/-- The 48-bit target of D1 and D2 (Table 8-4). -/
def dTarget (d1 d2 : Word) : Int := sgn 48 (d1.toNat + 2 ^ 32 * bits d2.toNat 0 16)

/-- VPCT of D2; 0 acts as 4,096 (R228). -/
def dVpct (d2 : Word) : Nat := if bits d2.toNat 16 16 = 0 then 4096 else bits d2.toNat 16 16

/-- Opcode of a command in flight. -/
def Cmd.op (c : Cmd) : Nat := dOp c.d0
/-- Tag of a command in flight. -/
def Cmd.tag (c : Cmd) : Nat := dTag c.d0
/-- Whether a command in flight is queued class. -/
def Cmd.queued (c : Cmd) : Bool := isQueued c.d0
/-- Whether FLUSH is set in a STOP or QSTOP (bit 0) or STATION_STOP (bit 1). -/
def Cmd.flush (c : Cmd) : Bool := if c.op == 0x41 then bit (dFlags c.d0) 1 else bit (dFlags c.d0) 0
/-- A position stake. -/
def Cmd.isPos (c : Cmd) : Bool := c.op == 0x20 || c.op == 0x21
/-- Target field of a stake or coordinated part. -/
def Cmd.target (c : Cmd) : Int := dTarget c.d1 c.d2
/-- REL bit: bit 0 of a position stake, bit 1 of a coordinated part. -/
def Cmd.rel (c : Cmd) : Bool := if c.op == 0x40 then bit (dFlags c.d0) 1 else bit (dFlags c.d0) 0
/-- BLEND bit of a position stake. -/
def Cmd.blend (c : Cmd) : Bool := c.isPos && bit (dFlags c.d0) 1
/-- LAST bit of a coordinated part. -/
def Cmd.last (c : Cmd) : Bool := bit (dFlags c.d0) 0
/-- PAIR of a coordinated part. -/
def Cmd.pair (c : Cmd) : Nat := bits c.d3.toNat 0 8
/-- Profile set of a stake. -/
def Cmd.pset (c : Cmd) : Nat := dSel c.d0 % 4
/-- The axis that a coordinated part names (Table 8-4). -/
def Cmd.partAxis (c : Cmd) : Fin 8 := ⟨((c.ring - 8) % 2) * 4 + dSel c.d0 % 4, by omega⟩

/-- SRC code of a completion record (Table 8-7). -/
def srcCode : Src → Nat
  | .spi => 0 | .gr => 1 | .prog _ => 2 | .chain _ => 3

/-- The issuer that a link is. -/
def linkSrc : Link → Src
  | .spi => .spi | .gr => .gr

/-- Index of a link. -/
def lix : Link → Fin 2
  | .spi => 0 | .gr => 1

/-! ## Completion status codes (Table 8-6) -/

def DONE : Nat := 0x00
def DONE_LIMITED : Nat := 0x01
def REJECT_STATE : Nat := 0x10
def REJECT_PARAM : Nat := 0x11
def REJECT_TAG_BUSY : Nat := 0x12
def REJECT_RING_FULL : Nat := 0x13
def CANCELLED_STATE : Nat := 0x20
def CANCELLED_HOST : Nat := 0x21
def CANCELLED_FAULT : Nat := 0x22
def STALLED : Nat := 0x30
def CLOSURE_ERROR_ST : Nat := 0x31
def HOMING_FAILED : Nat := 0x32

/-- Rank of an ending in the order of R241; the lowest wins. -/
def endRank (st : Nat) : Nat :=
  if st = CANCELLED_FAULT then 0 else if st = STALLED then 1 else if st = CLOSURE_ERROR_ST then 2
  else if st = HOMING_FAILED then 3 else if st = CANCELLED_STATE then 4 else if st = CANCELLED_HOST then 5
  else if st = DONE_LIMITED then 6 else 7

/-- The ending that stands first among `causes`, `d` where there is none (R241, R506). -/
def firstEnding (causes : List Nat) (d : Nat) : Nat :=
  causes.foldl (fun b x => if endRank x < endRank b then x else b) d

/-! ## Program words (Table 15-7) -/

/-- Opcode of a program word. -/
def pOp (w : Nat) : Nat := bits w 56 8
/-- FAIL target of WAITTAG, WAITIN and HOME. -/
def pFail (w : Nat) : Nat := bits w 16 12
/-- FJ bit. -/
def pFj (w : Nat) : Bool := bit w 28

/-- Depth of a command ring (Table 8-1). -/
def cmdDepth (r : Nat) : Nat := if r = 10 then 32 else 64

/-- Depth of a record ring 11 + q (Table 8-1). -/
def recDepth (q : Fin 5) : Nat := match q with
  | 0 => 512 | 1 => 256 | 2 => 16384 | 3 => 512 | 4 => 512

/-- Length of a program instruction in words (Table 15-7). -/
def pLen (op : Nat) : Nat := if op = 1 then 3 else if op = 8 then 2 else 1

end Sys2Proof.Machine
end

