-- ==== Sys2Proof/Machine/Ops.lean ====
section
/-!
DEFINITION. The named operations that the meanings share: register fields, time, events, record rings, completions, the
field book, mailboxes, entry to FAULT and to SAFE. Each is written once, from the rule that its comment cites.
-/

namespace Sys2Proof.Machine

open Host

/-! ## Register fields -/

/-- The word of register `a` as held by the register file. -/
def State.word (s : State) (a : Nat) : Word := kvGet s.regs a (resetWord a)

/-- Register `a` set to `w`, whatever its access codes: the module's own update. -/
def State.setWord (s : State) (a : Nat) (w : Word) : State := { s with regs := kvSet s.regs a w (resetWord a) }

/-- A field's value. -/
def State.g (s : State) (f : Fld) : Nat := bits (s.word f.a).toNat f.lo f.w

/-- A one-bit field as a truth value. -/
def State.gb (s : State) (f : Fld) : Bool := s.g f != 0

/-- A field read as a two's-complement number. -/
def State.gi (s : State) (f : Fld) : Int := sgn f.w (s.g f)

/-- A field set by the module. -/
def State.put (s : State) (f : Fld) (v : Nat) : State := s.setWord f.a (W (setBits (s.word f.a).toNat f.lo f.w v))

/-- A field set to the two's-complement pattern of a number. -/
def State.putI (s : State) (f : Fld) (v : Int) : State := s.put f (pat f.w v)

/-- A one-bit field set to a truth value. -/
def State.putB (s : State) (f : Fld) (b : Bool) : State := s.put f (b2n b)

/-- A counter field advanced by `k`, saturating at its greatest value. -/
def State.addSat (s : State) (f : Fld) (k : Nat) : State := s.put f (satU f.w (s.g f + k))

/-- A counter field advanced by one, saturating. -/
def State.inc (s : State) (f : Fld) : State := s.addSat f 1

/-- A field set to the larger of its value and `v`, saturating. -/
def State.maxPut (s : State) (f : Fld) (v : Nat) : State := s.put f (satU f.w (max (s.g f) v))

/-- Bit `i` of a field. -/
def State.gBit (s : State) (f : Fld) (i : Nat) : Bool := bit (s.g f) i

/-- Bit `i` of a field set. -/
def State.putBit (s : State) (f : Fld) (i : Nat) (b : Bool) : State := s.put f (setBits (s.g f) i 1 (b2n b))

/-- The staged copy of register `a`, of which only the RWB fields count (R153). -/
def State.stagedWord (s : State) (a : Nat) : Word := kvGet s.staged a (resetWord a)

/-- A staged copy replaced. -/
def State.setStaged (s : State) (a : Nat) (w : Word) : State := { s with staged := kvSet s.staged a w (resetWord a) }

/-- A field of a staged copy. -/
def State.gSt (s : State) (f : Fld) : Nat := bits (s.stagedWord f.a).toNat f.lo f.w

/-- A field of a staged copy replaced. -/
def State.putSt (s : State) (f : Fld) (v : Nat) : State :=
  s.setStaged f.a (W (setBits (s.stagedWord f.a).toNat f.lo f.w v))

/-! ## Parts of the state -/

/-- Axis `n` changed by `f`. -/
def State.ax (s : State) (n : Fin 8) (f : Axis → Axis) : State := { s with axes := vupd s.axes n f }
/-- The datum port of axis `n` changed by `f`. -/
def State.dpt (s : State) (n : Fin 8) (f : DatumSt → DatumSt) : State := s.ax n fun a => { a with dp := f a.dp }
/-- The observer of axis `n` changed by `f`. -/
def State.ob (s : State) (n : Fin 8) (f : ObsSt → ObsSt) : State := s.ax n fun a => { a with obs := f a.obs }
/-- Coil `c` changed by `f`. -/
def State.co (s : State) (c : Fin 16) (f : Coil → Coil) : State := { s with coils := vupd s.coils c f }
/-- Station `st` changed by `f`. -/
def State.stn (s : State) (st : Fin 2) (f : Station → Station) : State := { s with stations := vupd s.stations st f }
/-- The survey converter of station `st` changed by `f`. -/
def State.svu (s : State) (st : Fin 2) (f : SurveySt → SurveySt) : State := s.stn st fun x => { x with sv := f x.sv }
/-- Program context `x` changed by `f`. -/
def State.ctx (s : State) (x : Fin 4) (f : Ctx → Ctx) : State := { s with ctxs := vupd s.ctxs x f }
/-- The state of a link. -/
def State.link (s : State) (l : Link) : LinkSt := s.links[lix l]
/-- A link's state changed by `f`. -/
def State.lnk (s : State) (l : Link) (f : LinkSt → LinkSt) : State := { s with links := vupd s.links (lix l) f }
/-- Record ring 11 + `q` changed by `f`. -/
def State.ring (s : State) (q : Fin 5) (f : RecRing → RecRing) : State := { s with rings := vupd s.rings q f }
/-- Boot state changed by `f`. -/
def State.bt (s : State) (f : BootSt → BootSt) : State := { s with boot := f s.boot }
/-- Power state changed by `f`. -/
def State.pw (s : State) (f : PowerSt → PowerSt) : State := { s with power := f s.power }
/-- Surveyor state changed by `f`. -/
def State.su (s : State) (f : SurvSt → SurvSt) : State := { s with surv := f s.surv }
/-- NVM changed by `f`. -/
def State.nv (s : State) (f : Nvm → Nvm) : State := { s with nvm := f s.nvm }
/-- One half-field of a coil chosen by its letter: coil A of an axis is its even device coil (R3). -/
def coilA (n : Fin 8) : Fin 16 := coilOf n false
/-- Coil B of an axis. -/
def coilB (n : Fin 8) : Fin 16 := coilOf n true

/-! ## Time and domains -/

/-- A word whose bits of mask `m` take those of `v`. -/
def maskIn (w m v : Word) : Word := (w &&& ~~~m) ||| (v &&& m)

/-- Host writes of a cycle standing over what the module made of the same registers in it (R145). -/
def hostOver (l : List (Nat × Word × Word)) (m : RegFile) : RegFile :=
  l.foldl (fun m x => kvSet m x.1 (maskIn (kvGet m x.1 (resetWord x.1)) x.2.1 x.2.2) (resetWord x.1)) m

/-- Time advanced by `dt` cycles of the main clock. A cycle that ends leaves its host writes standing (R145). -/
def State.tickTo (s : State) (dt : Nat) : State :=
  { s with
    now := s.now + dt, regs := if dt = 0 then s.regs else hostOver s.cyc.host s.regs,
    cyc := if dt = 0 then s.cyc else CycSt.from_ { s.toBlock with regs := hostOver s.cyc.host s.regs } }

/-- The block as the present cycle found it (R145). -/
def State.atStart (s : State) : State := { s with toBlock := s.cyc.start }

/-- A host access begins: a second one of the same instant falls in the next cycle (R45, R145). -/
def State.hostBegin (s : State) : State :=
  if s.cyc.acc then
    let m := hostOver s.cyc.host s.regs
    { s with regs := m, cyc := { s.cyc with start := { s.toBlock with regs := m }, host := [], prog := [] } }
  else { s with cyc := { s.cyc with acc := true } }

/-- `f` has been done before the accesses of the present cycle, which find it done: a frame is performed after it has arrived and
been accepted (R182, R183, Table 6-1). -/
def State.earlier (s : State) (f : State → State) : State :=
  let s' := f s
  { s' with cyc := { s'.cyc with start := (f s.atStart).toBlock } }

/-- A field as it stood when the present cycle began. -/
def State.gWas (s : State) (f : Fld) : Nat := s.atStart.g f

/-- A counter is cleared: the clear acts before the counts of its own cycle, which stay (R38, R194, R225, R251, R341). -/
def State.clrCnt (s : State) (f : Fld) : State :=
  let s' := s.put f (s.g f - s.gWas f)
  { s' with cyc := { s'.cyc with start := (s'.atStart.put f 0).toBlock } }

/-- Every counter of a register is cleared. -/
def State.clrWord (s : State) (a : Nat) : State := (layout a).foldl (fun s r => s.clrCnt ⟨a, r.lo, r.w⟩) s

/-- Bits [35:12] of the device timestamp (R243). -/
def State.recTime (s : State) : Nat := bits s.now 12 24

/-- The full-logic domain is powered (R78). -/
def State.flOn (s : State) : Bool := s.power.flUp

/-- A state that energises the bridges (Table 9-1). -/
def AxState.energised : AxState → Bool
  | .hold | .moving | .follow | .homing | .quiescing => true
  | .off | .idle | .fault => false

/-- The states that keep a tick setting waiting (R28). -/
def AxState.busy : AxState → Bool
  | .moving | .follow | .homing | .quiescing => true
  | .off | .idle | .hold | .fault => false

/-- Code of Table 9-1. -/
def AxState.code : AxState → Nat
  | .off => 0 | .idle => 1 | .hold => 2 | .moving => 3 | .follow => 4 | .homing => 5 | .quiescing => 6 | .fault => 7

/-- Code of `DEV_STATE.STATE` (Table 4-6). -/
def DevState.code : DevState → Nat
  | .reset => 0 | .optionLoad => 1 | .boot => 2 | .configLoad => 3 | .ready => 4 | .run => 5 | .safe => 6 | .recovery => 7

/-- READY or RUN. -/
def DevState.rr (d : DevState) : Bool := d == .ready || d == .run

/-- Axis `n` is energised. -/
def State.energised (s : State) (n : Fin 8) : Bool := s.axes[n].st.energised

/-- The device answers on its links: from BOOT on (R59, Table 4-4). -/
def State.answers (s : State) : Bool := s.dev != .reset && s.dev != .optionLoad && !s.power.dead

/-- The logic is powered and out of reset, from OPTION_LOAD on: the protections report (R74, R76). -/
def State.awake (s : State) : Bool := s.dev != .reset && !s.power.dead

/-- The full-logic pins work in their functions: in READY, RUN and SAFE with full logic powered, and through a core reset, which
leaves every pin as it was (Table 2-7, R60, R61). Elsewhere they are not acted on. -/
def State.flPins (s : State) : Bool :=
  s.flOn && (s.dev == .ready || s.dev == .run || s.dev == .safe ||
    (s.boot.fromCore && (s.dev == .boot || s.dev == .configLoad)) || s.boot.coreOn)

/-! ## Events (R473 to R486) -/

/-- Queue the record of a raise or clearing for ring 12 (R480, R481). Routing acts from the cycle after its write (R475). -/
def State.evPost (s : State) (e kind info : Nat) : State :=
  if bit (s.gWas (DEV_EVRT_REC (e / 8))) (e % 8) && s.flOn then
    { s with evq := s.evq ++ [{ e := e, kind := kind, info := info, time := s.recTime }] }
  else s

/-- The part of a raise that every routing shares: PEND, CNT, the latches and the capture trigger (R473, R476, R486). -/
def State.evMark (s : State) (e : Nat) : State :=
  let s := s.putBit (DEV_EVST_PEND (e / 8)) (e % 8) true
  let s := s.inc (DEV_EVCNT_CNT (e / 8) (e % 8))
  let s := { s with ctxs := s.ctxs.map fun x => if x.running then { x with ev := x.ev ||| BitVec.ofNat 64 (2 ^ e) } else x }
  let cap := s.gWas (DEV_EVCAP_CAP (e / 8) (e % 8))
  if cap != 0 && !s.cap.frozen && s.cap.trig == none then { s with cap := { s.cap with trig := some (e, cap) } } else s

/-- A raise of event `e` with a record of the given KIND and INFO. -/
def State.evRaise (s : State) (e kind info : Nat) : State := (s.evMark e).evPost e kind info

/-- A pulse of event `e` with INDEX and DETAIL (Table 17-1). -/
def State.pulse (s : State) (e idx detail : Nat) : State := s.evRaise e 0 (idx % 16 * 4096 + detail % 4096)

/-- The level instance `(e, idx)` is active. -/
def State.level (s : State) (e idx : Nat) : Bool := s.levels.contains (e, idx)

/-- A level instance asserts: raised where it was inactive. -/
def State.levelOn (s : State) (e idx detail : Nat) : State :=
  if s.level e idx then s
  else ({ s with levels := (e, idx) :: s.levels }).evRaise e 1 (idx % 16 * 4096 + detail % 4096)

/-- A level instance clears: recorded, not raised. -/
def State.levelOff (s : State) (e idx detail : Nat) : State :=
  if s.level e idx then
    ({ s with levels := s.levels.filter (fun x => x != (e, idx)) }).evPost e 2 (idx % 16 * 4096 + detail % 4096)
  else s

/-- A level instance follows a condition. -/
def State.levelSet (s : State) (e idx : Nat) (b : Bool) (detail : Nat) : State :=
  if b then s.levelOn e idx detail else s.levelOff e idx detail

/-! ## Record rings -/

/-- Records held in ring 11 + `q`. -/
def State.heldRecs (s : State) (q : Fin 5) : Nat := s.rings[q].recs.length

/-- Sequence number of the next record. -/
def RecRing.next (r : RecRing) : Nat := (r.old + r.recs.length) % 65536

/-- A record appended. -/
def RecRing.push (r : RecRing) (x : BitVec 64) : RecRing := { r with recs := r.recs ++ [x] }

/-- The oldest `k` records released. -/
def RecRing.drop (r : RecRing) (k : Nat) : RecRing :=
  let old := (r.old + min k r.recs.length) % 65536
  { old := old, recs := r.recs.drop k,
    lost := r.lost.filter fun q => decide ((q + 65536 - old) % 65536 < r.recs.length - k) }

/-- Every held record released; the sequence numbers run on (R137). -/
def RecRing.clear (r : RecRing) : RecRing := { old := r.next, recs := [], lost := [] }

/-- The event record of Table 17-3. -/
def eventRec (seq : Nat) (r : EvRec) : BitVec 64 :=
  BitVec.ofNat 64 (seq % 65536 * 2 ^ 48 + r.e % 64 * 2 ^ 42 + r.kind % 4 * 2 ^ 40 + r.info % 65536 * 2 ^ 24 + r.time % 2 ^ 24)

/-- One event record into ring 12; discarded and counted while 255 records are held (R482). -/
def State.postEvent (s : State) (r : EvRec) : State :=
  if s.heldRecs 1 < 255 then s.ring 1 fun q => q.push (eventRec q.next r)
  else ({ s with evLost := s.evLost + 1 }).inc (RRNG_CNT_OVF 12)

/-- EV_EVLOST is marked, and recorded where it is routed so; the count of losses starts again (R482). -/
def State.evLostNote (s : State) : State :=
  let info := min 4095 s.evLost
  let s := ({ s with evLost := 0 }).evMark 7
  if bit (s.gWas (DEV_EVRT_REC 0)) 7 then
    s.ring 1 fun q => q.push (eventRec q.next { e := 7, kind := 0, info := info, time := s.recTime })
  else s

/-- EV_EVLOST, before any other record, once fewer than 255 records are held (R482). -/
def State.evLostFlush (s : State) : State :=
  if s.evLost != 0 && s.flOn && s.heldRecs 1 < 255 then s.evLostNote else s

/-- Order of the records of one cycle: event number, then INDEX (R480). -/
def evKey (r : EvRec) : Nat := r.e * 16 + r.info / 4096

/-- `r` placed behind the records that do not come after it. -/
def evInsert (r : EvRec) : List EvRec → List EvRec
  | [] => [r]
  | x :: t => if evKey r < evKey x then r :: x :: t else x :: evInsert r t

/-- Records of one cycle in the order of R480. -/
def evSort (l : List EvRec) : List EvRec := l.foldl (fun acc r => evInsert r acc) []

/-- Ended commands that wait for space in ring 11 (R245). -/
def State.backlogged (s : State) : Bool := s.backlog.any (fun b => b.cmd.isSome)

/-- WATER_HIT of ring 11 + `q` (R248). -/
def State.waterHit (s : State) (q : Fin 5) : Bool :=
  s.g (RRNG_CFG_WATER (11 + q)) != 0 && s.heldRecs q ≥ s.g (RRNG_CFG_WATER (11 + q))

/-- The end of a command's cycle: the levels that follow ring 11 (R245, R248), then the records of the cycle, in order
(R480), after any loss record (R482). -/
def State.settle (s : State) : State :=
  let s := s.levelSet 48 0 s.backlogged 0
  let s := s.levelSet 49 0 (s.flOn && s.waterHit 0) 0
  let s := s.evLostFlush
  let l := if s.flOn then evSort s.evq else []
  l.foldl (fun s r => s.postEvent r) { s with evq := [] }

/-- The outcome of a command whose effect is `s`. -/
def done (s : State) : Outcome State Fault Refusal := .next s.settle

/-! ## Completions (R232, R241 to R245) -/

/-- The completion record of Table 8-7. -/
def complRec (seq tag ring src status time : Nat) : BitVec 64 :=
  BitVec.ofNat 64 (seq % 65536 * 2 ^ 48 + tag % 1024 * 2 ^ 38 + ring % 16 * 2 ^ 34 + src % 4 * 2 ^ 32 + status % 256 * 2 ^ 24
    + time % 2 ^ 24)

/-- One completion record into ring 11 (R243). -/
def State.post11 (s : State) (tag ring src status : Nat) : State :=
  s.ring 0 fun q => q.push (complRec q.next tag ring src status s.recTime)

/-- A record may be posted at once: an entry is free and nothing waits before it (R245). -/
def State.canPost (s : State) : Bool := s.backlog.isEmpty && s.heldRecs 0 < 512

/-- The record of a rejection: posted, queued, or lost (R232). -/
def State.postReject (s : State) (tag ring src status : Nat) : State :=
  if s.canPost then s.post11 tag ring src status
  else if (s.backlog.filter (fun b => b.cmd.isNone)).length < 16 then
    { s with backlog := s.backlog ++ [{ cmd := none, tag := tag, ring := ring, src := src, status := status }] }
  else s.inc (RRNG_CNT_REJ_LOST 11)

/-- A command's ending has no record in ring 11: chain mode, or a context with POST = 0 (R200, R442). -/
def State.silent (s : State) (c : Cmd) : Bool :=
  match c.src with
  | .spi | .gr => false
  | .prog x => !s.ctxs[x].post
  | .chain _ => true

/-- A command leaves flight: its entry and its tag are free (R227, R234). -/
def State.dropCmd (s : State) (id : Nat) : State := { s with cmds := s.cmds.filter (fun c => c.id != id) }

/-- A program context's tracking entry takes the ending of its command (R443). -/
def trackEnd (x : Ctx) (id st : Nat) : Ctx :=
  { x with trk := x.trk.map fun e => if e.2.1 == id then (e.1, e.2.1, some st) else e }

/-- The last ending of a command ring: that of its queued commands, and of a replacing stake (R239, R266). -/
def State.noteLast (s : State) (c : Cmd) (st : Nat) : State :=
  if h : c.ring < 11 then
    if c.queued || isStakeOp c.op then { s with lastEnd := vupd s.lastEnd ⟨c.ring, h⟩ (fun _ => st) } else s
  else s

/-- What an ending leaves behind beside its record: the ring's last ending (R239), tracking tables (R443), chain flags
(Table 6-9). -/
def State.noteEnd (s : State) (c : Cmd) (st : Nat) : State :=
  let s := s.noteLast c st
  let s := { s with ctxs := s.ctxs.map fun x => trackEnd x c.id st }
  match c.src with
  | .chain v =>
    if c.op == 0x20 && !(s.cmds.any fun x => x.src == .chain v && x.op == 0x20 && decide (x.id > c.id)) then
      { s with
        chainReach := if st ≤ 1 then s.chainReach ||| BitVec.ofNat 8 (2 ^ v.val) else s.chainReach,
        chainStall := if st = STALLED then s.chainStall ||| BitVec.ofNat 8 (2 ^ v.val) else s.chainStall }
    else s
  | .spi | .gr | .prog _ => s

/-- The record of an ended command is posted, or waits with the entry and the tag kept (R243, R245). -/
def State.recordEnd (s : State) (c : Cmd) (st : Nat) : State :=
  if s.silent c then s.dropCmd c.id
  else if s.canPost then (s.post11 c.tag c.ring (srcCode c.src) st).dropCmd c.id
  else
    { s with
      cmds := s.cmds.map fun x => if x.id == c.id then { x with ph := .ended st } else x,
      backlog := s.backlog ++ [{ cmd := some c.id, tag := c.tag, ring := c.ring, src := srcCode c.src, status := st }] }

/-- The command ends with status `st`; its record follows at once, or with those of the other endings of the instant (R244). -/
def State.endCmd (s : State) (id st : Nat) : State :=
  match s.cmds.find? (fun c => c.id == id) with
  | none => s
  | some c =>
    match c.ph with
    | .ended _ => s
    | .accepted | .applied | .waitPair | .exec | .ending _ =>
      let s := s.noteEnd c st
      match s.cyc.ends with
      | none => s.recordEnd c st
      | some l =>
        { s with
          cmds := s.cmds.map fun x => if x.id == id then { x with ph := .ended st } else x,
          cyc := { s.cyc with ends := some (id :: l) } }

/-- Commands in ring order, then commit order (R244). -/
def cmdOrder (l : List Cmd) : List Cmd := (List.range 11).flatMap (fun r => l.filter (fun c => c.ring == r))

/-- The status with which a command has ended. -/
def Cmd.endedWith (c : Cmd) : Nat :=
  match c.ph with
  | .ended st => st
  | .accepted | .applied | .waitPair | .exec | .ending _ => DONE

/-- The records of the endings that one instant has gathered, in the order of R244. -/
def State.flushEnds (s : State) : State :=
  let l := s.cyc.ends.getD []
  (cmdOrder (s.cmds.filter fun c => l.contains c.id)).foldl (fun s c => s.recordEnd c c.endedWith)
    { s with cyc := { s.cyc with ends := none } }

/-- `f` performed with its endings gathered: their records come after it, in the order of R244. -/
def State.gathered (s : State) (f : State → State) : State :=
  if s.cyc.ends.isSome then f s else (f { s with cyc := { s.cyc with ends := some [] } }).flushEnds

/-- Every command that satisfies `p` ends with `st`, in the order of R244. -/
def State.endAll (s : State) (p : Cmd → Bool) (st : Nat) : State :=
  (cmdOrder (s.cmds.filter p)).foldl (fun s c => s.endCmd c.id st) s

/-- A command in flight changed by `f`. -/
def State.cmdUpd (s : State) (id : Nat) (f : Cmd → Cmd) : State :=
  { s with cmds := s.cmds.map fun c => if c.id == id then f c else c }

/-- The phase of a command set. -/
def State.setPh (s : State) (id : Nat) (p : Phase) : State := s.cmdUpd id fun c => { c with ph := p }

/-- A cause that will end the command at standstill is remembered (R506). -/
def State.cause (s : State) (id st : Nat) : State := s.cmdUpd id fun c => { c with causes := c.causes ++ [st] }

/-- The command is still in flight and has not ended. -/
def Cmd.live (c : Cmd) : Bool :=
  match c.ph with
  | .ended _ => false
  | .accepted | .applied | .waitPair | .exec | .ending _ => true

/-- The command executes (R227, R238). -/
def Cmd.running (c : Cmd) : Bool := c.ph == .exec

/-- The command of a ring that executes and is not about to end. -/
def State.execOf (s : State) (r : Nat) : Option Cmd := s.cmds.find? fun c => c.ring == r && c.ph == .exec

/-- The executing command of a ring as it reads: one whose ending waits for the tick's commit point executes until then (R249). -/
def State.execShown (s : State) (r : Nat) : Option Cmd :=
  match s.execOf r with
  | some c => some c
  | none => s.cmds.find? fun c => c.ring == r && c.queued && c.ran && match c.ph with
    | .ending _ => true
    | .accepted | .applied | .waitPair | .exec | .ended _ => false

/-! ## Mailboxes (R166 to R171) and capture items -/

/-- Data words written from word 0 on, the rest zero. -/
def State.mbWords (s : State) (m : Nat) (ws : List Nat) : State :=
  (List.range 8).foldl (fun s k => s.put (MB_D_DATA m k) (ws.getD k 0)) s

/-- The value enters the mailbox: Full (Table 5-7). -/
def State.mbFill (s : State) (m : Fin 8) (ws : List Nat) : State :=
  let s := (s.mbWords m ws).put (MB_STAT_LEN m) ws.length
  let s := (s.put (MB_STAT_VALID m) 1).put (MB_STAT_STALE m) 0
  s.put (MB_STAT_DNUM m) ((s.g (MB_STAT_DNUM m) + 1) % 256)

/-- A delivery: taken at once by an Empty or Stale mailbox, held behind a Full value otherwise (Table 5-7). -/
def State.mbDeliver (s : State) (m : Fin 8) (ws : List Nat) : State :=
  if s.gb (MB_STAT_VALID m) then
    let s := if s.mbox[m].pend.isSome then s.inc (MB_STAT_LOST m) else s
    ({ s with mbox := vupd s.mbox m fun b => { b with pend := some ws } }).put (MB_STAT_PEND m) 1
  else s.mbFill m ws

/-- A capture item is delivered to every mailbox bound to it (R167). -/
def State.capture (s : State) (item idx : Nat) (ws : List Nat) : State :=
  (List.finRange 8).foldl (fun (s : State) (m : Fin 8) =>
    if s.gb (MB_REQ_MODE m) && s.g (MB_REQ_ITEM m) == item && s.g (MB_REQ_INDEX m) == idx && !s.gb (MB_STAT_BADREQ m) then
      s.mbDeliver m ws else s) s

/-- The two words of a signed 48-bit value (R166). -/
def words48 (i : Int) : List Nat := [pat 48 i % 2 ^ 32, pat 32 (sgn 16 (pat 48 i / 2 ^ 32))]

/-- The low word of the timestamp. -/
def State.ts32 (s : State) : Nat := s.now % 2 ^ 32

/-! ## Field clock and field book (R450 to R457) -/

/-- Milliseconds of the field clock. -/
def State.fieldMs (s : State) : Nat := s.surv.fcMs + (s.now - s.surv.fcAt) / msCyc 1

/-- The surveyor works: started and not halted (R448). -/
def State.surveyorRuns (s : State) : Bool := s.answers && !s.gb MG_SV_STAT_HALTED

/-- The surveyor takes up work: it runs and the supply has not failed; after a power fail it only finishes its records (R85). -/
def State.surveyorUp (s : State) : Bool := s.surveyorRuns && !s.power.holdup

/-- The surveyor halts: the words that it kept current hold their last values (R448). -/
def State.halt (s : State) : State :=
  if s.gb MG_SV_STAT_HALTED then s
  else
    let s := (s.put MG_FCLK_SECONDS (s.fieldMs / 1000)).put MG_FCLK_STAT_MS (s.fieldMs % 1000)
    (s.put MG_SV_STAT_QFILL s.surv.fbQ.length).put MG_SV_STAT_HALTED 1

/-- A record raised into the field-book queue (R448, R453). `src` and `hseq` name the frame that caused it. -/
def State.fbAddFrom (s : State) (src hseq typ : Nat) (payload : List Nat) : State :=
  if !(s.surveyorUp || (s.surveyorRuns && typ = 0x02)) then s
  else if s.surv.fbQ.length < 64 then
    let r : FbRec := {
      secs := s.fieldMs / 1000, ms := s.fieldMs % 1000, typ := typ,
      flags := b2n (s.gb MG_FCLK_STAT_SYNC) + 2 * b2n s.power.holdup, src := src, state := s.dev.code, hseq := hseq,
      payload := payload }
    s.su fun v => { v with fbQ := v.fbQ ++ [r] }
  else (s.su fun v => { v with lostSince := v.lostSince + 1 }).inc MG_FB_STAT_LOST

/-- A program pulse of the NVM starts now; it lasts 20 µs at most (R114). -/
def State.nvPulse (s : State) : State := s.bt fun b => { b with pulseEnd := s.now + usCyc 20 }

/-- A record that the module raises of itself. -/
def State.fbAdd (s : State) (typ : Nat) (payload : List Nat) : State := s.fbAddFrom 0 0 typ payload

/-- The `k` bytes of a number, most significant first. -/
def beBytes (k x : Nat) : List Nat := (List.range k).map fun i => x / 2 ^ (8 * (k - 1 - i)) % 256

/-! ## Program contexts: stopping (R441, R446) -/

/-- The value of capture item 0x43 (Table 15-8). -/
def item43 (x : Fin 4) (pc cause last ts : Nat) : List Nat :=
  [pc % 4096 + cause % 16 * 4096 + last % 256 * 65536 + x.val * 2 ^ 24, ts]

/-- Context `x` stops with a cause of Table 15-8: EV_PROG_STOP and the capture (R446). -/
def State.stopCtx (s : State) (x : Fin 4) (cause : Nat) : State :=
  if s.ctxs[x].running then
    let c := s.ctxs[x]
    let s := s.ctx x fun c => { c with running := false, trk := [], wait := .none }
    let s := s.evRaise (60 + x) 0 (cause % 16 * 4096 + c.pc % 4096)
    s.capture 0x43 x (item43 x c.pc cause c.lastSt s.ts32)
  else s

/-- Every context stops. -/
def State.stopAllCtx (s : State) (cause : Nat) : State := forFin 4 (fun x s => s.stopCtx x cause) s

/-! ## Coils and bridges -/

/-- The coil leaves the generator: no side is commanded and the regulator is at rest. -/
def Coil.release (c : Coil) : Coil :=
  { c with
    side1 := .off, side2 := .off, dead1 := none, dead2 := none, edges := [], phase := 3, gates := false, sp := 0,
    spIn := 0, spNew := false, xi := 0, duty := 0, drvAt := none, slots := [], openN := 0 }

/-- Both coils of an axis go high-Z. -/
def State.bridgesOff (s : State) (n : Fin 8) : State := (s.co (coilA n) Coil.release).co (coilB n) Coil.release

/-! ## Coordinated moves: the two sides of a pair (R279, R280) -/

/-- The stations whose moves act together with the move of `st`: itself, and its partner while both run. -/
def State.moveStations (s : State) (st : Fin 2) : List (Fin 2) :=
  match s.stations[st].mv with
  | none => []
  | some m =>
    let o : Fin 2 := 1 - st
    match s.stations[o].mv with
    | some m' => if m.pair != 0 && m.pair == m'.pair && !m.waiting && !m'.waiting then [0, 1] else [st]
    | none => [st]

/-- The axis is named in a coordinated move that executes or waits (R240). -/
def State.engaged (s : State) (n : Fin 8) : Bool :=
  match s.stations[stationOf n].mv with
  | some m => m.axes.contains n || m.out.contains n
  | none => false

/-- The axis takes its positions from the coordinated move that engages it (R278, R280). -/
def State.onLine (s : State) (n : Fin 8) : Bool :=
  match s.stations[stationOf n].mv with
  | some m => m.axes.contains n
  | none => false

/-! ## Entry to FAULT (R242, R253, R254, Table 9-2) -/

/-- The detail code of EV_AXIS_FAULT: 1-10 for `PWR_FLTCAUSEn` bits, 11-17 for `AXn_FAULT` bits (Table 17-1). -/
def faultCode (pwr ax : Nat) : Nat :=
  match (List.range 10).find? (fun i => bit pwr i) with
  | some i => i + 1
  | none => match (List.range 7).find? (fun i => bit ax i) with
    | some i => i + 11
    | none => 0

/-- The planner of an axis at rest: the planned position is held. -/
def Axis.rest (a : Axis) : Axis :=
  { a with
    vel := 0, acc := 0, prof := none, home := none, coord := none, zeroAt := none, rampAt := none, holdStart := false,
    closN := 0, closDue := false, closRep := false, hwdog := false }

/-- No profile executes: the planner's status words read so (Tables 9-3 to 9-5). -/
def State.planIdle (s : State) (n : Fin 8) : State :=
  ((s.setWord (AX_PLN_STAT_SEG n).a 0).put (AX_HOME_STAT_PHASE n) 0).setWord (AX_STATE_STATE n).a
    (W (setBits (s.word (AX_STATE_STATE n).a).toNat 6 2 0))

/-- The axis leaves FOLLOW: steps since the tick mark are ignored and counted, carried travel is lost (R283, R284). -/
def State.followLeave (s : State) (n : Fin 8) : State :=
  if s.axes[n].st == .follow then
    let k := (s.axes[n].fol.steps.filter fun x => decide (x.1 ≥ s.tick.mark)).length
    (s.addSat (AX_FOL_STAT_STEP_IGN n) k).ax n fun a => { a with fol := { FollowSt.init with lastStep := a.fol.lastStep } }
  else s

/-- A coordinated move loses an axis to FAULT: its parts end CANCELLED_FAULT at once, and the other axes decelerate along the
line at the quick rate (R280). The stop itself is built at the next tick's planner step (`quick` cause 0). -/
def State.faultMove (s : State) (n : Fin 8) : State :=
  if s.onLine n then
    (s.moveStations (stationOf n)).foldl (fun s t =>
      match s.stations[t].mv with
      | none => s
      | some m =>
        let s := m.ids.foldl (fun s id => s.endCmd id CANCELLED_FAULT) s
        let axes := m.axes.filter (fun k => k != n)
        let s := axes.foldl (fun s k => s.ax k fun a => if a.st == .moving then { a with st := .quiescing } else a) s
        let m' : MoveSt := { m with
          ids := [], axes := axes, out := if m.axes.contains n then n :: m.out else m.out, stopping := true, quick := true,
          waiting := false }
        s.stn t fun x => { x with mv := if axes.isEmpty || m.waiting then none else some m' }) s
  else s

/-- How a command of the axis's ring ends as the axis enters FAULT: the executing one with `st` (R242), unless an ending that
stands before it in R241 has fallen on it in this tick; a stop that waits for HOLD with CANCELLED_FAULT; others not at all. -/
def faultEnding (st : Nat) (c : Cmd) : Option Nat :=
  match c.ph with
  | .exec => some st
  | .applied => some CANCELLED_FAULT
  | .ending x => if (c.queued || isStakeOp c.op) && endRank st < endRank x then some st else none
  | .accepted | .waitPair | .ended _ => none

/-- Axis `n` enters FAULT, or, in FAULT already, records the further cause (R254). `pwr` and `ax` are the bits set in
`PWR_FLTCAUSEn` and `AXn_FAULT`; `st` is the ending of the executing command (R242). -/
def State.axisFault (s : State) (n : Fin 8) (pwr ax st : Nat) : State :=
  let was := s.axes[n].st
  let s := s.put (PWR_FLTCAUSE_BITS n) (s.g (PWR_FLTCAUSE_BITS n) ||| pwr)
  let s := s.put (AX_FAULT_BITS n) (s.g (AX_FAULT_BITS n) ||| ax)
  if was == .fault then s
  else
    s.gathered fun s =>
      let s := (s.faultMove n).followLeave n
      let s := (s.planIdle n).ax n fun a => { a.rest with st := .fault }
      let s := s.bridgesOff n
      let s := (cmdOrder (s.cmds.filter fun c => c.ring == n.val)).foldl (fun s c =>
        match faultEnding st c with
        | some x => s.endCmd c.id x
        | none => s) s
      s.pulse (40 + n) n (faultCode pwr ax)

/-- As `axisFault`, for an axis that is energised or in FAULT only. -/
def State.axisFaultIf (s : State) (n : Fin 8) (pwr ax st : Nat) : State :=
  if s.energised n || s.axes[n].st == .fault then s.axisFault n pwr ax st else s

/-- Every energised axis of a station enters FAULT with the causes; one in FAULT records them (Table 3-4, R254). -/
def State.stationFault (s : State) (st : Fin 2) (pwr : Nat) : State :=
  s.gathered fun s => (axesOf st).foldl (fun s n => s.axisFaultIf n pwr 0 CANCELLED_FAULT) s

/-! Bits of `PWR_FLTCAUSEn` (Table 3-17) and of `AXn_FAULT` (Table 9-4). -/
def fcOC (b : Bool) : Nat := if b then 2 else 1
def fcOPEN (b : Bool) : Nat := if b then 8 else 4
def fcUV : Nat := 16
def fcOV : Nat := 32
def fcREV : Nat := 64
def fcCLAMP : Nat := 128
def fcTEMP : Nat := 256
def fcMOIST : Nat := 512
def afSTALL : Nat := 1
def afCLOSURE : Nat := 2
def afHWDOG : Nat := 4
def afENC : Nat := 8
def afTRIP : Nat := 16
def afMEM : Nat := 32
def afSAFE : Nat := 64

/-! ## The moisture round (R94, R469 to R471) -/

/-- The axis of a line: feedback lines are numbered 3n + k, identity lines 24 + n (R470). -/
def mwAxis (l : Nat) : Fin 8 := ⟨(if l < 24 then l / 3 else l - 24) % 8, by omega⟩

/-- A feedback line carries a function in force: FBn_0 and FBn_1 with a feedback mode, FBn_2 with a function that works
(R56, R94). -/
def State.fbSelected (s : State) (l : Nat) : Bool :=
  let n := mwAxis l
  let fb := s.g (AX_PINSTAT_FB_ACT n)
  let f2 := s.g (AX_PINSTAT_FB2_ACT n)
  if l % 3 = 2 then decide (f2 ≥ 2) || (f2 == 1 && fb == 1) else fb != 0

/-- A line meets the conditions of a test: a feedback line with its axis in OFF, IDLE or FAULT and V5OUT off, an identity line
with a memory present and the identity bus idle. -/
def State.mwLineOk (s : State) (l : Nat) : Bool :=
  let n := mwAxis l
  s.flOn &&
  if l < 24 then s.fbSelected l && !s.energised n && !s.gb PWR_STAT_V5_ON
  else s.gBit MG_ID_PRES_PRESENT n && (List.finRange 8).all fun k => !(s.axes[k].mon.reading && s.axes[k].mon.retryAt.isNone)

/-- The line under test: MW_HOLD of its axis follows (R373). -/
def State.mwSet (s : State) (l : Option Nat) : State :=
  let s := match s.surv.mwCur with
    | some o => if o < 24 then s.put (AX_DP_STAT_MW_HOLD (mwAxis o)) 0 else s
    | none => s
  let s := match l with
    | some x => if x < 24 then s.put (AX_DP_STAT_MW_HOLD (mwAxis x)) 1 else s
    | none => s
  s.su fun v => { v with mwCur := l, mwAt := s.now }

/-- The round goes on with its next line that may be tested; skipped ones are counted, and the round ends after the last. -/
def State.mwNext (s : State) : State :=
  let skip := s.surv.mwLines.takeWhile fun l => !s.mwLineOk l
  let rest := s.surv.mwLines.drop skip.length
  let s := s.addSat MG_MW_STAT_SKIP skip.length
  match rest with
  | [] =>
    (((s.put MG_SV_STAT_MW_RUN 0).put MG_MW_STAT_ROUNDS ((s.g MG_MW_STAT_ROUNDS + 1) % 256)).mwSet none).su fun v => { v with
      mwLines := [] }
  | l :: t =>
    ((s.svu (stationOf (mwAxis l)) fun v => { v with moistRes := none }).mwSet (some l)).su fun v => { v with mwLines := t }

/-- The test in progress is abandoned: its result is discarded, the round goes on (R471). -/
def State.mwAbandon (s : State) : State := (s.inc MG_MW_STAT_ABANDON).mwNext

/-- The round stops: the surveyor or the survey converters it needs have stopped. -/
def State.mwStop (s : State) : State :=
  ((s.put MG_SV_STAT_MW_RUN 0).mwSet none).su fun v => { v with mwLines := [] }

/-- A feedback line is under test. -/
def State.mwFeedback (s : State) : Bool := s.surv.mwCur.any fun l => l < 24

/-- The line is under test, its pin function suspended (R94). -/
def State.mwOn (s : State) (l : Nat) : Bool := s.surv.mwCur == some l

/-- V5OUT is switched on: a feedback test in progress is abandoned (R471). -/
def State.v5Switch (s : State) : State :=
  let s := s.put PWR_STAT_V5_ON 1
  if s.mwFeedback then s.mwAbandon else s

/-! ## SAFE (R132) -/

/-- Bits of `DEV_STATE.SAFE_CAUSE` in the order of R132. -/
def scTICK : Nat := 0
def scMEM : Nat := 1
def scTEMP : Nat := 2
def scPOWER : Nat := 3
def scXCHK : Nat := 4
def scSWDOG : Nat := 5
def scHWDOG : Nat := 6

/-- The brake dump controller lets BRKG go (R72). -/
def State.dumpOff (s : State) : State := (s.put PWR_STAT_DUMP 0).pw fun p => { p with dumpEnd := none }

/-- The dump controller drives BRKG: a release asked for within the first 20 µs acts at their end (R72). -/
def State.dumpOn (s : State) : Bool := s.gb PWR_STAT_DUMP && !s.power.dumpEnd.any fun t => decide (t ≤ s.now)

/-- V5OUT follows its enable, the full-logic domain and SAFE (R82): switched off where it may not be on. -/
def State.v5Follow (s : State) : State :=
  let may := s.flOn && s.gb PWR_PATH_CFG_V5_EN && (s.dev != .safe || s.gb PWR_PATH_CFG_V5_SAFE)
    && s.dev != .recovery
  if may then
    if s.gb PWR_STAT_V5_ON || s.power.v5Off.isSome then s
    else s.v5Switch.pw fun p => { p with v5On := if s.gb PWR_STAT_V5_FAULT then some s.now else p.v5On }
  else (s.put PWR_STAT_V5_ON 0).pw fun p => { p with
    v5On := none,
    v5Off := if s.gb PWR_PATH_CFG_V5_EN then p.v5Off else none }

/-- The device enters SAFE: bridges open, axes to FAULT, commands cancelled, contexts stopped, event and record (R132). -/
def State.enterSafe (s : State) : State :=
  let fromReady := s.dev == .ready
  let s := { s with dev := .safe }
  let s := s.bt fun b => { b with fromReady := fromReady }
  let s := s.gathered fun s =>
    (forFin 8 (fun n s =>
      if s.axes[n].st == .off || s.axes[n].st == .idle then s else s.axisFault n 0 afSAFE CANCELLED_FAULT) s).endAll Cmd.live
        CANCELLED_FAULT
  let s := { s with stations := s.stations.map fun (x : Station) => { x with open_ := [], mv := none } }
  let s := s.stopAllCtx 11
  let s := s.dumpOff.v5Follow
  let s := s.levelOn 1 0 (s.g DEV_STATE_SAFE_CAUSE)
  s.fbAdd 0x05 [s.g DEV_STATE_SAFE_CAUSE]

/-- The last reading of a die sensor lies below the trip release level (R92). -/
def State.cool (s : State) (k : Fin 8) : Bool := decide (s.power.temps[k] < s.g PWR_TEMP_CFG_T_REL * 16)

/-- A SAFE cause becomes active (Table 4-4): READY and RUN go to SAFE, the other states of a running
surveyor keep it beside the others; entry to READY then meets it. -/
def State.safeCause (s : State) (i : Nat) : State :=
  match s.dev with
  | .ready | .run => (s.putBit DEV_STATE_SAFE_CAUSE i true).enterSafe
  | .safe | .boot | .configLoad | .recovery => s.putBit DEV_STATE_SAFE_CAUSE i true
  | .reset | .optionLoad => s

/-- A SAFE cause becomes inactive. -/
def State.safeClear (s : State) (i : Nat) : State := s.putBit DEV_STATE_SAFE_CAUSE i false

/-! ## Free values -/

/-- The next use of an open value: the counter of uses advances. -/
def State.useFree (s : State) : State := { s with free := s.free + 1 }

end Sys2Proof.Machine
end

