-- ==== Sys2Proof/Machine/Flags.lean ====
section
/-!
DEFINITION. The status words computed from the working state: every field that only mirrors it (device and axis states,
ring fill levels and positions, per-link registers, active levels) and the interrupt pins. `State.view` is the one reading of
a register; it changes nothing.
-/

namespace Sys2Proof.Machine

/-- A word with one field replaced. -/
def ov (w : Word) (f : Fld) (v : Nat) : Word := W (setBits w.toNat f.lo f.w v)

/-- A word with several fields replaced, in order. -/
def ovs (w : Word) (l : List (Fld × Nat)) : Word := l.foldl (fun w x => ov w x.1 x.2) w

/-- Bits gathered from a truth value per index, index 0 in bit 0. -/
def gather (k : Nat) (f : Nat → Bool) : Nat := (List.range k).foldl (fun x i => x + b2n (f i) * 2 ^ i) 0

/-! ## Command rings -/

/-- Commands that occupy an entry of ring `r` (R227). -/
def State.fill (s : State) (r : Nat) : Nat := (s.cmds.filter (fun c => c.ring == r)).length

/-- The command is in flight and does not execute: one cancelled before it began stays so until its commit point (R235, R251). -/
def Cmd.waits (c : Cmd) : Bool :=
  match c.ph with
  | .accepted | .waitPair => true
  | .ending _ => !c.ran
  | .applied | .exec | .ended _ => false

/-- Queued commands of ring `r` that do not execute. -/
def State.queuedOf (s : State) (r : Nat) : Nat := (s.cmds.filter (fun c => c.ring == r && c.queued && c.waits)).length

/-- Chain mode is in force (R195). -/
def State.chainOn (s : State) : Bool := s.gb LNK_SPI_STAT_MODE_ACT

/-- A tag is in flight, or reserved for chain mode (R200, R201, R234). -/
def State.tagBusy (s : State) (t : Nat) : Bool := s.cmds.any (fun c => c.tag == t) || (s.chainOn && t ≥ 0x3F8)

/-- STATE and RING of a tag query (R235). -/
def State.tagState (s : State) (t : Nat) : Nat × Nat :=
  match s.cmds.find? (fun c => c.tag == t) with
  | some c =>
    (match c.ph with
      | .accepted | .waitPair | .applied | .exec | .ending _ => if c.waits then 1 else 2
      | .ended _ => 3, c.ring)
  | none => if s.chainOn && t ≥ 0x3F8 then (4, 0) else (0, 0)

/-- The STAT word of a command ring. -/
def State.cringStat (s : State) (r : Nat) : Word :=
  let e := s.execShown r
  ovs 0 [(CRNG_STAT_FILL r, s.fill r), (CRNG_STAT_QUEUED r, s.queuedOf r), (CRNG_STAT_EXEC r, b2n e.isSome),
    (CRNG_STAT_FULL r, b2n (s.fill r == cmdDepth r)), (CRNG_STAT_EXEC_TAG r, (e.map Cmd.tag).getD 0)]

/-! ## Record rings -/

/-- The link's read position of ring 11 + `q`: SEQ and AUTO. -/
def LinkSt.peekWord (l : LinkSt) (q : Nat) : Word := kvGet l.peek (11 + q) 0x10000

/-- The record that a position names, if held (R246); a discarded one is gone (Table 1-10). -/
def RecRing.at (r : RecRing) (seq : Nat) : Option (BitVec 64) :=
  if r.lost.contains seq then none else r.recs[(seq + 65536 - r.old) % 65536]?

/-- The record at a link's read position. -/
def State.peeked (s : State) (l : Link) (q : Fin 5) : Option (BitVec 64) :=
  s.rings[q].at ((s.link l).peekWord q).toNat.toUInt16.toNat

/-- The STAT word of a record ring. -/
def State.rringStat (s : State) (q : Fin 5) : Word :=
  let r := 11 + q.val
  ovs 0 [(RRNG_STAT_FILL r, s.heldRecs q), (RRNG_STAT_WATER_HIT r, b2n (s.waterHit q)),
    (RRNG_STAT_BACKLOG r, b2n (q == 0 && s.backlogged)), (RRNG_STAT_FULL r, b2n (s.heldRecs q ≥ recDepth q))]

/-- A word of a record ring's registers at offset `o`, as link `l` reads it (Table 8-9). -/
def State.rringView (s : State) (l : Link) (q : Fin 5) (o : Nat) (base : Word) : Word :=
  let r := 11 + q.val
  match o with
  | 1 => s.rringStat q
  | 2 => ovs 0 [(RRNG_SEQ_OLD r, s.rings[q].old), (RRNG_SEQ_NEXT r, s.rings[q].next)]
  | 3 => ov ((s.link l).peekWord q) (RRNG_PEEK_HELD r) (b2n (s.peeked l q).isSome)
  | 4 => match s.peeked l q with
    | some x => W (x.toNat % 2 ^ 32)
    | none => 0xFFFFFFFF
  | 5 => if q = 2 then 0 else match s.peeked l q with
    | some x => W (x.toNat / 2 ^ 32)
    | none => 0xFFFFFFFF
  | _ => base

/-- A word of a command ring's registers at offset `o` (Table 8-8). -/
def State.cringView (s : State) (l : Link) (r o : Nat) (base : Word) : Word :=
  match o with
  | 0 | 1 | 2 | 3 => kvGet (s.link l).stg (4 * r + o) 0
  | 4 => kvGet (s.link l).commit r 0
  | 5 => s.cringStat r
  | _ => base

/-! ## Event status -/

/-- ACTIVE of event group `m` (R476). -/
def State.activeBits (s : State) (m : Nat) : Nat := gather 8 fun i => s.levels.any fun x => x.1 == 8 * m + i

/-- IRQx_N is driven low: an event is pending and routed (R477). The pins are released from the start of a core reset to
its release, and wherever the port is not active (R61, Table 2-7). -/
def State.irqLow (s : State) (x : Fin 2) : Bool :=
  s.answers && !s.boot.coreOn && !s.power.dead &&
  (List.range 8).any fun m =>
    (List.range 8).any fun i => s.gBit (DEV_EVST_PEND m) i &&
      s.gBit (if x = 0 then DEV_EVRT_IRQ0 m else DEV_EVRT_IRQ1 m) i

/-! ## Strobe groups -/

/-- A coil's PWM-class values are pending from a strobe. -/
def State.coilPend (s : State) (c : Fin 16) : Bool := s.coils[c].pend.isSome

/-- The group's pending bit (R157). -/
def State.groupPend (s : State) (g : Fin 11) : Bool :=
  s.groups[g].pend.isSome ||
  (if h : g.val < 8 then s.coilPend (coilA ⟨g.val, h⟩) || s.coilPend (coilB ⟨g.val, h⟩) else false)

/-! ## Domains of the register map -/

/-- A direct address that belongs to the keep-alive domain (R78, R139). -/
def kaAddr (a : Nat) : Bool := a < 0x80 || (0x140 ≤ a && a ≤ 0x1C0) || (0x200 ≤ a && a < 0x280)

/-- An address that RECOVERY serves: the DEV_, LNK_ and PWR_ registers, with CLK_STAT (R128, R143). -/
def recoveryAddr (a : Nat) : Bool :=
  a < 0x80 || (0x140 ≤ a && a ≤ 0x1C0) || (0x200 ≤ a && a < 0x280 && 12 ≤ a % 16)

/-- The register answers in the present state (R79, R128, R226). -/
def State.served (s : State) (a : Nat) : Bool :=
  (if s.dev == .recovery then recoveryAddr a else true) && (kaAddr a || s.flOn)

/-! ## Coils: claims on the gates and the sync chain -/

/-- An assigned trip latch claims the axis (row 3 of Table 11-4). -/
def State.tripHeld (s : State) (n : Fin 8) : Bool :=
  (List.range 4).any fun t => bit (s.g PWR_TRIP_STAT_LATCH) t && bit (s.g (PWR_TRIP_CFG_AXMASK t)) n

/-- The coil's turn in phases 2 and 3 of the identity check: coil A the first 20 ms of phase 2, coil B the next 20 ms, both in
phase 3 (R313, R314). -/
def State.testTurn (s : State) (c : Fin 16) : Bool :=
  match s.axes[axisOf c].idc with
  | some d =>
    let el := s.now - d.t0
    (d.pair == 7 && (if c = coilA (axisOf c) then decide (el < msCyc 20) else decide (msCyc 20 ≤ el) && decide (el < msCyc 40)))
      || d.pair == 8
  | none => false

/-- The coil is regulated at the test current of phase 2: mode 1 at a period of 25 µs (R313). -/
def State.testReg (s : State) (c : Fin 16) : Bool := s.testTurn c && (s.axes[axisOf c].idc).any fun d => d.pair == 7

/-- Row 4 of Table 11-4 claims the coil; RECOVERY keeps the bridges off as SAFE does (R128). While an identity check runs, which
it does in OFF or IDLE alone (R311), those states do not claim the coil: row 5 could not act below them. DEDUCED (log entry 58). -/
def State.row4 (s : State) (c : Fin 16) : Bool :=
  s.gBit PWR_COILFLT_OC c || (!s.energised (axisOf c) && s.axes[axisOf c].idc.isNone) || s.dev == .safe || s.dev == .recovery
    || !s.gb (PWR_STAT_VM_OK (stationOfCoil c))

/-- The head of the sync chain emits (R330). -/
def State.headOn (s : State) : Bool := s.coils[0].on && s.coils[0].mode < 2

/-- The coil is synchronised (R331). -/
def State.synced (s : State) (c : Fin 16) : Bool :=
  s.coils[c].on && !s.testReg c && s.gb (CO_PWM_CFG_SYNC_EN c) && s.coils[c].mode < 2 && s.headOn

/-- A word of a coil's sub-block (offset `o` in it). -/
def State.coilView (s : State) (c : Fin 16) (o : Nat) (base : Word) : Word :=
  let k := s.coils[c]
  match o with
  | 5 => ov base (CO_REG_STAT_NEG c) (b2n (k.neg && k.gates))
  | 10 =>
    let t := s.tripHeld (axisOf c)
    ovs base [(CO_PWM_STAT_SYNCED c, b2n (s.synced c)),
      (CO_PWM_STAT_PER_ACT c, if s.synced c then k.pj * 16 else base.toNat / 2 ^ 12),
      (CO_PWM_STAT_SYNC_LOST c, b2n (k.on && s.gb (CO_PWM_CFG_SYNC_EN c) && k.mode < 2 && !s.headOn)),
      (CO_PWM_STAT_GATES_OFF c, b2n (t || s.row4 c)), (CO_PWM_STAT_TRIPPED c, b2n t)]
  | _ => base

/-! ## Words of the axis block that mirror the planner -/

/-- The STATE word of axis `n` (Table 9-4). -/
def State.axState (s : State) (n : Fin 8) : Word :=
  ovs (s.word (AX_STATE_STATE n).a) [(AX_STATE_STATE n, s.axes[n].st.code), (AX_STATE_ENGAGED n, b2n (s.engaged n))]

/-- A word of an axis block (offset `o`). -/
def State.axView (s : State) (n : Fin 8) (o : Nat) (base : Word) : Word :=
  let a := s.axes[n]
  if o = 0x00 then s.axState n
  else if o = 0x44 && !a.st.energised then ov base (AX_SEQ_STAT_AMP n) 0
  else if o = 0x45 && !a.st.energised then 0
  else if o = 0x78 && !a.st.energised then ovs base [(AX_OBS_LA_LA n, 0), (AX_OBS_LA_VALID n, 0), (AX_OBS_LA_SRC n, 0)]
  else if o = 0x08 then W (pat 32 (a.vel / 65536))
  else if o = 0x09 then W (pat 32 (satS 32 (a.acc / 65536)))
  else if 0x50 ≤ o && o < 0x60 then s.coilView (coilA n) (o - 0x50) base
  else if 0x60 ≤ o && o < 0x70 then s.coilView (coilB n) (o - 0x60) base
  else base

/-- A word of a station block. -/
def State.stView (s : State) (st : Fin 2) (o : Nat) (base : Word) : Word :=
  match o with
  | 1 =>
    let m := s.stations[st].mv
    ovs base [(ST_COORD_STAT_OPEN st, b2n (!s.stations[st].open_.isEmpty)),
      (ST_COORD_STAT_EXEC st, b2n (m.any fun m => !m.waiting)),
      (ST_COORD_STAT_WAIT_PAIR st, b2n (m.any fun m => m.waiting)),
      (ST_COORD_STAT_AXES st, (m.map fun m => gather 4 fun i => (m.axes ++ m.out).any fun k => k.val == 4 * st.val + i).getD 0),
      (ST_COORD_STAT_PAIR st, (m.map (·.pair)).getD 0)]
  | _ => base

/-! ## The reading of a direct register -/

/-- The word that a read of direct address `a` on link `l` returns, side effects apart (R141, R145). -/
def State.view (s : State) (l : Link) (a : Nat) : Word :=
  if !s.served a then 0
  else
    let base := s.word a
    let k := s.link l
    if a = 0x10 then ov base DEV_STATE_STATE s.dev.code
    else if a = 0x140 then ov base PWR_STAT_DUMP (b2n s.dumpOn)
    else if a = 0x22 then
      ovs base [(DEV_UPDATE_STAT_AX_PEND, gather 8 fun i => if h : i < 11 then s.groupPend ⟨i, h⟩ else false),
        (DEV_UPDATE_STAT_ST_PEND, gather 2 fun i => if h : 8 + i < 11 then s.groupPend ⟨8 + i, h⟩ else false),
        (DEV_UPDATE_STAT_GL_PEND, b2n (s.groupPend 10))]
    else if a = 0x23 then
      ovs base [(DEV_ACCSTAT_ARMED_SPI, b2n (s.link .spi).armed), (DEV_ACCSTAT_ARMED_LNK, b2n (s.link .gr).armed)]
    else if a = 0x24 then
      ovs 0 [(DEV_IND_ADDR_ADDR, k.ptr), (DEV_IND_ADDR_INC, b2n k.inc), (DEV_IND_ADDR_PAST_END, b2n k.pastEnd)]
    else if a = 0x26 then
      ovs 0 [(DEV_IND_STAT_RBUSY, b2n k.rbusy), (DEV_IND_STAT_WBUSY, b2n (!s.indQ.isEmpty)),
        (DEV_IND_STAT_WQ, s.indQ.length), (DEV_IND_STAT_ERR, b2n k.err)]
    else if 0x80 ≤ a && a < 0x140 then
      let r := (a - 0x80) / 12
      let o := (a - 0x80) % 12
      if a = 0x100 then
        ovs 0 [(RNG10_TAGQ_TAG, k.tagq), (RNG10_TAGQ_STATE, (s.tagState k.tagq).1), (RNG10_TAGQ_RING, (s.tagState k.tagq).2)]
      else if r < 11 then s.cringView l r o base
      else if h : r - 11 < 5 then s.rringView l ⟨r - 11, h⟩ o base
      else base
    else if 0x200 ≤ a && a < 0x280 && a % 16 = 14 then
      ov base (DEV_EVST_ACTIVE ((a - 0x200) / 16)) (s.activeBits ((a - 0x200) / 16))
    else if 0x400 ≤ a && a < 0x600 then
      s.stView (if a < 0x500 then 0 else 1) (a % 0x100) base
    else if 0x800 ≤ a && a < 0x1000 then
      if h : (a - 0x800) / 0x100 < 8 then s.axView ⟨(a - 0x800) / 0x100, h⟩ (a % 0x100) base else base
    else base

/-- DEV_STATE as a reply carries it (Table 6-4). -/
def State.devState (s : State) : Nat := (s.view .spi 0x10).toNat

/-- EVSUM: bit g for an unreleased record of an event 8g to 8g + 7 (R177). -/
def State.evsum (s : State) : Nat :=
  gather 8 fun g => s.rings[1].recs.any fun x => bits x.toNat 42 6 / 8 == g

/-- ALERT: the device is in SAFE or RECOVERY. -/
def State.alert (s : State) : Bool := s.dev == .safe || s.dev == .recovery

end Sys2Proof.Machine
end

