-- ==== Sys2Proof/Machine/Monument.lean ====
section
/-!
DEFINITION. Monument values in force (R424 to R428): the record read from an axis's identity memory, the overrides of the
configuration image, and the value that each user of Table 15-2 takes.
-/

namespace Sys2Proof.Machine

/-- A big-endian field of `k` bytes at offset `o`. -/
def beAt (l : List Byte) (o k : Nat) : Nat := (List.range k).foldl (fun x i => x * 256 + (l.getD (o + i) 0).toNat) 0

/-- A field of the monument data in force of an axis: from the image where mask bit `b` overrides it, else from the record,
else none (R426, Table 15-6). -/
def MonSt.field (m : MonSt) (b o k : Nat) : Option Nat :=
  if bit m.ovrMask b then some (beAt m.ovr o k) else if m.image.isEmpty then none else some (beAt m.image o k)

/-- Full steps per revolution; 200 with none in force (Table 15-2). -/
def MonSt.steps (m : MonSt) : Nat := (m.field 0 0x1C 2).getD 200
/-- Rated peak coil current, mA. -/
def MonSt.irated (m : MonSt) : Option Nat := m.field 1 0x1E 2
/-- Winding resistance, mΩ. -/
def MonSt.rcoil (m : MonSt) : Option Nat := m.field 2 0x20 2
/-- Winding inductance, µH; 0 with none in force. -/
def MonSt.lcoil (m : MonSt) : Nat := (m.field 3 0x22 2).getD 0
/-- Encoder counts per revolution. -/
def MonSt.cpr (m : MonSt) : Option Nat := m.field 4 0x25 3
/-- Encoder type. -/
def MonSt.encType (m : MonSt) : Nat := (m.field 4 0x28 1).getD 0
/-- Supply of the pull-out curve, mV. -/
def MonSt.vmref (m : MonSt) : Option Nat := m.field 5 0x2A 2
/-- Points of the pull-out curve. -/
def MonSt.npts (m : MonSt) : Nat := (m.field 5 0x2C 1).getD 0
/-- Point `i` of the pull-out curve: speed in 1/256 rev/s and torque in mN·m. -/
def MonSt.point (m : MonSt) (i : Nat) : Nat × Nat :=
  ((m.field 5 (0x30 + 4 * i) 2).getD 0, (m.field 5 (0x32 + 4 * i) 2).getD 0)
/-- A pull-out curve is in force (R426). -/
def MonSt.curveOk (m : MonSt) : Bool := m.npts ≥ 2 && m.vmref.isSome && m.irated.isSome

/-- Word `k` of the record in force, as the indirect space shows it (R424). -/
def MonSt.word (m : MonSt) (k : Nat) : Nat := if m.image.isEmpty then 0 else beAt m.image (4 * k) 4

/-! ## Axis scales (R294) -/

/-- Full scale in mA of a RANGE code. -/
def fsOf (r : Nat) : Nat := if r = 0 then 1500 else if r = 1 then 3000 else 6000

/-- Axis full scale, mA. -/
def State.fs (s : State) (n : Fin 8) : Nat := fsOf (s.g (AX_SEQ_STAT_RANGE_ACT n))

/-- VMB of a station, mV (R71). -/
def State.vmb (s : State) (st : Fin 2) : Nat := s.g (if st = 0 then PWR_VMS_VM0 else PWR_VMS_VM1)

end Sys2Proof.Machine
end

