-- ==== Sys2Proof/Machine/Trig.lean ====
section
/-!
DEFINITION. Integer trigonometry: the quarter-wave table of R291, sines and cosines of rational parts of a turn, and the
angle of a vector. Everything is exact integer arithmetic with 60 fractional bits, rounded where the rule rounds.
-/

namespace Sys2Proof.Machine

/-- π/2 with 60 fractional bits. -/
def halfPi : Nat := 1811004864519280710

/-- Series of the sine: `term`, `k` of the factorial, `n` terms left, squared argument; 60 fractional bits. -/
def sinSer (x2 : Nat) : Nat → Nat → Nat → Nat
  | 0, _, _ => 0
  | n + 1, k, t => t - sinSer x2 n (k + 2) (t * x2 / 2 ^ 60 / ((k + 1) * (k + 2)))

/-- The sine of an angle in the first quadrant, 60 fractional bits. -/
def sinFx (x : Nat) : Nat := sinSer (x * x / 2 ^ 60) 13 1 x

/-- sin(π/2 · r/n) with 60 fractional bits, for r ≤ n. -/
def sinQuad (r n : Nat) : Nat := if r ≥ n then 2 ^ 60 else sinFx (halfPi * r / n)

/-- The table S[i] of R291; S[4,096] is 65,536. -/
def sineTab (i : Nat) : Nat := (sinQuad i 4096 + 2 ^ 43) / 2 ^ 44

/-- sin(2π · a/n) with 30 fractional bits. -/
def sinTurn (a : Int) (n : Nat) : Int :=
  let m := (a % (n : Int)).toNat * 4
  let q := m / n
  let r := m % n
  let f := fun (x : Nat) => ((x + 2 ^ 29) / 2 ^ 30 : Nat)
  if q = 0 then f (sinQuad r n) else if q = 1 then f (sinQuad (n - r) n)
  else if q = 2 then -(f (sinQuad r n) : Int) else -(f (sinQuad (n - r) n) : Int)

/-- cos(2π · a/n) with 30 fractional bits. -/
def cosTurn (a : Int) (n : Nat) : Int := sinTurn (4 * a + n) (4 * n)

/-- The largest k whose angle k/n of a quadrant does not exceed that of (x, y), both not negative. -/
def atanGo (x y n : Nat) : Nat → Nat → Nat
  | 0, k => k
  | b + 1, k =>
    let c := k + 2 ^ b
    atanGo x y n b (if c ≤ n ∧ x * sinQuad c n ≤ y * sinQuad (n - c) n then c else k)

/-- The angle of a vector of the first quadrant in units of a quadrant's n-th part, rounded to the nearest. -/
def atanQuad (x y n : Nat) : Nat := (atanGo x y (2 * n) 16 0 + 1) / 2

/-- The angle atan2(y, x) in units of 1/n of a quadrant, from -2n to 2n. -/
def atan2u (y x : Int) (n : Nat) : Int :=
  if x = 0 ∧ y = 0 then 0
  else if 0 ≤ x ∧ 0 ≤ y then atanQuad x.natAbs y.natAbs n
  else if x < 0 ∧ 0 ≤ y then 2 * n - (atanQuad x.natAbs y.natAbs n : Int)
  else if x < 0 then (atanQuad x.natAbs y.natAbs n : Int) - 2 * n
  else -(atanQuad x.natAbs y.natAbs n : Int)

end Sys2Proof.Machine
end

