-- ==== Sys2Proof/Machine/Backdrive.lean ====
section
/-!
DEFINITION. The back-drive watch (R358, R359).
-/

namespace Sys2Proof.Machine

open Host

/-- The watch runs: enabled, bridges open, device in READY, RUN or SAFE (R358). -/
def State.bdWatch (s : State) (n : Fin 8) : Bool :=
  s.gb (AX_OBS_CFG_BD_EN n) && !s.energised n && (s.dev == .ready || s.dev == .run || s.dev == .safe) && s.flOn

/-- The watch changed. -/
def State.bdu (s : State) (n : Fin 8) (f : BackdriveSt → BackdriveSt) : State := s.ax n fun a => { a with bd := f a.bd }

/-- Coil voltages of the last set, mV. -/
def BackdriveSt.coilV (b : BackdriveSt) : Int × Int :=
  (((b.v.getD 0 0 : Nat) : Int) - (b.v.getD 1 0 : Nat), ((b.v.getD 2 0 : Nat) : Int) - (b.v.getD 3 0 : Nat))

/-- Magnitude of the last set, mV. -/
def BackdriveSt.mag (b : BackdriveSt) : Nat := isqrt (b.coilV.1.natAbs ^ 2 + b.coilV.2.natAbs ^ 2)

/-- TRAVEL as the register shows it. -/
def State.bdShow (s : State) (n : Fin 8) : State :=
  let b := s.axes[n].bd
  if s.gb (AX_BD_STAT_ACTIVE n) then
    (s.putI (AX_BD_TRAVEL_TRAVEL n) (satS 32 b.travel)).putB (AX_BD_STAT_ALIAS n) b.alias_
  else s

/-- A complete set of four samples: magnitude, angle, travel (R358, R359). -/
def State.bdSet (s : State) (n : Fin 8) : State :=
  let b := s.axes[n].bd
  let lvl := s.g (AX_BD_CFG_BD_LVL n)
  let m := b.mag
  let half := decide (2 * m > lvl)
  let psi : Option Int := if half then some (atan2u b.coilV.2 b.coilV.1 4096) else none
  let slow := b.late
  let b := { b with
    late := false,
    above := if m ≥ lvl && !slow then some (b.above.getD s.now) else none,
    below := if 2 * m < lvl then some (b.below.getD s.now) else none,
    peak := max b.peak m }
  let b := match b.psi, psi with
    | some p, some q =>
      let d := sgn 14 (pat 14 (q - p))
      if d.natAbs ≥ 4096 then { b with alias_ := true, psi := some q } else { b with travel := b.travel + d, psi := some q }
    | none, some q =>
      -- a new run above half the level: travel starts with it unless an episode is in progress
      if s.gb (AX_BD_STAT_ACTIVE n) then { b with psi := some q } else { b with travel := 0, alias_ := false, psi := some q }
    | _, none => { b with psi := none }
  ((s.bdu n fun _ => b).putB (AX_BD_STAT_NOSRC n) slow).bdShow n

/-- A channel of the axis has gone longer than 1 ms without a sample (R358). -/
def State.bdStarved (s : State) (n : Fin 8) : Bool := s.axes[n].bd.at_.any fun t => decide (s.now - t > msCyc 1)

/-- The watch stops for want of samples (R358). -/
def State.bdStop (s : State) (n : Fin 8) : State :=
  (s.put (AX_BD_STAT_NOSRC n) 1).bdu n fun b => { b with above := none, psi := none }

/-- A sample of terminal channel `k` of an axis, mV (R358). -/
def State.bdSample (s : State) (n : Fin 8) (k : Nat) (mv : Nat) : State :=
  let late := s.bdStarved n
  let s := s.bdu n fun b => { b with at_ := b.at_.set k s.now, late := b.late || late }
  if s.bdWatch n then
    let s := if late then s.bdStop n else s
    let s := s.bdu n fun b => { b with v := b.v.set k mv, got := b.got ||| 2 ^ k }
    if s.axes[n].bd.got = 15 then (s.bdu n fun b => { b with got := 0 }).bdSet n else s
  else s

/-- At a tick mark the watch that runs stops for want of samples; one that does not run forms no run of samples (R358). -/
def State.bdTick (s : State) (n : Fin 8) : State :=
  if s.bdWatch n then (if s.bdStarved n then s.bdStop n else s)
  else (s.put (AX_BD_STAT_NOSRC n) 0).bdu n fun b => { b with above := none, below := none, psi := none, got := 0 }

/-- An episode ends (R359). -/
def State.bdEnd (s : State) (n : Fin 8) : State :=
  if !s.gb (AX_BD_STAT_ACTIVE n) then s
  else
    let b := s.axes[n].bd
    let ms := (s.now - b.start) / msCyc 1
    let pk := satU 16 b.peak
    let s := (s.put (AX_BD_STAT_ACTIVE n) 0).putB (AX_BD_STAT_DIR n) (decide (b.travel < 0))
    let s := (s.put (AX_BD_STAT_PEAK n) pk).inc (AX_BD_STAT_EPISODES n)
    let s := s.capture 0x41 n (words48 b.travel ++ [pk + b2n b.alias_ * 65536, ms % 2 ^ 32, s.ts32])
    let s := s.fbAdd 0x21 ([n.val, b2n b.alias_] ++ beBytes 2 pk ++ beBytes 2 (satU 16 ms) ++ beBytes 6 (pat 48 b.travel))
    s.bdu n fun _ => { BackdriveSt.init with at_ := b.at_, late := b.late, v := b.v }

/-- BACKDRIVE_EPISODE_START: the magnitude has stayed at or above BD_LVL for BD_TIME ms (R359). -/
def execBackdriveEpisodeStart (dt : Nat) (n : Fin 8) (s : State) : Outcome State Fault Refusal :=
  let s := s.tickTo dt
  let b := s.axes[n].bd
  let long := match b.above with
    | some t => decide (s.now - t ≥ msCyc (or1 (s.g (AX_BD_CFG_BD_TIME n))))
    | none => false
  done (if s.bdWatch n && !s.gb (AX_BD_STAT_ACTIVE n) && !s.gb (AX_BD_STAT_NOSRC n) && long then
    let s := (s.put (AX_BD_STAT_ACTIVE n) 1).bdu n fun b => { b with start := s.now, peak := b.mag }
    let s := (s.put (AX_BD_STAT_ALIAS n) 0).bdShow n
    let s := s.pulse 34 n 0
    if s.g (AX_PINSTAT_FB_ACT n) = 0 then s.put (AX_STATE_REF n) 0 else s
  else s)

/-- BACKDRIVE_EPISODE_END: the magnitude has stayed below BD_LVL/2 for BD_QUIET ms (R359). -/
def execBackdriveEpisodeEnd (dt : Nat) (n : Fin 8) (s : State) : Outcome State Fault Refusal :=
  let s := s.tickTo dt
  let long := match s.axes[n].bd.below with
    | some t => decide (s.now - t ≥ msCyc (or1 (s.g (AX_BD_CFG_BD_QUIET n))))
    | none => false
  done (if s.bdWatch n && long then s.bdEnd n else s)

end Sys2Proof.Machine
end

