-- ==== Sys2Proof/Config.lean ====
section
/-!
DEFINITION. What one part or one cabinet fixes and the spec leaves open. Every constant here is opaque: nothing can compute
or prove a value of it, so a statement holds whatever it is.
-/

namespace Sys2Proof

/-- A fresh value that the spec leaves open, by the number of its use (log entry 5). -/
opaque Config.freeValue : Nat → BitVec 64

/-- The temperature in 1/16 °C that a die sensor's conversion stands for, by sensor and conversion code: the spec gives no
law from code to temperature (log entry 6). -/
opaque Config.dieTemp : Nat → BitVec 16 → BitVec 16

/-- Bytes 0-63 of the factory public key in the boot ROM (R460): the spec does not print it (log entry 7). -/
opaque Config.factoryKey : BitVec 512

/-- The temperature in 1/16 °C that a part's trims give a keep-alive monitor code (Table 16-1), by sensor (log entry 6). -/
opaque Config.kaTemp : Nat → BitVec 16 → BitVec 16

end Sys2Proof
end

