-- ==== Sys2Proof/Machine/Datum.lean ====
section
/-!
DEFINITION. The datum port (R367 to R394): counting, scaling, absolute words, speed, index and direction checks, the encoder
fault.
-/

namespace Sys2Proof.Machine

open Host

/-! ## Scaling (R374) -/

/-- Counts per revolution in force: the register's, else the monument data's (R374). -/
def State.cprOf (s : State) (n : Fin 8) : Option Nat :=
  let r := s.g (AX_DP_SCALE_CPR n)
  if r ≠ 0 then some r else
    match s.axes[n].mon.cpr with
    | some x => if x ≠ 0 then some x else none
    | none => none

/-- Microsteps per revolution. -/
def State.mpr (s : State) (n : Fin 8) : Nat := 4096 * s.axes[n].mon.steps

/-- Counts scaled to microsteps: the floor of the exact quotient (R374). -/
def State.scale (s : State) (n : Fin 8) (k : Int) : Int :=
  match s.cprOf n with
  | some c => k * s.mpr n / c
  | none => k

/-- Integer part of the planned position (R256). -/
def Axis.planned (a : Axis) : Int := a.pos / 65536

/-- The measured position for a count `c` (R374, R379). -/
def State.measuredAt (s : State) (n : Fin 8) (c : Int) : Int :=
  let fb := s.g (AX_PINSTAT_FB_ACT n)
  let a := s.axes[n]
  if fb = 0 then 0
  else if fb = 2 && !s.gb (AX_DP_STAT_WORD_OK n) then a.planned
  else a.dp.moff + s.scale n (c - a.dp.coff)

/-- The count wraps modulo 2^48 (R367). -/
def wrap48 (i : Int) : Int := sgn 48 (pat 48 i)

/-! ## Restart, datum, encoder fault -/

/-- The datum port restarts (R371). -/
def State.dpRestart (s : State) (n : Fin 8) : State :=
  let p := s.axes[n].planned
  let st := s.word (AX_DP_STAT_PEND n).a
  -- PEND and MW_HOLD are kept, every other status bit clears
  let s := s.setWord (AX_DP_STAT_PEND n).a (W (st.toNat &&& 0x4001))
  let s := (s.put (AX_DP_SPEED_SPEED n) 0).put (AX_DP_COUNT_COUNT n) 0
  s.dpt n fun d =>
    { DatumSt.init with
      moff := p, m := p, a := d.a, b := d.b, lastT := s.now, held := d.held, dirMot := d.dirMot }

/-- A cause of the encoder fault (R391). -/
def State.encFault (s : State) (n : Fin 8) (i : Nat) : State :=
  let s := s.putBit (AX_DP_STAT_FLT_CAUSE n) i true
  if s.gb (AX_DP_STAT_ENC_FLT n) then s
  else
    let c := s.g (AX_DP_STAT_FLT_CAUSE n)
    let s := (s.put (AX_DP_STAT_ENC_FLT n) 1).pulse 37 n c
    let s := s.fbAdd 0x25 [n.val, c]
    if s.gb (AX_DP_CFG_ENC_ACT n) then s.dpt n fun d => { d with encDue := true } else s

/-- A write of CLR_FLT (R392). -/
def State.encClear (s : State) (n : Fin 8) : State :=
  let fresh := s.gb (AX_DP_STAT_ENC_FLT n) && s.gWas (AX_DP_STAT_ENC_FLT n) = 0
  let s := if fresh then s else (s.put (AX_DP_STAT_ENC_FLT n) 0).put (AX_DP_STAT_FLT_CAUSE n) 0
  let s := s.put (AX_DP_STAT_MIS_CONSEC n) 0
  s.dpt n fun d => { d with fConsec := 0, ci := none, cm := d.c }

/-! ## Index checks (R385 to R388) -/

/-- The index checks run, with this many counts between marks (R385). -/
def State.idxPeriod (s : State) (n : Fin 8) : Option Nat :=
  if s.g (AX_PINSTAT_FB_ACT n) = 1 && s.g (AX_PINSTAT_FB2_ACT n) = 1 && s.gb (AX_DP_CFG_IDX_EN n) then s.cprOf n else none

/-- One mismatch toward the consecutive count, and the fault at three (R387, R388). -/
def State.idxMiss (s : State) (n : Fin 8) : State :=
  let s := s.inc (AX_DP_CNT_IDX_MIS n)
  let k := min 3 (s.g (AX_DP_STAT_MIS_CONSEC n) + 1)
  let s := s.put (AX_DP_STAT_MIS_CONSEC n) k
  if k = 3 then s.encFault n 0 else s

/-- `x` taken modulo `k` into -floor(k/2) … ceil(k/2) - 1 (R386). -/
def centred (x : Int) (k : Nat) : Int :=
  let r := x % k
  if 2 * r ≥ k then r - k else r

/-- C_I + k × N nearest to C (Table 13-2); a free value where no reference is set (log entry 31). -/
def nearestRef (ci : Option Int) (c : Int) (k : Nat) (free : BitVec 64) : Nat :=
  match ci with
  | some r => pat 32 (c - centred (c - r) k)
  | none => free.toNat % 2 ^ 32

/-- A missing index: more than 3N/2 counts since the last mark (R387). -/
def State.idxMissing (s : State) (n : Fin 8) : State :=
  match s.idxPeriod n with
  | none => s
  | some k =>
    let d := s.axes[n].dp
    if 2 * (wrap48 (d.c - d.cm)).natAbs ≤ 3 * k then s
    else
      let s := (s.put (AX_DP_STAT_IDX_MISSING n) 1).pulse 35 n 1
      let near := nearestRef d.ci d.c k (Config.freeValue s.free)
      let s := s.useFree.capture 0x42 n [0x80000000, pat 32 d.c, near, s.ts32]
      let s := s.dpt n fun d => { d with
        missN := d.missN + 1, cm := wrap48 (if wrap48 (d.c - d.cm) > 0 then d.cm + k else d.cm - k) }
      s.idxMiss n

/-- An index mark against the reference (R386). -/
def State.idxCheck (s : State) (n : Fin 8) (k : Nat) : State :=
  let d := s.axes[n].dp
  match d.ci with
  | none => s.dpt n fun d => { d with ci := some d.c }
  | some ci =>
    let δ := centred (wrap48 (d.c - ci)) k
    if δ.natAbs ≤ s.g (AX_DP_CFG_TOL n) then
      (s.put (AX_DP_STAT_IDX_MISMATCH n) 0).put (AX_DP_STAT_MIS_CONSEC n) 0
    else
      let s := (s.put (AX_DP_STAT_IDX_MISMATCH n) 1).putI (AX_DP_IDXERR_DELTA n) (satS 16 δ)
      let s := (s.idxMiss n).pulse 35 n 0
      let s := s.capture 0x42 n [pat 32 δ, pat 32 d.c, pat 32 (d.c - δ), s.ts32]
      if s.gb (AX_DP_CFG_REDATUM n) then
        s.dpt n fun d => { d with c := wrap48 (d.c - δ), x := d.x - δ, cm := wrap48 (d.cm - δ) }
      else s

/-- The filter of the lines passes a level that has held for `held` samples (R368). -/
def State.dfilt (s : State) (n : Fin 8) (held : Nat) : Bool := decide (s.g (AX_DP_CFG_DFILT n) ≤ held)

/-- INDEX_MARK: the negative-side edge of the index pulse, its new level held for `p.held` samples (R368, R385 to R387). -/
def execIndexMark (dt : Nat) (p : Held 8) (s : State) : Outcome State Fault Refusal :=
  let s := s.tickTo dt
  let n := p.pin
  done (if s.dfilt n p.held && s.flPins && s.g (AX_PINSTAT_FB_ACT n) = 1 && s.g (AX_PINSTAT_FB2_ACT n) = 1 && !s.gb (AX_DP_STAT_MW_HOLD n) then
    let c := s.axes[n].dp.c
    let s := s.put (AX_DP_IDX_IDXCNT n) (pat 32 c)
    let s := s.dpt n fun d => { d with idxCap := some c, idxTs := s.now, idxN := d.idxN + 1, cm := c }
    let s := s.put (AX_DP_STAT_IDX_MISSING n) 0
    match s.idxPeriod n with
    | none => s
    | some k => s.idxCheck n k
  else s)

/-! ## Transitions and speed (R367, R380 to R383) -/

/-- The change of the count that new levels of A and B make: none where both changed or neither did (R367, R369). -/
def quadStep (a b a' b' : Bool) : Option Int :=
  if a != a' && b != b' then none
  else if a != a' then some (if a' != b then 1 else -1)
  else if b != b' then some (if b' == a then 1 else -1)
  else some 0

/-- A transition that is the first of a new run (R380, R382, R383). -/
def DatumSt.newRun (d : DatumSt) (now : Nat) (neg : Bool) : DatumSt :=
  { d with inRun := true, dirNeg := neg, runTs := [now], runN := 1, x := d.c, lastT := now, spdNum := 0, spdDen := 1 }

/-- A transition that continues the run: the speed over the last SPAN intervals (R380). -/
def DatumSt.goRun (d : DatumSt) (now span : Nat) : DatumSt :=
  let ts := (now :: d.runTs).take 9
  let j := min span (ts.length - 1)
  { d with
    runTs := ts, runN := min 65535 (d.runN + 1), x := d.c, lastT := now,
    spdNum := if d.dirNeg then -(j : Int) else j, spdDen := or1 (now - ts.getD j now) }

/-- What a counted transition does to run, speed and direction (R380 to R383). -/
def State.dpRun (s : State) (n : Fin 8) (neg : Bool) : State :=
  let d := s.axes[n].dp
  let still := s.gb (AX_DP_STAT_STILL n)
  let span := s.g (AX_DP_CFG_SPAN n) + 1
  let fresh := fun (s : State) (neg : Bool) =>
    let s := (s.put (AX_DP_STAT_STILL n) 0).put (AX_DP_STAT_SPEED_VALID n) 0
    (s.putB (AX_DP_STAT_DIR n) neg).dpt n fun d => d.newRun s.now neg
  if !d.inRun && !still then fresh s neg
  else
    let p := if d.dirNeg then d.x - d.c else d.c - d.x
    if p ≥ 1 then
      if d.inRun then (s.put (AX_DP_STAT_SPEED_VALID n) 1).dpt n fun d => d.goRun s.now span
      else fresh s d.dirNeg
    else if p ≤ -2 then fresh s (!d.dirNeg)
    else s

/-- The level of a line that the decoder sees: the new one where it has passed the filter, else the one that stood (R368). -/
def State.dlevel (s : State) (n : Fin 8) (was : Bool) (l : Stood) : Bool := if s.dfilt n l.held then l.high else was

/-- ENCODER_TRANSITION: levels of A and B, each passing its filter once it has held long enough (R367 to R369, R373). -/
def execEncoderTransition (dt : Nat) (n : Fin 8) (la lb : Stood) (s : State) : Outcome State Fault Refusal :=
  let s := s.tickTo dt
  let d := s.axes[n].dp
  let a := s.dlevel n d.a la
  let b := s.dlevel n d.b lb
  done (let act := s.flPins && s.g (AX_PINSTAT_FB_ACT n) = 1 && !s.gb (AX_DP_STAT_MW_HOLD n)
  let s := s.dpt n fun d => { d with a := a, b := b }
  if !act then s else
    match quadStep d.a d.b a b with
    | none =>
      let s := s.inc (AX_DP_CNT_QERR n)
      if s.gb (AX_DP_CFG_QERR_ACT n) then s.encFault n 2 else s
    | some k =>
      if k = 0 then s
      else
        let k := if s.gb (AX_DP_CFG_CNT_INV n) then -k else k
        let s := s.dpt n fun d => { d with c := wrap48 (d.c + k) }
        (s.dpRun n (decide (k < 0))).idxMissing n)

/-- ENCODER_STANDSTILL: no transition of the run for STILL_TO ms (R382). -/
def execEncoderStandstill (dt : Nat) (n : Fin 8) (s : State) : Outcome State Fault Refusal :=
  let s := s.tickTo dt
  let d := s.axes[n].dp
  done (if s.flOn && s.g (AX_PINSTAT_FB_ACT n) = 1 && !s.gb (AX_DP_STAT_STILL n)
      && s.now - d.lastT ≥ msCyc (or1 (s.g (AX_DP_CFG_STILL_TO n))) then
    let s := (s.put (AX_DP_STAT_STILL n) 1).put (AX_DP_STAT_SPEED_VALID n) 1
    s.dpt n fun d => { d with inRun := false, runTs := [], runN := 0, x := d.c, spdNum := 0, spdDen := 1 }
  else s)

/-! ## Absolute words (R376 to R379, R384) -/

/-- Word length (R376). -/
def State.ssiLen (s : State) (n : Fin 8) : Nat := max 9 (s.g (AX_DP_SSI_CFG_LEN n)) + 1

/-- Half a period of the clock, cycles (R376). -/
def State.ssiHalf (s : State) (n : Fin 8) : Nat := 5 * clampN 4 400 (s.g (AX_DP_SSI_CFG_CDIV n))

/-- A frame error of the present transfer (R378, R391). -/
def State.ssiError (s : State) (n : Fin 8) : State :=
  let s := s.inc (AX_DP_CNT_SSI_FERR n)
  if s.axes[n].dp.fBad then s
  else
    let s := s.dpt n fun d => { d with fBad := true, fConsec := d.fConsec + 1 }
    if s.axes[n].dp.fConsec = 3 then s.encFault n 1 else s

/-- A request for a word at time `t0`, DATA being high or low there (R373, R377, R378). -/
def State.ssiAsk (s : State) (n : Fin 8) (t0 : Nat) (high host : Bool) : State :=
  let d := s.axes[n].dp
  if s.g (AX_PINSTAT_FB_ACT n) ≠ 2 then s
  else if s.gb (AX_DP_STAT_MW_HOLD n) then s.inc (AX_DP_CNT_SSI_DROP n)
  else if s.gb (AX_DP_STAT_SSI_BUSY n) then
    if d.ssiT0 = t0 && d.ssiHost != host then s else s.inc (AX_DP_CNT_SSI_DROP n)
  else if d.fBad && d.ssiT0 = t0 && d.ssiHost != host then s
  else
    let s := s.dpt n fun d => { d with fBad := false, ssiT0 := t0, ssiHost := host }
    if !high then s.ssiError n
    else
      let len := s.ssiLen n
      let h := s.ssiHalf n
      (s.put (AX_DP_STAT_SSI_BUSY n) 1).dpt n fun d => { d with ssiEnd := some (t0 + (2 * len + 3) * h), ssiRec := none }

/-- Gray decoding of a word of `len` bits (R378). -/
def grayDecode (len w : Nat) : Nat :=
  ((List.range len).reverse.foldl (fun (acc : Nat × Bool) i =>
    let b := bit w i != acc.2
    (acc.1 + b2n b * 2 ^ i, b)) (0, false)).1

/-- SSI_AUTO_REQUEST: this tick mark is a DIV-th one (R377). -/
def execSsiAutoRequest (dt : Nat) (n : Fin 8) (high : Bool) (s : State) : Outcome State Fault Refusal :=
  let s := s.tickTo dt
  done (if s.axes[n].dp.autoDue then
    (s.dpt n fun d => { d with autoDue := false }).ssiAsk n s.now high false else s)

/-- A good word takes the count (R378), and gives the speed (R384). -/
def State.ssiGood (s : State) (n : Fin 8) (w : Nat) : State :=
  let d := s.axes[n].dp
  let len := s.ssiLen n
  let p := d.dirP
  let s :=
    match d.wPrev with
    | none =>
      let abs := s.gb (AX_DP_CFG_ABS n)
      let pl := s.axes[n].planned
      s.dpt n fun d => { d with
        c := w, cTick := w, coff := if abs then 0 else (w : Int), moff := if abs then 0 else pl, cm := w, dirP := p }
    | some q =>
      let dw := sgn len (w + 2 ^ len - q % 2 ^ len)
      s.dpt n fun d => { d with c := wrap48 (d.c + (if s.gb (AX_DP_CFG_CNT_INV n) then -dw else dw)) }
  let s := s.put (AX_DP_STAT_WORD_OK n) 1
  let s := (s.put (AX_DP_SSI_WORD_WORD n) w).put (AX_DP_SSI_TS_TS n) (d.ssiT0 % 2 ^ 32)
  let c := s.axes[n].dp.c
  let s := match d.t0Prev with
    | none => s
    | some t =>
      let gap := d.ssiT0 - t
      let k := c - d.cPrev
      let ok := decide (gap ≤ msCyc (or1 (s.g (AX_DP_CFG_STILL_TO n))))
      let s := (s.putB (AX_DP_STAT_SPEED_VALID n) ok).putB (AX_DP_STAT_STILL n) (decide (k = 0))
      let s := if k = 0 then s else s.putB (AX_DP_STAT_DIR n) (decide (k < 0))
      s.dpt n fun d => { d with spdNum := k, spdDen := or1 gap }
  s.dpt n fun d => { d with wPrev := some w, t0Prev := some d.ssiT0, cPrev := c }

/-- SSI_WORD_DONE: step 5 of Table 13-1. `w` is the word as sampled, `endBit` the end bit (R378). -/
def execSsiWordDone (dt : Nat) (n : Fin 8) (w : BitVec 32) (endBit : Bool) (s : State) : Outcome State Fault Refusal :=
  let s := s.tickTo dt
  done (match s.axes[n].dp.ssiEnd with
    | none => s
    | some t =>
      if s.now < t then s
      else
        let s := s.dpt n fun d => { d with ssiEnd := none, ssiRec := some s.now }
        let len := s.ssiLen n
        let x := w.toNat % 2 ^ len
        let v := if s.gb (AX_DP_SSI_CFG_GRAY n) then grayDecode len x else x
        let jmax := s.g (AX_DP_SSI_JMAX_JMAX n)
        let jump := match s.axes[n].dp.wPrev with
          | some q => jmax != 0 && decide ((sgn len (v + 2 ^ len - q % 2 ^ len)).natAbs > jmax)
          | none => false
        if s.gb (AX_DP_STAT_MW_HOLD n) then s
        else if endBit || jump then s.ssiError n
        else s.ssiGood n v)

/-- SSI_RECOVERY_END: DATA is high again, or TREC has passed with it still low (step 6, R378). -/
def execSsiRecoveryEnd (dt : Nat) (n : Fin 8) (high : Bool) (s : State) : Outcome State Fault Refusal :=
  let s := s.tickTo dt
  done (match s.axes[n].dp.ssiRec with
    | none => s
    | some t =>
      let late := decide (s.now - t ≥ usCyc (or1 (s.g (AX_DP_SSI_TIME_TREC n))))
      if !high && !late then s
      else
        let s := (s.put (AX_DP_STAT_SSI_BUSY n) 0).dpt n fun d => { d with ssiRec := none }
        if !high then s.ssiError n
        else if s.axes[n].dp.fBad then s
        else s.dpt n fun d => { d with fConsec := 0 })

/-! ## What a tick mark takes from the port (R370, R374, R381, R389) -/

/-- A rate of `k` counts per `t` cycles in microsteps/s, rounded toward zero, saturated (R381). -/
def State.rateOf (s : State) (n : Fin 8) (k : Int) (t : Nat) : Int :=
  match s.cprOf n with
  | some c => satS 32 (tdiv (k * s.mpr n * 400000000) (t * c))
  | none => satS 32 (tdiv (k * 400000000) t)

/-- The speed reported at a tick mark (R381, R382, R384). -/
def State.dpSpeed (s : State) (n : Fin 8) : Int :=
  let d := s.axes[n].dp
  let fb := s.g (AX_PINSTAT_FB_ACT n)
  if fb = 0 then 0
  else if fb = 1 then
    if !d.inRun || !s.gb (AX_DP_STAT_SPEED_VALID n) then 0
    else
      let gap := s.now - d.lastT
      let bound := decide ((gap : Int) * d.spdNum.natAbs > d.spdDen)
      if bound then s.rateOf n (isgn d.spdNum) (or1 gap) else s.rateOf n d.spdNum d.spdDen
  else s.rateOf n d.spdNum d.spdDen

/-- A motion of the direction check (R389). -/
def AxState.dirMotion : AxState → Bool
  | .moving | .homing | .follow | .quiescing => true
  | .off | .idle | .hold | .fault => false

/-- The direction check at a tick mark (R389). -/
def State.dirCheck (s : State) (n : Fin 8) : State :=
  let a := s.axes[n]
  let mot := a.st.dirMotion
  let was := a.dp.dirMot
  let s := s.dpt n fun d => { d with dirMot := mot, dirP := if mot then d.dirP else none }
  if !mot || !s.gb (AX_DP_CFG_DIRCHK_EN n) || s.g (AX_DP_STAT_DIRCHK n) ≠ 0 || s.g (AX_PINSTAT_FB_ACT n) = 0 then s
  else
    let m := a.dp.m
    if !was then s.dpt n fun d => { d with dirP := some (a.planned, m) }
    else match s.axes[n].dp.dirP with
      | none => s
      | some (p0, m0) =>
        let dp := a.planned - p0
        let dm := m - m0
        if dp.natAbs < 8192 then s
        else
          let s := s.dpt n fun d => { d with dirP := none }
          if dm.natAbs < 4096 then s
          else if isgn dm = isgn dp then s.put (AX_DP_STAT_DIRCHK n) 1
          else ((s.put (AX_DP_STAT_DIRCHK n) 2).pulse 36 n 0).fbAdd 0x24 [n.val, 2]

/-- The port's values at a tick mark: count, measured position, speed, and automatic requests. A transition of the mark's own cycle
belongs to the next tick (R370). -/
def State.dpTick (s : State) (n : Fin 8) : State :=
  let b := s.atStart
  let c := b.axes[n].dp.c
  let m := b.measuredAt n c
  let auto := s.gb (AX_DP_SSI_CFG_AUTO n) && s.g (AX_PINSTAT_FB_ACT n) = 2
  let s := s.dpt n fun d => { d with
    cTick := c, m := m, mOld := d.m, divCnt := d.divCnt + 1, idxT := d.idxN, missT := d.missN,
    autoDue := auto && (d.divCnt + 1) % or1 (s.g (AX_DP_SSI_CFG_DIV n)) == 0 }
  let s := (s.put (AX_DP_COUNT_COUNT n) (pat 32 c)).putI (AX_DP_SPEED_SPEED n) (b.dpSpeed n)
  s.putB (AX_DP_STAT_NOSCALE n) (s.g (AX_PINSTAT_FB_ACT n) ≠ 0 && (s.cprOf n).isNone)

/-- A due encoder fault takes the axis to FAULT at a tick mark (R391). -/
def State.encTick (s : State) (n : Fin 8) : State :=
  if s.axes[n].dp.encDue then
    (s.dpt n fun d => { d with encDue := false }).axisFaultIf n 0 afENC CANCELLED_FAULT
  else s

end Sys2Proof.Machine
end

