-- ==== Sys2Proof/Machine/Profile.lean ====
section
/-!
DEFINITION. Profiles as segments of constant jerk (R258 to R264): how a ramp, a position stake, a velocity stake and a stop are
laid out, and where a profile stands at a time. Positions, velocities and accelerations carry 16 fractional bits; times are in
1/256 main-clock cycle; rates in whole microsteps/s² and microsteps/s³, or in 2^-46 of a path (R277).
-/

namespace Sys2Proof.Machine

/-- Time units per second. -/
def tps : Int := 102400000000

/-! ## A segment in time -/

/-- Position after `t` of a segment. -/
def Seg.pAt (g : Seg) (t : Nat) : Int :=
  let t : Int := t
  g.p + (6 * tps * tps * g.v * t + 3 * tps * g.a * t * t + g.j * t * t * t) / (6 * tps * tps * tps)

/-- Velocity after `t` of a segment. -/
def Seg.vAt (g : Seg) (t : Nat) : Int :=
  let t : Int := t
  g.v + (2 * tps * g.a * t + g.j * t * t) / (2 * tps * tps)

/-- Acceleration after `t` of a segment. -/
def Seg.aAt (g : Seg) (t : Nat) : Int := g.a + g.j * t / tps

/-! ## Building profiles -/

/-- A profile under construction: time, position and velocity reached, segments so far. -/
structure Bld where
  t : Nat
  p : Int
  v : Int
  segs : List Seg
  deriving DecidableEq, Repr

/-- A profile that starts at a position and a velocity. -/
def Bld.from (p v : Int) : Bld := { t := 0, p := p, v := v, segs := [] }

/-- One more segment; it ends at velocity `v1`. A segment of no length is left out. -/
def Bld.add (b : Bld) (dur : Nat) (a j : Int) (code : Nat) (v1 : Int) : Bld :=
  if dur = 0 then { b with v := v1 }
  else
    let g : Seg := { t0 := b.t, dur := dur, p := b.p, v := b.v, a := a, j := j, code := code }
    { t := b.t + dur, p := g.pAt dur, v := v1, segs := b.segs ++ [g] }

/-- T_j and T_c of a ramp over a velocity change `dv` with acceleration `x` and jerk `j` (R261). -/
def rampTimes (dv x j : Nat) : Nat × Nat :=
  if dv * j ≥ x * x * 65536 then
    let tj := 102400000000 * x / j
    (tj, dv * 102400000000 / (x * 65536) - tj)
  else (isqrt (dv * 102400000000 * 102400000000 / (j * 65536)), 0)

/-- Length of a ramp in time; `j` = 0 is a ramp without jerk (R259, R261). -/
def rampTime (dv x j : Nat) : Nat :=
  if j = 0 then dv * 102400000000 / (x * 65536) else let (tj, tc) := rampTimes dv x j; 2 * tj + tc

/-- Distance of a ramp between two speeds. -/
def rampDist (v0 v1 x j : Nat) : Nat :=
  let dv := if v1 ≥ v0 then v1 - v0 else v0 - v1
  if j = 0 then (v0 + v1) * dv / (2 * x * 65536)
  else (v0 + v1) * rampTime dv x j / (2 * 102400000000)

/-- A ramp of the speed along direction `d` from the present one to `v1`. -/
def Bld.ramp (b : Bld) (d : Int) (v1 x j : Nat) : Bld :=
  let v0 := (b.v * d).toNat
  let up := decide (v1 ≥ v0)
  let dv := if up then v1 - v0 else v0 - v1
  let s : Int := if up then d else -d
  if j = 0 then b.add (dv * 102400000000 / (x * 65536)) (s * x * 65536) 0 (if up then 2 else 6) (d * v1)
  else
    let (tj, tc) := rampTimes dv x j
    let pk := min (x * 65536) (j * 65536 * tj / 102400000000)
    let dj : Int := pk * tj / (2 * 102400000000)
    let k := fun i => if up then i else 4 + i
    let b := b.add tj 0 (s * j * 65536) (k 1) (b.v + s * dj)
    let b := b.add tc (s * pk) 0 (k 2) (d * v1 - s * dj)
    b.add tj (s * pk) (-s * j * 65536) (k 3) (d * v1)

/-- Travel at the present velocity. -/
def Bld.cruise (b : Bld) (dur : Nat) : Bld := b.add dur 0 0 4 b.v

/-- The acceleration ramps to zero at jerk `j` (R262). Where the velocity would pass V_CAP, `vc`, the ramp stops there (R256). -/
def Bld.zeroAcc (b : Bld) (vc : Nat) (a : Int) (j : Nat) : Bld :=
  if j = 0 || a = 0 then b
  else
    let v1 := b.v + a * a.natAbs / (2 * j * 65536)
    let code := if b.v * a ≥ 0 then 3 else 7
    let jerk := -(isgn a) * j * 65536
    if v1 * isgn a ≤ vc then b.add (a.natAbs * 102400000000 / (j * 65536)) a jerk code v1
    else
      let gain := (vc - b.v * isgn a).toNat
      let rest := isqrt (a.natAbs * a.natAbs - 2 * j * 65536 * gain)
      b.add ((a.natAbs - rest) * 102400000000 / (j * 65536)) a jerk code (isgn a * vc)

/-- Segments with their first `t` taken off. -/
def cutSegs (t : Nat) (l : List Seg) : List Seg :=
  (l.filter fun g => decide (t < g.t0 + g.dur)).map fun g =>
    if g.t0 < t then
      { g with t0 := 0, dur := g.t0 + g.dur - t, p := g.pAt (t - g.t0), v := g.vAt (t - g.t0), a := g.aAt (t - g.t0) }
    else { g with t0 := g.t0 - t }

/-- Direction to go for a distance. -/
def dirOf (x v : Int) : Int := if x > 0 then 1 else if x < 0 then -1 else if v < 0 then -1 else 1

/-- Bisection for the peak of a jerk-limited stake: the largest whole speed that leaves a cruise (R261). A stake's range of
31 bits settles in 32 steps; a path's (R277) is wider. -/
def peakGo (v0 dist a dd j : Nat) : Nat → Nat → Nat → Nat
  | 0, lo, _ => lo
  | k + 1, lo, hi =>
    if hi ≤ lo + 1 then lo
    else
      let m := (lo + hi) / 2
      if rampDist v0 (m * 65536) a j + rampDist (m * 65536) 0 dd j ≤ dist then peakGo v0 dist a dd j k m hi
      else peakGo v0 dist a dd j k lo m

/-- Peak speed of a stake over `dist` from speed `v0` with limit `v` (R259, R261). -/
def peakOf (v0 dist v a dd j : Nat) : Nat :=
  if j = 0 then
    max v0 (min v (isqrt ((2 * a * dd * dist * 65536 + dd * v0 * v0) / (a + dd))))
  else if rampDist v0 v a j + rampDist v 0 dd j ≤ dist then v
  else max v0 (peakGo v0 dist a dd j 96 (v0 / 65536) (v / 65536 + 1) * 65536)

/-- A position stake's segments and how many of them come before it proper (R259 to R262); `vm` and V_CAP, `vc`, have 16 fractional bits. -/
def posPlan (vc : Nat) (p v a target : Int) (vm acc dec j : Nat) : List Seg × Nat :=
  let b := (Bld.from p v).zeroAcc vc a j
  let d := dirOf (target - b.p) b.v
  let v0 := b.v * d
  let away := decide (v0 < 0) || decide (rampDist v0.toNat 0 dec j > (target - b.p).natAbs)
  let b := if away && b.v ≠ 0 then b.ramp (isgn b.v) 0 dec j else b
  let d := dirOf (target - b.p) b.v
  let b := if (b.v * d).toNat > vm then b.ramp d vm dec j else b
  let pre := b.segs.length
  let v0 := (b.v * d).toNat
  let vp := peakOf v0 (target - b.p).natAbs vm acc dec j
  let b := b.ramp d vp acc j
  let rest := ((target - b.p) * d).toNat - rampDist vp 0 dec j
  let b := if vp = 0 then b else b.cruise (rest * 102400000000 / vp)
  ((b.ramp d 0 dec j).segs, pre)

/-- A change of velocity to `w` at constant rate (R263): the profile built. -/
def velPlan (p v w : Int) (acc dec : Nat) : Bld :=
  let b := Bld.from p v
  if v * w < 0 then ((b.ramp (isgn v) 0 dec 0)).ramp (isgn w) w.natAbs acc 0
  else
    let d := if w = 0 then isgn v else isgn w
    if w.natAbs ≥ v.natAbs then b.ramp d w.natAbs acc 0 else b.ramp d w.natAbs dec 0

/-- A stop at deceleration `dec` (R264): the profile built, and its initial ramps. -/
def stopPlan (vc : Nat) (p v a : Int) (dec j : Nat) : Bld × Nat :=
  let b := (Bld.from p v).zeroAcc vc a j
  (b.ramp (isgn b.v) 0 dec j, if j = 0 || a = 0 then 0 else 1)

/-! ## A profile in time -/

/-- Length of a profile. -/
def Prof.len (f : Prof) : Nat := match f.segs.getLast? with
  | some g => g.t0 + g.dur
  | none => 0

/-- The segment that holds at time `t`, with its number. -/
def Prof.segAt (f : Prof) (t : Nat) : Option (Seg × Nat) := (f.segs.zipIdx).reverse.find? fun x => x.1.t0 < t

/-- Where a profile stands at time `t`: position, velocity, acceleration, SEG and PRE. -/
def Prof.at (f : Prof) (t : Nat) : Int × Int × Int × Nat × Bool :=
  if t ≥ f.len then (f.endP + f.endV * ((t - f.len : Nat) : Int) / tps, f.endV, 0, 0, false)
  else match f.segAt t with
    | some (g, i) => (g.pAt (t - g.t0), g.vAt (t - g.t0), g.aAt (t - g.t0), g.code, decide (i < f.pre))
    | none => (f.endP, f.endV, 0, 0, false)

/-- Start of the last ramp down, the final deceleration of a position stake (R267). -/
def Prof.decelAt (f : Prof) : Nat :=
  let l := f.segs.reverse.takeWhile fun g => 5 ≤ g.code
  match l.getLast? with
  | some g => g.t0
  | none => f.len

/-- A profile with nothing captured beside what is given. -/
def Prof.mk0 (segs : List Seg) (start : Nat) (endP endV : Int) (kind : EndKind) : Prof :=
  { segs := segs, start := start, endP := endP, endV := endV, kind := kind, typ := 0, pre := 0, target := none, vlim := 0,
    acc := 1, dec := 1, jerk := 0, tq := none, limited := false, torqOver := false, step := false, brake := false, lim := none,
    past := false, cmdV := 0 }

end Sys2Proof.Machine
end

