-- ==== Sys2Proof/Machine/Torque.lean ====
section
/-!
DEFINITION. The torque-aware acceleration limit (R271): pull-out curve, available torque, the two acceleration limits and the
speed at which torque to accelerate runs out. Torques carry 16 fractional bits.
-/

namespace Sys2Proof.Machine

/-- What the limit gives at one speed: T_av, a_acc, a_dec, and the speed, with 16 fractional bits, at which a_acc reaches 0. -/
structure Tq where
  av : Nat
  aAcc : Nat
  aDec : Nat
  vZero : Nat
  deriving DecidableEq, Repr

/-- Torque of the pull-out curve at `v` (1/256 rev/s with 16 fractional bits), from point `i` on: linear between points, the
first point's torque below it, 0 beyond the last (R271). -/
def curveGo (m : MonSt) (v : Nat) : Nat → Nat → Nat
  | 0, _ => 0
  | k + 1, i =>
    let (v0, t0) := m.point i
    let (v1, t1) := m.point (i + 1)
    let x0 := v0 * 65536
    let x1 := v1 * 65536
    if i = 0 && v ≤ x0 then t0 * 65536
    else if i + 1 < m.npts && v ≤ x1 then
      ((t0 : Int) * 65536 + ((t1 : Int) - t0) * ((v : Int) - x0) * 65536 / (or1 (x1 - x0) : Nat)).toNat
    else if i + 1 < m.npts then curveGo m v k (i + 1)
    else if v ≤ x0 then t0 * 65536 else 0

/-- The curve at a speed. -/
def MonSt.curve (m : MonSt) (v : Nat) : Nat := curveGo m v 64 0

/-- The last speed at which the curve still exceeds the torque `need` (16 fractional bits), in 1/256 rev/s with 16 fractional
bits; 0 where no point exceeds it. -/
def MonSt.curveZero (m : MonSt) (need : Nat) : Nat :=
  (List.range m.npts).foldl (fun best i =>
    let (v0, t0) := m.point i
    let (v1, t1) := m.point (i + 1)
    if t0 * 65536 > need then
      if i + 1 < m.npts && t1 * 65536 ≤ need then
        v0 * 65536 + (t0 * 65536 - need) * (v1 - v0) / (t0 - t1)
      else v0 * 65536
    else best) 0

/-- An acceleration, microsteps/s², from a torque with 16 fractional bits (R271): K = 1e5/J * 4096 * Ns / (2 pi). -/
def accOf (t ns j : Nat) : Nat := t * 409600000 * ns * 2 ^ 60 / (or1 j * (4 * halfPi) * 65536)

/-- The limits of axis `n` at planned velocity `v` (16 fractional bits) with T_LOAD, MARGIN and J of `cfg`; none without a
curve in force (R271). -/
def State.torque (s : State) (n : Fin 8) (cfg : Nat × Nat × Nat) (v : Int) : Option Tq :=
  let m := s.axes[n].mon
  match m.vmref, m.irated with
  | some vr, some ir =>
    if !m.curveOk then none
    else
      let (load, margin, j) := cfg
      let ns := or1 m.steps
      let vmb := s.vmb (stationOf n)
      let ceil := min (s.g (PWR_GOV_CEIL_CEIL_MA n)) ir
      let scale := fun (t : Nat) => t * ceil * or1 margin / (or1 ir * 256)
      let po := if v = 0 then m.curve 0
        else if vmb = 0 then 0
        else m.curve (v.natAbs * 256 * vr / (4096 * ns * vmb))
      let av := scale po
      let f := ceil * or1 margin
      let need := if f = 0 then 2 ^ 64 else load * 65536 * 256 * ir / f
      let vz := m.curveZero need * 4096 * ns * vmb / (256 * or1 vr)
      some { av := av, aAcc := accOf (av - load * 65536) ns j, aDec := accOf (av + load * 65536) ns j, vZero := vz }
  | _, _ => none

/-- The torque configuration of the registers (R257). -/
def State.torqCfg (s : State) (n : Fin 8) : Nat × Nat × Nat :=
  (s.g (AX_TORQ_CFG_T_LOAD n), s.g (AX_TORQ_CFG_MARGIN n), s.g (AX_TORQ_J_J n))

end Sys2Proof.Machine
end

