-- ==== Sys2Proof/Machine/Planner.lean ====
section
/-!
DEFINITION. Stakes, stops and limits of one axis (R256 to R273): what a stake captures and checks when it starts, how an axis
quiesces, and what the profile in force makes of one tick.
-/

namespace Sys2Proof.Machine

/-! ## Settings in force (R256, R257, R269) -/

/-- V_CAP in whole microsteps/s: 6,144 per tick (R256). -/
def State.vcap (s : State) : Nat := 2457600000000 / or1 (s.g CLK_TICK_CFG_PERIOD)

/-- The tick period in profile time units. -/
def State.tickT (s : State) : Nat := s.g CLK_TICK_CFG_PERIOD * 256

/-- VMAX of a profile set (R257). -/
def State.psV (s : State) (n : Fin 8) (k : Nat) : Nat := min 0x7FFFFFFF (or1 (s.g (AX_PS_VMAX_VMAX n k)))
/-- ACC of a profile set. -/
def State.psA (s : State) (n : Fin 8) (k : Nat) : Nat := or1 (s.g (AX_PS_ACC_ACC n k))
/-- DEC of a profile set. -/
def State.psD (s : State) (n : Fin 8) (k : Nat) : Nat := or1 (s.g (AX_PS_DEC_DEC n k))
/-- JERK of a profile set. -/
def State.psJ (s : State) (n : Fin 8) (k : Nat) : Nat := or1 (s.g (AX_PS_JERK_JERK n k))

/-- Quick-stop deceleration (Table 9-5). -/
def State.qdecOf (s : State) (n : Fin 8) : Nat := or1 (s.g (AX_QDEC_QDEC n))

/-- The soft limits while they act, in microsteps (R269). -/
def State.soft (s : State) (n : Fin 8) : Option (Int × Int) :=
  if s.gb (AX_PLN_CFG_SLIM_EN n) && s.gb (AX_STATE_REF n) then
    let lo := sgn 48 (s.g (AX_SLIM_NEG_L_NEG_L n) + 2 ^ 32 * s.g (AX_SLIM_NEG_H_NEG_H n))
    let hi := sgn 48 (s.g (AX_SLIM_POS_L_POS_L n) + 2 ^ 32 * s.g (AX_SLIM_POS_H_POS_H n))
    if lo ≤ hi then some (lo, hi) else none
  else none

/-- A target that an enabled soft limit allows. -/
def State.softOk (s : State) (n : Fin 8) (t : Int) : Bool :=
  match s.soft n with
  | some (lo, hi) => decide (lo ≤ t) && decide (t ≤ hi)
  | none => true

/-- A position that the planner's signed 48 bits hold (R256). -/
def in48 (t : Int) : Bool := decide (-(2 ^ 47 : Int) ≤ t) && decide (t < 2 ^ 47)

/-- The pins that carry home or limit function `f` (R55, R56): FBn_2, whose function 1 is the index, STEPn, DIRn. -/
def State.pinHas (s : State) (n : Fin 8) (f : Nat) : List Nat :=
  (if s.g (AX_PINSTAT_FB2_ACT n) = f ∧ f ≠ 1 then [0] else []) ++ (if s.g (AX_PINSTAT_STEP_ACT n) = f then [1] else [])
    ++ (if s.g (AX_PINSTAT_DIR_ACT n) = f then [2] else [])

/-- A negative (`neg`) or positive limit level is active, as sampled at the tick mark (R58, R270). -/
def State.limActive (s : State) (n : Fin 8) (neg : Bool) : Bool :=
  s.gb (if neg then AX_STATE_LIM_NEG n else AX_STATE_LIM_POS n)

/-- Motion of sign `d` points into an active hardware limit that acts (R270). -/
def State.limBars (s : State) (n : Fin 8) (d : Int) : Bool :=
  s.gb (AX_PLN_CFG_LIM_STOP n) && ((decide (d < 0) && s.limActive n true) || (decide (d > 0) && s.limActive n false))

/-! ## Starting a stake (R257 to R266, R269, R270) -/

/-- The end position that a queued stake with REL = 1 is relative to (R265). -/
def State.relBase (s : State) (n : Fin 8) : Int := (s.axes[n].lastTgt).getD s.axes[n].planned

/-- A velocity limit: VMAX × VPCT / 4,096, floored and at least 1 (R257). -/
def pctV (v vpct : Nat) : Nat := max 1 (v * vpct / 4096)

/-- A word of the chain window of a virtual device: VMAX, AMAX and DMAX (Table 6-10), at power-on those of a profile set. -/
def State.chainWord (s : State) (v : Fin 8) (a : Nat) : Nat :=
  (kvGet s.chain (8 * v.val + a) (if a = 4 then 0x000C8000 else 0x00190000)).toNat

/-- VMAX, ACC, DEC and JERK of a stake: its profile set's, or the chain window's (R200, R257). -/
def State.stakeSet (s : State) (n : Fin 8) (c : Cmd) : Nat × Nat × Nat × Nat :=
  match c.src with
  | .chain v => (s.chainWord v 4, or1 (s.chainWord v 5), or1 (s.chainWord v 6), 0)
  | .spi | .gr | .prog _ => (s.psV n c.pset, s.psA n c.pset, s.psD n c.pset, s.psJ n c.pset)

/-- Target of a position stake in absolute microsteps. -/
def Cmd.absTarget (c : Cmd) (base : Int) : Int := if c.rel then base + c.target else c.target

/-- Velocity that a velocity stake runs to: the lower of the commanded one, VMAX and V_CAP (R263). -/
def State.stakeW (s : State) (n : Fin 8) (c : Cmd) : Int :=
  let w := c.d1.toInt
  let m : Int := min (s.psV n c.pset) s.vcap
  clampI (-m) m w

/-- The checks that a stake meets at execution (R256, R269, R270). -/
def State.stakeOk (s : State) (n : Fin 8) (c : Cmd) (base : Int) : Bool :=
  let a := s.axes[n]
  if c.isPos then
    let t := c.absTarget base
    let d := if a.vel ≠ 0 then isgn a.vel else isgn (t * 65536 - a.pos)
    in48 t && s.softOk n t && !s.limBars n d
  else
    let w := s.stakeW n c
    !s.limBars n (if a.vel ≠ 0 then isgn a.vel else isgn w)

/-- The profile of a stake that starts in tick `k` from the axis's planned state. -/
def State.stakeProf (s : State) (n : Fin 8) (c : Cmd) (base : Int) (k : Nat) : Prof :=
  let a := s.axes[n]
  let (vmax, acc, dec, jerk) := s.stakeSet n c
  if c.isPos then
    let v := pctV vmax (dVpct c.d2)
    let cap := min v s.vcap
    let j := if c.op = 0x21 then jerk else 0
    let t := c.absTarget base
    let (segs, pre) := posPlan (s.vcap * 65536) a.pos a.vel a.acc (t * 65536) (cap * 65536) acc dec j
    { Prof.mk0 segs k (t * 65536) 0 .target with
      typ := if j = 0 then 1 else 2, pre := pre, target := some t, vlim := cap, acc := acc, dec := dec, jerk := j,
      tq := some (s.torqCfg n), cmdV := v }
  else
    let w := s.stakeW n c
    let b := velPlan a.pos a.vel (w * 65536) acc dec
    { Prof.mk0 b.segs k b.p (w * 65536) .velocity with
      typ := 3, target := some w, vlim := w.natAbs, acc := acc, dec := dec, tq := some (s.torqCfg n), cmdV := c.d1.toInt.natAbs }

/-- The axis enters MOVING, FOLLOW or HOMING; an observer that is not armed counts N ticks from there (R357). -/
def State.enterMotion (s : State) (n : Fin 8) (st : AxState) : State :=
  let o := s.axes[n].obs
  let s := if s.axes[n].st != st && !o.armed then s.ob n fun o => { o with rearm := some (max 8 (s.g (AX_OBS_CFG_CAR_DIV n))) } else s
  s.ax n fun a => { a with st := st }

/-- The stake takes the axis: MOVING, and PLN_STAT starts afresh. -/
def State.stakeStart (s : State) (n : Fin 8) (c : Cmd) (base : Int) : State :=
  let f := s.stakeProf n c base s.tick.no
  let s := (s.put (AX_PLN_STAT_TORQ_OVER n) 0).put (AX_PLN_STAT_DLIM n) 0
  (s.enterMotion n .moving).ax n fun a => { a with prof := some f, lastTgt := none }

/-! ## Stopping (R264, R506) -/

/-- The deceleration of the profile set in force: the stake's, set 0 in FOLLOW, HSET in HOMING (R264). -/
def State.ownDec (s : State) (n : Fin 8) : Nat :=
  let a := s.axes[n]
  match a.st with
  | .follow => s.psD n 0
  | .quiescing => a.ownD
  | .homing | .moving | .hold | .off | .idle | .fault =>
    match a.prof with
    | some f => f.dec
    | none => s.psD n 0

/-- The axis quiesces at `dec` from the planned state of tick `k`, with jerk `j` (0 for none). A further stop never lowers the
deceleration in force (R264). -/
def State.quiesce (s : State) (n : Fin 8) (dec j k : Nat) : State :=
  let a := s.axes[n]
  if a.st == .quiescing && dec ≤ a.qdec then s
  else
    let (b, pre) := stopPlan (s.vcap * 65536) a.pos a.vel a.acc dec j
    let f := { Prof.mk0 b.segs k b.p 0 .stop with
      typ := (a.prof.map Prof.typ).getD 0, pre := pre, acc := dec, dec := dec, jerk := j,
      limited := a.prof.any Prof.limited, torqOver := a.prof.any Prof.torqOver }
    s.ax n fun a => { a with st := .quiescing, prof := some f, qdec := dec }

/-- Jerk of a plain stop: that of a jerk-limited stake in force, or of the one that began to quiesce (R264). -/
def Axis.stopJerk (a : Axis) : Nat := match a.st with
  | .moving => (a.prof.map Prof.jerk).getD 0
  | .quiescing => a.ownJ
  | .off | .idle | .hold | .follow | .homing | .fault => 0

/-- Deceleration at which a laid-out profile ends. -/
def Prof.finalDec (f : Prof) : Nat :=
  f.segs.foldl (fun m g => if 5 ≤ g.code then max m (g.a.natAbs / 65536) else m) 0

/-- A profile that brakes to a soft limit already: it goes on where it decelerates at least as hard (R264, R269). -/
def Axis.limBrake (a : Axis) : Option Nat := a.prof.bind fun (f : Prof) => f.lim.map fun _ => f.finalDec

/-- A stop with status `st` reaches the axis (R506): its executing command remembers the cause, and the axis quiesces. `quick`
takes `AXn_QDEC`. Step-follow ends with it (R284). -/
def State.stopAxis (s : State) (n : Fin 8) (quick : Bool) (st k : Nat) : State :=
  let a := s.axes[n]
  if !(a.st == .moving || a.st == .homing || a.st == .follow || a.st == .quiescing) then s
  else
    let s := match s.execOf n with
      | some c =>
        let s := if (a.limBrake).isSome && a.prof.any (fun (f : Prof) => f.kind == EndKind.limitEnd) then s.cause c.id CANCELLED_STATE else s
        s.cause c.id st
      | none => s
    let own := s.ownDec n
    let dec := if quick then s.qdecOf n else own
    let s := (s.followLeave n).ax n fun x => { x with ownD := own, ownJ := a.stopJerk }
    match a.limBrake with
    | some d =>
      if d ≥ dec then
        s.ax n fun a => { a with
          st := .quiescing, qdec := d,
          prof := a.prof.map fun (f : Prof) => { f with kind := EndKind.stop } }
      else s.quiesce n dec (if quick then 0 else a.stopJerk) k
    | none => s.quiesce n dec (if quick then 0 else a.stopJerk) k

/-! ## Endings of a motion -/

/-- A command is to end with `st` at this commit point (R244); an ending that stands earlier in R241 stays. -/
def State.markEnd (s : State) (id st : Nat) : State :=
  match s.cmds.find? (fun c => c.id == id) with
  | none => s
  | some c =>
    match c.ph with
    | .ended _ => s
    | .ending x => if endRank st < endRank x then (s.setPh id (.ending st)).noteLast c st else s
    | .accepted | .waitPair =>
      (s.cmdUpd id fun c => { c with ph := .ending st, ran := decide (st = DONE) || decide (st = DONE_LIMITED) }).noteLast c st
    | .applied | .exec => (s.cmdUpd id fun c => { c with ph := .ending st, ran := true }).noteLast c st

/-- The axis stands in HOLD with no profile. -/
def Axis.toHold (a : Axis) : Axis :=
  { a with st := .hold, vel := 0, acc := 0, prof := none, home := none, coord := none }

/-- The axis enters HOLD at the commit point. -/
def State.standHold (s : State) (n : Fin 8) : State := (s.planIdle n).ax n Axis.toHold

/-- A stake or a HOME: its end is what a later relative stake looks back to (R265). -/
def Cmd.staking (c : Cmd) : Bool := isStakeOp c.op || c.op == 0x23

/-- Standstill: the executing command takes the first of its remembered causes, `d` where none is remembered (R506). A stake or
HOME that ends so leaves no target to a relative stake (R265). -/
def State.stood (s : State) (n : Fin 8) (d : Nat) : State :=
  match s.execOf n with
  | some c => ((s.markEnd c.id (firstEnding c.causes d)).standHold n).ax n fun a => { a with
      lastTgt := if c.staking then none else a.lastTgt }
  | none => s.standHold n

/-- A stake ends DONE, or DONE_LIMITED where the torque limit lowered it (R272). -/
def State.stakeDone (s : State) (n : Fin 8) (f : Prof) : State :=
  let s := match s.execOf n with
    | some c => s.markEnd c.id (if f.limited then DONE_LIMITED else DONE)
    | none => s
  s.ax n fun a => { a with lastTgt := if f.kind == .target then f.target else none }

/-! ## The torque limit in a stake (R272, R273) -/

/-- The deceleration that stops in `rem`, rounded up. -/
def stopRate (v rem : Nat) : Nat := (v * v + 2 * (or1 rem) * 65536 - 1) / (2 * (or1 rem) * 65536)

/-- A position stake that its lowered deceleration can no longer stop short of the target, though the commanded one could
(R273): the deceleration that stops exactly there, or `AXn_QDEC` to rest and then the return of R260. -/
def Prof.overrun (f : Prof) (a : Axis) (dd q : Nat) (tgt : Int) : Prof :=
  let d := dirOf (tgt - a.pos) a.vel
  let v := (a.vel * d).toNat
  let need := stopRate v (tgt - a.pos).natAbs
  let more := decide (need > dd + dd / 4096 + 1)
  if need ≤ q || !more then
    { f with
      segs := ((Bld.from a.pos a.vel).ramp d 0 need 0).segs, start := a.at_, pre := 0, step := true, brake := true,
      torqOver := f.torqOver || more }
  else
    let b := (Bld.from a.pos a.vel).ramp d 0 q 0
    { f with
      segs := b.segs, start := a.at_, endP := b.p, pre := b.segs.length, step := false, brake := false, kind := .limitCont,
      torqOver := true }

/-- The rest of a stake from the committed state (R272): a jerk-limited one that is speeding up goes on with its acceleration,
brought down to `aa` at once where it exceeds that. `vc` is V_CAP. -/
def Axis.replan (a : Axis) (vc : Nat) (tgt : Int) (vm aa dd j : Nat) : List Seg × Nat :=
  let d := dirOf (tgt - a.pos) a.vel
  let up := min (a.acc * d).toNat (aa * 65536)
  let plain := posPlan vc a.pos a.vel a.acc tgt vm aa dd j
  if j = 0 || up = 0 then plain
  else
    -- the jerk-up that leads to the present acceleration is taken as begun before now
    let ta := up * 102400000000 / (j * 65536)
    let dv : Int := up * up / (2 * j * 65536)
    let v0 := a.vel * d - dv
    if v0 < 0 then plain
    else
      let dist : Int := v0 * ta / 102400000000 + dv * ta / (3 * 102400000000)
      let q := posPlan vc (a.pos - d * dist) (v0 * d) 0 tgt vm aa dd j
      if q.2 = 0 && q.1.head?.any (fun g => g.code == 1 && decide (ta ≤ g.dur)) then (cutSegs ta q.1, 0) else plain

/-- A position stake re-solved from the committed state under the torque limit (R272). `dt` is the time to the coming mark. -/
def Prof.solvePos (f : Prof) (a : Axis) (q : Tq) (vc qdec dt : Nat) (tgt : Int) : Prof :=
  let aa := min f.acc q.aAcc
  let dd := or1 (min f.dec q.aDec)
  let d := dirOf (tgt - a.pos) a.vel
  let v0 := (a.vel * d).toNat
  let rem := (tgt - a.pos).natAbs
  let vm := min (f.vlim * 65536) q.vZero
  -- no torque to accelerate with: the velocity is kept
  let vm := if aa = 0 then min vm v0 else vm
  if a.vel * d ≥ 0 && decide (rampDist v0 0 dd f.jerk > rem) && decide (rampDist v0 0 f.dec f.jerk ≤ rem + 65536) then
    f.overrun a dd qdec tgt
  else
    let (segs, pre) := a.replan vc tgt vm aa dd f.jerk
    let g := { f with segs := segs, start := a.at_, pre := pre, step := true }
    { g with brake := vm != 0 && decide (pre < segs.length) && decide (g.decelAt ≤ dt) }

/-- A velocity stake re-solved from the committed state under the torque limit (R272). -/
def Prof.solveVel (f : Prof) (a : Axis) (q : Tq) (w : Int) : Prof :=
  let aa := min f.acc q.aAcc
  let dd := or1 (min f.dec q.aDec)
  let m := min w.natAbs q.vZero
  let m := if aa = 0 then min m (if a.vel * w > 0 then a.vel.natAbs else 0) else m
  let b := velPlan a.pos a.vel (isgn w * m) aa dd
  { f with segs := b.segs, endP := b.p, endV := isgn w * m, start := a.at_, step := true }

/-- A profile under the torque limits `q` of this tick: whether they bind, and the profile to follow (R272, R273). `tt` is the
tick period, `dt` the time to the coming mark, `vc` V_CAP. -/
def Prof.torq (f : Prof) (a : Axis) (q : Tq) (vc qdec tt dt : Nat) : Bool × Prof :=
  let binds := decide (q.aAcc < f.acc) || decide (q.aDec < f.dec)
  match f.kind, f.target with
  | .target, some _ =>
    let f := { f with limited := f.limited || binds }
    let tgt := f.endP
    if f.brake || decide (f.decelAt < (a.at_ - f.start) * tt) then
      -- the deceleration that stops at the target is kept, up to QDEC (R273)
      let x := f.finalDec
      if q.aDec < x && !f.torqOver then
        (binds, if x ≤ qdec then { f with torqOver := true } else f.overrun a (or1 q.aDec) qdec tgt)
      else (binds, f)
    else if binds then (true, f.solvePos a q vc qdec dt tgt)
    else if f.step then
      let (segs, pre) := a.replan vc tgt (f.vlim * 65536) f.acc f.dec f.jerk
      (false, { f with segs := segs, pre := pre, start := a.at_, step := false })
    else (false, f)
  | .velocity, some w =>
    let f := { f with limited := f.limited || binds }
    let w := w * 65536
    if binds then (true, f.solveVel a q w)
    else if f.step then
      let b := velPlan a.pos a.vel w f.acc f.dec
      (false, { f with segs := b.segs, endP := b.p, endV := w, start := a.at_, step := false })
    else (false, f)
  | _, _ => (false, f)

/-- Limits that bind nothing: no torque limit is in force. -/
def Tq.free : Tq := { av := 0, aAcc := 2 ^ 64, aDec := 2 ^ 64, vZero := 2 ^ 64 }

/-- The stake in force under the torque limit of this tick: with the captured configuration, while `TORQ_EN` is set (R257). -/
def State.torqStake (s : State) (n : Fin 8) (f : Prof) (dt : Nat) : Bool × Prof :=
  let a := s.axes[n]
  let q := if s.gb (AX_PLN_CFG_TORQ_EN n) then f.tq.bind (fun c => s.torque n c a.vel) else none
  f.torq a (q.getD Tq.free) (s.vcap * 65536) (s.qdecOf n) s.tickT dt

end Sys2Proof.Machine
end

