-- ==== Sys2Proof/Machine/Motion.lean ====
section
/-!
DEFINITION. One tick of an axis in MOVING or QUIESCING (R258 to R273): where the profile in force stands at the coming tick
mark, braking to soft limits, hardware limits, the handover of a blending stake, and the endings that the tick brings.
-/

namespace Sys2Proof.Machine

/-! ## Soft limits (R269) -/

/-- The profile that brakes from the committed state to the soft limit `lim`: at the least deceleration that stops there, or,
where that exceeds `AXn_QDEC`, at `AXn_QDEC`. -/
def Prof.brakeTo (f : Prof) (a : Axis) (lim : Int) (q : Nat) (inside : Bool) : Prof :=
  let d := isgn a.vel
  let rem := (lim * 65536 - a.pos) * d
  let need := stopRate a.vel.natAbs rem.toNat
  let past := decide (rem ≤ 0) || decide (need > q)
  let dec := if past then q else need
  let b := (Bld.from a.pos a.vel).ramp d 0 dec 0
  { f with
    segs := b.segs, start := a.at_, endP := lim * 65536, endV := 0, pre := 0, step := false, brake := false, lim := some lim,
    past := past,
    kind := match f.kind with
      | .stop => .stop
      | .target => if past || !inside then .limitEnd else .limitCont
      | _ => .limitEnd }

/-- The profile, which stands at `(p, v)` at the coming mark, comes too close to a soft limit: the limit it must brake to.
Position stakes run inside the limits but in an overshoot (`pre`) or toward a target that a later limit shuts out. -/
def State.limDue (s : State) (n : Fin 8) (f : Prof) (p v : Int) (pre : Bool) : Option Int :=
  let a := s.axes[n]
  match s.soft n with
  | none => none
  | some (lo, hi) =>
    let d := if a.vel ≠ 0 then isgn a.vel else isgn v
    let lim := if d > 0 then hi else lo
    let rem := (lim * 65536 - p) * d
    let sq := v.natAbs * v.natAbs
    if d = 0 || f.lim.isSome then none
    else
      match f.kind with
      | .stop => if decide (v * d > 0) && decide ((rem + 65536) * (2 * a.qdec * 65536 : Nat) < sq) then some lim else none
      | .velocity | .target | .limitCont | .limitEnd | .home =>
        let out := f.kind == .velocity || pre || (f.target.any fun t => (t - lim) * d > 0)
        if out && ((decide (v * d > 0) && decide (rem * (2 * f.dec * 65536 : Nat) ≤ sq)) || decide (rem < 0)) then some lim
        else none

/-- The planned position reaches a soft limit (R269): EV_LIMIT in the tick in which it first stands there; the two status bits
follow. -/
def State.limNote (s : State) (n : Fin 8) (old : Int) : State :=
  let a := s.axes[n]
  let on := fun (l : Int) => decide (a.pos = l * 65536) && decide (a.vel = 0)
  match s.soft n with
  | none => (s.put (AX_STATE_SLIM_NEG_HIT n) 0).put (AX_STATE_SLIM_POS_HIT n) 0
  | some (lo, hi) =>
    let s := (s.putB (AX_STATE_SLIM_NEG_HIT n) (on lo)).putB (AX_STATE_SLIM_POS_HIT n) (on hi)
    if a.st == .homing || a.pos = old then s
    else if a.pos = lo * 65536 then s.pulse 33 n 2
    else if a.pos = hi * 65536 then s.pulse 33 n 3
    else s

/-! ## Hardware limits (R270) -/

/-- The limit that homing method 1 is searching for bars nothing (R270). -/
def Axis.limExempt (a : Axis) (neg : Bool) : Bool := a.home.any fun h => h.method = 1 && h.neg == neg

/-- A hardware limit level in the direction of motion sends the axis into QUIESCING at `AXn_QDEC`. -/
def State.hwLimit (s : State) (n : Fin 8) : State :=
  let a := s.axes[n]
  if (a.st == .moving || a.st == .follow || a.st == .homing) && s.limBars n a.vel && !a.limExempt (decide (a.vel < 0)) then
    (s.stopAxis n true CANCELLED_STATE a.at_).pulse 33 n (if a.vel < 0 then 0 else 1)
  else s

/-! ## The tick of a profile -/

/-- Where a profile stands `t` after its start. One that is re-solved tick by tick and has run out of segments rests where
they end. -/
def Prof.now (f : Prof) (a : Axis) (t : Nat) : Int × Int × Int × Nat × Bool :=
  if f.step && !f.brake && f.kind == .target && t ≥ f.len then
    match f.segs.getLast? with
    | some g => (g.pAt g.dur, 0, 0, 0, false)
    | none => (a.pos, 0, 0, 0, false)
  else f.at t

/-- The profile's motion has ended at time `t`. -/
def Prof.over (f : Prof) (t : Nat) : Bool :=
  decide (t ≥ f.len) &&
  match f.kind with
  | .target => !f.step || f.brake
  | .velocity => f.target.any fun w => f.endV = w * 65536
  | .limitCont | .limitEnd | .stop | .home => true

/-- A profile that brakes to a soft limit has met it: its planned position never passes the limit (R269). -/
def Prof.met (f : Prof) (d p : Int) : Bool := f.lim.any fun l => (p - l * 65536) * d ≥ 0

/-- The velocity is held below the commanded one by a limit of the planner (R256, R272): the plan reaches a limit that lies
below the commanded speed, or the torque law in force ends below it (log entry 49, DEDUCED). -/
def Prof.capped (f : Prof) (vz : Option Nat) : Bool :=
  let top := f.vlim * 65536
  f.kind != .stop && f.kind != .limitEnd && f.kind != .limitCont &&
  ((decide (f.cmdV > f.vlim) && (decide (f.endV.natAbs ≥ top) || f.segs.any fun g => decide (g.v.natAbs ≥ top)))
    || vz.any fun z => decide (z < f.cmdV * 65536))

/-- Planner status words of the tick (Table 9-5). -/
def State.planStat (s : State) (n : Fin 8) (f : Prof) (seg : Nat) (pre : Bool) : State :=
  let s := ((s.put (AX_PLN_STAT_SEG n) seg).put (AX_PLN_STAT_TYPE n) f.typ).putB (AX_PLN_STAT_PRE n) pre
  (s.putB (AX_PLN_STAT_TORQ_OVER n) f.torqOver).putB (AX_PLN_STAT_DLIM n) f.limited

/-- The planned state of the coming tick mark. -/
def State.place (s : State) (n : Fin 8) (p v a : Int) (f : Option Prof) : State :=
  s.ax n fun x => { x with pos := p, vel := v, acc := a, prof := f }

/-- What the end of the profile in force brings (Table 9-2, R258, R263, R264, R269). -/
def State.profEnd (s : State) (n : Fin 8) (f : Prof) : State :=
  match f.kind with
  | .target => (s.stakeDone n f).standHold n
  | .velocity =>
    let s := if (s.execOf n).isSome then s.stakeDone n f else s
    if f.endV = 0 then s.standHold n
    else ((s.put (AX_PLN_STAT_SEG n) 0).put (AX_PLN_STAT_TYPE n) 0).ax n fun a => { a with
      prof := some { f with typ := 0, tq := none } }
  | .limitCont =>
    let a := s.axes[n]
    let t := (f.target.getD 0) * 65536
    let (segs, _) := posPlan (s.vcap * 65536) a.pos 0 0 t (f.vlim * 65536) f.acc f.dec f.jerk
    s.ax n fun a => { a with
      prof := some { f with
        segs := segs, start := s.tick.no + 1, endP := t, kind := .target, pre := 0, step := false, brake := false, lim := none, past := false } }
  | .limitEnd => s.stood n CANCELLED_STATE
  | .stop =>
    let s := match s.execOf n with
      | some c => if f.past then s.cause c.id CANCELLED_STATE else s
      | none => s
    s.stood n CANCELLED_HOST
  | .home => s

/-- One tick of the profile in force, for an axis in MOVING or QUIESCING that no coordinated move engages. -/
def State.profTick (s : State) (n : Fin 8) : State :=
  let a := s.axes[n]
  match a.prof with
  | none => if a.vel = 0 && a.st == .quiescing then s.stood n CANCELLED_HOST else s
  | some f0 =>
    let k := s.tick.no + 1
    let (binds, f) := if a.st == .moving && (s.execOf n).isSome then s.torqStake n f0 ((k - a.at_) * s.tickT) else (false, f0)
    let (p, v, _, _, pre) := f.now a ((k - f.start) * s.tickT)
    let f := match s.limDue n f p v pre with
      | some l => f.brakeTo a l (s.qdecOf n) (s.softOk n (f.target.getD l))
      | none => f
    let s := if f.lim.isSome && a.st == .quiescing then s.ax n fun a => { a with qdec := max a.qdec f.finalDec } else s
    let t := (k - f.start) * s.tickT
    let (p, v, ac, seg, pre) := f.now a t
    let vz := if binds then (f.tq.bind fun c => s.torque n c a.vel).map Tq.vZero else none
    let s := (s.putB (AX_STATE_TORQ_LIM n) binds).putB (AX_STATE_VCAP n) (f.capped vz)
    let d := isgn a.vel
    let out := f.lim.isSome && f.past && (f.lim.any fun l => (l * 65536 - a.pos) * d ≤ 0)
    if out then (s.place n a.pos 0 0 (some f)).profEnd n f
    else if f.met d p then (s.place n ((f.lim.getD 0) * 65536) 0 0 (some f)).profEnd n f
    else if f.over t then
      if f.kind == .velocity then ((s.planStat n f 0 false).place n p v 0 (some f)).profEnd n f
      else ((s.planStat n f 0 false).place n f.endP 0 0 (some f)).profEnd n f
    else (s.planStat n f seg pre).place n p v ac (some f)

end Sys2Proof.Machine
end

