-- ==== Sys2Proof/Machine/Pwm.lean ====
section
/-!
DEFINITION. PWM generators, bridges and coil converters (R298 to R310, R319 to R333, R395 to R398). A generator's boundary,
edge, comparator, limit and sample instants are commands; each acts once its instant has come.
-/

namespace Sys2Proof.Machine

open Host

/-! ## Settings in force -/

/-- Dead time, counts (Table 11-6). -/
def State.dtime (s : State) (c : Fin 16) : Nat := clampN 10 400 (s.g (CO_PWM_CFG_DT c))
/-- Blanking, counts (R302). -/
def State.tblank (s : State) (c : Fin 16) : Nat := clampN 4 80 (s.g (CO_REG_CFG_TBLANK c)) * 10
/-- Off-time, counts (R303). -/
def State.toff (s : State) (c : Fin 16) : Nat := clampN 200 8000 (s.g (CO_REG_TIME_TOFF c))
/-- On-time, counts, never shorter than the blanking (R304). -/
def State.ton (s : State) (c : Fin 16) : Nat := max (s.tblank c) (clampN 200 8000 (s.g (CO_REG_TIME_TON c)))

/-- Bits in reverse order (R321). -/
def rev4 (j : Nat) : Nat := b2n (bit j 0) * 8 + b2n (bit j 1) * 4 + b2n (bit j 2) * 2 + b2n (bit j 3)
/-- The whole-count value of a 1/16-count field in the period with dither index `j` (R321). -/
def dith (x j : Nat) : Nat := x / 16 + (if rev4 j < x % 16 then 1 else 0)

/-! ## Gate precedence (R333) -/

/-- The generator commands the coil's FETs: row 6 of Table 11-4, or row 5 in the coil's turn of phase 2 or 3. -/
def State.driven (s : State) (c : Fin 16) : Bool :=
  s.coils[c].gates && !s.tripHeld (axisOf c) && !s.row4 c && (s.energised (axisOf c) || s.testTurn c)

/-- The terminals of a pair of R312, first and second: terminal number 0 to 3 for A1, A2, B1, B2. -/
def idPair (p : Nat) : Nat × Nat :=
  if p = 1 then (0, 1) else if p = 2 then (2, 3) else if p = 3 then (0, 2) else if p = 4 then (0, 3)
  else if p = 5 then (1, 2) else (1, 3)

/-- Physical FETs that phase 1 of a running identity check holds on, overrides ignored (R312, R329): high side of the first
terminal and low side of the second in the pulse, the reverse in the decay, none in the 1 ms before a pulse. -/
def State.testFets (s : State) (c : Fin 16) : Nat :=
  match s.axes[axisOf c].idc with
  | some d =>
    if d.pair = 0 || d.pair > 6 || s.now < d.t0 || s.tripHeld (axisOf c) || s.row4 c then 0
    else
      let x := if d.decay then (idPair d.pair).2 else (idPair d.pair).1
      let y := if d.decay then (idPair d.pair).1 else (idPair d.pair).2
      let b := if c = coilA (axisOf c) then 0 else 2
      (if b ≤ x ∧ x < b + 2 then 2 ^ (2 * (x - b)) else 0) + (if b ≤ y ∧ y < b + 2 then 2 ^ (2 * (y - b) + 1) else 0)
  | none => 0

/-- Physical FETs that a pair of commanded sides turns on, after the overrides (R328): bit 0 terminal 1 high, 1 terminal 1
low, 2 terminal 2 high, 3 terminal 2 low. -/
def physFets (swap inv : Bool) (x y : Side) : Nat :=
  let f := fun (t : Nat) (v : Side) =>
    let k := if swap then 1 - t else t
    match v with
    | .off => 0
    | .high => 2 ^ (2 * k + b2n inv)
    | .low => 2 ^ (2 * k + b2n (!inv))
  f 0 x + f 1 y

/-- The FETs of a coil that are commanded on, by the precedence of Table 11-4; the per-FET comparator (row 1) takes its own
FET off. A clamp opens the high sides at once and closes the low sides 25 ns later (R62). A running identity check drives the
terminal pairs of its first phase directly, the coils of its later ones through their generators. -/
def State.fets (s : State) (c : Fin 16) : Nat :=
  let k := s.coils[c]
  let st := stationOfCoil c
  let below := if s.driven c then physFets (s.gb (CO_PWM_CFG_SWAP c)) (s.gb (CO_PWM_CFG_INV c)) k.side1 k.side2 else s.testFets c
  let x :=
    if !s.power.clampOn[st] then below
    else if s.now < s.power.clampAt[st] + 10 then below &&& 10
    else 10
  x - (x &&& k.ocFets)

/-! ## Sides and drive time -/

/-- Direction in which a pair of sides drives the winding (Table 11-1, R349). -/
def driveDir (x y : Side) : Option Bool :=
  match x, y with
  | .high, .low => some false
  | .low, .high => some true
  | _, _ => none

/-- The drive interval in progress is counted up to `now` (R349). -/
def Coil.countDrive (k : Coil) (now : Nat) : Coil :=
  match driveDir k.side1 k.side2, k.drvAt with
  | some false, some t => { k with tpos := k.tpos + (now - t), drvAt := some now }
  | some true, some t => { k with tneg := k.tneg + (now - t), drvAt := some now }
  | _, _ => { k with drvAt := some now }

/-- New commanded sides at `now`. -/
def Coil.sides (k : Coil) (now : Nat) (x y : Side) : Coil := { k.countDrive now with side1 := x, side2 := y }

/-- Sides of drive in a direction. -/
def driveSides (neg : Bool) : Side × Side := if neg then (.low, .high) else (.high, .low)

/-- Both sides commanded at once, nothing pending: a change that falls exactly on a boundary. -/
def Coil.force (k : Coil) (now : Nat) (x y : Side) : Coil :=
  { k.sides now x y with dead1 := none, dead2 := none, edges := [] }

/-- A scheduled edge put in time order. -/
def edgeIns (e : Edge) : List Edge → List Edge
  | [] => [e]
  | x :: t => if e.t < x.t then e :: x :: t else x :: edgeIns e t

/-- The side a terminal is commanded to. -/
def Coil.side (k : Coil) (term2 : Bool) : Side := if term2 then k.side2 else k.side1
/-- The turn-on whose dead time has started at a terminal. -/
def Coil.dead (k : Coil) (term2 : Bool) : Option Side := if term2 then k.dead2 else k.dead1
/-- A terminal put to a side, with the turn-on that its dead time awaits. -/
def Coil.setSide (k : Coil) (term2 : Bool) (x : Side) (d : Option Side) : Coil :=
  if term2 then { k with side2 := x, dead2 := d } else { k with side1 := x, dead1 := d }

/-- An edge of terminal 1 or 2 timed by a counter: off DT before `t`, on at `t` (R323). A turn-on of the terminal that would
come after this turn-off is not made: its FET stays off. -/
def Coil.counterEdge (k : Coil) (now t dt : Nat) (term2 : Bool) (side : Side) (ph : Option Nat) : Coil :=
  let o := max now (t - dt)
  let cut := fun (e : Edge) => e.on && e.term2 == term2 && decide (o ≤ e.t)
  let k := if k.edges.any cut && (k.dead term2).isSome then k.setSide term2 .off (some side) else k
  { k with edges := edgeIns ⟨t, term2, true, side, ph⟩ (edgeIns ⟨o, term2, false, side, none⟩ (k.edges.filter fun e => !cut e)) }

/-- The terminals change from sides `x` to sides `y` by counter-timed edges at `t`. -/
def Coil.counterTo (k : Coil) (now t dt : Nat) (x y : Side × Side) (ph : Option Nat) : Coil :=
  let both := x.1 ≠ y.1
  let k := if x.1 ≠ y.1 then k.counterEdge now t dt false y.1 ph else k
  if x.2 ≠ y.2 then k.counterEdge now t dt true y.2 (if both then none else ph) else k

/-- A terminal changes to a side by a comparator-timed edge at `now`: off now, on DT later (R323). A turn-on to that side whose
dead time has started keeps its instant. -/
def Coil.compSide (k : Coil) (now dt : Nat) (old : List Edge) (term2 : Bool) (y : Side) : Coil :=
  if k.side term2 = y then k.setSide term2 y none
  else
    match (if k.dead term2 = some y then old.find? fun e => e.on && e.term2 == term2 else none) with
    | some e => { k with edges := edgeIns { e with ph := none } k.edges }
    | none => { k.setSide term2 .off (some y) with edges := edgeIns ⟨now + dt, term2, true, y, none⟩ k.edges }

/-- The terminals change to sides `y` by a comparator-timed edge at `now`; what was scheduled goes. -/
def Coil.compTo (k : Coil) (now dt : Nat) (y : Side × Side) : Coil :=
  let old := k.edges
  (({ k.countDrive now with edges := [] }).compSide now dt old false y.1).compSide now dt old true y.2

/-- One edge takes effect; a decay that changes from fast to slow stays the same phase. -/
def Coil.doEdge (k : Coil) (now : Nat) (e : Edge) : Coil :=
  let k := k.countDrive now
  let k :=
    if e.on then
      let k := if e.term2 then { k with side2 := e.side, dead2 := none } else { k with side1 := e.side, dead1 := none }
      { k with edgeOn := now }
    else if e.term2 then { k with side2 := .off, dead2 := some e.side } else { k with side1 := .off, dead1 := some e.side }
  match e.ph with
  | some p => { k with phT := if k.phase = 1 then k.phT else now, phase := p }
  | none => k

/-- Every edge whose instant has come. -/
def Coil.runEdges (k : Coil) (now : Nat) : Coil :=
  let due := k.edges.filter (fun e => e.t ≤ now)
  due.foldl (fun k e => k.doEdge now e) { k with edges := k.edges.filter (fun e => now < e.t) }

/-! ## Sample slots (R308 to R310) -/

/-- First instant at least `tb` after every edge that precedes it by less (R309, step 1). -/
def deferSlot (es : List Nat) (tb : Nat) : Nat → Nat → Nat
  | 0, p => p
  | k + 1, p => match es.find? (fun e => e ≤ p && p < e + tb) with
    | some e => deferSlot es tb k (e + tb)
    | none => p

/-- The slot lies within one conversion of a settled one (R309, step 2). -/
def nearSlot (l : List (Nat × Nat)) (p : Nat) : Bool := l.any fun x => if x.2 ≤ p then p - x.2 < 80 else x.2 - p < 80

/-- The used slots fit the reference phase (R310). -/
def slotsFit (sp : List (Nat × Nat)) (l tb : Nat) (chop : Bool) : Bool :=
  sp.all (fun x => (if x.1 = 0 then x.2 + 120 ≤ l else x.2 + 80 ≤ l) && (!chop || tb ≤ x.2)) &&
  sp.all (fun x => sp.all fun y => x.1 == y.1 || (if x.2 ≤ y.2 then y.2 - x.2 ≥ 80 else x.2 - y.2 ≥ 80))

/-- The used slot positions in force. -/
def State.slotPos (s : State) (c : Fin 16) : List (Nat × Nat) :=
  let p1 := s.g (CO_REG_SLOT01_SP1 c)
  let p2 := s.g (CO_REG_SLOT2_SP2 c)
  (0, s.g (CO_REG_SLOT01_SP0 c)) :: ((if p1 = 0xFFFF then [] else [(1, p1)]) ++ (if p2 = 0xFFFF then [] else [(2, p2)]))

/-- One slot settled under R309, or dropped and counted (R397). -/
def State.settleSlot (s : State) (c : Fin 16) (es : List Nat) (tb l : Nat) (acc : List (Nat × Nat)) (x : Nat × Nat) :
    State × List (Nat × Nat) :=
  let p := deferSlot es tb 4 x.2
  if nearSlot acc p then
    (if x.1 = 0 then s.inc (CO_REG_CNT_S0_SKIP c) else (s.inc (CO_REG_CNT_OBS_SKIP c)).inc (CO_ADC_CNT_URG_DROP c), acc)
  else if p + (if x.1 = 0 then 120 else 80) > l then
    (s.inc (if x.1 = 0 then CO_REG_CNT_S0_SKIP c else CO_REG_CNT_OBS_SKIP c), acc)
  else (s, acc ++ [(x.1, p)])

/-- The check of R310 at a boundary: the slots that the reference phase of length `l` takes, positions from its start. -/
def State.slotPlan (s : State) (c : Fin 16) (l : Nat) (chop : Bool) : State × List (Nat × Nat) :=
  let tb := s.tblank c
  let sp := s.slotPos c
  if slotsFit sp l tb chop then (s.put (CO_REG_STAT_SLOT_ERR c) 0, sp)
  else ((s.put (CO_REG_STAT_SLOT_ERR c) 1).addSat (CO_REG_CNT_OBS_SKIP c) (sp.length - 1),
    [(0, max tb (min (s.g (CO_REG_SLOT01_SP0 c)) (l - 120)))])

/-- Slots placed in a reference phase that starts at `t`. -/
def Coil.placeSlots (k : Coil) (t l : Nat) (sp : List (Nat × Nat)) : Coil :=
  { k with refT := t, refL := l, slots := sp.map fun x => (x.1, t + x.2) }

/-- The slots of a period of modes 0 and 1 with turn-on instants `es` (R309). -/
def State.slotsFixed (s : State) (c : Fin 16) (l : Nat) (es : List Nat) : State :=
  let (s, sp) := s.slotPlan c l false
  let (s, got) := sp.foldl (fun (a : State × List (Nat × Nat)) x => a.1.settleSlot c es (s.tblank c) l a.2 x) (s, [])
  s.co c fun k => k.placeSlots s.now l got

/-- The slots of a fixed phase of modes 2 and 3 that starts now. -/
def State.slotsChop (s : State) (c : Fin 16) (l : Nat) : State := s.co c fun k => k.placeSlots s.now l k.plan

/-! ## The fixed-period current loop (R301) -/

/-- One evaluation of the loop: signed compare in 1/16 count for a period of `per16`, whether d was clamped or stood at ±1,
and the new integrator, in 2^-20 mV. -/
def regLoop (kp ki fs vmb rcoil : Nat) (sp sample xi : Int) (per16 : Nat) : Int × Bool × Bool × Int :=
  let e := sp - 3 * sample
  let ff := (rcoil : Int) * sp * fs * 256 / 1000
  let u : Int := (kp : Int) * e * fs * 16 + xi + ff
  let full : Nat := vmb * 2 ^ 20
  let clamped := decide (u.natAbs > full)
  let atMax := decide (u.natAbs ≥ full)
  let mag : Int := if clamped then (per16 : Int) else rdiv ((u.natAbs : Int) * per16) (full : Int)
  let back := !clamped || (decide (u > 0) && decide (e < 0)) || (decide (u < 0) && decide (e > 0))
  (isgn u * mag, clamped, atMax, if back then xi + (ki : Int) * e * fs else xi)

/-- Resistance of the feed-forward: that of the monument data in force while `FF_EN` is set (R301). -/
def State.ffR (s : State) (n : Fin 8) : Nat :=
  if s.gb (AX_SEQ_CFG_FF_EN n) then (s.axes[n].mon.rcoil).getD 0 else 0

/-! ## Boundaries (R325, R326, R331) -/

/-- Pending PWM-class values transfer at a boundary at least 8 cycles after the strobe (R155, R320, R327). -/
def State.transfer (s : State) (c : Fin 16) : State :=
  match s.coils[c].pend with
  | none => s
  | some p =>
    if s.now < p.at_ + 8 then s
    else
      let f := fun (s : State) (x : Fld) (w : Word) => s.put x (bits w.toNat x.lo x.w)
      let s := s.put (CO_PWM_PER_PERIOD c) (clampN 32000 400000 (bits p.per.toNat 0 20))
      let s := f (f s (CO_PWM_CMP_CMP c) p.cmp) (CO_PWM_CMP_DIR c) p.cmp
      let s := f (f (f s (CO_PWM_CFG_DT c) p.cfg) (CO_PWM_CFG_SWAP c) p.cfg) (CO_PWM_CFG_INV c) p.cfg
      let s := f (f s (CO_PWM_CFG_SYNC_EN c) p.cfg) (CO_PWM_CFG_PHASE c) p.cfg
      let s := if s.coils[c].mode ≠ 0 || (!p.perW && !p.cmpW) then s
        else s.putB (CO_PWM_STAT_SPLIT_COMMIT c) (p.perW != p.cmpW)
      s.co c fun k => { k with pend := none }

/-- A new MODE is taken: the integrator and the decay history clear (R300); SPLIT_COMMIT reads 0 outside mode 0 (R327). Phase 2
of an identity check regulates in mode 1 (R313). -/
def State.takeMode (s : State) (c : Fin 16) : State :=
  let m := if s.testReg c then 1 else s.g (CO_REG_CFG_MODE c)
  let s := if m ≠ s.coils[c].mode then s.co c fun k => { k with mode := m, xi := 0, phase := 3, maxCur := false } else s
  if m = 0 then s else s.put (CO_PWM_STAT_SPLIT_COMMIT c) 0

/-- The setpoint passed at the last commit point is taken, with its carrier; the first one after the axis was energised
gives the coil its gates (R293, R333, R344). -/
def Coil.takeSp (k : Coil) : Coil :=
  { k with gates := k.gates || k.spNew, spNew := false, spIn := if k.gates || k.spNew then k.sp + k.car else 0 }

/-- The test current is taken in phase 2 of an identity check, with a clear integrator where the coil was high-Z (R300, R313). -/
def Coil.takeTest (k : Coil) (i : Nat) : Coil :=
  { k with gates := true, spNew := false, spIn := i, xi := if k.gates then k.xi else 0 }

/-- The coil takes the setpoint of its next period. -/
def State.takeSetpoint (s : State) (c : Fin 16) : State :=
  if s.testReg c then s.co c fun k => k.takeTest ((s.axes[axisOf c].idc.map (·.testI)).getD 0) else s.co c Coil.takeSp

/-- A duty counted to the mean of its coil where its period begins `el` cycles into phase 2, in the last 5 ms of the turn (R313). -/
def IdchkSt.duty (d : IdchkSt) (isA : Bool) (el : Nat) (x : Int) : IdchkSt :=
  if isA then (if el < msCyc 15 then d else { d with na := d.na + 1, sa := d.sa + x })
  else if el < msCyc 35 then d else { d with nb := d.nb + 1, sb := d.sb + x }

/-- The duty of a period of the coil's turn that begins now. -/
def State.testDuty (s : State) (c : Fin 16) : State :=
  if !s.testReg c then s
  else s.ax (axisOf c) fun a =>
    { a with idc := a.idc.map fun d => d.duty (c == coilA (axisOf c)) (s.now - d.t0) s.coils[c].duty }

/-- A terminal's FET turns on between two states of a coil. -/
def Coil.lit (k old : Coil) : Bool :=
  (k.side1 != .off && k.side1 != old.side1) || (k.side2 != .off && k.side2 != old.side2)

/-- The period of modes 0 and 1 that starts now, of whole length `pj` (1/16-count length `p16`) and dither index `j`. -/
def State.fixedPeriod (s : State) (c : Fin 16) (pj p16 j : Nat) : State :=
  let n := axisOf c
  let k := s.coils[c]
  let on := s.driven c
  let (cmp, atMax, sat, xi) :=
    if k.mode = 0 then
      let x : Int := s.g (CO_PWM_CMP_CMP c)
      (if s.gb (CO_PWM_CMP_DIR c) then -x else x, false, false, k.xi)
    else if on && k.spIn ≠ 0 then
      let r := regLoop (s.g (CO_REG_GAIN_KP c)) (s.g (CO_REG_GAIN_KI c)) (s.fs n) (s.vmb (stationOfCoil c)) (s.ffR n)
        k.spIn k.lastS0 k.xi p16
      (r.1, r.2.2.1, r.2.1, r.2.2.2)
    else (0, false, false, k.xi)
  let neg := if k.mode = 0 then s.gb (CO_PWM_CMP_DIR c) else decide (cmp < 0)
  let raw := dith cmp.natAbs j
  let dt := s.dtime c
  let narrow := (decide (0 < raw) && decide (raw < dt + 10)) || (decide (raw < pj) && decide (pj - raw < dt + 10) && decide (0 < raw))
  let cj := if 0 < raw ∧ raw < dt + 10 then 0 else if raw < pj ∧ pj - raw < dt + 10 then pj else raw
  let s := if narrow then s.inc (CO_PWM_CNT_NARROW c) else s
  let full := decide (cj ≥ pj)
  let s := (s.putB (CO_PWM_STAT_ALWAYS_ON c) full).put (CO_PWM_STAT_DIDX c) j
  let s := s.putB (CO_REG_STAT_SAT c) sat
  let a := (pj - cj) / 2
  let mid := on && !full && decide (0 < cj)
  let s := s.co c fun k =>
    let first : Side × Side := if full then driveSides neg else (.low, .low)
    let old := k
    let k := if on then k.force s.now first.1 first.2 else k.force s.now .off .off
    let k := { k with
      t0 := s.now, pj := pj, cj := cj, tick := s.tick.no, nsw := if mid then k.nsw + 1 else k.nsw, neg := neg && on && decide (0 < cj), duty := cmp, xi := xi,
      maxCur := atMax, maxAll := k.maxAll && atMax, phase := 3 }
    let k := if mid then
        ((k.counterTo s.now (s.now + a) dt (.low, .low) (driveSides neg) none).counterTo s.now (s.now + a + cj) dt
          (driveSides neg) (.low, .low) none).runEdges s.now
      else k
    { k with edgeOn := if k.lit old then s.now else k.edgeOn }
  let es := (if on && s.coils[c].edgeOn = s.now then [0] else []) ++ (if mid then [a, a + cj] else [])
  s.slotsFixed c pj es

/-- The period of modes 2 and 3 that starts now (R303, R304, R306). -/
def State.chopPeriod (s : State) (c : Fin 16) : State :=
  let on := s.driven c
  let k := s.coils[c]
  let neg := decide (k.spIn < 0)
  let l := if k.mode = 2 then s.toff c else s.ton c
  let dt := s.dtime c
  let (s, sp) := s.slotPlan c l true
  let s := (s.put (CO_REG_STAT_SAT c) 0).co c fun k => { k with plan := sp }
  if on && k.spIn ≠ 0 then
    let s := s.co c fun k =>
      let d := driveSides neg
      let k := k.force s.now d.1 d.2
      { k with t0 := s.now, tick := s.tick.no, neg := neg, phase := 0, phT := s.now, edgeOn := s.now, nsw := k.nsw + 1 }
    if k.mode = 2 then s
    else
      -- the on-time of mode 3 ends by a counter-timed edge into the decay
      let dec := s.g (CO_REG_CFG_DECAY c)
      let slow := dec = 0 || (dec ≠ 1 && l * s.g (CO_REG_CFG_FASTPCT c) / 256 = 0)
      let dest : Side × Side := if slow then (.low, .low) else driveSides (!neg)
      let s := s.co c fun k => k.counterTo s.now (s.now + l) dt (driveSides neg) dest (some (if slow then 2 else 1))
      s.slotsChop c l
  else
    let s := s.co c fun k =>
      let k := if on then k.force s.now .low .low else k.force s.now .off .off
      { k with t0 := s.now, tick := s.tick.no, neg := false, phase := 5, phT := s.now, maxCur := false, maxAll := false }
    s.slotsChop c l

/-- A pulse sent on from coil `k` (R330). -/
def State.relayOn (s : State) (c : Fin 16) (pj j : Nat) : State :=
  if h : c.val + 1 < 16 then
    s.co ⟨c.val + 1, h⟩ fun k => { k with relay := k.relay ++ [(s.now + s.g (CO_PWM_CFG_PHASE c) % or1 pj, pj, j)] }
  else s

/-- A boundary of coil `c` in the order of R326; `pulse` is the period and dither index that a sync pulse carries; `start`
is the start of the generator (R319). -/
def State.boundary (s : State) (c : Fin 16) (pulse : Option (Nat × Nat)) (start : Bool) : State :=
  let old := s.coils[c]
  let s := if !start && old.mode < 2 && s.now - old.t0 ≠ old.pj then s.inc (CO_PWM_CNT_SLIP c) else s
  let s := ((s.takeMode c).transfer c).takeSetpoint c
  let k := s.coils[c]
  if k.mode < 2 then
    let own := if start then 0 else (s.g (CO_PWM_STAT_DIDX c) + 1) % 16
    let per := if s.testReg c then 160000 else s.g (CO_PWM_PER_PERIOD c)
    let sync := s.gb (CO_PWM_CFG_SYNC_EN c)
    let (pj, p16, j) := match pulse with
      | some (p, j) => if old.mode < 2 && sync then (p, p * 16, j) else (dith per own, per, own)
      | none => (dith per own, if c = 0 && s.synced c then dith per own * 16 else per, own)
    let s := ((s.fixedPeriod c pj p16 j).put (CO_PWM_STAT_PER_ACT c) per).testDuty c
    if c = 0 then s.relayOn c pj j else s
  else
    let s := (s.put (CO_PWM_STAT_ALWAYS_ON c) 0).put (CO_PWM_STAT_PER_ACT c) (s.g (CO_PWM_PER_PERIOD c))
    s.chopPeriod c

/-- The instant of the next boundary on the coil's own count, where one is set (Table 11-2). -/
def State.ownDue (s : State) (c : Fin 16) : Option Nat :=
  let k := s.coils[c]
  if k.mode < 2 then (if s.synced c && c ≠ 0 then none else some (k.t0 + k.pj))
  else if k.mode = 2 then (if k.phase = 0 then none else some (k.phT + s.toff c))
  else if k.phase = 4 then some (k.phT + s.dtime c)
  else if k.phase = 5 || k.phase = 3 then some (k.phT + s.ton c)
  else none

/-- The boundary of the coil's present period has come on its own count (Table 11-2). -/
def State.boundaryDue (s : State) (c : Fin 16) : Bool := s.coils[c].on && (s.ownDue c).any fun b => b ≤ s.now

/-- What a boundary of the coil at `b` makes of the module as it now stands. -/
def State.foresee (s : State) (c : Fin 16) (b : Nat) (pulse : Option (Nat × Nat)) : State :=
  State.boundary { s with now := b } c pulse false

/-- The next sync pulse of coil `k`: its instant, P_j and j (R330). -/
def State.pulseTo (s : State) : Nat → Option (Nat × Nat × Nat)
  | 0 =>
    if !s.headOn then none
    else
      let b := s.coils[0].t0 + s.coils[0].pj
      let s' := s.foresee 0 b none
      some (b, s'.coils[0].pj, s'.g (CO_PWM_STAT_DIDX 0))
  | k + 1 =>
    if h : k + 1 < 16 then
      match s.coils[k + 1].relay with
      | x :: _ => some x
      | [] => (s.pulseTo k).map fun x => (x.1 + s.g (CO_PWM_CFG_PHASE k) % or1 x.2.1, x.2.1, x.2.2)
    else none

/-- A terminal whose first change in the coming period, `k'` at the boundary `b`, is a turn-on at most DT away: its outgoing FET
turns off now (R323). -/
def Coil.early (k k' : Coil) (now b dt : Nat) (t2 : Bool) : Coil :=
  let next : Option (Nat × Side) :=
    if k'.side t2 ≠ .off ∧ k'.side t2 ≠ k.side t2 then some (b, k'.side t2)
    else (k'.edges.find? fun e => e.on && e.term2 == t2).map fun e => (e.t, e.side)
  match next with
  | some (t, x) =>
    if now + dt < t || x = k.side t2 || (k.edges.any fun e => e.on && e.term2 == t2 && e.side == x && e.t ≤ b) then k
    else { (k.countDrive now).setSide t2 .off (some x) with edges := k.edges.filter fun e => e.term2 != t2 }
  | none => k

/-- The turn-offs that precede the first edges of the coming period by the dead time fall in the period before (R323). -/
def State.preBoundary (s : State) (c : Fin 16) : State :=
  let dt := s.dtime c
  let next := if s.synced c && c ≠ 0 then (s.pulseTo c).map fun x => (x.1, some (x.2.1, x.2.2)) else (s.ownDue c).map fun b => (b, none)
  match next with
  | some (b, p) =>
    if b ≤ s.now || s.now + dt < b then s
    else
      let k' := (s.foresee c b p).coils[c]
      s.co c fun k => (k.early k' s.now b dt false).early k' s.now b dt true
  | none => s

/-- PWM_BOUNDARY: a coil's PWM boundary is reached (R325). -/
def execPwmBoundary (dt : Nat) (c : Fin 16) (s : State) : Outcome State Fault Refusal :=
  let s := s.tickTo dt
  done (if s.flOn && s.boundaryDue c then s.boundary c none false else s)

/-- PWM_EDGE: counter-timed edges whose instant has come switch their half-bridges, and pending turn-ons whose dead time has
run take place; a turn-off that belongs to the first edge of the coming period takes place too (R323). -/
def execPwmEdge (dt : Nat) (c : Fin 16) (s : State) : Outcome State Fault Refusal :=
  let s := s.tickTo dt
  done (if s.coils[c].on && s.driven c then
    let ph := s.coils[c].phase
    let s := s.co c fun k => k.runEdges s.now
    let k := s.coils[c]
    let s := s.preBoundary c
    -- mode 3: the decay of a mixed setting changes to slow decay after its share of TON
    if k.mode = 3 && ph = 0 && k.phase = 1 && s.g (CO_REG_CFG_DECAY c) ≥ 2 then
      let t := s.now + s.ton c * s.g (CO_REG_CFG_FASTPCT c) / 256
      s.co c fun k => k.counterTo s.now t (s.dtime c) (driveSides (!k.neg)) (.low, .low) (some 2)
    else s
  else s)

/-- The on-time of mode 2 ends now: the decay of TOFF begins, with its slots (R303, R307). -/
def State.endOnTime (s : State) (c : Fin 16) : State :=
  let dt := s.dtime c
  let l := s.toff c
  let dec := s.g (CO_REG_CFG_DECAY c)
  let share := if dec = 0 then 0 else if dec = 1 then l else l * s.g (CO_REG_CFG_FASTPCT c) / 256
  let s := s.co c fun k =>
    let fast := driveSides (!k.neg)
    let k := { k.compTo s.now dt (if share = 0 then (.low, .low) else fast) with phase := if share = 0 then 2 else 1, phT := s.now }
    if 0 < share ∧ share < l then k.counterTo s.now (s.now + share) dt fast (.low, .low) (some 2) else k
  s.slotsChop c l

/-- The decay of mode 3 ends now: the turn-on of the next on-time follows DT later, in the direction of the setpoint taken there
(R304, R306, Table 11-2). -/
def State.endDecay (s : State) (c : Fin 16) : State :=
  let k' := (s.foresee c (s.now + s.dtime c) none).coils[c]
  s.co c fun k => { k.compTo s.now (s.dtime c) (k'.side1, k'.side2) with phase := 4, phT := s.now, edges := [] }

/-- PEAK_COMPARATOR_TRIP: in mode 2 the current has reached the threshold, in mode 3 it has fallen to the valley, after
blanking (R302 to R304). -/
def execPeakComparatorTrip (dt : Nat) (c : Fin 16) (s : State) : Outcome State Fault Refusal :=
  let s := s.tickTo dt
  let k := s.coils[c]
  done (if k.on && s.driven c && s.now - k.edgeOn ≥ s.tblank c then
    if k.mode = 2 && k.phase = 0 then
      (s.co c fun k => { k with maxAll := false, maxCur := false }).endOnTime c
    else if k.mode = 3 && (k.phase = 1 || k.phase = 2) then
      let never := decide (s.now = k.edgeOn + s.tblank c)
      (s.co c fun k => { k with maxAll := k.maxAll && never, maxCur := never }).endDecay c
    else s
  else s)

/-- PHASE_TIME_LIMIT: the phase of unbounded length has lasted 40 µs (R305). -/
def execPhaseTimeLimit (dt : Nat) (c : Fin 16) (s : State) : Outcome State Fault Refusal :=
  let s := s.tickTo dt
  let k := s.coils[c]
  done (if k.on && s.driven c && s.now - k.phT ≥ usCyc 40 then
    let forced := fun (s : State) (m : Bool) =>
      (s.inc (CO_REG_CNT_FORCED c)).co c fun k => { k with maxAny := true, maxCur := m, maxAll := k.maxAll && m }
    if k.mode = 2 && k.phase = 0 then (forced s true).endOnTime c
    else if k.mode = 3 && (k.phase = 1 || k.phase = 2) then (forced s false).endDecay c
    else s
  else s)

/-- SYNC_PULSE: the pulse on its way to coil `c` arrives: it is relayed, and is the boundary of a synchronised coil
(R330, R331). -/
def execSyncPulse (dt : Nat) (c : Fin 16) (s : State) : Outcome State Fault Refusal :=
  let s := s.tickTo dt
  done (match s.coils[c].relay with
    | [] => s
    | (due, pj, j) :: rest =>
      if s.now < due then s
      else
        let s := (s.co c fun k => { k with relay := rest }).relayOn c pj j
        if s.synced c && c ≠ 0 then s.boundary c (some (pj, j)) false else s)

/-! ## Coil converters (R395 to R398) -/

/-- A conversion starts now. -/
def Coil.startConv (k : Coil) (now slot : Nat) : Coil := { k with conv := some { slot := slot, t := now, tick := k.tick } }

/-- COIL_SAMPLE: a settled slot instant has come (R395 to R397). -/
def execCoilSample (dt : Nat) (c : Fin 16) (slot : Fin 3) (s : State) : Outcome State Fault Refusal :=
  let s := s.tickTo dt
  let k := s.coils[c]
  done (match k.slots.find? (fun x => x.1 == slot.val && x.2 ≤ s.now) with
    | none => s
    | some _ =>
      let s := s.co c fun k => { k with slots := k.slots.filter (fun x => x.1 != slot.val) }
      match k.conv with
      | none => s.co c fun k => k.startConv s.now slot
      | some v =>
        if slot.val ≠ 0 then (s.inc (CO_ADC_CNT_URG_DROP c)).inc (CO_REG_CNT_OBS_SKIP c)
        else if v.t + 80 + 120 > k.refT + k.refL then s.inc (CO_REG_CNT_S0_SKIP c)
        else (s.inc (CO_ADC_CNT_S0_LATE c)).co c fun k => { k with s0Wait := true })

/-- An S0 sample of a period begun `age` ticks ago: it belongs to that tick's sums (R346, R398). -/
def Coil.addS0 (k : Coil) (x : Int) (age : Nat) : Coil :=
  let q := x.natAbs
  let k := { k with lastS0 := x, pkS0 := max k.pkS0 (3 * q) }
  if age = 0 then { k with n0 := k.n0 + 1, sum0 := k.sum0 + x, sq0 := k.sq0 + q * q, ab0 := k.ab0 + q }
  else if age = 1 then { k with p0 := k.p0 + 1, ps0 := k.ps0 + x, psq0 := k.psq0 + q * q, pab0 := k.pab0 + q }
  else k

/-- An S1 or S2 sample of a period begun `age` ticks ago (R346). -/
def Coil.addS12 (k : Coil) (x : Int) (age : Nat) : Coil :=
  if age = 0 then { k with n12 := k.n12 + 1, sum12 := k.sum12 + x }
  else if age = 1 then { k with p12 := k.p12 + 1, ps12 := k.ps12 + x }
  else k

/-- COIL_CONVERSION_DONE: the result is delivered 80 counts after the instant, in the frame of the setpoint (R298, R328,
R398). `code` is the converter's code for the current from terminal 1 to terminal 2. -/
def execCoilConversionDone (dt : Nat) (c : Fin 16) (code : BitVec 12) (s : State) : Outcome State Fault Refusal :=
  let s := s.tickTo dt
  done (match s.coils[c].conv with
    | none => s
    | some v =>
      if s.now < v.t + 80 then s
      else
        let flip := s.gb (CO_PWM_CFG_SWAP c) != s.gb (CO_PWM_CFG_INV c)
        let x : Int := if flip then satS 12 (-code.toInt) else code.toInt
        let s := if code.toInt = 2047 || code.toInt = -2048 then s.inc (CO_ADC_CNT_CLIP c) else s
        let s := s.co c fun k => { k with conv := none }
        let s :=
          if v.slot = 0 then
            let s := (s.putI (CO_ADC_S01_S0 c) x).putI (CO_REG_STAT_IMEAS c) (3 * x)
            s.co c fun k => k.addS0 x (s.tick.no - v.tick)
          else
            let s := s.putI (if v.slot = 1 then CO_ADC_S01_S1 c else CO_ADC_S2_S2 c) x
            s.co c fun k => k.addS12 x (s.tick.no - v.tick)
        if s.coils[c].s0Wait then s.co c fun k => { k.startConv s.now 0 with s0Wait := false } else s)

/-! ## What the tick asks of the coils -/

/-- The generators start in one cycle at the first tick mark in READY (R319). -/
def State.startPwm (s : State) : State :=
  let cold := (List.finRange 16).filter (fun c => !s.coils[c].on)
  let s := cold.foldl (fun s c => s.co c fun k => { k with on := true, t0 := s.now, phT := s.now }) s
  cold.foldl (fun s c => s.boundary c none true) s

/-- A tick mark rolls the tick's sums over: those of the tick that ended go to the observer of the next (R343, R398). -/
def Coil.tickRoll (k : Coil) (now : Nat) : Coil :=
  let k := k.countDrive now
  { k with
    p12 := k.n12, ps12 := k.sum12, p0 := k.n0, ps0 := k.sum0, psq0 := k.sq0, pab0 := k.ab0, ptpos := k.tpos, ptneg := k.tneg,
    markS0 := k.lastS0, n12 := 0, sum12 := 0, n0 := 0, sum0 := 0, sq0 := 0, ab0 := 0, tpos := 0, tneg := 0, pkS0 := (3 * k.lastS0).natAbs, maxAll := k.maxCur, maxAny := false }

/-- Every coil at a tick mark: the open-coil count of R90 advances or restarts, MAXON reports the tick that ended (R305). -/
def State.coilTick (s : State) (c : Fin 16) : State :=
  let k := s.coils[c]
  let sp := k.spIn.natAbs
  let meets := k.mode ≠ 0 && s.energised (axisOf c) && s.driven c && decide (sp ≥ 512) && k.maxAll && decide (8 * k.pkS0 < sp)
  let s := s.putB (CO_REG_STAT_MAXON c) k.maxAny
  s.co c fun k => { k.tickRoll s.now with openN := if meets then k.openN + 1 else 0 }

end Sys2Proof.Machine
end

