-- ==== Sys2Proof/Machine/Current.lean ====
section
/-!
DEFINITION. Microstep sequencer, adaptive reduction, thermal governor, short-time peak and coil identity check (R97 to R105,
R290 to R297, R311 to R316).
-/

namespace Sys2Proof.Machine

open Host

/-! ## Setpoints (R290 to R297) -/

/-- One setpoint magnitude (R292). -/
def spMag (amp sv : Nat) : Int := ((amp * sv + 32768) / 65536 : Nat)

/-- Coil A and coil B setpoints at electrical angle `th` (R291, R292, Table 10-1). -/
def setpoints (th amp : Nat) : Int × Int :=
  let i := th % 4096
  let lo := spMag amp (sineTab i)
  let hi := spMag amp (sineTab (4096 - i))
  if th / 4096 % 4 = 0 then (hi, lo)
  else if th / 4096 % 4 = 1 then (-lo, hi)
  else if th / 4096 % 4 = 2 then (-hi, -lo)
  else (lo, -hi)

/-- Electrical angle at an integer position (R290). -/
def State.theta (s : State) (n : Fin 8) (p : Int) : Nat := ((p + s.g (AX_SEQ_CFG_EOFS n)) % 16384).toNat

/-- The axis stands where the hold current may apply: HOLD, or FOLLOW (R295). -/
def AxState.restful : AxState → Bool
  | .hold | .follow => true
  | _ => false

/-- The axis is in the still phase of a calibration (R361). -/
def Axis.stillCal (a : Axis) : Bool := a.obs.cal.any fun c => c.phase = 1

/-- State current of R295 in the present tick; RUN in the still phase of a calibration (R361). -/
def State.stateCurrent (s : State) (n : Fin 8) : Nat :=
  let run := s.g (AX_SEQ_CUR_RUN n)
  let hold := min run (s.g (AX_SEQ_CUR_HOLD n))
  let a := s.axes[n]
  if !a.st.restful || a.stillCal || a.vel ≠ 0 then run
  else if a.holdStart then hold
  else match a.rampAt with
    | none => run
    | some k0 =>
      let t := (s.tick.no - k0) * s.g CLK_TICK_CFG_PERIOD
      let r := msCyc (s.g (AX_SEQ_HOLD_HOLD_RAMP n))
      if t ≥ r then hold else run - (run - hold) * t / r

/-- The reduction factor after one tick (R296). -/
def State.acrNext (s : State) (n : Fin 8) (stalled : Bool) : Nat :=
  let a := s.axes[n]
  if !s.gb (AX_SEQ_CFG_ACR_EN n) then 256
  else if stalled || a.st == .homing || a.st == .quiescing || a.stillCal then 256
  else
    let la := (s.gi (AX_OBS_LA_LA n)).natAbs
    let g := s.g (AX_ACR_STAT_G n)
    let valid := s.gb (AX_OBS_LA_VALID n)
    let lim := fun x => clampN (min 256 (s.g (AX_ACR_CFG_MIN n))) 256 x
    if valid && la < s.g (AX_ACR_CFG_LA_LO n) then lim (g - or1 (s.g (AX_ACR_CFG_DN n)))
    else if !valid || la > s.g (AX_ACR_CFG_LA_HI n) then lim (g + 4 * or1 (s.g (AX_ACR_CFG_UP n)))
    else lim g

/-- The ceiling term C of R297. -/
def State.ceilTerm (s : State) (n : Fin 8) : Nat :=
  let c := s.g (PWR_GOV_CEIL_CEIL n)
  let h := s.g (AX_HOME_CFG_HCUR n)
  let c := if s.axes[n].st == .homing && (s.axes[n].home.any fun x => x.method = 0 && x.phase = 1) then c * (if h = 0 then 256 else h) / 256 else c
  if s.gb (AX_OBS_CFG_CAR_EN n) then c * 4035 / 4096 else c

/-- The carrier's share of a setpoint (R344): `m` is the carrier index, the shift rounds toward minus infinity. -/
def carrierOf (sp : Int) (amp n m : Nat) : Int :=
  let sm := rdiv (4096 * sinTurn m n) (2 ^ 30)
  sp * (amp : Int) * sm / 2 ^ 24

/-- CAR_AMP and CAR_DIV in force (R344). -/
def State.carAmp (s : State) (n : Fin 8) : Nat := clampN 16 61 (s.g (AX_OBS_CFG_CAR_AMP n))
/-- CAR_DIV in force. -/
def State.carDiv (s : State) (n : Fin 8) : Nat := max 8 (s.g (AX_OBS_CFG_CAR_DIV n))

/-- The angle of phase 3 at `el` cycles from its start: held for 100 ms, a turn of 16,384 microsteps at 20,480 per second, and
back (R314). -/
def sweepAngle (th el : Nat) : Nat :=
  if el < msCyc 100 then th
  else if el < msCyc 900 then (th + (el - msCyc 100) * 20480 / 400000000) % 16384
  else if el < msCyc 1700 then (th + 16384 - (el - msCyc 900) * 20480 / 400000000) % 16384
  else th

/-- The setpoints of phase 3 for the coming tick: RUN, below the ceiling (R297, R314). -/
def State.sweepPass (s : State) (n : Fin 8) (d : IdchkSt) : State :=
  let amp := min (s.g (AX_SEQ_CUR_RUN n)) (min (s.ceilTerm n) 4095)
  let (x, y) := setpoints (sweepAngle d.theta (s.tick.mark + s.g CLK_TICK_CFG_PERIOD - d.t0)) amp
  let pass := fun (s : State) (k : Fin 16) (sp : Int) => s.co k fun q => { q with sp := sp, car := 0, spNew := !q.gates }
  pass (pass s (coilA n) x) (coilB n) y

/-- The sequencer of one axis at its commit point (R290 to R297): setpoints to the regulators, status words. -/
def State.sequence (s : State) (n : Fin 8) (stalled : Bool) : State :=
  let a := s.axes[n]
  if !a.st.energised then
    let s := ((s.put (AX_SEQ_SP_SP_A n) 0).put (AX_SEQ_SP_SP_B n) 0).put (AX_SEQ_STAT_AMP n) 0
    let s := (s.put (AX_SEQ_STAT_HOLD_RED n) 0).put (AX_SEQ_STAT_CEIL_LIM n) 0
    match a.idc with
    | some d => if d.pair = 8 then s.sweepPass n d else s
    | none => s
  else
    let th := s.theta n (a.pos / 65536)
    let cur := s.stateCurrent n
    let g := s.acrNext n stalled
    let a1 := cur * g / 256
    let c := s.ceilTerm n
    let amp := min a1 (min c 4095)
    let (x, y) := setpoints th amp
    let car := fun (sp : Int) =>
      if s.gb (AX_OBS_CFG_CAR_EN n) && !a.obs.susp then carrierOf sp (s.carAmp n) (s.carDiv n) a.obs.m else 0
    let pass := fun (s : State) (k : Fin 16) (sp : Int) => s.co k fun q => { q with sp := sp, car := car sp, spNew := !q.gates }
    let s := pass (pass s (coilA n) x) (coilB n) y
    let s := (s.putI (AX_SEQ_SP_SP_A n) x).putI (AX_SEQ_SP_SP_B n) y
    let s := (s.put (AX_SEQ_STAT_AMP n) amp).put (AX_SEQ_STAT_ANGLE n) th
    let s := (s.put (AX_ACR_STAT_G n) g).putB (AX_SEQ_STAT_ACR_RED n) (decide (g < 256))
    let s := (s.putB (AX_SEQ_STAT_HOLD_RED n) (decide (cur < s.g (AX_SEQ_CUR_RUN n)))).putB (AX_SEQ_STAT_CEIL_LIM n) (decide (c < a1))
    s.ob n fun o => { o with r0 := ⟨th, a.obs.m, a.obs.susp, amp⟩ }

/-- The planned velocity has been zero, with no step in FOLLOW, for HOLD_DLY ms at a tick mark (R295). -/
def State.holdDue (s : State) (n : Fin 8) : Bool :=
  let a := s.axes[n]
  let dly := msCyc (s.g (AX_SEQ_HOLD_HOLD_DLY n))
  a.st.restful && a.rampAt.isNone && !a.holdStart &&
    (match a.zeroAt with
      | some t => decide (s.tick.mark - t ≥ dly)
      | none => false) && (a.st != .follow || decide (s.tick.mark - a.fol.lastStep ≥ dly))

/-- The ramp to HOLD starts at this tick's mark. -/
def State.holdStartRamp (s : State) (n : Fin 8) : State :=
  if s.holdDue n then s.ax n fun a => { a with rampAt := some s.tick.no } else s

/-- HOLD_REDUCTION_START: the state current starts to fall to HOLD (R295). -/
def execHoldReductionStart (dt : Nat) (n : Fin 8) (s : State) : Outcome State Fault Refusal :=
  let s := s.tickTo dt
  done (if s.tick.commitDue then s.holdStartRamp n else s)

/-- RANGE and EOFS may take force: the axis is OFF or IDLE and no identity check runs (R294). -/
def State.seqQuiet (s : State) (n : Fin 8) : Bool :=
  (s.axes[n].st == .off || s.axes[n].st == .idle) && !s.gb (AX_IDCHK_STAT_BUSY n)

/-- RANGE and EOFS put in force. -/
def State.seqApply (s : State) (n : Fin 8) (r e : Nat) : State :=
  let s := (s.put (AX_SEQ_CFG_RANGE n) r).put (AX_SEQ_CFG_EOFS n) e
  ((s.put (AX_SEQ_STAT_RANGE_ACT n) r).put (AX_SEQ_STAT_PEND n) 0).ax n fun a => { a with heldSeq := none }

/-! ## Governor (R97 to R105) -/

/-- Base ceiling of an axis, mA (R97, R98). -/
def State.baseMa (s : State) (n : Fin 8) : Nat :=
  let fs := s.fs n
  let x := min fs (s.boot.opts.ceil.getD n 1500)
  let x := match s.axes[n].mon.irated with
    | some i => min x i
    | none => x
  if fs = 6000 && !s.gb (PWR_GOV_CEIL_BOOST_LOCK n) then x else min x 4200

/-- The time a setpoint has stood above or at most at 4,200 mA, in quarter cycles, added or drained (R98). -/
def boostAdd (acc dt : Nat) (above : Bool) : Nat := if above then acc + 4 * dt else acc - dt

/-- Both accumulators of an axis brought up to the present. -/
def State.boostRun (s : State) (n : Fin 8) : State :=
  let above := fun (c : Fin 16) => s.fs n = 6000 && decide (s.coils[c].sp.natAbs * 6000 > 4200 * 4096)
  s.ax n fun a =>
    { a with
      boostA := boostAdd a.boostA (s.now - a.boostAt) (above (coilA n)),
      boostB := boostAdd a.boostB (s.now - a.boostAt) (above (coilB n)), boostAt := s.now }

/-- Two seconds in quarter cycles. -/
def boost2s : Nat := 3200000000

/-- BOOST_LOCK sets where an accumulator has reached 2.0 s (R98). -/
def State.boostLock (s : State) (n : Fin 8) : State :=
  let a := s.axes[n]
  if !s.gb (PWR_GOV_CEIL_BOOST_LOCK n) && (a.boostA ≥ boost2s || a.boostB ≥ boost2s) then s.put (PWR_GOV_CEIL_BOOST_LOCK n) 1 else s

/-- BOOST_LOCK clears where both accumulators have drained to 1.0 s (R98). -/
def State.boostUnlock (s : State) (n : Fin 8) : State :=
  let a := s.axes[n]
  if s.gb (PWR_GOV_CEIL_BOOST_LOCK n) && 2 * a.boostA ≤ boost2s && 2 * a.boostB ≤ boost2s then s.put (PWR_GOV_CEIL_BOOST_LOCK n) 0 else s

/-- BOOST_LOCK: a coil's time above 4,200 mA reaches 2.0 s (R98). -/
def execBoostLock (dt : Nat) (n : Fin 8) (s : State) : Outcome State Fault Refusal :=
  let s := s.tickTo dt
  done ((s.boostRun n).boostLock n)

/-- BOOST_UNLOCK: both accumulators have drained to 1.0 s (R98). -/
def execBoostUnlock (dt : Nat) (n : Fin 8) (s : State) : Outcome State Fault Refusal :=
  let s := s.tickTo dt
  done ((s.boostRun n).boostUnlock n)

/-- Hottest sensor of a station, 1/16 °C; at T_GOV while its reading is stale (R93). The warning, the trip and the checks of
R96 keep the last reading then: the spec does not say that they change (log entry 53, DESIGN CHOICE). -/
def State.hottest (s : State) (st : Fin 2) : Int :=
  if s.power.stale[st] then (s.g PWR_GOV_CFG_T_GOV * 16 : Nat)
  else s.gi (if st = 0 then PWR_GOV_TEMP_TMAX_S0 else PWR_GOV_TEMP_TMAX_S1)

/-- A field of the governor's sample `i` of the last tick mark: 0 `PWR_GOV_CFG`, 1 `PWR_GOV_TEMP`, 2 + n `PWR_AXCFGn` (R20). -/
def State.govIn (s : State) (i : Nat) (f : Fld) : Nat := bits (s.tick.gov.getD i 0).toNat f.lo f.w

/-- The hottest sensor of a station as the governor sampled it (R20, R93). -/
def State.govTemp (s : State) (st : Fin 2) : Int :=
  if bit (s.tick.gov.getD 10 0).toNat st.val then (s.govIn 0 PWR_GOV_CFG_T_GOV * 16 : Nat)
  else
    let f := if st = 0 then PWR_GOV_TEMP_TMAX_S0 else PWR_GOV_TEMP_TMAX_S1
    sgn f.w (s.govIn 1 f)

/-- On-resistance of a FET in 1/64 mΩ at a temperature in 1/16 °C (R99). -/
def ron64 (t : Int) : Nat := (3120 + t).toNat

/-- One averaging step: `x` moves toward `v` by `dt`/`tau`. -/
def ema (x v dt tau : Nat) : Nat := if v ≥ x then x + (v - x) * dt / tau else x - (x - v) * dt / tau

/-- The averages of a coil over the tick that ended: mean square and mean magnitude of its samples, or of the last one where
the tick had none, and the switching periods that began in `dt` cycles (R99). -/
def State.coilAvg (s : State) (c : Fin 16) (dt : Nat) : State :=
  let fs := s.fs (axisOf c)
  let tau := 50000000 * 2 ^ (min 6 (s.govIn 0 PWR_GOV_CFG_TAU))
  let k := s.coils[c]
  let one := k.lastS0.natAbs
  let sq := if k.p0 = 0 then one * one * 2 ^ 32 else k.psq0 * 2 ^ 32 / k.p0
  let ab := if k.p0 = 0 then one * 2 ^ 32 else k.pab0 * 2 ^ 32 / k.p0
  let f := k.nsw * 400000000 * 2 ^ 32 / or1 dt
  let dt := min dt tau
  s.co c fun k => { k with
    ims := ema k.ims (sq * (3 * fs) * (3 * fs) / 4096 / 4096) dt tau, iavg := ema k.iavg (ab * (3 * fs) / 4096) dt tau,
    fsw := ema k.fsw f dt tau, nsw := 0 }

/-- Conduction and switching loss of an axis, nW (R99). -/
def State.axisLoss (s : State) (n : Fin 8) : Nat × Nat :=
  let st := stationOf n
  let r := ron64 (s.govTemp st)
  let one := fun (c : Fin 16) =>
    let k := s.coils[c]
    (k.ims * 2 * r / 64 / 2 ^ 32, s.vmb st * (k.iavg / 2 ^ 16) * 40 * (k.fsw / 2 ^ 16) / 1000000 / 2 ^ 32)
  ((one (coilA n)).1 + (one (coilB n)).1, (one (coilA n)).2 + (one (coilB n)).2)

/-- kP of R100 with 16 fractional bits, from the losses at base and the power available, nW. -/
def kpOf (c sw : Nat) (av : Int) : Nat :=
  if (c : Int) + sw ≤ av then 65536
  else if av ≤ 0 then 0
  else if c = 0 then (av.toNat * 65536) / or1 sw
  else (isqrt ((sw * sw + 4 * c * av.toNat) * 2 ^ 32) - sw * 65536) / (2 * c)

/-- kT of R102 with 16 fractional bits. -/
def ktOf (t tgov : Int) (f : Nat) : Nat :=
  let x := t - (tgov - 10) * 16
  if x ≤ 0 then 65536 else if x > 160 then f else 65536 - (65536 - f) * x.toNat / 160

/-- The factors of the two priorities after the four steps of R101. -/
def kpSteps (f : Nat) (c0 s0 c1 s1 : Nat) (av : Int) : Nat × Nat :=
  let k0 := kpOf c0 s0 (av - c1 - s1)
  let k0 := if k0 < f then f else k0
  let used := c0 * k0 / 65536 * k0 / 65536 + s0 * k0 / 65536
  let k1 := kpOf c1 s1 (av - used)
  if k1 < f then (f, f) else (k0, k1)

/-- The ceiling of one axis published (R103): `k` is its factor with 16 fractional bits, `ms` the cycles since the last
publication. The first publication has no ceiling to rise from. A `CEIL` of 4,096, which the field cannot hold, reads 4,095
(log entry 53, DESIGN CHOICE). -/
def State.pubCeil (s : State) (n : Fin 8) (k dt : Nat) : State :=
  let base := s.baseMa n
  let tgt := base * k
  let cur := s.power.frac[n]
  let x := if cur = 0 || tgt < cur then tgt else min tgt (cur + base * 256 * dt / 400000)
  let ma := (x + 32768) / 65536
  let s := s.pw fun p => { p with frac := vupd p.frac n fun _ => x }
  let s := (s.put (PWR_GOV_CEIL_CEIL n) (min 4095 (ma * 4096 / s.fs n))).put (PWR_GOV_CEIL_CEIL_MA n) ma
  s.putB (PWR_GOV_CEIL_LIMITED n) (decide (x < base * 65536))

/-- The loss estimate of R103 in nW and the steps kP of both priorities (R104), from the losses of all axes; `f` is the floor. -/
def State.govPlan (s : State) (f : Nat) : Nat × Nat × Nat :=
  let at_ := (List.finRange 8).map fun n =>
    let l := s.axisLoss n
    let b := s.baseMa n * 65536
    let c := s.power.frac[n]
    let l' := if c = 0 then l else (l.1 * b / c * b / c, l.2 * b / c)
    (s.govIn (2 + n.val) (PWR_AXCFG_GOV_PRIO n) != 0, l, l')
  let sum := fun (g : Bool × (Nat × Nat) × (Nat × Nat) → Nat) => at_.foldl (fun x y => x + g y) 0
  let pest := sum (fun y => y.2.1.1 + y.2.1.2) + 2000000000
  let c0 := sum fun y => if y.1 then 0 else y.2.2.1
  let s0 := sum fun y => if y.1 then 0 else y.2.2.2
  let c1 := sum fun y => if y.1 then y.2.2.1 else 0
  let s1 := sum fun y => if y.1 then y.2.2.2 else 0
  let av : Int := (s.govIn 0 PWR_GOV_CFG_BUDGET * 1000000 : Nat) - 2000000000
  let k := kpSteps f c0 s0 c1 s1 av
  (pest, k.1, k.2)

/-- The governor's work of one tick, from what it sampled at the tick mark, published at the commit point (R20, R97 to R104).
`P_EST` is rounded to the nearest milliwatt (log entry 53, DESIGN CHOICE: the spec gives no rounding). -/
def State.govern (s : State) : State :=
  if s.boot.ceilFrozen then s
  else
    let dt := s.now - s.power.ceilAt
    let s := forFin 16 (fun c s => s.coilAvg c dt) s
    let s := forFin 8 (fun n s => (s.boostLock n).boostUnlock n) s
    let f := or1 (s.govIn 0 PWR_GOV_CFG_FLOOR) * 4096
    let plan := s.govPlan f
    let kt := fun (st : Fin 2) => ktOf (s.govTemp st) (s.govIn 0 PWR_GOV_CFG_T_GOV) f
    let s := forFin 8 (fun n s =>
      s.pubCeil n (max f (min (kt (stationOf n)) (if s.govIn (2 + n.val) (PWR_AXCFG_GOV_PRIO n) ≠ 0 then plan.2.2 else plan.2.1))) dt) s
    let s := (s.put PWR_GOV_STAT_P_EST (satU 16 ((plan.1 + 500000) / 1000000))).put PWR_GOV_STAT_KP (plan.2.1 / 256)
    let s := s.pw fun p => { p with ceilAt := s.now, gov := plan.2.1 }
    let active := (List.finRange 8).any fun n => s.gb (PWR_GOV_CEIL_LIMITED n)
    (s.putB PWR_STAT_GOV_ACTIVE active).levelSet 20 0 active (plan.2.1 / 256)

/-! ## Coil identity check (R311 to R316) -/

/-- The check of an axis ends with a result, its bridges high-Z (R315). -/
def State.idchkEnd (s : State) (n : Fin 8) (res : Nat) : State :=
  let s := (s.ax n fun a => { a with idc := none }).bridgesOff n
  let s := (s.put (AX_IDCHK_STAT_RESULT n) res).put (AX_IDCHK_STAT_BUSY n) 0
  let s := s.pulse 38 n res
  s.fbAdd 0x22 ([n.val, res, s.g (AX_IDCHK_STAT_DIR n), s.g (AX_IDCHK_STAT_FIXED n)]
    ++ beBytes 2 (s.g (AX_IDCHK_RA_R_MOHM n)) ++ beBytes 2 (s.g (AX_IDCHK_RB_R_MOHM n)) ++ [s.g (AX_IDCHK_STAT_PAIRS n)])

/-- AUTOFIX: coil B's SWAP inverted in the staged copy and in the pending set (R329). -/
def State.autofix (s : State) (n : Fin 8) : State :=
  let c := coilB n
  let v := 1 - s.g (CO_PWM_CFG_SWAP c)
  let s := s.putSt (CO_PWM_CFG_SWAP c) v
  let p := match s.coils[c].pend with
    | some p => p
    | none =>
      { per := s.word (CO_PWM_PER_PERIOD c).a, cmp := s.word (CO_PWM_CMP_CMP c).a, cfg := s.word (CO_PWM_CFG_DT c).a,
        at_ := s.now, perW := false, cmpW := false }
  let p := { p with cfg := W (setBits p.cfg.toNat 9 1 v) }
  (s.co c fun k => { k with pend := some p }).put (AX_IDCHK_STAT_FIXED n) 1

/-- Results of phase 1 (Table 10-4), 0 where phase 2 follows. -/
def pairsResult (p : Nat) : Nat :=
  let c := fun k => bit p (k - 1)
  let rest := c 3 || c 4 || c 5 || c 6
  if !c 1 && !c 2 && ((c 3 && c 6) || (c 4 && c 5)) then 5
  else if c 1 && c 2 && rest then 6
  else if !c 1 && !c 2 then 4
  else if !c 1 then 2
  else if !c 2 then 3
  else 0

/-- Winding resistance from the duties of `k` periods of 160,000 sixteenths of a count, their sum `sum` (R313), mΩ; the duty of
the period in progress where no period began in the last 5 ms. -/
def State.idchkR (s : State) (c : Fin 16) (k : Nat) (sum : Int) (testI : Nat) : Nat :=
  let ma := testI * s.fs (axisOf c) / 4096
  let st := stationOfCoil c
  let (k, sum) := if k = 0 then (1, s.coils[c].duty) else (k, sum)
  if ma = 0 then (Config.freeValue s.free).toNat % 65536
  else satU 16 (sum.toNat * s.vmb st * 1000 / (160000 * k) / ma - 2 * ron64 (s.hottest st) / 64)

/-- A resistance differs from the one in force by more than `tol` percent (R313). -/
def rOff (rc r tol : Nat) : Bool := decide ((if r ≥ rc then r - rc else rc - r) * 100 > tol * rc)

/-- TMAX of an axis, cycles. -/
def State.idTmax (s : State) (n : Fin 8) : Nat := msCyc (or1 (s.g (AX_IDCHK_CFG_TMAX n)))

/-- The current of a test pulse is back at zero: the bridges are high-Z for 1 ms before the next pair (R312); after the sixth,
phase 2 follows, or the end of the check. -/
def State.idZero (s : State) (n : Fin 8) : State :=
  match s.axes[n].idc with
  | none => s
  | some d =>
    if !d.decay then s
    else if d.pair < 6 then s.ax n fun a => { a with idc := some { d with pair := d.pair + 1, decay := false, t0 := s.now + msCyc 1 } }
    else
      let two := decide (pairsResult (s.g (AX_IDCHK_STAT_PAIRS n)) = 0)
      let s := if two then s.put (AX_IDCHK_STAT_PHASE n) 2 else s
      s.ax n fun a => { a with idc := some { d with pair := if two then 7 else 9, decay := false, t0 := s.now } }

/-- IDCHK_PULSE_END: the current reaches I_T, or TMAX has run, and the current is driven back to zero (R312). Where the zero of the
pulse before was not reported, the pulse began at an instant that the spec does not give: the rise time is a free value within
the time since (log entry 27). -/
def execIdchkPulseEnd (dt : Nat) (n : Fin 8) (reached : Bool) (s : State) : Outcome State Fault Refusal :=
  let s := s.tickTo dt
  done (match s.axes[n].idc with
    | none => s
    | some d =>
      let rest := if d.decay then msCyc 1 else 0
      let el := s.now - d.t0 - rest
      if d.pair = 0 || d.pair > 6 || (d.decay && d.pair = 6) || decide (s.now < d.t0 + rest) || (!reached && decide (el < s.idTmax n))
      then s
      else
        let pair := if d.decay then d.pair + 1 else d.pair
        let tr := if d.decay then (Config.freeValue s.free).toNat % (el + 1) else el
        let s := s.useFree
        let s := if reached then s.putBit (AX_IDCHK_STAT_PAIRS n) (pair - 1) true else s
        let s :=
          if reached && pair ≤ 2 then
            let q := d.testI * s.fs n * 10000
            let l := if q = 0 then (Config.freeValue s.free).toNat % 65536
              else satU 16 (s.vmb (stationOf n) * tr * 25 * 4096 / q)
            s.useFree.put (if pair = 1 then AX_IDCHK_RA_L_UH n else AX_IDCHK_RB_L_UH n) l
          else s
        s.ax n fun a => { a with idc := some { d with pair := pair, decay := true, t0 := s.now } })

/-- DECAY_ZERO_CROSS: the current reaches zero in fast decay: slow decay for the rest of the phase (R307); in the decay of a test
pulse that the coil carries, the bridges go high-Z (R312, log entry 58, DEDUCED). -/
def execDecayZeroCross (dt : Nat) (c : Fin 16) (s : State) : Outcome State Fault Refusal :=
  let s := s.tickTo dt
  let k := s.coils[c]
  done (if k.on && s.driven c && k.mode ≥ 2 && k.phase = 1 then
    s.co c fun k => { k.compTo s.now (s.dtime c) (.low, .low) with phase := 2 }
  else if s.testFets c ≠ 0 then s.idZero (axisOf c)
  else s)

/-- Phase 3 begins: the coils are energised at the angle of the measured position (R314). -/
def State.idSweep (s : State) (n : Fin 8) : State :=
  let m := s.axes[n].dp.m
  ((s.bridgesOff n).put (AX_IDCHK_STAT_PHASE n) 3).ax n fun a => { a with idc := a.idc.map fun d =>
    { d with pair := 8, t0 := s.now, m0 := m, theta := s.theta n m, dm := none } }

/-- IDCHK_COMPLETE: the running phase ends: phase 2 with the two mean duties, which may lead to phase 3, or the check
itself (R313 to R315). The duties are those that the periods of phase 2 have formed; the command carries none. -/
def execIdchkComplete (dt : Nat) (n : Fin 8) (_ _ : Unit) (s : State) : Outcome State Fault Refusal :=
  let s := s.tickTo dt
  done (match s.axes[n].idc with
    | none => s
    | some d =>
      if d.pair = 9 then s.idchkEnd n (pairsResult (s.g (AX_IDCHK_STAT_PAIRS n)))
      else if d.pair = 7 then
        if s.now - d.t0 < msCyc 40 then s
        else
          let ra := s.idchkR (coilA n) d.na d.sa d.testI
          let rb := s.useFree.idchkR (coilB n) d.nb d.sb d.testI
          let s := (s.useFree.useFree.put (AX_IDCHK_RA_R_MOHM n) ra).put (AX_IDCHK_RB_R_MOHM n) rb
          let bad := (s.axes[n].mon.rcoil).elim false fun rc => rOff rc ra (s.g (AX_IDCHK_CFG_RTOL n)) || rOff rc rb (s.g (AX_IDCHK_CFG_RTOL n))
          if bad then s.idchkEnd n 7
          else if s.gb (AX_IDCHK_CFG_DIR_EN n) && s.g (AX_PINSTAT_FB_ACT n) ≠ 0 then s.idSweep n
          else s.idchkEnd n 1
      else if d.pair = 8 then
        match d.dm with
        | some m =>
          if s.now - d.t0 < msCyc 1700 then s
          else
            let dir := if m ≥ 8192 then 1 else if m ≤ -8192 then 2 else 3
            let s := s.put (AX_IDCHK_STAT_DIR n) dir
            let s := if dir = 2 && s.gb (AX_IDCHK_CFG_AUTOFIX n) then s.autofix n else s
            s.idchkEnd n 1
        | none => s
      else s)

/-- A cause of `PWR_FLTCAUSEn` is active on the axis (R311): the conditions themselves, which an OFF or IDLE axis does not
record. -/
def State.idCause (s : State) (n : Fin 8) : Bool :=
  let st := stationOf n
  s.g (PWR_FLTCAUSE_BITS n) ≠ 0 ||
  s.gBit PWR_COILFLT_OC (coilA n) || s.gBit PWR_COILFLT_OC (coilB n) || s.gBit PWR_COILFLT_OPEN (coilA n) ||
  s.gBit PWR_COILFLT_OPEN (coilB n) || !s.gb (PWR_STAT_VM_OK st) || s.gb (PWR_STAT_OV st) || s.gb (PWR_STAT_REV st) ||
  s.gb (PWR_STAT_CLAMP st) || s.gb (PWR_STAT_TEMP_TRIP st) || s.gBit PWR_MOIST_STAT_FB_FAULT n ||
  s.gBit PWR_MOIST_STAT_IDD_FAULT n

/-- Causes of `AXn_FAULT` that stand on the axis: its bits, an encoder fault, assigned trip latches (R316). -/
def State.idAxCauses (s : State) (n : Fin 8) : Nat :=
  s.g (AX_FAULT_BITS n) + 2 ^ 32 * s.g (AX_DP_STAT_ENC_FLT n)
    + 2 ^ 33 * gather 4 fun t => bit (s.g PWR_TRIP_STAT_LATCH) t && bit (s.g (PWR_TRIP_CFG_AXMASK t)) n

/-- A request of a check is taken: the results clear and the first pulse begins, or it is refused (R311). -/
def State.idchkStart (s : State) (n : Fin 8) (ok : Bool) : State :=
  let s := s.ax n fun a => { a with idgo := false }
  if !ok || s.axes[n].idc.isSome then s.put (AX_IDCHK_STAT_REFUSED n) 1
  else
    let s := ((s.put (AX_IDCHK_STAT_REFUSED n) 0).put (AX_IDCHK_STAT_RESULT n) 0).put (AX_IDCHK_STAT_DIR n) 0
    let s := ((s.put (AX_IDCHK_STAT_FIXED n) 0).put (AX_IDCHK_STAT_PAIRS n) 0).put (AX_IDCHK_STAT_BUSY n) 1
    let s := (s.setWord (AX_IDCHK_RA_R_MOHM n).a 0).setWord (AX_IDCHK_RB_R_MOHM n).a 0
    let s := s.put (AX_IDCHK_STAT_PHASE n) 1
    let i := min (s.g (AX_IDCHK_CFG_ITEST n)) (s.g (PWR_GOV_CEIL_CEIL n))
    s.ax n fun a => { a with idc := some { pair := 1, t0 := s.now, testI := i, had := s.idAxCauses n, decay := false, na := 0, sa := 0, nb := 0, sb := 0, m0 := 0, theta := 0, dm := none } }

/-- The identity check at a tick mark: a request starts or is refused (R311), a running check may abort (R316), the decay of the
last pulse ends after TMAX at the latest (Table 10-5, log entry 58, DEDUCED), the sweep of phase 3 takes its positions (R314). -/
def State.idchkTick (s : State) (n : Fin 8) : State :=
  let a := s.axes[n]
  let calm := (s.dev == .ready || s.dev == .run) && (a.st == .off || a.st == .idle) && !s.idCause n
  let s := if a.idgo then s.idchkStart n calm else s
  match s.axes[n].idc with
  | none => s
  | some d =>
    let x := s.idAxCauses n
    let new := x - (x &&& d.had)
    let d := { d with had := x &&& d.had }
    let s := s.ax n fun a => { a with idc := some d }
    if !calm || new ≠ 0 || s.gBit DEV_BLKRST_STAT_BUSY n then s.idchkEnd n 8
    else if d.pair = 6 && d.decay && decide (s.idTmax n ≤ s.now - d.t0) then s.idZero n
    else if d.pair = 8 then
      let el := s.now - d.t0
      let m := a.dp.m
      let d := if el < msCyc 100 then { d with m0 := m }
        else if el ≥ msCyc 900 && d.dm.isNone then { d with dm := some (m - d.m0) } else d
      s.ax n fun a => { a with idc := some d }
    else s

end Sys2Proof.Machine
end

