-- ==== Sys2Proof/Machine/Observer.lean ====
section
/-!
DEFINITION. The bearing observer and its calibration (R342 to R357, R360 to R366). The observer runs once in each tick, at
the first of the tick's report command and its commit point; its words are published at the commit point.
-/

namespace Sys2Proof.Machine

open Host

/-- The product of a number with a sine or cosine of 30 fractional bits. -/
def mulTrig (x t : Int) : Int := rdiv (x * t) (2 ^ 30)

/-- Units of speed: how many units of the planned velocity make 1/256 rev/s (R343). -/
def State.speedUnit (s : State) (n : Fin 8) : Nat := 1048576 * or1 s.axes[n].mon.steps

/-- Both coils of the axis are in mode 1, 2 or 3. -/
def State.modesOk (s : State) (n : Fin 8) : Bool := s.coils[coilA n].mode ≠ 0 && s.coils[coilB n].mode ≠ 0

/-- Blend limits in force: BL_LO and the BL_HI that acts (R351). -/
def State.blend (s : State) (n : Fin 8) : Nat × Nat :=
  let lo := s.g (AX_OBS_BLEND_BL_LO n)
  let hi := s.g (AX_OBS_BLEND_BL_HI n)
  (lo, if hi ≤ lo then lo + 1 else hi)

/-- The observer is emptied at an entry to an energised state, `fresh` from OFF or IDLE (R344, R349, R357, R364). -/
def ObsSt.enter (o : ObsSt) (fresh : Bool) : ObsSt :=
  { o with
    m := 0, susp := false, win := [], edf := 0, eqf := 0, iPrevA := 0, iPrevB := 0, loTicks := 0, emfTicks := 0, hist := [],
    hfValid := false, lost := o.lost || o.hfValid, jam := 0, coll := 0, rearm := none, due := none, armed := o.armed || fresh }

/-- Window and filters emptied (R356, R364). -/
def ObsSt.flush (o : ObsSt) : ObsSt :=
  { o with win := [], edf := 0, eqf := 0, loTicks := o.loTicks, hist := [], jam := 0, coll := 0 }

/-- A tick mark: the carrier advances, suspends or resumes (R344, R345), and the values in force move on. -/
def State.obsMark (s : State) (n : Fin 8) : State :=
  let o := s.axes[n].obs
  let sp := s.axes[n].vel.natAbs
  let hi := (s.blend n).2 * s.speedUnit n
  let emf := s.gb (AX_OBS_CFG_EMF_EN n)
  let susp := emf && (if o.susp then decide (sp ≥ hi) else decide (8 * sp > 9 * hi))
  let back := o.susp && !susp
  s.ax n fun a => { a with
    obsRan := false, stallT := false, closRan := false, closRep := false, rep := none, keep := none,
    obs := { o with
      susp := susp, m := if back then 0 else (o.m + 1) % s.carDiv n, win := if back then [] else o.win,
      r2 := o.r1, r1 := o.r0 } }

/-! ## Demodulation (R346 to R348) -/

/-- y of a coil in setpoint codes with 8 fractional bits: the mean of its S1 and S2 samples, or the previous one. -/
def obsY (k : Coil) (prev : Int) : Int := if k.p12 = 0 then prev else rdiv (768 * k.ps12) k.p12

/-- The window with this tick's entry, at most `n` entries (R347). A tick with the carrier suspended empties it. -/
def ObsSt.push (o : ObsSt) (n : Nat) (t : WinTick) : List WinTick := if o.r2.susp then [] else (t :: o.win).take n

/-- Correlation of the window with the carrier: twice the mean of `f` times `g` (R347). -/
def corr (win : List WinTick) (n : Nat) (f : WinTick → Int) (g : Nat → Int) : Int :=
  rdiv (2 * win.foldl (fun x t => x + mulTrig (f t) (g t.mc)) 0) n

/-- Id, Cd, Iq, Cq of a window, setpoint codes with 8 fractional bits. -/
def demod (win : List WinTick) (n : Nat) : Int × Int × Int × Int :=
  (corr win n (·.d) (fun m => sinTurn m n), corr win n (·.d) (fun m => cosTurn m n),
   corr win n (·.q) (fun m => sinTurn m n), corr win n (·.q) (fun m => cosTurn m n))

/-- RATIO of a response (R347). -/
def ratioOf (d q : Int) : Int := if d > 0 then clampI (-32768) 32767 (rdiv (4096 * q) d) else 0

/-- λ_HF before the clamp at ±192. -/
def laHfRaw (gain ofs ratio : Int) : Int := gain * (ratio - ofs) / 4096

/-! ## Back-EMF (R349) -/

/-- Mean measured current of a coil over the tick, mA; the previous one where no sample was taken: the spec does not say
(log entry 59, DESIGN CHOICE). -/
def State.obsI (s : State) (n : Fin 8) (k : Coil) (prev : Int) : Int :=
  if k.p0 = 0 then prev else 3 * k.ps0 * s.fs n / ((k.p0 : Int) * 4096)

/-- e of a coil, mV with 8 fractional bits. -/
def State.obsE (s : State) (n : Fin 8) (k : Coil) (i prev : Int) : Int :=
  let t : Int := s.g CLK_TICK_CFG_PERIOD
  let st := stationOf n
  let v : Int := s.vmb st
  let a := s.axes[n]
  let r64 : Int := (((a.mon.rcoil).getD 0 * 64 + 2 * ron64 (s.hottest st) : Nat) : Int)
  256 * v * ((k.ptpos : Int) - k.ptneg) / t - r64 * i * 256 / 64000 - (a.mon.lcoil : Int) * 400 * 256 * (i - prev) / t
    - 20 * 256 * (s.g (AX_OBS_EMF_VDT n)) * isgn i

/-! ## Stall criteria (R352 to R355) -/

/-- Jam level and counts that act (R353, R355). -/
def State.jamLvl (s : State) (n : Fin 8) : Nat := or1 (min 192 (s.g (AX_STALL_CFG_LVL n)))

/-- The observer's criteria are evaluated in this state (R352). -/
def State.critOn (s : State) (n : Fin 8) : Bool :=
  let a := s.axes[n]
  !a.stillCal &&
  match a.st with
  | .moving | .follow | .homing | .quiescing => true
  | .hold => s.gb (AX_OBS_CFG_HOLD_DET n)
  | .off | .idle | .fault => false

/-- The entry of the history with the largest λ of the sign opposite to `la` (R356). -/
def worstOpp (hist : List (Int × Int)) (la : Int) : Option (Int × Int) :=
  hist.foldl (fun b x =>
    if isgn x.1 = -(isgn la) then
      match b with
      | some y => if x.1.natAbs > y.1.natAbs then some x else b
      | none => some x
    else b) none

/-- The criteria of one tick: jam and collapse counts, met flags, and the report that falls due (R353 to R356). -/
def State.criteria (s : State) (n : Fin 8) (o : ObsSt) (p : Int) (emfOk : Bool) : ObsSt :=
  if !s.critOn n then { o with jam := 0, coll := 0, crit := 0 }
  else
    let v := s.axes[n].vel
    let u := s.speedUnit n
    let la := o.la
    let jamMet := s.gb (AX_OBS_CFG_DET_JAM n) && o.valid && decide (la.natAbs ≥ s.jamLvl n) && (v = 0 || isgn la = isgn v)
    let jam := if jamMet then o.jam + 1 else 0
    let jump := s.g (AX_STALL_CFG_JUMP n)
    let opp := worstOpp (o.hist.drop 1) la
    let slip := s.gb (AX_OBS_CFG_DET_SLIP n) && jump ≠ 0 && o.valid && decide (la.natAbs ≥ jump)
      && (opp.any fun x => x.1.natAbs ≥ jump)
    let ke := s.g (AX_OBS_EMF_KE n)
    let collMet := s.gb (AX_OBS_CFG_DET_COLL n) && emfOk && decide (o.emfTicks ≥ s.g (AX_STALL_TIME_GRACE n)) && ke ≠ 0
      && decide (v.natAbs ≥ (s.blend n).2 * u) && decide (o.emag * 65536 * u < s.g (AX_STALL_CFG_COLL n) * ke * v.natAbs)
    let coll := if collMet then o.coll + 1 else 0
    let jamRep := decide (jam ≥ or1 (s.g (AX_STALL_CFG_LVL_TICKS n)))
    let collRep := decide (coll ≥ or1 (s.g (AX_STALL_TIME_COLL_TICKS n)))
    let due : Option (Nat × Int × Int) :=
      if !o.armed then none
      else if slip then opp.map fun x => (2, x.1, x.2)
      else if collRep then some (3, la, p)
      else if jamRep then some (1, la, p)
      else none
    { o with jam := jam, coll := coll, crit := b2n (jamMet || slip || collMet), due := due }

/-! ## Calibration (R360 to R363) -/

/-- A field written into both its staged copy and its value in force (R363). -/
def State.putBoth (s : State) (f : Fld) (v : Nat) : State := (s.put f v).putSt f v

/-- A calibration ends with a result (R363). -/
def State.calEnd (s : State) (n : Fin 8) (res : Nat) : State :=
  let s := s.ob n fun o => { o with cal := none }
  let s := ((s.put (AX_OBS_CALSTAT_BUSY n) 0).put (AX_OBS_CALSTAT_PHASE n) 0).put (AX_OBS_CALSTAT_RESULT n) res
  let s := s.pulse 39 n res
  s.fbAdd 0x23 ([n.val, res] ++ beBytes 2 (s.g (AX_OBS_EMF_KE n)) ++ beBytes 2 (s.g (AX_OBS_HF_HF_GAIN n))
    ++ beBytes 2 (s.g (AX_OBS_HF_HF_OFS n)) ++ [s.g (AX_OBS_HFREF_PHASE n)])

/-- A running calibration is aborted (R363). -/
def State.calAbort (s : State) (n : Fin 8) : State := if s.axes[n].obs.cal.isSome then s.calEnd n 3 else s

/-- A request at a tick mark starts a calibration or is refused (R360); a running one may abort (R363). -/
def State.calMark (s : State) (n : Fin 8) : State :=
  let a := s.axes[n]
  let s :=
    if a.calgo then
      let s := s.ax n fun a => { a with calgo := false }
      let ok := s.dev == .run && a.st == .hold && (s.execShown n).isNone && !s.engaged n && s.gb (AX_OBS_CFG_CAR_EN n) && s.modesOk n
        && decide (s.g (AX_SEQ_CUR_RUN n) ≥ 16 * s.g (AX_OBS_CFG_AMP_MIN n)) && a.obs.cal.isNone
      if ok then
        let c : CalSt := {
          phase := 1, t0 := s.now, all := 0, ticks := 0, gaps := 0, sumI := 0, sumC := 0, sumIq := 0, sumCq := 0, keN := 0,
          keSum := 0, fitN := 0, fitX := 0, fitY := 0, fitXX := 0, fitXY := 0, fitYY := 0, fitMin := 0, fitMax := 0,
          keDone := false, hfDone := false }
        let s := s.ob n fun o => { o with cal := some c }
        let s := ((s.put (AX_OBS_CALSTAT_BUSY n) 1).put (AX_OBS_CALSTAT_PHASE n) 1).put (AX_OBS_CALSTAT_REFUSED n) 0
        ((s.put (AX_OBS_CALSTAT_RESULT n) 0).put (AX_OBS_CALSTAT_KE_PCT n) 0).put (AX_OBS_CALSTAT_HF_PCT n) 0
      else s.put (AX_OBS_CALSTAT_REFUSED n) 1
    else s
  match s.axes[n].obs.cal with
  | none => s
  | some c =>
    let st := s.axes[n].st
    let bad := s.dev != .run || s.gBit DEV_BLKRST_STAT_BUSY n ||
      (if c.phase = 1 then st != .hold else st != .hold && st != .moving && st != .quiescing)
    if bad then s.calAbort n else s

/-- The calibration takes what the tick's estimates give it (R361, R362). `full` says that the window is full. -/
def State.calTick (s : State) (n : Fin 8) (o : ObsSt) (t : WinTick) (emfOk full : Bool) (p : Int) : Option CalSt :=
  let nn := s.carDiv n
  let u := s.speedUnit n
  let lo := (s.blend n).1 * u
  let hi := (s.blend n).2 * u
  let sp := s.axes[n].vel.natAbs
  o.cal.map fun c =>
    if c.phase = 1 then
      let c := { c with all := c.all + 1, gaps := c.gaps + b2n t.gap }
      if s.tick.mark - c.t0 ≥ msCyc 40 then
        { c with
          ticks := c.ticks + 1, sumI := c.sumI + mulTrig t.d (sinTurn t.mc nn), sumC := c.sumC + mulTrig t.d (cosTurn t.mc nn),
          sumIq := c.sumIq + mulTrig t.q (sinTurn t.mc nn), sumCq := c.sumCq + mulTrig t.q (cosTurn t.mc nn) }
      else c
    else
      let c := if emfOk && decide (sp ≥ hi) && s.axes[n].acc = 0 && decide (c.keN < 4000) then
          { c with keN := c.keN + 1, keSum := c.keSum + o.emag * 256 * 65536 * u / or1 sp }
        else c
      -- λ_ref in sixteenths of a unit
      let y : Option Int :=
        if s.g (AX_PINSTAT_FB_ACT n) ≠ 0 then (if sp ≤ hi then some (p - s.axes[n].dp.m) else none)
        else if emfOk && decide (lo ≤ sp) && decide (sp ≤ hi) then some (16 * o.laEmf) else none
      match y with
      | some y =>
        if full && y ≠ 0 && decide (y.natAbs ≤ 2560) && !c.hfDone then
          { c with
            fitN := c.fitN + 1, fitX := c.fitX + o.ratio, fitY := c.fitY + y, fitXX := c.fitXX + o.ratio * o.ratio,
            fitXY := c.fitXY + o.ratio * y, fitYY := c.fitYY + y * y,
            fitMin := if c.fitN = 0 then y else min c.fitMin y, fitMax := if c.fitN = 0 then y else max c.fitMax y }
        else c
      | none => c

/-- The still phase ends (R361). -/
def State.calStillEnd (s : State) (n : Fin 8) (c : CalSt) : State :=
  if c.gaps = c.all then s.calEnd n 6
  else
    let k : Int := or1 c.ticks
    let i := rdiv (2 * c.sumI) k
    let q := rdiv (2 * c.sumC) k
    let mag := isqrt (i.natAbs ^ 2 + q.natAbs ^ 2)
    -- 1/8 of Amp * CAR_AMP/4,096 in codes with 8 fractional bits
    if mag * 4096 * 8 < s.g (AX_SEQ_STAT_AMP n) * s.carAmp n * 256 then s.calEnd n 5
    else
      let ph := ((atan2u q i 64) % 256).toNat
      let d := mulTrig c.sumI (cosTurn ph 256) + mulTrig c.sumC (sinTurn ph 256)
      let qq := mulTrig c.sumIq (cosTurn ph 256) + mulTrig c.sumCq (sinTurn ph 256)
      let s := (s.putBoth (AX_OBS_HFREF_PHASE n) ph).putBoth (AX_OBS_HFREF_D0 n) (satU 16 (mag / 16))
      let s := s.putBoth (AX_OBS_HF_HF_OFS n) (pat 16 (satS 16 (ratioOf d qq)))
      if s.gb (AX_OBS_CAL_MODE n) then
        (s.put (AX_OBS_CALSTAT_PHASE n) 2).ob n fun o => { o with cal := some { c with phase := 2 } }
      else s.calEnd n 2

/-- The still phase has lasted 200 ms. -/
def State.stillDue (s : State) (n : Fin 8) : Bool :=
  match s.axes[n].obs.cal with
  | some c => c.phase = 1 && decide (s.now - c.t0 ≥ msCyc 200)
  | none => false

/-- OBS_CAL_STILL_END: after 200 ms (R361). -/
def execObsCalStillEnd (dt : Nat) (n : Fin 8) (s : State) : Outcome State Fault Refusal :=
  let s := s.tickTo dt
  done (match s.axes[n].obs.cal with
    | some c => if s.stillDue n then s.calStillEnd n c else s
    | none => s)

/-- The carrier-gain fit (R362): HF_GAIN and HF_OFS, or none where the residual exceeds 16 units RMS; λ_ref in sixteenths of a
unit. A value that the data do not determine is free: both where RATIO never changed, HF_OFS where the gain is 0 (log entry 28). -/
def State.calFit (s : State) (n : Fin 8) (c : CalSt) : State :=
  let k : Int := c.fitN
  let sxx := k * c.fitXX - c.fitX * c.fitX
  let sxy := k * c.fitXY - c.fitX * c.fitY
  let syy := k * c.fitYY - c.fitY * c.fitY
  let told := if sxx = 0 then 0 else sxy * sxy / sxx
  let f := (Config.freeValue s.free).toNat
  let num := c.fitX * sxy - c.fitY * sxx
  if syy - told > 65536 * k * k then s.calEnd n 7
  else
    let gain := if sxx = 0 then f else pat 16 (satS 16 (rdiv (4096 * sxy) (16 * sxx)))
    let ofs := if sxx = 0 ∨ sxy = 0 then f / 65536
      else pat 16 (satS 16 (if sxy * k > 0 then rdiv num (sxy * k) else rdiv (-num) (-(sxy * k))))
    let s := if sxx = 0 ∨ sxy = 0 then s.useFree else s
    ((s.putBoth (AX_OBS_HF_HF_GAIN n) gain).putBoth (AX_OBS_HF_HF_OFS n) ofs).ob n fun o =>
      { o with cal := o.cal.map fun c => { c with hfDone := true } }

/-- The sets that have become complete write their values, and progress is reported (R362). -/
def State.calProgress (s : State) (n : Fin 8) : State :=
  match s.axes[n].obs.cal with
  | none => s
  | some c =>
    if c.phase ≠ 2 then s
    else
      let s := if c.keN ≥ 4000 && !c.keDone then
          (s.putBoth (AX_OBS_EMF_KE n) (satU 16 ((c.keSum / 4000 + 32768) / 65536))).ob n fun o =>
            { o with cal := o.cal.map fun c => { c with keDone := true } }
        else s
      let s := if c.fitN ≥ 2000 && c.fitMax - c.fitMin ≥ 1024 && !c.hfDone then s.calFit n c else s
      match s.axes[n].obs.cal with
      | none => s
      | some c =>
        (s.put (AX_OBS_CALSTAT_KE_PCT n) (min 100 (c.keN / 40))).put (AX_OBS_CALSTAT_HF_PCT n)
          (if c.hfDone then 100 else min 99 (c.fitN / 20))

/-- Both collect sets are complete (R362). -/
def State.calDone (s : State) (n : Fin 8) : Bool := s.axes[n].obs.cal.any fun c => c.phase = 2 && c.keDone && c.hfDone

/-- OBS_CAL_COMPLETE: both sets are complete (R362). -/
def execObsCalComplete (dt : Nat) (n : Fin 8) (s : State) : Outcome State Fault Refusal :=
  let s := s.tickTo dt
  done (if s.calDone n then s.calEnd n 1 else s)

/-- The collect phase is incomplete TO seconds after GO (R363). -/
def State.calLate (s : State) (n : Fin 8) : Bool :=
  s.axes[n].obs.cal.any fun c => c.phase = 2 && !(c.keDone && c.hfDone) &&
    decide (s.now - c.t0 ≥ msCyc (1000 * or1 (s.g (AX_OBS_CAL_TO n))))

/-- OBS_CAL_TIMEOUT (R363). -/
def execObsCalTimeout (dt : Nat) (n : Fin 8) (s : State) : Outcome State Fault Refusal :=
  let s := s.tickTo dt
  done (if s.calLate n then s.calEnd n 4 else s)

/-! ## One tick of the observer -/

/-- The estimates of one tick (R346 to R351), from the samples of the tick before. -/
def State.obsEstimate (s : State) (n : Fin 8) : ObsSt :=
  let a := s.axes[n]
  let o := a.obs
  let ka := s.coils[coilA n]
  let kb := s.coils[coilB n]
  let nn := s.carDiv n
  let gap := ka.p12 = 0 || kb.p12 = 0
  let yA := if gap then o.yA else obsY ka o.yA
  let yB := if gap then o.yB else obsY kb o.yB
  let cs := cosTurn o.r2.th 16384
  let sn := sinTurn o.r2.th 16384
  let t : WinTick := {
    d := mulTrig yA cs + mulTrig yB sn, q := mulTrig yB cs - mulTrig yA sn, mc := o.r2.m, gap := gap, amp := o.r2.amp }
  let win := o.push nn t
  let (id, cd, iq, cq) := demod win nn
  let ph := s.g (AX_OBS_HFREF_PHASE n)
  let d := mulTrig id (cosTurn ph 256) + mulTrig cd (sinTurn ph 256)
  let q := mulTrig iq (cosTurn ph 256) + mulTrig cq (sinTurn ph 256)
  let ratio := ratioOf d q
  let gain := s.gi (AX_OBS_HF_HF_GAIN n)
  let raw := laHfRaw gain (s.gi (AX_OBS_HF_HF_OFS n)) ratio
  let laHf := clampI (-192) 192 raw
  let d0 := s.g (AX_OBS_HFREF_D0 n)
  let full := decide (win.length ≥ nn)
  let hfOk := s.gb (AX_OBS_CFG_CAR_EN n) && s.gb (AX_OBS_CFG_HF_EN n) && gain ≠ 0 && o.cal.isNone && s.modesOk n && full
    && decide ((win.filter (·.gap)).length ≤ nn / 4) && win.all (fun w => w.amp ≥ 16 * s.g (AX_OBS_CFG_AMP_MIN n))
    && (d0 = 0 || decide (4 * (d / 16) ≥ d0))
  -- back-EMF
  let ia := s.obsI n ka o.iPrevA
  let ib := s.obsI n kb o.iPrevB
  let eA := s.obsE n ka ia o.iPrevA
  let eB := s.obsE n kb ib o.iPrevB
  let ed := mulTrig eA cs + mulTrig eB sn
  let eq := mulTrig eB cs - mulTrig eA sn
  let tau := min 10 (s.g (AX_OBS_EMF_EMF_TAU n))
  let edf := o.edf + (ed - o.edf) / 2 ^ tau
  let eqf := o.eqf + (eq - o.eqf) / 2 ^ tau
  let laEmf := min 511 (if a.vel ≥ 0 then atan2u edf eqf 256 else atan2u (-edf) (-eqf) 256)
  let emag := isqrt (edf.natAbs ^ 2 + eqf.natAbs ^ 2) / 256
  let sp := a.vel.natAbs
  let lo := (s.blend n).1 * s.speedUnit n
  let hi := (s.blend n).2 * s.speedUnit n
  let loT := if sp ≥ lo then o.loTicks + 1 else 0
  let emfOk := s.gb (AX_OBS_CFG_EMF_EN n) && s.modesOk n && a.mon.rcoil.isSome && decide (loT ≥ 4 * 2 ^ tau)
  let emfT := if emfOk then o.emfTicks + 1 else 0
  -- blend
  let num := clampN 0 (hi - lo) (sp - lo)
  let den := hi - lo
  let wh : Int := if hfOk then (den - num : Nat) else 0
  let we : Int := if emfOk then num else 0
  let valid := decide (wh + we > 0)
  let la := if valid then clampI (-512) 511 (rdiv (laHf * wh + laEmf * we) (wh + we)) else o.la
  let p := a.pos / 65536
  let o' := { o with
    la := la, valid := valid, src := if wh > 0 && we > 0 then 2 else if wh > 0 then 1 else if we > 0 then 3 else 0,
    w := (rdiv (255 * num) den).toNat, d := d / 16, q := q / 16, ratio := ratio, laHf := laHf, satHf := decide (laHf ≠ raw),
    emag := emag, laEmf := laEmf, gaps := b2n gap, lost := o.lost || (o.hfValid && !hfOk), hfValid := hfOk, win := win, yA := yA, yB := yB,
    edf := edf, eqf := eqf, iPrevA := ia, iPrevB := ib, loTicks := loT, emfTicks := emfT,
    hist := ((if valid then la else 0, p) :: o.hist).take (nn + 2) }
  let o' := s.criteria n o' p emfOk
  { o' with cal := s.calTick n o' t emfOk full p }

/-- The observer runs once in the tick, after the datum scaling (R22, R343). -/
def State.obsRun (s : State) (n : Fin 8) : State :=
  if s.axes[n].obsRan then s
  else
    let s := s.ax n fun a => { a with obsRan := true }
    if s.energised n then
      let o := s.obsEstimate n
      (s.ob n fun _ => o).calProgress n
    else s.ob n fun o => { o with la := 0, valid := false, src := 0, crit := 0, due := none, hfValid := false, lost := o.lost || o.hfValid }

/-- The observer's words are published at the commit point (R343); ARMED follows R357. -/
def State.obsPublish (s : State) (n : Fin 8) : State :=
  let o := s.axes[n].obs
  let noslot := fun (c : Fin 16) => s.g (CO_REG_SLOT01_SP1 c) = 0xFFFF && s.g (CO_REG_SLOT2_SP2 c) = 0xFFFF
  let s := ((s.putI (AX_OBS_LA_LA n) o.la).putB (AX_OBS_LA_VALID n) o.valid).putB (AX_OBS_LA_SAT n) o.satHf
  let s := ((s.put (AX_OBS_LA_SRC n) o.src).put (AX_OBS_LA_W n) o.w).putB (AX_OBS_LA_NOSLOT n) (noslot (coilA n) || noslot (coilB n))
  let s := ((s.putI (AX_OBS_HFDQ_D n) (satS 16 o.d)).putI (AX_OBS_HFDQ_Q n) (satS 16 o.q)).putI (AX_OBS_HFRAT_RATIO n) o.ratio
  let s := ((s.putI (AX_OBS_HFRAT_LA_HF n) o.laHf).put (AX_OBS_EMFSTAT_EMAG n) (satU 16 o.emag)).putI (AX_OBS_EMFSTAT_LA_EMF n) o.laEmf
  let s := (s.put (AX_STALL_STAT_CRIT n) o.crit).addSat (AX_OBS_CNT_GAP n) o.gaps
  let s := s.addSat (AX_OBS_CNT_HF_LOST n) (b2n o.lost)
  let low := o.valid && decide (2 * o.la.natAbs < s.jamLvl n)
  let armed := o.armed || low || o.rearm = some 0
  let s := s.ob n fun o => { o with
    gaps := 0, lost := false, armed := armed,
    rearm := match o.rearm with
      | some (k + 1) => some k
      | _ => none }
  s.putB (AX_STALL_STAT_ARMED n) armed

/-- The observer's own part of a stall report (R356). -/
def State.stallNote (s : State) (n : Fin 8) (cause : Nat) (la p : Int) : State :=
  let rotor := p - 16 * la
  let st := s.axes[n].st.code
  let s := (s.put (AX_STALL_STAT_CAUSE n) cause).inc (AX_STALL_STAT_REPORTS n)
  let s := s.put (AX_STALL_STAT_ARMED n) 0
  let s := s.capture 0x40 n (words48 rotor ++ words48 (s.axes[n].pos / 65536) ++ [pat 16 la + cause * 65536, s.tick.mark % 2 ^ 32])
  let s := s.pulse (24 + n) n (cause + st * 16)
  let s := s.fbAdd 0x20 ([n.val, st, cause, 0] ++ beBytes 2 (pat 16 la) ++ beBytes 6 (pat 48 rotor))
  (s.ob n fun o => { o.flush with armed := false, due := none, rearm := none }).calAbort n

end Sys2Proof.Machine
end

