-- ==== Sys2Proof/Machine/Closure.lean ====
section
/-!
DEFINITION. Stall and closure (R274, R275): what the planner does with a report of the observer, and the closure monitor.
-/

namespace Sys2Proof.Machine

open Host

/-! ## Coordinated moves that an axis stops (R240, R280) -/

/-- The moves that act with the axis's own begin to stop with causes `st`; `quick` takes the quick rate. Their axes quiesce. -/
def State.stopMove (s : State) (t : Fin 2) (quick : Bool) (st : List Nat) : State :=
  (s.moveStations t).foldl (fun s t =>
    match s.stations[t].mv with
    | none => s
    | some m =>
      let s := m.ids.foldl (fun s id => st.foldl (fun s x => s.cause id x) s) s
      if m.waiting then
        (m.ids.foldl (fun s id => s.markEnd id (firstEnding st CANCELLED_HOST)) s).stn t fun x => { x with mv := none }
      else
        let s := m.axes.foldl (fun s k => s.ax k fun a => if a.st == .moving then { a with st := .quiescing } else a) s
        s.stn t fun x => { x with mv := some { m with stopping := true, quick := m.quick || quick, plain := m.plain || !quick } }) s

/-- The axis leaves the line of the move that engages it: it no longer follows u, and stays engaged (R278, R280). -/
def State.leaveMove (s : State) (n : Fin 8) : State :=
  (s.stn (stationOf n) fun x => { x with mv := x.mv.map fun m => { m with
    axes := m.axes.filter (fun k => k != n), out := n :: m.out } }).ax n
    fun a => { a with coord := none }

/-! ## Stall (R274) -/

/-- The datum of stall homing is this report (R285). -/
def Axis.stallHoming (a : Axis) : Bool := a.st == .homing && a.home.any fun h => h.method = 0 && h.phase = 1

/-- A stall ends a homing sequence with failure (R287): the flags of FAIL_CAUSE 4. -/
def State.stallFails (s : State) (n : Fin 8) : State :=
  if s.axes[n].home.isSome then
    ((s.put (AX_HOME_STAT_FAILED n) 1).put (AX_HOME_STAT_FAIL_CAUSE n) 4).put (AX_STATE_REF n) 0
  else s

/-- A stall outside the search of stall homing, with the rotor estimate in microsteps (R274, R280). -/
def State.stallAct (s : State) (n : Fin 8) (rotor : Int) : State :=
  let s := if s.g (AX_PINSTAT_FB_ACT n) = 0 then s.put (AX_STATE_REF n) 0 else s
  let s := s.stallFails n
  let staked := s.onLine n || (s.execOf n).any Cmd.staking
  let s := if s.onLine n then (s.stopMove (stationOf n) true [STALLED]).leaveMove n else s
  let s := match s.execOf n with
    | some c => s.markEnd c.id STALLED
    | none => s
  if s.gb (AX_PLN_CFG_STALL_ACT n) then s.axisFault n 0 afSTALL STALLED
  else ((s.followLeave n).standHold n).ax n fun a => { a with
    pos := rotor * 65536, lastTgt := if staked then none else a.lastTgt }

/-- The report that falls due in this tick (R356): recorded, the rotor estimate passed to the planner. -/
def State.stallRun (s : State) (n : Fin 8) : State :=
  match s.axes[n].obs.due with
  | none => s
  | some (cause, la, p) => (s.stallNote n cause la p).ax n fun a => { a with stallT := true, rep := some (p - 16 * la) }

/-- The planner acts on the report in the same tick; in the search of stall homing the datum is left to the homing sequence
(R274, R356). -/
def State.stallPlan (s : State) (n : Fin 8) : State :=
  match s.axes[n].rep with
  | none => s
  | some rotor =>
    let s := s.ax n fun a => { a with rep := none }
    if s.axes[n].stallHoming then s.ax n fun a => { a with home := a.home.map fun h => { h with stall := some rotor } }
    else s.stallAct n rotor

/-- A report runs ahead of the commit point: the committed copy of what it changes is kept (R26). -/
def State.keepAxis (s : State) (n : Fin 8) : State :=
  s.ax n fun a => { a with keep := some (a.keep.getD (a.obs, a.closN)) }

/-- The axis is late: its working copy is discarded (R26). -/
def State.lateAxis (s : State) (n : Fin 8) : State :=
  s.ax n fun a =>
    let k := a.keep.getD (a.obs, a.closN)
    { a with
      obs := k.1, closN := k.2, closDue := false, closRep := false, rep := none, keep := none, stallT := false,
      dp := { a.dp with m := a.dp.mOld } }

/-- STALL_REPORT: the observer reports (R356); the planner acts on it at the tick's commit point (R274, R22). -/
def execStallReport (dt : Nat) (n : Fin 8) (s : State) : Outcome State Fault Refusal :=
  let s := s.tickTo dt
  done (if s.tick.commitDue && s.energised n then ((s.keepAxis n).obsRun n).stallRun n else s)

/-! ## Closure (R275) -/

/-- The closure monitor acts. -/
def State.closureOn (s : State) (n : Fin 8) : Bool :=
  s.g (AX_CLOS_CFG_COUNT n) ≠ 0 && s.g (AX_PINSTAT_FB_ACT n) ≠ 0 && s.energised n

/-- The monitor's work of one tick: e, its greatest magnitude, the warning, the count (R275). -/
def State.closureCount (s : State) (n : Fin 8) : State :=
  let a := s.axes[n]
  let e := a.dp.m - a.planned
  let s := (s.putI (AX_CLOS_ERR_ERR n) (satS 32 e)).maxPut (AX_CLOS_MAX_MAX n) e.natAbs
  let s := s.putB (AX_STATE_CLOS_WARN n) (decide (e.natAbs > s.g (AX_CLOS_WARN_WARN n) * 64))
  let allow := s.g (AX_CLOS_CFG_LIMIT n) * 64 * 65536 * 1000000 + a.vel.natAbs * s.g (AX_CLOS_CFG_VLAG n)
  let k := if e.natAbs * 65536 * 1000000 > allow then a.closN + 1 else 0
  s.ax n fun a => { a with closN := k, closDue := decide (k ≥ s.g (AX_CLOS_CFG_COUNT n)) }

/-- The monitor runs once in a tick. Where it does not act, CLOS_WARN and CLOS_ERR keep what they last read (log entry 50,
DEDUCED). -/
def State.closureRun (s : State) (n : Fin 8) : State :=
  if s.axes[n].closRan then s
  else
    let s := s.ax n fun a => { a with closRan := true, closDue := false }
    if s.closureOn n then s.closureCount n
    else s.ax n fun a => { a with closN := 0 }

/-- A closure error is reported, once (R275). -/
def State.closureNote (s : State) (n : Fin 8) : State :=
  if s.axes[n].closDue && !s.axes[n].closRep then (s.pulse 32 n 0).ax n fun a => { a with closRep := true } else s

/-- The planner acts on a closure error (R275): the axis quick-stops to HOLD, or enters FAULT. -/
def State.closureAct (s : State) (n : Fin 8) : State :=
  if !s.axes[n].closDue then s
  else
    let s := s.put (AX_STATE_REF n) 0
    let s := s.ax n fun a => { a with closN := 0, closDue := false, closRep := false }
    if s.gb (AX_PLN_CFG_CLOS_ACT n) then s.axisFault n 0 afCLOSURE CLOSURE_ERROR_ST
    else if s.onLine n then s.stopMove (stationOf n) true [CLOSURE_ERROR_ST]
    else if s.axes[n].st == .hold then
      match s.execOf n with
      | some c => s.markEnd c.id CLOSURE_ERROR_ST
      | none => s
    else s.stopAxis n true CLOSURE_ERROR_ST s.axes[n].at_

/-- CLOSURE_ERROR: COUNT consecutive ticks beyond the allowance (R275); the planner acts at the tick's commit point. -/
def execClosureError (dt : Nat) (n : Fin 8) (s : State) : Outcome State Fault Refusal :=
  let s := s.tickTo dt
  done (if s.tick.commitDue && s.energised n then ((s.keepAxis n).closureRun n).closureNote n else s)

/-- A write of 1 to `AXn_CLOS_MAX.CLR`: the clear acts before a new maximum of the same tick (Table 9-8). -/
def State.closMaxClr (s : State) (n : Fin 8) : State :=
  s.put (AX_CLOS_MAX_MAX n) (if s.axes[n].closRan && s.closureOn n then (s.gi (AX_CLOS_ERR_ERR n)).natAbs else 0)

end Sys2Proof.Machine
end

