-- ==== Sys2Proof/Machine/Coord.lean ====
section
/-!
DEFINITION. Coordinated moves (R237, R277 to R280): the path parameter u of a move or a pair, its limits, its stop, its end. The
path has length 2^62; rates of u are in 2^-46 of the path.
-/

namespace Sys2Proof.Machine

/-- u = 1. -/
def uOne : Nat := 2 ^ 62

/-- A bound above every rate of u: V_CAP bounds the axes, not the path. -/
def uFree : Nat := 2 ^ 200

/-- A rate in microsteps per … over a displacement with 16 fractional bits, as a rate of u. -/
def uRate (x : Nat) (d : Int) : Nat := x * 65536 * 2 ^ 46 / or1 d.natAbs

/-- The smallest of a list, `d` where it is empty. -/
def least (d : Nat) : List Nat → Nat
  | [] => d
  | x :: t => t.foldl min x

/-- Axes of the moves that run with the move of a station, each with its displacement (R277, R279). -/
def State.moveAxes (s : State) (t : Fin 2) : List (Fin 8 × Int) :=
  (s.moveStations t).flatMap fun t =>
    match s.stations[t].mv with
    | none => []
    | some m => m.axes.map fun n => (n, (s.axes[n].coord.map (·.2)).getD 0)

/-- The parts of the move that a station ring has ready: its oldest queued parts up to the one with LAST (R237). -/
def moveParts : List Cmd → List Cmd
  | [] => []
  | c :: l => if c.op != 0x40 then [] else if c.last then [c] else c :: moveParts l

/-- Profile set and VPCT of a move: those of its LAST part. -/
def lastPart (parts : List Cmd) : Nat × Nat :=
  match parts.getLast? with
  | some c => (dSel c.d0 / 4 % 4, dVpct c.d2)
  | none => (0, 4096)

/-- Target of a part in absolute microsteps (R265). -/
def State.partTarget (s : State) (c : Cmd) : Int := c.absTarget (s.relBase c.partAxis)

/-- The checks of a move at execution: RUN, HOLD and legal targets for every named axis (Table 8-5, R256, R269). -/
def State.moveOk (s : State) (parts : List Cmd) : Bool :=
  s.dev == .run && parts.all fun c =>
    s.axes[c.partAxis].st == .hold && in48 (s.partTarget c) && s.softOk c.partAxis (s.partTarget c)

/-- A move waits while a named axis executes a queued command of its own ring (R240). -/
def State.moveWaits (s : State) (parts : List Cmd) : Bool := parts.any fun c => (s.execOf c.partAxis).isSome

/-- A move takes its station: its parts execute, its axes are engaged (R278). `pair` is 0 for an unpaired one. -/
def State.moveTake (s : State) (t : Fin 2) (parts : List Cmd) (waiting : Bool) : State :=
  let (k, vp) := lastPart parts
  let m : MoveSt := {
    ids := parts.map (·.id), axes := parts.map Cmd.partAxis, out := [], pair := (parts.getLast?.map Cmd.pair).getD 0, waiting := waiting,
    set := k, vpct := vp, prof := none, u := 0, uVel := 0, uAcc := 0, at_ := s.tick.no, stopping := false,
    quick := false, plain := false, own := (1, 0), built := none, cap := false }
  let s := parts.foldl (fun s c => s.cmdUpd c.id fun c => { c with ph := if waiting then .waitPair else .exec, at_ := s.tick.no }) s
  s.stn t fun x => { x with mv := some m }

/-- Limits of u from the profile sets: velocity, the velocity commanded before V_CAP, acceleration, deceleration, jerk (R277). -/
def State.uLimits (s : State) (t : Fin 2) : Nat × Nat × Nat × Nat × Nat :=
  let l := (s.moveAxes t).filter fun x => x.2 ≠ 0
  let of := fun (n : Fin 8) => (s.stations[stationOf n].mv.map fun m => (m.set, m.vpct)).getD (0, 4096)
  let lim := fun (g : Fin 8 → Nat) => or1 (least 1 (l.map fun x => uRate (g x.1) x.2))
  (lim fun n => min (pctV (s.psV n (of n).1) (of n).2) s.vcap, lim fun n => pctV (s.psV n (of n).1) (of n).2, lim fun n => s.psA n (of n).1, lim fun n => s.psD n (of n).1,
    lim fun n => s.psJ n (of n).1)

/-- Torque limits of u as published at the last commit point; none where no named axis has a torque limit (R277). -/
def State.uTorque (s : State) (t : Fin 2) (acc dec : Nat) : Option Tq :=
  let l := (s.moveAxes t).filter fun x => x.2 ≠ 0
  let q := l.filterMap fun x => s.axes[x.1].tqPub.map fun y => (y, x.2)
  if q.isEmpty then none
  else some {
    av := 0, aAcc := least acc (q.map fun x => uRate x.1.1 x.2), aDec := least dec (q.map fun x => uRate x.1.2.1 x.2),
    vZero := least 0 (q.map fun x => x.1.2.2 * uOne / or1 x.2.natAbs) }

/-- The u profile is jerk-limited: SCURVE of every station that takes part (R277). -/
def State.uCurve (s : State) (t : Fin 2) : Bool := (s.moveStations t).all fun t => s.gb (ST_COORD_CFG_SCURVE t)

/-- The axes of a station's move are placed on their line (R277). -/
def State.moveEngage (s : State) (t : Fin 2) : State :=
  match s.stations[t].mv with
  | none => s
  | some m =>
    m.ids.foldl (fun (s : State) id =>
      match s.cmds.find? (fun c => c.id == id) with
      | none => s
      | some c =>
        let n := c.partAxis
        let tgt := s.partTarget c
        (s.enterMotion n .moving).ax n fun a => { a with
          coord := some (a.pos, tgt * 65536 - a.pos), prof := none, lastTgt := none }) s

/-- The u profile of a move, or of both moves of a pair, starts at this tick mark (R277 to R279). -/
def State.moveStart (s : State) (t : Fin 2) : State :=
  let ts := s.moveStations t
  let s := ts.foldl (fun s t => s.moveEngage t) s
  let (v, cmd, a, d, j) := s.uLimits t
  let j := if s.uCurve t then j else 0
  let still := (s.moveAxes t).all fun x => x.2 = 0
  let segs := if still then [] else (posPlan uFree 0 0 0 uOne (v * 65536) a d j).1
  let f := { Prof.mk0 segs s.tick.no uOne 0 .target with
    typ := if j = 0 then 1 else 2, target := some 0, vlim := v, acc := a, dec := d, jerk := j, cmdV := cmd }
  ts.foldl (fun s t => s.stn t fun x => { x with mv := x.mv.map fun m => { m with prof := some f, at_ := s.tick.no, own := (d, j) } }) s

/-- The quick rate of u: the least of `AXn_QDEC` / |Δ| (R280). -/
def State.uQuick (s : State) (t : Fin 2) : Nat :=
  let l := (s.moveAxes t).filter fun x => x.2 ≠ 0
  or1 (least 1 (l.map fun (x : Fin 8 × Int) => uRate (s.qdecOf x.1) x.2))

/-- A stop of u is laid out from the state of this tick mark: at the largest of the decelerations asked for, the profile's and
the least of `AXn_QDEC` / |Δ| (R264, R280). A further stop never lowers the deceleration in force. -/
def State.moveBrake (s : State) (t : Fin 2) (m : MoveSt) (f : Prof) : MoveSt :=
  let fast := if m.quick then s.uQuick t else 0
  let slow := if m.plain then m.own.1 else 0
  let dec := or1 (max fast slow)
  let j := if slow ≥ fast then m.own.2 else 0
  let b0 := some (m.quick, m.plain)
  if m.built.isSome && dec ≤ f.dec then { m with built := b0 }
  else
    let (b, pre) := stopPlan uFree m.u m.uVel m.uAcc dec j
    { m with
      built := b0,
      prof := some { f with segs := b.segs, pre := pre, start := s.tick.no, endP := b.p, endV := 0, kind := .stop, dec := dec } }

/-- The u at which an axis of the move would meet an enabled soft limit that its target lies beyond, the least of them (R269). -/
def State.uSoft (s : State) (t : Fin 2) : Option Nat :=
  let l := (s.moveAxes t).filterMap fun x =>
    match s.soft x.1, s.axes[x.1].coord with
    | some (lo, hi), some (p0, d) =>
      let edge := (if d > 0 then hi else lo) * 65536
      let d' : Int := d.natAbs
      let rem := (edge - p0) * isgn d
      if d ≠ 0 && decide (rem < d') then some ((rem * uOne + d' - 1) / d').toNat else none
    | _, _ => none
  match l with
  | [] => none
  | x :: r => some (least x r)

/-- The path profile brakes to a soft limit at `ul` where it would come too close to it, or pass it, at the coming tick mark: as
an axis's own does (R269). `(p, v)` is the path there. -/
def Prof.uLimit (f : Prof) (a : Axis) (ul : Option Nat) (quick : Nat) (p v : Int) : Prof :=
  match ul with
  | none => f
  | some l =>
    let rem : Int := l - p
    if f.lim.isSome || (f.kind == .stop && decide (f.endP ≤ (l : Int))) then f
    else if decide (rem < 0) || (decide (v > 0) && decide (rem * (2 * f.dec * 65536 : Nat) ≤ v * v)) then
      f.brakeTo a ((l : Int) / 65536) quick false
    else f

/-- The path of a move at the coming tick mark: the profile that holds then, and u, its rate, its acceleration, and whether it
has come to rest. `ul` is the path's soft limit. -/
def Prof.uNow (f : Prof) (a : Axis) (ul : Option Nat) (time : Nat) : Prof × Int × Int × Int :=
  let (p, v, ac, _, _) := f.now a time
  let l : Int := (ul.map fun (x : Nat) => (x : Int)).getD 0
  if f.lim.isSome && (decide (p ≥ l) || (f.past && decide (a.pos ≥ l))) then
    ({ f with segs := [], endP := max a.pos l, endV := 0 }, max a.pos l, 0, 0)
  else if f.over time then (f, f.endP, 0, 0)
  else (f, p, v, ac)

/-- An overshoot of the path (R273) has come to rest: the return leg is laid out. -/
def Prof.uReturn (f : Prof) (u : Int) (start : Nat) : Prof :=
  { f with
    segs := (posPlan uFree u 0 0 uOne (f.vlim * 65536) f.acc f.dec f.jerk).1, start := start, endP := uOne, kind := .target, pre := 0 }

/-- The station engine's work of one tick: u at the coming tick mark (R278). -/
def State.moveTick (s : State) (t : Fin 2) : State :=
  match s.stations[t].mv with
  | none =>
    match s.stations[t].uEnd with
    | some x => (s.put (ST_COORD_U_U t) x).stn t fun y => { y with uEnd := none }
    | none => s
  | some m =>
    let s := s.stn t fun y => { y with uEnd := none }
    if m.waiting then s
    else match m.prof with
      | none => s
      | some f =>
        let s := s.put (ST_COORD_U_U t) (m.u / 2 ^ 32).toNat
        let m := if m.stopping && m.built != some (m.quick, m.plain) then s.moveBrake t m f else m
        let f := m.prof.getD f
        let a := { Axis.init with pos := m.u, vel := m.uVel, acc := m.uAcc, at_ := m.at_ }
        let k := s.tick.no + 1
        let q := if m.stopping then none else s.uTorque t f.acc f.dec
        let (binds, f) := f.torq a (q.getD Tq.free) uFree (s.uQuick t) s.tickT ((k - m.at_) * s.tickT)
        let time := fun (f : Prof) => (k - f.start) * s.tickT
        let (p, v, _, _, _) := f.now a (time f)
        let ul := s.uSoft t
        let f' := f.uLimit a ul (s.uQuick t) p v
        let s := if f'.lim.isSome && (f'.kind == .limitEnd || f'.past) then m.ids.foldl (fun s id => s.cause id CANCELLED_STATE) s else s
        let (f, p, v, ac) := f'.uNow a ul (time f')
        let f := if f.kind == .limitCont && f.over (time f) then f.uReturn p k else f
        let s := s.putB (ST_COORD_STAT_LIMITED t) binds
        s.stn t fun x => { x with mv := some { m with
          prof := some f, at_ := k, u := p, uVel := v, uAcc := ac,
          cap := f.capped (if binds then q.map Tq.vZero else none) } }

/-- An engaged axis takes its place on the line, a soft limit not passed (R269, R277, R278). -/
def State.coordTick (s : State) (n : Fin 8) : State :=
  match s.stations[stationOf n].mv, s.axes[n].coord with
  | some m, some (p0, d) =>
    let (seg, pre, f) := match m.prof with
      | some f => let (_, _, _, seg, pre) := f.at ((m.at_ - f.start) * s.tickT); (seg, pre, f)
      | none => (0, false, Prof.mk0 [] 0 0 0 .target)
    let s := (s.planStat n f seg pre).putB (AX_STATE_VCAP n) (m.cap && decide (d ≠ 0))
    let s := s.put (AX_STATE_TORQ_LIM n) (s.g (ST_COORD_STAT_LIMITED (stationOf n)))
    let p := p0 + d * m.u / uOne
    let p := match f.lim, s.soft n with
      | some _, some (lo, hi) => if d > 0 then min p (max (hi * 65536) s.axes[n].pos) else max p (min (lo * 65536) s.axes[n].pos)
      | _, _ => p
    s.place n p (d * m.uVel / uOne) (d * m.uAcc / uOne) none
  | _, _ => s

/-- A move completes at the commit point of a tick in which u has come to rest and no engaged axis is late (R278 to R280). -/
def State.moveCommit (s : State) (t : Fin 2) (late : Fin 8 → Bool) : State :=
  match s.stations[t].mv with
  | none => s
  | some m =>
    let joint := s.moveAxes t
    match m.waiting, m.prof with
    | false, some f =>
      let rest := f.over ((s.tick.no + 1 - f.start) * s.tickT) || joint.isEmpty
      if !rest || joint.any (fun x => late x.1) then s
      else
        let done := !m.stopping && f.kind == .target
        let s := m.ids.foldl (fun (s : State) id =>
          match s.cmds.find? (fun c => c.id == id) with
          | none => s
          | some c => s.markEnd id (if done then (if f.limited then DONE_LIMITED else DONE) else firstEnding c.causes CANCELLED_HOST)) s
        let s := m.axes.foldl (fun (s : State) n =>
          let tgt := s.axes[n].planned
          (s.standHold n).ax n fun a => { a with lastTgt := if done then some tgt else none }) s
        (s.put (ST_COORD_STAT_LIMITED t) 0).stn t fun x => { x with mv := none, uEnd := some (m.u / 2 ^ 32).toNat }
    | _, _ => s

/-- Both stations' moves at a commit point: the endings of a pair fall together (R279). -/
def State.movesCommit (s : State) (late : Fin 8 → Bool) : State :=
  let pair := decide ((s.moveStations 0).length = 2)
  let ok := fun (t : Fin 2) => (s.moveAxes t).any fun x => late x.1
  if pair && ok 0 then s else (s.moveCommit 0 late).moveCommit 1 late

end Sys2Proof.Machine
end

