-- ==== Sys2Proof/Machine/Follow.lean ====
section
/-!
DEFINITION. Step-follow (R281 to R284): the steps, the position they ask for at a tick mark, and what V_CAP and the soft limits
leave of it.
-/

namespace Sys2Proof.Machine

open Host

/-- STEP_PULSE: a rising edge on STEPn after `STEP_INV`; `dir` is the level of DIRn (R281, R284). -/
def execStepPulse (dt : Nat) (n : Fin 8) (dir : Bool) (s : State) : Outcome State Fault Refusal :=
  let s := s.tickTo dt
  let up := dir != s.gb (AX_PINSEL_DIR_INV n)
  done (if !s.flPins || s.g (AX_PINSTAT_STEP_ACT n) ≠ 0 then s
    else if s.axes[n].st == .follow then
      s.ax n fun a => { a with fol := { a.fol with steps := a.fol.steps ++ [(s.now, up)], lastStep := s.now } }
    else s.inc (AX_FOL_STAT_STEP_IGN n))

/-- FOLLOW begins at a tick mark: the count is zeroed and the planned position is the origin (R282). -/
def State.followOn (s : State) (n : Fin 8) : State :=
  let s := s.setWord (AX_FOL_STAT_STEP_DROP n).a 0
  (s.enterMotion n .follow).ax n fun a => { a with
    fol := { FollowSt.init with origin := a.pos, lastStep := s.now }, prof := none }

/-- Net count of steps. -/
def netSteps (l : List (Nat × Bool)) : Int := l.foldl (fun x y => if y.2 then x + 1 else x - 1) 0

/-- Steps at or before `t` move into the base count. -/
def FollowSt.prune (f : FollowSt) (t : Nat) : FollowSt :=
  let old := f.steps.takeWhile fun x => x.1 ≤ t
  { f with
    steps := f.steps.dropWhile fun x => x.1 ≤ t, base := f.base + netSteps old,
    lastT := match old.getLast? with
      | some x => some x
      | none => f.lastT }

/-- The follow position of tick mark `mark`, `f` being pruned to one tick before it (R282). -/
def FollowSt.wanted (f : FollowSt) (mark per sc : Nat) (interp : Bool) : Int :=
  let u : Int := sc * 65536
  if interp then
    match f.lastT, f.steps.head? with
    | some (ta, da), some (tb, db) =>
      if tb < mark && da == db then
        let w : Int := ((tb - ta : Nat) : Int)
        let x : Int := (((mark - per) - ta : Nat) : Int)
        f.origin + (f.base * w + (if db then x else -x)) * u / w
      else f.origin + u * f.base
    | _, _ => f.origin + u * f.base
  else f.origin + u * (f.base + netSteps (f.steps.filter fun x => x.1 < mark))

/-- Braking to a soft limit in FOLLOW: the new position, the braking that goes on, and whether the axis stands on the limit
because the braking would have exceeded `AXn_QDEC` (R269). -/
def followLimit (br : Option (Nat × Nat × Bool)) (cur new edge : Int) (d : Int) (per own q : Nat) :
    Int × Option (Nat × Nat × Bool) × Bool :=
  let start : Option (Nat × Nat × Bool) :=
    match br with
    | some b => some b
    | none =>
      let v := (new - cur).natAbs * 400000000 / or1 per
      if (edge - new) * d * (2 * own * 65536 : Nat) > v * v then none
      else
        let need := stopRate v ((edge - cur) * d).toNat
        some (v, min need q, decide (need > q))
  match start with
  | none => (new, none, false)
  | some (v, dec, past) =>
    let b := (Bld.from 0 v).ramp 1 0 dec 0
    let f := Prof.mk0 b.segs 0 b.p 0 .stop
    let (adv, v1, _) := f.at (per * 256)
    let adv := if v1 = 0 && !past then max adv ((edge - cur) * d) else adv
    let pos := cur + d * adv
    if (new - pos) * d < 0 then (new, none, false)
    else if (pos - edge) * d ≥ 0 then (edge, none, past)
    else (pos, some (v1.toNat, dec, past), false)

/-- One tick in FOLLOW (R282, R283, R269). -/
def State.followTick (s : State) (n : Fin 8) : State :=
  let a := s.axes[n]
  let per := s.g CLK_TICK_CFG_PERIOD
  let sc := clampN 1 4096 (s.g (AX_FOL_CFG_STEPSCALE n))
  let f := a.fol.prune (s.tick.mark - per)
  let want := f.wanted s.tick.mark per sc (s.gb (AX_FOL_CFG_INTERP n))
  let cur := a.pos
  let d := isgn (want - cur)
  let edge : Option Int := match s.soft n with
    | some (lo, hi) => if d = 0 then none else some ((if d > 0 then hi else lo) * 65536)
    | none => none
  -- steps past an enabled soft limit are discarded
  let want' := match edge with
    | some e => if (want - e) * d > 0 then (if (e - cur) * d > 0 then e else cur) else want
    | none => want
  let cap : Int := 6144 * 65536
  let capped := decide ((want' - cur) * d > cap)
  let new := if capped then cur + d * cap else want'
  let (new, br, hard) := match edge with
    | some e => if new = cur then (new, none, false) else followLimit f.brake cur new e d per (s.psD n 0) (s.qdecOf n)
    | none => (new, none, false)
  let rest := (want' - new) * d
  let lost := if rest > 16384 * 65536 then rest - 16384 * 65536 else 0
  let f := { f with origin := f.origin - (want - want') - d * lost, brake := br }
  let s := if want ≠ want' || lost > 0 then s.inc (AX_FOL_STAT_STEP_DROP n) else s
  let v := (new - cur) * 400000000 / (or1 per : Nat)
  let s := (s.putB (AX_STATE_VCAP n) capped).put (AX_STATE_TORQ_LIM n) 0
  let s := s.ax n fun x => { x with pos := new, vel := v, acc := (v - x.vel) * 400000000 / (or1 per : Nat), fol := f }
  if hard then (s.followLeave n).standHold n else s

end Sys2Proof.Machine
end

