-- ==== Sys2Proof/Machine/Homing.lean ====
section
/-!
DEFINITION. Homing (R285 to R287): the phases of Table 9-3, the datum, the back-off, failure. Also every change of coordinates
that moves no rotor (R276, R286).
-/

namespace Sys2Proof.Machine

open Host

/-! ## Change of coordinates (R276, R286) -/

/-- The planned position becomes `p` (16 fractional bits) and the measured position, at the count of the last tick mark, `m`;
both are changes of coordinates. The closure monitor's count restarts. -/
def State.recoord (s : State) (n : Fin 8) (p m : Int) : State :=
  let m' := if s.g (AX_PINSTAT_FB_ACT n) = 0 then 0 else m
  s.ax n fun a =>
    let δp := p / 65536 - a.planned
    let δm := m - a.dp.m
    { a with
      pos := p, closN := 0, closDue := false,
      dp := { a.dp with
        moff := m, coff := a.dp.cTick, m := m', dirP := a.dp.dirP.map fun x => (x.1 + δp, x.2 + δm) },
      obs := { a.obs with hist := a.obs.hist.map fun x => (x.1, x.2 + δp) } }

/-! ## Phases (Table 9-3) -/

/-- The feature's level (R285): the limit in the search direction, or the home level. -/
def State.feature (s : State) (n : Fin 8) (h : HomeSt) : Bool :=
  if h.method = 1 then s.limActive n h.neg else (h.method = 2 || h.method = 3) && s.gb (AX_STATE_HOME_IN n)

/-- Search direction. -/
def HomeSt.dir (h : HomeSt) : Int := if h.neg then -1 else 1

/-- The homing sequence changed. -/
def State.hom (s : State) (n : Fin 8) (f : HomeSt → HomeSt) : State := s.ax n fun a => { a with home := a.home.map f }

/-- A phase begins, its motion planned from the state of tick mark `at_`. The start of INDEX restarts the index reference and
C_m (R386, R387). -/
def State.homePhase (s : State) (n : Fin 8) (h : HomeSt) (ph : Nat) (k : Nat) : State :=
  let a := s.axes[n]
  let want := if ph = 1 then h.speed else h.creep
  let cap := min h.vmax s.vcap
  let v := min want cap
  let w : Int := (if ph = 2 then -h.dir else h.dir) * v * 65536
  let b := velPlan a.pos a.vel w h.acc h.dec
  let f := { Prof.mk0 b.segs k b.p w .home with typ := 3, vlim := cap, acc := h.acc, dec := h.dec, cmdV := want }
  (s.put (AX_HOME_STAT_PHASE n) ph).ax n fun a => { a with
    prof := some f, dp := if ph = 4 then { a.dp with ci := none, cm := a.dp.cTick } else a.dp,
    home := some { h with phase := ph, from_ := a.pos, stopping := false, idxFrom := a.dp.idxT, missFrom := a.dp.missT } }

/-- HOME starts (R285): HOMING, FAILED and FAIL_CAUSE clear. -/
def State.homeStart (s : State) (n : Fin 8) (c : Cmd) : State :=
  let k := s.g (AX_HOME_CFG_HSET n)
  let m := dSel c.d0 % 8
  let h : HomeSt := {
    cmd := c.id, method := m, neg := bit (dFlags c.d0) 0, speed := c.d1.toNat, creep := or1 (s.g (AX_HOME_CREEP_CREEP n)),
    back := s.g (AX_HOME_BACK_BACK n), vmax := s.psV n k, acc := s.psA n k, dec := s.psD n k,
    ofs := sgn 48 (c.d2.toNat + 2 ^ 32 * bits c.d3.toNat 0 16), timeout := bits c.d3.toNat 16 16, t0 := s.tick.mark,
    phase := 1, from_ := 0, stopping := false, oppPrev := s.limActive n (!bit (dFlags c.d0) 0), stall := none,
    idxFrom := 0, missFrom := 0 }
  let s := (s.put (AX_HOME_STAT_FAILED n) 0).put (AX_HOME_STAT_FAIL_CAUSE n) 0
  let s := (s.enterMotion n .homing).ax n fun a => { a with lastTgt := none }
  s.homePhase n h (if m = 4 then 4 else if s.feature n h then 2 else 1) s.tick.no

/-- Homing fails (R287): the axis quiesces at `AXn_QDEC`, HOME ends HOMING_FAILED at standstill. -/
def State.homeFail (s : State) (n : Fin 8) (cause : Nat) : State :=
  let s := ((s.put (AX_HOME_STAT_FAILED n) 1).put (AX_HOME_STAT_FAIL_CAUSE n) cause).put (AX_STATE_REF n) 0
  (s.hom n fun h => { h with phase := 0 }).stopAxis n true HOMING_FAILED s.axes[n].at_

/-- The timeout of the sequence has run out at the tick mark (R287). -/
def State.homeLate (s : State) (n : Fin 8) : Bool :=
  s.axes[n].home.any fun h => h.phase != 0 && h.timeout != 0 && decide (s.tick.mark - h.t0 ≥ msCyc (10 * h.timeout))

/-- The first cause of failure that holds in this tick, 0 for none (R287). -/
def State.homeCause (s : State) (n : Fin 8) (h : HomeSt) : Nat :=
  let a := s.axes[n]
  let maxd := s.g (AX_HOME_MAXD_MAXD n)
  if s.homeLate n then 1
  else if maxd != 0 && decide ((a.planned - h.from_ / 65536).natAbs > maxd) then 2
  else if s.limActive n (!h.neg) && !h.oppPrev then 3
  else if h.phase = 4 && decide (a.dp.missT > h.missFrom) then 5
  else 0

/-- The datum point is reached (R286): the coordinates move by OFFSET less the datum point, and BACKOFF begins. `p` is the new
planned position, `m` the new measured one. -/
def State.homeDatum (s : State) (n : Fin 8) (h : HomeSt) (p m : Int) : State :=
  let s := s.recoord n p m
  let a := s.axes[n]
  let t := h.ofs + (if h.neg then (h.back : Int) else -h.back)
  let cap := min h.vmax s.vcap
  let q := posPlan (s.vcap * 65536) a.pos a.vel 0 (t * 65536) (cap * 65536) h.acc h.dec 0
  let f := { Prof.mk0 q.1 a.at_ (t * 65536) 0 .home with
    typ := 1, pre := q.2, target := some t, vlim := cap, acc := h.acc, dec := h.dec, cmdV := h.vmax }
  (s.put (AX_HOME_STAT_PHASE n) 5).ax n fun a => { a with
    prof := some f, home := some { h with phase := 5, from_ := a.pos, stall := none } }

/-- What the phase in progress makes of the levels, captures and reports of this tick (Table 9-3, R286). -/
def State.homeSeek (s : State) (n : Fin 8) (h : HomeSt) : State :=
  let a := s.axes[n]
  let feat := s.feature n h
  if h.phase = 1 then
    if h.method = 0 then
      match h.stall with
      | some r =>
        let p := a.pos + (h.ofs - r) * 65536
        s.homeDatum n h p (p / 65536)
      | none => s
    else if h.stopping then
      if a.vel = 0 then s.homePhase n h 2 a.at_ else s
    else if feat then
      let b := velPlan a.pos a.vel 0 h.acc h.dec
      s.ax n fun a => { a with
        prof := some { Prof.mk0 b.segs a.at_ b.p 0 .home with typ := 3, vlim := 0, acc := h.acc, dec := h.dec },
        home := some { h with stopping := true } }
    else s
  else if h.phase = 2 then (if feat then s else s.homePhase n h 3 a.at_)
  else if h.phase = 3 then
    if !feat then s
    else if h.method = 3 then s.homePhase n h 4 a.at_
    else
      let p := h.ofs * 65536 + a.vel * (s.g (AX_PINSEL_FILT n) : Nat) / 1000000
      s.homeDatum n h p (p / 65536)
  else if h.phase = 4 then
    match a.dp.idxCap with
    | some c =>
      if a.dp.idxT > h.idxFrom then
        let m := a.dp.m + h.ofs - s.measuredAt n c
        s.homeDatum n h (m * 65536) m
      else s
    | none => s
  else s

/-- BACKOFF is complete: HOME ends DONE, the position is referenced (R286). -/
def State.homeDone (s : State) (n : Fin 8) : State :=
  let s := match s.execOf n with
    | some c => s.markEnd c.id DONE
    | none => s
  ((s.put (AX_STATE_REF n) 1).standHold n).ax n fun a => { a with lastTgt := none }

/-- One tick in HOMING. -/
def State.homeTick (s : State) (n : Fin 8) : State :=
  match s.axes[n].home with
  | none => s
  | some h =>
    let cause := s.homeCause n h
    let s := s.hom n fun h => { h with oppPrev := s.limActive n (!h.neg) }
    if cause ≠ 0 then (s.homeFail n cause).profTick n
    else
      let s := s.homeSeek n { h with oppPrev := s.limActive n (!h.neg) }
      let a := s.axes[n]
      match a.prof with
      | none => s
      | some f =>
        let t := (s.tick.no + 1 - f.start) * s.tickT
        let (p, v, ac, seg, pre) := f.at t
        let s := ((s.planStat n f seg pre).putB (AX_STATE_VCAP n) (f.capped none)).put (AX_STATE_TORQ_LIM n) 0
        if (a.home.any fun h => h.phase = 5) && t ≥ f.len then (s.place n f.endP 0 0 (some f)).homeDone n
        else s.place n p v ac (some f)

/-- A further cause of failure while the axis quiesces is remembered (R506). -/
def State.homeQuiet (s : State) (n : Fin 8) : State :=
  match s.axes[n].home with
  | none => s
  | some h =>
    if h.phase = 0 then s
    else
      let cause := s.homeCause n h
      let s := s.hom n fun h => { h with oppPrev := s.limActive n (!h.neg) }
      if cause ≠ 0 then s.homeFail n cause else s

/-- HOMING_TIMEOUT (R287). -/
def execHomingTimeout (dt : Nat) (n : Fin 8) (s : State) : Outcome State Fault Refusal :=
  let s := s.tickTo dt
  done (if s.tick.commitDue && s.homeLate n && s.energised n then s.homeFail n 1 else s)

end Sys2Proof.Machine
end

