-- ==== Sys2Proof/Machine/Accept.lean ====
section
/-!
DEFINITION. Commit and acceptance (R228 to R234, R237, R505): the parameter check with its location, legality (Table 8-5), the
commit of a descriptor.
-/

namespace Sys2Proof.Machine

/-! ## Parameter check (R231, R505) -/

/-- The rings that an opcode is listed for (Table 8-3). -/
def opRing (op r : Nat) : Bool :=
  match op with
  | 0x01 | 0x02 | 0x03 | 0x04 | 0x05 | 0x06 | 0x07 | 0x08 | 0x20 | 0x21 | 0x22 | 0x23 => decide (r < 8)
  | 0x24 => decide (r < 10)
  | 0x40 | 0x41 => r == 8 || r == 9
  | 0x60 | 0x61 | 0x62 | 0x63 | 0x64 | 0x65 => r == 10
  | _ => false

/-- The bits that an opcode uses: SEL and FLAGS in D0, then D1, D2, D3 (Table 8-4). VPCT and PAIR belong to the LAST part. -/
def opBits (op : Nat) (last : Bool) : Nat × Nat × Nat × Nat :=
  match op with
  | 0x03 | 0x04 => (0x001, 0, 0, 0)
  | 0x06 => (0x001, 0xFFFFFFFF, 0xFFFF, 0)
  | 0x20 | 0x21 => (0x303, 0xFFFFFFFF, 0xFFFFFFFF, 0)
  | 0x22 => (0x300, 0xFFFFFFFF, 0, 0)
  | 0x23 => (0x701, 0xFFFFFFFF, 0xFFFFFFFF, 0xFFFFFFFF)
  | 0x24 => (0, 0xFFFFFFFF, 0, 0)
  | 0x40 => (0xF03, 0xFFFFFFFF, if last then 0xFFFFFFFF else 0xFFFF, if last then 0xFF else 0)
  | 0x41 => (0x003, 0, 0, 0)
  | 0x62 => (0x001, 0x3FF, 0, 0)
  | 0x63 => (0x003, 0xF, 0, 0)
  | 0x64 => (0, 0x3, 0xFFF, 0)
  | 0x65 => (0, 0x3, 0, 0)
  | _ => (0, 0, 0, 0)

/-- The unused bits of word `k` that are set, as locations 32 × word + bit. -/
def strayBits (k w mask : Nat) : List Nat := ((List.range 32).filter fun i => bit w i && !bit mask i).map fun i => 32 * k + i

/-- The pin functions that a HOME method needs are in force (R231). -/
def State.homePins (s : State) (n : Fin 8) (m : Nat) (neg : Bool) : Bool :=
  (m != 1 || !(s.pinHas n (if neg then 2 else 3)).isEmpty) &&
  ((m != 2 && m != 3) || !(s.pinHas n 1).isEmpty) &&
  ((m != 3 && m != 4) || (s.g (AX_PINSTAT_FB_ACT n) = 1 && s.g (AX_PINSTAT_FB2_ACT n) = 1))

/-- The parts of the move that is open on a station ring (R237). -/
def State.openParts (s : State) (r : Nat) : List Cmd :=
  let l := s.stations[if r = 9 then (1 : Fin 2) else 0].open_
  if r = 8 || r = 9 then s.cmds.filter fun c => l.contains c.id else []

/-- A move is open on ring `r`. -/
def State.moveOpen (s : State) (r : Nat) : Bool := (r == 8 || r == 9) && !s.stations[if r = 9 then (1 : Fin 2) else 0].open_.isEmpty

/-- The axis of an axis ring. -/
def ringAxis (r : Nat) : Fin 8 := ⟨r % 8, by omega⟩

/-- The station of a station ring. -/
def ringStation (r : Nat) : Fin 2 := ⟨(r - 8) % 2, by omega⟩

/-- Locations at which a descriptor fails the parameter check (R231, R505). -/
def State.paramFaults (s : State) (r : Nat) (c : Cmd) : List Nat :=
  let op := c.op
  let known := op == 0x01 || opRing op 0 || opRing op 8 || opRing op 10
  if !known then (if dReplace c.d0 then [12, 24] else [24])
  else
    let (m0, m1, m2, m3) := opBits op c.last
    let imm := !c.queued
    let n := ringAxis r
    let on := fun (b : Bool) (l : Nat) => if b then [l] else []
    let parts := s.openParts r
    let tgt := s.cmds.find? fun x => x.tag == bits c.d1.toNat 0 10
    on (!opRing op r) 24 ++
    on (op == 0x07 && r < 8 && (s.g (AX_PINSTAT_STEP_ACT n) ≠ 0 || s.g (AX_PINSTAT_DIR_ACT n) ≠ 0)) 24 ++
    on (s.moveOpen r && op != 0x40 && op != 0x41) 24 ++
    on (dChain c.d0 && imm) 13 ++
    on (op == 0x40 && parts.any fun x => dChain x.d0 != dChain c.d0) 13 ++
    on (dReplace c.d0 && !isStakeOp op) 12 ++
    on (op == 0x40 && parts.any fun x => dSel x.d0 % 4 == dSel c.d0 % 4) 8 ++
    on (op == 0x23 && (dSel c.d0 % 8 > 4 || (r < 8 && !s.homePins n (dSel c.d0 % 8) (bit (dFlags c.d0) 0)))) 8 ++
    strayBits 0 (c.d0.toNat % 4096) m0 ++
    on (op == 0x23 && (c.d1.toNat = 0 || c.d1.toNat > 0x7FFFFFFF)) 32 ++
    on (op == 0x24 && c.d1.toNat = 0) 32 ++
    on (op == 0x62 && (tgt.elim true fun x => x.tag == c.tag || x.op == 0x62 || x.op == 0x63)) 32 ++
    on (op == 0x63 && c.d1.toNat % 16 > 10) 32 ++
    strayBits 1 c.d1.toNat m1 ++
    on ((op == 0x20 || op == 0x21 || (op == 0x40 && c.last)) && bits c.d2.toNat 16 16 > 4096) 80 ++
    strayBits 2 c.d2.toNat m2 ++ strayBits 3 c.d3.toNat m3

/-! ## Legality (Table 8-5) -/

/-- Every cause in `PWR_FLTCAUSEn` and `AXn_FAULT` is inactive (R96, R255). -/
def State.causesClear (s : State) (n : Fin 8) : Bool :=
  let f := s.g (PWR_FLTCAUSE_BITS n)
  let x := s.g (AX_FAULT_BITS n)
  let st := stationOf n
  let off := fun (i : Nat) (b : Bool) => !bit f i || !b
  off 0 (s.gBit PWR_COILFLT_OC (coilA n)) && off 1 (s.gBit PWR_COILFLT_OC (coilB n)) &&
  off 2 (s.gBit PWR_COILFLT_OPEN (coilA n)) && off 3 (s.gBit PWR_COILFLT_OPEN (coilB n)) &&
  off 4 (!s.gb (PWR_STAT_VM_OK st)) && off 5 (s.gb (PWR_STAT_OV st)) && off 6 (s.gb (PWR_STAT_REV st)) &&
  off 7 (s.gb (PWR_STAT_CLAMP st)) &&
  off 8 (s.gb (PWR_STAT_TEMP_TRIP st) || !((List.finRange 8).all fun k => k.val / 3 ≠ st.val || s.cool k) ||
    (s.axes[n].tempCtrl && !(s.cool 6 && s.cool 7))) &&
  off 9 (s.gBit PWR_MOIST_STAT_FB_FAULT n || s.gBit PWR_MOIST_STAT_IDD_FAULT n) &&
  (!bit x 3 || !s.gb (AX_DP_STAT_ENC_FLT n)) && (!bit x 4 || !s.tripHeld n) && (!bit x 6 || s.dev != .safe)

/-- The device states of a command (Table 8-5). -/
def State.devLegal (s : State) (op : Nat) : Bool :=
  match op with
  | 0x02 | 0x03 | 0x04 | 0x05 | 0x06 | 0x08 | 0x41 => s.dev.rr
  | 0x60 | 0x61 | 0x62 | 0x63 | 0x65 => s.dev.rr || s.dev == .safe
  | _ => s.dev == .run

/-- No queued command of the axis's ring executes, and no move engages the axis. -/
def State.ringIdle (s : State) (n : Fin 8) : Bool := (s.execShown n).isNone && !s.engaged n

/-- Axis states and further conditions of a command (Table 8-5). -/
def State.axLegal (s : State) (r : Nat) (c : Cmd) : Bool :=
  let n := ringAxis r
  let st := s.axes[n].st
  match c.op with
  | 0x01 => (st == .off || st == .idle) && s.gb (PWR_STAT_VM_OK (stationOf n))
  | 0x02 => (st == .idle || st == .hold) && s.ringIdle n
  | 0x03 | 0x04 => st.energised
  | 0x05 => st == .fault && s.causesClear n
  | 0x06 => (st == .off || st == .idle || st == .hold) && s.ringIdle n
  | 0x07 => st == .hold && s.ringIdle n
  | 0x08 => st == .follow
  | 0x20 | 0x21 | 0x22 => (st == .hold || st == .moving) && !s.engaged n
  | 0x23 => st == .hold
  | 0x24 => r ≥ 8 || st == .hold
  | 0x64 => !s.ctxs[(⟨c.d1.toNat % 4, by omega⟩ : Fin 4)].running
  | _ => true

/-- A command is legal in the present state (Table 8-5). -/
def State.legal (s : State) (c : Cmd) : Bool := s.devLegal c.op && s.axLegal c.ring c

/-! ## Commit (R229 to R234) -/

/-- The reject code that a descriptor earns in the present state, with the location of a parameter failure; none where it is
accepted (R230). Window stakes of chain mode use their reserved tag (R200). -/
def State.check (s : State) (c : Cmd) : Option (Nat × Nat) :=
  let chain := match c.src with
    | .chain _ => true
    | .spi | .gr | .prog _ => false
  match (s.paramFaults c.ring c) with
  | x :: l => some (REJECT_PARAM, least x (x :: l))
  | [] =>
    if !chain && s.tagBusy c.tag then some (REJECT_TAG_BUSY, 0)
    else if s.fill c.ring ≥ cmdDepth c.ring then some (REJECT_RING_FULL, 0)
    else if !s.devLegal c.op || (c.ring < 8 && s.gBit DEV_BLKRST_STAT_BUSY c.ring) || (!c.queued && !s.axLegal c.ring c) then
      some (REJECT_STATE, 0)
    else none

/-- The counter of a reject code (Table 8-8). -/
def rejCounter (r code : Nat) : Fld :=
  if code = REJECT_STATE then CRNG_CNT_REJ_STATE r else if code = REJECT_PARAM then CRNG_CNT_REJ_PARAM r
  else if code = REJECT_TAG_BUSY then CRNG_CNT_REJ_TAG r else CRNG_CNT_REJ_FULL r

/-- A descriptor is rejected: counted, located, recorded (R231, R232). -/
def State.reject (s : State) (c : Cmd) (code loc : Nat) : State :=
  let r := c.ring
  let s := s.inc (rejCounter r code)
  let s := (s.put (RNG_LASTREJ_TAG r) c.tag).put (RNG_LASTREJ_STATUS r) code
  let s := (s.put (RNG_LASTREJ_WORD r) (loc / 32)).put (RNG_LASTREJ_BIT r) (loc % 32)
  if s.silent c then s else s.postReject c.tag r (srcCode c.src) code

/-- The part of a move joins it or, with LAST, closes it (R237). -/
def State.notePart (s : State) (c : Cmd) : State :=
  if c.op == 0x40 then
    s.stn (ringStation c.ring) fun x => { x with open_ := if c.last then [] else x.open_ ++ [c.id] }
  else s

/-- A descriptor that passed every check takes its entry; a CANCEL_TAG binds to the command that holds its tag (R230, R249). -/
def State.accept (s : State) (c : Cmd) : State :=
  let tgt := (s.cmds.find? fun x => x.tag == bits c.d1.toNat 0 10).map (·.id)
  let c := { c with wait := if c.op == 0x62 then tgt.toList else [] }
  ({ s with cmds := s.cmds ++ [c], nextId := s.nextId + 1 }).notePart c

/-- A descriptor as a command of ring `r`. -/
def State.mkCmd (s : State) (src : Src) (r : Nat) (w : Word × Word × Word × Word) : Cmd :=
  { id := s.nextId, ring := r, src := src, d0 := w.1, d1 := w.2.1, d2 := w.2.2.1, d3 := w.2.2.2, ph := .accepted, wait := [],
    causes := [], at_ := s.now, ran := false }

/-- A commit: the state after it and the result, 0 where accepted (R230). -/
def State.commit (s : State) (src : Src) (r : Nat) (w : Word × Word × Word × Word) : State × Nat :=
  let c := s.mkCmd src r w
  match s.check c with
  | some (code, loc) => (s.reject c code loc, code)
  | none => (s.accept c, 0)

/-! ## Program contexts as far as a commit moves them (R443, R444) -/

/-- PC moves to `pc`; beyond the store the context stops. -/
def State.ctxTo (s : State) (x : Fin 4) (pc : Nat) : State :=
  if pc > 4095 then s.stopCtx x 7 else s.ctx x fun c => { c with pc := pc, wait := .none }

/-- A jump to FAIL with FJ = 1, a stop with `cause` otherwise. -/
def State.ctxFail (s : State) (x : Fin 4) (w cause : Nat) : State :=
  if pFj w then s.ctxTo x (pFail w) else s.stopCtx x cause

/-- The entry that holds a command is removed. -/
def Ctx.untrack (c : Ctx) (id : Nat) : Ctx := { c with trk := c.trk.filter fun e => e.2.1 != id }

/-! ## Commits of one cycle (R233) -/

/-- The program context that issued a command. -/
def Cmd.ctx? (c : Cmd) : Option (Fin 4) :=
  match c.src with
  | .prog x => some x
  | .spi | .gr | .chain _ => none

/-- Commands that program contexts have committed to ring `r` in this cycle, in context order. -/
def State.cycleProgs (s : State) (r : Nat) : List Cmd :=
  (List.finRange 4).flatMap fun x => s.cmds.filter fun c => c.ring == r && c.at_ == s.now && c.ph == .accepted && c.ctx? == some x

/-- An acceptance of this cycle is taken back. -/
def State.takeBack (s : State) (c : Cmd) : State :=
  let s := s.dropCmd c.id
  if c.op == 0x40 then s.stn (ringStation c.ring) fun x => { x with open_ := x.open_.filter fun i => i != c.id } else s

/-- The program instruction whose commit fails after all takes its failing way: FAIL, or a stop at the instruction (R445). A context that has
gone on in the same cycle keeps its place. -/
def State.progFails (s : State) (x : Fin 4) (k : Cmd) : State :=
  let s := s.ctx x fun c => c.untrack k.id
  let pc := s.ctxs[x].pc
  let word := fun (i : Nat) => (kvGet s.store i 0).toNat
  match s.ctxs[x].wait with
  | .homeTag _ => s.ctxFail x (word pc) 12
  | .none | .tag _ _ | .inp _ | .time _ | .retry =>
    let w := word (pc - 3)
    if word (pc - 2) / 2 ^ 32 ≠ k.d0.toNat then s
    else if bit w 45 then s.ctxTo x (bits w 32 12)
    else (s.ctx x fun c => { c with pc := pc - 3 }).stopCtx x 2

/-- A program context's commit is performed again behind the link's (R233). -/
def State.recommit (s : State) (c : Cmd) : State :=
  match c.ctx? with
  | none => s
  | some x =>
    let id := s.nextId
    let (s, code) := s.commit c.src c.ring (c.d0, c.d1, c.d2, c.d3)
    if code = 0 then s.ctx x fun k => { k with trk := k.trk.map fun e => if e.2.1 == c.id then (e.1, id, e.2.2) else e }
    else s.progFails x c

/-- A write of `RNGr_COMMIT.GO` by a link: the descriptor staged by it is committed, and its result kept for the link (R229,
R230). Commits of program contexts to the ring in the same cycle come after it (R233). -/
def State.commitLink (s : State) (l : Link) (r : Nat) : State :=
  let k := s.link l
  let w := fun (i : Nat) => kvGet k.stg (4 * r + i) 0
  let progs := s.cycleProgs r
  let (s, code) := (progs.foldl State.takeBack s).commit (linkSrc l) r (w 0, w 1, w 2, w 3)
  let s := progs.foldl State.recommit s
  let old := (kvGet k.commit r 0).toNat
  let x := code + dTag (w 0) * 2 ^ 8 + (bits old 24 7 + 1) % 128 * 2 ^ 24
  s.lnk l fun k => { k with commit := kvSet k.commit r (W x) 0 }

end Sys2Proof.Machine
end

