-- ==== Sys2Proof/Machine/Crypto.lean ====
section
/-!
DEFINITION. Checksums and cryptography: the CRC-16 of R180, the CRC-32 of R210, and the public algorithms that the spec names
and does not print (SHA-256, AES-128-CMAC, ECDSA on P-256; log entry 8). Bytes are numbers below 256, most significant first.
-/

namespace Sys2Proof.Machine

/-- One bit of a shift-register CRC of width `w`. -/
def crcBit (w poly c : Nat) : Nat := if bit c (w - 1) then (c * 2 % 2 ^ w) ^^^ poly else c * 2 % 2 ^ w

/-- One byte, most significant bit first. -/
def crcByte (w poly c b : Nat) : Nat :=
  (List.range 8).foldl (fun c _ => crcBit w poly c) (c ^^^ (b % 256 * 2 ^ (w - 8)))

/-- CRC-16 of R180. -/
def crc16 (bs : List Nat) : Nat := bs.foldl (crcByte 16 0x1021) 0xFFFF

/-- CRC-32 of R210. -/
def crc32 (bs : List Nat) : Nat := (bs.foldl (crcByte 32 0x04C11DB7) 0xFFFFFFFF) ^^^ 0xFFFFFFFF

/-- A number from its bytes, most significant first. -/
def ofBytes (bs : List Nat) : Nat := bs.foldl (fun x b => x * 256 + b) 0

/-- The `k` bytes of a number, most significant first. -/
def toBytes (k x : Nat) : List Nat := (List.range k).map fun i => x / 2 ^ (8 * (k - 1 - i)) % 256

/-! ## SHA-256 -/

/-- The first `k` primes, by trial division below `lim`. -/
def primes (lim k : Nat) : List Nat :=
  ((List.range lim).filter fun n => decide (1 < n) && (List.range n).all fun d => decide (d < 2) || n % d != 0).take k

/-- The whole part of the `k`-th root of `x`, bit by bit from bit `n - 1` down. -/
def rootBits (k x : Nat) : Nat → Nat → Nat
  | 0, r => r
  | n + 1, r => if (r + 2 ^ n) ^ k ≤ x then rootBits k x n (r + 2 ^ n) else rootBits k x n r

/-- The first 32 fractional bits of the `k`-th root of `p`. -/
def rootFrac (k p : Nat) : Nat := rootBits k (p * 2 ^ (32 * k)) 40 0 % 2 ^ 32

/-- The algorithm's 64 round constants: the cube roots of the first 64 primes. -/
def shaK : List Nat := (primes 312 64).map (rootFrac 3)

/-- Its initial hash value: the square roots of the first eight primes. -/
def shaH0 : List Nat := (primes 20 8).map (rootFrac 2)

/-- Rotation of a 32-bit word to the right. -/
def rotr (x n : Nat) : Nat := x / 2 ^ n + x % 2 ^ n * 2 ^ (32 - n)

/-- Message schedule: the next word of the newest-first list. -/
def shaNext (w : List Nat) : Nat :=
  let g := fun (i : Nat) => w.getD (i - 1) 0
  let s0 := rotr (g 15) 7 ^^^ rotr (g 15) 18 ^^^ (g 15 / 8)
  let s1 := rotr (g 2) 17 ^^^ rotr (g 2) 19 ^^^ (g 2 / 1024)
  (g 16 + s0 + g 7 + s1) % 2 ^ 32

/-- The 64 words of a block's schedule, oldest first. -/
def shaSched (m : List Nat) : List Nat := ((List.range 48).foldl (fun w _ => shaNext w :: w) m.reverse).reverse

/-- One round over the working variables a … h. -/
def shaRound (v : List Nat) (kw : Nat) : List Nat :=
  let g := fun (i : Nat) => v.getD i 0
  let s1 := rotr (g 4) 6 ^^^ rotr (g 4) 11 ^^^ rotr (g 4) 25
  let ch := (g 4 &&& g 5) ^^^ ((2 ^ 32 - 1 - g 4) &&& g 6)
  let t1 := g 7 + s1 + ch + kw
  let s0 := rotr (g 0) 2 ^^^ rotr (g 0) 13 ^^^ rotr (g 0) 22
  let mj := (g 0 &&& g 1) ^^^ (g 0 &&& g 2) ^^^ (g 1 &&& g 2)
  [(t1 + s0 + mj) % 2 ^ 32, g 0, g 1, g 2, (g 3 + t1) % 2 ^ 32, g 4, g 5, g 6]

/-- One block of 64 bytes. -/
def shaBlock (h : List Nat) (b : List Nat) : List Nat :=
  let m := (List.range 16).map fun i => ofBytes ((b.drop (4 * i)).take 4)
  let v := ((shaSched m).zip shaK).foldl (fun v x => shaRound v ((x.1 + x.2) % 2 ^ 32)) h
  (h.zip v).map fun x => (x.1 + x.2) % 2 ^ 32

/-- SHA-256 of a byte string. -/
def sha256 (bs : List Nat) : List Nat :=
  let n := bs.length
  let pad := (119 - n % 64) % 64
  let m := bs ++ [0x80] ++ List.replicate pad 0 ++ toBytes 8 (8 * n)
  ((List.range (m.length / 64)).foldl (fun h i => shaBlock h ((m.drop (64 * i)).take 64)) shaH0).flatMap (toBytes 4)

/-! ## AES-128 and CMAC -/

/-- Multiplication by x in GF(2^8). -/
def xtime (a : Nat) : Nat := if bit a 7 then (a * 2 % 256) ^^^ 0x1B else a * 2

/-- Multiplication in GF(2^8). -/
def gmul (a b : Nat) : Nat :=
  ((List.range 8).foldl (fun (p : Nat × Nat) i => (if bit b i then p.1 ^^^ p.2 else p.1, xtime p.2)) (0, a)).1

/-- The inverse in GF(2^8): the 254th power. -/
def ginv (a : Nat) : Nat :=
  let q := (List.range 7).foldl (fun (p : Nat × Nat) _ => (gmul p.1 (gmul p.2 p.2), gmul p.2 p.2)) (1, a)
  q.1

/-- The S-box. -/
def sbox (a : Nat) : Nat :=
  let b := ginv a
  let r := fun (k : Nat) => (b * 2 ^ k % 256) + b / 2 ^ (8 - k)
  b ^^^ r 1 ^^^ r 2 ^^^ r 3 ^^^ r 4 ^^^ 0x63

/-- The next round key. -/
def aesNextKey (k : List Nat) (rc : Nat) : List Nat :=
  let g := fun (i : Nat) => k.getD i 0
  let t := [sbox (g 13) ^^^ rc, sbox (g 14), sbox (g 15), sbox (g 12)]
  let x := fun (a : List Nat) (i : Nat) => (List.range 4).map fun j => a.getD j 0 ^^^ g (4 * i + j)
  let w0 := x t 0
  let w1 := x w0 1
  let w2 := x w1 2
  w0 ++ w1 ++ w2 ++ x w2 3

/-- ShiftRows after SubBytes. -/
def aesSubShift (s : List Nat) : List Nat := (List.range 16).map fun i => sbox (s.getD ((i + 4 * (i % 4)) % 16) 0)

/-- MixColumns. -/
def aesMix (s : List Nat) : List Nat :=
  (List.range 16).map fun i =>
    let c := i / 4 * 4
    let g := fun (j : Nat) => s.getD (c + (i + j) % 4) 0
    xtime (g 0) ^^^ (xtime (g 1) ^^^ g 1) ^^^ g 2 ^^^ g 3

/-- Exclusive OR of two byte strings. -/
def xorB (a b : List Nat) : List Nat := (a.zip b).map fun x => x.1 ^^^ x.2

/-- AES-128 of one block. -/
def aes128 (key blk : List Nat) : List Nat :=
  let st := (List.range 10).foldl (fun (p : List Nat × List Nat × Nat) i =>
    let k := aesNextKey p.2.1 p.2.2
    let s := aesSubShift p.1
    (xorB (if i = 9 then s else aesMix s) k, k, xtime p.2.2)) (xorB blk key, key, 1)
  st.1

/-- Doubling in GF(2^128), for the CMAC subkeys. -/
def cmacDbl (l : Nat) : Nat := if bit l 127 then (l * 2 % 2 ^ 128) ^^^ 0x87 else l * 2

/-- AES-128-CMAC of a byte string. -/
def cmac (key m : List Nat) : List Nat :=
  let l := ofBytes (aes128 key (List.replicate 16 0))
  let k1 := cmacDbl l
  let n := (m.length + 15) / 16 - 1
  let last := m.drop (16 * n)
  let lb := if last.length = 16 then xorB last (toBytes 16 k1)
    else xorB (last ++ [0x80] ++ List.replicate (15 - last.length) 0) (toBytes 16 (cmacDbl k1))
  let x := (List.range n).foldl (fun x i => aes128 key (xorB x ((m.drop (16 * i)).take 16))) (List.replicate 16 0)
  aes128 key (xorB x lb)

/-! ## ECDSA on P-256 -/

/-- Prime of the field, order of the group, coefficient b, base point. -/
def ecP : Nat := 0xffffffff00000001000000000000000000000000ffffffffffffffffffffffff
def ecN : Nat := 0xffffffff00000000ffffffffffffffffbce6faada7179e84f3b9cac2fc632551
def ecB : Nat := 0x5ac635d8aa3a93e7b3ebbd55769886bc651d06b0cc53b0f63bce3c3e27d2604b
def ecGx : Nat := 0x6b17d1f2e12c4247f8bce6e563a440f277037d812deb33a0f4a13945d898c296
def ecGy : Nat := 0x4fe342e2fe1a7f9b8ee7eb4a7c0f9e162bce33576b315ececbb6406837bf51f5

/-- a^e modulo m, `k` bits of the exponent. -/
def powMod (m : Nat) : Nat → Nat → Nat → Nat
  | 0, _, _ => 1 % m
  | k + 1, a, e => if e % 2 = 1 then a * powMod m k (a * a % m) (e / 2) % m else powMod m k (a * a % m) (e / 2)

/-- The inverse modulo a prime. -/
def invMod (m a : Nat) : Nat := powMod m 256 (a % m) (m - 2)

/-- Difference modulo p. -/
def subP (a b : Nat) : Nat := (a + (ecP - b % ecP)) % ecP

/-- Sum of two points; `none` is the point at infinity. -/
def ecAdd (u v : Option (Nat × Nat)) : Option (Nat × Nat) :=
  match u, v with
  | none, q => q
  | p, none => p
  | some (x1, y1), some (x2, y2) =>
    let fin := fun (l : Nat) =>
      let x := subP (l * l % ecP) (x1 + x2)
      some (x, subP (l * subP x1 x % ecP) y1)
    if x1 = x2 then
      if (y1 + y2) % ecP = 0 then none
      else fin ((3 * x1 * x1 + (ecP - 3)) % ecP * invMod ecP (2 * y1) % ecP)
    else fin (subP y2 y1 * invMod ecP (subP x2 x1) % ecP)

/-- A multiple of a point, `k` bits of the scalar. -/
def ecMul : Nat → Nat → Option (Nat × Nat) → Option (Nat × Nat)
  | 0, _, _ => none
  | k + 1, e, p => if e % 2 = 1 then ecAdd p (ecMul k (e / 2) (ecAdd p p)) else ecMul k (e / 2) (ecAdd p p)

/-- A key of 64 bytes (x, then y) is a point of the curve. -/
def ecOnCurve (x y : Nat) : Bool :=
  decide (x < ecP) && decide (y < ecP) && decide (y * y % ecP = (x * x % ecP * x + (ecP - 3) * x + ecB) % ecP)

/-- A signature r, s over a hash verifies under a key (all big-endian). -/
def ecdsaOk (key hash sig : List Nat) : Bool :=
  let x := ofBytes (key.take 32)
  let y := ofBytes (key.drop 32)
  let r := ofBytes (sig.take 32)
  let s := ofBytes (sig.drop 32)
  if key.length = 64 && sig.length = 64 && ecOnCurve x y && decide (0 < r ∧ r < ecN ∧ 0 < s ∧ s < ecN) then
    let w := invMod ecN s
    match ecAdd (ecMul 256 (ofBytes hash * w % ecN) (some (ecGx, ecGy))) (ecMul 256 (r * w % ecN) (some (x, y))) with
    | some (vx, _) => vx % ecN == r
    | none => false
  else false

end Sys2Proof.Machine
end

