-- ==== Sys2Proof/Machine/Identity.lean ====
section
/-!
DEFINITION. The identity bus and the monument records (R420 to R430): presence, reads, the checks of a record, its entry
into force and its withdrawal.
-/

namespace Sys2Proof.Machine

open Host

/-- The bytes as numbers. -/
def nats (b : List Byte) : List Nat := b.map (·.toNat)

/-- The first `k` curve speeds of a record increase strictly, and its points beyond are 0 (Table 15-1). -/
def curveOkRec (b : List Byte) (k : Nat) : Bool :=
  (List.range (k - 1)).all (fun i => decide (beAt b (0x30 + 4 * i) 2 < beAt b (0x34 + 4 * i) 2)) &&
  (List.range 16).all fun i => decide (i < k) || beAt b (0x30 + 4 * i) 4 == 0

/-- The fields of a record that mask bit `i` names lie in their ranges (Tables 15-1 and 15-6). -/
def recRange (b : List Byte) (i : Nat) : Bool :=
  let f := fun o k => beAt b o k
  let inR := fun (lo hi x : Nat) => decide (lo ≤ x ∧ x ≤ hi)
  match i with
  | 0 => inR 12 1000 (f 0x1C 2)
  | 1 => inR 100 6000 (f 0x1E 2)
  | 2 => inR 50 65000 (f 0x20 2)
  | 3 => f 0x22 2 == 0 || inR 10 65000 (f 0x22 2)
  | 4 =>
    let t := f 0x28 1
    f 0x24 1 == 0 && (f 0x25 3 == 0 || decide (16 ≤ f 0x25 3)) && decide (t ≤ 3) &&
      (if t ≥ 2 then inR 10 32 (f 0x29 1) else f 0x29 1 == 0)
  | 5 =>
    let k := f 0x2C 1
    inR 9000 60000 (f 0x2A 2) && (k == 0 || inR 2 16 k) && curveOkRec b k
  | _ => true

/-- The check of a record: the RESULT it gives (R425). -/
def recordCheck (b : List Byte) : Nat :=
  if beAt b 0 4 ≠ 0x4D4F4E55 || beAt b 4 1 ≠ 1 then 4
  else if crc32 (nats (b.take 252)) ≠ beAt b 0xFC 4 then 5
  else if (List.range 7).all (recRange b) then 1
  else 6

/-- The monument record of axis `n` changed by `f`. -/
def State.mon (s : State) (n : Fin 8) (f : MonSt → MonSt) : State := s.ax n fun a => { a with mon := f a.mon }

/-- Serial number of a record. -/
def recSerial (b : List Byte) : Nat := beAt b 0x18 4

/-- The status words that follow the record, the overrides and the pin selection (Tables 15-2 and 15-3). -/
def State.idStat (s : State) (n : Fin 8) : State :=
  let m := s.axes[n].mon
  let mem := !m.image.isEmpty
  let ovr := m.ovrMask != 0
  let s := (s.putBit MG_ID_PRES_INFORCE n (mem || ovr)).putBit MG_ID_PRES_PEND n m.pend.isSome
  let s := s.put (MG_ID_AX_SRC n) (if mem then (if ovr then 2 else 1) else if ovr then 3 else 0)
  let s := (s.put (MG_ID_AX_OVR n) m.ovrMask).put (MG_ID_SER_SERIAL n) (if mem then recSerial m.image else 0)
  let want := if m.encType = 1 then 1 else 2
  s.putB (MG_ID_AX_ENC_MISMATCH n) (m.encType ≠ 0 && s.g (AX_PINSTAT_FB_ACT n) ≠ want)

/-- EV_MONUMENT (Table 17-1). -/
def State.evMon (s : State) (n : Fin 8) (d : Nat) : State := s.pulse 51 n (d + 16 * s.g (MG_ID_AX_RESULT n))

/-- The values in force of an axis are replaced by `f`: a change of the CPR in force is a new CPR (R371, R427). -/
def State.monChange (s : State) (n : Fin 8) (f : MonSt → MonSt) : State :=
  let old := s.cprOf n
  let s := s.mon n f
  let s := if s.cprOf n != old then s.dpRestart n else s
  s.idStat n

/-- A record, or the withdrawal of one, enters force (R427, R428, R429). -/
def State.recordForce (s : State) (n : Fin 8) (b : List Byte) : State :=
  let old := s.axes[n].mon.image
  let s := s.monChange n fun m => { m with image := b, pend := none }
  if b.isEmpty then s
  else
    let ident := fun (x : List Byte) => (x.drop 8).take 20
    let s := if !old.isEmpty && ident old != ident b then s.put (AX_STATE_REF n) 0 else s
    (s.evMon n 3).fbAdd 0x26 ([n.val, s.g (MG_ID_AX_SRC n)] ++ beBytes 4 (recSerial b) ++ nats ((b.drop 8).take 6))

/-- A waiting record takes force at a tick mark at which the axis is OFF or IDLE (R427). -/
def State.idTick (s : State) (n : Fin 8) : State :=
  match s.axes[n].mon.pend with
  | none => s
  | some b => if s.axes[n].st == .off || s.axes[n].st == .idle then s.recordForce n b else s

/-- An accepted record waits for its tick mark (R427); in CONFIG_LOAD every axis is OFF and it takes force at once. -/
def State.recordAccept (s : State) (n : Fin 8) (b : List Byte) : State :=
  if s.dev == .configLoad then s.recordForce n b
  else (s.mon n fun m => { m with pend := some b }).idStat n

/-- The line answered: it is present (R422). -/
def State.idSeen (s : State) (n : Fin 8) : State :=
  let s := s.mon n fun m => { m with misses := 0 }
  if s.gBit MG_ID_PRES_PRESENT n then s
  else ((s.putBit MG_ID_PRES_PRESENT n true).mon n fun m => { m with since := some s.now }).evMon n 1

/-- The line did not answer: absent after two such checks in a row; its values leave force unless they are kept
(R422, R428, R95). -/
def State.idMissed (s : State) (n : Fin 8) : State :=
  let k := s.axes[n].mon.misses + 1
  let s := s.mon n fun m => { m with misses := min 2 k }
  if k ≥ 2 && s.gBit MG_ID_PRES_PRESENT n then
    let s := ((s.putBit MG_ID_PRES_PRESENT n false).mon n fun m => { m with since := none }).evMon n 1
    if s.gb MG_ID_CFG_ABSENT_KEEP || s.gBit PWR_MOIST_STAT_IDD_FAULT n then s
    else (s.mon n fun m => { m with pend := if m.image.isEmpty then none else some [] }).idStat n
  else s

/-- A moisture test holds the identity bus (R94). -/
def State.idHeld (s : State) : Bool := s.surv.mwCur.any fun l => 24 ≤ l

/-- ID_PRESENCE_POLL: the lines due are checked; bit n of `ack` is the answer of line n (R422). -/
def execIdPresencePoll (dt : Nat) (ack : BitVec 8) (s : State) : Outcome State Fault Refusal :=
  let s := s.tickTo dt
  let due := (s.dev == .ready || s.dev == .run || s.dev == .safe) && s.surveyorUp && s.g MG_ID_CFG_POLL != 0
    && decide (s.now - s.surv.idPollAt ≥ msCyc (s.g MG_ID_CFG_POLL)) && !s.idHeld
  done (if !due then s else
    forFin 8 (fun n s =>
      if s.gBit MG_ID_PRES_PRESENT n && s.g (MG_ID_AX_RESULT n) ≠ 3 then s
      else if bit ack.toNat n then s.idSeen n else s.idMissed n) (s.su fun v => { v with idPollAt := s.now }))

/-- A read of line `n` starts. -/
def State.idStart (s : State) (n : Fin 8) : State :=
  s.mon n fun m => { m with since := none, reading := true, tries := 1, retryAt := none }

/-- ID_LINE_PRESENT_READ: 50 ms after the line became present its record is read; a test of the line makes it wait
(R423, R471). -/
def execIdLinePresentRead (dt : Nat) (n : Fin 8) (s : State) : Outcome State Fault Refusal :=
  let s := s.tickTo dt
  let m := s.axes[n].mon
  done (match m.since with
    | some t =>
      if s.now - t ≥ msCyc 50 && s.surveyorUp && !m.reading && s.surv.mwCur != some (24 + n.val) then s.idStart n else s
    | none => s)

/-- A write of RESCAN: each line named is read now, unless its read is running; a line under test is read after the test
(R423, R471). -/
def State.idRescan (s : State) (mask : Nat) : State :=
  forFin 8 (fun n s =>
    if !bit mask n || s.axes[n].mon.reading then s
    else if s.surv.mwCur = some (24 + n.val) then s.mon n fun m => { m with since := some (s.now - msCyc 50) }
    else s.idStart n) s

/-- What a finished attempt gave, its RESULT and whether another attempt follows are settled (R421, R423, R425, R429). -/
def State.idResult (s : State) (n : Fin 8) (rd : IdRead) (repeats : Bool) : State :=
  let s := s.inc (MG_ID_AX_READS n)
  let last := fun (s : State) (res : Nat) =>
    let s := (s.put (MG_ID_AX_RESULT n) res).mon n fun m => { m with reading := false, tries := 0, retryAt := none }
    if res = 1 then s else s.evMon n 2
  match rd with
  | .absent => last ((s.inc (MG_ID_AX_ERRS n)).idMissed n) 2
  | .busError =>
    let s := (s.inc (MG_ID_AX_ERRS n)).idSeen n
    if repeats && s.axes[n].mon.tries < 3 then
      s.mon n fun m => { m with tries := m.tries + 1, retryAt := some s.now }
    else last s 3
  | .bytes b =>
    let s := s.idSeen n
    let r := recordCheck b
    let s := last s r
    let s := s.mon n fun m => { m with since := none }
    if r = 1 then s.recordAccept n b else s

/-- ID_READ_DONE: an attempt to read line `n` has ended (R421, R425). -/
def execIdReadDone (dt : Nat) (n : Fin 8) (rd : IdRead) (s : State) : Outcome State Fault Refusal :=
  let s := s.tickTo dt
  let m := s.axes[n].mon
  done (if m.reading && m.retryAt.isNone && s.surveyorUp then s.idResult n rd true else s)

/-- ID_READ_RETRY: 10 ms after a bus error the read is repeated (R423). -/
def execIdReadRetry (dt : Nat) (n : Fin 8) (s : State) : Outcome State Fault Refusal :=
  let s := s.tickTo dt
  done (match s.axes[n].mon.retryAt with
    | some t =>
      if s.now - t ≥ msCyc 10 && s.surveyorUp && s.surv.mwCur != some (24 + n.val) then
        s.mon n fun m => { m with retryAt := none }
      else s
    | none => s)

/-- A write of CLR_CNT (R430). -/
def State.idCntClr (s : State) : State :=
  forFin 8 (fun n s => (s.clrCnt (MG_ID_AX_READS n)).clrCnt (MG_ID_AX_ERRS n)) s

/-- CONFIG_LOAD reads every line once (R122, R423). -/
def State.idConfigReads (s : State) (rd : Vector IdRead 8) : State :=
  forFin 8 (fun n s => s.idResult n rd[n] false) s

end Sys2Proof.Machine
end

