-- ==== Sys2Proof/Machine/Power.lean ====
section
/-!
DEFINITION. Motor-supply comparators, brake dump and clamp, logic power path, V5OUT, overcurrent, thermal backstop
(R64 to R93). A comparator's command is its crossing; a timer's command acts once its time has run.
-/

namespace Sys2Proof.Machine

open Host

/-- A voltage in the 20 mV units of an event's DETAIL (R474). -/
def mv20 (mv : Nat) : Nat := min 4095 (mv / 20)

/-- A temperature in 1/16 °C as the 11-bit whole °C of an event's DETAIL (R474). -/
def degDetail (t : Int) : Nat := pat 11 (t / 16)

/-- The lockout of a station: its bridges open, its energised axes fault with `pwr` (R69). -/
def State.lockout (s : State) (st : Fin 2) (pwr mv : Nat) : State :=
  let s := if s.gb (PWR_STAT_VM_OK st) then (s.put (PWR_STAT_VM_OK st) 0).pulse 8 st (mv20 mv) else s
  s.stationFault st pwr

/-- BRAKE_CLAMP_ENGAGE: VMB of the station has risen above 63 V (R62, R74). -/
def execBrakeClampEngage (dt : Nat) (st : Fin 2) (s : State) : Outcome State Fault Refusal :=
  let s := s.tickTo dt
  done (if s.gb (PWR_STAT_CLAMP st) then s else
    let s := s.put (PWR_STAT_CLAMP st) 1
    let s := s.pw fun p => { p with
      clampOn := vupd p.clampOn st fun _ => true,
      clampAt := vupd p.clampAt st fun _ => s.now, clampPeak := vupd p.clampPeak st fun _ => p.vms[st] }
    if s.awake then (s.levelOn 11 st 0).stationFault st fcCLAMP else s)

/-- BRAKE_CLAMP_RELEASE: VMB has fallen below 61 V: the episode ends and is recorded with its peak (R74). -/
def execBrakeClampRelease (dt : Nat) (st : Fin 2) (s : State) : Outcome State Fault Refusal :=
  let s := s.tickTo dt
  done (if !s.gb (PWR_STAT_CLAMP st) then s else
    let s := (s.put (PWR_STAT_CLAMP st) 0).pw fun p => { p with clampOn := vupd p.clampOn st fun _ => false }
    let peak := s.power.clampPeak[st]
    let ms := (s.now - s.power.clampAt[st]) / msCyc 1
    if s.awake then
      (s.levelOff 11 st (mv20 peak)).fbAdd 0x12 ([st.val, 0] ++ beBytes 2 peak ++ beBytes 4 (min ms (2 ^ 32 - 1)))
    else s)

/-- BLOCKING_SWITCH_ON: VM of the station has risen above 6.0 V (R65). -/
def execBlockingSwitchOn (dt : Nat) (st : Fin 2) (s : State) : Outcome State Fault Refusal :=
  let s := s.tickTo dt
  done (if s.gb (PWR_STAT_REV st) then s else s.pw fun p => { p with sw := vupd p.sw st fun _ => true })

/-- BLOCKING_SWITCH_OFF: VM of the station has fallen below 5.5 V (R65). -/
def execBlockingSwitchOff (dt : Nat) (st : Fin 2) (s : State) : Outcome State Fault Refusal :=
  let s := s.tickTo dt
  done (s.pw fun p => { p with sw := vupd p.sw st fun _ => false })

/-- VM_LOCKOUT: VMB has fallen below 8.0 V (R69). -/
def execVmLockout (dt : Nat) (st : Fin 2) (mv : BitVec 16) (s : State) : Outcome State Fault Refusal :=
  let s := s.tickTo dt
  done (if s.gb (PWR_STAT_VM_OK st) then s.lockout st fcUV mv.toNat else s)

/-- VM_LOCKOUT_RELEASE: VMB has risen above 8.5 V; a reversed VM keeps the lockout (R69, R70). -/
def execVmLockoutRelease (dt : Nat) (st : Fin 2) (s : State) : Outcome State Fault Refusal :=
  let s := s.tickTo dt
  done (if s.gb (PWR_STAT_REV st) then s else s.put (PWR_STAT_VM_OK st) 1)

/-- UV_WARN_CHANGE: status only (R67, Table 3-4). -/
def execUvWarnChange (dt : Nat) (st : Fin 2) (below : Bool) (s : State) : Outcome State Fault Refusal :=
  let s := s.tickTo dt
  done (s.putB (PWR_STAT_UV_WARN st) below)

/-- VM_OVERVOLTAGE: VMB has risen above OV_LIM: the station opens with cause OV (R70). -/
def execVmOvervoltage (dt : Nat) (st : Fin 2) (mv : BitVec 16) (s : State) : Outcome State Fault Refusal :=
  let s := s.tickTo dt
  done (if s.gb (PWR_STAT_OV st) then s else
    let s := (s.put (PWR_STAT_OV st) 1).stationFault st fcOV
    (s.levelOn 9 st (mv20 mv.toNat)).fbAdd 0x11 ([st.val, 1] ++ beBytes 2 mv.toNat))

/-- VM_OVERVOLTAGE_CLEAR: VMB is back below OV_LIM - 1,000 mV (Table 3-1). -/
def execVmOvervoltageClear (dt : Nat) (st : Fin 2) (mv : BitVec 16) (s : State) : Outcome State Fault Refusal :=
  let s := s.tickTo dt
  done ((s.put (PWR_STAT_OV st) 0).levelOff 9 st (mv20 mv.toNat))

/-- VM_REVERSED: VM of the station lies below -2.0 V: lockout with UV and REV, the switch stays off (R65, R70). -/
def execVmReversed (dt : Nat) (st : Fin 2) (mv : BitVec 16) (s : State) : Outcome State Fault Refusal :=
  let s := s.tickTo dt
  done (if s.gb (PWR_STAT_REV st) then s else
    let s := (s.put (PWR_STAT_REV st) 1).pw fun p => { p with sw := vupd p.sw st fun _ => false }
    let s := s.lockout st (fcUV + fcREV) mv.toNat
    (s.levelOn 10 st 0).fbAdd 0x11 ([st.val, 2] ++ beBytes 2 mv.toNat))

/-- VM_REVERSE_CLEAR: VM is back above -1.0 V (Table 3-1). -/
def execVmReverseClear (dt : Nat) (st : Fin 2) (s : State) : Outcome State Fault Refusal :=
  let s := s.tickTo dt
  done ((s.put (PWR_STAT_REV st) 0).levelOff 10 st 0)

/-- BRAKE_DUMP_ON: a VMB has risen above DUMP_ON; the controller drives BRKG in READY and RUN, outside the hold-off
(R72, R73). A crossing before an asked release has acted goes on without a break. -/
def execBrakeDumpOn (dt : Nat) (s : State) : Outcome State Fault Refusal :=
  let s := s.tickTo dt
  done (if (s.dev == .ready || s.dev == .run) && !s.gb PWR_STAT_BRK_HOT then
    (s.put PWR_STAT_DUMP 1).pw fun p => { p with dumpAt := if s.dumpOn then p.dumpAt else s.now, dumpEnd := none } else s)

/-- BRAKE_DUMP_RELEASE: both VMB are below the release level; BRKG stays high for at least 20 µs (R72). -/
def execBrakeDumpRelease (dt : Nat) (s : State) : Outcome State Fault Refusal :=
  let s := s.tickTo dt
  done (if !s.gb PWR_STAT_DUMP then s
    else if s.now - s.power.dumpAt ≥ usCyc 20 then s.dumpOff
    else s.pw fun p => { p with dumpEnd := some (p.dumpEnd.getD (p.dumpAt + usCyc 20)) })

/-- BRAKE_HOT: the dump has lasted longer than BRK_MAXON (R73). -/
def execBrakeHot (dt : Nat) (s : State) : Outcome State Fault Refusal :=
  let s := s.tickTo dt
  let m := s.g PWR_VM_AUX_BRK_MAXON
  done (if s.dumpOn && m != 0 && s.now - s.power.dumpAt ≥ msCyc (10 * m) then
    ((s.dumpOff.put PWR_STAT_BRK_HOT 1).pw fun p => { p with hotAt := s.now }).levelOn 12 0 0
  else s)

/-- BRAKE_HOLDOFF_END: four times BRK_MAXON have passed (R73). -/
def execBrakeHoldoffEnd (dt : Nat) (s : State) : Outcome State Fault Refusal :=
  let s := s.tickTo dt
  done (if s.gb PWR_STAT_BRK_HOT && s.now - s.power.hotAt ≥ msCyc (40 * s.g PWR_VM_AUX_BRK_MAXON) then
    (s.put PWR_STAT_BRK_HOT 0).levelOff 12 0 0 else s)

/-- EV_PWR_SRC with its DETAIL (Table 17-1). -/
def State.evPwrSrc (s : State) : State := s.pulse 6 0 (s.g PWR_STAT_SRC_VM + 2 * s.g PWR_STAT_FL_ON)

/-- LOGIC_SOURCE_CHANGE: the logic path changes its source (R75, R76). -/
def execLogicSourceChange (dt : Nat) (toVm : Bool) (s : State) : Outcome State Fault Refusal :=
  let s := s.tickTo dt
  done (if s.gb PWR_STAT_SRC_VM == toVm then s
    else if s.awake then (s.putB PWR_STAT_SRC_VM toVm).evPwrSrc else s.putB PWR_STAT_SRC_VM toVm)

/-- The full-logic domain may be powered from the present source (R78). -/
def State.flMay (s : State) : Bool :=
  s.gb PWR_STAT_SRC_VM || (s.gb PWR_PATH_CFG_FL_ON_LINK && s.gb LNK_GR_STAT_FL_QUAL)

/-- FULL_LOGIC_POWER_LOSS: the domain is about to lose power: SAFE with cause POWER, every command in flight cancelled and posted,
also those that SAFE lets run, and 200 ms of grace (R79). -/
def execFullLogicPowerLoss (dt : Nat) (s : State) : Outcome State Fault Refusal :=
  let s := s.tickTo dt
  done (if s.flOn && s.power.grace == none then
    ((s.safeCause scPOWER).endAll Cmd.live CANCELLED_FAULT).pw fun p => { p with grace := some s.now } else s)

/-- The full-logic domain goes down: its clock, its registers and V5OUT with it. -/
def State.flDown (s : State) : State :=
  let s := s.pw fun p => { p with flUp := false, grace := none }
  let s := (s.put PWR_STAT_FL_ON 0).v5Follow.mwStop
  let s := { s with tick := { s.tick with on := false, commitDue := false } }
  forFin 8 (fun n s => s.bridgesOff n) s

/-- FULL_LOGIC_POWER_DOWN: the 200 ms have passed (R79). -/
def execFullLogicPowerDown (dt : Nat) (s : State) : Outcome State Fault Refusal :=
  let s := s.tickTo dt
  done (match s.power.grace with
    | some t => if s.now - t ≥ msCyc 200 then s.flDown.evPwrSrc else s
    | none => s)

/-- V5OUT_OVERLOAD: 10 ms in current limit: V5OUT goes off (R83). -/
def execV5outOverload (dt : Nat) (s : State) : Outcome State Fault Refusal :=
  let s := s.tickTo dt
  done (if s.gb PWR_STAT_V5_ON then
    (((s.put PWR_STAT_V5_ON 0).put PWR_STAT_V5_FAULT 1).pw fun p => { p with v5Off := some s.now, v5On := none }).levelOn 13 0 0
  else s)

/-- V5OUT_RETRY: 500 ms after the switch-off, V5OUT is switched on and tested (R83). -/
def execV5outRetry (dt : Nat) (s : State) : Outcome State Fault Refusal :=
  let s := s.tickTo dt
  done (match s.power.v5Off with
    | some t =>
      if s.now - t ≥ msCyc 500 && s.gb PWR_PATH_CFG_V5_EN && s.flOn && (s.dev != .safe || s.gb PWR_PATH_CFG_V5_SAFE) then
        s.v5Switch.pw fun p => { p with v5Off := none, v5On := some s.now }
      else s
    | none => s)

/-- V5OUT_FAULT_CLEAR: a tested switch-on has stayed out of current limit for 10 ms (R83). -/
def execV5outFaultClear (dt : Nat) (s : State) : Outcome State Fault Refusal :=
  let s := s.tickTo dt
  done (match s.power.v5On with
    | some t =>
      if s.gb PWR_STAT_V5_ON && s.gb PWR_STAT_V5_FAULT && s.now - t ≥ msCyc 10 then
        ((s.put PWR_STAT_V5_FAULT 0).pw fun p => { p with v5On := none }).levelOff 13 0 0
      else s
    | none => s)

/-- POWER_FAIL: the keep-alive domain runs from VBAK, full logic goes at once, the power-loss record replaces the queue but
for the record in progress (R85, R453). -/
def execPowerFail (dt : Nat) (vm0 vm1 vlink vbak : BitVec 16) (s : State) : Outcome State Fault Refusal :=
  let s := s.tickTo dt
  done (if s.power.holdup || !s.answers then s else
    let s := s.flDown.pw fun p => { p with holdup := true }
    let s := s.mwStop
    let left := s.surv.fbQ.length - 1
    let s := s.su fun v => { v with fbQ := v.fbQ.take 1 }
    s.fbAdd 0x02 (beBytes 2 vm0.toNat ++ beBytes 2 vm1.toNat ++ beBytes 2 vlink.toNat ++ beBytes 2 vbak.toNat
      ++ beBytes 2 left))

/-- HOLDUP_END: VBAK has fallen below 2.7 V: the keep-alive domain stops (R85). -/
def execHoldupEnd (dt : Nat) (s : State) : Outcome State Fault Refusal :=
  let s := s.tickTo dt
  done (if s.power.holdup then s.pw fun p => { p with dead := true } else s)

/-- Classification of a short by the FETs that tripped (R88): 1 to ground, 2 to VM, 3 across the coil. DESIGN CHOICE (log entry
26): both FETs of one terminal are not classified by the spec, a free value; three or four FETs that hold a high side and the
other terminal's low side count as across the coil, both high sides as to ground, both low sides as to VM. -/
def ocKind (fets free : Nat) : Nat :=
  let h1 := bit fets 0
  let l1 := bit fets 1
  let h2 := bit fets 2
  let l2 := bit fets 3
  if (h1 && l2) || (h2 && l1) then 3
  else if (h1 && l1) || (h2 && l2) then free % 4
  else if h1 || h2 then 1
  else 2

/-- FET_OVERCURRENT: comparators have tripped FETs of a coil within one on-interval; each turns its own FET off, also under the
clamp, until CLR_OC (R62, R88, R89). A later trip of a latched coil is only counted: DESIGN CHOICE (log entry 26), the spec gives
that counter no width and no address; it saturates at 65,535. -/
def execFetOvercurrent (dt : Nat) (c : Fin 16) (fets : BitVec 4) (s : State) : Outcome State Fault Refusal :=
  let s := s.tickTo dt
  let n := axisOf c
  done (if fets = 0 then s
    else if s.gBit PWR_COILFLT_OC c then
      s.co c fun k => { k with ocMore := min 65535 (k.ocMore + 1), ocFets := k.ocFets ||| fets.toNat }
    else
      let kind := ocKind fets.toNat (Config.freeValue s.free).toNat
      let s := s.useFree
      let s := (s.putBit PWR_COILFLT_OC c true).put (PWR_OCKIND_KIND c) kind
      let s := s.co c fun k => { k.release with ocFets := fets.toNat }
      let s := (s.pulse 16 c kind).ax n fun a => { a with ocDue := a.ocDue ||| fcOC (c.val % 2 == 1) }
      s.fbAdd 0x10 [c.val, kind, s.axes[n].st.code])

/-- OPEN_COIL_DETECT: the regulator declares the coil open: its three conditions have held for OPEN_TICKS ticks (R90). -/
def execOpenCoilDetect (dt : Nat) (c : Fin 16) (s : State) : Outcome State Fault Refusal :=
  let s := s.tickTo dt
  let n := axisOf c
  let t := s.g (PWR_AXCFG_OPEN_TICKS n)
  done (if t != 0 && s.coils[c].openN ≥ t && s.energised n then
    let s := (s.putBit PWR_COILFLT_OPEN c true).pulse 17 c 0
    let s := s.co c fun k => { k with openN := 0 }
    s.axisFault n (fcOPEN (c.val % 2 == 1)) 0 CANCELLED_FAULT
  else s)

/-! ## Temperature (R92, R93) -/

/-- The temperature trip level of a station (R92). -/
def State.tripped (s : State) (k : Nat) : Bool := bit s.power.tTrip k
/-- A sensor's backstop. -/
def State.backed (s : State) (k : Nat) : Bool := bit s.power.tBack k

/-- Station status bits from the sensors' (Table 3-5). DESIGN CHOICE (log entry 53): each sensor trips and releases of itself, so
a station's trip, set by its hottest sensor, stays until every tripped sensor has cooled. -/
def State.tempStat (s : State) : State :=
  let any := fun (x : Nat) (l : List Nat) => l.any (fun k => bit x k)
  let s := (s.putB (PWR_STAT_TEMP_WARN 0) (any s.power.tWarn [0, 1, 2])).putB (PWR_STAT_TEMP_WARN 1) (any s.power.tWarn [3, 4, 5])
  let s := (s.putB (PWR_STAT_TEMP_TRIP 0) (any (s.power.tTrip ||| s.power.tBack) [0, 1, 2])).putB (PWR_STAT_TEMP_TRIP 1)
    (any (s.power.tTrip ||| s.power.tBack) [3, 4, 5])
  s.putB PWR_STAT_TEMP_CTRL (any (s.power.tWarn ||| s.power.tTrip) [6, 7])

/-- Every energised axis of the device faults with TEMP: a controller-die trip (Table 3-4). -/
def State.ctrlTrip (s : State) : State :=
  let s := s.gathered fun s => forFin 8 (fun n s => if s.energised n || s.axes[n].st == .fault then
    (s.axisFault n fcTEMP 0 CANCELLED_FAULT).ax n fun a => { a with tempCtrl := true } else s) s
  s.safeCause scTEMP

/-- A sensor's reading against warning, trip and release (R92). DESIGN CHOICE (log entry 53): a warning clears only below 5 K
under T_WARN; at exactly 5 K it stays. -/
def State.tempCheck (s : State) (k : Fin 8) (t : Int) : State :=
  let s := s.pw fun p => { p with temps := vupd p.temps k fun _ => t }
  let d := degDetail t
  let w := s.g PWR_TEMP_CFG_T_WARN * 16
  let setW := decide (t ≥ w)
  let clrW := decide (t < w - 80)
  let s := if setW then (s.pw fun p => { p with tWarn := setBits p.tWarn k 1 1 }).levelOn 18 k d
    else if clrW then (s.pw fun p => { p with tWarn := setBits p.tWarn k 1 0 }).levelOff 18 k d else s
  let was := s.tripped k
  let s := if decide (t ≥ s.g PWR_TEMP_CFG_T_TRIP * 16) then (s.pw fun p => { p with tTrip := setBits p.tTrip k 1 1 }).levelOn 19 k d
    else if decide (t < s.g PWR_TEMP_CFG_T_REL * 16) then
      let s := s.pw fun p => { p with tTrip := setBits p.tTrip k 1 0 }
      if s.backed k then s else s.levelOff 19 k d
    else s
  let s := s.tempStat
  if s.tripped k && !was then
    if k.val < 3 then s.stationFault 0 fcTEMP else if k.val < 6 then s.stationFault 1 fcTEMP else s.ctrlTrip
  else if k.val ≥ 6 && s.cool 6 && s.cool 7 then s.safeClear scTEMP
  else s

/-- THERMAL_BACKSTOP: the power die's analogue backstop holds the station's FETs off (R92). -/
def execThermalBackstop (dt : Nat) (st : Fin 2) (k : Fin 3) (temp : BitVec 16) (s : State) : Outcome State Fault Refusal :=
  let s := s.tickTo dt
  let i := 3 * st.val + k.val
  done (if s.backed i then s else
    let s := (s.pw fun p => { p with tBack := setBits p.tBack i 1 1 }).tempStat
    (s.levelOn 19 i (degDetail temp.toInt + 2048)).stationFault st fcTEMP)

/-- THERMAL_BACKSTOP_RELEASE: the die is back below 150 °C (R92). -/
def execThermalBackstopRelease (dt : Nat) (st : Fin 2) (k : Fin 3) (temp : BitVec 16) (s : State) :
    Outcome State Fault Refusal :=
  let s := s.tickTo dt
  let i := 3 * st.val + k.val
  done (if !s.backed i then s else
    let s := (s.pw fun p => { p with tBack := setBits p.tBack i 1 0 }).tempStat
    if s.tripped i then s else s.levelOff 19 i (degDetail temp.toInt + 2048))

/-- TEMP_READING_STALE: the station's reading is older than 10 ms: it is treated as at T_GOV (R93). -/
def execTempReadingStale (dt : Nat) (st : Fin 2) (s : State) : Outcome State Fault Refusal :=
  let s := s.tickTo dt
  done (if s.now - s.power.tempAt[st] > msCyc 10 then s.pw fun p => { p with stale := vupd p.stale st fun _ => true } else s)

end Sys2Proof.Machine
end

