-- ==== Sys2Proof/Machine/Survey.lean ====
section
/-!
DEFINITION. The survey converters (R399 to R418): entries, rounds, housekeeping, triggers, data records, cross-check and
system calibration. A conversion's end, an entry's end and a round's start are commands; each acts once its instant has come.
-/

namespace Sys2Proof.Machine

open Host

/-! ## Entries (Table 14-1, Table 14-2, Table 14-5) -/

/-- The settings of one entry. -/
structure SvEnt where
  ch : Nat
  sub : Nat
  gain : Nat
  smp : Nat
  avg : Nat
  shift : Nat
  dma : Bool
  deriving DecidableEq, Repr

/-- An entry word's settings; AVG and SHIFT above 8 act as 8 (R401). -/
def svEnt (w : Nat) : SvEnt :=
  { ch := bits w 0 5, sub := bits w 5 4, gain := bits w 9 2, smp := bits w 11 3, avg := min 8 (bits w 14 4),
    shift := min 8 (bits w 18 4), dma := bit w 22 }

/-- Housekeeping entry `k` (Table 14-2). -/
def hkEnt (k : Nat) (dma : Bool) : SvEnt :=
  match k with
  | 0 => ⟨16, 0, 0, 3, 0, 0, dma⟩
  | 1 => ⟨17, 0, 0, 3, 0, 0, dma⟩
  | 2 => ⟨18, 0, 0, 3, 0, 0, dma⟩
  | 6 => ⟨19, 7, 0, 7, 4, 4, dma⟩
  | k => ⟨19, k - 3, 0, 3, 0, 0, dma⟩

/-- A word as the running round holds it (R405). -/
def State.svHeld (s : State) (st : Fin 2) (inj : Bool) (o : Nat) : Nat :=
  let a := 0x400 + 0x100 * st.val + o
  (kvGet (if inj then s.stations[st].sv.injEnts else s.stations[st].sv.ents) a (resetWord a)).toNat

/-- The entry that a run converts. -/
def State.runEnt (s : State) (st : Fin 2) (r : ConvRun) : SvEnt :=
  match r.kind with
  | 0 => svEnt (s.svHeld st false (0x50 + r.idx))
  | 1 => svEnt (s.svHeld st true (0x60 + r.idx))
  | 2 => hkEnt r.idx (bit (s.svHeld st false 0x40) 20)
  | _ =>
    let x := s.stations[st].sv.calIn
    { ch := bits x 0 5, sub := bits x 5 4, gain := bits x 9 2, smp := 3, avg := 4, shift := 0, dma := false }

/-- A reserved input: it converts internal ground (R399). -/
def SvEnt.reserved (e : SvEnt) : Bool := e.ch > 19 || (e.ch == 19 && e.sub > 8)

/-- Reciprocal of the attenuation of Table 14-1. -/
def SvEnt.att (e : SvEnt) : Nat := if e.ch < 18 then 28 else if e.ch = 19 && 3 ≤ e.sub && e.sub ≤ 7 then 2 else 1

/-- Number of an input that can be calibrated (R416): CH 0-15 and the AIN subs. -/
def SvEnt.calNo (e : SvEnt) : Option Nat :=
  if e.ch < 16 then some e.ch else if e.ch = 19 && 3 ≤ e.sub && e.sub ≤ 6 then some (16 + e.sub - 3) else none

/-- The raw code of an input voltage of `uv` µV (R400); ground for a reserved input. -/
def SvEnt.raw (e : SvEnt) (uv : Nat) : Nat :=
  if e.reserved || (e.ch == 19 && e.sub == 8) then 0 else min 16383 (uv * 2 ^ e.gain * 16384 / (2400000 * e.att))

/-- The correction of R415. -/
def svCorrect (ofs : Int) (gc raw : Nat) : Nat := (clampI 0 16383 (rdiv ((16 * (raw : Int) - ofs) * gc) 262144)).toNat

/-- A code of the 1/28 divider in mV, saturating (Table 14-2). -/
def svMv (code : Nat) : Nat := satU 16 ((2 * code * 67200 + 16384) / 32768)

/-- Time of one conversion, cycles (R400). -/
def SvEnt.time (e : SvEnt) : Nat := 80 * 2 ^ e.smp + 120

/-! ## Records (R410, R411) -/

/-- One record into ring 14 + `st`. `ovwr` is OVWR as the running round holds it. -/
def State.svRecord (s : State) (st : Fin 2) (rec : Nat) (ovwr : Bool) : State :=
  let q : Fin 5 := if st = 0 then 3 else 4
  let was := s.waterHit q
  let push := fun (s : State) => s.ring q fun r => r.push (BitVec.ofNat 64 rec)
  let s :=
    if s.heldRecs q < 512 then (push s).svu st fun v => { v with ovf := false }
    else
      let s := s.inc (RRNG_CNT_OVF (14 + st.val))
      let s := if s.stations[st].sv.ovf then s else (s.pulse 50 st 1).svu st fun v => { v with ovf := true }
      if ovwr then push (s.ring q fun r => r.drop 1) else s
  if s.waterHit q && !was then s.pulse 50 st 0 else s

/-- The record of Table 14-3. -/
def svRec (round : Nat) (inj hk : Bool) (entry : Nat) (e : SvEnt) (sat : Bool) (value now : Nat) : Nat :=
  round % 65536 * 2 ^ 48 + b2n inj * 2 ^ 47 + b2n hk * 2 ^ 46 + entry % 16 * 2 ^ 42 + e.ch % 32 * 2 ^ 37
    + (if e.ch = 19 then e.sub % 16 else 0) * 2 ^ 33 + b2n sat * 2 ^ 32 + value % 65536 * 2 ^ 16 + bits now 10 16

/-! ## Starting work -/

/-- A run of conversions starts with a new conversion now. -/
def State.svRun (s : State) (st : Fin 2) (kind idx : Nat) : State :=
  s.svu st fun v => { v with run := some { kind := kind, idx := idx, done := 0, sum := 0, sat := false, t := s.now } }

/-- The surveyor asks for a moisture sample: a line of the station has been set up for 2 ms and waits for its result (R94,
R404). -/
def State.moistAsk (s : State) (st : Fin 2) : Bool :=
  (s.surv.mwCur.any fun l => stationOf (mwAxis l) == st) && decide (s.now - s.surv.mwAt ≥ msCyc 2)
    && s.stations[st].sv.moistRes.isNone

/-- Housekeeping starts; `ends` where it ends the running round. Entry 6 belongs to it when a request came before (R404). -/
def State.svHk (s : State) (st : Fin 2) (ends : Bool) : State :=
  let mo := s.moistAsk st
  (s.svu st fun v => { v with
    hkAt := s.now, hkBegan := s.now, hkDue := false, hkEnds := ends, hkMo := mo }).svRun st 2 0

/-- The registers of the station's survey converter as they stand. -/
def State.svSnap (s : State) (st : Fin 2) : RegFile :=
  s.regs.filter fun e => 0x440 + 0x100 * st.val ≤ e.1 && e.1 < 0x464 + 0x100 * st.val

/-- An entry of the injected sequence names a reserved input (R405). -/
def State.svInjBad (s : State) (st : Fin 2) : Bool :=
  (List.range (clampN 1 4 (s.g (ST_SV_CFG_INJ_LEN st)))).any fun k => (svEnt (s.word (0x460 + 0x100 * st.val + k)).toNat).reserved

/-- A round starts: ROUND, the settings of the round, its corrections, entry 0 or housekeeping (R402, R405, R414). -/
def State.svRound (s : State) (st : Fin 2) : State :=
  let v := s.stations[st].sv
  let s := if v.began then s.put (ST_SV_STAT_ROUND st) ((s.g (ST_SV_STAT_ROUND st) + 1) % 65536) else s
  let snap := s.svSnap st
  let s := s.svu st fun v => { v with
    began := true, inRound := true, ents := snap, corr := v.corrNext.getD v.corr, corrNext := none }
  let s := s.put (ST_SV_STAT_BUSY st) 1
  let len := min 16 (s.g (ST_SV_CFG_REG_LEN st))
  let bad := (List.range len).any fun k => (svEnt (s.word (0x450 + 0x100 * st.val + k)).toNat).reserved
  let s := s.putB (ST_SV_STAT_CFG_ERR st) (bad || (s.g (ST_SV_CFG_ORG st) = 1 && s.svInjBad st))
  if len = 0 then s.svHk st true else s.svRun st 0 0

/-- The injected sequence starts with its entries as they stand (R405, R409). -/
def State.svInj (s : State) (st : Fin 2) : State :=
  let snap := s.svSnap st
  let s := if s.svInjBad st then s.put (ST_SV_STAT_CFG_ERR st) 1 else s
  ((s.svu st fun v => { v with injEnts := snap }).put (ST_SV_STAT_INJ_BUSY st) 1).svRun st 1 0

/-- The converter has nothing running: the next due work starts (R403, R408, R409), or it is idle. -/
def State.svNext (s : State) (st : Fin 2) : State :=
  let v := s.stations[st].sv
  let up := v.afterUp
  if s.gb (ST_SV_STAT_ITRG_PEND st) || bit up 1 then
    ((s.put (ST_SV_STAT_ITRG_PEND st) 0).svu st fun v => { v with afterUp := setBits v.afterUp 1 1 0 }).svInj st
  else match v.saved with
    | some r => s.svu st fun v => { v with saved := none, run := some { r with t := s.now } }
    | none =>
      if v.hkDue || bit up 2 then (s.svu st fun v => { v with afterUp := setBits v.afterUp 2 1 0 }).svHk st false
      else if s.gb (ST_SV_STAT_TRG_PEND st) || bit up 0 then
        ((if bit up 0 then s else s.put (ST_SV_STAT_TRG_PEND st) 0).svu st fun v => { v with
          afterUp := setBits v.afterUp 0 1 0 }).svRound st
      else s.svu st fun v => { v with idleAt := s.now }

/-- The converter may power down now. -/
def State.svMayDown (s : State) (st : Fin 2) : Bool :=
  let v := s.stations[st].sv
  let thr := s.g (ST_SV_TIME_PD_THR st)
  v.on && v.run.isNone && v.startup.isNone && thr != 0 && !s.gb (ST_SV_STAT_PWRDN st) &&
  if s.g (ST_SV_CFG_RMODE st) = 0 then decide (s.g (ST_SV_TIME_GAP st) ≥ thr) else decide (s.now - v.idleAt ≥ usCyc thr)

/-- Work falls due on an idle converter: at once, or after the start-up of a powered-down one (R403, R407, R409). `b` is its
bit of `afterUp`. -/
def State.svWork (s : State) (st : Fin 2) (b : Nat) : State :=
  let s := if s.svMayDown st then s.put (ST_SV_STAT_PWRDN st) 1 else s
  let s := s.svu st fun v => { v with afterUp := setBits v.afterUp b 1 1 }
  if s.gb (ST_SV_STAT_PWRDN st) then
    (s.put (ST_SV_STAT_PWRDN st) 0).svu st fun v => { v with startup := some s.now }
  else if s.stations[st].sv.startup.isSome then s
  else s.svNext st

/-! ## Completing work -/

/-- An entry's VALUE from the sum of its corrected codes (R401). -/
def svValue (sum shift : Nat) : Nat := min 65535 (sum / 2 ^ shift)

/-- The result of a housekeeping entry (Table 14-2): stored for publication; the published value is returned. -/
def State.svHkResult (s : State) (st : Fin 2) (k sum : Nat) : State × Nat :=
  match k with
  | 0 => (s.svu st fun v => { v with vmb := svMv sum }, svMv sum)
  | 1 => (s.svu st fun v => { v with vchk := some (svMv sum) }, svMv sum)
  | 2 => (s.svu st fun v => { v with ref := sum }, sum)
  | 6 =>
    let x := svValue sum 4
    (s.svu st fun v => { v with moistRes := some x }, x)
  | k =>
    let t := (Config.dieTemp (3 * st.val + (k - 3)) (BitVec.ofNat 16 sum)).toNat
    (s.svu st fun v => { v with temps := v.temps.set (k - 3) t }, t)

/-- A finished housekeeping entry: its result, and its record where HK_DMA is set (R402, R410). -/
def State.svHkEntry (s : State) (st : Fin 2) (r : ConvRun) : State :=
  let e := s.runEnt st r
  let (s, v) := s.svHkResult st r.idx r.sum
  if e.dma then
    s.svRecord st (svRec (s.g (ST_SV_STAT_ROUND st)) false true r.idx e r.sat v r.t) (bit (s.svHeld st false 0x40) 15)
  else s

/-- The run is the last entry of a housekeeping. -/
def State.svHkLast (s : State) (st : Fin 2) (r : ConvRun) : Bool :=
  r.kind == 2 && r.idx + 1 == (if s.stations[st].sv.hkMo then 7 else 6)

/-- A finished run completes: its value, result register and record; then what follows it (R401, R402, R409, R410). -/
def State.svClose (s : State) (st : Fin 2) : State :=
  match s.stations[st].sv.run with
  | none => s
  | some r =>
    let e := s.runEnt st r
    if r.done < 2 ^ e.avg then s
    else
      let round := s.g (ST_SV_STAT_ROUND st)
      let ovwr := bit (s.svHeld st false 0x40) 15
      if r.kind ≤ 1 then
        let inj := r.kind == 1
        let k := if inj then 16 + r.idx else r.idx
        let v := svValue r.sum e.shift
        let s := ((s.put (ST_RES_VALUE st k) v).putB (ST_RES_SAT st k) r.sat).put (ST_RES_ROUND st k) round
        let s := if e.dma then s.svRecord st (svRec round inj false r.idx e r.sat v r.t) ovwr else s
        let s := if e.ch < 16 then
            s.bdSample ⟨4 * st.val + e.ch / 4 % 4, by omega⟩ (e.ch % 4) (svMv (r.sum / 2 ^ e.avg) / 2 ^ e.gain)
          else s
        if inj then
          if r.idx + 1 < clampN 1 4 (bits (s.svHeld st true 0x40) 8 3) then s.svRun st 1 (r.idx + 1)
          else ((s.put (ST_SV_STAT_INJ_BUSY st) 0).svu st fun v => { v with run := none }).svNext st
        else if r.idx + 1 < min 16 (bits (s.svHeld st false 0x40) 3 5) then s.svRun st 0 (r.idx + 1)
        else s.svHk st true
      else if r.kind = 2 then
        if s.svHkLast st r then s else (s.svHkEntry st r).svRun st 2 (r.idx + 1)
      else
        let s := s.svu st fun v => { v with calSum := v.calSum + r.sum, cal := v.cal - 1, run := none }
        s.svNext st

/-- SURVEY_ENTRY_COMPLETE: the entry's last conversion has completed (R401). A housekeeping's last entry completes with
HOUSEKEEPING_COMPLETE. -/
def execSurveyEntryComplete (dt : Nat) (st : Fin 2) (s : State) : Outcome State Fault Refusal :=
  let s := s.tickTo dt
  done (if (s.stations[st].sv.run.map (·.kind)).getD 2 = 2 then s else s.svClose st)

/-- SURVEY_CONVERSION_DONE: the conversion in progress ends with the code of the input voltage `uv` (R400). Between two
conversions, housekeeping that is due is interposed (R403). -/
def execSurveyConversionDone (dt : Nat) (st : Fin 2) (uv : BitVec 32) (s : State) : Outcome State Fault Refusal :=
  let s := s.tickTo dt
  done (match s.stations[st].sv.run with
    | none => s
    | some r =>
      let e := s.runEnt st r
      if s.now < r.t + e.time || r.done ≥ 2 ^ e.avg then s
      else
        let raw := e.raw uv.toNat
        let code := if r.kind ≥ 2 then raw else match e.calNo with
          | some i =>
            let c := kvGet s.stations[st].sv.corr (4 * i + e.gain) (0, 16384)
            svCorrect c.1 c.2 raw
          | none => raw
        let r := { r with done := r.done + 1, sum := r.sum + code, sat := r.sat || raw == 0 || raw == 16383, t := s.now }
        let s := s.svu st fun v => { v with run := some r }
        let s := if r.kind = 2 then s.svClose st else s
        if s.stations[st].sv.hkDue && r.kind ≠ 2 then
          let s := s.svClose st
          match s.stations[st].sv.run with
          | some r' =>
            if r'.kind = 2 then s
            else ((s.inc (ST_SV_CNT_KEEP st)).svu st fun v => { v with interp := some r' }).svHk st false
          | none => s
        else s)

/-! ## Housekeeping results and the cross-check (R402, R412, R413) -/

/-- A reference reading within REF_TOL of 8,192 (R412). -/
def State.refOk (s : State) (st : Fin 2) : Bool :=
  let r := s.stations[st].sv.ref
  (if r ≤ 8192 then 8192 - r else r - 8192) ≤ s.g XCHK_CFG_REF_TOL

/-- FAIL sets, with BAD0 and BAD1, the event and, where asked, SAFE (R413). -/
def State.xchkFail (s : State) : State :=
  if s.power.xdue then
    let s := (s.pw fun p => { p with xdue := false }).put XCHK_STAT_FAIL 1
    let s := (s.putB XCHK_STAT_BAD0 (bit s.power.xbad 0)).putB XCHK_STAT_BAD1 (bit s.power.xbad 1)
    let s := s.levelOn 23 0 (s.power.xbad % 4)
    if s.gb XCHK_CFG_XCHK_SAFE then s.safeCause scXCHK else s
  else s

/-- XCHK_FAIL: consecutive failures have reached COUNT (R413). -/
def execXchkFail (dt : Nat) (s : State) : Outcome State Fault Refusal :=
  let s := s.tickTo dt
  done s.xchkFail

/-- The check after a housekeeping of `st` (R412, R413). -/
def State.xchk (s : State) (st : Fin 2) : State :=
  let a := s.stations[st].sv
  let b := s.stations[1 - st].sv
  match a.vmx, b.vmx with
  | some x, some y =>
    if s.now - b.hkStart > msCyc 2 then s
    else
      let d : Int := if st = 0 then (x : Int) - y else (y : Int) - x
      if d.natAbs ≤ s.g XCHK_CFG_VM_TOL && s.refOk 0 && s.refOk 1 then
        let s := (s.put XCHK_STAT_LAST_OK 1).put XCHK_STAT_CONSEC 0
        let s := ((s.put XCHK_STAT_FAIL 0).put XCHK_STAT_BAD0 0).put XCHK_STAT_BAD1 0
        (s.levelOff 23 0 0).safeClear scXCHK
      else
        let s := ((s.put XCHK_STAT_LAST_OK 0).inc XCHK_STAT_CONSEC).inc XCHK_STAT_FAILS
        let s := s.putI XCHK_STAT_VMDIFF (satS 16 d)
        if s.g XCHK_STAT_CONSEC ≥ or1 (s.g XCHK_CFG_COUNT) && !s.gb XCHK_STAT_FAIL then
          s.pw fun p => { p with xdue := true, xbad := b2n (!s.refOk 0) + 2 * b2n (!s.refOk 1) }
        else s
  | _, _ => s

/-- The results of a converter are withheld (R413). -/
def State.withheld (s : State) (st : Fin 2) : Bool :=
  let own := bit s.power.xbad st
  if s.power.xdue then own || s.power.xbad % 4 = 0
  else
    let b0 := s.gb XCHK_STAT_BAD0
    let b1 := s.gb XCHK_STAT_BAD1
    s.gb XCHK_STAT_FAIL && ((if st = 0 then b0 else b1) || (!b0 && !b1))

/-- Die temperatures of a station published: registers, station maximum, thresholds (R92). -/
def State.publishTemps (s : State) (st : Fin 2) (ts : List Nat) : State :=
  let t := fun (i : Nat) => sgn 16 (ts.getD i 0)
  let s := ((s.put (ST_HK_T01_T0 st) (ts.getD 0 0)).put (ST_HK_T01_T1 st) (ts.getD 1 0)).put (ST_HK_T2_T2 st) (ts.getD 2 0)
  let s := s.putI (if st = 0 then PWR_GOV_TEMP_TMAX_S0 else PWR_GOV_TEMP_TMAX_S1) (max (t 0) (max (t 1) (t 2)))
  let s := s.pw fun p => { p with
    tempAt := vupd p.tempAt st fun _ => s.now, stale := vupd p.stale st fun _ => false }
  forFin 3 (fun i s =>
    let k : Fin 8 := ⟨3 * st.val + i.val, by omega⟩
    let s := s.putI (if k.val % 2 = 0 then MG_TEMP_T_EVEN (k / 2) else MG_TEMP_T_ODD (k / 2)) (t i)
    s.tempCheck k (t i)) s

/-- VMB of a station published (R71); the peak of a clamp episode follows it (R74). -/
def State.publishVm (s : State) (st : Fin 2) (mv : Nat) : State :=
  let s := s.put (ST_HK_VM_VMB st) mv
  s.pw fun p => { p with
    vms := vupd p.vms st fun _ => mv,
    clampPeak := vupd p.clampPeak st fun x => if s.gb (PWR_STAT_CLAMP st) then max x mv else x }

/-- A round ends; calibration conversions follow where a procedure runs (R402, R407, R414). -/
def State.svRoundEnd (s : State) (st : Fin 2) : State :=
  let s := (s.put (ST_SV_STAT_BUSY st) 0).svu st fun v => { v with
    inRound := false, first := true, endAt := s.now, run := none }
  if s.stations[st].sv.cal ≠ 0 then s.svRun st 3 0 else s.svNext st

/-- The last housekeeping entry has completed: cross-check, publication, and the end of the round or what was interrupted
(R402, R403, R404, R412). -/
def State.svHkDone (s : State) (st : Fin 2) : State :=
  let v := s.stations[st].sv
  match v.run with
  | none => s
  | some r =>
    if !s.svHkLast st r || r.done < 2 ^ (s.runEnt st r).avg then s
    else
      let s := (s.xchkFail).svHkEntry st r
      let s := s.svu st fun v => { v with vmx := v.vchk, hkStart := v.hkBegan }
      let s := s.xchk st
      let v := s.stations[st].sv
      let s := if s.withheld st then s else
        ((((s.put (ST_HK_REF_REF st) v.ref).put (ST_HK_VM_VMX st) (v.vchk.getD 0)).publishVm st v.vmb).publishTemps st v.temps)
      if v.hkEnds then s.svRoundEnd st
      else match v.interp with
        | some r => s.svu st fun v => { v with interp := none, run := some { r with t := s.now } }
        | none => (s.svu st fun v => { v with run := none }).svNext st

/-- HOUSEKEEPING_COMPLETE (R402). -/
def execHousekeepingComplete (dt : Nat) (st : Fin 2) (s : State) : Outcome State Fault Refusal :=
  let s := s.tickTo dt
  done (s.svHkDone st)

/-! ## Triggers (R406 to R409) -/

/-- A regular trigger: a round starts, or is latched once (R408). -/
def State.svTrigger (s : State) (st : Fin 2) : State :=
  let v := s.stations[st].sv
  if !v.on then s
  else if v.run.isSome || v.startup.isSome then
    if s.gb (ST_SV_STAT_TRG_PEND st) then s.inc (ST_SV_CNT_TRG_OVR st) else s.put (ST_SV_STAT_TRG_PEND st) 1
  else s.svWork st 0

/-- An injected trigger (R409). -/
def State.svInjTrigger (s : State) (st : Fin 2) : State :=
  let s := (s.svClose st).svHkDone st
  let v := s.stations[st].sv
  if !v.on || s.g (ST_SV_CFG_ORG st) = 0 then s
  else if s.gb (ST_SV_STAT_INJ_BUSY st) || (v.startup.isSome && bit v.afterUp 1) then
    if s.gb (ST_SV_STAT_ITRG_PEND st) then s.inc (ST_SV_CNT_INJ_OVR st) else s.put (ST_SV_STAT_ITRG_PEND st) 1
  else match v.run with
    | some r => ((s.inc (ST_SV_CNT_ABORTS st)).svu st fun v => { v with saved := some r }).svInj st
    | none => s.svWork st 1

/-- SURVEY_ROUND_START: in RMODE 0 the gap has passed (R406, R407). -/
def execSurveyRoundStart (dt : Nat) (st : Fin 2) (s : State) : Outcome State Fault Refusal :=
  let s := s.tickTo dt
  let v := s.stations[st].sv
  done (if v.on && s.g (ST_SV_CFG_RMODE st) = 0 && v.run.isNone && v.startup.isNone
      && s.now - v.endAt ≥ usCyc (s.g (ST_SV_TIME_GAP st)) then s.svWork st 0 else s)

/-- SURVEY_TICK_TRIGGER: RTPH cycles after the tick mark (R406). -/
def execSurveyTickTrigger (dt : Nat) (st : Fin 2) (s : State) : Outcome State Fault Refusal :=
  let s := s.tickTo dt
  let p := s.g (ST_SV_TPH_RTPH st)
  done (if s.tick.on && s.g (ST_SV_CFG_RMODE st) = 1 && p < s.g CLK_TICK_CFG_PERIOD && s.now - s.tick.mark ≥ p
      && s.stations[st].sv.rtAt ≠ s.tick.no + 1 then
    (s.svu st fun v => { v with rtAt := s.tick.no + 1 }).svTrigger st else s)

/-- SURVEY_INJECTED_TICK_TRIGGER: ITPH cycles after the tick mark (R409). -/
def execSurveyInjectedTickTrigger (dt : Nat) (st : Fin 2) (s : State) : Outcome State Fault Refusal :=
  let s := s.tickTo dt
  let p := s.g (ST_SV_TPH_ITPH st)
  done (if s.tick.on && s.gBit (ST_SV_CFG_INJ_SRC st) 2 && s.now - s.tick.mark ≥ p
      && s.stations[st].sv.itAt ≠ s.tick.no + 1 then
    (s.svu st fun v => { v with itAt := s.tick.no + 1 }).svInjTrigger st else s)

/-- AINTRG_EDGE: a rising edge that has held for `e.held` cycles, 40 ns at least, reaches both converters (R406, R409). -/
def execAintrgEdge (e : Rise) (s : State) : Outcome State Fault Refusal :=
  let s := s.tickTo e.dt
  done (if e.held < 16 then s else forFin 2 (fun st s =>
    if s.g (ST_SV_CFG_ORG st) = 1 && s.gBit (ST_SV_CFG_INJ_SRC st) 0 then s.svInjTrigger st
    else if s.g (ST_SV_CFG_RMODE st) = 2 then s.svTrigger st else s) s)

/-- The software regular trigger: it has no effect outside RMODE 3 (R406). -/
def State.svSoft (s : State) (st : Fin 2) : State := if s.g (ST_SV_CFG_RMODE st) = 3 then s.svTrigger st else s

/-- The software injected trigger (R409). -/
def State.svSoftInj (s : State) (st : Fin 2) : State := if s.gBit (ST_SV_CFG_INJ_SRC st) 3 then s.svInjTrigger st else s

/-- The setting of trip latch `t` triggers the injected sequences that name it (R409). -/
def State.svTrip (s : State) (t : Fin 4) : State :=
  forFin 2 (fun st s =>
    if s.gBit (ST_SV_CFG_INJ_SRC st) 1 && s.gBit (ST_SV_CFG_TRIPMASK st) t then s.svInjTrigger st else s) s

/-- HOUSEKEEPING_DUE: 1 ms has passed since the last housekeeping began (R403). -/
def execHousekeepingDue (dt : Nat) (st : Fin 2) (s : State) : Outcome State Fault Refusal :=
  let s := s.tickTo dt
  let v := s.stations[st].sv
  done (if v.on && s.now - v.hkAt ≥ msCyc 1 && !v.hkDue then
    match v.run with
    | some r => if r.kind = 2 then s else s.svu st fun v => { v with hkDue := true }
    | none => s.svWork st 2
  else s)

/-! ## Power (R407) -/

/-- SURVEY_POWER_DOWN (R407). -/
def execSurveyPowerDown (dt : Nat) (st : Fin 2) (s : State) : Outcome State Fault Refusal :=
  let s := s.tickTo dt
  done (if s.svMayDown st then s.put (ST_SV_STAT_PWRDN st) 1 else s)

/-- SURVEY_STARTUP_DONE: the 5 µs have passed; the due work starts, an injected sequence first (R407, R409). -/
def execSurveyStartupDone (dt : Nat) (st : Fin 2) (s : State) : Outcome State Fault Refusal :=
  let s := s.tickTo dt
  done (match s.stations[st].sv.startup with
    | none => s
    | some t => if s.now - t ≥ usCyc 5 then (s.svu st fun v => { v with startup := none }).svNext st else s)

/-! ## Starting and stopping (R417) -/

/-- The converters start their first round at the tick mark of entry to READY; one that runs goes on (R115, R417). -/
def State.surveyStart (s : State) : State :=
  forFin 2 (fun st s =>
    if s.stations[st].sv.on then s
    else (s.svu st fun v => { v with on := true, hkAt := s.now, endAt := s.now, idleAt := s.now }).svWork st 0) s

/-- A calibration procedure is abandoned (R414). -/
def State.svCalDrop (s : State) (st : Fin 2) : State :=
  let s := (s.put (ST_CAL_STAT_STATE st) 0).put (ST_CAL_STAT_BUSY st) 0
  s.svu st fun v => { v with cal := 0, run := if (v.run.map (·.kind)) == some 3 then none else v.run,
                             saved := if (v.saved.map (·.kind)) == some 3 then none else v.saved,
                             interp := if (v.interp.map (·.kind)) == some 3 then none else v.interp }

/-- The converters stop (R79, R128, R417). -/
def State.surveyStop (s : State) : State :=
  forFin 2 (fun st s =>
    let s := s.svCalDrop st
    let s := ((s.put (ST_SV_STAT_BUSY st) 0).put (ST_SV_STAT_INJ_BUSY st) 0).put (ST_SV_STAT_PWRDN st) 0
    let s := (s.put (ST_SV_STAT_TRG_PEND st) 0).put (ST_SV_STAT_ITRG_PEND st) 0
    s.svu st fun v => { v with
      on := false, run := none, saved := none, interp := none, inRound := false, startup := none, afterUp := 0,
      hkDue := false, first := false }) s

/-! ## System calibration (R414 to R416) -/

/-- The input that CAL_CTL names. -/
def State.calEnt (s : State) (st : Fin 2) : SvEnt :=
  { ch := s.g (ST_CAL_CTL_CH st), sub := s.g (ST_CAL_CTL_SUB st), gain := s.g (ST_CAL_CTL_GAIN st), smp := 3, avg := 0,
    shift := 0, dma := false }

/-- A step is refused. -/
def State.calRefuse (s : State) (st : Fin 2) : State := s.put (ST_CAL_STAT_RESULT st) 2

/-- The readings of a step begin: 256 conversions, sixteen after each round. -/
def State.calBegin (s : State) (st : Fin 2) (full : Bool) : State :=
  let inp := bits (s.word (ST_CAL_CTL_CH st).a).toNat 0 11
  (s.put (ST_CAL_STAT_BUSY st) 1).svu st fun v => { v with cal := 16, calFull := full, calSum := 0, calIn := inp }

/-- A write of ZERO (R414). -/
def State.svCalZero (s : State) (st : Fin 2) : State :=
  if s.gb (ST_CAL_STAT_BUSY st) then s
  else if (s.calEnt st).calNo.isNone then s.calRefuse st
  else s.calBegin st false

/-- A write of FULL (R414). -/
def State.svCalFull (s : State) (st : Fin 2) : State :=
  if s.gb (ST_CAL_STAT_BUSY st) then s
  else if (s.calEnt st).calNo.isNone || s.g (ST_CAL_STAT_STATE st) ≠ 1
      || bits (s.word (ST_CAL_CTL_CH st).a).toNat 0 11 ≠ s.stations[st].sv.calIn then s.calRefuse st
  else s.calBegin st true

/-- Word address of a calibration record (R416). -/
def calAddr (st : Fin 2) (i g : Nat) : Nat := 0x20000 + 2 * (80 * st.val + 4 * i + g)

/-- The corrections that the benchmark store holds for a station: records that are VALID with a matching CRC (R416). -/
def State.corrections (s : State) (st : Fin 2) : List (Nat × (Int × Nat)) :=
  (List.range 80).filterMap fun k =>
    let a := calAddr st (k / 4) (k % 4)
    let w0 := (kvGet s.nvm.bench a (W 0xFFFFFFFF)).toNat
    let w1 := (kvGet s.nvm.bench (a + 1) (W 0xFFFFFFFF)).toNat
    if bit w1 0 && bits w1 16 16 = crc16 (toBytes 4 w0) then some (k, (sgn 16 w0, bits w0 16 16)) else none

/-- A write of STORE: the surveyor writes the record of R416; `ok` is the outcome of the NVM write. -/
def State.svCalStore (s : State) (st : Fin 2) (ok : Bool) : State :=
  if s.g (ST_CAL_STAT_STATE st) ≠ 2 || s.g (ST_CAL_STAT_RESULT st) ≠ 1 then s.calRefuse st
  else if !ok then s.put (ST_CAL_STAT_RESULT st) 4
  else
    let x := s.stations[st].sv.calOf
    let e : SvEnt := { ch := bits x 0 5, sub := bits x 5 4, gain := bits x 9 2, smp := 3, avg := 0, shift := 0, dma := false }
    match e.calNo with
    | none => s
    | some i =>
      let a := calAddr st i e.gain
      let w0 := (s.word (ST_CAL_RES_OFS st).a).toNat
      let s := s.nv fun n => { n with
        bench := kvSet (kvSet n.bench a (W w0) (W 0xFFFFFFFF)) (a + 1) (W (1 + crc16 (toBytes 4 w0) * 65536)) (W 0xFFFFFFFF) }
      let c := s.corrections st
      ((s.put (ST_CAL_STAT_STATE st) 3).svu st fun v => { v with corrNext := some c }).nvPulse

/-- SV_CAL_READINGS_DONE: 256 conversions of a step are complete (R414, R415). A GC that the spec's formula does not give,
or that its field cannot hold, is a free value (log entry 29). -/
def execSvCalReadingsDone (dt : Nat) (st : Fin 2) (s : State) : Outcome State Fault Refusal :=
  let s := s.tickTo dt
  let v := s.stations[st].sv
  done (if s.gb (ST_CAL_STAT_BUSY st) && v.cal = 0 then
    let s := s.put (ST_CAL_STAT_BUSY st) 0
    let r : Int := v.calSum / 16
    if !v.calFull then (s.svu st fun v => { v with rz := r }).put (ST_CAL_STAT_STATE st) 1
    else
      let e : SvEnt := svEnt v.calIn
      let d := r - v.rz
      let vfs := s.g (ST_CAL_VFS_VFS st)
      -- 16384 · 16 · Cid / d with Cid = VFS · G · 16384 / (2400000 · den)
      let num := (262144 * vfs * 2 ^ e.gain * 16384 : Nat)
      let gc : Int := if d > 0 then rdiv num (2400000 * (e.att : Int) * d) else -1
      let free := (Config.freeValue s.free).toNat
      let fitG := decide (0 ≤ gc ∧ gc < 65536)
      let fitO := decide (v.rz < 32768)
      let s := (s.svu st fun v => { v with rf := r }).useFree
      let s := s.put (ST_CAL_RES_OFS st) (if fitO then pat 16 v.rz else free % 65536)
      let s := s.put (ST_CAL_RES_GC st) (if fitG then gc.toNat else free / 65536 % 65536)
      if decide (d ≥ 65536) && decide (v.rz.natAbs ≤ 1024) && decide (15360 ≤ gc ∧ gc ≤ 17408) then
        ((s.svu st fun v => { v with calOf := v.calIn }).put (ST_CAL_STAT_RESULT st) 1).put (ST_CAL_STAT_STATE st) 2
      else (s.put (ST_CAL_STAT_RESULT st) 3).put (ST_CAL_STAT_STATE st) 0
  else s)

end Sys2Proof.Machine
end

