-- ==== Sys2Proof/Machine/Moisture.lean ====
section
/-!
DEFINITION. The moisture watch (R94, R95, R469 to R471): rounds, the test of one line, its bits, and the axes that break it off.
-/

namespace Sys2Proof.Machine

open Host

/-- Interval of the rounds, cycles (R469). -/
def State.mwPeriod (s : State) : Nat := msCyc (60000 * or1 (s.g MG_MW_CFG_PERIOD))

/-- MOISTURE_ROUND: PERIOD minutes after the round before a round starts over the enabled lines (R469). -/
def execMoistureRound (dt : Nat) (s : State) : Outcome State Fault Refusal :=
  let s := s.tickTo dt
  let fb := s.gb MG_MW_CFG_FB_EN
  let idd := s.gb MG_MW_CFG_IDD_EN
  done (if (fb || idd) && s.surveyorUp && s.flOn && (s.dev == .ready || s.dev == .run || s.dev == .safe)
      && !s.gb MG_SV_STAT_MW_RUN && decide (s.now - s.surv.mwDue ≥ s.mwPeriod) then
    let lines := (if fb then List.range 24 else []) ++ (if idd then (List.range 8).map (24 + ·) else [])
    ((s.put MG_SV_STAT_MW_RUN 1).su fun v => { v with mwLines := lines, mwDue := s.now }).mwNext
  else s)

/-- The measured voltage as a fraction of a millivolt: the converter's code where a housekeeping has delivered one (R404),
else the voltage of the command. -/
def State.mwVolt (s : State) (l mv : Nat) : Nat × Nat :=
  match s.stations[stationOf (mwAxis l)].sv.moistRes with
  | some c => (c * 4800, 16384)
  | none => (mv, 1)

/-- R_L in ohms as a fraction: numerator, and denominator, 0 where the line reads 3.3 V or more (R94). -/
def State.mwLeak (s : State) (l mv : Nat) : Nat × Nat :=
  let (vn, vd) := s.mwVolt l mv
  let rs := if l < 24 then 1000000 else s.g PWR_MOIST_RPU_IDD_RPU
  (rs * vn, 3300 * vd - vn)

/-- A line's membership of a set after a test: below the level it joins, above the level it leaves (R95). -/
def mwLevel (set l num den kohm : Nat) : Nat :=
  if num < kohm * 1000 * den then setBits set l 1 1 else if num > kohm * 1000 * den then setBits set l 1 0 else set

/-- Warning and fault bits per axis: an axis's feedback bit covers its three lines. -/
def mwAxisBits (set : Nat) : Nat := gather 8 fun n => bits set (3 * n) 3 != 0

/-- The status bits that follow the lines' levels (Table 3-18, `PWR_STAT`). -/
def State.mwStat (s : State) : State :=
  let w := s.surv.mwWarn
  let f := s.surv.mwFault
  let s := (s.put PWR_MOIST_STAT_FB_WARN (mwAxisBits w)).put PWR_MOIST_STAT_FB_FAULT (mwAxisBits f)
  let s := (s.put PWR_MOIST_STAT_IDD_WARN (bits w 24 8)).put PWR_MOIST_STAT_IDD_FAULT (bits f 24 8)
  (s.putB PWR_STAT_MOIST_WARN (w != 0)).putB PWR_STAT_MOIST_FAULT (f != 0)

/-- A line's bit has set: event and record, and FAULT at the next tick mark where the axis asks for it (R95). -/
def State.mwRaise (s : State) (l k kohm : Nat) : State :=
  let s := (s.pulse 21 0 (l + 32 * k)).fbAdd 0x13 ([l, k + 1] ++ beBytes 2 kohm)
  if k = 1 && s.gb (PWR_AXCFG_MOIST_ACT (mwAxis l)) then s.ax (mwAxis l) fun a => { a with moistDue := true } else s

/-- The result of a test of line `l` (R94, R95). -/
def State.mwResult (s : State) (l mv : Nat) : State :=
  let (num, den) := s.mwLeak l mv
  let kohm := if den = 0 then 65535 else min 65535 (num / (1000 * den))
  let s := s.put (if l % 2 = 0 then MG_MW_RES_R_2j (l / 2) else MG_MW_RES_R_2j1 (l / 2)) kohm
  let w := s.surv.mwWarn
  let f := s.surv.mwFault
  let w' := mwLevel w l num den (s.g PWR_MOIST_CFG_WARN_KOHM)
  let f' := mwLevel f l num den (s.g PWR_MOIST_CFG_FAULT_KOHM)
  let s := (s.su fun v => { v with mwWarn := w', mwFault := f' }).mwStat
  let s := if bit w' l && !bit w l then s.mwRaise l 0 kohm else s
  if bit f' l && !bit f l then s.mwRaise l 1 kohm else s

/-- MOISTURE_TEST: 2 ms after the line was set up its voltage is measured (R94). -/
def execMoistureTest (dt : Nat) (mv : BitVec 16) (s : State) : Outcome State Fault Refusal :=
  let s := s.tickTo dt
  done (match s.surv.mwCur with
    | some l => if s.surveyorUp && decide (s.now - s.surv.mwAt ≥ msCyc 2) then (s.mwResult l mv.toNat).mwNext else s
    | none => s)

/-- An axis leaves OFF, IDLE or FAULT for an energised state at a tick mark: a test of one of its feedback lines is abandoned
(R471). -/
def State.mwLeave (s : State) (n : Fin 8) : State :=
  if s.surv.mwCur.any fun l => l < 24 && mwAxis l == n then s.mwAbandon else s

end Sys2Proof.Machine
end

