-- ==== Sys2Proof/Machine/RegWrite.lean ====
section
/-!
DEFINITION. What a write does to the fields of a register, by access code (R144, R152, R153), with the clamps that the
register tables name, and the staged copies of buffered fields. What a write sets off beside its fields stands in
Registers.lean.
-/

namespace Sys2Proof.Machine

/-- Governor budget of a grade, mW (R8, R105). -/
def gradeBudget (lx : Bool) : Nat := if lx then 16000 else 24000

/-- The value that a field at bits from `lo` of address `a` takes for a written `v`: the clamps of R28, R68, R105, R219, R302,
R303, R304, R320, R344, R376 and Tables 3-15, 4-12 and 13-4. A field "clamped to" a range holds the clamped value
(log entry 30); where OV_LIM stands below 13,000 mV, its limit on DUMP_ON stands before the 12,000 mV (R68); one that "acts as" another value keeps what was written. -/
def State.clampVal (s : State) (a lo v : Nat) : Nat :=
  if a < 0x800 then
    if a = 0x16 ∧ lo = 0 then clampN 1 1000 v
    else if a = 0x55 ∧ lo = 0 then min v 800
    else if a = 0x141 ∧ lo = 0 then min (s.g PWR_VM_AUX_OV_LIM - 1000) (max 12000 v)
    else if a = 0x141 ∧ lo = 16 then clampN 8500 60000 v
    else if a = 0x150 ∧ lo = 0 then min v (gradeBudget (s.gb DEV_REV_GRADE))
    else if a = 0x150 ∧ lo = 16 then clampN 100 145 v
    else if a = 0x153 ∧ lo = 0 then clampN 85 145 v
    else if a = 0x1C8 ∧ lo = 0 then clampN 8000 40000 v
    else v
  else if a < 0x1000 then
    let o := a % 0x100
    let n := (a - 0x800) / 0x100
    if 0x50 ≤ o ∧ o < 0x70 then
      match o % 16, lo with
      | 0, 12 => clampN 4 80 v
      | 2, 0 => clampN 200 8000 v
      | 2, 16 => clampN 200 8000 v
      | 7, 0 => clampN 32000 400000 v
      | _, _ => v
    else if a = (AX_OBS_CFG_CAR_AMP n).a ∧ lo = (AX_OBS_CFG_CAR_AMP n).lo then clampN 16 61 v
    else if a = (AX_DP_SSI_CFG_CDIV n).a ∧ lo = (AX_DP_SSI_CFG_CDIV n).lo then clampN 4 400 v
    else if a = (AX_DP_SSI_TIME_SDLY n).a ∧ lo = 0 then min v (5 * s.g (AX_DP_SSI_CFG_CDIV n) - 4)
    else if o = 0x40 ∧ lo = 0 then (if v = 3 then s.g (AX_SEQ_CFG_RANGE n) else v)
    else v
  else v

/-- Bits of a layout row in a word. -/
def rowOf (r : FRow) (w : Word) : Nat := bits w.toNat r.lo r.w

/-- One field of a register in force set to a written value, clamped. -/
def State.setField (s : State) (a : Nat) (r : FRow) (v : Nat) : State :=
  s.put ⟨a, r.lo, r.w⟩ (s.clampVal a r.lo v)

/-- One field of a staged copy set. -/
def State.stageField (s : State) (a : Nat) (r : FRow) (v : Nat) : State := s.putSt ⟨a, r.lo, r.w⟩ v

/-- The written flags of R327. -/
def State.noteWritten (s : State) (a : Nat) : State :=
  let o := a % 0x100
  if h : 0x800 ≤ a ∧ a < 0x1000 ∧ 0x50 ≤ o ∧ o < 0x70 then
    let c : Fin 16 := ⟨2 * ((a - 0x800) / 0x100) + (if o < 0x60 then 0 else 1), by split <;> omega⟩
    if o % 16 = 7 then s.co c fun k => { k with perW := true }
    else if o % 16 = 8 then s.co c fun k => { k with cmpW := true }
    else s
  else s

/-- A register of the layout has an RWK field. -/
def hasKeyed (a : Nat) : Bool := (layout a).any fun r => r.acc == .rwk

/-- A register of the layout has an RWB field. -/
def hasBuffered (a : Nat) : Bool := (layout a).any fun r => r.acc == .rwb

/-- A write acts on each field by its access code (R144, R148, R152, R153). `key` where the write consumes an unlock; `image`
where it is an entry of the configuration image, which also puts RWB fields in force (R437). -/
def State.writeFields (s : State) (a : Nat) (w : Word) (key image : Bool) : State :=
  let s := (layout a).foldl (fun s r =>
    let v := rowOf r w
    match r.acc with
    | .rw => s.setField a r v
    | .rwk => if key then s.setField a r v else s
    | .rwb => let s := s.stageField a r v; if image then s.setField a r v else s
    | .rwm =>
      let m := bits w.toNat 16 16
      let old := bits (s.word a).toNat 0 16
      s.put ⟨a, 0, 16⟩ ((old &&& (65535 - m)) ||| (v &&& m))
    | .ro | .rs | .wp => s) s
  if image then s else s.noteWritten a

/-- A refused key: counted (R152). -/
def State.keyRefused (s : State) : State := s.inc DEV_ACCSTAT_KEY_REF

/-- Every staged copy and pending set is discarded: the staged copies equal the values in force (R158, R327). -/
def State.dropStaged (s : State) (p : Nat → Bool) (gs : List (Fin 11)) (cs : List (Fin 16)) : State :=
  let own := s.regs.filter fun e => p e.1 && hasBuffered e.1
  let merged := own.foldl (fun m e => kvSet m e.1 e.2 (resetWord e.1)) (kvDrop s.staged p)
  let s := { s with staged := merged }
  let s := gs.foldl (fun (s : State) g => { s with groups := vupd s.groups g fun x => { x with pend := none } }) s
  cs.foldl (fun s c => (s.co c fun k => { k with pend := none, perW := false, cmpW := false }).put
    (CO_PWM_STAT_SPLIT_COMMIT c) 0) s

/-- The register words that satisfy `p` return to their reset values. -/
def State.resetRegs (s : State) (p : Nat → Bool) : State :=
  { s with regs := kvDrop s.regs p, cyc := { s.cyc with host := s.cyc.host.filter fun x => !p x.1 } }

/-- Bits of register `a` that a host write of `w` acts on (R145). -/
def hostMask (a : Nat) (w : Word) (key : Bool) : Nat :=
  (layout a).foldl (fun m r =>
    match r.acc with
    | .rw => setBits m r.lo r.w (2 ^ r.w - 1)
    | .rwk => if key then setBits m r.lo r.w (2 ^ r.w - 1) else m
    | .rwm => m ||| bits w.toNat 16 16
    | .rwb | .ro | .rs | .wp => m) 0

/-- A host write has acted: its values stand to the end of the cycle (R145). -/
def State.hostStands (s : State) (a : Nat) (w : Word) (key : Bool) : State :=
  { s with cyc := { s.cyc with host := s.cyc.host ++ [(a, W (hostMask a w key), s.word a)] } }

end Sys2Proof.Machine
end

