-- ==== Sys2Proof/Machine/Trips.lean ====
section
/-!
DEFINITION. The trip inputs (R334 to R338): latches, captures, clears, and what a tick asks of them.
-/

namespace Sys2Proof.Machine

open Host

/-- Physical FETs of a coil whose turn-on is pending: its dead time has started, or it is due now (R336). -/
def State.pendingOn (s : State) (c : Fin 16) : Nat :=
  let k := s.coils[c]
  let due := fun (t2 : Bool) (d : Option Side) =>
    match d, k.edges.find? (fun e => e.on && e.term2 == t2 && e.t ≤ s.now) with
    | some x, _ => x
    | none, some e => e.side
    | none, none => .off
  if s.driven c then
    physFets (s.gb (CO_PWM_CFG_SWAP c)) (s.gb (CO_PWM_CFG_INV c)) (due false k.dead1) (due true k.dead2)
  else 0

/-- The capture of R336 in PWR_TRIP_CAPt and PWR_TRIP_TSt, and the cancelled turn-ons counted. -/
def State.tripCapture (s : State) (t : Fin 4) : State :=
  let m := s.g (PWR_TRIP_CFG_AXMASK t)
  let l := (List.finRange 16).filter fun c => bit m (axisOf c).val && s.pendingOn c != 0
  let pend := gather 16 fun i => l.any fun c => c.val == i
  let first := l.head?
  let fets := (first.map s.pendingOn).getD 0
  let s := ((s.put (PWR_TRIP_CAP_PEND t) pend).put (PWR_TRIP_CAP_FETS t) fets).put (PWR_TRIP_CAP_COIL t)
    ((first.map (·.val)).getD 0)
  let s := (s.put (PWR_TRIP_CAP_VALID t) 1).put (PWR_TRIP_TS_TS t) s.ts32
  l.foldl (fun (s : State) (c : Fin 16) => s.inc (CO_PWM_CNT_TRIP_CANCEL c)) s

/-- An assigned axis meets a set trip latch: an energised one faults with cause TRIP, one in FAULT records it (R335). -/
def State.tripAxis (s : State) (n : Fin 8) : State := s.axisFaultIf n 0 afTRIP CANCELLED_FAULT

/-- The phases in which the trip inputs act, their pins powered (R334, Table 2-7). -/
def State.tripPins (s : State) : Bool := s.flOn && (s.dev == .ready || s.dev == .run || s.dev == .safe)

/-- Counts for which a level must hold to pass the filter of trip input `t` (R334). -/
def State.tripFilt (s : State) (t : Fin 4) : Nat := min 400 (s.g (PWR_TRIP_CFG_FILT t))

/-- Trip latch `t` as it stood when the present cycle began. -/
def State.latchWas (s : State) (t : Fin 4) : Bool := bit (s.gWas PWR_TRIP_STAT_LATCH) t

/-- What the setting of a latch does beside its capture: EV_TRIP, the assigned axes, the converters' trigger (R335). A latch that
was cleared in this same cycle has stayed set (R337), so that EV_TRIP is active again without a raise. -/
def State.tripSet (s : State) (t : Fin 4) : State :=
  let m := s.g (PWR_TRIP_CFG_AXMASK t)
  let s := s.putBit PWR_TRIP_STAT_LATCH t true
  let s := if s.latchWas t && !s.level 22 t then { s with levels := (22, t.val) :: s.levels } else s.levelOn 22 t m
  let s := s.gathered fun s => (setBitsOf 8 m).foldl (fun s n => s.tripAxis n) s
  s.svTrip t

/-- TRIP_ASSERT: the pin has stayed low for `p.held` counts without a break, which passes the filter (R334 to R336). -/
def execTripAssert (dt : Nat) (p : Held 4) (s : State) : Outcome State Fault Refusal :=
  let s := s.tickTo dt
  let t := p.pin
  done (if s.tripPins && decide (s.tripFilt t ≤ p.held) then
    let s := s.putBit PWR_TRIP_STAT_LVL t true
    if s.gBit PWR_TRIP_STAT_LATCH t then s else (s.tripCapture t).tripSet t
  else s)

/-- TRIP_RELEASE: the pin has stayed high for `p.held` counts (R334). -/
def execTripRelease (dt : Nat) (p : Held 4) (s : State) : Outcome State Fault Refusal :=
  let s := s.tickTo dt
  done (if s.tripFilt p.pin ≤ p.held then s.putBit PWR_TRIP_STAT_LVL p.pin false else s)

/-- A write of PWR_TRIP_CLR.CLR: each latch named clears with its capture, or the clear is refused while its input is active. An
assertion of the same cycle stands over the clear: the latch stays set, with a new capture, and nothing is refused (R335, R337). -/
def State.tripClear (s : State) (mask : Nat) : State :=
  forFin 4 (fun t s =>
    if !bit mask t then s
    else if s.gBit PWR_TRIP_STAT_LVL t && !bit (s.gWas PWR_TRIP_STAT_LVL) t then
      if s.latchWas t then s.tripCapture t else s
    else if s.gBit PWR_TRIP_STAT_LVL t then s.inc (PWR_TRIP_CNT_REFUSED t)
    else
      let s := (s.putBit PWR_TRIP_STAT_LATCH t false).setWord (PWR_TRIP_CAP_PEND t).a 0
      s.levelOff 22 t (s.g (PWR_TRIP_CFG_AXMASK t))) s

/-- Trip latches at a tick: an axis added to a set latch is treated as if it set now, and an axis that became energised under
one faults in the same tick (R338). -/
def State.tripTick (s : State) (n : Fin 8) : State :=
  let asg := gather 4 fun t => bit (s.g (PWR_TRIP_CFG_AXMASK t)) n
  let fresh := (List.range 4).any fun t =>
    bit asg t && !bit s.axes[n].trips t && bit (s.g PWR_TRIP_STAT_LATCH) t
  let s := if fresh || (s.tripHeld n && s.energised n) then s.tripAxis n else s
  s.ax n fun a => { a with trips := asg }

end Sys2Proof.Machine
end

