-- ==== Sys2Proof/Machine/Strobe.lean ====
section
/-!
DEFINITION. Buffered configuration (R153 to R158, R504): the strobe, what a tick mark puts in force, the held sets of R28, R55,
R294 and R372.
-/

namespace Sys2Proof.Machine

open Host

/-- The strobe group of a direct address (R153). -/
def groupOf (a : Nat) : Fin 11 :=
  if h : 0x800 ≤ a ∧ a < 0x1000 then ⟨(a - 0x800) / 0x100, by omega⟩
  else if 0x400 ≤ a ∧ a < 0x500 then 8
  else if 0x500 ≤ a ∧ a < 0x600 then 9
  else 10

/-- The addresses of a group that hold a buffered field. -/
def groupAddrs (g : Fin 11) : List Nat :=
  let l := if g.val < 8 then (List.range 0x100).map (0x800 + 0x100 * g.val + ·)
    else if g = 8 then (List.range 0x100).map (0x400 + ·)
    else if g = 9 then (List.range 0x100).map (0x500 + ·)
    else (List.range 0x400) ++ (List.range 0x200).map (0x600 + ·)
  l.filter hasBuffered

/-- A PWM-class field (R155, R326). -/
def pwmFld (a : Nat) : Bool :=
  0x800 ≤ a && 0x50 ≤ a % 0x100 && a % 0x100 < 0x70 && (a % 16 == 7 || a % 16 == 8 || a % 16 == 9)

/-- A field of a held set (R504). -/
def heldFld (a lo : Nat) : Bool :=
  (a == 0x1C8 && (lo == 0 || lo == 24)) ||
  (0x800 ≤ a && (a % 0x100 == 0x9E || (a % 0x100 == 0x40 && lo < 16) || (a % 0x100 == 0x88 && lo == 0) || a % 0x100 == 0x89))

/-! ## The held sets -/

/-- No axis is in a state that keeps the tick settings waiting (R28). -/
def State.tickQuiet (s : State) : Bool := (List.finRange 8).all fun n => !s.axes[n].st.busy

/-- Period and source take force (R28). A new source is not lost yet. -/
def State.tickApply (s : State) (p src : Nat) : State :=
  let s := if s.g CLK_TICK_CFG_SRC ≠ src then
      { s.put CLK_TICK_STAT_SRC_LOST 0 with tick := { s.tick with lost := false } } else s
  let s := ((s.put CLK_TICK_CFG_PERIOD p).put CLK_TICK_CFG_SRC src).put CLK_TICK_STAT_PEND 0
  { s with tick := { s.tick with held := none } }

/-- Period and source applied by a strobe (R28, R504). -/
def State.tickOffer (s : State) (p src : Nat) : State :=
  if s.tickQuiet then s.tickApply p src
  else if p = s.g CLK_TICK_CFG_PERIOD && src = s.g CLK_TICK_CFG_SRC then
    { s.put CLK_TICK_STAT_PEND 0 with tick := { s.tick with held := none } }
  else { s.put CLK_TICK_STAT_PEND 1 with tick := { s.tick with held := some (p, src) } }

/-- OFF or IDLE (R55, R372). -/
def State.quiet (s : State) (n : Fin 8) : Bool := s.axes[n].st == .off || s.axes[n].st == .idle

/-- Levels of the home and limit pins after inversion, as sampled at the last tick mark: bit 0 FBn_2, 1 STEPn, 2 DIRn. -/
def State.pinLevels (s : State) (n : Fin 8) : Nat :=
  b2n (s.gb (AX_PINSTAT_FB2_LVL n) != s.gb (AX_PINSEL_FB2_INV n))
    + 2 * b2n (s.gb (AX_PINSTAT_STEP_LVL n) != s.gb (AX_PINSEL_STEP_INV n))
    + 4 * b2n (s.gb (AX_PINSTAT_DIR_LVL n) != s.gb (AX_PINSEL_DIR_INV n))

/-- The functions that follow the selection in force (R55, R56): FB_MODE 3 acts, and reads in `FB_ACT`, as 0. A changed
feedback mode restarts the datum port (R371). A level behind a filter still has to hold to pass it (R58). -/
def State.pinActs (s : State) (n : Fin 8) : State :=
  let fb := if s.g (AX_PINSEL_FB_MODE n) = 3 then 0 else s.g (AX_PINSEL_FB_MODE n)
  let was := s.g (AX_PINSTAT_FB_ACT n)
  let s := (s.put (AX_PINSTAT_FB_ACT n) fb).put (AX_PINSTAT_FB2_ACT n) (s.g (AX_PINSEL_FB2_FN n))
  let s := (s.put (AX_PINSTAT_STEP_ACT n) (s.g (AX_PINSEL_STEP_FN n))).put (AX_PINSTAT_DIR_ACT n) (s.g (AX_PINSEL_DIR_FN n))
  let s := s.putB (AX_PINSTAT_SEL_CONFLICT n) (s.g (AX_PINSEL_FB2_FN n) = 1 && fb ≠ 1)
  let s := if fb ≠ was then s.dpRestart n else s
  let s := if s.g (AX_PINSEL_FILT n) = 0 then s.ax n fun a => { a with pinF := s.pinLevels n } else s
  s.idStat n

/-- A pin selection takes force (R55). -/
def State.pinApply (s : State) (n : Fin 8) (w : Nat) : State :=
  let s := s.setWord (AX_PINSEL_FB_MODE n).a (W w)
  let s := (s.put (AX_PINSTAT_SEL_PEND n) 0).ax n fun a => { a with heldPin := none }
  s.pinActs n

/-- A pin selection applied by a strobe (R55, R504). -/
def State.pinOffer (s : State) (n : Fin 8) (w : Nat) : State :=
  let now := (s.word (AX_PINSEL_FB_MODE n).a).toNat
  if w = now then (s.put (AX_PINSTAT_SEL_PEND n) 0).ax n fun a => { a with heldPin := none }
  else if s.quiet n then s.pinApply n w
  else (s.put (AX_PINSTAT_SEL_PEND n) 1).ax n fun a => { a with heldPin := some w }

/-- RANGE and EOFS applied by a strobe (R294, R504); a staged RANGE of 3 is the range in force. -/
def State.seqOffer (s : State) (n : Fin 8) (r e : Nat) : State :=
  let r := if r = 3 then s.g (AX_SEQ_CFG_RANGE n) else r
  if s.seqQuiet n then s.seqApply n r e
  else if r = s.g (AX_SEQ_CFG_RANGE n) && e = s.g (AX_SEQ_CFG_EOFS n) then
    (s.put (AX_SEQ_STAT_PEND n) 0).ax n fun a => { a with heldSeq := none }
  else (s.put (AX_SEQ_STAT_PEND n) 1).ax n fun a => { a with heldSeq := some (r, e) }

/-- CNT_INV and CPR take force: new values restart the port (R371, R372). -/
def State.dpApply (s : State) (n : Fin 8) (inv cpr : Nat) : State :=
  let new := s.g (AX_DP_CFG_CNT_INV n) ≠ inv || s.g (AX_DP_SCALE_CPR n) ≠ cpr
  let s := (s.put (AX_DP_CFG_CNT_INV n) inv).put (AX_DP_SCALE_CPR n) cpr
  let s := (s.put (AX_DP_STAT_PEND n) 0).dpt n fun d => { d with held := none }
  if new then s.dpRestart n else s

/-- CNT_INV and CPR applied by a strobe (R372, R504). -/
def State.dpOffer (s : State) (n : Fin 8) (inv cpr : Nat) : State :=
  if s.quiet n then s.dpApply n inv cpr
  else if inv = s.g (AX_DP_CFG_CNT_INV n) && cpr = s.g (AX_DP_SCALE_CPR n) then
    (s.put (AX_DP_STAT_PEND n) 0).dpt n fun d => { d with held := none }
  else (s.put (AX_DP_STAT_PEND n) 1).dpt n fun d => { d with held := some (inv, cpr) }

/-- Waiting sets whose rule no longer holds them take force at a tick mark. -/
def State.heldTick (s : State) : State :=
  let s := match s.tick.held with
    | some (p, src) => if s.tickQuiet then s.tickApply p src else s
    | none => s
  forFin 8 (fun n s =>
    let s := match s.axes[n].heldPin with
      | some w => if s.quiet n then s.pinApply n w else s
      | none => s
    let s := match s.axes[n].heldSeq with
      | some (r, e) => if s.seqQuiet n then s.seqApply n r e else s
      | none => s
    match s.axes[n].dp.held with
    | some (i, c) => if s.quiet n then s.dpApply n i c else s
    | none => s) s

/-! ## Applying a group -/

/-- A field of a word. -/
def fieldIn (w : Word) (f : Fld) : Nat := bits w.toNat f.lo f.w

/-- Tick-class values of one register that no rule holds take force. -/
def State.applyAddr (s : State) (snap : RegFile) (a : Nat) : State :=
  let w := kvGet snap a (resetWord a)
  (layout a).foldl (fun s r =>
    if r.acc == .rwb && !heldFld a r.lo && !pwmFld a then s.setField a r (rowOf r w) else s) s

/-- A changed RMODE discards a latched regular trigger (R405). -/
def State.rmodeTook (s : State) (st : Fin 2) (was : Nat) : State :=
  if s.g (ST_SV_CFG_RMODE st) = was then s else s.put (ST_SV_STAT_TRG_PEND st) 0

/-- A group's pending set applies at a tick mark (R155, R504). -/
def State.applyGroup (s : State) (g : Fin 11) (snap : RegFile) : State :=
  let r0 := s.g (ST_SV_CFG_RMODE 0)
  let r1 := s.g (ST_SV_CFG_RMODE 1)
  let s := (groupAddrs g).foldl (fun s a => s.applyAddr snap a) s
  let f := fun (x : Fld) => fieldIn (kvGet snap x.a (resetWord x.a)) x
  if h : g.val < 8 then
    let n : Fin 8 := ⟨g.val, h⟩
    let s := s.pinOffer n (kvGet snap (AX_PINSEL_FB_MODE n).a (resetWord (AX_PINSEL_FB_MODE n).a)).toNat
    let s := s.seqOffer n (f (AX_SEQ_CFG_RANGE n)) (f (AX_SEQ_CFG_EOFS n))
    s.dpOffer n (f (AX_DP_CFG_CNT_INV n)) (f (AX_DP_SCALE_CPR n))
  else if g = 8 then s.rmodeTook 0 r0
  else if g = 9 then s.rmodeTook 1 r1
  else if g = 10 then s.tickOffer (s.clampVal 0x1C8 0 (f CLK_TICK_CFG_PERIOD)) (f CLK_TICK_CFG_SRC)
  else s

/-- The snapshot phase of a tick: every group strobed before this tick mark, then the sets that still wait (R155, R157). A newly
strobed selection so replaces a waiting one at a mark where both could take force, and one port restart serves it (DEDUCED from
R55 and R504, log entry 57). -/
def State.applyStrobes (s : State) : State :=
  (forFin 11 (fun g s =>
    match s.groups[g].pend with
    | some snap =>
      if s.groups[g].at_ < s.now then
        ({ s with groups := vupd s.groups g fun x => { x with pend := none } }).applyGroup g snap
      else s
    | none => s) s).heldTick

/-! ## The strobe (R154, R156) -/

/-- The pending set of a coil at a strobe. -/
def State.strobeCoil (s : State) (c : Fin 16) : State :=
  let k := s.coils[c]
  let old := k.pend
  let p : PwmPend := {
    per := s.stagedWord (CO_PWM_PER_PERIOD c).a, cmp := s.stagedWord (CO_PWM_CMP_CMP c).a,
    cfg := s.stagedWord (CO_PWM_CFG_DT c).a, at_ := s.now,
    perW := k.perW || old.any (·.perW), cmpW := k.cmpW || old.any (·.cmpW) }
  s.co c fun k => { k with pend := some p, perW := false, cmpW := false }

/-- One group is strobed; a group whose registers are unpowered is not (R156). -/
def State.strobeGroup (s : State) (g : Fin 11) : State :=
  if g ≠ 10 && !s.flOn then s
  else
    let snap := s.staged.filter fun e => groupOf e.1 == g
    let s := { s with groups := vupd s.groups g fun _ => { pend := some snap, at_ := s.now } }
    if h : g.val < 8 then (s.strobeCoil (coilA ⟨g.val, h⟩)).strobeCoil (coilB ⟨g.val, h⟩) else s

/-- A strobe has been performed (Table 5-4, Table 5-8). -/
def State.strobed (s : State) : State := s.put DEV_UPDATE_STAT_STROBES ((s.g DEV_UPDATE_STAT_STROBES + 1) % 256)

/-- A write of DEV_UPDATE (R154, R156, R157). -/
def State.strobe (s : State) (w : Nat) : State :=
  if w % 2048 = 0 || s.dev == .recovery then s
  else
    let s := (setBitsOf 11 (w % 2048)).foldl (fun s g => s.strobeGroup g) s
    s.strobed

/-- Everything derived from values that an image put in force at once (R437). -/
def State.imageTook (s : State) : State :=
  forFin 8 (fun n s =>
    let r := s.g (AX_SEQ_CFG_RANGE n)
    (s.pinActs n).put (AX_SEQ_STAT_RANGE_ACT n) r) s

end Sys2Proof.Machine
end

