-- ==== Sys2Proof/Machine/Execute.lean ====
section
/-!
DEFINITION. Execution (R236 to R242, R249, R250, R264 to R268): what a tick mark makes of accepted commands, the queued commands
that start, block and ring resets at a tick mark, and the endings that a commit point posts.
-/

namespace Sys2Proof.Machine

/-! ## Immediate commands (R236) -/

/-- A command that this tick mark takes: accepted before it (R233). -/
def State.takes (s : State) (c : Cmd) : Bool := c.ph == .accepted && decide (c.at_ < s.tick.mark)

/-- Queued commands of a ring that do not execute, oldest first. -/
def State.waitQ (s : State) (r : Nat) : List Cmd := s.cmds.filter fun c => c.ring == r && c.queued && c.ph == .accepted

/-- A command is done at this tick's commit point. -/
def State.doneNow (s : State) (id : Nat) : State := s.markEnd id DONE

/-- A command waits for the endings of others, or for its axes to stand (R249, R250). -/
def State.applyWait (s : State) (id : Nat) (w : List Nat) : State :=
  s.cmdUpd id fun c => { c with ph := .applied, wait := c.wait ++ w }

/-- ENABLE (Table 9-2, R276, R295): HOLD at the measured position where there is feedback. A moisture test of one of its lines
and a back-drive episode end (R359, R461); an absolute word in force makes the position referenced (R379). -/
def State.doEnable (s : State) (n : Fin 8) : State :=
  let s := (s.mwLeave n).bdEnd n
  let fb := s.g (AX_PINSTAT_FB_ACT n) ≠ 0
  let s := if fb && s.gb (AX_DP_CFG_ABS n) && s.gb (AX_DP_STAT_WORD_OK n) then s.put (AX_STATE_REF n) 1 else s
  s.ax n fun a => { a.rest with
    st := .hold, pos := if fb then a.dp.m * 65536 else a.pos, holdStart := true, zeroAt := some s.now, lastTgt := none,
    obs := a.obs.enter true }

/-- RELEASE (Table 9-2): no change in IDLE. -/
def State.doRelease (s : State) (n : Fin 8) : State :=
  if s.axes[n].st == .hold then (s.ax n fun a => { a.rest with st := .idle }).bridgesOff n else s

/-- CLEAR_FAULT (Table 9-2): both cause registers clear. -/
def State.doClearFault (s : State) (n : Fin 8) : State :=
  ((s.put (PWR_FLTCAUSE_BITS n) 0).put (AX_FAULT_BITS n) 0).ax n fun a => { a with st := .idle, tempCtrl := false }

/-- SET_POSITION (R276, R375). -/
def State.doSetPosition (s : State) (n : Fin 8) (c : Cmd) : State :=
  let p := dTarget c.d1 c.d2
  ((s.recoord n (p * 65536) p).putB (AX_STATE_REF n) (bit (dFlags c.d0) 0)).ax n fun a => { a with lastTgt := none }

/-- The queued commands of a ring that do not execute are cancelled (R250); an open move is closed with its parts. The state and
the commands cancelled. -/
def State.flushRing (s : State) (r : Nat) : State × List Nat :=
  let l := (s.waitQ r).map (·.id)
  let s := l.foldl (fun s id => s.markEnd id CANCELLED_HOST) s
  (if r = 8 || r = 9 then s.stn (ringStation r) fun x => { x with open_ := [] } else s, l)

/-- The parts that a stop of the station's move ends: its own, and those of the other move of a running pair (R250, R280). -/
def State.moveIds (s : State) (t : Fin 2) : List Nat :=
  (s.moveStations t).flatMap fun t => (s.stations[t].mv.map MoveSt.ids).getD []

/-- STOP and QSTOP on an axis ring (R240, R250, R264). -/
def State.doStop (s : State) (n : Fin 8) (c : Cmd) : State :=
  let quick := c.op == 0x04
  let (s, l) := if c.flush then s.flushRing n else (s, [])
  let ended := if s.engaged n then s.moveIds (stationOf n)
    else match s.execOf n with
      | some x => if x.op == 0x24 then [] else [x.id]
      | none => []
  let s := if s.engaged n then s.stopMove (stationOf n) quick [CANCELLED_HOST] else s.stopAxis n quick CANCELLED_HOST s.tick.no
  s.applyWait c.id (ended ++ l)

/-- STATION_STOP (R250, R280). -/
def State.doStationStop (s : State) (t : Fin 2) (c : Cmd) : State :=
  let quick := bit (dFlags c.d0) 0
  let (s, l) := if c.flush then s.flushRing (8 + t.val) else (s, [])
  let ended := s.moveIds t
  (s.stopMove t quick [CANCELLED_HOST]).applyWait c.id (ended ++ l)

/-- End position that a replacing stake with REL = 1 is relative to: the target of the position stake it replaces, else the
planned position (R265). -/
def State.replaceBase (s : State) (n : Fin 8) : Int :=
  match s.execOf n, s.axes[n].prof with
  | some x, some f => if x.isPos then f.target.getD s.axes[n].planned else s.axes[n].planned
  | _, _ => s.axes[n].planned

/-- A replacing stake (R266, R268): one that fails a check of its own leaves the command in progress untouched. -/
def State.doReplace (s : State) (n : Fin 8) (c : Cmd) : State :=
  let base := s.replaceBase n
  if !s.stakeOk n c base then s.markEnd c.id CANCELLED_STATE
  else
    let s := match s.execOf n with
      | some x => s.markEnd x.id CANCELLED_HOST
      | none => s
    (s.cmdUpd c.id fun c => { c with ph := .exec, at_ := s.tick.no }).stakeStart n c base

/-- The parts of the move that a waiting part belongs to, and whether its LAST part has come (R237). -/
def moveOf (id : Nat) : List Cmd → List Cmd → List Cmd × Bool
  | acc, [] => (if acc.any (fun c => c.id == id) then acc else [], false)
  | acc, c :: l =>
    if c.op != 0x40 then moveOf id acc l
    else
      let acc := acc ++ [c]
      if c.last then (if acc.any (fun x => x.id == id) then (acc, true) else moveOf id [] l) else moveOf id acc l

/-- One bound command is cancelled (R249). A part takes its whole move with it. -/
def State.cancelOne (s : State) (id : Nat) (quick : Bool) : State :=
  match s.cmds.find? (fun c => c.id == id) with
  | none => s
  | some c =>
    match c.ph with
    | .accepted =>
      if c.op == 0x40 then
        let (parts, closed) := moveOf id [] (s.waitQ c.ring)
        let s := parts.foldl (fun s x => s.markEnd x.id CANCELLED_HOST) s
        if closed then s else s.stn (ringStation c.ring) fun x => { x with open_ := [] }
      else s.markEnd id CANCELLED_HOST
    | .waitPair => s.stopMove (ringStation c.ring) quick [CANCELLED_HOST]
    | .exec =>
      if c.op == 0x40 then s.stopMove (ringStation c.ring) quick [CANCELLED_HOST]
      else if c.op == 0x24 || c.op == 0x61 then s.markEnd id CANCELLED_HOST
      else s.stopAxis (ringAxis c.ring) quick CANCELLED_HOST s.tick.no
    | .applied | .ending _ | .ended _ => s

/-- A command of the third case of R249: an executing DWELL or FENCE. -/
def State.holdsRing (s : State) (id : Nat) : Bool :=
  s.cmds.any fun c => c.id == id && c.ph == .exec && (c.op == 0x24 || c.op == 0x61)

/-- CANCEL_TAG (R249): it waits for the record of the command it is bound to, or, for a DWELL or FENCE that executes, for the
commit point alone. -/
def State.doCancelTag (s : State) (c : Cmd) : State :=
  let third := c.wait.any s.holdsRing
  let s := (c.wait.foldl (fun s id => s.cancelOne id (bit (dFlags c.d0) 0)) s).applyWait c.id []
  if third then s.cmdUpd c.id fun c => { c with wait := [] } else s

/-- CANCEL_RING (R250). -/
def State.doCancelRing (s : State) (c : Cmd) : State :=
  let r := bits c.d1.toNat 0 4
  let quick := bit (dFlags c.d0) 0
  let l := (s.cmds.filter fun x => x.ring == r && x.id != c.id &&
    (x.ph == .accepted || x.ph == .waitPair || (bit (dFlags c.d0) 1 && x.ph == .exec))).map (·.id)
  (l.foldl (fun s id => s.cancelOne id quick) s).applyWait c.id l

/-- A program context starts (R441). -/
def State.progStart (s : State) (x : Fin 4) (entry : Nat) : State :=
  s.ctx x fun c => { c with
    running := true, pc := entry % 4096, lc := Vector.replicate 4 0, ev := 0, trk := [], wait := .none, lastSt := 0, n := 0,
    hold := false }

/-- An immediate command that is legal takes effect (R236, Table 8-3). -/
def State.applyOp (s : State) (c : Cmd) : State :=
  let n := ringAxis c.ring
  let x : Fin 4 := ⟨c.d1.toNat % 4, by omega⟩
  match c.op with
  | 0x01 => (s.doEnable n).doneNow c.id
  | 0x02 => (s.doRelease n).doneNow c.id
  | 0x03 | 0x04 => s.doStop n c
  | 0x05 => (s.doClearFault n).doneNow c.id
  | 0x06 => (s.doSetPosition n c).doneNow c.id
  | 0x07 => (s.followOn n).doneNow c.id
  | 0x08 => (s.stopAxis n false CANCELLED_HOST s.tick.no).applyWait c.id []
  | 0x20 | 0x21 | 0x22 => s.doReplace n c
  | 0x41 => s.doStationStop (ringStation c.ring) c
  | 0x62 => s.doCancelTag c
  | 0x63 => s.doCancelRing c
  | 0x64 => (s.progStart x (bits c.d2.toNat 0 12)).doneNow c.id
  | 0x65 => (s.stopCtx x 1).doneNow c.id
  | _ => s.doneNow c.id

/-- One immediate command at the tick mark: checked again, then applied (R236). -/
def State.applyImm (s : State) (id : Nat) : State :=
  match s.cmds.find? (fun c => c.id == id) with
  | none => s
  | some c => if c.ph != .accepted then s else if s.legal c then s.applyOp c else s.markEnd id CANCELLED_STATE

/-- Every immediate command that the tick mark takes, in acceptance order across all rings (R236). -/
def State.applyImms (s : State) : State :=
  ((s.cmds.filter fun c => !c.queued && s.takes c).map (·.id)).foldl (fun s id => s.applyImm id) s

/-! ## Queued commands (R237 to R240) -/

/-- The chain cancels the command: its ring's last ending was not DONE or DONE_LIMITED (R239). -/
def State.chained (s : State) (c : Cmd) : Bool :=
  dChain c.d0 && (if h : c.ring < 11 then decide (s.lastEnd[c.ring] ≠ DONE) && decide (s.lastEnd[c.ring] ≠ DONE_LIMITED) else false)

/-- A queued command of an axis ring that is legal starts. -/
def State.startOn (s : State) (n : Fin 8) (c : Cmd) : State :=
  let s := s.cmdUpd c.id fun c => { c with ph := .exec, at_ := s.tick.no }
  if c.op == 0x23 then s.homeStart n c else if c.op == 0x24 then s else s.stakeStart n c (s.relBase n)

/-- The checks of a queued command of an axis ring at execution (Table 8-5, R256, R269, R270). -/
def State.execOk (s : State) (n : Fin 8) (c : Cmd) : Bool :=
  s.legal c && (!isStakeOp c.op || s.stakeOk n c (s.relBase n))

/-- The first legal one of an axis ring's waiting commands starts; illegal and chain-cancelled ones before it end (R238 to
R240). -/
def State.startAxis (s : State) (n : Fin 8) : List Cmd → State
  | [] => s
  | c :: l =>
    if s.engaged n then s
    else if s.chained c || !s.execOk n c then (s.markEnd c.id CANCELLED_STATE).startAxis n l
    else s.startOn n c

/-- The move that waits for a partner on a station, if it is another than that of pair `p`, ends CANCELLED_STATE: its partner's
ring has come to another command, or its partner was cancelled (R237). -/
def State.unpair (s : State) (t : Fin 2) (p : Nat) (same : Bool) : State :=
  match s.stations[t].mv with
  | some m =>
    if m.waiting && (m.pair == p) == same then
      (m.ids.foldl (fun s id => s.markEnd id CANCELLED_STATE) s).stn t fun x => { x with mv := none }
    else s
  | none => s

/-- A complete move reaches execution and is legal: it starts, alone or with a partner that waits, or waits itself (R237, R279). -/
def State.startMove (s : State) (t : Fin 2) (parts : List Cmd) : State :=
  let p := (parts.getLast?.map Cmd.pair).getD 0
  let o : Fin 2 := 1 - t
  let s := s.unpair o p false
  if p = 0 then (s.moveTake t parts false).moveStart t
  else match s.stations[o].mv with
    | some m =>
      if m.waiting then
        let s := s.stn o fun x => { x with mv := x.mv.map fun m => { m with waiting := false, at_ := s.tick.no } }
        let s := m.ids.foldl (fun s id => s.cmdUpd id fun c => { c with ph := .exec, at_ := s.tick.no }) s
        (s.moveTake t parts false).moveStart t
      else s.moveTake t parts true
    | none => s.moveTake t parts true

/-- A station ring's waiting commands at a tick mark, `k` bounding their number. `busy` lists the rings whose queued command still
executes in this tick. -/
def State.startStation (s : State) (t : Fin 2) (busy : List Nat) : Nat → List Cmd → State
  | 0, _ => s
  | _, [] => s
  | k + 1, c :: l =>
    if c.op != 0x40 then
      if s.chained c || !s.legal c then (s.markEnd c.id CANCELLED_STATE).startStation t busy k l
      else (s.unpair (1 - t) 0 false).cmdUpd c.id fun c => { c with ph := .exec, at_ := s.tick.no }
    else
      let parts := moveParts (c :: l)
      let p := (parts.getLast?.map Cmd.pair).getD 0
      let rest := (c :: l).drop parts.length
      let endWith := fun (st : Nat) => parts.foldl (fun (s : State) x => s.markEnd x.id st) s
      if !(parts.any Cmd.last) then s
      else if s.chained c then ((endWith CANCELLED_STATE).unpair (1 - t) p true).startStation t busy k rest
      else if parts.any fun x => s.gBit DEV_BLKRST_STAT_BUSY x.partAxis then
        (endWith CANCELLED_HOST).startStation t busy k rest
      else if s.moveWaits parts || parts.any (fun x => busy.contains x.partAxis.val) then s
      else if !s.moveOk parts then
        let s := endWith CANCELLED_STATE
        (if p = 0 then s else s.unpair (1 - t) p true).startStation t busy k rest
      else s.startMove t parts

/-- The device ring: a FENCE (R238, Table 8-5). -/
def State.startDevice (s : State) : List Cmd → State
  | [] => s
  | c :: l =>
    if s.chained c || !s.legal c then (s.markEnd c.id CANCELLED_STATE).startDevice l
    else s.cmdUpd c.id fun c => { c with ph := .exec, at_ := s.tick.no }

/-- Commands of a ring that this tick mark takes, oldest first. -/
def State.takeQ (s : State) (r : Nat) : List Cmd := (s.waitQ r).filter s.takes

/-- A station ring at a tick mark. -/
def State.stationMark (s : State) (t : Fin 2) (busy : List Nat) : State :=
  if busy.contains (8 + t.val) || s.stations[t].mv.isSome then s
  else
    let q := s.takeQ (8 + t.val)
    s.startStation t busy q.length q

/-- An axis ring at a tick mark; a replacing stake that has started keeps its queued commands behind it (R268). -/
def State.axisMark (s : State) (n : Fin 8) (busy : List Nat) : State :=
  if busy.contains n.val || (s.execOf n).isSome then s else s.startAxis n (s.takeQ n)

/-- Rings whose queued command executes as the immediate commands are taken: it frees its ring for the next tick mark at the
earliest (R238). -/
def State.busyRings (s : State) : List Nat := (List.range 11).filter fun r => (s.execOf r).isSome

/-- A hardware limit stops an engaged axis: the whole move stops (R270, R280). -/
def State.moveLimit (s : State) (t : Fin 2) : State :=
  match s.stations[t].mv with
  | none => s
  | some m =>
    if m.waiting || m.stopping then s
    else m.axes.foldl (fun s n =>
      let v := s.axes[n].vel
      if s.axes[n].st == .moving && s.limBars n v then
        (s.stopMove t true [CANCELLED_STATE]).pulse 33 n (if v < 0 then 0 else 1)
      else s) s

/-- Immediate commands, then the queued commands that start: the station rings first (R240). -/
def State.execMark (s : State) : State :=
  let busy := s.busyRings
  let s := s.applyImms
  let s := (s.stationMark 0 busy).stationMark 1 busy
  let s := (s.moveLimit 0).moveLimit 1
  let s := forFin 8 (fun n s => s.axisMark n busy) s
  if busy.contains 10 then s else s.startDevice (s.takeQ 10)

/-! ## Handover to a blending stake (R267) -/

/-- The next queued command, where it is a blending stake that may take over from the position stake in force in this tick. -/
def State.blendNext (s : State) (n : Fin 8) : Option Cmd :=
  let a := s.axes[n]
  match s.execOf n, a.prof with
  | some x, some f0 =>
    let f := (s.torqStake n f0 ((s.tick.no + 1 - a.at_) * s.tickT)).2
    let t1 := (s.tick.no + 1 - f.start) * s.tickT
    let t0 := (a.at_ - f.start) * s.tickT
    if a.st == .moving && x.isPos && f.kind == .target && decide (t0 ≤ f.decelAt) && decide (f.decelAt < t1) then
      match s.takeQ n with
      | c :: _ => if c.blend && s.legal c && s.stakeOk n c (f.target.getD 0) then some c else none
      | [] => none
    else none
  | _, _ => none

/-- The handover: the executing stake ends, the blending stake starts in the same tick. -/
def State.blendRun (s : State) (n : Fin 8) : State :=
  match s.blendNext n, s.axes[n].prof with
  | some c, some f =>
    let s := s.stakeDone n f
    let s := s.cmdUpd c.id fun c => { c with ph := .exec, at_ := s.tick.no }
    s.stakeStart n c (f.target.getD 0)
  | _, _ => s

/-! ## Block resets at a tick mark (R134, R135) -/

/-- Direct addresses of an axis block. -/
def axAddr (n : Fin 8) (a : Nat) : Bool := decide (0x800 + 0x100 * n.val ≤ a) && decide (a < 0x900 + 0x100 * n.val)

/-- A move on a station ring that includes the axis is cancelled: the one in progress, and complete ones that wait (R135). -/
def State.rstMoves (s : State) (n : Fin 8) : State :=
  let t := stationOf n
  let q := s.waitQ (8 + t.val)
  let hit := q.filter fun c => c.op == 0x40 && c.partAxis == n
  let s := hit.foldl (fun s c =>
    let (parts, closed) := moveOf c.id [] q
    if closed then parts.foldl (fun (s : State) x => s.markEnd x.id CANCELLED_HOST) s else s) s
  if s.engaged n then s.stopMove t true [CANCELLED_HOST] else s

/-- Step 2: the axis's commands end CANCELLED_HOST, a moving axis quick-stops. -/
def State.rstBegin (s : State) (n : Fin 8) : State :=
  let s := (s.cmds.filter fun c => c.ring == n.val).foldl (fun s c => s.markEnd c.id CANCELLED_HOST) s
  let moving := s.axes[n].st == .moving || s.axes[n].st == .homing || s.axes[n].st == .follow || s.axes[n].st == .quiescing
  let eng := s.engaged n
  let s := s.rstMoves n
  let s := if eng then s else s.stopAxis n true CANCELLED_HOST s.tick.no
  s.ax n fun a => { a with rst := if moving then .wait s.now else .finish }

/-- A coil of the axis at step 4: the PWM-class fields take their reset values at its next boundary. -/
def State.rstCoil (s : State) (c : Fin 16) : State :=
  let p : PwmPend := {
    per := resetWord (CO_PWM_PER_PERIOD c).a, cmp := resetWord (CO_PWM_CMP_CMP c).a, cfg := resetWord (CO_PWM_CFG_DT c).a,
    at_ := s.now, perW := true, cmpW := true }
  (s.co c Coil.release).co c fun k => { k with pend := some p, perW := false, cmpW := false }

/-- Step 4: registers and engines of the axis return to their reset state; OFF, unreferenced. Identity data, the current ceilings'
timers and the filtered levels are not the axis block's. An axis that leaves FAULT so clears its causes (R96); in SAFE none leaves
FAULT (R132; log entry 56). -/
def State.rstFinish (s : State) (n : Fin 8) : State :=
  let stays := s.dev == .safe && s.axes[n].st == .fault
  let faults := s.g (AX_FAULT_BITS n)
  let s := s.resetRegs fun a => axAddr n a && !pwmFld a
  let s := if stays then s.put (AX_FAULT_BITS n) faults else s.put (PWR_FLTCAUSE_BITS n) 0
  let s := { s with staged := kvDrop s.staged (axAddr n) }
  let s := { s with groups := vupd s.groups ⟨n.val, by omega⟩ fun x => { x with pend := none } }
  let s := s.ax n fun a => { Axis.init with
    st := if stays then .fault else .off, at_ := a.at_, mon := a.mon, boostA := a.boostA, boostB := a.boostB, boostAt := a.boostAt, trips := a.trips,
    pinF := a.pinF, dp := { DatumSt.init with a := a.dp.a, b := a.dp.b, lastT := s.now } }
  let s := (s.rstCoil (coilA n)).rstCoil (coilB n)
  ((s.pinActs n).putBit DEV_BLKRST_STAT_BUSY n false)

/-- An axis block reset at a tick mark. -/
def State.rstAxis (s : State) (n : Fin 8) : State :=
  match s.axes[n].rst with
  | .none => s
  | .due => s.rstBegin n
  | .wait _ =>
    let s := s.rstMoves n
    let st := s.axes[n].st
    if st == .moving || st == .homing || st == .follow || st == .quiescing then s else s.rstFinish n
  | .finish => (s.rstMoves n).rstFinish n

/-! ## Ring resets at a tick mark (R136, R137) -/

/-- The staging words of a command ring clear for both links and every context. -/
def State.stgClear (s : State) (r : Nat) : State :=
  let drop := fun (m : RegFile) => kvDrop m fun k => k / 4 == r
  { s with
    links := s.links.map fun (l : LinkSt) => { l with stg := drop l.stg },
    ctxs := s.ctxs.map fun (c : Ctx) => { c with stg := drop c.stg } }

/-- One ring's reset: refused while a command of it is in flight, of any ring for ring 11. -/
def State.rstRing (s : State) (r : Fin 16) : State :=
  let used := if r.val < 11 then s.cmds.any fun c => c.ring == r.val else r.val == 11 && !s.cmds.isEmpty
  if used then s.putBit DEV_BLKRST_STAT_RING_REF r true
  else
    let s := s.putBit DEV_BLKRST_STAT_RING_REF r false
    if h : r.val < 11 then { s.stgClear r with lastEnd := vupd s.lastEnd ⟨r.val, h⟩ fun _ => DONE }
    else
      let s := s.ring ⟨r.val - 11, by omega⟩ RecRing.clear
      if r = 13 then { s with cap := { frozen := false, trig := none, left := none } } else s

/-- The ring resets that are due. -/
def State.rstRings (s : State) : State :=
  let m := s.tick.rst
  (setBitsOf 16 m).foldl (fun (s : State) r => s.rstRing r) { s with tick := { s.tick with rst := 0 } }

/-! ## Endings at a commit point (R244) -/

/-- A command has ended, or its record has been posted. -/
def State.over (s : State) (id : Nat) : Bool := s.cmds.all fun c => c.id != id || !c.live

/-- The command's record has been posted. -/
def State.posted (s : State) (id : Nat) : Bool := s.cmds.all fun c => c.id != id

/-- The status with which a command is ready to end at this commit point, given the endings before it. -/
def State.readyEnd (s : State) (c : Cmd) : Option Nat :=
  match c.ph with
  | .ending st => some st
  | .applied =>
    if c.op == 0x62 || c.op == 0x63 then (if c.wait.all s.posted then some DONE else none)
    else if !c.wait.all s.over then none
    else if c.op == 0x41 then (if s.stations[ringStation c.ring].mv.isNone then some DONE else none)
    else if s.axes[ringAxis c.ring].st == .quiescing then none
    else some DONE
  | .exec =>
    if c.op == 0x61 then (if s.cmds.all fun x => x.id ≥ c.id || !x.live then some DONE else none) else none
  | .accepted | .waitPair | .ended _ => none

/-- The endings of a commit point, posted one after another: always the first one in ring order and commit order that is ready
(R244). Those that a fault has ended in the axes' work of this commit point, `gone`, come in their places. `k` bounds their number. -/
def State.postEnds (s : State) (gone : List Nat) : Nat → State
  | 0 => s
  | k + 1 =>
    match (cmdOrder s.cmds).find? fun c => gone.contains c.id || (s.readyEnd c).isSome with
    | some c =>
      if gone.contains c.id then (s.recordEnd c c.endedWith).postEnds (gone.filter fun i => i != c.id) k
      else (s.endCmd c.id ((s.readyEnd c).getD DONE)).postEnds gone k
    | none => s

/-- A DWELL has occupied its ring for its ticks (R238, Table 8-4). -/
def State.dwellDue (s : State) (c : Cmd) : Bool :=
  c.op == 0x24 && c.ph == .exec && decide (s.tick.no + 1 - c.at_ ≥ c.d1.toNat)

/-- The commands' part of a commit point. -/
def State.commitEnds (s : State) : State :=
  let s := (s.cmds.filter s.dwellDue).foldl (fun s c => s.markEnd c.id DONE) s
  let gone := s.cyc.ends.getD []
  { s with cyc := { s.cyc with ends := none } }.postEnds gone s.cmds.length

end Sys2Proof.Machine
end

