-- ==== Sys2Proof/Machine/Memory.lean ====
section
/-!
DEFINITION. The two error-protected memories and the arbiter (R33 to R46): reads with errors, the scrubbers, injection, the
responses of Table 1-10, and the arbiter's windows.
-/

namespace Sys2Proof.Machine

/-- Index of a memory: 0 motion, 1 management. -/
def mix : Mem → Fin 2
  | .motion => 0 | .mgmt => 1

/-- Words of a memory (R33). -/
def memWords : Mem → Nat
  | .motion => 32768 | .mgmt => 16384

/-- One memory's error state changed. -/
def State.mm (s : State) (m : Mem) (f : EccSt → EccSt) : State := { s with ecc := vupd s.ecc (mix m) f }

/-- The inverted symbols of a word. -/
def State.badSyms (s : State) (m : Mem) (a : Nat) : Nat := (kvGet s.ecc[mix m].bad a 0).toNat

/-- The inverted symbols of a word replaced; 0 where a write has made it good. -/
def State.setBad (s : State) (m : Mem) (a x : Nat) : State :=
  s.mm m fun e => { e with bad := kvSet e.bad a (BitVec.ofNat 20 x) 0 }

/-- Symbols that hold an error. -/
def symCount (x : Nat) : Nat := (List.range 20).foldl (fun k i => k + b2n (bit x i)) 0

/-- The lowest symbol that holds an error. -/
def firstSym (x : Nat) : Nat := ((List.range 20).find? (fun i => bit x i)).getD 0

/-- The counter field of a memory: `k` 0 corrected, 1 uncorrectable (Table 1-13). -/
def cntFld (m : Mem) (k : Nat) : Fld :=
  match m with
  | .motion => DEV_MEM_CNTS_CNT_M k
  | .mgmt => DEV_MEM_CNTS_CNT_G k

/-- DEV_MEM_FIRST as an error would leave it (Table 1-14). -/
def firstWord (m : Mem) (a : Nat) (uncorr scrub : Bool) (sym : Nat) : Word :=
  W (a % 2 ^ 15 + (mix m).val * 2 ^ 15 + b2n uncorr * 2 ^ 16 + sym % 32 * 2 ^ 17 + 2 ^ 22 + b2n scrub * 2 ^ 23)

/-- The error record `w` is held over `old`: where none is held, or an uncorrectable one over a corrected one (R38). -/
def firstOver (old w : Word) : Word :=
  if !bit old.toNat 22 || (bit w.toNat 16 && !bit old.toNat 16) then w else old

/-- DEV_MEM_FIRST takes an error (R38); the first one of the cycle is remembered for a clear that meets it. -/
def State.memFirst (s : State) (m : Mem) (a : Nat) (uncorr scrub : Bool) (sym : Nat) : State :=
  let w := firstWord m a uncorr scrub sym
  let s := s.setWord 0x66 (firstOver (s.word 0x66) w)
  { s with cyc := { s.cyc with err := some (firstOver (s.cyc.err.getD 0) w) } }

/-- CLR_FIRST: the record goes; an error of the same cycle stands, for the clear acts first (R38). -/
def State.memFirstClr (s : State) : State := s.setWord 0x66 (s.cyc.err.getD 0)

/-- CLR_CNT of DEV_MEM_CFG (Table 1-11). -/
def State.memCntClr (s : State) : State :=
  ((((s.clrCnt (cntFld .motion 0)).clrCnt (cntFld .mgmt 0)).clrCnt (cntFld .motion 1)).clrCnt (cntFld .mgmt 1)).clrCnt
    DEV_MEM_STAT_DROP

/-- A corrected read: counted, held as first error, queued for write-back, EV_MEM_CORR at the threshold (R35, R38). -/
def State.memCorrected (s : State) (m : Mem) (a sym : Nat) (scrub : Bool) : State :=
  let s := (s.inc (cntFld m 0)).memFirst m a false scrub sym
  let s := s.mm m fun e => { e with
    passCorr := e.passCorr + 1, writeBack := if e.writeBack.contains a then e.writeBack else e.writeBack ++ [a] }
  let k := s.ecc[mix m].passCorr
  if s.g DEV_MEM_CFG_CE_THRESH = 0 || k == s.g DEV_MEM_CFG_CE_THRESH then s.pulse 4 (mix m) (min 4095 k) else s

/-- Row of Table 1-10 of a motion address. -/
def motionRow (a : Nat) : Nat :=
  if a < 0x3000 then 0 else if a < 0x3800 then 1 else if a < 0x4000 then 2 else if a < 0x5000 then 3
  else if a < 0x6000 then 4 else 5

/-- The rings whose records a motion word of row 4 may hold: 11, 12, 14 and 15. -/
def storedRings : List (Fin 5) := [0, 1, 3, 4]

/-- Record `i` of record ring 11 + `q` is discarded and counted: its entry shows no record until it is released (Table 1-10). -/
def State.recLost (s : State) (q : Fin 5) (i : Nat) : State :=
  if i < s.heldRecs q && !s.rings[q].lost.contains ((s.rings[q].old + i) % 65536) then
    (s.ring q fun r => { r with lost := r.lost ++ [(r.old + i) % 65536] }).inc DEV_MEM_STAT_DROP
  else s

/-- What an uncorrectable ring word held: the spec gives no storage layout, so a free value names a waiting command, a held
record, or nothing that is held (DESIGN CHOICE, log entry 24). -/
def State.ringWordLost (s : State) : State :=
  let l := s.cmds.filter (fun c => c.ph == .accepted)
  let recs := storedRings.flatMap fun q => (List.range (s.heldRecs q)).map fun i => (q, i)
  let k := (Config.freeValue s.free).toNat % (l.length + recs.length + 1)
  let s := s.useFree
  match l[k]? with
  | some c => s.endCmd c.id CANCELLED_FAULT
  | none => match recs[k - l.length]? with
    | some (q, i) => s.recLost q i
    | none => s

/-- The sample pair that an uncorrectable word of the capture ring held is discarded and counted; which held pair it was, or
none, is a free value (DESIGN CHOICE, log entry 24). -/
def State.pairLost (s : State) : State :=
  let k := (Config.freeValue s.free).toNat % (s.heldRecs 2 / 2 + 1)
  let s := s.useFree
  let old := s.rings[(2 : Fin 5)].old
  if 2 * k + 1 < s.heldRecs 2 && !s.rings[(2 : Fin 5)].lost.contains ((old + 2 * k) % 65536) then
    (s.ring 2 fun r => { r with lost := r.lost ++ [(r.old + 2 * k) % 65536, (r.old + 2 * k + 1) % 65536] }).inc DEV_MEM_STAT_DROP
  else s

/-- The response to an uncorrectable word (R34, Table 1-10). `x` is the program context that fetched it, if one did. -/
def State.memResponse (s : State) (m : Mem) (a : Nat) (x : Option (Fin 4)) : State :=
  match m with
  | .mgmt => (s.pulse 5 1 0).halt.mwStop.safeCause scMEM
  | .motion =>
    let row := motionRow a
    let who := if row = 0 then a / 0x600 else if row = 1 then (a - 0x3000) / 0x400 else (x.map (·.val)).getD 0
    let s := s.pulse 5 0 (row + who * 16)
    if row = 0 then (if h : a / 0x600 < 8 then s.axisFault ⟨a / 0x600, h⟩ 0 afMEM CANCELLED_FAULT else s)
    else if row = 1 then 
      s.gathered fun s => (axesOf (if a < 0x3400 then 0 else 1)).foldl (fun s n => s.axisFault n 0 afMEM CANCELLED_FAULT) s
    else if row = 2 then s.safeCause scMEM
    else if row = 3 then
      match x with
      | some x => s.stopCtx x 10
      | none => s
    else if row = 4 then s.ringWordLost
    else s.pairLost

/-- An uncorrectable read: counted, held, raised, answered (R36). -/
def State.memUncorr (s : State) (m : Mem) (a : Nat) (scrub : Bool) (x : Option (Fin 4)) : State :=
  ((s.inc (cntFld m 1)).memFirst m a true scrub 31).memResponse m a x

/-- A read of word `a`. An error in three or more symbols may go undetected: a free value says (R33, log entry 25). -/
def State.memRead (s : State) (m : Mem) (a : Nat) (scrub : Bool) (x : Option (Fin 4)) : State :=
  let e := s.badSyms m a
  if symCount e = 0 then s
  else if symCount e = 1 then s.memCorrected m a (firstSym e) scrub
  else if symCount e = 2 then s.memUncorr m a scrub x
  else
    let seen := (Config.freeValue s.free).getLsbD 0
    let s := s.useFree
    if seen then s.memUncorr m a scrub x else s

/-- The scrubber's next word; a completed pass is counted (R37). -/
def State.scrubNext (s : State) (m : Mem) : State :=
  let k := s.ecc[mix m].scrub + 1
  if k < memWords m then s.mm m fun e => { e with scrub := k }
  else
    let f := match m with
      | .motion => DEV_MEM_STAT_PASS_M
      | .mgmt => DEV_MEM_STAT_PASS_G
    (s.mm m fun e => { e with scrub := 0, passCorr := 0 }).put f ((s.g f + 1) % 256)

/-- The memory is powered and initialised (R108). -/
def State.memUp (s : State) : Mem → Bool
  | .motion => s.flOn
  | .mgmt => s.answers

/-- Length of a scrubber's slot: 60 µs or 120 µs (R37). -/
def scrubSlot : Mem → Nat
  | .motion => 24000 | .mgmt => 48000

/-- A functional write makes a word good whatever it held, cancels its write-back, and wins over a scrub read of its own cycle
(R35 to R37). -/
def State.memWrite (s : State) (m : Mem) (a : Nat) : State :=
  let s := (s.setBad m a 0).mm m fun e => { e with writeBack := e.writeBack.filter fun x => x != a }
  { s with cyc := { s.cyc with wrote := (32768 * (mix m).val + a) :: s.cyc.wrote } }

/-- The scrubber's slot has begun; a motion word that has had no idle cycle in its slot waits for the snapshot phase (R37). -/
def State.scrubTime (s : State) (m : Mem) : Bool :=
  let t := s.ecc[mix m].slotAt
  decide (t ≤ s.now) && (m == .mgmt || decide (s.now < t + scrubSlot m))

/-- SCRUB_READ: the scrubber reads the next word in its slot; a word written in the same cycle is read again (R37). -/
def execScrubRead (dt : Nat) (mem : Mem) (s : State) : Host.Outcome State Fault Refusal :=
  let s := s.tickTo dt
  let a := s.ecc[mix mem].scrub
  done (if s.gb DEV_MEM_CFG_SCRUB_EN && s.memUp mem && s.scrubTime mem && !s.cyc.wrote.contains (32768 * (mix mem).val + a) then
    ((s.memRead mem a true none).scrubNext mem).mm mem fun e => { e with
      slotAt := match mem with
        | .motion => e.slotAt + scrubSlot mem
        | .mgmt => e.slotAt + ((s.now - e.slotAt) / scrubSlot mem + 1) * scrubSlot mem } else s)

/-- ECC_WRITE_BACK: the oldest waiting correction is written in an idle cycle, or a functional write to its word came first
(R35). -/
def execEccWriteBack (dt : Nat) (mem : Mem) (written : Bool) (s : State) : Host.Outcome State Fault Refusal :=
  let s := s.tickTo dt
  done (match s.ecc[mix mem].writeBack with
    | [] => s
    | a :: l =>
      let s := s.mm mem fun e => { e with writeBack := l }
      if written then s.memWrite mem a
      -- the write-back repairs only what it corrected
      else if symCount (s.badSyms mem a) ≤ 1 then s.setBad mem a 0 else s)

/-- What the engines, the station engines, the ring engine and the surveyor do with one word that holds an error in a tick: the
spec gives no layout inside the regions of Table 1-10, so free values say whether the word is read and whether it is written
(DESIGN CHOICE, log entry 24). The program store is read by its contexts alone. -/
def State.memTouch (s : State) (m : Mem) (a : Nat) : State :=
  if m == .motion && motionRow a == 3 then s
  else
    let v := Config.freeValue s.free
    let s := s.useFree
    let s := if v.getLsbD 0 then s.memRead m a false none else s
    if v.getLsbD 1 then s.memWrite m a else s

/-- The functional accesses of a tick to the words that hold an error (R35, R36). -/
def State.memWork (s : State) : State :=
  let s := s.ecc[mix .motion].bad.foldl (fun s e => s.memTouch .motion e.1) s
  if s.gb MG_SV_STAT_HALTED then s else s.ecc[mix .mgmt].bad.foldl (fun s e => s.memTouch .mgmt e.1) s

/-- An injection: one or two symbols of the addressed word are inverted (R39). DESIGN CHOICE (log entry 51): in a word that
already holds an error the inversion adds to the symbols inverted before, and the injection's own read neither corrects nor counts. -/
def State.injectWord (s : State) (w : Nat) : State :=
  let m : Mem := if bit w 15 then .mgmt else .motion
  let a := bits w 0 15
  let y := if bit w 26 && bits w 21 5 != bits w 16 5 then 2 ^ bits w 21 5 else 0
  s.setBad m a ((s.badSyms m a) ^^^ (2 ^ bits w 16 5 + y))

/-- A write of DEV_MEM_INJ names a word and symbols that exist (R39). -/
def injOk (w : Nat) : Bool :=
  decide (bits w 16 5 ≤ 19) && decide (bits w 21 5 ≤ 19) && decide (bits w 0 15 < memWords (if bit w 15 then .mgmt else .motion))

/-- Set bits of a number below 2^8. -/
def ones8 (x : Nat) : Nat := (List.range 8).foldl (fun k i => k + b2n (bit x i)) 0

/-! ## The arbiter stack (R41 to R44) -/

/-- The next requester after `last` in round-robin order among `k`, `req` telling who asks. -/
def roundRobin (k last : Nat) (req : Nat → Bool) : Option Nat :=
  ((List.range k).map fun i => (last + 1 + i) % k).find? req

/-- The device arbiter's requesters with a request: a station with a requesting engine, the port with a requesting user. -/
def devReq (act sp : Nat) (q : Nat) : Bool :=
  if q = 0 then decide (act % 16 ≠ 0) else if q = 1 then decide (act / 16 ≠ 0) else decide (sp ≠ 0)

/-- The credits after a refill (R43). -/
def ArbSt.refill (b : ArbSt) : ArbSt :=
  { b with credits := (List.range 3).map fun q => min (b.credits.getD q 0 + b.w.getD q 0) (2 * b.w.getD q 0) }

/-- The device arbiter's choice: plain round-robin in strict-level mode (R42), deficit round-robin in flattened mode, where
credits are refilled once no credited requester asks (R43). -/
def ArbSt.choose (b : ArbSt) (strict : Bool) (req : Nat → Bool) : ArbSt × Option Nat :=
  if strict then (b, roundRobin 3 b.last req)
  else
    let pick := fun (b : ArbSt) => roundRobin 3 b.last fun q => req q && decide (b.credits.getD q 0 > 0)
    match pick b with
    | some q => (b, some q)
    | none => (b.refill, pick b.refill)

/-- One cycle: the chosen class takes a credit, and its own round-robin names the engine or port user (R41). -/
def ArbSt.grant (b : ArbSt) (strict : Bool) (act sp : Nat) : ArbSt :=
  match b.choose strict (devReq act sp) with
  | (b, none) => b
  | (b, some q) =>
    let inner := if q < 2 then roundRobin 4 (b.rr.getD q 0) fun i => bit act (4 * q + i)
      else roundRobin 3 (b.rr.getD 2 0) fun i => bit sp i
    let i := inner.getD 0
    let who := if q < 2 then 4 * q + i else 8 + i
    { b with
      credits := if strict then b.credits else b.credits.set q (b.credits.getD q 0 - 1),
      last := q, rr := b.rr.set q i, grants := b.grants.set who (b.grants.getD who 0 + 1) }

/-- `k` cycles in which the requesters `act` and `sp` ask without a break. -/
def ArbSt.cycles (strict : Bool) (act sp : Nat) : Nat → ArbSt → ArbSt
  | 0, b => b
  | k + 1, b => ArbSt.cycles strict act sp k (b.grant strict act sp)

/-- ARB_WEIGHT_UPDATE: one 64-cycle window has ended. `act` has a bit per axis engine that asserted a request in it, `sp` per
surveyor-port requester; `wait` is the longest completion granted in it. Its grants are made as R41 to R43 say, each of those
requesters asking throughout the window (DESIGN CHOICE, log entry 52); then the weights are recomputed (R43). -/
def execArbWeightUpdate (dt : Nat) (act : BitVec 8) (sp : BitVec 3) (wait : BitVec 8) (s : State) :
    Host.Outcome State Fault Refusal :=
  let s := s.tickTo dt
  let a0 := ones8 (act.toNat % 16)
  let a1 := ones8 (act.toNat / 16)
  let p := ones8 sp.toNat
  done (if !s.flOn then s else
    let s := ((s.put DEV_ARB_STAT_ACT_S0 a0).put DEV_ARB_STAT_ACT_S1 a1).put DEV_ARB_STAT_ACT_SP p
    let s := s.maxPut DEV_ARB_STAT_MAXWAIT wait.toNat
    let b := ArbSt.cycles (s.gb DEV_ARB_STAT_MODE_ACT) act.toNat sp.toNat 64 { s.arb with grants := List.replicate 11 0 }
    { s with arb := { b with w := [a0, a1, if p = 0 then 0 else 1] } })

end Sys2Proof.Machine
end

