-- ==== Sys2Proof/Machine/Image.lean ====
section
/-!
DEFINITION. What a configuration image and a firmware package hold and when they are valid (R431 to R439, R460). A package is
read through a function from its byte offsets to its bytes, so that a slot and a package with a withheld first word are read
alike.
-/

namespace Sys2Proof.Machine

/-- The bytes of a package by offset. -/
abbrev Rd := Nat → Nat

/-- `k` bytes from offset `o`. -/
def Rd.bytes (r : Rd) (o k : Nat) : List Nat := (List.range k).map fun i => r (o + i)

/-- The big-endian number in `k` bytes from offset `o`. -/
def Rd.be (r : Rd) (o k : Nat) : Nat := ofBytes (r.bytes o k)

/-- A byte of the flash; an erased byte reads 0xFF. -/
def State.flashByte (s : State) (a : Nat) : Nat := (kvGet s.flash a 0xFF).toNat

/-- The bytes of image slot `x` (R431). -/
def State.imgSlot (s : State) (x : Nat) : Rd := fun o => s.flashByte (0x200000 * x + o)

/-- The bytes of a firmware slot. -/
def FwSlot.rd (f : FwSlot) : Rd := fun o => (kvGet f.bytes o 0xFF).toNat

/-! ## Header (Table 15-4) -/

/-- A slot is present: MAGIC and HDRCRC are right (R434). -/
def Rd.present (r : Rd) : Bool := r.be 0 4 == 0x46454E55 && crc32 (r.bytes 0 48 ++ r.bytes 0x34 8) == r.be 0x3C 4
/-- The slot is revoked (Table 15-4). -/
def Rd.revoked (r : Rd) : Bool := r.be 0x30 4 != 0xFFFFFFFF
/-- SIGNED. -/
def Rd.signed (r : Rd) : Bool := bit (r.be 6 2) 0
/-- IMGVER, or VERSION of a firmware package. -/
def Rd.ver (r : Rd) : Nat := r.be 8 4
/-- SEQ. -/
def Rd.seq (r : Rd) : Nat := r.be 0x0C 4
/-- LENGTH. -/
def Rd.len (r : Rd) : Nat := r.be 0x10 4
/-- NSECT. -/
def Rd.nsect (r : Rd) : Nat := r.be 0x14 2

/-! ## Sections (R433) -/

/-- A section: type, index, offset of its payload, payload length. -/
structure Sect where
  typ : Nat
  idx : Nat
  off : Nat
  len : Nat
  deriving DecidableEq, Repr

/-- `k` sections back to back from `o`, or none where they do not lie inside the package and end exactly at `stop`. -/
def Rd.sects (r : Rd) (stop : Nat) : Nat → Nat → Option (List Sect)
  | 0, o => if o = stop then some [] else none
  | k + 1, o =>
    let n := r.be (o + 4) 4
    if o + 16 + n ≤ stop && n % 4 == 0 then
      match r.sects stop k (o + 16 + n) with
      | some l => some ({ typ := r.be o 2, idx := r.be (o + 2) 2, off := o + 16, len := n } :: l)
      | none => none
    else none

/-- The sections of an image. -/
def Rd.sections (r : Rd) : Option (List Sect) := r.sects r.len r.nsect 64

/-- Payload of a section. -/
def Rd.payload (r : Rd) (x : Sect) : List Nat := r.bytes x.off x.len

/-- The CRC of a section's payload is right. -/
def Rd.sectCrc (r : Rd) (x : Sect) : Bool := crc32 (r.payload x) == r.be (x.off - 8) 4

/-- One register entry: K, I, address, data (R437). -/
structure Entry where
  k : Bool
  i : Bool
  addr : Nat
  data : Nat
  deriving DecidableEq, Repr

/-- The entries of a section. -/
def Rd.entries (r : Rd) (x : Sect) : List Entry :=
  (List.range (x.len / 8)).map fun j =>
    let o := x.off + 8 * j
    { k := bit (r o) 0, i := bit (r o) 1, addr := r.be (o + 1) 3, data := r.be (o + 4) 4 }

/-- A direct address that FL_REGS may name (R437). -/
def flPermitted (a : Nat) : Bool :=
  ((0x80 ≤ a && a ≤ 0x13F) || (0x1C0 ≤ a && a ≤ 0xFFF)) && a != 0x100 &&
  !(a < 0x104 && 0x80 ≤ a && (a - 0x80) % 12 ≤ 4) &&
  !(0x104 ≤ a && a < 0x140 && (a - 0x104) % 12 == 6) && !(0x200 ≤ a && a < 0x280 && a % 16 == 0)

/-- A direct address that KA_REGS may name. -/
def kaPermitted (a : Nat) : Bool := (a ≤ 0x7F || (0x140 ≤ a && a ≤ 0x1BF)) && !(0x20 ≤ a && a ≤ 0x3F)

/-- An indirect address that KA_REGS may name. -/
def kaIndPermitted (a : Nat) : Bool := a ≤ 0xFF || (0x400 ≤ a && a ≤ 0x41F)

/-- The entry may stand in a section of type `t`, and its first byte is well formed (R437). -/
def entryOk (t : Nat) (b0 : Nat) (e : Entry) : Bool :=
  b0 < 4 && (if t = 1 then (if e.i then kaIndPermitted e.addr else kaPermitted e.addr) else !e.i && flPermitted e.addr)

/-- The content of a section meets R437 to R439 and Table 15-5. -/
def Rd.sectOk (r : Rd) (x : Sect) : Bool :=
  if bit x.typ 15 then true
  else match x.typ with
  | 1 | 2 =>
    x.idx == 0 && x.len % 8 == 0 &&
      ((r.entries x).zipIdx).all fun e => entryOk x.typ (r (x.off + 8 * e.2)) e.1
  | 3 =>
    let m := r.be x.off 4
    x.idx < 8 && x.len == 260 && m < 128 &&
      (List.range 7).all fun i => !bit m i || recRange ((r.bytes (x.off + 4) 256).map fun y => BitVec.ofNat 8 y) i
  | 4 => x.idx == 0 && 4 ≤ x.len && (x.len - 4) % 8 == 0 && r.be x.off 4 + (x.len - 4) / 8 ≤ 4096 && r.be x.off 4 ≤ 4095
  | 5 => x.idx < 4 && x.len == 4 && bits (r.be x.off 4) 12 18 == 0
  | 6 => x.idx < 2 && x.len == 4 && r.be x.off 2 == 0
  | _ => false

/-! ## Signatures (R435, R460) -/

/-- A signature payload (64 bytes of key, 64 of signature) verifies over `msg` under a key that `known` accepts. -/
def sigOk (pay msg : List Nat) (known : List Nat → Bool) : Bool :=
  let key := pay.take 64
  known key && ecdsaOk key (sha256 msg) (pay.drop 64)

/-- The sealed update-key hashes in force. -/
def Opts.keyHashes (o : Opts) : List (List Nat) := o.hashes.filterMap fun h => h.map nats

/-- A key whose hash is sealed. -/
def Opts.knows (o : Opts) (key : List Nat) : Bool := o.keyHashes.contains (sha256 key)

/-- The bytes that an image's signature covers: REVOKE taken as live (R435). -/
def Rd.signedBytes (r : Rd) : List Nat := r.bytes 0 0x30 ++ [255, 255, 255, 255] ++ r.bytes 0x34 (r.len - 0x34)

/-- The signature conditions of R435 for a slot of `room` bytes. -/
def Rd.imgSig (r : Rd) (o : Opts) (room : Nat) : Bool :=
  let sealed_ := !o.keyHashes.isEmpty
  if r.signed then
    let x : Sect := { typ := r.be r.len 2, idx := r.be (r.len + 2) 2, off := r.len + 16, len := r.be (r.len + 4) 4 }
    r.len + 144 ≤ room && x.typ == 0xFF && x.idx == 0 && x.len == 128 && r.sectCrc x &&
      (!sealed_ || sigOk (r.payload x) r.signedBytes o.knows)
  else !sealed_

/-- Header and content of a valid image (R434). -/
def Rd.imgContent (r : Rd) (rev : Nat) (room : Nat) : Bool :=
  r.be 4 2 == 1 && r.be 0x16 2 == 0x8640 && r.be 0x18 1 ≤ rev && 1 ≤ r.nsect && r.nsect ≤ 1024 && r.len ≤ room &&
  (match r.sections with
    | some l => l.all fun x => r.sectCrc x && r.sectOk x
    | none => false)

/-- A valid image (R434). -/
def Rd.imgValid (r : Rd) (o : Opts) (rev : Nat) (room : Nat) : Bool := r.imgContent rev room && r.imgSig o room

/-- Header of a valid firmware package (R460). -/
def Rd.fwHeader (r : Rd) (rev : Nat) : Bool :=
  r.be 0 4 == 0x53555256 && crc32 (r.bytes 0 60) == r.be 0x3C 4 && r.be 0x16 2 == 0x8640 && r.be 0x18 1 ≤ rev &&
  r.len + 128 ≤ 393216

/-- Its signature (R460). -/
def Rd.fwSig (r : Rd) (o : Opts) : Bool :=
  sigOk (r.bytes r.len 128) (r.bytes 0 r.len) fun k => ofBytes k == Config.factoryKey.toNat || o.knows k

/-- A valid firmware package (R460). -/
def Rd.fwValid (r : Rd) (o : Opts) (rev : Nat) : Bool := r.fwHeader rev && r.fwSig o

/-! ## Selection (R434) -/

/-- What validating the flash gives: no usable slot present, every present one invalid, or the slot used. -/
inductive ImgPick where
  | noImage
  | invalid
  | slot (x : Nat)
  deriving DecidableEq, Repr

/-- Present, unrevoked slots, the candidate first: the higher SEQ, slot A where they are equal (R434). -/
def State.imgOrder (s : State) : List Nat :=
  let live := fun x => (s.imgSlot x).present && !(s.imgSlot x).revoked
  if live 0 && live 1 then (if (s.imgSlot 1).seq > (s.imgSlot 0).seq then [1, 0] else [0, 1])
  else if live 0 then [0] else if live 1 then [1] else []

/-- The image that a start uses, by the flash's identification (R124, R431, R434). -/
def State.imgPick (s : State) (id : Nat) : ImgPick :=
  if id = 0 || id = 0xFFFFFF || id % 256 < 22 then .noImage
  else match s.imgOrder with
    | [] => .noImage
    | l => match l.find? fun x => (s.imgSlot x).imgValid s.boot.opts (s.g DEV_REV_REV) 0x200000 with
      | some x => .slot x
      | none => .invalid

/-! ## Status words of the flash and the firmware slots (Table 16-10) -/

/-- MG_UPD_IMG, MG_UPD_IMGST and the firmware words follow the stores. -/
def State.slotStat (s : State) : State :=
  let img := fun (s : State) (x : Nat) =>
    let r := s.imgSlot x
    let s := s.put (MG_UPD_IMG_SEQ x) (if r.present then r.seq else 0)
    (s.putBit MG_UPD_IMGST_PRESENT x r.present).putBit MG_UPD_IMGST_REVOKED x (r.present && r.revoked)
  let s := img (img s 0) 1
  let s := s.putB MG_UPD_IMGST_TRIAL s.nvm.imgTrial.isSome
  let s := s.put MG_UPD_IMGST_TRIAL_SLOT ((s.nvm.imgTrial.map (·.1)).getD 0)
  forFin 2 (fun x s =>
    let f := s.nvm.fw[x]
    let s := ((s.put (MG_UPD_FW_VERSION x) f.version).put (MG_UPD_FW_STATE x) f.state).put (MG_UPD_FWSEQ_SEQ x) f.seq
    s.putB (MG_UPD_FW_LAST x) (s.nvm.lastFw == x.val)) s

end Sys2Proof.Machine
end

