-- ==== Sys2Proof/Machine/Surveyor.lean ====
section
/-!
DEFINITION. The surveyor (R447 to R471): its sensors, the field clock, the field book's NVM, sealed settings and the update
path. A command written to an MG_ register reaches the functions here when its write leaves the indirect queue.
-/

namespace Sys2Proof.Machine

open Host

/-! ## Sensors and the field clock (R449, R450) -/

/-- `VBAK_OK` and EV_VBAK_LOW from a reading of VBAK (R84). -/
def State.vbakRead (s : State) (mv : Nat) : State :=
  let s := if mv ≥ 4500 then (s.put PWR_STAT_VBAK_OK 1).pw fun p => { p with vbakSet := true }
    else if mv < 4300 then s.put PWR_STAT_VBAK_OK 0 else s
  let low := decide (mv < 3000)
  let s := if low && !s.power.vbakLow && s.power.vbakSet then s.pulse 14 0 (mv20 mv) else s
  s.pw fun p => { p with vbakLow := low }

/-- VLINK qualifies for full logic from 18.0 V up, until it falls below 17.0 V (Table 3-2). -/
def State.vlinkRead (s : State) (mv : Nat) : State :=
  let s := (s.put MG_VSUP_VLINK mv).put LNK_GR_PWR_VLINK mv
  let s := if mv ≥ 12000 then s.put PWR_STAT_LINK_OK 1 else if mv < 10500 then s.put PWR_STAT_LINK_OK 0 else s
  if mv ≥ 18000 then s.put LNK_GR_STAT_FL_QUAL 1 else if mv < 17000 then s.put LNK_GR_STAT_FL_QUAL 0 else s

/-- KA_MONITOR_READING: the keep-alive converter's readings, every 1 ms (R449, Table 16-1). -/
def execKaMonitorReading (dt : Nat) (t6 t7 vlink vbak : BitVec 16) (ilink : BitVec 12) (s : State) :
    Outcome State Fault Refusal :=
  let s := s.tickTo dt
  done (if !s.surveyorUp then s else
    let a := Config.kaTemp 6 t6
    let b := Config.kaTemp 7 t7
    let s := (s.put (MG_TEMP_T_EVEN 3) a.toNat).put (MG_TEMP_T_ODD 3) b.toNat
    let s := (s.tempCheck 6 a.toInt).tempCheck 7 b.toInt
    let s := (s.vlinkRead vlink.toNat).put LNK_GR_PWR_ILINK ilink.toNat
    (s.put MG_VSUP_VBAK vbak.toNat).vbakRead vbak.toNat)

/-- A write of MG_FCLK sets the seconds, zeroes the milliseconds and sets SYNC (R450). -/
def State.fclkSet (s : State) (secs : Nat) : State :=
  (s.su fun v => { v with fcMs := secs * 1000, fcAt := s.now }).put MG_FCLK_STAT_SYNC 1

/-! ## The field book's NVM (R451 to R457) -/

/-- Bytes 0 to 27 of record number `k` (Table 16-2). -/
def FbRec.body (r : FbRec) (k : Nat) : List Nat :=
  beBytes 4 k ++ beBytes 4 r.secs ++ beBytes 2 r.ms ++ [r.typ, r.flags, r.src, r.state] ++ beBytes 2 r.hseq ++
  (r.payload ++ List.replicate 12 0).take 12

/-- The words of a record with its CRC (R451). -/
def FbRec.words (r : FbRec) (k : Nat) : List Nat :=
  let b := r.body k
  (List.range 7).map (fun i => ofBytes ((b.drop (4 * i)).take 4)) ++ [crc32 b]

/-- First word of record number `k` in the book (R452). -/
def fbSlot (k : Nat) : Nat := (k - 1) % 4096 * 8

/-- Words of the book from `a` on replaced. -/
def Nvm.fbPut (m : Nvm) (a : Nat) (ws : List Nat) : Nvm :=
  { m with fb := (ws.zipIdx).foldl (fun f x => kvSet f (a + x.2) (W x.1) 0xFFFFFFFF) m.fb }

/-- The sector of record number `k` is erased before its first slot is written; its wear is counted (R452, R457). -/
def State.fbErase (s : State) (k : Nat) : State :=
  let sec := (k - 1) % 4096 / 128
  let s := s.nv fun m => { m with fb := kvDrop m.fb fun a => 1024 * sec ≤ a && a < 1024 * sec + 1024 }
  let s := s.nv fun m => { m with wear := kvSet m.wear sec (W (satU 17 ((kvGet m.wear sec 0).toNat + 1))) 0 }
  let n := (kvGet s.nvm.wear sec 0).toNat
  let s := s.put (MG_FB_WEAR_ERASES sec) n
  let s := s.put MG_FB_OLD_OLD (if k ≤ 3968 then 1 else k - 3968)
  if n ≥ 90000 && !s.surv.wearDone then
    ((s.su fun v => { v with wearDone := true }).put MG_FB_STAT_WEAR 1).pulse 52 0 0
  else s

/-- A record is written whole as the next record of the book. -/
def State.fbStore (s : State) (r : FbRec) : State :=
  let k := s.nvm.fbNext
  let s := if (k - 1) % 128 = 0 then s.fbErase k else s
  let s := s.nv fun m => { m.fbPut (fbSlot k) (r.words k) with fbNext := k + 1 }
  let s := s.put MG_FB_HEAD_HEAD k
  if s.g MG_FB_OLD_OLD = 0 then s.put MG_FB_OLD_OLD k else s

/-- Once the queue has room, the record of what it lost (R453, R457). -/
def State.fbLost (s : State) : State :=
  let n := s.surv.lostSince
  if n = 0 || s.surv.fbQ.length ≥ 64 || !s.surveyorUp then s
  else ((s.su fun v => { v with lostSince := 0 }).fbAdd 0x06 (beBytes 2 (min n 65535))).pulse 52 0 1

/-- FIELD_BOOK_WRITE_DONE: the record at the head of the queue is complete (R453), also while the hold-up lasts (R85). -/
def execFieldBookWriteDone (dt : Nat) (s : State) : Outcome State Fault Refusal :=
  let s := s.tickTo dt
  done (if !s.surveyorRuns then s else
    match s.surv.fbQ with
    | [] => s
    | r :: t => ((s.fbStore r).su fun v => { v with fbQ := t }).fbLost)

/-- MG_FB_STAT.CLR: LOST and TORN (Table 16-8). -/
def State.fbClr (s : State) : State := (s.clrCnt MG_FB_STAT_LOST).clrCnt MG_FB_STAT_TORN

/-- MG_MW_STAT.CLR: SKIP and ABANDON (Table 16-8). -/
def State.mwClr (s : State) : State := (s.clrCnt MG_MW_STAT_SKIP).clrCnt MG_MW_STAT_ABANDON

/-! ## Sealed settings (R458, R459) -/

/-- Value words of a setting (Table 16-4). -/
def sealWords (k : Nat) : Nat := match k with
  | 3 => 4 | 4 => 8 | 5 => 8 | 6 => 8 | 7 => 4 | _ => 1

/-- The value of Table 4-3 of a setting, in words. -/
def sealDefault (k : Nat) : List Nat := match k with
  | 0 => [16] | 1 => [0] | 2 => [61000] | 3 => List.replicate 4 (1500 + 1500 * 65536) | _ => List.replicate (sealWords k) 0

/-- The slots of a setting. -/
def Otp.of (o : Otp) (k : Nat) : List (Option (List Nat)) := o.slots.getD k []

/-- The slot in force of a setting, with its value: the last one with a valid marker (R458). -/
def Otp.inForce (o : Otp) (k : Nat) : Option (Nat × List Nat) :=
  ((o.of k).zipIdx).foldl (fun r x => match x.1 with
    | some v => some (x.2, v)
    | none => r) none

/-- The value in force of a setting: that of its slot in force, or of Table 4-3 (R458; log entry 40). -/
def Otp.value (o : Otp) (k : Nat) : List Nat := ((o.inForce k).map (·.2)).getD (sealDefault k)

/-- Blank slots of a setting. -/
def Otp.remain (o : Otp) (k : Nat) : Nat := 16 - (o.of k).length

/-- A slot of a setting used. -/
def Otp.use (o : Otp) (k : Nat) (v : Option (List Nat)) : Otp :=
  { o with slots := o.slots.zipIdx.map fun x => if x.2 = k then x.1 ++ [v] else x.1 }

/-- The bytes of value words, word 0 first. -/
def wordBytes (l : List Nat) : List Nat := l.flatMap (beBytes 4)

/-- A SHA-256 hash from its words; all zeros is none (Table 16-4). -/
def sealBytes (l : List Nat) : Option (List Byte) :=
  if l.all (· == 0) then none else some ((wordBytes l).map fun x => BitVec.ofNat 8 x)

/-- The eight ceilings of a value. -/
def sealCeil (l : List Nat) : List Nat := l.flatMap fun w => [w % 65536, w / 65536 % 65536]

/-- A value lies in Table 16-4 and its unused bits are 0 (R458). -/
def sealInRange (k : Nat) (l : List Nat) : Bool :=
  let v := l.getD 0 0
  match k with
  | 0 => 1 ≤ v && v ≤ 16
  | 1 => v % 4 ≤ 2 && v / 4 % 64 == 0 && v / 512 == 0
  | 2 => 12000 ≤ v && v ≤ 61000
  | 3 => (sealCeil l).all fun c => 100 ≤ c && c ≤ 6000
  | _ => true

/-- MG_SEAL_SLOTk and MG_SEAL_CURk_w follow the OTP; the key never shows (Table 16-9). -/
def State.sealStat (s : State) : State :=
  (List.range 8).foldl (fun s k =>
    let f := s.otp.inForce k
    let s := s.put (MG_SEAL_SLOT_REMAIN k) (s.otp.remain k)
    let s := (s.put (MG_SEAL_SLOT_INFORCE k) ((f.map (·.1)).getD 0)).putB (MG_SEAL_SLOT_NONE k) f.isNone
    let v := if k = 7 then [] else (f.map (·.2)).getD []
    (List.range 8).foldl (fun s w => s.put (MG_SEAL_CUR_CUR k w) (v.getD w 0)) s) s

/-- The SEALED record's value words: the value, or the CRC-32 of its bytes where it is longer than one word (Table 16-3). -/
def sealRecVal (k : Nat) (v : List Nat) : Nat := if sealWords k = 1 then v.getD 0 0 else crc32 (wordBytes v)

/-- A sealed-setting command completes: result, record and event (R459). -/
def State.sealEnd (s : State) (q : SealReq) (slot res : Nat) (old : List Nat) : State :=
  let s := ((s.put MG_SEAL_STAT_BUSY 0).put MG_SEAL_STAT_RESULT res).put MG_SEAL_STAT_ID_LAST q.id
  let s := s.fbAddFrom q.src q.hseq 0x30 ([q.id, slot, s.otp.remain q.id, res] ++ beBytes 4 (sealRecVal q.id old)
    ++ beBytes 4 (sealRecVal q.id q.val))
  s.pulse 53 0 (q.id + 8 * res)

/-- The first check of Table 16-5 that a change fails. -/
def State.sealCheck (s : State) (id expect : Nat) (v : List Nat) : Option Nat :=
  if !(s.dev.rr || s.dev == .safe) then some 8
  else if !sealInRange id v then some 3
  else if expect ≠ s.otp.remain id then some 4
  else if s.otp.remain id = 0 then some 5
  else if v = s.otp.value id then some 6
  else none

/-- A keyed MG_SEAL_CTL.GO is carried out (R459). -/
def State.sealGo (s : State) (src hseq : Nat) : State :=
  if s.gb MG_SEAL_STAT_BUSY then s
  else
    let id := s.g MG_SEAL_CTL_ID
    let v := (List.range (sealWords id)).map fun w => s.g (MG_SEAL_VAL_VAL w)
    let q : SealReq := { id := id, val := v, src := src, hseq := hseq }
    match s.sealCheck id (s.g MG_SEAL_CTL_EXPECT) v with
    | some r => s.sealEnd q 0xFF r (s.otp.value id)
    | none => (s.put MG_SEAL_STAT_BUSY 1).su fun x => { x with sealing := some q }

/-- The over-voltage limit takes force; DUMP_ON is clamped in the same instant (R68, R458). -/
def State.ovForce (s : State) (mv : Nat) : State :=
  let s := s.put PWR_VM_AUX_OV_LIM mv
  s.put PWR_VM_CFG_DUMP_ON (s.clampVal 0x141 0 (s.g PWR_VM_CFG_DUMP_ON))

/-- A newly programmed value takes force as Table 16-4 says. -/
def State.sealForce (s : State) (id : Nat) (v : List Nat) : State :=
  match id with
  | 2 => (s.bt fun b => { b with opts := { b.opts with ovLim := v.getD 0 0 } }).ovForce (v.getD 0 0)
  | 3 => s.su fun x => { x with ceilDue := some (sealCeil v) }
  | 4 | 5 | 6 => s.bt fun b => { b with opts := { b.opts with hashes := b.opts.hashes.set (id - 4) (sealBytes v) } }
  | _ => s.put (MG_SEAL_SLOT_RESET_DUE id) 1

/-- SEAL_PROGRAM_DONE: the slot is programmed and verified, or the programming failed and the slot is consumed (R459). -/
def execSealProgramDone (dt : Nat) (ok : Bool) (s : State) : Outcome State Fault Refusal :=
  let s := s.tickTo dt
  done (match s.surv.sealing with
    | none => s
    | some q =>
      if !s.surveyorUp then s
      else
        let old := s.otp.value q.id
        let slot := (s.otp.of q.id).length
        let s := ({ s with otp := s.otp.use q.id (if ok then some q.val else none) }).sealStat
        let s := s.su fun x => { x with sealing := none }
        let s := if ok then s.sealForce q.id q.val else s
        s.sealEnd q slot (if ok then 1 else 7) old)

/-- Sealed ceilings take force at a tick mark (Table 16-4). -/
def State.ceilTick (s : State) : State :=
  match s.surv.ceilDue with
  | none => s
  | some l => (s.bt fun b => { b with opts := { b.opts with ceil := l } }).su fun x => { x with ceilDue := none }

/-! ## The update path (R464 to R468) -/

/-- Firmware chunks are staged in flash (R464). -/
def State.updStaging (s : State) : Bool :=
  let id := s.boot.flashId
  id != 0 && id != 0xFFFFFF && 23 ≤ id % 256

/-- An image can be written: the flash holds both slots (R431). -/
def State.imgStore (s : State) : Bool :=
  let id := s.boot.flashId
  id != 0 && id != 0xFFFFFF && 22 ≤ id % 256

/-- The destination of the open update: slot A or B. -/
def State.updDest (s : State) : Fin 2 := ⟨s.g MG_UPD_STAT_DEST, by simp [State.g, MG_UPD_STAT_DEST, bits]; omega⟩

/-- Its size in bytes. -/
def State.updRoom (s : State) : Nat := if s.gb MG_UPD_STAT_TGT_ACT then 0x200000 else 393216

/-- Flash address at which the open update's bytes lie, where they lie in flash. -/
def State.updBase (s : State) : Option Nat :=
  if s.gb MG_UPD_STAT_TGT_ACT then some (0x200000 * s.g MG_UPD_STAT_DEST)
  else if s.gb MG_UPD_STAT_STAGED then some 0x400000 else none

/-- A byte of the package as programmed, the kept first word in its place (R466). -/
def State.updRd (s : State) : Rd := fun o =>
  match s.surv.upd.first with
  | some w => if o < 4 then bits w.toNat (8 * (3 - o)) 8 else
    match s.updBase with
    | some a => s.flashByte (a + o)
    | none => s.nvm.fw[s.updDest].rd o
  | none =>
    match s.updBase with
    | some a => s.flashByte (a + o)
    | none => s.nvm.fw[s.updDest].rd o

/-- Bytes programmed from offset `o`. -/
def putBytes (m : List (Nat × Byte)) (o : Nat) (l : List Nat) : List (Nat × Byte) :=
  (l.zipIdx).foldl (fun m x => kvSet m (o + x.2) (BitVec.ofNat 8 x.1) 0xFF) m

/-- A firmware slot changed. -/
def State.fwSlot (s : State) (x : Fin 2) (f : FwSlot → FwSlot) : State := s.nv fun m => { m with fw := vupd m.fw x f }

/-- Bytes of the open update programmed from offset `o`. -/
def State.updPut (s : State) (o : Nat) (l : List Nat) : State :=
  match s.updBase with
  | some a => { s with flash := putBytes s.flash (a + o) l }
  | none => s.fwSlot s.updDest fun f => { f with bytes := putBytes f.bytes o l }

/-- A range of the flash erased. -/
def State.flashErase (s : State) (a n : Nat) : State := { s with flash := kvDrop s.flash fun k => a ≤ k && k < a + n }

/-- The window's first `n` bytes, word k holding bytes 4k on, most significant first. -/
def State.windowBytes (s : State) (n : Nat) : List Nat :=
  (List.range n).map fun i => bits (kvGet s.window (i / 4) 0).toNat (8 * (3 - i % 4)) 8

/-- An operation that ends with `res`: its RESULT and EV_UPDATE (R465). -/
def State.updResult (s : State) (op res : Nat) : State :=
  ((s.put MG_UPD_STAT_BUSY 0).put MG_UPD_STAT_RESULT res).pulse 54 0 (op + 8 * res)

/-- Payload of the UPDATE record (Table 16-3): SEQ and version as the package's header holds them, 0 before they are written. -/
def State.updPayload (s : State) (u : UpdSt) (res : Nat) : List Nat :=
  let r : Rd := if u.op = 6 then s.imgSlot u.slot else s.updRd
  let has := if u.op = 6 then r.present else s.g MG_UPD_NEXT_NEXT ≥ 16
  let dest := if u.op = 6 then u.slot else s.g MG_UPD_STAT_DEST
  let tgt := if u.op = 6 || u.op = 1 then b2n u.image else s.g MG_UPD_STAT_TGT_ACT
  [tgt, u.op, dest, res] ++ beBytes 4 (if has then r.seq else 0) ++ beBytes 4 (if has then r.ver else 0)

/-- The result that VERIFY will give (Table 16-6). -/
def State.updVerify (s : State) : Nat :=
  let r := s.updRd
  let rev := s.g DEV_REV_REV
  let o := s.boot.opts
  let low := fun (used : Bool) (seq : Nat) => s.dev != .recovery && used && r.seq ≤ seq
  if s.gb MG_UPD_STAT_TGT_ACT then
    if !(r.present && !r.revoked && r.imgContent rev 0x200000) then 7
    else if !r.imgSig o 0x200000 then 8
    else if low s.boot.imgOk (s.imgSlot s.boot.imgSlot).seq then 9 else 1
  else
    if !r.fwHeader rev then 7
    else if !r.fwSig o then 8
    else if low s.boot.fwRunning (s.nvm.fw[(⟨s.nvm.lastFw % 2, by omega⟩ : Fin 2)]).seq then 9 else 1

/-- A trial pends that is not in the open update's destination (Table 16-6; log entry 41). -/
def State.otherTrial (s : State) : Bool :=
  let tgt := s.gb MG_UPD_STAT_TGT_ACT
  let d := s.g MG_UPD_STAT_DEST
  (List.finRange 2).any (fun x => s.nvm.fw[x].state == 2 && (tgt || x.val != d)) ||
  (match s.nvm.imgTrial with
    | some (x, _) => !tgt || x != d
    | none => false)

/-- The result that a WRITE will give (R467): 1 where it programs or finds the chunk already programmed. -/
def State.updChunk (s : State) (ofs len : Nat) : Nat :=
  let next := s.g MG_UPD_NEXT_NEXT
  let crc := s.g MG_UPD_CRC_CRC
  if ofs % 4 ≠ 0 || len % 4 ≠ 0 || len < 4 || len > 4096 || ofs + len > s.updRoom then 4
  else if ofs = next then (if crc32 (s.windowBytes len) = crc then 1 else 5)
  else if ofs + len ≤ next then (if crc32 (s.updRd.bytes ofs len) = crc then 1 else 5)
  else 4

/-- An operation begins, to end with `res` unless the store fails. -/
def State.updStart (s : State) (u : UpdSt) (res : Nat) : State :=
  (s.put MG_UPD_STAT_BUSY 1).su fun v => { v with upd := { u with first := v.upd.first, res := res } }

/-- MG_UPD_CTL.GO is carried out (R465, Table 16-6). -/
def State.updGo (s : State) (src hseq : Nat) (key : Bool) : State :=
  let op := s.g MG_UPD_CTL_OP
  let st := s.g MG_UPD_STAT_STATE
  let img := s.gb MG_UPD_CTL_TARGET
  let len := s.g MG_UPD_LEN_LEN
  let u : UpdSt := {
    first := none, op := op, image := img, slot := s.g MG_UPD_CTL_SLOT, ofs := s.g MG_UPD_OFS_OFS, chunk := [], src := src,
    hseq := hseq, res := 1 }
  if s.gb MG_UPD_STAT_BUSY || op = 0 || op = 7 then s
  else if !key && (op = 1 || op = 4 || op = 6) then s.updResult op 3
  else if !(s.dev.rr || s.dev == .safe || s.dev == .recovery) then s.updResult op 2
  else match op with
  | 1 =>
    if st ≠ 0 then s.updResult op 2
    else
      let stg := !img && s.updStaging
      let dest := if img then 1 - s.g DEV_BOOTSTAT_IMG_SLOT else 1 - s.g DEV_BOOTSTAT_FW_SLOT
      let s := (s.putB MG_UPD_STAT_TGT_ACT img).putB MG_UPD_STAT_STAGED stg
      let s := (s.put MG_UPD_STAT_DEST dest).put MG_UPD_NEXT_NEXT 0
      let s := s.su fun v => { v with upd := { v.upd with first := none } }
      let s := if !img && !stg then (s.fwSlot s.updDest fun _ => FwSlot.empty).slotStat else s
      s.updStart u (if img && !s.imgStore then 6 else 1)
  | 2 =>
    if st ≠ 1 then s.updResult op 2
    else s.updStart { u with chunk := s.windowBytes len } (s.updChunk u.ofs len)
  | 3 => if st ≠ 1 then s.updResult op 2 else s.updStart u s.updVerify
  | 4 =>
    if st ≠ 2 then s.updResult op 2
    else if s.otherTrial then s.updResult op 10
    else
      let s := if s.gb MG_UPD_STAT_STAGED then (s.fwSlot s.updDest fun _ => FwSlot.empty).slotStat else s
      s.updStart u 1
  | 5 => s.updStart u 1
  | _ => if st ≠ 0 || !img then s.updResult op 2 else s.updStart u 1

/-- The failed-start count set, in NVM and in its mirror. -/
def State.setFail (s : State) (k : Nat) : State :=
  ((s.nv fun m => { m with failcnt := k }).put DEV_BOOTSTAT_FAILCNT k).nvPulse

/-- ACTIVATE takes effect (R468): the first word is programmed and the trial begins. -/
def State.updActivate (s : State) : State :=
  let d := s.updDest
  let r := s.updRd
  let head := r.bytes 0 4
  let s :=
    if s.gb MG_UPD_STAT_TGT_ACT then
      (s.updPut 0 head).nv fun m => { m with imgTrial := some (d.val, r.seq) }
    else
      let body := if s.gb MG_UPD_STAT_STAGED then
          (s.flash.filter fun e => 0x400000 ≤ e.1 && e.1 < 0x460000).map fun e => (e.1 - 0x400000, e.2)
        else s.nvm.fw[d].bytes
      s.fwSlot d fun _ => { state := 2, seq := r.seq, version := r.ver % 2 ^ 24, bytes := putBytes body 0 head }
  (s.setFail 0).put MG_UPD_STAT_STATE 0

/-- An operation takes effect: the store did what it was told. -/
def State.updEffect (s : State) (u : UpdSt) : State :=
  match u.op with
  | 1 =>
    let s := match s.updBase with
      | some a => s.flashErase a (if s.gb MG_UPD_STAT_TGT_ACT then 0x200000 else 0x60000)
      | none => s
    s.put MG_UPD_STAT_STATE 1
  | 2 =>
    if u.ofs = s.g MG_UPD_NEXT_NEXT then
      let s := if u.ofs = 0 then
          (s.su fun v => { v with upd := { v.upd with first := some (W (ofBytes (u.chunk.take 4))) } }).updPut 4 (u.chunk.drop 4)
        else s.updPut u.ofs u.chunk
      s.put MG_UPD_NEXT_NEXT (u.ofs + u.chunk.length)
    else s
  | 3 => s.put MG_UPD_STAT_STATE 2
  | 4 => s.updActivate
  | 5 => (s.put MG_UPD_STAT_STATE 0).su fun v => { v with upd := { v.upd with first := none } }
  | 6 => { s with flash := putBytes s.flash (0x200000 * u.slot + 0x30) [0, 0, 0, 0] }
  | _ => s

/-- An image slot whose erase or programming failed or was cut short: whether its old bytes are still there is open
(log entry 42). -/
def State.imgTorn (s : State) : State :=
  match s.updBase with
  | some a =>
    let gone := (Config.freeValue s.free).getLsbD 0
    let s := s.useFree
    if gone then s.flashErase a 0x200000 else s
  | none => s

/-- The store failed: RESULT 6 and the counters of Table 16-11. -/
def State.updFail (s : State) (u : UpdSt) : State :=
  let inNvm := !s.gb MG_UPD_STAT_TGT_ACT && !(s.gb MG_UPD_STAT_STAGED && u.op ≠ 4)
  match u.op with
  | 1 => if inNvm then s.inc MG_NVM_CNT_EFAIL else if s.gb MG_UPD_STAT_TGT_ACT then s.imgTorn else s
  | 2 | 4 => if inNvm then s.inc MG_NVM_CNT_PFAIL else s
  | _ => s

/-- The result of an operation that the store carried out: ACTIVATE of a staged firmware package validates the copy (R468). -/
def State.updOutcome (s : State) (u : UpdSt) : Nat :=
  let r := s.updRd
  if u.op = 4 && s.gb MG_UPD_STAT_STAGED && !s.gb MG_UPD_STAT_TGT_ACT then
    if !r.fwHeader (s.g DEV_REV_REV) then 7 else if !r.fwSig s.boot.opts then 8 else u.res
  else u.res

/-- UPD_OPERATION_DONE: an operation ends; `ok` is false where NVM or flash failed (R465). -/
def execUpdOperationDone (dt : Nat) (ok : Bool) (s : State) : Outcome State Fault Refusal :=
  let s := s.tickTo dt
  done (if !s.gb MG_UPD_STAT_BUSY || !s.surveyorUp then s else
    let u := s.surv.upd
    let res := if u.res = 1 && !ok then 6 else s.updOutcome u
    let noted := u.op = 1 || u.op = 4 || u.op = 5 || u.op = 6 || (u.op = 3 && res ≠ 1)
    let pay := s.updPayload u res
    let s := if res = 1 then s.updEffect u else if res = 6 && u.res = 1 then s.updFail u else s
    let s := if noted then s.slotStat.fbAddFrom u.src u.hseq 0x31 pay else s.slotStat
    s.updResult u.op res)

end Sys2Proof.Machine
end

