-- ==== Sys2Proof/Machine/Boot.lean ====
section
/-!
DEFINITION. Resets, option load, start-up, RECOVERY and the watchdogs (R107 to R134), with what a start does to firmware,
image and field book (R454, R461 to R463). The entry to READY stands in Tick.lean, beside the tick mark it falls on.
-/

namespace Sys2Proof.Machine

open Host

/-! ## What a reset cuts short (R114, R453, R459, R466) -/

/-- An NVM or OTP operation of the surveyor's queues is in progress, so a high-voltage pulse may be. -/
def State.nvBusy (s : State) : Bool :=
  s.surveyorRuns && (!s.surv.fbQ.isEmpty || s.surv.sealing.isSome || s.gb MG_UPD_STAT_BUSY)

/-- Longest pulse that may be in progress: 50 µs where an operation that erases runs, 20 µs where words are programmed, the
failed-start count, slot states and benchmarks among them (R114). -/
def State.pulseMax (s : State) : Nat :=
  if s.nvBusy then usCyc 50 else if s.now < s.boot.pulseEnd then usCyc 20 else 0

/-- A pulse may still be in progress when a reset falls due whose RESET_N has been low for `count` RC cycles of 16 main-clock
cycles: no pulse starts after the 25th (R114). -/
def State.mayPulse (s : State) (count : Nat) : Bool := decide ((count - 25) * 16 < s.pulseMax)

/-- The record at the head of the queue is cut short: how many of its words had been programmed is open (log entry 43); a
slot with any word programmed is used (R454). -/
def State.fbCut (s : State) : State :=
  match s.surv.fbQ with
  | [] => s
  | r :: _ =>
    let j := (Config.freeValue s.free).toNat % 9
    let s := s.useFree
    let k := s.nvm.fbNext
    if j = 0 then s
    else if j = 8 then s.fbStore r
    else
      let s := if (k - 1) % 128 = 0 then s.fbErase k else s
      s.nv fun m => { m.fbPut (fbSlot k) ((r.words k).take j) with fbNext := k + 1 }

/-- A sealed change in progress leaves its slot consumed without a marker (R459). -/
def State.sealCut (s : State) : State :=
  match s.surv.sealing with
  | none => s
  | some q => { s with otp := s.otp.use q.id none }

/-- An open update closes; a destination image that was being erased, or a slot whose REVOKE was being programmed, holds what
the cut left (R468; log entry 42). -/
def State.updCut (s : State) : State :=
  let u := s.surv.upd
  let s :=
    if s.gb MG_UPD_STAT_BUSY && u.res = 1 then
      if u.op = 1 then s.imgTorn
      else if u.op = 6 then
        let hit := (Config.freeValue s.free).getLsbD 0
        let s := s.useFree
        if hit then s.updEffect u else s
      else s
    else s
  let s := (s.put MG_UPD_STAT_STATE 0).put MG_UPD_STAT_BUSY 0
  s.su fun v => { v with upd := { v.upd with first := none } }

/-- The surveyor's work is cut short by a reset or a loss of power. A halted surveyor has none in progress. -/
def State.surveyorCut (s : State) : State :=
  let s := if s.surveyorRuns then s.fbCut.sealCut.updCut else s.updCut
  (s.put MG_SEAL_STAT_BUSY 0).su fun v => { v with fbQ := [], lostSince := 0, sealing := none }

/-! ## Power-on and system reset (Table 4-1) -/

/-- Bits of PWR_STAT that are levels of the supplies and keep them through a system reset; after power-on only the clamps,
which no reset touches, are known. -/
def supplyLevels (por : Bool) : Nat := if por then 0x300 else 0x73FF

/-- Word `i` of the field book. -/
def Nvm.fbWord (m : Nvm) (i : Nat) : Nat := (kvGet m.fb i (0xFFFFFFFF : Word)).toNat

/-- Slot `j` of the book holds a valid record (R454). -/
def Nvm.fbValid (m : Nvm) (j : Nat) : Bool :=
  crc32 ((List.range 7).flatMap fun i => beBytes 4 (m.fbWord (8 * j + i))) == m.fbWord (8 * j + 7)

/-- The newest valid record at or below number `k`, 0 where there is none. `fuel` bounds the search to one book. -/
def Nvm.newest (m : Nvm) : Nat → Nat → Nat
  | 0, _ => 0
  | _, 0 => 0
  | fuel + 1, k + 1 => if m.fbValid (k % 4096) then k + 1 else m.newest fuel k

/-- Number of the newest valid record. -/
def Nvm.head (m : Nvm) : Nat := m.newest 4096 (m.fbNext - 1)

/-- Number of the oldest record held: the sector of the newest slot is the last one that was erased (R452). -/
def Nvm.oldest (m : Nvm) : Nat :=
  if m.fbNext ≤ 1 then 0
  else
    let k := (m.fbNext - 2) / 128 * 128 + 1
    if k ≤ 3968 then 1 else k - 3968

/-- Torn records held: slots with a programmed word and no valid record (R454). -/
def Nvm.torn (m : Nvm) : Nat := (((m.fb.map fun e => e.1 / 8).eraseDups).filter fun j => !m.fbValid j).length

/-- The field clock at a power-on reset: the second after the newest record's (R450). -/
def Nvm.clockFrom (m : Nvm) : Nat :=
  if m.head = 0 then 0 else (m.fbWord (8 * ((m.head - 1) % 4096) + 1) + 1) * 1000

/-- A power-on reset or a system reset: everything of Table 4-1 returns to its reset state; NVM, OTP and flash stay, with the
start of a new authentication epoch (R223). -/
def State.hardReset (s : State) (por : Bool) : State :=
  let s := s.surveyorCut
  let p := s.power
  let nvm : Nvm := { s.nvm with epoch := (s.nvm.epoch + 1) % 2 ^ 32 }
  let supply := (s.word 0x140).toNat &&& supplyLevels por
  let rc := s.word 0x11
  let sync := s.g MG_FCLK_STAT_SYNC
  let lv := s.levels.filter fun x => x.1 == 11 || (!por && (x.1 == 9 || x.1 == 10 || (x.1 == 19 && bit p.tBack x.2)))
  let pw : PowerSt :=
    if por then { PowerSt.init with
      sw := p.sw, clampAt := Vector.replicate 2 0, clampPeak := p.clampPeak, clampOn := p.clampOn }
    else { PowerSt.init with
      sw := p.sw, clampAt := p.clampAt, clampPeak := p.clampPeak, clampOn := p.clampOn, vbakSet := p.vbakSet, tBack := p.tBack, seenRev := p.seenRev }
  let t : State := {
    State.reset with
    pending := s.pending, now := if por then 0 else s.now, nvm := nvm, otp := s.otp, flash := s.flash, free := s.free,
    levels := lv, power := pw }
  let t := t.su fun v =>
    if por then { v with fcMs := nvm.clockFrom, fcAt := 0 } else { v with fcMs := s.surv.fcMs, fcAt := s.surv.fcAt }
  let t := t.bt fun b => { b with por := por, porCause := por }
  let t := (t.setWord 0x140 (W supply)).put LNK_GR_EPOCH_EPOCH nvm.epoch
  if por then t else ((t.setWord 0x11 rc).put MG_FCLK_STAT_SYNC sync).tempStat

/-- EV_CLAMP for a clamp that has begun to conduct while the logic was not powered or in reset (R74). -/
def State.clampNote (s : State) : State :=
  forFin 2 (fun st s => if s.power.clampOn[st] then s.levelOn 11 st 0 else s) s

/-- Option load starts as a reset releases (R118, R127). -/
def State.optionLoad (s : State) : State :=
  let s := { s with dev := .optionLoad }.bt fun b => { b with
    por := false, sys := false, optDone := false, relAt := s.now, wdAt := s.now, wdOn := true }
  s.clampNote

/-- POWER_ON_RESET (R112, R113). It is never held (R114). -/
def execPowerOnReset (dt : Nat) (s : State) : Outcome State Fault Refusal :=
  done ((s.tickTo dt).hardReset true)

/-- POWER_ON_RESET_RELEASE (R112). -/
def execPowerOnResetRelease (dt : Nat) (s : State) : Outcome State Fault Refusal :=
  let s := s.tickTo dt
  done (if !s.boot.por then s
    else if s.boot.sys then s.bt fun b => { b with por := false } else s.optionLoad)

/-- A system reset acts, `promoted` from a core-class pulse (R110, R111). -/
def State.sysReset (s : State) (promoted heldoff : Bool) : State :=
  let s := s.hardReset false
  let s := s.bt fun b => { b with sys := true }
  ((s.put DEV_RSTCAUSE_CAUSE 1).putB DEV_RSTCAUSE_PROMOTED promoted).putB DEV_RSTCAUSE_HELDOFF heldoff

/-- Low time of a RESET_N pulse of `c` RC cycles, and its count (Table 4-7). -/
def State.lowTime (s : State) (c : Nat) : State := (s.put DEV_RSTCAUSE_LOWTIME (satU 12 (c / 25))).inc DEV_RSTCAUSE_RSTCNT

/-! ## Core reset (R115) -/

/-- One axis at a core reset: energised ones hold their present planned position with the setpoints last committed; an axis
reset in progress is abandoned. -/
def State.coreAxis (s : State) (n : Fin 8) : State :=
  let a := s.axes[n]
  let busy := s.gBit DEV_BLKRST_STAT_BUSY n
  let forced := busy && s.gBit DEV_BLKRST_STAT_FORCED n
  let s := if a.idc.isSome then s.idchkEnd n 8 else s
  let s := if a.obs.cal.isSome then s.calEnd n 3 else s
  let s := ((s.bdEnd n).followLeave n).planIdle n
  let st : AxState := if busy then (if forced || !a.st.energised then .off else .hold) else if a.st.energised then .hold else a.st
  let s := s.ax n fun a => { a.rest with
    st := st, rst := .none, idgo := false, calgo := false, fol := FollowSt.init, closDue := false, rep := none, keep := none, stallT := false }
  let s := s.ob n fun o => o.flush
  s.putBit DEV_BLKRST_STAT_BUSY n false

/-- Registers of the ring engine: addresses of the ring blocks other than CFG and the counters (Table 8-8, Table 8-9). -/
def ringVolatile (a : Nat) : Bool :=
  0x80 ≤ a && a < 0x140 &&
    !(a < 0x104 && (a - 0x80) % 12 = 6) && !(0x104 ≤ a && ((a - 0x104) % 12 = 0 || (a - 0x104) % 12 = 7))

/-- Rings, coordinated moves and program contexts at a core reset: everything in flight is gone, records are released. -/
def State.coreRings (s : State) : State :=
  let s := { s with cmds := [], backlog := [], lastEnd := Vector.replicate 11 0, rings := s.rings.map RecRing.clear, evq := [] }
  let s := s.resetRegs ringVolatile
  { s with
    stations := s.stations.map fun (x : Station) => { x with open_ := [], mv := none },
    ctxs := s.ctxs.map fun (c : Ctx) => { Ctx.init with auto := c.auto, post := c.post, entry := c.entry } }

/-- Mailboxes at a core reset: emptied, their requests and bindings kept. -/
def State.coreBoxes (s : State) : State :=
  let s := (List.range 8).foldl (fun (s : State) m =>
    let req := s.word (MB_REQ_ITEM m).a
    (s.resetRegs fun a => 0x200 + 16 * m ≤ a && a < 0x20C + 16 * m).setWord (MB_REQ_ITEM m).a req) s
  { s with mbox := Vector.replicate 8 { req := none, pend := none } }

/-- Strobes, indirect access, capture and the links' register state at a core reset. -/
def State.coreLinks (s : State) : State :=
  let s := (s.dropStaged (fun _ => true) (List.finRange 11) (List.finRange 16)).put DEV_UPDATE_STAT_STROBES 0
  let s := { s with window := [] }
  { s with
    indQ := [], cap := { frozen := false, trig := none, left := none }, chainRst := 0xFF,
    links := s.links.map fun (l : LinkSt) => { l with
      armed := false, ptr := 0, inc := true, pastEnd := false, err := false, bad := false, rbusy := false, line := none,
      stg := [], commit := [], peek := [], tagq := 0 } }

/-- A core reset acts (R115, Table 4-1). Records still in the queue are lost and counted, the one being written among them
unless its last word was programmed (R455). -/
def State.coreReset (s : State) (count : Nat) (heldoff : Bool) : State :=
  let held := s.surv.fbQ.length
  let was := s.g MG_FB_HEAD_HEAD
  let s := s.surveyorCut
  let s := s.addSat MG_FB_STAT_LOST (held - b2n (s.g MG_FB_HEAD_HEAD != was))
  let s := forFin 8 (fun n s => s.coreAxis n) s
  let s := ((((s.svCalDrop 0).svCalDrop 1).coreRings).coreBoxes).coreLinks
  let s := (((s.put MG_SV_STAT_HALTED 0).mwStop).safeClear scMEM).safeClear scSWDOG
  let s := forFin 8 (fun n s => s.mon n fun m => { m with reading := false, tries := 0, retryAt := none }) s
  let s := { s with tick := { s.tick with on := false, commitDue := false, rst := 0 } }
  let s := ((s.put DEV_RSTCAUSE_CAUSE 2).put DEV_RSTCAUSE_PROMOTED 0).putB DEV_RSTCAUSE_HELDOFF heldoff
  let s := ((s.lowTime count).levelOff 1 0 0).dumpOff
  s.bt fun b => { b with coreOn := true, coreAt := s.now, ceilFrozen := true, held := none, fromCore := true }

/-- A core-class pulse acts: as a system reset where no peripheral configuration is valid (R111). -/
def State.corePulse (s : State) (count : Nat) (heldoff : Bool) : State :=
  if s.boot.cfgValid then s.coreReset count heldoff else s.sysReset true heldoff

/-- A reset that falls due while an NVM or OTP operation runs may meet a pulse and be held: a free value says (R114; log
entry 44). -/
def State.resetDue (s : State) (sys : Bool) (count : Nat) : State :=
  let may := s.mayPulse (if sys then 1251 else count)
  let hold := may && (Config.freeValue s.free).getLsbD 0
  let s := if may then s.useFree else s
  if hold then s.bt fun b => { b with held := some (sys, count) }
  else if sys then s.sysReset false false else s.corePulse count false

/-- SYSTEM_RESET: RESET_N has been low for 1,251 RC cycles (R110). -/
def execSystemReset (dt : Nat) (s : State) : Outcome State Fault Refusal :=
  let s := s.tickTo dt
  done (if s.boot.por || s.boot.sys then s else s.resetDue true 0)

/-- SYSTEM_RESET_RELEASE: `count` is the RC-cycle count of the pulse (R110, Table 4-7). -/
def execSystemResetRelease (dt : Nat) (count : BitVec 32) (s : State) : Outcome State Fault Refusal :=
  let s := s.tickTo dt
  done (if !s.boot.sys then s
    else
      let s := s.lowTime count.toNat
      if s.boot.por then s.bt fun b => { b with sys := false } else s.optionLoad)

/-- CORE_RESET: a pulse of `count` RC cycles has ended; 25 to 1,250 are core class (R109, R110). -/
def execCoreReset (dt : Nat) (count : BitVec 32) (s : State) : Outcome State Fault Refusal :=
  let s := s.tickTo dt
  done (if s.boot.por || s.boot.sys || s.boot.coreOn || s.boot.held.isSome || count.toNat < 25 || count.toNat > 1250 then s
    else s.resetDue false count.toNat)

/-- RESET_HOLDOFF_END: the pulse has ended and the held reset acts (R114). -/
def execResetHoldoffEnd (dt : Nat) (s : State) : Outcome State Fault Refusal :=
  let s := s.tickTo dt
  done (match s.boot.held with
    | none => s
    | some (true, _) => s.sysReset false true
    | some (false, count) => (s.bt fun b => { b with held := none }).corePulse count true)

/-! ## Entry to BOOT and to RECOVERY -/

/-- The device enters RECOVERY (R128): full logic goes, bridges open, the boot ROM serves. -/
def State.enterRecovery (s : State) (cause : Nat) : State :=
  let s := s.surveyStop.flDown
  let s := { s with
    dev := .recovery, cmds := [], backlog := [],
    stations := s.stations.map fun (x : Station) => { x with open_ := [], mv := none },
    ctxs := s.ctxs.map fun (c : Ctx) => { c with running := false, trk := [], wait := .none } }
  let s := s.bt fun b => { b with wdOn := false, fwRunning := false }
  let s := (s.put DEV_STATE_WAIT_FL 0).levelOff 1 0 0
  let s := ((s.dumpOff).v5Follow).put DEV_BOOTSTAT_REC_CAUSE cause
  let s := ((s.put MG_SV_STAT_HALTED 0).put MG_SV_STAT_FW 0).setWord 0x3 0
  s.fbAdd 0x03 [cause, s.g DEV_BOOTSTAT_FAILCNT, s.g DEV_BOOTSTAT_FW_SLOT, s.g DEV_BOOTSTAT_IMG_SLOT]

/-- The surveyor's boot ROM starts: management SRAM is initialised (R108), the field book is searched (R454), the status words
of the stores are set, and a failed option record is noted (R119). -/
def State.surveyorBoot (s : State) : State :=
  let s := s.mm .mgmt fun _ => { EccSt.init with slotAt := s.now }
  let s := (s.put MG_SV_STAT_HALTED 0).put MG_SV_STAT_FW 0
  let s := (s.put MG_FB_HEAD_HEAD s.nvm.head).put MG_FB_OLD_OLD s.nvm.oldest
  let s := s.put MG_FB_STAT_TORN (satU 8 s.nvm.torn)
  let s := (List.range 32).foldl (fun s k => s.put (MG_FB_WEAR_ERASES k) (kvGet s.nvm.wear k (0 : Word)).toNat) s
  let s := s.putB MG_FB_STAT_WEAR (s.nvm.wear.any fun e => e.2.toNat ≥ 90000)
  let s := s.su fun v => { v with wearDone := s.gb MG_FB_STAT_WEAR }
  let s := (s.slotStat.sealStat).setWord 0x3 0
  let s := s.bt fun b => { b with fwRunning := false, optBad := none }
  s

/-- The device enters BOOT: with CHAIN_PERM = 2 chain mode is in force (R195); the failed-start check (R126) follows the start of
the boot ROM. -/
def State.enterBoot (s : State) : State :=
  let bad := s.boot.optBad
  let s := { s with dev := .boot }.surveyorBoot
  let s := s.putB LNK_SPI_STAT_MODE_ACT (s.gb LNK_SPI_STAT_MODE_ACT || s.g LNK_SPI_CFG_CHAIN_PERM = 2)
  let s := match bad with
    | some k => s.fbAdd 0x04 [k]
    | none => s
  let retry := s.boot.porCause && s.boot.opts.retryPor && s.nvm.failcnt = 3
  let k := if retry then 2 else s.nvm.failcnt
  let s := s.bt fun b => { b with failRead := k, porCause := false, stage := 0 }
  if k ≥ 3 then (s.put DEV_BOOTSTAT_FAILCNT 3).enterRecovery 1 else s.setFail (k + 1)

/-- CORE_RESET_RELEASE: the device enters BOOT (R110, R127). -/
def execCoreResetRelease (dt : Nat) (s : State) : Outcome State Fault Refusal :=
  let s := s.tickTo dt
  done (if !s.boot.coreOn then s
    else (s.bt fun b => { b with coreOn := false, relAt := s.now, wdAt := s.now, wdOn := true, porCause := false }).enterBoot)

/-! ## Option load (R118 to R120, Table 4-3) -/

/-- The option values that the OTP gives. -/
def Otp.opts (o : Otp) : Opts :=
  let w := fun k => (o.value k).getD 0 0
  { serial := o.serial, grade := o.grade, rev := o.rev, node := w 0, chainPerm := w 1 % 4, retryPor := bit (w 1) 8,
    ovLim := w 2, ceil := sealCeil (o.value 3), hashes := [sealBytes (o.value 4), sealBytes (o.value 5), sealBytes (o.value 6)],
    authKey := sealBytes (o.value 7), dflt := false }

/-- The registers that follow the option values. -/
def State.optRegs (s : State) (o : Opts) : State :=
  let s := ((s.put DEV_REV_REV o.rev).put DEV_REV_GRADE o.grade).put DEV_SERIAL_SERIAL o.serial
  let s := (s.putB DEV_BOOTSTAT_OPT_DEFAULT o.dflt).put LNK_GR_CFG_NODE o.node
  let s := (s.putB LNK_GR_CFG_AUTH o.authKey.isSome).put LNK_SPI_CFG_CHAIN_PERM o.chainPerm
  (s.put PWR_GOV_CFG_BUDGET (gradeBudget (o.grade = 1))).ovForce o.ovLim

/-- OPTION_COMMIT: `bad` names a record that failed twice, `corr` the words corrected (R118, R119). -/
def execOptionCommit (dt : Nat) (bad : Option (Fin 8)) (corr : BitVec 8) (s : State) : Outcome State Fault Refusal :=
  let s := s.tickTo dt
  done (if s.dev != .optionLoad || s.boot.optDone then s
    else
      let o := if bad.isSome then Opts.factory else s.otp.opts
      let s := (s.optRegs o).put DEV_BOOTSTAT_OPT_CORR (satU 3 corr.toNat)
      s.bt fun b => { b with opts := o, optDone := true, optAt := s.now, optBad := bad.map (·.val) })

/-- ENTER_BOOT: options committed and the PLL locked (R121). -/
def execEnterBoot (dt : Nat) (s : State) : Outcome State Fault Refusal :=
  let s := s.tickTo dt
  done (if s.dev != .optionLoad || !s.boot.optDone then s
    else
      ((s.put CLK_STAT_PLL_LOCK 1).put CLK_STAT_XTAL_OK 1).enterBoot)

/-- CLOCK_FAILURE: the PLL is not locked 10 ms after the commit (Table 4-4). Whether the crystal runs is open (log entry 45). -/
def execClockFailure (dt : Nat) (s : State) : Outcome State Fault Refusal :=
  let s := s.tickTo dt
  done (if s.dev != .optionLoad || !s.boot.optDone || s.now - s.boot.optAt < msCyc 10 then s
    else
      let bad := s.boot.optBad
      let s := (s.putB CLK_STAT_XTAL_OK ((Config.freeValue s.free).getLsbD 0)).useFree
      let s := { (s.put CLK_STAT_RC_ONLY 1).put DEV_BOOTSTAT_CLK_FAIL 1 with dev := .boot }.surveyorBoot
      let s := match bad with
        | some k => s.fbAdd 0x04 [k]
        | none => s
      (s.put DEV_BOOTSTAT_FAILCNT s.nvm.failcnt).enterRecovery 5)

/-! ## BOOT: firmware selection (R462, R463) -/

/-- The state of a firmware slot set. -/
def State.fwState (s : State) (x : Fin 2) (st : Nat) : State := (s.fwSlot x fun f => { f with state := st }).nvPulse

/-- The record of a slot that was rejected (Table 16-3). -/
def State.fallback (s : State) (image : Bool) (slot seq : Nat) : State :=
  s.fbAdd 0x32 ([b2n image, slot, 1 - slot, 0] ++ beBytes 4 seq)

/-- A trial firmware whose last start did not reach RUN is rejected (R462 step 1). -/
def State.fwTrialEnd (s : State) : State :=
  let x : Fin 2 := ⟨s.nvm.lastFw % 2, by omega⟩
  if s.boot.failRead ≥ 1 && s.nvm.lastTrial && s.nvm.fw[x].state = 2 then
    (s.fwState x 3).fallback false x s.nvm.fw[x].seq
  else s

/-- A trial image whose last start did not reach RUN is revoked (R463). -/
def State.imgTrialEnd (s : State) : State :=
  match s.nvm.imgTrial with
  | some (x, q) =>
    if s.boot.failRead ≥ 1 && s.nvm.lastImg = some x then
      let s := { s with flash := putBytes s.flash (0x200000 * x + 0x30) [0, 0, 0, 0] }
      (s.nv fun m => { m with imgTrial := none }).fallback true x q
    else s
  | none => s

/-- Candidates in order: the TRIAL slot, then GOOD slots, the higher SEQ first (R462 step 2). -/
def Nvm.fwOrder (m : Nvm) : List (Fin 2) :=
  let is := fun (st : Nat) => (List.finRange 2).filter fun x => m.fw[x].state == st
  let good := is 1
  is 2 ++ (if good.length = 2 && m.fw[1].seq > m.fw[0].seq then good.reverse else good)

/-- The candidates validated in order; one that fails is marked FAILED (R462 step 3). -/
def State.fwTry (s : State) : List (Fin 2) → State × Option (Fin 2)
  | [] => (s, none)
  | x :: l =>
    if s.nvm.fw[x].rd.fwValid s.boot.opts (s.g DEV_REV_REV) then (s, some x) else (s.fwState x 3).fwTry l

/-- The keep-alive part of CONFIG_LOAD ends: without a source for full logic the module waits, the boot watchdog suspended
and the failed-start count cleared (R123). -/
def State.keepAliveEnd (s : State) : State :=
  let s := s.bt fun b => { b with stage := 2 }
  if s.flMay || s.flOn then s
  else ((s.put DEV_STATE_WAIT_FL 1).setFail 0).bt fun b => { b with wdOn := false }

/-- FIRMWARE_SELECT (R462, R463). After a core reset CONFIG_LOAD reads nothing, so its keep-alive part ends here (R117, R123). -/
def execFirmwareSelect (dt : Nat) (s : State) : Outcome State Fault Refusal :=
  let s := s.tickTo dt
  done (if s.dev != .boot || !s.surveyorUp then s
    else
      let s := s.fwTrialEnd.imgTrialEnd
      let (s, pick) := s.fwTry s.nvm.fwOrder
      match pick with
      | none => s.slotStat.enterRecovery 2
      | some x =>
        let f := s.nvm.fw[x]
        let s := s.nv fun m => { m with lastFw := x.val, lastTrial := f.state == 2 }
        let s := ((s.put DEV_BOOTSTAT_FW_SLOT x).setWord 0x3 (W (f.version % 2 ^ 24))).put MG_SV_STAT_FW 1
        let s := s.bt fun b => { b with fwRunning := true, stage := 0 }
        let s := { s with dev := .configLoad }.slotStat
        if s.boot.fromCore then s.keepAliveEnd else s)

/-! ## CONFIG_LOAD (R122 to R124, R431 to R439) -/

/-- A write of LNK_SPI_CFG: MODE follows CHAIN_PERM (R195). Over the Grelas link MODE = 0 ends chain mode at once (R201). -/
def State.spiCfgWrite (s : State) (w : Word) (key gr image : Bool) : State :=
  let mode := s.g LNK_SPI_CFG_MODE
  let s := (s.writeFields 0x40 w key image).put LNK_SPI_CFG_MODE mode
  if key && s.g LNK_SPI_CFG_CHAIN_PERM = 1 then
    let m := bit w.toNat 0
    let s := { s.putB LNK_SPI_CFG_MODE m with chainMode := m }
    if gr && !m then s.put LNK_SPI_STAT_MODE_ACT 0 else s
  else s

/-- A register entry of the image, performed as a host write with the differences of R437. -/
def State.applyEntry (s : State) (e : Entry) : State :=
  if e.i then
    let s := s.writeFields (0x1000000 + e.addr) (W e.data) e.k true
    if e.addr = 8 then s.fclkSet e.data else s
  else if e.addr = 0x40 then s.spiCfgWrite (W e.data) e.k false true
  else s.writeFields e.addr (W e.data) e.k true

/-- The sections of the image in use that have type `t`. -/
def State.imgSects (s : State) (t : Nat) : List Sect :=
  if s.boot.imgOk then (((s.imgSlot s.boot.imgSlot).sections).getD []).filter fun x => x.typ == t else []

/-- Every entry of the register sections of type `t` (R436). -/
def State.applyRegs (s : State) (t : Nat) : State :=
  let r := s.imgSlot s.boot.imgSlot
  (s.imgSects t).foldl (fun s x => (r.entries x).foldl (fun s e => s.applyEntry e) s) s

/-- IMAGE_VALIDATE: the flash is identified, an image validated, and its keep-alive settings applied (R124, R434, R436). -/
def execImageValidate (dt : Nat) (id : BitVec 24) (s : State) : Outcome State Fault Refusal :=
  let s := s.tickTo dt
  done (if s.dev != .configLoad || s.boot.stage ≠ 0 || s.boot.fromCore || !s.surveyorUp then s
    else
      let s := s.bt fun b => { b with flashId := id.toNat }
      match s.imgPick id.toNat with
      | .noImage =>
        let s := ((s.put DEV_BOOTSTAT_NO_IMAGE 1).setWord 0x4 0).nv fun m => { m with lastImg := none }
        s.bt fun b => { b with imgOk := false, stage := 1 }
      | .invalid => s.enterRecovery 3
      | .slot x =>
        let s := ((s.put DEV_BOOTSTAT_NO_IMAGE 0).put DEV_BOOTSTAT_IMG_SLOT x).nv fun m => { m with lastImg := some x }
        let s := (s.setWord 0x4 (W (s.imgSlot x).ver)).bt fun b => { b with imgOk := true, imgSlot := x, stage := 1 }
        (s.applyRegs 1).v5Follow)

/-- A MONUMENT section: override mask and record of its axis (R438). -/
def State.applyMonument (s : State) (x : Sect) : State :=
  let r := s.imgSlot s.boot.imgSlot
  let n : Fin 8 := ⟨x.idx % 8, by omega⟩
  s.monChange n fun m => { m with
    ovrMask := r.be x.off 4, ovr := (r.bytes (x.off + 4) 256).map fun y => BitVec.ofNat 8 y }

/-- CONFIG_MONUMENT_READS: every identity line is read once, then the image's overrides apply (R122, R436). -/
def execConfigMonumentReads (dt : Nat) (rd : Vector IdRead 8) (s : State) : Outcome State Fault Refusal :=
  let s := s.tickTo dt
  done (if s.dev != .configLoad || s.boot.stage ≠ 1 || !s.surveyorUp then s
    else
      let s := s.idConfigReads rd
      ((s.imgSects 3).foldl (fun s x => s.applyMonument x) s).keepAliveEnd)

/-- FULL_LOGIC_AVAILABLE: full logic can be powered; the boot watchdog restarts from zero (R123). -/
def execFullLogicAvailable (dt : Nat) (s : State) : Outcome State Fault Refusal :=
  let s := s.tickTo dt
  done (if s.dev == .configLoad && s.gb DEV_STATE_WAIT_FL && s.flMay then
    (s.put DEV_STATE_WAIT_FL 0).bt fun b => { b with wdAt := s.now, wdOn := true }
  else s)

/-- A direct address of the full-logic domain (R78). -/
def flAddr (a : Nat) : Bool := !kaAddr a && a < 0x1000

/-- Registers, staged copies and axes of the full-logic domain at their reset state. Monument records, filtered levels and the
governor's timers are not of this domain. -/
def State.flAxes (s : State) : State :=
  let s := s.resetRegs flAddr
  let s := { s with staged := kvDrop s.staged flAddr }
  let s := { s with groups := (List.finRange 10).foldl (fun g (i : Fin 10) => vupd g ⟨i.val, by omega⟩ fun x => { x with pend := none }) s.groups }
  forFin 8 (fun n s =>
    let s := s.ax n fun a => { Axis.init with
      mon := a.mon, boostA := a.boostA, boostB := a.boostB, boostAt := a.boostAt, trips := a.trips, pinF := a.pinF }
    (s.put (PWR_FLTCAUSE_BITS n) 0).idStat n) s

/-- Its engines at their reset state. -/
def State.flEngines (s : State) : State :=
  let s := { s with store := [] }
  { s with
    coils := Vector.replicate 16 Coil.init,
    stations := s.stations.map fun (x : Station) =>
      { open_ := [], mv := none, uEnd := none, sv := { SurveySt.init with began := x.sv.began } },
    ctxs := Vector.replicate 4 Ctx.init, rings := s.rings.map RecRing.clear, cmds := [], backlog := [],
    lastEnd := Vector.replicate 11 0, cap := { frozen := false, trig := none, left := none }, tick := TickSt.init,
    links := s.links.map fun (l : LinkSt) => { l with stg := [], commit := [], peek := [], tagq := 0 } }

/-- The full-logic domain is powered: its memory is initialised (R108), its registers and engines stand at their reset state
(Table 4-1, R80). DESIGN CHOICE (log entry 54): the governor, which had no power, starts its ceilings afresh, without the limited
rise of R103, while GOV_ACTIVE and its event stay as they were until its first commit. The XCHK cause stays (R132). -/
def State.flReset (s : State) : State :=
  let s := (s.flAxes.flEngines).mm .motion fun _ => { EccSt.init with slotAt := s.now }
  let s := (List.range 3).foldl (fun s k => (s.put (MG_TEMP_T_EVEN k) 0x8000).put (MG_TEMP_T_ODD k) 0x8000) s
  let s := (s.put DEV_BLKRST_STAT_BUSY 0).bt fun b => { b with ceilFrozen := false }
  let s := (s.safeClear scTICK).safeClear scPOWER
  let s := s.levelOff 23 0 0
  s.mwStop.pw fun p => { p with
    ceilAt := s.now, frac := Vector.replicate 8 0, gov := 65536, stale := Vector.replicate 2 false, xdue := false,
    tempAt := Vector.replicate 2 s.now }

/-- The full-logic domain gets power. -/
def State.flPower (s : State) : State :=
  if s.flOn then s
  else
    let s := (s.flReset.put PWR_STAT_FL_ON 1).pw fun p => { p with flUp := true, grace := none }
    s.v5Follow

/-- A POWER_DIE section sets SLEW of its station's coils (Table 15-5). -/
def State.applyDie (s : State) (x : Sect) : State :=
  let w := (s.imgSlot s.boot.imgSlot).be x.off 4
  (List.range 8).foldl (fun s k => s.putBoth (CO_PWM_CFG_SLEW (8 * (x.idx % 2) + k)) (bits w (2 * k) 2)) s

/-- A PROGRAM section fills the program store (R439). -/
def State.applyProgram (s : State) (x : Sect) : State :=
  let r := s.imgSlot s.boot.imgSlot
  let o := r.be x.off 4
  { s with store := (List.range ((x.len - 4) / 8)).foldl (fun m k =>
      kvSet m (o + k) (BitVec.ofNat 64 (r.be (x.off + 4 + 8 * k) 8)) 0) s.store }

/-- A PROG_CFG section sets a context's start (R439). -/
def State.applyProgCfg (s : State) (x : Sect) : State :=
  let w := (s.imgSlot s.boot.imgSlot).be x.off 4
  s.ctx ⟨x.idx % 4, by omega⟩ fun c => { c with auto := bit w 31, post := bit w 30, entry := bits w 0 12 }

/-- The full-logic sections of the image and the calibration records are loaded (R416, R436). -/
def State.flLoad (s : State) : State :=
  let s := (s.imgSects 6).foldl (fun s x => s.applyDie x) s
  let s := s.applyRegs 2
  let s := (s.imgSects 4).foldl (fun s x => s.applyProgram x) s
  let s := (s.imgSects 5).foldl (fun s x => s.applyProgCfg x) s
  let s := s.imageTook
  forFin 2 (fun st s => s.svu st fun v => { v with corr := s.corrections st }) s

/-- Step 7 of CONFIG_LOAD: `bad` counts the second reads that failed; one is repeated from the start, two end in RECOVERY
(R436). After a core reset no block is loaded (R117). -/
def State.step7 (s : State) (bad : Nat) : State :=
  if s.boot.fromCore then s.flPower.bt fun b => { b with stage := 3 }
  else if bad = 2 && s.boot.imgOk then s.flPower.enterRecovery 3
  else s.flPower.flLoad.bt fun b => { b with stage := 3 }

/-- FULL_LOGIC_LOAD (R122 step 7, R436). -/
def execFullLogicLoad (dt : Nat) (bad : Fin 3) (s : State) : Outcome State Fault Refusal :=
  let s := s.tickTo dt
  done (if s.dev == .configLoad && s.boot.stage = 2 && !s.gb DEV_STATE_WAIT_FL && s.surveyorUp && (s.flMay || s.flOn) then
    s.step7 bad.val
  else s)

/-- Power has returned to the full-logic domain after its removal: the device passes to CONFIG_LOAD to reload it (R80). -/
def State.flReturn (s : State) : State :=
  if s.dev == .safe && !s.flOn && s.flMay && !s.power.holdup then
    let s := { s with dev := .configLoad }.levelOff 1 0 0
    s.bt fun b => { b with stage := 2, fromCore := false, reload := true }
  else s

/-- FULL_LOGIC_POWER_RETURN: within the 200 ms the power-down is cancelled and the device stays in SAFE (R79); after it the
domain regains power (R80). -/
def execFullLogicPowerReturn (dt : Nat) (s : State) : Outcome State Fault Refusal :=
  let s := s.tickTo dt
  done (match s.power.grace with
    | some _ => if s.flMay then (s.pw fun p => { p with grace := none }).safeClear scPOWER else s
    | none => s.flReturn)

/-- FULL_LOGIC_RESTORE: the surveyor reloads the full-logic blocks (R80). -/
def execFullLogicRestore (dt : Nat) (bad : Fin 3) (s : State) : Outcome State Fault Refusal :=
  let s := s.tickTo dt
  let s := s.flReturn
  done (if s.dev == .configLoad && s.boot.reload && s.boot.stage = 2 && s.surveyorUp && s.flMay then
    (s.step7 bad.val).bt fun b => { b with reload := false }
  else s)

/-! ## Entry to RUN (R125) -/

/-- A trial in use is confirmed: the firmware slot becomes GOOD, the image's trial is cleared (R461, R463). -/
def State.trialsEnd (s : State) : State :=
  let x : Fin 2 := ⟨s.nvm.lastFw % 2, by omega⟩
  let s := if s.nvm.fw[x].state = 2 then s.fwState x 1 else s
  match s.nvm.imgTrial with
  | some (y, _) => if s.boot.imgOk && s.boot.imgSlot = y then s.nv fun m => { m with imgTrial := none } else s
  | none => s

/-- ENTER_RUN: the first survey round is complete and the cross-check has passed on both stations. -/
def execEnterRun (dt : Nat) (s : State) : Outcome State Fault Refusal :=
  let s := s.tickTo dt
  let ok := s.dev == .ready && s.stations[0].sv.first && s.stations[1].sv.first && s.gb XCHK_STAT_LAST_OK
  done (if !ok then s
    else
      let s := { s with dev := .run }.setFail 0
      let s := s.put DEV_BOOTSTAT_BOOT_MS (satU 16 ((s.now - s.boot.relAt) / msCyc 1))
      let s := s.bt fun b => { b with wdOn := false, hostAt := s.now }
      let s := s.trialsEnd.slotStat
      let w := fun (a : Nat) => beBytes 4 (s.word a).toNat
      let s := s.fbAdd 0x01 (w 0x11 ++ w 0x3 ++ w 0x4)
      forFin 4 (fun x s => if s.ctxs[x].auto then s.progStart x s.ctxs[x].entry else s) s)

/-! ## Watchdogs (R127, R130, R131) -/

/-- BOOT_WATCHDOG_EXPIRY: 2 s without RUN (R127). -/
def execBootWatchdogExpiry (dt : Nat) (s : State) : Outcome State Fault Refusal :=
  let s := s.tickTo dt
  done (if s.boot.wdOn && (s.dev == .boot || s.dev == .configLoad || s.dev == .ready) && s.now - s.boot.wdAt ≥ msCyc 2000 then
    (s.pulse 3 0 0).enterRecovery 4
  else s)

/-- SURVEYOR_WATCHDOG_EXPIRY: the firmware has not serviced it for 100 ms: SAFE, and the surveyor halts (R130). -/
def execSurveyorWatchdogExpiry (dt : Nat) (s : State) : Outcome State Fault Refusal :=
  let s := s.tickTo dt
  done (if s.boot.fwRunning && s.surveyorUp then ((s.pulse 3 1 0).safeCause scSWDOG).halt.mwStop else s)

/-- The host watchdog reaches an axis: it quick-stops and enters FAULT where it stands, at once where it stands already
(R131). -/
def State.hwdogAxis (s : State) (n : Fin 8) : State :=
  match s.axes[n].st with
  | .off | .idle => s
  | .hold | .fault => s.axisFault n 0 afHWDOG CANCELLED_FAULT
  | .moving | .follow | .homing | .quiescing =>
    let s := s.ax n fun a => { a with hwdog := true }
    if s.onLine n then s.stopMove (stationOf n) true [CANCELLED_FAULT] else s.stopAxis n true CANCELLED_FAULT s.axes[n].at_

/-- HOST_WATCHDOG_EXPIRY: `HOST_TO` ms in RUN without an accepted frame (R131). -/
def execHostWatchdogExpiry (dt : Nat) (s : State) : Outcome State Fault Refusal :=
  let s := s.tickTo dt
  let to_ := s.g DEV_WDOG_CFG_HOST_TO
  done (if s.dev == .run && to_ ≠ 0 && !s.gb DEV_WDOG_CFG_EXPIRED && s.now - s.boot.hostAt ≥ msCyc to_ then
    let s := (s.put DEV_WDOG_CFG_EXPIRED 1).pulse 3 2 0
    if !s.gb DEV_WDOG_CFG_HOST_ACT then s.safeCause scHWDOG
    else s.gathered fun s => forFin 8 (fun n s => if s.gBit DEV_WDOG_CFG_AXMASK n then s.hwdogAxis n else s) s
  else s)

/-! ## DEV_BOOTCTL (R129, R133) -/

/-- RESTART: RECOVERY is left for BOOT with the count as it stands. DESIGN CHOICE (log entry 55): the boot watchdog starts again
from zero, which R127 says for a reset's release and for BOOT after a core reset only. -/
def State.bootRestart (s : State) : State :=
  if s.dev == .recovery then
    (s.bt fun b => { b with wdAt := s.now, wdOn := true, porCause := false, fromCore := false, reload := false }).enterBoot
  else s

/-- SAFE_EXIT: SAFE is left where no cause is active. -/
def State.safeExit (s : State) : State :=
  if s.dev != .safe then s
  else if s.g DEV_STATE_SAFE_CAUSE ≠ 0 then s.inc DEV_STATE_EXIT_REFUSED
  else
    let s := { s with dev := if s.boot.fromReady then .ready else .run }
    ((s.bt fun b => { b with hostAt := s.now }).levelOff 1 0 0).v5Follow

/-- A keyed write of DEV_BOOTCTL: a write of CLR_FAILCNT and RESTART together clears first (log entry 46). -/
def State.bootCtl (s : State) (w : Nat) : State :=
  let s := if bit w 1 then s.setFail 0 else s
  let s := if bit w 0 then s.bootRestart else s
  if bit w 2 then s.safeExit else s

/-! ## Axis reset (R134) -/

/-- A write of DEV_BLKRST.AXIS. -/
def State.axisResets (s : State) (mask : Nat) : State :=
  (setBitsOf 8 mask).foldl (fun (s : State) (n : Fin 8) =>
    if s.gBit DEV_BLKRST_STAT_BUSY n then s
    else ((s.putBit DEV_BLKRST_STAT_BUSY n true).putBit DEV_BLKRST_STAT_FORCED n false).ax n fun a => { a with rst := .due }) s

/-- The axis is still on its way to standstill. -/
def State.slowing (s : State) (n : Fin 8) : Bool :=
  s.axes[n].st == .moving || s.axes[n].st == .homing || s.axes[n].st == .follow || s.axes[n].st == .quiescing

/-- AXIS_RESET_TIMEOUT: `QTO` ms without standstill: the bridges open (R134). An axis that stands waits for its tick mark. -/
def execAxisResetTimeout (dt : Nat) (n : Fin 8) (s : State) : Outcome State Fault Refusal :=
  let s := s.tickTo dt
  done (match s.axes[n].rst with
    | .wait t =>
      if s.now - t ≥ msCyc (s.g DEV_BLKRST_CFG_QTO) && s.slowing n then
        ((s.bridgesOff n).putBit DEV_BLKRST_STAT_FORCED n true).ax n fun a => { a with rst := .finish }
      else s
    | .none | .due | .finish => s)

end Sys2Proof.Machine
end

