-- ==== Sys2Proof/Machine/Registers.lean ====
section
/-!
DEFINITION. Register accesses of the links (R141 to R172): what a read does beside returning the word, what a write sets off
beside its fields, the indirect management space, and the mailboxes. `State.hostWrite` and `State.hostRead` are the accesses
that a performed frame makes (R183).
-/

namespace Sys2Proof.Machine

open Host

/-! ## Result codes of a reply (Table 6-5) -/

def resOk : Nat := 0
def resKeyref : Nat := 1
def resPastEnd : Nat := 2
def resIndOvf : Nat := 3
def resBadOp : Nat := 4
def resRst : Nat := 5

/-! ## Mailboxes (R166 to R170) -/

/-- The item of a request or a binding takes an axis, 8 values of INDEX, or a context, 4 values; 0x00 and 0x01 take none
(Table 5-6). None for a code that the table does not hold. -/
def itemIndexes (item : Nat) : Option Nat :=
  if item = 0 || item = 1 then some 16
  else if 0x10 ≤ item && item ≤ 0x13 || 0x40 ≤ item && item ≤ 0x42 then some 8
  else if item = 0x43 then some 4
  else none

/-- A request or binding is rejected (R168). -/
def State.mbBad (s : State) (item idx : Nat) (mode : Bool) : Bool :=
  match itemIndexes item with
  | none => true
  | some k => decide (idx ≥ k) || (decide (0x40 ≤ item) != mode) || (!mode && decide (item ≥ 0x10) && !s.flOn)

/-- The mailbox is emptied (R169). -/
def State.mbEmpty (s : State) (m : Fin 8) : State :=
  let s := if s.gb (MB_STAT_VALID m) then s.inc (MB_STAT_LOST m) else s
  let s := if s.mbox[m].pend.isSome then s.inc (MB_STAT_LOST m) else s
  let s := ((s.mbWords m []).put (MB_STAT_VALID m) 0).put (MB_STAT_STALE m) 0
  let s := ((s.put (MB_STAT_PEND m) 0).put (MB_STAT_BADREQ m) 0).put (MB_STAT_LEN m) 0
  { s with mbox := vupd s.mbox m fun _ => { req := none, pend := none } }

/-- A write of MBm_REQ (R167 to R169). The timestamp is delivered at once; the other items at a commit point after the
request. -/
def State.mbReq (s : State) (m : Fin 8) (w : Word) : State :=
  let a := (MB_REQ_ITEM m).a
  let old := s.word a
  let s := s.writeFields a w false false
  let go := bit w.toNat 16
  if !go && s.word a == old then s
  else
    let s := s.mbEmpty m
    let item := s.g (MB_REQ_ITEM m)
    let mode := s.gb (MB_REQ_MODE m)
    if item = 0 || (!mode && !go) then s
    else if s.mbBad item (s.g (MB_REQ_INDEX m)) mode then s.put (MB_STAT_BADREQ m) 1
    else if mode then s
    else if item = 1 then s.mbDeliver m [s.now % 2 ^ 32, s.now / 2 ^ 32 % 2 ^ 32]
    else { s with mbox := vupd s.mbox m fun b => { b with req := some s.now } }

/-- A read of data word `k` of mailbox `m`: the last word of a Full value empties it or lets the pending delivery in (R170). -/
def State.mbRead (s : State) (m : Fin 8) (k : Nat) : State :=
  if s.gb (MB_STAT_VALID m) && k + 1 = s.g (MB_STAT_LEN m) then
    match s.mbox[m].pend with
    | some ws => (({ s with mbox := vupd s.mbox m fun b => { b with pend := none } }).put (MB_STAT_PEND m) 0).mbFill m ws
    | none => (s.put (MB_STAT_VALID m) 0).put (MB_STAT_STALE m) 1
  else s

/-! ## The recovery window (R190, R191) -/

/-- The three words of one link, as `k` holds them. -/
def State.snapLink (s : State) (l : Link) (k : LinkSt) : State :=
  let b := match l with
    | .spi => 0x31
    | .gr => 0x34
  let s := s.setWord b (W (k.accHseq % 65536 + k.perfHseq % 65536 * 65536))
  let s := s.setWord (b + 1) (W (k.wrHseq % 65536 + k.wrAddr % 65536 * 65536))
  s.setWord (b + 2) (W (k.dseq % 65536 + k.expAlive.getD 0 % 16 * 65536 + b2n k.accAny * 2 ^ 20))

/-- A write of SNAP on link `l`, whose frame fields stood at `pre` before its frame was accepted (R190). -/
def State.snap (s : State) (l : Link) (pre : LinkSt) : State :=
  let one := fun (x : Link) => if x = l then pre else s.link x
  let s := (s.snapLink .spi (one .spi)).snapLink .gr (one .gr)
  let s := (s.put DEV_RW_CSEQ_OLD_CSEQ s.rings[0].old).put DEV_RW_CSEQ_NEXT_CSEQ s.rings[0].next
  let s := (s.put DEV_RW_EVSEQ_OLD_EVSEQ s.rings[1].old).put DEV_RW_EVSEQ_NEXT_EVSEQ s.rings[1].next
  let s := (s.put DEV_RW_TAGS_INFLIGHT s.cmds.length).put DEV_RW_TIME_TIME s.ts32
  s.put DEV_RW_CTL_SNAPNUM ((s.g DEV_RW_CTL_SNAPNUM + 1) % 256)

/-! ## The indirect space (R159 to R165) -/

/-- The last implemented address of the block of Table 5-5 that holds `a`, none where `a` is not an implemented one. -/
def indLast (a : Nat) : Option Nat :=
  let upTo := fun (last : Nat) => if a ≤ last then some last else none
  if a < 0x100 then upTo 0x37
  else if a < 0x200 then upTo 0x17F
  else if a < 0x300 then upTo 0x21A
  else if a < 0x400 then upTo 0x35F
  else if a < 0x500 then upTo 0x417
  else if 0x1000 ≤ a && a < 0x1800 then upTo (a / 0x100 * 0x100 + 0x3F)
  else if 0x4000 ≤ a && a < 0x4400 then some 0x43FF
  else if 0x10000 ≤ a && a < 0x18000 then some 0x17FFF
  else if 0x20000 ≤ a && a < 0x24000 then some 0x23FFF
  else none

/-- The address lies in an NVM block. -/
def indNvm (a : Nat) : Bool := 0x10000 ≤ a

/-- The indirect space answers at `a` in the present state (R165, R128). -/
def State.indAnswers (s : State) (a : Nat) : Bool :=
  s.answers && match s.dev with
  | .configLoad | .ready | .run | .safe => true
  | .recovery => (0x10000 ≤ a && a < 0x18000) || (0x200 ≤ a && a < 0x300) || (0x4000 ≤ a && a < 0x4400)
  | .reset | .optionLoad | .boot => false

/-- The word at indirect address `a`. Words that the surveyor keeps current hold their last values while it is halted (R448). -/
def State.indView (s : State) (a : Nat) : Word :=
  let live := !s.gb MG_SV_STAT_HALTED
  if a < 0x500 then
    let w := s.word (0x1000000 + a)
    if a = 5 && live then ov w MG_SV_STAT_QFILL s.surv.fbQ.length
    else if a = 8 && live then W (s.fieldMs / 1000)
    else if a = 9 && live then ov w MG_FCLK_STAT_MS (s.fieldMs % 1000)
    else w
  else if a < 0x4000 then
    if h : (a - 0x1000) / 0x100 < 8 then W (s.axes[(⟨(a - 0x1000) / 0x100, h⟩ : Fin 8)].mon.word (a % 0x100)) else 0
  else if a < 0x10000 then kvGet s.window (a - 0x4000) 0
  else if a < 0x20000 then kvGet s.nvm.fb (a - 0x10000) 0xFFFFFFFF
  else kvGet s.nvm.bench a 0xFFFFFFFF

/-- The pointer of a link cannot reach a word: its block does not answer, it was set outside every block, or it has saturated. -/
def State.indShut (s : State) (k : LinkSt) : Bool := k.bad || k.pastEnd || !s.indAnswers k.ptr

/-- The line at `a` is being programmed or erased by the surveyor (R455). -/
def State.fbLocked (s : State) (a : Nat) : Bool :=
  let k := s.nvm.fbNext
  s.surveyorRuns && !s.surv.fbQ.isEmpty && 0x10000 ≤ a && a < 0x18000 &&
    (if (k - 1) % 128 = 0 then (a - 0x10000) / 1024 == fbSlot k / 1024 else (a - 0x10000) / 8 == fbSlot k / 8)

/-- The word at a link's pointer is ready: everything queued before it has taken effect and its prefetch is complete (R162,
R164). An access that does not reach a word waits for nothing. -/
def State.indReady (s : State) (l : Link) : Bool :=
  let k := s.link l
  s.indShut k ||
    (s.indQ.isEmpty && !s.fbLocked k.ptr && (!k.rbusy || decide (s.now - k.pfAt ≥ usCyc (if indNvm k.ptr then 4 else 1))))

/-- The prefetch of the word at a link's pointer begins; in the line already held the word is there at once (R162). -/
def State.prefetch (s : State) (l : Link) : State :=
  let k := s.link l
  if s.indShut k then s.lnk l fun k => { k with rbusy := false, line := none }
  else if indNvm k.ptr && k.line = some (k.ptr / 8) then s.lnk l fun k => { k with rbusy := false }
  else s.lnk l fun k => { k with rbusy := true, pfAt := s.now, line := none }

/-- The line that a completed prefetch holds. -/
def LinkSt.fetched (k : LinkSt) : LinkSt :=
  { k with rbusy := false, line := if indNvm k.ptr then some (k.ptr / 8) else none }

/-- The pointer after an access (R161). -/
def LinkSt.advance (k : LinkSt) : LinkSt :=
  if !k.inc then k
  else if indLast k.ptr = some k.ptr then { k with pastEnd := true }
  else { k with ptr := k.ptr + 1 }

/-- A write of DEV_IND_ADDR (R160). -/
def State.indAddr (s : State) (l : Link) (w : Word) : State :=
  let a := bits w.toNat 0 24
  let bad := (indLast a).isNone
  (s.lnk l fun k => { k with
    ptr := a, inc := bit w.toNat 24, pastEnd := false, err := bad, bad := bad, line := none }).prefetch l

/-- A performed read of DEV_IND_DATA: state, word and result (R161, R165). -/
def State.indRead (s : State) (l : Link) : State × Word × Nat :=
  let k := s.link l
  if k.bad then (s, 0, resOk)
  else if !s.indAnswers k.ptr then (s.lnk l fun k => { k with err := true }, 0, resOk)
  else if k.pastEnd then (s.inc DEV_ACCSTAT_PASTEND, 0, resPastEnd)
  else ((s.lnk l fun k => k.fetched.advance).prefetch l, s.indView k.ptr, resOk)

/-- A write of DEV_IND_DATA: state and result (R152, R161, R164). -/
def State.indData (s : State) (l : Link) (w : Word) (key : Bool) (hseq : Nat) : State × Nat :=
  let k := s.link l
  if k.bad then (s, resOk)
  else if !s.indAnswers k.ptr then (s.lnk l fun k => { k with err := true }, resOk)
  else if k.pastEnd then (s.inc DEV_ACCSTAT_PASTEND, resOk)
  else if s.indQ.length ≥ 4 then (s.inc DEV_ACCSTAT_IND_OVF, resIndOvf)
  else
    let refused := k.ptr < 0x500 && hasKeyed (0x1000000 + k.ptr) && !key
    let whole := k.ptr = 0x100
    let s := if refused then s.keyRefused else s
    let q : IndWrite := { lk := l, addr := k.ptr, data := w, key := key, hseq := hseq }
    let s := if refused && whole then s else { s with indQ := s.indQ ++ [q] }
    ((s.lnk l fun k => k.advance).prefetch l, if refused then resKeyref else resOk)

/-- SRC of a field-book record for a link (Table 16-2). -/
def fbSrc : Link → Nat
  | .spi => 1 | .gr => 2

/-- What a write to an MG_ register sets off beside its fields; nothing while the surveyor is halted (R447, R448). -/
def State.mgAct (s : State) (q : IndWrite) : State :=
  let w := q.data.toNat
  if s.gb MG_SV_STAT_HALTED then s
  else match q.addr with
  | 0x008 => s.fclkSet w
  | 0x012 => if bit w 31 then s.fbClr else s
  | 0x021 => if bit w 31 then s.mwClr else s
  | 0x100 => if q.key && bit w 16 then s.sealGo (fbSrc q.lk) q.hseq else s
  | 0x200 => if bit w 16 then s.updGo (fbSrc q.lk) q.hseq q.key else s
  | 0x401 =>
    let s := s.idRescan (bits w 0 8)
    if bit w 8 then s.idCntClr else s
  | _ => s

/-- An indirect write takes effect (R164); one to a read-only location is dropped with `ERR`. -/
def State.indApply (s : State) (q : IndWrite) : State :=
  let drop := s.lnk q.lk fun k => { k with err := true }
  if q.addr < 0x500 then
    let rows := layout (0x1000000 + q.addr)
    if rows.isEmpty then s
    else if rows.all fun r => r.acc == .ro || r.acc == .rs then drop
    else (s.writeFields (0x1000000 + q.addr) q.data q.key false).mgAct q
  else if 0x4000 ≤ q.addr && q.addr < 0x4400 then { s with window := kvSet s.window (q.addr - 0x4000) q.data 0 }
  else drop

/-- The prefetches that hold the line of address `a` are made again (R164). -/
def State.indRefetch (s : State) (a : Nat) : State :=
  let one := fun (s : State) (l : Link) =>
    if (s.link l).ptr / 8 = a / 8 && !s.indShut (s.link l) then
      s.lnk l fun k => { k with rbusy := true, pfAt := s.now, line := none }
    else s
  one (one s .spi) .gr

/-! ## Ring registers (R229, R246, R247, Tables 8-8 and 8-9) -/

/-- A write of RNGr_REL for ring 11 + `q` (R247). -/
def State.ringRel (s : State) (q : Fin 5) (x : Nat) : State :=
  let r := s.rings[q]
  let d := (x + 65536 - r.old) % 65536
  if d < r.recs.length then
    let s := s.ring q fun r => r.drop (d + 1)
    if q = 0 then { s with cyc := { s.cyc with posted := true } } else s
  else if (r.old + 2 * 65536 - 1 - x) % 65536 < 0x8000 then s
  else s.inc (RRNG_CNT_REL_BAD (11 + q))

/-- A write into the ring block, 0x0080 to 0x013F. -/
def State.ringWrite (s : State) (l : Link) (a : Nat) (w : Word) : State :=
  let r := (a - 0x80) / 12
  let o := (a - 0x80) % 12
  if a = 0x100 then s.lnk l fun k => { k with tagq := bits w.toNat 0 10 }
  else if r < 11 then
    if o < 4 then s.lnk l fun k => { k with stg := kvSet k.stg (4 * r + o) w 0 }
    else if o = 4 then (if bit w.toNat 31 then s.commitLink l r else s)
    else if o = 5 then (if bit w.toNat 31 then s.clrWord (CRNG_CNT_REJ_STATE r).a else s)
    else s
  else if h : r - 11 < 5 then
    let q : Fin 5 := ⟨r - 11, h⟩
    match o with
    | 0 =>
      let was := s.waterHit q
      let s := s.writeFields a w false false
      if r ≥ 14 && s.waterHit q && !was then s.pulse 50 (r - 14) 0 else s
    | 1 => if bit w.toNat 31 then s.clrWord (RRNG_CNT_REL_BAD r).a else s
    | 3 => s.lnk l fun k => { k with peek := kvSet k.peek r (W (w.toNat % 2 ^ 17)) 0x10000 }
    | 6 => s.ringRel q (bits w.toNat 0 16)
    | _ => s
  else s

/-- A read of a record's last word with AUTO set advances the link's read position (R146, R246). -/
def State.peekAdvance (s : State) (l : Link) (q : Fin 5) : State :=
  let r := 11 + q.val
  let p := ((s.link l).peekWord q).toNat
  if bit p 16 then s.lnk l fun k => { k with peek := kvSet k.peek r (W (2 ^ 16 + (p % 65536 + 1) % 65536)) 0x10000 } else s

/-- Offset of a record's last word: D0 for the 32-bit capture samples, D1 otherwise. -/
def lastWord (q : Fin 5) : Nat := if q = 2 then 4 else 5

/-! ## Writes of the other registers -/

/-- A write of PWR_COILFLT_CLR: an overcurrent clear also lets the FETs that tripped switch again (R89, R91). -/
def State.coilClr (s : State) (oc op : Nat) : State :=
  forFin 16 (fun c s =>
    let s := if bit oc c then
        ((s.putBit PWR_COILFLT_OC c false).put (PWR_OCKIND_KIND c) 0).co c fun k => { k with ocFets := 0 } else s
    if bit op c then s.putBit PWR_COILFLT_OPEN c false else s) s

/-- A write of DEV_EVST: acknowledgements act before the raises of the same cycle and before simulated raises of the same write
(R476, R478). -/
def State.evstWrite (s : State) (m : Nat) (w : Nat) : State :=
  let s := (List.range 8).foldl (fun s i =>
    if bit w (16 + i) then
      let s := s.clrCnt (DEV_EVCNT_CNT m i)
      s.putBit (DEV_EVST_PEND m) i (s.g (DEV_EVCNT_CNT m i) != 0)
    else s) s
  (List.range 8).foldl (fun s i => if bit w (24 + i) then s.evRaise (8 * m + i) 3 0 else s) s

/-- A keyed write of DEV_MEM_INJ with ARM = 1: an index or address that does not exist makes the whole write void (R39). DESIGN
CHOICE (log entry 51): aimed at a memory without power, the injection clears ARM and changes no word. -/
def State.injWrite (s : State) (w : Word) : State :=
  if bit w.toNat 27 then
    if injOk w.toNat then
      let s := (s.writeFields 0x67 w true false).put DEV_MEM_INJ_ARM 0
      if s.memUp (if bit w.toNat 15 then .mgmt else .motion) then s.injectWord w.toNat else s
    else s
  else s.writeFields 0x67 w true false

/-- CLR_MAX and CLR_TOTAL (Table 1-7). A clear acts before the values of its own tick: after that tick's commit point the
registers hold them (R32). -/
def State.tickClr (s : State) (mx total : Bool) : State :=
  let past := s.tick.on && !s.tick.commitDue
  let s := if mx then (List.range 8).foldl (fun (s : State) n =>
    s.put (CLK_TICK_MAX_MAX n) (if past then s.tick.fins.getD n 0 else 0)) s else s
  if total then s.put CLK_TICK_LAST_OVR_TOTAL (if past then s.g CLK_TICK_STAT_OVERRUN else 0) else s

/-- What a write sets off beside its fields in the keep-alive blocks. -/
def State.kaAct (s : State) (l : Link) (a : Nat) (w : Nat) (pre : LinkSt) : State :=
  match a with
  | 0x15 =>
    let s := s.axisResets (bits w 0 8)
    { s with tick := { s.tick with rst := s.tick.rst ||| bits w 8 16 } }
  | 0x21 => s.strobe w
  | 0x23 =>
    if bit w 31 then ((s.clrCnt DEV_ACCSTAT_KEY_REF).clrCnt DEV_ACCSTAT_PASTEND).clrCnt DEV_ACCSTAT_IND_OVF else s
  | 0x30 => if bit w 0 then s.snap l pre else s
  | 0x41 => if bit w 31 then (s.clrCnt LNK_SPI_STAT_HSEQ_GAP).clrWord 0x42 else s
  | 0x51 => if bit w 31 then ((s.clrCnt LNK_GR_STAT_HSEQ_GAP).clrWord 0x52).clrWord 0x53 else s
  | 0x60 => if bit w 8 then s.put DEV_ARB_STAT_MAXWAIT 0 else s
  | 0x62 =>
    let s := s.put DEV_MEM_STAT_SCRUB_ON (s.g DEV_MEM_CFG_SCRUB_EN)
    let s := if bit w 16 then s.memCntClr else s
    if bit w 17 then s.memFirstClr else s
  | 0x144 => s.v5Follow
  | 0x149 => s.coilClr (bits w 0 16) (bits w 16 16)
  | 0x185 =>
    (if bit w 8 then s.clrWord 0x186 else s).tripClear (bits w 0 4)
  | _ => if 0x200 ≤ a && a < 0x280 && a % 16 = 14 then s.evstWrite ((a - 0x200) / 16) w else s

/-- What a write sets off in a station block. -/
def State.stAct (s : State) (st : Fin 2) (o : Nat) (w : Nat) : State :=
  match o with
  | 0x43 =>
    let s := if bit w 0 then s.svSoft st else s
    let s := if bit w 1 then s.svSoftInj st else s
    if bit w 2 then
      let s := s.clrWord (ST_SV_CNT_TRG_OVR st).a
      if st = 0 then s.clrCnt XCHK_STAT_FAILS else s
    else s
  | 0x4C =>
    let s := if bit w 16 then s.svCalZero st else s
    let s := if bit w 17 then s.svCalFull st else s
    if bit w 18 then s.useFree.svCalStore st ((Config.freeValue s.free).getLsbD 0) else s
  | _ => s

/-- CLR_DIR restarts the direction check (R389). -/
def State.dirRestart (s : State) (n : Fin 8) : State :=
  (s.put (AX_DP_STAT_DIRCHK n) 0).dpt n fun d => { d with dirP := none }

/-- A write of AXn_DP_CTL; `high` is the level of DATA at a request (R377, R389, R392, R393). -/
def State.dpCtl (s : State) (n : Fin 8) (w : Nat) (high : Bool) : State :=
  let s := if bit w 0 then s.encClear n else s
  let s := if bit w 2 then s.clrWord (AX_DP_CNT_QERR n).a else s
  let s := if bit w 3 then s.dirRestart n else s
  if bit w 1 then s.ssiAsk n s.now high true else s

/-- What a write sets off in an axis block. A request for a word finds DATA at a level that a register write does not tell: a
free value (log entry 47). -/
def State.axAct (s : State) (n : Fin 8) (o : Nat) (w : Nat) : State :=
  match o with
  | 0x2E => if bit w 31 then s.closMaxClr n else s
  | 0x47 => if bit w 0 && !s.gb (AX_IDCHK_STAT_BUSY n) then s.ax n fun a => { a with idgo := true } else s
  | 0x56 | 0x66 | 0x5B | 0x6B | 0x5E | 0x6E => if bit w 31 then s.clrWord (0x800 + 0x100 * n.val + o) else s
  | 0x7F =>
    let idle := !s.gb (AX_OBS_CALSTAT_BUSY n)
    let s := if bit w 1 then s.calAbort n else s
    if bit w 0 && idle then s.ax n fun a => { a with calgo := true } else s
  | 0x81 => if bit w 31 then s.clrWord (AX_OBS_CNT_GAP n).a else s
  | 0x8D =>
    if bit w 1 then s.useFree.dpCtl n w ((Config.freeValue s.free).getLsbD 0) else s.dpCtl n w true
  | _ => s

/-- What a write sets off beside its fields. -/
def State.regAct (s : State) (l : Link) (a : Nat) (w : Nat) (pre : LinkSt) : State :=
  if a = 0x1C9 then s.tickClr (bit w 8) (bit w 9)
  else if a < 0x280 then s.kaAct l a w pre
  else if 0x400 ≤ a && a < 0x600 then s.stAct (if a < 0x500 then 0 else 1) (a % 0x100) w
  else if 0x800 ≤ a && a < 0x1000 then s.axAct ⟨(a - 0x800) / 0x100 % 8, by omega⟩ (a % 0x100) w
  else s

/-- The register lies in the block of an axis whose reset is in progress (R134; log entry 48). -/
def State.axBusy (s : State) (a : Nat) : Bool := 0x800 ≤ a && a < 0x1000 && s.gBit DEV_BLKRST_STAT_BUSY ((a - 0x800) / 0x100)

/-- A write of a program's SETREG: the register's fields, and with STROBE the axis group (R445). -/
def State.progWrite (s : State) (a : Nat) (w : Word) (strobe : Bool) : State :=
  let s := if s.axBusy a then s else s.writeFields a w false false
  if strobe then (s.strobeGroup (groupOf a)).strobed else s

/-- A program's writes of the cycle come after a link's write to the register, and their strobes after one that stages a value in
the group (R442). -/
def State.progAgain (s : State) (a : Nat) : State :=
  s.cyc.prog.foldl (fun s e => if e.1 = a || (e.2.2 && hasBuffered a && groupOf e.1 == groupOf a) then
    let s := s.progWrite e.1 e.2.1 false
    if e.2.2 then s.strobeGroup (groupOf a) else s
  else s) s

/-- A write that reaches its register; `key` where it consumed an unlock. State and result. -/
def State.writeReg (s : State) (l : Link) (a : Nat) (w : Word) (key : Bool) (hseq : Nat) (pre : LinkSt) : State × Nat :=
  if !s.served a || s.axBusy a then (s, resOk)
  else if a = 0x24 then (s.indAddr l w, resOk)
  else if a = 0x25 then s.indData l w key hseq
  else if a = 0x13 then (if key then (s.bootCtl w.toNat, resOk) else (s.keyRefused, resKeyref))
  else if 0x80 ≤ a && a < 0x140 then (s.ringWrite l a w, resOk)
  else if 0x200 ≤ a && a < 0x280 && a % 16 = 0 then (s.mbReq ⟨(a - 0x200) / 16 % 8, by omega⟩ w, resOk)
  else
    let refused := hasKeyed a && !key
    let s := if refused then s.keyRefused else s
    let s :=
      if a = 0x40 then s.spiCfgWrite w key (l = .gr) false
      else if a = 0x67 then (if key then s.injWrite w else s)
      else (((s.writeFields a w key false).regAct l a w.toNat pre).hostStands a w key).progAgain a
    (s, if refused then resKeyref else resOk)

/-- A write of link `l` (R144, R149 to R152): it consumes an armed unlock, whatever its address. -/
def State.hostWrite (s : State) (l : Link) (a : Nat) (w : Word) (hseq : Nat) (pre : LinkSt) : State × Nat :=
  if !s.answers then (s, resOk)
  else
    let key := (s.link l).armed
    let s := s.lnk l fun k => { k with armed := false }
    if a = 0x20 then (s.lnk l fun k => { k with armed := w == 0x5A3C }, resOk)
    else s.writeReg l a w key hseq pre

/-- The word that address `a` shows to link `l`, without any side effect; DEV_IND_DATA shows the word at the pointer. -/
def State.seen (s : State) (l : Link) (a : Nat) : Word :=
  if a = 0x25 then (if s.indShut (s.link l) then 0 else s.indView (s.link l).ptr) else s.view l a

/-- A read of link `l`: state, word as the cycle found it, and result (R145). Its side effects are those of R146. -/
def State.hostRead (s : State) (l : Link) (a : Nat) : State × Word × Nat :=
  if a = 0x25 then s.indRead l
  else
    let w := s.atStart.view l a
    if !s.served a then (s, w, resOk)
    else if 0x104 ≤ a && a < 0x140 then
      if h : (a - 0x104) / 12 < 5 then
        let q : Fin 5 := ⟨(a - 0x104) / 12, h⟩
        if (a - 0x104) % 12 = lastWord q then (s.peekAdvance l q, w, resOk) else (s, w, resOk)
      else (s, w, resOk)
    else if 0x200 ≤ a && a < 0x280 && 2 ≤ a % 16 && a % 16 < 10 then
      (s.mbRead ⟨(a - 0x200) / 16 % 8, by omega⟩ (a % 16 - 2), w, resOk)
    else (s, w, resOk)

/-- A read of `a` by link `l` can be performed now (R162, R185). -/
def State.readReady (s : State) (l : Link) (a : Nat) : Bool := a != 0x25 || s.indReady l

end Sys2Proof.Machine
end

