-- ==== Sys2Proof/Machine/WriteRows.lean ====
section
/-!
DEFINITION. The commands that are one register access of a link (R141 to R172 and the register tables): each writes, or reads,
the register that its row names. A row that sets one bit writes the register's other fields back as they stand.
-/

namespace Sys2Proof.Machine

open Host

/-- The word that a write which changes no field of register `a` carries: staged copies of buffered fields, values in force of the
others. -/
def State.keepWord (s : State) (a : Nat) : Nat :=
  (layout a).foldl (fun x r =>
    match r.acc with
    | .rwb => setBits x r.lo r.w (bits (s.stagedWord a).toNat r.lo r.w)
    | .rw | .rwk => setBits x r.lo r.w (bits (s.word a).toNat r.lo r.w)
    | .ro | .rs | .wp | .rwm => x) 0

/-- A write of `w` to register `a` by link `lk`, in a frame whose HSEQ is that last performed (R144, R149). -/
def State.rowWrite (s : State) (lk : Link) (a w : Nat) : State :=
  (s.hostBegin.hostWrite lk a (W w) (s.link lk).perfHseq (s.link lk)).1

/-- A write that sets the write-pulse bits of `mask` in register `a` and changes no other field. -/
def State.rowPulse (s : State) (lk : Link) (a mask : Nat) : State :=
  (s.hostBegin.hostWrite lk a (W (s.hostBegin.keepWord a ||| mask)) (s.link lk).perfHseq (s.link lk)).1

/-- A write to a register that is answered has the effect `f`; it consumes an armed unlock as every write does (R149). -/
def State.rowDo (s : State) (lk : Link) (a : Nat) (f : State → State) : State :=
  if !s.answers then s
  else
    let s := s.hostBegin.lnk lk fun k => { k with armed := false }
    if !s.served a || s.axBusy a then s else f s

/-- A write of an MG_ register by a DEV_IND_DATA frame of link `lk`, whose pointer the row leaves open: it consumes an armed unlock
(R151), sets ERR where the space does not answer (R165), is refused where four writes wait, goes behind those that wait, and reaches
the surveyor at once where none does (R152, R164). -/
def State.rowMg (s : State) (lk : Link) (addr w : Nat) : State :=
  if !s.answers then s
  else
    let s := s.hostBegin
    let key := (s.link lk).armed
    let s := s.lnk lk fun k => { k with armed := false }
    if !s.indAnswers addr then s.lnk lk fun k => { k with err := true }
    else if s.indQ.length ≥ 4 then s.inc DEV_ACCSTAT_IND_OVF
    else
      let refused := hasKeyed (0x1000000 + addr) && !key
      let s := if refused then s.keyRefused else s
      let q : IndWrite := { lk := lk, addr := addr, data := W w, key := key, hseq := (s.link lk).perfHseq }
      if refused && addr = 0x100 then s
      else if s.indQ.isEmpty then (s.indApply q).indRefetch addr
      else { s with indQ := s.indQ ++ [q] }

/-! ## Architecture registers (chapter 1) -/

/-- MEM_INJECT: a write of DEV_MEM_INJ (R39). -/
def execMemInject (dt : Nat) (lk : Link) (data : Word) (s : State) : Outcome State Fault Refusal :=
  done ((s.tickTo dt).rowWrite lk 0x67 data.toNat)

/-- MEM_CLR_CNT: `DEV_MEM_CFG.CLR_CNT` (Table 1-11). -/
def execMemClrCnt (dt : Nat) (lk : Link) (s : State) : Outcome State Fault Refusal :=
  done ((s.tickTo dt).rowPulse lk 0x62 (2 ^ 16))

/-- MEM_CLR_FIRST: `DEV_MEM_CFG.CLR_FIRST` (Table 1-11). -/
def execMemClrFirst (dt : Nat) (lk : Link) (s : State) : Outcome State Fault Refusal :=
  done ((s.tickTo dt).rowPulse lk 0x62 (2 ^ 17))

/-- CLR_MAX: `CLK_TICK_STAT.CLR_MAX` (Table 1-7). -/
def execClrMax (dt : Nat) (lk : Link) (s : State) : Outcome State Fault Refusal :=
  done ((s.tickTo dt).rowPulse lk 0x1C9 (2 ^ 8))

/-- CLR_TOTAL: `CLK_TICK_STAT.CLR_TOTAL` (Table 1-7). -/
def execClrTotal (dt : Nat) (lk : Link) (s : State) : Outcome State Fault Refusal :=
  done ((s.tickTo dt).rowPulse lk 0x1C9 (2 ^ 9))

/-- CLR_MAXWAIT: `DEV_ARB_CFG.CLR_MAXWAIT` (R46). -/
def execClrMaxwait (dt : Nat) (lk : Link) (s : State) : Outcome State Fault Refusal :=
  done ((s.tickTo dt).rowPulse lk 0x60 (2 ^ 8))

/-! ## Power, boot and resets (chapters 3 and 4) -/

/-- CLR_OC: a write of `PWR_COILFLT_CLR.CLR_OC` (R89). -/
def execClrOc (dt : Nat) (lk : Link) (mask : BitVec 16) (s : State) : Outcome State Fault Refusal :=
  done ((s.tickTo dt).rowWrite lk 0x149 mask.toNat)

/-- CLR_OPEN: a write of `PWR_COILFLT_CLR.CLR_OPEN` (R91). -/
def execClrOpen (dt : Nat) (lk : Link) (mask : BitVec 16) (s : State) : Outcome State Fault Refusal :=
  done ((s.tickTo dt).rowWrite lk 0x149 (mask.toNat * 2 ^ 16))

/-- RESTART: a write of `DEV_BOOTCTL.RESTART` (R129). -/
def execRestart (dt : Nat) (lk : Link) (s : State) : Outcome State Fault Refusal :=
  done ((s.tickTo dt).rowPulse lk 0x13 (2 ^ DEV_BOOTCTL_RESTART.lo))

/-- CLR_FAILCNT: a write of `DEV_BOOTCTL.CLR_FAILCNT` (R129). -/
def execClrFailcnt (dt : Nat) (lk : Link) (s : State) : Outcome State Fault Refusal :=
  done ((s.tickTo dt).rowPulse lk 0x13 (2 ^ DEV_BOOTCTL_CLR_FAILCNT.lo))

/-- SAFE_EXIT: a write of `DEV_BOOTCTL.SAFE_EXIT` (R133). -/
def execSafeExit (dt : Nat) (lk : Link) (s : State) : Outcome State Fault Refusal :=
  done ((s.tickTo dt).rowPulse lk 0x13 (2 ^ DEV_BOOTCTL_SAFE_EXIT.lo))

/-- AXIS_RESET: a write of `DEV_BLKRST.AXIS` (R134). -/
def execAxisReset (dt : Nat) (lk : Link) (mask : BitVec 8) (s : State) : Outcome State Fault Refusal :=
  done ((s.tickTo dt).rowWrite lk 0x15 mask.toNat)

/-- RING_RESET: a write of `DEV_BLKRST.RING` (R136). -/
def execRingReset (dt : Nat) (lk : Link) (mask : BitVec 16) (s : State) : Outcome State Fault Refusal :=
  done ((s.tickTo dt).rowWrite lk 0x15 (mask.toNat * 2 ^ 8))

/-! ## Register access (chapter 5) -/

/-- REGISTER_WRITE: a write of any direct register (R144). -/
def execRegisterWrite (dt : Nat) (lk : Link) (addr : BitVec 16) (data : Word) (s : State) : Outcome State Fault Refusal :=
  done ((s.tickTo dt).rowWrite lk addr.toNat data.toNat)

/-- UNLOCK: a write of DEV_UNLOCK (R149). -/
def execUnlock (dt : Nat) (lk : Link) (key : Word) (s : State) : Outcome State Fault Refusal :=
  done ((s.tickTo dt).rowWrite lk 0x20 key.toNat)

/-- UPDATE_STROBE: a write of DEV_UPDATE (R154). -/
def execUpdateStrobe (dt : Nat) (lk : Link) (data : Word) (s : State) : Outcome State Fault Refusal :=
  done ((s.tickTo dt).rowWrite lk 0x21 data.toNat)

/-- IND_ADDR_WRITE: a write of DEV_IND_ADDR (R160). -/
def execIndAddrWrite (dt : Nat) (lk : Link) (data : Word) (s : State) : Outcome State Fault Refusal :=
  done ((s.tickTo dt).rowWrite lk 0x24 data.toNat)

/-- IND_PREFETCH_DONE: the prefetched word or NVM line is ready; a line being programmed holds it back (R162, R455). -/
def execIndPrefetchDone (dt : Nat) (lk : Link) (s : State) : Outcome State Fault Refusal :=
  let s := s.tickTo dt
  done (if (s.link lk).rbusy && !s.fbLocked (s.link lk).ptr then s.lnk lk LinkSt.fetched else s)

/-- IND_DATA_READ: a performed read of DEV_IND_DATA; while the word is not ready the frame is held (R162, R185). -/
def execIndDataRead (dt : Nat) (lk : Link) (s : State) : Outcome State Fault Refusal :=
  let s := s.tickTo dt
  done (if s.answers && s.indReady lk then (s.hostRead lk 0x25).1 else s)

/-- IND_DATA_WRITE: a write of DEV_IND_DATA (R164). -/
def execIndDataWrite (dt : Nat) (lk : Link) (data : Word) (s : State) : Outcome State Fault Refusal :=
  done ((s.tickTo dt).rowWrite lk 0x25 data.toNat)

/-- IND_WRITE_APPLY: the oldest queued indirect write takes effect (R164). -/
def execIndWriteApply (dt : Nat) (s : State) : Outcome State Fault Refusal :=
  let s := s.tickTo dt
  done (match s.indQ with
    | [] => s
    | q :: l => (({ s with indQ := l }).indApply q).indRefetch q.addr)

/-- MAILBOX_REQUEST: a write of MBm_REQ (R167). -/
def execMailboxRequest (dt : Nat) (lk : Link) (m : Fin 8) (data : Word) (s : State) : Outcome State Fault Refusal :=
  done ((s.tickTo dt).rowWrite lk (0x200 + 16 * m.val) data.toNat)

/-- MAILBOX_LAST_WORD_READ: a read of D(LEN-1) of a mailbox (R170). -/
def execMailboxLastWordRead (dt : Nat) (lk : Link) (m : Fin 8) (s : State) : Outcome State Fault Refusal :=
  let s := s.tickTo dt
  done (if s.answers && s.g (MB_STAT_LEN m) ≠ 0 then (s.hostRead lk ((MB_D_DATA m 0).a + (s.g (MB_STAT_LEN m) - 1))).1 else s)

/-- ACCSTAT_CLR: `DEV_ACCSTAT.CLR` (R172). -/
def execAccstatClr (dt : Nat) (lk : Link) (s : State) : Outcome State Fault Refusal :=
  done ((s.tickTo dt).rowPulse lk 0x23 (2 ^ 31))

/-! ## Links (chapters 6 and 7) -/

/-- SNAP: a write of `DEV_RW_CTL.SNAP` (R190). -/
def execSnap (dt : Nat) (lk : Link) (s : State) : Outcome State Fault Refusal := done ((s.tickTo dt).rowPulse lk 0x30 1)

/-- SPI_CNT_CLR: `LNK_SPI_STAT.CLR` (R194). -/
def execSpiCntClr (dt : Nat) (lk : Link) (s : State) : Outcome State Fault Refusal :=
  done ((s.tickTo dt).rowPulse lk 0x41 (2 ^ 31))

/-- CHAIN_MODE_SELECT: a write of LNK_SPI_CFG (R195). -/
def execChainModeSelect (dt : Nat) (lk : Link) (data : Word) (s : State) : Outcome State Fault Refusal :=
  done ((s.tickTo dt).rowWrite lk 0x40 data.toNat)

/-- GRELAS_CNT_CLR: `LNK_GR_STAT.CLR` (R225). -/
def execGrelasCntClr (dt : Nat) (lk : Link) (s : State) : Outcome State Fault Refusal :=
  done ((s.tickTo dt).rowPulse lk 0x51 (2 ^ 31))

/-! ## Rings (chapter 8) -/

/-- The record of the head of the backlog goes to ring 11, one in a cycle and none in the cycle of the release; an ended command's
entry and tag become free (R245). -/
def State.backlogStep (s : State) : State :=
  match s.backlog with
  | [] => s
  | b :: l =>
    if s.heldRecs 0 < 512 && !s.cyc.posted then
      let s := ({ s with backlog := l, cyc := { s.cyc with posted := true } }).post11 b.tag b.ring b.src b.status
      match b.cmd with
      | some id => s.dropCmd id
      | none => s
    else s

/-- BACKLOG_POST: a waiting record is posted once ring 11 has a free entry (R245). -/
def execBacklogPost (dt : Nat) (s : State) : Outcome State Fault Refusal := done (s.tickTo dt).backlogStep

/-- TAG_QUERY: a write of `RNG10_TAGQ.TAG` (R235). -/
def execTagQuery (dt : Nat) (lk : Link) (tag : BitVec 10) (s : State) : Outcome State Fault Refusal :=
  done ((s.tickTo dt).rowWrite lk 0x100 tag.toNat)

/-- RING_RELEASE: a write of `RNGr_REL.UPTO` of ring 11 + `q` (R247). -/
def execRingRelease (dt : Nat) (lk : Link) (q : Fin 5) (upto : BitVec 16) (s : State) : Outcome State Fault Refusal :=
  done ((s.tickTo dt).rowWrite lk (0x104 + 12 * q.val + 6) upto.toNat)

/-- RING_RECORD_AUTO_ADVANCE: a read of the last word of a record (R246). -/
def execRingRecordAutoAdvance (dt : Nat) (lk : Link) (q : Fin 5) (s : State) : Outcome State Fault Refusal :=
  let s := s.tickTo dt
  done (if s.answers then (s.hostRead lk (0x104 + 12 * q.val + lastWord q)).1 else s)

/-- Address of `RNGr_STAT`, whose bit 31 clears the counters of ring `r` (R251). -/
def ringClrAddr (r : Fin 16) : Nat := if r.val < 11 then 0x80 + 12 * r.val + 5 else 0x80 + 12 * r.val + 1

/-- RING_CNT_CLR: `RNGr_STAT.CLR` (R251). -/
def execRingCntClr (dt : Nat) (lk : Link) (r : Fin 16) (s : State) : Outcome State Fault Refusal :=
  done ((s.tickTo dt).rowWrite lk (ringClrAddr r) (2 ^ 31))

/-! ## Currents, bridges and trips (chapters 10 and 11) -/

/-- IDCHK_GO: a write of `AXn_IDCHK_CFG.GO` (R311). -/
def execIdchkGo (dt : Nat) (lk : Link) (n : Fin 8) (s : State) : Outcome State Fault Refusal :=
  done ((s.tickTo dt).rowPulse lk (AX_IDCHK_CFG_GO n).a 1)

/-- REG_CNT_CLR: `REG_CNT.CLR` of a coil (R318). -/
def execRegCntClr (dt : Nat) (lk : Link) (c : Fin 16) (s : State) : Outcome State Fault Refusal :=
  done ((s.tickTo dt).rowPulse lk (CO_REG_CNT_CLR c).a (2 ^ 31))

/-- PWM_CNT_CLR: `PWM_CNT.CLR` of a coil (R340). -/
def execPwmCntClr (dt : Nat) (lk : Link) (c : Fin 16) (s : State) : Outcome State Fault Refusal :=
  done ((s.tickTo dt).rowPulse lk (CO_PWM_CNT_CLR c).a (2 ^ 31))

/-- ADC_CNT_CLR: `ADC_CNT.CLR` of a coil (R419). -/
def execAdcCntClr (dt : Nat) (lk : Link) (c : Fin 16) (s : State) : Outcome State Fault Refusal :=
  done ((s.tickTo dt).rowPulse lk (CO_ADC_CNT_CLR c).a (2 ^ 31))

/-- TRIP_CLEAR: a write of `PWR_TRIP_CLR.CLR` (R337). -/
def execTripClear (dt : Nat) (lk : Link) (mask : BitVec 4) (s : State) : Outcome State Fault Refusal :=
  done ((s.tickTo dt).rowWrite lk 0x185 mask.toNat)

/-- TRIP_CNT_CLR: `PWR_TRIP_CLR.CLR_CNT` (R341). -/
def execTripCntClr (dt : Nat) (lk : Link) (s : State) : Outcome State Fault Refusal :=
  done ((s.tickTo dt).rowWrite lk 0x185 (2 ^ 8))

/-! ## Observer and datum ports (chapters 9, 12 and 13) -/

/-- CLOS_MAX_CLR: `AXn_CLOS_MAX.CLR` (R288). -/
def execClosMaxClr (dt : Nat) (lk : Link) (n : Fin 8) (s : State) : Outcome State Fault Refusal :=
  done ((s.tickTo dt).rowPulse lk (AX_CLOS_MAX_CLR n).a (2 ^ 31))

/-- OBS_CAL_GO: `AXn_OBS_CAL.GO` (R360). -/
def execObsCalGo (dt : Nat) (lk : Link) (n : Fin 8) (s : State) : Outcome State Fault Refusal :=
  done ((s.tickTo dt).rowPulse lk (AX_OBS_CAL_GO n).a 1)

/-- OBS_CAL_ABORT: `AXn_OBS_CAL.ABORT` (R363). -/
def execObsCalAbort (dt : Nat) (lk : Link) (n : Fin 8) (s : State) : Outcome State Fault Refusal :=
  done ((s.tickTo dt).rowPulse lk (AX_OBS_CAL_ABORT n).a 2)

/-- OBS_CNT_CLR: `AXn_OBS_CNT.CLR` (R365). -/
def execObsCntClr (dt : Nat) (lk : Link) (n : Fin 8) (s : State) : Outcome State Fault Refusal :=
  done ((s.tickTo dt).rowPulse lk (AX_OBS_CNT_CLR n).a (2 ^ 31))

/-- SSI_REQUEST: a write of `AXn_DP_CTL.SSI_REQ`; `high` is the level of DATA at the request (R377, R378). -/
def execSsiRequest (dt : Nat) (lk : Link) (n : Fin 8) (high : Bool) (s : State) : Outcome State Fault Refusal :=
  done ((s.tickTo dt).rowDo lk (AX_DP_CTL_SSI_REQ n).a fun s => s.dpCtl n 2 high)

/-- ENC_FAULT_CLEAR: `AXn_DP_CTL.CLR_FLT` (R392). -/
def execEncFaultClear (dt : Nat) (lk : Link) (n : Fin 8) (s : State) : Outcome State Fault Refusal :=
  done ((s.tickTo dt).rowWrite lk (AX_DP_CTL_CLR_FLT n).a 1)

/-- DP_CNT_CLR: `AXn_DP_CTL.CLR_CNT` (R393). -/
def execDpCntClr (dt : Nat) (lk : Link) (n : Fin 8) (s : State) : Outcome State Fault Refusal :=
  done ((s.tickTo dt).rowWrite lk (AX_DP_CTL_CLR_CNT n).a 4)

/-- DIRCHK_RESTART: `AXn_DP_CTL.CLR_DIR` (R389). -/
def execDirchkRestart (dt : Nat) (lk : Link) (n : Fin 8) (s : State) : Outcome State Fault Refusal :=
  done ((s.tickTo dt).rowWrite lk (AX_DP_CTL_CLR_DIR n).a 8)

/-! ## Survey converters (chapter 14) -/

/-- SV_TRG: `STs_SV_CTL.TRG` (R406). -/
def execSvTrg (dt : Nat) (lk : Link) (st : Fin 2) (s : State) : Outcome State Fault Refusal :=
  done ((s.tickTo dt).rowWrite lk (ST_SV_CTL_TRG st).a 1)

/-- SV_ITRG: `STs_SV_CTL.ITRG` (R409). -/
def execSvItrg (dt : Nat) (lk : Link) (st : Fin 2) (s : State) : Outcome State Fault Refusal :=
  done ((s.tickTo dt).rowWrite lk (ST_SV_CTL_ITRG st).a 2)

/-- SV_CNT_CLR: `STs_SV_CTL.CLR_CNT` (R418). -/
def execSvCntClr (dt : Nat) (lk : Link) (st : Fin 2) (s : State) : Outcome State Fault Refusal :=
  done ((s.tickTo dt).rowWrite lk (ST_SV_CTL_CLR_CNT st).a 4)

/-- SV_CAL_ZERO: `STs_CAL_CTL.ZERO` (R414). -/
def execSvCalZero (dt : Nat) (lk : Link) (st : Fin 2) (s : State) : Outcome State Fault Refusal :=
  done ((s.tickTo dt).rowPulse lk (ST_CAL_CTL_ZERO st).a (2 ^ 16))

/-- SV_CAL_FULL: `STs_CAL_CTL.FULL` (R414). -/
def execSvCalFull (dt : Nat) (lk : Link) (st : Fin 2) (s : State) : Outcome State Fault Refusal :=
  done ((s.tickTo dt).rowPulse lk (ST_CAL_CTL_FULL st).a (2 ^ 17))

/-- SV_CAL_STORE: `STs_CAL_CTL.STORE`; `ok` is the outcome of the NVM write (R416). -/
def execSvCalStore (dt : Nat) (lk : Link) (st : Fin 2) (ok : Bool) (s : State) : Outcome State Fault Refusal :=
  done ((s.tickTo dt).rowDo lk (ST_CAL_CTL_STORE st).a fun s => s.svCalStore st ok)

/-! ## The surveyor (chapters 15 and 16) -/

/-- ID_RESCAN: a write of `MG_ID_CTL.RESCAN` (R423). -/
def execIdRescan (dt : Nat) (lk : Link) (mask : BitVec 8) (s : State) : Outcome State Fault Refusal :=
  done ((s.tickTo dt).rowMg lk 0x401 mask.toNat)

/-- ID_CNT_CLR: `MG_ID_CTL.CLR_CNT` (R430). -/
def execIdCntClr (dt : Nat) (lk : Link) (s : State) : Outcome State Fault Refusal :=
  done ((s.tickTo dt).rowMg lk 0x401 (2 ^ 8))

/-- FIELD_CLOCK_SET: a write of `MG_FCLK.SECONDS` (R450). -/
def execFieldClockSet (dt : Nat) (lk : Link) (secs : Word) (s : State) : Outcome State Fault Refusal :=
  done ((s.tickTo dt).rowMg lk 0x008 secs.toNat)

/-- FB_CNT_CLR: `MG_FB_STAT.CLR` (R472). -/
def execFbCntClr (dt : Nat) (lk : Link) (s : State) : Outcome State Fault Refusal :=
  done ((s.tickTo dt).rowMg lk 0x012 (2 ^ 31))

/-- MW_CNT_CLR: `MG_MW_STAT.CLR` (R472). -/
def execMwCntClr (dt : Nat) (lk : Link) (s : State) : Outcome State Fault Refusal :=
  done ((s.tickTo dt).rowMg lk 0x021 (2 ^ 31))

/-- SEAL_COMMIT: a write of MG_SEAL_CTL (R459). -/
def execSealCommit (dt : Nat) (lk : Link) (data : Word) (s : State) : Outcome State Fault Refusal :=
  done ((s.tickTo dt).rowMg lk 0x100 data.toNat)

/-- A write of MG_UPD_CTL with GO (R465). -/
def State.rowUpd (s : State) (lk : Link) (op : Nat) (image slotB : Bool) : State :=
  s.rowMg lk 0x200 (op + b2n image * 2 ^ 4 + b2n slotB * 2 ^ 5 + 2 ^ 16)

/-- TARGET and SLOT of MG_UPD_CTL written back as they stand, for an operation that takes none. -/
def State.updSame (s : State) (lk : Link) (op : Nat) : State :=
  s.rowUpd lk op (s.gb MG_UPD_CTL_TARGET) (s.gb MG_UPD_CTL_SLOT)

/-- UPD_BEGIN (R465). -/
def execUpdBegin (dt : Nat) (lk : Link) (image : Bool) (s : State) : Outcome State Fault Refusal :=
  done ((s.tickTo dt).rowUpd lk 1 image (s.gb MG_UPD_CTL_SLOT))

/-- UPD_WRITE: the window's bytes are programmed (R467). -/
def execUpdWrite (dt : Nat) (lk : Link) (s : State) : Outcome State Fault Refusal := done ((s.tickTo dt).updSame lk 2)

/-- UPD_VERIFY (R465). -/
def execUpdVerify (dt : Nat) (lk : Link) (s : State) : Outcome State Fault Refusal := done ((s.tickTo dt).updSame lk 3)

/-- UPD_ACTIVATE (R468). -/
def execUpdActivate (dt : Nat) (lk : Link) (s : State) : Outcome State Fault Refusal := done ((s.tickTo dt).updSame lk 4)

/-- UPD_ABORT (R465). -/
def execUpdAbort (dt : Nat) (lk : Link) (s : State) : Outcome State Fault Refusal := done ((s.tickTo dt).updSame lk 5)

/-- UPD_REVOKE (R465). -/
def execUpdRevoke (dt : Nat) (lk : Link) (image slotB : Bool) (s : State) : Outcome State Fault Refusal :=
  done ((s.tickTo dt).rowUpd lk 6 image slotB)

/-! ## Events (chapter 17) -/

/-- EVENT_ACK: a write of `DEV_EVSTm.ACK` (R476). -/
def execEventAck (dt : Nat) (lk : Link) (e : Fin 64) (s : State) : Outcome State Fault Refusal :=
  done ((s.tickTo dt).rowWrite lk (DEV_EVST_PEND (e.val / 8)).a (2 ^ (16 + e.val % 8)))

/-- EVENT_SIMULATE: a write of `DEV_EVSTm.SIM` (R478). -/
def execEventSimulate (dt : Nat) (lk : Link) (e : Fin 64) (s : State) : Outcome State Fault Refusal :=
  done ((s.tickTo dt).rowWrite lk (DEV_EVST_PEND (e.val / 8)).a (2 ^ (24 + e.val % 8)))

end Sys2Proof.Machine
end

