-- ==== Sys2Proof/Machine/Commands.lean ====
section
/-!
DEFINITION. The descriptor commands (Tables 8-3 and 8-4): a link stages the four words of a descriptor with the row's opcode on a
command ring and commits it (R229, R230). What an accepted descriptor then does falls at tick marks and commit points
(Execute.lean).
-/

namespace Sys2Proof.Machine

open Host

/-- The staging writes of a descriptor on ring `r`, then the commit (R229). -/
def State.issue (s : State) (lk : Link) (r : Nat) (op : Nat) (d : Desc) : State :=
  let w := descWords op d
  let a := 0x80 + 12 * r
  let s := (s.rowWrite lk a w.1.toNat).rowWrite lk (a + 1) w.2.1.toNat
  let s := (s.rowWrite lk (a + 2) w.2.2.1.toNat).rowWrite lk (a + 3) w.2.2.2.toNat
  s.rowWrite lk (a + 4) (2 ^ 31)

/-- ENABLE, opcode 0x01 (R253). -/
def execEnable (dt : Nat) (lk : Link) (r : Fin 11) (d : Desc) (s : State) : Outcome State Fault Refusal :=
  done ((s.tickTo dt).issue lk r 0x01 d)

/-- RELEASE, opcode 0x02 (R253). -/
def execRelease (dt : Nat) (lk : Link) (r : Fin 11) (d : Desc) (s : State) : Outcome State Fault Refusal :=
  done ((s.tickTo dt).issue lk r 0x02 d)

/-- STOP, opcode 0x03 (R264). -/
def execStop (dt : Nat) (lk : Link) (r : Fin 11) (d : Desc) (s : State) : Outcome State Fault Refusal :=
  done ((s.tickTo dt).issue lk r 0x03 d)

/-- QSTOP, opcode 0x04 (R264). -/
def execQstop (dt : Nat) (lk : Link) (r : Fin 11) (d : Desc) (s : State) : Outcome State Fault Refusal :=
  done ((s.tickTo dt).issue lk r 0x04 d)

/-- CLEAR_FAULT, opcode 0x05 (R255). -/
def execClearFault (dt : Nat) (lk : Link) (r : Fin 11) (d : Desc) (s : State) : Outcome State Fault Refusal :=
  done ((s.tickTo dt).issue lk r 0x05 d)

/-- SET_POSITION, opcode 0x06 (R276). -/
def execSetPosition (dt : Nat) (lk : Link) (r : Fin 11) (d : Desc) (s : State) : Outcome State Fault Refusal :=
  done ((s.tickTo dt).issue lk r 0x06 d)

/-- FOLLOW_ON, opcode 0x07 (R282). -/
def execFollowOn (dt : Nat) (lk : Link) (r : Fin 11) (d : Desc) (s : State) : Outcome State Fault Refusal :=
  done ((s.tickTo dt).issue lk r 0x07 d)

/-- FOLLOW_OFF, opcode 0x08 (R284). -/
def execFollowOff (dt : Nat) (lk : Link) (r : Fin 11) (d : Desc) (s : State) : Outcome State Fault Refusal :=
  done ((s.tickTo dt).issue lk r 0x08 d)

/-- MOVE_TRAP, opcode 0x20 (R259). -/
def execMoveTrap (dt : Nat) (lk : Link) (r : Fin 11) (d : Desc) (s : State) : Outcome State Fault Refusal :=
  done ((s.tickTo dt).issue lk r 0x20 d)

/-- MOVE_SCURVE, opcode 0x21 (R261). -/
def execMoveScurve (dt : Nat) (lk : Link) (r : Fin 11) (d : Desc) (s : State) : Outcome State Fault Refusal :=
  done ((s.tickTo dt).issue lk r 0x21 d)

/-- MOVE_VEL, opcode 0x22 (R263). -/
def execMoveVel (dt : Nat) (lk : Link) (r : Fin 11) (d : Desc) (s : State) : Outcome State Fault Refusal :=
  done ((s.tickTo dt).issue lk r 0x22 d)

/-- HOME, opcode 0x23 (R285). -/
def execHome (dt : Nat) (lk : Link) (r : Fin 11) (d : Desc) (s : State) : Outcome State Fault Refusal :=
  done ((s.tickTo dt).issue lk r 0x23 d)

/-- DWELL, opcode 0x24 (R238). -/
def execDwell (dt : Nat) (lk : Link) (r : Fin 11) (d : Desc) (s : State) : Outcome State Fault Refusal :=
  done ((s.tickTo dt).issue lk r 0x24 d)

/-- COORD_PART, opcode 0x40 (R237). -/
def execCoordPart (dt : Nat) (lk : Link) (r : Fin 11) (d : Desc) (s : State) : Outcome State Fault Refusal :=
  done ((s.tickTo dt).issue lk r 0x40 d)

/-- STATION_STOP, opcode 0x41 (R280). -/
def execStationStop (dt : Nat) (lk : Link) (r : Fin 11) (d : Desc) (s : State) : Outcome State Fault Refusal :=
  done ((s.tickTo dt).issue lk r 0x41 d)

/-- NOP, opcode 0x60 (R228). -/
def execNop (dt : Nat) (lk : Link) (r : Fin 11) (d : Desc) (s : State) : Outcome State Fault Refusal :=
  done ((s.tickTo dt).issue lk r 0x60 d)

/-- FENCE, opcode 0x61 (R244). -/
def execFence (dt : Nat) (lk : Link) (r : Fin 11) (d : Desc) (s : State) : Outcome State Fault Refusal :=
  done ((s.tickTo dt).issue lk r 0x61 d)

/-- CANCEL_TAG, opcode 0x62 (R249). -/
def execCancelTag (dt : Nat) (lk : Link) (r : Fin 11) (d : Desc) (s : State) : Outcome State Fault Refusal :=
  done ((s.tickTo dt).issue lk r 0x62 d)

/-- CANCEL_RING, opcode 0x63 (R250). -/
def execCancelRing (dt : Nat) (lk : Link) (r : Fin 11) (d : Desc) (s : State) : Outcome State Fault Refusal :=
  done ((s.tickTo dt).issue lk r 0x63 d)

/-- PROG_START, opcode 0x64 (R441). -/
def execProgStart (dt : Nat) (lk : Link) (r : Fin 11) (d : Desc) (s : State) : Outcome State Fault Refusal :=
  done ((s.tickTo dt).issue lk r 0x64 d)

/-- PROG_STOP, opcode 0x65 (R441). -/
def execProgStop (dt : Nat) (lk : Link) (r : Fin 11) (d : Desc) (s : State) : Outcome State Fault Refusal :=
  done ((s.tickTo dt).issue lk r 0x65 d)

/-- DWELL_COMPLETE: the dwell's ticks have passed: it ends with the records of this commit point (R238, R244). -/
def execDwellComplete (dt : Nat) (q : Fin 10) (s : State) : Outcome State Fault Refusal :=
  let s := s.tickTo dt
  done (match s.execOf q with
    | some c => if s.tick.commitDue && s.dwellDue c then s.markEnd c.id DONE else s
    | none => s)

end Sys2Proof.Machine
end

