-- ==== Sys2Proof/Machine/Chain.lean ====
section
/-!
DEFINITION. Chain compatibility mode (R195 to R201): the register window of a virtual device, its chain word, and the commands
that window writes stand for.
-/

namespace Sys2Proof.Machine

open Host

/-! ## The window (Table 6-10) -/

/-- What a window location that the chain keeps itself holds before it is written: VMAX, AMAX, DMAX as a profile set's, TARGET 0. -/
def chainDflt (a : Nat) : Nat := if a = 4 then 0x000C8000 else if a = 7 then 0 else 0x00190000

/-- A window location that the chain keeps itself: VMAX, AMAX, DMAX, TARGET. -/
def State.chainOwn (s : State) (v : Fin 8) (a : Nat) : Nat := (kvGet s.chain (8 * v.val + a) (W (chainDflt a))).toNat

/-- Such a location written. -/
def State.chainPut (s : State) (v : Fin 8) (a x : Nat) : State :=
  { s with chain := kvSet s.chain (8 * v.val + a) (W x) (W (chainDflt a)) }

/-- Bits [39:32] of a device's chain word as they stand (Table 6-9), LENERR 0. -/
def State.chainFlags (s : State) (v : Fin 8) : Nat :=
  let a := s.axes[v]
  let en := a.st == .hold || a.st == .moving || a.st == .follow || a.st == .homing
  b2n (s.chainRst.getLsbD v) * 128 + b2n (a.st == .fault) * 64
    + b2n (s.chainStall.getLsbD v || a.stallT || a.obs.due.isSome) * 32
    + b2n (decide (a.vel = 0)) * 16 + b2n (s.chainReach.getLsbD v) * 8 + b2n (s.chainRej.getLsbD v) * 4 + b2n en

/-- The word at a window address. CURRENT and STEPSCALE show the values in force (R153). -/
def State.chainGet (s : State) (v : Fin 8) (a : Nat) : Nat :=
  let x := s.axes[v]
  match a with
  | 0x00 => b2n x.st.energised + 2 * b2n (x.st == .follow)
  | 0x01 => s.chainFlags v + x.st.code * 256
  | 0x02 => s.g (AX_SEQ_CFG_RANGE v) + s.g (AX_SEQ_CUR_RUN v) * 2 ^ 4 + s.g (AX_SEQ_CUR_HOLD v) * 2 ^ 16
  | 0x03 => s.g (AX_FOL_CFG_STEPSCALE v)
  | 0x04 | 0x05 | 0x06 | 0x07 => s.chainOwn v a
  | 0x08 => pat 32 (satS 32 x.planned)
  | 0x09 => pat 32 (satS 32 x.dp.m)
  | 0x0A => pat 32 (x.vel / 65536)
  | 0x0B => pat 32 (s.gi (AX_OBS_LA_LA v))
  | 0x0C => bits (s.word (AX_PINSTAT_FB0_LVL v).a).toNat 0 6
  | _ => 0

/-! ## Window writes (R199, R200) -/

/-- A command of the module for virtual device `v`, under its reserved tag (R200). -/
def chainDesc (v : Fin 8) (op : Nat) (replace : Bool) (d1 d2 : Nat) : Word × Word × Word × Word :=
  (mkD0 op (0x3F8 + v.val) false replace 0 0, W d1, W d2, 0)

/-- Commands of one window write, all or none: none where one of them would be rejected (R199). -/
def State.chainIssue (s : State) (v : Fin 8) : List (Word × Word × Word × Word) → Option State
  | [] => some s
  | w :: l =>
    match s.commit (.chain v) v w with
    | (t, 0) => t.chainIssue v l
    | _ => none

/-- The commands that a CTRL write asks for: leave FAULT, quick-stop, and changes of ENABLE and FOLLOW. -/
def State.chainCtrl (s : State) (v : Fin 8) (d : Nat) : List (Word × Word × Word × Word) :=
  let st := s.axes[v].st
  let one := fun (b : Bool) (op : Nat) => if b then [chainDesc v op false 0 0] else []
  one (bit d 3) 0x05 ++ one (bit d 2) 0x04 ++
  one (bit d 0 && !st.energised) 0x01 ++ one (!bit d 0 && st.energised) 0x02 ++
  one (bit d 1 && st != .follow) 0x07 ++ one (!bit d 1 && st == .follow) 0x08

/-- Fields of staged copies written, and axis group `v` strobed (R199). -/
def State.chainStage (s : State) (v : Fin 8) (l : List (Fld × Nat)) : State :=
  (l.foldl (fun (s : State) x => s.putSt x.1 x.2) s).strobeGroup ⟨v.val, by omega⟩

/-- A window write that writes a configuration location with a value in its range, and so strobes the device's group (R199). -/
def chainStrobes (a d : Nat) : Bool :=
  match a with
  | 0x02 => bits d 0 2 ≠ 3
  | 0x03 => d ≠ 0 && d ≤ 4096
  | 0x04 => d ≠ 0 && d ≤ 0x7FFFFFFF
  | 0x05 | 0x06 => d ≠ 0
  | _ => false

/-- The effect of a window write; none where it is refused (R199). A write to a read-only or reserved address has none. -/
def State.chainSet (s : State) (v : Fin 8) (a d : Nat) : Option State :=
  match a with
  | 0x00 => s.chainIssue v (s.chainCtrl v d)
  | 0x02 =>
    if !chainStrobes a d then none
    else some (s.chainStage v [(AX_SEQ_CFG_RANGE v, bits d 0 2), (AX_SEQ_CUR_RUN v, bits d 4 12), (AX_SEQ_CUR_HOLD v, bits d 16 12)])
  | 0x03 => if !chainStrobes a d then none else some (s.chainStage v [(AX_FOL_CFG_STEPSCALE v, d)])
  | 0x04 => if !chainStrobes a d then none else some ((s.chainPut v a d).chainStage v [])
  | 0x05 | 0x06 => if !chainStrobes a d then none else some ((s.chainPut v a d).chainStage v [])
  | 0x07 =>
    match s.chainIssue v [chainDesc v 0x20 true d (pat 16 (if bit d 31 then -1 else 0))] with
    | some t =>
      let t := t.chainPut v 7 d
      some {
        t with
        chainReach := t.chainReach &&& ~~~(BitVec.ofNat 8 (2 ^ v.val)), chainStall := t.chainStall &&& ~~~(BitVec.ofNat 8 (2 ^ v.val)) }
    | none => none
  | _ => some s

/-- A window write of device `v`: REJ tells whether it was refused. -/
def State.chainWrite (s : State) (v : Fin 8) (a d : Nat) : State :=
  let own := BitVec.ofNat 8 (2 ^ v.val)
  let readOnly := a = 1 || a ≥ 8
  match s.chainSet v a d with
  | some t => if readOnly then t else { t with chainRej := t.chainRej &&& ~~~own }
  | none => { s with chainRej := s.chainRej ||| own }

/-- A device's reply is loaded: its flags as they stand, DATA as given; RST is told once (Table 6-9, R198). -/
def State.chainLoad (s : State) (v : Fin 8) (data : Nat) : State :=
  { s with
    chainOut := vupd s.chainOut v fun _ => BitVec.ofNat 40 (s.chainFlags v * 2 ^ 32 + data % 2 ^ 32),
    chainRst := s.chainRst &&& ~~~(BitVec.ofNat 8 (2 ^ v.val)) }

/-- One device at the latch of a transfer: its read or write, then its reply (R197, R198). -/
def State.chainLatch (s : State) (v : Fin 8) (w : Nat) : State :=
  let a := bits w 32 7
  let s := if bit w 39 then s.chainWrite v a (bits w 0 32) else s
  s.chainLoad v (s.chainGet v a)

/-- A transfer of a wrong length latches nothing and is shown in every device's next reply (R198). -/
def State.chainBad (s : State) : State :=
  let bad := fun (v : Fin 8) => BitVec.ofNat 40 (s.chainFlags v * 2 ^ 32 + 2 ^ 33)
  { s.inc LNK_SPI_CNT_LEN_ERR with chainOut := Vector.ofFn bad, chainRst := 0 }

/-! ## One device's access in a transfer -/

/-- Device `v` is in the chain in force (R195, R196). -/
def State.chainHas (s : State) (v : Fin 8) : Bool := s.answers && s.chainOn && decide (v.val ≤ s.g LNK_SPI_CFG_CHAIN_LEN)

/-- The chain word of a window write. -/
def chainW (a d : Nat) : Nat := 2 ^ 39 + a % 128 * 2 ^ 32 + d % 2 ^ 32

/-- A chain word that strobes its device's group. -/
def chainWStrobes (w : Nat) : Bool := bit w 39 && chainStrobes (bits w 32 7) (bits w 0 32)

/-- Device `v` latches one chain word, the other devices being left as they are. -/
def State.chainOne (s : State) (v : Fin 8) (w : Nat) : State :=
  if s.chainHas v then
    let s := s.chainLatch v w
    if chainWStrobes w then s.strobed else s
  else s

/-- CHAIN_WINDOW_READ: a window read (R198). -/
def execChainWindowRead (dt : Nat) (v : Fin 8) (addr : BitVec 7) (s : State) : Outcome State Fault Refusal :=
  done ((s.tickTo dt).chainOne v (addr.toNat * 2 ^ 32))

/-- CHAIN_ENABLE: CTRL written with this ENABLE, FOLLOW as it reads (R199). -/
def execChainEnable (dt : Nat) (v : Fin 8) (on : Bool) (s : State) : Outcome State Fault Refusal :=
  let s := s.tickTo dt
  done (s.chainOne v (chainW 0 (setBits (s.chainGet v 0) 0 1 (b2n on))))

/-- CHAIN_FOLLOW: CTRL written with this FOLLOW, ENABLE as it reads (R199). -/
def execChainFollow (dt : Nat) (v : Fin 8) (on : Bool) (s : State) : Outcome State Fault Refusal :=
  let s := s.tickTo dt
  done (s.chainOne v (chainW 0 (setBits (s.chainGet v 0) 1 1 (b2n on))))

/-- CHAIN_QSTOP: CTRL written with QSTOP (R199). -/
def execChainQstop (dt : Nat) (v : Fin 8) (s : State) : Outcome State Fault Refusal :=
  let s := s.tickTo dt
  done (s.chainOne v (chainW 0 (s.chainGet v 0 + 4)))

/-- CHAIN_CLRFLT: CTRL written with CLRFLT (R199). -/
def execChainClrflt (dt : Nat) (v : Fin 8) (s : State) : Outcome State Fault Refusal :=
  let s := s.tickTo dt
  done (s.chainOne v (chainW 0 (s.chainGet v 0 + 8)))

/-- CHAIN_CURRENT: a write of CURRENT (R199). -/
def execChainCurrent (dt : Nat) (v : Fin 8) (data : Word) (s : State) : Outcome State Fault Refusal :=
  done ((s.tickTo dt).chainOne v (chainW 2 data.toNat))

/-- CHAIN_STEPSCALE: a write of STEPSCALE (R199). -/
def execChainStepscale (dt : Nat) (v : Fin 8) (data : Word) (s : State) : Outcome State Fault Refusal :=
  done ((s.tickTo dt).chainOne v (chainW 3 data.toNat))

/-- CHAIN_VMAX: a write of VMAX (R199). -/
def execChainVmax (dt : Nat) (v : Fin 8) (data : Word) (s : State) : Outcome State Fault Refusal :=
  done ((s.tickTo dt).chainOne v (chainW 4 data.toNat))

/-- CHAIN_AMAX: a write of AMAX (R199). -/
def execChainAmax (dt : Nat) (v : Fin 8) (data : Word) (s : State) : Outcome State Fault Refusal :=
  done ((s.tickTo dt).chainOne v (chainW 5 data.toNat))

/-- CHAIN_DMAX: a write of DMAX (R199). -/
def execChainDmax (dt : Nat) (v : Fin 8) (data : Word) (s : State) : Outcome State Fault Refusal :=
  done ((s.tickTo dt).chainOne v (chainW 6 data.toNat))

/-- CHAIN_TARGET: a write of TARGET: a trapezoid stake to the sign-extended position, replacing a stake in progress (R200). -/
def execChainTarget (dt : Nat) (v : Fin 8) (data : Word) (s : State) : Outcome State Fault Refusal :=
  done ((s.tickTo dt).chainOne v (chainW 7 data.toNat))

end Sys2Proof.Machine
end

