-- ==== Sys2Proof/Machine/Frames.lean ====
section
/-!
DEFINITION. Citen frames (R173 to R191): acceptance, the alive counter, performing, replies, and the SPI host port. What a frame
does after acceptance is shared with the Grelas link.
-/

namespace Sys2Proof.Machine

open Host

/-! ## Frame content -/

/-- Bytes 0 to 9 of a host frame with opcode `op` (Table 6-2). -/
def frameBytes (f : Frame) (op : Nat) : List Nat :=
  [op % 16 * 16 + f.alive.toNat] ++ toBytes 2 f.hseq.toNat ++ toBytes 2 f.addr.toNat ++ toBytes 4 f.data.toNat ++ [f.flags.toNat]

/-- The fields of a 12-byte host frame, as an accepted frame keeps them. -/
def heldOf (b : List Nat) : HeldFrame :=
  let at_ := fun (i k : Nat) => ofBytes ((b.drop i).take k)
  { op := at_ 0 1 / 16, hseq := at_ 1 2, addr := at_ 3 2, data := at_ 5 4, flags := at_ 9 1 }

/-- The ALIVE field of a frame's bytes. -/
def aliveOf (b : List Nat) : Nat := b.headD 0 % 16

/-- The CRC of a frame is right (R180). -/
def crcOk (b : List Nat) : Bool := crc16 (b.take 10) == ofBytes ((b.drop 10).take 2)

/-- A frame that is accepted but never performed: another opcode, or a reserved FLAGS bit (R178). -/
def HeldFrame.badOp (h : HeldFrame) : Bool := decide (h.op ≥ 3) || decide (h.flags / 2 ≠ 0)

/-! ## Replies (R177, R179, R184, R188) -/

/-- A reply, or a notice, is composed: STATUS without ALERT, ECHO and DATA as given, its own DSEQ; EVSUM and ALERT as they stand. -/
def State.compose (s : State) (l : Link) (status echo data : Nat) : State :=
  let s := s.settle
  let d := ((s.link l).dseq + 1) % 65536
  let r : Reply := { status := status + b2n s.alert, dseq := d, echo := echo % 65536, data := data % 2 ^ 32, evsum := s.evsum }
  s.lnk l fun k => { k with dseq := d, last := r }

/-- The first reply after a power-on or system reset (R187). -/
def State.resetReply (s : State) : Reply :=
  { status := 2 * resRst + b2n s.alert, dseq := 0, echo := 0, data := (s.word 0x11).toNat, evsum := s.evsum }

/-- The notice of R186 for an ignored frame; `fcause` as in Table 6-5. -/
def State.notice (s : State) (l : Link) (fcause alive hseq : Nat) : State :=
  let k := s.link l
  s.compose l (64 + 16 * fcause) k.accHseq ((k.expAlive.getD 0) % 16 + alive % 16 * 16 + hseq % 65536 * 65536)

/-- A reply with UNDERRUN set (R185). -/
def Reply.again (r : Reply) : Reply := { r with status := r.status ||| 128 }

/-! ## Acceptance (R181 to R183, R188) -/

/-- The alive expectation advances by one: a length error, a failed CRC or a failed tag (R182). -/
def LinkSt.aliveSkip (k : LinkSt) : LinkSt := { k with expAlive := some ((k.expAlive.getD 0 + 1) % 16) }

/-- The alive expectation after a frame that carried `alive`. -/
def LinkSt.aliveSet (k : LinkSt) (alive : Nat) : LinkSt := { k with expAlive := some ((alive + 1) % 16) }

/-- A frame's ALIVE is in step (R182). -/
def LinkSt.inStep (k : LinkSt) (alive : Nat) : Bool := k.expAlive.all fun e => e == alive

/-- The HSEQ gap counter of a link. -/
def gapFld : Link → Fld
  | .spi => LNK_SPI_STAT_HSEQ_GAP | .gr => LNK_GR_STAT_HSEQ_GAP

/-- An accepted frame, or a chain transfer of the right length, restarts the host watchdog and ends its expiry (R131, R198). -/
def State.hostAlive (s : State) : State :=
  let s := s.bt fun b => { b with hostAt := s.now }
  if s.gb DEV_WDOG_CFG_EXPIRED then (s.put DEV_WDOG_CFG_EXPIRED 0).safeClear scHWDOG else s

/-- What the acceptance of a frame changes (R182, R188, R191). -/
def State.acceptWork (s : State) (l : Link) (alive hseq : Nat) : State :=
  let k := s.link l
  let s := if k.accAny && hseq ≠ (k.accHseq + 1) % 65536 then s.inc (gapFld l) else s
  (s.lnk l fun k => { k.aliveSet alive with accAny := true, accHseq := hseq }).hostAlive

/-- A frame is accepted; the cycle that performs it finds it accepted (R183). -/
def State.acceptFrame (s : State) (l : Link) (alive hseq : Nat) : State := s.earlier fun s => s.acceptWork l alive hseq

/-- The counter of a frame ignored for its CRC. -/
def crcFld : Link → Fld
  | .spi => LNK_SPI_CNT_CRC_ERR | .gr => LNK_GR_FCNT_CRC_ERR
/-- The counter of a frame ignored for its ALIVE. -/
def aliveFld : Link → Fld
  | .spi => LNK_SPI_CNT_ALIVE_ERR | .gr => LNK_GR_FCNT_ALIVE_ERR
/-- The counter of a frame dropped unperformed. -/
def underFld : Link → Fld
  | .spi => LNK_SPI_CNT_UNDERRUN | .gr => LNK_GR_FCNT_UNDERRUN

/-! ## Performing (R178, R183, R191) -/

/-- A performed write's own sequence record (R191). -/
def State.noteWrite (s : State) (l : Link) (h : HeldFrame) : State :=
  if h.addr = 0x30 then s else s.lnk l fun k => { k with wrHseq := h.hseq, wrAddr := h.addr }

/-- An accepted frame makes its access; `pre` holds the link's frame fields before it was accepted (R190). State, DATA and RES of
the reply. -/
def State.performAccess (s : State) (l : Link) (h : HeldFrame) (pre : LinkSt) : State × Nat × Nat :=
  let s := s.hostBegin
  match h.op with
  | 0 => (s, s.atStart.devState, resOk)
  | 1 =>
    let (s, w, res) := s.hostRead l h.addr
    (s, w.toNat, res)
  | _ =>
    let before := (s.atStart.seen l h.addr).toNat
    let (s, res) := s.hostWrite l h.addr (W h.data) h.hseq pre
    let s := s.noteWrite l h
    (s, if bit h.flags 0 then before else (s.seen l h.addr).toNat, res)

/-- An accepted frame is performed and its reply composed (R183, R184, R191). RES takes the first result in the order of R179; one
access gives one result. -/
def State.performFrame (s : State) (l : Link) (h : HeldFrame) (pre : LinkSt) : State :=
  let (s, data, res) := s.performAccess l h pre
  let s := s.lnk l fun k => { k with perfHseq := h.hseq, held := none }
  let s := { s with arb := { s.arb with lastLink := l } }
  s.compose l (2 * res) h.hseq data

/-- An accepted frame can be performed now (R162, R185). -/
def State.frameReady (s : State) (l : Link) (h : HeldFrame) : Bool := h.op ≠ 1 || s.readReady l h.addr

/-- The Grelas link's own state changed by `f`. -/
def State.gre (s : State) (f : GrelasSt → GrelasSt) : State := { s with grelas := f s.grelas }

/-- The next slot's reply takes the contents of R187 where it is the first after a reset. -/
def State.grFirst (s : State) : State :=
  if (s.link .gr).rstDue then
    let r := s.resetReply
    s.lnk .gr fun k => { k with rstDue := false, dseq := 0, last := r }
  else s

/-- The reply composed last takes its slot. -/
def State.grSlot (s : State) : State :=
  let s := s.grFirst
  s.gre fun g => { g with slots := g.slots ++ [(s.link .gr).last] }

/-- A link holds a frame that can be performed now. -/
def State.heldReady (s : State) (l : Link) : Bool :=
  s.answers && (l == .spi || !s.gb CLK_STAT_RC_ONLY) && (s.link l).held.any fun h => s.frameReady l h

/-- The frame that a link holds is performed; a Grelas reply takes its slot. -/
def State.performHeld (s : State) (l : Link) : State :=
  match (s.link l).held with
  | none => s
  | some h =>
    let s := s.performFrame l h (s.link l)
    match l with
    | .spi => s
    | .gr => s.grSlot

/-- The link arbiter before a frame of `l`: where the other link holds a frame that can be performed and `l` had the last turn, that
frame goes first (R45). -/
def State.turnOf (s : State) (l : Link) : State :=
  if s.arb.lastLink == l && s.heldReady l.other then s.performHeld l.other else s

/-- One frame of right length taken: CRC, ALIVE, then performed, held back or answered as BAD_OP (R178, R181 to R183). -/
def State.takeFrame (s : State) (l : Link) (b : List Nat) : State :=
  let h := heldOf b
  let alive := aliveOf b
  if !crcOk b then (s.earlier fun s => (s.inc (crcFld l)).lnk l LinkSt.aliveSkip).notice l 0 alive h.hseq
  else if !(s.link l).inStep alive then (s.earlier fun s => (s.inc (aliveFld l)).lnk l fun k => k.aliveSet alive).notice l 1 alive h.hseq
  else
    let pre := s.link l
    let s := s.acceptFrame l alive h.hseq
    if h.badOp then s.compose l (2 * resBadOp) h.hseq 0
    else if s.frameReady l h then (s.turnOf l).performFrame l h pre
    else s.lnk l fun k => { k with held := some h }

/-! ## The SPI host port (R173 to R175, R184 to R187) -/

/-- Chain mode follows the mode last written, at a falling edge of HCS_N (R195). -/
def State.chainFollow (s : State) : State :=
  if s.g LNK_SPI_CFG_CHAIN_PERM = 1 then s.putB LNK_SPI_STAT_MODE_ACT s.chainMode else s

/-- The reply that a frame opening now carries: the last one composed, or, where the frame before it has not been performed and
is dropped, that one again (R184, R185, R187). -/
def State.openReply (s : State) : State :=
  if (s.link .spi).rstDue then
    let r := s.resetReply
    s.lnk .spi fun k => { k with rstDue := false, dseq := 0, last := r, out := some r, held := none }
  else if (s.link .spi).held.isSome then
    (s.inc LNK_SPI_CNT_UNDERRUN).lnk .spi fun k => { k with held := none, out := some k.last.again }
  else s.lnk .spi fun k => { k with out := some k.last }

/-- HCS_N falls to open a frame (R173, R175). Citen or chain mode is settled here for the whole interval (R195, R201). -/
def State.frameOpen (s : State) (mode3 : Bool) : State :=
  if !s.answers then s
  else
    let s := s.chainFollow
    let s := (s.put LNK_SPI_STAT_SELECTED 1).putB LNK_SPI_STAT_CPHA_MODE3 mode3
    let s := s.lnk .spi fun k => { k with
      chain := s.chainOn
      edge := some { rstDue := k.rstDue, dseq := k.dseq, last := k.last, out := k.out, held := k.held, under := s.g LNK_SPI_CNT_UNDERRUN } }
    s.openReply

/-- HCS_N rises after an interval without an HSCK edge: its falling edge opened no frame, so it dropped none and sent no reply
(R175, R185). A frame that has been performed meanwhile, or a count that has been cleared, stays so. -/
def State.frameUndo (s : State) : State :=
  let s := s.put LNK_SPI_STAT_SELECTED 0
  match (s.link .spi).edge with
  | none => s
  | some e =>
    let s := if s.g LNK_SPI_CNT_UNDERRUN = e.under + 1 then s.put LNK_SPI_CNT_UNDERRUN e.under else s
    s.lnk .spi fun k => { k with rstDue := e.rstDue, dseq := e.dseq, last := e.last, out := e.out, held := e.held, edge := none }

/-- HCS_N rises at the end of a frame. -/
def State.frameShut (s : State) : State :=
  s.earlier fun s => (s.put LNK_SPI_STAT_SELECTED 0).lnk .spi fun k => { k with edge := none }

/-- FRAME_START: HCS_N falls to open a frame (R185). -/
def execFrameStart (dt : Nat) (mode3 : Bool) (s : State) : Outcome State Fault Refusal := done ((s.tickTo dt).frameOpen mode3)

/-- A frame that ends without its start having been told began in the mode of the frame before. -/
def State.ensureOpen (s : State) : State :=
  if s.gb LNK_SPI_STAT_SELECTED then s else s.frameOpen (s.gb LNK_SPI_STAT_CPHA_MODE3)

/-- A frame ends with the rising edge of HCS_N. An interval without an HSCK edge is no frame (R175). -/
def State.spiFrame (s : State) (op : Nat) (f : Frame) : State :=
  if !s.answers then s
  else if f.edges = 0 then s.frameUndo
  else
    let s := s.ensureOpen.frameShut
    if (s.link .spi).chain then (if f.edges = 40 * (s.g LNK_SPI_CFG_CHAIN_LEN + 1) then s else s.chainBad)
    else if f.edges ≠ 96 then
      ((s.inc LNK_SPI_CNT_LEN_ERR).lnk .spi LinkSt.aliveSkip).notice .spi 2 f.alive.toNat f.hseq.toNat
    else s.takeFrame .spi (frameBytes f op ++ toBytes 2 f.crc.toNat)

/-- CITEN_NOP: a frame with opcode 0 (R178). -/
def execCitenNop (dt : Nat) (f : Frame) (s : State) : Outcome State Fault Refusal := done ((s.tickTo dt).spiFrame 0 f)

/-- CITEN_READ: a frame with opcode 1 (R178). -/
def execCitenRead (dt : Nat) (f : Frame) (s : State) : Outcome State Fault Refusal := done ((s.tickTo dt).spiFrame 1 f)

/-- CITEN_WRITE: a frame with opcode 2 (R178). -/
def execCitenWrite (dt : Nat) (f : Frame) (s : State) : Outcome State Fault Refusal := done ((s.tickTo dt).spiFrame 2 f)

/-- CITEN_BAD_OP: a frame with another opcode, or one with a reserved FLAGS bit (R178). -/
def execCitenBadOp (dt : Nat) (op : BitVec 4) (f : Frame) (s : State) : Outcome State Fault Refusal :=
  done ((s.tickTo dt).spiFrame op.toNat f)

/-! ## Chain transfers (R196, R198) -/

/-- The first 96 bits of a transfer's words, as bytes; zeros where fewer words came. -/
def chainBytes (ws : List (BitVec 40)) : List Nat :=
  ((List.range 3).flatMap fun i => toBytes 5 (ws.getD i 0).toNat).take 12

/-- What a transfer's bits show to Citen mode. -/
def chainAsFrame (edges : Nat) (ws : List (BitVec 40)) : Frame :=
  let b := chainBytes ws
  let h := heldOf b
  { edges := edges, alive := BitVec.ofNat 4 (aliveOf b), hseq := BitVec.ofNat 16 h.hseq, addr := BitVec.ofNat 16 h.addr
    data := BitVec.ofNat 32 h.data, flags := BitVec.ofNat 8 h.flags, crc := BitVec.ofNat 16 (ofBytes (b.drop 10)) }

/-- CHAIN_TRANSFER: an interval of `edges` HSCK edges ends; `ws` are its words in the order of arrival, that of device L - 1 first
(R196, R198). Outside chain mode it is a Citen interval with these bits. -/
def execChainTransfer (dt : Nat) (edges : Nat) (ws : List (BitVec 40)) (s : State) : Outcome State Fault Refusal :=
  let s := s.tickTo dt
  done (if !s.answers then s
    else if edges = 0 then s.frameUndo
    else
      let t := s.ensureOpen
      if !(t.link .spi).chain then s.spiFrame (heldOf (chainBytes ws)).op (chainAsFrame edges ws)
      else
        let t := t.frameShut
        let len := t.g LNK_SPI_CFG_CHAIN_LEN + 1
        if edges ≠ 40 * len then t.chainBad
        else
          let t := t.hostAlive
          let word := fun (v : Fin 8) => (ws.getD (len - 1 - v.val) 0).toNat
          let t := forFin 8 (fun v s => if v.val < len then s.chainLatch v (word v) else s) t
          if (List.finRange 8).any fun v => decide (v.val < len) && chainWStrobes (word v) then t.strobed else t)

end Sys2Proof.Machine
end

