-- ==== Sys2Proof/Machine/LineCode.lean ====
section
/-!
DEFINITION. The line code of the Grelas pair (R206 to R208): Manchester half-bits, bit order, preamble, delimiters, polarity. A
half-bit is true where the line is high (LNKA more positive than LNKB).
-/

namespace Sys2Proof.Machine

/-- The half-bits of one bit: a 1 is low then high, a 0 high then low (R206). -/
def halfBits (b : Bool) : List Bool := [!b, b]

/-- The bits of a byte, most significant first (R206). -/
def byteLine (x : Nat) : List Bool := (List.range 8).map fun i => (x % 256).testBit (7 - i)

/-- The byte that eight bits give. -/
def lineByte (l : List Bool) : Nat := l.foldl (fun n b => 2 * n + b.toNat) 0

/-- The preamble: twelve 1 bits, then 0, 0, 1, 1 (R207). -/
def linePreamble : List Bool := List.replicate 12 true ++ [false, false, true, true]

/-- The half-bits of the start delimiter (R207). -/
def lineStart : List Bool := [true, true, false, false]

/-- The half-bits of the end delimiter (R207). -/
def lineEnd : List Bool := [false, false, false, false]

/-- A packet on the line, inverted as a whole where `inv` (R207, R208). -/
def lineOut (inv : Bool) (bytes : List Nat) : List Bool :=
  (linePreamble.flatMap halfBits ++ lineStart ++ (bytes.flatMap byteLine).flatMap halfBits ++ lineEnd).map fun h => h != inv

/-- The bits that stand before the first pair of half-bits without a mid-bit transition, and the half-bits from there on. -/
def lineBits : List Bool → List Bool × List Bool
  | a :: b :: l =>
    if a != b then
      let (x, r) := lineBits l
      (b :: x, r)
    else ([], a :: b :: l)
  | l => ([], l)

/-- The whole bytes of a run of bits. -/
def lineBytes : List Bool → List Nat
  | a :: b :: c :: d :: e :: f :: g :: h :: l => lineByte [a, b, c, d, e, f, g, h] :: lineBytes l
  | _ => []

/-- What the receiver makes of a run of half-bits that begins with a bit of a preamble: nothing where it finds no preamble of at
least eight bits that ends in 0, 0, 1, 1 or inverted; else the polarity and, after a right start delimiter, the whole bytes up to
the first missing mid-bit transition (R207, R208). -/
def lineIn (l : List Bool) : Option (Bool × Option (List Nat)) :=
  let (pre, r) := lineBits l
  let tail := pre.drop (pre.length - 4)
  if pre.length < 8 then none
  else if tail == [false, false, true, true] || tail == [true, true, false, false] then
    let inv := tail.headD false
    let r := r.map fun h => h != inv
    some (inv, if r.take 4 == lineStart then some (lineBytes (lineBits (r.drop 4)).1) else none)
  else none

end Sys2Proof.Machine
end

