-- ==== Sys2Proof/Machine/Grelas.lean ====
section
/-!
DEFINITION. The Grelas link (R203 to R223): packet checks, polls and their responses, authentication, tick-mark packets, and the
link's status bits. Marks that the link issues act in Tick.lean.
-/

namespace Sys2Proof.Machine

open Host

/-! ## Packets (R209 to R211) -/

/-- A packet that the receiver has read off the line: its polarity and the bytes after the start delimiter (R208, Table 7-2). -/
structure GrPacket where
  inverted : Bool
  bytes : List Nat
  deriving DecidableEq, Repr

/-- The byte at offset `i` of a packet. -/
def pkByte (p : GrPacket) (i : Nat) : Nat := p.bytes.getD i 0

/-- TYPE of a packet. -/
def pkType (p : GrPacket) : Nat := pkByte p 1 / 16
/-- AUTH of a packet. -/
def pkAuth (p : GrPacket) : Bool := bit (pkByte p 1) 3
/-- Bytes of its body: a TICK has 4, other types LEN + 1 frames (Table 7-2). -/
def pkBody (p : GrPacket) : Nat := if pkType p = 2 then 4 else 12 * (pkByte p 1 % 8 + 1)
/-- `k` bytes from offset `i`. -/
def pkBytes (p : GrPacket) (i k : Nat) : List Nat := (p.bytes.drop i).take k
/-- Bytes that the tag covers: header and body. -/
def pkHead (p : GrPacket) : List Nat := pkBytes p 0 (2 + pkBody p)
/-- No mid-bit transition is missing before the CRC ends: the packet holds the bytes that its header announces (R211). What
follows the CRC ends the packet and is not looked at (R207). -/
def pkWhole (p : GrPacket) : Bool := decide (2 + pkBody p + 4 * b2n (pkAuth p) + 4 ≤ p.bytes.length)
/-- Its CRC-32 is right (R210). -/
def pkCrc (p : GrPacket) : Bool :=
  let k := 2 + pkBody p + 4 * b2n (pkAuth p)
  crc32 (pkBytes p 0 k) == ofBytes (pkBytes p k 4)
/-- TYPE, DIR, reserved bits and ADDR fit (R211, Table 7-3). -/
def pkFits (p : GrPacket) : Bool :=
  let b := pkByte p 0
  let adr := b / 8
  b % 8 == 0 && ((pkType p == 0 && decide (1 ≤ adr) && decide (adr ≤ 16)) || (pkType p == 2 && adr == 0))

/-- The link works: from BOOT on (R211), and not where a clock failure has left the module without its crystal (R128). -/
def State.grelasOn (s : State) : Bool := s.answers && !s.gb CLK_STAT_RC_ONLY

/-- The checks of R211: the state with the failed one counted, or with the packet's polarity noted, and the packet where it goes
on. A run of half-bits without a preamble is no packet. -/
def State.grCheck (s : State) (p : Packet) : State × Option GrPacket :=
  if !s.grelasOn then (s, none)
  else match lineIn p.line with
    | none => (s, none)
    | some (_, none) => (s.inc LNK_GR_CNT_PKT_FMT, none)
    | some (inv, some bytes) =>
      let q : GrPacket := ⟨inv, bytes⟩
      if !pkWhole q then (s.inc LNK_GR_CNT_PKT_FMT, none)
      else if !pkCrc q then (s.inc LNK_GR_CNT_PKT_CRC, none)
      else if !pkFits q then (s.inc LNK_GR_CNT_PKT_FMT, none)
      else if pkType q = 0 && pkByte q 0 / 8 ≠ s.g LNK_GR_CFG_NODE then (s, none)
      else (s.earlier fun s => s.putB LNK_GR_STAT_RX_INV inv, some q)

/-! ## Authentication (R220 to R223) -/

/-- The extension of a 16-bit HSEQ by HX (R223). -/
def grExtend (hx h : Nat) : Nat :=
  let x := hx / 65536 * 65536 + h % 65536
  if x ≤ hx then x + 65536 else x

/-- The tag over a message with epoch `e` and `x` (R222). -/
def State.grTag (s : State) (e x : Nat) (msg : List Nat) : List Nat :=
  (cmac ((s.boot.opts.authKey.map nats).getD []) (toBytes 4 e ++ toBytes 4 x ++ msg)).take 4

/-- The packet carries a tag that matches. -/
def State.grTagged (s : State) (p : GrPacket) (e x : Nat) : Bool :=
  pkAuth p && s.grTag e x (pkHead p) == pkBytes p (2 + pkBody p) 4

/-- Frames of a poll. -/
def pkFrames (p : GrPacket) : List (List Nat) := (List.range (pkBody p / 12)).map fun i => pkBytes p (2 + 12 * i) 12

/-- A poll that may go untagged: every frame is NOP, or READ of 0x0000 to 0x0004 or LNK_GR_EPOCH (R220). -/
def pkOpen (p : GrPacket) : Bool :=
  (pkFrames p).all fun b =>
    let h := heldOf b
    h.op == 0 || (h.op == 1 && (decide (h.addr ≤ 4) || h.addr == 0x54))

/-! ## Polls (R214, R215) -/

/-- The last reply composed takes a slot again with UNDERRUN, for a frame dropped unperformed (R185, R215). -/
def State.grAgain (s : State) : State :=
  let s := s.inc LNK_GR_FCNT_UNDERRUN
  if (s.link .gr).rstDue then s.grSlot else s.gre fun g => { g with slots := g.slots ++ [(s.link .gr).last.again] }

/-- Frames of a poll taken in order until one is held back (R214). -/
def State.grTake (s : State) : List (List Nat) → State
  | [] => s.gre fun g => { g with todo := [] }
  | b :: l =>
    let s := (s.takeFrame .gr b)
    if (s.link .gr).held.isSome then s.gre fun g => { g with todo := l } else s.grSlot.grTake l

/-- A frame of a poll whose tag failed: ignored, with a notice in its slot (R182, R220). -/
def State.grRefuse (s : State) (b : List Nat) : State :=
  (((s.inc LNK_GR_FCNT_AUTH_ERR).lnk .gr LinkSt.aliveSkip).notice .gr 3 (aliveOf b) (heldOf b).hseq).grSlot

/-- A poll that passed R211 (R214, R220, R223). -/
def State.grPoll (s : State) (p : GrPacket) : State :=
  let fs := pkFrames p
  let auth := s.gb LNK_GR_CFG_AUTH
  let hx := s.grelas.hx
  let x := grExtend hx (heldOf (fs.headD [])).hseq
  let good := auth && s.grTagged p (s.g LNK_GR_EPOCH_EPOCH) x && decide (x - hx ≤ 0x8000)
  let refuse := auth && !good && !pkOpen p
  let s := s.lnk .gr fun k => { k with held := none }
  let s := s.gre fun g => { g with
    todo := [], slots := [], pollAt := some s.now, tagged := good || refuse, x := x, inv := p.inverted, composed := none,
    hx := if good then grExtend hx (heldOf (fs.getLastD [])).hseq else hx }
  if refuse then fs.foldl State.grRefuse (s.inc LNK_GR_CNT_TAG_ERR) else s.grTake fs

/-- A frame of the poll that was not performed at composition: an ignored one gets its notice, an accepted one the link's last
reply again (R183, R215). -/
def State.grLate (s : State) (b : List Nat) : State :=
  let h := heldOf b
  let alive := aliveOf b
  if !crcOk b then (((s.inc (crcFld .gr)).lnk .gr LinkSt.aliveSkip).notice .gr 0 alive h.hseq).grSlot
  else if !(s.link .gr).inStep alive then
    (((s.inc (aliveFld .gr)).lnk .gr fun k => k.aliveSet alive).notice .gr 1 alive h.hseq).grSlot
  else
    let s := s.acceptFrame .gr alive h.hseq
    if h.badOp then (s.compose .gr (2 * resBadOp) h.hseq 0).grSlot
    else s.grAgain

/-- EVSUM and ALERT of the replies are those of the response's composition; a repeated reply repeats what its original shows. -/
def State.grStamp (s : State) : State :=
  let ev := s.evsum
  let al := b2n s.alert
  let stamp := fun (r : Reply) => { r with status := r.status / 2 * 2 + al, evsum := ev }
  let own := fun (r : Reply) => !bit r.status 7 || s.grelas.slots.any fun q => !bit q.status 7 && q.dseq == r.dseq
  let s := s.gre fun g => { g with slots := g.slots.map fun r => if own r then stamp r else r }
  if s.grelas.slots.any fun q => !bit q.status 7 then s.lnk .gr fun k => { k with last := stamp k.last } else s

/-- The response is composed: the frame held back and those behind it are dropped (R214, R215). -/
def State.grCompose (s : State) : State :=
  let s := if (s.link .gr).held.isSome then (s.lnk .gr fun k => { k with held := none }).grAgain else s
  let s := s.grelas.todo.foldl State.grLate s
  let s := s.settle
  s.grStamp.gre fun g => { g with todo := [], composed := some s.now }

/-- Bytes of a reply frame (Table 6-3). -/
def Reply.bytes (r : Reply) : List Nat :=
  let b := [r.status] ++ toBytes 2 r.dseq ++ toBytes 2 r.echo ++ toBytes 4 r.data ++ [r.evsum]
  b ++ toBytes 2 (crc16 b)

/-- The RESPONSE packet (Table 7-2, R222). -/
def State.grPacket (s : State) : List Nat :=
  let g := s.grelas
  let b := [s.g LNK_GR_CFG_NODE * 8 + 4, 16 + 8 * b2n g.tagged + (g.slots.length - 1) % 8] ++ g.slots.flatMap Reply.bytes
  let b := if g.tagged then b ++ s.grTag (s.g LNK_GR_EPOCH_EPOCH) g.x b else b
  b ++ toBytes 4 (crc32 b)

/-! ## Tick-mark packets (R218, R221) -/

/-- A TICK packet that passed R211; the present instant is that of its last CRC bit. -/
def State.grTick (s : State) (p : GrPacket) : State :=
  let t := ofBytes (pkBytes p 2 4)
  let bad := s.gb LNK_GR_CFG_AUTH && !(s.grTagged p 0 t && s.grelas.lastTick.all fun x => decide (t > x))
  if bad then s.inc LNK_GR_CNT_TAG_ERR
  else s.gre fun g => { g with
    mark := some (s.now + usCyc 1 + s.g LNK_GR_TICK_DELAY), tickNum := some t, lastTick := some t }

/-- A packet has arrived. -/
def State.grPacketIn (s : State) (p : Packet) : State :=
  match s.grCheck p with
  | (s, none) => s
  | (s, some q) => if pkType q = 2 then s.grTick q else s.grPoll q

/-- GRELAS_POLL: a POLL packet ends (R214). -/
def execGrelasPoll (dt : Nat) (p : Packet) (s : State) : Outcome State Fault Refusal := done ((s.tickTo dt).grPacketIn p)

/-- GRELAS_TICK_PACKET: a TICK packet ends (R218). -/
def execGrelasTickPacket (dt : Nat) (p : Packet) (s : State) : Outcome State Fault Refusal := done ((s.tickTo dt).grPacketIn p)

/-- GRELAS_RESPONSE_COMPOSE: every frame has been performed, or 14 µs have passed since the poll (R214). -/
def execGrelasResponseCompose (dt : Nat) (s : State) : Outcome State Fault Refusal :=
  let s := s.tickTo dt
  done (match s.grelas.pollAt, s.grelas.composed with
    | some t, none =>
      if !s.grelasOn then s
      else if ((s.link .gr).held.isNone && s.grelas.todo.isEmpty) || decide (s.now - t ≥ usCyc 14) then s.grCompose else s
    | _, _ => s)

/-- GRELAS_RESPONSE_TRANSMIT: the response goes out 2 µs after its composition, not before 4 µs and never later than 20 µs after
the poll, in the poll's polarity (R208, R214). -/
def execGrelasResponseTransmit (dt : Nat) (s : State) : Outcome State Fault Refusal :=
  let s := s.tickTo dt
  done (match s.grelas.pollAt, s.grelas.composed with
    | some t, some c =>
      if s.now - t > usCyc 20 || !s.grelasOn then s.gre fun g => { g with pollAt := none, composed := none }
      else if s.now - c ≥ usCyc 2 && s.now - t ≥ usCyc 4 then
        s.gre fun g => { g with sent := lineOut g.inv s.grPacket, pollAt := none, composed := none }
      else s
    | _, _ => s)

/-- FRAME_DEFERRED_PERFORM: the frame that a link holds can now be performed, and on the Grelas link those behind it follow
(R185, R214). Where both links hold one that can, they take turns (R45). -/
def execFrameDeferredPerform (dt : Nat) (lk : Link) (s : State) : Outcome State Fault Refusal :=
  let s := s.tickTo dt
  done (if (s.link lk).held.isSome && !s.heldReady lk then s
    else
      let s := if (s.link lk).held.isSome then (s.turnOf lk).performHeld lk else s
      match lk with
      | .spi => s
      | .gr => if s.grelasOn then s.grTake s.grelas.todo else s)

/-! ## The pair (R204, R205) -/

/-- LINK_CURRENT_LIMIT: the link current meets or leaves its limit (R205). -/
def execLinkCurrentLimit (dt : Nat) (on : Bool) (s : State) : Outcome State Fault Refusal :=
  done ((s.tickTo dt).putB LNK_GR_STAT_ILIM on)

/-- LINK_REVERSED: the pair is found reversed, or the right way round; the event once after power-on (R204). -/
def execLinkReversed (dt : Nat) (rev : Bool) (s : State) : Outcome State Fault Refusal :=
  let s := (s.tickTo dt).putB PWR_STAT_LINK_REV rev
  done (if rev && !s.power.seenRev then (s.pulse 15 0 0).pw fun p => { p with seenRev := true } else s)

end Sys2Proof.Machine
end

