-- ==== Sys2Proof/Machine/Programs.lean ====
section
/-!
DEFINITION. Traverse programs (R440 to R446): the instructions of Table 15-7. Each command is one instruction that a context
executes; its operands are the words that the context fetches.
-/

namespace Sys2Proof.Machine

open Host

/-! ## Fetching (R440, R442, R444) -/

/-- A context takes no more instructions in this tick. -/
def Ctx.spent (c : Ctx) : Bool := !c.running || c.hold || decide (c.n ≥ 16)

/-- Context `x` is the one that executes now: step 3 of the tick, the contexts before it through (R442). -/
def State.ctxTurn (s : State) (x : Fin 4) : Bool :=
  s.dev == .run && s.tick.on && s.tick.commitDue && decide (s.now - s.tick.mark ≥ 200) && !s.ctxs[x].spent
    && (List.finRange 4).all fun y => !decide (y.val < x.val) || s.ctxs[y].spent

/-- The program words from the context's PC on are `ws`. -/
def State.ctxAt (s : State) (x : Fin 4) (ws : List Nat) : Bool :=
  ws.zipIdx.all fun w => (kvGet s.store (s.ctxs[x].pc + w.2) 0).toNat == w.1

/-- A word's value lies in Table 15-7 (R444). -/
def pLegal (w : Nat) : Bool :=
  match pOp w with
  | 1 => decide (bits w 52 4 ≤ 10) && bits w 47 5 == 0 && !bit w 44 && bits w 0 32 == 0
  | 2 => bits w 42 14 == 0 && bits w 29 3 == 0
  | 3 =>
    let src := bits w 52 4
    let idx := bits w 48 4
    let sel := bits w 44 4
    bits w 29 14 == 0 &&
      match src with
      | 0 => decide (idx < 8) && decide (sel ≤ 5)
      | 1 => decide (idx < 8) && decide (sel ≤ 10)
      | 2 => decide (sel ≤ 3)
      | 3 => decide (idx < 8) && decide (sel ≤ 7)
      | _ => false
  | 4 => bits w 32 24 == 0
  | 5 => bits w 54 2 == 0 && bits w 45 3 == 0 && bits w 0 32 == 0
  | 6 => bits w 50 6 == 0 && bits w 44 4 == 0
  | 7 => bits w 16 40 == 0
  | 8 => decide (bits w 50 3 ≤ 4) && bits w 42 7 == 0 && bits w 29 3 == 0 && bits w 0 16 == 0
  | 9 => bits w 32 7 == 0
  | 10 => bits w 0 56 == 0
  | _ => false

/-- The instruction's words are read through the checked memory; an uncorrectable one stops the context (Table 1-10). -/
def State.ctxFetch (s : State) (x : Fin 4) (k : Nat) : State :=
  (List.range k).foldl (fun (s : State) i =>
    if s.ctxs[x].running then s.memRead .motion (0x4000 + s.ctxs[x].pc + i) false (some x) else s) s

/-- The context executes the instruction `f` at its PC, whose words are `ws` and opcode `op`. -/
def State.ctxRun (s : State) (x : Fin 4) (op : Nat) (ws : List Nat) (f : State → State) : State :=
  let w := ws.headD 0
  if !s.ctxTurn x || !s.ctxAt x ws || (pLegal w && pOp w ≠ op) then s
  else
    let s := s.ctx x fun c => { c with n := c.n + 1 }
    if !pLegal w then
      let s := s.ctxFetch x 1
      s.stopCtx x 5
    else if s.ctxs[x].pc + pLen op > 4096 then s.stopCtx x 7
    else
      let s := s.ctxFetch x (pLen op)
      if s.ctxs[x].running then f s else s

/-! ## Going on (R444) -/

/-- PC moves over an instruction of `k` words. -/
def State.ctxNext (s : State) (x : Fin 4) (k : Nat) : State := s.ctxTo x (s.ctxs[x].pc + k)

/-- The context goes on in the next tick. -/
def State.ctxHold (s : State) (x : Fin 4) (w : PWait) : State := s.ctx x fun c => { c with wait := w, hold := true }

/-! ## Tracking (R443) -/

/-- The most recent entry of a tag. -/
def Ctx.tracked (c : Ctx) (tag : Nat) : Option (Nat × Nat × Option Nat) := c.trk.reverse.find? fun e => e.1 == tag

/-- A descriptor committed by the context: the state after it, and whether it was accepted. -/
def State.ctxCommit (s : State) (x : Fin 4) (r : Nat) (w : Word × Word × Word × Word) : State × Bool :=
  let put := fun (m : RegFile) (i : Nat) (v : Word) => kvSet m (4 * r + i) v 0
  let s := s.ctx x fun c => { c with stg := put (put (put (put c.stg 0 w.1) 1 w.2.1) 2 w.2.2.1) 3 w.2.2.2 }
  let id := s.nextId
  let (s, code) := s.commit (.prog x) r w
  if code = 0 then (s.ctx x fun c => { c with trk := c.trk ++ [(dTag w.1, id, none)] }, true) else (s, false)

/-- The time from which a wait counts. -/
def State.ctxSince (s : State) (x : Fin 4) : Nat :=
  match s.ctxs[x].wait with
  | .tag _ t | .inp t => t
  | .none | .time _ | .homeTag _ | .retry => s.now

/-- A wait's TIMEOUT has passed since `since`. -/
def State.ctxLate (s : State) (w since : Nat) : Bool := bits w 0 16 ≠ 0 && decide (s.now - since ≥ msCyc (bits w 0 16))

/-- The context's wait for `tag`: the ending taken, the failure of a wait that has lasted TIMEOUT, or the wait goes on. -/
def State.ctxWaitTag (s : State) (x : Fin 4) (w tag k cause : Nat) (wait : PWait) : State :=
  match s.ctxs[x].tracked tag with
  | none => s.stopCtx x 9
  | some (_, id, some st) =>
    let s := s.ctx x fun c => { c.untrack id with lastSt := st }
    if st = DONE || st = DONE_LIMITED then s.ctxNext x k else s.ctxFail x w cause
  | some (_, _, none) => if s.ctxLate w (s.ctxSince x) then s.ctxFail x w cause else s.ctxHold x wait

/-! ## The instructions (R445) -/

/-- PUSH: D0 to D3 staged and committed to RING. -/
def State.ctxPush (s : State) (x : Fin 4) (w w2 w3 : Nat) : State :=
  let r := bits w 52 4
  if s.ctxs[x].trk.length ≥ 16 then s.stopCtx x 8
  else if bit w 46 && s.fill r ≥ cmdDepth r then s.ctxHold x .retry
  else
    let (s, ok) := s.ctxCommit x r (W (bits w2 32 32), W (bits w2 0 32), W (bits w3 32 32), W (bits w3 0 32))
    if ok then s.ctxNext x 3 else if bit w 45 then s.ctxTo x (bits w 32 12) else s.stopCtx x 2

/-- PUSH (R445). -/
def execPush (dt : Nat) (x : Fin 4) (w1 w2 w3 : BitVec 64) (s : State) : Outcome State Fault Refusal :=
  done ((s.tickTo dt).ctxRun x 1 [w1.toNat, w2.toNat, w3.toNat] fun s => s.ctxPush x w1.toNat w2.toNat w3.toNat)

/-- WAITTAG (R445). -/
def execWaittag (dt : Nat) (x : Fin 4) (w : BitVec 64) (s : State) : Outcome State Fault Refusal :=
  let t := bits w.toNat 32 10
  done ((s.tickTo dt).ctxRun x 2 [w.toNat] fun s => s.ctxWaitTag x w.toNat t 1 3 (.tag t (s.ctxSince x)))

/-- The word at a context's PC. -/
def State.ctxWord (s : State) (x : Fin 4) : Nat := (kvGet s.store s.ctxs[x].pc 0).toNat

/-- WAITTAG_TIMEOUT: the ending has not come within TIMEOUT ms (R445). -/
def execWaittagTimeout (dt : Nat) (x : Fin 4) (s : State) : Outcome State Fault Refusal :=
  let s := s.tickTo dt
  let w := s.ctxWord x
  done (match s.ctxs[x].wait with
    | .tag t since =>
      if s.ctxTurn x && pOp w = 2 && s.ctxLate w since && ((s.ctxs[x].tracked t).any fun e => e.2.2.isNone) then
        (s.ctx x fun c => { c with n := c.n + 1 }).ctxFail x w 3
      else s
    | .none | .inp _ | .time _ | .homeTag _ | .retry => s)

/-- The value that a WAITIN selects equals LEVEL: pins and trip inputs as the tick mark found them (R442). -/
def State.ctxInput (s : State) (w : Nat) : Bool :=
  let idx := bits w 48 4
  let sel := bits w 44 4
  let n : Fin 8 := ⟨idx % 8, by omega⟩
  let v := match bits w 52 4 with
    | 0 => bit (s.word (AX_PINSTAT_FB0_LVL n).a).toNat sel
    | 1 => bit (s.axState n).toNat (4 + sel)
    | 2 => bit s.tick.trip sel
    | _ => s.axes[n].st.code == sel
  v == bit w 43

/-- WAITIN (R445). -/
def execWaitin (dt : Nat) (x : Fin 4) (w : BitVec 64) (s : State) : Outcome State Fault Refusal :=
  done ((s.tickTo dt).ctxRun x 3 [w.toNat] fun s =>
    if s.ctxInput w.toNat then s.ctxNext x 1
    else if s.ctxLate w.toNat (s.ctxSince x) then s.ctxFail x w.toNat 4
    else s.ctxHold x (.inp (s.ctxSince x)))

/-- WAITIN_TIMEOUT: the value has not come within TIMEOUT ms (R445). -/
def execWaitinTimeout (dt : Nat) (x : Fin 4) (s : State) : Outcome State Fault Refusal :=
  let s := s.tickTo dt
  let w := s.ctxWord x
  done (match s.ctxs[x].wait with
    | .inp since =>
      if s.ctxTurn x && pOp w = 3 && s.ctxLate w since && !s.ctxInput w then
        (s.ctx x fun c => { c with n := c.n + 1 }).ctxFail x w 4
      else s
    | .none | .tag _ _ | .time _ | .homeTag _ | .retry => s)

/-- WAITTIME (R445). -/
def execWaittime (dt : Nat) (x : Fin 4) (w : BitVec 64) (s : State) : Outcome State Fault Refusal :=
  let k := bits w.toNat 0 32
  done ((s.tickTo dt).ctxRun x 4 [w.toNat] fun s =>
    match s.ctxs[x].wait with
    | .time u => if s.tick.no ≥ u then s.ctxNext x 1 else s.ctxHold x (.time u)
    | .none | .tag _ _ | .inp _ | .homeTag _ | .retry =>
      if k = 0 then s.ctxNext x 1 else s.ctxHold x (.time (s.tick.no + k)))

/-- WAITTIME_EXPIRY: the evaluation point TICKS ticks later (R445). -/
def execWaittimeExpiry (dt : Nat) (x : Fin 4) (s : State) : Outcome State Fault Refusal :=
  let s := s.tickTo dt
  done (match s.ctxs[x].wait with
    | .time u => if s.ctxTurn x && s.tick.no ≥ u then (s.ctx x fun c => { c with n := c.n + 1 }).ctxNext x 1 else s
    | .none | .tag _ _ | .inp _ | .homeTag _ | .retry => s)

/-- BREV (R445). -/
def execBrev (dt : Nat) (x : Fin 4) (w : BitVec 64) (s : State) : Outcome State Fault Refusal :=
  let e := bits w.toNat 48 6
  done ((s.tickTo dt).ctxRun x 5 [w.toNat] fun s =>
    if s.ctxs[x].ev.getLsbD e then
      let s := if bit w.toNat 44 then s else s.ctx x fun c => { c with ev := c.ev &&& ~~~(BitVec.ofNat 64 (2 ^ e)) }
      s.ctxTo x (bits w.toNat 32 12)
    else s.ctxNext x 1)

/-- LOOP (R445). -/
def execLoop (dt : Nat) (x : Fin 4) (w : BitVec 64) (s : State) : Outcome State Fault Refusal :=
  let k : Fin 4 := ⟨bits w.toNat 48 2, by unfold bits; omega⟩
  let count := bits w.toNat 0 32
  done ((s.tickTo dt).ctxRun x 6 [w.toNat] fun s =>
    if count = 0 then s.ctxTo x (bits w.toNat 32 12)
    else
      let l := s.ctxs[x].lc[k]
      let l := (if l = 0 then count else l) - 1
      let s := s.ctx x fun c => { c with lc := vupd c.lc k fun _ => l }
      if l ≠ 0 then s.ctxTo x (bits w.toNat 32 12) else s.ctxNext x 1)

/-- RAISE: EV_PROG with CODE (R445, Table 17-1). -/
def execRaise (dt : Nat) (x : Fin 4) (w : BitVec 64) (s : State) : Outcome State Fault Refusal :=
  done ((s.tickTo dt).ctxRun x 7 [w.toNat] fun s => (s.evRaise (56 + x) 0 (bits w.toNat 0 16)).ctxNext x 1)

/-- The descriptor of a program's HOME. -/
def homeDesc (w w2 : Nat) : Word × Word × Word × Word :=
  let ofs := pat 48 (sgn 16 (bits w2 0 16))
  (mkD0 0x23 (bits w 32 10) false false (bits w 50 3) (bits w 49 1), W (bits w2 32 32), W (ofs % 2 ^ 32),
    W (ofs / 2 ^ 32 + bits w2 16 16 * 65536))

/-- HOME: committed once, then waited for (R445). -/
def State.ctxHome (s : State) (x : Fin 4) (w w2 : Nat) : State :=
  let r := bits w 53 3
  let tag := bits w 32 10
  match s.ctxs[x].wait with
  | .homeTag t => s.ctxWaitTag x w t 2 12 (.homeTag t)
  | .none | .tag _ _ | .inp _ | .time _ | .retry =>
    if s.ctxs[x].trk.length ≥ 16 then s.stopCtx x 8
    else if s.fill r ≥ cmdDepth r then s.ctxHold x .retry
    else
      let (s, ok) := s.ctxCommit x r (homeDesc w w2)
      if ok then s.ctxWaitTag x w tag 2 12 (.homeTag tag) else s.ctxFail x w 12

/-- PROG_HOME: the program instruction HOME (R445). -/
def execProgHome (dt : Nat) (x : Fin 4) (w1 w2 : BitVec 64) (s : State) : Outcome State Fault Refusal :=
  done ((s.tickTo dt).ctxRun x 8 [w1.toNat, w2.toNat] fun s => s.ctxHome x w1.toNat w2.toNat)

/-- Addresses that SETREG may name (R445). -/
def setregOk (a : Nat) : Bool :=
  let o := a % 0x100
  decide (0x800 ≤ a) && decide (a < 0x1000) &&
    ((decide (0x10 ≤ o) && decide (o ≤ 0x21)) || o == 0x24 || (decide (0x26 ≤ o) && decide (o ≤ 0x29))
      || (decide (0x41 ≤ o) && decide (o ≤ 0x43)) || o == 0x75 || o == 0x76)

/-- SETREG: a register write, and the strobe of its axis group in the same cycle (R445). -/
def State.ctxSetreg (s : State) (x : Fin 4) (w : Nat) : State :=
  let a := bits w 40 16
  if !setregOk a then s.stopCtx x 6
  else
    let s := s.progWrite a (W (bits w 0 32)) (bit w 39)
    let s := { s with cyc := { s.cyc with prog := s.cyc.prog ++ [(a, W (bits w 0 32), bit w 39)] } }
    s.ctxNext x 1

/-- SETREG (R445). -/
def execSetreg (dt : Nat) (x : Fin 4) (w : BitVec 64) (s : State) : Outcome State Fault Refusal :=
  done ((s.tickTo dt).ctxRun x 9 [w.toNat] fun s => s.ctxSetreg x w.toNat)

/-- END: the context stops with cause 0 (R445). -/
def execProgEnd (dt : Nat) (x : Fin 4) (w : BitVec 64) (s : State) : Outcome State Fault Refusal :=
  done ((s.tickTo dt).ctxRun x 10 [w.toNat] fun s => s.stopCtx x 0)

end Sys2Proof.Machine
end

