-- ==== Sys2Proof/Machine/Tick.lean ====
section
/-!
DEFINITION. The control tick (R20 to R32): what a tick mark samples and starts, which marks are accepted, what the commit point
makes of the tick, the capture trace (R483 to R486), and the entry to READY, which is the first tick mark (Table 4-4).
-/

namespace Sys2Proof.Machine

open Host

/-! ## Inputs of a tick mark (R20) -/

/-- Pin levels of axis `n` at the mark: bits 6n to 6n + 5 are FBn_0, FBn_1, FBn_2, STEPn, DIRn and IDDn (Table 2-6). Without a
filter the home and limit levels follow; a feedback pin under a moisture test keeps its level (R58, R94). -/
def State.pinSample (s : State) (n : Fin 8) (pins : BitVec 48) : State :=
  let l := bits pins.toNat (6 * n.val) 6
  let w := (s.word (AX_PINSTAT_FB0_LVL n).a).toNat
  let s := s.setWord (AX_PINSTAT_FB0_LVL n).a (W (setBits w 0 6 l))
  if s.g (AX_PINSEL_FILT n) ≠ 0 then s
  else
    let now := s.pinLevels n
    s.ax n fun a => { a with
      pinF := if s.mwOn (3 * n.val + 2) then setBits now 0 1 (bits a.pinF 0 1) else now }

/-- A level of the axis: the OR of the filtered pins that carry the function (R56); FBn_2 has no home function. -/
def State.pinFn (s : State) (n : Fin 8) (f : Nat) : Bool :=
  (s.pinHas n f).any fun k => bit s.axes[n].pinF k

/-- Home and limit levels as the tick takes them. -/
def State.pinFlags (s : State) (n : Fin 8) : State :=
  ((s.putB (AX_STATE_LIM_NEG n) (s.pinFn n 2)).putB (AX_STATE_LIM_POS n) (s.pinFn n 3)).putB (AX_STATE_HOME_IN n) (s.pinFn n 1)

/-- HOME_LIMIT_FILTER_PASS: a level, after inversion, has held for `lvl.held` counts without change, FILT microseconds at least (R58). -/
def execHomeLimitFilterPass (dt : Nat) (n : Fin 8) (pin : LimPin) (lvl : Stood) (s : State) : Outcome State Fault Refusal :=
  let s := s.tickTo dt
  let k := match pin with
    | .fb2 => 0
    | .step => 1
    | .dir => 2
  let filt := s.g (AX_PINSEL_FILT n)
  done (if !s.flPins || filt = 0 || lvl.held < usCyc filt || (k = 0 && s.mwOn (3 * n.val + 2)) then s
    else s.ax n fun a => { a with pinF := setBits a.pinF k 1 (b2n lvl.high) })

/-- Standstill as R295 counts it: since when the planned velocity has been zero at every tick mark. -/
def State.restTick (s : State) (n : Fin 8) : State :=
  s.ax n fun a =>
    if !a.st.energised || a.vel ≠ 0 then { a with zeroAt := none, rampAt := none, holdStart := false }
    else { a with zeroAt := some (a.zeroAt.getD s.now) }

/-- Faults that fall due at this tick mark (Table 3-4, R95, R391). -/
def State.dueFaults (s : State) (n : Fin 8) : State :=
  let a := s.axes[n]
  let s := s.ax n fun a => { a with moistDue := false, ocDue := 0 }
  let s := if a.moistDue then s.axisFault n fcMOIST 0 CANCELLED_FAULT else s
  let s := if a.ocDue ≠ 0 then s.axisFault n a.ocDue 0 CANCELLED_FAULT else s
  s.encTick n

/-- The station causes that are active, as bits of `PWR_FLTCAUSEn` (R503). -/
def State.stationCauses (s : State) (st : Fin 2) : Nat :=
  (if s.gb (PWR_STAT_VM_OK st) then 0 else fcUV + (if s.gb (PWR_STAT_REV st) then fcREV else 0))
    + (if s.gb (PWR_STAT_OV st) then fcOV else 0) + (if s.gb (PWR_STAT_CLAMP st) then fcCLAMP else 0)
    + (if s.gb (PWR_STAT_TEMP_TRIP st) then fcTEMP else 0)

/-- An axis that stands energised under a station cause at the mark faults in that tick (R503). -/
def State.causeTick (s : State) (n : Fin 8) : State :=
  let p := s.stationCauses (stationOf n)
  if p ≠ 0 && s.energised n then s.axisFault n p 0 CANCELLED_FAULT else s

/-- Overdue scrub words: up to four in the snapshot phase (R37). -/
def State.overdue (s : State) : Nat → State
  | 0 => s
  | k + 1 =>
    if s.gb DEV_MEM_CFG_SCRUB_EN && decide (s.ecc[mix .motion].slotAt + 24000 ≤ s.now) then
      (((s.memRead .motion s.ecc[mix .motion].scrub true none).scrubNext .motion).mm .motion fun e => { e with
        slotAt := e.slotAt + 24000 }).overdue k
    else s

/-- The scrubber's slots: none run while scrubbing is off. -/
def State.scrubTick (s : State) : State :=
  let s := s.overdue 4
  if s.gb DEV_MEM_CFG_SCRUB_EN then s else s.mm .motion fun e => { e with slotAt := s.now }

/-- The arbiter mode takes force, with all credits zero at a change (R44). -/
def State.arbTick (s : State) : State :=
  if s.g DEV_ARB_CFG_MODE = s.g DEV_ARB_STAT_MODE_ACT then s
  else
    let s := s.put DEV_ARB_STAT_MODE_ACT (s.g DEV_ARB_CFG_MODE)
    { s with arb := { s.arb with credits := [0, 0, 0] } }

/-- `LNK_GR_STAT.MARK_OK` falls once no packet has issued a mark for MARK_DIV + 1 periods (R218). -/
def State.markOkTick (s : State) : State :=
  let lim := (or1 (s.g LNK_GR_CFG_MARK_DIV) + 1) * s.g CLK_TICK_CFG_PERIOD
  match s.grelas.lastPkt with
  | some t => if s.now - t > lim then s.put LNK_GR_STAT_MARK_OK 0 else s
  | none => s

/-! ## The tick mark (R21) -/

/-- Sampling at the mark: pins, datum ports, observers, coil sums, supplies. -/
def State.markSample (s : State) (pins : BitVec 48) : State :=
  let s := (s.put PWR_VMS_VM0 s.power.vms[0]).put PWR_VMS_VM1 s.power.vms[1]
  let s := forFin 8 (fun n s => (((s.pinSample n pins).dpTick n).obsMark n).restTick n) s
  forFin 16 (fun c s => s.coilTick c) s

/-- The snapshot phase: what waited for the mark takes force, then the commands (R21, R236 to R240). -/
def State.markApply (s : State) : State :=
  let s := forFin 8 (fun n s => s.idTick n) s.ceilTick
  let s := s.applyStrobes
  let s := forFin 8 (fun n s => s.pinFlags n) s
  s.gathered fun s =>
    let s := forFin 8 (fun n s => s.dueFaults n) s
    let s := forFin 8 (fun n s => s.rstAxis n) s
    let s := s.rstRings.execMark
    forFin 8 (fun n s => (s.causeTick n).tripTick n) s

/-- What the engines begin at the mark: coordinated moves, and the watches that run tick by tick. -/
def State.markRun (s : State) : State :=
  let s := (s.moveTick 0).moveTick 1
  let s := forFin 8 (fun n s => (((s.bdTick n).calMark n).idchkTick n).dirCheck n) s
  let s := { s with ctxs := s.ctxs.map fun (c : Ctx) => { c with n := 0, hold := false } }
  s.scrubTick

/-- What the governor takes at a mark (R20). -/
def State.govSample (s : State) : List Word :=
  [s.word PWR_GOV_CFG_BUDGET.a, s.word PWR_GOV_TEMP_TMAX_S0.a] ++ ((List.finRange 8).map fun (n : Fin 8) => s.word (PWR_AXCFG_GOV_PRIO n).a)
    ++ [W (b2n s.power.stale[0] + 2 * b2n s.power.stale[1])]

/-- A tick mark: a new tick begins, and SYNC_OUT rises where it is enabled (R20, R21, R30). -/
def State.tickMark (s : State) (pins : BitVec 48) : State :=
  let s := { s with tick := { s.tick with
    mark := s.now, no := s.tick.no + 1, commitDue := true, gov := s.govSample, trip := s.g PWR_TRIP_STAT_LVL,
    sync := if s.gb CLK_TICK_CFG_SYNC_OUT_EN then some s.now else s.tick.sync } }
  (((s.arbTick.markOkTick).markSample pins).markApply).markRun

/-- The tick source in force; 3 acts as 0 (Table 1-6). -/
def State.tickSrc (s : State) : Nat := if s.g CLK_TICK_CFG_SRC = 3 then 0 else s.g CLK_TICK_CFG_SRC

/-- Time since the last tick mark. -/
def State.tickAge (s : State) : Nat := s.now - s.tick.mark

/-- A mark may be made: ticks run and the commit point of the present tick has passed (R29). -/
def State.markFree (s : State) : Bool := s.tick.on && !s.tick.commitDue

/-- The mark of the external source is lost, or found again (R29). -/
def State.srcLost (s : State) (b : Bool) : State :=
  { s.putB CLK_TICK_STAT_SRC_LOST b with tick := { s.tick with lost := b } }

/-- An external mark: accepted inside P - 300 to P + 300, or, while the source is lost, whenever it comes (R29). -/
def State.extMark (s : State) (pins : BitVec 48) : State :=
  let p := s.g CLK_TICK_CFG_PERIOD
  if !s.markFree then s
  else if s.tick.lost then (s.srcLost false).tickMark pins
  else if decide (p - 300 ≤ s.tickAge) && decide (s.tickAge ≤ p + 300) then s.tickMark pins
  else s

/-- TICK_MARK: the module's own mark, P cycles after the last one: with the internal source, or while the external one is lost
(R21, R29). -/
def execTickMark (dt : Nat) (pins : BitVec 48) (s : State) : Outcome State Fault Refusal :=
  let s := s.tickTo dt
  done (if s.markFree && (s.tickSrc == 0 || s.tick.lost) && decide (s.g CLK_TICK_CFG_PERIOD ≤ s.tickAge) then s.tickMark pins else s)

/-- SYNC_IN_EDGE: a rising edge on SYNC_IN, an external mark with SRC = 1 (R29). -/
def execSyncInEdge (dt : Nat) (pins : BitVec 48) (s : State) : Outcome State Fault Refusal :=
  let s := s.tickTo dt
  done (if s.tickSrc = 1 then s.extMark pins else s)

/-- MARK_TIMEOUT: no external mark by P + 300 cycles: the module's own mark there, SRC_LOST set (R29). -/
def execMarkTimeout (dt : Nat) (pins : BitVec 48) (s : State) : Outcome State Fault Refusal :=
  let s := s.tickTo dt
  done (if s.markFree && s.tickSrc ≠ 0 && !s.tick.lost && decide (s.g CLK_TICK_CFG_PERIOD + 300 ≤ s.tickAge) then
    (s.srcLost true).tickMark pins
  else s)

/-- The mark that the Grelas link issues: the packet's own, with its number, or a further one (R218). -/
def State.grMark (s : State) : State :=
  let div := or1 (s.g LNK_GR_CFG_MARK_DIV)
  let left := match s.grelas.tickNum with
    | some _ => div - 1
    | none => s.grelas.marksLeft - 1
  let s := match s.grelas.tickNum with
    | some t => ((s.put LNK_GR_TICKNUM_TICKNUM t).put LNK_GR_STAT_MARK_OK 1).gre fun g => { g with lastPkt := some s.now }
    | none => s
  s.gre fun g => { g with
    tickNum := none, marksLeft := left, mark := if left = 0 then none else some (s.now + s.g CLK_TICK_CFG_PERIOD) }

/-- GRELAS_MARK_ISSUE: the delay after a tick-mark packet, or a further period, has passed (R218); an external mark with
SRC = 2. -/
def execGrelasMarkIssue (dt : Nat) (pins : BitVec 48) (s : State) : Outcome State Fault Refusal :=
  let s := s.tickTo dt
  done (match s.grelas.mark with
    | some t =>
      if s.now < t then s
      else
        let s := s.grMark
        if s.tickSrc = 2 then s.extMark pins else s
    | none => s)

/-! ## The axis engines (R22, R23) -/

/-- The limits of R271 from the present planned velocity, published for the station engine. -/
def State.torqTick (s : State) (n : Fin 8) : State :=
  if s.axes[n].st == .off || s.axes[n].st == .idle || !s.gb (AX_PLN_CFG_TORQ_EN n) then (s.put (AX_STATE_NOCURVE n) 0).ax n fun a => { a with tqPub := none }
  else match s.torque n (s.torqCfg n) s.axes[n].vel with
    | none => (s.put (AX_STATE_NOCURVE n) 1).ax n fun a => { a with tqPub := none }
    | some q =>
      let s := (s.put (AX_TORQ_STAT_T_AVAIL n) (satU 16 (q.av / 65536))).put (AX_TORQ_ALIM_A_ACC n) (satU 32 q.aAcc)
      (s.put (AX_STATE_NOCURVE n) 0).ax n fun a => { a with tqPub := some (q.aAcc, q.aDec, q.vZero) }

/-- The planner's step of an axis, by its state (Table 9-1). -/
def State.planTick (s : State) (n : Fin 8) : State :=
  match s.axes[n].st with
  | .follow => s.followTick n
  | .homing => s.homeTick n
  | .quiescing => if s.onLine n then s.coordTick n else (s.homeQuiet n).profTick n
  | .moving => if s.onLine n then s.coordTick n else (s.blendRun n).profTick n
  | .off | .idle | .hold | .fault => s

/-- A stake or a step that moves the axis returns the state current to RUN in the tick of that motion (R295). -/
def State.moveCurrent (s : State) (n : Fin 8) (old : Int) : State :=
  s.ax n fun a => if a.pos ≠ old || a.vel ≠ 0 then { a with zeroAt := none, rampAt := none, holdStart := false } else a

/-- One axis engine's work of a tick, in the order of R22. -/
def State.axisWork (s : State) (n : Fin 8) : State :=
  let old := s.axes[n].pos
  let s := (((s.obsRun n).closureRun n).stallRun n).closureNote n
  let s := ((s.stallPlan n).closureAct n).torqTick n
  let s := if s.onLine n then s else s.hwLimit n
  let at0 := s.axes[n].pos
  let s := (s.planTick n).limNote n old
  let s := s.ax n fun a => { a with at_ := s.tick.no + 1 }
  let s := (s.moveCurrent n at0).holdStartRamp n
  (s.sequence n s.axes[n].stallT).obsPublish n

/-- The axis does no work in this tick: it waits, bridges forced open, for the end of its block reset (R134). -/
def State.axisIdle (s : State) (n : Fin 8) : Bool :=
  s.axes[n].rst == .finish && s.gBit DEV_BLKRST_STAT_FORCED n

/-! ## The capture trace (R483 to R486) -/

/-- A coil's setpoint code and S0 sample as a set records them. -/
def State.capCoil (s : State) (n : Fin 8) (c : Fin 16) : Nat × Nat :=
  (if s.energised n then pat 13 s.coils[c].sp else 0, pat 12 s.coils[c].markS0)

/-- The two samples of axis `n` (Table 17-4). -/
def State.capSamples (s : State) (n : Fin 8) : List (BitVec 64) :=
  let la := pat 8 (s.gi (AX_OBS_LA_LA n) / 4)
  let v := s.energised n && s.gb (AX_OBS_LA_VALID n)
  let (spA, iA) := s.capCoil n (coilA n)
  let (spB, iB) := s.capCoil n (coilB n)
  [BitVec.ofNat 64 (n.val * 2 ^ 28 + iA * 2 ^ 16 + la / 32 * 2 ^ 13 + spA),
   BitVec.ofNat 64 (b2n v * 2 ^ 30 + iB * 2 ^ 18 + la % 32 * 2 ^ 13 + spB)]

/-- Sets to write after the trigger set, by CAP. -/
def capSets (c : Nat) : Nat := if c = 1 then 128 else if c = 2 then 512 else 896

/-- The trace freezes after the last set of its trigger (R486). -/
def State.capFreeze (s : State) : State :=
  match s.cap.trig with
  | some (e, c) =>
    if s.cap.left = some 0 && !s.cap.frozen then ({ s with cap := { s.cap with frozen := true } }).pulse 55 0 (e % 64 + 64 * c) else s
  | none => s

/-- One sample set; a full ring releases its oldest set first (R485). -/
def State.capSet (s : State) : State :=
  if s.cap.frozen then s.inc (RRNG_CNT_OVF 13)
  else
    let l := (List.finRange 8).flatMap fun n => s.capSamples n
    let s := s.ring 2 fun r =>
      let r := if r.recs.length + 16 > 16384 then r.drop 16 else r
      { r with recs := r.recs ++ l }
    match s.cap.trig, s.cap.left with
    | some (_, c), none => { s with cap := { s.cap with left := some (capSets c) } }
    | some _, some k => { s with cap := { s.cap with left := some (k - 1) } }
    | none, _ => s

/-- CAPTURE_FREEZE: the last set after the trigger has been written (R486). -/
def execCaptureFreeze (dt : Nat) (s : State) : Outcome State Fault Refusal := done (s.tickTo dt).capFreeze

/-! ## The commit point (R21, R26, R27) -/

/-- Target of the executing position stake or of this axis's own part; 0 in every other case (Table 5-6, item 0x12). -/
def State.itemTarget (s : State) (n : Fin 8) : Int :=
  let a := s.axes[n]
  match s.stations[stationOf n].mv, a.coord with
  | some m, some (p0, d) => if m.stopping || m.waiting then 0 else (p0 + d) / 65536
  | _, _ =>
    if a.st == .moving && (s.execOf n).any Cmd.isPos then (a.prof.bind fun (f : Prof) => f.target).getD 0 else 0

/-- Words of an axis item (Table 5-6). -/
def State.itemWords (s : State) (item : Nat) (n : Fin 8) : List Nat :=
  let a := s.axes[n]
  match item with
  | 0x10 => words48 a.planned
  | 0x11 => words48 a.dp.m
  | 0x12 => words48 (s.itemTarget n)
  | _ => words48 a.planned ++ words48 a.dp.m ++ [pat 32 (a.vel / 65536), s.tick.mark % 2 ^ 32, s.tick.mark / 2 ^ 32 % 2 ^ 32]

/-- Requests made before this commit point are delivered (R167). -/
def State.mbCommit (s : State) : State :=
  forFin 8 (fun m s =>
    match s.mbox[m].req with
    | some t =>
      if t < s.now then
        let ws := s.itemWords (s.g (MB_REQ_ITEM m)) ⟨s.g (MB_REQ_INDEX m) % 8, by omega⟩
        ({ s with mbox := vupd s.mbox m fun b => { b with req := none } }).mbDeliver m ws
      else s
    | none => s) s

/-- An axis that the host watchdog stops enters FAULT once it stands in HOLD (R131). -/
def State.hwdogTick (s : State) (n : Fin 8) : State :=
  if s.axes[n].hwdog && s.axes[n].st == .hold then s.axisFault n 0 afHWDOG CANCELLED_FAULT else s

/-- The tick registers of a commit point: finish times, margin, overruns (R27, Tables 1-7 to 1-9). -/
def State.tickStat (s : State) (fin : Vector (BitVec 16) 8) (late : Fin 8 → Bool) : State :=
  let p := s.g CLK_TICK_CFG_PERIOD
  let fins := (List.finRange 8).map fun n => if late n then 0xFFFF else fin[n].toNat
  let lateBits := gather 8 fun n => if h : n < 8 then late ⟨n, h⟩ else false
  let last := fins.foldl max 0
  let s := { s with tick := { s.tick with fins := fins } }
  let s := (List.range 8).foldl (fun (s : State) n => s.maxPut (CLK_TICK_MAX_MAX n) (fins.getD n 0)) s
  let s := (s.put CLK_TICK_LAST_FINISH last).put CLK_TICK_LAST_LATE lateBits
  let s := s.putB CLK_TICK_STAT_MARGIN (decide (last * 16 > s.g CLK_TICK_CFG_WARN * p))
  let s := s.putB CLK_TICK_STAT_OVERRUN (lateBits ≠ 0)
  let s := if lateBits = 0 then s.put CLK_TICK_STAT_OVR_CONSEC 0
    else ((s.inc CLK_TICK_STAT_OVR_CONSEC).inc CLK_TICK_LAST_OVR_TOTAL).pulse 2 0 lateBits
  let lim := s.g CLK_TICK_CFG_OVR_LIMIT
  let act := lim ≠ 0 && decide (s.g CLK_TICK_STAT_OVR_CONSEC ≥ lim)
  if act = s.gBit DEV_STATE_SAFE_CAUSE scTICK then s
  else if act then s.safeCause scTICK else s.safeClear scTICK

/-- The commit point of a tick: axes that have finished commit, commands end, ceilings are published (R21, R26). -/
def State.commitPoint (s : State) (fin : Vector (BitVec 16) 8) : State :=
  let lim := s.g CLK_TICK_CFG_PERIOD - 400
  let late := fun (n : Fin 8) => decide (fin[n].toNat > lim)
  let s := s.capFreeze
  let s := { s with cyc := { s.cyc with ends := some [] } }
  let s := forFin 8 (fun n s => s.boostRun n) s
  let s := forFin 8 (fun n s => if s.axisIdle n then s else if late n then s.lateAxis n else s.axisWork n) s
  let s := forFin 8 (fun n s => s.hwdogTick n) (s.movesCommit late)
  let s := ((s.memWork).commitEnds).mbCommit
  let s := (s.govern.capSet).tickStat fin late
  { s with tick := { s.tick with commitDue := false } }

/-- COMMIT_POINT: P - 400 cycles after the tick mark; `fin` gives each axis's finish time from the mark (R21, R26). -/
def execCommitPoint (dt : Nat) (fin : Vector (BitVec 16) 8) (s : State) : Outcome State Fault Refusal :=
  let s := s.tickTo dt
  done (if s.tick.on && s.tick.commitDue && decide (s.g CLK_TICK_CFG_PERIOD - 400 ≤ s.tickAge) then s.commitPoint fin else s)

/-! ## Entry to READY (R111, R116, R125, Table 4-4) -/

/-- The device enters READY: at the first tick mark. -/
def State.enterReady (s : State) (pins : BitVec 48) : State :=
  let s := { s with dev := .ready }
  let s := s.bt fun b => { b with cfgValid := true, ceilFrozen := false, reload := false, stage := 0 }
  let s := s.pulse 0 0 (s.g DEV_RSTCAUSE_CAUSE + 4 * s.g DEV_RSTCAUSE_PROMOTED + 8 * s.g DEV_RSTCAUSE_HELDOFF)
  let s := forFin 2 (fun st (s : State) => s.svu st fun v => { v with first := false }) s
  let s := (s.surveyStart.v5Follow).su fun v => { v with idPollAt := s.now }
  let s := { s with tick := { s.tick with on := true, lost := false } }
  let s := forFin 8 (fun n (s : State) => s.ax n fun a => { a with at_ := s.tick.no + 1 }) s
  let s := (s.put CLK_TICK_STAT_SRC_LOST 0).startPwm.tickMark pins
  if s.g DEV_STATE_SAFE_CAUSE ≠ 0 then s.enterSafe else s

/-- ENTER_READY: loading is complete and the full-logic domain is powered (Table 4-4). -/
def execEnterReady (dt : Nat) (pins : BitVec 48) (s : State) : Outcome State Fault Refusal :=
  let s := s.tickTo dt
  done (if s.dev == .configLoad && s.boot.stage = 3 && s.flOn then s.enterReady pins else s)

end Sys2Proof.Machine
end

