-- ==== Sys2Proof/Machine/Dispatch.lean ====
section
/-!
DEFINITION. One arm per command: each calls its meaning.
-/

namespace Sys2Proof.Machine

/-- The effect of a command on everything but the queue. -/
def exec (i : Instr) (s : State) : Host.Outcome State Fault Refusal :=
  match i with
  | .tickMark dt pins => Sys2Proof.Machine.execTickMark dt pins s
  | .commitPoint dt fin => Sys2Proof.Machine.execCommitPoint dt fin s
  | .syncInEdge dt pins => Sys2Proof.Machine.execSyncInEdge dt pins s
  | .markTimeout dt pins => Sys2Proof.Machine.execMarkTimeout dt pins s
  | .scrubRead dt mem => Sys2Proof.Machine.execScrubRead dt mem s
  | .eccWriteBack dt mem written => Sys2Proof.Machine.execEccWriteBack dt mem written s
  | .memInject dt lk data => Sys2Proof.Machine.execMemInject dt lk data s
  | .memClrCnt dt lk => Sys2Proof.Machine.execMemClrCnt dt lk s
  | .memClrFirst dt lk => Sys2Proof.Machine.execMemClrFirst dt lk s
  | .clrMax dt lk => Sys2Proof.Machine.execClrMax dt lk s
  | .clrTotal dt lk => Sys2Proof.Machine.execClrTotal dt lk s
  | .arbWeightUpdate dt act sp wait => Sys2Proof.Machine.execArbWeightUpdate dt act sp wait s
  | .clrMaxwait dt lk => Sys2Proof.Machine.execClrMaxwait dt lk s
  | .homeLimitFilterPass dt n pin lvl => Sys2Proof.Machine.execHomeLimitFilterPass dt n pin lvl s
  | .brakeClampEngage dt st => Sys2Proof.Machine.execBrakeClampEngage dt st s
  | .brakeClampRelease dt st => Sys2Proof.Machine.execBrakeClampRelease dt st s
  | .blockingSwitchOn dt st => Sys2Proof.Machine.execBlockingSwitchOn dt st s
  | .blockingSwitchOff dt st => Sys2Proof.Machine.execBlockingSwitchOff dt st s
  | .vmLockout dt st mv => Sys2Proof.Machine.execVmLockout dt st mv s
  | .vmLockoutRelease dt st => Sys2Proof.Machine.execVmLockoutRelease dt st s
  | .uvWarnChange dt st below => Sys2Proof.Machine.execUvWarnChange dt st below s
  | .vmOvervoltage dt st mv => Sys2Proof.Machine.execVmOvervoltage dt st mv s
  | .vmOvervoltageClear dt st mv => Sys2Proof.Machine.execVmOvervoltageClear dt st mv s
  | .vmReversed dt st mv => Sys2Proof.Machine.execVmReversed dt st mv s
  | .vmReverseClear dt st => Sys2Proof.Machine.execVmReverseClear dt st s
  | .brakeDumpOn dt => Sys2Proof.Machine.execBrakeDumpOn dt s
  | .brakeDumpRelease dt => Sys2Proof.Machine.execBrakeDumpRelease dt s
  | .brakeHot dt => Sys2Proof.Machine.execBrakeHot dt s
  | .brakeHoldoffEnd dt => Sys2Proof.Machine.execBrakeHoldoffEnd dt s
  | .logicSourceChange dt toVm => Sys2Proof.Machine.execLogicSourceChange dt toVm s
  | .fullLogicPowerLoss dt => Sys2Proof.Machine.execFullLogicPowerLoss dt s
  | .fullLogicPowerDown dt => Sys2Proof.Machine.execFullLogicPowerDown dt s
  | .fullLogicPowerReturn dt => Sys2Proof.Machine.execFullLogicPowerReturn dt s
  | .fullLogicRestore dt bad => Sys2Proof.Machine.execFullLogicRestore dt bad s
  | .v5outOverload dt => Sys2Proof.Machine.execV5outOverload dt s
  | .v5outRetry dt => Sys2Proof.Machine.execV5outRetry dt s
  | .v5outFaultClear dt => Sys2Proof.Machine.execV5outFaultClear dt s
  | .powerFail dt vm0 vm1 vlink vbak => Sys2Proof.Machine.execPowerFail dt vm0 vm1 vlink vbak s
  | .holdupEnd dt => Sys2Proof.Machine.execHoldupEnd dt s
  | .fetOvercurrent dt c fets => Sys2Proof.Machine.execFetOvercurrent dt c fets s
  | .clrOc dt lk mask => Sys2Proof.Machine.execClrOc dt lk mask s
  | .clrOpen dt lk mask => Sys2Proof.Machine.execClrOpen dt lk mask s
  | .openCoilDetect dt c => Sys2Proof.Machine.execOpenCoilDetect dt c s
  | .thermalBackstop dt st k temp => Sys2Proof.Machine.execThermalBackstop dt st k temp s
  | .thermalBackstopRelease dt st k temp => Sys2Proof.Machine.execThermalBackstopRelease dt st k temp s
  | .tempReadingStale dt st => Sys2Proof.Machine.execTempReadingStale dt st s
  | .boostLock dt n => Sys2Proof.Machine.execBoostLock dt n s
  | .boostUnlock dt n => Sys2Proof.Machine.execBoostUnlock dt n s
  | .powerOnReset dt => Sys2Proof.Machine.execPowerOnReset dt s
  | .powerOnResetRelease dt => Sys2Proof.Machine.execPowerOnResetRelease dt s
  | .systemReset dt => Sys2Proof.Machine.execSystemReset dt s
  | .systemResetRelease dt count => Sys2Proof.Machine.execSystemResetRelease dt count s
  | .coreReset dt count => Sys2Proof.Machine.execCoreReset dt count s
  | .coreResetRelease dt => Sys2Proof.Machine.execCoreResetRelease dt s
  | .optionCommit dt bad corr => Sys2Proof.Machine.execOptionCommit dt bad corr s
  | .enterBoot dt => Sys2Proof.Machine.execEnterBoot dt s
  | .clockFailure dt => Sys2Proof.Machine.execClockFailure dt s
  | .firmwareSelect dt => Sys2Proof.Machine.execFirmwareSelect dt s
  | .imageValidate dt id => Sys2Proof.Machine.execImageValidate dt id s
  | .configMonumentReads dt rd => Sys2Proof.Machine.execConfigMonumentReads dt rd s
  | .fullLogicAvailable dt => Sys2Proof.Machine.execFullLogicAvailable dt s
  | .fullLogicLoad dt bad => Sys2Proof.Machine.execFullLogicLoad dt bad s
  | .enterReady dt pins => Sys2Proof.Machine.execEnterReady dt pins s
  | .enterRun dt => Sys2Proof.Machine.execEnterRun dt s
  | .bootWatchdogExpiry dt => Sys2Proof.Machine.execBootWatchdogExpiry dt s
  | .surveyorWatchdogExpiry dt => Sys2Proof.Machine.execSurveyorWatchdogExpiry dt s
  | .hostWatchdogExpiry dt => Sys2Proof.Machine.execHostWatchdogExpiry dt s
  | .restart dt lk => Sys2Proof.Machine.execRestart dt lk s
  | .clrFailcnt dt lk => Sys2Proof.Machine.execClrFailcnt dt lk s
  | .safeExit dt lk => Sys2Proof.Machine.execSafeExit dt lk s
  | .axisReset dt lk mask => Sys2Proof.Machine.execAxisReset dt lk mask s
  | .axisResetTimeout dt n => Sys2Proof.Machine.execAxisResetTimeout dt n s
  | .ringReset dt lk mask => Sys2Proof.Machine.execRingReset dt lk mask s
  | .registerWrite dt lk addr data => Sys2Proof.Machine.execRegisterWrite dt lk addr data s
  | .unlock dt lk key => Sys2Proof.Machine.execUnlock dt lk key s
  | .updateStrobe dt lk data => Sys2Proof.Machine.execUpdateStrobe dt lk data s
  | .indAddrWrite dt lk data => Sys2Proof.Machine.execIndAddrWrite dt lk data s
  | .indPrefetchDone dt lk => Sys2Proof.Machine.execIndPrefetchDone dt lk s
  | .indDataRead dt lk => Sys2Proof.Machine.execIndDataRead dt lk s
  | .indDataWrite dt lk data => Sys2Proof.Machine.execIndDataWrite dt lk data s
  | .indWriteApply dt => Sys2Proof.Machine.execIndWriteApply dt s
  | .mailboxRequest dt lk m data => Sys2Proof.Machine.execMailboxRequest dt lk m data s
  | .mailboxLastWordRead dt lk m => Sys2Proof.Machine.execMailboxLastWordRead dt lk m s
  | .accstatClr dt lk => Sys2Proof.Machine.execAccstatClr dt lk s
  | .frameStart dt mode3 => Sys2Proof.Machine.execFrameStart dt mode3 s
  | .citenNop dt f => Sys2Proof.Machine.execCitenNop dt f s
  | .citenRead dt f => Sys2Proof.Machine.execCitenRead dt f s
  | .citenWrite dt f => Sys2Proof.Machine.execCitenWrite dt f s
  | .citenBadOp dt op f => Sys2Proof.Machine.execCitenBadOp dt op f s
  | .frameDeferredPerform dt lk => Sys2Proof.Machine.execFrameDeferredPerform dt lk s
  | .snap dt lk => Sys2Proof.Machine.execSnap dt lk s
  | .spiCntClr dt lk => Sys2Proof.Machine.execSpiCntClr dt lk s
  | .chainModeSelect dt lk data => Sys2Proof.Machine.execChainModeSelect dt lk data s
  | .chainTransfer dt edges ws => Sys2Proof.Machine.execChainTransfer dt edges ws s
  | .chainWindowRead dt v addr => Sys2Proof.Machine.execChainWindowRead dt v addr s
  | .chainEnable dt v on => Sys2Proof.Machine.execChainEnable dt v on s
  | .chainFollow dt v on => Sys2Proof.Machine.execChainFollow dt v on s
  | .chainQstop dt v => Sys2Proof.Machine.execChainQstop dt v s
  | .chainClrflt dt v => Sys2Proof.Machine.execChainClrflt dt v s
  | .chainCurrent dt v data => Sys2Proof.Machine.execChainCurrent dt v data s
  | .chainStepscale dt v data => Sys2Proof.Machine.execChainStepscale dt v data s
  | .chainVmax dt v data => Sys2Proof.Machine.execChainVmax dt v data s
  | .chainAmax dt v data => Sys2Proof.Machine.execChainAmax dt v data s
  | .chainDmax dt v data => Sys2Proof.Machine.execChainDmax dt v data s
  | .chainTarget dt v data => Sys2Proof.Machine.execChainTarget dt v data s
  | .grelasPoll dt p => Sys2Proof.Machine.execGrelasPoll dt p s
  | .grelasResponseCompose dt => Sys2Proof.Machine.execGrelasResponseCompose dt s
  | .grelasResponseTransmit dt => Sys2Proof.Machine.execGrelasResponseTransmit dt s
  | .grelasTickPacket dt p => Sys2Proof.Machine.execGrelasTickPacket dt p s
  | .grelasMarkIssue dt pins => Sys2Proof.Machine.execGrelasMarkIssue dt pins s
  | .linkCurrentLimit dt on => Sys2Proof.Machine.execLinkCurrentLimit dt on s
  | .linkReversed dt rev => Sys2Proof.Machine.execLinkReversed dt rev s
  | .grelasCntClr dt lk => Sys2Proof.Machine.execGrelasCntClr dt lk s
  | .enable dt lk r d => Sys2Proof.Machine.execEnable dt lk r d s
  | .release dt lk r d => Sys2Proof.Machine.execRelease dt lk r d s
  | .stop dt lk r d => Sys2Proof.Machine.execStop dt lk r d s
  | .qstop dt lk r d => Sys2Proof.Machine.execQstop dt lk r d s
  | .clearFault dt lk r d => Sys2Proof.Machine.execClearFault dt lk r d s
  | .setPosition dt lk r d => Sys2Proof.Machine.execSetPosition dt lk r d s
  | .followOn dt lk r d => Sys2Proof.Machine.execFollowOn dt lk r d s
  | .followOff dt lk r d => Sys2Proof.Machine.execFollowOff dt lk r d s
  | .moveTrap dt lk r d => Sys2Proof.Machine.execMoveTrap dt lk r d s
  | .moveScurve dt lk r d => Sys2Proof.Machine.execMoveScurve dt lk r d s
  | .moveVel dt lk r d => Sys2Proof.Machine.execMoveVel dt lk r d s
  | .home dt lk r d => Sys2Proof.Machine.execHome dt lk r d s
  | .dwell dt lk r d => Sys2Proof.Machine.execDwell dt lk r d s
  | .dwellComplete dt q => Sys2Proof.Machine.execDwellComplete dt q s
  | .coordPart dt lk r d => Sys2Proof.Machine.execCoordPart dt lk r d s
  | .stationStop dt lk r d => Sys2Proof.Machine.execStationStop dt lk r d s
  | .nop dt lk r d => Sys2Proof.Machine.execNop dt lk r d s
  | .fence dt lk r d => Sys2Proof.Machine.execFence dt lk r d s
  | .cancelTag dt lk r d => Sys2Proof.Machine.execCancelTag dt lk r d s
  | .cancelRing dt lk r d => Sys2Proof.Machine.execCancelRing dt lk r d s
  | .progStart dt lk r d => Sys2Proof.Machine.execProgStart dt lk r d s
  | .progStop dt lk r d => Sys2Proof.Machine.execProgStop dt lk r d s
  | .backlogPost dt => Sys2Proof.Machine.execBacklogPost dt s
  | .tagQuery dt lk tag => Sys2Proof.Machine.execTagQuery dt lk tag s
  | .ringRelease dt lk q upto => Sys2Proof.Machine.execRingRelease dt lk q upto s
  | .ringRecordAutoAdvance dt lk q => Sys2Proof.Machine.execRingRecordAutoAdvance dt lk q s
  | .ringCntClr dt lk r => Sys2Proof.Machine.execRingCntClr dt lk r s
  | .stallReport dt n => Sys2Proof.Machine.execStallReport dt n s
  | .closureError dt n => Sys2Proof.Machine.execClosureError dt n s
  | .homingTimeout dt n => Sys2Proof.Machine.execHomingTimeout dt n s
  | .stepPulse dt n dir => Sys2Proof.Machine.execStepPulse dt n dir s
  | .holdReductionStart dt n => Sys2Proof.Machine.execHoldReductionStart dt n s
  | .idchkGo dt lk n => Sys2Proof.Machine.execIdchkGo dt lk n s
  | .idchkPulseEnd dt n reached => Sys2Proof.Machine.execIdchkPulseEnd dt n reached s
  | .idchkComplete dt n dutyA dutyB => Sys2Proof.Machine.execIdchkComplete dt n dutyA dutyB s
  | .pwmBoundary dt c => Sys2Proof.Machine.execPwmBoundary dt c s
  | .pwmEdge dt c => Sys2Proof.Machine.execPwmEdge dt c s
  | .peakComparatorTrip dt c => Sys2Proof.Machine.execPeakComparatorTrip dt c s
  | .phaseTimeLimit dt c => Sys2Proof.Machine.execPhaseTimeLimit dt c s
  | .decayZeroCross dt c => Sys2Proof.Machine.execDecayZeroCross dt c s
  | .coilSample dt c slot => Sys2Proof.Machine.execCoilSample dt c slot s
  | .coilConversionDone dt c code => Sys2Proof.Machine.execCoilConversionDone dt c code s
  | .syncPulse dt c => Sys2Proof.Machine.execSyncPulse dt c s
  | .regCntClr dt lk c => Sys2Proof.Machine.execRegCntClr dt lk c s
  | .pwmCntClr dt lk c => Sys2Proof.Machine.execPwmCntClr dt lk c s
  | .adcCntClr dt lk c => Sys2Proof.Machine.execAdcCntClr dt lk c s
  | .tripAssert dt t => Sys2Proof.Machine.execTripAssert dt t s
  | .tripRelease dt t => Sys2Proof.Machine.execTripRelease dt t s
  | .tripClear dt lk mask => Sys2Proof.Machine.execTripClear dt lk mask s
  | .tripCntClr dt lk => Sys2Proof.Machine.execTripCntClr dt lk s
  | .backdriveEpisodeStart dt n => Sys2Proof.Machine.execBackdriveEpisodeStart dt n s
  | .backdriveEpisodeEnd dt n => Sys2Proof.Machine.execBackdriveEpisodeEnd dt n s
  | .obsCalGo dt lk n => Sys2Proof.Machine.execObsCalGo dt lk n s
  | .obsCalStillEnd dt n => Sys2Proof.Machine.execObsCalStillEnd dt n s
  | .obsCalComplete dt n => Sys2Proof.Machine.execObsCalComplete dt n s
  | .obsCalAbort dt lk n => Sys2Proof.Machine.execObsCalAbort dt lk n s
  | .obsCalTimeout dt n => Sys2Proof.Machine.execObsCalTimeout dt n s
  | .obsCntClr dt lk n => Sys2Proof.Machine.execObsCntClr dt lk n s
  | .encoderTransition dt n a b => Sys2Proof.Machine.execEncoderTransition dt n a b s
  | .indexMark dt n => Sys2Proof.Machine.execIndexMark dt n s
  | .encoderStandstill dt n => Sys2Proof.Machine.execEncoderStandstill dt n s
  | .ssiRequest dt lk n high => Sys2Proof.Machine.execSsiRequest dt lk n high s
  | .ssiAutoRequest dt n high => Sys2Proof.Machine.execSsiAutoRequest dt n high s
  | .ssiWordDone dt n w endBit => Sys2Proof.Machine.execSsiWordDone dt n w endBit s
  | .ssiRecoveryEnd dt n high => Sys2Proof.Machine.execSsiRecoveryEnd dt n high s
  | .encFaultClear dt lk n => Sys2Proof.Machine.execEncFaultClear dt lk n s
  | .dpCntClr dt lk n => Sys2Proof.Machine.execDpCntClr dt lk n s
  | .dirchkRestart dt lk n => Sys2Proof.Machine.execDirchkRestart dt lk n s
  | .surveyRoundStart dt st => Sys2Proof.Machine.execSurveyRoundStart dt st s
  | .surveyTickTrigger dt st => Sys2Proof.Machine.execSurveyTickTrigger dt st s
  | .aintrgEdge dt => Sys2Proof.Machine.execAintrgEdge dt s
  | .svTrg dt lk st => Sys2Proof.Machine.execSvTrg dt lk st s
  | .svItrg dt lk st => Sys2Proof.Machine.execSvItrg dt lk st s
  | .surveyInjectedTickTrigger dt st => Sys2Proof.Machine.execSurveyInjectedTickTrigger dt st s
  | .surveyConversionDone dt st uv => Sys2Proof.Machine.execSurveyConversionDone dt st uv s
  | .surveyEntryComplete dt st => Sys2Proof.Machine.execSurveyEntryComplete dt st s
  | .housekeepingDue dt st => Sys2Proof.Machine.execHousekeepingDue dt st s
  | .housekeepingComplete dt st => Sys2Proof.Machine.execHousekeepingComplete dt st s
  | .xchkFail dt => Sys2Proof.Machine.execXchkFail dt s
  | .surveyPowerDown dt st => Sys2Proof.Machine.execSurveyPowerDown dt st s
  | .surveyStartupDone dt st => Sys2Proof.Machine.execSurveyStartupDone dt st s
  | .svCntClr dt lk st => Sys2Proof.Machine.execSvCntClr dt lk st s
  | .svCalZero dt lk st => Sys2Proof.Machine.execSvCalZero dt lk st s
  | .svCalFull dt lk st => Sys2Proof.Machine.execSvCalFull dt lk st s
  | .svCalReadingsDone dt st => Sys2Proof.Machine.execSvCalReadingsDone dt st s
  | .svCalStore dt lk st ok => Sys2Proof.Machine.execSvCalStore dt lk st ok s
  | .idPresencePoll dt ack => Sys2Proof.Machine.execIdPresencePoll dt ack s
  | .idLinePresentRead dt n => Sys2Proof.Machine.execIdLinePresentRead dt n s
  | .idRescan dt lk mask => Sys2Proof.Machine.execIdRescan dt lk mask s
  | .idReadDone dt n rd => Sys2Proof.Machine.execIdReadDone dt n rd s
  | .idReadRetry dt n => Sys2Proof.Machine.execIdReadRetry dt n s
  | .idCntClr dt lk => Sys2Proof.Machine.execIdCntClr dt lk s
  | .push dt x w1 w2 w3 => Sys2Proof.Machine.execPush dt x w1 w2 w3 s
  | .waittag dt x w => Sys2Proof.Machine.execWaittag dt x w s
  | .waittagTimeout dt x => Sys2Proof.Machine.execWaittagTimeout dt x s
  | .waitin dt x w => Sys2Proof.Machine.execWaitin dt x w s
  | .waitinTimeout dt x => Sys2Proof.Machine.execWaitinTimeout dt x s
  | .waittime dt x w => Sys2Proof.Machine.execWaittime dt x w s
  | .waittimeExpiry dt x => Sys2Proof.Machine.execWaittimeExpiry dt x s
  | .brev dt x w => Sys2Proof.Machine.execBrev dt x w s
  | .loop dt x w => Sys2Proof.Machine.execLoop dt x w s
  | .raise dt x w => Sys2Proof.Machine.execRaise dt x w s
  | .progHome dt x w1 w2 => Sys2Proof.Machine.execProgHome dt x w1 w2 s
  | .setreg dt x w => Sys2Proof.Machine.execSetreg dt x w s
  | .progEnd dt x w => Sys2Proof.Machine.execProgEnd dt x w s
  | .kaMonitorReading dt t6 t7 vlink vbak ilink => Sys2Proof.Machine.execKaMonitorReading dt t6 t7 vlink vbak ilink s
  | .fieldClockSet dt lk secs => Sys2Proof.Machine.execFieldClockSet dt lk secs s
  | .fieldBookWriteDone dt => Sys2Proof.Machine.execFieldBookWriteDone dt s
  | .fbCntClr dt lk => Sys2Proof.Machine.execFbCntClr dt lk s
  | .sealCommit dt lk data => Sys2Proof.Machine.execSealCommit dt lk data s
  | .sealProgramDone dt ok => Sys2Proof.Machine.execSealProgramDone dt ok s
  | .updBegin dt lk image => Sys2Proof.Machine.execUpdBegin dt lk image s
  | .updWrite dt lk => Sys2Proof.Machine.execUpdWrite dt lk s
  | .updVerify dt lk => Sys2Proof.Machine.execUpdVerify dt lk s
  | .updActivate dt lk => Sys2Proof.Machine.execUpdActivate dt lk s
  | .updAbort dt lk => Sys2Proof.Machine.execUpdAbort dt lk s
  | .updRevoke dt lk image slotB => Sys2Proof.Machine.execUpdRevoke dt lk image slotB s
  | .updOperationDone dt ok => Sys2Proof.Machine.execUpdOperationDone dt ok s
  | .moistureRound dt => Sys2Proof.Machine.execMoistureRound dt s
  | .moistureTest dt mv => Sys2Proof.Machine.execMoistureTest dt mv s
  | .mwCntClr dt lk => Sys2Proof.Machine.execMwCntClr dt lk s
  | .eventAck dt lk e => Sys2Proof.Machine.execEventAck dt lk e s
  | .eventSimulate dt lk e => Sys2Proof.Machine.execEventSimulate dt lk e s
  | .captureFreeze dt => Sys2Proof.Machine.execCaptureFreeze dt s
  | .closMaxClr dt lk n => Sys2Proof.Machine.execClosMaxClr dt lk n s
  | .resetHoldoffEnd dt => Sys2Proof.Machine.execResetHoldoffEnd dt s

end Sys2Proof.Machine
end

