-- ==== Sys2Proof/Machine/Pins.lean ====
section
/-!
DEFINITION. What the pins do (R30, R52, R59 to R62, Table 2-7): the column of the table that the device stands in, the state of
every pin group in it, and the levels of the outputs that the block drives.
-/

namespace Sys2Proof.Machine

/-- The pins of Table 2-7, one constructor per row that has a state of its own. -/
inductive Pin where
  | out (c : Fin 16)                -- OUTnxx of one coil
  | brkg
  | fbClock (n : Fin 8)             -- FBn_0
  | fbIn (n : Fin 8)                -- FBn_1, FBn_2, STEPn, DIRn
  | ident                           -- IDDn, IDSCL
  | hostIn                          -- HSCK, HMOSI
  | hcs
  | hmiso
  | irq (x : Fin 2)
  | syncIn
  | syncOut
  | lnk                             -- LNKA, LNKB
  | msck
  | mcs
  | mio
  | trip
  | ain
  | aintrg
  | v5out
  | resetN
  | dbgck
  | dbgio
  deriving DecidableEq, Repr

/-- The codes of Table 2-7. -/
inductive PinState where
  | z | pd | pu | low | high | act | off
  | receive                         -- receive only
  deriving DecidableEq, Repr

/-- The columns of Table 2-7. -/
inductive PinPhase where
  | unpowered | reset | boot | configLoad | run | safe | recovery | keepAlive
  deriving DecidableEq, Repr

/-- The column that the device stands in. A core reset leaves every pin as it was (R61): after one, the pins keep their working
column through BOOT and CONFIG_LOAD. -/
def State.pinPhase (s : State) : PinPhase :=
  if s.power.dead then .unpowered
  else match s.dev with
    | .reset | .optionLoad => .reset
    | .boot => if s.flPins then .run else .boot
    | .configLoad => if s.flPins then .run else .configLoad
    | .recovery => .recovery
    | .ready | .run => if s.flOn then .run else .keepAlive
    | .safe => if s.flOn then .safe else .keepAlive

/-- SYNC_OUT is high: for 40 cycles from a tick mark with `SYNC_OUT_EN` set; low wherever the pin does not work (R30). -/
def State.syncOut (s : State) : Bool := s.flPins && s.tick.sync.any fun t => decide (s.now < t + 40)

/-- BRKG is high: the brake dump drives it, or either station's clamp conducts (R62, R72, R74). -/
def State.brkg (s : State) : Bool := s.dumpOn || s.power.clampOn[0] || s.power.clampOn[1]

/-- A transfer on the configuration flash: the image of CONFIG_LOAD, or an update operation on the flash. A core reset ends it
(R61). -/
def State.flashBusy (s : State) : Bool :=
  !s.boot.coreOn && ((s.dev == .configLoad && s.boot.stage = 0) || (s.gb MG_UPD_STAT_BUSY && s.surv.upd.image))

/-- The clock of an absolute encoder: high but for the low halves of the transfer in progress (Table 13-1). -/
def State.ssiClock (s : State) (n : Fin 8) : Bool :=
  let d := s.axes[n].dp
  d.ssiEnd.isNone || (s.now - d.ssiT0) / s.ssiHalf n % 2 == 1

/-- The instant at which bit `k` of the transfer in progress is sampled, the end bit being bit LEN + 1 (Table 13-1). -/
def State.ssiSampleAt (s : State) (n : Fin 8) (k : Nat) : Nat :=
  s.axes[n].dp.ssiT0 + 2 * k * s.ssiHalf n + min (s.g (AX_DP_SSI_TIME_SDLY n)) (5 * clampN 4 400 (s.g (AX_DP_SSI_CFG_CDIV n)) - 4)

/-- The reset column, the unpowered one, or the pin at work. -/
def PinPhase.pick (p : PinPhase) (unp rst work : PinState) : PinState :=
  match p with
  | .unpowered => unp
  | .reset => rst
  | .boot | .configLoad | .run | .safe | .recovery | .keepAlive => work

/-- A full-logic pin: pulled or idle but in READY, RUN and SAFE with full logic powered (R52, R60). -/
def PinPhase.flPin (p : PinPhase) (unp idle : PinState) : PinState :=
  match p with
  | .unpowered => unp
  | .run | .safe => .act
  | .reset | .boot | .configLoad | .recovery | .keepAlive => idle

/-- The state of a pin (R59, Table 2-7). `act` is the configured function: a motor output or BRKG that is driven is `act`. -/
def State.pinState (s : State) : Pin → PinState
  | .out c => if s.fets c = 0 then .z else .act
  | .brkg => if s.brkg then .high else .low
  | .fbClock n =>
    let p := s.pinPhase.flPin .z .pd
    if p == .act && s.g (AX_PINSTAT_FB_ACT n) = 2 then (if s.ssiClock n then .high else .low) else p
  | .fbIn _ => s.pinPhase.flPin .z .pd
  | .ident =>
    match s.pinPhase with
    | .configLoad | .run | .safe | .keepAlive => .act
    | .unpowered | .reset | .boot | .recovery => .z
  | .hostIn => s.pinPhase.pick .z .pd .act
  | .hcs => s.pinPhase.pick .z .pu .act
  | .hmiso => s.pinPhase.pick .z .z (if s.gb LNK_SPI_STAT_SELECTED then .act else .z)
  | .irq x => if s.irqLow x then .low else .z
  | .syncIn => s.pinPhase.flPin .z .pd
  | .syncOut => if s.pinPhase == .unpowered then .z else if s.syncOut then .high else .low
  | .lnk => s.pinPhase.pick .z .receive (if s.gb CLK_STAT_RC_ONLY then .z else .act)
  | .msck => s.pinPhase.pick .z .pd (if s.flashBusy then .act else .low)
  | .mcs => s.pinPhase.pick .z .pu (if s.flashBusy then .act else .high)
  | .mio => s.pinPhase.pick .z .pu (if s.flashBusy then .act else .pu)
  | .trip => s.pinPhase.flPin .z .pu
  | .ain => s.pinPhase.flPin .z .z
  | .aintrg => s.pinPhase.flPin .z .pd
  | .v5out => if s.gb PWR_STAT_V5_ON && !s.power.dead then .act else .off
  | .resetN => s.pinPhase.pick .z .pu .pu
  | .dbgck => s.pinPhase.pick .z .pd .act
  | .dbgio => s.pinPhase.pick .z .pu .act

end Sys2Proof.Machine
end

