-- ==== Sys2Proof/Safety.lean ====
section
/-!
DEFINITION. What counts as a safe state and a safe step, in the terms that statements use: completion, the canonical forms,
the state between two commands, and what a command leaves alone.
-/

namespace Sys2Proof.Machine

/-- The canonical form of the register file: keys rising, no entry at its reset word. -/
def RegFile.wf (r : RegFile) : Bool := kvWf resetWord r

/-- The canonical form of a byte store whose unlisted bytes read 0xFF. -/
def Memory.wf (m : List (Nat × Byte)) : Bool := kvWf (fun _ => (0xFF : Byte)) m

/-- The canonical forms of the NVM: field book, benchmark store, erase counts. -/
def Nvm.wf (m : Nvm) : Bool :=
  kvWf (fun _ => (0xFFFFFFFF : Word)) m.fb && kvWf (fun _ => (0xFFFFFFFF : Word)) m.bench && kvWf (fun _ => (0 : Word)) m.wear

/-- The canonical form of a protected memory's error marks. -/
def EccSt.wf (e : EccSt) : Bool := kvWf (fun _ => (0 : BitVec 20)) e.bad

/-- Every store of the block stands in its canonical form: registers in force and staged, staging window, program store, chain
windows, configuration flash, NVM, error marks. -/
def State.wf (s : State) : Bool :=
  RegFile.wf s.regs && RegFile.wf s.staged && kvWf (fun _ => (0 : Word)) s.window && kvWf (fun _ => (0 : BitVec 64)) s.store &&
    kvWf (fun k => W (chainDflt (k % 8))) s.chain && Memory.wf s.flash && s.nvm.wf && s.ecc[0].wf && s.ecc[1].wf

/-- The state between two commands: no record of a cycle waits, the levels of ring 11 follow it (R245, R248), no loss of
records waits that could be reported (R480, R482). -/
def State.settled (s : State) : Prop :=
  s.evq = [] ∧ (s.level 48 0 = true ↔ s.backlogged = true) ∧ (s.level 49 0 = true ↔ (s.flOn && s.waterHit 0) = true) ∧
    (s.evLost ≠ 0 → s.flOn = true → 255 ≤ s.heldRecs 1)

/-- A register that an event may change: DEV_EVST and DEV_EVCNT of the eight groups, and the loss counter of ring 12. -/
def evWord (a : Nat) : Bool := (decide (0x200 ≤ a) && decide (a < 0x280) && decide (14 ≤ a % 16)) || a == 0x117

/-- The state without time, registers, what the present cycle remembers, and what an event leaves behind: levels, records of
ring 12, latches of the program contexts, the capture trigger. -/
def State.rest (s : State) : State :=
  { s with
    now := 0, regs := [], levels := [], evq := [], evLost := 0, rings := vupd s.rings 1 fun _ => { old := 0, recs := [], lost := [] },
    ctxs := s.ctxs.map fun (c : Ctx) => { c with ev := 0 }, cap := { s.cap with trig := none },
    cyc := CycSt.from_ Block.reset }

/-- `t` has every register of `s` but those at the addresses `A`, events aside. -/
def State.keepsWords (s t : State) (A : List Nat) : Prop := ∀ a, a ∉ A → evWord a = false → t.word a = s.word a

/-- Event `e` is pending (R476). -/
def State.evPending (s : State) (e : Nat) : Bool := s.gBit (DEV_EVST_PEND (e / 8)) (e % 8)

/-- `t` is `s` but for registers at the addresses `A`, events aside. -/
def State.sameBut (s t : State) (A : List Nat) : Prop :=
  t.now = s.now ∧ t.rest = s.rest ∧ s.keepsWords t A

/-- A register that the entry of an axis to FAULT or of the device to SAFE may change beside the events: DEV_STATE, PWR_STAT,
DEV_MEM_STAT, the fault and planner status words of the axes, mailbox status and data, the words of the surveyor's halt and of the moisture round. -/
def faultWord (a : Nat) : Bool :=
  evWord a || a == 0x10 || a == 0x63 || a == 0x140 || (decide (0x168 ≤ a) && decide (a < 0x170)) ||
    (decide (0x200 ≤ a) && decide (a < 0x280) && decide (a % 16 < 10)) ||
    (decide (0x800 ≤ a) && decide (a < 0x1000) && ([0x00, 0x02, 0x0A, 0x25, 0x2A, 0x8E].contains (a % 256))) ||
    a == 0x1000005 || a == 0x1000008 || a == 0x1000009 || a == 0x1000012 || a == 0x1000021

/-- `t` is `s` after what entries to FAULT and to SAFE may change: motion, commands, contexts, mailboxes, rings,
power and surveyor state, the registers of `faultWord`; registers at the addresses `A` aside, everything else stays. -/
structure State.quelled (s t : State) (A : List Nat) : Prop where
  now : t.now = s.now
  pending : t.pending = s.pending
  staged : t.staged = s.staged
  groups : t.groups = s.groups
  links : t.links = s.links
  grelas : t.grelas = s.grelas
  indQ : t.indQ = s.indQ
  window : t.window = s.window
  nextId : t.nextId = s.nextId
  store : t.store = s.store
  chain : t.chain = s.chain
  chainOut : t.chainOut = s.chainOut
  chainRst : t.chainRst = s.chainRst
  chainMode : t.chainMode = s.chainMode
  nvm : t.nvm = s.nvm
  otp : t.otp = s.otp
  flash : t.flash = s.flash
  words : ∀ a, a ∉ A → faultWord a = false → t.word a = s.word a

/-- A scrub read can be made: scrubbing is enabled, the memory up, the slot has begun, and the word was not written in the same
cycle (R37). -/
def State.scrubReady (s : State) (m : Mem) : Bool :=
  s.gb DEV_MEM_CFG_SCRUB_EN && s.memUp m && s.scrubTime m && !s.cyc.wrote.contains (32768 * (mix m).val + s.ecc[mix m].scrub)

/-- Start of the scrubber's next slot after a read in the present one (R37). -/
def State.nextSlot (s : State) (m : Mem) : Nat :=
  let t := s.ecc[mix m].slotAt
  match m with
  | .motion => t + 24000
  | .mgmt => t + ((s.now - t) / 48000 + 1) * 48000

/-- No program context has written direct register `a` in this cycle, or strobed its group where `a` stages a value (R442). -/
def State.progApart (s : State) (a : Nat) : Bool :=
  s.cyc.prog.all fun e => !(decide (e.1 = a) || (e.2.2 && hasBuffered a && groupOf e.1 == groupOf a))

/-- A write of direct register `a` reaches it and stands alone: the device answers, the register is served, no reset of its axis
is in progress, and no program context writes there in the same cycle. -/
def State.reaches (s : State) (a : Nat) : Bool := s.answers && s.served a && !s.axBusy a && s.progApart a

/-- The unlock of link `lk` is consumed (R149). -/
def State.unarm (s : State) (lk : Link) : State := s.lnk lk fun k => { k with armed := false }

/-- A Citen interval is open at the SPI port of a device that answers. -/
def State.citenOpen (s : State) : Bool := s.answers && s.gb LNK_SPI_STAT_SELECTED && !(s.link .spi).chain

/-- No frame of the other link goes before one of link `l` (R45). -/
def State.turnFree (s : State) (l : Link) : Bool := !(s.arb.lastLink == l && s.heldReady l.other)

/-- DEV_ACCSTAT after a write of a register with a keyed field: the refused key is counted where the link's unlock was not armed
(R152); its other counters stay. -/
def State.keyCounted (s t : State) (lk : Link) : Prop :=
  t.g DEV_ACCSTAT_KEY_REF = (if (s.link lk).armed then s.g DEV_ACCSTAT_KEY_REF else min (s.g DEV_ACCSTAT_KEY_REF + 1) 255) ∧
    t.g DEV_ACCSTAT_PASTEND = s.g DEV_ACCSTAT_PASTEND ∧ t.g DEV_ACCSTAT_IND_OVF = s.g DEV_ACCSTAT_IND_OVF

/-- The stores that no tick, event or pin writes: OTP, configuration flash, NVM, program store, staging window, chain windows. -/
def State.stored (s : State) : Otp × List (Nat × Byte) × Nvm × List (Nat × BitVec 64) × RegFile × RegFile :=
  (s.otp, s.flash, s.nvm, s.store, s.window, s.chain)

/-- What a tick, its work and every event on a pin or a supply leave alone: time, the queue, the stores, the queued indirect
writes; and the device's state, unless it goes to SAFE. -/
structure State.outlives (s t : State) : Prop where
  now : t.now = s.now
  pending : t.pending = s.pending
  stored : t.stored = s.stored
  indQ : t.indQ = s.indQ
  dev : t.dev = s.dev ∨ t.dev = .safe

/-- A record of type `typ` with the given payload went into the field-book queue, where a running surveyor had room (R448, R453). -/
def State.booked (s t : State) (typ : Nat) (payload : List Nat) : Prop :=
  s.surveyorUp = true → s.surv.fbQ.length < 64 →
    t.surv.fbQ.dropLast = s.surv.fbQ ∧ t.surv.fbQ.getLast?.map (fun r => (r.typ, r.payload)) = some (typ, payload)

/-- The axes that satisfy `p` and are energised, or in FAULT already, stand in FAULT with the causes `pwr` recorded; no other axis
enters FAULT or records a cause (R254). -/
def State.opensAxes (s t : State) (p : Fin 8 → Bool) (pwr : Nat) : Prop :=
  ∀ n : Fin 8, if p n = true ∧ (s.energised n = true ∨ s.axes[n].st = .fault) then
      t.axes[n].st = .fault ∧ t.g (PWR_FLTCAUSE_BITS n) = s.g (PWR_FLTCAUSE_BITS n) ||| pwr
    else (t.axes[n].st = .fault ↔ s.axes[n].st = .fault) ∧ t.g (PWR_FLTCAUSE_BITS n) = s.g (PWR_FLTCAUSE_BITS n)

/-- The axes of a station open (Table 3-4). -/
def State.opensStation (s t : State) (st : Fin 2) (pwr : Nat) : Prop := s.opensAxes t (fun n => stationOf n == st) pwr

/-- The registers that an entry to RECOVERY may change, events aside. -/
def recoveryWords : List Nat :=
  [0x3, 0x10, 0x12, 0x140, 0x444, 0x44E, 0x544, 0x54E, 0x1000005, 0x1000012] ++ (List.range 8).map (0x88E + 0x100 * ·)

/-- `t` is `s` after an entry to RECOVERY with a cause (R128): the full-logic domain is down, no bridge is driven, nothing is in
flight, no context runs; registers at the addresses `A` aside, everything else stays. -/
structure State.recovers (s t : State) (cause : Nat) (A : List Nat) : Prop where
  frame : ({ s with
    dev := .recovery, cmds := [], backlog := [], coils := t.coils, stations := t.stations, ctxs := t.ctxs, power := t.power,
    surv := t.surv, tick := t.tick, boot := { s.boot with wdOn := false, fwRunning := false } }).sameBut t (recoveryWords ++ A)
  cause : t.g DEV_BOOTSTAT_REC_CAUSE = cause
  down : t.flOn = false ∧ t.tick.on = false
  quiet : (∀ c : Fin 16, t.coils[c].side1 = .off ∧ t.coils[c].side2 = .off) ∧ (∀ x : Fin 4, t.ctxs[x].running = false) ∧
    ∀ st : Fin 2, t.stations[st].mv = none ∧ t.stations[st].sv.on = false

/-- The registers that the start of the boot ROM sets from the stores. -/
def bootWords : List Nat :=
  [0x3, 0x12, LNK_SPI_STAT_MODE_ACT.a, 0x1000005, 0x1000010, 0x1000011, 0x1000012] ++ (List.range 8).map (0x1000110 + ·) ++
    (List.range 64).map (0x1000140 + ·) ++ (List.range 16).map (0x1000210 + ·) ++ (List.range 32).map (0x1000340 + ·)

/-- `t` is `s` after an entry to BOOT (R108, R126, R454): with fewer than three failed starts the count goes up and the boot ROM
runs; with three the device stands in RECOVERY with cause 1. The first start after a power-on reset retries where the options
say so. -/
def State.boots (s t : State) (porCause : Bool) : Prop :=
  let k := if porCause && s.boot.opts.retryPor && s.nvm.failcnt == 3 then 2 else s.nvm.failcnt
  let b := { s with
    boot := { s.boot with failRead := k, porCause := false, stage := 0, fwRunning := false, optBad := none }
    ecc := vupd s.ecc 1 fun _ => { EccSt.init with slotAt := s.now } }
  if k < 3 then
    ({ b with dev := .boot, nvm := { s.nvm with failcnt := k + 1 }, surv := t.surv,
                boot := { b.boot with pulseEnd := s.now + usCyc 20 } }).sameBut t bootWords ∧
      t.g DEV_BOOTSTAT_FAILCNT = k + 1
  else b.recovers t 1 bootWords ∧ t.g DEV_BOOTSTAT_FAILCNT = 3

/-- The registers that a core reset may change (Table 4-1), events aside: reset cause, axis resets, update count, ring state, mailboxes,
the two calibrations' status, and the words of checks and moisture tests that end. -/
def coreWords : List Nat :=
  [0x10, 0x11, 0x17, 0x22, 0x44E, 0x54E, 0x1000005, 0x1000012, 0x1000101, 0x1000204] ++
    (List.range 0xC0).map (0x80 + ·) ++ (List.range 8).flatMap (fun m => (List.range 9).map (0x201 + 16 * m + ·)) ++
    (List.range 8).flatMap fun n => [0x00, 0x0A, 0x25, 0x2A, 0x48, 0x5A, 0x6A, 0x7D, 0x80, 0x8E].map (0x800 + 0x100 * n + ·)

/-- A direct register whose write sets nothing off beside its fields: none of the command, pulse and ring registers. -/
def quietAddr (a : Nat) : Bool :=
  if a < 0x80 then !([0x13, 0x15, 0x20, 0x21, 0x23, 0x24, 0x25, 0x30, 0x40, 0x41, 0x51, 0x60, 0x62, 0x67].contains a)
  else if a < 0x140 then false
  else if a < 0x200 then !([0x144, 0x149, 0x185, 0x1C9].contains a)
  else if a < 0x280 then false
  else if 0x400 ≤ a ∧ a < 0x600 then !([0x43, 0x4C].contains (a % 0x100))
  else if 0x800 ≤ a ∧ a < 0x1000 then !([0x2E, 0x47, 0x56, 0x5B, 0x5E, 0x66, 0x6B, 0x6E, 0x7F, 0x81, 0x8D].contains (a % 0x100))
  else true

/-- The status and data words of the mailboxes. -/
def mboxWords : List Nat := (List.range 8).flatMap fun m => (List.range 10).map (0x200 + 16 * m + ·)

/-- The commands in flight, that with the given identity to end with `st` at the commit point, performed or not (R244). -/
def State.endingAs (s : State) (id st : Nat) : List Cmd :=
  let ran := decide (st = DONE) || decide (st = DONE_LIMITED) ||
    (s.cmds.find? fun c => c.id == id).any fun c => c.ph == .applied || c.ph == .exec
  s.cmds.map fun (c : Cmd) => if c.id == id then { c with ph := .ending st, ran := ran } else c

/-- The command found under its own identity, waiting for the tick mark that takes it. -/
def State.holds (s : State) (c : Cmd) : Prop := s.cmds.find? (fun x => x.id == c.id) = some c ∧ c.ph = .accepted

/-- The triggers of survey converter `st`: SV_TRG, SURVEY_TICK_TRIGGER, AINTRG_EDGE, SURVEY_ROUND_START for rounds; SV_ITRG,
SURVEY_INJECTED_TICK_TRIGGER, AINTRG_EDGE for injected sequences; HOUSEKEEPING_DUE. -/
def survTrigger (k : Fin 8) (dt : Nat) (lk : Link) (st : Fin 2) (held : Nat) : Instr :=
  if k = 0 then .svTrg dt lk st else if k = 1 then .surveyTickTrigger dt st else if k = 2 then .aintrgEdge ⟨dt, held⟩
  else if k = 3 then .surveyRoundStart dt st else if k = 4 then .svItrg dt lk st
  else if k = 5 then .surveyInjectedTickTrigger dt st else if k = 6 then .aintrgEdge ⟨dt, held⟩ else .housekeepingDue dt st

/-- The bit of a trigger among the work that waits for start-up: 0 round, 1 injected sequence, 2 housekeeping. -/
def survBit (k : Fin 8) : Nat := if k.val < 4 then 0 else if k.val < 7 then 1 else 2

/-- AINTRG triggers the injected sequence of `st` (R406, R409). -/
def State.aintrgInj (s : State) (st : Fin 2) : Bool := s.g (ST_SV_CFG_ORG st) == 1 && s.gBit (ST_SV_CFG_INJ_SRC st) 0

/-- AINTRG starts a round of `st` (R406). -/
def State.aintrgReg (s : State) (st : Fin 2) : Bool := !s.aintrgInj st && s.g (ST_SV_CFG_RMODE st) == 2

/-- A trigger is due at a converter that runs (R403, R406, R407, R409); AINTRG where it concerns this converter alone. -/
def State.survDue (s : State) (k : Fin 8) (st : Fin 2) (held : Nat) : Prop :=
  let v := s.stations[st].sv
  let one := s.aintrgInj (1 - st) = false ∧ s.aintrgReg (1 - st) = false
  v.on = true ∧
  (k = 0 → s.reaches (0x443 + 0x100 * st.val) = true ∧ s.g (ST_SV_CFG_RMODE st) = 3) ∧
  (k = 1 → s.tick.on = true ∧ s.g (ST_SV_CFG_RMODE st) = 1 ∧ s.g (ST_SV_TPH_RTPH st) < s.g CLK_TICK_CFG_PERIOD ∧
    s.g (ST_SV_TPH_RTPH st) ≤ s.now - s.tick.mark ∧ v.rtAt ≠ s.tick.no + 1) ∧
  (k = 2 → 16 ≤ held ∧ s.aintrgReg st = true ∧ one) ∧
  (k = 3 → s.g (ST_SV_CFG_RMODE st) = 0 ∧ v.run = none ∧ v.startup = none ∧ 400 * s.g (ST_SV_TIME_GAP st) ≤ s.now - v.endAt) ∧
  (4 ≤ k.val ∧ k.val < 7 → s.g (ST_SV_CFG_ORG st) = 1) ∧
  (k = 4 → s.reaches (0x443 + 0x100 * st.val) = true ∧ s.gBit (ST_SV_CFG_INJ_SRC st) 3 = true) ∧
  (k = 5 → s.tick.on = true ∧ s.gBit (ST_SV_CFG_INJ_SRC st) 2 = true ∧ s.g (ST_SV_TPH_ITPH st) ≤ s.now - s.tick.mark ∧
    v.itAt ≠ s.tick.no + 1) ∧
  (k = 6 → 16 ≤ held ∧ s.aintrgInj st = true ∧ one) ∧
  (k = 7 → 400000 ≤ s.now - v.hkAt ∧ v.hkDue = false)

/-- The state in which a trigger is judged; a write of SV_CTL is an access of its own (R45). -/
def State.survAt (s : State) (k : Fin 8) (dt : Nat) : State := if k = 0 ∨ k = 4 then (s.tickTo dt).hostBegin else s.tickTo dt

/-- The state that a trigger works on: a write of SV_CTL consumes the link's unlock, a tick's trigger is given once. -/
def State.survBase (s : State) (lk : Link) (k : Fin 8) (st : Fin 2) : State :=
  if k = 0 ∨ k = 4 then s.unarm lk
  else if k = 1 then s.svu st fun v => { v with rtAt := s.tick.no + 1 }
  else if k = 5 then s.svu st fun v => { v with itAt := s.tick.no + 1 } else s

/-- Nothing runs, waits or starts up at the converter. -/
def State.survIdle (s : State) (st : Fin 2) : Prop :=
  let v := s.stations[st].sv
  v.run = none ∧ v.saved = none ∧ v.startup = none ∧ v.afterUp = 0 ∧ v.hkDue = false ∧ s.gb (ST_SV_STAT_ITRG_PEND st) = false ∧
    s.gb (ST_SV_STAT_INJ_BUSY st) = false

/-- The converter is powered down, or its time to power down has come (R407). -/
def State.survDown (s : State) (st : Fin 2) : Bool :=
  let thr := s.g (ST_SV_TIME_PD_THR st)
  s.gb (ST_SV_STAT_PWRDN st) || (thr != 0 && (if s.g (ST_SV_CFG_RMODE st) = 0 then decide (thr ≤ s.g (ST_SV_TIME_GAP st))
    else decide (400 * thr ≤ s.now - s.stations[st].sv.idleAt)))

/-- `t` is `s` but for the survey converter of station `st` and registers at the addresses `A`, events aside. -/
def State.survBut (s t : State) (st : Fin 2) (A : List Nat) : Prop :=
  (s.svu st fun _ => t.stations[st].sv).sameBut t A

/-- A write of MG_ register `a` reaches the surveyor at once: the space answers, no indirect write waits, the surveyor runs. -/
def State.mgOpen (s : State) (a : Nat) : Prop := s.indAnswers a = true ∧ s.indQ = [] ∧ s.gb MG_SV_STAT_HALTED = false

/-- The operations of the update path, in the order of Table 16-6. -/
def updInstr (k : Fin 6) (dt : Nat) (lk : Link) (image slotB : Bool) : Instr :=
  match k with
  | 0 => .updBegin dt lk image | 1 => .updWrite dt lk | 2 => .updVerify dt lk | 3 => .updActivate dt lk | 4 => .updAbort dt lk
  | 5 => .updRevoke dt lk image slotB

/-- The registers that show slots and updates: MG_UPD_STAT, MG_UPD_NEXT and the slot states. -/
def updWords : List Nat :=
  [0x1000012, 0x1000204, 0x1000205, 0x1000210, 0x1000211, 0x1000212, 0x1000213, 0x1000218, 0x1000219, 0x100021A, 0x1000300]

/-- The instructions that a program context fetches, in the order of Table 15-7. -/
def progInstr (k : Fin 10) (dt : Nat) (x : Fin 4) (w1 w2 w3 : BitVec 64) : Instr :=
  match k with
  | 0 => .push dt x w1 w2 w3 | 1 => .waittag dt x w1 | 2 => .waitin dt x w1 | 3 => .waittime dt x w1 | 4 => .brev dt x w1
  | 5 => .loop dt x w1 | 6 => .raise dt x w1 | 7 => .progHome dt x w1 w2 | 8 => .setreg dt x w1 | 9 => .progEnd dt x w1

/-- The program words of such an instruction. -/
def progWords (k : Fin 10) (w1 w2 w3 : BitVec 64) : List Nat :=
  if k = 0 then [w1.toNat, w2.toNat, w3.toNat] else if k = 7 then [w1.toNat, w2.toNat] else [w1.toNat]

/-- Context `x` executes the instruction with opcode `op` whose words are `ws`: its turn has come, the words stand at its PC and are
good, the first is legal, and the instruction ends within the store (R442, R444). -/
def State.ctxReady (s : State) (x : Fin 4) (op : Nat) (ws : List Nat) : Prop :=
  s.ctxTurn x = true ∧ s.ctxAt x ws = true ∧ pLegal (ws.headD 0) = true ∧ pOp (ws.headD 0) = op ∧ s.ctxs[x].pc + ws.length ≤ 4096 ∧
    ∀ i < ws.length, kvGet s.ecc[0].bad (0x4000 + s.ctxs[x].pc + i) 0 = 0

/-- The time at which a wait for an ending or an input began; a wait that begins now has none yet. -/
def PWait.since (w : PWait) (now : Nat) : Nat :=
  match w with
  | .tag _ t | .inp t => t
  | .none | .time _ | .homeTag _ | .retry => now

/-- What a context waits for: 0 nothing, 1 an ending, 2 an input, 3 a tick, 4 the ending of HOME, 5 to try again. -/
def PWait.kind : PWait → Nat
  | .none => 0 | .tag _ _ => 1 | .inp _ => 2 | .time _ => 3 | .homeTag _ => 4 | .retry => 5

/-- One more instruction executed. -/
def Ctx.ran (c : Ctx) : Ctx := { c with n := c.n + 1 }

/-- `t` is `s` after context `x` stopped with `cause`: not running, its tracking table empty, item 0x43 captured with the PC of the
stopping instruction, EV_PROG_STOP raised (R446). -/
def State.stopsCtx (s t : State) (x : Fin 4) (cause : Nat) : Prop :=
  let c := s.ctxs[x]
  ((s.ctx x fun c => { c with running := false, trk := [], wait := .none }).capture 0x43 x (item43 x c.pc cause c.lastSt s.ts32)).sameBut t [] ∧
    t.evPending (60 + x.val) = true

/-- `t` is `s` after context `x` went to `pc`; beyond the store it stops with cause 7 (R444). -/
def State.goesCtx (s t : State) (x : Fin 4) (pc : Nat) : Prop :=
  if pc ≤ 4095 then (s.ctx x fun c => { c with pc := pc, wait := .none }).sameBut t [] else s.stopsCtx t x 7

/-- `t` is `s` after an instruction `w` of context `x` failed: a jump to FAIL with FJ = 1, a stop with `cause` otherwise (R445). -/
def State.failsCtx (s t : State) (x : Fin 4) (w cause : Nat) : Prop :=
  if bit w 28 = true then s.goesCtx t x (bits w 16 12) else s.stopsCtx t x cause

/-- `t` is `s` after context `x` met a wait whose condition is not met (R442). -/
def State.waitsCtx (s t : State) (x : Fin 4) (w : PWait) : Prop :=
  (s.ctx x fun c => { c with wait := w, hold := true }).sameBut t []

/-- The reset column of Table 2-7, axis pins and motor outputs aside. -/
def resetPins : List (Pin × PinState) :=
  [(.ident, .z), (.hostIn, .pd), (.hcs, .pu), (.hmiso, .z), (.syncIn, .pd), (.syncOut, .low), (.lnk, .receive), (.msck, .pd), (.mcs, .pu),
    (.mio, .pu), (.trip, .pu), (.ain, .z), (.aintrg, .pd), (.v5out, .off), (.resetN, .pu), (.dbgck, .pd), (.dbgio, .pu)]

/-- A reset that is held goes with RESET; in RESET and in OPTION_LOAD no core reset runs and no peripheral configuration is valid
(R110, R111). -/
def State.resetForm (s : State) : Prop :=
  (s.boot.por = true ∨ s.boot.sys = true → s.dev = .reset) ∧
    (s.dev = .reset ∨ s.dev = .optionLoad → s.boot.coreOn = false ∧ s.boot.cfgValid = false)

end Sys2Proof.Machine
end

