-- ==== Sys2Proof/Certificates/Slice0/Obligations.lean ====
section
/-!
DEFINITION. The statements for the provers: what each command does in its next state and what it leaves alone, what every step
keeps, and where a step comes from.
-/

open Sys2Proof Sys2Proof.Machine

/-- SCRUB_READ (R37): the scrubber goes on, and the word it read is treated as R34 to R36 and R38 say. -/
def Obligations.ScrubReadTreatsTheWord : Prop :=
  (∀ (s : State) (dt : Nat) (m : Mem),
    let u := s.tickTo dt
    let a := u.ecc[mix m].scrub
    let last := decide (memWords m ≤ a + 1)
    let pass := if m = .motion then DEV_MEM_STAT_PASS_M else DEV_MEM_STAT_PASS_G
    u.scrubReady m = true → symCount (u.badSyms m a) = 0 →
    ∃ t, Machine.exec (.scrubRead dt m) s = .next t ∧
      (({ u with ecc := t.ecc }).sameBut t [0x63] ∧
      t.ecc = vupd u.ecc (mix m) (fun e => { e with
        scrub := if last then 0 else a + 1, passCorr := if last then 0 else e.passCorr, slotAt := u.nextSlot m }) ∧
      t.g pass = if last then (u.g pass + 1) % 256 else u.g pass)) ∧
  (∀ (s : State) (dt : Nat) (m : Mem),
    let u := s.tickTo dt
    let a := u.ecc[mix m].scrub
    let last := decide (memWords m ≤ a + 1)
    u.scrubReady m = true → symCount (u.badSyms m a) = 1 →
    ∃ t, Machine.exec (.scrubRead dt m) s = .next t ∧
      ({ u with ecc := t.ecc }).sameBut t [0x63, 0x64, 0x66] ∧
      t.ecc = vupd u.ecc (mix m) (fun e => { e with
        scrub := if last then 0 else a + 1, passCorr := if last then 0 else e.passCorr + 1, slotAt := u.nextSlot m,
        writeBack := if e.writeBack.contains a then e.writeBack else e.writeBack ++ [a] }) ∧
      t.g (cntFld m 0) = min (u.g (cntFld m 0) + 1) 65535 ∧ t.gb DEV_MEM_FIRST_VALID = true ∧
      (u.gb DEV_MEM_FIRST_VALID = false → t.g DEV_MEM_FIRST_SYM = firstSym (u.badSyms m a) ∧ t.gb DEV_MEM_FIRST_TYPE = false)) ∧
  (∀ (s : State) (dt : Nat),
    let u := s.tickTo dt
    u.scrubReady .mgmt = true → symCount (u.badSyms .mgmt u.ecc[1].scrub) = 2 →
    ∃ t, Machine.exec (.scrubRead dt .mgmt) s = .next t ∧
      u.quelled t [0x63, 0x65, 0x66] ∧ t.g (cntFld .mgmt 1) = min (u.g (cntFld .mgmt 1) + 1) 65535 ∧
      t.gb MG_SV_STAT_HALTED = true ∧ t.evPending 5 = true ∧ (u.dev.rr = true → t.dev = .safe)) ∧
  (∀ (s : State) (dt : Nat) (n : Fin 8),
    let u := s.tickTo dt
    u.scrubReady .motion = true → symCount (u.badSyms .motion u.ecc[0].scrub) = 2 →
    u.ecc[0].scrub / 0x600 = n.val →
    ∃ t, Machine.exec (.scrubRead dt .motion) s = .next t ∧
      u.quelled t [0x65, 0x66] ∧ t.g (cntFld .motion 1) = min (u.g (cntFld .motion 1) + 1) 65535 ∧
      t.axes[n].st = .fault ∧ bit (t.g (AX_FAULT_BITS n)) 5 = true ∧ t.evPending 5 = true) ∧
  (∀ (s : State) (dt : Nat) (m : Mem),
    let u := s.tickTo dt
    u.scrubReady m = false → ∃ t, Machine.exec (.scrubRead dt m) s = .next t ∧ u.sameBut t [])

/-- ECC_WRITE_BACK (R35). -/
def Obligations.WriteBackMakesTheWordGood : Prop :=
  (∀ (s : State) (dt : Nat) (m : Mem) (written : Bool) (a : Nat) (l : List Nat),
    let u := s.tickTo dt
    u.ecc[mix m].writeBack = a :: l → a ∉ l →
    ∃ t, Machine.exec (.eccWriteBack dt m written) s = .next t ∧
      ({ u with ecc := t.ecc }).sameBut t [] ∧ t.ecc[mix m].writeBack = l ∧ t.ecc[1 - mix m] = u.ecc[1 - mix m] ∧
      t.badSyms m a = (if written || decide (symCount (u.badSyms m a) ≤ 1) then 0 else u.badSyms m a) ∧
      (∀ b, b ≠ a → t.badSyms m b = u.badSyms m b) ∧
      t.ecc[mix m].scrub = u.ecc[mix m].scrub ∧ t.ecc[mix m].passCorr = u.ecc[mix m].passCorr) ∧
  (∀ (s : State) (dt : Nat) (m : Mem) (written : Bool),
    let u := s.tickTo dt
    u.ecc[mix m].writeBack = [] → ∃ t, Machine.exec (.eccWriteBack dt m written) s = .next t ∧ u.sameBut t [])

/-- MEM_INJECT (R39), MEM_CLR_CNT, MEM_CLR_FIRST (Table 1-11). -/
def Obligations.MemoryRegisterCommands : Prop :=
  (∀ (s : State) (dt : Nat) (lk : Link) (data : Word),
    let u := (s.tickTo dt).hostBegin
    let w := data.toNat
    let m : Mem := if bit w 15 then .mgmt else .motion
    let a := bits w 0 15
    let two := if bit w 26 && bits w 21 5 != bits w 16 5 then 2 ^ bits w 21 5 else 0
    u.reaches 0x67 = true → (u.link lk).armed = true → bit w 27 = true → injOk w = true → u.memUp m = true →
    ∃ t, Machine.exec (.memInject dt lk data) s = .next t ∧
      ({ u.unarm lk with ecc := t.ecc }).sameBut t [0x67] ∧ t.g DEV_MEM_INJ_ARM = 0 ∧ t.g DEV_MEM_INJ_ADDR = a ∧
      t.badSyms m a = (u.badSyms m a ^^^ (2 ^ bits w 16 5 + two)) % 2 ^ 20 ∧ t.ecc[1 - mix m] = u.ecc[1 - mix m]) ∧
  (∀ (s : State) (dt : Nat) (lk : Link) (data : Word),
    let u := (s.tickTo dt).hostBegin
    u.reaches 0x67 = true → (u.link lk).armed = false →
    ∃ t, Machine.exec (.memInject dt lk data) s = .next t ∧
      u.sameBut t [0x23] ∧ t.g DEV_ACCSTAT_KEY_REF = min (u.g DEV_ACCSTAT_KEY_REF + 1) 255) ∧
  (∀ (s : State) (dt : Nat) (lk : Link),
    let u := (s.tickTo dt).hostBegin
    u.reaches 0x62 = true →
    ∃ t, Machine.exec (.memClrCnt dt lk) s = .next t ∧
      (u.unarm lk).sameBut t [0x23, 0x63, 0x64, 0x65] ∧ u.keyCounted t lk ∧ (∀ f ∈ [cntFld .motion 0, cntFld .mgmt 0, cntFld .motion 1, cntFld .mgmt 1, DEV_MEM_STAT_DROP], t.g f = u.g f - u.gWas f) ∧
      t.g DEV_MEM_STAT_PASS_M = u.g DEV_MEM_STAT_PASS_M ∧ t.g DEV_MEM_STAT_PASS_G = u.g DEV_MEM_STAT_PASS_G ∧
      t.g DEV_MEM_STAT_SCRUB_ON = u.g DEV_MEM_CFG_SCRUB_EN) ∧
  (∀ (s : State) (dt : Nat) (lk : Link),
    let u := (s.tickTo dt).hostBegin
    u.reaches 0x62 = true →
    ∃ t, Machine.exec (.memClrFirst dt lk) s = .next t ∧
      (u.unarm lk).sameBut t [0x23, 0x63, 0x66] ∧ u.keyCounted t lk ∧ t.word 0x66 = u.cyc.err.getD 0 ∧ t.g DEV_MEM_STAT_DROP = u.g DEV_MEM_STAT_DROP ∧
      t.g DEV_MEM_STAT_PASS_M = u.g DEV_MEM_STAT_PASS_M ∧ t.g DEV_MEM_STAT_PASS_G = u.g DEV_MEM_STAT_PASS_G ∧
      t.g DEV_MEM_STAT_SCRUB_ON = u.g DEV_MEM_CFG_SCRUB_EN)

/-- ARB_WEIGHT_UPDATE (R41 to R43) and CLR_MAXWAIT (R46). That a window's requesters ask throughout it is the model's choice (log
entry 52). -/
def Obligations.ArbiterWindow : Prop :=
  (∀ (s : State) (dt : Nat) (act : BitVec 8) (sp : BitVec 3) (wait : BitVec 8),
    let u := s.tickTo dt
    let a0 := ones8 (act.toNat % 16)
    let a1 := ones8 (act.toNat / 16)
    u.flOn = true →
    ∃ t, Machine.exec (.arbWeightUpdate dt act sp wait) s = .next t ∧
      (let g := fun (i : Nat) => t.arb.grants.getD i 0
      ({ u with arb := t.arb }).sameBut t [DEV_ARB_STAT_ACT_S0.a] ∧
      t.g DEV_ARB_STAT_ACT_S0 = a0 ∧ t.g DEV_ARB_STAT_ACT_S1 = a1 ∧ t.g DEV_ARB_STAT_ACT_SP = ones8 sp.toNat ∧
      t.g DEV_ARB_STAT_MAXWAIT = min (max (u.g DEV_ARB_STAT_MAXWAIT) wait.toNat) 255 ∧
      t.g DEV_ARB_STAT_MODE_ACT = u.g DEV_ARB_STAT_MODE_ACT ∧
      t.arb.w = [a0, a1, if sp = 0 then 0 else 1] ∧ t.arb.lastLink = u.arb.lastLink ∧
      (∀ i : Fin 8, bit act.toNat i = false → g i = 0) ∧ (∀ i : Fin 3, bit sp.toNat i = false → g (8 + i) = 0) ∧
      (u.gb DEV_ARB_STAT_MODE_ACT = true → a0 ≠ 0 → a1 ≠ 0 → sp ≠ 0 →
        ∀ q ∈ [g 0 + g 1 + g 2 + g 3, g 4 + g 5 + g 6 + g 7, g 8 + g 9 + g 10], q = 21 ∨ q = 22))) ∧
  (∀ (s : State) (dt : Nat) (lk : Link),
    let u := (s.tickTo dt).hostBegin
    u.reaches 0x60 = true →
    ∃ t, Machine.exec (.clrMaxwait dt lk) s = .next t ∧
      (u.unarm lk).sameBut t [0x23, DEV_ARB_STAT_MAXWAIT.a] ∧ u.keyCounted t lk ∧
      t.g DEV_ARB_STAT_MAXWAIT = 0 ∧
      t.g DEV_ARB_STAT_ACT_S0 = u.g DEV_ARB_STAT_ACT_S0 ∧ t.g DEV_ARB_STAT_ACT_S1 = u.g DEV_ARB_STAT_ACT_S1 ∧
      t.g DEV_ARB_STAT_ACT_SP = u.g DEV_ARB_STAT_ACT_SP ∧ t.g DEV_ARB_STAT_MODE_ACT = u.g DEV_ARB_STAT_MODE_ACT)

/-- TICK_MARK, SYNC_IN_EDGE, MARK_TIMEOUT (R20, R21, R29): which marks begin a tick, and what a tick begins with. -/
def Obligations.TickMarkBegins : Prop :=
  (∀ (s : State) (dt : Nat) (pins : BitVec 48),
    let u := s.tickTo dt
    u.tick.on = true → u.tick.commitDue = false → (u.tickSrc = 0 ∨ u.tick.lost = true) → u.g CLK_TICK_CFG_PERIOD ≤ u.tickAge →
    ∃ t, Machine.exec (.tickMark dt pins) s = .next t ∧
      u.outlives t ∧ t.tick.on = true ∧
      t.tick.mark = u.now ∧ t.tick.no = u.tick.no + 1 ∧ t.tick.commitDue = true ∧
      (u.gb CLK_TICK_CFG_SYNC_OUT_EN = true → t.syncOut = t.flPins) ∧ (u.gb CLK_TICK_CFG_SYNC_OUT_EN = false → t.tick.sync = u.tick.sync)) ∧
  (∀ (s : State) (dt : Nat),
    let u := s.tickTo dt
    (u.tick.sync.all fun m => decide (m + 40 ≤ u.now)) = true → u.syncOut = false) ∧
  (∀ (s : State) (dt : Nat) (pins : BitVec 48),
    let u := s.tickTo dt
    (u.tick.on = false ∨ u.tick.commitDue = true ∨ (u.tickSrc ≠ 0 ∧ u.tick.lost = false) ∨ u.tickAge < u.g CLK_TICK_CFG_PERIOD) →
    ∃ t, Machine.exec (.tickMark dt pins) s = .next t ∧ u.sameBut t []) ∧
  (∀ (s : State) (dt : Nat) (pins : BitVec 48),
    let u := s.tickTo dt
    let p := u.g CLK_TICK_CFG_PERIOD
    u.tick.on = true → u.tick.commitDue = false → u.tickSrc = 1 → u.tick.lost = false → p - 300 ≤ u.tickAge → u.tickAge ≤ p + 300 →
    ∃ t, Machine.exec (.syncInEdge dt pins) s = .next t ∧
      u.outlives t ∧ t.tick.on = true ∧
      t.tick.mark = u.now ∧ t.tick.no = u.tick.no + 1 ∧ t.tick.commitDue = true ∧ t.tick.lost = false) ∧
  (∀ (s : State) (dt : Nat) (pins : BitVec 48),
    let u := s.tickTo dt
    u.tick.on = true → u.tick.commitDue = false → u.tickSrc = 1 → u.tick.lost = true →
    ∃ t, Machine.exec (.syncInEdge dt pins) s = .next t ∧
      u.outlives t ∧ t.tick.mark = u.now ∧
      t.tick.no = u.tick.no + 1 ∧ t.tick.commitDue = true ∧ t.tick.lost = false ∧ t.gb CLK_TICK_STAT_SRC_LOST = false) ∧
  (∀ (s : State) (dt : Nat) (pins : BitVec 48),
    let u := s.tickTo dt
    let p := u.g CLK_TICK_CFG_PERIOD
    (u.tick.on = false ∨ u.tick.commitDue = true ∨ u.tickSrc ≠ 1 ∨ (u.tick.lost = false ∧ (u.tickAge < p - 300 ∨ p + 300 < u.tickAge))) →
    ∃ t, Machine.exec (.syncInEdge dt pins) s = .next t ∧ u.sameBut t []) ∧
  (∀ (s : State) (dt : Nat) (pins : BitVec 48),
    let u := s.tickTo dt
    u.tick.on = true → u.tick.commitDue = false → u.tickSrc ≠ 0 → u.tick.lost = false → u.g CLK_TICK_CFG_PERIOD + 300 ≤ u.tickAge →
    ∃ t, Machine.exec (.markTimeout dt pins) s = .next t ∧
      u.outlives t ∧ t.tick.mark = u.now ∧
      t.tick.no = u.tick.no + 1 ∧ t.tick.commitDue = true ∧ (t.tickSrc = u.tickSrc → t.tick.lost = true ∧ t.gb CLK_TICK_STAT_SRC_LOST = true))

/-- COMMIT_POINT (R21, R26, R27). -/
def Obligations.CommitPointEnds : Prop :=
  (∀ (s : State) (dt : Nat) (fin : Vector (BitVec 16) 8),
    let u := s.tickTo dt
    let lim := u.g CLK_TICK_CFG_PERIOD - 400
    let late := fun (n : Fin 8) => decide (lim < fin[n].toNat)
    let any := (List.finRange 8).any late
    u.tick.on = true → u.tick.commitDue = true → lim ≤ u.tickAge →
    ∃ t, Machine.exec (.commitPoint dt fin) s = .next t ∧
      u.outlives t ∧
      t.tick.commitDue = false ∧ t.tick.mark = u.tick.mark ∧ t.tick.no = u.tick.no ∧ t.tick.on = true ∧
      (∀ n : Fin 8, t.gBit CLK_TICK_LAST_LATE n = late n) ∧ t.gb CLK_TICK_STAT_OVERRUN = any ∧
      t.g CLK_TICK_LAST_FINISH = ((List.finRange 8).map fun n => if late n then 0xFFFF else fin[n].toNat).foldl max 0 ∧
      t.g CLK_TICK_STAT_OVR_CONSEC = (if any then min (u.g CLK_TICK_STAT_OVR_CONSEC + 1) 15 else 0) ∧
      t.g CLK_TICK_LAST_OVR_TOTAL = (if any then min (u.g CLK_TICK_LAST_OVR_TOTAL + 1) 255 else u.g CLK_TICK_LAST_OVR_TOTAL) ∧
      (any = true → t.evPending 2 = true)) ∧
  (∀ (s : State) (dt : Nat) (fin : Vector (BitVec 16) 8),
    let u := s.tickTo dt
    (u.tick.on = false ∨ u.tick.commitDue = false ∨ u.tickAge < u.g CLK_TICK_CFG_PERIOD - 400) →
    ∃ t, Machine.exec (.commitPoint dt fin) s = .next t ∧ u.sameBut t [])

/-- CLR_MAX and CLR_TOTAL (Table 1-7); after the commit point the registers hold that tick's own values (R32). -/
def Obligations.TickCountersClear : Prop :=
  (∀ (s : State) (dt : Nat) (lk : Link),
    let u := (s.tickTo dt).hostBegin
    let past := u.tick.on && !u.tick.commitDue
    u.reaches 0x1C9 = true →
    ∃ t, Machine.exec (.clrMax dt lk) s = .next t ∧
      (u.unarm lk).sameBut t [0x1CC, 0x1CD, 0x1CE, 0x1CF, 0x1D0, 0x1D1, 0x1D2, 0x1D3] ∧
      ∀ n : Fin 8, t.g (CLK_TICK_MAX_MAX n) = if past then u.tick.fins.getD n 0 % 65536 else 0) ∧
  (∀ (s : State) (dt : Nat) (lk : Link),
    let u := (s.tickTo dt).hostBegin
    let past := u.tick.on && !u.tick.commitDue
    u.reaches 0x1C9 = true →
    ∃ t, Machine.exec (.clrTotal dt lk) s = .next t ∧
      (u.unarm lk).sameBut t [CLK_TICK_LAST_OVR_TOTAL.a] ∧
      t.g CLK_TICK_LAST_OVR_TOTAL = (if past then u.g CLK_TICK_STAT_OVERRUN else 0) ∧
      t.g CLK_TICK_LAST_FINISH = u.g CLK_TICK_LAST_FINISH ∧ t.g CLK_TICK_LAST_LATE = u.g CLK_TICK_LAST_LATE)

/-- HOME_LIMIT_FILTER_PASS (R58). -/
def Obligations.HomeLimitFilter : Prop :=
  (∀ (s : State) (dt : Nat) (n : Fin 8) (pin : LimPin) (lvl : Bool) (held : Nat),
    let u := s.tickTo dt
    let k := match pin with
      | .fb2 => 0
      | .step => 1
      | .dir => 2
    u.flPins = true → u.g (AX_PINSEL_FILT n) ≠ 0 → 400 * u.g (AX_PINSEL_FILT n) ≤ held → (pin = .fb2 → u.mwOn (3 * n.val + 2) = false) →
    ∃ t, Machine.exec (.homeLimitFilterPass dt n pin ⟨lvl, held⟩) s = .next t ∧
      ({ u with axes := t.axes }).sameBut t [] ∧ t.axes = vupd u.axes n (fun a => { a with pinF := t.axes[n].pinF }) ∧
      bit t.axes[n].pinF k = lvl ∧ ∀ j : Fin 3, j.val ≠ k → bit t.axes[n].pinF j = bit u.axes[n].pinF j) ∧
  (∀ (s : State) (dt : Nat) (n : Fin 8) (pin : LimPin) (lvl : Bool) (held : Nat),
    let u := s.tickTo dt
    (u.flPins = false ∨ u.g (AX_PINSEL_FILT n) = 0 ∨ held < 400 * u.g (AX_PINSEL_FILT n) ∨ (pin = .fb2 ∧ u.mwOn (3 * n.val + 2) = true)) →
    ∃ t, Machine.exec (.homeLimitFilterPass dt n pin ⟨lvl, held⟩) s = .next t ∧ u.sameBut t [])

/-- BRAKE_CLAMP_ENGAGE and BRAKE_CLAMP_RELEASE (R62, R74). -/
def Obligations.BrakeClamp : Prop :=
  (∀ (s : State) (dt : Nat) (st : Fin 2),
    let u := s.tickTo dt
    u.gb (PWR_STAT_CLAMP st) = false → u.awake = true →
    ∃ t, Machine.exec (.brakeClampEngage dt st) s = .next t ∧
      u.quelled t [] ∧ t.gb (PWR_STAT_CLAMP st) = true ∧ t.power.clampAt[st] = u.now ∧ t.power.clampPeak[st] = u.power.vms[st] ∧ t.power.clampOn[st] = true ∧ t.pinState .brkg = .high ∧ t.level 11 st = true ∧ u.opensStation t st fcCLAMP) ∧
  (∀ (s : State) (dt : Nat) (st : Fin 2),
    let u := s.tickTo dt
    u.gb (PWR_STAT_CLAMP st) = false → u.awake = false →
    ∃ t, Machine.exec (.brakeClampEngage dt st) s = .next t ∧
      ({ u.put (PWR_STAT_CLAMP st) 1 with power := t.power }).sameBut t [] ∧ t.power.clampAt[st] = u.now ∧ t.power.clampOn[st] = true ∧ t.pinState .brkg = .high) ∧
  (∀ (s : State) (dt : Nat) (st : Fin 2),
    let u := s.tickTo dt
    let ms := min ((u.now - u.power.clampAt[st]) / 400000) (2 ^ 32 - 1)
    u.gb (PWR_STAT_CLAMP st) = true → u.awake = true →
    ∃ t, Machine.exec (.brakeClampRelease dt st) s = .next t ∧
      ({ u.put (PWR_STAT_CLAMP st) 0 with surv := t.surv, power := t.power }).sameBut t [MG_FB_STAT_LOST.a] ∧
      t.power = { u.power with clampOn := vupd u.power.clampOn st fun _ => false } ∧ t.level 11 st = false ∧
      u.booked t 0x12 ([st.val, 0] ++ beBytes 2 u.power.clampPeak[st] ++ beBytes 4 ms)) ∧
  (∀ (s : State) (dt : Nat) (st : Fin 2),
    let u := s.tickTo dt
    ∃ t, Machine.exec (if u.gb (PWR_STAT_CLAMP st) then .brakeClampEngage dt st else .brakeClampRelease dt st) s = .next t ∧ u.sameBut t [])

/-- The motor-supply comparators (R65 to R70, Table 3-4). -/
def Obligations.MotorSupplyLimits : Prop :=
  (∀ (s : State) (dt : Nat) (st : Fin 2) (on : Bool),
    let u := s.tickTo dt
    ∃ t, Machine.exec (if on then .blockingSwitchOn dt st else .blockingSwitchOff dt st) s = .next t ∧
      ({ u with power := t.power }).sameBut t [] ∧
      t.power = { u.power with sw := vupd u.power.sw st (fun b => on && (b || !u.gb (PWR_STAT_REV st))) }) ∧
  (∀ (s : State) (dt : Nat) (st : Fin 2) (mv : BitVec 16),
    let u := s.tickTo dt
    u.gb (PWR_STAT_VM_OK st) = true →
    ∃ t, Machine.exec (.vmLockout dt st mv) s = .next t ∧
      u.quelled t [] ∧ t.gb (PWR_STAT_VM_OK st) = false ∧ t.evPending 8 = true ∧ u.opensStation t st fcUV) ∧
  (∀ (s : State) (dt : Nat) (st : Fin 2) (mv : BitVec 16),
    let u := s.tickTo dt
    u.gb (PWR_STAT_VM_OK st) = false → ∃ t, Machine.exec (.vmLockout dt st mv) s = .next t ∧ u.sameBut t []) ∧
  (∀ (s : State) (dt : Nat) (st : Fin 2),
    let u := s.tickTo dt
    ∃ t, Machine.exec (.vmLockoutRelease dt st) s = .next t ∧ (if u.gb (PWR_STAT_REV st) then u else u.put (PWR_STAT_VM_OK st) 1).sameBut t []) ∧
  (∀ (s : State) (dt : Nat) (st : Fin 2) (below : Bool),
    ∃ t, Machine.exec (.uvWarnChange dt st below) s = .next t ∧ ((s.tickTo dt).putB (PWR_STAT_UV_WARN st) below).sameBut t []) ∧
  (∀ (s : State) (dt : Nat) (st : Fin 2) (mv : BitVec 16),
    let u := s.tickTo dt
    u.gb (PWR_STAT_OV st) = false →
    ∃ t, Machine.exec (.vmOvervoltage dt st mv) s = .next t ∧
      u.quelled t [] ∧ t.gb (PWR_STAT_OV st) = true ∧ t.level 9 st = true ∧ u.opensStation t st fcOV ∧
      u.booked t 0x11 ([st.val, 1] ++ beBytes 2 mv.toNat)) ∧
  (∀ (s : State) (dt : Nat) (st : Fin 2) (mv : BitVec 16),
    let u := s.tickTo dt
    ∃ t, Machine.exec (.vmOvervoltageClear dt st mv) s = .next t ∧ (u.put (PWR_STAT_OV st) 0).sameBut t [] ∧ t.level 9 st = false) ∧
  (∀ (s : State) (dt : Nat) (st : Fin 2) (mv : BitVec 16),
    let u := s.tickTo dt
    u.gb (PWR_STAT_REV st) = false →
    ∃ t, Machine.exec (.vmReversed dt st mv) s = .next t ∧
      u.quelled t [] ∧ t.gb (PWR_STAT_REV st) = true ∧ t.power.sw[st] = false ∧ t.gb (PWR_STAT_VM_OK st) = false ∧ t.level 10 st = true ∧
      u.opensStation t st (fcUV + fcREV) ∧ u.booked t 0x11 ([st.val, 2] ++ beBytes 2 mv.toNat)) ∧
  (∀ (s : State) (dt : Nat) (st : Fin 2) (mv : BitVec 16),
    let u := s.tickTo dt
    ∃ t, Machine.exec (.vmReverseClear dt st) s = .next t ∧ (u.put (PWR_STAT_REV st) 0).sameBut t [] ∧ t.level 10 st = false) ∧
  (∀ (s : State) (dt : Nat) (st : Fin 2) (mv : BitVec 16) (rev : Bool),
    let u := s.tickTo dt
    u.gb (if rev then PWR_STAT_REV st else PWR_STAT_OV st) = true →
    ∃ t, Machine.exec (if rev then .vmReversed dt st mv else .vmOvervoltage dt st mv) s = .next t ∧ u.sameBut t [])

/-- The brake dump controller (R72, R73). -/
def Obligations.BrakeDump : Prop :=
  (∀ (s : State) (dt : Nat),
    let u := s.tickTo dt
    (u.dev = .ready ∨ u.dev = .run) → u.gb PWR_STAT_BRK_HOT = false →
    ∃ t, Machine.exec (.brakeDumpOn dt) s = .next t ∧
      ({ u.put PWR_STAT_DUMP 1 with power := { u.power with
          dumpAt := if u.dumpOn then u.power.dumpAt else u.now, dumpEnd := none } }).sameBut t [] ∧ t.dumpOn = true ∧ t.pinState .brkg = .high) ∧
  (∀ (s : State) (dt : Nat),
    let u := s.tickTo dt
    u.gb PWR_STAT_DUMP = true → u.power.dumpAt + 8000 ≤ u.now →
    ∃ t, Machine.exec (.brakeDumpRelease dt) s = .next t ∧
      ({ u.put PWR_STAT_DUMP 0 with power := { u.power with dumpEnd := none } }).sameBut t [] ∧ t.dumpOn = false ∧
      (t.pinState .brkg = .low ↔ u.power.clampOn[0] = false ∧ u.power.clampOn[1] = false)) ∧
  (∀ (s : State) (dt : Nat),
    let u := s.tickTo dt
    u.gb PWR_STAT_DUMP = true → u.now < u.power.dumpAt + 8000 →
    ∃ t, Machine.exec (.brakeDumpRelease dt) s = .next t ∧
      ({ u with power := { u.power with dumpEnd := some (u.power.dumpEnd.getD (u.power.dumpAt + 8000)) } }).sameBut t []) ∧
  (∀ (s : State) (dt : Nat),
    let u := s.tickTo dt
    u.dumpOn = true → u.g PWR_VM_AUX_BRK_MAXON ≠ 0 → u.power.dumpAt + 4000000 * u.g PWR_VM_AUX_BRK_MAXON ≤ u.now →
    ∃ t, Machine.exec (.brakeHot dt) s = .next t ∧
      ({ (u.put PWR_STAT_DUMP 0).put PWR_STAT_BRK_HOT 1 with power := { u.power with hotAt := u.now, dumpEnd := none } }).sameBut t [] ∧
      t.dumpOn = false ∧ t.level 12 0 = true) ∧
  (∀ (s : State) (dt : Nat),
    let u := s.tickTo dt
    u.gb PWR_STAT_BRK_HOT = true → u.power.hotAt + 16000000 * u.g PWR_VM_AUX_BRK_MAXON ≤ u.now →
    ∃ t, Machine.exec (.brakeHoldoffEnd dt) s = .next t ∧ (u.put PWR_STAT_BRK_HOT 0).sameBut t [] ∧ t.level 12 0 = false) ∧
  (∀ (s : State) (dt : Nat),
    let u := s.tickTo dt
    ((u.dev ≠ .ready ∧ u.dev ≠ .run) ∨ u.gb PWR_STAT_BRK_HOT = true) → ∃ t, Machine.exec (.brakeDumpOn dt) s = .next t ∧ u.sameBut t []) ∧
  (∀ (s : State) (dt : Nat),
    let u := s.tickTo dt
    u.gb PWR_STAT_DUMP = false → ∃ t, Machine.exec (.brakeDumpRelease dt) s = .next t ∧ u.sameBut t []) ∧
  (∀ (s : State) (dt : Nat),
    let u := s.tickTo dt
    (u.dumpOn = false ∨ u.g PWR_VM_AUX_BRK_MAXON = 0 ∨ u.now < u.power.dumpAt + 4000000 * u.g PWR_VM_AUX_BRK_MAXON) →
    ∃ t, Machine.exec (.brakeHot dt) s = .next t ∧ u.sameBut t []) ∧
  (∀ (s : State) (dt : Nat),
    let u := s.tickTo dt
    (u.gb PWR_STAT_BRK_HOT = false ∨ u.now < u.power.hotAt + 16000000 * u.g PWR_VM_AUX_BRK_MAXON) →
    ∃ t, Machine.exec (.brakeHoldoffEnd dt) s = .next t ∧ u.sameBut t [])

/-- LOGIC_SOURCE_CHANGE, FULL_LOGIC_POWER_LOSS, _DOWN and _RETURN, POWER_FAIL, HOLDUP_END (R75 to R80, R85). -/
def Obligations.LogicPowerPath : Prop :=
  (∀ (s : State) (dt : Nat) (toVm : Bool),
    let u := s.tickTo dt
    ∃ t, Machine.exec (.logicSourceChange dt toVm) s = .next t ∧
      (u.putB PWR_STAT_SRC_VM toVm).sameBut t [] ∧ (u.gb PWR_STAT_SRC_VM ≠ toVm → u.awake = true → t.evPending 6 = true)) ∧
  (∀ (s : State) (dt : Nat),
    let u := s.tickTo dt
    u.flOn = true → u.power.grace = none →
    ∃ t, Machine.exec (.fullLogicPowerLoss dt) s = .next t ∧
      u.quelled t [] ∧ t.power.grace = some u.now ∧ t.flOn = true ∧ ((u.cmds.map fun (c : Cmd) => c.id).Nodup → (u.cmds.all fun c => decide (c.ring < 11)) = true → (t.cmds.all fun c => !c.live) = true) ∧ t.dev = (if u.dev = .ready ∨ u.dev = .run then .safe else u.dev) ∧
      t.gBit DEV_STATE_SAFE_CAUSE 3 = (u.gBit DEV_STATE_SAFE_CAUSE 3 || (u.dev != .reset && u.dev != .optionLoad))) ∧
  (∀ (s : State) (dt : Nat),
    let u := s.tickTo dt
    (u.flOn = false ∨ u.power.grace ≠ none) → ∃ t, Machine.exec (.fullLogicPowerLoss dt) s = .next t ∧ u.sameBut t []) ∧
  (∀ (s : State) (dt : Nat) (g : Nat),
    let u := s.tickTo dt
    u.power.grace = some g → g + 80000000 ≤ u.now →
    ∃ t, Machine.exec (.fullLogicPowerDown dt) s = .next t ∧
      u.quelled t [] ∧ t.power.grace = none ∧ t.flOn = false ∧ t.gb PWR_STAT_FL_ON = false ∧ t.gb PWR_STAT_V5_ON = false ∧
      t.tick.on = false ∧ t.evPending 6 = true ∧ t.dev = u.dev ∧ ∀ c : Fin 16, t.coils[c].side1 = .off ∧ t.coils[c].side2 = .off) ∧
  (∀ (s : State) (dt : Nat),
    let u := s.tickTo dt
    (∀ g ∈ u.power.grace, u.now < g + 80000000) → ∃ t, Machine.exec (.fullLogicPowerDown dt) s = .next t ∧ u.sameBut t []) ∧
  (∀ (s : State) (dt : Nat) (g : Nat),
    let u := s.tickTo dt
    u.power.grace = some g →
    ∃ t, Machine.exec (.fullLogicPowerReturn dt) s = .next t ∧
      (if u.flMay then { u.putBit DEV_STATE_SAFE_CAUSE 3 false with power := { u.power with grace := none } } else u).sameBut t []) ∧
  (∀ (s : State) (dt : Nat),
    let u := s.tickTo dt
    u.power.grace = none →
    ∃ t, Machine.exec (.fullLogicPowerReturn dt) s = .next t ∧
      (if u.dev = .safe ∧ u.flOn = false ∧ u.flMay = true ∧ u.power.holdup = false then
        ({ u with dev := .configLoad, boot := { u.boot with stage := 2, fromCore := false, reload := true } }).sameBut t [] ∧
        t.level 1 0 = false
      else u.sameBut t [])) ∧
  (∀ (s : State) (dt : Nat) (vm0 vm1 vlink vbak : BitVec 16),
    let u := s.tickTo dt
    u.power.holdup = false → u.answers = true →
    ∃ t, Machine.exec (.powerFail dt vm0 vm1 vlink vbak) s = .next t ∧
      u.quelled t [] ∧ t.power.holdup = true ∧ t.flOn = false ∧ t.gb PWR_STAT_FL_ON = false ∧ t.dev = u.dev ∧
      (u.surveyorUp = true → t.surv.fbQ.dropLast = u.surv.fbQ.take 1 ∧
        t.surv.fbQ.getLast?.map (fun r => (r.typ, r.payload)) = some (0x02, beBytes 2 vm0.toNat ++ beBytes 2 vm1.toNat ++
          beBytes 2 vlink.toNat ++ beBytes 2 vbak.toNat ++ beBytes 2 (u.surv.fbQ.length - 1)))) ∧
  (∀ (s : State) (dt : Nat) (vm0 vm1 vlink vbak : BitVec 16),
    let u := s.tickTo dt
    (u.power.holdup = true ∨ u.answers = false) → ∃ t, Machine.exec (.powerFail dt vm0 vm1 vlink vbak) s = .next t ∧ u.sameBut t []) ∧
  (∀ (s : State) (dt : Nat),
    let u := s.tickTo dt
    ∃ t, Machine.exec (.holdupEnd dt) s = .next t ∧ ({ u with power := { u.power with dead := u.power.dead || u.power.holdup } }).sameBut t [])

/-- FULL_LOGIC_RESTORE (R80). -/
def Obligations.FullLogicRestored : Prop :=
  (∀ (s : State) (dt : Nat) (bad : Fin 3),
    let u := s.tickTo dt
    u.dev = .configLoad → u.boot.reload = true → u.boot.stage = 2 → u.boot.fromCore = false → u.surveyorUp = true → u.flMay = true →
    u.flOn = false → u.boot.imgOk = false →
    ∃ t, Machine.exec (.fullLogicRestore dt bad) s = .next t ∧
      t.now = u.now ∧ t.pending = u.pending ∧ t.nvm = u.nvm ∧ t.otp = u.otp ∧ t.flash = u.flash ∧ t.dev = .configLoad ∧
      t.boot = { u.boot with stage := 3, reload := false, ceilFrozen := false } ∧ t.flOn = true ∧ t.gb PWR_STAT_FL_ON = true ∧
      t.cmds = [] ∧ t.store = [] ∧ (∀ n : Fin 8, t.axes[n].st = .off) ∧ t.word 0x1C8 = resetWord 0x1C8 ∧
      (∀ n : Fin 8, t.word (AX_SEQ_CFG_RANGE n).a = resetWord (AX_SEQ_CFG_RANGE n).a ∧ t.g (PWR_FLTCAUSE_BITS n) = 0) ∧
      ∀ q : Fin 5, q ≠ 1 → t.rings[q].recs = []) ∧
  (∀ (s : State) (dt : Nat) (bad : Fin 3),
    let u := s.tickTo dt
    u.dev = .configLoad → u.boot.reload = true → u.boot.stage = 2 → u.boot.fromCore = false → u.surveyorUp = true → u.flMay = true →
    u.boot.imgOk = true →
    ∃ t, Machine.exec (.fullLogicRestore dt bad) s = .next t ∧
      (t.now = u.now ∧ t.pending = u.pending ∧ t.nvm = u.nvm ∧ t.otp = u.otp ∧ t.flash = u.flash ∧ t.boot.reload = false ∧
      if bad = 2 then t.dev = .recovery ∧ t.g DEV_BOOTSTAT_REC_CAUSE = 3 ∧ t.flOn = false
      else t.dev = .configLoad ∧ t.flOn = true ∧ t.boot.stage = 3)) ∧
  (∀ (s : State) (dt : Nat) (bad : Fin 3),
    let u := s.tickTo dt
    (u.dev ≠ .safe ∧ (u.dev ≠ .configLoad ∨ u.boot.reload = false ∨ u.boot.stage ≠ 2 ∨ u.surveyorUp = false ∨ u.flMay = false)) →
    ∃ t, Machine.exec (.fullLogicRestore dt bad) s = .next t ∧ u.sameBut t [])

/-- V5OUT (R82, R83). -/
def Obligations.V5Output : Prop :=
  (∀ (s : State) (dt : Nat),
    let u := s.tickTo dt
    u.gb PWR_STAT_V5_ON = true →
    ∃ t, Machine.exec (.v5outOverload dt) s = .next t ∧
      ({ (u.put PWR_STAT_V5_ON 0).put PWR_STAT_V5_FAULT 1 with power := { u.power with v5Off := some u.now, v5On := none } }).sameBut t [] ∧
      t.level 13 0 = true) ∧
  (∀ (s : State) (dt : Nat),
    let u := s.tickTo dt
    (∃ v ∈ u.power.v5Off, v + 200000000 ≤ u.now) → u.gb PWR_PATH_CFG_V5_EN = true → u.flOn = true →
    (u.dev ≠ .safe ∨ u.gb PWR_PATH_CFG_V5_SAFE = true) → (∀ l ∈ u.surv.mwCur, 24 ≤ l) →
    ∃ t, Machine.exec (.v5outRetry dt) s = .next t ∧
      ({ u.put PWR_STAT_V5_ON 1 with power := { u.power with v5Off := none, v5On := some u.now } }).sameBut t []) ∧
  (∀ (s : State) (dt : Nat) (l : Fin 24),
    let u := s.tickTo dt
    (∃ v ∈ u.power.v5Off, v + 200000000 ≤ u.now) → u.gb PWR_PATH_CFG_V5_EN = true → u.flOn = true →
    (u.dev ≠ .safe ∨ u.gb PWR_PATH_CFG_V5_SAFE = true) → u.surv.mwCur = some l.val →
    ∃ t, Machine.exec (.v5outRetry dt) s = .next t ∧
      u.quelled t [0x1000020, 0x1000021, 0x1000022, 0x1000023] ∧ t.gb PWR_STAT_V5_ON = true ∧
      t.power = { u.power with v5Off := none, v5On := some u.now } ∧ t.surv.mwCur ≠ some l.val ∧
      t.g MG_MW_STAT_ABANDON = min (u.g MG_MW_STAT_ABANDON + 1) (2 ^ MG_MW_STAT_ABANDON.w - 1)) ∧
  (∀ (s : State) (dt : Nat),
    let u := s.tickTo dt
    u.gb PWR_STAT_V5_ON = true → u.gb PWR_STAT_V5_FAULT = true → (∃ v ∈ u.power.v5On, v + 4000000 ≤ u.now) →
    ∃ t, Machine.exec (.v5outFaultClear dt) s = .next t ∧
      ({ u.put PWR_STAT_V5_FAULT 0 with power := { u.power with v5On := none } }).sameBut t [] ∧ t.level 13 0 = false) ∧
  (∀ (s : State) (dt : Nat),
    let u := s.tickTo dt
    u.gb PWR_STAT_V5_ON = false → ∃ t, Machine.exec (.v5outOverload dt) s = .next t ∧ u.sameBut t []) ∧
  (∀ (s : State) (dt : Nat),
    let u := s.tickTo dt
    ((∀ v ∈ u.power.v5Off, u.now < v + 200000000) ∨ u.gb PWR_PATH_CFG_V5_EN = false ∨ u.flOn = false ∨
      (u.dev = .safe ∧ u.gb PWR_PATH_CFG_V5_SAFE = false)) →
    ∃ t, Machine.exec (.v5outRetry dt) s = .next t ∧ u.sameBut t []) ∧
  (∀ (s : State) (dt : Nat),
    let u := s.tickTo dt
    (u.gb PWR_STAT_V5_ON = false ∨ u.gb PWR_STAT_V5_FAULT = false ∨ (∀ v ∈ u.power.v5On, u.now < v + 4000000)) →
    ∃ t, Machine.exec (.v5outFaultClear dt) s = .next t ∧ u.sameBut t [])

/-- FET_OVERCURRENT, OPEN_COIL_DETECT, CLR_OC, CLR_OPEN (R88 to R91). The kind of a double trip of one terminal is a free value of
the model (log entry 26). -/
def Obligations.CoilFaults : Prop :=
  (∀ (s : State) (dt : Nat) (c : Fin 16) (fets : BitVec 4),
    let u := s.tickTo dt
    let n := axisOf c
    fets ≠ 0 → u.gBit PWR_COILFLT_OC c = false →
    ∃ t, Machine.exec (.fetOvercurrent dt c fets) s = .next t ∧
      ({ (u.putBit PWR_COILFLT_OC c true).put (PWR_OCKIND_KIND c) (t.g (PWR_OCKIND_KIND c)) with
        coils := vupd u.coils c (fun k => { k.release with ocFets := fets.toNat }),
        axes := vupd u.axes n (fun a => { a with ocDue := a.ocDue ||| fcOC (c.val % 2 == 1) }),
        surv := t.surv, free := t.free }).sameBut t [MG_FB_STAT_LOST.a] ∧
      (t.g (PWR_OCKIND_KIND c) = 3 ∨ ¬ (fets &&& 0b1001 = 0b1001 ∨ fets &&& 0b0110 = 0b0110)) ∧
      (t.g (PWR_OCKIND_KIND c) = 1 ∨ fets &&& 0b1010 ≠ 0) ∧ (t.g (PWR_OCKIND_KIND c) = 2 ∨ fets &&& 0b0101 ≠ 0) ∧
      t.evPending 16 = true ∧ u.booked t 0x10 [c.val, t.g (PWR_OCKIND_KIND c), u.axes[n].st.code]) ∧
  (∀ (s : State) (dt : Nat) (c : Fin 16) (fets : BitVec 4),
    let u := s.tickTo dt
    fets ≠ 0 → u.gBit PWR_COILFLT_OC c = true →
    ∃ t, Machine.exec (.fetOvercurrent dt c fets) s = .next t ∧
      ({ u with coils := vupd u.coils c (fun k => { k with ocMore := min 65535 (k.ocMore + 1), ocFets := k.ocFets ||| fets.toNat }) }).sameBut t []) ∧
  (∀ (s : State) (dt : Nat) (c : Fin 16),
    ∃ t, Machine.exec (.fetOvercurrent dt c 0) s = .next t ∧ (s.tickTo dt).sameBut t []) ∧
  (∀ (s : State) (dt : Nat) (c : Fin 16),
    let u := s.tickTo dt
    let n := axisOf c
    u.g (PWR_AXCFG_OPEN_TICKS n) ≠ 0 → u.g (PWR_AXCFG_OPEN_TICKS n) ≤ u.coils[c].openN → u.energised n = true →
    ∃ t, Machine.exec (.openCoilDetect dt c) s = .next t ∧
      u.quelled t [0x148] ∧ t.word 0x148 = (u.putBit PWR_COILFLT_OPEN c true).word 0x148 ∧ t.evPending 17 = true ∧
      u.opensAxes t (fun k => k == n) (fcOPEN (c.val % 2 == 1)) ∧ t.coils[c].openN = 0) ∧
  (∀ (s : State) (dt : Nat) (c : Fin 16),
    let u := s.tickTo dt
    let n := axisOf c
    (u.g (PWR_AXCFG_OPEN_TICKS n) = 0 ∨ u.coils[c].openN < u.g (PWR_AXCFG_OPEN_TICKS n) ∨ u.energised n = false) →
    ∃ t, Machine.exec (.openCoilDetect dt c) s = .next t ∧ u.sameBut t []) ∧
  (∀ (s : State) (dt : Nat) (lk : Link) (mask : BitVec 16),
    let u := (s.tickTo dt).hostBegin
    u.reaches 0x149 = true →
    ∃ t, Machine.exec (.clrOc dt lk mask) s = .next t ∧
      ({ u.unarm lk with coils := t.coils }).sameBut t [0x148, 0x14A] ∧
      ∀ c : Fin 16, t.coils[c] = { u.coils[c] with ocFets := if mask.getLsbD c then 0 else u.coils[c].ocFets } ∧
        t.gBit PWR_COILFLT_OC c = (u.gBit PWR_COILFLT_OC c && !mask.getLsbD c) ∧
        t.gBit PWR_COILFLT_OPEN c = u.gBit PWR_COILFLT_OPEN c ∧
        t.g (PWR_OCKIND_KIND c) = if mask.getLsbD c then 0 else u.g (PWR_OCKIND_KIND c)) ∧
  (∀ (s : State) (dt : Nat) (lk : Link) (mask : BitVec 16),
    let u := (s.tickTo dt).hostBegin
    u.reaches 0x149 = true →
    ∃ t, Machine.exec (.clrOpen dt lk mask) s = .next t ∧
      (u.unarm lk).sameBut t [0x148] ∧
      ∀ c : Fin 16, t.gBit PWR_COILFLT_OPEN c = (u.gBit PWR_COILFLT_OPEN c && !mask.getLsbD c) ∧
        t.gBit PWR_COILFLT_OC c = u.gBit PWR_COILFLT_OC c)

/-- THERMAL_BACKSTOP, its release, TEMP_READING_STALE, BOOST_LOCK, BOOST_UNLOCK (R92, R93, R98). -/
def Obligations.ThermalBackstops : Prop :=
  (∀ (s : State) (dt : Nat) (st : Fin 2) (k : Fin 3) (temp : BitVec 16),
    let u := s.tickTo dt
    let i := 3 * st.val + k.val
    bit u.power.tBack i = false →
    ∃ t, Machine.exec (.thermalBackstop dt st k temp) s = .next t ∧
      u.quelled t [] ∧ bit t.power.tBack i = true ∧ t.gb (PWR_STAT_TEMP_TRIP st) = true ∧ t.level 19 i = true ∧ u.opensStation t st fcTEMP) ∧
  (∀ (s : State) (dt : Nat) (st : Fin 2) (k : Fin 3) (temp : BitVec 16),
    let u := s.tickTo dt
    let i := 3 * st.val + k.val
    bit u.power.tBack i = true →
    ∃ t, Machine.exec (.thermalBackstopRelease dt st k temp) s = .next t ∧
      (({ u with power := { u.power with tBack := t.power.tBack } }).sameBut t [0x140] ∧ bit t.power.tBack i = false ∧
      (∀ j : Fin 6, j.val ≠ i → bit t.power.tBack j = bit u.power.tBack j) ∧ t.level 19 i = (bit u.power.tTrip i && u.level 19 i) ∧
      (∀ x : Fin 2, t.gb (PWR_STAT_VM_OK x) = u.gb (PWR_STAT_VM_OK x)) ∧
      t.gb (PWR_STAT_TEMP_TRIP st) = (List.range 3).any fun j => bit t.power.tBack (3 * st.val + j) || bit u.power.tTrip (3 * st.val + j))) ∧
  (∀ (s : State) (dt : Nat) (st : Fin 2) (k : Fin 3) (temp : BitVec 16),
    let u := s.tickTo dt
    ∃ t, Machine.exec (if bit u.power.tBack (3 * st.val + k.val) then .thermalBackstop dt st k temp else .thermalBackstopRelease dt st k temp) s = .next t ∧ u.sameBut t []) ∧
  (∀ (s : State) (dt : Nat) (st : Fin 2),
    let u := s.tickTo dt
    ∃ t, Machine.exec (.tempReadingStale dt st) s = .next t ∧
      ({ u with power := { u.power with stale := vupd u.power.stale st fun b => b || decide (u.power.tempAt[st] + 4000000 < u.now) } }).sameBut t []) ∧
  (∀ (s : State) (dt : Nat) (n : Fin 8) (lock : Bool),
    let u := s.tickTo dt
    let a := u.axes[n]
    let d := u.now - a.boostAt
    let run := fun (c : Fin 16) (acc : Nat) => if u.fs n = 6000 ∧ 4200 * 4096 < u.coils[c].sp.natAbs * 6000 then acc + 4 * d else acc - d
    let bA := run (coilA n) a.boostA
    let bB := run (coilB n) a.boostB
    ∃ t, Machine.exec (if lock then .boostLock dt n else .boostUnlock dt n) s = .next t ∧
      ({ u with axes := vupd u.axes n fun a => { a with boostA := bA, boostB := bB, boostAt := u.now } }).sameBut t [(PWR_GOV_CEIL_BOOST_LOCK n).a] ∧
      t.gb (PWR_GOV_CEIL_BOOST_LOCK n) = (if lock then u.gb (PWR_GOV_CEIL_BOOST_LOCK n) || decide (3200000000 ≤ max bA bB)
        else u.gb (PWR_GOV_CEIL_BOOST_LOCK n) && decide (1600000000 < max bA bB)) ∧
      t.word (PWR_GOV_CEIL_BOOST_LOCK n).a = (u.putB (PWR_GOV_CEIL_BOOST_LOCK n) (t.gb (PWR_GOV_CEIL_BOOST_LOCK n))).word (PWR_GOV_CEIL_BOOST_LOCK n).a)

/-- POWER_ON_RESET, SYSTEM_RESET and their releases (R107 to R114). Whether a running operation holds a reset back is a free value
of the model (log entry 44). -/
def Obligations.PowerOnAndSystemReset : Prop :=
  (∀ (s : State) (dt : Nat),
    let u := s.tickTo dt
    ∃ t, Machine.exec (.powerOnReset dt) s = .next t ∧
      ({ State.reset with
        pending := u.pending, nvm := t.nvm, otp := t.otp, flash := t.flash, free := t.free,
        power := { PowerSt.init with sw := u.power.sw, clampPeak := u.power.clampPeak, clampOn := u.power.clampOn },
        surv := { State.reset.surv with fcMs := t.nvm.clockFrom, fcAt := 0 },
        boot := { State.reset.boot with por := true, porCause := true } }).sameBut t [0x140, 0x54] ∧
      (∀ x ∈ resetPins, t.pinState x.1 = x.2) ∧ (∀ n : Fin 8, t.pinState (.fbClock n) = .pd ∧ t.pinState (.fbIn n) = .pd) ∧
      (∀ st : Fin 2, t.gb (PWR_STAT_CLAMP st) = u.gb (PWR_STAT_CLAMP st)) ∧ t.nvm.epoch = (u.nvm.epoch + 1) % 2 ^ 32 ∧
      (u.surv.fbQ = [] → u.surv.sealing = none → u.gb MG_UPD_STAT_BUSY = false →
        t.nvm = { u.nvm with epoch := (u.nvm.epoch + 1) % 2 ^ 32 } ∧ t.otp = u.otp ∧ t.flash = u.flash)) ∧
  (∀ (s : State) (dt : Nat),
    let u := s.tickTo dt
    ∃ t, Machine.exec (.powerOnResetRelease dt) s = .next t ∧
      (if u.boot.por = false then u
      else if u.boot.sys then { u with boot := { u.boot with por := false } }
      else { u with dev := .optionLoad, boot := { u.boot with por := false, sys := false, optDone := false, relAt := u.now, wdAt := u.now, wdOn := true } }).sameBut t []) ∧
  (∀ (s : State) (dt : Nat),
    let u := s.tickTo dt
    u.boot.por = false → u.boot.sys = false → u.surv.fbQ = [] → u.surv.sealing = none → u.gb MG_UPD_STAT_BUSY = false →
    ∃ t, Machine.exec (.systemReset dt) s = .next t ∧
      ({ State.reset with
        now := u.now, pending := u.pending, nvm := { u.nvm with epoch := (u.nvm.epoch + 1) % 2 ^ 32 }, otp := u.otp, flash := u.flash, free := u.free,
        power := { PowerSt.init with
          sw := u.power.sw, clampAt := u.power.clampAt, clampPeak := u.power.clampPeak, clampOn := u.power.clampOn, vbakSet := u.power.vbakSet,
          tBack := u.power.tBack, seenRev := u.power.seenRev },
        surv := { State.reset.surv with fcMs := u.surv.fcMs, fcAt := u.surv.fcAt },
        boot := { State.reset.boot with por := false, porCause := false, sys := true } }).sameBut t [0x11, 0x140, 0x54, MG_FCLK_STAT_SYNC.a] ∧
      t.g DEV_RSTCAUSE_CAUSE = 1 ∧ t.g DEV_RSTCAUSE_PROMOTED = 0 ∧ t.g DEV_RSTCAUSE_HELDOFF = 0 ∧
      t.g DEV_RSTCAUSE_LOWTIME = u.g DEV_RSTCAUSE_LOWTIME ∧ t.g DEV_RSTCAUSE_RSTCNT = u.g DEV_RSTCAUSE_RSTCNT ∧
      t.g LNK_GR_EPOCH_EPOCH = t.nvm.epoch ∧
      ∀ st : Fin 2, t.gb (PWR_STAT_VM_OK st) = u.gb (PWR_STAT_VM_OK st) ∧ t.gb (PWR_STAT_CLAMP st) = u.gb (PWR_STAT_CLAMP st)) ∧
  (∀ (s : State) (dt : Nat),
    let u := s.tickTo dt
    u.boot.por = false → u.boot.sys = false → u.nvBusy = true →
    ∃ t, Machine.exec (.systemReset dt) s = .next t ∧
      (({ u with boot := { u.boot with held := some (true, 0) }, free := u.free + 1 }).sameBut t [] ∨
        (t.dev = .reset ∧ t.now = u.now ∧ t.pending = u.pending ∧ t.boot.sys = true ∧ t.cmds = [] ∧ t.g DEV_RSTCAUSE_CAUSE = 1 ∧
          t.nvm.epoch = (u.nvm.epoch + 1) % 2 ^ 32))) ∧
  (∀ (s : State) (dt : Nat),
    let u := s.tickTo dt
    (u.boot.por = true ∨ u.boot.sys = true) → ∃ t, Machine.exec (.systemReset dt) s = .next t ∧ u.sameBut t []) ∧
  (∀ (s : State) (dt : Nat) (count : BitVec 32),
    let u := s.tickTo dt
    u.boot.sys = true →
    ∃ t, Machine.exec (.systemResetRelease dt count) s = .next t ∧
      (if u.boot.por then { u with boot := { u.boot with sys := false } }
      else { u with dev := .optionLoad, boot := { u.boot with por := false, sys := false, optDone := false, relAt := u.now, wdAt := u.now, wdOn := true } }).sameBut t [0x11] ∧
      t.g DEV_RSTCAUSE_LOWTIME = min (count.toNat / 25) 4095 ∧ t.g DEV_RSTCAUSE_RSTCNT = min (u.g DEV_RSTCAUSE_RSTCNT + 1) 255 ∧
      t.g DEV_RSTCAUSE_CAUSE = u.g DEV_RSTCAUSE_CAUSE) ∧
  (∀ (s : State) (dt : Nat) (count : BitVec 32),
    let u := s.tickTo dt
    u.boot.sys = false → ∃ t, Machine.exec (.systemResetRelease dt count) s = .next t ∧ u.sameBut t [])

/-- CORE_RESET, CORE_RESET_RELEASE, RESET_HOLDOFF_END (R109 to R116). -/
def Obligations.CoreReset : Prop :=
  (∀ (s : State) (dt : Nat) (count : BitVec 32),
    let u := s.tickTo dt
    u.boot.por = false → u.boot.sys = false → u.boot.coreOn = false → u.boot.held = none → u.surv.fbQ = [] → u.surv.sealing = none →
    u.gb MG_UPD_STAT_BUSY = false → u.boot.cfgValid = true → 25 ≤ count.toNat → count.toNat ≤ 1250 →
    ∃ t, Machine.exec (.coreReset dt count) s = .next t ∧
      t.now = u.now ∧ t.pending = u.pending ∧ t.nvm = u.nvm ∧ t.otp = u.otp ∧ t.flash = u.flash ∧ t.store = u.store ∧ t.chain = u.chain ∧
      t.dev = u.dev ∧ t.power = { u.power with dumpEnd := none } ∧ t.gb PWR_STAT_DUMP = false ∧ t.window = [] ∧ t.indQ = [] ∧ t.cmds = [] ∧ t.backlog = [] ∧
      t.boot = { u.boot with coreOn := true, coreAt := u.now, ceilFrozen := true, fromCore := true } ∧ t.tick.on = false ∧
      t.g DEV_RSTCAUSE_CAUSE = 2 ∧ t.g DEV_RSTCAUSE_HELDOFF = 0 ∧ t.g DEV_RSTCAUSE_LOWTIME = count.toNat / 25 ∧
      (∀ n : Fin 8, u.gBit DEV_BLKRST_STAT_BUSY n = false → t.axes[n].st = (if u.energised n then .hold else u.axes[n].st) ∧ t.axes[n].pos = u.axes[n].pos) ∧
      (∀ c : Fin 16, u.axes[axisOf c].idc = none → t.coils[c].sp = u.coils[c].sp ∧ t.coils[c].side1 = u.coils[c].side1 ∧ t.coils[c].side2 = u.coils[c].side2) ∧
      (∀ q : Fin 5, q ≠ 1 → t.rings[q].recs = []) ∧ (∀ x : Fin 4, t.ctxs[x].running = false) ∧
      (∀ lk : Link, (t.link lk).armed = false ∧ (t.link lk).ptr = 0) ∧ (∀ m : Fin 8, t.gb (MB_STAT_VALID m) = false) ∧
      u.keepsWords t (0x140 :: coreWords) ∧
      ∀ q : Fin 5, t.word (RRNG_CFG_WATER (11 + q)).a = u.word (RRNG_CFG_WATER (11 + q)).a) ∧
  (∀ (s : State) (dt : Nat) (count : BitVec 32),
    let u := s.tickTo dt
    u.boot.por = false → u.boot.sys = false → u.boot.coreOn = false → u.boot.held = none → u.surv.fbQ = [] → u.surv.sealing = none →
    u.gb MG_UPD_STAT_BUSY = false → u.boot.cfgValid = false → 25 ≤ count.toNat → count.toNat ≤ 1250 →
    ∃ t, Machine.exec (.coreReset dt count) s = .next t ∧
      t.dev = .reset ∧ t.now = u.now ∧ t.pending = u.pending ∧ t.boot.sys = true ∧ t.g DEV_RSTCAUSE_CAUSE = 1 ∧ t.g DEV_RSTCAUSE_PROMOTED = 1 ∧
      t.g DEV_RSTCAUSE_HELDOFF = 0 ∧ t.nvm = { u.nvm with epoch := (u.nvm.epoch + 1) % 2 ^ 32 } ∧ t.otp = u.otp ∧ t.flash = u.flash ∧ t.cmds = []) ∧
  (∀ (s : State) (dt : Nat) (count : BitVec 32),
    let u := s.tickTo dt
    (u.boot.por = true ∨ u.boot.sys = true ∨ u.boot.coreOn = true ∨ u.boot.held ≠ none ∨ count.toNat < 25 ∨ 1250 < count.toNat) →
    ∃ t, Machine.exec (.coreReset dt count) s = .next t ∧ u.sameBut t []) ∧
  (∀ (s : State) (dt : Nat),
    let u := s.tickTo dt
    u.boot.coreOn = true →
    ∃ t, Machine.exec (.coreResetRelease dt) s = .next t ∧
      ({ u with boot := { u.boot with coreOn := false, relAt := u.now, wdAt := u.now, wdOn := true } }).boots t false) ∧
  (∀ (s : State) (dt : Nat),
    let u := s.tickTo dt
    u.boot.coreOn = false → ∃ t, Machine.exec (.coreResetRelease dt) s = .next t ∧ u.sameBut t []) ∧
  (∀ (s : State) (dt : Nat) (sys : Bool) (count : Nat),
    let u := s.tickTo dt
    u.boot.held = some (sys, count) →
    ∃ t, Machine.exec (.resetHoldoffEnd dt) s = .next t ∧
      t.now = u.now ∧ t.pending = u.pending ∧ t.boot.held = none ∧ t.g DEV_RSTCAUSE_HELDOFF = 1 ∧ t.cmds = [] ∧
      t.g DEV_RSTCAUSE_CAUSE = (if sys = true ∨ u.boot.cfgValid = false then 1 else 2) ∧
      t.g DEV_RSTCAUSE_PROMOTED = (if sys = false ∧ u.boot.cfgValid = false then 1 else 0)) ∧
  (∀ (s : State) (dt : Nat),
    let u := s.tickTo dt
    u.boot.held = none → ∃ t, Machine.exec (.resetHoldoffEnd dt) s = .next t ∧ u.sameBut t [])

/-- OPTION_COMMIT, ENTER_BOOT, CLOCK_FAILURE (R118 to R128). XTAL_OK after a clock failure is a free value (log entry 45). -/
def Obligations.OptionLoadAndBoot : Prop :=
  (∀ (s : State) (dt : Nat) (bad : Option (Fin 8)) (corr : BitVec 8),
    let u := s.tickTo dt
    let o := if bad.isSome then Opts.factory else u.otp.opts
    u.dev = .optionLoad → u.boot.optDone = false →
    ∃ t, Machine.exec (.optionCommit dt bad corr) s = .next t ∧
      ({ u with boot := { u.boot with opts := o, optDone := true, optAt := u.now, optBad := bad.map fun (k : Fin 8) => k.val } }).sameBut t
        [0x1, 0x2, 0x12, 0x40, 0x50, 0x141, 0x142, 0x150] ∧
      t.g DEV_SERIAL_SERIAL = o.serial % 2 ^ 32 ∧ t.g DEV_REV_GRADE = o.grade % 2 ^ DEV_REV_GRADE.w ∧ t.gb DEV_BOOTSTAT_OPT_DEFAULT = o.dflt ∧
      t.g DEV_BOOTSTAT_OPT_CORR = min corr.toNat 7 ∧ t.g LNK_SPI_CFG_CHAIN_PERM = o.chainPerm % 2 ^ LNK_SPI_CFG_CHAIN_PERM.w ∧
      t.gb LNK_GR_CFG_AUTH = o.authKey.isSome ∧ t.g PWR_GOV_CFG_BUDGET = (if o.grade = 1 then 16000 else 24000)) ∧
  (∀ (s : State) (dt : Nat) (bad : Option (Fin 8)) (corr : BitVec 8),
    let u := s.tickTo dt
    (u.dev ≠ .optionLoad ∨ u.boot.optDone = true) → ∃ t, Machine.exec (.optionCommit dt bad corr) s = .next t ∧ u.sameBut t []) ∧
  (∀ (s : State) (dt : Nat),
    let u := s.tickTo dt
    u.dev = .optionLoad → u.boot.optDone = true →
    ∃ t, Machine.exec (.enterBoot dt) s = .next t ∧
      (((u.put CLK_STAT_PLL_LOCK 1).put CLK_STAT_XTAL_OK 1).putB LNK_SPI_STAT_MODE_ACT (u.g LNK_SPI_CFG_CHAIN_PERM = 2)).boots t u.boot.porCause) ∧
  (∀ (s : State) (dt : Nat),
    let u := s.tickTo dt
    u.dev = .optionLoad → u.boot.optDone = true → u.boot.optAt + 4000000 ≤ u.now →
    ∃ t, Machine.exec (.clockFailure dt) s = .next t ∧
      ({ u with free := u.free + 1, boot := { u.boot with optBad := none }, ecc := vupd u.ecc 1 fun _ => { EccSt.init with slotAt := u.now } }).recovers
        t 5 (0x1C0 :: bootWords) ∧
      t.gb CLK_STAT_RC_ONLY = true ∧ t.gb DEV_BOOTSTAT_CLK_FAIL = true ∧ t.g CLK_STAT_PLL_LOCK = u.g CLK_STAT_PLL_LOCK) ∧
  (∀ (s : State) (dt : Nat),
    let u := s.tickTo dt
    (u.dev ≠ .optionLoad ∨ u.boot.optDone = false) → ∃ t, Machine.exec (.enterBoot dt) s = .next t ∧ u.sameBut t []) ∧
  (∀ (s : State) (dt : Nat),
    let u := s.tickTo dt
    (u.dev ≠ .optionLoad ∨ u.boot.optDone = false ∨ u.now < u.boot.optAt + 4000000) → ∃ t, Machine.exec (.clockFailure dt) s = .next t ∧ u.sameBut t [])

/-- FIRMWARE_SELECT (R462), IMAGE_VALIDATE (R124, R434). -/
def Obligations.FirmwareAndImage : Prop :=
  (∀ (s : State) (dt : Nat),
    let u := s.tickTo dt
    let ok := fun (x : Fin 2) => u.nvm.fw[x].rd.fwValid u.boot.opts (u.g DEV_REV_REV)
    let pick := u.nvm.fwOrder.find? ok
    let bad := u.nvm.fwOrder.takeWhile fun x => !ok x
    let nvm : Nvm := { u.nvm with fw := Vector.ofFn fun (x : Fin 2) => if x ∈ bad then { u.nvm.fw[x] with state := 3 } else u.nvm.fw[x] }
    let wait := u.boot.fromCore && !u.flMay && !u.flOn
    u.dev = .boot → u.surveyorUp = true → u.boot.failRead = 0 →
    ∃ t, Machine.exec (.firmwareSelect dt) s = .next t ∧
      (pick = none → ({ u with nvm := nvm, boot := { u.boot with pulseEnd := t.boot.pulseEnd } }).recovers t 2 ((List.range 16).map (0x1000210 + ·))) ∧
      ∀ x ∈ pick,
        ({ u with
          dev := .configLoad, nvm := { nvm with
            lastFw := x.val, lastTrial := u.nvm.fw[x].state == 2, failcnt := if wait then 0 else u.nvm.failcnt },
          boot := { u.boot with
            fwRunning := true, stage := if u.boot.fromCore then 2 else 0, wdOn := u.boot.wdOn && !wait, pulseEnd := t.boot.pulseEnd } }).sameBut t
            ([0x3, 0x10, 0x12, 0x1000005] ++ (List.range 16).map (0x1000210 + ·)) ∧
        t.g DEV_BOOTSTAT_FW_SLOT = x.val ∧ t.g DEV_BOOTSTAT_FAILCNT = (if wait then 0 else u.g DEV_BOOTSTAT_FAILCNT) ∧
        t.gb DEV_STATE_WAIT_FL = (wait || u.gb DEV_STATE_WAIT_FL) ∧ t.gb MG_SV_STAT_FW = true) ∧
  (∀ (s : State) (dt : Nat),
    let u := s.tickTo dt
    (u.dev ≠ .boot ∨ u.surveyorUp = false) → ∃ t, Machine.exec (.firmwareSelect dt) s = .next t ∧ u.sameBut t []) ∧
  (∀ (s : State) (dt : Nat) (id : BitVec 24),
    let u := s.tickTo dt
    let pick := u.imgPick id.toNat
    u.dev = .configLoad → u.boot.stage = 0 → u.boot.fromCore = false → u.surveyorUp = true →
    ∃ t, Machine.exec (.imageValidate dt id) s = .next t ∧
      (pick = .noImage →
        ({ u with boot := { u.boot with flashId := id.toNat, imgOk := false, stage := 1 }, nvm := { u.nvm with lastImg := none } }).sameBut t [0x4, 0x12] ∧
        t.word 0x4 = 0 ∧       t.word 0x12 = (u.put DEV_BOOTSTAT_NO_IMAGE 1).word 0x12) ∧
      (pick = .invalid → ({ u with boot := { u.boot with flashId := id.toNat } }).recovers t 3 []) ∧
      ∀ x : Fin 2, pick = .slot x →
        t.now = u.now ∧ t.pending = u.pending ∧ t.dev = .configLoad ∧
        t.boot = { u.boot with flashId := id.toNat, imgOk := true, imgSlot := x, stage := 1 } ∧ t.nvm = { u.nvm with lastImg := some x.val } ∧
        t.otp = u.otp ∧ t.flash = u.flash ∧ t.axes = u.axes ∧ t.coils = u.coils ∧ t.cmds = u.cmds) ∧
  (∀ (s : State) (dt : Nat) (id : BitVec 24),
    let u := s.tickTo dt
    (u.dev ≠ .configLoad ∨ u.boot.stage ≠ 0 ∨ u.boot.fromCore = true ∨ u.surveyorUp = false) →
    ∃ t, Machine.exec (.imageValidate dt id) s = .next t ∧ u.sameBut t [])

/-- CONFIG_MONUMENT_READS, FULL_LOGIC_AVAILABLE, FULL_LOGIC_LOAD (R122, R123, R436). -/
def Obligations.ConfigLoad : Prop :=
  (∀ (s : State) (dt : Nat) (rd : Vector IdRead 8),
    let u := s.tickTo dt
    let wait := !u.flMay && !u.flOn
    u.dev = .configLoad → u.boot.stage = 1 → u.surveyorUp = true → u.boot.imgOk = false →
    (∀ n : Fin 8, ∀ b, rd[n] = .bytes b → recordCheck b ≠ 1) →
    ∃ t, Machine.exec (.configMonumentReads dt rd) s = .next t ∧
      ({ u with
        boot := { u.boot with stage := 2, wdOn := u.boot.wdOn && !wait, pulseEnd := t.boot.pulseEnd }, nvm := { u.nvm with failcnt := if wait then 0 else u.nvm.failcnt },
        axes := Vector.ofFn fun (n : Fin 8) => { u.axes[n] with mon := t.axes[n].mon } }).sameBut t
        ([0x10, 0x12, 0x1000402] ++ (List.range 8).map (0x1000408 + ·)) ∧
      (∀ n : Fin 8, t.g (MG_ID_AX_RESULT n) = match rd[n] with
        | .absent => 2
        | .busError => 3
        | .bytes b => recordCheck b) ∧
      (∀ n : Fin 8, rd[n] ≠ .absent → t.gBit MG_ID_PRES_PRESENT n = true) ∧
      t.gb DEV_STATE_WAIT_FL = (wait || u.gb DEV_STATE_WAIT_FL) ∧ (wait = true → t.g DEV_BOOTSTAT_FAILCNT = 0)) ∧
  (∀ (s : State) (dt : Nat) (rd : Vector IdRead 8),
    let u := s.tickTo dt
    u.dev = .configLoad → u.boot.stage = 1 → u.surveyorUp = true →
    ∃ t, Machine.exec (.configMonumentReads dt rd) s = .next t ∧
      t.now = u.now ∧ t.pending = u.pending ∧ t.dev = .configLoad ∧ t.boot.stage = 2 ∧ t.otp = u.otp ∧ t.flash = u.flash ∧ t.store = u.store ∧
      ∀ n : Fin 8, t.g (MG_ID_AX_RESULT n) = match rd[n] with
        | .absent => 2
        | .busError => 3
        | .bytes b => recordCheck b) ∧
  (∀ (s : State) (dt : Nat) (rd : Vector IdRead 8),
    let u := s.tickTo dt
    (u.dev ≠ .configLoad ∨ u.boot.stage ≠ 1 ∨ u.surveyorUp = false) → ∃ t, Machine.exec (.configMonumentReads dt rd) s = .next t ∧ u.sameBut t []) ∧
  (∀ (s : State) (dt : Nat),
    let u := s.tickTo dt
    ∃ t, Machine.exec (.fullLogicAvailable dt) s = .next t ∧
      (if u.dev = .configLoad ∧ u.gb DEV_STATE_WAIT_FL = true ∧ u.flMay = true then
        { u.put DEV_STATE_WAIT_FL 0 with boot := { u.boot with wdAt := u.now, wdOn := true } }
      else u).sameBut t []) ∧
  (∀ (s : State) (dt : Nat) (bad : Fin 3),
    let u := s.tickTo dt
    u.dev = .configLoad → u.boot.stage = 2 → u.gb DEV_STATE_WAIT_FL = false → u.surveyorUp = true → u.flMay = true → u.boot.fromCore = false →
    ∃ t, Machine.exec (.fullLogicLoad dt bad) s = .next t ∧
      (t.now = u.now ∧ t.pending = u.pending ∧ t.nvm = u.nvm ∧ t.otp = u.otp ∧ t.flash = u.flash ∧
      if bad = 2 ∧ u.boot.imgOk = true then t.dev = .recovery ∧ t.g DEV_BOOTSTAT_REC_CAUSE = 3 ∧ t.flOn = false
      else t.dev = .configLoad ∧ t.flOn = true ∧ t.gb PWR_STAT_FL_ON = (!u.flOn || u.gb PWR_STAT_FL_ON) ∧
        (u.flOn = false → t.boot = { u.boot with stage := 3, ceilFrozen := false } ∧ t.cmds = [] ∧ ∀ n : Fin 8, t.axes[n].st = .off))) ∧
  (∀ (s : State) (dt : Nat) (bad : Fin 3),
    let u := s.tickTo dt
    (u.dev ≠ .configLoad ∨ u.boot.stage ≠ 2 ∨ u.gb DEV_STATE_WAIT_FL = true ∨ u.surveyorUp = false ∨ (u.flMay = false ∧ u.flOn = false)) →
    ∃ t, Machine.exec (.fullLogicLoad dt bad) s = .next t ∧ u.sameBut t [])

/-- ENTER_READY and ENTER_RUN (R111, R125). -/
def Obligations.ReadyAndRun : Prop :=
  (∀ (s : State) (dt : Nat) (pins : BitVec 48),
    let u := s.tickTo dt
    u.dev = .configLoad → u.boot.stage = 3 → u.flOn = true →
    ∃ t, Machine.exec (.enterReady dt pins) s = .next t ∧
      ({ u with dev := .ready }).outlives t ∧ t.boot.cfgValid = true ∧ t.tick.on = true ∧ t.tick.mark = u.now ∧
      t.tick.no = u.tick.no + 1 ∧ t.tick.commitDue = true ∧ t.evPending 0 = true ∧
      (u.g DEV_STATE_SAFE_CAUSE ≠ 0 → t.dev = .safe)) ∧
  (∀ (s : State) (dt : Nat) (pins : BitVec 48),
    let u := s.tickTo dt
    (u.dev ≠ .configLoad ∨ u.boot.stage ≠ 3 ∨ u.flOn = false) → ∃ t, Machine.exec (.enterReady dt pins) s = .next t ∧ u.sameBut t []) ∧
  (∀ (s : State) (dt : Nat),
    let u := s.tickTo dt
    let x : Fin 2 := Fin.ofNat 2 u.nvm.lastFw
    u.dev = .ready → u.stations[0].sv.first = true → u.stations[1].sv.first = true → u.gb XCHK_STAT_LAST_OK = true →
    ∃ t, Machine.exec (.enterRun dt) s = .next t ∧
      ({ u with
        dev := .run, boot := { u.boot with wdOn := false, hostAt := u.now, pulseEnd := t.boot.pulseEnd }, surv := t.surv,
        nvm := { u.nvm with
          failcnt := 0, fw := vupd u.nvm.fw x (fun f => if f.state = 2 then { f with state := 1 } else f), imgTrial := t.nvm.imgTrial },
        ctxs := u.ctxs.map fun (c : Ctx) => if c.auto then { c with
          running := true, pc := c.entry % 4096, lc := Vector.replicate 4 0, trk := [], wait := .none, lastSt := 0, n := 0, hold := false } else c
        }).sameBut t ([0x12, MG_FB_STAT_LOST.a] ++ (List.range 16).map (0x1000210 + ·)) ∧
      t.g DEV_BOOTSTAT_FAILCNT = 0 ∧ t.g DEV_BOOTSTAT_BOOT_MS = min ((u.now - u.boot.relAt) / 400000) 65535 ∧
      (∀ y ∈ u.nvm.imgTrial, t.nvm.imgTrial = if u.boot.imgOk = true ∧ u.boot.imgSlot = y.1 then none else some y)) ∧
  (∀ (s : State) (dt : Nat),
    let u := s.tickTo dt
    (u.dev ≠ .ready ∨ u.stations[0].sv.first = false ∨ u.stations[1].sv.first = false ∨ u.gb XCHK_STAT_LAST_OK = false) →
    ∃ t, Machine.exec (.enterRun dt) s = .next t ∧ u.sameBut t [])

/-- BOOT_WATCHDOG_EXPIRY, SURVEYOR_WATCHDOG_EXPIRY, HOST_WATCHDOG_EXPIRY (R127, R130, R131). -/
def Obligations.Watchdogs : Prop :=
  (∀ (s : State) (dt : Nat),
    let u := s.tickTo dt
    u.boot.wdOn = true → (u.dev = .boot ∨ u.dev = .configLoad ∨ u.dev = .ready) → u.boot.wdAt + 800000000 ≤ u.now →
    ∃ t, Machine.exec (.bootWatchdogExpiry dt) s = .next t ∧ u.recovers t 4 [] ∧ t.evPending 3 = true) ∧
  (∀ (s : State) (dt : Nat),
    let u := s.tickTo dt
    (u.boot.wdOn = false ∨ (u.dev ≠ .boot ∧ u.dev ≠ .configLoad ∧ u.dev ≠ .ready) ∨ u.now < u.boot.wdAt + 800000000) →
    ∃ t, Machine.exec (.bootWatchdogExpiry dt) s = .next t ∧ u.sameBut t []) ∧
  (∀ (s : State) (dt : Nat),
    let u := s.tickTo dt
    u.boot.fwRunning = true → u.surveyorUp = true →
    ∃ t, Machine.exec (.surveyorWatchdogExpiry dt) s = .next t ∧
      u.quelled t [] ∧ t.gb MG_SV_STAT_HALTED = true ∧ t.gBit DEV_STATE_SAFE_CAUSE 5 = true ∧ t.evPending 3 = true ∧
      t.dev = (if u.dev = .ready ∨ u.dev = .run then .safe else u.dev)) ∧
  (∀ (s : State) (dt : Nat),
    let u := s.tickTo dt
    (u.boot.fwRunning = false ∨ u.surveyorUp = false) → ∃ t, Machine.exec (.surveyorWatchdogExpiry dt) s = .next t ∧ u.sameBut t []) ∧
  (∀ (s : State) (dt : Nat),
    let u := s.tickTo dt
    u.dev = .run → u.g DEV_WDOG_CFG_HOST_TO ≠ 0 → u.gb DEV_WDOG_CFG_EXPIRED = false →
    u.boot.hostAt + 400000 * u.g DEV_WDOG_CFG_HOST_TO ≤ u.now →
    ∃ t, Machine.exec (.hostWatchdogExpiry dt) s = .next t ∧
      (u.quelled t [0x14] ∧ t.word 0x14 = (u.put DEV_WDOG_CFG_EXPIRED 1).word 0x14 ∧ t.evPending 3 = true ∧
      if u.gb DEV_WDOG_CFG_HOST_ACT then
        t.dev = .run ∧ ∀ n : Fin 8,
          (u.gBit DEV_WDOG_CFG_AXMASK n = true → u.slowing n = true → t.axes[n].hwdog = true ∨ t.axes[n].st = .fault) ∧
          if u.gBit DEV_WDOG_CFG_AXMASK n = true ∧ (u.axes[n].st = .hold ∨ u.axes[n].st = .fault) then
            t.axes[n].st = .fault ∧ t.g (AX_FAULT_BITS n) = u.g (AX_FAULT_BITS n) ||| afHWDOG
          else t.g (AX_FAULT_BITS n) = u.g (AX_FAULT_BITS n)
      else t.dev = .safe ∧ t.gBit DEV_STATE_SAFE_CAUSE 6 = true)) ∧
  (∀ (s : State) (dt : Nat),
    let u := s.tickTo dt
    (u.dev ≠ .run ∨ u.g DEV_WDOG_CFG_HOST_TO = 0 ∨ u.gb DEV_WDOG_CFG_EXPIRED = true ∨
      u.now < u.boot.hostAt + 400000 * u.g DEV_WDOG_CFG_HOST_TO) →
    ∃ t, Machine.exec (.hostWatchdogExpiry dt) s = .next t ∧ u.sameBut t [])

/-- RESTART, CLR_FAILCNT, SAFE_EXIT, AXIS_RESET, AXIS_RESET_TIMEOUT, RING_RESET (R129 to R136). -/
def Obligations.BootControlAndBlockResets : Prop :=
  (∀ (s : State) (dt : Nat) (lk : Link),
    let u := (s.tickTo dt).hostBegin
    u.reaches 0x13 = true → (u.link lk).armed = true → u.dev = .recovery →
    ∃ t, Machine.exec (.restart dt lk) s = .next t ∧
      ({ u.unarm lk with boot := { u.boot with wdAt := u.now, wdOn := true, porCause := false, fromCore := false, reload := false } }).boots t false) ∧
  (∀ (s : State) (dt : Nat) (lk : Link),
    let u := (s.tickTo dt).hostBegin
    u.reaches 0x13 = true → (u.link lk).armed = true → u.dev ≠ .recovery → ∃ t, Machine.exec (.restart dt lk) s = .next t ∧ (u.unarm lk).sameBut t []) ∧
  (∀ (s : State) (dt : Nat) (lk : Link),
    let u := (s.tickTo dt).hostBegin
    u.reaches 0x13 = true → (u.link lk).armed = true →
    ∃ t, Machine.exec (.clrFailcnt dt lk) s = .next t ∧
      ({ (u.unarm lk).put DEV_BOOTSTAT_FAILCNT 0 with
        nvm := { u.nvm with failcnt := 0 }, boot := { u.boot with pulseEnd := u.now + 8000 } }).sameBut t []) ∧
  (∀ (s : State) (dt : Nat) (lk : Link),
    let u := (s.tickTo dt).hostBegin
    u.reaches 0x13 = true → (u.link lk).armed = true → u.dev = .safe →
    ∃ t, Machine.exec (.safeExit dt lk) s = .next t ∧
      (if u.g DEV_STATE_SAFE_CAUSE = 0 then
        t.dev = (if u.boot.fromReady then .ready else .run) ∧ t.boot = { u.boot with hostAt := u.now } ∧ t.level 1 0 = false ∧
        ({ u.unarm lk with dev := t.dev, boot := t.boot, power := t.power, axes := t.axes, stations := t.stations, surv := t.surv }).sameBut t
          ([0x140, 0x1000005, 0x1000020, 0x1000021, 0x1000022, 0x1000023] ++ (List.range 8).map (0x88E + 0x100 * ·))
      else (u.unarm lk).sameBut t [0x10] ∧ t.word 0x10 = (u.put DEV_STATE_EXIT_REFUSED (min (u.g DEV_STATE_EXIT_REFUSED + 1) 15)).word 0x10)) ∧
  (∀ (s : State) (dt : Nat) (lk : Link),
    let u := (s.tickTo dt).hostBegin
    u.reaches 0x13 = true → (u.link lk).armed = true → u.dev ≠ .safe → ∃ t, Machine.exec (.safeExit dt lk) s = .next t ∧ (u.unarm lk).sameBut t []) ∧
  (∀ (s : State) (dt : Nat) (lk : Link) (k : Fin 3),
    let u := (s.tickTo dt).hostBegin
    u.reaches 0x13 = true → (u.link lk).armed = false →
    ∃ t, Machine.exec (if k = 0 then .restart dt lk else if k = 1 then .clrFailcnt dt lk else .safeExit dt lk) s = .next t ∧
      u.sameBut t [0x23] ∧ u.keyCounted t lk) ∧
  (∀ (s : State) (dt : Nat) (lk : Link) (mask : BitVec 8),
    let u := (s.tickTo dt).hostBegin
    u.reaches 0x15 = true →
    ∃ t, Machine.exec (.axisReset dt lk mask) s = .next t ∧
      (let hit := fun (n : Fin 8) => mask.getLsbD n && !u.gBit DEV_BLKRST_STAT_BUSY n
      ({ u.unarm lk with axes := Vector.ofFn fun (n : Fin 8) => if hit n then { u.axes[n] with rst := .due } else u.axes[n] }).sameBut t [0x17] ∧
      (∀ n : Fin 8, t.gBit DEV_BLKRST_STAT_BUSY n = (u.gBit DEV_BLKRST_STAT_BUSY n || mask.getLsbD n) ∧
        t.gBit DEV_BLKRST_STAT_FORCED n = (u.gBit DEV_BLKRST_STAT_FORCED n && !hit n)) ∧
      t.g DEV_BLKRST_STAT_RING_REF = u.g DEV_BLKRST_STAT_RING_REF)) ∧
  (∀ (s : State) (dt : Nat) (n : Fin 8) (since : Nat),
    let u := s.tickTo dt
    u.axes[n].rst = .wait since → u.slowing n = true → since + 400000 * u.g DEV_BLKRST_CFG_QTO ≤ u.now →
    ∃ t, Machine.exec (.axisResetTimeout dt n) s = .next t ∧
      ({ u.putBit DEV_BLKRST_STAT_FORCED n true with
        coils := vupd (vupd u.coils (coilA n) Coil.release) (coilB n) Coil.release,
        axes := vupd u.axes n fun a => { a with rst := .finish } }).sameBut t []) ∧
  (∀ (s : State) (dt : Nat) (n : Fin 8),
    let u := s.tickTo dt
    (u.slowing n = false ∨ ∀ since, u.axes[n].rst = .wait since → u.now < since + 400000 * u.g DEV_BLKRST_CFG_QTO) →
    ∃ t, Machine.exec (.axisResetTimeout dt n) s = .next t ∧ u.sameBut t []) ∧
  (∀ (s : State) (dt : Nat) (lk : Link) (mask : BitVec 16),
    let u := (s.tickTo dt).hostBegin
    u.reaches 0x15 = true →
    ∃ t, Machine.exec (.ringReset dt lk mask) s = .next t ∧
      ({ u.unarm lk with tick := { u.tick with rst := u.tick.rst ||| mask.toNat } }).sameBut t [])

/-- REGISTER_WRITE of the registers whose write sets nothing off beside their fields (R144 to R153). The clamps that the tables name
are the model's `clampVal` (log entry 30); writes to a block in reset are ignored (log entry 48). -/
def Obligations.PlainRegisterWrite : Prop :=
  (∀ (s : State) (dt : Nat) (lk : Link) (addr : BitVec 16) (data : Word),
    let u := (s.tickTo dt).hostBegin
    let a := addr.toNat
    let key := (u.link lk).armed
    u.reaches a = true → quietAddr a = true →
    ∃ t, Machine.exec (.registerWrite dt lk addr data) s = .next t ∧
      ({ u.unarm lk with staged := t.staged, coils := t.coils }).sameBut t [a, 0x23] ∧
      (∀ r ∈ layout a, bits (t.word a).toNat r.lo r.w = match r.acc with
        | .rw => u.clampVal a r.lo (rowOf r data) % 2 ^ r.w
        | .rwk => if key then u.clampVal a r.lo (rowOf r data) % 2 ^ r.w else rowOf r (u.word a)
        | .rwm => rowOf r (u.word a) &&& (65535 - bits data.toNat 16 16) ||| rowOf r data &&& bits data.toNat 16 16
        | .rwb | .ro | .rs | .wp => rowOf r (u.word a)) ∧
      (∀ r ∈ layout a, bits (t.stagedWord a).toNat r.lo r.w = if r.acc = .rwb then rowOf r data else bits (u.stagedWord a).toNat r.lo r.w) ∧
      (if (layout a).any (fun r => r.acc == .rwk) then u.keyCounted t lk else t.word 0x23 = u.word 0x23) ∧
      ∀ c : Fin 16, t.coils[c] = { u.coils[c] with
        perW := u.coils[c].perW || decide (a = (CO_PWM_PER_PERIOD c).a), cmpW := u.coils[c].cmpW || decide (a = (CO_PWM_CMP_CMP c).a) }) ∧
  (∀ (s : State) (dt : Nat) (lk : Link) (addr : BitVec 16) (data : Word),
    let u := (s.tickTo dt).hostBegin
    addr ≠ 0x20 → u.answers = true → u.reaches addr.toNat = false →
    ∃ t, Machine.exec (.registerWrite dt lk addr data) s = .next t ∧ (u.unarm lk).sameBut t []) ∧
  (∀ (s : State) (dt : Nat) (lk : Link) (addr : BitVec 16) (data : Word),
    let u := (s.tickTo dt).hostBegin
    u.answers = false → ∃ t, Machine.exec (.registerWrite dt lk addr data) s = .next t ∧ u.sameBut t [])

/-- UNLOCK (R149). -/
def Obligations.UnlockArmsOneWrite : Prop :=
  (∀ (s : State) (dt : Nat) (lk : Link) (key : Word) (row : Bool),
    let u := (s.tickTo dt).hostBegin
    u.answers = true →
    ∃ t, Machine.exec (if row then .unlock dt lk key else .registerWrite dt lk 0x20 key) s = .next t ∧
      ({ u with links := vupd u.links (lix lk) fun k => { k with armed := decide (key = 0x5A3C) } }).sameBut t [] ∧
      (t.link lk).armed = decide (key = 0x5A3C) ∧ ∀ x : Link, x ≠ lk → (t.link x).armed = (u.link x).armed) ∧
  (∀ (s : State) (lk : Link),
    s.served 0x23 = true →
    bit (s.view lk 0x23).toNat 24 = (s.link .spi).armed ∧ bit (s.view lk 0x23).toNat 25 = (s.link .gr).armed) ∧
  (∀ (s : State) (dt : Nat) (lk : Link) (key : Word) (row : Bool),
    let u := (s.tickTo dt).hostBegin
    u.answers = false →
    ∃ t, Machine.exec (if row then .unlock dt lk key else .registerWrite dt lk 0x20 key) s = .next t ∧ u.sameBut t [])

/-- UPDATE_STROBE (R154 to R157). -/
def Obligations.StrobeTakesASnapshot : Prop :=
  (∀ (s : State) (dt : Nat) (lk : Link) (data : Word),
    let u := (s.tickTo dt).hostBegin
    let on := fun (g : Fin 11) => data.getLsbD g && (g == 10 || u.flOn)
    u.reaches 0x21 = true → bits data.toNat 0 11 ≠ 0 → u.dev ≠ .recovery →
    ∃ t, Machine.exec (.updateStrobe dt lk data) s = .next t ∧
      ({ u.unarm lk with groups := t.groups, coils := t.coils }).sameBut t [0x22] ∧
      t.g DEV_UPDATE_STAT_STROBES = (u.g DEV_UPDATE_STAT_STROBES + 1) % 256 ∧
      (∀ g : Fin 11, t.groups[g] = if on g then { pend := some (u.staged.filter fun e => groupOf e.1 == g), at_ := u.now } else u.groups[g]) ∧
      ∀ c : Fin 16,
        if on ⟨c.val / 2, by omega⟩ then
          t.coils[c] = { u.coils[c] with pend := t.coils[c].pend, perW := false, cmpW := false } ∧
          ∃ p ∈ t.coils[c].pend, p.at_ = u.now ∧ p.per = u.stagedWord (CO_PWM_PER_PERIOD c).a ∧ p.cmp = u.stagedWord (CO_PWM_CMP_CMP c).a ∧
            p.cfg = u.stagedWord (CO_PWM_CFG_DT c).a
        else t.coils[c] = u.coils[c]) ∧
  (∀ (s : State) (dt : Nat) (lk : Link) (data : Word),
    let u := (s.tickTo dt).hostBegin
    u.reaches 0x21 = true → (bits data.toNat 0 11 = 0 ∨ u.dev = .recovery) →
    ∃ t, Machine.exec (.updateStrobe dt lk data) s = .next t ∧ (u.unarm lk).sameBut t [])

/-- IND_ADDR_WRITE, IND_PREFETCH_DONE, IND_DATA_READ, IND_DATA_WRITE, IND_WRITE_APPLY (R160 to R165). -/
def Obligations.IndirectAccess : Prop :=
  (∀ (s : State) (dt : Nat) (lk : Link) (data : Word),
    let u := (s.tickTo dt).hostBegin
    let a := bits data.toNat 0 24
    let bad := (indLast a).isNone
    u.reaches 0x24 = true →
    ∃ t, Machine.exec (.indAddrWrite dt lk data) s = .next t ∧
      (let wait := !bad && u.indAnswers a
      ({ u with links := vupd u.links (lix lk) fun k => { k with
        armed := false, ptr := a, inc := data.getLsbD 24, pastEnd := false, err := bad, bad := bad, line := none, rbusy := wait,
        pfAt := if wait then u.now else k.pfAt } }).sameBut t [])) ∧
  (∀ (s : State) (dt : Nat) (lk : Link),
    let u := s.tickTo dt
    let k := u.link lk
    ∃ t, Machine.exec (.indPrefetchDone dt lk) s = .next t ∧
      (if k.rbusy = true ∧ u.fbLocked k.ptr = false then
        { u with links := vupd u.links (lix lk) fun k => { k with rbusy := false, line := if 0x10000 ≤ k.ptr then some (k.ptr / 8) else none } }
      else u).sameBut t []) ∧
  (∀ (s : State) (dt : Nat) (lk : Link),
    let u := s.tickTo dt
    let k := u.link lk
    u.answers = true → u.indReady lk = true → k.bad = false → u.indAnswers k.ptr = true → k.pastEnd = false →
    ∃ t, Machine.exec (.indDataRead dt lk) s = .next t ∧
      ({ u with links := vupd u.links (lix lk) fun _ => { k with
        rbusy := (t.link lk).rbusy, pfAt := (t.link lk).pfAt, line := (t.link lk).line,
        pastEnd := k.inc && decide (indLast k.ptr = some k.ptr),
        ptr := if k.inc = true ∧ indLast k.ptr ≠ some k.ptr then k.ptr + 1 else k.ptr } }).sameBut t []) ∧
  (∀ (s : State) (dt : Nat) (lk : Link),
    let u := s.tickTo dt
    let k := u.link lk
    u.answers = true → (k.bad = true ∨ k.pastEnd = true ∨ u.indAnswers k.ptr = false) →
    ∃ t, Machine.exec (.indDataRead dt lk) s = .next t ∧
      (if k.bad then u.sameBut t []
      else if u.indAnswers k.ptr = false then ({ u with links := vupd u.links (lix lk) fun k => { k with err := true } }).sameBut t []
      else (u.put DEV_ACCSTAT_PASTEND (min (u.g DEV_ACCSTAT_PASTEND + 1) 255)).sameBut t [])) ∧
  (∀ (s : State) (dt : Nat) (lk : Link),
    let u := s.tickTo dt
    (u.answers = false ∨ u.indReady lk = false) → ∃ t, Machine.exec (.indDataRead dt lk) s = .next t ∧ u.sameBut t []) ∧
  (∀ (s : State) (dt : Nat) (lk : Link) (data : Word),
    let u := (s.tickTo dt).hostBegin
    let k := u.link lk
    let refused := k.ptr == 0x100 && !k.armed
    let q : IndWrite := { lk := lk, addr := k.ptr, data := data, key := k.armed, hseq := k.perfHseq }
    u.reaches 0x25 = true → k.bad = false → u.indAnswers k.ptr = true → k.pastEnd = false → u.indQ.length < 4 →
    ∃ t, Machine.exec (.indDataWrite dt lk data) s = .next t ∧
      ({ u with
        indQ := if refused then u.indQ else u.indQ ++ [q],
        links := vupd u.links (lix lk) fun _ => { k with
          armed := false, rbusy := (t.link lk).rbusy, pfAt := (t.link lk).pfAt, line := (t.link lk).line,
          pastEnd := k.inc && decide (indLast k.ptr = some k.ptr),
          ptr := if k.inc = true ∧ indLast k.ptr ≠ some k.ptr then k.ptr + 1 else k.ptr } }).sameBut t [0x23] ∧
      t.word 0x23 = (if refused then u.put DEV_ACCSTAT_KEY_REF (min (u.g DEV_ACCSTAT_KEY_REF + 1) 255) else u).word 0x23) ∧
  (∀ (s : State) (dt : Nat) (lk : Link) (data : Word),
    let u := (s.tickTo dt).hostBegin
    let k := u.link lk
    u.reaches 0x25 = true → (k.bad = true ∨ k.pastEnd = true ∨ u.indAnswers k.ptr = false ∨ 4 ≤ u.indQ.length) →
    ∃ t, Machine.exec (.indDataWrite dt lk data) s = .next t ∧
      (if k.bad then (u.unarm lk).sameBut t []
      else if u.indAnswers k.ptr = false then ({ u with links := vupd u.links (lix lk) fun k => { k with armed := false, err := true } }).sameBut t []
      else if k.pastEnd then ((u.unarm lk).put DEV_ACCSTAT_PASTEND (min (u.g DEV_ACCSTAT_PASTEND + 1) 255)).sameBut t []
      else ((u.unarm lk).put DEV_ACCSTAT_IND_OVF (min (u.g DEV_ACCSTAT_IND_OVF + 1) 255)).sameBut t [])) ∧
  (∀ (s : State) (dt : Nat) (q : IndWrite) (l : List IndWrite),
    let u := s.tickTo dt
    u.indQ = q :: l → (0x500 ≤ q.addr) →
    ∃ t, Machine.exec (.indWriteApply dt) s = .next t ∧
      (if 0x4000 ≤ q.addr ∧ q.addr < 0x4400 then
        { u with indQ := l, links := t.links, window := kvSet u.window (q.addr - 0x4000) q.data 0 }
      else { u with indQ := l, links := t.links }).sameBut t [] ∧
      ∀ lk : Link, (t.link lk).ptr = (u.link lk).ptr ∧ (t.link lk).armed = (u.link lk).armed ∧
        (t.link lk).err = ((u.link lk).err || (decide (lk = q.lk) && !(decide (0x4000 ≤ q.addr) && decide (q.addr < 0x4400))))) ∧
  (∀ (s : State) (dt : Nat) (q : IndWrite) (l : List IndWrite),
    let u := s.tickTo dt
    let a := 0x1000000 + q.addr
    u.indQ = q :: l → q.addr < 0x500 → q.addr ∉ [0x008, 0x012, 0x021, 0x100, 0x200, 0x401] →
    ∃ t, Machine.exec (.indWriteApply dt) s = .next t ∧
      ({ u with indQ := l, links := t.links }).sameBut t [a] ∧
      (∀ lk : Link, (t.link lk).ptr = (u.link lk).ptr) ∧
      ∀ r ∈ layout a, bits (t.word a).toNat r.lo r.w = if r.acc = .rw ∨ (r.acc = .rwk ∧ q.key = true) then rowOf r q.data else rowOf r (u.word a)) ∧
  (∀ (s : State) (dt : Nat),
    let u := s.tickTo dt
    u.indQ = [] → ∃ t, Machine.exec (.indWriteApply dt) s = .next t ∧ u.sameBut t [])

/-- MAILBOX_REQUEST and MAILBOX_LAST_WORD_READ (R166 to R170). -/
def Obligations.Mailboxes : Prop :=
  (∀ (s : State) (dt : Nat) (lk : Link) (m : Fin 8) (data : Word),
    let u := (s.tickTo dt).hostBegin
    let item := bits data.toNat 0 8
    let idx := bits data.toNat 8 4
    let mode := data.getLsbD 12
    let base := (u.unarm lk)
    u.reaches (0x200 + 16 * m.val) = true → data.getLsbD 16 = true →
    ∃ t, Machine.exec (.mailboxRequest dt lk m data) s = .next t ∧
      ({ base with mbox := t.mbox }).sameBut t ((List.range 10).map (0x200 + 16 * m.val + ·)) ∧
      (∀ k : Fin 8, k ≠ m → t.mbox[k] = u.mbox[k]) ∧ t.mbox[m].pend = none ∧
      t.g (MB_REQ_ITEM m) = item ∧ t.g (MB_REQ_INDEX m) = idx ∧ t.gb (MB_REQ_MODE m) = mode ∧
      (if item = 1 ∧ mode = false then
        t.gb (MB_STAT_VALID m) = true ∧ t.g (MB_STAT_LEN m) = 2 ∧ t.g (MB_D_DATA m 0) = u.now % 2 ^ 32 ∧
        t.g (MB_D_DATA m 1) = u.now / 2 ^ 32 % 2 ^ 32 ∧ t.g (MB_STAT_DNUM m) = (u.g (MB_STAT_DNUM m) + 1) % 256 ∧ t.mbox[m].req = none
      else
        t.gb (MB_STAT_VALID m) = false ∧ t.g (MB_STAT_LEN m) = 0 ∧ t.g (MB_D_DATA m 0) = 0 ∧
        t.gb (MB_STAT_BADREQ m) = (decide (item ≠ 0) && u.mbBad item idx mode) ∧
        t.mbox[m].req = if item ≠ 0 ∧ u.mbBad item idx mode = false ∧ mode = false then some u.now else none)) ∧
  (∀ (s : State) (dt : Nat) (lk : Link) (m : Fin 8) (data : Word),
    let u := (s.tickTo dt).hostBegin
    u.reaches (0x200 + 16 * m.val) = true → data.getLsbD 16 = false → bits data.toNat 0 13 = (u.word (MB_REQ_ITEM m).a).toNat % 2 ^ 13 →
    ∃ t, Machine.exec (.mailboxRequest dt lk m data) s = .next t ∧ (u.unarm lk).sameBut t []) ∧
  (∀ (s : State) (dt : Nat) (lk : Link) (m : Fin 8),
    let u := s.tickTo dt
    u.answers = true → u.served (MB_D_DATA m 0).a = true → u.gb (MB_STAT_VALID m) = true → 1 ≤ u.g (MB_STAT_LEN m) → u.g (MB_STAT_LEN m) ≤ 8 →
    ∃ t, Machine.exec (.mailboxLastWordRead dt lk m) s = .next t ∧
      (u.mbox[m].pend = none → ((u.put (MB_STAT_VALID m) 0).put (MB_STAT_STALE m) 1).sameBut t []) ∧
      ∀ ws ∈ u.mbox[m].pend,
        ({ u with mbox := vupd u.mbox m fun b => { b with pend := none } }).sameBut t ((List.range 9).map (0x201 + 16 * m.val + ·)) ∧
        t.gb (MB_STAT_VALID m) = true ∧ t.gb (MB_STAT_STALE m) = false ∧ t.gb (MB_STAT_PEND m) = false ∧ t.g (MB_STAT_LEN m) = ws.length % 16 ∧
        t.g (MB_STAT_DNUM m) = (u.g (MB_STAT_DNUM m) + 1) % 256 ∧ ∀ k : Fin 8, t.g (MB_D_DATA m k) = ws.getD k 0 % 2 ^ 32) ∧
  (∀ (s : State) (dt : Nat) (lk : Link) (m : Fin 8),
    let u := s.tickTo dt
    (u.answers = false ∨ u.gb (MB_STAT_VALID m) = false ∨ u.g (MB_STAT_LEN m) = 0) →
    ∃ t, Machine.exec (.mailboxLastWordRead dt lk m) s = .next t ∧ u.sameBut t [])

/-- CITEN_NOP, CITEN_READ, CITEN_WRITE, CITEN_BAD_OP (R173 to R191). That a frame is performed at the rising edge of HCS_N is the
model's choice of tPERF (DESIGN CHOICE in the log). -/
def Obligations.CitenFrames : Prop :=
  (∀ (s : State) (dt : Nat) (f : Frame),
    let u := (s.tickTo dt).hostBegin
    let k := u.link .spi
    u.citenOpen = true → u.turnFree .spi = true → f.edges = 96 → f.flags.toNat / 2 = 0 →
    crc16 (frameBytes f 0) = f.crc.toNat → (∀ e ∈ k.expAlive, e = f.alive.toNat) →
    ∃ t, Machine.exec (.citenNop dt f) s = .next t ∧
      ({ u with boot := { u.boot with hostAt := u.now }, arb := { u.arb with lastLink := .spi }, links := vupd u.links (lix .spi) fun k => { k with
        expAlive := some ((f.alive.toNat + 1) % 16), accAny := true, accHseq := f.hseq.toNat, perfHseq := f.hseq.toNat, held := none,
        dseq := (k.dseq + 1) % 65536, last := (t.link .spi).last, edge := none } }).sameBut t [0x10, 0x14, 0x41] ∧
      (t.link .spi).last = { status := b2n t.alert, dseq := (k.dseq + 1) % 65536, echo := f.hseq.toNat, data := (t.link .spi).last.data, evsum := t.evsum } ∧
      (dt ≠ 0 → (t.link .spi).last.data = t.devState) ∧
      t.gb LNK_SPI_STAT_SELECTED = false ∧ t.gb DEV_WDOG_CFG_EXPIRED = false ∧
      t.g LNK_SPI_STAT_HSEQ_GAP = (if k.accAny = true ∧ f.hseq.toNat ≠ (k.accHseq + 1) % 65536 then min (u.g LNK_SPI_STAT_HSEQ_GAP + 1) 255
        else u.g LNK_SPI_STAT_HSEQ_GAP) ∧
      t.gBit DEV_STATE_SAFE_CAUSE 6 = (u.gBit DEV_STATE_SAFE_CAUSE 6 && !u.gb DEV_WDOG_CFG_EXPIRED)) ∧
  (∀ (s : State) (dt : Nat) (f : Frame),
    let u := (s.tickTo dt).hostBegin
    let k := u.link .spi
    u.citenOpen = true → u.turnFree .spi = true → f.edges = 96 → f.flags.toNat / 2 = 0 →
    crc16 (frameBytes f 1) = f.crc.toNat → (∀ e ∈ k.expAlive, e = f.alive.toNat) → 0x280 ≤ f.addr.toNat →
    ∃ t, Machine.exec (.citenRead dt f) s = .next t ∧
      ({ u with boot := { u.boot with hostAt := u.now }, arb := { u.arb with lastLink := .spi }, links := vupd u.links (lix .spi) fun k => { k with
        expAlive := some ((f.alive.toNat + 1) % 16), accAny := true, accHseq := f.hseq.toNat, perfHseq := f.hseq.toNat, held := none,
        dseq := (k.dseq + 1) % 65536, last := (t.link .spi).last, edge := none } }).sameBut t [0x10, 0x14, 0x41] ∧
      (t.link .spi).last = { status := b2n t.alert, dseq := (k.dseq + 1) % 65536, echo := f.hseq.toNat, data := (u.atStart.view .spi f.addr.toNat).toNat, evsum := t.evsum }) ∧
  (∀ (s : State) (dt : Nat) (f : Frame),
    let u := (s.tickTo dt).hostBegin
    let k := u.link .spi
    let a := f.addr.toNat
    u.citenOpen = true → u.turnFree .spi = true → f.edges = 96 → f.flags.toNat / 2 = 0 →
    crc16 (frameBytes f 2) = f.crc.toNat → (∀ e ∈ k.expAlive, e = f.alive.toNat) → quietAddr a = true → a ≠ 0x14 →
    ∃ t, Machine.exec (.citenWrite dt f) s = .next t ∧
      (∃ v, Machine.exec (.registerWrite dt .spi f.addr f.data) s = .next v ∧
        ({ v with boot := { v.boot with hostAt := u.now }, arb := { v.arb with lastLink := .spi }, links := t.links }).sameBut t [0x10, 0x14, 0x41] ∧
        (t.link .spi).last.data = (if f.flags = 1 then (u.atStart.view .spi a).toNat else (v.view .spi a).toNat) ∧
        (t.link .spi).last.status = b2n t.alert + (if u.reaches a = true ∧ hasKeyed a = true ∧ k.armed = false then 2 else 0)) ∧
      t.links = vupd u.links (lix .spi) (fun k => { k with
        armed := false, expAlive := some ((f.alive.toNat + 1) % 16), accAny := true, accHseq := f.hseq.toNat, perfHseq := f.hseq.toNat,
        wrHseq := f.hseq.toNat, wrAddr := a, held := none, dseq := (k.dseq + 1) % 65536, last := (t.link .spi).last, edge := none }) ∧
      (t.link .spi).last.echo = f.hseq.toNat) ∧
  (∀ (s : State) (dt : Nat) (op : BitVec 4) (f : Frame),
    let u := s.tickTo dt
    let k := u.link .spi
    u.citenOpen = true → f.edges = 96 → (3 ≤ op.toNat ∨ f.flags.toNat / 2 ≠ 0) →
    crc16 (frameBytes f op.toNat) = f.crc.toNat → (∀ e ∈ k.expAlive, e = f.alive.toNat) →
    ∃ t, Machine.exec (.citenBadOp dt op f) s = .next t ∧
      ({ u with boot := { u.boot with hostAt := u.now }, links := vupd u.links (lix .spi) fun k => { k with
        expAlive := some ((f.alive.toNat + 1) % 16), accAny := true, accHseq := f.hseq.toNat,
        dseq := (k.dseq + 1) % 65536, last := (t.link .spi).last, edge := none } }).sameBut t [0x10, 0x14, 0x41] ∧
      (t.link .spi).last = { status := 8 + b2n t.alert, dseq := (k.dseq + 1) % 65536, echo := f.hseq.toNat, data := 0, evsum := t.evsum }) ∧
  (∀ (s : State) (dt : Nat) (op : Fin 3) (f : Frame),
    let u := s.tickTo dt
    let k := u.link .spi
    u.citenOpen = true → f.edges = 96 → crc16 (frameBytes f op.val) ≠ f.crc.toNat →
    ∃ t, Machine.exec (if op = 0 then .citenNop dt f else if op = 1 then .citenRead dt f else .citenWrite dt f) s = .next t ∧
      ({ (u.put LNK_SPI_CNT_CRC_ERR (min (u.g LNK_SPI_CNT_CRC_ERR + 1) 255)).put LNK_SPI_STAT_SELECTED 0 with
        links := vupd u.links (lix .spi) fun k => { k with
          expAlive := some ((k.expAlive.getD 0 + 1) % 16), dseq := (k.dseq + 1) % 65536, last := (t.link .spi).last, edge := none } }).sameBut t [] ∧
      (t.link .spi).last.status = 64 + b2n t.alert ∧ (t.link .spi).last.echo = k.accHseq % 65536) ∧
  (∀ (s : State) (dt : Nat) (op : Fin 3) (f : Frame) (e : Nat),
    let u := s.tickTo dt
    let k := u.link .spi
    u.citenOpen = true → f.edges = 96 → crc16 (frameBytes f op.val) = f.crc.toNat →
    k.expAlive = some e → e ≠ f.alive.toNat →
    ∃ t, Machine.exec (if op = 0 then .citenNop dt f else if op = 1 then .citenRead dt f else .citenWrite dt f) s = .next t ∧
      ({ (u.put LNK_SPI_CNT_ALIVE_ERR (min (u.g LNK_SPI_CNT_ALIVE_ERR + 1) 255)).put LNK_SPI_STAT_SELECTED 0 with
        links := vupd u.links (lix .spi) fun k => { k with
          expAlive := some ((f.alive.toNat + 1) % 16), dseq := (k.dseq + 1) % 65536, last := (t.link .spi).last, edge := none } }).sameBut t [] ∧
      (t.link .spi).last.status = 80 + b2n t.alert ∧ (t.link .spi).last.echo = k.accHseq % 65536) ∧
  (∀ (s : State) (dt : Nat) (op : Fin 3) (f : Frame),
    let u := s.tickTo dt
    let k := u.link .spi
    u.citenOpen = true → f.edges ≠ 96 → f.edges ≠ 0 →
    ∃ t, Machine.exec (if op = 0 then .citenNop dt f else if op = 1 then .citenRead dt f else .citenWrite dt f) s = .next t ∧
      ({ (u.put LNK_SPI_CNT_LEN_ERR (min (u.g LNK_SPI_CNT_LEN_ERR + 1) 255)).put LNK_SPI_STAT_SELECTED 0 with
        links := vupd u.links (lix .spi) fun k => { k with
          expAlive := some ((k.expAlive.getD 0 + 1) % 16), dseq := (k.dseq + 1) % 65536, last := (t.link .spi).last, edge := none } }).sameBut t [] ∧
      (t.link .spi).last.status = 96 + b2n t.alert ∧ (t.link .spi).last.echo = k.accHseq % 65536) ∧
  (∀ (s : State) (dt : Nat) (op : BitVec 4) (f : Frame),
    let u := s.tickTo dt
    let k := u.link .spi
    u.answers = true → f.edges = 0 →
    ∃ t, Machine.exec (.citenBadOp dt op f) s = .next t ∧
      (k.edge = none → (u.put LNK_SPI_STAT_SELECTED 0).sameBut t []) ∧
      ∀ e ∈ k.edge,
        ({ u.put LNK_SPI_STAT_SELECTED 0 with links := vupd u.links (lix .spi) fun k => { k with
          rstDue := e.rstDue, dseq := e.dseq, last := e.last, out := e.out, held := e.held, edge := none } }).sameBut t [0x42] ∧
        t.word 0x42 = (if u.g LNK_SPI_CNT_UNDERRUN = e.under + 1 then u.put LNK_SPI_CNT_UNDERRUN e.under else u).word 0x42) ∧
  (∀ (s : State) (dt : Nat) (op : Fin 4) (f : Frame),
    let u := s.tickTo dt
    u.answers = false →
    ∃ t, Machine.exec (if op = 0 then .citenNop dt f else if op = 1 then .citenRead dt f else if op = 2 then .citenWrite dt f else .citenBadOp dt 3 f) s = .next t ∧ u.sameBut t []) ∧
  (∀ (s : State) (dt : Nat) (op : Fin 3) (f : Frame),
    let u := s.tickTo dt
    let c := fun (d : Nat) => if op = 0 then Instr.citenNop d f else if op = 1 then .citenRead d f else .citenWrite d f
    u.answers = true → u.gb LNK_SPI_STAT_SELECTED = false → f.edges ≠ 0 →
    ∃ v, Machine.exec (.frameStart dt (u.gb LNK_SPI_STAT_CPHA_MODE3)) s = .next v ∧ exec (c dt) s = exec (c 0) v) ∧
  (∀ (s : State) (dt : Nat) (op : Fin 2) (f : Frame) (h : HeldFrame),
    let u := s.tickTo dt
    u.citenOpen = true → f.edges = 96 → f.flags.toNat / 2 = 0 → crc16 (frameBytes f (2 * op.val)) = f.crc.toNat →
    (∀ e ∈ (u.link .spi).expAlive, e = f.alive.toNat) → u.turnFree .spi = false → (u.link .gr).held = some h → h.op = 1 →
    ∃ t, Machine.exec (if op = 0 then .citenNop dt f else .citenWrite dt f) s = .next t ∧
      t.now = u.now ∧ (t.link .gr).held = none ∧ (t.link .gr).perfHseq = h.hseq ∧ (t.link .spi).perfHseq = f.hseq.toNat ∧
      (t.link .spi).last.echo = f.hseq.toNat ∧ (t.link .spi).expAlive = some ((f.alive.toNat + 1) % 16))

/-- FRAME_START, a held READ, FRAME_DEFERRED_PERFORM (R173, R184, R185, R187). -/
def Obligations.FrameStartAndHeldFrames : Prop :=
  (∀ (s : State) (dt : Nat) (mode3 : Bool),
    let u := s.tickTo dt
    let k := u.link .spi
    u.answers = true → k.rstDue = false →
    ∃ t, Machine.exec (.frameStart dt mode3) s = .next t ∧
      ({ u with links := vupd u.links (lix .spi) fun k => { k with
        held := none, out := some (if k.held.isSome then k.last.again else k.last), chain := t.chainOn,
        edge := some { rstDue := false, dseq := k.dseq, last := k.last, out := k.out, held := k.held, under := u.g LNK_SPI_CNT_UNDERRUN } } }).sameBut t [0x41, 0x42] ∧
      t.gb LNK_SPI_STAT_SELECTED = true ∧ t.gb LNK_SPI_STAT_CPHA_MODE3 = mode3 ∧ t.g LNK_SPI_STAT_HSEQ_GAP = u.g LNK_SPI_STAT_HSEQ_GAP ∧
      t.chainOn = (if u.g LNK_SPI_CFG_CHAIN_PERM = 1 then u.chainMode else u.chainOn) ∧
      t.word 0x42 = (if k.held.isSome then u.put LNK_SPI_CNT_UNDERRUN (min (u.g LNK_SPI_CNT_UNDERRUN + 1) 255) else u).word 0x42) ∧
  (∀ (s : State) (dt : Nat) (mode3 : Bool),
    let u := s.tickTo dt
    u.answers = true → (u.link .spi).rstDue = true →
    ∃ t, Machine.exec (.frameStart dt mode3) s = .next t ∧
      ({ u with links := vupd u.links (lix .spi) fun k => { k with
        rstDue := false, dseq := 0, held := none, last := (t.link .spi).last, out := some (t.link .spi).last,
        chain := t.chainOn, edge := (t.link .spi).edge } }).sameBut t [0x41] ∧
      (t.link .spi).last.status = 10 + b2n t.alert ∧ (t.link .spi).last.dseq = 0 ∧ (t.link .spi).last.echo = 0 ∧
      (t.link .spi).last.data = (t.word 0x11).toNat) ∧
  (∀ (s : State) (dt : Nat) (mode3 : Bool),
    let u := s.tickTo dt
    u.answers = false → ∃ t, Machine.exec (.frameStart dt mode3) s = .next t ∧ u.sameBut t []) ∧
  (∀ (s : State) (dt : Nat) (f : Frame),
    let u := s.tickTo dt
    let k := u.link .spi
    u.citenOpen = true → f.edges = 96 → f.flags.toNat / 2 = 0 →
    crc16 (frameBytes f 1) = f.crc.toNat → (∀ e ∈ k.expAlive, e = f.alive.toNat) → f.addr = 0x25 → u.indReady .spi = false →
    ∃ t, Machine.exec (.citenRead dt f) s = .next t ∧
      (let h : HeldFrame := { op := 1, hseq := f.hseq.toNat, addr := 0x25, data := f.data.toNat, flags := f.flags.toNat }
      ({ u with boot := { u.boot with hostAt := u.now }, links := vupd u.links (lix .spi) fun k => { k with
        expAlive := some ((f.alive.toNat + 1) % 16), accAny := true, accHseq := f.hseq.toNat, held := some h, edge := none } }).sameBut t [0x10, 0x14, 0x41])) ∧
  (∀ (s : State) (dt : Nat) (h : HeldFrame),
    let u := (s.tickTo dt).hostBegin
    let k := u.link .spi
    u.answers = true → u.turnFree .spi = true → k.held = some h → h.op = 1 → h.addr = 0x25 → h.hseq < 65536 → u.indReady .spi = true → k.bad = false → k.pastEnd = false →
    u.indAnswers k.ptr = true →
    ∃ t, Machine.exec (.frameDeferredPerform dt .spi) s = .next t ∧
      ({ u with arb := { u.arb with lastLink := .spi }, links := vupd u.links (lix .spi) fun _ => { t.link .spi with
        armed := k.armed, expAlive := k.expAlive, accAny := k.accAny, accHseq := k.accHseq, perfHseq := h.hseq, wrHseq := k.wrHseq,
        wrAddr := k.wrAddr, held := none, dseq := (k.dseq + 1) % 65536, rstDue := k.rstDue, stg := k.stg, commit := k.commit } }).sameBut t [] ∧
      (t.link .spi).last = { status := b2n t.alert, dseq := (k.dseq + 1) % 65536, echo := h.hseq, data := (u.indView k.ptr).toNat, evsum := t.evsum } ∧
      (t.link .spi).ptr = (if k.inc = true ∧ indLast k.ptr ≠ some k.ptr then k.ptr + 1 else k.ptr)) ∧
  (∀ (s : State) (dt : Nat) (lk : Link),
    let u := s.tickTo dt
    u.heldReady lk = false → (lk = .gr → (u.link .gr).held = none → u.grelas.todo = []) →
    ∃ t, Machine.exec (.frameDeferredPerform dt lk) s = .next t ∧ u.sameBut t [])

/-- SNAP (R190), ACCSTAT_CLR (R172), SPI_CNT_CLR (R194), GRELAS_CNT_CLR (R225), CHAIN_MODE_SELECT (R195), LINK_CURRENT_LIMIT, LINK_REVERSED (R204, R205). -/
def Obligations.LinkRegisterCommands : Prop :=
  (∀ (s : State) (dt : Nat) (lk : Link),
    let u := (s.tickTo dt).hostBegin
    u.reaches 0x30 = true →
    ∃ t, Machine.exec (.snap dt lk) s = .next t ∧
      (u.unarm lk).sameBut t [0x30, 0x31, 0x32, 0x33, 0x34, 0x35, 0x36, 0x38, 0x39, 0x3A, 0x3B] ∧
      t.g DEV_RW_CTL_SNAPNUM = (u.g DEV_RW_CTL_SNAPNUM + 1) % 256 ∧
      t.g DEV_RW_SPI_SEQ_ACC_HSEQ = (u.link .spi).accHseq % 65536 ∧ t.g DEV_RW_SPI_SEQ_PERF_HSEQ = (u.link .spi).perfHseq % 65536 ∧
      t.g DEV_RW_LNK_SEQ_ACC_HSEQ = (u.link .gr).accHseq % 65536 ∧ t.g DEV_RW_LNK_SEQ_PERF_HSEQ = (u.link .gr).perfHseq % 65536 ∧
      t.g DEV_RW_SPI_WR_WR_HSEQ = (u.link .spi).wrHseq % 65536 ∧ t.g DEV_RW_SPI_WR_WR_ADDR = (u.link .spi).wrAddr % 65536 ∧
      t.g DEV_RW_LNK_WR_WR_HSEQ = (u.link .gr).wrHseq % 65536 ∧ t.g DEV_RW_LNK_WR_WR_ADDR = (u.link .gr).wrAddr % 65536 ∧
      t.g DEV_RW_SPI_RPL_DSEQ = (u.link .spi).dseq % 65536 ∧ t.g DEV_RW_LNK_RPL_DSEQ = (u.link .gr).dseq % 65536 ∧
      t.g DEV_RW_CSEQ_OLD_CSEQ = u.rings[0].old % 65536 ∧ t.g DEV_RW_CSEQ_NEXT_CSEQ = (u.rings[0].old + u.rings[0].recs.length) % 65536 ∧
      t.g DEV_RW_EVSEQ_OLD_EVSEQ = u.rings[1].old % 65536 ∧
      t.g DEV_RW_TAGS_INFLIGHT = u.cmds.length % 1024 ∧ t.g DEV_RW_TIME_TIME = u.now % 2 ^ 32) ∧
  (∀ (s : State) (dt : Nat) (lk : Link),
    let u := (s.tickTo dt).hostBegin
    u.reaches 0x23 = true →
    ∃ t, Machine.exec (.accstatClr dt lk) s = .next t ∧
      (u.unarm lk).sameBut t [0x23] ∧ ∀ f ∈ [DEV_ACCSTAT_KEY_REF, DEV_ACCSTAT_PASTEND, DEV_ACCSTAT_IND_OVF], t.g f = u.g f - u.gWas f) ∧
  (∀ (s : State) (dt : Nat) (lk : Link),
    let u := (s.tickTo dt).hostBegin
    u.reaches 0x41 = true →
    ∃ t, Machine.exec (.spiCntClr dt lk) s = .next t ∧
      (u.unarm lk).sameBut t [0x41, 0x42] ∧
      (∀ r ∈ layout 0x42, t.g ⟨0x42, r.lo, r.w⟩ = u.g ⟨0x42, r.lo, r.w⟩ - u.gWas ⟨0x42, r.lo, r.w⟩) ∧
      t.word 0x41 = (u.put LNK_SPI_STAT_HSEQ_GAP (u.g LNK_SPI_STAT_HSEQ_GAP - u.gWas LNK_SPI_STAT_HSEQ_GAP)).word 0x41) ∧
  (∀ (s : State) (dt : Nat) (lk : Link),
    let u := (s.tickTo dt).hostBegin
    u.reaches 0x51 = true →
    ∃ t, Machine.exec (.grelasCntClr dt lk) s = .next t ∧
      (u.unarm lk).sameBut t [0x51, 0x52, 0x53] ∧
      (∀ a ∈ [0x52, 0x53], ∀ r ∈ layout a, t.g ⟨a, r.lo, r.w⟩ = u.g ⟨a, r.lo, r.w⟩ - u.gWas ⟨a, r.lo, r.w⟩) ∧
      t.word 0x51 = (u.put LNK_GR_STAT_HSEQ_GAP (u.g LNK_GR_STAT_HSEQ_GAP - u.gWas LNK_GR_STAT_HSEQ_GAP)).word 0x51) ∧
  (∀ (s : State) (dt : Nat) (lk : Link) (data : Word),
    let u := (s.tickTo dt).hostBegin
    let m := data.getLsbD 0
    u.reaches 0x40 = true → (u.link lk).armed = true → u.g LNK_SPI_CFG_CHAIN_PERM = 1 →
    ∃ t, Machine.exec (.chainModeSelect dt lk data) s = .next t ∧
      ({ u.unarm lk with chainMode := m }).sameBut t [0x40, 0x41] ∧
      t.gb LNK_SPI_CFG_MODE = m ∧ t.g LNK_SPI_CFG_CHAIN_LEN = bits data.toNat 4 3 ∧ t.g LNK_SPI_CFG_CHAIN_PERM = 1 ∧
      t.word 0x41 = (if lk = .gr ∧ m = false then u.put LNK_SPI_STAT_MODE_ACT 0 else u).word 0x41) ∧
  (∀ (s : State) (dt : Nat) (lk : Link) (data : Word),
    let u := (s.tickTo dt).hostBegin
    u.reaches 0x40 = true → ((u.link lk).armed = false ∨ u.g LNK_SPI_CFG_CHAIN_PERM ≠ 1) →
    ∃ t, Machine.exec (.chainModeSelect dt lk data) s = .next t ∧
      (u.unarm lk).sameBut t [0x40, 0x23] ∧ u.keyCounted t lk ∧ t.g LNK_SPI_CFG_MODE = u.g LNK_SPI_CFG_MODE ∧
      t.g LNK_SPI_CFG_CHAIN_PERM = u.g LNK_SPI_CFG_CHAIN_PERM ∧
      t.g LNK_SPI_CFG_CHAIN_LEN = bits data.toNat 4 3) ∧
  (∀ (s : State) (dt : Nat) (on : Bool),
    ∃ t, Machine.exec (.linkCurrentLimit dt on) s = .next t ∧ ((s.tickTo dt).putB LNK_GR_STAT_ILIM on).sameBut t []) ∧
  (∀ (s : State) (dt : Nat) (rev : Bool),
    let u := s.tickTo dt
    ∃ t, Machine.exec (.linkReversed dt rev) s = .next t ∧
      ({ u.putB PWR_STAT_LINK_REV rev with power := { u.power with seenRev := u.power.seenRev || rev } }).sameBut t [] ∧
      (rev = true → u.power.seenRev = false → t.evPending 15 = true))

/-- CHAIN_WINDOW_READ, CHAIN_VMAX, CHAIN_AMAX, CHAIN_DMAX, CHAIN_CURRENT, CHAIN_STEPSCALE (R197 to R199). -/
def Obligations.ChainWindow : Prop :=
  (∀ (s : State) (dt : Nat) (v : Fin 8) (addr : BitVec 7),
    let u := s.tickTo dt
    u.chainHas v = true →
    ∃ t, Machine.exec (.chainWindowRead dt v addr) s = .next t ∧
      ({ u with
        chainOut := vupd u.chainOut v (fun _ => BitVec.ofNat 40 (u.chainFlags v * 2 ^ 32 + u.chainGet v addr.toNat % 2 ^ 32)),
        chainRst := u.chainRst &&& ~~~(1#8 <<< v.val) }).sameBut t []) ∧
  (∀ (s : State) (dt : Nat) (v : Fin 8) (a : Fin 3) (data : Word),
    let u := s.tickTo dt
    let g : Fin 11 := ⟨v.val, by omega⟩
    let c := if a = 0 then Instr.chainVmax dt v data else if a = 1 then .chainAmax dt v data else .chainDmax dt v data
    u.chainHas v = true → u.flOn = true → data ≠ 0 → (a = 0 → data.toNat < 2 ^ 31) →
    ∃ t, Machine.exec c s = .next t ∧
      ({ u with
        chain := t.chain, groups := t.groups, coils := t.coils, chainRej := t.chainRej, chainOut := t.chainOut, chainRst := u.chainRst &&& ~~~(1#8 <<< v.val) }).sameBut t [0x22] ∧
      t.g DEV_UPDATE_STAT_STROBES = (u.g DEV_UPDATE_STAT_STROBES + 1) % 256 ∧
      t.chainOwn v (4 + a.val) = data.toNat ∧ t.chainRej = u.chainRej &&& ~~~(1#8 <<< v.val) ∧
      (∀ w : Fin 8, ∀ b : Fin 4, (w ≠ v ∨ b.val ≠ a.val) → t.chainOwn w (4 + b.val) = u.chainOwn w (4 + b.val)) ∧
      (t.chainOut[v].toNat % 2 ^ 32 = data.toNat) ∧ (∀ w : Fin 8, w ≠ v → t.chainOut[w] = u.chainOut[w]) ∧
      t.groups = vupd u.groups g (fun _ => { pend := some (u.staged.filter fun e => groupOf e.1 == g), at_ := u.now })) ∧
  (∀ (s : State) (dt : Nat) (v : Fin 8) (data : Word),
    let u := s.tickTo dt
    u.chainHas v = true → u.flOn = true → bits data.toNat 0 2 ≠ 3 →
    ∃ t, Machine.exec (.chainCurrent dt v data) s = .next t ∧
      ({ u with
        staged := t.staged, groups := t.groups, coils := t.coils, chainRej := u.chainRej &&& ~~~(1#8 <<< v.val), chainOut := t.chainOut,
        chainRst := u.chainRst &&& ~~~(1#8 <<< v.val) }).sameBut t [0x22] ∧
      t.g DEV_UPDATE_STAT_STROBES = (u.g DEV_UPDATE_STAT_STROBES + 1) % 256 ∧
      t.gSt (AX_SEQ_CFG_RANGE v) = bits data.toNat 0 2 ∧ t.gSt (AX_SEQ_CUR_RUN v) = bits data.toNat 4 12 ∧
      t.gSt (AX_SEQ_CUR_HOLD v) = bits data.toNat 16 12 ∧ t.gSt (AX_SEQ_CFG_EOFS v) = u.gSt (AX_SEQ_CFG_EOFS v) ∧
      t.groups[v.val].pend.isSome = true ∧ t.groups[v.val].at_ = u.now) ∧
  (∀ (s : State) (dt : Nat) (v : Fin 8) (data : Word),
    let u := s.tickTo dt
    u.chainHas v = true → u.flOn = true → 1 ≤ data.toNat → data.toNat ≤ 4096 →
    ∃ t, Machine.exec (.chainStepscale dt v data) s = .next t ∧
      ({ u with
        staged := t.staged, groups := t.groups, coils := t.coils, chainRej := u.chainRej &&& ~~~(1#8 <<< v.val), chainOut := t.chainOut,
        chainRst := u.chainRst &&& ~~~(1#8 <<< v.val) }).sameBut t [0x22] ∧
      t.g DEV_UPDATE_STAT_STROBES = (u.g DEV_UPDATE_STAT_STROBES + 1) % 256 ∧
      t.gSt (AX_FOL_CFG_STEPSCALE v) = data.toNat ∧ t.groups[v.val].pend.isSome = true ∧ t.groups[v.val].at_ = u.now) ∧
  (∀ (s : State) (dt : Nat) (v : Fin 8) (a : Fin 5) (data : Word),
    let u := s.tickTo dt
    let c := if a = 0 then Instr.chainVmax dt v data else if a = 1 then .chainAmax dt v data else if a = 2 then .chainDmax dt v data
      else if a = 3 then .chainCurrent dt v data else .chainStepscale dt v data
    u.chainHas v = true →
    (a = 3 → bits data.toNat 0 2 = 3) → (a = 4 → data = 0 ∨ 4096 < data.toNat) → (a.val < 3 → data = 0 ∨ (a = 0 ∧ 2 ^ 31 ≤ data.toNat)) →
    ∃ t, Machine.exec c s = .next t ∧
      ({ u with chainRej := u.chainRej ||| (1#8 <<< v.val), chainOut := t.chainOut, chainRst := u.chainRst &&& ~~~(1#8 <<< v.val) }).sameBut t [] ∧
      ∀ w : Fin 8, w ≠ v → t.chainOut[w] = u.chainOut[w]) ∧
  (∀ (s : State) (dt : Nat) (v : Fin 8) (k : Fin 7) (data : Word),
    let u := s.tickTo dt
    u.chainHas v = false →
    ∃ t, Machine.exec (([.chainWindowRead dt v 1, .chainEnable dt v true, .chainQstop dt v, .chainClrflt dt v, .chainCurrent dt v data, .chainVmax dt v data] : List Instr).getD k.val
      (.chainTarget dt v data)) s = .next t ∧ u.sameBut t [])

/-- CHAIN_ENABLE, CHAIN_FOLLOW, CHAIN_QSTOP, CHAIN_CLRFLT, CHAIN_TARGET (R199, R200). -/
def Obligations.ChainCommands : Prop :=
  (∀ (s : State) (dt : Nat) (v : Fin 8) (k : Fin 6) (data : Word),
    let u := s.tickTo dt
    let st := u.axes[v].st
    let c := ([.chainEnable dt v true, .chainEnable dt v false, .chainFollow dt v true, .chainFollow dt v false, .chainQstop dt v] : List Instr).getD k.val
      (.chainClrflt dt v)
    let op := [0x01, 0x02, 0x07, 0x08, 0x04, 0x05].getD k.val 0
    let d := (u.mkCmd (.chain v) v (chainDesc v op false 0 0))
    u.chainHas v = true →
    (k = 0 → st.energised = false) → (k = 1 → st.energised = true ∧ st ≠ .follow) → (k = 2 → st ≠ .follow) → (k = 3 → st = .follow) →
    ∃ t, Machine.exec c s = .next t ∧
      (if u.check d = none then
        ({ u with cmds := u.cmds ++ [d], nextId := u.nextId + 1, chainRej := u.chainRej &&& ~~~(1#8 <<< v.val), chainOut := t.chainOut, chainRst := u.chainRst &&& ~~~(1#8 <<< v.val) }).sameBut t [] ∧
        d.op = op ∧ d.tag = 0x3F8 + v.val ∧ d.ring = v.val
      else
        ({ u with chainRej := u.chainRej ||| (1#8 <<< v.val), chainOut := t.chainOut, chainRst := u.chainRst &&& ~~~(1#8 <<< v.val) }).sameBut t [])) ∧
  (∀ (s : State) (dt : Nat) (v : Fin 8) (data : Word),
    let u := s.tickTo dt
    let d := u.mkCmd (.chain v) v (chainDesc v 0x20 true data.toNat (if data.getLsbD 31 then 0xFFFF else 0))
    u.chainHas v = true →
    ∃ t, Machine.exec (.chainTarget dt v data) s = .next t ∧
      (if u.check d = none then
        ({ u with
          cmds := u.cmds ++ [d], nextId := u.nextId + 1, chain := t.chain, chainRej := u.chainRej &&& ~~~(1#8 <<< v.val), chainOut := t.chainOut,
          chainReach := u.chainReach &&& ~~~(1#8 <<< v.val), chainStall := u.chainStall &&& ~~~(1#8 <<< v.val), chainRst := u.chainRst &&& ~~~(1#8 <<< v.val) }).sameBut t [] ∧
        t.chainOwn v 7 = data.toNat ∧ d.op = 0x20 ∧ dReplace d.d0 = true ∧ d.d1 = data
      else
        ({ u with chainRej := u.chainRej ||| (1#8 <<< v.val), chainOut := t.chainOut, chainRst := u.chainRst &&& ~~~(1#8 <<< v.val) }).sameBut t [])) ∧
  (∀ (s : State) (dt : Nat) (v : Fin 8) (follow : Bool),
    let u := s.tickTo dt
    let st := u.axes[v].st
    u.chainHas v = true →
    ∃ t, Machine.exec (if follow then .chainFollow dt v (decide (st = .follow)) else .chainEnable dt v st.energised) s = .next t ∧
      ({ u with chainRej := u.chainRej &&& ~~~(1#8 <<< v.val), chainOut := t.chainOut, chainRst := u.chainRst &&& ~~~(1#8 <<< v.val) }).sameBut t [])

/-- CHAIN_TRANSFER (R196, R198). -/
def Obligations.ChainTransfer : Prop :=
  (∀ (s : State) (dt : Nat) (edges : Nat) (ws : List (BitVec 40)),
    let u := s.tickTo dt
    let len := u.g LNK_SPI_CFG_CHAIN_LEN + 1
    let word := fun (v : Fin 8) => ws.getD (len - 1 - v.val) 0
    u.answers = true → u.gb LNK_SPI_STAT_SELECTED = true → (u.link .spi).chain = true → edges = 40 * len →
    (∀ v : Fin 8, v.val < len → (word v).getLsbD 39 = false) →
    ∃ t, Machine.exec (.chainTransfer dt edges ws) s = .next t ∧
      (let w : State := { u with boot := { u.boot with hostAt := u.now }, chainOut := t.chainOut, chainRst := t.chainRst, links := vupd u.links (lix .spi) fun k => { k with edge := none } }
      w.sameBut t [0x10, 0x14, 0x41] ∧ t.gb LNK_SPI_STAT_SELECTED = false ∧ t.gb DEV_WDOG_CFG_EXPIRED = false ∧
      ∀ v : Fin 8, (if v.val < len then
          t.chainOut[v] = BitVec.ofNat 40 (u.chainFlags v * 2 ^ 32 + u.chainGet v (bits (word v).toNat 32 7) % 2 ^ 32) ∧ t.chainRst.getLsbD v = false
        else t.chainOut[v] = u.chainOut[v] ∧ t.chainRst.getLsbD v = u.chainRst.getLsbD v))) ∧
  (∀ (s : State) (dt : Nat) (edges : Nat) (ws : List (BitVec 40)),
    let u := s.tickTo dt
    u.answers = true → u.gb LNK_SPI_STAT_SELECTED = true → (u.link .spi).chain = true → u.g LNK_SPI_CFG_CHAIN_LEN = 0 →
    ∃ t, Machine.exec (.chainTransfer dt 40 ws) s = .next t ∧
      t.now = u.now ∧ t.pending = u.pending ∧ t.boot.hostAt = u.now ∧ (∀ v : Fin 8, v ≠ 0 → t.chainOut[v] = u.chainOut[v]) ∧
      ((ws.headD 0).getLsbD 39 = true → bits (ws.headD 0).toNat 32 7 = 4 → 0 < bits (ws.headD 0).toNat 0 32 → bits (ws.headD 0).toNat 0 32 < 2 ^ 31 →
        t.chainOwn 0 4 = bits (ws.headD 0).toNat 0 32 ∧ t.chainRej.getLsbD 0 = false)) ∧
  (∀ (s : State) (dt : Nat) (edges : Nat) (ws : List (BitVec 40)),
    let u := s.tickTo dt
    let u' := u.put LNK_SPI_STAT_SELECTED 0
    u.answers = true → u.gb LNK_SPI_STAT_SELECTED = true → (u.link .spi).chain = true → edges ≠ 0 → edges ≠ 40 * (u.g LNK_SPI_CFG_CHAIN_LEN + 1) →
    ∃ t, Machine.exec (.chainTransfer dt edges ws) s = .next t ∧
      ({ u'.put LNK_SPI_CNT_LEN_ERR (min (u.g LNK_SPI_CNT_LEN_ERR + 1) 255) with
        chainOut := t.chainOut, chainRst := 0, links := vupd u.links (lix .spi) fun k => { k with edge := none } }).sameBut t [] ∧
      ∀ v : Fin 8, t.chainOut[v].toNat % 2 ^ 32 = 0 ∧ t.chainOut[v].getLsbD 33 = true) ∧
  (∀ (s : State) (dt : Nat) (ws : List (BitVec 40)),
    let u := s.tickTo dt
    let k := u.link .spi
    ∃ t, Machine.exec (.chainTransfer dt 0 ws) s = .next t ∧
      (if u.answers then
        (k.edge = none → (u.put LNK_SPI_STAT_SELECTED 0).sameBut t []) ∧
        ∀ e ∈ k.edge,
          ({ u.put LNK_SPI_STAT_SELECTED 0 with links := vupd u.links (lix .spi) fun k => { k with
            rstDue := e.rstDue, dseq := e.dseq, last := e.last, out := e.out, held := e.held, edge := none } }).sameBut t [0x42] ∧
          t.word 0x42 = (if u.g LNK_SPI_CNT_UNDERRUN = e.under + 1 then u.put LNK_SPI_CNT_UNDERRUN e.under else u).word 0x42
      else u.sameBut t [])) ∧
  (∀ (s : State) (dt edges : Nat) (ws : List (BitVec 40)),
    let u := s.tickTo dt
    u.answers = true → u.gb LNK_SPI_STAT_SELECTED = false → edges ≠ 0 →
    ∃ v, Machine.exec (.frameStart dt (u.gb LNK_SPI_STAT_CPHA_MODE3)) s = .next v ∧ exec (.chainTransfer dt edges ws) s = exec (.chainTransfer 0 edges ws) v) ∧
  (∀ (s : State) (dt edges : Nat) (ws : List (BitVec 40)),
    let u := s.tickTo dt
    u.citenOpen = true →
    exec (.chainTransfer dt edges ws) s = exec (.citenBadOp dt (BitVec.ofNat 4 (heldOf (chainBytes ws)).op) (chainAsFrame edges ws)) s)

/-- GRELAS_POLL (R208 to R223). -/
def Obligations.GrelasPolls : Prop :=
  (∀ (s : State) (dt : Nat) (p : Packet) (q : GrPacket),
    let u := s.tickTo dt
    u.grelasOn = true →
    (lineIn p.line = some (q.inverted, none) ∨ (lineIn p.line = some (q.inverted, some q.bytes) ∧ pkWhole q = false)) →
    ∃ t, Machine.exec (.grelasPoll dt p) s = .next t ∧ (u.put LNK_GR_CNT_PKT_FMT (min (u.g LNK_GR_CNT_PKT_FMT + 1) 255)).sameBut t []) ∧
  (∀ (s : State) (dt : Nat) (p : Packet) (q : GrPacket),
    let u := s.tickTo dt
    u.grelasOn = true → lineIn p.line = some (q.inverted, some q.bytes) → pkWhole q = true → pkCrc q = false →
    ∃ t, Machine.exec (.grelasPoll dt p) s = .next t ∧ (u.put LNK_GR_CNT_PKT_CRC (min (u.g LNK_GR_CNT_PKT_CRC + 1) 255)).sameBut t []) ∧
  (∀ (s : State) (dt : Nat) (p : Packet) (q : GrPacket),
    let u := s.tickTo dt
    u.grelasOn = true → lineIn p.line = some (q.inverted, some q.bytes) → pkWhole q = true → pkCrc q = true →
    (pkFits q = false ∨ (pkType q = 0 ∧ pkByte q 0 / 8 ≠ u.g LNK_GR_CFG_NODE)) →
    ∃ t, Machine.exec (.grelasPoll dt p) s = .next t ∧
      (if pkFits q then u else u.put LNK_GR_CNT_PKT_FMT (min (u.g LNK_GR_CNT_PKT_FMT + 1) 255)).sameBut t []) ∧
  (∀ (s : State) (dt : Nat) (p : Packet) (tick : Bool),
    let u := s.tickTo dt
    (u.grelasOn = false ∨ lineIn p.line = none) →
    ∃ t, Machine.exec (if tick then .grelasTickPacket dt p else .grelasPoll dt p) s = .next t ∧ u.sameBut t []) ∧
  (∀ (s : State) (dt : Nat) (p : Packet) (q : GrPacket) (f : Frame) (rd : Bool),
    let u := (s.tickTo dt).hostBegin
    let k := u.link .gr
    let b := frameBytes f (if rd then 1 else 0) ++ toBytes 2 f.crc.toNat
    u.grelasOn = true → lineIn p.line = some (q.inverted, some q.bytes) → pkWhole q = true → pkCrc q = true → pkFits q = true → pkType q = 0 →
    pkByte q 0 / 8 = u.g LNK_GR_CFG_NODE → u.gb LNK_GR_CFG_AUTH = false → k.rstDue = false → u.turnFree .gr = true → pkFrames q = [b] →
    crc16 (frameBytes f (if rd then 1 else 0)) = f.crc.toNat → f.flags.toNat / 2 = 0 → (∀ e ∈ k.expAlive, e = f.alive.toNat) →
    (rd = true → 0x280 ≤ f.addr.toNat) →
    ∃ t, Machine.exec (.grelasPoll dt p) s = .next t ∧
      ({ u with
        boot := { u.boot with hostAt := u.now }, arb := { u.arb with lastLink := .gr },
        links := vupd u.links (lix .gr) (fun k => { k with
          expAlive := some ((f.alive.toNat + 1) % 16), accAny := true, accHseq := f.hseq.toNat, perfHseq := f.hseq.toNat, held := none,
          dseq := (k.dseq + 1) % 65536, last := (t.link .gr).last }),
        grelas := { u.grelas with
          todo := [], slots := [(t.link .gr).last], pollAt := some u.now, tagged := false, x := t.grelas.x, inv := q.inverted, composed := none } }).sameBut t
          [0x10, 0x14, 0x51] ∧
      t.gb LNK_GR_STAT_RX_INV = q.inverted ∧
      (t.link .gr).last = {
        status := b2n t.alert, dseq := (k.dseq + 1) % 65536, echo := f.hseq.toNat
        data := if rd then (u.atStart.view .gr f.addr.toNat).toNat else (t.link .gr).last.data, evsum := t.evsum } ∧
      (rd = false → dt ≠ 0 → (t.link .gr).last.data = t.devState)) ∧
  (∀ (s : State) (dt : Nat) (p : Packet) (q : GrPacket) (f : Frame),
    let u := s.tickTo dt
    let k := u.link .gr
    let b := frameBytes f 2 ++ toBytes 2 f.crc.toNat
    u.grelasOn = true → lineIn p.line = some (q.inverted, some q.bytes) → pkWhole q = true → pkCrc q = true → pkFits q = true → pkType q = 0 → pkAuth q = false →
    pkByte q 0 / 8 = u.g LNK_GR_CFG_NODE → u.gb LNK_GR_CFG_AUTH = true → k.rstDue = false → pkFrames q = [b] →
    ∃ t, Machine.exec (.grelasPoll dt p) s = .next t ∧
      ({ u.putB LNK_GR_STAT_RX_INV q.inverted with
        links := vupd u.links (lix .gr) (fun k => { k with
          expAlive := some ((k.expAlive.getD 0 + 1) % 16), held := none, dseq := (k.dseq + 1) % 65536, last := (t.link .gr).last }),
        grelas := { u.grelas with
          todo := [], slots := [(t.link .gr).last], pollAt := some u.now, tagged := true, x := t.grelas.x, inv := q.inverted, composed := none } }).sameBut t
          [0x52, 0x53] ∧
      (t.link .gr).last.status = 64 + 48 + b2n t.alert ∧ t.g LNK_GR_CNT_TAG_ERR = min (u.g LNK_GR_CNT_TAG_ERR + 1) 255 ∧
      t.g LNK_GR_FCNT_AUTH_ERR = min (u.g LNK_GR_FCNT_AUTH_ERR + 1) 255)

/-- GRELAS_RESPONSE_COMPOSE, GRELAS_RESPONSE_TRANSMIT, GRELAS_TICK_PACKET, GRELAS_MARK_ISSUE (R214 to R222, R29). -/
def Obligations.GrelasResponseAndMarks : Prop :=
  (∀ (s : State) (dt : Nat) (since : Nat),
    let u := s.tickTo dt
    let g := u.grelas
    u.grelasOn = true → g.pollAt = some since → g.composed = none → (u.link .gr).held = none → g.todo = [] → (∀ r ∈ g.slots, r.status < 128) →
    ∃ t, Machine.exec (.grelasResponseCompose dt) s = .next t ∧
      ({ u with links := t.links, grelas := { g with composed := some u.now, slots := g.slots.map fun (r : Reply) => { r with status := r.status / 2 * 2 + b2n u.alert, evsum := t.evsum } } }).sameBut t [] ∧
      ∀ lk : Link, (t.link lk).perfHseq = (u.link lk).perfHseq ∧ (t.link lk).dseq = (u.link lk).dseq ∧ (t.link lk).armed = (u.link lk).armed) ∧
  (∀ (s : State) (dt : Nat) (since : Nat) (h : HeldFrame),
    let u := s.tickTo dt
    let g := u.grelas
    u.grelasOn = true → g.pollAt = some since → g.composed = none → (u.link .gr).held = some h → (u.link .gr).rstDue = false → g.todo = [] → since + 5600 ≤ u.now →
    ∃ t, Machine.exec (.grelasResponseCompose dt) s = .next t ∧
      ({ u with links := t.links, grelas := { g with composed := some u.now, slots := t.grelas.slots } }).sameBut t [0x53] ∧
      t.grelas.slots.length = g.slots.length + 1 ∧ (t.link .gr).held = none ∧ (t.link .gr).perfHseq = (u.link .gr).perfHseq ∧
      t.word 0x53 = (u.put LNK_GR_FCNT_UNDERRUN (min (u.g LNK_GR_FCNT_UNDERRUN + 1) 255)).word 0x53) ∧
  (∀ (s : State) (dt : Nat),
    let u := s.tickTo dt
    (u.grelasOn = false ∨ u.grelas.pollAt = none ∨ u.grelas.composed ≠ none ∨ (u.grelas.todo ≠ [] ∧ ∀ x ∈ u.grelas.pollAt, u.now < x + 5600)) →
    ∃ t, Machine.exec (.grelasResponseCompose dt) s = .next t ∧ u.sameBut t []) ∧
  (∀ (s : State) (dt : Nat) (since c : Nat),
    let u := s.tickTo dt
    let g := u.grelas
    u.grelasOn = true → g.pollAt = some since → g.composed = some c →
    ∃ t, Machine.exec (.grelasResponseTransmit dt) s = .next t ∧
      (if since + 8000 < u.now then { u with grelas := { g with pollAt := none, composed := none } }
      else if c + 800 ≤ u.now ∧ since + 1600 ≤ u.now then
        { u with grelas := { g with pollAt := none, composed := none, sent := lineOut g.inv u.grPacket } }
      else u).sameBut t []) ∧
  (∀ (s : State) (dt : Nat),
    let u := s.tickTo dt
    let g := u.grelas
    (u.grelasOn = false ∨ g.pollAt = none ∨ g.composed = none) →
    ∃ t, Machine.exec (.grelasResponseTransmit dt) s = .next t ∧
      (if g.pollAt.isSome ∧ g.composed.isSome then { u with grelas := { g with pollAt := none, composed := none } } else u).sameBut t []) ∧
  (∀ (s : State) (dt : Nat) (p : Packet) (q : GrPacket) (num : Nat),
    let u := s.tickTo dt
    u.grelasOn = true → lineIn p.line = some (q.inverted, some q.bytes) → pkWhole q = true → pkCrc q = true → pkFits q = true → pkType q = 2 → u.gb LNK_GR_CFG_AUTH = false →
    ofBytes (pkBytes q 2 4) = num →
    ∃ t, Machine.exec (.grelasTickPacket dt p) s = .next t ∧
      ({ u.putB LNK_GR_STAT_RX_INV q.inverted with grelas := { u.grelas with
        mark := some (u.now + 400 + u.g LNK_GR_TICK_DELAY), tickNum := some num, lastTick := some num } }).sameBut t []) ∧
  (∀ (s : State) (dt : Nat) (p : Packet) (q : GrPacket),
    let u := s.tickTo dt
    u.grelasOn = true → lineIn p.line = some (q.inverted, some q.bytes) → pkWhole q = true → pkCrc q = true → pkFits q = true → pkType q = 2 → pkAuth q = false →
    u.gb LNK_GR_CFG_AUTH = true →
    ∃ t, Machine.exec (.grelasTickPacket dt p) s = .next t ∧
      ((u.putB LNK_GR_STAT_RX_INV q.inverted).put LNK_GR_CNT_TAG_ERR (min (u.g LNK_GR_CNT_TAG_ERR + 1) 255)).sameBut t []) ∧
  (∀ (s : State) (dt : Nat) (pins : BitVec 48) (due num : Nat),
    let u := s.tickTo dt
    u.grelas.mark = some due → due ≤ u.now → u.grelas.tickNum = some num → u.tickSrc ≠ 2 →
    ∃ t, Machine.exec (.grelasMarkIssue dt pins) s = .next t ∧
      (let left := max (u.g LNK_GR_CFG_MARK_DIV) 1 - 1
      ({ (u.put LNK_GR_TICKNUM_TICKNUM num).put LNK_GR_STAT_MARK_OK 1 with grelas := { u.grelas with
        tickNum := none, lastPkt := some u.now, marksLeft := left, mark := if left = 0 then none else some (u.now + u.g CLK_TICK_CFG_PERIOD) } }).sameBut t [])) ∧
  (∀ (s : State) (dt : Nat) (pins : BitVec 48) (due : Nat),
    let u := s.tickTo dt
    let p := u.g CLK_TICK_CFG_PERIOD
    u.grelas.mark = some due → due ≤ u.now → u.tickSrc = 2 → u.tick.on = true → u.tick.commitDue = false → u.tick.lost = false →
    p - 300 ≤ u.tickAge → u.tickAge ≤ p + 300 →
    ∃ t, Machine.exec (.grelasMarkIssue dt pins) s = .next t ∧
      u.outlives t ∧ t.tick.mark = u.now ∧ t.tick.no = u.tick.no + 1 ∧ t.tick.commitDue = true ∧ t.grelas.tickNum = none ∧
      (∀ num ∈ u.grelas.tickNum, t.g LNK_GR_TICKNUM_TICKNUM = num % 2 ^ 32)) ∧
  (∀ (s : State) (dt : Nat) (pins : BitVec 48),
    let u := s.tickTo dt
    (∀ due ∈ u.grelas.mark, u.now < due) → ∃ t, Machine.exec (.grelasMarkIssue dt pins) s = .next t ∧ u.sameBut t []) ∧
  (∀ (inv : Bool) (bytes : List Nat),
    (bytes.all fun b => decide (b < 256)) = true → lineIn (lineOut inv bytes) = some (inv, some bytes))

/-- ENABLE to PROG_STOP, the descriptors of Table 8-3 (R228 to R234). The five writes of a row are five accesses, each in a cycle of its
own (R45); what a program context commits to the ring in the same cycle comes after it, in ProgramInstructions. -/
def Obligations.DescriptorsCommitted : Prop :=
  ∀ (s : State) (dt : Nat) (lk : Link) (r : Fin 11) (d : Desc),
    let u := (s.tickTo dt).hostBegin.hostBegin
    u.reaches (0x80 + 12 * r.val) = true → u.cycleProgs r.val = [] →
    ∀ e ∈ [(0x01, Instr.enable dt lk r d), (0x02, .release dt lk r d), (0x03, .stop dt lk r d), (0x04, .qstop dt lk r d),
        (0x05, .clearFault dt lk r d), (0x06, .setPosition dt lk r d), (0x07, .followOn dt lk r d), (0x08, .followOff dt lk r d),
        (0x20, .moveTrap dt lk r d), (0x21, .moveScurve dt lk r d), (0x22, .moveVel dt lk r d), (0x23, .home dt lk r d),
        (0x24, .dwell dt lk r d), (0x40, .coordPart dt lk r d), (0x41, .stationStop dt lk r d), (0x60, .nop dt lk r d),
        (0x61, .fence dt lk r d), (0x62, .cancelTag dt lk r d), (0x63, .cancelRing dt lk r d), (0x64, .progStart dt lk r d),
        (0x65, .progStop dt lk r d)],
      let w := descWords e.1 d
      let c := u.mkCmd (linkSrc lk) r.val w
      let k := u.link lk
      let old := (kvGet k.commit r.val 0).toNat
      c.op = e.1 ∧ c.tag = d.tag.toNat ∧ c.ring = r.val ∧
      ∃ t, Machine.exec e.2 s = .next t ∧
        (u.check c = none →
          (({ u with
            cmds := u.cmds ++ [{ c with wait := if e.1 = 0x62 then ((u.cmds.find? fun (x : Cmd) => x.tag == d.d1.toNat % 1024).map Cmd.id).toList else [] }],
            nextId := u.nextId + 1, stations := t.stations, links := t.links }).sameBut t [] ∧ (e.1 ≠ 0x40 → t.stations = u.stations))) ∧
        (∀ x ∈ u.check c,
          (({ u with backlog := t.backlog, rings := t.rings, links := t.links }).sameBut t
              [0x86 + 12 * r.val, 0x87 + 12 * r.val, 0x10B] ∧
            t.g (RNG_LASTREJ_TAG r.val) = c.tag ∧ t.g (RNG_LASTREJ_STATUS r.val) = x.1 ∧
            t.g (RNG_LASTREJ_WORD r.val) = x.2 / 32 ∧ t.g (RNG_LASTREJ_BIT r.val) = x.2 % 32)) ∧
        (t.link lk).armed = false ∧
        (∀ i : Fin 4, kvGet (t.link lk).stg (4 * r.val + i.val) 0 = [w.1, w.2.1, w.2.2.1, w.2.2.2].getD i.val 0) ∧
        (∀ x : Fin 64, x.val / 4 ≠ r.val → kvGet (t.link lk).stg x.val 0 = kvGet k.stg x.val 0) ∧
        kvGet (t.link lk).commit r.val 0 = W (((u.check c).map (·.1)).getD 0 + c.tag * 2 ^ 8 + (old / 2 ^ 24 % 128 + 1) % 128 * 2 ^ 24) ∧
        ∀ l : Link, if l = lk then { t.link l with armed := k.armed, stg := k.stg, commit := k.commit } = k else t.link l = u.link l

/-- ENABLE, RELEASE, STOP, QSTOP, CLEAR_FAULT, SET_POSITION, FOLLOW_ON, FOLLOW_OFF, NOP, PROG_START, PROG_STOP at the tick mark that
takes them (R236, Tables 8-3, 8-5 and 9-2). -/
def Obligations.ImmediateCommandsTake : Prop :=
  (∀ (s : State) (c : Cmd),
    let t := s.applyImm c.id
    s.holds c → c.queued = false → s.legal c = false →
      ({ s with cmds := s.endingAs c.id CANCELLED_STATE,
                lastEnd := t.lastEnd }).sameBut t [] ∧
      (isStakeOp c.op = false → t.lastEnd = s.lastEnd)) ∧
  (∀ (s : State) (c : Cmd),
    let t := s.applyImm c.id
    let n := ringAxis c.ring
    s.holds c → s.legal c = true → c.op = 0x01 →
      ({ s with
        cmds := s.endingAs c.id DONE, axes := t.axes, surv := t.surv, stations := t.stations }).sameBut t
        ([0x1000005, 0x1000021, 0x800 + 0x100 * n.val, 0x87D + 0x100 * n.val] ++ (List.range 8).map (0x88E + 0x100 * ·)) ∧
      (s.surv.mwCur = none → t.stations = s.stations ∧ s.keepsWords t [0x800 + 0x100 * n.val, 0x87D + 0x100 * n.val]) ∧
      (s.surv.mwCur = none → s.gb (AX_BD_STAT_ACTIVE n) = false → t.surv = s.surv ∧ s.keepsWords t [0x800 + 0x100 * n.val]) ∧
      t.gb (AX_BD_STAT_ACTIVE n) = false ∧
      (s.gb (AX_BD_STAT_ACTIVE n) = true → t.g (AX_BD_STAT_EPISODES n) = min (s.g (AX_BD_STAT_EPISODES n) + 1) 255) ∧
      (t.g (AX_STATE_REF n) = if s.g (AX_PINSTAT_FB_ACT n) ≠ 0 ∧ s.gb (AX_DP_CFG_ABS n) = true ∧ s.gb (AX_DP_STAT_WORD_OK n) = true then 1 else s.g (AX_STATE_REF n)) ∧
      t.axes[n].st = .hold ∧ t.axes[n].vel = 0 ∧ t.axes[n].prof = none ∧
      t.axes[n].pos = (if s.g (AX_PINSTAT_FB_ACT n) ≠ 0 then s.axes[n].dp.m * 65536 else s.axes[n].pos) ∧
      ∀ k : Fin 8, k ≠ n → t.axes[k] = s.axes[k]) ∧
  (∀ (s : State) (c : Cmd),
    let t := s.applyImm c.id
    let n := ringAxis c.ring
    s.holds c → s.legal c = true → c.op = 0x02 →
      ({ s with cmds := s.endingAs c.id DONE, axes := t.axes,
                coils := t.coils }).sameBut t [] ∧
      t.axes[n].st = .idle ∧ t.axes[n].pos = s.axes[n].pos ∧
      (s.axes[n].st = .hold → ∀ b : Bool, t.coils[if b then coilB n else coilA n].side1 = .off ∧ t.coils[if b then coilB n else coilA n].side2 = .off) ∧
      (∀ k : Fin 8, k ≠ n → t.axes[k] = s.axes[k]) ∧ ∀ k : Fin 16, k ≠ coilA n → k ≠ coilB n → t.coils[k] = s.coils[k]) ∧
  (∀ (s : State) (c : Cmd),
    let t := s.applyImm c.id
    let n := ringAxis c.ring
    s.holds c → s.legal c = true → c.op = 0x05 →
      ({ (s.put (PWR_FLTCAUSE_BITS n) 0).put (AX_FAULT_BITS n) 0 with
        cmds := s.endingAs c.id DONE, axes := t.axes }).sameBut t [] ∧
      s.axes[n].st = .fault ∧ s.causesClear n = true ∧ t.axes[n] = { s.axes[n] with st := .idle, tempCtrl := false } ∧
      ∀ k : Fin 8, k ≠ n → t.axes[k] = s.axes[k]) ∧
  (∀ (s : State) (c : Cmd),
    let t := s.applyImm c.id
    let n := ringAxis c.ring
    let p := dTarget c.d1 c.d2
    s.holds c → s.legal c = true → c.op = 0x06 →
      ({ s.putB (AX_STATE_REF n) (bit (dFlags c.d0) 0) with
        cmds := s.endingAs c.id DONE, axes := t.axes }).sameBut t [] ∧
      t.axes[n].pos = p * 65536 ∧ t.axes[n].planned = p ∧ t.axes[n].dp.m = (if s.g (AX_PINSTAT_FB_ACT n) = 0 then 0 else p) ∧
      t.axes[n].st = s.axes[n].st ∧ ∀ k : Fin 8, k ≠ n → t.axes[k] = s.axes[k]) ∧
  (∀ (s : State) (c : Cmd),
    let t := s.applyImm c.id
    let n := ringAxis c.ring
    s.holds c → s.legal c = true → c.op = 0x07 →
      ({ s with cmds := s.endingAs c.id DONE, axes := t.axes }).sameBut t
        [0x825 + 0x100 * n.val] ∧
      t.axes[n].st = .follow ∧ t.axes[n].fol.origin = s.axes[n].pos ∧ t.axes[n].fol.base = 0 ∧ t.axes[n].fol.steps = [] ∧
      t.axes[n].pos = s.axes[n].pos ∧ t.g (AX_FOL_STAT_STEP_DROP n) = 0 ∧ ∀ k : Fin 8, k ≠ n → t.axes[k] = s.axes[k]) ∧
  (∀ (s : State) (c : Cmd),
    let t := s.applyImm c.id
    let x : Fin 4 := ⟨c.d1.toNat % 4, by omega⟩
    s.holds c → s.legal c = true → c.op = 0x60 ∨ c.op = 0x64 →
      ({ s with cmds := s.endingAs c.id DONE, ctxs := t.ctxs }).sameBut t [] ∧
      (c.op = 0x60 → t.ctxs = s.ctxs) ∧
      (c.op = 0x64 → s.ctxs[x].running = false ∧ t.ctxs[x].running = true ∧ t.ctxs[x].pc = c.d2.toNat % 4096 ∧ t.ctxs[x].lc = Vector.replicate 4 0 ∧
        t.ctxs[x].ev = 0 ∧ t.ctxs[x].post = s.ctxs[x].post ∧ ∀ k : Fin 4, k ≠ x → t.ctxs[k] = s.ctxs[k])) ∧
  (∀ (s : State) (c : Cmd),
    let t := s.applyImm c.id
    let x : Fin 4 := ⟨c.d1.toNat % 4, by omega⟩
    s.holds c → s.legal c = true → c.op = 0x65 →
      (({ s with cmds := s.endingAs c.id DONE, ctxs := t.ctxs, evq := t.evq,
                 mbox := t.mbox, cap := t.cap }).keepsWords t ((List.range 256).map (0x200 + ·)) ∧
      t.cmds = s.endingAs c.id DONE ∧ t.axes = s.axes ∧ t.coils = s.coils) ∧
      t.ctxs[x].running = false ∧ (s.ctxs[x].running = true → t.ctxs[x].trk = [] ∧ t.ctxs[x].wait = .none) ∧
      ∀ k : Fin 4, k ≠ x → t.ctxs[k].running = s.ctxs[k].running ∧ t.ctxs[k].pc = s.ctxs[k].pc) ∧
  (∀ (s : State) (c : Cmd),
    let t := s.applyImm c.id
    let n := ringAxis c.ring
    s.holds c → s.legal c = true → c.op = 0x03 ∨ c.op = 0x04 ∨ c.op = 0x08 → c.flush = false →
    s.engaged n = false →
      ({ s with cmds := t.cmds, axes := t.axes }).sameBut t [0x825 + 0x100 * n.val] ∧
      t.axes[n].st = (if s.axes[n].st = .hold then .hold else .quiescing) ∧ t.axes[n].pos = s.axes[n].pos ∧ t.axes[n].vel = s.axes[n].vel ∧
      (s.axes[n].st ≠ .hold → s.axes[n].limBrake = none → (c.op = 0x04 → s.qdecOf n ≤ t.axes[n].qdec) ∧ (s.axes[n].st = .quiescing → s.axes[n].qdec ≤ t.axes[n].qdec)) ∧
      (s.axes[n].st = .hold → t.axes = s.axes) ∧ (∀ k : Fin 8, k ≠ n → t.axes[k] = s.axes[k]) ∧
      t.cmds.map (fun (x : Cmd) => (x.id, x.ring, x.d0, x.d1)) = s.cmds.map (fun (x : Cmd) => (x.id, x.ring, x.d0, x.d1)) ∧
      ((s.cmds.map Cmd.id).Nodup → ∀ x ∈ t.cmds, x.id = c.id → x.ph = .applied) ∧
      (s.axes[n].st = .hold → ∀ x ∈ t.cmds, x.id ≠ c.id → x ∈ s.cmds))

/-- DWELL_COMPLETE, BACKLOG_POST, TAG_QUERY, RING_RELEASE, RING_RECORD_AUTO_ADVANCE, RING_CNT_CLR (R235 to R251). -/
def Obligations.CompletionRing : Prop :=
  (∀ (s : State) (dt : Nat) (q : Fin 10),
    let u := s.tickTo dt
    ∃ t, Machine.exec (.dwellComplete dt q) s = .next t ∧
      (∀ c ∈ u.execOf q.val, u.cmds.find? (fun x => x.id == c.id) = some c → u.tick.commitDue = true → c.op = 0x24 → c.d1.toNat ≤ u.tick.no + 1 - c.at_ →
        ({ u with cmds := u.endingAs c.id DONE, lastEnd := t.lastEnd }).sameBut t []) ∧
      ((u.tick.commitDue = false ∨ ∀ c ∈ u.execOf q.val, c.op ≠ 0x24 ∨ u.tick.no + 1 - c.at_ < c.d1.toNat) → u.sameBut t [])) ∧
  (∀ (s : State) (dt : Nat) (b : BackItem) (l : List BackItem),
    let u := s.tickTo dt
    u.backlog = b :: l → u.heldRecs 0 < 512 → u.cyc.posted = false →
    ∃ t, Machine.exec (.backlogPost dt) s = .next t ∧
      ({ u with
        backlog := l, cmds := u.cmds.filter (fun (c : Cmd) => some c.id != b.cmd),
        rings := vupd u.rings 0 fun q => { q with recs := q.recs ++ [complRec ((q.old + q.recs.length) % 65536) b.tag b.ring b.src b.status u.recTime] } }).sameBut t []) ∧
  (∀ (s : State) (dt : Nat),
    let u := s.tickTo dt
    (u.backlog = [] ∨ 512 ≤ u.heldRecs 0 ∨ u.cyc.posted = true) → ∃ t, Machine.exec (.backlogPost dt) s = .next t ∧ u.sameBut t []) ∧
  (∀ (s : State) (dt : Nat) (lk : Link) (tag : BitVec 10),
    let u := (s.tickTo dt).hostBegin
    u.reaches 0x100 = true →
    ∃ t, Machine.exec (.tagQuery dt lk tag) s = .next t ∧
      ((u.unarm lk).lnk lk fun k => { k with tagq := tag.toNat }).sameBut t [] ∧
      (t.view lk 0x100).toNat % 1024 = tag.toNat ∧
      (u.tagBusy tag.toNat = false → (t.view lk 0x100).toNat = tag.toNat) ∧
      (∀ c ∈ u.cmds.find? (fun (c : Cmd) => c.tag == tag.toNat), c.live = false → (t.view lk 0x100).toNat = tag.toNat + 3 * 1024 + c.ring % 16 * 8192)) ∧
  (∀ (s : State) (dt : Nat) (lk : Link) (q : Fin 5) (upto : BitVec 16),
    let u := (s.tickTo dt).hostBegin
    let r := u.rings[q]
    let d := (upto.toNat + 65536 - r.old % 65536) % 65536
    u.reaches (0x10A + 12 * q.val) = true → r.old < 65536 → r.recs.length < 32768 →
    ∃ t, Machine.exec (.ringRelease dt lk q upto) s = .next t ∧
      ((u.unarm lk).ring q fun r => if d < r.recs.length then { old := (r.old + d + 1) % 65536, recs := r.recs.drop (d + 1), lost := t.rings[q].lost } else r).sameBut t [0x10B + 12 * q.val] ∧
      t.g (RRNG_CNT_REJ_LOST (11 + q.val)) = u.g (RRNG_CNT_REJ_LOST (11 + q.val)) ∧
      t.g (RRNG_CNT_REL_BAD (11 + q.val)) = (if d < r.recs.length ∨ 32768 ≤ d then u.g (RRNG_CNT_REL_BAD (11 + q.val))
        else min (u.g (RRNG_CNT_REL_BAD (11 + q.val)) + 1) 255)) ∧
  (∀ (s : State) (dt : Nat) (lk : Link) (q : Fin 5),
    let u := s.tickTo dt
    u.answers = true → u.served (0x104 + 12 * q.val) = true →
    ∃ t, Machine.exec (.ringRecordAutoAdvance dt lk q) s = .next t ∧
      (let p := ((u.link lk).peekWord q).toNat
      let p' := ((t.link lk).peekWord q).toNat
      ({ u with links := vupd u.links (lix lk) fun k => { k with peek := (t.link lk).peek } }).sameBut t [] ∧
      (bit p 16 = true → p' = 65536 + (p % 65536 + 1) % 65536) ∧ (bit p 16 = false → p' = p) ∧
      ∀ x : Fin 5, x ≠ q → (t.link lk).peekWord x = (u.link lk).peekWord x)) ∧
  (∀ (s : State) (dt : Nat) (lk : Link) (r : Fin 16),
    let u := (s.tickTo dt).hostBegin
    let a := if r.val < 11 then 0x86 + 12 * r.val else 0x87 + 12 * r.val
    u.reaches (a - if r.val < 11 then 1 else 6) = true →
    ∃ t, Machine.exec (.ringCntClr dt lk r) s = .next t ∧ (u.unarm lk).sameBut t [a] ∧ ∀ x ∈ layout a, t.g ⟨a, x.lo, x.w⟩ = u.g ⟨a, x.lo, x.w⟩ - u.gWas ⟨a, x.lo, x.w⟩)

/-- STALL_REPORT, CLOSURE_ERROR, HOMING_TIMEOUT, STEP_PULSE, HOLD_REDUCTION_START, CLOS_MAX_CLR (chapter 9, R295, R356). -/
def Obligations.AxisEvents : Prop :=
  (∀ (s : State) (dt : Nat) (n : Fin 8) (cause : Nat) (la p : Int),
    let u := s.tickTo dt
    u.tick.commitDue = true → u.energised n = true → u.axes[n].obsRan = true → u.axes[n].obs.due = some (cause, la, p) → cause < 4 →
    ∃ t, Machine.exec (.stallReport dt n) s = .next t ∧
      ({ u with axes := t.axes, mbox := t.mbox, surv := t.surv }).sameBut t ([0x87C + 0x100 * n.val, 0x880 + 0x100 * n.val, 0x1000012] ++ mboxWords) ∧
      t.axes[n] = { u.axes[n] with
        obs := t.axes[n].obs, stallT := true, rep := some (p - 16 * la),
        keep := some (u.axes[n].keep.getD (u.axes[n].obs, u.axes[n].closN)) } ∧
      t.axes[n].obs.armed = false ∧ t.axes[n].obs.due = none ∧
      t.g (AX_STALL_STAT_CAUSE n) = cause ∧ t.g (AX_STALL_STAT_REPORTS n) = min (u.g (AX_STALL_STAT_REPORTS n) + 1) 65535 ∧
      ∀ k : Fin 8, k ≠ n → t.axes[k] = u.axes[k]) ∧
  (∀ (s : State) (dt : Nat) (n : Fin 8),
    let u := s.tickTo dt
    u.tick.commitDue = true → u.energised n = true → u.axes[n].obsRan = false →
    ∃ t, Machine.exec (.stallReport dt n) s = .next t ∧ u.outlives t ∧ t.axes[n].obsRan = true ∧ t.axes[n].obs.due = none ∧ t.dev = u.dev ∧ t.coils = u.coils ∧
      t.axes[n].st = u.axes[n].st ∧ t.axes[n].pos = u.axes[n].pos ∧ ∀ k : Fin 8, k ≠ n → t.axes[k] = u.axes[k]) ∧
  (∀ (s : State) (n : Fin 8) (rotor : Int) (r : Nat),
    let t := s.stallPlan n
    s.axes[n].rep = some rotor → s.axes[n].stallHoming = false → s.engaged n = false → s.gb (AX_PLN_CFG_STALL_ACT n) = false →
      ({ s with axes := t.axes, cmds := t.cmds, lastEnd := t.lastEnd }).sameBut t ([0x00, 0x0A, 0x25, 0x2A].map (0x800 + 0x100 * n.val + ·)) ∧
      t.axes[n].st = .hold ∧ t.axes[n].pos = rotor * 65536 ∧ t.axes[n].vel = 0 ∧ t.axes[n].prof = none ∧ t.axes[n].rep = none ∧
      (s.g (AX_PINSTAT_FB_ACT n) = 0 ∨ s.axes[n].home.isSome = true → t.g (AX_STATE_REF n) = 0) ∧
      (s.axes[n].home.isSome = true → t.g (AX_HOME_STAT_FAILED n) = 1 ∧ t.g (AX_HOME_STAT_FAIL_CAUSE n) = 4) ∧
      (∀ k : Fin 8, k ≠ n → t.axes[k] = s.axes[k]) ∧ t.coils = s.coils ∧
      (∀ c ∈ s.execOf n.val, s.cmds.find? (fun x => x.id == c.id) = some c → t.cmds = s.endingAs c.id STALLED)) ∧
  (∀ (s : State) (n : Fin 8) (rotor : Int) (r : Nat),
    let t := s.stallPlan n
    s.axes[n].rep = some rotor →
      (s.axes[n].stallHoming = true →
        (s.ax n fun a => { a with rep := none, home := a.home.map fun (h : HomeSt) => { h with stall := some rotor } }).sameBut t []) ∧
      (s.axes[n].stallHoming = false → s.gb (AX_PLN_CFG_STALL_ACT n) = true → s.axes[n].st ≠ .fault →
        t.axes[n].st = .fault ∧ t.g (AX_FAULT_BITS n) = s.g (AX_FAULT_BITS n) ||| 1 ∧
        s.quelled t ([0x00, 0x2A].map (0x800 + 0x100 * n.val + ·)))) ∧
  (∀ (s : State) (dt : Nat) (n : Fin 8) (k : Fin 3),
    let u := s.tickTo dt
    (u.tick.commitDue = false ∨ u.energised n = false ∨
      (k = 0 ∧ u.axes[n].obsRan = true ∧ u.axes[n].obs.due = none) ∨ (k = 1 ∧ u.axes[n].closRan = true ∧ u.axes[n].closDue = false) ∨
      (k = 2 ∧ ∀ h ∈ u.axes[n].home, h.phase = 0 ∨ h.timeout = 0 ∨ u.tick.mark < h.t0 + msCyc (10 * h.timeout))) →
    ∃ t, Machine.exec (if k = 0 then .stallReport dt n else if k = 1 then .closureError dt n else .homingTimeout dt n) s = .next t ∧
      (u.ax n fun a => { a with keep := t.axes[n].keep }).sameBut t [] ∧
      (u.tick.commitDue = false ∨ u.energised n = false ∨ k = 2 → t.axes[n].keep = u.axes[n].keep)) ∧
  (∀ (s : State) (dt : Nat) (n : Fin 8),
    let u := s.tickTo dt
    u.tick.commitDue = true → u.energised n = true → u.axes[n].closRan = true → u.axes[n].closDue = true →
    ∃ t, Machine.exec (.closureError dt n) s = .next t ∧
      (u.ax n fun a => { a with closRep := true, keep := some (a.keep.getD (a.obs, a.closN)) }).sameBut t [] ∧
      (u.axes[n].closRep = false → t.evPending 32 = true)) ∧
  (∀ (s : State) (dt : Nat) (n : Fin 8),
    let u := s.tickTo dt
    let e := u.axes[n].dp.m - u.axes[n].planned
    let far := u.g (AX_CLOS_CFG_LIMIT n) * 64 * 65536 * 1000000 + u.axes[n].vel.natAbs * u.g (AX_CLOS_CFG_VLAG n) < e.natAbs * 65536 * 1000000
    let k := if far then u.axes[n].closN + 1 else 0
    u.tick.commitDue = true → u.energised n = true → u.axes[n].closRan = false → u.axes[n].closRep = false → u.closureOn n = true →
    ∃ t, Machine.exec (.closureError dt n) s = .next t ∧
      (u.ax n fun a => { a with
        closRan := true, closN := k, closDue := t.axes[n].closDue, closRep := t.axes[n].closDue, keep := some (a.keep.getD (a.obs, a.closN)) }).sameBut t
        [(AX_CLOS_ERR_ERR n).a, (AX_CLOS_MAX_MAX n).a, (AX_STATE_CLOS_WARN n).a] ∧
      (t.axes[n].closDue = true ↔ u.g (AX_CLOS_CFG_COUNT n) ≤ k) ∧ (t.axes[n].closDue = true → t.evPending 32 = true) ∧
      t.gb (AX_STATE_CLOS_WARN n) = decide (u.g (AX_CLOS_WARN_WARN n) * 64 < e.natAbs)) ∧
  (∀ (s : State) (n : Fin 8) (r : Nat),
    let t := s.closureAct n
    s.axes[n].closDue = true → s.engaged n = false → s.energised n = true →
      t.g (AX_STATE_REF n) = 0 ∧ t.axes[n].closN = 0 ∧ t.axes[n].closDue = false ∧
      (s.gb (AX_PLN_CFG_CLOS_ACT n) = true → t.axes[n].st = .fault ∧ t.g (AX_FAULT_BITS n) = s.g (AX_FAULT_BITS n) ||| 2 ∧
        s.quelled t [0x800 + 0x100 * n.val]) ∧
      (s.gb (AX_PLN_CFG_CLOS_ACT n) = false →
        ({ s with cmds := t.cmds, axes := t.axes, lastEnd := t.lastEnd }).sameBut t [0x800 + 0x100 * n.val, 0x825 + 0x100 * n.val] ∧
        t.axes[n].st = (if s.axes[n].st = .hold then .hold else .quiescing) ∧ t.axes[n].pos = s.axes[n].pos ∧
        (∀ k : Fin 8, k ≠ n → t.axes[k] = s.axes[k]) ∧
        (s.axes[n].st = .hold → ∀ c ∈ s.execOf n.val, s.cmds.find? (fun x => x.id == c.id) = some c → t.cmds = s.endingAs c.id CLOSURE_ERROR_ST) ∧
        (s.axes[n].st ≠ .hold → s.axes[n].limBrake = none → s.qdecOf n ≤ t.axes[n].qdec ∧ ∀ c ∈ s.execOf n.val, ∀ x ∈ t.cmds, x.id = c.id →
          CLOSURE_ERROR_ST ∈ x.causes))) ∧
  (∀ (s : State) (dt : Nat) (n : Fin 8) (h : HomeSt),
    let u := s.tickTo dt
    u.tick.commitDue = true → u.energised n = true → u.axes[n].home = some h → h.phase ≠ 0 → h.timeout ≠ 0 → h.t0 + msCyc (10 * h.timeout) ≤ u.tick.mark →
    ∃ t, Machine.exec (.homingTimeout dt n) s = .next t ∧
      ({ u with cmds := t.cmds, axes := t.axes }).sameBut t [0x800 + 0x100 * n.val, 0x825 + 0x100 * n.val, (AX_HOME_STAT_FAILED n).a] ∧
      t.g (AX_HOME_STAT_FAILED n) = 1 ∧ t.g (AX_HOME_STAT_FAIL_CAUSE n) = 1 ∧ t.g (AX_STATE_REF n) = 0 ∧
      t.axes[n].home = some { h with phase := 0 } ∧ (u.axes[n].st = .homing → t.axes[n].st = .quiescing) ∧ t.axes[n].pos = u.axes[n].pos ∧
      (∀ k : Fin 8, k ≠ n → t.axes[k] = u.axes[k]) ∧
      (u.axes[n].st = .homing → ∀ c ∈ u.execOf n.val, ∀ x ∈ t.cmds, x.id = c.id → HOMING_FAILED ∈ x.causes)) ∧
  (∀ (s : State) (dt : Nat) (n : Fin 8) (dir : Bool),
    let u := s.tickTo dt
    ∃ t, Machine.exec (.stepPulse dt n dir) s = .next t ∧
      (if u.flPins = false ∨ u.g (AX_PINSTAT_STEP_ACT n) ≠ 0 then u
      else if u.axes[n].st = .follow then
        u.ax n fun a => { a with fol := { a.fol with steps := a.fol.steps ++ [(u.now, dir != u.gb (AX_PINSEL_DIR_INV n))], lastStep := u.now } }
      else u.put (AX_FOL_STAT_STEP_IGN n) (min (u.g (AX_FOL_STAT_STEP_IGN n) + 1) 65535)).sameBut t []) ∧
  (∀ (s : State) (dt : Nat) (n : Fin 8),
    let u := s.tickTo dt
    let due := u.axes[n].st.restful = true ∧ u.axes[n].rampAt = none ∧ u.axes[n].holdStart = false ∧
      (∃ z ∈ u.axes[n].zeroAt, msCyc (u.g (AX_SEQ_HOLD_HOLD_DLY n)) ≤ u.tick.mark - z) ∧
      (u.axes[n].st = .follow → msCyc (u.g (AX_SEQ_HOLD_HOLD_DLY n)) ≤ u.tick.mark - u.axes[n].fol.lastStep)
    ∃ t, Machine.exec (.holdReductionStart dt n) s = .next t ∧
      (u.tick.commitDue = true ∧ due → (u.ax n fun a => { a with rampAt := some u.tick.no }).sameBut t []) ∧
      (¬ (u.tick.commitDue = true ∧ due) → u.sameBut t [])) ∧
  (∀ (s : State) (dt : Nat) (lk : Link) (n : Fin 8),
    let u := (s.tickTo dt).hostBegin
    u.reaches (AX_CLOS_MAX_CLR n).a = true →
    ∃ t, Machine.exec (.closMaxClr dt lk n) s = .next t ∧
      ((u.unarm lk).put (AX_CLOS_MAX_MAX n) (if u.axes[n].closRan = true ∧ u.closureOn n = true then (u.gi (AX_CLOS_ERR_ERR n)).natAbs else 0)).sameBut t [])

/-- IDCHK_GO, IDCHK_PULSE_END, IDCHK_COMPLETE (R311 to R315). The rise time of a pulse after the first is a free value (log entry 27). -/
def Obligations.CoilIdentityCheck : Prop :=
  (∀ (s : State) (dt : Nat) (lk : Link) (n : Fin 8),
    let u := (s.tickTo dt).hostBegin
    u.reaches (0x847 + 0x100 * n.val) = true →
    ∃ t, Machine.exec (.idchkGo dt lk n) s = .next t ∧
      (if u.gb (AX_IDCHK_STAT_BUSY n) then u.unarm lk else (u.unarm lk).ax n fun a => { a with idgo := true }).sameBut t []) ∧
  (∀ (s : State) (dt : Nat) (n : Fin 8) (reached : Bool),
    let u := s.tickTo dt
    (∀ d ∈ u.axes[n].idc, d.pair = 0 ∨ 6 < d.pair ∨ (d.decay = true ∧ (d.pair = 6 ∨ u.now < d.t0 + 400000)) ∨ u.now < d.t0 ∨
      (reached = false ∧ u.now < d.t0 + (if d.decay then 400000 else 0) + u.idTmax n)) →
    ∃ t, Machine.exec (.idchkPulseEnd dt n reached) s = .next t ∧ u.sameBut t []) ∧
  (∀ (s : State) (dt : Nat) (n : Fin 8) (reached : Bool) (d : IdchkSt),
    let u := s.tickTo dt
    let rest := if d.decay then 400000 else 0
    let pair := if d.decay then d.pair + 1 else d.pair
    u.axes[n].idc = some d → 1 ≤ d.pair → pair ≤ 6 → d.t0 + rest ≤ u.now → (reached = true ∨ d.t0 + rest + u.idTmax n ≤ u.now) →
    ∃ t, Machine.exec (.idchkPulseEnd dt n reached) s = .next t ∧
      ({ u.ax n (fun a => { a with idc := some { d with pair := pair, decay := true, t0 := u.now } }) with
        free := t.free }).sameBut t [0x848 + 0x100 * n.val, 0x849 + 0x100 * n.val, 0x84A + 0x100 * n.val] ∧
      t.g (AX_IDCHK_STAT_PAIRS n) = u.g (AX_IDCHK_STAT_PAIRS n) ||| (if reached then 2 ^ (pair - 1) else 0) ∧
      t.g (AX_IDCHK_STAT_BUSY n) = u.g (AX_IDCHK_STAT_BUSY n) ∧ t.g (AX_IDCHK_STAT_RESULT n) = u.g (AX_IDCHK_STAT_RESULT n) ∧
      t.g (AX_IDCHK_STAT_PHASE n) = u.g (AX_IDCHK_STAT_PHASE n) ∧
      t.g (AX_IDCHK_RA_R_MOHM n) = u.g (AX_IDCHK_RA_R_MOHM n) ∧ t.g (AX_IDCHK_RB_R_MOHM n) = u.g (AX_IDCHK_RB_R_MOHM n) ∧
      ((reached = false ∨ 2 < pair) → t.g (AX_IDCHK_RA_L_UH n) = u.g (AX_IDCHK_RA_L_UH n) ∧ t.g (AX_IDCHK_RB_L_UH n) = u.g (AX_IDCHK_RB_L_UH n)) ∧
      (reached = true → d.decay = false → d.testI * u.fs n ≠ 0 →
        (let l := min 65535 (u.vmb (stationOf n) * (u.now - d.t0) * 25 * 4096 / (d.testI * u.fs n * 10000))
         (pair = 1 → t.g (AX_IDCHK_RA_L_UH n) = l ∧ t.g (AX_IDCHK_RB_L_UH n) = u.g (AX_IDCHK_RB_L_UH n)) ∧
         (pair = 2 → t.g (AX_IDCHK_RB_L_UH n) = l))) ∧
      (reached = true → pair = 2 → t.g (AX_IDCHK_RA_L_UH n) = u.g (AX_IDCHK_RA_L_UH n))) ∧
  (∀ (s : State) (dt : Nat) (c : Fin 16) (d : IdchkSt),
    let u := s.tickTo dt
    let n := axisOf c
    let two := pairsResult (u.g (AX_IDCHK_STAT_PAIRS n)) = 0
    u.axes[n].idc = some d → u.testFets c ≠ 0 → (u.coils[c].on = false ∨ u.driven c = false ∨ u.coils[c].mode < 2 ∨ u.coils[c].phase ≠ 1) →
    ∃ t, Machine.exec (.decayZeroCross dt c) s = .next t ∧
      (d.decay = false → u.sameBut t []) ∧
      (d.decay = true →
        (u.ax n fun a => { a with idc := some { d with
          pair := if d.pair < 6 then d.pair + 1 else if two then 7 else 9, decay := false, t0 := if d.pair < 6 then u.now + 400000 else u.now } }).sameBut t
            [0x848 + 0x100 * n.val] ∧
        t.g (AX_IDCHK_STAT_PHASE n) = (if 6 ≤ d.pair ∧ two then 2 else u.g (AX_IDCHK_STAT_PHASE n)) ∧
        t.g (AX_IDCHK_STAT_PAIRS n) = u.g (AX_IDCHK_STAT_PAIRS n) ∧ t.g (AX_IDCHK_STAT_BUSY n) = u.g (AX_IDCHK_STAT_BUSY n))) ∧
  (∀ (s : State) (dt : Nat) (n : Fin 8),
    let u := s.tickTo dt
    (∀ d ∈ u.axes[n].idc, d.pair < 7 ∨ (d.pair = 7 ∧ u.now - d.t0 < 16000000) ∨ (d.pair = 8 ∧ (d.dm = none ∨ u.now - d.t0 < 680000000))) →
    ∃ t, Machine.exec (.idchkComplete dt n () ()) s = .next t ∧ u.sameBut t []) ∧
  (∀ (s : State) (dt : Nat) (n : Fin 8) (d : IdchkSt),
    let u := s.tickTo dt
    let ra := u.idchkR (coilA n) d.na d.sa d.testI
    let rb := u.useFree.idchkR (coilB n) d.nb d.sb d.testI
    let bad := u.axes[n].mon.rcoil.any fun rc => rOff rc ra (u.g (AX_IDCHK_CFG_RTOL n)) || rOff rc rb (u.g (AX_IDCHK_CFG_RTOL n))
    let sweep := u.gb (AX_IDCHK_CFG_DIR_EN n) = true ∧ u.g (AX_PINSTAT_FB_ACT n) ≠ 0
    u.axes[n].idc = some d → (d.pair = 9 ∨ (d.pair = 7 ∧ d.t0 + 16000000 ≤ u.now) ∨ (d.pair = 8 ∧ d.dm ≠ none ∧ d.t0 + 680000000 ≤ u.now)) →
    ∃ t, Machine.exec (.idchkComplete dt n () ()) s = .next t ∧
      ({ u with axes := t.axes, free := t.free, staged := t.staged, coils := t.coils, surv := t.surv }).sameBut t
        [0x848 + 0x100 * n.val, 0x849 + 0x100 * n.val, 0x84A + 0x100 * n.val, 0x1000012] ∧
      (d.pair = 7 → d.testI * u.fs n / 4096 ≠ 0 → t.g (AX_IDCHK_RA_R_MOHM n) = ra ∧ t.g (AX_IDCHK_RB_R_MOHM n) = rb) ∧
      (d.pair = 7 → bad = false → sweep → t.axes[n].idc = some { d with pair := 8, t0 := u.now, m0 := u.axes[n].dp.m, theta := u.theta n u.axes[n].dp.m, dm := none } ∧ t.g (AX_IDCHK_STAT_PHASE n) = 3 ∧
        t.g (AX_IDCHK_STAT_BUSY n) = u.g (AX_IDCHK_STAT_BUSY n)) ∧
      ((d.pair = 7 → bad = true ∨ ¬ sweep) → t.axes[n] = { u.axes[n] with idc := none } ∧ t.g (AX_IDCHK_STAT_BUSY n) = 0 ∧
        t.g (AX_IDCHK_STAT_RESULT n) = (if d.pair = 9 then pairsResult (u.g (AX_IDCHK_STAT_PAIRS n)) else if d.pair = 7 ∧ bad = true then 7 else 1) ∧
        t.evPending 38 = true) ∧
      (d.pair = 8 → ∀ m ∈ d.dm, t.g (AX_IDCHK_STAT_DIR n) = (if 8192 ≤ m then 1 else if m ≤ -8192 then 2 else 3)) ∧
      (t.staged = u.staged ∧ t.coils[coilB n].pend = u.coils[coilB n].pend ∨ (d.pair = 8 ∧ t.g (AX_IDCHK_STAT_DIR n) = 2 ∧ u.gb (AX_IDCHK_CFG_AUTOFIX n) = true ∧
        t.gSt (CO_PWM_CFG_SWAP (coilB n)) = 1 - u.g (CO_PWM_CFG_SWAP (coilB n)) ∧ t.g (AX_IDCHK_STAT_FIXED n) = 1)) ∧
      (∀ k : Fin 16, if axisOf k = n then t.coils[k].side1 = .off ∧ t.coils[k].side2 = .off else t.coils[k] = u.coils[k]) ∧
      ∀ k : Fin 8, k ≠ n → t.axes[k] = u.axes[k]) ∧
  (∀ (s : State) (n : Fin 8) (d : IdchkSt),
    s.axes[n].idc = some d → 1 ≤ d.pair → d.pair ≤ 6 → d.t0 ≤ s.now → s.tripHeld n = false → s.power.clampOn[stationOf n] = false →
    (∀ c : Fin 16, axisOf c = n → s.row4 c = false ∧ s.driven c = false ∧ s.coils[c].ocFets = 0) →
    (s.fets (coilA n), s.fets (coilB n)) = (if d.decay then [(6, 0), (0, 6), (2, 1), (2, 4), (8, 1), (8, 4)]
      else [(9, 0), (0, 9), (1, 2), (1, 8), (4, 2), (4, 8)]).getD (d.pair - 1) (0, 0))

/-- PWM_BOUNDARY, PWM_EDGE, PEAK_COMPARATOR_TRIP, PHASE_TIME_LIMIT, DECAY_ZERO_CROSS, SYNC_PULSE (R300 to R331). -/
def Obligations.BridgePeriods : Prop :=
  (∀ (s : State) (dt : Nat) (c : Fin 16),
    let u := s.tickTo dt
    (u.flOn = false ∨ u.boundaryDue c = false) → ∃ t, Machine.exec (.pwmBoundary dt c) s = .next t ∧ u.sameBut t []) ∧
  (∀ (s : State) (dt : Nat) (c : Fin 16),
    let u := s.tickTo dt
    let k := u.coils[c]
    let j := (u.g (CO_PWM_STAT_DIDX c) + 1) % 16
    let pj := dith (u.g (CO_PWM_PER_PERIOD c)) j
    let raw := dith (u.g (CO_PWM_CMP_CMP c)) j
    let cj := if 0 < raw ∧ raw < u.dtime c + 10 then 0 else if raw < pj ∧ pj < raw + u.dtime c + 10 then pj else raw
    u.flOn = true → u.boundaryDue c = true → k.mode = 0 → u.g (CO_REG_CFG_MODE c) = 0 → u.testTurn c = false → k.pend = none → (c ≠ 0 ∨ u.synced c = false) →
    ∃ t, Machine.exec (.pwmBoundary dt c) s = .next t ∧
      ({ u with coils := t.coils }).sameBut t [(CO_REG_STAT_SAT c).a, (CO_REG_CNT_FORCED c).a, (CO_PWM_STAT_DIDX c).a, (CO_PWM_CNT_SLIP c).a, (CO_ADC_CNT_CLIP c).a] ∧
      t.coils[c].t0 = u.now ∧ t.coils[c].pj = pj ∧ t.coils[c].cj = cj ∧ t.coils[c].tick = u.tick.no ∧ t.g (CO_PWM_STAT_DIDX c) = j ∧
      t.g (CO_PWM_STAT_PER_ACT c) = u.g (CO_PWM_PER_PERIOD c) ∧ t.gb (CO_PWM_STAT_ALWAYS_ON c) = decide (pj ≤ cj) ∧
      t.g (CO_PWM_CNT_SLIP c) = (if u.now - k.t0 = k.pj then u.g (CO_PWM_CNT_SLIP c) else min (u.g (CO_PWM_CNT_SLIP c) + 1) 255) ∧
      (({ u with coils := t.coils }).driven c = true → (t.coils[c].side1, t.coils[c].side2) = (if pj ≤ cj then driveSides (u.gb (CO_PWM_CMP_DIR c))
        else if 0 < cj ∧ (pj - cj) / 2 ≤ u.dtime c then (if u.gb (CO_PWM_CMP_DIR c) then (.low, .off) else (.off, .low)) else (.low, .low))) ∧
      (({ u with coils := t.coils }).driven c = false → t.coils[c].side1 = .off ∧ t.coils[c].side2 = .off) ∧
      ∀ x : Fin 16, x ≠ c → (x.val ≠ 1 ∨ c ≠ 0) → t.coils[x] = u.coils[x]) ∧
  (∀ (s : State) (dt : Nat) (c : Fin 16) (d : IdchkSt),
    let u := s.tickTo dt
    u.flOn = true → u.boundaryDue c = true → u.axes[axisOf c].idc = some d → u.testReg c = true → u.coils[c].pend = none →
    ∃ t, Machine.exec (.pwmBoundary dt c) s = .next t ∧
      ({ u with coils := t.coils, axes := t.axes }).sameBut t [(CO_REG_STAT_SAT c).a, (CO_REG_CNT_FORCED c).a, (CO_PWM_STAT_DIDX c).a, (CO_PWM_CNT_SLIP c).a, (CO_ADC_CNT_CLIP c).a] ∧
      t.coils[c].mode = 1 ∧ t.coils[c].spIn = d.testI ∧ t.coils[c].t0 = u.now ∧ t.coils[c].pj = 10000 ∧ t.g (CO_PWM_STAT_PER_ACT c) = 160000 ∧
      (∀ n : Fin 8, t.axes[n] = { u.axes[n] with idc := t.axes[n].idc }) ∧ ∀ n : Fin 8, n ≠ axisOf c → t.axes[n] = u.axes[n]) ∧
  (∀ (s : State) (dt : Nat) (c : Fin 16),
    let u := s.tickTo dt
    let k := u.coils[c]
    let x := k.sp + k.car
    u.flOn = true → u.boundaryDue c = true → (k.mode = 2 ∨ k.mode = 3) → u.g (CO_REG_CFG_MODE c) = k.mode → u.testTurn c = false → k.pend = none → u.driven c = true →
    ∃ t, Machine.exec (.pwmBoundary dt c) s = .next t ∧
      ({ u with coils := t.coils }).sameBut t [(CO_REG_STAT_SAT c).a, (CO_REG_CNT_FORCED c).a, (CO_PWM_STAT_DIDX c).a] ∧
      t.coils[c].t0 = u.now ∧ t.coils[c].spIn = x ∧ t.coils[c].phase = (if x = 0 then 5 else 0) ∧ t.coils[c].phT = u.now ∧
      (t.coils[c].side1, t.coils[c].side2) = (if x = 0 then (.low, .low) else driveSides (decide (x < 0))) ∧
      t.g (CO_REG_STAT_SAT c) = 0 ∧ t.g (CO_PWM_STAT_PER_ACT c) = u.g (CO_PWM_PER_PERIOD c) ∧
      ∀ y : Fin 16, y ≠ c → t.coils[y] = u.coils[y]) ∧
  (∀ (s : State) (dt : Nat) (c : Fin 16),
    let u := s.tickTo dt
    ∃ t, Machine.exec (.pwmEdge dt c) s = .next t ∧
      ((u.coils[c].on = false ∨ u.driven c = false) → u.sameBut t []) ∧
      (u.coils[c].on = true → u.driven c = true →
        ({ u with coils := t.coils }).sameBut t [] ∧ (∀ y : Fin 16, y ≠ c → t.coils[y] = u.coils[y]) ∧
        (u.coils[c].mode ≠ 3 → t.coils[c].edges = u.coils[c].edges.filter (fun (e : Edge) => u.now < e.t)) ∧
        (∀ e ∈ u.coils[c].edges, u.coils[c].edges.length = 1 → e.t ≤ u.now → e.ph = none →
          (if e.term2 then (t.coils[c].side2, t.coils[c].side1) else (t.coils[c].side1, t.coils[c].side2)) =
            (if e.on then e.side else .off, if e.term2 then u.coils[c].side1 else u.coils[c].side2)))) ∧
  (∀ (s : State) (dt : Nat) (c : Fin 16) (limit : Bool),
    let u := s.tickTo dt
    let k := u.coils[c]
    let share := if u.g (CO_REG_CFG_DECAY c) = 0 then 0 else if u.g (CO_REG_CFG_DECAY c) = 1 then u.toff c else u.toff c * u.g (CO_REG_CFG_FASTPCT c) / 256
    k.on = true → u.driven c = true → (k.dead1.isSome = true → k.side1 = .off) → (k.dead2.isSome = true → k.side2 = .off) →
    (if limit then k.phT + 16000 ≤ u.now else k.edgeOn + u.tblank c ≤ u.now) →
    (k.mode = 2 ∧ k.phase = 0 ∨ k.mode = 3 ∧ (k.phase = 1 ∨ k.phase = 2)) →
    ∃ t, Machine.exec (if limit then .phaseTimeLimit dt c else .peakComparatorTrip dt c) s = .next t ∧
      ({ u with coils := t.coils }).sameBut t [(CO_REG_STAT_SAT c).a, (CO_REG_CNT_FORCED c).a] ∧
      t.coils[c].phase = (if k.mode = 3 then 4 else if share = 0 then 2 else 1) ∧ t.coils[c].phT = u.now ∧
      (let next := (u.foresee c (u.now + u.dtime c) none).coils[c]
       let y := if k.mode = 3 then (next.side1, next.side2) else if share = 0 then (Side.low, Side.low) else driveSides (!k.neg)
       t.coils[c].side1 = (if k.side1 = y.1 then y.1 else .off) ∧ t.coils[c].side2 = (if k.side2 = y.2 then y.2 else .off)) ∧
      t.g (CO_REG_CNT_FORCED c) = (if limit then min (u.g (CO_REG_CNT_FORCED c) + 1) 255 else u.g (CO_REG_CNT_FORCED c)) ∧
      (limit = true → t.coils[c].maxAny = true) ∧
      ∀ y : Fin 16, y ≠ c → t.coils[y] = u.coils[y]) ∧
  (∀ (s : State) (dt : Nat) (c : Fin 16) (k : Fin 3),
    let u := s.tickTo dt
    let q := u.coils[c]
    let idle := q.on = false ∨ u.driven c = false
    (k = 2 → u.testFets c = 0) →
    (idle ∨ (k = 0 ∧ u.now < q.edgeOn + u.tblank c ∧ q.edgeOn ≤ u.now) ∨ (k = 1 ∧ u.now < q.phT + 16000) ∨
      (k ≠ 2 ∧ ¬ (q.mode = 2 ∧ q.phase = 0) ∧ ¬ (q.mode = 3 ∧ (q.phase = 1 ∨ q.phase = 2))) ∨ (k = 2 ∧ (q.mode < 2 ∨ q.phase ≠ 1))) →
    ∃ t, Machine.exec (if k = 0 then .peakComparatorTrip dt c else if k = 1 then .phaseTimeLimit dt c else .decayZeroCross dt c) s = .next t ∧ u.sameBut t []) ∧
  (∀ (s : State) (dt : Nat) (c : Fin 16),
    let u := s.tickTo dt
    let k := u.coils[c]
    k.on = true → u.driven c = true → (k.dead1.isSome = true → k.side1 = .off) → (k.dead2.isSome = true → k.side2 = .off) →
    2 ≤ k.mode → k.phase = 1 →
    ∃ t, Machine.exec (.decayZeroCross dt c) s = .next t ∧
      ({ u with coils := t.coils }).sameBut t [] ∧ t.coils[c].phase = 2 ∧ t.coils[c].phT = k.phT ∧
      t.coils[c].side1 = (if k.side1 = .low then .low else .off) ∧ t.coils[c].side2 = (if k.side2 = .low then .low else .off) ∧
      ∀ y : Fin 16, y ≠ c → t.coils[y] = u.coils[y]) ∧
  (∀ (s : State) (dt : Nat) (c : Fin 16) (due pj j : Nat) (rest : List (Nat × Nat × Nat)),
    let u := s.tickTo dt
    u.coils[c].relay = (due, pj, j) :: rest → (c = 0 ∨ u.synced c = false ∨ u.now < due) →
    ∃ t, Machine.exec (.syncPulse dt c) s = .next t ∧
      ({ u with coils := t.coils }).sameBut t [] ∧ (u.now < due → t.coils = u.coils) ∧
      (due ≤ u.now → t.coils[c] = { u.coils[c] with relay := rest } ∧
        ∀ x : Fin 16, x ≠ c → t.coils[x] = if x.val = c.val + 1 then
          { u.coils[x] with relay := u.coils[x].relay ++ [(u.now + u.g (CO_PWM_CFG_PHASE c) % max 1 pj, pj, j)] } else u.coils[x])) ∧
  (∀ (s : State) (dt : Nat) (c : Fin 16) (due pj j : Nat) (rest : List (Nat × Nat × Nat)),
    let u := s.tickTo dt
    u.coils[c].relay = (due, pj, j) :: rest → due ≤ u.now → c ≠ 0 → u.synced c = true → u.g (CO_REG_CFG_MODE c) < 2 → j < 16 →
    ∃ t, Machine.exec (.syncPulse dt c) s = .next t ∧
      ({ u with coils := t.coils }).sameBut t [(CO_REG_STAT_SAT c).a, (CO_REG_CNT_FORCED c).a, (CO_PWM_STAT_DIDX c).a, (CO_PWM_CNT_SLIP c).a, (CO_ADC_CNT_CLIP c).a, (CO_PWM_PER_PERIOD c).a, (CO_PWM_CMP_CMP c).a, (CO_PWM_CFG_DT c).a] ∧
      t.coils[c].t0 = u.now ∧ t.coils[c].pj = pj ∧ t.g (CO_PWM_STAT_DIDX c) = j ∧ t.coils[c].relay = rest ∧
      ∀ x : Fin 16, x ≠ c → x.val ≠ c.val + 1 → t.coils[x] = u.coils[x]) ∧
  (∀ (s : State) (dt : Nat) (c : Fin 16),
    let u := s.tickTo dt
    u.coils[c].relay = [] → ∃ t, Machine.exec (.syncPulse dt c) s = .next t ∧ u.sameBut t [])

/-- COIL_SAMPLE, COIL_CONVERSION_DONE, REG_CNT_CLR, PWM_CNT_CLR, ADC_CNT_CLR (R298, R318, R332, R395 to R398). -/
def Obligations.CoilConverters : Prop :=
  (∀ (s : State) (dt : Nat) (c : Fin 16) (slot : Fin 3),
    let u := s.tickTo dt
    (∀ x ∈ u.coils[c].slots, x.1 = slot.val → u.now < x.2) → ∃ t, Machine.exec (.coilSample dt c slot) s = .next t ∧ u.sameBut t []) ∧
  (∀ (s : State) (dt : Nat) (c : Fin 16) (slot : Fin 3),
    let u := s.tickTo dt
    let k := u.coils[c]
    let k' := { k with slots := k.slots.filter (fun x => x.1 != slot.val) }
    let late := k.conv.any fun v => decide (k.refT + k.refL < v.t + 200)
    (∃ x ∈ k.slots, x.1 = slot.val ∧ x.2 ≤ u.now) →
    ∃ t, Machine.exec (.coilSample dt c slot) s = .next t ∧
      (if k.conv = none then u.co c fun _ => { k' with conv := some { slot := slot.val, t := u.now, tick := k.tick } }
      else if slot ≠ 0 then
        ((u.co c fun _ => k').put (CO_ADC_CNT_URG_DROP c) (min (u.g (CO_ADC_CNT_URG_DROP c) + 1) 255)).put (CO_REG_CNT_OBS_SKIP c) (min (u.g (CO_REG_CNT_OBS_SKIP c) + 1) 255)
      else if late then (u.co c fun _ => k').put (CO_REG_CNT_S0_SKIP c) (min (u.g (CO_REG_CNT_S0_SKIP c) + 1) 255)
      else (u.co c fun _ => { k' with s0Wait := true }).put (CO_ADC_CNT_S0_LATE c) (min (u.g (CO_ADC_CNT_S0_LATE c) + 1) 255)).sameBut t []) ∧
  (∀ (s : State) (dt : Nat) (c : Fin 16) (code : BitVec 12),
    let u := s.tickTo dt
    (∀ v ∈ u.coils[c].conv, u.now < v.t + 80) → ∃ t, Machine.exec (.coilConversionDone dt c code) s = .next t ∧ u.sameBut t []) ∧
  (∀ (s : State) (dt : Nat) (c : Fin 16) (code : BitVec 12) (v : Conv),
    let u := s.tickTo dt
    let k := u.coils[c]
    let x : Int := if u.gb (CO_PWM_CFG_SWAP c) = u.gb (CO_PWM_CFG_INV c) then code.toInt else min 2047 (-code.toInt)
    let here := u.tick.no ≤ v.tick
    let before := v.tick + 1 = u.tick.no
    k.conv = some v → v.t + 80 ≤ u.now → v.slot < 3 →
    ∃ t, Machine.exec (.coilConversionDone dt c code) s = .next t ∧
      ({ u with coils := t.coils }).sameBut t [(CO_ADC_S01_S0 c).a, (CO_ADC_S2_S2 c).a, (CO_ADC_CNT_CLIP c).a, (CO_REG_STAT_IMEAS c).a] ∧
      t.g (CO_ADC_CNT_CLIP c) = (if code = 0x7FF ∨ code = 0x800 then min (u.g (CO_ADC_CNT_CLIP c) + 1) 255 else u.g (CO_ADC_CNT_CLIP c)) ∧
      t.gi (CO_ADC_S01_S0 c) = (if v.slot = 0 then x else u.gi (CO_ADC_S01_S0 c)) ∧
      t.gi (CO_ADC_S01_S1 c) = (if v.slot = 1 then x else u.gi (CO_ADC_S01_S1 c)) ∧
      t.gi (CO_ADC_S2_S2 c) = (if v.slot = 2 then x else u.gi (CO_ADC_S2_S2 c)) ∧
      t.gi (CO_REG_STAT_IMEAS c) = (if v.slot = 0 then 3 * x else u.gi (CO_REG_STAT_IMEAS c)) ∧
      t.coils[c].conv = (if k.s0Wait then some { slot := 0, t := u.now, tick := k.tick } else none) ∧ t.coils[c].s0Wait = false ∧
      t.coils[c].sum0 = k.sum0 + (if v.slot = 0 ∧ here then x else 0) ∧ t.coils[c].ps0 = k.ps0 + (if v.slot = 0 ∧ before then x else 0) ∧
      t.coils[c].sum12 = k.sum12 + (if v.slot ≠ 0 ∧ here then x else 0) ∧ t.coils[c].ps12 = k.ps12 + (if v.slot ≠ 0 ∧ before then x else 0) ∧
      t.coils[c].lastS0 = (if v.slot = 0 then x else k.lastS0) ∧ ∀ y : Fin 16, y ≠ c → t.coils[y] = u.coils[y]) ∧
  (∀ (s : State) (dt : Nat) (lk : Link) (c : Fin 16) (k : Fin 3),
    let u := (s.tickTo dt).hostBegin
    let a := if k = 0 then (CO_REG_CNT_CLR c).a else if k = 1 then (CO_PWM_CNT_CLR c).a else (CO_ADC_CNT_CLR c).a
    u.reaches a = true →
    ∃ t, Machine.exec (if k = 0 then .regCntClr dt lk c else if k = 1 then .pwmCntClr dt lk c else .adcCntClr dt lk c) s = .next t ∧
      (u.unarm lk).sameBut t [a] ∧ ∀ x ∈ layout a, t.g ⟨a, x.lo, x.w⟩ = u.g ⟨a, x.lo, x.w⟩ - u.gWas ⟨a, x.lo, x.w⟩)

/-- TRIP_ASSERT, TRIP_RELEASE, TRIP_CLEAR, TRIP_CNT_CLR, BACKDRIVE_EPISODE_START, BACKDRIVE_EPISODE_END (R334 to R341, R358, R359). -/
def Obligations.TripsAndBackdrive : Prop :=
  (∀ (s : State) (dt : Nat) (i : Fin 4) (held : Nat),
    let u := s.tickTo dt
    let m := u.g (PWR_TRIP_CFG_AXMASK i)
    u.tripPins = true → u.tripFilt i ≤ held → u.gBit PWR_TRIP_STAT_LATCH i = false →
    (∀ st : Fin 2, u.gBit (ST_SV_CFG_INJ_SRC st) 1 = false ∨ u.gBit (ST_SV_CFG_TRIPMASK st) i = false) →
    ∃ t, Machine.exec (.tripAssert dt ⟨i, held⟩) s = .next t ∧
      u.quelled t ([0x184, 0x188 + i.val, 0x18C + i.val] ++ (List.range 8).flatMap fun n => [0x85B + 0x100 * n, 0x86B + 0x100 * n]) ∧
      t.gBit PWR_TRIP_STAT_LVL i = true ∧ t.gBit PWR_TRIP_STAT_LATCH i = true ∧ t.gb (PWR_TRIP_CAP_VALID i) = true ∧
      t.g (PWR_TRIP_TS_TS i) = u.now % 2 ^ 32 ∧
      (∀ c : Fin 16, bit (t.g (PWR_TRIP_CAP_PEND i)) c = (bit m (axisOf c) && u.pendingOn c != 0)) ∧
      (∀ k : Fin 4, k ≠ i → t.gBit PWR_TRIP_STAT_LVL k = u.gBit PWR_TRIP_STAT_LVL k ∧ t.gBit PWR_TRIP_STAT_LATCH k = u.gBit PWR_TRIP_STAT_LATCH k) ∧
      (∀ n : Fin 8, if bit m n = true ∧ (u.energised n = true ∨ u.axes[n].st = .fault) then
          t.axes[n].st = .fault ∧ t.g (AX_FAULT_BITS n) = u.g (AX_FAULT_BITS n) ||| 16
        else (t.axes[n].st = .fault ↔ u.axes[n].st = .fault) ∧ t.g (AX_FAULT_BITS n) = u.g (AX_FAULT_BITS n)) ∧
      t.level 22 i = true) ∧
  (∀ (s : State) (dt : Nat) (i : Fin 4) (k : Fin 2) (held : Nat),
    let u := s.tickTo dt
    ∃ t, Machine.exec (if k = 0 then .tripRelease dt ⟨i, held⟩ else .tripAssert dt ⟨i, held⟩) s = .next t ∧
      (held < u.tripFilt i ∨ (k = 1 ∧ u.tripPins = false) → u.sameBut t []) ∧
      (u.tripFilt i ≤ held → k = 0 ∨ (u.tripPins = true ∧ u.gBit PWR_TRIP_STAT_LATCH i = true) →
        u.sameBut t [0x184] ∧ t.gBit PWR_TRIP_STAT_LVL i = decide (k = 1) ∧ t.g PWR_TRIP_STAT_LATCH = u.g PWR_TRIP_STAT_LATCH ∧
        ∀ j : Fin 4, j ≠ i → t.gBit PWR_TRIP_STAT_LVL j = u.gBit PWR_TRIP_STAT_LVL j)) ∧
  (∀ (s : State) (dt : Nat) (lk : Link) (mask : BitVec 4),
    let u := (s.tickTo dt).hostBegin
    u.reaches 0x185 = true →
    ∃ t, Machine.exec (.tripClear dt lk mask) s = .next t ∧
      (u.unarm lk).sameBut t ([0x184, 0x186, 0x188, 0x189, 0x18A, 0x18B, 0x18C, 0x18D, 0x18E, 0x18F] ++ (List.range 8).map (0x86B + 0x100 * ·)) ∧
      t.g PWR_TRIP_STAT_LVL = u.g PWR_TRIP_STAT_LVL ∧
      ∀ i : Fin 4, if mask.getLsbD i = false then
          t.gBit PWR_TRIP_STAT_LATCH i = u.gBit PWR_TRIP_STAT_LATCH i ∧ t.g (PWR_TRIP_CNT_REFUSED i) = u.g (PWR_TRIP_CNT_REFUSED i) ∧
          t.word (0x188 + i.val) = u.word (0x188 + i.val)
        else if u.gBit PWR_TRIP_STAT_LVL i = true then
          t.gBit PWR_TRIP_STAT_LATCH i = u.gBit PWR_TRIP_STAT_LATCH i ∧
          (if bit (u.gWas PWR_TRIP_STAT_LVL) i = true then
            t.word (0x188 + i.val) = u.word (0x188 + i.val) ∧ t.g (PWR_TRIP_CNT_REFUSED i) = min (u.g (PWR_TRIP_CNT_REFUSED i) + 1) 255
          else t.g (PWR_TRIP_CNT_REFUSED i) = u.g (PWR_TRIP_CNT_REFUSED i) ∧
            if u.latchWas i = true then t.gb (PWR_TRIP_CAP_VALID i) = true ∧ t.g (PWR_TRIP_TS_TS i) = u.now % 2 ^ 32
            else t.word (0x188 + i.val) = u.word (0x188 + i.val))
        else t.gBit PWR_TRIP_STAT_LATCH i = false ∧ t.word (0x188 + i.val) = 0 ∧ t.g (PWR_TRIP_CNT_REFUSED i) = u.g (PWR_TRIP_CNT_REFUSED i) ∧
          t.level 22 i = false) ∧
  (∀ (s : State) (dt : Nat) (lk : Link),
    let u := (s.tickTo dt).hostBegin
    u.reaches 0x185 = true →
    ∃ t, Machine.exec (.tripCntClr dt lk) s = .next t ∧
      (u.unarm lk).sameBut t [0x186] ∧ ∀ i : Fin 4, t.g (PWR_TRIP_CNT_REFUSED i) = u.g (PWR_TRIP_CNT_REFUSED i) - u.gWas (PWR_TRIP_CNT_REFUSED i)) ∧
  (∀ (s : State) (dt : Nat) (n : Fin 8) (since : Nat),
    let u := s.tickTo dt
    let b := u.axes[n].bd
    u.bdWatch n = true → u.gb (AX_BD_STAT_ACTIVE n) = false → u.gb (AX_BD_STAT_NOSRC n) = false → b.above = some since →
    since + msCyc (max 1 (u.g (AX_BD_CFG_BD_TIME n))) ≤ u.now →
    ∃ t, Machine.exec (.backdriveEpisodeStart dt n) s = .next t ∧
      (u.ax n fun a => { a with bd := { a.bd with start := u.now, peak := b.mag } }).sameBut t [0x87D + 0x100 * n.val, 0x87E + 0x100 * n.val, 0x800 + 0x100 * n.val] ∧
      t.gb (AX_BD_STAT_ACTIVE n) = true ∧ t.gi (AX_BD_TRAVEL_TRAVEL n) = satS 32 b.travel ∧ t.evPending 34 = true ∧
      t.g (AX_STATE_REF n) = (if u.g (AX_PINSTAT_FB_ACT n) = 0 then 0 else u.g (AX_STATE_REF n)) ∧
      t.g (AX_BD_STAT_EPISODES n) = u.g (AX_BD_STAT_EPISODES n)) ∧
  (∀ (s : State) (dt : Nat) (n : Fin 8) (since : Nat),
    let u := s.tickTo dt
    let b := u.axes[n].bd
    u.bdWatch n = true → b.below = some since → since + msCyc (max 1 (u.g (AX_BD_CFG_BD_QUIET n))) ≤ u.now →
    ∃ t, Machine.exec (.backdriveEpisodeEnd dt n) s = .next t ∧
      (u.gb (AX_BD_STAT_ACTIVE n) = false → u.sameBut t []) ∧
      (u.gb (AX_BD_STAT_ACTIVE n) = true →
        ({ u.ax n (fun a => { a with bd := { BackdriveSt.init with at_ := b.at_, late := b.late, v := b.v } }) with surv := t.surv, mbox := t.mbox }).sameBut t
          ([0x87D + 0x100 * n.val, 0x1000012] ++ mboxWords) ∧
        t.gb (AX_BD_STAT_ACTIVE n) = false ∧ t.gb (AX_BD_STAT_DIR n) = decide (b.travel < 0) ∧ t.g (AX_BD_STAT_PEAK n) = min b.peak 65535 ∧
        t.g (AX_BD_STAT_EPISODES n) = min (u.g (AX_BD_STAT_EPISODES n) + 1) 255 ∧
        u.booked t 0x21 ([n.val, b2n b.alias_] ++ beBytes 2 (min b.peak 65535) ++ beBytes 2 (min ((u.now - b.start) / 400000) 65535) ++ beBytes 6 (pat 48 b.travel)))) ∧
  (∀ (s : State) (dt : Nat) (n : Fin 8) (stop : Bool),
    let u := s.tickTo dt
    let b := u.axes[n].bd
    (u.bdWatch n = false ∨
      (stop = false ∧ (u.gb (AX_BD_STAT_ACTIVE n) = true ∨ u.gb (AX_BD_STAT_NOSRC n) = true ∨ ∀ x ∈ b.above, u.now - x < msCyc (max 1 (u.g (AX_BD_CFG_BD_TIME n))))) ∨
      (stop = true ∧ ∀ x ∈ b.below, u.now - x < msCyc (max 1 (u.g (AX_BD_CFG_BD_QUIET n))))) →
    ∃ t, Machine.exec (if stop then .backdriveEpisodeEnd dt n else .backdriveEpisodeStart dt n) s = .next t ∧ u.sameBut t [])

/-- OBS_CAL_GO, OBS_CAL_STILL_END, OBS_CAL_COMPLETE, OBS_CAL_ABORT, OBS_CAL_TIMEOUT, OBS_CNT_CLR (R360 to R365). -/
def Obligations.ObserverCalibration : Prop :=
  (∀ (s : State) (dt : Nat) (lk : Link) (n : Fin 8),
    let u := (s.tickTo dt).hostBegin
    u.reaches (0x87F + 0x100 * n.val) = true →
    ∃ t, Machine.exec (.obsCalGo dt lk n) s = .next t ∧
      (if u.gb (AX_OBS_CALSTAT_BUSY n) then u.unarm lk else (u.unarm lk).ax n fun a => { a with calgo := true }).sameBut t []) ∧
  (∀ (s : State) (dt : Nat) (lk : Link) (n : Fin 8) (k : Fin 4) (c : CalSt),
    let u := if k = 0 then (s.tickTo dt).hostBegin else s.tickTo dt
    u.axes[n].obs.cal = some c → (k = 0 → u.reaches (0x87F + 0x100 * n.val) = true) → (k = 1 → c.phase = 2 ∧ c.keDone = true ∧ c.hfDone = true) →
    (k = 2 → c.phase = 2 ∧ (c.keDone && c.hfDone) = false ∧ c.t0 + msCyc (1000 * max 1 (u.g (AX_OBS_CAL_TO n))) ≤ u.now) →
    (k = 3 → c.phase = 1 ∧ c.gaps = c.all ∧ c.t0 + 80000000 ≤ u.now) →
    ∃ t, Machine.exec (if k = 0 then .obsCalAbort dt lk n else if k = 1 then .obsCalComplete dt n else if k = 2 then .obsCalTimeout dt n else .obsCalStillEnd dt n) s = .next t ∧
      (let v := if k = 0 then u.unarm lk else u
      let res := if k = 0 then 3 else if k = 1 then 1 else if k = 2 then 4 else 6
      ({ v.ob n (fun o => { o with cal := none }) with surv := t.surv }).sameBut t [0x880 + 0x100 * n.val, 0x1000012] ∧
      t.gb (AX_OBS_CALSTAT_BUSY n) = false ∧ t.g (AX_OBS_CALSTAT_PHASE n) = 0 ∧ t.g (AX_OBS_CALSTAT_RESULT n) = res ∧ t.evPending 39 = true ∧
      u.booked t 0x23 ([n.val, res] ++ beBytes 2 (u.g (AX_OBS_EMF_KE n)) ++ beBytes 2 (u.g (AX_OBS_HF_HF_GAIN n)) ++
        beBytes 2 (u.g (AX_OBS_HF_HF_OFS n)) ++ [u.g (AX_OBS_HFREF_PHASE n)]))) ∧
  (∀ (s : State) (dt : Nat) (n : Fin 8) (c : CalSt),
    let u := s.tickTo dt
    let k : Int := (max 1 c.ticks : Nat)
    let i := rdiv (2 * c.sumI) k
    let q := rdiv (2 * c.sumC) k
    let mag := isqrt (i.natAbs ^ 2 + q.natAbs ^ 2)
    let small := decide (mag * 4096 * 8 < u.g (AX_SEQ_STAT_AMP n) * u.carAmp n * 256)
    u.axes[n].obs.cal = some c → c.phase = 1 → c.gaps ≠ c.all → c.t0 + 80000000 ≤ u.now →
    ∃ t, Machine.exec (.obsCalStillEnd dt n) s = .next t ∧
      ({ u with axes := t.axes, staged := t.staged, surv := t.surv }).sameBut t [0x872 + 0x100 * n.val, 0x873 + 0x100 * n.val, 0x880 + 0x100 * n.val, 0x1000012] ∧
      (small = true → t.axes[n].obs.cal = none ∧ t.g (AX_OBS_CALSTAT_RESULT n) = 5 ∧ t.staged = u.staged ∧ t.evPending 39 = true ∧ u.keepsWords t [0x880 + 0x100 * n.val, 0x1000012]) ∧
      (small = false →
        t.g (AX_OBS_HFREF_PHASE n) = ((atan2u q i 64) % 256).toNat ∧ t.gSt (AX_OBS_HFREF_PHASE n) = ((atan2u q i 64) % 256).toNat ∧
        t.g (AX_OBS_HFREF_D0 n) = min 65535 (mag / 16) ∧ t.g (AX_OBS_HF_HF_GAIN n) = u.g (AX_OBS_HF_HF_GAIN n) ∧
        (u.gb (AX_OBS_CAL_MODE n) = true → t.axes[n].obs.cal = some { c with phase := 2 } ∧ t.g (AX_OBS_CALSTAT_PHASE n) = 2 ∧ t.surv = u.surv) ∧
        (u.gb (AX_OBS_CAL_MODE n) = false → t.axes[n].obs.cal = none ∧ t.g (AX_OBS_CALSTAT_RESULT n) = 2 ∧ t.gb (AX_OBS_CALSTAT_BUSY n) = false ∧ t.evPending 39 = true)) ∧
      ∀ x : Fin 8, x ≠ n → t.axes[x] = u.axes[x]) ∧
  (∀ (s : State) (dt : Nat) (lk : Link) (n : Fin 8) (k : Fin 4),
    let u := if k = 0 then (s.tickTo dt).hostBegin else s.tickTo dt
    (k = 0 → u.reaches (0x87F + 0x100 * n.val) = true ∧ u.axes[n].obs.cal = none) → (k ≠ 0 → ∀ c ∈ u.axes[n].obs.cal,
      (k = 1 → c.phase ≠ 2 ∨ (c.keDone && c.hfDone) = false) ∧
      (k = 2 → c.phase ≠ 2 ∨ (c.keDone && c.hfDone) = true ∨ u.now - c.t0 < msCyc (1000 * max 1 (u.g (AX_OBS_CAL_TO n)))) ∧
      (k = 3 → c.phase ≠ 1 ∨ u.now - c.t0 < 80000000)) →
    ∃ t, Machine.exec (if k = 0 then .obsCalAbort dt lk n else if k = 1 then .obsCalComplete dt n else if k = 2 then .obsCalTimeout dt n else .obsCalStillEnd dt n) s = .next t ∧
      (if k = 0 then u.unarm lk else u).sameBut t []) ∧
  (∀ (s : State) (dt : Nat) (lk : Link) (n : Fin 8),
    let u := (s.tickTo dt).hostBegin
    u.reaches (AX_OBS_CNT_GAP n).a = true →
    ∃ t, Machine.exec (.obsCntClr dt lk n) s = .next t ∧ (u.unarm lk).sameBut t [(AX_OBS_CNT_GAP n).a] ∧
      ∀ f ∈ [AX_OBS_CNT_GAP n, AX_OBS_CNT_HF_LOST n], t.g f = u.g f - u.gWas f)

/-- ENCODER_TRANSITION, INDEX_MARK, ENCODER_STANDSTILL, SSI_REQUEST, SSI_AUTO_REQUEST, SSI_WORD_DONE, SSI_RECOVERY_END, ENC_FAULT_CLEAR,
DP_CNT_CLR, DIRCHK_RESTART (R367 to R393). -/
def Obligations.DatumPort : Prop :=
  (∀ (s : State) (dt : Nat) (n : Fin 8) (la lb : Stood),
    let u := s.tickTo dt
    let d := u.axes[n].dp
    let a := if u.dfilt n la.held = true then la.high else d.a
    let b := if u.dfilt n lb.held = true then lb.high else d.b
    let act := u.flPins = true ∧ u.g (AX_PINSTAT_FB_ACT n) = 1 ∧ u.gb (AX_DP_STAT_MW_HOLD n) = false
    let k : Int := if a = d.a then (if b = a then 1 else -1) else if a = b then -1 else 1
    let k := if u.gb (AX_DP_CFG_CNT_INV n) then -k else k
    ∃ t, Machine.exec (.encoderTransition dt n la lb) s = .next t ∧
      (¬ act ∨ (a = d.a ∧ b = d.b) → (u.dpt n fun d => { d with a := a, b := b }).sameBut t []) ∧
      (act → a ≠ d.a → b ≠ d.b →
        ({ u with axes := t.axes, surv := t.surv }).sameBut t [0x88E + 0x100 * n.val, 0x895 + 0x100 * n.val, 0x1000012] ∧
        t.axes[n].dp.c = d.c ∧ t.g (AX_DP_CNT_QERR n) = min (u.g (AX_DP_CNT_QERR n) + 1) 255 ∧
        (u.gb (AX_DP_CFG_QERR_ACT n) = true → t.gb (AX_DP_STAT_ENC_FLT n) = true ∧ t.gBit (AX_DP_STAT_FLT_CAUSE n) 2 = true) ∧
        (u.gb (AX_DP_CFG_QERR_ACT n) = false → t.word (0x88E + 0x100 * n.val) = u.word (0x88E + 0x100 * n.val) ∧ t.surv = u.surv)) ∧
      (act → ((a ≠ d.a ∧ b = d.b) ∨ (a = d.a ∧ b ≠ d.b)) →
        ({ u with axes := t.axes, surv := t.surv, mbox := t.mbox, free := t.free }).sameBut t ([0x88E + 0x100 * n.val, 0x895 + 0x100 * n.val, 0x1000012] ++ mboxWords) ∧
        t.axes[n].dp.c = wrap48 (d.c + k) ∧ t.axes[n].dp.a = a ∧ t.axes[n].dp.b = b ∧ t.g (AX_DP_CNT_QERR n) = u.g (AX_DP_CNT_QERR n) ∧
        (d.inRun = false → u.gb (AX_DP_STAT_STILL n) = false → t.axes[n].dp.inRun = true ∧ t.axes[n].dp.x = wrap48 (d.c + k) ∧ t.axes[n].dp.lastT = u.now ∧
          t.gb (AX_DP_STAT_DIR n) = decide (k < 0) ∧ t.gb (AX_DP_STAT_SPEED_VALID n) = false) ∧
        (u.idxPeriod n = none → t.free = u.free ∧ t.mbox = u.mbox ∧ t.surv = u.surv ∧ u.keepsWords t [0x88E + 0x100 * n.val])) ∧
      (∀ x : Fin 8, x ≠ n → t.axes[x] = u.axes[x]) ∧ t.axes[n].pos = u.axes[n].pos ∧ t.axes[n].st = u.axes[n].st) ∧
  (∀ (s : State) (dt : Nat) (n : Fin 8) (held : Nat),
    let u := s.tickTo dt
    let d := u.axes[n].dp
    let act := u.dfilt n held = true ∧ u.flPins = true ∧ u.g (AX_PINSTAT_FB_ACT n) = 1 ∧ u.g (AX_PINSTAT_FB2_ACT n) = 1 ∧ u.gb (AX_DP_STAT_MW_HOLD n) = false
    ∃ t, Machine.exec (.indexMark dt ⟨n, held⟩) s = .next t ∧
      (¬ act → u.sameBut t []) ∧
      (act →
        ({ u with axes := t.axes, surv := t.surv, mbox := t.mbox }).sameBut t ([0x88E, 0x891, 0x892, 0x895].map (· + 0x100 * n.val) ++ [0x1000012] ++ mboxWords) ∧
        (∀ x : Fin 8, x ≠ n → t.axes[x] = u.axes[x]) ∧
        t.g (AX_DP_IDX_IDXCNT n) = pat 32 d.c ∧ t.axes[n].dp.idxCap = some d.c ∧ t.axes[n].dp.idxN = d.idxN + 1 ∧
        t.gb (AX_DP_STAT_IDX_MISSING n) = false ∧
        (u.idxPeriod n = none → t.axes[n].dp = { d with idxCap := some d.c, idxTs := u.now, idxN := d.idxN + 1, cm := d.c } ∧ u.keepsWords t [0x88E + 0x100 * n.val, 0x891 + 0x100 * n.val]) ∧
        (∀ k ∈ u.idxPeriod n, t.gb (AX_DP_STAT_IDX_MISSING n) = false ∧
          (d.ci = none → t.axes[n].dp.ci = some d.c ∧ t.axes[n].dp.c = d.c) ∧
          (∀ r ∈ d.ci,
            let δ := centred (wrap48 (d.c - r)) k
            if δ.natAbs ≤ u.g (AX_DP_CFG_TOL n) then
              t.gb (AX_DP_STAT_IDX_MISMATCH n) = false ∧ t.g (AX_DP_STAT_MIS_CONSEC n) = 0 ∧ t.axes[n].dp.c = d.c ∧ t.g (AX_DP_CNT_IDX_MIS n) = u.g (AX_DP_CNT_IDX_MIS n)
            else
              t.gb (AX_DP_STAT_IDX_MISMATCH n) = true ∧ t.gi (AX_DP_IDXERR_DELTA n) = satS 16 δ ∧
              t.g (AX_DP_CNT_IDX_MIS n) = min (u.g (AX_DP_CNT_IDX_MIS n) + 1) 255 ∧ t.evPending 35 = true ∧
              t.axes[n].dp.c = (if u.gb (AX_DP_CFG_REDATUM n) then wrap48 (d.c - δ) else d.c))))) ∧
  (∀ (s : State) (dt : Nat) (n : Fin 8),
    let u := s.tickTo dt
    let d := u.axes[n].dp
    let due := u.flOn = true ∧ u.g (AX_PINSTAT_FB_ACT n) = 1 ∧ u.gb (AX_DP_STAT_STILL n) = false ∧ msCyc (max 1 (u.g (AX_DP_CFG_STILL_TO n))) ≤ u.now - d.lastT
    ∃ t, Machine.exec (.encoderStandstill dt n) s = .next t ∧
      (¬ due → u.sameBut t []) ∧
      (due → (u.dpt n fun d => { d with inRun := false, runTs := [], runN := 0, x := d.c, spdNum := 0, spdDen := 1 }).sameBut t [0x88E + 0x100 * n.val] ∧
        t.word (0x88E + 0x100 * n.val) = ((u.put (AX_DP_STAT_STILL n) 1).put (AX_DP_STAT_SPEED_VALID n) 1).word (0x88E + 0x100 * n.val))) ∧
  (∀ (s : State) (dt : Nat) (lk : Link) (n : Fin 8) (high auto : Bool),
    let u := if auto then s.tickTo dt else (s.tickTo dt).hostBegin
    let d := u.axes[n].dp
    let v := if auto then u.dpt n (fun d => { d with autoDue := false }) else u.unarm lk
    let hold := u.gb (AX_DP_STAT_MW_HOLD n)
    let busy := u.gb (AX_DP_STAT_SSI_BUSY n)
    (auto = false → u.reaches (0x88D + 0x100 * n.val) = true) →
    ∃ t, Machine.exec (if auto then .ssiAutoRequest dt n high else .ssiRequest dt lk n high) s = .next t ∧
      (if (auto = true ∧ d.autoDue = false) ∨ u.g (AX_PINSTAT_FB_ACT n) ≠ 2 then (if auto ∧ d.autoDue = false then u else v).sameBut t []
      else if hold = true ∨ busy = true then
        v.sameBut t [0x895 + 0x100 * n.val] ∧
        t.g (AX_DP_CNT_SSI_DROP n) = (if hold = false ∧ d.ssiT0 = u.now ∧ d.ssiHost = auto then u.g (AX_DP_CNT_SSI_DROP n) else min (u.g (AX_DP_CNT_SSI_DROP n) + 1) 255)
      else if d.fBad = true ∧ d.ssiT0 = u.now ∧ d.ssiHost = auto then v.sameBut t []
      else if high then
        ((v.dpt n fun d => { d with
          fBad := false, ssiT0 := u.now, ssiHost := !auto, ssiRec := none,
          ssiEnd := some (u.now + (2 * u.ssiLen n + 3) * (5 * clampN 4 400 (u.g (AX_DP_SSI_CFG_CDIV n)))) }).put (AX_DP_STAT_SSI_BUSY n) 1).sameBut t []
      else
        ({ v with axes := t.axes, surv := t.surv }).sameBut t [0x88E + 0x100 * n.val, 0x895 + 0x100 * n.val, 0x1000012] ∧
        t.axes[n].dp.fBad = true ∧ t.axes[n].dp.fConsec = d.fConsec + 1 ∧ t.g (AX_DP_CNT_SSI_FERR n) = min (u.g (AX_DP_CNT_SSI_FERR n) + 1) 255 ∧
        t.gb (AX_DP_STAT_SSI_BUSY n) = false ∧ (d.fConsec = 2 → t.gBit (AX_DP_STAT_FLT_CAUSE n) 1 = true) ∧ ∀ x : Fin 8, x ≠ n → t.axes[x] = u.axes[x])) ∧
  (∀ (s : State) (dt : Nat) (n : Fin 8) (w : BitVec 32) (endBit : Bool),
    let u := s.tickTo dt
    let d := u.axes[n].dp
    let len := u.ssiLen n
    let x := w.toNat % 2 ^ len
    let x := if u.gb (AX_DP_SSI_CFG_GRAY n) then grayDecode len x else x
    let jump := d.wPrev.any fun q => u.g (AX_DP_SSI_JMAX_JMAX n) != 0 && decide (u.g (AX_DP_SSI_JMAX_JMAX n) < (sgn len (x + 2 ^ len - q % 2 ^ len)).natAbs)
    let done := d.ssiEnd.any fun e => decide (e ≤ u.now)
    ∃ t, Machine.exec (.ssiWordDone dt n w endBit) s = .next t ∧
      (done = false → u.sameBut t []) ∧
      (done = true → t.axes[n].dp.ssiEnd = none ∧ t.axes[n].dp.ssiRec = some u.now ∧ (∀ x : Fin 8, x ≠ n → t.axes[x] = u.axes[x]) ∧
        (u.gb (AX_DP_STAT_MW_HOLD n) = true → (u.dpt n fun d => { d with ssiEnd := none, ssiRec := some u.now }).sameBut t []) ∧
        (u.gb (AX_DP_STAT_MW_HOLD n) = false → endBit = true ∨ jump = true →
          ({ u with axes := t.axes, surv := t.surv }).sameBut t [0x88E + 0x100 * n.val, 0x895 + 0x100 * n.val, 0x1000012] ∧
          t.axes[n].dp.c = d.c ∧ t.axes[n].dp.wPrev = d.wPrev ∧ t.axes[n].dp.fBad = true ∧ t.g (AX_DP_CNT_SSI_FERR n) = min (u.g (AX_DP_CNT_SSI_FERR n) + 1) 255) ∧
        (u.gb (AX_DP_STAT_MW_HOLD n) = false → endBit = false → jump = false →
          ({ u with axes := t.axes }).sameBut t ([0x88E, 0x893, 0x894].map (· + 0x100 * n.val)) ∧
          t.g (AX_DP_SSI_WORD_WORD n) = x ∧ t.g (AX_DP_SSI_TS_TS n) = d.ssiT0 % 2 ^ 32 ∧ t.gb (AX_DP_STAT_WORD_OK n) = true ∧ t.axes[n].dp.wPrev = some x ∧
          (d.wPrev = none → t.axes[n].dp.c = x) ∧
          (∀ q ∈ d.wPrev, t.axes[n].dp.c =
            wrap48 (d.c + (if u.gb (AX_DP_CFG_CNT_INV n) then -1 else 1) * sgn len (x + 2 ^ len - q % 2 ^ len)))))) ∧
  (∀ (s : State) (dt : Nat) (n : Fin 8) (high : Bool),
    let u := s.tickTo dt
    let d := u.axes[n].dp
    let lapse := d.ssiRec.any fun e => high || decide (usCyc (max 1 (u.g (AX_DP_SSI_TIME_TREC n))) ≤ u.now - e)
    ∃ t, Machine.exec (.ssiRecoveryEnd dt n high) s = .next t ∧
      (lapse = false → u.sameBut t []) ∧
      (lapse = true → high = true →
        ((u.put (AX_DP_STAT_SSI_BUSY n) 0).dpt n fun d => { d with ssiRec := none, fConsec := if d.fBad then d.fConsec else 0 }).sameBut t []) ∧
      (lapse = true → high = false →
        ({ u with axes := t.axes, surv := t.surv }).sameBut t [0x88E + 0x100 * n.val, 0x895 + 0x100 * n.val, 0x1000012] ∧
        t.gb (AX_DP_STAT_SSI_BUSY n) = false ∧ t.axes[n].dp.ssiRec = none ∧ t.axes[n].dp.fBad = true ∧
        t.axes[n].dp.fConsec = (if d.fBad then d.fConsec else d.fConsec + 1) ∧ t.g (AX_DP_CNT_SSI_FERR n) = min (u.g (AX_DP_CNT_SSI_FERR n) + 1) 255 ∧
        ∀ x : Fin 8, x ≠ n → t.axes[x] = u.axes[x])) ∧
  (∀ (s : State) (dt : Nat) (lk : Link) (n : Fin 8) (k : Fin 3),
    let u := (s.tickTo dt).hostBegin
    u.reaches (0x88D + 0x100 * n.val) = true →
    let fresh := u.gb (AX_DP_STAT_ENC_FLT n) && u.gWas (AX_DP_STAT_ENC_FLT n) = 0
    let v := if fresh then u.unarm lk else ((u.unarm lk).put (AX_DP_STAT_ENC_FLT n) 0).put (AX_DP_STAT_FLT_CAUSE n) 0
    ∃ t, Machine.exec (if k = 0 then .encFaultClear dt lk n else if k = 1 then .dpCntClr dt lk n else .dirchkRestart dt lk n) s = .next t ∧
      (k = 0 → ((v.put (AX_DP_STAT_MIS_CONSEC n) 0).dpt n fun d => { d with fConsec := 0, ci := none, cm := d.c }).sameBut t []) ∧
      (k = 1 → (u.unarm lk).sameBut t [0x895 + 0x100 * n.val] ∧
        ∀ f ∈ [AX_DP_CNT_QERR n, AX_DP_CNT_SSI_DROP n, AX_DP_CNT_SSI_FERR n, AX_DP_CNT_IDX_MIS n], t.g f = u.g f - u.gWas f) ∧
      (k = 2 → (((u.unarm lk).put (AX_DP_STAT_DIRCHK n) 0).dpt n fun d => { d with dirP := none }).sameBut t []))

/-- SV_TRG, SURVEY_TICK_TRIGGER, AINTRG_EDGE, SURVEY_ROUND_START, SV_ITRG, SURVEY_INJECTED_TICK_TRIGGER, HOUSEKEEPING_DUE,
SURVEY_POWER_DOWN, SURVEY_STARTUP_DONE, SV_CNT_CLR (R402 to R409, R418). -/
def Obligations.SurveyTriggers : Prop :=
  (∀ (s : State) (dt : Nat) (lk : Link) (st : Fin 2) (k : Fin 8) (held : Nat),
    let u := s.survAt k dt
    let b := u.survBase lk k st
    let a := 0x100 * st.val
    let v := b.stations[st].sv
    let len := min 16 (u.g (ST_SV_CFG_REG_LEN st))
    u.survDue k st held → u.survIdle st → u.survDown st = false →
    ∃ t, Machine.exec (survTrigger k dt lk st held) s = .next t ∧
      (let w := t.stations[st].sv
      let run0 : ConvRun := { kind := 0, idx := 0, done := 0, sum := 0, sat := false, t := u.now }
      (survBit k = 0 →
        b.survBut t st [0x444 + a] ∧ t.gb (ST_SV_STAT_BUSY st) = true ∧
        t.g (ST_SV_STAT_ROUND st) = (if v.began then (u.g (ST_SV_STAT_ROUND st) + 1) % 65536 else u.g (ST_SV_STAT_ROUND st)) ∧
        (∀ x : Fin 36, x.val < 3 ∨ 16 ≤ x.val → kvGet w.ents (0x440 + a + x.val) (resetWord (0x440 + a + x.val)) = u.word (0x440 + a + x.val)) ∧
        w = { v with
          began := true, inRound := true, ents := w.ents, corr := v.corrNext.getD v.corr, corrNext := none
          run := some (if len = 0 then { run0 with kind := 2 } else run0)
          hkAt := if len = 0 then u.now else v.hkAt
          hkBegan := if len = 0 then u.now else v.hkBegan
          hkEnds := if len = 0 then true else v.hkEnds
          hkMo := if len = 0 then u.moistAsk st else v.hkMo }) ∧
      (survBit k = 1 →
        b.survBut t st [0x444 + a] ∧ t.word (0x444 + a) = ((u.put (ST_SV_STAT_INJ_BUSY st) 1).putB (ST_SV_STAT_CFG_ERR st) (u.gb (ST_SV_STAT_CFG_ERR st) || u.svInjBad st)).word (0x444 + a) ∧
        (∀ x : Fin 36, x.val < 3 ∨ 16 ≤ x.val → kvGet w.injEnts (0x440 + a + x.val) (resetWord (0x440 + a + x.val)) = u.word (0x440 + a + x.val)) ∧
        w = { v with injEnts := w.injEnts, run := some { run0 with kind := 1 } }) ∧
      (survBit k = 2 →
        (b.svu st fun v => { v with
          run := some { run0 with kind := 2 }, hkAt := u.now, hkBegan := u.now, hkDue := false, hkEnds := false, hkMo := u.moistAsk st }).sameBut t []))) ∧
  (∀ (s : State) (dt : Nat) (lk : Link) (st : Fin 2) (k : Fin 8) (held : Nat),
    let u := s.survAt k dt
    let b := u.survBase lk k st
    u.survDue k st held → u.survIdle st → u.survDown st = true →
    ∃ t, Machine.exec (survTrigger k dt lk st held) s = .next t ∧
      ((b.put (ST_SV_STAT_PWRDN st) 0).svu st fun v => { v with startup := some u.now, afterUp := 2 ^ survBit k }).sameBut t []) ∧
  (∀ (s : State) (dt : Nat) (lk : Link) (st : Fin 2) (k : Fin 8) (held : Nat),
    let u := s.survAt k dt
    let b := u.survBase lk k st
    let v := u.stations[st].sv
    u.survDue k st held → k.val < 3 → v.run ≠ none ∨ v.startup ≠ none →
    ∃ t, Machine.exec (survTrigger k dt lk st held) s = .next t ∧
      (if u.gb (ST_SV_STAT_TRG_PEND st) then b.put (ST_SV_CNT_TRG_OVR st) (min (u.g (ST_SV_CNT_TRG_OVR st) + 1) 255)
       else b.put (ST_SV_STAT_TRG_PEND st) 1).sameBut t []) ∧
  (∀ (s : State) (dt : Nat) (lk : Link) (st : Fin 2) (k : Fin 8) (r : ConvRun) (held : Nat),
    let u := s.survAt k dt
    let b := u.survBase lk k st
    let a := 0x100 * st.val
    let v := b.stations[st].sv
    u.survDue k st held → survBit k = 1 → v.run = some r → v.startup = none → r.done < 2 ^ (u.runEnt st r).avg →
    ∃ t, Machine.exec (survTrigger k dt lk st held) s = .next t ∧
      (let w := t.stations[st].sv
      (u.gb (ST_SV_STAT_INJ_BUSY st) = true →
        (if u.gb (ST_SV_STAT_ITRG_PEND st) then b.put (ST_SV_CNT_INJ_OVR st) (min (u.g (ST_SV_CNT_INJ_OVR st) + 1) 255)
         else b.put (ST_SV_STAT_ITRG_PEND st) 1).sameBut t []) ∧
      (u.gb (ST_SV_STAT_INJ_BUSY st) = false →
        b.survBut t st [0x444 + a, 0x445 + a] ∧ t.word (0x444 + a) = ((u.put (ST_SV_STAT_INJ_BUSY st) 1).putB (ST_SV_STAT_CFG_ERR st) (u.gb (ST_SV_STAT_CFG_ERR st) || u.svInjBad st)).word (0x444 + a) ∧
        t.word (0x445 + a) = (u.put (ST_SV_CNT_ABORTS st) (min (u.g (ST_SV_CNT_ABORTS st) + 1) 255)).word (0x445 + a) ∧
        (∀ x : Fin 36, x.val < 3 ∨ 16 ≤ x.val → kvGet w.injEnts (0x440 + a + x.val) (resetWord (0x440 + a + x.val)) = u.word (0x440 + a + x.val)) ∧
        w = { v with saved := some r, injEnts := w.injEnts, run := some { kind := 1, idx := 0, done := 0, sum := 0, sat := false, t := u.now } }))) ∧
  (∀ (s : State) (dt : Nat) (lk : Link) (st : Fin 2) (k : Fin 8) (held : Nat),
    let u := s.survAt k dt
    let b := u.survBase lk k st
    let v := u.stations[st].sv
    u.survDue k st held → 4 ≤ k.val → v.run = none → v.startup ≠ none → u.gb (ST_SV_STAT_PWRDN st) = false →
    ∃ t, Machine.exec (survTrigger k dt lk st held) s = .next t ∧
      (let held := survBit k = 1 ∧ (u.gb (ST_SV_STAT_INJ_BUSY st) = true ∨ bit v.afterUp 1 = true)
      (held → (if u.gb (ST_SV_STAT_ITRG_PEND st) then b.put (ST_SV_CNT_INJ_OVR st) (min (u.g (ST_SV_CNT_INJ_OVR st) + 1) 255)
         else b.put (ST_SV_STAT_ITRG_PEND st) 1).sameBut t []) ∧
      (¬ held → (b.svu st fun v => { v with afterUp := setBits v.afterUp (survBit k) 1 1 }).sameBut t []))) ∧
  (∀ (s : State) (dt : Nat) (lk : Link) (st : Fin 2) (r : ConvRun) (held : Nat),
    let u := s.tickTo dt
    u.survDue 7 st held → u.stations[st].sv.run = some r →
    ∃ t, Machine.exec (survTrigger 7 dt lk st held) s = .next t ∧ (if r.kind = 2 then u else u.svu st fun v => { v with hkDue := true }).sameBut t []) ∧
  (∀ (s : State) (dt : Nat) (lk : Link) (st : Fin 2) (k : Fin 8) (held : Nat),
    let u := s.survAt k dt
    let b := u.survBase lk k st
    k ≠ 2 → k ≠ 6 → (k = 0 ∨ k = 4 → u.reaches (0x443 + 0x100 * st.val) = true) → ¬ u.survDue k st held →
    (survBit k = 1 → ∀ r ∈ u.stations[st].sv.run, r.done < 2 ^ (u.runEnt st r).avg) →
    ∃ t, Machine.exec (survTrigger k dt lk st held) s = .next t ∧
      t.rest = { b.rest with stations := t.stations } ∧ t.now = b.now ∧ u.keepsWords t [] ∧
      (∀ x : Fin 2, t.stations[x] = u.stations[x] ∨ t.stations[x] = b.stations[x])) ∧
  (∀ (s : State) (dt : Nat) (held : Nat),
    let u := s.tickTo dt
    (∀ st : Fin 2, u.stations[st].sv.on = true ∧ u.survIdle st ∧ u.survDown st = false ∧ 1 ≤ u.g (ST_SV_CFG_REG_LEN st)) →
    ∃ t, Machine.exec (.aintrgEdge ⟨dt, held⟩) s = .next t ∧ (held < 16 → u.sameBut t []) ∧ (16 ≤ held →
      ({ u with stations := t.stations }).sameBut t [0x444, 0x544] ∧
      ∀ st : Fin 2, t.stations[st] = { u.stations[st] with sv := t.stations[st].sv } ∧
        if u.aintrgInj st = true ∨ u.aintrgReg st = true then
          t.stations[st].sv.run = some { kind := b2n (u.aintrgInj st), idx := 0, done := 0, sum := 0, sat := false, t := u.now } ∧
          t.gb (if u.aintrgInj st then ST_SV_STAT_INJ_BUSY st else ST_SV_STAT_BUSY st) = true
        else t.stations[st] = u.stations[st] ∧ t.word (0x444 + 0x100 * st.val) = u.word (0x444 + 0x100 * st.val))) ∧
  (∀ (s : State) (dt : Nat) (st : Fin 2),
    let u := s.tickTo dt
    let v := u.stations[st].sv
    ∃ t, Machine.exec (.surveyPowerDown dt st) s = .next t ∧
      (if v.on = true ∧ v.run = none ∧ v.startup = none ∧ u.survDown st = true ∧ u.g (ST_SV_TIME_PD_THR st) ≠ 0 then u.put (ST_SV_STAT_PWRDN st) 1 else u).sameBut t []) ∧
  (∀ (s : State) (dt : Nat) (st : Fin 2) (x : Nat),
    let u := s.tickTo dt
    let v := u.stations[st].sv
    let inj := u.gb (ST_SV_STAT_ITRG_PEND st) || bit v.afterUp 1
    let hk := v.hkDue || bit v.afterUp 2
    let reg := u.gb (ST_SV_STAT_TRG_PEND st) || bit v.afterUp 0
    v.startup = some x → 1 ≤ u.g (ST_SV_CFG_REG_LEN st) → 
    ∃ t, Machine.exec (.surveyStartupDone dt st) s = .next t ∧
      (let w := t.stations[st].sv
      let run0 : ConvRun := { kind := 0, idx := 0, done := 0, sum := 0, sat := false, t := u.now }
      (u.now - x < 2000 → u.sameBut t []) ∧
      (2000 ≤ u.now - x → u.survBut t st [0x444 + 0x100 * st.val] ∧ w.startup = none ∧
        (inj = true → w.run = some { run0 with kind := 1 } ∧ bit w.afterUp 1 = false ∧ t.gb (ST_SV_STAT_ITRG_PEND st) = false ∧ t.gb (ST_SV_STAT_INJ_BUSY st) = true) ∧
        (inj = false → ∀ r ∈ v.saved, w.run = some { r with t := u.now } ∧ w.saved = none) ∧
        (inj = false → v.saved = none → hk = true → w.run = some { run0 with kind := 2 } ∧ w.hkDue = false ∧ bit w.afterUp 2 = false) ∧
        (inj = false → v.saved = none → hk = false → reg = true → w.run = some run0 ∧ t.gb (ST_SV_STAT_BUSY st) = true ∧
          t.gb (ST_SV_STAT_TRG_PEND st) = (bit v.afterUp 0 && u.gb (ST_SV_STAT_TRG_PEND st)) ∧ bit w.afterUp 0 = false) ∧
        (inj = false → v.saved = none → hk = false → reg = false → w = { v with startup := none, idleAt := u.now })))) ∧
  (∀ (s : State) (dt : Nat) (st : Fin 2),
    let u := s.tickTo dt
    u.stations[st].sv.startup = none → ∃ t, Machine.exec (.surveyStartupDone dt st) s = .next t ∧ u.sameBut t []) ∧
  (∀ (s : State) (dt : Nat) (lk : Link) (st : Fin 2),
    let u := (s.tickTo dt).hostBegin
    u.reaches (0x443 + 0x100 * st.val) = true →
    ∃ t, Machine.exec (.svCntClr dt lk st) s = .next t ∧
      (if st = 0 then ((u.unarm lk).put XCHK_STAT_FAILS (u.g XCHK_STAT_FAILS - u.gWas XCHK_STAT_FAILS)) else u.unarm lk).sameBut t [0x445 + 0x100 * st.val] ∧
      ∀ f ∈ [ST_SV_CNT_TRG_OVR st, ST_SV_CNT_INJ_OVR st, ST_SV_CNT_ABORTS st, ST_SV_CNT_KEEP st], t.g f = u.g f - u.gWas f) ∧
  (∀ (s : State) (dt : Nat) (held : Nat),
    let u := s.tickTo dt
    (∀ st : Fin 2, (u.aintrgInj st = false ∧ u.aintrgReg st = false) ∨ (u.stations[st].sv.on = false ∧ u.stations[st].sv.run = none)) →
    ∃ t, Machine.exec (.aintrgEdge ⟨dt, held⟩) s = .next t ∧ u.sameBut t [])

/-- ID_PRESENCE_POLL, ID_LINE_PRESENT_READ, ID_RESCAN, ID_READ_DONE, ID_READ_RETRY, ID_CNT_CLR (R421 to R430). -/
def Obligations.IdentityBus : Prop :=
  (∀ (s : State) (dt : Nat) (ack : BitVec 8),
    let u := s.tickTo dt
    let due := (u.dev = .ready ∨ u.dev = .run ∨ u.dev = .safe) ∧ u.surveyorUp = true ∧ u.g MG_ID_CFG_POLL ≠ 0 ∧
      400000 * u.g MG_ID_CFG_POLL ≤ u.now - u.surv.idPollAt ∧ u.idHeld = false
    ∃ t, Machine.exec (.idPresencePoll dt ack) s = .next t ∧
      (¬ due → u.sameBut t []) ∧
      (due → ({ u with axes := t.axes, surv := { u.surv with idPollAt := u.now } }).sameBut t (0x1000402 :: (List.range 8).map (0x1000408 + ·) ++ (List.range 8).map (0x1000410 + ·)) ∧
        ∀ n : Fin 8,
          let m := u.axes[n].mon
          let was := u.gBit MG_ID_PRES_PRESENT n
          let seen := ack.getLsbD n
          if was = true ∧ u.g (MG_ID_AX_RESULT n) ≠ 3 then
            t.axes[n] = u.axes[n] ∧ t.gBit MG_ID_PRES_PRESENT n = was ∧ t.gBit MG_ID_PRES_PEND n = u.gBit MG_ID_PRES_PEND n
          else if seen then
            t.gBit MG_ID_PRES_PRESENT n = true ∧
            t.axes[n] = { u.axes[n] with mon := { m with misses := 0, since := if was then m.since else some u.now } } ∧
            (was = false → t.evPending 51 = true)
          else
            let gone := was && decide (1 ≤ m.misses)
            let drop := gone && !u.gb MG_ID_CFG_ABSENT_KEEP && !u.gBit PWR_MOIST_STAT_IDD_FAULT n && !m.image.isEmpty
            t.gBit MG_ID_PRES_PRESENT n = (was && !gone) ∧
            t.axes[n] = { u.axes[n] with mon := { m with
              misses := min 2 (m.misses + 1), since := if gone then none else m.since, pend := if drop then some [] else m.pend } } ∧
            (gone = true → t.evPending 51 = true) ∧ (drop = true → t.gBit MG_ID_PRES_PEND n = true))) ∧
  (∀ (s : State) (dt : Nat) (n : Fin 8),
    let u := s.tickTo dt
    let m := u.axes[n].mon
    let go := (m.since.any fun x => decide (20000000 ≤ u.now - x)) && u.surveyorUp && !m.reading && u.surv.mwCur != some (24 + n.val)
    ∃ t, Machine.exec (.idLinePresentRead dt n) s = .next t ∧
      (if go then u.ax n fun a => { a with mon := { m with since := none, reading := true, tries := 1, retryAt := none } } else u).sameBut t []) ∧
  (∀ (s : State) (dt : Nat) (lk : Link) (mask : BitVec 8),
    let u := (s.tickTo dt).hostBegin
    u.indAnswers 0x401 = true → u.indQ = [] → u.gb MG_SV_STAT_HALTED = false →
    ∃ t, Machine.exec (.idRescan dt lk mask) s = .next t ∧
      ({ (u.unarm lk).indRefetch 0x401 with axes := t.axes }).sameBut t [] ∧
      ∀ n : Fin 8, t.axes[n] =
        let m := u.axes[n].mon
        if mask.getLsbD n = false ∨ m.reading = true then u.axes[n]
        else if u.surv.mwCur = some (24 + n.val) then { u.axes[n] with mon := { m with since := some (u.now - 20000000) } }
        else { u.axes[n] with mon := { m with since := none, reading := true, tries := 1, retryAt := none } }) ∧
  (∀ (s : State) (dt : Nat) (n : Fin 8) (rd : IdRead),
    let u := s.tickTo dt
    let m := u.axes[n].mon
    m.reading = false ∨ m.retryAt ≠ none ∨ u.surveyorUp = false → ∃ t, Machine.exec (.idReadDone dt n rd) s = .next t ∧ u.sameBut t []) ∧
  (∀ (s : State) (dt : Nat) (n : Fin 8) (err : Bool),
    let u := s.tickTo dt
    let m := u.axes[n].mon
    let was := u.gBit MG_ID_PRES_PRESENT n
    m.reading = true → m.retryAt = none → u.surveyorUp = true →
    ∃ t, Machine.exec (.idReadDone dt n (if err then .busError else .absent)) s = .next t ∧
      ({ u with axes := t.axes }).sameBut t [0x1000402, 0x1000408 + n.val, 0x1000410 + n.val] ∧ (∀ x : Fin 8, x ≠ n → t.axes[x] = u.axes[x]) ∧
      t.g (MG_ID_AX_READS n) = min (u.g (MG_ID_AX_READS n) + 1) 255 ∧ t.g (MG_ID_AX_ERRS n) = min (u.g (MG_ID_AX_ERRS n) + 1) 255 ∧
      t.axes[n].mon.image = m.image ∧
      (err = false → t.g (MG_ID_AX_RESULT n) = 2 ∧ t.axes[n].mon.reading = false ∧ t.axes[n].mon.tries = 0 ∧ t.axes[n].mon.misses = min 2 (m.misses + 1) ∧
        t.gBit MG_ID_PRES_PRESENT n = (was && m.misses == 0) ∧ t.evPending 51 = true) ∧
      (err = true → t.gBit MG_ID_PRES_PRESENT n = true ∧ t.axes[n].mon.misses = 0 ∧
        (m.tries < 3 → t.g (MG_ID_AX_RESULT n) = u.g (MG_ID_AX_RESULT n) ∧ t.axes[n].mon.reading = true ∧ t.axes[n].mon.tries = m.tries + 1 ∧ t.axes[n].mon.retryAt = some u.now) ∧
        (3 ≤ m.tries → t.g (MG_ID_AX_RESULT n) = 3 ∧ t.axes[n].mon.reading = false ∧ t.axes[n].mon.retryAt = none ∧ t.evPending 51 = true))) ∧
  (∀ (s : State) (dt : Nat) (n : Fin 8) (b : List Byte) (k : Fin 3),
    let u := s.tickTo dt
    let m := u.axes[n].mon
    let magic := beAt b 0 4 == 0x4D4F4E55 && beAt b 4 1 == 1
    let crcOk := crc32 (nats (b.take 252)) == beAt b 0xFC 4
    let rangeOk := decide (∀ i : Fin 7, recRange b i = true)
    let res := if !magic then 4 else if !crcOk then 5 else if !rangeOk then 6 else 1
    m.reading = true → m.retryAt = none → u.surveyorUp = true → u.dev ≠ .configLoad →
    ∃ t, Machine.exec (.idReadDone dt n (.bytes b)) s = .next t ∧
      ({ u with axes := t.axes }).sameBut t [0x1000402, 0x1000408 + n.val, 0x1000410 + n.val] ∧ (∀ x : Fin 8, x ≠ n → t.axes[x] = u.axes[x]) ∧
      t.g (MG_ID_AX_READS n) = min (u.g (MG_ID_AX_READS n) + 1) 255 ∧ t.g (MG_ID_AX_ERRS n) = u.g (MG_ID_AX_ERRS n) ∧
      t.g (MG_ID_AX_RESULT n) = res ∧ t.gBit MG_ID_PRES_PRESENT n = true ∧
      t.axes[n] = { u.axes[n] with mon := { m with
        misses := 0, since := none, reading := false, tries := 0, retryAt := none, pend := if res = 1 then some b else m.pend } } ∧
      (res = 1 → t.gBit MG_ID_PRES_PEND n = true) ∧ (res ≠ 1 → t.evPending 51 = true)) ∧
  (∀ (s : State) (dt : Nat) (n : Fin 8),
    let u := s.tickTo dt
    let m := u.axes[n].mon
    let go := (m.retryAt.any fun x => decide (4000000 ≤ u.now - x)) && u.surveyorUp && u.surv.mwCur != some (24 + n.val)
    ∃ t, Machine.exec (.idReadRetry dt n) s = .next t ∧ (if go then u.ax n fun a => { a with mon := { m with retryAt := none } } else u).sameBut t []) ∧
  (∀ (s : State) (dt : Nat) (lk : Link),
    let u := (s.tickTo dt).hostBegin
    u.indAnswers 0x401 = true → u.indQ = [] → u.gb MG_SV_STAT_HALTED = false →
    ∃ t, Machine.exec (.idCntClr dt lk) s = .next t ∧
      ((u.unarm lk).indRefetch 0x401).sameBut t ((List.range 8).map (0x1000408 + ·)) ∧
      ∀ n : Fin 8, t.g (MG_ID_AX_READS n) = u.g (MG_ID_AX_READS n) - u.gWas (MG_ID_AX_READS n) ∧
        t.g (MG_ID_AX_ERRS n) = u.g (MG_ID_AX_ERRS n) - u.gWas (MG_ID_AX_ERRS n) ∧ t.g (MG_ID_AX_RESULT n) = u.g (MG_ID_AX_RESULT n)) ∧
  (∀ (s : State) (dt : Nat) (lk : Link) (mask : BitVec 8) (k : Bool),
    let u := (s.tickTo dt).hostBegin
    u.indAnswers 0x401 = true → u.indQ = [] → u.gb MG_SV_STAT_HALTED = true →
    ∃ t, Machine.exec (if k then .idRescan dt lk mask else .idCntClr dt lk) s = .next t ∧ ((u.unarm lk).indRefetch 0x401).sameBut t []) ∧
  (∀ (s : State) (dt : Nat) (lk : Link) (mask : BitVec 8) (k : Bool),
    let u := (s.tickTo dt).hostBegin
    u.answers = true → u.indAnswers 0x401 = false ∨ u.indQ ≠ [] →
    ∃ t, Machine.exec (if k then .idRescan dt lk mask else .idCntClr dt lk) s = .next t ∧
      (if u.indAnswers 0x401 = false then ((u.unarm lk).lnk lk fun k => { k with err := true }).sameBut t []
      else if 4 ≤ u.indQ.length then ((u.unarm lk).put DEV_ACCSTAT_IND_OVF (min (u.g DEV_ACCSTAT_IND_OVF + 1) 255)).sameBut t []
      else ({ u.unarm lk with indQ := t.indQ }).sameBut t [] ∧ t.indQ.dropLast = u.indQ ∧ t.indQ.getLast?.any (fun q => q.lk == lk && q.addr == 0x401) = true))

/-- SURVEY_CONVERSION_DONE, SURVEY_ENTRY_COMPLETE, HOUSEKEEPING_COMPLETE, XCHK_FAIL, SV_CAL_ZERO, SV_CAL_FULL, SV_CAL_READINGS_DONE,
SV_CAL_STORE (R400 to R416). -/
def Obligations.SurveyConversions : Prop :=
  (∀ (s : State) (dt : Nat) (st : Fin 2) (uv : BitVec 32),
    let u := s.tickTo dt
    (∀ r ∈ u.stations[st].sv.run, u.now < r.t + 80 * 2 ^ (u.runEnt st r).smp + 120 ∨ 2 ^ (u.runEnt st r).avg ≤ r.done) →
    ∃ t, Machine.exec (.surveyConversionDone dt st uv) s = .next t ∧ u.sameBut t []) ∧
  (∀ (s : State) (dt : Nat) (st : Fin 2) (uv : BitVec 32) (r : ConvRun),
    let u := s.tickTo dt
    let v := u.stations[st].sv
    let e := u.runEnt st r
    let raw := if e.reserved = true ∨ (e.ch = 19 ∧ e.sub = 8) then 0 else min 16383 (uv.toNat * 2 ^ e.gain * 16384 / (2400000 * e.att))
    let code := if 2 ≤ r.kind ∨ e.calNo = none then raw
      else
        let c := kvGet v.corr (4 * e.calNo.getD 0 + e.gain) (0, 16384)
        (clampI 0 16383 (rdiv ((16 * (raw : Int) - c.1) * c.2) 262144)).toNat
    let r' : ConvRun := { r with done := r.done + 1, sum := r.sum + code, sat := r.sat || raw == 0 || raw == 16383, t := u.now }
    v.run = some r → r.t + 80 * 2 ^ e.smp + 120 ≤ u.now → r.done < 2 ^ e.avg →
    ∃ t, Machine.exec (.surveyConversionDone dt st uv) s = .next t ∧
      (let w := t.stations[st].sv
      (r.kind ≠ 2 → v.hkDue = false → (u.svu st fun v => { v with run := some r' }).sameBut t []) ∧
      (r.kind ≠ 2 → v.hkDue = true → r.done + 1 < 2 ^ e.avg →
        ((u.svu st fun v => { v with
          interp := some r', hkAt := u.now, hkBegan := u.now, hkDue := false, hkEnds := false, hkMo := u.moistAsk st
          run := some { kind := 2, idx := 0, done := 0, sum := 0, sat := false, t := u.now } }).put (ST_SV_CNT_KEEP st)
            (min (u.g (ST_SV_CNT_KEEP st) + 1) 255)).sameBut t []) ∧
      (r.kind = 2 → r.done + 1 < 2 ^ e.avg ∨ u.svHkLast st r = true → (u.svu st fun v => { v with run := some r' }).sameBut t []) ∧
      (r.kind = 2 → r.done + 1 = 2 ^ e.avg → u.svHkLast st r = false → e.dma = false →
        u.survBut t st [] ∧ w.run = some { kind := 2, idx := r.idx + 1, done := 0, sum := 0, sat := false, t := u.now } ∧
        (r.idx = 0 → w.vmb = satU 16 (((r.sum + code) * 2 * 67200 + 16384) / 32768) ∧ w.vchk = v.vchk ∧ w.ref = v.ref ∧ w.temps = v.temps) ∧
        (r.idx = 1 → w.vchk = some (satU 16 (((r.sum + code) * 2 * 67200 + 16384) / 32768)) ∧ w.vmb = v.vmb) ∧
        (r.idx = 2 → w.ref = r.sum + code ∧ w.vmb = v.vmb) ∧
        (3 ≤ r.idx ∧ r.idx < 6 → w.temps = v.temps.set (r.idx - 3) (Config.dieTemp (3 * st.val + (r.idx - 3)) (BitVec.ofNat 16 (r.sum + code))).toNat ∧
          w.vmb = v.vmb)))) ∧
  (∀ (s : State) (dt : Nat) (st : Fin 2),
    let u := s.tickTo dt
    (∀ r ∈ u.stations[st].sv.run, r.kind = 2 ∨ r.done < 2 ^ (u.runEnt st r).avg) →
    ∃ t, Machine.exec (.surveyEntryComplete dt st) s = .next t ∧ u.sameBut t []) ∧
  (∀ (s : State) (dt : Nat) (st : Fin 2) (r : ConvRun),
    let u := s.tickTo dt
    let v := u.stations[st].sv
    let e := u.runEnt st r
    let k := if r.kind = 1 then 16 + r.idx else r.idx
    let len := if r.kind = 1 then clampN 1 4 (bits (u.svHeld st true 0x40) 8 3) else min 16 (bits (u.svHeld st false 0x40) 3 5)
    let next : ConvRun := { kind := r.kind, idx := r.idx + 1, done := 0, sum := 0, sat := false, t := u.now }
    v.run = some r → r.kind ≤ 1 → r.idx < 16 → (r.kind = 1 → r.idx < 4) → 2 ^ e.avg ≤ r.done →
    ∃ t, Machine.exec (.surveyEntryComplete dt st) s = .next t ∧
      (let w := t.stations[st].sv
      t.g (ST_RES_VALUE st k) = min 65535 (r.sum / 2 ^ e.shift) ∧ t.gb (ST_RES_SAT st k) = r.sat ∧ t.g (ST_RES_ROUND st k) = u.g (ST_SV_STAT_ROUND st) % 2 ^ 15 ∧
      t.now = u.now ∧ t.dev = u.dev ∧ t.links = u.links ∧ t.cmds = u.cmds ∧ t.stored = u.stored ∧
      (r.idx + 1 < len → w.run = some next) ∧
      (r.kind = 0 → len ≤ r.idx + 1 → w.run = some { next with kind := 2, idx := 0 } ∧ w.hkEnds = true ∧ w.hkAt = u.now ∧ w.hkMo = u.moistAsk st) ∧
      (r.kind = 1 → len ≤ r.idx + 1 → u.gb (ST_SV_STAT_ITRG_PEND st) = false → bit v.afterUp 1 = false → t.gb (ST_SV_STAT_INJ_BUSY st) = false ∧
        ∀ q ∈ v.saved, w.run = some { q with t := u.now } ∧ w.saved = none) ∧
      (e.dma = false → 16 ≤ e.ch → r.idx + 1 < len →
        (u.svu st fun v => { v with run := some next }).sameBut t [(ST_RES_VALUE st k).a]) ∧
      (e.dma = true → u.heldRecs (if st = 0 then 3 else 4) < 512 →
        ((t.rings[if st = 0 then (3 : Fin 5) else 4]).recs.getLast?.map (·.toNat)) =
          some (svRec (u.g (ST_SV_STAT_ROUND st)) (r.kind == 1) false r.idx e r.sat (min 65535 (r.sum / 2 ^ e.shift)) r.t)))) ∧
  (∀ (s : State) (dt : Nat) (st : Fin 2),
    let u := s.tickTo dt
    (∀ r ∈ u.stations[st].sv.run, u.svHkLast st r = false ∨ r.done < 2 ^ (u.runEnt st r).avg) →
    ∃ t, Machine.exec (.housekeepingComplete dt st) s = .next t ∧ u.sameBut t []) ∧
  (∀ (s : State) (dt : Nat) (st : Fin 2) (r : ConvRun) (x y : Nat),
    let u := s.tickTo dt
    let v := u.stations[st].sv
    let o := u.stations[1 - st].sv
    let pair := decide (u.now - o.hkStart ≤ 800000)
    let d : Int := if st = 0 then (x : Int) - y else (y : Int) - x
    let near := fun (q : Nat) => (if q ≤ 8192 then 8192 - q else q - 8192) ≤ u.g XCHK_CFG_REF_TOL
    v.run = some r → r.kind = 2 → u.svHkLast st r = true → r.idx = 5 → 1 ≤ r.done → v.vchk = some x → o.vmx = some y →
    near v.ref → near o.ref → u.power.xdue = false → u.gb XCHK_STAT_FAIL = false →
    ∃ t, Machine.exec (.housekeepingComplete dt st) s = .next t ∧
      (let w := t.stations[st].sv
      let pass := decide (d.natAbs ≤ u.g XCHK_CFG_VM_TOL)
      t.now = u.now ∧ t.pending = u.pending ∧ t.stored = u.stored ∧ t.links = u.links ∧ w.vmx = some x ∧ w.hkStart = v.hkBegan ∧
      (pair = true → t.gb XCHK_STAT_LAST_OK = pass ∧
        (if pass = true then t.g XCHK_STAT_CONSEC = 0 ∧ t.g XCHK_STAT_FAILS = u.g XCHK_STAT_FAILS
        else t.g XCHK_STAT_CONSEC = min (u.g XCHK_STAT_CONSEC + 1) 15 ∧ t.g XCHK_STAT_FAILS = min (u.g XCHK_STAT_FAILS + 1) 255 ∧ t.gi XCHK_STAT_VMDIFF = satS 16 d ∧
          t.power.xdue = decide (max 1 (u.g XCHK_CFG_COUNT) ≤ min (u.g XCHK_STAT_CONSEC + 1) 15) ∧ (t.power.xdue = true → t.power.xbad = 0))) ∧
      (pair = false → t.g XCHK_STAT_CONSEC = u.g XCHK_STAT_CONSEC ∧ t.g XCHK_STAT_FAILS = u.g XCHK_STAT_FAILS) ∧
      (t.power.xdue = false →
        t.g (ST_HK_REF_REF st) = v.ref % 2 ^ 16 ∧ t.g (ST_HK_VM_VMX st) = x % 2 ^ 16 ∧ t.g (ST_HK_VM_VMB st) = v.vmb % 2 ^ 16 ∧ t.power.vms[st] = v.vmb ∧
        t.g (ST_HK_T01_T0 st) = v.temps.getD 0 0 % 2 ^ 16 ∧ t.g (ST_HK_T01_T1 st) = v.temps.getD 1 0 % 2 ^ 16 ∧
        (2 < v.temps.length → t.g (ST_HK_T2_T2 st) = (Config.dieTemp (3 * st.val + 2) (BitVec.ofNat 16 r.sum)).toNat)) ∧
      (t.power.xdue = true → t.g (ST_HK_VM_VMB st) = u.g (ST_HK_VM_VMB st) ∧ t.power.vms = u.power.vms) ∧
      (v.hkEnds = true → t.gb (ST_SV_STAT_BUSY st) = false ∨ v.cal = 0) ∧
      (v.hkEnds = true → v.cal ≠ 0 → w.run = some { kind := 3, idx := 0, done := 0, sum := 0, sat := false, t := u.now }) ∧
      (v.hkEnds = false → ∀ q ∈ v.interp, w.run = some { q with t := u.now } ∧ w.interp = none))) ∧
  (∀ (s : State) (dt : Nat),
    let u := s.tickTo dt
    ∃ t, Machine.exec (.xchkFail dt) s = .next t ∧
      (u.power.xdue = false → u.sameBut t []) ∧
      (u.power.xdue = true → t.gb XCHK_STAT_FAIL = true ∧ t.gb XCHK_STAT_BAD0 = bit u.power.xbad 0 ∧ t.gb XCHK_STAT_BAD1 = bit u.power.xbad 1 ∧ t.level 23 0 = true ∧
        t.power.xdue = false ∧
        (u.gb XCHK_CFG_XCHK_SAFE = false → (u.pw fun p => { p with xdue := false }).sameBut t [XCHK_STAT_FAIL.a]) ∧
        (u.gb XCHK_CFG_XCHK_SAFE = true → u.outlives t ∧ (u.dev ≠ .reset → u.dev ≠ .optionLoad → t.gBit DEV_STATE_SAFE_CAUSE 4 = true) ∧ (u.dev = .ready ∨ u.dev = .run → t.dev = .safe)))) ∧
  (∀ (s : State) (dt : Nat) (lk : Link) (st : Fin 2) (full : Bool),
    let u := (s.tickTo dt).hostBegin
    let ch := u.g (ST_CAL_CTL_CH st)
    let inp := bits (u.word (ST_CAL_CTL_CH st).a).toNat 0 11
    let listed := decide (ch < 16 ∨ (ch = 19 ∧ 3 ≤ u.g (ST_CAL_CTL_SUB st) ∧ u.g (ST_CAL_CTL_SUB st) ≤ 6))
    u.reaches (ST_CAL_CTL_CH st).a = true →
    ∃ t, Machine.exec (if full then .svCalFull dt lk st else .svCalZero dt lk st) s = .next t ∧
      (if u.gb (ST_CAL_STAT_BUSY st) then (u.unarm lk).sameBut t []
      else if listed = false ∨ (full = true ∧ (u.g (ST_CAL_STAT_STATE st) ≠ 1 ∨ inp ≠ u.stations[st].sv.calIn)) then
        ((u.unarm lk).put (ST_CAL_STAT_RESULT st) 2).sameBut t []
      else (((u.unarm lk).put (ST_CAL_STAT_BUSY st) 1).svu st fun v => { v with cal := 16, calFull := full, calSum := 0, calIn := inp }).sameBut t [])) ∧
  (∀ (s : State) (dt : Nat) (st : Fin 2),
    let u := s.tickTo dt
    let v := u.stations[st].sv
    let e := svEnt v.calIn
    let r : Int := v.calSum / 16
    let d := r - v.rz
    let num : Nat := u.g (ST_CAL_VFS_VFS st) * 2 ^ e.gain * 16384 * (16384 * 16)
    let gc : Int := rdiv num (2400000 * (e.att : Int) * d)
    let given := decide (0 < d ∧ gc < 65536)
    let ok := decide (65536 ≤ d ∧ v.rz.natAbs ≤ 1024 ∧ 15360 ≤ gc ∧ gc ≤ 17408)
    ∃ t, Machine.exec (.svCalReadingsDone dt st) s = .next t ∧
      (if u.gb (ST_CAL_STAT_BUSY st) = false ∨ v.cal ≠ 0 then u.sameBut t []
      else if v.calFull = false then (((u.put (ST_CAL_STAT_BUSY st) 0).put (ST_CAL_STAT_STATE st) 1).svu st fun v => { v with rz := r }).sameBut t []
      else
        u.useFree.survBut t st [(ST_CAL_STAT_BUSY st).a, (ST_CAL_RES_OFS st).a] ∧ t.gb (ST_CAL_STAT_BUSY st) = false ∧
        t.stations[st].sv = { v with rf := r, calOf := if ok then v.calIn else v.calOf } ∧
        (-32768 ≤ v.rz → v.rz < 32768 → t.gi (ST_CAL_RES_OFS st) = v.rz) ∧ (given = true → t.g (ST_CAL_RES_GC st) = gc.toNat) ∧
        t.g (ST_CAL_STAT_RESULT st) = (if ok then 1 else 3) ∧ t.g (ST_CAL_STAT_STATE st) = (if ok then 2 else 0))) ∧
  (∀ (s : State) (dt : Nat) (lk : Link) (st : Fin 2) (ok : Bool),
    let u := (s.tickTo dt).hostBegin
    let x := u.stations[st].sv.calOf
    let ch := bits x 0 5
    let i := if ch < 16 then ch else 16 + bits x 5 4 - 3
    let a := 0x20000 + 2 * (80 * st.val + 4 * i + bits x 9 2)
    let w0 := u.word (ST_CAL_RES_OFS st).a
    u.reaches (ST_CAL_CTL_CH st).a = true → ch < 16 ∨ (ch = 19 ∧ 3 ≤ bits x 5 4 ∧ bits x 5 4 ≤ 6) →
    ∃ t, Machine.exec (.svCalStore dt lk st ok) s = .next t ∧
      (if u.g (ST_CAL_STAT_STATE st) ≠ 2 ∨ u.g (ST_CAL_STAT_RESULT st) ≠ 1 then ((u.unarm lk).put (ST_CAL_STAT_RESULT st) 2).sameBut t []
      else if ok = false then ((u.unarm lk).put (ST_CAL_STAT_RESULT st) 4).sameBut t []
      else
        ({ ((u.unarm lk).put (ST_CAL_STAT_STATE st) 3).svu st (fun v => { v with corrNext := t.stations[st].sv.corrNext }) with
          nvm := { u.nvm with bench := t.nvm.bench }, boot := { u.boot with pulseEnd := u.now + 8000 } }).sameBut t [] ∧
        kvGet t.nvm.bench a 0xFFFFFFFF = w0 ∧ kvGet t.nvm.bench (a + 1) 0xFFFFFFFF = W (1 + crc16 (beBytes 4 w0.toNat) * 65536) ∧
        t.stations[st].sv.corrNext = some (t.corrections st)))

/-- PUSH, WAITTAG, WAITTAG_TIMEOUT, WAITIN, WAITIN_TIMEOUT, WAITTIME, WAITTIME_EXPIRY, BREV, LOOP, RAISE, HOME, SETREG, END (R442 to
R446). Commits of one cycle come after a link's (R233): what a commit does is DescriptorsCommitted's subject, and here the same function. -/
def Obligations.ProgramInstructions : Prop :=
  (∀ (s : State) (dt : Nat) (x : Fin 4) (k : Fin 10) (w1 w2 w3 : BitVec 64),
    let u := s.tickTo dt
    u.ctxTurn x = false ∨ u.ctxAt x (progWords k w1 w2 w3) = false → ∃ t, Machine.exec (progInstr k dt x w1 w2 w3) s = .next t ∧ u.sameBut t []) ∧
  (∀ (s : State) (dt : Nat) (x : Fin 4) (k : Fin 10) (w1 w2 w3 : BitVec 64),
    let u := s.tickTo dt
    u.ctxTurn x = true → u.ctxAt x (progWords k w1 w2 w3) = true → pLegal w1.toNat = false → kvGet u.ecc[0].bad (0x4000 + u.ctxs[x].pc) 0 = 0 →
    ∃ t, Machine.exec (progInstr k dt x w1 w2 w3) s = .next t ∧ (u.ctx x Ctx.ran).stopsCtx t x 5) ∧
  (∀ (s : State) (dt : Nat) (x : Fin 4) (k : Fin 10) (w1 w2 w3 : BitVec 64),
    let u := s.tickTo dt
    u.ctxTurn x = true → u.ctxAt x (progWords k w1 w2 w3) = true → pLegal w1.toNat = true → pOp w1.toNat = k.val + 1 → 4096 < u.ctxs[x].pc + (progWords k w1 w2 w3).length →
    ∃ t, Machine.exec (progInstr k dt x w1 w2 w3) s = .next t ∧ (u.ctx x Ctx.ran).stopsCtx t x 7) ∧
  (∀ (s : State) (dt : Nat) (x : Fin 4) (w1 w2 w3 : BitVec 64),
    let u := s.tickTo dt
    let v := u.ctx x Ctx.ran
    let r := bits w1.toNat 52 4
    let put := fun (m : RegFile) (i : Nat) (d : Word) => kvSet m (4 * r + i) d 0
    let d : Word × Word × Word × Word := (w2.extractLsb' 32 32, w2.extractLsb' 0 32, w3.extractLsb' 32 32, w3.extractLsb' 0 32)
    let c := (v.ctx x fun c => { c with stg := put (put (put (put c.stg 0 d.1) 1 d.2.1) 2 d.2.2.1) 3 d.2.2.2 }).commit (.prog x) r d
    u.ctxReady x 1 [w1.toNat, w2.toNat, w3.toNat] →
    ∃ t, Machine.exec (.push dt x w1 w2 w3) s = .next t ∧
      (16 ≤ u.ctxs[x].trk.length → v.stopsCtx t x 8) ∧
      (u.ctxs[x].trk.length < 16 → bit w1.toNat 46 = true → cmdDepth r ≤ u.fill r → v.waitsCtx t x .retry) ∧
      (u.ctxs[x].trk.length < 16 → bit w1.toNat 46 = false ∨ u.fill r < cmdDepth r →
        (c.2 = 0 → (c.1.ctx x fun c => { c with trk := c.trk ++ [(dTag d.1, u.nextId, none)] }).goesCtx t x (u.ctxs[x].pc + 3)) ∧
        (c.2 ≠ 0 → bit w1.toNat 45 = true → c.1.goesCtx t x (bits w1.toNat 32 12)) ∧
        (c.2 ≠ 0 → bit w1.toNat 45 = false → c.1.stopsCtx t x 2))) ∧
  (∀ (s : State) (dt : Nat) (x : Fin 4) (w1 : BitVec 64),
    let u := s.tickTo dt
    let v := u.ctx x Ctx.ran
    let tag := bits w1.toNat 32 10
    let since := match u.ctxs[x].wait with | .tag _ a | .inp a => a | _ => u.now
    let late := bits w1.toNat 0 16 ≠ 0 ∧ msCyc (bits w1.toNat 0 16) ≤ u.now - since
    u.ctxReady x 2 [w1.toNat] →
    ∃ t, Machine.exec (.waittag dt x w1) s = .next t ∧
      (let e := u.ctxs[x].trk.reverse.find? fun e => e.1 == tag
      (e = none → v.stopsCtx t x 9) ∧
      ∀ k ∈ e, (k.2.2 = none → late → v.failsCtx t x w1.toNat 3) ∧ (k.2.2 = none → ¬late → v.waitsCtx t x (.tag tag since)) ∧
        ∀ st ∈ k.2.2,
          let w := v.ctx x fun c => { c with trk := c.trk.filter fun e => e.2.1 != k.2.1, lastSt := st }
          if st = DONE ∨ st = DONE_LIMITED then w.goesCtx t x (u.ctxs[x].pc + 1) else w.failsCtx t x w1.toNat 3)) ∧
  (∀ (s : State) (dt : Nat) (x : Fin 4) (tag since : Nat) (w1 : BitVec 64),
    let u := s.tickTo dt
    let w := (kvGet u.store u.ctxs[x].pc 0).toNat
    let due := decide (u.ctxTurn x = true ∧ pOp w = 2 ∧ bits w 0 16 ≠ 0 ∧ msCyc (bits w 0 16) ≤ u.now - since ∧ ((u.ctxs[x].tracked tag).any fun e => e.2.2.isNone) = true)
    u.ctxs[x].wait = .tag tag since →
    ∃ t, Machine.exec (.waittagTimeout dt x) s = .next t ∧
      (due = true → (u.ctx x Ctx.ran).failsCtx t x w 3) ∧ (due = false → u.sameBut t [])) ∧
  (∀ (s : State) (dt : Nat) (x : Fin 4) (since : Nat) (w1 : BitVec 64),
    let u := s.tickTo dt
    let w := (kvGet u.store u.ctxs[x].pc 0).toNat
    let due := decide (u.ctxTurn x = true ∧ pOp w = 3 ∧ bits w 0 16 ≠ 0 ∧ msCyc (bits w 0 16) ≤ u.now - since ∧ u.ctxInput w = false)
    u.ctxs[x].wait = .inp since →
    ∃ t, Machine.exec (.waitinTimeout dt x) s = .next t ∧
      (due = true → (u.ctx x Ctx.ran).failsCtx t x w 4) ∧ (due = false → u.sameBut t [])) ∧
  (∀ (s : State) (dt : Nat) (x : Fin 4) (k : Fin 3),
    let u := s.tickTo dt
    u.ctxs[x].wait.kind ≠ k.val + 1 →
    ∃ t, Machine.exec (if k = 0 then .waittagTimeout dt x else if k = 1 then .waitinTimeout dt x else .waittimeExpiry dt x) s = .next t ∧ u.sameBut t []) ∧
  (∀ (s : State) (dt : Nat) (x : Fin 4) (w1 : BitVec 64),
    let u := s.tickTo dt
    let v := u.ctx x Ctx.ran
    let n : Fin 8 := Fin.ofNat 8 (bits w1.toNat 48 4)
    let sel := bits w1.toNat 44 4
    let src := bits w1.toNat 52 4
    let value := if src = 0 then bit (u.word (AX_PINSTAT_FB0_LVL n).a).toNat sel else if src = 1 then bit (u.axState n).toNat (4 + sel)
      else if src = 2 then bit u.tick.trip sel else u.axes[n].st.code == sel
    let since := match u.ctxs[x].wait with | .tag _ a | .inp a => a | _ => u.now
    let late := bits w1.toNat 0 16 ≠ 0 ∧ msCyc (bits w1.toNat 0 16) ≤ u.now - since
    u.ctxReady x 3 [w1.toNat] →
    ∃ t, Machine.exec (.waitin dt x w1) s = .next t ∧
      (if value = bit w1.toNat 43 then v.goesCtx t x (u.ctxs[x].pc + 1)
      else if late then v.failsCtx t x w1.toNat 4
      else v.waitsCtx t x (.inp since))) ∧
  (∀ (s : State) (dt : Nat) (x : Fin 4) (w1 : BitVec 64),
    let u := s.tickTo dt
    let v := u.ctx x Ctx.ran
    let k := bits w1.toNat 0 32
    let e := match u.ctxs[x].wait with | .time e => e | _ => 0
    u.ctxReady x 4 [w1.toNat] →
    ∃ t, Machine.exec (.waittime dt x w1) s = .next t ∧
      (u.ctxs[x].wait.kind ≠ 3 → if k = 0 then v.goesCtx t x (u.ctxs[x].pc + 1) else v.waitsCtx t x (.time (u.tick.no + k))) ∧
      (u.ctxs[x].wait.kind = 3 → if e ≤ u.tick.no then v.goesCtx t x (u.ctxs[x].pc + 1) else v.waitsCtx t x (.time e))) ∧
  (∀ (s : State) (dt : Nat) (x : Fin 4) (e : Nat),
    let u := s.tickTo dt
    u.ctxs[x].wait = .time e →
    ∃ t, Machine.exec (.waittimeExpiry dt x) s = .next t ∧
      (u.ctxTurn x = true → e ≤ u.tick.no → (u.ctx x Ctx.ran).goesCtx t x (u.ctxs[x].pc + 1)) ∧
      (u.ctxTurn x = false ∨ u.tick.no < e → u.sameBut t [])) ∧
  (∀ (s : State) (dt : Nat) (x : Fin 4) (w1 : BitVec 64),
    let u := s.tickTo dt
    let v := u.ctx x Ctx.ran
    let e := bits w1.toNat 48 6
    u.ctxReady x 5 [w1.toNat] →
    ∃ t, Machine.exec (.brev dt x w1) s = .next t ∧
      (u.ctxs[x].ev.getLsbD e = true → v.goesCtx t x (bits w1.toNat 32 12) ∧ (e ≠ 48 → e ≠ 49 → e ≠ 7 → t.ctxs[x].ev.getLsbD e = bit w1.toNat 44)) ∧
      (u.ctxs[x].ev.getLsbD e = false → v.goesCtx t x (u.ctxs[x].pc + 1)) ∧
      ∀ j : Fin 64, j.val ≠ e → u.ctxs[x].ev.getLsbD j = true → t.ctxs[x].ev.getLsbD j = true) ∧
  (∀ (s : State) (dt : Nat) (x : Fin 4) (w1 : BitVec 64),
    let u := s.tickTo dt
    let v := u.ctx x Ctx.ran
    let k : Fin 4 := Fin.ofNat 4 (bits w1.toNat 48 2)
    let count := bits w1.toNat 0 32
    let l := (if u.ctxs[x].lc[k] = 0 then count else u.ctxs[x].lc[k]) - 1
    let w := v.ctx x fun c => { c with lc := vupd c.lc k fun _ => l }
    u.ctxReady x 6 [w1.toNat] →
    ∃ t, Machine.exec (.loop dt x w1) s = .next t ∧
      (count = 0 → v.goesCtx t x (bits w1.toNat 32 12)) ∧
      (count ≠ 0 → l ≠ 0 → w.goesCtx t x (bits w1.toNat 32 12)) ∧ (count ≠ 0 → l = 0 → w.goesCtx t x (u.ctxs[x].pc + 1))) ∧
  (∀ (s : State) (dt : Nat) (x : Fin 4) (w1 : BitVec 64),
    let u := s.tickTo dt
    u.ctxReady x 7 [w1.toNat] →
    ∃ t, Machine.exec (.raise dt x w1) s = .next t ∧ (u.ctx x Ctx.ran).goesCtx t x (u.ctxs[x].pc + 1) ∧ t.evPending (56 + x.val) = true) ∧
  (∀ (s : State) (dt : Nat) (x : Fin 4) (w1 w2 : BitVec 64),
    let u := s.tickTo dt
    let v := u.ctx x Ctx.ran
    let r := bits w1.toNat 53 3
    let tag := bits w1.toNat 32 10
    let d := homeDesc w1.toNat w2.toNat
    let put := fun (m : RegFile) (i : Nat) (d : Word) => kvSet m (4 * r + i) d 0
    let c := (v.ctx x fun c => { c with stg := put (put (put (put c.stg 0 d.1) 1 d.2.1) 2 d.2.2.1) 3 d.2.2.2 }).commit (.prog x) r d
    let first := u.ctxs[x].wait.kind != 4
    u.ctxReady x 8 [w1.toNat, w2.toNat] →
    ∃ t, Machine.exec (.progHome dt x w1 w2) s = .next t ∧
      (first = true → 16 ≤ u.ctxs[x].trk.length → v.stopsCtx t x 8) ∧
      (first = true → u.ctxs[x].trk.length < 16 → 64 ≤ u.fill r → v.waitsCtx t x .retry) ∧
      (first = true → u.ctxs[x].trk.length < 16 → u.fill r < 64 → c.2 ≠ 0 → c.1.failsCtx t x w1.toNat 12) ∧
      (first = true → u.ctxs[x].trk.length < 16 → u.fill r < 64 → c.2 = 0 →
        (c.1.ctx x fun c => { c with trk := c.trk ++ [(tag, u.nextId, none)] }).waitsCtx t x (.homeTag tag)) ∧
      (first = false → u.ctxs[x].wait = .homeTag tag →
        let e := u.ctxs[x].trk.reverse.find? fun e => e.1 == tag
        (e = none → v.stopsCtx t x 9) ∧
        ∀ k ∈ e, (k.2.2 = none → v.waitsCtx t x (.homeTag tag)) ∧
          ∀ st ∈ k.2.2,
            let w := v.ctx x fun c => { c with trk := c.trk.filter fun e => e.2.1 != k.2.1, lastSt := st }
            if st = DONE ∨ st = DONE_LIMITED then w.goesCtx t x (u.ctxs[x].pc + 2) else w.failsCtx t x w1.toNat 12)) ∧
  (∀ (s : State) (dt : Nat) (x : Fin 4) (w1 : BitVec 64),
    let u := s.tickTo dt
    let v := u.ctx x Ctx.ran
    let a := bits w1.toNat 40 16
    let o := a % 0x100
    let ok := 0x800 ≤ a ∧ a < 0x1000 ∧ ((0x10 ≤ o ∧ o ≤ 0x21) ∨ o = 0x24 ∨ (0x26 ≤ o ∧ o ≤ 0x29) ∨ (0x41 ≤ o ∧ o ≤ 0x43) ∨ o = 0x75 ∨ o = 0x76)
    let w := if u.axBusy a then v else v.writeFields a (w1.extractLsb' 0 32) false false
    let w := if bit w1.toNat 39 then (w.strobeGroup (groupOf a)).put DEV_UPDATE_STAT_STROBES ((w.g DEV_UPDATE_STAT_STROBES + 1) % 65536) else w
    u.ctxReady x 9 [w1.toNat] →
    ∃ t, Machine.exec (.setreg dt x w1) s = .next t ∧ (if ok then w.goesCtx t x (u.ctxs[x].pc + 1) else v.stopsCtx t x 6)) ∧
  (∀ (s : State) (dt : Nat) (x : Fin 4) (w1 : BitVec 64),
    let u := s.tickTo dt
    u.ctxReady x 10 [w1.toNat] → ∃ t, Machine.exec (.progEnd dt x w1) s = .next t ∧ (u.ctx x Ctx.ran).stopsCtx t x 0)

/-- SEAL_COMMIT, SEAL_PROGRAM_DONE, UPD_BEGIN, UPD_WRITE, UPD_VERIFY, UPD_ACTIVATE, UPD_ABORT, UPD_REVOKE, UPD_OPERATION_DONE (R458 to
R468). -/
def Obligations.SealsAndUpdates : Prop :=
  (∀ (s : State) (dt : Nat) (lk : Link) (data : Word),
    let u := (s.tickTo dt).hostBegin
    let id := bits data.toNat 0 3
    let expect := bits data.toNat 8 5
    let v := (List.range (if id < 3 then 1 else if id = 3 ∨ id = 7 then 4 else 8)).map fun w => u.g (MG_SEAL_VAL_VAL w)
    let v0 := v.getD 0 0
    let ranged := if id = 0 then decide (1 ≤ v0 ∧ v0 ≤ 16) else if id = 1 then decide (v0 % 4 ≤ 2 ∧ v0 / 4 % 64 = 0 ∧ v0 / 512 = 0)
      else if id = 2 then decide (12000 ≤ v0 ∧ v0 ≤ 61000)
      else if id = 3 then v.all fun w => decide (100 ≤ w % 65536 ∧ w % 65536 ≤ 6000 ∧ 100 ≤ w / 65536 ∧ w / 65536 ≤ 6000) else true
    let res := if u.dev ≠ .ready ∧ u.dev ≠ .run ∧ u.dev ≠ .safe then 8 else if ranged = false then 3 else if expect ≠ u.otp.remain id then 4
      else if u.otp.remain id = 0 then 5 else if v = u.otp.value id then 6 else 1
    let q : SealReq := { id := id, val := v, src := fbSrc lk, hseq := (u.link lk).perfHseq }
    let b := (((u.unarm lk).indRefetch 0x100).put MG_SEAL_CTL_ID id).put MG_SEAL_CTL_EXPECT expect
    u.mgOpen 0x100 →
    ∃ t, Machine.exec (.sealCommit dt lk data) s = .next t ∧
      (if (u.link lk).armed = false then ((u.unarm lk).put DEV_ACCSTAT_KEY_REF (min (u.g DEV_ACCSTAT_KEY_REF + 1) 255)).sameBut t []
      else if data.getLsbD 16 = false ∨ u.gb MG_SEAL_STAT_BUSY = true then b.sameBut t []
      else if res = 1 then ((b.put MG_SEAL_STAT_BUSY 1).su fun x => { x with sealing := some q }).sameBut t []
      else
        ({ b with surv := t.surv }).sameBut t [0x1000101, 0x1000012] ∧ t.gb MG_SEAL_STAT_BUSY = false ∧ t.g MG_SEAL_STAT_RESULT = res ∧
        t.g MG_SEAL_STAT_ID_LAST = id ∧ t.evPending 53 = true ∧ t.surv.sealing = u.surv.sealing ∧
        u.booked t 0x30 ([id, 0xFF, u.otp.remain id, res] ++ beBytes 4 (sealRecVal id (u.otp.value id)) ++ beBytes 4 (sealRecVal id v)))) ∧
  (∀ (s : State) (dt : Nat) (ok : Bool) (q : SealReq),
    let u := s.tickTo dt
    ∃ t, Machine.exec (.sealProgramDone dt ok) s = .next t ∧
      (u.surv.sealing = none ∨ u.surveyorUp = false → u.sameBut t []) ∧
      (u.surv.sealing = some q → u.surveyorUp = true → q.id < 8 → u.otp.slots.length = 8 →
        let slot := (u.otp.of q.id).length
        let v0 := q.val.getD 0 0
        ({ u with surv := t.surv, otp := t.otp, boot := { u.boot with opts := t.boot.opts } }).sameBut t
          ([0x1000012, 0x1000101, PWR_VM_AUX_OV_LIM.a, 0x141] ++ (List.range 8).map (0x1000110 + ·) ++ (List.range 64).map (0x1000140 + ·)) ∧
        t.surv.sealing = none ∧ t.gb MG_SEAL_STAT_BUSY = false ∧ t.g MG_SEAL_STAT_RESULT = (if ok then 1 else 7) ∧ t.g MG_SEAL_STAT_ID_LAST = q.id ∧
        t.evPending 53 = true ∧ t.otp.of q.id = u.otp.of q.id ++ [if ok then some q.val else none] ∧ t.g (MG_SEAL_SLOT_REMAIN q.id) = (15 - slot) % 32 ∧
        (∀ k : Fin 8, k.val ≠ q.id → t.otp.of k = u.otp.of k) ∧
        (ok = true → q.id = 2 → t.g PWR_VM_AUX_OV_LIM = v0 % 65536 ∧ t.boot.opts.ovLim = v0) ∧
        (ok = true → q.id = 3 → t.surv.ceilDue = some (q.val.flatMap fun w => [w % 65536, w / 65536 % 65536])) ∧
        (ok = true → (q.id = 0 ∨ q.id = 1 ∨ q.id = 7) → t.gb (MG_SEAL_SLOT_RESET_DUE q.id) = true) ∧
        (ok = false ∨ q.id < 2 ∨ q.id = 7 → t.boot.opts = u.boot.opts) ∧
        (ok = false ∨ q.id ≠ 2 → t.g PWR_VM_AUX_OV_LIM = u.g PWR_VM_AUX_OV_LIM ∧ t.word 0x141 = u.word 0x141))) ∧
  (∀ (s : State) (dt : Nat) (lk : Link) (k : Fin 6) (image slotB : Bool),
    let u := (s.tickTo dt).hostBegin
    let op := k.val + 1
    let img := if k = 0 ∨ k = 5 then image else u.gb MG_UPD_CTL_TARGET
    let b := (((u.unarm lk).indRefetch 0x200).put MG_UPD_CTL_OP op).putB MG_UPD_CTL_TARGET img
    let b := if k = 5 then b.putB MG_UPD_CTL_SLOT slotB else b
    let key := (u.link lk).armed
    let state := u.g MG_UPD_STAT_STATE
    let res := if key = false ∧ (op = 1 ∨ op = 4 ∨ op = 6) then 3
      else if u.dev ≠ .ready ∧ u.dev ≠ .run ∧ u.dev ≠ .safe ∧ u.dev ≠ .recovery then 2
      else if ((op = 1 ∨ op = 6) ∧ state ≠ 0) ∨ ((op = 2 ∨ op = 3) ∧ state ≠ 1) ∨ (op = 4 ∧ state ≠ 2) ∨ (op = 6 ∧ img = false) then 2
      else if op = 4 ∧ u.otherTrial = true then 10 else 0
    let staged := !img && u.updStaging
    let dest : Nat := 1 - (if img then u.g DEV_BOOTSTAT_IMG_SLOT else u.g DEV_BOOTSTAT_FW_SLOT)
    let ofs := u.g MG_UPD_OFS_OFS
    let len := u.g MG_UPD_LEN_LEN
    let next := u.g MG_UPD_NEXT_NEXT
    let room := if u.gb MG_UPD_STAT_TGT_ACT then 0x200000 else 393216
    let chunk := if ofs % 4 ≠ 0 ∨ len % 4 ≠ 0 ∨ len < 4 ∨ 4096 < len ∨ room < ofs + len ∨ (ofs ≠ next ∧ next < ofs + len) then 4
      else if crc32 (if ofs = next then u.windowBytes len else u.updRd.bytes ofs len) = u.g MG_UPD_CRC_CRC then 1 else 5
    let slot := if k = 5 then b2n slotB else u.g MG_UPD_CTL_SLOT
    let out := if k = 0 then (if img && !u.imgStore then 6 else 1) else if k = 1 then chunk else if k = 2 then u.updVerify else 1
    let q : UpdSt := {
      first := if k = 0 then none else u.surv.upd.first, op := op, image := img, slot := slot, ofs := ofs
      chunk := if k = 1 then u.windowBytes len else [], src := fbSrc lk, hseq := (u.link lk).perfHseq, res := out }
    u.mgOpen 0x200 → ∃ t, Machine.exec (updInstr k dt lk image slotB) s = .next t ∧
      (if u.gb MG_UPD_STAT_BUSY then b.sameBut t []
      else if res ≠ 0 then (((b.put MG_UPD_STAT_BUSY 0).put MG_UPD_STAT_RESULT res).sameBut t [] ∧ t.evPending 54 = true)
      else
        (if k = 0 ∨ k = 3 then ({ (b.su fun v => { v with upd := q }) with nvm := t.nvm }).sameBut t updWords else
          ((b.put MG_UPD_STAT_BUSY 1).su fun v => { v with upd := q }).sameBut t []) ∧
        t.gb MG_UPD_STAT_BUSY = true ∧
        (k = 0 → t.gb MG_UPD_STAT_TGT_ACT = img ∧ t.gb MG_UPD_STAT_STAGED = staged ∧ t.g MG_UPD_STAT_DEST = dest ∧ t.g MG_UPD_NEXT_NEXT = 0 ∧
          t.g MG_UPD_STAT_STATE = state ∧ (img = true ∨ staged = true → t.nvm = u.nvm ∧ b.keepsWords t [0x1000204, 0x1000205]) ∧
          (img = false → staged = false → t.nvm = { u.nvm with fw := vupd u.nvm.fw (Fin.ofNat 2 dest) fun _ => FwSlot.empty })) ∧
        (k = 3 → if u.gb MG_UPD_STAT_STAGED then t.nvm = { u.nvm with fw := vupd u.nvm.fw u.updDest fun _ => FwSlot.empty } else t.nvm = u.nvm))) ∧
  (∀ (s : State) (dt : Nat) (ok : Bool),
    let u := s.tickTo dt
    u.gb MG_UPD_STAT_BUSY = false ∨ u.surveyorUp = false → ∃ t, Machine.exec (.updOperationDone dt ok) s = .next t ∧ u.sameBut t []) ∧
  (∀ (s : State) (dt : Nat) (ok : Bool),
    let u := s.tickTo dt
    let q := u.surv.upd
    let out := if q.op = 4 ∧ u.gb MG_UPD_STAT_STAGED = true ∧ u.gb MG_UPD_STAT_TGT_ACT = false then
        (if u.updRd.fwHeader (u.g DEV_REV_REV) = false then 7 else if u.updRd.fwSig u.boot.opts = false then 8 else q.res) else q.res
    let res := if q.res = 1 ∧ ok = false then 6 else out
    let byte := fun (s : State) (o : Nat) => match u.updBase with
      | some a => s.flashByte (a + o)
      | none => s.nvm.fw[u.updDest].rd o
    u.gb MG_UPD_STAT_BUSY = true → u.surveyorUp = true →
    ∃ t, Machine.exec (.updOperationDone dt ok) s = .next t ∧
      ({ u with surv := t.surv, nvm := t.nvm, flash := t.flash, boot := { u.boot with pulseEnd := t.boot.pulseEnd }, free := t.free }).sameBut t (0x12 :: updWords) ∧
      t.gb MG_UPD_STAT_BUSY = false ∧ t.g MG_UPD_STAT_RESULT = res % 16 ∧ t.evPending 54 = true ∧ t.nvm.fb = u.nvm.fb ∧ t.nvm.bench = u.nvm.bench ∧
      (res ≠ 1 → t.g MG_UPD_STAT_STATE = u.g MG_UPD_STAT_STATE ∧ t.g MG_UPD_NEXT_NEXT = u.g MG_UPD_NEXT_NEXT ∧ t.nvm = u.nvm) ∧
      (res ≠ 1 → (res ≠ 6 ∨ q.op ≠ 1 ∨ u.gb MG_UPD_STAT_TGT_ACT = false) → t.flash = u.flash) ∧
      (q.op = 1 ∨ 4 ≤ q.op ∨ (q.op = 3 ∧ res ≠ 1) → q.op < 7 → u.booked t 0x31 (u.updPayload q res)) ∧
      (res = 1 → q.op = 1 → t.g MG_UPD_STAT_STATE = 1 ∧
        (∀ a : Nat, t.flashByte a = (if u.updBase.any fun b => decide (b ≤ (a : Nat) ∧ (a : Nat) < b + (if u.gb MG_UPD_STAT_TGT_ACT then 0x200000 else 0x60000)) then 255 else u.flashByte a))) ∧
      (res = 1 → q.op = 2 → t.g MG_UPD_STAT_STATE = u.g MG_UPD_STAT_STATE ∧
        (q.ofs ≠ u.g MG_UPD_NEXT_NEXT → t.flash = u.flash ∧ t.nvm = u.nvm ∧ t.g MG_UPD_NEXT_NEXT = u.g MG_UPD_NEXT_NEXT) ∧
        (q.ofs = u.g MG_UPD_NEXT_NEXT → t.g MG_UPD_NEXT_NEXT = (q.ofs + q.chunk.length) % 2 ^ 22 ∧
          (∀ i < q.chunk.length, 4 ≤ q.ofs + i → byte t (q.ofs + i) = q.chunk.getD i 0 % 256) ∧
          (∀ o : Nat, (o : Nat) < q.ofs ∨ q.ofs + q.chunk.length ≤ (o : Nat) ∨ (q.ofs = 0 ∧ (o : Nat) < 4) → byte t o = byte u o) ∧
          (∀ a : Nat, (∀ b ∈ u.updBase, (a : Nat) < b + q.ofs ∨ b + q.ofs + q.chunk.length ≤ (a : Nat)) → t.flashByte a = u.flashByte a) ∧
          t.surv.upd.first = (if q.ofs = 0 then some (W (ofBytes (q.chunk.take 4))) else q.first))) ∧
      (res = 1 → q.op = 3 → t.g MG_UPD_STAT_STATE = 2 ∧ t.flash = u.flash ∧ t.nvm = u.nvm) ∧
      (res = 1 → q.op = 4 → t.g MG_UPD_STAT_STATE = 0 ∧ t.nvm.failcnt = 0 ∧ t.g DEV_BOOTSTAT_FAILCNT = 0 ∧
        (u.gb MG_UPD_STAT_TGT_ACT = true → t.nvm.imgTrial = some (u.updDest.val, u.updRd.seq) ∧ t.nvm.fw = u.nvm.fw ∧
          (∀ a : Nat, (∀ b ∈ u.updBase, (a : Nat) < b ∨ b + 4 ≤ (a : Nat)) → t.flashByte a = u.flashByte a) ∧
          ∀ a ∈ u.updBase, ∀ i : Fin 4, t.flashByte (a + i.val) = u.updRd i) ∧
        (u.gb MG_UPD_STAT_TGT_ACT = false → t.flash = u.flash ∧ t.nvm.fw[u.updDest].state = 2 ∧ t.nvm.fw[u.updDest].seq = u.updRd.seq ∧
          t.nvm.fw[u.updDest].version = u.updRd.ver % 2 ^ 24 ∧ ∀ i : Fin 4, t.nvm.fw[u.updDest].rd i = u.updRd i)) ∧
      (res = 1 → q.op = 5 → t.g MG_UPD_STAT_STATE = 0 ∧ t.surv.upd.first = none ∧ t.flash = u.flash ∧ t.nvm = u.nvm) ∧
      (res = 1 → q.op = 6 → t.g MG_UPD_STAT_STATE = u.g MG_UPD_STAT_STATE ∧ t.nvm = u.nvm ∧
        ∀ a : Nat, t.flashByte a = (if 0x200000 * q.slot + 0x30 ≤ (a : Nat) ∧ (a : Nat) < 0x200000 * q.slot + 0x34 then 0 else u.flashByte a)))

/-- SAFE_EXIT while a SAFE cause is active (R133). -/
def Obligations.SafeExitRefused : Prop :=
  ∀ (s : State) (dt : Nat) (lk : Link) (row : Bool),
    let u := (s.tickTo dt).hostBegin
    u.reaches 0x13 = true → (u.link lk).armed = true → u.dev = .safe → u.g DEV_STATE_SAFE_CAUSE ≠ 0 →
    ∃ t, Machine.exec (if row then .safeExit dt lk else .registerWrite dt lk 0x13 4) s = .next t ∧
      ((u.unarm lk).put DEV_STATE_EXIT_REFUSED (min (u.g DEV_STATE_EXIT_REFUSED + 1) 15)).sameBut t [] ∧
      t.dev = .safe ∧ t.g DEV_STATE_SAFE_CAUSE = u.g DEV_STATE_SAFE_CAUSE ∧
      t.g DEV_STATE_EXIT_REFUSED = min (u.g DEV_STATE_EXIT_REFUSED + 1) 15

/-- The queue is served first in, first out; the idle step is the model's choice (log entry 1). -/
def Obligations.StepTakesTheFront : Prop :=
  (∀ (s : State) (c : Instr), step { s with pending := c :: s.pending } = exec c s) ∧
  (∀ (s : State), s.pending = [] → step s = .next s)

/-- Every command has its effect or none; the device timestamp starts again at a power-on reset alone (R243, Table 4-1). -/
def Obligations.EveryStepAnswers : Prop :=
  (∀ (s : State) (c : Instr) (l : List Instr),
    s.pending = c :: l → ∃ t, step s = .next t ∧ t.pending = l ∧ (s.now ≤ t.now ∨ (t.now = 0 ∧ t.boot.por = true ∧ t.dev = .reset))) ∧
  (∀ (s : State) (dt : Nat) (pins : BitVec 48), ∃ t, Machine.exec (.tickMark dt pins) s = .next t ∧ t.pending = s.pending ∧ t.now = s.now + dt) ∧
  (∀ (s : State) (dt : Nat) (fin : Vector (BitVec 16) 8), ∃ t, Machine.exec (.commitPoint dt fin) s = .next t ∧ t.pending = s.pending ∧ t.now = s.now + dt) ∧
  (∀ (s : State) (dt : Nat) (pins : BitVec 48), ∃ t, Machine.exec (.syncInEdge dt pins) s = .next t ∧ t.pending = s.pending ∧ t.now = s.now + dt) ∧
  (∀ (s : State) (dt : Nat) (pins : BitVec 48), ∃ t, Machine.exec (.markTimeout dt pins) s = .next t ∧ t.pending = s.pending ∧ t.now = s.now + dt) ∧
  (∀ (s : State) (dt : Nat) (mem : Mem), ∃ t, Machine.exec (.scrubRead dt mem) s = .next t ∧ t.pending = s.pending ∧ t.now = s.now + dt) ∧
  (∀ (s : State) (dt : Nat) (mem : Mem) (written : Bool), ∃ t, Machine.exec (.eccWriteBack dt mem written) s = .next t ∧ t.pending = s.pending ∧ t.now = s.now + dt) ∧
  (∀ (s : State) (dt : Nat) (lk : Link) (data : Word), ∃ t, Machine.exec (.memInject dt lk data) s = .next t ∧ t.pending = s.pending ∧ t.now = s.now + dt) ∧
  (∀ (s : State) (dt : Nat) (lk : Link), ∃ t, Machine.exec (.memClrCnt dt lk) s = .next t ∧ t.pending = s.pending ∧ t.now = s.now + dt) ∧
  (∀ (s : State) (dt : Nat) (lk : Link), ∃ t, Machine.exec (.memClrFirst dt lk) s = .next t ∧ t.pending = s.pending ∧ t.now = s.now + dt) ∧
  (∀ (s : State) (dt : Nat) (lk : Link), ∃ t, Machine.exec (.clrMax dt lk) s = .next t ∧ t.pending = s.pending ∧ t.now = s.now + dt) ∧
  (∀ (s : State) (dt : Nat) (lk : Link), ∃ t, Machine.exec (.clrTotal dt lk) s = .next t ∧ t.pending = s.pending ∧ t.now = s.now + dt) ∧
  (∀ (s : State) (dt : Nat) (act : BitVec 8) (sp : BitVec 3) (wait : BitVec 8), ∃ t, Machine.exec (.arbWeightUpdate dt act sp wait) s = .next t ∧ t.pending = s.pending ∧ t.now = s.now + dt) ∧
  (∀ (s : State) (dt : Nat) (lk : Link), ∃ t, Machine.exec (.clrMaxwait dt lk) s = .next t ∧ t.pending = s.pending ∧ t.now = s.now + dt) ∧
  (∀ (s : State) (dt : Nat) (n : Fin 8) (pin : LimPin) (lvl : Stood), ∃ t, Machine.exec (.homeLimitFilterPass dt n pin lvl) s = .next t ∧ t.pending = s.pending ∧ t.now = s.now + dt) ∧
  (∀ (s : State) (dt : Nat) (st : Fin 2), ∃ t, Machine.exec (.brakeClampEngage dt st) s = .next t ∧ t.pending = s.pending ∧ t.now = s.now + dt) ∧
  (∀ (s : State) (dt : Nat) (st : Fin 2), ∃ t, Machine.exec (.brakeClampRelease dt st) s = .next t ∧ t.pending = s.pending ∧ t.now = s.now + dt) ∧
  (∀ (s : State) (dt : Nat) (st : Fin 2), ∃ t, Machine.exec (.blockingSwitchOn dt st) s = .next t ∧ t.pending = s.pending ∧ t.now = s.now + dt) ∧
  (∀ (s : State) (dt : Nat) (st : Fin 2), ∃ t, Machine.exec (.blockingSwitchOff dt st) s = .next t ∧ t.pending = s.pending ∧ t.now = s.now + dt) ∧
  (∀ (s : State) (dt : Nat) (st : Fin 2) (mv : BitVec 16), ∃ t, Machine.exec (.vmLockout dt st mv) s = .next t ∧ t.pending = s.pending ∧ t.now = s.now + dt) ∧
  (∀ (s : State) (dt : Nat) (st : Fin 2), ∃ t, Machine.exec (.vmLockoutRelease dt st) s = .next t ∧ t.pending = s.pending ∧ t.now = s.now + dt) ∧
  (∀ (s : State) (dt : Nat) (st : Fin 2) (below : Bool), ∃ t, Machine.exec (.uvWarnChange dt st below) s = .next t ∧ t.pending = s.pending ∧ t.now = s.now + dt) ∧
  (∀ (s : State) (dt : Nat) (st : Fin 2) (mv : BitVec 16), ∃ t, Machine.exec (.vmOvervoltage dt st mv) s = .next t ∧ t.pending = s.pending ∧ t.now = s.now + dt) ∧
  (∀ (s : State) (dt : Nat) (st : Fin 2) (mv : BitVec 16), ∃ t, Machine.exec (.vmOvervoltageClear dt st mv) s = .next t ∧ t.pending = s.pending ∧ t.now = s.now + dt) ∧
  (∀ (s : State) (dt : Nat) (st : Fin 2) (mv : BitVec 16), ∃ t, Machine.exec (.vmReversed dt st mv) s = .next t ∧ t.pending = s.pending ∧ t.now = s.now + dt) ∧
  (∀ (s : State) (dt : Nat) (st : Fin 2), ∃ t, Machine.exec (.vmReverseClear dt st) s = .next t ∧ t.pending = s.pending ∧ t.now = s.now + dt) ∧
  (∀ (s : State) (dt : Nat), ∃ t, Machine.exec (.brakeDumpOn dt) s = .next t ∧ t.pending = s.pending ∧ t.now = s.now + dt) ∧
  (∀ (s : State) (dt : Nat), ∃ t, Machine.exec (.brakeDumpRelease dt) s = .next t ∧ t.pending = s.pending ∧ t.now = s.now + dt) ∧
  (∀ (s : State) (dt : Nat), ∃ t, Machine.exec (.brakeHot dt) s = .next t ∧ t.pending = s.pending ∧ t.now = s.now + dt) ∧
  (∀ (s : State) (dt : Nat), ∃ t, Machine.exec (.brakeHoldoffEnd dt) s = .next t ∧ t.pending = s.pending ∧ t.now = s.now + dt) ∧
  (∀ (s : State) (dt : Nat) (toVm : Bool), ∃ t, Machine.exec (.logicSourceChange dt toVm) s = .next t ∧ t.pending = s.pending ∧ t.now = s.now + dt) ∧
  (∀ (s : State) (dt : Nat), ∃ t, Machine.exec (.fullLogicPowerLoss dt) s = .next t ∧ t.pending = s.pending ∧ t.now = s.now + dt) ∧
  (∀ (s : State) (dt : Nat), ∃ t, Machine.exec (.fullLogicPowerDown dt) s = .next t ∧ t.pending = s.pending ∧ t.now = s.now + dt) ∧
  (∀ (s : State) (dt : Nat), ∃ t, Machine.exec (.fullLogicPowerReturn dt) s = .next t ∧ t.pending = s.pending ∧ t.now = s.now + dt) ∧
  (∀ (s : State) (dt : Nat) (bad : Fin 3), ∃ t, Machine.exec (.fullLogicRestore dt bad) s = .next t ∧ t.pending = s.pending ∧ t.now = s.now + dt) ∧
  (∀ (s : State) (dt : Nat), ∃ t, Machine.exec (.v5outOverload dt) s = .next t ∧ t.pending = s.pending ∧ t.now = s.now + dt) ∧
  (∀ (s : State) (dt : Nat), ∃ t, Machine.exec (.v5outRetry dt) s = .next t ∧ t.pending = s.pending ∧ t.now = s.now + dt) ∧
  (∀ (s : State) (dt : Nat), ∃ t, Machine.exec (.v5outFaultClear dt) s = .next t ∧ t.pending = s.pending ∧ t.now = s.now + dt) ∧
  (∀ (s : State) (dt : Nat) (vm0 : BitVec 16) (vm1 : BitVec 16) (vlink : BitVec 16) (vbak : BitVec 16), ∃ t, Machine.exec (.powerFail dt vm0 vm1 vlink vbak) s = .next t ∧ t.pending = s.pending ∧ t.now = s.now + dt) ∧
  (∀ (s : State) (dt : Nat), ∃ t, Machine.exec (.holdupEnd dt) s = .next t ∧ t.pending = s.pending ∧ t.now = s.now + dt) ∧
  (∀ (s : State) (dt : Nat) (c : Fin 16) (fets : BitVec 4), ∃ t, Machine.exec (.fetOvercurrent dt c fets) s = .next t ∧ t.pending = s.pending ∧ t.now = s.now + dt) ∧
  (∀ (s : State) (dt : Nat) (lk : Link) (mask : BitVec 16), ∃ t, Machine.exec (.clrOc dt lk mask) s = .next t ∧ t.pending = s.pending ∧ t.now = s.now + dt) ∧
  (∀ (s : State) (dt : Nat) (lk : Link) (mask : BitVec 16), ∃ t, Machine.exec (.clrOpen dt lk mask) s = .next t ∧ t.pending = s.pending ∧ t.now = s.now + dt) ∧
  (∀ (s : State) (dt : Nat) (c : Fin 16), ∃ t, Machine.exec (.openCoilDetect dt c) s = .next t ∧ t.pending = s.pending ∧ t.now = s.now + dt) ∧
  (∀ (s : State) (dt : Nat) (st : Fin 2) (k : Fin 3) (temp : BitVec 16), ∃ t, Machine.exec (.thermalBackstop dt st k temp) s = .next t ∧ t.pending = s.pending ∧ t.now = s.now + dt) ∧
  (∀ (s : State) (dt : Nat) (st : Fin 2) (k : Fin 3) (temp : BitVec 16), ∃ t, Machine.exec (.thermalBackstopRelease dt st k temp) s = .next t ∧ t.pending = s.pending ∧ t.now = s.now + dt) ∧
  (∀ (s : State) (dt : Nat) (st : Fin 2), ∃ t, Machine.exec (.tempReadingStale dt st) s = .next t ∧ t.pending = s.pending ∧ t.now = s.now + dt) ∧
  (∀ (s : State) (dt : Nat) (n : Fin 8), ∃ t, Machine.exec (.boostLock dt n) s = .next t ∧ t.pending = s.pending ∧ t.now = s.now + dt) ∧
  (∀ (s : State) (dt : Nat) (n : Fin 8), ∃ t, Machine.exec (.boostUnlock dt n) s = .next t ∧ t.pending = s.pending ∧ t.now = s.now + dt) ∧
  (∀ (s : State) (dt : Nat), ∃ t, Machine.exec (.powerOnReset dt) s = .next t ∧ t.pending = s.pending ∧ t.now = 0 ∧ t.dev = .reset) ∧
  (∀ (s : State) (dt : Nat), ∃ t, Machine.exec (.powerOnResetRelease dt) s = .next t ∧ t.pending = s.pending ∧ t.now = s.now + dt) ∧
  (∀ (s : State) (dt : Nat), ∃ t, Machine.exec (.systemReset dt) s = .next t ∧ t.pending = s.pending ∧ t.now = s.now + dt) ∧
  (∀ (s : State) (dt : Nat) (count : BitVec 32), ∃ t, Machine.exec (.systemResetRelease dt count) s = .next t ∧ t.pending = s.pending ∧ t.now = s.now + dt) ∧
  (∀ (s : State) (dt : Nat) (count : BitVec 32), ∃ t, Machine.exec (.coreReset dt count) s = .next t ∧ t.pending = s.pending ∧ t.now = s.now + dt) ∧
  (∀ (s : State) (dt : Nat), ∃ t, Machine.exec (.coreResetRelease dt) s = .next t ∧ t.pending = s.pending ∧ t.now = s.now + dt) ∧
  (∀ (s : State) (dt : Nat) (bad : Option (Fin 8)) (corr : BitVec 8), ∃ t, Machine.exec (.optionCommit dt bad corr) s = .next t ∧ t.pending = s.pending ∧ t.now = s.now + dt) ∧
  (∀ (s : State) (dt : Nat), ∃ t, Machine.exec (.enterBoot dt) s = .next t ∧ t.pending = s.pending ∧ t.now = s.now + dt) ∧
  (∀ (s : State) (dt : Nat), ∃ t, Machine.exec (.clockFailure dt) s = .next t ∧ t.pending = s.pending ∧ t.now = s.now + dt) ∧
  (∀ (s : State) (dt : Nat), ∃ t, Machine.exec (.firmwareSelect dt) s = .next t ∧ t.pending = s.pending ∧ t.now = s.now + dt) ∧
  (∀ (s : State) (dt : Nat) (id : BitVec 24), ∃ t, Machine.exec (.imageValidate dt id) s = .next t ∧ t.pending = s.pending ∧ t.now = s.now + dt) ∧
  (∀ (s : State) (dt : Nat) (rd : Vector IdRead 8), ∃ t, Machine.exec (.configMonumentReads dt rd) s = .next t ∧ t.pending = s.pending ∧ t.now = s.now + dt) ∧
  (∀ (s : State) (dt : Nat), ∃ t, Machine.exec (.fullLogicAvailable dt) s = .next t ∧ t.pending = s.pending ∧ t.now = s.now + dt) ∧
  (∀ (s : State) (dt : Nat) (bad : Fin 3), ∃ t, Machine.exec (.fullLogicLoad dt bad) s = .next t ∧ t.pending = s.pending ∧ t.now = s.now + dt) ∧
  (∀ (s : State) (dt : Nat) (pins : BitVec 48), ∃ t, Machine.exec (.enterReady dt pins) s = .next t ∧ t.pending = s.pending ∧ t.now = s.now + dt) ∧
  (∀ (s : State) (dt : Nat), ∃ t, Machine.exec (.enterRun dt) s = .next t ∧ t.pending = s.pending ∧ t.now = s.now + dt) ∧
  (∀ (s : State) (dt : Nat), ∃ t, Machine.exec (.bootWatchdogExpiry dt) s = .next t ∧ t.pending = s.pending ∧ t.now = s.now + dt) ∧
  (∀ (s : State) (dt : Nat), ∃ t, Machine.exec (.surveyorWatchdogExpiry dt) s = .next t ∧ t.pending = s.pending ∧ t.now = s.now + dt) ∧
  (∀ (s : State) (dt : Nat), ∃ t, Machine.exec (.hostWatchdogExpiry dt) s = .next t ∧ t.pending = s.pending ∧ t.now = s.now + dt) ∧
  (∀ (s : State) (dt : Nat) (lk : Link), ∃ t, Machine.exec (.restart dt lk) s = .next t ∧ t.pending = s.pending ∧ t.now = s.now + dt) ∧
  (∀ (s : State) (dt : Nat) (lk : Link), ∃ t, Machine.exec (.clrFailcnt dt lk) s = .next t ∧ t.pending = s.pending ∧ t.now = s.now + dt) ∧
  (∀ (s : State) (dt : Nat) (lk : Link), ∃ t, Machine.exec (.safeExit dt lk) s = .next t ∧ t.pending = s.pending ∧ t.now = s.now + dt) ∧
  (∀ (s : State) (dt : Nat) (lk : Link) (mask : BitVec 8), ∃ t, Machine.exec (.axisReset dt lk mask) s = .next t ∧ t.pending = s.pending ∧ t.now = s.now + dt) ∧
  (∀ (s : State) (dt : Nat) (n : Fin 8), ∃ t, Machine.exec (.axisResetTimeout dt n) s = .next t ∧ t.pending = s.pending ∧ t.now = s.now + dt) ∧
  (∀ (s : State) (dt : Nat) (lk : Link) (mask : BitVec 16), ∃ t, Machine.exec (.ringReset dt lk mask) s = .next t ∧ t.pending = s.pending ∧ t.now = s.now + dt) ∧
  (∀ (s : State) (dt : Nat) (lk : Link) (addr : BitVec 16) (data : Word), ∃ t, Machine.exec (.registerWrite dt lk addr data) s = .next t ∧ t.pending = s.pending ∧ t.now = s.now + dt) ∧
  (∀ (s : State) (dt : Nat) (lk : Link) (key : Word), ∃ t, Machine.exec (.unlock dt lk key) s = .next t ∧ t.pending = s.pending ∧ t.now = s.now + dt) ∧
  (∀ (s : State) (dt : Nat) (lk : Link) (data : Word), ∃ t, Machine.exec (.updateStrobe dt lk data) s = .next t ∧ t.pending = s.pending ∧ t.now = s.now + dt) ∧
  (∀ (s : State) (dt : Nat) (lk : Link) (data : Word), ∃ t, Machine.exec (.indAddrWrite dt lk data) s = .next t ∧ t.pending = s.pending ∧ t.now = s.now + dt) ∧
  (∀ (s : State) (dt : Nat) (lk : Link), ∃ t, Machine.exec (.indPrefetchDone dt lk) s = .next t ∧ t.pending = s.pending ∧ t.now = s.now + dt) ∧
  (∀ (s : State) (dt : Nat) (lk : Link), ∃ t, Machine.exec (.indDataRead dt lk) s = .next t ∧ t.pending = s.pending ∧ t.now = s.now + dt) ∧
  (∀ (s : State) (dt : Nat) (lk : Link) (data : Word), ∃ t, Machine.exec (.indDataWrite dt lk data) s = .next t ∧ t.pending = s.pending ∧ t.now = s.now + dt) ∧
  (∀ (s : State) (dt : Nat), ∃ t, Machine.exec (.indWriteApply dt) s = .next t ∧ t.pending = s.pending ∧ t.now = s.now + dt) ∧
  (∀ (s : State) (dt : Nat) (lk : Link) (m : Fin 8) (data : Word), ∃ t, Machine.exec (.mailboxRequest dt lk m data) s = .next t ∧ t.pending = s.pending ∧ t.now = s.now + dt) ∧
  (∀ (s : State) (dt : Nat) (lk : Link) (m : Fin 8), ∃ t, Machine.exec (.mailboxLastWordRead dt lk m) s = .next t ∧ t.pending = s.pending ∧ t.now = s.now + dt) ∧
  (∀ (s : State) (dt : Nat) (lk : Link), ∃ t, Machine.exec (.accstatClr dt lk) s = .next t ∧ t.pending = s.pending ∧ t.now = s.now + dt) ∧
  (∀ (s : State) (dt : Nat) (mode3 : Bool), ∃ t, Machine.exec (.frameStart dt mode3) s = .next t ∧ t.pending = s.pending ∧ t.now = s.now + dt) ∧
  (∀ (s : State) (dt : Nat) (f : Frame), ∃ t, Machine.exec (.citenNop dt f) s = .next t ∧ t.pending = s.pending ∧ t.now = s.now + dt) ∧
  (∀ (s : State) (dt : Nat) (f : Frame), ∃ t, Machine.exec (.citenRead dt f) s = .next t ∧ t.pending = s.pending ∧ t.now = s.now + dt) ∧
  (∀ (s : State) (dt : Nat) (f : Frame), ∃ t, Machine.exec (.citenWrite dt f) s = .next t ∧ t.pending = s.pending ∧ t.now = s.now + dt) ∧
  (∀ (s : State) (dt : Nat) (op : BitVec 4) (f : Frame), ∃ t, Machine.exec (.citenBadOp dt op f) s = .next t ∧ t.pending = s.pending ∧ t.now = s.now + dt) ∧
  (∀ (s : State) (dt : Nat) (lk : Link), ∃ t, Machine.exec (.frameDeferredPerform dt lk) s = .next t ∧ t.pending = s.pending ∧ t.now = s.now + dt) ∧
  (∀ (s : State) (dt : Nat) (lk : Link), ∃ t, Machine.exec (.snap dt lk) s = .next t ∧ t.pending = s.pending ∧ t.now = s.now + dt) ∧
  (∀ (s : State) (dt : Nat) (lk : Link), ∃ t, Machine.exec (.spiCntClr dt lk) s = .next t ∧ t.pending = s.pending ∧ t.now = s.now + dt) ∧
  (∀ (s : State) (dt : Nat) (lk : Link) (data : Word), ∃ t, Machine.exec (.chainModeSelect dt lk data) s = .next t ∧ t.pending = s.pending ∧ t.now = s.now + dt) ∧
  (∀ (s : State) (dt : Nat) (edges : Nat) (ws : List (BitVec 40)), ∃ t, Machine.exec (.chainTransfer dt edges ws) s = .next t ∧ t.pending = s.pending ∧ t.now = s.now + dt) ∧
  (∀ (s : State) (dt : Nat) (v : Fin 8) (addr : BitVec 7), ∃ t, Machine.exec (.chainWindowRead dt v addr) s = .next t ∧ t.pending = s.pending ∧ t.now = s.now + dt) ∧
  (∀ (s : State) (dt : Nat) (v : Fin 8) (on : Bool), ∃ t, Machine.exec (.chainEnable dt v on) s = .next t ∧ t.pending = s.pending ∧ t.now = s.now + dt) ∧
  (∀ (s : State) (dt : Nat) (v : Fin 8) (on : Bool), ∃ t, Machine.exec (.chainFollow dt v on) s = .next t ∧ t.pending = s.pending ∧ t.now = s.now + dt) ∧
  (∀ (s : State) (dt : Nat) (v : Fin 8), ∃ t, Machine.exec (.chainQstop dt v) s = .next t ∧ t.pending = s.pending ∧ t.now = s.now + dt) ∧
  (∀ (s : State) (dt : Nat) (v : Fin 8), ∃ t, Machine.exec (.chainClrflt dt v) s = .next t ∧ t.pending = s.pending ∧ t.now = s.now + dt) ∧
  (∀ (s : State) (dt : Nat) (v : Fin 8) (data : Word), ∃ t, Machine.exec (.chainCurrent dt v data) s = .next t ∧ t.pending = s.pending ∧ t.now = s.now + dt) ∧
  (∀ (s : State) (dt : Nat) (v : Fin 8) (data : Word), ∃ t, Machine.exec (.chainStepscale dt v data) s = .next t ∧ t.pending = s.pending ∧ t.now = s.now + dt) ∧
  (∀ (s : State) (dt : Nat) (v : Fin 8) (data : Word), ∃ t, Machine.exec (.chainVmax dt v data) s = .next t ∧ t.pending = s.pending ∧ t.now = s.now + dt) ∧
  (∀ (s : State) (dt : Nat) (v : Fin 8) (data : Word), ∃ t, Machine.exec (.chainAmax dt v data) s = .next t ∧ t.pending = s.pending ∧ t.now = s.now + dt) ∧
  (∀ (s : State) (dt : Nat) (v : Fin 8) (data : Word), ∃ t, Machine.exec (.chainDmax dt v data) s = .next t ∧ t.pending = s.pending ∧ t.now = s.now + dt) ∧
  (∀ (s : State) (dt : Nat) (v : Fin 8) (data : Word), ∃ t, Machine.exec (.chainTarget dt v data) s = .next t ∧ t.pending = s.pending ∧ t.now = s.now + dt) ∧
  (∀ (s : State) (dt : Nat) (p : Packet), ∃ t, Machine.exec (.grelasPoll dt p) s = .next t ∧ t.pending = s.pending ∧ t.now = s.now + dt) ∧
  (∀ (s : State) (dt : Nat), ∃ t, Machine.exec (.grelasResponseCompose dt) s = .next t ∧ t.pending = s.pending ∧ t.now = s.now + dt) ∧
  (∀ (s : State) (dt : Nat), ∃ t, Machine.exec (.grelasResponseTransmit dt) s = .next t ∧ t.pending = s.pending ∧ t.now = s.now + dt) ∧
  (∀ (s : State) (dt : Nat) (p : Packet), ∃ t, Machine.exec (.grelasTickPacket dt p) s = .next t ∧ t.pending = s.pending ∧ t.now = s.now + dt) ∧
  (∀ (s : State) (dt : Nat) (pins : BitVec 48), ∃ t, Machine.exec (.grelasMarkIssue dt pins) s = .next t ∧ t.pending = s.pending ∧ t.now = s.now + dt) ∧
  (∀ (s : State) (dt : Nat) (on : Bool), ∃ t, Machine.exec (.linkCurrentLimit dt on) s = .next t ∧ t.pending = s.pending ∧ t.now = s.now + dt) ∧
  (∀ (s : State) (dt : Nat) (rev : Bool), ∃ t, Machine.exec (.linkReversed dt rev) s = .next t ∧ t.pending = s.pending ∧ t.now = s.now + dt) ∧
  (∀ (s : State) (dt : Nat) (lk : Link), ∃ t, Machine.exec (.grelasCntClr dt lk) s = .next t ∧ t.pending = s.pending ∧ t.now = s.now + dt) ∧
  (∀ (s : State) (dt : Nat) (lk : Link) (r : Fin 11) (d : Desc), ∃ t, Machine.exec (.enable dt lk r d) s = .next t ∧ t.pending = s.pending ∧ t.now = s.now + dt) ∧
  (∀ (s : State) (dt : Nat) (lk : Link) (r : Fin 11) (d : Desc), ∃ t, Machine.exec (.release dt lk r d) s = .next t ∧ t.pending = s.pending ∧ t.now = s.now + dt) ∧
  (∀ (s : State) (dt : Nat) (lk : Link) (r : Fin 11) (d : Desc), ∃ t, Machine.exec (.stop dt lk r d) s = .next t ∧ t.pending = s.pending ∧ t.now = s.now + dt) ∧
  (∀ (s : State) (dt : Nat) (lk : Link) (r : Fin 11) (d : Desc), ∃ t, Machine.exec (.qstop dt lk r d) s = .next t ∧ t.pending = s.pending ∧ t.now = s.now + dt) ∧
  (∀ (s : State) (dt : Nat) (lk : Link) (r : Fin 11) (d : Desc), ∃ t, Machine.exec (.clearFault dt lk r d) s = .next t ∧ t.pending = s.pending ∧ t.now = s.now + dt) ∧
  (∀ (s : State) (dt : Nat) (lk : Link) (r : Fin 11) (d : Desc), ∃ t, Machine.exec (.setPosition dt lk r d) s = .next t ∧ t.pending = s.pending ∧ t.now = s.now + dt) ∧
  (∀ (s : State) (dt : Nat) (lk : Link) (r : Fin 11) (d : Desc), ∃ t, Machine.exec (.followOn dt lk r d) s = .next t ∧ t.pending = s.pending ∧ t.now = s.now + dt) ∧
  (∀ (s : State) (dt : Nat) (lk : Link) (r : Fin 11) (d : Desc), ∃ t, Machine.exec (.followOff dt lk r d) s = .next t ∧ t.pending = s.pending ∧ t.now = s.now + dt) ∧
  (∀ (s : State) (dt : Nat) (lk : Link) (r : Fin 11) (d : Desc), ∃ t, Machine.exec (.moveTrap dt lk r d) s = .next t ∧ t.pending = s.pending ∧ t.now = s.now + dt) ∧
  (∀ (s : State) (dt : Nat) (lk : Link) (r : Fin 11) (d : Desc), ∃ t, Machine.exec (.moveScurve dt lk r d) s = .next t ∧ t.pending = s.pending ∧ t.now = s.now + dt) ∧
  (∀ (s : State) (dt : Nat) (lk : Link) (r : Fin 11) (d : Desc), ∃ t, Machine.exec (.moveVel dt lk r d) s = .next t ∧ t.pending = s.pending ∧ t.now = s.now + dt) ∧
  (∀ (s : State) (dt : Nat) (lk : Link) (r : Fin 11) (d : Desc), ∃ t, Machine.exec (.home dt lk r d) s = .next t ∧ t.pending = s.pending ∧ t.now = s.now + dt) ∧
  (∀ (s : State) (dt : Nat) (lk : Link) (r : Fin 11) (d : Desc), ∃ t, Machine.exec (.dwell dt lk r d) s = .next t ∧ t.pending = s.pending ∧ t.now = s.now + dt) ∧
  (∀ (s : State) (dt : Nat) (q : Fin 10), ∃ t, Machine.exec (.dwellComplete dt q) s = .next t ∧ t.pending = s.pending ∧ t.now = s.now + dt) ∧
  (∀ (s : State) (dt : Nat) (lk : Link) (r : Fin 11) (d : Desc), ∃ t, Machine.exec (.coordPart dt lk r d) s = .next t ∧ t.pending = s.pending ∧ t.now = s.now + dt) ∧
  (∀ (s : State) (dt : Nat) (lk : Link) (r : Fin 11) (d : Desc), ∃ t, Machine.exec (.stationStop dt lk r d) s = .next t ∧ t.pending = s.pending ∧ t.now = s.now + dt) ∧
  (∀ (s : State) (dt : Nat) (lk : Link) (r : Fin 11) (d : Desc), ∃ t, Machine.exec (.nop dt lk r d) s = .next t ∧ t.pending = s.pending ∧ t.now = s.now + dt) ∧
  (∀ (s : State) (dt : Nat) (lk : Link) (r : Fin 11) (d : Desc), ∃ t, Machine.exec (.fence dt lk r d) s = .next t ∧ t.pending = s.pending ∧ t.now = s.now + dt) ∧
  (∀ (s : State) (dt : Nat) (lk : Link) (r : Fin 11) (d : Desc), ∃ t, Machine.exec (.cancelTag dt lk r d) s = .next t ∧ t.pending = s.pending ∧ t.now = s.now + dt) ∧
  (∀ (s : State) (dt : Nat) (lk : Link) (r : Fin 11) (d : Desc), ∃ t, Machine.exec (.cancelRing dt lk r d) s = .next t ∧ t.pending = s.pending ∧ t.now = s.now + dt) ∧
  (∀ (s : State) (dt : Nat) (lk : Link) (r : Fin 11) (d : Desc), ∃ t, Machine.exec (.progStart dt lk r d) s = .next t ∧ t.pending = s.pending ∧ t.now = s.now + dt) ∧
  (∀ (s : State) (dt : Nat) (lk : Link) (r : Fin 11) (d : Desc), ∃ t, Machine.exec (.progStop dt lk r d) s = .next t ∧ t.pending = s.pending ∧ t.now = s.now + dt) ∧
  (∀ (s : State) (dt : Nat), ∃ t, Machine.exec (.backlogPost dt) s = .next t ∧ t.pending = s.pending ∧ t.now = s.now + dt) ∧
  (∀ (s : State) (dt : Nat) (lk : Link) (tag : BitVec 10), ∃ t, Machine.exec (.tagQuery dt lk tag) s = .next t ∧ t.pending = s.pending ∧ t.now = s.now + dt) ∧
  (∀ (s : State) (dt : Nat) (lk : Link) (q : Fin 5) (upto : BitVec 16), ∃ t, Machine.exec (.ringRelease dt lk q upto) s = .next t ∧ t.pending = s.pending ∧ t.now = s.now + dt) ∧
  (∀ (s : State) (dt : Nat) (lk : Link) (q : Fin 5), ∃ t, Machine.exec (.ringRecordAutoAdvance dt lk q) s = .next t ∧ t.pending = s.pending ∧ t.now = s.now + dt) ∧
  (∀ (s : State) (dt : Nat) (lk : Link) (r : Fin 16), ∃ t, Machine.exec (.ringCntClr dt lk r) s = .next t ∧ t.pending = s.pending ∧ t.now = s.now + dt) ∧
  (∀ (s : State) (dt : Nat) (n : Fin 8), ∃ t, Machine.exec (.stallReport dt n) s = .next t ∧ t.pending = s.pending ∧ t.now = s.now + dt) ∧
  (∀ (s : State) (dt : Nat) (n : Fin 8), ∃ t, Machine.exec (.closureError dt n) s = .next t ∧ t.pending = s.pending ∧ t.now = s.now + dt) ∧
  (∀ (s : State) (dt : Nat) (n : Fin 8), ∃ t, Machine.exec (.homingTimeout dt n) s = .next t ∧ t.pending = s.pending ∧ t.now = s.now + dt) ∧
  (∀ (s : State) (dt : Nat) (n : Fin 8) (dir : Bool), ∃ t, Machine.exec (.stepPulse dt n dir) s = .next t ∧ t.pending = s.pending ∧ t.now = s.now + dt) ∧
  (∀ (s : State) (dt : Nat) (n : Fin 8), ∃ t, Machine.exec (.holdReductionStart dt n) s = .next t ∧ t.pending = s.pending ∧ t.now = s.now + dt) ∧
  (∀ (s : State) (dt : Nat) (lk : Link) (n : Fin 8), ∃ t, Machine.exec (.idchkGo dt lk n) s = .next t ∧ t.pending = s.pending ∧ t.now = s.now + dt) ∧
  (∀ (s : State) (dt : Nat) (n : Fin 8) (reached : Bool), ∃ t, Machine.exec (.idchkPulseEnd dt n reached) s = .next t ∧ t.pending = s.pending ∧ t.now = s.now + dt) ∧
  (∀ (s : State) (dt : Nat) (n : Fin 8) (dutyA : Unit) (dutyB : Unit), ∃ t, Machine.exec (.idchkComplete dt n dutyA dutyB) s = .next t ∧ t.pending = s.pending ∧ t.now = s.now + dt) ∧
  (∀ (s : State) (dt : Nat) (c : Fin 16), ∃ t, Machine.exec (.pwmBoundary dt c) s = .next t ∧ t.pending = s.pending ∧ t.now = s.now + dt) ∧
  (∀ (s : State) (dt : Nat) (c : Fin 16), ∃ t, Machine.exec (.pwmEdge dt c) s = .next t ∧ t.pending = s.pending ∧ t.now = s.now + dt) ∧
  (∀ (s : State) (dt : Nat) (c : Fin 16), ∃ t, Machine.exec (.peakComparatorTrip dt c) s = .next t ∧ t.pending = s.pending ∧ t.now = s.now + dt) ∧
  (∀ (s : State) (dt : Nat) (c : Fin 16), ∃ t, Machine.exec (.phaseTimeLimit dt c) s = .next t ∧ t.pending = s.pending ∧ t.now = s.now + dt) ∧
  (∀ (s : State) (dt : Nat) (c : Fin 16), ∃ t, Machine.exec (.decayZeroCross dt c) s = .next t ∧ t.pending = s.pending ∧ t.now = s.now + dt) ∧
  (∀ (s : State) (dt : Nat) (c : Fin 16) (slot : Fin 3), ∃ t, Machine.exec (.coilSample dt c slot) s = .next t ∧ t.pending = s.pending ∧ t.now = s.now + dt) ∧
  (∀ (s : State) (dt : Nat) (c : Fin 16) (code : BitVec 12), ∃ t, Machine.exec (.coilConversionDone dt c code) s = .next t ∧ t.pending = s.pending ∧ t.now = s.now + dt) ∧
  (∀ (s : State) (dt : Nat) (c : Fin 16), ∃ t, Machine.exec (.syncPulse dt c) s = .next t ∧ t.pending = s.pending ∧ t.now = s.now + dt) ∧
  (∀ (s : State) (dt : Nat) (lk : Link) (c : Fin 16), ∃ t, Machine.exec (.regCntClr dt lk c) s = .next t ∧ t.pending = s.pending ∧ t.now = s.now + dt) ∧
  (∀ (s : State) (dt : Nat) (lk : Link) (c : Fin 16), ∃ t, Machine.exec (.pwmCntClr dt lk c) s = .next t ∧ t.pending = s.pending ∧ t.now = s.now + dt) ∧
  (∀ (s : State) (dt : Nat) (lk : Link) (c : Fin 16), ∃ t, Machine.exec (.adcCntClr dt lk c) s = .next t ∧ t.pending = s.pending ∧ t.now = s.now + dt) ∧
  (∀ (s : State) (dt : Nat) (t : Held 4), ∃ t', Machine.exec (.tripAssert dt t) s = .next t' ∧ t'.pending = s.pending ∧ t'.now = s.now + dt) ∧
  (∀ (s : State) (dt : Nat) (t : Held 4), ∃ t', Machine.exec (.tripRelease dt t) s = .next t' ∧ t'.pending = s.pending ∧ t'.now = s.now + dt) ∧
  (∀ (s : State) (dt : Nat) (lk : Link) (mask : BitVec 4), ∃ t, Machine.exec (.tripClear dt lk mask) s = .next t ∧ t.pending = s.pending ∧ t.now = s.now + dt) ∧
  (∀ (s : State) (dt : Nat) (lk : Link), ∃ t, Machine.exec (.tripCntClr dt lk) s = .next t ∧ t.pending = s.pending ∧ t.now = s.now + dt) ∧
  (∀ (s : State) (dt : Nat) (n : Fin 8), ∃ t, Machine.exec (.backdriveEpisodeStart dt n) s = .next t ∧ t.pending = s.pending ∧ t.now = s.now + dt) ∧
  (∀ (s : State) (dt : Nat) (n : Fin 8), ∃ t, Machine.exec (.backdriveEpisodeEnd dt n) s = .next t ∧ t.pending = s.pending ∧ t.now = s.now + dt) ∧
  (∀ (s : State) (dt : Nat) (lk : Link) (n : Fin 8), ∃ t, Machine.exec (.obsCalGo dt lk n) s = .next t ∧ t.pending = s.pending ∧ t.now = s.now + dt) ∧
  (∀ (s : State) (dt : Nat) (n : Fin 8), ∃ t, Machine.exec (.obsCalStillEnd dt n) s = .next t ∧ t.pending = s.pending ∧ t.now = s.now + dt) ∧
  (∀ (s : State) (dt : Nat) (n : Fin 8), ∃ t, Machine.exec (.obsCalComplete dt n) s = .next t ∧ t.pending = s.pending ∧ t.now = s.now + dt) ∧
  (∀ (s : State) (dt : Nat) (lk : Link) (n : Fin 8), ∃ t, Machine.exec (.obsCalAbort dt lk n) s = .next t ∧ t.pending = s.pending ∧ t.now = s.now + dt) ∧
  (∀ (s : State) (dt : Nat) (n : Fin 8), ∃ t, Machine.exec (.obsCalTimeout dt n) s = .next t ∧ t.pending = s.pending ∧ t.now = s.now + dt) ∧
  (∀ (s : State) (dt : Nat) (lk : Link) (n : Fin 8), ∃ t, Machine.exec (.obsCntClr dt lk n) s = .next t ∧ t.pending = s.pending ∧ t.now = s.now + dt) ∧
  (∀ (s : State) (dt : Nat) (n : Fin 8) (a : Stood) (b : Stood), ∃ t, Machine.exec (.encoderTransition dt n a b) s = .next t ∧ t.pending = s.pending ∧ t.now = s.now + dt) ∧
  (∀ (s : State) (dt : Nat) (n : Held 8), ∃ t, Machine.exec (.indexMark dt n) s = .next t ∧ t.pending = s.pending ∧ t.now = s.now + dt) ∧
  (∀ (s : State) (dt : Nat) (n : Fin 8), ∃ t, Machine.exec (.encoderStandstill dt n) s = .next t ∧ t.pending = s.pending ∧ t.now = s.now + dt) ∧
  (∀ (s : State) (dt : Nat) (lk : Link) (n : Fin 8) (high : Bool), ∃ t, Machine.exec (.ssiRequest dt lk n high) s = .next t ∧ t.pending = s.pending ∧ t.now = s.now + dt) ∧
  (∀ (s : State) (dt : Nat) (n : Fin 8) (high : Bool), ∃ t, Machine.exec (.ssiAutoRequest dt n high) s = .next t ∧ t.pending = s.pending ∧ t.now = s.now + dt) ∧
  (∀ (s : State) (dt : Nat) (n : Fin 8) (w : BitVec 32) (endBit : Bool), ∃ t, Machine.exec (.ssiWordDone dt n w endBit) s = .next t ∧ t.pending = s.pending ∧ t.now = s.now + dt) ∧
  (∀ (s : State) (dt : Nat) (n : Fin 8) (high : Bool), ∃ t, Machine.exec (.ssiRecoveryEnd dt n high) s = .next t ∧ t.pending = s.pending ∧ t.now = s.now + dt) ∧
  (∀ (s : State) (dt : Nat) (lk : Link) (n : Fin 8), ∃ t, Machine.exec (.encFaultClear dt lk n) s = .next t ∧ t.pending = s.pending ∧ t.now = s.now + dt) ∧
  (∀ (s : State) (dt : Nat) (lk : Link) (n : Fin 8), ∃ t, Machine.exec (.dpCntClr dt lk n) s = .next t ∧ t.pending = s.pending ∧ t.now = s.now + dt) ∧
  (∀ (s : State) (dt : Nat) (lk : Link) (n : Fin 8), ∃ t, Machine.exec (.dirchkRestart dt lk n) s = .next t ∧ t.pending = s.pending ∧ t.now = s.now + dt) ∧
  (∀ (s : State) (dt : Nat) (st : Fin 2), ∃ t, Machine.exec (.surveyRoundStart dt st) s = .next t ∧ t.pending = s.pending ∧ t.now = s.now + dt) ∧
  (∀ (s : State) (dt : Nat) (st : Fin 2), ∃ t, Machine.exec (.surveyTickTrigger dt st) s = .next t ∧ t.pending = s.pending ∧ t.now = s.now + dt) ∧
  (∀ (s : State) (dt : Rise), ∃ t, Machine.exec (.aintrgEdge dt) s = .next t ∧ t.pending = s.pending ∧ t.now = s.now + dt.dt) ∧
  (∀ (s : State) (dt : Nat) (lk : Link) (st : Fin 2), ∃ t, Machine.exec (.svTrg dt lk st) s = .next t ∧ t.pending = s.pending ∧ t.now = s.now + dt) ∧
  (∀ (s : State) (dt : Nat) (lk : Link) (st : Fin 2), ∃ t, Machine.exec (.svItrg dt lk st) s = .next t ∧ t.pending = s.pending ∧ t.now = s.now + dt) ∧
  (∀ (s : State) (dt : Nat) (st : Fin 2), ∃ t, Machine.exec (.surveyInjectedTickTrigger dt st) s = .next t ∧ t.pending = s.pending ∧ t.now = s.now + dt) ∧
  (∀ (s : State) (dt : Nat) (st : Fin 2) (uv : BitVec 32), ∃ t, Machine.exec (.surveyConversionDone dt st uv) s = .next t ∧ t.pending = s.pending ∧ t.now = s.now + dt) ∧
  (∀ (s : State) (dt : Nat) (st : Fin 2), ∃ t, Machine.exec (.surveyEntryComplete dt st) s = .next t ∧ t.pending = s.pending ∧ t.now = s.now + dt) ∧
  (∀ (s : State) (dt : Nat) (st : Fin 2), ∃ t, Machine.exec (.housekeepingDue dt st) s = .next t ∧ t.pending = s.pending ∧ t.now = s.now + dt) ∧
  (∀ (s : State) (dt : Nat) (st : Fin 2), ∃ t, Machine.exec (.housekeepingComplete dt st) s = .next t ∧ t.pending = s.pending ∧ t.now = s.now + dt) ∧
  (∀ (s : State) (dt : Nat), ∃ t, Machine.exec (.xchkFail dt) s = .next t ∧ t.pending = s.pending ∧ t.now = s.now + dt) ∧
  (∀ (s : State) (dt : Nat) (st : Fin 2), ∃ t, Machine.exec (.surveyPowerDown dt st) s = .next t ∧ t.pending = s.pending ∧ t.now = s.now + dt) ∧
  (∀ (s : State) (dt : Nat) (st : Fin 2), ∃ t, Machine.exec (.surveyStartupDone dt st) s = .next t ∧ t.pending = s.pending ∧ t.now = s.now + dt) ∧
  (∀ (s : State) (dt : Nat) (lk : Link) (st : Fin 2), ∃ t, Machine.exec (.svCntClr dt lk st) s = .next t ∧ t.pending = s.pending ∧ t.now = s.now + dt) ∧
  (∀ (s : State) (dt : Nat) (lk : Link) (st : Fin 2), ∃ t, Machine.exec (.svCalZero dt lk st) s = .next t ∧ t.pending = s.pending ∧ t.now = s.now + dt) ∧
  (∀ (s : State) (dt : Nat) (lk : Link) (st : Fin 2), ∃ t, Machine.exec (.svCalFull dt lk st) s = .next t ∧ t.pending = s.pending ∧ t.now = s.now + dt) ∧
  (∀ (s : State) (dt : Nat) (st : Fin 2), ∃ t, Machine.exec (.svCalReadingsDone dt st) s = .next t ∧ t.pending = s.pending ∧ t.now = s.now + dt) ∧
  (∀ (s : State) (dt : Nat) (lk : Link) (st : Fin 2) (ok : Bool), ∃ t, Machine.exec (.svCalStore dt lk st ok) s = .next t ∧ t.pending = s.pending ∧ t.now = s.now + dt) ∧
  (∀ (s : State) (dt : Nat) (ack : BitVec 8), ∃ t, Machine.exec (.idPresencePoll dt ack) s = .next t ∧ t.pending = s.pending ∧ t.now = s.now + dt) ∧
  (∀ (s : State) (dt : Nat) (n : Fin 8), ∃ t, Machine.exec (.idLinePresentRead dt n) s = .next t ∧ t.pending = s.pending ∧ t.now = s.now + dt) ∧
  (∀ (s : State) (dt : Nat) (lk : Link) (mask : BitVec 8), ∃ t, Machine.exec (.idRescan dt lk mask) s = .next t ∧ t.pending = s.pending ∧ t.now = s.now + dt) ∧
  (∀ (s : State) (dt : Nat) (n : Fin 8) (rd : IdRead), ∃ t, Machine.exec (.idReadDone dt n rd) s = .next t ∧ t.pending = s.pending ∧ t.now = s.now + dt) ∧
  (∀ (s : State) (dt : Nat) (n : Fin 8), ∃ t, Machine.exec (.idReadRetry dt n) s = .next t ∧ t.pending = s.pending ∧ t.now = s.now + dt) ∧
  (∀ (s : State) (dt : Nat) (lk : Link), ∃ t, Machine.exec (.idCntClr dt lk) s = .next t ∧ t.pending = s.pending ∧ t.now = s.now + dt) ∧
  (∀ (s : State) (dt : Nat) (x : Fin 4) (w1 : BitVec 64) (w2 : BitVec 64) (w3 : BitVec 64), ∃ t, Machine.exec (.push dt x w1 w2 w3) s = .next t ∧ t.pending = s.pending ∧ t.now = s.now + dt) ∧
  (∀ (s : State) (dt : Nat) (x : Fin 4) (w : BitVec 64), ∃ t, Machine.exec (.waittag dt x w) s = .next t ∧ t.pending = s.pending ∧ t.now = s.now + dt) ∧
  (∀ (s : State) (dt : Nat) (x : Fin 4), ∃ t, Machine.exec (.waittagTimeout dt x) s = .next t ∧ t.pending = s.pending ∧ t.now = s.now + dt) ∧
  (∀ (s : State) (dt : Nat) (x : Fin 4) (w : BitVec 64), ∃ t, Machine.exec (.waitin dt x w) s = .next t ∧ t.pending = s.pending ∧ t.now = s.now + dt) ∧
  (∀ (s : State) (dt : Nat) (x : Fin 4), ∃ t, Machine.exec (.waitinTimeout dt x) s = .next t ∧ t.pending = s.pending ∧ t.now = s.now + dt) ∧
  (∀ (s : State) (dt : Nat) (x : Fin 4) (w : BitVec 64), ∃ t, Machine.exec (.waittime dt x w) s = .next t ∧ t.pending = s.pending ∧ t.now = s.now + dt) ∧
  (∀ (s : State) (dt : Nat) (x : Fin 4), ∃ t, Machine.exec (.waittimeExpiry dt x) s = .next t ∧ t.pending = s.pending ∧ t.now = s.now + dt) ∧
  (∀ (s : State) (dt : Nat) (x : Fin 4) (w : BitVec 64), ∃ t, Machine.exec (.brev dt x w) s = .next t ∧ t.pending = s.pending ∧ t.now = s.now + dt) ∧
  (∀ (s : State) (dt : Nat) (x : Fin 4) (w : BitVec 64), ∃ t, Machine.exec (.loop dt x w) s = .next t ∧ t.pending = s.pending ∧ t.now = s.now + dt) ∧
  (∀ (s : State) (dt : Nat) (x : Fin 4) (w : BitVec 64), ∃ t, Machine.exec (.raise dt x w) s = .next t ∧ t.pending = s.pending ∧ t.now = s.now + dt) ∧
  (∀ (s : State) (dt : Nat) (x : Fin 4) (w1 : BitVec 64) (w2 : BitVec 64), ∃ t, Machine.exec (.progHome dt x w1 w2) s = .next t ∧ t.pending = s.pending ∧ t.now = s.now + dt) ∧
  (∀ (s : State) (dt : Nat) (x : Fin 4) (w : BitVec 64), ∃ t, Machine.exec (.setreg dt x w) s = .next t ∧ t.pending = s.pending ∧ t.now = s.now + dt) ∧
  (∀ (s : State) (dt : Nat) (x : Fin 4) (w : BitVec 64), ∃ t, Machine.exec (.progEnd dt x w) s = .next t ∧ t.pending = s.pending ∧ t.now = s.now + dt) ∧
  (∀ (s : State) (dt : Nat) (t6 : BitVec 16) (t7 : BitVec 16) (vlink : BitVec 16) (vbak : BitVec 16) (ilink : BitVec 12), ∃ t, Machine.exec (.kaMonitorReading dt t6 t7 vlink vbak ilink) s = .next t ∧ t.pending = s.pending ∧ t.now = s.now + dt) ∧
  (∀ (s : State) (dt : Nat) (lk : Link) (secs : Word), ∃ t, Machine.exec (.fieldClockSet dt lk secs) s = .next t ∧ t.pending = s.pending ∧ t.now = s.now + dt) ∧
  (∀ (s : State) (dt : Nat), ∃ t, Machine.exec (.fieldBookWriteDone dt) s = .next t ∧ t.pending = s.pending ∧ t.now = s.now + dt) ∧
  (∀ (s : State) (dt : Nat) (lk : Link), ∃ t, Machine.exec (.fbCntClr dt lk) s = .next t ∧ t.pending = s.pending ∧ t.now = s.now + dt) ∧
  (∀ (s : State) (dt : Nat) (lk : Link) (data : Word), ∃ t, Machine.exec (.sealCommit dt lk data) s = .next t ∧ t.pending = s.pending ∧ t.now = s.now + dt) ∧
  (∀ (s : State) (dt : Nat) (ok : Bool), ∃ t, Machine.exec (.sealProgramDone dt ok) s = .next t ∧ t.pending = s.pending ∧ t.now = s.now + dt) ∧
  (∀ (s : State) (dt : Nat) (lk : Link) (image : Bool), ∃ t, Machine.exec (.updBegin dt lk image) s = .next t ∧ t.pending = s.pending ∧ t.now = s.now + dt) ∧
  (∀ (s : State) (dt : Nat) (lk : Link), ∃ t, Machine.exec (.updWrite dt lk) s = .next t ∧ t.pending = s.pending ∧ t.now = s.now + dt) ∧
  (∀ (s : State) (dt : Nat) (lk : Link), ∃ t, Machine.exec (.updVerify dt lk) s = .next t ∧ t.pending = s.pending ∧ t.now = s.now + dt) ∧
  (∀ (s : State) (dt : Nat) (lk : Link), ∃ t, Machine.exec (.updActivate dt lk) s = .next t ∧ t.pending = s.pending ∧ t.now = s.now + dt) ∧
  (∀ (s : State) (dt : Nat) (lk : Link), ∃ t, Machine.exec (.updAbort dt lk) s = .next t ∧ t.pending = s.pending ∧ t.now = s.now + dt) ∧
  (∀ (s : State) (dt : Nat) (lk : Link) (image : Bool) (slotB : Bool), ∃ t, Machine.exec (.updRevoke dt lk image slotB) s = .next t ∧ t.pending = s.pending ∧ t.now = s.now + dt) ∧
  (∀ (s : State) (dt : Nat) (ok : Bool), ∃ t, Machine.exec (.updOperationDone dt ok) s = .next t ∧ t.pending = s.pending ∧ t.now = s.now + dt) ∧
  (∀ (s : State) (dt : Nat), ∃ t, Machine.exec (.moistureRound dt) s = .next t ∧ t.pending = s.pending ∧ t.now = s.now + dt) ∧
  (∀ (s : State) (dt : Nat) (mv : BitVec 16), ∃ t, Machine.exec (.moistureTest dt mv) s = .next t ∧ t.pending = s.pending ∧ t.now = s.now + dt) ∧
  (∀ (s : State) (dt : Nat) (lk : Link), ∃ t, Machine.exec (.mwCntClr dt lk) s = .next t ∧ t.pending = s.pending ∧ t.now = s.now + dt) ∧
  (∀ (s : State) (dt : Nat) (lk : Link) (e : Fin 64), ∃ t, Machine.exec (.eventAck dt lk e) s = .next t ∧ t.pending = s.pending ∧ t.now = s.now + dt) ∧
  (∀ (s : State) (dt : Nat) (lk : Link) (e : Fin 64), ∃ t, Machine.exec (.eventSimulate dt lk e) s = .next t ∧ t.pending = s.pending ∧ t.now = s.now + dt) ∧
  (∀ (s : State) (dt : Nat), ∃ t, Machine.exec (.captureFreeze dt) s = .next t ∧ t.pending = s.pending ∧ t.now = s.now + dt) ∧
  (∀ (s : State) (dt : Nat) (lk : Link) (n : Fin 8), ∃ t, Machine.exec (.closMaxClr dt lk n) s = .next t ∧ t.pending = s.pending ∧ t.now = s.now + dt) ∧
  (∀ (s : State) (dt : Nat), ∃ t, Machine.exec (.resetHoldoffEnd dt) s = .next t ∧ t.pending = s.pending ∧ t.now = s.now + dt)

/-- The canonical forms are an invariant of every step. -/
def Obligations.StepKeepsTheForm : Prop :=
  ∀ (s t : State), s.wf = true → step s = .next t → t.wf = true

/-- The event system between two commands (R245, R248, R480, R482). -/
def Obligations.StepSettles : Prop :=
  ∀ (s t : State), s.pending ≠ [] ∨ s.settled → step s = .next t → t.settled

/-- Table 4-4 with R110 and R126. -/
def Obligations.DeviceStateMoves : Prop :=
  ∀ (s t : State), s.resetForm → step s = .next t → t.resetForm ∧ (t.dev = s.dev ∨ t.dev = .reset ∨ (s.dev, t.dev) ∈ [(DevState.reset, DevState.optionLoad), (.optionLoad, .boot), (.optionLoad, .recovery),
      (.boot, .configLoad), (.boot, .recovery), (.configLoad, .ready), (.configLoad, .safe), (.configLoad, .recovery), (.configLoad, .boot),
      (.ready, .run), (.ready, .safe), (.ready, .boot), (.ready, .recovery), (.run, .safe), (.run, .boot), (.run, .recovery),
      (.safe, .ready), (.safe, .run), (.safe, .configLoad), (.safe, .boot), (.safe, .recovery), (.recovery, .boot)])

/-- The state after a power-on reset (R107, Table 4-1); values the spec leaves open are the model's. -/
def Obligations.ResetState : Prop :=
  State.reset.pending = [] ∧ State.reset.dev = .reset ∧ State.reset.now = 0 ∧ (∀ a, State.reset.word a = resetWord a) ∧
    (∀ c : Fin 16, State.reset.coils[c].side1 = .off ∧ State.reset.coils[c].side2 = .off) ∧ (∀ n : Fin 8, State.reset.axes[n].st = .off) ∧
    State.reset.cmds = [] ∧ (∀ q : Fin 5, State.reset.heldRecs q = 0) ∧ State.reset.flOn = false ∧
    State.reset.wf = true ∧ State.reset.settled ∧ State.reset.resetForm

/-- KA_MONITOR_READING, FIELD_CLOCK_SET, FIELD_BOOK_WRITE_DONE, FB_CNT_CLR, MOISTURE_ROUND, MOISTURE_TEST, MW_CNT_CLR, EVENT_ACK,
EVENT_SIMULATE, CAPTURE_FREEZE (R449 to R486). -/
def Obligations.SurveyorAndEvents : Prop :=
  (∀ (s : State) (dt : Nat) (t6 t7 vlink vbak : BitVec 16) (ilink : BitVec 12),
    let u := s.tickTo dt
    let a := Config.kaTemp 6 t6
    let b := Config.kaTemp 7 t7
    ∃ t, Machine.exec (.kaMonitorReading dt t6 t7 vlink vbak ilink) s = .next t ∧
      (u.surveyorUp = false → u.sameBut t []) ∧
      (u.surveyorUp = true →
        t.g (MG_TEMP_T_EVEN 3) = a.toNat ∧ t.g (MG_TEMP_T_ODD 3) = b.toNat ∧ t.g MG_VSUP_VLINK = vlink.toNat ∧ t.g LNK_GR_PWR_VLINK = vlink.toNat ∧
        t.g MG_VSUP_VBAK = vbak.toNat ∧ t.g LNK_GR_PWR_ILINK = ilink.toNat ∧
        t.gb PWR_STAT_LINK_OK = (decide (12000 ≤ vlink.toNat) || (u.gb PWR_STAT_LINK_OK && decide (10500 ≤ vlink.toNat))) ∧
        t.gb LNK_GR_STAT_FL_QUAL = (decide (18000 ≤ vlink.toNat) || (u.gb LNK_GR_STAT_FL_QUAL && decide (17000 ≤ vlink.toNat))) ∧
        t.gb PWR_STAT_VBAK_OK = (decide (4500 ≤ vbak.toNat) || (u.gb PWR_STAT_VBAK_OK && decide (4300 ≤ vbak.toNat))) ∧
        (vbak.toNat < 3000 → u.power.vbakLow = false → u.power.vbakSet = true → t.evPending 14 = true) ∧
        t.power.vbakLow = decide (vbak.toNat < 3000) ∧ t.power.temps[6] = a.toInt ∧ t.power.temps[7] = b.toInt ∧
        (∀ k : Fin 8, 6 ≤ k.val → let x := if k = 6 then a.toInt else b.toInt
          t.level 18 k = (decide (u.g PWR_TEMP_CFG_T_WARN * 16 ≤ x) || (u.level 18 k && decide (u.g PWR_TEMP_CFG_T_WARN * 16 - 80 ≤ x)))) ∧
        u.outlives t ∧ t.cmds.length ≤ u.cmds.length ∧ t.links = u.links ∧
        (a.toInt < u.g PWR_TEMP_CFG_T_TRIP * 16 → b.toInt < u.g PWR_TEMP_CFG_T_TRIP * 16 →
          ({ u with power := t.power }).sameBut t [0x140, 0x10, (MG_TEMP_T_EVEN 3).a, MG_VSUP_VLINK.a, LNK_GR_PWR_VLINK.a, LNK_GR_STAT_FL_QUAL.a]))) ∧
  (∀ (s : State) (dt : Nat) (lk : Link) (secs : Word) (k : Fin 3),
    let u := (s.tickTo dt).hostBegin
    let a := if k = 0 then 0x008 else if k = 1 then 0x012 else 0x021
    let b := (u.unarm lk).indRefetch a
    u.mgOpen a →
    ∃ t, Machine.exec (if k = 0 then .fieldClockSet dt lk secs else if k = 1 then .fbCntClr dt lk else .mwCntClr dt lk) s = .next t ∧
      (k = 0 → (((b.su fun v => { v with fcMs := secs.toNat * 1000, fcAt := u.now }).put MG_FCLK_STAT_SYNC 1).put MG_FCLK_SECONDS secs.toNat).sameBut t []) ∧
      (k = 1 → ((b.put MG_FB_STAT_LOST (u.g MG_FB_STAT_LOST - u.gWas MG_FB_STAT_LOST)).put MG_FB_STAT_TORN
        (u.g MG_FB_STAT_TORN - u.gWas MG_FB_STAT_TORN)).sameBut t []) ∧
      (k = 2 → ((b.put MG_MW_STAT_SKIP (u.g MG_MW_STAT_SKIP - u.gWas MG_MW_STAT_SKIP)).put MG_MW_STAT_ABANDON
        (u.g MG_MW_STAT_ABANDON - u.gWas MG_MW_STAT_ABANDON)).sameBut t [])) ∧
  (∀ (s : State) (dt : Nat),
    let u := s.tickTo dt
    let n := u.nvm.fbNext
    let slot := (n - 1) % 4096 * 8
    let sec := (n - 1) % 4096 / 128
    let fresh := decide ((n - 1) % 128 = 0)
    let wear := min 131071 ((kvGet u.nvm.wear sec 0).toNat + 1)
    ∃ t, Machine.exec (.fieldBookWriteDone dt) s = .next t ∧
      (u.surveyorRuns = false ∨ u.surv.fbQ = [] → u.sameBut t []) ∧
      (u.surveyorRuns = true → ∀ r ∈ u.surv.fbQ.head?,
        ({ u with surv := t.surv, nvm := t.nvm }).sameBut t ([0x1000010, 0x1000011, 0x1000012, 0x1000340 + sec]) ∧
        t.nvm = { u.nvm with fb := t.nvm.fb, wear := t.nvm.wear, fbNext := n + 1 } ∧ t.g MG_FB_HEAD_HEAD = n % 2 ^ 32 ∧
        (∀ i < 8, kvGet t.nvm.fb (slot + i) 0xFFFFFFFF = W ((r.words n).getD i 0)) ∧
        (∀ a : Nat, (a : Nat) < slot ∨ slot + 8 ≤ (a : Nat) → kvGet t.nvm.fb a 0xFFFFFFFF =
          (if fresh = true ∧ (a : Nat) / 1024 = sec then 0xFFFFFFFF else kvGet u.nvm.fb a 0xFFFFFFFF)) ∧
        (fresh = true → t.nvm.wear = kvSet u.nvm.wear sec (W wear) 0 ∧ t.g (MG_FB_WEAR_ERASES sec) = wear ∧
          (90000 ≤ wear → u.surv.wearDone = false → t.gb MG_FB_STAT_WEAR = true ∧ t.evPending 52 = true)) ∧
        (fresh = false → t.nvm.wear = u.nvm.wear ∧ t.g (MG_FB_WEAR_ERASES sec) = u.g (MG_FB_WEAR_ERASES sec)) ∧
        (if u.surv.lostSince = 0 ∨ u.surveyorUp = false then t.surv.fbQ = u.surv.fbQ.tail ∧ t.surv.lostSince = u.surv.lostSince
        else u.surv.fbQ.length ≤ 64 → t.surv.lostSince = 0 ∧ t.surv.fbQ.dropLast = u.surv.fbQ.tail ∧
          t.surv.fbQ.getLast?.map (fun r => (r.typ, r.payload)) = some (0x06, beBytes 2 (min u.surv.lostSince 65535)) ∧ t.evPending 52 = true))) ∧
  (∀ (s : State) (dt : Nat),
    let u := s.tickTo dt
    let fb := u.gb MG_MW_CFG_FB_EN
    let idd := u.gb MG_MW_CFG_IDD_EN
    let due := (fb = true ∨ idd = true) ∧ u.surveyorUp = true ∧ u.flOn = true ∧ (u.dev = .ready ∨ u.dev = .run ∨ u.dev = .safe) ∧
      u.gb MG_SV_STAT_MW_RUN = false ∧ msCyc (60000 * max 1 (u.g MG_MW_CFG_PERIOD)) ≤ u.now - u.surv.mwDue
    let lines := (if fb then List.range 24 else []) ++ (if idd then (List.range 8).map (24 + ·) else [])
    let skip := lines.takeWhile fun l => !u.mwLineOk l
    let left := lines.drop skip.length
    ∃ t, Machine.exec (.moistureRound dt) s = .next t ∧
      (¬ due → u.sameBut t []) ∧
      (due → ({ u with surv := t.surv, stations := t.stations }).sameBut t ([0x1000005, 0x1000021] ++ (List.range 8).map (0x88E + 0x100 * ·)) ∧
        t.g MG_MW_STAT_SKIP = min (u.g MG_MW_STAT_SKIP + skip.length) 255 ∧
        t.surv = { u.surv with mwDue := u.now, mwCur := left.head?, mwAt := u.now, mwLines := left.tail } ∧
        t.gb MG_SV_STAT_MW_RUN = !left.isEmpty ∧
        t.g MG_MW_STAT_ROUNDS = (if left.isEmpty then (u.g MG_MW_STAT_ROUNDS + 1) % 256 else u.g MG_MW_STAT_ROUNDS) ∧
        ∀ l ∈ left.head?, l < 24 → t.gb (AX_DP_STAT_MW_HOLD (l / 3)) = true)) ∧
  (∀ (s : State) (dt : Nat) (mv : BitVec 16),
    let u := s.tickTo dt
    let l := u.surv.mwCur.getD 0
    let m := u.mwVolt l mv.toNat
    let rs := if l < 24 then 1000000 else u.g PWR_MOIST_RPU_IDD_RPU
    let den := 3300 * m.2 - m.1
    let kohm := if den = 0 then 65535 else min 65535 (rs * m.1 / (1000 * den))
    let now := fun (was : Bool) (th : Nat) => if rs * m.1 < th * 1000 * den then true else if th * 1000 * den < rs * m.1 then false else was
    let warn := now (bit u.surv.mwWarn l) (u.g PWR_MOIST_CFG_WARN_KOHM)
    let fault := now (bit u.surv.mwFault l) (u.g PWR_MOIST_CFG_FAULT_KOHM)
    let n : Fin 8 := if h : l / 3 < 8 then ⟨l / 3, h⟩ else Fin.ofNat 8 (l - 24)
    let skip := u.surv.mwLines.takeWhile fun l => !u.mwLineOk l
    let left := u.surv.mwLines.drop skip.length
    ∃ t, Machine.exec (.moistureTest dt mv) s = .next t ∧
      (u.surv.mwCur = none ∨ u.surveyorUp = false ∨ u.now - u.surv.mwAt < 800000 → u.sameBut t []) ∧
      (u.surv.mwCur = some l → l < 32 → u.surveyorUp = true → 800000 ≤ u.now - u.surv.mwAt →
        ({ u with surv := t.surv, stations := t.stations, axes := t.axes }).sameBut t
          ([0x1000028 + l / 2, PWR_MOIST_STAT_FB_WARN.a, 0x140, 0x1000005, 0x1000012, 0x1000021] ++ (List.range 8).map (0x88E + 0x100 * ·)) ∧
        t.g (if l % 2 = 0 then MG_MW_RES_R_2j (l / 2) else MG_MW_RES_R_2j1 (l / 2)) = kohm ∧
        bit t.surv.mwWarn l = warn ∧ bit t.surv.mwFault l = fault ∧
        (∀ k : Fin 32, k.val ≠ l → bit t.surv.mwWarn k = bit u.surv.mwWarn k ∧ bit t.surv.mwFault k = bit u.surv.mwFault k) ∧
        (l < 24 → t.gBit PWR_MOIST_STAT_FB_WARN n = (bits t.surv.mwWarn (3 * n.val) 3 != 0) ∧ t.gBit PWR_MOIST_STAT_FB_FAULT n = (bits t.surv.mwFault (3 * n.val) 3 != 0)) ∧
        (24 ≤ l → t.gBit PWR_MOIST_STAT_IDD_WARN n = warn ∧ t.gBit PWR_MOIST_STAT_IDD_FAULT n = fault) ∧
        (warn = true ∧ bit u.surv.mwWarn l = false ∨ fault = true ∧ bit u.surv.mwFault l = false → t.evPending 21 = true) ∧
        (∀ x : Fin 8, t.axes[x] = { u.axes[x] with moistDue := u.axes[x].moistDue ||
          (x == n && fault && !bit u.surv.mwFault l && u.gb (PWR_AXCFG_MOIST_ACT n)) }) ∧
        t.surv.mwCur = left.head? ∧ t.surv.mwLines = left.tail ∧ t.surv.mwAt = u.now ∧
        t.g MG_MW_STAT_SKIP = min (u.g MG_MW_STAT_SKIP + skip.length) 255 ∧
        t.g MG_MW_STAT_ROUNDS = (if left.isEmpty then (u.g MG_MW_STAT_ROUNDS + 1) % 256 else u.g MG_MW_STAT_ROUNDS))) ∧
  (∀ (s : State) (dt : Nat) (lk : Link) (e : Fin 64),
    let u := (s.tickTo dt).hostBegin
    let c := DEV_EVCNT_CNT (e.val / 8) (e.val % 8)
    let left := u.g c - u.gWas c
    u.reaches (DEV_EVST_PEND (e.val / 8)).a = true →
    ∃ t, Machine.exec (.eventAck dt lk e) s = .next t ∧
      (u.unarm lk).sameBut t [] ∧
      (u.settled ∨ ¬ (e.val = 7 ∨ e.val = 48 ∨ e.val = 49) → t.g c = left ∧ t.evPending e = decide (left ≠ 0)) ∧
      ∀ x : Fin 64, x ≠ e → u.settled ∨ ¬ (x.val = 7 ∨ x.val = 48 ∨ x.val = 49) →
        t.evPending x = u.evPending x ∧ t.g (DEV_EVCNT_CNT (x.val / 8) (x.val % 8)) = u.g (DEV_EVCNT_CNT (x.val / 8) (x.val % 8))) ∧
  (∀ (s : State) (dt : Nat) (lk : Link) (e : Fin 64),
    let u := (s.tickTo dt).hostBegin
    let c := DEV_EVCNT_CNT (e.val / 8) (e.val % 8)
    let cap := u.gWas (DEV_EVCAP_CAP (e.val / 8) (e.val % 8))
    u.reaches (DEV_EVST_PEND (e.val / 8)).a = true →
    ∃ t, Machine.exec (.eventSimulate dt lk e) s = .next t ∧
      (u.unarm lk).sameBut t [] ∧ t.evPending e = true ∧
      (∀ x : Fin 4, u.ctxs[x].running = true → t.ctxs[x].ev.getLsbD e = true) ∧
      (u.settled → t.levels = u.levels ∧ t.g c = min (u.g c + 1) 15 ∧
        t.cap.trig = (if cap ≠ 0 ∧ u.cap.frozen = false ∧ u.cap.trig = none then some (e.val, cap) else u.cap.trig) ∧
        (∀ x : Fin 64, x ≠ e → t.evPending x = u.evPending x) ∧
        (bit (u.gWas (DEV_EVRT_REC (e.val / 8))) (e.val % 8) = true → u.flOn = true → u.evLost = 0 → u.heldRecs 1 < 255 →
          ((t.rings[1]).recs.getLast?.map fun w => (bits w.toNat 42 6, bits w.toNat 40 2, bits w.toNat 24 16, bits w.toNat 0 24)) =
            some (e.val, 3, 0, bits u.now 12 24)))) ∧
  (∀ (s : State) (dt : Nat),
    let u := s.tickTo dt
    let due := u.cap.trig ≠ none ∧ u.cap.left = some 0 ∧ u.cap.frozen = false
    ∃ t, Machine.exec (.captureFreeze dt) s = .next t ∧
      (¬ due → u.sameBut t []) ∧ (due → ({ u with cap := { u.cap with frozen := true } }).sameBut t [] ∧ t.evPending 55 = true ∧ t.cap.trig = u.cap.trig))
end

