-- ==== Sys2Proof/Laws/Bits.lean ====
section
/-!
SUPPORT. Laws of bit fields and of the sparse map: a field reads as it was written, other fields and other keys stay, the
canonical form is kept.
-/

namespace Sys2Proof.Machine

/-! ## Bit fields -/

theorem bits_lt (x lo w : Nat) : bits x lo w < 2 ^ w := Nat.mod_lt _ (Nat.two_pow_pos w)

theorem bits_of_lt (x w : Nat) (h : x < 2 ^ w) : bits x 0 w = x := by
  simp [bits, Nat.mod_eq_of_lt h]

/-- A number split at the two ends of a field. -/
theorem split_field (x lo w : Nat) : x = x / 2 ^ (lo + w) * 2 ^ (lo + w) + bits x lo w * 2 ^ lo + x % 2 ^ lo := by
  have h1 := Nat.div_add_mod x (2 ^ lo)
  have h2 := Nat.div_add_mod (x / 2 ^ lo) (2 ^ w)
  have h3 : x / 2 ^ lo / 2 ^ w = x / 2 ^ (lo + w) := by rw [Nat.div_div_eq_div_mul, ← Nat.pow_add]
  rw [h3] at h2
  unfold bits
  generalize x / 2 ^ lo % 2 ^ w = q at *
  generalize x / 2 ^ (lo + w) = e at *
  rw [← h2] at h1
  rw [Nat.pow_add 2 lo w]
  generalize x % 2 ^ lo = r at *
  rw [← h1, Nat.mul_add]
  ac_rfl

/-- `setBits` as a sum of what lies above the field, the field and what lies below it. -/
theorem setBits_eq (x lo w v : Nat) :
    setBits x lo w v = x / 2 ^ (lo + w) * 2 ^ (lo + w) + v % 2 ^ w * 2 ^ lo + x % 2 ^ lo := by
  have h := split_field x lo w
  unfold setBits
  omega

theorem field_lt (a b lo w : Nat) (ha : a < 2 ^ w) (hb : b < 2 ^ lo) : a * 2 ^ lo + b < 2 ^ (lo + w) := by
  have : 2 ^ (lo + w) = 2 ^ w * 2 ^ lo := by rw [Nat.add_comm, Nat.pow_add]
  rw [this]
  have h := Nat.mul_le_mul_right (2 ^ lo) (show a + 1 ≤ 2 ^ w from ha)
  rw [Nat.add_mul, Nat.one_mul] at h
  omega

/-- A field reads as it was written. -/
theorem bits_setBits_same (x lo w v : Nat) : bits (setBits x lo w v) lo w = v % 2 ^ w := by
  rw [setBits_eq]
  have hp : 2 ^ (lo + w) = 2 ^ w * 2 ^ lo := by rw [Nat.add_comm, Nat.pow_add]
  have hl : x % 2 ^ lo < 2 ^ lo := Nat.mod_lt _ (Nat.two_pow_pos lo)
  unfold bits
  have : (x / 2 ^ (lo + w) * 2 ^ (lo + w) + v % 2 ^ w * 2 ^ lo + x % 2 ^ lo) / 2 ^ lo
      = x / 2 ^ (lo + w) * 2 ^ w + v % 2 ^ w := by
    rw [hp, show x / (2 ^ w * 2 ^ lo) * (2 ^ w * 2 ^ lo) + v % 2 ^ w * 2 ^ lo + x % 2 ^ lo
      = x % 2 ^ lo + 2 ^ lo * (x / (2 ^ w * 2 ^ lo) * 2 ^ w + v % 2 ^ w) by rw [Nat.mul_add]; ac_rfl,
      Nat.add_mul_div_left _ _ (Nat.two_pow_pos lo), Nat.div_eq_of_lt hl, Nat.zero_add]
  rw [this, Nat.add_comm, Nat.add_mul_mod_self_right, Nat.mod_mod]

/-- A field above the written one stays. -/
theorem bits_setBits_above (x lo w v lo' w' : Nat) (h : lo + w ≤ lo') : bits (setBits x lo w v) lo' w' = bits x lo' w' := by
  rw [setBits_eq]
  unfold bits
  have hb : v % 2 ^ w * 2 ^ lo + x % 2 ^ lo < 2 ^ (lo + w) :=
    field_lt _ _ _ _ (Nat.mod_lt _ (Nat.two_pow_pos w)) (Nat.mod_lt _ (Nat.two_pow_pos lo))
  obtain ⟨k, rfl⟩ := Nat.exists_eq_add_of_le h
  rw [Nat.pow_add 2 (lo + w) k, ← Nat.div_div_eq_div_mul, ← Nat.div_div_eq_div_mul, Nat.add_assoc,
    Nat.add_comm (x / 2 ^ (lo + w) * 2 ^ (lo + w)), Nat.add_mul_div_right _ _ (Nat.two_pow_pos _), Nat.div_eq_of_lt hb,
    Nat.zero_add]

/-- A field below the written one stays. -/
theorem bits_setBits_below (x lo w v lo' w' : Nat) (h : lo' + w' ≤ lo) : bits (setBits x lo w v) lo' w' = bits x lo' w' := by
  rw [setBits_eq]
  unfold bits
  have e : ∀ y : Nat, y / 2 ^ lo' % 2 ^ w' = y % 2 ^ lo / 2 ^ lo' % 2 ^ w' := by
    intro y
    obtain ⟨k, rfl⟩ := Nat.exists_eq_add_of_le h
    rw [Nat.add_assoc, Nat.pow_add 2 lo' (w' + k), Nat.mod_mul_right_div_self, Nat.pow_add 2 w' k, Nat.mod_mul_right_mod]
  rw [e, e x]
  congr 2
  obtain ⟨q, hq⟩ : 2 ^ lo ∣ x / 2 ^ (lo + w) * 2 ^ (lo + w) + v % 2 ^ w * 2 ^ lo := by
    rw [Nat.pow_add]
    exact Nat.dvd_add (Nat.dvd_mul_left_of_dvd (Nat.dvd_mul_right _ _) _) (Nat.dvd_mul_left _ _)
  rw [hq, Nat.mul_add_mod, Nat.mod_mod]

/-- A field that the written one does not touch stays. -/
theorem bits_setBits_ne (x lo w v lo' w' : Nat) (h : lo + w ≤ lo' ∨ lo' + w' ≤ lo) :
    bits (setBits x lo w v) lo' w' = bits x lo' w' :=
  h.elim (bits_setBits_above x lo w v lo' w') (bits_setBits_below x lo w v lo' w')

theorem setBits_lt (x lo w v k : Nat) (hx : x < 2 ^ k) (h : lo + w ≤ k) : setBits x lo w v < 2 ^ k := by
  rw [setBits_eq, Nat.add_assoc]
  obtain ⟨j, rfl⟩ := Nat.exists_eq_add_of_le h
  have hb : v % 2 ^ w * 2 ^ lo + x % 2 ^ lo < 2 ^ (lo + w) :=
    field_lt _ _ _ _ (Nat.mod_lt _ (Nat.two_pow_pos w)) (Nat.mod_lt _ (Nat.two_pow_pos lo))
  have ha : x / 2 ^ (lo + w) < 2 ^ j := by
    rw [Nat.div_lt_iff_lt_mul (Nat.two_pow_pos _), ← Nat.pow_add]
    rwa [Nat.add_comm j]
  exact field_lt _ _ _ _ ha hb

/-- Writing what a field holds changes nothing. -/
theorem setBits_bits (x lo w : Nat) : setBits x lo w (bits x lo w) = x := by
  rw [setBits_eq, Nat.mod_eq_of_lt (bits_lt x lo w)]
  exact (split_field x lo w).symm

theorem bit_eq_bits (x i : Nat) : bit x i = (bits x i 1 == 1) := by simp [bit, bits]

theorem bit_setBits_same (x i : Nat) (b : Bool) : bit (setBits x i 1 (b2n b)) i = b := by
  rw [bit_eq_bits, bits_setBits_same]
  cases b <;> rfl

theorem bit_setBits_ne (x i j : Nat) (v : Nat) (h : i ≠ j) : bit (setBits x i 1 v) j = bit x j := by
  rw [bit_eq_bits, bit_eq_bits, bits_setBits_ne _ _ _ _ _ _ (by omega)]

theorem W_toNat (x : Nat) (h : x < 2 ^ 32) : (W x).toNat = x := by
  simp only [W, BitVec.toNat_ofNat]
  exact Nat.mod_eq_of_lt h

/-! ## The sparse map -/

section
variable {α : Type}

theorem kvGet_kvIns_same (m : List (Nat × α)) (a : Nat) (v d : α) : kvGet (kvIns m a v) a d = v := by
  induction m with
  | nil => simp [kvIns, kvGet]
  | cons e t ih =>
    obtain ⟨b, x⟩ := e
    simp only [kvIns]
    split
    · simp [kvGet]
    · split
      · simp [kvGet]
      · simp [kvGet, *]

theorem kvGet_kvIns_ne (m : List (Nat × α)) (a b : Nat) (v d : α) (h : a ≠ b) : kvGet (kvIns m a v) b d = kvGet m b d := by
  induction m with
  | nil => simp [kvIns, kvGet, Ne.symm h]
  | cons e t ih =>
    obtain ⟨c, x⟩ := e
    simp only [kvIns]
    split
    · simp [kvGet, Ne.symm h]
    · split
      · next h2 => subst h2; simp [kvGet, Ne.symm h]
      · simp only [kvGet, ih]

theorem kvGet_filter_same (m : List (Nat × α)) (a : Nat) (d : α) :
    kvGet (m.filter (fun e => !decide (e.1 = a))) a d = d := by
  induction m with
  | nil => rfl
  | cons e t ih =>
    obtain ⟨c, x⟩ := e
    by_cases h : c = a
    · simp [h, ih]
    · simp [h, kvGet, ih, Ne.symm h]

theorem kvGet_filter (m : List (Nat × α)) (p : Nat → Bool) (b : Nat) (d : α) :
    kvGet (m.filter (fun e => p e.1)) b d = if p b then kvGet m b d else d := by
  induction m with
  | nil => simp [kvGet]
  | cons e t ih =>
    obtain ⟨c, x⟩ := e
    by_cases h : p c
    · by_cases hb : b = c
      · subst hb; simp [h, kvGet]
      · simp [h, kvGet, ih, hb]
    · by_cases hb : b = c
      · subst hb; simp [h, ih]
      · simp [h, kvGet, ih, hb]

variable [DecidableEq α]

/-- A key reads as it was written. -/
theorem kvGet_kvSet_same (m : List (Nat × α)) (a : Nat) (v d : α) : kvGet (kvSet m a v d) a d = v := by
  unfold kvSet
  split
  · next h => subst h; exact kvGet_filter_same m a v
  · exact kvGet_kvIns_same m a v d

/-- Every other key stays. -/
theorem kvGet_kvSet_ne (m : List (Nat × α)) (a b : Nat) (v d d' : α) (h : a ≠ b) :
    kvGet (kvSet m a v d) b d' = kvGet m b d' := by
  unfold kvSet
  split
  · have := kvGet_filter m (fun k => !decide (k = a)) b d'
    simpa [Ne.symm h] using this
  · exact kvGet_kvIns_ne m a b v d' h

theorem kvWfFrom_mono (dflt : Nat → α) (m : List (Nat × α)) (lo lo' : Nat) (h : lo' ≤ lo) (w : kvWfFrom dflt lo m = true) :
    kvWfFrom dflt lo' m = true := by
  cases m with
  | nil => rfl
  | cons e t =>
    simp only [kvWfFrom, Bool.and_eq_true, decide_eq_true_eq] at w ⊢
    exact ⟨⟨by omega, w.1.2⟩, w.2⟩

theorem kvWfFrom_filter (dflt : Nat → α) (p : Nat × α → Bool) (m : List (Nat × α)) (lo : Nat) (w : kvWfFrom dflt lo m = true) :
    kvWfFrom dflt lo (m.filter p) = true := by
  induction m generalizing lo with
  | nil => rfl
  | cons e t ih =>
    simp only [kvWfFrom, Bool.and_eq_true, decide_eq_true_eq] at w
    simp only [List.filter]
    split
    · simp only [kvWfFrom, Bool.and_eq_true, decide_eq_true_eq]
      exact ⟨w.1, ih _ w.2⟩
    · exact ih _ (kvWfFrom_mono dflt t _ _ (by omega) w.2)

theorem kvWfFrom_kvIns (dflt : Nat → α) (m : List (Nat × α)) (lo a : Nat) (v : α) (hl : lo ≤ a) (hv : v ≠ dflt a)
    (w : kvWfFrom dflt lo m = true) : kvWfFrom dflt lo (kvIns m a v) = true := by
  induction m generalizing lo with
  | nil => simp [kvIns, kvWfFrom, hl, hv]
  | cons e t ih =>
    obtain ⟨b, x⟩ := e
    simp only [kvWfFrom, Bool.and_eq_true, decide_eq_true_eq] at w
    simp only [kvIns]
    split
    · next h =>
      simp only [kvWfFrom, Bool.and_eq_true, decide_eq_true_eq]
      exact ⟨⟨hl, hv⟩, ⟨by omega, w.1.2⟩, w.2⟩
    · split
      · next h =>
        subst h
        simp only [kvWfFrom, Bool.and_eq_true, decide_eq_true_eq]
        exact ⟨⟨hl, hv⟩, w.2⟩
      · next h1 h2 =>
        simp only [kvWfFrom, Bool.and_eq_true, decide_eq_true_eq]
        exact ⟨w.1, ih _ (by omega) w.2⟩

/-- A write keeps the canonical form. -/
theorem kvWf_kvSet (dflt : Nat → α) (m : List (Nat × α)) (a : Nat) (v : α) (w : kvWf dflt m = true) :
    kvWf dflt (kvSet m a v (dflt a)) = true := by
  unfold kvSet
  split
  · exact kvWfFrom_filter dflt _ m 0 w
  · next h => exact kvWfFrom_kvIns dflt m 0 a v (Nat.zero_le _) h w

theorem kvWf_filter (dflt : Nat → α) (p : Nat × α → Bool) (m : List (Nat × α)) (w : kvWf dflt m = true) :
    kvWf dflt (m.filter p) = true := kvWfFrom_filter dflt p m 0 w

end

/-! ## Folds -/

/-- What every part keeps, the fold keeps. -/
theorem forFin_ind {σ : Type} (P : σ → Prop) (k : Nat) (f : Fin k → σ → σ) (h : ∀ i s, P s → P (f i s)) (s : σ) (hs : P s) :
    P (forFin k f s) := by
  unfold forFin
  generalize List.finRange k = l
  induction l generalizing s with
  | nil => exact hs
  | cons a t ih => exact ih _ (h a s hs)

theorem foldl_ind {σ ι : Type} (P : σ → Prop) (l : List ι) (f : σ → ι → σ) (h : ∀ s i, P s → P (f s i)) (s : σ) (hs : P s) :
    P (l.foldl f s) := by
  induction l generalizing s with
  | nil => exact hs
  | cons a t ih => exact ih _ (h s a hs)

@[simp] theorem vupd_vupd {α : Type} {k : Nat} (v : Vector α k) (i : Fin k) (f g : α → α) :
    vupd (vupd v i f) i g = vupd v i fun x => g (f x) := by
  simp [vupd]

theorem vupd_same {α : Type} {k : Nat} (v : Vector α k) (i : Fin k) (f : α → α) : (vupd v i f)[i] = f v[i] := by
  simp [vupd]

theorem vupd_ne {α : Type} {k : Nat} (v : Vector α k) (i j : Fin k) (f : α → α) (h : i ≠ j) : (vupd v i f)[j] = v[j] := by
  have : i.val ≠ j.val := fun e => h (Fin.ext e)
  simp [vupd, this]

end Sys2Proof.Machine
end

