-- ==== Sys2Proof/Laws/Kept.lean ====
section
/-!
SUPPORT. Two relations between a state and what an operation makes of it, with the rules by which a definition that is built of
smaller operations inherits them. `Kept`: the queue and time stay, canonical stores stay canonical. `Calm`: beside that, the tick
stays, and the device either stays in its state or goes to SAFE.
-/

namespace Sys2Proof.Machine

/-- What every operation keeps. -/
structure Kept (s t : State) : Prop where
  pending : t.pending = s.pending
  now : t.now = s.now
  wf : s.wf = true → t.wf = true

/-- The tick: what only the tick itself and the resets move. -/
def State.clockwork (s : State) : Bool × Nat × Nat × Bool × List Nat :=
  (s.tick.on, s.tick.mark, s.tick.no, s.tick.commitDue, s.tick.fins)

/-- What every operation inside a command keeps, resets and the tick itself apart. -/
structure Calm (s t : State) : Prop extends Kept s t where
  clock : t.clockwork = s.clockwork
  dev : t.dev = s.dev ∨ t.dev = .safe

theorem Kept.refl (s : State) : Kept s s := ⟨rfl, rfl, id⟩

theorem Kept.trans {a b c : State} (h : Kept a b) (k : Kept b c) : Kept a c := ⟨k.pending.trans h.pending, k.now.trans h.now, fun w => k.wf (h.wf w)⟩

theorem Calm.refl (s : State) : Calm s s := ⟨Kept.refl s, rfl, .inl rfl⟩

theorem Calm.trans {a b c : State} (h : Calm a b) (k : Calm b c) : Calm a c := by
  refine ⟨h.toKept.trans k.toKept, k.clock.trans h.clock, ?_⟩
  rcases k.dev with e | e
  · rw [e]; exact h.dev
  · exact .inr e

theorem Kept.calm {a b c : State} (h : Kept a b) (k : Calm b c) : Kept a c := h.trans k.toKept

/-! ## Choices and folds -/

theorem Calm.ite {s a b : State} {c : Prop} [Decidable c] (ha : Calm s a) (hb : Calm s b) : Calm s (if c then a else b) := by
  split <;> assumption

theorem Kept.ite {s a b : State} {c : Prop} [Decidable c] (ha : Kept s a) (hb : Kept s b) : Kept s (if c then a else b) := by
  split <;> assumption

theorem Calm.dite {s : State} {c : Prop} [Decidable c] {a : c → State} {b : ¬c → State} (ha : ∀ h, Calm s (a h))
    (hb : ∀ h, Calm s (b h)) : Calm s (if h : c then a h else b h) := by
  split
  · exact ha _
  · exact hb _

theorem Kept.dite {s : State} {c : Prop} [Decidable c] {a : c → State} {b : ¬c → State} (ha : ∀ h, Kept s (a h))
    (hb : ∀ h, Kept s (b h)) : Kept s (if h : c then a h else b h) := by
  split
  · exact ha _
  · exact hb _

theorem Calm.fst_ite {α : Type} {s : State} {a b : State × α} {c : Prop} [Decidable c] (ha : Calm s a.1) (hb : Calm s b.1) :
    Calm s (if c then a else b).1 := by
  split <;> assumption

theorem Kept.fst_ite {α : Type} {s : State} {a b : State × α} {c : Prop} [Decidable c] (ha : Kept s a.1) (hb : Kept s b.1) :
    Kept s (if c then a else b).1 := by
  split <;> assumption

theorem Calm.foldl {ι : Type} {s a : State} {l : List ι} {f : State → ι → State} (hf : ∀ x i, Calm s x → Calm s (f x i)) (ha : Calm s a) :
    Calm s (l.foldl f a) :=
  foldl_ind (fun t => Calm s t) l f hf a ha

theorem Kept.foldl {ι : Type} {s a : State} {l : List ι} {f : State → ι → State} (hf : ∀ x i, Kept s x → Kept s (f x i)) (ha : Kept s a) :
    Kept s (l.foldl f a) :=
  foldl_ind (fun t => Kept s t) l f hf a ha

theorem Calm.forFin {k : Nat} {s a : State} {f : Fin k → State → State} (hf : ∀ i x, Calm s x → Calm s (f i x)) (ha : Calm s a) :
    Calm s (forFin k f a) :=
  forFin_ind (fun t => Calm s t) k f hf a ha

theorem Kept.forFin {k : Nat} {s a : State} {f : Fin k → State → State} (hf : ∀ i x, Kept s x → Kept s (f i x)) (ha : Kept s a) :
    Kept s (forFin k f a) :=
  forFin_ind (fun t => Kept s t) k f hf a ha

theorem Calm.forList {ι : Type} {l : List ι} {s a : State} {f : ι → State → State} (hf : ∀ i x, Calm s x → Calm s (f i x)) (ha : Calm s a) :
    Calm s (forList l f a) := Calm.foldl (fun x i => hf i x) ha

/-! ## Updates -/

/-- An update that leaves the queue, time, the device state and every store. -/
theorem Calm.upd {s0 s : State} {groups links grelas mbox indQ cmds nextId lastEnd backlog rings evq evLost levels cap tick arb axes
    coils stations ctxs chainOut chainRst chainRej chainReach chainStall chainMode boot power surv otp free cyc}
    (h : Calm s0 s) (ht : (tick.on, tick.mark, tick.no, tick.commitDue, tick.fins) =
      (s.tick.on, s.tick.mark, s.tick.no, s.tick.commitDue, s.tick.fins)) :
    Calm s0 ⟨⟨s.dev, s.regs, s.staged, groups, links, grelas, mbox, indQ, s.window, cmds, nextId, lastEnd,
      backlog, rings, evq, evLost, levels, cap, tick, arb, s.ecc, axes, coils, stations, ctxs, s.store, s.chain, chainOut, chainRst,
      chainRej, chainReach, chainStall, chainMode, boot, power, surv, s.nvm, otp, s.flash, free⟩, s.pending, s.now, cyc⟩ := by
  refine h.trans ⟨⟨rfl, rfl, fun w => w⟩, ?_, .inl rfl⟩
  exact ht

/-- The device goes to SAFE. -/
theorem Calm.updSafe {s0 s : State} {groups links grelas mbox indQ cmds nextId lastEnd backlog rings evq evLost levels cap arb axes
    coils stations ctxs chainOut chainRst chainRej chainReach chainStall chainMode boot power surv otp free cyc}
    (h : Calm s0 s) :
    Calm s0 ⟨⟨.safe, s.regs, s.staged, groups, links, grelas, mbox, indQ, s.window, cmds, nextId, lastEnd,
      backlog, rings, evq, evLost, levels, cap, s.tick, arb, s.ecc, axes, coils, stations, ctxs, s.store, s.chain, chainOut, chainRst,
      chainRej, chainReach, chainStall, chainMode, boot, power, surv, s.nvm, otp, s.flash, free⟩, s.pending, s.now, cyc⟩ :=
  h.trans ⟨⟨rfl, rfl, fun w => w⟩, rfl, .inr rfl⟩

/-- An update that leaves the queue and every store. -/
theorem Kept.upd {s0 s : State} {dev groups links grelas mbox indQ cmds nextId lastEnd backlog rings evq evLost levels cap
    tick arb axes coils stations ctxs chainOut chainRst chainRej chainReach chainStall chainMode boot power surv otp free cyc}
    (h : Kept s0 s) :
    Kept s0 ⟨⟨dev, s.regs, s.staged, groups, links, grelas, mbox, indQ, s.window, cmds, nextId, lastEnd,
      backlog, rings, evq, evLost, levels, cap, tick, arb, s.ecc, axes, coils, stations, ctxs, s.store, s.chain, chainOut, chainRst,
      chainRej, chainReach, chainStall, chainMode, boot, power, surv, s.nvm, otp, s.flash, free⟩, s.pending, s.now, cyc⟩ :=
  h.trans ⟨rfl, rfl, fun w => w⟩

/-! ## The stores -/

theorem State.wf_iff (s : State) : s.wf = true ↔
    RegFile.wf s.regs = true ∧ RegFile.wf s.staged = true ∧ kvWf (fun _ => (0 : Word)) s.window = true ∧
      kvWf (fun _ => (0 : BitVec 64)) s.store = true ∧ kvWf (fun k => W (chainDflt (k % 8))) s.chain = true ∧
      Memory.wf s.flash = true ∧ s.nvm.wf = true ∧ s.ecc[0].wf = true ∧ s.ecc[1].wf = true := by
  simp only [State.wf, Bool.and_eq_true, and_assoc]

theorem Calm.regs {s0 s : State} {r : RegFile} (h : Calm s0 s) (hr : RegFile.wf s.regs = true → RegFile.wf r = true) :
    Calm s0 { s with regs := r } := by
  refine h.trans ⟨⟨rfl, rfl, fun w => ?_⟩, rfl, .inl rfl⟩
  rw [State.wf_iff] at w ⊢
  exact ⟨hr w.1, w.2⟩

theorem Calm.staged {s0 s : State} {r : RegFile} (h : Calm s0 s) (hr : RegFile.wf s.staged = true → RegFile.wf r = true) :
    Calm s0 { s with staged := r } := by
  refine h.trans ⟨⟨rfl, rfl, fun w => ?_⟩, rfl, .inl rfl⟩
  rw [State.wf_iff] at w ⊢
  exact ⟨w.1, hr w.2.1, w.2.2⟩

theorem Calm.window {s0 s : State} {r : RegFile} (h : Calm s0 s)
    (hr : kvWf (fun _ => (0 : Word)) s.window = true → kvWf (fun _ => (0 : Word)) r = true) :
    Calm s0 { s with window := r } := by
  refine h.trans ⟨⟨rfl, rfl, fun w => ?_⟩, rfl, .inl rfl⟩
  rw [State.wf_iff] at w ⊢
  exact ⟨w.1, w.2.1, hr w.2.2.1, w.2.2.2⟩

theorem Calm.store {s0 s : State} {r : List (Nat × BitVec 64)} (h : Calm s0 s)
    (hr : kvWf (fun _ => (0 : BitVec 64)) s.store = true → kvWf (fun _ => (0 : BitVec 64)) r = true) :
    Calm s0 { s with store := r } := by
  refine h.trans ⟨⟨rfl, rfl, fun w => ?_⟩, rfl, .inl rfl⟩
  rw [State.wf_iff] at w ⊢
  exact ⟨w.1, w.2.1, w.2.2.1, hr w.2.2.2.1, w.2.2.2.2⟩

theorem Calm.chain {s0 s : State} {r : RegFile} (h : Calm s0 s)
    (hr : kvWf (fun k => W (chainDflt (k % 8))) s.chain = true → kvWf (fun k => W (chainDflt (k % 8))) r = true) :
    Calm s0 { s with chain := r } := by
  refine h.trans ⟨⟨rfl, rfl, fun w => ?_⟩, rfl, .inl rfl⟩
  rw [State.wf_iff] at w ⊢
  exact ⟨w.1, w.2.1, w.2.2.1, w.2.2.2.1, hr w.2.2.2.2.1, w.2.2.2.2.2⟩

theorem Calm.flash {s0 s : State} {r : List (Nat × Byte)} (h : Calm s0 s) (hr : Memory.wf s.flash = true → Memory.wf r = true) :
    Calm s0 { s with flash := r } := by
  refine h.trans ⟨⟨rfl, rfl, fun w => ?_⟩, rfl, .inl rfl⟩
  rw [State.wf_iff] at w ⊢
  exact ⟨w.1, w.2.1, w.2.2.1, w.2.2.2.1, w.2.2.2.2.1, hr w.2.2.2.2.2.1, w.2.2.2.2.2.2⟩

theorem State.nv_calm {s0 : State} (s : State) (f : Nvm → Nvm) (hf : ∀ m : Nvm, m.wf = true → (f m).wf = true)
    (h : Calm s0 s) : Calm s0 (s.nv f) := by
  refine h.trans ⟨⟨rfl, rfl, fun w => ?_⟩, rfl, .inl rfl⟩
  rw [State.wf_iff] at w ⊢
  exact ⟨w.1, w.2.1, w.2.2.1, w.2.2.2.1, w.2.2.2.2.1, w.2.2.2.2.2.1, hf _ w.2.2.2.2.2.2.1, w.2.2.2.2.2.2.2⟩

theorem State.mm_calm {s0 : State} (s : State) (m : Mem) (f : EccSt → EccSt) (hf : ∀ e : EccSt, e.wf = true → (f e).wf = true)
    (h : Calm s0 s) : Calm s0 (s.mm m f) := by
  refine h.trans ⟨⟨rfl, rfl, fun w => ?_⟩, rfl, .inl rfl⟩
  rw [State.wf_iff] at w ⊢
  refine ⟨w.1, w.2.1, w.2.2.1, w.2.2.2.1, w.2.2.2.2.1, w.2.2.2.2.2.1, w.2.2.2.2.2.2.1, ?_⟩
  cases m
  · exact ⟨by simpa [State.mm, vupd, mix] using hf _ w.2.2.2.2.2.2.2.1, by simpa [State.mm, vupd, mix] using w.2.2.2.2.2.2.2.2⟩
  · exact ⟨by simpa [State.mm, vupd, mix] using w.2.2.2.2.2.2.2.1, by simpa [State.mm, vupd, mix] using hf _ w.2.2.2.2.2.2.2.2⟩

theorem State.setWord_calm {s0 : State} (s : State) (a : Nat) (w : Word) (h : Calm s0 s) : Calm s0 (s.setWord a w) :=
  Calm.regs h (kvWf_kvSet resetWord s.regs a w)

theorem State.setStaged_calm {s0 : State} (s : State) (a : Nat) (w : Word) (h : Calm s0 s) : Calm s0 (s.setStaged a w) :=
  Calm.staged h (kvWf_kvSet resetWord s.staged a w)

end Sys2Proof.Machine
end

