-- ==== Sys2Proof/Laws/Stores.lean ====
section
/-!
SUPPORT. Every operation that writes an addressed store keeps its canonical form: the register files, the configuration flash,
the NVM, the program store, the chain windows, the error marks.
-/

namespace Sys2Proof.Machine

theorem kvWf_drop {α : Type} [DecidableEq α] (dflt : Nat → α) (m : List (Nat × α)) (p : Nat → Bool) (w : kvWf dflt m = true) :
    kvWf dflt (kvDrop m p) = true := kvWf_filter dflt _ m w

theorem kvWf_foldSet {α ι : Type} [DecidableEq α] (dflt : Nat → α) (l : List ι) (k : ι → Nat) (v : ι → α) (m : List (Nat × α))
    (w : kvWf dflt m = true) : kvWf dflt (l.foldl (fun m x => kvSet m (k x) (v x) (dflt (k x))) m) = true :=
  foldl_ind (fun m => kvWf dflt m = true) l _ (fun m x h => kvWf_kvSet dflt m (k x) (v x) h) m w

/-- Bytes programmed into a byte store. -/
theorem putBytes_wf (m : List (Nat × Byte)) (o : Nat) (l : List Nat) (w : Memory.wf m = true) :
    Memory.wf (putBytes m o l) = true :=
  kvWf_foldSet (fun _ => (0xFF : Byte)) l.zipIdx (fun x => o + x.2) (fun x => BitVec.ofNat 8 x.1) m w

/-- Words written into the field book. -/
theorem Nvm.fbPut_wf (m : Nvm) (a : Nat) (ws : List Nat) (w : m.wf = true) : (m.fbPut a ws).wf = true := by
  simp only [Nvm.wf, Nvm.fbPut, Bool.and_eq_true] at w ⊢
  exact ⟨⟨kvWf_foldSet (fun _ => (0xFFFFFFFF : Word)) ws.zipIdx (fun x => a + x.2) (fun x => W x.1) m.fb w.1.1, w.1.2⟩, w.2⟩

/-- Words of the field book erased. -/
theorem Nvm.fbDrop_wf (m : Nvm) (p : Nat → Bool) (w : m.wf = true) : ({ m with fb := kvDrop m.fb p } : Nvm).wf = true := by
  simp only [Nvm.wf, Bool.and_eq_true] at w ⊢
  exact ⟨⟨kvWf_drop _ _ p w.1.1, w.1.2⟩, w.2⟩

/-- A word of the benchmark store. -/
theorem Nvm.bench_wf (m : Nvm) (a : Nat) (v : Word) (w : m.wf = true) :
    ({ m with bench := kvSet m.bench a v (W 0xFFFFFFFF) } : Nvm).wf = true := by
  simp only [Nvm.wf, Bool.and_eq_true] at w ⊢
  exact ⟨⟨w.1.1, kvWf_kvSet (fun _ => (0xFFFFFFFF : Word)) _ _ _ w.1.2⟩, w.2⟩

/-- A sector's erase count. -/
theorem Nvm.wear_wf (m : Nvm) (a : Nat) (v : Word) (w : m.wf = true) :
    ({ m with wear := kvSet m.wear a v 0 } : Nvm).wf = true := by
  simp only [Nvm.wf, Bool.and_eq_true] at w ⊢
  exact ⟨w.1, kvWf_kvSet (fun _ => (0 : Word)) _ _ _ w.2⟩

variable {s0 : State} (s : State)

/-- Error marks of a word of a protected memory. -/
theorem State.setBad_calm (m : Mem) (a x : Nat) (h : Calm s0 s) : Calm s0 (s.setBad m a x) :=
  State.mm_calm s m _ (fun e w => kvWf_kvSet (fun _ => (0 : BitVec 20)) e.bad a _ w) h

/-- A location of a chain device's window. -/
theorem State.chainPut_calm (v : Fin 8) (a x : Nat) (ha : a < 8) (h : Calm s0 s) : Calm s0 (s.chainPut v a x) :=
  Calm.chain h fun w => by
    have e : chainDflt ((8 * v.val + a) % 8) = chainDflt a := congrArg chainDflt (by omega)
    have k := kvWf_kvSet (fun k => W (chainDflt (k % 8))) s.chain (8 * v.val + a) (W x) w
    simpa only [e] using k

/-- A range of the configuration flash erased. -/
theorem State.flashErase_calm (a n : Nat) (h : Calm s0 s) : Calm s0 (s.flashErase a n) :=
  Calm.flash h (kvWf_drop _ _ _)

/-- Bytes of the open update programmed, into the flash or a firmware slot. -/
theorem State.updPut_calm (o : Nat) (l : List Nat) (h : Calm s0 s) : Calm s0 (s.updPut o l) := by
  unfold State.updPut
  split
  · exact Calm.flash h (putBytes_wf _ _ _)
  · exact State.nv_calm s _ (fun _ w => w) h

/-- Registers returned to their reset values. -/
theorem State.resetRegs_wf (p : Nat → Bool) (w : RegFile.wf s.regs = true) : RegFile.wf (s.resetRegs p).regs = true :=
  kvWf_drop _ _ _ w

/-- Staged values discarded. -/
theorem RegFile.restage_wf (r : RegFile) (p : Nat → Bool) (own : List (Nat × Word)) (w : RegFile.wf r = true) :
    RegFile.wf (own.foldl (fun m e => kvSet m e.1 e.2 (resetWord e.1)) (kvDrop r p)) = true :=
  kvWf_foldSet resetWord own (fun e => e.1) (fun e => e.2) _ (kvWf_drop _ _ _ w)

/-- Words put into the program store. -/
theorem State.applyProgram_calm (x : Sect) (h : Calm s0 s) : Calm s0 (s.applyProgram x) :=
  Calm.store h fun w => kvWf_foldSet (fun _ => (0 : BitVec 64)) _ _ _ _ w

end Sys2Proof.Machine
end

