-- ==== Sys2Proof/Laws/Calm.lean ====
section
/-!
SUPPORT. One lemma for every operation of the model: what it makes of a state is Calm (queue, canonical stores, time and tick stay; the device
stays in its state or goes to SAFE) or, for resets, starts and the tick itself, Kept (queue and canonical stores stay).
Operations stand in the order in which they call one another.
-/

set_option linter.unusedTactic false
set_option linter.unreachableTactic false

namespace Sys2Proof.Machine

theorem hostOver_wf (l : List (Nat × Word × Word)) (m : RegFile) (w : RegFile.wf m = true) : RegFile.wf (hostOver l m) = true :=
  foldl_ind (fun m : RegFile => RegFile.wf m = true) l _ (fun m x h => kvWf_kvSet resetWord m x.1 _ h) m w

theorem State.noteLast_calm {b0 : State} (s : State) (c : Cmd) (st : Nat) (h0 : Calm b0 s) : Calm b0 (s.noteLast c st) := by
  unfold State.noteLast
  repeat' (first
    | (with_reducible assumption)
    | (with_reducible apply Calm.ite)
    | (with_reducible apply Calm.dite)
    | (with_reducible refine Calm.upd ?_ rfl)
    | (with_reducible refine Calm.updSafe ?_)
    | intro _
    | split)

theorem State.cmdUpd_calm {b0 : State} (s : State) (id : Nat) (f : Cmd → Cmd) (h0 : Calm b0 s) : Calm b0 (s.cmdUpd id f) := by
  unfold State.cmdUpd
  repeat' (first
    | (with_reducible assumption)
    | (with_reducible apply Calm.ite)
    | (with_reducible refine Calm.upd ?_ rfl)
    | (with_reducible refine Calm.updSafe ?_)
    | intro _
    | split)

theorem State.setPh_calm {b0 : State} (s : State) (id : Nat) (p : Phase) (h0 : Calm b0 s) : Calm b0 (s.setPh id p) := by
  unfold State.setPh
  repeat' (first
    | (with_reducible assumption)
    | (with_reducible apply State.cmdUpd_calm)
    | intro _
    | split)

theorem State.markEnd_calm {b0 : State} (s : State) (id : Nat) (st : Nat) (h0 : Calm b0 s) : Calm b0 (s.markEnd id st) := by
  unfold State.markEnd
  repeat' (first
    | intro _
    | (with_reducible assumption)
    | (with_reducible apply Calm.ite)
    | (with_reducible apply State.cmdUpd_calm)
    | (with_reducible apply State.noteLast_calm)
    | (with_reducible apply State.setPh_calm)
    | split
    | dsimp only)

theorem State.doneNow_calm {b0 : State} (s : State) (id : Nat) (h0 : Calm b0 s) : Calm b0 (s.doneNow id) := by
  unfold State.doneNow
  repeat' (first
    | (with_reducible assumption)
    | (with_reducible apply State.markEnd_calm)
    | intro _
    | split)

theorem State.put_calm {b0 : State} (s : State) (f : Fld) (v : Nat) (h0 : Calm b0 s) : Calm b0 (s.put f v) := by
  unfold State.put
  repeat' (first
    | (with_reducible assumption)
    | (with_reducible apply State.setWord_calm)
    | intro _
    | split)

theorem State.put_kept {b0 : State} (s : State) (f : Fld) (v : Nat) (h0 : Kept b0 s) : Kept b0 (s.put f v) :=
  h0.calm (State.put_calm _ _ _ (Calm.refl _))

theorem State.putB_calm {b0 : State} (s : State) (f : Fld) (b : Bool) (h0 : Calm b0 s) : Calm b0 (s.putB f b) := by
  unfold State.putB
  repeat' (first
    | (with_reducible assumption)
    | (with_reducible apply State.put_calm)
    | intro _
    | split)

theorem State.putB_kept {b0 : State} (s : State) (f : Fld) (b : Bool) (h0 : Kept b0 s) : Kept b0 (s.putB f b) :=
  h0.calm (State.putB_calm _ _ _ (Calm.refl _))

theorem State.addSat_calm {b0 : State} (s : State) (f : Fld) (k : Nat) (h0 : Calm b0 s) : Calm b0 (s.addSat f k) := by
  unfold State.addSat
  repeat' (first
    | (with_reducible assumption)
    | (with_reducible apply State.put_calm)
    | intro _
    | split)

theorem State.addSat_kept {b0 : State} (s : State) (f : Fld) (k : Nat) (h0 : Kept b0 s) : Kept b0 (s.addSat f k) :=
  h0.calm (State.addSat_calm _ _ _ (Calm.refl _))

theorem State.inc_calm {b0 : State} (s : State) (f : Fld) (h0 : Calm b0 s) : Calm b0 (s.inc f) := by
  unfold State.inc
  repeat' (first
    | (with_reducible assumption)
    | (with_reducible apply State.addSat_calm)
    | intro _
    | split)

theorem State.inc_kept {b0 : State} (s : State) (f : Fld) (h0 : Kept b0 s) : Kept b0 (s.inc f) :=
  h0.calm (State.inc_calm _ _ (Calm.refl _))

theorem State.mbWords_calm {b0 : State} (s : State) (m : Nat) (ws : List Nat) (h0 : Calm b0 s) : Calm b0 (s.mbWords m ws) := by
  unfold State.mbWords
  repeat' (first
    | (with_reducible assumption)
    | (with_reducible apply State.put_calm)
    | (with_reducible apply Calm.foldl)
    | intro _
    | split)

theorem State.mbFill_calm {b0 : State} (s : State) (m : Fin 8) (ws : List Nat) (h0 : Calm b0 s) : Calm b0 (s.mbFill m ws) := by
  unfold State.mbFill
  repeat' (first
    | (with_reducible assumption)
    | (with_reducible apply State.mbWords_calm)
    | (with_reducible apply State.put_calm)
    | intro _
    | split)

theorem State.mbDeliver_calm {b0 : State} (s : State) (m : Fin 8) (ws : List Nat) (h0 : Calm b0 s) : Calm b0 (s.mbDeliver m ws) := by
  unfold State.mbDeliver
  repeat' (first
    | (with_reducible assumption)
    | (with_reducible apply Calm.ite)
    | (with_reducible apply State.inc_calm)
    | (with_reducible apply State.mbFill_calm)
    | (with_reducible apply State.put_calm)
    | (with_reducible refine Calm.upd ?_ rfl)
    | (with_reducible refine Calm.updSafe ?_)
    | intro _
    | split)

theorem State.capture_calm {b0 : State} (s : State) (item : Nat) (idx : Nat) (ws : List Nat) (h0 : Calm b0 s) : Calm b0 (s.capture item idx ws) := by
  unfold State.capture
  repeat' (first
    | intro _
    | (with_reducible assumption)
    | (with_reducible apply Calm.ite)
    | (with_reducible apply State.mbDeliver_calm)
    | (with_reducible apply Calm.foldl)
    | split
    | dsimp only)

theorem State.su_calm {b0 : State} (s : State) (f : SurvSt → SurvSt) (h0 : Calm b0 s) : Calm b0 (s.su f) := by
  unfold State.su
  repeat' (first
    | (with_reducible assumption)
    | (with_reducible refine Calm.upd ?_ rfl)
    | (with_reducible refine Calm.updSafe ?_)
    | intro _
    | split)

theorem State.su_kept {b0 : State} (s : State) (f : SurvSt → SurvSt) (h0 : Kept b0 s) : Kept b0 (s.su f) :=
  h0.calm (State.su_calm _ _ (Calm.refl _))

theorem State.fbAddFrom_calm {b0 : State} (s : State) (src : Nat) (hseq : Nat) (typ : Nat) (payload : List Nat) (h0 : Calm b0 s) : Calm b0 (s.fbAddFrom src hseq typ payload) := by
  unfold State.fbAddFrom
  repeat' (first
    | (with_reducible assumption)
    | (with_reducible apply Calm.ite)
    | (with_reducible apply State.inc_calm)
    | (with_reducible apply State.su_calm)
    | intro _
    | split)

theorem State.fbAdd_calm {b0 : State} (s : State) (typ : Nat) (payload : List Nat) (h0 : Calm b0 s) : Calm b0 (s.fbAdd typ payload) := by
  unfold State.fbAdd
  repeat' (first
    | (with_reducible assumption)
    | (with_reducible apply State.fbAddFrom_calm)
    | intro _
    | split)

theorem State.fbAdd_kept {b0 : State} (s : State) (typ : Nat) (payload : List Nat) (h0 : Kept b0 s) : Kept b0 (s.fbAdd typ payload) :=
  h0.calm (State.fbAdd_calm _ _ _ (Calm.refl _))

theorem State.ax_calm {b0 : State} (s : State) (n : Fin 8) (f : Axis → Axis) (h0 : Calm b0 s) : Calm b0 (s.ax n f) := by
  unfold State.ax
  repeat' (first
    | (with_reducible assumption)
    | (with_reducible refine Calm.upd ?_ rfl)
    | (with_reducible refine Calm.updSafe ?_)
    | intro _
    | split)

theorem State.ax_kept {b0 : State} (s : State) (n : Fin 8) (f : Axis → Axis) (h0 : Kept b0 s) : Kept b0 (s.ax n f) :=
  h0.calm (State.ax_calm _ _ _ (Calm.refl _))

theorem State.bdu_calm {b0 : State} (s : State) (n : Fin 8) (f : BackdriveSt → BackdriveSt) (h0 : Calm b0 s) : Calm b0 (s.bdu n f) := by
  unfold State.bdu
  repeat' (first
    | (with_reducible assumption)
    | (with_reducible apply State.ax_calm)
    | intro _
    | split)

theorem State.bdEnd_calm {b0 : State} (s : State) (n : Fin 8) (h0 : Calm b0 s) : Calm b0 (s.bdEnd n) := by
  unfold State.bdEnd
  repeat' (first
    | (with_reducible assumption)
    | (with_reducible apply Calm.ite)
    | (with_reducible apply State.bdu_calm)
    | (with_reducible apply State.capture_calm)
    | (with_reducible apply State.fbAdd_calm)
    | (with_reducible apply State.inc_calm)
    | (with_reducible apply State.put_calm)
    | (with_reducible apply State.putB_calm)
    | intro _
    | split)

theorem State.mwSet_calm {b0 : State} (s : State) (l : Option Nat) (h0 : Calm b0 s) : Calm b0 (s.mwSet l) := by
  unfold State.mwSet
  repeat' (first
    | (with_reducible assumption)
    | (with_reducible apply Calm.ite)
    | (with_reducible apply State.put_calm)
    | (with_reducible apply State.su_calm)
    | intro _
    | split)

theorem State.stn_calm {b0 : State} (s : State) (st : Fin 2) (f : Station → Station) (h0 : Calm b0 s) : Calm b0 (s.stn st f) := by
  unfold State.stn
  repeat' (first
    | (with_reducible assumption)
    | (with_reducible refine Calm.upd ?_ rfl)
    | (with_reducible refine Calm.updSafe ?_)
    | intro _
    | split)

theorem State.svu_calm {b0 : State} (s : State) (st : Fin 2) (f : SurveySt → SurveySt) (h0 : Calm b0 s) : Calm b0 (s.svu st f) := by
  unfold State.svu
  repeat' (first
    | (with_reducible assumption)
    | (with_reducible apply State.stn_calm)
    | intro _
    | split)

theorem State.svu_kept {b0 : State} (s : State) (st : Fin 2) (f : SurveySt → SurveySt) (h0 : Kept b0 s) : Kept b0 (s.svu st f) :=
  h0.calm (State.svu_calm _ _ _ (Calm.refl _))

theorem State.mwNext_calm {b0 : State} (s : State) (h0 : Calm b0 s) : Calm b0 (s.mwNext) := by
  unfold State.mwNext
  repeat' (first
    | intro _
    | (with_reducible assumption)
    | (with_reducible apply State.addSat_calm)
    | (with_reducible apply State.mwSet_calm)
    | (with_reducible apply State.put_calm)
    | (with_reducible apply State.su_calm)
    | (with_reducible apply State.svu_calm)
    | split
    | dsimp only)

theorem State.mwAbandon_calm {b0 : State} (s : State) (h0 : Calm b0 s) : Calm b0 (s.mwAbandon) := by
  unfold State.mwAbandon
  repeat' (first
    | (with_reducible assumption)
    | (with_reducible apply State.inc_calm)
    | (with_reducible apply State.mwNext_calm)
    | intro _
    | split)

theorem State.mwLeave_calm {b0 : State} (s : State) (n : Fin 8) (h0 : Calm b0 s) : Calm b0 (s.mwLeave n) := by
  unfold State.mwLeave
  repeat' (first
    | (with_reducible assumption)
    | (with_reducible apply Calm.ite)
    | (with_reducible apply State.mwAbandon_calm)
    | intro _
    | split)

theorem State.doEnable_calm {b0 : State} (s : State) (n : Fin 8) (h0 : Calm b0 s) : Calm b0 (s.doEnable n) := by
  unfold State.doEnable
  repeat' (first
    | intro _
    | (with_reducible assumption)
    | (with_reducible apply Calm.ite)
    | (with_reducible apply State.ax_calm)
    | (with_reducible apply State.bdEnd_calm)
    | (with_reducible apply State.mwLeave_calm)
    | (with_reducible apply State.put_calm)
    | split
    | dsimp only)

theorem State.co_calm {b0 : State} (s : State) (c : Fin 16) (f : Coil → Coil) (h0 : Calm b0 s) : Calm b0 (s.co c f) := by
  unfold State.co
  repeat' (first
    | (with_reducible assumption)
    | (with_reducible refine Calm.upd ?_ rfl)
    | (with_reducible refine Calm.updSafe ?_)
    | intro _
    | split)

theorem State.bridgesOff_calm {b0 : State} (s : State) (n : Fin 8) (h0 : Calm b0 s) : Calm b0 (s.bridgesOff n) := by
  unfold State.bridgesOff
  repeat' (first
    | (with_reducible assumption)
    | (with_reducible apply State.co_calm)
    | intro _
    | split)

theorem State.doRelease_calm {b0 : State} (s : State) (n : Fin 8) (h0 : Calm b0 s) : Calm b0 (s.doRelease n) := by
  unfold State.doRelease
  repeat' (first
    | (with_reducible assumption)
    | (with_reducible apply Calm.ite)
    | (with_reducible apply State.ax_calm)
    | (with_reducible apply State.bridgesOff_calm)
    | intro _
    | split)

theorem State.flushRing_calm {b0 : State} (s : State) (r : Nat) (h0 : Calm b0 s) : Calm b0 (s.flushRing r).1 := by
  unfold State.flushRing
  repeat' (first
    | (with_reducible assumption)
    | (with_reducible apply Calm.ite)
    | (with_reducible apply Calm.fst_ite)
    | (with_reducible apply State.markEnd_calm)
    | (with_reducible apply State.stn_calm)
    | (with_reducible apply Calm.foldl)
    | intro _
    | split)

theorem State.cause_calm {b0 : State} (s : State) (id : Nat) (st : Nat) (h0 : Calm b0 s) : Calm b0 (s.cause id st) := by
  unfold State.cause
  repeat' (first
    | (with_reducible assumption)
    | (with_reducible apply State.cmdUpd_calm)
    | intro _
    | split)

theorem State.stopMove_calm {b0 : State} (s : State) (t : Fin 2) (quick : Bool) (st : List Nat) (h0 : Calm b0 s) : Calm b0 (s.stopMove t quick st) := by
  unfold State.stopMove
  repeat' (first
    | (with_reducible assumption)
    | (with_reducible apply Calm.ite)
    | (with_reducible apply State.ax_calm)
    | (with_reducible apply State.cause_calm)
    | (with_reducible apply State.markEnd_calm)
    | (with_reducible apply State.stn_calm)
    | (with_reducible apply Calm.foldl)
    | intro _
    | split)

theorem State.followLeave_calm {b0 : State} (s : State) (n : Fin 8) (h0 : Calm b0 s) : Calm b0 (s.followLeave n) := by
  unfold State.followLeave
  repeat' (first
    | (with_reducible assumption)
    | (with_reducible apply Calm.ite)
    | (with_reducible apply State.addSat_calm)
    | (with_reducible apply State.ax_calm)
    | intro _
    | split)

theorem State.quiesce_calm {b0 : State} (s : State) (n : Fin 8) (dec : Nat) (j : Nat) (k : Nat) (h0 : Calm b0 s) : Calm b0 (s.quiesce n dec j k) := by
  unfold State.quiesce
  repeat' (first
    | (with_reducible assumption)
    | (with_reducible apply Calm.ite)
    | (with_reducible apply State.ax_calm)
    | intro _
    | split)

theorem State.stopAxis_calm {b0 : State} (s : State) (n : Fin 8) (quick : Bool) (st : Nat) (k : Nat) (h0 : Calm b0 s) : Calm b0 (s.stopAxis n quick st k) := by
  unfold State.stopAxis
  repeat' (first
    | (with_reducible assumption)
    | (with_reducible apply Calm.ite)
    | (with_reducible apply State.ax_calm)
    | (with_reducible apply State.cause_calm)
    | (with_reducible apply State.followLeave_calm)
    | (with_reducible apply State.quiesce_calm)
    | intro _
    | split)

theorem State.applyWait_calm {b0 : State} (s : State) (id : Nat) (w : List Nat) (h0 : Calm b0 s) : Calm b0 (s.applyWait id w) := by
  unfold State.applyWait
  repeat' (first
    | (with_reducible assumption)
    | (with_reducible apply State.cmdUpd_calm)
    | intro _
    | split)

theorem State.doStop_calm {b0 : State} (s : State) (n : Fin 8) (c : Cmd) (h0 : Calm b0 s) : Calm b0 (s.doStop n c) := by
  unfold State.doStop
  repeat' (first
    | (with_reducible assumption)
    | (with_reducible apply Calm.ite)
    | (with_reducible apply State.applyWait_calm)
    | (with_reducible apply State.flushRing_calm)
    | (with_reducible apply State.stopAxis_calm)
    | (with_reducible apply State.stopMove_calm)
    | intro _
    | split)

theorem State.doClearFault_calm {b0 : State} (s : State) (n : Fin 8) (h0 : Calm b0 s) : Calm b0 (s.doClearFault n) := by
  unfold State.doClearFault
  repeat' (first
    | (with_reducible assumption)
    | (with_reducible apply State.ax_calm)
    | (with_reducible apply State.put_calm)
    | intro _
    | split)

theorem State.recoord_calm {b0 : State} (s : State) (n : Fin 8) (p : Int) (m : Int) (h0 : Calm b0 s) : Calm b0 (s.recoord n p m) := by
  unfold State.recoord
  repeat' (first
    | (with_reducible assumption)
    | (with_reducible apply Calm.ite)
    | (with_reducible apply State.ax_calm)
    | intro _
    | split)

theorem State.doSetPosition_calm {b0 : State} (s : State) (n : Fin 8) (c : Cmd) (h0 : Calm b0 s) : Calm b0 (s.doSetPosition n c) := by
  unfold State.doSetPosition
  repeat' (first
    | (with_reducible assumption)
    | (with_reducible apply State.ax_calm)
    | (with_reducible apply State.putB_calm)
    | (with_reducible apply State.recoord_calm)
    | intro _
    | split)

theorem State.ob_calm {b0 : State} (s : State) (n : Fin 8) (f : ObsSt → ObsSt) (h0 : Calm b0 s) : Calm b0 (s.ob n f) := by
  unfold State.ob
  repeat' (first
    | (with_reducible assumption)
    | (with_reducible apply State.ax_calm)
    | intro _
    | split)

theorem State.enterMotion_calm {b0 : State} (s : State) (n : Fin 8) (st : AxState) (h0 : Calm b0 s) : Calm b0 (s.enterMotion n st) := by
  unfold State.enterMotion
  repeat' (first
    | (with_reducible assumption)
    | (with_reducible apply Calm.ite)
    | (with_reducible apply State.ax_calm)
    | (with_reducible apply State.ob_calm)
    | intro _
    | split)

theorem State.followOn_calm {b0 : State} (s : State) (n : Fin 8) (h0 : Calm b0 s) : Calm b0 (s.followOn n) := by
  unfold State.followOn
  repeat' (first
    | (with_reducible assumption)
    | (with_reducible apply State.ax_calm)
    | (with_reducible apply State.enterMotion_calm)
    | (with_reducible apply State.setWord_calm)
    | intro _
    | split)

theorem State.stakeStart_calm {b0 : State} (s : State) (n : Fin 8) (c : Cmd) (base : Int) (h0 : Calm b0 s) : Calm b0 (s.stakeStart n c base) := by
  unfold State.stakeStart
  repeat' (first
    | (with_reducible assumption)
    | (with_reducible apply State.ax_calm)
    | (with_reducible apply State.enterMotion_calm)
    | (with_reducible apply State.put_calm)
    | intro _
    | split)

theorem State.doReplace_calm {b0 : State} (s : State) (n : Fin 8) (c : Cmd) (h0 : Calm b0 s) : Calm b0 (s.doReplace n c) := by
  unfold State.doReplace
  repeat' (first
    | (with_reducible assumption)
    | (with_reducible apply Calm.ite)
    | (with_reducible apply State.cmdUpd_calm)
    | (with_reducible apply State.markEnd_calm)
    | (with_reducible apply State.stakeStart_calm)
    | intro _
    | split)

theorem State.doStationStop_calm {b0 : State} (s : State) (t : Fin 2) (c : Cmd) (h0 : Calm b0 s) : Calm b0 (s.doStationStop t c) := by
  unfold State.doStationStop
  repeat' (first
    | (with_reducible assumption)
    | (with_reducible apply Calm.ite)
    | (with_reducible apply State.applyWait_calm)
    | (with_reducible apply State.flushRing_calm)
    | (with_reducible apply State.stopMove_calm)
    | intro _
    | split)

theorem State.cancelOne_calm {b0 : State} (s : State) (id : Nat) (quick : Bool) (h0 : Calm b0 s) : Calm b0 (s.cancelOne id quick) := by
  unfold State.cancelOne
  repeat' (first
    | (with_reducible assumption)
    | (with_reducible apply Calm.ite)
    | (with_reducible apply State.markEnd_calm)
    | (with_reducible apply State.stn_calm)
    | (with_reducible apply State.stopAxis_calm)
    | (with_reducible apply State.stopMove_calm)
    | (with_reducible apply Calm.foldl)
    | intro _
    | split)

theorem State.doCancelTag_calm {b0 : State} (s : State) (c : Cmd) (h0 : Calm b0 s) : Calm b0 (s.doCancelTag c) := by
  unfold State.doCancelTag
  repeat' (first
    | intro _
    | (with_reducible assumption)
    | (with_reducible apply Calm.ite)
    | (with_reducible apply State.applyWait_calm)
    | (with_reducible apply State.cancelOne_calm)
    | (with_reducible apply State.cmdUpd_calm)
    | (with_reducible apply Calm.foldl)
    | split
    | dsimp only)

theorem State.doCancelRing_calm {b0 : State} (s : State) (c : Cmd) (h0 : Calm b0 s) : Calm b0 (s.doCancelRing c) := by
  unfold State.doCancelRing
  repeat' (first
    | (with_reducible assumption)
    | (with_reducible apply State.applyWait_calm)
    | (with_reducible apply State.cancelOne_calm)
    | (with_reducible apply Calm.foldl)
    | intro _
    | split)

theorem State.ctx_calm {b0 : State} (s : State) (x : Fin 4) (f : Ctx → Ctx) (h0 : Calm b0 s) : Calm b0 (s.ctx x f) := by
  unfold State.ctx
  repeat' (first
    | (with_reducible assumption)
    | (with_reducible refine Calm.upd ?_ rfl)
    | (with_reducible refine Calm.updSafe ?_)
    | intro _
    | split)

theorem State.progStart_calm {b0 : State} (s : State) (x : Fin 4) (entry : Nat) (h0 : Calm b0 s) : Calm b0 (s.progStart x entry) := by
  unfold State.progStart
  repeat' (first
    | (with_reducible assumption)
    | (with_reducible apply State.ctx_calm)
    | intro _
    | split)

theorem State.evPost_calm {b0 : State} (s : State) (e : Nat) (kind : Nat) (info : Nat) (h0 : Calm b0 s) : Calm b0 (s.evPost e kind info) := by
  unfold State.evPost
  repeat' (first
    | (with_reducible assumption)
    | (with_reducible apply Calm.ite)
    | (with_reducible refine Calm.upd ?_ rfl)
    | (with_reducible refine Calm.updSafe ?_)
    | intro _
    | split)

theorem State.putBit_calm {b0 : State} (s : State) (f : Fld) (i : Nat) (b : Bool) (h0 : Calm b0 s) : Calm b0 (s.putBit f i b) := by
  unfold State.putBit
  repeat' (first
    | (with_reducible assumption)
    | (with_reducible apply State.put_calm)
    | intro _
    | split)

theorem State.evMark_calm {b0 : State} (s : State) (e : Nat) (h0 : Calm b0 s) : Calm b0 (s.evMark e) := by
  unfold State.evMark
  repeat' (first
    | (with_reducible assumption)
    | (with_reducible apply Calm.ite)
    | (with_reducible apply State.inc_calm)
    | (with_reducible apply State.putBit_calm)
    | (with_reducible refine Calm.upd ?_ rfl)
    | (with_reducible refine Calm.updSafe ?_)
    | intro _
    | split)

theorem State.evRaise_calm {b0 : State} (s : State) (e : Nat) (kind : Nat) (info : Nat) (h0 : Calm b0 s) : Calm b0 (s.evRaise e kind info) := by
  unfold State.evRaise
  repeat' (first
    | (with_reducible assumption)
    | (with_reducible apply State.evMark_calm)
    | (with_reducible apply State.evPost_calm)
    | intro _
    | split)

theorem State.stopCtx_calm {b0 : State} (s : State) (x : Fin 4) (cause : Nat) (h0 : Calm b0 s) : Calm b0 (s.stopCtx x cause) := by
  unfold State.stopCtx
  repeat' (first
    | (with_reducible assumption)
    | (with_reducible apply Calm.ite)
    | (with_reducible apply State.capture_calm)
    | (with_reducible apply State.ctx_calm)
    | (with_reducible apply State.evRaise_calm)
    | intro _
    | split)

theorem State.applyOp_calm {b0 : State} (s : State) (c : Cmd) (h0 : Calm b0 s) : Calm b0 (s.applyOp c) := by
  unfold State.applyOp
  repeat' (first
    | (with_reducible assumption)
    | (with_reducible apply State.applyWait_calm)
    | (with_reducible apply State.doCancelRing_calm)
    | (with_reducible apply State.doCancelTag_calm)
    | (with_reducible apply State.doClearFault_calm)
    | (with_reducible apply State.doEnable_calm)
    | (with_reducible apply State.doRelease_calm)
    | (with_reducible apply State.doReplace_calm)
    | (with_reducible apply State.doSetPosition_calm)
    | (with_reducible apply State.doStationStop_calm)
    | (with_reducible apply State.doStop_calm)
    | (with_reducible apply State.doneNow_calm)
    | (with_reducible apply State.followOn_calm)
    | (with_reducible apply State.progStart_calm)
    | (with_reducible apply State.stopAxis_calm)
    | (with_reducible apply State.stopCtx_calm)
    | intro _
    | split)

theorem State.applyImm_calm {b0 : State} (s : State) (id : Nat) (h0 : Calm b0 s) : Calm b0 (s.applyImm id) := by
  unfold State.applyImm
  repeat' (first
    | (with_reducible assumption)
    | (with_reducible apply Calm.ite)
    | (with_reducible apply State.applyOp_calm)
    | (with_reducible apply State.markEnd_calm)
    | intro _
    | split)

theorem State.applyImms_calm {b0 : State} (s : State) (h0 : Calm b0 s) : Calm b0 (s.applyImms) := by
  unfold State.applyImms
  repeat' (first
    | (with_reducible assumption)
    | (with_reducible apply State.applyImm_calm)
    | (with_reducible apply Calm.foldl)
    | intro _
    | split)

theorem State.pw_calm {b0 : State} (s : State) (f : PowerSt → PowerSt) (h0 : Calm b0 s) : Calm b0 (s.pw f) := by
  unfold State.pw
  repeat' (first
    | (with_reducible assumption)
    | (with_reducible refine Calm.upd ?_ rfl)
    | (with_reducible refine Calm.updSafe ?_)
    | intro _
    | split)

theorem State.pw_kept {b0 : State} (s : State) (f : PowerSt → PowerSt) (h0 : Kept b0 s) : Kept b0 (s.pw f) :=
  h0.calm (State.pw_calm _ _ (Calm.refl _))

theorem State.ring_calm {b0 : State} (s : State) (q : Fin 5) (f : RecRing → RecRing) (h0 : Calm b0 s) : Calm b0 (s.ring q f) := by
  unfold State.ring
  repeat' (first
    | (with_reducible assumption)
    | (with_reducible refine Calm.upd ?_ rfl)
    | (with_reducible refine Calm.updSafe ?_)
    | intro _
    | split)

theorem State.post11_calm {b0 : State} (s : State) (tag : Nat) (ring : Nat) (src : Nat) (status : Nat) (h0 : Calm b0 s) : Calm b0 (s.post11 tag ring src status) := by
  unfold State.post11
  repeat' (first
    | (with_reducible assumption)
    | (with_reducible apply State.ring_calm)
    | intro _
    | split)

theorem State.postReject_calm {b0 : State} (s : State) (tag : Nat) (ring : Nat) (src : Nat) (status : Nat) (h0 : Calm b0 s) : Calm b0 (s.postReject tag ring src status) := by
  unfold State.postReject
  repeat' (first
    | (with_reducible assumption)
    | (with_reducible apply Calm.ite)
    | (with_reducible apply State.inc_calm)
    | (with_reducible apply State.post11_calm)
    | (with_reducible refine Calm.upd ?_ rfl)
    | (with_reducible refine Calm.updSafe ?_)
    | intro _
    | split)

theorem State.reject_calm {b0 : State} (s : State) (c : Cmd) (code : Nat) (loc : Nat) (h0 : Calm b0 s) : Calm b0 (s.reject c code loc) := by
  unfold State.reject
  repeat' (first
    | (with_reducible assumption)
    | (with_reducible apply Calm.ite)
    | (with_reducible apply State.inc_calm)
    | (with_reducible apply State.postReject_calm)
    | (with_reducible apply State.put_calm)
    | intro _
    | split)

theorem State.notePart_calm {b0 : State} (s : State) (c : Cmd) (h0 : Calm b0 s) : Calm b0 (s.notePart c) := by
  unfold State.notePart
  repeat' (first
    | (with_reducible assumption)
    | (with_reducible apply Calm.ite)
    | (with_reducible apply State.stn_calm)
    | intro _
    | split)

theorem State.accept_calm {b0 : State} (s : State) (c : Cmd) (h0 : Calm b0 s) : Calm b0 (s.accept c) := by
  unfold State.accept
  repeat' (first
    | (with_reducible assumption)
    | (with_reducible apply Calm.ite)
    | (with_reducible apply State.notePart_calm)
    | (with_reducible refine Calm.upd ?_ rfl)
    | (with_reducible refine Calm.updSafe ?_)
    | intro _
    | split)

theorem State.commit_calm {b0 : State} (s : State) (src : Src) (r : Nat) (w : Word × Word × Word × Word) (h0 : Calm b0 s) : Calm b0 (s.commit src r w).1 := by
  unfold State.commit
  repeat' (first
    | intro _
    | (with_reducible assumption)
    | (with_reducible apply Calm.fst_ite)
    | (with_reducible apply State.accept_calm)
    | (with_reducible apply State.reject_calm)
    | split
    | dsimp only)

theorem State.ctxCommit_calm {b0 : State} (s : State) (x : Fin 4) (r : Nat) (w : Word × Word × Word × Word) (h0 : Calm b0 s) : Calm b0 (s.ctxCommit x r w).1 := by
  unfold State.ctxCommit
  repeat' (first
    | (with_reducible assumption)
    | (with_reducible apply Calm.ite)
    | (with_reducible apply Calm.fst_ite)
    | (with_reducible apply State.commit_calm)
    | (with_reducible apply State.ctx_calm)
    | intro _
    | split)

theorem State.keepAxis_calm {b0 : State} (s : State) (n : Fin 8) (h0 : Calm b0 s) : Calm b0 (s.keepAxis n) := by
  unfold State.keepAxis
  repeat' (first
    | intro _
    | (with_reducible assumption)
    | (with_reducible apply State.ax_calm)
    | split
    | dsimp only)

theorem State.takeSetpoint_calm {b0 : State} (s : State) (c : Fin 16) (h0 : Calm b0 s) : Calm b0 (s.takeSetpoint c) := by
  unfold State.takeSetpoint
  repeat' (first
    | intro _
    | (with_reducible assumption)
    | (with_reducible apply Calm.ite)
    | (with_reducible apply State.co_calm)
    | split
    | dsimp only)

theorem State.transfer_calm {b0 : State} (s : State) (c : Fin 16) (h0 : Calm b0 s) : Calm b0 (s.transfer c) := by
  unfold State.transfer
  repeat' (first
    | (with_reducible assumption)
    | (with_reducible apply Calm.ite)
    | (with_reducible apply State.co_calm)
    | (with_reducible apply State.put_calm)
    | (with_reducible apply State.putB_calm)
    | intro _
    | split)

theorem State.takeMode_calm {b0 : State} (s : State) (c : Fin 16) (h0 : Calm b0 s) : Calm b0 (s.takeMode c) := by
  unfold State.takeMode
  repeat' (first
    | (with_reducible assumption)
    | (with_reducible apply Calm.ite)
    | (with_reducible apply State.co_calm)
    | (with_reducible apply State.put_calm)
    | intro _
    | split)

theorem State.testDuty_calm {b0 : State} (s : State) (c : Fin 16) (h0 : Calm b0 s) : Calm b0 (s.testDuty c) := by
  unfold State.testDuty
  repeat' (first
    | intro _
    | (with_reducible assumption)
    | (with_reducible apply Calm.ite)
    | (with_reducible apply State.ax_calm)
    | split
    | dsimp only)

theorem State.slotPlan_calm {b0 : State} (s : State) (c : Fin 16) (l : Nat) (chop : Bool) (h0 : Calm b0 s) : Calm b0 (s.slotPlan c l chop).1 := by
  unfold State.slotPlan
  repeat' (first
    | (with_reducible assumption)
    | (with_reducible apply Calm.ite)
    | (with_reducible apply Calm.fst_ite)
    | (with_reducible apply State.addSat_calm)
    | (with_reducible apply State.put_calm)
    | intro _
    | split)

theorem State.settleSlot_calm {b0 : State} (s : State) (c : Fin 16) (es : List Nat) (tb : Nat) (l : Nat) (acc : List (Nat × Nat)) (x : Nat × Nat) (h0 : Calm b0 s) : Calm b0 (s.settleSlot c es tb l acc x).1 := by
  unfold State.settleSlot
  repeat' (first
    | (with_reducible assumption)
    | (with_reducible apply Calm.ite)
    | (with_reducible apply Calm.fst_ite)
    | (with_reducible apply State.inc_calm)
    | intro _
    | split)

theorem State.slotsFixed_calm {b0 : State} (s : State) (c : Fin 16) (l : Nat) (es : List Nat) (h0 : Calm b0 s) :
    Calm b0 (s.slotsFixed c l es) := by
  unfold State.slotsFixed
  have h1 := State.slotPlan_calm s c l false h0
  generalize s.slotPlan c l false = p at *
  obtain ⟨u, sp⟩ := p
  dsimp only
  refine State.co_calm _ _ _ ?_
  exact foldl_ind (fun a : State × List (Nat × Nat) => Calm b0 a.1) _ _
    (fun a x h => State.settleSlot_calm _ _ _ _ _ _ _ h) (u, []) h1

theorem State.fixedPeriod_calm {b0 : State} (s : State) (c : Fin 16) (pj : Nat) (p16 : Nat) (j : Nat) (h0 : Calm b0 s) : Calm b0 (s.fixedPeriod c pj p16 j) := by
  unfold State.fixedPeriod
  repeat' (first
    | (with_reducible assumption)
    | (with_reducible apply Calm.ite)
    | (with_reducible apply State.co_calm)
    | (with_reducible apply State.inc_calm)
    | (with_reducible apply State.put_calm)
    | (with_reducible apply State.putB_calm)
    | (with_reducible apply State.slotsFixed_calm)
    | intro _
    | split)

theorem State.relayOn_calm {b0 : State} (s : State) (c : Fin 16) (pj : Nat) (j : Nat) (h0 : Calm b0 s) : Calm b0 (s.relayOn c pj j) := by
  unfold State.relayOn
  repeat' (first
    | (with_reducible assumption)
    | (with_reducible apply Calm.dite)
    | (with_reducible apply State.co_calm)
    | intro _
    | split)

theorem State.slotsChop_calm {b0 : State} (s : State) (c : Fin 16) (l : Nat) (h0 : Calm b0 s) : Calm b0 (s.slotsChop c l) := by
  unfold State.slotsChop
  repeat' (first
    | intro _
    | (with_reducible assumption)
    | (with_reducible apply State.co_calm)
    | split
    | dsimp only)

theorem State.chopPeriod_calm {b0 : State} (s : State) (c : Fin 16) (h0 : Calm b0 s) : Calm b0 (s.chopPeriod c) := by
  unfold State.chopPeriod
  repeat' (first
    | intro _
    | (with_reducible assumption)
    | (with_reducible apply Calm.ite)
    | (with_reducible apply State.co_calm)
    | (with_reducible apply State.put_calm)
    | (with_reducible apply State.slotPlan_calm)
    | (with_reducible apply State.slotsChop_calm)
    | split
    | dsimp only)

theorem State.boundary_calm {b0 : State} (s : State) (c : Fin 16) (pulse : Option (Nat × Nat)) (start : Bool) (h0 : Calm b0 s) : Calm b0 (s.boundary c pulse start) := by
  unfold State.boundary
  repeat' (first
    | intro _
    | (with_reducible assumption)
    | (with_reducible apply Calm.ite)
    | (with_reducible apply State.chopPeriod_calm)
    | (with_reducible apply State.fixedPeriod_calm)
    | (with_reducible apply State.inc_calm)
    | (with_reducible apply State.put_calm)
    | (with_reducible apply State.relayOn_calm)
    | (with_reducible apply State.takeMode_calm)
    | (with_reducible apply State.takeSetpoint_calm)
    | (with_reducible apply State.testDuty_calm)
    | (with_reducible apply State.transfer_calm)
    | split
    | dsimp only)

theorem State.preBoundary_calm {b0 : State} (s : State) (c : Fin 16) (h0 : Calm b0 s) : Calm b0 (s.preBoundary c) := by
  unfold State.preBoundary
  dsimp only
  generalize (if s.synced c && c ≠ 0 then (s.pulseTo c).map fun x => (x.1, some (x.2.1, x.2.2)) else (s.ownDue c).map fun b => (b, none)) = q
  cases q with
  | none => exact h0
  | some q => exact Calm.ite h0 (State.co_calm _ _ _ h0)

theorem State.unpair_calm {b0 : State} (s : State) (t : Fin 2) (p : Nat) (same : Bool) (h0 : Calm b0 s) : Calm b0 (s.unpair t p same) := by
  unfold State.unpair
  repeat' (first
    | (with_reducible assumption)
    | (with_reducible apply Calm.ite)
    | (with_reducible apply State.markEnd_calm)
    | (with_reducible apply State.stn_calm)
    | (with_reducible apply Calm.foldl)
    | intro _
    | split)

theorem State.mon_calm {b0 : State} (s : State) (n : Fin 8) (f : MonSt → MonSt) (h0 : Calm b0 s) : Calm b0 (s.mon n f) := by
  unfold State.mon
  repeat' (first
    | (with_reducible assumption)
    | (with_reducible apply State.ax_calm)
    | intro _
    | split)

theorem State.mon_kept {b0 : State} (s : State) (n : Fin 8) (f : MonSt → MonSt) (h0 : Kept b0 s) : Kept b0 (s.mon n f) :=
  h0.calm (State.mon_calm _ _ _ (Calm.refl _))

theorem State.mwStop_calm {b0 : State} (s : State) (h0 : Calm b0 s) : Calm b0 (s.mwStop) := by
  unfold State.mwStop
  repeat' (first
    | (with_reducible assumption)
    | (with_reducible apply State.mwSet_calm)
    | (with_reducible apply State.put_calm)
    | (with_reducible apply State.su_calm)
    | intro _
    | split)

theorem State.mwStop_kept {b0 : State} (s : State) (h0 : Kept b0 s) : Kept b0 (s.mwStop) :=
  h0.calm (State.mwStop_calm _ (Calm.refl _))

theorem State.earlier_calm {b0 : State} (s : State) (f : State → State) (hf : ∀ t : State, Calm b0 t → Calm b0 (f t))
    (h0 : Calm b0 s) : Calm b0 (s.earlier f) := Calm.upd (hf s h0) rfl

theorem State.bdStop_calm {b0 : State} (s : State) (n : Fin 8) (h0 : Calm b0 s) : Calm b0 (s.bdStop n) := by
  unfold State.bdStop
  repeat' (first
    | intro _
    | (with_reducible assumption)
    | (with_reducible apply State.bdu_calm)
    | (with_reducible apply State.put_calm)
    | split
    | dsimp only)

theorem State.bdTick_calm {b0 : State} (s : State) (n : Fin 8) (h0 : Calm b0 s) : Calm b0 (s.bdTick n) := by
  unfold State.bdTick
  repeat' (first
    | intro _
    | (with_reducible assumption)
    | (with_reducible apply Calm.ite)
    | (with_reducible apply State.bdStop_calm)
    | (with_reducible apply State.bdu_calm)
    | (with_reducible apply State.put_calm)
    | split
    | dsimp only)

theorem State.hostStands_calm {b0 : State} (s : State) (a : Nat) (w : Word) (key : Bool) (h0 : Calm b0 s) : Calm b0 (s.hostStands a w key) := by
  unfold State.hostStands
  repeat' (first
    | intro _
    | (with_reducible assumption)
    | split
    | (with_reducible refine Calm.upd ?_ rfl)
    | (with_reducible refine Calm.updSafe ?_)
    | dsimp only)

theorem State.hostStands_kept {b0 : State} (s : State) (a : Nat) (w : Word) (key : Bool) (h0 : Kept b0 s) : Kept b0 (s.hostStands a w key) :=
  h0.calm (State.hostStands_calm _ _ _ _ (Calm.refl _))

theorem State.pulse_calm {b0 : State} (s : State) (e : Nat) (idx : Nat) (detail : Nat) (h0 : Calm b0 s) : Calm b0 (s.pulse e idx detail) := by
  unfold State.pulse
  repeat' (first
    | (with_reducible assumption)
    | (with_reducible apply State.evRaise_calm)
    | intro _
    | split)

theorem State.pulse_kept {b0 : State} (s : State) (e : Nat) (idx : Nat) (detail : Nat) (h0 : Kept b0 s) : Kept b0 (s.pulse e idx detail) :=
  h0.calm (State.pulse_calm _ _ _ _ (Calm.refl _))

theorem State.useFree_calm {b0 : State} (s : State) (h0 : Calm b0 s) : Calm b0 (s.useFree) := by
  unfold State.useFree
  repeat' (first
    | (with_reducible assumption)
    | (with_reducible refine Calm.upd ?_ rfl)
    | (with_reducible refine Calm.updSafe ?_)
    | intro _
    | split)

theorem State.useFree_kept {b0 : State} (s : State) (h0 : Kept b0 s) : Kept b0 (s.useFree) :=
  h0.calm (State.useFree_calm _ (Calm.refl _))

theorem State.dpt_calm {b0 : State} (s : State) (n : Fin 8) (f : DatumSt → DatumSt) (h0 : Calm b0 s) : Calm b0 (s.dpt n f) := by
  unfold State.dpt
  repeat' (first
    | (with_reducible assumption)
    | (with_reducible apply State.ax_calm)
    | intro _
    | split)

theorem State.encFault_calm {b0 : State} (s : State) (n : Fin 8) (i : Nat) (h0 : Calm b0 s) : Calm b0 (s.encFault n i) := by
  unfold State.encFault
  repeat' (first
    | (with_reducible assumption)
    | (with_reducible apply Calm.ite)
    | (with_reducible apply State.dpt_calm)
    | (with_reducible apply State.fbAdd_calm)
    | (with_reducible apply State.pulse_calm)
    | (with_reducible apply State.put_calm)
    | (with_reducible apply State.putBit_calm)
    | intro _
    | split)

theorem State.idxMiss_calm {b0 : State} (s : State) (n : Fin 8) (h0 : Calm b0 s) : Calm b0 (s.idxMiss n) := by
  unfold State.idxMiss
  repeat' (first
    | (with_reducible assumption)
    | (with_reducible apply Calm.ite)
    | (with_reducible apply State.encFault_calm)
    | (with_reducible apply State.inc_calm)
    | (with_reducible apply State.put_calm)
    | intro _
    | split)

theorem State.idxMissing_calm {b0 : State} (s : State) (n : Fin 8) (h0 : Calm b0 s) : Calm b0 (s.idxMissing n) := by
  unfold State.idxMissing
  repeat' (first
    | (with_reducible assumption)
    | (with_reducible apply Calm.ite)
    | (with_reducible apply State.capture_calm)
    | (with_reducible apply State.dpt_calm)
    | (with_reducible apply State.idxMiss_calm)
    | (with_reducible apply State.pulse_calm)
    | (with_reducible apply State.put_calm)
    | (with_reducible apply State.useFree_calm)
    | intro _
    | split)

theorem State.fwSlot_calm {b0 : State} (s : State) (x : Fin 2) (f : FwSlot → FwSlot) (h0 : Calm b0 s) : Calm b0 (s.fwSlot x f) := by
  unfold State.fwSlot
  repeat' (first
    | exact fun h => h
    | exact fun _ h => h
    | (with_reducible assumption)
    | (with_reducible apply State.nv_calm)
    | intro _
    | split)

theorem State.memFirst_calm {b0 : State} (s : State) (m : Mem) (a : Nat) (uncorr : Bool) (scrub : Bool) (sym : Nat) (h0 : Calm b0 s) : Calm b0 (s.memFirst m a uncorr scrub sym) := by
  unfold State.memFirst
  repeat' (first
    | intro _
    | (with_reducible assumption)
    | (with_reducible apply State.setWord_calm)
    | split
    | (with_reducible refine Calm.upd ?_ rfl)
    | (with_reducible refine Calm.updSafe ?_)
    | dsimp only)

theorem State.memCorrected_calm {b0 : State} (s : State) (m : Mem) (a : Nat) (sym : Nat) (scrub : Bool) (h0 : Calm b0 s) : Calm b0 (s.memCorrected m a sym scrub) := by
  unfold State.memCorrected
  repeat' (first
    | exact fun h => h
    | exact fun _ h => h
    | (with_reducible assumption)
    | (with_reducible apply Calm.ite)
    | (with_reducible apply State.inc_calm)
    | (with_reducible apply State.memFirst_calm)
    | (with_reducible apply State.mm_calm)
    | (with_reducible apply State.pulse_calm)
    | intro _
    | split)

theorem State.bt_calm {b0 : State} (s : State) (f : BootSt → BootSt) (h0 : Calm b0 s) : Calm b0 (s.bt f) := by
  unfold State.bt
  repeat' (first
    | (with_reducible assumption)
    | (with_reducible refine Calm.upd ?_ rfl)
    | (with_reducible refine Calm.updSafe ?_)
    | intro _
    | split)

theorem State.bt_kept {b0 : State} (s : State) (f : BootSt → BootSt) (h0 : Kept b0 s) : Kept b0 (s.bt f) :=
  h0.calm (State.bt_calm _ _ (Calm.refl _))

theorem State.dropCmd_calm {b0 : State} (s : State) (id : Nat) (h0 : Calm b0 s) : Calm b0 (s.dropCmd id) := by
  unfold State.dropCmd
  repeat' (first
    | (with_reducible assumption)
    | (with_reducible refine Calm.upd ?_ rfl)
    | (with_reducible refine Calm.updSafe ?_)
    | intro _
    | split)

theorem State.recordEnd_calm {b0 : State} (s : State) (c : Cmd) (st : Nat) (h0 : Calm b0 s) : Calm b0 (s.recordEnd c st) := by
  unfold State.recordEnd
  repeat' (first
    | intro _
    | (with_reducible assumption)
    | (with_reducible apply Calm.ite)
    | (with_reducible apply State.dropCmd_calm)
    | (with_reducible apply State.post11_calm)
    | split
    | (with_reducible refine Calm.upd ?_ rfl)
    | (with_reducible refine Calm.updSafe ?_)
    | dsimp only)

theorem State.flushEnds_calm {b0 : State} (s : State) (h0 : Calm b0 s) : Calm b0 (s.flushEnds) := by
  unfold State.flushEnds
  repeat' (first
    | intro _
    | (with_reducible assumption)
    | (with_reducible apply State.recordEnd_calm)
    | (with_reducible apply Calm.foldl)
    | split
    | (with_reducible refine Calm.upd ?_ rfl)
    | (with_reducible refine Calm.updSafe ?_)
    | dsimp only)

theorem State.gathered_calm {b0 : State} (s : State) (f : State → State) (hf : ∀ t : State, Calm b0 t → Calm b0 (f t))
    (h0 : Calm b0 s) : Calm b0 (s.gathered f) := by
  unfold State.gathered
  exact Calm.ite (hf _ h0) (State.flushEnds_calm _ (hf _ (Calm.upd h0 rfl)))

theorem State.noteEnd_calm {b0 : State} (s : State) (c : Cmd) (st : Nat) (h0 : Calm b0 s) : Calm b0 (s.noteEnd c st) := by
  unfold State.noteEnd
  repeat' (first
    | intro _
    | (with_reducible assumption)
    | (with_reducible apply Calm.ite)
    | (with_reducible apply State.noteLast_calm)
    | split
    | (with_reducible refine Calm.upd ?_ rfl)
    | (with_reducible refine Calm.updSafe ?_)
    | dsimp only)

theorem State.endCmd_calm {b0 : State} (s : State) (id : Nat) (st : Nat) (h0 : Calm b0 s) : Calm b0 (s.endCmd id st) := by
  unfold State.endCmd
  repeat' (first
    | intro _
    | (with_reducible assumption)
    | (with_reducible apply Calm.ite)
    | (with_reducible apply State.noteEnd_calm)
    | (with_reducible apply State.recordEnd_calm)
    | split
    | (with_reducible refine Calm.upd ?_ rfl)
    | (with_reducible refine Calm.updSafe ?_)
    | dsimp only)

theorem State.endAll_calm {b0 : State} (s : State) (p : Cmd → Bool) (st : Nat) (h0 : Calm b0 s) : Calm b0 (s.endAll p st) := by
  unfold State.endAll
  repeat' (first
    | (with_reducible assumption)
    | (with_reducible apply State.endCmd_calm)
    | (with_reducible apply Calm.foldl)
    | intro _
    | split)

theorem State.faultMove_calm {b0 : State} (s : State) (n : Fin 8) (h0 : Calm b0 s) : Calm b0 (s.faultMove n) := by
  unfold State.faultMove
  repeat' (first
    | intro _
    | (with_reducible assumption)
    | (with_reducible apply Calm.ite)
    | (with_reducible apply State.ax_calm)
    | (with_reducible apply State.endCmd_calm)
    | (with_reducible apply State.stn_calm)
    | (with_reducible apply Calm.foldl)
    | split
    | dsimp only)

theorem State.planIdle_calm {b0 : State} (s : State) (n : Fin 8) (h0 : Calm b0 s) : Calm b0 (s.planIdle n) := by
  unfold State.planIdle
  repeat' (first
    | intro _
    | (with_reducible assumption)
    | (with_reducible apply State.put_calm)
    | (with_reducible apply State.setWord_calm)
    | split
    | dsimp only)

theorem State.axisFault_calm {b0 : State} (s : State) (n : Fin 8) (pwr : Nat) (ax : Nat) (st : Nat) (h0 : Calm b0 s) : Calm b0 (s.axisFault n pwr ax st) := by
  unfold State.axisFault
  repeat' (first
    | intro _
    | (with_reducible assumption)
    | (with_reducible apply Calm.ite)
    | (with_reducible apply State.ax_calm)
    | (with_reducible apply State.bridgesOff_calm)
    | (with_reducible apply State.endCmd_calm)
    | (with_reducible apply State.faultMove_calm)
    | (with_reducible apply State.followLeave_calm)
    | (with_reducible apply State.gathered_calm)
    | (with_reducible apply State.planIdle_calm)
    | (with_reducible apply State.pulse_calm)
    | (with_reducible apply State.put_calm)
    | (with_reducible apply Calm.foldl)
    | split
    | dsimp only)

theorem State.stopAllCtx_calm {b0 : State} (s : State) (cause : Nat) (h0 : Calm b0 s) : Calm b0 (s.stopAllCtx cause) := by
  unfold State.stopAllCtx
  repeat' (first
    | (with_reducible assumption)
    | (with_reducible apply State.stopCtx_calm)
    | (with_reducible apply Calm.forFin)
    | intro _
    | split)

theorem State.v5Switch_calm {b0 : State} (s : State) (h0 : Calm b0 s) : Calm b0 (s.v5Switch) := by
  unfold State.v5Switch
  repeat' (first
    | (with_reducible assumption)
    | (with_reducible apply Calm.ite)
    | (with_reducible apply State.mwAbandon_calm)
    | (with_reducible apply State.put_calm)
    | intro _
    | split)

theorem State.v5Follow_calm {b0 : State} (s : State) (h0 : Calm b0 s) : Calm b0 (s.v5Follow) := by
  unfold State.v5Follow
  repeat' (first
    | (with_reducible assumption)
    | (with_reducible apply Calm.ite)
    | (with_reducible apply State.put_calm)
    | (with_reducible apply State.pw_calm)
    | (with_reducible apply State.v5Switch_calm)
    | intro _
    | split)

theorem State.v5Follow_kept {b0 : State} (s : State) (h0 : Kept b0 s) : Kept b0 (s.v5Follow) :=
  h0.calm (State.v5Follow_calm _ (Calm.refl _))

theorem State.dumpOff_calm {b0 : State} (s : State) (h0 : Calm b0 s) : Calm b0 (s.dumpOff) := by
  unfold State.dumpOff
  repeat' (first
    | intro _
    | (with_reducible assumption)
    | (with_reducible apply State.put_calm)
    | (with_reducible apply State.pw_calm)
    | split
    | dsimp only)

theorem State.dumpOff_kept {b0 : State} (s : State) (h0 : Kept b0 s) : Kept b0 (s.dumpOff) :=
  h0.calm (State.dumpOff_calm _ (Calm.refl _))

theorem State.levelOn_calm {b0 : State} (s : State) (e : Nat) (idx : Nat) (detail : Nat) (h0 : Calm b0 s) : Calm b0 (s.levelOn e idx detail) := by
  unfold State.levelOn
  repeat' (first
    | (with_reducible assumption)
    | (with_reducible apply Calm.ite)
    | (with_reducible apply State.evRaise_calm)
    | (with_reducible refine Calm.upd ?_ rfl)
    | (with_reducible refine Calm.updSafe ?_)
    | intro _
    | split)

theorem State.enterSafe_calm {b0 : State} (s : State) (h0 : Calm b0 s) : Calm b0 (s.enterSafe) := by
  unfold State.enterSafe
  repeat' (first
    | intro _
    | (with_reducible assumption)
    | (with_reducible apply Calm.ite)
    | (with_reducible apply State.axisFault_calm)
    | (with_reducible apply State.bt_calm)
    | (with_reducible apply State.dumpOff_calm)
    | (with_reducible apply State.endAll_calm)
    | (with_reducible apply State.fbAdd_calm)
    | (with_reducible apply State.gathered_calm)
    | (with_reducible apply State.levelOn_calm)
    | (with_reducible apply State.stopAllCtx_calm)
    | (with_reducible apply State.v5Follow_calm)
    | (with_reducible apply Calm.forFin)
    | split
    | (with_reducible refine Calm.upd ?_ rfl)
    | (with_reducible refine Calm.updSafe ?_)
    | dsimp only)

theorem State.enterSafe_kept {b0 : State} (s : State) (h0 : Kept b0 s) : Kept b0 (s.enterSafe) :=
  h0.calm (State.enterSafe_calm _ (Calm.refl _))

theorem State.safeCause_calm {b0 : State} (s : State) (i : Nat) (h0 : Calm b0 s) : Calm b0 (s.safeCause i) := by
  unfold State.safeCause
  repeat' (first
    | (with_reducible assumption)
    | (with_reducible apply State.enterSafe_calm)
    | (with_reducible apply State.putBit_calm)
    | intro _
    | split)

theorem State.safeCause_kept {b0 : State} (s : State) (i : Nat) (h0 : Kept b0 s) : Kept b0 (s.safeCause i) :=
  h0.calm (State.safeCause_calm _ _ (Calm.refl _))

theorem State.halt_calm {b0 : State} (s : State) (h0 : Calm b0 s) : Calm b0 (s.halt) := by
  unfold State.halt
  repeat' (first
    | (with_reducible assumption)
    | (with_reducible apply Calm.ite)
    | (with_reducible apply State.put_calm)
    | intro _
    | split)

theorem State.recLost_calm {b0 : State} (s : State) (q : Fin 5) (i : Nat) (h0 : Calm b0 s) : Calm b0 (s.recLost q i) := by
  unfold State.recLost
  repeat' (first
    | intro _
    | (with_reducible assumption)
    | (with_reducible apply Calm.ite)
    | (with_reducible apply State.inc_calm)
    | (with_reducible apply State.ring_calm)
    | split
    | dsimp only)

theorem State.ringWordLost_calm {b0 : State} (s : State) (h0 : Calm b0 s) : Calm b0 (s.ringWordLost) := by
  unfold State.ringWordLost
  repeat' (first
    | intro _
    | (with_reducible assumption)
    | (with_reducible apply State.endCmd_calm)
    | (with_reducible apply State.recLost_calm)
    | (with_reducible apply State.useFree_calm)
    | split
    | dsimp only)

theorem State.pairLost_calm {b0 : State} (s : State) (h0 : Calm b0 s) : Calm b0 (s.pairLost) := by
  unfold State.pairLost
  repeat' (first
    | intro _
    | (with_reducible assumption)
    | (with_reducible apply Calm.ite)
    | (with_reducible apply State.inc_calm)
    | (with_reducible apply State.ring_calm)
    | (with_reducible apply State.useFree_calm)
    | split
    | dsimp only)

theorem State.memResponse_calm {b0 : State} (s : State) (m : Mem) (a : Nat) (x : Option (Fin 4)) (h0 : Calm b0 s) : Calm b0 (s.memResponse m a x) := by
  unfold State.memResponse
  repeat' (first
    | intro _
    | (with_reducible assumption)
    | (with_reducible apply Calm.ite)
    | (with_reducible apply Calm.dite)
    | (with_reducible apply State.axisFault_calm)
    | (with_reducible apply State.gathered_calm)
    | (with_reducible apply State.halt_calm)
    | (with_reducible apply State.mwStop_calm)
    | (with_reducible apply State.pairLost_calm)
    | (with_reducible apply State.pulse_calm)
    | (with_reducible apply State.ringWordLost_calm)
    | (with_reducible apply State.safeCause_calm)
    | (with_reducible apply State.stopCtx_calm)
    | (with_reducible apply Calm.foldl)
    | split
    | dsimp only)

theorem State.memUncorr_calm {b0 : State} (s : State) (m : Mem) (a : Nat) (scrub : Bool) (x : Option (Fin 4)) (h0 : Calm b0 s) : Calm b0 (s.memUncorr m a scrub x) := by
  unfold State.memUncorr
  repeat' (first
    | (with_reducible assumption)
    | (with_reducible apply State.inc_calm)
    | (with_reducible apply State.memFirst_calm)
    | (with_reducible apply State.memResponse_calm)
    | intro _
    | split)

theorem State.memRead_calm {b0 : State} (s : State) (m : Mem) (a : Nat) (scrub : Bool) (x : Option (Fin 4)) (h0 : Calm b0 s) : Calm b0 (s.memRead m a scrub x) := by
  unfold State.memRead
  repeat' (first
    | (with_reducible assumption)
    | (with_reducible apply Calm.ite)
    | (with_reducible apply State.memCorrected_calm)
    | (with_reducible apply State.memUncorr_calm)
    | (with_reducible apply State.useFree_calm)
    | intro _
    | split)

theorem State.ctxFetch_calm {b0 : State} (s : State) (x : Fin 4) (k : Nat) (h0 : Calm b0 s) : Calm b0 (s.ctxFetch x k) := by
  unfold State.ctxFetch
  repeat' (first
    | intro _
    | (with_reducible assumption)
    | (with_reducible apply Calm.ite)
    | (with_reducible apply State.memRead_calm)
    | (with_reducible apply Calm.foldl)
    | split
    | dsimp only)

theorem State.ctxRun_calm {b0 : State} (s : State) (x : Fin 4) (op : Nat) (ws : List Nat) (f : State → State)
    (hf : ∀ t : State, Calm b0 t → Calm b0 (f t)) (h0 : Calm b0 s) : Calm b0 (s.ctxRun x op ws f) := by
  unfold State.ctxRun
  have h1 := State.ctx_calm s x (fun c => { c with n := c.n + 1 }) h0
  refine Calm.ite h0 (Calm.ite ?_ (Calm.ite ?_ (Calm.ite (hf _ ?_) ?_)))
  · exact State.stopCtx_calm _ _ _ (State.ctxFetch_calm _ _ _ h1)
  · exact State.stopCtx_calm _ _ _ h1
  · exact State.ctxFetch_calm _ _ _ h1
  · exact State.ctxFetch_calm _ _ _ h1

theorem State.srcLost_calm {b0 : State} (s : State) (b : Bool) (h0 : Calm b0 s) : Calm b0 (s.srcLost b) := by
  unfold State.srcLost
  repeat' (first
    | (with_reducible assumption)
    | (with_reducible apply State.putB_calm)
    | (with_reducible refine Calm.upd ?_ rfl)
    | (with_reducible refine Calm.updSafe ?_)
    | intro _
    | split)

theorem State.srcLost_kept {b0 : State} (s : State) (b : Bool) (h0 : Kept b0 s) : Kept b0 (s.srcLost b) :=
  h0.calm (State.srcLost_calm _ _ (Calm.refl _))

theorem State.snapLink_calm {b0 : State} (s : State) (l : Link) (k : LinkSt) (h0 : Calm b0 s) : Calm b0 (s.snapLink l k) := by
  unfold State.snapLink
  repeat' (first
    | (with_reducible assumption)
    | (with_reducible apply State.setWord_calm)
    | intro _
    | split)

theorem State.snap_calm {b0 : State} (s : State) (l : Link) (pre : LinkSt) (h0 : Calm b0 s) : Calm b0 (s.snap l pre) := by
  unfold State.snap
  repeat' (first
    | (with_reducible assumption)
    | (with_reducible apply Calm.ite)
    | (with_reducible apply State.put_calm)
    | (with_reducible apply State.snapLink_calm)
    | intro _
    | split)

theorem State.strobeCoil_calm {b0 : State} (s : State) (c : Fin 16) (h0 : Calm b0 s) : Calm b0 (s.strobeCoil c) := by
  unfold State.strobeCoil
  repeat' (first
    | (with_reducible assumption)
    | (with_reducible apply State.co_calm)
    | intro _
    | split)

theorem State.strobeGroup_calm {b0 : State} (s : State) (g : Fin 11) (h0 : Calm b0 s) : Calm b0 (s.strobeGroup g) := by
  unfold State.strobeGroup
  repeat' (first
    | (with_reducible assumption)
    | (with_reducible apply Calm.ite)
    | (with_reducible apply Calm.dite)
    | (with_reducible apply State.strobeCoil_calm)
    | (with_reducible refine Calm.upd ?_ rfl)
    | (with_reducible refine Calm.updSafe ?_)
    | intro _
    | split)

theorem State.putSt_calm {b0 : State} (s : State) (f : Fld) (v : Nat) (h0 : Calm b0 s) : Calm b0 (s.putSt f v) := by
  unfold State.putSt
  repeat' (first
    | (with_reducible assumption)
    | (with_reducible apply State.setStaged_calm)
    | intro _
    | split)

theorem State.chainStage_calm {b0 : State} (s : State) (v : Fin 8) (l : List (Fld × Nat)) (h0 : Calm b0 s) : Calm b0 (s.chainStage v l) := by
  unfold State.chainStage
  repeat' (first
    | (with_reducible assumption)
    | (with_reducible apply State.putSt_calm)
    | (with_reducible apply State.strobeGroup_calm)
    | (with_reducible apply Calm.foldl)
    | intro _
    | split)

theorem State.dpRestart_calm {b0 : State} (s : State) (n : Fin 8) (h0 : Calm b0 s) : Calm b0 (s.dpRestart n) := by
  unfold State.dpRestart
  repeat' (first
    | (with_reducible assumption)
    | (with_reducible apply State.dpt_calm)
    | (with_reducible apply State.put_calm)
    | (with_reducible apply State.setWord_calm)
    | intro _
    | split)

theorem State.idStat_calm {b0 : State} (s : State) (n : Fin 8) (h0 : Calm b0 s) : Calm b0 (s.idStat n) := by
  unfold State.idStat
  repeat' (first
    | (with_reducible assumption)
    | (with_reducible apply Calm.ite)
    | (with_reducible apply State.put_calm)
    | (with_reducible apply State.putB_calm)
    | (with_reducible apply State.putBit_calm)
    | intro _
    | split)

theorem State.monChange_calm {b0 : State} (s : State) (n : Fin 8) (f : MonSt → MonSt) (h0 : Calm b0 s) : Calm b0 (s.monChange n f) := by
  unfold State.monChange
  repeat' (first
    | (with_reducible assumption)
    | (with_reducible apply Calm.ite)
    | (with_reducible apply State.dpRestart_calm)
    | (with_reducible apply State.idStat_calm)
    | (with_reducible apply State.mon_calm)
    | intro _
    | split)

theorem State.applyMonument_calm {b0 : State} (s : State) (x : Sect) (h0 : Calm b0 s) : Calm b0 (s.applyMonument x) := by
  unfold State.applyMonument
  repeat' (first
    | (with_reducible assumption)
    | (with_reducible apply State.monChange_calm)
    | intro _
    | split)

theorem State.homeDatum_calm {b0 : State} (s : State) (n : Fin 8) (h : HomeSt) (p : Int) (m : Int) (h0 : Calm b0 s) : Calm b0 (s.homeDatum n h p m) := by
  unfold State.homeDatum
  repeat' (first
    | intro _
    | (with_reducible assumption)
    | (with_reducible apply Calm.ite)
    | (with_reducible apply State.ax_calm)
    | (with_reducible apply State.put_calm)
    | (with_reducible apply State.recoord_calm)
    | split
    | dsimp only)

theorem State.homePhase_calm {b0 : State} (s : State) (n : Fin 8) (h : HomeSt) (ph : Nat) (k : Nat) (h0 : Calm b0 s) : Calm b0 (s.homePhase n h ph k) := by
  unfold State.homePhase
  repeat' (first
    | (with_reducible assumption)
    | (with_reducible apply Calm.ite)
    | (with_reducible apply State.ax_calm)
    | (with_reducible apply State.put_calm)
    | intro _
    | split)

theorem State.homeSeek_calm {b0 : State} (s : State) (n : Fin 8) (h : HomeSt) (h0 : Calm b0 s) : Calm b0 (s.homeSeek n h) := by
  unfold State.homeSeek
  repeat' (first
    | (with_reducible assumption)
    | (with_reducible apply Calm.ite)
    | (with_reducible apply State.ax_calm)
    | (with_reducible apply State.homeDatum_calm)
    | (with_reducible apply State.homePhase_calm)
    | intro _
    | split)

theorem State.putI_calm {b0 : State} (s : State) (f : Fld) (v : Int) (h0 : Calm b0 s) : Calm b0 (s.putI f v) := by
  unfold State.putI
  repeat' (first
    | (with_reducible assumption)
    | (with_reducible apply State.put_calm)
    | intro _
    | split)

theorem State.bdShow_calm {b0 : State} (s : State) (n : Fin 8) (h0 : Calm b0 s) : Calm b0 (s.bdShow n) := by
  unfold State.bdShow
  repeat' (first
    | (with_reducible assumption)
    | (with_reducible apply Calm.ite)
    | (with_reducible apply State.putB_calm)
    | (with_reducible apply State.putI_calm)
    | intro _
    | split)

theorem State.bdSet_calm {b0 : State} (s : State) (n : Fin 8) (h0 : Calm b0 s) : Calm b0 (s.bdSet n) := by
  unfold State.bdSet
  repeat' (first
    | (with_reducible assumption)
    | (with_reducible apply Calm.ite)
    | (with_reducible apply State.bdShow_calm)
    | (with_reducible apply State.bdu_calm)
    | (with_reducible apply State.putB_calm)
    | intro _
    | split)

theorem State.bdSample_calm {b0 : State} (s : State) (n : Fin 8) (k : Nat) (mv : Nat) (h0 : Calm b0 s) : Calm b0 (s.bdSample n k mv) := by
  unfold State.bdSample
  repeat' (first
    | intro _
    | (with_reducible assumption)
    | (with_reducible apply Calm.ite)
    | (with_reducible apply State.bdSet_calm)
    | (with_reducible apply State.bdStop_calm)
    | (with_reducible apply State.bdu_calm)
    | split
    | dsimp only)

theorem State.capFreeze_calm {b0 : State} (s : State) (h0 : Calm b0 s) : Calm b0 (s.capFreeze) := by
  unfold State.capFreeze
  repeat' (first
    | intro _
    | (with_reducible assumption)
    | (with_reducible apply Calm.ite)
    | (with_reducible apply State.pulse_calm)
    | split
    | (with_reducible refine Calm.upd ?_ rfl)
    | (with_reducible refine Calm.updSafe ?_)
    | dsimp only)

theorem State.capFreeze_kept {b0 : State} (s : State) (h0 : Kept b0 s) : Kept b0 (s.capFreeze) :=
  h0.calm (State.capFreeze_calm _ (Calm.refl _))

theorem State.setField_calm {b0 : State} (s : State) (a : Nat) (r : FRow) (v : Nat) (h0 : Calm b0 s) : Calm b0 (s.setField a r v) := by
  unfold State.setField
  repeat' (first
    | (with_reducible assumption)
    | (with_reducible apply State.put_calm)
    | intro _
    | split)

theorem State.stageField_calm {b0 : State} (s : State) (a : Nat) (r : FRow) (v : Nat) (h0 : Calm b0 s) : Calm b0 (s.stageField a r v) := by
  unfold State.stageField
  repeat' (first
    | (with_reducible assumption)
    | (with_reducible apply State.putSt_calm)
    | intro _
    | split)

theorem State.noteWritten_calm {b0 : State} (s : State) (a : Nat) (h0 : Calm b0 s) : Calm b0 (s.noteWritten a) := by
  unfold State.noteWritten
  repeat' (first
    | (with_reducible assumption)
    | (with_reducible apply Calm.ite)
    | (with_reducible apply Calm.dite)
    | (with_reducible apply State.co_calm)
    | intro _
    | split)

theorem State.writeFields_calm {b0 : State} (s : State) (a : Nat) (w : Word) (key : Bool) (image : Bool) (h0 : Calm b0 s) : Calm b0 (s.writeFields a w key image) := by
  unfold State.writeFields
  repeat' (first
    | (with_reducible assumption)
    | (with_reducible apply Calm.ite)
    | (with_reducible apply State.noteWritten_calm)
    | (with_reducible apply State.put_calm)
    | (with_reducible apply State.setField_calm)
    | (with_reducible apply State.stageField_calm)
    | (with_reducible apply Calm.foldl)
    | intro _
    | split)

theorem State.writeFields_kept {b0 : State} (s : State) (a : Nat) (w : Word) (key : Bool) (image : Bool) (h0 : Kept b0 s) : Kept b0 (s.writeFields a w key image) :=
  h0.calm (State.writeFields_calm _ _ _ _ _ (Calm.refl _))

theorem State.strobed_calm {b0 : State} (s : State) (h0 : Calm b0 s) : Calm b0 (s.strobed) := by
  unfold State.strobed
  repeat' (first
    | intro _
    | (with_reducible assumption)
    | (with_reducible apply State.put_calm)
    | split
    | dsimp only)

theorem State.progWrite_calm {b0 : State} (s : State) (a : Nat) (w : Word) (strobe : Bool) (h0 : Calm b0 s) : Calm b0 (s.progWrite a w strobe) := by
  unfold State.progWrite
  repeat' (first
    | intro _
    | (with_reducible assumption)
    | (with_reducible apply Calm.ite)
    | (with_reducible apply State.strobeGroup_calm)
    | (with_reducible apply State.strobed_calm)
    | (with_reducible apply State.writeFields_calm)
    | split
    | dsimp only)

theorem State.ctxTo_calm {b0 : State} (s : State) (x : Fin 4) (pc : Nat) (h0 : Calm b0 s) : Calm b0 (s.ctxTo x pc) := by
  unfold State.ctxTo
  repeat' (first
    | (with_reducible assumption)
    | (with_reducible apply Calm.ite)
    | (with_reducible apply State.ctx_calm)
    | (with_reducible apply State.stopCtx_calm)
    | intro _
    | split)

theorem State.ctxNext_calm {b0 : State} (s : State) (x : Fin 4) (k : Nat) (h0 : Calm b0 s) : Calm b0 (s.ctxNext x k) := by
  unfold State.ctxNext
  repeat' (first
    | (with_reducible assumption)
    | (with_reducible apply State.ctxTo_calm)
    | intro _
    | split)

theorem State.ctxSetreg_calm {b0 : State} (s : State) (x : Fin 4) (w : Nat) (h0 : Calm b0 s) : Calm b0 (s.ctxSetreg x w) := by
  unfold State.ctxSetreg
  repeat' (first
    | intro _
    | (with_reducible assumption)
    | (with_reducible apply Calm.ite)
    | (with_reducible apply State.ctxNext_calm)
    | (with_reducible apply State.progWrite_calm)
    | (with_reducible apply State.stopCtx_calm)
    | split
    | (with_reducible refine Calm.upd ?_ rfl)
    | (with_reducible refine Calm.updSafe ?_)
    | dsimp only)

theorem State.ctxFail_calm {b0 : State} (s : State) (x : Fin 4) (w : Nat) (cause : Nat) (h0 : Calm b0 s) : Calm b0 (s.ctxFail x w cause) := by
  unfold State.ctxFail
  repeat' (first
    | (with_reducible assumption)
    | (with_reducible apply Calm.ite)
    | (with_reducible apply State.ctxTo_calm)
    | (with_reducible apply State.stopCtx_calm)
    | intro _
    | split)

theorem State.svRun_calm {b0 : State} (s : State) (st : Fin 2) (kind : Nat) (idx : Nat) (h0 : Calm b0 s) : Calm b0 (s.svRun st kind idx) := by
  unfold State.svRun
  repeat' (first
    | (with_reducible assumption)
    | (with_reducible apply State.svu_calm)
    | intro _
    | split)

theorem State.svInj_calm {b0 : State} (s : State) (st : Fin 2) (h0 : Calm b0 s) : Calm b0 (s.svInj st) := by
  unfold State.svInj
  repeat' (first
    | (with_reducible assumption)
    | (with_reducible apply State.put_calm)
    | (with_reducible apply State.svRun_calm)
    | (with_reducible apply State.svu_calm)
    | intro _
    | split)

theorem State.svHk_calm {b0 : State} (s : State) (st : Fin 2) (ends : Bool) (h0 : Calm b0 s) : Calm b0 (s.svHk st ends) := by
  unfold State.svHk
  repeat' (first
    | (with_reducible assumption)
    | (with_reducible apply State.svRun_calm)
    | (with_reducible apply State.svu_calm)
    | intro _
    | split)

theorem State.svRound_calm {b0 : State} (s : State) (st : Fin 2) (h0 : Calm b0 s) : Calm b0 (s.svRound st) := by
  unfold State.svRound
  repeat' (first
    | (with_reducible assumption)
    | (with_reducible apply Calm.ite)
    | (with_reducible apply State.put_calm)
    | (with_reducible apply State.putB_calm)
    | (with_reducible apply State.svHk_calm)
    | (with_reducible apply State.svRun_calm)
    | (with_reducible apply State.svu_calm)
    | intro _
    | split)

theorem State.svNext_calm {b0 : State} (s : State) (st : Fin 2) (h0 : Calm b0 s) : Calm b0 (s.svNext st) := by
  unfold State.svNext
  repeat' (first
    | (with_reducible assumption)
    | (with_reducible apply Calm.ite)
    | (with_reducible apply State.put_calm)
    | (with_reducible apply State.svHk_calm)
    | (with_reducible apply State.svInj_calm)
    | (with_reducible apply State.svRound_calm)
    | (with_reducible apply State.svu_calm)
    | intro _
    | split)

theorem State.svRoundEnd_calm {b0 : State} (s : State) (st : Fin 2) (h0 : Calm b0 s) : Calm b0 (s.svRoundEnd st) := by
  unfold State.svRoundEnd
  repeat' (first
    | (with_reducible assumption)
    | (with_reducible apply Calm.ite)
    | (with_reducible apply State.put_calm)
    | (with_reducible apply State.svNext_calm)
    | (with_reducible apply State.svRun_calm)
    | (with_reducible apply State.svu_calm)
    | intro _
    | split)

theorem State.standHold_calm {b0 : State} (s : State) (n : Fin 8) (h0 : Calm b0 s) : Calm b0 (s.standHold n) := by
  unfold State.standHold
  repeat' (first
    | intro _
    | (with_reducible assumption)
    | (with_reducible apply State.ax_calm)
    | (with_reducible apply State.planIdle_calm)
    | split
    | dsimp only)

theorem State.homeDone_calm {b0 : State} (s : State) (n : Fin 8) (h0 : Calm b0 s) : Calm b0 (s.homeDone n) := by
  unfold State.homeDone
  repeat' (first
    | (with_reducible assumption)
    | (with_reducible apply State.ax_calm)
    | (with_reducible apply State.markEnd_calm)
    | (with_reducible apply State.put_calm)
    | (with_reducible apply State.standHold_calm)
    | intro _
    | split)

theorem State.planStat_calm {b0 : State} (s : State) (n : Fin 8) (f : Prof) (seg : Nat) (pre : Bool) (h0 : Calm b0 s) : Calm b0 (s.planStat n f seg pre) := by
  unfold State.planStat
  repeat' (first
    | (with_reducible assumption)
    | (with_reducible apply State.put_calm)
    | (with_reducible apply State.putB_calm)
    | intro _
    | split)

theorem State.place_calm {b0 : State} (s : State) (n : Fin 8) (p : Int) (v : Int) (a : Int) (f : Option Prof) (h0 : Calm b0 s) : Calm b0 (s.place n p v a f) := by
  unfold State.place
  repeat' (first
    | (with_reducible assumption)
    | (with_reducible apply State.ax_calm)
    | intro _
    | split)

theorem State.coordTick_calm {b0 : State} (s : State) (n : Fin 8) (h0 : Calm b0 s) : Calm b0 (s.coordTick n) := by
  unfold State.coordTick
  repeat' (first
    | intro _
    | (with_reducible assumption)
    | (with_reducible apply Calm.ite)
    | (with_reducible apply State.place_calm)
    | (with_reducible apply State.planStat_calm)
    | (with_reducible apply State.put_calm)
    | (with_reducible apply State.putB_calm)
    | split
    | dsimp only)

theorem State.mwRaise_calm {b0 : State} (s : State) (l : Nat) (k : Nat) (kohm : Nat) (h0 : Calm b0 s) : Calm b0 (s.mwRaise l k kohm) := by
  unfold State.mwRaise
  repeat' (first
    | (with_reducible assumption)
    | (with_reducible apply Calm.ite)
    | (with_reducible apply State.ax_calm)
    | (with_reducible apply State.fbAdd_calm)
    | (with_reducible apply State.pulse_calm)
    | intro _
    | split)

theorem State.fbErase_calm {b0 : State} (s : State) (k : Nat) (h0 : Calm b0 s) : Calm b0 (s.fbErase k) := by
  unfold State.fbErase
  have h1 : Calm b0 (s.nv fun m => { m with
      fb := kvDrop m.fb fun a => 1024 * ((k - 1) % 4096 / 128) ≤ a && a < 1024 * ((k - 1) % 4096 / 128) + 1024 }) := by
    refine State.nv_calm _ _ (fun m w => ?_) h0
    simp only [Nvm.wf, Bool.and_eq_true] at w ⊢
    exact ⟨⟨kvWf_drop _ _ _ w.1.1, w.1.2⟩, w.2⟩
  have h2 : ∀ t : State, Calm b0 t → Calm b0 (t.nv fun m => { m with
      wear := kvSet m.wear ((k - 1) % 4096 / 128) (W (satU 17 ((kvGet m.wear ((k - 1) % 4096 / 128) 0).toNat + 1))) 0 }) := by
    intro t ht
    refine State.nv_calm _ _ (fun m w => ?_) ht
    simp only [Nvm.wf, Bool.and_eq_true] at w ⊢
    exact ⟨w.1, kvWf_kvSet (fun _ => (0 : Word)) _ _ _ w.2⟩
  refine Calm.ite (State.pulse_calm _ _ _ _ (State.put_calm _ _ _ (State.su_calm _ _ ?_))) ?_ <;>
    exact State.put_calm _ _ _ (State.put_calm _ _ _ (h2 _ h1))

theorem State.svWork_calm {b0 : State} (s : State) (st : Fin 2) (b : Nat) (h0 : Calm b0 s) : Calm b0 (s.svWork st b) := by
  unfold State.svWork
  repeat' (first
    | (with_reducible assumption)
    | (with_reducible apply Calm.ite)
    | (with_reducible apply State.put_calm)
    | (with_reducible apply State.svNext_calm)
    | (with_reducible apply State.svu_calm)
    | intro _
    | split)

theorem State.surveyStart_calm {b0 : State} (s : State) (h0 : Calm b0 s) : Calm b0 (s.surveyStart) := by
  unfold State.surveyStart
  repeat' (first
    | (with_reducible assumption)
    | (with_reducible apply Calm.ite)
    | (with_reducible apply State.svWork_calm)
    | (with_reducible apply State.svu_calm)
    | (with_reducible apply Calm.forFin)
    | intro _
    | split)

theorem State.surveyStart_kept {b0 : State} (s : State) (h0 : Kept b0 s) : Kept b0 (s.surveyStart) :=
  h0.calm (State.surveyStart_calm _ (Calm.refl _))

theorem State.rstMoves_calm {b0 : State} (s : State) (n : Fin 8) (h0 : Calm b0 s) : Calm b0 (s.rstMoves n) := by
  unfold State.rstMoves
  repeat' (first
    | intro _
    | (with_reducible assumption)
    | (with_reducible apply Calm.ite)
    | (with_reducible apply State.markEnd_calm)
    | (with_reducible apply State.stopMove_calm)
    | (with_reducible apply Calm.foldl)
    | split
    | dsimp only)

theorem State.rstBegin_calm {b0 : State} (s : State) (n : Fin 8) (h0 : Calm b0 s) : Calm b0 (s.rstBegin n) := by
  unfold State.rstBegin
  repeat' (first
    | (with_reducible assumption)
    | (with_reducible apply Calm.ite)
    | (with_reducible apply State.ax_calm)
    | (with_reducible apply State.markEnd_calm)
    | (with_reducible apply State.rstMoves_calm)
    | (with_reducible apply State.stopAxis_calm)
    | (with_reducible apply Calm.foldl)
    | intro _
    | split)

theorem State.pinActs_calm {b0 : State} (s : State) (n : Fin 8) (h0 : Calm b0 s) : Calm b0 (s.pinActs n) := by
  unfold State.pinActs
  repeat' (first
    | (with_reducible assumption)
    | (with_reducible apply Calm.ite)
    | (with_reducible apply State.ax_calm)
    | (with_reducible apply State.dpRestart_calm)
    | (with_reducible apply State.idStat_calm)
    | (with_reducible apply State.put_calm)
    | (with_reducible apply State.putB_calm)
    | intro _
    | split)

theorem State.pinApply_calm {b0 : State} (s : State) (n : Fin 8) (w : Nat) (h0 : Calm b0 s) : Calm b0 (s.pinApply n w) := by
  unfold State.pinApply
  repeat' (first
    | (with_reducible assumption)
    | (with_reducible apply State.ax_calm)
    | (with_reducible apply State.pinActs_calm)
    | (with_reducible apply State.put_calm)
    | (with_reducible apply State.setWord_calm)
    | intro _
    | split)

theorem State.pinOffer_calm {b0 : State} (s : State) (n : Fin 8) (w : Nat) (h0 : Calm b0 s) : Calm b0 (s.pinOffer n w) := by
  unfold State.pinOffer
  repeat' (first
    | (with_reducible assumption)
    | (with_reducible apply Calm.ite)
    | (with_reducible apply State.ax_calm)
    | (with_reducible apply State.pinApply_calm)
    | (with_reducible apply State.put_calm)
    | intro _
    | split)

theorem State.applyAddr_calm {b0 : State} (s : State) (snap : RegFile) (a : Nat) (h0 : Calm b0 s) : Calm b0 (s.applyAddr snap a) := by
  unfold State.applyAddr
  repeat' (first
    | intro _
    | (with_reducible assumption)
    | (with_reducible apply Calm.ite)
    | (with_reducible apply State.setField_calm)
    | (with_reducible apply Calm.foldl)
    | split
    | dsimp only)

theorem State.levelOff_calm {b0 : State} (s : State) (e : Nat) (idx : Nat) (detail : Nat) (h0 : Calm b0 s) : Calm b0 (s.levelOff e idx detail) := by
  unfold State.levelOff
  repeat' (first
    | (with_reducible assumption)
    | (with_reducible apply Calm.ite)
    | (with_reducible apply State.evPost_calm)
    | (with_reducible refine Calm.upd ?_ rfl)
    | (with_reducible refine Calm.updSafe ?_)
    | intro _
    | split)

theorem State.levelOff_kept {b0 : State} (s : State) (e : Nat) (idx : Nat) (detail : Nat) (h0 : Kept b0 s) : Kept b0 (s.levelOff e idx detail) :=
  h0.calm (State.levelOff_calm _ _ _ _ (Calm.refl _))

theorem State.ctxHold_calm {b0 : State} (s : State) (x : Fin 4) (w : PWait) (h0 : Calm b0 s) : Calm b0 (s.ctxHold x w) := by
  unfold State.ctxHold
  repeat' (first
    | (with_reducible assumption)
    | (with_reducible apply State.ctx_calm)
    | intro _
    | split)

theorem State.ctxPush_calm {b0 : State} (s : State) (x : Fin 4) (w : Nat) (w2 : Nat) (w3 : Nat) (h0 : Calm b0 s) : Calm b0 (s.ctxPush x w w2 w3) := by
  unfold State.ctxPush
  repeat' (first
    | (with_reducible assumption)
    | (with_reducible apply Calm.ite)
    | (with_reducible apply State.ctxCommit_calm)
    | (with_reducible apply State.ctxHold_calm)
    | (with_reducible apply State.ctxNext_calm)
    | (with_reducible apply State.ctxTo_calm)
    | (with_reducible apply State.stopCtx_calm)
    | intro _
    | split)

theorem State.fclkSet_calm {b0 : State} (s : State) (secs : Nat) (h0 : Calm b0 s) : Calm b0 (s.fclkSet secs) := by
  unfold State.fclkSet
  repeat' (first
    | (with_reducible assumption)
    | (with_reducible apply State.put_calm)
    | (with_reducible apply State.su_calm)
    | intro _
    | split)

theorem State.spiCfgWrite_calm {b0 : State} (s : State) (w : Word) (key : Bool) (gr : Bool) (image : Bool) (h0 : Calm b0 s) : Calm b0 (s.spiCfgWrite w key gr image) := by
  unfold State.spiCfgWrite
  repeat' (first
    | (with_reducible assumption)
    | (with_reducible apply Calm.ite)
    | (with_reducible apply State.put_calm)
    | (with_reducible apply State.putB_calm)
    | (with_reducible apply State.writeFields_calm)
    | (with_reducible refine Calm.upd ?_ rfl)
    | (with_reducible refine Calm.updSafe ?_)
    | intro _
    | split)

theorem State.spiCfgWrite_kept {b0 : State} (s : State) (w : Word) (key : Bool) (gr : Bool) (image : Bool) (h0 : Kept b0 s) : Kept b0 (s.spiCfgWrite w key gr image) :=
  h0.calm (State.spiCfgWrite_calm _ _ _ _ _ (Calm.refl _))

theorem State.applyEntry_calm {b0 : State} (s : State) (e : Entry) (h0 : Calm b0 s) : Calm b0 (s.applyEntry e) := by
  unfold State.applyEntry
  repeat' (first
    | (with_reducible assumption)
    | (with_reducible apply Calm.ite)
    | (with_reducible apply State.fclkSet_calm)
    | (with_reducible apply State.spiCfgWrite_calm)
    | (with_reducible apply State.writeFields_calm)
    | intro _
    | split)

theorem State.ceilTick_calm {b0 : State} (s : State) (h0 : Calm b0 s) : Calm b0 (s.ceilTick) := by
  unfold State.ceilTick
  repeat' (first
    | (with_reducible assumption)
    | (with_reducible apply State.bt_calm)
    | (with_reducible apply State.su_calm)
    | intro _
    | split)

theorem State.moveTick_calm {b0 : State} (s : State) (t : Fin 2) (h0 : Calm b0 s) : Calm b0 (s.moveTick t) := by
  unfold State.moveTick
  repeat' (first
    | intro _
    | (with_reducible assumption)
    | (with_reducible apply Calm.ite)
    | (with_reducible apply State.cause_calm)
    | (with_reducible apply State.put_calm)
    | (with_reducible apply State.putB_calm)
    | (with_reducible apply State.stn_calm)
    | (with_reducible apply Calm.foldl)
    | split
    | dsimp only)

theorem State.dirCheck_calm {b0 : State} (s : State) (n : Fin 8) (h0 : Calm b0 s) : Calm b0 (s.dirCheck n) := by
  unfold State.dirCheck
  repeat' (first
    | (with_reducible assumption)
    | (with_reducible apply Calm.ite)
    | (with_reducible apply State.dpt_calm)
    | (with_reducible apply State.fbAdd_calm)
    | (with_reducible apply State.pulse_calm)
    | (with_reducible apply State.put_calm)
    | intro _
    | split)

theorem State.idchkStart_calm {b0 : State} (s : State) (n : Fin 8) (ok : Bool) (h0 : Calm b0 s) : Calm b0 (s.idchkStart n ok) := by
  unfold State.idchkStart
  repeat' (first
    | intro _
    | (with_reducible assumption)
    | (with_reducible apply Calm.ite)
    | (with_reducible apply State.ax_calm)
    | (with_reducible apply State.put_calm)
    | (with_reducible apply State.setWord_calm)
    | split
    | dsimp only)

theorem State.idchkEnd_calm {b0 : State} (s : State) (n : Fin 8) (res : Nat) (h0 : Calm b0 s) : Calm b0 (s.idchkEnd n res) := by
  unfold State.idchkEnd
  repeat' (first
    | intro _
    | (with_reducible assumption)
    | (with_reducible apply State.ax_calm)
    | (with_reducible apply State.bridgesOff_calm)
    | (with_reducible apply State.fbAdd_calm)
    | (with_reducible apply State.pulse_calm)
    | (with_reducible apply State.put_calm)
    | split
    | dsimp only)

theorem State.idZero_calm {b0 : State} (s : State) (n : Fin 8) (h0 : Calm b0 s) : Calm b0 (s.idZero n) := by
  unfold State.idZero
  repeat' (first
    | intro _
    | (with_reducible assumption)
    | (with_reducible apply Calm.ite)
    | (with_reducible apply State.ax_calm)
    | (with_reducible apply State.put_calm)
    | split
    | dsimp only)

theorem State.idchkTick_calm {b0 : State} (s : State) (n : Fin 8) (h0 : Calm b0 s) : Calm b0 (s.idchkTick n) := by
  unfold State.idchkTick
  repeat' (first
    | intro _
    | (with_reducible assumption)
    | (with_reducible apply Calm.ite)
    | (with_reducible apply State.ax_calm)
    | (with_reducible apply State.idZero_calm)
    | (with_reducible apply State.idchkEnd_calm)
    | (with_reducible apply State.idchkStart_calm)
    | split
    | dsimp only)

theorem State.calEnd_calm {b0 : State} (s : State) (n : Fin 8) (res : Nat) (h0 : Calm b0 s) : Calm b0 (s.calEnd n res) := by
  unfold State.calEnd
  repeat' (first
    | (with_reducible assumption)
    | (with_reducible apply State.fbAdd_calm)
    | (with_reducible apply State.ob_calm)
    | (with_reducible apply State.pulse_calm)
    | (with_reducible apply State.put_calm)
    | intro _
    | split)

theorem State.calAbort_calm {b0 : State} (s : State) (n : Fin 8) (h0 : Calm b0 s) : Calm b0 (s.calAbort n) := by
  unfold State.calAbort
  repeat' (first
    | (with_reducible assumption)
    | (with_reducible apply Calm.ite)
    | (with_reducible apply State.calEnd_calm)
    | intro _
    | split)

theorem State.calMark_calm {b0 : State} (s : State) (n : Fin 8) (h0 : Calm b0 s) : Calm b0 (s.calMark n) := by
  unfold State.calMark
  repeat' (first
    | intro _
    | (with_reducible assumption)
    | (with_reducible apply Calm.ite)
    | (with_reducible apply State.ax_calm)
    | (with_reducible apply State.calAbort_calm)
    | (with_reducible apply State.ob_calm)
    | (with_reducible apply State.put_calm)
    | split
    | dsimp only)

theorem State.scrubNext_calm {b0 : State} (s : State) (m : Mem) (h0 : Calm b0 s) : Calm b0 (s.scrubNext m) := by
  unfold State.scrubNext
  repeat' (first
    | exact fun h => h
    | exact fun _ h => h
    | (with_reducible assumption)
    | (with_reducible apply Calm.ite)
    | (with_reducible apply State.mm_calm)
    | (with_reducible apply State.put_calm)
    | intro _
    | split)

theorem State.overdue_calm {b0 : State} (s : State) (k : Nat) (h0 : Calm b0 s) : Calm b0 (s.overdue k) := by
  induction k generalizing s with
  | zero => exact h0
  | succ k ih =>
    unfold State.overdue
    refine Calm.ite (ih _ (State.mm_calm _ _ _ (fun _ w => w) (State.scrubNext_calm _ _ (State.memRead_calm _ _ _ _ _ h0)))) h0

theorem State.scrubTick_calm {b0 : State} (s : State) (h0 : Calm b0 s) : Calm b0 (s.scrubTick) := by
  unfold State.scrubTick
  repeat' (first
    | exact fun h => h
    | exact fun _ h => h
    | (with_reducible assumption)
    | (with_reducible apply Calm.ite)
    | (with_reducible apply State.mm_calm)
    | (with_reducible apply State.overdue_calm)
    | intro _
    | split)

theorem State.markRun_calm {b0 : State} (s : State) (h0 : Calm b0 s) : Calm b0 (s.markRun) := by
  unfold State.markRun
  repeat' (first
    | (with_reducible assumption)
    | (with_reducible apply State.bdTick_calm)
    | (with_reducible apply State.calMark_calm)
    | (with_reducible apply State.dirCheck_calm)
    | (with_reducible apply State.idchkTick_calm)
    | (with_reducible apply State.moveTick_calm)
    | (with_reducible apply State.scrubTick_calm)
    | (with_reducible apply Calm.forFin)
    | (with_reducible refine Calm.upd ?_ rfl)
    | (with_reducible refine Calm.updSafe ?_)
    | intro _
    | split)

theorem State.markRun_kept {b0 : State} (s : State) (h0 : Kept b0 s) : Kept b0 (s.markRun) :=
  h0.calm (State.markRun_calm _ (Calm.refl _))

theorem State.evMon_calm {b0 : State} (s : State) (n : Fin 8) (d : Nat) (h0 : Calm b0 s) : Calm b0 (s.evMon n d) := by
  unfold State.evMon
  repeat' (first
    | (with_reducible assumption)
    | (with_reducible apply State.pulse_calm)
    | intro _
    | split)

theorem State.recordForce_calm {b0 : State} (s : State) (n : Fin 8) (b : List Byte) (h0 : Calm b0 s) : Calm b0 (s.recordForce n b) := by
  unfold State.recordForce
  repeat' (first
    | (with_reducible assumption)
    | (with_reducible apply Calm.ite)
    | (with_reducible apply State.evMon_calm)
    | (with_reducible apply State.fbAdd_calm)
    | (with_reducible apply State.monChange_calm)
    | (with_reducible apply State.put_calm)
    | intro _
    | split)

theorem State.idTick_calm {b0 : State} (s : State) (n : Fin 8) (h0 : Calm b0 s) : Calm b0 (s.idTick n) := by
  unfold State.idTick
  repeat' (first
    | (with_reducible assumption)
    | (with_reducible apply Calm.ite)
    | (with_reducible apply State.recordForce_calm)
    | intro _
    | split)

theorem State.tickApply_calm {b0 : State} (s : State) (p : Nat) (src : Nat) (h0 : Calm b0 s) : Calm b0 (s.tickApply p src) := by
  unfold State.tickApply
  repeat' (first
    | (with_reducible assumption)
    | (with_reducible apply Calm.ite)
    | (with_reducible apply State.put_calm)
    | (with_reducible refine Calm.upd ?_ rfl)
    | (with_reducible refine Calm.updSafe ?_)
    | intro _
    | split)

theorem State.seqApply_calm {b0 : State} (s : State) (n : Fin 8) (r : Nat) (e : Nat) (h0 : Calm b0 s) : Calm b0 (s.seqApply n r e) := by
  unfold State.seqApply
  repeat' (first
    | (with_reducible assumption)
    | (with_reducible apply State.ax_calm)
    | (with_reducible apply State.put_calm)
    | intro _
    | split)

theorem State.dpApply_calm {b0 : State} (s : State) (n : Fin 8) (inv : Nat) (cpr : Nat) (h0 : Calm b0 s) : Calm b0 (s.dpApply n inv cpr) := by
  unfold State.dpApply
  repeat' (first
    | (with_reducible assumption)
    | (with_reducible apply Calm.ite)
    | (with_reducible apply State.dpRestart_calm)
    | (with_reducible apply State.dpt_calm)
    | (with_reducible apply State.put_calm)
    | intro _
    | split)

theorem State.heldTick_calm {b0 : State} (s : State) (h0 : Calm b0 s) : Calm b0 (s.heldTick) := by
  unfold State.heldTick
  repeat' (first
    | intro _
    | (with_reducible assumption)
    | (with_reducible apply Calm.ite)
    | (with_reducible apply State.dpApply_calm)
    | (with_reducible apply State.pinApply_calm)
    | (with_reducible apply State.seqApply_calm)
    | (with_reducible apply State.tickApply_calm)
    | (with_reducible apply Calm.forFin)
    | split
    | dsimp only)

theorem State.seqOffer_calm {b0 : State} (s : State) (n : Fin 8) (r : Nat) (e : Nat) (h0 : Calm b0 s) : Calm b0 (s.seqOffer n r e) := by
  unfold State.seqOffer
  repeat' (first
    | (with_reducible assumption)
    | (with_reducible apply Calm.ite)
    | (with_reducible apply State.ax_calm)
    | (with_reducible apply State.put_calm)
    | (with_reducible apply State.seqApply_calm)
    | intro _
    | split)

theorem State.dpOffer_calm {b0 : State} (s : State) (n : Fin 8) (inv : Nat) (cpr : Nat) (h0 : Calm b0 s) : Calm b0 (s.dpOffer n inv cpr) := by
  unfold State.dpOffer
  repeat' (first
    | (with_reducible assumption)
    | (with_reducible apply Calm.ite)
    | (with_reducible apply State.dpApply_calm)
    | (with_reducible apply State.dpt_calm)
    | (with_reducible apply State.put_calm)
    | intro _
    | split)

theorem State.rmodeTook_calm {b0 : State} (s : State) (st : Fin 2) (was : Nat) (h0 : Calm b0 s) : Calm b0 (s.rmodeTook st was) := by
  unfold State.rmodeTook
  repeat' (first
    | intro _
    | (with_reducible assumption)
    | (with_reducible apply Calm.ite)
    | (with_reducible apply State.put_calm)
    | split
    | dsimp only)

theorem State.tickOffer_calm {b0 : State} (s : State) (p : Nat) (src : Nat) (h0 : Calm b0 s) : Calm b0 (s.tickOffer p src) := by
  unfold State.tickOffer
  repeat' (first
    | (with_reducible assumption)
    | (with_reducible apply Calm.ite)
    | (with_reducible apply State.put_calm)
    | (with_reducible apply State.tickApply_calm)
    | (with_reducible refine Calm.upd ?_ rfl)
    | (with_reducible refine Calm.updSafe ?_)
    | intro _
    | split)

theorem State.applyGroup_calm {b0 : State} (s : State) (g : Fin 11) (snap : RegFile) (h0 : Calm b0 s) : Calm b0 (s.applyGroup g snap) := by
  unfold State.applyGroup
  repeat' (first
    | intro _
    | (with_reducible assumption)
    | (with_reducible apply Calm.ite)
    | (with_reducible apply Calm.dite)
    | (with_reducible apply State.applyAddr_calm)
    | (with_reducible apply State.dpOffer_calm)
    | (with_reducible apply State.pinOffer_calm)
    | (with_reducible apply State.rmodeTook_calm)
    | (with_reducible apply State.seqOffer_calm)
    | (with_reducible apply State.tickOffer_calm)
    | (with_reducible apply Calm.foldl)
    | split
    | dsimp only)

theorem State.applyStrobes_calm {b0 : State} (s : State) (h0 : Calm b0 s) : Calm b0 (s.applyStrobes) := by
  unfold State.applyStrobes
  repeat' (first
    | intro _
    | (with_reducible assumption)
    | (with_reducible apply Calm.ite)
    | (with_reducible apply State.applyGroup_calm)
    | (with_reducible apply State.heldTick_calm)
    | (with_reducible apply Calm.forFin)
    | split
    | (with_reducible refine Calm.upd ?_ rfl)
    | (with_reducible refine Calm.updSafe ?_)
    | dsimp only)

theorem State.pinFlags_calm {b0 : State} (s : State) (n : Fin 8) (h0 : Calm b0 s) : Calm b0 (s.pinFlags n) := by
  unfold State.pinFlags
  repeat' (first
    | (with_reducible assumption)
    | (with_reducible apply State.putB_calm)
    | intro _
    | split)

theorem State.axisFaultIf_calm {b0 : State} (s : State) (n : Fin 8) (pwr : Nat) (ax : Nat) (st : Nat) (h0 : Calm b0 s) : Calm b0 (s.axisFaultIf n pwr ax st) := by
  unfold State.axisFaultIf
  repeat' (first
    | (with_reducible assumption)
    | (with_reducible apply Calm.ite)
    | (with_reducible apply State.axisFault_calm)
    | intro _
    | split)

theorem State.encTick_calm {b0 : State} (s : State) (n : Fin 8) (h0 : Calm b0 s) : Calm b0 (s.encTick n) := by
  unfold State.encTick
  repeat' (first
    | (with_reducible assumption)
    | (with_reducible apply Calm.ite)
    | (with_reducible apply State.axisFaultIf_calm)
    | (with_reducible apply State.dpt_calm)
    | intro _
    | split)

theorem State.dueFaults_calm {b0 : State} (s : State) (n : Fin 8) (h0 : Calm b0 s) : Calm b0 (s.dueFaults n) := by
  unfold State.dueFaults
  repeat' (first
    | (with_reducible assumption)
    | (with_reducible apply Calm.ite)
    | (with_reducible apply State.ax_calm)
    | (with_reducible apply State.axisFault_calm)
    | (with_reducible apply State.encTick_calm)
    | intro _
    | split)

theorem State.resetRegs_calm {b0 : State} (s : State) (p : Nat → Bool) (h0 : Calm b0 s) : Calm b0 (s.resetRegs p) :=
  Calm.upd (Calm.regs h0 (kvWf_drop resetWord s.regs p)) rfl

theorem State.rstCoil_calm {b0 : State} (s : State) (c : Fin 16) (h0 : Calm b0 s) : Calm b0 (s.rstCoil c) := by
  unfold State.rstCoil
  repeat' (first
    | (with_reducible assumption)
    | (with_reducible apply State.co_calm)
    | intro _
    | split)

theorem State.rstFinish_calm {b0 : State} (s : State) (n : Fin 8) (h0 : Calm b0 s) : Calm b0 (s.rstFinish n) := by
  unfold State.rstFinish
  refine State.putBit_calm _ _ _ _ (State.pinActs_calm _ _ (State.rstCoil_calm _ _ (State.rstCoil_calm _ _ (State.ax_calm _ _ _ ?_))))
  refine Calm.upd (Calm.staged (Calm.ite ?_ ?_) (kvWf_drop resetWord _ _)) rfl
  · exact State.put_calm _ _ _ (State.resetRegs_calm _ _ h0)
  · exact State.put_calm _ _ _ (State.resetRegs_calm _ _ h0)

theorem State.rstAxis_calm {b0 : State} (s : State) (n : Fin 8) (h0 : Calm b0 s) : Calm b0 (s.rstAxis n) := by
  unfold State.rstAxis
  repeat' (first
    | (with_reducible assumption)
    | (with_reducible apply Calm.ite)
    | (with_reducible apply State.rstBegin_calm)
    | (with_reducible apply State.rstFinish_calm)
    | (with_reducible apply State.rstMoves_calm)
    | intro _
    | split)

theorem State.moveEngage_calm {b0 : State} (s : State) (t : Fin 2) (h0 : Calm b0 s) : Calm b0 (s.moveEngage t) := by
  unfold State.moveEngage
  repeat' (first
    | (with_reducible assumption)
    | (with_reducible apply State.ax_calm)
    | (with_reducible apply State.enterMotion_calm)
    | (with_reducible apply Calm.foldl)
    | intro _
    | split)

theorem State.moveStart_calm {b0 : State} (s : State) (t : Fin 2) (h0 : Calm b0 s) : Calm b0 (s.moveStart t) := by
  unfold State.moveStart
  repeat' (first
    | (with_reducible assumption)
    | (with_reducible apply Calm.ite)
    | (with_reducible apply State.moveEngage_calm)
    | (with_reducible apply State.stn_calm)
    | (with_reducible apply Calm.foldl)
    | intro _
    | split)

theorem State.moveTake_calm {b0 : State} (s : State) (t : Fin 2) (parts : List Cmd) (waiting : Bool) (h0 : Calm b0 s) : Calm b0 (s.moveTake t parts waiting) := by
  unfold State.moveTake
  repeat' (first
    | (with_reducible assumption)
    | (with_reducible apply Calm.ite)
    | (with_reducible apply State.cmdUpd_calm)
    | (with_reducible apply State.stn_calm)
    | (with_reducible apply Calm.foldl)
    | intro _
    | split)

theorem State.startMove_calm {b0 : State} (s : State) (t : Fin 2) (parts : List Cmd) (h0 : Calm b0 s) : Calm b0 (s.startMove t parts) := by
  unfold State.startMove
  repeat' (first
    | (with_reducible assumption)
    | (with_reducible apply Calm.ite)
    | (with_reducible apply State.cmdUpd_calm)
    | (with_reducible apply State.moveStart_calm)
    | (with_reducible apply State.moveTake_calm)
    | (with_reducible apply State.stn_calm)
    | (with_reducible apply State.unpair_calm)
    | (with_reducible apply Calm.foldl)
    | intro _
    | split)

theorem State.startStation_calm {b0 : State} (s : State) (t : Fin 2) (busy : List Nat) (k : Nat) (l : List Cmd)
    (h0 : Calm b0 s) : Calm b0 (s.startStation t busy k l) := by
  induction k generalizing s l with
  | zero => unfold State.startStation; exact h0
  | succ k ih =>
    cases l with
    | nil => unfold State.startStation; exact h0
    | cons c l =>
      have he : ∀ (st : Nat) (p : List Cmd), Calm b0 (p.foldl (fun (s : State) x => s.markEnd x.id st) s) :=
        fun st p => Calm.foldl (fun x i h => State.markEnd_calm x i.id st h) h0
      unfold State.startStation
      refine Calm.ite (Calm.ite ?_ ?_) ?_
      · exact ih _ _ (State.markEnd_calm _ _ _ h0)
      · exact State.cmdUpd_calm _ _ _ (State.unpair_calm _ _ _ _ h0)
      · refine Calm.ite h0 (Calm.ite ?_ (Calm.ite ?_ (Calm.ite h0 (Calm.ite ?_ ?_))))
        · exact ih _ _ (State.unpair_calm _ _ _ _ (he _ _))
        · exact ih _ _ (he _ _)
        · exact ih _ _ (Calm.ite (he _ _) (State.unpair_calm _ _ _ _ (he _ _)))
        · exact State.startMove_calm _ _ _ h0

theorem State.stationMark_calm {b0 : State} (s : State) (t : Fin 2) (busy : List Nat) (h0 : Calm b0 s) : Calm b0 (s.stationMark t busy) := by
  unfold State.stationMark
  repeat' (first
    | (with_reducible assumption)
    | (with_reducible apply Calm.ite)
    | (with_reducible apply State.startStation_calm)
    | intro _
    | split)

theorem State.moveLimit_calm {b0 : State} (s : State) (t : Fin 2) (h0 : Calm b0 s) : Calm b0 (s.moveLimit t) := by
  unfold State.moveLimit
  repeat' (first
    | intro _
    | (with_reducible assumption)
    | (with_reducible apply Calm.ite)
    | (with_reducible apply State.pulse_calm)
    | (with_reducible apply State.stopMove_calm)
    | (with_reducible apply Calm.foldl)
    | split
    | dsimp only)

theorem State.homeStart_calm {b0 : State} (s : State) (n : Fin 8) (c : Cmd) (h0 : Calm b0 s) : Calm b0 (s.homeStart n c) := by
  unfold State.homeStart
  repeat' (first
    | (with_reducible assumption)
    | (with_reducible apply Calm.ite)
    | (with_reducible apply State.ax_calm)
    | (with_reducible apply State.enterMotion_calm)
    | (with_reducible apply State.homePhase_calm)
    | (with_reducible apply State.put_calm)
    | intro _
    | split)

theorem State.startOn_calm {b0 : State} (s : State) (n : Fin 8) (c : Cmd) (h0 : Calm b0 s) : Calm b0 (s.startOn n c) := by
  unfold State.startOn
  repeat' (first
    | (with_reducible assumption)
    | (with_reducible apply Calm.ite)
    | (with_reducible apply State.cmdUpd_calm)
    | (with_reducible apply State.homeStart_calm)
    | (with_reducible apply State.stakeStart_calm)
    | intro _
    | split)

theorem State.startAxis_calm {b0 : State} (s : State) (n : Fin 8) (l : List Cmd) (h0 : Calm b0 s) : Calm b0 (s.startAxis n l) := by
  induction l generalizing s with
  | nil => exact h0
  | cons c l ih =>
    unfold State.startAxis
    refine Calm.ite h0 (Calm.ite ?_ ?_)
    · exact ih _ (State.markEnd_calm _ _ _ h0)
    · exact State.startOn_calm _ _ _ h0

theorem State.axisMark_calm {b0 : State} (s : State) (n : Fin 8) (busy : List Nat) (h0 : Calm b0 s) : Calm b0 (s.axisMark n busy) := by
  unfold State.axisMark
  repeat' (first
    | (with_reducible assumption)
    | (with_reducible apply Calm.ite)
    | (with_reducible apply State.startAxis_calm)
    | intro _
    | split)

theorem State.startDevice_calm {b0 : State} (s : State) (l : List Cmd) (h0 : Calm b0 s) : Calm b0 (s.startDevice l) := by
  induction l generalizing s with
  | nil => exact h0
  | cons c l ih =>
    unfold State.startDevice
    refine Calm.ite ?_ ?_
    · exact ih _ (State.markEnd_calm _ _ _ h0)
    · exact State.cmdUpd_calm _ _ _ h0

theorem State.execMark_calm {b0 : State} (s : State) (h0 : Calm b0 s) : Calm b0 (s.execMark) := by
  unfold State.execMark
  repeat' (first
    | (with_reducible assumption)
    | (with_reducible apply Calm.ite)
    | (with_reducible apply State.applyImms_calm)
    | (with_reducible apply State.axisMark_calm)
    | (with_reducible apply State.moveLimit_calm)
    | (with_reducible apply State.startDevice_calm)
    | (with_reducible apply State.stationMark_calm)
    | (with_reducible apply Calm.forFin)
    | intro _
    | split)

theorem State.stgClear_calm {b0 : State} (s : State) (r : Nat) (h0 : Calm b0 s) : Calm b0 (s.stgClear r) := by
  unfold State.stgClear
  repeat' (first
    | (with_reducible assumption)
    | (with_reducible refine Calm.upd ?_ rfl)
    | (with_reducible refine Calm.updSafe ?_)
    | intro _
    | split)

theorem State.rstRing_calm {b0 : State} (s : State) (r : Fin 16) (h0 : Calm b0 s) : Calm b0 (s.rstRing r) := by
  unfold State.rstRing
  repeat' (first
    | (with_reducible assumption)
    | (with_reducible apply Calm.ite)
    | (with_reducible apply Calm.dite)
    | (with_reducible apply State.putBit_calm)
    | (with_reducible apply State.ring_calm)
    | (with_reducible apply State.stgClear_calm)
    | (with_reducible refine Calm.upd ?_ rfl)
    | (with_reducible refine Calm.updSafe ?_)
    | intro _
    | split)

theorem State.rstRings_calm {b0 : State} (s : State) (h0 : Calm b0 s) : Calm b0 (s.rstRings) := by
  unfold State.rstRings
  repeat' (first
    | (with_reducible assumption)
    | (with_reducible apply State.rstRing_calm)
    | (with_reducible apply Calm.foldl)
    | (with_reducible refine Calm.upd ?_ rfl)
    | (with_reducible refine Calm.updSafe ?_)
    | intro _
    | split)

theorem State.tripAxis_calm {b0 : State} (s : State) (n : Fin 8) (h0 : Calm b0 s) : Calm b0 (s.tripAxis n) := by
  unfold State.tripAxis
  repeat' (first
    | (with_reducible assumption)
    | (with_reducible apply State.axisFaultIf_calm)
    | intro _
    | split)

theorem State.tripTick_calm {b0 : State} (s : State) (n : Fin 8) (h0 : Calm b0 s) : Calm b0 (s.tripTick n) := by
  unfold State.tripTick
  repeat' (first
    | (with_reducible assumption)
    | (with_reducible apply Calm.ite)
    | (with_reducible apply State.ax_calm)
    | (with_reducible apply State.tripAxis_calm)
    | intro _
    | split)

theorem State.causeTick_calm {b0 : State} (s : State) (n : Fin 8) (h0 : Calm b0 s) : Calm b0 (s.causeTick n) := by
  unfold State.causeTick
  repeat' (first
    | (with_reducible assumption)
    | (with_reducible apply Calm.ite)
    | (with_reducible apply State.axisFault_calm)
    | intro _
    | split)

theorem State.markApply_calm {b0 : State} (s : State) (h0 : Calm b0 s) : Calm b0 (s.markApply) := by
  unfold State.markApply
  repeat' (first
    | intro _
    | (with_reducible assumption)
    | (with_reducible apply State.applyStrobes_calm)
    | (with_reducible apply State.causeTick_calm)
    | (with_reducible apply State.ceilTick_calm)
    | (with_reducible apply State.dueFaults_calm)
    | (with_reducible apply State.execMark_calm)
    | (with_reducible apply State.gathered_calm)
    | (with_reducible apply State.idTick_calm)
    | (with_reducible apply State.pinFlags_calm)
    | (with_reducible apply State.rstAxis_calm)
    | (with_reducible apply State.rstRings_calm)
    | (with_reducible apply State.tripTick_calm)
    | (with_reducible apply Calm.forFin)
    | split
    | dsimp only)

theorem State.markApply_kept {b0 : State} (s : State) (h0 : Kept b0 s) : Kept b0 (s.markApply) :=
  h0.calm (State.markApply_calm _ (Calm.refl _))

theorem State.restTick_calm {b0 : State} (s : State) (n : Fin 8) (h0 : Calm b0 s) : Calm b0 (s.restTick n) := by
  unfold State.restTick
  repeat' (first
    | (with_reducible assumption)
    | (with_reducible apply Calm.ite)
    | (with_reducible apply State.ax_calm)
    | intro _
    | split)

theorem State.obsMark_calm {b0 : State} (s : State) (n : Fin 8) (h0 : Calm b0 s) : Calm b0 (s.obsMark n) := by
  unfold State.obsMark
  repeat' (first
    | (with_reducible assumption)
    | (with_reducible apply Calm.ite)
    | (with_reducible apply State.ax_calm)
    | intro _
    | split)

theorem State.dpTick_calm {b0 : State} (s : State) (n : Fin 8) (h0 : Calm b0 s) : Calm b0 (s.dpTick n) := by
  unfold State.dpTick
  repeat' (first
    | (with_reducible assumption)
    | (with_reducible apply State.dpt_calm)
    | (with_reducible apply State.put_calm)
    | (with_reducible apply State.putB_calm)
    | (with_reducible apply State.putI_calm)
    | intro _
    | split)

theorem State.pinSample_calm {b0 : State} (s : State) (n : Fin 8) (pins : BitVec 48) (h0 : Calm b0 s) : Calm b0 (s.pinSample n pins) := by
  unfold State.pinSample
  repeat' (first
    | (with_reducible assumption)
    | (with_reducible apply Calm.ite)
    | (with_reducible apply State.ax_calm)
    | (with_reducible apply State.setWord_calm)
    | intro _
    | split)

theorem State.coilTick_calm {b0 : State} (s : State) (c : Fin 16) (h0 : Calm b0 s) : Calm b0 (s.coilTick c) := by
  unfold State.coilTick
  repeat' (first
    | (with_reducible assumption)
    | (with_reducible apply Calm.ite)
    | (with_reducible apply State.co_calm)
    | (with_reducible apply State.putB_calm)
    | intro _
    | split)

theorem State.markSample_calm {b0 : State} (s : State) (pins : BitVec 48) (h0 : Calm b0 s) : Calm b0 (s.markSample pins) := by
  unfold State.markSample
  repeat' (first
    | (with_reducible assumption)
    | (with_reducible apply State.coilTick_calm)
    | (with_reducible apply State.dpTick_calm)
    | (with_reducible apply State.obsMark_calm)
    | (with_reducible apply State.pinSample_calm)
    | (with_reducible apply State.put_calm)
    | (with_reducible apply State.restTick_calm)
    | (with_reducible apply Calm.forFin)
    | intro _
    | split)

theorem State.markSample_kept {b0 : State} (s : State) (pins : BitVec 48) (h0 : Kept b0 s) : Kept b0 (s.markSample pins) :=
  h0.calm (State.markSample_calm _ _ (Calm.refl _))

theorem State.markOkTick_calm {b0 : State} (s : State) (h0 : Calm b0 s) : Calm b0 (s.markOkTick) := by
  unfold State.markOkTick
  repeat' (first
    | (with_reducible assumption)
    | (with_reducible apply Calm.ite)
    | (with_reducible apply State.put_calm)
    | intro _
    | split)

theorem State.markOkTick_kept {b0 : State} (s : State) (h0 : Kept b0 s) : Kept b0 (s.markOkTick) :=
  h0.calm (State.markOkTick_calm _ (Calm.refl _))

theorem State.arbTick_calm {b0 : State} (s : State) (h0 : Calm b0 s) : Calm b0 (s.arbTick) := by
  unfold State.arbTick
  repeat' (first
    | (with_reducible assumption)
    | (with_reducible apply Calm.ite)
    | (with_reducible apply State.put_calm)
    | (with_reducible refine Calm.upd ?_ rfl)
    | (with_reducible refine Calm.updSafe ?_)
    | intro _
    | split)

theorem State.arbTick_kept {b0 : State} (s : State) (h0 : Kept b0 s) : Kept b0 (s.arbTick) :=
  h0.calm (State.arbTick_calm _ (Calm.refl _))

theorem State.tickMark_kept {b0 : State} (s : State) (pins : BitVec 48) (h0 : Kept b0 s) : Kept b0 (s.tickMark pins) := by
  unfold State.tickMark
  repeat' (first
    | (with_reducible assumption)
    | (with_reducible apply State.arbTick_kept)
    | (with_reducible apply State.markApply_kept)
    | (with_reducible apply State.markOkTick_kept)
    | (with_reducible apply State.markRun_kept)
    | (with_reducible apply State.markSample_kept)
    | (with_reducible refine Kept.upd ?_)
    | intro _
    | split)

theorem State.startPwm_calm {b0 : State} (s : State) (h0 : Calm b0 s) : Calm b0 (s.startPwm) := by
  unfold State.startPwm
  repeat' (first
    | (with_reducible assumption)
    | (with_reducible apply State.boundary_calm)
    | (with_reducible apply State.co_calm)
    | (with_reducible apply Calm.foldl)
    | intro _
    | split)

theorem State.startPwm_kept {b0 : State} (s : State) (h0 : Kept b0 s) : Kept b0 (s.startPwm) :=
  h0.calm (State.startPwm_calm _ (Calm.refl _))

theorem State.enterReady_kept {b0 : State} (s : State) (pins : BitVec 48) (h0 : Kept b0 s) : Kept b0 (s.enterReady pins) := by
  unfold State.enterReady
  repeat' (first
    | (with_reducible assumption)
    | (with_reducible apply Kept.ite)
    | (with_reducible apply State.ax_kept)
    | (with_reducible apply State.bt_kept)
    | (with_reducible apply State.enterSafe_kept)
    | (with_reducible apply State.pulse_kept)
    | (with_reducible apply State.put_kept)
    | (with_reducible apply State.startPwm_kept)
    | (with_reducible apply State.su_kept)
    | (with_reducible apply State.surveyStart_kept)
    | (with_reducible apply State.svu_kept)
    | (with_reducible apply State.tickMark_kept)
    | (with_reducible apply State.v5Follow_kept)
    | (with_reducible apply Kept.forFin)
    | (with_reducible refine Kept.upd ?_)
    | intro _
    | split)

theorem State.nvPulse_calm {b0 : State} (s : State) (h0 : Calm b0 s) : Calm b0 (s.nvPulse) := by
  unfold State.nvPulse
  repeat' (first
    | intro _
    | (with_reducible assumption)
    | (with_reducible apply State.bt_calm)
    | split
    | dsimp only)

theorem State.fwState_calm {b0 : State} (s : State) (x : Fin 2) (st : Nat) (h0 : Calm b0 s) : Calm b0 (s.fwState x st) := by
  unfold State.fwState
  repeat' (first
    | intro _
    | (with_reducible assumption)
    | (with_reducible apply State.fwSlot_calm)
    | (with_reducible apply State.nvPulse_calm)
    | split
    | dsimp only)

theorem State.clrCnt_calm {b0 : State} (s : State) (f : Fld) (h0 : Calm b0 s) : Calm b0 (s.clrCnt f) := by
  unfold State.clrCnt
  repeat' (first
    | intro _
    | (with_reducible assumption)
    | (with_reducible apply State.put_calm)
    | split
    | (with_reducible refine Calm.upd ?_ rfl)
    | (with_reducible refine Calm.updSafe ?_)
    | dsimp only)

theorem State.fbClr_calm {b0 : State} (s : State) (h0 : Calm b0 s) : Calm b0 (s.fbClr) := by
  unfold State.fbClr
  repeat' (first
    | intro _
    | (with_reducible assumption)
    | (with_reducible apply State.clrCnt_calm)
    | split
    | dsimp only)

theorem State.mwClr_calm {b0 : State} (s : State) (h0 : Calm b0 s) : Calm b0 (s.mwClr) := by
  unfold State.mwClr
  repeat' (first
    | intro _
    | (with_reducible assumption)
    | (with_reducible apply State.clrCnt_calm)
    | split
    | dsimp only)

theorem State.sealEnd_calm {b0 : State} (s : State) (q : SealReq) (slot : Nat) (res : Nat) (old : List Nat) (h0 : Calm b0 s) : Calm b0 (s.sealEnd q slot res old) := by
  unfold State.sealEnd
  repeat' (first
    | (with_reducible assumption)
    | (with_reducible apply State.fbAddFrom_calm)
    | (with_reducible apply State.pulse_calm)
    | (with_reducible apply State.put_calm)
    | intro _
    | split)

theorem State.sealGo_calm {b0 : State} (s : State) (src : Nat) (hseq : Nat) (h0 : Calm b0 s) : Calm b0 (s.sealGo src hseq) := by
  unfold State.sealGo
  repeat' (first
    | intro _
    | (with_reducible assumption)
    | (with_reducible apply Calm.ite)
    | (with_reducible apply State.put_calm)
    | (with_reducible apply State.sealEnd_calm)
    | (with_reducible apply State.su_calm)
    | split
    | dsimp only)

theorem State.updResult_calm {b0 : State} (s : State) (op : Nat) (res : Nat) (h0 : Calm b0 s) : Calm b0 (s.updResult op res) := by
  unfold State.updResult
  repeat' (first
    | (with_reducible assumption)
    | (with_reducible apply State.pulse_calm)
    | (with_reducible apply State.put_calm)
    | intro _
    | split)

theorem State.slotStat_calm {b0 : State} (s : State) (h0 : Calm b0 s) : Calm b0 (s.slotStat) := by
  unfold State.slotStat
  repeat' (first
    | (with_reducible assumption)
    | (with_reducible apply Calm.ite)
    | (with_reducible apply State.put_calm)
    | (with_reducible apply State.putB_calm)
    | (with_reducible apply State.putBit_calm)
    | (with_reducible apply Calm.forFin)
    | intro _
    | split)

theorem State.updStart_calm {b0 : State} (s : State) (u : UpdSt) (res : Nat) (h0 : Calm b0 s) : Calm b0 (s.updStart u res) := by
  unfold State.updStart
  repeat' (first
    | (with_reducible assumption)
    | (with_reducible apply State.put_calm)
    | (with_reducible apply State.su_calm)
    | intro _
    | split)

theorem State.updGo_calm {b0 : State} (s : State) (src : Nat) (hseq : Nat) (key : Bool) (h0 : Calm b0 s) : Calm b0 (s.updGo src hseq key) := by
  unfold State.updGo
  repeat' (first
    | (with_reducible assumption)
    | (with_reducible apply Calm.ite)
    | (with_reducible apply State.fwSlot_calm)
    | (with_reducible apply State.put_calm)
    | (with_reducible apply State.putB_calm)
    | (with_reducible apply State.slotStat_calm)
    | (with_reducible apply State.su_calm)
    | (with_reducible apply State.updResult_calm)
    | (with_reducible apply State.updStart_calm)
    | intro _
    | split)

theorem State.idStart_calm {b0 : State} (s : State) (n : Fin 8) (h0 : Calm b0 s) : Calm b0 (s.idStart n) := by
  unfold State.idStart
  repeat' (first
    | (with_reducible assumption)
    | (with_reducible apply State.mon_calm)
    | intro _
    | split)

theorem State.idRescan_calm {b0 : State} (s : State) (mask : Nat) (h0 : Calm b0 s) : Calm b0 (s.idRescan mask) := by
  unfold State.idRescan
  repeat' (first
    | (with_reducible assumption)
    | (with_reducible apply Calm.ite)
    | (with_reducible apply State.idStart_calm)
    | (with_reducible apply State.mon_calm)
    | (with_reducible apply Calm.forFin)
    | intro _
    | split)

theorem State.idCntClr_calm {b0 : State} (s : State) (h0 : Calm b0 s) : Calm b0 (s.idCntClr) := by
  unfold State.idCntClr
  repeat' (first
    | intro _
    | (with_reducible assumption)
    | (with_reducible apply State.clrCnt_calm)
    | (with_reducible apply Calm.forFin)
    | split
    | dsimp only)

theorem State.mgAct_calm {b0 : State} (s : State) (q : IndWrite) (h0 : Calm b0 s) : Calm b0 (s.mgAct q) := by
  unfold State.mgAct
  repeat' (first
    | (with_reducible assumption)
    | (with_reducible apply Calm.ite)
    | (with_reducible apply State.fbClr_calm)
    | (with_reducible apply State.fclkSet_calm)
    | (with_reducible apply State.idCntClr_calm)
    | (with_reducible apply State.idRescan_calm)
    | (with_reducible apply State.mwClr_calm)
    | (with_reducible apply State.sealGo_calm)
    | (with_reducible apply State.updGo_calm)
    | intro _
    | split)

theorem State.applyProgCfg_calm {b0 : State} (s : State) (x : Sect) (h0 : Calm b0 s) : Calm b0 (s.applyProgCfg x) := by
  unfold State.applyProgCfg
  repeat' (first
    | (with_reducible assumption)
    | (with_reducible apply State.ctx_calm)
    | intro _
    | split)

theorem State.tripCapture_calm {b0 : State} (s : State) (t : Fin 4) (h0 : Calm b0 s) : Calm b0 (s.tripCapture t) := by
  unfold State.tripCapture
  repeat' (first
    | (with_reducible assumption)
    | (with_reducible apply State.inc_calm)
    | (with_reducible apply State.put_calm)
    | (with_reducible apply Calm.foldl)
    | intro _
    | split)

theorem State.maxPut_calm {b0 : State} (s : State) (f : Fld) (v : Nat) (h0 : Calm b0 s) : Calm b0 (s.maxPut f v) := by
  unfold State.maxPut
  repeat' (first
    | (with_reducible assumption)
    | (with_reducible apply State.put_calm)
    | intro _
    | split)

theorem State.maxPut_kept {b0 : State} (s : State) (f : Fld) (v : Nat) (h0 : Kept b0 s) : Kept b0 (s.maxPut f v) :=
  h0.calm (State.maxPut_calm _ _ _ (Calm.refl _))

theorem State.closureCount_calm {b0 : State} (s : State) (n : Fin 8) (h0 : Calm b0 s) : Calm b0 (s.closureCount n) := by
  unfold State.closureCount
  repeat' (first
    | (with_reducible assumption)
    | (with_reducible apply Calm.ite)
    | (with_reducible apply State.ax_calm)
    | (with_reducible apply State.maxPut_calm)
    | (with_reducible apply State.putB_calm)
    | (with_reducible apply State.putI_calm)
    | intro _
    | split)

theorem State.closureRun_calm {b0 : State} (s : State) (n : Fin 8) (h0 : Calm b0 s) : Calm b0 (s.closureRun n) := by
  unfold State.closureRun
  repeat' (first
    | (with_reducible assumption)
    | (with_reducible apply Calm.ite)
    | (with_reducible apply State.ax_calm)
    | (with_reducible apply State.closureCount_calm)
    | intro _
    | split)

theorem State.imgTorn_calm {b0 : State} (s : State) (h0 : Calm b0 s) : Calm b0 (s.imgTorn) := by
  unfold State.imgTorn
  repeat' (first
    | (with_reducible assumption)
    | (with_reducible apply Calm.ite)
    | (with_reducible apply State.flashErase_calm)
    | (with_reducible apply State.useFree_calm)
    | intro _
    | split)

theorem State.setFail_calm {b0 : State} (s : State) (k : Nat) (h0 : Calm b0 s) : Calm b0 (s.setFail k) := by
  unfold State.setFail
  repeat' (first
    | exact fun h => h
    | exact fun _ h => h
    | intro _
    | (with_reducible assumption)
    | (with_reducible apply State.nv_calm)
    | (with_reducible apply State.nvPulse_calm)
    | (with_reducible apply State.put_calm)
    | split
    | dsimp only)

theorem State.setFail_kept {b0 : State} (s : State) (k : Nat) (h0 : Kept b0 s) : Kept b0 (s.setFail k) :=
  h0.calm (State.setFail_calm _ _ (Calm.refl _))

theorem State.updActivate_calm {b0 : State} (s : State) (h0 : Calm b0 s) : Calm b0 (s.updActivate) := by
  unfold State.updActivate
  repeat' (first
    | exact fun h => h
    | exact fun _ h => h
    | (with_reducible assumption)
    | (with_reducible apply Calm.ite)
    | (with_reducible apply State.fwSlot_calm)
    | (with_reducible apply State.nv_calm)
    | (with_reducible apply State.put_calm)
    | (with_reducible apply State.setFail_calm)
    | (with_reducible apply State.updPut_calm)
    | intro _
    | split)

theorem State.updEffect_calm {b0 : State} (s : State) (u : UpdSt) (h0 : Calm b0 s) : Calm b0 (s.updEffect u) := by
  unfold State.updEffect
  split
  · refine State.put_calm _ _ _ ?_
    split
    · exact State.flashErase_calm _ _ _ h0
    · exact h0
  · refine Calm.ite (State.put_calm _ _ _ (Calm.ite ?_ ?_)) h0
    · exact State.updPut_calm _ _ _ (State.su_calm _ _ h0)
    · exact State.updPut_calm _ _ _ h0
  · exact State.put_calm _ _ _ h0
  · exact State.updActivate_calm _ h0
  · exact State.su_calm _ _ (State.put_calm _ _ _ h0)
  · exact Calm.flash h0 (putBytes_wf _ _ _)
  · exact h0

theorem State.updCut_calm {b0 : State} (s : State) (h0 : Calm b0 s) : Calm b0 (s.updCut) := by
  unfold State.updCut
  repeat' (first
    | (with_reducible assumption)
    | (with_reducible apply Calm.ite)
    | (with_reducible apply State.imgTorn_calm)
    | (with_reducible apply State.put_calm)
    | (with_reducible apply State.su_calm)
    | (with_reducible apply State.updEffect_calm)
    | (with_reducible apply State.useFree_calm)
    | intro _
    | split)

theorem State.sealCut_calm {b0 : State} (s : State) (h0 : Calm b0 s) : Calm b0 (s.sealCut) := by
  unfold State.sealCut
  repeat' (first
    | intro _
    | (with_reducible assumption)
    | split
    | (with_reducible refine Calm.upd ?_ rfl)
    | (with_reducible refine Calm.updSafe ?_)
    | dsimp only)

theorem State.fbStore_calm {b0 : State} (s : State) (r : FbRec) (h0 : Calm b0 s) : Calm b0 (s.fbStore r) := by
  unfold State.fbStore
  have h1 : Calm b0 (if (s.nvm.fbNext - 1) % 128 = 0 then s.fbErase s.nvm.fbNext else s) :=
    Calm.ite (State.fbErase_calm _ _ h0) h0
  have h2 := State.put_calm _ MG_FB_HEAD_HEAD s.nvm.fbNext (State.nv_calm _
    (fun m => { m.fbPut (fbSlot s.nvm.fbNext) (r.words s.nvm.fbNext) with fbNext := s.nvm.fbNext + 1 })
    (fun m w => Nvm.fbPut_wf m _ _ w) h1)
  exact Calm.ite (State.put_calm _ _ _ h2) h2

theorem State.fbCut_calm {b0 : State} (s : State) (h0 : Calm b0 s) : Calm b0 (s.fbCut) := by
  unfold State.fbCut
  split
  · exact h0
  · have hf := State.useFree_calm s h0
    refine Calm.ite hf (Calm.ite (State.fbStore_calm _ _ hf) ?_)
    exact State.nv_calm _ _ (fun m w => Nvm.fbPut_wf m _ _ w) (Calm.ite (State.fbErase_calm _ _ hf) hf)

theorem State.surveyorCut_calm {b0 : State} (s : State) (h0 : Calm b0 s) : Calm b0 (s.surveyorCut) := by
  unfold State.surveyorCut
  repeat' (first
    | (with_reducible assumption)
    | (with_reducible apply Calm.ite)
    | (with_reducible apply State.fbCut_calm)
    | (with_reducible apply State.put_calm)
    | (with_reducible apply State.sealCut_calm)
    | (with_reducible apply State.su_calm)
    | (with_reducible apply State.updCut_calm)
    | intro _
    | split)

theorem State.surveyorCut_kept {b0 : State} (s : State) (h0 : Kept b0 s) : Kept b0 (s.surveyorCut) :=
  h0.calm (State.surveyorCut_calm _ (Calm.refl _))

theorem State.vbakRead_calm {b0 : State} (s : State) (mv : Nat) (h0 : Calm b0 s) : Calm b0 (s.vbakRead mv) := by
  unfold State.vbakRead
  repeat' (first
    | (with_reducible assumption)
    | (with_reducible apply Calm.ite)
    | (with_reducible apply State.pulse_calm)
    | (with_reducible apply State.put_calm)
    | (with_reducible apply State.pw_calm)
    | intro _
    | split)

theorem State.updFail_calm {b0 : State} (s : State) (u : UpdSt) (h0 : Calm b0 s) : Calm b0 (s.updFail u) := by
  unfold State.updFail
  repeat' (first
    | (with_reducible assumption)
    | (with_reducible apply Calm.ite)
    | (with_reducible apply State.imgTorn_calm)
    | (with_reducible apply State.inc_calm)
    | intro _
    | split)

theorem State.mwStat_calm {b0 : State} (s : State) (h0 : Calm b0 s) : Calm b0 (s.mwStat) := by
  unfold State.mwStat
  repeat' (first
    | (with_reducible assumption)
    | (with_reducible apply State.put_calm)
    | (with_reducible apply State.putB_calm)
    | intro _
    | split)

theorem State.lnk_calm {b0 : State} (s : State) (l : Link) (f : LinkSt → LinkSt) (h0 : Calm b0 s) : Calm b0 (s.lnk l f) := by
  unfold State.lnk
  repeat' (first
    | (with_reducible assumption)
    | (with_reducible refine Calm.upd ?_ rfl)
    | (with_reducible refine Calm.updSafe ?_)
    | intro _
    | split)

theorem State.lnk_kept {b0 : State} (s : State) (l : Link) (f : LinkSt → LinkSt) (h0 : Kept b0 s) : Kept b0 (s.lnk l f) :=
  h0.calm (State.lnk_calm _ _ _ (Calm.refl _))

theorem State.frameUndo_calm {b0 : State} (s : State) (h0 : Calm b0 s) : Calm b0 (s.frameUndo) := by
  unfold State.frameUndo
  repeat' (first
    | intro _
    | (with_reducible assumption)
    | (with_reducible apply Calm.ite)
    | (with_reducible apply State.lnk_calm)
    | (with_reducible apply State.put_calm)
    | split
    | dsimp only)

theorem State.frameUndo_kept {b0 : State} (s : State) (h0 : Kept b0 s) : Kept b0 (s.frameUndo) :=
  h0.calm (State.frameUndo_calm _ (Calm.refl _))

theorem State.applyRegs_calm {b0 : State} (s : State) (t : Nat) (h0 : Calm b0 s) : Calm b0 (s.applyRegs t) := by
  unfold State.applyRegs
  repeat' (first
    | (with_reducible assumption)
    | (with_reducible apply State.applyEntry_calm)
    | (with_reducible apply Calm.foldl)
    | intro _
    | split)

theorem State.hom_calm {b0 : State} (s : State) (n : Fin 8) (f : HomeSt → HomeSt) (h0 : Calm b0 s) : Calm b0 (s.hom n f) := by
  unfold State.hom
  repeat' (first
    | (with_reducible assumption)
    | (with_reducible apply State.ax_calm)
    | intro _
    | split)

theorem State.stood_calm {b0 : State} (s : State) (n : Fin 8) (d : Nat) (h0 : Calm b0 s) : Calm b0 (s.stood n d) := by
  unfold State.stood
  repeat' (first
    | (with_reducible assumption)
    | (with_reducible apply State.ax_calm)
    | (with_reducible apply State.markEnd_calm)
    | (with_reducible apply State.standHold_calm)
    | intro _
    | split)

theorem State.stakeDone_calm {b0 : State} (s : State) (n : Fin 8) (f : Prof) (h0 : Calm b0 s) : Calm b0 (s.stakeDone n f) := by
  unfold State.stakeDone
  repeat' (first
    | (with_reducible assumption)
    | (with_reducible apply Calm.ite)
    | (with_reducible apply State.ax_calm)
    | (with_reducible apply State.markEnd_calm)
    | intro _
    | split)

theorem State.profEnd_calm {b0 : State} (s : State) (n : Fin 8) (f : Prof) (h0 : Calm b0 s) : Calm b0 (s.profEnd n f) := by
  unfold State.profEnd
  repeat' (first
    | (with_reducible assumption)
    | (with_reducible apply Calm.ite)
    | (with_reducible apply State.ax_calm)
    | (with_reducible apply State.cause_calm)
    | (with_reducible apply State.put_calm)
    | (with_reducible apply State.stakeDone_calm)
    | (with_reducible apply State.standHold_calm)
    | (with_reducible apply State.stood_calm)
    | intro _
    | split)

theorem State.profTick_calm {b0 : State} (s : State) (n : Fin 8) (h0 : Calm b0 s) : Calm b0 (s.profTick n) := by
  unfold State.profTick
  repeat' (first
    | intro _
    | (with_reducible assumption)
    | (with_reducible apply Calm.ite)
    | (with_reducible apply State.ax_calm)
    | (with_reducible apply State.place_calm)
    | (with_reducible apply State.planStat_calm)
    | (with_reducible apply State.profEnd_calm)
    | (with_reducible apply State.putB_calm)
    | (with_reducible apply State.stood_calm)
    | split
    | dsimp only)

theorem State.homeFail_calm {b0 : State} (s : State) (n : Fin 8) (cause : Nat) (h0 : Calm b0 s) : Calm b0 (s.homeFail n cause) := by
  unfold State.homeFail
  repeat' (first
    | (with_reducible assumption)
    | (with_reducible apply State.hom_calm)
    | (with_reducible apply State.put_calm)
    | (with_reducible apply State.stopAxis_calm)
    | intro _
    | split)

theorem State.homeTick_calm {b0 : State} (s : State) (n : Fin 8) (h0 : Calm b0 s) : Calm b0 (s.homeTick n) := by
  unfold State.homeTick
  repeat' (first
    | intro _
    | (with_reducible assumption)
    | (with_reducible apply Calm.ite)
    | (with_reducible apply State.hom_calm)
    | (with_reducible apply State.homeDone_calm)
    | (with_reducible apply State.homeFail_calm)
    | (with_reducible apply State.homeSeek_calm)
    | (with_reducible apply State.place_calm)
    | (with_reducible apply State.planStat_calm)
    | (with_reducible apply State.profTick_calm)
    | (with_reducible apply State.put_calm)
    | (with_reducible apply State.putB_calm)
    | split
    | dsimp only)

theorem State.grCheck_calm {b0 : State} (s : State) (p : Packet) (h0 : Calm b0 s) : Calm b0 (s.grCheck p).1 := by
  unfold State.grCheck
  refine Calm.fst_ite h0 ?_
  split
  · exact h0
  · exact State.inc_calm _ _ h0
  · refine Calm.fst_ite (State.inc_calm _ _ h0) (Calm.fst_ite (State.inc_calm _ _ h0) (Calm.fst_ite (State.inc_calm _ _ h0)
      (Calm.fst_ite h0 (State.earlier_calm _ _ (fun _ h => State.putB_calm _ _ _ h) h0))))

theorem State.levelSet_calm {b0 : State} (s : State) (e : Nat) (idx : Nat) (b : Bool) (detail : Nat) (h0 : Calm b0 s) : Calm b0 (s.levelSet e idx b detail) := by
  unfold State.levelSet
  repeat' (first
    | (with_reducible assumption)
    | (with_reducible apply Calm.ite)
    | (with_reducible apply State.levelOff_calm)
    | (with_reducible apply State.levelOn_calm)
    | intro _
    | split)

theorem State.evLostNote_calm {b0 : State} (s : State) (h0 : Calm b0 s) : Calm b0 (s.evLostNote) := by
  unfold State.evLostNote
  repeat' (first
    | intro _
    | (with_reducible assumption)
    | (with_reducible apply Calm.ite)
    | (with_reducible apply State.evMark_calm)
    | (with_reducible apply State.ring_calm)
    | split
    | (with_reducible refine Calm.upd ?_ rfl)
    | (with_reducible refine Calm.updSafe ?_)
    | dsimp only)

theorem State.evLostFlush_calm {b0 : State} (s : State) (h0 : Calm b0 s) : Calm b0 (s.evLostFlush) := by
  unfold State.evLostFlush State.evLostNote
  repeat' (first
    | (with_reducible assumption)
    | (with_reducible apply Calm.ite)
    | (with_reducible apply State.evMark_calm)
    | (with_reducible apply State.ring_calm)
    | (with_reducible refine Calm.upd ?_ rfl)
    | (with_reducible refine Calm.updSafe ?_)
    | intro _
    | split)

theorem State.postEvent_calm {b0 : State} (s : State) (r : EvRec) (h0 : Calm b0 s) : Calm b0 (s.postEvent r) := by
  unfold State.postEvent
  repeat' (first
    | (with_reducible assumption)
    | (with_reducible apply Calm.ite)
    | (with_reducible apply State.inc_calm)
    | (with_reducible apply State.ring_calm)
    | (with_reducible refine Calm.upd ?_ rfl)
    | (with_reducible refine Calm.updSafe ?_)
    | intro _
    | split)

theorem State.settle_calm {b0 : State} (s : State) (h0 : Calm b0 s) : Calm b0 (s.settle) := by
  unfold State.settle
  repeat' (first
    | (with_reducible assumption)
    | (with_reducible apply Calm.ite)
    | (with_reducible apply State.evLostFlush_calm)
    | (with_reducible apply State.levelSet_calm)
    | (with_reducible apply State.postEvent_calm)
    | (with_reducible apply Calm.foldl)
    | (with_reducible refine Calm.upd ?_ rfl)
    | (with_reducible refine Calm.updSafe ?_)
    | intro _
    | split)

theorem State.compose_calm {b0 : State} (s : State) (l : Link) (status : Nat) (echo : Nat) (data : Nat) (h0 : Calm b0 s) : Calm b0 (s.compose l status echo data) := by
  unfold State.compose
  repeat' (first
    | (with_reducible assumption)
    | (with_reducible apply State.lnk_calm)
    | (with_reducible apply State.settle_calm)
    | intro _
    | split)

theorem State.compose_kept {b0 : State} (s : State) (l : Link) (status : Nat) (echo : Nat) (data : Nat) (h0 : Kept b0 s) : Kept b0 (s.compose l status echo data) :=
  h0.calm (State.compose_calm _ _ _ _ _ (Calm.refl _))

theorem State.notice_calm {b0 : State} (s : State) (l : Link) (fcause : Nat) (alive : Nat) (hseq : Nat) (h0 : Calm b0 s) : Calm b0 (s.notice l fcause alive hseq) := by
  unfold State.notice
  repeat' (first
    | (with_reducible assumption)
    | (with_reducible apply State.compose_calm)
    | intro _
    | split)

theorem State.notice_kept {b0 : State} (s : State) (l : Link) (fcause : Nat) (alive : Nat) (hseq : Nat) (h0 : Kept b0 s) : Kept b0 (s.notice l fcause alive hseq) :=
  h0.calm (State.notice_calm _ _ _ _ _ (Calm.refl _))

theorem State.safeClear_calm {b0 : State} (s : State) (i : Nat) (h0 : Calm b0 s) : Calm b0 (s.safeClear i) := by
  unfold State.safeClear
  repeat' (first
    | (with_reducible assumption)
    | (with_reducible apply State.putBit_calm)
    | intro _
    | split)

theorem State.safeClear_kept {b0 : State} (s : State) (i : Nat) (h0 : Kept b0 s) : Kept b0 (s.safeClear i) :=
  h0.calm (State.safeClear_calm _ _ (Calm.refl _))

theorem State.hostAlive_calm {b0 : State} (s : State) (h0 : Calm b0 s) : Calm b0 (s.hostAlive) := by
  unfold State.hostAlive
  repeat' (first
    | (with_reducible assumption)
    | (with_reducible apply Calm.ite)
    | (with_reducible apply State.bt_calm)
    | (with_reducible apply State.put_calm)
    | (with_reducible apply State.safeClear_calm)
    | intro _
    | split)

theorem State.acceptWork_calm {b0 : State} (s : State) (l : Link) (alive : Nat) (hseq : Nat) (h0 : Calm b0 s) : Calm b0 (s.acceptWork l alive hseq) := by
  unfold State.acceptWork
  repeat' (first
    | intro _
    | (with_reducible assumption)
    | (with_reducible apply Calm.ite)
    | (with_reducible apply State.hostAlive_calm)
    | (with_reducible apply State.inc_calm)
    | (with_reducible apply State.lnk_calm)
    | split
    | dsimp only)

theorem State.acceptFrame_calm {b0 : State} (s : State) (l : Link) (alive hseq : Nat) (h0 : Calm b0 s) :
    Calm b0 (s.acceptFrame l alive hseq) :=
  State.earlier_calm _ _ (fun _ h => State.acceptWork_calm _ _ _ _ h) h0

theorem State.hostBegin_calm {b0 : State} (s : State) (h0 : Calm b0 s) : Calm b0 (s.hostBegin) := by
  unfold State.hostBegin
  exact Calm.ite (Calm.upd (Calm.regs h0 (hostOver_wf _ _)) rfl) (Calm.upd h0 rfl)

theorem State.hostBegin_kept {b0 : State} (s : State) (h0 : Kept b0 s) : Kept b0 (s.hostBegin) :=
  h0.calm (State.hostBegin_calm _ (Calm.refl _))

theorem State.prefetch_calm {b0 : State} (s : State) (l : Link) (h0 : Calm b0 s) : Calm b0 (s.prefetch l) := by
  unfold State.prefetch
  repeat' (first
    | (with_reducible assumption)
    | (with_reducible apply Calm.ite)
    | (with_reducible apply State.lnk_calm)
    | intro _
    | split)

theorem State.indRead_calm {b0 : State} (s : State) (l : Link) (h0 : Calm b0 s) : Calm b0 (s.indRead l).1 := by
  unfold State.indRead
  repeat' (first
    | (with_reducible assumption)
    | (with_reducible apply Calm.ite)
    | (with_reducible apply Calm.fst_ite)
    | (with_reducible apply State.inc_calm)
    | (with_reducible apply State.lnk_calm)
    | (with_reducible apply State.prefetch_calm)
    | intro _
    | split)

theorem State.peekAdvance_calm {b0 : State} (s : State) (l : Link) (q : Fin 5) (h0 : Calm b0 s) : Calm b0 (s.peekAdvance l q) := by
  unfold State.peekAdvance
  repeat' (first
    | (with_reducible assumption)
    | (with_reducible apply Calm.ite)
    | (with_reducible apply State.lnk_calm)
    | intro _
    | split)

theorem State.mbRead_calm {b0 : State} (s : State) (m : Fin 8) (k : Nat) (h0 : Calm b0 s) : Calm b0 (s.mbRead m k) := by
  unfold State.mbRead
  repeat' (first
    | intro _
    | (with_reducible assumption)
    | (with_reducible apply Calm.ite)
    | (with_reducible apply State.mbFill_calm)
    | (with_reducible apply State.put_calm)
    | split
    | (with_reducible refine Calm.upd ?_ rfl)
    | (with_reducible refine Calm.updSafe ?_)
    | dsimp only)

theorem State.hostRead_calm {b0 : State} (s : State) (l : Link) (a : Nat) (h0 : Calm b0 s) : Calm b0 (s.hostRead l a).1 := by
  unfold State.hostRead
  repeat' (first
    | (with_reducible assumption)
    | (with_reducible apply Calm.ite)
    | (with_reducible apply Calm.dite)
    | (with_reducible apply Calm.fst_ite)
    | (with_reducible apply State.indRead_calm)
    | (with_reducible apply State.mbRead_calm)
    | (with_reducible apply State.peekAdvance_calm)
    | intro _
    | split)

theorem State.hostRead_kept {b0 : State} (s : State) (l : Link) (a : Nat) (h0 : Kept b0 s) : Kept b0 (s.hostRead l a).1 :=
  h0.calm (State.hostRead_calm _ _ _ (Calm.refl _))

theorem State.indAddr_calm {b0 : State} (s : State) (l : Link) (w : Word) (h0 : Calm b0 s) : Calm b0 (s.indAddr l w) := by
  unfold State.indAddr
  repeat' (first
    | (with_reducible assumption)
    | (with_reducible apply State.lnk_calm)
    | (with_reducible apply State.prefetch_calm)
    | intro _
    | split)

theorem State.indAddr_kept {b0 : State} (s : State) (l : Link) (w : Word) (h0 : Kept b0 s) : Kept b0 (s.indAddr l w) :=
  h0.calm (State.indAddr_calm _ _ _ (Calm.refl _))

theorem State.keyRefused_calm {b0 : State} (s : State) (h0 : Calm b0 s) : Calm b0 (s.keyRefused) := by
  unfold State.keyRefused
  repeat' (first
    | (with_reducible assumption)
    | (with_reducible apply State.inc_calm)
    | intro _
    | split)

theorem State.keyRefused_kept {b0 : State} (s : State) (h0 : Kept b0 s) : Kept b0 (s.keyRefused) :=
  h0.calm (State.keyRefused_calm _ (Calm.refl _))

theorem State.indData_calm {b0 : State} (s : State) (l : Link) (w : Word) (key : Bool) (hseq : Nat) (h0 : Calm b0 s) : Calm b0 (s.indData l w key hseq).1 := by
  unfold State.indData
  repeat' (first
    | (with_reducible assumption)
    | (with_reducible apply Calm.ite)
    | (with_reducible apply Calm.fst_ite)
    | (with_reducible apply State.inc_calm)
    | (with_reducible apply State.keyRefused_calm)
    | (with_reducible apply State.lnk_calm)
    | (with_reducible apply State.prefetch_calm)
    | (with_reducible refine Calm.upd ?_ rfl)
    | (with_reducible refine Calm.updSafe ?_)
    | intro _
    | split)

theorem State.indData_kept {b0 : State} (s : State) (l : Link) (w : Word) (key : Bool) (hseq : Nat) (h0 : Kept b0 s) : Kept b0 (s.indData l w key hseq).1 :=
  h0.calm (State.indData_calm _ _ _ _ _ (Calm.refl _))

theorem State.sealStat_calm {b0 : State} (s : State) (h0 : Calm b0 s) : Calm b0 (s.sealStat) := by
  unfold State.sealStat
  repeat' (first
    | (with_reducible assumption)
    | (with_reducible apply Calm.ite)
    | (with_reducible apply State.put_calm)
    | (with_reducible apply State.putB_calm)
    | (with_reducible apply Calm.foldl)
    | intro _
    | split)

theorem State.surveyorBoot_calm {b0 : State} (s : State) (h0 : Calm b0 s) : Calm b0 (s.surveyorBoot) := by
  unfold State.surveyorBoot
  have h1 := State.mm_calm s .mgmt (fun _ => { EccSt.init with slotAt := s.now }) (fun _ _ => rfl) h0
  refine State.bt_calm _ _ (State.setWord_calm _ _ _ (State.sealStat_calm _ (State.slotStat_calm _ (State.su_calm _ _
    (State.putB_calm _ _ _ (Calm.foldl (fun x i h => State.put_calm _ _ _ h) ?_))))))
  exact State.put_calm _ _ _ (State.put_calm _ _ _ (State.put_calm _ _ _ (State.put_calm _ _ _ (State.put_calm _ _ _ h1))))

theorem State.surveyorBoot_kept {b0 : State} (s : State) (h0 : Kept b0 s) : Kept b0 (s.surveyorBoot) :=
  h0.calm (State.surveyorBoot_calm _ (Calm.refl _))

theorem State.flDown_kept {b0 : State} (s : State) (h0 : Kept b0 s) : Kept b0 (s.flDown) := by
  unfold State.flDown
  refine Kept.forFin (fun i x h => h.calm (State.bridgesOff_calm _ _ (Calm.refl _))) (Kept.upd ?_)
  refine h0.calm ?_
  exact State.mwStop_calm _ (State.v5Follow_calm _ (State.put_calm _ _ _ (State.pw_calm _ _ (Calm.refl s))))

theorem State.svCalDrop_calm {b0 : State} (s : State) (st : Fin 2) (h0 : Calm b0 s) : Calm b0 (s.svCalDrop st) := by
  unfold State.svCalDrop
  repeat' (first
    | (with_reducible assumption)
    | (with_reducible apply Calm.ite)
    | (with_reducible apply State.put_calm)
    | (with_reducible apply State.svu_calm)
    | intro _
    | split)

theorem State.svCalDrop_kept {b0 : State} (s : State) (st : Fin 2) (h0 : Kept b0 s) : Kept b0 (s.svCalDrop st) :=
  h0.calm (State.svCalDrop_calm _ _ (Calm.refl _))

theorem State.surveyStop_calm {b0 : State} (s : State) (h0 : Calm b0 s) : Calm b0 (s.surveyStop) := by
  unfold State.surveyStop
  repeat' (first
    | (with_reducible assumption)
    | (with_reducible apply State.put_calm)
    | (with_reducible apply State.svCalDrop_calm)
    | (with_reducible apply State.svu_calm)
    | (with_reducible apply Calm.forFin)
    | intro _
    | split)

theorem State.enterRecovery_kept {b0 : State} (s : State) (cause : Nat) (h0 : Kept b0 s) : Kept b0 (s.enterRecovery cause) := by
  unfold State.enterRecovery
  have h1 : Kept b0 s.surveyStop.flDown := State.flDown_kept _ (h0.calm (State.surveyStop_calm s (Calm.refl s)))
  generalize s.surveyStop.flDown = u at *
  have h2 : Kept b0 { u with
      dev := .recovery, cmds := [], backlog := [],
      stations := u.stations.map fun (x : Station) => { x with open_ := [], mv := none },
      ctxs := u.ctxs.map fun (c : Ctx) => { c with running := false, trk := [], wait := .none } } := Kept.upd h1
  refine h2.calm ?_
  exact State.fbAdd_calm _ _ _ (State.setWord_calm _ _ _ (State.put_calm _ _ _ (State.put_calm _ _ _ (State.put_calm _ _ _
    (State.v5Follow_calm _ (State.dumpOff_calm _ (State.levelOff_calm _ _ _ _ (State.put_calm _ _ _ (State.bt_calm _ _ (Calm.refl _))))))))))

theorem State.enterBoot_kept {b0 : State} (s : State) (h0 : Kept b0 s) : Kept b0 (s.enterBoot) := by
  unfold State.enterBoot
  repeat' (first
    | intro _
    | (with_reducible assumption)
    | (with_reducible apply Kept.ite)
    | (with_reducible apply State.bt_kept)
    | (with_reducible apply State.enterRecovery_kept)
    | (with_reducible apply State.fbAdd_kept)
    | (with_reducible apply State.put_kept)
    | (with_reducible apply State.putB_kept)
    | (with_reducible apply State.setFail_kept)
    | (with_reducible apply State.surveyorBoot_kept)
    | split
    | (with_reducible refine Kept.upd ?_)
    | dsimp only)

theorem State.bootRestart_kept {b0 : State} (s : State) (h0 : Kept b0 s) : Kept b0 (s.bootRestart) := by
  unfold State.bootRestart
  repeat' (first
    | (with_reducible assumption)
    | (with_reducible apply Kept.ite)
    | (with_reducible apply State.bt_kept)
    | (with_reducible apply State.enterBoot_kept)
    | intro _
    | split)

theorem State.safeExit_kept {b0 : State} (s : State) (h0 : Kept b0 s) : Kept b0 (s.safeExit) := by
  unfold State.safeExit
  repeat' (first
    | (with_reducible assumption)
    | (with_reducible apply Kept.ite)
    | (with_reducible apply State.bt_kept)
    | (with_reducible apply State.inc_kept)
    | (with_reducible apply State.levelOff_kept)
    | (with_reducible apply State.v5Follow_kept)
    | (with_reducible refine Kept.upd ?_)
    | intro _
    | split)

theorem State.bootCtl_kept {b0 : State} (s : State) (w : Nat) (h0 : Kept b0 s) : Kept b0 (s.bootCtl w) := by
  unfold State.bootCtl
  repeat' (first
    | (with_reducible assumption)
    | (with_reducible apply Kept.ite)
    | (with_reducible apply State.bootRestart_kept)
    | (with_reducible apply State.safeExit_kept)
    | (with_reducible apply State.setFail_kept)
    | intro _
    | split)

theorem State.takeBack_calm {b0 : State} (s : State) (c : Cmd) (h0 : Calm b0 s) : Calm b0 (s.takeBack c) := by
  unfold State.takeBack
  repeat' (first
    | intro _
    | (with_reducible assumption)
    | (with_reducible apply Calm.ite)
    | (with_reducible apply State.dropCmd_calm)
    | (with_reducible apply State.stn_calm)
    | split
    | dsimp only)

theorem State.progFails_calm {b0 : State} (s : State) (x : Fin 4) (k : Cmd) (h0 : Calm b0 s) : Calm b0 (s.progFails x k) := by
  unfold State.progFails
  repeat' (first
    | intro _
    | (with_reducible assumption)
    | (with_reducible apply Calm.ite)
    | (with_reducible apply State.ctx_calm)
    | (with_reducible apply State.ctxFail_calm)
    | (with_reducible apply State.ctxTo_calm)
    | (with_reducible apply State.stopCtx_calm)
    | split
    | dsimp only)

theorem State.recommit_calm {b0 : State} (s : State) (c : Cmd) (h0 : Calm b0 s) : Calm b0 (s.recommit c) := by
  unfold State.recommit
  repeat' (first
    | intro _
    | (with_reducible assumption)
    | (with_reducible apply Calm.ite)
    | (with_reducible apply State.commit_calm)
    | (with_reducible apply State.ctx_calm)
    | (with_reducible apply State.progFails_calm)
    | split
    | dsimp only)

theorem State.commitLink_calm {b0 : State} (s : State) (l : Link) (r : Nat) (h0 : Calm b0 s) : Calm b0 (s.commitLink l r) := by
  unfold State.commitLink
  repeat' (first
    | intro _
    | (with_reducible assumption)
    | (with_reducible apply State.commit_calm)
    | (with_reducible apply State.lnk_calm)
    | (with_reducible apply State.recommit_calm)
    | (with_reducible apply State.takeBack_calm)
    | (with_reducible apply Calm.foldl)
    | split
    | dsimp only)

theorem State.clrWord_calm {b0 : State} (s : State) (a : Nat) (h0 : Calm b0 s) : Calm b0 (s.clrWord a) := by
  unfold State.clrWord
  repeat' (first
    | intro _
    | (with_reducible assumption)
    | (with_reducible apply State.clrCnt_calm)
    | (with_reducible apply Calm.foldl)
    | split
    | dsimp only)

theorem State.ringRel_calm {b0 : State} (s : State) (q : Fin 5) (x : Nat) (h0 : Calm b0 s) : Calm b0 (s.ringRel q x) := by
  unfold State.ringRel
  repeat' (first
    | intro _
    | (with_reducible assumption)
    | (with_reducible apply Calm.ite)
    | (with_reducible apply State.inc_calm)
    | (with_reducible apply State.ring_calm)
    | split
    | (with_reducible refine Calm.upd ?_ rfl)
    | (with_reducible refine Calm.updSafe ?_)
    | dsimp only)

theorem State.ringWrite_calm {b0 : State} (s : State) (l : Link) (a : Nat) (w : Word) (h0 : Calm b0 s) : Calm b0 (s.ringWrite l a w) := by
  unfold State.ringWrite
  repeat' (first
    | intro _
    | (with_reducible assumption)
    | (with_reducible apply Calm.ite)
    | (with_reducible apply Calm.dite)
    | (with_reducible apply State.clrWord_calm)
    | (with_reducible apply State.commitLink_calm)
    | (with_reducible apply State.lnk_calm)
    | (with_reducible apply State.pulse_calm)
    | (with_reducible apply State.ringRel_calm)
    | (with_reducible apply State.writeFields_calm)
    | split
    | dsimp only)

theorem State.ringWrite_kept {b0 : State} (s : State) (l : Link) (a : Nat) (w : Word) (h0 : Kept b0 s) : Kept b0 (s.ringWrite l a w) :=
  h0.calm (State.ringWrite_calm _ _ _ _ (Calm.refl _))

theorem State.mbEmpty_calm {b0 : State} (s : State) (m : Fin 8) (h0 : Calm b0 s) : Calm b0 (s.mbEmpty m) := by
  unfold State.mbEmpty
  repeat' (first
    | (with_reducible assumption)
    | (with_reducible apply Calm.ite)
    | (with_reducible apply State.inc_calm)
    | (with_reducible apply State.mbWords_calm)
    | (with_reducible apply State.put_calm)
    | (with_reducible refine Calm.upd ?_ rfl)
    | (with_reducible refine Calm.updSafe ?_)
    | intro _
    | split)

theorem State.mbReq_calm {b0 : State} (s : State) (m : Fin 8) (w : Word) (h0 : Calm b0 s) : Calm b0 (s.mbReq m w) := by
  unfold State.mbReq
  repeat' (first
    | (with_reducible assumption)
    | (with_reducible apply Calm.ite)
    | (with_reducible apply State.mbDeliver_calm)
    | (with_reducible apply State.mbEmpty_calm)
    | (with_reducible apply State.put_calm)
    | (with_reducible apply State.writeFields_calm)
    | (with_reducible refine Calm.upd ?_ rfl)
    | (with_reducible refine Calm.updSafe ?_)
    | intro _
    | split)

theorem State.mbReq_kept {b0 : State} (s : State) (m : Fin 8) (w : Word) (h0 : Kept b0 s) : Kept b0 (s.mbReq m w) :=
  h0.calm (State.mbReq_calm _ _ _ (Calm.refl _))

theorem State.injectWord_calm {b0 : State} (s : State) (w : Nat) (h0 : Calm b0 s) : Calm b0 (s.injectWord w) := by
  unfold State.injectWord
  repeat' (first
    | (with_reducible assumption)
    | (with_reducible apply Calm.ite)
    | (with_reducible apply State.setBad_calm)
    | intro _
    | split)

theorem State.injWrite_calm {b0 : State} (s : State) (w : Word) (h0 : Calm b0 s) : Calm b0 (s.injWrite w) := by
  unfold State.injWrite
  repeat' (first
    | (with_reducible assumption)
    | (with_reducible apply Calm.ite)
    | (with_reducible apply State.injectWord_calm)
    | (with_reducible apply State.put_calm)
    | (with_reducible apply State.writeFields_calm)
    | intro _
    | split)

theorem State.injWrite_kept {b0 : State} (s : State) (w : Word) (h0 : Kept b0 s) : Kept b0 (s.injWrite w) :=
  h0.calm (State.injWrite_calm _ _ (Calm.refl _))

theorem State.progAgain_calm {b0 : State} (s : State) (a : Nat) (h0 : Calm b0 s) : Calm b0 (s.progAgain a) := by
  unfold State.progAgain
  repeat' (first
    | intro _
    | (with_reducible assumption)
    | (with_reducible apply Calm.ite)
    | (with_reducible apply State.progWrite_calm)
    | (with_reducible apply State.strobeGroup_calm)
    | (with_reducible apply Calm.foldl)
    | split
    | dsimp only)

theorem State.progAgain_kept {b0 : State} (s : State) (a : Nat) (h0 : Kept b0 s) : Kept b0 (s.progAgain a) :=
  h0.calm (State.progAgain_calm _ _ (Calm.refl _))

theorem State.tickClr_calm {b0 : State} (s : State) (mx : Bool) (total : Bool) (h0 : Calm b0 s) : Calm b0 (s.tickClr mx total) := by
  unfold State.tickClr
  repeat' (first
    | (with_reducible assumption)
    | (with_reducible apply Calm.ite)
    | (with_reducible apply State.put_calm)
    | (with_reducible apply Calm.foldl)
    | intro _
    | split)

theorem State.axisResets_calm {b0 : State} (s : State) (mask : Nat) (h0 : Calm b0 s) : Calm b0 (s.axisResets mask) := by
  unfold State.axisResets
  repeat' (first
    | (with_reducible assumption)
    | (with_reducible apply Calm.ite)
    | (with_reducible apply State.ax_calm)
    | (with_reducible apply State.putBit_calm)
    | (with_reducible apply Calm.foldl)
    | intro _
    | split)

theorem State.strobe_calm {b0 : State} (s : State) (w : Nat) (h0 : Calm b0 s) : Calm b0 (s.strobe w) := by
  unfold State.strobe
  repeat' (first
    | intro _
    | (with_reducible assumption)
    | (with_reducible apply Calm.ite)
    | (with_reducible apply State.strobeGroup_calm)
    | (with_reducible apply State.strobed_calm)
    | (with_reducible apply Calm.foldl)
    | split
    | dsimp only)

theorem State.memCntClr_calm {b0 : State} (s : State) (h0 : Calm b0 s) : Calm b0 (s.memCntClr) := by
  unfold State.memCntClr
  repeat' (first
    | intro _
    | (with_reducible assumption)
    | (with_reducible apply State.clrCnt_calm)
    | split
    | dsimp only)

theorem State.memFirstClr_calm {b0 : State} (s : State) (h0 : Calm b0 s) : Calm b0 (s.memFirstClr) := by
  unfold State.memFirstClr
  repeat' (first
    | intro _
    | (with_reducible assumption)
    | (with_reducible apply State.setWord_calm)
    | split
    | dsimp only)

theorem State.coilClr_calm {b0 : State} (s : State) (oc : Nat) (op : Nat) (h0 : Calm b0 s) : Calm b0 (s.coilClr oc op) := by
  unfold State.coilClr
  repeat' (first
    | intro _
    | (with_reducible assumption)
    | (with_reducible apply Calm.ite)
    | (with_reducible apply State.co_calm)
    | (with_reducible apply State.put_calm)
    | (with_reducible apply State.putBit_calm)
    | (with_reducible apply Calm.forFin)
    | split
    | dsimp only)

theorem State.tripClear_calm {b0 : State} (s : State) (mask : Nat) (h0 : Calm b0 s) : Calm b0 (s.tripClear mask) := by
  unfold State.tripClear
  repeat' (first
    | intro _
    | (with_reducible assumption)
    | (with_reducible apply Calm.ite)
    | (with_reducible apply State.inc_calm)
    | (with_reducible apply State.levelOff_calm)
    | (with_reducible apply State.putBit_calm)
    | (with_reducible apply State.setWord_calm)
    | (with_reducible apply State.tripCapture_calm)
    | (with_reducible apply Calm.forFin)
    | split
    | dsimp only)

theorem State.evstWrite_calm {b0 : State} (s : State) (m : Nat) (w : Nat) (h0 : Calm b0 s) : Calm b0 (s.evstWrite m w) := by
  unfold State.evstWrite
  repeat' (first
    | intro _
    | (with_reducible assumption)
    | (with_reducible apply Calm.ite)
    | (with_reducible apply State.clrCnt_calm)
    | (with_reducible apply State.evRaise_calm)
    | (with_reducible apply State.putBit_calm)
    | (with_reducible apply Calm.foldl)
    | split
    | dsimp only)

theorem State.kaAct_calm {b0 : State} (s : State) (l : Link) (a : Nat) (w : Nat) (pre : LinkSt) (h0 : Calm b0 s) : Calm b0 (s.kaAct l a w pre) := by
  unfold State.kaAct
  repeat' (first
    | intro _
    | (with_reducible assumption)
    | (with_reducible apply Calm.ite)
    | (with_reducible apply State.axisResets_calm)
    | (with_reducible apply State.clrCnt_calm)
    | (with_reducible apply State.clrWord_calm)
    | (with_reducible apply State.coilClr_calm)
    | (with_reducible apply State.evstWrite_calm)
    | (with_reducible apply State.memCntClr_calm)
    | (with_reducible apply State.memFirstClr_calm)
    | (with_reducible apply State.put_calm)
    | (with_reducible apply State.snap_calm)
    | (with_reducible apply State.strobe_calm)
    | (with_reducible apply State.tripClear_calm)
    | (with_reducible apply State.v5Follow_calm)
    | split
    | (with_reducible refine Calm.upd ?_ rfl)
    | (with_reducible refine Calm.updSafe ?_)
    | dsimp only)

theorem State.svTrigger_calm {b0 : State} (s : State) (st : Fin 2) (h0 : Calm b0 s) : Calm b0 (s.svTrigger st) := by
  unfold State.svTrigger
  repeat' (first
    | (with_reducible assumption)
    | (with_reducible apply Calm.ite)
    | (with_reducible apply State.inc_calm)
    | (with_reducible apply State.put_calm)
    | (with_reducible apply State.svWork_calm)
    | intro _
    | split)

theorem State.svSoft_calm {b0 : State} (s : State) (st : Fin 2) (h0 : Calm b0 s) : Calm b0 (s.svSoft st) := by
  unfold State.svSoft
  repeat' (first
    | (with_reducible assumption)
    | (with_reducible apply Calm.ite)
    | (with_reducible apply State.svTrigger_calm)
    | intro _
    | split)

theorem State.svHkResult_calm {b0 : State} (s : State) (st : Fin 2) (k : Nat) (sum : Nat) (h0 : Calm b0 s) : Calm b0 (s.svHkResult st k sum).1 := by
  unfold State.svHkResult
  repeat' (first
    | (with_reducible assumption)
    | (with_reducible apply Calm.fst_ite)
    | (with_reducible apply State.svu_calm)
    | intro _
    | split)

theorem State.svRecord_calm {b0 : State} (s : State) (st : Fin 2) (rec : Nat) (ovwr : Bool) (h0 : Calm b0 s) : Calm b0 (s.svRecord st rec ovwr) := by
  unfold State.svRecord
  repeat' (first
    | (with_reducible assumption)
    | (with_reducible apply Calm.ite)
    | (with_reducible apply State.inc_calm)
    | (with_reducible apply State.pulse_calm)
    | (with_reducible apply State.ring_calm)
    | (with_reducible apply State.svu_calm)
    | intro _
    | split)

theorem State.svHkEntry_calm {b0 : State} (s : State) (st : Fin 2) (r : ConvRun) (h0 : Calm b0 s) : Calm b0 (s.svHkEntry st r) := by
  unfold State.svHkEntry
  repeat' (first
    | (with_reducible assumption)
    | (with_reducible apply Calm.ite)
    | (with_reducible apply State.svHkResult_calm)
    | (with_reducible apply State.svRecord_calm)
    | intro _
    | split)

theorem State.xchkFail_calm {b0 : State} (s : State) (h0 : Calm b0 s) : Calm b0 (s.xchkFail) := by
  unfold State.xchkFail
  repeat' (first
    | (with_reducible assumption)
    | (with_reducible apply Calm.ite)
    | (with_reducible apply State.levelOn_calm)
    | (with_reducible apply State.put_calm)
    | (with_reducible apply State.putB_calm)
    | (with_reducible apply State.pw_calm)
    | (with_reducible apply State.safeCause_calm)
    | intro _
    | split)

theorem State.xchk_calm {b0 : State} (s : State) (st : Fin 2) (h0 : Calm b0 s) : Calm b0 (s.xchk st) := by
  unfold State.xchk
  repeat' (first
    | intro _
    | (with_reducible assumption)
    | (with_reducible apply Calm.ite)
    | (with_reducible apply State.inc_calm)
    | (with_reducible apply State.levelOff_calm)
    | (with_reducible apply State.put_calm)
    | (with_reducible apply State.putI_calm)
    | (with_reducible apply State.pw_calm)
    | (with_reducible apply State.safeClear_calm)
    | split
    | dsimp only)

theorem State.tempStat_calm {b0 : State} (s : State) (h0 : Calm b0 s) : Calm b0 (s.tempStat) := by
  unfold State.tempStat
  repeat' (first
    | (with_reducible assumption)
    | (with_reducible apply State.putB_calm)
    | intro _
    | split)

theorem State.stationFault_calm {b0 : State} (s : State) (st : Fin 2) (pwr : Nat) (h0 : Calm b0 s) : Calm b0 (s.stationFault st pwr) := by
  unfold State.stationFault
  repeat' (first
    | intro _
    | (with_reducible assumption)
    | (with_reducible apply State.axisFaultIf_calm)
    | (with_reducible apply State.gathered_calm)
    | (with_reducible apply Calm.foldl)
    | split
    | dsimp only)

theorem State.ctrlTrip_calm {b0 : State} (s : State) (h0 : Calm b0 s) : Calm b0 (s.ctrlTrip) := by
  unfold State.ctrlTrip
  repeat' (first
    | intro _
    | (with_reducible assumption)
    | (with_reducible apply Calm.ite)
    | (with_reducible apply State.ax_calm)
    | (with_reducible apply State.axisFault_calm)
    | (with_reducible apply State.gathered_calm)
    | (with_reducible apply State.safeCause_calm)
    | (with_reducible apply Calm.forFin)
    | split
    | dsimp only)

theorem State.tempCheck_calm {b0 : State} (s : State) (k : Fin 8) (t : Int) (h0 : Calm b0 s) : Calm b0 (s.tempCheck k t) := by
  unfold State.tempCheck
  repeat' (first
    | (with_reducible assumption)
    | (with_reducible apply Calm.ite)
    | (with_reducible apply State.ctrlTrip_calm)
    | (with_reducible apply State.levelOff_calm)
    | (with_reducible apply State.levelOn_calm)
    | (with_reducible apply State.pw_calm)
    | (with_reducible apply State.safeClear_calm)
    | (with_reducible apply State.stationFault_calm)
    | (with_reducible apply State.tempStat_calm)
    | intro _
    | split)

theorem State.publishTemps_calm {b0 : State} (s : State) (st : Fin 2) (ts : List Nat) (h0 : Calm b0 s) : Calm b0 (s.publishTemps st ts) := by
  unfold State.publishTemps
  repeat' (first
    | (with_reducible assumption)
    | (with_reducible apply Calm.ite)
    | (with_reducible apply State.put_calm)
    | (with_reducible apply State.putI_calm)
    | (with_reducible apply State.pw_calm)
    | (with_reducible apply State.tempCheck_calm)
    | (with_reducible apply Calm.forFin)
    | intro _
    | split)

theorem State.publishVm_calm {b0 : State} (s : State) (st : Fin 2) (mv : Nat) (h0 : Calm b0 s) : Calm b0 (s.publishVm st mv) := by
  unfold State.publishVm
  repeat' (first
    | (with_reducible assumption)
    | (with_reducible apply Calm.ite)
    | (with_reducible apply State.put_calm)
    | (with_reducible apply State.pw_calm)
    | intro _
    | split)

theorem State.svHkDone_calm {b0 : State} (s : State) (st : Fin 2) (h0 : Calm b0 s) : Calm b0 (s.svHkDone st) := by
  unfold State.svHkDone
  repeat' (first
    | intro _
    | (with_reducible assumption)
    | (with_reducible apply Calm.ite)
    | (with_reducible apply State.publishTemps_calm)
    | (with_reducible apply State.publishVm_calm)
    | (with_reducible apply State.put_calm)
    | (with_reducible apply State.svHkEntry_calm)
    | (with_reducible apply State.svNext_calm)
    | (with_reducible apply State.svRoundEnd_calm)
    | (with_reducible apply State.svu_calm)
    | (with_reducible apply State.xchk_calm)
    | (with_reducible apply State.xchkFail_calm)
    | split
    | dsimp only)

theorem State.svClose_calm {b0 : State} (s : State) (st : Fin 2) (h0 : Calm b0 s) : Calm b0 (s.svClose st) := by
  unfold State.svClose
  repeat' (first
    | (with_reducible assumption)
    | (with_reducible apply Calm.ite)
    | (with_reducible apply State.bdSample_calm)
    | (with_reducible apply State.put_calm)
    | (with_reducible apply State.putB_calm)
    | (with_reducible apply State.svHk_calm)
    | (with_reducible apply State.svHkEntry_calm)
    | (with_reducible apply State.svNext_calm)
    | (with_reducible apply State.svRecord_calm)
    | (with_reducible apply State.svRun_calm)
    | (with_reducible apply State.svu_calm)
    | intro _
    | split)

theorem State.svInjTrigger_calm {b0 : State} (s : State) (st : Fin 2) (h0 : Calm b0 s) : Calm b0 (s.svInjTrigger st) := by
  unfold State.svInjTrigger
  repeat' (first
    | (with_reducible assumption)
    | (with_reducible apply Calm.ite)
    | (with_reducible apply State.inc_calm)
    | (with_reducible apply State.put_calm)
    | (with_reducible apply State.svClose_calm)
    | (with_reducible apply State.svHkDone_calm)
    | (with_reducible apply State.svInj_calm)
    | (with_reducible apply State.svWork_calm)
    | (with_reducible apply State.svu_calm)
    | intro _
    | split)

theorem State.svSoftInj_calm {b0 : State} (s : State) (st : Fin 2) (h0 : Calm b0 s) : Calm b0 (s.svSoftInj st) := by
  unfold State.svSoftInj
  repeat' (first
    | (with_reducible assumption)
    | (with_reducible apply Calm.ite)
    | (with_reducible apply State.svInjTrigger_calm)
    | intro _
    | split)

theorem State.calRefuse_calm {b0 : State} (s : State) (st : Fin 2) (h0 : Calm b0 s) : Calm b0 (s.calRefuse st) := by
  unfold State.calRefuse
  repeat' (first
    | (with_reducible assumption)
    | (with_reducible apply State.put_calm)
    | intro _
    | split)

theorem State.calBegin_calm {b0 : State} (s : State) (st : Fin 2) (full : Bool) (h0 : Calm b0 s) : Calm b0 (s.calBegin st full) := by
  unfold State.calBegin
  repeat' (first
    | (with_reducible assumption)
    | (with_reducible apply State.put_calm)
    | (with_reducible apply State.svu_calm)
    | intro _
    | split)

theorem State.svCalZero_calm {b0 : State} (s : State) (st : Fin 2) (h0 : Calm b0 s) : Calm b0 (s.svCalZero st) := by
  unfold State.svCalZero
  repeat' (first
    | (with_reducible assumption)
    | (with_reducible apply Calm.ite)
    | (with_reducible apply State.calBegin_calm)
    | (with_reducible apply State.calRefuse_calm)
    | intro _
    | split)

theorem State.svCalFull_calm {b0 : State} (s : State) (st : Fin 2) (h0 : Calm b0 s) : Calm b0 (s.svCalFull st) := by
  unfold State.svCalFull
  repeat' (first
    | (with_reducible assumption)
    | (with_reducible apply Calm.ite)
    | (with_reducible apply State.calBegin_calm)
    | (with_reducible apply State.calRefuse_calm)
    | intro _
    | split)

theorem State.svCalStore_calm {b0 : State} (s : State) (st : Fin 2) (ok : Bool) (h0 : Calm b0 s) : Calm b0 (s.svCalStore st ok) := by
  unfold State.svCalStore
  refine Calm.ite (State.calRefuse_calm _ _ h0) (Calm.ite (State.put_calm _ _ _ h0) ?_)
  dsimp only
  split
  · exact h0
  · refine State.nvPulse_calm _ (State.svu_calm _ _ _ (State.put_calm _ _ _ (State.nv_calm _ _ (fun m w => ?_) h0)))
    simp only [Nvm.wf, Bool.and_eq_true] at w ⊢
    exact ⟨⟨w.1.1, kvWf_kvSet (fun _ => (0xFFFFFFFF : Word)) _ _ _ (kvWf_kvSet (fun _ => (0xFFFFFFFF : Word)) _ _ _ w.1.2)⟩, w.2⟩

theorem State.stAct_calm {b0 : State} (s : State) (st : Fin 2) (o : Nat) (w : Nat) (h0 : Calm b0 s) : Calm b0 (s.stAct st o w) := by
  unfold State.stAct
  repeat' (first
    | intro _
    | (with_reducible assumption)
    | (with_reducible apply Calm.ite)
    | (with_reducible apply State.clrCnt_calm)
    | (with_reducible apply State.clrWord_calm)
    | (with_reducible apply State.svCalFull_calm)
    | (with_reducible apply State.svCalStore_calm)
    | (with_reducible apply State.svCalZero_calm)
    | (with_reducible apply State.svSoft_calm)
    | (with_reducible apply State.svSoftInj_calm)
    | (with_reducible apply State.useFree_calm)
    | split
    | dsimp only)

theorem State.closMaxClr_calm {b0 : State} (s : State) (n : Fin 8) (h0 : Calm b0 s) : Calm b0 (s.closMaxClr n) := by
  unfold State.closMaxClr
  repeat' (first
    | (with_reducible assumption)
    | (with_reducible apply Calm.ite)
    | (with_reducible apply State.put_calm)
    | intro _
    | split)

theorem State.encClear_calm {b0 : State} (s : State) (n : Fin 8) (h0 : Calm b0 s) : Calm b0 (s.encClear n) := by
  unfold State.encClear
  repeat' (first
    | (with_reducible assumption)
    | (with_reducible apply State.dpt_calm)
    | (with_reducible apply State.put_calm)
    | intro _
    | split)

theorem State.dirRestart_calm {b0 : State} (s : State) (n : Fin 8) (h0 : Calm b0 s) : Calm b0 (s.dirRestart n) := by
  unfold State.dirRestart
  repeat' (first
    | (with_reducible assumption)
    | (with_reducible apply State.dpt_calm)
    | (with_reducible apply State.put_calm)
    | intro _
    | split)

theorem State.ssiError_calm {b0 : State} (s : State) (n : Fin 8) (h0 : Calm b0 s) : Calm b0 (s.ssiError n) := by
  unfold State.ssiError
  repeat' (first
    | (with_reducible assumption)
    | (with_reducible apply Calm.ite)
    | (with_reducible apply State.dpt_calm)
    | (with_reducible apply State.encFault_calm)
    | (with_reducible apply State.inc_calm)
    | intro _
    | split)

theorem State.ssiAsk_calm {b0 : State} (s : State) (n : Fin 8) (t0 : Nat) (high : Bool) (host : Bool) (h0 : Calm b0 s) : Calm b0 (s.ssiAsk n t0 high host) := by
  unfold State.ssiAsk
  repeat' (first
    | (with_reducible assumption)
    | (with_reducible apply Calm.ite)
    | (with_reducible apply State.dpt_calm)
    | (with_reducible apply State.inc_calm)
    | (with_reducible apply State.put_calm)
    | (with_reducible apply State.ssiError_calm)
    | intro _
    | split)

theorem State.dpCtl_calm {b0 : State} (s : State) (n : Fin 8) (w : Nat) (high : Bool) (h0 : Calm b0 s) : Calm b0 (s.dpCtl n w high) := by
  unfold State.dpCtl
  repeat' (first
    | intro _
    | (with_reducible assumption)
    | (with_reducible apply Calm.ite)
    | (with_reducible apply State.clrWord_calm)
    | (with_reducible apply State.dirRestart_calm)
    | (with_reducible apply State.encClear_calm)
    | (with_reducible apply State.ssiAsk_calm)
    | split
    | dsimp only)

theorem State.axAct_calm {b0 : State} (s : State) (n : Fin 8) (o : Nat) (w : Nat) (h0 : Calm b0 s) : Calm b0 (s.axAct n o w) := by
  unfold State.axAct
  repeat' (first
    | intro _
    | (with_reducible assumption)
    | (with_reducible apply Calm.ite)
    | (with_reducible apply State.ax_calm)
    | (with_reducible apply State.calAbort_calm)
    | (with_reducible apply State.closMaxClr_calm)
    | (with_reducible apply State.clrWord_calm)
    | (with_reducible apply State.dpCtl_calm)
    | (with_reducible apply State.useFree_calm)
    | split
    | dsimp only)

theorem State.regAct_calm {b0 : State} (s : State) (l : Link) (a : Nat) (w : Nat) (pre : LinkSt) (h0 : Calm b0 s) : Calm b0 (s.regAct l a w pre) := by
  unfold State.regAct
  repeat' (first
    | (with_reducible assumption)
    | (with_reducible apply Calm.ite)
    | (with_reducible apply State.axAct_calm)
    | (with_reducible apply State.kaAct_calm)
    | (with_reducible apply State.stAct_calm)
    | (with_reducible apply State.tickClr_calm)
    | intro _
    | split)

theorem State.regAct_kept {b0 : State} (s : State) (l : Link) (a : Nat) (w : Nat) (pre : LinkSt) (h0 : Kept b0 s) : Kept b0 (s.regAct l a w pre) :=
  h0.calm (State.regAct_calm _ _ _ _ _ (Calm.refl _))

theorem State.writeReg_kept {b0 : State} (s : State) (l : Link) (a : Nat) (w : Word) (key : Bool) (hseq : Nat) (pre : LinkSt) (h0 : Kept b0 s) : Kept b0 (s.writeReg l a w key hseq pre).1 := by
  unfold State.writeReg
  repeat' (first
    | intro _
    | (with_reducible assumption)
    | (with_reducible apply Kept.ite)
    | (with_reducible apply Kept.fst_ite)
    | (with_reducible apply State.bootCtl_kept)
    | (with_reducible apply State.hostStands_kept)
    | (with_reducible apply State.indAddr_kept)
    | (with_reducible apply State.indData_kept)
    | (with_reducible apply State.injWrite_kept)
    | (with_reducible apply State.keyRefused_kept)
    | (with_reducible apply State.mbReq_kept)
    | (with_reducible apply State.progAgain_kept)
    | (with_reducible apply State.regAct_kept)
    | (with_reducible apply State.ringWrite_kept)
    | (with_reducible apply State.spiCfgWrite_kept)
    | (with_reducible apply State.writeFields_kept)
    | split
    | dsimp only)

theorem State.hostWrite_kept {b0 : State} (s : State) (l : Link) (a : Nat) (w : Word) (hseq : Nat) (pre : LinkSt) (h0 : Kept b0 s) : Kept b0 (s.hostWrite l a w hseq pre).1 := by
  unfold State.hostWrite
  repeat' (first
    | (with_reducible assumption)
    | (with_reducible apply Kept.ite)
    | (with_reducible apply Kept.fst_ite)
    | (with_reducible apply State.lnk_kept)
    | (with_reducible apply State.writeReg_kept)
    | intro _
    | split)

theorem State.noteWrite_calm {b0 : State} (s : State) (l : Link) (h : HeldFrame) (h0 : Calm b0 s) : Calm b0 (s.noteWrite l h) := by
  unfold State.noteWrite
  repeat' (first
    | (with_reducible assumption)
    | (with_reducible apply Calm.ite)
    | (with_reducible apply State.lnk_calm)
    | intro _
    | split)

theorem State.noteWrite_kept {b0 : State} (s : State) (l : Link) (h : HeldFrame) (h0 : Kept b0 s) : Kept b0 (s.noteWrite l h) :=
  h0.calm (State.noteWrite_calm _ _ _ (Calm.refl _))

theorem State.performAccess_kept {b0 : State} (s : State) (l : Link) (h : HeldFrame) (pre : LinkSt) (h0 : Kept b0 s) : Kept b0 (s.performAccess l h pre).1 := by
  unfold State.performAccess
  repeat' (first
    | intro _
    | (with_reducible assumption)
    | (with_reducible apply Kept.ite)
    | (with_reducible apply Kept.fst_ite)
    | (with_reducible apply State.hostBegin_kept)
    | (with_reducible apply State.hostRead_kept)
    | (with_reducible apply State.hostWrite_kept)
    | (with_reducible apply State.noteWrite_kept)
    | split
    | dsimp only)

theorem State.performFrame_kept {b0 : State} (s : State) (l : Link) (h : HeldFrame) (pre : LinkSt) (h0 : Kept b0 s) : Kept b0 (s.performFrame l h pre) := by
  unfold State.performFrame
  repeat' (first
    | intro _
    | (with_reducible assumption)
    | (with_reducible apply State.compose_kept)
    | (with_reducible apply State.lnk_kept)
    | (with_reducible apply State.performAccess_kept)
    | split
    | (with_reducible refine Kept.upd ?_)
    | dsimp only)

theorem State.grFirst_calm {b0 : State} (s : State) (h0 : Calm b0 s) : Calm b0 (s.grFirst) := by
  unfold State.grFirst
  repeat' (first
    | (with_reducible assumption)
    | (with_reducible apply Calm.ite)
    | (with_reducible apply State.lnk_calm)
    | intro _
    | split)

theorem State.gre_calm {b0 : State} (s : State) (f : GrelasSt → GrelasSt) (h0 : Calm b0 s) : Calm b0 (s.gre f) := by
  unfold State.gre
  repeat' (first
    | (with_reducible assumption)
    | (with_reducible refine Calm.upd ?_ rfl)
    | (with_reducible refine Calm.updSafe ?_)
    | intro _
    | split)

theorem State.gre_kept {b0 : State} (s : State) (f : GrelasSt → GrelasSt) (h0 : Kept b0 s) : Kept b0 (s.gre f) :=
  h0.calm (State.gre_calm _ _ (Calm.refl _))

theorem State.grSlot_calm {b0 : State} (s : State) (h0 : Calm b0 s) : Calm b0 (s.grSlot) := by
  unfold State.grSlot
  repeat' (first
    | (with_reducible assumption)
    | (with_reducible apply State.grFirst_calm)
    | (with_reducible apply State.gre_calm)
    | intro _
    | split)

theorem State.grSlot_kept {b0 : State} (s : State) (h0 : Kept b0 s) : Kept b0 (s.grSlot) :=
  h0.calm (State.grSlot_calm _ (Calm.refl _))

theorem State.performHeld_kept {b0 : State} (s : State) (l : Link) (h0 : Kept b0 s) : Kept b0 (s.performHeld l) := by
  unfold State.performHeld
  repeat' (first
    | intro _
    | (with_reducible assumption)
    | (with_reducible apply State.grSlot_kept)
    | (with_reducible apply State.performFrame_kept)
    | split
    | dsimp only)

theorem State.turnOf_kept {b0 : State} (s : State) (l : Link) (h0 : Kept b0 s) : Kept b0 (s.turnOf l) := by
  unfold State.turnOf
  repeat' (first
    | intro _
    | (with_reducible assumption)
    | (with_reducible apply Kept.ite)
    | (with_reducible apply State.performHeld_kept)
    | split
    | dsimp only)

theorem State.takeFrame_kept {b0 : State} (s : State) (l : Link) (b : List Nat) (h0 : Kept b0 s) : Kept b0 (s.takeFrame l b) := by
  unfold State.takeFrame
  refine Kept.ite ?_ (Kept.ite ?_ ?_)
  · exact h0.calm (State.notice_calm _ _ _ _ _ (State.earlier_calm _ _ (fun _ h => State.lnk_calm _ _ _ (State.inc_calm _ _ h)) (Calm.refl s)))
  · exact h0.calm (State.notice_calm _ _ _ _ _ (State.earlier_calm _ _ (fun _ h => State.lnk_calm _ _ _ (State.inc_calm _ _ h)) (Calm.refl s)))
  · have h1 : Kept b0 (s.acceptFrame l (aliveOf b) (heldOf b).hseq) := h0.calm (State.acceptFrame_calm _ _ _ _ (Calm.refl s))
    refine Kept.ite ?_ (Kept.ite ?_ ?_)
    · exact h1.calm (State.compose_calm _ _ _ _ _ (Calm.refl _))
    · exact State.performFrame_kept _ _ _ _ (State.turnOf_kept _ _ h1)
    · exact h1.calm (State.lnk_calm _ _ _ (Calm.refl _))

theorem State.fbLost_calm {b0 : State} (s : State) (h0 : Calm b0 s) : Calm b0 (s.fbLost) := by
  unfold State.fbLost
  repeat' (first
    | (with_reducible assumption)
    | (with_reducible apply Calm.ite)
    | (with_reducible apply State.fbAdd_calm)
    | (with_reducible apply State.pulse_calm)
    | (with_reducible apply State.su_calm)
    | intro _
    | split)

theorem State.rowPulse_kept {b0 : State} (s : State) (lk : Link) (a : Nat) (mask : Nat) (h0 : Kept b0 s) : Kept b0 (s.rowPulse lk a mask) := by
  unfold State.rowPulse
  repeat' (first
    | intro _
    | (with_reducible assumption)
    | (with_reducible apply State.hostBegin_kept)
    | (with_reducible apply State.hostWrite_kept)
    | split
    | dsimp only)

theorem State.clampNote_calm {b0 : State} (s : State) (h0 : Calm b0 s) : Calm b0 (s.clampNote) := by
  unfold State.clampNote
  repeat' (first
    | intro _
    | (with_reducible assumption)
    | (with_reducible apply Calm.ite)
    | (with_reducible apply State.levelOn_calm)
    | (with_reducible apply Calm.forFin)
    | split
    | dsimp only)

theorem State.clampNote_kept {b0 : State} (s : State) (h0 : Kept b0 s) : Kept b0 (s.clampNote) :=
  h0.calm (State.clampNote_calm _ (Calm.refl _))

theorem State.fwTry_calm {b0 : State} (s : State) (l : List (Fin 2)) (h0 : Calm b0 s) : Calm b0 (s.fwTry l).1 := by
  induction l generalizing s with
  | nil => exact h0
  | cons x l ih =>
    unfold State.fwTry
    exact Calm.fst_ite h0 (ih _ (State.fwState_calm _ _ _ h0))

theorem State.flEngines_kept {b0 : State} (s : State) (h0 : Kept b0 s) : Kept b0 (s.flEngines) :=
  Kept.upd (h0.calm (Calm.store (Calm.refl s) (fun _ => rfl)))

theorem State.flAxes_calm {b0 : State} (s : State) (h0 : Calm b0 s) : Calm b0 (s.flAxes) := by
  unfold State.flAxes
  refine Calm.forFin (fun i x h => State.idStat_calm _ _ (State.put_calm _ _ _ (State.ax_calm _ _ _ h))) ?_
  exact Calm.upd (Calm.staged (State.resetRegs_calm _ _ h0) (kvWf_drop resetWord _ _)) rfl

theorem State.flReset_kept {b0 : State} (s : State) (h0 : Kept b0 s) : Kept b0 (s.flReset) := by
  unfold State.flReset
  have h1 : Kept b0 (s.flAxes.flEngines) := State.flEngines_kept _ (h0.calm (State.flAxes_calm s (Calm.refl s)))
  generalize s.flAxes.flEngines = u at *
  refine h1.calm (State.pw_calm _ _ (State.mwStop_calm _ (State.levelOff_calm _ _ _ _
    (State.safeClear_calm _ _ (State.safeClear_calm _ _ (State.bt_calm _ _ (State.put_calm _ _ _ ?_)))))))
  refine Calm.foldl (fun x i h => State.put_calm _ _ _ (State.put_calm _ _ _ h)) ?_
  exact State.mm_calm _ _ _ (fun _ _ => rfl) (Calm.refl u)

theorem State.flPower_kept {b0 : State} (s : State) (h0 : Kept b0 s) : Kept b0 (s.flPower) := by
  unfold State.flPower
  repeat' (first
    | (with_reducible assumption)
    | (with_reducible apply Kept.ite)
    | (with_reducible apply State.flReset_kept)
    | (with_reducible apply State.put_kept)
    | (with_reducible apply State.pw_kept)
    | (with_reducible apply State.v5Follow_kept)
    | intro _
    | split)

theorem State.capSet_calm {b0 : State} (s : State) (h0 : Calm b0 s) : Calm b0 (s.capSet) := by
  unfold State.capSet
  repeat' (first
    | intro _
    | (with_reducible assumption)
    | (with_reducible apply Calm.ite)
    | (with_reducible apply State.inc_calm)
    | (with_reducible apply State.ring_calm)
    | split
    | (with_reducible refine Calm.upd ?_ rfl)
    | (with_reducible refine Calm.updSafe ?_)
    | dsimp only)

theorem State.capSet_kept {b0 : State} (s : State) (h0 : Kept b0 s) : Kept b0 (s.capSet) :=
  h0.calm (State.capSet_calm _ (Calm.refl _))

theorem State.idMissed_calm {b0 : State} (s : State) (n : Fin 8) (h0 : Calm b0 s) : Calm b0 (s.idMissed n) := by
  unfold State.idMissed
  repeat' (first
    | (with_reducible assumption)
    | (with_reducible apply Calm.ite)
    | (with_reducible apply State.evMon_calm)
    | (with_reducible apply State.idStat_calm)
    | (with_reducible apply State.mon_calm)
    | (with_reducible apply State.putBit_calm)
    | intro _
    | split)

theorem State.idSeen_calm {b0 : State} (s : State) (n : Fin 8) (h0 : Calm b0 s) : Calm b0 (s.idSeen n) := by
  unfold State.idSeen
  repeat' (first
    | (with_reducible assumption)
    | (with_reducible apply Calm.ite)
    | (with_reducible apply State.evMon_calm)
    | (with_reducible apply State.mon_calm)
    | (with_reducible apply State.putBit_calm)
    | intro _
    | split)

theorem State.recordAccept_calm {b0 : State} (s : State) (n : Fin 8) (b : List Byte) (h0 : Calm b0 s) : Calm b0 (s.recordAccept n b) := by
  unfold State.recordAccept
  repeat' (first
    | (with_reducible assumption)
    | (with_reducible apply Calm.ite)
    | (with_reducible apply State.idStat_calm)
    | (with_reducible apply State.mon_calm)
    | (with_reducible apply State.recordForce_calm)
    | intro _
    | split)

theorem State.idResult_calm {b0 : State} (s : State) (n : Fin 8) (rd : IdRead) (repeats : Bool) (h0 : Calm b0 s) : Calm b0 (s.idResult n rd repeats) := by
  unfold State.idResult
  repeat' (first
    | (with_reducible assumption)
    | (with_reducible apply Calm.ite)
    | (with_reducible apply State.evMon_calm)
    | (with_reducible apply State.idMissed_calm)
    | (with_reducible apply State.idSeen_calm)
    | (with_reducible apply State.inc_calm)
    | (with_reducible apply State.mon_calm)
    | (with_reducible apply State.put_calm)
    | (with_reducible apply State.recordAccept_calm)
    | intro _
    | split)

theorem State.idConfigReads_calm {b0 : State} (s : State) (rd : Vector IdRead 8) (h0 : Calm b0 s) : Calm b0 (s.idConfigReads rd) := by
  unfold State.idConfigReads
  repeat' (first
    | (with_reducible assumption)
    | (with_reducible apply State.idResult_calm)
    | (with_reducible apply Calm.forFin)
    | intro _
    | split)

theorem State.homeQuiet_calm {b0 : State} (s : State) (n : Fin 8) (h0 : Calm b0 s) : Calm b0 (s.homeQuiet n) := by
  unfold State.homeQuiet
  repeat' (first
    | (with_reducible assumption)
    | (with_reducible apply Calm.ite)
    | (with_reducible apply State.hom_calm)
    | (with_reducible apply State.homeFail_calm)
    | intro _
    | split)

theorem State.rowWrite_kept {b0 : State} (s : State) (lk : Link) (a : Nat) (w : Nat) (h0 : Kept b0 s) : Kept b0 (s.rowWrite lk a w) := by
  unfold State.rowWrite
  repeat' (first
    | intro _
    | (with_reducible assumption)
    | (with_reducible apply State.hostBegin_kept)
    | (with_reducible apply State.hostWrite_kept)
    | split
    | dsimp only)

theorem State.issue_kept {b0 : State} (s : State) (lk : Link) (r : Nat) (op : Nat) (d : Desc) (h0 : Kept b0 s) : Kept b0 (s.issue lk r op d) := by
  unfold State.issue
  repeat' (first
    | intro _
    | (with_reducible assumption)
    | (with_reducible apply State.rowWrite_kept)
    | split
    | dsimp only)

theorem State.optionLoad_kept {b0 : State} (s : State) (h0 : Kept b0 s) : Kept b0 (s.optionLoad) := by
  unfold State.optionLoad
  repeat' (first
    | intro _
    | (with_reducible assumption)
    | (with_reducible apply State.bt_kept)
    | (with_reducible apply State.clampNote_kept)
    | split
    | (with_reducible refine Kept.upd ?_)
    | dsimp only)

theorem State.coreAxis_calm {b0 : State} (s : State) (n : Fin 8) (h0 : Calm b0 s) : Calm b0 (s.coreAxis n) := by
  unfold State.coreAxis
  repeat' (first
    | intro _
    | (with_reducible assumption)
    | (with_reducible apply Calm.ite)
    | (with_reducible apply State.ax_calm)
    | (with_reducible apply State.bdEnd_calm)
    | (with_reducible apply State.calEnd_calm)
    | (with_reducible apply State.followLeave_calm)
    | (with_reducible apply State.idchkEnd_calm)
    | (with_reducible apply State.ob_calm)
    | (with_reducible apply State.planIdle_calm)
    | (with_reducible apply State.putBit_calm)
    | split
    | dsimp only)

theorem State.coreAxis_kept {b0 : State} (s : State) (n : Fin 8) (h0 : Kept b0 s) : Kept b0 (s.coreAxis n) :=
  h0.calm (State.coreAxis_calm _ _ (Calm.refl _))

theorem State.dropStaged_calm {b0 : State} (s : State) (p : Nat → Bool) (gs : List (Fin 11)) (cs : List (Fin 16))
    (h0 : Calm b0 s) : Calm b0 (s.dropStaged p gs cs) := by
  unfold State.dropStaged
  refine Calm.foldl (fun x i h => State.put_calm _ _ _ (State.co_calm _ _ _ h)) ?_
  refine Calm.foldl (fun x i h => Calm.upd h rfl) ?_
  exact Calm.staged h0 fun w => kvWf_foldSet resetWord _ (fun e : Nat × Word => e.1) (fun e => e.2) _ (kvWf_drop resetWord _ _ w)

theorem State.coreLinks_calm {b0 : State} (s : State) (h0 : Calm b0 s) : Calm b0 (s.coreLinks) := by
  unfold State.coreLinks
  refine Calm.upd ?_ rfl
  exact Calm.window (State.put_calm _ _ _ (State.dropStaged_calm _ _ _ _ h0)) (fun _ => rfl)

theorem State.coreLinks_kept {b0 : State} (s : State) (h0 : Kept b0 s) : Kept b0 (s.coreLinks) :=
  h0.calm (State.coreLinks_calm _ (Calm.refl _))

theorem State.coreBoxes_calm {b0 : State} (s : State) (h0 : Calm b0 s) : Calm b0 (s.coreBoxes) := by
  unfold State.coreBoxes
  repeat' (first
    | intro _
    | (with_reducible assumption)
    | (with_reducible apply State.resetRegs_calm)
    | (with_reducible apply State.setWord_calm)
    | (with_reducible apply Calm.foldl)
    | split
    | (with_reducible refine Calm.upd ?_ rfl)
    | (with_reducible refine Calm.updSafe ?_)
    | dsimp only)

theorem State.coreBoxes_kept {b0 : State} (s : State) (h0 : Kept b0 s) : Kept b0 (s.coreBoxes) :=
  h0.calm (State.coreBoxes_calm _ (Calm.refl _))

theorem State.coreRings_calm {b0 : State} (s : State) (h0 : Calm b0 s) : Calm b0 (s.coreRings) := by
  unfold State.coreRings
  repeat' (first
    | intro _
    | (with_reducible assumption)
    | (with_reducible apply State.resetRegs_calm)
    | split
    | (with_reducible refine Calm.upd ?_ rfl)
    | (with_reducible refine Calm.updSafe ?_)
    | dsimp only)

theorem State.coreRings_kept {b0 : State} (s : State) (h0 : Kept b0 s) : Kept b0 (s.coreRings) :=
  h0.calm (State.coreRings_calm _ (Calm.refl _))

theorem State.lowTime_calm {b0 : State} (s : State) (c : Nat) (h0 : Calm b0 s) : Calm b0 (s.lowTime c) := by
  unfold State.lowTime
  repeat' (first
    | (with_reducible assumption)
    | (with_reducible apply State.inc_calm)
    | (with_reducible apply State.put_calm)
    | intro _
    | split)

theorem State.lowTime_kept {b0 : State} (s : State) (c : Nat) (h0 : Kept b0 s) : Kept b0 (s.lowTime c) :=
  h0.calm (State.lowTime_calm _ _ (Calm.refl _))

theorem State.coreReset_kept {b0 : State} (s : State) (count : Nat) (heldoff : Bool) (h0 : Kept b0 s) : Kept b0 (s.coreReset count heldoff) := by
  unfold State.coreReset
  repeat' (first
    | intro _
    | (with_reducible assumption)
    | (with_reducible apply State.addSat_kept)
    | (with_reducible apply State.bt_kept)
    | (with_reducible apply State.coreAxis_kept)
    | (with_reducible apply State.coreBoxes_kept)
    | (with_reducible apply State.coreLinks_kept)
    | (with_reducible apply State.coreRings_kept)
    | (with_reducible apply State.dumpOff_kept)
    | (with_reducible apply State.levelOff_kept)
    | (with_reducible apply State.lowTime_kept)
    | (with_reducible apply State.mon_kept)
    | (with_reducible apply State.mwStop_kept)
    | (with_reducible apply State.put_kept)
    | (with_reducible apply State.putB_kept)
    | (with_reducible apply State.safeClear_kept)
    | (with_reducible apply State.surveyorCut_kept)
    | (with_reducible apply State.svCalDrop_kept)
    | (with_reducible apply Kept.forFin)
    | split
    | (with_reducible refine Kept.upd ?_)
    | dsimp only)

theorem State.hardReset_kept {b0 : State} (s : State) (por : Bool) (hp : por = false) (h0 : Kept b0 s) :
    Kept b0 (s.hardReset por) := by
  subst hp
  unfold State.hardReset
  have h1 : Kept b0 s.surveyorCut := h0.calm (State.surveyorCut_calm s (Calm.refl s))
  generalize s.surveyorCut = u at *
  have hr : ∀ (e : Nat) (lv : List (Nat × Nat)) (pw : PowerSt), Kept b0 { State.reset with
      pending := u.pending, now := u.now, nvm := { u.nvm with epoch := e }, otp := u.otp, flash := u.flash, free := u.free,
      levels := lv, power := pw } := by
    intro e lv pw
    refine h1.trans ⟨rfl, rfl, fun w => ?_⟩
    rw [State.wf_iff] at w ⊢
    exact ⟨rfl, rfl, rfl, rfl, rfl, w.2.2.2.2.2.1, w.2.2.2.2.2.2.1, rfl, rfl⟩
  have hc : ∀ (t : State) (w : Word) (e : Nat) (f : SurvSt → SurvSt) (g : BootSt → BootSt), Kept b0 t →
      Kept b0 ((((t.su f).bt g).setWord 0x140 w).put LNK_GR_EPOCH_EPOCH e) := by
    intro t w e f g ht
    exact ht.calm (State.put_calm _ _ _ (State.setWord_calm _ _ _ (State.bt_calm _ _ (State.su_calm _ _ (Calm.refl t)))))
  have hd : ∀ (t : State) (w : Word) (v : Nat), Kept b0 t → Kept b0 ((t.setWord 0x11 w).put MG_FCLK_STAT_SYNC v).tempStat := by
    intro t w v ht
    exact ht.calm (State.tempStat_calm _ (State.put_calm _ _ _ (State.setWord_calm _ _ _ (Calm.refl t))))
  exact hd _ _ _ (hc _ _ _ _ _ (hr _ _ _))

theorem State.hardReset_por (s : State) :
    (s.hardReset true).pending = s.pending ∧ (s.hardReset true).now = 0 ∧ (s.wf = true → (s.hardReset true).wf = true) := by
  have h1 := State.surveyorCut_calm s (Calm.refl s)
  unfold State.hardReset
  refine ⟨h1.pending, rfl, fun w => ?_⟩
  have hr : ∀ (u : State) (e : Nat) (lv : List (Nat × Nat)) (pw : PowerSt), u.wf = true → State.wf { State.reset with
      pending := u.pending, now := 0, nvm := { u.nvm with epoch := e }, otp := u.otp, flash := u.flash, free := u.free,
      levels := lv, power := pw } = true := by
    intro u e lv pw w
    rw [State.wf_iff] at w ⊢
    exact ⟨rfl, rfl, rfl, rfl, rfl, w.2.2.2.2.2.1, w.2.2.2.2.2.2.1, rfl, rfl⟩
  have hc : ∀ (t : State) (w : Word) (e : Nat) (f : SurvSt → SurvSt) (g : BootSt → BootSt), t.wf = true →
      ((((t.su f).bt g).setWord 0x140 w).put LNK_GR_EPOCH_EPOCH e).wf = true := by
    intro t w e f g ht
    exact (State.put_calm _ _ _ (State.setWord_calm _ _ _ (State.bt_calm _ _ (State.su_calm _ _ (Calm.refl t))))).wf ht
  exact hc _ _ _ _ _ (hr _ _ _ _ (h1.wf w))

theorem State.sysReset_kept {b0 : State} (s : State) (promoted heldoff : Bool) (h0 : Kept b0 s) :
    Kept b0 (s.sysReset promoted heldoff) := by
  unfold State.sysReset
  refine (State.hardReset_kept s false rfl h0).calm ?_
  exact State.putB_calm _ _ _ (State.putB_calm _ _ _ (State.put_calm _ _ _ (State.bt_calm _ _ (Calm.refl _))))

theorem State.corePulse_kept {b0 : State} (s : State) (count : Nat) (heldoff : Bool) (h0 : Kept b0 s) : Kept b0 (s.corePulse count heldoff) := by
  unfold State.corePulse
  repeat' (first
    | (with_reducible assumption)
    | (with_reducible apply Kept.ite)
    | (with_reducible apply State.coreReset_kept)
    | (with_reducible apply State.sysReset_kept)
    | intro _
    | split)

theorem State.imageTook_calm {b0 : State} (s : State) (h0 : Calm b0 s) : Calm b0 (s.imageTook) := by
  unfold State.imageTook
  repeat' (first
    | (with_reducible assumption)
    | (with_reducible apply State.pinActs_calm)
    | (with_reducible apply State.put_calm)
    | (with_reducible apply Calm.forFin)
    | intro _
    | split)

theorem State.grAgain_calm {b0 : State} (s : State) (h0 : Calm b0 s) : Calm b0 (s.grAgain) := by
  unfold State.grAgain
  repeat' (first
    | (with_reducible assumption)
    | (with_reducible apply Calm.ite)
    | (with_reducible apply State.grSlot_calm)
    | (with_reducible apply State.gre_calm)
    | (with_reducible apply State.inc_calm)
    | intro _
    | split)

theorem State.lockout_calm {b0 : State} (s : State) (st : Fin 2) (pwr : Nat) (mv : Nat) (h0 : Calm b0 s) : Calm b0 (s.lockout st pwr mv) := by
  unfold State.lockout
  repeat' (first
    | (with_reducible assumption)
    | (with_reducible apply Calm.ite)
    | (with_reducible apply State.pulse_calm)
    | (with_reducible apply State.put_calm)
    | (with_reducible apply State.stationFault_calm)
    | intro _
    | split)

theorem State.endDecay_calm {b0 : State} (s : State) (c : Fin 16) (h0 : Calm b0 s) : Calm b0 (s.endDecay c) := by
  unfold State.endDecay
  repeat' (first
    | (with_reducible assumption)
    | (with_reducible apply State.co_calm)
    | intro _
    | split)

theorem State.mwResult_calm {b0 : State} (s : State) (l : Nat) (mv : Nat) (h0 : Calm b0 s) : Calm b0 (s.mwResult l mv) := by
  unfold State.mwResult
  repeat' (first
    | (with_reducible assumption)
    | (with_reducible apply Calm.ite)
    | (with_reducible apply State.mwRaise_calm)
    | (with_reducible apply State.mwStat_calm)
    | (with_reducible apply State.put_calm)
    | (with_reducible apply State.su_calm)
    | intro _
    | split)

theorem State.obsPublish_calm {b0 : State} (s : State) (n : Fin 8) (h0 : Calm b0 s) : Calm b0 (s.obsPublish n) := by
  unfold State.obsPublish
  repeat' (first
    | (with_reducible assumption)
    | (with_reducible apply State.addSat_calm)
    | (with_reducible apply State.ob_calm)
    | (with_reducible apply State.put_calm)
    | (with_reducible apply State.putB_calm)
    | (with_reducible apply State.putI_calm)
    | intro _
    | split)

theorem State.fallback_calm {b0 : State} (s : State) (image : Bool) (slot : Nat) (seq : Nat) (h0 : Calm b0 s) : Calm b0 (s.fallback image slot seq) := by
  unfold State.fallback
  repeat' (first
    | (with_reducible assumption)
    | (with_reducible apply State.fbAdd_calm)
    | intro _
    | split)

theorem State.imgTrialEnd_calm {b0 : State} (s : State) (h0 : Calm b0 s) : Calm b0 (s.imgTrialEnd) := by
  unfold State.imgTrialEnd
  split
  · refine Calm.ite ?_ h0
    exact State.fallback_calm _ _ _ _ (State.nv_calm _ _ (fun _ w => w) (Calm.flash h0 (putBytes_wf _ _ _)))
  · exact h0

theorem State.dpRun_calm {b0 : State} (s : State) (n : Fin 8) (neg : Bool) (h0 : Calm b0 s) : Calm b0 (s.dpRun n neg) := by
  unfold State.dpRun
  repeat' (first
    | (with_reducible assumption)
    | (with_reducible apply Calm.ite)
    | (with_reducible apply State.dpt_calm)
    | (with_reducible apply State.put_calm)
    | (with_reducible apply State.putB_calm)
    | intro _
    | split)

theorem State.grTick_calm {b0 : State} (s : State) (p : GrPacket) (h0 : Calm b0 s) : Calm b0 (s.grTick p) := by
  unfold State.grTick
  repeat' (first
    | intro _
    | (with_reducible assumption)
    | (with_reducible apply Calm.ite)
    | (with_reducible apply State.gre_calm)
    | (with_reducible apply State.inc_calm)
    | split
    | dsimp only)

theorem State.grRefuse_calm {b0 : State} (s : State) (b : List Nat) (h0 : Calm b0 s) : Calm b0 (s.grRefuse b) := by
  unfold State.grRefuse
  repeat' (first
    | (with_reducible assumption)
    | (with_reducible apply State.grSlot_calm)
    | (with_reducible apply State.inc_calm)
    | (with_reducible apply State.lnk_calm)
    | (with_reducible apply State.notice_calm)
    | intro _
    | split)

theorem State.grRefuse_kept {b0 : State} (s : State) (b : List Nat) (h0 : Kept b0 s) : Kept b0 (s.grRefuse b) :=
  h0.calm (State.grRefuse_calm _ _ (Calm.refl _))

theorem State.grTake_kept {b0 : State} (s : State) (l : List (List Nat)) (h0 : Kept b0 s) : Kept b0 (s.grTake l) := by
  induction l generalizing s with
  | nil => exact h0.calm (State.gre_calm _ _ (Calm.refl _))
  | cons b l ih =>
    unfold State.grTake
    have h1 := State.takeFrame_kept s .gr b h0
    refine Kept.ite ?_ ?_
    · exact h1.calm (State.gre_calm _ _ (Calm.refl _))
    · exact ih _ (h1.calm (State.grSlot_calm _ (Calm.refl _)))

theorem State.grPoll_kept {b0 : State} (s : State) (p : GrPacket) (h0 : Kept b0 s) : Kept b0 (s.grPoll p) := by
  unfold State.grPoll
  repeat' (first
    | intro _
    | (with_reducible assumption)
    | (with_reducible apply Kept.ite)
    | (with_reducible apply State.grRefuse_kept)
    | (with_reducible apply State.grTake_kept)
    | (with_reducible apply State.gre_kept)
    | (with_reducible apply State.inc_kept)
    | (with_reducible apply State.lnk_kept)
    | (with_reducible apply Kept.foldl)
    | split
    | dsimp only)

theorem State.grPacketIn_kept {b0 : State} (s : State) (p : Packet) (h0 : Kept b0 s) : Kept b0 (s.grPacketIn p) := by
  unfold State.grPacketIn
  have h1 := h0.calm (State.grCheck_calm s p (Calm.refl s))
  split
  · next u hu => rw [hu] at h1; exact h1
  · next u q hu =>
    rw [hu] at h1
    refine Kept.ite ?_ ?_
    · exact h1.calm (State.grTick_calm _ _ (Calm.refl _))
    · exact State.grPoll_kept _ _ h1

theorem State.putBoth_calm {b0 : State} (s : State) (f : Fld) (v : Nat) (h0 : Calm b0 s) : Calm b0 (s.putBoth f v) := by
  unfold State.putBoth
  repeat' (first
    | (with_reducible assumption)
    | (with_reducible apply State.put_calm)
    | (with_reducible apply State.putSt_calm)
    | intro _
    | split)

theorem State.applyDie_calm {b0 : State} (s : State) (x : Sect) (h0 : Calm b0 s) : Calm b0 (s.applyDie x) := by
  unfold State.applyDie
  repeat' (first
    | (with_reducible assumption)
    | (with_reducible apply State.putBoth_calm)
    | (with_reducible apply Calm.foldl)
    | intro _
    | split)

theorem State.flLoad_calm {b0 : State} (s : State) (h0 : Calm b0 s) : Calm b0 (s.flLoad) := by
  unfold State.flLoad
  repeat' (first
    | (with_reducible assumption)
    | (with_reducible apply State.applyDie_calm)
    | (with_reducible apply State.applyProgCfg_calm)
    | (with_reducible apply State.applyProgram_calm)
    | (with_reducible apply State.applyRegs_calm)
    | (with_reducible apply State.imageTook_calm)
    | (with_reducible apply State.svu_calm)
    | (with_reducible apply Calm.foldl)
    | (with_reducible apply Calm.forFin)
    | intro _
    | split)

theorem State.flLoad_kept {b0 : State} (s : State) (h0 : Kept b0 s) : Kept b0 (s.flLoad) :=
  h0.calm (State.flLoad_calm _ (Calm.refl _))

theorem State.step7_kept {b0 : State} (s : State) (bad : Nat) (h0 : Kept b0 s) : Kept b0 (s.step7 bad) := by
  unfold State.step7
  repeat' (first
    | (with_reducible assumption)
    | (with_reducible apply Kept.ite)
    | (with_reducible apply State.bt_kept)
    | (with_reducible apply State.enterRecovery_kept)
    | (with_reducible apply State.flLoad_kept)
    | (with_reducible apply State.flPower_kept)
    | intro _
    | split)

theorem State.resetDue_kept {b0 : State} (s : State) (sys : Bool) (count : Nat) (h0 : Kept b0 s) : Kept b0 (s.resetDue sys count) := by
  unfold State.resetDue
  repeat' (first
    | (with_reducible assumption)
    | (with_reducible apply Kept.ite)
    | (with_reducible apply State.bt_kept)
    | (with_reducible apply State.corePulse_kept)
    | (with_reducible apply State.sysReset_kept)
    | (with_reducible apply State.useFree_kept)
    | intro _
    | split)

theorem State.backlogStep_calm {b0 : State} (s : State) (h0 : Calm b0 s) : Calm b0 (s.backlogStep) := by
  unfold State.backlogStep
  repeat' (first
    | intro _
    | (with_reducible assumption)
    | (with_reducible apply Calm.ite)
    | (with_reducible apply State.dropCmd_calm)
    | (with_reducible apply State.post11_calm)
    | split
    | (with_reducible refine Calm.upd ?_ rfl)
    | (with_reducible refine Calm.updSafe ?_)
    | dsimp only)

theorem State.grLate_calm {b0 : State} (s : State) (b : List Nat) (h0 : Calm b0 s) : Calm b0 (s.grLate b) := by
  unfold State.grLate
  repeat' (first
    | intro _
    | (with_reducible assumption)
    | (with_reducible apply Calm.ite)
    | (with_reducible apply State.acceptFrame_calm)
    | (with_reducible apply State.compose_calm)
    | (with_reducible apply State.grAgain_calm)
    | (with_reducible apply State.grSlot_calm)
    | (with_reducible apply State.inc_calm)
    | (with_reducible apply State.lnk_calm)
    | (with_reducible apply State.notice_calm)
    | split
    | dsimp only)

theorem State.torqTick_calm {b0 : State} (s : State) (n : Fin 8) (h0 : Calm b0 s) : Calm b0 (s.torqTick n) := by
  unfold State.torqTick
  repeat' (first
    | (with_reducible assumption)
    | (with_reducible apply Calm.ite)
    | (with_reducible apply State.ax_calm)
    | (with_reducible apply State.put_calm)
    | intro _
    | split)

theorem State.moveCurrent_calm {b0 : State} (s : State) (n : Fin 8) (old : Int) (h0 : Calm b0 s) : Calm b0 (s.moveCurrent n old) := by
  unfold State.moveCurrent
  repeat' (first
    | intro _
    | (with_reducible assumption)
    | (with_reducible apply Calm.ite)
    | (with_reducible apply State.ax_calm)
    | split
    | dsimp only)

theorem State.lateAxis_calm {b0 : State} (s : State) (n : Fin 8) (h0 : Calm b0 s) : Calm b0 (s.lateAxis n) := by
  unfold State.lateAxis
  repeat' (first
    | intro _
    | (with_reducible assumption)
    | (with_reducible apply State.ax_calm)
    | split
    | dsimp only)

theorem State.lateAxis_kept {b0 : State} (s : State) (n : Fin 8) (h0 : Kept b0 s) : Kept b0 (s.lateAxis n) :=
  h0.calm (State.lateAxis_calm _ _ (Calm.refl _))

theorem State.endOnTime_calm {b0 : State} (s : State) (c : Fin 16) (h0 : Calm b0 s) : Calm b0 (s.endOnTime c) := by
  unfold State.endOnTime
  repeat' (first
    | intro _
    | (with_reducible assumption)
    | (with_reducible apply Calm.ite)
    | (with_reducible apply State.co_calm)
    | (with_reducible apply State.slotsChop_calm)
    | split
    | dsimp only)

theorem State.indRefetch_calm {b0 : State} (s : State) (a : Nat) (h0 : Calm b0 s) : Calm b0 (s.indRefetch a) := by
  unfold State.indRefetch
  repeat' (first
    | (with_reducible assumption)
    | (with_reducible apply Calm.ite)
    | (with_reducible apply State.lnk_calm)
    | intro _
    | split)

theorem State.fwTrialEnd_calm {b0 : State} (s : State) (h0 : Calm b0 s) : Calm b0 (s.fwTrialEnd) := by
  unfold State.fwTrialEnd
  repeat' (first
    | (with_reducible assumption)
    | (with_reducible apply Calm.ite)
    | (with_reducible apply State.fallback_calm)
    | (with_reducible apply State.fwState_calm)
    | intro _
    | split)

theorem State.boostUnlock_calm {b0 : State} (s : State) (n : Fin 8) (h0 : Calm b0 s) : Calm b0 (s.boostUnlock n) := by
  unfold State.boostUnlock
  repeat' (first
    | (with_reducible assumption)
    | (with_reducible apply Calm.ite)
    | (with_reducible apply State.put_calm)
    | intro _
    | split)

theorem State.rowDo_calm {b0 : State} (s : State) (lk : Link) (a : Nat) (f : State → State)
    (hf : ∀ t : State, Calm b0 t → Calm b0 (f t)) (h0 : Calm b0 s) : Calm b0 (s.rowDo lk a f) := by
  unfold State.rowDo
  have h1 := State.lnk_calm _ lk (fun k => { k with armed := false }) (State.hostBegin_calm s h0)
  exact Calm.ite h0 (Calm.ite h1 (hf _ h1))

theorem State.ssiGood_calm {b0 : State} (s : State) (n : Fin 8) (w : Nat) (h0 : Calm b0 s) : Calm b0 (s.ssiGood n w) := by
  unfold State.ssiGood
  repeat' (first
    | (with_reducible assumption)
    | (with_reducible apply Calm.ite)
    | (with_reducible apply State.dpt_calm)
    | (with_reducible apply State.put_calm)
    | (with_reducible apply State.putB_calm)
    | intro _
    | split)

theorem State.blendRun_calm {b0 : State} (s : State) (n : Fin 8) (h0 : Calm b0 s) : Calm b0 (s.blendRun n) := by
  unfold State.blendRun
  repeat' (first
    | (with_reducible assumption)
    | (with_reducible apply State.cmdUpd_calm)
    | (with_reducible apply State.stakeDone_calm)
    | (with_reducible apply State.stakeStart_calm)
    | intro _
    | split)

theorem State.moveCommit_calm {b0 : State} (s : State) (t : Fin 2) (late : Fin 8 → Bool) (h0 : Calm b0 s) : Calm b0 (s.moveCommit t late) := by
  unfold State.moveCommit
  repeat' (first
    | (with_reducible assumption)
    | (with_reducible apply Calm.ite)
    | (with_reducible apply State.ax_calm)
    | (with_reducible apply State.markEnd_calm)
    | (with_reducible apply State.put_calm)
    | (with_reducible apply State.standHold_calm)
    | (with_reducible apply State.stn_calm)
    | (with_reducible apply Calm.foldl)
    | intro _
    | split)

theorem State.chainIssue_calm {b0 : State} (s t : State) (v : Fin 8) (l : List (Word × Word × Word × Word))
    (h : s.chainIssue v l = some t) (h0 : Calm b0 s) : Calm b0 t := by
  induction l generalizing s with
  | nil => cases h; exact h0
  | cons w l ih =>
    unfold State.chainIssue at h
    have h1 := State.commit_calm s (.chain v) v w h0
    split at h
    · next u hu =>
      rw [hu] at h1
      exact ih _ h h1
    · cases h

theorem State.chainSet_calm {b0 : State} (s t : State) (v : Fin 8) (a d : Nat) (h : s.chainSet v a d = some t) (h0 : Calm b0 s) :
    Calm b0 t := by
  unfold State.chainSet at h
  split at h
  · exact State.chainIssue_calm _ _ _ _ h h0
  · split at h
    · cases h
    · cases h; exact State.chainStage_calm _ _ _ h0
  · split at h
    · cases h
    · cases h; exact State.chainStage_calm _ _ _ h0
  · split at h
    · cases h
    · cases h; exact State.chainStage_calm _ _ _ (State.chainPut_calm _ _ _ _ (by omega) h0)
  · split at h
    · cases h
    · cases h; exact State.chainStage_calm _ _ _ (State.chainPut_calm _ _ _ _ (by omega) h0)
  · split at h
    · cases h
    · cases h; exact State.chainStage_calm _ _ _ (State.chainPut_calm _ _ _ _ (by omega) h0)
  · split at h
    · next u hu =>
      cases h
      exact Calm.upd (State.chainPut_calm _ _ _ _ (by omega) (State.chainIssue_calm _ _ _ _ hu h0)) rfl
    · cases h
  · cases h; exact h0

theorem State.chainWrite_calm {b0 : State} (s : State) (v : Fin 8) (a : Nat) (d : Nat) (h0 : Calm b0 s) : Calm b0 (s.chainWrite v a d) := by
  unfold State.chainWrite
  dsimp only
  split
  · next t ht =>
    have h1 := State.chainSet_calm _ _ _ _ _ ht h0
    exact Calm.ite h1 (Calm.upd h1 rfl)
  · exact Calm.upd h0 rfl

theorem State.chainLoad_calm {b0 : State} (s : State) (v : Fin 8) (data : Nat) (h0 : Calm b0 s) : Calm b0 (s.chainLoad v data) := by
  unfold State.chainLoad
  repeat' (first
    | (with_reducible assumption)
    | (with_reducible refine Calm.upd ?_ rfl)
    | (with_reducible refine Calm.updSafe ?_)
    | intro _
    | split)

theorem State.chainLatch_calm {b0 : State} (s : State) (v : Fin 8) (w : Nat) (h0 : Calm b0 s) : Calm b0 (s.chainLatch v w) := by
  unfold State.chainLatch
  repeat' (first
    | (with_reducible assumption)
    | (with_reducible apply Calm.ite)
    | (with_reducible apply State.chainLoad_calm)
    | (with_reducible apply State.chainWrite_calm)
    | intro _
    | split)

theorem State.chainOne_calm {b0 : State} (s : State) (v : Fin 8) (w : Nat) (h0 : Calm b0 s) : Calm b0 (s.chainOne v w) := by
  unfold State.chainOne
  repeat' (first
    | intro _
    | (with_reducible assumption)
    | (with_reducible apply Calm.ite)
    | (with_reducible apply State.chainLatch_calm)
    | (with_reducible apply State.strobed_calm)
    | split
    | dsimp only)

theorem State.hwdogAxis_calm {b0 : State} (s : State) (n : Fin 8) (h0 : Calm b0 s) : Calm b0 (s.hwdogAxis n) := by
  unfold State.hwdogAxis
  repeat' (first
    | intro _
    | (with_reducible assumption)
    | (with_reducible apply Calm.ite)
    | (with_reducible apply State.ax_calm)
    | (with_reducible apply State.axisFault_calm)
    | (with_reducible apply State.stopAxis_calm)
    | (with_reducible apply State.stopMove_calm)
    | split
    | dsimp only)

theorem State.followTick_calm {b0 : State} (s : State) (n : Fin 8) (h0 : Calm b0 s) : Calm b0 (s.followTick n) := by
  unfold State.followTick
  repeat' (first
    | (with_reducible assumption)
    | (with_reducible apply Calm.ite)
    | (with_reducible apply State.ax_calm)
    | (with_reducible apply State.followLeave_calm)
    | (with_reducible apply State.inc_calm)
    | (with_reducible apply State.put_calm)
    | (with_reducible apply State.putB_calm)
    | (with_reducible apply State.standHold_calm)
    | intro _
    | split)

theorem State.planTick_calm {b0 : State} (s : State) (n : Fin 8) (h0 : Calm b0 s) : Calm b0 (s.planTick n) := by
  unfold State.planTick
  repeat' (first
    | (with_reducible assumption)
    | (with_reducible apply Calm.ite)
    | (with_reducible apply State.blendRun_calm)
    | (with_reducible apply State.coordTick_calm)
    | (with_reducible apply State.followTick_calm)
    | (with_reducible apply State.homeQuiet_calm)
    | (with_reducible apply State.homeTick_calm)
    | (with_reducible apply State.profTick_calm)
    | intro _
    | split)

theorem State.chainFollow_calm {b0 : State} (s : State) (h0 : Calm b0 s) : Calm b0 (s.chainFollow) := by
  unfold State.chainFollow
  repeat' (first
    | (with_reducible assumption)
    | (with_reducible apply Calm.ite)
    | (with_reducible apply State.putB_calm)
    | intro _
    | split)

theorem State.vlinkRead_calm {b0 : State} (s : State) (mv : Nat) (h0 : Calm b0 s) : Calm b0 (s.vlinkRead mv) := by
  unfold State.vlinkRead
  repeat' (first
    | (with_reducible assumption)
    | (with_reducible apply Calm.ite)
    | (with_reducible apply State.put_calm)
    | intro _
    | split)

theorem State.calStillEnd_calm {b0 : State} (s : State) (n : Fin 8) (c : CalSt) (h0 : Calm b0 s) : Calm b0 (s.calStillEnd n c) := by
  unfold State.calStillEnd
  repeat' (first
    | (with_reducible assumption)
    | (with_reducible apply Calm.ite)
    | (with_reducible apply State.calEnd_calm)
    | (with_reducible apply State.ob_calm)
    | (with_reducible apply State.put_calm)
    | (with_reducible apply State.putBoth_calm)
    | intro _
    | split)

theorem State.sweepPass_calm {b0 : State} (s : State) (n : Fin 8) (d : IdchkSt) (h0 : Calm b0 s) : Calm b0 (s.sweepPass n d) := by
  unfold State.sweepPass
  repeat' (first
    | intro _
    | (with_reducible assumption)
    | (with_reducible apply State.co_calm)
    | split
    | dsimp only)

theorem State.openReply_calm {b0 : State} (s : State) (h0 : Calm b0 s) : Calm b0 (s.openReply) := by
  unfold State.openReply
  repeat' (first
    | (with_reducible assumption)
    | (with_reducible apply Calm.ite)
    | (with_reducible apply State.inc_calm)
    | (with_reducible apply State.lnk_calm)
    | intro _
    | split)

theorem State.frameOpen_calm {b0 : State} (s : State) (mode3 : Bool) (h0 : Calm b0 s) : Calm b0 (s.frameOpen mode3) := by
  unfold State.frameOpen
  repeat' (first
    | intro _
    | (with_reducible assumption)
    | (with_reducible apply Calm.ite)
    | (with_reducible apply State.chainFollow_calm)
    | (with_reducible apply State.lnk_calm)
    | (with_reducible apply State.openReply_calm)
    | (with_reducible apply State.put_calm)
    | (with_reducible apply State.putB_calm)
    | split
    | dsimp only)

theorem State.ensureOpen_calm {b0 : State} (s : State) (h0 : Calm b0 s) : Calm b0 (s.ensureOpen) := by
  unfold State.ensureOpen
  repeat' (first
    | (with_reducible assumption)
    | (with_reducible apply Calm.ite)
    | (with_reducible apply State.frameOpen_calm)
    | intro _
    | split)

theorem State.ensureOpen_kept {b0 : State} (s : State) (h0 : Kept b0 s) : Kept b0 (s.ensureOpen) :=
  h0.calm (State.ensureOpen_calm _ (Calm.refl _))

theorem State.leaveMove_calm {b0 : State} (s : State) (n : Fin 8) (h0 : Calm b0 s) : Calm b0 (s.leaveMove n) := by
  unfold State.leaveMove
  repeat' (first
    | (with_reducible assumption)
    | (with_reducible apply State.ax_calm)
    | (with_reducible apply State.stn_calm)
    | intro _
    | split)

theorem State.unarm_calm {b0 : State} (s : State) (lk : Link) (h0 : Calm b0 s) : Calm b0 (s.unarm lk) := by
  unfold State.unarm
  repeat' (first
    | intro _
    | (with_reducible assumption)
    | (with_reducible apply State.lnk_calm)
    | split
    | dsimp only)

theorem State.closureNote_calm {b0 : State} (s : State) (n : Fin 8) (h0 : Calm b0 s) : Calm b0 (s.closureNote n) := by
  unfold State.closureNote
  repeat' (first
    | intro _
    | (with_reducible assumption)
    | (with_reducible apply Calm.ite)
    | (with_reducible apply State.ax_calm)
    | (with_reducible apply State.pulse_calm)
    | split
    | dsimp only)

theorem State.chainBad_calm {b0 : State} (s : State) (h0 : Calm b0 s) : Calm b0 (s.chainBad) := by
  unfold State.chainBad
  repeat' (first
    | (with_reducible assumption)
    | (with_reducible apply State.inc_calm)
    | (with_reducible refine Calm.upd ?_ rfl)
    | (with_reducible refine Calm.updSafe ?_)
    | intro _
    | split)

theorem State.chainBad_kept {b0 : State} (s : State) (h0 : Kept b0 s) : Kept b0 (s.chainBad) :=
  h0.calm (State.chainBad_calm _ (Calm.refl _))

theorem State.stallNote_calm {b0 : State} (s : State) (n : Fin 8) (cause : Nat) (la : Int) (p : Int) (h0 : Calm b0 s) : Calm b0 (s.stallNote n cause la p) := by
  unfold State.stallNote
  repeat' (first
    | (with_reducible assumption)
    | (with_reducible apply State.calAbort_calm)
    | (with_reducible apply State.capture_calm)
    | (with_reducible apply State.fbAdd_calm)
    | (with_reducible apply State.inc_calm)
    | (with_reducible apply State.ob_calm)
    | (with_reducible apply State.pulse_calm)
    | (with_reducible apply State.put_calm)
    | intro _
    | split)

theorem State.svTrip_calm {b0 : State} (s : State) (t : Fin 4) (h0 : Calm b0 s) : Calm b0 (s.svTrip t) := by
  unfold State.svTrip
  repeat' (first
    | intro _
    | (with_reducible assumption)
    | (with_reducible apply Calm.ite)
    | (with_reducible apply State.svInjTrigger_calm)
    | (with_reducible apply Calm.forFin)
    | split
    | dsimp only)

theorem State.idSweep_calm {b0 : State} (s : State) (n : Fin 8) (h0 : Calm b0 s) : Calm b0 (s.idSweep n) := by
  unfold State.idSweep
  repeat' (first
    | intro _
    | (with_reducible assumption)
    | (with_reducible apply State.ax_calm)
    | (with_reducible apply State.bridgesOff_calm)
    | (with_reducible apply State.put_calm)
    | split
    | dsimp only)

theorem State.postEnds_calm {b0 : State} (s : State) (gone : List Nat) (k : Nat) (h0 : Calm b0 s) : Calm b0 (s.postEnds gone k) := by
  induction k generalizing s gone with
  | zero => exact h0
  | succ k ih =>
    unfold State.postEnds
    split
    · refine Calm.ite ?_ ?_
      · exact ih _ _ (State.recordEnd_calm _ _ _ h0)
      · exact ih _ _ (State.endCmd_calm _ _ _ h0)
    · exact h0

theorem State.commitEnds_calm {b0 : State} (s : State) (h0 : Calm b0 s) : Calm b0 (s.commitEnds) := by
  unfold State.commitEnds
  refine State.postEnds_calm _ _ _ (Calm.upd ?_ rfl)
  exact Calm.foldl (fun x i h => State.markEnd_calm _ _ _ h) h0

theorem State.commitEnds_kept {b0 : State} (s : State) (h0 : Kept b0 s) : Kept b0 (s.commitEnds) :=
  h0.calm (State.commitEnds_calm _ (Calm.refl _))

theorem State.stallFails_calm {b0 : State} (s : State) (n : Fin 8) (h0 : Calm b0 s) : Calm b0 (s.stallFails n) := by
  unfold State.stallFails
  repeat' (first
    | (with_reducible assumption)
    | (with_reducible apply Calm.ite)
    | (with_reducible apply State.put_calm)
    | intro _
    | split)

theorem State.flReturn_kept {b0 : State} (s : State) (h0 : Kept b0 s) : Kept b0 (s.flReturn) := by
  unfold State.flReturn
  repeat' (first
    | (with_reducible assumption)
    | (with_reducible apply Kept.ite)
    | (with_reducible apply State.bt_kept)
    | (with_reducible apply State.levelOff_kept)
    | (with_reducible refine Kept.upd ?_)
    | intro _
    | split)

theorem State.ovForce_calm {b0 : State} (s : State) (mv : Nat) (h0 : Calm b0 s) : Calm b0 (s.ovForce mv) := by
  unfold State.ovForce
  repeat' (first
    | (with_reducible assumption)
    | (with_reducible apply State.put_calm)
    | intro _
    | split)

theorem State.optRegs_calm {b0 : State} (s : State) (o : Opts) (h0 : Calm b0 s) : Calm b0 (s.optRegs o) := by
  unfold State.optRegs
  repeat' (first
    | (with_reducible assumption)
    | (with_reducible apply State.ovForce_calm)
    | (with_reducible apply State.put_calm)
    | (with_reducible apply State.putB_calm)
    | intro _
    | split)

theorem State.sealForce_calm {b0 : State} (s : State) (id : Nat) (v : List Nat) (h0 : Calm b0 s) : Calm b0 (s.sealForce id v) := by
  unfold State.sealForce
  repeat' (first
    | (with_reducible assumption)
    | (with_reducible apply State.bt_calm)
    | (with_reducible apply State.ovForce_calm)
    | (with_reducible apply State.put_calm)
    | (with_reducible apply State.su_calm)
    | intro _
    | split)

theorem State.stallRun_calm {b0 : State} (s : State) (n : Fin 8) (h0 : Calm b0 s) : Calm b0 (s.stallRun n) := by
  unfold State.stallRun
  repeat' (first
    | intro _
    | (with_reducible assumption)
    | (with_reducible apply State.ax_calm)
    | (with_reducible apply State.stallNote_calm)
    | split
    | dsimp only)

theorem State.calFit_calm {b0 : State} (s : State) (n : Fin 8) (c : CalSt) (h0 : Calm b0 s) : Calm b0 (s.calFit n c) := by
  unfold State.calFit
  repeat' (first
    | (with_reducible assumption)
    | (with_reducible apply Calm.ite)
    | (with_reducible apply State.calEnd_calm)
    | (with_reducible apply State.ob_calm)
    | (with_reducible apply State.putBoth_calm)
    | (with_reducible apply State.useFree_calm)
    | intro _
    | split)

theorem State.calProgress_calm {b0 : State} (s : State) (n : Fin 8) (h0 : Calm b0 s) : Calm b0 (s.calProgress n) := by
  unfold State.calProgress
  repeat' (first
    | intro _
    | (with_reducible assumption)
    | (with_reducible apply Calm.ite)
    | (with_reducible apply State.calFit_calm)
    | (with_reducible apply State.ob_calm)
    | (with_reducible apply State.put_calm)
    | (with_reducible apply State.putBoth_calm)
    | split
    | dsimp only)

theorem State.obsRun_calm {b0 : State} (s : State) (n : Fin 8) (h0 : Calm b0 s) : Calm b0 (s.obsRun n) := by
  unfold State.obsRun
  repeat' (first
    | (with_reducible assumption)
    | (with_reducible apply Calm.ite)
    | (with_reducible apply State.ax_calm)
    | (with_reducible apply State.calProgress_calm)
    | (with_reducible apply State.ob_calm)
    | intro _
    | split)

theorem State.closureAct_calm {b0 : State} (s : State) (n : Fin 8) (h0 : Calm b0 s) : Calm b0 (s.closureAct n) := by
  unfold State.closureAct
  repeat' (first
    | (with_reducible assumption)
    | (with_reducible apply Calm.ite)
    | (with_reducible apply State.ax_calm)
    | (with_reducible apply State.axisFault_calm)
    | (with_reducible apply State.markEnd_calm)
    | (with_reducible apply State.pulse_calm)
    | (with_reducible apply State.put_calm)
    | (with_reducible apply State.stopAxis_calm)
    | (with_reducible apply State.stopMove_calm)
    | intro _
    | split)

theorem State.stallAct_calm {b0 : State} (s : State) (n : Fin 8) (rotor : Int) (h0 : Calm b0 s) : Calm b0 (s.stallAct n rotor) := by
  unfold State.stallAct
  repeat' (first
    | (with_reducible assumption)
    | (with_reducible apply Calm.ite)
    | (with_reducible apply State.ax_calm)
    | (with_reducible apply State.axisFault_calm)
    | (with_reducible apply State.followLeave_calm)
    | (with_reducible apply State.leaveMove_calm)
    | (with_reducible apply State.markEnd_calm)
    | (with_reducible apply State.put_calm)
    | (with_reducible apply State.stallFails_calm)
    | (with_reducible apply State.standHold_calm)
    | (with_reducible apply State.stopMove_calm)
    | intro _
    | split)

theorem State.stallPlan_calm {b0 : State} (s : State) (n : Fin 8) (h0 : Calm b0 s) : Calm b0 (s.stallPlan n) := by
  unfold State.stallPlan
  repeat' (first
    | intro _
    | (with_reducible assumption)
    | (with_reducible apply Calm.ite)
    | (with_reducible apply State.ax_calm)
    | (with_reducible apply State.stallAct_calm)
    | split
    | dsimp only)

theorem State.hwLimit_calm {b0 : State} (s : State) (n : Fin 8) (h0 : Calm b0 s) : Calm b0 (s.hwLimit n) := by
  unfold State.hwLimit
  repeat' (first
    | (with_reducible assumption)
    | (with_reducible apply Calm.ite)
    | (with_reducible apply State.pulse_calm)
    | (with_reducible apply State.stopAxis_calm)
    | intro _
    | split)

theorem State.limNote_calm {b0 : State} (s : State) (n : Fin 8) (old : Int) (h0 : Calm b0 s) : Calm b0 (s.limNote n old) := by
  unfold State.limNote
  repeat' (first
    | (with_reducible assumption)
    | (with_reducible apply Calm.ite)
    | (with_reducible apply State.pulse_calm)
    | (with_reducible apply State.put_calm)
    | (with_reducible apply State.putB_calm)
    | intro _
    | split)

theorem State.holdStartRamp_calm {b0 : State} (s : State) (n : Fin 8) (h0 : Calm b0 s) : Calm b0 (s.holdStartRamp n) := by
  unfold State.holdStartRamp
  repeat' (first
    | (with_reducible assumption)
    | (with_reducible apply Calm.ite)
    | (with_reducible apply State.ax_calm)
    | intro _
    | split)

theorem State.sequence_calm {b0 : State} (s : State) (n : Fin 8) (stalled : Bool) (h0 : Calm b0 s) : Calm b0 (s.sequence n stalled) := by
  unfold State.sequence
  repeat' (first
    | intro _
    | (with_reducible assumption)
    | (with_reducible apply Calm.ite)
    | (with_reducible apply State.co_calm)
    | (with_reducible apply State.ob_calm)
    | (with_reducible apply State.put_calm)
    | (with_reducible apply State.putB_calm)
    | (with_reducible apply State.putI_calm)
    | (with_reducible apply State.sweepPass_calm)
    | split
    | dsimp only)

theorem State.axisWork_calm {b0 : State} (s : State) (n : Fin 8) (h0 : Calm b0 s) : Calm b0 (s.axisWork n) := by
  unfold State.axisWork
  repeat' (first
    | intro _
    | (with_reducible assumption)
    | (with_reducible apply Calm.ite)
    | (with_reducible apply State.ax_calm)
    | (with_reducible apply State.closureAct_calm)
    | (with_reducible apply State.closureNote_calm)
    | (with_reducible apply State.closureRun_calm)
    | (with_reducible apply State.holdStartRamp_calm)
    | (with_reducible apply State.hwLimit_calm)
    | (with_reducible apply State.limNote_calm)
    | (with_reducible apply State.moveCurrent_calm)
    | (with_reducible apply State.obsPublish_calm)
    | (with_reducible apply State.obsRun_calm)
    | (with_reducible apply State.planTick_calm)
    | (with_reducible apply State.sequence_calm)
    | (with_reducible apply State.stallPlan_calm)
    | (with_reducible apply State.stallRun_calm)
    | (with_reducible apply State.torqTick_calm)
    | split
    | dsimp only)

theorem State.axisWork_kept {b0 : State} (s : State) (n : Fin 8) (h0 : Kept b0 s) : Kept b0 (s.axisWork n) :=
  h0.calm (State.axisWork_calm _ _ (Calm.refl _))

theorem State.coilAvg_calm {b0 : State} (s : State) (c : Fin 16) (dt : Nat) (h0 : Calm b0 s) : Calm b0 (s.coilAvg c dt) := by
  unfold State.coilAvg
  repeat' (first
    | (with_reducible assumption)
    | (with_reducible apply Calm.ite)
    | (with_reducible apply State.co_calm)
    | intro _
    | split)

theorem State.boostLock_calm {b0 : State} (s : State) (n : Fin 8) (h0 : Calm b0 s) : Calm b0 (s.boostLock n) := by
  unfold State.boostLock
  repeat' (first
    | (with_reducible assumption)
    | (with_reducible apply Calm.ite)
    | (with_reducible apply State.put_calm)
    | intro _
    | split)

theorem State.pubCeil_calm {b0 : State} (s : State) (n : Fin 8) (k : Nat) (dt : Nat) (h0 : Calm b0 s) : Calm b0 (s.pubCeil n k dt) := by
  unfold State.pubCeil
  repeat' (first
    | (with_reducible assumption)
    | (with_reducible apply Calm.ite)
    | (with_reducible apply State.put_calm)
    | (with_reducible apply State.putB_calm)
    | (with_reducible apply State.pw_calm)
    | intro _
    | split)

theorem State.govern_calm {b0 : State} (s : State) (h0 : Calm b0 s) : Calm b0 (s.govern) := by
  unfold State.govern
  repeat' (first
    | intro _
    | (with_reducible assumption)
    | (with_reducible apply Calm.ite)
    | (with_reducible apply State.boostLock_calm)
    | (with_reducible apply State.boostUnlock_calm)
    | (with_reducible apply State.coilAvg_calm)
    | (with_reducible apply State.levelSet_calm)
    | (with_reducible apply State.pubCeil_calm)
    | (with_reducible apply State.put_calm)
    | (with_reducible apply State.putB_calm)
    | (with_reducible apply State.pw_calm)
    | (with_reducible apply Calm.forFin)
    | split
    | dsimp only)

theorem State.govern_kept {b0 : State} (s : State) (h0 : Kept b0 s) : Kept b0 (s.govern) :=
  h0.calm (State.govern_calm _ (Calm.refl _))

theorem State.trialsEnd_calm {b0 : State} (s : State) (h0 : Calm b0 s) : Calm b0 (s.trialsEnd) := by
  unfold State.trialsEnd
  repeat' (first
    | exact fun h => h
    | exact fun _ h => h
    | intro _
    | (with_reducible assumption)
    | (with_reducible apply Calm.ite)
    | (with_reducible apply State.fwState_calm)
    | (with_reducible apply State.nv_calm)
    | split
    | dsimp only)

theorem State.grMark_calm {b0 : State} (s : State) (h0 : Calm b0 s) : Calm b0 (s.grMark) := by
  unfold State.grMark
  repeat' (first
    | (with_reducible assumption)
    | (with_reducible apply Calm.ite)
    | (with_reducible apply State.gre_calm)
    | (with_reducible apply State.put_calm)
    | intro _
    | split)

theorem State.boostRun_calm {b0 : State} (s : State) (n : Fin 8) (h0 : Calm b0 s) : Calm b0 (s.boostRun n) := by
  unfold State.boostRun
  repeat' (first
    | (with_reducible assumption)
    | (with_reducible apply State.ax_calm)
    | intro _
    | split)

theorem State.boostRun_kept {b0 : State} (s : State) (n : Fin 8) (h0 : Kept b0 s) : Kept b0 (s.boostRun n) :=
  h0.calm (State.boostRun_calm _ _ (Calm.refl _))

theorem State.movesCommit_calm {b0 : State} (s : State) (late : Fin 8 → Bool) (h0 : Calm b0 s) : Calm b0 (s.movesCommit late) := by
  unfold State.movesCommit
  repeat' (first
    | (with_reducible assumption)
    | (with_reducible apply Calm.ite)
    | (with_reducible apply State.moveCommit_calm)
    | intro _
    | split)

theorem State.movesCommit_kept {b0 : State} (s : State) (late : Fin 8 → Bool) (h0 : Kept b0 s) : Kept b0 (s.movesCommit late) :=
  h0.calm (State.movesCommit_calm _ _ (Calm.refl _))

theorem State.tickStat_kept {b0 : State} (s : State) (fin : Vector (BitVec 16) 8) (late : Fin 8 → Bool) (h0 : Kept b0 s) : Kept b0 (s.tickStat fin late) := by
  unfold State.tickStat
  repeat' (first
    | intro _
    | (with_reducible assumption)
    | (with_reducible apply Kept.ite)
    | (with_reducible apply Kept.dite)
    | (with_reducible apply State.inc_kept)
    | (with_reducible apply State.maxPut_kept)
    | (with_reducible apply State.pulse_kept)
    | (with_reducible apply State.put_kept)
    | (with_reducible apply State.putB_kept)
    | (with_reducible apply State.safeCause_kept)
    | (with_reducible apply State.safeClear_kept)
    | (with_reducible apply Kept.foldl)
    | split
    | (with_reducible refine Kept.upd ?_)
    | dsimp only)

theorem State.indApply_calm {b0 : State} (s : State) (q : IndWrite) (h0 : Calm b0 s) : Calm b0 (s.indApply q) := by
  unfold State.indApply
  dsimp only
  refine Calm.ite (Calm.ite h0 (Calm.ite ?_ ?_)) (Calm.ite ?_ ?_)
  · exact State.lnk_calm _ _ _ h0
  · exact State.mgAct_calm _ _ (State.writeFields_calm _ _ _ _ _ h0)
  · exact Calm.window h0 (kvWf_kvSet (fun _ => (0 : Word)) _ _ _)
  · exact State.lnk_calm _ _ _ h0

theorem State.rowMg_calm {b0 : State} (s : State) (lk : Link) (addr : Nat) (w : Nat) (h0 : Calm b0 s) : Calm b0 (s.rowMg lk addr w) := by
  unfold State.rowMg
  repeat' (first
    | intro _
    | (with_reducible assumption)
    | (with_reducible apply Calm.ite)
    | (with_reducible apply State.hostBegin_calm)
    | (with_reducible apply State.inc_calm)
    | (with_reducible apply State.indApply_calm)
    | (with_reducible apply State.indRefetch_calm)
    | (with_reducible apply State.keyRefused_calm)
    | (with_reducible apply State.lnk_calm)
    | split
    | (with_reducible refine Calm.upd ?_ rfl)
    | (with_reducible refine Calm.updSafe ?_)
    | dsimp only)

theorem State.rowUpd_calm {b0 : State} (s : State) (lk : Link) (op : Nat) (image : Bool) (slotB : Bool) (h0 : Calm b0 s) : Calm b0 (s.rowUpd lk op image slotB) := by
  unfold State.rowUpd
  repeat' (first
    | (with_reducible assumption)
    | (with_reducible apply State.rowMg_calm)
    | intro _
    | split)

theorem State.updSame_calm {b0 : State} (s : State) (lk : Link) (op : Nat) (h0 : Calm b0 s) : Calm b0 (s.updSame lk op) := by
  unfold State.updSame
  repeat' (first
    | (with_reducible assumption)
    | (with_reducible apply State.rowUpd_calm)
    | intro _
    | split)

theorem State.idxCheck_calm {b0 : State} (s : State) (n : Fin 8) (k : Nat) (h0 : Calm b0 s) : Calm b0 (s.idxCheck n k) := by
  unfold State.idxCheck
  repeat' (first
    | intro _
    | (with_reducible assumption)
    | (with_reducible apply Calm.ite)
    | (with_reducible apply State.capture_calm)
    | (with_reducible apply State.dpt_calm)
    | (with_reducible apply State.idxMiss_calm)
    | (with_reducible apply State.pulse_calm)
    | (with_reducible apply State.put_calm)
    | (with_reducible apply State.putI_calm)
    | split
    | dsimp only)

theorem State.memWrite_calm {b0 : State} (s : State) (m : Mem) (a : Nat) (h0 : Calm b0 s) : Calm b0 (s.memWrite m a) := by
  unfold State.memWrite
  repeat' (first
    | exact fun h => h
    | exact fun _ h => h
    | intro _
    | (with_reducible assumption)
    | (with_reducible apply State.mm_calm)
    | (with_reducible apply State.setBad_calm)
    | split
    | (with_reducible refine Calm.upd ?_ rfl)
    | (with_reducible refine Calm.updSafe ?_)
    | dsimp only)

theorem State.memTouch_calm {b0 : State} (s : State) (m : Mem) (a : Nat) (h0 : Calm b0 s) : Calm b0 (s.memTouch m a) := by
  unfold State.memTouch
  repeat' (first
    | intro _
    | (with_reducible assumption)
    | (with_reducible apply Calm.ite)
    | (with_reducible apply State.memRead_calm)
    | (with_reducible apply State.memWrite_calm)
    | (with_reducible apply State.useFree_calm)
    | split
    | dsimp only)

theorem State.keepAliveEnd_calm {b0 : State} (s : State) (h0 : Calm b0 s) : Calm b0 (s.keepAliveEnd) := by
  unfold State.keepAliveEnd
  repeat' (first
    | (with_reducible assumption)
    | (with_reducible apply Calm.ite)
    | (with_reducible apply State.bt_calm)
    | (with_reducible apply State.put_calm)
    | (with_reducible apply State.setFail_calm)
    | intro _
    | split)

theorem State.grStamp_calm {b0 : State} (s : State) (h0 : Calm b0 s) : Calm b0 (s.grStamp) := by
  unfold State.grStamp
  repeat' (first
    | (with_reducible assumption)
    | (with_reducible apply Calm.ite)
    | (with_reducible apply State.gre_calm)
    | (with_reducible apply State.lnk_calm)
    | intro _
    | split)

theorem State.hwdogTick_calm {b0 : State} (s : State) (n : Fin 8) (h0 : Calm b0 s) : Calm b0 (s.hwdogTick n) := by
  unfold State.hwdogTick
  repeat' (first
    | intro _
    | (with_reducible assumption)
    | (with_reducible apply Calm.ite)
    | (with_reducible apply State.axisFault_calm)
    | split
    | dsimp only)

theorem State.hwdogTick_kept {b0 : State} (s : State) (n : Fin 8) (h0 : Kept b0 s) : Kept b0 (s.hwdogTick n) :=
  h0.calm (State.hwdogTick_calm _ _ (Calm.refl _))

theorem State.mbCommit_calm {b0 : State} (s : State) (h0 : Calm b0 s) : Calm b0 (s.mbCommit) := by
  unfold State.mbCommit
  repeat' (first
    | intro _
    | (with_reducible assumption)
    | (with_reducible apply Calm.ite)
    | (with_reducible apply State.mbDeliver_calm)
    | (with_reducible apply Calm.forFin)
    | split
    | (with_reducible refine Calm.upd ?_ rfl)
    | (with_reducible refine Calm.updSafe ?_)
    | dsimp only)

theorem State.mbCommit_kept {b0 : State} (s : State) (h0 : Kept b0 s) : Kept b0 (s.mbCommit) :=
  h0.calm (State.mbCommit_calm _ (Calm.refl _))

theorem State.frameShut_calm {b0 : State} (s : State) (h0 : Calm b0 s) : Calm b0 (s.frameShut) :=
  State.earlier_calm _ _ (fun _ h => State.lnk_calm _ _ _ (State.put_calm _ _ _ h)) h0

theorem State.frameShut_kept {b0 : State} (s : State) (h0 : Kept b0 s) : Kept b0 (s.frameShut) :=
  h0.calm (State.frameShut_calm _ (Calm.refl _))

theorem State.spiFrame_kept {b0 : State} (s : State) (op : Nat) (f : Frame) (h0 : Kept b0 s) : Kept b0 (s.spiFrame op f) := by
  unfold State.spiFrame
  repeat' (first
    | intro _
    | (with_reducible assumption)
    | (with_reducible apply Kept.ite)
    | (with_reducible apply State.chainBad_kept)
    | (with_reducible apply State.ensureOpen_kept)
    | (with_reducible apply State.frameShut_kept)
    | (with_reducible apply State.frameUndo_kept)
    | (with_reducible apply State.inc_kept)
    | (with_reducible apply State.lnk_kept)
    | (with_reducible apply State.notice_kept)
    | (with_reducible apply State.takeFrame_kept)
    | split
    | dsimp only)

theorem State.ctxWaitTag_calm {b0 : State} (s : State) (x : Fin 4) (w : Nat) (tag : Nat) (k : Nat) (cause : Nat) (wait : PWait) (h0 : Calm b0 s) : Calm b0 (s.ctxWaitTag x w tag k cause wait) := by
  unfold State.ctxWaitTag
  repeat' (first
    | (with_reducible assumption)
    | (with_reducible apply Calm.ite)
    | (with_reducible apply State.ctx_calm)
    | (with_reducible apply State.ctxFail_calm)
    | (with_reducible apply State.ctxHold_calm)
    | (with_reducible apply State.ctxNext_calm)
    | (with_reducible apply State.stopCtx_calm)
    | intro _
    | split)

theorem State.memWork_calm {b0 : State} (s : State) (h0 : Calm b0 s) : Calm b0 (s.memWork) := by
  unfold State.memWork
  repeat' (first
    | intro _
    | (with_reducible assumption)
    | (with_reducible apply Calm.ite)
    | (with_reducible apply State.memTouch_calm)
    | (with_reducible apply Calm.foldl)
    | split
    | dsimp only)

theorem State.memWork_kept {b0 : State} (s : State) (h0 : Kept b0 s) : Kept b0 (s.memWork) :=
  h0.calm (State.memWork_calm _ (Calm.refl _))

theorem State.commitPoint_kept {b0 : State} (s : State) (fin : Vector (BitVec 16) 8) (h0 : Kept b0 s) : Kept b0 (s.commitPoint fin) := by
  unfold State.commitPoint
  repeat' (first
    | intro _
    | (with_reducible assumption)
    | (with_reducible apply Kept.ite)
    | (with_reducible apply State.axisWork_kept)
    | (with_reducible apply State.boostRun_kept)
    | (with_reducible apply State.capFreeze_kept)
    | (with_reducible apply State.capSet_kept)
    | (with_reducible apply State.commitEnds_kept)
    | (with_reducible apply State.govern_kept)
    | (with_reducible apply State.hwdogTick_kept)
    | (with_reducible apply State.lateAxis_kept)
    | (with_reducible apply State.mbCommit_kept)
    | (with_reducible apply State.memWork_kept)
    | (with_reducible apply State.movesCommit_kept)
    | (with_reducible apply State.tickStat_kept)
    | (with_reducible apply Kept.forFin)
    | split
    | (with_reducible refine Kept.upd ?_)
    | dsimp only)

theorem State.evPwrSrc_calm {b0 : State} (s : State) (h0 : Calm b0 s) : Calm b0 (s.evPwrSrc) := by
  unfold State.evPwrSrc
  repeat' (first
    | (with_reducible assumption)
    | (with_reducible apply State.pulse_calm)
    | intro _
    | split)

theorem State.extMark_kept {b0 : State} (s : State) (pins : BitVec 48) (h0 : Kept b0 s) : Kept b0 (s.extMark pins) := by
  unfold State.extMark
  repeat' (first
    | (with_reducible assumption)
    | (with_reducible apply Kept.ite)
    | (with_reducible apply State.srcLost_kept)
    | (with_reducible apply State.tickMark_kept)
    | intro _
    | split)

theorem State.grCompose_calm {b0 : State} (s : State) (h0 : Calm b0 s) : Calm b0 (s.grCompose) := by
  unfold State.grCompose
  repeat' (first
    | intro _
    | (with_reducible assumption)
    | (with_reducible apply Calm.ite)
    | (with_reducible apply State.grAgain_calm)
    | (with_reducible apply State.grLate_calm)
    | (with_reducible apply State.grStamp_calm)
    | (with_reducible apply State.gre_calm)
    | (with_reducible apply State.lnk_calm)
    | (with_reducible apply State.settle_calm)
    | (with_reducible apply Calm.foldl)
    | split
    | dsimp only)

theorem State.tripSet_calm {b0 : State} (s : State) (t : Fin 4) (h0 : Calm b0 s) : Calm b0 (s.tripSet t) := by
  unfold State.tripSet
  repeat' (first
    | intro _
    | (with_reducible assumption)
    | (with_reducible apply Calm.ite)
    | (with_reducible apply State.gathered_calm)
    | (with_reducible apply State.levelOn_calm)
    | (with_reducible apply State.putBit_calm)
    | (with_reducible apply State.svTrip_calm)
    | (with_reducible apply State.tripAxis_calm)
    | (with_reducible apply Calm.foldl)
    | split
    | (with_reducible refine Calm.upd ?_ rfl)
    | (with_reducible refine Calm.updSafe ?_)
    | dsimp only)

theorem State.ctxHome_calm {b0 : State} (s : State) (x : Fin 4) (w : Nat) (w2 : Nat) (h0 : Calm b0 s) : Calm b0 (s.ctxHome x w w2) := by
  unfold State.ctxHome
  repeat' (first
    | (with_reducible assumption)
    | (with_reducible apply Calm.ite)
    | (with_reducible apply State.ctxCommit_calm)
    | (with_reducible apply State.ctxFail_calm)
    | (with_reducible apply State.ctxHold_calm)
    | (with_reducible apply State.ctxWaitTag_calm)
    | (with_reducible apply State.stopCtx_calm)
    | intro _
    | split)

theorem State.autofix_calm {b0 : State} (s : State) (n : Fin 8) (h0 : Calm b0 s) : Calm b0 (s.autofix n) := by
  unfold State.autofix
  repeat' (first
    | (with_reducible assumption)
    | (with_reducible apply State.co_calm)
    | (with_reducible apply State.put_calm)
    | (with_reducible apply State.putSt_calm)
    | intro _
    | split)

end Sys2Proof.Machine
end

