-- ==== Sys2Proof/Laws/Fields.lean ====
section
/-!
SUPPORT. Address, lowest bit and width of every named field, so that no proof unfolds a field name.
-/

namespace Sys2Proof.Machine

@[simp] theorem CLK_TICK_CFG_PERIOD_a : CLK_TICK_CFG_PERIOD.a = 0x1c8 := id rfl
@[simp] theorem CLK_TICK_CFG_PERIOD_lo : CLK_TICK_CFG_PERIOD.lo = 0 := id rfl
@[simp] theorem CLK_TICK_CFG_PERIOD_w : CLK_TICK_CFG_PERIOD.w = 16 := id rfl
@[simp] theorem CLK_TICK_CFG_OVR_LIMIT_a : CLK_TICK_CFG_OVR_LIMIT.a = 0x1c8 := id rfl
@[simp] theorem CLK_TICK_CFG_OVR_LIMIT_lo : CLK_TICK_CFG_OVR_LIMIT.lo = 16 := id rfl
@[simp] theorem CLK_TICK_CFG_OVR_LIMIT_w : CLK_TICK_CFG_OVR_LIMIT.w = 4 := id rfl
@[simp] theorem CLK_TICK_CFG_WARN_a : CLK_TICK_CFG_WARN.a = 0x1c8 := id rfl
@[simp] theorem CLK_TICK_CFG_WARN_lo : CLK_TICK_CFG_WARN.lo = 20 := id rfl
@[simp] theorem CLK_TICK_CFG_WARN_w : CLK_TICK_CFG_WARN.w = 4 := id rfl
@[simp] theorem CLK_TICK_CFG_SRC_a : CLK_TICK_CFG_SRC.a = 0x1c8 := id rfl
@[simp] theorem CLK_TICK_CFG_SRC_lo : CLK_TICK_CFG_SRC.lo = 24 := id rfl
@[simp] theorem CLK_TICK_CFG_SRC_w : CLK_TICK_CFG_SRC.w = 2 := id rfl
@[simp] theorem CLK_TICK_CFG_SYNC_OUT_EN_a : CLK_TICK_CFG_SYNC_OUT_EN.a = 0x1c8 := id rfl
@[simp] theorem CLK_TICK_CFG_SYNC_OUT_EN_lo : CLK_TICK_CFG_SYNC_OUT_EN.lo = 26 := id rfl
@[simp] theorem CLK_TICK_CFG_SYNC_OUT_EN_w : CLK_TICK_CFG_SYNC_OUT_EN.w = 1 := id rfl
@[simp] theorem CLK_TICK_STAT_PEND_a : CLK_TICK_STAT_PEND.a = 0x1c9 := id rfl
@[simp] theorem CLK_TICK_STAT_PEND_lo : CLK_TICK_STAT_PEND.lo = 0 := id rfl
@[simp] theorem CLK_TICK_STAT_PEND_w : CLK_TICK_STAT_PEND.w = 1 := id rfl
@[simp] theorem CLK_TICK_STAT_MARGIN_a : CLK_TICK_STAT_MARGIN.a = 0x1c9 := id rfl
@[simp] theorem CLK_TICK_STAT_MARGIN_lo : CLK_TICK_STAT_MARGIN.lo = 1 := id rfl
@[simp] theorem CLK_TICK_STAT_MARGIN_w : CLK_TICK_STAT_MARGIN.w = 1 := id rfl
@[simp] theorem CLK_TICK_STAT_SRC_LOST_a : CLK_TICK_STAT_SRC_LOST.a = 0x1c9 := id rfl
@[simp] theorem CLK_TICK_STAT_SRC_LOST_lo : CLK_TICK_STAT_SRC_LOST.lo = 2 := id rfl
@[simp] theorem CLK_TICK_STAT_SRC_LOST_w : CLK_TICK_STAT_SRC_LOST.w = 1 := id rfl
@[simp] theorem CLK_TICK_STAT_OVERRUN_a : CLK_TICK_STAT_OVERRUN.a = 0x1c9 := id rfl
@[simp] theorem CLK_TICK_STAT_OVERRUN_lo : CLK_TICK_STAT_OVERRUN.lo = 3 := id rfl
@[simp] theorem CLK_TICK_STAT_OVERRUN_w : CLK_TICK_STAT_OVERRUN.w = 1 := id rfl
@[simp] theorem CLK_TICK_STAT_OVR_CONSEC_a : CLK_TICK_STAT_OVR_CONSEC.a = 0x1c9 := id rfl
@[simp] theorem CLK_TICK_STAT_OVR_CONSEC_lo : CLK_TICK_STAT_OVR_CONSEC.lo = 4 := id rfl
@[simp] theorem CLK_TICK_STAT_OVR_CONSEC_w : CLK_TICK_STAT_OVR_CONSEC.w = 4 := id rfl
@[simp] theorem CLK_TICK_STAT_CLR_MAX_a : CLK_TICK_STAT_CLR_MAX.a = 0x1c9 := id rfl
@[simp] theorem CLK_TICK_STAT_CLR_MAX_lo : CLK_TICK_STAT_CLR_MAX.lo = 8 := id rfl
@[simp] theorem CLK_TICK_STAT_CLR_MAX_w : CLK_TICK_STAT_CLR_MAX.w = 1 := id rfl
@[simp] theorem CLK_TICK_STAT_CLR_TOTAL_a : CLK_TICK_STAT_CLR_TOTAL.a = 0x1c9 := id rfl
@[simp] theorem CLK_TICK_STAT_CLR_TOTAL_lo : CLK_TICK_STAT_CLR_TOTAL.lo = 9 := id rfl
@[simp] theorem CLK_TICK_STAT_CLR_TOTAL_w : CLK_TICK_STAT_CLR_TOTAL.w = 1 := id rfl
@[simp] theorem CLK_TICK_LAST_FINISH_a : CLK_TICK_LAST_FINISH.a = 0x1ca := id rfl
@[simp] theorem CLK_TICK_LAST_FINISH_lo : CLK_TICK_LAST_FINISH.lo = 0 := id rfl
@[simp] theorem CLK_TICK_LAST_FINISH_w : CLK_TICK_LAST_FINISH.w = 16 := id rfl
@[simp] theorem CLK_TICK_LAST_LATE_a : CLK_TICK_LAST_LATE.a = 0x1ca := id rfl
@[simp] theorem CLK_TICK_LAST_LATE_lo : CLK_TICK_LAST_LATE.lo = 16 := id rfl
@[simp] theorem CLK_TICK_LAST_LATE_w : CLK_TICK_LAST_LATE.w = 8 := id rfl
@[simp] theorem CLK_TICK_LAST_OVR_TOTAL_a : CLK_TICK_LAST_OVR_TOTAL.a = 0x1ca := id rfl
@[simp] theorem CLK_TICK_LAST_OVR_TOTAL_lo : CLK_TICK_LAST_OVR_TOTAL.lo = 24 := id rfl
@[simp] theorem CLK_TICK_LAST_OVR_TOTAL_w : CLK_TICK_LAST_OVR_TOTAL.w = 8 := id rfl
@[simp] theorem CLK_TICK_MAX_MAX_a (n : Nat) : (CLK_TICK_MAX_MAX n).a = 0x1cc + n := id rfl
@[simp] theorem CLK_TICK_MAX_MAX_lo (n : Nat) : (CLK_TICK_MAX_MAX n).lo = 0 := id rfl
@[simp] theorem CLK_TICK_MAX_MAX_w (n : Nat) : (CLK_TICK_MAX_MAX n).w = 16 := id rfl
@[simp] theorem DEV_MEM_CFG_SCRUB_EN_a : DEV_MEM_CFG_SCRUB_EN.a = 0x62 := id rfl
@[simp] theorem DEV_MEM_CFG_SCRUB_EN_lo : DEV_MEM_CFG_SCRUB_EN.lo = 0 := id rfl
@[simp] theorem DEV_MEM_CFG_SCRUB_EN_w : DEV_MEM_CFG_SCRUB_EN.w = 1 := id rfl
@[simp] theorem DEV_MEM_CFG_CE_THRESH_a : DEV_MEM_CFG_CE_THRESH.a = 0x62 := id rfl
@[simp] theorem DEV_MEM_CFG_CE_THRESH_lo : DEV_MEM_CFG_CE_THRESH.lo = 8 := id rfl
@[simp] theorem DEV_MEM_CFG_CE_THRESH_w : DEV_MEM_CFG_CE_THRESH.w = 8 := id rfl
@[simp] theorem DEV_MEM_CFG_CLR_CNT_a : DEV_MEM_CFG_CLR_CNT.a = 0x62 := id rfl
@[simp] theorem DEV_MEM_CFG_CLR_CNT_lo : DEV_MEM_CFG_CLR_CNT.lo = 16 := id rfl
@[simp] theorem DEV_MEM_CFG_CLR_CNT_w : DEV_MEM_CFG_CLR_CNT.w = 1 := id rfl
@[simp] theorem DEV_MEM_CFG_CLR_FIRST_a : DEV_MEM_CFG_CLR_FIRST.a = 0x62 := id rfl
@[simp] theorem DEV_MEM_CFG_CLR_FIRST_lo : DEV_MEM_CFG_CLR_FIRST.lo = 17 := id rfl
@[simp] theorem DEV_MEM_CFG_CLR_FIRST_w : DEV_MEM_CFG_CLR_FIRST.w = 1 := id rfl
@[simp] theorem DEV_MEM_STAT_PASS_M_a : DEV_MEM_STAT_PASS_M.a = 0x63 := id rfl
@[simp] theorem DEV_MEM_STAT_PASS_M_lo : DEV_MEM_STAT_PASS_M.lo = 0 := id rfl
@[simp] theorem DEV_MEM_STAT_PASS_M_w : DEV_MEM_STAT_PASS_M.w = 8 := id rfl
@[simp] theorem DEV_MEM_STAT_PASS_G_a : DEV_MEM_STAT_PASS_G.a = 0x63 := id rfl
@[simp] theorem DEV_MEM_STAT_PASS_G_lo : DEV_MEM_STAT_PASS_G.lo = 8 := id rfl
@[simp] theorem DEV_MEM_STAT_PASS_G_w : DEV_MEM_STAT_PASS_G.w = 8 := id rfl
@[simp] theorem DEV_MEM_STAT_SCRUB_ON_a : DEV_MEM_STAT_SCRUB_ON.a = 0x63 := id rfl
@[simp] theorem DEV_MEM_STAT_SCRUB_ON_lo : DEV_MEM_STAT_SCRUB_ON.lo = 16 := id rfl
@[simp] theorem DEV_MEM_STAT_SCRUB_ON_w : DEV_MEM_STAT_SCRUB_ON.w = 1 := id rfl
@[simp] theorem DEV_MEM_STAT_INJ_ARMED_a : DEV_MEM_STAT_INJ_ARMED.a = 0x63 := id rfl
@[simp] theorem DEV_MEM_STAT_INJ_ARMED_lo : DEV_MEM_STAT_INJ_ARMED.lo = 17 := id rfl
@[simp] theorem DEV_MEM_STAT_INJ_ARMED_w : DEV_MEM_STAT_INJ_ARMED.w = 1 := id rfl
@[simp] theorem DEV_MEM_STAT_DROP_a : DEV_MEM_STAT_DROP.a = 0x63 := id rfl
@[simp] theorem DEV_MEM_STAT_DROP_lo : DEV_MEM_STAT_DROP.lo = 24 := id rfl
@[simp] theorem DEV_MEM_STAT_DROP_w : DEV_MEM_STAT_DROP.w = 8 := id rfl
@[simp] theorem DEV_MEM_CNTS_CNT_M_a (k : Nat) : (DEV_MEM_CNTS_CNT_M k).a = 0x64 + k := id rfl
@[simp] theorem DEV_MEM_CNTS_CNT_M_lo (k : Nat) : (DEV_MEM_CNTS_CNT_M k).lo = 0 := id rfl
@[simp] theorem DEV_MEM_CNTS_CNT_M_w (k : Nat) : (DEV_MEM_CNTS_CNT_M k).w = 16 := id rfl
@[simp] theorem DEV_MEM_CNTS_CNT_G_a (k : Nat) : (DEV_MEM_CNTS_CNT_G k).a = 0x64 + k := id rfl
@[simp] theorem DEV_MEM_CNTS_CNT_G_lo (k : Nat) : (DEV_MEM_CNTS_CNT_G k).lo = 16 := id rfl
@[simp] theorem DEV_MEM_CNTS_CNT_G_w (k : Nat) : (DEV_MEM_CNTS_CNT_G k).w = 16 := id rfl
@[simp] theorem DEV_MEM_FIRST_ADDR_a : DEV_MEM_FIRST_ADDR.a = 0x66 := id rfl
@[simp] theorem DEV_MEM_FIRST_ADDR_lo : DEV_MEM_FIRST_ADDR.lo = 0 := id rfl
@[simp] theorem DEV_MEM_FIRST_ADDR_w : DEV_MEM_FIRST_ADDR.w = 15 := id rfl
@[simp] theorem DEV_MEM_FIRST_MEM_a : DEV_MEM_FIRST_MEM.a = 0x66 := id rfl
@[simp] theorem DEV_MEM_FIRST_MEM_lo : DEV_MEM_FIRST_MEM.lo = 15 := id rfl
@[simp] theorem DEV_MEM_FIRST_MEM_w : DEV_MEM_FIRST_MEM.w = 1 := id rfl
@[simp] theorem DEV_MEM_FIRST_TYPE_a : DEV_MEM_FIRST_TYPE.a = 0x66 := id rfl
@[simp] theorem DEV_MEM_FIRST_TYPE_lo : DEV_MEM_FIRST_TYPE.lo = 16 := id rfl
@[simp] theorem DEV_MEM_FIRST_TYPE_w : DEV_MEM_FIRST_TYPE.w = 1 := id rfl
@[simp] theorem DEV_MEM_FIRST_SYM_a : DEV_MEM_FIRST_SYM.a = 0x66 := id rfl
@[simp] theorem DEV_MEM_FIRST_SYM_lo : DEV_MEM_FIRST_SYM.lo = 17 := id rfl
@[simp] theorem DEV_MEM_FIRST_SYM_w : DEV_MEM_FIRST_SYM.w = 5 := id rfl
@[simp] theorem DEV_MEM_FIRST_VALID_a : DEV_MEM_FIRST_VALID.a = 0x66 := id rfl
@[simp] theorem DEV_MEM_FIRST_VALID_lo : DEV_MEM_FIRST_VALID.lo = 22 := id rfl
@[simp] theorem DEV_MEM_FIRST_VALID_w : DEV_MEM_FIRST_VALID.w = 1 := id rfl
@[simp] theorem DEV_MEM_FIRST_SOURCE_a : DEV_MEM_FIRST_SOURCE.a = 0x66 := id rfl
@[simp] theorem DEV_MEM_FIRST_SOURCE_lo : DEV_MEM_FIRST_SOURCE.lo = 23 := id rfl
@[simp] theorem DEV_MEM_FIRST_SOURCE_w : DEV_MEM_FIRST_SOURCE.w = 1 := id rfl
@[simp] theorem DEV_MEM_INJ_ADDR_a : DEV_MEM_INJ_ADDR.a = 0x67 := id rfl
@[simp] theorem DEV_MEM_INJ_ADDR_lo : DEV_MEM_INJ_ADDR.lo = 0 := id rfl
@[simp] theorem DEV_MEM_INJ_ADDR_w : DEV_MEM_INJ_ADDR.w = 15 := id rfl
@[simp] theorem DEV_MEM_INJ_MEM_a : DEV_MEM_INJ_MEM.a = 0x67 := id rfl
@[simp] theorem DEV_MEM_INJ_MEM_lo : DEV_MEM_INJ_MEM.lo = 15 := id rfl
@[simp] theorem DEV_MEM_INJ_MEM_w : DEV_MEM_INJ_MEM.w = 1 := id rfl
@[simp] theorem DEV_MEM_INJ_SYM0_a : DEV_MEM_INJ_SYM0.a = 0x67 := id rfl
@[simp] theorem DEV_MEM_INJ_SYM0_lo : DEV_MEM_INJ_SYM0.lo = 16 := id rfl
@[simp] theorem DEV_MEM_INJ_SYM0_w : DEV_MEM_INJ_SYM0.w = 5 := id rfl
@[simp] theorem DEV_MEM_INJ_SYM1_a : DEV_MEM_INJ_SYM1.a = 0x67 := id rfl
@[simp] theorem DEV_MEM_INJ_SYM1_lo : DEV_MEM_INJ_SYM1.lo = 21 := id rfl
@[simp] theorem DEV_MEM_INJ_SYM1_w : DEV_MEM_INJ_SYM1.w = 5 := id rfl
@[simp] theorem DEV_MEM_INJ_DOUBLE_a : DEV_MEM_INJ_DOUBLE.a = 0x67 := id rfl
@[simp] theorem DEV_MEM_INJ_DOUBLE_lo : DEV_MEM_INJ_DOUBLE.lo = 26 := id rfl
@[simp] theorem DEV_MEM_INJ_DOUBLE_w : DEV_MEM_INJ_DOUBLE.w = 1 := id rfl
@[simp] theorem DEV_MEM_INJ_ARM_a : DEV_MEM_INJ_ARM.a = 0x67 := id rfl
@[simp] theorem DEV_MEM_INJ_ARM_lo : DEV_MEM_INJ_ARM.lo = 27 := id rfl
@[simp] theorem DEV_MEM_INJ_ARM_w : DEV_MEM_INJ_ARM.w = 1 := id rfl
@[simp] theorem DEV_ARB_CFG_MODE_a : DEV_ARB_CFG_MODE.a = 0x60 := id rfl
@[simp] theorem DEV_ARB_CFG_MODE_lo : DEV_ARB_CFG_MODE.lo = 0 := id rfl
@[simp] theorem DEV_ARB_CFG_MODE_w : DEV_ARB_CFG_MODE.w = 1 := id rfl
@[simp] theorem DEV_ARB_CFG_CLR_MAXWAIT_a : DEV_ARB_CFG_CLR_MAXWAIT.a = 0x60 := id rfl
@[simp] theorem DEV_ARB_CFG_CLR_MAXWAIT_lo : DEV_ARB_CFG_CLR_MAXWAIT.lo = 8 := id rfl
@[simp] theorem DEV_ARB_CFG_CLR_MAXWAIT_w : DEV_ARB_CFG_CLR_MAXWAIT.w = 1 := id rfl
@[simp] theorem DEV_ARB_STAT_MODE_ACT_a : DEV_ARB_STAT_MODE_ACT.a = 0x61 := id rfl
@[simp] theorem DEV_ARB_STAT_MODE_ACT_lo : DEV_ARB_STAT_MODE_ACT.lo = 0 := id rfl
@[simp] theorem DEV_ARB_STAT_MODE_ACT_w : DEV_ARB_STAT_MODE_ACT.w = 1 := id rfl
@[simp] theorem DEV_ARB_STAT_ACT_S0_a : DEV_ARB_STAT_ACT_S0.a = 0x61 := id rfl
@[simp] theorem DEV_ARB_STAT_ACT_S0_lo : DEV_ARB_STAT_ACT_S0.lo = 4 := id rfl
@[simp] theorem DEV_ARB_STAT_ACT_S0_w : DEV_ARB_STAT_ACT_S0.w = 4 := id rfl
@[simp] theorem DEV_ARB_STAT_ACT_S1_a : DEV_ARB_STAT_ACT_S1.a = 0x61 := id rfl
@[simp] theorem DEV_ARB_STAT_ACT_S1_lo : DEV_ARB_STAT_ACT_S1.lo = 8 := id rfl
@[simp] theorem DEV_ARB_STAT_ACT_S1_w : DEV_ARB_STAT_ACT_S1.w = 4 := id rfl
@[simp] theorem DEV_ARB_STAT_ACT_SP_a : DEV_ARB_STAT_ACT_SP.a = 0x61 := id rfl
@[simp] theorem DEV_ARB_STAT_ACT_SP_lo : DEV_ARB_STAT_ACT_SP.lo = 12 := id rfl
@[simp] theorem DEV_ARB_STAT_ACT_SP_w : DEV_ARB_STAT_ACT_SP.w = 4 := id rfl
@[simp] theorem DEV_ARB_STAT_MAXWAIT_a : DEV_ARB_STAT_MAXWAIT.a = 0x61 := id rfl
@[simp] theorem DEV_ARB_STAT_MAXWAIT_lo : DEV_ARB_STAT_MAXWAIT.lo = 16 := id rfl
@[simp] theorem DEV_ARB_STAT_MAXWAIT_w : DEV_ARB_STAT_MAXWAIT.w = 8 := id rfl
@[simp] theorem AX_PINSEL_FB_MODE_a (n : Nat) : (AX_PINSEL_FB_MODE n).a = 0x89e + 0x100 * n := id rfl
@[simp] theorem AX_PINSEL_FB_MODE_lo (n : Nat) : (AX_PINSEL_FB_MODE n).lo = 0 := id rfl
@[simp] theorem AX_PINSEL_FB_MODE_w (n : Nat) : (AX_PINSEL_FB_MODE n).w = 2 := id rfl
@[simp] theorem AX_PINSEL_FB2_FN_a (n : Nat) : (AX_PINSEL_FB2_FN n).a = 0x89e + 0x100 * n := id rfl
@[simp] theorem AX_PINSEL_FB2_FN_lo (n : Nat) : (AX_PINSEL_FB2_FN n).lo = 2 := id rfl
@[simp] theorem AX_PINSEL_FB2_FN_w (n : Nat) : (AX_PINSEL_FB2_FN n).w = 2 := id rfl
@[simp] theorem AX_PINSEL_STEP_FN_a (n : Nat) : (AX_PINSEL_STEP_FN n).a = 0x89e + 0x100 * n := id rfl
@[simp] theorem AX_PINSEL_STEP_FN_lo (n : Nat) : (AX_PINSEL_STEP_FN n).lo = 4 := id rfl
@[simp] theorem AX_PINSEL_STEP_FN_w (n : Nat) : (AX_PINSEL_STEP_FN n).w = 2 := id rfl
@[simp] theorem AX_PINSEL_DIR_FN_a (n : Nat) : (AX_PINSEL_DIR_FN n).a = 0x89e + 0x100 * n := id rfl
@[simp] theorem AX_PINSEL_DIR_FN_lo (n : Nat) : (AX_PINSEL_DIR_FN n).lo = 6 := id rfl
@[simp] theorem AX_PINSEL_DIR_FN_w (n : Nat) : (AX_PINSEL_DIR_FN n).w = 2 := id rfl
@[simp] theorem AX_PINSEL_FB2_INV_a (n : Nat) : (AX_PINSEL_FB2_INV n).a = 0x89e + 0x100 * n := id rfl
@[simp] theorem AX_PINSEL_FB2_INV_lo (n : Nat) : (AX_PINSEL_FB2_INV n).lo = 8 := id rfl
@[simp] theorem AX_PINSEL_FB2_INV_w (n : Nat) : (AX_PINSEL_FB2_INV n).w = 1 := id rfl
@[simp] theorem AX_PINSEL_STEP_INV_a (n : Nat) : (AX_PINSEL_STEP_INV n).a = 0x89e + 0x100 * n := id rfl
@[simp] theorem AX_PINSEL_STEP_INV_lo (n : Nat) : (AX_PINSEL_STEP_INV n).lo = 9 := id rfl
@[simp] theorem AX_PINSEL_STEP_INV_w (n : Nat) : (AX_PINSEL_STEP_INV n).w = 1 := id rfl
@[simp] theorem AX_PINSEL_DIR_INV_a (n : Nat) : (AX_PINSEL_DIR_INV n).a = 0x89e + 0x100 * n := id rfl
@[simp] theorem AX_PINSEL_DIR_INV_lo (n : Nat) : (AX_PINSEL_DIR_INV n).lo = 10 := id rfl
@[simp] theorem AX_PINSEL_DIR_INV_w (n : Nat) : (AX_PINSEL_DIR_INV n).w = 1 := id rfl
@[simp] theorem AX_PINSEL_FILT_a (n : Nat) : (AX_PINSEL_FILT n).a = 0x89e + 0x100 * n := id rfl
@[simp] theorem AX_PINSEL_FILT_lo (n : Nat) : (AX_PINSEL_FILT n).lo = 16 := id rfl
@[simp] theorem AX_PINSEL_FILT_w (n : Nat) : (AX_PINSEL_FILT n).w = 4 := id rfl
@[simp] theorem AX_PINSTAT_FB0_LVL_a (n : Nat) : (AX_PINSTAT_FB0_LVL n).a = 0x89f + 0x100 * n := id rfl
@[simp] theorem AX_PINSTAT_FB0_LVL_lo (n : Nat) : (AX_PINSTAT_FB0_LVL n).lo = 0 := id rfl
@[simp] theorem AX_PINSTAT_FB0_LVL_w (n : Nat) : (AX_PINSTAT_FB0_LVL n).w = 1 := id rfl
@[simp] theorem AX_PINSTAT_FB1_LVL_a (n : Nat) : (AX_PINSTAT_FB1_LVL n).a = 0x89f + 0x100 * n := id rfl
@[simp] theorem AX_PINSTAT_FB1_LVL_lo (n : Nat) : (AX_PINSTAT_FB1_LVL n).lo = 1 := id rfl
@[simp] theorem AX_PINSTAT_FB1_LVL_w (n : Nat) : (AX_PINSTAT_FB1_LVL n).w = 1 := id rfl
@[simp] theorem AX_PINSTAT_FB2_LVL_a (n : Nat) : (AX_PINSTAT_FB2_LVL n).a = 0x89f + 0x100 * n := id rfl
@[simp] theorem AX_PINSTAT_FB2_LVL_lo (n : Nat) : (AX_PINSTAT_FB2_LVL n).lo = 2 := id rfl
@[simp] theorem AX_PINSTAT_FB2_LVL_w (n : Nat) : (AX_PINSTAT_FB2_LVL n).w = 1 := id rfl
@[simp] theorem AX_PINSTAT_STEP_LVL_a (n : Nat) : (AX_PINSTAT_STEP_LVL n).a = 0x89f + 0x100 * n := id rfl
@[simp] theorem AX_PINSTAT_STEP_LVL_lo (n : Nat) : (AX_PINSTAT_STEP_LVL n).lo = 3 := id rfl
@[simp] theorem AX_PINSTAT_STEP_LVL_w (n : Nat) : (AX_PINSTAT_STEP_LVL n).w = 1 := id rfl
@[simp] theorem AX_PINSTAT_DIR_LVL_a (n : Nat) : (AX_PINSTAT_DIR_LVL n).a = 0x89f + 0x100 * n := id rfl
@[simp] theorem AX_PINSTAT_DIR_LVL_lo (n : Nat) : (AX_PINSTAT_DIR_LVL n).lo = 4 := id rfl
@[simp] theorem AX_PINSTAT_DIR_LVL_w (n : Nat) : (AX_PINSTAT_DIR_LVL n).w = 1 := id rfl
@[simp] theorem AX_PINSTAT_IDD_LVL_a (n : Nat) : (AX_PINSTAT_IDD_LVL n).a = 0x89f + 0x100 * n := id rfl
@[simp] theorem AX_PINSTAT_IDD_LVL_lo (n : Nat) : (AX_PINSTAT_IDD_LVL n).lo = 5 := id rfl
@[simp] theorem AX_PINSTAT_IDD_LVL_w (n : Nat) : (AX_PINSTAT_IDD_LVL n).w = 1 := id rfl
@[simp] theorem AX_PINSTAT_SEL_PEND_a (n : Nat) : (AX_PINSTAT_SEL_PEND n).a = 0x89f + 0x100 * n := id rfl
@[simp] theorem AX_PINSTAT_SEL_PEND_lo (n : Nat) : (AX_PINSTAT_SEL_PEND n).lo = 8 := id rfl
@[simp] theorem AX_PINSTAT_SEL_PEND_w (n : Nat) : (AX_PINSTAT_SEL_PEND n).w = 1 := id rfl
@[simp] theorem AX_PINSTAT_SEL_CONFLICT_a (n : Nat) : (AX_PINSTAT_SEL_CONFLICT n).a = 0x89f + 0x100 * n := id rfl
@[simp] theorem AX_PINSTAT_SEL_CONFLICT_lo (n : Nat) : (AX_PINSTAT_SEL_CONFLICT n).lo = 9 := id rfl
@[simp] theorem AX_PINSTAT_SEL_CONFLICT_w (n : Nat) : (AX_PINSTAT_SEL_CONFLICT n).w = 1 := id rfl
@[simp] theorem AX_PINSTAT_FB_ACT_a (n : Nat) : (AX_PINSTAT_FB_ACT n).a = 0x89f + 0x100 * n := id rfl
@[simp] theorem AX_PINSTAT_FB_ACT_lo (n : Nat) : (AX_PINSTAT_FB_ACT n).lo = 16 := id rfl
@[simp] theorem AX_PINSTAT_FB_ACT_w (n : Nat) : (AX_PINSTAT_FB_ACT n).w = 2 := id rfl
@[simp] theorem AX_PINSTAT_FB2_ACT_a (n : Nat) : (AX_PINSTAT_FB2_ACT n).a = 0x89f + 0x100 * n := id rfl
@[simp] theorem AX_PINSTAT_FB2_ACT_lo (n : Nat) : (AX_PINSTAT_FB2_ACT n).lo = 18 := id rfl
@[simp] theorem AX_PINSTAT_FB2_ACT_w (n : Nat) : (AX_PINSTAT_FB2_ACT n).w = 2 := id rfl
@[simp] theorem AX_PINSTAT_STEP_ACT_a (n : Nat) : (AX_PINSTAT_STEP_ACT n).a = 0x89f + 0x100 * n := id rfl
@[simp] theorem AX_PINSTAT_STEP_ACT_lo (n : Nat) : (AX_PINSTAT_STEP_ACT n).lo = 20 := id rfl
@[simp] theorem AX_PINSTAT_STEP_ACT_w (n : Nat) : (AX_PINSTAT_STEP_ACT n).w = 2 := id rfl
@[simp] theorem AX_PINSTAT_DIR_ACT_a (n : Nat) : (AX_PINSTAT_DIR_ACT n).a = 0x89f + 0x100 * n := id rfl
@[simp] theorem AX_PINSTAT_DIR_ACT_lo (n : Nat) : (AX_PINSTAT_DIR_ACT n).lo = 22 := id rfl
@[simp] theorem AX_PINSTAT_DIR_ACT_w (n : Nat) : (AX_PINSTAT_DIR_ACT n).w = 2 := id rfl
@[simp] theorem PWR_STAT_VM_OK_a (i : Nat) : (PWR_STAT_VM_OK i).a = 0x140 := id rfl
@[simp] theorem PWR_STAT_VM_OK_lo (i : Nat) : (PWR_STAT_VM_OK i).lo = i := id rfl
@[simp] theorem PWR_STAT_VM_OK_w (i : Nat) : (PWR_STAT_VM_OK i).w = 1 := id rfl
@[simp] theorem PWR_STAT_UV_WARN_a (i : Nat) : (PWR_STAT_UV_WARN i).a = 0x140 := id rfl
@[simp] theorem PWR_STAT_UV_WARN_lo (i : Nat) : (PWR_STAT_UV_WARN i).lo = 2 + i := id rfl
@[simp] theorem PWR_STAT_UV_WARN_w (i : Nat) : (PWR_STAT_UV_WARN i).w = 1 := id rfl
@[simp] theorem PWR_STAT_OV_a (i : Nat) : (PWR_STAT_OV i).a = 0x140 := id rfl
@[simp] theorem PWR_STAT_OV_lo (i : Nat) : (PWR_STAT_OV i).lo = 4 + i := id rfl
@[simp] theorem PWR_STAT_OV_w (i : Nat) : (PWR_STAT_OV i).w = 1 := id rfl
@[simp] theorem PWR_STAT_REV_a (i : Nat) : (PWR_STAT_REV i).a = 0x140 := id rfl
@[simp] theorem PWR_STAT_REV_lo (i : Nat) : (PWR_STAT_REV i).lo = 6 + i := id rfl
@[simp] theorem PWR_STAT_REV_w (i : Nat) : (PWR_STAT_REV i).w = 1 := id rfl
@[simp] theorem PWR_STAT_CLAMP_a (i : Nat) : (PWR_STAT_CLAMP i).a = 0x140 := id rfl
@[simp] theorem PWR_STAT_CLAMP_lo (i : Nat) : (PWR_STAT_CLAMP i).lo = 8 + i := id rfl
@[simp] theorem PWR_STAT_CLAMP_w (i : Nat) : (PWR_STAT_CLAMP i).w = 1 := id rfl
@[simp] theorem PWR_STAT_DUMP_a : PWR_STAT_DUMP.a = 0x140 := id rfl
@[simp] theorem PWR_STAT_DUMP_lo : PWR_STAT_DUMP.lo = 10 := id rfl
@[simp] theorem PWR_STAT_DUMP_w : PWR_STAT_DUMP.w = 1 := id rfl
@[simp] theorem PWR_STAT_BRK_HOT_a : PWR_STAT_BRK_HOT.a = 0x140 := id rfl
@[simp] theorem PWR_STAT_BRK_HOT_lo : PWR_STAT_BRK_HOT.lo = 11 := id rfl
@[simp] theorem PWR_STAT_BRK_HOT_w : PWR_STAT_BRK_HOT.w = 1 := id rfl
@[simp] theorem PWR_STAT_LINK_REV_a : PWR_STAT_LINK_REV.a = 0x140 := id rfl
@[simp] theorem PWR_STAT_LINK_REV_lo : PWR_STAT_LINK_REV.lo = 12 := id rfl
@[simp] theorem PWR_STAT_LINK_REV_w : PWR_STAT_LINK_REV.w = 1 := id rfl
@[simp] theorem PWR_STAT_LINK_OK_a : PWR_STAT_LINK_OK.a = 0x140 := id rfl
@[simp] theorem PWR_STAT_LINK_OK_lo : PWR_STAT_LINK_OK.lo = 13 := id rfl
@[simp] theorem PWR_STAT_LINK_OK_w : PWR_STAT_LINK_OK.w = 1 := id rfl
@[simp] theorem PWR_STAT_SRC_VM_a : PWR_STAT_SRC_VM.a = 0x140 := id rfl
@[simp] theorem PWR_STAT_SRC_VM_lo : PWR_STAT_SRC_VM.lo = 14 := id rfl
@[simp] theorem PWR_STAT_SRC_VM_w : PWR_STAT_SRC_VM.w = 1 := id rfl
@[simp] theorem PWR_STAT_FL_ON_a : PWR_STAT_FL_ON.a = 0x140 := id rfl
@[simp] theorem PWR_STAT_FL_ON_lo : PWR_STAT_FL_ON.lo = 15 := id rfl
@[simp] theorem PWR_STAT_FL_ON_w : PWR_STAT_FL_ON.w = 1 := id rfl
@[simp] theorem PWR_STAT_V5_ON_a : PWR_STAT_V5_ON.a = 0x140 := id rfl
@[simp] theorem PWR_STAT_V5_ON_lo : PWR_STAT_V5_ON.lo = 16 := id rfl
@[simp] theorem PWR_STAT_V5_ON_w : PWR_STAT_V5_ON.w = 1 := id rfl
@[simp] theorem PWR_STAT_V5_FAULT_a : PWR_STAT_V5_FAULT.a = 0x140 := id rfl
@[simp] theorem PWR_STAT_V5_FAULT_lo : PWR_STAT_V5_FAULT.lo = 17 := id rfl
@[simp] theorem PWR_STAT_V5_FAULT_w : PWR_STAT_V5_FAULT.w = 1 := id rfl
@[simp] theorem PWR_STAT_VBAK_OK_a : PWR_STAT_VBAK_OK.a = 0x140 := id rfl
@[simp] theorem PWR_STAT_VBAK_OK_lo : PWR_STAT_VBAK_OK.lo = 18 := id rfl
@[simp] theorem PWR_STAT_VBAK_OK_w : PWR_STAT_VBAK_OK.w = 1 := id rfl
@[simp] theorem PWR_STAT_TEMP_WARN_a (i : Nat) : (PWR_STAT_TEMP_WARN i).a = 0x140 := id rfl
@[simp] theorem PWR_STAT_TEMP_WARN_lo (i : Nat) : (PWR_STAT_TEMP_WARN i).lo = 19 + i := id rfl
@[simp] theorem PWR_STAT_TEMP_WARN_w (i : Nat) : (PWR_STAT_TEMP_WARN i).w = 1 := id rfl
@[simp] theorem PWR_STAT_TEMP_TRIP_a (i : Nat) : (PWR_STAT_TEMP_TRIP i).a = 0x140 := id rfl
@[simp] theorem PWR_STAT_TEMP_TRIP_lo (i : Nat) : (PWR_STAT_TEMP_TRIP i).lo = 21 + i := id rfl
@[simp] theorem PWR_STAT_TEMP_TRIP_w (i : Nat) : (PWR_STAT_TEMP_TRIP i).w = 1 := id rfl
@[simp] theorem PWR_STAT_TEMP_CTRL_a : PWR_STAT_TEMP_CTRL.a = 0x140 := id rfl
@[simp] theorem PWR_STAT_TEMP_CTRL_lo : PWR_STAT_TEMP_CTRL.lo = 23 := id rfl
@[simp] theorem PWR_STAT_TEMP_CTRL_w : PWR_STAT_TEMP_CTRL.w = 1 := id rfl
@[simp] theorem PWR_STAT_GOV_ACTIVE_a : PWR_STAT_GOV_ACTIVE.a = 0x140 := id rfl
@[simp] theorem PWR_STAT_GOV_ACTIVE_lo : PWR_STAT_GOV_ACTIVE.lo = 24 := id rfl
@[simp] theorem PWR_STAT_GOV_ACTIVE_w : PWR_STAT_GOV_ACTIVE.w = 1 := id rfl
@[simp] theorem PWR_STAT_MOIST_WARN_a : PWR_STAT_MOIST_WARN.a = 0x140 := id rfl
@[simp] theorem PWR_STAT_MOIST_WARN_lo : PWR_STAT_MOIST_WARN.lo = 25 := id rfl
@[simp] theorem PWR_STAT_MOIST_WARN_w : PWR_STAT_MOIST_WARN.w = 1 := id rfl
@[simp] theorem PWR_STAT_MOIST_FAULT_a : PWR_STAT_MOIST_FAULT.a = 0x140 := id rfl
@[simp] theorem PWR_STAT_MOIST_FAULT_lo : PWR_STAT_MOIST_FAULT.lo = 26 := id rfl
@[simp] theorem PWR_STAT_MOIST_FAULT_w : PWR_STAT_MOIST_FAULT.w = 1 := id rfl
@[simp] theorem PWR_VM_CFG_DUMP_ON_a : PWR_VM_CFG_DUMP_ON.a = 0x141 := id rfl
@[simp] theorem PWR_VM_CFG_DUMP_ON_lo : PWR_VM_CFG_DUMP_ON.lo = 0 := id rfl
@[simp] theorem PWR_VM_CFG_DUMP_ON_w : PWR_VM_CFG_DUMP_ON.w = 16 := id rfl
@[simp] theorem PWR_VM_CFG_UV_WARN_a : PWR_VM_CFG_UV_WARN.a = 0x141 := id rfl
@[simp] theorem PWR_VM_CFG_UV_WARN_lo : PWR_VM_CFG_UV_WARN.lo = 16 := id rfl
@[simp] theorem PWR_VM_CFG_UV_WARN_w : PWR_VM_CFG_UV_WARN.w = 16 := id rfl
@[simp] theorem PWR_VM_AUX_OV_LIM_a : PWR_VM_AUX_OV_LIM.a = 0x142 := id rfl
@[simp] theorem PWR_VM_AUX_OV_LIM_lo : PWR_VM_AUX_OV_LIM.lo = 0 := id rfl
@[simp] theorem PWR_VM_AUX_OV_LIM_w : PWR_VM_AUX_OV_LIM.w = 16 := id rfl
@[simp] theorem PWR_VM_AUX_DUMP_HYST_a : PWR_VM_AUX_DUMP_HYST.a = 0x142 := id rfl
@[simp] theorem PWR_VM_AUX_DUMP_HYST_lo : PWR_VM_AUX_DUMP_HYST.lo = 16 := id rfl
@[simp] theorem PWR_VM_AUX_DUMP_HYST_w : PWR_VM_AUX_DUMP_HYST.w = 8 := id rfl
@[simp] theorem PWR_VM_AUX_BRK_MAXON_a : PWR_VM_AUX_BRK_MAXON.a = 0x142 := id rfl
@[simp] theorem PWR_VM_AUX_BRK_MAXON_lo : PWR_VM_AUX_BRK_MAXON.lo = 24 := id rfl
@[simp] theorem PWR_VM_AUX_BRK_MAXON_w : PWR_VM_AUX_BRK_MAXON.w = 8 := id rfl
@[simp] theorem PWR_VMS_VM0_a : PWR_VMS_VM0.a = 0x143 := id rfl
@[simp] theorem PWR_VMS_VM0_lo : PWR_VMS_VM0.lo = 0 := id rfl
@[simp] theorem PWR_VMS_VM0_w : PWR_VMS_VM0.w = 16 := id rfl
@[simp] theorem PWR_VMS_VM1_a : PWR_VMS_VM1.a = 0x143 := id rfl
@[simp] theorem PWR_VMS_VM1_lo : PWR_VMS_VM1.lo = 16 := id rfl
@[simp] theorem PWR_VMS_VM1_w : PWR_VMS_VM1.w = 16 := id rfl
@[simp] theorem PWR_PATH_CFG_FL_ON_LINK_a : PWR_PATH_CFG_FL_ON_LINK.a = 0x144 := id rfl
@[simp] theorem PWR_PATH_CFG_FL_ON_LINK_lo : PWR_PATH_CFG_FL_ON_LINK.lo = 0 := id rfl
@[simp] theorem PWR_PATH_CFG_FL_ON_LINK_w : PWR_PATH_CFG_FL_ON_LINK.w = 1 := id rfl
@[simp] theorem PWR_PATH_CFG_V5_EN_a : PWR_PATH_CFG_V5_EN.a = 0x144 := id rfl
@[simp] theorem PWR_PATH_CFG_V5_EN_lo : PWR_PATH_CFG_V5_EN.lo = 1 := id rfl
@[simp] theorem PWR_PATH_CFG_V5_EN_w : PWR_PATH_CFG_V5_EN.w = 1 := id rfl
@[simp] theorem PWR_PATH_CFG_V5_SAFE_a : PWR_PATH_CFG_V5_SAFE.a = 0x144 := id rfl
@[simp] theorem PWR_PATH_CFG_V5_SAFE_lo : PWR_PATH_CFG_V5_SAFE.lo = 2 := id rfl
@[simp] theorem PWR_PATH_CFG_V5_SAFE_w : PWR_PATH_CFG_V5_SAFE.w = 1 := id rfl
@[simp] theorem PWR_PATH_CFG_VBAK_CHG_a : PWR_PATH_CFG_VBAK_CHG.a = 0x144 := id rfl
@[simp] theorem PWR_PATH_CFG_VBAK_CHG_lo : PWR_PATH_CFG_VBAK_CHG.lo = 3 := id rfl
@[simp] theorem PWR_PATH_CFG_VBAK_CHG_w : PWR_PATH_CFG_VBAK_CHG.w = 1 := id rfl
@[simp] theorem PWR_COILFLT_OC_a : PWR_COILFLT_OC.a = 0x148 := id rfl
@[simp] theorem PWR_COILFLT_OC_lo : PWR_COILFLT_OC.lo = 0 := id rfl
@[simp] theorem PWR_COILFLT_OC_w : PWR_COILFLT_OC.w = 16 := id rfl
@[simp] theorem PWR_COILFLT_OPEN_a : PWR_COILFLT_OPEN.a = 0x148 := id rfl
@[simp] theorem PWR_COILFLT_OPEN_lo : PWR_COILFLT_OPEN.lo = 16 := id rfl
@[simp] theorem PWR_COILFLT_OPEN_w : PWR_COILFLT_OPEN.w = 16 := id rfl
@[simp] theorem PWR_COILFLT_CLR_CLR_OC_a : PWR_COILFLT_CLR_CLR_OC.a = 0x149 := id rfl
@[simp] theorem PWR_COILFLT_CLR_CLR_OC_lo : PWR_COILFLT_CLR_CLR_OC.lo = 0 := id rfl
@[simp] theorem PWR_COILFLT_CLR_CLR_OC_w : PWR_COILFLT_CLR_CLR_OC.w = 16 := id rfl
@[simp] theorem PWR_COILFLT_CLR_CLR_OPEN_a : PWR_COILFLT_CLR_CLR_OPEN.a = 0x149 := id rfl
@[simp] theorem PWR_COILFLT_CLR_CLR_OPEN_lo : PWR_COILFLT_CLR_CLR_OPEN.lo = 16 := id rfl
@[simp] theorem PWR_COILFLT_CLR_CLR_OPEN_w : PWR_COILFLT_CLR_CLR_OPEN.w = 16 := id rfl
@[simp] theorem PWR_OCKIND_KIND_a (i : Nat) : (PWR_OCKIND_KIND i).a = 0x14a := id rfl
@[simp] theorem PWR_OCKIND_KIND_lo (i : Nat) : (PWR_OCKIND_KIND i).lo = 2 * i := id rfl
@[simp] theorem PWR_OCKIND_KIND_w (i : Nat) : (PWR_OCKIND_KIND i).w = 2 := id rfl
@[simp] theorem PWR_GOV_CFG_BUDGET_a : PWR_GOV_CFG_BUDGET.a = 0x150 := id rfl
@[simp] theorem PWR_GOV_CFG_BUDGET_lo : PWR_GOV_CFG_BUDGET.lo = 0 := id rfl
@[simp] theorem PWR_GOV_CFG_BUDGET_w : PWR_GOV_CFG_BUDGET.w = 16 := id rfl
@[simp] theorem PWR_GOV_CFG_T_GOV_a : PWR_GOV_CFG_T_GOV.a = 0x150 := id rfl
@[simp] theorem PWR_GOV_CFG_T_GOV_lo : PWR_GOV_CFG_T_GOV.lo = 16 := id rfl
@[simp] theorem PWR_GOV_CFG_T_GOV_w : PWR_GOV_CFG_T_GOV.w = 8 := id rfl
@[simp] theorem PWR_GOV_CFG_TAU_a : PWR_GOV_CFG_TAU.a = 0x150 := id rfl
@[simp] theorem PWR_GOV_CFG_TAU_lo : PWR_GOV_CFG_TAU.lo = 24 := id rfl
@[simp] theorem PWR_GOV_CFG_TAU_w : PWR_GOV_CFG_TAU.w = 3 := id rfl
@[simp] theorem PWR_GOV_CFG_FLOOR_a : PWR_GOV_CFG_FLOOR.a = 0x150 := id rfl
@[simp] theorem PWR_GOV_CFG_FLOOR_lo : PWR_GOV_CFG_FLOOR.lo = 28 := id rfl
@[simp] theorem PWR_GOV_CFG_FLOOR_w : PWR_GOV_CFG_FLOOR.w = 4 := id rfl
@[simp] theorem PWR_GOV_STAT_P_EST_a : PWR_GOV_STAT_P_EST.a = 0x151 := id rfl
@[simp] theorem PWR_GOV_STAT_P_EST_lo : PWR_GOV_STAT_P_EST.lo = 0 := id rfl
@[simp] theorem PWR_GOV_STAT_P_EST_w : PWR_GOV_STAT_P_EST.w = 16 := id rfl
@[simp] theorem PWR_GOV_STAT_KP_a : PWR_GOV_STAT_KP.a = 0x151 := id rfl
@[simp] theorem PWR_GOV_STAT_KP_lo : PWR_GOV_STAT_KP.lo = 16 := id rfl
@[simp] theorem PWR_GOV_STAT_KP_w : PWR_GOV_STAT_KP.w = 9 := id rfl
@[simp] theorem PWR_GOV_TEMP_TMAX_S0_a : PWR_GOV_TEMP_TMAX_S0.a = 0x152 := id rfl
@[simp] theorem PWR_GOV_TEMP_TMAX_S0_lo : PWR_GOV_TEMP_TMAX_S0.lo = 0 := id rfl
@[simp] theorem PWR_GOV_TEMP_TMAX_S0_w : PWR_GOV_TEMP_TMAX_S0.w = 16 := id rfl
@[simp] theorem PWR_GOV_TEMP_TMAX_S1_a : PWR_GOV_TEMP_TMAX_S1.a = 0x152 := id rfl
@[simp] theorem PWR_GOV_TEMP_TMAX_S1_lo : PWR_GOV_TEMP_TMAX_S1.lo = 16 := id rfl
@[simp] theorem PWR_GOV_TEMP_TMAX_S1_w : PWR_GOV_TEMP_TMAX_S1.w = 16 := id rfl
@[simp] theorem PWR_TEMP_CFG_T_WARN_a : PWR_TEMP_CFG_T_WARN.a = 0x153 := id rfl
@[simp] theorem PWR_TEMP_CFG_T_WARN_lo : PWR_TEMP_CFG_T_WARN.lo = 0 := id rfl
@[simp] theorem PWR_TEMP_CFG_T_WARN_w : PWR_TEMP_CFG_T_WARN.w = 8 := id rfl
@[simp] theorem PWR_TEMP_CFG_T_TRIP_a : PWR_TEMP_CFG_T_TRIP.a = 0x153 := id rfl
@[simp] theorem PWR_TEMP_CFG_T_TRIP_lo : PWR_TEMP_CFG_T_TRIP.lo = 8 := id rfl
@[simp] theorem PWR_TEMP_CFG_T_TRIP_w : PWR_TEMP_CFG_T_TRIP.w = 8 := id rfl
@[simp] theorem PWR_TEMP_CFG_T_REL_a : PWR_TEMP_CFG_T_REL.a = 0x153 := id rfl
@[simp] theorem PWR_TEMP_CFG_T_REL_lo : PWR_TEMP_CFG_T_REL.lo = 16 := id rfl
@[simp] theorem PWR_TEMP_CFG_T_REL_w : PWR_TEMP_CFG_T_REL.w = 8 := id rfl
@[simp] theorem PWR_GOV_CEIL_CEIL_a (n : Nat) : (PWR_GOV_CEIL_CEIL n).a = 0x158 + n := id rfl
@[simp] theorem PWR_GOV_CEIL_CEIL_lo (n : Nat) : (PWR_GOV_CEIL_CEIL n).lo = 0 := id rfl
@[simp] theorem PWR_GOV_CEIL_CEIL_w (n : Nat) : (PWR_GOV_CEIL_CEIL n).w = 12 := id rfl
@[simp] theorem PWR_GOV_CEIL_BOOST_LOCK_a (n : Nat) : (PWR_GOV_CEIL_BOOST_LOCK n).a = 0x158 + n := id rfl
@[simp] theorem PWR_GOV_CEIL_BOOST_LOCK_lo (n : Nat) : (PWR_GOV_CEIL_BOOST_LOCK n).lo = 12 := id rfl
@[simp] theorem PWR_GOV_CEIL_BOOST_LOCK_w (n : Nat) : (PWR_GOV_CEIL_BOOST_LOCK n).w = 1 := id rfl
@[simp] theorem PWR_GOV_CEIL_LIMITED_a (n : Nat) : (PWR_GOV_CEIL_LIMITED n).a = 0x158 + n := id rfl
@[simp] theorem PWR_GOV_CEIL_LIMITED_lo (n : Nat) : (PWR_GOV_CEIL_LIMITED n).lo = 13 := id rfl
@[simp] theorem PWR_GOV_CEIL_LIMITED_w (n : Nat) : (PWR_GOV_CEIL_LIMITED n).w = 1 := id rfl
@[simp] theorem PWR_GOV_CEIL_CEIL_MA_a (n : Nat) : (PWR_GOV_CEIL_CEIL_MA n).a = 0x158 + n := id rfl
@[simp] theorem PWR_GOV_CEIL_CEIL_MA_lo (n : Nat) : (PWR_GOV_CEIL_CEIL_MA n).lo = 16 := id rfl
@[simp] theorem PWR_GOV_CEIL_CEIL_MA_w (n : Nat) : (PWR_GOV_CEIL_CEIL_MA n).w = 16 := id rfl
@[simp] theorem PWR_AXCFG_GOV_PRIO_a (n : Nat) : (PWR_AXCFG_GOV_PRIO n).a = 0x160 + n := id rfl
@[simp] theorem PWR_AXCFG_GOV_PRIO_lo (n : Nat) : (PWR_AXCFG_GOV_PRIO n).lo = 0 := id rfl
@[simp] theorem PWR_AXCFG_GOV_PRIO_w (n : Nat) : (PWR_AXCFG_GOV_PRIO n).w = 1 := id rfl
@[simp] theorem PWR_AXCFG_MOIST_ACT_a (n : Nat) : (PWR_AXCFG_MOIST_ACT n).a = 0x160 + n := id rfl
@[simp] theorem PWR_AXCFG_MOIST_ACT_lo (n : Nat) : (PWR_AXCFG_MOIST_ACT n).lo = 1 := id rfl
@[simp] theorem PWR_AXCFG_MOIST_ACT_w (n : Nat) : (PWR_AXCFG_MOIST_ACT n).w = 1 := id rfl
@[simp] theorem PWR_AXCFG_OPEN_TICKS_a (n : Nat) : (PWR_AXCFG_OPEN_TICKS n).a = 0x160 + n := id rfl
@[simp] theorem PWR_AXCFG_OPEN_TICKS_lo (n : Nat) : (PWR_AXCFG_OPEN_TICKS n).lo = 8 := id rfl
@[simp] theorem PWR_AXCFG_OPEN_TICKS_w (n : Nat) : (PWR_AXCFG_OPEN_TICKS n).w = 4 := id rfl
@[simp] theorem PWR_FLTCAUSE_BITS_a (n : Nat) : (PWR_FLTCAUSE_BITS n).a = 0x168 + n := id rfl
@[simp] theorem PWR_FLTCAUSE_BITS_lo (n : Nat) : (PWR_FLTCAUSE_BITS n).lo = 0 := id rfl
@[simp] theorem PWR_FLTCAUSE_BITS_w (n : Nat) : (PWR_FLTCAUSE_BITS n).w = 10 := id rfl
@[simp] theorem PWR_MOIST_CFG_WARN_KOHM_a : PWR_MOIST_CFG_WARN_KOHM.a = 0x170 := id rfl
@[simp] theorem PWR_MOIST_CFG_WARN_KOHM_lo : PWR_MOIST_CFG_WARN_KOHM.lo = 0 := id rfl
@[simp] theorem PWR_MOIST_CFG_WARN_KOHM_w : PWR_MOIST_CFG_WARN_KOHM.w = 16 := id rfl
@[simp] theorem PWR_MOIST_CFG_FAULT_KOHM_a : PWR_MOIST_CFG_FAULT_KOHM.a = 0x170 := id rfl
@[simp] theorem PWR_MOIST_CFG_FAULT_KOHM_lo : PWR_MOIST_CFG_FAULT_KOHM.lo = 16 := id rfl
@[simp] theorem PWR_MOIST_CFG_FAULT_KOHM_w : PWR_MOIST_CFG_FAULT_KOHM.w = 16 := id rfl
@[simp] theorem PWR_MOIST_RPU_IDD_RPU_a : PWR_MOIST_RPU_IDD_RPU.a = 0x171 := id rfl
@[simp] theorem PWR_MOIST_RPU_IDD_RPU_lo : PWR_MOIST_RPU_IDD_RPU.lo = 0 := id rfl
@[simp] theorem PWR_MOIST_RPU_IDD_RPU_w : PWR_MOIST_RPU_IDD_RPU.w = 16 := id rfl
@[simp] theorem PWR_MOIST_STAT_FB_WARN_a : PWR_MOIST_STAT_FB_WARN.a = 0x172 := id rfl
@[simp] theorem PWR_MOIST_STAT_FB_WARN_lo : PWR_MOIST_STAT_FB_WARN.lo = 0 := id rfl
@[simp] theorem PWR_MOIST_STAT_FB_WARN_w : PWR_MOIST_STAT_FB_WARN.w = 8 := id rfl
@[simp] theorem PWR_MOIST_STAT_FB_FAULT_a : PWR_MOIST_STAT_FB_FAULT.a = 0x172 := id rfl
@[simp] theorem PWR_MOIST_STAT_FB_FAULT_lo : PWR_MOIST_STAT_FB_FAULT.lo = 8 := id rfl
@[simp] theorem PWR_MOIST_STAT_FB_FAULT_w : PWR_MOIST_STAT_FB_FAULT.w = 8 := id rfl
@[simp] theorem PWR_MOIST_STAT_IDD_WARN_a : PWR_MOIST_STAT_IDD_WARN.a = 0x172 := id rfl
@[simp] theorem PWR_MOIST_STAT_IDD_WARN_lo : PWR_MOIST_STAT_IDD_WARN.lo = 16 := id rfl
@[simp] theorem PWR_MOIST_STAT_IDD_WARN_w : PWR_MOIST_STAT_IDD_WARN.w = 8 := id rfl
@[simp] theorem PWR_MOIST_STAT_IDD_FAULT_a : PWR_MOIST_STAT_IDD_FAULT.a = 0x172 := id rfl
@[simp] theorem PWR_MOIST_STAT_IDD_FAULT_lo : PWR_MOIST_STAT_IDD_FAULT.lo = 24 := id rfl
@[simp] theorem PWR_MOIST_STAT_IDD_FAULT_w : PWR_MOIST_STAT_IDD_FAULT.w = 8 := id rfl
@[simp] theorem DEV_STATE_STATE_a : DEV_STATE_STATE.a = 0x10 := id rfl
@[simp] theorem DEV_STATE_STATE_lo : DEV_STATE_STATE.lo = 0 := id rfl
@[simp] theorem DEV_STATE_STATE_w : DEV_STATE_STATE.w = 3 := id rfl
@[simp] theorem DEV_STATE_WAIT_FL_a : DEV_STATE_WAIT_FL.a = 0x10 := id rfl
@[simp] theorem DEV_STATE_WAIT_FL_lo : DEV_STATE_WAIT_FL.lo = 3 := id rfl
@[simp] theorem DEV_STATE_WAIT_FL_w : DEV_STATE_WAIT_FL.w = 1 := id rfl
@[simp] theorem DEV_STATE_SAFE_CAUSE_a : DEV_STATE_SAFE_CAUSE.a = 0x10 := id rfl
@[simp] theorem DEV_STATE_SAFE_CAUSE_lo : DEV_STATE_SAFE_CAUSE.lo = 8 := id rfl
@[simp] theorem DEV_STATE_SAFE_CAUSE_w : DEV_STATE_SAFE_CAUSE.w = 7 := id rfl
@[simp] theorem DEV_STATE_EXIT_REFUSED_a : DEV_STATE_EXIT_REFUSED.a = 0x10 := id rfl
@[simp] theorem DEV_STATE_EXIT_REFUSED_lo : DEV_STATE_EXIT_REFUSED.lo = 16 := id rfl
@[simp] theorem DEV_STATE_EXIT_REFUSED_w : DEV_STATE_EXIT_REFUSED.w = 4 := id rfl
@[simp] theorem DEV_RSTCAUSE_CAUSE_a : DEV_RSTCAUSE_CAUSE.a = 0x11 := id rfl
@[simp] theorem DEV_RSTCAUSE_CAUSE_lo : DEV_RSTCAUSE_CAUSE.lo = 0 := id rfl
@[simp] theorem DEV_RSTCAUSE_CAUSE_w : DEV_RSTCAUSE_CAUSE.w = 2 := id rfl
@[simp] theorem DEV_RSTCAUSE_PROMOTED_a : DEV_RSTCAUSE_PROMOTED.a = 0x11 := id rfl
@[simp] theorem DEV_RSTCAUSE_PROMOTED_lo : DEV_RSTCAUSE_PROMOTED.lo = 2 := id rfl
@[simp] theorem DEV_RSTCAUSE_PROMOTED_w : DEV_RSTCAUSE_PROMOTED.w = 1 := id rfl
@[simp] theorem DEV_RSTCAUSE_HELDOFF_a : DEV_RSTCAUSE_HELDOFF.a = 0x11 := id rfl
@[simp] theorem DEV_RSTCAUSE_HELDOFF_lo : DEV_RSTCAUSE_HELDOFF.lo = 3 := id rfl
@[simp] theorem DEV_RSTCAUSE_HELDOFF_w : DEV_RSTCAUSE_HELDOFF.w = 1 := id rfl
@[simp] theorem DEV_RSTCAUSE_LOWTIME_a : DEV_RSTCAUSE_LOWTIME.a = 0x11 := id rfl
@[simp] theorem DEV_RSTCAUSE_LOWTIME_lo : DEV_RSTCAUSE_LOWTIME.lo = 4 := id rfl
@[simp] theorem DEV_RSTCAUSE_LOWTIME_w : DEV_RSTCAUSE_LOWTIME.w = 12 := id rfl
@[simp] theorem DEV_RSTCAUSE_RSTCNT_a : DEV_RSTCAUSE_RSTCNT.a = 0x11 := id rfl
@[simp] theorem DEV_RSTCAUSE_RSTCNT_lo : DEV_RSTCAUSE_RSTCNT.lo = 16 := id rfl
@[simp] theorem DEV_RSTCAUSE_RSTCNT_w : DEV_RSTCAUSE_RSTCNT.w = 8 := id rfl
@[simp] theorem DEV_BOOTSTAT_FAILCNT_a : DEV_BOOTSTAT_FAILCNT.a = 0x12 := id rfl
@[simp] theorem DEV_BOOTSTAT_FAILCNT_lo : DEV_BOOTSTAT_FAILCNT.lo = 0 := id rfl
@[simp] theorem DEV_BOOTSTAT_FAILCNT_w : DEV_BOOTSTAT_FAILCNT.w = 2 := id rfl
@[simp] theorem DEV_BOOTSTAT_FW_SLOT_a : DEV_BOOTSTAT_FW_SLOT.a = 0x12 := id rfl
@[simp] theorem DEV_BOOTSTAT_FW_SLOT_lo : DEV_BOOTSTAT_FW_SLOT.lo = 2 := id rfl
@[simp] theorem DEV_BOOTSTAT_FW_SLOT_w : DEV_BOOTSTAT_FW_SLOT.w = 1 := id rfl
@[simp] theorem DEV_BOOTSTAT_IMG_SLOT_a : DEV_BOOTSTAT_IMG_SLOT.a = 0x12 := id rfl
@[simp] theorem DEV_BOOTSTAT_IMG_SLOT_lo : DEV_BOOTSTAT_IMG_SLOT.lo = 3 := id rfl
@[simp] theorem DEV_BOOTSTAT_IMG_SLOT_w : DEV_BOOTSTAT_IMG_SLOT.w = 1 := id rfl
@[simp] theorem DEV_BOOTSTAT_OPT_DEFAULT_a : DEV_BOOTSTAT_OPT_DEFAULT.a = 0x12 := id rfl
@[simp] theorem DEV_BOOTSTAT_OPT_DEFAULT_lo : DEV_BOOTSTAT_OPT_DEFAULT.lo = 4 := id rfl
@[simp] theorem DEV_BOOTSTAT_OPT_DEFAULT_w : DEV_BOOTSTAT_OPT_DEFAULT.w = 1 := id rfl
@[simp] theorem DEV_BOOTSTAT_OPT_CORR_a : DEV_BOOTSTAT_OPT_CORR.a = 0x12 := id rfl
@[simp] theorem DEV_BOOTSTAT_OPT_CORR_lo : DEV_BOOTSTAT_OPT_CORR.lo = 5 := id rfl
@[simp] theorem DEV_BOOTSTAT_OPT_CORR_w : DEV_BOOTSTAT_OPT_CORR.w = 3 := id rfl
@[simp] theorem DEV_BOOTSTAT_NO_IMAGE_a : DEV_BOOTSTAT_NO_IMAGE.a = 0x12 := id rfl
@[simp] theorem DEV_BOOTSTAT_NO_IMAGE_lo : DEV_BOOTSTAT_NO_IMAGE.lo = 8 := id rfl
@[simp] theorem DEV_BOOTSTAT_NO_IMAGE_w : DEV_BOOTSTAT_NO_IMAGE.w = 1 := id rfl
@[simp] theorem DEV_BOOTSTAT_CLK_FAIL_a : DEV_BOOTSTAT_CLK_FAIL.a = 0x12 := id rfl
@[simp] theorem DEV_BOOTSTAT_CLK_FAIL_lo : DEV_BOOTSTAT_CLK_FAIL.lo = 9 := id rfl
@[simp] theorem DEV_BOOTSTAT_CLK_FAIL_w : DEV_BOOTSTAT_CLK_FAIL.w = 1 := id rfl
@[simp] theorem DEV_BOOTSTAT_REC_CAUSE_a : DEV_BOOTSTAT_REC_CAUSE.a = 0x12 := id rfl
@[simp] theorem DEV_BOOTSTAT_REC_CAUSE_lo : DEV_BOOTSTAT_REC_CAUSE.lo = 10 := id rfl
@[simp] theorem DEV_BOOTSTAT_REC_CAUSE_w : DEV_BOOTSTAT_REC_CAUSE.w = 3 := id rfl
@[simp] theorem DEV_BOOTSTAT_BOOT_MS_a : DEV_BOOTSTAT_BOOT_MS.a = 0x12 := id rfl
@[simp] theorem DEV_BOOTSTAT_BOOT_MS_lo : DEV_BOOTSTAT_BOOT_MS.lo = 16 := id rfl
@[simp] theorem DEV_BOOTSTAT_BOOT_MS_w : DEV_BOOTSTAT_BOOT_MS.w = 16 := id rfl
@[simp] theorem DEV_BOOTCTL_RESTART_a : DEV_BOOTCTL_RESTART.a = 0x13 := id rfl
@[simp] theorem DEV_BOOTCTL_RESTART_lo : DEV_BOOTCTL_RESTART.lo = 0 := id rfl
@[simp] theorem DEV_BOOTCTL_RESTART_w : DEV_BOOTCTL_RESTART.w = 1 := id rfl
@[simp] theorem DEV_BOOTCTL_CLR_FAILCNT_a : DEV_BOOTCTL_CLR_FAILCNT.a = 0x13 := id rfl
@[simp] theorem DEV_BOOTCTL_CLR_FAILCNT_lo : DEV_BOOTCTL_CLR_FAILCNT.lo = 1 := id rfl
@[simp] theorem DEV_BOOTCTL_CLR_FAILCNT_w : DEV_BOOTCTL_CLR_FAILCNT.w = 1 := id rfl
@[simp] theorem DEV_BOOTCTL_SAFE_EXIT_a : DEV_BOOTCTL_SAFE_EXIT.a = 0x13 := id rfl
@[simp] theorem DEV_BOOTCTL_SAFE_EXIT_lo : DEV_BOOTCTL_SAFE_EXIT.lo = 2 := id rfl
@[simp] theorem DEV_BOOTCTL_SAFE_EXIT_w : DEV_BOOTCTL_SAFE_EXIT.w = 1 := id rfl
@[simp] theorem DEV_WDOG_CFG_HOST_TO_a : DEV_WDOG_CFG_HOST_TO.a = 0x14 := id rfl
@[simp] theorem DEV_WDOG_CFG_HOST_TO_lo : DEV_WDOG_CFG_HOST_TO.lo = 0 := id rfl
@[simp] theorem DEV_WDOG_CFG_HOST_TO_w : DEV_WDOG_CFG_HOST_TO.w = 12 := id rfl
@[simp] theorem DEV_WDOG_CFG_HOST_ACT_a : DEV_WDOG_CFG_HOST_ACT.a = 0x14 := id rfl
@[simp] theorem DEV_WDOG_CFG_HOST_ACT_lo : DEV_WDOG_CFG_HOST_ACT.lo = 12 := id rfl
@[simp] theorem DEV_WDOG_CFG_HOST_ACT_w : DEV_WDOG_CFG_HOST_ACT.w = 1 := id rfl
@[simp] theorem DEV_WDOG_CFG_EXPIRED_a : DEV_WDOG_CFG_EXPIRED.a = 0x14 := id rfl
@[simp] theorem DEV_WDOG_CFG_EXPIRED_lo : DEV_WDOG_CFG_EXPIRED.lo = 13 := id rfl
@[simp] theorem DEV_WDOG_CFG_EXPIRED_w : DEV_WDOG_CFG_EXPIRED.w = 1 := id rfl
@[simp] theorem DEV_WDOG_CFG_AXMASK_a : DEV_WDOG_CFG_AXMASK.a = 0x14 := id rfl
@[simp] theorem DEV_WDOG_CFG_AXMASK_lo : DEV_WDOG_CFG_AXMASK.lo = 16 := id rfl
@[simp] theorem DEV_WDOG_CFG_AXMASK_w : DEV_WDOG_CFG_AXMASK.w = 8 := id rfl
@[simp] theorem DEV_BLKRST_AXIS_a : DEV_BLKRST_AXIS.a = 0x15 := id rfl
@[simp] theorem DEV_BLKRST_AXIS_lo : DEV_BLKRST_AXIS.lo = 0 := id rfl
@[simp] theorem DEV_BLKRST_AXIS_w : DEV_BLKRST_AXIS.w = 8 := id rfl
@[simp] theorem DEV_BLKRST_RING_a : DEV_BLKRST_RING.a = 0x15 := id rfl
@[simp] theorem DEV_BLKRST_RING_lo : DEV_BLKRST_RING.lo = 8 := id rfl
@[simp] theorem DEV_BLKRST_RING_w : DEV_BLKRST_RING.w = 16 := id rfl
@[simp] theorem DEV_BLKRST_CFG_QTO_a : DEV_BLKRST_CFG_QTO.a = 0x16 := id rfl
@[simp] theorem DEV_BLKRST_CFG_QTO_lo : DEV_BLKRST_CFG_QTO.lo = 0 := id rfl
@[simp] theorem DEV_BLKRST_CFG_QTO_w : DEV_BLKRST_CFG_QTO.w = 10 := id rfl
@[simp] theorem DEV_BLKRST_STAT_BUSY_a : DEV_BLKRST_STAT_BUSY.a = 0x17 := id rfl
@[simp] theorem DEV_BLKRST_STAT_BUSY_lo : DEV_BLKRST_STAT_BUSY.lo = 0 := id rfl
@[simp] theorem DEV_BLKRST_STAT_BUSY_w : DEV_BLKRST_STAT_BUSY.w = 8 := id rfl
@[simp] theorem DEV_BLKRST_STAT_FORCED_a : DEV_BLKRST_STAT_FORCED.a = 0x17 := id rfl
@[simp] theorem DEV_BLKRST_STAT_FORCED_lo : DEV_BLKRST_STAT_FORCED.lo = 8 := id rfl
@[simp] theorem DEV_BLKRST_STAT_FORCED_w : DEV_BLKRST_STAT_FORCED.w = 8 := id rfl
@[simp] theorem DEV_BLKRST_STAT_RING_REF_a : DEV_BLKRST_STAT_RING_REF.a = 0x17 := id rfl
@[simp] theorem DEV_BLKRST_STAT_RING_REF_lo : DEV_BLKRST_STAT_RING_REF.lo = 16 := id rfl
@[simp] theorem DEV_BLKRST_STAT_RING_REF_w : DEV_BLKRST_STAT_RING_REF.w = 16 := id rfl
@[simp] theorem DEV_ID_PART_a : DEV_ID_PART.a = 0x0 := id rfl
@[simp] theorem DEV_ID_PART_lo : DEV_ID_PART.lo = 0 := id rfl
@[simp] theorem DEV_ID_PART_w : DEV_ID_PART.w = 16 := id rfl
@[simp] theorem DEV_ID_FAMILY_a : DEV_ID_FAMILY.a = 0x0 := id rfl
@[simp] theorem DEV_ID_FAMILY_lo : DEV_ID_FAMILY.lo = 16 := id rfl
@[simp] theorem DEV_ID_FAMILY_w : DEV_ID_FAMILY.w = 8 := id rfl
@[simp] theorem DEV_REV_REV_a : DEV_REV_REV.a = 0x1 := id rfl
@[simp] theorem DEV_REV_REV_lo : DEV_REV_REV.lo = 0 := id rfl
@[simp] theorem DEV_REV_REV_w : DEV_REV_REV.w = 4 := id rfl
@[simp] theorem DEV_REV_GRADE_a : DEV_REV_GRADE.a = 0x1 := id rfl
@[simp] theorem DEV_REV_GRADE_lo : DEV_REV_GRADE.lo = 4 := id rfl
@[simp] theorem DEV_REV_GRADE_w : DEV_REV_GRADE.w = 1 := id rfl
@[simp] theorem DEV_SERIAL_SERIAL_a : DEV_SERIAL_SERIAL.a = 0x2 := id rfl
@[simp] theorem DEV_SERIAL_SERIAL_lo : DEV_SERIAL_SERIAL.lo = 0 := id rfl
@[simp] theorem DEV_SERIAL_SERIAL_w : DEV_SERIAL_SERIAL.w = 32 := id rfl
@[simp] theorem DEV_FWVER_PATCH_a : DEV_FWVER_PATCH.a = 0x3 := id rfl
@[simp] theorem DEV_FWVER_PATCH_lo : DEV_FWVER_PATCH.lo = 0 := id rfl
@[simp] theorem DEV_FWVER_PATCH_w : DEV_FWVER_PATCH.w = 8 := id rfl
@[simp] theorem DEV_FWVER_MINOR_a : DEV_FWVER_MINOR.a = 0x3 := id rfl
@[simp] theorem DEV_FWVER_MINOR_lo : DEV_FWVER_MINOR.lo = 8 := id rfl
@[simp] theorem DEV_FWVER_MINOR_w : DEV_FWVER_MINOR.w = 8 := id rfl
@[simp] theorem DEV_FWVER_MAJOR_a : DEV_FWVER_MAJOR.a = 0x3 := id rfl
@[simp] theorem DEV_FWVER_MAJOR_lo : DEV_FWVER_MAJOR.lo = 16 := id rfl
@[simp] theorem DEV_FWVER_MAJOR_w : DEV_FWVER_MAJOR.w = 8 := id rfl
@[simp] theorem DEV_IMGVER_IMGVER_a : DEV_IMGVER_IMGVER.a = 0x4 := id rfl
@[simp] theorem DEV_IMGVER_IMGVER_lo : DEV_IMGVER_IMGVER.lo = 0 := id rfl
@[simp] theorem DEV_IMGVER_IMGVER_w : DEV_IMGVER_IMGVER.w = 32 := id rfl
@[simp] theorem CLK_STAT_PLL_LOCK_a : CLK_STAT_PLL_LOCK.a = 0x1c0 := id rfl
@[simp] theorem CLK_STAT_PLL_LOCK_lo : CLK_STAT_PLL_LOCK.lo = 0 := id rfl
@[simp] theorem CLK_STAT_PLL_LOCK_w : CLK_STAT_PLL_LOCK.w = 1 := id rfl
@[simp] theorem CLK_STAT_XTAL_OK_a : CLK_STAT_XTAL_OK.a = 0x1c0 := id rfl
@[simp] theorem CLK_STAT_XTAL_OK_lo : CLK_STAT_XTAL_OK.lo = 1 := id rfl
@[simp] theorem CLK_STAT_XTAL_OK_w : CLK_STAT_XTAL_OK.w = 1 := id rfl
@[simp] theorem CLK_STAT_RC_ONLY_a : CLK_STAT_RC_ONLY.a = 0x1c0 := id rfl
@[simp] theorem CLK_STAT_RC_ONLY_lo : CLK_STAT_RC_ONLY.lo = 2 := id rfl
@[simp] theorem CLK_STAT_RC_ONLY_w : CLK_STAT_RC_ONLY.w = 1 := id rfl
@[simp] theorem DEV_UNLOCK_KEY_a : DEV_UNLOCK_KEY.a = 0x20 := id rfl
@[simp] theorem DEV_UNLOCK_KEY_lo : DEV_UNLOCK_KEY.lo = 0 := id rfl
@[simp] theorem DEV_UNLOCK_KEY_w : DEV_UNLOCK_KEY.w = 32 := id rfl
@[simp] theorem DEV_UPDATE_AXIS_a : DEV_UPDATE_AXIS.a = 0x21 := id rfl
@[simp] theorem DEV_UPDATE_AXIS_lo : DEV_UPDATE_AXIS.lo = 0 := id rfl
@[simp] theorem DEV_UPDATE_AXIS_w : DEV_UPDATE_AXIS.w = 8 := id rfl
@[simp] theorem DEV_UPDATE_STATION_a : DEV_UPDATE_STATION.a = 0x21 := id rfl
@[simp] theorem DEV_UPDATE_STATION_lo : DEV_UPDATE_STATION.lo = 8 := id rfl
@[simp] theorem DEV_UPDATE_STATION_w : DEV_UPDATE_STATION.w = 2 := id rfl
@[simp] theorem DEV_UPDATE_GLOBAL_a : DEV_UPDATE_GLOBAL.a = 0x21 := id rfl
@[simp] theorem DEV_UPDATE_GLOBAL_lo : DEV_UPDATE_GLOBAL.lo = 10 := id rfl
@[simp] theorem DEV_UPDATE_GLOBAL_w : DEV_UPDATE_GLOBAL.w = 1 := id rfl
@[simp] theorem DEV_UPDATE_STAT_AX_PEND_a : DEV_UPDATE_STAT_AX_PEND.a = 0x22 := id rfl
@[simp] theorem DEV_UPDATE_STAT_AX_PEND_lo : DEV_UPDATE_STAT_AX_PEND.lo = 0 := id rfl
@[simp] theorem DEV_UPDATE_STAT_AX_PEND_w : DEV_UPDATE_STAT_AX_PEND.w = 8 := id rfl
@[simp] theorem DEV_UPDATE_STAT_ST_PEND_a : DEV_UPDATE_STAT_ST_PEND.a = 0x22 := id rfl
@[simp] theorem DEV_UPDATE_STAT_ST_PEND_lo : DEV_UPDATE_STAT_ST_PEND.lo = 8 := id rfl
@[simp] theorem DEV_UPDATE_STAT_ST_PEND_w : DEV_UPDATE_STAT_ST_PEND.w = 2 := id rfl
@[simp] theorem DEV_UPDATE_STAT_GL_PEND_a : DEV_UPDATE_STAT_GL_PEND.a = 0x22 := id rfl
@[simp] theorem DEV_UPDATE_STAT_GL_PEND_lo : DEV_UPDATE_STAT_GL_PEND.lo = 10 := id rfl
@[simp] theorem DEV_UPDATE_STAT_GL_PEND_w : DEV_UPDATE_STAT_GL_PEND.w = 1 := id rfl
@[simp] theorem DEV_UPDATE_STAT_STROBES_a : DEV_UPDATE_STAT_STROBES.a = 0x22 := id rfl
@[simp] theorem DEV_UPDATE_STAT_STROBES_lo : DEV_UPDATE_STAT_STROBES.lo = 16 := id rfl
@[simp] theorem DEV_UPDATE_STAT_STROBES_w : DEV_UPDATE_STAT_STROBES.w = 8 := id rfl
@[simp] theorem DEV_ACCSTAT_KEY_REF_a : DEV_ACCSTAT_KEY_REF.a = 0x23 := id rfl
@[simp] theorem DEV_ACCSTAT_KEY_REF_lo : DEV_ACCSTAT_KEY_REF.lo = 0 := id rfl
@[simp] theorem DEV_ACCSTAT_KEY_REF_w : DEV_ACCSTAT_KEY_REF.w = 8 := id rfl
@[simp] theorem DEV_ACCSTAT_PASTEND_a : DEV_ACCSTAT_PASTEND.a = 0x23 := id rfl
@[simp] theorem DEV_ACCSTAT_PASTEND_lo : DEV_ACCSTAT_PASTEND.lo = 8 := id rfl
@[simp] theorem DEV_ACCSTAT_PASTEND_w : DEV_ACCSTAT_PASTEND.w = 8 := id rfl
@[simp] theorem DEV_ACCSTAT_IND_OVF_a : DEV_ACCSTAT_IND_OVF.a = 0x23 := id rfl
@[simp] theorem DEV_ACCSTAT_IND_OVF_lo : DEV_ACCSTAT_IND_OVF.lo = 16 := id rfl
@[simp] theorem DEV_ACCSTAT_IND_OVF_w : DEV_ACCSTAT_IND_OVF.w = 8 := id rfl
@[simp] theorem DEV_ACCSTAT_ARMED_SPI_a : DEV_ACCSTAT_ARMED_SPI.a = 0x23 := id rfl
@[simp] theorem DEV_ACCSTAT_ARMED_SPI_lo : DEV_ACCSTAT_ARMED_SPI.lo = 24 := id rfl
@[simp] theorem DEV_ACCSTAT_ARMED_SPI_w : DEV_ACCSTAT_ARMED_SPI.w = 1 := id rfl
@[simp] theorem DEV_ACCSTAT_ARMED_LNK_a : DEV_ACCSTAT_ARMED_LNK.a = 0x23 := id rfl
@[simp] theorem DEV_ACCSTAT_ARMED_LNK_lo : DEV_ACCSTAT_ARMED_LNK.lo = 25 := id rfl
@[simp] theorem DEV_ACCSTAT_ARMED_LNK_w : DEV_ACCSTAT_ARMED_LNK.w = 1 := id rfl
@[simp] theorem DEV_ACCSTAT_CLR_a : DEV_ACCSTAT_CLR.a = 0x23 := id rfl
@[simp] theorem DEV_ACCSTAT_CLR_lo : DEV_ACCSTAT_CLR.lo = 31 := id rfl
@[simp] theorem DEV_ACCSTAT_CLR_w : DEV_ACCSTAT_CLR.w = 1 := id rfl
@[simp] theorem DEV_IND_ADDR_ADDR_a : DEV_IND_ADDR_ADDR.a = 0x24 := id rfl
@[simp] theorem DEV_IND_ADDR_ADDR_lo : DEV_IND_ADDR_ADDR.lo = 0 := id rfl
@[simp] theorem DEV_IND_ADDR_ADDR_w : DEV_IND_ADDR_ADDR.w = 24 := id rfl
@[simp] theorem DEV_IND_ADDR_INC_a : DEV_IND_ADDR_INC.a = 0x24 := id rfl
@[simp] theorem DEV_IND_ADDR_INC_lo : DEV_IND_ADDR_INC.lo = 24 := id rfl
@[simp] theorem DEV_IND_ADDR_INC_w : DEV_IND_ADDR_INC.w = 1 := id rfl
@[simp] theorem DEV_IND_ADDR_PAST_END_a : DEV_IND_ADDR_PAST_END.a = 0x24 := id rfl
@[simp] theorem DEV_IND_ADDR_PAST_END_lo : DEV_IND_ADDR_PAST_END.lo = 25 := id rfl
@[simp] theorem DEV_IND_ADDR_PAST_END_w : DEV_IND_ADDR_PAST_END.w = 1 := id rfl
@[simp] theorem DEV_IND_DATA_DATA_a : DEV_IND_DATA_DATA.a = 0x25 := id rfl
@[simp] theorem DEV_IND_DATA_DATA_lo : DEV_IND_DATA_DATA.lo = 0 := id rfl
@[simp] theorem DEV_IND_DATA_DATA_w : DEV_IND_DATA_DATA.w = 32 := id rfl
@[simp] theorem DEV_IND_STAT_RBUSY_a : DEV_IND_STAT_RBUSY.a = 0x26 := id rfl
@[simp] theorem DEV_IND_STAT_RBUSY_lo : DEV_IND_STAT_RBUSY.lo = 0 := id rfl
@[simp] theorem DEV_IND_STAT_RBUSY_w : DEV_IND_STAT_RBUSY.w = 1 := id rfl
@[simp] theorem DEV_IND_STAT_WBUSY_a : DEV_IND_STAT_WBUSY.a = 0x26 := id rfl
@[simp] theorem DEV_IND_STAT_WBUSY_lo : DEV_IND_STAT_WBUSY.lo = 1 := id rfl
@[simp] theorem DEV_IND_STAT_WBUSY_w : DEV_IND_STAT_WBUSY.w = 1 := id rfl
@[simp] theorem DEV_IND_STAT_WQ_a : DEV_IND_STAT_WQ.a = 0x26 := id rfl
@[simp] theorem DEV_IND_STAT_WQ_lo : DEV_IND_STAT_WQ.lo = 4 := id rfl
@[simp] theorem DEV_IND_STAT_WQ_w : DEV_IND_STAT_WQ.w = 3 := id rfl
@[simp] theorem DEV_IND_STAT_ERR_a : DEV_IND_STAT_ERR.a = 0x26 := id rfl
@[simp] theorem DEV_IND_STAT_ERR_lo : DEV_IND_STAT_ERR.lo = 8 := id rfl
@[simp] theorem DEV_IND_STAT_ERR_w : DEV_IND_STAT_ERR.w = 1 := id rfl
@[simp] theorem MB_REQ_ITEM_a (m : Nat) : (MB_REQ_ITEM m).a = 0x200 + 0x10 * m := id rfl
@[simp] theorem MB_REQ_ITEM_lo (m : Nat) : (MB_REQ_ITEM m).lo = 0 := id rfl
@[simp] theorem MB_REQ_ITEM_w (m : Nat) : (MB_REQ_ITEM m).w = 8 := id rfl
@[simp] theorem MB_REQ_INDEX_a (m : Nat) : (MB_REQ_INDEX m).a = 0x200 + 0x10 * m := id rfl
@[simp] theorem MB_REQ_INDEX_lo (m : Nat) : (MB_REQ_INDEX m).lo = 8 := id rfl
@[simp] theorem MB_REQ_INDEX_w (m : Nat) : (MB_REQ_INDEX m).w = 4 := id rfl
@[simp] theorem MB_REQ_MODE_a (m : Nat) : (MB_REQ_MODE m).a = 0x200 + 0x10 * m := id rfl
@[simp] theorem MB_REQ_MODE_lo (m : Nat) : (MB_REQ_MODE m).lo = 12 := id rfl
@[simp] theorem MB_REQ_MODE_w (m : Nat) : (MB_REQ_MODE m).w = 1 := id rfl
@[simp] theorem MB_REQ_GO_a (m : Nat) : (MB_REQ_GO m).a = 0x200 + 0x10 * m := id rfl
@[simp] theorem MB_REQ_GO_lo (m : Nat) : (MB_REQ_GO m).lo = 16 := id rfl
@[simp] theorem MB_REQ_GO_w (m : Nat) : (MB_REQ_GO m).w = 1 := id rfl
@[simp] theorem MB_STAT_VALID_a (m : Nat) : (MB_STAT_VALID m).a = 0x201 + 0x10 * m := id rfl
@[simp] theorem MB_STAT_VALID_lo (m : Nat) : (MB_STAT_VALID m).lo = 0 := id rfl
@[simp] theorem MB_STAT_VALID_w (m : Nat) : (MB_STAT_VALID m).w = 1 := id rfl
@[simp] theorem MB_STAT_STALE_a (m : Nat) : (MB_STAT_STALE m).a = 0x201 + 0x10 * m := id rfl
@[simp] theorem MB_STAT_STALE_lo (m : Nat) : (MB_STAT_STALE m).lo = 1 := id rfl
@[simp] theorem MB_STAT_STALE_w (m : Nat) : (MB_STAT_STALE m).w = 1 := id rfl
@[simp] theorem MB_STAT_PEND_a (m : Nat) : (MB_STAT_PEND m).a = 0x201 + 0x10 * m := id rfl
@[simp] theorem MB_STAT_PEND_lo (m : Nat) : (MB_STAT_PEND m).lo = 2 := id rfl
@[simp] theorem MB_STAT_PEND_w (m : Nat) : (MB_STAT_PEND m).w = 1 := id rfl
@[simp] theorem MB_STAT_BADREQ_a (m : Nat) : (MB_STAT_BADREQ m).a = 0x201 + 0x10 * m := id rfl
@[simp] theorem MB_STAT_BADREQ_lo (m : Nat) : (MB_STAT_BADREQ m).lo = 3 := id rfl
@[simp] theorem MB_STAT_BADREQ_w (m : Nat) : (MB_STAT_BADREQ m).w = 1 := id rfl
@[simp] theorem MB_STAT_LEN_a (m : Nat) : (MB_STAT_LEN m).a = 0x201 + 0x10 * m := id rfl
@[simp] theorem MB_STAT_LEN_lo (m : Nat) : (MB_STAT_LEN m).lo = 4 := id rfl
@[simp] theorem MB_STAT_LEN_w (m : Nat) : (MB_STAT_LEN m).w = 4 := id rfl
@[simp] theorem MB_STAT_DNUM_a (m : Nat) : (MB_STAT_DNUM m).a = 0x201 + 0x10 * m := id rfl
@[simp] theorem MB_STAT_DNUM_lo (m : Nat) : (MB_STAT_DNUM m).lo = 8 := id rfl
@[simp] theorem MB_STAT_DNUM_w (m : Nat) : (MB_STAT_DNUM m).w = 8 := id rfl
@[simp] theorem MB_STAT_LOST_a (m : Nat) : (MB_STAT_LOST m).a = 0x201 + 0x10 * m := id rfl
@[simp] theorem MB_STAT_LOST_lo (m : Nat) : (MB_STAT_LOST m).lo = 16 := id rfl
@[simp] theorem MB_STAT_LOST_w (m : Nat) : (MB_STAT_LOST m).w = 8 := id rfl
@[simp] theorem MB_D_DATA_a (m k : Nat) : (MB_D_DATA m k).a = 0x202 + 0x10 * m + k := id rfl
@[simp] theorem MB_D_DATA_lo (m k : Nat) : (MB_D_DATA m k).lo = 0 := id rfl
@[simp] theorem MB_D_DATA_w (m k : Nat) : (MB_D_DATA m k).w = 32 := id rfl
@[simp] theorem DEV_RW_CTL_SNAP_a : DEV_RW_CTL_SNAP.a = 0x30 := id rfl
@[simp] theorem DEV_RW_CTL_SNAP_lo : DEV_RW_CTL_SNAP.lo = 0 := id rfl
@[simp] theorem DEV_RW_CTL_SNAP_w : DEV_RW_CTL_SNAP.w = 1 := id rfl
@[simp] theorem DEV_RW_CTL_SNAPNUM_a : DEV_RW_CTL_SNAPNUM.a = 0x30 := id rfl
@[simp] theorem DEV_RW_CTL_SNAPNUM_lo : DEV_RW_CTL_SNAPNUM.lo = 8 := id rfl
@[simp] theorem DEV_RW_CTL_SNAPNUM_w : DEV_RW_CTL_SNAPNUM.w = 8 := id rfl
@[simp] theorem DEV_RW_SPI_SEQ_ACC_HSEQ_a : DEV_RW_SPI_SEQ_ACC_HSEQ.a = 0x31 := id rfl
@[simp] theorem DEV_RW_SPI_SEQ_ACC_HSEQ_lo : DEV_RW_SPI_SEQ_ACC_HSEQ.lo = 0 := id rfl
@[simp] theorem DEV_RW_SPI_SEQ_ACC_HSEQ_w : DEV_RW_SPI_SEQ_ACC_HSEQ.w = 16 := id rfl
@[simp] theorem DEV_RW_SPI_SEQ_PERF_HSEQ_a : DEV_RW_SPI_SEQ_PERF_HSEQ.a = 0x31 := id rfl
@[simp] theorem DEV_RW_SPI_SEQ_PERF_HSEQ_lo : DEV_RW_SPI_SEQ_PERF_HSEQ.lo = 16 := id rfl
@[simp] theorem DEV_RW_SPI_SEQ_PERF_HSEQ_w : DEV_RW_SPI_SEQ_PERF_HSEQ.w = 16 := id rfl
@[simp] theorem DEV_RW_SPI_WR_WR_HSEQ_a : DEV_RW_SPI_WR_WR_HSEQ.a = 0x32 := id rfl
@[simp] theorem DEV_RW_SPI_WR_WR_HSEQ_lo : DEV_RW_SPI_WR_WR_HSEQ.lo = 0 := id rfl
@[simp] theorem DEV_RW_SPI_WR_WR_HSEQ_w : DEV_RW_SPI_WR_WR_HSEQ.w = 16 := id rfl
@[simp] theorem DEV_RW_SPI_WR_WR_ADDR_a : DEV_RW_SPI_WR_WR_ADDR.a = 0x32 := id rfl
@[simp] theorem DEV_RW_SPI_WR_WR_ADDR_lo : DEV_RW_SPI_WR_WR_ADDR.lo = 16 := id rfl
@[simp] theorem DEV_RW_SPI_WR_WR_ADDR_w : DEV_RW_SPI_WR_WR_ADDR.w = 16 := id rfl
@[simp] theorem DEV_RW_SPI_RPL_DSEQ_a : DEV_RW_SPI_RPL_DSEQ.a = 0x33 := id rfl
@[simp] theorem DEV_RW_SPI_RPL_DSEQ_lo : DEV_RW_SPI_RPL_DSEQ.lo = 0 := id rfl
@[simp] theorem DEV_RW_SPI_RPL_DSEQ_w : DEV_RW_SPI_RPL_DSEQ.w = 16 := id rfl
@[simp] theorem DEV_RW_SPI_RPL_EXP_ALIVE_a : DEV_RW_SPI_RPL_EXP_ALIVE.a = 0x33 := id rfl
@[simp] theorem DEV_RW_SPI_RPL_EXP_ALIVE_lo : DEV_RW_SPI_RPL_EXP_ALIVE.lo = 16 := id rfl
@[simp] theorem DEV_RW_SPI_RPL_EXP_ALIVE_w : DEV_RW_SPI_RPL_EXP_ALIVE.w = 4 := id rfl
@[simp] theorem DEV_RW_SPI_RPL_ACC_ANY_a : DEV_RW_SPI_RPL_ACC_ANY.a = 0x33 := id rfl
@[simp] theorem DEV_RW_SPI_RPL_ACC_ANY_lo : DEV_RW_SPI_RPL_ACC_ANY.lo = 20 := id rfl
@[simp] theorem DEV_RW_SPI_RPL_ACC_ANY_w : DEV_RW_SPI_RPL_ACC_ANY.w = 1 := id rfl
@[simp] theorem DEV_RW_CSEQ_OLD_CSEQ_a : DEV_RW_CSEQ_OLD_CSEQ.a = 0x38 := id rfl
@[simp] theorem DEV_RW_CSEQ_OLD_CSEQ_lo : DEV_RW_CSEQ_OLD_CSEQ.lo = 0 := id rfl
@[simp] theorem DEV_RW_CSEQ_OLD_CSEQ_w : DEV_RW_CSEQ_OLD_CSEQ.w = 16 := id rfl
@[simp] theorem DEV_RW_CSEQ_NEXT_CSEQ_a : DEV_RW_CSEQ_NEXT_CSEQ.a = 0x38 := id rfl
@[simp] theorem DEV_RW_CSEQ_NEXT_CSEQ_lo : DEV_RW_CSEQ_NEXT_CSEQ.lo = 16 := id rfl
@[simp] theorem DEV_RW_CSEQ_NEXT_CSEQ_w : DEV_RW_CSEQ_NEXT_CSEQ.w = 16 := id rfl
@[simp] theorem DEV_RW_EVSEQ_OLD_EVSEQ_a : DEV_RW_EVSEQ_OLD_EVSEQ.a = 0x39 := id rfl
@[simp] theorem DEV_RW_EVSEQ_OLD_EVSEQ_lo : DEV_RW_EVSEQ_OLD_EVSEQ.lo = 0 := id rfl
@[simp] theorem DEV_RW_EVSEQ_OLD_EVSEQ_w : DEV_RW_EVSEQ_OLD_EVSEQ.w = 16 := id rfl
@[simp] theorem DEV_RW_EVSEQ_NEXT_EVSEQ_a : DEV_RW_EVSEQ_NEXT_EVSEQ.a = 0x39 := id rfl
@[simp] theorem DEV_RW_EVSEQ_NEXT_EVSEQ_lo : DEV_RW_EVSEQ_NEXT_EVSEQ.lo = 16 := id rfl
@[simp] theorem DEV_RW_EVSEQ_NEXT_EVSEQ_w : DEV_RW_EVSEQ_NEXT_EVSEQ.w = 16 := id rfl
@[simp] theorem DEV_RW_TAGS_INFLIGHT_a : DEV_RW_TAGS_INFLIGHT.a = 0x3a := id rfl
@[simp] theorem DEV_RW_TAGS_INFLIGHT_lo : DEV_RW_TAGS_INFLIGHT.lo = 0 := id rfl
@[simp] theorem DEV_RW_TAGS_INFLIGHT_w : DEV_RW_TAGS_INFLIGHT.w = 10 := id rfl
@[simp] theorem DEV_RW_TIME_TIME_a : DEV_RW_TIME_TIME.a = 0x3b := id rfl
@[simp] theorem DEV_RW_TIME_TIME_lo : DEV_RW_TIME_TIME.lo = 0 := id rfl
@[simp] theorem DEV_RW_TIME_TIME_w : DEV_RW_TIME_TIME.w = 32 := id rfl
@[simp] theorem LNK_SPI_CFG_MODE_a : LNK_SPI_CFG_MODE.a = 0x40 := id rfl
@[simp] theorem LNK_SPI_CFG_MODE_lo : LNK_SPI_CFG_MODE.lo = 0 := id rfl
@[simp] theorem LNK_SPI_CFG_MODE_w : LNK_SPI_CFG_MODE.w = 1 := id rfl
@[simp] theorem LNK_SPI_CFG_CHAIN_LEN_a : LNK_SPI_CFG_CHAIN_LEN.a = 0x40 := id rfl
@[simp] theorem LNK_SPI_CFG_CHAIN_LEN_lo : LNK_SPI_CFG_CHAIN_LEN.lo = 4 := id rfl
@[simp] theorem LNK_SPI_CFG_CHAIN_LEN_w : LNK_SPI_CFG_CHAIN_LEN.w = 3 := id rfl
@[simp] theorem LNK_SPI_CFG_CHAIN_PERM_a : LNK_SPI_CFG_CHAIN_PERM.a = 0x40 := id rfl
@[simp] theorem LNK_SPI_CFG_CHAIN_PERM_lo : LNK_SPI_CFG_CHAIN_PERM.lo = 8 := id rfl
@[simp] theorem LNK_SPI_CFG_CHAIN_PERM_w : LNK_SPI_CFG_CHAIN_PERM.w = 2 := id rfl
@[simp] theorem LNK_SPI_STAT_MODE_ACT_a : LNK_SPI_STAT_MODE_ACT.a = 0x41 := id rfl
@[simp] theorem LNK_SPI_STAT_MODE_ACT_lo : LNK_SPI_STAT_MODE_ACT.lo = 0 := id rfl
@[simp] theorem LNK_SPI_STAT_MODE_ACT_w : LNK_SPI_STAT_MODE_ACT.w = 1 := id rfl
@[simp] theorem LNK_SPI_STAT_CPHA_MODE3_a : LNK_SPI_STAT_CPHA_MODE3.a = 0x41 := id rfl
@[simp] theorem LNK_SPI_STAT_CPHA_MODE3_lo : LNK_SPI_STAT_CPHA_MODE3.lo = 1 := id rfl
@[simp] theorem LNK_SPI_STAT_CPHA_MODE3_w : LNK_SPI_STAT_CPHA_MODE3.w = 1 := id rfl
@[simp] theorem LNK_SPI_STAT_SELECTED_a : LNK_SPI_STAT_SELECTED.a = 0x41 := id rfl
@[simp] theorem LNK_SPI_STAT_SELECTED_lo : LNK_SPI_STAT_SELECTED.lo = 2 := id rfl
@[simp] theorem LNK_SPI_STAT_SELECTED_w : LNK_SPI_STAT_SELECTED.w = 1 := id rfl
@[simp] theorem LNK_SPI_STAT_HSEQ_GAP_a : LNK_SPI_STAT_HSEQ_GAP.a = 0x41 := id rfl
@[simp] theorem LNK_SPI_STAT_HSEQ_GAP_lo : LNK_SPI_STAT_HSEQ_GAP.lo = 8 := id rfl
@[simp] theorem LNK_SPI_STAT_HSEQ_GAP_w : LNK_SPI_STAT_HSEQ_GAP.w = 8 := id rfl
@[simp] theorem LNK_SPI_STAT_CLR_a : LNK_SPI_STAT_CLR.a = 0x41 := id rfl
@[simp] theorem LNK_SPI_STAT_CLR_lo : LNK_SPI_STAT_CLR.lo = 31 := id rfl
@[simp] theorem LNK_SPI_STAT_CLR_w : LNK_SPI_STAT_CLR.w = 1 := id rfl
@[simp] theorem LNK_SPI_CNT_CRC_ERR_a : LNK_SPI_CNT_CRC_ERR.a = 0x42 := id rfl
@[simp] theorem LNK_SPI_CNT_CRC_ERR_lo : LNK_SPI_CNT_CRC_ERR.lo = 0 := id rfl
@[simp] theorem LNK_SPI_CNT_CRC_ERR_w : LNK_SPI_CNT_CRC_ERR.w = 8 := id rfl
@[simp] theorem LNK_SPI_CNT_ALIVE_ERR_a : LNK_SPI_CNT_ALIVE_ERR.a = 0x42 := id rfl
@[simp] theorem LNK_SPI_CNT_ALIVE_ERR_lo : LNK_SPI_CNT_ALIVE_ERR.lo = 8 := id rfl
@[simp] theorem LNK_SPI_CNT_ALIVE_ERR_w : LNK_SPI_CNT_ALIVE_ERR.w = 8 := id rfl
@[simp] theorem LNK_SPI_CNT_LEN_ERR_a : LNK_SPI_CNT_LEN_ERR.a = 0x42 := id rfl
@[simp] theorem LNK_SPI_CNT_LEN_ERR_lo : LNK_SPI_CNT_LEN_ERR.lo = 16 := id rfl
@[simp] theorem LNK_SPI_CNT_LEN_ERR_w : LNK_SPI_CNT_LEN_ERR.w = 8 := id rfl
@[simp] theorem LNK_SPI_CNT_UNDERRUN_a : LNK_SPI_CNT_UNDERRUN.a = 0x42 := id rfl
@[simp] theorem LNK_SPI_CNT_UNDERRUN_lo : LNK_SPI_CNT_UNDERRUN.lo = 24 := id rfl
@[simp] theorem LNK_SPI_CNT_UNDERRUN_w : LNK_SPI_CNT_UNDERRUN.w = 8 := id rfl
@[simp] theorem LNK_GR_CFG_NODE_a : LNK_GR_CFG_NODE.a = 0x50 := id rfl
@[simp] theorem LNK_GR_CFG_NODE_lo : LNK_GR_CFG_NODE.lo = 0 := id rfl
@[simp] theorem LNK_GR_CFG_NODE_w : LNK_GR_CFG_NODE.w = 5 := id rfl
@[simp] theorem LNK_GR_CFG_AUTH_a : LNK_GR_CFG_AUTH.a = 0x50 := id rfl
@[simp] theorem LNK_GR_CFG_AUTH_lo : LNK_GR_CFG_AUTH.lo = 8 := id rfl
@[simp] theorem LNK_GR_CFG_AUTH_w : LNK_GR_CFG_AUTH.w = 1 := id rfl
@[simp] theorem LNK_GR_CFG_TERM_a : LNK_GR_CFG_TERM.a = 0x50 := id rfl
@[simp] theorem LNK_GR_CFG_TERM_lo : LNK_GR_CFG_TERM.lo = 9 := id rfl
@[simp] theorem LNK_GR_CFG_TERM_w : LNK_GR_CFG_TERM.w = 1 := id rfl
@[simp] theorem LNK_GR_CFG_MARK_DIV_a : LNK_GR_CFG_MARK_DIV.a = 0x50 := id rfl
@[simp] theorem LNK_GR_CFG_MARK_DIV_lo : LNK_GR_CFG_MARK_DIV.lo = 16 := id rfl
@[simp] theorem LNK_GR_CFG_MARK_DIV_w : LNK_GR_CFG_MARK_DIV.w = 8 := id rfl
@[simp] theorem LNK_GR_STAT_RX_INV_a : LNK_GR_STAT_RX_INV.a = 0x51 := id rfl
@[simp] theorem LNK_GR_STAT_RX_INV_lo : LNK_GR_STAT_RX_INV.lo = 0 := id rfl
@[simp] theorem LNK_GR_STAT_RX_INV_w : LNK_GR_STAT_RX_INV.w = 1 := id rfl
@[simp] theorem LNK_GR_STAT_MARK_OK_a : LNK_GR_STAT_MARK_OK.a = 0x51 := id rfl
@[simp] theorem LNK_GR_STAT_MARK_OK_lo : LNK_GR_STAT_MARK_OK.lo = 1 := id rfl
@[simp] theorem LNK_GR_STAT_MARK_OK_w : LNK_GR_STAT_MARK_OK.w = 1 := id rfl
@[simp] theorem LNK_GR_STAT_ILIM_a : LNK_GR_STAT_ILIM.a = 0x51 := id rfl
@[simp] theorem LNK_GR_STAT_ILIM_lo : LNK_GR_STAT_ILIM.lo = 2 := id rfl
@[simp] theorem LNK_GR_STAT_ILIM_w : LNK_GR_STAT_ILIM.w = 1 := id rfl
@[simp] theorem LNK_GR_STAT_FL_QUAL_a : LNK_GR_STAT_FL_QUAL.a = 0x51 := id rfl
@[simp] theorem LNK_GR_STAT_FL_QUAL_lo : LNK_GR_STAT_FL_QUAL.lo = 3 := id rfl
@[simp] theorem LNK_GR_STAT_FL_QUAL_w : LNK_GR_STAT_FL_QUAL.w = 1 := id rfl
@[simp] theorem LNK_GR_STAT_HSEQ_GAP_a : LNK_GR_STAT_HSEQ_GAP.a = 0x51 := id rfl
@[simp] theorem LNK_GR_STAT_HSEQ_GAP_lo : LNK_GR_STAT_HSEQ_GAP.lo = 8 := id rfl
@[simp] theorem LNK_GR_STAT_HSEQ_GAP_w : LNK_GR_STAT_HSEQ_GAP.w = 8 := id rfl
@[simp] theorem LNK_GR_STAT_CLR_a : LNK_GR_STAT_CLR.a = 0x51 := id rfl
@[simp] theorem LNK_GR_STAT_CLR_lo : LNK_GR_STAT_CLR.lo = 31 := id rfl
@[simp] theorem LNK_GR_STAT_CLR_w : LNK_GR_STAT_CLR.w = 1 := id rfl
@[simp] theorem LNK_GR_CNT_PKT_CRC_a : LNK_GR_CNT_PKT_CRC.a = 0x52 := id rfl
@[simp] theorem LNK_GR_CNT_PKT_CRC_lo : LNK_GR_CNT_PKT_CRC.lo = 0 := id rfl
@[simp] theorem LNK_GR_CNT_PKT_CRC_w : LNK_GR_CNT_PKT_CRC.w = 8 := id rfl
@[simp] theorem LNK_GR_CNT_PKT_FMT_a : LNK_GR_CNT_PKT_FMT.a = 0x52 := id rfl
@[simp] theorem LNK_GR_CNT_PKT_FMT_lo : LNK_GR_CNT_PKT_FMT.lo = 8 := id rfl
@[simp] theorem LNK_GR_CNT_PKT_FMT_w : LNK_GR_CNT_PKT_FMT.w = 8 := id rfl
@[simp] theorem LNK_GR_CNT_TAG_ERR_a : LNK_GR_CNT_TAG_ERR.a = 0x52 := id rfl
@[simp] theorem LNK_GR_CNT_TAG_ERR_lo : LNK_GR_CNT_TAG_ERR.lo = 16 := id rfl
@[simp] theorem LNK_GR_CNT_TAG_ERR_w : LNK_GR_CNT_TAG_ERR.w = 8 := id rfl
@[simp] theorem LNK_GR_FCNT_CRC_ERR_a : LNK_GR_FCNT_CRC_ERR.a = 0x53 := id rfl
@[simp] theorem LNK_GR_FCNT_CRC_ERR_lo : LNK_GR_FCNT_CRC_ERR.lo = 0 := id rfl
@[simp] theorem LNK_GR_FCNT_CRC_ERR_w : LNK_GR_FCNT_CRC_ERR.w = 8 := id rfl
@[simp] theorem LNK_GR_FCNT_ALIVE_ERR_a : LNK_GR_FCNT_ALIVE_ERR.a = 0x53 := id rfl
@[simp] theorem LNK_GR_FCNT_ALIVE_ERR_lo : LNK_GR_FCNT_ALIVE_ERR.lo = 8 := id rfl
@[simp] theorem LNK_GR_FCNT_ALIVE_ERR_w : LNK_GR_FCNT_ALIVE_ERR.w = 8 := id rfl
@[simp] theorem LNK_GR_FCNT_AUTH_ERR_a : LNK_GR_FCNT_AUTH_ERR.a = 0x53 := id rfl
@[simp] theorem LNK_GR_FCNT_AUTH_ERR_lo : LNK_GR_FCNT_AUTH_ERR.lo = 16 := id rfl
@[simp] theorem LNK_GR_FCNT_AUTH_ERR_w : LNK_GR_FCNT_AUTH_ERR.w = 8 := id rfl
@[simp] theorem LNK_GR_FCNT_UNDERRUN_a : LNK_GR_FCNT_UNDERRUN.a = 0x53 := id rfl
@[simp] theorem LNK_GR_FCNT_UNDERRUN_lo : LNK_GR_FCNT_UNDERRUN.lo = 24 := id rfl
@[simp] theorem LNK_GR_FCNT_UNDERRUN_w : LNK_GR_FCNT_UNDERRUN.w = 8 := id rfl
@[simp] theorem LNK_GR_EPOCH_EPOCH_a : LNK_GR_EPOCH_EPOCH.a = 0x54 := id rfl
@[simp] theorem LNK_GR_EPOCH_EPOCH_lo : LNK_GR_EPOCH_EPOCH.lo = 0 := id rfl
@[simp] theorem LNK_GR_EPOCH_EPOCH_w : LNK_GR_EPOCH_EPOCH.w = 32 := id rfl
@[simp] theorem LNK_GR_TICK_DELAY_a : LNK_GR_TICK_DELAY.a = 0x55 := id rfl
@[simp] theorem LNK_GR_TICK_DELAY_lo : LNK_GR_TICK_DELAY.lo = 0 := id rfl
@[simp] theorem LNK_GR_TICK_DELAY_w : LNK_GR_TICK_DELAY.w = 10 := id rfl
@[simp] theorem LNK_GR_TICKNUM_TICKNUM_a : LNK_GR_TICKNUM_TICKNUM.a = 0x56 := id rfl
@[simp] theorem LNK_GR_TICKNUM_TICKNUM_lo : LNK_GR_TICKNUM_TICKNUM.lo = 0 := id rfl
@[simp] theorem LNK_GR_TICKNUM_TICKNUM_w : LNK_GR_TICKNUM_TICKNUM.w = 32 := id rfl
@[simp] theorem LNK_GR_PWR_VLINK_a : LNK_GR_PWR_VLINK.a = 0x57 := id rfl
@[simp] theorem LNK_GR_PWR_VLINK_lo : LNK_GR_PWR_VLINK.lo = 0 := id rfl
@[simp] theorem LNK_GR_PWR_VLINK_w : LNK_GR_PWR_VLINK.w = 16 := id rfl
@[simp] theorem LNK_GR_PWR_ILINK_a : LNK_GR_PWR_ILINK.a = 0x57 := id rfl
@[simp] theorem LNK_GR_PWR_ILINK_lo : LNK_GR_PWR_ILINK.lo = 16 := id rfl
@[simp] theorem LNK_GR_PWR_ILINK_w : LNK_GR_PWR_ILINK.w = 12 := id rfl
@[simp] theorem RNG_STG_Dk_a (r k : Nat) : (RNG_STG_Dk r k).a = 0x80 + 12 * r + k := id rfl
@[simp] theorem RNG_STG_Dk_lo (r k : Nat) : (RNG_STG_Dk r k).lo = 0 := id rfl
@[simp] theorem RNG_STG_Dk_w (r k : Nat) : (RNG_STG_Dk r k).w = 32 := id rfl
@[simp] theorem RNG_COMMIT_RESULT_a (r : Nat) : (RNG_COMMIT_RESULT r).a = 0x84 + 12 * r := id rfl
@[simp] theorem RNG_COMMIT_RESULT_lo (r : Nat) : (RNG_COMMIT_RESULT r).lo = 0 := id rfl
@[simp] theorem RNG_COMMIT_RESULT_w (r : Nat) : (RNG_COMMIT_RESULT r).w = 8 := id rfl
@[simp] theorem RNG_COMMIT_TAG_a (r : Nat) : (RNG_COMMIT_TAG r).a = 0x84 + 12 * r := id rfl
@[simp] theorem RNG_COMMIT_TAG_lo (r : Nat) : (RNG_COMMIT_TAG r).lo = 8 := id rfl
@[simp] theorem RNG_COMMIT_TAG_w (r : Nat) : (RNG_COMMIT_TAG r).w = 10 := id rfl
@[simp] theorem RNG_COMMIT_CNUM_a (r : Nat) : (RNG_COMMIT_CNUM r).a = 0x84 + 12 * r := id rfl
@[simp] theorem RNG_COMMIT_CNUM_lo (r : Nat) : (RNG_COMMIT_CNUM r).lo = 24 := id rfl
@[simp] theorem RNG_COMMIT_CNUM_w (r : Nat) : (RNG_COMMIT_CNUM r).w = 7 := id rfl
@[simp] theorem RNG_COMMIT_GO_a (r : Nat) : (RNG_COMMIT_GO r).a = 0x84 + 12 * r := id rfl
@[simp] theorem RNG_COMMIT_GO_lo (r : Nat) : (RNG_COMMIT_GO r).lo = 31 := id rfl
@[simp] theorem RNG_COMMIT_GO_w (r : Nat) : (RNG_COMMIT_GO r).w = 1 := id rfl
@[simp] theorem CRNG_STAT_FILL_a (r : Nat) : (CRNG_STAT_FILL r).a = 0x85 + 12 * r := id rfl
@[simp] theorem CRNG_STAT_FILL_lo (r : Nat) : (CRNG_STAT_FILL r).lo = 0 := id rfl
@[simp] theorem CRNG_STAT_FILL_w (r : Nat) : (CRNG_STAT_FILL r).w = 7 := id rfl
@[simp] theorem CRNG_STAT_QUEUED_a (r : Nat) : (CRNG_STAT_QUEUED r).a = 0x85 + 12 * r := id rfl
@[simp] theorem CRNG_STAT_QUEUED_lo (r : Nat) : (CRNG_STAT_QUEUED r).lo = 8 := id rfl
@[simp] theorem CRNG_STAT_QUEUED_w (r : Nat) : (CRNG_STAT_QUEUED r).w = 7 := id rfl
@[simp] theorem CRNG_STAT_EXEC_a (r : Nat) : (CRNG_STAT_EXEC r).a = 0x85 + 12 * r := id rfl
@[simp] theorem CRNG_STAT_EXEC_lo (r : Nat) : (CRNG_STAT_EXEC r).lo = 16 := id rfl
@[simp] theorem CRNG_STAT_EXEC_w (r : Nat) : (CRNG_STAT_EXEC r).w = 1 := id rfl
@[simp] theorem CRNG_STAT_FULL_a (r : Nat) : (CRNG_STAT_FULL r).a = 0x85 + 12 * r := id rfl
@[simp] theorem CRNG_STAT_FULL_lo (r : Nat) : (CRNG_STAT_FULL r).lo = 17 := id rfl
@[simp] theorem CRNG_STAT_FULL_w (r : Nat) : (CRNG_STAT_FULL r).w = 1 := id rfl
@[simp] theorem CRNG_STAT_EXEC_TAG_a (r : Nat) : (CRNG_STAT_EXEC_TAG r).a = 0x85 + 12 * r := id rfl
@[simp] theorem CRNG_STAT_EXEC_TAG_lo (r : Nat) : (CRNG_STAT_EXEC_TAG r).lo = 18 := id rfl
@[simp] theorem CRNG_STAT_EXEC_TAG_w (r : Nat) : (CRNG_STAT_EXEC_TAG r).w = 10 := id rfl
@[simp] theorem CRNG_STAT_CLR_a (r : Nat) : (CRNG_STAT_CLR r).a = 0x85 + 12 * r := id rfl
@[simp] theorem CRNG_STAT_CLR_lo (r : Nat) : (CRNG_STAT_CLR r).lo = 31 := id rfl
@[simp] theorem CRNG_STAT_CLR_w (r : Nat) : (CRNG_STAT_CLR r).w = 1 := id rfl
@[simp] theorem CRNG_CNT_REJ_STATE_a (r : Nat) : (CRNG_CNT_REJ_STATE r).a = 0x86 + 12 * r := id rfl
@[simp] theorem CRNG_CNT_REJ_STATE_lo (r : Nat) : (CRNG_CNT_REJ_STATE r).lo = 0 := id rfl
@[simp] theorem CRNG_CNT_REJ_STATE_w (r : Nat) : (CRNG_CNT_REJ_STATE r).w = 8 := id rfl
@[simp] theorem CRNG_CNT_REJ_PARAM_a (r : Nat) : (CRNG_CNT_REJ_PARAM r).a = 0x86 + 12 * r := id rfl
@[simp] theorem CRNG_CNT_REJ_PARAM_lo (r : Nat) : (CRNG_CNT_REJ_PARAM r).lo = 8 := id rfl
@[simp] theorem CRNG_CNT_REJ_PARAM_w (r : Nat) : (CRNG_CNT_REJ_PARAM r).w = 8 := id rfl
@[simp] theorem CRNG_CNT_REJ_TAG_a (r : Nat) : (CRNG_CNT_REJ_TAG r).a = 0x86 + 12 * r := id rfl
@[simp] theorem CRNG_CNT_REJ_TAG_lo (r : Nat) : (CRNG_CNT_REJ_TAG r).lo = 16 := id rfl
@[simp] theorem CRNG_CNT_REJ_TAG_w (r : Nat) : (CRNG_CNT_REJ_TAG r).w = 8 := id rfl
@[simp] theorem CRNG_CNT_REJ_FULL_a (r : Nat) : (CRNG_CNT_REJ_FULL r).a = 0x86 + 12 * r := id rfl
@[simp] theorem CRNG_CNT_REJ_FULL_lo (r : Nat) : (CRNG_CNT_REJ_FULL r).lo = 24 := id rfl
@[simp] theorem CRNG_CNT_REJ_FULL_w (r : Nat) : (CRNG_CNT_REJ_FULL r).w = 8 := id rfl
@[simp] theorem RNG_LASTREJ_TAG_a (r : Nat) : (RNG_LASTREJ_TAG r).a = 0x87 + 12 * r := id rfl
@[simp] theorem RNG_LASTREJ_TAG_lo (r : Nat) : (RNG_LASTREJ_TAG r).lo = 0 := id rfl
@[simp] theorem RNG_LASTREJ_TAG_w (r : Nat) : (RNG_LASTREJ_TAG r).w = 10 := id rfl
@[simp] theorem RNG_LASTREJ_STATUS_a (r : Nat) : (RNG_LASTREJ_STATUS r).a = 0x87 + 12 * r := id rfl
@[simp] theorem RNG_LASTREJ_STATUS_lo (r : Nat) : (RNG_LASTREJ_STATUS r).lo = 10 := id rfl
@[simp] theorem RNG_LASTREJ_STATUS_w (r : Nat) : (RNG_LASTREJ_STATUS r).w = 8 := id rfl
@[simp] theorem RNG_LASTREJ_WORD_a (r : Nat) : (RNG_LASTREJ_WORD r).a = 0x87 + 12 * r := id rfl
@[simp] theorem RNG_LASTREJ_WORD_lo (r : Nat) : (RNG_LASTREJ_WORD r).lo = 18 := id rfl
@[simp] theorem RNG_LASTREJ_WORD_w (r : Nat) : (RNG_LASTREJ_WORD r).w = 2 := id rfl
@[simp] theorem RNG_LASTREJ_BIT_a (r : Nat) : (RNG_LASTREJ_BIT r).a = 0x87 + 12 * r := id rfl
@[simp] theorem RNG_LASTREJ_BIT_lo (r : Nat) : (RNG_LASTREJ_BIT r).lo = 20 := id rfl
@[simp] theorem RNG_LASTREJ_BIT_w (r : Nat) : (RNG_LASTREJ_BIT r).w = 5 := id rfl
@[simp] theorem RNG10_TAGQ_TAG_a : RNG10_TAGQ_TAG.a = 0x100 := id rfl
@[simp] theorem RNG10_TAGQ_TAG_lo : RNG10_TAGQ_TAG.lo = 0 := id rfl
@[simp] theorem RNG10_TAGQ_TAG_w : RNG10_TAGQ_TAG.w = 10 := id rfl
@[simp] theorem RNG10_TAGQ_STATE_a : RNG10_TAGQ_STATE.a = 0x100 := id rfl
@[simp] theorem RNG10_TAGQ_STATE_lo : RNG10_TAGQ_STATE.lo = 10 := id rfl
@[simp] theorem RNG10_TAGQ_STATE_w : RNG10_TAGQ_STATE.w = 3 := id rfl
@[simp] theorem RNG10_TAGQ_RING_a : RNG10_TAGQ_RING.a = 0x100 := id rfl
@[simp] theorem RNG10_TAGQ_RING_lo : RNG10_TAGQ_RING.lo = 13 := id rfl
@[simp] theorem RNG10_TAGQ_RING_w : RNG10_TAGQ_RING.w = 4 := id rfl
@[simp] theorem RRNG_CFG_WATER_a (r : Nat) : (RRNG_CFG_WATER r).a = 0x80 + 12 * r := id rfl
@[simp] theorem RRNG_CFG_WATER_lo (r : Nat) : (RRNG_CFG_WATER r).lo = 0 := id rfl
@[simp] theorem RRNG_CFG_WATER_w (r : Nat) : (RRNG_CFG_WATER r).w = 16 := id rfl
@[simp] theorem RRNG_STAT_FILL_a (r : Nat) : (RRNG_STAT_FILL r).a = 0x81 + 12 * r := id rfl
@[simp] theorem RRNG_STAT_FILL_lo (r : Nat) : (RRNG_STAT_FILL r).lo = 0 := id rfl
@[simp] theorem RRNG_STAT_FILL_w (r : Nat) : (RRNG_STAT_FILL r).w = 15 := id rfl
@[simp] theorem RRNG_STAT_WATER_HIT_a (r : Nat) : (RRNG_STAT_WATER_HIT r).a = 0x81 + 12 * r := id rfl
@[simp] theorem RRNG_STAT_WATER_HIT_lo (r : Nat) : (RRNG_STAT_WATER_HIT r).lo = 16 := id rfl
@[simp] theorem RRNG_STAT_WATER_HIT_w (r : Nat) : (RRNG_STAT_WATER_HIT r).w = 1 := id rfl
@[simp] theorem RRNG_STAT_BACKLOG_a (r : Nat) : (RRNG_STAT_BACKLOG r).a = 0x81 + 12 * r := id rfl
@[simp] theorem RRNG_STAT_BACKLOG_lo (r : Nat) : (RRNG_STAT_BACKLOG r).lo = 17 := id rfl
@[simp] theorem RRNG_STAT_BACKLOG_w (r : Nat) : (RRNG_STAT_BACKLOG r).w = 1 := id rfl
@[simp] theorem RRNG_STAT_FULL_a (r : Nat) : (RRNG_STAT_FULL r).a = 0x81 + 12 * r := id rfl
@[simp] theorem RRNG_STAT_FULL_lo (r : Nat) : (RRNG_STAT_FULL r).lo = 18 := id rfl
@[simp] theorem RRNG_STAT_FULL_w (r : Nat) : (RRNG_STAT_FULL r).w = 1 := id rfl
@[simp] theorem RRNG_STAT_CLR_a (r : Nat) : (RRNG_STAT_CLR r).a = 0x81 + 12 * r := id rfl
@[simp] theorem RRNG_STAT_CLR_lo (r : Nat) : (RRNG_STAT_CLR r).lo = 31 := id rfl
@[simp] theorem RRNG_STAT_CLR_w (r : Nat) : (RRNG_STAT_CLR r).w = 1 := id rfl
@[simp] theorem RRNG_SEQ_OLD_a (r : Nat) : (RRNG_SEQ_OLD r).a = 0x82 + 12 * r := id rfl
@[simp] theorem RRNG_SEQ_OLD_lo (r : Nat) : (RRNG_SEQ_OLD r).lo = 0 := id rfl
@[simp] theorem RRNG_SEQ_OLD_w (r : Nat) : (RRNG_SEQ_OLD r).w = 16 := id rfl
@[simp] theorem RRNG_SEQ_NEXT_a (r : Nat) : (RRNG_SEQ_NEXT r).a = 0x82 + 12 * r := id rfl
@[simp] theorem RRNG_SEQ_NEXT_lo (r : Nat) : (RRNG_SEQ_NEXT r).lo = 16 := id rfl
@[simp] theorem RRNG_SEQ_NEXT_w (r : Nat) : (RRNG_SEQ_NEXT r).w = 16 := id rfl
@[simp] theorem RRNG_PEEK_SEQ_a (r : Nat) : (RRNG_PEEK_SEQ r).a = 0x83 + 12 * r := id rfl
@[simp] theorem RRNG_PEEK_SEQ_lo (r : Nat) : (RRNG_PEEK_SEQ r).lo = 0 := id rfl
@[simp] theorem RRNG_PEEK_SEQ_w (r : Nat) : (RRNG_PEEK_SEQ r).w = 16 := id rfl
@[simp] theorem RRNG_PEEK_AUTO_a (r : Nat) : (RRNG_PEEK_AUTO r).a = 0x83 + 12 * r := id rfl
@[simp] theorem RRNG_PEEK_AUTO_lo (r : Nat) : (RRNG_PEEK_AUTO r).lo = 16 := id rfl
@[simp] theorem RRNG_PEEK_AUTO_w (r : Nat) : (RRNG_PEEK_AUTO r).w = 1 := id rfl
@[simp] theorem RRNG_PEEK_HELD_a (r : Nat) : (RRNG_PEEK_HELD r).a = 0x83 + 12 * r := id rfl
@[simp] theorem RRNG_PEEK_HELD_lo (r : Nat) : (RRNG_PEEK_HELD r).lo = 17 := id rfl
@[simp] theorem RRNG_PEEK_HELD_w (r : Nat) : (RRNG_PEEK_HELD r).w = 1 := id rfl
@[simp] theorem RRNG_D0_D0_a (r : Nat) : (RRNG_D0_D0 r).a = 0x84 + 12 * r := id rfl
@[simp] theorem RRNG_D0_D0_lo (r : Nat) : (RRNG_D0_D0 r).lo = 0 := id rfl
@[simp] theorem RRNG_D0_D0_w (r : Nat) : (RRNG_D0_D0 r).w = 32 := id rfl
@[simp] theorem RRNG_D1_D1_a (r : Nat) : (RRNG_D1_D1 r).a = 0x85 + 12 * r := id rfl
@[simp] theorem RRNG_D1_D1_lo (r : Nat) : (RRNG_D1_D1 r).lo = 0 := id rfl
@[simp] theorem RRNG_D1_D1_w (r : Nat) : (RRNG_D1_D1 r).w = 32 := id rfl
@[simp] theorem RRNG_REL_UPTO_a (r : Nat) : (RRNG_REL_UPTO r).a = 0x86 + 12 * r := id rfl
@[simp] theorem RRNG_REL_UPTO_lo (r : Nat) : (RRNG_REL_UPTO r).lo = 0 := id rfl
@[simp] theorem RRNG_REL_UPTO_w (r : Nat) : (RRNG_REL_UPTO r).w = 16 := id rfl
@[simp] theorem RRNG_CNT_REL_BAD_a (r : Nat) : (RRNG_CNT_REL_BAD r).a = 0x87 + 12 * r := id rfl
@[simp] theorem RRNG_CNT_REL_BAD_lo (r : Nat) : (RRNG_CNT_REL_BAD r).lo = 0 := id rfl
@[simp] theorem RRNG_CNT_REL_BAD_w (r : Nat) : (RRNG_CNT_REL_BAD r).w = 8 := id rfl
@[simp] theorem RRNG_CNT_REJ_LOST_a (r : Nat) : (RRNG_CNT_REJ_LOST r).a = 0x87 + 12 * r := id rfl
@[simp] theorem RRNG_CNT_REJ_LOST_lo (r : Nat) : (RRNG_CNT_REJ_LOST r).lo = 8 := id rfl
@[simp] theorem RRNG_CNT_REJ_LOST_w (r : Nat) : (RRNG_CNT_REJ_LOST r).w = 8 := id rfl
@[simp] theorem RRNG_CNT_OVF_a (r : Nat) : (RRNG_CNT_OVF r).a = 0x87 + 12 * r := id rfl
@[simp] theorem RRNG_CNT_OVF_lo (r : Nat) : (RRNG_CNT_OVF r).lo = 16 := id rfl
@[simp] theorem RRNG_CNT_OVF_w (r : Nat) : (RRNG_CNT_OVF r).w = 8 := id rfl
@[simp] theorem AX_STATE_STATE_a (n : Nat) : (AX_STATE_STATE n).a = 0x800 + 0x100 * n := id rfl
@[simp] theorem AX_STATE_STATE_lo (n : Nat) : (AX_STATE_STATE n).lo = 0 := id rfl
@[simp] theorem AX_STATE_STATE_w (n : Nat) : (AX_STATE_STATE n).w = 4 := id rfl
@[simp] theorem AX_STATE_REF_a (n : Nat) : (AX_STATE_REF n).a = 0x800 + 0x100 * n := id rfl
@[simp] theorem AX_STATE_REF_lo (n : Nat) : (AX_STATE_REF n).lo = 4 := id rfl
@[simp] theorem AX_STATE_REF_w (n : Nat) : (AX_STATE_REF n).w = 1 := id rfl
@[simp] theorem AX_STATE_ENGAGED_a (n : Nat) : (AX_STATE_ENGAGED n).a = 0x800 + 0x100 * n := id rfl
@[simp] theorem AX_STATE_ENGAGED_lo (n : Nat) : (AX_STATE_ENGAGED n).lo = 5 := id rfl
@[simp] theorem AX_STATE_ENGAGED_w (n : Nat) : (AX_STATE_ENGAGED n).w = 1 := id rfl
@[simp] theorem AX_STATE_TORQ_LIM_a (n : Nat) : (AX_STATE_TORQ_LIM n).a = 0x800 + 0x100 * n := id rfl
@[simp] theorem AX_STATE_TORQ_LIM_lo (n : Nat) : (AX_STATE_TORQ_LIM n).lo = 6 := id rfl
@[simp] theorem AX_STATE_TORQ_LIM_w (n : Nat) : (AX_STATE_TORQ_LIM n).w = 1 := id rfl
@[simp] theorem AX_STATE_VCAP_a (n : Nat) : (AX_STATE_VCAP n).a = 0x800 + 0x100 * n := id rfl
@[simp] theorem AX_STATE_VCAP_lo (n : Nat) : (AX_STATE_VCAP n).lo = 7 := id rfl
@[simp] theorem AX_STATE_VCAP_w (n : Nat) : (AX_STATE_VCAP n).w = 1 := id rfl
@[simp] theorem AX_STATE_SLIM_NEG_HIT_a (n : Nat) : (AX_STATE_SLIM_NEG_HIT n).a = 0x800 + 0x100 * n := id rfl
@[simp] theorem AX_STATE_SLIM_NEG_HIT_lo (n : Nat) : (AX_STATE_SLIM_NEG_HIT n).lo = 8 := id rfl
@[simp] theorem AX_STATE_SLIM_NEG_HIT_w (n : Nat) : (AX_STATE_SLIM_NEG_HIT n).w = 1 := id rfl
@[simp] theorem AX_STATE_SLIM_POS_HIT_a (n : Nat) : (AX_STATE_SLIM_POS_HIT n).a = 0x800 + 0x100 * n := id rfl
@[simp] theorem AX_STATE_SLIM_POS_HIT_lo (n : Nat) : (AX_STATE_SLIM_POS_HIT n).lo = 9 := id rfl
@[simp] theorem AX_STATE_SLIM_POS_HIT_w (n : Nat) : (AX_STATE_SLIM_POS_HIT n).w = 1 := id rfl
@[simp] theorem AX_STATE_LIM_NEG_a (n : Nat) : (AX_STATE_LIM_NEG n).a = 0x800 + 0x100 * n := id rfl
@[simp] theorem AX_STATE_LIM_NEG_lo (n : Nat) : (AX_STATE_LIM_NEG n).lo = 10 := id rfl
@[simp] theorem AX_STATE_LIM_NEG_w (n : Nat) : (AX_STATE_LIM_NEG n).w = 1 := id rfl
@[simp] theorem AX_STATE_LIM_POS_a (n : Nat) : (AX_STATE_LIM_POS n).a = 0x800 + 0x100 * n := id rfl
@[simp] theorem AX_STATE_LIM_POS_lo (n : Nat) : (AX_STATE_LIM_POS n).lo = 11 := id rfl
@[simp] theorem AX_STATE_LIM_POS_w (n : Nat) : (AX_STATE_LIM_POS n).w = 1 := id rfl
@[simp] theorem AX_STATE_HOME_IN_a (n : Nat) : (AX_STATE_HOME_IN n).a = 0x800 + 0x100 * n := id rfl
@[simp] theorem AX_STATE_HOME_IN_lo (n : Nat) : (AX_STATE_HOME_IN n).lo = 12 := id rfl
@[simp] theorem AX_STATE_HOME_IN_w (n : Nat) : (AX_STATE_HOME_IN n).w = 1 := id rfl
@[simp] theorem AX_STATE_CLOS_WARN_a (n : Nat) : (AX_STATE_CLOS_WARN n).a = 0x800 + 0x100 * n := id rfl
@[simp] theorem AX_STATE_CLOS_WARN_lo (n : Nat) : (AX_STATE_CLOS_WARN n).lo = 13 := id rfl
@[simp] theorem AX_STATE_CLOS_WARN_w (n : Nat) : (AX_STATE_CLOS_WARN n).w = 1 := id rfl
@[simp] theorem AX_STATE_NOCURVE_a (n : Nat) : (AX_STATE_NOCURVE n).a = 0x800 + 0x100 * n := id rfl
@[simp] theorem AX_STATE_NOCURVE_lo (n : Nat) : (AX_STATE_NOCURVE n).lo = 14 := id rfl
@[simp] theorem AX_STATE_NOCURVE_w (n : Nat) : (AX_STATE_NOCURVE n).w = 1 := id rfl
@[simp] theorem AX_PLN_CFG_STALL_ACT_a (n : Nat) : (AX_PLN_CFG_STALL_ACT n).a = 0x801 + 0x100 * n := id rfl
@[simp] theorem AX_PLN_CFG_STALL_ACT_lo (n : Nat) : (AX_PLN_CFG_STALL_ACT n).lo = 0 := id rfl
@[simp] theorem AX_PLN_CFG_STALL_ACT_w (n : Nat) : (AX_PLN_CFG_STALL_ACT n).w = 1 := id rfl
@[simp] theorem AX_PLN_CFG_CLOS_ACT_a (n : Nat) : (AX_PLN_CFG_CLOS_ACT n).a = 0x801 + 0x100 * n := id rfl
@[simp] theorem AX_PLN_CFG_CLOS_ACT_lo (n : Nat) : (AX_PLN_CFG_CLOS_ACT n).lo = 1 := id rfl
@[simp] theorem AX_PLN_CFG_CLOS_ACT_w (n : Nat) : (AX_PLN_CFG_CLOS_ACT n).w = 1 := id rfl
@[simp] theorem AX_PLN_CFG_SLIM_EN_a (n : Nat) : (AX_PLN_CFG_SLIM_EN n).a = 0x801 + 0x100 * n := id rfl
@[simp] theorem AX_PLN_CFG_SLIM_EN_lo (n : Nat) : (AX_PLN_CFG_SLIM_EN n).lo = 2 := id rfl
@[simp] theorem AX_PLN_CFG_SLIM_EN_w (n : Nat) : (AX_PLN_CFG_SLIM_EN n).w = 1 := id rfl
@[simp] theorem AX_PLN_CFG_TORQ_EN_a (n : Nat) : (AX_PLN_CFG_TORQ_EN n).a = 0x801 + 0x100 * n := id rfl
@[simp] theorem AX_PLN_CFG_TORQ_EN_lo (n : Nat) : (AX_PLN_CFG_TORQ_EN n).lo = 3 := id rfl
@[simp] theorem AX_PLN_CFG_TORQ_EN_w (n : Nat) : (AX_PLN_CFG_TORQ_EN n).w = 1 := id rfl
@[simp] theorem AX_PLN_CFG_LIM_STOP_a (n : Nat) : (AX_PLN_CFG_LIM_STOP n).a = 0x801 + 0x100 * n := id rfl
@[simp] theorem AX_PLN_CFG_LIM_STOP_lo (n : Nat) : (AX_PLN_CFG_LIM_STOP n).lo = 4 := id rfl
@[simp] theorem AX_PLN_CFG_LIM_STOP_w (n : Nat) : (AX_PLN_CFG_LIM_STOP n).w = 1 := id rfl
@[simp] theorem AX_FAULT_BITS_a (n : Nat) : (AX_FAULT_BITS n).a = 0x802 + 0x100 * n := id rfl
@[simp] theorem AX_FAULT_BITS_lo (n : Nat) : (AX_FAULT_BITS n).lo = 0 := id rfl
@[simp] theorem AX_FAULT_BITS_w (n : Nat) : (AX_FAULT_BITS n).w = 7 := id rfl
@[simp] theorem AX_QDEC_QDEC_a (n : Nat) : (AX_QDEC_QDEC n).a = 0x803 + 0x100 * n := id rfl
@[simp] theorem AX_QDEC_QDEC_lo (n : Nat) : (AX_QDEC_QDEC n).lo = 0 := id rfl
@[simp] theorem AX_QDEC_QDEC_w (n : Nat) : (AX_QDEC_QDEC n).w = 32 := id rfl
@[simp] theorem AX_SLIM_NEG_L_NEG_L_a (n : Nat) : (AX_SLIM_NEG_L_NEG_L n).a = 0x804 + 0x100 * n := id rfl
@[simp] theorem AX_SLIM_NEG_L_NEG_L_lo (n : Nat) : (AX_SLIM_NEG_L_NEG_L n).lo = 0 := id rfl
@[simp] theorem AX_SLIM_NEG_L_NEG_L_w (n : Nat) : (AX_SLIM_NEG_L_NEG_L n).w = 32 := id rfl
@[simp] theorem AX_SLIM_NEG_H_NEG_H_a (n : Nat) : (AX_SLIM_NEG_H_NEG_H n).a = 0x805 + 0x100 * n := id rfl
@[simp] theorem AX_SLIM_NEG_H_NEG_H_lo (n : Nat) : (AX_SLIM_NEG_H_NEG_H n).lo = 0 := id rfl
@[simp] theorem AX_SLIM_NEG_H_NEG_H_w (n : Nat) : (AX_SLIM_NEG_H_NEG_H n).w = 16 := id rfl
@[simp] theorem AX_SLIM_POS_L_POS_L_a (n : Nat) : (AX_SLIM_POS_L_POS_L n).a = 0x806 + 0x100 * n := id rfl
@[simp] theorem AX_SLIM_POS_L_POS_L_lo (n : Nat) : (AX_SLIM_POS_L_POS_L n).lo = 0 := id rfl
@[simp] theorem AX_SLIM_POS_L_POS_L_w (n : Nat) : (AX_SLIM_POS_L_POS_L n).w = 32 := id rfl
@[simp] theorem AX_SLIM_POS_H_POS_H_a (n : Nat) : (AX_SLIM_POS_H_POS_H n).a = 0x807 + 0x100 * n := id rfl
@[simp] theorem AX_SLIM_POS_H_POS_H_lo (n : Nat) : (AX_SLIM_POS_H_POS_H n).lo = 0 := id rfl
@[simp] theorem AX_SLIM_POS_H_POS_H_w (n : Nat) : (AX_SLIM_POS_H_POS_H n).w = 16 := id rfl
@[simp] theorem AX_VEL_VEL_a (n : Nat) : (AX_VEL_VEL n).a = 0x808 + 0x100 * n := id rfl
@[simp] theorem AX_VEL_VEL_lo (n : Nat) : (AX_VEL_VEL n).lo = 0 := id rfl
@[simp] theorem AX_VEL_VEL_w (n : Nat) : (AX_VEL_VEL n).w = 32 := id rfl
@[simp] theorem AX_ACC_ACC_a (n : Nat) : (AX_ACC_ACC n).a = 0x809 + 0x100 * n := id rfl
@[simp] theorem AX_ACC_ACC_lo (n : Nat) : (AX_ACC_ACC n).lo = 0 := id rfl
@[simp] theorem AX_ACC_ACC_w (n : Nat) : (AX_ACC_ACC n).w = 32 := id rfl
@[simp] theorem AX_PLN_STAT_SEG_a (n : Nat) : (AX_PLN_STAT_SEG n).a = 0x80a + 0x100 * n := id rfl
@[simp] theorem AX_PLN_STAT_SEG_lo (n : Nat) : (AX_PLN_STAT_SEG n).lo = 0 := id rfl
@[simp] theorem AX_PLN_STAT_SEG_w (n : Nat) : (AX_PLN_STAT_SEG n).w = 3 := id rfl
@[simp] theorem AX_PLN_STAT_TYPE_a (n : Nat) : (AX_PLN_STAT_TYPE n).a = 0x80a + 0x100 * n := id rfl
@[simp] theorem AX_PLN_STAT_TYPE_lo (n : Nat) : (AX_PLN_STAT_TYPE n).lo = 3 := id rfl
@[simp] theorem AX_PLN_STAT_TYPE_w (n : Nat) : (AX_PLN_STAT_TYPE n).w = 2 := id rfl
@[simp] theorem AX_PLN_STAT_TORQ_OVER_a (n : Nat) : (AX_PLN_STAT_TORQ_OVER n).a = 0x80a + 0x100 * n := id rfl
@[simp] theorem AX_PLN_STAT_TORQ_OVER_lo (n : Nat) : (AX_PLN_STAT_TORQ_OVER n).lo = 5 := id rfl
@[simp] theorem AX_PLN_STAT_TORQ_OVER_w (n : Nat) : (AX_PLN_STAT_TORQ_OVER n).w = 1 := id rfl
@[simp] theorem AX_PLN_STAT_DLIM_a (n : Nat) : (AX_PLN_STAT_DLIM n).a = 0x80a + 0x100 * n := id rfl
@[simp] theorem AX_PLN_STAT_DLIM_lo (n : Nat) : (AX_PLN_STAT_DLIM n).lo = 6 := id rfl
@[simp] theorem AX_PLN_STAT_DLIM_w (n : Nat) : (AX_PLN_STAT_DLIM n).w = 1 := id rfl
@[simp] theorem AX_PLN_STAT_PRE_a (n : Nat) : (AX_PLN_STAT_PRE n).a = 0x80a + 0x100 * n := id rfl
@[simp] theorem AX_PLN_STAT_PRE_lo (n : Nat) : (AX_PLN_STAT_PRE n).lo = 7 := id rfl
@[simp] theorem AX_PLN_STAT_PRE_w (n : Nat) : (AX_PLN_STAT_PRE n).w = 1 := id rfl
@[simp] theorem AX_PS_VMAX_VMAX_a (n k : Nat) : (AX_PS_VMAX_VMAX n k).a = 0x810 + 0x100 * n + 4 * k := id rfl
@[simp] theorem AX_PS_VMAX_VMAX_lo (n k : Nat) : (AX_PS_VMAX_VMAX n k).lo = 0 := id rfl
@[simp] theorem AX_PS_VMAX_VMAX_w (n k : Nat) : (AX_PS_VMAX_VMAX n k).w = 32 := id rfl
@[simp] theorem AX_PS_ACC_ACC_a (n k : Nat) : (AX_PS_ACC_ACC n k).a = 0x811 + 0x100 * n + 4 * k := id rfl
@[simp] theorem AX_PS_ACC_ACC_lo (n k : Nat) : (AX_PS_ACC_ACC n k).lo = 0 := id rfl
@[simp] theorem AX_PS_ACC_ACC_w (n k : Nat) : (AX_PS_ACC_ACC n k).w = 32 := id rfl
@[simp] theorem AX_PS_DEC_DEC_a (n k : Nat) : (AX_PS_DEC_DEC n k).a = 0x812 + 0x100 * n + 4 * k := id rfl
@[simp] theorem AX_PS_DEC_DEC_lo (n k : Nat) : (AX_PS_DEC_DEC n k).lo = 0 := id rfl
@[simp] theorem AX_PS_DEC_DEC_w (n k : Nat) : (AX_PS_DEC_DEC n k).w = 32 := id rfl
@[simp] theorem AX_PS_JERK_JERK_a (n k : Nat) : (AX_PS_JERK_JERK n k).a = 0x813 + 0x100 * n + 4 * k := id rfl
@[simp] theorem AX_PS_JERK_JERK_lo (n k : Nat) : (AX_PS_JERK_JERK n k).lo = 0 := id rfl
@[simp] theorem AX_PS_JERK_JERK_w (n k : Nat) : (AX_PS_JERK_JERK n k).w = 32 := id rfl
@[simp] theorem AX_TORQ_CFG_T_LOAD_a (n : Nat) : (AX_TORQ_CFG_T_LOAD n).a = 0x820 + 0x100 * n := id rfl
@[simp] theorem AX_TORQ_CFG_T_LOAD_lo (n : Nat) : (AX_TORQ_CFG_T_LOAD n).lo = 0 := id rfl
@[simp] theorem AX_TORQ_CFG_T_LOAD_w (n : Nat) : (AX_TORQ_CFG_T_LOAD n).w = 16 := id rfl
@[simp] theorem AX_TORQ_CFG_MARGIN_a (n : Nat) : (AX_TORQ_CFG_MARGIN n).a = 0x820 + 0x100 * n := id rfl
@[simp] theorem AX_TORQ_CFG_MARGIN_lo (n : Nat) : (AX_TORQ_CFG_MARGIN n).lo = 16 := id rfl
@[simp] theorem AX_TORQ_CFG_MARGIN_w (n : Nat) : (AX_TORQ_CFG_MARGIN n).w = 8 := id rfl
@[simp] theorem AX_TORQ_J_J_a (n : Nat) : (AX_TORQ_J_J n).a = 0x821 + 0x100 * n := id rfl
@[simp] theorem AX_TORQ_J_J_lo (n : Nat) : (AX_TORQ_J_J n).lo = 0 := id rfl
@[simp] theorem AX_TORQ_J_J_w (n : Nat) : (AX_TORQ_J_J n).w = 32 := id rfl
@[simp] theorem AX_TORQ_STAT_T_AVAIL_a (n : Nat) : (AX_TORQ_STAT_T_AVAIL n).a = 0x822 + 0x100 * n := id rfl
@[simp] theorem AX_TORQ_STAT_T_AVAIL_lo (n : Nat) : (AX_TORQ_STAT_T_AVAIL n).lo = 0 := id rfl
@[simp] theorem AX_TORQ_STAT_T_AVAIL_w (n : Nat) : (AX_TORQ_STAT_T_AVAIL n).w = 16 := id rfl
@[simp] theorem AX_TORQ_ALIM_A_ACC_a (n : Nat) : (AX_TORQ_ALIM_A_ACC n).a = 0x823 + 0x100 * n := id rfl
@[simp] theorem AX_TORQ_ALIM_A_ACC_lo (n : Nat) : (AX_TORQ_ALIM_A_ACC n).lo = 0 := id rfl
@[simp] theorem AX_TORQ_ALIM_A_ACC_w (n : Nat) : (AX_TORQ_ALIM_A_ACC n).w = 32 := id rfl
@[simp] theorem AX_FOL_CFG_STEPSCALE_a (n : Nat) : (AX_FOL_CFG_STEPSCALE n).a = 0x824 + 0x100 * n := id rfl
@[simp] theorem AX_FOL_CFG_STEPSCALE_lo (n : Nat) : (AX_FOL_CFG_STEPSCALE n).lo = 0 := id rfl
@[simp] theorem AX_FOL_CFG_STEPSCALE_w (n : Nat) : (AX_FOL_CFG_STEPSCALE n).w = 13 := id rfl
@[simp] theorem AX_FOL_CFG_INTERP_a (n : Nat) : (AX_FOL_CFG_INTERP n).a = 0x824 + 0x100 * n := id rfl
@[simp] theorem AX_FOL_CFG_INTERP_lo (n : Nat) : (AX_FOL_CFG_INTERP n).lo = 13 := id rfl
@[simp] theorem AX_FOL_CFG_INTERP_w (n : Nat) : (AX_FOL_CFG_INTERP n).w = 1 := id rfl
@[simp] theorem AX_FOL_STAT_STEP_DROP_a (n : Nat) : (AX_FOL_STAT_STEP_DROP n).a = 0x825 + 0x100 * n := id rfl
@[simp] theorem AX_FOL_STAT_STEP_DROP_lo (n : Nat) : (AX_FOL_STAT_STEP_DROP n).lo = 0 := id rfl
@[simp] theorem AX_FOL_STAT_STEP_DROP_w (n : Nat) : (AX_FOL_STAT_STEP_DROP n).w = 16 := id rfl
@[simp] theorem AX_FOL_STAT_STEP_IGN_a (n : Nat) : (AX_FOL_STAT_STEP_IGN n).a = 0x825 + 0x100 * n := id rfl
@[simp] theorem AX_FOL_STAT_STEP_IGN_lo (n : Nat) : (AX_FOL_STAT_STEP_IGN n).lo = 16 := id rfl
@[simp] theorem AX_FOL_STAT_STEP_IGN_w (n : Nat) : (AX_FOL_STAT_STEP_IGN n).w = 16 := id rfl
@[simp] theorem AX_HOME_CFG_HSET_a (n : Nat) : (AX_HOME_CFG_HSET n).a = 0x826 + 0x100 * n := id rfl
@[simp] theorem AX_HOME_CFG_HSET_lo (n : Nat) : (AX_HOME_CFG_HSET n).lo = 0 := id rfl
@[simp] theorem AX_HOME_CFG_HSET_w (n : Nat) : (AX_HOME_CFG_HSET n).w = 2 := id rfl
@[simp] theorem AX_HOME_CFG_HCUR_a (n : Nat) : (AX_HOME_CFG_HCUR n).a = 0x826 + 0x100 * n := id rfl
@[simp] theorem AX_HOME_CFG_HCUR_lo (n : Nat) : (AX_HOME_CFG_HCUR n).lo = 8 := id rfl
@[simp] theorem AX_HOME_CFG_HCUR_w (n : Nat) : (AX_HOME_CFG_HCUR n).w = 8 := id rfl
@[simp] theorem AX_HOME_CREEP_CREEP_a (n : Nat) : (AX_HOME_CREEP_CREEP n).a = 0x827 + 0x100 * n := id rfl
@[simp] theorem AX_HOME_CREEP_CREEP_lo (n : Nat) : (AX_HOME_CREEP_CREEP n).lo = 0 := id rfl
@[simp] theorem AX_HOME_CREEP_CREEP_w (n : Nat) : (AX_HOME_CREEP_CREEP n).w = 32 := id rfl
@[simp] theorem AX_HOME_BACK_BACK_a (n : Nat) : (AX_HOME_BACK_BACK n).a = 0x828 + 0x100 * n := id rfl
@[simp] theorem AX_HOME_BACK_BACK_lo (n : Nat) : (AX_HOME_BACK_BACK n).lo = 0 := id rfl
@[simp] theorem AX_HOME_BACK_BACK_w (n : Nat) : (AX_HOME_BACK_BACK n).w = 32 := id rfl
@[simp] theorem AX_HOME_MAXD_MAXD_a (n : Nat) : (AX_HOME_MAXD_MAXD n).a = 0x829 + 0x100 * n := id rfl
@[simp] theorem AX_HOME_MAXD_MAXD_lo (n : Nat) : (AX_HOME_MAXD_MAXD n).lo = 0 := id rfl
@[simp] theorem AX_HOME_MAXD_MAXD_w (n : Nat) : (AX_HOME_MAXD_MAXD n).w = 32 := id rfl
@[simp] theorem AX_HOME_STAT_PHASE_a (n : Nat) : (AX_HOME_STAT_PHASE n).a = 0x82a + 0x100 * n := id rfl
@[simp] theorem AX_HOME_STAT_PHASE_lo (n : Nat) : (AX_HOME_STAT_PHASE n).lo = 0 := id rfl
@[simp] theorem AX_HOME_STAT_PHASE_w (n : Nat) : (AX_HOME_STAT_PHASE n).w = 3 := id rfl
@[simp] theorem AX_HOME_STAT_FAILED_a (n : Nat) : (AX_HOME_STAT_FAILED n).a = 0x82a + 0x100 * n := id rfl
@[simp] theorem AX_HOME_STAT_FAILED_lo (n : Nat) : (AX_HOME_STAT_FAILED n).lo = 3 := id rfl
@[simp] theorem AX_HOME_STAT_FAILED_w (n : Nat) : (AX_HOME_STAT_FAILED n).w = 1 := id rfl
@[simp] theorem AX_HOME_STAT_FAIL_CAUSE_a (n : Nat) : (AX_HOME_STAT_FAIL_CAUSE n).a = 0x82a + 0x100 * n := id rfl
@[simp] theorem AX_HOME_STAT_FAIL_CAUSE_lo (n : Nat) : (AX_HOME_STAT_FAIL_CAUSE n).lo = 4 := id rfl
@[simp] theorem AX_HOME_STAT_FAIL_CAUSE_w (n : Nat) : (AX_HOME_STAT_FAIL_CAUSE n).w = 3 := id rfl
@[simp] theorem AX_CLOS_CFG_LIMIT_a (n : Nat) : (AX_CLOS_CFG_LIMIT n).a = 0x82b + 0x100 * n := id rfl
@[simp] theorem AX_CLOS_CFG_LIMIT_lo (n : Nat) : (AX_CLOS_CFG_LIMIT n).lo = 0 := id rfl
@[simp] theorem AX_CLOS_CFG_LIMIT_w (n : Nat) : (AX_CLOS_CFG_LIMIT n).w = 16 := id rfl
@[simp] theorem AX_CLOS_CFG_COUNT_a (n : Nat) : (AX_CLOS_CFG_COUNT n).a = 0x82b + 0x100 * n := id rfl
@[simp] theorem AX_CLOS_CFG_COUNT_lo (n : Nat) : (AX_CLOS_CFG_COUNT n).lo = 16 := id rfl
@[simp] theorem AX_CLOS_CFG_COUNT_w (n : Nat) : (AX_CLOS_CFG_COUNT n).w = 8 := id rfl
@[simp] theorem AX_CLOS_CFG_VLAG_a (n : Nat) : (AX_CLOS_CFG_VLAG n).a = 0x82b + 0x100 * n := id rfl
@[simp] theorem AX_CLOS_CFG_VLAG_lo (n : Nat) : (AX_CLOS_CFG_VLAG n).lo = 24 := id rfl
@[simp] theorem AX_CLOS_CFG_VLAG_w (n : Nat) : (AX_CLOS_CFG_VLAG n).w = 8 := id rfl
@[simp] theorem AX_CLOS_WARN_WARN_a (n : Nat) : (AX_CLOS_WARN_WARN n).a = 0x82c + 0x100 * n := id rfl
@[simp] theorem AX_CLOS_WARN_WARN_lo (n : Nat) : (AX_CLOS_WARN_WARN n).lo = 0 := id rfl
@[simp] theorem AX_CLOS_WARN_WARN_w (n : Nat) : (AX_CLOS_WARN_WARN n).w = 16 := id rfl
@[simp] theorem AX_CLOS_ERR_ERR_a (n : Nat) : (AX_CLOS_ERR_ERR n).a = 0x82d + 0x100 * n := id rfl
@[simp] theorem AX_CLOS_ERR_ERR_lo (n : Nat) : (AX_CLOS_ERR_ERR n).lo = 0 := id rfl
@[simp] theorem AX_CLOS_ERR_ERR_w (n : Nat) : (AX_CLOS_ERR_ERR n).w = 32 := id rfl
@[simp] theorem AX_CLOS_MAX_MAX_a (n : Nat) : (AX_CLOS_MAX_MAX n).a = 0x82e + 0x100 * n := id rfl
@[simp] theorem AX_CLOS_MAX_MAX_lo (n : Nat) : (AX_CLOS_MAX_MAX n).lo = 0 := id rfl
@[simp] theorem AX_CLOS_MAX_MAX_w (n : Nat) : (AX_CLOS_MAX_MAX n).w = 31 := id rfl
@[simp] theorem AX_CLOS_MAX_CLR_a (n : Nat) : (AX_CLOS_MAX_CLR n).a = 0x82e + 0x100 * n := id rfl
@[simp] theorem AX_CLOS_MAX_CLR_lo (n : Nat) : (AX_CLOS_MAX_CLR n).lo = 31 := id rfl
@[simp] theorem AX_CLOS_MAX_CLR_w (n : Nat) : (AX_CLOS_MAX_CLR n).w = 1 := id rfl
@[simp] theorem ST_COORD_CFG_SCURVE_a (st : Nat) : (ST_COORD_CFG_SCURVE st).a = 0x400 + 0x100 * st := id rfl
@[simp] theorem ST_COORD_CFG_SCURVE_lo (st : Nat) : (ST_COORD_CFG_SCURVE st).lo = 0 := id rfl
@[simp] theorem ST_COORD_CFG_SCURVE_w (st : Nat) : (ST_COORD_CFG_SCURVE st).w = 1 := id rfl
@[simp] theorem ST_COORD_STAT_OPEN_a (st : Nat) : (ST_COORD_STAT_OPEN st).a = 0x401 + 0x100 * st := id rfl
@[simp] theorem ST_COORD_STAT_OPEN_lo (st : Nat) : (ST_COORD_STAT_OPEN st).lo = 0 := id rfl
@[simp] theorem ST_COORD_STAT_OPEN_w (st : Nat) : (ST_COORD_STAT_OPEN st).w = 1 := id rfl
@[simp] theorem ST_COORD_STAT_EXEC_a (st : Nat) : (ST_COORD_STAT_EXEC st).a = 0x401 + 0x100 * st := id rfl
@[simp] theorem ST_COORD_STAT_EXEC_lo (st : Nat) : (ST_COORD_STAT_EXEC st).lo = 1 := id rfl
@[simp] theorem ST_COORD_STAT_EXEC_w (st : Nat) : (ST_COORD_STAT_EXEC st).w = 1 := id rfl
@[simp] theorem ST_COORD_STAT_WAIT_PAIR_a (st : Nat) : (ST_COORD_STAT_WAIT_PAIR st).a = 0x401 + 0x100 * st := id rfl
@[simp] theorem ST_COORD_STAT_WAIT_PAIR_lo (st : Nat) : (ST_COORD_STAT_WAIT_PAIR st).lo = 2 := id rfl
@[simp] theorem ST_COORD_STAT_WAIT_PAIR_w (st : Nat) : (ST_COORD_STAT_WAIT_PAIR st).w = 1 := id rfl
@[simp] theorem ST_COORD_STAT_LIMITED_a (st : Nat) : (ST_COORD_STAT_LIMITED st).a = 0x401 + 0x100 * st := id rfl
@[simp] theorem ST_COORD_STAT_LIMITED_lo (st : Nat) : (ST_COORD_STAT_LIMITED st).lo = 3 := id rfl
@[simp] theorem ST_COORD_STAT_LIMITED_w (st : Nat) : (ST_COORD_STAT_LIMITED st).w = 1 := id rfl
@[simp] theorem ST_COORD_STAT_AXES_a (st : Nat) : (ST_COORD_STAT_AXES st).a = 0x401 + 0x100 * st := id rfl
@[simp] theorem ST_COORD_STAT_AXES_lo (st : Nat) : (ST_COORD_STAT_AXES st).lo = 4 := id rfl
@[simp] theorem ST_COORD_STAT_AXES_w (st : Nat) : (ST_COORD_STAT_AXES st).w = 4 := id rfl
@[simp] theorem ST_COORD_STAT_PAIR_a (st : Nat) : (ST_COORD_STAT_PAIR st).a = 0x401 + 0x100 * st := id rfl
@[simp] theorem ST_COORD_STAT_PAIR_lo (st : Nat) : (ST_COORD_STAT_PAIR st).lo = 8 := id rfl
@[simp] theorem ST_COORD_STAT_PAIR_w (st : Nat) : (ST_COORD_STAT_PAIR st).w = 8 := id rfl
@[simp] theorem ST_COORD_U_U_a (st : Nat) : (ST_COORD_U_U st).a = 0x402 + 0x100 * st := id rfl
@[simp] theorem ST_COORD_U_U_lo (st : Nat) : (ST_COORD_U_U st).lo = 0 := id rfl
@[simp] theorem ST_COORD_U_U_w (st : Nat) : (ST_COORD_U_U st).w = 32 := id rfl
@[simp] theorem AX_SEQ_CFG_RANGE_a (n : Nat) : (AX_SEQ_CFG_RANGE n).a = 0x840 + 0x100 * n := id rfl
@[simp] theorem AX_SEQ_CFG_RANGE_lo (n : Nat) : (AX_SEQ_CFG_RANGE n).lo = 0 := id rfl
@[simp] theorem AX_SEQ_CFG_RANGE_w (n : Nat) : (AX_SEQ_CFG_RANGE n).w = 2 := id rfl
@[simp] theorem AX_SEQ_CFG_EOFS_a (n : Nat) : (AX_SEQ_CFG_EOFS n).a = 0x840 + 0x100 * n := id rfl
@[simp] theorem AX_SEQ_CFG_EOFS_lo (n : Nat) : (AX_SEQ_CFG_EOFS n).lo = 2 := id rfl
@[simp] theorem AX_SEQ_CFG_EOFS_w (n : Nat) : (AX_SEQ_CFG_EOFS n).w = 14 := id rfl
@[simp] theorem AX_SEQ_CFG_ACR_EN_a (n : Nat) : (AX_SEQ_CFG_ACR_EN n).a = 0x840 + 0x100 * n := id rfl
@[simp] theorem AX_SEQ_CFG_ACR_EN_lo (n : Nat) : (AX_SEQ_CFG_ACR_EN n).lo = 16 := id rfl
@[simp] theorem AX_SEQ_CFG_ACR_EN_w (n : Nat) : (AX_SEQ_CFG_ACR_EN n).w = 1 := id rfl
@[simp] theorem AX_SEQ_CFG_FF_EN_a (n : Nat) : (AX_SEQ_CFG_FF_EN n).a = 0x840 + 0x100 * n := id rfl
@[simp] theorem AX_SEQ_CFG_FF_EN_lo (n : Nat) : (AX_SEQ_CFG_FF_EN n).lo = 17 := id rfl
@[simp] theorem AX_SEQ_CFG_FF_EN_w (n : Nat) : (AX_SEQ_CFG_FF_EN n).w = 1 := id rfl
@[simp] theorem AX_SEQ_CUR_RUN_a (n : Nat) : (AX_SEQ_CUR_RUN n).a = 0x841 + 0x100 * n := id rfl
@[simp] theorem AX_SEQ_CUR_RUN_lo (n : Nat) : (AX_SEQ_CUR_RUN n).lo = 0 := id rfl
@[simp] theorem AX_SEQ_CUR_RUN_w (n : Nat) : (AX_SEQ_CUR_RUN n).w = 12 := id rfl
@[simp] theorem AX_SEQ_CUR_HOLD_a (n : Nat) : (AX_SEQ_CUR_HOLD n).a = 0x841 + 0x100 * n := id rfl
@[simp] theorem AX_SEQ_CUR_HOLD_lo (n : Nat) : (AX_SEQ_CUR_HOLD n).lo = 16 := id rfl
@[simp] theorem AX_SEQ_CUR_HOLD_w (n : Nat) : (AX_SEQ_CUR_HOLD n).w = 12 := id rfl
@[simp] theorem AX_SEQ_HOLD_HOLD_DLY_a (n : Nat) : (AX_SEQ_HOLD_HOLD_DLY n).a = 0x842 + 0x100 * n := id rfl
@[simp] theorem AX_SEQ_HOLD_HOLD_DLY_lo (n : Nat) : (AX_SEQ_HOLD_HOLD_DLY n).lo = 0 := id rfl
@[simp] theorem AX_SEQ_HOLD_HOLD_DLY_w (n : Nat) : (AX_SEQ_HOLD_HOLD_DLY n).w = 16 := id rfl
@[simp] theorem AX_SEQ_HOLD_HOLD_RAMP_a (n : Nat) : (AX_SEQ_HOLD_HOLD_RAMP n).a = 0x842 + 0x100 * n := id rfl
@[simp] theorem AX_SEQ_HOLD_HOLD_RAMP_lo (n : Nat) : (AX_SEQ_HOLD_HOLD_RAMP n).lo = 16 := id rfl
@[simp] theorem AX_SEQ_HOLD_HOLD_RAMP_w (n : Nat) : (AX_SEQ_HOLD_HOLD_RAMP n).w = 16 := id rfl
@[simp] theorem AX_ACR_CFG_LA_LO_a (n : Nat) : (AX_ACR_CFG_LA_LO n).a = 0x843 + 0x100 * n := id rfl
@[simp] theorem AX_ACR_CFG_LA_LO_lo (n : Nat) : (AX_ACR_CFG_LA_LO n).lo = 0 := id rfl
@[simp] theorem AX_ACR_CFG_LA_LO_w (n : Nat) : (AX_ACR_CFG_LA_LO n).w = 8 := id rfl
@[simp] theorem AX_ACR_CFG_LA_HI_a (n : Nat) : (AX_ACR_CFG_LA_HI n).a = 0x843 + 0x100 * n := id rfl
@[simp] theorem AX_ACR_CFG_LA_HI_lo (n : Nat) : (AX_ACR_CFG_LA_HI n).lo = 8 := id rfl
@[simp] theorem AX_ACR_CFG_LA_HI_w (n : Nat) : (AX_ACR_CFG_LA_HI n).w = 8 := id rfl
@[simp] theorem AX_ACR_CFG_MIN_a (n : Nat) : (AX_ACR_CFG_MIN n).a = 0x843 + 0x100 * n := id rfl
@[simp] theorem AX_ACR_CFG_MIN_lo (n : Nat) : (AX_ACR_CFG_MIN n).lo = 16 := id rfl
@[simp] theorem AX_ACR_CFG_MIN_w (n : Nat) : (AX_ACR_CFG_MIN n).w = 8 := id rfl
@[simp] theorem AX_ACR_CFG_DN_a (n : Nat) : (AX_ACR_CFG_DN n).a = 0x843 + 0x100 * n := id rfl
@[simp] theorem AX_ACR_CFG_DN_lo (n : Nat) : (AX_ACR_CFG_DN n).lo = 24 := id rfl
@[simp] theorem AX_ACR_CFG_DN_w (n : Nat) : (AX_ACR_CFG_DN n).w = 4 := id rfl
@[simp] theorem AX_ACR_CFG_UP_a (n : Nat) : (AX_ACR_CFG_UP n).a = 0x843 + 0x100 * n := id rfl
@[simp] theorem AX_ACR_CFG_UP_lo (n : Nat) : (AX_ACR_CFG_UP n).lo = 28 := id rfl
@[simp] theorem AX_ACR_CFG_UP_w (n : Nat) : (AX_ACR_CFG_UP n).w = 4 := id rfl
@[simp] theorem AX_SEQ_STAT_AMP_a (n : Nat) : (AX_SEQ_STAT_AMP n).a = 0x844 + 0x100 * n := id rfl
@[simp] theorem AX_SEQ_STAT_AMP_lo (n : Nat) : (AX_SEQ_STAT_AMP n).lo = 0 := id rfl
@[simp] theorem AX_SEQ_STAT_AMP_w (n : Nat) : (AX_SEQ_STAT_AMP n).w = 12 := id rfl
@[simp] theorem AX_SEQ_STAT_HOLD_RED_a (n : Nat) : (AX_SEQ_STAT_HOLD_RED n).a = 0x844 + 0x100 * n := id rfl
@[simp] theorem AX_SEQ_STAT_HOLD_RED_lo (n : Nat) : (AX_SEQ_STAT_HOLD_RED n).lo = 12 := id rfl
@[simp] theorem AX_SEQ_STAT_HOLD_RED_w (n : Nat) : (AX_SEQ_STAT_HOLD_RED n).w = 1 := id rfl
@[simp] theorem AX_SEQ_STAT_CEIL_LIM_a (n : Nat) : (AX_SEQ_STAT_CEIL_LIM n).a = 0x844 + 0x100 * n := id rfl
@[simp] theorem AX_SEQ_STAT_CEIL_LIM_lo (n : Nat) : (AX_SEQ_STAT_CEIL_LIM n).lo = 13 := id rfl
@[simp] theorem AX_SEQ_STAT_CEIL_LIM_w (n : Nat) : (AX_SEQ_STAT_CEIL_LIM n).w = 1 := id rfl
@[simp] theorem AX_SEQ_STAT_ACR_RED_a (n : Nat) : (AX_SEQ_STAT_ACR_RED n).a = 0x844 + 0x100 * n := id rfl
@[simp] theorem AX_SEQ_STAT_ACR_RED_lo (n : Nat) : (AX_SEQ_STAT_ACR_RED n).lo = 14 := id rfl
@[simp] theorem AX_SEQ_STAT_ACR_RED_w (n : Nat) : (AX_SEQ_STAT_ACR_RED n).w = 1 := id rfl
@[simp] theorem AX_SEQ_STAT_PEND_a (n : Nat) : (AX_SEQ_STAT_PEND n).a = 0x844 + 0x100 * n := id rfl
@[simp] theorem AX_SEQ_STAT_PEND_lo (n : Nat) : (AX_SEQ_STAT_PEND n).lo = 15 := id rfl
@[simp] theorem AX_SEQ_STAT_PEND_w (n : Nat) : (AX_SEQ_STAT_PEND n).w = 1 := id rfl
@[simp] theorem AX_SEQ_STAT_ANGLE_a (n : Nat) : (AX_SEQ_STAT_ANGLE n).a = 0x844 + 0x100 * n := id rfl
@[simp] theorem AX_SEQ_STAT_ANGLE_lo (n : Nat) : (AX_SEQ_STAT_ANGLE n).lo = 16 := id rfl
@[simp] theorem AX_SEQ_STAT_ANGLE_w (n : Nat) : (AX_SEQ_STAT_ANGLE n).w = 14 := id rfl
@[simp] theorem AX_SEQ_STAT_RANGE_ACT_a (n : Nat) : (AX_SEQ_STAT_RANGE_ACT n).a = 0x844 + 0x100 * n := id rfl
@[simp] theorem AX_SEQ_STAT_RANGE_ACT_lo (n : Nat) : (AX_SEQ_STAT_RANGE_ACT n).lo = 30 := id rfl
@[simp] theorem AX_SEQ_STAT_RANGE_ACT_w (n : Nat) : (AX_SEQ_STAT_RANGE_ACT n).w = 2 := id rfl
@[simp] theorem AX_SEQ_SP_SP_A_a (n : Nat) : (AX_SEQ_SP_SP_A n).a = 0x845 + 0x100 * n := id rfl
@[simp] theorem AX_SEQ_SP_SP_A_lo (n : Nat) : (AX_SEQ_SP_SP_A n).lo = 0 := id rfl
@[simp] theorem AX_SEQ_SP_SP_A_w (n : Nat) : (AX_SEQ_SP_SP_A n).w = 16 := id rfl
@[simp] theorem AX_SEQ_SP_SP_B_a (n : Nat) : (AX_SEQ_SP_SP_B n).a = 0x845 + 0x100 * n := id rfl
@[simp] theorem AX_SEQ_SP_SP_B_lo (n : Nat) : (AX_SEQ_SP_SP_B n).lo = 16 := id rfl
@[simp] theorem AX_SEQ_SP_SP_B_w (n : Nat) : (AX_SEQ_SP_SP_B n).w = 16 := id rfl
@[simp] theorem AX_ACR_STAT_G_a (n : Nat) : (AX_ACR_STAT_G n).a = 0x846 + 0x100 * n := id rfl
@[simp] theorem AX_ACR_STAT_G_lo (n : Nat) : (AX_ACR_STAT_G n).lo = 0 := id rfl
@[simp] theorem AX_ACR_STAT_G_w (n : Nat) : (AX_ACR_STAT_G n).w = 9 := id rfl
@[simp] theorem AX_IDCHK_CFG_GO_a (n : Nat) : (AX_IDCHK_CFG_GO n).a = 0x847 + 0x100 * n := id rfl
@[simp] theorem AX_IDCHK_CFG_GO_lo (n : Nat) : (AX_IDCHK_CFG_GO n).lo = 0 := id rfl
@[simp] theorem AX_IDCHK_CFG_GO_w (n : Nat) : (AX_IDCHK_CFG_GO n).w = 1 := id rfl
@[simp] theorem AX_IDCHK_CFG_DIR_EN_a (n : Nat) : (AX_IDCHK_CFG_DIR_EN n).a = 0x847 + 0x100 * n := id rfl
@[simp] theorem AX_IDCHK_CFG_DIR_EN_lo (n : Nat) : (AX_IDCHK_CFG_DIR_EN n).lo = 1 := id rfl
@[simp] theorem AX_IDCHK_CFG_DIR_EN_w (n : Nat) : (AX_IDCHK_CFG_DIR_EN n).w = 1 := id rfl
@[simp] theorem AX_IDCHK_CFG_AUTOFIX_a (n : Nat) : (AX_IDCHK_CFG_AUTOFIX n).a = 0x847 + 0x100 * n := id rfl
@[simp] theorem AX_IDCHK_CFG_AUTOFIX_lo (n : Nat) : (AX_IDCHK_CFG_AUTOFIX n).lo = 2 := id rfl
@[simp] theorem AX_IDCHK_CFG_AUTOFIX_w (n : Nat) : (AX_IDCHK_CFG_AUTOFIX n).w = 1 := id rfl
@[simp] theorem AX_IDCHK_CFG_ITEST_a (n : Nat) : (AX_IDCHK_CFG_ITEST n).a = 0x847 + 0x100 * n := id rfl
@[simp] theorem AX_IDCHK_CFG_ITEST_lo (n : Nat) : (AX_IDCHK_CFG_ITEST n).lo = 8 := id rfl
@[simp] theorem AX_IDCHK_CFG_ITEST_w (n : Nat) : (AX_IDCHK_CFG_ITEST n).w = 12 := id rfl
@[simp] theorem AX_IDCHK_CFG_TMAX_a (n : Nat) : (AX_IDCHK_CFG_TMAX n).a = 0x847 + 0x100 * n := id rfl
@[simp] theorem AX_IDCHK_CFG_TMAX_lo (n : Nat) : (AX_IDCHK_CFG_TMAX n).lo = 20 := id rfl
@[simp] theorem AX_IDCHK_CFG_TMAX_w (n : Nat) : (AX_IDCHK_CFG_TMAX n).w = 4 := id rfl
@[simp] theorem AX_IDCHK_CFG_RTOL_a (n : Nat) : (AX_IDCHK_CFG_RTOL n).a = 0x847 + 0x100 * n := id rfl
@[simp] theorem AX_IDCHK_CFG_RTOL_lo (n : Nat) : (AX_IDCHK_CFG_RTOL n).lo = 24 := id rfl
@[simp] theorem AX_IDCHK_CFG_RTOL_w (n : Nat) : (AX_IDCHK_CFG_RTOL n).w = 8 := id rfl
@[simp] theorem AX_IDCHK_STAT_BUSY_a (n : Nat) : (AX_IDCHK_STAT_BUSY n).a = 0x848 + 0x100 * n := id rfl
@[simp] theorem AX_IDCHK_STAT_BUSY_lo (n : Nat) : (AX_IDCHK_STAT_BUSY n).lo = 0 := id rfl
@[simp] theorem AX_IDCHK_STAT_BUSY_w (n : Nat) : (AX_IDCHK_STAT_BUSY n).w = 1 := id rfl
@[simp] theorem AX_IDCHK_STAT_PHASE_a (n : Nat) : (AX_IDCHK_STAT_PHASE n).a = 0x848 + 0x100 * n := id rfl
@[simp] theorem AX_IDCHK_STAT_PHASE_lo (n : Nat) : (AX_IDCHK_STAT_PHASE n).lo = 1 := id rfl
@[simp] theorem AX_IDCHK_STAT_PHASE_w (n : Nat) : (AX_IDCHK_STAT_PHASE n).w = 3 := id rfl
@[simp] theorem AX_IDCHK_STAT_RESULT_a (n : Nat) : (AX_IDCHK_STAT_RESULT n).a = 0x848 + 0x100 * n := id rfl
@[simp] theorem AX_IDCHK_STAT_RESULT_lo (n : Nat) : (AX_IDCHK_STAT_RESULT n).lo = 4 := id rfl
@[simp] theorem AX_IDCHK_STAT_RESULT_w (n : Nat) : (AX_IDCHK_STAT_RESULT n).w = 4 := id rfl
@[simp] theorem AX_IDCHK_STAT_DIR_a (n : Nat) : (AX_IDCHK_STAT_DIR n).a = 0x848 + 0x100 * n := id rfl
@[simp] theorem AX_IDCHK_STAT_DIR_lo (n : Nat) : (AX_IDCHK_STAT_DIR n).lo = 8 := id rfl
@[simp] theorem AX_IDCHK_STAT_DIR_w (n : Nat) : (AX_IDCHK_STAT_DIR n).w = 2 := id rfl
@[simp] theorem AX_IDCHK_STAT_FIXED_a (n : Nat) : (AX_IDCHK_STAT_FIXED n).a = 0x848 + 0x100 * n := id rfl
@[simp] theorem AX_IDCHK_STAT_FIXED_lo (n : Nat) : (AX_IDCHK_STAT_FIXED n).lo = 10 := id rfl
@[simp] theorem AX_IDCHK_STAT_FIXED_w (n : Nat) : (AX_IDCHK_STAT_FIXED n).w = 1 := id rfl
@[simp] theorem AX_IDCHK_STAT_REFUSED_a (n : Nat) : (AX_IDCHK_STAT_REFUSED n).a = 0x848 + 0x100 * n := id rfl
@[simp] theorem AX_IDCHK_STAT_REFUSED_lo (n : Nat) : (AX_IDCHK_STAT_REFUSED n).lo = 11 := id rfl
@[simp] theorem AX_IDCHK_STAT_REFUSED_w (n : Nat) : (AX_IDCHK_STAT_REFUSED n).w = 1 := id rfl
@[simp] theorem AX_IDCHK_STAT_PAIRS_a (n : Nat) : (AX_IDCHK_STAT_PAIRS n).a = 0x848 + 0x100 * n := id rfl
@[simp] theorem AX_IDCHK_STAT_PAIRS_lo (n : Nat) : (AX_IDCHK_STAT_PAIRS n).lo = 12 := id rfl
@[simp] theorem AX_IDCHK_STAT_PAIRS_w (n : Nat) : (AX_IDCHK_STAT_PAIRS n).w = 6 := id rfl
@[simp] theorem AX_IDCHK_RA_R_MOHM_a (n : Nat) : (AX_IDCHK_RA_R_MOHM n).a = 0x849 + 0x100 * n := id rfl
@[simp] theorem AX_IDCHK_RA_R_MOHM_lo (n : Nat) : (AX_IDCHK_RA_R_MOHM n).lo = 0 := id rfl
@[simp] theorem AX_IDCHK_RA_R_MOHM_w (n : Nat) : (AX_IDCHK_RA_R_MOHM n).w = 16 := id rfl
@[simp] theorem AX_IDCHK_RA_L_UH_a (n : Nat) : (AX_IDCHK_RA_L_UH n).a = 0x849 + 0x100 * n := id rfl
@[simp] theorem AX_IDCHK_RA_L_UH_lo (n : Nat) : (AX_IDCHK_RA_L_UH n).lo = 16 := id rfl
@[simp] theorem AX_IDCHK_RA_L_UH_w (n : Nat) : (AX_IDCHK_RA_L_UH n).w = 16 := id rfl
@[simp] theorem AX_IDCHK_RB_R_MOHM_a (n : Nat) : (AX_IDCHK_RB_R_MOHM n).a = 0x84a + 0x100 * n := id rfl
@[simp] theorem AX_IDCHK_RB_R_MOHM_lo (n : Nat) : (AX_IDCHK_RB_R_MOHM n).lo = 0 := id rfl
@[simp] theorem AX_IDCHK_RB_R_MOHM_w (n : Nat) : (AX_IDCHK_RB_R_MOHM n).w = 16 := id rfl
@[simp] theorem AX_IDCHK_RB_L_UH_a (n : Nat) : (AX_IDCHK_RB_L_UH n).a = 0x84a + 0x100 * n := id rfl
@[simp] theorem AX_IDCHK_RB_L_UH_lo (n : Nat) : (AX_IDCHK_RB_L_UH n).lo = 16 := id rfl
@[simp] theorem AX_IDCHK_RB_L_UH_w (n : Nat) : (AX_IDCHK_RB_L_UH n).w = 16 := id rfl
@[simp] theorem CO_REG_CFG_MODE_a (c : Nat) : (CO_REG_CFG_MODE c).a = 0x850 + 0x100 * (c / 2) + 0x10 * (c % 2) := id rfl
@[simp] theorem CO_REG_CFG_MODE_lo (c : Nat) : (CO_REG_CFG_MODE c).lo = 0 := id rfl
@[simp] theorem CO_REG_CFG_MODE_w (c : Nat) : (CO_REG_CFG_MODE c).w = 2 := id rfl
@[simp] theorem CO_REG_CFG_DECAY_a (c : Nat) : (CO_REG_CFG_DECAY c).a = 0x850 + 0x100 * (c / 2) + 0x10 * (c % 2) := id rfl
@[simp] theorem CO_REG_CFG_DECAY_lo (c : Nat) : (CO_REG_CFG_DECAY c).lo = 2 := id rfl
@[simp] theorem CO_REG_CFG_DECAY_w (c : Nat) : (CO_REG_CFG_DECAY c).w = 2 := id rfl
@[simp] theorem CO_REG_CFG_FASTPCT_a (c : Nat) : (CO_REG_CFG_FASTPCT c).a = 0x850 + 0x100 * (c / 2) + 0x10 * (c % 2) := id rfl
@[simp] theorem CO_REG_CFG_FASTPCT_lo (c : Nat) : (CO_REG_CFG_FASTPCT c).lo = 4 := id rfl
@[simp] theorem CO_REG_CFG_FASTPCT_w (c : Nat) : (CO_REG_CFG_FASTPCT c).w = 8 := id rfl
@[simp] theorem CO_REG_CFG_TBLANK_a (c : Nat) : (CO_REG_CFG_TBLANK c).a = 0x850 + 0x100 * (c / 2) + 0x10 * (c % 2) := id rfl
@[simp] theorem CO_REG_CFG_TBLANK_lo (c : Nat) : (CO_REG_CFG_TBLANK c).lo = 12 := id rfl
@[simp] theorem CO_REG_CFG_TBLANK_w (c : Nat) : (CO_REG_CFG_TBLANK c).w = 7 := id rfl
@[simp] theorem CO_REG_GAIN_KP_a (c : Nat) : (CO_REG_GAIN_KP c).a = 0x851 + 0x100 * (c / 2) + 0x10 * (c % 2) := id rfl
@[simp] theorem CO_REG_GAIN_KP_lo (c : Nat) : (CO_REG_GAIN_KP c).lo = 0 := id rfl
@[simp] theorem CO_REG_GAIN_KP_w (c : Nat) : (CO_REG_GAIN_KP c).w = 16 := id rfl
@[simp] theorem CO_REG_GAIN_KI_a (c : Nat) : (CO_REG_GAIN_KI c).a = 0x851 + 0x100 * (c / 2) + 0x10 * (c % 2) := id rfl
@[simp] theorem CO_REG_GAIN_KI_lo (c : Nat) : (CO_REG_GAIN_KI c).lo = 16 := id rfl
@[simp] theorem CO_REG_GAIN_KI_w (c : Nat) : (CO_REG_GAIN_KI c).w = 16 := id rfl
@[simp] theorem CO_REG_TIME_TOFF_a (c : Nat) : (CO_REG_TIME_TOFF c).a = 0x852 + 0x100 * (c / 2) + 0x10 * (c % 2) := id rfl
@[simp] theorem CO_REG_TIME_TOFF_lo (c : Nat) : (CO_REG_TIME_TOFF c).lo = 0 := id rfl
@[simp] theorem CO_REG_TIME_TOFF_w (c : Nat) : (CO_REG_TIME_TOFF c).w = 14 := id rfl
@[simp] theorem CO_REG_TIME_TON_a (c : Nat) : (CO_REG_TIME_TON c).a = 0x852 + 0x100 * (c / 2) + 0x10 * (c % 2) := id rfl
@[simp] theorem CO_REG_TIME_TON_lo (c : Nat) : (CO_REG_TIME_TON c).lo = 16 := id rfl
@[simp] theorem CO_REG_TIME_TON_w (c : Nat) : (CO_REG_TIME_TON c).w = 14 := id rfl
@[simp] theorem CO_REG_SLOT01_SP0_a (c : Nat) : (CO_REG_SLOT01_SP0 c).a = 0x853 + 0x100 * (c / 2) + 0x10 * (c % 2) := id rfl
@[simp] theorem CO_REG_SLOT01_SP0_lo (c : Nat) : (CO_REG_SLOT01_SP0 c).lo = 0 := id rfl
@[simp] theorem CO_REG_SLOT01_SP0_w (c : Nat) : (CO_REG_SLOT01_SP0 c).w = 16 := id rfl
@[simp] theorem CO_REG_SLOT01_SP1_a (c : Nat) : (CO_REG_SLOT01_SP1 c).a = 0x853 + 0x100 * (c / 2) + 0x10 * (c % 2) := id rfl
@[simp] theorem CO_REG_SLOT01_SP1_lo (c : Nat) : (CO_REG_SLOT01_SP1 c).lo = 16 := id rfl
@[simp] theorem CO_REG_SLOT01_SP1_w (c : Nat) : (CO_REG_SLOT01_SP1 c).w = 16 := id rfl
@[simp] theorem CO_REG_SLOT2_SP2_a (c : Nat) : (CO_REG_SLOT2_SP2 c).a = 0x854 + 0x100 * (c / 2) + 0x10 * (c % 2) := id rfl
@[simp] theorem CO_REG_SLOT2_SP2_lo (c : Nat) : (CO_REG_SLOT2_SP2 c).lo = 0 := id rfl
@[simp] theorem CO_REG_SLOT2_SP2_w (c : Nat) : (CO_REG_SLOT2_SP2 c).w = 16 := id rfl
@[simp] theorem CO_REG_STAT_IMEAS_a (c : Nat) : (CO_REG_STAT_IMEAS c).a = 0x855 + 0x100 * (c / 2) + 0x10 * (c % 2) := id rfl
@[simp] theorem CO_REG_STAT_IMEAS_lo (c : Nat) : (CO_REG_STAT_IMEAS c).lo = 0 := id rfl
@[simp] theorem CO_REG_STAT_IMEAS_w (c : Nat) : (CO_REG_STAT_IMEAS c).w = 16 := id rfl
@[simp] theorem CO_REG_STAT_SAT_a (c : Nat) : (CO_REG_STAT_SAT c).a = 0x855 + 0x100 * (c / 2) + 0x10 * (c % 2) := id rfl
@[simp] theorem CO_REG_STAT_SAT_lo (c : Nat) : (CO_REG_STAT_SAT c).lo = 16 := id rfl
@[simp] theorem CO_REG_STAT_SAT_w (c : Nat) : (CO_REG_STAT_SAT c).w = 1 := id rfl
@[simp] theorem CO_REG_STAT_SLOT_ERR_a (c : Nat) : (CO_REG_STAT_SLOT_ERR c).a = 0x855 + 0x100 * (c / 2) + 0x10 * (c % 2) := id rfl
@[simp] theorem CO_REG_STAT_SLOT_ERR_lo (c : Nat) : (CO_REG_STAT_SLOT_ERR c).lo = 17 := id rfl
@[simp] theorem CO_REG_STAT_SLOT_ERR_w (c : Nat) : (CO_REG_STAT_SLOT_ERR c).w = 1 := id rfl
@[simp] theorem CO_REG_STAT_MAXON_a (c : Nat) : (CO_REG_STAT_MAXON c).a = 0x855 + 0x100 * (c / 2) + 0x10 * (c % 2) := id rfl
@[simp] theorem CO_REG_STAT_MAXON_lo (c : Nat) : (CO_REG_STAT_MAXON c).lo = 18 := id rfl
@[simp] theorem CO_REG_STAT_MAXON_w (c : Nat) : (CO_REG_STAT_MAXON c).w = 1 := id rfl
@[simp] theorem CO_REG_STAT_NEG_a (c : Nat) : (CO_REG_STAT_NEG c).a = 0x855 + 0x100 * (c / 2) + 0x10 * (c % 2) := id rfl
@[simp] theorem CO_REG_STAT_NEG_lo (c : Nat) : (CO_REG_STAT_NEG c).lo = 19 := id rfl
@[simp] theorem CO_REG_STAT_NEG_w (c : Nat) : (CO_REG_STAT_NEG c).w = 1 := id rfl
@[simp] theorem CO_REG_CNT_S0_SKIP_a (c : Nat) : (CO_REG_CNT_S0_SKIP c).a = 0x856 + 0x100 * (c / 2) + 0x10 * (c % 2) := id rfl
@[simp] theorem CO_REG_CNT_S0_SKIP_lo (c : Nat) : (CO_REG_CNT_S0_SKIP c).lo = 0 := id rfl
@[simp] theorem CO_REG_CNT_S0_SKIP_w (c : Nat) : (CO_REG_CNT_S0_SKIP c).w = 8 := id rfl
@[simp] theorem CO_REG_CNT_OBS_SKIP_a (c : Nat) : (CO_REG_CNT_OBS_SKIP c).a = 0x856 + 0x100 * (c / 2) + 0x10 * (c % 2) := id rfl
@[simp] theorem CO_REG_CNT_OBS_SKIP_lo (c : Nat) : (CO_REG_CNT_OBS_SKIP c).lo = 8 := id rfl
@[simp] theorem CO_REG_CNT_OBS_SKIP_w (c : Nat) : (CO_REG_CNT_OBS_SKIP c).w = 8 := id rfl
@[simp] theorem CO_REG_CNT_FORCED_a (c : Nat) : (CO_REG_CNT_FORCED c).a = 0x856 + 0x100 * (c / 2) + 0x10 * (c % 2) := id rfl
@[simp] theorem CO_REG_CNT_FORCED_lo (c : Nat) : (CO_REG_CNT_FORCED c).lo = 16 := id rfl
@[simp] theorem CO_REG_CNT_FORCED_w (c : Nat) : (CO_REG_CNT_FORCED c).w = 8 := id rfl
@[simp] theorem CO_REG_CNT_CLR_a (c : Nat) : (CO_REG_CNT_CLR c).a = 0x856 + 0x100 * (c / 2) + 0x10 * (c % 2) := id rfl
@[simp] theorem CO_REG_CNT_CLR_lo (c : Nat) : (CO_REG_CNT_CLR c).lo = 31 := id rfl
@[simp] theorem CO_REG_CNT_CLR_w (c : Nat) : (CO_REG_CNT_CLR c).w = 1 := id rfl
@[simp] theorem CO_PWM_PER_PERIOD_a (c : Nat) : (CO_PWM_PER_PERIOD c).a = 0x857 + 0x100 * (c / 2) + 0x10 * (c % 2) := id rfl
@[simp] theorem CO_PWM_PER_PERIOD_lo (c : Nat) : (CO_PWM_PER_PERIOD c).lo = 0 := id rfl
@[simp] theorem CO_PWM_PER_PERIOD_w (c : Nat) : (CO_PWM_PER_PERIOD c).w = 20 := id rfl
@[simp] theorem CO_PWM_CMP_CMP_a (c : Nat) : (CO_PWM_CMP_CMP c).a = 0x858 + 0x100 * (c / 2) + 0x10 * (c % 2) := id rfl
@[simp] theorem CO_PWM_CMP_CMP_lo (c : Nat) : (CO_PWM_CMP_CMP c).lo = 0 := id rfl
@[simp] theorem CO_PWM_CMP_CMP_w (c : Nat) : (CO_PWM_CMP_CMP c).w = 20 := id rfl
@[simp] theorem CO_PWM_CMP_DIR_a (c : Nat) : (CO_PWM_CMP_DIR c).a = 0x858 + 0x100 * (c / 2) + 0x10 * (c % 2) := id rfl
@[simp] theorem CO_PWM_CMP_DIR_lo (c : Nat) : (CO_PWM_CMP_DIR c).lo = 20 := id rfl
@[simp] theorem CO_PWM_CMP_DIR_w (c : Nat) : (CO_PWM_CMP_DIR c).w = 1 := id rfl
@[simp] theorem CO_PWM_CFG_DT_a (c : Nat) : (CO_PWM_CFG_DT c).a = 0x859 + 0x100 * (c / 2) + 0x10 * (c % 2) := id rfl
@[simp] theorem CO_PWM_CFG_DT_lo (c : Nat) : (CO_PWM_CFG_DT c).lo = 0 := id rfl
@[simp] theorem CO_PWM_CFG_DT_w (c : Nat) : (CO_PWM_CFG_DT c).w = 9 := id rfl
@[simp] theorem CO_PWM_CFG_SWAP_a (c : Nat) : (CO_PWM_CFG_SWAP c).a = 0x859 + 0x100 * (c / 2) + 0x10 * (c % 2) := id rfl
@[simp] theorem CO_PWM_CFG_SWAP_lo (c : Nat) : (CO_PWM_CFG_SWAP c).lo = 9 := id rfl
@[simp] theorem CO_PWM_CFG_SWAP_w (c : Nat) : (CO_PWM_CFG_SWAP c).w = 1 := id rfl
@[simp] theorem CO_PWM_CFG_INV_a (c : Nat) : (CO_PWM_CFG_INV c).a = 0x859 + 0x100 * (c / 2) + 0x10 * (c % 2) := id rfl
@[simp] theorem CO_PWM_CFG_INV_lo (c : Nat) : (CO_PWM_CFG_INV c).lo = 10 := id rfl
@[simp] theorem CO_PWM_CFG_INV_w (c : Nat) : (CO_PWM_CFG_INV c).w = 1 := id rfl
@[simp] theorem CO_PWM_CFG_SYNC_EN_a (c : Nat) : (CO_PWM_CFG_SYNC_EN c).a = 0x859 + 0x100 * (c / 2) + 0x10 * (c % 2) := id rfl
@[simp] theorem CO_PWM_CFG_SYNC_EN_lo (c : Nat) : (CO_PWM_CFG_SYNC_EN c).lo = 11 := id rfl
@[simp] theorem CO_PWM_CFG_SYNC_EN_w (c : Nat) : (CO_PWM_CFG_SYNC_EN c).w = 1 := id rfl
@[simp] theorem CO_PWM_CFG_SLEW_a (c : Nat) : (CO_PWM_CFG_SLEW c).a = 0x859 + 0x100 * (c / 2) + 0x10 * (c % 2) := id rfl
@[simp] theorem CO_PWM_CFG_SLEW_lo (c : Nat) : (CO_PWM_CFG_SLEW c).lo = 12 := id rfl
@[simp] theorem CO_PWM_CFG_SLEW_w (c : Nat) : (CO_PWM_CFG_SLEW c).w = 2 := id rfl
@[simp] theorem CO_PWM_CFG_PHASE_a (c : Nat) : (CO_PWM_CFG_PHASE c).a = 0x859 + 0x100 * (c / 2) + 0x10 * (c % 2) := id rfl
@[simp] theorem CO_PWM_CFG_PHASE_lo (c : Nat) : (CO_PWM_CFG_PHASE c).lo = 16 := id rfl
@[simp] theorem CO_PWM_CFG_PHASE_w (c : Nat) : (CO_PWM_CFG_PHASE c).w = 16 := id rfl
@[simp] theorem CO_PWM_STAT_SPLIT_COMMIT_a (c : Nat) : (CO_PWM_STAT_SPLIT_COMMIT c).a = 0x85a + 0x100 * (c / 2) + 0x10 * (c % 2) := id rfl
@[simp] theorem CO_PWM_STAT_SPLIT_COMMIT_lo (c : Nat) : (CO_PWM_STAT_SPLIT_COMMIT c).lo = 0 := id rfl
@[simp] theorem CO_PWM_STAT_SPLIT_COMMIT_w (c : Nat) : (CO_PWM_STAT_SPLIT_COMMIT c).w = 1 := id rfl
@[simp] theorem CO_PWM_STAT_ALWAYS_ON_a (c : Nat) : (CO_PWM_STAT_ALWAYS_ON c).a = 0x85a + 0x100 * (c / 2) + 0x10 * (c % 2) := id rfl
@[simp] theorem CO_PWM_STAT_ALWAYS_ON_lo (c : Nat) : (CO_PWM_STAT_ALWAYS_ON c).lo = 1 := id rfl
@[simp] theorem CO_PWM_STAT_ALWAYS_ON_w (c : Nat) : (CO_PWM_STAT_ALWAYS_ON c).w = 1 := id rfl
@[simp] theorem CO_PWM_STAT_SYNCED_a (c : Nat) : (CO_PWM_STAT_SYNCED c).a = 0x85a + 0x100 * (c / 2) + 0x10 * (c % 2) := id rfl
@[simp] theorem CO_PWM_STAT_SYNCED_lo (c : Nat) : (CO_PWM_STAT_SYNCED c).lo = 2 := id rfl
@[simp] theorem CO_PWM_STAT_SYNCED_w (c : Nat) : (CO_PWM_STAT_SYNCED c).w = 1 := id rfl
@[simp] theorem CO_PWM_STAT_SYNC_LOST_a (c : Nat) : (CO_PWM_STAT_SYNC_LOST c).a = 0x85a + 0x100 * (c / 2) + 0x10 * (c % 2) := id rfl
@[simp] theorem CO_PWM_STAT_SYNC_LOST_lo (c : Nat) : (CO_PWM_STAT_SYNC_LOST c).lo = 3 := id rfl
@[simp] theorem CO_PWM_STAT_SYNC_LOST_w (c : Nat) : (CO_PWM_STAT_SYNC_LOST c).w = 1 := id rfl
@[simp] theorem CO_PWM_STAT_GATES_OFF_a (c : Nat) : (CO_PWM_STAT_GATES_OFF c).a = 0x85a + 0x100 * (c / 2) + 0x10 * (c % 2) := id rfl
@[simp] theorem CO_PWM_STAT_GATES_OFF_lo (c : Nat) : (CO_PWM_STAT_GATES_OFF c).lo = 4 := id rfl
@[simp] theorem CO_PWM_STAT_GATES_OFF_w (c : Nat) : (CO_PWM_STAT_GATES_OFF c).w = 1 := id rfl
@[simp] theorem CO_PWM_STAT_TRIPPED_a (c : Nat) : (CO_PWM_STAT_TRIPPED c).a = 0x85a + 0x100 * (c / 2) + 0x10 * (c % 2) := id rfl
@[simp] theorem CO_PWM_STAT_TRIPPED_lo (c : Nat) : (CO_PWM_STAT_TRIPPED c).lo = 5 := id rfl
@[simp] theorem CO_PWM_STAT_TRIPPED_w (c : Nat) : (CO_PWM_STAT_TRIPPED c).w = 1 := id rfl
@[simp] theorem CO_PWM_STAT_DIDX_a (c : Nat) : (CO_PWM_STAT_DIDX c).a = 0x85a + 0x100 * (c / 2) + 0x10 * (c % 2) := id rfl
@[simp] theorem CO_PWM_STAT_DIDX_lo (c : Nat) : (CO_PWM_STAT_DIDX c).lo = 8 := id rfl
@[simp] theorem CO_PWM_STAT_DIDX_w (c : Nat) : (CO_PWM_STAT_DIDX c).w = 4 := id rfl
@[simp] theorem CO_PWM_STAT_PER_ACT_a (c : Nat) : (CO_PWM_STAT_PER_ACT c).a = 0x85a + 0x100 * (c / 2) + 0x10 * (c % 2) := id rfl
@[simp] theorem CO_PWM_STAT_PER_ACT_lo (c : Nat) : (CO_PWM_STAT_PER_ACT c).lo = 12 := id rfl
@[simp] theorem CO_PWM_STAT_PER_ACT_w (c : Nat) : (CO_PWM_STAT_PER_ACT c).w = 20 := id rfl
@[simp] theorem CO_PWM_CNT_NARROW_a (c : Nat) : (CO_PWM_CNT_NARROW c).a = 0x85b + 0x100 * (c / 2) + 0x10 * (c % 2) := id rfl
@[simp] theorem CO_PWM_CNT_NARROW_lo (c : Nat) : (CO_PWM_CNT_NARROW c).lo = 0 := id rfl
@[simp] theorem CO_PWM_CNT_NARROW_w (c : Nat) : (CO_PWM_CNT_NARROW c).w = 8 := id rfl
@[simp] theorem CO_PWM_CNT_SLIP_a (c : Nat) : (CO_PWM_CNT_SLIP c).a = 0x85b + 0x100 * (c / 2) + 0x10 * (c % 2) := id rfl
@[simp] theorem CO_PWM_CNT_SLIP_lo (c : Nat) : (CO_PWM_CNT_SLIP c).lo = 8 := id rfl
@[simp] theorem CO_PWM_CNT_SLIP_w (c : Nat) : (CO_PWM_CNT_SLIP c).w = 8 := id rfl
@[simp] theorem CO_PWM_CNT_TRIP_CANCEL_a (c : Nat) : (CO_PWM_CNT_TRIP_CANCEL c).a = 0x85b + 0x100 * (c / 2) + 0x10 * (c % 2) := id rfl
@[simp] theorem CO_PWM_CNT_TRIP_CANCEL_lo (c : Nat) : (CO_PWM_CNT_TRIP_CANCEL c).lo = 16 := id rfl
@[simp] theorem CO_PWM_CNT_TRIP_CANCEL_w (c : Nat) : (CO_PWM_CNT_TRIP_CANCEL c).w = 8 := id rfl
@[simp] theorem CO_PWM_CNT_CLR_a (c : Nat) : (CO_PWM_CNT_CLR c).a = 0x85b + 0x100 * (c / 2) + 0x10 * (c % 2) := id rfl
@[simp] theorem CO_PWM_CNT_CLR_lo (c : Nat) : (CO_PWM_CNT_CLR c).lo = 31 := id rfl
@[simp] theorem CO_PWM_CNT_CLR_w (c : Nat) : (CO_PWM_CNT_CLR c).w = 1 := id rfl
@[simp] theorem PWR_TRIP_CFG_AXMASK_a (t : Nat) : (PWR_TRIP_CFG_AXMASK t).a = 0x180 + t := id rfl
@[simp] theorem PWR_TRIP_CFG_AXMASK_lo (t : Nat) : (PWR_TRIP_CFG_AXMASK t).lo = 0 := id rfl
@[simp] theorem PWR_TRIP_CFG_AXMASK_w (t : Nat) : (PWR_TRIP_CFG_AXMASK t).w = 8 := id rfl
@[simp] theorem PWR_TRIP_CFG_FILT_a (t : Nat) : (PWR_TRIP_CFG_FILT t).a = 0x180 + t := id rfl
@[simp] theorem PWR_TRIP_CFG_FILT_lo (t : Nat) : (PWR_TRIP_CFG_FILT t).lo = 16 := id rfl
@[simp] theorem PWR_TRIP_CFG_FILT_w (t : Nat) : (PWR_TRIP_CFG_FILT t).w = 9 := id rfl
@[simp] theorem PWR_TRIP_STAT_LVL_a : PWR_TRIP_STAT_LVL.a = 0x184 := id rfl
@[simp] theorem PWR_TRIP_STAT_LVL_lo : PWR_TRIP_STAT_LVL.lo = 0 := id rfl
@[simp] theorem PWR_TRIP_STAT_LVL_w : PWR_TRIP_STAT_LVL.w = 4 := id rfl
@[simp] theorem PWR_TRIP_STAT_LATCH_a : PWR_TRIP_STAT_LATCH.a = 0x184 := id rfl
@[simp] theorem PWR_TRIP_STAT_LATCH_lo : PWR_TRIP_STAT_LATCH.lo = 8 := id rfl
@[simp] theorem PWR_TRIP_STAT_LATCH_w : PWR_TRIP_STAT_LATCH.w = 4 := id rfl
@[simp] theorem PWR_TRIP_CLR_CLR_a : PWR_TRIP_CLR_CLR.a = 0x185 := id rfl
@[simp] theorem PWR_TRIP_CLR_CLR_lo : PWR_TRIP_CLR_CLR.lo = 0 := id rfl
@[simp] theorem PWR_TRIP_CLR_CLR_w : PWR_TRIP_CLR_CLR.w = 4 := id rfl
@[simp] theorem PWR_TRIP_CLR_CLR_CNT_a : PWR_TRIP_CLR_CLR_CNT.a = 0x185 := id rfl
@[simp] theorem PWR_TRIP_CLR_CLR_CNT_lo : PWR_TRIP_CLR_CLR_CNT.lo = 8 := id rfl
@[simp] theorem PWR_TRIP_CLR_CLR_CNT_w : PWR_TRIP_CLR_CLR_CNT.w = 1 := id rfl
@[simp] theorem PWR_TRIP_CNT_REFUSED_a (i : Nat) : (PWR_TRIP_CNT_REFUSED i).a = 0x186 := id rfl
@[simp] theorem PWR_TRIP_CNT_REFUSED_lo (i : Nat) : (PWR_TRIP_CNT_REFUSED i).lo = 8 * i := id rfl
@[simp] theorem PWR_TRIP_CNT_REFUSED_w (i : Nat) : (PWR_TRIP_CNT_REFUSED i).w = 8 := id rfl
@[simp] theorem PWR_TRIP_CAP_PEND_a (t : Nat) : (PWR_TRIP_CAP_PEND t).a = 0x188 + t := id rfl
@[simp] theorem PWR_TRIP_CAP_PEND_lo (t : Nat) : (PWR_TRIP_CAP_PEND t).lo = 0 := id rfl
@[simp] theorem PWR_TRIP_CAP_PEND_w (t : Nat) : (PWR_TRIP_CAP_PEND t).w = 16 := id rfl
@[simp] theorem PWR_TRIP_CAP_FETS_a (t : Nat) : (PWR_TRIP_CAP_FETS t).a = 0x188 + t := id rfl
@[simp] theorem PWR_TRIP_CAP_FETS_lo (t : Nat) : (PWR_TRIP_CAP_FETS t).lo = 16 := id rfl
@[simp] theorem PWR_TRIP_CAP_FETS_w (t : Nat) : (PWR_TRIP_CAP_FETS t).w = 4 := id rfl
@[simp] theorem PWR_TRIP_CAP_COIL_a (t : Nat) : (PWR_TRIP_CAP_COIL t).a = 0x188 + t := id rfl
@[simp] theorem PWR_TRIP_CAP_COIL_lo (t : Nat) : (PWR_TRIP_CAP_COIL t).lo = 20 := id rfl
@[simp] theorem PWR_TRIP_CAP_COIL_w (t : Nat) : (PWR_TRIP_CAP_COIL t).w = 4 := id rfl
@[simp] theorem PWR_TRIP_CAP_VALID_a (t : Nat) : (PWR_TRIP_CAP_VALID t).a = 0x188 + t := id rfl
@[simp] theorem PWR_TRIP_CAP_VALID_lo (t : Nat) : (PWR_TRIP_CAP_VALID t).lo = 24 := id rfl
@[simp] theorem PWR_TRIP_CAP_VALID_w (t : Nat) : (PWR_TRIP_CAP_VALID t).w = 1 := id rfl
@[simp] theorem PWR_TRIP_TS_TS_a (t : Nat) : (PWR_TRIP_TS_TS t).a = 0x18c + t := id rfl
@[simp] theorem PWR_TRIP_TS_TS_lo (t : Nat) : (PWR_TRIP_TS_TS t).lo = 0 := id rfl
@[simp] theorem PWR_TRIP_TS_TS_w (t : Nat) : (PWR_TRIP_TS_TS t).w = 32 := id rfl
@[simp] theorem AX_OBS_CFG_CAR_EN_a (n : Nat) : (AX_OBS_CFG_CAR_EN n).a = 0x870 + 0x100 * n := id rfl
@[simp] theorem AX_OBS_CFG_CAR_EN_lo (n : Nat) : (AX_OBS_CFG_CAR_EN n).lo = 0 := id rfl
@[simp] theorem AX_OBS_CFG_CAR_EN_w (n : Nat) : (AX_OBS_CFG_CAR_EN n).w = 1 := id rfl
@[simp] theorem AX_OBS_CFG_HF_EN_a (n : Nat) : (AX_OBS_CFG_HF_EN n).a = 0x870 + 0x100 * n := id rfl
@[simp] theorem AX_OBS_CFG_HF_EN_lo (n : Nat) : (AX_OBS_CFG_HF_EN n).lo = 1 := id rfl
@[simp] theorem AX_OBS_CFG_HF_EN_w (n : Nat) : (AX_OBS_CFG_HF_EN n).w = 1 := id rfl
@[simp] theorem AX_OBS_CFG_EMF_EN_a (n : Nat) : (AX_OBS_CFG_EMF_EN n).a = 0x870 + 0x100 * n := id rfl
@[simp] theorem AX_OBS_CFG_EMF_EN_lo (n : Nat) : (AX_OBS_CFG_EMF_EN n).lo = 2 := id rfl
@[simp] theorem AX_OBS_CFG_EMF_EN_w (n : Nat) : (AX_OBS_CFG_EMF_EN n).w = 1 := id rfl
@[simp] theorem AX_OBS_CFG_BD_EN_a (n : Nat) : (AX_OBS_CFG_BD_EN n).a = 0x870 + 0x100 * n := id rfl
@[simp] theorem AX_OBS_CFG_BD_EN_lo (n : Nat) : (AX_OBS_CFG_BD_EN n).lo = 3 := id rfl
@[simp] theorem AX_OBS_CFG_BD_EN_w (n : Nat) : (AX_OBS_CFG_BD_EN n).w = 1 := id rfl
@[simp] theorem AX_OBS_CFG_HOLD_DET_a (n : Nat) : (AX_OBS_CFG_HOLD_DET n).a = 0x870 + 0x100 * n := id rfl
@[simp] theorem AX_OBS_CFG_HOLD_DET_lo (n : Nat) : (AX_OBS_CFG_HOLD_DET n).lo = 4 := id rfl
@[simp] theorem AX_OBS_CFG_HOLD_DET_w (n : Nat) : (AX_OBS_CFG_HOLD_DET n).w = 1 := id rfl
@[simp] theorem AX_OBS_CFG_DET_JAM_a (n : Nat) : (AX_OBS_CFG_DET_JAM n).a = 0x870 + 0x100 * n := id rfl
@[simp] theorem AX_OBS_CFG_DET_JAM_lo (n : Nat) : (AX_OBS_CFG_DET_JAM n).lo = 5 := id rfl
@[simp] theorem AX_OBS_CFG_DET_JAM_w (n : Nat) : (AX_OBS_CFG_DET_JAM n).w = 1 := id rfl
@[simp] theorem AX_OBS_CFG_DET_SLIP_a (n : Nat) : (AX_OBS_CFG_DET_SLIP n).a = 0x870 + 0x100 * n := id rfl
@[simp] theorem AX_OBS_CFG_DET_SLIP_lo (n : Nat) : (AX_OBS_CFG_DET_SLIP n).lo = 6 := id rfl
@[simp] theorem AX_OBS_CFG_DET_SLIP_w (n : Nat) : (AX_OBS_CFG_DET_SLIP n).w = 1 := id rfl
@[simp] theorem AX_OBS_CFG_DET_COLL_a (n : Nat) : (AX_OBS_CFG_DET_COLL n).a = 0x870 + 0x100 * n := id rfl
@[simp] theorem AX_OBS_CFG_DET_COLL_lo (n : Nat) : (AX_OBS_CFG_DET_COLL n).lo = 7 := id rfl
@[simp] theorem AX_OBS_CFG_DET_COLL_w (n : Nat) : (AX_OBS_CFG_DET_COLL n).w = 1 := id rfl
@[simp] theorem AX_OBS_CFG_CAR_DIV_a (n : Nat) : (AX_OBS_CFG_CAR_DIV n).a = 0x870 + 0x100 * n := id rfl
@[simp] theorem AX_OBS_CFG_CAR_DIV_lo (n : Nat) : (AX_OBS_CFG_CAR_DIV n).lo = 8 := id rfl
@[simp] theorem AX_OBS_CFG_CAR_DIV_w (n : Nat) : (AX_OBS_CFG_CAR_DIV n).w = 6 := id rfl
@[simp] theorem AX_OBS_CFG_CAR_AMP_a (n : Nat) : (AX_OBS_CFG_CAR_AMP n).a = 0x870 + 0x100 * n := id rfl
@[simp] theorem AX_OBS_CFG_CAR_AMP_lo (n : Nat) : (AX_OBS_CFG_CAR_AMP n).lo = 16 := id rfl
@[simp] theorem AX_OBS_CFG_CAR_AMP_w (n : Nat) : (AX_OBS_CFG_CAR_AMP n).w = 6 := id rfl
@[simp] theorem AX_OBS_CFG_AMP_MIN_a (n : Nat) : (AX_OBS_CFG_AMP_MIN n).a = 0x870 + 0x100 * n := id rfl
@[simp] theorem AX_OBS_CFG_AMP_MIN_lo (n : Nat) : (AX_OBS_CFG_AMP_MIN n).lo = 24 := id rfl
@[simp] theorem AX_OBS_CFG_AMP_MIN_w (n : Nat) : (AX_OBS_CFG_AMP_MIN n).w = 8 := id rfl
@[simp] theorem AX_OBS_BLEND_BL_LO_a (n : Nat) : (AX_OBS_BLEND_BL_LO n).a = 0x871 + 0x100 * n := id rfl
@[simp] theorem AX_OBS_BLEND_BL_LO_lo (n : Nat) : (AX_OBS_BLEND_BL_LO n).lo = 0 := id rfl
@[simp] theorem AX_OBS_BLEND_BL_LO_w (n : Nat) : (AX_OBS_BLEND_BL_LO n).w = 16 := id rfl
@[simp] theorem AX_OBS_BLEND_BL_HI_a (n : Nat) : (AX_OBS_BLEND_BL_HI n).a = 0x871 + 0x100 * n := id rfl
@[simp] theorem AX_OBS_BLEND_BL_HI_lo (n : Nat) : (AX_OBS_BLEND_BL_HI n).lo = 16 := id rfl
@[simp] theorem AX_OBS_BLEND_BL_HI_w (n : Nat) : (AX_OBS_BLEND_BL_HI n).w = 16 := id rfl
@[simp] theorem AX_OBS_HF_HF_GAIN_a (n : Nat) : (AX_OBS_HF_HF_GAIN n).a = 0x872 + 0x100 * n := id rfl
@[simp] theorem AX_OBS_HF_HF_GAIN_lo (n : Nat) : (AX_OBS_HF_HF_GAIN n).lo = 0 := id rfl
@[simp] theorem AX_OBS_HF_HF_GAIN_w (n : Nat) : (AX_OBS_HF_HF_GAIN n).w = 16 := id rfl
@[simp] theorem AX_OBS_HF_HF_OFS_a (n : Nat) : (AX_OBS_HF_HF_OFS n).a = 0x872 + 0x100 * n := id rfl
@[simp] theorem AX_OBS_HF_HF_OFS_lo (n : Nat) : (AX_OBS_HF_HF_OFS n).lo = 16 := id rfl
@[simp] theorem AX_OBS_HF_HF_OFS_w (n : Nat) : (AX_OBS_HF_HF_OFS n).w = 16 := id rfl
@[simp] theorem AX_OBS_HFREF_PHASE_a (n : Nat) : (AX_OBS_HFREF_PHASE n).a = 0x873 + 0x100 * n := id rfl
@[simp] theorem AX_OBS_HFREF_PHASE_lo (n : Nat) : (AX_OBS_HFREF_PHASE n).lo = 0 := id rfl
@[simp] theorem AX_OBS_HFREF_PHASE_w (n : Nat) : (AX_OBS_HFREF_PHASE n).w = 8 := id rfl
@[simp] theorem AX_OBS_HFREF_D0_a (n : Nat) : (AX_OBS_HFREF_D0 n).a = 0x873 + 0x100 * n := id rfl
@[simp] theorem AX_OBS_HFREF_D0_lo (n : Nat) : (AX_OBS_HFREF_D0 n).lo = 16 := id rfl
@[simp] theorem AX_OBS_HFREF_D0_w (n : Nat) : (AX_OBS_HFREF_D0 n).w = 16 := id rfl
@[simp] theorem AX_OBS_EMF_KE_a (n : Nat) : (AX_OBS_EMF_KE n).a = 0x874 + 0x100 * n := id rfl
@[simp] theorem AX_OBS_EMF_KE_lo (n : Nat) : (AX_OBS_EMF_KE n).lo = 0 := id rfl
@[simp] theorem AX_OBS_EMF_KE_w (n : Nat) : (AX_OBS_EMF_KE n).w = 16 := id rfl
@[simp] theorem AX_OBS_EMF_EMF_TAU_a (n : Nat) : (AX_OBS_EMF_EMF_TAU n).a = 0x874 + 0x100 * n := id rfl
@[simp] theorem AX_OBS_EMF_EMF_TAU_lo (n : Nat) : (AX_OBS_EMF_EMF_TAU n).lo = 16 := id rfl
@[simp] theorem AX_OBS_EMF_EMF_TAU_w (n : Nat) : (AX_OBS_EMF_EMF_TAU n).w = 4 := id rfl
@[simp] theorem AX_OBS_EMF_VDT_a (n : Nat) : (AX_OBS_EMF_VDT n).a = 0x874 + 0x100 * n := id rfl
@[simp] theorem AX_OBS_EMF_VDT_lo (n : Nat) : (AX_OBS_EMF_VDT n).lo = 24 := id rfl
@[simp] theorem AX_OBS_EMF_VDT_w (n : Nat) : (AX_OBS_EMF_VDT n).w = 8 := id rfl
@[simp] theorem AX_STALL_CFG_LVL_a (n : Nat) : (AX_STALL_CFG_LVL n).a = 0x875 + 0x100 * n := id rfl
@[simp] theorem AX_STALL_CFG_LVL_lo (n : Nat) : (AX_STALL_CFG_LVL n).lo = 0 := id rfl
@[simp] theorem AX_STALL_CFG_LVL_w (n : Nat) : (AX_STALL_CFG_LVL n).w = 8 := id rfl
@[simp] theorem AX_STALL_CFG_LVL_TICKS_a (n : Nat) : (AX_STALL_CFG_LVL_TICKS n).a = 0x875 + 0x100 * n := id rfl
@[simp] theorem AX_STALL_CFG_LVL_TICKS_lo (n : Nat) : (AX_STALL_CFG_LVL_TICKS n).lo = 8 := id rfl
@[simp] theorem AX_STALL_CFG_LVL_TICKS_w (n : Nat) : (AX_STALL_CFG_LVL_TICKS n).w = 8 := id rfl
@[simp] theorem AX_STALL_CFG_JUMP_a (n : Nat) : (AX_STALL_CFG_JUMP n).a = 0x875 + 0x100 * n := id rfl
@[simp] theorem AX_STALL_CFG_JUMP_lo (n : Nat) : (AX_STALL_CFG_JUMP n).lo = 16 := id rfl
@[simp] theorem AX_STALL_CFG_JUMP_w (n : Nat) : (AX_STALL_CFG_JUMP n).w = 8 := id rfl
@[simp] theorem AX_STALL_CFG_COLL_a (n : Nat) : (AX_STALL_CFG_COLL n).a = 0x875 + 0x100 * n := id rfl
@[simp] theorem AX_STALL_CFG_COLL_lo (n : Nat) : (AX_STALL_CFG_COLL n).lo = 24 := id rfl
@[simp] theorem AX_STALL_CFG_COLL_w (n : Nat) : (AX_STALL_CFG_COLL n).w = 8 := id rfl
@[simp] theorem AX_STALL_TIME_COLL_TICKS_a (n : Nat) : (AX_STALL_TIME_COLL_TICKS n).a = 0x876 + 0x100 * n := id rfl
@[simp] theorem AX_STALL_TIME_COLL_TICKS_lo (n : Nat) : (AX_STALL_TIME_COLL_TICKS n).lo = 0 := id rfl
@[simp] theorem AX_STALL_TIME_COLL_TICKS_w (n : Nat) : (AX_STALL_TIME_COLL_TICKS n).w = 8 := id rfl
@[simp] theorem AX_STALL_TIME_GRACE_a (n : Nat) : (AX_STALL_TIME_GRACE n).a = 0x876 + 0x100 * n := id rfl
@[simp] theorem AX_STALL_TIME_GRACE_lo (n : Nat) : (AX_STALL_TIME_GRACE n).lo = 16 := id rfl
@[simp] theorem AX_STALL_TIME_GRACE_w (n : Nat) : (AX_STALL_TIME_GRACE n).w = 16 := id rfl
@[simp] theorem AX_BD_CFG_BD_LVL_a (n : Nat) : (AX_BD_CFG_BD_LVL n).a = 0x877 + 0x100 * n := id rfl
@[simp] theorem AX_BD_CFG_BD_LVL_lo (n : Nat) : (AX_BD_CFG_BD_LVL n).lo = 0 := id rfl
@[simp] theorem AX_BD_CFG_BD_LVL_w (n : Nat) : (AX_BD_CFG_BD_LVL n).w = 16 := id rfl
@[simp] theorem AX_BD_CFG_BD_TIME_a (n : Nat) : (AX_BD_CFG_BD_TIME n).a = 0x877 + 0x100 * n := id rfl
@[simp] theorem AX_BD_CFG_BD_TIME_lo (n : Nat) : (AX_BD_CFG_BD_TIME n).lo = 16 := id rfl
@[simp] theorem AX_BD_CFG_BD_TIME_w (n : Nat) : (AX_BD_CFG_BD_TIME n).w = 8 := id rfl
@[simp] theorem AX_BD_CFG_BD_QUIET_a (n : Nat) : (AX_BD_CFG_BD_QUIET n).a = 0x877 + 0x100 * n := id rfl
@[simp] theorem AX_BD_CFG_BD_QUIET_lo (n : Nat) : (AX_BD_CFG_BD_QUIET n).lo = 24 := id rfl
@[simp] theorem AX_BD_CFG_BD_QUIET_w (n : Nat) : (AX_BD_CFG_BD_QUIET n).w = 8 := id rfl
@[simp] theorem AX_OBS_CAL_GO_a (n : Nat) : (AX_OBS_CAL_GO n).a = 0x87f + 0x100 * n := id rfl
@[simp] theorem AX_OBS_CAL_GO_lo (n : Nat) : (AX_OBS_CAL_GO n).lo = 0 := id rfl
@[simp] theorem AX_OBS_CAL_GO_w (n : Nat) : (AX_OBS_CAL_GO n).w = 1 := id rfl
@[simp] theorem AX_OBS_CAL_ABORT_a (n : Nat) : (AX_OBS_CAL_ABORT n).a = 0x87f + 0x100 * n := id rfl
@[simp] theorem AX_OBS_CAL_ABORT_lo (n : Nat) : (AX_OBS_CAL_ABORT n).lo = 1 := id rfl
@[simp] theorem AX_OBS_CAL_ABORT_w (n : Nat) : (AX_OBS_CAL_ABORT n).w = 1 := id rfl
@[simp] theorem AX_OBS_CAL_MODE_a (n : Nat) : (AX_OBS_CAL_MODE n).a = 0x87f + 0x100 * n := id rfl
@[simp] theorem AX_OBS_CAL_MODE_lo (n : Nat) : (AX_OBS_CAL_MODE n).lo = 2 := id rfl
@[simp] theorem AX_OBS_CAL_MODE_w (n : Nat) : (AX_OBS_CAL_MODE n).w = 1 := id rfl
@[simp] theorem AX_OBS_CAL_TO_a (n : Nat) : (AX_OBS_CAL_TO n).a = 0x87f + 0x100 * n := id rfl
@[simp] theorem AX_OBS_CAL_TO_lo (n : Nat) : (AX_OBS_CAL_TO n).lo = 8 := id rfl
@[simp] theorem AX_OBS_CAL_TO_w (n : Nat) : (AX_OBS_CAL_TO n).w = 8 := id rfl
@[simp] theorem AX_OBS_CNT_GAP_a (n : Nat) : (AX_OBS_CNT_GAP n).a = 0x881 + 0x100 * n := id rfl
@[simp] theorem AX_OBS_CNT_GAP_lo (n : Nat) : (AX_OBS_CNT_GAP n).lo = 0 := id rfl
@[simp] theorem AX_OBS_CNT_GAP_w (n : Nat) : (AX_OBS_CNT_GAP n).w = 8 := id rfl
@[simp] theorem AX_OBS_CNT_HF_LOST_a (n : Nat) : (AX_OBS_CNT_HF_LOST n).a = 0x881 + 0x100 * n := id rfl
@[simp] theorem AX_OBS_CNT_HF_LOST_lo (n : Nat) : (AX_OBS_CNT_HF_LOST n).lo = 8 := id rfl
@[simp] theorem AX_OBS_CNT_HF_LOST_w (n : Nat) : (AX_OBS_CNT_HF_LOST n).w = 8 := id rfl
@[simp] theorem AX_OBS_CNT_CLR_a (n : Nat) : (AX_OBS_CNT_CLR n).a = 0x881 + 0x100 * n := id rfl
@[simp] theorem AX_OBS_CNT_CLR_lo (n : Nat) : (AX_OBS_CNT_CLR n).lo = 31 := id rfl
@[simp] theorem AX_OBS_CNT_CLR_w (n : Nat) : (AX_OBS_CNT_CLR n).w = 1 := id rfl
@[simp] theorem AX_OBS_LA_LA_a (n : Nat) : (AX_OBS_LA_LA n).a = 0x878 + 0x100 * n := id rfl
@[simp] theorem AX_OBS_LA_LA_lo (n : Nat) : (AX_OBS_LA_LA n).lo = 0 := id rfl
@[simp] theorem AX_OBS_LA_LA_w (n : Nat) : (AX_OBS_LA_LA n).w = 16 := id rfl
@[simp] theorem AX_OBS_LA_VALID_a (n : Nat) : (AX_OBS_LA_VALID n).a = 0x878 + 0x100 * n := id rfl
@[simp] theorem AX_OBS_LA_VALID_lo (n : Nat) : (AX_OBS_LA_VALID n).lo = 16 := id rfl
@[simp] theorem AX_OBS_LA_VALID_w (n : Nat) : (AX_OBS_LA_VALID n).w = 1 := id rfl
@[simp] theorem AX_OBS_LA_SAT_a (n : Nat) : (AX_OBS_LA_SAT n).a = 0x878 + 0x100 * n := id rfl
@[simp] theorem AX_OBS_LA_SAT_lo (n : Nat) : (AX_OBS_LA_SAT n).lo = 17 := id rfl
@[simp] theorem AX_OBS_LA_SAT_w (n : Nat) : (AX_OBS_LA_SAT n).w = 1 := id rfl
@[simp] theorem AX_OBS_LA_SRC_a (n : Nat) : (AX_OBS_LA_SRC n).a = 0x878 + 0x100 * n := id rfl
@[simp] theorem AX_OBS_LA_SRC_lo (n : Nat) : (AX_OBS_LA_SRC n).lo = 18 := id rfl
@[simp] theorem AX_OBS_LA_SRC_w (n : Nat) : (AX_OBS_LA_SRC n).w = 2 := id rfl
@[simp] theorem AX_OBS_LA_W_a (n : Nat) : (AX_OBS_LA_W n).a = 0x878 + 0x100 * n := id rfl
@[simp] theorem AX_OBS_LA_W_lo (n : Nat) : (AX_OBS_LA_W n).lo = 20 := id rfl
@[simp] theorem AX_OBS_LA_W_w (n : Nat) : (AX_OBS_LA_W n).w = 8 := id rfl
@[simp] theorem AX_OBS_LA_NOSLOT_a (n : Nat) : (AX_OBS_LA_NOSLOT n).a = 0x878 + 0x100 * n := id rfl
@[simp] theorem AX_OBS_LA_NOSLOT_lo (n : Nat) : (AX_OBS_LA_NOSLOT n).lo = 28 := id rfl
@[simp] theorem AX_OBS_LA_NOSLOT_w (n : Nat) : (AX_OBS_LA_NOSLOT n).w = 1 := id rfl
@[simp] theorem AX_OBS_HFDQ_D_a (n : Nat) : (AX_OBS_HFDQ_D n).a = 0x879 + 0x100 * n := id rfl
@[simp] theorem AX_OBS_HFDQ_D_lo (n : Nat) : (AX_OBS_HFDQ_D n).lo = 0 := id rfl
@[simp] theorem AX_OBS_HFDQ_D_w (n : Nat) : (AX_OBS_HFDQ_D n).w = 16 := id rfl
@[simp] theorem AX_OBS_HFDQ_Q_a (n : Nat) : (AX_OBS_HFDQ_Q n).a = 0x879 + 0x100 * n := id rfl
@[simp] theorem AX_OBS_HFDQ_Q_lo (n : Nat) : (AX_OBS_HFDQ_Q n).lo = 16 := id rfl
@[simp] theorem AX_OBS_HFDQ_Q_w (n : Nat) : (AX_OBS_HFDQ_Q n).w = 16 := id rfl
@[simp] theorem AX_OBS_HFRAT_RATIO_a (n : Nat) : (AX_OBS_HFRAT_RATIO n).a = 0x87a + 0x100 * n := id rfl
@[simp] theorem AX_OBS_HFRAT_RATIO_lo (n : Nat) : (AX_OBS_HFRAT_RATIO n).lo = 0 := id rfl
@[simp] theorem AX_OBS_HFRAT_RATIO_w (n : Nat) : (AX_OBS_HFRAT_RATIO n).w = 16 := id rfl
@[simp] theorem AX_OBS_HFRAT_LA_HF_a (n : Nat) : (AX_OBS_HFRAT_LA_HF n).a = 0x87a + 0x100 * n := id rfl
@[simp] theorem AX_OBS_HFRAT_LA_HF_lo (n : Nat) : (AX_OBS_HFRAT_LA_HF n).lo = 16 := id rfl
@[simp] theorem AX_OBS_HFRAT_LA_HF_w (n : Nat) : (AX_OBS_HFRAT_LA_HF n).w = 16 := id rfl
@[simp] theorem AX_OBS_EMFSTAT_EMAG_a (n : Nat) : (AX_OBS_EMFSTAT_EMAG n).a = 0x87b + 0x100 * n := id rfl
@[simp] theorem AX_OBS_EMFSTAT_EMAG_lo (n : Nat) : (AX_OBS_EMFSTAT_EMAG n).lo = 0 := id rfl
@[simp] theorem AX_OBS_EMFSTAT_EMAG_w (n : Nat) : (AX_OBS_EMFSTAT_EMAG n).w = 16 := id rfl
@[simp] theorem AX_OBS_EMFSTAT_LA_EMF_a (n : Nat) : (AX_OBS_EMFSTAT_LA_EMF n).a = 0x87b + 0x100 * n := id rfl
@[simp] theorem AX_OBS_EMFSTAT_LA_EMF_lo (n : Nat) : (AX_OBS_EMFSTAT_LA_EMF n).lo = 16 := id rfl
@[simp] theorem AX_OBS_EMFSTAT_LA_EMF_w (n : Nat) : (AX_OBS_EMFSTAT_LA_EMF n).w = 16 := id rfl
@[simp] theorem AX_STALL_STAT_CRIT_a (n : Nat) : (AX_STALL_STAT_CRIT n).a = 0x87c + 0x100 * n := id rfl
@[simp] theorem AX_STALL_STAT_CRIT_lo (n : Nat) : (AX_STALL_STAT_CRIT n).lo = 0 := id rfl
@[simp] theorem AX_STALL_STAT_CRIT_w (n : Nat) : (AX_STALL_STAT_CRIT n).w = 1 := id rfl
@[simp] theorem AX_STALL_STAT_ARMED_a (n : Nat) : (AX_STALL_STAT_ARMED n).a = 0x87c + 0x100 * n := id rfl
@[simp] theorem AX_STALL_STAT_ARMED_lo (n : Nat) : (AX_STALL_STAT_ARMED n).lo = 1 := id rfl
@[simp] theorem AX_STALL_STAT_ARMED_w (n : Nat) : (AX_STALL_STAT_ARMED n).w = 1 := id rfl
@[simp] theorem AX_STALL_STAT_CAUSE_a (n : Nat) : (AX_STALL_STAT_CAUSE n).a = 0x87c + 0x100 * n := id rfl
@[simp] theorem AX_STALL_STAT_CAUSE_lo (n : Nat) : (AX_STALL_STAT_CAUSE n).lo = 2 := id rfl
@[simp] theorem AX_STALL_STAT_CAUSE_w (n : Nat) : (AX_STALL_STAT_CAUSE n).w = 2 := id rfl
@[simp] theorem AX_STALL_STAT_REPORTS_a (n : Nat) : (AX_STALL_STAT_REPORTS n).a = 0x87c + 0x100 * n := id rfl
@[simp] theorem AX_STALL_STAT_REPORTS_lo (n : Nat) : (AX_STALL_STAT_REPORTS n).lo = 16 := id rfl
@[simp] theorem AX_STALL_STAT_REPORTS_w (n : Nat) : (AX_STALL_STAT_REPORTS n).w = 16 := id rfl
@[simp] theorem AX_BD_STAT_ACTIVE_a (n : Nat) : (AX_BD_STAT_ACTIVE n).a = 0x87d + 0x100 * n := id rfl
@[simp] theorem AX_BD_STAT_ACTIVE_lo (n : Nat) : (AX_BD_STAT_ACTIVE n).lo = 0 := id rfl
@[simp] theorem AX_BD_STAT_ACTIVE_w (n : Nat) : (AX_BD_STAT_ACTIVE n).w = 1 := id rfl
@[simp] theorem AX_BD_STAT_DIR_a (n : Nat) : (AX_BD_STAT_DIR n).a = 0x87d + 0x100 * n := id rfl
@[simp] theorem AX_BD_STAT_DIR_lo (n : Nat) : (AX_BD_STAT_DIR n).lo = 1 := id rfl
@[simp] theorem AX_BD_STAT_DIR_w (n : Nat) : (AX_BD_STAT_DIR n).w = 1 := id rfl
@[simp] theorem AX_BD_STAT_NOSRC_a (n : Nat) : (AX_BD_STAT_NOSRC n).a = 0x87d + 0x100 * n := id rfl
@[simp] theorem AX_BD_STAT_NOSRC_lo (n : Nat) : (AX_BD_STAT_NOSRC n).lo = 2 := id rfl
@[simp] theorem AX_BD_STAT_NOSRC_w (n : Nat) : (AX_BD_STAT_NOSRC n).w = 1 := id rfl
@[simp] theorem AX_BD_STAT_ALIAS_a (n : Nat) : (AX_BD_STAT_ALIAS n).a = 0x87d + 0x100 * n := id rfl
@[simp] theorem AX_BD_STAT_ALIAS_lo (n : Nat) : (AX_BD_STAT_ALIAS n).lo = 3 := id rfl
@[simp] theorem AX_BD_STAT_ALIAS_w (n : Nat) : (AX_BD_STAT_ALIAS n).w = 1 := id rfl
@[simp] theorem AX_BD_STAT_EPISODES_a (n : Nat) : (AX_BD_STAT_EPISODES n).a = 0x87d + 0x100 * n := id rfl
@[simp] theorem AX_BD_STAT_EPISODES_lo (n : Nat) : (AX_BD_STAT_EPISODES n).lo = 8 := id rfl
@[simp] theorem AX_BD_STAT_EPISODES_w (n : Nat) : (AX_BD_STAT_EPISODES n).w = 8 := id rfl
@[simp] theorem AX_BD_STAT_PEAK_a (n : Nat) : (AX_BD_STAT_PEAK n).a = 0x87d + 0x100 * n := id rfl
@[simp] theorem AX_BD_STAT_PEAK_lo (n : Nat) : (AX_BD_STAT_PEAK n).lo = 16 := id rfl
@[simp] theorem AX_BD_STAT_PEAK_w (n : Nat) : (AX_BD_STAT_PEAK n).w = 16 := id rfl
@[simp] theorem AX_BD_TRAVEL_TRAVEL_a (n : Nat) : (AX_BD_TRAVEL_TRAVEL n).a = 0x87e + 0x100 * n := id rfl
@[simp] theorem AX_BD_TRAVEL_TRAVEL_lo (n : Nat) : (AX_BD_TRAVEL_TRAVEL n).lo = 0 := id rfl
@[simp] theorem AX_BD_TRAVEL_TRAVEL_w (n : Nat) : (AX_BD_TRAVEL_TRAVEL n).w = 32 := id rfl
@[simp] theorem AX_OBS_CALSTAT_BUSY_a (n : Nat) : (AX_OBS_CALSTAT_BUSY n).a = 0x880 + 0x100 * n := id rfl
@[simp] theorem AX_OBS_CALSTAT_BUSY_lo (n : Nat) : (AX_OBS_CALSTAT_BUSY n).lo = 0 := id rfl
@[simp] theorem AX_OBS_CALSTAT_BUSY_w (n : Nat) : (AX_OBS_CALSTAT_BUSY n).w = 1 := id rfl
@[simp] theorem AX_OBS_CALSTAT_PHASE_a (n : Nat) : (AX_OBS_CALSTAT_PHASE n).a = 0x880 + 0x100 * n := id rfl
@[simp] theorem AX_OBS_CALSTAT_PHASE_lo (n : Nat) : (AX_OBS_CALSTAT_PHASE n).lo = 1 := id rfl
@[simp] theorem AX_OBS_CALSTAT_PHASE_w (n : Nat) : (AX_OBS_CALSTAT_PHASE n).w = 2 := id rfl
@[simp] theorem AX_OBS_CALSTAT_REFUSED_a (n : Nat) : (AX_OBS_CALSTAT_REFUSED n).a = 0x880 + 0x100 * n := id rfl
@[simp] theorem AX_OBS_CALSTAT_REFUSED_lo (n : Nat) : (AX_OBS_CALSTAT_REFUSED n).lo = 3 := id rfl
@[simp] theorem AX_OBS_CALSTAT_REFUSED_w (n : Nat) : (AX_OBS_CALSTAT_REFUSED n).w = 1 := id rfl
@[simp] theorem AX_OBS_CALSTAT_RESULT_a (n : Nat) : (AX_OBS_CALSTAT_RESULT n).a = 0x880 + 0x100 * n := id rfl
@[simp] theorem AX_OBS_CALSTAT_RESULT_lo (n : Nat) : (AX_OBS_CALSTAT_RESULT n).lo = 4 := id rfl
@[simp] theorem AX_OBS_CALSTAT_RESULT_w (n : Nat) : (AX_OBS_CALSTAT_RESULT n).w = 4 := id rfl
@[simp] theorem AX_OBS_CALSTAT_KE_PCT_a (n : Nat) : (AX_OBS_CALSTAT_KE_PCT n).a = 0x880 + 0x100 * n := id rfl
@[simp] theorem AX_OBS_CALSTAT_KE_PCT_lo (n : Nat) : (AX_OBS_CALSTAT_KE_PCT n).lo = 8 := id rfl
@[simp] theorem AX_OBS_CALSTAT_KE_PCT_w (n : Nat) : (AX_OBS_CALSTAT_KE_PCT n).w = 8 := id rfl
@[simp] theorem AX_OBS_CALSTAT_HF_PCT_a (n : Nat) : (AX_OBS_CALSTAT_HF_PCT n).a = 0x880 + 0x100 * n := id rfl
@[simp] theorem AX_OBS_CALSTAT_HF_PCT_lo (n : Nat) : (AX_OBS_CALSTAT_HF_PCT n).lo = 16 := id rfl
@[simp] theorem AX_OBS_CALSTAT_HF_PCT_w (n : Nat) : (AX_OBS_CALSTAT_HF_PCT n).w = 8 := id rfl
@[simp] theorem AX_DP_CFG_CNT_INV_a (n : Nat) : (AX_DP_CFG_CNT_INV n).a = 0x888 + 0x100 * n := id rfl
@[simp] theorem AX_DP_CFG_CNT_INV_lo (n : Nat) : (AX_DP_CFG_CNT_INV n).lo = 0 := id rfl
@[simp] theorem AX_DP_CFG_CNT_INV_w (n : Nat) : (AX_DP_CFG_CNT_INV n).w = 1 := id rfl
@[simp] theorem AX_DP_CFG_SPAN_a (n : Nat) : (AX_DP_CFG_SPAN n).a = 0x888 + 0x100 * n := id rfl
@[simp] theorem AX_DP_CFG_SPAN_lo (n : Nat) : (AX_DP_CFG_SPAN n).lo = 1 := id rfl
@[simp] theorem AX_DP_CFG_SPAN_w (n : Nat) : (AX_DP_CFG_SPAN n).w = 3 := id rfl
@[simp] theorem AX_DP_CFG_DFILT_a (n : Nat) : (AX_DP_CFG_DFILT n).a = 0x888 + 0x100 * n := id rfl
@[simp] theorem AX_DP_CFG_DFILT_lo (n : Nat) : (AX_DP_CFG_DFILT n).lo = 4 := id rfl
@[simp] theorem AX_DP_CFG_DFILT_w (n : Nat) : (AX_DP_CFG_DFILT n).w = 4 := id rfl
@[simp] theorem AX_DP_CFG_STILL_TO_a (n : Nat) : (AX_DP_CFG_STILL_TO n).a = 0x888 + 0x100 * n := id rfl
@[simp] theorem AX_DP_CFG_STILL_TO_lo (n : Nat) : (AX_DP_CFG_STILL_TO n).lo = 8 := id rfl
@[simp] theorem AX_DP_CFG_STILL_TO_w (n : Nat) : (AX_DP_CFG_STILL_TO n).w = 8 := id rfl
@[simp] theorem AX_DP_CFG_IDX_EN_a (n : Nat) : (AX_DP_CFG_IDX_EN n).a = 0x888 + 0x100 * n := id rfl
@[simp] theorem AX_DP_CFG_IDX_EN_lo (n : Nat) : (AX_DP_CFG_IDX_EN n).lo = 16 := id rfl
@[simp] theorem AX_DP_CFG_IDX_EN_w (n : Nat) : (AX_DP_CFG_IDX_EN n).w = 1 := id rfl
@[simp] theorem AX_DP_CFG_REDATUM_a (n : Nat) : (AX_DP_CFG_REDATUM n).a = 0x888 + 0x100 * n := id rfl
@[simp] theorem AX_DP_CFG_REDATUM_lo (n : Nat) : (AX_DP_CFG_REDATUM n).lo = 17 := id rfl
@[simp] theorem AX_DP_CFG_REDATUM_w (n : Nat) : (AX_DP_CFG_REDATUM n).w = 1 := id rfl
@[simp] theorem AX_DP_CFG_ENC_ACT_a (n : Nat) : (AX_DP_CFG_ENC_ACT n).a = 0x888 + 0x100 * n := id rfl
@[simp] theorem AX_DP_CFG_ENC_ACT_lo (n : Nat) : (AX_DP_CFG_ENC_ACT n).lo = 18 := id rfl
@[simp] theorem AX_DP_CFG_ENC_ACT_w (n : Nat) : (AX_DP_CFG_ENC_ACT n).w = 1 := id rfl
@[simp] theorem AX_DP_CFG_QERR_ACT_a (n : Nat) : (AX_DP_CFG_QERR_ACT n).a = 0x888 + 0x100 * n := id rfl
@[simp] theorem AX_DP_CFG_QERR_ACT_lo (n : Nat) : (AX_DP_CFG_QERR_ACT n).lo = 19 := id rfl
@[simp] theorem AX_DP_CFG_QERR_ACT_w (n : Nat) : (AX_DP_CFG_QERR_ACT n).w = 1 := id rfl
@[simp] theorem AX_DP_CFG_ABS_a (n : Nat) : (AX_DP_CFG_ABS n).a = 0x888 + 0x100 * n := id rfl
@[simp] theorem AX_DP_CFG_ABS_lo (n : Nat) : (AX_DP_CFG_ABS n).lo = 20 := id rfl
@[simp] theorem AX_DP_CFG_ABS_w (n : Nat) : (AX_DP_CFG_ABS n).w = 1 := id rfl
@[simp] theorem AX_DP_CFG_DIRCHK_EN_a (n : Nat) : (AX_DP_CFG_DIRCHK_EN n).a = 0x888 + 0x100 * n := id rfl
@[simp] theorem AX_DP_CFG_DIRCHK_EN_lo (n : Nat) : (AX_DP_CFG_DIRCHK_EN n).lo = 21 := id rfl
@[simp] theorem AX_DP_CFG_DIRCHK_EN_w (n : Nat) : (AX_DP_CFG_DIRCHK_EN n).w = 1 := id rfl
@[simp] theorem AX_DP_CFG_TOL_a (n : Nat) : (AX_DP_CFG_TOL n).a = 0x888 + 0x100 * n := id rfl
@[simp] theorem AX_DP_CFG_TOL_lo (n : Nat) : (AX_DP_CFG_TOL n).lo = 24 := id rfl
@[simp] theorem AX_DP_CFG_TOL_w (n : Nat) : (AX_DP_CFG_TOL n).w = 8 := id rfl
@[simp] theorem AX_DP_SCALE_CPR_a (n : Nat) : (AX_DP_SCALE_CPR n).a = 0x889 + 0x100 * n := id rfl
@[simp] theorem AX_DP_SCALE_CPR_lo (n : Nat) : (AX_DP_SCALE_CPR n).lo = 0 := id rfl
@[simp] theorem AX_DP_SCALE_CPR_w (n : Nat) : (AX_DP_SCALE_CPR n).w = 24 := id rfl
@[simp] theorem AX_DP_SSI_CFG_LEN_a (n : Nat) : (AX_DP_SSI_CFG_LEN n).a = 0x88a + 0x100 * n := id rfl
@[simp] theorem AX_DP_SSI_CFG_LEN_lo (n : Nat) : (AX_DP_SSI_CFG_LEN n).lo = 0 := id rfl
@[simp] theorem AX_DP_SSI_CFG_LEN_w (n : Nat) : (AX_DP_SSI_CFG_LEN n).w = 5 := id rfl
@[simp] theorem AX_DP_SSI_CFG_GRAY_a (n : Nat) : (AX_DP_SSI_CFG_GRAY n).a = 0x88a + 0x100 * n := id rfl
@[simp] theorem AX_DP_SSI_CFG_GRAY_lo (n : Nat) : (AX_DP_SSI_CFG_GRAY n).lo = 5 := id rfl
@[simp] theorem AX_DP_SSI_CFG_GRAY_w (n : Nat) : (AX_DP_SSI_CFG_GRAY n).w = 1 := id rfl
@[simp] theorem AX_DP_SSI_CFG_AUTO_a (n : Nat) : (AX_DP_SSI_CFG_AUTO n).a = 0x88a + 0x100 * n := id rfl
@[simp] theorem AX_DP_SSI_CFG_AUTO_lo (n : Nat) : (AX_DP_SSI_CFG_AUTO n).lo = 6 := id rfl
@[simp] theorem AX_DP_SSI_CFG_AUTO_w (n : Nat) : (AX_DP_SSI_CFG_AUTO n).w = 1 := id rfl
@[simp] theorem AX_DP_SSI_CFG_DIV_a (n : Nat) : (AX_DP_SSI_CFG_DIV n).a = 0x88a + 0x100 * n := id rfl
@[simp] theorem AX_DP_SSI_CFG_DIV_lo (n : Nat) : (AX_DP_SSI_CFG_DIV n).lo = 8 := id rfl
@[simp] theorem AX_DP_SSI_CFG_DIV_w (n : Nat) : (AX_DP_SSI_CFG_DIV n).w = 4 := id rfl
@[simp] theorem AX_DP_SSI_CFG_CDIV_a (n : Nat) : (AX_DP_SSI_CFG_CDIV n).a = 0x88a + 0x100 * n := id rfl
@[simp] theorem AX_DP_SSI_CFG_CDIV_lo (n : Nat) : (AX_DP_SSI_CFG_CDIV n).lo = 12 := id rfl
@[simp] theorem AX_DP_SSI_CFG_CDIV_w (n : Nat) : (AX_DP_SSI_CFG_CDIV n).w = 9 := id rfl
@[simp] theorem AX_DP_SSI_TIME_SDLY_a (n : Nat) : (AX_DP_SSI_TIME_SDLY n).a = 0x88b + 0x100 * n := id rfl
@[simp] theorem AX_DP_SSI_TIME_SDLY_lo (n : Nat) : (AX_DP_SSI_TIME_SDLY n).lo = 0 := id rfl
@[simp] theorem AX_DP_SSI_TIME_SDLY_w (n : Nat) : (AX_DP_SSI_TIME_SDLY n).w = 10 := id rfl
@[simp] theorem AX_DP_SSI_TIME_TREC_a (n : Nat) : (AX_DP_SSI_TIME_TREC n).a = 0x88b + 0x100 * n := id rfl
@[simp] theorem AX_DP_SSI_TIME_TREC_lo (n : Nat) : (AX_DP_SSI_TIME_TREC n).lo = 16 := id rfl
@[simp] theorem AX_DP_SSI_TIME_TREC_w (n : Nat) : (AX_DP_SSI_TIME_TREC n).w = 8 := id rfl
@[simp] theorem AX_DP_SSI_JMAX_JMAX_a (n : Nat) : (AX_DP_SSI_JMAX_JMAX n).a = 0x88c + 0x100 * n := id rfl
@[simp] theorem AX_DP_SSI_JMAX_JMAX_lo (n : Nat) : (AX_DP_SSI_JMAX_JMAX n).lo = 0 := id rfl
@[simp] theorem AX_DP_SSI_JMAX_JMAX_w (n : Nat) : (AX_DP_SSI_JMAX_JMAX n).w = 24 := id rfl
@[simp] theorem AX_DP_CTL_CLR_FLT_a (n : Nat) : (AX_DP_CTL_CLR_FLT n).a = 0x88d + 0x100 * n := id rfl
@[simp] theorem AX_DP_CTL_CLR_FLT_lo (n : Nat) : (AX_DP_CTL_CLR_FLT n).lo = 0 := id rfl
@[simp] theorem AX_DP_CTL_CLR_FLT_w (n : Nat) : (AX_DP_CTL_CLR_FLT n).w = 1 := id rfl
@[simp] theorem AX_DP_CTL_SSI_REQ_a (n : Nat) : (AX_DP_CTL_SSI_REQ n).a = 0x88d + 0x100 * n := id rfl
@[simp] theorem AX_DP_CTL_SSI_REQ_lo (n : Nat) : (AX_DP_CTL_SSI_REQ n).lo = 1 := id rfl
@[simp] theorem AX_DP_CTL_SSI_REQ_w (n : Nat) : (AX_DP_CTL_SSI_REQ n).w = 1 := id rfl
@[simp] theorem AX_DP_CTL_CLR_CNT_a (n : Nat) : (AX_DP_CTL_CLR_CNT n).a = 0x88d + 0x100 * n := id rfl
@[simp] theorem AX_DP_CTL_CLR_CNT_lo (n : Nat) : (AX_DP_CTL_CLR_CNT n).lo = 2 := id rfl
@[simp] theorem AX_DP_CTL_CLR_CNT_w (n : Nat) : (AX_DP_CTL_CLR_CNT n).w = 1 := id rfl
@[simp] theorem AX_DP_CTL_CLR_DIR_a (n : Nat) : (AX_DP_CTL_CLR_DIR n).a = 0x88d + 0x100 * n := id rfl
@[simp] theorem AX_DP_CTL_CLR_DIR_lo (n : Nat) : (AX_DP_CTL_CLR_DIR n).lo = 3 := id rfl
@[simp] theorem AX_DP_CTL_CLR_DIR_w (n : Nat) : (AX_DP_CTL_CLR_DIR n).w = 1 := id rfl
@[simp] theorem AX_DP_STAT_PEND_a (n : Nat) : (AX_DP_STAT_PEND n).a = 0x88e + 0x100 * n := id rfl
@[simp] theorem AX_DP_STAT_PEND_lo (n : Nat) : (AX_DP_STAT_PEND n).lo = 0 := id rfl
@[simp] theorem AX_DP_STAT_PEND_w (n : Nat) : (AX_DP_STAT_PEND n).w = 1 := id rfl
@[simp] theorem AX_DP_STAT_STILL_a (n : Nat) : (AX_DP_STAT_STILL n).a = 0x88e + 0x100 * n := id rfl
@[simp] theorem AX_DP_STAT_STILL_lo (n : Nat) : (AX_DP_STAT_STILL n).lo = 1 := id rfl
@[simp] theorem AX_DP_STAT_STILL_w (n : Nat) : (AX_DP_STAT_STILL n).w = 1 := id rfl
@[simp] theorem AX_DP_STAT_SPEED_VALID_a (n : Nat) : (AX_DP_STAT_SPEED_VALID n).a = 0x88e + 0x100 * n := id rfl
@[simp] theorem AX_DP_STAT_SPEED_VALID_lo (n : Nat) : (AX_DP_STAT_SPEED_VALID n).lo = 2 := id rfl
@[simp] theorem AX_DP_STAT_SPEED_VALID_w (n : Nat) : (AX_DP_STAT_SPEED_VALID n).w = 1 := id rfl
@[simp] theorem AX_DP_STAT_DIR_a (n : Nat) : (AX_DP_STAT_DIR n).a = 0x88e + 0x100 * n := id rfl
@[simp] theorem AX_DP_STAT_DIR_lo (n : Nat) : (AX_DP_STAT_DIR n).lo = 3 := id rfl
@[simp] theorem AX_DP_STAT_DIR_w (n : Nat) : (AX_DP_STAT_DIR n).w = 1 := id rfl
@[simp] theorem AX_DP_STAT_IDX_MISMATCH_a (n : Nat) : (AX_DP_STAT_IDX_MISMATCH n).a = 0x88e + 0x100 * n := id rfl
@[simp] theorem AX_DP_STAT_IDX_MISMATCH_lo (n : Nat) : (AX_DP_STAT_IDX_MISMATCH n).lo = 4 := id rfl
@[simp] theorem AX_DP_STAT_IDX_MISMATCH_w (n : Nat) : (AX_DP_STAT_IDX_MISMATCH n).w = 1 := id rfl
@[simp] theorem AX_DP_STAT_IDX_MISSING_a (n : Nat) : (AX_DP_STAT_IDX_MISSING n).a = 0x88e + 0x100 * n := id rfl
@[simp] theorem AX_DP_STAT_IDX_MISSING_lo (n : Nat) : (AX_DP_STAT_IDX_MISSING n).lo = 5 := id rfl
@[simp] theorem AX_DP_STAT_IDX_MISSING_w (n : Nat) : (AX_DP_STAT_IDX_MISSING n).w = 1 := id rfl
@[simp] theorem AX_DP_STAT_ENC_FLT_a (n : Nat) : (AX_DP_STAT_ENC_FLT n).a = 0x88e + 0x100 * n := id rfl
@[simp] theorem AX_DP_STAT_ENC_FLT_lo (n : Nat) : (AX_DP_STAT_ENC_FLT n).lo = 6 := id rfl
@[simp] theorem AX_DP_STAT_ENC_FLT_w (n : Nat) : (AX_DP_STAT_ENC_FLT n).w = 1 := id rfl
@[simp] theorem AX_DP_STAT_FLT_CAUSE_a (n : Nat) : (AX_DP_STAT_FLT_CAUSE n).a = 0x88e + 0x100 * n := id rfl
@[simp] theorem AX_DP_STAT_FLT_CAUSE_lo (n : Nat) : (AX_DP_STAT_FLT_CAUSE n).lo = 7 := id rfl
@[simp] theorem AX_DP_STAT_FLT_CAUSE_w (n : Nat) : (AX_DP_STAT_FLT_CAUSE n).w = 3 := id rfl
@[simp] theorem AX_DP_STAT_DIRCHK_a (n : Nat) : (AX_DP_STAT_DIRCHK n).a = 0x88e + 0x100 * n := id rfl
@[simp] theorem AX_DP_STAT_DIRCHK_lo (n : Nat) : (AX_DP_STAT_DIRCHK n).lo = 10 := id rfl
@[simp] theorem AX_DP_STAT_DIRCHK_w (n : Nat) : (AX_DP_STAT_DIRCHK n).w = 2 := id rfl
@[simp] theorem AX_DP_STAT_NOSCALE_a (n : Nat) : (AX_DP_STAT_NOSCALE n).a = 0x88e + 0x100 * n := id rfl
@[simp] theorem AX_DP_STAT_NOSCALE_lo (n : Nat) : (AX_DP_STAT_NOSCALE n).lo = 12 := id rfl
@[simp] theorem AX_DP_STAT_NOSCALE_w (n : Nat) : (AX_DP_STAT_NOSCALE n).w = 1 := id rfl
@[simp] theorem AX_DP_STAT_SSI_BUSY_a (n : Nat) : (AX_DP_STAT_SSI_BUSY n).a = 0x88e + 0x100 * n := id rfl
@[simp] theorem AX_DP_STAT_SSI_BUSY_lo (n : Nat) : (AX_DP_STAT_SSI_BUSY n).lo = 13 := id rfl
@[simp] theorem AX_DP_STAT_SSI_BUSY_w (n : Nat) : (AX_DP_STAT_SSI_BUSY n).w = 1 := id rfl
@[simp] theorem AX_DP_STAT_MW_HOLD_a (n : Nat) : (AX_DP_STAT_MW_HOLD n).a = 0x88e + 0x100 * n := id rfl
@[simp] theorem AX_DP_STAT_MW_HOLD_lo (n : Nat) : (AX_DP_STAT_MW_HOLD n).lo = 14 := id rfl
@[simp] theorem AX_DP_STAT_MW_HOLD_w (n : Nat) : (AX_DP_STAT_MW_HOLD n).w = 1 := id rfl
@[simp] theorem AX_DP_STAT_WORD_OK_a (n : Nat) : (AX_DP_STAT_WORD_OK n).a = 0x88e + 0x100 * n := id rfl
@[simp] theorem AX_DP_STAT_WORD_OK_lo (n : Nat) : (AX_DP_STAT_WORD_OK n).lo = 15 := id rfl
@[simp] theorem AX_DP_STAT_WORD_OK_w (n : Nat) : (AX_DP_STAT_WORD_OK n).w = 1 := id rfl
@[simp] theorem AX_DP_STAT_MIS_CONSEC_a (n : Nat) : (AX_DP_STAT_MIS_CONSEC n).a = 0x88e + 0x100 * n := id rfl
@[simp] theorem AX_DP_STAT_MIS_CONSEC_lo (n : Nat) : (AX_DP_STAT_MIS_CONSEC n).lo = 16 := id rfl
@[simp] theorem AX_DP_STAT_MIS_CONSEC_w (n : Nat) : (AX_DP_STAT_MIS_CONSEC n).w = 2 := id rfl
@[simp] theorem AX_DP_COUNT_COUNT_a (n : Nat) : (AX_DP_COUNT_COUNT n).a = 0x88f + 0x100 * n := id rfl
@[simp] theorem AX_DP_COUNT_COUNT_lo (n : Nat) : (AX_DP_COUNT_COUNT n).lo = 0 := id rfl
@[simp] theorem AX_DP_COUNT_COUNT_w (n : Nat) : (AX_DP_COUNT_COUNT n).w = 32 := id rfl
@[simp] theorem AX_DP_SPEED_SPEED_a (n : Nat) : (AX_DP_SPEED_SPEED n).a = 0x890 + 0x100 * n := id rfl
@[simp] theorem AX_DP_SPEED_SPEED_lo (n : Nat) : (AX_DP_SPEED_SPEED n).lo = 0 := id rfl
@[simp] theorem AX_DP_SPEED_SPEED_w (n : Nat) : (AX_DP_SPEED_SPEED n).w = 32 := id rfl
@[simp] theorem AX_DP_IDX_IDXCNT_a (n : Nat) : (AX_DP_IDX_IDXCNT n).a = 0x891 + 0x100 * n := id rfl
@[simp] theorem AX_DP_IDX_IDXCNT_lo (n : Nat) : (AX_DP_IDX_IDXCNT n).lo = 0 := id rfl
@[simp] theorem AX_DP_IDX_IDXCNT_w (n : Nat) : (AX_DP_IDX_IDXCNT n).w = 32 := id rfl
@[simp] theorem AX_DP_IDXERR_DELTA_a (n : Nat) : (AX_DP_IDXERR_DELTA n).a = 0x892 + 0x100 * n := id rfl
@[simp] theorem AX_DP_IDXERR_DELTA_lo (n : Nat) : (AX_DP_IDXERR_DELTA n).lo = 0 := id rfl
@[simp] theorem AX_DP_IDXERR_DELTA_w (n : Nat) : (AX_DP_IDXERR_DELTA n).w = 16 := id rfl
@[simp] theorem AX_DP_SSI_WORD_WORD_a (n : Nat) : (AX_DP_SSI_WORD_WORD n).a = 0x893 + 0x100 * n := id rfl
@[simp] theorem AX_DP_SSI_WORD_WORD_lo (n : Nat) : (AX_DP_SSI_WORD_WORD n).lo = 0 := id rfl
@[simp] theorem AX_DP_SSI_WORD_WORD_w (n : Nat) : (AX_DP_SSI_WORD_WORD n).w = 32 := id rfl
@[simp] theorem AX_DP_SSI_TS_TS_a (n : Nat) : (AX_DP_SSI_TS_TS n).a = 0x894 + 0x100 * n := id rfl
@[simp] theorem AX_DP_SSI_TS_TS_lo (n : Nat) : (AX_DP_SSI_TS_TS n).lo = 0 := id rfl
@[simp] theorem AX_DP_SSI_TS_TS_w (n : Nat) : (AX_DP_SSI_TS_TS n).w = 32 := id rfl
@[simp] theorem AX_DP_CNT_QERR_a (n : Nat) : (AX_DP_CNT_QERR n).a = 0x895 + 0x100 * n := id rfl
@[simp] theorem AX_DP_CNT_QERR_lo (n : Nat) : (AX_DP_CNT_QERR n).lo = 0 := id rfl
@[simp] theorem AX_DP_CNT_QERR_w (n : Nat) : (AX_DP_CNT_QERR n).w = 8 := id rfl
@[simp] theorem AX_DP_CNT_SSI_DROP_a (n : Nat) : (AX_DP_CNT_SSI_DROP n).a = 0x895 + 0x100 * n := id rfl
@[simp] theorem AX_DP_CNT_SSI_DROP_lo (n : Nat) : (AX_DP_CNT_SSI_DROP n).lo = 8 := id rfl
@[simp] theorem AX_DP_CNT_SSI_DROP_w (n : Nat) : (AX_DP_CNT_SSI_DROP n).w = 8 := id rfl
@[simp] theorem AX_DP_CNT_SSI_FERR_a (n : Nat) : (AX_DP_CNT_SSI_FERR n).a = 0x895 + 0x100 * n := id rfl
@[simp] theorem AX_DP_CNT_SSI_FERR_lo (n : Nat) : (AX_DP_CNT_SSI_FERR n).lo = 16 := id rfl
@[simp] theorem AX_DP_CNT_SSI_FERR_w (n : Nat) : (AX_DP_CNT_SSI_FERR n).w = 8 := id rfl
@[simp] theorem AX_DP_CNT_IDX_MIS_a (n : Nat) : (AX_DP_CNT_IDX_MIS n).a = 0x895 + 0x100 * n := id rfl
@[simp] theorem AX_DP_CNT_IDX_MIS_lo (n : Nat) : (AX_DP_CNT_IDX_MIS n).lo = 24 := id rfl
@[simp] theorem AX_DP_CNT_IDX_MIS_w (n : Nat) : (AX_DP_CNT_IDX_MIS n).w = 8 := id rfl
@[simp] theorem ST_SV_CFG_ORG_a (st : Nat) : (ST_SV_CFG_ORG st).a = 0x440 + 0x100 * st := id rfl
@[simp] theorem ST_SV_CFG_ORG_lo (st : Nat) : (ST_SV_CFG_ORG st).lo = 0 := id rfl
@[simp] theorem ST_SV_CFG_ORG_w (st : Nat) : (ST_SV_CFG_ORG st).w = 1 := id rfl
@[simp] theorem ST_SV_CFG_RMODE_a (st : Nat) : (ST_SV_CFG_RMODE st).a = 0x440 + 0x100 * st := id rfl
@[simp] theorem ST_SV_CFG_RMODE_lo (st : Nat) : (ST_SV_CFG_RMODE st).lo = 1 := id rfl
@[simp] theorem ST_SV_CFG_RMODE_w (st : Nat) : (ST_SV_CFG_RMODE st).w = 2 := id rfl
@[simp] theorem ST_SV_CFG_REG_LEN_a (st : Nat) : (ST_SV_CFG_REG_LEN st).a = 0x440 + 0x100 * st := id rfl
@[simp] theorem ST_SV_CFG_REG_LEN_lo (st : Nat) : (ST_SV_CFG_REG_LEN st).lo = 3 := id rfl
@[simp] theorem ST_SV_CFG_REG_LEN_w (st : Nat) : (ST_SV_CFG_REG_LEN st).w = 5 := id rfl
@[simp] theorem ST_SV_CFG_INJ_LEN_a (st : Nat) : (ST_SV_CFG_INJ_LEN st).a = 0x440 + 0x100 * st := id rfl
@[simp] theorem ST_SV_CFG_INJ_LEN_lo (st : Nat) : (ST_SV_CFG_INJ_LEN st).lo = 8 := id rfl
@[simp] theorem ST_SV_CFG_INJ_LEN_w (st : Nat) : (ST_SV_CFG_INJ_LEN st).w = 3 := id rfl
@[simp] theorem ST_SV_CFG_INJ_SRC_a (st : Nat) : (ST_SV_CFG_INJ_SRC st).a = 0x440 + 0x100 * st := id rfl
@[simp] theorem ST_SV_CFG_INJ_SRC_lo (st : Nat) : (ST_SV_CFG_INJ_SRC st).lo = 11 := id rfl
@[simp] theorem ST_SV_CFG_INJ_SRC_w (st : Nat) : (ST_SV_CFG_INJ_SRC st).w = 4 := id rfl
@[simp] theorem ST_SV_CFG_OVWR_a (st : Nat) : (ST_SV_CFG_OVWR st).a = 0x440 + 0x100 * st := id rfl
@[simp] theorem ST_SV_CFG_OVWR_lo (st : Nat) : (ST_SV_CFG_OVWR st).lo = 15 := id rfl
@[simp] theorem ST_SV_CFG_OVWR_w (st : Nat) : (ST_SV_CFG_OVWR st).w = 1 := id rfl
@[simp] theorem ST_SV_CFG_TRIPMASK_a (st : Nat) : (ST_SV_CFG_TRIPMASK st).a = 0x440 + 0x100 * st := id rfl
@[simp] theorem ST_SV_CFG_TRIPMASK_lo (st : Nat) : (ST_SV_CFG_TRIPMASK st).lo = 16 := id rfl
@[simp] theorem ST_SV_CFG_TRIPMASK_w (st : Nat) : (ST_SV_CFG_TRIPMASK st).w = 4 := id rfl
@[simp] theorem ST_SV_CFG_HK_DMA_a (st : Nat) : (ST_SV_CFG_HK_DMA st).a = 0x440 + 0x100 * st := id rfl
@[simp] theorem ST_SV_CFG_HK_DMA_lo (st : Nat) : (ST_SV_CFG_HK_DMA st).lo = 20 := id rfl
@[simp] theorem ST_SV_CFG_HK_DMA_w (st : Nat) : (ST_SV_CFG_HK_DMA st).w = 1 := id rfl
@[simp] theorem ST_SV_TIME_GAP_a (st : Nat) : (ST_SV_TIME_GAP st).a = 0x441 + 0x100 * st := id rfl
@[simp] theorem ST_SV_TIME_GAP_lo (st : Nat) : (ST_SV_TIME_GAP st).lo = 0 := id rfl
@[simp] theorem ST_SV_TIME_GAP_w (st : Nat) : (ST_SV_TIME_GAP st).w = 16 := id rfl
@[simp] theorem ST_SV_TIME_PD_THR_a (st : Nat) : (ST_SV_TIME_PD_THR st).a = 0x441 + 0x100 * st := id rfl
@[simp] theorem ST_SV_TIME_PD_THR_lo (st : Nat) : (ST_SV_TIME_PD_THR st).lo = 16 := id rfl
@[simp] theorem ST_SV_TIME_PD_THR_w (st : Nat) : (ST_SV_TIME_PD_THR st).w = 16 := id rfl
@[simp] theorem ST_SV_TPH_RTPH_a (st : Nat) : (ST_SV_TPH_RTPH st).a = 0x442 + 0x100 * st := id rfl
@[simp] theorem ST_SV_TPH_RTPH_lo (st : Nat) : (ST_SV_TPH_RTPH st).lo = 0 := id rfl
@[simp] theorem ST_SV_TPH_RTPH_w (st : Nat) : (ST_SV_TPH_RTPH st).w = 16 := id rfl
@[simp] theorem ST_SV_TPH_ITPH_a (st : Nat) : (ST_SV_TPH_ITPH st).a = 0x442 + 0x100 * st := id rfl
@[simp] theorem ST_SV_TPH_ITPH_lo (st : Nat) : (ST_SV_TPH_ITPH st).lo = 16 := id rfl
@[simp] theorem ST_SV_TPH_ITPH_w (st : Nat) : (ST_SV_TPH_ITPH st).w = 16 := id rfl
@[simp] theorem ST_SV_CTL_TRG_a (st : Nat) : (ST_SV_CTL_TRG st).a = 0x443 + 0x100 * st := id rfl
@[simp] theorem ST_SV_CTL_TRG_lo (st : Nat) : (ST_SV_CTL_TRG st).lo = 0 := id rfl
@[simp] theorem ST_SV_CTL_TRG_w (st : Nat) : (ST_SV_CTL_TRG st).w = 1 := id rfl
@[simp] theorem ST_SV_CTL_ITRG_a (st : Nat) : (ST_SV_CTL_ITRG st).a = 0x443 + 0x100 * st := id rfl
@[simp] theorem ST_SV_CTL_ITRG_lo (st : Nat) : (ST_SV_CTL_ITRG st).lo = 1 := id rfl
@[simp] theorem ST_SV_CTL_ITRG_w (st : Nat) : (ST_SV_CTL_ITRG st).w = 1 := id rfl
@[simp] theorem ST_SV_CTL_CLR_CNT_a (st : Nat) : (ST_SV_CTL_CLR_CNT st).a = 0x443 + 0x100 * st := id rfl
@[simp] theorem ST_SV_CTL_CLR_CNT_lo (st : Nat) : (ST_SV_CTL_CLR_CNT st).lo = 2 := id rfl
@[simp] theorem ST_SV_CTL_CLR_CNT_w (st : Nat) : (ST_SV_CTL_CLR_CNT st).w = 1 := id rfl
@[simp] theorem ST_SV_STAT_BUSY_a (st : Nat) : (ST_SV_STAT_BUSY st).a = 0x444 + 0x100 * st := id rfl
@[simp] theorem ST_SV_STAT_BUSY_lo (st : Nat) : (ST_SV_STAT_BUSY st).lo = 0 := id rfl
@[simp] theorem ST_SV_STAT_BUSY_w (st : Nat) : (ST_SV_STAT_BUSY st).w = 1 := id rfl
@[simp] theorem ST_SV_STAT_INJ_BUSY_a (st : Nat) : (ST_SV_STAT_INJ_BUSY st).a = 0x444 + 0x100 * st := id rfl
@[simp] theorem ST_SV_STAT_INJ_BUSY_lo (st : Nat) : (ST_SV_STAT_INJ_BUSY st).lo = 1 := id rfl
@[simp] theorem ST_SV_STAT_INJ_BUSY_w (st : Nat) : (ST_SV_STAT_INJ_BUSY st).w = 1 := id rfl
@[simp] theorem ST_SV_STAT_PWRDN_a (st : Nat) : (ST_SV_STAT_PWRDN st).a = 0x444 + 0x100 * st := id rfl
@[simp] theorem ST_SV_STAT_PWRDN_lo (st : Nat) : (ST_SV_STAT_PWRDN st).lo = 2 := id rfl
@[simp] theorem ST_SV_STAT_PWRDN_w (st : Nat) : (ST_SV_STAT_PWRDN st).w = 1 := id rfl
@[simp] theorem ST_SV_STAT_TRG_PEND_a (st : Nat) : (ST_SV_STAT_TRG_PEND st).a = 0x444 + 0x100 * st := id rfl
@[simp] theorem ST_SV_STAT_TRG_PEND_lo (st : Nat) : (ST_SV_STAT_TRG_PEND st).lo = 3 := id rfl
@[simp] theorem ST_SV_STAT_TRG_PEND_w (st : Nat) : (ST_SV_STAT_TRG_PEND st).w = 1 := id rfl
@[simp] theorem ST_SV_STAT_ITRG_PEND_a (st : Nat) : (ST_SV_STAT_ITRG_PEND st).a = 0x444 + 0x100 * st := id rfl
@[simp] theorem ST_SV_STAT_ITRG_PEND_lo (st : Nat) : (ST_SV_STAT_ITRG_PEND st).lo = 4 := id rfl
@[simp] theorem ST_SV_STAT_ITRG_PEND_w (st : Nat) : (ST_SV_STAT_ITRG_PEND st).w = 1 := id rfl
@[simp] theorem ST_SV_STAT_CFG_ERR_a (st : Nat) : (ST_SV_STAT_CFG_ERR st).a = 0x444 + 0x100 * st := id rfl
@[simp] theorem ST_SV_STAT_CFG_ERR_lo (st : Nat) : (ST_SV_STAT_CFG_ERR st).lo = 5 := id rfl
@[simp] theorem ST_SV_STAT_CFG_ERR_w (st : Nat) : (ST_SV_STAT_CFG_ERR st).w = 1 := id rfl
@[simp] theorem ST_SV_STAT_ROUND_a (st : Nat) : (ST_SV_STAT_ROUND st).a = 0x444 + 0x100 * st := id rfl
@[simp] theorem ST_SV_STAT_ROUND_lo (st : Nat) : (ST_SV_STAT_ROUND st).lo = 16 := id rfl
@[simp] theorem ST_SV_STAT_ROUND_w (st : Nat) : (ST_SV_STAT_ROUND st).w = 16 := id rfl
@[simp] theorem ST_SV_CNT_TRG_OVR_a (st : Nat) : (ST_SV_CNT_TRG_OVR st).a = 0x445 + 0x100 * st := id rfl
@[simp] theorem ST_SV_CNT_TRG_OVR_lo (st : Nat) : (ST_SV_CNT_TRG_OVR st).lo = 0 := id rfl
@[simp] theorem ST_SV_CNT_TRG_OVR_w (st : Nat) : (ST_SV_CNT_TRG_OVR st).w = 8 := id rfl
@[simp] theorem ST_SV_CNT_INJ_OVR_a (st : Nat) : (ST_SV_CNT_INJ_OVR st).a = 0x445 + 0x100 * st := id rfl
@[simp] theorem ST_SV_CNT_INJ_OVR_lo (st : Nat) : (ST_SV_CNT_INJ_OVR st).lo = 8 := id rfl
@[simp] theorem ST_SV_CNT_INJ_OVR_w (st : Nat) : (ST_SV_CNT_INJ_OVR st).w = 8 := id rfl
@[simp] theorem ST_SV_CNT_ABORTS_a (st : Nat) : (ST_SV_CNT_ABORTS st).a = 0x445 + 0x100 * st := id rfl
@[simp] theorem ST_SV_CNT_ABORTS_lo (st : Nat) : (ST_SV_CNT_ABORTS st).lo = 16 := id rfl
@[simp] theorem ST_SV_CNT_ABORTS_w (st : Nat) : (ST_SV_CNT_ABORTS st).w = 8 := id rfl
@[simp] theorem ST_SV_CNT_KEEP_a (st : Nat) : (ST_SV_CNT_KEEP st).a = 0x445 + 0x100 * st := id rfl
@[simp] theorem ST_SV_CNT_KEEP_lo (st : Nat) : (ST_SV_CNT_KEEP st).lo = 24 := id rfl
@[simp] theorem ST_SV_CNT_KEEP_w (st : Nat) : (ST_SV_CNT_KEEP st).w = 8 := id rfl
@[simp] theorem ST_HK_VM_VMB_a (st : Nat) : (ST_HK_VM_VMB st).a = 0x446 + 0x100 * st := id rfl
@[simp] theorem ST_HK_VM_VMB_lo (st : Nat) : (ST_HK_VM_VMB st).lo = 0 := id rfl
@[simp] theorem ST_HK_VM_VMB_w (st : Nat) : (ST_HK_VM_VMB st).w = 16 := id rfl
@[simp] theorem ST_HK_VM_VMX_a (st : Nat) : (ST_HK_VM_VMX st).a = 0x446 + 0x100 * st := id rfl
@[simp] theorem ST_HK_VM_VMX_lo (st : Nat) : (ST_HK_VM_VMX st).lo = 16 := id rfl
@[simp] theorem ST_HK_VM_VMX_w (st : Nat) : (ST_HK_VM_VMX st).w = 16 := id rfl
@[simp] theorem ST_HK_REF_REF_a (st : Nat) : (ST_HK_REF_REF st).a = 0x447 + 0x100 * st := id rfl
@[simp] theorem ST_HK_REF_REF_lo (st : Nat) : (ST_HK_REF_REF st).lo = 0 := id rfl
@[simp] theorem ST_HK_REF_REF_w (st : Nat) : (ST_HK_REF_REF st).w = 14 := id rfl
@[simp] theorem ST_HK_T01_T0_a (st : Nat) : (ST_HK_T01_T0 st).a = 0x448 + 0x100 * st := id rfl
@[simp] theorem ST_HK_T01_T0_lo (st : Nat) : (ST_HK_T01_T0 st).lo = 0 := id rfl
@[simp] theorem ST_HK_T01_T0_w (st : Nat) : (ST_HK_T01_T0 st).w = 16 := id rfl
@[simp] theorem ST_HK_T01_T1_a (st : Nat) : (ST_HK_T01_T1 st).a = 0x448 + 0x100 * st := id rfl
@[simp] theorem ST_HK_T01_T1_lo (st : Nat) : (ST_HK_T01_T1 st).lo = 16 := id rfl
@[simp] theorem ST_HK_T01_T1_w (st : Nat) : (ST_HK_T01_T1 st).w = 16 := id rfl
@[simp] theorem ST_HK_T2_T2_a (st : Nat) : (ST_HK_T2_T2 st).a = 0x449 + 0x100 * st := id rfl
@[simp] theorem ST_HK_T2_T2_lo (st : Nat) : (ST_HK_T2_T2 st).lo = 0 := id rfl
@[simp] theorem ST_HK_T2_T2_w (st : Nat) : (ST_HK_T2_T2 st).w = 16 := id rfl
@[simp] theorem XCHK_CFG_VM_TOL_a : XCHK_CFG_VM_TOL.a = 0x44a := id rfl
@[simp] theorem XCHK_CFG_VM_TOL_lo : XCHK_CFG_VM_TOL.lo = 0 := id rfl
@[simp] theorem XCHK_CFG_VM_TOL_w : XCHK_CFG_VM_TOL.w = 16 := id rfl
@[simp] theorem XCHK_CFG_REF_TOL_a : XCHK_CFG_REF_TOL.a = 0x44a := id rfl
@[simp] theorem XCHK_CFG_REF_TOL_lo : XCHK_CFG_REF_TOL.lo = 16 := id rfl
@[simp] theorem XCHK_CFG_REF_TOL_w : XCHK_CFG_REF_TOL.w = 8 := id rfl
@[simp] theorem XCHK_CFG_COUNT_a : XCHK_CFG_COUNT.a = 0x44a := id rfl
@[simp] theorem XCHK_CFG_COUNT_lo : XCHK_CFG_COUNT.lo = 24 := id rfl
@[simp] theorem XCHK_CFG_COUNT_w : XCHK_CFG_COUNT.w = 3 := id rfl
@[simp] theorem XCHK_CFG_XCHK_SAFE_a : XCHK_CFG_XCHK_SAFE.a = 0x44a := id rfl
@[simp] theorem XCHK_CFG_XCHK_SAFE_lo : XCHK_CFG_XCHK_SAFE.lo = 27 := id rfl
@[simp] theorem XCHK_CFG_XCHK_SAFE_w : XCHK_CFG_XCHK_SAFE.w = 1 := id rfl
@[simp] theorem XCHK_STAT_FAIL_a : XCHK_STAT_FAIL.a = 0x44b := id rfl
@[simp] theorem XCHK_STAT_FAIL_lo : XCHK_STAT_FAIL.lo = 0 := id rfl
@[simp] theorem XCHK_STAT_FAIL_w : XCHK_STAT_FAIL.w = 1 := id rfl
@[simp] theorem XCHK_STAT_BAD0_a : XCHK_STAT_BAD0.a = 0x44b := id rfl
@[simp] theorem XCHK_STAT_BAD0_lo : XCHK_STAT_BAD0.lo = 1 := id rfl
@[simp] theorem XCHK_STAT_BAD0_w : XCHK_STAT_BAD0.w = 1 := id rfl
@[simp] theorem XCHK_STAT_BAD1_a : XCHK_STAT_BAD1.a = 0x44b := id rfl
@[simp] theorem XCHK_STAT_BAD1_lo : XCHK_STAT_BAD1.lo = 2 := id rfl
@[simp] theorem XCHK_STAT_BAD1_w : XCHK_STAT_BAD1.w = 1 := id rfl
@[simp] theorem XCHK_STAT_LAST_OK_a : XCHK_STAT_LAST_OK.a = 0x44b := id rfl
@[simp] theorem XCHK_STAT_LAST_OK_lo : XCHK_STAT_LAST_OK.lo = 3 := id rfl
@[simp] theorem XCHK_STAT_LAST_OK_w : XCHK_STAT_LAST_OK.w = 1 := id rfl
@[simp] theorem XCHK_STAT_CONSEC_a : XCHK_STAT_CONSEC.a = 0x44b := id rfl
@[simp] theorem XCHK_STAT_CONSEC_lo : XCHK_STAT_CONSEC.lo = 4 := id rfl
@[simp] theorem XCHK_STAT_CONSEC_w : XCHK_STAT_CONSEC.w = 4 := id rfl
@[simp] theorem XCHK_STAT_FAILS_a : XCHK_STAT_FAILS.a = 0x44b := id rfl
@[simp] theorem XCHK_STAT_FAILS_lo : XCHK_STAT_FAILS.lo = 8 := id rfl
@[simp] theorem XCHK_STAT_FAILS_w : XCHK_STAT_FAILS.w = 8 := id rfl
@[simp] theorem XCHK_STAT_VMDIFF_a : XCHK_STAT_VMDIFF.a = 0x44b := id rfl
@[simp] theorem XCHK_STAT_VMDIFF_lo : XCHK_STAT_VMDIFF.lo = 16 := id rfl
@[simp] theorem XCHK_STAT_VMDIFF_w : XCHK_STAT_VMDIFF.w = 16 := id rfl
@[simp] theorem ST_CAL_CTL_CH_a (st : Nat) : (ST_CAL_CTL_CH st).a = 0x44c + 0x100 * st := id rfl
@[simp] theorem ST_CAL_CTL_CH_lo (st : Nat) : (ST_CAL_CTL_CH st).lo = 0 := id rfl
@[simp] theorem ST_CAL_CTL_CH_w (st : Nat) : (ST_CAL_CTL_CH st).w = 5 := id rfl
@[simp] theorem ST_CAL_CTL_SUB_a (st : Nat) : (ST_CAL_CTL_SUB st).a = 0x44c + 0x100 * st := id rfl
@[simp] theorem ST_CAL_CTL_SUB_lo (st : Nat) : (ST_CAL_CTL_SUB st).lo = 5 := id rfl
@[simp] theorem ST_CAL_CTL_SUB_w (st : Nat) : (ST_CAL_CTL_SUB st).w = 4 := id rfl
@[simp] theorem ST_CAL_CTL_GAIN_a (st : Nat) : (ST_CAL_CTL_GAIN st).a = 0x44c + 0x100 * st := id rfl
@[simp] theorem ST_CAL_CTL_GAIN_lo (st : Nat) : (ST_CAL_CTL_GAIN st).lo = 9 := id rfl
@[simp] theorem ST_CAL_CTL_GAIN_w (st : Nat) : (ST_CAL_CTL_GAIN st).w = 2 := id rfl
@[simp] theorem ST_CAL_CTL_ZERO_a (st : Nat) : (ST_CAL_CTL_ZERO st).a = 0x44c + 0x100 * st := id rfl
@[simp] theorem ST_CAL_CTL_ZERO_lo (st : Nat) : (ST_CAL_CTL_ZERO st).lo = 16 := id rfl
@[simp] theorem ST_CAL_CTL_ZERO_w (st : Nat) : (ST_CAL_CTL_ZERO st).w = 1 := id rfl
@[simp] theorem ST_CAL_CTL_FULL_a (st : Nat) : (ST_CAL_CTL_FULL st).a = 0x44c + 0x100 * st := id rfl
@[simp] theorem ST_CAL_CTL_FULL_lo (st : Nat) : (ST_CAL_CTL_FULL st).lo = 17 := id rfl
@[simp] theorem ST_CAL_CTL_FULL_w (st : Nat) : (ST_CAL_CTL_FULL st).w = 1 := id rfl
@[simp] theorem ST_CAL_CTL_STORE_a (st : Nat) : (ST_CAL_CTL_STORE st).a = 0x44c + 0x100 * st := id rfl
@[simp] theorem ST_CAL_CTL_STORE_lo (st : Nat) : (ST_CAL_CTL_STORE st).lo = 18 := id rfl
@[simp] theorem ST_CAL_CTL_STORE_w (st : Nat) : (ST_CAL_CTL_STORE st).w = 1 := id rfl
@[simp] theorem ST_CAL_VFS_VFS_a (st : Nat) : (ST_CAL_VFS_VFS st).a = 0x44d + 0x100 * st := id rfl
@[simp] theorem ST_CAL_VFS_VFS_lo (st : Nat) : (ST_CAL_VFS_VFS st).lo = 0 := id rfl
@[simp] theorem ST_CAL_VFS_VFS_w (st : Nat) : (ST_CAL_VFS_VFS st).w = 23 := id rfl
@[simp] theorem ST_CAL_STAT_BUSY_a (st : Nat) : (ST_CAL_STAT_BUSY st).a = 0x44e + 0x100 * st := id rfl
@[simp] theorem ST_CAL_STAT_BUSY_lo (st : Nat) : (ST_CAL_STAT_BUSY st).lo = 0 := id rfl
@[simp] theorem ST_CAL_STAT_BUSY_w (st : Nat) : (ST_CAL_STAT_BUSY st).w = 1 := id rfl
@[simp] theorem ST_CAL_STAT_STATE_a (st : Nat) : (ST_CAL_STAT_STATE st).a = 0x44e + 0x100 * st := id rfl
@[simp] theorem ST_CAL_STAT_STATE_lo (st : Nat) : (ST_CAL_STAT_STATE st).lo = 1 := id rfl
@[simp] theorem ST_CAL_STAT_STATE_w (st : Nat) : (ST_CAL_STAT_STATE st).w = 2 := id rfl
@[simp] theorem ST_CAL_STAT_RESULT_a (st : Nat) : (ST_CAL_STAT_RESULT st).a = 0x44e + 0x100 * st := id rfl
@[simp] theorem ST_CAL_STAT_RESULT_lo (st : Nat) : (ST_CAL_STAT_RESULT st).lo = 3 := id rfl
@[simp] theorem ST_CAL_STAT_RESULT_w (st : Nat) : (ST_CAL_STAT_RESULT st).w = 3 := id rfl
@[simp] theorem ST_CAL_RES_OFS_a (st : Nat) : (ST_CAL_RES_OFS st).a = 0x44f + 0x100 * st := id rfl
@[simp] theorem ST_CAL_RES_OFS_lo (st : Nat) : (ST_CAL_RES_OFS st).lo = 0 := id rfl
@[simp] theorem ST_CAL_RES_OFS_w (st : Nat) : (ST_CAL_RES_OFS st).w = 16 := id rfl
@[simp] theorem ST_CAL_RES_GC_a (st : Nat) : (ST_CAL_RES_GC st).a = 0x44f + 0x100 * st := id rfl
@[simp] theorem ST_CAL_RES_GC_lo (st : Nat) : (ST_CAL_RES_GC st).lo = 16 := id rfl
@[simp] theorem ST_CAL_RES_GC_w (st : Nat) : (ST_CAL_RES_GC st).w = 16 := id rfl
@[simp] theorem ST_SEQ_CH_a (st e : Nat) : (ST_SEQ_CH st e).a = 0x450 + 0x100 * st + e := id rfl
@[simp] theorem ST_SEQ_CH_lo (st e : Nat) : (ST_SEQ_CH st e).lo = 0 := id rfl
@[simp] theorem ST_SEQ_CH_w (st e : Nat) : (ST_SEQ_CH st e).w = 5 := id rfl
@[simp] theorem ST_SEQ_SUB_a (st e : Nat) : (ST_SEQ_SUB st e).a = 0x450 + 0x100 * st + e := id rfl
@[simp] theorem ST_SEQ_SUB_lo (st e : Nat) : (ST_SEQ_SUB st e).lo = 5 := id rfl
@[simp] theorem ST_SEQ_SUB_w (st e : Nat) : (ST_SEQ_SUB st e).w = 4 := id rfl
@[simp] theorem ST_SEQ_GAIN_a (st e : Nat) : (ST_SEQ_GAIN st e).a = 0x450 + 0x100 * st + e := id rfl
@[simp] theorem ST_SEQ_GAIN_lo (st e : Nat) : (ST_SEQ_GAIN st e).lo = 9 := id rfl
@[simp] theorem ST_SEQ_GAIN_w (st e : Nat) : (ST_SEQ_GAIN st e).w = 2 := id rfl
@[simp] theorem ST_SEQ_SMP_a (st e : Nat) : (ST_SEQ_SMP st e).a = 0x450 + 0x100 * st + e := id rfl
@[simp] theorem ST_SEQ_SMP_lo (st e : Nat) : (ST_SEQ_SMP st e).lo = 11 := id rfl
@[simp] theorem ST_SEQ_SMP_w (st e : Nat) : (ST_SEQ_SMP st e).w = 3 := id rfl
@[simp] theorem ST_SEQ_AVG_a (st e : Nat) : (ST_SEQ_AVG st e).a = 0x450 + 0x100 * st + e := id rfl
@[simp] theorem ST_SEQ_AVG_lo (st e : Nat) : (ST_SEQ_AVG st e).lo = 14 := id rfl
@[simp] theorem ST_SEQ_AVG_w (st e : Nat) : (ST_SEQ_AVG st e).w = 4 := id rfl
@[simp] theorem ST_SEQ_SHIFT_a (st e : Nat) : (ST_SEQ_SHIFT st e).a = 0x450 + 0x100 * st + e := id rfl
@[simp] theorem ST_SEQ_SHIFT_lo (st e : Nat) : (ST_SEQ_SHIFT st e).lo = 18 := id rfl
@[simp] theorem ST_SEQ_SHIFT_w (st e : Nat) : (ST_SEQ_SHIFT st e).w = 4 := id rfl
@[simp] theorem ST_SEQ_DMA_a (st e : Nat) : (ST_SEQ_DMA st e).a = 0x450 + 0x100 * st + e := id rfl
@[simp] theorem ST_SEQ_DMA_lo (st e : Nat) : (ST_SEQ_DMA st e).lo = 22 := id rfl
@[simp] theorem ST_SEQ_DMA_w (st e : Nat) : (ST_SEQ_DMA st e).w = 1 := id rfl
@[simp] theorem ST_RES_VALUE_a (st e : Nat) : (ST_RES_VALUE st e).a = 0x464 + 0x100 * st + e := id rfl
@[simp] theorem ST_RES_VALUE_lo (st e : Nat) : (ST_RES_VALUE st e).lo = 0 := id rfl
@[simp] theorem ST_RES_VALUE_w (st e : Nat) : (ST_RES_VALUE st e).w = 16 := id rfl
@[simp] theorem ST_RES_SAT_a (st e : Nat) : (ST_RES_SAT st e).a = 0x464 + 0x100 * st + e := id rfl
@[simp] theorem ST_RES_SAT_lo (st e : Nat) : (ST_RES_SAT st e).lo = 16 := id rfl
@[simp] theorem ST_RES_SAT_w (st e : Nat) : (ST_RES_SAT st e).w = 1 := id rfl
@[simp] theorem ST_RES_ROUND_a (st e : Nat) : (ST_RES_ROUND st e).a = 0x464 + 0x100 * st + e := id rfl
@[simp] theorem ST_RES_ROUND_lo (st e : Nat) : (ST_RES_ROUND st e).lo = 17 := id rfl
@[simp] theorem ST_RES_ROUND_w (st e : Nat) : (ST_RES_ROUND st e).w = 15 := id rfl
@[simp] theorem CO_ADC_S01_S0_a (c : Nat) : (CO_ADC_S01_S0 c).a = 0x85c + 0x100 * (c / 2) + 0x10 * (c % 2) := id rfl
@[simp] theorem CO_ADC_S01_S0_lo (c : Nat) : (CO_ADC_S01_S0 c).lo = 0 := id rfl
@[simp] theorem CO_ADC_S01_S0_w (c : Nat) : (CO_ADC_S01_S0 c).w = 16 := id rfl
@[simp] theorem CO_ADC_S01_S1_a (c : Nat) : (CO_ADC_S01_S1 c).a = 0x85c + 0x100 * (c / 2) + 0x10 * (c % 2) := id rfl
@[simp] theorem CO_ADC_S01_S1_lo (c : Nat) : (CO_ADC_S01_S1 c).lo = 16 := id rfl
@[simp] theorem CO_ADC_S01_S1_w (c : Nat) : (CO_ADC_S01_S1 c).w = 16 := id rfl
@[simp] theorem CO_ADC_S2_S2_a (c : Nat) : (CO_ADC_S2_S2 c).a = 0x85d + 0x100 * (c / 2) + 0x10 * (c % 2) := id rfl
@[simp] theorem CO_ADC_S2_S2_lo (c : Nat) : (CO_ADC_S2_S2 c).lo = 0 := id rfl
@[simp] theorem CO_ADC_S2_S2_w (c : Nat) : (CO_ADC_S2_S2 c).w = 16 := id rfl
@[simp] theorem CO_ADC_CNT_S0_LATE_a (c : Nat) : (CO_ADC_CNT_S0_LATE c).a = 0x85e + 0x100 * (c / 2) + 0x10 * (c % 2) := id rfl
@[simp] theorem CO_ADC_CNT_S0_LATE_lo (c : Nat) : (CO_ADC_CNT_S0_LATE c).lo = 0 := id rfl
@[simp] theorem CO_ADC_CNT_S0_LATE_w (c : Nat) : (CO_ADC_CNT_S0_LATE c).w = 8 := id rfl
@[simp] theorem CO_ADC_CNT_URG_DROP_a (c : Nat) : (CO_ADC_CNT_URG_DROP c).a = 0x85e + 0x100 * (c / 2) + 0x10 * (c % 2) := id rfl
@[simp] theorem CO_ADC_CNT_URG_DROP_lo (c : Nat) : (CO_ADC_CNT_URG_DROP c).lo = 8 := id rfl
@[simp] theorem CO_ADC_CNT_URG_DROP_w (c : Nat) : (CO_ADC_CNT_URG_DROP c).w = 8 := id rfl
@[simp] theorem CO_ADC_CNT_CLIP_a (c : Nat) : (CO_ADC_CNT_CLIP c).a = 0x85e + 0x100 * (c / 2) + 0x10 * (c % 2) := id rfl
@[simp] theorem CO_ADC_CNT_CLIP_lo (c : Nat) : (CO_ADC_CNT_CLIP c).lo = 16 := id rfl
@[simp] theorem CO_ADC_CNT_CLIP_w (c : Nat) : (CO_ADC_CNT_CLIP c).w = 8 := id rfl
@[simp] theorem CO_ADC_CNT_CLR_a (c : Nat) : (CO_ADC_CNT_CLR c).a = 0x85e + 0x100 * (c / 2) + 0x10 * (c % 2) := id rfl
@[simp] theorem CO_ADC_CNT_CLR_lo (c : Nat) : (CO_ADC_CNT_CLR c).lo = 31 := id rfl
@[simp] theorem CO_ADC_CNT_CLR_w (c : Nat) : (CO_ADC_CNT_CLR c).w = 1 := id rfl
@[simp] theorem MG_ID_CFG_SPEED_a : MG_ID_CFG_SPEED.a = 0x1000400 := id rfl
@[simp] theorem MG_ID_CFG_SPEED_lo : MG_ID_CFG_SPEED.lo = 0 := id rfl
@[simp] theorem MG_ID_CFG_SPEED_w : MG_ID_CFG_SPEED.w = 1 := id rfl
@[simp] theorem MG_ID_CFG_ABSENT_KEEP_a : MG_ID_CFG_ABSENT_KEEP.a = 0x1000400 := id rfl
@[simp] theorem MG_ID_CFG_ABSENT_KEEP_lo : MG_ID_CFG_ABSENT_KEEP.lo = 1 := id rfl
@[simp] theorem MG_ID_CFG_ABSENT_KEEP_w : MG_ID_CFG_ABSENT_KEEP.w = 1 := id rfl
@[simp] theorem MG_ID_CFG_POLL_a : MG_ID_CFG_POLL.a = 0x1000400 := id rfl
@[simp] theorem MG_ID_CFG_POLL_lo : MG_ID_CFG_POLL.lo = 16 := id rfl
@[simp] theorem MG_ID_CFG_POLL_w : MG_ID_CFG_POLL.w = 16 := id rfl
@[simp] theorem MG_ID_CTL_RESCAN_a : MG_ID_CTL_RESCAN.a = 0x1000401 := id rfl
@[simp] theorem MG_ID_CTL_RESCAN_lo : MG_ID_CTL_RESCAN.lo = 0 := id rfl
@[simp] theorem MG_ID_CTL_RESCAN_w : MG_ID_CTL_RESCAN.w = 8 := id rfl
@[simp] theorem MG_ID_CTL_CLR_CNT_a : MG_ID_CTL_CLR_CNT.a = 0x1000401 := id rfl
@[simp] theorem MG_ID_CTL_CLR_CNT_lo : MG_ID_CTL_CLR_CNT.lo = 8 := id rfl
@[simp] theorem MG_ID_CTL_CLR_CNT_w : MG_ID_CTL_CLR_CNT.w = 1 := id rfl
@[simp] theorem MG_ID_PRES_PRESENT_a : MG_ID_PRES_PRESENT.a = 0x1000402 := id rfl
@[simp] theorem MG_ID_PRES_PRESENT_lo : MG_ID_PRES_PRESENT.lo = 0 := id rfl
@[simp] theorem MG_ID_PRES_PRESENT_w : MG_ID_PRES_PRESENT.w = 8 := id rfl
@[simp] theorem MG_ID_PRES_INFORCE_a : MG_ID_PRES_INFORCE.a = 0x1000402 := id rfl
@[simp] theorem MG_ID_PRES_INFORCE_lo : MG_ID_PRES_INFORCE.lo = 8 := id rfl
@[simp] theorem MG_ID_PRES_INFORCE_w : MG_ID_PRES_INFORCE.w = 8 := id rfl
@[simp] theorem MG_ID_PRES_PEND_a : MG_ID_PRES_PEND.a = 0x1000402 := id rfl
@[simp] theorem MG_ID_PRES_PEND_lo : MG_ID_PRES_PEND.lo = 16 := id rfl
@[simp] theorem MG_ID_PRES_PEND_w : MG_ID_PRES_PEND.w = 8 := id rfl
@[simp] theorem MG_ID_AX_RESULT_a (n : Nat) : (MG_ID_AX_RESULT n).a = 0x1000408 + n := id rfl
@[simp] theorem MG_ID_AX_RESULT_lo (n : Nat) : (MG_ID_AX_RESULT n).lo = 0 := id rfl
@[simp] theorem MG_ID_AX_RESULT_w (n : Nat) : (MG_ID_AX_RESULT n).w = 3 := id rfl
@[simp] theorem MG_ID_AX_SRC_a (n : Nat) : (MG_ID_AX_SRC n).a = 0x1000408 + n := id rfl
@[simp] theorem MG_ID_AX_SRC_lo (n : Nat) : (MG_ID_AX_SRC n).lo = 4 := id rfl
@[simp] theorem MG_ID_AX_SRC_w (n : Nat) : (MG_ID_AX_SRC n).w = 2 := id rfl
@[simp] theorem MG_ID_AX_ENC_MISMATCH_a (n : Nat) : (MG_ID_AX_ENC_MISMATCH n).a = 0x1000408 + n := id rfl
@[simp] theorem MG_ID_AX_ENC_MISMATCH_lo (n : Nat) : (MG_ID_AX_ENC_MISMATCH n).lo = 6 := id rfl
@[simp] theorem MG_ID_AX_ENC_MISMATCH_w (n : Nat) : (MG_ID_AX_ENC_MISMATCH n).w = 1 := id rfl
@[simp] theorem MG_ID_AX_OVR_a (n : Nat) : (MG_ID_AX_OVR n).a = 0x1000408 + n := id rfl
@[simp] theorem MG_ID_AX_OVR_lo (n : Nat) : (MG_ID_AX_OVR n).lo = 8 := id rfl
@[simp] theorem MG_ID_AX_OVR_w (n : Nat) : (MG_ID_AX_OVR n).w = 7 := id rfl
@[simp] theorem MG_ID_AX_READS_a (n : Nat) : (MG_ID_AX_READS n).a = 0x1000408 + n := id rfl
@[simp] theorem MG_ID_AX_READS_lo (n : Nat) : (MG_ID_AX_READS n).lo = 16 := id rfl
@[simp] theorem MG_ID_AX_READS_w (n : Nat) : (MG_ID_AX_READS n).w = 8 := id rfl
@[simp] theorem MG_ID_AX_ERRS_a (n : Nat) : (MG_ID_AX_ERRS n).a = 0x1000408 + n := id rfl
@[simp] theorem MG_ID_AX_ERRS_lo (n : Nat) : (MG_ID_AX_ERRS n).lo = 24 := id rfl
@[simp] theorem MG_ID_AX_ERRS_w (n : Nat) : (MG_ID_AX_ERRS n).w = 8 := id rfl
@[simp] theorem MG_ID_SER_SERIAL_a (n : Nat) : (MG_ID_SER_SERIAL n).a = 0x1000410 + n := id rfl
@[simp] theorem MG_ID_SER_SERIAL_lo (n : Nat) : (MG_ID_SER_SERIAL n).lo = 0 := id rfl
@[simp] theorem MG_ID_SER_SERIAL_w (n : Nat) : (MG_ID_SER_SERIAL n).w = 32 := id rfl
@[simp] theorem MG_TEMP_T_EVEN_a (k : Nat) : (MG_TEMP_T_EVEN k).a = 0x1000000 + k := id rfl
@[simp] theorem MG_TEMP_T_EVEN_lo (k : Nat) : (MG_TEMP_T_EVEN k).lo = 0 := id rfl
@[simp] theorem MG_TEMP_T_EVEN_w (k : Nat) : (MG_TEMP_T_EVEN k).w = 16 := id rfl
@[simp] theorem MG_TEMP_T_ODD_a (k : Nat) : (MG_TEMP_T_ODD k).a = 0x1000000 + k := id rfl
@[simp] theorem MG_TEMP_T_ODD_lo (k : Nat) : (MG_TEMP_T_ODD k).lo = 16 := id rfl
@[simp] theorem MG_TEMP_T_ODD_w (k : Nat) : (MG_TEMP_T_ODD k).w = 16 := id rfl
@[simp] theorem MG_VSUP_VLINK_a : MG_VSUP_VLINK.a = 0x1000004 := id rfl
@[simp] theorem MG_VSUP_VLINK_lo : MG_VSUP_VLINK.lo = 0 := id rfl
@[simp] theorem MG_VSUP_VLINK_w : MG_VSUP_VLINK.w = 16 := id rfl
@[simp] theorem MG_VSUP_VBAK_a : MG_VSUP_VBAK.a = 0x1000004 := id rfl
@[simp] theorem MG_VSUP_VBAK_lo : MG_VSUP_VBAK.lo = 16 := id rfl
@[simp] theorem MG_VSUP_VBAK_w : MG_VSUP_VBAK.w = 16 := id rfl
@[simp] theorem MG_SV_STAT_FW_a : MG_SV_STAT_FW.a = 0x1000005 := id rfl
@[simp] theorem MG_SV_STAT_FW_lo : MG_SV_STAT_FW.lo = 0 := id rfl
@[simp] theorem MG_SV_STAT_FW_w : MG_SV_STAT_FW.w = 1 := id rfl
@[simp] theorem MG_SV_STAT_HALTED_a : MG_SV_STAT_HALTED.a = 0x1000005 := id rfl
@[simp] theorem MG_SV_STAT_HALTED_lo : MG_SV_STAT_HALTED.lo = 1 := id rfl
@[simp] theorem MG_SV_STAT_HALTED_w : MG_SV_STAT_HALTED.w = 1 := id rfl
@[simp] theorem MG_SV_STAT_MW_RUN_a : MG_SV_STAT_MW_RUN.a = 0x1000005 := id rfl
@[simp] theorem MG_SV_STAT_MW_RUN_lo : MG_SV_STAT_MW_RUN.lo = 2 := id rfl
@[simp] theorem MG_SV_STAT_MW_RUN_w : MG_SV_STAT_MW_RUN.w = 1 := id rfl
@[simp] theorem MG_SV_STAT_QFILL_a : MG_SV_STAT_QFILL.a = 0x1000005 := id rfl
@[simp] theorem MG_SV_STAT_QFILL_lo : MG_SV_STAT_QFILL.lo = 8 := id rfl
@[simp] theorem MG_SV_STAT_QFILL_w : MG_SV_STAT_QFILL.w = 8 := id rfl
@[simp] theorem MG_FCLK_SECONDS_a : MG_FCLK_SECONDS.a = 0x1000008 := id rfl
@[simp] theorem MG_FCLK_SECONDS_lo : MG_FCLK_SECONDS.lo = 0 := id rfl
@[simp] theorem MG_FCLK_SECONDS_w : MG_FCLK_SECONDS.w = 32 := id rfl
@[simp] theorem MG_FCLK_STAT_MS_a : MG_FCLK_STAT_MS.a = 0x1000009 := id rfl
@[simp] theorem MG_FCLK_STAT_MS_lo : MG_FCLK_STAT_MS.lo = 0 := id rfl
@[simp] theorem MG_FCLK_STAT_MS_w : MG_FCLK_STAT_MS.w = 10 := id rfl
@[simp] theorem MG_FCLK_STAT_SYNC_a : MG_FCLK_STAT_SYNC.a = 0x1000009 := id rfl
@[simp] theorem MG_FCLK_STAT_SYNC_lo : MG_FCLK_STAT_SYNC.lo = 10 := id rfl
@[simp] theorem MG_FCLK_STAT_SYNC_w : MG_FCLK_STAT_SYNC.w = 1 := id rfl
@[simp] theorem MG_FB_HEAD_HEAD_a : MG_FB_HEAD_HEAD.a = 0x1000010 := id rfl
@[simp] theorem MG_FB_HEAD_HEAD_lo : MG_FB_HEAD_HEAD.lo = 0 := id rfl
@[simp] theorem MG_FB_HEAD_HEAD_w : MG_FB_HEAD_HEAD.w = 32 := id rfl
@[simp] theorem MG_FB_OLD_OLD_a : MG_FB_OLD_OLD.a = 0x1000011 := id rfl
@[simp] theorem MG_FB_OLD_OLD_lo : MG_FB_OLD_OLD.lo = 0 := id rfl
@[simp] theorem MG_FB_OLD_OLD_w : MG_FB_OLD_OLD.w = 32 := id rfl
@[simp] theorem MG_FB_STAT_LOST_a : MG_FB_STAT_LOST.a = 0x1000012 := id rfl
@[simp] theorem MG_FB_STAT_LOST_lo : MG_FB_STAT_LOST.lo = 0 := id rfl
@[simp] theorem MG_FB_STAT_LOST_w : MG_FB_STAT_LOST.w = 8 := id rfl
@[simp] theorem MG_FB_STAT_TORN_a : MG_FB_STAT_TORN.a = 0x1000012 := id rfl
@[simp] theorem MG_FB_STAT_TORN_lo : MG_FB_STAT_TORN.lo = 8 := id rfl
@[simp] theorem MG_FB_STAT_TORN_w : MG_FB_STAT_TORN.w = 8 := id rfl
@[simp] theorem MG_FB_STAT_WEAR_a : MG_FB_STAT_WEAR.a = 0x1000012 := id rfl
@[simp] theorem MG_FB_STAT_WEAR_lo : MG_FB_STAT_WEAR.lo = 16 := id rfl
@[simp] theorem MG_FB_STAT_WEAR_w : MG_FB_STAT_WEAR.w = 1 := id rfl
@[simp] theorem MG_FB_STAT_CLR_a : MG_FB_STAT_CLR.a = 0x1000012 := id rfl
@[simp] theorem MG_FB_STAT_CLR_lo : MG_FB_STAT_CLR.lo = 31 := id rfl
@[simp] theorem MG_FB_STAT_CLR_w : MG_FB_STAT_CLR.w = 1 := id rfl
@[simp] theorem MG_MW_CFG_FB_EN_a : MG_MW_CFG_FB_EN.a = 0x1000020 := id rfl
@[simp] theorem MG_MW_CFG_FB_EN_lo : MG_MW_CFG_FB_EN.lo = 0 := id rfl
@[simp] theorem MG_MW_CFG_FB_EN_w : MG_MW_CFG_FB_EN.w = 1 := id rfl
@[simp] theorem MG_MW_CFG_IDD_EN_a : MG_MW_CFG_IDD_EN.a = 0x1000020 := id rfl
@[simp] theorem MG_MW_CFG_IDD_EN_lo : MG_MW_CFG_IDD_EN.lo = 1 := id rfl
@[simp] theorem MG_MW_CFG_IDD_EN_w : MG_MW_CFG_IDD_EN.w = 1 := id rfl
@[simp] theorem MG_MW_CFG_PERIOD_a : MG_MW_CFG_PERIOD.a = 0x1000020 := id rfl
@[simp] theorem MG_MW_CFG_PERIOD_lo : MG_MW_CFG_PERIOD.lo = 8 := id rfl
@[simp] theorem MG_MW_CFG_PERIOD_w : MG_MW_CFG_PERIOD.w = 8 := id rfl
@[simp] theorem MG_MW_STAT_ROUNDS_a : MG_MW_STAT_ROUNDS.a = 0x1000021 := id rfl
@[simp] theorem MG_MW_STAT_ROUNDS_lo : MG_MW_STAT_ROUNDS.lo = 0 := id rfl
@[simp] theorem MG_MW_STAT_ROUNDS_w : MG_MW_STAT_ROUNDS.w = 8 := id rfl
@[simp] theorem MG_MW_STAT_SKIP_a : MG_MW_STAT_SKIP.a = 0x1000021 := id rfl
@[simp] theorem MG_MW_STAT_SKIP_lo : MG_MW_STAT_SKIP.lo = 8 := id rfl
@[simp] theorem MG_MW_STAT_SKIP_w : MG_MW_STAT_SKIP.w = 8 := id rfl
@[simp] theorem MG_MW_STAT_ABANDON_a : MG_MW_STAT_ABANDON.a = 0x1000021 := id rfl
@[simp] theorem MG_MW_STAT_ABANDON_lo : MG_MW_STAT_ABANDON.lo = 16 := id rfl
@[simp] theorem MG_MW_STAT_ABANDON_w : MG_MW_STAT_ABANDON.w = 8 := id rfl
@[simp] theorem MG_MW_STAT_CLR_a : MG_MW_STAT_CLR.a = 0x1000021 := id rfl
@[simp] theorem MG_MW_STAT_CLR_lo : MG_MW_STAT_CLR.lo = 31 := id rfl
@[simp] theorem MG_MW_STAT_CLR_w : MG_MW_STAT_CLR.w = 1 := id rfl
@[simp] theorem MG_MW_RES_R_2j_a (j : Nat) : (MG_MW_RES_R_2j j).a = 0x1000028 + j := id rfl
@[simp] theorem MG_MW_RES_R_2j_lo (j : Nat) : (MG_MW_RES_R_2j j).lo = 0 := id rfl
@[simp] theorem MG_MW_RES_R_2j_w (j : Nat) : (MG_MW_RES_R_2j j).w = 16 := id rfl
@[simp] theorem MG_MW_RES_R_2j1_a (j : Nat) : (MG_MW_RES_R_2j1 j).a = 0x1000028 + j := id rfl
@[simp] theorem MG_MW_RES_R_2j1_lo (j : Nat) : (MG_MW_RES_R_2j1 j).lo = 16 := id rfl
@[simp] theorem MG_MW_RES_R_2j1_w (j : Nat) : (MG_MW_RES_R_2j1 j).w = 16 := id rfl
@[simp] theorem MG_SEAL_CTL_ID_a : MG_SEAL_CTL_ID.a = 0x1000100 := id rfl
@[simp] theorem MG_SEAL_CTL_ID_lo : MG_SEAL_CTL_ID.lo = 0 := id rfl
@[simp] theorem MG_SEAL_CTL_ID_w : MG_SEAL_CTL_ID.w = 3 := id rfl
@[simp] theorem MG_SEAL_CTL_EXPECT_a : MG_SEAL_CTL_EXPECT.a = 0x1000100 := id rfl
@[simp] theorem MG_SEAL_CTL_EXPECT_lo : MG_SEAL_CTL_EXPECT.lo = 8 := id rfl
@[simp] theorem MG_SEAL_CTL_EXPECT_w : MG_SEAL_CTL_EXPECT.w = 5 := id rfl
@[simp] theorem MG_SEAL_CTL_GO_a : MG_SEAL_CTL_GO.a = 0x1000100 := id rfl
@[simp] theorem MG_SEAL_CTL_GO_lo : MG_SEAL_CTL_GO.lo = 16 := id rfl
@[simp] theorem MG_SEAL_CTL_GO_w : MG_SEAL_CTL_GO.w = 1 := id rfl
@[simp] theorem MG_SEAL_STAT_BUSY_a : MG_SEAL_STAT_BUSY.a = 0x1000101 := id rfl
@[simp] theorem MG_SEAL_STAT_BUSY_lo : MG_SEAL_STAT_BUSY.lo = 0 := id rfl
@[simp] theorem MG_SEAL_STAT_BUSY_w : MG_SEAL_STAT_BUSY.w = 1 := id rfl
@[simp] theorem MG_SEAL_STAT_RESULT_a : MG_SEAL_STAT_RESULT.a = 0x1000101 := id rfl
@[simp] theorem MG_SEAL_STAT_RESULT_lo : MG_SEAL_STAT_RESULT.lo = 1 := id rfl
@[simp] theorem MG_SEAL_STAT_RESULT_w : MG_SEAL_STAT_RESULT.w = 4 := id rfl
@[simp] theorem MG_SEAL_STAT_ID_LAST_a : MG_SEAL_STAT_ID_LAST.a = 0x1000101 := id rfl
@[simp] theorem MG_SEAL_STAT_ID_LAST_lo : MG_SEAL_STAT_ID_LAST.lo = 5 := id rfl
@[simp] theorem MG_SEAL_STAT_ID_LAST_w : MG_SEAL_STAT_ID_LAST.w = 3 := id rfl
@[simp] theorem MG_SEAL_VAL_VAL_a (w : Nat) : (MG_SEAL_VAL_VAL w).a = 0x1000108 + w := id rfl
@[simp] theorem MG_SEAL_VAL_VAL_lo (w : Nat) : (MG_SEAL_VAL_VAL w).lo = 0 := id rfl
@[simp] theorem MG_SEAL_VAL_VAL_w (w : Nat) : (MG_SEAL_VAL_VAL w).w = 32 := id rfl
@[simp] theorem MG_SEAL_SLOT_REMAIN_a (k : Nat) : (MG_SEAL_SLOT_REMAIN k).a = 0x1000110 + k := id rfl
@[simp] theorem MG_SEAL_SLOT_REMAIN_lo (k : Nat) : (MG_SEAL_SLOT_REMAIN k).lo = 0 := id rfl
@[simp] theorem MG_SEAL_SLOT_REMAIN_w (k : Nat) : (MG_SEAL_SLOT_REMAIN k).w = 5 := id rfl
@[simp] theorem MG_SEAL_SLOT_INFORCE_a (k : Nat) : (MG_SEAL_SLOT_INFORCE k).a = 0x1000110 + k := id rfl
@[simp] theorem MG_SEAL_SLOT_INFORCE_lo (k : Nat) : (MG_SEAL_SLOT_INFORCE k).lo = 8 := id rfl
@[simp] theorem MG_SEAL_SLOT_INFORCE_w (k : Nat) : (MG_SEAL_SLOT_INFORCE k).w = 4 := id rfl
@[simp] theorem MG_SEAL_SLOT_NONE_a (k : Nat) : (MG_SEAL_SLOT_NONE k).a = 0x1000110 + k := id rfl
@[simp] theorem MG_SEAL_SLOT_NONE_lo (k : Nat) : (MG_SEAL_SLOT_NONE k).lo = 12 := id rfl
@[simp] theorem MG_SEAL_SLOT_NONE_w (k : Nat) : (MG_SEAL_SLOT_NONE k).w = 1 := id rfl
@[simp] theorem MG_SEAL_SLOT_RESET_DUE_a (k : Nat) : (MG_SEAL_SLOT_RESET_DUE k).a = 0x1000110 + k := id rfl
@[simp] theorem MG_SEAL_SLOT_RESET_DUE_lo (k : Nat) : (MG_SEAL_SLOT_RESET_DUE k).lo = 13 := id rfl
@[simp] theorem MG_SEAL_SLOT_RESET_DUE_w (k : Nat) : (MG_SEAL_SLOT_RESET_DUE k).w = 1 := id rfl
@[simp] theorem MG_SEAL_CUR_CUR_a (k w : Nat) : (MG_SEAL_CUR_CUR k w).a = 0x1000140 + 8 * k + w := id rfl
@[simp] theorem MG_SEAL_CUR_CUR_lo (k w : Nat) : (MG_SEAL_CUR_CUR k w).lo = 0 := id rfl
@[simp] theorem MG_SEAL_CUR_CUR_w (k w : Nat) : (MG_SEAL_CUR_CUR k w).w = 32 := id rfl
@[simp] theorem MG_UPD_CTL_OP_a : MG_UPD_CTL_OP.a = 0x1000200 := id rfl
@[simp] theorem MG_UPD_CTL_OP_lo : MG_UPD_CTL_OP.lo = 0 := id rfl
@[simp] theorem MG_UPD_CTL_OP_w : MG_UPD_CTL_OP.w = 3 := id rfl
@[simp] theorem MG_UPD_CTL_TARGET_a : MG_UPD_CTL_TARGET.a = 0x1000200 := id rfl
@[simp] theorem MG_UPD_CTL_TARGET_lo : MG_UPD_CTL_TARGET.lo = 4 := id rfl
@[simp] theorem MG_UPD_CTL_TARGET_w : MG_UPD_CTL_TARGET.w = 1 := id rfl
@[simp] theorem MG_UPD_CTL_SLOT_a : MG_UPD_CTL_SLOT.a = 0x1000200 := id rfl
@[simp] theorem MG_UPD_CTL_SLOT_lo : MG_UPD_CTL_SLOT.lo = 5 := id rfl
@[simp] theorem MG_UPD_CTL_SLOT_w : MG_UPD_CTL_SLOT.w = 1 := id rfl
@[simp] theorem MG_UPD_CTL_GO_a : MG_UPD_CTL_GO.a = 0x1000200 := id rfl
@[simp] theorem MG_UPD_CTL_GO_lo : MG_UPD_CTL_GO.lo = 16 := id rfl
@[simp] theorem MG_UPD_CTL_GO_w : MG_UPD_CTL_GO.w = 1 := id rfl
@[simp] theorem MG_UPD_OFS_OFS_a : MG_UPD_OFS_OFS.a = 0x1000201 := id rfl
@[simp] theorem MG_UPD_OFS_OFS_lo : MG_UPD_OFS_OFS.lo = 0 := id rfl
@[simp] theorem MG_UPD_OFS_OFS_w : MG_UPD_OFS_OFS.w = 21 := id rfl
@[simp] theorem MG_UPD_LEN_LEN_a : MG_UPD_LEN_LEN.a = 0x1000202 := id rfl
@[simp] theorem MG_UPD_LEN_LEN_lo : MG_UPD_LEN_LEN.lo = 0 := id rfl
@[simp] theorem MG_UPD_LEN_LEN_w : MG_UPD_LEN_LEN.w = 13 := id rfl
@[simp] theorem MG_UPD_CRC_CRC_a : MG_UPD_CRC_CRC.a = 0x1000203 := id rfl
@[simp] theorem MG_UPD_CRC_CRC_lo : MG_UPD_CRC_CRC.lo = 0 := id rfl
@[simp] theorem MG_UPD_CRC_CRC_w : MG_UPD_CRC_CRC.w = 32 := id rfl
@[simp] theorem MG_UPD_STAT_BUSY_a : MG_UPD_STAT_BUSY.a = 0x1000204 := id rfl
@[simp] theorem MG_UPD_STAT_BUSY_lo : MG_UPD_STAT_BUSY.lo = 0 := id rfl
@[simp] theorem MG_UPD_STAT_BUSY_w : MG_UPD_STAT_BUSY.w = 1 := id rfl
@[simp] theorem MG_UPD_STAT_STATE_a : MG_UPD_STAT_STATE.a = 0x1000204 := id rfl
@[simp] theorem MG_UPD_STAT_STATE_lo : MG_UPD_STAT_STATE.lo = 1 := id rfl
@[simp] theorem MG_UPD_STAT_STATE_w : MG_UPD_STAT_STATE.w = 2 := id rfl
@[simp] theorem MG_UPD_STAT_TGT_ACT_a : MG_UPD_STAT_TGT_ACT.a = 0x1000204 := id rfl
@[simp] theorem MG_UPD_STAT_TGT_ACT_lo : MG_UPD_STAT_TGT_ACT.lo = 3 := id rfl
@[simp] theorem MG_UPD_STAT_TGT_ACT_w : MG_UPD_STAT_TGT_ACT.w = 1 := id rfl
@[simp] theorem MG_UPD_STAT_RESULT_a : MG_UPD_STAT_RESULT.a = 0x1000204 := id rfl
@[simp] theorem MG_UPD_STAT_RESULT_lo : MG_UPD_STAT_RESULT.lo = 4 := id rfl
@[simp] theorem MG_UPD_STAT_RESULT_w : MG_UPD_STAT_RESULT.w = 4 := id rfl
@[simp] theorem MG_UPD_STAT_STAGED_a : MG_UPD_STAT_STAGED.a = 0x1000204 := id rfl
@[simp] theorem MG_UPD_STAT_STAGED_lo : MG_UPD_STAT_STAGED.lo = 8 := id rfl
@[simp] theorem MG_UPD_STAT_STAGED_w : MG_UPD_STAT_STAGED.w = 1 := id rfl
@[simp] theorem MG_UPD_STAT_DEST_a : MG_UPD_STAT_DEST.a = 0x1000204 := id rfl
@[simp] theorem MG_UPD_STAT_DEST_lo : MG_UPD_STAT_DEST.lo = 9 := id rfl
@[simp] theorem MG_UPD_STAT_DEST_w : MG_UPD_STAT_DEST.w = 1 := id rfl
@[simp] theorem MG_UPD_NEXT_NEXT_a : MG_UPD_NEXT_NEXT.a = 0x1000205 := id rfl
@[simp] theorem MG_UPD_NEXT_NEXT_lo : MG_UPD_NEXT_NEXT.lo = 0 := id rfl
@[simp] theorem MG_UPD_NEXT_NEXT_w : MG_UPD_NEXT_NEXT.w = 22 := id rfl
@[simp] theorem MG_UPD_FW_VERSION_a (x : Nat) : (MG_UPD_FW_VERSION x).a = 0x1000210 + x := id rfl
@[simp] theorem MG_UPD_FW_VERSION_lo (x : Nat) : (MG_UPD_FW_VERSION x).lo = 0 := id rfl
@[simp] theorem MG_UPD_FW_VERSION_w (x : Nat) : (MG_UPD_FW_VERSION x).w = 24 := id rfl
@[simp] theorem MG_UPD_FW_STATE_a (x : Nat) : (MG_UPD_FW_STATE x).a = 0x1000210 + x := id rfl
@[simp] theorem MG_UPD_FW_STATE_lo (x : Nat) : (MG_UPD_FW_STATE x).lo = 24 := id rfl
@[simp] theorem MG_UPD_FW_STATE_w (x : Nat) : (MG_UPD_FW_STATE x).w = 2 := id rfl
@[simp] theorem MG_UPD_FW_LAST_a (x : Nat) : (MG_UPD_FW_LAST x).a = 0x1000210 + x := id rfl
@[simp] theorem MG_UPD_FW_LAST_lo (x : Nat) : (MG_UPD_FW_LAST x).lo = 26 := id rfl
@[simp] theorem MG_UPD_FW_LAST_w (x : Nat) : (MG_UPD_FW_LAST x).w = 1 := id rfl
@[simp] theorem MG_UPD_FWSEQ_SEQ_a (x : Nat) : (MG_UPD_FWSEQ_SEQ x).a = 0x1000212 + x := id rfl
@[simp] theorem MG_UPD_FWSEQ_SEQ_lo (x : Nat) : (MG_UPD_FWSEQ_SEQ x).lo = 0 := id rfl
@[simp] theorem MG_UPD_FWSEQ_SEQ_w (x : Nat) : (MG_UPD_FWSEQ_SEQ x).w = 32 := id rfl
@[simp] theorem MG_UPD_IMG_SEQ_a (x : Nat) : (MG_UPD_IMG_SEQ x).a = 0x1000218 + x := id rfl
@[simp] theorem MG_UPD_IMG_SEQ_lo (x : Nat) : (MG_UPD_IMG_SEQ x).lo = 0 := id rfl
@[simp] theorem MG_UPD_IMG_SEQ_w (x : Nat) : (MG_UPD_IMG_SEQ x).w = 32 := id rfl
@[simp] theorem MG_UPD_IMGST_PRESENT_a : MG_UPD_IMGST_PRESENT.a = 0x100021a := id rfl
@[simp] theorem MG_UPD_IMGST_PRESENT_lo : MG_UPD_IMGST_PRESENT.lo = 0 := id rfl
@[simp] theorem MG_UPD_IMGST_PRESENT_w : MG_UPD_IMGST_PRESENT.w = 2 := id rfl
@[simp] theorem MG_UPD_IMGST_REVOKED_a : MG_UPD_IMGST_REVOKED.a = 0x100021a := id rfl
@[simp] theorem MG_UPD_IMGST_REVOKED_lo : MG_UPD_IMGST_REVOKED.lo = 2 := id rfl
@[simp] theorem MG_UPD_IMGST_REVOKED_w : MG_UPD_IMGST_REVOKED.w = 2 := id rfl
@[simp] theorem MG_UPD_IMGST_TRIAL_a : MG_UPD_IMGST_TRIAL.a = 0x100021a := id rfl
@[simp] theorem MG_UPD_IMGST_TRIAL_lo : MG_UPD_IMGST_TRIAL.lo = 4 := id rfl
@[simp] theorem MG_UPD_IMGST_TRIAL_w : MG_UPD_IMGST_TRIAL.w = 1 := id rfl
@[simp] theorem MG_UPD_IMGST_TRIAL_SLOT_a : MG_UPD_IMGST_TRIAL_SLOT.a = 0x100021a := id rfl
@[simp] theorem MG_UPD_IMGST_TRIAL_SLOT_lo : MG_UPD_IMGST_TRIAL_SLOT.lo = 5 := id rfl
@[simp] theorem MG_UPD_IMGST_TRIAL_SLOT_w : MG_UPD_IMGST_TRIAL_SLOT.w = 1 := id rfl
@[simp] theorem MG_NVM_CNT_CORR_a : MG_NVM_CNT_CORR.a = 0x1000300 := id rfl
@[simp] theorem MG_NVM_CNT_CORR_lo : MG_NVM_CNT_CORR.lo = 0 := id rfl
@[simp] theorem MG_NVM_CNT_CORR_w : MG_NVM_CNT_CORR.w = 16 := id rfl
@[simp] theorem MG_NVM_CNT_PFAIL_a : MG_NVM_CNT_PFAIL.a = 0x1000300 := id rfl
@[simp] theorem MG_NVM_CNT_PFAIL_lo : MG_NVM_CNT_PFAIL.lo = 16 := id rfl
@[simp] theorem MG_NVM_CNT_PFAIL_w : MG_NVM_CNT_PFAIL.w = 8 := id rfl
@[simp] theorem MG_NVM_CNT_EFAIL_a : MG_NVM_CNT_EFAIL.a = 0x1000300 := id rfl
@[simp] theorem MG_NVM_CNT_EFAIL_lo : MG_NVM_CNT_EFAIL.lo = 24 := id rfl
@[simp] theorem MG_NVM_CNT_EFAIL_w : MG_NVM_CNT_EFAIL.w = 8 := id rfl
@[simp] theorem MG_FB_WEAR_ERASES_a (k : Nat) : (MG_FB_WEAR_ERASES k).a = 0x1000340 + k := id rfl
@[simp] theorem MG_FB_WEAR_ERASES_lo (k : Nat) : (MG_FB_WEAR_ERASES k).lo = 0 := id rfl
@[simp] theorem MG_FB_WEAR_ERASES_w (k : Nat) : (MG_FB_WEAR_ERASES k).w = 17 := id rfl
@[simp] theorem DEV_EVRT_REC_a (m : Nat) : (DEV_EVRT_REC m).a = 0x20c + 0x10 * m := id rfl
@[simp] theorem DEV_EVRT_REC_lo (m : Nat) : (DEV_EVRT_REC m).lo = 0 := id rfl
@[simp] theorem DEV_EVRT_REC_w (m : Nat) : (DEV_EVRT_REC m).w = 8 := id rfl
@[simp] theorem DEV_EVRT_IRQ0_a (m : Nat) : (DEV_EVRT_IRQ0 m).a = 0x20c + 0x10 * m := id rfl
@[simp] theorem DEV_EVRT_IRQ0_lo (m : Nat) : (DEV_EVRT_IRQ0 m).lo = 8 := id rfl
@[simp] theorem DEV_EVRT_IRQ0_w (m : Nat) : (DEV_EVRT_IRQ0 m).w = 8 := id rfl
@[simp] theorem DEV_EVRT_IRQ1_a (m : Nat) : (DEV_EVRT_IRQ1 m).a = 0x20c + 0x10 * m := id rfl
@[simp] theorem DEV_EVRT_IRQ1_lo (m : Nat) : (DEV_EVRT_IRQ1 m).lo = 16 := id rfl
@[simp] theorem DEV_EVRT_IRQ1_w (m : Nat) : (DEV_EVRT_IRQ1 m).w = 8 := id rfl
@[simp] theorem DEV_EVCAP_CAP_a (m i : Nat) : (DEV_EVCAP_CAP m i).a = 0x20d + 0x10 * m := id rfl
@[simp] theorem DEV_EVCAP_CAP_lo (m i : Nat) : (DEV_EVCAP_CAP m i).lo = 2 * i := id rfl
@[simp] theorem DEV_EVCAP_CAP_w (m i : Nat) : (DEV_EVCAP_CAP m i).w = 2 := id rfl
@[simp] theorem DEV_EVST_PEND_a (m : Nat) : (DEV_EVST_PEND m).a = 0x20e + 0x10 * m := id rfl
@[simp] theorem DEV_EVST_PEND_lo (m : Nat) : (DEV_EVST_PEND m).lo = 0 := id rfl
@[simp] theorem DEV_EVST_PEND_w (m : Nat) : (DEV_EVST_PEND m).w = 8 := id rfl
@[simp] theorem DEV_EVST_ACTIVE_a (m : Nat) : (DEV_EVST_ACTIVE m).a = 0x20e + 0x10 * m := id rfl
@[simp] theorem DEV_EVST_ACTIVE_lo (m : Nat) : (DEV_EVST_ACTIVE m).lo = 8 := id rfl
@[simp] theorem DEV_EVST_ACTIVE_w (m : Nat) : (DEV_EVST_ACTIVE m).w = 8 := id rfl
@[simp] theorem DEV_EVST_ACK_a (m : Nat) : (DEV_EVST_ACK m).a = 0x20e + 0x10 * m := id rfl
@[simp] theorem DEV_EVST_ACK_lo (m : Nat) : (DEV_EVST_ACK m).lo = 16 := id rfl
@[simp] theorem DEV_EVST_ACK_w (m : Nat) : (DEV_EVST_ACK m).w = 8 := id rfl
@[simp] theorem DEV_EVST_SIM_a (m : Nat) : (DEV_EVST_SIM m).a = 0x20e + 0x10 * m := id rfl
@[simp] theorem DEV_EVST_SIM_lo (m : Nat) : (DEV_EVST_SIM m).lo = 24 := id rfl
@[simp] theorem DEV_EVST_SIM_w (m : Nat) : (DEV_EVST_SIM m).w = 8 := id rfl
@[simp] theorem DEV_EVCNT_CNT_a (m i : Nat) : (DEV_EVCNT_CNT m i).a = 0x20f + 0x10 * m := id rfl
@[simp] theorem DEV_EVCNT_CNT_lo (m i : Nat) : (DEV_EVCNT_CNT m i).lo = 4 * i := id rfl
@[simp] theorem DEV_EVCNT_CNT_w (m i : Nat) : (DEV_EVCNT_CNT m i).w = 4 := id rfl
@[simp] theorem DEV_RW_LNK_SEQ_ACC_HSEQ_a : DEV_RW_LNK_SEQ_ACC_HSEQ.a = 0x34 := id rfl
@[simp] theorem DEV_RW_LNK_SEQ_ACC_HSEQ_lo : DEV_RW_LNK_SEQ_ACC_HSEQ.lo = 0 := id rfl
@[simp] theorem DEV_RW_LNK_SEQ_ACC_HSEQ_w : DEV_RW_LNK_SEQ_ACC_HSEQ.w = 16 := id rfl
@[simp] theorem DEV_RW_LNK_SEQ_PERF_HSEQ_a : DEV_RW_LNK_SEQ_PERF_HSEQ.a = 0x34 := id rfl
@[simp] theorem DEV_RW_LNK_SEQ_PERF_HSEQ_lo : DEV_RW_LNK_SEQ_PERF_HSEQ.lo = 16 := id rfl
@[simp] theorem DEV_RW_LNK_SEQ_PERF_HSEQ_w : DEV_RW_LNK_SEQ_PERF_HSEQ.w = 16 := id rfl
@[simp] theorem DEV_RW_LNK_WR_WR_HSEQ_a : DEV_RW_LNK_WR_WR_HSEQ.a = 0x35 := id rfl
@[simp] theorem DEV_RW_LNK_WR_WR_HSEQ_lo : DEV_RW_LNK_WR_WR_HSEQ.lo = 0 := id rfl
@[simp] theorem DEV_RW_LNK_WR_WR_HSEQ_w : DEV_RW_LNK_WR_WR_HSEQ.w = 16 := id rfl
@[simp] theorem DEV_RW_LNK_WR_WR_ADDR_a : DEV_RW_LNK_WR_WR_ADDR.a = 0x35 := id rfl
@[simp] theorem DEV_RW_LNK_WR_WR_ADDR_lo : DEV_RW_LNK_WR_WR_ADDR.lo = 16 := id rfl
@[simp] theorem DEV_RW_LNK_WR_WR_ADDR_w : DEV_RW_LNK_WR_WR_ADDR.w = 16 := id rfl
@[simp] theorem DEV_RW_LNK_RPL_DSEQ_a : DEV_RW_LNK_RPL_DSEQ.a = 0x36 := id rfl
@[simp] theorem DEV_RW_LNK_RPL_DSEQ_lo : DEV_RW_LNK_RPL_DSEQ.lo = 0 := id rfl
@[simp] theorem DEV_RW_LNK_RPL_DSEQ_w : DEV_RW_LNK_RPL_DSEQ.w = 16 := id rfl
@[simp] theorem DEV_RW_LNK_RPL_EXP_ALIVE_a : DEV_RW_LNK_RPL_EXP_ALIVE.a = 0x36 := id rfl
@[simp] theorem DEV_RW_LNK_RPL_EXP_ALIVE_lo : DEV_RW_LNK_RPL_EXP_ALIVE.lo = 16 := id rfl
@[simp] theorem DEV_RW_LNK_RPL_EXP_ALIVE_w : DEV_RW_LNK_RPL_EXP_ALIVE.w = 4 := id rfl
@[simp] theorem DEV_RW_LNK_RPL_ACC_ANY_a : DEV_RW_LNK_RPL_ACC_ANY.a = 0x36 := id rfl
@[simp] theorem DEV_RW_LNK_RPL_ACC_ANY_lo : DEV_RW_LNK_RPL_ACC_ANY.lo = 20 := id rfl
@[simp] theorem DEV_RW_LNK_RPL_ACC_ANY_w : DEV_RW_LNK_RPL_ACC_ANY.w = 1 := id rfl

end Sys2Proof.Machine
end

