-- ==== Sys2Proof/Laws/State.lean ====
section
/-!
SUPPORT. What each named update of the state leaves in each field: one lemma per field per update, so that no later proof
unfolds a record update; and the readings that the updates of other parts leave alone.
-/

namespace Sys2Proof.Machine

variable (s : State)

/-! ## Every writing of a field is `put` -/

@[simp] theorem State.putI_eq (f : Fld) (v : Int) : s.putI f v = s.put f (pat f.w v) := rfl
@[simp] theorem State.putB_eq (f : Fld) (b : Bool) : s.putB f b = s.put f (b2n b) := rfl
@[simp] theorem State.addSat_eq (f : Fld) (k : Nat) : s.addSat f k = s.put f (satU f.w (s.g f + k)) := rfl
@[simp] theorem State.inc_eq (f : Fld) : s.inc f = s.put f (satU f.w (s.g f + 1)) := rfl
@[simp] theorem State.maxPut_eq (f : Fld) (v : Nat) : s.maxPut f v = s.put f (satU f.w (max (s.g f) v)) := rfl
@[simp] theorem State.putBit_eq (f : Fld) (i : Nat) (b : Bool) : s.putBit f i b = s.put f (setBits (s.g f) i 1 (b2n b)) := rfl
@[simp] theorem State.dpt_eq (n : Fin 8) (f : DatumSt → DatumSt) : s.dpt n f = s.ax n fun a => { a with dp := f a.dp } := rfl
@[simp] theorem State.ob_eq (n : Fin 8) (f : ObsSt → ObsSt) : s.ob n f = s.ax n fun a => { a with obs := f a.obs } := rfl
@[simp] theorem State.svu_eq (x : Fin 2) (f : SurveySt → SurveySt) : s.svu x f = s.stn x fun y => { y with sv := f y.sv } := rfl

/-! ## Fields -/

/-! ### `setWord` -/

@[simp] theorem State.setWord_pending (a : Nat) (w : Word) : (s.setWord a w).pending = s.pending := rfl
@[simp] theorem State.setWord_now (a : Nat) (w : Word) : (s.setWord a w).now = s.now := rfl
@[simp] theorem State.setWord_dev (a : Nat) (w : Word) : (s.setWord a w).dev = s.dev := rfl
@[simp] theorem State.setWord_regs (a : Nat) (w : Word) : (s.setWord a w).regs = kvSet s.regs a w (resetWord a) := rfl
@[simp] theorem State.setWord_staged (a : Nat) (w : Word) : (s.setWord a w).staged = s.staged := rfl
@[simp] theorem State.setWord_groups (a : Nat) (w : Word) : (s.setWord a w).groups = s.groups := rfl
@[simp] theorem State.setWord_links (a : Nat) (w : Word) : (s.setWord a w).links = s.links := rfl
@[simp] theorem State.setWord_grelas (a : Nat) (w : Word) : (s.setWord a w).grelas = s.grelas := rfl
@[simp] theorem State.setWord_mbox (a : Nat) (w : Word) : (s.setWord a w).mbox = s.mbox := rfl
@[simp] theorem State.setWord_indQ (a : Nat) (w : Word) : (s.setWord a w).indQ = s.indQ := rfl
@[simp] theorem State.setWord_window (a : Nat) (w : Word) : (s.setWord a w).window = s.window := rfl
@[simp] theorem State.setWord_cmds (a : Nat) (w : Word) : (s.setWord a w).cmds = s.cmds := rfl
@[simp] theorem State.setWord_nextId (a : Nat) (w : Word) : (s.setWord a w).nextId = s.nextId := rfl
@[simp] theorem State.setWord_lastEnd (a : Nat) (w : Word) : (s.setWord a w).lastEnd = s.lastEnd := rfl
@[simp] theorem State.setWord_backlog (a : Nat) (w : Word) : (s.setWord a w).backlog = s.backlog := rfl
@[simp] theorem State.setWord_rings (a : Nat) (w : Word) : (s.setWord a w).rings = s.rings := rfl
@[simp] theorem State.setWord_evq (a : Nat) (w : Word) : (s.setWord a w).evq = s.evq := rfl
@[simp] theorem State.setWord_evLost (a : Nat) (w : Word) : (s.setWord a w).evLost = s.evLost := rfl
@[simp] theorem State.setWord_levels (a : Nat) (w : Word) : (s.setWord a w).levels = s.levels := rfl
@[simp] theorem State.setWord_cap (a : Nat) (w : Word) : (s.setWord a w).cap = s.cap := rfl
@[simp] theorem State.setWord_tick (a : Nat) (w : Word) : (s.setWord a w).tick = s.tick := rfl
@[simp] theorem State.setWord_arb (a : Nat) (w : Word) : (s.setWord a w).arb = s.arb := rfl
@[simp] theorem State.setWord_ecc (a : Nat) (w : Word) : (s.setWord a w).ecc = s.ecc := rfl
@[simp] theorem State.setWord_axes (a : Nat) (w : Word) : (s.setWord a w).axes = s.axes := rfl
@[simp] theorem State.setWord_coils (a : Nat) (w : Word) : (s.setWord a w).coils = s.coils := rfl
@[simp] theorem State.setWord_stations (a : Nat) (w : Word) : (s.setWord a w).stations = s.stations := rfl
@[simp] theorem State.setWord_ctxs (a : Nat) (w : Word) : (s.setWord a w).ctxs = s.ctxs := rfl
@[simp] theorem State.setWord_store (a : Nat) (w : Word) : (s.setWord a w).store = s.store := rfl
@[simp] theorem State.setWord_chain (a : Nat) (w : Word) : (s.setWord a w).chain = s.chain := rfl
@[simp] theorem State.setWord_chainOut (a : Nat) (w : Word) : (s.setWord a w).chainOut = s.chainOut := rfl
@[simp] theorem State.setWord_chainRst (a : Nat) (w : Word) : (s.setWord a w).chainRst = s.chainRst := rfl
@[simp] theorem State.setWord_chainRej (a : Nat) (w : Word) : (s.setWord a w).chainRej = s.chainRej := rfl
@[simp] theorem State.setWord_chainReach (a : Nat) (w : Word) : (s.setWord a w).chainReach = s.chainReach := rfl
@[simp] theorem State.setWord_chainStall (a : Nat) (w : Word) : (s.setWord a w).chainStall = s.chainStall := rfl
@[simp] theorem State.setWord_chainMode (a : Nat) (w : Word) : (s.setWord a w).chainMode = s.chainMode := rfl
@[simp] theorem State.setWord_boot (a : Nat) (w : Word) : (s.setWord a w).boot = s.boot := rfl
@[simp] theorem State.setWord_power (a : Nat) (w : Word) : (s.setWord a w).power = s.power := rfl
@[simp] theorem State.setWord_surv (a : Nat) (w : Word) : (s.setWord a w).surv = s.surv := rfl
@[simp] theorem State.setWord_nvm (a : Nat) (w : Word) : (s.setWord a w).nvm = s.nvm := rfl
@[simp] theorem State.setWord_otp (a : Nat) (w : Word) : (s.setWord a w).otp = s.otp := rfl
@[simp] theorem State.setWord_flash (a : Nat) (w : Word) : (s.setWord a w).flash = s.flash := rfl
@[simp] theorem State.setWord_free (a : Nat) (w : Word) : (s.setWord a w).free = s.free := rfl
@[simp] theorem State.setWord_cyc (a : Nat) (w : Word) : (s.setWord a w).cyc = s.cyc := rfl

/-! ### `put` -/

@[simp] theorem State.put_pending (f : Fld) (v : Nat) : (s.put f v).pending = s.pending := rfl
@[simp] theorem State.put_now (f : Fld) (v : Nat) : (s.put f v).now = s.now := rfl
@[simp] theorem State.put_dev (f : Fld) (v : Nat) : (s.put f v).dev = s.dev := rfl
@[simp] theorem State.put_staged (f : Fld) (v : Nat) : (s.put f v).staged = s.staged := rfl
@[simp] theorem State.put_groups (f : Fld) (v : Nat) : (s.put f v).groups = s.groups := rfl
@[simp] theorem State.put_links (f : Fld) (v : Nat) : (s.put f v).links = s.links := rfl
@[simp] theorem State.put_grelas (f : Fld) (v : Nat) : (s.put f v).grelas = s.grelas := rfl
@[simp] theorem State.put_mbox (f : Fld) (v : Nat) : (s.put f v).mbox = s.mbox := rfl
@[simp] theorem State.put_indQ (f : Fld) (v : Nat) : (s.put f v).indQ = s.indQ := rfl
@[simp] theorem State.put_window (f : Fld) (v : Nat) : (s.put f v).window = s.window := rfl
@[simp] theorem State.put_cmds (f : Fld) (v : Nat) : (s.put f v).cmds = s.cmds := rfl
@[simp] theorem State.put_nextId (f : Fld) (v : Nat) : (s.put f v).nextId = s.nextId := rfl
@[simp] theorem State.put_lastEnd (f : Fld) (v : Nat) : (s.put f v).lastEnd = s.lastEnd := rfl
@[simp] theorem State.put_backlog (f : Fld) (v : Nat) : (s.put f v).backlog = s.backlog := rfl
@[simp] theorem State.put_rings (f : Fld) (v : Nat) : (s.put f v).rings = s.rings := rfl
@[simp] theorem State.put_evq (f : Fld) (v : Nat) : (s.put f v).evq = s.evq := rfl
@[simp] theorem State.put_evLost (f : Fld) (v : Nat) : (s.put f v).evLost = s.evLost := rfl
@[simp] theorem State.put_levels (f : Fld) (v : Nat) : (s.put f v).levels = s.levels := rfl
@[simp] theorem State.put_cap (f : Fld) (v : Nat) : (s.put f v).cap = s.cap := rfl
@[simp] theorem State.put_tick (f : Fld) (v : Nat) : (s.put f v).tick = s.tick := rfl
@[simp] theorem State.put_arb (f : Fld) (v : Nat) : (s.put f v).arb = s.arb := rfl
@[simp] theorem State.put_ecc (f : Fld) (v : Nat) : (s.put f v).ecc = s.ecc := rfl
@[simp] theorem State.put_axes (f : Fld) (v : Nat) : (s.put f v).axes = s.axes := rfl
@[simp] theorem State.put_coils (f : Fld) (v : Nat) : (s.put f v).coils = s.coils := rfl
@[simp] theorem State.put_stations (f : Fld) (v : Nat) : (s.put f v).stations = s.stations := rfl
@[simp] theorem State.put_ctxs (f : Fld) (v : Nat) : (s.put f v).ctxs = s.ctxs := rfl
@[simp] theorem State.put_store (f : Fld) (v : Nat) : (s.put f v).store = s.store := rfl
@[simp] theorem State.put_chain (f : Fld) (v : Nat) : (s.put f v).chain = s.chain := rfl
@[simp] theorem State.put_chainOut (f : Fld) (v : Nat) : (s.put f v).chainOut = s.chainOut := rfl
@[simp] theorem State.put_chainRst (f : Fld) (v : Nat) : (s.put f v).chainRst = s.chainRst := rfl
@[simp] theorem State.put_chainRej (f : Fld) (v : Nat) : (s.put f v).chainRej = s.chainRej := rfl
@[simp] theorem State.put_chainReach (f : Fld) (v : Nat) : (s.put f v).chainReach = s.chainReach := rfl
@[simp] theorem State.put_chainStall (f : Fld) (v : Nat) : (s.put f v).chainStall = s.chainStall := rfl
@[simp] theorem State.put_chainMode (f : Fld) (v : Nat) : (s.put f v).chainMode = s.chainMode := rfl
@[simp] theorem State.put_boot (f : Fld) (v : Nat) : (s.put f v).boot = s.boot := rfl
@[simp] theorem State.put_power (f : Fld) (v : Nat) : (s.put f v).power = s.power := rfl
@[simp] theorem State.put_surv (f : Fld) (v : Nat) : (s.put f v).surv = s.surv := rfl
@[simp] theorem State.put_nvm (f : Fld) (v : Nat) : (s.put f v).nvm = s.nvm := rfl
@[simp] theorem State.put_otp (f : Fld) (v : Nat) : (s.put f v).otp = s.otp := rfl
@[simp] theorem State.put_flash (f : Fld) (v : Nat) : (s.put f v).flash = s.flash := rfl
@[simp] theorem State.put_free (f : Fld) (v : Nat) : (s.put f v).free = s.free := rfl
@[simp] theorem State.put_cyc (f : Fld) (v : Nat) : (s.put f v).cyc = s.cyc := rfl

/-! ### `setStaged` -/

@[simp] theorem State.setStaged_pending (a : Nat) (w : Word) : (s.setStaged a w).pending = s.pending := rfl
@[simp] theorem State.setStaged_now (a : Nat) (w : Word) : (s.setStaged a w).now = s.now := rfl
@[simp] theorem State.setStaged_dev (a : Nat) (w : Word) : (s.setStaged a w).dev = s.dev := rfl
@[simp] theorem State.setStaged_regs (a : Nat) (w : Word) : (s.setStaged a w).regs = s.regs := rfl
@[simp] theorem State.setStaged_staged (a : Nat) (w : Word) : (s.setStaged a w).staged = kvSet s.staged a w (resetWord a) := rfl
@[simp] theorem State.setStaged_groups (a : Nat) (w : Word) : (s.setStaged a w).groups = s.groups := rfl
@[simp] theorem State.setStaged_links (a : Nat) (w : Word) : (s.setStaged a w).links = s.links := rfl
@[simp] theorem State.setStaged_grelas (a : Nat) (w : Word) : (s.setStaged a w).grelas = s.grelas := rfl
@[simp] theorem State.setStaged_mbox (a : Nat) (w : Word) : (s.setStaged a w).mbox = s.mbox := rfl
@[simp] theorem State.setStaged_indQ (a : Nat) (w : Word) : (s.setStaged a w).indQ = s.indQ := rfl
@[simp] theorem State.setStaged_window (a : Nat) (w : Word) : (s.setStaged a w).window = s.window := rfl
@[simp] theorem State.setStaged_cmds (a : Nat) (w : Word) : (s.setStaged a w).cmds = s.cmds := rfl
@[simp] theorem State.setStaged_nextId (a : Nat) (w : Word) : (s.setStaged a w).nextId = s.nextId := rfl
@[simp] theorem State.setStaged_lastEnd (a : Nat) (w : Word) : (s.setStaged a w).lastEnd = s.lastEnd := rfl
@[simp] theorem State.setStaged_backlog (a : Nat) (w : Word) : (s.setStaged a w).backlog = s.backlog := rfl
@[simp] theorem State.setStaged_rings (a : Nat) (w : Word) : (s.setStaged a w).rings = s.rings := rfl
@[simp] theorem State.setStaged_evq (a : Nat) (w : Word) : (s.setStaged a w).evq = s.evq := rfl
@[simp] theorem State.setStaged_evLost (a : Nat) (w : Word) : (s.setStaged a w).evLost = s.evLost := rfl
@[simp] theorem State.setStaged_levels (a : Nat) (w : Word) : (s.setStaged a w).levels = s.levels := rfl
@[simp] theorem State.setStaged_cap (a : Nat) (w : Word) : (s.setStaged a w).cap = s.cap := rfl
@[simp] theorem State.setStaged_tick (a : Nat) (w : Word) : (s.setStaged a w).tick = s.tick := rfl
@[simp] theorem State.setStaged_arb (a : Nat) (w : Word) : (s.setStaged a w).arb = s.arb := rfl
@[simp] theorem State.setStaged_ecc (a : Nat) (w : Word) : (s.setStaged a w).ecc = s.ecc := rfl
@[simp] theorem State.setStaged_axes (a : Nat) (w : Word) : (s.setStaged a w).axes = s.axes := rfl
@[simp] theorem State.setStaged_coils (a : Nat) (w : Word) : (s.setStaged a w).coils = s.coils := rfl
@[simp] theorem State.setStaged_stations (a : Nat) (w : Word) : (s.setStaged a w).stations = s.stations := rfl
@[simp] theorem State.setStaged_ctxs (a : Nat) (w : Word) : (s.setStaged a w).ctxs = s.ctxs := rfl
@[simp] theorem State.setStaged_store (a : Nat) (w : Word) : (s.setStaged a w).store = s.store := rfl
@[simp] theorem State.setStaged_chain (a : Nat) (w : Word) : (s.setStaged a w).chain = s.chain := rfl
@[simp] theorem State.setStaged_chainOut (a : Nat) (w : Word) : (s.setStaged a w).chainOut = s.chainOut := rfl
@[simp] theorem State.setStaged_chainRst (a : Nat) (w : Word) : (s.setStaged a w).chainRst = s.chainRst := rfl
@[simp] theorem State.setStaged_chainRej (a : Nat) (w : Word) : (s.setStaged a w).chainRej = s.chainRej := rfl
@[simp] theorem State.setStaged_chainReach (a : Nat) (w : Word) : (s.setStaged a w).chainReach = s.chainReach := rfl
@[simp] theorem State.setStaged_chainStall (a : Nat) (w : Word) : (s.setStaged a w).chainStall = s.chainStall := rfl
@[simp] theorem State.setStaged_chainMode (a : Nat) (w : Word) : (s.setStaged a w).chainMode = s.chainMode := rfl
@[simp] theorem State.setStaged_boot (a : Nat) (w : Word) : (s.setStaged a w).boot = s.boot := rfl
@[simp] theorem State.setStaged_power (a : Nat) (w : Word) : (s.setStaged a w).power = s.power := rfl
@[simp] theorem State.setStaged_surv (a : Nat) (w : Word) : (s.setStaged a w).surv = s.surv := rfl
@[simp] theorem State.setStaged_nvm (a : Nat) (w : Word) : (s.setStaged a w).nvm = s.nvm := rfl
@[simp] theorem State.setStaged_otp (a : Nat) (w : Word) : (s.setStaged a w).otp = s.otp := rfl
@[simp] theorem State.setStaged_flash (a : Nat) (w : Word) : (s.setStaged a w).flash = s.flash := rfl
@[simp] theorem State.setStaged_free (a : Nat) (w : Word) : (s.setStaged a w).free = s.free := rfl
@[simp] theorem State.setStaged_cyc (a : Nat) (w : Word) : (s.setStaged a w).cyc = s.cyc := rfl

/-! ### `putSt` -/

@[simp] theorem State.putSt_pending (f : Fld) (v : Nat) : (s.putSt f v).pending = s.pending := rfl
@[simp] theorem State.putSt_now (f : Fld) (v : Nat) : (s.putSt f v).now = s.now := rfl
@[simp] theorem State.putSt_dev (f : Fld) (v : Nat) : (s.putSt f v).dev = s.dev := rfl
@[simp] theorem State.putSt_regs (f : Fld) (v : Nat) : (s.putSt f v).regs = s.regs := rfl
@[simp] theorem State.putSt_groups (f : Fld) (v : Nat) : (s.putSt f v).groups = s.groups := rfl
@[simp] theorem State.putSt_links (f : Fld) (v : Nat) : (s.putSt f v).links = s.links := rfl
@[simp] theorem State.putSt_grelas (f : Fld) (v : Nat) : (s.putSt f v).grelas = s.grelas := rfl
@[simp] theorem State.putSt_mbox (f : Fld) (v : Nat) : (s.putSt f v).mbox = s.mbox := rfl
@[simp] theorem State.putSt_indQ (f : Fld) (v : Nat) : (s.putSt f v).indQ = s.indQ := rfl
@[simp] theorem State.putSt_window (f : Fld) (v : Nat) : (s.putSt f v).window = s.window := rfl
@[simp] theorem State.putSt_cmds (f : Fld) (v : Nat) : (s.putSt f v).cmds = s.cmds := rfl
@[simp] theorem State.putSt_nextId (f : Fld) (v : Nat) : (s.putSt f v).nextId = s.nextId := rfl
@[simp] theorem State.putSt_lastEnd (f : Fld) (v : Nat) : (s.putSt f v).lastEnd = s.lastEnd := rfl
@[simp] theorem State.putSt_backlog (f : Fld) (v : Nat) : (s.putSt f v).backlog = s.backlog := rfl
@[simp] theorem State.putSt_rings (f : Fld) (v : Nat) : (s.putSt f v).rings = s.rings := rfl
@[simp] theorem State.putSt_evq (f : Fld) (v : Nat) : (s.putSt f v).evq = s.evq := rfl
@[simp] theorem State.putSt_evLost (f : Fld) (v : Nat) : (s.putSt f v).evLost = s.evLost := rfl
@[simp] theorem State.putSt_levels (f : Fld) (v : Nat) : (s.putSt f v).levels = s.levels := rfl
@[simp] theorem State.putSt_cap (f : Fld) (v : Nat) : (s.putSt f v).cap = s.cap := rfl
@[simp] theorem State.putSt_tick (f : Fld) (v : Nat) : (s.putSt f v).tick = s.tick := rfl
@[simp] theorem State.putSt_arb (f : Fld) (v : Nat) : (s.putSt f v).arb = s.arb := rfl
@[simp] theorem State.putSt_ecc (f : Fld) (v : Nat) : (s.putSt f v).ecc = s.ecc := rfl
@[simp] theorem State.putSt_axes (f : Fld) (v : Nat) : (s.putSt f v).axes = s.axes := rfl
@[simp] theorem State.putSt_coils (f : Fld) (v : Nat) : (s.putSt f v).coils = s.coils := rfl
@[simp] theorem State.putSt_stations (f : Fld) (v : Nat) : (s.putSt f v).stations = s.stations := rfl
@[simp] theorem State.putSt_ctxs (f : Fld) (v : Nat) : (s.putSt f v).ctxs = s.ctxs := rfl
@[simp] theorem State.putSt_store (f : Fld) (v : Nat) : (s.putSt f v).store = s.store := rfl
@[simp] theorem State.putSt_chain (f : Fld) (v : Nat) : (s.putSt f v).chain = s.chain := rfl
@[simp] theorem State.putSt_chainOut (f : Fld) (v : Nat) : (s.putSt f v).chainOut = s.chainOut := rfl
@[simp] theorem State.putSt_chainRst (f : Fld) (v : Nat) : (s.putSt f v).chainRst = s.chainRst := rfl
@[simp] theorem State.putSt_chainRej (f : Fld) (v : Nat) : (s.putSt f v).chainRej = s.chainRej := rfl
@[simp] theorem State.putSt_chainReach (f : Fld) (v : Nat) : (s.putSt f v).chainReach = s.chainReach := rfl
@[simp] theorem State.putSt_chainStall (f : Fld) (v : Nat) : (s.putSt f v).chainStall = s.chainStall := rfl
@[simp] theorem State.putSt_chainMode (f : Fld) (v : Nat) : (s.putSt f v).chainMode = s.chainMode := rfl
@[simp] theorem State.putSt_boot (f : Fld) (v : Nat) : (s.putSt f v).boot = s.boot := rfl
@[simp] theorem State.putSt_power (f : Fld) (v : Nat) : (s.putSt f v).power = s.power := rfl
@[simp] theorem State.putSt_surv (f : Fld) (v : Nat) : (s.putSt f v).surv = s.surv := rfl
@[simp] theorem State.putSt_nvm (f : Fld) (v : Nat) : (s.putSt f v).nvm = s.nvm := rfl
@[simp] theorem State.putSt_otp (f : Fld) (v : Nat) : (s.putSt f v).otp = s.otp := rfl
@[simp] theorem State.putSt_flash (f : Fld) (v : Nat) : (s.putSt f v).flash = s.flash := rfl
@[simp] theorem State.putSt_free (f : Fld) (v : Nat) : (s.putSt f v).free = s.free := rfl
@[simp] theorem State.putSt_cyc (f : Fld) (v : Nat) : (s.putSt f v).cyc = s.cyc := rfl

/-! ### `ax` -/

@[simp] theorem State.ax_pending (n : Fin 8) (f : Axis → Axis) : (s.ax n f).pending = s.pending := rfl
@[simp] theorem State.ax_now (n : Fin 8) (f : Axis → Axis) : (s.ax n f).now = s.now := rfl
@[simp] theorem State.ax_dev (n : Fin 8) (f : Axis → Axis) : (s.ax n f).dev = s.dev := rfl
@[simp] theorem State.ax_regs (n : Fin 8) (f : Axis → Axis) : (s.ax n f).regs = s.regs := rfl
@[simp] theorem State.ax_staged (n : Fin 8) (f : Axis → Axis) : (s.ax n f).staged = s.staged := rfl
@[simp] theorem State.ax_groups (n : Fin 8) (f : Axis → Axis) : (s.ax n f).groups = s.groups := rfl
@[simp] theorem State.ax_links (n : Fin 8) (f : Axis → Axis) : (s.ax n f).links = s.links := rfl
@[simp] theorem State.ax_grelas (n : Fin 8) (f : Axis → Axis) : (s.ax n f).grelas = s.grelas := rfl
@[simp] theorem State.ax_mbox (n : Fin 8) (f : Axis → Axis) : (s.ax n f).mbox = s.mbox := rfl
@[simp] theorem State.ax_indQ (n : Fin 8) (f : Axis → Axis) : (s.ax n f).indQ = s.indQ := rfl
@[simp] theorem State.ax_window (n : Fin 8) (f : Axis → Axis) : (s.ax n f).window = s.window := rfl
@[simp] theorem State.ax_cmds (n : Fin 8) (f : Axis → Axis) : (s.ax n f).cmds = s.cmds := rfl
@[simp] theorem State.ax_nextId (n : Fin 8) (f : Axis → Axis) : (s.ax n f).nextId = s.nextId := rfl
@[simp] theorem State.ax_lastEnd (n : Fin 8) (f : Axis → Axis) : (s.ax n f).lastEnd = s.lastEnd := rfl
@[simp] theorem State.ax_backlog (n : Fin 8) (f : Axis → Axis) : (s.ax n f).backlog = s.backlog := rfl
@[simp] theorem State.ax_rings (n : Fin 8) (f : Axis → Axis) : (s.ax n f).rings = s.rings := rfl
@[simp] theorem State.ax_evq (n : Fin 8) (f : Axis → Axis) : (s.ax n f).evq = s.evq := rfl
@[simp] theorem State.ax_evLost (n : Fin 8) (f : Axis → Axis) : (s.ax n f).evLost = s.evLost := rfl
@[simp] theorem State.ax_levels (n : Fin 8) (f : Axis → Axis) : (s.ax n f).levels = s.levels := rfl
@[simp] theorem State.ax_cap (n : Fin 8) (f : Axis → Axis) : (s.ax n f).cap = s.cap := rfl
@[simp] theorem State.ax_tick (n : Fin 8) (f : Axis → Axis) : (s.ax n f).tick = s.tick := rfl
@[simp] theorem State.ax_arb (n : Fin 8) (f : Axis → Axis) : (s.ax n f).arb = s.arb := rfl
@[simp] theorem State.ax_ecc (n : Fin 8) (f : Axis → Axis) : (s.ax n f).ecc = s.ecc := rfl
@[simp] theorem State.ax_axes (n : Fin 8) (f : Axis → Axis) : (s.ax n f).axes = vupd s.axes n f := rfl
@[simp] theorem State.ax_coils (n : Fin 8) (f : Axis → Axis) : (s.ax n f).coils = s.coils := rfl
@[simp] theorem State.ax_stations (n : Fin 8) (f : Axis → Axis) : (s.ax n f).stations = s.stations := rfl
@[simp] theorem State.ax_ctxs (n : Fin 8) (f : Axis → Axis) : (s.ax n f).ctxs = s.ctxs := rfl
@[simp] theorem State.ax_store (n : Fin 8) (f : Axis → Axis) : (s.ax n f).store = s.store := rfl
@[simp] theorem State.ax_chain (n : Fin 8) (f : Axis → Axis) : (s.ax n f).chain = s.chain := rfl
@[simp] theorem State.ax_chainOut (n : Fin 8) (f : Axis → Axis) : (s.ax n f).chainOut = s.chainOut := rfl
@[simp] theorem State.ax_chainRst (n : Fin 8) (f : Axis → Axis) : (s.ax n f).chainRst = s.chainRst := rfl
@[simp] theorem State.ax_chainRej (n : Fin 8) (f : Axis → Axis) : (s.ax n f).chainRej = s.chainRej := rfl
@[simp] theorem State.ax_chainReach (n : Fin 8) (f : Axis → Axis) : (s.ax n f).chainReach = s.chainReach := rfl
@[simp] theorem State.ax_chainStall (n : Fin 8) (f : Axis → Axis) : (s.ax n f).chainStall = s.chainStall := rfl
@[simp] theorem State.ax_chainMode (n : Fin 8) (f : Axis → Axis) : (s.ax n f).chainMode = s.chainMode := rfl
@[simp] theorem State.ax_boot (n : Fin 8) (f : Axis → Axis) : (s.ax n f).boot = s.boot := rfl
@[simp] theorem State.ax_power (n : Fin 8) (f : Axis → Axis) : (s.ax n f).power = s.power := rfl
@[simp] theorem State.ax_surv (n : Fin 8) (f : Axis → Axis) : (s.ax n f).surv = s.surv := rfl
@[simp] theorem State.ax_nvm (n : Fin 8) (f : Axis → Axis) : (s.ax n f).nvm = s.nvm := rfl
@[simp] theorem State.ax_otp (n : Fin 8) (f : Axis → Axis) : (s.ax n f).otp = s.otp := rfl
@[simp] theorem State.ax_flash (n : Fin 8) (f : Axis → Axis) : (s.ax n f).flash = s.flash := rfl
@[simp] theorem State.ax_free (n : Fin 8) (f : Axis → Axis) : (s.ax n f).free = s.free := rfl
@[simp] theorem State.ax_cyc (n : Fin 8) (f : Axis → Axis) : (s.ax n f).cyc = s.cyc := rfl

/-! ### `co` -/

@[simp] theorem State.co_pending (c : Fin 16) (f : Coil → Coil) : (s.co c f).pending = s.pending := rfl
@[simp] theorem State.co_now (c : Fin 16) (f : Coil → Coil) : (s.co c f).now = s.now := rfl
@[simp] theorem State.co_dev (c : Fin 16) (f : Coil → Coil) : (s.co c f).dev = s.dev := rfl
@[simp] theorem State.co_regs (c : Fin 16) (f : Coil → Coil) : (s.co c f).regs = s.regs := rfl
@[simp] theorem State.co_staged (c : Fin 16) (f : Coil → Coil) : (s.co c f).staged = s.staged := rfl
@[simp] theorem State.co_groups (c : Fin 16) (f : Coil → Coil) : (s.co c f).groups = s.groups := rfl
@[simp] theorem State.co_links (c : Fin 16) (f : Coil → Coil) : (s.co c f).links = s.links := rfl
@[simp] theorem State.co_grelas (c : Fin 16) (f : Coil → Coil) : (s.co c f).grelas = s.grelas := rfl
@[simp] theorem State.co_mbox (c : Fin 16) (f : Coil → Coil) : (s.co c f).mbox = s.mbox := rfl
@[simp] theorem State.co_indQ (c : Fin 16) (f : Coil → Coil) : (s.co c f).indQ = s.indQ := rfl
@[simp] theorem State.co_window (c : Fin 16) (f : Coil → Coil) : (s.co c f).window = s.window := rfl
@[simp] theorem State.co_cmds (c : Fin 16) (f : Coil → Coil) : (s.co c f).cmds = s.cmds := rfl
@[simp] theorem State.co_nextId (c : Fin 16) (f : Coil → Coil) : (s.co c f).nextId = s.nextId := rfl
@[simp] theorem State.co_lastEnd (c : Fin 16) (f : Coil → Coil) : (s.co c f).lastEnd = s.lastEnd := rfl
@[simp] theorem State.co_backlog (c : Fin 16) (f : Coil → Coil) : (s.co c f).backlog = s.backlog := rfl
@[simp] theorem State.co_rings (c : Fin 16) (f : Coil → Coil) : (s.co c f).rings = s.rings := rfl
@[simp] theorem State.co_evq (c : Fin 16) (f : Coil → Coil) : (s.co c f).evq = s.evq := rfl
@[simp] theorem State.co_evLost (c : Fin 16) (f : Coil → Coil) : (s.co c f).evLost = s.evLost := rfl
@[simp] theorem State.co_levels (c : Fin 16) (f : Coil → Coil) : (s.co c f).levels = s.levels := rfl
@[simp] theorem State.co_cap (c : Fin 16) (f : Coil → Coil) : (s.co c f).cap = s.cap := rfl
@[simp] theorem State.co_tick (c : Fin 16) (f : Coil → Coil) : (s.co c f).tick = s.tick := rfl
@[simp] theorem State.co_arb (c : Fin 16) (f : Coil → Coil) : (s.co c f).arb = s.arb := rfl
@[simp] theorem State.co_ecc (c : Fin 16) (f : Coil → Coil) : (s.co c f).ecc = s.ecc := rfl
@[simp] theorem State.co_axes (c : Fin 16) (f : Coil → Coil) : (s.co c f).axes = s.axes := rfl
@[simp] theorem State.co_coils (c : Fin 16) (f : Coil → Coil) : (s.co c f).coils = vupd s.coils c f := rfl
@[simp] theorem State.co_stations (c : Fin 16) (f : Coil → Coil) : (s.co c f).stations = s.stations := rfl
@[simp] theorem State.co_ctxs (c : Fin 16) (f : Coil → Coil) : (s.co c f).ctxs = s.ctxs := rfl
@[simp] theorem State.co_store (c : Fin 16) (f : Coil → Coil) : (s.co c f).store = s.store := rfl
@[simp] theorem State.co_chain (c : Fin 16) (f : Coil → Coil) : (s.co c f).chain = s.chain := rfl
@[simp] theorem State.co_chainOut (c : Fin 16) (f : Coil → Coil) : (s.co c f).chainOut = s.chainOut := rfl
@[simp] theorem State.co_chainRst (c : Fin 16) (f : Coil → Coil) : (s.co c f).chainRst = s.chainRst := rfl
@[simp] theorem State.co_chainRej (c : Fin 16) (f : Coil → Coil) : (s.co c f).chainRej = s.chainRej := rfl
@[simp] theorem State.co_chainReach (c : Fin 16) (f : Coil → Coil) : (s.co c f).chainReach = s.chainReach := rfl
@[simp] theorem State.co_chainStall (c : Fin 16) (f : Coil → Coil) : (s.co c f).chainStall = s.chainStall := rfl
@[simp] theorem State.co_chainMode (c : Fin 16) (f : Coil → Coil) : (s.co c f).chainMode = s.chainMode := rfl
@[simp] theorem State.co_boot (c : Fin 16) (f : Coil → Coil) : (s.co c f).boot = s.boot := rfl
@[simp] theorem State.co_power (c : Fin 16) (f : Coil → Coil) : (s.co c f).power = s.power := rfl
@[simp] theorem State.co_surv (c : Fin 16) (f : Coil → Coil) : (s.co c f).surv = s.surv := rfl
@[simp] theorem State.co_nvm (c : Fin 16) (f : Coil → Coil) : (s.co c f).nvm = s.nvm := rfl
@[simp] theorem State.co_otp (c : Fin 16) (f : Coil → Coil) : (s.co c f).otp = s.otp := rfl
@[simp] theorem State.co_flash (c : Fin 16) (f : Coil → Coil) : (s.co c f).flash = s.flash := rfl
@[simp] theorem State.co_free (c : Fin 16) (f : Coil → Coil) : (s.co c f).free = s.free := rfl
@[simp] theorem State.co_cyc (c : Fin 16) (f : Coil → Coil) : (s.co c f).cyc = s.cyc := rfl

/-! ### `stn` -/

@[simp] theorem State.stn_pending (x : Fin 2) (f : Station → Station) : (s.stn x f).pending = s.pending := rfl
@[simp] theorem State.stn_now (x : Fin 2) (f : Station → Station) : (s.stn x f).now = s.now := rfl
@[simp] theorem State.stn_dev (x : Fin 2) (f : Station → Station) : (s.stn x f).dev = s.dev := rfl
@[simp] theorem State.stn_regs (x : Fin 2) (f : Station → Station) : (s.stn x f).regs = s.regs := rfl
@[simp] theorem State.stn_staged (x : Fin 2) (f : Station → Station) : (s.stn x f).staged = s.staged := rfl
@[simp] theorem State.stn_groups (x : Fin 2) (f : Station → Station) : (s.stn x f).groups = s.groups := rfl
@[simp] theorem State.stn_links (x : Fin 2) (f : Station → Station) : (s.stn x f).links = s.links := rfl
@[simp] theorem State.stn_grelas (x : Fin 2) (f : Station → Station) : (s.stn x f).grelas = s.grelas := rfl
@[simp] theorem State.stn_mbox (x : Fin 2) (f : Station → Station) : (s.stn x f).mbox = s.mbox := rfl
@[simp] theorem State.stn_indQ (x : Fin 2) (f : Station → Station) : (s.stn x f).indQ = s.indQ := rfl
@[simp] theorem State.stn_window (x : Fin 2) (f : Station → Station) : (s.stn x f).window = s.window := rfl
@[simp] theorem State.stn_cmds (x : Fin 2) (f : Station → Station) : (s.stn x f).cmds = s.cmds := rfl
@[simp] theorem State.stn_nextId (x : Fin 2) (f : Station → Station) : (s.stn x f).nextId = s.nextId := rfl
@[simp] theorem State.stn_lastEnd (x : Fin 2) (f : Station → Station) : (s.stn x f).lastEnd = s.lastEnd := rfl
@[simp] theorem State.stn_backlog (x : Fin 2) (f : Station → Station) : (s.stn x f).backlog = s.backlog := rfl
@[simp] theorem State.stn_rings (x : Fin 2) (f : Station → Station) : (s.stn x f).rings = s.rings := rfl
@[simp] theorem State.stn_evq (x : Fin 2) (f : Station → Station) : (s.stn x f).evq = s.evq := rfl
@[simp] theorem State.stn_evLost (x : Fin 2) (f : Station → Station) : (s.stn x f).evLost = s.evLost := rfl
@[simp] theorem State.stn_levels (x : Fin 2) (f : Station → Station) : (s.stn x f).levels = s.levels := rfl
@[simp] theorem State.stn_cap (x : Fin 2) (f : Station → Station) : (s.stn x f).cap = s.cap := rfl
@[simp] theorem State.stn_tick (x : Fin 2) (f : Station → Station) : (s.stn x f).tick = s.tick := rfl
@[simp] theorem State.stn_arb (x : Fin 2) (f : Station → Station) : (s.stn x f).arb = s.arb := rfl
@[simp] theorem State.stn_ecc (x : Fin 2) (f : Station → Station) : (s.stn x f).ecc = s.ecc := rfl
@[simp] theorem State.stn_axes (x : Fin 2) (f : Station → Station) : (s.stn x f).axes = s.axes := rfl
@[simp] theorem State.stn_coils (x : Fin 2) (f : Station → Station) : (s.stn x f).coils = s.coils := rfl
@[simp] theorem State.stn_stations (x : Fin 2) (f : Station → Station) : (s.stn x f).stations = vupd s.stations x f := rfl
@[simp] theorem State.stn_ctxs (x : Fin 2) (f : Station → Station) : (s.stn x f).ctxs = s.ctxs := rfl
@[simp] theorem State.stn_store (x : Fin 2) (f : Station → Station) : (s.stn x f).store = s.store := rfl
@[simp] theorem State.stn_chain (x : Fin 2) (f : Station → Station) : (s.stn x f).chain = s.chain := rfl
@[simp] theorem State.stn_chainOut (x : Fin 2) (f : Station → Station) : (s.stn x f).chainOut = s.chainOut := rfl
@[simp] theorem State.stn_chainRst (x : Fin 2) (f : Station → Station) : (s.stn x f).chainRst = s.chainRst := rfl
@[simp] theorem State.stn_chainRej (x : Fin 2) (f : Station → Station) : (s.stn x f).chainRej = s.chainRej := rfl
@[simp] theorem State.stn_chainReach (x : Fin 2) (f : Station → Station) : (s.stn x f).chainReach = s.chainReach := rfl
@[simp] theorem State.stn_chainStall (x : Fin 2) (f : Station → Station) : (s.stn x f).chainStall = s.chainStall := rfl
@[simp] theorem State.stn_chainMode (x : Fin 2) (f : Station → Station) : (s.stn x f).chainMode = s.chainMode := rfl
@[simp] theorem State.stn_boot (x : Fin 2) (f : Station → Station) : (s.stn x f).boot = s.boot := rfl
@[simp] theorem State.stn_power (x : Fin 2) (f : Station → Station) : (s.stn x f).power = s.power := rfl
@[simp] theorem State.stn_surv (x : Fin 2) (f : Station → Station) : (s.stn x f).surv = s.surv := rfl
@[simp] theorem State.stn_nvm (x : Fin 2) (f : Station → Station) : (s.stn x f).nvm = s.nvm := rfl
@[simp] theorem State.stn_otp (x : Fin 2) (f : Station → Station) : (s.stn x f).otp = s.otp := rfl
@[simp] theorem State.stn_flash (x : Fin 2) (f : Station → Station) : (s.stn x f).flash = s.flash := rfl
@[simp] theorem State.stn_free (x : Fin 2) (f : Station → Station) : (s.stn x f).free = s.free := rfl
@[simp] theorem State.stn_cyc (x : Fin 2) (f : Station → Station) : (s.stn x f).cyc = s.cyc := rfl

/-! ### `ctx` -/

@[simp] theorem State.ctx_pending (x : Fin 4) (f : Ctx → Ctx) : (s.ctx x f).pending = s.pending := rfl
@[simp] theorem State.ctx_now (x : Fin 4) (f : Ctx → Ctx) : (s.ctx x f).now = s.now := rfl
@[simp] theorem State.ctx_dev (x : Fin 4) (f : Ctx → Ctx) : (s.ctx x f).dev = s.dev := rfl
@[simp] theorem State.ctx_regs (x : Fin 4) (f : Ctx → Ctx) : (s.ctx x f).regs = s.regs := rfl
@[simp] theorem State.ctx_staged (x : Fin 4) (f : Ctx → Ctx) : (s.ctx x f).staged = s.staged := rfl
@[simp] theorem State.ctx_groups (x : Fin 4) (f : Ctx → Ctx) : (s.ctx x f).groups = s.groups := rfl
@[simp] theorem State.ctx_links (x : Fin 4) (f : Ctx → Ctx) : (s.ctx x f).links = s.links := rfl
@[simp] theorem State.ctx_grelas (x : Fin 4) (f : Ctx → Ctx) : (s.ctx x f).grelas = s.grelas := rfl
@[simp] theorem State.ctx_mbox (x : Fin 4) (f : Ctx → Ctx) : (s.ctx x f).mbox = s.mbox := rfl
@[simp] theorem State.ctx_indQ (x : Fin 4) (f : Ctx → Ctx) : (s.ctx x f).indQ = s.indQ := rfl
@[simp] theorem State.ctx_window (x : Fin 4) (f : Ctx → Ctx) : (s.ctx x f).window = s.window := rfl
@[simp] theorem State.ctx_cmds (x : Fin 4) (f : Ctx → Ctx) : (s.ctx x f).cmds = s.cmds := rfl
@[simp] theorem State.ctx_nextId (x : Fin 4) (f : Ctx → Ctx) : (s.ctx x f).nextId = s.nextId := rfl
@[simp] theorem State.ctx_lastEnd (x : Fin 4) (f : Ctx → Ctx) : (s.ctx x f).lastEnd = s.lastEnd := rfl
@[simp] theorem State.ctx_backlog (x : Fin 4) (f : Ctx → Ctx) : (s.ctx x f).backlog = s.backlog := rfl
@[simp] theorem State.ctx_rings (x : Fin 4) (f : Ctx → Ctx) : (s.ctx x f).rings = s.rings := rfl
@[simp] theorem State.ctx_evq (x : Fin 4) (f : Ctx → Ctx) : (s.ctx x f).evq = s.evq := rfl
@[simp] theorem State.ctx_evLost (x : Fin 4) (f : Ctx → Ctx) : (s.ctx x f).evLost = s.evLost := rfl
@[simp] theorem State.ctx_levels (x : Fin 4) (f : Ctx → Ctx) : (s.ctx x f).levels = s.levels := rfl
@[simp] theorem State.ctx_cap (x : Fin 4) (f : Ctx → Ctx) : (s.ctx x f).cap = s.cap := rfl
@[simp] theorem State.ctx_tick (x : Fin 4) (f : Ctx → Ctx) : (s.ctx x f).tick = s.tick := rfl
@[simp] theorem State.ctx_arb (x : Fin 4) (f : Ctx → Ctx) : (s.ctx x f).arb = s.arb := rfl
@[simp] theorem State.ctx_ecc (x : Fin 4) (f : Ctx → Ctx) : (s.ctx x f).ecc = s.ecc := rfl
@[simp] theorem State.ctx_axes (x : Fin 4) (f : Ctx → Ctx) : (s.ctx x f).axes = s.axes := rfl
@[simp] theorem State.ctx_coils (x : Fin 4) (f : Ctx → Ctx) : (s.ctx x f).coils = s.coils := rfl
@[simp] theorem State.ctx_stations (x : Fin 4) (f : Ctx → Ctx) : (s.ctx x f).stations = s.stations := rfl
@[simp] theorem State.ctx_ctxs (x : Fin 4) (f : Ctx → Ctx) : (s.ctx x f).ctxs = vupd s.ctxs x f := rfl
@[simp] theorem State.ctx_store (x : Fin 4) (f : Ctx → Ctx) : (s.ctx x f).store = s.store := rfl
@[simp] theorem State.ctx_chain (x : Fin 4) (f : Ctx → Ctx) : (s.ctx x f).chain = s.chain := rfl
@[simp] theorem State.ctx_chainOut (x : Fin 4) (f : Ctx → Ctx) : (s.ctx x f).chainOut = s.chainOut := rfl
@[simp] theorem State.ctx_chainRst (x : Fin 4) (f : Ctx → Ctx) : (s.ctx x f).chainRst = s.chainRst := rfl
@[simp] theorem State.ctx_chainRej (x : Fin 4) (f : Ctx → Ctx) : (s.ctx x f).chainRej = s.chainRej := rfl
@[simp] theorem State.ctx_chainReach (x : Fin 4) (f : Ctx → Ctx) : (s.ctx x f).chainReach = s.chainReach := rfl
@[simp] theorem State.ctx_chainStall (x : Fin 4) (f : Ctx → Ctx) : (s.ctx x f).chainStall = s.chainStall := rfl
@[simp] theorem State.ctx_chainMode (x : Fin 4) (f : Ctx → Ctx) : (s.ctx x f).chainMode = s.chainMode := rfl
@[simp] theorem State.ctx_boot (x : Fin 4) (f : Ctx → Ctx) : (s.ctx x f).boot = s.boot := rfl
@[simp] theorem State.ctx_power (x : Fin 4) (f : Ctx → Ctx) : (s.ctx x f).power = s.power := rfl
@[simp] theorem State.ctx_surv (x : Fin 4) (f : Ctx → Ctx) : (s.ctx x f).surv = s.surv := rfl
@[simp] theorem State.ctx_nvm (x : Fin 4) (f : Ctx → Ctx) : (s.ctx x f).nvm = s.nvm := rfl
@[simp] theorem State.ctx_otp (x : Fin 4) (f : Ctx → Ctx) : (s.ctx x f).otp = s.otp := rfl
@[simp] theorem State.ctx_flash (x : Fin 4) (f : Ctx → Ctx) : (s.ctx x f).flash = s.flash := rfl
@[simp] theorem State.ctx_free (x : Fin 4) (f : Ctx → Ctx) : (s.ctx x f).free = s.free := rfl
@[simp] theorem State.ctx_cyc (x : Fin 4) (f : Ctx → Ctx) : (s.ctx x f).cyc = s.cyc := rfl

/-! ### `lnk` -/

@[simp] theorem State.lnk_pending (l : Link) (f : LinkSt → LinkSt) : (s.lnk l f).pending = s.pending := rfl
@[simp] theorem State.lnk_now (l : Link) (f : LinkSt → LinkSt) : (s.lnk l f).now = s.now := rfl
@[simp] theorem State.lnk_dev (l : Link) (f : LinkSt → LinkSt) : (s.lnk l f).dev = s.dev := rfl
@[simp] theorem State.lnk_regs (l : Link) (f : LinkSt → LinkSt) : (s.lnk l f).regs = s.regs := rfl
@[simp] theorem State.lnk_staged (l : Link) (f : LinkSt → LinkSt) : (s.lnk l f).staged = s.staged := rfl
@[simp] theorem State.lnk_groups (l : Link) (f : LinkSt → LinkSt) : (s.lnk l f).groups = s.groups := rfl
@[simp] theorem State.lnk_links (l : Link) (f : LinkSt → LinkSt) : (s.lnk l f).links = vupd s.links (lix l) f := rfl
@[simp] theorem State.lnk_grelas (l : Link) (f : LinkSt → LinkSt) : (s.lnk l f).grelas = s.grelas := rfl
@[simp] theorem State.lnk_mbox (l : Link) (f : LinkSt → LinkSt) : (s.lnk l f).mbox = s.mbox := rfl
@[simp] theorem State.lnk_indQ (l : Link) (f : LinkSt → LinkSt) : (s.lnk l f).indQ = s.indQ := rfl
@[simp] theorem State.lnk_window (l : Link) (f : LinkSt → LinkSt) : (s.lnk l f).window = s.window := rfl
@[simp] theorem State.lnk_cmds (l : Link) (f : LinkSt → LinkSt) : (s.lnk l f).cmds = s.cmds := rfl
@[simp] theorem State.lnk_nextId (l : Link) (f : LinkSt → LinkSt) : (s.lnk l f).nextId = s.nextId := rfl
@[simp] theorem State.lnk_lastEnd (l : Link) (f : LinkSt → LinkSt) : (s.lnk l f).lastEnd = s.lastEnd := rfl
@[simp] theorem State.lnk_backlog (l : Link) (f : LinkSt → LinkSt) : (s.lnk l f).backlog = s.backlog := rfl
@[simp] theorem State.lnk_rings (l : Link) (f : LinkSt → LinkSt) : (s.lnk l f).rings = s.rings := rfl
@[simp] theorem State.lnk_evq (l : Link) (f : LinkSt → LinkSt) : (s.lnk l f).evq = s.evq := rfl
@[simp] theorem State.lnk_evLost (l : Link) (f : LinkSt → LinkSt) : (s.lnk l f).evLost = s.evLost := rfl
@[simp] theorem State.lnk_levels (l : Link) (f : LinkSt → LinkSt) : (s.lnk l f).levels = s.levels := rfl
@[simp] theorem State.lnk_cap (l : Link) (f : LinkSt → LinkSt) : (s.lnk l f).cap = s.cap := rfl
@[simp] theorem State.lnk_tick (l : Link) (f : LinkSt → LinkSt) : (s.lnk l f).tick = s.tick := rfl
@[simp] theorem State.lnk_arb (l : Link) (f : LinkSt → LinkSt) : (s.lnk l f).arb = s.arb := rfl
@[simp] theorem State.lnk_ecc (l : Link) (f : LinkSt → LinkSt) : (s.lnk l f).ecc = s.ecc := rfl
@[simp] theorem State.lnk_axes (l : Link) (f : LinkSt → LinkSt) : (s.lnk l f).axes = s.axes := rfl
@[simp] theorem State.lnk_coils (l : Link) (f : LinkSt → LinkSt) : (s.lnk l f).coils = s.coils := rfl
@[simp] theorem State.lnk_stations (l : Link) (f : LinkSt → LinkSt) : (s.lnk l f).stations = s.stations := rfl
@[simp] theorem State.lnk_ctxs (l : Link) (f : LinkSt → LinkSt) : (s.lnk l f).ctxs = s.ctxs := rfl
@[simp] theorem State.lnk_store (l : Link) (f : LinkSt → LinkSt) : (s.lnk l f).store = s.store := rfl
@[simp] theorem State.lnk_chain (l : Link) (f : LinkSt → LinkSt) : (s.lnk l f).chain = s.chain := rfl
@[simp] theorem State.lnk_chainOut (l : Link) (f : LinkSt → LinkSt) : (s.lnk l f).chainOut = s.chainOut := rfl
@[simp] theorem State.lnk_chainRst (l : Link) (f : LinkSt → LinkSt) : (s.lnk l f).chainRst = s.chainRst := rfl
@[simp] theorem State.lnk_chainRej (l : Link) (f : LinkSt → LinkSt) : (s.lnk l f).chainRej = s.chainRej := rfl
@[simp] theorem State.lnk_chainReach (l : Link) (f : LinkSt → LinkSt) : (s.lnk l f).chainReach = s.chainReach := rfl
@[simp] theorem State.lnk_chainStall (l : Link) (f : LinkSt → LinkSt) : (s.lnk l f).chainStall = s.chainStall := rfl
@[simp] theorem State.lnk_chainMode (l : Link) (f : LinkSt → LinkSt) : (s.lnk l f).chainMode = s.chainMode := rfl
@[simp] theorem State.lnk_boot (l : Link) (f : LinkSt → LinkSt) : (s.lnk l f).boot = s.boot := rfl
@[simp] theorem State.lnk_power (l : Link) (f : LinkSt → LinkSt) : (s.lnk l f).power = s.power := rfl
@[simp] theorem State.lnk_surv (l : Link) (f : LinkSt → LinkSt) : (s.lnk l f).surv = s.surv := rfl
@[simp] theorem State.lnk_nvm (l : Link) (f : LinkSt → LinkSt) : (s.lnk l f).nvm = s.nvm := rfl
@[simp] theorem State.lnk_otp (l : Link) (f : LinkSt → LinkSt) : (s.lnk l f).otp = s.otp := rfl
@[simp] theorem State.lnk_flash (l : Link) (f : LinkSt → LinkSt) : (s.lnk l f).flash = s.flash := rfl
@[simp] theorem State.lnk_free (l : Link) (f : LinkSt → LinkSt) : (s.lnk l f).free = s.free := rfl
@[simp] theorem State.lnk_cyc (l : Link) (f : LinkSt → LinkSt) : (s.lnk l f).cyc = s.cyc := rfl

/-! ### `ring` -/

@[simp] theorem State.ring_pending (q : Fin 5) (f : RecRing → RecRing) : (s.ring q f).pending = s.pending := rfl
@[simp] theorem State.ring_now (q : Fin 5) (f : RecRing → RecRing) : (s.ring q f).now = s.now := rfl
@[simp] theorem State.ring_dev (q : Fin 5) (f : RecRing → RecRing) : (s.ring q f).dev = s.dev := rfl
@[simp] theorem State.ring_regs (q : Fin 5) (f : RecRing → RecRing) : (s.ring q f).regs = s.regs := rfl
@[simp] theorem State.ring_staged (q : Fin 5) (f : RecRing → RecRing) : (s.ring q f).staged = s.staged := rfl
@[simp] theorem State.ring_groups (q : Fin 5) (f : RecRing → RecRing) : (s.ring q f).groups = s.groups := rfl
@[simp] theorem State.ring_links (q : Fin 5) (f : RecRing → RecRing) : (s.ring q f).links = s.links := rfl
@[simp] theorem State.ring_grelas (q : Fin 5) (f : RecRing → RecRing) : (s.ring q f).grelas = s.grelas := rfl
@[simp] theorem State.ring_mbox (q : Fin 5) (f : RecRing → RecRing) : (s.ring q f).mbox = s.mbox := rfl
@[simp] theorem State.ring_indQ (q : Fin 5) (f : RecRing → RecRing) : (s.ring q f).indQ = s.indQ := rfl
@[simp] theorem State.ring_window (q : Fin 5) (f : RecRing → RecRing) : (s.ring q f).window = s.window := rfl
@[simp] theorem State.ring_cmds (q : Fin 5) (f : RecRing → RecRing) : (s.ring q f).cmds = s.cmds := rfl
@[simp] theorem State.ring_nextId (q : Fin 5) (f : RecRing → RecRing) : (s.ring q f).nextId = s.nextId := rfl
@[simp] theorem State.ring_lastEnd (q : Fin 5) (f : RecRing → RecRing) : (s.ring q f).lastEnd = s.lastEnd := rfl
@[simp] theorem State.ring_backlog (q : Fin 5) (f : RecRing → RecRing) : (s.ring q f).backlog = s.backlog := rfl
@[simp] theorem State.ring_rings (q : Fin 5) (f : RecRing → RecRing) : (s.ring q f).rings = vupd s.rings q f := rfl
@[simp] theorem State.ring_evq (q : Fin 5) (f : RecRing → RecRing) : (s.ring q f).evq = s.evq := rfl
@[simp] theorem State.ring_evLost (q : Fin 5) (f : RecRing → RecRing) : (s.ring q f).evLost = s.evLost := rfl
@[simp] theorem State.ring_levels (q : Fin 5) (f : RecRing → RecRing) : (s.ring q f).levels = s.levels := rfl
@[simp] theorem State.ring_cap (q : Fin 5) (f : RecRing → RecRing) : (s.ring q f).cap = s.cap := rfl
@[simp] theorem State.ring_tick (q : Fin 5) (f : RecRing → RecRing) : (s.ring q f).tick = s.tick := rfl
@[simp] theorem State.ring_arb (q : Fin 5) (f : RecRing → RecRing) : (s.ring q f).arb = s.arb := rfl
@[simp] theorem State.ring_ecc (q : Fin 5) (f : RecRing → RecRing) : (s.ring q f).ecc = s.ecc := rfl
@[simp] theorem State.ring_axes (q : Fin 5) (f : RecRing → RecRing) : (s.ring q f).axes = s.axes := rfl
@[simp] theorem State.ring_coils (q : Fin 5) (f : RecRing → RecRing) : (s.ring q f).coils = s.coils := rfl
@[simp] theorem State.ring_stations (q : Fin 5) (f : RecRing → RecRing) : (s.ring q f).stations = s.stations := rfl
@[simp] theorem State.ring_ctxs (q : Fin 5) (f : RecRing → RecRing) : (s.ring q f).ctxs = s.ctxs := rfl
@[simp] theorem State.ring_store (q : Fin 5) (f : RecRing → RecRing) : (s.ring q f).store = s.store := rfl
@[simp] theorem State.ring_chain (q : Fin 5) (f : RecRing → RecRing) : (s.ring q f).chain = s.chain := rfl
@[simp] theorem State.ring_chainOut (q : Fin 5) (f : RecRing → RecRing) : (s.ring q f).chainOut = s.chainOut := rfl
@[simp] theorem State.ring_chainRst (q : Fin 5) (f : RecRing → RecRing) : (s.ring q f).chainRst = s.chainRst := rfl
@[simp] theorem State.ring_chainRej (q : Fin 5) (f : RecRing → RecRing) : (s.ring q f).chainRej = s.chainRej := rfl
@[simp] theorem State.ring_chainReach (q : Fin 5) (f : RecRing → RecRing) : (s.ring q f).chainReach = s.chainReach := rfl
@[simp] theorem State.ring_chainStall (q : Fin 5) (f : RecRing → RecRing) : (s.ring q f).chainStall = s.chainStall := rfl
@[simp] theorem State.ring_chainMode (q : Fin 5) (f : RecRing → RecRing) : (s.ring q f).chainMode = s.chainMode := rfl
@[simp] theorem State.ring_boot (q : Fin 5) (f : RecRing → RecRing) : (s.ring q f).boot = s.boot := rfl
@[simp] theorem State.ring_power (q : Fin 5) (f : RecRing → RecRing) : (s.ring q f).power = s.power := rfl
@[simp] theorem State.ring_surv (q : Fin 5) (f : RecRing → RecRing) : (s.ring q f).surv = s.surv := rfl
@[simp] theorem State.ring_nvm (q : Fin 5) (f : RecRing → RecRing) : (s.ring q f).nvm = s.nvm := rfl
@[simp] theorem State.ring_otp (q : Fin 5) (f : RecRing → RecRing) : (s.ring q f).otp = s.otp := rfl
@[simp] theorem State.ring_flash (q : Fin 5) (f : RecRing → RecRing) : (s.ring q f).flash = s.flash := rfl
@[simp] theorem State.ring_free (q : Fin 5) (f : RecRing → RecRing) : (s.ring q f).free = s.free := rfl
@[simp] theorem State.ring_cyc (q : Fin 5) (f : RecRing → RecRing) : (s.ring q f).cyc = s.cyc := rfl

/-! ### `bt` -/

@[simp] theorem State.bt_pending (f : BootSt → BootSt) : (s.bt f).pending = s.pending := rfl
@[simp] theorem State.bt_now (f : BootSt → BootSt) : (s.bt f).now = s.now := rfl
@[simp] theorem State.bt_dev (f : BootSt → BootSt) : (s.bt f).dev = s.dev := rfl
@[simp] theorem State.bt_regs (f : BootSt → BootSt) : (s.bt f).regs = s.regs := rfl
@[simp] theorem State.bt_staged (f : BootSt → BootSt) : (s.bt f).staged = s.staged := rfl
@[simp] theorem State.bt_groups (f : BootSt → BootSt) : (s.bt f).groups = s.groups := rfl
@[simp] theorem State.bt_links (f : BootSt → BootSt) : (s.bt f).links = s.links := rfl
@[simp] theorem State.bt_grelas (f : BootSt → BootSt) : (s.bt f).grelas = s.grelas := rfl
@[simp] theorem State.bt_mbox (f : BootSt → BootSt) : (s.bt f).mbox = s.mbox := rfl
@[simp] theorem State.bt_indQ (f : BootSt → BootSt) : (s.bt f).indQ = s.indQ := rfl
@[simp] theorem State.bt_window (f : BootSt → BootSt) : (s.bt f).window = s.window := rfl
@[simp] theorem State.bt_cmds (f : BootSt → BootSt) : (s.bt f).cmds = s.cmds := rfl
@[simp] theorem State.bt_nextId (f : BootSt → BootSt) : (s.bt f).nextId = s.nextId := rfl
@[simp] theorem State.bt_lastEnd (f : BootSt → BootSt) : (s.bt f).lastEnd = s.lastEnd := rfl
@[simp] theorem State.bt_backlog (f : BootSt → BootSt) : (s.bt f).backlog = s.backlog := rfl
@[simp] theorem State.bt_rings (f : BootSt → BootSt) : (s.bt f).rings = s.rings := rfl
@[simp] theorem State.bt_evq (f : BootSt → BootSt) : (s.bt f).evq = s.evq := rfl
@[simp] theorem State.bt_evLost (f : BootSt → BootSt) : (s.bt f).evLost = s.evLost := rfl
@[simp] theorem State.bt_levels (f : BootSt → BootSt) : (s.bt f).levels = s.levels := rfl
@[simp] theorem State.bt_cap (f : BootSt → BootSt) : (s.bt f).cap = s.cap := rfl
@[simp] theorem State.bt_tick (f : BootSt → BootSt) : (s.bt f).tick = s.tick := rfl
@[simp] theorem State.bt_arb (f : BootSt → BootSt) : (s.bt f).arb = s.arb := rfl
@[simp] theorem State.bt_ecc (f : BootSt → BootSt) : (s.bt f).ecc = s.ecc := rfl
@[simp] theorem State.bt_axes (f : BootSt → BootSt) : (s.bt f).axes = s.axes := rfl
@[simp] theorem State.bt_coils (f : BootSt → BootSt) : (s.bt f).coils = s.coils := rfl
@[simp] theorem State.bt_stations (f : BootSt → BootSt) : (s.bt f).stations = s.stations := rfl
@[simp] theorem State.bt_ctxs (f : BootSt → BootSt) : (s.bt f).ctxs = s.ctxs := rfl
@[simp] theorem State.bt_store (f : BootSt → BootSt) : (s.bt f).store = s.store := rfl
@[simp] theorem State.bt_chain (f : BootSt → BootSt) : (s.bt f).chain = s.chain := rfl
@[simp] theorem State.bt_chainOut (f : BootSt → BootSt) : (s.bt f).chainOut = s.chainOut := rfl
@[simp] theorem State.bt_chainRst (f : BootSt → BootSt) : (s.bt f).chainRst = s.chainRst := rfl
@[simp] theorem State.bt_chainRej (f : BootSt → BootSt) : (s.bt f).chainRej = s.chainRej := rfl
@[simp] theorem State.bt_chainReach (f : BootSt → BootSt) : (s.bt f).chainReach = s.chainReach := rfl
@[simp] theorem State.bt_chainStall (f : BootSt → BootSt) : (s.bt f).chainStall = s.chainStall := rfl
@[simp] theorem State.bt_chainMode (f : BootSt → BootSt) : (s.bt f).chainMode = s.chainMode := rfl
@[simp] theorem State.bt_boot (f : BootSt → BootSt) : (s.bt f).boot = f s.boot := rfl
@[simp] theorem State.bt_power (f : BootSt → BootSt) : (s.bt f).power = s.power := rfl
@[simp] theorem State.bt_surv (f : BootSt → BootSt) : (s.bt f).surv = s.surv := rfl
@[simp] theorem State.bt_nvm (f : BootSt → BootSt) : (s.bt f).nvm = s.nvm := rfl
@[simp] theorem State.bt_otp (f : BootSt → BootSt) : (s.bt f).otp = s.otp := rfl
@[simp] theorem State.bt_flash (f : BootSt → BootSt) : (s.bt f).flash = s.flash := rfl
@[simp] theorem State.bt_free (f : BootSt → BootSt) : (s.bt f).free = s.free := rfl
@[simp] theorem State.bt_cyc (f : BootSt → BootSt) : (s.bt f).cyc = s.cyc := rfl

/-! ### `pw` -/

@[simp] theorem State.pw_pending (f : PowerSt → PowerSt) : (s.pw f).pending = s.pending := rfl
@[simp] theorem State.pw_now (f : PowerSt → PowerSt) : (s.pw f).now = s.now := rfl
@[simp] theorem State.pw_dev (f : PowerSt → PowerSt) : (s.pw f).dev = s.dev := rfl
@[simp] theorem State.pw_regs (f : PowerSt → PowerSt) : (s.pw f).regs = s.regs := rfl
@[simp] theorem State.pw_staged (f : PowerSt → PowerSt) : (s.pw f).staged = s.staged := rfl
@[simp] theorem State.pw_groups (f : PowerSt → PowerSt) : (s.pw f).groups = s.groups := rfl
@[simp] theorem State.pw_links (f : PowerSt → PowerSt) : (s.pw f).links = s.links := rfl
@[simp] theorem State.pw_grelas (f : PowerSt → PowerSt) : (s.pw f).grelas = s.grelas := rfl
@[simp] theorem State.pw_mbox (f : PowerSt → PowerSt) : (s.pw f).mbox = s.mbox := rfl
@[simp] theorem State.pw_indQ (f : PowerSt → PowerSt) : (s.pw f).indQ = s.indQ := rfl
@[simp] theorem State.pw_window (f : PowerSt → PowerSt) : (s.pw f).window = s.window := rfl
@[simp] theorem State.pw_cmds (f : PowerSt → PowerSt) : (s.pw f).cmds = s.cmds := rfl
@[simp] theorem State.pw_nextId (f : PowerSt → PowerSt) : (s.pw f).nextId = s.nextId := rfl
@[simp] theorem State.pw_lastEnd (f : PowerSt → PowerSt) : (s.pw f).lastEnd = s.lastEnd := rfl
@[simp] theorem State.pw_backlog (f : PowerSt → PowerSt) : (s.pw f).backlog = s.backlog := rfl
@[simp] theorem State.pw_rings (f : PowerSt → PowerSt) : (s.pw f).rings = s.rings := rfl
@[simp] theorem State.pw_evq (f : PowerSt → PowerSt) : (s.pw f).evq = s.evq := rfl
@[simp] theorem State.pw_evLost (f : PowerSt → PowerSt) : (s.pw f).evLost = s.evLost := rfl
@[simp] theorem State.pw_levels (f : PowerSt → PowerSt) : (s.pw f).levels = s.levels := rfl
@[simp] theorem State.pw_cap (f : PowerSt → PowerSt) : (s.pw f).cap = s.cap := rfl
@[simp] theorem State.pw_tick (f : PowerSt → PowerSt) : (s.pw f).tick = s.tick := rfl
@[simp] theorem State.pw_arb (f : PowerSt → PowerSt) : (s.pw f).arb = s.arb := rfl
@[simp] theorem State.pw_ecc (f : PowerSt → PowerSt) : (s.pw f).ecc = s.ecc := rfl
@[simp] theorem State.pw_axes (f : PowerSt → PowerSt) : (s.pw f).axes = s.axes := rfl
@[simp] theorem State.pw_coils (f : PowerSt → PowerSt) : (s.pw f).coils = s.coils := rfl
@[simp] theorem State.pw_stations (f : PowerSt → PowerSt) : (s.pw f).stations = s.stations := rfl
@[simp] theorem State.pw_ctxs (f : PowerSt → PowerSt) : (s.pw f).ctxs = s.ctxs := rfl
@[simp] theorem State.pw_store (f : PowerSt → PowerSt) : (s.pw f).store = s.store := rfl
@[simp] theorem State.pw_chain (f : PowerSt → PowerSt) : (s.pw f).chain = s.chain := rfl
@[simp] theorem State.pw_chainOut (f : PowerSt → PowerSt) : (s.pw f).chainOut = s.chainOut := rfl
@[simp] theorem State.pw_chainRst (f : PowerSt → PowerSt) : (s.pw f).chainRst = s.chainRst := rfl
@[simp] theorem State.pw_chainRej (f : PowerSt → PowerSt) : (s.pw f).chainRej = s.chainRej := rfl
@[simp] theorem State.pw_chainReach (f : PowerSt → PowerSt) : (s.pw f).chainReach = s.chainReach := rfl
@[simp] theorem State.pw_chainStall (f : PowerSt → PowerSt) : (s.pw f).chainStall = s.chainStall := rfl
@[simp] theorem State.pw_chainMode (f : PowerSt → PowerSt) : (s.pw f).chainMode = s.chainMode := rfl
@[simp] theorem State.pw_boot (f : PowerSt → PowerSt) : (s.pw f).boot = s.boot := rfl
@[simp] theorem State.pw_power (f : PowerSt → PowerSt) : (s.pw f).power = f s.power := rfl
@[simp] theorem State.pw_surv (f : PowerSt → PowerSt) : (s.pw f).surv = s.surv := rfl
@[simp] theorem State.pw_nvm (f : PowerSt → PowerSt) : (s.pw f).nvm = s.nvm := rfl
@[simp] theorem State.pw_otp (f : PowerSt → PowerSt) : (s.pw f).otp = s.otp := rfl
@[simp] theorem State.pw_flash (f : PowerSt → PowerSt) : (s.pw f).flash = s.flash := rfl
@[simp] theorem State.pw_free (f : PowerSt → PowerSt) : (s.pw f).free = s.free := rfl
@[simp] theorem State.pw_cyc (f : PowerSt → PowerSt) : (s.pw f).cyc = s.cyc := rfl

/-! ### `su` -/

@[simp] theorem State.su_pending (f : SurvSt → SurvSt) : (s.su f).pending = s.pending := rfl
@[simp] theorem State.su_now (f : SurvSt → SurvSt) : (s.su f).now = s.now := rfl
@[simp] theorem State.su_dev (f : SurvSt → SurvSt) : (s.su f).dev = s.dev := rfl
@[simp] theorem State.su_regs (f : SurvSt → SurvSt) : (s.su f).regs = s.regs := rfl
@[simp] theorem State.su_staged (f : SurvSt → SurvSt) : (s.su f).staged = s.staged := rfl
@[simp] theorem State.su_groups (f : SurvSt → SurvSt) : (s.su f).groups = s.groups := rfl
@[simp] theorem State.su_links (f : SurvSt → SurvSt) : (s.su f).links = s.links := rfl
@[simp] theorem State.su_grelas (f : SurvSt → SurvSt) : (s.su f).grelas = s.grelas := rfl
@[simp] theorem State.su_mbox (f : SurvSt → SurvSt) : (s.su f).mbox = s.mbox := rfl
@[simp] theorem State.su_indQ (f : SurvSt → SurvSt) : (s.su f).indQ = s.indQ := rfl
@[simp] theorem State.su_window (f : SurvSt → SurvSt) : (s.su f).window = s.window := rfl
@[simp] theorem State.su_cmds (f : SurvSt → SurvSt) : (s.su f).cmds = s.cmds := rfl
@[simp] theorem State.su_nextId (f : SurvSt → SurvSt) : (s.su f).nextId = s.nextId := rfl
@[simp] theorem State.su_lastEnd (f : SurvSt → SurvSt) : (s.su f).lastEnd = s.lastEnd := rfl
@[simp] theorem State.su_backlog (f : SurvSt → SurvSt) : (s.su f).backlog = s.backlog := rfl
@[simp] theorem State.su_rings (f : SurvSt → SurvSt) : (s.su f).rings = s.rings := rfl
@[simp] theorem State.su_evq (f : SurvSt → SurvSt) : (s.su f).evq = s.evq := rfl
@[simp] theorem State.su_evLost (f : SurvSt → SurvSt) : (s.su f).evLost = s.evLost := rfl
@[simp] theorem State.su_levels (f : SurvSt → SurvSt) : (s.su f).levels = s.levels := rfl
@[simp] theorem State.su_cap (f : SurvSt → SurvSt) : (s.su f).cap = s.cap := rfl
@[simp] theorem State.su_tick (f : SurvSt → SurvSt) : (s.su f).tick = s.tick := rfl
@[simp] theorem State.su_arb (f : SurvSt → SurvSt) : (s.su f).arb = s.arb := rfl
@[simp] theorem State.su_ecc (f : SurvSt → SurvSt) : (s.su f).ecc = s.ecc := rfl
@[simp] theorem State.su_axes (f : SurvSt → SurvSt) : (s.su f).axes = s.axes := rfl
@[simp] theorem State.su_coils (f : SurvSt → SurvSt) : (s.su f).coils = s.coils := rfl
@[simp] theorem State.su_stations (f : SurvSt → SurvSt) : (s.su f).stations = s.stations := rfl
@[simp] theorem State.su_ctxs (f : SurvSt → SurvSt) : (s.su f).ctxs = s.ctxs := rfl
@[simp] theorem State.su_store (f : SurvSt → SurvSt) : (s.su f).store = s.store := rfl
@[simp] theorem State.su_chain (f : SurvSt → SurvSt) : (s.su f).chain = s.chain := rfl
@[simp] theorem State.su_chainOut (f : SurvSt → SurvSt) : (s.su f).chainOut = s.chainOut := rfl
@[simp] theorem State.su_chainRst (f : SurvSt → SurvSt) : (s.su f).chainRst = s.chainRst := rfl
@[simp] theorem State.su_chainRej (f : SurvSt → SurvSt) : (s.su f).chainRej = s.chainRej := rfl
@[simp] theorem State.su_chainReach (f : SurvSt → SurvSt) : (s.su f).chainReach = s.chainReach := rfl
@[simp] theorem State.su_chainStall (f : SurvSt → SurvSt) : (s.su f).chainStall = s.chainStall := rfl
@[simp] theorem State.su_chainMode (f : SurvSt → SurvSt) : (s.su f).chainMode = s.chainMode := rfl
@[simp] theorem State.su_boot (f : SurvSt → SurvSt) : (s.su f).boot = s.boot := rfl
@[simp] theorem State.su_power (f : SurvSt → SurvSt) : (s.su f).power = s.power := rfl
@[simp] theorem State.su_surv (f : SurvSt → SurvSt) : (s.su f).surv = f s.surv := rfl
@[simp] theorem State.su_nvm (f : SurvSt → SurvSt) : (s.su f).nvm = s.nvm := rfl
@[simp] theorem State.su_otp (f : SurvSt → SurvSt) : (s.su f).otp = s.otp := rfl
@[simp] theorem State.su_flash (f : SurvSt → SurvSt) : (s.su f).flash = s.flash := rfl
@[simp] theorem State.su_free (f : SurvSt → SurvSt) : (s.su f).free = s.free := rfl
@[simp] theorem State.su_cyc (f : SurvSt → SurvSt) : (s.su f).cyc = s.cyc := rfl

/-! ### `nv` -/

@[simp] theorem State.nv_pending (f : Nvm → Nvm) : (s.nv f).pending = s.pending := rfl
@[simp] theorem State.nv_now (f : Nvm → Nvm) : (s.nv f).now = s.now := rfl
@[simp] theorem State.nv_dev (f : Nvm → Nvm) : (s.nv f).dev = s.dev := rfl
@[simp] theorem State.nv_regs (f : Nvm → Nvm) : (s.nv f).regs = s.regs := rfl
@[simp] theorem State.nv_staged (f : Nvm → Nvm) : (s.nv f).staged = s.staged := rfl
@[simp] theorem State.nv_groups (f : Nvm → Nvm) : (s.nv f).groups = s.groups := rfl
@[simp] theorem State.nv_links (f : Nvm → Nvm) : (s.nv f).links = s.links := rfl
@[simp] theorem State.nv_grelas (f : Nvm → Nvm) : (s.nv f).grelas = s.grelas := rfl
@[simp] theorem State.nv_mbox (f : Nvm → Nvm) : (s.nv f).mbox = s.mbox := rfl
@[simp] theorem State.nv_indQ (f : Nvm → Nvm) : (s.nv f).indQ = s.indQ := rfl
@[simp] theorem State.nv_window (f : Nvm → Nvm) : (s.nv f).window = s.window := rfl
@[simp] theorem State.nv_cmds (f : Nvm → Nvm) : (s.nv f).cmds = s.cmds := rfl
@[simp] theorem State.nv_nextId (f : Nvm → Nvm) : (s.nv f).nextId = s.nextId := rfl
@[simp] theorem State.nv_lastEnd (f : Nvm → Nvm) : (s.nv f).lastEnd = s.lastEnd := rfl
@[simp] theorem State.nv_backlog (f : Nvm → Nvm) : (s.nv f).backlog = s.backlog := rfl
@[simp] theorem State.nv_rings (f : Nvm → Nvm) : (s.nv f).rings = s.rings := rfl
@[simp] theorem State.nv_evq (f : Nvm → Nvm) : (s.nv f).evq = s.evq := rfl
@[simp] theorem State.nv_evLost (f : Nvm → Nvm) : (s.nv f).evLost = s.evLost := rfl
@[simp] theorem State.nv_levels (f : Nvm → Nvm) : (s.nv f).levels = s.levels := rfl
@[simp] theorem State.nv_cap (f : Nvm → Nvm) : (s.nv f).cap = s.cap := rfl
@[simp] theorem State.nv_tick (f : Nvm → Nvm) : (s.nv f).tick = s.tick := rfl
@[simp] theorem State.nv_arb (f : Nvm → Nvm) : (s.nv f).arb = s.arb := rfl
@[simp] theorem State.nv_ecc (f : Nvm → Nvm) : (s.nv f).ecc = s.ecc := rfl
@[simp] theorem State.nv_axes (f : Nvm → Nvm) : (s.nv f).axes = s.axes := rfl
@[simp] theorem State.nv_coils (f : Nvm → Nvm) : (s.nv f).coils = s.coils := rfl
@[simp] theorem State.nv_stations (f : Nvm → Nvm) : (s.nv f).stations = s.stations := rfl
@[simp] theorem State.nv_ctxs (f : Nvm → Nvm) : (s.nv f).ctxs = s.ctxs := rfl
@[simp] theorem State.nv_store (f : Nvm → Nvm) : (s.nv f).store = s.store := rfl
@[simp] theorem State.nv_chain (f : Nvm → Nvm) : (s.nv f).chain = s.chain := rfl
@[simp] theorem State.nv_chainOut (f : Nvm → Nvm) : (s.nv f).chainOut = s.chainOut := rfl
@[simp] theorem State.nv_chainRst (f : Nvm → Nvm) : (s.nv f).chainRst = s.chainRst := rfl
@[simp] theorem State.nv_chainRej (f : Nvm → Nvm) : (s.nv f).chainRej = s.chainRej := rfl
@[simp] theorem State.nv_chainReach (f : Nvm → Nvm) : (s.nv f).chainReach = s.chainReach := rfl
@[simp] theorem State.nv_chainStall (f : Nvm → Nvm) : (s.nv f).chainStall = s.chainStall := rfl
@[simp] theorem State.nv_chainMode (f : Nvm → Nvm) : (s.nv f).chainMode = s.chainMode := rfl
@[simp] theorem State.nv_boot (f : Nvm → Nvm) : (s.nv f).boot = s.boot := rfl
@[simp] theorem State.nv_power (f : Nvm → Nvm) : (s.nv f).power = s.power := rfl
@[simp] theorem State.nv_surv (f : Nvm → Nvm) : (s.nv f).surv = s.surv := rfl
@[simp] theorem State.nv_nvm (f : Nvm → Nvm) : (s.nv f).nvm = f s.nvm := rfl
@[simp] theorem State.nv_otp (f : Nvm → Nvm) : (s.nv f).otp = s.otp := rfl
@[simp] theorem State.nv_flash (f : Nvm → Nvm) : (s.nv f).flash = s.flash := rfl
@[simp] theorem State.nv_free (f : Nvm → Nvm) : (s.nv f).free = s.free := rfl
@[simp] theorem State.nv_cyc (f : Nvm → Nvm) : (s.nv f).cyc = s.cyc := rfl

/-! ### `mm` -/

@[simp] theorem State.mm_pending (m : Mem) (f : EccSt → EccSt) : (s.mm m f).pending = s.pending := rfl
@[simp] theorem State.mm_now (m : Mem) (f : EccSt → EccSt) : (s.mm m f).now = s.now := rfl
@[simp] theorem State.mm_dev (m : Mem) (f : EccSt → EccSt) : (s.mm m f).dev = s.dev := rfl
@[simp] theorem State.mm_regs (m : Mem) (f : EccSt → EccSt) : (s.mm m f).regs = s.regs := rfl
@[simp] theorem State.mm_staged (m : Mem) (f : EccSt → EccSt) : (s.mm m f).staged = s.staged := rfl
@[simp] theorem State.mm_groups (m : Mem) (f : EccSt → EccSt) : (s.mm m f).groups = s.groups := rfl
@[simp] theorem State.mm_links (m : Mem) (f : EccSt → EccSt) : (s.mm m f).links = s.links := rfl
@[simp] theorem State.mm_grelas (m : Mem) (f : EccSt → EccSt) : (s.mm m f).grelas = s.grelas := rfl
@[simp] theorem State.mm_mbox (m : Mem) (f : EccSt → EccSt) : (s.mm m f).mbox = s.mbox := rfl
@[simp] theorem State.mm_indQ (m : Mem) (f : EccSt → EccSt) : (s.mm m f).indQ = s.indQ := rfl
@[simp] theorem State.mm_window (m : Mem) (f : EccSt → EccSt) : (s.mm m f).window = s.window := rfl
@[simp] theorem State.mm_cmds (m : Mem) (f : EccSt → EccSt) : (s.mm m f).cmds = s.cmds := rfl
@[simp] theorem State.mm_nextId (m : Mem) (f : EccSt → EccSt) : (s.mm m f).nextId = s.nextId := rfl
@[simp] theorem State.mm_lastEnd (m : Mem) (f : EccSt → EccSt) : (s.mm m f).lastEnd = s.lastEnd := rfl
@[simp] theorem State.mm_backlog (m : Mem) (f : EccSt → EccSt) : (s.mm m f).backlog = s.backlog := rfl
@[simp] theorem State.mm_rings (m : Mem) (f : EccSt → EccSt) : (s.mm m f).rings = s.rings := rfl
@[simp] theorem State.mm_evq (m : Mem) (f : EccSt → EccSt) : (s.mm m f).evq = s.evq := rfl
@[simp] theorem State.mm_evLost (m : Mem) (f : EccSt → EccSt) : (s.mm m f).evLost = s.evLost := rfl
@[simp] theorem State.mm_levels (m : Mem) (f : EccSt → EccSt) : (s.mm m f).levels = s.levels := rfl
@[simp] theorem State.mm_cap (m : Mem) (f : EccSt → EccSt) : (s.mm m f).cap = s.cap := rfl
@[simp] theorem State.mm_tick (m : Mem) (f : EccSt → EccSt) : (s.mm m f).tick = s.tick := rfl
@[simp] theorem State.mm_arb (m : Mem) (f : EccSt → EccSt) : (s.mm m f).arb = s.arb := rfl
@[simp] theorem State.mm_ecc (m : Mem) (f : EccSt → EccSt) : (s.mm m f).ecc = vupd s.ecc (mix m) f := rfl
@[simp] theorem State.mm_axes (m : Mem) (f : EccSt → EccSt) : (s.mm m f).axes = s.axes := rfl
@[simp] theorem State.mm_coils (m : Mem) (f : EccSt → EccSt) : (s.mm m f).coils = s.coils := rfl
@[simp] theorem State.mm_stations (m : Mem) (f : EccSt → EccSt) : (s.mm m f).stations = s.stations := rfl
@[simp] theorem State.mm_ctxs (m : Mem) (f : EccSt → EccSt) : (s.mm m f).ctxs = s.ctxs := rfl
@[simp] theorem State.mm_store (m : Mem) (f : EccSt → EccSt) : (s.mm m f).store = s.store := rfl
@[simp] theorem State.mm_chain (m : Mem) (f : EccSt → EccSt) : (s.mm m f).chain = s.chain := rfl
@[simp] theorem State.mm_chainOut (m : Mem) (f : EccSt → EccSt) : (s.mm m f).chainOut = s.chainOut := rfl
@[simp] theorem State.mm_chainRst (m : Mem) (f : EccSt → EccSt) : (s.mm m f).chainRst = s.chainRst := rfl
@[simp] theorem State.mm_chainRej (m : Mem) (f : EccSt → EccSt) : (s.mm m f).chainRej = s.chainRej := rfl
@[simp] theorem State.mm_chainReach (m : Mem) (f : EccSt → EccSt) : (s.mm m f).chainReach = s.chainReach := rfl
@[simp] theorem State.mm_chainStall (m : Mem) (f : EccSt → EccSt) : (s.mm m f).chainStall = s.chainStall := rfl
@[simp] theorem State.mm_chainMode (m : Mem) (f : EccSt → EccSt) : (s.mm m f).chainMode = s.chainMode := rfl
@[simp] theorem State.mm_boot (m : Mem) (f : EccSt → EccSt) : (s.mm m f).boot = s.boot := rfl
@[simp] theorem State.mm_power (m : Mem) (f : EccSt → EccSt) : (s.mm m f).power = s.power := rfl
@[simp] theorem State.mm_surv (m : Mem) (f : EccSt → EccSt) : (s.mm m f).surv = s.surv := rfl
@[simp] theorem State.mm_nvm (m : Mem) (f : EccSt → EccSt) : (s.mm m f).nvm = s.nvm := rfl
@[simp] theorem State.mm_otp (m : Mem) (f : EccSt → EccSt) : (s.mm m f).otp = s.otp := rfl
@[simp] theorem State.mm_flash (m : Mem) (f : EccSt → EccSt) : (s.mm m f).flash = s.flash := rfl
@[simp] theorem State.mm_free (m : Mem) (f : EccSt → EccSt) : (s.mm m f).free = s.free := rfl
@[simp] theorem State.mm_cyc (m : Mem) (f : EccSt → EccSt) : (s.mm m f).cyc = s.cyc := rfl

/-! ### `gre` -/

@[simp] theorem State.gre_pending (f : GrelasSt → GrelasSt) : (s.gre f).pending = s.pending := rfl
@[simp] theorem State.gre_now (f : GrelasSt → GrelasSt) : (s.gre f).now = s.now := rfl
@[simp] theorem State.gre_dev (f : GrelasSt → GrelasSt) : (s.gre f).dev = s.dev := rfl
@[simp] theorem State.gre_regs (f : GrelasSt → GrelasSt) : (s.gre f).regs = s.regs := rfl
@[simp] theorem State.gre_staged (f : GrelasSt → GrelasSt) : (s.gre f).staged = s.staged := rfl
@[simp] theorem State.gre_groups (f : GrelasSt → GrelasSt) : (s.gre f).groups = s.groups := rfl
@[simp] theorem State.gre_links (f : GrelasSt → GrelasSt) : (s.gre f).links = s.links := rfl
@[simp] theorem State.gre_grelas (f : GrelasSt → GrelasSt) : (s.gre f).grelas = f s.grelas := rfl
@[simp] theorem State.gre_mbox (f : GrelasSt → GrelasSt) : (s.gre f).mbox = s.mbox := rfl
@[simp] theorem State.gre_indQ (f : GrelasSt → GrelasSt) : (s.gre f).indQ = s.indQ := rfl
@[simp] theorem State.gre_window (f : GrelasSt → GrelasSt) : (s.gre f).window = s.window := rfl
@[simp] theorem State.gre_cmds (f : GrelasSt → GrelasSt) : (s.gre f).cmds = s.cmds := rfl
@[simp] theorem State.gre_nextId (f : GrelasSt → GrelasSt) : (s.gre f).nextId = s.nextId := rfl
@[simp] theorem State.gre_lastEnd (f : GrelasSt → GrelasSt) : (s.gre f).lastEnd = s.lastEnd := rfl
@[simp] theorem State.gre_backlog (f : GrelasSt → GrelasSt) : (s.gre f).backlog = s.backlog := rfl
@[simp] theorem State.gre_rings (f : GrelasSt → GrelasSt) : (s.gre f).rings = s.rings := rfl
@[simp] theorem State.gre_evq (f : GrelasSt → GrelasSt) : (s.gre f).evq = s.evq := rfl
@[simp] theorem State.gre_evLost (f : GrelasSt → GrelasSt) : (s.gre f).evLost = s.evLost := rfl
@[simp] theorem State.gre_levels (f : GrelasSt → GrelasSt) : (s.gre f).levels = s.levels := rfl
@[simp] theorem State.gre_cap (f : GrelasSt → GrelasSt) : (s.gre f).cap = s.cap := rfl
@[simp] theorem State.gre_tick (f : GrelasSt → GrelasSt) : (s.gre f).tick = s.tick := rfl
@[simp] theorem State.gre_arb (f : GrelasSt → GrelasSt) : (s.gre f).arb = s.arb := rfl
@[simp] theorem State.gre_ecc (f : GrelasSt → GrelasSt) : (s.gre f).ecc = s.ecc := rfl
@[simp] theorem State.gre_axes (f : GrelasSt → GrelasSt) : (s.gre f).axes = s.axes := rfl
@[simp] theorem State.gre_coils (f : GrelasSt → GrelasSt) : (s.gre f).coils = s.coils := rfl
@[simp] theorem State.gre_stations (f : GrelasSt → GrelasSt) : (s.gre f).stations = s.stations := rfl
@[simp] theorem State.gre_ctxs (f : GrelasSt → GrelasSt) : (s.gre f).ctxs = s.ctxs := rfl
@[simp] theorem State.gre_store (f : GrelasSt → GrelasSt) : (s.gre f).store = s.store := rfl
@[simp] theorem State.gre_chain (f : GrelasSt → GrelasSt) : (s.gre f).chain = s.chain := rfl
@[simp] theorem State.gre_chainOut (f : GrelasSt → GrelasSt) : (s.gre f).chainOut = s.chainOut := rfl
@[simp] theorem State.gre_chainRst (f : GrelasSt → GrelasSt) : (s.gre f).chainRst = s.chainRst := rfl
@[simp] theorem State.gre_chainRej (f : GrelasSt → GrelasSt) : (s.gre f).chainRej = s.chainRej := rfl
@[simp] theorem State.gre_chainReach (f : GrelasSt → GrelasSt) : (s.gre f).chainReach = s.chainReach := rfl
@[simp] theorem State.gre_chainStall (f : GrelasSt → GrelasSt) : (s.gre f).chainStall = s.chainStall := rfl
@[simp] theorem State.gre_chainMode (f : GrelasSt → GrelasSt) : (s.gre f).chainMode = s.chainMode := rfl
@[simp] theorem State.gre_boot (f : GrelasSt → GrelasSt) : (s.gre f).boot = s.boot := rfl
@[simp] theorem State.gre_power (f : GrelasSt → GrelasSt) : (s.gre f).power = s.power := rfl
@[simp] theorem State.gre_surv (f : GrelasSt → GrelasSt) : (s.gre f).surv = s.surv := rfl
@[simp] theorem State.gre_nvm (f : GrelasSt → GrelasSt) : (s.gre f).nvm = s.nvm := rfl
@[simp] theorem State.gre_otp (f : GrelasSt → GrelasSt) : (s.gre f).otp = s.otp := rfl
@[simp] theorem State.gre_flash (f : GrelasSt → GrelasSt) : (s.gre f).flash = s.flash := rfl
@[simp] theorem State.gre_free (f : GrelasSt → GrelasSt) : (s.gre f).free = s.free := rfl
@[simp] theorem State.gre_cyc (f : GrelasSt → GrelasSt) : (s.gre f).cyc = s.cyc := rfl

/-! ### `tickTo` -/

@[simp] theorem State.tickTo_pending (dt : Nat) : (s.tickTo dt).pending = s.pending := rfl
@[simp] theorem State.tickTo_now (dt : Nat) : (s.tickTo dt).now = s.now + dt := rfl
@[simp] theorem State.tickTo_dev (dt : Nat) : (s.tickTo dt).dev = s.dev := rfl
@[simp] theorem State.tickTo_regs (dt : Nat) : (s.tickTo dt).regs = if dt = 0 then s.regs else hostOver s.cyc.host s.regs := rfl
@[simp] theorem State.tickTo_staged (dt : Nat) : (s.tickTo dt).staged = s.staged := rfl
@[simp] theorem State.tickTo_groups (dt : Nat) : (s.tickTo dt).groups = s.groups := rfl
@[simp] theorem State.tickTo_links (dt : Nat) : (s.tickTo dt).links = s.links := rfl
@[simp] theorem State.tickTo_grelas (dt : Nat) : (s.tickTo dt).grelas = s.grelas := rfl
@[simp] theorem State.tickTo_mbox (dt : Nat) : (s.tickTo dt).mbox = s.mbox := rfl
@[simp] theorem State.tickTo_indQ (dt : Nat) : (s.tickTo dt).indQ = s.indQ := rfl
@[simp] theorem State.tickTo_window (dt : Nat) : (s.tickTo dt).window = s.window := rfl
@[simp] theorem State.tickTo_cmds (dt : Nat) : (s.tickTo dt).cmds = s.cmds := rfl
@[simp] theorem State.tickTo_nextId (dt : Nat) : (s.tickTo dt).nextId = s.nextId := rfl
@[simp] theorem State.tickTo_lastEnd (dt : Nat) : (s.tickTo dt).lastEnd = s.lastEnd := rfl
@[simp] theorem State.tickTo_backlog (dt : Nat) : (s.tickTo dt).backlog = s.backlog := rfl
@[simp] theorem State.tickTo_rings (dt : Nat) : (s.tickTo dt).rings = s.rings := rfl
@[simp] theorem State.tickTo_evq (dt : Nat) : (s.tickTo dt).evq = s.evq := rfl
@[simp] theorem State.tickTo_evLost (dt : Nat) : (s.tickTo dt).evLost = s.evLost := rfl
@[simp] theorem State.tickTo_levels (dt : Nat) : (s.tickTo dt).levels = s.levels := rfl
@[simp] theorem State.tickTo_cap (dt : Nat) : (s.tickTo dt).cap = s.cap := rfl
@[simp] theorem State.tickTo_tick (dt : Nat) : (s.tickTo dt).tick = s.tick := rfl
@[simp] theorem State.tickTo_arb (dt : Nat) : (s.tickTo dt).arb = s.arb := rfl
@[simp] theorem State.tickTo_ecc (dt : Nat) : (s.tickTo dt).ecc = s.ecc := rfl
@[simp] theorem State.tickTo_axes (dt : Nat) : (s.tickTo dt).axes = s.axes := rfl
@[simp] theorem State.tickTo_coils (dt : Nat) : (s.tickTo dt).coils = s.coils := rfl
@[simp] theorem State.tickTo_stations (dt : Nat) : (s.tickTo dt).stations = s.stations := rfl
@[simp] theorem State.tickTo_ctxs (dt : Nat) : (s.tickTo dt).ctxs = s.ctxs := rfl
@[simp] theorem State.tickTo_store (dt : Nat) : (s.tickTo dt).store = s.store := rfl
@[simp] theorem State.tickTo_chain (dt : Nat) : (s.tickTo dt).chain = s.chain := rfl
@[simp] theorem State.tickTo_chainOut (dt : Nat) : (s.tickTo dt).chainOut = s.chainOut := rfl
@[simp] theorem State.tickTo_chainRst (dt : Nat) : (s.tickTo dt).chainRst = s.chainRst := rfl
@[simp] theorem State.tickTo_chainRej (dt : Nat) : (s.tickTo dt).chainRej = s.chainRej := rfl
@[simp] theorem State.tickTo_chainReach (dt : Nat) : (s.tickTo dt).chainReach = s.chainReach := rfl
@[simp] theorem State.tickTo_chainStall (dt : Nat) : (s.tickTo dt).chainStall = s.chainStall := rfl
@[simp] theorem State.tickTo_chainMode (dt : Nat) : (s.tickTo dt).chainMode = s.chainMode := rfl
@[simp] theorem State.tickTo_boot (dt : Nat) : (s.tickTo dt).boot = s.boot := rfl
@[simp] theorem State.tickTo_power (dt : Nat) : (s.tickTo dt).power = s.power := rfl
@[simp] theorem State.tickTo_surv (dt : Nat) : (s.tickTo dt).surv = s.surv := rfl
@[simp] theorem State.tickTo_nvm (dt : Nat) : (s.tickTo dt).nvm = s.nvm := rfl
@[simp] theorem State.tickTo_otp (dt : Nat) : (s.tickTo dt).otp = s.otp := rfl
@[simp] theorem State.tickTo_flash (dt : Nat) : (s.tickTo dt).flash = s.flash := rfl
@[simp] theorem State.tickTo_free (dt : Nat) : (s.tickTo dt).free = s.free := rfl
@[simp] theorem State.tickTo_zero : s.tickTo 0 = s := rfl

/-! ### `useFree` -/

@[simp] theorem State.useFree_pending : (s.useFree).pending = s.pending := rfl
@[simp] theorem State.useFree_now : (s.useFree).now = s.now := rfl
@[simp] theorem State.useFree_dev : (s.useFree).dev = s.dev := rfl
@[simp] theorem State.useFree_regs : (s.useFree).regs = s.regs := rfl
@[simp] theorem State.useFree_staged : (s.useFree).staged = s.staged := rfl
@[simp] theorem State.useFree_groups : (s.useFree).groups = s.groups := rfl
@[simp] theorem State.useFree_links : (s.useFree).links = s.links := rfl
@[simp] theorem State.useFree_grelas : (s.useFree).grelas = s.grelas := rfl
@[simp] theorem State.useFree_mbox : (s.useFree).mbox = s.mbox := rfl
@[simp] theorem State.useFree_indQ : (s.useFree).indQ = s.indQ := rfl
@[simp] theorem State.useFree_window : (s.useFree).window = s.window := rfl
@[simp] theorem State.useFree_cmds : (s.useFree).cmds = s.cmds := rfl
@[simp] theorem State.useFree_nextId : (s.useFree).nextId = s.nextId := rfl
@[simp] theorem State.useFree_lastEnd : (s.useFree).lastEnd = s.lastEnd := rfl
@[simp] theorem State.useFree_backlog : (s.useFree).backlog = s.backlog := rfl
@[simp] theorem State.useFree_rings : (s.useFree).rings = s.rings := rfl
@[simp] theorem State.useFree_evq : (s.useFree).evq = s.evq := rfl
@[simp] theorem State.useFree_evLost : (s.useFree).evLost = s.evLost := rfl
@[simp] theorem State.useFree_levels : (s.useFree).levels = s.levels := rfl
@[simp] theorem State.useFree_cap : (s.useFree).cap = s.cap := rfl
@[simp] theorem State.useFree_tick : (s.useFree).tick = s.tick := rfl
@[simp] theorem State.useFree_arb : (s.useFree).arb = s.arb := rfl
@[simp] theorem State.useFree_ecc : (s.useFree).ecc = s.ecc := rfl
@[simp] theorem State.useFree_axes : (s.useFree).axes = s.axes := rfl
@[simp] theorem State.useFree_coils : (s.useFree).coils = s.coils := rfl
@[simp] theorem State.useFree_stations : (s.useFree).stations = s.stations := rfl
@[simp] theorem State.useFree_ctxs : (s.useFree).ctxs = s.ctxs := rfl
@[simp] theorem State.useFree_store : (s.useFree).store = s.store := rfl
@[simp] theorem State.useFree_chain : (s.useFree).chain = s.chain := rfl
@[simp] theorem State.useFree_chainOut : (s.useFree).chainOut = s.chainOut := rfl
@[simp] theorem State.useFree_chainRst : (s.useFree).chainRst = s.chainRst := rfl
@[simp] theorem State.useFree_chainRej : (s.useFree).chainRej = s.chainRej := rfl
@[simp] theorem State.useFree_chainReach : (s.useFree).chainReach = s.chainReach := rfl
@[simp] theorem State.useFree_chainStall : (s.useFree).chainStall = s.chainStall := rfl
@[simp] theorem State.useFree_chainMode : (s.useFree).chainMode = s.chainMode := rfl
@[simp] theorem State.useFree_boot : (s.useFree).boot = s.boot := rfl
@[simp] theorem State.useFree_power : (s.useFree).power = s.power := rfl
@[simp] theorem State.useFree_surv : (s.useFree).surv = s.surv := rfl
@[simp] theorem State.useFree_nvm : (s.useFree).nvm = s.nvm := rfl
@[simp] theorem State.useFree_otp : (s.useFree).otp = s.otp := rfl
@[simp] theorem State.useFree_flash : (s.useFree).flash = s.flash := rfl
@[simp] theorem State.useFree_free : (s.useFree).free = s.free + 1 := rfl
@[simp] theorem State.useFree_cyc : (s.useFree).cyc = s.cyc := rfl

/-! ## Register readings -/

@[simp] theorem State.setWord_gWas (a : Nat) (w : Word) (r : Fld) : (s.setWord a w).gWas r = s.gWas r := rfl
@[simp] theorem State.put_gWas (f : Fld) (v : Nat) (r : Fld) : (s.put f v).gWas r = s.gWas r := rfl
@[simp] theorem State.setStaged_gWas (a : Nat) (w : Word) (r : Fld) : (s.setStaged a w).gWas r = s.gWas r := rfl
@[simp] theorem State.setStaged_word (a : Nat) (w : Word) (r : Nat) : (s.setStaged a w).word r = s.word r := rfl
@[simp] theorem State.setStaged_g (a : Nat) (w : Word) (r : Fld) : (s.setStaged a w).g r = s.g r := rfl
@[simp] theorem State.setStaged_gb (a : Nat) (w : Word) (r : Fld) : (s.setStaged a w).gb r = s.gb r := rfl
@[simp] theorem State.setStaged_gi (a : Nat) (w : Word) (r : Fld) : (s.setStaged a w).gi r = s.gi r := rfl
@[simp] theorem State.setStaged_gBit (a : Nat) (w : Word) (r : Fld) (i : Nat) : (s.setStaged a w).gBit r i = s.gBit r i := rfl
@[simp] theorem State.putSt_gWas (f : Fld) (v : Nat) (r : Fld) : (s.putSt f v).gWas r = s.gWas r := rfl
@[simp] theorem State.putSt_word (f : Fld) (v : Nat) (r : Nat) : (s.putSt f v).word r = s.word r := rfl
@[simp] theorem State.putSt_g (f : Fld) (v : Nat) (r : Fld) : (s.putSt f v).g r = s.g r := rfl
@[simp] theorem State.putSt_gb (f : Fld) (v : Nat) (r : Fld) : (s.putSt f v).gb r = s.gb r := rfl
@[simp] theorem State.putSt_gi (f : Fld) (v : Nat) (r : Fld) : (s.putSt f v).gi r = s.gi r := rfl
@[simp] theorem State.putSt_gBit (f : Fld) (v : Nat) (r : Fld) (i : Nat) : (s.putSt f v).gBit r i = s.gBit r i := rfl
@[simp] theorem State.ax_gWas (n : Fin 8) (f : Axis → Axis) (r : Fld) : (s.ax n f).gWas r = s.gWas r := rfl
@[simp] theorem State.ax_word (n : Fin 8) (f : Axis → Axis) (r : Nat) : (s.ax n f).word r = s.word r := rfl
@[simp] theorem State.ax_g (n : Fin 8) (f : Axis → Axis) (r : Fld) : (s.ax n f).g r = s.g r := rfl
@[simp] theorem State.ax_gb (n : Fin 8) (f : Axis → Axis) (r : Fld) : (s.ax n f).gb r = s.gb r := rfl
@[simp] theorem State.ax_gi (n : Fin 8) (f : Axis → Axis) (r : Fld) : (s.ax n f).gi r = s.gi r := rfl
@[simp] theorem State.ax_gBit (n : Fin 8) (f : Axis → Axis) (r : Fld) (i : Nat) : (s.ax n f).gBit r i = s.gBit r i := rfl
@[simp] theorem State.co_gWas (c : Fin 16) (f : Coil → Coil) (r : Fld) : (s.co c f).gWas r = s.gWas r := rfl
@[simp] theorem State.co_word (c : Fin 16) (f : Coil → Coil) (r : Nat) : (s.co c f).word r = s.word r := rfl
@[simp] theorem State.co_g (c : Fin 16) (f : Coil → Coil) (r : Fld) : (s.co c f).g r = s.g r := rfl
@[simp] theorem State.co_gb (c : Fin 16) (f : Coil → Coil) (r : Fld) : (s.co c f).gb r = s.gb r := rfl
@[simp] theorem State.co_gi (c : Fin 16) (f : Coil → Coil) (r : Fld) : (s.co c f).gi r = s.gi r := rfl
@[simp] theorem State.co_gBit (c : Fin 16) (f : Coil → Coil) (r : Fld) (i : Nat) : (s.co c f).gBit r i = s.gBit r i := rfl
@[simp] theorem State.stn_gWas (x : Fin 2) (f : Station → Station) (r : Fld) : (s.stn x f).gWas r = s.gWas r := rfl
@[simp] theorem State.stn_word (x : Fin 2) (f : Station → Station) (r : Nat) : (s.stn x f).word r = s.word r := rfl
@[simp] theorem State.stn_g (x : Fin 2) (f : Station → Station) (r : Fld) : (s.stn x f).g r = s.g r := rfl
@[simp] theorem State.stn_gb (x : Fin 2) (f : Station → Station) (r : Fld) : (s.stn x f).gb r = s.gb r := rfl
@[simp] theorem State.stn_gi (x : Fin 2) (f : Station → Station) (r : Fld) : (s.stn x f).gi r = s.gi r := rfl
@[simp] theorem State.stn_gBit (x : Fin 2) (f : Station → Station) (r : Fld) (i : Nat) : (s.stn x f).gBit r i = s.gBit r i := rfl
@[simp] theorem State.ctx_gWas (x : Fin 4) (f : Ctx → Ctx) (r : Fld) : (s.ctx x f).gWas r = s.gWas r := rfl
@[simp] theorem State.ctx_word (x : Fin 4) (f : Ctx → Ctx) (r : Nat) : (s.ctx x f).word r = s.word r := rfl
@[simp] theorem State.ctx_g (x : Fin 4) (f : Ctx → Ctx) (r : Fld) : (s.ctx x f).g r = s.g r := rfl
@[simp] theorem State.ctx_gb (x : Fin 4) (f : Ctx → Ctx) (r : Fld) : (s.ctx x f).gb r = s.gb r := rfl
@[simp] theorem State.ctx_gi (x : Fin 4) (f : Ctx → Ctx) (r : Fld) : (s.ctx x f).gi r = s.gi r := rfl
@[simp] theorem State.ctx_gBit (x : Fin 4) (f : Ctx → Ctx) (r : Fld) (i : Nat) : (s.ctx x f).gBit r i = s.gBit r i := rfl
@[simp] theorem State.lnk_gWas (l : Link) (f : LinkSt → LinkSt) (r : Fld) : (s.lnk l f).gWas r = s.gWas r := rfl
@[simp] theorem State.lnk_word (l : Link) (f : LinkSt → LinkSt) (r : Nat) : (s.lnk l f).word r = s.word r := rfl
@[simp] theorem State.lnk_g (l : Link) (f : LinkSt → LinkSt) (r : Fld) : (s.lnk l f).g r = s.g r := rfl
@[simp] theorem State.lnk_gb (l : Link) (f : LinkSt → LinkSt) (r : Fld) : (s.lnk l f).gb r = s.gb r := rfl
@[simp] theorem State.lnk_gi (l : Link) (f : LinkSt → LinkSt) (r : Fld) : (s.lnk l f).gi r = s.gi r := rfl
@[simp] theorem State.lnk_gBit (l : Link) (f : LinkSt → LinkSt) (r : Fld) (i : Nat) : (s.lnk l f).gBit r i = s.gBit r i := rfl
@[simp] theorem State.ring_gWas (q : Fin 5) (f : RecRing → RecRing) (r : Fld) : (s.ring q f).gWas r = s.gWas r := rfl
@[simp] theorem State.ring_word (q : Fin 5) (f : RecRing → RecRing) (r : Nat) : (s.ring q f).word r = s.word r := rfl
@[simp] theorem State.ring_g (q : Fin 5) (f : RecRing → RecRing) (r : Fld) : (s.ring q f).g r = s.g r := rfl
@[simp] theorem State.ring_gb (q : Fin 5) (f : RecRing → RecRing) (r : Fld) : (s.ring q f).gb r = s.gb r := rfl
@[simp] theorem State.ring_gi (q : Fin 5) (f : RecRing → RecRing) (r : Fld) : (s.ring q f).gi r = s.gi r := rfl
@[simp] theorem State.ring_gBit (q : Fin 5) (f : RecRing → RecRing) (r : Fld) (i : Nat) : (s.ring q f).gBit r i = s.gBit r i := rfl
@[simp] theorem State.bt_gWas (f : BootSt → BootSt) (r : Fld) : (s.bt f).gWas r = s.gWas r := rfl
@[simp] theorem State.bt_word (f : BootSt → BootSt) (r : Nat) : (s.bt f).word r = s.word r := rfl
@[simp] theorem State.bt_g (f : BootSt → BootSt) (r : Fld) : (s.bt f).g r = s.g r := rfl
@[simp] theorem State.bt_gb (f : BootSt → BootSt) (r : Fld) : (s.bt f).gb r = s.gb r := rfl
@[simp] theorem State.bt_gi (f : BootSt → BootSt) (r : Fld) : (s.bt f).gi r = s.gi r := rfl
@[simp] theorem State.bt_gBit (f : BootSt → BootSt) (r : Fld) (i : Nat) : (s.bt f).gBit r i = s.gBit r i := rfl
@[simp] theorem State.pw_gWas (f : PowerSt → PowerSt) (r : Fld) : (s.pw f).gWas r = s.gWas r := rfl
@[simp] theorem State.pw_word (f : PowerSt → PowerSt) (r : Nat) : (s.pw f).word r = s.word r := rfl
@[simp] theorem State.pw_g (f : PowerSt → PowerSt) (r : Fld) : (s.pw f).g r = s.g r := rfl
@[simp] theorem State.pw_gb (f : PowerSt → PowerSt) (r : Fld) : (s.pw f).gb r = s.gb r := rfl
@[simp] theorem State.pw_gi (f : PowerSt → PowerSt) (r : Fld) : (s.pw f).gi r = s.gi r := rfl
@[simp] theorem State.pw_gBit (f : PowerSt → PowerSt) (r : Fld) (i : Nat) : (s.pw f).gBit r i = s.gBit r i := rfl
@[simp] theorem State.su_gWas (f : SurvSt → SurvSt) (r : Fld) : (s.su f).gWas r = s.gWas r := rfl
@[simp] theorem State.su_word (f : SurvSt → SurvSt) (r : Nat) : (s.su f).word r = s.word r := rfl
@[simp] theorem State.su_g (f : SurvSt → SurvSt) (r : Fld) : (s.su f).g r = s.g r := rfl
@[simp] theorem State.su_gb (f : SurvSt → SurvSt) (r : Fld) : (s.su f).gb r = s.gb r := rfl
@[simp] theorem State.su_gi (f : SurvSt → SurvSt) (r : Fld) : (s.su f).gi r = s.gi r := rfl
@[simp] theorem State.su_gBit (f : SurvSt → SurvSt) (r : Fld) (i : Nat) : (s.su f).gBit r i = s.gBit r i := rfl
@[simp] theorem State.nv_gWas (f : Nvm → Nvm) (r : Fld) : (s.nv f).gWas r = s.gWas r := rfl
@[simp] theorem State.nv_word (f : Nvm → Nvm) (r : Nat) : (s.nv f).word r = s.word r := rfl
@[simp] theorem State.nv_g (f : Nvm → Nvm) (r : Fld) : (s.nv f).g r = s.g r := rfl
@[simp] theorem State.nv_gb (f : Nvm → Nvm) (r : Fld) : (s.nv f).gb r = s.gb r := rfl
@[simp] theorem State.nv_gi (f : Nvm → Nvm) (r : Fld) : (s.nv f).gi r = s.gi r := rfl
@[simp] theorem State.nv_gBit (f : Nvm → Nvm) (r : Fld) (i : Nat) : (s.nv f).gBit r i = s.gBit r i := rfl
@[simp] theorem State.mm_gWas (m : Mem) (f : EccSt → EccSt) (r : Fld) : (s.mm m f).gWas r = s.gWas r := rfl
@[simp] theorem State.mm_word (m : Mem) (f : EccSt → EccSt) (r : Nat) : (s.mm m f).word r = s.word r := rfl
@[simp] theorem State.mm_g (m : Mem) (f : EccSt → EccSt) (r : Fld) : (s.mm m f).g r = s.g r := rfl
@[simp] theorem State.mm_gb (m : Mem) (f : EccSt → EccSt) (r : Fld) : (s.mm m f).gb r = s.gb r := rfl
@[simp] theorem State.mm_gi (m : Mem) (f : EccSt → EccSt) (r : Fld) : (s.mm m f).gi r = s.gi r := rfl
@[simp] theorem State.mm_gBit (m : Mem) (f : EccSt → EccSt) (r : Fld) (i : Nat) : (s.mm m f).gBit r i = s.gBit r i := rfl
@[simp] theorem State.gre_gWas (f : GrelasSt → GrelasSt) (r : Fld) : (s.gre f).gWas r = s.gWas r := rfl
@[simp] theorem State.gre_word (f : GrelasSt → GrelasSt) (r : Nat) : (s.gre f).word r = s.word r := rfl
@[simp] theorem State.gre_g (f : GrelasSt → GrelasSt) (r : Fld) : (s.gre f).g r = s.g r := rfl
@[simp] theorem State.gre_gb (f : GrelasSt → GrelasSt) (r : Fld) : (s.gre f).gb r = s.gb r := rfl
@[simp] theorem State.gre_gi (f : GrelasSt → GrelasSt) (r : Fld) : (s.gre f).gi r = s.gi r := rfl
@[simp] theorem State.gre_gBit (f : GrelasSt → GrelasSt) (r : Fld) (i : Nat) : (s.gre f).gBit r i = s.gBit r i := rfl
@[simp] theorem State.useFree_gWas (r : Fld) : (s.useFree).gWas r = s.gWas r := rfl
@[simp] theorem State.useFree_word (r : Nat) : (s.useFree).word r = s.word r := rfl
@[simp] theorem State.useFree_g (r : Fld) : (s.useFree).g r = s.g r := rfl
@[simp] theorem State.useFree_gb (r : Fld) : (s.useFree).gb r = s.gb r := rfl
@[simp] theorem State.useFree_gi (r : Fld) : (s.useFree).gi r = s.gi r := rfl
@[simp] theorem State.useFree_gBit (r : Fld) (i : Nat) : (s.useFree).gBit r i = s.gBit r i := rfl

end Sys2Proof.Machine
end

