-- ==== Sys2Proof/Laws/Words.lean ====
section
/-!
SUPPORT. Reading a register field after a write: the field written reads as written, every other field and register stays.
-/

namespace Sys2Proof.Machine

variable (s : State)

theorem State.setWord_word_same (a : Nat) (w : Word) : (s.setWord a w).word a = w := kvGet_kvSet_same _ _ _ _

theorem State.setWord_word_ne (a b : Nat) (w : Word) (h : a ≠ b) : (s.setWord a w).word b = s.word b :=
  kvGet_kvSet_ne _ _ _ _ _ _ h

theorem State.put_word_ne (f : Fld) (v b : Nat) (h : f.a ≠ b) : (s.put f v).word b = s.word b := s.setWord_word_ne _ _ _ h

theorem State.put_word_same (f : Fld) (v : Nat) (h : f.lo + f.w ≤ 32) :
    ((s.put f v).word f.a).toNat = setBits (s.word f.a).toNat f.lo f.w v := by
  unfold State.put
  rw [State.setWord_word_same]
  exact W_toNat _ (setBits_lt _ _ _ _ 32 (s.word f.a).isLt h)

/-- A field reads as it was written. -/
theorem State.put_g_same (f : Fld) (v : Nat) (h : f.lo + f.w ≤ 32) : (s.put f v).g f = v % 2 ^ f.w := by
  unfold State.g
  rw [State.put_word_same s f v h, bits_setBits_same]

/-- A field of another register stays. -/
theorem State.put_g_ne (f f' : Fld) (v : Nat) (h : f.a ≠ f'.a) : (s.put f v).g f' = s.g f' := by
  unfold State.g
  rw [s.put_word_ne f v f'.a h]

/-- A field of the same register that the written one does not overlap stays. -/
theorem State.put_g_disj (f f' : Fld) (v : Nat) (h32 : f.lo + f.w ≤ 32)
    (h : f.a ≠ f'.a ∨ f.lo + f.w ≤ f'.lo ∨ f'.lo + f'.w ≤ f.lo) : (s.put f v).g f' = s.g f' := by
  by_cases ha : f.a = f'.a
  · unfold State.g
    rw [← ha, s.put_word_same f v h32]
    exact bits_setBits_ne _ _ _ _ _ _ (by simpa [ha] using h)
  · exact s.put_g_ne f f' v ha

theorem State.gb_eq (f : Fld) : s.gb f = (s.g f != 0) := rfl
theorem State.gBit_eq (f : Fld) (i : Nat) : s.gBit f i = bit (s.g f) i := rfl
theorem State.g_lt (f : Fld) : s.g f < 2 ^ f.w := bits_lt _ _ _

theorem State.put_keeps (f : Fld) (v : Nat) : s.keepsWords (s.put f v) [f.a] := by
  intro a ha _
  exact s.put_word_ne f v a (by simpa using fun h => ha (by simp [h]))

theorem State.word_eq_of_g (t : State) (f : Fld) (h : t.word f.a = s.word f.a) : t.g f = s.g f := by
  unfold State.g; rw [h]

/-! ## What no register write changes -/

@[simp] theorem State.put_rest (f : Fld) (v : Nat) : (s.put f v).rest = s.rest := rfl
@[simp] theorem State.setWord_rest (a : Nat) (w : Word) : (s.setWord a w).rest = s.rest := rfl
@[simp] theorem State.tickTo_rest (dt : Nat) : (s.tickTo dt).rest = s.rest := rfl
@[simp] theorem State.ax_rest (n : Fin 8) (f : Axis → Axis) : (s.ax n f).rest = s.rest.ax n f := rfl
@[simp] theorem State.co_rest (c : Fin 16) (f : Coil → Coil) : (s.co c f).rest = s.rest.co c f := rfl
@[simp] theorem State.stn_rest (x : Fin 2) (f : Station → Station) : (s.stn x f).rest = s.rest.stn x f := rfl
@[simp] theorem State.lnk_rest (l : Link) (f : LinkSt → LinkSt) : (s.lnk l f).rest = s.rest.lnk l f := rfl
@[simp] theorem State.bt_rest (f : BootSt → BootSt) : (s.bt f).rest = s.rest.bt f := rfl
@[simp] theorem State.pw_rest (f : PowerSt → PowerSt) : (s.pw f).rest = s.rest.pw f := rfl
@[simp] theorem State.su_rest (f : SurvSt → SurvSt) : (s.su f).rest = s.rest.su f := rfl
@[simp] theorem State.nv_rest (f : Nvm → Nvm) : (s.nv f).rest = s.rest.nv f := rfl
@[simp] theorem State.useFree_rest : s.useFree.rest = s.rest.useFree := rfl

/-! ## The canonical form of the register file -/

theorem State.setWord_wf (a : Nat) (w : Word) (h : RegFile.wf s.regs = true) : RegFile.wf (s.setWord a w).regs = true :=
  kvWf_kvSet resetWord _ _ _ h

theorem State.put_wf (f : Fld) (v : Nat) (h : RegFile.wf s.regs = true) : RegFile.wf (s.put f v).regs = true :=
  s.setWord_wf _ _ h

end Sys2Proof.Machine
end

