-- ==== Sys2Proof/Laws/Events.lean ====
section
/-!
SUPPORT. Everything that raising an event, a level, and the end of a command's cycle can do: registers outside `evWord` stay,
the rest of the state stays, pending bits are only set, and the cycle's end leaves a settled state.
-/

namespace Sys2Proof.Machine

variable (s : State)

/-! ## What an operation of the event system may do -/

/-- `t` follows from `s` by operations of the event system: time, the rest of the state and every other register stay, no
pending bit falls, and ring 11 and the records' order in the other rings stay. -/
structure State.evStep (s t : State) : Prop where
  now : t.now = s.now
  rest : t.rest = s.rest
  word : ∀ a, evWord a = false → t.word a = s.word a
  pend : ∀ e, e < 64 → s.evPending e = true → t.evPending e = true

theorem State.evStep.refl : s.evStep s := ⟨rfl, rfl, fun _ _ => rfl, fun _ _ h => h⟩

theorem State.evStep.trans {a b c : State} (h : a.evStep b) (k : b.evStep c) : a.evStep c :=
  ⟨k.now.trans h.now, k.rest.trans h.rest, fun x hx => (k.word x hx).trans (h.word x hx), fun e l he => k.pend e l (h.pend e l he)⟩

/-- A change of no register and of nothing in `rest` is such a step. -/
theorem State.evStep.of_regs {a b : State} (hn : b.now = a.now) (hr : b.rest = a.rest) (hw : b.regs = a.regs) : a.evStep b := by
  refine ⟨hn, hr, fun x _ => ?_, fun e _ he => ?_⟩
  · unfold State.word; rw [hw]
  · unfold State.evPending State.gBit State.g State.word at *; rw [hw]; exact he

theorem evWord_pend (m : Nat) (h : m < 8) : evWord (0x20e + 0x10 * m) = true := by
  simp [evWord]; omega

theorem evWord_cnt (m : Nat) (h : m < 8) : evWord (0x20f + 0x10 * m) = true := by
  simp [evWord]; omega

theorem State.evPending_put_other (f : Fld) (v e : Nat) (h : f.a ≠ 0x20e + 0x10 * (e / 8)) :
    (s.put f v).evPending e = s.evPending e := by
  unfold State.evPending State.gBit
  rw [State.put_g_ne _ _ _ _ (by simpa using h)]

/-- A pending bit that is set leaves the others. -/
theorem State.evPending_putBit (e e' : Nat) :
    (s.putBit (DEV_EVST_PEND (e' / 8)) (e' % 8) true).evPending e = (s.evPending e || (e == e')) := by
  unfold State.evPending State.gBit State.putBit
  by_cases hm : e / 8 = e' / 8
  · have h8 : (2 : Nat) ^ 8 = 256 := rfl
    have hlt : setBits (s.g (DEV_EVST_PEND (e' / 8))) (e' % 8) 1 (b2n true) < 2 ^ 8 :=
      setBits_lt _ _ _ _ 8 (s.g_lt _) (by omega)
    rw [hm, State.put_g_same _ _ _ (by simp)]
    simp only [DEV_EVST_PEND_w]
    rw [Nat.mod_eq_of_lt hlt]
    by_cases he : e = e'
    · subst he
      rw [bit_setBits_same]; simp
    · rw [bit_setBits_ne _ _ _ _ (by omega)]
      simp [he]
  · rw [State.put_g_ne _ _ _ _ (by simp; omega)]
    have : e ≠ e' := fun h => hm (by rw [h])
    simp [this]

theorem State.capTrig_step (c : Bool) (x : Option (Nat × Nat)) :
    s.evStep (if c then { s with cap := { s.cap with trig := x } } else s) := by
  split
  · exact State.evStep.of_regs rfl rfl rfl
  · exact State.evStep.refl _

theorem State.evMark_step (e : Nat) (h : e < 64) : s.evStep (s.evMark e) := by
  have k : e / 8 < 8 := by omega
  have h1 : s.evStep (s.putBit (DEV_EVST_PEND (e / 8)) (e % 8) true) := by
    refine ⟨rfl, rfl, fun a ha => ?_, fun x _ hx => ?_⟩
    · exact State.put_word_ne _ _ _ _ (fun q => by rw [← q] at ha; simp [evWord_pend _ k] at ha)
    · rw [State.evPending_putBit, hx]; rfl
  have h2 : ∀ t : State, t.evStep (t.inc (DEV_EVCNT_CNT (e / 8) (e % 8))) := by
    intro t
    refine ⟨rfl, rfl, fun a ha => ?_, fun x _ hx => ?_⟩
    · exact State.put_word_ne _ _ _ _ (fun q => by rw [← q] at ha; simp [evWord_cnt _ k] at ha)
    · unfold State.inc State.addSat
      rw [State.evPending_put_other _ _ _ _ (by simp; omega)]; exact hx
  have h3 : ∀ t : State, t.evStep { t with ctxs := t.ctxs.map fun x =>
      if x.running then { x with ev := x.ev ||| BitVec.ofNat 64 (2 ^ e) } else x } := by
    intro t
    refine State.evStep.of_regs rfl ?_ rfl
    unfold State.rest
    congr 1
    simp only [Vector.map_map]
    congr 1
    congr 1
    funext c
    simp only [Function.comp]
    split <;> rfl
  let w : State :=
    let u := (s.putBit (DEV_EVST_PEND (e / 8)) (e % 8) true).inc (DEV_EVCNT_CNT (e / 8) (e % 8))
    { u with ctxs := u.ctxs.map fun x => if x.running then { x with ev := x.ev ||| BitVec.ofNat 64 (2 ^ e) } else x }
  have hw : s.evStep w := h1.trans ((h2 _).trans (h3 _))
  exact hw.trans (w.capTrig_step (w.gWas (DEV_EVCAP_CAP (e / 8) (e % 8)) != 0 && !w.cap.frozen && w.cap.trig == none)
    (some (e, w.gWas (DEV_EVCAP_CAP (e / 8) (e % 8)))))

theorem State.evPost_step (e k i : Nat) : s.evStep (s.evPost e k i) := by
  unfold State.evPost
  split
  · exact State.evStep.of_regs rfl rfl rfl
  · exact State.evStep.refl _

theorem State.evRaise_step (e k i : Nat) (h : e < 64) : s.evStep (s.evRaise e k i) :=
  (s.evMark_step e h).trans (State.evPost_step _ e k i)

theorem State.pulse_step (e i d : Nat) (h : e < 64) : s.evStep (s.pulse e i d) := s.evRaise_step _ _ _ h

theorem State.levelOn_step (e i d : Nat) (h : e < 64) : s.evStep (s.levelOn e i d) := by
  unfold State.levelOn
  split
  · exact State.evStep.refl _
  · refine State.evStep.trans (b := { s with levels := (e, i) :: s.levels }) (State.evStep.of_regs rfl rfl rfl) ?_
    exact State.evRaise_step _ _ _ _ h

theorem State.levelOff_step (e i d : Nat) : s.evStep (s.levelOff e i d) := by
  unfold State.levelOff
  split
  · refine State.evStep.trans (b := { s with levels := s.levels.filter (fun x => x != (e, i)) }) (State.evStep.of_regs rfl rfl rfl) ?_
    exact State.evPost_step _ _ _ _
  · exact State.evStep.refl _

theorem State.levelSet_step (e i d : Nat) (b : Bool) (h : e < 64) : s.evStep (s.levelSet e i b d) := by
  unfold State.levelSet
  split
  · exact s.levelOn_step e i d h
  · exact s.levelOff_step e i d

/-- A push into ring 12 leaves everything in `rest`. -/
theorem State.ring1_rest (f : RecRing → RecRing) : (s.ring 1 f).rest = s.rest := by
  unfold State.ring State.rest
  congr 1
  simp [vupd]

theorem State.ring1_step (f : RecRing → RecRing) : s.evStep (s.ring 1 f) := State.evStep.of_regs rfl (s.ring1_rest f) rfl

theorem State.postEvent_step (r : EvRec) : s.evStep (s.postEvent r) := by
  unfold State.postEvent
  split
  · exact s.ring1_step _
  · refine ⟨rfl, rfl, fun a ha => ?_, fun e he hx => ?_⟩
    · exact State.put_word_ne { s with evLost := s.evLost + 1 } (RRNG_CNT_OVF 12) _ a
        (fun q => by rw [← q] at ha; simp [evWord] at ha)
    · have : ({ s with evLost := s.evLost + 1 } : State).evPending e = s.evPending e := rfl
      rw [State.inc_eq, State.evPending_put_other _ _ _ _ (by simp; omega), this]; exact hx

theorem State.evLostFlush_step : s.evStep s.evLostFlush := by
  unfold State.evLostFlush
  split
  · unfold State.evLostNote
    have h1 : s.evStep ({ s with evLost := 0 } : State) := State.evStep.of_regs rfl rfl rfl
    have h2 := h1.trans (State.evMark_step { s with evLost := 0 } 7 (by omega))
    dsimp only
    split
    · exact h2.trans (State.ring1_step _ _)
    · exact h2
  · exact State.evStep.refl _

/-- The end of a cycle is a step of the event system. -/
theorem State.settle_step : s.evStep s.settle := by
  unfold State.settle
  dsimp only
  refine (s.levelSet_step 48 0 0 s.backlogged (by omega)).trans ?_
  generalize s.levelSet 48 0 s.backlogged 0 = a
  refine (a.levelSet_step 49 0 0 (a.flOn && a.waterHit 0) (by omega)).trans ?_
  generalize a.levelSet 49 0 (a.flOn && a.waterHit 0) 0 = b
  refine b.evLostFlush_step.trans ?_
  generalize b.evLostFlush = c
  have h : c.evStep { c with evq := [] } := State.evStep.of_regs rfl rfl rfl
  refine h.trans ?_
  exact foldl_ind (fun x => State.evStep { c with evq := [] } x) _ _ (fun x r hx => State.evStep.trans hx (x.postEvent_step r)) _ (State.evStep.refl _)

/-! ## Raising -/

theorem State.evMark_raises (e : Nat) : (s.evMark e).evPending e = true := by
  have h : (s.putBit (DEV_EVST_PEND (e / 8)) (e % 8) true).evPending e = true := by
    rw [State.evPending_putBit]; simp
  have h2 : ((s.putBit (DEV_EVST_PEND (e / 8)) (e % 8) true).inc (DEV_EVCNT_CNT (e / 8) (e % 8))).evPending e = true := by
    rw [State.inc_eq, State.evPending_put_other _ _ _ _ (by simp)]; exact h
  unfold State.evMark
  dsimp only
  split <;> exact h2

/-- A raised event is pending (R476). -/
theorem State.evRaise_raises (e k i : Nat) (h : e < 64) : (s.evRaise e k i).evPending e = true :=
  (State.evPost_step _ e k i).pend e h (s.evMark_raises e)

theorem State.pulse_raises (e i d : Nat) (h : e < 64) : (s.pulse e i d).evPending e = true := s.evRaise_raises _ _ _ h

theorem State.levelOn_raises (e i d : Nat) (h : e < 64) (hl : s.level e i = false) : (s.levelOn e i d).evPending e = true := by
  unfold State.levelOn
  rw [hl]
  exact State.evRaise_raises _ _ _ _ h

/-! ## Levels -/

theorem State.evMark_levels (e : Nat) : (s.evMark e).levels = s.levels := by
  unfold State.evMark
  dsimp only
  split <;> rfl

theorem State.evPost_levels (e k i : Nat) : (s.evPost e k i).levels = s.levels := by
  unfold State.evPost
  split <;> rfl

theorem State.evRaise_levels (e k i : Nat) : (s.evRaise e k i).levels = s.levels :=
  (State.evPost_levels _ e k i).trans (s.evMark_levels e)

theorem State.pulse_levels (e i d : Nat) : (s.pulse e i d).levels = s.levels := s.evRaise_levels _ _ _

/-- After an assertion the instance is active, every other one as before. -/
theorem State.levelOn_level (e i d e' i' : Nat) :
    (s.levelOn e i d).level e' i' = (s.level e' i' || ((e', i') == (e, i))) := by
  unfold State.levelOn
  split
  · next h =>
    by_cases k : (e', i') = (e, i)
    · obtain ⟨rfl, rfl⟩ := Prod.mk.injEq .. ▸ k
      simp [h]
    · simp [k]
  · unfold State.level
    rw [State.evRaise_levels]
    simp only [List.contains_cons]
    rw [Bool.or_comm]

/-- After a clearing the instance is inactive, every other one as before. -/
theorem State.levelOff_level (e i d e' i' : Nat) :
    (s.levelOff e i d).level e' i' = (s.level e' i' && !((e', i') == (e, i))) := by
  unfold State.levelOff
  split
  · unfold State.level
    rw [State.evPost_levels]
    rw [Bool.eq_iff_iff]
    simp only [List.contains_iff_mem, List.mem_filter, Bool.and_eq_true, bne, Bool.not_eq_true', beq_eq_false_iff_ne]
  · next h =>
    by_cases k : (e', i') = (e, i)
    · obtain ⟨rfl, rfl⟩ := Prod.mk.injEq .. ▸ k
      simp [h]
    · simp [k]

theorem State.levelSet_level (e i d : Nat) (b : Bool) (e' i' : Nat) :
    (s.levelSet e i b d).level e' i' = if (e', i') = (e, i) then b else s.level e' i' := by
  unfold State.levelSet
  split
  · next h => rw [State.levelOn_level, h]; split <;> simp [*]
  · next h => rw [State.levelOff_level]; split <;> simp_all


/-! ## What the event system leaves alone, field by field -/

@[simp] theorem State.evMark_now (e : Nat) (h : e < 64) : (s.evMark e).now = s.now := (s.evMark_step e h).now
@[simp] theorem State.evMark_rest (e : Nat) (h : e < 64) : (s.evMark e).rest = s.rest := (s.evMark_step e h).rest
theorem State.evMark_word (e : Nat) (h : e < 64) (r : Nat) (hr : evWord r = false) : (s.evMark e).word r = s.word r := (s.evMark_step e h).word r hr
theorem State.evMark_g (e : Nat) (h : e < 64) (f : Fld) (hr : evWord f.a = false) : (s.evMark e).g f = s.g f := State.word_eq_of_g _ _ f ((s.evMark_step e h).word f.a hr)
@[simp] theorem State.evMark_pending (e : Nat) (h : e < 64) : (s.evMark e).pending = s.pending := by
 have r := congrArg (fun x : State => x.pending) (s.evMark_step e h).rest
 exact r
@[simp] theorem State.evMark_dev (e : Nat) (h : e < 64) : (s.evMark e).dev = s.dev := by
 have r := congrArg (fun x : State => x.dev) (s.evMark_step e h).rest
 exact r
@[simp] theorem State.evMark_staged (e : Nat) (h : e < 64) : (s.evMark e).staged = s.staged := by
 have r := congrArg (fun x : State => x.staged) (s.evMark_step e h).rest
 exact r
@[simp] theorem State.evMark_groups (e : Nat) (h : e < 64) : (s.evMark e).groups = s.groups := by
 have r := congrArg (fun x : State => x.groups) (s.evMark_step e h).rest
 exact r
@[simp] theorem State.evMark_links (e : Nat) (h : e < 64) : (s.evMark e).links = s.links := by
 have r := congrArg (fun x : State => x.links) (s.evMark_step e h).rest
 exact r
@[simp] theorem State.evMark_grelas (e : Nat) (h : e < 64) : (s.evMark e).grelas = s.grelas := by
 have r := congrArg (fun x : State => x.grelas) (s.evMark_step e h).rest
 exact r
@[simp] theorem State.evMark_mbox (e : Nat) (h : e < 64) : (s.evMark e).mbox = s.mbox := by
 have r := congrArg (fun x : State => x.mbox) (s.evMark_step e h).rest
 exact r
@[simp] theorem State.evMark_indQ (e : Nat) (h : e < 64) : (s.evMark e).indQ = s.indQ := by
 have r := congrArg (fun x : State => x.indQ) (s.evMark_step e h).rest
 exact r
@[simp] theorem State.evMark_window (e : Nat) (h : e < 64) : (s.evMark e).window = s.window := by
 have r := congrArg (fun x : State => x.window) (s.evMark_step e h).rest
 exact r
@[simp] theorem State.evMark_cmds (e : Nat) (h : e < 64) : (s.evMark e).cmds = s.cmds := by
 have r := congrArg (fun x : State => x.cmds) (s.evMark_step e h).rest
 exact r
@[simp] theorem State.evMark_nextId (e : Nat) (h : e < 64) : (s.evMark e).nextId = s.nextId := by
 have r := congrArg (fun x : State => x.nextId) (s.evMark_step e h).rest
 exact r
@[simp] theorem State.evMark_lastEnd (e : Nat) (h : e < 64) : (s.evMark e).lastEnd = s.lastEnd := by
 have r := congrArg (fun x : State => x.lastEnd) (s.evMark_step e h).rest
 exact r
@[simp] theorem State.evMark_backlog (e : Nat) (h : e < 64) : (s.evMark e).backlog = s.backlog := by
 have r := congrArg (fun x : State => x.backlog) (s.evMark_step e h).rest
 exact r
@[simp] theorem State.evMark_tick (e : Nat) (h : e < 64) : (s.evMark e).tick = s.tick := by
 have r := congrArg (fun x : State => x.tick) (s.evMark_step e h).rest
 exact r
@[simp] theorem State.evMark_ecc (e : Nat) (h : e < 64) : (s.evMark e).ecc = s.ecc := by
 have r := congrArg (fun x : State => x.ecc) (s.evMark_step e h).rest
 exact r
@[simp] theorem State.evMark_axes (e : Nat) (h : e < 64) : (s.evMark e).axes = s.axes := by
 have r := congrArg (fun x : State => x.axes) (s.evMark_step e h).rest
 exact r
@[simp] theorem State.evMark_coils (e : Nat) (h : e < 64) : (s.evMark e).coils = s.coils := by
 have r := congrArg (fun x : State => x.coils) (s.evMark_step e h).rest
 exact r
@[simp] theorem State.evMark_stations (e : Nat) (h : e < 64) : (s.evMark e).stations = s.stations := by
 have r := congrArg (fun x : State => x.stations) (s.evMark_step e h).rest
 exact r
@[simp] theorem State.evMark_store (e : Nat) (h : e < 64) : (s.evMark e).store = s.store := by
 have r := congrArg (fun x : State => x.store) (s.evMark_step e h).rest
 exact r
@[simp] theorem State.evMark_chain (e : Nat) (h : e < 64) : (s.evMark e).chain = s.chain := by
 have r := congrArg (fun x : State => x.chain) (s.evMark_step e h).rest
 exact r
@[simp] theorem State.evMark_chainOut (e : Nat) (h : e < 64) : (s.evMark e).chainOut = s.chainOut := by
 have r := congrArg (fun x : State => x.chainOut) (s.evMark_step e h).rest
 exact r
@[simp] theorem State.evMark_chainRst (e : Nat) (h : e < 64) : (s.evMark e).chainRst = s.chainRst := by
 have r := congrArg (fun x : State => x.chainRst) (s.evMark_step e h).rest
 exact r
@[simp] theorem State.evMark_chainRej (e : Nat) (h : e < 64) : (s.evMark e).chainRej = s.chainRej := by
 have r := congrArg (fun x : State => x.chainRej) (s.evMark_step e h).rest
 exact r
@[simp] theorem State.evMark_chainReach (e : Nat) (h : e < 64) : (s.evMark e).chainReach = s.chainReach := by
 have r := congrArg (fun x : State => x.chainReach) (s.evMark_step e h).rest
 exact r
@[simp] theorem State.evMark_chainStall (e : Nat) (h : e < 64) : (s.evMark e).chainStall = s.chainStall := by
 have r := congrArg (fun x : State => x.chainStall) (s.evMark_step e h).rest
 exact r
@[simp] theorem State.evMark_chainMode (e : Nat) (h : e < 64) : (s.evMark e).chainMode = s.chainMode := by
 have r := congrArg (fun x : State => x.chainMode) (s.evMark_step e h).rest
 exact r
@[simp] theorem State.evMark_boot (e : Nat) (h : e < 64) : (s.evMark e).boot = s.boot := by
 have r := congrArg (fun x : State => x.boot) (s.evMark_step e h).rest
 exact r
@[simp] theorem State.evMark_power (e : Nat) (h : e < 64) : (s.evMark e).power = s.power := by
 have r := congrArg (fun x : State => x.power) (s.evMark_step e h).rest
 exact r
@[simp] theorem State.evMark_surv (e : Nat) (h : e < 64) : (s.evMark e).surv = s.surv := by
 have r := congrArg (fun x : State => x.surv) (s.evMark_step e h).rest
 exact r
@[simp] theorem State.evMark_nvm (e : Nat) (h : e < 64) : (s.evMark e).nvm = s.nvm := by
 have r := congrArg (fun x : State => x.nvm) (s.evMark_step e h).rest
 exact r
@[simp] theorem State.evMark_otp (e : Nat) (h : e < 64) : (s.evMark e).otp = s.otp := by
 have r := congrArg (fun x : State => x.otp) (s.evMark_step e h).rest
 exact r
@[simp] theorem State.evMark_flash (e : Nat) (h : e < 64) : (s.evMark e).flash = s.flash := by
 have r := congrArg (fun x : State => x.flash) (s.evMark_step e h).rest
 exact r
@[simp] theorem State.evMark_free (e : Nat) (h : e < 64) : (s.evMark e).free = s.free := by
 have r := congrArg (fun x : State => x.free) (s.evMark_step e h).rest
 exact r

@[simp] theorem State.evPost_now (e k i : Nat) : (s.evPost e k i).now = s.now := (s.evPost_step e k i).now
@[simp] theorem State.evPost_rest (e k i : Nat) : (s.evPost e k i).rest = s.rest := (s.evPost_step e k i).rest
theorem State.evPost_word (e k i : Nat) (r : Nat) (hr : evWord r = false) : (s.evPost e k i).word r = s.word r := (s.evPost_step e k i).word r hr
theorem State.evPost_g (e k i : Nat) (f : Fld) (hr : evWord f.a = false) : (s.evPost e k i).g f = s.g f := State.word_eq_of_g _ _ f ((s.evPost_step e k i).word f.a hr)
@[simp] theorem State.evPost_pending (e k i : Nat) : (s.evPost e k i).pending = s.pending := by
 have r := congrArg (fun x : State => x.pending) (s.evPost_step e k i).rest
 exact r
@[simp] theorem State.evPost_dev (e k i : Nat) : (s.evPost e k i).dev = s.dev := by
 have r := congrArg (fun x : State => x.dev) (s.evPost_step e k i).rest
 exact r
@[simp] theorem State.evPost_staged (e k i : Nat) : (s.evPost e k i).staged = s.staged := by
 have r := congrArg (fun x : State => x.staged) (s.evPost_step e k i).rest
 exact r
@[simp] theorem State.evPost_groups (e k i : Nat) : (s.evPost e k i).groups = s.groups := by
 have r := congrArg (fun x : State => x.groups) (s.evPost_step e k i).rest
 exact r
@[simp] theorem State.evPost_links (e k i : Nat) : (s.evPost e k i).links = s.links := by
 have r := congrArg (fun x : State => x.links) (s.evPost_step e k i).rest
 exact r
@[simp] theorem State.evPost_grelas (e k i : Nat) : (s.evPost e k i).grelas = s.grelas := by
 have r := congrArg (fun x : State => x.grelas) (s.evPost_step e k i).rest
 exact r
@[simp] theorem State.evPost_mbox (e k i : Nat) : (s.evPost e k i).mbox = s.mbox := by
 have r := congrArg (fun x : State => x.mbox) (s.evPost_step e k i).rest
 exact r
@[simp] theorem State.evPost_indQ (e k i : Nat) : (s.evPost e k i).indQ = s.indQ := by
 have r := congrArg (fun x : State => x.indQ) (s.evPost_step e k i).rest
 exact r
@[simp] theorem State.evPost_window (e k i : Nat) : (s.evPost e k i).window = s.window := by
 have r := congrArg (fun x : State => x.window) (s.evPost_step e k i).rest
 exact r
@[simp] theorem State.evPost_cmds (e k i : Nat) : (s.evPost e k i).cmds = s.cmds := by
 have r := congrArg (fun x : State => x.cmds) (s.evPost_step e k i).rest
 exact r
@[simp] theorem State.evPost_nextId (e k i : Nat) : (s.evPost e k i).nextId = s.nextId := by
 have r := congrArg (fun x : State => x.nextId) (s.evPost_step e k i).rest
 exact r
@[simp] theorem State.evPost_lastEnd (e k i : Nat) : (s.evPost e k i).lastEnd = s.lastEnd := by
 have r := congrArg (fun x : State => x.lastEnd) (s.evPost_step e k i).rest
 exact r
@[simp] theorem State.evPost_backlog (e k i : Nat) : (s.evPost e k i).backlog = s.backlog := by
 have r := congrArg (fun x : State => x.backlog) (s.evPost_step e k i).rest
 exact r
@[simp] theorem State.evPost_tick (e k i : Nat) : (s.evPost e k i).tick = s.tick := by
 have r := congrArg (fun x : State => x.tick) (s.evPost_step e k i).rest
 exact r
@[simp] theorem State.evPost_ecc (e k i : Nat) : (s.evPost e k i).ecc = s.ecc := by
 have r := congrArg (fun x : State => x.ecc) (s.evPost_step e k i).rest
 exact r
@[simp] theorem State.evPost_axes (e k i : Nat) : (s.evPost e k i).axes = s.axes := by
 have r := congrArg (fun x : State => x.axes) (s.evPost_step e k i).rest
 exact r
@[simp] theorem State.evPost_coils (e k i : Nat) : (s.evPost e k i).coils = s.coils := by
 have r := congrArg (fun x : State => x.coils) (s.evPost_step e k i).rest
 exact r
@[simp] theorem State.evPost_stations (e k i : Nat) : (s.evPost e k i).stations = s.stations := by
 have r := congrArg (fun x : State => x.stations) (s.evPost_step e k i).rest
 exact r
@[simp] theorem State.evPost_store (e k i : Nat) : (s.evPost e k i).store = s.store := by
 have r := congrArg (fun x : State => x.store) (s.evPost_step e k i).rest
 exact r
@[simp] theorem State.evPost_chain (e k i : Nat) : (s.evPost e k i).chain = s.chain := by
 have r := congrArg (fun x : State => x.chain) (s.evPost_step e k i).rest
 exact r
@[simp] theorem State.evPost_chainOut (e k i : Nat) : (s.evPost e k i).chainOut = s.chainOut := by
 have r := congrArg (fun x : State => x.chainOut) (s.evPost_step e k i).rest
 exact r
@[simp] theorem State.evPost_chainRst (e k i : Nat) : (s.evPost e k i).chainRst = s.chainRst := by
 have r := congrArg (fun x : State => x.chainRst) (s.evPost_step e k i).rest
 exact r
@[simp] theorem State.evPost_chainRej (e k i : Nat) : (s.evPost e k i).chainRej = s.chainRej := by
 have r := congrArg (fun x : State => x.chainRej) (s.evPost_step e k i).rest
 exact r
@[simp] theorem State.evPost_chainReach (e k i : Nat) : (s.evPost e k i).chainReach = s.chainReach := by
 have r := congrArg (fun x : State => x.chainReach) (s.evPost_step e k i).rest
 exact r
@[simp] theorem State.evPost_chainStall (e k i : Nat) : (s.evPost e k i).chainStall = s.chainStall := by
 have r := congrArg (fun x : State => x.chainStall) (s.evPost_step e k i).rest
 exact r
@[simp] theorem State.evPost_chainMode (e k i : Nat) : (s.evPost e k i).chainMode = s.chainMode := by
 have r := congrArg (fun x : State => x.chainMode) (s.evPost_step e k i).rest
 exact r
@[simp] theorem State.evPost_boot (e k i : Nat) : (s.evPost e k i).boot = s.boot := by
 have r := congrArg (fun x : State => x.boot) (s.evPost_step e k i).rest
 exact r
@[simp] theorem State.evPost_power (e k i : Nat) : (s.evPost e k i).power = s.power := by
 have r := congrArg (fun x : State => x.power) (s.evPost_step e k i).rest
 exact r
@[simp] theorem State.evPost_surv (e k i : Nat) : (s.evPost e k i).surv = s.surv := by
 have r := congrArg (fun x : State => x.surv) (s.evPost_step e k i).rest
 exact r
@[simp] theorem State.evPost_nvm (e k i : Nat) : (s.evPost e k i).nvm = s.nvm := by
 have r := congrArg (fun x : State => x.nvm) (s.evPost_step e k i).rest
 exact r
@[simp] theorem State.evPost_otp (e k i : Nat) : (s.evPost e k i).otp = s.otp := by
 have r := congrArg (fun x : State => x.otp) (s.evPost_step e k i).rest
 exact r
@[simp] theorem State.evPost_flash (e k i : Nat) : (s.evPost e k i).flash = s.flash := by
 have r := congrArg (fun x : State => x.flash) (s.evPost_step e k i).rest
 exact r
@[simp] theorem State.evPost_free (e k i : Nat) : (s.evPost e k i).free = s.free := by
 have r := congrArg (fun x : State => x.free) (s.evPost_step e k i).rest
 exact r

@[simp] theorem State.evRaise_now (e k i : Nat) (h : e < 64) : (s.evRaise e k i).now = s.now := (s.evRaise_step e k i h).now
@[simp] theorem State.evRaise_rest (e k i : Nat) (h : e < 64) : (s.evRaise e k i).rest = s.rest := (s.evRaise_step e k i h).rest
theorem State.evRaise_word (e k i : Nat) (h : e < 64) (r : Nat) (hr : evWord r = false) : (s.evRaise e k i).word r = s.word r := (s.evRaise_step e k i h).word r hr
theorem State.evRaise_g (e k i : Nat) (h : e < 64) (f : Fld) (hr : evWord f.a = false) : (s.evRaise e k i).g f = s.g f := State.word_eq_of_g _ _ f ((s.evRaise_step e k i h).word f.a hr)
@[simp] theorem State.evRaise_pending (e k i : Nat) (h : e < 64) : (s.evRaise e k i).pending = s.pending := by
 have r := congrArg (fun x : State => x.pending) (s.evRaise_step e k i h).rest
 exact r
@[simp] theorem State.evRaise_dev (e k i : Nat) (h : e < 64) : (s.evRaise e k i).dev = s.dev := by
 have r := congrArg (fun x : State => x.dev) (s.evRaise_step e k i h).rest
 exact r
@[simp] theorem State.evRaise_staged (e k i : Nat) (h : e < 64) : (s.evRaise e k i).staged = s.staged := by
 have r := congrArg (fun x : State => x.staged) (s.evRaise_step e k i h).rest
 exact r
@[simp] theorem State.evRaise_groups (e k i : Nat) (h : e < 64) : (s.evRaise e k i).groups = s.groups := by
 have r := congrArg (fun x : State => x.groups) (s.evRaise_step e k i h).rest
 exact r
@[simp] theorem State.evRaise_links (e k i : Nat) (h : e < 64) : (s.evRaise e k i).links = s.links := by
 have r := congrArg (fun x : State => x.links) (s.evRaise_step e k i h).rest
 exact r
@[simp] theorem State.evRaise_grelas (e k i : Nat) (h : e < 64) : (s.evRaise e k i).grelas = s.grelas := by
 have r := congrArg (fun x : State => x.grelas) (s.evRaise_step e k i h).rest
 exact r
@[simp] theorem State.evRaise_mbox (e k i : Nat) (h : e < 64) : (s.evRaise e k i).mbox = s.mbox := by
 have r := congrArg (fun x : State => x.mbox) (s.evRaise_step e k i h).rest
 exact r
@[simp] theorem State.evRaise_indQ (e k i : Nat) (h : e < 64) : (s.evRaise e k i).indQ = s.indQ := by
 have r := congrArg (fun x : State => x.indQ) (s.evRaise_step e k i h).rest
 exact r
@[simp] theorem State.evRaise_window (e k i : Nat) (h : e < 64) : (s.evRaise e k i).window = s.window := by
 have r := congrArg (fun x : State => x.window) (s.evRaise_step e k i h).rest
 exact r
@[simp] theorem State.evRaise_cmds (e k i : Nat) (h : e < 64) : (s.evRaise e k i).cmds = s.cmds := by
 have r := congrArg (fun x : State => x.cmds) (s.evRaise_step e k i h).rest
 exact r
@[simp] theorem State.evRaise_nextId (e k i : Nat) (h : e < 64) : (s.evRaise e k i).nextId = s.nextId := by
 have r := congrArg (fun x : State => x.nextId) (s.evRaise_step e k i h).rest
 exact r
@[simp] theorem State.evRaise_lastEnd (e k i : Nat) (h : e < 64) : (s.evRaise e k i).lastEnd = s.lastEnd := by
 have r := congrArg (fun x : State => x.lastEnd) (s.evRaise_step e k i h).rest
 exact r
@[simp] theorem State.evRaise_backlog (e k i : Nat) (h : e < 64) : (s.evRaise e k i).backlog = s.backlog := by
 have r := congrArg (fun x : State => x.backlog) (s.evRaise_step e k i h).rest
 exact r
@[simp] theorem State.evRaise_tick (e k i : Nat) (h : e < 64) : (s.evRaise e k i).tick = s.tick := by
 have r := congrArg (fun x : State => x.tick) (s.evRaise_step e k i h).rest
 exact r
@[simp] theorem State.evRaise_ecc (e k i : Nat) (h : e < 64) : (s.evRaise e k i).ecc = s.ecc := by
 have r := congrArg (fun x : State => x.ecc) (s.evRaise_step e k i h).rest
 exact r
@[simp] theorem State.evRaise_axes (e k i : Nat) (h : e < 64) : (s.evRaise e k i).axes = s.axes := by
 have r := congrArg (fun x : State => x.axes) (s.evRaise_step e k i h).rest
 exact r
@[simp] theorem State.evRaise_coils (e k i : Nat) (h : e < 64) : (s.evRaise e k i).coils = s.coils := by
 have r := congrArg (fun x : State => x.coils) (s.evRaise_step e k i h).rest
 exact r
@[simp] theorem State.evRaise_stations (e k i : Nat) (h : e < 64) : (s.evRaise e k i).stations = s.stations := by
 have r := congrArg (fun x : State => x.stations) (s.evRaise_step e k i h).rest
 exact r
@[simp] theorem State.evRaise_store (e k i : Nat) (h : e < 64) : (s.evRaise e k i).store = s.store := by
 have r := congrArg (fun x : State => x.store) (s.evRaise_step e k i h).rest
 exact r
@[simp] theorem State.evRaise_chain (e k i : Nat) (h : e < 64) : (s.evRaise e k i).chain = s.chain := by
 have r := congrArg (fun x : State => x.chain) (s.evRaise_step e k i h).rest
 exact r
@[simp] theorem State.evRaise_chainOut (e k i : Nat) (h : e < 64) : (s.evRaise e k i).chainOut = s.chainOut := by
 have r := congrArg (fun x : State => x.chainOut) (s.evRaise_step e k i h).rest
 exact r
@[simp] theorem State.evRaise_chainRst (e k i : Nat) (h : e < 64) : (s.evRaise e k i).chainRst = s.chainRst := by
 have r := congrArg (fun x : State => x.chainRst) (s.evRaise_step e k i h).rest
 exact r
@[simp] theorem State.evRaise_chainRej (e k i : Nat) (h : e < 64) : (s.evRaise e k i).chainRej = s.chainRej := by
 have r := congrArg (fun x : State => x.chainRej) (s.evRaise_step e k i h).rest
 exact r
@[simp] theorem State.evRaise_chainReach (e k i : Nat) (h : e < 64) : (s.evRaise e k i).chainReach = s.chainReach := by
 have r := congrArg (fun x : State => x.chainReach) (s.evRaise_step e k i h).rest
 exact r
@[simp] theorem State.evRaise_chainStall (e k i : Nat) (h : e < 64) : (s.evRaise e k i).chainStall = s.chainStall := by
 have r := congrArg (fun x : State => x.chainStall) (s.evRaise_step e k i h).rest
 exact r
@[simp] theorem State.evRaise_chainMode (e k i : Nat) (h : e < 64) : (s.evRaise e k i).chainMode = s.chainMode := by
 have r := congrArg (fun x : State => x.chainMode) (s.evRaise_step e k i h).rest
 exact r
@[simp] theorem State.evRaise_boot (e k i : Nat) (h : e < 64) : (s.evRaise e k i).boot = s.boot := by
 have r := congrArg (fun x : State => x.boot) (s.evRaise_step e k i h).rest
 exact r
@[simp] theorem State.evRaise_power (e k i : Nat) (h : e < 64) : (s.evRaise e k i).power = s.power := by
 have r := congrArg (fun x : State => x.power) (s.evRaise_step e k i h).rest
 exact r
@[simp] theorem State.evRaise_surv (e k i : Nat) (h : e < 64) : (s.evRaise e k i).surv = s.surv := by
 have r := congrArg (fun x : State => x.surv) (s.evRaise_step e k i h).rest
 exact r
@[simp] theorem State.evRaise_nvm (e k i : Nat) (h : e < 64) : (s.evRaise e k i).nvm = s.nvm := by
 have r := congrArg (fun x : State => x.nvm) (s.evRaise_step e k i h).rest
 exact r
@[simp] theorem State.evRaise_otp (e k i : Nat) (h : e < 64) : (s.evRaise e k i).otp = s.otp := by
 have r := congrArg (fun x : State => x.otp) (s.evRaise_step e k i h).rest
 exact r
@[simp] theorem State.evRaise_flash (e k i : Nat) (h : e < 64) : (s.evRaise e k i).flash = s.flash := by
 have r := congrArg (fun x : State => x.flash) (s.evRaise_step e k i h).rest
 exact r
@[simp] theorem State.evRaise_free (e k i : Nat) (h : e < 64) : (s.evRaise e k i).free = s.free := by
 have r := congrArg (fun x : State => x.free) (s.evRaise_step e k i h).rest
 exact r

@[simp] theorem State.pulse_now (e i d : Nat) (h : e < 64) : (s.pulse e i d).now = s.now := (s.pulse_step e i d h).now
@[simp] theorem State.pulse_rest (e i d : Nat) (h : e < 64) : (s.pulse e i d).rest = s.rest := (s.pulse_step e i d h).rest
theorem State.pulse_word (e i d : Nat) (h : e < 64) (r : Nat) (hr : evWord r = false) : (s.pulse e i d).word r = s.word r := (s.pulse_step e i d h).word r hr
theorem State.pulse_g (e i d : Nat) (h : e < 64) (f : Fld) (hr : evWord f.a = false) : (s.pulse e i d).g f = s.g f := State.word_eq_of_g _ _ f ((s.pulse_step e i d h).word f.a hr)
@[simp] theorem State.pulse_pending (e i d : Nat) (h : e < 64) : (s.pulse e i d).pending = s.pending := by
 have r := congrArg (fun x : State => x.pending) (s.pulse_step e i d h).rest
 exact r
@[simp] theorem State.pulse_dev (e i d : Nat) (h : e < 64) : (s.pulse e i d).dev = s.dev := by
 have r := congrArg (fun x : State => x.dev) (s.pulse_step e i d h).rest
 exact r
@[simp] theorem State.pulse_staged (e i d : Nat) (h : e < 64) : (s.pulse e i d).staged = s.staged := by
 have r := congrArg (fun x : State => x.staged) (s.pulse_step e i d h).rest
 exact r
@[simp] theorem State.pulse_groups (e i d : Nat) (h : e < 64) : (s.pulse e i d).groups = s.groups := by
 have r := congrArg (fun x : State => x.groups) (s.pulse_step e i d h).rest
 exact r
@[simp] theorem State.pulse_links (e i d : Nat) (h : e < 64) : (s.pulse e i d).links = s.links := by
 have r := congrArg (fun x : State => x.links) (s.pulse_step e i d h).rest
 exact r
@[simp] theorem State.pulse_grelas (e i d : Nat) (h : e < 64) : (s.pulse e i d).grelas = s.grelas := by
 have r := congrArg (fun x : State => x.grelas) (s.pulse_step e i d h).rest
 exact r
@[simp] theorem State.pulse_mbox (e i d : Nat) (h : e < 64) : (s.pulse e i d).mbox = s.mbox := by
 have r := congrArg (fun x : State => x.mbox) (s.pulse_step e i d h).rest
 exact r
@[simp] theorem State.pulse_indQ (e i d : Nat) (h : e < 64) : (s.pulse e i d).indQ = s.indQ := by
 have r := congrArg (fun x : State => x.indQ) (s.pulse_step e i d h).rest
 exact r
@[simp] theorem State.pulse_window (e i d : Nat) (h : e < 64) : (s.pulse e i d).window = s.window := by
 have r := congrArg (fun x : State => x.window) (s.pulse_step e i d h).rest
 exact r
@[simp] theorem State.pulse_cmds (e i d : Nat) (h : e < 64) : (s.pulse e i d).cmds = s.cmds := by
 have r := congrArg (fun x : State => x.cmds) (s.pulse_step e i d h).rest
 exact r
@[simp] theorem State.pulse_nextId (e i d : Nat) (h : e < 64) : (s.pulse e i d).nextId = s.nextId := by
 have r := congrArg (fun x : State => x.nextId) (s.pulse_step e i d h).rest
 exact r
@[simp] theorem State.pulse_lastEnd (e i d : Nat) (h : e < 64) : (s.pulse e i d).lastEnd = s.lastEnd := by
 have r := congrArg (fun x : State => x.lastEnd) (s.pulse_step e i d h).rest
 exact r
@[simp] theorem State.pulse_backlog (e i d : Nat) (h : e < 64) : (s.pulse e i d).backlog = s.backlog := by
 have r := congrArg (fun x : State => x.backlog) (s.pulse_step e i d h).rest
 exact r
@[simp] theorem State.pulse_tick (e i d : Nat) (h : e < 64) : (s.pulse e i d).tick = s.tick := by
 have r := congrArg (fun x : State => x.tick) (s.pulse_step e i d h).rest
 exact r
@[simp] theorem State.pulse_ecc (e i d : Nat) (h : e < 64) : (s.pulse e i d).ecc = s.ecc := by
 have r := congrArg (fun x : State => x.ecc) (s.pulse_step e i d h).rest
 exact r
@[simp] theorem State.pulse_axes (e i d : Nat) (h : e < 64) : (s.pulse e i d).axes = s.axes := by
 have r := congrArg (fun x : State => x.axes) (s.pulse_step e i d h).rest
 exact r
@[simp] theorem State.pulse_coils (e i d : Nat) (h : e < 64) : (s.pulse e i d).coils = s.coils := by
 have r := congrArg (fun x : State => x.coils) (s.pulse_step e i d h).rest
 exact r
@[simp] theorem State.pulse_stations (e i d : Nat) (h : e < 64) : (s.pulse e i d).stations = s.stations := by
 have r := congrArg (fun x : State => x.stations) (s.pulse_step e i d h).rest
 exact r
@[simp] theorem State.pulse_store (e i d : Nat) (h : e < 64) : (s.pulse e i d).store = s.store := by
 have r := congrArg (fun x : State => x.store) (s.pulse_step e i d h).rest
 exact r
@[simp] theorem State.pulse_chain (e i d : Nat) (h : e < 64) : (s.pulse e i d).chain = s.chain := by
 have r := congrArg (fun x : State => x.chain) (s.pulse_step e i d h).rest
 exact r
@[simp] theorem State.pulse_chainOut (e i d : Nat) (h : e < 64) : (s.pulse e i d).chainOut = s.chainOut := by
 have r := congrArg (fun x : State => x.chainOut) (s.pulse_step e i d h).rest
 exact r
@[simp] theorem State.pulse_chainRst (e i d : Nat) (h : e < 64) : (s.pulse e i d).chainRst = s.chainRst := by
 have r := congrArg (fun x : State => x.chainRst) (s.pulse_step e i d h).rest
 exact r
@[simp] theorem State.pulse_chainRej (e i d : Nat) (h : e < 64) : (s.pulse e i d).chainRej = s.chainRej := by
 have r := congrArg (fun x : State => x.chainRej) (s.pulse_step e i d h).rest
 exact r
@[simp] theorem State.pulse_chainReach (e i d : Nat) (h : e < 64) : (s.pulse e i d).chainReach = s.chainReach := by
 have r := congrArg (fun x : State => x.chainReach) (s.pulse_step e i d h).rest
 exact r
@[simp] theorem State.pulse_chainStall (e i d : Nat) (h : e < 64) : (s.pulse e i d).chainStall = s.chainStall := by
 have r := congrArg (fun x : State => x.chainStall) (s.pulse_step e i d h).rest
 exact r
@[simp] theorem State.pulse_chainMode (e i d : Nat) (h : e < 64) : (s.pulse e i d).chainMode = s.chainMode := by
 have r := congrArg (fun x : State => x.chainMode) (s.pulse_step e i d h).rest
 exact r
@[simp] theorem State.pulse_boot (e i d : Nat) (h : e < 64) : (s.pulse e i d).boot = s.boot := by
 have r := congrArg (fun x : State => x.boot) (s.pulse_step e i d h).rest
 exact r
@[simp] theorem State.pulse_power (e i d : Nat) (h : e < 64) : (s.pulse e i d).power = s.power := by
 have r := congrArg (fun x : State => x.power) (s.pulse_step e i d h).rest
 exact r
@[simp] theorem State.pulse_surv (e i d : Nat) (h : e < 64) : (s.pulse e i d).surv = s.surv := by
 have r := congrArg (fun x : State => x.surv) (s.pulse_step e i d h).rest
 exact r
@[simp] theorem State.pulse_nvm (e i d : Nat) (h : e < 64) : (s.pulse e i d).nvm = s.nvm := by
 have r := congrArg (fun x : State => x.nvm) (s.pulse_step e i d h).rest
 exact r
@[simp] theorem State.pulse_otp (e i d : Nat) (h : e < 64) : (s.pulse e i d).otp = s.otp := by
 have r := congrArg (fun x : State => x.otp) (s.pulse_step e i d h).rest
 exact r
@[simp] theorem State.pulse_flash (e i d : Nat) (h : e < 64) : (s.pulse e i d).flash = s.flash := by
 have r := congrArg (fun x : State => x.flash) (s.pulse_step e i d h).rest
 exact r
@[simp] theorem State.pulse_free (e i d : Nat) (h : e < 64) : (s.pulse e i d).free = s.free := by
 have r := congrArg (fun x : State => x.free) (s.pulse_step e i d h).rest
 exact r

@[simp] theorem State.levelOn_now (e i d : Nat) (h : e < 64) : (s.levelOn e i d).now = s.now := (s.levelOn_step e i d h).now
@[simp] theorem State.levelOn_rest (e i d : Nat) (h : e < 64) : (s.levelOn e i d).rest = s.rest := (s.levelOn_step e i d h).rest
theorem State.levelOn_word (e i d : Nat) (h : e < 64) (r : Nat) (hr : evWord r = false) : (s.levelOn e i d).word r = s.word r := (s.levelOn_step e i d h).word r hr
theorem State.levelOn_g (e i d : Nat) (h : e < 64) (f : Fld) (hr : evWord f.a = false) : (s.levelOn e i d).g f = s.g f := State.word_eq_of_g _ _ f ((s.levelOn_step e i d h).word f.a hr)
@[simp] theorem State.levelOn_pending (e i d : Nat) (h : e < 64) : (s.levelOn e i d).pending = s.pending := by
 have r := congrArg (fun x : State => x.pending) (s.levelOn_step e i d h).rest
 exact r
@[simp] theorem State.levelOn_dev (e i d : Nat) (h : e < 64) : (s.levelOn e i d).dev = s.dev := by
 have r := congrArg (fun x : State => x.dev) (s.levelOn_step e i d h).rest
 exact r
@[simp] theorem State.levelOn_staged (e i d : Nat) (h : e < 64) : (s.levelOn e i d).staged = s.staged := by
 have r := congrArg (fun x : State => x.staged) (s.levelOn_step e i d h).rest
 exact r
@[simp] theorem State.levelOn_groups (e i d : Nat) (h : e < 64) : (s.levelOn e i d).groups = s.groups := by
 have r := congrArg (fun x : State => x.groups) (s.levelOn_step e i d h).rest
 exact r
@[simp] theorem State.levelOn_links (e i d : Nat) (h : e < 64) : (s.levelOn e i d).links = s.links := by
 have r := congrArg (fun x : State => x.links) (s.levelOn_step e i d h).rest
 exact r
@[simp] theorem State.levelOn_grelas (e i d : Nat) (h : e < 64) : (s.levelOn e i d).grelas = s.grelas := by
 have r := congrArg (fun x : State => x.grelas) (s.levelOn_step e i d h).rest
 exact r
@[simp] theorem State.levelOn_mbox (e i d : Nat) (h : e < 64) : (s.levelOn e i d).mbox = s.mbox := by
 have r := congrArg (fun x : State => x.mbox) (s.levelOn_step e i d h).rest
 exact r
@[simp] theorem State.levelOn_indQ (e i d : Nat) (h : e < 64) : (s.levelOn e i d).indQ = s.indQ := by
 have r := congrArg (fun x : State => x.indQ) (s.levelOn_step e i d h).rest
 exact r
@[simp] theorem State.levelOn_window (e i d : Nat) (h : e < 64) : (s.levelOn e i d).window = s.window := by
 have r := congrArg (fun x : State => x.window) (s.levelOn_step e i d h).rest
 exact r
@[simp] theorem State.levelOn_cmds (e i d : Nat) (h : e < 64) : (s.levelOn e i d).cmds = s.cmds := by
 have r := congrArg (fun x : State => x.cmds) (s.levelOn_step e i d h).rest
 exact r
@[simp] theorem State.levelOn_nextId (e i d : Nat) (h : e < 64) : (s.levelOn e i d).nextId = s.nextId := by
 have r := congrArg (fun x : State => x.nextId) (s.levelOn_step e i d h).rest
 exact r
@[simp] theorem State.levelOn_lastEnd (e i d : Nat) (h : e < 64) : (s.levelOn e i d).lastEnd = s.lastEnd := by
 have r := congrArg (fun x : State => x.lastEnd) (s.levelOn_step e i d h).rest
 exact r
@[simp] theorem State.levelOn_backlog (e i d : Nat) (h : e < 64) : (s.levelOn e i d).backlog = s.backlog := by
 have r := congrArg (fun x : State => x.backlog) (s.levelOn_step e i d h).rest
 exact r
@[simp] theorem State.levelOn_tick (e i d : Nat) (h : e < 64) : (s.levelOn e i d).tick = s.tick := by
 have r := congrArg (fun x : State => x.tick) (s.levelOn_step e i d h).rest
 exact r
@[simp] theorem State.levelOn_ecc (e i d : Nat) (h : e < 64) : (s.levelOn e i d).ecc = s.ecc := by
 have r := congrArg (fun x : State => x.ecc) (s.levelOn_step e i d h).rest
 exact r
@[simp] theorem State.levelOn_axes (e i d : Nat) (h : e < 64) : (s.levelOn e i d).axes = s.axes := by
 have r := congrArg (fun x : State => x.axes) (s.levelOn_step e i d h).rest
 exact r
@[simp] theorem State.levelOn_coils (e i d : Nat) (h : e < 64) : (s.levelOn e i d).coils = s.coils := by
 have r := congrArg (fun x : State => x.coils) (s.levelOn_step e i d h).rest
 exact r
@[simp] theorem State.levelOn_stations (e i d : Nat) (h : e < 64) : (s.levelOn e i d).stations = s.stations := by
 have r := congrArg (fun x : State => x.stations) (s.levelOn_step e i d h).rest
 exact r
@[simp] theorem State.levelOn_store (e i d : Nat) (h : e < 64) : (s.levelOn e i d).store = s.store := by
 have r := congrArg (fun x : State => x.store) (s.levelOn_step e i d h).rest
 exact r
@[simp] theorem State.levelOn_chain (e i d : Nat) (h : e < 64) : (s.levelOn e i d).chain = s.chain := by
 have r := congrArg (fun x : State => x.chain) (s.levelOn_step e i d h).rest
 exact r
@[simp] theorem State.levelOn_chainOut (e i d : Nat) (h : e < 64) : (s.levelOn e i d).chainOut = s.chainOut := by
 have r := congrArg (fun x : State => x.chainOut) (s.levelOn_step e i d h).rest
 exact r
@[simp] theorem State.levelOn_chainRst (e i d : Nat) (h : e < 64) : (s.levelOn e i d).chainRst = s.chainRst := by
 have r := congrArg (fun x : State => x.chainRst) (s.levelOn_step e i d h).rest
 exact r
@[simp] theorem State.levelOn_chainRej (e i d : Nat) (h : e < 64) : (s.levelOn e i d).chainRej = s.chainRej := by
 have r := congrArg (fun x : State => x.chainRej) (s.levelOn_step e i d h).rest
 exact r
@[simp] theorem State.levelOn_chainReach (e i d : Nat) (h : e < 64) : (s.levelOn e i d).chainReach = s.chainReach := by
 have r := congrArg (fun x : State => x.chainReach) (s.levelOn_step e i d h).rest
 exact r
@[simp] theorem State.levelOn_chainStall (e i d : Nat) (h : e < 64) : (s.levelOn e i d).chainStall = s.chainStall := by
 have r := congrArg (fun x : State => x.chainStall) (s.levelOn_step e i d h).rest
 exact r
@[simp] theorem State.levelOn_chainMode (e i d : Nat) (h : e < 64) : (s.levelOn e i d).chainMode = s.chainMode := by
 have r := congrArg (fun x : State => x.chainMode) (s.levelOn_step e i d h).rest
 exact r
@[simp] theorem State.levelOn_boot (e i d : Nat) (h : e < 64) : (s.levelOn e i d).boot = s.boot := by
 have r := congrArg (fun x : State => x.boot) (s.levelOn_step e i d h).rest
 exact r
@[simp] theorem State.levelOn_power (e i d : Nat) (h : e < 64) : (s.levelOn e i d).power = s.power := by
 have r := congrArg (fun x : State => x.power) (s.levelOn_step e i d h).rest
 exact r
@[simp] theorem State.levelOn_surv (e i d : Nat) (h : e < 64) : (s.levelOn e i d).surv = s.surv := by
 have r := congrArg (fun x : State => x.surv) (s.levelOn_step e i d h).rest
 exact r
@[simp] theorem State.levelOn_nvm (e i d : Nat) (h : e < 64) : (s.levelOn e i d).nvm = s.nvm := by
 have r := congrArg (fun x : State => x.nvm) (s.levelOn_step e i d h).rest
 exact r
@[simp] theorem State.levelOn_otp (e i d : Nat) (h : e < 64) : (s.levelOn e i d).otp = s.otp := by
 have r := congrArg (fun x : State => x.otp) (s.levelOn_step e i d h).rest
 exact r
@[simp] theorem State.levelOn_flash (e i d : Nat) (h : e < 64) : (s.levelOn e i d).flash = s.flash := by
 have r := congrArg (fun x : State => x.flash) (s.levelOn_step e i d h).rest
 exact r
@[simp] theorem State.levelOn_free (e i d : Nat) (h : e < 64) : (s.levelOn e i d).free = s.free := by
 have r := congrArg (fun x : State => x.free) (s.levelOn_step e i d h).rest
 exact r

@[simp] theorem State.levelOff_now (e i d : Nat) : (s.levelOff e i d).now = s.now := (s.levelOff_step e i d).now
@[simp] theorem State.levelOff_rest (e i d : Nat) : (s.levelOff e i d).rest = s.rest := (s.levelOff_step e i d).rest
theorem State.levelOff_word (e i d : Nat) (r : Nat) (hr : evWord r = false) : (s.levelOff e i d).word r = s.word r := (s.levelOff_step e i d).word r hr
theorem State.levelOff_g (e i d : Nat) (f : Fld) (hr : evWord f.a = false) : (s.levelOff e i d).g f = s.g f := State.word_eq_of_g _ _ f ((s.levelOff_step e i d).word f.a hr)
@[simp] theorem State.levelOff_pending (e i d : Nat) : (s.levelOff e i d).pending = s.pending := by
 have r := congrArg (fun x : State => x.pending) (s.levelOff_step e i d).rest
 exact r
@[simp] theorem State.levelOff_dev (e i d : Nat) : (s.levelOff e i d).dev = s.dev := by
 have r := congrArg (fun x : State => x.dev) (s.levelOff_step e i d).rest
 exact r
@[simp] theorem State.levelOff_staged (e i d : Nat) : (s.levelOff e i d).staged = s.staged := by
 have r := congrArg (fun x : State => x.staged) (s.levelOff_step e i d).rest
 exact r
@[simp] theorem State.levelOff_groups (e i d : Nat) : (s.levelOff e i d).groups = s.groups := by
 have r := congrArg (fun x : State => x.groups) (s.levelOff_step e i d).rest
 exact r
@[simp] theorem State.levelOff_links (e i d : Nat) : (s.levelOff e i d).links = s.links := by
 have r := congrArg (fun x : State => x.links) (s.levelOff_step e i d).rest
 exact r
@[simp] theorem State.levelOff_grelas (e i d : Nat) : (s.levelOff e i d).grelas = s.grelas := by
 have r := congrArg (fun x : State => x.grelas) (s.levelOff_step e i d).rest
 exact r
@[simp] theorem State.levelOff_mbox (e i d : Nat) : (s.levelOff e i d).mbox = s.mbox := by
 have r := congrArg (fun x : State => x.mbox) (s.levelOff_step e i d).rest
 exact r
@[simp] theorem State.levelOff_indQ (e i d : Nat) : (s.levelOff e i d).indQ = s.indQ := by
 have r := congrArg (fun x : State => x.indQ) (s.levelOff_step e i d).rest
 exact r
@[simp] theorem State.levelOff_window (e i d : Nat) : (s.levelOff e i d).window = s.window := by
 have r := congrArg (fun x : State => x.window) (s.levelOff_step e i d).rest
 exact r
@[simp] theorem State.levelOff_cmds (e i d : Nat) : (s.levelOff e i d).cmds = s.cmds := by
 have r := congrArg (fun x : State => x.cmds) (s.levelOff_step e i d).rest
 exact r
@[simp] theorem State.levelOff_nextId (e i d : Nat) : (s.levelOff e i d).nextId = s.nextId := by
 have r := congrArg (fun x : State => x.nextId) (s.levelOff_step e i d).rest
 exact r
@[simp] theorem State.levelOff_lastEnd (e i d : Nat) : (s.levelOff e i d).lastEnd = s.lastEnd := by
 have r := congrArg (fun x : State => x.lastEnd) (s.levelOff_step e i d).rest
 exact r
@[simp] theorem State.levelOff_backlog (e i d : Nat) : (s.levelOff e i d).backlog = s.backlog := by
 have r := congrArg (fun x : State => x.backlog) (s.levelOff_step e i d).rest
 exact r
@[simp] theorem State.levelOff_tick (e i d : Nat) : (s.levelOff e i d).tick = s.tick := by
 have r := congrArg (fun x : State => x.tick) (s.levelOff_step e i d).rest
 exact r
@[simp] theorem State.levelOff_ecc (e i d : Nat) : (s.levelOff e i d).ecc = s.ecc := by
 have r := congrArg (fun x : State => x.ecc) (s.levelOff_step e i d).rest
 exact r
@[simp] theorem State.levelOff_axes (e i d : Nat) : (s.levelOff e i d).axes = s.axes := by
 have r := congrArg (fun x : State => x.axes) (s.levelOff_step e i d).rest
 exact r
@[simp] theorem State.levelOff_coils (e i d : Nat) : (s.levelOff e i d).coils = s.coils := by
 have r := congrArg (fun x : State => x.coils) (s.levelOff_step e i d).rest
 exact r
@[simp] theorem State.levelOff_stations (e i d : Nat) : (s.levelOff e i d).stations = s.stations := by
 have r := congrArg (fun x : State => x.stations) (s.levelOff_step e i d).rest
 exact r
@[simp] theorem State.levelOff_store (e i d : Nat) : (s.levelOff e i d).store = s.store := by
 have r := congrArg (fun x : State => x.store) (s.levelOff_step e i d).rest
 exact r
@[simp] theorem State.levelOff_chain (e i d : Nat) : (s.levelOff e i d).chain = s.chain := by
 have r := congrArg (fun x : State => x.chain) (s.levelOff_step e i d).rest
 exact r
@[simp] theorem State.levelOff_chainOut (e i d : Nat) : (s.levelOff e i d).chainOut = s.chainOut := by
 have r := congrArg (fun x : State => x.chainOut) (s.levelOff_step e i d).rest
 exact r
@[simp] theorem State.levelOff_chainRst (e i d : Nat) : (s.levelOff e i d).chainRst = s.chainRst := by
 have r := congrArg (fun x : State => x.chainRst) (s.levelOff_step e i d).rest
 exact r
@[simp] theorem State.levelOff_chainRej (e i d : Nat) : (s.levelOff e i d).chainRej = s.chainRej := by
 have r := congrArg (fun x : State => x.chainRej) (s.levelOff_step e i d).rest
 exact r
@[simp] theorem State.levelOff_chainReach (e i d : Nat) : (s.levelOff e i d).chainReach = s.chainReach := by
 have r := congrArg (fun x : State => x.chainReach) (s.levelOff_step e i d).rest
 exact r
@[simp] theorem State.levelOff_chainStall (e i d : Nat) : (s.levelOff e i d).chainStall = s.chainStall := by
 have r := congrArg (fun x : State => x.chainStall) (s.levelOff_step e i d).rest
 exact r
@[simp] theorem State.levelOff_chainMode (e i d : Nat) : (s.levelOff e i d).chainMode = s.chainMode := by
 have r := congrArg (fun x : State => x.chainMode) (s.levelOff_step e i d).rest
 exact r
@[simp] theorem State.levelOff_boot (e i d : Nat) : (s.levelOff e i d).boot = s.boot := by
 have r := congrArg (fun x : State => x.boot) (s.levelOff_step e i d).rest
 exact r
@[simp] theorem State.levelOff_power (e i d : Nat) : (s.levelOff e i d).power = s.power := by
 have r := congrArg (fun x : State => x.power) (s.levelOff_step e i d).rest
 exact r
@[simp] theorem State.levelOff_surv (e i d : Nat) : (s.levelOff e i d).surv = s.surv := by
 have r := congrArg (fun x : State => x.surv) (s.levelOff_step e i d).rest
 exact r
@[simp] theorem State.levelOff_nvm (e i d : Nat) : (s.levelOff e i d).nvm = s.nvm := by
 have r := congrArg (fun x : State => x.nvm) (s.levelOff_step e i d).rest
 exact r
@[simp] theorem State.levelOff_otp (e i d : Nat) : (s.levelOff e i d).otp = s.otp := by
 have r := congrArg (fun x : State => x.otp) (s.levelOff_step e i d).rest
 exact r
@[simp] theorem State.levelOff_flash (e i d : Nat) : (s.levelOff e i d).flash = s.flash := by
 have r := congrArg (fun x : State => x.flash) (s.levelOff_step e i d).rest
 exact r
@[simp] theorem State.levelOff_free (e i d : Nat) : (s.levelOff e i d).free = s.free := by
 have r := congrArg (fun x : State => x.free) (s.levelOff_step e i d).rest
 exact r

@[simp] theorem State.levelSet_now (e i : Nat) (b : Bool) (d : Nat) (h : e < 64) : (s.levelSet e i b d).now = s.now := (s.levelSet_step e i d b h).now
@[simp] theorem State.levelSet_rest (e i : Nat) (b : Bool) (d : Nat) (h : e < 64) : (s.levelSet e i b d).rest = s.rest := (s.levelSet_step e i d b h).rest
theorem State.levelSet_word (e i : Nat) (b : Bool) (d : Nat) (h : e < 64) (r : Nat) (hr : evWord r = false) : (s.levelSet e i b d).word r = s.word r := (s.levelSet_step e i d b h).word r hr
theorem State.levelSet_g (e i : Nat) (b : Bool) (d : Nat) (h : e < 64) (f : Fld) (hr : evWord f.a = false) : (s.levelSet e i b d).g f = s.g f := State.word_eq_of_g _ _ f ((s.levelSet_step e i d b h).word f.a hr)
@[simp] theorem State.levelSet_pending (e i : Nat) (b : Bool) (d : Nat) (h : e < 64) : (s.levelSet e i b d).pending = s.pending := by
 have r := congrArg (fun x : State => x.pending) (s.levelSet_step e i d b h).rest
 exact r
@[simp] theorem State.levelSet_dev (e i : Nat) (b : Bool) (d : Nat) (h : e < 64) : (s.levelSet e i b d).dev = s.dev := by
 have r := congrArg (fun x : State => x.dev) (s.levelSet_step e i d b h).rest
 exact r
@[simp] theorem State.levelSet_staged (e i : Nat) (b : Bool) (d : Nat) (h : e < 64) : (s.levelSet e i b d).staged = s.staged := by
 have r := congrArg (fun x : State => x.staged) (s.levelSet_step e i d b h).rest
 exact r
@[simp] theorem State.levelSet_groups (e i : Nat) (b : Bool) (d : Nat) (h : e < 64) : (s.levelSet e i b d).groups = s.groups := by
 have r := congrArg (fun x : State => x.groups) (s.levelSet_step e i d b h).rest
 exact r
@[simp] theorem State.levelSet_links (e i : Nat) (b : Bool) (d : Nat) (h : e < 64) : (s.levelSet e i b d).links = s.links := by
 have r := congrArg (fun x : State => x.links) (s.levelSet_step e i d b h).rest
 exact r
@[simp] theorem State.levelSet_grelas (e i : Nat) (b : Bool) (d : Nat) (h : e < 64) : (s.levelSet e i b d).grelas = s.grelas := by
 have r := congrArg (fun x : State => x.grelas) (s.levelSet_step e i d b h).rest
 exact r
@[simp] theorem State.levelSet_mbox (e i : Nat) (b : Bool) (d : Nat) (h : e < 64) : (s.levelSet e i b d).mbox = s.mbox := by
 have r := congrArg (fun x : State => x.mbox) (s.levelSet_step e i d b h).rest
 exact r
@[simp] theorem State.levelSet_indQ (e i : Nat) (b : Bool) (d : Nat) (h : e < 64) : (s.levelSet e i b d).indQ = s.indQ := by
 have r := congrArg (fun x : State => x.indQ) (s.levelSet_step e i d b h).rest
 exact r
@[simp] theorem State.levelSet_window (e i : Nat) (b : Bool) (d : Nat) (h : e < 64) : (s.levelSet e i b d).window = s.window := by
 have r := congrArg (fun x : State => x.window) (s.levelSet_step e i d b h).rest
 exact r
@[simp] theorem State.levelSet_cmds (e i : Nat) (b : Bool) (d : Nat) (h : e < 64) : (s.levelSet e i b d).cmds = s.cmds := by
 have r := congrArg (fun x : State => x.cmds) (s.levelSet_step e i d b h).rest
 exact r
@[simp] theorem State.levelSet_nextId (e i : Nat) (b : Bool) (d : Nat) (h : e < 64) : (s.levelSet e i b d).nextId = s.nextId := by
 have r := congrArg (fun x : State => x.nextId) (s.levelSet_step e i d b h).rest
 exact r
@[simp] theorem State.levelSet_lastEnd (e i : Nat) (b : Bool) (d : Nat) (h : e < 64) : (s.levelSet e i b d).lastEnd = s.lastEnd := by
 have r := congrArg (fun x : State => x.lastEnd) (s.levelSet_step e i d b h).rest
 exact r
@[simp] theorem State.levelSet_backlog (e i : Nat) (b : Bool) (d : Nat) (h : e < 64) : (s.levelSet e i b d).backlog = s.backlog := by
 have r := congrArg (fun x : State => x.backlog) (s.levelSet_step e i d b h).rest
 exact r
@[simp] theorem State.levelSet_tick (e i : Nat) (b : Bool) (d : Nat) (h : e < 64) : (s.levelSet e i b d).tick = s.tick := by
 have r := congrArg (fun x : State => x.tick) (s.levelSet_step e i d b h).rest
 exact r
@[simp] theorem State.levelSet_ecc (e i : Nat) (b : Bool) (d : Nat) (h : e < 64) : (s.levelSet e i b d).ecc = s.ecc := by
 have r := congrArg (fun x : State => x.ecc) (s.levelSet_step e i d b h).rest
 exact r
@[simp] theorem State.levelSet_axes (e i : Nat) (b : Bool) (d : Nat) (h : e < 64) : (s.levelSet e i b d).axes = s.axes := by
 have r := congrArg (fun x : State => x.axes) (s.levelSet_step e i d b h).rest
 exact r
@[simp] theorem State.levelSet_coils (e i : Nat) (b : Bool) (d : Nat) (h : e < 64) : (s.levelSet e i b d).coils = s.coils := by
 have r := congrArg (fun x : State => x.coils) (s.levelSet_step e i d b h).rest
 exact r
@[simp] theorem State.levelSet_stations (e i : Nat) (b : Bool) (d : Nat) (h : e < 64) : (s.levelSet e i b d).stations = s.stations := by
 have r := congrArg (fun x : State => x.stations) (s.levelSet_step e i d b h).rest
 exact r
@[simp] theorem State.levelSet_store (e i : Nat) (b : Bool) (d : Nat) (h : e < 64) : (s.levelSet e i b d).store = s.store := by
 have r := congrArg (fun x : State => x.store) (s.levelSet_step e i d b h).rest
 exact r
@[simp] theorem State.levelSet_chain (e i : Nat) (b : Bool) (d : Nat) (h : e < 64) : (s.levelSet e i b d).chain = s.chain := by
 have r := congrArg (fun x : State => x.chain) (s.levelSet_step e i d b h).rest
 exact r
@[simp] theorem State.levelSet_chainOut (e i : Nat) (b : Bool) (d : Nat) (h : e < 64) : (s.levelSet e i b d).chainOut = s.chainOut := by
 have r := congrArg (fun x : State => x.chainOut) (s.levelSet_step e i d b h).rest
 exact r
@[simp] theorem State.levelSet_chainRst (e i : Nat) (b : Bool) (d : Nat) (h : e < 64) : (s.levelSet e i b d).chainRst = s.chainRst := by
 have r := congrArg (fun x : State => x.chainRst) (s.levelSet_step e i d b h).rest
 exact r
@[simp] theorem State.levelSet_chainRej (e i : Nat) (b : Bool) (d : Nat) (h : e < 64) : (s.levelSet e i b d).chainRej = s.chainRej := by
 have r := congrArg (fun x : State => x.chainRej) (s.levelSet_step e i d b h).rest
 exact r
@[simp] theorem State.levelSet_chainReach (e i : Nat) (b : Bool) (d : Nat) (h : e < 64) : (s.levelSet e i b d).chainReach = s.chainReach := by
 have r := congrArg (fun x : State => x.chainReach) (s.levelSet_step e i d b h).rest
 exact r
@[simp] theorem State.levelSet_chainStall (e i : Nat) (b : Bool) (d : Nat) (h : e < 64) : (s.levelSet e i b d).chainStall = s.chainStall := by
 have r := congrArg (fun x : State => x.chainStall) (s.levelSet_step e i d b h).rest
 exact r
@[simp] theorem State.levelSet_chainMode (e i : Nat) (b : Bool) (d : Nat) (h : e < 64) : (s.levelSet e i b d).chainMode = s.chainMode := by
 have r := congrArg (fun x : State => x.chainMode) (s.levelSet_step e i d b h).rest
 exact r
@[simp] theorem State.levelSet_boot (e i : Nat) (b : Bool) (d : Nat) (h : e < 64) : (s.levelSet e i b d).boot = s.boot := by
 have r := congrArg (fun x : State => x.boot) (s.levelSet_step e i d b h).rest
 exact r
@[simp] theorem State.levelSet_power (e i : Nat) (b : Bool) (d : Nat) (h : e < 64) : (s.levelSet e i b d).power = s.power := by
 have r := congrArg (fun x : State => x.power) (s.levelSet_step e i d b h).rest
 exact r
@[simp] theorem State.levelSet_surv (e i : Nat) (b : Bool) (d : Nat) (h : e < 64) : (s.levelSet e i b d).surv = s.surv := by
 have r := congrArg (fun x : State => x.surv) (s.levelSet_step e i d b h).rest
 exact r
@[simp] theorem State.levelSet_nvm (e i : Nat) (b : Bool) (d : Nat) (h : e < 64) : (s.levelSet e i b d).nvm = s.nvm := by
 have r := congrArg (fun x : State => x.nvm) (s.levelSet_step e i d b h).rest
 exact r
@[simp] theorem State.levelSet_otp (e i : Nat) (b : Bool) (d : Nat) (h : e < 64) : (s.levelSet e i b d).otp = s.otp := by
 have r := congrArg (fun x : State => x.otp) (s.levelSet_step e i d b h).rest
 exact r
@[simp] theorem State.levelSet_flash (e i : Nat) (b : Bool) (d : Nat) (h : e < 64) : (s.levelSet e i b d).flash = s.flash := by
 have r := congrArg (fun x : State => x.flash) (s.levelSet_step e i d b h).rest
 exact r
@[simp] theorem State.levelSet_free (e i : Nat) (b : Bool) (d : Nat) (h : e < 64) : (s.levelSet e i b d).free = s.free := by
 have r := congrArg (fun x : State => x.free) (s.levelSet_step e i d b h).rest
 exact r

@[simp] theorem State.settle_now : (s.settle).now = s.now := (s.settle_step).now
@[simp] theorem State.settle_rest : (s.settle).rest = s.rest := (s.settle_step).rest
theorem State.settle_word (r : Nat) (hr : evWord r = false) : (s.settle).word r = s.word r := (s.settle_step).word r hr
theorem State.settle_g (f : Fld) (hr : evWord f.a = false) : (s.settle).g f = s.g f := State.word_eq_of_g _ _ f ((s.settle_step).word f.a hr)
@[simp] theorem State.settle_pending : (s.settle).pending = s.pending := by
 have r := congrArg (fun x : State => x.pending) (s.settle_step).rest
 exact r
@[simp] theorem State.settle_dev : (s.settle).dev = s.dev := by
 have r := congrArg (fun x : State => x.dev) (s.settle_step).rest
 exact r
@[simp] theorem State.settle_staged : (s.settle).staged = s.staged := by
 have r := congrArg (fun x : State => x.staged) (s.settle_step).rest
 exact r
@[simp] theorem State.settle_groups : (s.settle).groups = s.groups := by
 have r := congrArg (fun x : State => x.groups) (s.settle_step).rest
 exact r
@[simp] theorem State.settle_links : (s.settle).links = s.links := by
 have r := congrArg (fun x : State => x.links) (s.settle_step).rest
 exact r
@[simp] theorem State.settle_grelas : (s.settle).grelas = s.grelas := by
 have r := congrArg (fun x : State => x.grelas) (s.settle_step).rest
 exact r
@[simp] theorem State.settle_mbox : (s.settle).mbox = s.mbox := by
 have r := congrArg (fun x : State => x.mbox) (s.settle_step).rest
 exact r
@[simp] theorem State.settle_indQ : (s.settle).indQ = s.indQ := by
 have r := congrArg (fun x : State => x.indQ) (s.settle_step).rest
 exact r
@[simp] theorem State.settle_window : (s.settle).window = s.window := by
 have r := congrArg (fun x : State => x.window) (s.settle_step).rest
 exact r
@[simp] theorem State.settle_cmds : (s.settle).cmds = s.cmds := by
 have r := congrArg (fun x : State => x.cmds) (s.settle_step).rest
 exact r
@[simp] theorem State.settle_nextId : (s.settle).nextId = s.nextId := by
 have r := congrArg (fun x : State => x.nextId) (s.settle_step).rest
 exact r
@[simp] theorem State.settle_lastEnd : (s.settle).lastEnd = s.lastEnd := by
 have r := congrArg (fun x : State => x.lastEnd) (s.settle_step).rest
 exact r
@[simp] theorem State.settle_backlog : (s.settle).backlog = s.backlog := by
 have r := congrArg (fun x : State => x.backlog) (s.settle_step).rest
 exact r
@[simp] theorem State.settle_tick : (s.settle).tick = s.tick := by
 have r := congrArg (fun x : State => x.tick) (s.settle_step).rest
 exact r
@[simp] theorem State.settle_ecc : (s.settle).ecc = s.ecc := by
 have r := congrArg (fun x : State => x.ecc) (s.settle_step).rest
 exact r
@[simp] theorem State.settle_axes : (s.settle).axes = s.axes := by
 have r := congrArg (fun x : State => x.axes) (s.settle_step).rest
 exact r
@[simp] theorem State.settle_coils : (s.settle).coils = s.coils := by
 have r := congrArg (fun x : State => x.coils) (s.settle_step).rest
 exact r
@[simp] theorem State.settle_stations : (s.settle).stations = s.stations := by
 have r := congrArg (fun x : State => x.stations) (s.settle_step).rest
 exact r
@[simp] theorem State.settle_store : (s.settle).store = s.store := by
 have r := congrArg (fun x : State => x.store) (s.settle_step).rest
 exact r
@[simp] theorem State.settle_chain : (s.settle).chain = s.chain := by
 have r := congrArg (fun x : State => x.chain) (s.settle_step).rest
 exact r
@[simp] theorem State.settle_chainOut : (s.settle).chainOut = s.chainOut := by
 have r := congrArg (fun x : State => x.chainOut) (s.settle_step).rest
 exact r
@[simp] theorem State.settle_chainRst : (s.settle).chainRst = s.chainRst := by
 have r := congrArg (fun x : State => x.chainRst) (s.settle_step).rest
 exact r
@[simp] theorem State.settle_chainRej : (s.settle).chainRej = s.chainRej := by
 have r := congrArg (fun x : State => x.chainRej) (s.settle_step).rest
 exact r
@[simp] theorem State.settle_chainReach : (s.settle).chainReach = s.chainReach := by
 have r := congrArg (fun x : State => x.chainReach) (s.settle_step).rest
 exact r
@[simp] theorem State.settle_chainStall : (s.settle).chainStall = s.chainStall := by
 have r := congrArg (fun x : State => x.chainStall) (s.settle_step).rest
 exact r
@[simp] theorem State.settle_chainMode : (s.settle).chainMode = s.chainMode := by
 have r := congrArg (fun x : State => x.chainMode) (s.settle_step).rest
 exact r
@[simp] theorem State.settle_boot : (s.settle).boot = s.boot := by
 have r := congrArg (fun x : State => x.boot) (s.settle_step).rest
 exact r
@[simp] theorem State.settle_power : (s.settle).power = s.power := by
 have r := congrArg (fun x : State => x.power) (s.settle_step).rest
 exact r
@[simp] theorem State.settle_surv : (s.settle).surv = s.surv := by
 have r := congrArg (fun x : State => x.surv) (s.settle_step).rest
 exact r
@[simp] theorem State.settle_nvm : (s.settle).nvm = s.nvm := by
 have r := congrArg (fun x : State => x.nvm) (s.settle_step).rest
 exact r
@[simp] theorem State.settle_otp : (s.settle).otp = s.otp := by
 have r := congrArg (fun x : State => x.otp) (s.settle_step).rest
 exact r
@[simp] theorem State.settle_flash : (s.settle).flash = s.flash := by
 have r := congrArg (fun x : State => x.flash) (s.settle_step).rest
 exact r
@[simp] theorem State.settle_free : (s.settle).free = s.free := by
 have r := congrArg (fun x : State => x.free) (s.settle_step).rest
 exact r

end Sys2Proof.Machine
end

