-- ==== Sys2Proof/Laws/Settle.lean ====
section
/-!
SUPPORT. The end of a command's cycle: it leaves a settled state, and it changes nothing of a state that is settled already.
-/

namespace Sys2Proof.Machine

variable (s : State)

/-- What the conditions of the two levels of ring 11 read stays over a step of the event system that keeps ring 11. -/
theorem State.evStep.backlogged {a b : State} (h : a.evStep b) : b.backlogged = a.backlogged := by
  unfold State.backlogged
  have r := congrArg (fun x : State => x.backlog) h.rest
  rw [show b.backlog = a.backlog from r]

theorem State.evStep.ring0 {a b : State} (h : a.evStep b) : b.rings[0] = a.rings[0] := by
  have r := congrArg (fun t : State => t.rings[0]) h.rest
  simpa [State.rest, vupd] using r

theorem State.evStep.waterHit0 {a b : State} (h : a.evStep b) : b.waterHit 0 = a.waterHit 0 := by
  unfold State.waterHit State.heldRecs
  have hw : b.g (RRNG_CFG_WATER (11 + (0 : Fin 5).val)) = a.g (RRNG_CFG_WATER (11 + (0 : Fin 5).val)) :=
    State.word_eq_of_g _ _ _ (h.word _ (by simp [evWord]))
  have hr := h.ring0
  rw [show b.rings[(0 : Fin 5)] = a.rings[(0 : Fin 5)] from hr]
  rw [hw]

theorem State.evStep.flOn_eq {a b : State} (h : a.evStep b) : b.flOn = a.flOn := by
  unfold State.flOn
  have r := congrArg (fun x : State => x.power) h.rest
  rw [show b.power = a.power from r]

/-- What holds of both branches, each under its condition, holds of the conditional. -/
theorem ite_bool_ind {α : Type} (P : α → Prop) (c : Bool) (x y : α) (hx : c = true → P x) (hy : c = false → P y) :
    P (if c then x else y) := by
  cases c
  · exact hy rfl
  · exact hx rfl

theorem State.heldRecs_of_rings {a b : State} (h : a.rings = b.rings) (q : Fin 5) : a.heldRecs q = b.heldRecs q := by
  unfold State.heldRecs
  rw [h]

theorem State.postEvent_evLost (r : EvRec) :
    ((s.postEvent r).evLost ≠ 0 → 255 ≤ (s.postEvent r).heldRecs 1) ∨
      ((s.postEvent r).evLost = s.evLost ∧ (s.postEvent r).heldRecs 1 = s.heldRecs 1 + 1) := by
  by_cases h : s.heldRecs 1 < 255
  · rw [show s.postEvent r = s.ring 1 fun q => q.push (eventRec q.next r) from if_pos h]
    right
    simp [State.heldRecs, RecRing.push, vupd]
  · rw [show s.postEvent r = ({ s with evLost := s.evLost + 1 } : State).inc (RRNG_CNT_OVF 12) from if_neg h, State.inc_eq]
    left
    intro _
    rw [State.heldRecs_of_rings (State.put_rings _ _ _) 1]
    exact Nat.le_of_not_lt h

theorem State.postEvent_fields (r : EvRec) : (s.postEvent r).levels = s.levels ∧ (s.postEvent r).evq = s.evq := by
  by_cases h : s.heldRecs 1 < 255
  · rw [show s.postEvent r = s.ring 1 fun q => q.push (eventRec q.next r) from if_pos h]
    exact ⟨State.ring_levels _ _ _, State.ring_evq _ _ _⟩
  · rw [show s.postEvent r = ({ s with evLost := s.evLost + 1 } : State).inc (RRNG_CNT_OVF 12) from if_neg h, State.inc_eq]
    exact ⟨State.put_levels _ _ _, State.put_evq _ _ _⟩

theorem State.evMark_evLost (e : Nat) : (s.evMark e).evLost = s.evLost := by
  unfold State.evMark
  dsimp only
  split <;> rfl

theorem State.evLostNote_evLost : s.evLostNote.evLost = 0 := by
  unfold State.evLostNote
  generalize min 4095 s.evLost = i
  exact ite_bool_ind (fun t : State => t.evLost = 0) _ _ _
    (fun _ => (State.ring_evLost _ _ _).trans (State.evMark_evLost _ 7)) fun _ => State.evMark_evLost _ 7

theorem State.evLostNote_levels : s.evLostNote.levels = s.levels := by
  unfold State.evLostNote
  generalize min 4095 s.evLost = i
  exact ite_bool_ind (fun t : State => t.levels = s.levels) _ _ _
    (fun _ => (State.ring_levels _ _ _).trans (State.evMark_levels _ 7)) fun _ => State.evMark_levels _ 7

theorem State.evLostFlush_lost : s.flOn = true → s.evLostFlush.evLost ≠ 0 → 255 ≤ s.evLostFlush.heldRecs 1 := by
  intro hf
  by_cases h : (s.evLost != 0 && s.flOn && s.heldRecs 1 < 255) = true
  · rw [show s.evLostFlush = s.evLostNote from if_pos h]
    exact fun hl => absurd s.evLostNote_evLost hl
  · rw [show s.evLostFlush = s from if_neg h]
    intro hl
    refine Nat.le_of_not_lt fun hc => h ?_
    rw [hf, bne_iff_ne.mpr hl, decide_eq_true hc]
    rfl

theorem State.evLostFlush_levels : s.evLostFlush.levels = s.levels := by
  by_cases h : (s.evLost != 0 && s.flOn && s.heldRecs 1 < 255) = true
  · rw [show s.evLostFlush = s.evLostNote from if_pos h]
    exact s.evLostNote_levels
  · rw [show s.evLostFlush = s from if_neg h]

/-- The state at the end of a cycle is settled (R245, R248, R480, R482). -/
theorem State.settle_settled : s.settle.settled := by
  unfold State.settle
  dsimp only
  have e1 := s.levelSet_step 48 0 0 s.backlogged (by omega)
  have l1 : ∀ e i, (s.levelSet 48 0 s.backlogged 0).level e i = if (e, i) = (48, 0) then s.backlogged else s.level e i :=
    fun e i => s.levelSet_level 48 0 0 s.backlogged e i
  generalize s.levelSet 48 0 s.backlogged 0 = a at *
  have e2 := a.levelSet_step 49 0 0 (a.flOn && a.waterHit 0) (by omega)
  have l2 := fun e i => a.levelSet_level 49 0 0 (a.flOn && a.waterHit 0) e i
  generalize a.levelSet 49 0 (a.flOn && a.waterHit 0) 0 = b at *
  have e3 := b.evLostFlush_step
  have l3 := b.evLostFlush_levels
  have q3 := b.evLostFlush_lost
  generalize b.evLostFlush = c at *
  have e4 : c.evStep { c with evq := [] } := State.evStep.of_regs rfl rfl rfl
  -- the fold over the records keeps what matters
  have key : ∀ l : List EvRec,
      let t := l.foldl (fun s r => s.postEvent r) { c with evq := [] }
      State.evStep { c with evq := [] } t ∧ t.levels = c.levels ∧ t.evq = [] ∧
        (c.flOn = true → t.evLost ≠ 0 → 255 ≤ t.heldRecs 1) := by
    intro l
    refine foldl_ind (fun t : State => State.evStep { c with evq := [] } t ∧ t.levels = c.levels ∧ t.evq = [] ∧
        (c.flOn = true → t.evLost ≠ 0 → 255 ≤ t.heldRecs 1)) l _ ?_ _ ?_
    · rintro t r ⟨h1, h2, h3, h4⟩
      have hp := t.postEvent_fields r
      refine ⟨h1.trans (t.postEvent_step r), hp.1.trans h2, hp.2.trans h3, fun hf hl => ?_⟩
      rcases t.postEvent_evLost r with k | ⟨k1, k2⟩
      · exact k hl
      · rw [k2]
        have := h4 hf (by rwa [k1] at hl)
        omega
    · refine ⟨State.evStep.refl _, rfl, rfl, fun hf hl => ?_⟩
      have hb : b.flOn = true := by rw [← e3.flOn_eq]; exact hf
      exact q3 hb hl
  obtain ⟨h1, h2, h3, h4⟩ := key (if c.flOn then evSort c.evq else [])
  generalize (if c.flOn then evSort c.evq else []).foldl (fun s r => s.postEvent r) { c with evq := [] } = t at *
  have et : s.evStep t := e1.trans (e2.trans (e3.trans (e4.trans h1)))
  have ea : a.evStep t := e2.trans (e3.trans (e4.trans h1))
  have lt : ∀ e i, t.level e i = b.level e i := by
    intro e i
    unfold State.level
    rw [h2, l3]
  refine ⟨h3, ?_, ?_, fun hl hf => h4 ?_ hl⟩
  · rw [lt, l2, et.backlogged]
    simp [l1]
  · rw [lt, l2, ea.flOn_eq, ea.waterHit0]
    simp
  · rw [(e4.trans h1).flOn_eq] at hf
    exact hf

theorem State.levelOn_of (e i d : Nat) (h : s.level e i = true) : s.levelOn e i d = s := by
  unfold State.levelOn; rw [h]; rfl

theorem State.levelOff_of (e i d : Nat) (h : s.level e i = false) : s.levelOff e i d = s := by
  unfold State.levelOff; rw [h]; rfl

/-- The end of a cycle changes nothing of a settled state. -/
theorem State.settle_of_settled (h : s.settled) : s.settle = s := by
  obtain ⟨h1, h2, h3, h4⟩ := h
  have a1 : s.levelSet 48 0 s.backlogged 0 = s := by
    unfold State.levelSet
    split
    · next k => exact s.levelOn_of _ _ _ (h2.mpr k)
    · next k => exact s.levelOff_of _ _ _ (by simpa using fun q => k (h2.mp q))
  have a2 : s.levelSet 49 0 (s.flOn && s.waterHit 0) 0 = s := by
    unfold State.levelSet
    split
    · next k => exact s.levelOn_of _ _ _ (h3.mpr k)
    · next k => exact s.levelOff_of _ _ _ (by simpa using fun q => k (h3.mp q))
  have a3 : s.evLostFlush = s := by
    unfold State.evLostFlush
    split
    · next k =>
      simp only [Bool.and_eq_true, bne_iff_ne, ne_eq, decide_eq_true_eq] at k
      have := h4 k.1.1 k.1.2
      omega
    · rfl
  unfold State.settle
  dsimp only
  rw [a1, a2, a3, h1]
  have : evSort [] = [] := rfl
  simp only [this, ite_self, List.foldl_nil]
  rw [← h1]

end Sys2Proof.Machine
end

