-- ==== Sys2Proof/Laws/Frames.lean ====
section
/-!
SUPPORT. How a command's frame is read off its meaning: `State.sameBut` is kept by every write of a listed register, by every
operation of the event system, and by the end of the cycle.
-/

namespace Sys2Proof.Machine

/-- A command whose meaning is an effect completes in that effect's settled state. -/
theorem exec_next {c : Instr} {s e : State} {Q : State → Prop} (h : exec c s = done e) (q : Q e.settle) :
    ∃ t, exec c s = .next t ∧ Q t := ⟨e.settle, h, q⟩

variable {s t : State} {A : List Nat}

theorem State.keepsWords.refl : s.keepsWords s A := fun _ _ _ => rfl

theorem State.keepsWords.trans {u : State} (h : s.keepsWords t A) (k : t.keepsWords u A) : s.keepsWords u A :=
  fun a ha he => (k a ha he).trans (h a ha he)

theorem State.keepsWords.put (h : s.keepsWords t A) (f : Fld) (v : Nat) (hf : f.a ∈ A) : s.keepsWords (t.put f v) A := by
  intro a ha he
  rw [State.put_word_ne _ _ _ _ (fun (e : f.a = a) => ha (by rw [← e]; exact hf))]
  exact h a ha he

theorem State.keepsWords.setWord (h : s.keepsWords t A) (a : Nat) (w : Word) (hf : a ∈ A) : s.keepsWords (t.setWord a w) A := by
  intro b hb he
  rw [State.setWord_word_ne _ _ _ _ (fun (e : a = b) => hb (by rw [← e]; exact hf))]
  exact h b hb he

theorem State.keepsWords.putB (h : s.keepsWords t A) (f : Fld) (b : Bool) (hf : f.a ∈ A) : s.keepsWords (t.putB f b) A := h.put f _ hf
theorem State.keepsWords.putI (h : s.keepsWords t A) (f : Fld) (v : Int) (hf : f.a ∈ A) : s.keepsWords (t.putI f v) A := h.put f _ hf
theorem State.keepsWords.inc (h : s.keepsWords t A) (f : Fld) (hf : f.a ∈ A) : s.keepsWords (t.inc f) A := h.put f _ hf
theorem State.keepsWords.addSat (h : s.keepsWords t A) (f : Fld) (k : Nat) (hf : f.a ∈ A) : s.keepsWords (t.addSat f k) A := h.put f _ hf
theorem State.keepsWords.maxPut (h : s.keepsWords t A) (f : Fld) (v : Nat) (hf : f.a ∈ A) : s.keepsWords (t.maxPut f v) A := h.put f _ hf
theorem State.keepsWords.putBit (h : s.keepsWords t A) (f : Fld) (i : Nat) (b : Bool) (hf : f.a ∈ A) : s.keepsWords (t.putBit f i b) A := h.put f _ hf

theorem State.keepsWords.step {u : State} (h : s.keepsWords t A) (k : t.evStep u) : s.keepsWords u A :=
  fun a ha he => (k.word a he).trans (h a ha he)

theorem State.keepsWords.settle (h : s.keepsWords t A) : s.keepsWords t.settle A := h.step t.settle_step

/-- Two states of one register file. -/
theorem State.keepsWords.regs {u : State} (h : s.keepsWords t A) (e : u.regs = t.regs) : s.keepsWords u A := by
  intro a ha he
  rw [← h a ha he]
  unfold State.word
  rw [e]

/-- A change of no register. -/
theorem State.keepsWords.upd {pending now dev staged groups links grelas mbox indQ window cmds nextId lastEnd backlog rings evq evLost levels cap tick arb ecc axes coils stations ctxs store chain chainOut chainRst chainRej chainReach chainStall chainMode boot power surv nvm otp flash free cyc}
    (h : s.keepsWords t A) :
    s.keepsWords ⟨⟨dev, t.regs, staged, groups, links, grelas, mbox, indQ, window, cmds, nextId, lastEnd, backlog, rings, evq, evLost, levels, cap, tick, arb, ecc, axes, coils, stations, ctxs, store, chain, chainOut, chainRst, chainRej, chainReach, chainStall, chainMode, boot, power, surv, nvm, otp, flash, free⟩, pending, now, cyc⟩ A := h.regs rfl

/-- The same of the state that is compared with. -/
theorem State.keepsWords.updL {pending now dev staged groups links grelas mbox indQ window cmds nextId lastEnd backlog rings evq evLost levels cap tick arb ecc axes coils stations ctxs store chain chainOut chainRst chainRej chainReach chainStall chainMode boot power surv nvm otp flash free cyc}
    (h : s.keepsWords t A) :
    State.keepsWords ⟨⟨dev, s.regs, staged, groups, links, grelas, mbox, indQ, window, cmds, nextId, lastEnd, backlog, rings, evq, evLost, levels, cap, tick, arb, ecc, axes, coils, stations, ctxs, store, chain, chainOut, chainRst, chainRej, chainReach, chainStall, chainMode, boot, power, surv, nvm, otp, flash, free⟩, pending, now, cyc⟩ t A := fun a ha he => h a ha he

theorem State.sameBut.refl : s.sameBut s A := ⟨rfl, rfl, fun _ _ _ => rfl⟩

theorem State.sameBut.put (h : s.sameBut t A) (f : Fld) (v : Nat) (hf : f.a ∈ A) : s.sameBut (t.put f v) A := by
  refine ⟨h.1, h.2.1, fun a ha he => ?_⟩
  rw [State.put_word_ne _ _ _ _ (fun (e : f.a = a) => ha (by rw [← e]; exact hf))]
  exact h.2.2 a ha he

theorem State.sameBut.setWord (h : s.sameBut t A) (a : Nat) (w : Word) (hf : a ∈ A) : s.sameBut (t.setWord a w) A := by
  refine ⟨h.1, h.2.1, fun b hb he => ?_⟩
  rw [State.setWord_word_ne _ _ _ _ (fun (e : a = b) => hb (by rw [← e]; exact hf))]
  exact h.2.2 b hb he

theorem State.sameBut.step {u : State} (h : s.sameBut t A) (k : t.evStep u) : s.sameBut u A :=
  ⟨k.now.trans h.1, k.rest.trans h.2.1, fun a ha he => (k.word a he).trans (h.2.2 a ha he)⟩

theorem State.sameBut.settle (h : s.sameBut t A) : s.sameBut t.settle A := h.step t.settle_step

/-- The same change of the rest on both sides. -/
theorem State.sameBut.rest {s' t' : State} (h : s.sameBut t A) (hn : s'.now = s.now) (hn' : t'.now = t.now)
    (hr : s.rest = t.rest → s'.rest = t'.rest) (hw : s'.regs = s.regs) (hw' : t'.regs = t.regs) : s'.sameBut t' A := by
  refine ⟨by rw [hn', hn]; exact h.1, (hr h.2.1.symm).symm, fun a ha he => ?_⟩
  have e : ∀ x y : State, x.regs = y.regs → x.word a = y.word a := fun x y k => by unfold State.word; rw [k]
  rw [e t' t hw', e s' s hw]
  exact h.2.2 a ha he

theorem State.sameBut.pw (h : s.sameBut t A) (f : PowerSt → PowerSt) : (s.pw f).sameBut (t.pw f) A :=
  h.rest rfl rfl (fun r => by rw [State.pw_rest, State.pw_rest, r]) rfl rfl

theorem State.sameBut.bt (h : s.sameBut t A) (f : BootSt → BootSt) : (s.bt f).sameBut (t.bt f) A :=
  h.rest rfl rfl (fun r => by rw [State.bt_rest, State.bt_rest, r]) rfl rfl

theorem State.sameBut.su (h : s.sameBut t A) (f : SurvSt → SurvSt) : (s.su f).sameBut (t.su f) A :=
  h.rest rfl rfl (fun r => by rw [State.su_rest, State.su_rest, r]) rfl rfl

theorem State.sameBut.nv (h : s.sameBut t A) (f : Nvm → Nvm) : (s.nv f).sameBut (t.nv f) A :=
  h.rest rfl rfl (fun r => by rw [State.nv_rest, State.nv_rest, r]) rfl rfl

theorem State.sameBut.lnk (h : s.sameBut t A) (l : Link) (f : LinkSt → LinkSt) : (s.lnk l f).sameBut (t.lnk l f) A :=
  h.rest rfl rfl (fun r => by rw [State.lnk_rest, State.lnk_rest, r]) rfl rfl

theorem State.sameBut.ax (h : s.sameBut t A) (n : Fin 8) (f : Axis → Axis) : (s.ax n f).sameBut (t.ax n f) A :=
  h.rest rfl rfl (fun r => by rw [State.ax_rest, State.ax_rest, r]) rfl rfl

theorem State.sameBut.co (h : s.sameBut t A) (c : Fin 16) (f : Coil → Coil) : (s.co c f).sameBut (t.co c f) A :=
  h.rest rfl rfl (fun r => by rw [State.co_rest, State.co_rest, r]) rfl rfl

theorem State.sameBut.stn (h : s.sameBut t A) (x : Fin 2) (f : Station → Station) : (s.stn x f).sameBut (t.stn x f) A :=
  h.rest rfl rfl (fun r => by rw [State.stn_rest, State.stn_rest, r]) rfl rfl

theorem State.sameBut.useFree (h : s.sameBut t A) : s.useFree.sameBut t.useFree A :=
  h.rest rfl rfl (fun r => by rw [State.useFree_rest, State.useFree_rest, r]) rfl rfl

/-- A register field reads, after the command, as its effect left it. -/
theorem State.settle_g' (f : Fld) (h : evWord f.a = false := by decide) : t.settle.g f = t.g f := t.settle_g f h

end Sys2Proof.Machine
end

