-- ==== Sys2Proof/Laws/Graver.lean ====
section
/-!
SUPPORT. What an entry to FAULT or to SAFE leaves behind: an axis in FAULT stays there, cause bits and pending events only rise,
and no axis changes its state but to FAULT or, out of a coordinated move, to QUIESCING.
-/

set_option linter.unusedTactic false
set_option linter.unreachableTactic false

namespace Sys2Proof.Machine

theorem bit_or (a b i : Nat) : bit (a ||| b) i = (bit a i || bit b i) := by
  unfold bit
  have h : ∀ x : Nat, (x / 2 ^ i % 2 == 1) = x.testBit i := by
    intro x; rw [Nat.testBit_eq_decide_div_mod_eq]; rfl
  rw [h, h, h, Nat.testBit_or]

theorem bit_mod (a w i : Nat) (h : i < w) : bit (a % 2 ^ w) i = bit a i := by
  unfold bit
  have k : ∀ x : Nat, (x / 2 ^ i % 2 == 1) = x.testBit i := by
    intro x; rw [Nat.testBit_eq_decide_div_mod_eq]; rfl
  rw [k, k, Nat.testBit_mod_two_pow]
  simp [h]

theorem bit_lt (a w i : Nat) (ha : a < 2 ^ w) (h : bit a i = true) : i < w := by
  have k : (a / 2 ^ i % 2 == 1) = a.testBit i := by
    rw [Nat.testBit_eq_decide_div_mod_eq]; rfl
  unfold bit at h
  rw [k] at h
  rcases Nat.lt_or_ge i w with c | c
  · exact c
  · rw [Nat.testBit_lt_two_pow (Nat.lt_of_lt_of_le ha (Nat.pow_le_pow_right (by omega) c))] at h
    cases h

/-- A register that holds neither fault causes nor pending events. -/
def State.graverFld (f : Fld) : Bool :=
  !(decide (0x168 ≤ f.a) && decide (f.a < 0x170)) && !(decide (0x800 ≤ f.a) && decide (f.a < 0x1000) && f.a % 256 == 2) &&
    !(decide (0x200 ≤ f.a) && decide (f.a < 0x280) && f.a % 16 == 14) && !(f.a == 0x10)

theorem graverFld_iff (f : Fld) : State.graverFld f = true ↔ ¬(0x168 ≤ f.a ∧ f.a < 0x170) ∧
    ¬(0x800 ≤ f.a ∧ f.a < 0x1000 ∧ f.a % 256 = 2) ∧ ¬(0x200 ≤ f.a ∧ f.a < 0x280 ∧ f.a % 16 = 14) ∧ ¬ f.a = 0x10 := by
  unfold State.graverFld
  simp only [Bool.and_eq_true, Bool.not_eq_true', Bool.and_eq_false_iff, decide_eq_false_iff_not, beq_eq_false_iff_ne]
  omega

/-- What only rises. -/
structure State.graver (s t : State) : Prop where
  st : ∀ n : Fin 8, t.axes[n].st = s.axes[n].st ∨ t.axes[n].st = .fault ∨ (s.axes[n].st = .moving ∧ t.axes[n].st = .quiescing)
  pwr : ∀ (n : Fin 8) (i : Nat), bit (s.g (PWR_FLTCAUSE_BITS n)) i = true → bit (t.g (PWR_FLTCAUSE_BITS n)) i = true
  flt : ∀ (n : Fin 8) (i : Nat), bit (s.g (AX_FAULT_BITS n)) i = true → bit (t.g (AX_FAULT_BITS n)) i = true
  pend : ∀ e, e < 64 → s.evPending e = true → t.evPending e = true
  cause : ∀ i, bit (s.g DEV_STATE_SAFE_CAUSE) i = true → bit (t.g DEV_STATE_SAFE_CAUSE) i = true

namespace State.graver
variable {s t a b : State}

theorem refl : s.graver s := ⟨fun _ => .inl rfl, fun _ _ h => h, fun _ _ h => h, fun _ _ h => h, fun _ h => h⟩

theorem trans {u : State} (h : s.graver t) (k : t.graver u) : s.graver u := by
  refine ⟨fun n => ?_, fun n i x => k.pwr n i (h.pwr n i x), fun n i x => k.flt n i (h.flt n i x), fun e l x => k.pend e l (h.pend e l x), fun i x => k.cause i (h.cause i x)⟩
  rcases h.st n with p | p | ⟨p, q⟩ <;> rcases k.st n with p' | p' | ⟨p', q'⟩ <;> simp_all

theorem fault (h : s.graver t) {n : Fin 8} (e : s.axes[n].st = .fault) : t.axes[n].st = .fault := by
  rcases h.st n with p | p | ⟨p, _⟩ <;> simp_all

theorem ite {c : Prop} [Decidable c] (ha : s.graver a) (hb : s.graver b) : s.graver (if c then a else b) := by
  split <;> assumption

theorem dite {c : Prop} [Decidable c] {a : c → State} {b : ¬c → State} (ha : ∀ h, s.graver (a h))
    (hb : ∀ h, s.graver (b h)) : s.graver (if h : c then a h else b h) := by
  split
  · exact ha _
  · exact hb _

theorem foldl {ι : Type} {l : List ι} {f : State → ι → State} (hf : ∀ x i, s.graver x → s.graver (f x i))
    (ha : s.graver a) : s.graver (l.foldl f a) := foldl_ind (fun t => s.graver t) l f hf a ha

theorem forFin {k : Nat} {f : Fin k → State → State} (hf : ∀ i x, s.graver x → s.graver (f i x))
    (ha : s.graver a) : s.graver (Machine.forFin k f a) := forFin_ind (fun t => s.graver t) k f hf a ha

/-- A change of neither registers nor axes. -/
theorem upd {pending now dev staged groups links grelas indQ window nextId store chain chainOut chainRst chainMode nvm otp flash
    mbox cmds lastEnd backlog rings evq evLost levels cap tick arb ecc coils stations ctxs chainRej chainReach
    chainStall boot power surv free cyc} (h : s.graver t) :
    s.graver ⟨⟨dev, t.regs, staged, groups, links, grelas, mbox, indQ, window, cmds, nextId, lastEnd,
      backlog, rings, evq, evLost, levels, cap, tick, arb, ecc, t.axes, coils, stations, ctxs, store, chain, chainOut, chainRst,
      chainRej, chainReach, chainStall, chainMode, boot, power, surv, nvm, otp, flash, free⟩, pending, now, cyc⟩ :=
  ⟨h.st, h.pwr, h.flt, h.pend, h.cause⟩

theorem setWordA (h : s.graver t) (a : Nat) (w : Word) (ha : ¬(0x168 ≤ a ∧ a < 0x170) ∧
    ¬(0x800 ≤ a ∧ a < 0x1000 ∧ a % 256 = 2) ∧ ¬(0x200 ≤ a ∧ a < 0x280 ∧ a % 16 = 14) ∧ ¬ a = 0x10) : s.graver (t.setWord a w) := by
  have k : ∀ f : Fld, f.a ≠ a → (t.setWord a w).g f = t.g f := fun f hf => by
    unfold State.g; rw [State.setWord_word_ne _ _ _ _ (fun e => hf e.symm)]
  refine h.trans ⟨fun _ => .inl rfl, fun n i x => ?_, fun n i x => ?_, fun e l x => ?_, fun i x => ?_⟩
  · rw [k _ (by simp; omega)]; exact x
  · rw [k _ (by simp; omega)]; exact x
  · unfold State.evPending State.gBit at x ⊢
    rw [k _ (by simp; omega)]; exact x
  · rw [k _ (by simp; omega)]; exact x

theorem setWord (h : s.graver t) (a : Nat) (w : Word) (ha : State.graverFld ⟨a, 0, 0⟩ = true) : s.graver (t.setWord a w) :=
  h.setWordA a w ((graverFld_iff _).1 ha)

theorem put (h : s.graver t) (f : Fld) (v : Nat) (ha : State.graverFld f = true) : s.graver (t.put f v) :=
  h.setWordA _ _ ((graverFld_iff _).1 ha)
theorem putI (h : s.graver t) (f : Fld) (v : Int) (ha : State.graverFld f = true) : s.graver (t.putI f v) := h.put f _ ha
theorem putB (h : s.graver t) (f : Fld) (v : Bool) (ha : State.graverFld f = true) : s.graver (t.putB f v) := h.put f _ ha
theorem putBit (h : s.graver t) (f : Fld) (i : Nat) (v : Bool) (ha : State.graverFld f = true) : s.graver (t.putBit f i v) :=
  h.put f _ ha
theorem addSat (h : s.graver t) (f : Fld) (v : Nat) (ha : State.graverFld f = true) : s.graver (t.addSat f v) := h.put f _ ha
theorem maxPut (h : s.graver t) (f : Fld) (v : Nat) (ha : State.graverFld f = true) : s.graver (t.maxPut f v) := h.put f _ ha
theorem inc (h : s.graver t) (f : Fld) (ha : State.graverFld f = true) : s.graver (t.inc f) := h.put f _ ha

/-- Bits joined to a field of fault causes. -/
theorem join (h : s.graver t) (f : Fld) (x : Nat) (hf : (∃ m : Fin 8, f = PWR_FLTCAUSE_BITS m) ∨ ∃ m : Fin 8, f = AX_FAULT_BITS m) :
    s.graver (t.put f (t.g f ||| x)) := by
  have hw : f.lo + f.w ≤ 32 := by
    rcases hf with ⟨m, e⟩ | ⟨m, e⟩ <;> subst e <;> simp
  have up : ∀ i, bit (t.g f) i = true → bit ((t.put f (t.g f ||| x)).g f) i = true := fun i hi => by
    rw [State.put_g_same _ _ _ hw, bit_mod _ _ _ (bit_lt _ _ _ (t.g_lt f) hi), bit_or, hi]; rfl
  have ev : ∀ e, e < 64 → t.evPending e = true → (t.put f (t.g f ||| x)).evPending e = true := fun e l hx => by
    rw [State.evPending_put_other _ _ _ _ (by rcases hf with ⟨m, e'⟩ | ⟨m, e'⟩ <;> subst e' <;> simp <;> omega)]; exact hx
  refine h.trans ⟨fun _ => .inl rfl, fun n i hi => ?_, fun n i hi => ?_, ev, fun i hi => by
    rw [State.put_g_ne _ _ _ _ (by rcases hf with ⟨m, e'⟩ | ⟨m, e'⟩ <;> subst e' <;> simp <;> omega)]; exact hi⟩
  · by_cases e : f = PWR_FLTCAUSE_BITS n
    · rw [← e] at hi ⊢; exact up i hi
    · rw [State.put_g_ne _ _ _ _ (by rcases hf with ⟨m, e'⟩ | ⟨m, e'⟩ <;> subst e' <;> simp <;> first | omega | (intro q; exact e (by rw [show (m : Nat) = n by omega])))]
      exact hi
  · by_cases e : f = AX_FAULT_BITS n
    · rw [← e] at hi ⊢; exact up i hi
    · rw [State.put_g_ne _ _ _ _ (by rcases hf with ⟨m, e'⟩ | ⟨m, e'⟩ <;> subst e' <;> simp <;> first | omega | (intro q; exact e (by rw [show (m : Nat) = n by omega])))]
      exact hi

theorem step (h : s.graver t) (k : t.evStep a) : s.graver a := by
  have r : a.axes = t.axes := by
    have r := congrArg (fun x : State => x.axes) k.rest
    exact r
  have e1 : ∀ n : Fin 8, evWord (PWR_FLTCAUSE_BITS n).a = false := by decide
  have e2 : ∀ n : Fin 8, evWord (AX_FAULT_BITS n).a = false := by decide
  refine h.trans ⟨fun n => .inl (congrArg (fun v : Vector Axis 8 => v[n].st) r), fun n i x => ?_, fun n i x => ?_, k.pend, fun i x => by
    rw [State.word_eq_of_g _ _ _ (k.word _ rfl)]; exact x⟩
  · rw [State.word_eq_of_g _ _ _ (k.word _ (e1 n))]; exact x
  · rw [State.word_eq_of_g _ _ _ (k.word _ (e2 n))]; exact x

theorem settle (h : s.graver t) : s.graver t.settle := h.step t.settle_step

/-- A further SAFE cause. -/
theorem causeUp (h : s.graver t) (i : Nat) : s.graver (t.putBit DEV_STATE_SAFE_CAUSE i true) := by
  refine h.trans ⟨fun _ => .inl rfl, fun n j x => ?_, fun n j x => ?_, fun e l x => ?_, fun j x => ?_⟩
  · unfold State.putBit; rw [State.put_g_ne _ _ _ _ (by simp; omega)]; exact x
  · unfold State.putBit; rw [State.put_g_ne _ _ _ _ (by simp; omega)]; exact x
  · unfold State.putBit; rw [State.evPending_put_other _ _ _ _ (by simp; omega)]; exact x
  · have hj := bit_lt _ _ _ (t.g_lt _) x
    unfold State.putBit
    rw [State.put_g_same _ _ _ (by simp), bit_mod _ _ _ hj]
    by_cases e : j = i
    · subst e; rw [bit_setBits_same]
    · rw [bit_setBits_ne _ _ _ _ (fun q => e q.symm)]; exact x

/-- An axis changed: its state stays, goes to FAULT, or to QUIESCING out of MOVING. -/
theorem axGen (h : s.graver t) (n : Fin 8) (f : Axis → Axis) (hf : (f t.axes[n]).st = t.axes[n].st ∨ (f t.axes[n]).st = .fault ∨
    (t.axes[n].st = .moving ∧ (f t.axes[n]).st = .quiescing)) : s.graver (t.ax n f) := by
  refine h.trans ⟨fun m => ?_, fun _ _ x => x, fun _ _ x => x, fun _ _ x => x, fun _ x => x⟩
  by_cases e : n = m
  · subst e
    simpa [State.ax, vupd] using hf
  · left
    simp only [State.ax, vupd, Fin.getElem_fin]
    rw [Vector.getElem_set_ne _ _ (fun q => e (Fin.ext q))]

theorem ax (h : s.graver t) (n : Fin 8) (f : Axis → Axis) (hf : ∀ a, (f a).st = a.st) : s.graver (t.ax n f) :=
  h.axGen n f (.inl (hf _))

end State.graver

theorem State.noteLast_graver {b0 : State} (s : State) (c : Cmd) (st : Nat) (h0 : b0.graver s) : b0.graver (s.noteLast c st) := by
  unfold State.noteLast
  repeat' (first
    | intro _
    | (with_reducible assumption)
    | (with_reducible apply State.graver.ite)
    | (with_reducible apply State.graver.dite)
    | (show _ < 64; omega)
    | (show _ < 8; omega)
    | (show State.graverFld _ = true; first | rfl | (rw [graverFld_iff]; simp <;> omega))
    | split
    | refine State.graver.upd ?_
    | exact fun _ => rfl
    | dsimp only)

theorem State.noteEnd_graver {b0 : State} (s : State) (c : Cmd) (st : Nat) (h0 : b0.graver s) : b0.graver (s.noteEnd c st) := by
  unfold State.noteEnd
  repeat' (first
    | intro _
    | (with_reducible assumption)
    | (with_reducible apply State.graver.ite)
    | (with_reducible apply State.noteLast_graver)
    | (show _ < 64; omega)
    | (show _ < 8; omega)
    | (show State.graverFld _ = true; first | rfl | (rw [graverFld_iff]; simp <;> omega))
    | split
    | refine State.graver.upd ?_
    | exact fun _ => rfl
    | dsimp only)

theorem State.dropCmd_graver {b0 : State} (s : State) (id : Nat) (h0 : b0.graver s) : b0.graver (s.dropCmd id) := State.graver.upd h0

theorem State.ring_graver {b0 : State} (s : State) (q : Fin 5) (f : RecRing → RecRing) (h0 : b0.graver s) : b0.graver (s.ring q f) := State.graver.upd h0

theorem State.post11_graver {b0 : State} (s : State) (tag : Nat) (ring : Nat) (src : Nat) (status : Nat) (h0 : b0.graver s) : b0.graver (s.post11 tag ring src status) := by
  unfold State.post11
  repeat' (first
    | intro _
    | (with_reducible assumption)
    | (with_reducible apply State.ring_graver)
    | (show _ < 64; omega)
    | (show _ < 8; omega)
    | (show State.graverFld _ = true; first | rfl | (rw [graverFld_iff]; simp <;> omega))
    | split
    | exact fun _ => rfl
    | dsimp only)

theorem State.recordEnd_graver {b0 : State} (s : State) (c : Cmd) (st : Nat) (h0 : b0.graver s) : b0.graver (s.recordEnd c st) := by
  unfold State.recordEnd
  repeat' (first
    | intro _
    | (with_reducible assumption)
    | (with_reducible apply State.graver.ite)
    | (with_reducible apply State.dropCmd_graver)
    | (with_reducible apply State.post11_graver)
    | (show State.graverFld _ = true; first | rfl | (rw [graverFld_iff]; simp <;> omega))
    | (show _ < 64; omega)
    | (show _ < 8; omega)
    | split
    | refine State.graver.upd ?_
    | exact fun _ => rfl
    | dsimp only)

theorem State.endCmd_graver {b0 : State} (s : State) (id : Nat) (st : Nat) (h0 : b0.graver s) :
    b0.graver (s.endCmd id st) := by
  have k : ∀ c, b0.graver (match (s.noteEnd c st).cyc.ends with
      | none => (s.noteEnd c st).recordEnd c st
      | some l => { s.noteEnd c st with
          cmds := (s.noteEnd c st).cmds.map fun x => if x.id == id then { x with ph := .ended st } else x,
          cyc := { (s.noteEnd c st).cyc with ends := some (id :: l) } }) := by
    intro c
    have h := State.noteEnd_graver s c st h0
    split
    · exact State.recordEnd_graver _ c st h
    · exact State.graver.upd h
  unfold State.endCmd
  cases s.cmds.find? (fun c => c.id == id) with
  | none => exact h0
  | some c => cases e : c.ph <;> simp only [e] <;> first | exact h0 | exact k c

theorem State.flushEnds_graver {b0 : State} (s : State) (h0 : b0.graver s) : b0.graver s.flushEnds :=
  State.graver.foldl (fun x _ h => State.recordEnd_graver x _ _ h) (State.graver.upd h0)

theorem State.gathered_graver {b0 : State} (s : State) (f : State → State)
    (hf : ∀ x, b0.graver x → b0.graver (f x)) (h0 : b0.graver s) : b0.graver (s.gathered f) := by
  unfold State.gathered
  split
  · exact hf _ h0
  · exact State.flushEnds_graver _ (hf _ (State.graver.upd h0))

theorem State.stn_graver {b0 : State} (s : State) (st : Fin 2) (f : Station → Station) (h0 : b0.graver s) : b0.graver (s.stn st f) := State.graver.upd h0

theorem State.faultMove_graver {b0 : State} (s : State) (n : Fin 8) (h0 : b0.graver s) : b0.graver (s.faultMove n) := by
  unfold State.faultMove
  refine State.graver.ite (State.graver.foldl (fun x i hx => ?_) h0) h0
  split
  · exact hx
  · refine State.stn_graver _ _ _ (State.graver.foldl (fun y k hy => ?_) (State.graver.foldl (fun y k hy => State.endCmd_graver _ _ _ hy) hx))
    refine hy.axGen k _ ?_
    split
    · right; right
      next h => exact ⟨by simpa using h, rfl⟩
    · left; rfl

theorem State.co_graver {b0 : State} (s : State) (c : Fin 16) (f : Coil → Coil) (h0 : b0.graver s) : b0.graver (s.co c f) := State.graver.upd h0

theorem State.bridgesOff_graver {b0 : State} (s : State) (n : Fin 8) (h0 : b0.graver s) : b0.graver (s.bridgesOff n) := by
  unfold State.bridgesOff
  repeat' (first
    | intro _
    | (with_reducible assumption)
    | (with_reducible apply State.co_graver)
    | (show _ < 64; omega)
    | (show _ < 8; omega)
    | (show State.graverFld _ = true; first | rfl | (rw [graverFld_iff]; simp <;> omega))
    | split
    | exact fun _ => rfl
    | dsimp only)

theorem State.evPost_graver {b0 : State} (s : State) (e : Nat) (kind : Nat) (info : Nat) (h0 : b0.graver s) : b0.graver (s.evPost e kind info) := h0.step (s.evPost_step e kind info)

theorem State.evMark_graver {b0 : State} (s : State) (e : Nat) (he : e < 64) (h0 : b0.graver s) : b0.graver (s.evMark e) := h0.step (s.evMark_step e he)

theorem State.evRaise_graver {b0 : State} (s : State) (e : Nat) (kind : Nat) (info : Nat) (he : e < 64) (h0 : b0.graver s) : b0.graver (s.evRaise e kind info) := h0.step (s.evRaise_step e kind info he)

theorem State.pulse_graver {b0 : State} (s : State) (e : Nat) (idx : Nat) (detail : Nat) (he : e < 64) (h0 : b0.graver s) : b0.graver (s.pulse e idx detail) := h0.step (s.pulse_step e idx detail he)

theorem State.planIdle_graver {b0 : State} (s : State) (n : Fin 8) (h0 : b0.graver s) : b0.graver (s.planIdle n) := by
  unfold State.planIdle
  repeat' (first
    | intro _
    | (with_reducible assumption)
    | (with_reducible apply State.graver.put)
    | (with_reducible apply State.graver.setWord)
    | (show State.graverFld _ = true; first | rfl | (rw [graverFld_iff]; simp <;> omega))
    | (show _ < 64; omega)
    | (show _ < 8; omega)
    | split
    | exact fun _ => rfl
    | dsimp only)

theorem State.followLeave_graver {b0 : State} (s : State) (n : Fin 8) (h0 : b0.graver s) : b0.graver (s.followLeave n) := by
  unfold State.followLeave
  repeat' (first
    | intro _
    | (with_reducible assumption)
    | (with_reducible apply State.graver.ite)
    | (with_reducible apply State.graver.ax)
    | (with_reducible apply State.graver.addSat)
    | (show State.graverFld _ = true; first | rfl | (rw [graverFld_iff]; simp <;> omega))
    | (show _ < 64; omega)
    | (show _ < 8; omega)
    | split
    | exact fun _ => rfl
    | dsimp only)

theorem State.axisFault_graver {b0 : State} (s : State) (n : Fin 8) (pwr : Nat) (ax : Nat) (st : Nat) (h0 : b0.graver s) :
    b0.graver (s.axisFault n pwr ax st) := by
  unfold State.axisFault
  dsimp only
  have h1 := (h0.join (PWR_FLTCAUSE_BITS n) pwr (.inl ⟨n, rfl⟩)).join (AX_FAULT_BITS n) ax (.inr ⟨n, rfl⟩)
  refine State.graver.ite h1 (State.gathered_graver _ _ (fun y hy => ?_) h1)
  refine State.pulse_graver _ _ _ _ (by omega) (State.graver.foldl (fun x c hx => ?_) (State.bridgesOff_graver _ _ ?_))
  · split
    · exact State.endCmd_graver _ _ _ hx
    · exact hx
  · exact (State.planIdle_graver _ _ (State.followLeave_graver _ _ (State.faultMove_graver _ _ hy))).axGen n _ (.inr (.inl rfl))

theorem State.axisFaultIf_graver {b0 : State} (s : State) (n : Fin 8) (pwr : Nat) (ax : Nat) (st : Nat) (h0 : b0.graver s) : b0.graver (s.axisFaultIf n pwr ax st) := by
  unfold State.axisFaultIf
  repeat' (first
    | intro _
    | (with_reducible assumption)
    | (with_reducible apply State.graver.ite)
    | (with_reducible apply State.axisFault_graver)
    | (show _ < 64; omega)
    | (show _ < 8; omega)
    | (show State.graverFld _ = true; first | rfl | (rw [graverFld_iff]; simp <;> omega))
    | split
    | exact fun _ => rfl
    | dsimp only)

theorem State.stationFault_graver {b0 : State} (s : State) (st : Fin 2) (pwr : Nat) (h0 : b0.graver s) : b0.graver (s.stationFault st pwr) := by
  unfold State.stationFault
  repeat' (first
    | intro _
    | (with_reducible assumption)
    | (with_reducible apply State.gathered_graver)
    | (with_reducible apply State.axisFaultIf_graver)
    | (with_reducible apply State.graver.foldl)
    | (show _ < 64; omega)
    | (show _ < 8; omega)
    | (show State.graverFld _ = true; first | rfl | (rw [graverFld_iff]; simp <;> omega))
    | split
    | exact fun _ => rfl
    | dsimp only)

theorem State.bt_graver {b0 : State} (s : State) (f : BootSt → BootSt) (h0 : b0.graver s) : b0.graver (s.bt f) := State.graver.upd h0

theorem State.endAll_graver {b0 : State} (s : State) (p : Cmd → Bool) (st : Nat) (h0 : b0.graver s) : b0.graver (s.endAll p st) := by
  unfold State.endAll
  repeat' (first
    | intro _
    | (with_reducible assumption)
    | (with_reducible apply State.endCmd_graver)
    | (with_reducible apply State.graver.foldl)
    | (show _ < 64; omega)
    | (show _ < 8; omega)
    | (show State.graverFld _ = true; first | rfl | (rw [graverFld_iff]; simp <;> omega))
    | split
    | exact fun _ => rfl
    | dsimp only)

theorem State.ctx_graver {b0 : State} (s : State) (x : Fin 4) (f : Ctx → Ctx) (h0 : b0.graver s) : b0.graver (s.ctx x f) := State.graver.upd h0

theorem State.mbWords_graver {b0 : State} (s : State) (m : Nat) (ws : List Nat) (hm : m < 8) (h0 : b0.graver s) :
    b0.graver (s.mbWords m ws) := by
  unfold State.mbWords
  rw [show List.range 8 = [0, 1, 2, 3, 4, 5, 6, 7] from rfl]
  simp only [List.foldl]
  repeat' (first
    | (with_reducible assumption)
    | (with_reducible apply State.graver.put)
    | (rw [graverFld_iff]; simp <;> omega))

theorem State.mbFill_graver {b0 : State} (s : State) (m : Fin 8) (ws : List Nat) (h0 : b0.graver s) : b0.graver (s.mbFill m ws) := by
  unfold State.mbFill
  repeat' (first
    | intro _
    | (with_reducible assumption)
    | (with_reducible apply State.mbWords_graver)
    | (with_reducible apply State.graver.put)
    | (show _ < 64; omega)
    | (show _ < 8; omega)
    | (show State.graverFld _ = true; first | rfl | (rw [graverFld_iff]; simp <;> omega))
    | split
    | exact fun _ => rfl
    | dsimp only)

theorem State.mbDeliver_graver {b0 : State} (s : State) (m : Fin 8) (ws : List Nat) (h0 : b0.graver s) : b0.graver (s.mbDeliver m ws) := by
  unfold State.mbDeliver
  repeat' (first
    | intro _
    | (with_reducible assumption)
    | (with_reducible apply State.graver.ite)
    | (with_reducible apply State.graver.inc)
    | (with_reducible apply State.mbFill_graver)
    | (with_reducible apply State.graver.put)
    | (show _ < 64; omega)
    | (show _ < 8; omega)
    | (show State.graverFld _ = true; first | rfl | (rw [graverFld_iff]; simp <;> omega))
    | split
    | refine State.graver.upd ?_
    | exact fun _ => rfl
    | dsimp only)

theorem State.capture_graver {b0 : State} (s : State) (item : Nat) (idx : Nat) (ws : List Nat) (h0 : b0.graver s) : b0.graver (s.capture item idx ws) := by
  unfold State.capture
  repeat' (first
    | intro _
    | (with_reducible assumption)
    | (with_reducible apply State.graver.ite)
    | (with_reducible apply State.mbDeliver_graver)
    | (with_reducible apply State.graver.foldl)
    | (show _ < 64; omega)
    | (show _ < 8; omega)
    | (show State.graverFld _ = true; first | rfl | (rw [graverFld_iff]; simp <;> omega))
    | split
    | exact fun _ => rfl
    | dsimp only)

theorem State.stopCtx_graver {b0 : State} (s : State) (x : Fin 4) (cause : Nat) (h0 : b0.graver s) : b0.graver (s.stopCtx x cause) := by
  unfold State.stopCtx
  repeat' (first
    | intro _
    | (with_reducible assumption)
    | (with_reducible apply State.graver.ite)
    | (with_reducible apply State.capture_graver)
    | (with_reducible apply State.ctx_graver)
    | (with_reducible apply State.evRaise_graver)
    | (show _ < 64; omega)
    | (show _ < 8; omega)
    | (show State.graverFld _ = true; first | rfl | (rw [graverFld_iff]; simp <;> omega))
    | split
    | exact fun _ => rfl
    | dsimp only)

theorem State.stopAllCtx_graver {b0 : State} (s : State) (cause : Nat) (h0 : b0.graver s) : b0.graver (s.stopAllCtx cause) := by
  unfold State.stopAllCtx
  repeat' (first
    | intro _
    | (with_reducible assumption)
    | (with_reducible apply State.stopCtx_graver)
    | (with_reducible apply State.graver.forFin)
    | (show _ < 64; omega)
    | (show _ < 8; omega)
    | (show State.graverFld _ = true; first | rfl | (rw [graverFld_iff]; simp <;> omega))
    | split
    | exact fun _ => rfl
    | dsimp only)

theorem State.pw_graver {b0 : State} (s : State) (f : PowerSt → PowerSt) (h0 : b0.graver s) : b0.graver (s.pw f) := State.graver.upd h0

theorem State.su_graver {b0 : State} (s : State) (f : SurvSt → SurvSt) (h0 : b0.graver s) : b0.graver (s.su f) := State.graver.upd h0

theorem State.mwSet_graver {b0 : State} (s : State) (l : Option Nat) (h0 : b0.graver s) : b0.graver (s.mwSet l) := by
  unfold State.mwSet
  repeat' (first
    | intro _
    | (with_reducible assumption)
    | (with_reducible apply State.graver.ite)
    | (with_reducible apply State.graver.put)
    | (with_reducible apply State.su_graver)
    | (show _ < 64; omega)
    | (show _ < 8; omega)
    | (show State.graverFld _ = true; first | rfl | (rw [graverFld_iff]; simp <;> omega))
    | split
    | exact fun _ => rfl
    | dsimp only)

theorem State.svu_graver {b0 : State} (s : State) (st : Fin 2) (f : SurveySt → SurveySt) (h0 : b0.graver s) : b0.graver (s.svu st f) := State.graver.upd h0

theorem State.mwNext_graver {b0 : State} (s : State) (h0 : b0.graver s) : b0.graver (s.mwNext) := by
  unfold State.mwNext
  repeat' (first
    | intro _
    | (with_reducible assumption)
    | (with_reducible apply State.graver.addSat)
    | (with_reducible apply State.mwSet_graver)
    | (with_reducible apply State.graver.put)
    | (with_reducible apply State.su_graver)
    | (with_reducible apply State.svu_graver)
    | (show _ < 64; omega)
    | (show _ < 8; omega)
    | (show State.graverFld _ = true; first | rfl | (rw [graverFld_iff]; simp <;> omega))
    | split
    | exact fun _ => rfl
    | dsimp only)

theorem State.mwAbandon_graver {b0 : State} (s : State) (h0 : b0.graver s) : b0.graver (s.mwAbandon) := by
  unfold State.mwAbandon
  repeat' (first
    | intro _
    | (with_reducible assumption)
    | (with_reducible apply State.graver.inc)
    | (with_reducible apply State.mwNext_graver)
    | (show _ < 64; omega)
    | (show _ < 8; omega)
    | (show State.graverFld _ = true; first | rfl | (rw [graverFld_iff]; simp <;> omega))
    | split
    | exact fun _ => rfl
    | dsimp only)

theorem State.v5Switch_graver {b0 : State} (s : State) (h0 : b0.graver s) : b0.graver (s.v5Switch) := by
  unfold State.v5Switch
  repeat' (first
    | intro _
    | (with_reducible assumption)
    | (with_reducible apply State.graver.ite)
    | (with_reducible apply State.mwAbandon_graver)
    | (with_reducible apply State.graver.put)
    | (show _ < 64; omega)
    | (show _ < 8; omega)
    | (show State.graverFld _ = true; first | rfl | (rw [graverFld_iff]; simp <;> omega))
    | split
    | exact fun _ => rfl
    | dsimp only)

theorem State.v5Follow_graver {b0 : State} (s : State) (h0 : b0.graver s) : b0.graver (s.v5Follow) := by
  unfold State.v5Follow
  repeat' (first
    | intro _
    | (with_reducible assumption)
    | (with_reducible apply State.graver.ite)
    | (with_reducible apply State.graver.put)
    | (with_reducible apply State.pw_graver)
    | (with_reducible apply State.v5Switch_graver)
    | (show _ < 64; omega)
    | (show _ < 8; omega)
    | (show State.graverFld _ = true; first | rfl | (rw [graverFld_iff]; simp <;> omega))
    | split
    | exact fun _ => rfl
    | dsimp only)

theorem State.dumpOff_graver {b0 : State} (s : State) (h0 : b0.graver s) : b0.graver (s.dumpOff) := by
  unfold State.dumpOff
  repeat' (first
    | intro _
    | (with_reducible assumption)
    | (with_reducible apply State.pw_graver)
    | (with_reducible apply State.graver.put)
    | (with_reducible apply State.graver.put)
    | (show _ < 64; omega)
    | (show _ < 8; omega)
    | (show State.graverFld _ = true; first | rfl | (rw [graverFld_iff]; simp <;> omega))
    | split
    | exact fun _ => rfl
    | dsimp only)

theorem State.levelOn_graver {b0 : State} (s : State) (e : Nat) (idx : Nat) (detail : Nat) (he : e < 64) (h0 : b0.graver s) : b0.graver (s.levelOn e idx detail) := h0.step (s.levelOn_step e idx detail he)

theorem State.fbAddFrom_graver {b0 : State} (s : State) (src : Nat) (hseq : Nat) (typ : Nat) (payload : List Nat) (h0 : b0.graver s) : b0.graver (s.fbAddFrom src hseq typ payload) := by
  unfold State.fbAddFrom
  repeat' (first
    | intro _
    | (with_reducible assumption)
    | (with_reducible apply State.graver.ite)
    | (with_reducible apply State.graver.inc)
    | (with_reducible apply State.su_graver)
    | (show _ < 64; omega)
    | (show _ < 8; omega)
    | (show State.graverFld _ = true; first | rfl | (rw [graverFld_iff]; simp <;> omega))
    | split
    | exact fun _ => rfl
    | dsimp only)

theorem State.fbAdd_graver {b0 : State} (s : State) (typ : Nat) (payload : List Nat) (h0 : b0.graver s) : b0.graver (s.fbAdd typ payload) := by
  unfold State.fbAdd
  repeat' (first
    | intro _
    | (with_reducible assumption)
    | (with_reducible apply State.fbAddFrom_graver)
    | (show _ < 64; omega)
    | (show _ < 8; omega)
    | (show State.graverFld _ = true; first | rfl | (rw [graverFld_iff]; simp <;> omega))
    | split
    | exact fun _ => rfl
    | dsimp only)

theorem State.enterSafe_graver {b0 : State} (s : State) (h0 : b0.graver s) : b0.graver (s.enterSafe) := by
  unfold State.enterSafe
  repeat' (first
    | intro _
    | (with_reducible assumption)
    | (with_reducible apply State.gathered_graver)
    | (with_reducible apply State.graver.ite)
    | (with_reducible apply State.axisFault_graver)
    | (with_reducible apply State.bt_graver)
    | (with_reducible apply State.dumpOff_graver)
    | (with_reducible apply State.endAll_graver)
    | (with_reducible apply State.fbAdd_graver)
    | (with_reducible apply State.levelOn_graver)
    | (with_reducible apply State.stopAllCtx_graver)
    | (with_reducible apply State.v5Follow_graver)
    | (with_reducible apply State.graver.forFin)
    | (show _ < 64; omega)
    | (show _ < 8; omega)
    | (show State.graverFld _ = true; first | rfl | (rw [graverFld_iff]; simp <;> omega))
    | split
    | refine State.graver.upd ?_
    | exact fun _ => rfl
    | dsimp only)

theorem State.safeCause_graver {b0 : State} (s : State) (i : Nat) (h0 : b0.graver s) : b0.graver (s.safeCause i) := by
  have k : b0.graver (s.putBit DEV_STATE_SAFE_CAUSE i true) := h0.causeUp i
  unfold State.safeCause
  split
  · exact State.enterSafe_graver _ k
  · exact State.enterSafe_graver _ k
  all_goals first | exact k | exact h0

-- TAIL
/-! ## What an entry to FAULT does -/

theorem State.halt_graver {b0 : State} (s : State) (h0 : b0.graver s) : b0.graver (s.halt) := by
  unfold State.halt
  repeat' (first
    | intro _
    | (with_reducible assumption)
    | (with_reducible apply State.graver.ite)
    | (with_reducible apply State.graver.put)
    | (show _ < 64; omega)
    | (show _ < 8; omega)
    | (show State.graverFld _ = true; first | rfl | (rw [graverFld_iff]; simp <;> omega))
    | split
    | exact fun _ => rfl
    | dsimp only)

theorem State.mwStop_graver {b0 : State} (s : State) (h0 : b0.graver s) : b0.graver (s.mwStop) := by
  unfold State.mwStop
  repeat' (first
    | intro _
    | (with_reducible assumption)
    | (with_reducible apply State.mwSet_graver)
    | (with_reducible apply State.graver.put)
    | (with_reducible apply State.su_graver)
    | (show _ < 64; omega)
    | (show _ < 8; omega)
    | (show State.graverFld _ = true; first | rfl | (rw [graverFld_iff]; simp <;> omega))
    | split
    | exact fun _ => rfl
    | dsimp only)

theorem State.useFree_graver {b0 : State} (s : State) (h0 : b0.graver s) : b0.graver (s.useFree) := State.graver.upd h0

theorem State.recLost_graver {b0 : State} (s : State) (q : Fin 5) (i : Nat) (h0 : b0.graver s) :
    b0.graver (s.recLost q i) := by
  unfold State.recLost
  split
  · exact State.graver.inc (State.ring_graver _ _ _ h0) _ rfl
  · exact h0

theorem State.pairLost_graver {b0 : State} (s : State) (h0 : b0.graver s) : b0.graver s.pairLost := by
  have h := State.useFree_graver s h0
  unfold State.pairLost
  dsimp only
  split
  · exact State.graver.inc (State.ring_graver _ _ _ h) _ rfl
  · exact h

theorem State.ringWordLost_graver {b0 : State} (s : State) (h0 : b0.graver s) : b0.graver (s.ringWordLost) := by
  unfold State.ringWordLost
  repeat' (first
    | intro _
    | (with_reducible assumption)
    | (with_reducible apply State.recLost_graver)
    | (with_reducible apply State.graver.ite)
    | (with_reducible apply State.endCmd_graver)
    | (with_reducible apply State.graver.inc)
    | (with_reducible apply State.useFree_graver)
    | (show _ < 64; omega)
    | (show _ < 8; omega)
    | (show State.graverFld _ = true; first | rfl | (rw [graverFld_iff]; simp <;> omega))
    | split
    | exact fun _ => rfl
    | dsimp only)

theorem State.memResponse_graver {b0 : State} (s : State) (m : Mem) (a : Nat) (x : Option (Fin 4)) (h0 : b0.graver s) : b0.graver (s.memResponse m a x) := by
  unfold State.memResponse
  repeat' (first
    | intro _
    | (with_reducible assumption)
    | (with_reducible apply State.gathered_graver)
    | (with_reducible apply State.axisFault_graver)
    | (with_reducible apply State.graver.foldl)
    | (with_reducible apply State.pairLost_graver)
    | (with_reducible apply State.graver.ite)
    | (with_reducible apply State.graver.dite)
    | (with_reducible apply State.axisFault_graver)
    | (with_reducible apply State.halt_graver)
    | (with_reducible apply State.graver.inc)
    | (with_reducible apply State.mwStop_graver)
    | (with_reducible apply State.pulse_graver)
    | (with_reducible apply State.ringWordLost_graver)
    | (with_reducible apply State.safeCause_graver)
    | (with_reducible apply State.stopCtx_graver)
    | (with_reducible apply State.graver.foldl)
    | (show _ < 64; omega)
    | (show _ < 8; omega)
    | (show State.graverFld _ = true; first | rfl | (rw [graverFld_iff]; simp <;> omega))
    | split
    | exact fun _ => rfl
    | dsimp only)

theorem State.ctrlTrip_graver {b0 : State} (s : State) (h0 : b0.graver s) : b0.graver (s.ctrlTrip) := by
  unfold State.ctrlTrip
  repeat' (first
    | intro _
    | (with_reducible assumption)
    | (with_reducible apply State.gathered_graver)
    | (with_reducible apply State.graver.ax)
    | (with_reducible apply State.axisFault_graver)
    | (with_reducible apply State.graver.ite)
    | (with_reducible apply State.graver.forFin)
    | (with_reducible apply State.graver.ite)
    | (with_reducible apply State.graver.ax)
    | (with_reducible apply State.axisFault_graver)
    | (with_reducible apply State.safeCause_graver)
    | (with_reducible apply State.graver.forFin)
    | (show _ < 64; omega)
    | (show _ < 8; omega)
    | (show State.graverFld _ = true; first | rfl | (rw [graverFld_iff]; simp <;> omega))
    | split
    | exact fun _ => rfl
    | dsimp only)

theorem State.tempStat_graver {b0 : State} (s : State) (h0 : b0.graver s) : b0.graver (s.tempStat) := by
  unfold State.tempStat
  repeat' (first
    | intro _
    | (with_reducible assumption)
    | (with_reducible apply State.graver.putB)
    | (show _ < 64; omega)
    | (show _ < 8; omega)
    | (show State.graverFld _ = true; first | rfl | (rw [graverFld_iff]; simp <;> omega))
    | split
    | exact fun _ => rfl
    | dsimp only)

theorem State.flDown_graver {b0 : State} (s : State) (h0 : b0.graver s) : b0.graver (s.flDown) := by
  unfold State.flDown
  repeat' (first
    | intro _
    | (with_reducible assumption)
    | (with_reducible apply State.bridgesOff_graver)
    | (with_reducible apply State.mwStop_graver)
    | (with_reducible apply State.graver.put)
    | (with_reducible apply State.pw_graver)
    | (with_reducible apply State.v5Follow_graver)
    | (with_reducible apply State.graver.forFin)
    | (show _ < 64; omega)
    | (show _ < 8; omega)
    | (show State.graverFld _ = true; first | rfl | (rw [graverFld_iff]; simp <;> omega))
    | split
    | refine State.graver.upd ?_
    | exact fun _ => rfl
    | dsimp only)

theorem State.lockout_graver {b0 : State} (s : State) (st : Fin 2) (pwr : Nat) (mv : Nat) (h0 : b0.graver s) : b0.graver (s.lockout st pwr mv) := by
  unfold State.lockout
  repeat' (first
    | intro _
    | (with_reducible assumption)
    | (with_reducible apply State.graver.ite)
    | (with_reducible apply State.pulse_graver)
    | (with_reducible apply State.graver.put)
    | (with_reducible apply State.stationFault_graver)
    | (show _ < 64; omega)
    | (show _ < 8; omega)
    | (show State.graverFld _ = true; first | rfl | (rw [graverFld_iff]; simp <;> omega))
    | split
    | exact fun _ => rfl
    | dsimp only)

theorem State.tripAxis_graver {b0 : State} (s : State) (n : Fin 8) (h0 : b0.graver s) : b0.graver (s.tripAxis n) := by
  unfold State.tripAxis
  repeat' (first
    | intro _
    | (with_reducible assumption)
    | (with_reducible apply State.axisFaultIf_graver)
    | (show _ < 64; omega)
    | (show _ < 8; omega)
    | (show State.graverFld _ = true; first | rfl | (rw [graverFld_iff]; simp <;> omega))
    | split
    | exact fun _ => rfl
    | dsimp only)

theorem State.levelOff_graver {b0 : State} (s : State) (e : Nat) (idx : Nat) (detail : Nat) (h0 : b0.graver s) : b0.graver (s.levelOff e idx detail) := h0.step (s.levelOff_step e idx detail)

theorem State.evPwrSrc_graver {b0 : State} (s : State) (h0 : b0.graver s) : b0.graver (s.evPwrSrc) := by
  unfold State.evPwrSrc
  repeat' (first
    | intro _
    | (with_reducible assumption)
    | (with_reducible apply State.pulse_graver)
    | (show _ < 64; omega)
    | (show _ < 8; omega)
    | (show State.graverFld _ = true; first | rfl | (rw [graverFld_iff]; simp <;> omega))
    | split
    | exact fun _ => rfl
    | dsimp only)

/-! ## What an entry to FAULT does -/

theorem State.ax_st_same (s : State) (n : Fin 8) (f : Axis → Axis) : (s.ax n f).axes[n] = f s.axes[n] := by
  simp [State.ax, vupd]

/-- What holds after `f`, whatever the cycle remembers, and outlives the records of the endings, holds after `f` gathered. -/
theorem State.gathered_elim {Q : State → Prop} (s : State) (f : State → State) (h1 : ∀ c : CycSt, Q (f { s with cyc := c }))
    (h2 : ∀ a b : State, a.graver b → Q a → Q b) : Q (s.gathered f) := by
  unfold State.gathered
  split
  · exact h1 s.cyc
  · exact h2 _ _ (State.flushEnds_graver _ State.graver.refl) (h1 _)

/-- The axis stands in FAULT afterwards. -/
theorem State.axisFault_st (s : State) (n : Fin 8) (pwr ax st : Nat) : (s.axisFault n pwr ax st).axes[n].st = .fault := by
  by_cases h : s.axes[n].st = .fault
  · exact (State.axisFault_graver s n pwr ax st State.graver.refl).fault h
  · unfold State.axisFault
    dsimp only
    rw [if_neg (by simpa using h)]
    refine State.gathered_elim (Q := fun t => t.axes[n].st = .fault) _ _ (fun c => ?_) (fun _ _ g h => g.fault h)
    refine State.graver.fault (s := State.ax _ n _) (State.pulse_graver _ _ _ _ (by omega) (State.graver.foldl (fun x c hx => ?_)
      (State.bridgesOff_graver _ _ State.graver.refl))) ?_
    · split
      · exact State.endCmd_graver _ _ _ hx
      · exact hx
    · rw [State.ax_st_same]

/-- Past the record of its causes, an entry to FAULT only raises. -/
theorem State.axisFault_after (s : State) (n : Fin 8) (pwr ax st : Nat) :
    ((s.put (PWR_FLTCAUSE_BITS n) (s.g (PWR_FLTCAUSE_BITS n) ||| pwr)).put (AX_FAULT_BITS n)
      ((s.put (PWR_FLTCAUSE_BITS n) (s.g (PWR_FLTCAUSE_BITS n) ||| pwr)).g (AX_FAULT_BITS n) ||| ax)).graver
        (s.axisFault n pwr ax st) := by
  unfold State.axisFault
  dsimp only
  refine State.graver.ite State.graver.refl (State.gathered_graver _ _ (fun y hy => ?_) State.graver.refl)
  refine State.pulse_graver _ _ _ _ (by omega) (State.graver.foldl (fun x c hx => ?_) (State.bridgesOff_graver _ _ ?_))
  · split
    · exact State.endCmd_graver _ _ _ hx
    · exact hx
  · exact (State.planIdle_graver _ _ (State.followLeave_graver _ _ (State.faultMove_graver _ _ hy))).axGen n _ (.inr (.inl rfl))

/-- Its causes are recorded. -/
theorem State.axisFault_pwr (s : State) (n : Fin 8) (pwr ax st i : Nat) (hi : i < 10) (h : bit pwr i = true) :
    bit ((s.axisFault n pwr ax st).g (PWR_FLTCAUSE_BITS n)) i = true := by
  refine (s.axisFault_after n pwr ax st).pwr n i ?_
  rw [State.put_g_ne _ _ _ _ (by simp; omega), State.put_g_same _ _ _ (by simp), bit_mod _ _ _ (by simpa using hi), bit_or, h]
  simp

theorem State.axisFault_flt (s : State) (n : Fin 8) (pwr ax st i : Nat) (hi : i < 7) (h : bit ax i = true) :
    bit ((s.axisFault n pwr ax st).g (AX_FAULT_BITS n)) i = true := by
  refine (s.axisFault_after n pwr ax st).flt n i ?_
  rw [State.put_g_same _ _ _ (by simp), bit_mod _ _ _ (by simpa using hi), bit_or, h]
  simp

/-- EV_AXIS_FAULT is raised where the axis was not in FAULT. -/
theorem State.axisFault_event (s : State) (n : Fin 8) (pwr ax st : Nat) (h : s.axes[n].st ≠ .fault) :
    (s.axisFault n pwr ax st).evPending (40 + n) = true := by
  unfold State.axisFault
  dsimp only
  rw [if_neg (by simpa using h)]
  refine State.gathered_elim (Q := fun t => t.evPending (40 + n) = true) _ _ (fun c => ?_) (fun _ _ g h => g.pend _ (by omega) h)
  exact State.pulse_raises _ _ _ _ (by omega)

/-- Every axis of a station that is energised or in FAULT stands in FAULT afterwards, with the cause. -/
theorem State.stationFault_does (s : State) (st : Fin 2) (pwr : Nat) (n : Fin 8) (hn : stationOf n = st)
    (h : s.energised n = true ∨ s.axes[n].st = .fault) :
    (s.stationFault st pwr).axes[n].st = .fault ∧
      ∀ i, i < 10 → bit pwr i = true → bit ((s.stationFault st pwr).g (PWR_FLTCAUSE_BITS n)) i = true := by
  have step : ∀ (t : State) (m : Fin 8), t.graver (t.axisFaultIf m pwr 0 CANCELLED_FAULT) :=
    fun t m => State.axisFaultIf_graver t m pwr 0 _ State.graver.refl
  have fold : ∀ (l : List (Fin 8)) (t : State), t.graver (l.foldl (fun s n => s.axisFaultIf n pwr 0 CANCELLED_FAULT) t) :=
    fun l t => State.graver.foldl (fun x i hx => hx.trans (step x i)) State.graver.refl
  have each : ∀ (l : List (Fin 8)) (t : State), n ∈ l → (t.energised n = true ∨ t.axes[n].st = .fault) →
      (l.foldl (fun s n => s.axisFaultIf n pwr 0 CANCELLED_FAULT) t).axes[n].st = .fault ∧
        ∀ i, i < 10 → bit pwr i = true →
          bit ((l.foldl (fun s n => s.axisFaultIf n pwr 0 CANCELLED_FAULT) t).g (PWR_FLTCAUSE_BITS n)) i = true := by
    intro l
    induction l with
    | nil => intro t hm; cases hm
    | cons m l ih =>
      intro t hm h
      rw [List.foldl_cons]
      by_cases e : n = m
      · subst e
        have hc : (t.energised n || t.axes[n].st == .fault) = true := by
          rcases h with h | h
          · rw [h]; rfl
          · rw [Bool.or_eq_true]; exact .inr (beq_iff_eq.2 h)
        have g := fold l (t.axisFaultIf n pwr 0 CANCELLED_FAULT)
        have q : t.axisFaultIf n pwr 0 CANCELLED_FAULT = t.axisFault n pwr 0 CANCELLED_FAULT := by
          unfold State.axisFaultIf; rw [if_pos hc]
        rw [q] at g ⊢
        exact ⟨g.fault (State.axisFault_st _ _ _ _ _), fun i hi hb => g.pwr n i (State.axisFault_pwr _ _ _ _ _ i hi hb)⟩
      · refine ih _ (by simpa [e] using hm) ?_
        rcases (step t m).st n with k | k | ⟨_, k⟩
        · unfold State.energised at h ⊢
          rw [k]; exact h
        · exact .inr k
        · left
          unfold State.energised
          rw [k]; rfl
  unfold State.stationFault
  exact State.gathered_elim (Q := fun t => t.axes[n].st = .fault ∧
      ∀ i, i < 10 → bit pwr i = true → bit (t.g (PWR_FLTCAUSE_BITS n)) i = true) _ _
    (fun c => each _ _ (by unfold axesOf; simp [hn]) h)
    (fun _ _ g k => ⟨g.fault k.1, fun i hi hb => g.pwr n i (k.2 i hi hb)⟩)

theorem forFin_each {k : Nat} (f : Fin k → State → State) (Q : Fin k → State → Prop) (h1 : ∀ n s, Q n (f n s))
    (h2 : ∀ n m s, Q n s → Q n (f m s)) (s : State) (n : Fin k) : Q n (forFin k f s) := by
  unfold forFin
  have hm : n ∈ List.finRange k := List.mem_finRange n
  revert hm
  generalize List.finRange k = l
  have keep : ∀ (l : List (Fin k)) (s : State), Q n s → Q n (l.foldl (fun s i => f i s) s) :=
    fun l s h => foldl_ind (fun t => Q n t) l _ (fun x i hx => h2 n i x hx) s h
  induction l generalizing s with
  | nil => intro h; cases h
  | cons m l ih =>
    intro h
    rw [List.foldl_cons]
    by_cases e : n = m
    · subst e; exact keep l _ (h1 n s)
    · exact ih _ (by simpa [e] using h)

/-- Out of OFF, IDLE and FAULT an operation that only raises leads to none of the other states. -/
theorem State.graver.rests {s t : State} (g : s.graver t) (n : Fin 8)
    (h : s.axes[n].st = .off ∨ s.axes[n].st = .idle ∨ s.axes[n].st = .fault) :
    t.axes[n].st = .off ∨ t.axes[n].st = .idle ∨ t.axes[n].st = .fault := by
  rcases g.st n with k | k | ⟨k, _⟩
  · rw [k]; exact h
  · exact .inr (.inr k)
  · rw [k] at h; simp at h

/-- After an entry to SAFE no axis is energised. -/
theorem State.enterSafe_st (s : State) (n : Fin 8) :
    s.enterSafe.axes[n].st = .off ∨ s.enterSafe.axes[n].st = .idle ∨ s.enterSafe.axes[n].st = .fault := by
  unfold State.enterSafe
  extract_lets r s1 s2 s3 s4 s5 s6 s7
  have h3 : s3.axes[n].st = .off ∨ s3.axes[n].st = .idle ∨ s3.axes[n].st = .fault := by
    refine State.gathered_elim (Q := fun t => t.axes[n].st = .off ∨ t.axes[n].st = .idle ∨ t.axes[n].st = .fault) _ _
      (fun c => ?_) (fun _ _ g h => g.rests n h)
    refine State.graver.rests (State.endAll_graver _ _ _ State.graver.refl) n ?_
    refine forFin_each _ (fun n (t : State) => t.axes[n].st = .off ∨ t.axes[n].st = .idle ∨ t.axes[n].st = .fault) ?_ ?_ _ n
    · intro n t
      split
      · next h =>
        rw [Bool.or_eq_true] at h
        rcases h with h | h
        · exact .inl (beq_iff_eq.1 h)
        · exact .inr (.inl (beq_iff_eq.1 h))
      · exact .inr (.inr (State.axisFault_st _ _ _ _ _))
    · intro n m t h
      split
      · exact h
      · exact (State.axisFault_graver t m 0 afSAFE CANCELLED_FAULT State.graver.refl).rests n h
  have g : s3.graver (s7.fbAdd 0x05 [s7.g DEV_STATE_SAFE_CAUSE]) :=
    State.fbAdd_graver _ _ _ (State.levelOn_graver _ _ _ _ (by decide) (State.v5Follow_graver _ (State.dumpOff_graver _
      (State.stopAllCtx_graver _ _ (State.graver.upd State.graver.refl)))))
  exact g.rests n h3

theorem State.enterSafe_off (s : State) (n : Fin 8) : s.enterSafe.energised n = false := by
  unfold State.energised
  rcases s.enterSafe_st n with h | h | h <;> rw [h] <;> rfl

theorem State.fbAdd_levels (s : State) (typ : Nat) (p : List Nat) : (s.fbAdd typ p).levels = s.levels := by
  unfold State.fbAdd State.fbAddFrom
  dsimp only
  repeat' split
  all_goals rfl

/-- EV_SAFE is active after an entry to SAFE, and the device is in SAFE. -/
theorem State.enterSafe_level (s : State) : s.enterSafe.level 1 0 = true := by
  unfold State.enterSafe
  extract_lets r s1 s2 s3 s4 s5 s6 s7
  unfold State.level
  rw [State.fbAdd_levels]
  have := State.levelOn_level s6 1 0 (s6.g DEV_STATE_SAFE_CAUSE) 1 0
  unfold State.level at this
  rw [show s7 = s6.levelOn 1 0 (s6.g DEV_STATE_SAFE_CAUSE) from rfl, this]
  simp

end Sys2Proof.Machine
end

