-- ==== Sys2Proof/Laws/Quell.lean ====
section
/-!
SUPPORT. Every operation that an entry to FAULT or to SAFE is built of keeps `State.quelled`. Operations stand in the order in
which they call one another.
-/

set_option linter.unusedTactic false
set_option linter.unreachableTactic false

namespace Sys2Proof.Machine

theorem evWord_quells {a : Nat} (h : faultWord a = false) : evWord a = false := by
  unfold faultWord at h
  simp only [Bool.or_eq_false_iff] at h
  simp only [h]

theorem faultWord_iff (a : Nat) : faultWord a = true ↔ (evWord a = true ∨ a = 0x10 ∨ a = 0x63 ∨ a = 0x140 ∨ (0x168 ≤ a ∧ a < 0x170) ∨
    (0x200 ≤ a ∧ a < 0x280 ∧ a % 16 < 10) ∨ (0x800 ≤ a ∧ a < 0x1000 ∧ (a % 256 = 0x00 ∨ a % 256 = 0x02 ∨ a % 256 = 0x0A ∨ a % 256 = 0x25 ∨ a % 256 = 0x2A ∨ a % 256 = 0x8E)) ∨
    a = 0x1000005 ∨ a = 0x1000008 ∨ a = 0x1000009 ∨ a = 0x1000012 ∨ a = 0x1000021) := by
  unfold faultWord
  generalize evWord a = e
  simp only [Bool.or_eq_true, Bool.and_eq_true, decide_eq_true_eq, beq_iff_eq, or_assoc, and_assoc, List.contains_eq_mem,
    List.mem_cons, List.not_mem_nil, or_false]

namespace State.quelled
variable {s t a b : State} {A : List Nat}

theorem refl : s.quelled s A :=
  ⟨rfl, rfl, rfl, rfl, rfl, rfl, rfl, rfl, rfl, rfl, rfl, rfl, rfl, rfl, rfl, rfl, rfl, fun _ _ _ => rfl⟩

theorem ite {c : Prop} [Decidable c] (ha : s.quelled a A) (hb : s.quelled b A) : s.quelled (if c then a else b) A := by
  split <;> assumption

theorem dite {c : Prop} [Decidable c] {a : c → State} {b : ¬c → State} (ha : ∀ h, s.quelled (a h) A)
    (hb : ∀ h, s.quelled (b h) A) : s.quelled (if h : c then a h else b h) A := by
  split
  · exact ha _
  · exact hb _

theorem foldl {ι : Type} {l : List ι} {f : State → ι → State} (hf : ∀ x i, s.quelled x A → s.quelled (f x i) A)
    (ha : s.quelled a A) : s.quelled (l.foldl f a) A := foldl_ind (fun t => s.quelled t A) l f hf a ha

theorem forFin {k : Nat} {f : Fin k → State → State} (hf : ∀ i x, s.quelled x A → s.quelled (f i x) A)
    (ha : s.quelled a A) : s.quelled (Machine.forFin k f a) A := forFin_ind (fun t => s.quelled t A) k f hf a ha

/-- An update of what such entries may change. -/
theorem upd {dev mbox cmds lastEnd backlog rings evq evLost levels cap tick arb ecc axes coils stations ctxs chainRej chainReach
    chainStall boot power surv free cyc} (h : s.quelled t A) :
    s.quelled ⟨⟨dev, t.regs, t.staged, t.groups, t.links, t.grelas, mbox, t.indQ, t.window, cmds, t.nextId, lastEnd,
      backlog, rings, evq, evLost, levels, cap, tick, arb, ecc, axes, coils, stations, ctxs, t.store, t.chain, t.chainOut, t.chainRst,
      chainRej, chainReach, chainStall, t.chainMode, boot, power, surv, t.nvm, t.otp, t.flash, free⟩, t.pending, t.now, cyc⟩ A :=
  ⟨h.now, h.pending, h.staged, h.groups, h.links, h.grelas, h.indQ, h.window, h.nextId, h.store, h.chain, h.chainOut, h.chainRst,
    h.chainMode, h.nvm, h.otp, h.flash, h.words⟩

theorem setWord (h : s.quelled t A) (a : Nat) (w : Word) (ha : a ∈ A ∨ faultWord a = true) : s.quelled (t.setWord a w) A :=
  ⟨h.now, h.pending, h.staged, h.groups, h.links, h.grelas, h.indQ, h.window, h.nextId, h.store, h.chain, h.chainOut, h.chainRst,
    h.chainMode, h.nvm, h.otp, h.flash, fun b hb hf => by
      rw [State.setWord_word_ne _ _ _ _ (fun (e : a = b) => by
        rcases ha with k | k
        · exact hb (e ▸ k)
        · rw [e, hf] at k; cases k)]
      exact h.words b hb hf⟩

theorem put (h : s.quelled t A) (f : Fld) (v : Nat) (ha : f.a ∈ A ∨ faultWord f.a = true) : s.quelled (t.put f v) A :=
  h.setWord _ _ ha
theorem putI (h : s.quelled t A) (f : Fld) (v : Int) (ha : f.a ∈ A ∨ faultWord f.a = true) : s.quelled (t.putI f v) A :=
  h.setWord _ _ ha
theorem putB (h : s.quelled t A) (f : Fld) (v : Bool) (ha : f.a ∈ A ∨ faultWord f.a = true) : s.quelled (t.putB f v) A :=
  h.setWord _ _ ha
theorem putBit (h : s.quelled t A) (f : Fld) (i : Nat) (v : Bool) (ha : f.a ∈ A ∨ faultWord f.a = true) :
    s.quelled (t.putBit f i v) A := h.setWord _ _ ha
theorem addSat (h : s.quelled t A) (f : Fld) (v : Nat) (ha : f.a ∈ A ∨ faultWord f.a = true) : s.quelled (t.addSat f v) A :=
  h.setWord _ _ ha
theorem maxPut (h : s.quelled t A) (f : Fld) (v : Nat) (ha : f.a ∈ A ∨ faultWord f.a = true) : s.quelled (t.maxPut f v) A :=
  h.setWord _ _ ha
theorem inc (h : s.quelled t A) (f : Fld) (ha : f.a ∈ A ∨ faultWord f.a = true) : s.quelled (t.inc f) A := h.setWord _ _ ha

theorem step (h : s.quelled t A) (k : t.evStep a) : s.quelled a A :=
  have r := k.rest
  ⟨k.now.trans h.now, (congrArg (fun x : State => x.pending) r).trans h.pending, (congrArg (fun x : State => x.staged) r).trans h.staged,
    (congrArg (fun x : State => x.groups) r).trans h.groups, (congrArg (fun x : State => x.links) r).trans h.links, (congrArg (fun x : State => x.grelas) r).trans h.grelas,
    (congrArg (fun x : State => x.indQ) r).trans h.indQ, (congrArg (fun x : State => x.window) r).trans h.window, (congrArg (fun x : State => x.nextId) r).trans h.nextId,
    (congrArg (fun x : State => x.store) r).trans h.store, (congrArg (fun x : State => x.chain) r).trans h.chain, (congrArg (fun x : State => x.chainOut) r).trans h.chainOut,
    (congrArg (fun x : State => x.chainRst) r).trans h.chainRst, (congrArg (fun x : State => x.chainMode) r).trans h.chainMode, (congrArg (fun x : State => x.nvm) r).trans h.nvm,
    (congrArg (fun x : State => x.otp) r).trans h.otp, (congrArg (fun x : State => x.flash) r).trans h.flash,
    fun x hx hf => (k.word x (evWord_quells hf)).trans (h.words x hx hf)⟩

theorem settle (h : s.quelled t A) : s.quelled t.settle A := h.step t.settle_step

theorem mono {B : List Nat} (h : s.quelled t A) (hs : ∀ x, x ∈ A → x ∈ B) : s.quelled t B :=
  { h with words := fun x hx hf => h.words x (fun k => hx (hs x k)) hf }

theorem trans (h : s.quelled t A) (k : t.quelled a A) : s.quelled a A :=
  ⟨k.now.trans h.now, k.pending.trans h.pending, k.staged.trans h.staged, k.groups.trans h.groups,
    k.links.trans h.links, k.grelas.trans h.grelas, k.indQ.trans h.indQ, k.window.trans h.window, k.nextId.trans h.nextId,
    k.store.trans h.store, k.chain.trans h.chain, k.chainOut.trans h.chainOut, k.chainRst.trans h.chainRst,
    k.chainMode.trans h.chainMode, k.nvm.trans h.nvm, k.otp.trans h.otp, k.flash.trans h.flash,
    fun x hx hf => (k.words x hx hf).trans (h.words x hx hf)⟩

end State.quelled

theorem State.noteLast_quell {b0 : State} {A : List Nat} (s : State) (c : Cmd) (st : Nat) (h0 : b0.quelled s A) : b0.quelled (s.noteLast c st) A := by
  unfold State.noteLast
  repeat' (first
    | intro _
    | (with_reducible assumption)
    | (with_reducible apply State.quelled.ite)
    | (with_reducible apply State.quelled.dite)
    | (right; rw [faultWord_iff]; simp <;> omega)
    | (show _ < 64; omega)
    | (show _ < 8; omega)
    | split
    | refine State.quelled.upd ?_
    | dsimp only)

theorem State.noteEnd_quell {b0 : State} {A : List Nat} (s : State) (c : Cmd) (st : Nat) (h0 : b0.quelled s A) : b0.quelled (s.noteEnd c st) A := by
  unfold State.noteEnd
  repeat' (first
    | intro _
    | (with_reducible assumption)
    | (with_reducible apply State.quelled.ite)
    | (with_reducible apply State.noteLast_quell)
    | (right; rw [faultWord_iff]; simp <;> omega)
    | (show _ < 64; omega)
    | (show _ < 8; omega)
    | split
    | refine State.quelled.upd ?_
    | dsimp only)

theorem State.dropCmd_quell {b0 : State} {A : List Nat} (s : State) (id : Nat) (h0 : b0.quelled s A) : b0.quelled (s.dropCmd id) A := State.quelled.upd h0

theorem State.ring_quell {b0 : State} {A : List Nat} (s : State) (q : Fin 5) (f : RecRing → RecRing) (h0 : b0.quelled s A) : b0.quelled (s.ring q f) A := State.quelled.upd h0

theorem State.post11_quell {b0 : State} {A : List Nat} (s : State) (tag : Nat) (ring : Nat) (src : Nat) (status : Nat) (h0 : b0.quelled s A) : b0.quelled (s.post11 tag ring src status) A := by
  unfold State.post11
  repeat' (first
    | intro _
    | (with_reducible assumption)
    | (with_reducible apply State.ring_quell)
    | (right; rw [faultWord_iff]; simp <;> omega)
    | (show _ < 64; omega)
    | (show _ < 8; omega)
    | split
    | dsimp only)

theorem State.recordEnd_quell {b0 : State} {A : List Nat} (s : State) (c : Cmd) (st : Nat) (h0 : b0.quelled s A) : b0.quelled (s.recordEnd c st) A := by
  unfold State.recordEnd
  repeat' (first
    | intro _
    | (with_reducible assumption)
    | (with_reducible apply State.quelled.ite)
    | (with_reducible apply State.dropCmd_quell)
    | (with_reducible apply State.post11_quell)
    | (right; rw [faultWord_iff]; simp <;> omega)
    | (show _ < 64; omega)
    | (show _ < 8; omega)
    | split
    | refine State.quelled.upd ?_
    | dsimp only)

theorem State.endCmd_quell {b0 : State} {A : List Nat} (s : State) (id : Nat) (st : Nat) (h0 : b0.quelled s A) :
    b0.quelled (s.endCmd id st) A := by
  have k : ∀ c, b0.quelled (match (s.noteEnd c st).cyc.ends with
      | none => (s.noteEnd c st).recordEnd c st
      | some l => { s.noteEnd c st with
          cmds := (s.noteEnd c st).cmds.map fun x => if x.id == id then { x with ph := .ended st } else x,
          cyc := { (s.noteEnd c st).cyc with ends := some (id :: l) } }) A := by
    intro c
    have h := State.noteEnd_quell s c st h0
    split
    · exact State.recordEnd_quell _ c st h
    · exact State.quelled.upd h
  unfold State.endCmd
  cases s.cmds.find? (fun c => c.id == id) with
  | none => exact h0
  | some c => cases e : c.ph <;> simp only [e] <;> first | exact h0 | exact k c

theorem State.flushEnds_quell {b0 : State} {A : List Nat} (s : State) (h0 : b0.quelled s A) : b0.quelled s.flushEnds A :=
  State.quelled.foldl (fun x _ h => State.recordEnd_quell x _ _ h) (State.quelled.upd h0)

theorem State.gathered_quell {b0 : State} {A : List Nat} (s : State) (f : State → State)
    (hf : ∀ x, b0.quelled x A → b0.quelled (f x) A) (h0 : b0.quelled s A) : b0.quelled (s.gathered f) A := by
  unfold State.gathered
  split
  · exact hf _ h0
  · exact State.flushEnds_quell _ (hf _ (State.quelled.upd h0))

theorem State.ax_quell {b0 : State} {A : List Nat} (s : State) (n : Fin 8) (f : Axis → Axis) (h0 : b0.quelled s A) : b0.quelled (s.ax n f) A := State.quelled.upd h0

theorem State.stn_quell {b0 : State} {A : List Nat} (s : State) (st : Fin 2) (f : Station → Station) (h0 : b0.quelled s A) : b0.quelled (s.stn st f) A := State.quelled.upd h0

theorem State.faultMove_quell {b0 : State} {A : List Nat} (s : State) (n : Fin 8) (h0 : b0.quelled s A) : b0.quelled (s.faultMove n) A := by
  unfold State.faultMove
  repeat' (first
    | intro _
    | (with_reducible assumption)
    | (with_reducible apply State.quelled.ite)
    | (with_reducible apply State.ax_quell)
    | (with_reducible apply State.endCmd_quell)
    | (with_reducible apply State.stn_quell)
    | (with_reducible apply State.quelled.foldl)
    | (right; rw [faultWord_iff]; simp <;> omega)
    | (show _ < 64; omega)
    | (show _ < 8; omega)
    | split
    | dsimp only)

theorem State.co_quell {b0 : State} {A : List Nat} (s : State) (c : Fin 16) (f : Coil → Coil) (h0 : b0.quelled s A) : b0.quelled (s.co c f) A := State.quelled.upd h0

theorem State.bridgesOff_quell {b0 : State} {A : List Nat} (s : State) (n : Fin 8) (h0 : b0.quelled s A) : b0.quelled (s.bridgesOff n) A := by
  unfold State.bridgesOff
  repeat' (first
    | intro _
    | (with_reducible assumption)
    | (with_reducible apply State.co_quell)
    | (right; rw [faultWord_iff]; simp <;> omega)
    | (show _ < 64; omega)
    | (show _ < 8; omega)
    | split
    | dsimp only)

theorem State.evPost_quell {b0 : State} {A : List Nat} (s : State) (e : Nat) (kind : Nat) (info : Nat) (h0 : b0.quelled s A) : b0.quelled (s.evPost e kind info) A :=
  h0.step (s.evPost_step e kind info)

theorem State.evMark_quell {b0 : State} {A : List Nat} (s : State) (e : Nat) (he : e < 64) (h0 : b0.quelled s A) : b0.quelled (s.evMark e) A :=
  h0.step (s.evMark_step e he)

theorem State.evRaise_quell {b0 : State} {A : List Nat} (s : State) (e : Nat) (kind : Nat) (info : Nat) (he : e < 64) (h0 : b0.quelled s A) : b0.quelled (s.evRaise e kind info) A :=
  h0.step (s.evRaise_step e kind info he)

theorem State.pulse_quell {b0 : State} {A : List Nat} (s : State) (e : Nat) (idx : Nat) (detail : Nat) (he : e < 64) (h0 : b0.quelled s A) : b0.quelled (s.pulse e idx detail) A :=
  h0.step (s.pulse_step e idx detail he)

theorem State.planIdle_quell {b0 : State} {A : List Nat} (s : State) (n : Fin 8) (h0 : b0.quelled s A) : b0.quelled (s.planIdle n) A := by
  unfold State.planIdle
  repeat' (first
    | intro _
    | (with_reducible assumption)
    | (with_reducible apply State.quelled.put)
    | (with_reducible apply State.quelled.setWord)
    | (right; rw [faultWord_iff]; simp <;> omega)
    | (show _ < 64; omega)
    | (show _ < 8; omega)
    | split
    | dsimp only)

theorem State.followLeave_quell {b0 : State} {A : List Nat} (s : State) (n : Fin 8) (h0 : b0.quelled s A) : b0.quelled (s.followLeave n) A := by
  unfold State.followLeave
  repeat' (first
    | intro _
    | (with_reducible assumption)
    | (with_reducible apply State.quelled.ite)
    | (with_reducible apply State.ax_quell)
    | (with_reducible apply State.quelled.addSat)
    | (right; rw [faultWord_iff]; simp <;> omega)
    | (show _ < 64; omega)
    | (show _ < 8; omega)
    | split
    | dsimp only)

theorem State.axisFault_quell {b0 : State} {A : List Nat} (s : State) (n : Fin 8) (pwr : Nat) (ax : Nat) (st : Nat) (h0 : b0.quelled s A) : b0.quelled (s.axisFault n pwr ax st) A := by
  unfold State.axisFault
  repeat' (first
    | intro _
    | (with_reducible assumption)
    | (with_reducible apply State.quelled.ite)
    | (with_reducible apply State.gathered_quell)
    | (with_reducible apply State.ax_quell)
    | (with_reducible apply State.bridgesOff_quell)
    | (with_reducible apply State.endCmd_quell)
    | (with_reducible apply State.planIdle_quell)
    | (with_reducible apply State.followLeave_quell)
    | (with_reducible apply State.faultMove_quell)
    | (with_reducible apply State.pulse_quell)
    | (with_reducible apply State.quelled.put)
    | (with_reducible apply State.quelled.foldl)
    | (right; rw [faultWord_iff]; simp <;> omega)
    | (show _ < 64; omega)
    | (show _ < 8; omega)
    | split
    | dsimp only)

theorem State.axisFaultIf_quell {b0 : State} {A : List Nat} (s : State) (n : Fin 8) (pwr : Nat) (ax : Nat) (st : Nat) (h0 : b0.quelled s A) : b0.quelled (s.axisFaultIf n pwr ax st) A := by
  unfold State.axisFaultIf
  repeat' (first
    | intro _
    | (with_reducible assumption)
    | (with_reducible apply State.quelled.ite)
    | (with_reducible apply State.axisFault_quell)
    | (right; rw [faultWord_iff]; simp <;> omega)
    | (show _ < 64; omega)
    | (show _ < 8; omega)
    | split
    | dsimp only)

theorem State.stationFault_quell {b0 : State} {A : List Nat} (s : State) (st : Fin 2) (pwr : Nat) (h0 : b0.quelled s A) : b0.quelled (s.stationFault st pwr) A := by
  unfold State.stationFault
  repeat' (first
    | intro _
    | (with_reducible assumption)
    | (with_reducible apply State.gathered_quell)
    | (with_reducible apply State.axisFaultIf_quell)
    | (with_reducible apply State.quelled.foldl)
    | (right; rw [faultWord_iff]; simp <;> omega)
    | (show _ < 64; omega)
    | (show _ < 8; omega)
    | split
    | dsimp only)

theorem State.bt_quell {b0 : State} {A : List Nat} (s : State) (f : BootSt → BootSt) (h0 : b0.quelled s A) : b0.quelled (s.bt f) A := State.quelled.upd h0

theorem State.endAll_quell {b0 : State} {A : List Nat} (s : State) (p : Cmd → Bool) (st : Nat) (h0 : b0.quelled s A) : b0.quelled (s.endAll p st) A := by
  unfold State.endAll
  repeat' (first
    | intro _
    | (with_reducible assumption)
    | (with_reducible apply State.endCmd_quell)
    | (with_reducible apply State.quelled.foldl)
    | (right; rw [faultWord_iff]; simp <;> omega)
    | (show _ < 64; omega)
    | (show _ < 8; omega)
    | split
    | dsimp only)

theorem State.ctx_quell {b0 : State} {A : List Nat} (s : State) (x : Fin 4) (f : Ctx → Ctx) (h0 : b0.quelled s A) : b0.quelled (s.ctx x f) A := State.quelled.upd h0

theorem State.mbWords_quell {b0 : State} {A : List Nat} (s : State) (m : Nat) (ws : List Nat) (hm : m < 8)
    (h0 : b0.quelled s A) : b0.quelled (s.mbWords m ws) A := by
  unfold State.mbWords
  rw [show List.range 8 = [0, 1, 2, 3, 4, 5, 6, 7] from rfl]
  simp only [List.foldl]
  repeat' (first
    | (with_reducible assumption)
    | (with_reducible apply State.quelled.put)
    | (right; rw [faultWord_iff]; simp <;> omega))

theorem State.mbFill_quell {b0 : State} {A : List Nat} (s : State) (m : Fin 8) (ws : List Nat) (h0 : b0.quelled s A) : b0.quelled (s.mbFill m ws) A := by
  unfold State.mbFill
  repeat' (first
    | intro _
    | (with_reducible assumption)
    | (with_reducible apply State.mbWords_quell)
    | (with_reducible apply State.quelled.put)
    | (right; rw [faultWord_iff]; simp <;> omega)
    | (show _ < 64; omega)
    | (show _ < 8; omega)
    | split
    | dsimp only)

theorem State.mbDeliver_quell {b0 : State} {A : List Nat} (s : State) (m : Fin 8) (ws : List Nat) (h0 : b0.quelled s A) : b0.quelled (s.mbDeliver m ws) A := by
  unfold State.mbDeliver
  repeat' (first
    | intro _
    | (with_reducible assumption)
    | (with_reducible apply State.quelled.ite)
    | (with_reducible apply State.quelled.inc)
    | (with_reducible apply State.mbFill_quell)
    | (with_reducible apply State.quelled.put)
    | (right; rw [faultWord_iff]; simp <;> omega)
    | (show _ < 64; omega)
    | (show _ < 8; omega)
    | split
    | refine State.quelled.upd ?_
    | dsimp only)

theorem State.capture_quell {b0 : State} {A : List Nat} (s : State) (item : Nat) (idx : Nat) (ws : List Nat) (h0 : b0.quelled s A) : b0.quelled (s.capture item idx ws) A := by
  unfold State.capture
  repeat' (first
    | intro _
    | (with_reducible assumption)
    | (with_reducible apply State.quelled.ite)
    | (with_reducible apply State.mbDeliver_quell)
    | (with_reducible apply State.quelled.foldl)
    | (right; rw [faultWord_iff]; simp <;> omega)
    | (show _ < 64; omega)
    | (show _ < 8; omega)
    | split
    | dsimp only)

theorem State.stopCtx_quell {b0 : State} {A : List Nat} (s : State) (x : Fin 4) (cause : Nat) (h0 : b0.quelled s A) : b0.quelled (s.stopCtx x cause) A := by
  unfold State.stopCtx
  repeat' (first
    | intro _
    | (with_reducible assumption)
    | (with_reducible apply State.quelled.ite)
    | (with_reducible apply State.capture_quell)
    | (with_reducible apply State.ctx_quell)
    | (with_reducible apply State.evRaise_quell)
    | (right; rw [faultWord_iff]; simp <;> omega)
    | (show _ < 64; omega)
    | (show _ < 8; omega)
    | split
    | dsimp only)

theorem State.stopAllCtx_quell {b0 : State} {A : List Nat} (s : State) (cause : Nat) (h0 : b0.quelled s A) : b0.quelled (s.stopAllCtx cause) A := by
  unfold State.stopAllCtx
  repeat' (first
    | intro _
    | (with_reducible assumption)
    | (with_reducible apply State.stopCtx_quell)
    | (with_reducible apply State.quelled.forFin)
    | (right; rw [faultWord_iff]; simp <;> omega)
    | (show _ < 64; omega)
    | (show _ < 8; omega)
    | split
    | dsimp only)

theorem State.pw_quell {b0 : State} {A : List Nat} (s : State) (f : PowerSt → PowerSt) (h0 : b0.quelled s A) : b0.quelled (s.pw f) A := State.quelled.upd h0

theorem State.su_quell {b0 : State} {A : List Nat} (s : State) (f : SurvSt → SurvSt) (h0 : b0.quelled s A) : b0.quelled (s.su f) A := State.quelled.upd h0

theorem State.mwSet_quell {b0 : State} {A : List Nat} (s : State) (l : Option Nat) (h0 : b0.quelled s A) : b0.quelled (s.mwSet l) A := by
  unfold State.mwSet
  repeat' (first
    | intro _
    | (with_reducible assumption)
    | (with_reducible apply State.quelled.ite)
    | (with_reducible apply State.quelled.put)
    | (with_reducible apply State.su_quell)
    | (right; rw [faultWord_iff]; simp <;> omega)
    | (show _ < 64; omega)
    | (show _ < 8; omega)
    | split
    | dsimp only)

theorem State.svu_quell {b0 : State} {A : List Nat} (s : State) (st : Fin 2) (f : SurveySt → SurveySt) (h0 : b0.quelled s A) : b0.quelled (s.svu st f) A := State.quelled.upd h0

theorem State.mwNext_quell {b0 : State} {A : List Nat} (s : State) (h0 : b0.quelled s A) : b0.quelled (s.mwNext) A := by
  unfold State.mwNext
  repeat' (first
    | intro _
    | (with_reducible assumption)
    | (with_reducible apply State.quelled.addSat)
    | (with_reducible apply State.mwSet_quell)
    | (with_reducible apply State.quelled.put)
    | (with_reducible apply State.su_quell)
    | (with_reducible apply State.svu_quell)
    | (right; rw [faultWord_iff]; simp <;> omega)
    | (show _ < 64; omega)
    | (show _ < 8; omega)
    | split
    | dsimp only)

theorem State.mwAbandon_quell {b0 : State} {A : List Nat} (s : State) (h0 : b0.quelled s A) : b0.quelled (s.mwAbandon) A := by
  unfold State.mwAbandon
  repeat' (first
    | intro _
    | (with_reducible assumption)
    | (with_reducible apply State.quelled.inc)
    | (with_reducible apply State.mwNext_quell)
    | (right; rw [faultWord_iff]; simp <;> omega)
    | (show _ < 64; omega)
    | (show _ < 8; omega)
    | split
    | dsimp only)

theorem State.v5Switch_quell {b0 : State} {A : List Nat} (s : State) (h0 : b0.quelled s A) : b0.quelled (s.v5Switch) A := by
  unfold State.v5Switch
  repeat' (first
    | intro _
    | (with_reducible assumption)
    | (with_reducible apply State.quelled.ite)
    | (with_reducible apply State.mwAbandon_quell)
    | (with_reducible apply State.quelled.put)
    | (right; rw [faultWord_iff]; simp <;> omega)
    | (show _ < 64; omega)
    | (show _ < 8; omega)
    | split
    | dsimp only)

theorem State.v5Follow_quell {b0 : State} {A : List Nat} (s : State) (h0 : b0.quelled s A) : b0.quelled (s.v5Follow) A := by
  unfold State.v5Follow
  repeat' (first
    | intro _
    | (with_reducible assumption)
    | (with_reducible apply State.quelled.ite)
    | (with_reducible apply State.quelled.put)
    | (with_reducible apply State.pw_quell)
    | (with_reducible apply State.v5Switch_quell)
    | (right; rw [faultWord_iff]; simp <;> omega)
    | (show _ < 64; omega)
    | (show _ < 8; omega)
    | split
    | dsimp only)

theorem State.dumpOff_quell {b0 : State} {A : List Nat} (s : State) (h0 : b0.quelled s A) : b0.quelled (s.dumpOff) A := by
  unfold State.dumpOff
  repeat' (first
    | intro _
    | (with_reducible assumption)
    | (with_reducible apply State.pw_quell)
    | (with_reducible apply State.quelled.put)
    | (with_reducible apply State.quelled.put)
    | (right; rw [faultWord_iff]; simp <;> omega)
    | (show _ < 64; omega)
    | (show _ < 8; omega)
    | split
    | dsimp only)

theorem State.levelOn_quell {b0 : State} {A : List Nat} (s : State) (e : Nat) (idx : Nat) (detail : Nat) (he : e < 64) (h0 : b0.quelled s A) : b0.quelled (s.levelOn e idx detail) A :=
  h0.step (s.levelOn_step e idx detail he)

theorem State.fbAddFrom_quell {b0 : State} {A : List Nat} (s : State) (src : Nat) (hseq : Nat) (typ : Nat) (payload : List Nat) (h0 : b0.quelled s A) : b0.quelled (s.fbAddFrom src hseq typ payload) A := by
  unfold State.fbAddFrom
  repeat' (first
    | intro _
    | (with_reducible assumption)
    | (with_reducible apply State.quelled.ite)
    | (with_reducible apply State.quelled.inc)
    | (with_reducible apply State.su_quell)
    | (right; rw [faultWord_iff]; simp <;> omega)
    | (show _ < 64; omega)
    | (show _ < 8; omega)
    | split
    | dsimp only)

theorem State.fbAdd_quell {b0 : State} {A : List Nat} (s : State) (typ : Nat) (payload : List Nat) (h0 : b0.quelled s A) : b0.quelled (s.fbAdd typ payload) A := by
  unfold State.fbAdd
  repeat' (first
    | intro _
    | (with_reducible assumption)
    | (with_reducible apply State.fbAddFrom_quell)
    | (right; rw [faultWord_iff]; simp <;> omega)
    | (show _ < 64; omega)
    | (show _ < 8; omega)
    | split
    | dsimp only)

theorem State.enterSafe_quell {b0 : State} {A : List Nat} (s : State) (h0 : b0.quelled s A) : b0.quelled (s.enterSafe) A := by
  unfold State.enterSafe
  repeat' (first
    | intro _
    | (with_reducible assumption)
    | (with_reducible apply State.gathered_quell)
    | (with_reducible apply State.quelled.ite)
    | (with_reducible apply State.axisFault_quell)
    | (with_reducible apply State.bt_quell)
    | (with_reducible apply State.dumpOff_quell)
    | (with_reducible apply State.endAll_quell)
    | (with_reducible apply State.fbAdd_quell)
    | (with_reducible apply State.levelOn_quell)
    | (with_reducible apply State.stopAllCtx_quell)
    | (with_reducible apply State.v5Follow_quell)
    | (with_reducible apply State.quelled.forFin)
    | (right; rw [faultWord_iff]; simp <;> omega)
    | (show _ < 64; omega)
    | (show _ < 8; omega)
    | split
    | refine State.quelled.upd ?_
    | dsimp only)

theorem State.safeCause_quell {b0 : State} {A : List Nat} (s : State) (i : Nat) (h0 : b0.quelled s A) : b0.quelled (s.safeCause i) A := by
  unfold State.safeCause
  repeat' (first
    | intro _
    | (with_reducible assumption)
    | (with_reducible apply State.enterSafe_quell)
    | (with_reducible apply State.quelled.putBit)
    | (right; rw [faultWord_iff]; simp <;> omega)
    | (show _ < 64; omega)
    | (show _ < 8; omega)
    | split
    | dsimp only)

theorem State.safeClear_quell {b0 : State} {A : List Nat} (s : State) (i : Nat) (h0 : b0.quelled s A) : b0.quelled (s.safeClear i) A := by
  unfold State.safeClear
  repeat' (first
    | intro _
    | (with_reducible assumption)
    | (with_reducible apply State.quelled.putBit)
    | (right; rw [faultWord_iff]; simp <;> omega)
    | (show _ < 64; omega)
    | (show _ < 8; omega)
    | split
    | dsimp only)

theorem State.halt_quell {b0 : State} {A : List Nat} (s : State) (h0 : b0.quelled s A) : b0.quelled (s.halt) A := by
  unfold State.halt
  repeat' (first
    | intro _
    | (with_reducible assumption)
    | (with_reducible apply State.quelled.ite)
    | (with_reducible apply State.quelled.put)
    | (right; rw [faultWord_iff]; simp <;> omega)
    | (show _ < 64; omega)
    | (show _ < 8; omega)
    | split
    | dsimp only)

theorem State.mwStop_quell {b0 : State} {A : List Nat} (s : State) (h0 : b0.quelled s A) : b0.quelled (s.mwStop) A := by
  unfold State.mwStop
  repeat' (first
    | intro _
    | (with_reducible assumption)
    | (with_reducible apply State.mwSet_quell)
    | (with_reducible apply State.quelled.put)
    | (with_reducible apply State.su_quell)
    | (right; rw [faultWord_iff]; simp <;> omega)
    | (show _ < 64; omega)
    | (show _ < 8; omega)
    | split
    | dsimp only)

theorem State.useFree_quell {b0 : State} {A : List Nat} (s : State) (h0 : b0.quelled s A) : b0.quelled (s.useFree) A := State.quelled.upd h0

theorem State.recLost_quell {b0 : State} {A : List Nat} (s : State) (q : Fin 5) (i : Nat) (h0 : b0.quelled s A) :
    b0.quelled (s.recLost q i) A := by
  unfold State.recLost
  split
  · exact State.quelled.inc (State.ring_quell _ _ _ h0) _ (.inr rfl)
  · exact h0

theorem State.pairLost_quell {b0 : State} {A : List Nat} (s : State) (h0 : b0.quelled s A) : b0.quelled s.pairLost A := by
  have h := State.useFree_quell s h0
  unfold State.pairLost
  dsimp only
  split
  · exact State.quelled.inc (State.ring_quell _ _ _ h) _ (.inr rfl)
  · exact h

theorem State.ringWordLost_quell {b0 : State} {A : List Nat} (s : State) (h0 : b0.quelled s A) : b0.quelled (s.ringWordLost) A := by
  unfold State.ringWordLost
  repeat' (first
    | intro _
    | (with_reducible assumption)
    | (with_reducible apply State.recLost_quell)
    | (with_reducible apply State.quelled.ite)
    | (with_reducible apply State.endCmd_quell)
    | (with_reducible apply State.quelled.inc)
    | (with_reducible apply State.useFree_quell)
    | (right; rw [faultWord_iff]; simp <;> omega)
    | (show _ < 64; omega)
    | (show _ < 8; omega)
    | split
    | dsimp only)

theorem State.memResponse_quell {b0 : State} {A : List Nat} (s : State) (m : Mem) (a : Nat) (x : Option (Fin 4)) (h0 : b0.quelled s A) : b0.quelled (s.memResponse m a x) A := by
  unfold State.memResponse
  repeat' (first
    | intro _
    | (with_reducible assumption)
    | (with_reducible apply State.pairLost_quell)
    | (with_reducible apply State.gathered_quell)
    | (with_reducible apply State.axisFault_quell)
    | (with_reducible apply State.quelled.foldl)
    | (with_reducible apply State.quelled.ite)
    | (with_reducible apply State.quelled.dite)
    | (with_reducible apply State.axisFault_quell)
    | (with_reducible apply State.halt_quell)
    | (with_reducible apply State.quelled.inc)
    | (with_reducible apply State.mwStop_quell)
    | (with_reducible apply State.pulse_quell)
    | (with_reducible apply State.ringWordLost_quell)
    | (with_reducible apply State.safeCause_quell)
    | (with_reducible apply State.stopCtx_quell)
    | (with_reducible apply State.quelled.foldl)
    | (right; rw [faultWord_iff]; simp <;> omega)
    | (show _ < 64; omega)
    | (show _ < 8; omega)
    | split
    | dsimp only)

theorem State.ctrlTrip_quell {b0 : State} {A : List Nat} (s : State) (h0 : b0.quelled s A) : b0.quelled (s.ctrlTrip) A := by
  unfold State.ctrlTrip
  repeat' (first
    | intro _
    | (with_reducible assumption)
    | (with_reducible apply State.gathered_quell)
    | (with_reducible apply State.ax_quell)
    | (with_reducible apply State.axisFault_quell)
    | (with_reducible apply State.quelled.ite)
    | (with_reducible apply State.quelled.forFin)
    | (with_reducible apply State.quelled.ite)
    | (with_reducible apply State.ax_quell)
    | (with_reducible apply State.axisFault_quell)
    | (with_reducible apply State.safeCause_quell)
    | (with_reducible apply State.quelled.forFin)
    | (right; rw [faultWord_iff]; simp <;> omega)
    | (show _ < 64; omega)
    | (show _ < 8; omega)
    | split
    | dsimp only)

theorem State.tempStat_quell {b0 : State} {A : List Nat} (s : State) (h0 : b0.quelled s A) : b0.quelled (s.tempStat) A := by
  unfold State.tempStat
  repeat' (first
    | intro _
    | (with_reducible assumption)
    | (with_reducible apply State.quelled.putB)
    | (right; rw [faultWord_iff]; simp <;> omega)
    | (show _ < 64; omega)
    | (show _ < 8; omega)
    | split
    | dsimp only)

theorem State.flDown_quell {b0 : State} {A : List Nat} (s : State) (h0 : b0.quelled s A) : b0.quelled (s.flDown) A := by
  unfold State.flDown
  repeat' (first
    | intro _
    | (with_reducible assumption)
    | (with_reducible apply State.bridgesOff_quell)
    | (with_reducible apply State.mwStop_quell)
    | (with_reducible apply State.quelled.put)
    | (with_reducible apply State.pw_quell)
    | (with_reducible apply State.v5Follow_quell)
    | (with_reducible apply State.quelled.forFin)
    | (right; rw [faultWord_iff]; simp <;> omega)
    | (show _ < 64; omega)
    | (show _ < 8; omega)
    | split
    | refine State.quelled.upd ?_
    | dsimp only)

theorem State.lockout_quell {b0 : State} {A : List Nat} (s : State) (st : Fin 2) (pwr : Nat) (mv : Nat) (h0 : b0.quelled s A) : b0.quelled (s.lockout st pwr mv) A := by
  unfold State.lockout
  repeat' (first
    | intro _
    | (with_reducible assumption)
    | (with_reducible apply State.quelled.ite)
    | (with_reducible apply State.pulse_quell)
    | (with_reducible apply State.quelled.put)
    | (with_reducible apply State.stationFault_quell)
    | (right; rw [faultWord_iff]; simp <;> omega)
    | (show _ < 64; omega)
    | (show _ < 8; omega)
    | split
    | dsimp only)

theorem State.tripAxis_quell {b0 : State} {A : List Nat} (s : State) (n : Fin 8) (h0 : b0.quelled s A) : b0.quelled (s.tripAxis n) A := by
  unfold State.tripAxis
  repeat' (first
    | intro _
    | (with_reducible assumption)
    | (with_reducible apply State.axisFaultIf_quell)
    | (right; rw [faultWord_iff]; simp <;> omega)
    | (show _ < 64; omega)
    | (show _ < 8; omega)
    | split
    | dsimp only)

theorem State.levelOff_quell {b0 : State} {A : List Nat} (s : State) (e : Nat) (idx : Nat) (detail : Nat) (h0 : b0.quelled s A) : b0.quelled (s.levelOff e idx detail) A :=
  h0.step (s.levelOff_step e idx detail)

theorem State.tempCheck_quell {b0 : State} {A : List Nat} (s : State) (k : Fin 8) (t : Int) (h0 : b0.quelled s A) : b0.quelled (s.tempCheck k t) A := by
  unfold State.tempCheck
  repeat' (first
    | intro _
    | (with_reducible assumption)
    | (with_reducible apply State.quelled.ite)
    | (with_reducible apply State.ctrlTrip_quell)
    | (with_reducible apply State.levelOff_quell)
    | (with_reducible apply State.levelOn_quell)
    | (with_reducible apply State.pw_quell)
    | (with_reducible apply State.safeClear_quell)
    | (with_reducible apply State.stationFault_quell)
    | (with_reducible apply State.tempStat_quell)
    | (right; rw [faultWord_iff]; simp <;> omega)
    | (show _ < 64; omega)
    | (show _ < 8; omega)
    | split
    | dsimp only)

theorem State.evPwrSrc_quell {b0 : State} {A : List Nat} (s : State) (h0 : b0.quelled s A) : b0.quelled (s.evPwrSrc) A := by
  unfold State.evPwrSrc
  repeat' (first
    | intro _
    | (with_reducible assumption)
    | (with_reducible apply State.pulse_quell)
    | (right; rw [faultWord_iff]; simp <;> omega)
    | (show _ < 64; omega)
    | (show _ < 8; omega)
    | split
    | dsimp only)

end Sys2Proof.Machine
end

