-- ==== Sys2Proof/Laws/Rows.lean ====
section
/-!
SUPPORT. A command that is one register write: which part of `State.hostWrite` it comes down to, and that writing a register's
fields back as they stand changes no word.
-/

namespace Sys2Proof.Machine

variable (s : State)

/-! ## Words that stay -/

/-- `t` is `s` with a register file that reads the same. -/
structure State.reads (s t : State) : Prop where
  eq : t = { s with regs := t.regs }
  word : ∀ a, t.word a = s.word a

theorem State.reads.refl : s.reads s := ⟨rfl, fun _ => rfl⟩

theorem State.reads.trans {a b c : State} (h : a.reads b) (k : b.reads c) : a.reads c :=
  ⟨by rw [k.eq, h.eq], fun x => (k.word x).trans (h.word x)⟩

theorem State.put_self (f : Fld) (h : f.lo + f.w ≤ 32) (v : Nat) (hv : v = s.g f) : s.reads (s.put f v) := by
  refine ⟨rfl, fun a => ?_⟩
  subst hv
  by_cases e : f.a = a
  · subst e
    apply BitVec.eq_of_toNat_eq
    rw [State.put_word_same s f _ h]
    exact setBits_bits _ _ _
  · exact State.put_word_ne _ _ _ _ e

theorem State.reads.g {s t : State} (h : s.reads t) (f : Fld) : t.g f = s.g f := State.word_eq_of_g _ _ f (h.word f.a)

/-! ## The word that changes no field -/

/-- The fields of a register that a write acts on lie apart, and the pulse bits of `mask` beside them. -/
def pulseOk (l : List FRow) (mask : Nat) : Bool :=
  l.all fun r => decide (r.lo + r.w ≤ 32) && (match r.acc with
    | .rw | .rwk => bits mask r.lo r.w == 0
    | .ro | .rs | .wp => true
    | .rwb | .rwm => false)

def rowsApart (l : List FRow) : Prop := l.Pairwise fun r q => r.lo + r.w ≤ q.lo ∨ q.lo + q.w ≤ r.lo

def keepStep (s : State) (a : Nat) (x : Nat) (r : FRow) : Nat :=
  match r.acc with
  | .rwb => setBits x r.lo r.w (bits (s.stagedWord a).toNat r.lo r.w)
  | .rw | .rwk => setBits x r.lo r.w (bits (s.word a).toNat r.lo r.w)
  | .ro | .rs | .wp | .rwm => x

theorem keepWord_eq (a : Nat) : s.keepWord a = (layout a).foldl (keepStep s a) 0 := rfl

theorem keepFold_ne (a lo w : Nat) (l : List FRow) (x : Nat) (h : ∀ r ∈ l, (r.acc = .ro ∨ r.acc = .rs ∨ r.acc = .wp ∨ r.acc = .rwm) ∨
    r.lo + r.w ≤ lo ∨ lo + w ≤ r.lo) : bits (l.foldl (keepStep s a) x) lo w = bits x lo w := by
  induction l generalizing x with
  | nil => rfl
  | cons r l ih =>
    rw [List.foldl_cons, ih _ fun q hq => h q (List.mem_cons_of_mem _ hq)]
    have k := h r (List.mem_cons_self ..)
    unfold keepStep
    rcases k with (k | k | k | k) | k
    · rw [k]
    · rw [k]
    · rw [k]
    · rw [k]
    · split
      · exact bits_setBits_ne _ _ _ _ _ _ k
      · exact bits_setBits_ne _ _ _ _ _ _ k
      · exact bits_setBits_ne _ _ _ _ _ _ k
      all_goals rfl

theorem keepFold_same (a : Nat) (l : List FRow) (x : Nat) (hp : rowsApart l) (r : FRow) (hr : r ∈ l)
    (ha : r.acc = .rw ∨ r.acc = .rwk) : bits (l.foldl (keepStep s a) x) r.lo r.w = bits (s.word a).toNat r.lo r.w := by
  induction l generalizing x with
  | nil => cases hr
  | cons q l ih =>
    rw [List.foldl_cons]
    cases hp with
    | cons h1 h2 =>
      rcases List.mem_cons.1 hr with e | e
      · subst e
        rw [keepFold_ne]
        · unfold keepStep
          rcases ha with ha | ha <;> rw [ha] <;> exact (bits_setBits_same _ _ _ _).trans (Nat.mod_eq_of_lt (bits_lt _ _ _))
        · exact fun p hp => .inr ((h1 p hp).symm)
      · exact ih _ h2 e

theorem keepFold_lt (a : Nat) (l : List FRow) (x : Nat) (hx : x < 2 ^ 32) (h : ∀ r ∈ l, r.lo + r.w ≤ 32) :
    l.foldl (keepStep s a) x < 2 ^ 32 := by
  induction l generalizing x with
  | nil => exact hx
  | cons r l ih =>
    rw [List.foldl_cons]
    refine ih _ ?_ fun q hq => h q (List.mem_cons_of_mem _ hq)
    have k := h r (List.mem_cons_self ..)
    unfold keepStep
    split <;> first | exact setBits_lt _ _ _ _ 32 hx k | exact hx

theorem bits_or (a b lo w : Nat) : bits (a ||| b) lo w = bits a lo w ||| bits b lo w := by
  unfold bits
  rw [← Nat.shiftRight_eq_div_pow, ← Nat.shiftRight_eq_div_pow, ← Nat.shiftRight_eq_div_pow, Nat.shiftRight_or_distrib]
  exact Nat.or_mod_two_pow

/-- A write's word, put back together from its register, holds every writable field as it stands. -/
theorem keepWord_field (a mask : Nat) (hm : mask < 2 ^ 32) (h : pulseOk (layout a) mask = true) (hp : rowsApart (layout a))
    (r : FRow) (hr : r ∈ layout a) (ha : r.acc = .rw ∨ r.acc = .rwk) :
    rowOf r (W (s.keepWord a ||| mask)) = bits (s.word a).toNat r.lo r.w := by
  have h32 : ∀ r ∈ layout a, r.lo + r.w ≤ 32 := fun q hq => by
    have := List.all_eq_true.1 h q hq
    simp only [Bool.and_eq_true, decide_eq_true_eq] at this
    exact this.1
  have hlt : s.keepWord a ||| mask < 2 ^ 32 := Nat.or_lt_two_pow (keepFold_lt s a _ 0 (by decide) h32) hm
  have hz : bits mask r.lo r.w = 0 := by
    have := List.all_eq_true.1 h r hr
    simp only [Bool.and_eq_true] at this
    rcases ha with ha | ha <;> rw [ha] at this <;> exact beq_iff_eq.1 this.2
  unfold rowOf
  rw [W_toNat _ hlt, bits_or, hz, Nat.or_zero, keepWord_eq]
  exact keepFold_same s a _ 0 hp r hr ha

/-- A bit outside the writable fields is the pulse bit. -/
theorem keepWord_bit (a mask i : Nat) (hm : mask < 2 ^ 32) (h : pulseOk (layout a) mask = true)
    (hi : (layout a).all (fun r => r.acc == .ro || r.acc == .rs || r.acc == .wp || decide (r.lo + r.w ≤ i) || decide (i < r.lo)) = true) :
    bit (W (s.keepWord a ||| mask)).toNat i = bit mask i := by
  have h32 : ∀ r ∈ layout a, r.lo + r.w ≤ 32 := fun q hq => by
    have := List.all_eq_true.1 h q hq
    simp only [Bool.and_eq_true, decide_eq_true_eq] at this
    exact this.1
  have hlt : s.keepWord a ||| mask < 2 ^ 32 := Nat.or_lt_two_pow (keepFold_lt s a _ 0 (by decide) h32) hm
  rw [W_toNat _ hlt, bit_or]
  have : bit (s.keepWord a) i = false := by
    rw [bit_eq_bits, keepWord_eq, keepFold_ne]
    · simp [bits]
    · intro r hr
      have := List.all_eq_true.1 hi r hr
      simp only [Bool.or_eq_true, beq_iff_eq, decide_eq_true_eq] at this
      rcases this with (((k | k) | k) | k) | k
      · exact .inl (.inl k)
      · exact .inl (.inr (.inl k))
      · exact .inl (.inr (.inr (.inl k)))
      · exact .inr (.inl k)
      · exact .inr (.inr (by omega))
  rw [this]; rfl

/-- Writing such a word changes no word. -/
theorem writeFields_reads (a : Nat) (w : Word) (key : Bool) (hc : ∀ (t : State) lo v, t.clampVal a lo v = v)
    (hn : ∀ t : State, t.noteWritten a = t)
    (h : ∀ r ∈ layout a, r.lo + r.w ≤ 32 ∧ (r.acc = .ro ∨ r.acc = .rs ∨ r.acc = .wp ∨
      ((r.acc = .rw ∨ r.acc = .rwk) ∧ rowOf r w = bits (s.word a).toNat r.lo r.w))) :
    s.reads (s.writeFields a w key false) := by
  unfold State.writeFields
  dsimp only
  rw [if_neg (by decide), hn]
  have go : ∀ (l : List FRow) (t : State), (∀ r ∈ l, r ∈ layout a) → s.reads t → s.reads (l.foldl (fun s r =>
      match r.acc with
      | .rw => s.setField a r (rowOf r w)
      | .rwk => if key then s.setField a r (rowOf r w) else s
      | .rwb => if false = true then (s.stageField a r (rowOf r w)).setField a r (rowOf r w) else s.stageField a r (rowOf r w)
      | .rwm => s.put ⟨a, 0, 16⟩ ((bits (s.word a).toNat 0 16 &&& (65535 - bits w.toNat 16 16)) ||| (rowOf r w &&& bits w.toNat 16 16))
      | .ro | .rs | .wp => s) t) := by
    intro l
    induction l with
    | nil => exact fun t _ ht => ht
    | cons r l ih =>
      intro t hm ht
      rw [List.foldl_cons]
      refine ih _ (fun q hq => hm q (List.mem_cons_of_mem _ hq)) ?_
      obtain ⟨h32, k⟩ := h r (hm r (List.mem_cons_self ..))
      have hs : (r.acc = .rw ∨ r.acc = .rwk) → rowOf r w = bits (s.word a).toNat r.lo r.w → s.reads (t.setField a r (rowOf r w)) := by
        intro _ e
        refine ht.trans (State.put_self t ⟨a, r.lo, r.w⟩ h32 _ ?_)
        rw [hc, e]
        exact (ht.g ⟨a, r.lo, r.w⟩).symm
      rcases k with k | k | k | ⟨k, e⟩
      · rw [k]; exact ht
      · rw [k]; exact ht
      · rw [k]; exact ht
      · have := hs k e
        rcases k with k | k
        · rw [k]; exact this
        · rw [k]
          dsimp only
          split
          · exact this
          · exact ht
  exact go _ s (fun _ h => h) (State.reads.refl s)

/-! ## A row's write -/

/-- The beginning of an access touches no link. -/
@[simp] theorem State.hostBegin_link (lk : Link) : s.hostBegin.link lk = s.link lk := by
  unfold State.hostBegin
  split <;> rfl

theorem State.takes_unarm (lk : Link) (a : Nat) : (s.unarm lk).reaches a = s.reaches a := rfl

/-- A write of register `a` by link `lk` is performed (R134, R144, R165). -/
theorem rowWrite_served (lk : Link) (a w : Nat) (h : s.hostBegin.reaches a = true) (h20 : a ≠ 0x20) :
    s.rowWrite lk a w = ((s.hostBegin.unarm lk).writeReg lk a (W w) (s.link lk).armed (s.link lk).perfHseq (s.link lk)).1 := by
  unfold State.reaches at h
  simp only [Bool.and_eq_true] at h
  unfold State.rowWrite State.hostWrite
  rw [if_neg (by simp [h.1.1.1])]
  dsimp only
  rw [if_neg h20, State.hostBegin_link]
  rfl

/-- A register without a handler of its own, none of whose fields needs a key: its fields, then its action. -/
theorem rowWrite_plain (lk : Link) (a w : Nat) (h : s.hostBegin.reaches a = true)
    (hs : (a = 0x13 ∨ a = 0x20 ∨ a = 0x24 ∨ a = 0x25 ∨ a = 0x40 ∨ a = 0x67 ∨ (0x80 ≤ a ∧ a < 0x140) ∨
      (0x200 ≤ a ∧ a < 0x280 ∧ a % 16 = 0)) → False) (hk : hasKeyed a = false) :
    s.rowWrite lk a w = ((((s.hostBegin.unarm lk).writeFields a (W w) (s.link lk).armed false).regAct lk a (W w).toNat
      (s.link lk)).hostStands a (W w) (s.link lk).armed).progAgain a := by
  rw [rowWrite_served s lk a w h (fun e => hs (by omega))]
  have ht : (s.hostBegin.unarm lk).reaches a = true := by
    rw [State.takes_unarm]; exact h
  unfold State.reaches at ht
  simp only [Bool.and_eq_true] at ht
  unfold State.writeReg
  rw [if_neg (by simp only [Bool.or_eq_true, not_or]; exact ⟨by simp [ht.1.1.2], by simpa using ht.1.2⟩)]
  rw [if_neg (fun e => hs (by omega)), if_neg (fun e => hs (by omega)), if_neg (fun e => hs (by omega)),
    if_neg (by simp only [Bool.and_eq_true, decide_eq_true_eq]; exact fun e => hs (by omega)),
    if_neg (by simp only [Bool.and_eq_true, decide_eq_true_eq]; exact fun e => hs (by omega))]
  simp only [hk, Bool.false_and, Bool.false_eq_true, if_false]
  rw [if_neg (fun e => hs (by omega)), if_neg (fun e => hs (by omega))]

/-- The same for a command that sets pulse bits and writes the other fields back: only the action is left. -/
theorem rowPulse_plain (lk : Link) (a mask : Nat) (h : s.hostBegin.reaches a = true)
    (hs : (a = 0x13 ∨ a = 0x20 ∨ a = 0x24 ∨ a = 0x25 ∨ a = 0x40 ∨ a = 0x67 ∨ (0x80 ≤ a ∧ a < 0x140) ∨
      (0x200 ≤ a ∧ a < 0x280 ∧ a % 16 = 0)) → False) (hk : hasKeyed a = false) (hm : mask < 2 ^ 32)
    (hok : pulseOk (layout a) mask = true) (hp : rowsApart (layout a)) (hc : ∀ (t : State) lo v, t.clampVal a lo v = v)
    (hn : ∀ t : State, t.noteWritten a = t) :
    ∃ u, (s.hostBegin.unarm lk).reads u ∧
      s.rowPulse lk a mask = ((u.regAct lk a (W (s.hostBegin.keepWord a ||| mask)).toNat (s.link lk)).hostStands a
        (W (s.hostBegin.keepWord a ||| mask)) (s.link lk).armed).progAgain a := by
  refine ⟨_, ?_, rowWrite_plain s lk a _ h hs hk⟩
  refine writeFields_reads _ a _ _ hc hn fun r hr => ?_
  have k := List.all_eq_true.1 hok r hr
  simp only [Bool.and_eq_true, decide_eq_true_eq] at k
  refine ⟨k.1, ?_⟩
  have kw := keepWord_field s.hostBegin a mask hm hok hp r hr
  have k2 := k.2
  cases e : r.acc <;> rw [e] at k2 <;> simp_all
  all_goals rfl

end Sys2Proof.Machine
end

