-- ==== Sys2Proof/WellFormed.lean ====
section
/-!
DEFINITION. Well-formedness of a command: the operand values that the event it names can carry. `step` does not consult it:
an ill-formed command still has a meaning, it only names an event that the hardware cannot see.
-/

namespace Sys2Proof

/-- What one read attempt gave is complete: 256 bytes (R420). -/
def IdRead.wf : IdRead → Bool
  | .absent => true
  | .busError => true
  | .bytes b => b.length == 256

/-- The opcode field of a program word (R444). -/
def progOp (w : BitVec 64) : Nat := w.toNat / 2 ^ 56

/-- The operands of a command lie in the ranges of its event. -/
def Instr.wf : Instr → Bool
  | .citenBadOp _ op _ => decide (3 ≤ op.toNat)
  | .configMonumentReads _ rd => (List.finRange 8).all fun n => rd[n].wf
  | .idReadDone _ _ rd => rd.wf
  | .push _ _ w1 _ _ => progOp w1 == 0x01
  | .waittag _ _ w => progOp w == 0x02
  | .waitin _ _ w => progOp w == 0x03
  | .waittime _ _ w => progOp w == 0x04
  | .brev _ _ w => progOp w == 0x05
  | .loop _ _ w => progOp w == 0x06
  | .raise _ _ w => progOp w == 0x07
  | .progHome _ _ w1 _ => progOp w1 == 0x08
  | .setreg _ _ w => progOp w == 0x09
  | .progEnd _ _ w => progOp w == 0x0A
  | .chainTransfer _ edges ws => edges ≠ 40 * ws.length || decide (0 < ws.length ∧ ws.length ≤ 8)
  | _ => true

end Sys2Proof
end

