-- ==== Sys2Proof/Tests/Slice0.lean ====
section
/-!
SUPPORT. Tests: ill-formed commands, values that the spec prints, and for each statement with hypotheses a state and operands
that meet them, clause by clause.
-/

namespace Sys2Proof.Tests

open Sys2Proof Sys2Proof.Machine

set_option Elab.async false

/-! ## Small states -/

/-- The block in a device state, its memories and its full-logic domain up, tick marks running, at time 10^6. -/
def base (d : DevState) : State :=
  { State.reset with
    dev := d, now := 1000000, power := { PowerSt.init with flUp := true }
    boot := { BootSt.init with por := false, porCause := false, fwRunning := true, cfgValid := true, optDone := true }
    tick := { TickSt.init with on := true, mark := 999000, no := 5 } }

/-- The same in RUN, every axis in state `a`. -/
def axesIn (a : AxState) : State :=
  { base .run with axes := Vector.replicate 8 { Axis.init with st := a } }

/-- A whole frame of zeros; its CRC does not check. -/
def frame0 : Frame :=
  { edges := 96, alive := 0, hseq := 0, addr := 0, data := 0, flags := 0, crc := 0 }

/-- A round at its first conversion. -/
def round0 : ConvRun :=
  { kind := 0, idx := 0, done := 0, sum := 0, sat := false, t := 0 }

/-- A held read of register 0. -/
def held0 : HeldFrame :=
  { op := 0, hseq := 0, addr := 0, data := 0, flags := 0 }

/-- A calibration in its first phase. -/
def cal0 : CalSt :=
  { phase := 0, t0 := 0, all := 1, ticks := 1, gaps := 0, sumI := 0, sumC := 0, sumIq := 0, sumCq := 0, keN := 0, keSum := 0, fitN := 0, fitX := 0, fitY := 0, fitXX := 0, fitXY := 0, fitYY := 0, fitMin := 0, fitMax := 0, keDone := false, hfDone := false }

/-- A descriptor of zeros. -/
def desc0 : Desc :=
  { tag := 0, chain := false, replace := false, sel := 0, flags := 0, d1 := 0, d2 := 0, d3 := 0 }

/-- A homing sequence in its search. -/
def home0 : HomeSt :=
  { cmd := 0, method := 1, neg := false, speed := 1000, creep := 100, back := 0, vmax := 1000, acc := 1000, dec := 1000, ofs := 0, timeout := 0, t0 := 0, phase := 1, from_ := 0, stopping := false, oppPrev := false, stall := none, idxFrom := 0, missFrom := 0 }

/-- An accepted command of ring 0 whose words are 0. -/
def cmd0 : Cmd :=
  { id := 0, ring := 0, src := .spi, d0 := 0, d1 := 0, d2 := 0, d3 := 0, ph := .accepted, wait := [], causes := [], at_ := 0, ran := false }

/-- An identity check at its first pulse. -/
def idchk0 : IdchkSt :=
  { pair := 1, t0 := 0, testI := 100, had := 0, decay := false, na := 1, sa := 0, nb := 1, sb := 0, m0 := 0, theta := 0, dm := none }

/-- A queued indirect write of SPI. -/
def ind0 : IndWrite :=
  { lk := .spi, addr := 0, data := 0, key := false, hseq := 0 }

/-- A backlog record. -/
def back0 : BackItem :=
  { cmd := none, tag := 0, ring := 0, src := 0, status := 0 }

/-! ## Well-formedness: an ill-formed command for each check, refused by it -/

/-- A read of 3 bytes is none that an identity memory gives. -/
theorem test_wf_idRead : (Instr.idReadDone 0 0 (.bytes [0, 0, 0])).wf = false := by decide +kernel

theorem test_wf_monumentReads : (Instr.configMonumentReads 0 (Vector.replicate 8 (.bytes []))).wf = false := by decide +kernel

theorem test_wf_badOp : (Instr.citenBadOp 0 2 frame0).wf = false := by decide +kernel

/-- Words of another opcode for each program instruction. -/
theorem test_wf_program :
    ([.push 0 0 0 0 0, .waittag 0 0 0, .waitin 0 0 0, .waittime 0 0 0, .brev 0 0 0, .loop 0 0 0, .raise 0 0 0, .progHome 0 0 0 0,
      .setreg 0 0 0, .progEnd 0 0 0] : List Instr).all (fun c => !c.wf) = true := by decide +kernel

theorem test_wf_slot : (Instr.chainTransfer 0 0 []).wf = false := by decide +kernel

theorem test_wf_good : (Instr.citenRead 0 frame0).wf = true ∧ (Instr.progEnd 0 0 0x0A00000000000000).wf = true := by decide +kernel

/-! ## Values that the spec, or the standard it names, prints -/

/-- The frame of the example beside R180. -/
theorem test_crc16 : crc16 [0x11, 0, 1, 0, 0, 0, 0, 0, 0, 0] = 0x5D39 := by decide +kernel

/-- Coil setpoints of the example of R291. -/
theorem test_setpoints : setpoints 5767 2048 = (-1224, 1642) := by decide +kernel

/-- Dither of the example of R321: the periods that carry one count more. -/
theorem test_dither : ((List.range 16).filter fun j => dith 16005 j == 1001) = [0, 2, 4, 8, 12] := by decide +kernel

/-- Scaling of the example of R374. -/
theorem test_scale :
    let s := (base .run).put (AX_DP_SCALE_CPR 0) 4000
    s.scale 0 1001 = 205004 ∧ s.scale 0 (-1) = -205 := by decide +kernel

/-- Index difference of the example of R386. -/
theorem test_index : centred (13747 - 1750) 4000 = -3 := by decide +kernel

/-- The supply published from code 11,702 (example of R399), and a corrected code (example of R417). -/
theorem test_survey : svMv 11702 = 47996 ∧ svCorrect 376 16324 6875 = 6826 := by decide +kernel

/-- The feedback line at 0.60 V (example of R95): below 500 kΩ, above 50 kΩ. -/
theorem test_moisture :
    let x := (base .run).mwLeak 0 600
    mwLevel 0 0 x.1 x.2 500 = 1 ∧ mwLevel 0 0 x.1 x.2 50 = 0 := by decide +kernel

/-- The trapezoid of the example of R260 ends after 273,861 µs. -/
theorem test_trapezoid :
    let l := posPlan 0 0 0 0 (102400 * 65536) (819200 * 65536) 4096000 8192000 0
    (l.1.map Seg.dur).foldl (· + ·) 0 / 102400 = 273861 := by decide +kernel

/-- kP of the example of R100: KP reads 240. -/
theorem test_governor : kpOf 21521000000 3286000000 22000000000 / 256 = 240 := by decide +kernel

/-- "abc" (FIPS 180-4) and the first AES-128 example of FIPS 197. -/
theorem test_sha256 : (sha256 [0x61, 0x62, 0x63]).take 4 = [0xBA, 0x78, 0x16, 0xBF] := by decide +kernel

theorem test_aes : (aes128 (List.range 16) ((List.range 16).map (17 * ·))).take 4 = [0x69, 0xC4, 0xE0, 0xD8] := by decide +kernel

/-- The line code keeps the bytes, at either polarity (R206 to R208). -/
theorem test_line : lineIn (lineOut true [0x5A, 0x01]) = some (true, some [0x5A, 0x01]) := by decide +kernel

/-! ## Hypotheses met -/

theorem witness_ScrubReadTreatsTheWord :
    (∃ (s : State) (dt : Nat) (m : Mem),
       let u := s.tickTo dt
       let a := u.ecc[mix m].scrub
       u.scrubReady m = true ∧ symCount (u.badSyms m a) = 0) ∧
    (∃ (s : State) (dt : Nat) (m : Mem),
       let u := s.tickTo dt
       let a := u.ecc[mix m].scrub
       u.scrubReady m = true ∧ symCount (u.badSyms m a) = 1) ∧
    (∃ (s : State) (dt : Nat),
       let u := s.tickTo dt
       u.scrubReady .mgmt = true ∧ symCount (u.badSyms .mgmt u.ecc[1].scrub) = 2) ∧
    (∃ (s : State) (dt : Nat) (n : Fin 8),
       let u := s.tickTo dt
       u.scrubReady .motion = true ∧ symCount (u.badSyms .motion u.ecc[0].scrub) = 2 ∧ u.ecc[0].scrub / 0x600 = n.val) ∧
    (∃ (s : State) (dt : Nat) (m : Mem),
       let u := s.tickTo dt
       u.scrubReady m = false) :=
  ⟨⟨base .run, 0, .mgmt, by decide +kernel⟩,
    ⟨(base .run).setBad (.mgmt : Mem) (base .run).ecc[mix (.mgmt : Mem)].scrub (1), 0, .mgmt, by decide +kernel⟩,
    ⟨(base .run).setBad .mgmt (base .run).ecc[1].scrub (1 + 2 ^ (10 + 0 % 7)), 0, by decide +kernel⟩,
    ⟨(let s : State := (base .run).setBad .motion (base .run).ecc[0].scrub (1 + 2 ^ (10 + 0 % 7));
      s.mm .motion fun e => { e with slotAt := s.now }), 0, 0, by decide +kernel⟩,
    ⟨base .run, 0, .motion, by decide +kernel⟩⟩

theorem witness_WriteBackMakesTheWordGood :
    (∃ (s : State) (dt : Nat) (m : Mem) (a : Nat) (l : List Nat),
       let u := s.tickTo dt
       u.ecc[mix m].writeBack = a :: l ∧ a ∉ l) ∧
    (∃ (s : State) (dt : Nat) (m : Mem),
       let u := s.tickTo dt
       u.ecc[mix m].writeBack = []) :=
  ⟨⟨(base .run).mm (.motion : Mem) fun e => { e with writeBack := 0 :: ([] : List Nat), bad := if 0 % 2 = 0 then [(0, BitVec.ofNat 20 (1))] else e.bad }, 0, .motion, 0, [], by decide +kernel⟩,
    ⟨base .run, 0, .motion, by decide +kernel⟩⟩

theorem witness_MemoryRegisterCommands :
    (∃ (s : State) (dt : Nat) (lk : Link) (data : Word),
       let u := (s.tickTo dt).hostBegin
       let w := data.toNat
       let m : Mem := if bit w 15 then .mgmt else .motion
       u.reaches 0x67 = true ∧ (u.link lk).armed = true ∧ bit w 27 = true ∧ injOk w = true ∧ u.memUp m = true) ∧
    (∃ (s : State) (dt : Nat) (lk : Link),
       let u := (s.tickTo dt).hostBegin
       u.reaches 0x67 = true ∧ (u.link lk).armed = false) ∧
    (∃ (s : State) (dt : Nat),
       let u := (s.tickTo dt).hostBegin
       u.reaches 0x62 = true) ∧
    (∃ (s : State) (dt : Nat),
       let u := (s.tickTo dt).hostBegin
       u.reaches 0x62 = true) :=
  ⟨⟨(base .run).lnk (.spi : Link) fun k => { k with armed := true }, 0, .spi,
    BitVec.ofNat 32 ((0 : Word).toNat % 32768 % 0x4000 + ((0 : Word).toNat / 131072) % 2 * 32768 + ((0 : Word).toNat / 524288 % 19) * 65536 + ((0 : Word).toNat / 2 ^ 25 % 19) * 2097152 + (0 : Word).toNat / 2 ^ 31 * 2 ^ 26 + 2 ^ 27), by decide +kernel⟩,
    ⟨base .run, 0, .spi, by decide +kernel⟩,
    ⟨base .run, 0, by decide +kernel⟩,
    ⟨base .run, 0, by decide +kernel⟩⟩

theorem witness_ArbiterWindow :
    (∃ (s : State) (dt : Nat),
       let u := s.tickTo dt
       u.flOn = true) ∧
    (∃ (s : State) (dt : Nat),
       let u := (s.tickTo dt).hostBegin
       u.reaches 0x60 = true) :=
  ⟨⟨base .run, 0, by decide +kernel⟩,
    ⟨base .run, 0, by decide +kernel⟩⟩

theorem witness_TickMarkBegins :
    (∃ (s : State) (dt : Nat),
       let u := s.tickTo dt
       u.tick.on = true ∧ u.tick.commitDue = false ∧ (u.tickSrc = 0 ∨ u.tick.lost = true) ∧ u.g CLK_TICK_CFG_PERIOD ≤ u.tickAge) ∧
    (∃ (s : State) (dt : Nat),
       let u := s.tickTo dt
       (u.tick.sync.all fun m => decide (m + 40 ≤ u.now)) = true) ∧
    (∃ (s : State) (dt : Nat),
       let u := s.tickTo dt
       (u.tick.on = false ∨ u.tick.commitDue = true ∨ (u.tickSrc ≠ 0 ∧
         u.tick.lost = false) ∨ u.tickAge < u.g CLK_TICK_CFG_PERIOD)) ∧
    (∃ (s : State) (dt : Nat),
       let u := s.tickTo dt
       let p := u.g CLK_TICK_CFG_PERIOD
       u.tick.on = true ∧ u.tick.commitDue = false ∧ u.tickSrc = 1 ∧ u.tick.lost = false ∧ p - 300 ≤ u.tickAge ∧
         u.tickAge ≤ p + 300) ∧
    (∃ (s : State) (dt : Nat),
       let u := s.tickTo dt
       u.tick.on = true ∧ u.tick.commitDue = false ∧ u.tickSrc = 1 ∧ u.tick.lost = true) ∧
    (∃ (s : State) (dt : Nat),
       let u := s.tickTo dt
       let p := u.g CLK_TICK_CFG_PERIOD
       (u.tick.on = false ∨ u.tick.commitDue = true ∨ u.tickSrc ≠ 1 ∨ (u.tick.lost = false ∧
         (u.tickAge < p - 300 ∨ p + 300 < u.tickAge)))) ∧
    (∃ (s : State) (dt : Nat),
       let u := s.tickTo dt
       u.tick.on = true ∧ u.tick.commitDue = false ∧ u.tickSrc ≠ 0 ∧ u.tick.lost = false ∧
         u.g CLK_TICK_CFG_PERIOD + 300 ≤ u.tickAge) :=
  ⟨⟨base .run, 20000, by decide +kernel⟩,
    ⟨base .run, 0, by decide +kernel⟩,
    ⟨base .run, 0, by decide +kernel⟩,
    ⟨({ (base .run) with tick := { (base .run).tick with on := true, commitDue := false, mark := (base .run).now } }).put CLK_TICK_CFG_SRC 1, 0 % 600 + (({ (base .run) with tick := { (base .run).tick with on := true, commitDue := false, mark := (base .run).now } }).put CLK_TICK_CFG_SRC 1).g CLK_TICK_CFG_PERIOD - 300, by decide +kernel⟩,
    ⟨({ (base .run) with tick := { (base .run).tick with on := true, commitDue := false, mark := (base .run).now, lost := true } }).put CLK_TICK_CFG_SRC 1, 0, by decide +kernel⟩,
    ⟨base .run, 0, by decide +kernel⟩,
    ⟨({ (base .run) with tick := { (base .run).tick with on := true, commitDue := false, mark := (base .run).now, lost := false } }).put CLK_TICK_CFG_SRC (1 + 0 % 2), 0 + (({ (base .run) with tick := { (base .run).tick with on := true, commitDue := false, mark := (base .run).now, lost := false } }).put CLK_TICK_CFG_SRC (1 + 0 % 2)).g CLK_TICK_CFG_PERIOD + 300, by decide +kernel⟩⟩

theorem witness_CommitPointEnds :
    (∃ (s : State) (dt : Nat),
       let u := s.tickTo dt
       let lim := u.g CLK_TICK_CFG_PERIOD - 400
       u.tick.on = true ∧ u.tick.commitDue = true ∧ lim ≤ u.tickAge) ∧
    (∃ (s : State) (dt : Nat),
       let u := s.tickTo dt
       (u.tick.on = false ∨ u.tick.commitDue = false ∨ u.tickAge < u.g CLK_TICK_CFG_PERIOD - 400)) :=
  ⟨⟨{ (base .run) with tick := { (base .run).tick with on := true, commitDue := true, mark := (base .run).now } },
    0 + { (base .run) with tick := { (base .run).tick with on := true, commitDue := true, mark := (base .run).now } }.g CLK_TICK_CFG_PERIOD - 400, by decide +kernel⟩,
    ⟨base .run, 0, by decide +kernel⟩⟩

theorem witness_TickCountersClear :
    (∃ (s : State) (dt : Nat),
       let u := (s.tickTo dt).hostBegin
       u.reaches 0x1C9 = true) ∧
    (∃ (s : State) (dt : Nat),
       let u := (s.tickTo dt).hostBegin
       u.reaches 0x1C9 = true) :=
  ⟨⟨base .run, 0, by decide +kernel⟩,
    ⟨base .run, 0, by decide +kernel⟩⟩

theorem witness_HomeLimitFilter :
    (∃ (s : State) (dt : Nat) (n : Fin 8) (pin : LimPin) (held : Nat),
       let u := s.tickTo dt
       u.flPins = true ∧ u.g (AX_PINSEL_FILT n) ≠ 0 ∧ 400 * u.g (AX_PINSEL_FILT n) ≤ held ∧
         (pin = .fb2 → u.mwOn (3 * n.val + 2) = false)) ∧
    (∃ (s : State) (dt : Nat) (n : Fin 8) (pin : LimPin) (held : Nat),
       let u := s.tickTo dt
       (u.flPins = false ∨ u.g (AX_PINSEL_FILT n) = 0 ∨ held < 400 * u.g (AX_PINSEL_FILT n) ∨ (pin = .fb2 ∧
         u.mwOn (3 * n.val + 2) = true))) :=
  ⟨⟨(base .run).put (AX_PINSEL_FILT 0) 1, 0, 0, .fb2, 400, by decide +kernel⟩,
    ⟨base .run, 0, 0, .fb2, 0, by decide +kernel⟩⟩

theorem witness_BrakeClamp :
    (∃ (s : State) (dt : Nat) (st : Fin 2),
       let u := s.tickTo dt
       u.gb (PWR_STAT_CLAMP st) = false ∧ u.awake = true) ∧
    (∃ (s : State) (dt : Nat) (st : Fin 2),
       let u := s.tickTo dt
       u.gb (PWR_STAT_CLAMP st) = false ∧ u.awake = false) ∧
    (∃ (s : State) (dt : Nat) (st : Fin 2),
       let u := s.tickTo dt
       u.gb (PWR_STAT_CLAMP st) = true ∧ u.awake = true) :=
  ⟨⟨base .run, 0, 0, by decide +kernel⟩,
    ⟨State.reset, 0, 0, by decide +kernel⟩,
    ⟨(base .run).put (PWR_STAT_CLAMP 0) 1, 0, 0, by decide +kernel⟩⟩

theorem witness_MotorSupplyLimits :
    (∃ (s : State) (dt : Nat) (st : Fin 2),
       let u := s.tickTo dt
       u.gb (PWR_STAT_VM_OK st) = true) ∧
    (∃ (s : State) (dt : Nat) (st : Fin 2),
       let u := s.tickTo dt
       u.gb (PWR_STAT_VM_OK st) = false) ∧
    (∃ (s : State) (dt : Nat) (st : Fin 2),
       let u := s.tickTo dt
       u.gb (PWR_STAT_OV st) = false) ∧
    (∃ (s : State) (dt : Nat) (st : Fin 2),
       let u := s.tickTo dt
       u.gb (PWR_STAT_REV st) = false) ∧
    (∃ (s : State) (dt : Nat) (st : Fin 2) (rev : Bool),
       let u := s.tickTo dt
       u.gb (if rev then PWR_STAT_REV st else PWR_STAT_OV st) = true) :=
  ⟨⟨(base .run).put (PWR_STAT_VM_OK 0) 1, 0, 0, by decide +kernel⟩,
    ⟨base .run, 0, 0, by decide +kernel⟩,
    ⟨base .run, 0, 0, by decide +kernel⟩,
    ⟨base .run, 0, 0, by decide +kernel⟩,
    ⟨(base .run).put (PWR_STAT_OV 0) 1, 0, 0, false, by decide +kernel⟩⟩

theorem witness_BrakeDump :
    (∃ (s : State) (dt : Nat),
       let u := s.tickTo dt
       (u.dev = .ready ∨ u.dev = .run) ∧ u.gb PWR_STAT_BRK_HOT = false) ∧
    (∃ (s : State) (dt : Nat),
       let u := s.tickTo dt
       u.gb PWR_STAT_DUMP = true ∧ u.power.dumpAt + 8000 ≤ u.now) ∧
    (∃ (s : State) (dt : Nat),
       let u := s.tickTo dt
       u.gb PWR_STAT_DUMP = true ∧ u.now < u.power.dumpAt + 8000) ∧
    (∃ (s : State) (dt : Nat),
       let u := s.tickTo dt
       u.dumpOn = true ∧ u.g PWR_VM_AUX_BRK_MAXON ≠ 0 ∧ u.power.dumpAt + 4000000 * u.g PWR_VM_AUX_BRK_MAXON ≤ u.now) ∧
    (∃ (s : State) (dt : Nat),
       let u := s.tickTo dt
       u.gb PWR_STAT_BRK_HOT = true ∧ u.power.hotAt + 16000000 * u.g PWR_VM_AUX_BRK_MAXON ≤ u.now) ∧
    (∃ (s : State) (dt : Nat),
       let u := s.tickTo dt
       ((u.dev ≠ .ready ∧ u.dev ≠ .run) ∨ u.gb PWR_STAT_BRK_HOT = true)) ∧
    (∃ (s : State) (dt : Nat),
       let u := s.tickTo dt
       u.gb PWR_STAT_DUMP = false) ∧
    (∃ (s : State) (dt : Nat),
       let u := s.tickTo dt
       (u.dumpOn = false ∨ u.g PWR_VM_AUX_BRK_MAXON = 0 ∨ u.now < u.power.dumpAt + 4000000 * u.g PWR_VM_AUX_BRK_MAXON)) ∧
    (∃ (s : State) (dt : Nat),
       let u := s.tickTo dt
       (u.gb PWR_STAT_BRK_HOT = false ∨ u.now < u.power.hotAt + 16000000 * u.g PWR_VM_AUX_BRK_MAXON)) :=
  ⟨⟨base .run, 0, by decide +kernel⟩,
    ⟨(base .run).put PWR_STAT_DUMP 1, 0, by decide +kernel⟩,
    ⟨((base .run).put PWR_STAT_DUMP 1).pw fun p => { p with dumpAt := 999999 }, 0, by decide +kernel⟩,
    ⟨((base .run).put PWR_STAT_DUMP 1).put PWR_VM_AUX_BRK_MAXON 1, 4000000, by decide +kernel⟩,
    ⟨((base .run).put PWR_STAT_BRK_HOT 1).put PWR_VM_AUX_BRK_MAXON 1, 40000000, by decide +kernel⟩,
    ⟨State.reset, 0, by decide +kernel⟩,
    ⟨base .run, 0, by decide +kernel⟩,
    ⟨base .run, 0, by decide +kernel⟩,
    ⟨base .run, 0, by decide +kernel⟩⟩

theorem witness_LogicPowerPath :
    (∃ (s : State) (dt : Nat),
       let u := s.tickTo dt
       u.flOn = true ∧ u.power.grace = none) ∧
    (∃ (s : State) (dt : Nat),
       let u := s.tickTo dt
       (u.flOn = false ∨ u.power.grace ≠ none)) ∧
    (∃ (s : State) (dt g : Nat),
       let u := s.tickTo dt
       u.power.grace = some g ∧ g + 80000000 ≤ u.now) ∧
    (∃ (s : State) (dt : Nat),
       let u := s.tickTo dt
       (∀ g ∈ u.power.grace, u.now < g + 80000000)) ∧
    (∃ (s : State) (dt g : Nat),
       let u := s.tickTo dt
       u.power.grace = some g) ∧
    (∃ (s : State) (dt : Nat),
       let u := s.tickTo dt
       u.power.grace = none) ∧
    (∃ (s : State) (dt : Nat),
       let u := s.tickTo dt
       u.power.holdup = false ∧ u.answers = true) ∧
    (∃ (s : State) (dt : Nat),
       let u := s.tickTo dt
       (u.power.holdup = true ∨ u.answers = false)) :=
  ⟨⟨base .run, 0, by decide +kernel⟩,
    ⟨State.reset, 0, by decide +kernel⟩,
    ⟨{ (base .run) with power := { (base .run).power with grace := some 0 } }, 400000000, 0, by decide +kernel⟩,
    ⟨base .run, 0, by decide +kernel⟩,
    ⟨{ (base .run) with power := { (base .run).power with grace := some 0 } }, 0, 0, by decide +kernel⟩,
    ⟨base .run, 0, by decide +kernel⟩,
    ⟨base .run, 0, by decide +kernel⟩,
    ⟨State.reset, 0, by decide +kernel⟩⟩

theorem witness_FullLogicRestored :
    (∃ (s : State) (dt : Nat),
       let u := s.tickTo dt
       u.dev = .configLoad ∧ u.boot.reload = true ∧ u.boot.stage = 2 ∧ u.boot.fromCore = false ∧ u.surveyorUp = true ∧
         u.flMay = true ∧ u.flOn = false ∧ u.boot.imgOk = false) ∧
    (∃ (s : State) (dt : Nat),
       let u := s.tickTo dt
       u.dev = .configLoad ∧ u.boot.reload = true ∧ u.boot.stage = 2 ∧ u.boot.fromCore = false ∧ u.surveyorUp = true ∧
         u.flMay = true ∧ u.boot.imgOk = true) ∧
    (∃ (s : State) (dt : Nat),
       let u := s.tickTo dt
       (u.dev ≠ .safe ∧ (u.dev ≠ .configLoad ∨ u.boot.reload = false ∨ u.boot.stage ≠ 2 ∨ u.surveyorUp = false ∨ u.flMay = false))) :=
  ⟨⟨({ (base .run) with dev := .configLoad, boot := { (base .run).boot with reload := true, stage := 2, fromCore := false }, power := { (base .run).power with flUp := false } }).put PWR_STAT_SRC_VM 1, 0, by decide +kernel⟩,
    ⟨({ (base .run) with dev := .configLoad, boot := { (base .run).boot with reload := true, stage := 2, fromCore := false, imgOk := true, imgSlot := 0 }, power := { (base .run).power with flUp := false } }).put PWR_STAT_SRC_VM 1, 0, by decide +kernel⟩,
    ⟨base .run, 0, by decide +kernel⟩⟩

theorem witness_V5Output :
    (∃ (s : State) (dt : Nat),
       let u := s.tickTo dt
       u.gb PWR_STAT_V5_ON = true) ∧
    (∃ (s : State) (dt : Nat),
       let u := s.tickTo dt
       (∃ v ∈ u.power.v5Off, v + 200000000 ≤ u.now) ∧ u.gb PWR_PATH_CFG_V5_EN = true ∧ u.flOn = true ∧
         (u.dev ≠ .safe ∨ u.gb PWR_PATH_CFG_V5_SAFE = true) ∧ (∀ l ∈ u.surv.mwCur, 24 ≤ l)) ∧
    (∃ (s : State) (dt : Nat) (l : Fin 24),
       let u := s.tickTo dt
       (∃ v ∈ u.power.v5Off, v + 200000000 ≤ u.now) ∧ u.gb PWR_PATH_CFG_V5_EN = true ∧ u.flOn = true ∧
         (u.dev ≠ .safe ∨ u.gb PWR_PATH_CFG_V5_SAFE = true) ∧ u.surv.mwCur = some l.val) ∧
    (∃ (s : State) (dt : Nat),
       let u := s.tickTo dt
       u.gb PWR_STAT_V5_ON = true ∧ u.gb PWR_STAT_V5_FAULT = true ∧ (∃ v ∈ u.power.v5On, v + 4000000 ≤ u.now)) ∧
    (∃ (s : State) (dt : Nat),
       let u := s.tickTo dt
       u.gb PWR_STAT_V5_ON = false) ∧
    (∃ (s : State) (dt : Nat),
       let u := s.tickTo dt
       ((∀ v ∈ u.power.v5Off, u.now < v + 200000000) ∨ u.gb PWR_PATH_CFG_V5_EN = false ∨ u.flOn = false ∨ (u.dev = .safe ∧
         u.gb PWR_PATH_CFG_V5_SAFE = false))) ∧
    (∃ (s : State) (dt : Nat),
       let u := s.tickTo dt
       (u.gb PWR_STAT_V5_ON = false ∨ u.gb PWR_STAT_V5_FAULT = false ∨ (∀ v ∈ u.power.v5On, u.now < v + 4000000))) :=
  ⟨⟨(base .run).put PWR_STAT_V5_ON 1, 0, by decide +kernel⟩,
    ⟨{ (base .run) with power := { (base .run).power with v5Off := some (base .run).now }, surv := { (base .run).surv with mwCur := if 0 % 2 = 0 then none else some (24 + 0 % 8) } }.put PWR_PATH_CFG_V5_EN 1, 200000000, by decide +kernel⟩,
    ⟨{ (base .run) with power := { (base .run).power with v5Off := some (base .run).now }, surv := { (base .run).surv with mwCur := some (0 : Fin 24).val } }.put PWR_PATH_CFG_V5_EN 1, 200000000, 0, by decide +kernel⟩,
    ⟨(((base .run).pw fun p => { p with v5On := some 0 }).put PWR_STAT_V5_ON 1).put PWR_STAT_V5_FAULT 1, 4000000,
      by decide +kernel⟩,
    ⟨base .run, 0, by decide +kernel⟩,
    ⟨base .run, 0, by decide +kernel⟩,
    ⟨base .run, 0, by decide +kernel⟩⟩

theorem witness_CoilFaults :
    (∃ (s : State) (dt : Nat) (c : Fin 16) (fets : BitVec 4),
       let u := s.tickTo dt
       fets ≠ 0 ∧ u.gBit PWR_COILFLT_OC c = false) ∧
    (∃ (s : State) (dt : Nat) (c : Fin 16) (fets : BitVec 4),
       let u := s.tickTo dt
       fets ≠ 0 ∧ u.gBit PWR_COILFLT_OC c = true) ∧
    (∃ (s : State) (dt : Nat) (c : Fin 16),
       let u := s.tickTo dt
       let n := axisOf c
       u.g (PWR_AXCFG_OPEN_TICKS n) ≠ 0 ∧ u.g (PWR_AXCFG_OPEN_TICKS n) ≤ u.coils[c].openN ∧ u.energised n = true) ∧
    (∃ (s : State) (dt : Nat) (c : Fin 16),
       let u := s.tickTo dt
       let n := axisOf c
       (u.g (PWR_AXCFG_OPEN_TICKS n) = 0 ∨ u.coils[c].openN < u.g (PWR_AXCFG_OPEN_TICKS n) ∨ u.energised n = false)) ∧
    (∃ (s : State) (dt : Nat),
       let u := (s.tickTo dt).hostBegin
       u.reaches 0x149 = true) ∧
    (∃ (s : State) (dt : Nat),
       let u := (s.tickTo dt).hostBegin
       u.reaches 0x149 = true) :=
  ⟨⟨base .run, 0, 0, 1, by decide +kernel⟩,
    ⟨(base .run).putBit PWR_COILFLT_OC 0 true, 0, 0, 1, by decide +kernel⟩,
    ⟨(let s : State := (axesIn .hold).co 0 fun k => { k with openN := 3 };
      (s.put (PWR_AXCFG_OPEN_TICKS (axisOf 0)) (s.coils[0].openN)).ax (axisOf 0) fun a => if 0 % 3 = 0 then a else { a with st := .moving }), 0, 0, by decide +kernel⟩,
    ⟨base .run, 0, 0, by decide +kernel⟩,
    ⟨base .run, 0, by decide +kernel⟩,
    ⟨base .run, 0, by decide +kernel⟩⟩

theorem witness_ThermalBackstops :
    (∃ (s : State) (dt : Nat) (st : Fin 2) (k : Fin 3),
       let u := s.tickTo dt
       let i := 3 * st.val + k.val
       bit u.power.tBack i = false) ∧
    (∃ (s : State) (dt : Nat) (st : Fin 2) (k : Fin 3),
       let u := s.tickTo dt
       let i := 3 * st.val + k.val
       bit u.power.tBack i = true) :=
  ⟨⟨base .run, 0, 0, 0, by decide +kernel⟩,
    ⟨(base .run).pw fun p => { p with tBack := p.tBack ||| 2 ^ (3 * (0 : Fin 2).val + (0 : Fin 3).val) }, 0, 0, 0,
      by decide +kernel⟩⟩

theorem witness_PowerOnAndSystemReset :
    (∃ (s : State) (dt : Nat),
       let u := s.tickTo dt
       u.boot.por = false ∧ u.boot.sys = false ∧ u.surv.fbQ = [] ∧ u.surv.sealing = none ∧ u.gb MG_UPD_STAT_BUSY = false) ∧
    (∃ (s : State) (dt : Nat),
       let u := s.tickTo dt
       u.boot.por = false ∧ u.boot.sys = false ∧ u.nvBusy = true) ∧
    (∃ (s : State) (dt : Nat),
       let u := s.tickTo dt
       (u.boot.por = true ∨ u.boot.sys = true)) ∧
    (∃ (s : State) (dt : Nat),
       let u := s.tickTo dt
       u.boot.sys = true) ∧
    (∃ (s : State) (dt : Nat),
       let u := s.tickTo dt
       u.boot.sys = false) :=
  ⟨⟨base .run, 0, by decide +kernel⟩,
    ⟨(base .run).put MG_UPD_STAT_BUSY 1, 0, by decide +kernel⟩,
    ⟨State.reset, 0, by decide +kernel⟩,
    ⟨if 1 % 2 = 0 then (base .run) else { (base .run) with boot := { (base .run).boot with sys := true } }, 1, by decide +kernel⟩,
    ⟨base .run, 0, by decide +kernel⟩⟩

theorem witness_CoreReset :
    (∃ (s : State) (dt : Nat) (count : BitVec 32),
       let u := s.tickTo dt
       u.boot.por = false ∧ u.boot.sys = false ∧ u.boot.coreOn = false ∧ u.boot.held = none ∧ u.surv.fbQ = [] ∧
         u.surv.sealing = none ∧ u.gb MG_UPD_STAT_BUSY = false ∧ u.boot.cfgValid = true ∧ 25 ≤ count.toNat ∧ count.toNat ≤ 1250) ∧
    (∃ (s : State) (dt : Nat) (count : BitVec 32),
       let u := s.tickTo dt
       u.boot.por = false ∧ u.boot.sys = false ∧ u.boot.coreOn = false ∧ u.boot.held = none ∧ u.surv.fbQ = [] ∧
         u.surv.sealing = none ∧ u.gb MG_UPD_STAT_BUSY = false ∧ u.boot.cfgValid = false ∧ 25 ≤ count.toNat ∧
           count.toNat ≤ 1250) ∧
    (∃ (s : State) (dt : Nat) (count : BitVec 32),
       let u := s.tickTo dt
       (u.boot.por = true ∨ u.boot.sys = true ∨ u.boot.coreOn = true ∨ u.boot.held ≠ none ∨ count.toNat < 25 ∨ 1250 < count.toNat)) ∧
    (∃ (s : State) (dt : Nat),
       let u := s.tickTo dt
       u.boot.coreOn = true) ∧
    (∃ (s : State) (dt : Nat),
       let u := s.tickTo dt
       u.boot.coreOn = false) ∧
    (∃ (s : State) (dt : Nat) (sys : Bool) (count : Nat),
       let u := s.tickTo dt
       u.boot.held = some (sys, count)) ∧
    (∃ (s : State) (dt : Nat),
       let u := s.tickTo dt
       u.boot.held = none) :=
  ⟨⟨base .run, 0, 255, by decide +kernel⟩,
    ⟨({ (base .run) with surv := { (base .run).surv with fbQ := [], sealing := none }, boot := { (base .run).boot with por := false, sys := false, coreOn := false, held := none, cfgValid := false } }).put MG_UPD_STAT_BUSY 0, 0, BitVec.ofNat 32 (25 + 0 % 1226), by decide +kernel⟩,
    ⟨base .run, 0, 0, by decide +kernel⟩,
    ⟨{ (base .run) with boot := { (base .run).boot with coreOn := true } }, 0, by decide +kernel⟩,
    ⟨base .run, 0, by decide +kernel⟩,
    ⟨{ (base .run) with boot := { (base .run).boot with held := some ((false : Bool), 0) } }, 0, false, 0, by decide +kernel⟩,
    ⟨base .run, 0, by decide +kernel⟩⟩

theorem witness_OptionLoadAndBoot :
    (∃ (s : State) (dt : Nat),
       let u := s.tickTo dt
       u.dev = .optionLoad ∧ u.boot.optDone = false) ∧
    (∃ (s : State) (dt : Nat),
       let u := s.tickTo dt
       (u.dev ≠ .optionLoad ∨ u.boot.optDone = true)) ∧
    (∃ (s : State) (dt : Nat),
       let u := s.tickTo dt
       u.dev = .optionLoad ∧ u.boot.optDone = true) ∧
    (∃ (s : State) (dt : Nat),
       let u := s.tickTo dt
       u.dev = .optionLoad ∧ u.boot.optDone = true ∧ u.boot.optAt + 4000000 ≤ u.now) ∧
    (∃ (s : State) (dt : Nat),
       let u := s.tickTo dt
       (u.dev ≠ .optionLoad ∨ u.boot.optDone = false)) ∧
    (∃ (s : State) (dt : Nat),
       let u := s.tickTo dt
       (u.dev ≠ .optionLoad ∨ u.boot.optDone = false ∨ u.now < u.boot.optAt + 4000000)) :=
  ⟨⟨{ (base .run) with dev := .optionLoad, boot := { (base .run).boot with optDone := false } }, 0, by decide +kernel⟩,
    ⟨base .run, 0, by decide +kernel⟩,
    ⟨base .optionLoad, 0, by decide +kernel⟩,
    ⟨{ (base .run) with dev := .optionLoad, boot := { (base .run).boot with optDone := true, optAt := (base .run).now } },
      4000000, by decide +kernel⟩,
    ⟨base .run, 0, by decide +kernel⟩,
    ⟨base .run, 0, by decide +kernel⟩⟩

theorem witness_FirmwareAndImage :
    (∃ (s : State) (dt : Nat),
       let u := s.tickTo dt
       u.dev = .boot ∧ u.surveyorUp = true ∧ u.boot.failRead = 0) ∧
    (∃ (s : State) (dt : Nat),
       let u := s.tickTo dt
       (u.dev ≠ .boot ∨ u.surveyorUp = false)) ∧
    (∃ (s : State) (dt : Nat),
       let u := s.tickTo dt
       u.dev = .configLoad ∧ u.boot.stage = 0 ∧ u.boot.fromCore = false ∧ u.surveyorUp = true) ∧
    (∃ (s : State) (dt : Nat),
       let u := s.tickTo dt
       (u.dev ≠ .configLoad ∨ u.boot.stage ≠ 0 ∨ u.boot.fromCore = true ∨ u.surveyorUp = false)) :=
  ⟨⟨base .boot, 0, by decide +kernel⟩,
    ⟨base .run, 0, by decide +kernel⟩,
    ⟨base .configLoad, 0, by decide +kernel⟩,
    ⟨base .run, 0, by decide +kernel⟩⟩

theorem witness_ConfigLoad :
    (∃ (s : State) (dt : Nat) (rd : Vector IdRead 8),
       let u := s.tickTo dt
       u.dev = .configLoad ∧ u.boot.stage = 1 ∧ u.surveyorUp = true ∧ u.boot.imgOk = false ∧ (∀ n : Fin 8, ∀ b,
         rd[n] = .bytes b → recordCheck b ≠ 1)) ∧
    (∃ (s : State) (dt : Nat),
       let u := s.tickTo dt
       u.dev = .configLoad ∧ u.boot.stage = 1 ∧ u.surveyorUp = true) ∧
    (∃ (s : State) (dt : Nat),
       let u := s.tickTo dt
       (u.dev ≠ .configLoad ∨ u.boot.stage ≠ 1 ∨ u.surveyorUp = false)) ∧
    (∃ (s : State) (dt : Nat),
       let u := s.tickTo dt
       u.dev = .configLoad ∧ u.boot.stage = 2 ∧ u.gb DEV_STATE_WAIT_FL = false ∧ u.surveyorUp = true ∧ u.flMay = true ∧
         u.boot.fromCore = false) ∧
    (∃ (s : State) (dt : Nat),
       let u := s.tickTo dt
       (u.dev ≠ .configLoad ∨ u.boot.stage ≠ 2 ∨ u.gb DEV_STATE_WAIT_FL = true ∨ u.surveyorUp = false ∨ (u.flMay = false ∧
         u.flOn = false))) :=
  ⟨⟨{ (base .run) with dev := .configLoad, boot := { (base .run).boot with stage := 1, imgOk := false } }, 0,
    Vector.replicate 8 .absent, ⟨by decide +kernel, by decide +kernel, by decide +kernel, by decide +kernel,
      fun n b h => by simp at h⟩⟩,
    ⟨{ (base .run) with dev := .configLoad, boot := { (base .run).boot with stage := 1 } }, 0, by decide +kernel⟩,
    ⟨base .run, 0, by decide +kernel⟩,
    ⟨(({ (base .run) with dev := .configLoad, boot := { (base .run).boot with stage := 2, fromCore := false }, power := { (base .run).power with flUp := false } }).put PWR_STAT_SRC_VM 1).put DEV_STATE_WAIT_FL 0, 0, by decide +kernel⟩,
    ⟨base .run, 0, by decide +kernel⟩⟩

theorem witness_ReadyAndRun :
    (∃ (s : State) (dt : Nat),
       let u := s.tickTo dt
       u.dev = .configLoad ∧ u.boot.stage = 3 ∧ u.flOn = true) ∧
    (∃ (s : State) (dt : Nat),
       let u := s.tickTo dt
       (u.dev ≠ .configLoad ∨ u.boot.stage ≠ 3 ∨ u.flOn = false)) ∧
    (∃ (s : State) (dt : Nat),
       let u := s.tickTo dt
       u.dev = .ready ∧ u.stations[0].sv.first = true ∧ u.stations[1].sv.first = true ∧ u.gb XCHK_STAT_LAST_OK = true) ∧
    (∃ (s : State) (dt : Nat),
       let u := s.tickTo dt
       (u.dev ≠ .ready ∨ u.stations[0].sv.first = false ∨ u.stations[1].sv.first = false ∨ u.gb XCHK_STAT_LAST_OK = false)) :=
  ⟨⟨{ (base .run) with dev := .configLoad, boot := { (base .run).boot with stage := 3 } }, 0, by decide +kernel⟩,
    ⟨base .run, 0, by decide +kernel⟩,
    ⟨({ (base .run) with dev := .ready, stations := (base .run).stations.map fun (x : Station) => ({ x with sv := { x.sv with first := true } } : Station) }).put XCHK_STAT_LAST_OK 1, 0, by decide +kernel⟩,
    ⟨base .run, 0, by decide +kernel⟩⟩

theorem witness_Watchdogs :
    (∃ (s : State) (dt : Nat),
       let u := s.tickTo dt
       u.boot.wdOn = true ∧ (u.dev = .boot ∨ u.dev = .configLoad ∨ u.dev = .ready) ∧ u.boot.wdAt + 800000000 ≤ u.now) ∧
    (∃ (s : State) (dt : Nat),
       let u := s.tickTo dt
       (u.boot.wdOn = false ∨ (u.dev ≠ .boot ∧ u.dev ≠ .configLoad ∧ u.dev ≠ .ready) ∨ u.now < u.boot.wdAt + 800000000)) ∧
    (∃ (s : State) (dt : Nat),
       let u := s.tickTo dt
       u.boot.fwRunning = true ∧ u.surveyorUp = true) ∧
    (∃ (s : State) (dt : Nat),
       let u := s.tickTo dt
       (u.boot.fwRunning = false ∨ u.surveyorUp = false)) ∧
    (∃ (s : State) (dt : Nat),
       let u := s.tickTo dt
       u.dev = .run ∧ u.g DEV_WDOG_CFG_HOST_TO ≠ 0 ∧ u.gb DEV_WDOG_CFG_EXPIRED = false ∧
         u.boot.hostAt + 400000 * u.g DEV_WDOG_CFG_HOST_TO ≤ u.now) ∧
    (∃ (s : State) (dt : Nat),
       let u := s.tickTo dt
       (u.dev ≠ .run ∨ u.g DEV_WDOG_CFG_HOST_TO = 0 ∨ u.gb DEV_WDOG_CFG_EXPIRED = true ∨ u.now < u.boot.hostAt + 400000 * u.g DEV_WDOG_CFG_HOST_TO)) :=
  ⟨⟨{ (base .run) with dev := if 0 % 3 = 0 then .boot else if 0 % 3 = 1 then .ready else (base .run).dev, boot := { (base .run).boot with wdOn := true, wdAt := (base .run).now } }, 800000000, by decide +kernel⟩,
    ⟨base .run, 0, by decide +kernel⟩,
    ⟨base .run, 0, by decide +kernel⟩,
    ⟨State.reset, 0, by decide +kernel⟩,
    ⟨(base .run).put DEV_WDOG_CFG_HOST_TO 1, 0, by decide +kernel⟩,
    ⟨base .run, 0, by decide +kernel⟩⟩

theorem witness_BootControlAndBlockResets :
    (∃ (s : State) (dt : Nat) (lk : Link),
       let u := (s.tickTo dt).hostBegin
       u.reaches 0x13 = true ∧ (u.link lk).armed = true ∧ u.dev = .recovery) ∧
    (∃ (s : State) (dt : Nat) (lk : Link),
       let u := (s.tickTo dt).hostBegin
       u.reaches 0x13 = true ∧ (u.link lk).armed = true ∧ u.dev ≠ .recovery) ∧
    (∃ (s : State) (dt : Nat) (lk : Link),
       let u := (s.tickTo dt).hostBegin
       u.reaches 0x13 = true ∧ (u.link lk).armed = true) ∧
    (∃ (s : State) (dt : Nat) (lk : Link),
       let u := (s.tickTo dt).hostBegin
       u.reaches 0x13 = true ∧ (u.link lk).armed = true ∧ u.dev = .safe) ∧
    (∃ (s : State) (dt : Nat) (lk : Link),
       let u := (s.tickTo dt).hostBegin
       u.reaches 0x13 = true ∧ (u.link lk).armed = true ∧ u.dev ≠ .safe) ∧
    (∃ (s : State) (dt : Nat) (lk : Link),
       let u := (s.tickTo dt).hostBegin
       u.reaches 0x13 = true ∧ (u.link lk).armed = false) ∧
    (∃ (s : State) (dt : Nat),
       let u := (s.tickTo dt).hostBegin
       u.reaches 0x15 = true) ∧
    (∃ (s : State) (dt : Nat) (n : Fin 8) (since : Nat),
       let u := s.tickTo dt
       u.axes[n].rst = .wait since ∧ u.slowing n = true ∧ since + 400000 * u.g DEV_BLKRST_CFG_QTO ≤ u.now) ∧
    (∃ (s : State) (dt : Nat) (n : Fin 8),
       let u := s.tickTo dt
       (u.slowing n = false ∨ ∀ since, u.axes[n].rst = .wait since → u.now < since + 400000 * u.g DEV_BLKRST_CFG_QTO)) ∧
    (∃ (s : State) (dt : Nat),
       let u := (s.tickTo dt).hostBegin
       u.reaches 0x15 = true) :=
  ⟨⟨(base .recovery).lnk .spi fun k => { k with armed := true }, 0, .spi, by decide +kernel⟩,
    ⟨(base .run).lnk .spi fun k => { k with armed := true }, 0, .spi, by decide +kernel⟩,
    ⟨(base .run).lnk .spi fun k => { k with armed := true }, 0, .spi, by decide +kernel⟩,
    ⟨(base .safe).lnk .spi fun k => { k with armed := true }, 0, .spi, by decide +kernel⟩,
    ⟨(base .run).lnk .spi fun k => { k with armed := true }, 0, .spi, by decide +kernel⟩,
    ⟨base .run, 0, .spi, by decide +kernel⟩,
    ⟨base .run, 0, by decide +kernel⟩,
    ⟨(axesIn .moving).ax 0 fun a => { a with rst := .wait 0 }, 400000000, 0, 0, by decide +kernel⟩,
    ⟨base .run, 0, 0, .inl (by decide +kernel)⟩,
    ⟨base .run, 0, by decide +kernel⟩⟩

theorem witness_PlainRegisterWrite :
    (∃ (s : State) (dt : Nat) (addr : BitVec 16),
       let u := (s.tickTo dt).hostBegin
       let a := addr.toNat
       u.reaches a = true ∧ quietAddr a = true) ∧
    (∃ (s : State) (dt : Nat) (addr : BitVec 16),
       let u := (s.tickTo dt).hostBegin
       addr ≠ 0x20 ∧ u.answers = true ∧ u.reaches addr.toNat = false) ∧
    (∃ (s : State) (dt : Nat),
       let u := (s.tickTo dt).hostBegin
       u.answers = false) :=
  ⟨⟨base .run, 0, 0, by decide +kernel⟩,
    ⟨if 0 % 2 = 0 then { (base .run) with power := { (base .run).power with flUp := false } } else (base .run).put DEV_BLKRST_STAT_BUSY 0xFF, 0, BitVec.ofNat 16 (0x400 + (0 : BitVec 16).toNat % 0xC00), by decide +kernel⟩,
    ⟨State.reset, 0, by decide +kernel⟩⟩

theorem witness_UnlockArmsOneWrite :
    (∃ (s : State) (dt : Nat),
       let u := (s.tickTo dt).hostBegin
       u.answers = true) ∧
    (∃ (s : State),
       s.served 0x23 = true) ∧
    (∃ (s : State) (dt : Nat),
       let u := (s.tickTo dt).hostBegin
       u.answers = false) :=
  ⟨⟨base .run, 0, by decide +kernel⟩,
    ⟨base .run, by decide +kernel⟩,
    ⟨State.reset, 0, by decide +kernel⟩⟩

theorem witness_StrobeTakesASnapshot :
    (∃ (s : State) (dt : Nat) (data : Word),
       let u := (s.tickTo dt).hostBegin
       u.reaches 0x21 = true ∧ bits data.toNat 0 11 ≠ 0 ∧ u.dev ≠ .recovery) ∧
    (∃ (s : State) (dt : Nat) (data : Word),
       let u := (s.tickTo dt).hostBegin
       u.reaches 0x21 = true ∧ (bits data.toNat 0 11 = 0 ∨ u.dev = .recovery)) :=
  ⟨⟨base .run, 0, 1, by decide +kernel⟩,
    ⟨base .run, 0, 0, by decide +kernel⟩⟩

theorem witness_IndirectAccess :
    (∃ (s : State) (dt : Nat),
       let u := (s.tickTo dt).hostBegin
       u.reaches 0x24 = true) ∧
    (∃ (s : State) (dt : Nat) (lk : Link),
       let u := s.tickTo dt
       let k := u.link lk
       u.answers = true ∧ u.indReady lk = true ∧ k.bad = false ∧ u.indAnswers k.ptr = true ∧ k.pastEnd = false) ∧
    (∃ (s : State) (dt : Nat) (lk : Link),
       let u := s.tickTo dt
       let k := u.link lk
       u.answers = true ∧ (k.bad = true ∨ k.pastEnd = true ∨ u.indAnswers k.ptr = false)) ∧
    (∃ (s : State) (dt : Nat) (lk : Link),
       let u := s.tickTo dt
       (u.answers = false ∨ u.indReady lk = false)) ∧
    (∃ (s : State) (dt : Nat) (lk : Link),
       let u := (s.tickTo dt).hostBegin
       let k := u.link lk
       u.reaches 0x25 = true ∧ k.bad = false ∧ u.indAnswers k.ptr = true ∧ k.pastEnd = false ∧ u.indQ.length < 4) ∧
    (∃ (s : State) (dt : Nat) (lk : Link),
       let u := (s.tickTo dt).hostBegin
       let k := u.link lk
       u.reaches 0x25 = true ∧ (k.bad = true ∨ k.pastEnd = true ∨ u.indAnswers k.ptr = false ∨ 4 ≤ u.indQ.length)) ∧
    (∃ (s : State) (dt : Nat) (q : IndWrite) (l : List IndWrite),
       let u := s.tickTo dt
       u.indQ = q :: l ∧ (0x500 ≤ q.addr)) ∧
    (∃ (s : State) (dt : Nat) (q : IndWrite) (l : List IndWrite),
       let u := s.tickTo dt
       u.indQ = q :: l ∧ q.addr < 0x500 ∧ q.addr ∉ [0x008, 0x012, 0x021, 0x100, 0x200, 0x401]) ∧
    (∃ (s : State) (dt : Nat),
       let u := s.tickTo dt
       u.indQ = []) :=
  ⟨⟨base .run, 0, by decide +kernel⟩,
    ⟨base .run, 0, .spi, by decide +kernel⟩,
    ⟨base .boot, 0, .spi, by decide +kernel⟩,
    ⟨State.reset, 0, .spi, by decide +kernel⟩,
    ⟨base .run, 0, .spi, by decide +kernel⟩,
    ⟨base .boot, 0, .spi, by decide +kernel⟩,
    ⟨{ (base .run) with indQ := { ind0 with addr := if 0 % 2 = 0 then 0x4000 + ind0.addr % 0x400 else if 0 % 4 = 1 then 0x10000 + ind0.addr % 0x1000 else 0x1000 + ind0.addr % 0x800 } :: ([] : List IndWrite) }, 0, { ind0 with addr := if 0 % 2 = 0 then 0x4000 + ind0.addr % 0x400 else if 0 % 4 = 1 then 0x10000 + ind0.addr % 0x1000 else 0x1000 + ind0.addr % 0x800 }, [], by decide +kernel⟩,
    ⟨{ (base .run) with indQ := ind0 :: ([] : List IndWrite) }, 0, ind0, [], by decide +kernel⟩,
    ⟨base .run, 0, by decide +kernel⟩⟩

theorem witness_Mailboxes :
    (∃ (s : State) (dt : Nat) (m : Fin 8) (data : Word),
       let u := (s.tickTo dt).hostBegin
       u.reaches (0x200 + 16 * m.val) = true ∧ data.getLsbD 16 = true) ∧
    (∃ (s : State) (dt : Nat) (m : Fin 8) (data : Word),
       let u := (s.tickTo dt).hostBegin
       u.reaches (0x200 + 16 * m.val) = true ∧ data.getLsbD 16 = false ∧
         bits data.toNat 0 13 = (u.word (MB_REQ_ITEM m).a).toNat % 2 ^ 13) ∧
    (∃ (s : State) (dt : Nat) (m : Fin 8),
       let u := s.tickTo dt
       u.answers = true ∧ u.served (MB_D_DATA m 0).a = true ∧ u.gb (MB_STAT_VALID m) = true ∧ 1 ≤ u.g (MB_STAT_LEN m) ∧
         u.g (MB_STAT_LEN m) ≤ 8) ∧
    (∃ (s : State) (dt : Nat) (m : Fin 8),
       let u := s.tickTo dt
       (u.answers = false ∨ u.gb (MB_STAT_VALID m) = false ∨ u.g (MB_STAT_LEN m) = 0)) :=
  ⟨⟨base .run, 0, 0, 0xFFFFFFFF, by decide +kernel⟩,
    ⟨base .run, 0, 0, 0, by decide +kernel⟩,
    ⟨((base .run).put (MB_STAT_VALID 0) 1).put (MB_STAT_LEN 0) (1 + 0 % 8), 0, 0, by decide +kernel⟩,
    ⟨base .run, 0, 0, by decide +kernel⟩⟩

theorem witness_CitenFrames :
    (∃ (s : State) (dt : Nat) (f : Frame),
       let u := (s.tickTo dt).hostBegin
       let k := u.link .spi
       u.citenOpen = true ∧ u.turnFree .spi = true ∧ f.edges = 96 ∧ f.flags.toNat / 2 = 0 ∧ crc16 (frameBytes f 0) = f.crc.toNat ∧
         (∀ e ∈ k.expAlive, e = f.alive.toNat)) ∧
    (∃ (s : State) (dt : Nat) (f : Frame),
       let u := (s.tickTo dt).hostBegin
       let k := u.link .spi
       u.citenOpen = true ∧ u.turnFree .spi = true ∧ f.edges = 96 ∧ f.flags.toNat / 2 = 0 ∧ crc16 (frameBytes f 1) = f.crc.toNat ∧
         (∀ e ∈ k.expAlive, e = f.alive.toNat) ∧ 0x280 ≤ f.addr.toNat) ∧
    (∃ (s : State) (dt : Nat) (f : Frame),
       let u := (s.tickTo dt).hostBegin
       let k := u.link .spi
       let a := f.addr.toNat
       u.citenOpen = true ∧ u.turnFree .spi = true ∧ f.edges = 96 ∧ f.flags.toNat / 2 = 0 ∧ crc16 (frameBytes f 2) = f.crc.toNat ∧
         (∀ e ∈ k.expAlive, e = f.alive.toNat) ∧ quietAddr a = true ∧ a ≠ 0x14) ∧
    (∃ (s : State) (dt : Nat) (op : BitVec 4) (f : Frame),
       let u := s.tickTo dt
       let k := u.link .spi
       u.citenOpen = true ∧ f.edges = 96 ∧ (3 ≤ op.toNat ∨ f.flags.toNat / 2 ≠ 0) ∧ crc16 (frameBytes f op.toNat) = f.crc.toNat ∧
         (∀ e ∈ k.expAlive, e = f.alive.toNat)) ∧
    (∃ (s : State) (dt : Nat) (op : Fin 3) (f : Frame),
       let u := s.tickTo dt
       u.citenOpen = true ∧ f.edges = 96 ∧ crc16 (frameBytes f op.val) ≠ f.crc.toNat) ∧
    (∃ (s : State) (dt : Nat) (op : Fin 3) (f : Frame) (e : Nat),
       let u := s.tickTo dt
       let k := u.link .spi
       u.citenOpen = true ∧ f.edges = 96 ∧ crc16 (frameBytes f op.val) = f.crc.toNat ∧ k.expAlive = some e ∧ e ≠ f.alive.toNat) ∧
    (∃ (s : State) (dt : Nat) (f : Frame),
       let u := s.tickTo dt
       u.citenOpen = true ∧ f.edges ≠ 96 ∧ f.edges ≠ 0) ∧
    (∃ (s : State) (dt : Nat) (f : Frame),
       let u := s.tickTo dt
       u.answers = true ∧ f.edges = 0) ∧
    (∃ (s : State) (dt : Nat),
       let u := s.tickTo dt
       u.answers = false) ∧
    (∃ (s : State) (dt : Nat) (f : Frame),
       let u := s.tickTo dt
       u.answers = true ∧ u.gb LNK_SPI_STAT_SELECTED = false ∧ f.edges ≠ 0) ∧
    (∃ (s : State) (dt : Nat) (op : Fin 2) (f : Frame) (h : HeldFrame),
       let u := s.tickTo dt
       u.citenOpen = true ∧ f.edges = 96 ∧ f.flags.toNat / 2 = 0 ∧ crc16 (frameBytes f (2 * op.val)) = f.crc.toNat ∧
         (∀ e ∈ (u.link .spi).expAlive, e = f.alive.toNat) ∧ u.turnFree .spi = false ∧ (u.link .gr).held = some h ∧ h.op = 1) :=
  ⟨⟨((base .run).put LNK_SPI_STAT_SELECTED 1).lnk .spi fun k => { k with chain := false }, 0,
    { frame0 with crc := BitVec.ofNat 16 (crc16 (frameBytes frame0 0)) }, by decide +kernel⟩,
    ⟨((base .run).put LNK_SPI_STAT_SELECTED 1).lnk .spi fun k => { k with chain := false }, 0,
      (let f : Frame := { frame0 with edges := 96, flags := if 0 % 2 = 0 then 0 else 1, alive := BitVec.ofNat 4 ((((base .run).link .spi).expAlive).getD 3), addr := BitVec.ofNat 16 (0x280 + frame0.addr.toNat % 0xD80) }; { f with crc := BitVec.ofNat 16 (crc16 (frameBytes f 1)) }), by decide +kernel⟩,
    ⟨((base .run).put LNK_SPI_STAT_SELECTED 1).lnk .spi fun k => { k with chain := false }, 0,
      { frame0 with crc := BitVec.ofNat 16 (crc16 (frameBytes frame0 2)) }, by decide +kernel⟩,
    ⟨((base .run).put LNK_SPI_STAT_SELECTED 1).lnk .spi fun k => { k with chain := false }, 0, 3,
      { frame0 with crc := BitVec.ofNat 16 (crc16 (frameBytes frame0 (3 : BitVec 4).toNat)) }, by decide +kernel⟩,
    ⟨((base .run).put LNK_SPI_STAT_SELECTED 1).lnk .spi fun k => { k with chain := false }, 0, 0, frame0, by decide +kernel⟩,
    ⟨(((base .run).lnk .spi fun k => { k with expAlive := some 1 }).put LNK_SPI_STAT_SELECTED 1).lnk .spi fun k => { k with chain := false }, 0, 0, { frame0 with crc := BitVec.ofNat 16 (crc16 (frameBytes frame0 (0 : Fin 3).val)) }, 1, by decide +kernel⟩,
    ⟨((base .run).put LNK_SPI_STAT_SELECTED 1).lnk .spi fun k => { k with chain := false }, 0, { frame0 with edges := 95 },
      by decide +kernel⟩,
    ⟨base .run, 0, { frame0 with edges := 0 }, by decide +kernel⟩,
    ⟨State.reset, 0, by decide +kernel⟩,
    ⟨base .run, 0, frame0, by decide +kernel⟩,
    ⟨(let s : State := ((base .run).put LNK_SPI_STAT_SELECTED 1).put CLK_STAT_RC_ONLY 0;
      { s.lnk .gr fun k => { k with held := some (let op : Fin 2 := 0; { held0 with op := 1 }) } with arb := { s.arb with lastLink := .spi } }), 0, 0, { frame0 with crc := BitVec.ofNat 16 (crc16 (frameBytes frame0 (2 * (0 : Fin 2).val))) }, (let op : Fin 2 := 0; { held0 with op := 1 }), by decide +kernel⟩⟩

theorem witness_FrameStartAndHeldFrames :
    (∃ (s : State) (dt : Nat),
       let u := s.tickTo dt
       let k := u.link .spi
       u.answers = true ∧ k.rstDue = false) ∧
    (∃ (s : State) (dt : Nat),
       let u := s.tickTo dt
       u.answers = true ∧ (u.link .spi).rstDue = true) ∧
    (∃ (s : State) (dt : Nat),
       let u := s.tickTo dt
       u.answers = false) ∧
    (∃ (s : State) (dt : Nat) (f : Frame),
       let u := s.tickTo dt
       let k := u.link .spi
       u.citenOpen = true ∧ f.edges = 96 ∧ f.flags.toNat / 2 = 0 ∧ crc16 (frameBytes f 1) = f.crc.toNat ∧ (∀ e ∈ k.expAlive,
         e = f.alive.toNat) ∧ f.addr = 0x25 ∧ u.indReady .spi = false) ∧
    (∃ (s : State) (dt : Nat) (h : HeldFrame),
       let u := (s.tickTo dt).hostBegin
       let k := u.link .spi
       u.answers = true ∧ u.turnFree .spi = true ∧ k.held = some h ∧ h.op = 1 ∧ h.addr = 0x25 ∧ h.hseq < 65536 ∧
         u.indReady .spi = true ∧ k.bad = false ∧ k.pastEnd = false ∧ u.indAnswers k.ptr = true) ∧
    (∃ (s : State) (dt : Nat) (lk : Link),
       let u := s.tickTo dt
       u.heldReady lk = false ∧ (lk = .gr → (u.link .gr).held = none → u.grelas.todo = [])) :=
  ⟨⟨(base .run).lnk .spi fun k => { k with rstDue := false }, 0, by decide +kernel⟩,
    ⟨base .run, 0, by decide +kernel⟩,
    ⟨State.reset, 0, by decide +kernel⟩,
    ⟨(((base .run).lnk .spi fun k => { k with expAlive := k.expAlive.map (· % 16), bad := false, pastEnd := false, ptr := k.ptr % 0x38, rbusy := true, pfAt := (base .run).now + 2^40 }).put LNK_SPI_STAT_SELECTED 1).lnk .spi fun k => { k with chain := false }, 0, (let f : Frame := { frame0 with edges := 96, flags := 0, alive := BitVec.ofNat 4 ((((base .run).link .spi).expAlive).getD 3), addr := 0x25 }; { f with crc := BitVec.ofNat 16 (crc16 (frameBytes f 1)) }), by decide +kernel⟩,
    ⟨({ (base .run) with indQ := [] } : State).lnk .spi fun k => { k with bad := false, pastEnd := false, ptr := k.ptr % 0x38, rbusy := false, held := some { held0 with op := 1, addr := 0x25, hseq := held0.hseq % 65536 } }, 0, { held0 with op := 1, addr := 0x25, hseq := held0.hseq % 65536 }, by decide +kernel⟩,
    ⟨base .run, 0, .spi, by decide +kernel⟩⟩

theorem witness_LinkRegisterCommands :
    (∃ (s : State) (dt : Nat),
       let u := (s.tickTo dt).hostBegin
       u.reaches 0x30 = true) ∧
    (∃ (s : State) (dt : Nat),
       let u := (s.tickTo dt).hostBegin
       u.reaches 0x23 = true) ∧
    (∃ (s : State) (dt : Nat),
       let u := (s.tickTo dt).hostBegin
       u.reaches 0x41 = true) ∧
    (∃ (s : State) (dt : Nat),
       let u := (s.tickTo dt).hostBegin
       u.reaches 0x51 = true) ∧
    (∃ (s : State) (dt : Nat) (lk : Link),
       let u := (s.tickTo dt).hostBegin
       u.reaches 0x40 = true ∧ (u.link lk).armed = true ∧ u.g LNK_SPI_CFG_CHAIN_PERM = 1) ∧
    (∃ (s : State) (dt : Nat) (lk : Link),
       let u := (s.tickTo dt).hostBegin
       u.reaches 0x40 = true ∧ ((u.link lk).armed = false ∨ u.g LNK_SPI_CFG_CHAIN_PERM ≠ 1)) :=
  ⟨⟨base .run, 0, by decide +kernel⟩,
    ⟨base .run, 0, by decide +kernel⟩,
    ⟨base .run, 0, by decide +kernel⟩,
    ⟨base .run, 0, by decide +kernel⟩,
    ⟨((base .run).put LNK_SPI_CFG_CHAIN_PERM 1).lnk (.spi : Link) fun k => { k with armed := true }, 0, .spi, by decide +kernel⟩,
    ⟨base .run, 0, .spi, by decide +kernel⟩⟩

theorem witness_ChainWindow :
    (∃ (s : State) (dt : Nat) (v : Fin 8),
       let u := s.tickTo dt
       u.chainHas v = true) ∧
    (∃ (s : State) (dt : Nat) (v : Fin 8) (a : Fin 3) (data : Word),
       let u := s.tickTo dt
       u.chainHas v = true ∧ u.flOn = true ∧ data ≠ 0 ∧ (a = 0 → data.toNat < 2 ^ 31)) ∧
    (∃ (s : State) (dt : Nat) (v : Fin 8) (data : Word),
       let u := s.tickTo dt
       u.chainHas v = true ∧ u.flOn = true ∧ bits data.toNat 0 2 ≠ 3) ∧
    (∃ (s : State) (dt : Nat) (v : Fin 8) (data : Word),
       let u := s.tickTo dt
       u.chainHas v = true ∧ u.flOn = true ∧ 1 ≤ data.toNat ∧ data.toNat ≤ 4096) ∧
    (∃ (s : State) (dt : Nat) (v : Fin 8) (a : Fin 5) (data : Word),
       let u := s.tickTo dt
       u.chainHas v = true ∧ (a = 3 → bits data.toNat 0 2 = 3) ∧ (a = 4 → data = 0 ∨ 4096 < data.toNat) ∧
         (a.val < 3 → data = 0 ∨ (a = 0 ∧ 2 ^ 31 ≤ data.toNat))) ∧
    (∃ (s : State) (dt : Nat) (v : Fin 8),
       let u := s.tickTo dt
       u.chainHas v = false) :=
  ⟨⟨((base .run).put LNK_SPI_STAT_MODE_ACT 1).put LNK_SPI_CFG_CHAIN_LEN 7, 0, 0, by decide +kernel⟩,
    ⟨((base .run).put LNK_SPI_STAT_MODE_ACT 1).put LNK_SPI_CFG_CHAIN_LEN 7, 0, 0, 0, 1, by decide +kernel⟩,
    ⟨((base .run).put LNK_SPI_STAT_MODE_ACT 1).put LNK_SPI_CFG_CHAIN_LEN 7, 0, 0, 0, by decide +kernel⟩,
    ⟨((base .run).put LNK_SPI_STAT_MODE_ACT 1).put LNK_SPI_CFG_CHAIN_LEN 7, 0, 0, 1, by decide +kernel⟩,
    ⟨((base .run).put LNK_SPI_STAT_MODE_ACT 1).put LNK_SPI_CFG_CHAIN_LEN 7, 0, 0, 0, 0, by decide +kernel⟩,
    ⟨base .run, 0, 0, by decide +kernel⟩⟩

theorem witness_ChainCommands :
    (∃ (s : State) (dt : Nat) (v : Fin 8) (k : Fin 6),
       let u := s.tickTo dt
       let st := u.axes[v].st
       u.chainHas v = true ∧ (k = 0 → st.energised = false) ∧ (k = 1 → st.energised = true ∧ st ≠ .follow) ∧
         (k = 2 → st ≠ .follow) ∧ (k = 3 → st = .follow)) ∧
    (∃ (s : State) (dt : Nat) (v : Fin 8),
       let u := s.tickTo dt
       u.chainHas v = true) ∧
    (∃ (s : State) (dt : Nat) (v : Fin 8),
       let u := s.tickTo dt
       u.chainHas v = true) :=
  ⟨⟨(((base .run).put LNK_SPI_STAT_MODE_ACT 1).put LNK_SPI_CFG_CHAIN_LEN 7).put DEV_BLKRST_STAT_BUSY 0, 0, 0, 0,
    by decide +kernel⟩,
    ⟨(((base .run).put LNK_SPI_STAT_MODE_ACT 1).put LNK_SPI_CFG_CHAIN_LEN 7).put DEV_BLKRST_STAT_BUSY 0, 0, 0, by decide +kernel⟩,
    ⟨(((base .run).put LNK_SPI_STAT_MODE_ACT 1).put LNK_SPI_CFG_CHAIN_LEN 7).put DEV_BLKRST_STAT_BUSY 0, 0, 0, by decide +kernel⟩⟩

theorem witness_ChainTransfer :
    (∃ (s : State) (dt edges : Nat) (ws : List (BitVec 40)),
       let u := s.tickTo dt
       let len := u.g LNK_SPI_CFG_CHAIN_LEN + 1
       let word := fun (v : Fin 8) => ws.getD (len - 1 - v.val) 0
       u.answers = true ∧ u.gb LNK_SPI_STAT_SELECTED = true ∧ (u.link .spi).chain = true ∧ edges = 40 * len ∧ (∀ v : Fin 8,
         v.val < len → (word v).getLsbD 39 = false)) ∧
    (∃ (s : State) (dt : Nat),
       let u := s.tickTo dt
       u.answers = true ∧ u.gb LNK_SPI_STAT_SELECTED = true ∧ (u.link .spi).chain = true ∧ u.g LNK_SPI_CFG_CHAIN_LEN = 0) ∧
    (∃ (s : State) (dt edges : Nat),
       let u := s.tickTo dt
       u.answers = true ∧ u.gb LNK_SPI_STAT_SELECTED = true ∧ (u.link .spi).chain = true ∧ edges ≠ 0 ∧
         edges ≠ 40 * (u.g LNK_SPI_CFG_CHAIN_LEN + 1)) ∧
    (∃ (s : State) (dt edges : Nat),
       let u := s.tickTo dt
       u.answers = true ∧ u.gb LNK_SPI_STAT_SELECTED = false ∧ edges ≠ 0) ∧
    (∃ (s : State) (dt : Nat),
       let u := s.tickTo dt
       u.citenOpen = true) :=
  ⟨⟨(((base .run).put LNK_SPI_STAT_SELECTED 1).lnk .spi fun k => { k with chain := true }).put LNK_SPI_CFG_CHAIN_LEN 0, 0,
    40 * (0 % 8 + 1), [], by decide +kernel⟩,
    ⟨(((base .run).put LNK_SPI_STAT_SELECTED 1).lnk .spi fun k => { k with chain := true }).put LNK_SPI_CFG_CHAIN_LEN 0, 0,
      by decide +kernel⟩,
    ⟨((base .run).put LNK_SPI_STAT_SELECTED 1).lnk .spi fun k => { k with chain := true }, 0, 1, by decide +kernel⟩,
    ⟨base .run, 0, 1, by decide +kernel⟩,
    ⟨((base .run).put LNK_SPI_STAT_SELECTED 1).lnk .spi fun k => { k with chain := false }, 0, by decide +kernel⟩⟩

theorem witness_GrelasPolls :
    (∃ (s : State) (dt : Nat) (p : Packet) (q : GrPacket),
       let u := s.tickTo dt
       u.grelasOn = true ∧ (lineIn p.line = some (q.inverted, none) ∨ (lineIn p.line = some (q.inverted, some q.bytes) ∧
         pkWhole q = false))) ∧
    (∃ (s : State) (dt : Nat) (p : Packet) (q : GrPacket),
       let u := s.tickTo dt
       u.grelasOn = true ∧ lineIn p.line = some (q.inverted, some q.bytes) ∧ pkWhole q = true ∧ pkCrc q = false) ∧
    (∃ (s : State) (dt : Nat) (p : Packet) (q : GrPacket),
       let u := s.tickTo dt
       u.grelasOn = true ∧ lineIn p.line = some (q.inverted, some q.bytes) ∧ pkWhole q = true ∧ pkCrc q = true ∧
         (pkFits q = false ∨ (pkType q = 0 ∧ pkByte q 0 / 8 ≠ u.g LNK_GR_CFG_NODE))) ∧
    (∃ (s : State) (dt : Nat) (p : Packet),
       let u := s.tickTo dt
       (u.grelasOn = false ∨ lineIn p.line = none)) ∧
    (∃ (s : State) (dt : Nat) (p : Packet) (q : GrPacket) (f : Frame) (rd : Bool),
       let u := (s.tickTo dt).hostBegin
       let k := u.link .gr
       let b := frameBytes f (if rd then 1 else 0) ++ toBytes 2 f.crc.toNat
       u.grelasOn = true ∧ lineIn p.line = some (q.inverted, some q.bytes) ∧ pkWhole q = true ∧ pkCrc q = true ∧ pkFits q = true ∧
         pkType q = 0 ∧ pkByte q 0 / 8 = u.g LNK_GR_CFG_NODE ∧ u.gb LNK_GR_CFG_AUTH = false ∧ k.rstDue = false ∧
           u.turnFree .gr = true ∧ pkFrames q = [b] ∧ crc16 (frameBytes f (if rd then 1 else 0)) = f.crc.toNat ∧
             f.flags.toNat / 2 = 0 ∧ (∀ e ∈ k.expAlive, e = f.alive.toNat) ∧ (rd = true → 0x280 ≤ f.addr.toNat)) ∧
    (∃ (s : State) (dt : Nat) (p : Packet) (q : GrPacket) (f : Frame),
       let u := s.tickTo dt
       let k := u.link .gr
       let b := frameBytes f 2 ++ toBytes 2 f.crc.toNat
       u.grelasOn = true ∧ lineIn p.line = some (q.inverted, some q.bytes) ∧ pkWhole q = true ∧ pkCrc q = true ∧ pkFits q = true ∧
         pkType q = 0 ∧ pkAuth q = false ∧ pkByte q 0 / 8 = u.g LNK_GR_CFG_NODE ∧ u.gb LNK_GR_CFG_AUTH = true ∧ k.rstDue = false ∧
           pkFrames q = [b]) :=
  ⟨⟨base .run, 0, (let q : GrPacket := { inverted := false, bytes := [] }; ⟨lineOut q.inverted q.bytes⟩),
    { inverted := false, bytes := [] }, by decide +kernel⟩,
    ⟨base .run, 0, (let q : GrPacket := { inverted := 0 % 2 = 0, bytes := [8 * 0, 0] ++ (List.range 12).map (fun i => i * 0 % 256) ++ [1, 2, 3, 4] }; ⟨lineOut q.inverted q.bytes⟩), { inverted := 0 % 2 = 0, bytes := [8 * 0, 0] ++ (List.range 12).map (fun i => i * 0 % 256) ++ [1, 2, 3, 4] }, by decide +kernel⟩,
    ⟨base .run, 0, (let q : GrPacket := (let hb : List Nat := [0 % 256, 0] ++ (List.range 12).map (fun i => i * 0 % 256);
      { inverted := 0 % 2 = 0, bytes := hb ++ toBytes 4 (crc32 hb) }); ⟨lineOut q.inverted q.bytes⟩),
        (let hb : List Nat := [0 % 256, 0] ++ (List.range 12).map (fun i => i * 0 % 256);
          { inverted := 0 % 2 = 0, bytes := hb ++ toBytes 4 (crc32 hb) }), by decide +kernel⟩,
    ⟨base .run, 0, { line := [] }, by decide +kernel⟩,
    ⟨(((base .run).lnk .gr fun k => { k with expAlive := k.expAlive.map (· % 16), rstDue := false }).put LNK_GR_CFG_NODE (1 + 0 % 16)).put LNK_GR_CFG_AUTH 0, 0, (let q : GrPacket := (let hb : List Nat := (let f : Frame := { frame0 with crc := BitVec.ofNat 16 (crc16 (frameBytes frame0 0)) }; [8 * (1 + 0 % 16), 0] ++ (frameBytes f 0 ++ toBytes 2 f.crc.toNat)); { inverted := 0 % 2 = 0, bytes := hb ++ toBytes 4 (crc32 hb) }); ⟨lineOut q.inverted q.bytes⟩), (let hb : List Nat := (let f : Frame := { frame0 with crc := BitVec.ofNat 16 (crc16 (frameBytes frame0 0)) }; [8 * (1 + 0 % 16), 0] ++ (frameBytes f 0 ++ toBytes 2 f.crc.toNat)); { inverted := 0 % 2 = 0, bytes := hb ++ toBytes 4 (crc32 hb) }), { frame0 with crc := BitVec.ofNat 16 (crc16 (frameBytes frame0 0)) }, false, by decide +kernel⟩,
    ⟨(((base .run).lnk .gr fun k => { k with expAlive := k.expAlive.map (· % 16), rstDue := false }).put LNK_GR_CFG_NODE (1 + 0 % 16)).put LNK_GR_CFG_AUTH 1, 0, (let q : GrPacket := (let hb : List Nat := [8 * (1 + 0 % 16), 0] ++ (frameBytes frame0 2 ++ toBytes 2 frame0.crc.toNat); { inverted := 0 % 2 = 0, bytes := hb ++ toBytes 4 (crc32 hb) }); ⟨lineOut q.inverted q.bytes⟩), (let hb : List Nat := [8 * (1 + 0 % 16), 0] ++ (frameBytes frame0 2 ++ toBytes 2 frame0.crc.toNat); { inverted := 0 % 2 = 0, bytes := hb ++ toBytes 4 (crc32 hb) }), frame0, by decide +kernel⟩⟩

theorem witness_GrelasResponseAndMarks :
    (∃ (s : State) (dt since : Nat),
       let u := s.tickTo dt
       let g := u.grelas
       u.grelasOn = true ∧ g.pollAt = some since ∧ g.composed = none ∧ (u.link .gr).held = none ∧ g.todo = [] ∧ (∀ r ∈ g.slots,
         r.status < 128)) ∧
    (∃ (s : State) (dt since : Nat) (h : HeldFrame),
       let u := s.tickTo dt
       let g := u.grelas
       u.grelasOn = true ∧ g.pollAt = some since ∧ g.composed = none ∧ (u.link .gr).held = some h ∧ (u.link .gr).rstDue = false ∧
         g.todo = [] ∧ since + 5600 ≤ u.now) ∧
    (∃ (s : State) (dt : Nat),
       let u := s.tickTo dt
       (u.grelasOn = false ∨ u.grelas.pollAt = none ∨ u.grelas.composed ≠ none ∨ (u.grelas.todo ≠ [] ∧ ∀ x ∈ u.grelas.pollAt,
         u.now < x + 5600))) ∧
    (∃ (s : State) (dt since c : Nat),
       let u := s.tickTo dt
       let g := u.grelas
       u.grelasOn = true ∧ g.pollAt = some since ∧ g.composed = some c) ∧
    (∃ (s : State) (dt : Nat),
       let u := s.tickTo dt
       let g := u.grelas
       (u.grelasOn = false ∨ g.pollAt = none ∨ g.composed = none)) ∧
    (∃ (s : State) (dt : Nat) (p : Packet) (q : GrPacket) (num : Nat),
       let u := s.tickTo dt
       u.grelasOn = true ∧ lineIn p.line = some (q.inverted, some q.bytes) ∧ pkWhole q = true ∧ pkCrc q = true ∧ pkFits q = true ∧
         pkType q = 2 ∧ u.gb LNK_GR_CFG_AUTH = false ∧ ofBytes (pkBytes q 2 4) = num) ∧
    (∃ (s : State) (dt : Nat) (p : Packet) (q : GrPacket),
       let u := s.tickTo dt
       u.grelasOn = true ∧ lineIn p.line = some (q.inverted, some q.bytes) ∧ pkWhole q = true ∧ pkCrc q = true ∧ pkFits q = true ∧
         pkType q = 2 ∧ pkAuth q = false ∧ u.gb LNK_GR_CFG_AUTH = true) ∧
    (∃ (s : State) (dt due num : Nat),
       let u := s.tickTo dt
       u.grelas.mark = some due ∧ due ≤ u.now ∧ u.grelas.tickNum = some num ∧ u.tickSrc ≠ 2) ∧
    (∃ (s : State) (dt due : Nat),
       let u := s.tickTo dt
       let p := u.g CLK_TICK_CFG_PERIOD
       u.grelas.mark = some due ∧ due ≤ u.now ∧ u.tickSrc = 2 ∧ u.tick.on = true ∧ u.tick.commitDue = false ∧ u.tick.lost = false ∧
         p - 300 ≤ u.tickAge ∧ u.tickAge ≤ p + 300) ∧
    (∃ (s : State) (dt : Nat),
       let u := s.tickTo dt
       (∀ due ∈ u.grelas.mark, u.now < due)) ∧
    (∃ (bytes : List Nat),
       (bytes.all fun b => decide (b < 256)) = true) :=
  ⟨⟨({ (base .run) with grelas := { (base .run).grelas with pollAt := some 0, composed := none, todo := [] } }).lnk .gr fun k => { k with held := none }, 0, 0, by decide +kernel⟩,
    ⟨({ (base .run) with grelas := { (base .run).grelas with pollAt := some 0, composed := none, todo := [] } }).lnk .gr fun k => { k with held := some held0, rstDue := false }, 0, 0, held0, by decide +kernel⟩,
    ⟨base .run, 0, by decide +kernel⟩,
    ⟨{ (base .run) with grelas := { (base .run).grelas with pollAt := some ((base .run).now), composed := some ((base .run).now + 0 % 1000) } }, 0, { (base .run) with grelas := { (base .run).grelas with pollAt := some ((base .run).now), composed := some ((base .run).now + 0 % 1000) } }.now, { (base .run) with grelas := { (base .run).grelas with pollAt := some ((base .run).now), composed := some ((base .run).now + 0 % 1000) } }.now + 0 % 1000, by decide +kernel⟩,
    ⟨base .run, 0, by decide +kernel⟩,
    ⟨base .run, 0, (let q : GrPacket := (let hb : List Nat := [0, 0x20] ++ toBytes 4 0;
      { inverted := 0 % 2 = 0, bytes := hb ++ toBytes 4 (crc32 hb) }); ⟨lineOut q.inverted q.bytes⟩),
        (let hb : List Nat := [0, 0x20] ++ toBytes 4 0; { inverted := 0 % 2 = 0, bytes := hb ++ toBytes 4 (crc32 hb) }), 0,
          by decide +kernel⟩,
    ⟨(base .run).put LNK_GR_CFG_AUTH 1, 0, (let q : GrPacket := (let hb : List Nat := [0, 0x20] ++ toBytes 4 (0 % 2 ^ 32);
      { inverted := 0 % 2 = 0, bytes := hb ++ toBytes 4 (crc32 hb) }); ⟨lineOut q.inverted q.bytes⟩),
        (let hb : List Nat := [0, 0x20] ++ toBytes 4 (0 % 2 ^ 32);
          { inverted := 0 % 2 = 0, bytes := hb ++ toBytes 4 (crc32 hb) }), by decide +kernel⟩,
    ⟨{ (base .run) with grelas := { (base .run).grelas with mark := some 0, tickNum := some 0 } }, 0, 0, 0, by decide +kernel⟩,
    ⟨(let s : State := ({ (base .run) with tick := { (base .run).tick with on := true, commitDue := false, mark := (base .run).now, lost := false } }).put CLK_TICK_CFG_SRC 2; { (s) with grelas := { s.grelas with mark := some 0 } }), 0 % 600 + (let s : State := ({ (base .run) with tick := { (base .run).tick with on := true, commitDue := false, mark := (base .run).now, lost := false } }).put CLK_TICK_CFG_SRC 2; { (s) with grelas := { s.grelas with mark := some 0 } }).g CLK_TICK_CFG_PERIOD - 300, 0, by decide +kernel⟩,
    ⟨base .run, 0, by decide +kernel⟩,
    ⟨[], by decide +kernel⟩⟩

theorem witness_DescriptorsCommitted :
    ∃ (s : State) (dt : Nat) (r : Fin 11),
      let u := (s.tickTo dt).hostBegin.hostBegin
      u.reaches (0x80 + 12 * r.val) = true ∧ u.cycleProgs r.val = [] :=
  ⟨base .run, 0, 0, by decide +kernel⟩

theorem witness_ImmediateCommandsTake :
    (∃ (s : State) (c : Cmd),
       s.holds c ∧ c.queued = false ∧ s.legal c = false) ∧
    (∃ (s : State) (c : Cmd),
       s.holds c ∧ s.legal c = true ∧ c.op = 0x01) ∧
    (∃ (s : State) (c : Cmd),
       s.holds c ∧ s.legal c = true ∧ c.op = 0x02) ∧
    (∃ (s : State) (c : Cmd),
       s.holds c ∧ s.legal c = true ∧ c.op = 0x05) ∧
    (∃ (s : State) (c : Cmd),
       s.holds c ∧ s.legal c = true ∧ c.op = 0x06) ∧
    (∃ (s : State) (c : Cmd),
       s.holds c ∧ s.legal c = true ∧ c.op = 0x07) ∧
    (∃ (s : State) (c : Cmd),
       s.holds c ∧ s.legal c = true ∧ (c.op = 0x60 ∨ c.op = 0x64)) ∧
    (∃ (s : State) (c : Cmd),
       s.holds c ∧ s.legal c = true ∧ c.op = 0x65) ∧
    (∃ (s : State) (c : Cmd),
       let n := ringAxis c.ring
       s.holds c ∧ s.legal c = true ∧ (c.op = 0x03 ∨ c.op = 0x04 ∨ c.op = 0x08) ∧ c.flush = false ∧ s.engaged n = false) :=
  ⟨⟨{ State.reset with cmds := { cmd0 with ph := .accepted } :: State.reset.cmds }, cmd0, by unfold State.holds; decide +kernel⟩,
    ⟨(let c : Cmd := { cmd0 with ph := .accepted, d0 := (cmd0.d0 &&& 0xFFFFFF) ||| 0x01000000, ring := cmd0.ring % 8 };
      ({ (base .run) with dev := .run, cmds := { cmd0 with ph := .accepted, d0 := (cmd0.d0 &&& 0xFFFFFF) ||| 0x01000000, ring := cmd0.ring % 8 } :: (base .run).cmds }.ax (ringAxis c.ring) fun a => { a with st := if c.at_ % 3 = 0 then .off else if c.at_ % 3 = 1 then .idle else a.st }).put (PWR_STAT_VM_OK (stationOf (ringAxis c.ring))) 1), { cmd0 with ph := .accepted, d0 := (cmd0.d0 &&& 0xFFFFFF) ||| 0x01000000, ring := cmd0.ring % 8 }, by unfold State.holds; decide +kernel⟩,
    ⟨{ (axesIn .hold) with dev := .run, cmds := [{ cmd0 with ph := .accepted, d0 := (cmd0.d0 &&& 0xFFFFFF) ||| 0x02000000, ring := cmd0.ring % 8 }] }, { cmd0 with ph := .accepted, d0 := (cmd0.d0 &&& 0xFFFFFF) ||| 0x02000000, ring := cmd0.ring % 8 }, by unfold State.holds; decide +kernel⟩,
    ⟨{ (base .run) with dev := .run, cmds := [{ cmd0 with ph := .accepted, d0 := (cmd0.d0 &&& 0xFFFFFF) ||| 0x05000000, ring := cmd0.ring % 8 }] }.ax (ringAxis { cmd0 with ph := .accepted, d0 := (cmd0.d0 &&& 0xFFFFFF) ||| 0x05000000, ring := cmd0.ring % 8 }.ring) fun a => { a with st := .fault }, { cmd0 with ph := .accepted, d0 := (cmd0.d0 &&& 0xFFFFFF) ||| 0x05000000, ring := cmd0.ring % 8 }, by unfold State.holds; decide +kernel⟩,
    ⟨{ (base .run) with dev := .run, cmds := [{ cmd0 with ph := .accepted, d0 := (cmd0.d0 &&& 0xFFFFFF) ||| 0x06000000, ring := cmd0.ring % 8 }] }, { cmd0 with ph := .accepted, d0 := (cmd0.d0 &&& 0xFFFFFF) ||| 0x06000000, ring := cmd0.ring % 8 }, by unfold State.holds; decide +kernel⟩,
    ⟨{ (axesIn .hold) with dev := .run, cmds := [{ cmd0 with ph := .accepted, d0 := (cmd0.d0 &&& 0xFFFFFF) ||| 0x07000000, ring := cmd0.ring % 8 }], stations := (axesIn .hold).stations.map (fun (x : Station) => ({ x with mv := none } : Station)) }, { cmd0 with ph := .accepted, d0 := (cmd0.d0 &&& 0xFFFFFF) ||| 0x07000000, ring := cmd0.ring % 8 }, by unfold State.holds; decide +kernel⟩,
    ⟨{ (base .run) with dev := .run, cmds := [{ cmd0 with ph := .accepted, d0 := (cmd0.d0 &&& 0xFFFFFF) ||| (if cmd0.at_ % 2 = 0 then 0x60000000 else 0x64000000), ring := 10 }] }, { cmd0 with ph := .accepted, d0 := (cmd0.d0 &&& 0xFFFFFF) ||| (if cmd0.at_ % 2 = 0 then 0x60000000 else 0x64000000), ring := 10 }, by unfold State.holds; decide +kernel⟩,
    ⟨{ (base .run) with dev := .run, cmds := [{ cmd0 with ph := .accepted, d0 := (cmd0.d0 &&& 0xFFFFFF) ||| 0x65000000, ring := 10 }] }, { cmd0 with ph := .accepted, d0 := (cmd0.d0 &&& 0xFFFFFF) ||| 0x65000000, ring := 10 }, by unfold State.holds; decide +kernel⟩,
    ⟨{ (axesIn .hold) with dev := .run, cmds := { cmd0 with ph := .accepted, d0 := (cmd0.d0 &&& 0xFFFF00) ||| (if cmd0.at_ % 3 = 0 then 0x03000000 else if cmd0.at_ % 3 = 1 then 0x04000000 else 0x08000000), ring := cmd0.ring % 8 } :: (axesIn .hold).cmds, stations := (axesIn .hold).stations.map (fun (x : Station) => ({ x with mv := none } : Station)) }, { cmd0 with ph := .accepted, d0 := (cmd0.d0 &&& 0xFFFF00) ||| (if cmd0.at_ % 3 = 0 then 0x03000000 else if cmd0.at_ % 3 = 1 then 0x04000000 else 0x08000000), ring := cmd0.ring % 8 }, by unfold State.holds; decide +kernel⟩⟩

theorem witness_CompletionRing :
    (∃ (s : State) (dt : Nat) (b : BackItem) (l : List BackItem),
       let u := s.tickTo dt
       u.backlog = b :: l ∧ u.heldRecs 0 < 512 ∧ u.cyc.posted = false) ∧
    (∃ (s : State) (dt : Nat),
       let u := s.tickTo dt
       (u.backlog = [] ∨ 512 ≤ u.heldRecs 0 ∨ u.cyc.posted = true)) ∧
    (∃ (s : State) (dt : Nat),
       let u := (s.tickTo dt).hostBegin
       u.reaches 0x100 = true) ∧
    (∃ (s : State) (dt : Nat) (q : Fin 5),
       let u := (s.tickTo dt).hostBegin
       let r := u.rings[q]
       u.reaches (0x10A + 12 * q.val) = true ∧ r.old < 65536 ∧ r.recs.length < 32768) ∧
    (∃ (s : State) (dt : Nat) (q : Fin 5),
       let u := s.tickTo dt
       u.answers = true ∧ u.served (0x104 + 12 * q.val) = true) ∧
    (∃ (s : State) (dt : Nat) (r : Fin 16),
       let u := (s.tickTo dt).hostBegin
       let a := if r.val < 11 then 0x86 + 12 * r.val else 0x87 + 12 * r.val
       u.reaches (a - if r.val < 11 then 1 else 6) = true) :=
  ⟨⟨{ (base .run) with backlog := back0 :: ([] : List BackItem) }, 0, back0, [], by decide +kernel⟩,
    ⟨base .run, 0, by decide +kernel⟩,
    ⟨base .run, 0, by decide +kernel⟩,
    ⟨base .run, 0, 0, by decide +kernel⟩,
    ⟨base .run, 0, 0, by decide +kernel⟩,
    ⟨base .run, 0, 0, by decide +kernel⟩⟩

theorem witness_AxisEvents :
    (∃ (s : State) (dt : Nat) (n : Fin 8) (cause : Nat) (la p : Int),
       let u := s.tickTo dt
       u.tick.commitDue = true ∧ u.energised n = true ∧ u.axes[n].obsRan = true ∧ u.axes[n].obs.due = some (cause, la, p) ∧
         cause < 4) ∧
    (∃ (s : State) (dt : Nat) (n : Fin 8),
       let u := s.tickTo dt
       u.tick.commitDue = true ∧ u.energised n = true ∧ u.axes[n].obsRan = false) ∧
    (∃ (s : State) (n : Fin 8) (rotor : Int),
       s.axes[n].rep = some rotor ∧ s.axes[n].stallHoming = false ∧ s.engaged n = false ∧ s.gb (AX_PLN_CFG_STALL_ACT n) = false) ∧
    (∃ (s : State) (n : Fin 8) (rotor : Int),
       s.axes[n].rep = some rotor) ∧
    (∃ (s : State) (dt : Nat) (n : Fin 8) (k : Fin 3),
       let u := s.tickTo dt
       (u.tick.commitDue = false ∨ u.energised n = false ∨ (k = 0 ∧ u.axes[n].obsRan = true ∧ u.axes[n].obs.due = none) ∨ (k = 1 ∧
         u.axes[n].closRan = true ∧ u.axes[n].closDue = false) ∨ (k = 2 ∧ ∀ h ∈ u.axes[n].home,
           h.phase = 0 ∨ h.timeout = 0 ∨ u.tick.mark < h.t0 + msCyc (10 * h.timeout)))) ∧
    (∃ (s : State) (dt : Nat) (n : Fin 8),
       let u := s.tickTo dt
       u.tick.commitDue = true ∧ u.energised n = true ∧ u.axes[n].closRan = true ∧ u.axes[n].closDue = true) ∧
    (∃ (s : State) (dt : Nat) (n : Fin 8),
       let u := s.tickTo dt
       u.tick.commitDue = true ∧ u.energised n = true ∧ u.axes[n].closRan = false ∧ u.axes[n].closRep = false ∧
         u.closureOn n = true) ∧
    (∃ (s : State) (n : Fin 8),
       s.axes[n].closDue = true ∧ s.engaged n = false ∧ s.energised n = true) ∧
    (∃ (s : State) (dt : Nat) (n : Fin 8) (h : HomeSt),
       let u := s.tickTo dt
       u.tick.commitDue = true ∧ u.energised n = true ∧ u.axes[n].home = some h ∧ h.phase ≠ 0 ∧ h.timeout ≠ 0 ∧
         h.t0 + msCyc (10 * h.timeout) ≤ u.tick.mark) ∧
    (∃ (s : State) (dt : Nat) (n : Fin 8),
       let u := (s.tickTo dt).hostBegin
       u.reaches (AX_CLOS_MAX_CLR n).a = true) :=
  ⟨⟨{ (base .run) with tick := { (base .run).tick with commitDue := true } }.ax 0 fun a => { a with st := if 0 % 4 = 0 then .hold else if 0 % 4 = 1 then .homing else .moving, obsRan := true, stallT := false, obs := { a.obs with due := some (0, (0 : Int), (0 : Int)) } }, 0, 0, 0, 0, 0, by decide +kernel⟩,
    ⟨{ axesIn .hold with tick := { (base .run).tick with commitDue := true } }, 0, 0, by decide +kernel⟩,
    ⟨(base .run).ax 0 fun a => { a with st := if 0 % 4 = 0 then .hold else if 0 % 4 = 1 then .homing else .moving, stallT := true, rep := some (0 : Int) }, 0, 0, by decide +kernel⟩,
    ⟨(base .run).ax 0 fun a => { a with st := if 0 % 2 = 0 then .homing else .moving, rep := some (0 : Int) }, 0, 0,
      by decide +kernel⟩,
    ⟨base .run, 0, 0, 0, by decide +kernel⟩,
    ⟨{ (base .run) with tick := { (base .run).tick with commitDue := true } }.ax 0 fun a => { a with closRan := true, closDue := true, st := if 0 % 3 = 0 then .hold else .moving }, 0, 0, by decide +kernel⟩,
    ⟨(let s : State := ((axesIn .hold).put (AX_CLOS_CFG_COUNT 0) 1).put (AX_PINSTAT_FB_ACT 0) 1;
      { (s) with tick := { s.tick with commitDue := true } }), 0, 0, by decide +kernel⟩,
    ⟨(base .run).ax 0 fun a => { a with closDue := true, st := if 0 % 3 = 0 then .hold else .moving }, 0, by decide +kernel⟩,
    ⟨{ (base .run) with tick := { (base .run).tick with commitDue := true, mark := if (base .run).tick.mark % 2 = 0 then 10 ^ 9 else (base .run).tick.mark } }.ax 0 fun a => { a with st := .homing, home := some { (home0) with phase := 1 + home0.phase % 5, timeout := 1 + home0.timeout % 9, t0 := 0 } }, 0, 0, { (home0) with phase := 1 + home0.phase % 5, timeout := 1 + home0.timeout % 9, t0 := 0 }, by decide +kernel⟩,
    ⟨base .run, 0, 0, by decide +kernel⟩⟩

theorem witness_CoilIdentityCheck :
    (∃ (s : State) (dt : Nat) (n : Fin 8),
       let u := (s.tickTo dt).hostBegin
       u.reaches (0x847 + 0x100 * n.val) = true) ∧
    (∃ (s : State) (dt : Nat) (n : Fin 8) (reached : Bool),
       let u := s.tickTo dt
       (∀ d ∈ u.axes[n].idc, d.pair = 0 ∨ 6 < d.pair ∨ (d.decay = true ∧
         (d.pair = 6 ∨ u.now < d.t0 + 400000)) ∨ u.now < d.t0 ∨ (reached = false ∧
           u.now < d.t0 + (if d.decay then 400000 else 0) + u.idTmax n))) ∧
    (∃ (s : State) (dt : Nat) (n : Fin 8) (reached : Bool) (d : IdchkSt),
       let u := s.tickTo dt
       let rest := if d.decay then 400000 else 0
       let pair := if d.decay then d.pair + 1 else d.pair
       u.axes[n].idc = some d ∧ 1 ≤ d.pair ∧ pair ≤ 6 ∧ d.t0 + rest ≤ u.now ∧
         (reached = true ∨ d.t0 + rest + u.idTmax n ≤ u.now)) ∧
    (∃ (s : State) (dt : Nat) (c : Fin 16) (d : IdchkSt),
       let u := s.tickTo dt
       let n := axisOf c
       u.axes[n].idc = some d ∧ u.testFets c ≠ 0 ∧
         (u.coils[c].on = false ∨ u.driven c = false ∨ u.coils[c].mode < 2 ∨ u.coils[c].phase ≠ 1)) ∧
    (∃ (s : State) (dt : Nat) (n : Fin 8),
       let u := s.tickTo dt
       (∀ d ∈ u.axes[n].idc, d.pair < 7 ∨ (d.pair = 7 ∧ u.now - d.t0 < 16000000) ∨ (d.pair = 8 ∧
         (d.dm = none ∨ u.now - d.t0 < 680000000)))) ∧
    (∃ (s : State) (dt : Nat) (n : Fin 8) (d : IdchkSt),
       let u := s.tickTo dt
       u.axes[n].idc = some d ∧ (d.pair = 9 ∨ (d.pair = 7 ∧ d.t0 + 16000000 ≤ u.now) ∨ (d.pair = 8 ∧ d.dm ≠ none ∧
         d.t0 + 680000000 ≤ u.now))) ∧
    (∃ (s : State) (n : Fin 8) (d : IdchkSt),
       s.axes[n].idc = some d ∧ 1 ≤ d.pair ∧ d.pair ≤ 6 ∧ d.t0 ≤ s.now ∧ s.tripHeld n = false ∧
         s.power.clampOn[stationOf n] = false ∧ (∀ c : Fin 16, axisOf c = n → s.row4 c = false ∧ s.driven c = false ∧
           s.coils[c].ocFets = 0)) :=
  ⟨⟨base .run, 0, 0, by decide +kernel⟩,
    ⟨base .run, 0, 0, false, by decide +kernel⟩,
    ⟨(base .run).ax 0 fun a => { a with idc := some idchk0 }, 0, 0, false, idchk0, by decide +kernel⟩,
    ⟨((((base .run).put (PWR_STAT_VM_OK 0) 1).put (PWR_STAT_VM_OK 1) 1).ax (axisOf 1) fun a => { a with idc := some { idchk0 with pair := 2, decay := false } }).co 1 fun k => { k with on := k.on && 0 % 2 = 0 }, 0, 1, { idchk0 with pair := 2, decay := false }, by decide +kernel⟩,
    ⟨base .run, 0, 0, by decide +kernel⟩,
    ⟨((base .run).ax 0 fun a => { a with idc := some { idchk0 with pair := 7 + idchk0.pair % 3, t0 := (base .run).now - idchk0.t0 % 4, testI := idchk0.testI % 4096, dm := some ((idchk0.dm).getD 0 % 20000) }, mon := if 0 % 3 = 0 then MonSt.init else a.mon }).put (AX_IDCHK_STAT_BUSY 0) 1, 16000000 + (if { idchk0 with pair := 7 + idchk0.pair % 3, t0 := (base .run).now - idchk0.t0 % 4, testI := idchk0.testI % 4096, dm := some ((idchk0.dm).getD 0 % 20000) }.pair = 8 then 700000000 else 0), 0, { idchk0 with pair := 7 + idchk0.pair % 3, t0 := (base .run).now - idchk0.t0 % 4, testI := idchk0.testI % 4096, dm := some ((idchk0.dm).getD 0 % 20000) }, by decide +kernel⟩,
    ⟨(({ ((base .run).put (PWR_STAT_VM_OK (stationOf 0)) 1) with dev := .run, power := { (base .run).power with clampOn := Vector.replicate 2 false } }.ax 0 fun a => { a with idc := some idchk0 }).co (coilA 0) fun k => { k with ocFets := 0 }).co (coilB 0) fun k => { k with ocFets := 0 }, 0, idchk0, by decide +kernel⟩⟩

theorem witness_BridgePeriods :
    (∃ (s : State) (dt : Nat) (c : Fin 16),
       let u := s.tickTo dt
       (u.flOn = false ∨ u.boundaryDue c = false)) ∧
    (∃ (s : State) (dt : Nat) (c : Fin 16),
       let u := s.tickTo dt
       let k := u.coils[c]
       u.flOn = true ∧ u.boundaryDue c = true ∧ k.mode = 0 ∧ u.g (CO_REG_CFG_MODE c) = 0 ∧ u.testTurn c = false ∧ k.pend = none ∧
         (c ≠ 0 ∨ u.synced c = false)) ∧
    (∃ (s : State) (dt : Nat) (c : Fin 16) (d : IdchkSt),
       let u := s.tickTo dt
       u.flOn = true ∧ u.boundaryDue c = true ∧ u.axes[axisOf c].idc = some d ∧ u.testReg c = true ∧ u.coils[c].pend = none) ∧
    (∃ (s : State) (dt : Nat) (c : Fin 16),
       let u := s.tickTo dt
       let k := u.coils[c]
       u.flOn = true ∧ u.boundaryDue c = true ∧ (k.mode = 2 ∨ k.mode = 3) ∧ u.g (CO_REG_CFG_MODE c) = k.mode ∧
         u.testTurn c = false ∧ k.pend = none ∧ u.driven c = true) ∧
    (∃ (s : State) (dt : Nat) (c : Fin 16) (limit : Bool),
       let u := s.tickTo dt
       let k := u.coils[c]
       k.on = true ∧ u.driven c = true ∧ (k.dead1.isSome = true → k.side1 = .off) ∧ (k.dead2.isSome = true → k.side2 = .off) ∧
         (if limit then k.phT + 16000 ≤ u.now else k.edgeOn + u.tblank c ≤ u.now) ∧ (k.mode = 2 ∧ k.phase = 0 ∨ k.mode = 3 ∧
           (k.phase = 1 ∨ k.phase = 2))) ∧
    (∃ (s : State) (dt : Nat) (c : Fin 16) (k : Fin 3),
       let u := s.tickTo dt
       let q := u.coils[c]
       let idle := q.on = false ∨ u.driven c = false
       (k = 2 → u.testFets c = 0) ∧ (idle ∨ (k = 0 ∧ u.now < q.edgeOn + u.tblank c ∧ q.edgeOn ≤ u.now) ∨ (k = 1 ∧
         u.now < q.phT + 16000) ∨ (k ≠ 2 ∧ ¬ (q.mode = 2 ∧ q.phase = 0) ∧ ¬ (q.mode = 3 ∧ (q.phase = 1 ∨ q.phase = 2))) ∨ (k = 2 ∧
           (q.mode < 2 ∨ q.phase ≠ 1)))) ∧
    (∃ (s : State) (dt : Nat) (c : Fin 16),
       let u := s.tickTo dt
       let k := u.coils[c]
       k.on = true ∧ u.driven c = true ∧ (k.dead1.isSome = true → k.side1 = .off) ∧ (k.dead2.isSome = true → k.side2 = .off) ∧
         2 ≤ k.mode ∧ k.phase = 1) ∧
    (∃ (s : State) (dt : Nat) (c : Fin 16) (due pj j : Nat) (rest : List (Nat × Nat × Nat)),
       let u := s.tickTo dt
       u.coils[c].relay = (due, pj, j) :: rest ∧ (c = 0 ∨ u.synced c = false ∨ u.now < due)) ∧
    (∃ (s : State) (dt : Nat) (c : Fin 16) (due pj j : Nat) (rest : List (Nat × Nat × Nat)),
       let u := s.tickTo dt
       u.coils[c].relay = (due, pj, j) :: rest ∧ due ≤ u.now ∧ c ≠ 0 ∧ u.synced c = true ∧ u.g (CO_REG_CFG_MODE c) < 2 ∧ j < 16) ∧
    (∃ (s : State) (dt : Nat) (c : Fin 16),
       let u := s.tickTo dt
       u.coils[c].relay = []) :=
  ⟨⟨base .run, 0, 0, by decide +kernel⟩,
    ⟨((base .run).co 1 fun k => { k with mode := 0, on := true, t0 := (base .run).now, pj := k.pj % 1000, pend := none, gates := 0 % 4 ≠ 0 }).put (CO_REG_CFG_MODE 1) 0, 0, 1, by decide +kernel⟩,
    ⟨((base .run).ax (axisOf 0) fun a => { a with idc := some { idchk0 with pair := 7, t0 := (base .run).now - (if (0 : Fin 16).val % 2 = 0 then 0 else 8000000) } }).co 0 fun k => { k with on := true, mode := 1, t0 := (base .run).now, pj := k.pj % 1000, pend := none }, 0, 0, { idchk0 with pair := 7, t0 := (base .run).now - (if (0 : Fin 16).val % 2 = 0 then 0 else 8000000) }, by decide +kernel⟩,
    ⟨(((((axesIn .hold).co 0 fun k => { k with mode := 2 + 1 % 2, on := true, phase := 3 + 1 % 3, phT := (axesIn .hold).now, pend := none, gates := 1 % 4 ≠ 0, sp := 5, car := 0 }).put (CO_REG_CFG_MODE 0) (2 + 1 % 2)).put PWR_TRIP_STAT_LATCH 0).put PWR_COILFLT_OC 0).put (PWR_STAT_VM_OK (stationOfCoil 0)) 1, 1 + 1000, 0, by decide +kernel⟩,
    ⟨(((({ ((base .run).co 0 fun k => { k with on := true, gates := true, mode := 2 + 255 % 2, phase := if 255 % 2 = 0 then 0 else 1 + 255 % 4 / 2 , edgeOn := (base .run).now, phT := (base .run).now }) with dev := .run }).ax (axisOf 0) fun a => { a with st := .hold }).put PWR_TRIP_STAT_LATCH 0).put PWR_COILFLT_OC 0).put (PWR_STAT_VM_OK (stationOfCoil 0)) 1, 255, 0, false, by decide +kernel⟩,
    ⟨base .run, 0, 0, 0, by decide +kernel⟩,
    ⟨(((({ ((base .run).co 0 fun k => { k with on := true, gates := true, mode := 2 + 0 % 2, phase := 1 }) with dev := .run }).ax (axisOf 0) fun a => { a with st := .hold }).put PWR_TRIP_STAT_LATCH 0).put PWR_COILFLT_OC 0).put (PWR_STAT_VM_OK (stationOfCoil 0)) 1, 0, 0, by decide +kernel⟩,
    ⟨(base .run).co 0 fun k => { k with relay := (0, 0, 0) :: ([] : List (Nat × Nat × Nat)) }, 0, 0, 0, 0, 0, [],
      by decide +kernel⟩,
    ⟨((base .run).co 1 fun k => { k with relay := (0, 0, 0 % 16) :: ([] : List (Nat × Nat × Nat)), on := true, mode := 0 % 2, pend := none }).co 0 fun k => { k with on := true, mode := 0 }, 0, 1, 0, 0, 0, [], by decide +kernel⟩,
    ⟨base .run, 0, 0, by decide +kernel⟩⟩

theorem witness_CoilConverters :
    (∃ (s : State) (dt : Nat) (c : Fin 16) (slot : Fin 3),
       let u := s.tickTo dt
       (∀ x ∈ u.coils[c].slots, x.1 = slot.val → u.now < x.2)) ∧
    (∃ (s : State) (dt : Nat) (c : Fin 16) (slot : Fin 3),
       let u := s.tickTo dt
       let k := u.coils[c]
       (∃ x ∈ k.slots, x.1 = slot.val ∧ x.2 ≤ u.now)) ∧
    (∃ (s : State) (dt : Nat) (c : Fin 16),
       let u := s.tickTo dt
       (∀ v ∈ u.coils[c].conv, u.now < v.t + 80)) ∧
    (∃ (s : State) (dt : Nat) (c : Fin 16) (v : Conv),
       let u := s.tickTo dt
       let k := u.coils[c]
       k.conv = some v ∧ v.t + 80 ≤ u.now ∧ v.slot < 3) ∧
    (∃ (s : State) (dt : Nat) (c : Fin 16) (k : Fin 3),
       let u := (s.tickTo dt).hostBegin
       let a := if k = 0 then (CO_REG_CNT_CLR c).a else if k = 1 then (CO_PWM_CNT_CLR c).a else (CO_ADC_CNT_CLR c).a
       u.reaches a = true) :=
  ⟨⟨base .run, 0, 0, 0, by decide +kernel⟩,
    ⟨(base .run).co 0 fun k => { k with slots := ((0 : Fin 3).val, (base .run).now) :: k.slots, conv := if 0 % 3 = 0 then none else k.conv, refT := (base .run).now, refL := 0 % 1000 }, 0, 0, 0, by decide +kernel⟩,
    ⟨base .run, 0, 0, by decide +kernel⟩,
    ⟨(base .run).co 0 fun k => { k with conv := some { slot := 0, t := 0, tick := 0 } }, 0, 0, { slot := 0, t := 0, tick := 0 },
      by decide +kernel⟩,
    ⟨base .run, 0, 0, 0, by decide +kernel⟩⟩

theorem witness_TripsAndBackdrive :
    (∃ (s : State) (dt : Nat) (i : Fin 4) (held : Nat),
       let u := s.tickTo dt
       u.tripPins = true ∧ u.tripFilt i ≤ held ∧ u.gBit PWR_TRIP_STAT_LATCH i = false ∧ (∀ st : Fin 2,
         u.gBit (ST_SV_CFG_INJ_SRC st) 1 = false ∨ u.gBit (ST_SV_CFG_TRIPMASK st) i = false)) ∧
    (∃ (s : State) (dt : Nat),
       let u := (s.tickTo dt).hostBegin
       u.reaches 0x185 = true) ∧
    (∃ (s : State) (dt : Nat),
       let u := (s.tickTo dt).hostBegin
       u.reaches 0x185 = true) ∧
    (∃ (s : State) (dt : Nat) (n : Fin 8) (since : Nat),
       let u := s.tickTo dt
       let b := u.axes[n].bd
       u.bdWatch n = true ∧ u.gb (AX_BD_STAT_ACTIVE n) = false ∧ u.gb (AX_BD_STAT_NOSRC n) = false ∧ b.above = some since ∧
         since + msCyc (max 1 (u.g (AX_BD_CFG_BD_TIME n))) ≤ u.now) ∧
    (∃ (s : State) (dt : Nat) (n : Fin 8) (since : Nat),
       let u := s.tickTo dt
       let b := u.axes[n].bd
       u.bdWatch n = true ∧ b.below = some since ∧ since + msCyc (max 1 (u.g (AX_BD_CFG_BD_QUIET n))) ≤ u.now) ∧
    (∃ (s : State) (dt : Nat) (n : Fin 8) (stop : Bool),
       let u := s.tickTo dt
       let b := u.axes[n].bd
       (u.bdWatch n = false ∨ (stop = false ∧
         (u.gb (AX_BD_STAT_ACTIVE n) = true ∨ u.gb (AX_BD_STAT_NOSRC n) = true ∨ ∀ x ∈ b.above,
           u.now - x < msCyc (max 1 (u.g (AX_BD_CFG_BD_TIME n))))) ∨ (stop = true ∧ ∀ x ∈ b.below,
             u.now - x < msCyc (max 1 (u.g (AX_BD_CFG_BD_QUIET n)))))) :=
  ⟨⟨base .run, 0, 0, 40, by decide +kernel⟩,
    ⟨base .run, 0, by decide +kernel⟩,
    ⟨base .run, 0, by decide +kernel⟩,
    ⟨((base .run).ax 0 fun a => { a with st := .idle, bd := { a.bd with above := some ((base .run).now) } }).put (AX_OBS_CFG_BD_EN 0) 1, 103000000, 0, (((base .run).ax 0 fun a => { a with st := .idle, bd := { a.bd with above := some ((base .run).now) } }).put (AX_OBS_CFG_BD_EN 0) 1).now, by decide +kernel⟩,
    ⟨((base .run).ax 0 fun a => { a with st := .idle, bd := { a.bd with below := some ((base .run).now) } }).put (AX_OBS_CFG_BD_EN 0) 1, 103000000, 0, (((base .run).ax 0 fun a => { a with st := .idle, bd := { a.bd with below := some ((base .run).now) } }).put (AX_OBS_CFG_BD_EN 0) 1).now, by decide +kernel⟩,
    ⟨base .run, 0, 0, false, by decide +kernel⟩⟩

theorem witness_ObserverCalibration :
    (∃ (s : State) (dt : Nat) (n : Fin 8),
       let u := (s.tickTo dt).hostBegin
       u.reaches (0x87F + 0x100 * n.val) = true) ∧
    (∃ (s : State) (dt : Nat) (n : Fin 8) (k : Fin 4) (c : CalSt),
       let u := if k = 0 then (s.tickTo dt).hostBegin else s.tickTo dt
       u.axes[n].obs.cal = some c ∧ (k = 0 → u.reaches (0x87F + 0x100 * n.val) = true) ∧ (k = 1 → c.phase = 2 ∧ c.keDone = true ∧
         c.hfDone = true) ∧ (k = 2 → c.phase = 2 ∧ (c.keDone && c.hfDone) = false ∧
           c.t0 + msCyc (1000 * max 1 (u.g (AX_OBS_CAL_TO n))) ≤ u.now) ∧ (k = 3 → c.phase = 1 ∧ c.gaps = c.all ∧
             c.t0 + 80000000 ≤ u.now)) ∧
    (∃ (s : State) (dt : Nat) (n : Fin 8) (c : CalSt),
       let u := s.tickTo dt
       u.axes[n].obs.cal = some c ∧ c.phase = 1 ∧ c.gaps ≠ c.all ∧ c.t0 + 80000000 ≤ u.now) ∧
    (∃ (s : State) (dt : Nat) (n : Fin 8) (k : Fin 4),
       let u := if k = 0 then (s.tickTo dt).hostBegin else s.tickTo dt
       (k = 0 → u.reaches (0x87F + 0x100 * n.val) = true ∧ u.axes[n].obs.cal = none) ∧ (k ≠ 0 → ∀ c ∈ u.axes[n].obs.cal,
         (k = 1 → c.phase ≠ 2 ∨ (c.keDone && c.hfDone) = false) ∧
           (k = 2 → c.phase ≠ 2 ∨ (c.keDone && c.hfDone) = true ∨ u.now - c.t0 < msCyc (1000 * max 1 (u.g (AX_OBS_CAL_TO n)))) ∧
             (k = 3 → c.phase ≠ 1 ∨ u.now - c.t0 < 80000000))) ∧
    (∃ (s : State) (dt : Nat) (n : Fin 8),
       let u := (s.tickTo dt).hostBegin
       u.reaches (AX_OBS_CNT_GAP n).a = true) :=
  ⟨⟨base .run, 0, 0, by decide +kernel⟩,
    ⟨(base .run).ob 0 fun o => { o with cal := some cal0 }, 0, 0, 0, cal0, by decide +kernel⟩,
    ⟨(base .run).ob 0 fun o => { o with cal := some { cal0 with phase := 1, t0 := (base .run).now, gaps := cal0.all + 1, ticks := cal0.ticks % 5, sumI := cal0.sumI * 1000000 } }, 400000000, 0, { cal0 with phase := 1, t0 := (base .run).now, gaps := cal0.all + 1, ticks := cal0.ticks % 5, sumI := cal0.sumI * 1000000 }, by decide +kernel⟩,
    ⟨base .run, 0, 0, 0, by decide +kernel⟩,
    ⟨base .run, 0, 0, by decide +kernel⟩⟩

theorem witness_DatumPort :
    (∃ (s : State) (dt : Nat) (n : Fin 8) (auto : Bool),
       let u := if auto then s.tickTo dt else (s.tickTo dt).hostBegin
       (auto = false → u.reaches (0x88D + 0x100 * n.val) = true)) ∧
    (∃ (s : State) (dt : Nat) (n : Fin 8),
       let u := (s.tickTo dt).hostBegin
       u.reaches (0x88D + 0x100 * n.val) = true) :=
  ⟨⟨base .run, 0, 0, false, by decide +kernel⟩,
    ⟨base .run, 0, 0, by decide +kernel⟩⟩

set_option synthInstance.maxSize 2000 in
set_option synthInstance.maxHeartbeats 400000 in
theorem witness_SurveyTriggers :
    (∃ (s : State) (dt : Nat) (st : Fin 2) (k : Fin 8) (held : Nat),
       let u := s.survAt k dt
       u.survDue k st held ∧ u.survIdle st ∧ u.survDown st = false) ∧
    (∃ (s : State) (dt : Nat) (st : Fin 2) (k : Fin 8) (held : Nat),
       let u := s.survAt k dt
       u.survDue k st held ∧ u.survIdle st ∧ u.survDown st = true) ∧
    (∃ (s : State) (dt : Nat) (st : Fin 2) (k : Fin 8) (held : Nat),
       let u := s.survAt k dt
       let v := u.stations[st].sv
       u.survDue k st held ∧ k.val < 3 ∧ (v.run ≠ none ∨ v.startup ≠ none)) ∧
    (∃ (s : State) (dt : Nat) (lk : Link) (st : Fin 2) (k : Fin 8) (r : ConvRun) (held : Nat),
       let u := s.survAt k dt
       let b := u.survBase lk k st
       let v := b.stations[st].sv
       u.survDue k st held ∧ survBit k = 1 ∧ v.run = some r ∧ v.startup = none ∧ r.done < 2 ^ (u.runEnt st r).avg) ∧
    (∃ (s : State) (dt : Nat) (st : Fin 2) (k : Fin 8) (held : Nat),
       let u := s.survAt k dt
       let v := u.stations[st].sv
       u.survDue k st held ∧ 4 ≤ k.val ∧ v.run = none ∧ v.startup ≠ none ∧ u.gb (ST_SV_STAT_PWRDN st) = false) ∧
    (∃ (s : State) (dt : Nat) (st : Fin 2) (r : ConvRun) (held : Nat),
       let u := s.tickTo dt
       u.survDue 7 st held ∧ u.stations[st].sv.run = some r) ∧
    (∃ (s : State) (dt : Nat) (st : Fin 2) (k : Fin 8) (held : Nat),
       let u := s.survAt k dt
       k ≠ 2 ∧ k ≠ 6 ∧ (k = 0 ∨ k = 4 → u.reaches (0x443 + 0x100 * st.val) = true) ∧ ¬ u.survDue k st held ∧
         (survBit k = 1 → ∀ r ∈ u.stations[st].sv.run, r.done < 2 ^ (u.runEnt st r).avg)) ∧
    (∃ (s : State) (dt : Nat),
       let u := s.tickTo dt
       (∀ st : Fin 2, u.stations[st].sv.on = true ∧ u.survIdle st ∧ u.survDown st = false ∧ 1 ≤ u.g (ST_SV_CFG_REG_LEN st))) ∧
    (∃ (s : State) (dt : Nat) (st : Fin 2) (x : Nat),
       let u := s.tickTo dt
       let v := u.stations[st].sv
       v.startup = some x ∧ 1 ≤ u.g (ST_SV_CFG_REG_LEN st)) ∧
    (∃ (s : State) (dt : Nat) (st : Fin 2),
       let u := s.tickTo dt
       u.stations[st].sv.startup = none) ∧
    (∃ (s : State) (dt : Nat) (st : Fin 2),
       let u := (s.tickTo dt).hostBegin
       u.reaches (0x443 + 0x100 * st.val) = true) ∧
    (∃ (s : State) (dt : Nat),
       let u := s.tickTo dt
       (∀ st : Fin 2, (u.aintrgInj st = false ∧ u.aintrgReg st = false) ∨ (u.stations[st].sv.on = false ∧
         u.stations[st].sv.run = none))) :=
  ⟨⟨((base .run).svu 0 fun v => { v with on := true, run := none, saved := none, startup := none, afterUp := 0, hkDue := false, endAt := v.endAt % 400, hkAt := v.hkAt % 400 }).put (ST_SV_CFG_RMODE 0) ([3,1,2,0].getD (0 : Fin 8).val 0), 0, 0, 0, 0, by unfold State.survDue State.survIdle; dsimp only; decide +kernel⟩,
    ⟨(((base .run).put (ST_SV_STAT_PWRDN 0) 1).svu 0 fun v => { v with on := true, run := none, saved := none, startup := none, afterUp := 0, hkDue := false, endAt := v.endAt % 400, hkAt := v.hkAt % 400 }).put (ST_SV_CFG_RMODE 0) ([3,1,2,0].getD (0 : Fin 8).val 0), 0, 0, 0, 0, by unfold State.survDue State.survIdle; dsimp only; decide +kernel⟩,
    ⟨(((base .run).svu 0 fun v => { v with run := some round0 }).svu 0 fun v => { v with on := true, endAt := v.endAt % 400, hkAt := v.hkAt % 400 }).put (ST_SV_CFG_RMODE 0) ([3,1,2,0].getD (0 : Fin 8).val 0), 0, 0, 0, 0, by unfold State.survDue; dsimp only; decide +kernel⟩,
    ⟨(((base .run).svu 0 fun v => { v with on := true, run := some round0, startup := none, endAt := v.endAt % 400, hkAt := v.hkAt % 400 }).put (ST_SV_CFG_ORG 0) 1).put (ST_SV_CFG_INJ_SRC 0) 15, 0, .spi, 0, Fin.ofNat 8 (4 + (0 : Fin 8).val % 3), round0, 0, by unfold State.survDue; dsimp only; decide +kernel⟩,
    ⟨(((base .run).svu 0 fun v => { v with on := true, run := none, startup := some 5, afterUp := v.afterUp % 8, endAt := v.endAt % 400, hkAt := v.hkAt % 400 }).put (ST_SV_CFG_ORG 0) 1).put (ST_SV_CFG_INJ_SRC 0) 15, 0, 0, Fin.ofNat 8 (4 + (0 : Fin 8).val % 4), 0, by unfold State.survDue; dsimp only; decide +kernel⟩,
    ⟨(base .run).svu 0 fun v => { v with on := true, run := some { round0 with kind := 0 % 4 } , hkDue := false, hkAt := v.hkAt % 400 }, 0, 0, round0, 0, by unfold State.survDue; dsimp only; decide +kernel⟩,
    ⟨base .run, 0, 0, 0, 0, by unfold State.survDue; dsimp only; decide +kernel⟩,
    ⟨((base .run).svu 0 fun v => { v with on := true, run := none, saved := none, startup := none, afterUp := 0, hkDue := false }).svu 1 fun v => { v with on := true, run := none, saved := none, startup := none, afterUp := 0, hkDue := false }, 0, by unfold State.survIdle; dsimp only; decide +kernel⟩,
    ⟨(base .run).svu 0 fun v => { v with on := true, run := none, startup := some 0, afterUp := v.afterUp % 8 }, 0, 0, 0,
      by decide +kernel⟩,
    ⟨base .run, 0, 0, by decide +kernel⟩,
    ⟨base .run, 0, 0, by decide +kernel⟩,
    ⟨base .run, 0, by decide +kernel⟩⟩

theorem witness_IdentityBus :
    (∃ (s : State) (dt : Nat),
       let u := (s.tickTo dt).hostBegin
       u.indAnswers 0x401 = true ∧ u.indQ = [] ∧ u.gb MG_SV_STAT_HALTED = false) ∧
    (∃ (s : State) (dt : Nat) (n : Fin 8),
       let u := s.tickTo dt
       let m := u.axes[n].mon
       (m.reading = false ∨ m.retryAt ≠ none ∨ u.surveyorUp = false)) ∧
    (∃ (s : State) (dt : Nat) (n : Fin 8),
       let u := s.tickTo dt
       let m := u.axes[n].mon
       m.reading = true ∧ m.retryAt = none ∧ u.surveyorUp = true) ∧
    (∃ (s : State) (dt : Nat) (n : Fin 8),
       let u := s.tickTo dt
       let m := u.axes[n].mon
       m.reading = true ∧ m.retryAt = none ∧ u.surveyorUp = true ∧ u.dev ≠ .configLoad) ∧
    (∃ (s : State) (dt : Nat),
       let u := (s.tickTo dt).hostBegin
       u.indAnswers 0x401 = true ∧ u.indQ = [] ∧ u.gb MG_SV_STAT_HALTED = false) ∧
    (∃ (s : State) (dt : Nat),
       let u := (s.tickTo dt).hostBegin
       u.indAnswers 0x401 = true ∧ u.indQ = [] ∧ u.gb MG_SV_STAT_HALTED = true) ∧
    (∃ (s : State) (dt : Nat),
       let u := (s.tickTo dt).hostBegin
       u.answers = true ∧ (u.indAnswers 0x401 = false ∨ u.indQ ≠ [])) :=
  ⟨⟨base .run, 0, by decide +kernel⟩,
    ⟨base .run, 0, 0, by decide +kernel⟩,
    ⟨(base .run).mon 0 fun m => { m with reading := true, retryAt := none }, 0, 0, by decide +kernel⟩,
    ⟨(base .run).mon 0 fun m => { m with reading := true, retryAt := none }, 0, 0, by decide +kernel⟩,
    ⟨base .run, 0, by decide +kernel⟩,
    ⟨(base .run).put MG_SV_STAT_HALTED 1, 0, by decide +kernel⟩,
    ⟨base .boot, 0, by decide +kernel⟩⟩

theorem witness_SurveyConversions :
    (∃ (s : State) (dt : Nat) (st : Fin 2),
       let u := s.tickTo dt
       (∀ r ∈ u.stations[st].sv.run, u.now < r.t + 80 * 2 ^ (u.runEnt st r).smp + 120 ∨ 2 ^ (u.runEnt st r).avg ≤ r.done)) ∧
    (∃ (s : State) (dt : Nat) (st : Fin 2) (r : ConvRun),
       let u := s.tickTo dt
       let v := u.stations[st].sv
       let e := u.runEnt st r
       v.run = some r ∧ r.t + 80 * 2 ^ e.smp + 120 ≤ u.now ∧ r.done < 2 ^ e.avg) ∧
    (∃ (s : State) (dt : Nat) (st : Fin 2),
       let u := s.tickTo dt
       (∀ r ∈ u.stations[st].sv.run, r.kind = 2 ∨ r.done < 2 ^ (u.runEnt st r).avg)) ∧
    (∃ (s : State) (dt : Nat) (st : Fin 2) (r : ConvRun),
       let u := s.tickTo dt
       let v := u.stations[st].sv
       let e := u.runEnt st r
       v.run = some r ∧ r.kind ≤ 1 ∧ r.idx < 16 ∧ (r.kind = 1 → r.idx < 4) ∧ 2 ^ e.avg ≤ r.done) ∧
    (∃ (s : State) (dt : Nat) (st : Fin 2),
       let u := s.tickTo dt
       (∀ r ∈ u.stations[st].sv.run, u.svHkLast st r = false ∨ r.done < 2 ^ (u.runEnt st r).avg)) ∧
    (∃ (s : State) (dt : Nat) (st : Fin 2) (r : ConvRun) (x y : Nat),
       let u := s.tickTo dt
       let v := u.stations[st].sv
       let o := u.stations[1 - st].sv
       let near := fun (q : Nat) => (if q ≤ 8192 then 8192 - q else q - 8192) ≤ u.g XCHK_CFG_REF_TOL
       v.run = some r ∧ r.kind = 2 ∧ u.svHkLast st r = true ∧ r.idx = 5 ∧ 1 ≤ r.done ∧ v.vchk = some x ∧ o.vmx = some y ∧
         near v.ref ∧ near o.ref ∧ u.power.xdue = false ∧ u.gb XCHK_STAT_FAIL = false) ∧
    (∃ (s : State) (dt : Nat) (st : Fin 2),
       let u := (s.tickTo dt).hostBegin
       u.reaches (ST_CAL_CTL_CH st).a = true) ∧
    (∃ (s : State) (dt : Nat) (st : Fin 2),
       let u := (s.tickTo dt).hostBegin
       let x := u.stations[st].sv.calOf
       let ch := bits x 0 5
       u.reaches (ST_CAL_CTL_CH st).a = true ∧ (ch < 16 ∨ (ch = 19 ∧ 3 ≤ bits x 5 4 ∧ bits x 5 4 ≤ 6))) :=
  ⟨⟨base .run, 0, 0, by decide +kernel⟩,
    ⟨(base .run).svu 0 fun v => { v with run := some round0, hkDue := 0 % 3 = 0 && v.hkDue, ents := [(0x440 + 0x100 * (0 : Fin 2).val, W (0 * 7919)), (0x450 + 0x100 * (0 : Fin 2).val + round0.idx, W (0 * 104729 % 2 ^ 26))], calIn := 0 % 2048 }, 0, 0, round0, by decide +kernel⟩,
    ⟨base .run, 0, 0, by decide +kernel⟩,
    ⟨(let r : ConvRun := { round0 with kind := 0 % 2, done := 256, idx := if 0 % 2 = 1 then round0.idx % 4 else round0.idx % 16 };
      (base .run).svu 0 fun v => { v with run := some r, ents := [(0x440 + 0x100 * (0 : Fin 2).val, W (0 * 7919)), (0x450 + 0x100 * (0 : Fin 2).val + r.idx, W (0 * 104729 % 2 ^ 26))] }), 0, 0, { round0 with kind := 0 % 2, done := 256, idx := if 0 % 2 = 1 then round0.idx % 4 else round0.idx % 16 }, by decide +kernel⟩,
    ⟨base .run, 0, 0, by decide +kernel⟩,
    ⟨(let s : State := (base .run).svu 0 fun v => { v with run := some { round0 with kind := 2, done := 1, idx := 5 }, hkMo := false, vchk := some 0, ref := 8192, vmb := v.vmb % 65536, temps := v.temps.map (· % 65536), cal := if 0 % 3 = 0 then v.cal else 0 }; s.svu (1 - 0) fun v => { v with vmx := some 0, hkStart := s.now, ref := 8190 }), 0, 0, { round0 with kind := 2, done := 1, idx := 5 }, 0, 0, by decide +kernel⟩,
    ⟨base .run, 0, 0, by decide +kernel⟩,
    ⟨base .run, 0, 0, by decide +kernel⟩⟩

theorem witness_ProgramInstructions :
    (∃ (s : State) (dt : Nat) (x : Fin 4) (k : Fin 10) (w1 w2 w3 : BitVec 64),
       let u := s.tickTo dt
       (u.ctxTurn x = false ∨ u.ctxAt x (progWords k w1 w2 w3) = false)) ∧
    (∃ (s : State) (dt : Nat) (x : Fin 4) (k : Fin 10) (w1 w2 w3 : BitVec 64),
       let u := s.tickTo dt
       u.ctxTurn x = true ∧ u.ctxAt x (progWords k w1 w2 w3) = true ∧ pLegal w1.toNat = false ∧
         kvGet u.ecc[0].bad (0x4000 + u.ctxs[x].pc) 0 = 0) ∧
    (∃ (s : State) (dt : Nat) (x : Fin 4) (k : Fin 10) (w1 w2 w3 : BitVec 64),
       let u := s.tickTo dt
       u.ctxTurn x = true ∧ u.ctxAt x (progWords k w1 w2 w3) = true ∧ pLegal w1.toNat = true ∧ pOp w1.toNat = k.val + 1 ∧
         4096 < u.ctxs[x].pc + (progWords k w1 w2 w3).length) ∧
    (∃ (s : State) (dt : Nat) (x : Fin 4) (w1 w2 w3 : BitVec 64),
       let u := s.tickTo dt
       u.ctxReady x 1 [w1.toNat, w2.toNat, w3.toNat]) ∧
    (∃ (s : State) (dt : Nat) (x : Fin 4) (w1 : BitVec 64),
       let u := s.tickTo dt
       u.ctxReady x 2 [w1.toNat]) ∧
    (∃ (s : State) (dt : Nat) (x : Fin 4) (tag since : Nat),
       let u := s.tickTo dt
       u.ctxs[x].wait = .tag tag since) ∧
    (∃ (s : State) (dt : Nat) (x : Fin 4) (since : Nat),
       let u := s.tickTo dt
       u.ctxs[x].wait = .inp since) ∧
    (∃ (s : State) (dt : Nat) (x : Fin 4) (k : Fin 3),
       let u := s.tickTo dt
       u.ctxs[x].wait.kind ≠ k.val + 1) ∧
    (∃ (s : State) (dt : Nat) (x : Fin 4) (w1 : BitVec 64),
       let u := s.tickTo dt
       u.ctxReady x 3 [w1.toNat]) ∧
    (∃ (s : State) (dt : Nat) (x : Fin 4) (w1 : BitVec 64),
       let u := s.tickTo dt
       u.ctxReady x 4 [w1.toNat]) ∧
    (∃ (s : State) (dt : Nat) (x : Fin 4) (e : Nat),
       let u := s.tickTo dt
       u.ctxs[x].wait = .time e) ∧
    (∃ (s : State) (dt : Nat) (x : Fin 4) (w1 : BitVec 64),
       let u := s.tickTo dt
       u.ctxReady x 5 [w1.toNat]) ∧
    (∃ (s : State) (dt : Nat) (x : Fin 4) (w1 : BitVec 64),
       let u := s.tickTo dt
       u.ctxReady x 6 [w1.toNat]) ∧
    (∃ (s : State) (dt : Nat) (x : Fin 4) (w1 : BitVec 64),
       let u := s.tickTo dt
       u.ctxReady x 7 [w1.toNat]) ∧
    (∃ (s : State) (dt : Nat) (x : Fin 4) (w1 w2 : BitVec 64),
       let u := s.tickTo dt
       u.ctxReady x 8 [w1.toNat, w2.toNat]) ∧
    (∃ (s : State) (dt : Nat) (x : Fin 4) (w1 : BitVec 64),
       let u := s.tickTo dt
       u.ctxReady x 9 [w1.toNat]) ∧
    (∃ (s : State) (dt : Nat) (x : Fin 4) (w1 : BitVec 64),
       let u := s.tickTo dt
       u.ctxReady x 10 [w1.toNat]) :=
  ⟨⟨base .run, 0, 0, 0, 0, 0, 0, by decide +kernel⟩,
    ⟨(let s : State := { (base .run) with dev := .run, tick := { (base .run).tick with on := true, commitDue := true, mark := (base .run).now } }; forFin 4 (fun y (s : State) => s.ctx y fun c => { c with n := if y.val < (0 : Fin 4).val then 16 else 3, running := true, hold := false, pc := if 0 % 17 = 0 then 4090 + c.pc % 6 else c.pc % 4000 }) s), 200 + 0 % 3, 0, 0, 0, 0, 0, by decide +kernel⟩,
    ⟨(let s : State := (let s : State := { (base .run) with dev := .run, tick := { (base .run).tick with on := true, commitDue := true, mark := (base .run).now } }; forFin 4 (fun y (s : State) => s.ctx y fun c => { c with n := if y.val < (0 : Fin 4).val then 16 else 3, running := true, hold := false, pc := if 0 % 17 = 0 then 4090 + c.pc % 6 else c.pc % 4000 }) s).ctx 0 fun c => { c with pc := 4095 }; { (s) with store := kvSet s.store 4095 (((0 : BitVec 64) &&& 0x0070600000000000) + 0x0100000000000000) 0 }), 200 + 0 % 3, 0, 0, ((0 : BitVec 64) &&& 0x0070600000000000) + 0x0100000000000000, 0, 0, by decide +kernel⟩,
    ⟨(let s : State := (let s : State := { base .run with tick := { (base .run).tick with commitDue := true } };
      forFin 4 (fun y (s : State) => s.ctx y fun c => { c with n := if y.val < (0 : Fin 4).val then 16 else 3, running := true, hold := false, pc := if 0 % 17 = 0 then 4090 + c.pc % 6 else c.pc % 4000 }) s); { (s) with store := kvSet (kvSet (kvSet s.store (s.ctxs[0].pc) (((0 : BitVec 64) &&& (0x00706FFF00000000 : BitVec 64)) + BitVec.ofNat 64 (1 * 2 ^ 56)) 0) (s.ctxs[0].pc + 1) (0 : BitVec 64) 0) (s.ctxs[0].pc + 2) (0 : BitVec 64) 0 }), 0, 0, ((0 : BitVec 64) &&& (0x00706FFF00000000 : BitVec 64)) + BitVec.ofNat 64 (1 * 2 ^ 56), 0, 0, by unfold State.ctxReady; decide +kernel⟩,
    ⟨(let s : State := (let s : State := { (base .run) with dev := .run, tick := { (base .run).tick with on := true, commitDue := true, mark := (base .run).now } }; forFin 4 (fun y (s : State) => s.ctx y fun c => { c with n := if y.val < (0 : Fin 4).val then 16 else 3, running := true, hold := false, pc := if 0 % 17 = 0 then 4090 + c.pc % 6 else c.pc % 4000 }) s); { (s) with store := kvSet s.store (s.ctxs[0].pc) (144115188075855872 : BitVec 64) 0 }), 200 + 0 % 3, 0, 144115188075855872, by unfold State.ctxReady; decide +kernel⟩,
    ⟨(base .run).ctx 0 fun c => { c with wait := .tag 0 0, trk := if 0 % 3 = 0 then c.trk else [(0, 77, none)] }, 0, 0, 0, 0,
      by decide +kernel⟩,
    ⟨(base .run).ctx 0 fun c => { c with wait := .inp 0, trk := if 0 % 3 = 0 then c.trk else [(3, 77, none)] }, 0, 0, 0,
      by decide +kernel⟩,
    ⟨base .run, 0, 0, 0, by decide +kernel⟩,
    ⟨(let s : State := (let s : State := { (base .run) with dev := .run, tick := { (base .run).tick with on := true, commitDue := true, mark := (base .run).now } }; forFin 4 (fun y (s : State) => s.ctx y fun c => { c with n := if y.val < (0 : Fin 4).val then 16 else 3, running := true, hold := false, pc := if 255 % 17 = 0 then 4090 + c.pc % 6 else c.pc % 4000 }) s); { (s) with store := kvSet s.store (s.ctxs[0].pc) (216172782113783808 : BitVec 64) 0 }), 255, 0, 216172782113783808, by unfold State.ctxReady; decide +kernel⟩,
    ⟨(let s : State := (let s : State := { (base .run) with dev := .run, tick := { (base .run).tick with on := true, commitDue := true, mark := (base .run).now } }; forFin 4 (fun y (s : State) => s.ctx y fun c => { c with n := if y.val < (0 : Fin 4).val then 16 else 3, running := true, hold := false, pc := if 255 % 17 = 0 then 4090 + c.pc % 6 else c.pc % 4000 }) s); { (s) with store := kvSet s.store (s.ctxs[0].pc) (((0 : BitVec 64) &&& 0x0000000000000003) + BitVec.ofNat 64 (4 * 2 ^ 56)) 0 }), 255, 0, ((0 : BitVec 64) &&& 0x0000000000000003) + BitVec.ofNat 64 (4 * 2 ^ 56), by unfold State.ctxReady; decide +kernel⟩,
    ⟨(base .run).ctx 0 fun c => { c with wait := .time 0 }, 0, 0, 0, by decide +kernel⟩,
    ⟨(let s : State := (let s : State := { (base .run) with dev := .run, tick := { (base .run).tick with on := true, commitDue := true, mark := (base .run).now } }; forFin 4 (fun y (s : State) => s.ctx y fun c => { c with n := if y.val < (0 : Fin 4).val then 16 else 3, running := true, hold := false, pc := if 255 % 17 = 0 then 4090 + c.pc % 6 else c.pc % 4000 }) s); { (s) with store := kvSet s.store (s.ctxs[0].pc) (((0 : BitVec 64) &&& 0x003F1FFF00000000) + BitVec.ofNat 64 (5 * 2 ^ 56)) 0 }), 255, 0, ((0 : BitVec 64) &&& 0x003F1FFF00000000) + BitVec.ofNat 64 (5 * 2 ^ 56), by unfold State.ctxReady; decide +kernel⟩,
    ⟨(let s : State := (let s : State := { (base .run) with dev := .run, tick := { (base .run).tick with on := true, commitDue := true, mark := (base .run).now } }; forFin 4 (fun y (s : State) => s.ctx y fun c => { c with n := if y.val < (0 : Fin 4).val then 16 else 3, running := true, hold := false, pc := if 0 % 17 = 0 then 4090 + c.pc % 6 else c.pc % 4000 }) s); { (s) with store := kvSet s.store (s.ctxs[0].pc) (((0 : BitVec 64) &&& 0x00030FFF00000003) + BitVec.ofNat 64 (6 * 2 ^ 56)) 0 }), 200 + 0 % 3, 0, ((0 : BitVec 64) &&& 0x00030FFF00000003) + BitVec.ofNat 64 (6 * 2 ^ 56), by unfold State.ctxReady; decide +kernel⟩,
    ⟨(let s : State := (let s : State := { (base .run) with dev := .run, tick := { (base .run).tick with on := true, commitDue := true, mark := (base .run).now } }; forFin 4 (fun y (s : State) => s.ctx y fun c => { c with n := if y.val < (0 : Fin 4).val then 16 else 3, running := true, hold := false, pc := if 255 % 17 = 0 then 4090 + c.pc % 6 else c.pc % 4000 }) s); { (s) with store := kvSet s.store (s.ctxs[0].pc) (((0 : BitVec 64) &&& 0x000000000000FFFF) + BitVec.ofNat 64 (7 * 2 ^ 56)) 0 }), 255, 0, ((0 : BitVec 64) &&& 0x000000000000FFFF) + BitVec.ofNat 64 (7 * 2 ^ 56), by unfold State.ctxReady; decide +kernel⟩,
    ⟨(let s : State := (let s : State := { base .run with tick := { (base .run).tick with commitDue := true } };
      forFin 4 (fun y (s : State) => s.ctx y fun c => { c with n := if y.val < (0 : Fin 4).val then 16 else 3, running := true, hold := false, pc := if 0 % 17 = 0 then 4090 + c.pc % 6 else c.pc % 4000 }) s); { (s) with store := kvSet (kvSet s.store (s.ctxs[0].pc) (((0 : BitVec 64) &&& (0x00E203FF1FFF0000 : BitVec 64)) + BitVec.ofNat 64 (8 * 2 ^ 56)) 0) (s.ctxs[0].pc + 1) (0 : BitVec 64) 0 }), 0, 0, ((0 : BitVec 64) &&& (0x00E203FF1FFF0000 : BitVec 64)) + BitVec.ofNat 64 (8 * 2 ^ 56), 0, by unfold State.ctxReady; decide +kernel⟩,
    ⟨(let s : State := (let s : State := { (base .run) with dev := .run, tick := { (base .run).tick with on := true, commitDue := true, mark := (base .run).now } }; forFin 4 (fun y (s : State) => s.ctx y fun c => { c with n := if y.val < (0 : Fin 4).val then 16 else 3, running := true, hold := false, pc := if 0 % 17 = 0 then 4090 + c.pc % 6 else c.pc % 4000 }) s); { (s) with store := kvSet s.store (s.ctxs[0].pc) (((0 : BitVec 64) &&& 0x00FFFF80FFFFFFFF) + BitVec.ofNat 64 (9 * 2 ^ 56)) 0 }), 200 + 0 % 3, 0, ((0 : BitVec 64) &&& 0x00FFFF80FFFFFFFF) + BitVec.ofNat 64 (9 * 2 ^ 56), by unfold State.ctxReady; decide +kernel⟩,
    ⟨(let s : State := (let s : State := { (base .run) with dev := .run, tick := { (base .run).tick with on := true, commitDue := true, mark := (base .run).now } }; forFin 4 (fun y (s : State) => s.ctx y fun c => { c with n := if y.val < (0 : Fin 4).val then 16 else 3, running := true, hold := false, pc := if 255 % 17 = 0 then 4090 + c.pc % 6 else c.pc % 4000 }) s); { (s) with store := kvSet s.store (s.ctxs[0].pc) (((0 : BitVec 64) &&& 0x0000000000000000) + BitVec.ofNat 64 (10 * 2 ^ 56)) 0 }), 255, 0, ((0 : BitVec 64) &&& 0x0000000000000000) + BitVec.ofNat 64 (10 * 2 ^ 56), by unfold State.ctxReady; decide +kernel⟩⟩

theorem witness_SealsAndUpdates :
    (∃ (s : State) (dt : Nat),
       let u := (s.tickTo dt).hostBegin
       u.mgOpen 0x100) ∧
    (∃ (s : State) (dt : Nat),
       let u := (s.tickTo dt).hostBegin
       u.mgOpen 0x200) ∧
    (∃ (s : State) (dt : Nat),
       let u := s.tickTo dt
       (u.gb MG_UPD_STAT_BUSY = false ∨ u.surveyorUp = false)) ∧
    (∃ (s : State) (dt : Nat),
       let u := s.tickTo dt
       u.gb MG_UPD_STAT_BUSY = true ∧ u.surveyorUp = true) :=
  ⟨⟨base .run, 0, by unfold State.mgOpen; decide +kernel⟩,
    ⟨base .run, 0, by unfold State.mgOpen; decide +kernel⟩,
    ⟨base .run, 0, by decide +kernel⟩,
    ⟨((base .run).put MG_UPD_STAT_BUSY 1).put MG_SV_STAT_HALTED 0, 0, by decide +kernel⟩⟩

theorem witness_SafeExitRefused :
    ∃ (s : State) (dt : Nat) (lk : Link),
      let u := (s.tickTo dt).hostBegin
      u.reaches 0x13 = true ∧ (u.link lk).armed = true ∧ u.dev = .safe ∧ u.g DEV_STATE_SAFE_CAUSE ≠ 0 :=
  ⟨((base .safe).put DEV_STATE_SAFE_CAUSE 1).lnk (.spi : Link) fun k => { k with armed := true }, 0, .spi, by decide +kernel⟩

theorem witness_StepTakesTheFront :
    ∃ (s : State),
      s.pending = [] :=
  ⟨base .run, by decide +kernel⟩

theorem witness_EveryStepAnswers :
    ∃ (s : State) (c : Instr) (l : List Instr),
      s.pending = c :: l :=
  ⟨{ base .run with pending := [.powerOnReset 0] }, .powerOnReset 0, [], by decide +kernel⟩

theorem witness_StepKeepsTheForm : ∃ s t : State, s.wf = true ∧ step s = .next t :=
  ⟨{ (base .run).put DEV_MEM_CFG_SCRUB_EN 1 with pending := [.scrubRead 0 .mgmt] }, _, by decide +kernel, rfl⟩

theorem witness_StepSettles : ∃ s t : State, (s.pending ≠ [] ∨ s.settled) ∧ step s = .next t :=
  ⟨{ base .run with pending := [.scrubRead 0 .mgmt] }, _, .inl (by decide +kernel), rfl⟩

theorem witness_DeviceStateMoves : ∃ s t : State, s.resetForm ∧ step s = .next t :=
  ⟨{ base .run with pending := [.scrubRead 0 .mgmt] }, _, by unfold State.resetForm; decide +kernel, rfl⟩

theorem witness_SurveyorAndEvents :
    (∃ (s : State) (dt : Nat) (k : Fin 3),
       let u := (s.tickTo dt).hostBegin
       let a := if k = 0 then 0x008 else if k = 1 then 0x012 else 0x021
       u.mgOpen a) ∧
    (∃ (s : State) (dt : Nat) (e : Fin 64),
       let u := (s.tickTo dt).hostBegin
       u.reaches (DEV_EVST_PEND (e.val / 8)).a = true) ∧
    (∃ (s : State) (dt : Nat) (e : Fin 64),
       let u := (s.tickTo dt).hostBegin
       u.reaches (DEV_EVST_PEND (e.val / 8)).a = true) :=
  ⟨⟨base .run, 0, 0, by unfold State.mgOpen; decide +kernel⟩,
    ⟨base .run, 0, 0, by decide +kernel⟩,
    ⟨base .run, 0, 0, by decide +kernel⟩⟩

end Sys2Proof.Tests
end

section
/-!
The queue, and the protected memories' corrected words that wait to be written back (R35, R45).
-/

namespace Sys2Proof.Machine

/-- Settles O54: `step` matches on the queue. -/
theorem stepTakesTheFront : Obligations.StepTakesTheFront := by
  refine ⟨fun s c => rfl, fun s h => ?_⟩
  unfold step
  rw [h]

/-! ## Error marks -/

variable (s : State)

theorem mix_other_ne (m : Mem) : mix m ≠ 1 - mix m := by cases m <;> decide

/-- The error marks of a word read as they were set. -/
theorem State.setBad_badSyms_same (m : Mem) (a x : Nat) : (s.setBad m a x).badSyms m a = x % 2 ^ 20 := by
  unfold State.badSyms State.setBad
  rw [State.mm_ecc, vupd_same, kvGet_kvSet_same, BitVec.toNat_ofNat]

theorem State.setBad_badSyms_ne (m : Mem) (a b x : Nat) (h : a ≠ b) : (s.setBad m a x).badSyms m b = s.badSyms m b := by
  unfold State.badSyms State.setBad
  rw [State.mm_ecc, vupd_same, kvGet_kvSet_ne _ _ _ _ _ _ h]

/-- An update of a memory that leaves its marks. -/
theorem State.mm_badSyms (m : Mem) (f : EccSt → EccSt) (b : Nat) (h : (f s.ecc[mix m]).bad = s.ecc[mix m].bad) :
    (s.mm m f).badSyms m b = s.badSyms m b := by
  unfold State.badSyms
  rw [State.mm_ecc, vupd_same, h]

theorem State.settle_badSyms (m : Mem) (a : Nat) : s.settle.badSyms m a = s.badSyms m a := by
  unfold State.badSyms
  rw [State.settle_ecc]

/-- The memory's state read after an update of it, and the other memory's. -/
theorem State.mm_ecc_same (m : Mem) (f : EccSt → EccSt) : (s.mm m f).ecc[mix m] = f s.ecc[mix m] := by
  rw [State.mm_ecc, vupd_same]

theorem State.mm_ecc_other (m : Mem) (f : EccSt → EccSt) : (s.mm m f).ecc[1 - mix m] = s.ecc[1 - mix m] := by
  rw [State.mm_ecc, vupd_ne _ _ _ _ (mix_other_ne m)]

/-! ## Write-back -/

/-- A functional write makes the word good and cancels its write-back (R35, R36). -/
theorem State.memWrite_ecc_same (m : Mem) (a : Nat) : (s.memWrite m a).ecc[mix m] =
    { s.ecc[mix m] with
      bad := kvSet s.ecc[mix m].bad a (BitVec.ofNat 20 0) 0, writeBack := s.ecc[mix m].writeBack.filter fun x => x != a } := by
  unfold State.memWrite State.setBad
  dsimp only
  rw [State.mm_ecc_same, State.mm_ecc_same]

theorem State.memWrite_ecc_other (m : Mem) (a : Nat) : (s.memWrite m a).ecc[1 - mix m] = s.ecc[1 - mix m] := by
  unfold State.memWrite State.setBad
  dsimp only
  rw [State.mm_ecc_other, State.mm_ecc_other]

theorem State.memWrite_badSyms (m : Mem) (a b : Nat) : (s.memWrite m a).badSyms m b = (s.setBad m a 0).badSyms m b :=
  (s.setBad m a 0).mm_badSyms m _ b rfl

/-- What ECC_WRITE_BACK does with the oldest waiting word `a` once it waits no longer (R35). -/
def State.writeBackDone (s : State) (m : Mem) (written : Bool) (a : Nat) : State :=
  if written then s.memWrite m a else if symCount (s.badSyms m a) ≤ 1 then s.setBad m a 0 else s

theorem exec_eccWriteBack {dt : Nat} {m : Mem} {written : Bool} {a : Nat} {l : List Nat}
    (h : (s.tickTo dt).ecc[mix m].writeBack = a :: l) : exec (.eccWriteBack dt m written) s =
      done (((s.tickTo dt).mm m fun e => { e with writeBack := l }).writeBackDone m written a) := by
  change execEccWriteBack dt m written s = _
  unfold execEccWriteBack
  dsimp only
  rw [h]
  rfl

theorem exec_eccWriteBack_nil {dt : Nat} {m : Mem} {written : Bool}
    (h : (s.tickTo dt).ecc[mix m].writeBack = []) : exec (.eccWriteBack dt m written) s = done (s.tickTo dt) := by
  change execEccWriteBack dt m written s = _
  unfold execEccWriteBack
  dsimp only
  rw [h]

section
variable (m : Mem) (written : Bool) (a : Nat)

theorem State.writeBackDone_frame (A : List Nat) :
    ({ s with ecc := (s.writeBackDone m written a).ecc }).sameBut (s.writeBackDone m written a) A := by
  unfold State.writeBackDone
  split
  · exact ⟨rfl, rfl, fun _ _ _ => rfl⟩
  · split <;> exact State.sameBut.refl

theorem State.writeBackDone_other : (s.writeBackDone m written a).ecc[1 - mix m] = s.ecc[1 - mix m] := by
  unfold State.writeBackDone
  split
  · exact s.memWrite_ecc_other m a
  · split
    · exact s.mm_ecc_other m _
    · rfl

theorem State.writeBackDone_writeBack (h : a ∉ s.ecc[mix m].writeBack) :
    (s.writeBackDone m written a).ecc[mix m].writeBack = s.ecc[mix m].writeBack := by
  unfold State.writeBackDone
  split
  · rw [State.memWrite_ecc_same, List.filter_eq_self]
    exact fun x hx => bne_iff_ne.mpr (ne_of_mem_of_not_mem hx h)
  · split
    · unfold State.setBad; rw [State.mm_ecc_same]
    · rfl

theorem State.writeBackDone_scrub : (s.writeBackDone m written a).ecc[mix m].scrub = s.ecc[mix m].scrub ∧
    (s.writeBackDone m written a).ecc[mix m].passCorr = s.ecc[mix m].passCorr := by
  unfold State.writeBackDone
  split
  · rw [State.memWrite_ecc_same]; exact ⟨rfl, rfl⟩
  · split
    · unfold State.setBad; rw [State.mm_ecc_same]; exact ⟨rfl, rfl⟩
    · exact ⟨rfl, rfl⟩

theorem State.writeBackDone_badSyms_same : (s.writeBackDone m written a).badSyms m a =
    if written || decide (symCount (s.badSyms m a) ≤ 1) then 0 else s.badSyms m a := by
  unfold State.writeBackDone
  cases written with
  | true => exact (s.memWrite_badSyms m a a).trans (s.setBad_badSyms_same m a 0)
  | false =>
    by_cases c : symCount (s.badSyms m a) ≤ 1
    · simpa [c] using s.setBad_badSyms_same m a 0
    · simp [c]

theorem State.writeBackDone_badSyms_ne (b : Nat) (h : b ≠ a) : (s.writeBackDone m written a).badSyms m b = s.badSyms m b := by
  unfold State.writeBackDone
  split
  · exact (s.memWrite_badSyms m a b).trans (s.setBad_badSyms_ne m a b 0 h.symm)
  · split
    · exact s.setBad_badSyms_ne m a b 0 h.symm
    · rfl

end

/-- Settles O2: the oldest waiting word is taken off the list, then `State.writeBackDone` treats it. -/
theorem writeBackMakesTheWordGood : Obligations.WriteBackMakesTheWordGood := by
  refine ⟨fun s dt m written a l h hl => ?_, fun s dt m written h => ?_⟩
  · let u := (s.tickTo dt).mm m fun e => { e with writeBack := l }
    have hu : u.ecc[mix m] = { (s.tickTo dt).ecc[mix m] with writeBack := l } := State.mm_ecc_same _ m _
    have ub : ∀ b, u.badSyms m b = (s.tickTo dt).badSyms m b := fun b => State.mm_badSyms _ m _ b rfl
    obtain ⟨hs, hp⟩ := u.writeBackDone_scrub m written a
    refine exec_next (exec_eccWriteBack s h) ⟨?_, ?_, ?_, ?_, fun b hb => ?_, ?_, ?_⟩ <;>
      simp only [State.settle_ecc, State.settle_badSyms]
    · exact (u.writeBackDone_frame m written a []).settle
    · rw [u.writeBackDone_writeBack m written a (by rw [hu]; exact hl), hu]
    · rw [u.writeBackDone_other]; exact State.mm_ecc_other _ m _
    · rw [u.writeBackDone_badSyms_same, ub]
    · rw [u.writeBackDone_badSyms_ne m written a b hb, ub]
    · rw [hs, hu]
    · rw [hp, hu]
  · exact exec_next (exec_eccWriteBack_nil s h) State.sameBut.refl.settle

end Sys2Proof.Machine
end

section
/-!
The source of the tick marks (R28, R29): why a mark made in place of a lost external one need not leave the source lost.
-/

namespace Sys2Proof.Machine

/-- Ticks run from SYNC_IN (source 1), and a waiting set of R28 holds a source that does not fit the field of two bits. No
sequence of commands leads here: what waits was read from that field. `Obligations.TickMarkBegins` speaks of every state. -/
def wideHeldSource : State :=
  ({ State.reset with tick := { TickSt.init with on := true, held := some (10000, 5) } }).put CLK_TICK_CFG_SRC 1

/-- The same 300 cycles after the mark that did not come. -/
def lateMark : State := wideHeldSource.tickTo 10300

/-- What MARK_TIMEOUT makes of it: 5 differs from 1, so the waiting set ends the loss; cut to the field it is 1 again. -/
theorem lateMark_source_stays :
    ((lateMark.srcLost true).tickMark 0).settle.tickSrc = 1 ∧ ((lateMark.srcLost true).tickMark 0).settle.tick.lost = false := by
  decide +kernel

theorem exec_lateMark : exec (.markTimeout 10300 0) wideHeldSource = done ((lateMark.srcLost true).tickMark 0) := by
  have due : (lateMark.markFree && lateMark.tickSrc ≠ 0 && !lateMark.tick.lost &&
      decide (lateMark.g CLK_TICK_CFG_PERIOD + 300 ≤ lateMark.tickAge)) = true := by decide +kernel
  change execMarkTimeout 10300 0 wideHeldSource = _
  unfold execMarkTimeout
  exact congrArg done (if_pos due)

/-- Refutes O5: its last clause says that MARK_TIMEOUT leaves the source lost where the number of the source is the same after
the mark, and at `wideHeldSource` the mark takes over a waiting source, which ends the loss, under the number of the old one. -/
theorem not_tickMarkBegins : ¬ Obligations.TickMarkBegins := by
  rintro ⟨-, -, -, -, -, -, h⟩
  obtain ⟨t, he, -, -, -, -, hsrc⟩ := h wideHeldSource 10300 0 (by decide +kernel) (by decide +kernel) (by decide +kernel)
    (by decide +kernel) (by decide +kernel)
  obtain rfl : ((lateMark.srcLost true).tickMark 0).settle = t := Host.Outcome.next.inj (exec_lateMark.symm.trans he)
  have was : lateMark.tickSrc = 1 := by decide +kernel
  obtain ⟨src, lost⟩ := lateMark_source_stays
  exact Bool.false_ne_true (lost.symm.trans (hsrc (src.trans was.symm)).1)

end Sys2Proof.Machine
end

section
/-!
A register write that sets write-pulse bits (R144, R149, R152), keyed registers among them: what is left of it is the register's
action on a state that reads as before, with a refused key counted.
-/

namespace Sys2Proof.Machine

variable (s : State)

/-- What does not depend on the state: register `a` has no handler of its own, takes no clamp and sets no written flag, and the bits of
`mask` lie beside its writable fields. -/
structure pulseRow (a mask : Nat) : Prop where
  plain : (a = 0x13 ∨ a = 0x20 ∨ a = 0x24 ∨ a = 0x25 ∨ a = 0x40 ∨ a = 0x67 ∨ (0x80 ≤ a ∧ a < 0x140) ∨
    (0x200 ≤ a ∧ a < 0x280 ∧ a % 16 = 0)) → False
  acc : a ≠ 0x23
  lt : mask < 2 ^ 32
  fields : pulseOk (layout a) mask = true
  apart : rowsApart (layout a)
  clamp : ∀ (t : State) lo v, t.clampVal a lo v = v
  note : ∀ t : State, t.noteWritten a = t

/-- The word that a row's pulse writes. -/
def State.pulseWord (s : State) (a mask : Nat) : Word := W (s.keepWord a ||| mask)

/-- What a write of a register finds before its fields: the unlock consumed, a refused key counted (R149, R152). -/
def State.keyTaken (s : State) (lk : Link) (a : Nat) : State :=
  if hasKeyed a && !(s.link lk).armed then (s.unarm lk).keyRefused else s.unarm lk

theorem State.keyTaken_word (lk : Link) (a b : Nat) (h : 0x23 ≠ b) : (s.keyTaken lk a).word b = s.word b := by
  unfold State.keyTaken
  split
  · exact State.put_word_ne _ _ _ _ h
  · rfl

theorem State.keyTaken_g (lk : Link) (a : Nat) (f : Fld) (h : 0x23 ≠ f.a) : (s.keyTaken lk a).g f = s.g f :=
  State.word_eq_of_g _ _ f (s.keyTaken_word lk a f.a h)

theorem State.keyTaken_sameBut (lk : Link) (a : Nat) (A : List Nat) (h : 0x23 ∈ A) : (s.unarm lk).sameBut (s.keyTaken lk a) A := by
  unfold State.keyTaken
  split
  · exact State.sameBut.refl.put _ _ h
  · exact State.sameBut.refl

/-- A program's writes that lie apart from the register come to nothing after its write (R442). -/
theorem State.progAgain_of_apart (a : Nat) (h : s.progApart a = true) : s.progAgain a = s := by
  unfold State.progApart at h
  unfold State.progAgain
  generalize s.cyc.prog = l at h
  induction l with
  | nil => rfl
  | cons e l ih =>
    simp only [List.all_cons, Bool.and_eq_true, Bool.not_eq_true'] at h
    rw [List.foldl_cons, if_neg (by simpa using h.1)]
    exact ih h.2

/-- A register without a handler of its own: the key, the fields, the action. -/
theorem State.rowWrite_acts (lk : Link) (a w : Nat) (h : s.hostBegin.reaches a = true)
    (hs : (a = 0x13 ∨ a = 0x20 ∨ a = 0x24 ∨ a = 0x25 ∨ a = 0x40 ∨ a = 0x67 ∨ (0x80 ≤ a ∧ a < 0x140) ∨
      (0x200 ≤ a ∧ a < 0x280 ∧ a % 16 = 0)) → False) :
    s.rowWrite lk a w = ((((s.hostBegin.keyTaken lk a).writeFields a (W w) (s.link lk).armed false).regAct lk a (W w).toNat
      (s.link lk)).hostStands a (W w) (s.link lk).armed).progAgain a := by
  rw [rowWrite_served s lk a w h (fun e => hs (by omega))]
  have ht : (s.hostBegin.unarm lk).reaches a = true := by
    rw [State.takes_unarm]; exact h
  unfold State.reaches at ht
  simp only [Bool.and_eq_true] at ht
  unfold State.writeReg State.keyTaken
  rw [if_neg (by simp only [Bool.or_eq_true, not_or]; exact ⟨by simp [ht.1.1.2], by simpa using ht.1.2⟩)]
  rw [if_neg (fun e => hs (by omega)), if_neg (fun e => hs (by omega)), if_neg (fun e => hs (by omega)),
    if_neg (by simp only [Bool.and_eq_true, decide_eq_true_eq]; exact fun e => hs (by omega)),
    if_neg (by simp only [Bool.and_eq_true, decide_eq_true_eq]; exact fun e => hs (by omega)), State.hostBegin_link]
  dsimp only
  rw [if_neg (fun e => hs (by omega)), if_neg (fun e => hs (by omega))]

/-- A row that sets pulse bits: only the register's action is left, on a state that reads as before. -/
theorem State.rowPulse_acts (lk : Link) (a mask : Nat) (h : s.hostBegin.reaches a = true) (p : pulseRow a mask) :
    ∃ v, (s.hostBegin.keyTaken lk a).reads v ∧
      s.rowPulse lk a mask = ((v.regAct lk a (s.hostBegin.pulseWord a mask).toNat (s.link lk)).hostStands a
        (s.hostBegin.pulseWord a mask) (s.link lk).armed).progAgain a := by
  refine ⟨_, ?_, s.rowWrite_acts lk a _ h p.plain⟩
  refine writeFields_reads _ a _ _ p.clamp p.note fun r hr => ?_
  have k := List.all_eq_true.1 p.fields r hr
  simp only [Bool.and_eq_true, decide_eq_true_eq] at k
  refine ⟨k.1, ?_⟩
  rw [State.keyTaken_word _ _ _ _ (Ne.symm p.acc)]
  have kw := keepWord_field s.hostBegin a mask p.lt p.fields p.apart r hr
  have k2 := k.2
  cases e : r.acc <;> (rw [e] at k2; simp_all)

variable {s} in
theorem State.reads.sameBut {t : State} {A : List Nat} (h : s.reads t) : s.sameBut t A := by
  exact ⟨by rw [h.eq], by rw [h.eq]; rfl, fun a _ _ => h.word a⟩

/-- A pulse's write is the register's action `f`, where that leaves the cycle's program writes alone. -/
theorem exec_rowPulse {c : Instr} {dt : Nat} {lk : Link} {a mask : Nat} {Q : State → Prop}
    (hx : exec c s = done ((s.tickTo dt).rowPulse lk a mask)) (p : pulseRow a mask)
    (h : (s.tickTo dt).hostBegin.reaches a = true)
    (hf : ∀ v : State, (v.regAct lk a ((s.tickTo dt).hostBegin.pulseWord a mask).toNat ((s.tickTo dt).link lk)).cyc.prog = v.cyc.prog)
    (q : ∀ v w key, ((s.tickTo dt).hostBegin.keyTaken lk a).reads v →
      Q ((v.regAct lk a ((s.tickTo dt).hostBegin.pulseWord a mask).toNat ((s.tickTo dt).link lk)).hostStands a w key).settle) :
    ∃ t, exec c s = .next t ∧ Q t := by
  obtain ⟨v, hv, he⟩ := (s.tickTo dt).rowPulse_acts lk a mask h p
  refine exec_next hx ?_
  rw [he, State.progAgain_of_apart]
  · exact q v _ _ hv
  · have kv : v.cyc.prog = (s.tickTo dt).hostBegin.cyc.prog := by
      rw [hv.eq]
      unfold State.keyTaken
      split <;> rfl
    unfold State.reaches at h
    simp only [Bool.and_eq_true] at h
    unfold State.progApart State.hostStands
    dsimp only
    rw [hf, kv]
    exact h.2

variable {s} in
/-- What a write leaves to the end of its cycle shows in no register and in nothing `sameBut` speaks of. -/
theorem State.sameBut.hostStands {t : State} {A : List Nat} (h : s.sameBut t A) (a : Nat) (w : Word) (key : Bool) :
    s.sameBut (t.hostStands a w key) A := h

theorem State.hostStands_g (a : Nat) (w : Word) (key : Bool) (f : Fld) : (s.hostStands a w key).g f = s.g f := rfl
theorem State.hostStands_word (a : Nat) (w : Word) (key : Bool) (b : Nat) : (s.hostStands a w key).word b = s.word b := rfl

theorem State.sameBut.trans {a b c : State} {A : List Nat} (h : a.sameBut b A) (k : b.sameBut c A) : a.sameBut c A :=
  ⟨k.1.trans h.1, k.2.1.trans h.2.1, fun x hx he => (k.2.2 x hx he).trans (h.2.2 x hx he)⟩

/-! ## Keys -/

theorem State.keyRefused_g : s.keyRefused.g DEV_ACCSTAT_KEY_REF = min (s.g DEV_ACCSTAT_KEY_REF + 1) 255 :=
  (State.put_g_same _ _ _ (by decide)).trans (Nat.mod_eq_of_lt (Nat.lt_succ_of_le (Nat.min_le_right _ _)))

theorem State.keyRefused_g_disj (f : Fld) (h : DEV_ACCSTAT_KEY_REF.a ≠ f.a ∨ 8 ≤ f.lo) : s.keyRefused.g f = s.g f :=
  State.put_g_disj _ _ _ _ (by decide) (h.imp_right .inl)

theorem vupd_self {α : Type} {k : Nat} (v : Vector α k) (i : Fin k) (f : α → α) (h : f v[i] = v[i]) : vupd v i f = v := by
  unfold vupd
  rw [h, Fin.getElem_fin, Vector.set_getElem_self]

theorem State.unarm_of_not_armed (lk : Link) (h : (s.link lk).armed = false) : s.unarm lk = s := by
  unfold State.unarm State.lnk
  rw [vupd_self]
  rw [← h]
  rfl

/-- DEV_ACCSTAT after the key of a register with a keyed field has been looked at, wherever its word then stays. -/
theorem State.keyCounted_of_word {t : State} {lk : Link} {a : Nat} (ha : hasKeyed a = true)
    (h : t.word 0x23 = (s.keyTaken lk a).word 0x23) : s.keyCounted t lk := by
  have hg (f : Fld) (hf : f.a = 0x23) : t.g f = (s.keyTaken lk a).g f := State.word_eq_of_g _ _ f (by rw [hf]; exact h)
  unfold State.keyCounted
  rw [hg _ rfl, hg _ rfl, hg _ rfl]
  unfold State.keyTaken
  cases c : (s.link lk).armed with
  | true => simp only [ha, Bool.not_true, Bool.and_false]; exact ⟨rfl, rfl, rfl⟩
  | false =>
    simp only [ha, Bool.not_false, Bool.and_self, if_true]
    exact ⟨State.keyRefused_g _, State.keyRefused_g_disj _ _ (.inr (by decide)), State.keyRefused_g_disj _ _ (.inr (by decide))⟩

end Sys2Proof.Machine
end

section
/-!
CLR_MAX and CLR_TOTAL (Table 1-7, R32).
-/

namespace Sys2Proof.Machine

variable (s : State)

/-- A pulse of CLK_TICK_STAT. -/
theorem pulseRow_tickStat (mask : Nat) (h : mask = 2 ^ 8 ∨ mask = 2 ^ 9) : pulseRow 0x1C9 mask where
  plain := by omega
  acc := by decide
  lt := by rcases h with rfl | rfl <;> decide
  fields := by rcases h with rfl | rfl <;> decide
  apart := by unfold rowsApart; decide
  clamp t lo v := by unfold State.clampVal; simp
  note t := by unfold State.noteWritten; simp

theorem State.pulseWord_tickStat (mask i : Nat) (h : mask = 2 ^ 8 ∨ mask = 2 ^ 9) (hi : i = 8 ∨ i = 9) :
    bit (s.pulseWord 0x1C9 mask).toNat i = bit mask i :=
  have p := pulseRow_tickStat mask h
  keepWord_bit s 0x1C9 mask i p.lt p.fields (by rcases hi with rfl | rfl <;> decide)

theorem State.keyTaken_tickStat (lk : Link) : s.keyTaken lk 0x1C9 = s.unarm lk := by
  unfold State.keyTaken
  rw [show hasKeyed 0x1C9 = false by decide]
  rfl

/-- The greatest finish times of the first `k` engines cleared; past the commit point they hold the tick's own (R32). -/
def State.clrMaxOf (s : State) (past : Bool) (k : Nat) : State :=
  (List.range k).foldl (fun (s : State) n => s.put (CLK_TICK_MAX_MAX n) (if past then s.tick.fins.getD n 0 else 0)) s

theorem State.clrMaxOf_succ (past : Bool) (k : Nat) : s.clrMaxOf past (k + 1) =
    (s.clrMaxOf past k).put (CLK_TICK_MAX_MAX k) (if past then (s.clrMaxOf past k).tick.fins.getD k 0 else 0) := by
  unfold State.clrMaxOf
  rw [List.range_succ, List.foldl_append]
  rfl

theorem State.clrMaxOf_tick (past : Bool) (k : Nat) : (s.clrMaxOf past k).tick = s.tick := by
  induction k with
  | zero => rfl
  | succ k ih => rw [State.clrMaxOf_succ]; exact ih

theorem State.clrMaxOf_prog (past : Bool) (k : Nat) : (s.clrMaxOf past k).cyc.prog = s.cyc.prog := by
  induction k with
  | zero => rfl
  | succ k ih => rw [State.clrMaxOf_succ]; exact ih

theorem State.clrMaxOf_sameBut (past : Bool) (A : List Nat) (k : Nat) (h : ∀ n, n < k → 0x1CC + n ∈ A) :
    s.sameBut (s.clrMaxOf past k) A := by
  induction k with
  | zero => exact State.sameBut.refl
  | succ k ih =>
    rw [State.clrMaxOf_succ]
    exact (ih fun n hn => h n (by omega)).put _ _ (h k (by omega))

theorem State.clrMaxOf_g (past : Bool) (k n : Nat) (h : n < k) :
    (s.clrMaxOf past k).g (CLK_TICK_MAX_MAX n) = if past then s.tick.fins.getD n 0 % 65536 else 0 := by
  induction k with
  | zero => omega
  | succ k ih =>
    rw [State.clrMaxOf_succ, State.clrMaxOf_tick]
    rcases Nat.lt_succ_iff_lt_or_eq.1 h with c | rfl
    · rw [State.put_g_ne _ _ _ _ (by simp; omega)]
      exact ih c
    · rw [State.put_g_same _ _ _ (by simp)]
      cases past <;> rfl

theorem State.tickClr_max : s.tickClr true false = s.clrMaxOf (s.tick.on && !s.tick.commitDue) 8 := rfl

theorem State.tickClr_total : s.tickClr false true =
    s.put CLK_TICK_LAST_OVR_TOTAL (if s.tick.on && !s.tick.commitDue then s.g CLK_TICK_STAT_OVERRUN else 0) := rfl

/-- What a pulse of CLK_TICK_STAT sets off. -/
theorem State.regAct_tickStat (v : State) (lk : Link) (mask : Nat) (h : mask = 2 ^ 8 ∨ mask = 2 ^ 9) (pre : LinkSt) :
    v.regAct lk 0x1C9 (s.pulseWord 0x1C9 mask).toNat pre = v.tickClr (bit mask 8) (bit mask 9) := by
  unfold State.regAct
  rw [if_pos rfl, s.pulseWord_tickStat mask 8 h (.inl rfl), s.pulseWord_tickStat mask 9 h (.inr rfl)]

theorem State.regAct_clrMax (v : State) (lk : Link) (pre : LinkSt) :
    v.regAct lk 0x1C9 (s.pulseWord 0x1C9 (2 ^ 8)).toNat pre = v.clrMaxOf (v.tick.on && !v.tick.commitDue) 8 := by
  rw [s.regAct_tickStat v lk _ (.inl rfl), ← v.tickClr_max]
  rfl

theorem State.regAct_clrTotal (v : State) (lk : Link) (pre : LinkSt) :
    v.regAct lk 0x1C9 (s.pulseWord 0x1C9 (2 ^ 9)).toNat pre =
      v.put CLK_TICK_LAST_OVR_TOTAL (if v.tick.on && !v.tick.commitDue then v.g CLK_TICK_STAT_OVERRUN else 0) := by
  rw [s.regAct_tickStat v lk _ (.inr rfl), ← v.tickClr_total]
  rfl

theorem State.reads_unarm_tick {u v : State} {lk : Link} (h : (u.unarm lk).reads v) : v.tick = u.tick := by rw [h.eq]; rfl

theorem exec_clrMax (dt : Nat) (lk : Link) : exec (.clrMax dt lk) s = done ((s.tickTo dt).rowPulse lk 0x1C9 (2 ^ 8)) := rfl
theorem exec_clrTotal (dt : Nat) (lk : Link) : exec (.clrTotal dt lk) s = done ((s.tickTo dt).rowPulse lk 0x1C9 (2 ^ 9)) := rfl

/-- CLR_TOTAL writes the field of the total alone. -/
theorem State.put_total_g (v f) (x : Nat) (h : CLK_TICK_LAST_OVR_TOTAL.a ≠ f.a ∨ f.lo + f.w ≤ 24) :
    (State.put v CLK_TICK_LAST_OVR_TOTAL x).g f = v.g f :=
  State.put_g_disj _ _ _ _ (by decide) (h.imp_right .inr)

theorem State.put_total_overrun (v : State) (past : Bool) :
    (v.put CLK_TICK_LAST_OVR_TOTAL (if past then v.g CLK_TICK_STAT_OVERRUN else 0)).g CLK_TICK_LAST_OVR_TOTAL =
      if past then v.g CLK_TICK_STAT_OVERRUN else 0 := by
  have one : v.g CLK_TICK_STAT_OVERRUN < 2 := v.g_lt CLK_TICK_STAT_OVERRUN
  rw [State.put_g_same _ _ _ (by decide)]
  refine Nat.mod_eq_of_lt (?_ : _ < 256)
  split <;> omega

/-- Settles O7: both commands are a pulse of CLK_TICK_STAT, whose action is `State.tickClr`. -/
theorem tickCountersClear : Obligations.TickCountersClear := by
  refine ⟨fun s dt lk h => ?_, fun s dt lk h => ?_⟩
  · refine exec_rowPulse s (exec_clrMax s dt lk) (pulseRow_tickStat _ (.inl rfl)) h (fun v => ?_) fun v w key hv => ?_
    · rw [State.regAct_clrMax]; exact v.clrMaxOf_prog _ 8
    · rw [State.keyTaken_tickStat] at hv
      rw [State.regAct_clrMax, State.reads_unarm_tick hv]
      refine ⟨?_, fun n => ?_⟩
      · refine ((hv.sameBut.trans (v.clrMaxOf_sameBut _ _ 8 fun n hn => ?_)).hostStands _ w key).settle
        simp only [List.mem_cons, List.not_mem_nil]
        omega
      · rw [State.settle_g' _ (by simp [evWord]; omega), State.hostStands_g, v.clrMaxOf_g _ 8 n n.isLt, State.reads_unarm_tick hv]
  · refine exec_rowPulse s (exec_clrTotal s dt lk) (pulseRow_tickStat _ (.inr rfl)) h (fun v => ?_) fun v w key hv => ?_
    · rw [State.regAct_clrTotal, State.put_cyc]
    · rw [State.keyTaken_tickStat] at hv
      rw [State.regAct_clrTotal]
      have hg (f : Fld) : v.g f = (s.tickTo dt).hostBegin.g f := hv.g f
      refine ⟨((hv.sameBut.put _ _ (List.mem_singleton.2 rfl)).hostStands _ w key).settle, ?_, ?_, ?_⟩
      · rw [State.settle_g' CLK_TICK_LAST_OVR_TOTAL, State.hostStands_g, State.put_total_overrun, hg, State.reads_unarm_tick hv]
      · rw [State.settle_g' CLK_TICK_LAST_FINISH, State.hostStands_g, State.put_total_g _ _ _ (.inr (by decide)), hg]
      · rw [State.settle_g' CLK_TICK_LAST_LATE, State.hostStands_g, State.put_total_g _ _ _ (.inr (by decide)), hg]

end Sys2Proof.Machine
end

section
/-!
Error injection and the clears of the memory registers (R38, R39, Table 1-11).
-/

namespace Sys2Proof.Machine

variable (s : State)

/-! ## Counters that are cleared -/

/-- What a field held at the cycle's beginning is remembered with the cycle. -/
theorem State.gWas_congr {t : State} (h : t.cyc = s.cyc) (f : Fld) : t.gWas f = s.gWas f := by
  unfold State.gWas State.atStart State.g State.word
  rw [h]

theorem State.clrCnt_word_ne (f : Fld) (b : Nat) (h : f.a ≠ b) : (s.clrCnt f).word b = s.word b := s.put_word_ne f _ b h

/-- A clear leaves the counts of its own cycle (R38). -/
theorem State.clrCnt_g_same (f : Fld) (h : f.lo + f.w ≤ 32) : (s.clrCnt f).g f = s.g f - s.gWas f :=
  (s.put_g_same f _ h).trans (Nat.mod_eq_of_lt (Nat.lt_of_le_of_lt (Nat.sub_le _ _) (s.g_lt f)))

/-- Two fields that share no bit. -/
def Fld.apart (f f' : Fld) : Prop := f.a ≠ f'.a ∨ f.lo + f.w ≤ f'.lo ∨ f'.lo + f'.w ≤ f.lo

theorem State.clrCnt_g_apart (f f' : Fld) (h : f.lo + f.w ≤ 32) (d : f.apart f') : (s.clrCnt f).g f' = s.g f' :=
  s.put_g_disj f f' _ h d

theorem State.clrCnt_gWas_apart (f f' : Fld) (h : f.lo + f.w ≤ 32) (d : f.apart f') : (s.clrCnt f).gWas f' = s.gWas f' :=
  (s.put f (s.g f - s.gWas f)).atStart.put_g_disj f f' 0 h d

/-- Counters cleared one after the other. -/
def State.clrCnts (s : State) (l : List Fld) : State := l.foldl State.clrCnt s

theorem State.clrCnts_g_apart (l : List Fld) (f : Fld) (h : ∀ x ∈ l, x.lo + x.w ≤ 32 ∧ x.apart f) :
    (s.clrCnts l).g f = s.g f ∧ (s.clrCnts l).gWas f = s.gWas f := by
  induction l generalizing s with
  | nil => exact ⟨rfl, rfl⟩
  | cons x l ih =>
    obtain ⟨h32, ha⟩ := h x (List.mem_cons_self ..)
    obtain ⟨hg, hw⟩ := ih (s.clrCnt x) fun y hy => h y (List.mem_cons_of_mem _ hy)
    exact ⟨hg.trans (s.clrCnt_g_apart x f h32 ha), hw.trans (s.clrCnt_gWas_apart x f h32 ha)⟩

/-- Of counters that lie apart each is cleared by itself. -/
theorem State.clrCnts_g (l : List Fld) (h : ∀ x ∈ l, x.lo + x.w ≤ 32) (hp : l.Pairwise Fld.apart) :
    ∀ f ∈ l, (s.clrCnts l).g f = s.g f - s.gWas f := by
  induction l generalizing s with
  | nil => exact fun _ hf => absurd hf List.not_mem_nil
  | cons x l ih =>
    have hx := h x (List.mem_cons_self ..)
    obtain ⟨hxl, hpl⟩ := List.pairwise_cons.1 hp
    intro f hf
    rcases List.mem_cons.1 hf with rfl | hf
    · exact ((s.clrCnt f).clrCnts_g_apart l f fun y hy =>
        ⟨h y (List.mem_cons_of_mem _ hy), (hxl y hy).imp Ne.symm Or.symm⟩).1.trans (s.clrCnt_g_same f hx)
    · rw [← s.clrCnt_g_apart x f hx (hxl f hf), ← s.clrCnt_gWas_apart x f hx (hxl f hf)]
      exact ih (s.clrCnt x) (fun y hy => h y (List.mem_cons_of_mem _ hy)) hpl f hf

theorem State.clrCnts_sameBut (l : List Fld) (A : List Nat) (h : ∀ x ∈ l, x.a ∈ A) : s.sameBut (s.clrCnts l) A := by
  induction l generalizing s with
  | nil => exact State.sameBut.refl
  | cons x l ih =>
    have put : s.sameBut (s.put x (s.g x - s.gWas x)) A := State.sameBut.refl.put _ _ (h x (List.mem_cons_self ..))
    have clr : s.sameBut (s.clrCnt x) A := put
    exact clr.trans (ih _ fun y hy => h y (List.mem_cons_of_mem _ hy))

theorem State.clrCnts_prog (l : List Fld) : (s.clrCnts l).cyc.prog = s.cyc.prog := by
  induction l generalizing s with
  | nil => rfl
  | cons x l ih => exact ih (s.clrCnt x)

/-! ## MEM_CLR_CNT and MEM_CLR_FIRST -/

/-- The error counters and DROP (Table 1-13). -/
def memCounters : List Fld := [cntFld .motion 0, cntFld .mgmt 0, cntFld .motion 1, cntFld .mgmt 1, DEV_MEM_STAT_DROP]

theorem memCounters_fit : ∀ x ∈ memCounters, x.lo + x.w ≤ 32 := by decide

theorem memCounters_apart : memCounters.Pairwise Fld.apart := by unfold Fld.apart; decide

theorem State.memCntClr_eq : s.memCntClr = s.clrCnts memCounters := rfl

/-- A pulse of DEV_MEM_CFG. -/
theorem pulseRow_memCfg (mask : Nat) (h : mask = 2 ^ 16 ∨ mask = 2 ^ 17) : pulseRow 0x62 mask where
  plain := by omega
  acc := by decide
  lt := by rcases h with rfl | rfl <;> decide
  fields := by rcases h with rfl | rfl <;> decide
  apart := by unfold rowsApart; decide
  clamp t lo v := by unfold State.clampVal; simp
  note t := by unfold State.noteWritten; simp

theorem State.pulseWord_memCfg (mask i : Nat) (h : mask = 2 ^ 16 ∨ mask = 2 ^ 17) (hi : i = 16 ∨ i = 17) :
    bit (s.pulseWord 0x62 mask).toNat i = bit mask i :=
  have p := pulseRow_memCfg mask h
  keepWord_bit s 0x62 mask i p.lt p.fields (by rcases hi with rfl | rfl <;> decide)

/-- SCRUB_ON follows SCRUB_EN at every write of DEV_MEM_CFG. -/
def State.scrubFollows (s : State) : State := s.put DEV_MEM_STAT_SCRUB_ON (s.g DEV_MEM_CFG_SCRUB_EN)

theorem State.scrubFollows_on : s.scrubFollows.g DEV_MEM_STAT_SCRUB_ON = s.g DEV_MEM_CFG_SCRUB_EN :=
  (s.put_g_same _ _ (by decide)).trans (Nat.mod_eq_of_lt (s.g_lt DEV_MEM_CFG_SCRUB_EN))

theorem State.scrubFollows_g (f : Fld) (h : DEV_MEM_STAT_SCRUB_ON.apart f) : s.scrubFollows.g f = s.g f :=
  s.put_g_disj _ _ _ (by decide) h

theorem State.scrubFollows_cyc : s.scrubFollows.cyc = s.cyc := s.put_cyc _ _

theorem State.scrubFollows_sameBut (A : List Nat) (h : 0x63 ∈ A) : s.sameBut s.scrubFollows A := State.sameBut.refl.put _ _ h

theorem State.scrubFollows_word (b : Nat) (h : 0x63 ≠ b) : s.scrubFollows.word b = s.word b := s.put_word_ne _ _ b h

theorem State.regAct_memCfg (v : State) (lk : Link) (mask : Nat) (h : mask = 2 ^ 16 ∨ mask = 2 ^ 17) (pre : LinkSt) :
    v.regAct lk 0x62 (s.pulseWord 0x62 mask).toNat pre =
      if mask = 2 ^ 16 then v.scrubFollows.memCntClr else v.scrubFollows.memFirstClr := by
  unfold State.regAct State.kaAct
  rw [if_neg (by decide), if_pos (by decide)]
  dsimp only
  rw [s.pulseWord_memCfg mask 16 h (.inl rfl), s.pulseWord_memCfg mask 17 h (.inr rfl)]
  rcases h with rfl | rfl <;> rfl

theorem exec_memClrCnt (dt : Nat) (lk : Link) : exec (.memClrCnt dt lk) s = done ((s.tickTo dt).rowPulse lk 0x62 (2 ^ 16)) := rfl
theorem exec_memClrFirst (dt : Nat) (lk : Link) : exec (.memClrFirst dt lk) s = done ((s.tickTo dt).rowPulse lk 0x62 (2 ^ 17)) := rfl

/-- What either clear finds: a state that reads as before but for a refused key, and the counts at the cycle's beginning. -/
theorem State.reads_keyTaken {u v : State} {lk : Link} {a : Nat} (h : (u.keyTaken lk a).reads v) :
    v.cyc = u.cyc ∧ (∀ f : Fld, 0x23 ≠ f.a → v.g f = u.g f) := by
  refine ⟨?_, fun f hf => (h.g f).trans (u.keyTaken_g lk a f hf)⟩
  rw [h.eq]
  unfold State.keyTaken
  split <;> rfl

theorem State.clrCnts_word_ne (l : List Fld) (b : Nat) (h : ∀ x ∈ l, x.a ≠ b) : (s.clrCnts l).word b = s.word b := by
  induction l generalizing s with
  | nil => rfl
  | cons x l ih =>
    exact (ih (s.clrCnt x) fun y hy => h y (List.mem_cons_of_mem _ hy)).trans (s.clrCnt_word_ne x b (h x (List.mem_cons_self ..)))

/-- A field of DEV_MEM_STAT that no clear concerns. -/
theorem memStat_apart (f : Fld) (h : f = DEV_MEM_STAT_PASS_M ∨ f = DEV_MEM_STAT_PASS_G) :
    DEV_MEM_STAT_SCRUB_ON.apart f ∧ ∀ x ∈ memCounters, x.lo + x.w ≤ 32 ∧ x.apart f := by
  unfold Fld.apart
  rcases h with rfl | rfl <;> decide

theorem memClrCnt_clears (dt : Nat) (lk : Link) (h : (s.tickTo dt).hostBegin.reaches 0x62 = true) :
    let u := (s.tickTo dt).hostBegin
    ∃ t, Machine.exec (.memClrCnt dt lk) s = .next t ∧
      (u.unarm lk).sameBut t [0x23, 0x63, 0x64, 0x65] ∧ u.keyCounted t lk ∧ (∀ f ∈ memCounters, t.g f = u.g f - u.gWas f) ∧
      t.g DEV_MEM_STAT_PASS_M = u.g DEV_MEM_STAT_PASS_M ∧ t.g DEV_MEM_STAT_PASS_G = u.g DEV_MEM_STAT_PASS_G ∧
      t.g DEV_MEM_STAT_SCRUB_ON = u.g DEV_MEM_CFG_SCRUB_EN := by
  intro u
  have act (v : State) (pre : LinkSt) : v.regAct lk 0x62 (u.pulseWord 0x62 (2 ^ 16)).toNat pre = v.scrubFollows.clrCnts memCounters :=
    (u.regAct_memCfg v lk _ (.inl rfl) pre).trans (if_pos rfl)
  refine exec_rowPulse s (exec_memClrCnt s dt lk) (pulseRow_memCfg _ (.inl rfl)) h (fun v => ?_) fun v w key hv => ?_
  · rw [act, State.clrCnts_prog, State.scrubFollows_cyc]
  · rw [act]
    obtain ⟨hc, hg⟩ := State.reads_keyTaken hv
    have was (f : Fld) : v.scrubFollows.gWas f = u.gWas f := u.gWas_congr (v.scrubFollows_cyc.trans hc) f
    refine ⟨?_, ?_, fun f hf => ?_, ?_, ?_, ?_⟩
    · exact (((((u.keyTaken_sameBut lk _ _ (by decide)).trans hv.sameBut).trans (v.scrubFollows_sameBut _ (by decide))).trans
        (v.scrubFollows.clrCnts_sameBut _ _ (by decide))).hostStands _ w key).settle
    · refine u.keyCounted_of_word (a := 0x62) (by decide) ?_
      rw [State.settle_word _ _ (by decide), State.hostStands_word, State.clrCnts_word_ne _ _ _ (by decide),
        State.scrubFollows_word _ _ (by decide)]
      exact hv.word _
    · have lo : 0x23 ≠ f.a ∧ evWord f.a = false ∧ DEV_MEM_STAT_SCRUB_ON.apart f := by
        unfold Fld.apart; revert f; decide
      rw [State.settle_g _ _ lo.2.1, State.hostStands_g, State.clrCnts_g _ _ memCounters_fit memCounters_apart f hf, was,
        State.scrubFollows_g _ _ lo.2.2, hg f lo.1]
    · obtain ⟨a, b⟩ := memStat_apart _ (.inl rfl)
      rw [State.settle_g' DEV_MEM_STAT_PASS_M, State.hostStands_g, (State.clrCnts_g_apart _ _ _ b).1, State.scrubFollows_g _ _ a, hg _ (by decide)]
    · obtain ⟨a, b⟩ := memStat_apart _ (.inr rfl)
      rw [State.settle_g' DEV_MEM_STAT_PASS_G, State.hostStands_g, (State.clrCnts_g_apart _ _ _ b).1, State.scrubFollows_g _ _ a, hg _ (by decide)]
    · have b : ∀ x ∈ memCounters, x.lo + x.w ≤ 32 ∧ x.apart DEV_MEM_STAT_SCRUB_ON := by unfold Fld.apart; decide
      rw [State.settle_g' DEV_MEM_STAT_SCRUB_ON, State.hostStands_g, (State.clrCnts_g_apart _ _ _ b).1, State.scrubFollows_on, hg _ (by decide)]

theorem State.memFirstClr_cyc : s.memFirstClr.cyc = s.cyc := rfl

theorem State.memFirstClr_g (f : Fld) (h : 0x66 ≠ f.a) : s.memFirstClr.g f = s.g f :=
  State.word_eq_of_g _ _ f (s.setWord_word_ne 0x66 f.a _ h)

theorem memClrFirst_clears (dt : Nat) (lk : Link) (h : (s.tickTo dt).hostBegin.reaches 0x62 = true) :
    let u := (s.tickTo dt).hostBegin
    ∃ t, Machine.exec (.memClrFirst dt lk) s = .next t ∧
      (u.unarm lk).sameBut t [0x23, 0x63, 0x66] ∧ u.keyCounted t lk ∧ t.word 0x66 = u.cyc.err.getD 0 ∧
      t.g DEV_MEM_STAT_DROP = u.g DEV_MEM_STAT_DROP ∧ t.g DEV_MEM_STAT_PASS_M = u.g DEV_MEM_STAT_PASS_M ∧
      t.g DEV_MEM_STAT_PASS_G = u.g DEV_MEM_STAT_PASS_G ∧ t.g DEV_MEM_STAT_SCRUB_ON = u.g DEV_MEM_CFG_SCRUB_EN := by
  intro u
  have act (v : State) (pre : LinkSt) : v.regAct lk 0x62 (u.pulseWord 0x62 (2 ^ 17)).toNat pre = v.scrubFollows.memFirstClr :=
    (u.regAct_memCfg v lk _ (.inr rfl) pre).trans (if_neg (by decide))
  refine exec_rowPulse s (exec_memClrFirst s dt lk) (pulseRow_memCfg _ (.inr rfl)) h (fun v => ?_) fun v w key hv => ?_
  · rw [act, State.memFirstClr_cyc, State.scrubFollows_cyc]
  · rw [act]
    obtain ⟨hc, hg⟩ := State.reads_keyTaken hv
    have stat (f : Fld) (hf : f.a = 0x63) (ha : DEV_MEM_STAT_SCRUB_ON.apart f) :
        (v.scrubFollows.memFirstClr.hostStands 0x62 w key).settle.g f = u.g f := by
      rw [State.settle_g _ _ (by rw [hf]; decide), State.hostStands_g, State.memFirstClr_g _ _ (by rw [hf]; decide),
        State.scrubFollows_g _ _ ha, hg _ (by rw [hf]; decide)]
    refine ⟨?_, ?_, ?_, stat _ rfl (by unfold Fld.apart; decide), stat _ rfl (by unfold Fld.apart; decide),
      stat _ rfl (by unfold Fld.apart; decide), ?_⟩
    · exact (((((u.keyTaken_sameBut lk _ _ (by decide)).trans hv.sameBut).trans (v.scrubFollows_sameBut _ (by decide))).setWord
        0x66 _ (by decide)).hostStands _ w key).settle
    · refine u.keyCounted_of_word (a := 0x62) (by decide) ?_
      rw [State.settle_word _ _ (by decide), State.hostStands_word]
      refine (v.scrubFollows.setWord_word_ne _ _ _ (by decide)).trans ?_
      rw [State.scrubFollows_word _ _ (by decide)]
      exact hv.word _
    · rw [State.settle_word _ _ (by decide), State.hostStands_word]
      refine (v.scrubFollows.setWord_word_same _ _).trans ?_
      rw [State.scrubFollows_cyc, hc]
    · rw [State.settle_g' DEV_MEM_STAT_SCRUB_ON, State.hostStands_g, State.memFirstClr_g _ _ (by decide), State.scrubFollows_on,
        hg _ (by decide)]

/-! ## MEM_INJECT -/

/-- `t` is `s` with another register file. -/
def State.regsOnly (s t : State) : Prop := { s with regs := t.regs } = t

theorem State.regsOnly.refl {s : State} : s.regsOnly s := rfl

theorem State.regsOnly.put {s t : State} (h : s.regsOnly t) (f : Fld) (v : Nat) : s.regsOnly (t.put f v) := by
  obtain ⟨r, e⟩ : ∃ r, t.put f v = { t with regs := r } := ⟨_, rfl⟩
  unfold State.regsOnly at h ⊢
  rw [e, ← h]

/-- The fields of a keyed write of DEV_MEM_INJ. -/
theorem State.writeFields_inj (w : Word) : s.writeFields 0x67 w true false =
    (((((s.put DEV_MEM_INJ_ADDR (bits w.toNat 0 15)).put DEV_MEM_INJ_MEM (bits w.toNat 15 1)).put DEV_MEM_INJ_SYM0
      (bits w.toNat 16 5)).put DEV_MEM_INJ_SYM1 (bits w.toNat 21 5)).put DEV_MEM_INJ_DOUBLE (bits w.toNat 26 1)).put
      DEV_MEM_INJ_ARM (bits w.toNat 27 1) := by
  have rows : layout 0x67 = [⟨0, 15, .rwk, 0⟩, ⟨15, 1, .rwk, 0⟩, ⟨16, 5, .rwk, 0⟩, ⟨21, 5, .rwk, 0⟩, ⟨26, 1, .rwk, 0⟩,
    ⟨27, 1, .rwk, 0⟩] := by decide
  have note (t : State) : t.noteWritten 0x67 = t := by unfold State.noteWritten; simp
  have clamp (t : State) (lo v : Nat) : t.clampVal 0x67 lo v = v := by unfold State.clampVal; simp
  unfold State.writeFields
  rw [rows, if_neg (by decide), note]
  simp only [List.foldl_cons, List.foldl_nil, if_true, State.setField, clamp]
  rfl

/-- DEV_MEM_INJ after an injection: ARM reads 0 again. -/
def State.injWritten (s : State) (w : Word) : State := (s.writeFields 0x67 w true false).put DEV_MEM_INJ_ARM 0

theorem State.injWritten_sameBut (w : Word) (A : List Nat) (h : 0x67 ∈ A) : s.sameBut (s.injWritten w) A := by
  unfold State.injWritten
  rw [State.writeFields_inj]
  exact ((((((State.sameBut.refl.put _ _ h).put _ _ h).put _ _ h).put _ _ h).put _ _ h).put _ _ h).put _ _ h

theorem State.injWritten_arm (w : Word) : (s.injWritten w).g DEV_MEM_INJ_ARM = 0 := State.put_g_same _ _ _ (by decide)

theorem State.injWritten_addr (w : Word) : (s.injWritten w).g DEV_MEM_INJ_ADDR = bits w.toNat 0 15 := by
  have other (t : State) (f : Fld) (v : Nat) (h : f.lo + f.w ≤ 32) (l : 15 ≤ f.lo) : (t.put f v).g DEV_MEM_INJ_ADDR = t.g DEV_MEM_INJ_ADDR :=
    t.put_g_disj f _ v h (.inr (.inr l))
  unfold State.injWritten
  rw [State.writeFields_inj, other _ DEV_MEM_INJ_ARM _ (by decide) (by decide), other _ DEV_MEM_INJ_ARM _ (by decide) (by decide),
    other _ DEV_MEM_INJ_DOUBLE _ (by decide) (by decide), other _ DEV_MEM_INJ_SYM1 _ (by decide) (by decide),
    other _ DEV_MEM_INJ_SYM0 _ (by decide) (by decide), other _ DEV_MEM_INJ_MEM _ (by decide) (by decide),
    State.put_g_same _ _ _ (by decide)]
  exact Nat.mod_eq_of_lt (bits_lt _ _ _)

theorem State.injWritten_regsOnly (w : Word) : s.regsOnly (s.injWritten w) := by
  unfold State.injWritten
  rw [State.writeFields_inj]
  exact ((((((State.regsOnly.refl.put _ _).put _ _).put _ _).put _ _).put _ _).put _ _).put _ _

theorem State.regsOnly.ecc {t : State} (h : s.regsOnly t) : t.ecc = s.ecc := by rw [← h]

theorem State.regsOnly.memUp {t : State} (h : s.regsOnly t) (m : Mem) : t.memUp m = s.memUp m := by
  rw [← h]
  cases m <;> rfl

/-- The memory that a word of DEV_MEM_INJ names. -/
def injMem (w : Nat) : Mem := if bit w 15 then .mgmt else .motion

/-- The symbols that it inverts. -/
def injSyms (w : Nat) : Nat := 2 ^ bits w 16 5 + if bit w 26 && bits w 21 5 != bits w 16 5 then 2 ^ bits w 21 5 else 0

theorem State.injectWord_eq (w : Nat) : s.injectWord w =
    s.setBad (injMem w) (bits w 0 15) (s.badSyms (injMem w) (bits w 0 15) ^^^ injSyms w) := rfl

theorem State.injectWord_g (w : Nat) (f : Fld) : (s.injectWord w).g f = s.g f := rfl

theorem State.injWrite_eq (w : Word) (h27 : bit w.toNat 27 = true) (hok : injOk w.toNat = true) (hup : s.memUp (injMem w.toNat) = true) :
    s.injWrite w = (s.injWritten w).injectWord w.toNat := by
  unfold State.injWrite
  rw [if_pos h27, if_pos hok]
  exact if_pos (((s.injWritten_regsOnly w).memUp _ _).trans hup)

theorem exec_memInject (dt : Nat) (lk : Link) (data : Word) :
    exec (.memInject dt lk data) s = done ((s.tickTo dt).rowWrite lk 0x67 data.toNat) := rfl

/-- A write of DEV_MEM_INJ: refused and counted without the unlock, `State.injWrite` with it. -/
theorem State.rowWrite_inj (lk : Link) (data : Word) (h : s.hostBegin.reaches 0x67 = true) :
    s.rowWrite lk 0x67 data.toNat =
      if (s.hostBegin.link lk).armed then (s.hostBegin.unarm lk).injWrite data else (s.hostBegin.unarm lk).keyRefused := by
  rw [rowWrite_served s lk 0x67 _ h (by decide), State.hostBegin_link]
  have ht : (s.hostBegin.unarm lk).reaches 0x67 = true := h
  have hw : W data.toNat = data := BitVec.eq_of_toNat_eq (W_toNat _ data.isLt)
  have hk : hasKeyed 0x67 = true := by decide
  unfold State.reaches at ht
  simp only [Bool.and_eq_true] at ht
  unfold State.writeReg
  rw [if_neg (by simp only [Bool.or_eq_true, not_or]; exact ⟨by simp [ht.1.1.2], by simpa using ht.1.2⟩), if_neg (by decide),
    if_neg (by decide), if_neg (by decide), if_neg (by decide), if_neg (by decide), hk, hw]
  dsimp only
  rw [if_neg (by decide : ¬ 0x67 = 0x40), if_pos rfl]
  cases (s.link lk).armed with
  | true => rw [if_pos rfl, if_pos rfl, if_neg (by decide)]
  | false => rw [if_neg Bool.false_ne_true, if_neg Bool.false_ne_true, if_pos (by decide)]

/-- The same memories on both sides. -/
theorem State.sameBut.eccs {s t : State} {A : List Nat} (h : s.sameBut t A) (e : Vector EccSt 2) :
    ({ s with ecc := e }).sameBut { t with ecc := e } A := by
  obtain ⟨hn, hr, hw⟩ := h
  exact ⟨hn, congrArg (fun x : State => { x with ecc := e }) hr, hw⟩

theorem State.setBad_eccs (m : Mem) (a x : Nat) : s.setBad m a x = { s with ecc := (s.setBad m a x).ecc } := rfl

/-- An injection changes the memory it names, and DEV_MEM_INJ. -/
theorem State.inject_sameBut (w : Word) (A : List Nat) (h : 0x67 ∈ A) :
    ({ s with ecc := ((s.injWritten w).injectWord w.toNat).settle.ecc }).sameBut ((s.injWritten w).injectWord w.toNat).settle A := by
  have same := s.injWritten_sameBut w A h
  rw [State.settle_ecc, State.injectWord_eq]
  generalize s.injWritten w = t at same
  exact (same.eccs _).settle

/-- Settles O3: the injection is `State.injWrite`, the two clears are pulses of DEV_MEM_CFG. -/
theorem memoryRegisterCommands : Obligations.MemoryRegisterCommands := by
  refine ⟨fun s dt lk data h armed h27 hok hup => ?_, fun s dt lk data h armed => ?_, fun s dt lk h => memClrCnt_clears s dt lk h,
    fun s dt lk h => memClrFirst_clears s dt lk h⟩
  · refine exec_next (exec_memInject s dt lk data) ?_
    rw [State.rowWrite_inj _ lk data h, if_pos armed, State.injWrite_eq ((s.tickTo dt).hostBegin.unarm lk) data h27 hok hup]
    have ecc := State.regsOnly.ecc _ (((s.tickTo dt).hostBegin.unarm lk).injWritten_regsOnly data)
    refine ⟨State.inject_sameBut _ data _ (List.mem_singleton.2 rfl), ?_, ?_, ?_, ?_⟩
    · rw [State.settle_g' DEV_MEM_INJ_ARM, State.injectWord_g, State.injWritten_arm]
    · rw [State.settle_g' DEV_MEM_INJ_ADDR, State.injectWord_g, State.injWritten_addr]
    · rw [State.settle_badSyms]
      refine (State.setBad_badSyms_same _ _ _ _).trans ?_
      unfold State.badSyms
      rw [ecc]
      rfl
    · rw [State.settle_ecc]
      refine (State.mm_ecc_other _ _ _).trans ?_
      rw [ecc]
      rfl
  · refine exec_next (exec_memInject s dt lk data) ?_
    rw [State.rowWrite_inj _ lk data h, if_neg (by rw [armed]; exact Bool.false_ne_true), State.unarm_of_not_armed _ _ armed]
    refine ⟨(State.sameBut.refl.put _ _ (List.mem_singleton.2 rfl)).settle, ?_⟩
    rw [State.settle_g' DEV_ACCSTAT_KEY_REF, State.keyRefused_g]

end Sys2Proof.Machine
end

section
/-!
The arbiter's window (R41 to R43) and CLR_MAXWAIT (R46).
-/

namespace Sys2Proof.Machine

/-! ## Round-robin -/

/-- A round-robin choice is one of those who ask. -/
theorem roundRobin_some {k last q : Nat} {req : Nat → Bool} (hk : 0 < k) (h : roundRobin k last req = some q) : q < k ∧ req q = true := by
  obtain ⟨i, -, rfl⟩ := List.mem_map.1 (List.mem_of_find?_eq_some h)
  exact ⟨Nat.mod_lt _ hk, List.find?_some h⟩

/-- Where one asks, one is chosen. -/
theorem roundRobin_of_ask {k i : Nat} (last : Nat) {req : Nat → Bool} (hi : i < k) (h : req i = true) :
    ∃ q, roundRobin k last req = some q ∧ q < k ∧ req q = true := by
  have hk : 0 < k := by omega
  cases c : roundRobin k last req with
  | some q => exact ⟨q, rfl, roundRobin_some hk c⟩
  | none =>
    have all := List.find?_eq_none.1 c ((last + 1 + (i + k * (last + 1) - (last + 1)) % k) % k)
      (List.mem_map.2 ⟨_, List.mem_range.2 (Nat.mod_lt _ hk), rfl⟩)
    have e : (last + 1 + (i + k * (last + 1) - (last + 1)) % k) % k = i := by
      have le : last + 1 ≤ k * (last + 1) := Nat.le_mul_of_pos_left _ hk
      rw [Nat.add_mod_mod, show last + 1 + (i + k * (last + 1) - (last + 1)) = i + k * (last + 1) by omega, Nat.add_mul_mod_self_left,
        Nat.mod_eq_of_lt hi]
    rw [e] at all
    exact absurd h all

/-- Where all ask, the next in order is chosen. -/
theorem roundRobin_of_all (k last : Nat) {req : Nat → Bool} (hk : 0 < k) (h : ∀ i, i < k → req i = true) :
    roundRobin k last req = some ((last + 1) % k) := by
  obtain ⟨n, rfl⟩ : ∃ n, k = n + 1 := ⟨k - 1, by omega⟩
  unfold roundRobin
  rw [List.range_succ_eq_map, List.map_cons, List.find?_cons_of_pos (h _ (Nat.mod_lt _ hk))]

/-! ## One cycle's grant (R41 to R43) -/

/-- Requester `j` of the window asks: engines 0 to 7, port users from 8. -/
def asks (act sp j : Nat) : Bool := if j < 8 then bit act j else bit sp (j - 8)

/-- The device arbiter's requester that `j` belongs to: a station or the port. -/
def arbClass (j : Nat) : Nat := if j < 4 then 0 else if j < 8 then 1 else 2

theorem exists_bit {x k : Nat} (h : x % 2 ^ k ≠ 0) : ∃ i, i < k ∧ bit x i = true := by
  obtain ⟨i, hi⟩ := Nat.exists_testBit_of_ne_zero h
  rw [Nat.testBit_mod_two_pow] at hi
  simp only [Bool.and_eq_true, decide_eq_true_eq] at hi
  refine ⟨i, hi.1, ?_⟩
  rw [← hi.2, Nat.testBit_eq_decide_div_mod_eq]
  rfl

theorem bit_div (x k i : Nat) : bit (x / 2 ^ k) i = bit x (k + i) := by
  unfold bit
  rw [Nat.div_div_eq_div_mul, ← Nat.pow_add]

/-- Within its class a request is some member's. -/
theorem devReq_member {act sp q : Nat} (ha : act < 256) (hs : sp < 8) (hq : q < 3) (h : devReq act sp q = true) :
    if q < 2 then ∃ i, i < 4 ∧ bit act (4 * q + i) = true else ∃ i, i < 3 ∧ bit sp i = true := by
  unfold devReq at h
  have cases3 : q = 0 ∨ q = 1 ∨ q = 2 := by omega
  rcases cases3 with rfl | rfl | rfl
  · obtain ⟨i, hi, hb⟩ := exists_bit (x := act) (k := 4) (by simpa using h)
    exact ⟨i, hi, by simpa using hb⟩
  · obtain ⟨i, hi, hb⟩ := exists_bit (x := act / 2 ^ 4) (k := 4) (by
      rw [Nat.mod_eq_of_lt (by omega)]
      simpa using h)
    exact ⟨i, hi, (bit_div act 4 i).symm.trans hb⟩
  · obtain ⟨i, hi, hb⟩ := exists_bit (x := sp) (k := 3) (by
      rw [Nat.mod_eq_of_lt (by omega : sp < 2 ^ 3)]
      simpa using h)
    exact ⟨i, hi, hb⟩

/-- Who is granted where class `q` is chosen. -/
def arbWho (b : ArbSt) (act sp q : Nat) : Nat :=
  let inner := if q < 2 then roundRobin 4 (b.rr.getD q 0) fun i => bit act (4 * q + i)
    else roundRobin 3 (b.rr.getD 2 0) fun i => bit sp i
  if q < 2 then 4 * q + inner.getD 0 else 8 + inner.getD 0

/-- A class that asks has a member that asks, and its own round-robin names one. -/
theorem arbWho_asks (b : ArbSt) {act sp q : Nat} (ha : act < 256) (hs : sp < 8) (hq : q < 3) (h : devReq act sp q = true) :
    arbWho b act sp q < 11 ∧ asks act sp (arbWho b act sp q) = true ∧ arbClass (arbWho b act sp q) = q := by
  have m := devReq_member ha hs hq h
  unfold arbWho asks arbClass
  by_cases c : q < 2
  · rw [if_pos c] at m
    obtain ⟨i, hi, hb⟩ := m
    obtain ⟨r, hr, hr4, hrb⟩ := roundRobin_of_ask (b.rr.getD q 0) (req := fun i => bit act (4 * q + i)) hi hb
    simp only [c, if_true, hr, Option.getD_some]
    refine ⟨by omega, ?_, ?_⟩
    · rw [if_pos (by omega)]; exact hrb
    · split
      · omega
      · rw [if_pos (by omega)]; omega
  · rw [if_neg c] at m
    obtain ⟨i, hi, hb⟩ := m
    obtain ⟨r, hr, hr3, hrb⟩ := roundRobin_of_ask (b.rr.getD 2 0) (req := fun i => bit sp i) hi hb
    simp only [c, if_false, hr, Option.getD_some]
    refine ⟨by omega, ?_, ?_⟩
    · rw [if_neg (by omega), Nat.add_sub_cancel_left]; exact hrb
    · rw [if_neg (by omega), if_neg (by omega)]; omega

/-- The device arbiter chooses a class that asks, and grants nothing yet. -/
theorem ArbSt.choose_some {b c : ArbSt} {strict : Bool} {req : Nat → Bool} {q : Nat} (h : b.choose strict req = (c, some q)) :
    q < 3 ∧ req q = true := by
  unfold ArbSt.choose at h
  cases strict with
  | true => exact roundRobin_some (by decide) (Prod.mk.inj h).2
  | false =>
    have both {l : Nat} {g : Nat → Bool} (k : (roundRobin 3 l fun q => req q && g q) = some q) : q < 3 ∧ req q = true := by
      obtain ⟨hq, hr⟩ := roundRobin_some (by decide) k
      exact ⟨hq, (Bool.and_eq_true _ _ ▸ hr).1⟩
    simp only [Bool.false_eq_true, if_false] at h
    split at h
    · next k => 
      obtain ⟨-, rfl⟩ := Prod.mk.inj h |>.imp id Option.some.inj
      exact both k
    · exact both (Prod.mk.inj h).2

theorem ArbSt.choose_keeps (b : ArbSt) (strict : Bool) (req : Nat → Bool) :
    (b.choose strict req).1.grants = b.grants ∧ (b.choose strict req).1.lastLink = b.lastLink := by
  unfold ArbSt.choose
  cases strict with
  | true => exact ⟨rfl, rfl⟩
  | false =>
    simp only [Bool.false_eq_true, if_false]
    split <;> exact ⟨rfl, rfl⟩

/-- What one cycle does: nothing is granted, or one requester that asks. -/
theorem ArbSt.grant_cases (b : ArbSt) (strict : Bool) {act sp : Nat} (ha : act < 256) (hs : sp < 8) :
    (b.grant strict act sp).lastLink = b.lastLink ∧
      ((b.grant strict act sp).grants = b.grants ∨
        ∃ j, j < 11 ∧ asks act sp j = true ∧ (b.grant strict act sp).grants = b.grants.set j (b.grants.getD j 0 + 1)) := by
  obtain ⟨hg, hl⟩ := b.choose_keeps strict (devReq act sp)
  unfold ArbSt.grant
  cases c : b.choose strict (devReq act sp) with
  | mk b' q =>
    rw [c] at hg hl
    cases q with
    | none => exact ⟨hl, .inl hg⟩
    | some q =>
      obtain ⟨hq, hr⟩ := ArbSt.choose_some c
      obtain ⟨h11, hask, -⟩ := arbWho_asks b' ha hs hq hr
      exact ⟨hl, .inr ⟨_, h11, hask, by rw [← hg]; rfl⟩⟩

/-- In strict-level mode, where all three classes ask, they take turns (R42). -/
theorem ArbSt.grant_turn (b : ArbSt) {act sp : Nat} (ha : act < 256) (hs : sp < 8) (h : ∀ q, q < 3 → devReq act sp q = true) :
    (b.grant true act sp).last = (b.last + 1) % 3 ∧ ∃ j, j < 11 ∧ arbClass j = (b.last + 1) % 3 ∧
      (b.grant true act sp).grants = b.grants.set j (b.grants.getD j 0 + 1) := by
  have hq : (b.last + 1) % 3 < 3 := Nat.mod_lt _ (by decide)
  have c : b.choose true (devReq act sp) = (b, some ((b.last + 1) % 3)) := by
    unfold ArbSt.choose
    rw [if_pos rfl, roundRobin_of_all 3 b.last (by decide) h]
  obtain ⟨h11, -, hcl⟩ := arbWho_asks b ha hs hq (h _ hq)
  unfold ArbSt.grant
  rw [c]
  exact ⟨rfl, _, h11, hcl, rfl⟩

/-! ## A window's grants -/

theorem getD_set {l : List Nat} {j : Nat} (hj : j < l.length) (x i : Nat) :
    (l.set j x).getD i 0 = if i = j then x else l.getD i 0 := by
  rw [List.getD_eq_getElem?_getD, List.getElem?_set]
  by_cases h : j = i
  · subst h
    simp [hj]
  · rw [if_neg h, if_neg (Ne.symm h), List.getD_eq_getElem?_getD]

/-- The grants of a class in a window. -/
def classGrants (g : List Nat) (q : Nat) : Nat :=
  if q = 0 then g.getD 0 0 + g.getD 1 0 + g.getD 2 0 + g.getD 3 0
  else if q = 1 then g.getD 4 0 + g.getD 5 0 + g.getD 6 0 + g.getD 7 0
  else g.getD 8 0 + g.getD 9 0 + g.getD 10 0

/-- A grant counts for its class. -/
theorem classGrants_set {g : List Nat} (hg : g.length = 11) {j : Nat} (hj : j < 11) {q : Nat} (hq : q < 3) :
    classGrants (g.set j (g.getD j 0 + 1)) q = classGrants g q + if q = arbClass j then 1 else 0 := by
  have hl : j < g.length := by omega
  unfold classGrants arbClass
  simp only [getD_set hl]
  interval_cases j <;> interval_cases q <;> simp <;> omega

theorem ArbSt.grant_length (b : ArbSt) (strict : Bool) {act sp : Nat} (ha : act < 256) (hs : sp < 8) :
    (b.grant strict act sp).grants.length = b.grants.length := by
  obtain ⟨-, e | ⟨j, -, -, e⟩⟩ := b.grant_cases strict ha hs
  · rw [e]
  · rw [e, List.length_set]

/-- Who does not ask is not granted, and the link performed last stays. -/
theorem ArbSt.cycles_asked (strict : Bool) {act sp : Nat} (ha : act < 256) (hs : sp < 8) (k : Nat) (b : ArbSt) (hb : b.grants.length = 11) :
    (ArbSt.cycles strict act sp k b).lastLink = b.lastLink ∧
      ∀ i, asks act sp i = false → b.grants.getD i 0 = 0 → (ArbSt.cycles strict act sp k b).grants.getD i 0 = 0 := by
  induction k generalizing b with
  | zero => exact ⟨rfl, fun _ _ h => h⟩
  | succ k ih =>
    obtain ⟨hl, hi⟩ := ih (b.grant strict act sp) ((b.grant_length strict ha hs).trans hb)
    obtain ⟨gl, g⟩ := b.grant_cases strict ha hs
    refine ⟨hl.trans gl, fun i hask h0 => hi i hask ?_⟩
    rcases g with e | ⟨j, hj, hja, e⟩
    · rw [e]; exact h0
    · rw [e, getD_set (by omega), if_neg (fun c => by rw [c, hja] at hask; cases hask)]
      exact h0

/-- In strict-level mode each class is granted every third cycle (R42). -/
theorem ArbSt.cycles_turns {act sp : Nat} (ha : act < 256) (hs : sp < 8) (h : ∀ q, q < 3 → devReq act sp q = true) (k : Nat) (b : ArbSt)
    (hb : b.grants.length = 11) {q : Nat} (hq : q < 3) :
    classGrants (ArbSt.cycles true act sp k b).grants q = classGrants b.grants q + (k + 2 - (q + 2 * (b.last + 1)) % 3) / 3 := by
  induction k generalizing b with
  | zero => 
    have : ArbSt.cycles true act sp 0 b = b := rfl
    rw [this]
    omega
  | succ k ih =>
    obtain ⟨hlast, j, hj, hcl, e⟩ := b.grant_turn ha hs h
    refine (ih _ ((b.grant_length true ha hs).trans hb)).trans ?_
    rw [hlast, e, classGrants_set hb hj hq, hcl]
    split <;> omega

/-! ## ARB_WEIGHT_UPDATE -/

theorem foldl_b2n_le (f : Nat → Bool) (l : List Nat) (k : Nat) : l.foldl (fun k i => k + b2n (f i)) k ≤ k + l.length := by
  induction l generalizing k with
  | nil => exact Nat.le_refl k
  | cons i l ih =>
    have one : b2n (f i) ≤ 1 := by cases f i <;> decide
    have := ih (k + b2n (f i))
    rw [List.foldl_cons, List.length_cons]
    omega

theorem ones8_mod (x : Nat) : ones8 x % 16 = ones8 x := by
  have h : ones8 x ≤ 0 + 8 := foldl_b2n_le (fun i => bit x i) (List.range 8) 0
  omega

theorem ones8_port (sp : BitVec 3) : ones8 sp.toNat = 0 ↔ sp = 0 := by revert sp; decide

/-- Every class asks where each has a requester. -/
theorem devReq_all {act sp : Nat} (h0 : ones8 (act % 16) ≠ 0) (h1 : ones8 (act / 16) ≠ 0) (h2 : sp ≠ 0) (q : Nat) :
    devReq act sp q = true := by
  have z : ones8 0 = 0 := by decide
  have n0 : act % 16 ≠ 0 := fun e => h0 (by rw [e]; exact z)
  have n1 : act / 16 ≠ 0 := fun e => h1 (by rw [e]; exact z)
  unfold devReq
  split
  · exact decide_eq_true n0
  · split
    · exact decide_eq_true n1
    · exact decide_eq_true h2

variable (s : State)

/-- DEV_ARB_STAT as a window's end leaves it. -/
def State.arbStat (s : State) (a0 a1 p wait : Nat) : State :=
  (((s.put DEV_ARB_STAT_ACT_S0 a0).put DEV_ARB_STAT_ACT_S1 a1).put DEV_ARB_STAT_ACT_SP p).maxPut DEV_ARB_STAT_MAXWAIT wait

section
variable (a0 a1 p wait : Nat)

theorem State.arbStat_sameBut : s.sameBut (s.arbStat a0 a1 p wait) [DEV_ARB_STAT_ACT_S0.a] :=
  (((State.sameBut.refl.put _ _ (by decide)).put _ _ (by decide)).put _ _ (by decide)).put _ _ (by decide)

theorem State.arbStat_g (f : Fld) (h : DEV_ARB_STAT_ACT_S0.apart f ∧ DEV_ARB_STAT_ACT_S1.apart f ∧ DEV_ARB_STAT_ACT_SP.apart f ∧
    DEV_ARB_STAT_MAXWAIT.apart f) : (s.arbStat a0 a1 p wait).g f = s.g f := by
  obtain ⟨h0, h1, h2, h3⟩ := h
  unfold State.arbStat State.maxPut
  rw [State.put_g_disj _ _ _ _ (by decide) h3, State.put_g_disj _ _ _ _ (by decide) h2, State.put_g_disj _ _ _ _ (by decide) h1,
    State.put_g_disj _ _ _ _ (by decide) h0]

theorem State.arbStat_s0 : (s.arbStat a0 a1 p wait).g DEV_ARB_STAT_ACT_S0 = a0 % 16 := by
  unfold State.arbStat State.maxPut
  rw [State.put_g_disj _ _ _ _ (by decide) (by decide), State.put_g_disj _ _ _ _ (by decide) (by decide),
    State.put_g_disj _ _ _ _ (by decide) (by decide), State.put_g_same _ _ _ (by decide)]
  rfl

theorem State.arbStat_s1 : (s.arbStat a0 a1 p wait).g DEV_ARB_STAT_ACT_S1 = a1 % 16 := by
  unfold State.arbStat State.maxPut
  rw [State.put_g_disj _ _ _ _ (by decide) (by decide), State.put_g_disj _ _ _ _ (by decide) (by decide),
    State.put_g_same _ _ _ (by decide)]
  rfl

theorem State.arbStat_sp : (s.arbStat a0 a1 p wait).g DEV_ARB_STAT_ACT_SP = p % 16 := by
  unfold State.arbStat State.maxPut
  rw [State.put_g_disj _ _ _ _ (by decide) (by decide), State.put_g_same _ _ _ (by decide)]
  rfl

theorem State.arbStat_maxwait :
    (s.arbStat a0 a1 p wait).g DEV_ARB_STAT_MAXWAIT = min (max (s.g DEV_ARB_STAT_MAXWAIT) wait) 255 := by
  unfold State.arbStat State.maxPut
  rw [State.put_g_same _ _ _ (by decide), State.put_g_disj _ _ _ _ (by decide) (by decide), State.put_g_disj _ _ _ _ (by decide) (by decide),
    State.put_g_disj _ _ _ _ (by decide) (by decide)]
  exact Nat.mod_eq_of_lt (Nat.lt_succ_of_le (Nat.min_le_right _ _))

theorem State.arbStat_mode : (s.arbStat a0 a1 p wait).g DEV_ARB_STAT_MODE_ACT = s.g DEV_ARB_STAT_MODE_ACT :=
  s.arbStat_g _ _ _ _ _ (by unfold Fld.apart; decide)

theorem State.arbStat_arb : (s.arbStat a0 a1 p wait).arb = s.arb := by
  unfold State.arbStat State.maxPut
  rw [State.put_arb, State.put_arb, State.put_arb, State.put_arb]

end

/-- The same state with another arbiter. -/
def State.withArb (s : State) (b : ArbSt) : State := { s with arb := b }

theorem State.settle_withArb_g (b : ArbSt) (f : Fld) (h : evWord f.a = false) : (s.withArb b).settle.g f = s.g f := State.settle_g _ f h

theorem State.settle_withArb_arb (b : ArbSt) : (s.withArb b).settle.arb = b := congrArg (·.arb) (s.withArb b).settle_rest

theorem State.sameBut.settle_withArb {s t : State} {A : List Nat} (h : s.sameBut t A) (b : ArbSt) :
    ({ s with arb := b }).sameBut (t.withArb b).settle A := by
  obtain ⟨hn, hr, hw⟩ := h
  have same : ({ s with arb := b }).sameBut (t.withArb b) A := ⟨hn, congrArg (fun x : State => { x with arb := b }) hr, hw⟩
  exact same.settle

/-- The arbiter after a window of `k` cycles in which `act` and `sp` ask, with the weights `w` of the next. -/
def ArbSt.window (b : ArbSt) (k : Nat) (strict : Bool) (act sp : Nat) (w : List Nat) : ArbSt :=
  { ArbSt.cycles strict act sp k { b with grants := List.replicate 11 0 } with w := w }

theorem exec_arbWeightUpdate (dt : Nat) (act : BitVec 8) (sp : BitVec 3) (wait : BitVec 8) (h : (s.tickTo dt).flOn = true) :
    exec (.arbWeightUpdate dt act sp wait) s =
      done (((s.tickTo dt).arbStat (ones8 (act.toNat % 16)) (ones8 (act.toNat / 16)) (ones8 sp.toNat) wait.toNat).withArb
        ((s.tickTo dt).arb.window 64 ((s.tickTo dt).gb DEV_ARB_STAT_MODE_ACT) act.toNat sp.toNat
          [ones8 (act.toNat % 16), ones8 (act.toNat / 16), if ones8 sp.toNat = 0 then 0 else 1])) := by
  have mode := State.arbStat_mode (s.tickTo dt) (ones8 (act.toNat % 16)) (ones8 (act.toNat / 16)) (ones8 sp.toNat) wait.toNat
  have arb := State.arbStat_arb (s.tickTo dt) (ones8 (act.toNat % 16)) (ones8 (act.toNat / 16)) (ones8 sp.toNat) wait.toNat
  rw [← arb, State.gb_eq (s.tickTo dt), ← mode]
  change execArbWeightUpdate dt act sp wait s = _
  unfold execArbWeightUpdate
  dsimp only
  rw [if_neg (by rw [h]; decide)]
  rfl

section
variable (b : ArbSt) (k : Nat) (strict : Bool) (act : BitVec 8) (sp : BitVec 3) (w : List Nat)

theorem ArbSt.window_lastLink : (b.window k strict act.toNat sp.toNat w).lastLink = b.lastLink :=
  (ArbSt.cycles_asked strict act.isLt sp.isLt k { b with grants := List.replicate 11 0 } rfl).1

theorem ArbSt.window_unasked (i : Nat) (h : asks act.toNat sp.toNat i = false) :
    (b.window k strict act.toNat sp.toNat w).grants.getD i 0 = 0 := by
  refine (ArbSt.cycles_asked strict act.isLt sp.isLt k { b with grants := List.replicate 11 0 } rfl).2 i h ?_
  rw [List.getD_eq_getElem?_getD, List.getElem?_replicate]
  split <;> rfl

/-- 64 cycles in turns are 21 or 22 for each class (R42). -/
theorem ArbSt.window_turns (h : ∀ q, q < 3 → devReq act.toNat sp.toNat q = true) (q : Nat) (hq : q < 3) :
    classGrants (b.window 64 true act.toNat sp.toNat w).grants q = 21 ∨ classGrants (b.window 64 true act.toNat sp.toNat w).grants q = 22 := by
  have z : classGrants (List.replicate 11 0) q = 0 := by interval_cases q <;> decide
  have count (k : Nat) : classGrants (b.window k true act.toNat sp.toNat w).grants q = 0 + (k + 2 - (q + 2 * (b.last + 1)) % 3) / 3 :=
    z ▸ ArbSt.cycles_turns act.isLt sp.isLt h k { b with grants := List.replicate 11 0 } rfl hq
  have := count 64
  omega

end

/-! ## CLR_MAXWAIT -/

/-- CLR_MAXWAIT is a pulse of DEV_ARB_CFG. -/
theorem pulseRow_arbCfg : pulseRow 0x60 (2 ^ 8) where
  plain := by omega
  acc := by decide
  lt := by decide
  fields := by decide
  apart := by unfold rowsApart; decide
  clamp t lo v := by unfold State.clampVal; simp
  note t := by unfold State.noteWritten; simp

theorem State.regAct_clrMaxwait (v : State) (lk : Link) (pre : LinkSt) :
    v.regAct lk 0x60 (s.pulseWord 0x60 (2 ^ 8)).toNat pre = v.put DEV_ARB_STAT_MAXWAIT 0 := by
  have p := pulseRow_arbCfg
  have h : bit (s.pulseWord 0x60 (2 ^ 8)).toNat 8 = bit (2 ^ 8) 8 := keepWord_bit s 0x60 _ 8 p.lt p.fields (by decide)
  unfold State.regAct State.kaAct
  rw [if_neg (by decide), if_pos (by decide)]
  dsimp only
  rw [h]
  rfl

theorem exec_clrMaxwait (dt : Nat) (lk : Link) : exec (.clrMaxwait dt lk) s = done ((s.tickTo dt).rowPulse lk 0x60 (2 ^ 8)) := rfl

/-- Settles O4: the grants by induction over the window's cycles; CLR_MAXWAIT is a pulse of DEV_ARB_CFG. -/
theorem arbiterWindow : Obligations.ArbiterWindow := by
  refine ⟨fun s dt act sp wait h => ?_, fun s dt lk h => ?_⟩
  · refine exec_next (exec_arbWeightUpdate s dt act sp wait h) ?_
    dsimp only
    rw [State.settle_withArb_arb, State.settle_withArb_g _ _ DEV_ARB_STAT_ACT_S0 rfl, State.settle_withArb_g _ _ DEV_ARB_STAT_ACT_S1 rfl,
      State.settle_withArb_g _ _ DEV_ARB_STAT_ACT_SP rfl, State.settle_withArb_g _ _ DEV_ARB_STAT_MAXWAIT rfl,
      State.settle_withArb_g _ _ DEV_ARB_STAT_MODE_ACT rfl, State.arbStat_s0, State.arbStat_s1, State.arbStat_sp, State.arbStat_maxwait,
      State.arbStat_mode, ones8_mod, ones8_mod, ones8_mod]
    refine ⟨(State.arbStat_sameBut _ _ _ _ _).settle_withArb _, rfl, rfl, rfl, rfl, rfl, ?_, ?_, fun i hi => ?_, fun i hi => ?_,
      fun strict h0 h1 h2 => ?_⟩
    · exact congrArg (fun x => [_, _, x]) (if_congr (ones8_port sp) rfl rfl)
    · exact ArbSt.window_lastLink _ _ _ _ _ _
    · exact ArbSt.window_unasked _ _ _ _ _ _ _ (by unfold asks; rw [if_pos i.isLt]; exact hi)
    · exact ArbSt.window_unasked _ _ _ _ _ _ _ (by
        unfold asks; rw [if_neg (by omega), Nat.add_sub_cancel_left]; exact hi)
    · have turns := ArbSt.window_turns (s.tickTo dt).arb act sp
        [ones8 (act.toNat % 16), ones8 (act.toNat / 16), if ones8 sp.toNat = 0 then 0 else 1] fun q _ =>
          devReq_all h0 h1 (fun e => h2 (BitVec.eq_of_toNat_eq e)) q
      rw [strict]
      intro q hq
      simp only [List.mem_cons, List.not_mem_nil, or_false] at hq
      rcases hq with h | h | h <;> rw [h]
      · exact turns 0 (by decide)
      · exact turns 1 (by decide)
      · exact turns 2 (by decide)
  · refine exec_rowPulse s (exec_clrMaxwait s dt lk) pulseRow_arbCfg h (fun v => ?_) fun v w key hv => ?_
    · rw [State.regAct_clrMaxwait, State.put_cyc]
    · rw [State.regAct_clrMaxwait]
      obtain ⟨-, hg⟩ := State.reads_keyTaken hv
      have stat (f : Fld) (hf : f.a = 0x61) (ha : DEV_ARB_STAT_MAXWAIT.apart f) :
          ((v.put DEV_ARB_STAT_MAXWAIT 0).hostStands 0x60 w key).settle.g f = (s.tickTo dt).hostBegin.g f := by
        rw [State.settle_g _ _ (by rw [hf]; decide), State.hostStands_g, State.put_g_disj _ _ _ _ (by decide) ha, hg _ (by rw [hf]; decide)]
      refine ⟨?_, ?_, ?_, stat _ rfl (by unfold Fld.apart; decide), stat _ rfl (by unfold Fld.apart; decide),
        stat _ rfl (by unfold Fld.apart; decide), stat _ rfl (by unfold Fld.apart; decide)⟩
      · exact (((((s.tickTo dt).hostBegin.keyTaken_sameBut lk _ _ (by decide)).trans hv.sameBut).put _ _ (by decide)).hostStands _ w
          key).settle
      · refine State.keyCounted_of_word _ (a := 0x60) (by decide) ?_
        rw [State.settle_word _ _ (by decide), State.hostStands_word, State.put_word_ne _ _ _ _ (by decide)]
        exact hv.word _
      · rw [State.settle_g' DEV_ARB_STAT_MAXWAIT, State.hostStands_g]
        exact State.put_g_same _ _ _ (by decide)

end Sys2Proof.Machine
end

section
/-!
The surveyor's halt (R36, R448): nothing that the entry to FAULT or to SAFE is built of sets HALTED back.
-/

namespace Sys2Proof.Machine

/-- HALTED of MG_SV_STAT. -/
def State.halted (s : State) : Nat := s.g MG_SV_STAT_HALTED

variable (s : State)

/-! ## Registers and containers -/

theorem State.put_halted (f : Fld) (v : Nat) (h : f.a ≠ 0x1000005) : (s.put f v).halted = s.halted := s.put_g_ne f _ v h
theorem State.inc_halted (f : Fld) (h : f.a ≠ 0x1000005) : (s.inc f).halted = s.halted := s.put_g_ne f _ _ h
theorem State.addSat_halted (f : Fld) (k : Nat) (h : f.a ≠ 0x1000005) : (s.addSat f k).halted = s.halted := s.put_g_ne f _ _ h
theorem State.putBit_halted (f : Fld) (i : Nat) (b : Bool) (h : f.a ≠ 0x1000005) : (s.putBit f i b).halted = s.halted :=
  s.put_g_ne f _ _ h
theorem State.setWord_halted (a : Nat) (w : Word) (h : a ≠ 0x1000005) : (s.setWord a w).halted = s.halted :=
  State.word_eq_of_g _ _ _ (s.setWord_word_ne a _ w h)
theorem State.putMwRun_halted (v : Nat) : (s.put MG_SV_STAT_MW_RUN v).halted = s.halted :=
  s.put_g_disj _ _ _ (by decide) (by decide)

theorem State.step_halted {t : State} (h : s.evStep t) : t.halted = s.halted := State.word_eq_of_g _ _ _ (h.word _ (by decide))

/-- An update of no register. -/
theorem State.upd_halted {pending now dev staged groups links grelas mbox indQ window cmds nextId lastEnd backlog rings evq evLost levels cap tick arb ecc axes coils stations ctxs store chain chainOut chainRst chainRej chainReach chainStall chainMode boot power surv nvm otp flash free cyc} :
    State.halted ⟨⟨dev, s.regs, staged, groups, links, grelas, mbox, indQ, window, cmds, nextId, lastEnd, backlog, rings, evq, evLost, levels, cap, tick, arb, ecc, axes, coils, stations, ctxs, store, chain, chainOut, chainRst, chainRej, chainReach, chainStall, chainMode, boot, power, surv, nvm, otp, flash, free⟩, pending, now, cyc⟩ = s.halted := rfl

theorem foldl_halted {ι : Type} (l : List ι) (f : State → ι → State) (h : ∀ x i, (f x i).halted = x.halted) :
    (l.foldl f s).halted = s.halted := foldl_ind (fun t => t.halted = s.halted) l f (fun x i k => (h x i).trans k) s rfl

theorem forFin_halted {k : Nat} (f : Fin k → State → State) (h : ∀ i x, (f i x).halted = x.halted) :
    (forFin k f s).halted = s.halted := forFin_ind (fun t => t.halted = s.halted) k f (fun i x c => (h i x).trans c) s rfl

theorem State.noteLast_halted (c : Cmd) (st : Nat) : (s.noteLast c st).halted = s.halted := by
  unfold State.noteLast
  repeat' split
  all_goals rfl

theorem State.ite_halted (c : Prop) [Decidable c] (a b : State) : (if c then a else b).halted = if c then a.halted else b.halted :=
  apply_ite State.halted c a b

theorem State.noteEnd_halted (c : Cmd) (st : Nat) : (s.noteEnd c st).halted = s.halted := by
  unfold State.noteEnd
  dsimp only
  split <;> simp only [State.ite_halted, State.upd_halted, State.noteLast_halted, ite_self]

theorem State.recordEnd_halted (c : Cmd) (st : Nat) : (s.recordEnd c st).halted = s.halted := by
  unfold State.recordEnd
  repeat' split
  all_goals rfl

theorem State.endCmd_halted (id st : Nat) : (s.endCmd id st).halted = s.halted := by
  unfold State.endCmd
  split
  · rfl
  · dsimp only
    split
    · rfl
    all_goals
      split <;> simp only [State.upd_halted, State.recordEnd_halted, State.noteEnd_halted]

theorem State.flushEnds_halted : s.flushEnds.halted = s.halted :=
  (foldl_halted _ _ _ fun x _ => x.recordEnd_halted _ _).trans s.upd_halted

theorem State.gathered_halted (f : State → State) (h : ∀ x, (f x).halted = x.halted) : (s.gathered f).halted = s.halted := by
  unfold State.gathered
  split
  · exact h s
  · exact (State.flushEnds_halted _).trans (h _)

theorem State.ax_halted (n : Fin 8) (f : Axis → Axis) : (s.ax n f).halted = s.halted := rfl
theorem State.stn_halted (st : Fin 2) (f : Station → Station) : (s.stn st f).halted = s.halted := rfl
theorem State.ctx_halted (x : Fin 4) (f : Ctx → Ctx) : (s.ctx x f).halted = s.halted := rfl
theorem State.su_halted (f : SurvSt → SurvSt) : (s.su f).halted = s.halted := rfl
theorem State.svu_halted (st : Fin 2) (f : SurveySt → SurveySt) : (s.svu st f).halted = s.halted := rfl
theorem State.pw_halted (f : PowerSt → PowerSt) : (s.pw f).halted = s.halted := rfl
theorem State.bt_halted (f : BootSt → BootSt) : (s.bt f).halted = s.halted := rfl
theorem State.bridgesOff_halted (n : Fin 8) : (s.bridgesOff n).halted = s.halted := rfl

/-! ## Entry to FAULT -/

theorem State.faultMove_halted (n : Fin 8) : (s.faultMove n).halted = s.halted := by
  unfold State.faultMove
  rw [State.ite_halted, foldl_halted, ite_self]
  intro x t
  split
  · rfl
  · dsimp only
    rw [State.stn_halted, foldl_halted _ _ _ fun _ _ => State.ax_halted _ _ _, foldl_halted _ _ _ fun y _ => y.endCmd_halted _ _]

theorem State.followLeave_halted (n : Fin 8) : (s.followLeave n).halted = s.halted := by
  unfold State.followLeave
  dsimp only
  rw [State.ite_halted, State.ax_halted, State.addSat_halted _ _ _ (by simp; omega), ite_self]

theorem State.planIdle_halted (n : Fin 8) : (s.planIdle n).halted = s.halted := by
  unfold State.planIdle
  rw [State.setWord_halted _ _ _ (by simp; omega), State.put_halted _ _ _ (by simp; omega), State.setWord_halted _ _ _ (by simp; omega)]

theorem State.axisFault_halted (n : Fin 8) (pwr ax st : Nat) : (s.axisFault n pwr ax st).halted = s.halted := by
  have causes (x y : Nat) : ((s.put (PWR_FLTCAUSE_BITS n) x).put (AX_FAULT_BITS n) y).halted = s.halted := by
    rw [State.put_halted _ _ _ (by simp; omega), State.put_halted _ _ _ (by simp; omega)]
  unfold State.axisFault
  dsimp only
  rw [State.ite_halted, State.gathered_halted, causes, ite_self]
  intro x
  rw [State.step_halted _ (State.pulse_step _ _ _ _ (by omega)), foldl_halted, State.bridgesOff_halted, State.ax_halted,
    State.planIdle_halted, State.followLeave_halted, State.faultMove_halted]
  intro y c
  split
  · exact y.endCmd_halted _ _
  · rfl

/-! ## Program contexts and capture -/

theorem State.mbWords_halted (m : Fin 8) (ws : List Nat) : (s.mbWords m ws).halted = s.halted := by
  unfold State.mbWords
  refine List.foldlRecOn (motive := fun t : State => t.halted = s.halted) _ _ rfl fun x h k hk => ?_
  have := List.mem_range.1 hk
  rw [State.put_halted _ _ _ (by simp; omega), h]

theorem State.mbFill_halted (m : Fin 8) (ws : List Nat) : (s.mbFill m ws).halted = s.halted := by
  unfold State.mbFill
  dsimp only
  rw [State.put_halted _ _ _ (by simp; omega), State.put_halted _ _ _ (by simp; omega), State.put_halted _ _ _ (by simp; omega),
    State.put_halted _ _ _ (by simp; omega), State.mbWords_halted]

theorem State.mbDeliver_halted (m : Fin 8) (ws : List Nat) : (s.mbDeliver m ws).halted = s.halted := by
  unfold State.mbDeliver
  dsimp only
  rw [State.ite_halted, State.mbFill_halted, State.put_halted _ _ _ (by simp; omega), State.upd_halted, State.ite_halted,
    State.inc_halted _ _ (by simp; omega), ite_self, ite_self]

theorem State.capture_halted (item idx : Nat) (ws : List Nat) : (s.capture item idx ws).halted = s.halted := by
  refine foldl_halted _ _ _ fun x m => ?_
  rw [State.ite_halted, State.mbDeliver_halted, ite_self]

theorem State.stopCtx_halted (x : Fin 4) (cause : Nat) : (s.stopCtx x cause).halted = s.halted := by
  unfold State.stopCtx
  dsimp only
  rw [State.ite_halted, State.capture_halted, State.step_halted _ (State.evRaise_step _ _ _ _ (by omega)), State.ctx_halted, ite_self]

theorem State.stopAllCtx_halted (cause : Nat) : (s.stopAllCtx cause).halted = s.halted :=
  forFin_halted _ _ fun x t => t.stopCtx_halted x cause

/-! ## The moisture round and V5OUT -/

theorem State.mwSet_halted (l : Option Nat) : (s.mwSet l).halted = s.halted := by
  have hold (t : State) (o v : Nat) : (if o < 24 then t.put (AX_DP_STAT_MW_HOLD (mwAxis o)) v else t).halted = t.halted := by
    rw [State.ite_halted, State.put_halted _ _ _ (by simp; omega), ite_self]
  unfold State.mwSet
  dsimp only
  rw [State.su_halted]
  generalize s.surv.mwCur = c
  cases c with
  | none => cases l with
    | none => rfl
    | some x => exact hold _ x 1
  | some o => cases l with
    | none => exact hold _ o 0
    | some x => exact (hold _ x 1).trans (hold _ o 0)

theorem State.mwNext_halted : s.mwNext.halted = s.halted := by
  unfold State.mwNext
  dsimp only
  split
  · rw [State.su_halted, State.mwSet_halted, State.put_halted _ _ _ (by decide), State.putMwRun_halted, State.addSat_halted _ _ _ (by decide)]
  · rw [State.su_halted, State.mwSet_halted, State.svu_halted, State.addSat_halted _ _ _ (by decide)]

theorem State.mwAbandon_halted : s.mwAbandon.halted = s.halted :=
  (State.mwNext_halted _).trans (s.inc_halted _ (by decide))

theorem State.mwStop_halted : s.mwStop.halted = s.halted :=
  ((s.put MG_SV_STAT_MW_RUN 0).mwSet_halted none).trans (s.putMwRun_halted 0)

theorem State.v5Switch_halted : s.v5Switch.halted = s.halted := by
  unfold State.v5Switch
  dsimp only
  rw [State.ite_halted, State.mwAbandon_halted, State.put_halted _ _ _ (by decide), ite_self]

theorem State.v5Follow_halted : s.v5Follow.halted = s.halted := by
  unfold State.v5Follow
  dsimp only
  rw [State.ite_halted, State.ite_halted, State.pw_halted, State.pw_halted, State.v5Switch_halted, State.put_halted _ _ _ (by decide),
    ite_self, ite_self]

/-! ## Entry to SAFE -/

theorem State.dumpOff_halted : s.dumpOff.halted = s.halted := (State.pw_halted _ _).trans (s.put_halted _ _ (by decide))

theorem State.fbAdd_halted (typ : Nat) (payload : List Nat) : (s.fbAdd typ payload).halted = s.halted := by
  unfold State.fbAdd State.fbAddFrom
  dsimp only
  rw [State.ite_halted, State.ite_halted, State.su_halted, State.inc_halted _ _ (by decide), State.su_halted, ite_self, ite_self]

theorem State.endAll_halted (p : Cmd → Bool) (st : Nat) : (s.endAll p st).halted = s.halted :=
  foldl_halted _ _ _ fun x _ => x.endCmd_halted _ _

theorem State.enterSafe_halted : s.enterSafe.halted = s.halted := by
  unfold State.enterSafe
  dsimp only
  rw [State.fbAdd_halted, State.step_halted _ (State.levelOn_step _ _ _ _ (by decide)), State.v5Follow_halted, State.dumpOff_halted,
    State.stopAllCtx_halted, State.upd_halted, State.gathered_halted, State.bt_halted, State.upd_halted]
  intro x
  rw [State.endAll_halted, forFin_halted]
  intro n y
  rw [State.ite_halted, State.axisFault_halted, ite_self]

theorem State.safeCause_halted (i : Nat) : (s.safeCause i).halted = s.halted := by
  have cause : (s.putBit DEV_STATE_SAFE_CAUSE i true).halted = s.halted := s.putBit_halted _ _ _ (by decide)
  unfold State.safeCause
  cases s.dev with
  | ready | run => exact (State.enterSafe_halted _).trans cause
  | safe | boot | configLoad | recovery => exact cause
  | reset | optionLoad => rfl

theorem State.halt_halted : s.halt.gb MG_SV_STAT_HALTED = true := by
  unfold State.halt
  split
  · assumption
  · exact (congrArg (· != 0) (State.put_g_same _ _ _ (by decide))).trans rfl

end Sys2Proof.Machine
end

section
/-!
SCRUB_READ (R34 to R38): the scrubber's step, and what the word it read sets off.
-/

namespace Sys2Proof.Machine

variable (s : State)

theorem vupd_congr {α : Type} {k : Nat} (v : Vector α k) (i : Fin k) {f g : α → α} (h : f v[i] = g v[i]) : vupd v i f = vupd v i g := by
  unfold vupd
  rw [h]

/-! ## The scrubber goes on (R37) -/

/-- The scrubber's pass ends with the word it stands at. -/
def State.scrubLast (s : State) (m : Mem) : Bool := decide (memWords m ≤ s.ecc[mix m].scrub + 1)

/-- The field that counts a memory's passes. -/
def passFld (m : Mem) : Fld := if m = .motion then DEV_MEM_STAT_PASS_M else DEV_MEM_STAT_PASS_G

/-- Start of the slot after the one that began at `at_`. -/
def slotAfter (now : Nat) (m : Mem) (at_ : Nat) : Nat :=
  match m with
  | .motion => at_ + scrubSlot m
  | .mgmt => at_ + ((now - at_) / scrubSlot m + 1) * scrubSlot m

theorem State.slotAfter_eq (m : Mem) : slotAfter s.now m s.ecc[mix m].slotAt = s.nextSlot m := by cases m <;> rfl

/-- The scrubber takes its next word, and its next slot. -/
def State.scrubStep (s : State) (now : Nat) (m : Mem) : State :=
  (s.scrubNext m).mm m fun e => { e with slotAt := slotAfter now m e.slotAt }

/-- A completed pass is counted. -/
def State.passCounted (s : State) (m : Mem) : State := if s.scrubLast m then s.put (passFld m) ((s.g (passFld m) + 1) % 256) else s

/-- A memory's scrubber after a read of its slot. -/
def EccSt.scrubbed (e : EccSt) (last : Bool) (now : Nat) (m : Mem) : EccSt :=
  { e with
    scrub := if last then 0 else e.scrub + 1, passCorr := if last then 0 else e.passCorr, slotAt := slotAfter now m e.slotAt }

theorem State.mm_mm (m : Mem) (f g : EccSt → EccSt) : (s.mm m f).mm m g = s.mm m fun e => g (f e) := by
  unfold State.mm
  dsimp only
  rw [vupd_vupd]

theorem State.put_mm (f : Fld) (v : Nat) (m : Mem) (g : EccSt → EccSt) : (s.mm m g).put f v = (s.put f v).mm m g := rfl

theorem State.scrubStep_eq (now : Nat) (m : Mem) :
    s.scrubStep now m = (s.passCounted m).mm m fun e => e.scrubbed (s.scrubLast m) now m := by
  unfold State.scrubStep State.scrubNext State.passCounted
  by_cases c : s.ecc[mix m].scrub + 1 < memWords m
  · have l : s.scrubLast m = false := decide_eq_false (by omega)
    rw [l, if_neg Bool.false_ne_true, if_pos c, State.mm_mm]
    exact congrArg (fun x => ({ s with ecc := x } : State)) (vupd_congr _ _ rfl)
  · have l : s.scrubLast m = true := decide_eq_true (by omega)
    rw [l, if_pos rfl, if_neg c]
    dsimp only
    rw [State.put_mm, State.mm_mm]
    cases m <;> rfl

theorem State.passCounted_sameBut (m : Mem) (A : List Nat) (h : 0x63 ∈ A) : s.sameBut (s.passCounted m) A := by
  unfold State.passCounted
  split
  · exact State.sameBut.refl.put _ _ (by cases m <;> exact h)
  · exact State.sameBut.refl

theorem State.passCounted_g (m : Mem) :
    (s.passCounted m).g (passFld m) = if s.scrubLast m then (s.g (passFld m) + 1) % 256 else s.g (passFld m) := by
  unfold State.passCounted
  split
  · rw [State.put_g_same _ _ _ (by cases m <;> decide)]
    cases m <;> exact Nat.mod_mod _ _
  · rfl

theorem State.passCounted_word (m : Mem) (b : Nat) (h : 0x63 ≠ b) : (s.passCounted m).word b = s.word b := by
  unfold State.passCounted
  split
  · exact s.put_word_ne _ _ _ (by cases m <;> exact h)
  · rfl

theorem State.passCounted_ecc (m : Mem) : (s.passCounted m).ecc = s.ecc := by
  unfold State.passCounted
  split
  · exact State.put_ecc _ _ _
  · rfl

section
variable (now : Nat) (m : Mem)

theorem State.scrubStep_ecc : (s.scrubStep now m).ecc = vupd s.ecc (mix m) fun e => e.scrubbed (s.scrubLast m) now m := by
  rw [State.scrubStep_eq, State.mm_ecc, State.passCounted_ecc]

theorem State.scrubStep_word (b : Nat) (h : 0x63 ≠ b) : (s.scrubStep now m).word b = s.word b := by
  rw [State.scrubStep_eq]
  exact s.passCounted_word m b h

theorem State.scrubStep_g (f : Fld) (h : 0x63 ≠ f.a) : (s.scrubStep now m).g f = s.g f :=
  State.word_eq_of_g _ _ f (s.scrubStep_word now m f.a h)

theorem State.scrubStep_pass :
    (s.scrubStep now m).g (passFld m) = if s.scrubLast m then (s.g (passFld m) + 1) % 256 else s.g (passFld m) := by
  rw [State.scrubStep_eq]
  exact s.passCounted_g m

/-- Beside the memories only the count of passes changes. -/
theorem State.scrubStep_sameBut (A : List Nat) (h : 0x63 ∈ A) :
    ({ s with ecc := (s.scrubStep now m).ecc }).sameBut (s.scrubStep now m) A := by
  rw [State.scrubStep_eq]
  exact (s.passCounted_sameBut m A h).eccs _

theorem State.scrubStep_axes : (s.scrubStep now m).axes = s.axes := by
  have h := (s.scrubStep_sameBut now m [0x63] (by decide)).2.1
  exact congrArg (·.axes) h

theorem State.scrubStep_dev : (s.scrubStep now m).dev = s.dev := by
  have h := (s.scrubStep_sameBut now m [0x63] (by decide)).2.1
  exact congrArg (·.dev) h

theorem State.scrubStep_quell {b0 : State} {A : List Nat} (h : b0.quelled s A) : b0.quelled (s.scrubStep now m) A := by
  rw [State.scrubStep_eq]
  unfold State.passCounted
  refine State.quelled.upd ?_
  split
  · exact h.put _ _ (.inr (by cases m <;> decide))
  · exact h

end

/-! ## The command -/

/-- What a scrub read does: its word, then the step. -/
theorem exec_scrubRead (dt : Nat) (m : Mem) (h : (s.tickTo dt).scrubReady m = true) :
    exec (.scrubRead dt m) s =
      done (((s.tickTo dt).memRead m (s.tickTo dt).ecc[mix m].scrub true none).scrubStep (s.tickTo dt).now m) := by
  change execScrubRead dt m s = _
  unfold execScrubRead
  dsimp only
  unfold State.scrubReady at h
  rw [if_pos h]
  unfold State.scrubStep slotAfter
  cases m <;> rfl

theorem exec_scrubRead_not (dt : Nat) (m : Mem) (h : (s.tickTo dt).scrubReady m = false) :
    exec (.scrubRead dt m) s = done (s.tickTo dt) := by
  change execScrubRead dt m s = _
  unfold execScrubRead
  dsimp only
  unfold State.scrubReady at h
  rw [if_neg (by rw [h]; exact Bool.false_ne_true)]

/-! ## DEV_MEM_FIRST (R38, Table 1-14) -/

theorem firstWord_toNat (m : Mem) (a : Nat) (uncorr scrub : Bool) (sym : Nat) : (firstWord m a uncorr scrub sym).toNat =
    a % 2 ^ 15 + (mix m).val * 2 ^ 15 + b2n uncorr * 2 ^ 16 + sym % 32 * 2 ^ 17 + 2 ^ 22 + b2n scrub * 2 ^ 23 := by
  have one (b : Bool) : b2n b ≤ 1 := by cases b <;> decide
  refine W_toNat _ ?_
  have := one uncorr
  have := one scrub
  omega

theorem firstWord_fields (m : Mem) (a : Nat) (uncorr scrub : Bool) (sym : Nat) :
    bits (firstWord m a uncorr scrub sym).toNat 22 1 = 1 ∧ bits (firstWord m a uncorr scrub sym).toNat 16 1 = b2n uncorr ∧
      bits (firstWord m a uncorr scrub sym).toNat 17 5 = sym % 32 := by
  have one (b : Bool) : b2n b ≤ 1 := by cases b <;> decide
  rw [firstWord_toNat]
  have := one uncorr
  have := one scrub
  unfold bits
  refine ⟨?_, ?_, ?_⟩ <;> omega

/-- Whatever was held, an error is held now. -/
theorem firstOver_valid {old w : Word} (h : bit w.toNat 22 = true) : bit (firstOver old w).toNat 22 = true := by
  unfold firstOver
  split
  · exact h
  · next c =>
    simp only [Bool.or_eq_true, Bool.not_eq_true', not_or, Bool.not_eq_false] at c
    exact c.1

theorem firstOver_none {old w : Word} (h : bit old.toNat 22 = false) : firstOver old w = w := by
  unfold firstOver
  rw [h]
  rfl

theorem State.memFirst_word (m : Mem) (a : Nat) (uncorr scrub : Bool) (sym : Nat) :
    (s.memFirst m a uncorr scrub sym).word 0x66 = firstOver (s.word 0x66) (firstWord m a uncorr scrub sym) :=
  s.setWord_word_same _ _

theorem State.memFirst_word_ne (m : Mem) (a : Nat) (uncorr scrub : Bool) (sym b : Nat) (h : 0x66 ≠ b) :
    (s.memFirst m a uncorr scrub sym).word b = s.word b := s.setWord_word_ne _ _ _ h

theorem State.memFirst_sameBut {u : State} {A : List Nat} (h : u.sameBut s A) (m : Mem) (a : Nat) (uncorr scrub : Bool) (sym : Nat)
    (h66 : 0x66 ∈ A) : u.sameBut (s.memFirst m a uncorr scrub sym) A := h.setWord _ _ h66

theorem cntFld_a (m : Mem) (k : Nat) : (cntFld m k).a = 0x64 + k := by cases m <;> rfl

theorem cntFld_fits (m : Mem) (k : Nat) : (cntFld m k).lo + (cntFld m k).w ≤ 32 := by cases m <;> simp [cntFld]

/-- A counter of errors advanced by one. -/
theorem State.inc_cntFld (m : Mem) (k : Nat) : (s.inc (cntFld m k)).g (cntFld m k) = min (s.g (cntFld m k) + 1) 65535 := by
  refine (State.put_g_same _ _ _ (cntFld_fits m k)).trans ?_
  cases m <;> exact Nat.mod_eq_of_lt (Nat.lt_succ_of_le (Nat.min_le_right _ _))

/-- An error that a scrub read found: counted, and held as the first where none is (R35, R36, R38). -/
def State.errHeld (s : State) (m : Mem) (k a : Nat) (uncorr : Bool) (sym : Nat) : State :=
  (s.inc (cntFld m k)).memFirst m a uncorr true sym

section
variable (m : Mem) (k a : Nat) (uncorr : Bool) (sym : Nat)

theorem State.errHeld_sameBut (A : List Nat) (hk : 0x64 + k ∈ A) (h66 : 0x66 ∈ A) : s.sameBut (s.errHeld m k a uncorr sym) A :=
  State.memFirst_sameBut _ (State.sameBut.refl.put _ _ (by rw [cntFld_a]; exact hk)) m a uncorr true sym h66

theorem State.errHeld_dev : (s.errHeld m k a uncorr sym).dev = s.dev :=
  congrArg (·.dev) (s.errHeld_sameBut m k a uncorr sym [0x64 + k, 0x66] (by simp) (by simp)).2.1

theorem State.errHeld_count (hk : k < 2) : (s.errHeld m k a uncorr sym).g (cntFld m k) = min (s.g (cntFld m k) + 1) 65535 := by
  rw [← s.inc_cntFld m k]
  exact State.word_eq_of_g _ _ _ (State.memFirst_word_ne _ m a uncorr true sym _ (by rw [cntFld_a]; omega))

theorem State.errHeld_first (hk : k < 2) :
    (s.errHeld m k a uncorr sym).word 0x66 = firstOver (s.word 0x66) (firstWord m a uncorr true sym) := by
  refine (State.memFirst_word _ m a uncorr true sym).trans ?_
  exact congrArg (firstOver · _) (s.put_word_ne _ _ _ (by rw [cntFld_a]; omega))

end

/-! ## A corrected word (R35) -/

/-- What a corrected read leaves in its memory: the word waits for write-back. -/
def EccSt.corrected (e : EccSt) (a : Nat) : EccSt :=
  { e with
    passCorr := e.passCorr + 1, writeBack := if e.writeBack.contains a then e.writeBack else e.writeBack ++ [a] }

/-- A corrected read, but for the event at its threshold. -/
def State.corrected (s : State) (m : Mem) (a sym : Nat) : State := (s.errHeld m 0 a false sym).mm m fun e => e.corrected a

theorem State.memCorrected_step (m : Mem) (a sym : Nat) : (s.corrected m a sym).evStep (s.memCorrected m a sym true) := by
  unfold State.memCorrected
  dsimp only
  split
  · exact State.pulse_step _ _ _ _ (by decide)
  · exact State.evStep.refl _

theorem State.corrected_sameBut (m : Mem) (a sym : Nat) (A : List Nat) (h64 : 0x64 ∈ A) (h66 : 0x66 ∈ A) :
    ({ s with ecc := (s.corrected m a sym).ecc }).sameBut (s.corrected m a sym) A :=
  (s.errHeld_sameBut m 0 a false sym A h64 h66).eccs _

theorem State.corrected_ecc (m : Mem) (a sym : Nat) : (s.corrected m a sym).ecc = vupd s.ecc (mix m) fun e => e.corrected a := by
  have h : (s.errHeld m 0 a false sym).ecc = s.ecc := congrArg (·.ecc) (s.errHeld_sameBut m 0 a false sym [0x64, 0x66] (by decide) (by decide)).2.1
  unfold State.corrected
  rw [State.mm_ecc, h]

theorem State.evStep.ecc {s t : State} (h : s.evStep t) : t.ecc = s.ecc := congrArg (·.ecc) h.rest
theorem State.evStep.g {s t : State} (h : s.evStep t) (f : Fld) (hf : evWord f.a = false) : t.g f = s.g f :=
  State.word_eq_of_g _ _ f (h.word f.a hf)

/-- What follows the read: the scrubber's step, the end of the cycle. -/
def State.scrubDone (s : State) (now : Nat) (m : Mem) : State := (s.scrubStep now m).settle

theorem State.scrubDone_word (now : Nat) (m : Mem) (b : Nat) (h : 0x63 ≠ b) (hb : evWord b = false) :
    (s.scrubDone now m).word b = s.word b :=
  (State.settle_word _ b hb).trans (s.scrubStep_word now m b h)

theorem State.scrubDone_ecc (now : Nat) (m : Mem) :
    (s.scrubDone now m).ecc = vupd s.ecc (mix m) fun e => e.scrubbed (s.scrubLast m) now m := by
  unfold State.scrubDone
  rw [State.settle_ecc, State.scrubStep_ecc]

theorem State.scrubDone_sameBut {u : State} {A : List Nat} (h : ({ u with ecc := s.ecc }).sameBut s A) (now : Nat) (m : Mem) (h63 : 0x63 ∈ A) :
    ({ u with ecc := (s.scrubDone now m).ecc }).sameBut (s.scrubDone now m) A := by
  unfold State.scrubDone
  rw [State.settle_ecc]
  exact ((h.eccs _).trans (s.scrubStep_sameBut now m A h63)).settle

/-- A clean word: the scrubber goes on. -/
theorem scrubRead_clean (dt : Nat) (m : Mem) (h : (s.tickTo dt).scrubReady m = true)
    (c : symCount ((s.tickTo dt).badSyms m (s.tickTo dt).ecc[mix m].scrub) = 0) :
    exec (.scrubRead dt m) s = .next ((s.tickTo dt).scrubDone (s.tickTo dt).now m) := by
  rw [exec_scrubRead s dt m h]
  unfold State.memRead
  rw [if_pos c]
  rfl

theorem scrubRead_corrected (dt : Nat) (m : Mem) (h : (s.tickTo dt).scrubReady m = true)
    (c : symCount ((s.tickTo dt).badSyms m (s.tickTo dt).ecc[mix m].scrub) = 1) :
    exec (.scrubRead dt m) s = .next (((s.tickTo dt).memCorrected m (s.tickTo dt).ecc[mix m].scrub
      (firstSym ((s.tickTo dt).badSyms m (s.tickTo dt).ecc[mix m].scrub)) true).scrubDone (s.tickTo dt).now m) := by
  rw [exec_scrubRead s dt m h]
  unfold State.memRead
  rw [if_neg (by omega), if_pos c]
  rfl

theorem scrubRead_uncorrectable (dt : Nat) (m : Mem) (h : (s.tickTo dt).scrubReady m = true)
    (c : symCount ((s.tickTo dt).badSyms m (s.tickTo dt).ecc[mix m].scrub) = 2) :
    exec (.scrubRead dt m) s = .next ((((s.tickTo dt).errHeld m 1 (s.tickTo dt).ecc[mix m].scrub true 31).memResponse m
      (s.tickTo dt).ecc[mix m].scrub none).scrubDone (s.tickTo dt).now m) := by
  rw [exec_scrubRead s dt m h]
  unfold State.memRead
  rw [if_neg (by omega), if_neg (by omega), if_pos c]
  rfl

/-! ## The cases of Table 1-10 that the statement names -/

section
variable (u : State) (m : Mem)

theorem State.scrubDone_pass : (u.scrubDone u.now m).g (passFld m) = if u.scrubLast m then (u.g (passFld m) + 1) % 256 else u.g (passFld m) :=
  (State.settle_g _ _ (by cases m <;> decide)).trans (u.scrubStep_pass u.now m)

/-- A field of one bit. -/
theorem State.gb_bit (f : Fld) (h : f.w = 1) : u.gb f = bit (u.word f.a).toNat f.lo := by
  have lt := u.g_lt f
  unfold State.gb State.g at *
  rw [h] at lt ⊢
  rw [bit_eq_bits]
  generalize bits (u.word f.a).toNat f.lo 1 = x at lt
  interval_cases x <;> rfl

/-- A corrected word: counted and held as the first error, and it waits for write-back (R35, R38). -/
theorem State.memCorrected_scrubDone (a sym : Nat) (ha : a = u.ecc[mix m].scrub) (hs : sym < 32) :
    let t := (u.memCorrected m a sym true).scrubDone u.now m
    ({ u with ecc := t.ecc }).sameBut t [0x63, 0x64, 0x66] ∧
      t.ecc = vupd u.ecc (mix m) (fun e => { e with
        scrub := if u.scrubLast m then 0 else a + 1, passCorr := if u.scrubLast m then 0 else e.passCorr + 1, slotAt := u.nextSlot m,
        writeBack := if e.writeBack.contains a then e.writeBack else e.writeBack ++ [a] }) ∧
      t.g (cntFld m 0) = min (u.g (cntFld m 0) + 1) 65535 ∧ t.gb DEV_MEM_FIRST_VALID = true ∧
      (u.gb DEV_MEM_FIRST_VALID = false → t.g DEV_MEM_FIRST_SYM = sym ∧ t.gb DEV_MEM_FIRST_TYPE = false) := by
  subst ha
  have step := u.memCorrected_step m u.ecc[mix m].scrub sym
  have ecc := step.ecc.trans (u.corrected_ecc m u.ecc[mix m].scrub sym)
  obtain ⟨valid, type, lane⟩ := firstWord_fields m u.ecc[mix m].scrub false true sym
  have first : ((u.memCorrected m u.ecc[mix m].scrub sym true).scrubDone u.now m).word 0x66 =
      firstOver (u.word 0x66) (firstWord m u.ecc[mix m].scrub false true sym) :=
    (State.scrubDone_word _ u.now m 0x66 (by decide) (by decide)).trans
      ((step.word _ (by decide)).trans (u.errHeld_first m 0 _ false sym (by decide)))
  refine ⟨?_, ?_, ?_, ?_, fun none => ?_⟩
  · refine State.scrubDone_sameBut _ ?_ u.now m (by decide)
    have same := (u.corrected_sameBut m u.ecc[mix m].scrub sym [0x63, 0x64, 0x66] (by decide) (by decide)).step step
    rw [← step.ecc] at same
    exact same
  · have now : (u.memCorrected m u.ecc[mix m].scrub sym true).ecc[mix m] = u.ecc[mix m].corrected u.ecc[mix m].scrub := by
      rw [ecc, vupd_same]
    rw [State.scrubDone_ecc, ecc, vupd_vupd]
    refine vupd_congr _ _ ?_
    unfold State.scrubLast
    rw [now, ← State.slotAfter_eq]
    rfl
  · rw [← u.errHeld_count m 0 u.ecc[mix m].scrub false sym (by decide)]
    have ev : evWord (cntFld m 0).a = false := by cases m <;> decide
    exact State.word_eq_of_g _ _ _ ((State.scrubDone_word _ u.now m _ (by rw [cntFld_a]; omega) ev).trans (step.word _ ev))
  · rw [State.gb_bit _ DEV_MEM_FIRST_VALID rfl]
    exact (congrArg (fun w : Word => bit w.toNat 22) first).trans (firstOver_valid (by rw [bit_eq_bits, valid]; rfl))
  · rw [State.gb_bit _ DEV_MEM_FIRST_VALID rfl] at none
    have free : bit (u.word 0x66).toNat 22 = false := none
    rw [firstOver_none free] at first
    refine ⟨?_, ?_⟩
    · refine (congrArg (fun w : Word => bits w.toNat 17 5) first).trans (lane.trans (Nat.mod_eq_of_lt hs))
    · rw [State.gb_bit _ DEV_MEM_FIRST_TYPE rfl]
      exact (congrArg (fun w : Word => bit w.toNat 16) first).trans (by rw [bit_eq_bits, type]; rfl)

/-! ### Uncorrectable words -/

theorem State.enterSafe_dev : u.enterSafe.dev = .safe := by
  have calm : Calm ({ u with dev := .safe }) u.enterSafe := by
    unfold State.enterSafe
    dsimp only
    refine State.fbAdd_calm _ _ _ (State.levelOn_calm _ _ _ _ (State.v5Follow_calm _ (State.dumpOff_calm _ (State.stopAllCtx_calm _ _
      (Calm.upd (State.gathered_calm _ _ (fun t h => ?_) (State.bt_calm _ _ (Calm.refl _))) rfl)))))
    refine State.endAll_calm _ _ _ (Calm.forFin (fun n x hx => Calm.ite hx (State.axisFault_calm _ _ _ _ _ hx)) h)
  rcases calm.dev with h | h <;> exact h

/-- A SAFE cause in READY or RUN is an entry to SAFE (R132). -/
theorem State.safeCause_dev (i : Nat) (h : u.dev.rr = true ∨ u.dev = .safe) : (u.safeCause i).dev = .safe := by
  have cause : (u.putBit DEV_STATE_SAFE_CAUSE i true).dev = u.dev := rfl
  unfold State.safeCause
  cases d : u.dev with
  | ready | run =>
    dsimp only
    exact State.enterSafe_dev _
  | safe =>
    dsimp only
    rw [cause, d]
  | reset | optionLoad | boot | configLoad | recovery => simp [d, DevState.rr] at h

/-- The response to an uncorrectable word of the management memory (Table 1-10). -/
theorem State.memResponse_mgmt (a : Nat) : u.memResponse .mgmt a none = (u.pulse 5 1 0).halt.mwStop.safeCause scMEM := rfl

theorem State.memResponse_mgmt_halted (a : Nat) : (u.memResponse .mgmt a none).gb MG_SV_STAT_HALTED = true := by
  rw [State.memResponse_mgmt, State.gb_eq, show State.g _ MG_SV_STAT_HALTED = State.halted _ from rfl, State.safeCause_halted,
    State.mwStop_halted]
  exact State.halt_halted _

theorem State.memResponse_mgmt_safe (a : Nat) (h : u.dev.rr = true) : (u.memResponse .mgmt a none).dev = .safe := by
  rw [State.memResponse_mgmt]
  have calm : Calm u (u.pulse 5 1 0).halt.mwStop := State.mwStop_calm _ (State.halt_calm _ (State.pulse_calm _ _ _ _ (Calm.refl u)))
  refine State.safeCause_dev _ _ (calm.dev.imp_left fun e => ?_)
  rw [e]
  exact h

theorem State.memResponse_mgmt_event (a : Nat) : (u.memResponse .mgmt a none).evPending 5 = true := by
  rw [State.memResponse_mgmt]
  exact (State.safeCause_graver _ _ (State.mwStop_graver _ (State.halt_graver _ State.graver.refl))).pend 5 (by decide)
    (u.pulse_raises 5 1 0 (by decide))

/-- The response to an uncorrectable word in the motion memory of an axis. -/
theorem State.memResponse_axis (a : Nat) (n : Fin 8) (h : a / 0x600 = n) :
    u.memResponse .motion a none = (u.pulse 5 0 (a / 0x600 * 16)).axisFault n 0 afMEM CANCELLED_FAULT := by
  have hn : a / 0x600 < 8 := h ▸ n.isLt
  have row : motionRow a = 0 := if_pos (by omega)
  unfold State.memResponse
  dsimp only
  rw [row, if_pos rfl, if_pos rfl, dif_pos hn, Nat.zero_add]
  congr 1
  exact Fin.ext h

theorem State.errHeld_quell (k a : Nat) (A : List Nat) (hk : 0x64 + k ∈ A) (h66 : 0x66 ∈ A) : u.quelled (u.errHeld m k a true 31) A :=
  State.quelled.upd ((State.quelled.refl.inc _ (.inl (by rw [cntFld_a]; exact hk))).setWord _ _ (.inl h66))

/-- What stays and what is counted at an uncorrectable word, whatever the response. -/
theorem State.memResponse_scrubDone (a : Nat) (x : Option (Fin 4)) (A : List Nat) (h65 : 0x65 ∈ A) (h66 : 0x66 ∈ A) :
    let t := ((u.errHeld m 1 a true 31).memResponse m a x).scrubDone u.now m
    u.quelled t A ∧ t.g (cntFld m 1) = min (u.g (cntFld m 1) + 1) 65535 := by
  refine ⟨?_, ?_⟩
  · exact (State.scrubStep_quell _ _ _ (State.memResponse_quell _ _ _ _ (u.errHeld_quell m 1 a A h65 h66))).settle
  · rw [← u.errHeld_count m 1 a true 31 (by decide)]
    have q : (u.errHeld m 1 a true 31).quelled ((u.errHeld m 1 a true 31).memResponse m a x) [] :=
      State.memResponse_quell _ _ _ _ State.quelled.refl
    exact State.word_eq_of_g _ _ _ ((State.scrubDone_word _ u.now m _ (by rw [cntFld_a]; omega) (by cases m <;> decide)).trans
      (q.words _ List.not_mem_nil (by cases m <;> decide)))

end

/-- The scrubber's step and the end of the cycle take no pending event and no fault back. -/
theorem State.scrubDone_graver (now : Nat) (m : Mem) : s.graver (s.scrubDone now m) := by
  unfold State.scrubDone
  rw [State.scrubStep_eq]
  unfold State.passCounted
  refine State.graver.step (State.graver.upd ?_) (State.settle_step _)
  split
  · exact State.graver.refl.put _ _ (by cases m <;> decide)
  · exact State.graver.refl

theorem State.scrubDone_gb (now : Nat) (m : Mem) (f : Fld) (h : 0x63 ≠ f.a) (hf : evWord f.a = false) :
    (s.scrubDone now m).gb f = s.gb f := by
  rw [State.gb_eq, State.gb_eq, State.word_eq_of_g _ _ f (s.scrubDone_word now m f.a h hf)]

theorem State.scrubDone_dev (now : Nat) (m : Mem) : (s.scrubDone now m).dev = s.dev := by
  unfold State.scrubDone
  rw [State.settle_dev, State.scrubStep_dev]

theorem State.memResponse_mgmt_scrubDone (a now : Nat) :
    let t := (s.memResponse .mgmt a none).scrubDone now .mgmt
    t.gb MG_SV_STAT_HALTED = true ∧ t.evPending 5 = true ∧ (s.dev.rr = true → t.dev = .safe) := by
  refine ⟨?_, (State.scrubDone_graver _ _ _).pend 5 (by decide) (s.memResponse_mgmt_event a), fun rr => ?_⟩
  · rw [State.scrubDone_gb _ _ _ _ (by decide) (by decide)]
    exact s.memResponse_mgmt_halted a
  · rw [State.scrubDone_dev]
    exact s.memResponse_mgmt_safe a rr

theorem State.memResponse_axis_scrubDone (a now : Nat) (n : Fin 8) (h : a / 0x600 = n) :
    let t := (s.memResponse .motion a none).scrubDone now .motion
    t.axes[n].st = .fault ∧ bit (t.g (AX_FAULT_BITS n)) 5 = true ∧ t.evPending 5 = true := by
  have later := (s.memResponse .motion a none).scrubDone_graver now .motion
  have atAxis := s.memResponse_axis a n h
  refine ⟨later.fault ?_, later.flt n 5 ?_, later.pend 5 (by decide) ?_⟩ <;> rw [atAxis]
  · exact State.axisFault_st _ _ _ _ _
  · exact State.axisFault_flt _ _ _ _ _ 5 (by decide) (by decide)
  · exact (State.axisFault_graver _ _ _ _ _ State.graver.refl).pend 5 (by decide) (State.pulse_raises _ _ _ _ (by decide))

theorem firstSym_lt (x : Nat) : firstSym x < 32 := by
  unfold firstSym
  cases c : (List.range 20).find? fun i => bit x i with
  | none => decide
  | some i =>
    have := List.mem_range.1 (List.mem_of_find?_eq_some c)
    exact Nat.lt_trans this (by decide)

/-- Settles O1: by the number of inverted symbols, `State.scrubDone` after what the word sets off. -/
theorem scrubReadTreatsTheWord : Obligations.ScrubReadTreatsTheWord := by
  refine ⟨fun s dt m h c => ?_, fun s dt m h c => ?_, fun s dt h c => ?_, fun s dt n h c hn => ?_, fun s dt m h => ?_⟩
  · refine ⟨_, scrubRead_clean s dt m h c, ?_, ?_, (s.tickTo dt).scrubDone_pass m⟩
    · exact State.scrubDone_sameBut _ State.sameBut.refl _ m (by decide)
    · refine (State.scrubDone_ecc _ _ _).trans (vupd_congr _ _ ?_)
      rw [← State.slotAfter_eq]
      rfl
  · exact ⟨_, scrubRead_corrected s dt m h c, (s.tickTo dt).memCorrected_scrubDone m _ _ rfl (firstSym_lt _)⟩
  · obtain ⟨quelled, count⟩ := (s.tickTo dt).memResponse_scrubDone .mgmt (s.tickTo dt).ecc[mix .mgmt].scrub none [0x63, 0x65, 0x66]
      (by decide) (by decide)
    obtain ⟨halted, event, safe⟩ := ((s.tickTo dt).errHeld .mgmt 1 (s.tickTo dt).ecc[mix .mgmt].scrub true 31).memResponse_mgmt_scrubDone
      (s.tickTo dt).ecc[mix .mgmt].scrub (s.tickTo dt).now
    rw [State.errHeld_dev] at safe
    exact ⟨_, scrubRead_uncorrectable s dt .mgmt h c, quelled, count, halted, event, safe⟩
  · obtain ⟨quelled, count⟩ := (s.tickTo dt).memResponse_scrubDone .motion (s.tickTo dt).ecc[mix .motion].scrub none [0x65, 0x66]
      (by decide) (by decide)
    exact ⟨_, scrubRead_uncorrectable s dt .motion h c, quelled, count, State.memResponse_axis_scrubDone _ _ _ n hn⟩
  · exact exec_next (exec_scrubRead_not s dt m h) State.sameBut.refl.settle

end Sys2Proof.Machine
end

section
/-!
The line code of the Grelas pair (R206 to R208): the receiver reads off the line what was sent.
-/

namespace Sys2Proof.Machine

/-- A line whose half-bits carry the bits `l` first gives those bits. -/
theorem lineBits_flatMap (l r : List Bool) : lineBits (l.flatMap halfBits ++ r) = (l ++ (lineBits r).1, (lineBits r).2) := by
  induction l with
  | nil => rfl
  | cons b l ih =>
    change lineBits ((!b) :: b :: (l.flatMap halfBits ++ r)) = _
    rw [lineBits, if_pos (by cases b <;> rfl), ih]
    rfl

/-- Inverted half-bits carry inverted bits. -/
theorem flatMap_halfBits_map (inv : Bool) (l : List Bool) :
    (l.flatMap halfBits).map (fun h => h != inv) = (l.map fun h => h != inv).flatMap halfBits := by
  induction l with
  | nil => rfl
  | cons b l ih =>
    change ((!b) != inv) :: (b != inv) :: (l.flatMap halfBits).map (fun h => h != inv) = (!(b != inv)) :: (b != inv) :: _
    rw [ih]
    cases b <;> cases inv <;> rfl

/-- Inverted twice, a line is itself. -/
theorem map_bne_twice (inv : Bool) (l : List Bool) : (l.map fun h => h != inv).map (fun h => h != inv) = l := by
  rw [List.map_map]
  refine (List.map_congr_left fun b _ => ?_).trans (List.map_id l)
  cases b <;> cases inv <;> rfl

theorem lineByte_byteLine (x : Nat) (h : x < 256) : lineByte (byteLine x) = x := by
  have bits : byteLine x = [x.testBit 7, x.testBit 6, x.testBit 5, x.testBit 4, x.testBit 3, x.testBit 2, x.testBit 1, x.testBit 0] := by
    unfold byteLine
    rw [Nat.mod_eq_of_lt h]
    rfl
  rw [bits]
  have step (i : Nat) : 2 * (x / 2 ^ (i + 1)) + x / 2 ^ i % 2 = x / 2 ^ i := by
    rw [Nat.pow_succ, ← Nat.div_div_eq_div_mul]
    exact Nat.div_add_mod _ 2
  have top : 2 * 0 + x / 2 ^ 7 % 2 = x / 2 ^ 7 := by omega
  simp only [lineByte, List.foldl_cons, List.foldl_nil, Nat.toNat_testBit]
  rw [top, step 6, step 5, step 4, step 3, step 2, step 1, step 0, Nat.pow_zero, Nat.div_one]

theorem lineBytes_flatMap (bytes : List Nat) (h : ∀ b ∈ bytes, b < 256) : lineBytes (bytes.flatMap byteLine) = bytes := by
  induction bytes with
  | nil => rfl
  | cons x l ih =>
    have here : lineBytes (byteLine x ++ l.flatMap byteLine) = lineByte (byteLine x) :: lineBytes (l.flatMap byteLine) := rfl
    rw [List.flatMap_cons, here, lineByte_byteLine x (h x (List.mem_cons_self ..)), ih fun b hb => h b (List.mem_cons_of_mem _ hb)]

/-- What the receiver finds before and after the first missing transition: the preamble, then start delimiter, bytes and end. -/
theorem lineBits_lineOut (inv : Bool) (bytes : List Nat) : lineBits (lineOut inv bytes) =
    (linePreamble.map fun h => h != inv,
      (lineStart ++ ((bytes.flatMap byteLine).flatMap halfBits ++ lineEnd)).map fun h => h != inv) := by
  unfold lineOut
  rw [List.append_assoc, List.append_assoc, List.map_append, flatMap_halfBits_map, lineBits_flatMap]
  have stop : lineBits ((lineStart ++ ((bytes.flatMap byteLine).flatMap halfBits ++ lineEnd)).map fun h => h != inv) =
      ([], (lineStart ++ ((bytes.flatMap byteLine).flatMap halfBits ++ lineEnd)).map fun h => h != inv) := by
    cases inv <;> rfl
  rw [stop, List.append_nil]

/-- The receiver reads the polarity and the bytes off a line that was sent so (R207, R208). -/
theorem lineIn_lineOut (inv : Bool) (bytes : List Nat) (h : ∀ b ∈ bytes, b < 256) :
    lineIn (lineOut inv bytes) = some (inv, some bytes) := by
  have body : (lineBits ((bytes.flatMap byteLine).flatMap halfBits ++ lineEnd)).1 = bytes.flatMap byteLine := by
    rw [lineBits_flatMap]
    exact List.append_nil _
  have tail : (linePreamble.map fun h => h != inv).drop ((linePreamble.map fun h => h != inv).length - 4) =
      [false != inv, false != inv, true != inv, true != inv] := by cases inv <;> rfl
  have long : ¬ (linePreamble.map fun h => h != inv).length < 8 := by cases inv <;> decide
  have known : ([false != inv, false != inv, true != inv, true != inv] == [false, false, true, true] ||
      [false != inv, false != inv, true != inv, true != inv] == [true, true, false, false]) = true := by cases inv <;> rfl
  have head : [false != inv, false != inv, true != inv, true != inv].headD false = inv := by cases inv <;> rfl
  unfold lineIn
  rw [lineBits_lineOut]
  dsimp only
  rw [if_neg long, tail, if_pos known, head, map_bne_twice]
  have start : (lineStart ++ ((bytes.flatMap byteLine).flatMap halfBits ++ lineEnd)).take 4 = lineStart := rfl
  have rest : (lineStart ++ ((bytes.flatMap byteLine).flatMap halfBits ++ lineEnd)).drop 4 =
      (bytes.flatMap byteLine).flatMap halfBits ++ lineEnd := rfl
  rw [start, rest, body, if_pos (by decide), lineBytes_flatMap bytes h]

end Sys2Proof.Machine
end

section
/-!
The Grelas link's response (R214 to R217) and its tick-mark packets (R218, R221).
-/

namespace Sys2Proof.Machine

variable (s : State)

/-! ## The response is composed (R214, R215) -/

/-- Neither link state nor the Grelas link's own takes part in the end of a cycle. -/
theorem State.settled_links {s : State} (h : s.settled) (l : Vector LinkSt 2) (g : GrelasSt) :
    ({ s with links := l, grelas := g } : State).settled := h

/-- The same links on both sides. -/
theorem State.sameBut.links {s t : State} {A : List Nat} (h : s.sameBut t A) (l : Vector LinkSt 2) (g : GrelasSt) :
    ({ s with links := l, grelas := g }).sameBut { t with links := l, grelas := g } A := by
  obtain ⟨hn, hr, hw⟩ := h
  exact ⟨hn, congrArg (fun x : State => { x with links := l, grelas := g }) hr, hw⟩

/-- A reply as composition stamps it: EVSUM and ALERT of the instant, but for a repeated one whose original went before. -/
def State.stamped (s : State) (r : Reply) : Reply :=
  if !bit r.status 7 || s.grelas.slots.any fun q => !bit q.status 7 && q.dseq == r.dseq then
    { r with status := r.status / 2 * 2 + b2n s.alert, evsum := s.evsum } else r

/-- `l` is `k` but for the reply composed last. -/
structure LinkSt.replies (k l : LinkSt) : Prop where
  perfHseq : l.perfHseq = k.perfHseq
  dseq : l.dseq = k.dseq
  armed : l.armed = k.armed
  held : l.held = k.held

/-- What stamping changes: the slots, and the link's last reply. -/
theorem State.grStamp_eq : ∃ l, s.grStamp = { s with links := l, grelas := { s.grelas with slots := s.grelas.slots.map s.stamped } } ∧
    ∀ i : Fin 2, s.links[i].replies l[i] := by
  unfold State.grStamp
  dsimp only
  split
  · refine ⟨_, rfl, fun i => ?_⟩
    by_cases e : lix .gr = i
    · subst e
      rw [vupd_same]
      exact ⟨rfl, rfl, rfl, rfl⟩
    · rw [vupd_ne _ _ _ _ e]
      exact ⟨rfl, rfl, rfl, rfl⟩
  · exact ⟨_, rfl, fun i => ⟨rfl, rfl, rfl, rfl⟩⟩

/-- The Grelas link's state with its response fixed, slots as given. -/
def GrelasSt.fixed (g : GrelasSt) (now : Nat) (slots : List Reply) : GrelasSt := { g with slots := slots, todo := [], composed := some now }

theorem GrelasSt.fixed_of_todo {g : GrelasSt} (h : g.todo = []) (now : Nat) (slots : List Reply) :
    g.fixed now slots = { g with composed := some now, slots := slots } := by
  unfold GrelasSt.fixed
  rw [← h]

/-- The frame held back is dropped unperformed: the last reply takes its slot again (R185, R215). -/
def State.heldDropped (s : State) : State :=
  if (s.link .gr).held.isSome then (s.lnk .gr fun k => { k with held := none }).grAgain else s

/-- The response of what has a slot is fixed. -/
def State.responseFixed (s : State) : State :=
  let w := s.settle
  w.grStamp.gre fun g => { g with todo := [], composed := some w.now }

/-- A response fixed between two commands: slots stamped, nothing waits, links but for their last replies as they were. -/
theorem State.responseFixed_settle : ∃ l,
    s.responseFixed.settle = { s.settle with
      links := l, grelas := s.grelas.fixed s.now (s.grelas.slots.map s.settle.stamped) } ∧
    ∀ i : Fin 2, s.links[i].replies l[i] := by
  rw [← s.settle_now, ← s.settle_grelas, ← s.settle_links]
  unfold State.responseFixed
  generalize hu : s.settle = u
  have settled : u.settled := hu ▸ s.settle_settled
  obtain ⟨l, e, hl⟩ := u.grStamp_eq
  refine ⟨l, ?_, hl⟩
  dsimp only
  rw [e]
  exact State.settle_of_settled _ (State.settled_links settled l _)

/-- EVSUM and ALERT do not depend on the links. -/
theorem State.evsum_links (l : Vector LinkSt 2) (g : GrelasSt) : ({ s with links := l, grelas := g } : State).evsum = s.evsum := rfl

/-- Composition with no frame behind the held one. -/
theorem State.grCompose_eq (h : s.heldDropped.grelas.todo = []) : s.grCompose = s.heldDropped.responseFixed := by
  unfold State.heldDropped at h ⊢
  unfold State.grCompose State.responseFixed
  dsimp only
  rw [h, List.foldl_nil]

theorem exec_compose {dt since : Nat} (on : (s.tickTo dt).grelasOn = true) (poll : (s.tickTo dt).grelas.pollAt = some since)
    (open_ : (s.tickTo dt).grelas.composed = none)
    (due : (((s.tickTo dt).link .gr).held = none ∧ (s.tickTo dt).grelas.todo = []) ∨ since + 5600 ≤ (s.tickTo dt).now) :
    exec (.grelasResponseCompose dt) s = done (s.tickTo dt).grCompose := by
  change execGrelasResponseCompose dt s = _
  unfold execGrelasResponseCompose
  dsimp only
  rw [poll, open_]
  dsimp only
  rw [if_neg (by rw [on]; decide), if_pos]
  simp only [Bool.or_eq_true, Bool.and_eq_true, decide_eq_true_eq, Option.isNone_iff_eq_none, List.isEmpty_iff]
  refine due.imp id fun h => ?_
  change 5600 ≤ _
  omega

/-- A reply that repeats none is stamped. -/
theorem State.stamped_own (r : Reply) (h : r.status < 128) :
    s.stamped r = { r with status := r.status / 2 * 2 + b2n s.alert, evsum := s.evsum } := by
  have own : bit r.status 7 = false := by
    unfold bit
    rw [Nat.div_eq_of_lt (by omega : r.status < 2 ^ 7)]
    rfl
  unfold State.stamped
  rw [own]
  rfl

theorem State.settle_alert : s.settle.alert = s.alert := by
  unfold State.alert
  rw [State.settle_dev]

/-- The slots of a response of replies that repeat none. -/
theorem State.stamped_slots (slots : List Reply) (h : ∀ r ∈ slots, r.status < 128) :
    slots.map s.settle.stamped = slots.map fun r => { r with status := r.status / 2 * 2 + b2n s.alert, evsum := s.settle.evsum } := by
  refine List.map_congr_left fun r hr => ?_
  rw [s.settle.stamped_own r (h r hr), s.settle_alert]

theorem grelasCompose_taken (dt since : Nat) :
    let u := s.tickTo dt
    let g := u.grelas
    u.grelasOn = true → g.pollAt = some since → g.composed = none → (u.link .gr).held = none → g.todo = [] → (∀ r ∈ g.slots, r.status < 128) →
    ∃ t, Machine.exec (.grelasResponseCompose dt) s = .next t ∧
      ({ u with links := t.links, grelas := { g with composed := some u.now, slots := g.slots.map fun (r : Reply) => { r with status := r.status / 2 * 2 + b2n u.alert, evsum := t.evsum } } }).sameBut t [] ∧
      ∀ lk : Link, (t.link lk).perfHseq = (u.link lk).perfHseq ∧ (t.link lk).dseq = (u.link lk).dseq ∧ (t.link lk).armed = (u.link lk).armed := by
  intro u g on poll open_ free none own
  have kept : u.heldDropped = u := if_neg (by rw [free]; decide)
  have hx := exec_compose s on poll open_ (.inl ⟨free, none⟩)
  rw [State.grCompose_eq _ (by rw [kept]; exact none), kept] at hx
  obtain ⟨l, e, hl⟩ := u.responseFixed_settle
  refine ⟨_, hx.trans (congrArg Host.Outcome.next e), ?_, fun lk => ?_⟩
  · have slots := u.stamped_slots g.slots own
    have frame := (State.sameBut.refl (s := u) (A := [])).settle.links l (g.fixed u.now (g.slots.map u.settle.stamped))
    rw [State.evsum_links, ← slots, ← GrelasSt.fixed_of_todo none]
    exact frame
  · obtain ⟨perf, dseq, armed, -⟩ := hl (lix lk)
    exact ⟨perf, dseq, armed⟩

/-- Dropping the frame held back without a reset to answer: the last reply stands again, UNDERRUN counts, nothing else changes. -/
theorem State.heldDropped_eq {h : HeldFrame} (held : (s.link .gr).held = some h) (plain : (s.link .gr).rstDue = false) :
    s.heldDropped = ((s.lnk .gr fun k => { k with held := none }).inc LNK_GR_FCNT_UNDERRUN).gre fun g =>
      { g with slots := g.slots ++ [(s.link .gr).last.again] } := by
  unfold State.heldDropped
  rw [if_pos (by rw [held]; rfl)]
  unfold State.grAgain
  have own : ((s.lnk .gr fun k => { k with held := none }).inc LNK_GR_FCNT_UNDERRUN).link .gr = { s.link .gr with held := none } :=
    vupd_same _ _ _
  dsimp only
  rw [own, if_neg (by rw [plain]; decide)]

theorem State.put_word_congr {s t : State} (f : Fld) (v : Nat) (h : s.word f.a = t.word f.a) : (s.put f v).word f.a = (t.put f v).word f.a := by
  unfold State.put
  rw [State.setWord_word_same, State.setWord_word_same, h]

theorem State.gre_over (f : GrelasSt → GrelasSt) (l : Vector LinkSt 2) (g : GrelasSt) :
    { s.gre f with links := l, grelas := g } = { s with links := l, grelas := g } := rfl

theorem State.lnk_over (x : Link) (f : LinkSt → LinkSt) (l : Vector LinkSt 2) (g : GrelasSt) :
    { s.lnk x f with links := l, grelas := g } = { s with links := l, grelas := g } := rfl

/-- What dropping the frame held back leaves. -/
theorem State.heldDropped_leaves {h : HeldFrame} (held : (s.link .gr).held = some h) (plain : (s.link .gr).rstDue = false) :
    s.heldDropped.grelas = { s.grelas with slots := s.grelas.slots ++ [(s.link .gr).last.again] } ∧
    (s.heldDropped.links[lix .gr].held = none ∧ s.heldDropped.links[lix .gr].perfHseq = (s.link .gr).perfHseq) ∧
    s.heldDropped.word 0x53 = (s.put LNK_GR_FCNT_UNDERRUN (min (s.g LNK_GR_FCNT_UNDERRUN + 1) 255)).word 0x53 ∧
    ∀ (l : Vector LinkSt 2) (g : GrelasSt), ({ s with links := l, grelas := g }).sameBut { s.heldDropped with links := l, grelas := g } [0x53] := by
  rw [s.heldDropped_eq held plain]
  have link : (vupd s.links (lix .gr) fun k => { k with held := none })[lix .gr] = { s.link .gr with held := none } := vupd_same _ _ _
  have count (x : Nat) : satU 8 x = min x 255 := rfl
  have inc : (s.lnk .gr fun k => { k with held := none }).inc LNK_GR_FCNT_UNDERRUN =
      (s.lnk .gr fun k => { k with held := none }).put LNK_GR_FCNT_UNDERRUN (min (s.g LNK_GR_FCNT_UNDERRUN + 1) 255) := by
    rw [State.inc_eq, ← count]
    rfl
  rw [inc]
  generalize min (s.g LNK_GR_FCNT_UNDERRUN + 1) 255 = v
  refine ⟨?_, ⟨congrArg LinkSt.held link, (congrArg LinkSt.perfHseq link).trans rfl⟩, ?_, fun l g => ?_⟩
  · rw [State.gre_grelas, State.put_grelas, State.lnk_grelas]
  · rw [State.gre_word]
    exact State.put_word_congr LNK_GR_FCNT_UNDERRUN v (s.lnk_word ..)
  · rw [State.gre_over, ← s.lnk_over .gr fun k => { k with held := none }]
    exact (State.sameBut.refl.put _ v (by decide)).links l g

theorem grelasCompose_dropped (dt since : Nat) (h : HeldFrame) :
    let u := s.tickTo dt
    let g := u.grelas
    u.grelasOn = true → g.pollAt = some since → g.composed = none → (u.link .gr).held = some h → (u.link .gr).rstDue = false → g.todo = [] → since + 5600 ≤ u.now →
    ∃ t, Machine.exec (.grelasResponseCompose dt) s = .next t ∧
      ({ u with links := t.links, grelas := { g with composed := some u.now, slots := t.grelas.slots } }).sameBut t [0x53] ∧
      t.grelas.slots.length = g.slots.length + 1 ∧ (t.link .gr).held = none ∧ (t.link .gr).perfHseq = (u.link .gr).perfHseq ∧
      t.word 0x53 = (u.put LNK_GR_FCNT_UNDERRUN (min (u.g LNK_GR_FCNT_UNDERRUN + 1) 255)).word 0x53 := by
  intro u g on poll open_ held plain none late
  have hx := exec_compose s on poll open_ (.inr late)
  obtain ⟨grelas, ⟨held', perf⟩, word, frame⟩ := u.heldDropped_leaves held plain
  rw [State.grCompose_eq _ (by rw [grelas]; exact none)] at hx
  generalize u.heldDropped = v at *
  obtain ⟨l, e, hl⟩ := v.responseFixed_settle
  obtain ⟨perf', -, -, hheld⟩ := hl (lix .gr)
  have now : v.now = u.now := (frame v.links v.grelas).1
  rw [now] at e
  refine ⟨_, hx.trans (congrArg Host.Outcome.next e), ?_, ?_, ?_, ?_, ?_⟩
  · rw [← GrelasSt.fixed_of_todo (none : g.todo = [])]
    have fixed : v.grelas.fixed u.now (v.grelas.slots.map v.settle.stamped) = g.fixed u.now (v.grelas.slots.map v.settle.stamped) := by
      rw [grelas]
      rfl
    rw [fixed]
    exact (frame _ _).settle.links l _
  · have len : (v.grelas.slots.map v.settle.stamped).length = g.slots.length + 1 := by
      rw [List.length_map, grelas, List.length_append]
      rfl
    exact len
  · exact hheld.trans held'
  · exact perf'.trans perf
  · exact (State.settle_word v 0x53 (by decide)).trans word

end Sys2Proof.Machine
end

section
/-!
The Grelas link's response is sent (R214), and its tick-mark packets (R218, R221).
-/

namespace Sys2Proof.Machine

variable (s : State)

/-! ## No composition, transmission (R208, R214) -/

/-- Composition has no poll to answer, has been done, or is not due. -/
theorem grelasCompose_not (dt : Nat) :
    let u := s.tickTo dt
    (u.grelasOn = false ∨ u.grelas.pollAt = none ∨ u.grelas.composed ≠ none ∨ (u.grelas.todo ≠ [] ∧ ∀ x ∈ u.grelas.pollAt, u.now < x + 5600)) →
    ∃ t, Machine.exec (.grelasResponseCompose dt) s = .next t ∧ u.sameBut t [] := by
  intro u h
  have stays : exec (.grelasResponseCompose dt) s = done u := by
    change execGrelasResponseCompose dt s = _
    unfold execGrelasResponseCompose
    refine congrArg done ?_
    change (match u.grelas.pollAt, u.grelas.composed with | some t, none => _ | _, _ => _) = u
    split
    case h_1 since poll open_ =>
      rcases h with off | gone | composed | ⟨waiting, early⟩
      · exact if_pos (by rw [off]; rfl)
      · exact absurd (gone.symm.trans poll) (by simp)
      · exact absurd open_ composed
      · have notDue : ((u.link .gr).held.isNone && u.grelas.todo.isEmpty || decide (u.now - since ≥ usCyc 14)) = false := by
          have := early since poll
          have late : ¬ u.now - since ≥ usCyc 14 := by
            change ¬ 5600 ≤ _
            omega
          rw [decide_eq_false late, List.isEmpty_eq_false_iff.2 waiting, Bool.and_false]
          rfl
        split
        · rfl
        · exact if_neg (by rw [← Bool.not_eq_true] at notDue; exact notDue)
    case h_2 => rfl
  exact exec_next stays State.sameBut.refl.settle

/-- What transmission leaves of a poll that has its response. -/
theorem exec_transmit {dt since c : Nat} (poll : (s.tickTo dt).grelas.pollAt = some since) (composed : (s.tickTo dt).grelas.composed = some c) :
    exec (.grelasResponseTransmit dt) s = done (
      let u := s.tickTo dt
      if u.now - since > 8000 || !u.grelasOn then u.gre fun g => { g with pollAt := none, composed := none }
      else if u.now - c ≥ 800 && u.now - since ≥ 1600 then
        u.gre fun g => { g with sent := lineOut g.inv u.grPacket, pollAt := none, composed := none }
      else u) := by
  change execGrelasResponseTransmit dt s = _
  unfold execGrelasResponseTransmit
  dsimp only
  rw [poll, composed]
  rfl

theorem grelasTransmit_sends (dt since c : Nat) :
    let u := s.tickTo dt
    let g := u.grelas
    u.grelasOn = true → g.pollAt = some since → g.composed = some c →
    ∃ t, Machine.exec (.grelasResponseTransmit dt) s = .next t ∧
      (if since + 8000 < u.now then { u with grelas := { g with pollAt := none, composed := none } }
      else if c + 800 ≤ u.now ∧ since + 1600 ≤ u.now then
        { u with grelas := { g with pollAt := none, composed := none, sent := lineOut g.inv u.grPacket } }
      else u).sameBut t [] := by
  intro u g on poll composed
  refine exec_next (exec_transmit s poll composed) (State.sameBut.settle ?_)
  change State.sameBut _ (if u.now - since > 8000 || !u.grelasOn then _ else if u.now - c ≥ 800 && u.now - since ≥ 1600 then _ else u) _
  have late : (u.now - since > 8000 || !u.grelasOn) = decide (since + 8000 < u.now) := by
    rw [on, Bool.not_true, Bool.or_false]
    exact decide_eq_decide.2 (by omega)
  have ready : (u.now - c ≥ 800 && u.now - since ≥ 1600) = decide (c + 800 ≤ u.now ∧ since + 1600 ≤ u.now) := by
    rw [Bool.decide_and]
    exact congr (congrArg _ (decide_eq_decide.2 (by omega))) (decide_eq_decide.2 (by omega))
  rw [late, ready]
  simp only [decide_eq_true_eq]
  split
  · exact State.sameBut.refl
  · split
    · exact State.sameBut.refl
    · exact State.sameBut.refl

theorem grelasTransmit_not (dt : Nat) :
    let u := s.tickTo dt
    let g := u.grelas
    (u.grelasOn = false ∨ g.pollAt = none ∨ g.composed = none) →
    ∃ t, Machine.exec (.grelasResponseTransmit dt) s = .next t ∧
      (if g.pollAt.isSome ∧ g.composed.isSome then { u with grelas := { g with pollAt := none, composed := none } } else u).sameBut t [] := by
  intro u g h
  by_cases both : g.pollAt.isSome ∧ g.composed.isSome
  · obtain ⟨since, poll⟩ := Option.isSome_iff_exists.1 both.1
    obtain ⟨c, composed⟩ := Option.isSome_iff_exists.1 both.2
    have off : u.grelasOn = false := by
      rcases h with off | gone | gone
      · exact off
      · exact absurd (gone.symm.trans poll) (by simp)
      · exact absurd (gone.symm.trans composed) (by simp)
    rw [if_pos both]
    refine exec_next (exec_transmit s poll composed) (State.sameBut.settle ?_)
    change State.sameBut _ (if u.now - since > 8000 || !u.grelasOn then _ else _) _
    rw [if_pos (by rw [off, Bool.not_false, Bool.or_true])]
    exact State.sameBut.refl
  · rw [if_neg both]
    have stays : exec (.grelasResponseTransmit dt) s = done u := by
      change execGrelasResponseTransmit dt s = _
      unfold execGrelasResponseTransmit
      refine congrArg done ?_
      change (match u.grelas.pollAt, u.grelas.composed with | some t, some c => _ | _, _ => _) = u
      split
      case h_1 since c poll composed => exact absurd ⟨Option.isSome_iff_exists.2 ⟨_, poll⟩, Option.isSome_iff_exists.2 ⟨_, composed⟩⟩ both
      case h_2 => rfl
    exact exec_next stays State.sameBut.refl.settle

/-! ## Tick-mark packets (R218, R221) -/

/-- What came with the present cycle does not count as a change. -/
theorem State.sameBut.cycle (g : GrelasSt) (c : CycSt) (A : List Nat) : ({ s with grelas := g }).sameBut { s with grelas := g, cyc := c } A :=
  ⟨rfl, rfl, fun _ _ _ => rfl⟩

theorem State.sameBut.put_cycle (c : CycSt) (f : Fld) (v : Nat) (A : List Nat) :
    (s.put f v).sameBut (({ s with cyc := c } : State).put f v) A := ⟨rfl, rfl, fun _ _ _ => rfl⟩

theorem exec_tickPacket {dt : Nat} {p : Packet} {q : GrPacket} (on : (s.tickTo dt).grelasOn = true) (line : lineIn p.line = some (q.inverted, some q.bytes))
    (whole : pkWhole q = true) (crc : pkCrc q = true) (fits : pkFits q = true) (type : pkType q = 2) :
    exec (.grelasTickPacket dt p) s = done (((s.tickTo dt).earlier fun s => s.putB LNK_GR_STAT_RX_INV q.inverted).grTick q) := by
  change execGrelasTickPacket dt p s = _
  have check : (s.tickTo dt).grCheck p = ((s.tickTo dt).earlier fun s => s.putB LNK_GR_STAT_RX_INV q.inverted, some q) := by
    unfold State.grCheck
    rw [on, line]
    dsimp only
    rw [whole, crc, fits, type]
    rfl
  unfold execGrelasTickPacket State.grPacketIn
  rw [check]
  dsimp only
  rw [if_pos type]

/-- A tick packet's mark is due a microsecond and the delay later. -/
def GrelasSt.markDue (g : GrelasSt) (at_ num : Nat) : GrelasSt :=
  { g with mark := some at_, tickNum := some num, lastTick := some num }

theorem grelasTickPacket_marks (dt : Nat) (p : Packet) (q : GrPacket) (num : Nat) :
    let u := s.tickTo dt
    u.grelasOn = true → lineIn p.line = some (q.inverted, some q.bytes) → pkWhole q = true → pkCrc q = true → pkFits q = true → pkType q = 2 → u.gb LNK_GR_CFG_AUTH = false →
    ofBytes (pkBytes q 2 4) = num →
    ∃ t, Machine.exec (.grelasTickPacket dt p) s = .next t ∧
      ({ u.putB LNK_GR_STAT_RX_INV q.inverted with grelas := { u.grelas with
        mark := some (u.now + 400 + u.g LNK_GR_TICK_DELAY), tickNum := some num, lastTick := some num } }).sameBut t [] := by
  intro u on line whole crc fits type auth num_eq
  refine exec_next (exec_tickPacket s on line whole crc fits type) (State.sameBut.settle ?_)
  change State.sameBut { u.putB LNK_GR_STAT_RX_INV q.inverted with grelas := u.grelas.markDue (u.now + 400 + u.g LNK_GR_TICK_DELAY) num }
    ((u.earlier fun s => s.putB LNK_GR_STAT_RX_INV q.inverted).grTick q) []
  generalize hw : (u.earlier fun s => s.putB LNK_GR_STAT_RX_INV q.inverted) = w
  have plain : w.gb LNK_GR_CFG_AUTH = false := by
    rw [← hw]
    exact (congrArg (· != 0) (u.put_g_ne LNK_GR_STAT_RX_INV LNK_GR_CFG_AUTH _ (by decide))).trans auth
  have delay : w.g LNK_GR_TICK_DELAY = u.g LNK_GR_TICK_DELAY := by
    rw [← hw]
    exact u.put_g_ne LNK_GR_STAT_RX_INV LNK_GR_TICK_DELAY _ (by decide)
  have due : w.grTick q = w.gre fun g => g.markDue (w.now + 400 + w.g LNK_GR_TICK_DELAY) num := by
    unfold State.grTick GrelasSt.markDue
    dsimp only
    rw [plain, num_eq]
    rfl
  rw [due, delay, ← hw]
  exact State.sameBut.cycle _ _ _ _

theorem grelasTickPacket_untagged (dt : Nat) (p : Packet) (q : GrPacket) :
    let u := s.tickTo dt
    u.grelasOn = true → lineIn p.line = some (q.inverted, some q.bytes) → pkWhole q = true → pkCrc q = true → pkFits q = true → pkType q = 2 → pkAuth q = false →
    u.gb LNK_GR_CFG_AUTH = true →
    ∃ t, Machine.exec (.grelasTickPacket dt p) s = .next t ∧
      ((u.putB LNK_GR_STAT_RX_INV q.inverted).put LNK_GR_CNT_TAG_ERR (min (u.g LNK_GR_CNT_TAG_ERR + 1) 255)).sameBut t [] := by
  intro u on line whole crc fits type untagged auth
  refine exec_next (exec_tickPacket s on line whole crc fits type) (State.sameBut.settle ?_)
  change State.sameBut _ ((u.earlier fun s => s.putB LNK_GR_STAT_RX_INV q.inverted).grTick q) []
  generalize hw : (u.earlier fun s => s.putB LNK_GR_STAT_RX_INV q.inverted) = w
  have asks : w.gb LNK_GR_CFG_AUTH = true := by
    rw [← hw]
    exact (congrArg (· != 0) (u.put_g_ne LNK_GR_STAT_RX_INV LNK_GR_CFG_AUTH _ (by decide))).trans auth
  have count : w.g LNK_GR_CNT_TAG_ERR = u.g LNK_GR_CNT_TAG_ERR := by
    rw [← hw]
    exact u.put_g_ne LNK_GR_STAT_RX_INV LNK_GR_CNT_TAG_ERR _ (by decide)
  have counted : w.grTick q = w.put LNK_GR_CNT_TAG_ERR (min (u.g LNK_GR_CNT_TAG_ERR + 1) 255) := by
    have sat (x : Nat) : satU 8 x = min x 255 := rfl
    have bad (x : Nat) : w.grTagged q 0 x = false := by
      unfold State.grTagged
      rw [untagged, Bool.false_and]
    unfold State.grTick
    dsimp only
    rw [asks, bad, Bool.false_and, Bool.not_false, Bool.and_true, if_pos rfl, State.inc_eq, count, ← sat]
    rfl
  rw [counted, ← hw]
  exact State.sameBut.put_cycle _ _ _ _ _

/-! ## The packet's mark is issued (R218, R221) -/

theorem grelasMark_early (dt : Nat) (pins : BitVec 48) :
    let u := s.tickTo dt
    (∀ due ∈ u.grelas.mark, u.now < due) → ∃ t, Machine.exec (.grelasMarkIssue dt pins) s = .next t ∧ u.sameBut t [] := by
  intro u early
  have stays : exec (.grelasMarkIssue dt pins) s = done u := by
    change execGrelasMarkIssue dt pins s = _
    unfold execGrelasMarkIssue
    refine congrArg done ?_
    change (match u.grelas.mark with | some t => _ | none => u) = u
    split
    case h_1 due mark => exact if_pos (early due mark)
    case h_2 => rfl
  exact exec_next stays State.sameBut.refl.settle

/-- The mark's instant has come. -/
theorem exec_markIssue {dt due : Nat} {pins : BitVec 48} (mark : (s.tickTo dt).grelas.mark = some due) (came : due ≤ (s.tickTo dt).now) :
    exec (.grelasMarkIssue dt pins) s =
      done (if (s.tickTo dt).grMark.tickSrc = 2 then (s.tickTo dt).grMark.extMark pins else (s.tickTo dt).grMark) := by
  change execGrelasMarkIssue dt pins s = _
  unfold execGrelasMarkIssue
  dsimp only
  rw [mark]
  dsimp only
  rw [if_neg (Nat.not_lt.2 came)]

/-- The Grelas link's state after the mark of a packet. -/
def GrelasSt.marked (g : GrelasSt) (now left period : Nat) : GrelasSt :=
  { g with tickNum := none, lastPkt := some now, marksLeft := left, mark := if left = 0 then none else some (now + period) }

/-- The number's registers, the period and the source in force have words of their own. -/
theorem State.numbered_g (num : Nat) (f : Fld) (h : f.a ≠ 0x56 ∧ f.a ≠ 0x51) :
    ((s.put LNK_GR_TICKNUM_TICKNUM num).put LNK_GR_STAT_MARK_OK 1).g f = s.g f :=
  (State.put_g_ne _ _ f _ h.2.symm).trans (s.put_g_ne _ f _ h.1.symm)

theorem or1_eq_max (x : Nat) : or1 x = max x 1 := by
  unfold or1
  split <;> omega

theorem State.grMark_of_packet {num : Nat} (h : s.grelas.tickNum = some num) :
    s.grMark = ((s.put LNK_GR_TICKNUM_TICKNUM num).put LNK_GR_STAT_MARK_OK 1).gre fun g =>
      g.marked s.now (max (s.g LNK_GR_CFG_MARK_DIV) 1 - 1) (s.g CLK_TICK_CFG_PERIOD) := by
  have period : (((s.put LNK_GR_TICKNUM_TICKNUM num).put LNK_GR_STAT_MARK_OK 1).gre fun g => { g with lastPkt := some s.now }).g CLK_TICK_CFG_PERIOD =
      s.g CLK_TICK_CFG_PERIOD := (State.gre_g _ _ _).trans (s.numbered_g num _ (by decide))
  unfold State.grMark
  rw [h]
  dsimp only
  rw [or1_eq_max, period]
  rfl

theorem State.grMark_further (h : s.grelas.tickNum = none) :
    s.grMark = s.gre fun g => { g with
      tickNum := none, marksLeft := g.marksLeft - 1, mark := if g.marksLeft - 1 = 0 then none else some (s.now + s.g CLK_TICK_CFG_PERIOD) } := by
  unfold State.grMark
  rw [h]
  rfl

/-- The source in force stands in CLK_TICK_CFG, which the mark of a packet leaves. -/
theorem State.grMark_g (f : Fld) (h : f.a ≠ 0x56 ∧ f.a ≠ 0x51) : s.grMark.g f = s.g f := by
  cases hn : s.grelas.tickNum with
  | none => rw [s.grMark_further hn, State.gre_g]
  | some num => rw [s.grMark_of_packet hn, State.gre_g, s.numbered_g num f h]

theorem State.grMark_tickSrc : s.grMark.tickSrc = s.tickSrc := by
  unfold State.tickSrc
  rw [s.grMark_g _ (by decide)]

theorem grelasMark_notSource (dt : Nat) (pins : BitVec 48) (due num : Nat) :
    let u := s.tickTo dt
    u.grelas.mark = some due → due ≤ u.now → u.grelas.tickNum = some num → u.tickSrc ≠ 2 →
    ∃ t, Machine.exec (.grelasMarkIssue dt pins) s = .next t ∧
      (let left := max (u.g LNK_GR_CFG_MARK_DIV) 1 - 1
      ({ (u.put LNK_GR_TICKNUM_TICKNUM num).put LNK_GR_STAT_MARK_OK 1 with grelas := { u.grelas with
        tickNum := none, lastPkt := some u.now, marksLeft := left, mark := if left = 0 then none else some (u.now + u.g CLK_TICK_CFG_PERIOD) } }).sameBut t []) := by
  intro u mark came tickNum src
  refine exec_next (exec_markIssue s mark came) (State.sameBut.settle ?_)
  have other : ¬ u.grMark.tickSrc = 2 := by rw [u.grMark_tickSrc]; exact src
  rw [if_neg other, u.grMark_of_packet tickNum]
  exact State.sameBut.refl

end Sys2Proof.Machine
end

section
/-!
What no tick mark writes: the stores, the indirect write queue, the Grelas link's state and the number of its last mark. Each
operation of the mark leaves them; operations stand in the order in which they call one another.
-/

namespace Sys2Proof.Machine

/-- The stores, the indirect write queue, the Grelas link's state, and LNK_GR_TICKNUM. -/
def State.lasting (s : State) : (Otp × List (Nat × Byte) × Nvm × List (Nat × BitVec 64) × RegFile × RegFile) × List IndWrite × GrelasSt × Word :=
  (s.stored, s.indQ, s.grelas, s.word 0x56)

variable (s : State)

/-! ## Registers, containers, folds -/

theorem State.setWord_lasting (a : Nat) (w : Word) (h : a ≠ 0x56) : (s.setWord a w).lasting = s.lasting := by
  unfold State.lasting
  rw [State.setWord_word_ne _ _ _ _ h]
  rfl

theorem State.put_lasting (f : Fld) (v : Nat) (h : f.a ≠ 0x56) : (s.put f v).lasting = s.lasting := s.setWord_lasting _ _ h
theorem State.putB_lasting (f : Fld) (b : Bool) (h : f.a ≠ 0x56) : (s.putB f b).lasting = s.lasting := s.setWord_lasting _ _ h
theorem State.putI_lasting (f : Fld) (v : Int) (h : f.a ≠ 0x56) : (s.putI f v).lasting = s.lasting := s.setWord_lasting _ _ h
theorem State.putBit_lasting (f : Fld) (i : Nat) (b : Bool) (h : f.a ≠ 0x56) : (s.putBit f i b).lasting = s.lasting := s.setWord_lasting _ _ h
theorem State.inc_lasting (f : Fld) (h : f.a ≠ 0x56) : (s.inc f).lasting = s.lasting := s.setWord_lasting _ _ h

/-- An update of nothing that lasts; the hypothesis, always `rfl`, names the state that is updated. -/
theorem State.upd_lasting {pending now dev staged groups links mbox window cmds nextId lastEnd backlog rings evq evLost levels cap tick arb ecc axes coils stations ctxs chainOut chainRst chainRej chainReach chainStall chainMode boot power surv free cyc} (h : window = s.window) :
    State.lasting ⟨⟨dev, s.regs, staged, groups, links, s.grelas, mbox, s.indQ, window, cmds, nextId, lastEnd, backlog, rings, evq, evLost, levels, cap, tick, arb, ecc, axes, coils, stations, ctxs, s.store, s.chain, chainOut, chainRst, chainRej, chainReach, chainStall, chainMode, boot, power, surv, s.nvm, s.otp, s.flash, free⟩, pending, now, cyc⟩ = s.lasting := by
  subst h
  rfl

theorem State.ite_lasting (c : Prop) [Decidable c] (a b : State) : (if c then a else b).lasting = if c then a.lasting else b.lasting :=
  apply_ite State.lasting c a b

theorem foldl_lasting {ι : Type} (l : List ι) (f : State → ι → State) (h : ∀ x i, (f x i).lasting = x.lasting) :
    (l.foldl f s).lasting = s.lasting := foldl_ind (fun t => t.lasting = s.lasting) l f (fun x i k => (h x i).trans k) s rfl

theorem forFin_lasting {k : Nat} (f : Fin k → State → State) (h : ∀ i x, (f i x).lasting = x.lasting) :
    (forFin k f s).lasting = s.lasting := forFin_ind (fun t => t.lasting = s.lasting) k f (fun i x c => (h i x).trans c) s rfl

theorem State.ax_lasting (n : Fin 8) (f : Axis → Axis) : (s.ax n f).lasting = s.lasting := s.upd_lasting rfl
theorem State.co_lasting (c : Fin 16) (f : Coil → Coil) : (s.co c f).lasting = s.lasting := s.upd_lasting rfl
theorem State.stn_lasting (t : Fin 2) (f : Station → Station) : (s.stn t f).lasting = s.lasting := s.upd_lasting rfl
theorem State.ctx_lasting (x : Fin 4) (f : Ctx → Ctx) : (s.ctx x f).lasting = s.lasting := s.upd_lasting rfl
theorem State.su_lasting (f : SurvSt → SurvSt) : (s.su f).lasting = s.lasting := s.upd_lasting rfl
theorem State.bt_lasting (f : BootSt → BootSt) : (s.bt f).lasting = s.lasting := s.upd_lasting rfl
theorem State.mm_lasting (m : Mem) (f : EccSt → EccSt) : (s.mm m f).lasting = s.lasting := s.upd_lasting rfl
theorem State.ring_lasting (q : Fin 5) (f : RecRing → RecRing) : (s.ring q f).lasting = s.lasting := s.upd_lasting rfl
theorem State.dpt_lasting (n : Fin 8) (f : DatumSt → DatumSt) : (s.dpt n f).lasting = s.lasting := s.upd_lasting rfl
theorem State.ob_lasting (n : Fin 8) (f : ObsSt → ObsSt) : (s.ob n f).lasting = s.lasting := s.upd_lasting rfl
theorem State.bdu_lasting (n : Fin 8) (f : BackdriveSt → BackdriveSt) : (s.bdu n f).lasting = s.lasting := s.upd_lasting rfl
theorem State.mon_lasting (n : Fin 8) (f : MonSt → MonSt) : (s.mon n f).lasting = s.lasting := s.upd_lasting rfl
theorem State.cmdUpd_lasting (id : Nat) (f : Cmd → Cmd) : (s.cmdUpd id f).lasting = s.lasting := s.upd_lasting rfl
theorem State.cause_lasting (id st : Nat) : (s.cause id st).lasting = s.lasting := s.upd_lasting rfl
theorem State.setPh_lasting (id : Nat) (p : Phase) : (s.setPh id p).lasting = s.lasting := s.upd_lasting rfl
theorem State.useFree_lasting : s.useFree.lasting = s.lasting := s.upd_lasting rfl
theorem State.bridgesOff_lasting (n : Fin 8) : (s.bridgesOff n).lasting = s.lasting := s.upd_lasting rfl

/-! ## Entries to FAULT and to SAFE -/

/-- What an entry to FAULT or to SAFE leaves, lasts. -/
theorem State.quelled.lasting {s t : State} (h : s.quelled t []) : t.lasting = s.lasting := by
  unfold State.lasting State.stored
  rw [h.otp, h.flash, h.nvm, h.store, h.window, h.chain, h.indQ, h.grelas, h.words 0x56 (by simp) (by decide)]

theorem State.pulse_lasting (e idx detail : Nat) (h : e < 64) : (s.pulse e idx detail).lasting = s.lasting :=
  (State.pulse_quell s e idx detail h .refl).lasting
theorem State.noteLast_lasting (c : Cmd) (st : Nat) : (s.noteLast c st).lasting = s.lasting := (State.noteLast_quell s c st .refl).lasting
theorem State.flushEnds_lasting : s.flushEnds.lasting = s.lasting := (State.flushEnds_quell s .refl).lasting
theorem State.axisFault_lasting (n : Fin 8) (pwr ax st : Nat) : (s.axisFault n pwr ax st).lasting = s.lasting :=
  (State.axisFault_quell s n pwr ax st .refl).lasting
theorem State.axisFaultIf_lasting (n : Fin 8) (pwr ax st : Nat) : (s.axisFaultIf n pwr ax st).lasting = s.lasting :=
  (State.axisFaultIf_quell s n pwr ax st .refl).lasting
theorem State.followLeave_lasting (n : Fin 8) : (s.followLeave n).lasting = s.lasting := (State.followLeave_quell s n .refl).lasting
theorem State.tripAxis_lasting (n : Fin 8) : (s.tripAxis n).lasting = s.lasting := (State.tripAxis_quell s n .refl).lasting
theorem State.capture_lasting (item idx : Nat) (ws : List Nat) : (s.capture item idx ws).lasting = s.lasting :=
  (State.capture_quell s item idx ws .refl).lasting
theorem State.stopCtx_lasting (x : Fin 4) (cause : Nat) : (s.stopCtx x cause).lasting = s.lasting := (State.stopCtx_quell s x cause .refl).lasting
theorem State.fbAdd_lasting (typ : Nat) (payload : List Nat) : (s.fbAdd typ payload).lasting = s.lasting :=
  (State.fbAdd_quell s typ payload .refl).lasting
theorem State.mwAbandon_lasting : s.mwAbandon.lasting = s.lasting := (State.mwAbandon_quell s .refl).lasting
theorem State.memResponse_lasting (m : Mem) (a : Nat) (x : Option (Fin 4)) : (s.memResponse m a x).lasting = s.lasting :=
  (State.memResponse_quell s m a x .refl).lasting

theorem State.gathered_lasting (f : State → State) (h : ∀ x, (f x).lasting = x.lasting) : (s.gathered f).lasting = s.lasting := by
  unfold State.gathered
  split
  · exact h s
  · exact (State.flushEnds_lasting _).trans (h _)

/-! ## The mark's own work (step 1 of the tick) -/

theorem State.moveTick_lasting (t : Fin 2) : (s.moveTick t).lasting = s.lasting := by
  unfold State.moveTick
  split
  · split
    · rw [State.stn_lasting, State.put_lasting _ _ _ (by simp; omega)]
    · rfl
  · dsimp only
    rw [State.ite_lasting, State.stn_lasting]
    split
    · rfl
    · split
      · rfl
      · rw [State.stn_lasting, State.putB_lasting _ _ _ (by simp; omega), State.ite_lasting,
          foldl_lasting _ _ _ fun x id => x.cause_lasting id _, ite_self, State.put_lasting _ _ _ (by simp; omega), State.stn_lasting]

theorem State.dirCheck_lasting (n : Fin 8) : (s.dirCheck n).lasting = s.lasting := by
  unfold State.dirCheck
  dsimp only
  repeat' split
  all_goals
    simp (disch := (simp <;> omega)) only [State.dpt_lasting, State.put_lasting, State.pulse_lasting, State.fbAdd_lasting]

theorem State.idchkStart_lasting (n : Fin 8) (ok : Bool) : (s.idchkStart n ok).lasting = s.lasting := by
  unfold State.idchkStart
  dsimp only
  split <;> simp (disch := (simp <;> omega)) only [State.ax_lasting, State.put_lasting, State.setWord_lasting]

theorem State.idchkEnd_lasting (n : Fin 8) (res : Nat) : (s.idchkEnd n res).lasting = s.lasting := by
  unfold State.idchkEnd
  simp (disch := (simp <;> omega)) only [State.fbAdd_lasting, State.pulse_lasting, State.put_lasting, State.bridgesOff_lasting, State.ax_lasting]

theorem State.idZero_lasting (n : Fin 8) : (s.idZero n).lasting = s.lasting := by
  unfold State.idZero
  split
  · rfl
  · dsimp only
    simp (disch := (simp <;> omega)) only [State.ite_lasting, State.ax_lasting, State.put_lasting, ite_self]

theorem State.idchkTick_lasting (n : Fin 8) : (s.idchkTick n).lasting = s.lasting := by
  unfold State.idchkTick
  dsimp only
  split <;> simp only [State.ite_lasting, State.ax_lasting, State.idchkStart_lasting, State.idchkEnd_lasting, State.idZero_lasting, ite_self]

theorem State.calEnd_lasting (n : Fin 8) (res : Nat) : (s.calEnd n res).lasting = s.lasting := by
  unfold State.calEnd
  simp (disch := (simp <;> omega)) only [State.fbAdd_lasting, State.pulse_lasting, State.put_lasting, State.ob_lasting]

theorem State.calAbort_lasting (n : Fin 8) : (s.calAbort n).lasting = s.lasting := by
  unfold State.calAbort
  rw [State.ite_lasting, State.calEnd_lasting, ite_self]

theorem State.calMark_lasting (n : Fin 8) : (s.calMark n).lasting = s.lasting := by
  unfold State.calMark
  dsimp only
  split <;> simp (disch := (simp <;> omega)) only [State.ite_lasting, State.calAbort_lasting, State.put_lasting, State.ob_lasting, State.ax_lasting, ite_self]

theorem State.bdTick_lasting (n : Fin 8) : (s.bdTick n).lasting = s.lasting := by
  unfold State.bdTick State.bdStop
  simp (disch := (simp <;> omega)) only [State.ite_lasting, State.bdu_lasting, State.put_lasting, ite_self]

/-! ## The scrubber -/

theorem State.scrubNext_lasting (m : Mem) : (s.scrubNext m).lasting = s.lasting := by
  cases m <;> unfold State.scrubNext <;> dsimp only <;>
    rw [State.ite_lasting, State.mm_lasting, State.put_lasting _ _ _ (by decide), State.mm_lasting, ite_self]

theorem State.memFirst_lasting (m : Mem) (a : Nat) (uncorr scrub : Bool) (sym : Nat) : (s.memFirst m a uncorr scrub sym).lasting = s.lasting :=
  (State.upd_lasting _ rfl).trans (s.setWord_lasting 0x66 _ (by decide))

theorem State.count_lasting (m : Mem) (k : Nat) (h : k < 2) : (s.inc (cntFld m k)).lasting = s.lasting :=
  s.inc_lasting _ (by rw [cntFld_a]; omega)

theorem State.memCorrected_lasting (m : Mem) (a sym : Nat) (scrub : Bool) : (s.memCorrected m a sym scrub).lasting = s.lasting := by
  unfold State.memCorrected
  dsimp only
  rw [State.ite_lasting, State.pulse_lasting _ _ _ _ (by omega), State.mm_lasting, ite_self, State.memFirst_lasting, State.count_lasting _ _ _ (by omega)]

theorem State.memUncorr_lasting (m : Mem) (a : Nat) (scrub : Bool) (x : Option (Fin 4)) : (s.memUncorr m a scrub x).lasting = s.lasting := by
  unfold State.memUncorr
  rw [State.memResponse_lasting, State.memFirst_lasting, State.count_lasting _ _ _ (by omega)]

theorem State.memRead_lasting (m : Mem) (a : Nat) (scrub : Bool) (x : Option (Fin 4)) : (s.memRead m a scrub x).lasting = s.lasting := by
  unfold State.memRead
  simp only [State.ite_lasting, State.memCorrected_lasting, State.memUncorr_lasting, State.useFree_lasting, ite_self]

theorem State.overdue_lasting (k : Nat) : (s.overdue k).lasting = s.lasting := by
  induction k generalizing s with
  | zero => rfl
  | succ k ih =>
    unfold State.overdue
    rw [State.ite_lasting, ih, State.mm_lasting, State.scrubNext_lasting, State.memRead_lasting, ite_self]

theorem State.scrubTick_lasting : s.scrubTick.lasting = s.lasting := by
  unfold State.scrubTick
  dsimp only
  rw [State.ite_lasting, State.mm_lasting, State.overdue_lasting, ite_self]

theorem State.markRun_lasting : s.markRun.lasting = s.lasting := by
  unfold State.markRun
  dsimp only
  rw [State.scrubTick_lasting, State.upd_lasting _ rfl, forFin_lasting, State.moveTick_lasting, State.moveTick_lasting]
  intro n x
  rw [State.dirCheck_lasting, State.idchkTick_lasting, State.calMark_lasting, State.bdTick_lasting]

end Sys2Proof.Machine
end

section
/-!
What no tick mark writes, continued: buffered values, held sets, faults that are due, resets of axes and rings (step 2 of the tick).
-/

namespace Sys2Proof.Machine

variable (s : State)

/-! ## Values taken over at the mark -/

theorem State.dpRestart_lasting (n : Fin 8) : (s.dpRestart n).lasting = s.lasting := by
  unfold State.dpRestart
  simp (disch := (simp <;> omega)) only [State.dpt_lasting, State.put_lasting, State.setWord_lasting]

theorem State.idStat_lasting (n : Fin 8) : (s.idStat n).lasting = s.lasting := by
  unfold State.idStat
  simp (disch := (simp <;> omega)) only [State.putB_lasting, State.put_lasting, State.putBit_lasting]

theorem State.monChange_lasting (n : Fin 8) (f : MonSt → MonSt) : (s.monChange n f).lasting = s.lasting := by
  unfold State.monChange
  simp only [State.idStat_lasting, State.ite_lasting, State.dpRestart_lasting, State.mon_lasting, ite_self]

theorem State.evMon_lasting (n : Fin 8) (d : Nat) : (s.evMon n d).lasting = s.lasting := s.pulse_lasting _ _ _ (by omega)

theorem State.recordForce_lasting (n : Fin 8) (b : List Byte) : (s.recordForce n b).lasting = s.lasting := by
  unfold State.recordForce
  simp (disch := (simp <;> omega)) only [State.ite_lasting, State.fbAdd_lasting, State.evMon_lasting, State.put_lasting,
    State.monChange_lasting, ite_self]

theorem State.idTick_lasting (n : Fin 8) : (s.idTick n).lasting = s.lasting := by
  unfold State.idTick
  split
  · rfl
  · rw [State.ite_lasting, State.recordForce_lasting, ite_self]

theorem State.ceilTick_lasting : s.ceilTick.lasting = s.lasting := by
  unfold State.ceilTick
  split
  · rfl
  · rw [State.su_lasting, State.bt_lasting]

theorem State.withTick_lasting (k : TickSt) : ({ s with tick := k } : State).lasting = s.lasting := s.upd_lasting rfl

theorem State.tickApply_lasting (p src : Nat) : (s.tickApply p src).lasting = s.lasting := by
  unfold State.tickApply
  simp (disch := decide) only [State.withTick_lasting, State.put_lasting, State.ite_lasting, ite_self]

theorem State.pinActs_lasting (n : Fin 8) : (s.pinActs n).lasting = s.lasting := by
  unfold State.pinActs
  simp (disch := (simp <;> omega)) only [State.idStat_lasting, State.ite_lasting, State.ax_lasting, State.dpRestart_lasting,
    State.putB_lasting, State.put_lasting, ite_self]

theorem State.pinApply_lasting (n : Fin 8) (w : Nat) : (s.pinApply n w).lasting = s.lasting := by
  unfold State.pinApply
  simp (disch := (simp <;> omega)) only [State.pinActs_lasting, State.ax_lasting, State.put_lasting, State.setWord_lasting]

theorem State.seqApply_lasting (n : Fin 8) (r e : Nat) : (s.seqApply n r e).lasting = s.lasting := by
  unfold State.seqApply
  simp (disch := (simp <;> omega)) only [State.ax_lasting, State.put_lasting]

theorem State.dpApply_lasting (n : Fin 8) (inv cpr : Nat) : (s.dpApply n inv cpr).lasting = s.lasting := by
  unfold State.dpApply
  simp (disch := (simp <;> omega)) only [State.ite_lasting, State.dpRestart_lasting, State.dpt_lasting, State.put_lasting, ite_self]

/-- The waiting pin selection, sequencer set and scale of an axis, where it is quiet. -/
def State.heldAxis (s : State) (n : Fin 8) : State :=
  let s := match s.axes[n].heldPin with
    | some w => if s.quiet n then s.pinApply n w else s
    | none => s
  let s := match s.axes[n].heldSeq with
    | some (r, e) => if s.seqQuiet n then s.seqApply n r e else s
    | none => s
  match s.axes[n].dp.held with
  | some (i, c) => if s.quiet n then s.dpApply n i c else s
  | none => s

theorem State.heldAxis_lasting (n : Fin 8) : (s.heldAxis n).lasting = s.lasting := by
  have pin (x : State) : (match x.axes[n].heldPin with | some w => if x.quiet n then x.pinApply n w else x | none => x).lasting = x.lasting := by
    split
    · rw [State.ite_lasting, State.pinApply_lasting, ite_self]
    · rfl
  have seq (x : State) : (match x.axes[n].heldSeq with | some (r, e) => if x.seqQuiet n then x.seqApply n r e else x | none => x).lasting = x.lasting := by
    split
    · rw [State.ite_lasting, State.seqApply_lasting, ite_self]
    · rfl
  have dp (x : State) : (match x.axes[n].dp.held with | some (i, c) => if x.quiet n then x.dpApply n i c else x | none => x).lasting = x.lasting := by
    split
    · rw [State.ite_lasting, State.dpApply_lasting, ite_self]
    · rfl
  exact (dp _).trans ((seq _).trans (pin s))

theorem State.heldTick_lasting : s.heldTick.lasting = s.lasting := by
  unfold State.heldTick
  refine (forFin_lasting _ _ fun n x => x.heldAxis_lasting n).trans ?_
  split
  · rw [State.ite_lasting, State.tickApply_lasting, ite_self]
  · rfl

theorem State.setField_lasting (a : Nat) (r : FRow) (v : Nat) (h : a ≠ 0x56) : (s.setField a r v).lasting = s.lasting :=
  s.put_lasting _ _ h

theorem State.applyAddr_lasting (snap : RegFile) (a : Nat) (h : a ≠ 0x56) : (s.applyAddr snap a).lasting = s.lasting := by
  refine foldl_lasting _ _ _ fun x r => ?_
  rw [State.ite_lasting, State.setField_lasting _ _ _ _ h, ite_self]

/-- LNK_GR_TICKNUM holds no buffered field. -/
theorem not_mem_groupAddrs (g : Fin 11) : 0x56 ∉ groupAddrs g := fun h =>
  absurd (List.of_mem_filter h) (by decide)

theorem State.pinOffer_lasting (n : Fin 8) (w : Nat) : (s.pinOffer n w).lasting = s.lasting := by
  unfold State.pinOffer
  simp (disch := (simp <;> omega)) only [State.ite_lasting, State.pinApply_lasting, State.ax_lasting, State.put_lasting, ite_self]

theorem State.seqOffer_lasting (n : Fin 8) (r e : Nat) : (s.seqOffer n r e).lasting = s.lasting := by
  unfold State.seqOffer
  simp (disch := (simp <;> omega)) only [State.ite_lasting, State.seqApply_lasting, State.ax_lasting, State.put_lasting, ite_self]

theorem State.dpOffer_lasting (n : Fin 8) (inv cpr : Nat) : (s.dpOffer n inv cpr).lasting = s.lasting := by
  unfold State.dpOffer
  simp (disch := (simp <;> omega)) only [State.ite_lasting, State.dpApply_lasting, State.dpt_lasting, State.put_lasting, ite_self]

theorem State.rmodeTook_lasting (st : Fin 2) (was : Nat) : (s.rmodeTook st was).lasting = s.lasting := by
  unfold State.rmodeTook
  rw [State.ite_lasting, State.put_lasting _ _ _ (by simp; omega), ite_self]

theorem State.tickOffer_lasting (p src : Nat) : (s.tickOffer p src).lasting = s.lasting := by
  unfold State.tickOffer
  simp (disch := decide) only [State.ite_lasting, State.tickApply_lasting, State.withTick_lasting, State.put_lasting, ite_self]

theorem State.applyGroup_lasting (g : Fin 11) (snap : RegFile) : (s.applyGroup g snap).lasting = s.lasting := by
  have taken : ((groupAddrs g).foldl (fun s a => s.applyAddr snap a) s).lasting = s.lasting :=
    List.foldlRecOn (motive := fun t : State => t.lasting = s.lasting) _ _ rfl fun x h a ha =>
      (x.applyAddr_lasting snap a fun e => not_mem_groupAddrs g (e ▸ ha)).trans h
  unfold State.applyGroup
  dsimp only
  repeat' split
  all_goals
    simp only [State.dpOffer_lasting, State.seqOffer_lasting, State.pinOffer_lasting, State.rmodeTook_lasting, State.tickOffer_lasting, taken]

theorem State.applyStrobes_lasting : s.applyStrobes.lasting = s.lasting := by
  unfold State.applyStrobes
  rw [State.heldTick_lasting, forFin_lasting]
  intro g x
  split
  · rw [State.ite_lasting, State.applyGroup_lasting, State.upd_lasting _ rfl, ite_self]
  · rfl

theorem State.pinFlags_lasting (n : Fin 8) : (s.pinFlags n).lasting = s.lasting := by
  unfold State.pinFlags
  simp (disch := (simp <;> omega)) only [State.putB_lasting]

/-! ## Faults that are due -/

theorem State.encTick_lasting (n : Fin 8) : (s.encTick n).lasting = s.lasting := by
  unfold State.encTick
  rw [State.ite_lasting, State.axisFaultIf_lasting, State.dpt_lasting, ite_self]

theorem State.dueFaults_lasting (n : Fin 8) : (s.dueFaults n).lasting = s.lasting := by
  unfold State.dueFaults
  simp only [State.encTick_lasting, State.ite_lasting, State.axisFault_lasting, State.ax_lasting, ite_self]

theorem State.tripTick_lasting (n : Fin 8) : (s.tripTick n).lasting = s.lasting := by
  unfold State.tripTick
  simp only [State.ax_lasting, State.ite_lasting, State.tripAxis_lasting, ite_self]

theorem State.causeTick_lasting (n : Fin 8) : (s.causeTick n).lasting = s.lasting := by
  unfold State.causeTick
  simp only [State.ite_lasting, State.axisFault_lasting, ite_self]

/-! ## Endings and stops -/

theorem State.markEnd_lasting (id st : Nat) : (s.markEnd id st).lasting = s.lasting := by
  unfold State.markEnd
  split
  · rfl
  · split <;> simp only [State.ite_lasting, State.noteLast_lasting, State.setPh_lasting, State.cmdUpd_lasting, ite_self]

theorem State.doneNow_lasting (id : Nat) : (s.doneNow id).lasting = s.lasting := s.markEnd_lasting _ _

theorem State.applyWait_lasting (id : Nat) (w : List Nat) : (s.applyWait id w).lasting = s.lasting := State.upd_lasting _ rfl

theorem markEnds_lasting {ι : Type} (l : List ι) (f : ι → Nat) (st : Nat) :
    (l.foldl (fun s x => s.markEnd (f x) st) s).lasting = s.lasting := foldl_lasting _ _ _ fun x _ => x.markEnd_lasting _ _

theorem State.stopMove_lasting (t : Fin 2) (quick : Bool) (st : List Nat) : (s.stopMove t quick st).lasting = s.lasting := by
  refine foldl_lasting _ _ _ fun x u => ?_
  dsimp only
  split
  · rfl
  · rw [State.ite_lasting, State.stn_lasting, markEnds_lasting, State.stn_lasting, foldl_lasting _ _ _ fun y k => y.ax_lasting k _,
      foldl_lasting _ _ _ fun y id => foldl_lasting _ _ _ fun z c => z.cause_lasting id c, ite_self]

theorem State.quiesce_lasting (n : Fin 8) (dec j k : Nat) : (s.quiesce n dec j k).lasting = s.lasting := by
  unfold State.quiesce
  dsimp only
  rw [State.ite_lasting, State.ax_lasting, ite_self]

theorem State.stopAxis_lasting (n : Fin 8) (quick : Bool) (st k : Nat) : (s.stopAxis n quick st k).lasting = s.lasting := by
  have causes (x : State) (o : Option Cmd) (p : Bool) :
      (match o with
        | some c => (if p then x.cause c.id CANCELLED_STATE else x).cause c.id st
        | none => x).lasting = x.lasting := by
    split
    · rw [State.cause_lasting, State.ite_lasting, State.cause_lasting, ite_self]
    · rfl
  unfold State.stopAxis
  dsimp only
  split
  · rfl
  · split
    · rw [State.ite_lasting, State.ax_lasting, State.quiesce_lasting, ite_self, State.ax_lasting, State.followLeave_lasting]
      exact causes s _ _
    · rw [State.quiesce_lasting, State.ax_lasting, State.followLeave_lasting]
      exact causes s _ _

/-! ## Resets of axes and rings -/

theorem State.rstMoves_lasting (n : Fin 8) : (s.rstMoves n).lasting = s.lasting := by
  unfold State.rstMoves
  dsimp only
  rw [State.ite_lasting, State.stopMove_lasting, ite_self, foldl_lasting]
  intro x c
  rw [State.ite_lasting, markEnds_lasting, ite_self]

theorem State.rstBegin_lasting (n : Fin 8) : (s.rstBegin n).lasting = s.lasting := by
  unfold State.rstBegin
  simp only [State.ax_lasting, State.ite_lasting, State.stopAxis_lasting, State.rstMoves_lasting, markEnds_lasting, ite_self]

theorem kvGet_kvDrop {α : Type} (m : List (Nat × α)) (p : Nat → Bool) (a : Nat) (d : α) (h : p a = false) :
    kvGet (kvDrop m p) a d = kvGet m a d := by
  induction m with
  | nil => rfl
  | cons e t ih =>
    unfold kvDrop at ih ⊢
    obtain ⟨b, x⟩ := e
    by_cases hb : p b = true
    · have apart : a ≠ b := fun e => by rw [e, hb] at h; exact Bool.noConfusion h
      rw [List.filter_cons_of_neg (by simp [hb]), ih]
      exact (if_neg apart).symm
    · rw [List.filter_cons_of_pos (by simp [hb])]
      exact ite_congr rfl (fun _ => rfl) fun _ => ih

theorem State.resetRegs_lasting (p : Nat → Bool) (h : p 0x56 = false) : (s.resetRegs p).lasting = s.lasting := by
  have word : (s.resetRegs p).word 0x56 = s.word 0x56 := kvGet_kvDrop _ _ _ _ h
  unfold State.lasting
  rw [word]
  rfl

theorem State.rstCoil_lasting (c : Fin 16) : (s.rstCoil c).lasting = s.lasting := State.upd_lasting _ rfl

theorem State.rstFinish_lasting (n : Fin 8) : (s.rstFinish n).lasting = s.lasting := by
  have low : axAddr n 0x56 = false := by
    unfold axAddr
    rw [decide_eq_false (by omega), Bool.false_and]
  have cleared : (s.resetRegs fun a => axAddr n a && !pwmFld a).lasting = s.lasting :=
    s.resetRegs_lasting _ (congrArg (· && !pwmFld 0x56) low)
  unfold State.rstFinish
  simp (disch := (simp <;> omega)) only [State.putBit_lasting, State.pinActs_lasting, State.rstCoil_lasting, State.ax_lasting]
  rw [State.upd_lasting _ rfl, State.upd_lasting _ rfl]
  simp (disch := (simp <;> omega)) only [State.ite_lasting, State.put_lasting, cleared, ite_self]

theorem State.rstAxis_lasting (n : Fin 8) : (s.rstAxis n).lasting = s.lasting := by
  unfold State.rstAxis
  split
  · rfl
  · exact s.rstBegin_lasting n
  · dsimp only
    rw [State.ite_lasting, State.rstFinish_lasting, State.rstMoves_lasting, ite_self]
  · rw [State.rstFinish_lasting, State.rstMoves_lasting]

theorem State.stgClear_lasting (r : Nat) : (s.stgClear r).lasting = s.lasting := State.upd_lasting _ rfl

theorem State.rstRing_lasting (r : Fin 16) : (s.rstRing r).lasting = s.lasting := by
  have flag (b : Bool) : (s.putBit DEV_BLKRST_STAT_RING_REF r b).lasting = s.lasting := s.putBit_lasting _ _ _ (by decide)
  have ended (x : State) (l : Vector Nat 11) : ({ x with lastEnd := l } : State).lasting = x.lasting := x.upd_lasting rfl
  have captured (x : State) (c : CapSt) : ({ x with cap := c } : State).lasting = x.lasting := x.upd_lasting rfl
  unfold State.rstRing
  dsimp only
  split
  · rw [State.ite_lasting, flag, ended (State.stgClear _ r), State.stgClear_lasting, flag, ite_self]
  · rw [State.ite_lasting, flag, State.ite_lasting, captured (State.ring _ _ _), State.ring_lasting, flag, ite_self, ite_self]

theorem State.rstRings_lasting : s.rstRings.lasting = s.lasting := by
  unfold State.rstRings
  dsimp only
  rw [foldl_lasting _ _ _ fun x r => x.rstRing_lasting r, State.withTick_lasting]

end Sys2Proof.Machine
end

section
/-!
What no tick mark writes, continued: the commands that take at the mark (step 2 of the tick), and the mark itself.
-/

namespace Sys2Proof.Machine

variable (s : State)

/-! ## Immediate commands -/

theorem State.bdEnd_lasting (n : Fin 8) : (s.bdEnd n).lasting = s.lasting := by
  unfold State.bdEnd
  dsimp only
  simp (disch := (simp <;> omega)) only [State.ite_lasting, State.bdu_lasting, State.fbAdd_lasting, State.capture_lasting,
    State.inc_lasting, State.put_lasting, State.putB_lasting, ite_self]

theorem State.mwLeave_lasting (n : Fin 8) : (s.mwLeave n).lasting = s.lasting := by
  unfold State.mwLeave
  rw [State.ite_lasting, State.mwAbandon_lasting, ite_self]

theorem State.doEnable_lasting (n : Fin 8) : (s.doEnable n).lasting = s.lasting := by
  unfold State.doEnable
  simp (disch := (simp <;> omega)) only [State.ax_lasting, State.ite_lasting, State.put_lasting, State.bdEnd_lasting,
    State.mwLeave_lasting, ite_self]

theorem State.doRelease_lasting (n : Fin 8) : (s.doRelease n).lasting = s.lasting := by
  unfold State.doRelease
  rw [State.ite_lasting, State.bridgesOff_lasting, State.ax_lasting, ite_self]

theorem State.flushRing_lasting (r : Nat) : (s.flushRing r).1.lasting = s.lasting := by
  unfold State.flushRing
  dsimp only
  rw [State.ite_lasting, State.stn_lasting, markEnds_lasting, ite_self]

theorem State.flushed_lasting (b : Bool) (r : Nat) : (if b then s.flushRing r else (s, [])).1.lasting = s.lasting := by
  split
  · exact s.flushRing_lasting r
  · rfl

theorem State.doStop_lasting (n : Fin 8) (c : Cmd) : (s.doStop n c).lasting = s.lasting := by
  unfold State.doStop
  dsimp only
  rw [State.applyWait_lasting, State.ite_lasting, State.stopMove_lasting, State.stopAxis_lasting, ite_self, State.flushed_lasting]

theorem State.doClearFault_lasting (n : Fin 8) : (s.doClearFault n).lasting = s.lasting := by
  unfold State.doClearFault
  simp (disch := (simp <;> omega)) only [State.ax_lasting, State.put_lasting]

theorem State.doSetPosition_lasting (n : Fin 8) (c : Cmd) : (s.doSetPosition n c).lasting = s.lasting := by
  unfold State.doSetPosition State.recoord
  simp (disch := (simp <;> omega)) only [State.ax_lasting, State.putB_lasting]

theorem State.enterMotion_lasting (n : Fin 8) (st : AxState) : (s.enterMotion n st).lasting = s.lasting := by
  unfold State.enterMotion
  dsimp only
  rw [State.ax_lasting, State.ite_lasting, State.ob_lasting, ite_self]

theorem State.followOn_lasting (n : Fin 8) : (s.followOn n).lasting = s.lasting := by
  unfold State.followOn
  simp (disch := (simp <;> omega)) only [State.ax_lasting, State.enterMotion_lasting, State.setWord_lasting]

theorem State.stakeStart_lasting (n : Fin 8) (c : Cmd) (base : Int) : (s.stakeStart n c base).lasting = s.lasting := by
  unfold State.stakeStart
  simp (disch := (simp <;> omega)) only [State.ax_lasting, State.enterMotion_lasting, State.put_lasting]

theorem State.doReplace_lasting (n : Fin 8) (c : Cmd) : (s.doReplace n c).lasting = s.lasting := by
  unfold State.doReplace
  dsimp only
  rw [State.ite_lasting, State.markEnd_lasting, State.stakeStart_lasting, State.cmdUpd_lasting]
  split
  · rfl
  · split
    · exact s.markEnd_lasting _ _
    · rfl

theorem State.doStationStop_lasting (t : Fin 2) (c : Cmd) : (s.doStationStop t c).lasting = s.lasting := by
  unfold State.doStationStop
  dsimp only
  rw [State.applyWait_lasting, State.stopMove_lasting, State.flushed_lasting]

theorem State.cancelOne_lasting (id : Nat) (quick : Bool) : (s.cancelOne id quick).lasting = s.lasting := by
  unfold State.cancelOne
  split
  · rfl
  · split <;>
      simp only [State.ite_lasting, State.stn_lasting, State.markEnd_lasting, markEnds_lasting, State.stopMove_lasting,
        State.stopAxis_lasting, ite_self]

theorem State.doCancelTag_lasting (c : Cmd) : (s.doCancelTag c).lasting = s.lasting := by
  unfold State.doCancelTag
  dsimp only
  rw [State.ite_lasting, State.cmdUpd_lasting, State.applyWait_lasting, ite_self, foldl_lasting _ _ _ fun x id => x.cancelOne_lasting id _]

theorem State.doCancelRing_lasting (c : Cmd) : (s.doCancelRing c).lasting = s.lasting := by
  unfold State.doCancelRing
  dsimp only
  rw [State.applyWait_lasting, foldl_lasting _ _ _ fun x id => x.cancelOne_lasting id _]

theorem State.progStart_lasting (x : Fin 4) (entry : Nat) : (s.progStart x entry).lasting = s.lasting := s.ctx_lasting x _

theorem State.applyOp_lasting (c : Cmd) : (s.applyOp c).lasting = s.lasting := by
  unfold State.applyOp
  dsimp only
  split <;>
    simp only [State.doneNow_lasting, State.doEnable_lasting, State.doRelease_lasting, State.doStop_lasting,
      State.doClearFault_lasting, State.doSetPosition_lasting, State.followOn_lasting, State.applyWait_lasting,
      State.stopAxis_lasting, State.doReplace_lasting, State.doStationStop_lasting, State.doCancelTag_lasting,
      State.doCancelRing_lasting, State.progStart_lasting, State.stopCtx_lasting]

theorem State.applyImm_lasting (id : Nat) : (s.applyImm id).lasting = s.lasting := by
  unfold State.applyImm
  split
  · rfl
  · rw [State.ite_lasting, State.ite_lasting, State.applyOp_lasting, State.markEnd_lasting, ite_self, ite_self]

theorem State.applyImms_lasting : s.applyImms.lasting = s.lasting := foldl_lasting _ _ _ fun x id => x.applyImm_lasting id

/-! ## Coordinated moves -/

theorem State.unpair_lasting (t : Fin 2) (p : Nat) (same : Bool) : (s.unpair t p same).lasting = s.lasting := by
  unfold State.unpair
  split
  · rw [State.ite_lasting, State.stn_lasting, markEnds_lasting, ite_self]
  · rfl

theorem State.moveEngage_lasting (t : Fin 2) : (s.moveEngage t).lasting = s.lasting := by
  unfold State.moveEngage
  split
  · rfl
  · refine foldl_lasting _ _ _ fun x id => ?_
    split
    · rfl
    · rw [State.ax_lasting, State.enterMotion_lasting]

theorem State.moveStart_lasting (t : Fin 2) : (s.moveStart t).lasting = s.lasting := by
  unfold State.moveStart
  dsimp only
  rw [foldl_lasting _ _ _ fun x u => x.stn_lasting u _, foldl_lasting _ _ _ fun x u => x.moveEngage_lasting u]

theorem State.moveTake_lasting (t : Fin 2) (parts : List Cmd) (waiting : Bool) : (s.moveTake t parts waiting).lasting = s.lasting := by
  unfold State.moveTake
  dsimp only
  rw [State.stn_lasting]
  exact foldl_lasting _ _ _ fun x c => x.cmdUpd_lasting _ _

theorem State.startMove_lasting (t : Fin 2) (parts : List Cmd) : (s.startMove t parts).lasting = s.lasting := by
  unfold State.startMove
  dsimp only
  split
  · rw [State.moveStart_lasting, State.moveTake_lasting, State.unpair_lasting]
  · split
    · rw [State.ite_lasting, State.moveStart_lasting, State.moveTake_lasting, State.moveTake_lasting,
        foldl_lasting _ _ _ fun x id => x.cmdUpd_lasting id _, State.stn_lasting, ite_self, State.unpair_lasting]
    · rw [State.moveTake_lasting, State.unpair_lasting]

theorem State.startStation_lasting (t : Fin 2) (busy : List Nat) (k : Nat) (l : List Cmd) :
    (s.startStation t busy k l).lasting = s.lasting := by
  induction k generalizing s l with
  | zero => rfl
  | succ k ih =>
    cases l with
    | nil => rfl
    | cons c l =>
      unfold State.startStation
      simp only [State.ite_lasting, ih, State.markEnd_lasting, markEnds_lasting, State.cmdUpd_lasting, State.unpair_lasting,
        State.startMove_lasting, ite_self]

theorem State.stationMark_lasting (t : Fin 2) (busy : List Nat) : (s.stationMark t busy).lasting = s.lasting := by
  unfold State.stationMark
  dsimp only
  rw [State.ite_lasting, State.startStation_lasting, ite_self]

theorem State.moveLimit_lasting (t : Fin 2) : (s.moveLimit t).lasting = s.lasting := by
  unfold State.moveLimit
  split
  · rfl
  · rw [State.ite_lasting, foldl_lasting, ite_self]
    intro x n
    dsimp only
    rw [State.ite_lasting, State.pulse_lasting _ _ _ _ (by omega), State.stopMove_lasting, ite_self]

/-! ## Queued commands of the axes and of the device -/

theorem State.homePhase_lasting (n : Fin 8) (h : HomeSt) (ph k : Nat) : (s.homePhase n h ph k).lasting = s.lasting := by
  unfold State.homePhase
  simp (disch := (simp <;> omega)) only [State.ax_lasting, State.put_lasting]

theorem State.homeStart_lasting (n : Fin 8) (c : Cmd) : (s.homeStart n c).lasting = s.lasting := by
  unfold State.homeStart
  simp (disch := (simp <;> omega)) only [State.homePhase_lasting, State.ax_lasting, State.enterMotion_lasting, State.put_lasting]

theorem State.startOn_lasting (n : Fin 8) (c : Cmd) : (s.startOn n c).lasting = s.lasting := by
  unfold State.startOn
  simp only [State.ite_lasting, State.homeStart_lasting, State.stakeStart_lasting, State.cmdUpd_lasting, ite_self]

theorem State.startAxis_lasting (n : Fin 8) (l : List Cmd) : (s.startAxis n l).lasting = s.lasting := by
  induction l generalizing s with
  | nil => rfl
  | cons c l ih =>
    unfold State.startAxis
    rw [State.ite_lasting, State.ite_lasting, ih, State.markEnd_lasting, State.startOn_lasting, ite_self, ite_self]

theorem State.axisMark_lasting (n : Fin 8) (busy : List Nat) : (s.axisMark n busy).lasting = s.lasting := by
  unfold State.axisMark
  rw [State.ite_lasting, State.startAxis_lasting, ite_self]

theorem State.startDevice_lasting (l : List Cmd) : (s.startDevice l).lasting = s.lasting := by
  induction l generalizing s with
  | nil => rfl
  | cons c l ih =>
    unfold State.startDevice
    rw [State.ite_lasting, ih, State.markEnd_lasting, State.cmdUpd_lasting, ite_self]

theorem State.execMark_lasting : s.execMark.lasting = s.lasting := by
  unfold State.execMark
  dsimp only
  rw [State.ite_lasting, State.startDevice_lasting, ite_self, forFin_lasting _ _ fun n x => x.axisMark_lasting n _,
    State.moveLimit_lasting, State.moveLimit_lasting, State.stationMark_lasting, State.stationMark_lasting, State.applyImms_lasting]

/-! ## The mark -/

theorem State.markApply_lasting : s.markApply.lasting = s.lasting := by
  unfold State.markApply
  dsimp only
  rw [State.gathered_lasting, forFin_lasting _ _ fun n x => x.pinFlags_lasting n, State.applyStrobes_lasting,
    forFin_lasting _ _ fun n x => x.idTick_lasting n, State.ceilTick_lasting]
  intro x
  rw [forFin_lasting _ _ fun n y => (State.tripTick_lasting _ n).trans (State.causeTick_lasting y n), State.execMark_lasting,
    State.rstRings_lasting, forFin_lasting _ _ fun n y => y.rstAxis_lasting n, forFin_lasting _ _ fun n y => y.dueFaults_lasting n]

theorem State.dpTick_lasting (n : Fin 8) : (s.dpTick n).lasting = s.lasting := by
  unfold State.dpTick
  simp (disch := (simp <;> omega)) only [State.putB_lasting, State.putI_lasting, State.put_lasting, State.dpt_lasting]

theorem State.pinSample_lasting (n : Fin 8) (pins : BitVec 48) : (s.pinSample n pins).lasting = s.lasting := by
  unfold State.pinSample
  simp (disch := (simp <;> omega)) only [State.ite_lasting, State.ax_lasting, State.setWord_lasting, ite_self]

theorem State.coilTick_lasting (c : Fin 16) : (s.coilTick c).lasting = s.lasting := by
  unfold State.coilTick
  simp (disch := (simp <;> omega)) only [State.co_lasting, State.putB_lasting]

theorem State.markSample_lasting (pins : BitVec 48) : (s.markSample pins).lasting = s.lasting := by
  unfold State.markSample
  dsimp only
  rw [forFin_lasting _ _ fun c x => x.coilTick_lasting c, forFin_lasting, State.put_lasting _ _ _ (by decide), State.put_lasting _ _ _ (by decide)]
  intro n x
  exact (State.ax_lasting _ n _).trans ((State.ax_lasting _ n _).trans ((State.dpTick_lasting _ n).trans (x.pinSample_lasting n pins)))

theorem State.markOkTick_lasting : s.markOkTick.lasting = s.lasting := by
  unfold State.markOkTick
  dsimp only
  split
  · rw [State.ite_lasting, State.put_lasting _ _ _ (by decide), ite_self]
  · rfl

theorem State.arbTick_lasting : s.arbTick.lasting = s.lasting := by
  have credits (x : State) (a : ArbSt) : ({ x with arb := a } : State).lasting = x.lasting := x.upd_lasting rfl
  unfold State.arbTick
  dsimp only
  rw [State.ite_lasting, credits (State.put _ _ _), State.put_lasting _ _ _ (by decide), ite_self]

theorem State.tickMark_lasting (pins : BitVec 48) : (s.tickMark pins).lasting = s.lasting := by
  unfold State.tickMark
  dsimp only
  rw [State.markRun_lasting, State.markApply_lasting, State.markSample_lasting, State.markOkTick_lasting, State.arbTick_lasting,
    State.withTick_lasting s]

end Sys2Proof.Machine
end

section
/-!
A mark of the Grelas link that begins a tick (R29, R218), and the obligation on responses and marks.
-/

namespace Sys2Proof.Machine

variable (s : State)

/-! ## A tick begins -/

/-- The tick's own state at its mark. -/
def State.tickBegun (s : State) : State :=
  { s with tick := { s.tick with
    mark := s.now, no := s.tick.no + 1, commitDue := true, gov := s.govSample, trip := s.g PWR_TRIP_STAT_LVL,
    sync := if s.gb CLK_TICK_CFG_SYNC_OUT_EN then some s.now else s.tick.sync } }

theorem State.tickMark_calm (pins : BitVec 48) : Calm s.tickBegun (s.tickMark pins) :=
  State.markRun_calm _ (State.markApply_calm _ (State.markSample_calm _ pins (State.markOkTick_calm _ (State.arbTick_calm _ (Calm.refl _)))))

theorem State.step_lasting {s t : State} (h : s.evStep t) : t.lasting = s.lasting := by
  have kept := congrArg (fun r : State => (r.stored, r.indQ, r.grelas, s.word 0x56)) h.rest
  unfold State.lasting
  rw [h.word 0x56 (by decide)]
  exact kept

theorem State.lasting_parts {s t : State} (h : t.lasting = s.lasting) :
    t.stored = s.stored ∧ t.indQ = s.indQ ∧ t.grelas = s.grelas ∧ t.word 0x56 = s.word 0x56 :=
  ⟨congrArg (·.1) h, congrArg (·.2.1) h, congrArg (·.2.2.1) h, congrArg (·.2.2.2) h⟩

theorem State.clockwork_parts {s t : State} (h : t.clockwork = s.clockwork) :
    t.tick.mark = s.tick.mark ∧ t.tick.no = s.tick.no ∧ t.tick.commitDue = s.tick.commitDue :=
  ⟨congrArg (·.2.1) h, congrArg (·.2.2.1) h, congrArg (·.2.2.2.1) h⟩

/-- What a mark leaves behind, as the next command finds it. -/
theorem State.tickMark_settled (pins : BitVec 48) :
    s.outlives (s.tickMark pins).settle ∧ (s.tickMark pins).settle.tick.mark = s.now ∧
      (s.tickMark pins).settle.tick.no = s.tick.no + 1 ∧ (s.tickMark pins).settle.tick.commitDue = true ∧
      (s.tickMark pins).settle.lasting = s.lasting := by
  obtain ⟨⟨pending, now, -⟩, clock, dev⟩ := s.tickMark_calm pins
  obtain ⟨mark, no, commitDue⟩ := State.clockwork_parts clock
  have lasting : (s.tickMark pins).settle.lasting = s.lasting :=
    (State.step_lasting (State.settle_step _)).trans (s.tickMark_lasting pins)
  obtain ⟨stored, indQ, -, -⟩ := State.lasting_parts lasting
  rw [State.settle_tick]
  refine ⟨⟨(State.settle_now _).trans now, (State.settle_pending _).trans pending, stored, indQ, ?_⟩, mark, no, commitDue, lasting⟩
  rw [State.settle_dev]
  exact dev

theorem State.outlives.of_same {s t u : State} (h : t.outlives u) (now : t.now = s.now) (pending : t.pending = s.pending)
    (stored : t.stored = s.stored) (indQ : t.indQ = s.indQ) (dev : t.dev = s.dev) : s.outlives u :=
  ⟨h.now.trans now, h.pending.trans pending, h.stored.trans stored, h.indQ.trans indQ, dev ▸ h.dev⟩

/-- An acceptable mark of the external source begins a tick (R29). -/
theorem State.extMark_taken (pins : BitVec 48) (on : s.tick.on = true) (free : s.tick.commitDue = false) (kept : s.tick.lost = false)
    (after : s.g CLK_TICK_CFG_PERIOD - 300 ≤ s.tickAge) (before : s.tickAge ≤ s.g CLK_TICK_CFG_PERIOD + 300) :
    s.extMark pins = s.tickMark pins := by
  unfold State.extMark State.markFree
  dsimp only
  rw [on, free, kept, decide_eq_true after, decide_eq_true before, if_neg (by decide), if_neg (by decide), if_pos (by decide)]

/-! ## The mark of a packet that begins a tick -/

/-- The mark's number is published, and the link waits for no other until the next packet. -/
theorem State.grMark_published :
    s.grMark.grelas.tickNum = none ∧ ∀ num ∈ s.grelas.tickNum, s.grMark.g LNK_GR_TICKNUM_TICKNUM = num % 2 ^ 32 := by
  cases h : s.grelas.tickNum with
  | none => exact ⟨by rw [s.grMark_further h]; rfl, fun num hn => absurd hn (by simp)⟩
  | some k =>
    rw [s.grMark_of_packet h]
    refine ⟨rfl, fun num hn => ?_⟩
    obtain rfl : k = num := Option.some.inj hn
    rw [State.gre_g, State.put_g_ne _ _ _ _ (by decide), State.put_g_same _ _ _ (by decide)]
    rfl

/-- Beside its registers the mark of a packet changes the Grelas link's state only. -/
theorem State.grMark_rest : s.grMark.now = s.now ∧ s.grMark.pending = s.pending ∧ s.grMark.stored = s.stored ∧ s.grMark.indQ = s.indQ ∧
    s.grMark.dev = s.dev ∧ s.grMark.tick = s.tick := by
  cases h : s.grelas.tickNum with
  | none =>
    rw [s.grMark_further h]
    exact ⟨rfl, rfl, rfl, rfl, rfl, rfl⟩
  | some num =>
    rw [s.grMark_of_packet h]
    exact ⟨rfl, rfl, rfl, rfl, rfl, rfl⟩

theorem grelasMark_beginsTick (dt : Nat) (pins : BitVec 48) (due : Nat) :
    let u := s.tickTo dt
    let p := u.g CLK_TICK_CFG_PERIOD
    u.grelas.mark = some due → due ≤ u.now → u.tickSrc = 2 → u.tick.on = true → u.tick.commitDue = false → u.tick.lost = false →
    p - 300 ≤ u.tickAge → u.tickAge ≤ p + 300 →
    ∃ t, Machine.exec (.grelasMarkIssue dt pins) s = .next t ∧
      u.outlives t ∧ t.tick.mark = u.now ∧ t.tick.no = u.tick.no + 1 ∧ t.tick.commitDue = true ∧ t.grelas.tickNum = none ∧
      (∀ num ∈ u.grelas.tickNum, t.g LNK_GR_TICKNUM_TICKNUM = num % 2 ^ 32) := by
  intro u p mark came src on free kept after before
  have hx := exec_markIssue (pins := pins) s mark came
  obtain ⟨now, pending, stored, indQ, dev, tick⟩ := u.grMark_rest
  obtain ⟨taken, published⟩ := u.grMark_published
  have period := u.grMark_g CLK_TICK_CFG_PERIOD (by decide)
  have age : u.grMark.tickAge = u.tickAge := by
    unfold State.tickAge
    rw [now, tick]
  rw [if_pos (u.grMark_tickSrc.trans src), u.grMark.extMark_taken pins (by rw [tick]; exact on) (by rw [tick]; exact free)
    (by rw [tick]; exact kept) (by rw [period, age]; exact after) (by rw [period, age]; exact before)] at hx
  generalize u.grMark = m at *
  obtain ⟨outlives, at_, no, commitDue, lasting⟩ := m.tickMark_settled pins
  obtain ⟨-, -, grelas, word⟩ := State.lasting_parts lasting
  refine ⟨_, hx, outlives.of_same now pending stored indQ dev, at_.trans now, ?_, commitDue, ?_, fun num hn => ?_⟩
  · rw [no, tick]
  · exact (congrArg GrelasSt.tickNum grelas).trans taken
  · exact (State.word_eq_of_g _ _ _ word).trans (published num hn)

/-- Settles O37: a response is fixed, sent or given up with its poll, a tick packet sets its mark, and the mark is published at its
time; it begins a tick where the link is the source, which leaves what `State.lasting` names. -/
theorem grelasResponseAndMarks : Obligations.GrelasResponseAndMarks :=
  ⟨grelasCompose_taken, grelasCompose_dropped, grelasCompose_not, grelasTransmit_sends, grelasTransmit_not, grelasTickPacket_marks,
    grelasTickPacket_untagged, grelasMark_notSource, grelasMark_beginsTick, grelasMark_early,
    fun inv bytes h => lineIn_lineOut inv bytes fun b hb => of_decide_eq_true (List.all_eq_true.1 h b hb)⟩

end Sys2Proof.Machine
end

section
/-!
What an entry to FAULT leaves alone (R253, R254): the supplies, the surveyor, the levels, every register outside the blocks of the
axes, and the other axes but for the ramp-down of a coordinated move (R280).
-/

namespace Sys2Proof.Machine

/-- What an entry to FAULT of another axis leaves of an axis: whether it is energised, and whether it stands in FAULT. -/
def AxState.stance (a : AxState) : Bool × Bool := (a.energised, a == .fault)

/-- A register of an axis block, or one that an event may change. -/
def axisBlock (a : Nat) : Bool := evWord a || (decide (0x800 ≤ a) && decide (a < 0x1000))

/-- `t` is `s` after entries to FAULT of axes among `N`, with causes recorded of axes among `C`: nothing else of what a supply, the
surveyor or a level is about has changed. -/
structure State.faultsOnly (s t : State) (N C : List (Fin 8)) : Prop where
  dev : t.dev = s.dev
  power : t.power = s.power
  surv : t.surv = s.surv
  levels : t.levels = s.levels
  stance : ∀ k, k ∉ N → t.axes[k].st.stance = s.axes[k].st.stance
  word : ∀ a, axisBlock a = false → (∀ n ∈ C, a ≠ 0x168 + n.val) → t.word a = s.word a

theorem evWord_of_axisBlock {a : Nat} (h : axisBlock a = false) : evWord a = false := (Bool.or_eq_false_iff.1 h).1

theorem axisBlock_cause (n : Fin 8) : axisBlock (0x168 + n.val) = false := by
  revert n
  decide

namespace State.faultsOnly
variable {s t u : State} {N C : List (Fin 8)}

theorem refl : s.faultsOnly s N C := ⟨rfl, rfl, rfl, rfl, fun _ _ => rfl, fun _ _ _ => rfl⟩

theorem trans (h : s.faultsOnly t N C) (k : t.faultsOnly u N C) : s.faultsOnly u N C where
  dev := k.dev.trans h.dev
  power := k.power.trans h.power
  surv := k.surv.trans h.surv
  levels := k.levels.trans h.levels
  stance n hn := (k.stance n hn).trans (h.stance n hn)
  word a ha hc := (k.word a ha hc).trans (h.word a ha hc)

theorem mono {N' C' : List (Fin 8)} (h : s.faultsOnly t N C) (hn : N ⊆ N') (hc : C ⊆ C') : s.faultsOnly t N' C' :=
  { h with
    stance := fun k hk => h.stance k fun m => hk (hn m)
    word := fun a ha hk => h.word a ha fun n m => hk n (hc m) }

theorem ite {c : Prop} [Decidable c] {a b : State} (ha : s.faultsOnly a N C) (hb : s.faultsOnly b N C) :
    s.faultsOnly (if c then a else b) N C := by
  split
  · exact ha
  · exact hb

theorem foldl {ι : Type} {l : List ι} {f : State → ι → State} (hf : ∀ x i, s.faultsOnly x N C → s.faultsOnly (f x i) N C)
    (h : s.faultsOnly t N C) : s.faultsOnly (l.foldl f t) N C := foldl_ind (fun x => s.faultsOnly x N C) l f hf t h

/-- An update of what is neither an axis, a register, a level, a supply's nor the surveyor's. -/
theorem upd {staged groups links grelas mbox indQ window cmds nextId lastEnd backlog rings evq evLost cap tick arb ecc coils stations
    ctxs store chain chainOut chainRst chainRej chainReach chainStall chainMode boot nvm otp flash free pending now cyc}
    (h : s.faultsOnly t N C) :
    s.faultsOnly ⟨⟨t.dev, t.regs, staged, groups, links, grelas, mbox, indQ, window, cmds, nextId, lastEnd, backlog, rings, evq, evLost,
      t.levels, cap, tick, arb, ecc, t.axes, coils, stations, ctxs, store, chain, chainOut, chainRst, chainRej, chainReach, chainStall,
      chainMode, boot, t.power, t.surv, nvm, otp, flash, free⟩, pending, now, cyc⟩ N C :=
  ⟨h.dev, h.power, h.surv, h.levels, h.stance, h.word⟩

/-- A register of an axis block. -/
theorem setWord (h : s.faultsOnly t N C) (a : Nat) (w : Word) (ha : axisBlock a = true) : s.faultsOnly (t.setWord a w) N C :=
  { h with
    word := fun b hb hc => (t.setWord_word_ne a b w fun e => by rw [← e, ha] at hb; cases hb).trans (h.word b hb hc) }

theorem put (h : s.faultsOnly t N C) (f : Fld) (v : Nat) (ha : axisBlock f.a = true) : s.faultsOnly (t.put f v) N C := h.setWord _ _ ha

/-- The causes of one of the axes `C`. -/
theorem putCause (h : s.faultsOnly t N C) (n : Fin 8) (v : Nat) (hn : n ∈ C) : s.faultsOnly (t.put (PWR_FLTCAUSE_BITS n) v) N C :=
  { h with word := fun a ha hc => (t.put_word_ne _ _ _ (hc n hn).symm).trans (h.word a ha hc) }

/-- A change of an axis that keeps its stance, or of one of the axes `N`. -/
theorem ax (h : s.faultsOnly t N C) (n : Fin 8) (f : Axis → Axis) (hf : n ∈ N ∨ (f t.axes[n]).st.stance = t.axes[n].st.stance) :
    s.faultsOnly (t.ax n f) N C :=
  { h with
    stance := fun k hk => by
      refine Eq.trans ?_ (h.stance k hk)
      rw [State.ax_axes]
      by_cases e : n = k
      · subst e
        rw [vupd_same]
        exact hf.resolve_left hk
      · rw [vupd_ne _ _ _ _ e] }

/-- An operation of the event system that leaves the levels. -/
theorem step (h : s.faultsOnly t N C) (k : t.evStep u) (l : u.levels = t.levels) : s.faultsOnly u N C where
  dev := (congrArg (fun x : State => x.dev) k.rest).trans h.dev
  power := (congrArg (fun x : State => x.power) k.rest).trans h.power
  surv := (congrArg (fun x : State => x.surv) k.rest).trans h.surv
  levels := l.trans h.levels
  stance n hn := (congrArg (fun x : State => x.axes[n].st.stance) k.rest).trans (h.stance n hn)
  word a ha hc := (k.word a (evWord_of_axisBlock ha)).trans (h.word a ha hc)

theorem pulse (h : s.faultsOnly t N C) (e i d : Nat) (he : e < 64) : s.faultsOnly (t.pulse e i d) N C :=
  h.step (t.pulse_step e i d he) (t.pulse_levels e i d)

/-! ## Endings -/

theorem noteLast (h : s.faultsOnly t N C) (c : Cmd) (st : Nat) : s.faultsOnly (t.noteLast c st) N C := by
  unfold State.noteLast
  split
  · exact .ite h.upd h
  · exact h

theorem noteEnd (h : s.faultsOnly t N C) (c : Cmd) (st : Nat) : s.faultsOnly (t.noteEnd c st) N C := by
  have noted := h.noteLast c st
  unfold State.noteEnd
  dsimp only
  split
  · exact .ite noted.upd noted.upd
  all_goals exact noted.upd

theorem recordEnd (h : s.faultsOnly t N C) (c : Cmd) (st : Nat) : s.faultsOnly (t.recordEnd c st) N C := by
  unfold State.recordEnd
  exact .ite h.upd (.ite h.upd h.upd)

theorem endCmd (h : s.faultsOnly t N C) (id st : Nat) : s.faultsOnly (t.endCmd id st) N C := by
  unfold State.endCmd
  split
  · exact h
  · dsimp only
    split
    · exact h
    all_goals
      split
      · exact (h.noteEnd _ st).recordEnd _ st
      · exact (h.noteEnd _ st).upd

theorem flushEnds (h : s.faultsOnly t N C) : s.faultsOnly t.flushEnds N C := .foldl (fun _ _ k => k.recordEnd _ _) h.upd

theorem gathered (h : s.faultsOnly t N C) (f : State → State) (hf : ∀ x, s.faultsOnly x N C → s.faultsOnly (f x) N C) :
    s.faultsOnly (t.gathered f) N C := by
  unfold State.gathered
  exact .ite (hf t h) (hf _ h.upd).flushEnds

/-! ## The parts of an entry to FAULT -/

/-- The other axes of a move decelerate: from MOVING to QUIESCING (R280). -/
theorem faultMove (h : s.faultsOnly t N C) (n : Fin 8) : s.faultsOnly (t.faultMove n) N C := by
  unfold State.faultMove
  refine .ite (.foldl (fun x st hx => ?_) h) h
  split
  · exact hx
  · refine State.faultsOnly.upd (.foldl (fun y k hy => ?_) (.foldl (fun y id hy => hy.endCmd id _) hx))
    refine hy.ax k _ (.inr ?_)
    split
    · next moving => rw [beq_iff_eq.1 moving]; rfl
    · rfl

theorem followLeave (h : s.faultsOnly t N C) (n : Fin 8) : s.faultsOnly (t.followLeave n) N C := by
  unfold State.followLeave
  exact .ite ((h.put _ _ (by simp [axisBlock]; omega)).ax n _ (.inr rfl)) h

theorem planIdle (h : s.faultsOnly t N C) (n : Fin 8) : s.faultsOnly (t.planIdle n) N C :=
  ((h.setWord _ _ (by simp [axisBlock]; omega)).put _ _ (by simp [axisBlock]; omega)).setWord _ _ (by simp [axisBlock]; omega)

theorem bridgesOff (h : s.faultsOnly t N C) (n : Fin 8) : s.faultsOnly (t.bridgesOff n) N C := h.upd

/-- A register of no axis block that is not the record of the causes of one of the axes `C`. -/
theorem g (h : s.faultsOnly t N C) (f : Fld) (ha : axisBlock f.a = false) (hc : ∀ n ∈ C, f.a ≠ 0x168 + n.val) : t.g f = s.g f :=
  State.word_eq_of_g _ _ f (h.word f.a ha hc)

theorem cause (h : s.faultsOnly t N C) (k : Fin 8) (hk : k ∉ C) : t.g (PWR_FLTCAUSE_BITS k) = s.g (PWR_FLTCAUSE_BITS k) :=
  h.g _ (axisBlock_cause k) fun n hn e => hk (by
    obtain rfl : k = n := Fin.ext (Nat.add_left_cancel e)
    exact hn)

theorem energised (h : s.faultsOnly t N C) (k : Fin 8) (hk : k ∉ N) : t.energised k = s.energised k :=
  congrArg Prod.fst (h.stance k hk)

theorem fault (h : s.faultsOnly t N C) (k : Fin 8) (hk : k ∉ N) : t.axes[k].st = .fault ↔ s.axes[k].st = .fault := by
  have same : (t.axes[k].st == .fault) = (s.axes[k].st == .fault) := congrArg Prod.snd (h.stance k hk)
  exact beq_iff_eq.symm.trans ((Bool.eq_iff_iff.1 same).trans beq_iff_eq)

end State.faultsOnly

/-! ## Entry to FAULT -/

variable (s : State)

/-- The causes recorded as an axis enters FAULT, or in FAULT. -/
def State.causesPut (s : State) (n : Fin 8) (pwr ax : Nat) : State :=
  let s := s.put (PWR_FLTCAUSE_BITS n) (s.g (PWR_FLTCAUSE_BITS n) ||| pwr)
  s.put (AX_FAULT_BITS n) (s.g (AX_FAULT_BITS n) ||| ax)

theorem State.causesPut_only (n : Fin 8) (pwr ax : Nat) : s.faultsOnly (s.causesPut n pwr ax) [] [n] :=
  (State.faultsOnly.refl.putCause n _ (List.mem_singleton.2 rfl)).put _ _ (by simp [axisBlock]; omega)

theorem State.causesPut_cause (n : Fin 8) (pwr ax : Nat) (h : pwr < 1024) :
    (s.causesPut n pwr ax).g (PWR_FLTCAUSE_BITS n) = s.g (PWR_FLTCAUSE_BITS n) ||| pwr := by
  unfold State.causesPut
  rw [State.put_g_ne _ _ _ _ (by simp; omega), State.put_g_same _ _ _ (by simp)]
  exact Nat.mod_eq_of_lt (Nat.or_lt_two_pow (s.g_lt _) h)

/-- Past the record of the causes only the stance of the axis itself changes. -/
theorem State.axisFault_past (n : Fin 8) (pwr ax st : Nat) : (s.causesPut n pwr ax).faultsOnly (s.axisFault n pwr ax st) [n] [] := by
  have ended : ∀ x : State, (s.causesPut n pwr ax).faultsOnly x [n] [] →
      ∀ c, (s.causesPut n pwr ax).faultsOnly (match faultEnding st c with | some y => x.endCmd c.id y | none => x) [n] [] := by
    intro x hx c
    split
    · exact hx.endCmd _ _
    · exact hx
  unfold State.axisFault
  refine .ite .refl (State.faultsOnly.refl.gathered _ fun x hx => ?_)
  have entered := (((hx.faultMove n).followLeave n).planIdle n).ax n (fun a => { a.rest with st := .fault })
    (.inl (List.mem_singleton.2 rfl))
  exact (State.faultsOnly.foldl (fun y c hy => ended y hy c) (entered.bridgesOff n)).pulse _ _ _ (by omega)

theorem State.axisFault_only (n : Fin 8) (pwr ax st : Nat) : s.faultsOnly (s.axisFault n pwr ax st) [n] [n] :=
  ((s.causesPut_only n pwr ax).mono (by simp) (by simp)).trans ((s.axisFault_past n pwr ax st).mono (by simp) (by simp))

theorem State.axisFault_cause (n : Fin 8) (pwr ax st : Nat) (h : pwr < 1024) :
    (s.axisFault n pwr ax st).g (PWR_FLTCAUSE_BITS n) = s.g (PWR_FLTCAUSE_BITS n) ||| pwr :=
  ((s.axisFault_past n pwr ax st).cause n (by simp)).trans (s.causesPut_cause n pwr ax h)

/-! ## A station opens (Table 3-4, R254) -/

theorem State.axisFaultIf_only (n : Fin 8) (pwr ax st : Nat) : s.faultsOnly (s.axisFaultIf n pwr ax st) [n] [n] :=
  .ite (s.axisFault_only n pwr ax st) .refl

/-- The axis opens. -/
theorem State.axisFaultIf_opens (n : Fin 8) (pwr ax st : Nat) (h : pwr < 1024) :
    s.opensAxes (s.axisFaultIf n pwr ax st) (fun k => k == n) pwr := by
  intro k
  have only := s.axisFaultIf_only n pwr ax st
  by_cases e : k = n
  · subst e
    simp only [beq_self_eq_true, true_and]
    unfold State.axisFaultIf
    by_cases c : s.energised k = true ∨ s.axes[k].st = .fault
    · rw [if_pos c, if_pos (by simpa using c)]
      exact ⟨s.axisFault_st k pwr ax st, s.axisFault_cause k pwr ax st h⟩
    · rw [if_neg c, if_neg (by simpa using c)]
      exact ⟨.rfl, rfl⟩
  · rw [if_neg fun c => e (beq_iff_eq.1 c.1)]
    exact ⟨only.fault k (by simpa using e), only.cause k (by simpa using e)⟩

variable {s} in
/-- One axis opens, then others. -/
theorem State.opensAxes.cons {t u : State} {m : Fin 8} {l : List (Fin 8)} {pwr : Nat} (h : s.opensAxes t (fun k => k == m) pwr)
    (only : s.faultsOnly t [m] [m]) (hl : m ∉ l) (k : t.opensAxes u (fun k => decide (k ∈ l)) pwr) :
    s.opensAxes u (fun k => decide (k ∈ m :: l)) pwr := by
  intro n
  have hn := h n
  have kn := k n
  by_cases e : n = m
  · subst e
    simp only [hl, decide_false, Bool.false_eq_true, false_and, if_false] at kn
    simpa only [List.mem_cons, true_or, decide_true, beq_self_eq_true, kn] using hn
  · have far : n ∉ [m] := by simpa using e
    simp only [only.energised n far, only.fault n far, only.cause n far] at kn
    simpa only [List.mem_cons, e, false_or] using kn

theorem State.axisFaultIfs_opens (pwr ax st : Nat) (h : pwr < 1024) (l : List (Fin 8)) (hl : l.Nodup) :
    s.opensAxes (l.foldl (fun s n => s.axisFaultIf n pwr ax st) s) (fun k => decide (k ∈ l)) pwr := by
  induction l generalizing s with
  | nil => exact fun n => by simp
  | cons m l ih =>
    obtain ⟨hm, hl⟩ := List.nodup_cons.1 hl
    exact (s.axisFaultIf_opens m pwr ax st h).cons (s.axisFaultIf_only m pwr ax st) hm (ih _ hl)

/-- Opening speaks of the axes' states and causes, before and after, and of nothing else. -/
theorem State.opensAxes.of_same {s s' t t' : State} {p : Fin 8 → Bool} {pwr : Nat} (h : s.opensAxes t p pwr) (axes : s.axes = s'.axes)
    (cause : ∀ n : Fin 8, s.g (PWR_FLTCAUSE_BITS n) = s'.g (PWR_FLTCAUSE_BITS n))
    (after : ∀ n : Fin 8, (t'.axes[n].st = .fault ↔ t.axes[n].st = .fault) ∧ t'.g (PWR_FLTCAUSE_BITS n) = t.g (PWR_FLTCAUSE_BITS n)) :
    s'.opensAxes t' p pwr := by
  intro n
  have hn := h n
  unfold State.energised at hn ⊢
  simp only [axes, cause, ← (after n).1, ← (after n).2] at hn
  exact hn

variable {s} in
theorem State.opensAxes.settle {t : State} {p : Fin 8 → Bool} {pwr : Nat} (h : s.opensAxes t p pwr) : s.opensAxes t.settle p pwr :=
  h.of_same rfl (fun _ => rfl) fun n => ⟨by rw [State.settle_axes], t.settle_g _ (evWord_of_axisBlock (axisBlock_cause n))⟩

/-- Every axis of the station that is energised, or in FAULT, opens, and no other. -/
theorem State.stationFault_opens (st : Fin 2) (pwr : Nat) (h : pwr < 1024) : s.opensStation (s.stationFault st pwr) st pwr := by
  have station : (fun k => decide (k ∈ axesOf st)) = fun k => stationOf k == st := by
    funext k
    exact Bool.eq_iff_iff.2 (by simp [axesOf])
  have opens (x : State) := x.axisFaultIfs_opens pwr 0 CANCELLED_FAULT h (axesOf st) ((List.nodup_finRange 8).filter _)
  rw [station] at opens
  unfold State.stationFault State.gathered
  split
  · exact opens s
  · have after {x : State} : x.faultsOnly x.flushEnds [] [] := State.faultsOnly.refl.flushEnds
    exact (opens { s with cyc := { s.cyc with ends := some [] } }).of_same rfl (fun _ => rfl)
      fun n => ⟨after.fault n (by simp), after.cause n (by simp)⟩

theorem State.stationFault_only (st : Fin 2) (pwr : Nat) : s.faultsOnly (s.stationFault st pwr) (axesOf st) (axesOf st) :=
  State.faultsOnly.refl.gathered _ fun _ hx => List.foldlRecOn (motive := fun x => s.faultsOnly x (axesOf st) (axesOf st)) _ _ hx
    fun x h n hn => h.trans ((x.axisFaultIf_only n pwr 0 CANCELLED_FAULT).mono (by simpa using hn) (by simpa using hn))

/-- PWR_STAT stays: it says what the supplies do. -/
theorem State.stationFault_pwrStat (st : Fin 2) (pwr : Nat) (f : Fld) (h : f.a = 0x140) : (s.stationFault st pwr).g f = s.g f :=
  (s.stationFault_only st pwr).g f (by rw [h]; decide) fun n _ => by omega

/-! ## The end of the cycle -/

/-- The end of a cycle leaves every level but those that follow ring 11. -/
theorem State.settle_level (e i : Nat) (h : e < 48) : s.settle.level e i = s.level e i := by
  have records (l : List EvRec) (x : State) : (l.foldl (fun s r => s.postEvent r) x).levels = x.levels :=
    foldl_ind (fun y => y.levels = x.levels) l _ (fun y r k => (y.postEvent_fields r).1.trans k) x rfl
  unfold State.settle
  dsimp only
  unfold State.level
  rw [records]
  change (State.evLostFlush _).levels.contains (e, i) = _
  rw [State.evLostFlush_levels]
  change State.level _ e i = s.level e i
  rw [State.levelSet_level, if_neg (by simp; omega), State.levelSet_level, if_neg (by simp; omega)]

end Sys2Proof.Machine
end

section
/-!
A record raised into the field-book queue (R448, R453).
-/

namespace Sys2Proof.Machine

variable (s : State) (typ : Nat) (payload : List Nat)

/-- The record as it stands in the queue. -/
def State.bookRec (s : State) (typ : Nat) (payload : List Nat) : FbRec :=
  { secs := s.fieldMs / 1000, ms := s.fieldMs % 1000, typ := typ,
    flags := b2n (s.gb MG_FCLK_STAT_SYNC) + 2 * b2n s.power.holdup, src := 0, state := s.dev.code, hseq := 0, payload := payload }

/-- Nothing is raised, the record is queued, or it is lost and counted. -/
theorem State.fbAdd_cases : s.fbAdd typ payload = s ∨
    s.fbAdd typ payload = s.su (fun v => { v with fbQ := v.fbQ ++ [s.bookRec typ payload] }) ∨
    s.fbAdd typ payload = (s.su fun v => { v with lostSince := v.lostSince + 1 }).inc MG_FB_STAT_LOST := by
  unfold State.fbAdd State.fbAddFrom
  split
  · exact .inl rfl
  · split
    · exact .inr (.inl rfl)
    · exact .inr (.inr rfl)

/-- It is queued where the surveyor takes up work and has room. -/
theorem State.fbAdd_queued (up : s.surveyorUp = true) (room : s.surv.fbQ.length < 64) :
    s.fbAdd typ payload = s.su (fun v => { v with fbQ := v.fbQ ++ [s.bookRec typ payload] }) := by
  unfold State.fbAdd State.fbAddFrom
  rw [up, if_neg (by simp), if_pos room]
  rfl

theorem State.fbAdd_power : (s.fbAdd typ payload).power = s.power := by
  obtain h | h | h := s.fbAdd_cases typ payload <;> rw [h] <;> rfl

theorem State.fbAdd_sameBut :
    (s.su fun _ => (s.fbAdd typ payload).surv).sameBut (s.fbAdd typ payload) [MG_FB_STAT_LOST.a] := by
  obtain h | h | h := s.fbAdd_cases typ payload <;> rw [h]
  · exact State.sameBut.refl
  · exact State.sameBut.refl
  · exact State.sameBut.refl.put _ _ (List.mem_singleton.2 rfl)

theorem State.fbAdd_booked : s.booked (s.fbAdd typ payload) typ payload := by
  intro up room
  rw [s.fbAdd_queued typ payload up room, State.su_surv]
  simp [State.bookRec]

theorem State.evStep.power {a b : State} (h : a.evStep b) : b.power = a.power := by
  have r := congrArg (fun x : State => x.power) h.rest
  exact r

theorem State.evStep.dev {a b : State} (h : a.evStep b) : b.dev = a.dev := by
  have r := congrArg (fun x : State => x.dev) h.rest
  exact r

/-- Events do not bear on whether the surveyor takes up work. -/
theorem State.evStep.surveyorUp {a b : State} (h : a.evStep b) : b.surveyorUp = a.surveyorUp := by
  have halted : b.g MG_SV_STAT_HALTED = a.g MG_SV_STAT_HALTED := State.word_eq_of_g _ _ _ (h.word _ (by decide))
  unfold State.surveyorUp State.surveyorRuns State.answers
  rw [State.gb_eq, State.gb_eq, h.dev, h.power, halted]

end Sys2Proof.Machine
end

section
/-!
HOME_LIMIT_FILTER_PASS (R58): the filtered level of one pin function.
-/

namespace Sys2Proof.Machine

variable (s : State)

/-- Where `Axis.pinF` holds the filtered level of a pin. -/
def limIdx : LimPin → Nat
  | .fb2 => 0
  | .step => 1
  | .dir => 2

/-- The filter passes no level: the pins are not acted on, it is off, the level has not stood for its time, or the line is under a
moisture test. -/
def State.limStays (s : State) (n : Fin 8) (pin : LimPin) (held : Nat) : Prop :=
  s.flPins = false ∨ s.g (AX_PINSEL_FILT n) = 0 ∨ held < 400 * s.g (AX_PINSEL_FILT n) ∨ (pin = .fb2 ∧ s.mwOn (3 * n.val + 2) = true)

/-- The filter passes a level. -/
def State.limTaken (s : State) (n : Fin 8) (pin : LimPin) (lvl : Bool) : State :=
  s.ax n fun a => { a with pinF := setBits a.pinF (limIdx pin) 1 (b2n lvl) }

section
variable {s} {dt : Nat} {n : Fin 8} {pin : LimPin} {lvl : Bool} {held : Nat}

theorem exec_homeLimitFilterPass : exec (.homeLimitFilterPass dt n pin ⟨lvl, held⟩) s =
    done (if !(s.tickTo dt).flPins || (s.tickTo dt).g (AX_PINSEL_FILT n) = 0 || held < usCyc ((s.tickTo dt).g (AX_PINSEL_FILT n)) ||
      (limIdx pin = 0 && (s.tickTo dt).mwOn (3 * n.val + 2)) then s.tickTo dt else (s.tickTo dt).limTaken n pin lvl) := by
  cases pin <;> rfl

theorem State.limStays_iff (u : State) : u.limStays n pin held ↔ (!u.flPins || u.g (AX_PINSEL_FILT n) = 0 ||
    held < usCyc (u.g (AX_PINSEL_FILT n)) || (limIdx pin = 0 && u.mwOn (3 * n.val + 2))) = true := by
  have first : limIdx pin = 0 ↔ pin = .fb2 := by cases pin <;> decide
  simp only [State.limStays, usCyc, first, Bool.or_eq_true, Bool.not_eq_true', Bool.and_eq_true, decide_eq_true_eq, or_assoc,
    Nat.mul_comm]

theorem homeLimitFilter_stays (h : (s.tickTo dt).limStays n pin held) :
    ∃ t, exec (.homeLimitFilterPass dt n pin ⟨lvl, held⟩) s = .next t ∧ (s.tickTo dt).sameBut t [] :=
  exec_next (exec_homeLimitFilterPass.trans (congrArg done (if_pos ((State.limStays_iff _).1 h)))) State.sameBut.refl.settle

theorem homeLimitFilter_takes (h : ¬ (s.tickTo dt).limStays n pin held) :
    ∃ t, exec (.homeLimitFilterPass dt n pin ⟨lvl, held⟩) s = .next t ∧
      ({ s.tickTo dt with axes := t.axes }).sameBut t [] ∧
      t.axes = vupd (s.tickTo dt).axes n (fun a => { a with pinF := t.axes[n].pinF }) ∧
      bit t.axes[n].pinF (limIdx pin) = lvl ∧
      ∀ j : Fin 3, j.val ≠ limIdx pin → bit t.axes[n].pinF j = bit (s.tickTo dt).axes[n].pinF j := by
  refine exec_next (exec_homeLimitFilterPass.trans (congrArg done (if_neg fun c => h ((State.limStays_iff _).2 c)))) ?_
  generalize s.tickTo dt = u
  have pinF : (u.limTaken n pin lvl).axes[n].pinF = setBits u.axes[n].pinF (limIdx pin) 1 (b2n lvl) :=
    congrArg Axis.pinF (State.ax_st_same _ _ _)
  rw [State.settle_axes, pinF]
  exact ⟨State.sameBut.refl.settle, (u.ax_axes n _).trans (vupd_congr _ _ rfl), bit_setBits_same _ _ _,
    fun j hj => bit_setBits_ne _ _ _ _ hj.symm⟩

end

/-- Settles O8: the filter sets one bit of the axis's filtered levels, where none of the four reasons of `State.limStays` holds. -/
theorem homeLimitFilter : Obligations.HomeLimitFilter := by
  refine ⟨fun s dt n pin lvl held acted on stood clear => ?_, fun s dt n pin lvl held => homeLimitFilter_stays⟩
  have passes : ¬ (s.tickTo dt).limStays n pin held := by
    rintro (h | h | h | ⟨rfl, h⟩)
    · exact Bool.false_ne_true (h.symm.trans acted)
    · exact on h
    · exact absurd stood (Nat.not_le.2 h)
    · exact Bool.false_ne_true ((clear rfl).symm.trans h)
  cases pin <;> exact homeLimitFilter_takes passes

end Sys2Proof.Machine
end

section
/-!
BRAKE_CLAMP_ENGAGE and BRAKE_CLAMP_RELEASE (R62, R74): an episode begins and ends.
-/

namespace Sys2Proof.Machine

variable (s : State)

/-- An episode begins: CLAMP set, the clamp on, its start and its first peak noted. -/
def State.clampBegins (s : State) (st : Fin 2) : State :=
  (s.put (PWR_STAT_CLAMP st) 1).pw fun p => { p with
    clampOn := vupd p.clampOn st fun _ => true, clampAt := vupd p.clampAt st fun _ => s.now,
    clampPeak := vupd p.clampPeak st fun _ => p.vms[st] }

/-- A clamp that conducts drives BRKG high. -/
theorem State.pinState_brkg_clamp (st : Fin 2) (h : s.power.clampOn[st] = true) : s.pinState .brkg = .high := by
  have driven : s.brkg = true := by
    unfold State.brkg
    match st with
    | 0 => rw [show s.power.clampOn[0] = true from h]; simp
    | 1 => rw [show s.power.clampOn[1] = true from h]; simp
  exact if_pos driven

theorem State.clampBegins_clamp (st : Fin 2) : (s.clampBegins st).g (PWR_STAT_CLAMP st) = 1 :=
  s.put_g_same _ _ (by simp; omega)

/-- What an episode's begin notes in the supplies' state. -/
theorem State.clampBegins_noted (st : Fin 2) {t : State} (h : t.power = (s.clampBegins st).power) :
    t.power.clampAt[st] = s.now ∧ t.power.clampPeak[st] = s.power.vms[st] ∧ t.power.clampOn[st] = true := by
  rw [h]
  exact ⟨vupd_same _ _ _, vupd_same _ _ _, vupd_same _ _ _⟩

/-- An episode ends: CLAMP cleared, the clamp off. -/
def State.clampEnds (s : State) (st : Fin 2) : State :=
  (s.put (PWR_STAT_CLAMP st) 0).pw fun p => { p with clampOn := vupd p.clampOn st fun _ => false }

/-- An episode's record: the station, its peak, and its length in ms. -/
def State.clampRecord (s : State) (st : Fin 2) : List Nat :=
  [st.val, 0] ++ beBytes 2 s.power.clampPeak[st] ++ beBytes 4 (min ((s.now - s.power.clampAt[st]) / 400000) (2 ^ 32 - 1))

/-! ## Engaging -/

section
variable {s} {dt : Nat} {st : Fin 2}

theorem exec_brakeClampEngage : exec (.brakeClampEngage dt st) s =
    let u := s.tickTo dt
    done (if u.gb (PWR_STAT_CLAMP st) then u
      else if u.awake then ((u.clampBegins st).levelOn 11 st 0).stationFault st fcCLAMP else u.clampBegins st) := rfl

theorem brakeClamp_opens :
    let u := s.tickTo dt
    u.gb (PWR_STAT_CLAMP st) = false → u.awake = true →
    ∃ t, exec (.brakeClampEngage dt st) s = .next t ∧
      u.quelled t [] ∧ t.gb (PWR_STAT_CLAMP st) = true ∧ t.power.clampAt[st] = u.now ∧ t.power.clampPeak[st] = u.power.vms[st] ∧
      t.power.clampOn[st] = true ∧ t.pinState .brkg = .high ∧ t.level 11 st = true ∧ u.opensStation t st fcCLAMP := by
  intro u off awake
  have hx := (exec_brakeClampEngage (s := s)).trans (congrArg done ((if_neg (by rw [off]; decide)).trans (if_pos awake)))
  refine exec_next hx ?_
  let e := (u.clampBegins st).levelOn 11 st 0
  have only := e.stationFault_only st fcCLAMP
  have power : (e.stationFault st fcCLAMP).settle.power = (u.clampBegins st).power := by
    rw [State.settle_power, only.power]
    exact State.levelOn_power _ _ _ _ (by decide)
  obtain ⟨began, peak, on⟩ := u.clampBegins_noted st power
  have stat : evWord (PWR_STAT_CLAMP st).a = false := rfl
  refine ⟨?_, ?_, began, peak, on, State.pinState_brkg_clamp _ st on, ?_, ?_⟩
  · have begins : u.quelled (u.clampBegins st) [] := (State.quelled.refl.put _ _ (.inr rfl)).upd
    exact (State.stationFault_quell _ _ _ (State.levelOn_quell _ _ _ _ (by decide) begins)).settle
  · rw [State.gb_eq, State.settle_g _ _ stat, State.stationFault_pwrStat _ _ _ _ rfl, State.levelOn_g _ _ _ _ (by decide) _ stat,
      State.clampBegins_clamp]
    rfl
  · rw [State.settle_level _ _ _ (by decide)]
    unfold State.level
    rw [only.levels]
    exact (State.levelOn_level _ _ _ _ _ _).trans (by simp)
  · refine ((e.stationFault_opens st fcCLAMP (by decide)).of_same (s' := u) (State.levelOn_axes _ _ _ _ (by decide)) (fun n => ?_)
      fun n => ⟨.rfl, rfl⟩).settle
    rw [State.levelOn_g _ _ _ _ (by decide) _ (evWord_of_axisBlock (axisBlock_cause n))]
    exact u.put_g_ne _ _ _ (by simp; omega)

theorem brakeClamp_unpowered :
    let u := s.tickTo dt
    u.gb (PWR_STAT_CLAMP st) = false → u.awake = false →
    ∃ t, exec (.brakeClampEngage dt st) s = .next t ∧
      ({ u.put (PWR_STAT_CLAMP st) 1 with power := t.power }).sameBut t [] ∧ t.power.clampAt[st] = u.now ∧
      t.power.clampOn[st] = true ∧ t.pinState .brkg = .high := by
  intro u off asleep
  have hx := (exec_brakeClampEngage (s := s)).trans (congrArg done ((if_neg (by rw [off]; decide)).trans
    (if_neg (by rw [asleep]; decide))))
  refine exec_next hx ?_
  have power := (u.clampBegins st).settle_power
  obtain ⟨began, -, on⟩ := u.clampBegins_noted st power
  refine ⟨?_, began, on, State.pinState_brkg_clamp _ st on⟩
  rw [power]
  exact State.sameBut.refl.settle

/-! ## Releasing -/

theorem exec_brakeClampRelease : exec (.brakeClampRelease dt st) s =
    let u := s.tickTo dt
    done (if !u.gb (PWR_STAT_CLAMP st) then u
      else if u.awake then ((u.clampEnds st).levelOff 11 st (mv20 u.power.clampPeak[st])).fbAdd 0x12 (u.clampRecord st)
      else u.clampEnds st) := rfl

theorem brakeClamp_ends :
    let u := s.tickTo dt
    u.gb (PWR_STAT_CLAMP st) = true → u.awake = true →
    ∃ t, exec (.brakeClampRelease dt st) s = .next t ∧
      ({ u.put (PWR_STAT_CLAMP st) 0 with surv := t.surv, power := t.power }).sameBut t [MG_FB_STAT_LOST.a] ∧
      t.power = { u.power with clampOn := vupd u.power.clampOn st fun _ => false } ∧ t.level 11 st = false ∧
      u.booked t 0x12 (u.clampRecord st) := by
  intro u on awake
  have hx := (exec_brakeClampRelease (s := s)).trans (congrArg done ((if_neg (by rw [on]; decide)).trans (if_pos awake)))
  refine exec_next hx ?_
  have off := (u.clampEnds st).levelOff_step 11 st (mv20 u.power.clampPeak[st])
  have cleared := (u.clampEnds st).levelOff_level 11 st (mv20 u.power.clampPeak[st]) 11 st
  have surv := (u.clampEnds st).levelOff_surv 11 st (mv20 u.power.clampPeak[st])
  generalize (u.clampEnds st).levelOff 11 st (mv20 u.power.clampPeak[st]) = l at *
  have power : (l.fbAdd 0x12 (u.clampRecord st)).settle.power = (u.clampEnds st).power := by
    rw [State.settle_power, State.fbAdd_power]
    exact off.power
  refine ⟨?_, power, ?_, ?_⟩
  · rw [power, State.settle_surv]
    exact (((State.sameBut.refl.step off).su fun _ => (l.fbAdd 0x12 (u.clampRecord st)).surv).trans
      (l.fbAdd_sameBut 0x12 (u.clampRecord st))).settle
  · rw [State.settle_level _ _ _ (by decide)]
    unfold State.level
    rw [State.fbAdd_levels]
    exact cleared.trans (by simp)
  · intro up room
    rw [State.settle_surv]
    have upE : (u.clampEnds st).surveyorUp = u.surveyorUp := by
      unfold State.surveyorUp State.surveyorRuns
      rw [State.gb_eq, State.gb_eq, show (u.clampEnds st).g MG_SV_STAT_HALTED = u.g MG_SV_STAT_HALTED from
        u.put_g_ne _ _ _ (by simp)]
      rfl
    have h := l.fbAdd_booked 0x12 (u.clampRecord st) (off.surveyorUp.trans (upE.trans up))
    rw [surv] at h
    exact h room

end

/-- Settles O9: an episode's begin opens the station, or notes itself alone in an unpowered device; its end is recorded. -/
theorem brakeClamp : Obligations.BrakeClamp := by
  refine ⟨fun _ _ _ => brakeClamp_opens, fun _ _ _ => brakeClamp_unpowered, fun _ _ _ => brakeClamp_ends, fun s dt st => ?_⟩
  intro u
  by_cases on : u.gb (PWR_STAT_CLAMP st) = true
  · rw [if_pos on]
    exact exec_next (exec_brakeClampEngage.trans (congrArg done (if_pos on))) State.sameBut.refl.settle
  · rw [if_neg on]
    exact exec_next (exec_brakeClampRelease.trans (congrArg done (if_pos (by simpa using on)))) State.sameBut.refl.settle

end Sys2Proof.Machine
end

section
/-!
What a comparator of the supplies leaves alone before a station opens, and the end of such a command.
-/

namespace Sys2Proof.Machine

variable (s : State)

/-! ## One-bit fields -/

theorem State.settle_gb (f : Fld) (h : evWord f.a = false) : s.settle.gb f = s.gb f := by
  rw [State.gb_eq, State.gb_eq, State.settle_g _ _ h]

theorem State.put_gb_same (f : Fld) (v : Nat) (h : f.lo + f.w ≤ 32) : (s.put f v).gb f = (v % 2 ^ f.w != 0) := by
  rw [State.gb_eq, State.put_g_same _ _ _ h]

theorem State.put_gb_apart (f f' : Fld) (v : Nat) (h : f.lo + f.w ≤ 32) (d : f.apart f') : (s.put f v).gb f' = s.gb f' := by
  rw [State.gb_eq, State.gb_eq, State.put_g_disj _ _ _ _ h d]

variable {s}

/-- A command that does nothing changes nothing. -/
theorem exec_same {c : Instr} {u : State} (h : exec c s = done u) : ∃ t, exec c s = .next t ∧ u.sameBut t [] :=
  exec_next h State.sameBut.refl.settle

/-- Whether the surveyor takes up work hangs on the device, the supply and the halt alone (R85, R448). -/
theorem State.surveyorUp_congr {a b : State} (dev : b.dev = a.dev) (dead : b.power.dead = a.power.dead)
    (holdup : b.power.holdup = a.power.holdup) (halted : b.halted = a.halted) : b.surveyorUp = a.surveyorUp := by
  have h : b.g MG_SV_STAT_HALTED = a.g MG_SV_STAT_HALTED := halted
  unfold State.surveyorUp State.surveyorRuns State.answers
  rw [State.gb_eq, State.gb_eq, h, dev, dead, holdup]

/-- A record raised where the field-book queue and the surveyor stand as before. -/
theorem State.booked_of_same {u l : State} (surv : l.surv = u.surv) (up : l.surveyorUp = u.surveyorUp) (typ : Nat) (payload : List Nat) :
    u.booked (l.fbAdd typ payload).settle typ payload := by
  intro running room
  rw [State.settle_surv, ← surv]
  exact l.fbAdd_booked typ payload (up.trans running) (by rw [surv]; exact room)

/-- An identical update of one element. -/
theorem vupd_id {α : Type} {k : Nat} (v : Vector α k) (i : Fin k) : vupd v i (fun x => x) = v := vupd_self v i _ rfl

/-! ## Before the station opens -/

/-- `w` is `s` but for the supplies' state and PWR_STAT, events aside, and the surveyor is fed as before. -/
structure State.supplyOnly (s w : State) : Prop where
  same : ({ s with power := w.power }).sameBut w [0x140]
  dead : w.power.dead = s.power.dead
  holdup : w.power.holdup = s.power.holdup

namespace State.supplyOnly
variable {w x : State}

theorem refl : s.supplyOnly s := ⟨State.sameBut.refl, rfl, rfl⟩

theorem put (h : s.supplyOnly w) (f : Fld) (v : Nat) (hf : f.a = 0x140) : s.supplyOnly (w.put f v) :=
  ⟨h.same.put f v (List.mem_singleton.2 hf), h.dead, h.holdup⟩

theorem pw (h : s.supplyOnly w) (f : PowerSt → PowerSt) (dead : (f w.power).dead = w.power.dead)
    (holdup : (f w.power).holdup = w.power.holdup) : s.supplyOnly (w.pw f) :=
  ⟨h.same.pw f, dead.trans h.dead, holdup.trans h.holdup⟩

theorem step (h : s.supplyOnly w) (k : w.evStep x) : s.supplyOnly x := by
  have power := k.power
  exact ⟨by rw [power]; exact h.same.step k, by rw [power]; exact h.dead, by rw [power]; exact h.holdup⟩

theorem word (h : s.supplyOnly w) (a : Nat) (ha : a ≠ 0x140) (he : evWord a = false) : w.word a = s.word a :=
  h.same.2.2 a (by simpa using ha) he

theorem quelled (h : s.supplyOnly w) : s.quelled w [] :=
  have same {α : Type} (p : State → α) (r : w.rest = ({ s with power := w.power } : State).rest) :
      p w.rest = p ({ s with power := w.power } : State).rest := congrArg p r
  have r := h.same.2.1
  ⟨h.same.1, same (·.pending) r, same (·.staged) r, same (·.groups) r, same (·.links) r, same (·.grelas) r, same (·.indQ) r,
    same (·.window) r, same (·.nextId) r, same (·.store) r, same (·.chain) r, same (·.chainOut) r, same (·.chainRst) r,
    same (·.chainMode) r, same (·.nvm) r, same (·.otp) r, same (·.flash) r,
    fun a _ hf => h.word a (fun e => by rw [e] at hf; exact absurd hf (by decide)) (evWord_quells hf)⟩

theorem axes (h : s.supplyOnly w) : w.axes = s.axes := congrArg (·.axes) h.same.2.1

theorem surv (h : s.supplyOnly w) : w.surv = s.surv := congrArg (·.surv) h.same.2.1

theorem cause (h : s.supplyOnly w) (n : Fin 8) : w.g (PWR_FLTCAUSE_BITS n) = s.g (PWR_FLTCAUSE_BITS n) :=
  State.word_eq_of_g _ _ _ (h.word _ (by simp; omega) (evWord_of_axisBlock (axisBlock_cause n)))

theorem surveyorUp (h : s.supplyOnly w) : w.surveyorUp = s.surveyorUp :=
  State.surveyorUp_congr (congrArg (·.dev) h.same.2.1) h.dead h.holdup (State.word_eq_of_g _ _ _ (h.word _ (by decide) (by decide)))

variable (st : Fin 2) {pwr : Nat}

/-- The station's axes open, counted from the state before the comparator's own mark. -/
theorem opens (h : s.supplyOnly w) (hp : pwr < 1024) : s.opensStation (w.stationFault st pwr) st pwr :=
  (w.stationFault_opens st pwr hp).of_same h.axes h.cause fun _ => ⟨.rfl, rfl⟩

theorem stationFault_quelled (h : s.supplyOnly w) : s.quelled (w.stationFault st pwr) [] := State.stationFault_quell _ _ _ h.quelled

theorem stationFault_surveyorUp (h : s.supplyOnly w) : (w.stationFault st pwr).surveyorUp = s.surveyorUp := by
  have only := w.stationFault_only st pwr
  exact (State.surveyorUp_congr only.dev (by rw [only.power]) (by rw [only.power])
    (only.g MG_SV_STAT_HALTED (by decide) fun n _ => by simp; omega)).trans h.surveyorUp

end State.supplyOnly

/-! ## After the station has opened -/

/-- The level of the condition set, and its record of type 0x11 raised (R70, R448). -/
def State.tripTold (s : State) (e : Nat) (st : Fin 2) (d : Nat) (payload : List Nat) : State := (s.levelOn e st d).fbAdd 0x11 payload

section
variable (w : State) (st : Fin 2) (pwr e d : Nat) (payload : List Nat) (he : e < 48)
include he

theorem State.tripTold_power : (w.tripTold e st d payload).power = w.power :=
  (State.fbAdd_power _ _ _).trans (w.levelOn_step e st d (by omega)).power

theorem State.tripTold_word (a : Nat) (ha : a ≠ MG_FB_STAT_LOST.a) (ev : evWord a = false) : (w.tripTold e st d payload).word a = w.word a :=
  ((State.fbAdd_sameBut _ 0x11 payload).2.2 a (by simpa using ha) ev).trans ((w.levelOn_step e st d (by omega)).word a ev)

theorem State.tripTold_axes : (w.tripTold e st d payload).axes = w.axes :=
  (congrArg (·.axes) (State.fbAdd_sameBut (w.levelOn e st d) 0x11 payload).2.1).trans (w.levelOn_axes e st d (by omega))

theorem State.tripTold_level : (w.tripTold e st d payload).settle.level e st = true := by
  rw [State.settle_level _ _ _ he]
  unfold State.level State.tripTold
  rw [State.fbAdd_levels]
  exact (State.levelOn_level _ _ _ _ _ _).trans (by simp)

theorem State.tripTold_quell {u : State} (h : u.quelled w []) : u.quelled (w.tripTold e st d payload).settle [] :=
  (State.fbAdd_quell _ _ _ (State.levelOn_quell _ _ _ _ (by omega) h)).settle

end

end Sys2Proof.Machine
end

section
/-!
The motor-supply comparators (R65 to R70, Table 3-4).
-/

namespace Sys2Proof.Machine

/-- What a comparator that opens its station and tells of it leaves behind. -/
theorem State.supplyOnly.trips {s w : State} (h : s.supplyOnly w) (st : Fin 2) (pwr e d : Nat) (payload : List Nat) (he : e < 48)
    (hp : pwr < 1024) :
    let t := ((w.stationFault st pwr).tripTold e st d payload).settle
    s.quelled t [] ∧ t.power = w.power ∧ (∀ f : Fld, f.a = 0x140 → t.gb f = w.gb f) ∧ t.level e st = true ∧
      s.opensStation t st pwr ∧ s.booked t 0x11 payload := by
  intro t
  have only := w.stationFault_only st pwr
  refine ⟨State.tripTold_quell _ st e d payload he (h.stationFault_quelled st), ?_, fun f hf => ?_,
    State.tripTold_level _ st e d payload he, ?_, ?_⟩
  · rw [State.settle_power, State.tripTold_power _ _ _ _ _ he, only.power]
  · rw [State.settle_gb _ _ (by rw [hf]; decide), State.gb_eq, State.gb_eq,
      State.word_eq_of_g _ _ f (State.tripTold_word _ st e d payload he f.a (by rw [hf]; decide) (by rw [hf]; decide)),
      State.stationFault_pwrStat _ _ _ _ hf]
  · refine ((h.opens st hp).of_same rfl (fun _ => rfl) fun n => ⟨?_, ?_⟩).settle
    · rw [State.tripTold_axes _ _ _ _ _ he]
    · exact State.word_eq_of_g _ _ _ (State.tripTold_word _ st e d payload he _ (by simp; omega)
        (evWord_of_axisBlock (axisBlock_cause n)))
  · have told := (w.stationFault st pwr).levelOn_step e st d (by omega)
    refine State.booked_of_same ?_ (told.surveyorUp.trans (h.stationFault_surveyorUp st)) 0x11 payload
    rw [State.levelOn_surv _ _ _ _ (by omega), only.surv, h.surv]

/-! ## The blocking switch (R65) -/

section
variable {s : State} {dt : Nat} {st : Fin 2} {mv : BitVec 16}

theorem exec_blockingSwitchOn : exec (.blockingSwitchOn dt st) s =
    let u := s.tickTo dt
    done (if u.gb (PWR_STAT_REV st) then u else u.pw fun p => { p with sw := vupd p.sw st fun _ => true }) := rfl

theorem exec_blockingSwitchOff : exec (.blockingSwitchOff dt st) s =
    done ((s.tickTo dt).pw fun p => { p with sw := vupd p.sw st fun _ => false }) := rfl

theorem blockingSwitch_follows (on : Bool) :
    let u := s.tickTo dt
    ∃ t, exec (if on then .blockingSwitchOn dt st else .blockingSwitchOff dt st) s = .next t ∧
      ({ u with power := t.power }).sameBut t [] ∧
      t.power = { u.power with sw := vupd u.power.sw st (fun b => on && (b || !u.gb (PWR_STAT_REV st))) } := by
  intro u
  cases on with
  | false =>
    refine exec_next exec_blockingSwitchOff ?_
    rw [State.settle_power]
    exact ⟨State.sameBut.refl.settle, rfl⟩
  | true =>
    refine exec_next exec_blockingSwitchOn ?_
    rw [State.settle_power]
    cases rev : (s.tickTo dt).gb (PWR_STAT_REV st) with
    | true =>
      refine ⟨State.sameBut.refl.settle, ?_⟩
      simp [u, vupd_id]
    | false =>
      refine ⟨State.sameBut.refl.settle, ?_⟩
      simp [u]

/-! ## Undervoltage (R67, R69) -/

/-- VM_OK falls, with its event, where it was set. -/
def State.vmFails (s : State) (st : Fin 2) (mv : Nat) : State :=
  if s.gb (PWR_STAT_VM_OK st) then (s.put (PWR_STAT_VM_OK st) 0).pulse 8 st (mv20 mv) else s

theorem State.supplyOnly.vmFails {w : State} (h : s.supplyOnly w) (st : Fin 2) (mv : Nat) : s.supplyOnly (w.vmFails st mv) := by
  unfold State.vmFails
  split
  · exact (h.put _ _ rfl).step (State.pulse_step _ _ _ _ (by decide))
  · exact h

theorem State.vmFails_gb (w : State) (st : Fin 2) (mv : Nat) (f : Fld) (hf : evWord f.a = false)
    (d : (PWR_STAT_VM_OK st).apart f) : (w.vmFails st mv).gb f = w.gb f := by
  unfold State.vmFails
  split
  · rw [State.gb_eq, (State.pulse_step _ 8 st (mv20 mv) (by decide)).g f hf, ← State.gb_eq,
      State.put_gb_apart _ _ _ _ (by simp; omega) d]
  · rfl

theorem State.vmFails_ok (w : State) (st : Fin 2) (mv : Nat) : (w.vmFails st mv).gb (PWR_STAT_VM_OK st) = false := by
  unfold State.vmFails
  split
  · rw [State.gb_eq, (State.pulse_step _ 8 st (mv20 mv) (by decide)).g _ (by simp [evWord]), ← State.gb_eq,
      State.put_gb_same _ _ _ (by simp; omega)]
    rfl
  · next off => exact eq_false_of_ne_true off

theorem State.vmFails_power (w : State) (st : Fin 2) (mv : Nat) : (w.vmFails st mv).power = w.power := by
  unfold State.vmFails
  split
  · exact (State.pulse_step _ 8 st (mv20 mv) (by decide)).power
  · rfl

theorem exec_vmLockout : exec (.vmLockout dt st mv) s =
    let u := s.tickTo dt
    done (if u.gb (PWR_STAT_VM_OK st) then (u.vmFails st mv.toNat).stationFault st fcUV else u) := rfl

theorem vmLockout_opens :
    let u := s.tickTo dt
    u.gb (PWR_STAT_VM_OK st) = true →
    ∃ t, exec (.vmLockout dt st mv) s = .next t ∧
      u.quelled t [] ∧ t.gb (PWR_STAT_VM_OK st) = false ∧ t.evPending 8 = true ∧ u.opensStation t st fcUV := by
  intro u ok
  refine exec_next (exec_vmLockout.trans (congrArg done (if_pos ok))) ?_
  have marked : u.supplyOnly (u.vmFails st mv.toNat) := State.supplyOnly.refl.vmFails st _
  have raised : (u.vmFails st mv.toNat).evPending 8 = true := by
    unfold State.vmFails
    rw [if_pos ok]
    exact State.pulse_raises _ _ _ _ (by decide)
  refine ⟨(marked.stationFault_quelled st).settle, ?_, ?_, (marked.opens st (by decide)).settle⟩
  · rw [State.settle_gb _ _ (by simp [evWord]), State.gb_eq, State.stationFault_pwrStat _ _ _ _ rfl, ← State.gb_eq]
    exact u.vmFails_ok st _
  · exact ((State.stationFault_graver _ st fcUV State.graver.refl).settle).pend 8 (by decide) raised

theorem exec_vmLockoutRelease : exec (.vmLockoutRelease dt st) s =
    let u := s.tickTo dt
    done (if u.gb (PWR_STAT_REV st) then u else u.put (PWR_STAT_VM_OK st) 1) := rfl

theorem exec_uvWarnChange (below : Bool) : exec (.uvWarnChange dt st below) s = done ((s.tickTo dt).putB (PWR_STAT_UV_WARN st) below) := rfl

/-! ## Overvoltage and reversal (R70) -/

theorem exec_vmOvervoltage : exec (.vmOvervoltage dt st mv) s =
    let u := s.tickTo dt
    done (if u.gb (PWR_STAT_OV st) then u else
      ((u.put (PWR_STAT_OV st) 1).stationFault st fcOV).tripTold 9 st (mv20 mv.toNat) ([st.val, 1] ++ beBytes 2 mv.toNat)) := rfl

theorem vmOvervoltage_opens :
    let u := s.tickTo dt
    u.gb (PWR_STAT_OV st) = false →
    ∃ t, exec (.vmOvervoltage dt st mv) s = .next t ∧
      u.quelled t [] ∧ t.gb (PWR_STAT_OV st) = true ∧ t.level 9 st = true ∧ u.opensStation t st fcOV ∧
      u.booked t 0x11 ([st.val, 1] ++ beBytes 2 mv.toNat) := by
  intro u off
  refine exec_next (exec_vmOvervoltage.trans (congrArg done (if_neg (ne_true_of_eq_false off)))) ?_
  have marked : u.supplyOnly (u.put (PWR_STAT_OV st) 1) := State.supplyOnly.refl.put _ _ rfl
  obtain ⟨quelled, -, stat, level, opens, booked⟩ :=
    marked.trips st fcOV 9 (mv20 mv.toNat) ([st.val, 1] ++ beBytes 2 mv.toNat) (by decide) (by decide)
  refine ⟨quelled, (stat _ rfl).trans ?_, level, opens, booked⟩
  exact (u.put_gb_same _ _ (by simp; omega)).trans rfl

/-- VM of the station is reversed: REV set, the switch off. -/
def State.vmTurns (s : State) (st : Fin 2) : State :=
  (s.put (PWR_STAT_REV st) 1).pw fun p => { p with sw := vupd p.sw st fun _ => false }

theorem exec_vmReversed : exec (.vmReversed dt st mv) s =
    let u := s.tickTo dt
    done (if u.gb (PWR_STAT_REV st) then u else
      (((u.vmTurns st).vmFails st mv.toNat).stationFault st (fcUV + fcREV)).tripTold 10 st 0 ([st.val, 2] ++ beBytes 2 mv.toNat)) := rfl

theorem vmReversed_opens :
    let u := s.tickTo dt
    u.gb (PWR_STAT_REV st) = false →
    ∃ t, exec (.vmReversed dt st mv) s = .next t ∧
      u.quelled t [] ∧ t.gb (PWR_STAT_REV st) = true ∧ t.power.sw[st] = false ∧ t.gb (PWR_STAT_VM_OK st) = false ∧
      t.level 10 st = true ∧ u.opensStation t st (fcUV + fcREV) ∧ u.booked t 0x11 ([st.val, 2] ++ beBytes 2 mv.toNat) := by
  intro u off
  refine exec_next (exec_vmReversed.trans (congrArg done (if_neg (ne_true_of_eq_false off)))) ?_
  have turned : u.supplyOnly (u.vmTurns st) := (State.supplyOnly.refl.put _ _ rfl).pw _ rfl rfl
  obtain ⟨quelled, power, stat, level, opens, booked⟩ := (turned.vmFails st mv.toNat).trips st (fcUV + fcREV) 10 0
    ([st.val, 2] ++ beBytes 2 mv.toNat) (by decide) (by decide)
  refine ⟨quelled, (stat _ rfl).trans ?_, ?_, (stat _ rfl).trans (State.vmFails_ok _ st _), level, opens, booked⟩
  · rw [State.vmFails_gb _ _ _ _ (by simp [evWord]) (.inr (.inl (by simp)))]
    exact (u.put_gb_same _ _ (by simp; omega)).trans rfl
  · rw [power, State.vmFails_power]
    exact vupd_same _ _ _

/-- A bit of PWR_STAT falls, and its level. -/
theorem State.putLevelOff_falls (u : State) (f : Fld) (e d : Nat) (he : e < 48) :
    let t := ((u.put f 0).levelOff e st d).settle
    (u.put f 0).sameBut t [] ∧ t.level e st = false := by
  refine ⟨(State.sameBut.refl.step (State.levelOff_step _ _ _ _)).settle, ?_⟩
  rw [State.settle_level _ _ _ he, State.levelOff_level]
  simp

theorem exec_vmOvervoltageClear : exec (.vmOvervoltageClear dt st mv) s =
    done (((s.tickTo dt).put (PWR_STAT_OV st) 0).levelOff 9 st (mv20 mv.toNat)) := rfl

theorem exec_vmReverseClear : exec (.vmReverseClear dt st) s = done (((s.tickTo dt).put (PWR_STAT_REV st) 0).levelOff 10 st 0) := rfl

theorem vmTrip_stands (rev : Bool) :
    let u := s.tickTo dt
    u.gb (if rev then PWR_STAT_REV st else PWR_STAT_OV st) = true →
    ∃ t, exec (if rev then .vmReversed dt st mv else .vmOvervoltage dt st mv) s = .next t ∧ u.sameBut t [] := by
  intro u on
  cases rev with
  | true => exact exec_same (exec_vmReversed.trans (congrArg done (if_pos on)))
  | false => exact exec_same (exec_vmOvervoltage.trans (congrArg done (if_pos on)))

end

/-- Settles O10: the crossings that open a station mark the supply first (`State.supplyOnly`), then the station's axes open. -/
theorem motorSupplyLimits : Obligations.MotorSupplyLimits := by
  refine ⟨fun _ _ _ => blockingSwitch_follows, fun _ _ _ _ => vmLockout_opens, fun s dt st mv off => ?_, fun s dt st => ?_,
    fun s dt st below => ?_, fun _ _ _ _ => vmOvervoltage_opens, fun s dt st mv => ?_, fun _ _ _ _ => vmReversed_opens,
    fun s dt st _ => ?_, fun _ _ _ _ => vmTrip_stands⟩
  · exact exec_same (exec_vmLockout.trans (congrArg done (if_neg (ne_true_of_eq_false off))))
  · exact exec_same exec_vmLockoutRelease
  · exact exec_same (exec_uvWarnChange below)
  · exact exec_next exec_vmOvervoltageClear (State.putLevelOff_falls _ _ 9 _ (by decide))
  · exact exec_next exec_vmReverseClear (State.putLevelOff_falls _ _ 10 _ (by decide))

end Sys2Proof.Machine
end

section
/-!
BRAKE_HOLDOFF_END (R73): where the hold-off is noted for a later instant and BRK_MAXON is 0, the two clauses of the statement disagree.
-/

namespace Sys2Proof.Machine

/-- BRK_HOT set, BRK_MAXON 0, and the hold-off's start one cycle ahead of the present. -/
def holdoffAhead : State :=
  ((State.reset.put PWR_STAT_BRK_HOT 1).put PWR_VM_AUX_BRK_MAXON 0).pw fun p => { p with hotAt := 1 }

theorem holdoffAhead_hot : (holdoffAhead.tickTo 0).gb PWR_STAT_BRK_HOT = true := by decide +kernel

theorem holdoffAhead_early : (holdoffAhead.tickTo 0).now <
    (holdoffAhead.tickTo 0).power.hotAt + 16000000 * (holdoffAhead.tickTo 0).g PWR_VM_AUX_BRK_MAXON := by decide +kernel

/-- The time since the hold-off's start reads 0, which is not less than four times 0. -/
theorem exec_holdoffAhead : exec (.brakeHoldoffEnd 0) holdoffAhead =
    done (((holdoffAhead.tickTo 0).put PWR_STAT_BRK_HOT 0).levelOff 12 0 0) :=
  congrArg done (if_pos (by decide +kernel))

/-- Refutes O11: its last clause says that nothing changes while the present is before the hold-off's start plus four times BRK_MAXON.
In `holdoffAhead` it is, and yet BRAKE_HOLDOFF_END clears BRK_HOT, for the time passed since a start that lies ahead counts as 0. -/
theorem not_brakeDump : ¬ Obligations.BrakeDump := by
  intro h
  obtain ⟨-, -, -, -, -, -, -, -, stays⟩ := h
  obtain ⟨t, ht, -, -, words⟩ := stays holdoffAhead 0 (.inr holdoffAhead_early)
  rw [exec_holdoffAhead] at ht
  obtain rfl : State.settle _ = t := Host.Outcome.next.inj ht
  have kept : State.gb _ PWR_STAT_BRK_HOT = (holdoffAhead.tickTo 0).gb PWR_STAT_BRK_HOT :=
    congrArg (· != 0) (State.word_eq_of_g _ _ PWR_STAT_BRK_HOT (words 0x140 List.not_mem_nil (by decide)))
  rw [holdoffAhead_hot, State.settle_gb _ _ (by decide), State.gb_eq, (State.levelOff_step _ 12 0 0).g _ (by decide), ← State.gb_eq,
    State.put_gb_same _ _ _ (by decide)] at kept
  cases kept

end Sys2Proof.Machine
end

section
/-!
What the moisture round (R469 to R471) and V5OUT's switch leave alone: the supplies, the commands in flight, the coils, the
field-book queue, the device's state, and every register but their own.
-/

namespace Sys2Proof.Machine

variable (s : State)

/-- The supplies' state, the commands in flight, the coils, the field-book queue and the device's state. -/
def State.supply (s : State) : PowerSt × List Cmd × Vector Coil 16 × List FbRec × DevState :=
  (s.power, s.cmds, s.coils, s.surv.fbQ, s.dev)

theorem State.evStep.supply {a b : State} (h : a.evStep b) : b.supply = a.supply := by
  have same := congrArg State.supply h.rest
  exact same

theorem State.put_supply (f : Fld) (v : Nat) : (s.put f v).supply = s.supply := rfl

theorem State.inc_supply (f : Fld) : (s.inc f).supply = s.supply := rfl

theorem foldl_supply {ι : Type} (l : List ι) (f : State → ι → State) (h : ∀ x i, (f x i).supply = x.supply) :
    (l.foldl f s).supply = s.supply := foldl_ind (fun t => t.supply = s.supply) l f (fun x i k => (h x i).trans k) s rfl

/-! ## The moisture round -/

theorem State.mwHold_supply (o v : Nat) : (if o < 24 then s.put (AX_DP_STAT_MW_HOLD (mwAxis o)) v else s).supply = s.supply := by
  split <;> rfl

theorem State.mwHold_g (o v : Nat) (f : Fld) (h : ∀ n : Fin 8, f.a ≠ (AX_DP_STAT_MW_HOLD n).a) :
    (if o < 24 then s.put (AX_DP_STAT_MW_HOLD (mwAxis o)) v else s).g f = s.g f := by
  split
  · exact s.put_g_ne _ f v (h _).symm
  · rfl

/-- What every change of MW_HOLD keeps, a change of the line under test keeps. -/
theorem State.mwSet_keeps {α : Type} (read : State → α)
    (hold : ∀ (t : State) (o v : Nat), read (if o < 24 then t.put (AX_DP_STAT_MW_HOLD (mwAxis o)) v else t) = read t)
    (line : ∀ (t : State) (f : SurvSt → SurvSt), (∀ v, (f v).fbQ = v.fbQ) → read (t.su f) = read t) (l : Option Nat) :
    read (s.mwSet l) = read s := by
  unfold State.mwSet
  dsimp only
  refine (line _ _ ?_).trans ?_
  · exact fun _ => rfl
  generalize s.surv.mwCur = c
  cases c with
  | none => cases l with
    | none => rfl
    | some x => exact hold _ x 1
  | some o => cases l with
    | none => exact hold _ o 0
    | some x => exact (hold _ x 1).trans (hold _ o 0)

theorem State.su_supply (f : SurvSt → SurvSt) (h : ∀ v, (f v).fbQ = v.fbQ) : (s.su f).supply = s.supply := by
  unfold State.supply
  rw [State.su_surv, h]
  rfl

theorem State.mwSet_supply (l : Option Nat) : (s.mwSet l).supply = s.supply :=
  s.mwSet_keeps State.supply (fun t o v => t.mwHold_supply o v) (fun t f h => t.su_supply f h) l

theorem State.mwSet_g (l : Option Nat) (f : Fld) (h : ∀ n : Fin 8, f.a ≠ (AX_DP_STAT_MW_HOLD n).a) : (s.mwSet l).g f = s.g f :=
  s.mwSet_keeps (fun t => t.g f) (fun t o v => t.mwHold_g o v f h) (fun _ _ _ => rfl) l

/-- A field that the moisture round does not move. -/
def mwApart (f : Fld) : Prop :=
  (∀ n : Fin 8, f.a ≠ (AX_DP_STAT_MW_HOLD n).a) ∧ MG_SV_STAT_MW_RUN.apart f ∧ MG_MW_STAT_SKIP.apart f ∧ MG_MW_STAT_ROUNDS.apart f

theorem mwApart_pwrStat {f : Fld} (h : f.a = 0x140) : mwApart f :=
  ⟨fun n => by rw [h]; simp; omega, .inl (by rw [h]; decide), .inl (by rw [h]; decide), .inl (by rw [h]; decide)⟩

theorem State.mwNext_supply : s.mwNext.supply = s.supply := by
  unfold State.mwNext
  dsimp only
  split
  · exact (State.su_supply _ _ fun _ => rfl).trans ((State.mwSet_supply _ _).trans rfl)
  · exact (State.su_supply _ _ fun _ => rfl).trans ((State.mwSet_supply _ _).trans rfl)

theorem State.mwNext_g (f : Fld) (h : mwApart f) : s.mwNext.g f = s.g f := by
  obtain ⟨hold, run, skip, rounds⟩ := h
  unfold State.mwNext
  dsimp only
  split
  · rw [State.su_g, State.mwSet_g _ _ _ hold, State.put_g_disj _ _ _ _ (by decide) rounds, State.put_g_disj _ _ _ _ (by decide) run]
    exact State.put_g_disj _ _ _ _ (by decide) skip
  · rw [State.su_g, State.mwSet_g _ _ _ hold, State.svu_eq, State.stn_g]
    exact State.put_g_disj _ _ _ _ (by decide) skip

/-- The round's next line is the first one left that may be tested. -/
theorem State.mwNext_mwCur : s.mwNext.surv.mwCur = s.surv.mwLines.find? s.mwLineOk := by
  have first : (s.surv.mwLines.drop (s.surv.mwLines.takeWhile fun l => !s.mwLineOk l).length).head? = s.surv.mwLines.find? s.mwLineOk := by
    rw [List.find?_eq_head?_dropWhile_not]
    generalize s.surv.mwLines = lines
    induction lines with
    | nil => rfl
    | cons l lines ih => cases c : s.mwLineOk l <;> simp [c, ih]
  unfold State.mwNext
  dsimp only
  rw [← first]
  generalize s.surv.mwLines.drop _ = rest
  cases rest <;> rfl

theorem State.mwStop_supply : s.mwStop.supply = s.supply :=
  (State.su_supply _ _ fun _ => rfl).trans ((State.mwSet_supply _ none).trans rfl)

theorem State.mwStop_g (f : Fld) (h : mwApart f) : s.mwStop.g f = s.g f :=
  (State.su_g _ _ f).trans ((State.mwSet_g _ none f h.1).trans (s.put_g_disj _ f 0 (by decide) h.2.1))

/-! ## V5OUT's switch (R471) -/

theorem State.mwAbandon_supply : s.mwAbandon.supply = s.supply :=
  (State.mwNext_supply _).trans ((State.inc_supply _ _).trans rfl)

theorem State.v5Switch_supply : s.v5Switch.supply = s.supply := by
  unfold State.v5Switch
  dsimp only
  split
  · exact (State.mwAbandon_supply _).trans (s.put_supply _ _)
  · exact s.put_supply _ _

end Sys2Proof.Machine
end

section
/-!
V5OUT (R82, R83).
-/

namespace Sys2Proof.Machine

/-- A change of the supplies' state, written out where that state is known. -/
theorem State.pw_of_power (x : State) (f : PowerSt → PowerSt) {p : PowerSt} (h : x.power = p) : x.pw f = { x with power := f p } := by
  subst h
  rfl

section
variable {s : State} {dt : Nat}

/-! ## Overload -/

/-- V5OUT off, its fault noted with its level. -/
def State.v5Tripped (s : State) : State :=
  (((s.put PWR_STAT_V5_ON 0).put PWR_STAT_V5_FAULT 1).pw fun p => { p with v5Off := some s.now, v5On := none }).levelOn 13 0 0

theorem State.v5Tripped_falls (u : State) :
    ({ (u.put PWR_STAT_V5_ON 0).put PWR_STAT_V5_FAULT 1 with power := { u.power with v5Off := some u.now, v5On := none } }).sameBut
      u.v5Tripped.settle [] ∧ u.v5Tripped.settle.level 13 0 = true := by
  have power : ((u.put PWR_STAT_V5_ON 0).put PWR_STAT_V5_FAULT 1).power = u.power := by rw [State.put_power, State.put_power]
  unfold State.v5Tripped
  refine ⟨?_, ?_⟩
  · rw [State.pw_of_power _ _ power]
    exact (State.sameBut.refl.step (State.levelOn_step _ 13 0 0 (by decide))).settle
  · rw [State.settle_level _ _ _ (by decide), State.levelOn_level]
    simp

theorem exec_v5outOverload : exec (.v5outOverload dt) s =
    let u := s.tickTo dt
    done (if u.gb PWR_STAT_V5_ON then u.v5Tripped else u) := rfl

theorem v5outOverload_off :
    let u := s.tickTo dt
    u.gb PWR_STAT_V5_ON = true →
    ∃ t, exec (.v5outOverload dt) s = .next t ∧
      ({ (u.put PWR_STAT_V5_ON 0).put PWR_STAT_V5_FAULT 1 with power := { u.power with v5Off := some u.now, v5On := none } }).sameBut t [] ∧
      t.level 13 0 = true := by
  intro u on
  exact exec_next (exec_v5outOverload.trans (congrArg done (if_pos on))) (State.v5Tripped_falls _)

/-! ## Retry -/

/-- V5OUT has been off for 500 ms and may be on (R82, R83). -/
def State.v5Ready (s : State) : Prop :=
  (∃ v ∈ s.power.v5Off, v + 200000000 ≤ s.now) ∧ s.gb PWR_PATH_CFG_V5_EN = true ∧ s.flOn = true ∧
    (s.dev ≠ .safe ∨ s.gb PWR_PATH_CFG_V5_SAFE = true)

/-- V5OUT is switched on for a test. -/
def State.v5Tested (s : State) : State := s.v5Switch.pw fun p => { p with v5Off := none, v5On := some s.now }

theorem exec_v5outRetry_some {v : Nat} (h : (s.tickTo dt).power.v5Off = some v) : exec (.v5outRetry dt) s =
    let u := s.tickTo dt
    done (if u.now - v ≥ msCyc 500 && u.gb PWR_PATH_CFG_V5_EN && u.flOn && (u.dev != .safe || u.gb PWR_PATH_CFG_V5_SAFE) then u.v5Tested
      else u) := by
  change execV5outRetry dt s = _
  unfold execV5outRetry
  dsimp only
  rw [h]
  rfl

theorem exec_v5outRetry_none (h : (s.tickTo dt).power.v5Off = none) : exec (.v5outRetry dt) s = done (s.tickTo dt) := by
  change execV5outRetry dt s = _
  unfold execV5outRetry
  dsimp only
  rw [h]

theorem exec_v5outRetry (h : (s.tickTo dt).v5Ready) : exec (.v5outRetry dt) s = done (s.tickTo dt).v5Tested := by
  obtain ⟨⟨v, off, waited⟩, en, fl, safe⟩ := h
  have past : (s.tickTo dt).now - v ≥ msCyc 500 := Nat.le_sub_of_add_le (by rw [Nat.add_comm]; exact waited)
  refine (exec_v5outRetry_some off).trans (congrArg done (if_pos ?_))
  rw [en, fl, decide_eq_true past]
  simpa using safe

theorem exec_v5outRetry_not (h : ¬ (s.tickTo dt).v5Ready) : exec (.v5outRetry dt) s = done (s.tickTo dt) := by
  cases off : (s.tickTo dt).power.v5Off with
  | none => exact exec_v5outRetry_none off
  | some v =>
    rw [exec_v5outRetry_some off]
    refine congrArg done (if_neg fun c => h ?_)
    simp only [Bool.and_eq_true, Bool.or_eq_true, bne_iff_ne] at c
    obtain ⟨⟨⟨waited, en⟩, fl⟩, safe⟩ := c
    have past : 200000000 ≤ (s.tickTo dt).now - v := of_decide_eq_true waited
    exact ⟨⟨v, off, by omega⟩, en, fl, safe⟩

/-- Without a feedback test in progress the switch sets V5_ON alone. -/
theorem State.v5Switch_of_no_test (u : State) (h : u.mwFeedback = false) : u.v5Switch = u.put PWR_STAT_V5_ON 1 :=
  if_neg (by unfold State.mwFeedback at h ⊢; rw [State.put_surv, h]; exact Bool.false_ne_true)

theorem v5outRetry_tests (h : (s.tickTo dt).v5Ready) :
    let u := s.tickTo dt
    (∀ l ∈ u.surv.mwCur, 24 ≤ l) →
    ∃ t, exec (.v5outRetry dt) s = .next t ∧
      ({ u.put PWR_STAT_V5_ON 1 with power := { u.power with v5Off := none, v5On := some u.now } }).sameBut t [] := by
  intro u other
  refine exec_next (exec_v5outRetry h) ?_
  have idle : u.mwFeedback = false := by
    unfold State.mwFeedback
    cases line : u.surv.mwCur with
    | none => rfl
    | some l => simpa using other l line
  unfold State.v5Tested
  rw [State.v5Switch_of_no_test _ idle, State.pw_of_power _ _ (State.put_power u PWR_STAT_V5_ON 1)]
  exact State.sameBut.refl.settle

/-- With V5OUT on no feedback line may be tested (R470). -/
theorem State.mwLineOk_v5 (u : State) (l : Nat) (hl : l < 24) (on : u.gb PWR_STAT_V5_ON = true) : u.mwLineOk l = false := by
  unfold State.mwLineOk
  dsimp only
  rw [if_pos hl, on]
  simp

/-- The count of abandoned tests is none of the round's own fields. -/
theorem abandon_apart : mwApart MG_MW_STAT_ABANDON := ⟨by decide, .inl (by decide), .inr (.inl (by decide)), .inr (.inl (by decide))⟩

theorem v5outRetry_abandons (h : (s.tickTo dt).v5Ready) (l : Fin 24) :
    let u := s.tickTo dt
    u.surv.mwCur = some l.val →
    ∃ t, exec (.v5outRetry dt) s = .next t ∧
      u.quelled t [0x1000020, 0x1000021, 0x1000022, 0x1000023] ∧ t.gb PWR_STAT_V5_ON = true ∧
      t.power = { u.power with v5Off := none, v5On := some u.now } ∧ t.surv.mwCur ≠ some l.val ∧
      t.g MG_MW_STAT_ABANDON = min (u.g MG_MW_STAT_ABANDON + 1) (2 ^ MG_MW_STAT_ABANDON.w - 1) := by
  intro u line
  refine exec_next (exec_v5outRetry h) ?_
  have on : (u.put PWR_STAT_V5_ON 1).gb PWR_STAT_V5_ON = true := (u.put_gb_same _ _ (by decide)).trans rfl
  have switched : u.v5Switch = ((u.put PWR_STAT_V5_ON 1).inc MG_MW_STAT_ABANDON).mwNext := by
    refine if_pos ?_
    unfold State.mwFeedback
    rw [State.put_surv, line]
    exact decide_eq_true l.isLt
  have counted : ((u.put PWR_STAT_V5_ON 1).inc MG_MW_STAT_ABANDON).gb PWR_STAT_V5_ON = true := by
    rw [State.inc_eq, State.put_gb_apart _ _ _ _ (by decide) (.inl (by decide))]
    exact on
  refine ⟨(State.pw_quell _ _ (State.v5Switch_quell _ State.quelled.refl)).settle, ?_, ?_, ?_, ?_⟩
  · unfold State.v5Tested
    rw [State.settle_gb _ _ (by decide), State.pw_gb, switched, State.gb_eq, State.mwNext_g _ _ (mwApart_pwrStat rfl)]
    exact counted
  · rw [State.settle_power]
    exact congrArg (fun x : PowerSt × _ => ({ x.1 with v5Off := none, v5On := some u.now } : PowerSt)) u.v5Switch_supply
  · unfold State.v5Tested
    rw [State.settle_surv, State.pw_surv, switched, State.mwNext_mwCur]
    intro again
    have ok := List.find?_some again
    rw [State.mwLineOk_v5 _ l l.isLt counted] at ok
    cases ok
  · unfold State.v5Tested
    rw [State.settle_g' MG_MW_STAT_ABANDON, State.pw_g, switched, State.mwNext_g _ _ abandon_apart,
      State.inc_eq, State.put_g_same _ _ _ (by decide), State.put_g_ne _ _ _ _ (by decide)]
    exact Nat.mod_eq_of_lt (Nat.lt_of_le_of_lt (Nat.min_le_right _ _) (by decide))

/-! ## Fault cleared -/

/-- A tested switch-on has stayed out of current limit for 10 ms. -/
def State.v5Passed (s : State) : Prop :=
  s.gb PWR_STAT_V5_ON = true ∧ s.gb PWR_STAT_V5_FAULT = true ∧ ∃ v ∈ s.power.v5On, v + 4000000 ≤ s.now

/-- The fault is cleared. -/
def State.v5Cleared (s : State) : State := ((s.put PWR_STAT_V5_FAULT 0).pw fun p => { p with v5On := none }).levelOff 13 0 0

theorem exec_v5outFaultClear_some {v : Nat} (h : (s.tickTo dt).power.v5On = some v) : exec (.v5outFaultClear dt) s =
    let u := s.tickTo dt
    done (if u.gb PWR_STAT_V5_ON && u.gb PWR_STAT_V5_FAULT && u.now - v ≥ msCyc 10 then u.v5Cleared else u) := by
  change execV5outFaultClear dt s = _
  unfold execV5outFaultClear
  dsimp only
  rw [h]
  rfl

theorem exec_v5outFaultClear (h : (s.tickTo dt).v5Passed) : exec (.v5outFaultClear dt) s = done (s.tickTo dt).v5Cleared := by
  obtain ⟨on, fault, v, tested, waited⟩ := h
  have past : (s.tickTo dt).now - v ≥ msCyc 10 := Nat.le_sub_of_add_le (by rw [Nat.add_comm]; exact waited)
  refine (exec_v5outFaultClear_some tested).trans (congrArg done (if_pos ?_))
  rw [on, fault, decide_eq_true past]
  rfl

theorem exec_v5outFaultClear_not (h : ¬ (s.tickTo dt).v5Passed) : exec (.v5outFaultClear dt) s = done (s.tickTo dt) := by
  cases tested : (s.tickTo dt).power.v5On with
  | none =>
    change execV5outFaultClear dt s = _
    unfold execV5outFaultClear
    dsimp only
    rw [tested]
  | some v =>
    rw [exec_v5outFaultClear_some tested]
    refine congrArg done (if_neg fun c => h ?_)
    simp only [Bool.and_eq_true] at c
    obtain ⟨⟨on, fault⟩, waited⟩ := c
    have past : 4000000 ≤ (s.tickTo dt).now - v := of_decide_eq_true waited
    exact ⟨on, fault, v, tested, by omega⟩

end

/-- Settles O14: each command has its one condition (`State.v5Ready`, `State.v5Passed`), and acts where it holds alone. -/
theorem v5Output : Obligations.V5Output := by
  refine ⟨fun _ _ => v5outOverload_off, fun s dt off en fl safe => v5outRetry_tests ⟨off, en, fl, safe⟩,
    fun s dt l off en fl safe => v5outRetry_abandons ⟨off, en, fl, safe⟩ l, fun s dt on fault tested => ?_, fun s dt off => ?_,
    fun s dt no => ?_, fun s dt no => ?_⟩
  · refine exec_next (exec_v5outFaultClear ⟨on, fault, tested⟩) ⟨?_, ?_⟩
    · unfold State.v5Cleared
      rw [State.pw_of_power _ _ (State.put_power (s.tickTo dt) PWR_STAT_V5_FAULT 0)]
      exact (State.sameBut.refl.step (State.levelOff_step _ 13 0 0)).settle
    · unfold State.v5Cleared
      rw [State.settle_level _ _ _ (by decide), State.levelOff_level]
      simp
  · exact exec_same (exec_v5outOverload.trans (congrArg done (if_neg (ne_true_of_eq_false off))))
  · refine exec_same (exec_v5outRetry_not fun ⟨⟨v, off, waited⟩, en, fl, safe⟩ => ?_)
    obtain early | h | h | ⟨inSafe, h⟩ := no
    · exact absurd waited (Nat.not_le.2 (early v off))
    · exact Bool.false_ne_true (h.symm.trans en)
    · exact Bool.false_ne_true (h.symm.trans fl)
    · exact safe.elim (fun out => out inSafe) fun on => Bool.false_ne_true (h.symm.trans on)
  · refine exec_same (exec_v5outFaultClear_not fun ⟨on, fault, v, tested, waited⟩ => ?_)
    obtain h | h | early := no
    · exact Bool.false_ne_true (h.symm.trans on)
    · exact Bool.false_ne_true (h.symm.trans fault)
    · exact absurd waited (Nat.not_le.2 (early v tested))

end Sys2Proof.Machine
end

section
/-!
The temperature backstops (R92, R93) and the boost time (R98).
-/

namespace Sys2Proof.Machine

/-! ## The stations' temperature bits -/

section
variable (s : State)

theorem State.b2n_gb (f : Fld) (h : f.w = 1) : b2n (s.gb f) = s.g f := by
  have small := s.g_lt f
  rw [h] at small
  rw [State.gb_eq]
  obtain zero | one : s.g f = 0 ∨ s.g f = 1 := by omega
  · rw [zero]; rfl
  · rw [one]; rfl

theorem State.putB_gb_same (f : Fld) (b : Bool) (h : f.lo + f.w ≤ 32) (w : f.w = 1) : (s.putB f b).gb f = b := by
  rw [State.putB_eq, State.put_gb_same _ _ _ h, w]
  cases b <;> rfl

theorem State.putB_gb_apart (f f' : Fld) (b : Bool) (h : f.lo + f.w ≤ 32) (d : f.apart f') : (s.putB f b).gb f' = s.gb f' :=
  s.put_gb_apart f f' _ h d

theorem State.putB_power (f : Fld) (b : Bool) : (s.putB f b).power = s.power := id rfl

/-- What the temperature bits of PWR_STAT do not bear on. -/
theorem State.tempStat_keeps {α : Type} (read : State → α)
    (h : ∀ (t : State) (f : Fld) (b : Bool), f.a = 0x140 → f.lo + f.w ≤ 32 → 19 ≤ f.lo → read (t.putB f b) = read t) :
    read s.tempStat = read s := by
  unfold State.tempStat
  dsimp only
  rw [h _ _ _ rfl (by decide) (by decide), h _ _ _ rfl (by decide) (by decide), h _ _ _ rfl (by decide) (by decide),
    h _ _ _ rfl (by decide) (by decide), h _ _ _ rfl (by decide) (by decide)]

theorem State.tempStat_power : s.tempStat.power = s.power := s.tempStat_keeps (fun t => t.power) fun t f b _ _ _ => t.putB_power f b

theorem State.tempStat_levels : s.tempStat.levels = s.levels := s.tempStat_keeps (fun t => t.levels) fun _ _ _ _ _ _ => rfl

/-- The bits of PWR_STAT below the temperature bits stay. -/
theorem State.tempStat_gb (f : Fld) (h : f.lo + f.w ≤ 19) : s.tempStat.gb f = s.gb f :=
  s.tempStat_keeps (fun t => t.gb f) fun t f' b _ top low => t.putB_gb_apart f' f b top (.inr (.inr (h.trans low)))

/-- A station's trip bit tells whether one of its three sensors is tripped or backed off (Table 3-5). -/
theorem State.tempStat_trip (st : Fin 2) : s.tempStat.gb (PWR_STAT_TEMP_TRIP st) =
    (List.range 3).any fun j => bit s.power.tBack (3 * st.val + j) || bit s.power.tTrip (3 * st.val + j) := by
  unfold State.tempStat
  dsimp only
  match st with
  | 0 =>
    rw [State.putB_gb_apart _ _ _ _ (by decide) (.inr (.inr (by decide))), State.putB_gb_apart _ _ _ _ (by decide) (.inr (.inr (by decide)))]
    refine (State.putB_gb_same _ _ _ (by decide) rfl).trans ?_
    rw [State.putB_power, State.putB_power]
    simp [List.range_succ, bit_or, Bool.or_comm]
  | 1 =>
    rw [State.putB_gb_apart _ _ _ _ (by decide) (.inr (.inr (by decide)))]
    refine (State.putB_gb_same _ _ _ (by decide) rfl).trans ?_
    rw [State.putB_power, State.putB_power]
    simp [List.range_succ, bit_or, Bool.or_comm]

variable {s}

theorem State.supplyOnly.tempStat {w : State} (h : s.supplyOnly w) : s.supplyOnly w.tempStat :=
  ((((h.put _ _ rfl).put _ _ rfl).put _ _ rfl).put _ _ rfl).put _ _ rfl

end

/-! ## A backstop acts and releases (R92) -/

section
variable {s : State} {dt : Nat} {st : Fin 2} {k : Fin 3} {temp : BitVec 16}

/-- Sensor `i`'s backstop is noted, and the station's bits follow. -/
def State.backstop (s : State) (i : Nat) (b : Bool) : State := (s.pw fun p => { p with tBack := setBits p.tBack i 1 (b2n b) }).tempStat

theorem State.backstop_power (u : State) (i : Nat) (b : Bool) :
    (u.backstop i b).power = { u.power with tBack := setBits u.power.tBack i 1 (b2n b) } := State.tempStat_power _

theorem State.backstop_only (u : State) (i : Nat) (b : Bool) : u.supplyOnly (u.backstop i b) := (State.supplyOnly.refl.pw _ rfl rfl).tempStat

theorem State.backstop_bit (u : State) (i : Nat) (b : Bool) : bit (u.backstop i b).power.tBack i = b := by
  rw [State.backstop_power]
  exact bit_setBits_same _ _ _

theorem State.backstop_trip (u : State) (i : Nat) (b : Bool) : (u.backstop i b).gb (PWR_STAT_TEMP_TRIP st) =
    (List.range 3).any fun j => bit (u.backstop i b).power.tBack (3 * st.val + j) || bit (u.backstop i b).power.tTrip (3 * st.val + j) := by
  unfold State.backstop
  rw [State.tempStat_trip, State.tempStat_power]

theorem exec_thermalBackstop : exec (.thermalBackstop dt st k temp) s =
    let u := s.tickTo dt
    let i := 3 * st.val + k.val
    done (if u.backed i then u else ((u.backstop i true).levelOn 19 i (degDetail temp.toInt + 2048)).stationFault st fcTEMP) :=
  Eq.trans (b := execThermalBackstop dt st k temp s) rfl rfl

theorem thermalBackstop_opens :
    let u := s.tickTo dt
    let i := 3 * st.val + k.val
    bit u.power.tBack i = false →
    ∃ t, exec (.thermalBackstop dt st k temp) s = .next t ∧
      u.quelled t [] ∧ bit t.power.tBack i = true ∧ t.gb (PWR_STAT_TEMP_TRIP st) = true ∧ t.level 19 i = true ∧
      u.opensStation t st fcTEMP := by
  intro u i off
  refine exec_next (exec_thermalBackstop.trans (congrArg done (if_neg (ne_true_of_eq_false off)))) ?_
  have raised := (u.backstop i true).levelOn_step 19 i (degDetail temp.toInt + 2048) (by decide)
  have marked := (u.backstop_only i true).step raised
  have opened := State.stationFault_only ((u.backstop i true).levelOn 19 i (degDetail temp.toInt + 2048)) st fcTEMP
  have noted : bit (u.backstop i true).power.tBack i = true := u.backstop_bit i true
  refine ⟨(marked.stationFault_quelled st).settle, ?_, ?_, ?_, (marked.opens st (by decide)).settle⟩
  · rw [State.settle_power, opened.power, raised.power]
    exact noted
  · rw [State.settle_gb _ _ (by simp [evWord]), State.gb_eq, State.stationFault_pwrStat _ _ _ _ rfl, raised.g _ (by simp [evWord]),
      ← State.gb_eq]
    refine (u.backstop_trip i true).trans (List.any_eq_true.2 ⟨k.val, List.mem_range.2 k.isLt, ?_⟩)
    exact Bool.or_eq_true_iff.2 (.inl noted)
  · rw [State.settle_level _ _ _ (by decide)]
    unfold State.level
    rw [opened.levels]
    exact (State.levelOn_level _ _ _ _ _ _).trans (by simp)

theorem exec_thermalBackstopRelease : exec (.thermalBackstopRelease dt st k temp) s =
    let u := s.tickTo dt
    let i := 3 * st.val + k.val
    done (if !u.backed i then u else if (u.backstop i false).tripped i then u.backstop i false
      else (u.backstop i false).levelOff 19 i (degDetail temp.toInt + 2048)) :=
  Eq.trans (b := execThermalBackstopRelease dt st k temp s) rfl rfl

/-- A released backstop, and the level where no trip of the sensor holds it. -/
theorem State.backstop_released (u t : State) (st : Fin 2) (i : Nat) (h : (u.backstop i false).evStep t)
    (level : t.level 19 i = (bit u.power.tTrip i && u.level 19 i)) :
    (({ u with power := { u.power with tBack := t.settle.power.tBack } }).sameBut t.settle [0x140] ∧ bit t.settle.power.tBack i = false ∧
      (∀ j : Fin 6, j.val ≠ i → bit t.settle.power.tBack j = bit u.power.tBack j) ∧
      t.settle.level 19 i = (bit u.power.tTrip i && u.level 19 i) ∧
      (∀ x : Fin 2, t.settle.gb (PWR_STAT_VM_OK x) = u.gb (PWR_STAT_VM_OK x)) ∧
      t.settle.gb (PWR_STAT_TEMP_TRIP st) =
        (List.range 3).any fun j => bit t.settle.power.tBack (3 * st.val + j) || bit u.power.tTrip (3 * st.val + j)) := by
  have stat (f : Fld) (hf : f.a = 0x140) : t.settle.gb f = (u.backstop i false).gb f := by
    rw [State.settle_gb _ _ (by rw [hf]; decide), State.gb_eq, State.gb_eq, h.g _ (by rw [hf]; decide)]
  have power : t.settle.power = { u.power with tBack := setBits u.power.tBack i 1 (b2n false) } := t.settle_power.trans h.power
  rw [power]
  refine ⟨((u.backstop_only i false).same.step h).settle, bit_setBits_same _ _ _, fun j hj => bit_setBits_ne _ _ _ _ hj.symm,
    (t.settle_level _ _ (by decide)).trans level, fun x => ?_, ?_⟩
  · exact (stat _ rfl).trans (State.tempStat_gb _ _ (by simp; omega))
  · exact (stat _ rfl).trans (State.tempStat_trip _ st)

theorem thermalBackstop_releases :
    let u := s.tickTo dt
    let i := 3 * st.val + k.val
    bit u.power.tBack i = true →
    ∃ t, exec (.thermalBackstopRelease dt st k temp) s = .next t ∧
      (({ u with power := { u.power with tBack := t.power.tBack } }).sameBut t [0x140] ∧ bit t.power.tBack i = false ∧
      (∀ j : Fin 6, j.val ≠ i → bit t.power.tBack j = bit u.power.tBack j) ∧ t.level 19 i = (bit u.power.tTrip i && u.level 19 i) ∧
      (∀ x : Fin 2, t.gb (PWR_STAT_VM_OK x) = u.gb (PWR_STAT_VM_OK x)) ∧
      t.gb (PWR_STAT_TEMP_TRIP st) = (List.range 3).any fun j => bit t.power.tBack (3 * st.val + j) || bit u.power.tTrip (3 * st.val + j)) := by
  intro u i on
  have acts : (!u.backed i) ≠ true := by unfold State.backed; simp [on]
  refine exec_next (exec_thermalBackstopRelease.trans (congrArg done (if_neg acts))) ?_
  have tripped : (u.backstop i false).tripped i = bit u.power.tTrip i := by
    unfold State.tripped
    rw [u.backstop_power i false]
  by_cases trip : (u.backstop i false).tripped i = true
  · rw [if_pos trip]
    refine u.backstop_released _ st i (State.evStep.refl _) ?_
    unfold State.level State.backstop
    rw [State.tempStat_levels, ← tripped, trip]
    rfl
  · rw [if_neg trip]
    refine u.backstop_released _ st i (State.levelOff_step _ 19 i _) ?_
    rw [State.levelOff_level, ← tripped, eq_false_of_ne_true trip]
    simp [i]

theorem thermalBackstop_stands :
    let u := s.tickTo dt
    ∃ t, exec (if bit u.power.tBack (3 * st.val + k.val) then .thermalBackstop dt st k temp else .thermalBackstopRelease dt st k temp) s
      = .next t ∧ u.sameBut t [] := by
  intro u
  cases on : bit u.power.tBack (3 * st.val + k.val) with
  | true => exact exec_same (exec_thermalBackstop.trans (congrArg done (if_pos on)))
  | false =>
    refine exec_same (exec_thermalBackstopRelease.trans (congrArg done (if_pos ?_)))
    unfold State.backed
    simp [u] at on
    simp [on]

/-! ## A stale reading (R93) -/

theorem exec_tempReadingStale : exec (.tempReadingStale dt st) s =
    let u := s.tickTo dt
    done (if u.now - u.power.tempAt[st] > msCyc 10 then u.pw fun p => { p with stale := vupd p.stale st fun _ => true } else u) := rfl

theorem tempReadingStale_marks :
    let u := s.tickTo dt
    ∃ t, exec (.tempReadingStale dt st) s = .next t ∧
      ({ u with power := { u.power with
          stale := vupd u.power.stale st fun b => b || decide (u.power.tempAt[st] + 4000000 < u.now) } }).sameBut t [] := by
  intro u
  refine exec_next exec_tempReadingStale ?_
  by_cases old : u.power.tempAt[st] + 4000000 < u.now
  · have past : u.now - u.power.tempAt[st] > msCyc 10 := Nat.lt_sub_of_add_lt (by rw [Nat.add_comm]; exact old)
    rw [if_pos past]
    simp only [old, decide_true, Bool.or_true]
    exact State.sameBut.refl.settle
  · have fresh : ¬ u.now - u.power.tempAt[st] > msCyc 10 := by
      change ¬ u.now - u.power.tempAt[st] > 4000000
      omega
    rw [if_neg fresh]
    simp only [old, decide_false, Bool.or_false]
    rw [vupd_id]
    exact State.sameBut.refl.settle

end

/-! ## Boost time (R98) -/

section
variable (u : State) (n : Fin 8)

/-- A coil's time above 4,200 mA, brought up to the present. -/
def State.boostTime (c : Fin 16) (acc : Nat) : Nat :=
  if u.fs n = 6000 ∧ 4200 * 4096 < u.coils[c].sp.natAbs * 6000 then acc + 4 * (u.now - u.axes[n].boostAt)
  else acc - (u.now - u.axes[n].boostAt)

theorem State.boostRun_eq : u.boostRun n = { u with axes := vupd u.axes n fun a => { a with
    boostA := u.boostTime n (coilA n) a.boostA, boostB := u.boostTime n (coilB n) a.boostB, boostAt := u.now } } := by
  have time (c : Fin 16) (acc : Nat) : boostAdd acc (u.now - u.axes[n].boostAt)
      (u.fs n = 6000 && decide (u.coils[c].sp.natAbs * 6000 > 4200 * 4096)) = u.boostTime n c acc := by
    unfold boostAdd State.boostTime
    simp only [Bool.and_eq_true, decide_eq_true_eq, gt_iff_lt]
  unfold State.boostRun State.ax
  dsimp only
  rw [vupd_congr (g := fun a => { a with
    boostA := u.boostTime n (coilA n) a.boostA, boostB := u.boostTime n (coilB n) a.boostB, boostAt := u.now }) _ _ ?_]
  rw [← time, ← time]

/-- A bit that reads `b`, whether it has been written with it or stands so. -/
theorem State.putB_settled {v w : State} (b : Bool) (f : Fld) (hf : f.lo + f.w ≤ 32) (hw : f.w = 1) (he : evWord f.a = false)
    (h : w = v.putB f b ∨ w = v ∧ v.gb f = b) :
    v.sameBut w.settle [f.a] ∧ w.settle.gb f = b ∧ w.settle.word f.a = (v.putB f b).word f.a := by
  rw [State.settle_gb _ _ he, State.settle_word _ _ he]
  obtain rfl | ⟨rfl, reads⟩ := h
  · exact ⟨(State.sameBut.refl.put _ _ (by simp)).settle, v.putB_gb_same _ _ hf hw, rfl⟩
  · refine ⟨State.sameBut.refl.settle, reads, ((w.put_self f hf _ ?_).word f.a).symm⟩
    rw [← reads]
    exact w.b2n_gb f hw

theorem State.boostRun_gb (f : Fld) : (u.boostRun n).gb f = u.gb f := rfl

theorem exec_boostLock {s : State} {dt : Nat} : exec (.boostLock dt n) s = done (((s.tickTo dt).boostRun n).boostLock n) := rfl

theorem exec_boostUnlock {s : State} {dt : Nat} : exec (.boostUnlock dt n) s = done (((s.tickTo dt).boostRun n).boostUnlock n) := rfl

/-- BOOST_LOCK is set where the larger accumulator has reached 2.0 s. -/
theorem State.boostLock_reads (v : State) :
    let b := v.gb (PWR_GOV_CEIL_BOOST_LOCK n) || decide (3200000000 ≤ max v.axes[n].boostA v.axes[n].boostB)
    v.boostLock n = v.putB (PWR_GOV_CEIL_BOOST_LOCK n) b ∨ v.boostLock n = v ∧ v.gb (PWR_GOV_CEIL_BOOST_LOCK n) = b := by
  intro b
  unfold State.boostLock
  dsimp only
  split
  · next acts =>
    left
    simp only [Bool.and_eq_true, Bool.or_eq_true, decide_eq_true_eq, boost2s, ge_iff_le] at acts
    have set : b = true := Bool.or_eq_true_iff.2 (.inr (decide_eq_true (le_max_iff.2 acts.2)))
    rw [set]
    rfl
  · next stays =>
    refine .inr ⟨rfl, ?_⟩
    cases on : v.gb (PWR_GOV_CEIL_BOOST_LOCK n) with
    | true => simp [b, on]
    | false =>
      simp only [on, Bool.not_false, Bool.true_and, Bool.or_eq_true, decide_eq_true_eq, boost2s, ge_iff_le] at stays
      simpa [b, on, le_max_iff] using stays

/-- BOOST_LOCK is cleared where both accumulators are at 1.0 s or less. -/
theorem State.boostUnlock_reads (v : State) :
    let b := v.gb (PWR_GOV_CEIL_BOOST_LOCK n) && decide (1600000000 < max v.axes[n].boostA v.axes[n].boostB)
    v.boostUnlock n = v.putB (PWR_GOV_CEIL_BOOST_LOCK n) b ∨ v.boostUnlock n = v ∧ v.gb (PWR_GOV_CEIL_BOOST_LOCK n) = b := by
  intro b
  unfold State.boostUnlock
  dsimp only
  split
  · next acts =>
    left
    rw [Bool.and_eq_true_iff, Bool.and_eq_true_iff, decide_eq_true_iff, decide_eq_true_iff] at acts
    obtain ⟨⟨-, fitA⟩, fitB⟩ := acts
    have cleared : b = false := by
      refine Bool.and_eq_false_iff.2 (.inr (decide_eq_false ?_))
      change 2 * _ ≤ 3200000000 at fitA
      change 2 * _ ≤ 3200000000 at fitB
      rw [lt_max_iff]
      omega
    rw [cleared]
    rfl
  · next stays =>
    refine .inr ⟨rfl, ?_⟩
    cases on : v.gb (PWR_GOV_CEIL_BOOST_LOCK n) with
    | false => simp [b, on]
    | true =>
      have above : 1600000000 < max v.axes[n].boostA v.axes[n].boostB := by
        rw [on, Bool.true_and, Bool.and_eq_true_iff, decide_eq_true_iff, decide_eq_true_iff] at stays
        change ¬(2 * _ ≤ 3200000000 ∧ 2 * _ ≤ 3200000000) at stays
        rw [lt_max_iff]
        omega
      exact (Bool.and_eq_true_iff.2 ⟨on, decide_eq_true above⟩).symm

end

/-- Settles O16: a backstop marks the supplies first, then the station opens; BOOST_LOCK is written with what it is to read. -/
theorem thermalBackstops : Obligations.ThermalBackstops := by
  refine ⟨fun _ _ _ _ _ => thermalBackstop_opens, fun _ _ _ _ _ => thermalBackstop_releases, fun _ _ _ _ _ => thermalBackstop_stands,
    fun _ _ _ => tempReadingStale_marks, fun s dt n lock => ?_⟩
  intro u a d run bA bB
  have ran : u.boostRun n = { u with axes := vupd u.axes n fun a => { a with boostA := bA, boostB := bB, boostAt := u.now } } := by
    rw [State.boostRun_eq]
    exact congrArg (fun x => { u with axes := x }) (vupd_congr _ _ rfl)
  have timeA : (u.boostRun n).axes[n].boostA = bA := by rw [ran]; exact congrArg Axis.boostA (vupd_same _ _ _)
  have timeB : (u.boostRun n).axes[n].boostB = bB := by rw [ran]; exact congrArg Axis.boostB (vupd_same _ _ _)
  have told {w : State} (b : Bool) := State.putB_settled (v := u.boostRun n) (w := w) b (PWR_GOV_CEIL_BOOST_LOCK n) (by simp) rfl
    (by simp [evWord]; omega)
  rw [← ran]
  cases lock with
  | true =>
    refine exec_next (exec_boostLock n) ?_
    obtain ⟨same, reads, word⟩ := told _ ((u.boostRun n).boostLock_reads n)
    refine ⟨same, reads.trans ?_, word.trans ?_⟩
    · rw [timeA, timeB, State.boostRun_gb]; rfl
    · rw [reads]; rfl
  | false =>
    refine exec_next (exec_boostUnlock n) ?_
    obtain ⟨same, reads, word⟩ := told _ ((u.boostRun n).boostUnlock_reads n)
    refine ⟨same, reads.trans ?_, word.trans ?_⟩
    · rw [timeA, timeB, State.boostRun_gb]; rfl
    · rw [reads]; rfl

end Sys2Proof.Machine
end

section
/-!
What endings and entries to FAULT and SAFE do to the commands in flight and to the coils (R241 to R245, R254, R132).
-/

namespace Sys2Proof.Machine

/-- From `s` to `t` no command has joined the flight, a command that has not ended is as it was, and no coil has begun to count
towards an open coil. -/
structure State.abates (s t : State) : Prop where
  ids : (t.cmds.map fun (c : Cmd) => c.id).Sublist (s.cmds.map fun (c : Cmd) => c.id)
  live : ∀ c ∈ t.cmds, c.live = true → c ∈ s.cmds
  opens : ∀ k : Fin 16, s.coils[k].openN = 0 → t.coils[k].openN = 0

namespace State.abates
variable {s t u : State}

theorem refl : s.abates s := ⟨List.Sublist.refl _, fun _ h _ => h, fun _ h => h⟩

theorem trans (h : s.abates t) (k : t.abates u) : s.abates u :=
  ⟨k.ids.trans h.ids, fun c m l => h.live c (k.live c m l) l, fun x o => k.opens x (h.opens x o)⟩

theorem of_same (h : s.abates t) (cmds : u.cmds = t.cmds) (coils : u.coils = t.coils) : s.abates u :=
  ⟨by rw [cmds]; exact h.ids, by rw [cmds]; exact h.live, by rw [coils]; exact h.opens⟩

theorem of_supply (h : s.abates t) (same : u.supply = t.supply) : s.abates u :=
  h.of_same (congrArg (·.2.1) same) (congrArg (·.2.2.1) same)

theorem put (h : s.abates t) (f : Fld) (v : Nat) : s.abates (t.put f v) := h.of_same rfl rfl

theorem setWord (h : s.abates t) (a : Nat) (w : Word) : s.abates (t.setWord a w) := h.of_same rfl rfl

theorem ax (h : s.abates t) (n : Fin 8) (f : Axis → Axis) : s.abates (t.ax n f) := h.of_same rfl rfl

theorem stn (h : s.abates t) (x : Fin 2) (f : Station → Station) : s.abates (t.stn x f) := h.of_same rfl rfl

theorem cyc (h : s.abates t) (c : CycSt) : s.abates { t with cyc := c } := h.of_same rfl rfl

theorem ite {c : Prop} [Decidable c] {a b : State} (ha : s.abates a) (hb : s.abates b) : s.abates (if c then a else b) := by
  split
  · exact ha
  · exact hb

theorem foldl {ι : Type} {l : List ι} {f : State → ι → State} (hf : ∀ x i, s.abates x → s.abates (f x i)) (h : s.abates t) :
    s.abates (l.foldl f t) := foldl_ind s.abates l f hf t h

/-- A change of the commands that drops or ends some. -/
theorem cmds (h : s.abates t) (l : List Cmd) (ids : (l.map fun (c : Cmd) => c.id).Sublist (t.cmds.map fun (c : Cmd) => c.id))
    (live : ∀ c ∈ l, c.live = true → c ∈ t.cmds) (cmds : u.cmds = l) (coils : u.coils = t.coils) : s.abates u := by
  subst cmds
  exact h.trans ⟨ids, live, fun k o => by rw [coils]; exact o⟩

end State.abates

/-- Every command of this number marked as ended. -/
def endedAs (id st : Nat) (l : List Cmd) : List Cmd := l.map fun c => if c.id == id then { c with ph := .ended st } else c

theorem endedAs_ids (id st : Nat) (l : List Cmd) : (endedAs id st l).map (fun (c : Cmd) => c.id) = l.map fun (c : Cmd) => c.id := by
  unfold endedAs
  rw [List.map_map]
  refine List.map_congr_left fun c _ => ?_
  rw [Function.comp_apply]
  split <;> rfl

/-- A command that has not ended is none of those marked. -/
theorem mem_endedAs {id st : Nat} {l : List Cmd} {c : Cmd} (h : c ∈ endedAs id st l) (live : c.live = true) : c ∈ l ∧ c.id ≠ id := by
  obtain ⟨d, hd, rfl⟩ := List.mem_map.1 h
  by_cases e : (d.id == id) = true
  · rw [if_pos e] at live
    cases live
  · rw [if_neg e]
    exact ⟨hd, fun q => e (beq_iff_eq.2 q)⟩

section
variable (s : State) {u t : State}

theorem State.noteLast_cmds (c : Cmd) (st : Nat) : (s.noteLast c st).cmds = s.cmds ∧ (s.noteLast c st).coils = s.coils := by
  unfold State.noteLast
  split
  · split <;> exact ⟨rfl, rfl⟩
  · exact ⟨rfl, rfl⟩

theorem State.noteEnd_cmds (c : Cmd) (st : Nat) : (s.noteEnd c st).cmds = s.cmds ∧ (s.noteEnd c st).coils = s.coils := by
  unfold State.noteEnd
  dsimp only
  split
  · split <;> exact s.noteLast_cmds c st
  all_goals exact s.noteLast_cmds c st

/-- `l'` is `l` without the commands of this number that have not ended: dropped, or marked as ended. -/
def without (id : Nat) (l l' : List Cmd) : Prop := l' = l.filter (fun c => c.id != id) ∨ ∃ st, l' = endedAs id st l

theorem without_ids {id : Nat} {l l' : List Cmd} (h : without id l l') :
    (l'.map fun (c : Cmd) => c.id).Sublist (l.map fun (c : Cmd) => c.id) := by
  obtain rfl | ⟨st, rfl⟩ := h
  · exact List.filter_sublist.map _
  · rw [endedAs_ids]

theorem mem_without {id : Nat} {l l' : List Cmd} (h : without id l l') {c : Cmd} (m : c ∈ l') (live : c.live = true) : c ∈ l ∧ c.id ≠ id := by
  obtain rfl | ⟨st, rfl⟩ := h
  · obtain ⟨m, e⟩ := List.mem_filter.1 m
    exact ⟨m, by simpa using e⟩
  · exact mem_endedAs m live

/-- The record of an ending drops the command, or marks it as ended while the record waits (R245). -/
theorem State.recordEnd_cmds (c : Cmd) (st : Nat) :
    without c.id s.cmds (s.recordEnd c st).cmds ∧ (s.recordEnd c st).coils = s.coils := by
  unfold State.recordEnd
  split
  · exact ⟨.inl rfl, rfl⟩
  · split
    · exact ⟨.inl rfl, rfl⟩
    · exact ⟨.inr ⟨st, rfl⟩, rfl⟩

/-- A command that is there and has not ended ends; no other one changes. -/
theorem State.endCmd_cmds (id st : Nat) : (s.endCmd id st).coils = s.coils ∧
    (without id s.cmds (s.endCmd id st).cmds ∨
      (s.endCmd id st).cmds = s.cmds ∧ ∀ c, s.cmds.find? (fun c => c.id == id) = some c → c.live = false) := by
  unfold State.endCmd
  split
  · next none => exact ⟨rfl, .inr ⟨rfl, fun c found => by rw [none] at found; cases found⟩⟩
  · next c found =>
    have named : c.id = id := by simpa using List.find?_some found
    obtain ⟨noted, coils⟩ := s.noteEnd_cmds c st
    have ended (l : List Nat) : without id s.cmds ((s.noteEnd c st).cmds.map fun x => if x.id == id then { x with ph := .ended st } else x) :=
      .inr ⟨st, by rw [noted]; rfl⟩
    have told := (s.noteEnd c st).recordEnd_cmds c st
    rw [noted, coils, named] at told
    dsimp only
    split
    · next past =>
      refine ⟨rfl, .inr ⟨rfl, fun d again => ?_⟩⟩
      obtain rfl : c = d := Option.some.inj (found.symm.trans again)
      unfold Cmd.live
      rw [past]
    all_goals
      split
      · exact ⟨told.2, .inl told.1⟩
      · exact ⟨coils, .inl (ended [])⟩

/-- An ending leaves no live command of its number. -/
theorem State.endCmd_ends (id st : Nat) (nodup : (s.cmds.map fun (c : Cmd) => c.id).Nodup) {c : Cmd} (h : c ∈ (s.endCmd id st).cmds)
    (live : c.live = true) : c.id ≠ id := by
  obtain gone | ⟨same, past⟩ := (s.endCmd_cmds id st).2
  · exact (mem_without gone h live).2
  · rw [same] at h
    intro e
    cases found : s.cmds.find? (fun c => c.id == id) with
    | none => exact List.find?_eq_none.1 found c h (beq_iff_eq.2 e)
    | some d =>
      have named : d.id = id := by simpa using List.find?_some found
      have one : c = d := List.inj_on_of_nodup_map nodup h (List.mem_of_find?_eq_some found)
        (e.trans named.symm)
      rw [one, past d found] at live
      cases live

end

namespace State.abates
variable {s t : State}

theorem noteEnd (h : s.abates t) (c : Cmd) (st : Nat) : s.abates (t.noteEnd c st) := h.of_same (t.noteEnd_cmds c st).1 (t.noteEnd_cmds c st).2

theorem recordEnd (h : s.abates t) (c : Cmd) (st : Nat) : s.abates (t.recordEnd c st) := by
  obtain ⟨gone, coils⟩ := t.recordEnd_cmds c st
  exact h.cmds _ (without_ids gone) (fun c m l => (mem_without gone m l).1) rfl coils

theorem endCmd (h : s.abates t) (id st : Nat) : s.abates (t.endCmd id st) := by
  obtain ⟨coils, gone | ⟨same, -⟩⟩ := t.endCmd_cmds id st
  · exact h.cmds _ (without_ids gone) (fun c m l => (mem_without gone m l).1) rfl coils
  · exact h.of_same same coils

theorem flushEnds (h : s.abates t) : s.abates t.flushEnds := .foldl (fun _ _ k => k.recordEnd _ _) (h.cyc _)

theorem gathered (h : s.abates t) (f : State → State) (hf : ∀ x, s.abates x → s.abates (f x)) : s.abates (t.gathered f) := by
  unfold State.gathered
  exact .ite (hf t h) (hf _ (h.cyc _)).flushEnds

theorem endAll (h : s.abates t) (p : Cmd → Bool) (st : Nat) : s.abates (t.endAll p st) := .foldl (fun _ _ k => k.endCmd _ _) h

/-! ## The parts of an entry to FAULT -/

theorem faultMove (h : s.abates t) (n : Fin 8) : s.abates (t.faultMove n) := by
  unfold State.faultMove
  refine .ite (.foldl (fun x st hx => ?_) h) h
  split
  · exact hx
  · exact State.abates.stn (.foldl (fun y k hy => hy.ax _ _) (.foldl (fun y id hy => hy.endCmd id _) hx)) _ _

theorem followLeave (h : s.abates t) (n : Fin 8) : s.abates (t.followLeave n) := by
  unfold State.followLeave
  exact .ite ((h.put _ _).ax _ _) h

theorem co (h : s.abates t) (c : Fin 16) (f : Coil → Coil) (hf : ∀ x, x.openN = 0 → (f x).openN = 0) : s.abates (t.co c f) :=
  h.trans ⟨List.Sublist.refl _, fun _ m _ => m, fun k o => by
    change (vupd t.coils c f)[k].openN = 0
    by_cases e : c = k
    · subst e
      rw [vupd_same]
      exact hf _ o
    · rw [vupd_ne _ _ _ _ e]
      exact o⟩

theorem bridgesOff (h : s.abates t) (n : Fin 8) : s.abates (t.bridgesOff n) := (h.co _ _ fun _ _ => rfl).co _ _ fun _ _ => rfl

theorem step {u : State} (h : s.abates t) (k : t.evStep u) : s.abates u := h.of_supply k.supply

/-- The entry of an axis to FAULT ends commands and opens bridges. -/
theorem axisFault (h : s.abates t) (n : Fin 8) (pwr ax st : Nat) : s.abates (t.axisFault n pwr ax st) := by
  unfold State.axisFault
  dsimp only
  have caused := (h.put (PWR_FLTCAUSE_BITS n) (t.g (PWR_FLTCAUSE_BITS n) ||| pwr)).put (AX_FAULT_BITS n)
    ((t.put (PWR_FLTCAUSE_BITS n) (t.g (PWR_FLTCAUSE_BITS n) ||| pwr)).g (AX_FAULT_BITS n) ||| ax)
  refine .ite caused (caused.gathered _ fun x hx => ?_)
  refine State.abates.step (.foldl (fun y c hy => ?_) (State.abates.bridgesOff ?_ n)) (State.pulse_step _ _ _ _ (by omega))
  · split
    · exact hy.endCmd _ _
    · exact hy
  · exact (((((hx.faultMove n).followLeave n).setWord _ _).put _ _).setWord _ _).ax n _

end State.abates

end Sys2Proof.Machine
end

section
/-!
Overcurrent and open coils (R88 to R91, Tables 3-10 to 3-12).
-/

namespace Sys2Proof.Machine

/-! ## One bit of a field -/

theorem State.putBit_gBit (s : State) (f : Fld) (i j : Nat) (b : Bool) (h : f.lo + f.w ≤ 32) (hj : j < f.w) :
    (s.putBit f i b).gBit f j = if i = j then b else s.gBit f j := by
  rw [State.gBit_eq, State.putBit_eq, State.put_g_same _ _ _ h, bit_mod _ _ _ hj]
  by_cases e : i = j
  · rw [if_pos e, e]
    exact bit_setBits_same _ _ _
  · rw [if_neg e]
    exact bit_setBits_ne _ _ _ _ e

theorem State.put_gBit_apart (s : State) (f f' : Fld) (v i : Nat) (h : f.lo + f.w ≤ 32) (d : f.apart f') :
    (s.put f v).gBit f' i = s.gBit f' i := by
  rw [State.gBit_eq, State.gBit_eq, State.put_g_disj _ _ _ _ h d]

/-- A loop of which one step alone bears on what is read. -/
theorem forFin_reads {k : Nat} {σ α : Type} (f : Fin k → σ → σ) (read : σ → α) (g : α → α) (c : Fin k)
    (own : ∀ s, read (f c s) = g (read s)) (other : ∀ m s, m ≠ c → read (f m s) = read s) (s : σ) :
    read (forFin k f s) = g (read s) := by
  have each (l : List (Fin k)) (nodup : l.Nodup) (s : σ) :
      read (l.foldl (fun s i => f i s) s) = if c ∈ l then g (read s) else read s := by
    induction l generalizing s with
    | nil => rfl
    | cons m l ih =>
      obtain ⟨fresh, nodup⟩ := List.nodup_cons.1 nodup
      rw [List.foldl_cons, ih nodup]
      by_cases e : m = c
      · subst e
        rw [if_neg fresh, if_pos (List.mem_cons_self ..), own]
      · rw [other m s e]
        simp [show ¬ c = m from fun q => e q.symm]
  exact (each _ (List.nodup_finRange k) s).trans (if_pos (List.mem_finRange c))

/-! ## FET_OVERCURRENT (R88, R89) -/

/-- The four classes of a short (R88), by the FETs that tripped. -/
theorem ocKind_classes (fets : BitVec 4) (free : Nat) (h : fets ≠ 0) :
    ocKind fets.toNat free < 4 ∧ (ocKind fets.toNat free = 3 ∨ ¬ (fets &&& 0b1001 = 0b1001 ∨ fets &&& 0b0110 = 0b0110)) ∧
      (ocKind fets.toNat free = 1 ∨ fets &&& 0b1010 ≠ 0) ∧ (ocKind fets.toNat free = 2 ∨ fets &&& 0b0101 ≠ 0) := by
  have classes : ∀ (fets : BitVec 4) (x : Fin 4), fets ≠ 0 →
      ocKind fets.toNat x < 4 ∧ (ocKind fets.toNat x = 3 ∨ ¬ (fets &&& 0b1001 = 0b1001 ∨ fets &&& 0b0110 = 0b0110)) ∧
        (ocKind fets.toNat x = 1 ∨ fets &&& 0b1010 ≠ 0) ∧ (ocKind fets.toNat x = 2 ∨ fets &&& 0b0101 ≠ 0) := by decide
  have low : ocKind fets.toNat free = ocKind fets.toNat (free % 4) := by
    unfold ocKind
    rw [Nat.mod_mod]
  rw [low]
  exact classes fets ⟨free % 4, Nat.mod_lt _ (by decide)⟩ h

section
variable {s : State} {dt : Nat} {c : Fin 16} {fets : BitVec 4}

/-- The coil's overcurrent latch: its bit and kind, the bridge released, the axis's fault due at the commit. -/
def State.ocLatch (s : State) (c : Fin 16) (fets kind : Nat) : State :=
  let s := s.useFree
  let s := (s.putBit PWR_COILFLT_OC c true).put (PWR_OCKIND_KIND c) kind
  let s := s.co c fun k => { k.release with ocFets := fets }
  (s.pulse 16 c kind).ax (axisOf c) fun a => { a with ocDue := a.ocDue ||| fcOC (c.val % 2 == 1) }

theorem exec_fetOvercurrent : exec (.fetOvercurrent dt c fets) s =
    let u := s.tickTo dt
    done (if fets = 0 then u
      else if u.gBit PWR_COILFLT_OC c then u.co c fun k => { k with ocMore := min 65535 (k.ocMore + 1), ocFets := k.ocFets ||| fets.toNat }
      else
        let kind := ocKind fets.toNat (Config.freeValue u.free).toNat
        (u.ocLatch c fets.toNat kind).fbAdd 0x10 [c.val, kind, (u.ocLatch c fets.toNat kind).axes[axisOf c].st.code]) := rfl

/-- What the latch says, events aside. -/
theorem State.ocLatch_sameBut (u : State) (c : Fin 16) (fets kind : Nat) (A : List Nat) :
    ({ (u.putBit PWR_COILFLT_OC c true).put (PWR_OCKIND_KIND c) kind with
      coils := vupd u.coils c (fun k => { k.release with ocFets := fets }),
      axes := vupd u.axes (axisOf c) (fun a => { a with ocDue := a.ocDue ||| fcOC (c.val % 2 == 1) }),
      free := u.free + 1 }).sameBut (u.ocLatch c fets kind) A :=
  (State.sameBut.refl.step (State.pulse_step _ 16 c kind (by decide))).ax _ _

theorem State.ocLatch_kind (u : State) (c : Fin 16) (fets kind : Nat) (h : kind < 4) : (u.ocLatch c fets kind).g (PWR_OCKIND_KIND c) = kind := by
  unfold State.ocLatch
  dsimp only
  rw [State.ax_g, (State.pulse_step _ 16 c kind (by decide)).g _ (by simp [evWord]), State.co_g, State.put_g_same _ _ _ (by simp; omega)]
  exact Nat.mod_eq_of_lt h

theorem State.ocLatch_surv (u : State) (c : Fin 16) (fets kind : Nat) : (u.ocLatch c fets kind).surv = u.surv :=
  congrArg (·.surv) (u.ocLatch_sameBut c fets kind []).2.1

theorem State.ocLatch_code (u : State) (c : Fin 16) (fets kind : Nat) :
    (u.ocLatch c fets kind).axes[axisOf c].st.code = u.axes[axisOf c].st.code := by
  have axes : (u.ocLatch c fets kind).axes = vupd u.axes (axisOf c) fun a => { a with ocDue := a.ocDue ||| fcOC (c.val % 2 == 1) } :=
    congrArg (·.axes) (u.ocLatch_sameBut c fets kind []).2.1
  rw [axes, vupd_same]

theorem State.ocLatch_surveyorUp (u : State) (c : Fin 16) (fets kind : Nat) : (u.ocLatch c fets kind).surveyorUp = u.surveyorUp := by
  have same := u.ocLatch_sameBut c fets kind []
  have power : (u.ocLatch c fets kind).power = u.power := congrArg (·.power) same.2.1
  have marked : ((u.useFree.putBit PWR_COILFLT_OC c true).put (PWR_OCKIND_KIND c) kind).g MG_SV_STAT_HALTED = u.g MG_SV_STAT_HALTED :=
    (State.put_g_ne _ _ _ _ (by simp)).trans (State.put_g_ne _ _ _ _ (by simp))
  refine State.surveyorUp_congr (congrArg (·.dev) same.2.1) (by rw [power]) (by rw [power]) (Eq.trans ?_ marked)
  exact (State.pulse_step _ 16 c kind (by decide)).g MG_SV_STAT_HALTED (by decide)

/-- The latch with its record in the field book. -/
theorem State.ocLatch_told (u : State) (c : Fin 16) (fets kind : Nat) (h : kind < 4) (payload : List Nat) :
    let t := ((u.ocLatch c fets kind).fbAdd 0x10 payload).settle
    ({ (u.putBit PWR_COILFLT_OC c true).put (PWR_OCKIND_KIND c) (t.g (PWR_OCKIND_KIND c)) with
        coils := vupd u.coils c (fun k => { k.release with ocFets := fets }),
        axes := vupd u.axes (axisOf c) (fun a => { a with ocDue := a.ocDue ||| fcOC (c.val % 2 == 1) }),
        surv := t.surv, free := t.free }).sameBut t [MG_FB_STAT_LOST.a] ∧
      t.g (PWR_OCKIND_KIND c) = kind ∧ t.evPending 16 = true := by
  intro t
  have latched := u.ocLatch_sameBut c fets kind [MG_FB_STAT_LOST.a]
  have told := (u.ocLatch c fets kind).fbAdd_sameBut 0x10 payload
  have kept : t.g (PWR_OCKIND_KIND c) = kind := by
    rw [State.settle_g' _ (by simp [evWord])]
    exact (State.word_eq_of_g _ _ _ (told.2.2 _ (by simp) (by simp [evWord]))).trans (u.ocLatch_kind c fets kind h)
  refine ⟨?_, kept, ?_⟩
  · have same := ((latched.su fun _ => ((u.ocLatch c fets kind).fbAdd 0x10 payload).surv).trans told).settle
    have surv : t.surv = ((u.ocLatch c fets kind).fbAdd 0x10 payload).surv := State.settle_surv _
    have free : t.free = u.free + 1 := congrArg (·.free) same.2.1
    rw [kept, surv, free]
    exact same
  · exact ((State.fbAdd_graver _ _ _ State.graver.refl).settle).pend 16 (by decide) (State.pulse_raises _ 16 c kind (by decide))

theorem fetOvercurrent_latches :
    let u := s.tickTo dt
    let n := axisOf c
    fets ≠ 0 → u.gBit PWR_COILFLT_OC c = false →
    ∃ t, exec (.fetOvercurrent dt c fets) s = .next t ∧
      ({ (u.putBit PWR_COILFLT_OC c true).put (PWR_OCKIND_KIND c) (t.g (PWR_OCKIND_KIND c)) with
        coils := vupd u.coils c (fun k => { k.release with ocFets := fets.toNat }),
        axes := vupd u.axes n (fun a => { a with ocDue := a.ocDue ||| fcOC (c.val % 2 == 1) }),
        surv := t.surv, free := t.free }).sameBut t [MG_FB_STAT_LOST.a] ∧
      (t.g (PWR_OCKIND_KIND c) = 3 ∨ ¬ (fets &&& 0b1001 = 0b1001 ∨ fets &&& 0b0110 = 0b0110)) ∧
      (t.g (PWR_OCKIND_KIND c) = 1 ∨ fets &&& 0b1010 ≠ 0) ∧ (t.g (PWR_OCKIND_KIND c) = 2 ∨ fets &&& 0b0101 ≠ 0) ∧
      t.evPending 16 = true ∧ u.booked t 0x10 [c.val, t.g (PWR_OCKIND_KIND c), u.axes[n].st.code] := by
  intro u n tripped unlatched
  refine exec_next (exec_fetOvercurrent.trans (congrArg done ((if_neg tripped).trans (if_neg (ne_true_of_eq_false unlatched))))) ?_
  obtain ⟨fits, across, ground, supply⟩ := ocKind_classes fets (Config.freeValue u.free).toNat tripped
  dsimp only
  rw [State.ocLatch_code]
  obtain ⟨frame, kept, pending⟩ := u.ocLatch_told c fets.toNat _ fits
    [c.val, ocKind fets.toNat (Config.freeValue u.free).toNat, u.axes[n].st.code]
  refine ⟨frame, ?_⟩
  rw [kept]
  exact ⟨across, ground, supply, pending, State.booked_of_same (u.ocLatch_surv c _ _) (u.ocLatch_surveyorUp c _ _) _ _⟩

/-! ## OPEN_COIL_DETECT (R90) -/

/-- The coil is energised and has read as open for OPEN_TICKS ticks. -/
def State.opensNow (s : State) (c : Fin 16) : Prop :=
  s.g (PWR_AXCFG_OPEN_TICKS (axisOf c)) ≠ 0 ∧ s.g (PWR_AXCFG_OPEN_TICKS (axisOf c)) ≤ s.coils[c].openN ∧ s.energised (axisOf c) = true

/-- The coil's open bit, its count begun anew. -/
def State.openLatch (s : State) (c : Fin 16) : State :=
  ((s.putBit PWR_COILFLT_OPEN c true).pulse 17 c 0).co c fun k => { k with openN := 0 }

theorem exec_openCoilDetect : exec (.openCoilDetect dt c) s =
    let u := s.tickTo dt
    let n := axisOf c
    let t := u.g (PWR_AXCFG_OPEN_TICKS n)
    done (if t != 0 && u.coils[c].openN ≥ t && u.energised n then (u.openLatch c).axisFault n (fcOPEN (c.val % 2 == 1)) 0 CANCELLED_FAULT
      else u) := rfl

theorem State.opensNow_iff (u : State) :
    (u.g (PWR_AXCFG_OPEN_TICKS (axisOf c)) != 0 && u.coils[c].openN ≥ u.g (PWR_AXCFG_OPEN_TICKS (axisOf c)) && u.energised (axisOf c)) = true
      ↔ u.opensNow c := by
  unfold State.opensNow
  rw [Bool.and_eq_true, Bool.and_eq_true, bne_iff_ne, decide_eq_true_iff, and_assoc]

theorem State.openLatch_axes (u : State) (c : Fin 16) : (u.openLatch c).axes = u.axes := by
  unfold State.openLatch
  rw [State.co_axes, State.pulse_axes _ _ _ _ (by decide), State.putBit_eq, State.put_axes]

theorem State.openLatch_word (u : State) (c : Fin 16) (a : Nat) (ha : evWord a = false) :
    (u.openLatch c).word a = (u.putBit PWR_COILFLT_OPEN c true).word a := by
  unfold State.openLatch
  rw [State.co_word, (State.pulse_step _ 17 c 0 (by decide)).word a ha]

theorem State.openLatch_quelled (u : State) (c : Fin 16) : u.quelled (u.openLatch c) [0x148] :=
  State.co_quell _ _ _ (State.pulse_quell _ _ _ _ (by decide) (State.quelled.refl.putBit _ _ _ (.inl (by simp))))

theorem State.openLatch_counts (u : State) (c : Fin 16) : (u.openLatch c).coils[c].openN = 0 := by
  unfold State.openLatch
  rw [State.co_coils, vupd_same]

theorem State.openLatch_raises (u : State) (c : Fin 16) : (u.openLatch c).evPending 17 = true := State.pulse_raises _ 17 c 0 (by decide)

theorem openCoilDetect_opens (h : (s.tickTo dt).opensNow c) :
    let u := s.tickTo dt
    ∃ t, exec (.openCoilDetect dt c) s = .next t ∧
      u.quelled t [0x148] ∧ t.word 0x148 = (u.putBit PWR_COILFLT_OPEN c true).word 0x148 ∧ t.evPending 17 = true ∧
      u.opensAxes t (fun k => k == axisOf c) (fcOPEN (c.val % 2 == 1)) ∧ t.coils[c].openN = 0 := by
  intro u
  refine exec_next (exec_openCoilDetect.trans (congrArg done (if_pos ((State.opensNow_iff _).2 h)))) ?_
  have only := (u.openLatch c).axisFault_only (axisOf c) (fcOPEN (c.val % 2 == 1)) 0 CANCELLED_FAULT
  refine ⟨(State.axisFault_quell _ _ _ _ _ (u.openLatch_quelled c)).settle, ?_, ?_, ?_, ?_⟩
  · rw [State.settle_word _ _ (by decide), only.word 0x148 (by decide) fun n _ => by omega]
    exact u.openLatch_word c 0x148 (by decide)
  · exact ((State.axisFault_graver _ _ _ _ _ State.graver.refl).settle).pend 17 (by decide) (u.openLatch_raises c)
  · have energised : (u.openLatch c).energised (axisOf c) = true := by
      unfold State.energised
      rw [u.openLatch_axes c]
      exact h.2.2
    have opens := (u.openLatch c).axisFaultIf_opens (axisOf c) (fcOPEN (c.val % 2 == 1)) 0 CANCELLED_FAULT
      (by unfold fcOPEN; split <;> decide)
    unfold State.axisFaultIf at opens
    rw [energised, Bool.true_or, if_pos rfl] at opens
    refine (opens.of_same (u.openLatch_axes c) (fun n => State.word_eq_of_g _ _ _ ?_) fun n => ⟨.rfl, rfl⟩).settle
    exact (u.openLatch_word c _ (evWord_of_axisBlock (axisBlock_cause n))).trans (State.put_word_ne _ _ _ _ (by simp; omega))
  · exact ((State.abates.refl.axisFault _ _ _ _).step (State.settle_step _)).opens c (u.openLatch_counts c)

/-! ## CLR_OC and CLR_OPEN (R89, R91) -/

/-- The overcurrent latch of a coil cleared. -/
def State.ocClear (s : State) (c : Fin 16) : State :=
  ((s.putBit PWR_COILFLT_OC c false).put (PWR_OCKIND_KIND c) 0).co c fun k => { k with ocFets := 0 }

/-- One coil's part in a clear. -/
def State.coilClear (s : State) (oc op : Nat) (c : Fin 16) : State :=
  let s := if bit oc c then s.ocClear c else s
  if bit op c then s.putBit PWR_COILFLT_OPEN c false else s

theorem State.coilClr_eq (s : State) (oc op : Nat) : s.coilClr oc op = forFin 16 (fun c s => s.coilClear oc op c) s := rfl

/-- What a clear bears on, of one coil. -/
def State.coilReads (s : State) (c : Fin 16) : Coil × Bool × Bool × Nat :=
  (s.coils[c], s.gBit PWR_COILFLT_OC c, s.gBit PWR_COILFLT_OPEN c, s.g (PWR_OCKIND_KIND c))

theorem State.ocClear_oc (s : State) (m c : Fin 16) :
    (s.ocClear m).gBit PWR_COILFLT_OC c = if m.val = c.val then false else s.gBit PWR_COILFLT_OC c := by
  unfold State.ocClear
  rw [State.co_gBit, State.put_gBit_apart _ _ _ _ _ (by simp; omega) (.inl (by simp)), State.putBit_gBit _ _ _ _ _ (by decide) c.isLt]

theorem State.ocClear_open (s : State) (m c : Fin 16) : (s.ocClear m).gBit PWR_COILFLT_OPEN c = s.gBit PWR_COILFLT_OPEN c := by
  unfold State.ocClear State.putBit
  rw [State.co_gBit, State.put_gBit_apart _ _ _ _ _ (by simp; omega) (.inl (by simp)),
    State.put_gBit_apart _ _ _ _ _ (by decide) (.inr (.inl (by decide)))]

theorem State.ocClear_kind (s : State) (m c : Fin 16) :
    (s.ocClear m).g (PWR_OCKIND_KIND c) = if m.val = c.val then 0 else s.g (PWR_OCKIND_KIND c) := by
  unfold State.ocClear State.putBit
  rw [State.co_g]
  by_cases e : m.val = c.val
  · rw [if_pos e, e, State.put_g_same _ _ _ (by simp; omega)]
    rfl
  · rw [if_neg e, State.put_g_disj _ _ (PWR_OCKIND_KIND c) _ (by simp; omega) (.inr (by simp; omega)), State.put_g_ne _ _ _ _ (by simp)]

theorem State.ocClear_own (s : State) (c : Fin 16) :
    (s.ocClear c).coilReads c = ({ s.coils[c] with ocFets := 0 }, false, s.gBit PWR_COILFLT_OPEN c, 0) := by
  have coil : (s.ocClear c).coils[c] = { s.coils[c] with ocFets := 0 } := vupd_same s.coils c _
  unfold State.coilReads
  rw [coil, State.ocClear_oc, State.ocClear_open, State.ocClear_kind, if_pos rfl, if_pos rfl]

theorem State.ocClear_other (s : State) (m c : Fin 16) (h : m ≠ c) : (s.ocClear m).coilReads c = s.coilReads c := by
  have far : m.val ≠ c.val := fun e => h (Fin.ext e)
  have coil : (s.ocClear m).coils[c] = s.coils[c] := vupd_ne s.coils m c _ h
  unfold State.coilReads
  rw [coil, State.ocClear_oc, State.ocClear_open, State.ocClear_kind, if_neg far, if_neg far]

theorem State.openClear_reads (s : State) (m c : Fin 16) : (s.putBit PWR_COILFLT_OPEN m false).coilReads c =
    (s.coils[c], s.gBit PWR_COILFLT_OC c, if m.val = c.val then false else s.gBit PWR_COILFLT_OPEN c, s.g (PWR_OCKIND_KIND c)) := by
  have oc : (s.putBit PWR_COILFLT_OPEN m false).gBit PWR_COILFLT_OC c = s.gBit PWR_COILFLT_OC c :=
    s.put_gBit_apart _ _ _ _ (by decide) (.inr (.inr (by decide)))
  have kind : (s.putBit PWR_COILFLT_OPEN m false).g (PWR_OCKIND_KIND c) = s.g (PWR_OCKIND_KIND c) := State.put_g_ne _ _ _ _ (by simp)
  unfold State.coilReads
  rw [oc, kind, s.putBit_gBit _ _ _ _ (by decide) c.isLt, State.putBit_eq, State.put_coils]

/-- What a clear with the coil's bits `oc` and `op` leaves of it. -/
def coilLeft (oc op : Bool) (x : Coil × Bool × Bool × Nat) : Coil × Bool × Bool × Nat :=
  ({ x.1 with ocFets := if oc then 0 else x.1.ocFets }, x.2.1 && !oc, x.2.2.1 && !op, if oc then 0 else x.2.2.2)

theorem State.coilClear_own (s : State) (oc op : Nat) (c : Fin 16) :
    (s.coilClear oc op c).coilReads c = coilLeft (bit oc c) (bit op c) (s.coilReads c) := by
  have first : (if bit oc c then s.ocClear c else s).coilReads c = coilLeft (bit oc c) false (s.coilReads c) := by
    cases bit oc c with
    | true => exact (s.ocClear_own c).trans (by simp [coilLeft, State.coilReads])
    | false => simp [coilLeft, State.coilReads]
  unfold State.coilClear
  dsimp only
  cases bit op c with
  | false => exact first
  | true =>
    refine (State.openClear_reads _ c c).trans ?_
    rw [if_pos rfl]
    refine (congrArg (fun x : Coil × Bool × Bool × Nat => (x.1, x.2.1, false, x.2.2.2)) first).trans ?_
    simp [coilLeft]

theorem State.coilClear_other (s : State) (oc op : Nat) (m c : Fin 16) (h : m ≠ c) : (s.coilClear oc op m).coilReads c = s.coilReads c := by
  have first : (if bit oc m then s.ocClear m else s).coilReads c = s.coilReads c := by
    split
    · exact s.ocClear_other m c h
    · rfl
  unfold State.coilClear
  dsimp only
  split
  · refine (State.openClear_reads _ m c).trans ?_
    rw [if_neg fun e => h (Fin.ext e)]
    exact first
  · exact first

/-- A clear bears on each coil by its own bits alone. -/
theorem State.coilClr_reads (s : State) (oc op : Nat) (c : Fin 16) :
    (s.coilClr oc op).coilReads c = coilLeft (bit oc c) (bit op c) (s.coilReads c) :=
  forFin_reads (fun c s => State.coilClear s oc op c) (fun t => t.coilReads c) (coilLeft (bit oc c) (bit op c)) c
    (fun s => s.coilClear_own oc op c) (fun m s h => s.coilClear_other oc op m c h) s

theorem State.ocClear_sameBut {s t : State} (h : ({ s with coils := t.coils }).sameBut t [0x148, 0x14A]) (c : Fin 16) :
    ({ s with coils := (t.ocClear c).coils }).sameBut (t.ocClear c) [0x148, 0x14A] := by
  unfold State.ocClear
  rw [State.co_coils, State.put_coils, State.putBit_eq, State.put_coils]
  exact State.sameBut.co ((h.put PWR_COILFLT_OC _ (by simp)).put (PWR_OCKIND_KIND c) 0 (by simp)) c _

theorem State.coilClear_sameBut {s t : State} (h : ({ s with coils := t.coils }).sameBut t [0x148, 0x14A]) (oc op : Nat) (c : Fin 16) :
    ({ s with coils := (t.coilClear oc op c).coils }).sameBut (t.coilClear oc op c) [0x148, 0x14A] := by
  unfold State.coilClear
  dsimp only
  generalize first : (if bit oc c then t.ocClear c else t) = x
  have fx : ({ s with coils := x.coils }).sameBut x [0x148, 0x14A] := by
    rw [← first]
    split
    · exact State.ocClear_sameBut h c
    · exact h
  split
  · rw [State.putBit_eq, State.put_coils]
    exact fx.put PWR_COILFLT_OPEN _ (by simp)
  · exact fx

theorem State.coilClr_sameBut (s : State) (oc op : Nat) :
    ({ s with coils := (s.coilClr oc op).coils }).sameBut (s.coilClr oc op) [0x148, 0x14A] := by
  rw [State.coilClr_eq]
  exact forFin_ind (fun t => ({ s with coils := t.coils }).sameBut t [0x148, 0x14A]) 16 _
    (fun c _ h => State.coilClear_sameBut h oc op c) s State.sameBut.refl

/-- Without overcurrent bits a clear touches the open bits alone. -/
theorem State.coilClr_open_sameBut (s : State) (op : Nat) : s.sameBut (s.coilClr 0 op) [0x148] := by
  rw [State.coilClr_eq]
  refine forFin_ind (fun t => s.sameBut t [0x148]) 16 _ (fun c t h => ?_) s State.sameBut.refl
  unfold State.coilClear
  dsimp only
  rw [if_neg (show ¬ bit 0 c = true by simp [bit])]
  split
  · exact h.put _ _ (by simp)
  · exact h

theorem State.coilClr_cyc (s : State) (oc op : Nat) : (s.coilClr oc op).cyc = s.cyc := by
  rw [State.coilClr_eq]
  refine forFin_ind (fun t => t.cyc = s.cyc) 16 _ (fun c t h => ?_) s rfl
  have first : (if bit oc c then t.ocClear c else t).cyc = t.cyc := by
    split
    · exact id rfl
    · rfl
  unfold State.coilClear
  dsimp only
  split
  · rw [State.putBit_eq, State.put_cyc, first, h]
  · rw [first, h]

/-- A write of PWR_COILFLT_CLR is its action. -/
theorem exec_coilFltClr {x : Instr} {lk : Link} {w : Nat} (hw : w < 2 ^ 32) (hx : exec x s = done ((s.tickTo dt).rowWrite lk 0x149 w))
    (h : (s.tickTo dt).hostBegin.reaches 0x149 = true) :
    ∃ v w' key, ((s.tickTo dt).hostBegin.unarm lk).reads v ∧
      exec x s = done ((v.coilClr (bits w 0 16) (bits w 16 16)).hostStands 0x149 w' key) := by
  have w32 : (W w).toNat = w := W_toNat w hw
  have rows : ∀ r ∈ layout 0x149, r.lo + r.w ≤ 32 ∧ r.acc = .wp := by decide
  have unkeyed : (s.tickTo dt).hostBegin.keyTaken lk 0x149 = (s.tickTo dt).hostBegin.unarm lk := by
    unfold State.keyTaken
    rw [show hasKeyed 0x149 = false by decide]
    rfl
  have stays : ((s.tickTo dt).hostBegin.keyTaken lk 0x149).reads (((s.tickTo dt).hostBegin.keyTaken lk 0x149).writeFields 0x149 (W w)
      ((s.tickTo dt).link lk).armed false) :=
    writeFields_reads _ _ _ _ (fun t lo v => by unfold State.clampVal; simp) (fun t => by unfold State.noteWritten; simp)
      fun r hr => ⟨(rows r hr).1, .inr (.inr (.inl (rows r hr).2))⟩
  have acts := (s.tickTo dt).rowWrite_acts lk 0x149 w h (by omega)
  rw [w32] at acts
  rw [unkeyed] at stays acts
  refine ⟨_, _, _, stays, hx.trans (congrArg done (acts.trans (State.progAgain_of_apart _ _ ?_)))⟩
  have prog := congrArg (fun x : State => x.cyc.prog) stays.eq
  unfold State.reaches at h
  rw [Bool.and_eq_true] at h
  unfold State.progApart
  change (State.cyc (State.coilClr _ _ _)).prog.all _ = true
  rw [State.coilClr_cyc]
  exact (congrArg (fun l => List.all l _) prog).trans h.2

variable {lk : Link} {mask : BitVec 16}

theorem getLsbD_bit (mask : BitVec 16) (c : Fin 16) : bit mask.toNat c = mask.getLsbD c := by
  unfold bit
  rw [BitVec.getLsbD, Nat.testBit_eq_decide_div_mod_eq]
  rfl

/-- A coil's state after a clear, as the registers tell it. -/
theorem coilClr_told {u v : State} (h : (u.unarm lk).reads v) (oc op : Nat) (w : Word) (key : Bool) (c : Fin 16) :
    let t := ((v.coilClr oc op).hostStands 0x149 w key).settle
    t.coils[c] = { u.coils[c] with ocFets := if bit oc c then 0 else u.coils[c].ocFets } ∧
      t.gBit PWR_COILFLT_OC c = (u.gBit PWR_COILFLT_OC c && !bit oc c) ∧
      t.gBit PWR_COILFLT_OPEN c = (u.gBit PWR_COILFLT_OPEN c && !bit op c) ∧
      t.g (PWR_OCKIND_KIND c) = if bit oc c then 0 else u.g (PWR_OCKIND_KIND c) := by
  intro t
  have settled (t : State) : (t.hostStands 0x149 w key).settle.coilReads c = t.coilReads c := by
    unfold State.coilReads
    rw [State.settle_coils, State.gBit_eq, State.gBit_eq, State.settle_g _ _ (by decide), State.settle_g _ _ (by decide),
      State.settle_g _ _ (by simp [evWord])]
    rfl
  have read : v.coilReads c = u.coilReads c := by
    have coils : v.coils = u.coils := by
      have same := congrArg (fun x : State => x.coils) h.eq
      exact same
    unfold State.coilReads
    rw [coils, State.gBit_eq, State.gBit_eq, h.g, h.g, h.g]
    exact rfl
  have left : t.coilReads c = coilLeft (bit oc c) (bit op c) (u.coilReads c) := by rw [settled, State.coilClr_reads, read]
  unfold State.coilReads coilLeft at left
  simpa only [Prod.mk.injEq] using left

/-- The same coils on both sides. -/
theorem State.sameBut.coils {u v : State} {A : List Nat} (h : u.sameBut v A) (x : Vector Coil 16) :
    ({ u with coils := x }).sameBut { v with coils := x } A :=
  h.rest rfl rfl (fun r => congrArg (fun y : State => { y with coils := x }) r) rfl rfl

/-- A mask's word has its bits in one half alone. -/
theorem mask_halves (mask : BitVec 16) : bits mask.toNat 0 16 = mask.toNat ∧ bits mask.toNat 16 16 = 0 ∧
    bits (mask.toNat * 2 ^ 16) 0 16 = 0 ∧ bits (mask.toNat * 2 ^ 16) 16 16 = mask.toNat := by
  have lt := mask.isLt
  unfold bits
  omega

theorem clrOc_clears :
    let u := (s.tickTo dt).hostBegin
    u.reaches 0x149 = true →
    ∃ t, exec (.clrOc dt lk mask) s = .next t ∧
      ({ u.unarm lk with coils := t.coils }).sameBut t [0x148, 0x14A] ∧
      ∀ c : Fin 16, t.coils[c] = { u.coils[c] with ocFets := if mask.getLsbD c then 0 else u.coils[c].ocFets } ∧
        t.gBit PWR_COILFLT_OC c = (u.gBit PWR_COILFLT_OC c && !mask.getLsbD c) ∧
        t.gBit PWR_COILFLT_OPEN c = u.gBit PWR_COILFLT_OPEN c ∧
        t.g (PWR_OCKIND_KIND c) = if mask.getLsbD c then 0 else u.g (PWR_OCKIND_KIND c) := by
  intro u h
  have small : mask.toNat < 2 ^ 32 := Nat.lt_trans mask.isLt (by decide)
  obtain ⟨oc, op, -⟩ := mask_halves mask
  obtain ⟨v, w, key, reads, runs⟩ := exec_coilFltClr (x := .clrOc dt lk mask) (lk := lk) small rfl h
  rw [oc, op] at runs
  refine exec_next runs ⟨?_, fun c => ?_⟩
  · rw [State.settle_coils]
    exact (((reads.sameBut.coils _).trans (v.coilClr_sameBut _ _)).hostStands 0x149 w key).settle
  · obtain ⟨coil, overcurrent, opened, kind⟩ := coilClr_told reads mask.toNat 0 w key c
    rw [getLsbD_bit] at coil overcurrent kind
    rw [show bit 0 c = false by simp [bit], Bool.not_false, Bool.and_true] at opened
    exact ⟨coil, overcurrent, opened, kind⟩

theorem clrOpen_clears :
    let u := (s.tickTo dt).hostBegin
    u.reaches 0x149 = true →
    ∃ t, exec (.clrOpen dt lk mask) s = .next t ∧
      (u.unarm lk).sameBut t [0x148] ∧
      ∀ c : Fin 16, t.gBit PWR_COILFLT_OPEN c = (u.gBit PWR_COILFLT_OPEN c && !mask.getLsbD c) ∧
        t.gBit PWR_COILFLT_OC c = u.gBit PWR_COILFLT_OC c := by
  intro u h
  have small : mask.toNat * 2 ^ 16 < 2 ^ 32 := by
    have lt := mask.isLt
    omega
  obtain ⟨-, -, oc, op⟩ := mask_halves mask
  obtain ⟨v, w, key, reads, runs⟩ := exec_coilFltClr (x := .clrOpen dt lk mask) (lk := lk) small rfl h
  rw [oc, op] at runs
  refine exec_next runs ⟨?_, fun c => ?_⟩
  · exact ((reads.sameBut.trans (v.coilClr_open_sameBut _)).hostStands 0x149 w key).settle
  · obtain ⟨-, overcurrent, opened, -⟩ := coilClr_told reads 0 mask.toNat w key c
    rw [getLsbD_bit] at opened
    rw [show bit 0 c = false by simp [bit], Bool.not_false, Bool.and_true] at overcurrent
    exact ⟨opened, overcurrent⟩

end

/-- Settles O15: the latch comes before the record, and a clear bears on each coil by its own bits (`State.coilClr_reads`). -/
theorem coilFaults : Obligations.CoilFaults := by
  refine ⟨fun _ _ _ _ => fetOvercurrent_latches, fun s dt c fets tripped latched => ?_, fun s dt c => ?_,
    fun s dt c on long energised => openCoilDetect_opens ⟨on, long, energised⟩, fun s dt c no => ?_, fun _ _ _ _ => clrOc_clears,
    fun _ _ _ _ => clrOpen_clears⟩
  · exact exec_next (exec_fetOvercurrent.trans (congrArg done ((if_neg tripped).trans (if_pos latched)))) State.sameBut.refl.settle
  · exact exec_same (exec_fetOvercurrent.trans (congrArg done (if_pos rfl)))
  · refine exec_same (exec_openCoilDetect.trans (congrArg done (if_neg fun acts => ?_)))
    obtain ⟨on, long, energised⟩ := (State.opensNow_iff _).1 acts
    obtain off | short | rest := no
    · exact on off
    · exact Nat.not_le.2 short long
    · exact Bool.false_ne_true (rest.symm.trans energised)

end Sys2Proof.Machine
end

section
/-!
What SAFE (R132) and the full-logic domain's going down (R79) leave of the commands in flight, the coils and the supplies.
-/

namespace Sys2Proof.Machine

variable (s : State)

/-! ## Captures and the stop of the program contexts (R167, R446) -/

theorem State.mbWords_supply (m : Nat) (ws : List Nat) : (s.mbWords m ws).supply = s.supply :=
  foldl_supply s _ _ fun x _ => x.put_supply _ _

theorem State.mbFill_supply (m : Fin 8) (ws : List Nat) : (s.mbFill m ws).supply = s.supply := by
  unfold State.mbFill
  dsimp only
  rw [State.put_supply, State.put_supply, State.put_supply, State.put_supply, State.mbWords_supply]

theorem State.mbox_supply (b : Vector MboxSt 8) : ({ s with mbox := b }).supply = s.supply := rfl

theorem State.mbDeliver_supply (m : Fin 8) (ws : List Nat) : (s.mbDeliver m ws).supply = s.supply := by
  unfold State.mbDeliver
  dsimp only
  split
  · rw [State.put_supply, State.mbox_supply]
    split
    · exact s.inc_supply (MB_STAT_LOST m)
    · rfl
  · exact s.mbFill_supply m ws

theorem State.capture_supply (item idx : Nat) (ws : List Nat) : (s.capture item idx ws).supply = s.supply := by
  refine foldl_supply s _ _ fun x m => ?_
  split
  · exact x.mbDeliver_supply m ws
  · rfl

theorem State.stopCtx_supply (x : Fin 4) (cause : Nat) : (s.stopCtx x cause).supply = s.supply := by
  unfold State.stopCtx
  split
  · exact (State.capture_supply _ _ _ _).trans (State.evRaise_step _ (60 + x) 0 _ (by omega)).supply
  · rfl

theorem State.stopAllCtx_supply (cause : Nat) : (s.stopAllCtx cause).supply = s.supply :=
  foldl_supply s _ _ fun t x => t.stopCtx_supply x cause

/-! ## Entry to SAFE -/

/-- The full-logic domain's supply, the commands in flight and the coils. -/
def State.fed (s : State) : Bool × List Cmd × Vector Coil 16 := (s.power.flUp, s.cmds, s.coils)

variable {s} in
theorem State.fed_of_supply {t : State} (h : t.supply = s.supply) : t.fed = s.fed :=
  congrArg (fun x : PowerSt × List Cmd × Vector Coil 16 × List FbRec × DevState => (x.1.flUp, x.2.1, x.2.2.1)) h

theorem State.put_fed (f : Fld) (v : Nat) : (s.put f v).fed = s.fed := by
  unfold State.fed
  rw [State.put_power, State.put_cmds, State.put_coils]

theorem State.pw_fed (f : PowerSt → PowerSt) (h : ∀ p, (f p).flUp = p.flUp) : (s.pw f).fed = s.fed :=
  congrArg (fun x => (x, s.cmds, s.coils)) (h s.power)

theorem State.v5Follow_fed : s.v5Follow.fed = s.fed := by
  unfold State.v5Follow
  dsimp only
  split
  · split
    · rfl
    · exact (s.v5Switch.pw_fed _ fun _ => rfl).trans (State.fed_of_supply s.v5Switch_supply)
  · exact (State.pw_fed _ _ fun _ => rfl).trans (s.put_fed PWR_STAT_V5_ON 0)

/-- The device's state, and where SAFE was entered from. -/
def State.safeMark (s : State) : State :=
  let fromReady := s.dev == .ready
  let s := { s with dev := .safe }
  s.bt fun b => { b with fromReady := fromReady }

/-- The bridges open, the commands end. -/
def State.safeEnd (s : State) : State :=
  (forFin 8 (fun n (s : State) => if s.axes[n].st == .off || s.axes[n].st == .idle then s else s.axisFault n 0 afSAFE CANCELLED_FAULT)
    s).endAll Cmd.live CANCELLED_FAULT

/-- The device in SAFE, the records of the endings gathered (R244). -/
def State.safeOpen (s : State) : State := s.safeMark.gathered State.safeEnd

/-- Stations, program contexts, brake dump and V5OUT in SAFE. -/
def State.safeQuiet (s : State) : State :=
  let s := { s with stations := s.stations.map fun (x : Station) => { x with open_ := [], mv := none } }
  let s := s.stopAllCtx 11
  s.dumpOff.v5Follow

/-- The level and the record of the entry. -/
def State.safeTold (s : State) : State :=
  let s := s.levelOn 1 0 (s.g DEV_STATE_SAFE_CAUSE)
  s.fbAdd 0x05 [s.g DEV_STATE_SAFE_CAUSE]

theorem State.enterSafe_eq : s.enterSafe = s.safeOpen.safeQuiet.safeTold := rfl

variable {s} in
theorem State.faultsOnly.endAll {t : State} {N C : List (Fin 8)} (h : s.faultsOnly t N C) (p : Cmd → Bool) (st : Nat) :
    s.faultsOnly (t.endAll p st) N C := .foldl (fun _ _ k => k.endCmd _ _) h

theorem State.safeEnd_only {t : State} {N C : List (Fin 8)} (h : s.faultsOnly t N C) (hn : ∀ n, n ∈ N) (hc : ∀ n, n ∈ C) :
    s.faultsOnly t.safeEnd N C := by
  refine State.faultsOnly.endAll (.foldl (fun x n hx => ?_) h) _ _
  exact .ite hx (hx.trans ((x.axisFault_only n _ _ _).mono (fun m _ => hn m) (fun m _ => hc m)))

theorem State.safeOpen_power : s.safeOpen.power = s.power :=
  (State.faultsOnly.gathered (.refl (s := s.safeMark) (N := List.finRange 8) (C := List.finRange 8)) _ fun _ hx =>
    s.safeMark.safeEnd_only hx List.mem_finRange List.mem_finRange).power

theorem State.safeOpen_abates : s.abates s.safeOpen := by
  have marked : s.abates s.safeMark := State.abates.refl.of_same rfl rfl
  refine marked.gathered _ fun x hx => State.abates.endAll (.foldl (fun y n hy => ?_) hx) _ _
  exact .ite hy (hy.axisFault _ _ _ _)

theorem State.dumpOff_fed : s.dumpOff.fed = s.fed := rfl

theorem State.safeQuiet_fed : s.safeQuiet.fed = s.fed := by
  unfold State.safeQuiet
  dsimp only
  rw [State.v5Follow_fed, State.dumpOff_fed, State.fed_of_supply (State.stopAllCtx_supply _ 11)]
  rfl

theorem State.fbAdd_fed (typ : Nat) (payload : List Nat) : (s.fbAdd typ payload).fed = s.fed := by
  obtain h | h | h := s.fbAdd_cases typ payload <;> rw [h]
  · exact id rfl
  · exact id rfl

theorem State.safeTold_fed : s.safeTold.fed = s.fed :=
  (State.fbAdd_fed _ _ _).trans (State.fed_of_supply (s.levelOn_step 1 0 _ (by decide)).supply)

theorem State.enterSafe_fed : s.enterSafe.fed = s.safeOpen.fed := by
  rw [State.enterSafe_eq, State.safeTold_fed, State.safeQuiet_fed]

variable {s} in
theorem State.fed_iff {t : State} : t.fed = s.fed ↔ t.power.flUp = s.power.flUp ∧ t.cmds = s.cmds ∧ t.coils = s.coils := by
  unfold State.fed
  rw [Prod.mk.injEq, Prod.mk.injEq]

theorem State.enterSafe_abates : s.abates s.enterSafe := by
  obtain ⟨-, cmds, coils⟩ := State.fed_iff.1 s.enterSafe_fed
  exact s.safeOpen_abates.of_same cmds coils

theorem State.enterSafe_flUp : s.enterSafe.power.flUp = s.power.flUp := by
  obtain ⟨up, -⟩ := State.fed_iff.1 s.enterSafe_fed
  rw [up, s.safeOpen_power]

/-- A SAFE cause lets no command join the flight. -/
theorem State.safeCause_abates (i : Nat) : s.abates (s.safeCause i) := by
  have caused : s.abates (s.putBit DEV_STATE_SAFE_CAUSE i true) := State.abates.refl.put _ _
  unfold State.safeCause
  cases s.dev with
  | ready | run => exact caused.trans (State.enterSafe_abates _)
  | safe | boot | configLoad | recovery => exact caused
  | reset | optionLoad => exact .refl

theorem State.safeCause_flUp (i : Nat) : (s.safeCause i).power.flUp = s.power.flUp := by
  unfold State.safeCause
  cases s.dev with
  | ready | run =>
    dsimp only
    rw [State.enterSafe_flUp, State.putBit_eq, State.put_power]
  | safe | boot | configLoad | recovery | reset | optionLoad => rfl

/-! ## Every command in flight ends -/

variable {s} in
/-- An ending of each command of a list leaves no live one of their numbers. -/
theorem State.endCmds_end {c : Cmd} (l : List Cmd) (st : Nat) (nodup : (s.cmds.map fun (c : Cmd) => c.id).Nodup)
    (h : c ∈ (l.foldl (fun s c => s.endCmd c.id st) s).cmds) (live : c.live = true) : ∀ x ∈ l, c.id ≠ x.id := by
  induction l generalizing s with
  | nil => exact fun x hx => by cases hx
  | cons y l ih =>
    have ends : s.abates (s.endCmd y.id st) := State.abates.refl.endCmd _ _
    have later : (s.endCmd y.id st).abates (l.foldl (fun s c => s.endCmd c.id st) (s.endCmd y.id st)) :=
      .foldl (fun _ _ k => k.endCmd _ _) .refl
    rw [List.foldl_cons] at h
    intro x hx
    obtain rfl | hx := List.mem_cons.1 hx
    · exact State.endCmd_ends _ _ _ nodup (later.live c h live) live
    · exact ih (nodup.sublist ends.ids) h x hx

variable {s} in
/-- Where the commands have numbers of their own and the live ones stand in the eleven rings, every one ends. -/
theorem State.endAll_live (st : Nat) (nodup : (s.cmds.map fun (c : Cmd) => c.id).Nodup) (rings : ∀ c ∈ s.cmds, c.live = true → c.ring < 11) :
    ∀ c ∈ (s.endAll Cmd.live st).cmds, c.live = false := by
  intro c h
  refine eq_false_of_ne_true fun live => ?_
  have flying : c ∈ s.cmds := (State.abates.refl.endAll Cmd.live st).live c h live
  have listed : c ∈ cmdOrder (s.cmds.filter Cmd.live) := by
    unfold cmdOrder
    refine List.mem_flatMap.2 ⟨c.ring, List.mem_range.2 (rings c flying live), ?_⟩
    exact List.mem_filter.2 ⟨List.mem_filter.2 ⟨flying, live⟩, beq_self_eq_true _⟩
  exact State.endCmds_end _ st nodup h live c listed rfl

/-! ## The full-logic domain goes down (R79) -/

/-- V5OUT switched off. -/
def State.v5Cut (s : State) : State :=
  (s.put PWR_STAT_V5_ON 0).pw fun p => { p with v5On := none, v5Off := if s.gb PWR_PATH_CFG_V5_EN then p.v5Off else none }

/-- Without the full-logic domain V5OUT goes off (R82). -/
theorem State.v5Follow_down (h : s.flOn = false) : s.v5Follow = s.v5Cut := by
  unfold State.v5Follow
  dsimp only
  rw [if_neg (by rw [h]; simp)]
  rfl

/-- The domain's supply is off, V5OUT with it. -/
def State.flCut (s : State) : State := ((s.pw fun p => { p with flUp := false, grace := none }).put PWR_STAT_FL_ON 0).v5Cut

/-- The domain's clock is off. -/
def State.tickOff (s : State) : State := { s with tick := { s.tick with on := false, commitDue := false } }

/-- All bridges open. -/
def State.bridgesDown (s : State) : State := forFin 8 (fun n s => s.bridgesOff n) s

theorem State.flDown_eq : s.flDown = s.flCut.mwStop.tickOff.bridgesDown := by
  have cut : ((s.pw fun p => { p with flUp := false, grace := none }).put PWR_STAT_FL_ON 0).v5Follow = s.flCut :=
    State.v5Follow_down _ rfl
  unfold State.flDown
  dsimp only
  rw [cut]
  rfl

/-- What does not bear on the coils stays. -/
theorem State.bridgesDown_keeps {α : Type} (read : State → α) (h : ∀ (t : State) (c : Fin 16) (f : Coil → Coil), read (t.co c f) = read t) :
    read s.bridgesDown = read s :=
  forFin_ind (fun t : State => read t = read s) 8 (fun n s => State.bridgesOff s n)
    (fun n t k => (h _ (coilB n) _).trans ((h t (coilA n) _).trans k)) s rfl

theorem State.bridgesDown_g (f : Fld) : s.bridgesDown.g f = s.g f := s.bridgesDown_keeps (fun t => t.g f) fun t c k => t.co_g c k f

theorem State.tickOff_g (f : Fld) : s.tickOff.g f = s.g f := id rfl

/-- The coil drives neither side. -/
def Coil.open_ (x : Coil) : Prop := x.side1 = .off ∧ x.side2 = .off

/-- An opened coil is open, every other one as before. -/
theorem State.release_open (k c : Fin 16) (h : k = c ∨ s.coils[c].open_) : ((s.co k Coil.release).coils[c]).open_ := by
  rw [State.co_coils]
  by_cases e : k = c
  · subst e
    rw [vupd_same]
    exact ⟨rfl, rfl⟩
  · rw [vupd_ne _ _ _ _ e]
    exact h.resolve_left e

theorem State.bridgesOff_open (n : Fin 8) (c : Fin 16) (h : axisOf c = n ∨ s.coils[c].open_) : ((s.bridgesOff n).coils[c]).open_ := by
  refine State.release_open _ _ _ (or_iff_not_imp_left.2 fun notB => s.release_open _ _ (or_iff_not_imp_left.2 fun notA => ?_))
  refine h.resolve_left fun own => ?_
  subst own
  obtain even | odd : c.val % 2 = 0 ∨ c.val % 2 = 1 := by omega
  · exact absurd (Fin.ext (by simp [coilA, coilOf, axisOf, b2n]; omega)) notA
  · exact absurd (Fin.ext (by simp [coilB, coilOf, axisOf, b2n]; omega)) notB

/-- Every bridge stands open. -/
theorem State.bridgesDown_off (c : Fin 16) : s.bridgesDown.coils[c].side1 = .off ∧ s.bridgesDown.coils[c].side2 = .off := by
  have each := forFin_each (fun n s => State.bridgesOff s n) (fun n t => ∀ c : Fin 16, axisOf c = n → t.coils[c].open_)
    (fun n t c own => t.bridgesOff_open n c (.inl own)) (fun n m t h c own => t.bridgesOff_open m c (.inr (h c own))) s (axisOf c)
  exact each c rfl

/-- What stays as the domain goes down: the rest of the supplies' state, the commands, the field-book queue, the device's state. -/
theorem State.flDown_supply : s.flDown.power.flUp = false ∧ s.flDown.power.grace = none ∧ s.flDown.power.dead = s.power.dead ∧
    s.flDown.power.holdup = s.power.holdup ∧ s.flDown.surv.fbQ = s.surv.fbQ ∧ s.flDown.dev = s.dev := by
  have stopped : s.flDown.power = s.flCut.power ∧ s.flDown.surv.fbQ = s.flCut.surv.fbQ ∧ s.flDown.dev = s.flCut.dev := by
    have same := s.flCut.mwStop_supply
    unfold State.supply at same
    simp only [Prod.mk.injEq] at same
    obtain ⟨power, -, -, fbQ, dev⟩ := same
    have opened {α : Type} (read : State → α) := s.flCut.mwStop.tickOff.bridgesDown_keeps read
    rw [State.flDown_eq]
    exact ⟨(opened (fun t => t.power) fun _ _ _ => rfl).trans power, (opened (fun t => t.surv.fbQ) fun _ _ _ => rfl).trans fbQ,
      (opened (fun t => t.dev) fun _ _ _ => rfl).trans dev⟩
  obtain ⟨power, fbQ, dev⟩ := stopped
  rw [power, fbQ, dev]
  unfold State.flCut State.v5Cut
  rw [State.pw_power, State.put_power, State.put_power, State.pw_power, State.pw_surv, State.put_surv, State.put_surv, State.pw_surv,
    State.pw_dev, State.put_dev, State.put_dev, State.pw_dev]
  exact ⟨rfl, rfl, rfl, rfl, rfl, rfl⟩

/-- Of PWR_STAT FL_ON and V5_ON fall. -/
theorem State.flDown_gb (f : Fld) (h : f.a = 0x140) : s.flDown.gb f = s.flCut.gb f := by
  rw [State.gb_eq, State.gb_eq, State.flDown_eq, State.bridgesDown_g, State.tickOff_g, State.mwStop_g _ _ (mwApart_pwrStat h)]

theorem State.flDown_off : s.flDown.gb PWR_STAT_FL_ON = false ∧ s.flDown.gb PWR_STAT_V5_ON = false := by
  rw [State.flDown_gb _ _ rfl, State.flDown_gb _ _ rfl]
  unfold State.flCut State.v5Cut
  rw [State.pw_gb, State.pw_gb, State.put_gb_apart _ _ _ _ (by decide) (by unfold Fld.apart; decide), State.put_gb_same _ _ _ (by decide),
    State.put_gb_same _ _ _ (by decide)]
  exact ⟨rfl, rfl⟩

theorem State.flDown_tick : s.flDown.tick.on = false := by
  rw [State.flDown_eq, State.bridgesDown_keeps _ (fun t => t.tick) fun _ _ _ => rfl]
  rfl

theorem State.flDown_bridges (c : Fin 16) : s.flDown.coils[c].side1 = .off ∧ s.flDown.coils[c].side2 = .off := by
  rw [State.flDown_eq]
  exact State.bridgesDown_off _ c

theorem State.flDown_halted : s.flDown.halted = s.halted := by
  have cut : s.flCut.halted = s.halted := by
    unfold State.flCut State.v5Cut
    rw [State.pw_halted, State.put_halted _ _ _ (by decide), State.put_halted _ _ _ (by decide), State.pw_halted]
  have down : s.flDown.halted = s.flCut.mwStop.halted := by
    unfold State.halted
    rw [State.flDown_eq, State.bridgesDown_g, State.tickOff_g]
  rw [down, State.mwStop_halted, cut]

end Sys2Proof.Machine
end

section
/-!
The logic power path (R75 to R80, R85).
-/

namespace Sys2Proof.Machine

theorem State.sameBut.symm {s t : State} {A : List Nat} (h : s.sameBut t A) : t.sameBut s A :=
  ⟨h.1.symm, h.2.1.symm, fun a ha he => (h.2.2 a ha he).symm⟩

section
variable {s : State} {dt : Nat}

/-! ## The source of the logic path (R75, R76) -/

theorem exec_logicSourceChange (toVm : Bool) : exec (.logicSourceChange dt toVm) s =
    let u := s.tickTo dt
    done (if u.gb PWR_STAT_SRC_VM == toVm then u
      else if u.awake then (u.putB PWR_STAT_SRC_VM toVm).evPwrSrc else u.putB PWR_STAT_SRC_VM toVm) := rfl

theorem State.evPwrSrc_step (u : State) : u.evStep u.evPwrSrc := State.pulse_step _ 6 0 _ (by decide)

theorem State.evPwrSrc_raises (u : State) : u.evPwrSrc.settle.evPending 6 = true :=
  (State.graver.refl.settle).pend 6 (by decide) (State.pulse_raises _ 6 0 _ (by decide))

theorem logicSourceChange_follows (toVm : Bool) :
    let u := s.tickTo dt
    ∃ t, exec (.logicSourceChange dt toVm) s = .next t ∧
      (u.putB PWR_STAT_SRC_VM toVm).sameBut t [] ∧ (u.gb PWR_STAT_SRC_VM ≠ toVm → u.awake = true → t.evPending 6 = true) := by
  intro u
  refine exec_next (exec_logicSourceChange toVm) ?_
  by_cases same : u.gb PWR_STAT_SRC_VM = toVm
  · rw [if_pos (beq_iff_eq.2 same)]
    refine ⟨State.sameBut.settle (State.sameBut.symm (State.reads.sameBut (u.put_self _ (by decide) _ ?_))), fun change => absurd same change⟩
    rw [← same]
    exact u.b2n_gb _ rfl
  · rw [if_neg fun e => same (beq_iff_eq.1 e)]
    cases awake : (s.tickTo dt).awake with
    | true =>
      rw [if_pos rfl]
      exact ⟨(State.sameBut.refl.step (State.evPwrSrc_step _)).settle, fun _ _ => State.evPwrSrc_raises _⟩
    | false =>
      rw [if_neg Bool.false_ne_true]
      exact ⟨State.sameBut.refl.settle, fun _ on => absurd on Bool.false_ne_true⟩

/-! ## Loss of the full-logic domain's supply (R79) -/

/-- Every command in flight ends, SAFE with cause POWER where the state takes one, and the grace begins. -/
def State.flLost (s : State) : State := ((s.safeCause scPOWER).endAll Cmd.live CANCELLED_FAULT).pw fun p => { p with grace := some s.now }

theorem exec_fullLogicPowerLoss : exec (.fullLogicPowerLoss dt) s =
    let u := s.tickTo dt
    done (if u.flOn && u.power.grace == none then u.flLost else u) := rfl

/-- The endings after the SAFE cause leave the supplies, the device's state and DEV_STATE. -/
theorem State.flLost_only (u : State) : (u.safeCause scPOWER).faultsOnly ((u.safeCause scPOWER).endAll Cmd.live CANCELLED_FAULT) [] [] :=
  State.faultsOnly.refl.endAll _ _

theorem State.flLost_dev (u : State) : u.flLost.dev = if u.dev = .ready ∨ u.dev = .run then .safe else u.dev := by
  refine u.flLost_only.dev.trans ?_
  unfold State.safeCause
  cases d : u.dev with
  | ready | run =>
    dsimp only
    rw [State.enterSafe_dev]
    rfl
  | safe | boot | configLoad | recovery | reset | optionLoad => exact d

theorem State.flLost_cause (u : State) : u.flLost.gBit DEV_STATE_SAFE_CAUSE 3 =
    (u.gBit DEV_STATE_SAFE_CAUSE 3 || (u.dev != .reset && u.dev != .optionLoad)) := by
  have kept : u.flLost.gBit DEV_STATE_SAFE_CAUSE 3 = (u.safeCause scPOWER).gBit DEV_STATE_SAFE_CAUSE 3 :=
    congrArg (fun x => bit x 3) (u.flLost_only.g DEV_STATE_SAFE_CAUSE (by decide) fun n hn => by cases hn)
  have set : (u.putBit DEV_STATE_SAFE_CAUSE scPOWER true).gBit DEV_STATE_SAFE_CAUSE 3 = true :=
    (u.putBit_gBit _ _ _ _ (by decide) (by decide)).trans (if_pos rfl)
  rw [kept]
  unfold State.safeCause
  cases d : u.dev with
  | ready | run => exact ((State.enterSafe_graver _ State.graver.refl).cause 3 set).trans (Bool.or_true _).symm
  | safe | boot | configLoad | recovery => exact set.trans (Bool.or_true _).symm
  | reset | optionLoad => exact (Bool.or_false _).symm

theorem State.flLost_live (u : State) (nodup : (u.cmds.map fun (c : Cmd) => c.id).Nodup)
    (rings : (u.cmds.all fun c => decide (c.ring < 11)) = true) : (u.flLost.cmds.all fun c => !c.live) = true := by
  have caused := u.safeCause_abates scPOWER
  have ended := State.endAll_live (s := u.safeCause scPOWER) CANCELLED_FAULT (nodup.sublist caused.ids) fun c m live =>
    of_decide_eq_true (List.all_eq_true.1 rings c (caused.live c m live))
  exact List.all_eq_true.2 fun c m => (congrArg not (ended c m)).trans rfl

theorem fullLogicPowerLoss_starts :
    let u := s.tickTo dt
    u.flOn = true → u.power.grace = none →
    ∃ t, exec (.fullLogicPowerLoss dt) s = .next t ∧
      u.quelled t [] ∧ t.power.grace = some u.now ∧ t.flOn = true ∧
      ((u.cmds.map fun (c : Cmd) => c.id).Nodup → (u.cmds.all fun c => decide (c.ring < 11)) = true →
        (t.cmds.all fun c => !c.live) = true) ∧
      t.dev = (if u.dev = .ready ∨ u.dev = .run then .safe else u.dev) ∧
      t.gBit DEV_STATE_SAFE_CAUSE 3 = (u.gBit DEV_STATE_SAFE_CAUSE 3 || (u.dev != .reset && u.dev != .optionLoad)) := by
  intro u up fresh
  refine exec_next (exec_fullLogicPowerLoss.trans (congrArg done (if_pos ?_))) ⟨?_, ?_, ?_, ?_, ?_, ?_⟩
  · rw [Bool.and_eq_true_iff]
    exact ⟨up, beq_iff_eq.2 fresh⟩
  · exact (State.pw_quell _ _ (State.endAll_quell _ _ _ (State.safeCause_quell _ _ State.quelled.refl))).settle
  · rw [State.settle_power]
    rfl
  · unfold State.flOn
    rw [State.settle_power]
    exact (congrArg PowerSt.flUp u.flLost_only.power).trans ((u.safeCause_flUp _).trans up)
  · rw [State.settle_cmds]
    exact u.flLost_live
  · rw [State.settle_dev]
    exact u.flLost_dev
  · rw [State.gBit_eq, State.settle_g' _ (by decide)]
    exact u.flLost_cause

/-! ## The domain goes down (R79) -/

theorem exec_fullLogicPowerDown_some {g : Nat} (h : (s.tickTo dt).power.grace = some g) : exec (.fullLogicPowerDown dt) s =
    let u := s.tickTo dt
    done (if u.now - g ≥ msCyc 200 then u.flDown.evPwrSrc else u) := by
  change execFullLogicPowerDown dt s = _
  unfold execFullLogicPowerDown
  dsimp only
  rw [h]

theorem exec_fullLogicPowerDown_none (h : (s.tickTo dt).power.grace = none) : exec (.fullLogicPowerDown dt) s = done (s.tickTo dt) := by
  change execFullLogicPowerDown dt s = _
  unfold execFullLogicPowerDown
  dsimp only
  rw [h]

theorem fullLogicPowerDown_acts (g : Nat) :
    let u := s.tickTo dt
    u.power.grace = some g → g + 80000000 ≤ u.now →
    ∃ t, exec (.fullLogicPowerDown dt) s = .next t ∧
      u.quelled t [] ∧ t.power.grace = none ∧ t.flOn = false ∧ t.gb PWR_STAT_FL_ON = false ∧ t.gb PWR_STAT_V5_ON = false ∧
      t.tick.on = false ∧ t.evPending 6 = true ∧ t.dev = u.dev ∧ ∀ c : Fin 16, t.coils[c].side1 = .off ∧ t.coils[c].side2 = .off := by
  intro u grace waited
  have past : u.now - g ≥ msCyc 200 := Nat.le_sub_of_add_le (by rw [Nat.add_comm]; exact waited)
  refine exec_next ((exec_fullLogicPowerDown_some grace).trans (congrArg done (if_pos past))) ?_
  have told := u.flDown.evPwrSrc_step
  have stat (f : Fld) (hf : f.a = 0x140) : u.flDown.evPwrSrc.settle.gb f = u.flDown.gb f := by
    rw [State.settle_gb _ _ (by rw [hf]; decide), State.gb_eq, State.gb_eq, told.g f (by rw [hf]; decide)]
  obtain ⟨down, ended, -, -, -, dev⟩ := u.flDown_supply
  obtain ⟨off, v5⟩ := u.flDown_off
  refine ⟨(State.evPwrSrc_quell _ (State.flDown_quell _ State.quelled.refl)).settle, ?_, ?_, (stat _ rfl).trans off, (stat _ rfl).trans v5,
    ?_, State.evPwrSrc_raises _, ?_, fun c => ?_⟩
  · rw [State.settle_power, told.power]
    exact ended
  · unfold State.flOn
    rw [State.settle_power, told.power]
    exact down
  · rw [State.settle_tick, State.evPwrSrc, State.pulse_tick _ _ _ _ (by decide)]
    exact u.flDown_tick
  · rw [State.settle_dev, told.dev]
    exact dev
  · rw [State.settle_coils, State.evPwrSrc, State.pulse_coils _ _ _ _ (by decide)]
    exact u.flDown_bridges c

theorem fullLogicPowerDown_waits :
    let u := s.tickTo dt
    (∀ g ∈ u.power.grace, u.now < g + 80000000) → ∃ t, exec (.fullLogicPowerDown dt) s = .next t ∧ u.sameBut t [] := by
  intro u early
  cases grace : u.power.grace with
  | none => exact exec_same (exec_fullLogicPowerDown_none grace)
  | some g =>
    refine exec_same ((exec_fullLogicPowerDown_some grace).trans (congrArg done (if_neg fun past => ?_)))
    have soon := early g grace
    change 80000000 ≤ u.now - g at past
    omega

/-! ## The domain's supply returns (R79, R80) -/

theorem exec_fullLogicPowerReturn_some {g : Nat} (h : (s.tickTo dt).power.grace = some g) : exec (.fullLogicPowerReturn dt) s =
    let u := s.tickTo dt
    done (if u.flMay then (u.pw fun p => { p with grace := none }).safeClear scPOWER else u) := by
  change execFullLogicPowerReturn dt s = _
  unfold execFullLogicPowerReturn
  dsimp only
  rw [h]

theorem exec_fullLogicPowerReturn_none (h : (s.tickTo dt).power.grace = none) : exec (.fullLogicPowerReturn dt) s = done (s.tickTo dt).flReturn := by
  change execFullLogicPowerReturn dt s = _
  unfold execFullLogicPowerReturn
  dsimp only
  rw [h]

theorem fullLogicPowerReturn_cancels (g : Nat) :
    let u := s.tickTo dt
    u.power.grace = some g →
    ∃ t, exec (.fullLogicPowerReturn dt) s = .next t ∧
      (if u.flMay then { u.putBit DEV_STATE_SAFE_CAUSE 3 false with power := { u.power with grace := none } } else u).sameBut t [] := by
  intro u grace
  refine exec_next (exec_fullLogicPowerReturn_some grace) ?_
  cases may : (s.tickTo dt).flMay with
  | true => exact State.sameBut.refl.settle
  | false => exact State.sameBut.refl.settle

/-- The device passes to CONFIG_LOAD to reload the full-logic blocks (R80). -/
def State.flReload (s : State) : State :=
  State.bt (State.levelOff { s with dev := .configLoad } 1 0 0) fun b => { b with stage := 2, fromCore := false, reload := true }

theorem State.flReturn_eq (u : State) : u.flReturn =
    if u.dev == .safe && !u.flOn && u.flMay && !u.power.holdup then u.flReload else u := rfl

theorem fullLogicPowerReturn_reloads :
    let u := s.tickTo dt
    u.power.grace = none →
    ∃ t, exec (.fullLogicPowerReturn dt) s = .next t ∧
      (if u.dev = .safe ∧ u.flOn = false ∧ u.flMay = true ∧ u.power.holdup = false then
        ({ u with dev := .configLoad, boot := { u.boot with stage := 2, fromCore := false, reload := true } }).sameBut t [] ∧
        t.level 1 0 = false
      else u.sameBut t []) := by
  intro u grace
  refine exec_next ((exec_fullLogicPowerReturn_none grace).trans (congrArg done (State.flReturn_eq _))) ?_
  have asked : (u.dev == .safe && !u.flOn && u.flMay && !u.power.holdup) = true ↔
      u.dev = .safe ∧ u.flOn = false ∧ u.flMay = true ∧ u.power.holdup = false := by
    simp only [Bool.and_eq_true, beq_iff_eq, Bool.not_eq_true', and_assoc]
  by_cases reload : u.dev = .safe ∧ u.flOn = false ∧ u.flMay = true ∧ u.power.holdup = false
  · rw [if_pos reload, if_pos (asked.2 reload)]
    refine ⟨((State.sameBut.refl.step (State.levelOff_step _ 1 0 0)).bt _).settle, ?_⟩
    rw [State.settle_level _ _ _ (by decide)]
    exact (State.levelOff_level _ _ _ _ _ _).trans (by simp)
  · rw [if_neg reload, if_neg fun acts => reload (asked.1 acts)]
    exact State.sameBut.refl.settle

/-! ## Power failure (R85, R453) -/

/-- The power-loss record is queued by a surveyor that runs, the supply failed already (R85). -/
theorem State.fbAdd_powerLoss (x : State) (payload : List Nat) (runs : x.surveyorRuns = true) (room : x.surv.fbQ.length < 64) :
    (x.fbAdd 0x02 payload).surv.fbQ = x.surv.fbQ ++ [x.bookRec 0x02 payload] := by
  unfold State.fbAdd State.fbAddFrom
  rw [runs, if_neg (by simp), if_pos room]
  rfl

/-- The keep-alive domain runs from VBAK. -/
def State.vbakRun (s : State) : State := (s.flDown.pw fun p => { p with holdup := true }).mwStop

/-- The queue is cut to the record in progress. -/
def State.queueCut (s : State) : State := s.su fun v => { v with fbQ := v.fbQ.take 1 }

theorem exec_powerFail (vm0 vm1 vlink vbak : BitVec 16) : exec (.powerFail dt vm0 vm1 vlink vbak) s =
    let u := s.tickTo dt
    done (if u.power.holdup || !u.answers then u else
      u.vbakRun.queueCut.fbAdd 0x02 (beBytes 2 vm0.toNat ++ beBytes 2 vm1.toNat ++ beBytes 2 vlink.toNat ++ beBytes 2 vbak.toNat
        ++ beBytes 2 (u.vbakRun.surv.fbQ.length - 1))) := rfl

theorem State.vbakRun_supply (u : State) : u.vbakRun.power.holdup = true ∧ u.vbakRun.power.flUp = false ∧
    u.vbakRun.power.dead = u.power.dead ∧ u.vbakRun.surv.fbQ = u.surv.fbQ ∧ u.vbakRun.dev = u.dev := by
  have same := (u.flDown.pw fun p => { p with holdup := true }).mwStop_supply
  unfold State.supply at same
  simp only [Prod.mk.injEq] at same
  obtain ⟨power, -, -, fbQ, dev⟩ := same
  obtain ⟨down, -, dead, -, queue, state⟩ := u.flDown_supply
  unfold State.vbakRun
  rw [power, fbQ, dev]
  exact ⟨rfl, down, dead, queue, state⟩

theorem State.vbakRun_off (u : State) : u.vbakRun.gb PWR_STAT_FL_ON = false := by
  unfold State.vbakRun
  rw [State.gb_eq, State.mwStop_g _ _ (mwApart_pwrStat rfl), State.pw_g]
  exact u.flDown_off.1

theorem State.vbakRun_runs (u : State) (up : u.surveyorUp = true) : u.vbakRun.surveyorRuns = true := by
  obtain ⟨-, -, dead, -, dev⟩ := u.vbakRun_supply
  have halted : u.vbakRun.halted = u.halted := (State.mwStop_halted _).trans ((State.pw_halted _ _).trans u.flDown_halted)
  unfold State.surveyorUp at up
  rw [← (Bool.and_eq_true_iff.1 up).1]
  unfold State.surveyorRuns State.answers
  unfold State.halted at halted
  rw [State.gb_eq, State.gb_eq, halted, dead, dev]

theorem State.fbAdd_dev (x : State) (typ : Nat) (payload : List Nat) : (x.fbAdd typ payload).dev = x.dev := by
  obtain h | h | h := x.fbAdd_cases typ payload <;> rw [h]
  · exact State.su_dev _ _
  · exact (State.put_dev _ _ _).trans (State.su_dev _ _)

theorem State.queueCut_dev (x : State) : x.queueCut.dev = x.dev := id rfl

theorem State.queueCut_fbQ (x : State) : x.queueCut.surv.fbQ = x.surv.fbQ.take 1 := id rfl

theorem State.queueCut_runs (x : State) : x.queueCut.surveyorRuns = x.surveyorRuns := id rfl

theorem powerFail_holds (vm0 vm1 vlink vbak : BitVec 16) :
    let u := s.tickTo dt
    u.power.holdup = false → u.answers = true →
    ∃ t, exec (.powerFail dt vm0 vm1 vlink vbak) s = .next t ∧
      u.quelled t [] ∧ t.power.holdup = true ∧ t.flOn = false ∧ t.gb PWR_STAT_FL_ON = false ∧ t.dev = u.dev ∧
      (u.surveyorUp = true → t.surv.fbQ.dropLast = u.surv.fbQ.take 1 ∧
        t.surv.fbQ.getLast?.map (fun r => (r.typ, r.payload)) = some (0x02, beBytes 2 vm0.toNat ++ beBytes 2 vm1.toNat ++
          beBytes 2 vlink.toNat ++ beBytes 2 vbak.toNat ++ beBytes 2 (u.surv.fbQ.length - 1))) := by
  intro u fed answers
  refine exec_next ((exec_powerFail vm0 vm1 vlink vbak).trans (congrArg done (if_neg ?_))) ?_
  · change ¬ (u.power.holdup || !u.answers) = true
    rw [fed, answers]
    decide
  obtain ⟨held, down, dead, queue, dev⟩ := u.vbakRun_supply
  change u.quelled (State.settle (u.vbakRun.queueCut.fbAdd 0x02 (beBytes 2 vm0.toNat ++ beBytes 2 vm1.toNat ++ beBytes 2 vlink.toNat ++
    beBytes 2 vbak.toNat ++ beBytes 2 (u.vbakRun.surv.fbQ.length - 1)))) [] ∧ _
  rw [queue]
  generalize beBytes 2 vm0.toNat ++ beBytes 2 vm1.toNat ++ beBytes 2 vlink.toNat ++ beBytes 2 vbak.toNat ++
    beBytes 2 (u.surv.fbQ.length - 1) = payload
  have told := u.vbakRun.queueCut.fbAdd_sameBut 0x02 payload
  refine ⟨?_, ?_, ?_, ?_, ?_, fun up => ?_⟩
  · exact (State.fbAdd_quell _ _ _ (State.su_quell _ _ (State.mwStop_quell _ (State.pw_quell _ _ (State.flDown_quell _ State.quelled.refl))))).settle
  · rw [State.settle_power, State.fbAdd_power, State.queueCut, State.su_power]
    exact held
  · unfold State.flOn
    rw [State.settle_power, State.fbAdd_power, State.queueCut, State.su_power]
    exact down
  · rw [State.settle_gb _ _ (by decide), State.gb_eq, State.word_eq_of_g _ _ PWR_STAT_FL_ON (told.2.2 _ (by decide) (by decide)),
      State.su_g, State.queueCut, State.su_g, ← State.gb_eq]
    exact u.vbakRun_off
  · rw [State.settle_dev]
    exact (State.fbAdd_dev _ _ _).trans (u.vbakRun.queueCut_dev.trans dev)
  · have cut : u.vbakRun.queueCut.surv.fbQ = u.surv.fbQ.take 1 := u.vbakRun.queueCut_fbQ.trans (congrArg (List.take 1) queue)
    have runs : u.vbakRun.queueCut.surveyorRuns = true := u.vbakRun.queueCut_runs.trans (u.vbakRun_runs up)
    have room : u.vbakRun.queueCut.surv.fbQ.length < 64 := by
      rw [cut, List.length_take]
      omega
    rw [State.settle_surv, u.vbakRun.queueCut.fbAdd_powerLoss _ runs room, cut]
    simp [State.bookRec]

theorem exec_holdupEnd : exec (.holdupEnd dt) s =
    let u := s.tickTo dt
    done (if u.power.holdup then u.pw fun p => { p with dead := true } else u) := rfl

theorem holdupEnd_stops :
    let u := s.tickTo dt
    ∃ t, exec (.holdupEnd dt) s = .next t ∧ ({ u with power := { u.power with dead := u.power.dead || u.power.holdup } }).sameBut t [] := by
  intro u
  refine exec_next exec_holdupEnd ?_
  by_cases held : u.power.holdup = true
  · have dead : (u.power.dead || u.power.holdup) = true := by rw [held, Bool.or_true]
    rw [if_pos held, dead]
    exact State.sameBut.refl.settle
  · have dead : (u.power.dead || u.power.holdup) = u.power.dead := by rw [eq_false_of_ne_true held, Bool.or_false]
    rw [if_neg held, dead]
    exact State.sameBut.refl.settle

end

/-- Settles O12: the loss ends every command after the SAFE cause has (`State.endAll_live`); what the domain's going down leaves of the
supplies, the queue and PWR_STAT is said once (`State.flDown_supply`, `State.flDown_gb`). -/
theorem logicPowerPath : Obligations.LogicPowerPath := by
  refine ⟨fun _ _ => logicSourceChange_follows, fun _ _ => fullLogicPowerLoss_starts, fun s dt no => ?_,
    fun _ _ => fullLogicPowerDown_acts, fun _ _ => fullLogicPowerDown_waits, fun _ _ => fullLogicPowerReturn_cancels,
    fun _ _ => fullLogicPowerReturn_reloads, fun _ _ => powerFail_holds, fun s dt vm0 vm1 vlink vbak no => ?_, fun _ _ => holdupEnd_stops⟩
  · refine exec_same (exec_fullLogicPowerLoss.trans (congrArg done (if_neg fun acts => ?_)))
    obtain ⟨up, fresh⟩ := Bool.and_eq_true_iff.1 acts
    exact no.elim (fun down => Bool.false_ne_true (down.symm.trans up)) fun begun => begun (beq_iff_eq.1 fresh)
  · refine exec_same ((exec_powerFail vm0 vm1 vlink vbak).trans (congrArg done (if_pos ?_)))
    exact Bool.or_eq_true_iff.2 (no.imp id fun silent => (congrArg not silent).trans rfl)

end Sys2Proof.Machine
end

section
/-!
PROOF. The state after a power-on reset (R107, R121, Table 4-1).
-/

namespace Sys2Proof.Machine

/-- Settles O59: each part of the reset state is a closed finite fact. -/
theorem resetState : Obligations.ResetState := by
  unfold Obligations.ResetState
  refine ⟨rfl, rfl, rfl, fun a => rfl, ?_, ?_, rfl, ?_, ?_, ?_, ?_, ?_⟩
  · decide +kernel
  · decide +kernel
  · decide +kernel
  · decide +kernel
  · decide +kernel
  · unfold State.settled
    refine ⟨rfl, ?_, ?_, ?_⟩ <;> decide +kernel
  · unfold State.resetForm
    decide +kernel

end Sys2Proof.Machine
end

section
/-!
PROOF. Where the device stands and which resets are held, as one value that all but the resets and the steps of a start leave alone (Table 4-4).
-/

namespace Sys2Proof.Machine

/-- The state the device stands in; in SAFE the one it was entered from, to which SAFE_EXIT returns (R133). -/
def State.home (s : State) : DevState := if s.dev = .safe then (if s.boot.fromReady then .ready else .run) else s.dev

/-- Where the device stands, which resets are held or running, the queue and the time: what only resets, starts and the end of a
start move (Table 4-4). -/
def State.standing (s : State) : DevState × Bool × Bool × Bool × Bool × List Instr × Nat :=
  (s.home, s.boot.por, s.boot.sys, s.boot.coreOn, s.boot.cfgValid, s.pending, s.now)

variable (s : State)

theorem State.ite_standing (c : Prop) [Decidable c] (a b : State) :
    (if c then a else b).standing = if c then a.standing else b.standing := apply_ite State.standing c a b

theorem foldl_standing {ι : Type} (l : List ι) (f : State → ι → State) (h : ∀ x i, (f x i).standing = x.standing) :
    (l.foldl f s).standing = s.standing := foldl_ind (fun t => t.standing = s.standing) l f (fun x i k => (h x i).trans k) s rfl

theorem forFin_standing {k : Nat} (f : Fin k → State → State) (h : ∀ i x, (f i x).standing = x.standing) :
    (forFin k f s).standing = s.standing := forFin_ind (fun t => t.standing = s.standing) k f (fun i x c => (h i x).trans c) s rfl

/-- An update that moves neither the device nor its resets. -/
theorem State.upd_standing {regs staged groups links grelas mbox indQ window cmds nextId lastEnd backlog rings evq evLost levels cap tick arb ecc axes coils stations ctxs store chain chainOut chainRst chainRej chainReach chainStall chainMode power surv nvm otp flash free cyc} :
    State.standing ⟨⟨s.dev, regs, staged, groups, links, grelas, mbox, indQ, window, cmds, nextId, lastEnd, backlog, rings, evq, evLost, levels, cap, tick, arb, ecc, axes, coils, stations, ctxs, store, chain, chainOut, chainRst, chainRej, chainReach, chainStall, chainMode, s.boot, power, surv, nvm, otp, flash, free⟩, s.pending, s.now, cyc⟩ = s.standing := id rfl

/-- An update of what the present cycle remembers. -/
theorem State.cycle_standing {cyc} : State.standing ⟨s.toBlock, s.pending, s.now, cyc⟩ = s.standing := id rfl

end Sys2Proof.Machine
end

section
/-!
PROOF. Every operation of the model but host accesses, resets and starts leaves the standing of the device alone: one lemma per operation,
in the order of the definitions.
-/

namespace Sys2Proof.Machine

/-! ## Operations of Machine/Ops.lean -/

theorem State.setWord_standing (s : State) (a : Nat) (w : Word) : (s.setWord a w).standing = s.standing := State.upd_standing _

theorem State.put_standing (s : State) (f : Fld) (v : Nat) : (s.put f v).standing = s.standing := by
  unfold State.put
  simp only [State.setWord_standing]

theorem State.putI_standing (s : State) (f : Fld) (v : Int) : (s.putI f v).standing = s.standing := by
  unfold State.putI
  simp only [State.put_standing]

theorem State.putB_standing (s : State) (f : Fld) (b : Bool) : (s.putB f b).standing = s.standing := by
  unfold State.putB
  simp only [State.put_standing]

theorem State.addSat_standing (s : State) (f : Fld) (k : Nat) : (s.addSat f k).standing = s.standing := by
  unfold State.addSat
  simp only [State.put_standing]

theorem State.inc_standing (s : State) (f : Fld) : (s.inc f).standing = s.standing := by
  unfold State.inc
  simp only [State.addSat_standing]

theorem State.maxPut_standing (s : State) (f : Fld) (v : Nat) : (s.maxPut f v).standing = s.standing := by
  unfold State.maxPut
  simp only [State.put_standing]

theorem State.putBit_standing (s : State) (f : Fld) (i : Nat) (b : Bool) : (s.putBit f i b).standing = s.standing := by
  unfold State.putBit
  simp only [State.put_standing]

theorem State.setStaged_standing (s : State) (a : Nat) (w : Word) : (s.setStaged a w).standing = s.standing := State.upd_standing _

theorem State.putSt_standing (s : State) (f : Fld) (v : Nat) : (s.putSt f v).standing = s.standing := by
  unfold State.putSt
  simp only [State.setStaged_standing]

theorem State.ax_standing (s : State) (n : Fin 8) (f : Axis → Axis) : (s.ax n f).standing = s.standing := State.upd_standing _

theorem State.dpt_standing (s : State) (n : Fin 8) (f : DatumSt → DatumSt) : (s.dpt n f).standing = s.standing := by
  unfold State.dpt
  simp only [State.ax_standing]

theorem State.ob_standing (s : State) (n : Fin 8) (f : ObsSt → ObsSt) : (s.ob n f).standing = s.standing := by
  unfold State.ob
  simp only [State.ax_standing]

theorem State.co_standing (s : State) (c : Fin 16) (f : Coil → Coil) : (s.co c f).standing = s.standing := State.upd_standing _

theorem State.stn_standing (s : State) (st : Fin 2) (f : Station → Station) : (s.stn st f).standing = s.standing := State.upd_standing _

theorem State.svu_standing (s : State) (st : Fin 2) (f : SurveySt → SurveySt) : (s.svu st f).standing = s.standing := by
  unfold State.svu
  simp only [State.stn_standing]

theorem State.ctx_standing (s : State) (x : Fin 4) (f : Ctx → Ctx) : (s.ctx x f).standing = s.standing := State.upd_standing _

theorem State.lnk_standing (s : State) (l : Link) (f : LinkSt → LinkSt) : (s.lnk l f).standing = s.standing := State.upd_standing _

theorem State.ring_standing (s : State) (q : Fin 5) (f : RecRing → RecRing) : (s.ring q f).standing = s.standing := State.upd_standing _

theorem State.bt_standing (s : State) (f : BootSt → BootSt) (hf : ∀ b, ((f b).por, (f b).sys, (f b).coreOn, (f b).cfgValid, (f b).fromReady) = (b.por, b.sys, b.coreOn, b.cfgValid, b.fromReady)) : (s.bt f).standing = s.standing := by
  have kept := hf s.boot
  simp only [Prod.mk.injEq] at kept
  obtain ⟨por, sys, core, cfg, back⟩ := kept
  unfold State.standing State.home
  rw [State.bt_boot, State.bt_dev, State.bt_pending, State.bt_now, por, sys, core, cfg, back]

theorem State.pw_standing (s : State) (f : PowerSt → PowerSt) : (s.pw f).standing = s.standing := State.upd_standing _

theorem State.su_standing (s : State) (f : SurvSt → SurvSt) : (s.su f).standing = s.standing := State.upd_standing _

theorem State.nv_standing (s : State) (f : Nvm → Nvm) : (s.nv f).standing = s.standing := State.upd_standing _

theorem State.hostBegin_standing (s : State) : (s.hostBegin).standing = s.standing := by
  unfold State.hostBegin
  split <;> exact State.upd_standing _

theorem State.earlier_standing (s : State) (f : State → State) (hf : ∀ t : State, (f t).standing = t.standing) : (s.earlier f).standing = s.standing := by
  exact (State.upd_standing (f s)).trans (hf s)

theorem State.clrCnt_standing (s : State) (f : Fld) : (s.clrCnt f).standing = s.standing := by
  exact (State.cycle_standing _).trans (s.put_standing f _)

theorem State.clrWord_standing (s : State) (a : Nat) : (s.clrWord a).standing = s.standing := by
  unfold State.clrWord
  simp only [State.clrCnt_standing, foldl_standing, implies_true]

theorem State.evPost_standing (s : State) (e : Nat) (kind : Nat) (info : Nat) : (s.evPost e kind info).standing = s.standing := by
  unfold State.evPost
  simp only [State.ite_standing, ite_self, State.upd_standing]

theorem State.evMark_standing (s : State) (e : Nat) : (s.evMark e).standing = s.standing := by
  unfold State.evMark
  simp only [State.putBit_standing, State.inc_standing, State.ite_standing, ite_self, State.upd_standing]

theorem State.evRaise_standing (s : State) (e : Nat) (kind : Nat) (info : Nat) : (s.evRaise e kind info).standing = s.standing := by
  unfold State.evRaise
  simp only [State.evMark_standing, State.evPost_standing]

theorem State.pulse_standing (s : State) (e : Nat) (idx : Nat) (detail : Nat) : (s.pulse e idx detail).standing = s.standing := by
  unfold State.pulse
  simp only [State.evRaise_standing]

theorem State.levelOn_standing (s : State) (e : Nat) (idx : Nat) (detail : Nat) : (s.levelOn e idx detail).standing = s.standing := by
  unfold State.levelOn
  simp only [State.evRaise_standing, State.ite_standing, ite_self, State.upd_standing]

theorem State.levelOff_standing (s : State) (e : Nat) (idx : Nat) (detail : Nat) : (s.levelOff e idx detail).standing = s.standing := by
  unfold State.levelOff
  simp only [State.evPost_standing, State.ite_standing, ite_self, State.upd_standing]

theorem State.levelSet_standing (s : State) (e : Nat) (idx : Nat) (b : Bool) (detail : Nat) : (s.levelSet e idx b detail).standing = s.standing := by
  unfold State.levelSet
  simp only [State.levelOn_standing, State.levelOff_standing, State.ite_standing, ite_self]

theorem State.postEvent_standing (s : State) (r : EvRec) : (s.postEvent r).standing = s.standing := by
  unfold State.postEvent
  simp only [State.ring_standing, State.inc_standing, State.ite_standing, ite_self, State.upd_standing]

theorem State.evLostNote_standing (s : State) : (s.evLostNote).standing = s.standing := by
  unfold State.evLostNote
  simp only [State.evMark_standing, State.ring_standing, State.ite_standing, ite_self, State.upd_standing]

theorem State.evLostFlush_standing (s : State) : (s.evLostFlush).standing = s.standing := by
  unfold State.evLostFlush
  simp only [State.evLostNote_standing, State.ite_standing, ite_self]

theorem State.settle_standing (s : State) : (s.settle).standing = s.standing := by
  unfold State.settle
  simp only [State.levelSet_standing, State.evLostFlush_standing, State.postEvent_standing, foldl_standing, implies_true, State.upd_standing]

theorem State.post11_standing (s : State) (tag : Nat) (ring : Nat) (src : Nat) (status : Nat) : (s.post11 tag ring src status).standing = s.standing := by
  unfold State.post11
  simp only [State.ring_standing]

theorem State.postReject_standing (s : State) (tag : Nat) (ring : Nat) (src : Nat) (status : Nat) : (s.postReject tag ring src status).standing = s.standing := by
  unfold State.postReject
  simp only [State.post11_standing, State.inc_standing, State.ite_standing, ite_self, State.upd_standing]

theorem State.dropCmd_standing (s : State) (id : Nat) : (s.dropCmd id).standing = s.standing := State.upd_standing _

theorem State.noteLast_standing (s : State) (c : Cmd) (st : Nat) : (s.noteLast c st).standing = s.standing := by
  unfold State.noteLast
  split
  · rw [State.ite_standing, State.upd_standing, ite_self]
  · rfl

theorem State.noteEnd_standing (s : State) (c : Cmd) (st : Nat) : (s.noteEnd c st).standing = s.standing := by
  unfold State.noteEnd
  dsimp only
  split <;> simp only [State.noteLast_standing, State.ite_standing, ite_self, State.upd_standing]

theorem State.recordEnd_standing (s : State) (c : Cmd) (st : Nat) : (s.recordEnd c st).standing = s.standing := by
  unfold State.recordEnd
  simp only [State.dropCmd_standing, State.post11_standing, State.ite_standing, ite_self, State.upd_standing]

theorem State.endCmd_standing (s : State) (id : Nat) (st : Nat) : (s.endCmd id st).standing = s.standing := by
  unfold State.endCmd
  dsimp only
  repeat' split
  all_goals simp only [State.noteEnd_standing, State.recordEnd_standing, State.upd_standing]

theorem State.flushEnds_standing (s : State) : (s.flushEnds).standing = s.standing := by
  exact foldl_standing _ _ _ fun x c => x.recordEnd_standing c _

theorem State.gathered_standing (s : State) (f : State → State) (hf : ∀ t : State, (f t).standing = t.standing) : (s.gathered f).standing = s.standing := by
  unfold State.gathered
  split
  · exact hf s
  · exact (State.flushEnds_standing _).trans (hf _)

theorem State.endAll_standing (s : State) (p : Cmd → Bool) (st : Nat) : (s.endAll p st).standing = s.standing := by
  unfold State.endAll
  simp only [State.endCmd_standing, foldl_standing, implies_true]

theorem State.cmdUpd_standing (s : State) (id : Nat) (f : Cmd → Cmd) : (s.cmdUpd id f).standing = s.standing := by
  unfold State.cmdUpd
  simp only [State.upd_standing]

theorem State.setPh_standing (s : State) (id : Nat) (p : Phase) : (s.setPh id p).standing = s.standing := by
  unfold State.setPh
  simp only [State.cmdUpd_standing]

theorem State.cause_standing (s : State) (id : Nat) (st : Nat) : (s.cause id st).standing = s.standing := by
  unfold State.cause
  simp only [State.cmdUpd_standing]

theorem State.mbWords_standing (s : State) (m : Nat) (ws : List Nat) : (s.mbWords m ws).standing = s.standing := by
  unfold State.mbWords
  simp only [State.put_standing, foldl_standing, implies_true]

theorem State.mbFill_standing (s : State) (m : Fin 8) (ws : List Nat) : (s.mbFill m ws).standing = s.standing := by
  unfold State.mbFill
  simp only [State.mbWords_standing, State.put_standing]

theorem State.mbDeliver_standing (s : State) (m : Fin 8) (ws : List Nat) : (s.mbDeliver m ws).standing = s.standing := by
  unfold State.mbDeliver
  simp only [State.inc_standing, State.put_standing, State.mbFill_standing, State.ite_standing, ite_self, State.upd_standing]

theorem State.capture_standing (s : State) (item : Nat) (idx : Nat) (ws : List Nat) : (s.capture item idx ws).standing = s.standing := by
  unfold State.capture
  simp only [State.mbDeliver_standing, State.ite_standing, foldl_standing, implies_true, ite_self]

theorem State.halt_standing (s : State) : (s.halt).standing = s.standing := by
  unfold State.halt
  simp only [State.put_standing, State.ite_standing, ite_self]

theorem State.fbAddFrom_standing (s : State) (src : Nat) (hseq : Nat) (typ : Nat) (payload : List Nat) : (s.fbAddFrom src hseq typ payload).standing = s.standing := by
  unfold State.fbAddFrom
  simp only [State.su_standing, State.inc_standing, State.ite_standing, ite_self]

theorem State.nvPulse_standing (s : State) : (s.nvPulse).standing = s.standing := by
  unfold State.nvPulse
  simp only [State.bt_standing, implies_true]

theorem State.fbAdd_standing (s : State) (typ : Nat) (payload : List Nat) : (s.fbAdd typ payload).standing = s.standing := by
  unfold State.fbAdd
  simp only [State.fbAddFrom_standing]

theorem State.stopCtx_standing (s : State) (x : Fin 4) (cause : Nat) : (s.stopCtx x cause).standing = s.standing := by
  unfold State.stopCtx
  simp only [State.ctx_standing, State.evRaise_standing, State.capture_standing, State.ite_standing, ite_self]

theorem State.stopAllCtx_standing (s : State) (cause : Nat) : (s.stopAllCtx cause).standing = s.standing := by
  unfold State.stopAllCtx
  simp only [State.stopCtx_standing, forFin_standing, implies_true]

theorem State.bridgesOff_standing (s : State) (n : Fin 8) : (s.bridgesOff n).standing = s.standing := by
  unfold State.bridgesOff
  simp only [State.co_standing]

theorem State.planIdle_standing (s : State) (n : Fin 8) : (s.planIdle n).standing = s.standing := by
  unfold State.planIdle
  simp only [State.setWord_standing, State.put_standing]

theorem State.followLeave_standing (s : State) (n : Fin 8) : (s.followLeave n).standing = s.standing := by
  unfold State.followLeave
  simp only [State.addSat_standing, State.ax_standing, State.ite_standing, ite_self]

theorem State.faultMove_standing (s : State) (n : Fin 8) : (s.faultMove n).standing = s.standing := by
  unfold State.faultMove
  rw [State.ite_standing, foldl_standing, ite_self]
  intro x t
  split
  · rfl
  · dsimp only
    simp only [State.stn_standing, foldl_standing, State.ax_standing, State.endCmd_standing, implies_true]

theorem State.axisFault_standing (s : State) (n : Fin 8) (pwr : Nat) (ax : Nat) (st : Nat) : (s.axisFault n pwr ax st).standing = s.standing := by
  unfold State.axisFault
  dsimp only
  rw [State.ite_standing, State.gathered_standing, State.put_standing, State.put_standing, ite_self]
  intro x
  rw [State.pulse_standing, foldl_standing, State.bridgesOff_standing, State.ax_standing, State.planIdle_standing,
    State.followLeave_standing, State.faultMove_standing]
  intro y c
  split
  · exact y.endCmd_standing _ _
  · rfl

theorem State.axisFaultIf_standing (s : State) (n : Fin 8) (pwr : Nat) (ax : Nat) (st : Nat) : (s.axisFaultIf n pwr ax st).standing = s.standing := by
  unfold State.axisFaultIf
  simp only [State.axisFault_standing, State.ite_standing, ite_self]

theorem State.stationFault_standing (s : State) (st : Fin 2) (pwr : Nat) : (s.stationFault st pwr).standing = s.standing := by
  unfold State.stationFault
  simp only [State.gathered_standing, State.axisFaultIf_standing, foldl_standing, implies_true]

theorem State.mwSet_standing (s : State) (l : Option Nat) : (s.mwSet l).standing = s.standing := by
  unfold State.mwSet
  dsimp only
  repeat' split
  all_goals simp only [State.put_standing, State.su_standing]

theorem State.mwNext_standing (s : State) : (s.mwNext).standing = s.standing := by
  unfold State.mwNext
  dsimp only
  split <;> simp only [State.addSat_standing, State.put_standing, State.mwSet_standing, State.su_standing, State.svu_standing]

theorem State.mwAbandon_standing (s : State) : (s.mwAbandon).standing = s.standing := by
  unfold State.mwAbandon
  simp only [State.inc_standing, State.mwNext_standing]

theorem State.mwStop_standing (s : State) : (s.mwStop).standing = s.standing := by
  unfold State.mwStop
  simp only [State.put_standing, State.mwSet_standing, State.su_standing]

theorem State.v5Switch_standing (s : State) : (s.v5Switch).standing = s.standing := by
  unfold State.v5Switch
  simp only [State.put_standing, State.mwAbandon_standing, State.ite_standing, ite_self]

theorem State.dumpOff_standing (s : State) : (s.dumpOff).standing = s.standing := by
  unfold State.dumpOff
  simp only [State.put_standing, State.pw_standing]

theorem State.v5Follow_standing (s : State) : (s.v5Follow).standing = s.standing := by
  unfold State.v5Follow
  simp only [State.v5Switch_standing, State.pw_standing, State.put_standing, State.ite_standing, ite_self]

theorem State.enterSafe_standing (s : State) (h : s.dev = .ready ∨ s.dev = .run) : (s.enterSafe).standing = s.standing := by
  have entered : (State.bt { s with dev := .safe } fun b => { b with fromReady := s.dev == .ready }).standing = s.standing := by
    unfold State.standing State.home
    rcases h with e | e <;> simp [State.bt, e]
  unfold State.enterSafe
  dsimp only
  simp only [State.fbAdd_standing, State.levelOn_standing, State.v5Follow_standing, State.dumpOff_standing, State.stopAllCtx_standing,
    State.upd_standing, State.gathered_standing, State.endAll_standing, forFin_standing, State.ite_standing,
    State.axisFault_standing, implies_true, ite_self, entered]

theorem State.safeCause_standing (s : State) (i : Nat) : (s.safeCause i).standing = s.standing := by
  unfold State.safeCause
  split
  case h_1 e => exact ((s.putBit DEV_STATE_SAFE_CAUSE i true).enterSafe_standing (.inl e)).trans (s.putBit_standing _ _ _)
  case h_2 e => exact ((s.putBit DEV_STATE_SAFE_CAUSE i true).enterSafe_standing (.inr e)).trans (s.putBit_standing _ _ _)
  case h_7 => rfl
  case h_8 => rfl
  all_goals exact s.putBit_standing _ _ _

theorem State.safeClear_standing (s : State) (i : Nat) : (s.safeClear i).standing = s.standing := by
  unfold State.safeClear
  simp only [State.putBit_standing]

theorem State.useFree_standing (s : State) : (s.useFree).standing = s.standing := State.upd_standing _

/-! ## Operations of Machine/Backdrive.lean -/

theorem State.bdu_standing (s : State) (n : Fin 8) (f : BackdriveSt → BackdriveSt) : (s.bdu n f).standing = s.standing := by
  unfold State.bdu
  simp only [State.ax_standing]

theorem State.bdShow_standing (s : State) (n : Fin 8) : (s.bdShow n).standing = s.standing := by
  unfold State.bdShow
  simp only [State.putI_standing, State.putB_standing, State.ite_standing, ite_self]

theorem State.bdSet_standing (s : State) (n : Fin 8) : (s.bdSet n).standing = s.standing := by
  unfold State.bdSet
  rw [State.bdShow_standing, State.putB_standing, State.bdu_standing]

theorem State.bdStop_standing (s : State) (n : Fin 8) : (s.bdStop n).standing = s.standing := by
  unfold State.bdStop
  simp only [State.put_standing, State.bdu_standing]

theorem State.bdSample_standing (s : State) (n : Fin 8) (k : Nat) (mv : Nat) : (s.bdSample n k mv).standing = s.standing := by
  unfold State.bdSample
  simp only [State.bdu_standing, State.bdStop_standing, State.bdSet_standing, State.ite_standing, ite_self]

theorem State.bdTick_standing (s : State) (n : Fin 8) : (s.bdTick n).standing = s.standing := by
  unfold State.bdTick
  simp only [State.bdStop_standing, State.put_standing, State.bdu_standing, State.ite_standing, ite_self]

theorem State.bdEnd_standing (s : State) (n : Fin 8) : (s.bdEnd n).standing = s.standing := by
  unfold State.bdEnd
  simp only [State.put_standing, State.putB_standing, State.inc_standing, State.capture_standing, State.fbAdd_standing, State.bdu_standing, State.ite_standing, ite_self]

/-! ## Operations of Machine/Datum.lean -/

theorem State.dpRestart_standing (s : State) (n : Fin 8) : (s.dpRestart n).standing = s.standing := by
  unfold State.dpRestart
  simp only [State.setWord_standing, State.put_standing, State.dpt_standing]

theorem State.encFault_standing (s : State) (n : Fin 8) (i : Nat) : (s.encFault n i).standing = s.standing := by
  unfold State.encFault
  simp only [State.putBit_standing, State.put_standing, State.pulse_standing, State.fbAdd_standing, State.dpt_standing, State.ite_standing, ite_self]

theorem State.encClear_standing (s : State) (n : Fin 8) : (s.encClear n).standing = s.standing := by
  unfold State.encClear
  simp only [State.put_standing, State.dpt_standing, State.ite_standing, ite_self]

theorem State.idxMiss_standing (s : State) (n : Fin 8) : (s.idxMiss n).standing = s.standing := by
  unfold State.idxMiss
  simp only [State.inc_standing, State.put_standing, State.encFault_standing, State.ite_standing, ite_self]

theorem State.idxMissing_standing (s : State) (n : Fin 8) : (s.idxMissing n).standing = s.standing := by
  unfold State.idxMissing
  dsimp only
  split <;> simp only [State.put_standing, State.pulse_standing, State.useFree_standing, State.capture_standing, State.dpt_standing, State.idxMiss_standing, State.ite_standing, ite_self]

theorem State.idxCheck_standing (s : State) (n : Fin 8) (k : Nat) : (s.idxCheck n k).standing = s.standing := by
  unfold State.idxCheck
  dsimp only
  split <;> simp only [State.dpt_standing, State.put_standing, State.putI_standing, State.idxMiss_standing, State.pulse_standing, State.capture_standing, State.ite_standing, ite_self]

theorem State.dpRun_standing (s : State) (n : Fin 8) (neg : Bool) : (s.dpRun n neg).standing = s.standing := by
  unfold State.dpRun
  simp only [State.put_standing, State.putB_standing, State.dpt_standing, State.ite_standing, ite_self]

theorem State.ssiError_standing (s : State) (n : Fin 8) : (s.ssiError n).standing = s.standing := by
  unfold State.ssiError
  simp only [State.inc_standing, State.dpt_standing, State.encFault_standing, State.ite_standing, ite_self]

theorem State.ssiAsk_standing (s : State) (n : Fin 8) (t0 : Nat) (high : Bool) (host : Bool) : (s.ssiAsk n t0 high host).standing = s.standing := by
  unfold State.ssiAsk
  simp only [State.inc_standing, State.dpt_standing, State.ssiError_standing, State.put_standing, State.ite_standing, ite_self]

theorem State.ssiGood_standing (s : State) (n : Fin 8) (w : Nat) : (s.ssiGood n w).standing = s.standing := by
  unfold State.ssiGood
  dsimp only
  repeat' split
  all_goals simp only [State.dpt_standing, State.put_standing, State.putB_standing]

theorem State.dirCheck_standing (s : State) (n : Fin 8) : (s.dirCheck n).standing = s.standing := by
  unfold State.dirCheck
  dsimp only
  repeat' split
  all_goals simp only [State.dpt_standing, State.put_standing, State.pulse_standing, State.fbAdd_standing]

theorem State.dpTick_standing (s : State) (n : Fin 8) : (s.dpTick n).standing = s.standing := by
  unfold State.dpTick
  simp only [State.dpt_standing, State.put_standing, State.putI_standing, State.putB_standing]

theorem State.encTick_standing (s : State) (n : Fin 8) : (s.encTick n).standing = s.standing := by
  unfold State.encTick
  simp only [State.dpt_standing, State.axisFaultIf_standing, State.ite_standing, ite_self]

/-! ## Operations of Machine/Planner.lean -/

theorem State.enterMotion_standing (s : State) (n : Fin 8) (st : AxState) : (s.enterMotion n st).standing = s.standing := by
  unfold State.enterMotion
  simp only [State.ob_standing, State.ax_standing, State.ite_standing, ite_self]

theorem State.stakeStart_standing (s : State) (n : Fin 8) (c : Cmd) (base : Int) : (s.stakeStart n c base).standing = s.standing := by
  unfold State.stakeStart
  simp only [State.put_standing, State.enterMotion_standing, State.ax_standing]

theorem State.quiesce_standing (s : State) (n : Fin 8) (dec : Nat) (j : Nat) (k : Nat) : (s.quiesce n dec j k).standing = s.standing := by
  unfold State.quiesce
  simp only [State.ax_standing, State.ite_standing, ite_self]

theorem State.stopAxis_standing (s : State) (n : Fin 8) (quick : Bool) (st : Nat) (k : Nat) : (s.stopAxis n quick st k).standing = s.standing := by
  unfold State.stopAxis
  dsimp only
  repeat' split
  all_goals simp only [State.cause_standing, State.followLeave_standing, State.ax_standing, State.quiesce_standing]

theorem State.markEnd_standing (s : State) (id : Nat) (st : Nat) : (s.markEnd id st).standing = s.standing := by
  unfold State.markEnd
  split
  · rfl
  · split <;> simp only [State.ite_standing, State.noteLast_standing, State.setPh_standing, State.cmdUpd_standing, ite_self]

theorem State.standHold_standing (s : State) (n : Fin 8) : (s.standHold n).standing = s.standing := by
  unfold State.standHold
  simp only [State.planIdle_standing, State.ax_standing]

theorem State.stood_standing (s : State) (n : Fin 8) (d : Nat) : (s.stood n d).standing = s.standing := by
  unfold State.stood
  split
  · rw [State.ax_standing, State.standHold_standing, State.markEnd_standing]
  · exact s.standHold_standing n

theorem State.stakeDone_standing (s : State) (n : Fin 8) (f : Prof) : (s.stakeDone n f).standing = s.standing := by
  unfold State.stakeDone
  dsimp only
  split <;> simp only [State.markEnd_standing, State.ax_standing]

/-! ## Operations of Machine/Motion.lean -/

theorem State.limNote_standing (s : State) (n : Fin 8) (old : Int) : (s.limNote n old).standing = s.standing := by
  unfold State.limNote
  dsimp only
  split <;> simp only [State.put_standing, State.putB_standing, State.pulse_standing, State.ite_standing, ite_self]

theorem State.hwLimit_standing (s : State) (n : Fin 8) : (s.hwLimit n).standing = s.standing := by
  unfold State.hwLimit
  simp only [State.stopAxis_standing, State.pulse_standing, State.ite_standing, ite_self]

theorem State.planStat_standing (s : State) (n : Fin 8) (f : Prof) (seg : Nat) (pre : Bool) : (s.planStat n f seg pre).standing = s.standing := by
  unfold State.planStat
  simp only [State.put_standing, State.putB_standing]

theorem State.place_standing (s : State) (n : Fin 8) (p : Int) (v : Int) (a : Int) (f : Option Prof) : (s.place n p v a f).standing = s.standing := by
  unfold State.place
  simp only [State.ax_standing]

theorem State.profEnd_standing (s : State) (n : Fin 8) (f : Prof) : (s.profEnd n f).standing = s.standing := by
  unfold State.profEnd
  dsimp only
  repeat' split
  all_goals simp only [State.stakeDone_standing, State.standHold_standing, State.put_standing, State.ax_standing, State.stood_standing, State.cause_standing]

theorem State.profTick_standing (s : State) (n : Fin 8) : (s.profTick n).standing = s.standing := by
  unfold State.profTick
  dsimp only
  split <;> simp only [State.stood_standing, State.ax_standing, State.putB_standing, State.place_standing, State.profEnd_standing, State.planStat_standing, State.ite_standing, ite_self]

/-! ## Operations of Machine/Pwm.lean -/

theorem State.settleSlot_standing (s : State) (c : Fin 16) (es : List Nat) (tb : Nat) (l : Nat) (acc : List (Nat × Nat)) (x : Nat × Nat) : (s.settleSlot c es tb l acc x).1.standing = s.standing := by
  unfold State.settleSlot
  dsimp only
  repeat' split
  all_goals simp only [State.inc_standing]

theorem State.slotPlan_standing (s : State) (c : Fin 16) (l : Nat) (chop : Bool) : (s.slotPlan c l chop).1.standing = s.standing := by
  unfold State.slotPlan
  dsimp only
  split <;> simp only [State.put_standing, State.addSat_standing]

theorem State.slotsFixed_standing (s : State) (c : Fin 16) (l : Nat) (es : List Nat) : (s.slotsFixed c l es).standing = s.standing := by
  unfold State.slotsFixed
  dsimp only
  rw [State.co_standing]
  exact foldl_ind (fun a : State × List (Nat × Nat) => a.1.standing = s.standing) _ _
    (fun a x h => (State.settleSlot_standing _ _ _ _ _ _ _).trans h) _ (s.slotPlan_standing c l false)

theorem State.slotsChop_standing (s : State) (c : Fin 16) (l : Nat) : (s.slotsChop c l).standing = s.standing := by
  unfold State.slotsChop
  simp only [State.co_standing]

theorem State.transfer_standing (s : State) (c : Fin 16) : (s.transfer c).standing = s.standing := by
  unfold State.transfer
  dsimp only
  split <;> simp only [State.put_standing, State.putB_standing, State.co_standing, State.ite_standing, ite_self]

theorem State.takeMode_standing (s : State) (c : Fin 16) : (s.takeMode c).standing = s.standing := by
  unfold State.takeMode
  simp only [State.co_standing, State.put_standing, State.ite_standing, ite_self]

theorem State.takeSetpoint_standing (s : State) (c : Fin 16) : (s.takeSetpoint c).standing = s.standing := by
  unfold State.takeSetpoint
  simp only [State.co_standing, State.ite_standing, ite_self]

theorem State.testDuty_standing (s : State) (c : Fin 16) : (s.testDuty c).standing = s.standing := by
  unfold State.testDuty
  simp only [State.ax_standing, State.ite_standing, ite_self]

theorem State.fixedPeriod_standing (s : State) (c : Fin 16) (pj : Nat) (p16 : Nat) (j : Nat) : (s.fixedPeriod c pj p16 j).standing = s.standing := by
  unfold State.fixedPeriod
  simp only [State.inc_standing, State.putB_standing, State.put_standing, State.co_standing, State.slotsFixed_standing, State.ite_standing, ite_self]

theorem State.chopPeriod_standing (s : State) (c : Fin 16) : (s.chopPeriod c).standing = s.standing := by
  unfold State.chopPeriod
  simp only [State.slotPlan_standing, State.put_standing, State.co_standing, State.slotsChop_standing, State.ite_standing, ite_self]

theorem State.relayOn_standing (s : State) (c : Fin 16) (pj : Nat) (j : Nat) : (s.relayOn c pj j).standing = s.standing := by
  unfold State.relayOn
  split
  · exact State.co_standing _ _ _
  · rfl

theorem State.boundary_standing (s : State) (c : Fin 16) (pulse : Option (Nat × Nat)) (start : Bool) : (s.boundary c pulse start).standing = s.standing := by
  unfold State.boundary
  simp only [State.inc_standing, State.takeMode_standing, State.transfer_standing, State.takeSetpoint_standing, State.fixedPeriod_standing, State.put_standing, State.testDuty_standing, State.relayOn_standing, State.chopPeriod_standing, State.ite_standing, ite_self]

theorem State.preBoundary_standing (s : State) (c : Fin 16) : (s.preBoundary c).standing = s.standing := by
  unfold State.preBoundary
  dsimp only
  split <;> simp only [State.co_standing, State.ite_standing, ite_self]

theorem State.endOnTime_standing (s : State) (c : Fin 16) : (s.endOnTime c).standing = s.standing := by
  unfold State.endOnTime
  simp only [State.co_standing, State.slotsChop_standing]

theorem State.endDecay_standing (s : State) (c : Fin 16) : (s.endDecay c).standing = s.standing := by
  unfold State.endDecay
  simp only [State.co_standing]

theorem State.startPwm_standing (s : State) : (s.startPwm).standing = s.standing := by
  unfold State.startPwm
  simp only [State.co_standing, State.boundary_standing, foldl_standing, implies_true]

theorem State.coilTick_standing (s : State) (c : Fin 16) : (s.coilTick c).standing = s.standing := by
  unfold State.coilTick
  simp only [State.putB_standing, State.co_standing]

/-! ## Operations of Machine/Current.lean -/

theorem State.sweepPass_standing (s : State) (n : Fin 8) (d : IdchkSt) : (s.sweepPass n d).standing = s.standing := by
  unfold State.sweepPass
  simp only [State.co_standing]

theorem State.sequence_standing (s : State) (n : Fin 8) (stalled : Bool) : (s.sequence n stalled).standing = s.standing := by
  unfold State.sequence
  dsimp only
  repeat' split
  all_goals simp only [State.put_standing, State.sweepPass_standing, State.co_standing, State.putI_standing, State.putB_standing, State.ob_standing]

theorem State.holdStartRamp_standing (s : State) (n : Fin 8) : (s.holdStartRamp n).standing = s.standing := by
  unfold State.holdStartRamp
  simp only [State.ax_standing, State.ite_standing, ite_self]

theorem State.seqApply_standing (s : State) (n : Fin 8) (r : Nat) (e : Nat) : (s.seqApply n r e).standing = s.standing := by
  unfold State.seqApply
  simp only [State.put_standing, State.ax_standing]

theorem State.boostRun_standing (s : State) (n : Fin 8) : (s.boostRun n).standing = s.standing := by
  unfold State.boostRun
  simp only [State.ax_standing]

theorem State.boostLock_standing (s : State) (n : Fin 8) : (s.boostLock n).standing = s.standing := by
  unfold State.boostLock
  simp only [State.put_standing, State.ite_standing, ite_self]

theorem State.boostUnlock_standing (s : State) (n : Fin 8) : (s.boostUnlock n).standing = s.standing := by
  unfold State.boostUnlock
  simp only [State.put_standing, State.ite_standing, ite_self]

theorem State.coilAvg_standing (s : State) (c : Fin 16) (dt : Nat) : (s.coilAvg c dt).standing = s.standing := by
  unfold State.coilAvg
  simp only [State.co_standing]

theorem State.pubCeil_standing (s : State) (n : Fin 8) (k : Nat) (dt : Nat) : (s.pubCeil n k dt).standing = s.standing := by
  unfold State.pubCeil
  simp only [State.pw_standing, State.put_standing, State.putB_standing]

theorem State.govern_standing (s : State) : (s.govern).standing = s.standing := by
  unfold State.govern
  simp only [State.coilAvg_standing, State.boostLock_standing, State.boostUnlock_standing, State.pubCeil_standing, State.put_standing, State.pw_standing, State.putB_standing, State.levelSet_standing, State.ite_standing, forFin_standing, implies_true, ite_self]

theorem State.idchkEnd_standing (s : State) (n : Fin 8) (res : Nat) : (s.idchkEnd n res).standing = s.standing := by
  unfold State.idchkEnd
  simp only [State.ax_standing, State.bridgesOff_standing, State.put_standing, State.pulse_standing, State.fbAdd_standing]

theorem State.autofix_standing (s : State) (n : Fin 8) : (s.autofix n).standing = s.standing := by
  unfold State.autofix
  simp only [State.putSt_standing, State.co_standing, State.put_standing]

theorem State.idZero_standing (s : State) (n : Fin 8) : (s.idZero n).standing = s.standing := by
  unfold State.idZero
  dsimp only
  split <;> simp only [State.ax_standing, State.put_standing, State.ite_standing, ite_self]

theorem State.idSweep_standing (s : State) (n : Fin 8) : (s.idSweep n).standing = s.standing := by
  unfold State.idSweep
  simp only [State.bridgesOff_standing, State.put_standing, State.ax_standing]

theorem State.idchkStart_standing (s : State) (n : Fin 8) (ok : Bool) : (s.idchkStart n ok).standing = s.standing := by
  unfold State.idchkStart
  simp only [State.ax_standing, State.put_standing, State.setWord_standing, State.ite_standing, ite_self]

theorem State.idchkTick_standing (s : State) (n : Fin 8) : (s.idchkTick n).standing = s.standing := by
  unfold State.idchkTick
  dsimp only
  split <;> simp only [State.idchkStart_standing, State.ax_standing, State.idchkEnd_standing, State.idZero_standing, State.ite_standing, ite_self]

/-! ## Operations of Machine/Observer.lean -/

theorem State.obsMark_standing (s : State) (n : Fin 8) : (s.obsMark n).standing = s.standing := by
  unfold State.obsMark
  simp only [State.ax_standing]

theorem State.putBoth_standing (s : State) (f : Fld) (v : Nat) : (s.putBoth f v).standing = s.standing := by
  unfold State.putBoth
  simp only [State.put_standing, State.putSt_standing]

theorem State.calEnd_standing (s : State) (n : Fin 8) (res : Nat) : (s.calEnd n res).standing = s.standing := by
  unfold State.calEnd
  simp only [State.ob_standing, State.put_standing, State.pulse_standing, State.fbAdd_standing]

theorem State.calAbort_standing (s : State) (n : Fin 8) : (s.calAbort n).standing = s.standing := by
  unfold State.calAbort
  simp only [State.calEnd_standing, State.ite_standing, ite_self]

theorem State.calMark_standing (s : State) (n : Fin 8) : (s.calMark n).standing = s.standing := by
  unfold State.calMark
  dsimp only
  split <;> simp only [State.ax_standing, State.ob_standing, State.put_standing, State.calAbort_standing, State.ite_standing, ite_self]

theorem State.calStillEnd_standing (s : State) (n : Fin 8) (c : CalSt) : (s.calStillEnd n c).standing = s.standing := by
  unfold State.calStillEnd
  simp only [State.calEnd_standing, State.putBoth_standing, State.put_standing, State.ob_standing, State.ite_standing, ite_self]

theorem State.calFit_standing (s : State) (n : Fin 8) (c : CalSt) : (s.calFit n c).standing = s.standing := by
  unfold State.calFit
  simp only [State.calEnd_standing, State.useFree_standing, State.putBoth_standing, State.ob_standing, State.ite_standing, ite_self]

theorem State.calProgress_standing (s : State) (n : Fin 8) : (s.calProgress n).standing = s.standing := by
  unfold State.calProgress
  dsimp only
  repeat' split
  all_goals simp only [State.putBoth_standing, State.ob_standing, State.calFit_standing, State.put_standing]

theorem State.obsRun_standing (s : State) (n : Fin 8) : (s.obsRun n).standing = s.standing := by
  unfold State.obsRun
  simp only [State.ax_standing, State.ob_standing, State.calProgress_standing, State.ite_standing, ite_self]

theorem State.obsPublish_standing (s : State) (n : Fin 8) : (s.obsPublish n).standing = s.standing := by
  unfold State.obsPublish
  simp only [State.putI_standing, State.putB_standing, State.put_standing, State.addSat_standing, State.ob_standing]

theorem State.stallNote_standing (s : State) (n : Fin 8) (cause : Nat) (la : Int) (p : Int) : (s.stallNote n cause la p).standing = s.standing := by
  unfold State.stallNote
  simp only [State.put_standing, State.inc_standing, State.capture_standing, State.pulse_standing, State.fbAdd_standing, State.ob_standing, State.calAbort_standing]

/-! ## Operations of Machine/Closure.lean -/

theorem State.stopMove_standing (s : State) (t : Fin 2) (quick : Bool) (st : List Nat) : (s.stopMove t quick st).standing = s.standing := by
  refine foldl_standing _ _ _ fun x u => ?_
  dsimp only
  split
  · rfl
  · simp only [State.ite_standing, State.stn_standing, foldl_standing, State.markEnd_standing, State.cause_standing,
      State.ax_standing, implies_true, ite_self]

theorem State.leaveMove_standing (s : State) (n : Fin 8) : (s.leaveMove n).standing = s.standing := by
  unfold State.leaveMove
  simp only [State.stn_standing, State.ax_standing]

theorem State.stallFails_standing (s : State) (n : Fin 8) : (s.stallFails n).standing = s.standing := by
  unfold State.stallFails
  simp only [State.put_standing, State.ite_standing, ite_self]

theorem State.stallAct_standing (s : State) (n : Fin 8) (rotor : Int) : (s.stallAct n rotor).standing = s.standing := by
  unfold State.stallAct
  dsimp only
  split <;> simp only [State.put_standing, State.stallFails_standing, State.stopMove_standing, State.leaveMove_standing, State.markEnd_standing, State.axisFault_standing, State.followLeave_standing, State.standHold_standing, State.ax_standing, State.ite_standing, ite_self]

theorem State.stallRun_standing (s : State) (n : Fin 8) : (s.stallRun n).standing = s.standing := by
  unfold State.stallRun
  split
  · rfl
  · rw [State.ax_standing, State.stallNote_standing]

theorem State.stallPlan_standing (s : State) (n : Fin 8) : (s.stallPlan n).standing = s.standing := by
  unfold State.stallPlan
  dsimp only
  split <;> simp only [State.ax_standing, State.stallAct_standing, State.ite_standing, ite_self]

theorem State.keepAxis_standing (s : State) (n : Fin 8) : (s.keepAxis n).standing = s.standing := by
  unfold State.keepAxis
  simp only [State.ax_standing]

theorem State.lateAxis_standing (s : State) (n : Fin 8) : (s.lateAxis n).standing = s.standing := by
  unfold State.lateAxis
  simp only [State.ax_standing]

theorem State.closureCount_standing (s : State) (n : Fin 8) : (s.closureCount n).standing = s.standing := by
  unfold State.closureCount
  simp only [State.putI_standing, State.maxPut_standing, State.putB_standing, State.ax_standing]

theorem State.closureRun_standing (s : State) (n : Fin 8) : (s.closureRun n).standing = s.standing := by
  unfold State.closureRun
  simp only [State.ax_standing, State.closureCount_standing, State.ite_standing, ite_self]

theorem State.closureNote_standing (s : State) (n : Fin 8) : (s.closureNote n).standing = s.standing := by
  unfold State.closureNote
  simp only [State.pulse_standing, State.ax_standing, State.ite_standing, ite_self]

theorem State.closureAct_standing (s : State) (n : Fin 8) : (s.closureAct n).standing = s.standing := by
  unfold State.closureAct
  dsimp only
  repeat' split
  all_goals simp only [State.put_standing, State.ax_standing, State.axisFault_standing, State.stopMove_standing, State.markEnd_standing, State.stopAxis_standing]

theorem State.closMaxClr_standing (s : State) (n : Fin 8) : (s.closMaxClr n).standing = s.standing := by
  unfold State.closMaxClr
  simp only [State.put_standing]

/-! ## Operations of Machine/Coord.lean -/

theorem State.moveTake_standing (s : State) (t : Fin 2) (parts : List Cmd) (waiting : Bool) : (s.moveTake t parts waiting).standing = s.standing := by
  unfold State.moveTake
  simp only [State.cmdUpd_standing, State.stn_standing, foldl_standing, implies_true]

theorem State.moveEngage_standing (s : State) (t : Fin 2) : (s.moveEngage t).standing = s.standing := by
  unfold State.moveEngage
  split
  · rfl
  · refine foldl_standing _ _ _ fun x id => ?_
    split
    · rfl
    · rw [State.ax_standing, State.enterMotion_standing]

theorem State.moveStart_standing (s : State) (t : Fin 2) : (s.moveStart t).standing = s.standing := by
  unfold State.moveStart
  simp only [State.moveEngage_standing, State.stn_standing, foldl_standing, implies_true]

theorem State.moveTick_standing (s : State) (t : Fin 2) : (s.moveTick t).standing = s.standing := by
  unfold State.moveTick
  dsimp only
  repeat' split
  all_goals simp only [State.put_standing, State.stn_standing, State.cause_standing, State.putB_standing, foldl_standing, implies_true]

theorem State.coordTick_standing (s : State) (n : Fin 8) : (s.coordTick n).standing = s.standing := by
  unfold State.coordTick
  dsimp only
  split <;> simp only [State.planStat_standing, State.putB_standing, State.put_standing, State.place_standing]

theorem State.moveCommit_standing (s : State) (t : Fin 2) (late : Fin 8 → Bool) : (s.moveCommit t late).standing = s.standing := by
  unfold State.moveCommit
  split
  · rfl
  · dsimp only
    split
    · rw [State.ite_standing, State.stn_standing, State.put_standing, foldl_standing, foldl_standing, ite_self]
      · intro x id
        split
        · rfl
        · exact x.markEnd_standing id _
      · intro x n
        rw [State.ax_standing, State.standHold_standing]
    · rfl

theorem State.movesCommit_standing (s : State) (late : Fin 8 → Bool) : (s.movesCommit late).standing = s.standing := by
  unfold State.movesCommit
  simp only [State.moveCommit_standing, State.ite_standing, ite_self]

/-! ## Operations of Machine/Follow.lean -/

theorem State.followOn_standing (s : State) (n : Fin 8) : (s.followOn n).standing = s.standing := by
  unfold State.followOn
  simp only [State.setWord_standing, State.enterMotion_standing, State.ax_standing]

theorem State.followTick_standing (s : State) (n : Fin 8) : (s.followTick n).standing = s.standing := by
  unfold State.followTick
  simp only [State.inc_standing, State.putB_standing, State.put_standing, State.ax_standing, State.followLeave_standing, State.standHold_standing, State.ite_standing, ite_self]

/-! ## Operations of Machine/Homing.lean -/

theorem State.recoord_standing (s : State) (n : Fin 8) (p : Int) (m : Int) : (s.recoord n p m).standing = s.standing := by
  unfold State.recoord
  simp only [State.ax_standing]

theorem State.hom_standing (s : State) (n : Fin 8) (f : HomeSt → HomeSt) : (s.hom n f).standing = s.standing := by
  unfold State.hom
  simp only [State.ax_standing]

theorem State.homePhase_standing (s : State) (n : Fin 8) (h : HomeSt) (ph : Nat) (k : Nat) : (s.homePhase n h ph k).standing = s.standing := by
  unfold State.homePhase
  simp only [State.put_standing, State.ax_standing]

theorem State.homeStart_standing (s : State) (n : Fin 8) (c : Cmd) : (s.homeStart n c).standing = s.standing := by
  unfold State.homeStart
  simp only [State.put_standing, State.enterMotion_standing, State.ax_standing, State.homePhase_standing]

theorem State.homeFail_standing (s : State) (n : Fin 8) (cause : Nat) : (s.homeFail n cause).standing = s.standing := by
  unfold State.homeFail
  simp only [State.put_standing, State.hom_standing, State.stopAxis_standing]

theorem State.homeDatum_standing (s : State) (n : Fin 8) (h : HomeSt) (p : Int) (m : Int) : (s.homeDatum n h p m).standing = s.standing := by
  unfold State.homeDatum
  simp only [State.recoord_standing, State.put_standing, State.ax_standing]

theorem State.homeSeek_standing (s : State) (n : Fin 8) (h : HomeSt) : (s.homeSeek n h).standing = s.standing := by
  unfold State.homeSeek
  dsimp only
  repeat' split
  all_goals simp only [State.homeDatum_standing, State.homePhase_standing, State.ax_standing]

theorem State.homeDone_standing (s : State) (n : Fin 8) : (s.homeDone n).standing = s.standing := by
  unfold State.homeDone
  dsimp only
  split <;> simp only [State.markEnd_standing, State.put_standing, State.standHold_standing, State.ax_standing]

theorem State.homeTick_standing (s : State) (n : Fin 8) : (s.homeTick n).standing = s.standing := by
  unfold State.homeTick
  dsimp only
  repeat' split
  all_goals simp only [State.hom_standing, State.homeFail_standing, State.profTick_standing, State.homeSeek_standing, State.planStat_standing, State.putB_standing, State.put_standing, State.place_standing, State.homeDone_standing]

theorem State.homeQuiet_standing (s : State) (n : Fin 8) : (s.homeQuiet n).standing = s.standing := by
  unfold State.homeQuiet
  dsimp only
  split <;> simp only [State.hom_standing, State.homeFail_standing, State.ite_standing, ite_self]

/-! ## Operations of Machine/Accept.lean -/

theorem State.reject_standing (s : State) (c : Cmd) (code : Nat) (loc : Nat) : (s.reject c code loc).standing = s.standing := by
  unfold State.reject
  simp only [State.inc_standing, State.put_standing, State.postReject_standing, State.ite_standing, ite_self]

theorem State.notePart_standing (s : State) (c : Cmd) : (s.notePart c).standing = s.standing := by
  unfold State.notePart
  simp only [State.stn_standing, State.ite_standing, ite_self]

theorem State.accept_standing (s : State) (c : Cmd) : (s.accept c).standing = s.standing := by
  unfold State.accept
  simp only [State.notePart_standing, State.upd_standing]

theorem State.commit_standing (s : State) (src : Src) (r : Nat) (w : Word × Word × Word × Word) : (s.commit src r w).1.standing = s.standing := by
  unfold State.commit
  dsimp only
  split <;> simp only [State.reject_standing, State.accept_standing]

theorem State.ctxTo_standing (s : State) (x : Fin 4) (pc : Nat) : (s.ctxTo x pc).standing = s.standing := by
  unfold State.ctxTo
  simp only [State.stopCtx_standing, State.ctx_standing, State.ite_standing, ite_self]

theorem State.ctxFail_standing (s : State) (x : Fin 4) (w : Nat) (cause : Nat) : (s.ctxFail x w cause).standing = s.standing := by
  unfold State.ctxFail
  simp only [State.ctxTo_standing, State.stopCtx_standing, State.ite_standing, ite_self]

theorem State.takeBack_standing (s : State) (c : Cmd) : (s.takeBack c).standing = s.standing := by
  unfold State.takeBack
  simp only [State.dropCmd_standing, State.stn_standing, State.ite_standing, ite_self]

theorem State.progFails_standing (s : State) (x : Fin 4) (k : Cmd) : (s.progFails x k).standing = s.standing := by
  unfold State.progFails
  dsimp only
  split <;> simp only [State.ctx_standing, State.ctxFail_standing, State.ctxTo_standing, State.stopCtx_standing, State.ite_standing, ite_self]

theorem State.recommit_standing (s : State) (c : Cmd) : (s.recommit c).standing = s.standing := by
  unfold State.recommit
  dsimp only
  split <;> simp only [State.ctx_standing, State.commit_standing, State.progFails_standing, State.ite_standing, ite_self]

theorem State.commitLink_standing (s : State) (l : Link) (r : Nat) : (s.commitLink l r).standing = s.standing := by
  unfold State.commitLink
  simp only [State.takeBack_standing, State.commit_standing, State.recommit_standing, State.lnk_standing, foldl_standing, implies_true]

/-! ## Operations of Machine/Identity.lean -/

theorem State.mon_standing (s : State) (n : Fin 8) (f : MonSt → MonSt) : (s.mon n f).standing = s.standing := by
  unfold State.mon
  simp only [State.ax_standing]

theorem State.idStat_standing (s : State) (n : Fin 8) : (s.idStat n).standing = s.standing := by
  unfold State.idStat
  simp only [State.putBit_standing, State.put_standing, State.putB_standing]

theorem State.evMon_standing (s : State) (n : Fin 8) (d : Nat) : (s.evMon n d).standing = s.standing := by
  unfold State.evMon
  simp only [State.pulse_standing]

theorem State.monChange_standing (s : State) (n : Fin 8) (f : MonSt → MonSt) : (s.monChange n f).standing = s.standing := by
  unfold State.monChange
  simp only [State.mon_standing, State.dpRestart_standing, State.idStat_standing, State.ite_standing, ite_self]

theorem State.recordForce_standing (s : State) (n : Fin 8) (b : List Byte) : (s.recordForce n b).standing = s.standing := by
  unfold State.recordForce
  simp only [State.monChange_standing, State.put_standing, State.evMon_standing, State.fbAdd_standing, State.ite_standing, ite_self]

theorem State.idTick_standing (s : State) (n : Fin 8) : (s.idTick n).standing = s.standing := by
  unfold State.idTick
  split
  · rfl
  · rw [State.ite_standing, State.recordForce_standing, ite_self]

theorem State.recordAccept_standing (s : State) (n : Fin 8) (b : List Byte) : (s.recordAccept n b).standing = s.standing := by
  unfold State.recordAccept
  simp only [State.recordForce_standing, State.mon_standing, State.idStat_standing, State.ite_standing, ite_self]

theorem State.idSeen_standing (s : State) (n : Fin 8) : (s.idSeen n).standing = s.standing := by
  unfold State.idSeen
  simp only [State.mon_standing, State.putBit_standing, State.evMon_standing, State.ite_standing, ite_self]

theorem State.idMissed_standing (s : State) (n : Fin 8) : (s.idMissed n).standing = s.standing := by
  unfold State.idMissed
  simp only [State.mon_standing, State.putBit_standing, State.evMon_standing, State.idStat_standing, State.ite_standing, ite_self]

theorem State.idStart_standing (s : State) (n : Fin 8) : (s.idStart n).standing = s.standing := by
  unfold State.idStart
  simp only [State.mon_standing]

theorem State.idRescan_standing (s : State) (mask : Nat) : (s.idRescan mask).standing = s.standing := by
  unfold State.idRescan
  simp only [State.mon_standing, State.idStart_standing, State.ite_standing, forFin_standing, implies_true, ite_self]

theorem State.idResult_standing (s : State) (n : Fin 8) (rd : IdRead) (repeats : Bool) : (s.idResult n rd repeats).standing = s.standing := by
  unfold State.idResult
  dsimp only
  split <;> simp only [State.inc_standing, State.put_standing, State.mon_standing, State.evMon_standing, State.idMissed_standing, State.idSeen_standing, State.recordAccept_standing, State.ite_standing, ite_self]

theorem State.idCntClr_standing (s : State) : (s.idCntClr).standing = s.standing := by
  unfold State.idCntClr
  simp only [State.clrCnt_standing, forFin_standing, implies_true]

theorem State.idConfigReads_standing (s : State) (rd : Vector IdRead 8) : (s.idConfigReads rd).standing = s.standing := by
  unfold State.idConfigReads
  simp only [State.idResult_standing, forFin_standing, implies_true]

/-! ## Operations of Machine/Power.lean -/

theorem State.lockout_standing (s : State) (st : Fin 2) (pwr : Nat) (mv : Nat) : (s.lockout st pwr mv).standing = s.standing := by
  unfold State.lockout
  simp only [State.put_standing, State.pulse_standing, State.stationFault_standing, State.ite_standing, ite_self]

theorem State.evPwrSrc_standing (s : State) : (s.evPwrSrc).standing = s.standing := by
  unfold State.evPwrSrc
  simp only [State.pulse_standing]

theorem State.flDown_standing (s : State) : (s.flDown).standing = s.standing := by
  unfold State.flDown
  simp only [State.pw_standing, State.put_standing, State.v5Follow_standing, State.mwStop_standing, State.bridgesOff_standing, forFin_standing, implies_true, State.upd_standing]

theorem State.tempStat_standing (s : State) : (s.tempStat).standing = s.standing := by
  unfold State.tempStat
  simp only [State.putB_standing]

theorem State.ctrlTrip_standing (s : State) : (s.ctrlTrip).standing = s.standing := by
  unfold State.ctrlTrip
  simp only [State.gathered_standing, State.axisFault_standing, State.ax_standing, State.safeCause_standing, State.ite_standing, forFin_standing, implies_true, ite_self]

theorem State.tempCheck_standing (s : State) (k : Fin 8) (t : Int) : (s.tempCheck k t).standing = s.standing := by
  unfold State.tempCheck
  simp only [State.pw_standing, State.levelOn_standing, State.levelOff_standing, State.tempStat_standing, State.stationFault_standing, State.ctrlTrip_standing, State.safeClear_standing, State.ite_standing, ite_self]

/-! ## Operations of Machine/Survey.lean -/

theorem State.svRecord_standing (s : State) (st : Fin 2) (rec : Nat) (ovwr : Bool) : (s.svRecord st rec ovwr).standing = s.standing := by
  unfold State.svRecord
  simp only [State.ring_standing, State.svu_standing, State.inc_standing, State.pulse_standing, State.ite_standing, ite_self]

theorem State.svRun_standing (s : State) (st : Fin 2) (kind : Nat) (idx : Nat) : (s.svRun st kind idx).standing = s.standing := by
  unfold State.svRun
  simp only [State.svu_standing]

theorem State.svHk_standing (s : State) (st : Fin 2) (ends : Bool) : (s.svHk st ends).standing = s.standing := by
  unfold State.svHk
  simp only [State.svu_standing, State.svRun_standing]

theorem State.svRound_standing (s : State) (st : Fin 2) : (s.svRound st).standing = s.standing := by
  unfold State.svRound
  simp only [State.put_standing, State.svu_standing, State.putB_standing, State.svHk_standing, State.svRun_standing, State.ite_standing, ite_self]

theorem State.svInj_standing (s : State) (st : Fin 2) : (s.svInj st).standing = s.standing := by
  unfold State.svInj
  simp only [State.put_standing, State.svu_standing, State.svRun_standing, State.ite_standing, ite_self]

theorem State.svNext_standing (s : State) (st : Fin 2) : (s.svNext st).standing = s.standing := by
  unfold State.svNext
  dsimp only
  repeat' split
  all_goals simp only [State.put_standing, State.svu_standing, State.svInj_standing, State.svHk_standing, State.svRound_standing]

theorem State.svWork_standing (s : State) (st : Fin 2) (b : Nat) : (s.svWork st b).standing = s.standing := by
  unfold State.svWork
  simp only [State.put_standing, State.svu_standing, State.svNext_standing, State.ite_standing, ite_self]

theorem State.svHkResult_standing (s : State) (st : Fin 2) (k : Nat) (sum : Nat) : (s.svHkResult st k sum).1.standing = s.standing := by
  unfold State.svHkResult
  dsimp only
  split <;> simp only [State.svu_standing]

theorem State.svHkEntry_standing (s : State) (st : Fin 2) (r : ConvRun) : (s.svHkEntry st r).standing = s.standing := by
  unfold State.svHkEntry
  simp only [State.svHkResult_standing, State.svRecord_standing, State.ite_standing, ite_self]

theorem State.svClose_standing (s : State) (st : Fin 2) : (s.svClose st).standing = s.standing := by
  unfold State.svClose
  dsimp only
  split <;> simp only [State.put_standing, State.putB_standing, State.svRecord_standing, State.bdSample_standing, State.svRun_standing, State.svu_standing, State.svNext_standing, State.svHk_standing, State.svHkEntry_standing, State.ite_standing, ite_self]

theorem State.xchkFail_standing (s : State) : (s.xchkFail).standing = s.standing := by
  unfold State.xchkFail
  simp only [State.pw_standing, State.put_standing, State.putB_standing, State.levelOn_standing, State.safeCause_standing, State.ite_standing, ite_self]

theorem State.xchk_standing (s : State) (st : Fin 2) : (s.xchk st).standing = s.standing := by
  unfold State.xchk
  dsimp only
  split <;> simp only [State.put_standing, State.levelOff_standing, State.safeClear_standing, State.inc_standing, State.putI_standing, State.pw_standing, State.ite_standing, ite_self]

theorem State.publishTemps_standing (s : State) (st : Fin 2) (ts : List Nat) : (s.publishTemps st ts).standing = s.standing := by
  unfold State.publishTemps
  simp only [State.put_standing, State.putI_standing, State.pw_standing, State.tempCheck_standing, forFin_standing, implies_true]

theorem State.publishVm_standing (s : State) (st : Fin 2) (mv : Nat) : (s.publishVm st mv).standing = s.standing := by
  unfold State.publishVm
  simp only [State.put_standing, State.pw_standing]

theorem State.svRoundEnd_standing (s : State) (st : Fin 2) : (s.svRoundEnd st).standing = s.standing := by
  unfold State.svRoundEnd
  simp only [State.put_standing, State.svu_standing, State.svRun_standing, State.svNext_standing, State.ite_standing, ite_self]

theorem State.svHkDone_standing (s : State) (st : Fin 2) : (s.svHkDone st).standing = s.standing := by
  unfold State.svHkDone
  dsimp only
  repeat' split
  all_goals simp only [State.xchkFail_standing, State.svHkEntry_standing, State.svu_standing, State.xchk_standing, State.put_standing, State.publishVm_standing, State.publishTemps_standing, State.svRoundEnd_standing, State.svNext_standing]

theorem State.svTrigger_standing (s : State) (st : Fin 2) : (s.svTrigger st).standing = s.standing := by
  unfold State.svTrigger
  simp only [State.inc_standing, State.put_standing, State.svWork_standing, State.ite_standing, ite_self]

theorem State.svInjTrigger_standing (s : State) (st : Fin 2) : (s.svInjTrigger st).standing = s.standing := by
  unfold State.svInjTrigger
  dsimp only
  repeat' split
  all_goals simp only [State.svClose_standing, State.svHkDone_standing, State.inc_standing, State.put_standing, State.svu_standing, State.svInj_standing, State.svWork_standing]

theorem State.svSoft_standing (s : State) (st : Fin 2) : (s.svSoft st).standing = s.standing := by
  unfold State.svSoft
  simp only [State.svTrigger_standing, State.ite_standing, ite_self]

theorem State.svSoftInj_standing (s : State) (st : Fin 2) : (s.svSoftInj st).standing = s.standing := by
  unfold State.svSoftInj
  simp only [State.svInjTrigger_standing, State.ite_standing, ite_self]

theorem State.svTrip_standing (s : State) (t : Fin 4) : (s.svTrip t).standing = s.standing := by
  unfold State.svTrip
  simp only [State.svInjTrigger_standing, State.ite_standing, forFin_standing, implies_true, ite_self]

theorem State.surveyStart_standing (s : State) : (s.surveyStart).standing = s.standing := by
  unfold State.surveyStart
  simp only [State.svu_standing, State.svWork_standing, State.ite_standing, forFin_standing, implies_true, ite_self]

theorem State.svCalDrop_standing (s : State) (st : Fin 2) : (s.svCalDrop st).standing = s.standing := by
  unfold State.svCalDrop
  simp only [State.put_standing, State.svu_standing]

theorem State.surveyStop_standing (s : State) : (s.surveyStop).standing = s.standing := by
  unfold State.surveyStop
  simp only [State.svCalDrop_standing, State.put_standing, State.svu_standing, forFin_standing, implies_true]

theorem State.calRefuse_standing (s : State) (st : Fin 2) : (s.calRefuse st).standing = s.standing := by
  unfold State.calRefuse
  simp only [State.put_standing]

theorem State.calBegin_standing (s : State) (st : Fin 2) (full : Bool) : (s.calBegin st full).standing = s.standing := by
  unfold State.calBegin
  simp only [State.put_standing, State.svu_standing]

theorem State.svCalZero_standing (s : State) (st : Fin 2) : (s.svCalZero st).standing = s.standing := by
  unfold State.svCalZero
  simp only [State.calRefuse_standing, State.calBegin_standing, State.ite_standing, ite_self]

theorem State.svCalFull_standing (s : State) (st : Fin 2) : (s.svCalFull st).standing = s.standing := by
  unfold State.svCalFull
  simp only [State.calRefuse_standing, State.calBegin_standing, State.ite_standing, ite_self]

theorem State.svCalStore_standing (s : State) (st : Fin 2) (ok : Bool) : (s.svCalStore st ok).standing = s.standing := by
  unfold State.svCalStore
  dsimp only
  repeat' split
  all_goals simp only [State.calRefuse_standing, State.put_standing, State.nv_standing, State.svu_standing, State.nvPulse_standing]

/-! ## Operations of Machine/Moisture.lean -/

theorem State.mwStat_standing (s : State) : (s.mwStat).standing = s.standing := by
  unfold State.mwStat
  simp only [State.put_standing, State.putB_standing]

theorem State.mwRaise_standing (s : State) (l : Nat) (k : Nat) (kohm : Nat) : (s.mwRaise l k kohm).standing = s.standing := by
  unfold State.mwRaise
  simp only [State.pulse_standing, State.fbAdd_standing, State.ax_standing, State.ite_standing, ite_self]

theorem State.mwResult_standing (s : State) (l : Nat) (mv : Nat) : (s.mwResult l mv).standing = s.standing := by
  unfold State.mwResult
  simp only [State.put_standing, State.su_standing, State.mwStat_standing, State.mwRaise_standing, State.ite_standing, ite_self]

theorem State.mwLeave_standing (s : State) (n : Fin 8) : (s.mwLeave n).standing = s.standing := by
  unfold State.mwLeave
  simp only [State.mwAbandon_standing, State.ite_standing, ite_self]

/-! ## Operations of Machine/RegWrite.lean -/

theorem State.setField_standing (s : State) (a : Nat) (r : FRow) (v : Nat) : (s.setField a r v).standing = s.standing := by
  unfold State.setField
  simp only [State.put_standing]

theorem State.stageField_standing (s : State) (a : Nat) (r : FRow) (v : Nat) : (s.stageField a r v).standing = s.standing := by
  unfold State.stageField
  simp only [State.putSt_standing]

theorem State.noteWritten_standing (s : State) (a : Nat) : (s.noteWritten a).standing = s.standing := by
  unfold State.noteWritten
  dsimp only
  split <;> simp only [State.co_standing, State.ite_standing, ite_self]

theorem State.writeFields_standing (s : State) (a : Nat) (w : Word) (key : Bool) (image : Bool) : (s.writeFields a w key image).standing = s.standing := by
  unfold State.writeFields
  dsimp only
  rw [State.ite_standing, State.noteWritten_standing, ite_self, foldl_standing]
  intro x r
  split <;> simp only [State.setField_standing, State.stageField_standing, State.put_standing, State.ite_standing, ite_self]

theorem State.keyRefused_standing (s : State) : (s.keyRefused).standing = s.standing := by
  unfold State.keyRefused
  simp only [State.inc_standing]

theorem State.dropStaged_standing (s : State) (p : Nat → Bool) (gs : List (Fin 11)) (cs : List (Fin 16)) : (s.dropStaged p gs cs).standing = s.standing := by
  refine (foldl_standing _ cs _ fun x c => ?_).trans (foldl_standing _ gs _ fun x g => x.upd_standing)
  rw [State.put_standing, State.co_standing]

theorem State.resetRegs_standing (s : State) (p : Nat → Bool) : (s.resetRegs p).standing = s.standing := State.upd_standing _

theorem State.hostStands_standing (s : State) (a : Nat) (w : Word) (key : Bool) : (s.hostStands a w key).standing = s.standing := State.upd_standing _

/-! ## Operations of Machine/Trips.lean -/

theorem State.tripCapture_standing (s : State) (t : Fin 4) : (s.tripCapture t).standing = s.standing := by
  unfold State.tripCapture
  simp only [State.put_standing, State.inc_standing, foldl_standing, implies_true]

theorem State.tripAxis_standing (s : State) (n : Fin 8) : (s.tripAxis n).standing = s.standing := by
  unfold State.tripAxis
  simp only [State.axisFaultIf_standing]

theorem State.tripSet_standing (s : State) (t : Fin 4) : (s.tripSet t).standing = s.standing := by
  unfold State.tripSet
  simp only [State.putBit_standing, State.levelOn_standing, State.gathered_standing, State.tripAxis_standing, State.svTrip_standing, State.ite_standing, foldl_standing, implies_true, ite_self, State.upd_standing]

theorem State.tripClear_standing (s : State) (mask : Nat) : (s.tripClear mask).standing = s.standing := by
  unfold State.tripClear
  simp only [State.tripCapture_standing, State.inc_standing, State.putBit_standing, State.setWord_standing, State.levelOff_standing, State.ite_standing, forFin_standing, implies_true, ite_self]

theorem State.tripTick_standing (s : State) (n : Fin 8) : (s.tripTick n).standing = s.standing := by
  unfold State.tripTick
  simp only [State.tripAxis_standing, State.ax_standing, State.ite_standing, ite_self]

/-! ## Operations of Machine/Strobe.lean -/

theorem State.tickApply_standing (s : State) (p : Nat) (src : Nat) : (s.tickApply p src).standing = s.standing := by
  unfold State.tickApply
  simp only [State.put_standing, State.ite_standing, ite_self, State.upd_standing]

theorem State.tickOffer_standing (s : State) (p : Nat) (src : Nat) : (s.tickOffer p src).standing = s.standing := by
  unfold State.tickOffer
  simp only [State.tickApply_standing, State.put_standing, State.ite_standing, ite_self, State.upd_standing]

theorem State.pinActs_standing (s : State) (n : Fin 8) : (s.pinActs n).standing = s.standing := by
  unfold State.pinActs
  simp only [State.put_standing, State.putB_standing, State.dpRestart_standing, State.ax_standing, State.idStat_standing, State.ite_standing, ite_self]

theorem State.pinApply_standing (s : State) (n : Fin 8) (w : Nat) : (s.pinApply n w).standing = s.standing := by
  unfold State.pinApply
  simp only [State.setWord_standing, State.put_standing, State.ax_standing, State.pinActs_standing]

theorem State.pinOffer_standing (s : State) (n : Fin 8) (w : Nat) : (s.pinOffer n w).standing = s.standing := by
  unfold State.pinOffer
  simp only [State.put_standing, State.ax_standing, State.pinApply_standing, State.ite_standing, ite_self]

theorem State.seqOffer_standing (s : State) (n : Fin 8) (r : Nat) (e : Nat) : (s.seqOffer n r e).standing = s.standing := by
  unfold State.seqOffer
  simp only [State.seqApply_standing, State.put_standing, State.ax_standing, State.ite_standing, ite_self]

theorem State.dpApply_standing (s : State) (n : Fin 8) (inv : Nat) (cpr : Nat) : (s.dpApply n inv cpr).standing = s.standing := by
  unfold State.dpApply
  simp only [State.put_standing, State.dpt_standing, State.dpRestart_standing, State.ite_standing, ite_self]

theorem State.dpOffer_standing (s : State) (n : Fin 8) (inv : Nat) (cpr : Nat) : (s.dpOffer n inv cpr).standing = s.standing := by
  unfold State.dpOffer
  simp only [State.dpApply_standing, State.put_standing, State.dpt_standing, State.ite_standing, ite_self]

theorem State.heldAxis_standing (s : State) (n : Fin 8) : (s.heldAxis n).standing = s.standing := by
  have pin (x : State) : (match x.axes[n].heldPin with | some w => if x.quiet n then x.pinApply n w else x | none => x).standing = x.standing := by
    split
    · rw [State.ite_standing, State.pinApply_standing, ite_self]
    · rfl
  have seq (x : State) : (match x.axes[n].heldSeq with | some (r, e) => if x.seqQuiet n then x.seqApply n r e else x | none => x).standing = x.standing := by
    split
    · rw [State.ite_standing, State.seqApply_standing, ite_self]
    · rfl
  have dp (x : State) : (match x.axes[n].dp.held with | some (i, c) => if x.quiet n then x.dpApply n i c else x | none => x).standing = x.standing := by
    split
    · rw [State.ite_standing, State.dpApply_standing, ite_self]
    · rfl
  exact (dp _).trans ((seq _).trans (pin s))

theorem State.heldTick_standing (s : State) : (s.heldTick).standing = s.standing := by
  unfold State.heldTick
  dsimp only
  rw [forFin_standing]
  · split
    · rw [State.ite_standing, State.tickApply_standing, ite_self]
    · rfl
  · exact fun n x => x.heldAxis_standing n

theorem State.applyAddr_standing (s : State) (snap : RegFile) (a : Nat) : (s.applyAddr snap a).standing = s.standing := by
  unfold State.applyAddr
  simp only [State.setField_standing, State.ite_standing, foldl_standing, implies_true, ite_self]

theorem State.rmodeTook_standing (s : State) (st : Fin 2) (was : Nat) : (s.rmodeTook st was).standing = s.standing := by
  unfold State.rmodeTook
  simp only [State.put_standing, State.ite_standing, ite_self]

theorem State.applyGroup_standing (s : State) (g : Fin 11) (snap : RegFile) : (s.applyGroup g snap).standing = s.standing := by
  unfold State.applyGroup
  dsimp only
  split <;> simp only [State.applyAddr_standing, State.pinOffer_standing, State.seqOffer_standing, State.dpOffer_standing, State.rmodeTook_standing, State.tickOffer_standing, State.ite_standing, foldl_standing, implies_true, ite_self]

theorem State.applyStrobes_standing (s : State) : (s.applyStrobes).standing = s.standing := by
  unfold State.applyStrobes
  rw [State.heldTick_standing, forFin_standing]
  intro g x
  split
  · rw [State.ite_standing, State.applyGroup_standing, State.upd_standing, ite_self]
  · rfl

theorem State.strobeCoil_standing (s : State) (c : Fin 16) : (s.strobeCoil c).standing = s.standing := by
  unfold State.strobeCoil
  simp only [State.co_standing]

theorem State.strobeGroup_standing (s : State) (g : Fin 11) : (s.strobeGroup g).standing = s.standing := by
  unfold State.strobeGroup
  dsimp only
  repeat' split
  all_goals simp only [State.strobeCoil_standing, State.upd_standing]

theorem State.strobed_standing (s : State) : (s.strobed).standing = s.standing := by
  unfold State.strobed
  simp only [State.put_standing]

theorem State.strobe_standing (s : State) (w : Nat) : (s.strobe w).standing = s.standing := by
  unfold State.strobe
  simp only [State.strobeGroup_standing, State.strobed_standing, State.ite_standing, foldl_standing, implies_true, ite_self]

theorem State.imageTook_standing (s : State) : (s.imageTook).standing = s.standing := by
  unfold State.imageTook
  simp only [State.pinActs_standing, State.put_standing, forFin_standing, implies_true]

/-! ## Operations of Machine/Execute.lean -/

theorem State.doneNow_standing (s : State) (id : Nat) : (s.doneNow id).standing = s.standing := by
  unfold State.doneNow
  simp only [State.markEnd_standing]

theorem State.applyWait_standing (s : State) (id : Nat) (w : List Nat) : (s.applyWait id w).standing = s.standing := by
  unfold State.applyWait
  simp only [State.cmdUpd_standing]

theorem State.doEnable_standing (s : State) (n : Fin 8) : (s.doEnable n).standing = s.standing := by
  unfold State.doEnable
  simp only [State.mwLeave_standing, State.bdEnd_standing, State.put_standing, State.ax_standing, State.ite_standing, ite_self]

theorem State.doRelease_standing (s : State) (n : Fin 8) : (s.doRelease n).standing = s.standing := by
  unfold State.doRelease
  simp only [State.ax_standing, State.bridgesOff_standing, State.ite_standing, ite_self]

theorem State.doClearFault_standing (s : State) (n : Fin 8) : (s.doClearFault n).standing = s.standing := by
  unfold State.doClearFault
  simp only [State.put_standing, State.ax_standing]

theorem State.doSetPosition_standing (s : State) (n : Fin 8) (c : Cmd) : (s.doSetPosition n c).standing = s.standing := by
  unfold State.doSetPosition
  simp only [State.recoord_standing, State.putB_standing, State.ax_standing]

theorem State.flushRing_standing (s : State) (r : Nat) : (s.flushRing r).1.standing = s.standing := by
  unfold State.flushRing
  simp only [State.markEnd_standing, State.stn_standing, State.ite_standing, foldl_standing, implies_true, ite_self]

theorem State.doStop_standing (s : State) (n : Fin 8) (c : Cmd) : (s.doStop n c).standing = s.standing := by
  unfold State.doStop
  dsimp only
  split <;> simp only [State.flushRing_standing, State.stopMove_standing, State.stopAxis_standing, State.applyWait_standing, State.ite_standing, ite_self]

theorem State.doStationStop_standing (s : State) (t : Fin 2) (c : Cmd) : (s.doStationStop t c).standing = s.standing := by
  unfold State.doStationStop
  dsimp only
  split <;> simp only [State.flushRing_standing, State.stopMove_standing, State.applyWait_standing]

theorem State.doReplace_standing (s : State) (n : Fin 8) (c : Cmd) : (s.doReplace n c).standing = s.standing := by
  unfold State.doReplace
  dsimp only
  repeat' split
  all_goals simp only [State.markEnd_standing, State.cmdUpd_standing, State.stakeStart_standing]

theorem State.cancelOne_standing (s : State) (id : Nat) (quick : Bool) : (s.cancelOne id quick).standing = s.standing := by
  unfold State.cancelOne
  dsimp only
  repeat' split
  all_goals simp only [State.markEnd_standing, State.stn_standing, State.stopMove_standing, State.stopAxis_standing, foldl_standing, implies_true]

theorem State.doCancelTag_standing (s : State) (c : Cmd) : (s.doCancelTag c).standing = s.standing := by
  unfold State.doCancelTag
  simp only [State.cancelOne_standing, State.applyWait_standing, State.cmdUpd_standing, State.ite_standing, foldl_standing, implies_true, ite_self]

theorem State.doCancelRing_standing (s : State) (c : Cmd) : (s.doCancelRing c).standing = s.standing := by
  unfold State.doCancelRing
  simp only [State.cancelOne_standing, State.applyWait_standing, foldl_standing, implies_true]

theorem State.progStart_standing (s : State) (x : Fin 4) (entry : Nat) : (s.progStart x entry).standing = s.standing := by
  unfold State.progStart
  simp only [State.ctx_standing]

theorem State.applyOp_standing (s : State) (c : Cmd) : (s.applyOp c).standing = s.standing := by
  unfold State.applyOp
  dsimp only
  split <;> simp only [State.doEnable_standing, State.doneNow_standing, State.doRelease_standing, State.doStop_standing, State.doClearFault_standing, State.doSetPosition_standing, State.followOn_standing, State.stopAxis_standing, State.applyWait_standing, State.doReplace_standing, State.doStationStop_standing, State.doCancelTag_standing, State.doCancelRing_standing, State.progStart_standing, State.stopCtx_standing]

theorem State.applyImm_standing (s : State) (id : Nat) : (s.applyImm id).standing = s.standing := by
  unfold State.applyImm
  split
  · rfl
  · rw [State.ite_standing, State.ite_standing, State.applyOp_standing, State.markEnd_standing, ite_self, ite_self]

theorem State.applyImms_standing (s : State) : (s.applyImms).standing = s.standing := by
  unfold State.applyImms
  simp only [State.applyImm_standing, foldl_standing, implies_true]

theorem State.startOn_standing (s : State) (n : Fin 8) (c : Cmd) : (s.startOn n c).standing = s.standing := by
  unfold State.startOn
  simp only [State.cmdUpd_standing, State.homeStart_standing, State.stakeStart_standing, State.ite_standing, ite_self]

theorem State.startAxis_standing (s : State) (n : Fin 8) (l : List Cmd) : (s.startAxis n l).standing = s.standing := by
  induction l generalizing s with
  | nil => rfl
  | cons c l ih =>
    unfold State.startAxis
    rw [State.ite_standing, State.ite_standing, ih, State.markEnd_standing, State.startOn_standing, ite_self, ite_self]

theorem State.unpair_standing (s : State) (t : Fin 2) (p : Nat) (same : Bool) : (s.unpair t p same).standing = s.standing := by
  unfold State.unpair
  split
  · simp only [State.ite_standing, State.stn_standing, foldl_standing, State.markEnd_standing, implies_true, ite_self]
  · rfl

theorem State.startMove_standing (s : State) (t : Fin 2) (parts : List Cmd) : (s.startMove t parts).standing = s.standing := by
  unfold State.startMove
  dsimp only
  repeat' split
  all_goals simp only [State.unpair_standing, State.moveTake_standing, State.moveStart_standing, State.stn_standing, State.cmdUpd_standing, foldl_standing, implies_true]

theorem State.startStation_standing (s : State) (t : Fin 2) (busy : List Nat) (k : Nat) (l : List Cmd) : (s.startStation t busy k l).standing = s.standing := by
  induction k generalizing s l with
  | zero => rfl
  | succ k ih =>
    cases l with
    | nil => rfl
    | cons c l =>
      unfold State.startStation
      simp only [State.ite_standing, ih, foldl_standing, State.markEnd_standing, State.cmdUpd_standing, State.unpair_standing,
        State.startMove_standing, implies_true, ite_self]

theorem State.startDevice_standing (s : State) (l : List Cmd) : (s.startDevice l).standing = s.standing := by
  induction l generalizing s with
  | nil => rfl
  | cons c l ih =>
    unfold State.startDevice
    rw [State.ite_standing, ih, State.markEnd_standing, State.cmdUpd_standing, ite_self]

theorem State.stationMark_standing (s : State) (t : Fin 2) (busy : List Nat) : (s.stationMark t busy).standing = s.standing := by
  unfold State.stationMark
  simp only [State.startStation_standing, State.ite_standing, ite_self]

theorem State.axisMark_standing (s : State) (n : Fin 8) (busy : List Nat) : (s.axisMark n busy).standing = s.standing := by
  unfold State.axisMark
  simp only [State.startAxis_standing, State.ite_standing, ite_self]

theorem State.moveLimit_standing (s : State) (t : Fin 2) : (s.moveLimit t).standing = s.standing := by
  unfold State.moveLimit
  dsimp only
  split <;> simp only [State.stopMove_standing, State.pulse_standing, State.ite_standing, foldl_standing, implies_true, ite_self]

theorem State.execMark_standing (s : State) : (s.execMark).standing = s.standing := by
  unfold State.execMark
  simp only [State.applyImms_standing, State.stationMark_standing, State.moveLimit_standing, State.axisMark_standing, State.startDevice_standing, State.ite_standing, forFin_standing, implies_true, ite_self]

theorem State.blendRun_standing (s : State) (n : Fin 8) : (s.blendRun n).standing = s.standing := by
  unfold State.blendRun
  dsimp only
  split <;> simp only [State.stakeDone_standing, State.cmdUpd_standing, State.stakeStart_standing]

theorem State.rstMoves_standing (s : State) (n : Fin 8) : (s.rstMoves n).standing = s.standing := by
  unfold State.rstMoves
  simp only [State.markEnd_standing, State.stopMove_standing, State.ite_standing, foldl_standing, implies_true, ite_self]

theorem State.rstBegin_standing (s : State) (n : Fin 8) : (s.rstBegin n).standing = s.standing := by
  unfold State.rstBegin
  simp only [State.markEnd_standing, State.rstMoves_standing, State.stopAxis_standing, State.ax_standing, State.ite_standing, foldl_standing, implies_true, ite_self]

theorem State.rstCoil_standing (s : State) (c : Fin 16) : (s.rstCoil c).standing = s.standing := by
  unfold State.rstCoil
  simp only [State.co_standing]

theorem State.rstFinish_standing (s : State) (n : Fin 8) : (s.rstFinish n).standing = s.standing := by
  unfold State.rstFinish
  simp only [State.resetRegs_standing, State.put_standing, State.ax_standing, State.rstCoil_standing, State.pinActs_standing, State.putBit_standing, State.ite_standing, ite_self, State.upd_standing]

theorem State.rstAxis_standing (s : State) (n : Fin 8) : (s.rstAxis n).standing = s.standing := by
  unfold State.rstAxis
  dsimp only
  split <;> simp only [State.rstBegin_standing, State.rstMoves_standing, State.rstFinish_standing, State.ite_standing, ite_self]

theorem State.stgClear_standing (s : State) (r : Nat) : (s.stgClear r).standing = s.standing := State.upd_standing _

theorem State.rstRing_standing (s : State) (r : Fin 16) : (s.rstRing r).standing = s.standing := by
  unfold State.rstRing
  dsimp only
  split <;> simp only [State.ring_standing, State.putBit_standing, State.stgClear_standing, State.ite_standing, ite_self, State.upd_standing]

theorem State.rstRings_standing (s : State) : (s.rstRings).standing = s.standing := by
  unfold State.rstRings
  simp only [State.rstRing_standing, foldl_standing, implies_true, State.upd_standing]

theorem State.postEnds_standing (s : State) (gone : List Nat) (k : Nat) : (s.postEnds gone k).standing = s.standing := by
  induction k generalizing s gone with
  | zero => rfl
  | succ k ih =>
    unfold State.postEnds
    split
    · split
      · rw [ih, State.recordEnd_standing]
      · rw [ih, State.endCmd_standing]
    · rfl

theorem State.commitEnds_standing (s : State) : (s.commitEnds).standing = s.standing := by
  unfold State.commitEnds
  dsimp only
  rw [State.postEnds_standing, State.upd_standing, foldl_standing _ _ _ fun x c => x.markEnd_standing _ _]

/-! ## Operations of Machine/Memory.lean -/

theorem State.mm_standing (s : State) (m : Mem) (f : EccSt → EccSt) : (s.mm m f).standing = s.standing := State.upd_standing _

theorem State.setBad_standing (s : State) (m : Mem) (a x : Nat) : (s.setBad m a x).standing = s.standing := by
  unfold State.setBad
  simp only [State.mm_standing]

theorem State.memFirst_standing (s : State) (m : Mem) (a : Nat) (uncorr : Bool) (scrub : Bool) (sym : Nat) : (s.memFirst m a uncorr scrub sym).standing = s.standing := by
  exact (State.cycle_standing _).trans (s.setWord_standing 0x66 _)

theorem State.memFirstClr_standing (s : State) : (s.memFirstClr).standing = s.standing := by
  unfold State.memFirstClr
  simp only [State.setWord_standing]

theorem State.memCntClr_standing (s : State) : (s.memCntClr).standing = s.standing := by
  unfold State.memCntClr
  simp only [State.clrCnt_standing]

theorem State.memCorrected_standing (s : State) (m : Mem) (a : Nat) (sym : Nat) (scrub : Bool) : (s.memCorrected m a sym scrub).standing = s.standing := by
  unfold State.memCorrected
  simp only [State.inc_standing, State.memFirst_standing, State.mm_standing, State.pulse_standing, State.ite_standing, ite_self]

theorem State.recLost_standing (s : State) (q : Fin 5) (i : Nat) : (s.recLost q i).standing = s.standing := by
  unfold State.recLost
  simp only [State.ring_standing, State.inc_standing, State.ite_standing, ite_self]

theorem State.ringWordLost_standing (s : State) : (s.ringWordLost).standing = s.standing := by
  unfold State.ringWordLost
  dsimp only
  repeat' split
  all_goals simp only [State.useFree_standing, State.endCmd_standing, State.recLost_standing]

theorem State.pairLost_standing (s : State) : (s.pairLost).standing = s.standing := by
  unfold State.pairLost
  simp only [State.useFree_standing, State.ring_standing, State.inc_standing, State.ite_standing, ite_self]

theorem State.memResponse_standing (s : State) (m : Mem) (a : Nat) (x : Option (Fin 4)) : (s.memResponse m a x).standing = s.standing := by
  unfold State.memResponse
  dsimp only
  repeat' split
  all_goals simp only [State.pulse_standing, State.halt_standing, State.mwStop_standing, State.safeCause_standing, State.axisFault_standing, State.gathered_standing, State.stopCtx_standing, State.ringWordLost_standing, State.pairLost_standing, foldl_standing, implies_true]

theorem State.memUncorr_standing (s : State) (m : Mem) (a : Nat) (scrub : Bool) (x : Option (Fin 4)) : (s.memUncorr m a scrub x).standing = s.standing := by
  unfold State.memUncorr
  simp only [State.inc_standing, State.memFirst_standing, State.memResponse_standing]

theorem State.memRead_standing (s : State) (m : Mem) (a : Nat) (scrub : Bool) (x : Option (Fin 4)) : (s.memRead m a scrub x).standing = s.standing := by
  unfold State.memRead
  simp only [State.memCorrected_standing, State.memUncorr_standing, State.useFree_standing, State.ite_standing, ite_self]

theorem State.scrubNext_standing (s : State) (m : Mem) : (s.scrubNext m).standing = s.standing := by
  unfold State.scrubNext
  simp only [State.mm_standing, State.put_standing, State.ite_standing, ite_self]

theorem State.memWrite_standing (s : State) (m : Mem) (a : Nat) : (s.memWrite m a).standing = s.standing := by
  unfold State.memWrite
  dsimp only
  rw [State.cycle_standing, State.mm_standing, State.setBad_standing]

theorem State.memTouch_standing (s : State) (m : Mem) (a : Nat) : (s.memTouch m a).standing = s.standing := by
  unfold State.memTouch
  simp only [State.useFree_standing, State.memRead_standing, State.memWrite_standing, State.ite_standing, ite_self]

theorem State.memWork_standing (s : State) : (s.memWork).standing = s.standing := by
  unfold State.memWork
  simp only [State.memTouch_standing, State.ite_standing, foldl_standing, implies_true, ite_self]

theorem State.injectWord_standing (s : State) (w : Nat) : (s.injectWord w).standing = s.standing := by
  unfold State.injectWord
  simp only [State.setBad_standing]

/-! ## Operations of Machine/Image.lean -/

theorem State.slotStat_standing (s : State) : (s.slotStat).standing = s.standing := by
  unfold State.slotStat
  simp only [State.put_standing, State.putBit_standing, State.putB_standing, forFin_standing, implies_true]

/-! ## Operations of Machine/Surveyor.lean -/

theorem State.vbakRead_standing (s : State) (mv : Nat) : (s.vbakRead mv).standing = s.standing := by
  unfold State.vbakRead
  simp only [State.put_standing, State.pw_standing, State.pulse_standing, State.ite_standing, ite_self]

theorem State.vlinkRead_standing (s : State) (mv : Nat) : (s.vlinkRead mv).standing = s.standing := by
  unfold State.vlinkRead
  simp only [State.put_standing, State.ite_standing, ite_self]

theorem State.fclkSet_standing (s : State) (secs : Nat) : (s.fclkSet secs).standing = s.standing := by
  unfold State.fclkSet
  simp only [State.su_standing, State.put_standing]

theorem State.fbErase_standing (s : State) (k : Nat) : (s.fbErase k).standing = s.standing := by
  unfold State.fbErase
  simp only [State.nv_standing, State.put_standing, State.su_standing, State.pulse_standing, State.ite_standing, ite_self]

theorem State.fbStore_standing (s : State) (r : FbRec) : (s.fbStore r).standing = s.standing := by
  unfold State.fbStore
  simp only [State.fbErase_standing, State.nv_standing, State.put_standing, State.ite_standing, ite_self]

theorem State.fbLost_standing (s : State) : (s.fbLost).standing = s.standing := by
  unfold State.fbLost
  simp only [State.su_standing, State.fbAdd_standing, State.pulse_standing, State.ite_standing, ite_self]

theorem State.fbClr_standing (s : State) : (s.fbClr).standing = s.standing := by
  unfold State.fbClr
  simp only [State.clrCnt_standing]

theorem State.mwClr_standing (s : State) : (s.mwClr).standing = s.standing := by
  unfold State.mwClr
  simp only [State.clrCnt_standing]

theorem State.sealStat_standing (s : State) : (s.sealStat).standing = s.standing := by
  unfold State.sealStat
  simp only [State.put_standing, State.putB_standing, foldl_standing, implies_true]

theorem State.sealEnd_standing (s : State) (q : SealReq) (slot : Nat) (res : Nat) (old : List Nat) : (s.sealEnd q slot res old).standing = s.standing := by
  unfold State.sealEnd
  simp only [State.put_standing, State.fbAddFrom_standing, State.pulse_standing]

theorem State.sealGo_standing (s : State) (src : Nat) (hseq : Nat) : (s.sealGo src hseq).standing = s.standing := by
  unfold State.sealGo
  dsimp only
  repeat' split
  all_goals simp only [State.sealEnd_standing, State.put_standing, State.su_standing]

theorem State.ovForce_standing (s : State) (mv : Nat) : (s.ovForce mv).standing = s.standing := by
  unfold State.ovForce
  simp only [State.put_standing]

theorem State.sealForce_standing (s : State) (id : Nat) (v : List Nat) : (s.sealForce id v).standing = s.standing := by
  unfold State.sealForce
  dsimp only
  split <;> simp only [State.bt_standing, State.ovForce_standing, State.su_standing, State.put_standing, implies_true]

theorem State.ceilTick_standing (s : State) : (s.ceilTick).standing = s.standing := by
  unfold State.ceilTick
  dsimp only
  split <;> simp only [State.bt_standing, State.su_standing, implies_true]

theorem State.fwSlot_standing (s : State) (x : Fin 2) (f : FwSlot → FwSlot) : (s.fwSlot x f).standing = s.standing := by
  unfold State.fwSlot
  simp only [State.nv_standing]

theorem State.updPut_standing (s : State) (o : Nat) (l : List Nat) : (s.updPut o l).standing = s.standing := by
  unfold State.updPut
  split
  · rfl
  · exact State.fwSlot_standing _ _ _

theorem State.flashErase_standing (s : State) (a n : Nat) : (s.flashErase a n).standing = s.standing := State.upd_standing _

theorem State.updResult_standing (s : State) (op : Nat) (res : Nat) : (s.updResult op res).standing = s.standing := by
  unfold State.updResult
  simp only [State.put_standing, State.pulse_standing]

theorem State.updStart_standing (s : State) (u : UpdSt) (res : Nat) : (s.updStart u res).standing = s.standing := by
  unfold State.updStart
  simp only [State.put_standing, State.su_standing]

theorem State.updGo_standing (s : State) (src : Nat) (hseq : Nat) (key : Bool) : (s.updGo src hseq key).standing = s.standing := by
  unfold State.updGo
  dsimp only
  repeat' split
  all_goals simp only [State.updResult_standing, State.putB_standing, State.put_standing, State.su_standing, State.fwSlot_standing, State.slotStat_standing, State.updStart_standing]

theorem State.setFail_standing (s : State) (k : Nat) : (s.setFail k).standing = s.standing := by
  unfold State.setFail
  simp only [State.nv_standing, State.put_standing, State.nvPulse_standing]

theorem State.updActivate_standing (s : State) : (s.updActivate).standing = s.standing := by
  unfold State.updActivate
  simp only [State.updPut_standing, State.nv_standing, State.fwSlot_standing, State.setFail_standing, State.put_standing, State.ite_standing, ite_self]

theorem State.updEffect_standing (s : State) (u : UpdSt) : (s.updEffect u).standing = s.standing := by
  unfold State.updEffect
  dsimp only
  repeat' split
  all_goals simp only [State.flashErase_standing, State.put_standing, State.su_standing, State.updPut_standing, State.updActivate_standing, State.upd_standing]

theorem State.imgTorn_standing (s : State) : (s.imgTorn).standing = s.standing := by
  unfold State.imgTorn
  dsimp only
  split <;> simp only [State.useFree_standing, State.flashErase_standing, State.ite_standing, ite_self]

theorem State.updFail_standing (s : State) (u : UpdSt) : (s.updFail u).standing = s.standing := by
  unfold State.updFail
  dsimp only
  split <;> simp only [State.inc_standing, State.imgTorn_standing, State.ite_standing, ite_self]

/-! ## Operations of Machine/Boot.lean -/

theorem State.fbCut_standing (s : State) : (s.fbCut).standing = s.standing := by
  unfold State.fbCut
  dsimp only
  split <;> simp only [State.useFree_standing, State.fbStore_standing, State.fbErase_standing, State.nv_standing, State.ite_standing, ite_self]

theorem State.sealCut_standing (s : State) : (s.sealCut).standing = s.standing := by
  unfold State.sealCut
  split
  · rfl
  · exact State.upd_standing _

theorem State.updCut_standing (s : State) : (s.updCut).standing = s.standing := by
  unfold State.updCut
  simp only [State.imgTorn_standing, State.useFree_standing, State.updEffect_standing, State.put_standing, State.su_standing, State.ite_standing, ite_self]

theorem State.surveyorCut_standing (s : State) : (s.surveyorCut).standing = s.standing := by
  unfold State.surveyorCut
  simp only [State.fbCut_standing, State.sealCut_standing, State.updCut_standing, State.put_standing, State.su_standing, State.ite_standing, ite_self]

theorem State.clampNote_standing (s : State) : (s.clampNote).standing = s.standing := by
  unfold State.clampNote
  simp only [State.levelOn_standing, State.ite_standing, forFin_standing, implies_true, ite_self]

theorem State.lowTime_standing (s : State) (c : Nat) : (s.lowTime c).standing = s.standing := by
  unfold State.lowTime
  simp only [State.put_standing, State.inc_standing]

theorem State.coreAxis_standing (s : State) (n : Fin 8) : (s.coreAxis n).standing = s.standing := by
  unfold State.coreAxis
  simp only [State.idchkEnd_standing, State.calEnd_standing, State.bdEnd_standing, State.followLeave_standing, State.planIdle_standing, State.ax_standing, State.ob_standing, State.putBit_standing, State.ite_standing, ite_self]

theorem State.coreRings_standing (s : State) : (s.coreRings).standing = s.standing := by
  unfold State.coreRings
  simp only [State.resetRegs_standing, State.upd_standing]

theorem State.coreBoxes_standing (s : State) : (s.coreBoxes).standing = s.standing := by
  unfold State.coreBoxes
  simp only [State.resetRegs_standing, State.setWord_standing, foldl_standing, implies_true, State.upd_standing]

theorem State.coreLinks_standing (s : State) : (s.coreLinks).standing = s.standing := by
  unfold State.coreLinks
  simp only [State.dropStaged_standing, State.put_standing, State.upd_standing]

theorem State.surveyorBoot_standing (s : State) : (s.surveyorBoot).standing = s.standing := by
  unfold State.surveyorBoot
  simp only [State.mm_standing, State.put_standing, State.putB_standing, State.su_standing, State.slotStat_standing, State.sealStat_standing, State.setWord_standing, State.bt_standing, foldl_standing, implies_true]

theorem State.optRegs_standing (s : State) (o : Opts) : (s.optRegs o).standing = s.standing := by
  unfold State.optRegs
  simp only [State.put_standing, State.putB_standing, State.ovForce_standing]

theorem State.fwState_standing (s : State) (x : Fin 2) (st : Nat) : (s.fwState x st).standing = s.standing := by
  unfold State.fwState
  simp only [State.fwSlot_standing, State.nvPulse_standing]

theorem State.fallback_standing (s : State) (image : Bool) (slot : Nat) (seq : Nat) : (s.fallback image slot seq).standing = s.standing := by
  unfold State.fallback
  simp only [State.fbAdd_standing]

theorem State.fwTrialEnd_standing (s : State) : (s.fwTrialEnd).standing = s.standing := by
  unfold State.fwTrialEnd
  simp only [State.fwState_standing, State.fallback_standing, State.ite_standing, ite_self]

theorem State.imgTrialEnd_standing (s : State) : (s.imgTrialEnd).standing = s.standing := by
  unfold State.imgTrialEnd
  dsimp only
  split <;> simp only [State.nv_standing, State.fallback_standing, State.ite_standing, ite_self, State.upd_standing]

theorem State.fwTry_standing (s : State) (l : List (Fin 2)) : (s.fwTry l).1.standing = s.standing := by
  induction l generalizing s with
  | nil => rfl
  | cons x l ih =>
    unfold State.fwTry
    split
    · rfl
    · rw [ih, State.fwState_standing]

theorem State.keepAliveEnd_standing (s : State) : (s.keepAliveEnd).standing = s.standing := by
  unfold State.keepAliveEnd
  simp only [State.bt_standing, State.put_standing, State.setFail_standing, State.ite_standing, implies_true, ite_self]

theorem State.spiCfgWrite_standing (s : State) (w : Word) (key : Bool) (gr : Bool) (image : Bool) : (s.spiCfgWrite w key gr image).standing = s.standing := by
  unfold State.spiCfgWrite
  simp only [State.writeFields_standing, State.put_standing, State.putB_standing, State.ite_standing, ite_self, State.upd_standing]

theorem State.applyEntry_standing (s : State) (e : Entry) : (s.applyEntry e).standing = s.standing := by
  unfold State.applyEntry
  simp only [State.writeFields_standing, State.fclkSet_standing, State.spiCfgWrite_standing, State.ite_standing, ite_self]

theorem State.applyRegs_standing (s : State) (t : Nat) : (s.applyRegs t).standing = s.standing := by
  unfold State.applyRegs
  simp only [State.applyEntry_standing, foldl_standing, implies_true]

theorem State.applyMonument_standing (s : State) (x : Sect) : (s.applyMonument x).standing = s.standing := by
  unfold State.applyMonument
  simp only [State.monChange_standing]

theorem State.flAxes_standing (s : State) : (s.flAxes).standing = s.standing := by
  unfold State.flAxes
  simp only [State.resetRegs_standing, State.ax_standing, State.put_standing, State.idStat_standing, forFin_standing, implies_true, State.upd_standing]

theorem State.flEngines_standing (s : State) : (s.flEngines).standing = s.standing := State.upd_standing _

theorem State.flReset_standing (s : State) : (s.flReset).standing = s.standing := by
  unfold State.flReset
  simp only [State.flAxes_standing, State.flEngines_standing, State.mm_standing, State.put_standing, State.bt_standing, State.safeClear_standing, State.levelOff_standing, State.mwStop_standing, State.pw_standing, foldl_standing, implies_true]

theorem State.flPower_standing (s : State) : (s.flPower).standing = s.standing := by
  unfold State.flPower
  simp only [State.flReset_standing, State.put_standing, State.pw_standing, State.v5Follow_standing, State.ite_standing, ite_self]

theorem State.applyDie_standing (s : State) (x : Sect) : (s.applyDie x).standing = s.standing := by
  unfold State.applyDie
  simp only [State.putBoth_standing, foldl_standing, implies_true]

theorem State.applyProgram_standing (s : State) (x : Sect) : (s.applyProgram x).standing = s.standing := by
  unfold State.applyProgram
  simp only [State.upd_standing]

theorem State.applyProgCfg_standing (s : State) (x : Sect) : (s.applyProgCfg x).standing = s.standing := by
  unfold State.applyProgCfg
  simp only [State.ctx_standing]

theorem State.flLoad_standing (s : State) : (s.flLoad).standing = s.standing := by
  unfold State.flLoad
  simp only [State.applyDie_standing, State.applyRegs_standing, State.applyProgram_standing, State.applyProgCfg_standing, State.imageTook_standing, State.svu_standing, foldl_standing, forFin_standing, implies_true]

theorem State.trialsEnd_standing (s : State) : (s.trialsEnd).standing = s.standing := by
  unfold State.trialsEnd
  dsimp only
  split <;> simp only [State.fwState_standing, State.nv_standing, State.ite_standing, ite_self]

theorem State.hwdogAxis_standing (s : State) (n : Fin 8) : (s.hwdogAxis n).standing = s.standing := by
  unfold State.hwdogAxis
  dsimp only
  split <;> simp only [State.axisFault_standing, State.ax_standing, State.stopMove_standing, State.stopAxis_standing, State.ite_standing, ite_self]

theorem State.safeExit_standing (s : State) : (s.safeExit).standing = s.standing := by
  unfold State.safeExit
  split
  · rfl
  · next safe =>
    have dev : s.dev = .safe := by simpa using safe
    have back : State.standing { s with dev := if s.boot.fromReady then .ready else .run } = s.standing := by
      unfold State.standing State.home
      dsimp only
      rw [dev]
      cases s.boot.fromReady <;> rfl
    split
    · exact s.inc_standing _
    · exact (State.v5Follow_standing _).trans ((State.levelOff_standing _ _ _ _).trans
        ((State.bt_standing _ _ fun b => rfl).trans back))

theorem State.axisResets_standing (s : State) (mask : Nat) : (s.axisResets mask).standing = s.standing := by
  unfold State.axisResets
  simp only [State.putBit_standing, State.ax_standing, State.ite_standing, foldl_standing, implies_true, ite_self]

/-! ## Operations of Machine/Registers.lean -/

theorem State.mbEmpty_standing (s : State) (m : Fin 8) : (s.mbEmpty m).standing = s.standing := by
  unfold State.mbEmpty
  simp only [State.inc_standing, State.mbWords_standing, State.put_standing, State.ite_standing, ite_self, State.upd_standing]

theorem State.mbReq_standing (s : State) (m : Fin 8) (w : Word) : (s.mbReq m w).standing = s.standing := by
  unfold State.mbReq
  simp only [State.writeFields_standing, State.mbEmpty_standing, State.put_standing, State.mbDeliver_standing, State.ite_standing, ite_self, State.upd_standing]

theorem State.mbRead_standing (s : State) (m : Fin 8) (k : Nat) : (s.mbRead m k).standing = s.standing := by
  unfold State.mbRead
  split
  · split
    · rw [State.mbFill_standing, State.put_standing, State.upd_standing]
    · rw [State.put_standing, State.put_standing]
  · rfl

theorem State.snapLink_standing (s : State) (l : Link) (k : LinkSt) : (s.snapLink l k).standing = s.standing := by
  unfold State.snapLink
  simp only [State.setWord_standing]

theorem State.snap_standing (s : State) (l : Link) (pre : LinkSt) : (s.snap l pre).standing = s.standing := by
  unfold State.snap
  simp only [State.snapLink_standing, State.put_standing]

theorem State.prefetch_standing (s : State) (l : Link) : (s.prefetch l).standing = s.standing := by
  unfold State.prefetch
  simp only [State.lnk_standing, State.ite_standing, ite_self]

theorem State.indAddr_standing (s : State) (l : Link) (w : Word) : (s.indAddr l w).standing = s.standing := by
  unfold State.indAddr
  simp only [State.lnk_standing, State.prefetch_standing]

theorem State.indRead_standing (s : State) (l : Link) : (s.indRead l).1.standing = s.standing := by
  unfold State.indRead
  dsimp only
  repeat' split
  all_goals simp only [State.lnk_standing, State.inc_standing, State.prefetch_standing]

theorem State.indData_standing (s : State) (l : Link) (w : Word) (key : Bool) (hseq : Nat) : (s.indData l w key hseq).1.standing = s.standing := by
  unfold State.indData
  dsimp only
  repeat' split
  all_goals simp only [State.lnk_standing, State.inc_standing, State.keyRefused_standing, State.prefetch_standing, State.upd_standing]

theorem State.mgAct_standing (s : State) (q : IndWrite) : (s.mgAct q).standing = s.standing := by
  unfold State.mgAct
  dsimp only
  repeat' split
  all_goals simp only [State.fclkSet_standing, State.fbClr_standing, State.mwClr_standing, State.sealGo_standing, State.updGo_standing, State.idRescan_standing, State.idCntClr_standing]

theorem State.indApply_standing (s : State) (q : IndWrite) : (s.indApply q).standing = s.standing := by
  unfold State.indApply
  simp only [State.lnk_standing, State.writeFields_standing, State.mgAct_standing, State.ite_standing, ite_self, State.upd_standing]

theorem State.indRefetch_standing (s : State) (a : Nat) : (s.indRefetch a).standing = s.standing := by
  unfold State.indRefetch
  simp only [State.lnk_standing, State.ite_standing, ite_self]

theorem State.ringRel_standing (s : State) (q : Fin 5) (x : Nat) : (s.ringRel q x).standing = s.standing := by
  unfold State.ringRel
  dsimp only
  split
  · split
    · exact (State.cycle_standing _).trans (s.ring_standing _ _)
    · exact s.ring_standing _ _
  · rw [State.ite_standing, State.inc_standing, ite_self]

theorem State.ringWrite_standing (s : State) (l : Link) (a : Nat) (w : Word) : (s.ringWrite l a w).standing = s.standing := by
  unfold State.ringWrite
  dsimp only
  repeat' split
  all_goals simp only [State.lnk_standing, State.commitLink_standing, State.clrWord_standing, State.writeFields_standing, State.pulse_standing, State.ringRel_standing]

theorem State.peekAdvance_standing (s : State) (l : Link) (q : Fin 5) : (s.peekAdvance l q).standing = s.standing := by
  unfold State.peekAdvance
  simp only [State.lnk_standing, State.ite_standing, ite_self]

theorem State.coilClr_standing (s : State) (oc : Nat) (op : Nat) : (s.coilClr oc op).standing = s.standing := by
  unfold State.coilClr
  simp only [State.putBit_standing, State.put_standing, State.co_standing, State.ite_standing, forFin_standing, implies_true, ite_self]

theorem State.evstWrite_standing (s : State) (m : Nat) (w : Nat) : (s.evstWrite m w).standing = s.standing := by
  unfold State.evstWrite
  simp only [State.clrCnt_standing, State.putBit_standing, State.evRaise_standing, State.ite_standing, foldl_standing, implies_true, ite_self]

theorem State.injWrite_standing (s : State) (w : Word) : (s.injWrite w).standing = s.standing := by
  unfold State.injWrite
  simp only [State.writeFields_standing, State.put_standing, State.injectWord_standing, State.ite_standing, ite_self]

theorem State.tickClr_standing (s : State) (mx : Bool) (total : Bool) : (s.tickClr mx total).standing = s.standing := by
  unfold State.tickClr
  simp only [State.put_standing, State.ite_standing, foldl_standing, implies_true, ite_self]

theorem State.kaAct_standing (s : State) (l : Link) (a : Nat) (w : Nat) (pre : LinkSt) : (s.kaAct l a w pre).standing = s.standing := by
  unfold State.kaAct
  dsimp only
  split <;> simp only [State.axisResets_standing, State.strobe_standing, State.clrCnt_standing, State.snap_standing, State.clrWord_standing, State.put_standing, State.memCntClr_standing, State.memFirstClr_standing, State.v5Follow_standing, State.coilClr_standing, State.tripClear_standing, State.evstWrite_standing, State.ite_standing, ite_self, State.upd_standing]

theorem State.stAct_standing (s : State) (st : Fin 2) (o : Nat) (w : Nat) : (s.stAct st o w).standing = s.standing := by
  unfold State.stAct
  dsimp only
  split <;> simp only [State.svSoft_standing, State.svSoftInj_standing, State.clrWord_standing, State.clrCnt_standing, State.svCalZero_standing, State.svCalFull_standing, State.useFree_standing, State.svCalStore_standing, State.ite_standing, ite_self]

theorem State.dirRestart_standing (s : State) (n : Fin 8) : (s.dirRestart n).standing = s.standing := by
  unfold State.dirRestart
  simp only [State.put_standing, State.dpt_standing]

theorem State.dpCtl_standing (s : State) (n : Fin 8) (w : Nat) (high : Bool) : (s.dpCtl n w high).standing = s.standing := by
  unfold State.dpCtl
  simp only [State.encClear_standing, State.clrWord_standing, State.dirRestart_standing, State.ssiAsk_standing, State.ite_standing, ite_self]

theorem State.axAct_standing (s : State) (n : Fin 8) (o : Nat) (w : Nat) : (s.axAct n o w).standing = s.standing := by
  unfold State.axAct
  dsimp only
  split <;> simp only [State.closMaxClr_standing, State.ax_standing, State.clrWord_standing, State.calAbort_standing, State.useFree_standing, State.dpCtl_standing, State.ite_standing, ite_self]

theorem State.regAct_standing (s : State) (l : Link) (a : Nat) (w : Nat) (pre : LinkSt) : (s.regAct l a w pre).standing = s.standing := by
  unfold State.regAct
  simp only [State.tickClr_standing, State.kaAct_standing, State.stAct_standing, State.axAct_standing, State.ite_standing, ite_self]

theorem State.progWrite_standing (s : State) (a : Nat) (w : Word) (strobe : Bool) : (s.progWrite a w strobe).standing = s.standing := by
  unfold State.progWrite
  simp only [State.writeFields_standing, State.strobeGroup_standing, State.strobed_standing, State.ite_standing, ite_self]

theorem State.progAgain_standing (s : State) (a : Nat) : (s.progAgain a).standing = s.standing := by
  unfold State.progAgain
  simp only [State.progWrite_standing, State.strobeGroup_standing, State.ite_standing, foldl_standing, implies_true, ite_self]

theorem State.hostRead_standing (s : State) (l : Link) (a : Nat) : (s.hostRead l a).1.standing = s.standing := by
  unfold State.hostRead
  dsimp only
  repeat' split
  all_goals simp only [State.indRead_standing, State.peekAdvance_standing, State.mbRead_standing]

/-! ## Operations of Machine/WriteRows.lean -/

theorem State.rowDo_standing (s : State) (lk : Link) (a : Nat) (f : State → State) (hf : ∀ t : State, (f t).standing = t.standing) : (s.rowDo lk a f).standing = s.standing := by
  unfold State.rowDo
  simp only [State.hostBegin_standing, State.lnk_standing, State.ite_standing, ite_self, hf]

theorem State.rowMg_standing (s : State) (lk : Link) (addr : Nat) (w : Nat) : (s.rowMg lk addr w).standing = s.standing := by
  unfold State.rowMg
  simp only [State.hostBegin_standing, State.lnk_standing, State.inc_standing, State.keyRefused_standing, State.indApply_standing, State.indRefetch_standing, State.ite_standing, ite_self, State.upd_standing]

theorem State.backlogStep_standing (s : State) : (s.backlogStep).standing = s.standing := by
  unfold State.backlogStep
  dsimp only
  repeat' split
  all_goals simp only [State.post11_standing, State.dropCmd_standing, State.upd_standing]

theorem State.rowUpd_standing (s : State) (lk : Link) (op : Nat) (image : Bool) (slotB : Bool) : (s.rowUpd lk op image slotB).standing = s.standing := by
  unfold State.rowUpd
  simp only [State.rowMg_standing]

theorem State.updSame_standing (s : State) (lk : Link) (op : Nat) : (s.updSame lk op).standing = s.standing := by
  unfold State.updSame
  simp only [State.rowUpd_standing]

/-! ## Operations of Machine/Chain.lean -/

theorem State.chainPut_standing (s : State) (v : Fin 8) (a x : Nat) : (s.chainPut v a x).standing = s.standing := State.upd_standing _

theorem State.chainIssue_standing (s t : State) (v : Fin 8) (l : List (Word × Word × Word × Word)) (h : s.chainIssue v l = some t) : t.standing = s.standing := by
  induction l generalizing s with
  | nil => rw [← Option.some.inj h]
  | cons w l ih =>
    unfold State.chainIssue at h
    have taken := s.commit_standing (.chain v) v w
    split at h
    · next e =>
      rw [e] at taken
      exact (ih _ h).trans taken
    · cases h

theorem State.chainStage_standing (s : State) (v : Fin 8) (l : List (Fld × Nat)) : (s.chainStage v l).standing = s.standing := by
  unfold State.chainStage
  simp only [State.putSt_standing, State.strobeGroup_standing, foldl_standing, implies_true]

theorem State.chainSet_standing (s t : State) (v : Fin 8) (a d : Nat) (h : s.chainSet v a d = some t) : t.standing = s.standing := by
  unfold State.chainSet at h
  split at h
  case h_1 => exact s.chainIssue_standing _ _ _ h
  case h_7 =>
    split at h
    · next e =>
      rw [← Option.some.inj h]
      exact (State.upd_standing _).trans ((State.chainPut_standing _ _ _ _).trans (s.chainIssue_standing _ _ _ e))
    · cases h
  case h_8 => rw [← Option.some.inj h]
  all_goals
    split at h
    · cases h
    · rw [← Option.some.inj h]
      simp only [State.chainStage_standing, State.chainPut_standing]

theorem State.chainWrite_standing (s : State) (v : Fin 8) (a : Nat) (d : Nat) : (s.chainWrite v a d).standing = s.standing := by
  unfold State.chainWrite
  dsimp only
  split
  · next e =>
    split
    · exact s.chainSet_standing _ _ _ _ e
    · exact (State.upd_standing _).trans (s.chainSet_standing _ _ _ _ e)
  · exact State.upd_standing s

theorem State.chainLoad_standing (s : State) (v : Fin 8) (data : Nat) : (s.chainLoad v data).standing = s.standing := State.upd_standing _

theorem State.chainLatch_standing (s : State) (v : Fin 8) (w : Nat) : (s.chainLatch v w).standing = s.standing := by
  unfold State.chainLatch
  simp only [State.chainWrite_standing, State.chainLoad_standing, State.ite_standing, ite_self]

theorem State.chainBad_standing (s : State) : (s.chainBad).standing = s.standing := by
  unfold State.chainBad
  simp only [State.inc_standing, State.upd_standing]

theorem State.chainOne_standing (s : State) (v : Fin 8) (w : Nat) : (s.chainOne v w).standing = s.standing := by
  unfold State.chainOne
  simp only [State.chainLatch_standing, State.strobed_standing, State.ite_standing, ite_self]

/-! ## Operations of Machine/Frames.lean -/

theorem State.compose_standing (s : State) (l : Link) (status : Nat) (echo : Nat) (data : Nat) : (s.compose l status echo data).standing = s.standing := by
  unfold State.compose
  simp only [State.settle_standing, State.lnk_standing]

theorem State.notice_standing (s : State) (l : Link) (fcause : Nat) (alive : Nat) (hseq : Nat) : (s.notice l fcause alive hseq).standing = s.standing := by
  unfold State.notice
  simp only [State.compose_standing]

theorem State.hostAlive_standing (s : State) : (s.hostAlive).standing = s.standing := by
  unfold State.hostAlive
  simp only [State.bt_standing, State.put_standing, State.safeClear_standing, State.ite_standing, implies_true, ite_self]

theorem State.acceptWork_standing (s : State) (l : Link) (alive : Nat) (hseq : Nat) : (s.acceptWork l alive hseq).standing = s.standing := by
  unfold State.acceptWork
  simp only [State.inc_standing, State.lnk_standing, State.hostAlive_standing, State.ite_standing, ite_self]

theorem State.acceptFrame_standing (s : State) (l : Link) (alive hseq : Nat) : (s.acceptFrame l alive hseq).standing = s.standing := by
  unfold State.acceptFrame
  simp only [State.earlier_standing, State.acceptWork_standing, implies_true]

theorem State.noteWrite_standing (s : State) (l : Link) (h : HeldFrame) : (s.noteWrite l h).standing = s.standing := by
  unfold State.noteWrite
  simp only [State.lnk_standing, State.ite_standing, ite_self]

theorem State.gre_standing (s : State) (f : GrelasSt → GrelasSt) : (s.gre f).standing = s.standing := State.upd_standing _

theorem State.grFirst_standing (s : State) : (s.grFirst).standing = s.standing := by
  unfold State.grFirst
  simp only [State.lnk_standing, State.ite_standing, ite_self]

theorem State.grSlot_standing (s : State) : (s.grSlot).standing = s.standing := by
  unfold State.grSlot
  simp only [State.grFirst_standing, State.gre_standing]

theorem State.chainFollow_standing (s : State) : (s.chainFollow).standing = s.standing := by
  unfold State.chainFollow
  simp only [State.putB_standing, State.ite_standing, ite_self]

theorem State.openReply_standing (s : State) : (s.openReply).standing = s.standing := by
  unfold State.openReply
  simp only [State.lnk_standing, State.inc_standing, State.ite_standing, ite_self]

theorem State.frameOpen_standing (s : State) (mode3 : Bool) : (s.frameOpen mode3).standing = s.standing := by
  unfold State.frameOpen
  simp only [State.chainFollow_standing, State.put_standing, State.putB_standing, State.lnk_standing, State.openReply_standing, State.ite_standing, ite_self]

theorem State.frameUndo_standing (s : State) : (s.frameUndo).standing = s.standing := by
  unfold State.frameUndo
  dsimp only
  split <;> simp only [State.put_standing, State.lnk_standing, State.ite_standing, ite_self]

theorem State.frameShut_standing (s : State) : (s.frameShut).standing = s.standing := by
  unfold State.frameShut
  simp only [State.earlier_standing, State.put_standing, State.lnk_standing, implies_true]

/-! ## Operations of Machine/Grelas.lean -/

theorem State.grCheck_standing (s : State) (p : Packet) : (s.grCheck p).1.standing = s.standing := by
  unfold State.grCheck
  dsimp only
  repeat' split
  all_goals simp only [State.inc_standing, State.earlier_standing, State.putB_standing, implies_true]

theorem State.grAgain_standing (s : State) : (s.grAgain).standing = s.standing := by
  unfold State.grAgain
  simp only [State.inc_standing, State.grSlot_standing, State.gre_standing, State.ite_standing, ite_self]

theorem State.grRefuse_standing (s : State) (b : List Nat) : (s.grRefuse b).standing = s.standing := by
  unfold State.grRefuse
  simp only [State.inc_standing, State.lnk_standing, State.notice_standing, State.grSlot_standing]

theorem State.grLate_standing (s : State) (b : List Nat) : (s.grLate b).standing = s.standing := by
  unfold State.grLate
  simp only [State.inc_standing, State.lnk_standing, State.notice_standing, State.grSlot_standing, State.acceptFrame_standing, State.compose_standing, State.grAgain_standing, State.ite_standing, ite_self]

theorem State.grStamp_standing (s : State) : (s.grStamp).standing = s.standing := by
  unfold State.grStamp
  simp only [State.gre_standing, State.lnk_standing, State.ite_standing, ite_self]

theorem State.grCompose_standing (s : State) : (s.grCompose).standing = s.standing := by
  unfold State.grCompose
  simp only [State.lnk_standing, State.grAgain_standing, State.grLate_standing, State.settle_standing, State.grStamp_standing, State.gre_standing, State.ite_standing, foldl_standing, implies_true, ite_self]

theorem State.grTick_standing (s : State) (p : GrPacket) : (s.grTick p).standing = s.standing := by
  unfold State.grTick
  simp only [State.inc_standing, State.gre_standing, State.ite_standing, ite_self]

/-! ## Operations of Machine/Programs.lean -/

theorem State.ctxFetch_standing (s : State) (x : Fin 4) (k : Nat) : (s.ctxFetch x k).standing = s.standing := by
  unfold State.ctxFetch
  simp only [State.memRead_standing, State.ite_standing, foldl_standing, implies_true, ite_self]

theorem State.ctxRun_standing (s : State) (x : Fin 4) (op : Nat) (ws : List Nat) (f : State → State) (hf : ∀ t : State, (f t).standing = t.standing) : (s.ctxRun x op ws f).standing = s.standing := by
  unfold State.ctxRun
  simp only [State.ctx_standing, State.ctxFetch_standing, State.stopCtx_standing, State.ite_standing, ite_self, hf]

theorem State.ctxNext_standing (s : State) (x : Fin 4) (k : Nat) : (s.ctxNext x k).standing = s.standing := by
  unfold State.ctxNext
  simp only [State.ctxTo_standing]

theorem State.ctxHold_standing (s : State) (x : Fin 4) (w : PWait) : (s.ctxHold x w).standing = s.standing := by
  unfold State.ctxHold
  simp only [State.ctx_standing]

theorem State.ctxCommit_standing (s : State) (x : Fin 4) (r : Nat) (w : Word × Word × Word × Word) : (s.ctxCommit x r w).1.standing = s.standing := by
  unfold State.ctxCommit
  dsimp only
  split <;> simp only [State.ctx_standing, State.commit_standing]

theorem State.ctxWaitTag_standing (s : State) (x : Fin 4) (w : Nat) (tag : Nat) (k : Nat) (cause : Nat) (wait : PWait) : (s.ctxWaitTag x w tag k cause wait).standing = s.standing := by
  unfold State.ctxWaitTag
  dsimp only
  split <;> simp only [State.stopCtx_standing, State.ctx_standing, State.ctxNext_standing, State.ctxFail_standing, State.ctxHold_standing, State.ite_standing, ite_self]

theorem State.ctxPush_standing (s : State) (x : Fin 4) (w : Nat) (w2 : Nat) (w3 : Nat) : (s.ctxPush x w w2 w3).standing = s.standing := by
  unfold State.ctxPush
  simp only [State.stopCtx_standing, State.ctxHold_standing, State.ctxCommit_standing, State.ctxNext_standing, State.ctxTo_standing, State.ite_standing, ite_self]

theorem State.ctxHome_standing (s : State) (x : Fin 4) (w : Nat) (w2 : Nat) : (s.ctxHome x w w2).standing = s.standing := by
  unfold State.ctxHome
  dsimp only
  split <;> simp only [State.ctxWaitTag_standing, State.stopCtx_standing, State.ctxHold_standing, State.ctxCommit_standing, State.ctxFail_standing, State.ite_standing, ite_self]

theorem State.ctxSetreg_standing (s : State) (x : Fin 4) (w : Nat) : (s.ctxSetreg x w).standing = s.standing := by
  unfold State.ctxSetreg
  dsimp only
  split
  · exact s.stopCtx_standing x 6
  · exact (State.ctxNext_standing _ x 1).trans (s.progWrite_standing _ _ _)

/-! ## Operations of Machine/Tick.lean -/

theorem State.pinSample_standing (s : State) (n : Fin 8) (pins : BitVec 48) : (s.pinSample n pins).standing = s.standing := by
  unfold State.pinSample
  simp only [State.setWord_standing, State.ax_standing, State.ite_standing, ite_self]

theorem State.pinFlags_standing (s : State) (n : Fin 8) : (s.pinFlags n).standing = s.standing := by
  unfold State.pinFlags
  simp only [State.putB_standing]

theorem State.restTick_standing (s : State) (n : Fin 8) : (s.restTick n).standing = s.standing := by
  unfold State.restTick
  simp only [State.ax_standing]

theorem State.dueFaults_standing (s : State) (n : Fin 8) : (s.dueFaults n).standing = s.standing := by
  unfold State.dueFaults
  simp only [State.ax_standing, State.axisFault_standing, State.encTick_standing, State.ite_standing, ite_self]

theorem State.causeTick_standing (s : State) (n : Fin 8) : (s.causeTick n).standing = s.standing := by
  unfold State.causeTick
  simp only [State.axisFault_standing, State.ite_standing, ite_self]

theorem State.overdue_standing (s : State) (k : Nat) : (s.overdue k).standing = s.standing := by
  induction k generalizing s with
  | zero => rfl
  | succ k ih =>
    unfold State.overdue
    rw [State.ite_standing, ih, State.mm_standing, State.scrubNext_standing, State.memRead_standing, ite_self]

theorem State.scrubTick_standing (s : State) : (s.scrubTick).standing = s.standing := by
  unfold State.scrubTick
  simp only [State.overdue_standing, State.mm_standing, State.ite_standing, ite_self]

theorem State.arbTick_standing (s : State) : (s.arbTick).standing = s.standing := by
  unfold State.arbTick
  simp only [State.put_standing, State.ite_standing, ite_self, State.upd_standing]

theorem State.markOkTick_standing (s : State) : (s.markOkTick).standing = s.standing := by
  unfold State.markOkTick
  dsimp only
  split <;> simp only [State.put_standing, State.ite_standing, ite_self]

theorem State.markSample_standing (s : State) (pins : BitVec 48) : (s.markSample pins).standing = s.standing := by
  unfold State.markSample
  simp only [State.put_standing, State.pinSample_standing, State.dpTick_standing, State.obsMark_standing, State.restTick_standing, State.coilTick_standing, forFin_standing, implies_true]

theorem State.markApply_standing (s : State) : (s.markApply).standing = s.standing := by
  unfold State.markApply
  simp only [State.idTick_standing, State.ceilTick_standing, State.applyStrobes_standing, State.pinFlags_standing, State.gathered_standing, State.dueFaults_standing, State.rstAxis_standing, State.rstRings_standing, State.execMark_standing, State.causeTick_standing, State.tripTick_standing, forFin_standing, implies_true]

theorem State.markRun_standing (s : State) : (s.markRun).standing = s.standing := by
  unfold State.markRun
  simp only [State.moveTick_standing, State.bdTick_standing, State.calMark_standing, State.idchkTick_standing, State.dirCheck_standing, State.scrubTick_standing, forFin_standing, implies_true, State.upd_standing]

theorem State.tickMark_standing (s : State) (pins : BitVec 48) : (s.tickMark pins).standing = s.standing := by
  unfold State.tickMark
  simp only [State.arbTick_standing, State.markOkTick_standing, State.markSample_standing, State.markApply_standing, State.markRun_standing, State.upd_standing]

theorem State.srcLost_standing (s : State) (b : Bool) : (s.srcLost b).standing = s.standing := by
  unfold State.srcLost
  simp only [State.putB_standing, State.upd_standing]

theorem State.extMark_standing (s : State) (pins : BitVec 48) : (s.extMark pins).standing = s.standing := by
  unfold State.extMark
  simp only [State.srcLost_standing, State.tickMark_standing, State.ite_standing, ite_self]

theorem State.grMark_standing (s : State) : (s.grMark).standing = s.standing := by
  unfold State.grMark
  dsimp only
  split <;> simp only [State.put_standing, State.gre_standing]

theorem State.torqTick_standing (s : State) (n : Fin 8) : (s.torqTick n).standing = s.standing := by
  unfold State.torqTick
  dsimp only
  repeat' split
  all_goals simp only [State.put_standing, State.ax_standing]

theorem State.planTick_standing (s : State) (n : Fin 8) : (s.planTick n).standing = s.standing := by
  unfold State.planTick
  split <;> simp only [State.ite_standing, State.followTick_standing, State.homeTick_standing, State.coordTick_standing,
    State.profTick_standing, State.homeQuiet_standing, State.blendRun_standing, ite_self]

theorem State.moveCurrent_standing (s : State) (n : Fin 8) (old : Int) : (s.moveCurrent n old).standing = s.standing := by
  unfold State.moveCurrent
  simp only [State.ax_standing]

theorem State.axisWork_standing (s : State) (n : Fin 8) : (s.axisWork n).standing = s.standing := by
  unfold State.axisWork
  simp only [State.obsRun_standing, State.closureRun_standing, State.stallRun_standing, State.closureNote_standing, State.stallPlan_standing, State.closureAct_standing, State.torqTick_standing, State.hwLimit_standing, State.planTick_standing, State.limNote_standing, State.ax_standing, State.moveCurrent_standing, State.holdStartRamp_standing, State.sequence_standing, State.obsPublish_standing, State.ite_standing, ite_self]

theorem State.capFreeze_standing (s : State) : (s.capFreeze).standing = s.standing := by
  unfold State.capFreeze
  dsimp only
  split <;> simp only [State.pulse_standing, State.ite_standing, ite_self, State.upd_standing]

theorem State.capSet_standing (s : State) : (s.capSet).standing = s.standing := by
  unfold State.capSet
  dsimp only
  repeat' split
  all_goals simp only [State.inc_standing, State.ring_standing, State.upd_standing]

theorem State.mbCommit_standing (s : State) : (s.mbCommit).standing = s.standing := by
  refine forFin_standing s _ fun m x => ?_
  split
  · rw [State.ite_standing, State.mbDeliver_standing, State.upd_standing, ite_self]
  · rfl

theorem State.hwdogTick_standing (s : State) (n : Fin 8) : (s.hwdogTick n).standing = s.standing := by
  unfold State.hwdogTick
  simp only [State.axisFault_standing, State.ite_standing, ite_self]

theorem State.tickStat_standing (s : State) (fin : Vector (BitVec 16) 8) (late : Fin 8 → Bool) : (s.tickStat fin late).standing = s.standing := by
  unfold State.tickStat
  simp only [State.maxPut_standing, State.put_standing, State.putB_standing, State.inc_standing, State.pulse_standing, State.safeCause_standing, State.safeClear_standing, State.ite_standing, foldl_standing, implies_true, ite_self, State.upd_standing]

theorem State.commitPoint_standing (s : State) (fin : Vector (BitVec 16) 8) : (s.commitPoint fin).standing = s.standing := by
  unfold State.commitPoint
  dsimp only
  rw [State.upd_standing, State.tickStat_standing, State.capSet_standing, State.govern_standing, State.mbCommit_standing,
    State.commitEnds_standing, State.memWork_standing, forFin_standing _ _ fun n x => x.hwdogTick_standing n,
    State.movesCommit_standing, forFin_standing, forFin_standing _ _ fun n x => x.boostRun_standing n, State.upd_standing,
    State.capFreeze_standing]
  intro n x
  rw [State.ite_standing, State.ite_standing, State.lateAxis_standing, State.axisWork_standing, ite_self, ite_self]

end Sys2Proof.Machine
end

section
/-!
PROOF. Commands that leave the standing of the device alone.
-/

namespace Sys2Proof.Machine

open Host

/-- The command answers a next state and leaves what `standing` holds. -/
def Stays (o : Outcome State Fault Refusal) (u : State) : Prop := ∃ e, o = done e ∧ e.standing = u.standing

theorem execBackdriveEpisodeStart_stays (dt : Nat) (n : Fin 8) (s : State) : Stays (execBackdriveEpisodeStart dt n s) (s.tickTo dt) := by
  refine ⟨_, rfl, ?_⟩
  simp only [State.put_standing, State.bdu_standing, State.bdShow_standing, State.pulse_standing, State.ite_standing, ite_self]

theorem execBackdriveEpisodeEnd_stays (dt : Nat) (n : Fin 8) (s : State) : Stays (execBackdriveEpisodeEnd dt n s) (s.tickTo dt) := by
  refine ⟨_, rfl, ?_⟩
  simp only [State.bdEnd_standing, State.ite_standing, ite_self]

theorem execIndexMark_stays (dt : Nat) (p : Held 8) (s : State) : Stays (execIndexMark dt p s) (s.tickTo dt) := by
  refine ⟨_, rfl, ?_⟩
  dsimp only
  repeat' split
  all_goals simp only [State.put_standing, State.dpt_standing, State.idxCheck_standing]

theorem execEncoderTransition_stays (dt : Nat) (n : Fin 8) (la lb : Stood) (s : State) : Stays (execEncoderTransition dt n la lb s) (s.tickTo dt) := by
  refine ⟨_, rfl, ?_⟩
  dsimp only
  repeat' split
  all_goals simp only [State.dpt_standing, State.inc_standing, State.encFault_standing, State.dpRun_standing, State.idxMissing_standing]

theorem execEncoderStandstill_stays (dt : Nat) (n : Fin 8) (s : State) : Stays (execEncoderStandstill dt n s) (s.tickTo dt) := by
  refine ⟨_, rfl, ?_⟩
  simp only [State.put_standing, State.dpt_standing, State.ite_standing, ite_self]

theorem execSsiAutoRequest_stays (dt : Nat) (n : Fin 8) (high : Bool) (s : State) : Stays (execSsiAutoRequest dt n high s) (s.tickTo dt) := by
  refine ⟨_, rfl, ?_⟩
  simp only [State.dpt_standing, State.ssiAsk_standing, State.ite_standing, ite_self]

theorem execSsiWordDone_stays (dt : Nat) (n : Fin 8) (w : BitVec 32) (endBit : Bool) (s : State) : Stays (execSsiWordDone dt n w endBit s) (s.tickTo dt) := by
  refine ⟨_, rfl, ?_⟩
  dsimp only
  split <;> simp only [State.dpt_standing, State.ssiError_standing, State.ssiGood_standing, State.ite_standing, ite_self]

theorem execSsiRecoveryEnd_stays (dt : Nat) (n : Fin 8) (high : Bool) (s : State) : Stays (execSsiRecoveryEnd dt n high s) (s.tickTo dt) := by
  refine ⟨_, rfl, ?_⟩
  dsimp only
  split <;> simp only [State.put_standing, State.dpt_standing, State.ssiError_standing, State.ite_standing, ite_self]

theorem execPwmBoundary_stays (dt : Nat) (c : Fin 16) (s : State) : Stays (execPwmBoundary dt c s) (s.tickTo dt) := by
  refine ⟨_, rfl, ?_⟩
  simp only [State.boundary_standing, State.ite_standing, ite_self]

theorem execPwmEdge_stays (dt : Nat) (c : Fin 16) (s : State) : Stays (execPwmEdge dt c s) (s.tickTo dt) := by
  refine ⟨_, rfl, ?_⟩
  simp only [State.co_standing, State.preBoundary_standing, State.ite_standing, ite_self]

theorem execPeakComparatorTrip_stays (dt : Nat) (c : Fin 16) (s : State) : Stays (execPeakComparatorTrip dt c s) (s.tickTo dt) := by
  refine ⟨_, rfl, ?_⟩
  simp only [State.co_standing, State.endOnTime_standing, State.endDecay_standing, State.ite_standing, ite_self]

theorem execPhaseTimeLimit_stays (dt : Nat) (c : Fin 16) (s : State) : Stays (execPhaseTimeLimit dt c s) (s.tickTo dt) := by
  refine ⟨_, rfl, ?_⟩
  simp only [State.inc_standing, State.co_standing, State.endOnTime_standing, State.endDecay_standing, State.ite_standing, ite_self]

theorem execSyncPulse_stays (dt : Nat) (c : Fin 16) (s : State) : Stays (execSyncPulse dt c s) (s.tickTo dt) := by
  refine ⟨_, rfl, ?_⟩
  dsimp only
  split <;> simp only [State.co_standing, State.relayOn_standing, State.boundary_standing, State.ite_standing, ite_self]

theorem execCoilSample_stays (dt : Nat) (c : Fin 16) (slot : Fin 3) (s : State) : Stays (execCoilSample dt c slot s) (s.tickTo dt) := by
  refine ⟨_, rfl, ?_⟩
  dsimp only
  repeat' split
  all_goals simp only [State.co_standing, State.inc_standing]

theorem execCoilConversionDone_stays (dt : Nat) (c : Fin 16) (code : BitVec 12) (s : State) : Stays (execCoilConversionDone dt c code s) (s.tickTo dt) := by
  refine ⟨_, rfl, ?_⟩
  dsimp only
  split <;> simp only [State.inc_standing, State.co_standing, State.putI_standing, State.ite_standing, ite_self]

theorem execHoldReductionStart_stays (dt : Nat) (n : Fin 8) (s : State) : Stays (execHoldReductionStart dt n s) (s.tickTo dt) := by
  refine ⟨_, rfl, ?_⟩
  simp only [State.holdStartRamp_standing, State.ite_standing, ite_self]

theorem execBoostLock_stays (dt : Nat) (n : Fin 8) (s : State) : Stays (execBoostLock dt n s) (s.tickTo dt) := by
  refine ⟨_, rfl, ?_⟩
  simp only [State.boostRun_standing, State.boostLock_standing]

theorem execBoostUnlock_stays (dt : Nat) (n : Fin 8) (s : State) : Stays (execBoostUnlock dt n s) (s.tickTo dt) := by
  refine ⟨_, rfl, ?_⟩
  simp only [State.boostRun_standing, State.boostUnlock_standing]

theorem execIdchkPulseEnd_stays (dt : Nat) (n : Fin 8) (reached : Bool) (s : State) : Stays (execIdchkPulseEnd dt n reached s) (s.tickTo dt) := by
  refine ⟨_, rfl, ?_⟩
  dsimp only
  split <;> simp only [State.useFree_standing, State.putBit_standing, State.put_standing, State.ax_standing, State.ite_standing, ite_self]

theorem execDecayZeroCross_stays (dt : Nat) (c : Fin 16) (s : State) : Stays (execDecayZeroCross dt c s) (s.tickTo dt) := by
  refine ⟨_, rfl, ?_⟩
  simp only [State.co_standing, State.idZero_standing, State.ite_standing, ite_self]

theorem execIdchkComplete_stays (dt : Nat) (n : Fin 8) (y z : Unit) (s : State) : Stays (execIdchkComplete dt n y z s) (s.tickTo dt) := by
  refine ⟨_, rfl, ?_⟩
  dsimp only
  repeat' split
  all_goals simp only [State.idchkEnd_standing, State.useFree_standing, State.put_standing, State.idSweep_standing, State.autofix_standing]

theorem execObsCalStillEnd_stays (dt : Nat) (n : Fin 8) (s : State) : Stays (execObsCalStillEnd dt n s) (s.tickTo dt) := by
  refine ⟨_, rfl, ?_⟩
  split <;> simp only [State.calStillEnd_standing, State.ite_standing, ite_self]

theorem execObsCalComplete_stays (dt : Nat) (n : Fin 8) (s : State) : Stays (execObsCalComplete dt n s) (s.tickTo dt) := by
  refine ⟨_, rfl, ?_⟩
  simp only [State.calEnd_standing, State.ite_standing, ite_self]

theorem execObsCalTimeout_stays (dt : Nat) (n : Fin 8) (s : State) : Stays (execObsCalTimeout dt n s) (s.tickTo dt) := by
  refine ⟨_, rfl, ?_⟩
  simp only [State.calEnd_standing, State.ite_standing, ite_self]

theorem execStallReport_stays (dt : Nat) (n : Fin 8) (s : State) : Stays (execStallReport dt n s) (s.tickTo dt) := by
  refine ⟨_, rfl, ?_⟩
  simp only [State.keepAxis_standing, State.obsRun_standing, State.stallRun_standing, State.ite_standing, ite_self]

theorem execClosureError_stays (dt : Nat) (n : Fin 8) (s : State) : Stays (execClosureError dt n s) (s.tickTo dt) := by
  refine ⟨_, rfl, ?_⟩
  simp only [State.keepAxis_standing, State.closureRun_standing, State.closureNote_standing, State.ite_standing, ite_self]

theorem execStepPulse_stays (dt : Nat) (n : Fin 8) (dir : Bool) (s : State) : Stays (execStepPulse dt n dir s) (s.tickTo dt) := by
  refine ⟨_, rfl, ?_⟩
  simp only [State.ax_standing, State.inc_standing, State.ite_standing, ite_self]

theorem execHomingTimeout_stays (dt : Nat) (n : Fin 8) (s : State) : Stays (execHomingTimeout dt n s) (s.tickTo dt) := by
  refine ⟨_, rfl, ?_⟩
  simp only [State.homeFail_standing, State.ite_standing, ite_self]

theorem execIdPresencePoll_stays (dt : Nat) (ack : BitVec 8) (s : State) : Stays (execIdPresencePoll dt ack s) (s.tickTo dt) := by
  refine ⟨_, rfl, ?_⟩
  simp only [State.idSeen_standing, State.idMissed_standing, State.su_standing, State.ite_standing, ite_self, forFin_standing, implies_true]

theorem execIdLinePresentRead_stays (dt : Nat) (n : Fin 8) (s : State) : Stays (execIdLinePresentRead dt n s) (s.tickTo dt) := by
  refine ⟨_, rfl, ?_⟩
  split <;> simp only [State.idStart_standing, State.ite_standing, ite_self]

theorem execIdReadDone_stays (dt : Nat) (n : Fin 8) (rd : IdRead) (s : State) : Stays (execIdReadDone dt n rd s) (s.tickTo dt) := by
  refine ⟨_, rfl, ?_⟩
  simp only [State.idResult_standing, State.ite_standing, ite_self]

theorem execIdReadRetry_stays (dt : Nat) (n : Fin 8) (s : State) : Stays (execIdReadRetry dt n s) (s.tickTo dt) := by
  refine ⟨_, rfl, ?_⟩
  split <;> simp only [State.mon_standing, State.ite_standing, ite_self]

theorem execBrakeClampEngage_stays (dt : Nat) (st : Fin 2) (s : State) : Stays (execBrakeClampEngage dt st s) (s.tickTo dt) := by
  refine ⟨_, rfl, ?_⟩
  simp only [State.put_standing, State.pw_standing, State.levelOn_standing, State.stationFault_standing, State.ite_standing, ite_self]

theorem execBrakeClampRelease_stays (dt : Nat) (st : Fin 2) (s : State) : Stays (execBrakeClampRelease dt st s) (s.tickTo dt) := by
  refine ⟨_, rfl, ?_⟩
  simp only [State.put_standing, State.pw_standing, State.levelOff_standing, State.fbAdd_standing, State.ite_standing, ite_self]

theorem execBlockingSwitchOn_stays (dt : Nat) (st : Fin 2) (s : State) : Stays (execBlockingSwitchOn dt st s) (s.tickTo dt) := by
  refine ⟨_, rfl, ?_⟩
  simp only [State.pw_standing, State.ite_standing, ite_self]

theorem execBlockingSwitchOff_stays (dt : Nat) (st : Fin 2) (s : State) : Stays (execBlockingSwitchOff dt st s) (s.tickTo dt) := by
  refine ⟨_, rfl, ?_⟩
  simp only [State.pw_standing]

theorem execVmLockout_stays (dt : Nat) (st : Fin 2) (mv : BitVec 16) (s : State) : Stays (execVmLockout dt st mv s) (s.tickTo dt) := by
  refine ⟨_, rfl, ?_⟩
  simp only [State.lockout_standing, State.ite_standing, ite_self]

theorem execVmLockoutRelease_stays (dt : Nat) (st : Fin 2) (s : State) : Stays (execVmLockoutRelease dt st s) (s.tickTo dt) := by
  refine ⟨_, rfl, ?_⟩
  simp only [State.put_standing, State.ite_standing, ite_self]

theorem execUvWarnChange_stays (dt : Nat) (st : Fin 2) (below : Bool) (s : State) : Stays (execUvWarnChange dt st below s) (s.tickTo dt) := by
  refine ⟨_, rfl, ?_⟩
  simp only [State.putB_standing]

theorem execVmOvervoltage_stays (dt : Nat) (st : Fin 2) (mv : BitVec 16) (s : State) : Stays (execVmOvervoltage dt st mv s) (s.tickTo dt) := by
  refine ⟨_, rfl, ?_⟩
  simp only [State.put_standing, State.stationFault_standing, State.levelOn_standing, State.fbAdd_standing, State.ite_standing, ite_self]

theorem execVmOvervoltageClear_stays (dt : Nat) (st : Fin 2) (mv : BitVec 16) (s : State) : Stays (execVmOvervoltageClear dt st mv s) (s.tickTo dt) := by
  refine ⟨_, rfl, ?_⟩
  simp only [State.put_standing, State.levelOff_standing]

theorem execVmReversed_stays (dt : Nat) (st : Fin 2) (mv : BitVec 16) (s : State) : Stays (execVmReversed dt st mv s) (s.tickTo dt) := by
  refine ⟨_, rfl, ?_⟩
  simp only [State.put_standing, State.pw_standing, State.lockout_standing, State.levelOn_standing, State.fbAdd_standing, State.ite_standing, ite_self]

theorem execVmReverseClear_stays (dt : Nat) (st : Fin 2) (s : State) : Stays (execVmReverseClear dt st s) (s.tickTo dt) := by
  refine ⟨_, rfl, ?_⟩
  simp only [State.put_standing, State.levelOff_standing]

theorem execBrakeDumpOn_stays (dt : Nat) (s : State) : Stays (execBrakeDumpOn dt s) (s.tickTo dt) := by
  refine ⟨_, rfl, ?_⟩
  simp only [State.put_standing, State.pw_standing, State.ite_standing, ite_self]

theorem execBrakeDumpRelease_stays (dt : Nat) (s : State) : Stays (execBrakeDumpRelease dt s) (s.tickTo dt) := by
  refine ⟨_, rfl, ?_⟩
  simp only [State.dumpOff_standing, State.pw_standing, State.ite_standing, ite_self]

theorem execBrakeHot_stays (dt : Nat) (s : State) : Stays (execBrakeHot dt s) (s.tickTo dt) := by
  refine ⟨_, rfl, ?_⟩
  simp only [State.dumpOff_standing, State.put_standing, State.pw_standing, State.levelOn_standing, State.ite_standing, ite_self]

theorem execBrakeHoldoffEnd_stays (dt : Nat) (s : State) : Stays (execBrakeHoldoffEnd dt s) (s.tickTo dt) := by
  refine ⟨_, rfl, ?_⟩
  simp only [State.put_standing, State.levelOff_standing, State.ite_standing, ite_self]

theorem execLogicSourceChange_stays (dt : Nat) (toVm : Bool) (s : State) : Stays (execLogicSourceChange dt toVm s) (s.tickTo dt) := by
  refine ⟨_, rfl, ?_⟩
  simp only [State.putB_standing, State.evPwrSrc_standing, State.ite_standing, ite_self]

theorem execFullLogicPowerLoss_stays (dt : Nat) (s : State) : Stays (execFullLogicPowerLoss dt s) (s.tickTo dt) := by
  refine ⟨_, rfl, ?_⟩
  simp only [State.safeCause_standing, State.endAll_standing, State.pw_standing, State.ite_standing, ite_self]

theorem execFullLogicPowerDown_stays (dt : Nat) (s : State) : Stays (execFullLogicPowerDown dt s) (s.tickTo dt) := by
  refine ⟨_, rfl, ?_⟩
  split <;> simp only [State.flDown_standing, State.evPwrSrc_standing, State.ite_standing, ite_self]

theorem execV5outOverload_stays (dt : Nat) (s : State) : Stays (execV5outOverload dt s) (s.tickTo dt) := by
  refine ⟨_, rfl, ?_⟩
  simp only [State.put_standing, State.pw_standing, State.levelOn_standing, State.ite_standing, ite_self]

theorem execV5outRetry_stays (dt : Nat) (s : State) : Stays (execV5outRetry dt s) (s.tickTo dt) := by
  refine ⟨_, rfl, ?_⟩
  split <;> simp only [State.v5Switch_standing, State.pw_standing, State.ite_standing, ite_self]

theorem execV5outFaultClear_stays (dt : Nat) (s : State) : Stays (execV5outFaultClear dt s) (s.tickTo dt) := by
  refine ⟨_, rfl, ?_⟩
  split <;> simp only [State.put_standing, State.pw_standing, State.levelOff_standing, State.ite_standing, ite_self]

theorem execPowerFail_stays (dt : Nat) (vm0 vm1 vlink vbak : BitVec 16) (s : State) : Stays (execPowerFail dt vm0 vm1 vlink vbak s) (s.tickTo dt) := by
  refine ⟨_, rfl, ?_⟩
  simp only [State.flDown_standing, State.pw_standing, State.mwStop_standing, State.su_standing, State.fbAdd_standing, State.ite_standing, ite_self]

theorem execHoldupEnd_stays (dt : Nat) (s : State) : Stays (execHoldupEnd dt s) (s.tickTo dt) := by
  refine ⟨_, rfl, ?_⟩
  simp only [State.pw_standing, State.ite_standing, ite_self]

theorem execFetOvercurrent_stays (dt : Nat) (c : Fin 16) (fets : BitVec 4) (s : State) : Stays (execFetOvercurrent dt c fets s) (s.tickTo dt) := by
  refine ⟨_, rfl, ?_⟩
  simp only [State.co_standing, State.useFree_standing, State.putBit_standing, State.put_standing, State.pulse_standing, State.ax_standing, State.fbAdd_standing, State.ite_standing, ite_self]

theorem execOpenCoilDetect_stays (dt : Nat) (c : Fin 16) (s : State) : Stays (execOpenCoilDetect dt c s) (s.tickTo dt) := by
  refine ⟨_, rfl, ?_⟩
  simp only [State.putBit_standing, State.pulse_standing, State.co_standing, State.axisFault_standing, State.ite_standing, ite_self]

theorem execThermalBackstop_stays (dt : Nat) (st : Fin 2) (k : Fin 3) (temp : BitVec 16) (s : State) : Stays (execThermalBackstop dt st k temp s) (s.tickTo dt) := by
  refine ⟨_, rfl, ?_⟩
  simp only [State.pw_standing, State.tempStat_standing, State.levelOn_standing, State.stationFault_standing, State.ite_standing, ite_self]

theorem execThermalBackstopRelease_stays (dt : Nat) (st : Fin 2) (k : Fin 3) (temp : BitVec 16) (s : State) : Stays (execThermalBackstopRelease dt st k temp s) (s.tickTo dt) := by
  refine ⟨_, rfl, ?_⟩
  simp only [State.pw_standing, State.tempStat_standing, State.levelOff_standing, State.ite_standing, ite_self]

theorem execTempReadingStale_stays (dt : Nat) (st : Fin 2) (s : State) : Stays (execTempReadingStale dt st s) (s.tickTo dt) := by
  refine ⟨_, rfl, ?_⟩
  simp only [State.pw_standing, State.ite_standing, ite_self]

theorem execSurveyEntryComplete_stays (dt : Nat) (st : Fin 2) (s : State) : Stays (execSurveyEntryComplete dt st s) (s.tickTo dt) := by
  refine ⟨_, rfl, ?_⟩
  simp only [State.svClose_standing, State.ite_standing, ite_self]

theorem execSurveyConversionDone_stays (dt : Nat) (st : Fin 2) (uv : BitVec 32) (s : State) : Stays (execSurveyConversionDone dt st uv s) (s.tickTo dt) := by
  refine ⟨_, rfl, ?_⟩
  dsimp only
  repeat' split
  all_goals simp only [State.svu_standing, State.svClose_standing, State.inc_standing, State.svHk_standing]

theorem execXchkFail_stays (dt : Nat) (s : State) : Stays (execXchkFail dt s) (s.tickTo dt) := by
  refine ⟨_, rfl, ?_⟩
  simp only [State.xchkFail_standing]

theorem execHousekeepingComplete_stays (dt : Nat) (st : Fin 2) (s : State) : Stays (execHousekeepingComplete dt st s) (s.tickTo dt) := by
  refine ⟨_, rfl, ?_⟩
  simp only [State.svHkDone_standing]

theorem execSurveyRoundStart_stays (dt : Nat) (st : Fin 2) (s : State) : Stays (execSurveyRoundStart dt st s) (s.tickTo dt) := by
  refine ⟨_, rfl, ?_⟩
  simp only [State.svWork_standing, State.ite_standing, ite_self]

theorem execSurveyTickTrigger_stays (dt : Nat) (st : Fin 2) (s : State) : Stays (execSurveyTickTrigger dt st s) (s.tickTo dt) := by
  refine ⟨_, rfl, ?_⟩
  simp only [State.svu_standing, State.svTrigger_standing, State.ite_standing, ite_self]

theorem execSurveyInjectedTickTrigger_stays (dt : Nat) (st : Fin 2) (s : State) : Stays (execSurveyInjectedTickTrigger dt st s) (s.tickTo dt) := by
  refine ⟨_, rfl, ?_⟩
  simp only [State.svu_standing, State.svInjTrigger_standing, State.ite_standing, ite_self]

theorem execAintrgEdge_stays (e : Rise) (s : State) : Stays (execAintrgEdge e s) (s.tickTo e.dt) := by
  refine ⟨_, rfl, ?_⟩
  simp only [State.svInjTrigger_standing, State.svTrigger_standing, State.ite_standing, ite_self, forFin_standing, implies_true]

theorem execHousekeepingDue_stays (dt : Nat) (st : Fin 2) (s : State) : Stays (execHousekeepingDue dt st s) (s.tickTo dt) := by
  refine ⟨_, rfl, ?_⟩
  rw [State.ite_standing, ite_eq_right_iff]
  intro _
  split
  · simp only [State.ite_standing, State.svu_standing, ite_self]
  · exact State.svWork_standing _ _ _

theorem execSurveyPowerDown_stays (dt : Nat) (st : Fin 2) (s : State) : Stays (execSurveyPowerDown dt st s) (s.tickTo dt) := by
  refine ⟨_, rfl, ?_⟩
  simp only [State.put_standing, State.ite_standing, ite_self]

theorem execSurveyStartupDone_stays (dt : Nat) (st : Fin 2) (s : State) : Stays (execSurveyStartupDone dt st s) (s.tickTo dt) := by
  refine ⟨_, rfl, ?_⟩
  split <;> simp only [State.svu_standing, State.svNext_standing, State.ite_standing, ite_self]

theorem execSvCalReadingsDone_stays (dt : Nat) (st : Fin 2) (s : State) : Stays (execSvCalReadingsDone dt st s) (s.tickTo dt) := by
  refine ⟨_, rfl, ?_⟩
  simp only [State.put_standing, State.svu_standing, State.useFree_standing, State.ite_standing, ite_self]

theorem execMoistureRound_stays (dt : Nat) (s : State) : Stays (execMoistureRound dt s) (s.tickTo dt) := by
  refine ⟨_, rfl, ?_⟩
  simp only [State.put_standing, State.su_standing, State.mwNext_standing, State.ite_standing, ite_self]

theorem execMoistureTest_stays (dt : Nat) (mv : BitVec 16) (s : State) : Stays (execMoistureTest dt mv s) (s.tickTo dt) := by
  refine ⟨_, rfl, ?_⟩
  split <;> simp only [State.mwResult_standing, State.mwNext_standing, State.ite_standing, ite_self]

theorem execTripAssert_stays (dt : Nat) (p : Held 4) (s : State) : Stays (execTripAssert dt p s) (s.tickTo dt) := by
  refine ⟨_, rfl, ?_⟩
  simp only [State.putBit_standing, State.tripCapture_standing, State.tripSet_standing, State.ite_standing, ite_self]

theorem execTripRelease_stays (dt : Nat) (p : Held 4) (s : State) : Stays (execTripRelease dt p s) (s.tickTo dt) := by
  refine ⟨_, rfl, ?_⟩
  simp only [State.putBit_standing, State.ite_standing, ite_self]

theorem execScrubRead_stays (dt : Nat) (mem : Mem) (s : State) : Stays (execScrubRead dt mem s) (s.tickTo dt) := by
  refine ⟨_, rfl, ?_⟩
  simp only [State.memRead_standing, State.scrubNext_standing, State.mm_standing, State.ite_standing, ite_self]

theorem execEccWriteBack_stays (dt : Nat) (mem : Mem) (written : Bool) (s : State) : Stays (execEccWriteBack dt mem written s) (s.tickTo dt) := by
  refine ⟨_, rfl, ?_⟩
  dsimp only
  split <;> simp only [State.mm_standing, State.memWrite_standing, State.setBad_standing, State.ite_standing, ite_self]

theorem execArbWeightUpdate_stays (dt : Nat) (act : BitVec 8) (sp : BitVec 3) (wait : BitVec 8) (s : State) : Stays (execArbWeightUpdate dt act sp wait s) (s.tickTo dt) := by
  refine ⟨_, rfl, ?_⟩
  simp only [State.put_standing, State.maxPut_standing, State.ite_standing, ite_self, State.upd_standing]

theorem execKaMonitorReading_stays (dt : Nat) (t6 t7 vlink vbak : BitVec 16) (ilink : BitVec 12) (s : State) : Stays (execKaMonitorReading dt t6 t7 vlink vbak ilink s) (s.tickTo dt) := by
  refine ⟨_, rfl, ?_⟩
  simp only [State.put_standing, State.tempCheck_standing, State.vlinkRead_standing, State.vbakRead_standing, State.ite_standing, ite_self]

theorem execFieldBookWriteDone_stays (dt : Nat) (s : State) : Stays (execFieldBookWriteDone dt s) (s.tickTo dt) := by
  refine ⟨_, rfl, ?_⟩
  split
  · rfl
  · split
    · rfl
    · rw [State.fbLost_standing, State.su_standing, State.fbStore_standing]

theorem execSealProgramDone_stays (dt : Nat) (ok : Bool) (s : State) : Stays (execSealProgramDone dt ok s) (s.tickTo dt) := by
  refine ⟨_, rfl, ?_⟩
  dsimp only
  split <;> simp only [State.sealStat_standing, State.su_standing, State.sealForce_standing, State.sealEnd_standing, State.ite_standing, ite_self, State.upd_standing]

theorem execUpdOperationDone_stays (dt : Nat) (ok : Bool) (s : State) : Stays (execUpdOperationDone dt ok s) (s.tickTo dt) := by
  refine ⟨_, rfl, ?_⟩
  simp only [State.updEffect_standing, State.updFail_standing, State.slotStat_standing, State.fbAddFrom_standing, State.updResult_standing, State.ite_standing, ite_self]

theorem execOptionCommit_stays (dt : Nat) (bad : Option (Fin 8)) (corr : BitVec 8) (s : State) : Stays (execOptionCommit dt bad corr s) (s.tickTo dt) := by
  refine ⟨_, rfl, ?_⟩
  simp only [State.optRegs_standing, State.put_standing, State.bt_standing, State.ite_standing, ite_self, implies_true]

theorem execConfigMonumentReads_stays (dt : Nat) (rd : Vector IdRead 8) (s : State) : Stays (execConfigMonumentReads dt rd s) (s.tickTo dt) := by
  refine ⟨_, rfl, ?_⟩
  simp only [State.idConfigReads_standing, State.applyMonument_standing, State.keepAliveEnd_standing, State.ite_standing, ite_self, foldl_standing, implies_true]

theorem execFullLogicAvailable_stays (dt : Nat) (s : State) : Stays (execFullLogicAvailable dt s) (s.tickTo dt) := by
  refine ⟨_, rfl, ?_⟩
  simp only [State.put_standing, State.bt_standing, State.ite_standing, ite_self, implies_true]

theorem execSurveyorWatchdogExpiry_stays (dt : Nat) (s : State) : Stays (execSurveyorWatchdogExpiry dt s) (s.tickTo dt) := by
  refine ⟨_, rfl, ?_⟩
  simp only [State.pulse_standing, State.safeCause_standing, State.halt_standing, State.mwStop_standing, State.ite_standing, ite_self]

theorem execHostWatchdogExpiry_stays (dt : Nat) (s : State) : Stays (execHostWatchdogExpiry dt s) (s.tickTo dt) := by
  refine ⟨_, rfl, ?_⟩
  simp only [State.put_standing, State.pulse_standing, State.safeCause_standing, State.gathered_standing, State.hwdogAxis_standing, State.ite_standing, ite_self, forFin_standing, implies_true]

theorem execAxisResetTimeout_stays (dt : Nat) (n : Fin 8) (s : State) : Stays (execAxisResetTimeout dt n s) (s.tickTo dt) := by
  refine ⟨_, rfl, ?_⟩
  split <;> simp only [State.bridgesOff_standing, State.putBit_standing, State.ax_standing, State.ite_standing, ite_self]

theorem execIndPrefetchDone_stays (dt : Nat) (lk : Link) (s : State) : Stays (execIndPrefetchDone dt lk s) (s.tickTo dt) := by
  refine ⟨_, rfl, ?_⟩
  simp only [State.lnk_standing, State.ite_standing, ite_self]

theorem execIndDataRead_stays (dt : Nat) (lk : Link) (s : State) : Stays (execIndDataRead dt lk s) (s.tickTo dt) := by
  refine ⟨_, rfl, ?_⟩
  simp only [State.hostRead_standing, State.ite_standing, ite_self]

theorem execIndWriteApply_stays (dt : Nat) (s : State) : Stays (execIndWriteApply dt s) (s.tickTo dt) := by
  refine ⟨_, rfl, ?_⟩
  split <;> simp only [State.indApply_standing, State.indRefetch_standing, State.upd_standing]

theorem execMailboxLastWordRead_stays (dt : Nat) (lk : Link) (m : Fin 8) (s : State) : Stays (execMailboxLastWordRead dt lk m s) (s.tickTo dt) := by
  refine ⟨_, rfl, ?_⟩
  simp only [State.hostRead_standing, State.ite_standing, ite_self]

theorem execBacklogPost_stays (dt : Nat) (s : State) : Stays (execBacklogPost dt s) (s.tickTo dt) := by
  refine ⟨_, rfl, ?_⟩
  simp only [State.backlogStep_standing]

theorem execRingRecordAutoAdvance_stays (dt : Nat) (lk : Link) (q : Fin 5) (s : State) : Stays (execRingRecordAutoAdvance dt lk q s) (s.tickTo dt) := by
  refine ⟨_, rfl, ?_⟩
  simp only [State.hostRead_standing, State.ite_standing, ite_self]

theorem execSsiRequest_stays (dt : Nat) (lk : Link) (n : Fin 8) (high : Bool) (s : State) : Stays (execSsiRequest dt lk n high s) (s.tickTo dt) := by
  refine ⟨_, rfl, ?_⟩
  simp only [State.rowDo_standing, State.dpCtl_standing, implies_true]

theorem execSvCalStore_stays (dt : Nat) (lk : Link) (st : Fin 2) (ok : Bool) (s : State) : Stays (execSvCalStore dt lk st ok s) (s.tickTo dt) := by
  refine ⟨_, rfl, ?_⟩
  simp only [State.rowDo_standing, State.svCalStore_standing, implies_true]

theorem execIdRescan_stays (dt : Nat) (lk : Link) (mask : BitVec 8) (s : State) : Stays (execIdRescan dt lk mask s) (s.tickTo dt) := by
  refine ⟨_, rfl, ?_⟩
  simp only [State.rowMg_standing]

theorem execIdCntClr_stays (dt : Nat) (lk : Link) (s : State) : Stays (execIdCntClr dt lk s) (s.tickTo dt) := by
  refine ⟨_, rfl, ?_⟩
  simp only [State.rowMg_standing]

theorem execFieldClockSet_stays (dt : Nat) (lk : Link) (secs : Word) (s : State) : Stays (execFieldClockSet dt lk secs s) (s.tickTo dt) := by
  refine ⟨_, rfl, ?_⟩
  simp only [State.rowMg_standing]

theorem execFbCntClr_stays (dt : Nat) (lk : Link) (s : State) : Stays (execFbCntClr dt lk s) (s.tickTo dt) := by
  refine ⟨_, rfl, ?_⟩
  simp only [State.rowMg_standing]

theorem execMwCntClr_stays (dt : Nat) (lk : Link) (s : State) : Stays (execMwCntClr dt lk s) (s.tickTo dt) := by
  refine ⟨_, rfl, ?_⟩
  simp only [State.rowMg_standing]

theorem execSealCommit_stays (dt : Nat) (lk : Link) (data : Word) (s : State) : Stays (execSealCommit dt lk data s) (s.tickTo dt) := by
  refine ⟨_, rfl, ?_⟩
  simp only [State.rowMg_standing]

theorem execUpdBegin_stays (dt : Nat) (lk : Link) (image : Bool) (s : State) : Stays (execUpdBegin dt lk image s) (s.tickTo dt) := by
  refine ⟨_, rfl, ?_⟩
  simp only [State.rowUpd_standing]

theorem execUpdWrite_stays (dt : Nat) (lk : Link) (s : State) : Stays (execUpdWrite dt lk s) (s.tickTo dt) := by
  refine ⟨_, rfl, ?_⟩
  simp only [State.updSame_standing]

theorem execUpdVerify_stays (dt : Nat) (lk : Link) (s : State) : Stays (execUpdVerify dt lk s) (s.tickTo dt) := by
  refine ⟨_, rfl, ?_⟩
  simp only [State.updSame_standing]

theorem execUpdActivate_stays (dt : Nat) (lk : Link) (s : State) : Stays (execUpdActivate dt lk s) (s.tickTo dt) := by
  refine ⟨_, rfl, ?_⟩
  simp only [State.updSame_standing]

theorem execUpdAbort_stays (dt : Nat) (lk : Link) (s : State) : Stays (execUpdAbort dt lk s) (s.tickTo dt) := by
  refine ⟨_, rfl, ?_⟩
  simp only [State.updSame_standing]

theorem execUpdRevoke_stays (dt : Nat) (lk : Link) (image slotB : Bool) (s : State) : Stays (execUpdRevoke dt lk image slotB s) (s.tickTo dt) := by
  refine ⟨_, rfl, ?_⟩
  simp only [State.rowUpd_standing]

theorem execDwellComplete_stays (dt : Nat) (q : Fin 10) (s : State) : Stays (execDwellComplete dt q s) (s.tickTo dt) := by
  refine ⟨_, rfl, ?_⟩
  split <;> simp only [State.markEnd_standing, State.ite_standing, ite_self]

theorem execFrameStart_stays (dt : Nat) (mode3 : Bool) (s : State) : Stays (execFrameStart dt mode3 s) (s.tickTo dt) := by
  refine ⟨_, rfl, ?_⟩
  simp only [State.frameOpen_standing]

theorem execGrelasResponseCompose_stays (dt : Nat) (s : State) : Stays (execGrelasResponseCompose dt s) (s.tickTo dt) := by
  refine ⟨_, rfl, ?_⟩
  split <;> simp only [State.grCompose_standing, State.ite_standing, ite_self]

theorem execGrelasResponseTransmit_stays (dt : Nat) (s : State) : Stays (execGrelasResponseTransmit dt s) (s.tickTo dt) := by
  refine ⟨_, rfl, ?_⟩
  split <;> simp only [State.gre_standing, State.ite_standing, ite_self]

theorem execLinkCurrentLimit_stays (dt : Nat) (on : Bool) (s : State) : Stays (execLinkCurrentLimit dt on s) (s.tickTo dt) := by
  refine ⟨_, rfl, ?_⟩
  simp only [State.putB_standing]

theorem execLinkReversed_stays (dt : Nat) (rev : Bool) (s : State) : Stays (execLinkReversed dt rev s) (s.tickTo dt) := by
  refine ⟨_, rfl, ?_⟩
  simp only [State.putB_standing, State.pulse_standing, State.pw_standing, State.ite_standing, ite_self]

theorem execPush_stays (dt : Nat) (x : Fin 4) (w1 w2 w3 : BitVec 64) (s : State) : Stays (execPush dt x w1 w2 w3 s) (s.tickTo dt) := by
  refine ⟨_, rfl, ?_⟩
  simp only [State.ctxRun_standing, State.ctxPush_standing, implies_true]

theorem execWaittag_stays (dt : Nat) (x : Fin 4) (w : BitVec 64) (s : State) : Stays (execWaittag dt x w s) (s.tickTo dt) := by
  refine ⟨_, rfl, ?_⟩
  simp only [State.ctxRun_standing, State.ctxWaitTag_standing, implies_true]

theorem execWaittagTimeout_stays (dt : Nat) (x : Fin 4) (s : State) : Stays (execWaittagTimeout dt x s) (s.tickTo dt) := by
  refine ⟨_, rfl, ?_⟩
  split <;> simp only [State.ctx_standing, State.ctxFail_standing, State.ite_standing, ite_self]

theorem execWaitin_stays (dt : Nat) (x : Fin 4) (w : BitVec 64) (s : State) : Stays (execWaitin dt x w s) (s.tickTo dt) := by
  refine ⟨_, rfl, ?_⟩
  simp only [State.ctxRun_standing, State.ctxNext_standing, State.ctxFail_standing, State.ctxHold_standing, State.ite_standing, ite_self, implies_true]

theorem execWaitinTimeout_stays (dt : Nat) (x : Fin 4) (s : State) : Stays (execWaitinTimeout dt x s) (s.tickTo dt) := by
  refine ⟨_, rfl, ?_⟩
  split <;> simp only [State.ctx_standing, State.ctxFail_standing, State.ite_standing, ite_self]

theorem execWaittime_stays (dt : Nat) (x : Fin 4) (w : BitVec 64) (s : State) : Stays (execWaittime dt x w s) (s.tickTo dt) := by
  refine ⟨_, rfl, State.ctxRun_standing _ _ _ _ _ fun t => ?_⟩
  split <;> simp only [State.ite_standing, State.ctxNext_standing, State.ctxHold_standing, ite_self]

theorem execWaittimeExpiry_stays (dt : Nat) (x : Fin 4) (s : State) : Stays (execWaittimeExpiry dt x s) (s.tickTo dt) := by
  refine ⟨_, rfl, ?_⟩
  split <;> simp only [State.ctx_standing, State.ctxNext_standing, State.ite_standing, ite_self]

theorem execBrev_stays (dt : Nat) (x : Fin 4) (w : BitVec 64) (s : State) : Stays (execBrev dt x w s) (s.tickTo dt) := by
  refine ⟨_, rfl, ?_⟩
  simp only [State.ctxRun_standing, State.ctx_standing, State.ctxTo_standing, State.ctxNext_standing, State.ite_standing, ite_self, implies_true]

theorem execLoop_stays (dt : Nat) (x : Fin 4) (w : BitVec 64) (s : State) : Stays (execLoop dt x w s) (s.tickTo dt) := by
  refine ⟨_, rfl, ?_⟩
  simp only [State.ctxRun_standing, State.ctxTo_standing, State.ctx_standing, State.ctxNext_standing, State.ite_standing, ite_self, implies_true]

theorem execRaise_stays (dt : Nat) (x : Fin 4) (w : BitVec 64) (s : State) : Stays (execRaise dt x w s) (s.tickTo dt) := by
  refine ⟨_, rfl, ?_⟩
  simp only [State.ctxRun_standing, State.evRaise_standing, State.ctxNext_standing, implies_true]

theorem execProgHome_stays (dt : Nat) (x : Fin 4) (w1 w2 : BitVec 64) (s : State) : Stays (execProgHome dt x w1 w2 s) (s.tickTo dt) := by
  refine ⟨_, rfl, ?_⟩
  simp only [State.ctxRun_standing, State.ctxHome_standing, implies_true]

theorem execSetreg_stays (dt : Nat) (x : Fin 4) (w : BitVec 64) (s : State) : Stays (execSetreg dt x w s) (s.tickTo dt) := by
  refine ⟨_, rfl, ?_⟩
  simp only [State.ctxRun_standing, State.ctxSetreg_standing, implies_true]

theorem execProgEnd_stays (dt : Nat) (x : Fin 4) (w : BitVec 64) (s : State) : Stays (execProgEnd dt x w s) (s.tickTo dt) := by
  refine ⟨_, rfl, ?_⟩
  simp only [State.ctxRun_standing, State.stopCtx_standing, implies_true]

theorem execHomeLimitFilterPass_stays (dt : Nat) (n : Fin 8) (pin : LimPin) (lvl : Stood) (s : State) : Stays (execHomeLimitFilterPass dt n pin lvl s) (s.tickTo dt) := by
  refine ⟨_, rfl, ?_⟩
  simp only [State.ax_standing, State.ite_standing, ite_self]

theorem execTickMark_stays (dt : Nat) (pins : BitVec 48) (s : State) : Stays (execTickMark dt pins s) (s.tickTo dt) := by
  refine ⟨_, rfl, ?_⟩
  simp only [State.tickMark_standing, State.ite_standing, ite_self]

theorem execSyncInEdge_stays (dt : Nat) (pins : BitVec 48) (s : State) : Stays (execSyncInEdge dt pins s) (s.tickTo dt) := by
  refine ⟨_, rfl, ?_⟩
  simp only [State.extMark_standing, State.ite_standing, ite_self]

theorem execMarkTimeout_stays (dt : Nat) (pins : BitVec 48) (s : State) : Stays (execMarkTimeout dt pins s) (s.tickTo dt) := by
  refine ⟨_, rfl, ?_⟩
  simp only [State.srcLost_standing, State.tickMark_standing, State.ite_standing, ite_self]

theorem execGrelasMarkIssue_stays (dt : Nat) (pins : BitVec 48) (s : State) : Stays (execGrelasMarkIssue dt pins s) (s.tickTo dt) := by
  refine ⟨_, rfl, ?_⟩
  dsimp only
  split <;> simp only [State.grMark_standing, State.extMark_standing, State.ite_standing, ite_self]

theorem execCaptureFreeze_stays (dt : Nat) (s : State) : Stays (execCaptureFreeze dt s) (s.tickTo dt) := by
  refine ⟨_, rfl, ?_⟩
  simp only [State.capFreeze_standing]

theorem execCommitPoint_stays (dt : Nat) (fin : Vector (BitVec 16) 8) (s : State) : Stays (execCommitPoint dt fin s) (s.tickTo dt) := by
  refine ⟨_, rfl, ?_⟩
  simp only [State.commitPoint_standing, State.ite_standing, ite_self]

end Sys2Proof.Machine
end

section
/-!
PROOF. The entries to BOOT and RECOVERY, and what a host access can do to the standing of the device: nothing, or RESTART.
-/

namespace Sys2Proof.Machine

open Host

variable (s : State)

/-! ## The entries to BOOT and to RECOVERY (R126 to R128) -/

theorem State.home_ne {d : DevState} (h : s.dev = d) (out : d ≠ .safe) : s.home = d := by
  unfold State.home
  rw [if_neg (fun e => out (h.symm.trans e)), h]

/-- An update that moves the device, but not into SAFE. -/
theorem State.moved_standing {d : DevState} (out : d ≠ .safe) {regs staged groups links grelas mbox indQ window cmds nextId lastEnd backlog rings evq evLost levels cap tick arb ecc axes coils stations ctxs store chain chainOut chainRst chainRej chainReach chainStall chainMode power surv nvm otp flash free cyc} :
    State.standing ⟨⟨d, regs, staged, groups, links, grelas, mbox, indQ, window, cmds, nextId, lastEnd, backlog, rings, evq, evLost, levels, cap, tick, arb, ecc, axes, coils, stations, ctxs, store, chain, chainOut, chainRst, chainRej, chainReach, chainStall, chainMode, s.boot, power, surv, nvm, otp, flash, free⟩, s.pending, s.now, cyc⟩ = (d, s.standing.2) :=
  Prod.ext (State.home_ne _ rfl out) (id rfl)

theorem State.enterRecovery_standing (cause : Nat) : (s.enterRecovery cause).standing = (.recovery, s.standing.2) := by
  unfold State.enterRecovery
  simp only [State.fbAdd_standing, State.setWord_standing, State.put_standing, State.v5Follow_standing, State.dumpOff_standing,
    State.levelOff_standing, State.bt_standing, implies_true]
  rw [State.moved_standing _ (by decide), State.flDown_standing, State.surveyStop_standing]

theorem State.toBoot_standing : State.standing { s with dev := .boot } = (.boot, s.standing.2) := State.moved_standing s (by decide)

/-- A start goes to BOOT, or to RECOVERY after three failed ones. -/
theorem State.enterBoot_standing : s.enterBoot.standing = (.boot, s.standing.2) ∨ s.enterBoot.standing = (.recovery, s.standing.2) := by
  unfold State.enterBoot
  dsimp only
  generalize s.boot.optBad = noted
  cases noted <;>
    simp only [State.ite_standing, State.enterRecovery_standing, State.put_standing, State.setFail_standing, State.bt_standing, implies_true,
      State.fbAdd_standing, State.putB_standing, State.surveyorBoot_standing, State.toBoot_standing] <;>
    exact (em _).elim (fun three => .inr (if_pos three)) fun fewer => .inl (if_neg fewer)

/-! ## What a host access can do: nothing, or leave RECOVERY (R129) -/

/-- The device stands where it stood, or it has left RECOVERY for BOOT. -/
def State.serves (s t : State) : Prop := t.standing = s.standing ∨ (s.home = .recovery ∧ t.standing = (.boot, s.standing.2))

variable {s}

theorem State.serves.rfl' : s.serves s := .inl rfl

theorem State.serves.eq {t u : State} (h : s.serves t) (e : u.standing = t.standing) : s.serves u :=
  h.imp e.trans (And.imp_right e.trans)

theorem State.serves.trans {t u : State} (h : s.serves t) (k : t.serves u) : s.serves u := by
  rcases h with same | ⟨home, boots⟩
  · rcases k with e | ⟨home, boots⟩
    · exact .inl (e.trans same)
    · refine .inr ⟨(congrArg Prod.fst same).symm.trans home, boots.trans ?_⟩
      rw [same]
  · rcases k with e | ⟨home', -⟩
    · exact .inr ⟨home, e.trans boots⟩
    · exact DevState.noConfusion ((congrArg Prod.fst boots).symm.trans home' : DevState.boot = .recovery)

theorem State.serves.ite {c : Prop} [Decidable c] {a b : State} (ha : s.serves a) (hb : s.serves b) : s.serves (if c then a else b) := by
  split
  · exact ha
  · exact hb

variable (s)

theorem State.bootRestart_serves : s.serves s.bootRestart := by
  unfold State.bootRestart
  split
  next at_ =>
    have home : s.home = .recovery := s.home_ne (beq_iff_eq.1 at_) (by decide)
    have same := s.bt_standing (fun b => { b with wdAt := s.now, wdOn := true, porCause := false, fromCore := false, reload := false }) fun _ => rfl
    rcases State.enterBoot_standing (s.bt fun b => { b with wdAt := s.now, wdOn := true, porCause := false, fromCore := false, reload := false }) with e | e
    · exact .inr ⟨home, e.trans (by rw [same])⟩
    · exact .inl (e.trans (by rw [same]; exact Prod.ext home.symm rfl))
  · exact .rfl'

theorem State.bootCtl_serves (w : Nat) : s.serves (s.bootCtl w) := by
  have first : s.serves (if bit w 1 then s.setFail 0 else s) := .inl (by rw [State.ite_standing, State.setFail_standing, ite_self])
  have second (t : State) : t.serves (if bit w 0 then t.bootRestart else t) := .ite t.bootRestart_serves .rfl'
  have third (t : State) : t.serves (if bit w 2 then t.safeExit else t) := .inl (by rw [State.ite_standing, State.safeExit_standing, ite_self])
  exact (first.trans (second _)).trans (third _)

theorem State.writeReg_serves (l : Link) (a : Nat) (w : Word) (key : Bool) (hseq : Nat) (pre : LinkSt) :
    s.serves (s.writeReg l a w key hseq pre).1 := by
  unfold State.writeReg
  split
  · exact .rfl'
  split
  · exact .inl (State.indAddr_standing _ _ _)
  split
  · exact .inl (State.indData_standing _ _ _ _ _)
  split
  · split
    · exact State.bootCtl_serves _ _
    · exact .inl (State.keyRefused_standing _)
  split
  · exact .inl (State.ringWrite_standing _ _ _ _)
  split
  · exact .inl (State.mbReq_standing _ _ _)
  · refine .inl ?_
    simp only [State.ite_standing, State.spiCfgWrite_standing, State.injWrite_standing, State.progAgain_standing, State.hostStands_standing,
      State.regAct_standing, State.writeFields_standing, State.keyRefused_standing, ite_self]

theorem State.hostWrite_serves (l : Link) (a : Nat) (w : Word) (hseq : Nat) (pre : LinkSt) : s.serves (s.hostWrite l a w hseq pre).1 := by
  unfold State.hostWrite
  split
  · exact .rfl'
  dsimp only
  split
  · exact .inl (by rw [State.lnk_standing, State.lnk_standing])
  · exact State.serves.trans (.inl (State.lnk_standing _ _ _)) (State.writeReg_serves _ _ _ _ _ _ _)

theorem State.rowPulse_serves (lk : Link) (a mask : Nat) : s.serves (s.rowPulse lk a mask) :=
  State.serves.trans (.inl (State.hostBegin_standing _)) (State.hostWrite_serves _ _ _ _ _ _)

theorem State.rowWrite_serves (lk : Link) (a w : Nat) : s.serves (s.rowWrite lk a w) :=
  State.serves.trans (.inl (State.hostBegin_standing _)) (State.hostWrite_serves _ _ _ _ _ _)

theorem State.issue_serves (lk : Link) (r op : Nat) (d : Desc) : s.serves (s.issue lk r op d) :=
  ((((State.rowWrite_serves _ _ _ _).trans (State.rowWrite_serves _ _ _ _)).trans (State.rowWrite_serves _ _ _ _)).trans
    (State.rowWrite_serves _ _ _ _)).trans (State.rowWrite_serves _ _ _ _)

/-! ## Frames -/

theorem State.performAccess_serves (l : Link) (h : HeldFrame) (pre : LinkSt) : s.serves (s.performAccess l h pre).1 := by
  have begun : s.serves s.hostBegin := .inl s.hostBegin_standing
  unfold State.performAccess
  dsimp only
  split
  · exact begun
  · exact begun.eq (State.hostRead_standing _ _ _)
  · exact (begun.trans (State.hostWrite_serves _ _ _ _ _ _)).eq (State.noteWrite_standing _ _ _)

theorem State.performFrame_serves (l : Link) (h : HeldFrame) (pre : LinkSt) : s.serves (s.performFrame l h pre) := by
  refine (s.performAccess_serves l h pre).eq ?_
  unfold State.performFrame
  dsimp only
  rw [State.compose_standing]
  exact (State.upd_standing _).trans (State.lnk_standing _ _ _)

theorem State.performHeld_serves (l : Link) : s.serves (s.performHeld l) := by
  unfold State.performHeld
  split
  · exact .rfl'
  · cases l with
    | spi => exact s.performFrame_serves _ _ _
    | gr => exact (s.performFrame_serves _ _ _).eq (State.grSlot_standing _)

theorem State.turnOf_serves (l : Link) : s.serves (s.turnOf l) := .ite (s.performHeld_serves _) .rfl'

theorem State.takeFrame_serves (l : Link) (b : List Nat) : s.serves (s.takeFrame l b) := by
  unfold State.takeFrame
  dsimp only
  split
  · refine .inl ?_
    rw [State.notice_standing, State.earlier_standing _ _ fun t => ?_]
    rw [State.lnk_standing, State.inc_standing]
  split
  · refine .inl ?_
    rw [State.notice_standing, State.earlier_standing _ _ fun t => ?_]
    rw [State.lnk_standing, State.inc_standing]
  have accepted : s.serves (s.acceptFrame l (aliveOf b) (heldOf b).hseq) := .inl (State.acceptFrame_standing _ _ _ _)
  split
  · exact accepted.eq (State.compose_standing _ _ _ _ _)
  split
  · exact (accepted.trans (State.turnOf_serves _ _)).trans (State.performFrame_serves _ _ _ _)
  · exact accepted.eq (State.lnk_standing _ _ _)

theorem State.ensureOpen_standing : s.ensureOpen.standing = s.standing := by
  unfold State.ensureOpen
  rw [State.ite_standing, State.frameOpen_standing, ite_self]

theorem State.spiFrame_serves (op : Nat) (f : Frame) : s.serves (s.spiFrame op f) := by
  unfold State.spiFrame
  split
  · exact .rfl'
  split
  · exact .inl s.frameUndo_standing
  have shut : s.serves s.ensureOpen.frameShut := .inl ((State.frameShut_standing _).trans s.ensureOpen_standing)
  dsimp only
  split
  · exact .ite shut (shut.eq (State.chainBad_standing _))
  split
  · exact shut.eq (by rw [State.notice_standing, State.lnk_standing, State.inc_standing])
  · exact shut.trans (State.takeFrame_serves _ _ _)

/-! ## The Grelas link -/

theorem State.grTake_serves (l : List (List Nat)) : s.serves (s.grTake l) := by
  induction l generalizing s with
  | nil => exact .inl (State.gre_standing _ _)
  | cons b l ih =>
    have taken := s.takeFrame_serves .gr b
    unfold State.grTake
    exact .ite (taken.eq (State.gre_standing _ _)) ((taken.eq (State.grSlot_standing _)).trans (ih _))

theorem State.grPoll_serves (p : GrPacket) : s.serves (s.grPoll p) := by
  unfold State.grPoll
  dsimp only
  split
  · refine .inl ?_
    rw [foldl_standing _ _ _ fun x i => State.grRefuse_standing x i, State.inc_standing, State.gre_standing, State.lnk_standing]
  · exact State.serves.trans (.inl (by rw [State.gre_standing, State.lnk_standing])) (State.grTake_serves _ _)

theorem State.grPacketIn_serves (p : Packet) : s.serves (s.grPacketIn p) := by
  have checked : s.serves (s.grCheck p).1 := .inl (State.grCheck_standing _ _)
  unfold State.grPacketIn
  split
  next out => rwa [out] at checked
  next out =>
    rw [out] at checked
    exact .ite (checked.eq (State.grTick_standing _ _)) (checked.trans (State.grPoll_serves _ _))

end Sys2Proof.Machine
end

section
/-!
PROOF. Where resets and their releases leave the device, and where a start leads.
-/

namespace Sys2Proof.Machine

open Host

variable (s : State)

/-! ## Where the resets leave the device (R107 to R114) -/

theorem State.surveyorCut_pending : s.surveyorCut.pending = s.pending := congrArg (fun x => x.2.2.2.2.2.1) s.surveyorCut_standing

theorem State.surveyorCut_now : s.surveyorCut.now = s.now := congrArg (fun x => x.2.2.2.2.2.2) s.surveyorCut_standing

theorem State.hardReset_standing (por : Bool) :
    (s.hardReset por).standing = (.reset, por, false, false, false, s.pending, if por then 0 else s.now) := by
  have begun (u : State) (m : Nvm) (lv : List (Nat × Nat)) (pw : PowerSt) (f : SurvSt → SurvSt) (t0 : Nat) :
      (State.bt (State.su { State.reset with
        pending := u.pending, now := t0, nvm := m, otp := u.otp, flash := u.flash, free := u.free, levels := lv, power := pw } f)
        fun b => { b with por := por, porCause := por }).standing = (.reset, por, false, false, false, u.pending, t0) := rfl
  unfold State.hardReset
  dsimp only
  rw [State.ite_standing, State.tempStat_standing, State.put_standing, State.setWord_standing, State.put_standing, State.setWord_standing,
    s.surveyorCut_pending.symm, s.surveyorCut_now.symm]
  cases por <;> exact begun _ _ _ _ _ _

theorem State.sysReset_standing (promoted heldoff : Bool) :
    (s.sysReset promoted heldoff).standing = (.reset, false, true, false, false, s.pending, s.now) := by
  have held (t : State) : (t.bt fun b => { b with sys := true }).standing =
      (t.standing.1, t.standing.2.1, true, t.standing.2.2.2) := rfl
  unfold State.sysReset
  dsimp only
  rw [State.putB_standing, State.putB_standing, State.put_standing, held, State.hardReset_standing]
  rfl

theorem State.coreReset_standing (count : Nat) (heldoff : Bool) :
    (s.coreReset count heldoff).standing = (s.home, s.boot.por, s.boot.sys, true, s.boot.cfgValid, s.pending, s.now) := by
  have held (t : State) : (t.bt fun b => { b with coreOn := true, coreAt := t.now, ceilFrozen := true, held := none, fromCore := true }).standing =
      (t.standing.1, t.standing.2.1, t.standing.2.2.1, true, t.standing.2.2.2.2) := rfl
  unfold State.coreReset
  dsimp only
  rw [held]
  simp only [State.dumpOff_standing, State.levelOff_standing, State.lowTime_standing, State.putB_standing, State.put_standing, State.upd_standing,
    forFin_standing, State.mon_standing, State.safeClear_standing, State.mwStop_standing, State.coreLinks_standing, State.coreBoxes_standing,
    State.coreRings_standing, State.svCalDrop_standing, State.coreAxis_standing, State.addSat_standing, State.surveyorCut_standing, implies_true]
  rfl

/-- A reset acts: as a system reset, or as a core reset where a peripheral configuration is valid (R111). -/
def State.resetActs (s t : State) : Prop :=
  t.standing = (.reset, false, true, false, false, s.pending, s.now) ∨
    (s.boot.cfgValid = true ∧ t.standing = (s.home, s.boot.por, s.boot.sys, true, s.boot.cfgValid, s.pending, s.now))

theorem State.corePulse_acts (count : Nat) (heldoff : Bool) : s.resetActs (s.corePulse count heldoff) := by
  unfold State.corePulse
  split
  next valid => exact .inr ⟨valid, s.coreReset_standing _ _⟩
  · exact .inl (s.sysReset_standing _ _)

theorem State.standing_iff {s t : State} : t.standing = s.standing ↔ t.home = s.home ∧ t.boot.por = s.boot.por ∧
    t.boot.sys = s.boot.sys ∧ t.boot.coreOn = s.boot.coreOn ∧ t.boot.cfgValid = s.boot.cfgValid ∧ t.pending = s.pending ∧ t.now = s.now := by
  simp only [State.standing, Prod.mk.injEq]

theorem State.resetActs.of_standing {s t u : State} (e : t.standing = s.standing) (h : t.resetActs u) : s.resetActs u := by
  obtain ⟨home, por, sys, -, valid, pending, now⟩ := State.standing_iff.1 e
  unfold State.resetActs at h
  rwa [home, por, sys, valid, pending, now] at h

theorem State.resetDue_acts (sys : Bool) (count : Nat) :
    (s.resetDue sys count).standing = s.standing ∨ s.resetActs (s.resetDue sys count) := by
  unfold State.resetDue
  dsimp only
  generalize hu : (if s.mayPulse (if sys then 1251 else count) = true then s.useFree else s) = u
  have same : u.standing = s.standing := by rw [← hu, State.ite_standing, State.useFree_standing, ite_self]
  generalize (s.mayPulse _ && _) = hold
  split
  · exact .inl ((State.bt_standing _ _ fun _ => rfl).trans same)
  refine .inr (.of_standing same ?_)
  split
  · exact .inl (u.sysReset_standing _ _)
  · exact u.corePulse_acts _ _

theorem execPowerOnReset_stands (dt : Nat) :
    ∃ e, execPowerOnReset dt s = done e ∧ e.standing = (.reset, true, false, false, false, s.pending, 0) :=
  ⟨_, rfl, State.hardReset_standing _ true⟩

/-- Option load starts (R118). -/
theorem State.optionLoad_standing :
    s.optionLoad.standing = (.optionLoad, false, false, s.boot.coreOn, s.boot.cfgValid, s.pending, s.now) := by
  unfold State.optionLoad
  rw [State.clampNote_standing]
  rfl

theorem execPowerOnResetRelease_stands (dt : Nat) :
    ∃ e, execPowerOnResetRelease dt s = done e ∧ (e.standing = (s.tickTo dt).standing ∨ s.boot.por = true ∧
      (e.standing = (s.home, false, s.boot.sys, s.boot.coreOn, s.boot.cfgValid, s.pending, s.now + dt) ∧ s.boot.sys = true ∨
        e.standing = (.optionLoad, false, false, s.boot.coreOn, s.boot.cfgValid, s.pending, s.now + dt))) := by
  refine ⟨_, rfl, ?_⟩
  split
  · exact .inl rfl
  next held =>
    refine .inr ⟨by simpa using held, ?_⟩
    split
    next sys => exact .inl ⟨rfl, sys⟩
    · exact .inr (State.optionLoad_standing _)

theorem execSystemReset_stands (dt : Nat) :
    ∃ e, execSystemReset dt s = done e ∧ (e.standing = (s.tickTo dt).standing ∨
      (s.boot.por = false ∧ s.boot.sys = false ∧ (s.tickTo dt).resetActs e)) := by
  refine ⟨_, rfl, ?_⟩
  split
  · exact .inl rfl
  next free =>
    obtain ⟨por, sys⟩ := by simpa only [Bool.or_eq_true, not_or, Bool.not_eq_true] using free
    exact ((s.tickTo dt).resetDue_acts true 0).imp id fun acts => ⟨por, sys, acts⟩

theorem execSystemResetRelease_stands (dt : Nat) (count : BitVec 32) :
    ∃ e, execSystemResetRelease dt count s = done e ∧ (e.standing = (s.tickTo dt).standing ∨ s.boot.sys = true ∧
      (e.standing = (s.home, s.boot.por, false, s.boot.coreOn, s.boot.cfgValid, s.pending, s.now + dt) ∧ s.boot.por = true ∨
        e.standing = (.optionLoad, false, false, s.boot.coreOn, s.boot.cfgValid, s.pending, s.now + dt))) := by
  refine ⟨_, rfl, ?_⟩
  split
  · exact .inl rfl
  next held =>
    refine .inr ⟨by simpa using held, ?_⟩
    have low := (s.tickTo dt).lowTime_standing count.toNat
    generalize (s.tickTo dt).lowTime count.toNat = u at low ⊢
    obtain ⟨home, por, sys, core, valid, pending, now⟩ := State.standing_iff.1 low
    dsimp only
    split
    next on =>
      refine .inl ⟨?_, por.symm.trans on⟩
      change (u.home, u.boot.por, false, u.boot.coreOn, u.boot.cfgValid, u.pending, u.now) = _
      rw [home, por, core, valid, pending, now]
      rfl
    · refine .inr (u.optionLoad_standing.trans ?_)
      rw [core, valid, pending, now]
      rfl

theorem execCoreReset_stands (dt : Nat) (count : BitVec 32) :
    ∃ e, execCoreReset dt count s = done e ∧ (e.standing = (s.tickTo dt).standing ∨
      (s.boot.por = false ∧ s.boot.sys = false ∧ (s.tickTo dt).resetActs e)) := by
  refine ⟨_, rfl, ?_⟩
  split
  · exact .inl rfl
  next free =>
    obtain ⟨por, sys⟩ : s.boot.por = false ∧ s.boot.sys = false := by
      simp only [Bool.or_eq_true, not_or, Bool.not_eq_true, State.tickTo_boot] at free
      exact ⟨free.1.1.1.1.1, free.1.1.1.1.2⟩
    exact ((s.tickTo dt).resetDue_acts false _).imp id fun acts => ⟨por, sys, acts⟩

theorem execResetHoldoffEnd_stands (dt : Nat) :
    ∃ e, execResetHoldoffEnd dt s = done e ∧ (e.standing = (s.tickTo dt).standing ∨ (s.tickTo dt).resetActs e) := by
  refine ⟨_, rfl, ?_⟩
  split
  · exact .inl rfl
  · exact .inr (.inl (State.sysReset_standing _ _ _))
  · refine .inr (State.resetActs.of_standing ?_ (State.corePulse_acts _ _ _))
    exact State.bt_standing _ _ fun _ => rfl

theorem execCoreResetRelease_stands (dt : Nat) :
    ∃ e, execCoreResetRelease dt s = done e ∧ (e.standing = (s.tickTo dt).standing ∨ s.boot.coreOn = true ∧
      ∃ d, (d = .boot ∨ d = .recovery) ∧ e.standing = (d, s.boot.por, s.boot.sys, false, s.boot.cfgValid, s.pending, s.now + dt)) := by
  refine ⟨_, rfl, ?_⟩
  split
  · exact .inl rfl
  next held =>
    refine .inr ⟨by simpa using held, ?_⟩
    rcases State.enterBoot_standing ((s.tickTo dt).bt fun b =>
      { b with coreOn := false, relAt := s.now + dt, wdAt := s.now + dt, wdOn := true, porCause := false }) with e | e
    · exact ⟨.boot, .inl rfl, e⟩
    · exact ⟨.recovery, .inr rfl, e⟩

/-! ## Where a start leads (R121 to R128) -/

/-- The command leaves the device where it is, or it stood in a state of `at_` and stands in one of `to` now. -/
def Leads (o : Outcome State Fault Refusal) (u : State) (at_ dest : List DevState) : Prop :=
  ∃ e, o = done e ∧ (e.standing = u.standing ∨ u.dev ∈ at_ ∧ e.standing.1 ∈ dest ∧ e.standing.2 = u.standing.2)

theorem execEnterBoot_leads (dt : Nat) : Leads (execEnterBoot dt s) (s.tickTo dt) [.optionLoad] [.boot, .recovery] := by
  refine ⟨_, rfl, ?_⟩
  split
  · exact .inl rfl
  next go =>
    have at_ : s.dev = .optionLoad := by
      simp only [Bool.or_eq_true, not_or, bne_iff_ne, ne_eq, not_not] at go
      exact go.1
    refine .inr ⟨List.mem_singleton.2 at_, ?_⟩
    have same : ((s.tickTo dt).put CLK_STAT_PLL_LOCK 1 |>.put CLK_STAT_XTAL_OK 1).standing = (s.tickTo dt).standing := by
      rw [State.put_standing, State.put_standing]
    rcases State.enterBoot_standing ((s.tickTo dt).put CLK_STAT_PLL_LOCK 1 |>.put CLK_STAT_XTAL_OK 1) with e | e <;>
      rw [e, same] <;> simp

end Sys2Proof.Machine
end

section
/-!
PROOF. The steps of a start (R121 to R128).
-/

namespace Sys2Proof.Machine

open Host

variable (s : State)

theorem Leads.moved {u e : State} {d : DevState} {at_ dest : List DevState} (h : u.dev ∈ at_) (moved : e.standing = (d, u.standing.2))
    (hd : d ∈ dest) : e.standing = u.standing ∨ u.dev ∈ at_ ∧ e.standing.1 ∈ dest ∧ e.standing.2 = u.standing.2 := by
  rw [moved]
  exact .inr ⟨h, hd, rfl⟩

theorem execClockFailure_leads (dt : Nat) : Leads (execClockFailure dt s) (s.tickTo dt) [.optionLoad] [.recovery] := by
  refine ⟨_, rfl, ?_⟩
  split
  · exact .inl rfl
  next go =>
    have at_ : s.dev = .optionLoad := by
      simp only [Bool.or_eq_true, not_or, bne_iff_ne, ne_eq, not_not] at go
      exact go.1.1
    dsimp only
    refine Leads.moved (List.mem_singleton.2 at_) ((State.enterRecovery_standing _ 5).trans ?_) (List.mem_singleton.2 rfl)
    generalize (s.tickTo dt).boot.optBad = bad
    cases bad <;> simp only [State.put_standing, State.fbAdd_standing, State.surveyorBoot_standing, State.toBoot_standing,
      State.useFree_standing, State.putB_standing]

theorem State.toConfigLoad_standing : State.standing { s with dev := .configLoad } = (.configLoad, s.standing.2) :=
  State.moved_standing s (by decide)

theorem execFirmwareSelect_leads (dt : Nat) : Leads (execFirmwareSelect dt s) (s.tickTo dt) [.boot] [.configLoad, .recovery] := by
  refine ⟨_, rfl, ?_⟩
  split
  · exact .inl rfl
  next go =>
    have at_ : (s.tickTo dt).dev ∈ [DevState.boot] := by
      simp only [Bool.or_eq_true, not_or, bne_iff_ne, ne_eq, not_not] at go
      exact List.mem_singleton.2 go.1
    have tried : ((s.tickTo dt).fwTrialEnd.imgTrialEnd.fwTry (s.tickTo dt).fwTrialEnd.imgTrialEnd.nvm.fwOrder).1.standing =
        (s.tickTo dt).standing := by
      rw [State.fwTry_standing, State.imgTrialEnd_standing, State.fwTrialEnd_standing]
    dsimp only
    split
    · exact Leads.moved at_ (by rw [State.enterRecovery_standing, State.slotStat_standing, tried]) (by decide)
    · refine Leads.moved at_ ?_ (List.mem_cons_self ..)
      simp only [State.ite_standing, State.keepAliveEnd_standing, State.slotStat_standing, ite_self, State.toConfigLoad_standing,
        State.bt_standing, implies_true, State.put_standing, State.setWord_standing, State.nv_standing, tried]

theorem execImageValidate_leads (dt : Nat) (id : BitVec 24) :
    Leads (execImageValidate dt id s) (s.tickTo dt) [.configLoad] [.recovery] := by
  refine ⟨_, rfl, ?_⟩
  split
  · exact .inl rfl
  next go =>
    have at_ : (s.tickTo dt).dev ∈ [DevState.configLoad] := by
      simp only [Bool.or_eq_true, not_or, bne_iff_ne, ne_eq, not_not] at go
      exact List.mem_singleton.2 go.1.1.1
    have named := (s.tickTo dt).bt_standing (fun b => { b with flashId := id.toNat }) fun _ => rfl
    dsimp only
    generalize State.bt _ _ = u at named ⊢
    split
    · refine .inl ?_
      simp only [State.bt_standing, implies_true, State.nv_standing, State.setWord_standing, State.put_standing, named]
    · exact Leads.moved at_ (by rw [State.enterRecovery_standing, named]) (List.mem_singleton.2 rfl)
    · refine .inl ?_
      simp only [State.v5Follow_standing, State.applyRegs_standing, State.bt_standing, implies_true, State.setWord_standing, State.nv_standing,
        State.put_standing, named]

/-- Step 7 of CONFIG_LOAD leaves the device where it is, or ends in RECOVERY. -/
theorem State.step7_standing (bad : Nat) :
    (s.step7 bad).standing = s.standing ∨ (s.step7 bad).standing = (.recovery, s.standing.2) := by
  unfold State.step7
  split
  · exact .inl (by simp only [State.bt_standing, implies_true, State.flPower_standing])
  split
  · exact .inr (by rw [State.enterRecovery_standing, State.flPower_standing])
  · exact .inl (by simp only [State.bt_standing, implies_true, State.flLoad_standing, State.flPower_standing])

theorem execFullLogicLoad_leads (dt : Nat) (bad : Fin 3) :
    Leads (execFullLogicLoad dt bad s) (s.tickTo dt) [.configLoad] [.recovery] := by
  refine ⟨_, rfl, ?_⟩
  split
  next go =>
    have at_ : (s.tickTo dt).dev ∈ [DevState.configLoad] := by
      simp only [Bool.and_eq_true, beq_iff_eq] at go
      exact List.mem_singleton.2 go.1.1.1.1
    exact ((s.tickTo dt).step7_standing bad.val).elim .inl fun e => Leads.moved at_ e (List.mem_singleton.2 rfl)
  · exact .inl rfl

/-- With its supply back the device passes from SAFE to CONFIG_LOAD. -/
theorem State.flReturn_standing :
    s.flReturn.standing = s.standing ∨ s.dev = .safe ∧ s.flReturn.standing = (.configLoad, s.standing.2) := by
  unfold State.flReturn
  split
  next back =>
    have at_ : s.dev = .safe := by
      simp only [Bool.and_eq_true, beq_iff_eq] at back
      exact back.1.1.1
    refine .inr ⟨at_, ?_⟩
    simp only [State.bt_standing, implies_true, State.levelOff_standing, State.toConfigLoad_standing]
  · exact .inl rfl

theorem execFullLogicPowerReturn_leads (dt : Nat) :
    Leads (execFullLogicPowerReturn dt s) (s.tickTo dt) [.safe] [.configLoad] := by
  refine ⟨_, rfl, ?_⟩
  split
  · exact .inl (by rw [State.ite_standing, State.safeClear_standing, State.pw_standing, ite_self])
  · exact (s.tickTo dt).flReturn_standing.elim .inl fun ⟨at_, e⟩ => Leads.moved (List.mem_singleton.2 at_) e (List.mem_singleton.2 rfl)

theorem execFullLogicRestore_leads (dt : Nat) (bad : Fin 3) :
    Leads (execFullLogicRestore dt bad s) (s.tickTo dt) [.safe, .configLoad] [.configLoad, .recovery] := by
  refine ⟨_, rfl, ?_⟩
  have back := (s.tickTo dt).flReturn_standing
  generalize (s.tickTo dt).flReturn = u at back ⊢
  split
  next go =>
    have at_ : u.dev = .configLoad := by
      simp only [Bool.and_eq_true, beq_iff_eq] at go
      exact go.1.1.1.1
    have home : u.standing.1 = .configLoad := u.home_ne at_ (by decide)
    have was : (s.tickTo dt).dev ∈ [DevState.safe, .configLoad] ∧ u.standing.2 = (s.tickTo dt).standing.2 := by
      rcases back with e | ⟨safe, e⟩
      · refine ⟨?_, congrArg Prod.snd e⟩
        have home' : (s.tickTo dt).home = .configLoad := (congrArg Prod.fst e).symm.trans home
        unfold State.home at home'
        split at home'
        next safe => exact List.mem_cons.2 (.inl safe)
        · exact List.mem_cons.2 (.inr (List.mem_singleton.2 home'))
      · exact ⟨List.mem_cons.2 (.inl safe), by rw [e]⟩
    have cleared := (u.step7 bad.val).bt_standing (fun b => { b with reload := false }) fun _ => rfl
    rcases u.step7_standing bad.val with e | e
    · refine Leads.moved was.1 (d := .configLoad) (cleared.trans (e.trans ?_)) (List.mem_cons_self ..)
      rw [← was.2, ← home]
    · refine Leads.moved was.1 (d := .recovery) (cleared.trans (e.trans ?_)) (by decide)
      rw [was.2]
  · exact back.elim .inl fun ⟨safe, e⟩ => Leads.moved (List.mem_cons.2 (.inl safe)) e (List.mem_cons_self ..)

theorem execEnterRun_leads (dt : Nat) : Leads (execEnterRun dt s) (s.tickTo dt) [.ready] [.run] := by
  refine ⟨_, rfl, ?_⟩
  dsimp only
  split
  · exact .inl rfl
  next go =>
    have at_ : (s.tickTo dt).dev ∈ [DevState.ready] := by
      simp only [Bool.not_eq_true', Bool.not_eq_false, Bool.and_eq_true, beq_iff_eq] at go
      exact List.mem_singleton.2 go.1.1.1
    refine Leads.moved at_ ?_ (List.mem_singleton.2 rfl)
    simp only [forFin_standing, State.ite_standing, State.progStart_standing, ite_self, implies_true, State.fbAdd_standing,
      State.slotStat_standing, State.trialsEnd_standing, State.bt_standing, State.put_standing, State.setFail_standing]
    exact State.moved_standing _ (by decide)

theorem execBootWatchdogExpiry_leads (dt : Nat) :
    Leads (execBootWatchdogExpiry dt s) (s.tickTo dt) [.boot, .configLoad, .ready] [.recovery] := by
  refine ⟨_, rfl, ?_⟩
  split
  next due =>
    have at_ : (s.tickTo dt).dev ∈ [DevState.boot, .configLoad, .ready] := by
      simp only [Bool.and_eq_true, Bool.or_eq_true, beq_iff_eq] at due
      simpa [or_assoc] using due.1.2
    exact Leads.moved at_ (by rw [State.enterRecovery_standing, State.pulse_standing]) (List.mem_singleton.2 rfl)
  · exact .inl rfl

/-! ## The entry to READY (R111, R125) -/

theorem State.enterSafe_rest : s.enterSafe.standing.2 = s.standing.2 := by
  have entered : (State.bt { s with dev := .safe } fun b => { b with fromReady := s.dev == .ready }).standing.2 = s.standing.2 := rfl
  unfold State.enterSafe
  simp only [State.fbAdd_standing, State.levelOn_standing, State.v5Follow_standing, State.dumpOff_standing, State.stopAllCtx_standing,
    State.upd_standing, State.gathered_standing, State.endAll_standing, forFin_standing, State.ite_standing,
    State.axisFault_standing, implies_true, ite_self, entered]

theorem State.dev_of_home {d : DevState} (h : s.home = d) : s.dev = d ∨ s.dev = .safe ∧ (d = .ready ∨ d = .run) := by
  unfold State.home at h
  split at h
  next safe =>
    refine .inr ⟨safe, ?_⟩
    subst h
    split
    · exact .inl rfl
    · exact .inr rfl
  · exact .inl h

/-- The device has entered READY, or SAFE at once; a peripheral configuration is valid from here. -/
theorem State.enterReady_standing (pins : BitVec 48) :
    ((s.enterReady pins).dev = .ready ∨ (s.enterReady pins).dev = .safe) ∧
      (s.enterReady pins).standing.2 = (s.boot.por, s.boot.sys, s.boot.coreOn, true, s.pending, s.now) := by
  have begun : (State.bt { s with dev := .ready } fun b => { b with cfgValid := true, ceilFrozen := false, reload := false, stage := 0 }).standing =
      (.ready, s.boot.por, s.boot.sys, s.boot.coreOn, true, s.pending, s.now) := rfl
  unfold State.enterReady
  dsimp only
  generalize hu : State.tickMark _ pins = u
  have entered : u.standing = (.ready, s.boot.por, s.boot.sys, s.boot.coreOn, true, s.pending, s.now) := by
    rw [← hu]
    simp only [State.tickMark_standing, State.startPwm_standing, State.put_standing, forFin_standing, State.ax_standing, implies_true,
      State.upd_standing, State.su_standing, State.v5Follow_standing, State.surveyStart_standing, State.svu_standing, State.pulse_standing,
      begun]
  split
  · exact ⟨.inr u.enterSafe_dev, u.enterSafe_rest.trans (by rw [entered])⟩
  · refine ⟨?_, by rw [entered]⟩
    exact (u.dev_of_home (congrArg Prod.fst entered)).imp id And.left

end Sys2Proof.Machine
end

section
/-!
PROOF. Commands that are neither resets nor steps of a start, all at once.
-/

namespace Sys2Proof

/-! ## Every command (R243, Table 4-4) -/

/-- The time that passes before a command. -/
def Instr.dt : Instr → Nat
  | .aintrgEdge e => e.dt
  | .tickMark dt _ | .commitPoint dt _ | .syncInEdge dt _ | .markTimeout dt _ | .scrubRead dt _ | .eccWriteBack dt _ _ | .memInject dt _ _
  | .memClrCnt dt _ | .memClrFirst dt _ | .clrMax dt _ | .clrTotal dt _ | .arbWeightUpdate dt _ _ _ | .clrMaxwait dt _
  | .homeLimitFilterPass dt _ _ _ | .brakeClampEngage dt _ | .brakeClampRelease dt _ | .blockingSwitchOn dt _ | .blockingSwitchOff dt _
  | .vmLockout dt _ _ | .vmLockoutRelease dt _ | .uvWarnChange dt _ _ | .vmOvervoltage dt _ _ | .vmOvervoltageClear dt _ _
  | .vmReversed dt _ _ | .vmReverseClear dt _ | .brakeDumpOn dt | .brakeDumpRelease dt | .brakeHot dt | .brakeHoldoffEnd dt
  | .logicSourceChange dt _ | .fullLogicPowerLoss dt | .fullLogicPowerDown dt | .fullLogicPowerReturn dt | .fullLogicRestore dt _
  | .v5outOverload dt | .v5outRetry dt | .v5outFaultClear dt | .powerFail dt _ _ _ _ | .holdupEnd dt | .fetOvercurrent dt _ _
  | .clrOc dt _ _ | .clrOpen dt _ _ | .openCoilDetect dt _ | .thermalBackstop dt _ _ _ | .thermalBackstopRelease dt _ _ _
  | .tempReadingStale dt _ | .boostLock dt _ | .boostUnlock dt _ | .powerOnReset dt | .powerOnResetRelease dt | .systemReset dt
  | .systemResetRelease dt _ | .coreReset dt _ | .coreResetRelease dt | .optionCommit dt _ _ | .enterBoot dt | .clockFailure dt
  | .firmwareSelect dt | .imageValidate dt _ | .configMonumentReads dt _ | .fullLogicAvailable dt | .fullLogicLoad dt _ | .enterReady dt _
  | .enterRun dt | .bootWatchdogExpiry dt | .surveyorWatchdogExpiry dt | .hostWatchdogExpiry dt | .restart dt _ | .clrFailcnt dt _
  | .safeExit dt _ | .axisReset dt _ _ | .axisResetTimeout dt _ | .ringReset dt _ _ | .registerWrite dt _ _ _ | .unlock dt _ _
  | .updateStrobe dt _ _ | .indAddrWrite dt _ _ | .indPrefetchDone dt _ | .indDataRead dt _ | .indDataWrite dt _ _ | .indWriteApply dt
  | .mailboxRequest dt _ _ _ | .mailboxLastWordRead dt _ _ | .accstatClr dt _ | .frameStart dt _ | .citenNop dt _ | .citenRead dt _
  | .citenWrite dt _ | .citenBadOp dt _ _ | .frameDeferredPerform dt _ | .snap dt _ | .spiCntClr dt _ | .chainModeSelect dt _ _
  | .chainTransfer dt _ _ | .chainWindowRead dt _ _ | .chainEnable dt _ _ | .chainFollow dt _ _ | .chainQstop dt _ | .chainClrflt dt _
  | .chainCurrent dt _ _ | .chainStepscale dt _ _ | .chainVmax dt _ _ | .chainAmax dt _ _ | .chainDmax dt _ _ | .chainTarget dt _ _
  | .grelasPoll dt _ | .grelasResponseCompose dt | .grelasResponseTransmit dt | .grelasTickPacket dt _ | .grelasMarkIssue dt _
  | .linkCurrentLimit dt _ | .linkReversed dt _ | .grelasCntClr dt _ | .enable dt _ _ _ | .release dt _ _ _ | .stop dt _ _ _
  | .qstop dt _ _ _ | .clearFault dt _ _ _ | .setPosition dt _ _ _ | .followOn dt _ _ _ | .followOff dt _ _ _ | .moveTrap dt _ _ _
  | .moveScurve dt _ _ _ | .moveVel dt _ _ _ | .home dt _ _ _ | .dwell dt _ _ _ | .dwellComplete dt _ | .coordPart dt _ _ _
  | .stationStop dt _ _ _ | .nop dt _ _ _ | .fence dt _ _ _ | .cancelTag dt _ _ _ | .cancelRing dt _ _ _ | .progStart dt _ _ _
  | .progStop dt _ _ _ | .backlogPost dt | .tagQuery dt _ _ | .ringRelease dt _ _ _ | .ringRecordAutoAdvance dt _ _ | .ringCntClr dt _ _
  | .stallReport dt _ | .closureError dt _ | .homingTimeout dt _ | .stepPulse dt _ _ | .holdReductionStart dt _ | .idchkGo dt _ _
  | .idchkPulseEnd dt _ _ | .idchkComplete dt _ _ _ | .pwmBoundary dt _ | .pwmEdge dt _ | .peakComparatorTrip dt _ | .phaseTimeLimit dt _
  | .decayZeroCross dt _ | .coilSample dt _ _ | .coilConversionDone dt _ _ | .syncPulse dt _ | .regCntClr dt _ _ | .pwmCntClr dt _ _
  | .adcCntClr dt _ _ | .tripAssert dt _ | .tripRelease dt _ | .tripClear dt _ _ | .tripCntClr dt _ | .backdriveEpisodeStart dt _
  | .backdriveEpisodeEnd dt _ | .obsCalGo dt _ _ | .obsCalStillEnd dt _ | .obsCalComplete dt _ | .obsCalAbort dt _ _ | .obsCalTimeout dt _
  | .obsCntClr dt _ _ | .encoderTransition dt _ _ _ | .indexMark dt _ | .encoderStandstill dt _ | .ssiRequest dt _ _ _
  | .ssiAutoRequest dt _ _ | .ssiWordDone dt _ _ _ | .ssiRecoveryEnd dt _ _ | .encFaultClear dt _ _ | .dpCntClr dt _ _
  | .dirchkRestart dt _ _ | .surveyRoundStart dt _ | .surveyTickTrigger dt _ | .svTrg dt _ _ | .svItrg dt _ _
  | .surveyInjectedTickTrigger dt _ | .surveyConversionDone dt _ _ | .surveyEntryComplete dt _ | .housekeepingDue dt _
  | .housekeepingComplete dt _ | .xchkFail dt | .surveyPowerDown dt _ | .surveyStartupDone dt _ | .svCntClr dt _ _ | .svCalZero dt _ _
  | .svCalFull dt _ _ | .svCalReadingsDone dt _ | .svCalStore dt _ _ _ | .idPresencePoll dt _ | .idLinePresentRead dt _ | .idRescan dt _ _
  | .idReadDone dt _ _ | .idReadRetry dt _ | .idCntClr dt _ | .push dt _ _ _ _ | .waittag dt _ _ | .waittagTimeout dt _ | .waitin dt _ _
  | .waitinTimeout dt _ | .waittime dt _ _ | .waittimeExpiry dt _ | .brev dt _ _ | .loop dt _ _ | .raise dt _ _ | .progHome dt _ _ _
  | .setreg dt _ _ | .progEnd dt _ _ | .kaMonitorReading dt _ _ _ _ _ | .fieldClockSet dt _ _ | .fieldBookWriteDone dt | .fbCntClr dt _
  | .sealCommit dt _ _ | .sealProgramDone dt _ | .updBegin dt _ _ | .updWrite dt _ | .updVerify dt _ | .updActivate dt _ | .updAbort dt _
  | .updRevoke dt _ _ _ | .updOperationDone dt _ | .moistureRound dt | .moistureTest dt _ | .mwCntClr dt _ | .eventAck dt _ _
  | .eventSimulate dt _ _ | .captureFreeze dt | .closMaxClr dt _ _ | .resetHoldoffEnd dt => dt

/-- The resets, the steps of a start, and their ends: what moves the device (Table 4-4). -/
def Instr.starts : Instr → Bool
  | .fullLogicPowerReturn _ | .fullLogicRestore _ _ | .powerOnReset _ | .powerOnResetRelease _ | .systemReset _ | .systemResetRelease _ _
  | .coreReset _ _ | .coreResetRelease _ | .enterBoot _ | .clockFailure _ | .firmwareSelect _ | .imageValidate _ _ | .fullLogicLoad _ _
  | .enterReady _ _ | .enterRun _ | .bootWatchdogExpiry _ | .resetHoldoffEnd _ => true
  | _ => false

end Sys2Proof

namespace Sys2Proof.Machine

open Host

variable (s : State)

theorem Stays.serves {o : Outcome State Fault Refusal} {u : State} (h : Stays o u) : ∃ e, o = done e ∧ u.serves e := by
  obtain ⟨e, out, same⟩ := h
  exact ⟨e, out, .inl same⟩

theorem execChainTransfer_serves (dt edges : Nat) (ws : List (BitVec 40)) :
    ∃ e, execChainTransfer dt edges ws s = done e ∧ (s.tickTo dt).serves e := by
  refine ⟨_, rfl, ?_⟩
  split
  · exact .rfl'
  split
  · exact .inl (State.frameUndo_standing _)
  dsimp only
  split
  · exact State.spiFrame_serves _ _ _
  have shut : (s.tickTo dt).ensureOpen.frameShut.standing = (s.tickTo dt).standing := by
    rw [State.frameShut_standing, State.ensureOpen_standing]
  refine .inl ?_
  split
  · rw [State.chainBad_standing, shut]
  · simp only [State.ite_standing, State.strobed_standing, forFin_standing, State.chainLatch_standing, State.hostAlive_standing, ite_self,
      implies_true, shut]

theorem execFrameDeferredPerform_serves (dt : Nat) (lk : Link) :
    ∃ e, execFrameDeferredPerform dt lk s = done e ∧ (s.tickTo dt).serves e := by
  refine ⟨_, rfl, ?_⟩
  generalize s.tickTo dt = u
  split
  · exact .rfl'
  have turned : u.serves (if (u.link lk).held.isSome then (u.turnOf lk).performHeld lk else u) :=
    .ite ((u.turnOf_serves lk).trans (State.performHeld_serves _ _)) .rfl'
  cases lk with
  | spi => exact turned
  | gr => exact turned.trans (.ite (State.grTake_serves _ _) .rfl')

/-- What a command does to the device that is neither a reset nor part of a start: nothing, or RESTART. -/
theorem exec_serves (i : Instr) (ordinary : i.starts = false) : ∃ e, exec i s = done e ∧ (s.tickTo i.dt).serves e := by
  cases i with
  | tickMark dt pins => exact (execTickMark_stays dt pins s).serves
  | commitPoint dt fin => exact (execCommitPoint_stays dt fin s).serves
  | syncInEdge dt pins => exact (execSyncInEdge_stays dt pins s).serves
  | markTimeout dt pins => exact (execMarkTimeout_stays dt pins s).serves
  | scrubRead dt mem => exact (execScrubRead_stays dt mem s).serves
  | eccWriteBack dt mem written => exact (execEccWriteBack_stays dt mem written s).serves
  | memInject dt lk data => exact ⟨_, rfl, State.rowWrite_serves _ _ _ _⟩
  | memClrCnt dt lk => exact ⟨_, rfl, State.rowPulse_serves _ _ _ _⟩
  | memClrFirst dt lk => exact ⟨_, rfl, State.rowPulse_serves _ _ _ _⟩
  | clrMax dt lk => exact ⟨_, rfl, State.rowPulse_serves _ _ _ _⟩
  | clrTotal dt lk => exact ⟨_, rfl, State.rowPulse_serves _ _ _ _⟩
  | arbWeightUpdate dt act sp wait => exact (execArbWeightUpdate_stays dt act sp wait s).serves
  | clrMaxwait dt lk => exact ⟨_, rfl, State.rowPulse_serves _ _ _ _⟩
  | homeLimitFilterPass dt n pin lvl => exact (execHomeLimitFilterPass_stays dt n pin lvl s).serves
  | brakeClampEngage dt st => exact (execBrakeClampEngage_stays dt st s).serves
  | brakeClampRelease dt st => exact (execBrakeClampRelease_stays dt st s).serves
  | blockingSwitchOn dt st => exact (execBlockingSwitchOn_stays dt st s).serves
  | blockingSwitchOff dt st => exact (execBlockingSwitchOff_stays dt st s).serves
  | vmLockout dt st mv => exact (execVmLockout_stays dt st mv s).serves
  | vmLockoutRelease dt st => exact (execVmLockoutRelease_stays dt st s).serves
  | uvWarnChange dt st below => exact (execUvWarnChange_stays dt st below s).serves
  | vmOvervoltage dt st mv => exact (execVmOvervoltage_stays dt st mv s).serves
  | vmOvervoltageClear dt st mv => exact (execVmOvervoltageClear_stays dt st mv s).serves
  | vmReversed dt st mv => exact (execVmReversed_stays dt st mv s).serves
  | vmReverseClear dt st => exact (execVmReverseClear_stays dt st s).serves
  | brakeDumpOn dt => exact (execBrakeDumpOn_stays dt s).serves
  | brakeDumpRelease dt => exact (execBrakeDumpRelease_stays dt s).serves
  | brakeHot dt => exact (execBrakeHot_stays dt s).serves
  | brakeHoldoffEnd dt => exact (execBrakeHoldoffEnd_stays dt s).serves
  | logicSourceChange dt toVm => exact (execLogicSourceChange_stays dt toVm s).serves
  | fullLogicPowerLoss dt => exact (execFullLogicPowerLoss_stays dt s).serves
  | fullLogicPowerDown dt => exact (execFullLogicPowerDown_stays dt s).serves
  | v5outOverload dt => exact (execV5outOverload_stays dt s).serves
  | v5outRetry dt => exact (execV5outRetry_stays dt s).serves
  | v5outFaultClear dt => exact (execV5outFaultClear_stays dt s).serves
  | powerFail dt vm0 vm1 vlink vbak => exact (execPowerFail_stays dt vm0 vm1 vlink vbak s).serves
  | holdupEnd dt => exact (execHoldupEnd_stays dt s).serves
  | fetOvercurrent dt c fets => exact (execFetOvercurrent_stays dt c fets s).serves
  | clrOc dt lk mask => exact ⟨_, rfl, State.rowWrite_serves _ _ _ _⟩
  | clrOpen dt lk mask => exact ⟨_, rfl, State.rowWrite_serves _ _ _ _⟩
  | openCoilDetect dt c => exact (execOpenCoilDetect_stays dt c s).serves
  | thermalBackstop dt st k temp => exact (execThermalBackstop_stays dt st k temp s).serves
  | thermalBackstopRelease dt st k temp => exact (execThermalBackstopRelease_stays dt st k temp s).serves
  | tempReadingStale dt st => exact (execTempReadingStale_stays dt st s).serves
  | boostLock dt n => exact (execBoostLock_stays dt n s).serves
  | boostUnlock dt n => exact (execBoostUnlock_stays dt n s).serves
  | optionCommit dt bad corr => exact (execOptionCommit_stays dt bad corr s).serves
  | configMonumentReads dt rd => exact (execConfigMonumentReads_stays dt rd s).serves
  | fullLogicAvailable dt => exact (execFullLogicAvailable_stays dt s).serves
  | surveyorWatchdogExpiry dt => exact (execSurveyorWatchdogExpiry_stays dt s).serves
  | hostWatchdogExpiry dt => exact (execHostWatchdogExpiry_stays dt s).serves
  | restart dt lk => exact ⟨_, rfl, State.rowPulse_serves _ _ _ _⟩
  | clrFailcnt dt lk => exact ⟨_, rfl, State.rowPulse_serves _ _ _ _⟩
  | safeExit dt lk => exact ⟨_, rfl, State.rowPulse_serves _ _ _ _⟩
  | axisReset dt lk mask => exact ⟨_, rfl, State.rowWrite_serves _ _ _ _⟩
  | axisResetTimeout dt n => exact (execAxisResetTimeout_stays dt n s).serves
  | ringReset dt lk mask => exact ⟨_, rfl, State.rowWrite_serves _ _ _ _⟩
  | registerWrite dt lk addr data => exact ⟨_, rfl, State.rowWrite_serves _ _ _ _⟩
  | unlock dt lk key => exact ⟨_, rfl, State.rowWrite_serves _ _ _ _⟩
  | updateStrobe dt lk data => exact ⟨_, rfl, State.rowWrite_serves _ _ _ _⟩
  | indAddrWrite dt lk data => exact ⟨_, rfl, State.rowWrite_serves _ _ _ _⟩
  | indPrefetchDone dt lk => exact (execIndPrefetchDone_stays dt lk s).serves
  | indDataRead dt lk => exact (execIndDataRead_stays dt lk s).serves
  | indDataWrite dt lk data => exact ⟨_, rfl, State.rowWrite_serves _ _ _ _⟩
  | indWriteApply dt => exact (execIndWriteApply_stays dt s).serves
  | mailboxRequest dt lk m data => exact ⟨_, rfl, State.rowWrite_serves _ _ _ _⟩
  | mailboxLastWordRead dt lk m => exact (execMailboxLastWordRead_stays dt lk m s).serves
  | accstatClr dt lk => exact ⟨_, rfl, State.rowPulse_serves _ _ _ _⟩
  | frameStart dt mode3 => exact (execFrameStart_stays dt mode3 s).serves
  | citenNop dt f => exact ⟨_, rfl, State.spiFrame_serves _ _ _⟩
  | citenRead dt f => exact ⟨_, rfl, State.spiFrame_serves _ _ _⟩
  | citenWrite dt f => exact ⟨_, rfl, State.spiFrame_serves _ _ _⟩
  | citenBadOp dt op f => exact ⟨_, rfl, State.spiFrame_serves _ _ _⟩
  | frameDeferredPerform dt lk => exact execFrameDeferredPerform_serves s dt lk
  | snap dt lk => exact ⟨_, rfl, State.rowPulse_serves _ _ _ _⟩
  | spiCntClr dt lk => exact ⟨_, rfl, State.rowPulse_serves _ _ _ _⟩
  | chainModeSelect dt lk data => exact ⟨_, rfl, State.rowWrite_serves _ _ _ _⟩
  | chainTransfer dt edges ws => exact execChainTransfer_serves s dt edges ws
  | chainWindowRead dt v addr => exact ⟨_, rfl, .inl (State.chainOne_standing _ _ _)⟩
  | chainEnable dt v on => exact ⟨_, rfl, .inl (State.chainOne_standing _ _ _)⟩
  | chainFollow dt v on => exact ⟨_, rfl, .inl (State.chainOne_standing _ _ _)⟩
  | chainQstop dt v => exact ⟨_, rfl, .inl (State.chainOne_standing _ _ _)⟩
  | chainClrflt dt v => exact ⟨_, rfl, .inl (State.chainOne_standing _ _ _)⟩
  | chainCurrent dt v data => exact ⟨_, rfl, .inl (State.chainOne_standing _ _ _)⟩
  | chainStepscale dt v data => exact ⟨_, rfl, .inl (State.chainOne_standing _ _ _)⟩
  | chainVmax dt v data => exact ⟨_, rfl, .inl (State.chainOne_standing _ _ _)⟩
  | chainAmax dt v data => exact ⟨_, rfl, .inl (State.chainOne_standing _ _ _)⟩
  | chainDmax dt v data => exact ⟨_, rfl, .inl (State.chainOne_standing _ _ _)⟩
  | chainTarget dt v data => exact ⟨_, rfl, .inl (State.chainOne_standing _ _ _)⟩
  | grelasPoll dt p => exact ⟨_, rfl, State.grPacketIn_serves _ _⟩
  | grelasResponseCompose dt => exact (execGrelasResponseCompose_stays dt s).serves
  | grelasResponseTransmit dt => exact (execGrelasResponseTransmit_stays dt s).serves
  | grelasTickPacket dt p => exact ⟨_, rfl, State.grPacketIn_serves _ _⟩
  | grelasMarkIssue dt pins => exact (execGrelasMarkIssue_stays dt pins s).serves
  | linkCurrentLimit dt on => exact (execLinkCurrentLimit_stays dt on s).serves
  | linkReversed dt rev => exact (execLinkReversed_stays dt rev s).serves
  | grelasCntClr dt lk => exact ⟨_, rfl, State.rowPulse_serves _ _ _ _⟩
  | enable dt lk r d => exact ⟨_, rfl, State.issue_serves _ _ _ _ _⟩
  | release dt lk r d => exact ⟨_, rfl, State.issue_serves _ _ _ _ _⟩
  | stop dt lk r d => exact ⟨_, rfl, State.issue_serves _ _ _ _ _⟩
  | qstop dt lk r d => exact ⟨_, rfl, State.issue_serves _ _ _ _ _⟩
  | clearFault dt lk r d => exact ⟨_, rfl, State.issue_serves _ _ _ _ _⟩
  | setPosition dt lk r d => exact ⟨_, rfl, State.issue_serves _ _ _ _ _⟩
  | followOn dt lk r d => exact ⟨_, rfl, State.issue_serves _ _ _ _ _⟩
  | followOff dt lk r d => exact ⟨_, rfl, State.issue_serves _ _ _ _ _⟩
  | moveTrap dt lk r d => exact ⟨_, rfl, State.issue_serves _ _ _ _ _⟩
  | moveScurve dt lk r d => exact ⟨_, rfl, State.issue_serves _ _ _ _ _⟩
  | moveVel dt lk r d => exact ⟨_, rfl, State.issue_serves _ _ _ _ _⟩
  | home dt lk r d => exact ⟨_, rfl, State.issue_serves _ _ _ _ _⟩
  | dwell dt lk r d => exact ⟨_, rfl, State.issue_serves _ _ _ _ _⟩
  | dwellComplete dt q => exact (execDwellComplete_stays dt q s).serves
  | coordPart dt lk r d => exact ⟨_, rfl, State.issue_serves _ _ _ _ _⟩
  | stationStop dt lk r d => exact ⟨_, rfl, State.issue_serves _ _ _ _ _⟩
  | nop dt lk r d => exact ⟨_, rfl, State.issue_serves _ _ _ _ _⟩
  | fence dt lk r d => exact ⟨_, rfl, State.issue_serves _ _ _ _ _⟩
  | cancelTag dt lk r d => exact ⟨_, rfl, State.issue_serves _ _ _ _ _⟩
  | cancelRing dt lk r d => exact ⟨_, rfl, State.issue_serves _ _ _ _ _⟩
  | progStart dt lk r d => exact ⟨_, rfl, State.issue_serves _ _ _ _ _⟩
  | progStop dt lk r d => exact ⟨_, rfl, State.issue_serves _ _ _ _ _⟩
  | backlogPost dt => exact (execBacklogPost_stays dt s).serves
  | tagQuery dt lk tag => exact ⟨_, rfl, State.rowWrite_serves _ _ _ _⟩
  | ringRelease dt lk q upto => exact ⟨_, rfl, State.rowWrite_serves _ _ _ _⟩
  | ringRecordAutoAdvance dt lk q => exact (execRingRecordAutoAdvance_stays dt lk q s).serves
  | ringCntClr dt lk r => exact ⟨_, rfl, State.rowWrite_serves _ _ _ _⟩
  | stallReport dt n => exact (execStallReport_stays dt n s).serves
  | closureError dt n => exact (execClosureError_stays dt n s).serves
  | homingTimeout dt n => exact (execHomingTimeout_stays dt n s).serves
  | stepPulse dt n dir => exact (execStepPulse_stays dt n dir s).serves
  | holdReductionStart dt n => exact (execHoldReductionStart_stays dt n s).serves
  | idchkGo dt lk n => exact ⟨_, rfl, State.rowPulse_serves _ _ _ _⟩
  | idchkPulseEnd dt n reached => exact (execIdchkPulseEnd_stays dt n reached s).serves
  | idchkComplete dt n dutyA dutyB => exact (execIdchkComplete_stays dt n dutyA dutyB s).serves
  | pwmBoundary dt c => exact (execPwmBoundary_stays dt c s).serves
  | pwmEdge dt c => exact (execPwmEdge_stays dt c s).serves
  | peakComparatorTrip dt c => exact (execPeakComparatorTrip_stays dt c s).serves
  | phaseTimeLimit dt c => exact (execPhaseTimeLimit_stays dt c s).serves
  | decayZeroCross dt c => exact (execDecayZeroCross_stays dt c s).serves
  | coilSample dt c slot => exact (execCoilSample_stays dt c slot s).serves
  | coilConversionDone dt c code => exact (execCoilConversionDone_stays dt c code s).serves
  | syncPulse dt c => exact (execSyncPulse_stays dt c s).serves
  | regCntClr dt lk c => exact ⟨_, rfl, State.rowPulse_serves _ _ _ _⟩
  | pwmCntClr dt lk c => exact ⟨_, rfl, State.rowPulse_serves _ _ _ _⟩
  | adcCntClr dt lk c => exact ⟨_, rfl, State.rowPulse_serves _ _ _ _⟩
  | tripAssert dt t => exact (execTripAssert_stays dt t s).serves
  | tripRelease dt t => exact (execTripRelease_stays dt t s).serves
  | tripClear dt lk mask => exact ⟨_, rfl, State.rowWrite_serves _ _ _ _⟩
  | tripCntClr dt lk => exact ⟨_, rfl, State.rowWrite_serves _ _ _ _⟩
  | backdriveEpisodeStart dt n => exact (execBackdriveEpisodeStart_stays dt n s).serves
  | backdriveEpisodeEnd dt n => exact (execBackdriveEpisodeEnd_stays dt n s).serves
  | obsCalGo dt lk n => exact ⟨_, rfl, State.rowPulse_serves _ _ _ _⟩
  | obsCalStillEnd dt n => exact (execObsCalStillEnd_stays dt n s).serves
  | obsCalComplete dt n => exact (execObsCalComplete_stays dt n s).serves
  | obsCalAbort dt lk n => exact ⟨_, rfl, State.rowPulse_serves _ _ _ _⟩
  | obsCalTimeout dt n => exact (execObsCalTimeout_stays dt n s).serves
  | obsCntClr dt lk n => exact ⟨_, rfl, State.rowPulse_serves _ _ _ _⟩
  | encoderTransition dt n a b => exact (execEncoderTransition_stays dt n a b s).serves
  | indexMark dt n => exact (execIndexMark_stays dt n s).serves
  | encoderStandstill dt n => exact (execEncoderStandstill_stays dt n s).serves
  | ssiRequest dt lk n high => exact (execSsiRequest_stays dt lk n high s).serves
  | ssiAutoRequest dt n high => exact (execSsiAutoRequest_stays dt n high s).serves
  | ssiWordDone dt n w endBit => exact (execSsiWordDone_stays dt n w endBit s).serves
  | ssiRecoveryEnd dt n high => exact (execSsiRecoveryEnd_stays dt n high s).serves
  | encFaultClear dt lk n => exact ⟨_, rfl, State.rowWrite_serves _ _ _ _⟩
  | dpCntClr dt lk n => exact ⟨_, rfl, State.rowWrite_serves _ _ _ _⟩
  | dirchkRestart dt lk n => exact ⟨_, rfl, State.rowWrite_serves _ _ _ _⟩
  | surveyRoundStart dt st => exact (execSurveyRoundStart_stays dt st s).serves
  | surveyTickTrigger dt st => exact (execSurveyTickTrigger_stays dt st s).serves
  | aintrgEdge dt => exact (execAintrgEdge_stays dt s).serves
  | svTrg dt lk st => exact ⟨_, rfl, State.rowWrite_serves _ _ _ _⟩
  | svItrg dt lk st => exact ⟨_, rfl, State.rowWrite_serves _ _ _ _⟩
  | surveyInjectedTickTrigger dt st => exact (execSurveyInjectedTickTrigger_stays dt st s).serves
  | surveyConversionDone dt st uv => exact (execSurveyConversionDone_stays dt st uv s).serves
  | surveyEntryComplete dt st => exact (execSurveyEntryComplete_stays dt st s).serves
  | housekeepingDue dt st => exact (execHousekeepingDue_stays dt st s).serves
  | housekeepingComplete dt st => exact (execHousekeepingComplete_stays dt st s).serves
  | xchkFail dt => exact (execXchkFail_stays dt s).serves
  | surveyPowerDown dt st => exact (execSurveyPowerDown_stays dt st s).serves
  | surveyStartupDone dt st => exact (execSurveyStartupDone_stays dt st s).serves
  | svCntClr dt lk st => exact ⟨_, rfl, State.rowWrite_serves _ _ _ _⟩
  | svCalZero dt lk st => exact ⟨_, rfl, State.rowPulse_serves _ _ _ _⟩
  | svCalFull dt lk st => exact ⟨_, rfl, State.rowPulse_serves _ _ _ _⟩
  | svCalReadingsDone dt st => exact (execSvCalReadingsDone_stays dt st s).serves
  | svCalStore dt lk st ok => exact (execSvCalStore_stays dt lk st ok s).serves
  | idPresencePoll dt ack => exact (execIdPresencePoll_stays dt ack s).serves
  | idLinePresentRead dt n => exact (execIdLinePresentRead_stays dt n s).serves
  | idRescan dt lk mask => exact (execIdRescan_stays dt lk mask s).serves
  | idReadDone dt n rd => exact (execIdReadDone_stays dt n rd s).serves
  | idReadRetry dt n => exact (execIdReadRetry_stays dt n s).serves
  | idCntClr dt lk => exact (execIdCntClr_stays dt lk s).serves
  | push dt x w1 w2 w3 => exact (execPush_stays dt x w1 w2 w3 s).serves
  | waittag dt x w => exact (execWaittag_stays dt x w s).serves
  | waittagTimeout dt x => exact (execWaittagTimeout_stays dt x s).serves
  | waitin dt x w => exact (execWaitin_stays dt x w s).serves
  | waitinTimeout dt x => exact (execWaitinTimeout_stays dt x s).serves
  | waittime dt x w => exact (execWaittime_stays dt x w s).serves
  | waittimeExpiry dt x => exact (execWaittimeExpiry_stays dt x s).serves
  | brev dt x w => exact (execBrev_stays dt x w s).serves
  | loop dt x w => exact (execLoop_stays dt x w s).serves
  | raise dt x w => exact (execRaise_stays dt x w s).serves
  | progHome dt x w1 w2 => exact (execProgHome_stays dt x w1 w2 s).serves
  | setreg dt x w => exact (execSetreg_stays dt x w s).serves
  | progEnd dt x w => exact (execProgEnd_stays dt x w s).serves
  | kaMonitorReading dt t6 t7 vlink vbak ilink => exact (execKaMonitorReading_stays dt t6 t7 vlink vbak ilink s).serves
  | fieldClockSet dt lk secs => exact (execFieldClockSet_stays dt lk secs s).serves
  | fieldBookWriteDone dt => exact (execFieldBookWriteDone_stays dt s).serves
  | fbCntClr dt lk => exact (execFbCntClr_stays dt lk s).serves
  | sealCommit dt lk data => exact (execSealCommit_stays dt lk data s).serves
  | sealProgramDone dt ok => exact (execSealProgramDone_stays dt ok s).serves
  | updBegin dt lk image => exact (execUpdBegin_stays dt lk image s).serves
  | updWrite dt lk => exact (execUpdWrite_stays dt lk s).serves
  | updVerify dt lk => exact (execUpdVerify_stays dt lk s).serves
  | updActivate dt lk => exact (execUpdActivate_stays dt lk s).serves
  | updAbort dt lk => exact (execUpdAbort_stays dt lk s).serves
  | updRevoke dt lk image slotB => exact (execUpdRevoke_stays dt lk image slotB s).serves
  | updOperationDone dt ok => exact (execUpdOperationDone_stays dt ok s).serves
  | moistureRound dt => exact (execMoistureRound_stays dt s).serves
  | moistureTest dt mv => exact (execMoistureTest_stays dt mv s).serves
  | mwCntClr dt lk => exact (execMwCntClr_stays dt lk s).serves
  | eventAck dt lk e => exact ⟨_, rfl, State.rowWrite_serves _ _ _ _⟩
  | eventSimulate dt lk e => exact ⟨_, rfl, State.rowWrite_serves _ _ _ _⟩
  | captureFreeze dt => exact (execCaptureFreeze_stays dt s).serves
  | closMaxClr dt lk n => exact ⟨_, rfl, State.rowPulse_serves _ _ _ _⟩
  | fullLogicPowerReturn _ | fullLogicRestore _ _ | powerOnReset _ | powerOnResetRelease _ | systemReset _ | systemResetRelease _ _
  | coreReset _ _ | coreResetRelease _ | enterBoot _ | clockFailure _ | firmwareSelect _ | imageValidate _ _ | fullLogicLoad _ _
  | enterReady _ _ | enterRun _ | bootWatchdogExpiry _ | resetHoldoffEnd _ => exact Bool.noConfusion ordinary

end Sys2Proof.Machine
end

section
/-!
PROOF. The device moves as Table 4-4 lets it (O58), and every command answers in its time (O55).
-/

namespace Sys2Proof.Machine

open Host

/-! ## The device state (Table 4-4) -/

/-- The transitions of Table 4-4 but for those to RESET, with R110 and R126, and those that fall two on one instant. -/
def deviceMoves : List (DevState × DevState) :=
  [(.reset, .optionLoad), (.optionLoad, .boot), (.optionLoad, .recovery), (.boot, .configLoad), (.boot, .recovery), (.configLoad, .ready),
    (.configLoad, .safe), (.configLoad, .recovery), (.configLoad, .boot), (.ready, .run), (.ready, .safe), (.ready, .boot),
    (.ready, .recovery), (.run, .safe), (.run, .boot), (.run, .recovery), (.safe, .ready), (.safe, .run), (.safe, .configLoad),
    (.safe, .boot), (.safe, .recovery), (.recovery, .boot)]

variable (s : State)

/-- The device has moved as Table 4-4 lets it, and a held reset goes with RESET again. -/
def State.moves (t : State) : Prop := t.resetForm ∧ (t.dev = s.dev ∨ t.dev = .reset ∨ (s.dev, t.dev) ∈ deviceMoves)

variable {s} {t : State}

theorem State.home_eq_iff {d : DevState} (ready : d ≠ .ready) (run : d ≠ .run) (safe : d ≠ .safe) : s.home = d ↔ s.dev = d := by
  refine ⟨fun h => ?_, fun h => s.home_ne h safe⟩
  rcases s.dev_of_home h with at_ | ⟨-, out | out⟩
  · exact at_
  · exact absurd out ready
  · exact absurd out run

/-- `resetForm` speaks of nothing but the standing. -/
theorem State.resetForm_iff : s.resetForm ↔ (s.boot.por = true ∨ s.boot.sys = true → s.home = .reset) ∧
    (s.home = .reset ∨ s.home = .optionLoad → s.boot.coreOn = false ∧ s.boot.cfgValid = false) := by
  unfold State.resetForm
  rw [State.home_eq_iff (by decide) (by decide) (by decide), State.home_eq_iff (by decide) (by decide) (by decide)]

theorem State.resetForm.of_standing (h : s.resetForm) (e : t.standing = s.standing) : t.resetForm := by
  obtain ⟨home, por, sys, core, valid, -, -⟩ := State.standing_iff.1 e
  rw [State.resetForm_iff] at h ⊢
  rwa [home, por, sys, core, valid]

/-- Between a state and SAFE with a return to it, both ways, Table 4-4 lets the device pass. -/
theorem State.dev_of_same_home (e : t.home = s.home) : t.dev = s.dev ∨ t.dev = .reset ∨ (s.dev, t.dev) ∈ deviceMoves := by
  rcases s.dev_of_home rfl with at_ | ⟨at_, back⟩ <;> rcases t.dev_of_home e with to_ | ⟨to_, back'⟩
  · exact .inl (to_.trans at_.symm)
  · rw [to_, at_]
    rcases back' with d | d <;> rw [d] <;> decide
  · rw [to_, at_]
    rcases back with d | d <;> rw [d] <;> decide
  · exact .inl (to_.trans at_.symm)

theorem State.moves.same (h : s.resetForm) (e : t.standing = s.standing) : s.moves t :=
  ⟨h.of_standing e, State.dev_of_same_home (congrArg Prod.fst e)⟩

/-- The device has passed to `d`, where no reset is held. -/
theorem State.moves.passed {d : DevState} (home : t.home = d) (por : t.boot.por = false) (sys : t.boot.sys = false)
    (out : d ≠ .reset ∧ (d = .optionLoad → t.boot.coreOn = false ∧ t.boot.cfgValid = false))
    (move : s.dev = d ∨ (s.dev, d) ∈ deviceMoves) (safe : d = .ready ∨ d = .run → (s.dev, DevState.safe) ∈ deviceMoves) : s.moves t := by
  refine ⟨State.resetForm_iff.2 ⟨fun held => ?_, fun low => ?_⟩, ?_⟩
  · rw [por, sys] at held
    exact held.elim Bool.noConfusion Bool.noConfusion
  · rw [home] at low
    exact low.elim (fun r => absurd r out.1) out.2
  · rcases t.dev_of_home home with to_ | ⟨to_, back⟩
    · rw [to_]
      exact move.imp Eq.symm .inr
    · rw [to_]
      exact .inr (.inr (safe back))

theorem State.resetForm.free (h : s.resetForm) (out : s.dev ≠ .reset) : s.boot.por = false ∧ s.boot.sys = false := by
  have no : ¬ (s.boot.por = true ∨ s.boot.sys = true) := fun held => out (h.1 held)
  simpa only [not_or, Bool.not_eq_true] using no

/-- The device is in RESET, with no core reset and no valid configuration. -/
theorem State.moves.reset {por sys : Bool} {q : List Instr} {now : Nat} (e : t.standing = (.reset, por, sys, false, false, q, now)) :
    s.moves t := by
  simp only [State.standing, Prod.mk.injEq] at e
  obtain ⟨home, -, -, core, valid, -, -⟩ := e
  refine ⟨State.resetForm_iff.2 ⟨fun _ => home, fun _ => ⟨core, valid⟩⟩, .inr (.inl ?_)⟩
  exact (State.home_eq_iff (by decide) (by decide) (by decide)).1 home

/-- Option load starts out of RESET. -/
theorem State.moves.optionLoad (h : s.resetForm) (at_ : s.dev = .reset) {q : List Instr} {now : Nat}
    (e : t.standing = (.optionLoad, false, false, s.boot.coreOn, s.boot.cfgValid, q, now)) : s.moves t := by
  obtain ⟨core, valid⟩ := h.2 (.inl at_)
  simp only [State.standing, Prod.mk.injEq] at e
  obtain ⟨home, por, sys, core', valid', -, -⟩ := e
  refine .passed home por sys ⟨by decide, fun _ => ⟨core'.trans core, valid'.trans valid⟩⟩ (.inr ?_) (by simp)
  rw [at_]
  decide

/-- One of two held resets ends. -/
theorem State.moves.stillReset {por sys : Bool} (h : s.resetForm) (at_ : s.dev = .reset) {q : List Instr} {now : Nat}
    (e : t.standing = (s.home, por, sys, s.boot.coreOn, s.boot.cfgValid, q, now)) : s.moves t := by
  obtain ⟨core, valid⟩ := h.2 (.inl at_)
  rw [s.home_ne at_ (by decide), core, valid] at e
  exact .reset e

theorem State.moves.resetActs (h : s.resetForm) (acts : s.resetActs t) : s.moves t := by
  rcases acts with e | ⟨valid, e⟩
  · exact .reset e
  · have up : ¬ (s.dev = .reset ∨ s.dev = .optionLoad) := fun low => Bool.noConfusion (valid.symm.trans (h.2 low).2)
    simp only [State.standing, Prod.mk.injEq] at e
    obtain ⟨home, por, sys, -, -, -, -⟩ := e
    obtain ⟨por', sys'⟩ := h.free fun low => up (.inl low)
    refine ⟨State.resetForm_iff.2 ⟨fun held => ?_, fun low => ?_⟩, State.dev_of_same_home home⟩
    · rw [por, sys, por', sys'] at held
      exact held.elim Bool.noConfusion Bool.noConfusion
    · rw [home, State.home_eq_iff (by decide) (by decide) (by decide), State.home_eq_iff (by decide) (by decide) (by decide)] at low
      exact absurd low up

theorem State.moves.serves (h : s.resetForm) (served : s.serves t) : s.moves t := by
  rcases served with same | ⟨home, boots⟩
  · exact .same h same
  · have at_ : s.dev = .recovery := (State.home_eq_iff (by decide) (by decide) (by decide)).1 home
    obtain ⟨por, sys⟩ := h.free (by rw [at_]; decide)
    simp only [State.standing, Prod.mk.injEq] at boots
    obtain ⟨to_, por', sys', -⟩ := boots
    refine .passed to_ (por'.trans por) (sys'.trans sys) ⟨by decide, by simp⟩ (.inr ?_) (by simp)
    rw [at_]
    decide

/-- A step of a start moves the device along Table 4-4. -/
theorem Leads.moves {o : Outcome State Fault Refusal} {at_ dest : List DevState} (h : s.resetForm) (leads : Leads o s at_ dest)
    (from_ : ∀ a ∈ at_, a ≠ .reset) (to_ : ∀ d ∈ dest, d ≠ .reset ∧ d ≠ .optionLoad) (move : ∀ a ∈ at_, ∀ d ∈ dest, a = d ∨ (a, d) ∈ deviceMoves)
    (safe : ∀ a ∈ at_, ∀ d ∈ dest, d = .ready ∨ d = .run → (a, DevState.safe) ∈ deviceMoves) : ∃ e, o = done e ∧ s.moves e := by
  obtain ⟨e, out, same | ⟨mem, home, rest⟩⟩ := leads
  · exact ⟨e, out, .same h same⟩
  · obtain ⟨por, sys⟩ := h.free (from_ _ mem)
    simp only [State.standing, Prod.mk.injEq] at rest
    obtain ⟨por', sys', -⟩ := rest
    exact ⟨e, out, .passed rfl (por'.trans por) (sys'.trans sys) ⟨(to_ _ home).1, fun low => absurd low (to_ _ home).2⟩
      (move _ mem _ home) (safe _ mem _ home)⟩

/-- The release of a core reset leads to BOOT, or to RECOVERY. -/
theorem State.moves.coreRelease (h : s.resetForm) (on : s.boot.coreOn = true) {d : DevState} (to_ : d = .boot ∨ d = .recovery)
    {core valid : Bool} {q : List Instr} {now : Nat} (e : t.standing = (d, s.boot.por, s.boot.sys, core, valid, q, now)) : s.moves t := by
  have up : ¬ (s.dev = .reset ∨ s.dev = .optionLoad) := fun low => Bool.noConfusion (on.symm.trans (h.2 low).1)
  obtain ⟨por, sys⟩ := h.free fun low => up (.inl low)
  simp only [State.standing, Prod.mk.injEq] at e
  obtain ⟨home, por', sys', -⟩ := e
  have start : ∀ a : DevState, ¬ (a = .reset ∨ a = .optionLoad) → a = d ∨ (a, d) ∈ deviceMoves := by
    intro a; rcases to_ with rfl | rfl <;> cases a <;> decide
  refine .passed home (por'.trans por) (sys'.trans sys) ?_ (start _ up) ?_
  · rcases to_ with rfl | rfl <;> simp
  · rcases to_ with rfl | rfl <;> simp

theorem execEnterReady_moves (h : (s.tickTo dt).resetForm) (pins : BitVec 48) :
    ∃ e, execEnterReady dt pins s = done e ∧ (s.tickTo dt).moves e := by
  refine ⟨_, rfl, ?_⟩
  split
  next go =>
    have at_ : (s.tickTo dt).dev = .configLoad := by
      simp only [Bool.and_eq_true, beq_iff_eq] at go
      exact go.1.1
    obtain ⟨por, sys⟩ := h.free (by rw [at_]; decide)
    obtain ⟨dev, rest⟩ := (s.tickTo dt).enterReady_standing pins
    simp only [State.standing, Prod.mk.injEq] at rest
    obtain ⟨por', sys', -⟩ := rest
    refine ⟨⟨fun held => ?_, fun low => ?_⟩, .inr (.inr ?_)⟩
    · rw [por', sys', por, sys] at held
      exact held.elim Bool.noConfusion Bool.noConfusion
    · rcases dev with e | e <;> rw [e] at low <;> exact absurd low (by decide)
    · rw [at_]
      rcases dev with e | e <;> rw [e] <;> decide
  · exact .same h rfl

/-- Every command moves the device as Table 4-4 lets it. -/
theorem exec_moves (i : Instr) (h : (s.tickTo i.dt).resetForm) : ∃ e, exec i s = done e ∧ (s.tickTo i.dt).moves e := by
  by_cases ordinary : i.starts = false
  · obtain ⟨e, out, served⟩ := exec_serves s i ordinary
    exact ⟨e, out, .serves h served⟩
  cases i with
  | powerOnReset dt =>
    obtain ⟨e, out, stands⟩ := execPowerOnReset_stands s dt
    exact ⟨e, out, .reset stands⟩
  | powerOnResetRelease dt =>
    obtain ⟨e, out, same | ⟨por, ⟨still, -⟩ | load⟩⟩ := execPowerOnResetRelease_stands s dt
    · exact ⟨e, out, .same h same⟩
    · exact ⟨e, out, .stillReset h (h.1 (.inl por)) still⟩
    · exact ⟨e, out, .optionLoad h (h.1 (.inl por)) load⟩
  | systemReset dt =>
    obtain ⟨e, out, same | ⟨-, -, acts⟩⟩ := execSystemReset_stands s dt
    · exact ⟨e, out, .same h same⟩
    · exact ⟨e, out, .resetActs h acts⟩
  | systemResetRelease dt count =>
    obtain ⟨e, out, same | ⟨sys, ⟨still, -⟩ | load⟩⟩ := execSystemResetRelease_stands s dt count
    · exact ⟨e, out, .same h same⟩
    · exact ⟨e, out, .stillReset h (h.1 (.inr sys)) still⟩
    · exact ⟨e, out, .optionLoad h (h.1 (.inr sys)) load⟩
  | coreReset dt count =>
    obtain ⟨e, out, same | ⟨-, -, acts⟩⟩ := execCoreReset_stands s dt count
    · exact ⟨e, out, .same h same⟩
    · exact ⟨e, out, .resetActs h acts⟩
  | resetHoldoffEnd dt =>
    obtain ⟨e, out, same | acts⟩ := execResetHoldoffEnd_stands s dt
    · exact ⟨e, out, .same h same⟩
    · exact ⟨e, out, .resetActs h acts⟩
  | coreResetRelease dt =>
    obtain ⟨e, out, same | ⟨on, d, to_, stands⟩⟩ := execCoreResetRelease_stands s dt
    · exact ⟨e, out, .same h same⟩
    · exact ⟨e, out, .coreRelease h on to_ stands⟩
  | enterBoot dt => exact (execEnterBoot_leads s dt).moves h (by decide) (by decide) (by decide) (by decide)
  | clockFailure dt => exact (execClockFailure_leads s dt).moves h (by decide) (by decide) (by decide) (by decide)
  | firmwareSelect dt => exact (execFirmwareSelect_leads s dt).moves h (by decide) (by decide) (by decide) (by decide)
  | imageValidate dt id => exact (execImageValidate_leads s dt id).moves h (by decide) (by decide) (by decide) (by decide)
  | fullLogicLoad dt bad => exact (execFullLogicLoad_leads s dt bad).moves h (by decide) (by decide) (by decide) (by decide)
  | fullLogicPowerReturn dt => exact (execFullLogicPowerReturn_leads s dt).moves h (by decide) (by decide) (by decide) (by decide)
  | fullLogicRestore dt bad => exact (execFullLogicRestore_leads s dt bad).moves h (by decide) (by decide) (by decide) (by decide)
  | enterReady dt pins => exact execEnterReady_moves h pins
  | enterRun dt => exact (execEnterRun_leads s dt).moves h (by decide) (by decide) (by decide) (by decide)
  | bootWatchdogExpiry dt => exact (execBootWatchdogExpiry_leads s dt).moves h (by decide) (by decide) (by decide) (by decide)
  | _ => exact absurd rfl ordinary

theorem State.moves.settle (h : s.moves t) : s.moves t.settle := by
  obtain ⟨form, dev⟩ := h
  refine ⟨form.of_standing t.settle_standing, ?_⟩
  rwa [State.settle_dev]

/-- Settles O58: every command moves the device along Table 4-4 or not at all, and an empty queue leaves it. -/
theorem deviceStateMoves : Obligations.DeviceStateMoves := by
  unfold Obligations.DeviceStateMoves
  intro s t form stepped
  unfold step at stepped
  split at stepped
  · rw [← Outcome.next.inj stepped]
    exact ⟨form, .inl rfl⟩
  next c rest _ =>
    obtain ⟨e, out, moved⟩ := exec_moves (s := { s with pending := rest }) c form
    rw [← Outcome.next.inj (out.symm.trans stepped)]
    exact moved.settle

/-! ## Completion (R243) -/

/-- The queue is left and no time has passed. -/
def State.paces (s t : State) : Prop := t.pending = s.pending ∧ t.now = s.now

theorem State.paces.of_standing (e : t.standing.2.2.2.2.2 = s.standing.2.2.2.2.2) : s.paces t := Prod.mk.inj e

theorem State.serves.paces (h : s.serves t) : s.paces t := by
  rcases h with e | ⟨-, e⟩ <;> exact .of_standing (by rw [e])

theorem State.resetActs.paces (h : s.resetActs t) : s.paces t := by
  rcases h with e | ⟨-, e⟩ <;> exact .of_standing (by rw [e]; rfl)

theorem Leads.paces {o : Outcome State Fault Refusal} {at_ dest : List DevState} (leads : Leads o s at_ dest) :
    ∃ e, o = done e ∧ s.paces e := by
  obtain ⟨e, out, same | ⟨-, -, rest⟩⟩ := leads
  · exact ⟨e, out, .of_standing (by rw [same])⟩
  · exact ⟨e, out, .of_standing (by rw [rest])⟩

theorem execEnterReady_paces (dt : Nat) (pins : BitVec 48) : ∃ e, execEnterReady dt pins s = done e ∧ (s.tickTo dt).paces e := by
  refine ⟨_, rfl, ?_⟩
  split
  · exact .of_standing (congrArg (fun x => x.2.2.2.2) ((s.tickTo dt).enterReady_standing pins).2)
  · exact ⟨rfl, rfl⟩

/-- Every command but a power-on reset leaves the queue and takes its own time. -/
theorem exec_paces (i : Instr) (s : State) (later : ∀ dt, i ≠ .powerOnReset dt) : ∃ e, exec i s = done e ∧ (s.tickTo i.dt).paces e := by
  by_cases ordinary : i.starts = false
  · obtain ⟨e, out, served⟩ := exec_serves s i ordinary
    exact ⟨e, out, served.paces⟩
  cases i with
  | powerOnReset dt => exact absurd rfl (later dt)
  | powerOnResetRelease dt =>
    obtain ⟨e, out, same | ⟨-, ⟨same, -⟩ | same⟩⟩ := execPowerOnResetRelease_stands s dt <;>
      exact ⟨e, out, .of_standing (by rw [same]; rfl)⟩
  | systemReset dt =>
    obtain ⟨e, out, same | ⟨-, -, acts⟩⟩ := execSystemReset_stands s dt
    · exact ⟨e, out, .of_standing (by rw [same]; rfl)⟩
    · exact ⟨e, out, acts.paces⟩
  | systemResetRelease dt count =>
    obtain ⟨e, out, same | ⟨-, ⟨same, -⟩ | same⟩⟩ := execSystemResetRelease_stands s dt count <;>
      exact ⟨e, out, .of_standing (by rw [same]; rfl)⟩
  | coreReset dt count =>
    obtain ⟨e, out, same | ⟨-, -, acts⟩⟩ := execCoreReset_stands s dt count
    · exact ⟨e, out, .of_standing (by rw [same]; rfl)⟩
    · exact ⟨e, out, acts.paces⟩
  | resetHoldoffEnd dt =>
    obtain ⟨e, out, same | acts⟩ := execResetHoldoffEnd_stands s dt
    · exact ⟨e, out, .of_standing (by rw [same]; rfl)⟩
    · exact ⟨e, out, acts.paces⟩
  | coreResetRelease dt =>
    obtain ⟨e, out, same | ⟨-, d, -, same⟩⟩ := execCoreResetRelease_stands s dt <;>
      exact ⟨e, out, .of_standing (by rw [same]; rfl)⟩
  | enterBoot dt => exact (execEnterBoot_leads s dt).paces
  | clockFailure dt => exact (execClockFailure_leads s dt).paces
  | firmwareSelect dt => exact (execFirmwareSelect_leads s dt).paces
  | imageValidate dt id => exact (execImageValidate_leads s dt id).paces
  | fullLogicLoad dt bad => exact (execFullLogicLoad_leads s dt bad).paces
  | fullLogicPowerReturn dt => exact (execFullLogicPowerReturn_leads s dt).paces
  | fullLogicRestore dt bad => exact (execFullLogicRestore_leads s dt bad).paces
  | enterReady dt pins => exact execEnterReady_paces dt pins
  | enterRun dt => exact (execEnterRun_leads s dt).paces
  | bootWatchdogExpiry dt => exact (execBootWatchdogExpiry_leads s dt).paces
  | _ => exact absurd rfl ordinary

theorem exec_answers (i : Instr) (s : State) (later : ∀ dt, i ≠ .powerOnReset dt) :
    ∃ t, exec i s = .next t ∧ t.pending = s.pending ∧ t.now = s.now + i.dt := by
  obtain ⟨e, out, queue, now⟩ := exec_paces i s later
  exact exec_next out ⟨e.settle_pending.trans queue, e.settle_now.trans now⟩

theorem execPowerOnReset_answers (s : State) (dt : Nat) :
    ∃ t, exec (.powerOnReset dt) s = .next t ∧ t.pending = s.pending ∧ t.now = 0 ∧ t.dev = .reset ∧ t.boot.por = true := by
  obtain ⟨e, out, stands⟩ := execPowerOnReset_stands s dt
  simp only [State.standing, Prod.mk.injEq] at stands
  obtain ⟨home, por, -, -, -, queue, now⟩ := stands
  refine exec_next out ⟨e.settle_pending.trans queue, e.settle_now.trans now, e.settle_dev.trans ?_, ?_⟩
  · exact (State.home_eq_iff (by decide) (by decide) (by decide)).1 home
  · rw [State.settle_boot, por]

/-- The front of the queue is taken and performed. -/
theorem step_front {s : State} {c : Instr} {l : List Instr} (front : s.pending = c :: l) : step s = exec c { s with pending := l } := by
  unfold step
  split
  next none => exact absurd (none.symm.trans front) (List.cons_ne_nil _ _).symm
  next c' l' some =>
    obtain ⟨rfl, rfl⟩ := List.cons.inj (some.symm.trans front)
    rfl

theorem step_answers {s : State} {c : Instr} {l : List Instr} (front : s.pending = c :: l) :
    ∃ t, step s = .next t ∧ t.pending = l ∧ (s.now ≤ t.now ∨ (t.now = 0 ∧ t.boot.por = true ∧ t.dev = .reset)) := by
  rw [step_front front]
  by_cases later : ∀ dt, c ≠ .powerOnReset dt
  · obtain ⟨t, out, queue, now⟩ := exec_answers c { s with pending := l } later
    exact ⟨t, out, queue, .inl (now ▸ Nat.le_add_right _ _)⟩
  · obtain ⟨dt, rfl⟩ : ∃ dt, c = .powerOnReset dt := by simpa only [not_forall, not_not] using later
    obtain ⟨t, out, queue, now, dev, por⟩ := execPowerOnReset_answers { s with pending := l } dt
    exact ⟨t, out, queue, .inr ⟨now, por, dev⟩⟩

/-- Settles O55: the front command by `step_answers`; each command named by `exec_answers`, and the power-on reset by itself. -/
theorem everyStepAnswers : Obligations.EveryStepAnswers := by
  unfold Obligations.EveryStepAnswers
  refine ⟨fun s c l front => step_answers front, ?_⟩
  and_intros
  on_goal 49 =>
    intro s dt
    obtain ⟨t, out, queue, now, dev, -⟩ := execPowerOnReset_answers s dt
    exact ⟨t, out, queue, now, dev⟩
  all_goals
    intros
    exact exec_answers _ _ nofun

end Sys2Proof.Machine
end

section
/-!
PROOF. A write of DEV_BOOTCTL, and SAFE_EXIT with a SAFE cause active (O53).
-/

namespace Sys2Proof.Machine

open Host

variable (s : State)

/-! ## A write of DEV_BOOTCTL (Table 4-9) -/

theorem State.keepWord_bootCtl : s.keepWord 0x13 = 0 := rfl

/-- A write of DEV_BOOTCTL acts with the unlock, and is refused and counted without it (R149, R152). -/
theorem State.rowWrite_bootCtl (lk : Link) (w : Nat) (h : s.hostBegin.reaches 0x13 = true) :
    s.rowWrite lk 0x13 w = if (s.hostBegin.link lk).armed then (s.hostBegin.unarm lk).bootCtl (W w).toNat else (s.hostBegin.unarm lk).keyRefused := by
  have reached : (s.hostBegin.unarm lk).reaches 0x13 = true := h
  rw [rowWrite_served s lk 0x13 w h (by decide)]
  unfold State.reaches at reached
  simp only [Bool.and_eq_true] at reached
  unfold State.writeReg
  rw [if_neg (by simp only [Bool.or_eq_true, not_or]; exact ⟨by simp [reached.1.1.2], by simpa using reached.1.2⟩), if_neg (by decide),
    if_neg (by decide), if_pos rfl, s.hostBegin_link]
  split <;> rfl

theorem State.rowPulse_bootCtl (lk : Link) (mask : Nat) (h : s.hostBegin.reaches 0x13 = true) :
    s.rowPulse lk 0x13 mask = if (s.hostBegin.link lk).armed then (s.hostBegin.unarm lk).bootCtl (W mask).toNat else (s.hostBegin.unarm lk).keyRefused := by
  have same : s.rowPulse lk 0x13 mask = s.rowWrite lk 0x13 mask := by
    unfold State.rowPulse State.rowWrite
    rw [State.keepWord_bootCtl, Nat.zero_or]
  rw [same, s.rowWrite_bootCtl lk mask h]

section
variable {s} {dt : Nat} {lk : Link} (h : (s.tickTo dt).hostBegin.reaches 0x13 = true)
include h

/-- SAFE_EXIT by its own command or by a write that sets only its bit. -/
theorem exec_safeExit_armed (key : ((s.tickTo dt).hostBegin.link lk).armed = true) (row : Bool) :
    exec (if row then .safeExit dt lk else .registerWrite dt lk 0x13 4) s = done ((s.tickTo dt).hostBegin.unarm lk).safeExit := by
  cases row with
  | true => exact congrArg done (((s.tickTo dt).rowPulse_bootCtl lk 4 h).trans (if_pos key))
  | false => exact congrArg done (((s.tickTo dt).rowWrite_bootCtl lk 4 h).trans (if_pos key))

end

/-! ## SAFE_EXIT (R133) -/

theorem State.safeExit_refused (at_ : s.dev = .safe) (cause : s.g DEV_STATE_SAFE_CAUSE ≠ 0) :
    s.safeExit = s.put DEV_STATE_EXIT_REFUSED (min (s.g DEV_STATE_EXIT_REFUSED + 1) 15) := by
  unfold State.safeExit
  rw [if_neg (by rw [at_]; decide), if_pos cause]
  rfl

/-- Settles O53: the write acts as SAFE_EXIT alone, which counts its refusal. -/
theorem safeExitRefused : Obligations.SafeExitRefused := by
  unfold Obligations.SafeExitRefused
  intro s dt lk row u reached key at_ cause
  have acts := (u.unarm lk).safeExit_refused at_ cause
  refine exec_next ((exec_safeExit_armed reached key row).trans (congrArg done acts)) ⟨State.sameBut.refl.settle, ?_, ?_, ?_⟩
  · rw [State.settle_dev]
    exact at_
  · rw [State.settle_g _ _ (by decide), State.put_g_disj _ _ _ _ (by decide) (by decide)]
    rfl
  · rw [State.settle_g _ _ (by decide), State.put_g_same _ _ _ (by decide)]
    exact Nat.mod_eq_of_lt (Nat.lt_succ_of_le (Nat.min_le_right _ _))

end Sys2Proof.Machine
end

section
/-!
PROOF. AXIS_RESET_TIMEOUT at a wait that has not begun (O24).
-/

namespace Sys2Proof.Machine

open Host

/-! ## AXIS_RESET_TIMEOUT (R134) -/

/-- Axis 0 moves, its reset waits since an instant that is still to come, and no time is allowed for the stop (QTO = 0). No sequence
of commands leads here: a wait begins at the present. `Obligations.BootControlAndBlockResets` speaks of every state. -/
def futureWait : State :=
  ({ State.reset with dev := .run } : State).ax 0 (fun a => { a with st := .moving, rst := .wait 1 }) |>.put DEV_BLKRST_CFG_QTO 0

/-- What AXIS_RESET_TIMEOUT makes of it: no time has passed, and none is allowed. -/
theorem exec_futureWait : exec (.axisResetTimeout 0 0) futureWait =
    done ((((futureWait.tickTo 0).bridgesOff 0).putBit DEV_BLKRST_STAT_FORCED 0 true).ax 0 fun a => { a with rst := .finish }) := by
  have due : (decide ((futureWait.tickTo 0).now - 1 ≥ msCyc ((futureWait.tickTo 0).g DEV_BLKRST_CFG_QTO)) && (futureWait.tickTo 0).slowing 0) = true := by
    decide +kernel
  exact congrArg done (if_pos due)

/-- Refutes O24: by its last clause but one AXIS_RESET_TIMEOUT changes nothing before the wait's beginning plus QTO, and at `futureWait`
the wait has not begun, but the time since then, cut off at zero, reaches a QTO of zero: the reset is forced. -/
theorem not_bootControlAndBlockResets : ¬ Obligations.BootControlAndBlockResets := by
  unfold Obligations.BootControlAndBlockResets
  rintro ⟨-, -, -, -, -, -, -, -, waits, -⟩
  have early : ∀ since, (futureWait.tickTo 0).axes[(0 : Fin 8)].rst = .wait since →
      (futureWait.tickTo 0).now < since + 400000 * (futureWait.tickTo 0).g DEV_BLKRST_CFG_QTO := by
    intro since wait
    obtain rfl : 1 = since := RstPhase.wait.inj wait
    decide +kernel
  obtain ⟨t, out, -, -, words⟩ := waits futureWait 0 0 (.inr early)
  obtain rfl := Outcome.next.inj (exec_futureWait.symm.trans out)
  have kept := (State.settle_word _ 0x17 (by decide)).symm.trans (words 0x17 (by decide) (by decide))
  exact absurd kept (by decide +kernel)

end Sys2Proof.Machine
end

section
/-!
PROOF. The reads of CONFIG_LOAD and a record that is no longer in force (O21).
-/

namespace Sys2Proof.Machine

open Host

/-! ## The reads of CONFIG_LOAD (R425) -/

/-- CONFIG_LOAD is at its reads, the line of axis 0 has been missed once and an absent record is not kept; no record is in force on the
line, yet its serial number still reads 5. No sequence of commands leads here: the word follows the record. `Obligations.ConfigLoad`
speaks of every state. -/
def staleSerial : State :=
  let s := ({ State.reset with dev := .configLoad } : State).bt fun b => { b with stage := 1 }
  let s := ((s.put (MG_ID_SER_SERIAL 0) 5).putBit MG_ID_PRES_PRESENT 0 true).put MG_ID_CFG_ABSENT_KEEP 0
  s.ax 0 fun a => { a with mon := { a.mon with misses := 1 } }

/-- Every line is read as absent. -/
def allAbsent : Vector IdRead 8 := Vector.replicate 8 .absent

/-- CONFIG_MONUMENT_READS at its time: where the image has no override section the reads are all there is. -/
theorem exec_reads_bare (s : State) (dt : Nat) (rd : Vector IdRead 8)
    (due : ((s.tickTo dt).dev != .configLoad || (s.tickTo dt).boot.stage ≠ 1 || !(s.tickTo dt).surveyorUp) = false)
    (bare : ((s.tickTo dt).idConfigReads rd).imgSects 3 = []) :
    exec (.configMonumentReads dt rd) s = done (((s.tickTo dt).idConfigReads rd).keepAliveEnd) := by
  change execConfigMonumentReads dt rd s = _
  unfold execConfigMonumentReads
  simp only [due, bare, List.foldl_nil, Bool.false_eq_true, if_false]

/-- Refutes O21: by its first clause reads that force no record change the words of the lines' results, of their presence and a few more.
The second missed read of line 0 shows its record afresh, and its serial number, 5 at `staleSerial`, becomes 0. -/
theorem not_configLoad : ¬ Obligations.ConfigLoad := by
  unfold Obligations.ConfigLoad
  rintro ⟨reads, -⟩
  have none : ∀ n : Fin 8, ∀ b, allAbsent[n] = .bytes b → recordCheck b ≠ 1 := by
    intro n b bytes
    have absent : allAbsent[n] = .absent := Vector.getElem_replicate n.isLt
    exact absurd (absent.symm.trans bytes) (by nofun)
  obtain ⟨t, out, ⟨-, -, words⟩, -⟩ := reads staleSerial 0 allAbsent rfl rfl (by decide +kernel) (by decide +kernel) none
  have reached := exec_reads_bare staleSerial 0 allAbsent (by decide +kernel) (if_neg (by decide +kernel))
  obtain rfl := Outcome.next.inj (reached.symm.trans out)
  have kept := (State.settle_word _ 0x1000410 (by decide)).symm.trans (words 0x1000410 (by decide) (by decide))
  exact absurd kept (by decide +kernel)

end Sys2Proof.Machine
end

section
/-!
PROOF. A poll whose frame is performed in a cycle of its own (O36).
-/

namespace Sys2Proof.Machine

open Host

/-! ## A poll in a cycle of its own (R45, R145, R208) -/

/-- Node 1 of a Grelas link, authentication off, where a host access of this cycle has been performed and a host write of it stands on
RX_INV, which then reads 0. No sequence of commands leads here: the host cannot write that bit. `Obligations.GrelasPolls` speaks of
every state. -/
def standingPolarity : State :=
  let s := ((({ State.reset with dev := .run } : State).put LNK_GR_CFG_NODE 1).put LNK_GR_CFG_AUTH 0).lnk .gr fun k => { k with rstDue := false }
  { s with cyc := { CycSt.from_ s.toBlock with acc := true, host := [(0x51, 1, 0)] } }

/-- A NOP. -/
def nopFrame : Frame :=
  let f : Frame := { alive := 0, hseq := 0, addr := 0, data := 0, flags := 0, crc := 0, edges := 96 }
  { f with crc := BitVec.ofNat 16 (crc16 (frameBytes f 0)) }

/-- The packet that polls node 1 with that NOP, in the inverted polarity. -/
def nopPoll : GrPacket :=
  let head : List Nat := [8, 0] ++ (frameBytes nopFrame 0 ++ toBytes 2 nopFrame.crc.toNat)
  { inverted := true, bytes := head ++ toBytes 4 (crc32 head) }

/-- Its half-bits on the line. -/
def nopLine : Packet := ⟨lineOut nopPoll.inverted nopPoll.bytes⟩

/-- Refutes O36: by its fifth clause a performed poll's polarity is in RX_INV, but the poll's frame is performed in the next cycle, and
the host's write to `standingPolarity` stands over what the poll made of the register. -/
theorem not_grelasPolls : ¬ Obligations.GrelasPolls := by
  unfold Obligations.GrelasPolls
  rintro ⟨-, -, -, -, performed, -⟩
  obtain ⟨t, out, -, polarity, -⟩ := performed standingPolarity 0 nopLine nopPoll nopFrame false (by decide +kernel) (by decide +kernel)
    (by decide +kernel) (by decide +kernel) (by decide +kernel) (by decide +kernel) (by decide +kernel) (by decide +kernel) (by decide +kernel)
    (by decide +kernel) (by decide +kernel) (by decide +kernel) (by decide +kernel) (by decide +kernel) (by nofun)
  have reached : exec (.grelasPoll 0 nopLine) standingPolarity = done (standingPolarity.grPacketIn nopLine) := rfl
  obtain rfl := Outcome.next.inj (reached.symm.trans out)
  have stood : (standingPolarity.grPacketIn nopLine).gb LNK_GR_STAT_RX_INV = false := by decide +kernel
  have shown := (congrArg (· != 0) (State.settle_g _ LNK_GR_STAT_RX_INV rfl)).symm.trans polarity
  exact absurd (stood.symm.trans shown) (by decide +kernel)

end Sys2Proof.Machine
end

section
/-!
PROOF. What the work of the supplies, the surveyor and the stations leaves alone.
-/

namespace Sys2Proof.Machine

open Host

variable {s t u : State} {A : List Nat}

/-! ## What the work of the supplies, the surveyor and the stations leaves alone -/

/-- How much besides the registers moves: the surveyor's own state, its stations and the supplies too, or also coils, contexts and tick. -/
inductive Scope where
  | book
  | supply
  | all

/-- The state without what moves. -/
def State.blank (scope : Scope) (s : State) : State :=
  { s with
    surv := Block.reset.surv
    stations := match scope with | .book => s.stations | .supply | .all => Block.reset.stations
    power := match scope with | .book => s.power | .supply | .all => Block.reset.power
    coils := match scope with | .book | .supply => s.coils | .all => Block.reset.coils
    ctxs := match scope with | .book | .supply => s.ctxs | .all => Block.reset.ctxs
    tick := match scope with | .book | .supply => s.tick | .all => Block.reset.tick }

/-- The same without what `rest` leaves out. -/
def State.bare (scope : Scope) (s : State) : State := s.rest.blank scope

/-- `s` with the coils, stations, contexts, supplies, surveyor and tick of `t`. -/
def State.taking (s t : State) : State :=
  { s with coils := t.coils, stations := t.stations, ctxs := t.ctxs, power := t.power, surv := t.surv, tick := t.tick }

/-- `t` is `s` but for what `bare` leaves out, and for registers at the addresses `A`, events aside. -/
structure State.alike (s t : State) (A : List Nat) (scope : Scope := .all) : Prop where
  now : t.now = s.now
  bare : t.bare scope = s.bare scope
  words : s.keepsWords t A

theorem State.alike.sameBut (h : s.alike t A) : (s.taking t).sameBut t A := by
  have taken (x : State) : (x.taking t).rest = (x.bare .all).taking t.rest := rfl
  refine ⟨h.now, ?_, h.words.updL⟩
  rw [taken s, ← h.bare]
  rfl

/-- Where only the surveyor's own state has moved. -/
theorem State.alike.sameBut_surv (h : s.alike t A .book) : ({ s with surv := t.surv }).sameBut t A := by
  have taken (x : State) : State.rest { x with surv := t.surv } = { x.bare .book with surv := t.surv } := rfl
  refine ⟨h.now, ?_, h.words.updL⟩
  rw [taken s, ← h.bare]
  rfl

namespace State.alike

variable {scope : Scope}

theorem refl : s.alike s A scope := ⟨rfl, rfl, fun _ _ _ => rfl⟩

theorem trans (h : s.alike t A scope) (k : t.alike u A scope) : s.alike u A scope :=
  ⟨k.now.trans h.now, k.bare.trans h.bare, h.words.trans k.words⟩

theorem mono {B : List Nat} (h : s.alike t A scope) (sub : ∀ a ∈ A, a ∈ B) : s.alike t B scope :=
  ⟨h.now, h.bare, fun a out ev => h.words a (fun mem => out (sub a mem)) ev⟩

theorem put (h : s.alike t A scope) (f : Fld) (v : Nat) (mem : f.a ∈ A) : s.alike (t.put f v) A scope :=
  ⟨h.now, h.bare, h.words.put f v mem⟩

theorem putB (h : s.alike t A scope) (f : Fld) (b : Bool) (mem : f.a ∈ A) : s.alike (t.putB f b) A scope := h.put f _ mem

theorem setWord (h : s.alike t A scope) (a : Nat) (w : Word) (mem : a ∈ A) : s.alike (t.setWord a w) A scope :=
  ⟨h.now, h.bare, h.words.setWord a w mem⟩

theorem step (h : s.alike t A scope) (k : t.evStep u) : s.alike u A scope := by
  refine ⟨k.now.trans h.now, ?_, h.words.step k⟩
  rw [← h.bare]
  unfold State.bare
  rw [k.rest]

theorem settle (h : s.alike t A scope) : s.alike t.settle A scope := h.step t.settle_step

theorem pw (h : s.alike t A scope) (supply : scope ≠ .book) (f : PowerSt → PowerSt) : s.alike (t.pw f) A scope := by
  refine ⟨h.now, ?_, h.words.upd⟩
  cases scope with
  | book => exact absurd rfl supply
  | supply | all => exact h.bare
theorem su (h : s.alike t A scope) (f : SurvSt → SurvSt) : s.alike (t.su f) A scope := ⟨h.now, h.bare, h.words.upd⟩
theorem svu (h : s.alike t A scope) (supply : scope ≠ .book) (x : Fin 2) (f : SurveySt → SurveySt) : s.alike (t.svu x f) A scope := by
  refine ⟨h.now, ?_, h.words.upd⟩
  cases scope with
  | book => exact absurd rfl supply
  | supply | all => exact h.bare
theorem co (h : s.alike t A) (c : Fin 16) (f : Coil → Coil) : s.alike (t.co c f) A := ⟨h.now, h.bare, h.words.upd⟩
theorem ctx (h : s.alike t A) (x : Fin 4) (f : Ctx → Ctx) : s.alike (t.ctx x f) A := ⟨h.now, h.bare, h.words.upd⟩
theorem tick (h : s.alike t A) (k : TickSt) : s.alike { t with tick := k } A := ⟨h.now, h.bare, h.words.upd⟩

/-- The same change of what is compared on both sides. -/
theorem bt (h : s.alike t A scope) (f : BootSt → BootSt) : (s.bt f).alike (t.bt f) A scope := by
  refine ⟨h.now, ?_, h.words.upd.updL⟩
  have each (x : State) : (x.bt f).bare scope = (x.bare scope).bt f := rfl
  rw [each, each, h.bare]

theorem forFin {k : Nat} {f : Fin k → State → State} (each : ∀ n x, s.alike x A scope → s.alike (f n x) A scope) (h : s.alike t A scope) :
    s.alike (Machine.forFin k f t) A scope := forFin_ind (fun x => s.alike x A scope) k f each t h

theorem foldl {ι : Type} {l : List ι} {f : State → ι → State} (each : ∀ x, ∀ i ∈ l, s.alike x A scope → s.alike (f x i) A scope)
    (h : s.alike t A scope) : s.alike (l.foldl f t) A scope := by
  induction l generalizing t with
  | nil => exact h
  | cons i l ih => exact ih (fun x j mem => each x j (List.mem_cons_of_mem _ mem)) (each t i (List.mem_cons_self ..) h)

theorem ite {c : Prop} [Decidable c] (h : s.alike t A scope) (k : s.alike u A scope) : s.alike (if c then t else u) A scope := by
  split
  · exact h
  · exact k

end State.alike

/-- The words of the moisture round: MG_SV_STAT, MG_MW_STAT, and MW_HOLD of the axes. -/
def mwWords : List Nat := [0x1000005, 0x1000021] ++ (List.range 8).map (0x88E + 0x100 * ·)

theorem mwWords_hold (n : Fin 8) : (AX_DP_STAT_MW_HOLD n).a ∈ (List.range 8).map (0x88E + 0x100 * ·) :=
  List.mem_map.2 ⟨n.val, List.mem_range.2 n.isLt, rfl⟩

/-- A line is taken up or left: MW_HOLD of its axis follows. -/
theorem State.alike.mwSet {scope : Scope} (h : s.alike t A scope) (hold : ∀ n : Fin 8, (AX_DP_STAT_MW_HOLD n).a ∈ A) (l : Option Nat) : s.alike (t.mwSet l) A scope := by
  have left : s.alike (match t.surv.mwCur with | some o => if o < 24 then t.put (AX_DP_STAT_MW_HOLD (mwAxis o)) 0 else t | none => t) A scope := by
    split
    · exact .ite (h.put _ _ (hold _)) h
    · exact h
  unfold State.mwSet
  dsimp only
  refine .su ?_ _
  split
  · exact .ite (left.put _ _ (hold _)) left
  · exact left

theorem State.alike.mwStop {scope : Scope} (h : s.alike t A scope) (run : 0x1000005 ∈ A) (hold : ∀ n : Fin 8, (AX_DP_STAT_MW_HOLD n).a ∈ A) : s.alike t.mwStop A scope :=
  ((h.put MG_SV_STAT_MW_RUN 0 run).mwSet hold none).su _

theorem State.alike.mwNext {scope : Scope} (h : s.alike t A scope) (supply : scope ≠ .book) (run : 0x1000005 ∈ A) (stat : 0x1000021 ∈ A) (hold : ∀ n : Fin 8, (AX_DP_STAT_MW_HOLD n).a ∈ A) :
    s.alike t.mwNext A scope := by
  unfold State.mwNext
  dsimp only
  have skipped := h.put MG_MW_STAT_SKIP (satU 8 (t.g MG_MW_STAT_SKIP + (t.surv.mwLines.takeWhile fun l => !t.mwLineOk l).length)) stat
  split
  · exact ((((skipped.put MG_SV_STAT_MW_RUN 0 run).put MG_MW_STAT_ROUNDS _ stat).mwSet hold none).su _)
  · exact ((skipped.svu supply _ _).mwSet hold _).su _

theorem State.alike.v5Follow {scope : Scope} (h : s.alike t A scope) (supply : scope ≠ .book) (stat : 0x140 ∈ A) (run : 0x1000005 ∈ A) (mw : 0x1000021 ∈ A)
    (hold : ∀ n : Fin 8, (AX_DP_STAT_MW_HOLD n).a ∈ A) : s.alike t.v5Follow A scope := by
  unfold State.v5Follow
  dsimp only
  split
  · refine .ite h (.pw ?_ supply _)
    have on := h.put PWR_STAT_V5_ON 1 stat
    exact .ite ((on.put MG_MW_STAT_ABANDON _ mw).mwNext supply run mw hold) on
  · exact (h.put PWR_STAT_V5_ON 0 stat).pw supply _

/-- Where V5OUT may not be on it goes off (R82). -/
theorem State.v5Follow_off (h : t.flOn = false ∨ t.dev = .recovery) : t.v5Follow = t.v5Cut := by
  unfold State.v5Follow
  dsimp only
  rw [if_neg]
  · rfl
  · rcases h with e | e <;> simp [e]

theorem State.alike.v5Cut {scope : Scope} (h : s.alike t A scope) (supply : scope ≠ .book) (stat : 0x140 ∈ A) : s.alike t.v5Cut A scope := (h.put PWR_STAT_V5_ON 0 stat).pw supply _

theorem State.alike.dumpOff {scope : Scope} (h : s.alike t A scope) (supply : scope ≠ .book) (stat : 0x140 ∈ A) : s.alike t.dumpOff A scope := (h.put PWR_STAT_DUMP 0 stat).pw supply _

theorem State.alike.fbAdd {scope : Scope} (h : s.alike t A scope) (lost : 0x1000012 ∈ A) (typ : Nat) (payload : List Nat) : s.alike (t.fbAdd typ payload) A scope := by
  unfold State.fbAdd State.fbAddFrom
  exact .ite h (.ite (h.su _) ((h.su _).put _ _ lost))

theorem State.alike.flDown (h : s.alike t A) (stat : 0x140 ∈ A) (run : 0x1000005 ∈ A) (hold : ∀ n : Fin 8, (AX_DP_STAT_MW_HOLD n).a ∈ A) :
    s.alike t.flDown A := by
  rw [State.flDown_eq]
  refine .forFin (fun n x hx => (hx.co _ _).co _ _) (.tick (.mwStop ?_ run hold) _)
  exact ((h.pw nofun _).put PWR_STAT_FL_ON 0 stat).v5Cut nofun stat

theorem State.alike.svCalDrop (h : s.alike t A) (x : Fin 2) (cal : (ST_CAL_STAT_BUSY x).a ∈ A) : s.alike (t.svCalDrop x) A := by
  unfold State.svCalDrop
  exact ((h.put (ST_CAL_STAT_STATE x) 0 cal).put (ST_CAL_STAT_BUSY x) 0 cal).svu nofun x _

theorem State.alike.surveyStop (h : s.alike t A) (stat : ∀ x : Fin 2, (ST_SV_STAT_BUSY x).a ∈ A) (cal : ∀ x : Fin 2, (ST_CAL_STAT_BUSY x).a ∈ A) :
    s.alike t.surveyStop A := by
  refine .forFin (fun x y hy => ?_) h
  have still := (((hy.svCalDrop x (cal x)).put (ST_SV_STAT_BUSY x) 0 (stat x)).put (ST_SV_STAT_INJ_BUSY x) 0 (stat x)).put (ST_SV_STAT_PWRDN x) 0 (stat x)
  exact ((still.put (ST_SV_STAT_TRG_PEND x) 0 (stat x)).put (ST_SV_STAT_ITRG_PEND x) 0 (stat x)).svu nofun x _

end Sys2Proof.Machine
end

section
/-!
PROOF. The entry to RECOVERY (R128).
-/

namespace Sys2Proof.Machine

open Host

variable {s t u : State} {A : List Nat}

/-! ## The entry to RECOVERY (R128) -/

/-- The device in RECOVERY, with nothing in flight, no context running, the boot watchdog off. -/
def State.inRecovery (s : State) : State :=
  { s with dev := .recovery, cmds := [], backlog := [], boot := { s.boot with wdOn := false, fwRunning := false } }

theorem State.alike.toRecovery (h : s.alike t A) (stations : Vector Station 2) (ctxs : Vector Ctx 4) :
    s.inRecovery.alike (State.bt { t with dev := .recovery, cmds := [], backlog := [], stations := stations, ctxs := ctxs } fun b =>
      { b with wdOn := false, fwRunning := false }) A := by
  refine ⟨h.now, ?_, h.words.upd.updL⟩
  have into (x : State) (a : Vector Station 2) (c : Vector Ctx 4) : (State.bt { x with dev := .recovery, cmds := [], backlog := [], stations := a, ctxs := c } fun b =>
      { b with wdOn := false, fwRunning := false }).bare .all = (x.bare .all).inRecovery := rfl
  have same (x : State) : x.inRecovery.bare .all = (x.bare .all).inRecovery := rfl
  rw [into, same, h.bare]

/-- The first half of the entry: full logic and the converters stop. -/
def State.recoveryStop (s : State) : State :=
  let s := s.surveyStop.flDown
  let s := { s with
    dev := .recovery, cmds := [], backlog := [],
    stations := s.stations.map fun (x : Station) => { x with open_ := [], mv := none },
    ctxs := s.ctxs.map fun (c : Ctx) => { c with running := false, trk := [], wait := .none } }
  s.bt fun b => { b with wdOn := false, fwRunning := false }

/-- The second half: supplies, status words and the record of the entry. -/
def State.recoveryTold (s : State) (cause : Nat) : State :=
  let s := (s.put DEV_STATE_WAIT_FL 0).levelOff 1 0 0
  let s := ((s.dumpOff).v5Follow).put DEV_BOOTSTAT_REC_CAUSE cause
  let s := ((s.put MG_SV_STAT_HALTED 0).put MG_SV_STAT_FW 0).setWord 0x3 0
  s.fbAdd 0x03 [cause, s.g DEV_BOOTSTAT_FAILCNT, s.g DEV_BOOTSTAT_FW_SLOT, s.g DEV_BOOTSTAT_IMG_SLOT]

theorem State.enterRecovery_eq (s : State) (cause : Nat) : s.enterRecovery cause = s.recoveryStop.recoveryTold cause := rfl

/-- The words that the first half may change. -/
def haltWords : List Nat := [0x140, 0x444, 0x44E, 0x544, 0x54E, 0x1000005] ++ (List.range 8).map (0x88E + 0x100 * ·)

theorem State.recoveryStop_alike (s : State) : s.inRecovery.alike s.recoveryStop haltWords :=
  State.alike.toRecovery (State.alike.flDown (State.alike.surveyStop .refl (by decide) (by decide)) (by decide) (by decide)
    fun n => List.mem_append_right _ (mwWords_hold n)) _ _

/-- What the second half does: words, V5OUT, the queue of records. -/
theorem State.recoveryTold_alike (s : State) (at_ : s.dev = .recovery) (cause : Nat) : s.alike (s.recoveryTold cause) recoveryWords := by
  have low : s.alike ((s.put DEV_STATE_WAIT_FL 0).levelOff 1 0 0).dumpOff recoveryWords :=
    .dumpOff (.step (State.alike.refl.put DEV_STATE_WAIT_FL 0 (by decide)) (State.levelOff_step _ _ _ _)) nofun (by decide)
  unfold State.recoveryTold
  dsimp only
  refine .fbAdd (.setWord (.put (.put (.put ?_ DEV_BOOTSTAT_REC_CAUSE cause (by decide)) MG_SV_STAT_HALTED 0 (by decide)) MG_SV_STAT_FW 0
    (by decide)) 0x3 0 (by decide)) (by decide) _ _
  rw [State.v5Follow_off (.inr ?_)]
  · exact low.v5Cut nofun (by decide)
  · exact (congrArg (·.dev) low.bare).trans at_

theorem State.enterRecovery_alike (s : State) (cause : Nat) : s.inRecovery.alike (s.enterRecovery cause) recoveryWords :=
  (s.recoveryStop_alike.mono (by decide)).trans (s.recoveryStop.recoveryTold_alike rfl cause)

/-! ### What the entry stops -/

/-- The full-logic supply, the tick, coils, contexts and stations: what the second half leaves. -/
def State.works (s : State) : Bool × TickSt × Vector Coil 16 × Vector Bool 4 × Vector Station 2 :=
  (s.power.flUp, s.tick, s.coils, s.ctxs.map fun (c : Ctx) => c.running, s.stations)

theorem State.evStep.works (k : t.evStep u) : u.works = t.works := by
  have running (x : State) : (x.ctxs.map fun (c : Ctx) => c.running) = x.rest.ctxs.map fun (c : Ctx) => c.running := by
    change _ = (x.ctxs.map fun (c : Ctx) => { c with ev := 0 }).map _
    rw [Vector.map_map]
    rfl
  have each (x : State) : x.works = (x.rest.power.flUp, x.rest.tick, x.rest.coils, x.rest.ctxs.map (fun (c : Ctx) => c.running), x.rest.stations) := by
    unfold State.works
    rw [running]
    rfl
  rw [each, each, k.rest]

theorem State.fbAdd_works (typ : Nat) (payload : List Nat) : (s.fbAdd typ payload).works = s.works := by
  obtain h | h | h := s.fbAdd_cases typ payload <;> rw [h]
  · exact id rfl
  · exact id rfl

theorem State.recoveryTold_works (s : State) (at_ : s.dev = .recovery) (cause : Nat) : (s.recoveryTold cause).works = s.works := by
  have low := (State.levelOff_step (s.put DEV_STATE_WAIT_FL 0) 1 0 0).works
  have there : ((s.put DEV_STATE_WAIT_FL 0).levelOff 1 0 0).dumpOff.dev = .recovery := (State.levelOff_dev _ _ _ _).trans at_
  unfold State.recoveryTold
  dsimp only
  rw [State.fbAdd_works, State.v5Follow_off (.inr there)]
  exact low

theorem State.surveyStop_off (s : State) (x : Fin 2) : s.surveyStop.stations[x].sv.on = false := by
  refine forFin_each _ (fun y (t : State) => t.stations[y].sv.on = false) (fun y t => ?_) (fun y z t h => ?_) s x
  · exact congrArg (fun (w : Station) => w.sv.on) (vupd_same _ _ _)
  · by_cases e : z = y
    · subst e
      exact congrArg (fun (w : Station) => w.sv.on) (vupd_same _ _ _)
    · refine (congrArg (fun (w : Station) => w.sv.on) (vupd_ne _ _ _ _ e)).trans ?_
      exact (congrArg (fun (w : Station) => w.sv.on) (vupd_ne _ _ _ _ e)).trans h

theorem State.mwSet_stations (s : State) (l : Option Nat) : (s.mwSet l).stations = s.stations := by
  unfold State.mwSet
  dsimp only
  rw [State.su_stations]
  repeat' split
  all_goals simp only [State.put_stations]

theorem State.mwStop_stations (s : State) : s.mwStop.stations = s.stations := by
  unfold State.mwStop
  rw [State.su_stations, State.mwSet_stations, State.put_stations]

theorem State.recoveryStop_works (s : State) : s.recoveryStop.flOn = false ∧ s.recoveryStop.tick.on = false ∧
    (∀ c : Fin 16, s.recoveryStop.coils[c].side1 = .off ∧ s.recoveryStop.coils[c].side2 = .off) ∧
    (∀ x : Fin 4, s.recoveryStop.ctxs[x].running = false) ∧
    ∀ st : Fin 2, s.recoveryStop.stations[st].mv = none ∧ s.recoveryStop.stations[st].sv.on = false := by
  obtain ⟨up, -⟩ := s.surveyStop.flDown_supply
  have kept : s.surveyStop.flDown.stations = s.surveyStop.stations := by
    rw [State.flDown_eq, State.bridgesDown_keeps _ (fun t => t.stations) fun _ _ _ => rfl]
    exact s.surveyStop.flCut.mwStop_stations
  refine ⟨up, s.surveyStop.flDown_tick, s.surveyStop.flDown_bridges, fun x => ?_, fun st => ?_⟩
  · have each (v : Vector Ctx 4) : (v.map fun (c : Ctx) => { c with running := false, trk := [], wait := .none })[x].running = false := by
      rw [Fin.getElem_fin, Vector.getElem_map]
    exact each _
  · have each (v : Vector Station 2) : (v.map fun (x : Station) => { x with open_ := [], mv := none })[st].mv = none ∧
        (v.map fun (x : Station) => { x with open_ := [], mv := none })[st].sv = v[st].sv := by
      rw [Fin.getElem_fin, Vector.getElem_map]
      exact ⟨rfl, rfl⟩
    obtain ⟨mv, sv⟩ := each s.surveyStop.flDown.stations
    refine ⟨mv, (congrArg (·.on) sv).trans ?_⟩
    rw [kept]
    exact s.surveyStop_off st

theorem State.fbAdd_g (s : State) (typ : Nat) (payload : List Nat) (f : Fld) (h : f.a ≠ 0x1000012) : (s.fbAdd typ payload).g f = s.g f := by
  obtain e | e | e := s.fbAdd_cases typ payload <;> rw [e]
  · exact id rfl
  · exact State.put_g_disj _ _ _ _ (by decide) (.inl fun x => h x.symm)

/-- A field written over the same word gives the same fields. -/
theorem State.put_g_of_word {s t : State} (f k : Fld) (v : Nat) (h : t.word k.a = s.word k.a) : (t.put f v).g k = (s.put f v).g k := by
  refine State.word_eq_of_g _ _ k ?_
  by_cases e : f.a = k.a
  · unfold State.put
    rw [e, State.setWord_word_same, State.setWord_word_same, h]
  · rw [State.put_word_ne _ _ _ _ e, State.put_word_ne _ _ _ _ e, h]

theorem State.v5Cut_word (s : State) (a : Nat) (h : 0x140 ≠ a) : s.v5Cut.word a = s.word a := by
  unfold State.v5Cut
  rw [State.pw_word, State.put_word_ne _ _ _ _ h]

theorem State.dumpOff_word (s : State) (a : Nat) (h : 0x140 ≠ a) : s.dumpOff.word a = s.word a := by
  unfold State.dumpOff
  rw [State.pw_word, State.put_word_ne _ _ _ _ h]

/-- DEV_BOOTSTAT after the second half: the cause, and nothing else. -/
theorem State.recoveryTold_g (s : State) (at_ : s.dev = .recovery) (cause : Nat) (f : Fld) (h : f.a = 0x12) :
    (s.recoveryTold cause).g f = (s.put DEV_BOOTSTAT_REC_CAUSE cause).g f := by
  have apart (x : State) (k : Fld) (v : Nat) (low : k.lo + k.w ≤ 32) (ne : k.a ≠ 0x12) : (x.put k v).g f = x.g f :=
    State.put_g_disj _ _ _ _ low (.inl fun e => ne (e.trans h))
  have there : ((s.put DEV_STATE_WAIT_FL 0).levelOff 1 0 0).dumpOff.dev = .recovery := (State.levelOff_dev _ _ _ _).trans at_
  have low : ((s.put DEV_STATE_WAIT_FL 0).levelOff 1 0 0).dumpOff.v5Cut.word f.a = s.word f.a := by
    rw [h, State.v5Cut_word _ _ (by decide), State.dumpOff_word _ _ (by decide), State.levelOff_word _ _ _ _ _ (by decide),
      State.put_word_ne _ _ _ _ (by decide)]
  unfold State.recoveryTold
  dsimp only
  rw [State.fbAdd_g _ _ _ _ (by rw [h]; decide), State.word_eq_of_g _ _ _ (State.setWord_word_ne _ _ _ _ (by rw [h]; decide)),
    apart _ _ _ (by decide) (by decide), apart _ _ _ (by decide) (by decide), State.v5Follow_off (.inr there)]
  exact State.put_g_of_word _ _ _ low

theorem State.enterRecovery_g (s : State) (cause : Nat) (f : Fld) (h : f.a = 0x12) :
    (s.enterRecovery cause).g f = (s.put DEV_BOOTSTAT_REC_CAUSE cause).g f := by
  have stopped : s.recoveryStop.word 0x12 = s.word 0x12 := s.recoveryStop_alike.words 0x12 (by decide) (by decide)
  rw [State.enterRecovery_eq, State.recoveryTold_g _ rfl cause f h]
  exact State.put_g_of_word _ _ _ (by rw [h, stopped])

theorem State.enterRecovery_cause (s : State) {cause : Nat} (h : cause < 8) : (s.enterRecovery cause).g DEV_BOOTSTAT_REC_CAUSE = cause := by
  rw [State.enterRecovery_g _ _ _ rfl, State.put_g_same _ _ _ (by decide)]
  exact Nat.mod_eq_of_lt h

theorem State.alike.inRecovery (h : s.alike t A) : s.inRecovery.alike t.inRecovery A := by
  have same (x : State) : x.inRecovery.bare .all = (x.bare .all).inRecovery := rfl
  refine ⟨h.now, ?_, h.words.upd.updL⟩
  rw [same, same, h.bare]

/-- The entry to RECOVERY, of a state that stands as `s` does but for registers at the addresses `A`. -/
theorem State.recovers.of_enter {cause : Nat} (h : s.inRecovery.alike t.inRecovery A) (low : cause < 8) :
    s.recovers (t.enterRecovery cause).settle cause A := by
  have stopped := t.recoveryStop.recoveryTold_works rfl cause
  have told := (t.enterRecovery cause).settle_step.works.trans stopped
  unfold State.works at told
  simp only [Prod.mk.injEq] at told
  obtain ⟨up, tick, coils, running, stations⟩ := told
  obtain ⟨down, off, opened, still, quiet⟩ := t.recoveryStop_works
  have frame : s.inRecovery.alike (t.enterRecovery cause).settle (recoveryWords ++ A) :=
    .settle (.trans (h.mono fun a => List.mem_append_right _) ((t.enterRecovery_alike cause).mono fun a => List.mem_append_left _))
  refine ⟨frame.sameBut, ?_, ⟨up.trans down, by rw [tick, off]⟩, by rw [coils]; exact opened, fun x => ?_, by rw [stations]; exact quiet⟩
  · rw [State.settle_g _ _ (by decide), t.enterRecovery_cause low]
  · have same := congrArg (fun (v : Vector Bool 4) => v[x]) running
    simp only [Fin.getElem_fin, Vector.getElem_map] at same
    exact same.trans (still x)

end Sys2Proof.Machine
end

section
/-!
PROOF. What an expiry of the host watchdog does to the axes (R131).
-/

namespace Sys2Proof.Machine

open Host

variable (s : State) (k : Fin 8)

/-! ## What the host watchdog does to one axis (R131) -/

/-- How an axis stands: all states of motion are one. -/
def AxState.pace : AxState → AxState
  | .moving | .follow | .homing | .quiescing => .quiescing
  | .off => .off
  | .idle => .idle
  | .hold => .hold
  | .fault => .fault

/-- How an axis stands, and whether it is or at standstill will be in FAULT. -/
def Axis.bearing (a : Axis) : AxState × Bool := (a.st.pace, a.hwdog || a.st == .fault)

/-- What the host watchdog is about at axis `k`: the device, DEV_WDOG_CFG, the axis's fault causes and its bearing. -/
def State.scene (s : State) (k : Fin 8) : DevState × Word × Nat × AxState × Bool :=
  (s.dev, s.word 0x14, s.g (AX_FAULT_BITS k), s.axes[k].bearing)

/-! ### Registers and containers -/

/-- An update of no register, of neither the device's state nor an axis. -/
theorem State.upd_scene {pending now staged groups links grelas mbox indQ window cmds nextId lastEnd backlog rings evq evLost levels cap tick arb ecc coils stations ctxs store chain chainOut chainRst chainRej chainReach chainStall chainMode boot power surv nvm otp flash free cyc} :
    State.scene ⟨⟨s.dev, s.regs, staged, groups, links, grelas, mbox, indQ, window, cmds, nextId, lastEnd, backlog, rings, evq, evLost, levels, cap, tick, arb, ecc, s.axes, coils, stations, ctxs, store, chain, chainOut, chainRst, chainRej, chainReach, chainStall, chainMode, boot, power, surv, nvm, otp, flash, free⟩, pending, now, cyc⟩ k = s.scene k := id rfl

theorem foldl_scene {ι : Type} (l : List ι) (f : State → ι → State) (h : ∀ x i, (f x i).scene k = x.scene k) :
    (l.foldl f s).scene k = s.scene k := foldl_ind (fun t => t.scene k = s.scene k) l f (fun x i e => (h x i).trans e) s rfl

theorem State.ite_scene (c : Prop) [Decidable c] (a b : State) : (if c then a else b).scene k = if c then a.scene k else b.scene k :=
  apply_ite (fun t => State.scene t k) c a b

theorem State.scene_of_words {t : State} (dev : t.dev = s.dev) (axes : t.axes = s.axes)
    (word : ∀ a, a = 0x14 ∨ a = (AX_FAULT_BITS k).a → t.word a = s.word a) : t.scene k = s.scene k := by
  unfold State.scene
  rw [dev, axes, word 0x14 (.inl rfl), State.word_eq_of_g s t _ (word _ (.inr rfl))]

theorem State.setWord_scene (a : Nat) (w : Word) (h : a ≠ 0x14) (own : a ≠ (AX_FAULT_BITS k).a) : (s.setWord a w).scene k = s.scene k :=
  s.scene_of_words k rfl rfl fun b hb => s.setWord_word_ne _ _ _ (by rintro rfl; rcases hb with e | e; exacts [h e, own e])

theorem State.put_scene (f : Fld) (v : Nat) (h : f.a ≠ 0x14) (own : f.a ≠ (AX_FAULT_BITS k).a) : (s.put f v).scene k = s.scene k :=
  s.setWord_scene k _ _ h own

theorem State.step_scene {t : State} (h : s.evStep t) : t.scene k = s.scene k := by
  have axes := congrArg (fun x : State => x.axes) h.rest
  exact s.scene_of_words k h.dev axes fun a ha => h.word a (by rcases ha with rfl | rfl; exacts [rfl, by revert k; decide])

/-- A change of an axis: the own one keeps its bearing. -/
theorem State.ax_scene (n : Fin 8) (f : Axis → Axis) (h : n = k → (f s.axes[n]).bearing = s.axes[n].bearing) : (s.ax n f).scene k = s.scene k := by
  have axis : (s.ax n f).axes[k].bearing = s.axes[k].bearing := by
    rw [State.ax_axes]
    by_cases e : n = k
    · subst e
      rw [vupd_same]
      exact h rfl
    · rw [vupd_ne _ _ _ _ e]
  exact congrArg (fun b => (s.dev, s.word 0x14, s.g (AX_FAULT_BITS k), b)) axis

/-! ### Endings of commands -/

theorem State.noteLast_scene (c : Cmd) (st : Nat) : (s.noteLast c st).scene k = s.scene k := by
  unfold State.noteLast
  split
  · rw [State.ite_scene, s.upd_scene, ite_self]
  · rfl

theorem State.noteEnd_scene (c : Cmd) (st : Nat) : (s.noteEnd c st).scene k = s.scene k := by
  unfold State.noteEnd
  dsimp only
  split <;> simp only [State.ite_scene, State.upd_scene, State.noteLast_scene, ite_self]

theorem State.recordEnd_scene (c : Cmd) (st : Nat) : (s.recordEnd c st).scene k = s.scene k := by
  unfold State.recordEnd
  repeat' split
  all_goals rfl

theorem State.endCmd_scene (id st : Nat) : (s.endCmd id st).scene k = s.scene k := by
  unfold State.endCmd
  split
  · rfl
  · dsimp only
    split
    · rfl
    all_goals
      split <;> simp only [State.upd_scene, State.recordEnd_scene, State.noteEnd_scene]

theorem State.flushEnds_scene : s.flushEnds.scene k = s.scene k :=
  (foldl_scene _ k _ _ fun x _ => x.recordEnd_scene k _ _).trans (s.upd_scene k)

theorem State.gathered_scene (f : State → State) (g : DevState × Word × Nat × AxState × Bool → DevState × Word × Nat × AxState × Bool)
    (h : ∀ x, (f x).scene k = g (x.scene k)) : (s.gathered f).scene k = g (s.scene k) := by
  unfold State.gathered
  split
  · exact h s
  · exact (State.flushEnds_scene _ k).trans (h _)

/-! ### Stops -/

/-- An axis of a coordinated move that begins to decelerate. -/
theorem axis_decelerates (a : Axis) : (if a.st == .moving then { a with st := .quiescing } else a).bearing = a.bearing := by
  split
  · next moving =>
    unfold Axis.bearing
    rw [beq_iff_eq.1 moving]
    rfl
  · rfl

theorem decelerate_scene (l : List (Fin 8)) :
    (l.foldl (fun s n => s.ax n fun a => if a.st == .moving then { a with st := .quiescing } else a) s).scene k = s.scene k :=
  foldl_scene s k _ _ fun x n => x.ax_scene k n _ fun _ => axis_decelerates _

theorem State.cause_scene (id st : Nat) : (s.cause id st).scene k = s.scene k := s.upd_scene k

theorem State.markEnd_scene (id st : Nat) : (s.markEnd id st).scene k = s.scene k := by
  unfold State.markEnd
  split
  · rfl
  · split
    · rfl
    · rw [State.ite_scene, State.noteLast_scene, State.setPh, State.cmdUpd, s.upd_scene, ite_self]
    all_goals rw [State.noteLast_scene, State.cmdUpd, s.upd_scene]

theorem State.stopMove_scene (st : Fin 2) (quick : Bool) (l : List Nat) : (s.stopMove st quick l).scene k = s.scene k := by
  refine foldl_scene s k _ _ fun x u => ?_
  dsimp only
  split
  · rfl
  · next m _ =>
    have caused : (m.ids.foldl (fun s id => l.foldl (fun s y => s.cause id y) s) x).scene k = x.scene k :=
      foldl_scene x k _ _ fun y id => foldl_scene y k _ _ fun z c => z.cause_scene k id c
    split
    · rw [State.stn, State.upd_scene, foldl_scene _ k _ _ fun y id => y.markEnd_scene k id _, caused]
    · rw [State.stn, State.upd_scene, decelerate_scene, caused]

/-- An axis in motion begins to quiesce. -/
theorem bearing_quiescing {a b : Axis} (slow : a.st.pace = .quiescing) (st : b.st = .quiescing) (hwdog : b.hwdog = a.hwdog) : b.bearing = a.bearing := by
  have stays : a.st ≠ .fault := fun e => by rw [e] at slow; cases slow
  unfold Axis.bearing
  rw [slow, st, hwdog, beq_false_of_ne stays]
  rfl

theorem State.quiesce_scene (n : Fin 8) (dec j t : Nat) (slow : s.axes[n].st.pace = .quiescing) : (s.quiesce n dec j t).scene k = s.scene k := by
  unfold State.quiesce
  dsimp only
  rw [State.ite_scene, s.ax_scene k n _ fun _ => bearing_quiescing slow rfl rfl, ite_self]

theorem State.followLeave_scene (n : Fin 8) : (s.followLeave n).scene k = s.scene k := by
  unfold State.followLeave
  dsimp only
  rw [State.ite_scene, State.ax_scene, State.addSat, State.put_scene, ite_self]
  · simp; omega
  · simp; omega
  · intro _
    rfl

theorem AxState.pace_quiescing (a : AxState) : a.pace = .quiescing ↔ (a == .moving || a == .homing || a == .follow || a == .quiescing) = true := by
  cases a <;> decide

theorem State.scene_bearing {s t : State} (h : t.scene k = s.scene k) : t.axes[k].bearing = s.axes[k].bearing := congrArg (fun x => x.2.2.2) h

theorem State.stopAxis_scene (n : Fin 8) (quick : Bool) (st t : Nat) : (s.stopAxis n quick st t).scene k = s.scene k := by
  have causes (x : State) (o : Option Cmd) (p : Bool) (m : Fin 8) :
      (match o with
        | some c => (if p then x.cause c.id CANCELLED_STATE else x).cause c.id st
        | none => x).scene m = x.scene m := by
    split
    · rw [State.cause_scene, State.ite_scene, State.cause_scene, ite_self]
    · rfl
  unfold State.stopAxis
  dsimp only
  split
  · rfl
  · next moves =>
    have slow := (AxState.pace_quiescing s.axes[n].st).2 (by rwa [Bool.not_eq_true, Bool.not_eq_false'] at moves)
    generalize hx : State.ax _ n _ = x
    have same (m : Fin 8) : x.scene m = s.scene m := by
      rw [← hx, State.ax_scene _ m n _ fun _ => rfl, State.followLeave_scene]
      exact causes s _ _ m
    have slow' : x.axes[n].st.pace = .quiescing := (congrArg Prod.fst (State.scene_bearing n (same n))).trans slow
    split
    · rw [State.ite_scene, State.quiesce_scene _ k _ _ _ _ slow', State.ax_scene _ k n _ fun _ => bearing_quiescing slow' rfl rfl, ite_self, same]
    · rw [State.quiesce_scene _ k _ _ _ _ slow', same]

theorem State.planIdle_scene (n : Fin 8) : (s.planIdle n).scene k = s.scene k := by
  unfold State.planIdle
  rw [State.setWord_scene, State.put_scene, State.setWord_scene]
  all_goals simp; omega

theorem State.faultMove_scene (n : Fin 8) : (s.faultMove n).scene k = s.scene k := by
  unfold State.faultMove
  rw [State.ite_scene, foldl_scene, ite_self]
  intro x t
  split
  · rfl
  · dsimp only
    rw [State.stn, State.upd_scene, decelerate_scene, foldl_scene _ _ _ _ fun y _ => y.endCmd_scene _ _ _]

/-! ### Entry to FAULT -/

theorem State.causesPut_scene (n : Fin 8) (pwr ax : Nat) (other : n ≠ k) : (s.causesPut n pwr ax).scene k = s.scene k := by
  unfold State.causesPut
  rw [State.put_scene, State.put_scene]
  all_goals simp; omega

theorem State.bridgesOff_scene (n : Fin 8) : (s.bridgesOff n).scene k = s.scene k := s.upd_scene k

/-- The entry itself, past the record of its causes. -/
def State.faultEntered (s : State) (n : Fin 8) (code st : Nat) : State :=
  let s := (((s.faultMove n).followLeave n).planIdle n).ax n fun a => { a.rest with st := .fault }
  let s := s.bridgesOff n
  let s := (cmdOrder (s.cmds.filter fun c => c.ring == n.val)).foldl (fun s c =>
    match faultEnding st c with
    | some x => s.endCmd c.id x
    | none => s) s
  s.pulse (40 + n) n code

theorem State.axisFault_entered (n : Fin 8) (pwr ax st : Nat) : s.axisFault n pwr ax st =
    if s.axes[n].st == .fault then s.causesPut n pwr ax else (s.causesPut n pwr ax).gathered fun s => s.faultEntered n (faultCode pwr ax) st := rfl

/-- The scene of an axis in FAULT. -/
def faulted (x : DevState × Word × Nat × AxState × Bool) : DevState × Word × Nat × AxState × Bool := (x.1, x.2.1, x.2.2.1, .fault, true)

theorem State.ax_faulted (a : Axis → Axis) (st : ∀ x, (a x).st = .fault) : (s.ax k a).scene k = faulted (s.scene k) := by
  have axis : (s.ax k a).axes[k].bearing = (.fault, true) := by
    rw [State.ax_axes, vupd_same]
    unfold Axis.bearing
    rw [st, beq_self_eq_true, Bool.or_true]
    rfl
  exact congrArg (fun b => (s.dev, s.word 0x14, s.g (AX_FAULT_BITS k), b)) axis

theorem State.faultEntered_scene (n : Fin 8) (code st : Nat) :
    (s.faultEntered n code st).scene k = if n = k then faulted (s.scene k) else s.scene k := by
  have past (x : State) : (((x.faultMove n).followLeave n).planIdle n).scene k = x.scene k := by
    rw [State.planIdle_scene, State.followLeave_scene, State.faultMove_scene]
  unfold State.faultEntered
  dsimp only
  rw [State.step_scene _ k (State.pulse_step _ _ _ _ (by omega)), foldl_scene, State.bridgesOff_scene]
  · split
    · next own =>
      subst own
      rw [State.ax_faulted _ _ _ fun _ => rfl, past]
    · next other =>
      rw [State.ax_scene _ k n _ fun e => absurd e other, past]
  · intro x c
    split
    · exact x.endCmd_scene _ _ _
    · rfl

theorem State.axisFault_scene (n : Fin 8) (pwr ax st : Nat) (other : n ≠ k) : (s.axisFault n pwr ax st).scene k = s.scene k := by
  rw [State.axisFault_entered, State.ite_scene, State.gathered_scene _ k _ id fun x => (x.faultEntered_scene k n _ _).trans (if_neg other),
    s.causesPut_scene k n pwr ax other]
  exact ite_self _

theorem State.axisFault_scene_own (pwr ax st : Nat) : (s.axisFault k pwr ax st).scene k =
    (s.dev, s.word 0x14, (s.g (AX_FAULT_BITS k) ||| ax) % 128, .fault, true) := by
  have causes : (s.causesPut k pwr ax).scene k = (s.dev, s.word 0x14, (s.g (AX_FAULT_BITS k) ||| ax) % 128, s.axes[k].bearing) := by
    have bits : (s.causesPut k pwr ax).g (AX_FAULT_BITS k) = (s.g (AX_FAULT_BITS k) ||| ax) % 128 := by
      unfold State.causesPut
      rw [State.put_g_same _ _ _ (by simp), State.put_g_ne _ _ _ _ (by simp; omega)]
      rfl
    have word : (s.causesPut k pwr ax).word 0x14 = s.word 0x14 := by
      unfold State.causesPut
      rw [State.put_word_ne _ _ _ _ (by simp; omega), State.put_word_ne _ _ _ _ (by simp; omega)]
    exact congrArg₂ (fun w b => (s.dev, w, b, s.axes[k].bearing)) word bits
  rw [State.axisFault_entered, State.ite_scene, State.gathered_scene _ k _ faulted fun x => (x.faultEntered_scene k k _ _).trans (if_pos rfl), causes]
  split
  · next stands =>
    unfold Axis.bearing
    rw [beq_iff_eq.1 stands, beq_self_eq_true, Bool.or_true]
    rfl
  · rfl

/-! ### The axis's turn -/

/-- What the host watchdog makes of an axis's scene. -/
def hwdogScene (k : Fin 8) (x : DevState × Word × Nat × AxState × Bool) : DevState × Word × Nat × AxState × Bool :=
  if bit (fieldIn x.2.1 DEV_WDOG_CFG_AXMASK) k then
    match x.2.2.2.1 with
    | .off | .idle => x
    | .hold | .fault => (x.1, x.2.1, (x.2.2.1 ||| afHWDOG) % 128, .fault, true)
    | .moving | .follow | .homing | .quiescing => (x.1, x.2.1, x.2.2.1, x.2.2.2.1, true)
  else x

section
variable {k} {x : DevState × Word × Nat × AxState × Bool} (named : bit (fieldIn x.2.1 DEV_WDOG_CFG_AXMASK) k = true)
include named

theorem hwdogScene_off (h : x.2.2.2.1 = .off ∨ x.2.2.2.1 = .idle) : hwdogScene k x = x := by
  unfold hwdogScene
  rw [if_pos named]
  rcases h with e | e <;> rw [e]

theorem hwdogScene_rest (h : x.2.2.2.1 = .hold ∨ x.2.2.2.1 = .fault) :
    hwdogScene k x = (x.1, x.2.1, (x.2.2.1 ||| afHWDOG) % 128, .fault, true) := by
  unfold hwdogScene
  rw [if_pos named]
  rcases h with e | e <;> rw [e]

theorem hwdogScene_slow (h : x.2.2.2.1 = .quiescing) : hwdogScene k x = (x.1, x.2.1, x.2.2.1, .quiescing, true) := by
  unfold hwdogScene
  rw [if_pos named, h]

end

theorem State.hwdogAxis_off (h : s.axes[k].st = .off ∨ s.axes[k].st = .idle) : s.hwdogAxis k = s := by
  unfold State.hwdogAxis
  rcases h with e | e <;> rw [e]

theorem State.hwdogAxis_rest (h : s.axes[k].st = .hold ∨ s.axes[k].st = .fault) : s.hwdogAxis k = s.axisFault k 0 afHWDOG CANCELLED_FAULT := by
  unfold State.hwdogAxis
  rcases h with e | e <;> rw [e]

theorem State.hwdogAxis_slow (h : s.axes[k].st.pace = .quiescing) :
    (s.hwdogAxis k).scene k = (s.dev, s.word 0x14, s.g (AX_FAULT_BITS k), .quiescing, true) := by
  have marked : (s.ax k fun a => { a with hwdog := true }).scene k = (s.dev, s.word 0x14, s.g (AX_FAULT_BITS k), .quiescing, true) := by
    have axis : (s.ax k fun a => { a with hwdog := true }).axes[k].bearing = (.quiescing, true) := by
      rw [State.ax_axes, vupd_same]
      exact congrArg (·, true) h
    exact congrArg (fun b => (s.dev, s.word 0x14, s.g (AX_FAULT_BITS k), b)) axis
  unfold State.hwdogAxis
  cases e : s.axes[k].st with
  | off | idle | hold | fault => rw [e] at h; cases h
  | moving | follow | homing | quiescing =>
    dsimp only
    rw [State.ite_scene, State.stopMove_scene, State.stopAxis_scene, marked, ite_self]

/-- The own turn in the loop over the axes. -/
theorem State.hwdogAxis_own : (if s.gBit DEV_WDOG_CFG_AXMASK k then s.hwdogAxis k else s).scene k = hwdogScene k (s.scene k) := by
  have pace : (s.scene k).2.2.2.1 = s.axes[k].st.pace := rfl
  by_cases named : s.gBit DEV_WDOG_CFG_AXMASK k
  · have named' : bit (fieldIn (s.scene k).2.1 DEV_WDOG_CFG_AXMASK) k = true := named
    rw [if_pos named]
    cases e : s.axes[k].st with
    | off =>
      rw [s.hwdogAxis_off k (.inl e), hwdogScene_off named' (.inl (by rw [pace, e]; rfl))]
    | idle =>
      rw [s.hwdogAxis_off k (.inr e), hwdogScene_off named' (.inr (by rw [pace, e]; rfl))]
    | hold =>
      rw [s.hwdogAxis_rest k (.inl e), State.axisFault_scene_own, hwdogScene_rest named' (.inl (by rw [pace, e]; rfl))]
      exact id rfl
    | fault =>
      rw [s.hwdogAxis_rest k (.inr e), State.axisFault_scene_own, hwdogScene_rest named' (.inr (by rw [pace, e]; rfl))]
      exact id rfl
    | moving | follow | homing | quiescing =>
      rw [State.hwdogAxis_slow _ _ (by rw [e]; rfl), hwdogScene_slow named' (by rw [pace, e]; rfl)]
      exact id rfl
  · rw [if_neg named]
    exact (if_neg named).symm

theorem State.hwdogAxis_other (n : Fin 8) (other : n ≠ k) : (if s.gBit DEV_WDOG_CFG_AXMASK n then s.hwdogAxis n else s).scene k = s.scene k := by
  rw [State.ite_scene]
  unfold State.hwdogAxis
  split
  · split
    · rfl
    · rfl
    · exact s.axisFault_scene k n _ _ _ other
    · exact s.axisFault_scene k n _ _ _ other
    all_goals
      dsimp only
      rw [State.ite_scene, State.stopMove_scene, State.stopAxis_scene, State.ax_scene _ k n _ fun e => absurd e other, ite_self]
  · rfl

/-- The host watchdog's way with the axes. -/
def State.hwdogAxes (s : State) : State :=
  s.gathered fun s => forFin 8 (fun n s => if s.gBit DEV_WDOG_CFG_AXMASK n then s.hwdogAxis n else s) s

theorem State.hwdogAxes_scene : s.hwdogAxes.scene k = hwdogScene k (s.scene k) :=
  s.gathered_scene k _ _ fun x => forFin_reads _ (fun t => t.scene k) _ k (fun y => y.hwdogAxis_own k) (fun n y other => y.hwdogAxis_other k n other) x

/-! ## A stop leaves all but axes, stations and commands alone -/

/-- The state without axes, stations and commands. -/
def State.unmoved (s : State) : State :=
  { s with axes := Block.reset.axes, stations := Block.reset.stations, cmds := [], lastEnd := Block.reset.lastEnd }

theorem foldl_unmoved {ι : Type} (l : List ι) (f : State → ι → State) (h : ∀ x i, (f x i).unmoved = x.unmoved) :
    (l.foldl f s).unmoved = s.unmoved := foldl_ind (fun t => t.unmoved = s.unmoved) l f (fun x i e => (h x i).trans e) s rfl

theorem State.ite_unmoved (c : Prop) [Decidable c] (a b : State) : (if c then a else b).unmoved = if c then a.unmoved else b.unmoved :=
  apply_ite State.unmoved c a b

theorem State.ax_unmoved (n : Fin 8) (f : Axis → Axis) : (s.ax n f).unmoved = s.unmoved := rfl
theorem State.stn_unmoved (st : Fin 2) (f : Station → Station) : (s.stn st f).unmoved = s.unmoved := rfl
theorem State.cmdUpd_unmoved (id : Nat) (f : Cmd → Cmd) : (s.cmdUpd id f).unmoved = s.unmoved := rfl
theorem State.cause_unmoved (id st : Nat) : (s.cause id st).unmoved = s.unmoved := rfl

theorem State.noteLast_unmoved (c : Cmd) (st : Nat) : (s.noteLast c st).unmoved = s.unmoved := by
  unfold State.noteLast
  repeat' split
  all_goals rfl

theorem State.markEnd_unmoved (id st : Nat) : (s.markEnd id st).unmoved = s.unmoved := by
  unfold State.markEnd
  split
  · rfl
  · split
    · rfl
    · rw [State.ite_unmoved, State.noteLast_unmoved, State.setPh, State.cmdUpd_unmoved, ite_self]
    all_goals rw [State.noteLast_unmoved, State.cmdUpd_unmoved]

theorem State.stopMove_unmoved (st : Fin 2) (quick : Bool) (l : List Nat) : (s.stopMove st quick l).unmoved = s.unmoved := by
  refine foldl_unmoved s _ _ fun x u => ?_
  dsimp only
  split
  · rfl
  · rw [State.ite_unmoved, State.stn_unmoved, foldl_unmoved _ _ _ fun y id => y.markEnd_unmoved id _, State.stn_unmoved,
      foldl_unmoved _ _ _ fun y n => y.ax_unmoved n _, foldl_unmoved _ _ _ fun y id => foldl_unmoved _ _ _ fun z c => z.cause_unmoved id c,
      ite_self]

theorem State.quelled.of_unmoved {b t : State} {A : List Nat} (h : b.quelled s A) (k : t.unmoved = s.unmoved) : b.quelled t A := by
  have same : t = { s with axes := t.axes, stations := t.stations, cmds := t.cmds, lastEnd := t.lastEnd } := by
    have put (x : State) : { x.unmoved with axes := t.axes, stations := t.stations, cmds := t.cmds, lastEnd := t.lastEnd } =
        { x with axes := t.axes, stations := t.stations, cmds := t.cmds, lastEnd := t.lastEnd } := rfl
    rw [← put s, ← k]
    rfl
  rw [same]
  exact h.upd

theorem State.evPending_of_unmoved {t : State} (k : t.unmoved = s.unmoved) (e : Nat) : t.evPending e = s.evPending e := by
  have regs := congrArg (fun x : State => x.regs) k
  have regs : t.regs = s.regs := regs
  unfold State.evPending State.gBit State.g State.word
  rw [regs]

/-- The parts of a stop: commands, the end of step-follow, the axis. -/
theorem State.stopAxis_parts (n : Fin 8) (quick : Bool) (st t : Nat) :
    s.stopAxis n quick st t = s ∨ ∃ x : State, x.unmoved = s.unmoved ∧ (s.stopAxis n quick st t).unmoved = (x.followLeave n).unmoved := by
  have causes (o : Option Cmd) (p : Bool) :
      (match o with
        | some c => (if p then s.cause c.id CANCELLED_STATE else s).cause c.id st
        | none => s).unmoved = s.unmoved := by
    split
    · rw [State.cause_unmoved, State.ite_unmoved, State.cause_unmoved, ite_self]
    · rfl
  have quiesced (x : State) (d j : Nat) : (x.quiesce n d j t).unmoved = x.unmoved := by
    unfold State.quiesce
    dsimp only
    rw [State.ite_unmoved, State.ax_unmoved, ite_self]
  unfold State.stopAxis
  dsimp only
  split
  · exact .inl rfl
  · refine .inr ⟨_, causes (s.execOf n) (s.axes[n].limBrake.isSome && s.axes[n].prof.any fun f => f.kind == EndKind.limitEnd), ?_⟩
    split
    · rw [State.ite_unmoved, State.ax_unmoved, quiesced, State.ax_unmoved, ite_self] <;> rfl
    · rw [quiesced, State.ax_unmoved] <;> rfl

/-- What a turn of the host watchdog keeps: what entries to FAULT leave alone, and the expiry's event. -/
structure State.barked (s t : State) : Prop where
  quelled : s.quelled t [0x14]
  event : t.evPending 3 = true

theorem State.barked.of_unmoved {b t : State} (h : b.barked s) (k : t.unmoved = s.unmoved) : b.barked t :=
  ⟨h.quelled.of_unmoved _ k, (s.evPending_of_unmoved k 3).trans h.event⟩

theorem State.barked.of_graver {b t : State} (h : b.barked s) (q : b.quelled s [0x14] → b.quelled t [0x14]) (g : s.graver t) : b.barked t :=
  ⟨q h.quelled, g.pend 3 (by decide) h.event⟩

theorem State.barked.stopAxis {b : State} (h : b.barked s) (n : Fin 8) (quick : Bool) (st t : Nat) : b.barked (s.stopAxis n quick st t) := by
  obtain e | ⟨x, same, e⟩ := s.stopAxis_parts n quick st t
  · rw [e]
    exact h
  · exact ((h.of_unmoved _ same).of_graver _ (State.followLeave_quell _ _) (State.followLeave_graver _ _ .refl)).of_unmoved _ e

theorem State.barked.hwdogAxis {b : State} (h : b.barked s) (n : Fin 8) : b.barked (s.hwdogAxis n) := by
  have slow (x : State) (hx : b.barked x) : b.barked (if x.onLine n then x.stopMove (stationOf n) true [CANCELLED_FAULT] else
      x.stopAxis n true CANCELLED_FAULT x.axes[n].at_) := by
    split
    · exact hx.of_unmoved _ (x.stopMove_unmoved _ _ _)
    · exact hx.stopAxis _ _ _ _ _
  have fault := h.of_graver _ (State.axisFault_quell s n 0 afHWDOG CANCELLED_FAULT) (State.axisFault_graver s n 0 afHWDOG CANCELLED_FAULT .refl)
  unfold State.hwdogAxis
  split
  · exact h
  · exact h
  · exact fault
  · exact fault
  all_goals exact slow _ (h.of_unmoved _ rfl)

theorem State.barked.hwdogAxes {b : State} (h : b.barked s) : b.barked s.hwdogAxes := by
  have each (c : CycSt) : b.barked (forFin 8 (fun n s => if s.gBit DEV_WDOG_CFG_AXMASK n then s.hwdogAxis n else s) { s with cyc := c }) := by
    refine forFin_ind (fun t => b.barked t) 8 _ (fun n x hx => ?_) _ ⟨h.quelled.upd, h.event⟩
    split
    · exact hx.hwdogAxis _ _
    · exact hx
  unfold State.hwdogAxes State.gathered
  split
  · exact each s.cyc
  · exact (each _).of_graver _ (State.flushEnds_quell _) (State.flushEnds_graver _ .refl)

/-! ## HOST_WATCHDOG_EXPIRY (R131) -/

section
variable {s} {dt : Nat}

/-- The host watchdog has expired: `HOST_TO` ms in RUN without a frame. -/
def State.hostLate (s : State) : Prop := s.dev = .run ∧ s.g DEV_WDOG_CFG_HOST_TO ≠ 0 ∧ s.gb DEV_WDOG_CFG_EXPIRED = false ∧
  s.boot.hostAt + 400000 * s.g DEV_WDOG_CFG_HOST_TO ≤ s.now

/-- The expiry told: its bit and its event. -/
def State.hostTold (s : State) : State := (s.put DEV_WDOG_CFG_EXPIRED 1).pulse 3 2 0

theorem exec_hostWatchdogExpiry : exec (.hostWatchdogExpiry dt) s =
    done (if (s.tickTo dt).dev == .run && decide ((s.tickTo dt).g DEV_WDOG_CFG_HOST_TO ≠ 0) && !(s.tickTo dt).gb DEV_WDOG_CFG_EXPIRED &&
        decide ((s.tickTo dt).now - (s.tickTo dt).boot.hostAt ≥ msCyc ((s.tickTo dt).g DEV_WDOG_CFG_HOST_TO)) then
      if !(s.tickTo dt).hostTold.gb DEV_WDOG_CFG_HOST_ACT then (s.tickTo dt).hostTold.safeCause scHWDOG else (s.tickTo dt).hostTold.hwdogAxes
    else s.tickTo dt) := rfl

theorem State.hostLate_iff (u : State) : (u.dev == .run && decide (u.g DEV_WDOG_CFG_HOST_TO ≠ 0) && !u.gb DEV_WDOG_CFG_EXPIRED &&
    decide (u.now - u.boot.hostAt ≥ msCyc (u.g DEV_WDOG_CFG_HOST_TO))) = true ↔ u.hostLate := by
  unfold State.hostLate msCyc
  simp only [Bool.and_eq_true, beq_iff_eq, decide_eq_true_eq, Bool.not_eq_true', and_assoc]
  have late (k : Nat) (set : k ≠ 0) : u.now - u.boot.hostAt ≥ k * 400000 ↔ u.boot.hostAt + 400000 * k ≤ u.now := by omega
  exact ⟨fun ⟨run, set, shown, time⟩ => ⟨run, set, shown, (late _ set).1 time⟩, fun ⟨run, set, shown, time⟩ => ⟨run, set, shown, (late _ set).2 time⟩⟩

theorem State.hostTold_word (u : State) (a : Nat) (ev : evWord a = false) : u.hostTold.word a = (u.put DEV_WDOG_CFG_EXPIRED 1).word a :=
  (State.pulse_step _ 3 2 0 (by decide)).word a ev

theorem State.hostTold_barked (u : State) : u.barked u.hostTold :=
  ⟨(State.quelled.refl.put _ _ (.inl (by decide))).step (State.pulse_step _ 3 2 0 (by decide)), State.pulse_raises _ 3 2 0 (by decide)⟩

theorem State.barked.settle {b t : State} (h : b.barked t) : b.barked t.settle := h.of_graver _ .settle (State.graver.refl.settle)

/-- The scene of an axis as the expiry is told. -/
theorem State.hostTold_scene (u : State) (k : Fin 8) :
    u.hostTold.scene k = (u.dev, (u.put DEV_WDOG_CFG_EXPIRED 1).word 0x14, u.g (AX_FAULT_BITS k), u.axes[k].bearing) := by
  have other : (AX_FAULT_BITS k).a ≠ 0x14 := by simp; omega
  unfold State.hostTold
  rw [State.step_scene _ k (State.pulse_step _ 3 2 0 (by decide))]
  unfold State.scene
  rw [State.put_g_ne _ _ _ _ fun e => other e.symm, State.put_dev, State.put_axes]

end

end Sys2Proof.Machine
end

section
/-!
PROOF. The three watchdogs (O23).
-/

namespace Sys2Proof.Machine

open Host

theorem AxState.pace_fault (a : AxState) : a.pace = .fault ↔ a = .fault := by
  cases a <;> decide

/-- What becomes of one axis in the loop, read from its scene. -/
theorem hwdogScene_verdict {u t : State} {w : Word} (k : Fin 8) (h : t.scene k = hwdogScene k (u.dev, w, u.g (AX_FAULT_BITS k), u.axes[k].bearing))
    (mask : bit (fieldIn w DEV_WDOG_CFG_AXMASK) k = u.gBit DEV_WDOG_CFG_AXMASK k) :
    (t.dev = u.dev ∧ t.word 0x14 = w) ∧
      (u.gBit DEV_WDOG_CFG_AXMASK k = true → u.slowing k = true → t.axes[k].hwdog = true ∨ t.axes[k].st = .fault) ∧
      if u.gBit DEV_WDOG_CFG_AXMASK k = true ∧ (u.axes[k].st = .hold ∨ u.axes[k].st = .fault) then
        t.axes[k].st = .fault ∧ t.g (AX_FAULT_BITS k) = u.g (AX_FAULT_BITS k) ||| afHWDOG
      else t.g (AX_FAULT_BITS k) = u.g (AX_FAULT_BITS k) := by
  have read {x : DevState × Word × Nat × AxState × Bool} (e : t.scene k = x) :
      (t.dev = x.1 ∧ t.word 0x14 = x.2.1) ∧ t.g (AX_FAULT_BITS k) = x.2.2.1 ∧ t.axes[k].bearing = x.2.2.2 := by
    subst e
    exact ⟨⟨rfl, rfl⟩, rfl, rfl⟩
  by_cases named : u.gBit DEV_WDOG_CFG_AXMASK k = true
  · have named' := mask.trans named
    by_cases rests : u.axes[k].st = .hold ∨ u.axes[k].st = .fault
    · have pace : u.axes[k].st.pace = .hold ∨ u.axes[k].st.pace = .fault := rests.imp (fun e => by rw [e]; rfl) fun e => by rw [e]; rfl
      obtain ⟨kept, causes, bearing⟩ := read (h.trans (hwdogScene_rest named' pace))
      have fault : t.axes[k].st = .fault := (AxState.pace_fault _).1 (congrArg Prod.fst bearing)
      have fits : u.g (AX_FAULT_BITS k) ||| afHWDOG < 2 ^ 7 := Nat.or_lt_two_pow (u.g_lt _) (by decide)
      rw [if_pos ⟨named, rests⟩]
      exact ⟨kept, fun _ _ => .inr fault, fault, causes.trans (Nat.mod_eq_of_lt fits)⟩
    · rw [if_neg fun e => rests e.2]
      by_cases slow : u.axes[k].st.pace = .quiescing
      · obtain ⟨kept, causes, bearing⟩ := read (h.trans (hwdogScene_slow named' slow))
        have doomed : (t.axes[k].hwdog || t.axes[k].st == .fault) = true := congrArg Prod.snd bearing
        rw [Bool.or_eq_true, beq_iff_eq] at doomed
        exact ⟨kept, fun _ _ => doomed, causes⟩
      · have still : u.axes[k].st.pace = .off ∨ u.axes[k].st.pace = .idle := by
          revert rests slow
          cases u.axes[k].st <;> decide
        obtain ⟨kept, causes, -⟩ := read (h.trans (hwdogScene_off named' still))
        refine ⟨kept, fun _ moves => absurd ((AxState.pace_quiescing _).2 moves) slow, causes⟩
  · obtain ⟨kept, causes, -⟩ := read (h.trans (if_neg fun e => named (mask.symm.trans e)))
    rw [if_neg fun e => named e.1]
    exact ⟨kept, fun e => absurd e named, causes⟩

/-- A SAFE cause is set outside RESET and OPTION_LOAD. -/
theorem State.safeCause_set (u : State) {i : Nat} (h : i < 7) (reset : u.dev ≠ .reset) (load : u.dev ≠ .optionLoad) : (u.safeCause i).gBit DEV_STATE_SAFE_CAUSE i = true := by
  have set : (u.putBit DEV_STATE_SAFE_CAUSE i true).gBit DEV_STATE_SAFE_CAUSE i = true :=
    (u.putBit_gBit _ _ _ _ (by decide) h).trans (if_pos rfl)
  unfold State.safeCause
  cases d : u.dev with
  | ready | run => exact (State.enterSafe_graver _ State.graver.refl).cause i set
  | safe | boot | configLoad | recovery => exact set
  | reset => exact absurd d reset
  | optionLoad => exact absurd d load

section
variable {s : State} {dt : Nat}

theorem hostWatchdog_expires :
    let u := s.tickTo dt
    u.dev = .run → u.g DEV_WDOG_CFG_HOST_TO ≠ 0 → u.gb DEV_WDOG_CFG_EXPIRED = false →
    u.boot.hostAt + 400000 * u.g DEV_WDOG_CFG_HOST_TO ≤ u.now →
    ∃ t, Machine.exec (.hostWatchdogExpiry dt) s = .next t ∧
      (u.quelled t [0x14] ∧ t.word 0x14 = (u.put DEV_WDOG_CFG_EXPIRED 1).word 0x14 ∧ t.evPending 3 = true ∧
      if u.gb DEV_WDOG_CFG_HOST_ACT then
        t.dev = .run ∧ ∀ n : Fin 8,
          (u.gBit DEV_WDOG_CFG_AXMASK n = true → u.slowing n = true → t.axes[n].hwdog = true ∨ t.axes[n].st = .fault) ∧
          if u.gBit DEV_WDOG_CFG_AXMASK n = true ∧ (u.axes[n].st = .hold ∨ u.axes[n].st = .fault) then
            t.axes[n].st = .fault ∧ t.g (AX_FAULT_BITS n) = u.g (AX_FAULT_BITS n) ||| afHWDOG
          else t.g (AX_FAULT_BITS n) = u.g (AX_FAULT_BITS n)
      else t.dev = .safe ∧ t.gBit DEV_STATE_SAFE_CAUSE 6 = true) := by
  intro u run set shown late
  have read (f : Fld) (a : f.a = 0x14) (apart : DEV_WDOG_CFG_EXPIRED.lo + DEV_WDOG_CFG_EXPIRED.w ≤ f.lo ∨ f.lo + f.w ≤ DEV_WDOG_CFG_EXPIRED.lo) :
      (u.put DEV_WDOG_CFG_EXPIRED 1).g f = u.g f := State.put_g_disj _ _ _ _ (by decide) (.inr apart)
  have told := u.hostTold_barked
  have act : u.hostTold.gb DEV_WDOG_CFG_HOST_ACT = u.gb DEV_WDOG_CFG_HOST_ACT :=
    congrArg (· != 0) ((State.word_eq_of_g _ _ _ (u.hostTold_word 0x14 rfl)).trans (read DEV_WDOG_CFG_HOST_ACT rfl (by decide)))
  have dev : u.hostTold.dev = .run := ((State.pulse_step _ 3 2 0 (by decide)).dev).trans run
  have expired := exec_hostWatchdogExpiry.trans (congrArg done (if_pos ((State.hostLate_iff u).2 ⟨run, set, shown, late⟩)))
  cases mode : u.gb DEV_WDOG_CFG_HOST_ACT with
  | false =>
    have outcome := expired.trans (congrArg done (if_pos (by rw [act, mode]; rfl)))
    have barked := (told.of_graver _ (State.safeCause_quell _ scHWDOG) (State.safeCause_graver _ scHWDOG .refl)).settle
    have word : (u.hostTold.safeCause scHWDOG).settle.word 0x14 = (u.put DEV_WDOG_CFG_EXPIRED 1).word 0x14 :=
      ((State.safeCause_quell (A := []) _ scHWDOG .refl).settle.words 0x14 (by decide) (by decide)).trans (u.hostTold_word 0x14 rfl)
    refine exec_next outcome ⟨barked.quelled, word, barked.event, ?_⟩
    rw [if_neg (by decide), State.settle_dev]
    exact ⟨u.hostTold.safeCause_dev _ (.inl (by rw [dev]; rfl)), (State.graver.refl.settle).cause 6 (u.hostTold.safeCause_set (by decide) (by rw [dev]; decide) (by rw [dev]; decide))⟩
  | true =>
    have outcome := expired.trans (congrArg done (if_neg (by rw [act, mode]; decide)))
    have barked := (told.hwdogAxes _).settle
    have verdict (k : Fin 8) := hwdogScene_verdict k
      (((State.step_scene _ k (State.settle_step _)).trans (u.hostTold.hwdogAxes_scene k)).trans (congrArg (hwdogScene k) (u.hostTold_scene k)))
      (congrArg (fun x => bit x k) (read DEV_WDOG_CFG_AXMASK rfl (by decide)))
    refine exec_next outcome ⟨barked.quelled, (verdict 0).1.2, barked.event, ?_⟩
    rw [if_pos rfl]
    exact ⟨(verdict 0).1.1.trans run, fun n => (verdict n).2⟩

theorem hostWatchdog_waits :
    let u := s.tickTo dt
    (u.dev ≠ .run ∨ u.g DEV_WDOG_CFG_HOST_TO = 0 ∨ u.gb DEV_WDOG_CFG_EXPIRED = true ∨
      u.now < u.boot.hostAt + 400000 * u.g DEV_WDOG_CFG_HOST_TO) →
    ∃ t, Machine.exec (.hostWatchdogExpiry dt) s = .next t ∧ u.sameBut t [] := by
  intro u early
  refine exec_same (exec_hostWatchdogExpiry.trans (congrArg done (if_neg fun h => ?_)))
  obtain ⟨run, set, shown, late⟩ := (State.hostLate_iff u).1 h
  rcases early with e | e | e | e
  · exact e run
  · exact set e
  · rw [shown] at e
    cases e
  · exact absurd late (Nat.not_le.2 e)

/-! ## SURVEYOR_WATCHDOG_EXPIRY (R130) -/

theorem exec_surveyorWatchdogExpiry : exec (.surveyorWatchdogExpiry dt) s =
    done (if (s.tickTo dt).boot.fwRunning && (s.tickTo dt).surveyorUp then (((s.tickTo dt).pulse 3 1 0).safeCause scSWDOG).halt.mwStop
      else s.tickTo dt) := rfl

theorem surveyorWatchdog_expires :
    let u := s.tickTo dt
    u.boot.fwRunning = true → u.surveyorUp = true →
    ∃ t, Machine.exec (.surveyorWatchdogExpiry dt) s = .next t ∧
      u.quelled t [] ∧ t.gb MG_SV_STAT_HALTED = true ∧ t.gBit DEV_STATE_SAFE_CAUSE 5 = true ∧ t.evPending 3 = true ∧
      t.dev = (if u.dev = .ready ∨ u.dev = .run then .safe else u.dev) := by
  intro u running up
  have answers : u.answers = true := by
    unfold State.surveyorUp State.surveyorRuns at up
    simp only [Bool.and_eq_true] at up
    exact up.1.1
  have out : u.dev ≠ .reset ∧ u.dev ≠ .optionLoad := by
    unfold State.answers at answers
    simp only [Bool.and_eq_true, bne_iff_ne] at answers
    exact answers.1
  have same : (u.pulse 3 1 0).dev = u.dev := (State.pulse_step _ 3 1 0 (by decide)).dev
  have rises (x : State) : x.graver x.halt.mwStop.settle := (State.mwStop_graver _ (State.halt_graver _ .refl)).settle
  have stands (x : State) : x.halt.mwStop.dev = x.dev := by
    have halted : x.halt.dev = x.dev := by
      unfold State.halt
      split <;> rfl
    have stopped := (State.alike.refl.mwStop (A := mwWords) (by decide) fun n => List.mem_append_right _ (mwWords_hold n) :
      x.halt.alike x.halt.mwStop mwWords .book)
    have kept := congrArg (fun y : State => y.dev) stopped.bare
    exact kept.trans halted
  refine exec_next (exec_surveyorWatchdogExpiry.trans (congrArg done (if_pos (by rw [running, up]; rfl)))) ⟨?_, ?_, ?_, ?_, ?_⟩
  · exact (State.mwStop_quell _ (State.halt_quell _ (State.safeCause_quell _ _ (State.pulse_quell _ 3 1 0 (by decide) .refl)))).settle
  · rw [State.settle_gb _ _ (by decide)]
    exact (congrArg (· != 0) (State.mwStop_halted _)).trans (State.halt_halted _)
  · exact (rises _).cause 5 (State.safeCause_set _ (by decide) (by rw [same]; exact out.1) (by rw [same]; exact out.2))
  · exact (rises _).pend 3 (by decide) ((State.safeCause_graver _ _ .refl).pend 3 (by decide) (State.pulse_raises _ 3 1 0 (by decide)))
  · rw [State.settle_dev, stands]
    split
    · next active => exact State.safeCause_dev _ _ (.inl (by rw [same]; rcases active with e | e <;> rw [e] <;> rfl))
    · next passive =>
      rw [← same] at passive ⊢
      unfold State.safeCause
      cases d : (u.pulse 3 1 0).dev with
      | ready => exact absurd (.inl d) passive
      | run => exact absurd (.inr d) passive
      | safe | boot | configLoad | recovery | reset | optionLoad => exact d

theorem surveyorWatchdog_waits :
    let u := s.tickTo dt
    (u.boot.fwRunning = false ∨ u.surveyorUp = false) → ∃ t, Machine.exec (.surveyorWatchdogExpiry dt) s = .next t ∧ u.sameBut t [] := by
  intro u idle
  refine exec_same (exec_surveyorWatchdogExpiry.trans (congrArg done (if_neg fun h => ?_)))
  obtain ⟨running, up⟩ := Bool.and_eq_true_iff.1 h
  rcases idle with e | e
  · exact Bool.false_ne_true (e.symm.trans running)
  · exact Bool.false_ne_true (e.symm.trans up)

/-! ## BOOT_WATCHDOG_EXPIRY (R127) -/

theorem exec_bootWatchdogExpiry : exec (.bootWatchdogExpiry dt) s =
    done (if (s.tickTo dt).boot.wdOn && ((s.tickTo dt).dev == .boot || (s.tickTo dt).dev == .configLoad || (s.tickTo dt).dev == .ready) &&
        decide ((s.tickTo dt).now - (s.tickTo dt).boot.wdAt ≥ msCyc 2000) then ((s.tickTo dt).pulse 3 0 0).enterRecovery 4
      else s.tickTo dt) := rfl

/-- The words of a station's conversions and calibration hold no event. -/
theorem surveyWord_graver : ∀ x : Fin 2, State.graverFld (ST_SV_STAT_BUSY x) = true ∧ State.graverFld (ST_CAL_STAT_BUSY x) = true := by decide

theorem State.surveyStop_graver (u : State) : u.graver u.surveyStop := by
  refine .forFin (fun x y hy => ?_) .refl
  obtain ⟨stat, cal⟩ := surveyWord_graver x
  have dropped : u.graver (y.svCalDrop x) := by
    unfold State.svCalDrop
    exact State.svu_graver _ _ _ ((hy.put (ST_CAL_STAT_STATE x) 0 cal).put (ST_CAL_STAT_BUSY x) 0 cal)
  have still := ((dropped.put (ST_SV_STAT_BUSY x) 0 stat).put (ST_SV_STAT_INJ_BUSY x) 0 stat).put (ST_SV_STAT_PWRDN x) 0 stat
  exact State.svu_graver _ _ _ ((still.put (ST_SV_STAT_TRG_PEND x) 0 stat).put (ST_SV_STAT_ITRG_PEND x) 0 stat)

/-- An entry to RECOVERY takes no pending event back. -/
theorem State.enterRecovery_pend (u : State) (cause : Nat) {e : Nat} (h : e < 64) (pending : u.evPending e = true) :
    (u.enterRecovery cause).evPending e = true := by
  have stopped : u.graver u.recoveryStop := by
    unfold State.recoveryStop
    exact State.bt_graver _ _ (State.graver.upd (State.flDown_graver _ u.surveyStop_graver))
  have waited : (u.recoveryStop.put DEV_STATE_WAIT_FL 0).evPending e = true := (State.evPending_put_other _ _ _ _ (by simp; omega)).trans (stopped.pend e h pending)
  refine State.graver.pend (s := u.recoveryStop.put DEV_STATE_WAIT_FL 0) ?_ e h waited
  have low := State.v5Follow_graver _ (State.dumpOff_graver _ (State.levelOff_graver (u.recoveryStop.put DEV_STATE_WAIT_FL 0) 1 0 0 .refl))
  exact State.fbAdd_graver _ _ _ ((((low.put DEV_BOOTSTAT_REC_CAUSE cause (by decide)).put MG_SV_STAT_HALTED 0 (by decide)).put
    MG_SV_STAT_FW 0 (by decide)).setWord 0x3 0 (by decide))

theorem bootWatchdog_expires :
    let u := s.tickTo dt
    u.boot.wdOn = true → (u.dev = .boot ∨ u.dev = .configLoad ∨ u.dev = .ready) → u.boot.wdAt + 800000000 ≤ u.now →
    ∃ t, Machine.exec (.bootWatchdogExpiry dt) s = .next t ∧ u.recovers t 4 [] ∧ t.evPending 3 = true := by
  intro u on at_ late
  have here : (u.dev == .boot || u.dev == .configLoad || u.dev == .ready) = true := by
    rcases at_ with e | e | e <;> rw [e] <;> rfl
  have time : decide (u.now - u.boot.wdAt ≥ msCyc 2000) = true := decide_eq_true (Nat.le_sub_of_add_le' late)
  have told : u.alike (u.pulse 3 0 0) [] := State.alike.refl.step (State.pulse_step _ 3 0 0 (by decide))
  refine exec_next (exec_bootWatchdogExpiry.trans (congrArg done (if_pos (by rw [on, here, time]; rfl)))) ⟨.of_enter told.inRecovery (by decide), ?_⟩
  exact (State.graver.refl.settle).pend 3 (by decide) (State.enterRecovery_pend _ _ (by decide) (State.pulse_raises _ 3 0 0 (by decide)))

theorem bootWatchdog_waits :
    let u := s.tickTo dt
    (u.boot.wdOn = false ∨ (u.dev ≠ .boot ∧ u.dev ≠ .configLoad ∧ u.dev ≠ .ready) ∨ u.now < u.boot.wdAt + 800000000) →
    ∃ t, Machine.exec (.bootWatchdogExpiry dt) s = .next t ∧ u.sameBut t [] := by
  intro u idle
  refine exec_same (exec_bootWatchdogExpiry.trans (congrArg done (if_neg fun h => ?_)))
  simp only [Bool.and_eq_true, Bool.or_eq_true, beq_iff_eq, decide_eq_true_eq] at h
  obtain ⟨⟨on, at_⟩, late⟩ := h
  rcases idle with e | ⟨boot, load, ready⟩ | e
  · exact Bool.false_ne_true (e.symm.trans on)
  · rcases at_ with (e | e) | e
    exacts [boot e, load e, ready e]
  · exact absurd (Nat.add_le_of_le_sub' (Nat.le_of_lt (Nat.lt_of_sub_pos (Nat.lt_of_lt_of_le (by decide) late))) late) (Nat.not_le.2 e)

end

/-- Settles O23, watchdog by watchdog. -/
theorem watchdogs : Obligations.Watchdogs :=
  ⟨fun _ _ => bootWatchdog_expires, fun _ _ => bootWatchdog_waits, fun _ _ => surveyorWatchdog_expires, fun _ _ => surveyorWatchdog_waits,
    fun _ _ => hostWatchdog_expires, fun _ _ => hostWatchdog_waits⟩

end Sys2Proof.Machine
end

section
/-!
PROOF. The start of the boot ROM, and the entry to BOOT (R108, R126, R454).
-/

namespace Sys2Proof.Machine

open Host

variable {s t : State} {A : List Nat} {scope : Scope}

/-! ## The start of the boot ROM (R108, R126, R454) -/

/-- The words of slots and images follow their stores: a run of writes to them. -/
theorem State.slotStat_ind {P : State → Prop} (each : ∀ x f v, (∃ k < 16, f.a = 0x1000210 + k) → P x → P (x.put f v)) (h : P t) : P t.slotStat := by
  have image (x : State) (k : Nat) (low : k < 2) (hx : P x) (seq : Nat) (p r : Bool) :
      P (((x.put (MG_UPD_IMG_SEQ k) seq).putBit MG_UPD_IMGST_PRESENT k p).putBit MG_UPD_IMGST_REVOKED k r) :=
    each _ _ _ ⟨10, by omega, rfl⟩ (each _ _ _ ⟨10, by omega, rfl⟩ (each _ _ _ ⟨8 + k, by omega, Nat.add_assoc 0x1000210 8 k⟩ hx))
  unfold State.slotStat
  dsimp only
  refine forFin_ind P 2 _ (fun x y hy => ?_) _ (each _ _ _ ⟨10, by omega, rfl⟩ (each _ _ _ ⟨10, by omega, rfl⟩
    (image _ 1 (by omega) (image _ 0 (by omega) h _ _ _) _ _ _)))
  have low : x.val < 16 := by omega
  exact each _ _ _ ⟨x, low, rfl⟩ (each _ _ _ ⟨2 + x, by omega, Nat.add_assoc 0x1000210 2 x⟩ (each _ _ _ ⟨x, low, rfl⟩ (each _ _ _ ⟨x, low, rfl⟩ hy)))

theorem State.alike.slotStat (h : s.alike t A scope) (mem : ∀ k < 16, 0x1000210 + k ∈ A) : s.alike t.slotStat A scope :=
  State.slotStat_ind (P := fun x => s.alike x A scope) (fun _ f v ⟨k, low, e⟩ hx => hx.put f v (e ▸ mem k low)) h

theorem State.sameBut.slotStat (h : s.sameBut t A) (mem : ∀ k < 16, 0x1000210 + k ∈ A) : s.sameBut t.slotStat A :=
  State.slotStat_ind (P := fun x => s.sameBut x A) (fun _ f v ⟨k, low, e⟩ hx => hx.put f v (e ▸ mem k low)) h

/-- The words of the seals follow the OTP. -/
theorem State.alike.sealStat (h : s.alike t A scope) (slot : ∀ k < 8, 0x1000110 + k ∈ A) (cur : ∀ k < 64, 0x1000140 + k ∈ A) :
    s.alike t.sealStat A scope := by
  refine .foldl (fun x k mem hx => ?_) h
  have low := List.mem_range.1 mem
  refine .foldl (fun y w mem' hy => ?_) (((hx.put (MG_SEAL_SLOT_REMAIN k) _ (slot k low)).put (MG_SEAL_SLOT_INFORCE k) _ (slot k low)).put
    (MG_SEAL_SLOT_NONE k) _ (slot k low))
  have low' := List.mem_range.1 mem'
  refine hy.put (MG_SEAL_CUR_CUR k w) _ ?_
  have := cur (8 * k + w) (by omega)
  rwa [← Nat.add_assoc] at this

/-- The words that the boot ROM sets from the stores: those of `bootWords` but for DEV_BOOTSTAT and the chain mode. -/
def storeWords : List Nat :=
  [0x3, 0x1000005, 0x1000010, 0x1000011, 0x1000012] ++ (List.range 8).map (0x1000110 + ·) ++
    (List.range 64).map (0x1000140 + ·) ++ (List.range 16).map (0x1000210 + ·) ++ (List.range 32).map (0x1000340 + ·)

theorem storeWords_of_slot : ∀ k < 16, 0x1000210 + k ∈ storeWords := by decide
theorem storeWords_of_seal : ∀ k < 8, 0x1000110 + k ∈ storeWords := by decide
theorem storeWords_of_value : ∀ k < 64, 0x1000140 + k ∈ storeWords := by decide
theorem storeWords_of_wear : ∀ k < 32, 0x1000340 + k ∈ storeWords := by decide
theorem bootWords_of_store (a : Nat) (h : a ∈ storeWords) : a ∈ bootWords := by
  have first : ∀ x ∈ [0x3, 0x1000005, 0x1000010, 0x1000011, 0x1000012],
      x ∈ [0x3, 0x12, LNK_SPI_STAT_MODE_ACT.a, 0x1000005, 0x1000010, 0x1000011, 0x1000012] := by decide
  unfold storeWords at h
  unfold bootWords
  simp only [List.mem_append] at h ⊢
  exact h.imp_left (Or.imp_left (Or.imp_left (Or.imp_left (first a))))

/-- The boot ROM runs: management SRAM is initialised, no firmware runs, no failed option record waits. -/
def State.romStarted (s : State) : State :=
  { s with
    boot := { s.boot with fwRunning := false, optBad := none }
    ecc := vupd s.ecc 1 fun _ => { EccSt.init with slotAt := s.now } }

/-- The words that the boot ROM sets from the stores. -/
def State.romWords (s : State) : State :=
  let s := (s.put MG_SV_STAT_HALTED 0).put MG_SV_STAT_FW 0
  let s := (s.put MG_FB_HEAD_HEAD s.nvm.head).put MG_FB_OLD_OLD s.nvm.oldest
  let s := s.put MG_FB_STAT_TORN (satU 8 s.nvm.torn)
  let s := (List.range 32).foldl (fun s k => s.put (MG_FB_WEAR_ERASES k) (kvGet s.nvm.wear k (0 : Word)).toNat) s
  let s := s.putB MG_FB_STAT_WEAR (s.nvm.wear.any fun e => e.2.toNat ≥ 90000)
  let s := s.su fun v => { v with wearDone := s.gb MG_FB_STAT_WEAR }
  (s.slotStat.sealStat).setWord 0x3 0

theorem State.alike.romWords (h : s.alike t storeWords scope) : s.alike t.romWords storeWords scope := by
  have found := ((((h.put MG_SV_STAT_HALTED 0 (by decide)).put MG_SV_STAT_FW 0 (by decide)).put MG_FB_HEAD_HEAD t.nvm.head (by decide)).put
    MG_FB_OLD_OLD t.nvm.oldest (by decide)).put MG_FB_STAT_TORN (satU 8 t.nvm.torn) (by decide)
  refine .setWord (.sealStat (.slotStat (.su (.put (.foldl (fun x k mem hx => hx.put _ _ (storeWords_of_wear k (List.mem_range.1 mem)))
    found) MG_FB_STAT_WEAR _ (by decide)) _) storeWords_of_slot) storeWords_of_seal storeWords_of_value) 0x3 0 (by decide)

theorem State.surveyorBoot_alike (s : State) : s.romStarted.alike s.surveyorBoot storeWords scope :=
  State.alike.bt (s := s.mm .mgmt fun _ => { EccSt.init with slotAt := s.now }) (.romWords .refl) fun b => { b with fwRunning := false, optBad := none }

/-- The start of the boot ROM in BOOT, with the record of a failed option record. -/
def State.bootStarted (s : State) : State :=
  let s1 := { s with dev := .boot }.surveyorBoot
  let s2 := s1.putB LNK_SPI_STAT_MODE_ACT (s1.gb LNK_SPI_STAT_MODE_ACT || s1.g LNK_SPI_CFG_CHAIN_PERM = 2)
  match s.boot.optBad with
  | some k => s2.fbAdd 0x04 [k]
  | none => s2

/-- The count that a start finds (R126). -/
def State.startCount (s : State) (porCause : Bool) : Nat :=
  if porCause && s.boot.opts.retryPor && s.nvm.failcnt == 3 then 2 else s.nvm.failcnt

/-- The device in BOOT with the count that the start found. -/
def State.bootCounted (s : State) (k : Nat) : State := s.bt fun b => { b with failRead := k, porCause := false, stage := 0 }

theorem State.bootStarted_alike (s : State) : ({ s with dev := .boot }).romStarted.alike s.bootStarted bootWords scope := by
  have started := (({ s with dev := .boot } : State).surveyorBoot_alike (scope := scope)).mono bootWords_of_store |>.put LNK_SPI_STAT_MODE_ACT
    (b2n (({ s with dev := .boot } : State).surveyorBoot.gb LNK_SPI_STAT_MODE_ACT ||
      ({ s with dev := .boot } : State).surveyorBoot.g LNK_SPI_CFG_CHAIN_PERM = 2)) (by decide)
  unfold State.bootStarted
  split
  · exact started.fbAdd (by decide) _ _
  · exact started

theorem State.enterBoot_eq (s : State) : s.enterBoot =
    if s.startCount s.boot.porCause ≥ 3 then ((s.bootStarted.bootCounted (s.startCount s.boot.porCause)).put DEV_BOOTSTAT_FAILCNT 3).enterRecovery 1
    else (s.bootStarted.bootCounted (s.startCount s.boot.porCause)).setFail (s.startCount s.boot.porCause + 1) := by
  have bare := (s.bootStarted_alike (scope := .all)).bare
  have boot : s.bootStarted.boot = { s.boot with fwRunning := false, optBad := none } := congrArg (·.boot) bare
  have nvm : s.bootStarted.nvm = s.nvm := congrArg (·.nvm) bare
  have count : (if (s.bootStarted.boot.porCause && s.bootStarted.boot.opts.retryPor && s.bootStarted.nvm.failcnt = 3) = true then 2
      else s.bootStarted.nvm.failcnt) = s.startCount s.boot.porCause := by
    rw [boot, nvm]
    rfl
  rw [← count]
  rfl

/-- The count written to the NVM and to its register, with its pulse (R126). -/
theorem State.setFail_eq (s : State) (k : Nat) : s.setFail k =
    ((s.nv fun m => { m with failcnt := k }).put DEV_BOOTSTAT_FAILCNT k).bt fun b => { b with pulseEnd := s.now + usCyc 20 } := rfl

theorem State.setFail_count (s : State) {k : Nat} (h : k < 4) : (s.setFail k).g DEV_BOOTSTAT_FAILCNT = k := by
  rw [State.setFail_eq, State.bt_g, State.put_g_same _ _ _ (by decide)]
  exact Nat.mod_eq_of_lt h

theorem State.setFail_surv (s : State) (k : Nat) : (s.setFail k).surv = s.surv := by
  rw [State.setFail_eq, State.bt_surv, State.put_surv, State.nv_surv]

theorem State.enterRecovery_count (s : State) (cause : Nat) : (s.enterRecovery cause).g DEV_BOOTSTAT_FAILCNT = s.g DEV_BOOTSTAT_FAILCNT := by
  rw [State.enterRecovery_g _ _ _ rfl, State.put_g_disj _ _ _ _ (by decide) (by decide)]

/-- What `boots` says, by the count that the start found. -/
theorem State.boots_iff {porCause : Bool} {k : Nat} (found : s.startCount porCause = k) : s.boots t porCause ↔
    if k < 3 then
      ({ s.romStarted.bootCounted k with
        dev := .boot, nvm := { s.nvm with failcnt := k + 1 }, surv := t.surv
        boot := { (s.romStarted.bootCounted k).boot with pulseEnd := s.now + usCyc 20 } }).sameBut t bootWords ∧ t.g DEV_BOOTSTAT_FAILCNT = k + 1
    else (s.romStarted.bootCounted k).recovers t 1 bootWords ∧ t.g DEV_BOOTSTAT_FAILCNT = 3 := by
  subst found
  exact Iff.rfl

/-- The entry to BOOT is as `boots` says it (R126). -/
theorem State.enterBoot_boots (s : State) : s.boots s.enterBoot.settle s.boot.porCause := by
  have counted {scope : Scope} (k : Nat) : (({ s with dev := .boot } : State).romStarted.bootCounted k).alike (s.bootStarted.bootCounted k) bootWords scope :=
    s.bootStarted_alike.bt _
  rw [State.boots_iff rfl, s.enterBoot_eq]
  generalize s.startCount s.boot.porCause = k
  by_cases few : k < 3
  · rw [if_pos few, if_neg (Nat.not_le.2 few)]
    have frame := (counted k).sameBut_surv
    have now : (s.bootStarted.bootCounted k).now = s.now := (counted (scope := .all) k).now
    refine ⟨?_, ?_⟩
    · rw [State.settle_surv, State.setFail_surv, State.setFail_eq, now]
      exact (((frame.nv fun m => { m with failcnt := k + 1 }).put DEV_BOOTSTAT_FAILCNT (k + 1) (by decide)).bt
        fun b => { b with pulseEnd := s.now + usCyc 20 }).settle
    · rw [State.settle_g _ _ (by decide), State.setFail_count _ (Nat.succ_lt_succ few)]
  · rw [if_neg few, if_pos (Nat.not_lt.1 few)]
    have entered : (({ s with dev := .boot } : State).romStarted.bootCounted k).inRecovery.alike
        ((s.bootStarted.bootCounted k).put DEV_BOOTSTAT_FAILCNT 3).inRecovery bootWords :=
      ((counted k).put DEV_BOOTSTAT_FAILCNT 3 (by decide)).inRecovery
    refine ⟨State.recovers.of_enter entered (by decide), ?_⟩
    rw [State.settle_g _ _ (by decide), State.enterRecovery_count, State.put_g_same _ _ _ (by decide)]
    rfl

end Sys2Proof.Machine
end

section
/-!
PROOF. Option load, the entry to BOOT, and the failure of the clock (O19).
-/

namespace Sys2Proof.Machine

open Host

variable {s t u : State} {A : List Nat} {dt : Nat}

/-! ## OPTION_COMMIT (R118, R119) -/

/-- The words that the options set. -/
def optWords : List Nat := [0x1, 0x2, 0x12, 0x40, 0x50, 0x141, 0x142, 0x150]

theorem State.sameBut.optRegs (h : s.sameBut t optWords) (o : Opts) : s.sameBut (t.optRegs o) optWords := by
  have named := (((h.put DEV_REV_REV o.rev (by decide)).put DEV_REV_GRADE o.grade (by decide)).put DEV_SERIAL_SERIAL o.serial (by decide)).put
    DEV_BOOTSTAT_OPT_DEFAULT (b2n o.dflt) (by decide)
  have linked := ((named.put LNK_GR_CFG_NODE o.node (by decide)).put LNK_GR_CFG_AUTH (b2n o.authKey.isSome) (by decide)).put
    LNK_SPI_CFG_CHAIN_PERM o.chainPerm (by decide)
  exact ((linked.put PWR_GOV_CFG_BUDGET _ (by decide)).put PWR_VM_AUX_OV_LIM o.ovLim (by decide)).put PWR_VM_CFG_DUMP_ON _ (by decide)

/-- The registers that show the options. -/
theorem State.optRegs_shows (u : State) (o : Opts) :
    (u.optRegs o).g DEV_SERIAL_SERIAL = o.serial % 2 ^ 32 ∧ (u.optRegs o).g DEV_REV_GRADE = o.grade % 2 ^ DEV_REV_GRADE.w ∧
      (u.optRegs o).gb DEV_BOOTSTAT_OPT_DEFAULT = o.dflt ∧ (u.optRegs o).g LNK_SPI_CFG_CHAIN_PERM = o.chainPerm % 2 ^ LNK_SPI_CFG_CHAIN_PERM.w ∧
      (u.optRegs o).gb LNK_GR_CFG_AUTH = o.authKey.isSome ∧ (u.optRegs o).g PWR_GOV_CFG_BUDGET = if o.grade = 1 then 16000 else 24000 := by
  have last (x : State) (mv : Nat) (f : Fld) (h : f.a ≠ 0x141 ∧ f.a ≠ 0x142) : (x.ovForce mv).g f = x.g f := by
    unfold State.ovForce
    dsimp only
    rw [State.put_g_ne _ _ _ _ fun e => h.1 e.symm, State.put_g_ne _ _ _ _ fun e => h.2 e.symm]
  have far (x : State) (k f : Fld) (v : Nat) (h : k.a ≠ f.a) : (x.put k v).g f = x.g f := x.put_g_ne _ _ _ h
  have bit (x : State) (k f : Fld) (b : Bool) (h : k.a ≠ f.a) : (x.putB k b).g f = x.g f := x.put_g_ne _ _ _ h
  have word (x : State) (k f : Fld) (b : Bool) (h : k.a ≠ f.a) : (x.putB k b).gb f = x.gb f := congrArg (· != 0) (x.put_g_ne _ _ _ h)
  have word' (x : State) (k f : Fld) (v : Nat) (h : k.a ≠ f.a) : (x.put k v).gb f = x.gb f := congrArg (· != 0) (x.put_g_ne _ _ _ h)
  have last' (x : State) (mv : Nat) (f : Fld) (h : f.a ≠ 0x141 ∧ f.a ≠ 0x142) : (x.ovForce mv).gb f = x.gb f := congrArg (· != 0) (last x mv f h)
  unfold State.optRegs
  dsimp only
  refine ⟨?_, ?_, ?_, ?_, ?_, ?_⟩
  · rw [last _ _ _ (by decide), far _ _ _ _ (by decide), far _ _ _ _ (by decide), bit _ _ _ _ (by decide), far _ _ _ _ (by decide),
      bit _ _ _ _ (by decide), State.put_g_same _ _ _ (by decide)]
    rfl
  · rw [last _ _ _ (by decide), far _ _ _ _ (by decide), far _ _ _ _ (by decide), bit _ _ _ _ (by decide), far _ _ _ _ (by decide),
      bit _ _ _ _ (by decide), far _ _ _ _ (by decide), State.put_g_same _ _ _ (by decide)]
  · rw [last' _ _ _ (by decide), word' _ _ _ _ (by decide), word' _ _ _ _ (by decide), word _ _ _ _ (by decide), word' _ _ _ _ (by decide),
      State.putB_gb_same _ _ _ (by decide) rfl]
  · rw [last _ _ _ (by decide), far _ _ _ _ (by decide), State.put_g_same _ _ _ (by decide)]
  · rw [last' _ _ _ (by decide), word' _ _ _ _ (by decide), word' _ _ _ _ (by decide), State.putB_gb_same _ _ _ (by decide) rfl]
  · rw [last _ _ _ (by decide), State.put_g_same _ _ _ (by decide)]
    unfold gradeBudget
    by_cases lx : o.grade = 1
    · rw [if_pos lx, if_pos (decide_eq_true lx)]
      rfl
    · rw [if_neg lx, if_neg (by simpa using lx)]
      rfl

/-- The options taken into force. -/
def State.committed (s : State) (o : Opts) (corr : Nat) (bad : Option Nat) : State :=
  ((s.optRegs o).put DEV_BOOTSTAT_OPT_CORR (satU 3 corr)).bt fun b => { b with opts := o, optDone := true, optAt := s.now, optBad := bad }

theorem State.committed_g (u : State) (o : Opts) (corr : Nat) (bad : Option Nat) (f : Fld) :
    (u.committed o corr bad).g f = ((u.optRegs o).put DEV_BOOTSTAT_OPT_CORR (satU 3 corr)).g f := State.bt_g _ _ _

theorem exec_optionCommit (bad : Option (Fin 8)) (corr : BitVec 8) : exec (.optionCommit dt bad corr) s =
    done (if (s.tickTo dt).dev != .optionLoad || (s.tickTo dt).boot.optDone then s.tickTo dt
      else (s.tickTo dt).committed (if bad.isSome then Opts.factory else (s.tickTo dt).otp.opts) corr.toNat (bad.map (·.val))) := rfl

theorem optionCommit_takes (bad : Option (Fin 8)) (corr : BitVec 8) :
    let u := s.tickTo dt
    let o := if bad.isSome then Opts.factory else u.otp.opts
    u.dev = .optionLoad → u.boot.optDone = false →
    ∃ t, Machine.exec (.optionCommit dt bad corr) s = .next t ∧
      ({ u with boot := { u.boot with opts := o, optDone := true, optAt := u.now, optBad := bad.map fun (k : Fin 8) => k.val } }).sameBut t
        [0x1, 0x2, 0x12, 0x40, 0x50, 0x141, 0x142, 0x150] ∧
      t.g DEV_SERIAL_SERIAL = o.serial % 2 ^ 32 ∧ t.g DEV_REV_GRADE = o.grade % 2 ^ DEV_REV_GRADE.w ∧ t.gb DEV_BOOTSTAT_OPT_DEFAULT = o.dflt ∧
      t.g DEV_BOOTSTAT_OPT_CORR = min corr.toNat 7 ∧ t.g LNK_SPI_CFG_CHAIN_PERM = o.chainPerm % 2 ^ LNK_SPI_CFG_CHAIN_PERM.w ∧
      t.gb LNK_GR_CFG_AUTH = o.authKey.isSome ∧ t.g PWR_GOV_CFG_BUDGET = (if o.grade = 1 then 16000 else 24000) := by
  intro u o load fresh
  refine exec_next ((exec_optionCommit bad corr).trans (congrArg done (if_neg (by rw [load, fresh]; decide)))) ?_
  have frame := ((State.sameBut.refl.optRegs o : u.sameBut (u.optRegs o) optWords).put DEV_BOOTSTAT_OPT_CORR (satU 3 corr.toNat) (by decide)).bt
    fun b => { b with opts := o, optDone := true, optAt := u.now, optBad := bad.map (·.val) }
  have read (f : Fld) (ev : evWord f.a = false) (apart : DEV_BOOTSTAT_OPT_CORR.apart f) :
      (u.committed o corr.toNat (bad.map (·.val))).settle.g f = (u.optRegs o).g f := by
    rw [State.settle_g _ _ ev, State.committed_g, State.put_g_disj _ _ _ _ (by decide) apart]
  have shown : (u.committed o corr.toNat (bad.map (·.val))).settle.g DEV_BOOTSTAT_OPT_CORR = min corr.toNat 7 := by
    rw [State.settle_g _ _ (by decide), State.committed_g, State.put_g_same _ _ _ (by decide)]
    refine Nat.mod_eq_of_lt ?_
    exact Nat.lt_of_le_of_lt (Nat.min_le_right _ _) (by decide)
  obtain ⟨serial, grade, dflt, perm, auth, budget⟩ := u.optRegs_shows o
  exact ⟨frame.settle, (read DEV_SERIAL_SERIAL (by decide) (.inl (by decide))).trans serial, (read DEV_REV_GRADE (by decide) (.inl (by decide))).trans grade,
    (congrArg (· != 0) (read DEV_BOOTSTAT_OPT_DEFAULT (by decide) (.inr (by decide)))).trans dflt, shown,
    (read LNK_SPI_CFG_CHAIN_PERM (by decide) (.inl (by decide))).trans perm,
    (congrArg (· != 0) (read LNK_GR_CFG_AUTH (by decide) (.inl (by decide)))).trans auth, (read PWR_GOV_CFG_BUDGET (by decide) (.inl (by decide))).trans budget⟩

theorem optionCommit_stands (bad : Option (Fin 8)) (corr : BitVec 8) :
    let u := s.tickTo dt
    (u.dev ≠ .optionLoad ∨ u.boot.optDone = true) → ∃ t, Machine.exec (.optionCommit dt bad corr) s = .next t ∧ u.sameBut t [] := by
  intro u past
  refine exec_same ((exec_optionCommit bad corr).trans (congrArg done (if_pos ?_)))
  rw [Bool.or_eq_true, bne_iff_ne]
  exact past

/-! ## ENTER_BOOT (R121, R126) -/

/-- A register among those that an entry to BOOT may change. -/
theorem State.boots.unput {porCause : Bool} (h : s.boots t porCause) (f : Fld) (v : Nat) (mem : f.a ∈ bootWords) : (s.put f v).boots t porCause := by
  have under {x y : State} {B : List Nat} (same : x.sameBut y B) (mem : f.a ∈ B) : (x.put f v).sameBut y B :=
    (same.symm.put f v mem).symm
  rw [State.boots_iff rfl] at h ⊢
  change if s.startCount porCause < 3 then _ else _
  split
  · next few =>
    rw [if_pos few] at h
    exact ⟨under h.1 mem, h.2⟩
  · next many =>
    rw [if_neg many] at h
    exact ⟨{ h.1 with frame := under h.1.frame (List.mem_append_right _ mem) }, h.2⟩

theorem exec_enterBoot : exec (.enterBoot dt) s =
    done (if (s.tickTo dt).dev != .optionLoad || !(s.tickTo dt).boot.optDone then s.tickTo dt
      else (((s.tickTo dt).put CLK_STAT_PLL_LOCK 1).put CLK_STAT_XTAL_OK 1).enterBoot) := rfl

theorem enterBoot_starts :
    let u := s.tickTo dt
    u.dev = .optionLoad → u.boot.optDone = true →
    ∃ t, Machine.exec (.enterBoot dt) s = .next t ∧
      (((u.put CLK_STAT_PLL_LOCK 1).put CLK_STAT_XTAL_OK 1).putB LNK_SPI_STAT_MODE_ACT (u.g LNK_SPI_CFG_CHAIN_PERM = 2)).boots t u.boot.porCause := by
  intro u load ready
  refine exec_next (exec_enterBoot.trans (congrArg done (if_neg (by rw [load, ready]; decide)))) ?_
  exact (State.enterBoot_boots ((u.put CLK_STAT_PLL_LOCK 1).put CLK_STAT_XTAL_OK 1)).unput _ _ (by decide)

theorem enterBoot_stands :
    let u := s.tickTo dt
    (u.dev ≠ .optionLoad ∨ u.boot.optDone = false) → ∃ t, Machine.exec (.enterBoot dt) s = .next t ∧ u.sameBut t [] := by
  intro u past
  refine exec_same (exec_enterBoot.trans (congrArg done (if_pos ?_)))
  rw [Bool.or_eq_true, bne_iff_ne, Bool.not_eq_true']
  exact past

/-! ## CLOCK_FAILURE (R128) -/

/-- The clock's status as the failure is found: whether the crystal runs is a free value (log entry 45). -/
def State.clockTold (s : State) : State :=
  ((({ s with free := s.free + 1 } : State).putB CLK_STAT_XTAL_OK ((Config.freeValue s.free).getLsbD 0)).put CLK_STAT_RC_ONLY 1).put DEV_BOOTSTAT_CLK_FAIL 1

/-- The same in BOOT. -/
def State.clockLost (s : State) : State := { s.clockTold with dev := .boot }

theorem State.withDev_g (d : DevState) (f : Fld) : ({ s with dev := d }).g f = s.g f := rfl

theorem State.clockLost_g (f : Fld) : s.clockLost.g f = s.clockTold.g f := State.withDev_g .boot f

theorem State.romStarted_word (a : Nat) : s.romStarted.word a = s.word a := rfl

/-- The start of the boot ROM that follows, with the record of a failed option record. -/
def State.clockStarted (s : State) : State :=
  let t := s.clockLost.surveyorBoot
  let t := match s.boot.optBad with
    | some k => t.fbAdd 0x04 [k]
    | none => t
  t.put DEV_BOOTSTAT_FAILCNT t.nvm.failcnt

theorem exec_clockFailure : exec (.clockFailure dt) s =
    done (if (s.tickTo dt).dev != .optionLoad || !(s.tickTo dt).boot.optDone || decide ((s.tickTo dt).now - (s.tickTo dt).boot.optAt < msCyc 10)
      then s.tickTo dt else (s.tickTo dt).clockStarted.enterRecovery 5) := rfl

/-- The start changes the words that the stores set and DEV_BOOTSTAT. -/
theorem State.clockStarted_alike (u : State) : u.clockLost.romStarted.alike u.clockStarted (0x12 :: storeWords) := by
  have started := u.clockLost.surveyorBoot_alike (scope := .all) |>.mono fun a => List.mem_cons_of_mem 0x12
  unfold State.clockStarted
  dsimp only
  refine .put ?_ _ _ (by decide)
  split
  · exact started.fbAdd (by decide) _ _
  · exact started

/-- Both in RECOVERY, past the start of the boot ROM. -/
theorem State.alike.romFailed (h : s.alike t A) :
    ({ s with dev := .boot }).romStarted.inRecovery.alike ({ t with dev := .boot }).romStarted.inRecovery A := by
  have each (x : State) : (({ x with dev := .boot }).romStarted.inRecovery).bare .all =
      { (x.bare .all) with
        dev := .recovery, cmds := [], backlog := []
        boot := { (x.bare .all).boot with fwRunning := false, optBad := none, wdOn := false }
        ecc := vupd (x.bare .all).ecc 1 fun _ => { EccSt.init with slotAt := x.now } } := rfl
  refine ⟨h.now, ?_, h.words.upd.updL⟩
  rw [each, each, h.bare, h.now]

/-- The state that the failure leaves but for registers. -/
theorem State.clockFailed_alike (u : State) :
    ({ u with free := u.free + 1, boot := { u.boot with optBad := none }, ecc := vupd u.ecc 1 fun _ => { EccSt.init with slotAt := u.now } }).inRecovery.alike
      u.clockLost.romStarted.inRecovery (0x1C0 :: bootWords) := by
  have set {v w : State} (h : v.alike w (0x1C0 :: bootWords)) (b : Bool) :
      v.alike (((w.putB CLK_STAT_XTAL_OK b).put CLK_STAT_RC_ONLY 1).put DEV_BOOTSTAT_CLK_FAIL 1) (0x1C0 :: bootWords) :=
    ((h.putB _ _ (.head _)).put _ _ (.head _)).put _ _ (List.mem_cons_of_mem _ (by decide))
  have told : ({ u with free := u.free + 1 } : State).alike u.clockTold (0x1C0 :: bootWords) := set .refl _
  exact told.romFailed

/-- What the clock's status reads. -/
theorem State.clockLost_stat (u : State) : u.clockLost.g CLK_STAT_RC_ONLY = 1 ∧ u.clockLost.g CLK_STAT_PLL_LOCK = u.g CLK_STAT_PLL_LOCK := by
  rw [State.clockLost_g, State.clockLost_g]
  unfold State.clockTold
  constructor
  · rw [State.put_g_ne _ _ _ _ (by decide), State.put_g_same _ _ _ (by decide)]
    rfl
  · rw [State.put_g_ne _ _ _ _ (by decide), State.put_g_disj _ _ _ _ (by decide) (by decide), State.putB,
      State.put_g_disj _ _ _ _ (by decide) (by decide)]
    rfl

/-- Words that the start and the entry leave alone. -/
theorem State.clockStarted_word (u : State) (a : Nat) (store : a ∉ storeWords) (stat : a ≠ 0x12) (entry : a ∉ recoveryWords) (ev : evWord a = false) :
    (u.clockStarted.enterRecovery 5).settle.word a = u.clockLost.word a := by
  rw [State.settle_word _ _ ev]
  exact ((u.clockStarted.enterRecovery_alike 5).words a entry ev).trans
    (u.clockStarted_alike.words a (fun mem => (List.mem_cons.1 mem).elim stat store) ev |>.trans (State.romStarted_word a))

theorem State.clockStarted_clk (u : State) (f : Fld) (h : f.a = 0x1C0) : (u.clockStarted.enterRecovery 5).settle.g f = u.clockLost.g f :=
  State.word_eq_of_g _ _ _ (u.clockStarted_word f.a (by rw [h]; decide) (by rw [h]; decide) (by rw [h]; decide) (by rw [h]; decide))

/-- CLK_FAIL stands through the start and the entry. -/
theorem State.clockFailure_told (u : State) : (u.clockStarted.enterRecovery 5).g DEV_BOOTSTAT_CLK_FAIL = 1 := by
  have set : u.clockLost.g DEV_BOOTSTAT_CLK_FAIL = 1 := by
    rw [State.clockLost_g]
    exact State.put_g_same _ _ _ (by decide)
  have started : u.clockLost.surveyorBoot.g DEV_BOOTSTAT_CLK_FAIL = u.clockLost.g DEV_BOOTSTAT_CLK_FAIL :=
    State.word_eq_of_g _ _ _ ((u.clockLost.surveyorBoot_alike (scope := .all)).words 0x12 (by decide) (by decide) |>.trans (State.romStarted_word 0x12))
  rw [State.enterRecovery_g _ _ _ rfl, State.put_g_disj _ _ _ _ (by decide) (by decide)]
  unfold State.clockStarted
  dsimp only
  rw [State.put_g_disj _ _ _ _ (by decide) (by decide)]
  split
  · exact (State.fbAdd_g _ _ _ _ (by decide)).trans (started.trans set)
  · exact started.trans set

theorem clockFailure_recovers :
    let u := s.tickTo dt
    u.dev = .optionLoad → u.boot.optDone = true → u.boot.optAt + 4000000 ≤ u.now →
    ∃ t, Machine.exec (.clockFailure dt) s = .next t ∧
      ({ u with free := u.free + 1, boot := { u.boot with optBad := none }, ecc := vupd u.ecc 1 fun _ => { EccSt.init with slotAt := u.now } }).recovers
        t 5 (0x1C0 :: bootWords) ∧
      t.gb CLK_STAT_RC_ONLY = true ∧ t.gb DEV_BOOTSTAT_CLK_FAIL = true ∧ t.g CLK_STAT_PLL_LOCK = u.g CLK_STAT_PLL_LOCK := by
  intro u load ready late
  have time : decide (u.now - u.boot.optAt < msCyc 10) = false := decide_eq_false (Nat.not_lt.2 (Nat.le_sub_of_add_le' late))
  refine exec_next (exec_clockFailure.trans (congrArg done (if_neg (by rw [load, ready, time]; decide)))) ⟨?_, ?_, ?_, ?_⟩
  · have within (a : Nat) (mem : a ∈ 0x12 :: storeWords) : a ∈ 0x1C0 :: bootWords :=
      List.mem_cons_of_mem _ ((List.mem_cons.1 mem).elim (fun e => e ▸ by decide) (bootWords_of_store a))
    exact .of_enter (u.clockFailed_alike.trans (u.clockStarted_alike.mono within).inRecovery) (by decide)
  · exact congrArg (· != 0) (u.clockStarted_clk CLK_STAT_RC_ONLY rfl |>.trans u.clockLost_stat.1)
  · rw [State.settle_gb _ _ (by decide)]
    exact congrArg (· != 0) u.clockFailure_told
  · exact (u.clockStarted_clk CLK_STAT_PLL_LOCK rfl).trans u.clockLost_stat.2

theorem clockFailure_stands :
    let u := s.tickTo dt
    (u.dev ≠ .optionLoad ∨ u.boot.optDone = false ∨ u.now < u.boot.optAt + 4000000) →
    ∃ t, Machine.exec (.clockFailure dt) s = .next t ∧ u.sameBut t [] := by
  intro u early
  refine exec_same (exec_clockFailure.trans (congrArg done (if_pos ?_)))
  simp only [Bool.or_eq_true, bne_iff_ne, Bool.not_eq_true', decide_eq_true_eq, or_assoc]
  have time (past : u.now < u.boot.optAt + 4000000) : u.now - u.boot.optAt < 4000000 := by omega
  exact early.imp_right (Or.imp_right time)

/-- Settles O19: options, the entry to BOOT, and the failure of the clock. -/
theorem optionLoadAndBoot : Obligations.OptionLoadAndBoot :=
  ⟨fun _ _ => optionCommit_takes, fun _ _ => optionCommit_stands, fun _ _ => enterBoot_starts, fun _ _ => clockFailure_recovers,
    fun _ _ => enterBoot_stands, fun _ _ => clockFailure_stands⟩

end Sys2Proof.Machine
end

section
/-!
PROOF. The choice of firmware, and the end of the keep-alive part of CONFIG_LOAD (R123, R462).
-/

namespace Sys2Proof.Machine

open Host

variable {s t u : State} {A : List Nat} {dt : Nat}

/-! ## The candidates (R462) -/

/-- A firmware slot holds a valid image. -/
def State.fwOk (s : State) (x : Fin 2) : Bool := s.nvm.fw[x].rd.fwValid s.boot.opts (s.g DEV_REV_REV)

/-- The slots `bad` marked FAILED. -/
def Nvm.failed (m : Nvm) (bad : List (Fin 2)) : Nvm :=
  { m with fw := Vector.ofFn fun (x : Fin 2) => if x ∈ bad then { m.fw[x] with state := 3 } else m.fw[x] }

theorem Nvm.failed_nil (m : Nvm) : m.failed [] = m := by
  have fw : (Vector.ofFn fun (x : Fin 2) => if x ∈ [] then { m.fw[x] with state := 3 } else m.fw[x]) = m.fw := by
    ext i hi
    simp
  exact congrArg (fun fw => { m with fw := fw }) fw

theorem Nvm.failed_cons (m : Nvm) (x : Fin 2) (bad : List (Fin 2)) :
    ({ m with fw := vupd m.fw x fun f => { f with state := 3 } }).failed bad = m.failed (x :: bad) := by
  have fw : (Vector.ofFn fun (y : Fin 2) => if y ∈ bad then { (vupd m.fw x fun f => { f with state := 3 })[y] with state := 3 }
      else (vupd m.fw x fun f => { f with state := 3 })[y]) =
      Vector.ofFn fun (y : Fin 2) => if y ∈ x :: bad then { m.fw[y] with state := 3 } else m.fw[y] := by
    refine congrArg Vector.ofFn (funext fun y => ?_)
    by_cases e : x = y
    · subst e
      rw [vupd_same, if_pos (List.mem_cons_self ..)]
      split <;> rfl
    · rw [vupd_ne _ _ _ _ e]
      simp [show ¬ y = x from fun q => e q.symm]
  exact congrArg (fun fw => { m with fw := fw }) fw

/-- The state with the slots `bad` FAILED, and the NVM's pulse until `p`. -/
def State.rejected (s : State) (bad : List (Fin 2)) (p : Nat) : State := { s with nvm := s.nvm.failed bad, boot := { s.boot with pulseEnd := p } }

theorem State.fwOk_fwState (s : State) (x y : Fin 2) : (s.fwState x 3).fwOk y = s.fwOk y := by
  have rd : (vupd s.nvm.fw x fun f => { f with state := 3 })[y].rd = s.nvm.fw[y].rd := by
    by_cases e : x = y
    · subst e
      rw [vupd_same]
      rfl
    · rw [vupd_ne _ _ _ _ e]
  exact congrArg (fun r : Rd => r.fwValid s.boot.opts (s.g DEV_REV_REV)) rd

/-- The first valid candidate is taken, those before it are marked FAILED. -/
theorem State.fwTry_eq (s : State) (l : List (Fin 2)) :
    ∃ p, s.fwTry l = (s.rejected (l.takeWhile fun x => !s.fwOk x) p, l.find? s.fwOk) := by
  induction l generalizing s with
  | nil => exact ⟨s.boot.pulseEnd, by rw [List.takeWhile_nil, State.rejected, Nvm.failed_nil]; rfl⟩
  | cons x l ih =>
    change ∃ p, (if s.fwOk x then (s, some x) else (s.fwState x 3).fwTry l) = _
    by_cases ok : s.fwOk x = true
    · refine ⟨s.boot.pulseEnd, ?_⟩
      rw [if_pos ok, List.takeWhile_cons_of_neg (by simp [ok]), List.find?_cons_of_pos ok, State.rejected, Nvm.failed_nil]
    · obtain ⟨p, tried⟩ := ih (s.fwState x 3)
      have same : (s.fwState x 3).fwOk = s.fwOk := funext fun y => s.fwOk_fwState x y
      have marked (bad : List (Fin 2)) : (s.fwState x 3).rejected bad p = s.rejected (x :: bad) p :=
        congrArg (fun m : Nvm => { s with nvm := m, boot := { s.boot with pulseEnd := p } }) (s.nvm.failed_cons x bad)
      refine ⟨p, ?_⟩
      rw [if_neg ok, tried, same, marked, List.takeWhile_cons_of_pos (by simp [ok]), List.find?_cons_of_neg ok]

/-! ## FIRMWARE_SELECT -/

/-- The words of slots and images. -/
def slotWords : List Nat := (List.range 16).map (0x1000210 + ·)

theorem slotWords_mem (k : Nat) (h : k < 16) : 0x1000210 + k ∈ slotWords := List.mem_map.2 ⟨k, List.mem_range.2 h, rfl⟩

/-- Firmware from slot `x` runs, and CONFIG_LOAD begins. -/
def State.fwTaken (s : State) (x : Fin 2) : State :=
  let f := s.nvm.fw[x]
  let s := s.nv fun m => { m with lastFw := x.val, lastTrial := f.state == 2 }
  let s := ((s.put DEV_BOOTSTAT_FW_SLOT x).setWord 0x3 (W (f.version % 2 ^ 24))).put MG_SV_STAT_FW 1
  let s := s.bt fun b => { b with fwRunning := true, stage := 0 }
  { s with dev := .configLoad }.slotStat

theorem State.slotStat_boot (v : State) : v.slotStat.boot = v.boot := State.slotStat_ind (P := fun x => x.boot = v.boot) (fun _ _ _ _ h => h) rfl

theorem State.fwTaken_boot (v : State) (x : Fin 2) : (v.fwTaken x).boot = { v.boot with fwRunning := true, stage := 0 } := by
  unfold State.fwTaken
  dsimp only
  rw [State.slotStat_boot, State.bt_boot, State.put_boot, State.setWord_boot, State.put_boot, State.nv_boot]

theorem exec_firmwareSelect (boot : (s.tickTo dt).dev = .boot) (up : (s.tickTo dt).surveyorUp = true) (first : (s.tickTo dt).boot.failRead = 0) :
    exec (.firmwareSelect dt) s = done (match (s.tickTo dt).fwTry (s.tickTo dt).nvm.fwOrder with
      | (v, none) => v.slotStat.enterRecovery 2
      | (v, some x) => if v.boot.fromCore then (v.fwTaken x).keepAliveEnd else v.fwTaken x) := by
  have trial : (s.tickTo dt).fwTrialEnd = s.tickTo dt := by
    unfold State.fwTrialEnd
    dsimp only
    rw [first]
    rfl
  have image : (s.tickTo dt).imgTrialEnd = s.tickTo dt := by
    unfold State.imgTrialEnd
    split
    · rw [first]
      rfl
    · rfl
  change execFirmwareSelect dt s = _
  unfold execFirmwareSelect
  dsimp only
  rw [boot, up, trial, image, if_neg (by decide)]
  generalize (s.tickTo dt).fwTry (s.tickTo dt).nvm.fwOrder = r
  obtain ⟨v, _ | x⟩ := r
  · exact id rfl
  · have kept := congrArg (fun b : BootSt => b.fromCore) (v.fwTaken_boot x)
    have core : (v.fwTaken x).boot.fromCore = v.boot.fromCore := kept
    have turn : (if (v.fwTaken x).boot.fromCore then (v.fwTaken x).keepAliveEnd else v.fwTaken x) =
        if v.boot.fromCore then (v.fwTaken x).keepAliveEnd else v.fwTaken x := by rw [core]
    exact congrArg done turn

/-! ### The keep-alive part of CONFIG_LOAD ends (R123) -/

/-- Without a source for full logic the module waits. -/
def State.waits (s : State) : Bool := !s.flMay && !s.flOn

theorem State.waits_iff (s : State) : (s.flMay || s.flOn) = !s.waits := by
  unfold State.waits
  cases s.flMay <;> cases s.flOn <;> rfl

/-- The end of the keep-alive part but for registers: waiting clears the failed-start count and stops the boot watchdog. `p` is the end of
the NVM's pulse. -/
def State.waiting (s : State) (wait : Bool) (p : Nat) : State :=
  (s.nv fun m => { m with failcnt := if wait then 0 else m.failcnt }).bt fun b => { b with stage := 2, wdOn := b.wdOn && !wait, pulseEnd := p }

theorem State.waiting_false (s : State) : s.waiting false s.boot.pulseEnd = s.bt fun b => { b with stage := 2 } :=
  congrArg (fun w => s.bt fun b => { b with stage := 2, wdOn := w }) (Bool.and_true s.boot.wdOn)

theorem State.waiting_true (s : State) (p : Nat) : s.waiting true p =
    (((s.bt fun b => { b with stage := 2 }).nv fun m => { m with failcnt := 0 }).bt fun b => { b with pulseEnd := p }).bt fun b => { b with wdOn := false } :=
  congrArg (fun w => (s.nv fun m => { m with failcnt := 0 }).bt fun b => { b with stage := 2, wdOn := w, pulseEnd := p }) (Bool.and_false s.boot.wdOn)

theorem State.keepAliveEnd_goes (s : State) (h : s.waits = false) : s.keepAliveEnd = s.bt fun b => { b with stage := 2 } :=
  if_pos (s.waits_iff.trans (by rw [h]; rfl))

theorem State.keepAliveEnd_waits (s : State) (h : s.waits = true) : s.keepAliveEnd =
    (((s.bt fun b => { b with stage := 2 }).put DEV_STATE_WAIT_FL 1).setFail 0).bt fun b => { b with wdOn := false } :=
  if_neg (fun e => Bool.false_ne_true ((show (!s.waits) = false by rw [h]; rfl).symm.trans (s.waits_iff.symm.trans e)))

theorem State.keepAliveEnd_frame (s : State) : (s.waiting s.waits s.keepAliveEnd.boot.pulseEnd).sameBut s.keepAliveEnd [0x10, 0x12] := by
  cases wait : s.waits with
  | false =>
    rw [s.keepAliveEnd_goes wait, State.bt_boot, s.waiting_false]
    exact .refl
  | true =>
    have frame := ((((((State.sameBut.refl (s := s) (A := [0x10, 0x12])).bt fun b => { b with stage := 2 }).put DEV_STATE_WAIT_FL 1 (by decide)).nv
      fun m => { m with failcnt := 0 }).put DEV_BOOTSTAT_FAILCNT 0 (by decide)).bt fun b => { b with pulseEnd := s.now + usCyc 20 }).bt
        fun b => { b with wdOn := false }
    rw [s.keepAliveEnd_waits wait, State.setFail_eq, s.waiting_true]
    exact frame

theorem State.keepAliveEnd_count (s : State) : s.keepAliveEnd.g DEV_BOOTSTAT_FAILCNT = if s.waits then 0 else s.g DEV_BOOTSTAT_FAILCNT := by
  cases wait : s.waits with
  | false => rw [s.keepAliveEnd_goes wait, State.bt_g, if_neg Bool.false_ne_true]
  | true => rw [s.keepAliveEnd_waits wait, State.bt_g, State.setFail_count _ (by decide), if_pos rfl]

theorem State.setFail_g (s : State) (k : Nat) (f : Fld) (apart : DEV_BOOTSTAT_FAILCNT.apart f) : (s.setFail k).g f = s.g f := by
  rw [State.setFail_eq, State.bt_g, State.put_g_disj _ _ _ _ (by decide) apart, State.nv_g]

theorem State.keepAliveEnd_flag (s : State) : s.keepAliveEnd.gb DEV_STATE_WAIT_FL = (s.waits || s.gb DEV_STATE_WAIT_FL) := by
  cases wait : s.waits with
  | false =>
    rw [s.keepAliveEnd_goes wait]
    exact id rfl
  | true =>
    rw [s.keepAliveEnd_waits wait]
    refine congrArg (· != 0) ((State.bt_g _ _ _).trans ((State.setFail_g _ _ _ (.inl (by decide))).trans (State.put_g_same _ _ _ (by decide))))

theorem State.keepAliveEnd_g (s : State) (f : Fld) (flag : DEV_STATE_WAIT_FL.apart f) (count : DEV_BOOTSTAT_FAILCNT.apart f) :
    s.keepAliveEnd.g f = s.g f := by
  cases wait : s.waits with
  | false => rw [s.keepAliveEnd_goes wait, State.bt_g]
  | true =>
    rw [s.keepAliveEnd_waits wait, State.bt_g, State.setFail_g _ _ _ count, State.put_g_disj _ _ _ _ (by decide) flag, State.bt_g]

theorem State.sameBut.withDev (h : s.sameBut t A) (d : DevState) : ({ s with dev := d }).sameBut { t with dev := d } A :=
  ⟨h.1, congrArg (fun x : State => { x with dev := d }) h.2.1, h.2.2⟩

theorem State.sameBut.mono {B : List Nat} (h : s.sameBut t A) (sub : ∀ a ∈ A, a ∈ B) : s.sameBut t B :=
  ⟨h.1, h.2.1, fun a out ev => h.2.2 a (fun mem => out (sub a mem)) ev⟩

theorem State.sameBut.waits (h : s.sameBut t A) (out : ∀ a ∈ [0x140, 0x144, 0x51], a ∉ A) : t.waits = s.waits := by
  have field (f : Fld) (mem : f.a ∈ [0x140, 0x144, 0x51]) (ev : evWord f.a = false) : t.gb f = s.gb f :=
    congrArg (· != 0) (State.word_eq_of_g _ _ _ (h.2.2 f.a (out _ mem) ev))
  have power := congrArg (fun x : State => x.power) h.2.1
  have power : t.power = s.power := power
  unfold State.waits State.flMay State.flOn
  rw [field PWR_STAT_SRC_VM (by decide) (by decide), field PWR_PATH_CFG_FL_ON_LINK (by decide) (by decide),
    field LNK_GR_STAT_FL_QUAL (by decide) (by decide), power]

/-! ### A slot is taken -/

theorem State.fwTaken_frame (v : State) (x : Fin 2) :
    ({ v with
      dev := .configLoad, nvm := { v.nvm with lastFw := x.val, lastTrial := v.nvm.fw[x].state == 2 }
      boot := { v.boot with fwRunning := true, stage := 0 } }).sameBut (v.fwTaken x) ([0x3, 0x12, 0x1000005] ++ slotWords) := by
  have first {a : Nat} (h : a ∈ [0x3, 0x12, 0x1000005]) : a ∈ [0x3, 0x12, 0x1000005] ++ slotWords := List.mem_append_left _ h
  have taken := ((((State.sameBut.refl (s := v)).nv fun m => { m with lastFw := x.val, lastTrial := v.nvm.fw[x].state == 2 }).put DEV_BOOTSTAT_FW_SLOT x
    (first (by decide))).setWord 0x3 (W (v.nvm.fw[x].version % 2 ^ 24)) (first (by decide))).put MG_SV_STAT_FW 1 (first (by decide))
  exact ((taken.bt fun b => { b with fwRunning := true, stage := 0 }).withDev .configLoad).slotStat fun k low => List.mem_append_right _ (slotWords_mem k low)

theorem State.slotStat_g (v : State) (f : Fld) (h : f.a ∉ slotWords) : v.slotStat.g f = v.g f :=
  State.slotStat_ind (P := fun x => x.g f = v.g f)
    (fun _ _ _ ⟨_, low, e⟩ hy => (State.put_g_ne _ _ _ _ fun q => h (q ▸ e ▸ slotWords_mem _ low)).trans hy) rfl

theorem State.fwTaken_g (v : State) (x : Fin 2) (f : Fld) (h : f.a ∉ slotWords) : (v.fwTaken x).g f =
    (((v.put DEV_BOOTSTAT_FW_SLOT x).setWord 0x3 (W (v.nvm.fw[x].version % 2 ^ 24))).put MG_SV_STAT_FW 1).g f := by
  unfold State.fwTaken
  dsimp only
  rw [State.slotStat_g _ f h]
  rfl

/-- Which slot is taken, and what else DEV_BOOTSTAT and MG_SV_STAT read then. -/
theorem State.fwTaken_reads (v : State) (x : Fin 2) :
    (v.fwTaken x).g DEV_BOOTSTAT_FW_SLOT = x ∧ (v.fwTaken x).g DEV_BOOTSTAT_FAILCNT = v.g DEV_BOOTSTAT_FAILCNT ∧
      (v.fwTaken x).g DEV_STATE_WAIT_FL = v.g DEV_STATE_WAIT_FL ∧ (v.fwTaken x).g MG_SV_STAT_FW = 1 := by
  have word (y : State) (w : Word) (f : Fld) (h : 0x3 ≠ f.a) : (y.setWord 0x3 w).g f = y.g f := State.word_eq_of_g _ _ _ (y.setWord_word_ne _ _ _ h)
  refine ⟨?_, ?_, ?_, ?_⟩
  · rw [v.fwTaken_g x _ (by decide), State.put_g_ne _ _ _ _ (by decide), word _ _ _ (by decide), State.put_g_same _ _ _ (by decide)]
    exact Nat.mod_eq_of_lt x.isLt
  · rw [v.fwTaken_g x _ (by decide), State.put_g_ne _ _ _ _ (by decide), word _ _ _ (by decide), State.put_g_disj _ _ _ _ (by decide) (by decide)]
  · rw [v.fwTaken_g x _ (by decide), State.put_g_ne _ _ _ _ (by decide), word _ _ _ (by decide), State.put_g_ne _ _ _ _ (by decide)]
  · rw [v.fwTaken_g x _ (by decide), State.put_g_same _ _ _ (by decide)]
    rfl

/-! ### The command -/

/-- The end of the NVM's pulse stays as it was. -/
theorem State.recovers.pulsed {cause : Nat} (h : s.recovers t cause A) :
    ({ s with boot := { s.boot with pulseEnd := t.boot.pulseEnd } }).recovers t cause A := by
  have kept := congrArg (fun x : State => x.boot.pulseEnd) h.frame.2.1
  have kept : t.boot.pulseEnd = s.boot.pulseEnd := kept
  rw [kept]
  exact h

/-- `t` stands in RECOVERY after the slots `bad` failed. -/
def State.fwRejects (u : State) (bad : List (Fin 2)) (t : State) : Prop :=
  ({ u with nvm := u.nvm.failed bad, boot := { u.boot with pulseEnd := t.boot.pulseEnd } }).recovers t 2 slotWords

theorem State.rejected_recovers (u : State) (bad : List (Fin 2)) (p : Nat) :
    u.fwRejects bad ((u.rejected bad p).slotStat.enterRecovery 2).settle := by
  have entered : (u.rejected bad p).recovers ((u.rejected bad p).slotStat.enterRecovery 2).settle 2 slotWords :=
    .of_enter ((State.alike.refl.slotStat slotWords_mem).inRecovery) (by decide)
  generalize ((u.rejected bad p).slotStat.enterRecovery 2).settle = t at entered ⊢
  exact entered.pulsed

theorem firmwareSelect_fails :
    let u := s.tickTo dt
    u.dev = .boot → u.surveyorUp = true → u.boot.failRead = 0 → u.nvm.fwOrder.find? u.fwOk = none →
    ∃ t, exec (.firmwareSelect dt) s = .next t ∧ u.fwRejects (u.nvm.fwOrder.takeWhile fun x => !u.fwOk x) t := by
  intro u boot up first none_
  obtain ⟨p, tried⟩ := u.fwTry_eq u.nvm.fwOrder
  rw [none_] at tried
  have outcome := exec_firmwareSelect boot up first
  rw [tried] at outcome
  have entered := u.rejected_recovers (u.nvm.fwOrder.takeWhile fun x => !u.fwOk x) p
  dsimp only at outcome
  generalize (State.rejected _ _ p).slotStat.enterRecovery 2 = e at outcome entered
  exact exec_next (Q := u.fwRejects _) outcome entered

/-- A slot taken, with the end of the keep-alive part after a core reset. -/
def State.fwBegun (s : State) (x : Fin 2) : State := if s.boot.fromCore then (s.fwTaken x).keepAliveEnd else s.fwTaken x

/-- CONFIG_LOAD as it begins: after a core reset its keep-alive part has ended, and the module may wait (R117, R123). -/
def State.fwBase (s : State) (x : Fin 2) (p : Nat) : State :=
  { s with
    dev := .configLoad
    nvm := { s.nvm with
      lastFw := x.val, lastTrial := s.nvm.fw[x].state == 2, failcnt := if s.boot.fromCore && s.waits then 0 else s.nvm.failcnt }
    boot := { s.boot with
      fwRunning := true, stage := if s.boot.fromCore then 2 else 0, wdOn := s.boot.wdOn && !(s.boot.fromCore && s.waits), pulseEnd := p } }

/-- The words that the beginning of CONFIG_LOAD may change. -/
def fwWords : List Nat := [0x3, 0x10, 0x12, 0x1000005] ++ slotWords

theorem State.fwTaken_waits (v : State) (x : Fin 2) : (v.fwTaken x).waits = v.waits :=
  ((v.fwTaken_frame x).waits (by decide)).trans rfl

theorem State.fwBegun_frame (v : State) (x : Fin 2) : (v.fwBase x (v.fwBegun x).boot.pulseEnd).sameBut (v.fwBegun x) fwWords := by
  have wide (a : Nat) (h : a ∈ [0x3, 0x12, 0x1000005] ++ slotWords) : a ∈ fwWords :=
    List.mem_append.2 ((List.mem_append.1 h).imp_left fun m => (by decide : ∀ a ∈ [0x3, 0x12, 0x1000005], a ∈ [0x3, 0x10, 0x12, 0x1000005]) a m)
  have taken := (v.fwTaken_frame x).mono wide
  unfold State.fwBegun
  cases core : v.boot.fromCore with
  | false =>
    have base : v.fwBase x v.boot.pulseEnd = { v with
        dev := .configLoad, nvm := { v.nvm with lastFw := x.val, lastTrial := v.nvm.fw[x].state == 2 }
        boot := { v.boot with fwRunning := true, stage := 0 } } := by
      unfold State.fwBase
      simp only [core, Bool.false_and, Bool.not_false, Bool.and_true, if_neg Bool.false_ne_true]
    rw [if_neg Bool.false_ne_true, v.fwTaken_boot x, base]
    exact taken
  | true =>
    have ended := (v.fwTaken x).keepAliveEnd_frame.mono (B := fwWords) fun a h => List.mem_append_left _ ((by decide : ∀ a ∈ [0x10, 0x12], a ∈ [0x3, 0x10, 0x12, 0x1000005]) a h)
    rw [v.fwTaken_waits x] at ended
    rw [if_pos rfl]
    generalize (v.fwTaken x).keepAliveEnd = t at ended ⊢
    have base : v.fwBase x t.boot.pulseEnd = State.waiting { v with
        dev := .configLoad, nvm := { v.nvm with lastFw := x.val, lastTrial := v.nvm.fw[x].state == 2 }
        boot := { v.boot with fwRunning := true, stage := 0 } } v.waits t.boot.pulseEnd := by
      unfold State.fwBase
      simp only [core, Bool.true_and, if_true]
      rfl
    rw [base]
    exact ((taken.nv _).bt _).trans ended

theorem State.fwBegun_reads (v : State) (x : Fin 2) :
    (v.fwBegun x).g DEV_BOOTSTAT_FW_SLOT = x ∧
      (v.fwBegun x).g DEV_BOOTSTAT_FAILCNT = (if v.boot.fromCore && v.waits then 0 else v.g DEV_BOOTSTAT_FAILCNT) ∧
      (v.fwBegun x).gb DEV_STATE_WAIT_FL = (v.boot.fromCore && v.waits || v.gb DEV_STATE_WAIT_FL) ∧ (v.fwBegun x).gb MG_SV_STAT_FW = true := by
  obtain ⟨slot, count, flag, fw⟩ := v.fwTaken_reads x
  have flag' : (v.fwTaken x).gb DEV_STATE_WAIT_FL = v.gb DEV_STATE_WAIT_FL := congrArg (· != 0) flag
  unfold State.fwBegun
  cases v.boot.fromCore with
  | false =>
    exact ⟨slot, count, flag', congrArg (· != 0) fw⟩
  | true =>
    rw [if_pos rfl, State.keepAliveEnd_count, State.keepAliveEnd_flag, (v.fwTaken x).keepAliveEnd_g DEV_BOOTSTAT_FW_SLOT (.inl (by decide)) (.inr (by decide)),
      v.fwTaken_waits x, count, flag']
    exact ⟨slot, rfl, rfl, congrArg (· != 0) (((v.fwTaken x).keepAliveEnd_g MG_SV_STAT_FW (.inl (by decide)) (.inl (by decide))).trans fw)⟩

theorem Nvm.failed_same (m : Nvm) {bad : List (Fin 2)} {x : Fin 2} (h : x ∉ bad) : (m.failed bad).fw[x] = m.fw[x] := by
  unfold Nvm.failed
  rw [Fin.getElem_fin, Vector.getElem_ofFn]
  exact if_neg h

/-- A slot taken after `bad` have been rejected. -/
theorem State.rejected_begun (u : State) {bad : List (Fin 2)} {x : Fin 2} (p : Nat) (h : x ∉ bad) :
    let wait := u.boot.fromCore && !u.flMay && !u.flOn
    let t := ((u.rejected bad p).fwBegun x).settle
    ({ u with
      dev := .configLoad, nvm := { u.nvm.failed bad with
        lastFw := x.val, lastTrial := u.nvm.fw[x].state == 2, failcnt := if wait then 0 else u.nvm.failcnt },
      boot := { u.boot with
        fwRunning := true, stage := if u.boot.fromCore then 2 else 0, wdOn := u.boot.wdOn && !wait, pulseEnd := t.boot.pulseEnd } }).sameBut t fwWords ∧
    t.g DEV_BOOTSTAT_FW_SLOT = x.val ∧ t.g DEV_BOOTSTAT_FAILCNT = (if wait then 0 else u.g DEV_BOOTSTAT_FAILCNT) ∧
    t.gb DEV_STATE_WAIT_FL = (wait || u.gb DEV_STATE_WAIT_FL) ∧ t.gb MG_SV_STAT_FW = true := by
  intro wait t
  have waits : (u.boot.fromCore && u.waits) = wait := (Bool.and_assoc ..).symm
  obtain ⟨slot, count, flag, fw⟩ := (u.rejected bad p).fwBegun_reads x
  have frame := ((u.rejected bad p).fwBegun_frame x).settle
  have pulse : t.boot.pulseEnd = ((u.rejected bad p).fwBegun x).boot.pulseEnd := by rw [State.settle_boot]
  refine ⟨?_, ?_, ?_, ?_, ?_⟩
  · rw [pulse, ← waits, ← u.nvm.failed_same h]
    exact frame
  · rw [State.settle_g _ _ (by decide), slot]
  · rw [State.settle_g _ _ (by decide), count, ← waits]
    rfl
  · rw [State.settle_gb _ _ (by decide), flag, ← waits]
    rfl
  · rw [State.settle_gb _ _ (by decide), fw]

theorem firmwareSelect_takes :
    let u := s.tickTo dt
    let bad := u.nvm.fwOrder.takeWhile fun x => !u.fwOk x
    let wait := u.boot.fromCore && !u.flMay && !u.flOn
    u.dev = .boot → u.surveyorUp = true → u.boot.failRead = 0 → ∀ x ∈ u.nvm.fwOrder.find? u.fwOk,
    ∃ t, exec (.firmwareSelect dt) s = .next t ∧
      ({ u with
        dev := .configLoad, nvm := { u.nvm.failed bad with
          lastFw := x.val, lastTrial := u.nvm.fw[x].state == 2, failcnt := if wait then 0 else u.nvm.failcnt },
        boot := { u.boot with
          fwRunning := true, stage := if u.boot.fromCore then 2 else 0, wdOn := u.boot.wdOn && !wait, pulseEnd := t.boot.pulseEnd } }).sameBut t fwWords ∧
      t.g DEV_BOOTSTAT_FW_SLOT = x.val ∧ t.g DEV_BOOTSTAT_FAILCNT = (if wait then 0 else u.g DEV_BOOTSTAT_FAILCNT) ∧
      t.gb DEV_STATE_WAIT_FL = (wait || u.gb DEV_STATE_WAIT_FL) ∧ t.gb MG_SV_STAT_FW = true := by
  intro u bad wait boot up first x some_
  obtain ⟨p, tried⟩ := u.fwTry_eq u.nvm.fwOrder
  rw [some_] at tried
  have outcome := exec_firmwareSelect boot up first
  rw [tried] at outcome
  have good : x ∉ bad := fun mem => by
    have no := List.mem_takeWhile_imp mem
    rw [List.find?_some some_] at no
    exact absurd no (by decide)
  exact ⟨_, outcome, u.rejected_begun p good⟩

theorem firmwareSelect_stands :
    let u := s.tickTo dt
    (u.dev ≠ .boot ∨ u.surveyorUp = false) → ∃ t, Machine.exec (.firmwareSelect dt) s = .next t ∧ u.sameBut t [] := by
  intro u idle
  have off : (u.dev != .boot || !u.surveyorUp) = true := by
    rw [Bool.or_eq_true, bne_iff_ne, Bool.not_eq_true']
    exact idle
  exact exec_same (congrArg done (if_pos off))

end Sys2Proof.Machine
end

section
/-!
PROOF. The choice of an image (R124, R434), and the obligation on both (O20).
-/

namespace Sys2Proof.Machine

open Host

variable {s t u : State} {A : List Nat} {dt : Nat}

/-! ## What the image's registers leave alone (R437) -/

/-- The state without registers, staged copies, the field clock and the chain mode. -/
def State.unwritten (s : State) : State :=
  { s with regs := [], staged := [], surv := Block.reset.surv, chainMode := false, cyc := CycSt.from_ Block.reset }

theorem foldl_unwritten {ι : Type} (l : List ι) (f : State → ι → State) (h : ∀ x i, (f x i).unwritten = x.unwritten) (s : State) :
    (l.foldl f s).unwritten = s.unwritten := foldl_ind (fun t => t.unwritten = s.unwritten) l f (fun x i e => (h x i).trans e) s rfl

theorem State.put_unwritten (s : State) (f : Fld) (v : Nat) : (s.put f v).unwritten = s.unwritten := rfl

theorem State.ite_unwritten (c : Prop) [Decidable c] (a b : State) : (if c then a else b).unwritten = if c then a.unwritten else b.unwritten :=
  apply_ite State.unwritten c a b

theorem State.writeFields_unwritten (s : State) (a : Nat) (w : Word) (key : Bool) : (s.writeFields a w key true).unwritten = s.unwritten := by
  unfold State.writeFields
  dsimp only
  rw [if_pos rfl]
  refine foldl_unwritten _ _ (fun x r => ?_) s
  split
  · rfl
  · rw [State.ite_unwritten, State.setField, State.put_unwritten, ite_self]
  · rfl
  all_goals rfl

theorem State.spiCfgWrite_unwritten (s : State) (w : Word) (key gr : Bool) : (s.spiCfgWrite w key gr true).unwritten = s.unwritten := by
  have written := s.writeFields_unwritten 0x40 w key
  have mode (v : Nat) : ((s.writeFields 0x40 w key true).put LNK_SPI_CFG_MODE v).unwritten = s.unwritten := written
  have chained (x : State) (m : Bool) : State.unwritten { (x.putB LNK_SPI_CFG_MODE m) with chainMode := m } = x.unwritten := id rfl
  unfold State.spiCfgWrite
  dsimp only
  split
  · rw [State.ite_unwritten, State.put_unwritten, chained, mode, ite_self]
  · exact mode _

theorem State.applyEntry_unwritten (s : State) (e : Entry) : (s.applyEntry e).unwritten = s.unwritten := by
  have kept (x : State) (f : SurvSt → SurvSt) : (x.su f).unwritten = x.unwritten := rfl
  have clocked (x : State) (k : Nat) : (x.fclkSet k).unwritten = x.unwritten := (State.put_unwritten _ _ _).trans (kept _ _)
  unfold State.applyEntry
  dsimp only
  split
  · rw [State.ite_unwritten, clocked, State.writeFields_unwritten, ite_self]
  · rw [State.ite_unwritten, State.spiCfgWrite_unwritten, State.writeFields_unwritten, ite_self]

theorem State.applyRegs_unwritten (s : State) (k : Nat) : (s.applyRegs k).unwritten = s.unwritten :=
  foldl_unwritten _ _ (fun _ _ => foldl_unwritten _ _ (fun y e => y.applyEntry_unwritten e) _) s

/-- V5OUT leaves axes, coils, commands, start and stores alone. -/
theorem State.v5Follow_bare (s : State) : s.v5Follow.now = s.now ∧ s.v5Follow.bare .supply = s.bare .supply := by
  have followed : s.alike s.v5Follow (0x140 :: mwWords) .supply :=
    State.alike.refl.v5Follow nofun (by decide) (by decide) (by decide) fun n => .tail _ (List.mem_append_right _ (mwWords_hold n))
  exact ⟨followed.now, followed.bare⟩

/-- What neither writes of registers nor V5OUT change. -/
def State.core (s : State) : State := (s.bare .supply).unwritten

/-- Writes of registers, then V5OUT, then the end of the cycle. -/
theorem State.core_of_parts {w r v : State} (written : r.unwritten = w.unwritten) (now : v.now = r.now) (bare : v.bare .supply = r.bare .supply)
    (step : v.evStep t) : t.now = w.now ∧ t.core = w.core := by
  have each (x : State) : x.core = x.unwritten.core := rfl
  have clock := congrArg (fun x : State => x.now) written
  have clock : r.now = w.now := clock
  have same : t.bare .supply = v.bare .supply := congrArg (fun x : State => x.blank .supply) step.rest
  refine ⟨(step.now.trans now).trans clock, ?_⟩
  calc
    t.core = r.core := congrArg State.unwritten (same.trans bare)
    _ = w.core := by rw [each r, each w, written]

theorem State.core_parts (now : t.now = s.now) (h : t.core = s.core) : t.now = s.now ∧ t.pending = s.pending ∧ t.dev = s.dev ∧ t.boot = s.boot ∧
    t.nvm = s.nvm ∧ t.otp = s.otp ∧ t.flash = s.flash ∧ t.axes = s.axes ∧ t.coils = s.coils ∧ t.cmds = s.cmds := by
  have field {α : Type} (read : State → α) (stays : ∀ x : State, read x.core = read x) : read t = read s := by
    rw [← stays t, ← stays s, h]
  exact ⟨now, field (·.pending) fun _ => rfl, field (·.dev) fun _ => rfl, field (·.boot) fun _ => rfl, field (·.nvm) fun _ => rfl,
    field (·.otp) fun _ => rfl, field (·.flash) fun _ => rfl, field (·.axes) fun _ => rfl, field (·.coils) fun _ => rfl, field (·.cmds) fun _ => rfl⟩

/-! ## IMAGE_VALIDATE (R124, R434) -/

/-- The flash is identified. -/
def State.flashRead (s : State) (id : Nat) : State := s.bt fun b => { b with flashId := id }

/-- The image in slot `x` taken into use. -/
def State.imgTaken (s : State) (x : Nat) : State :=
  let s := ((s.put DEV_BOOTSTAT_NO_IMAGE 0).put DEV_BOOTSTAT_IMG_SLOT x).nv fun m => { m with lastImg := some x }
  (s.setWord 0x4 (W (s.imgSlot x).ver)).bt fun b => { b with imgOk := true, imgSlot := x, stage := 1 }

/-- None is in use. -/
def State.imgNone (s : State) : State :=
  (((s.put DEV_BOOTSTAT_NO_IMAGE 1).setWord 0x4 0).nv fun m => { m with lastImg := none }).bt fun b => { b with imgOk := false, stage := 1 }

/-- What the choice of an image leads to. -/
def State.imgChosen (s : State) : ImgPick → State
  | .noImage => s.imgNone
  | .invalid => s.enterRecovery 3
  | .slot x => ((s.imgTaken x).applyRegs 1).v5Follow

theorem State.imgChosen_eq (u : State) (p : ImgPick) : u.imgChosen p = match p with
    | .noImage =>
      let s := ((u.put DEV_BOOTSTAT_NO_IMAGE 1).setWord 0x4 0).nv fun m => { m with lastImg := none }
      s.bt fun b => { b with imgOk := false, stage := 1 }
    | .invalid => u.enterRecovery 3
    | .slot x =>
      let s := ((u.put DEV_BOOTSTAT_NO_IMAGE 0).put DEV_BOOTSTAT_IMG_SLOT x).nv fun m => { m with lastImg := some x }
      let s := (s.setWord 0x4 (W (s.imgSlot x).ver)).bt fun b => { b with imgOk := true, imgSlot := x, stage := 1 }
      (s.applyRegs 1).v5Follow := by
  cases p with
  | noImage => exact id rfl
  | invalid => rfl
  | slot x => exact id rfl

theorem State.imgChosen_noImage (u : State) : u.imgChosen .noImage = u.imgNone := rfl
theorem State.imgChosen_invalid (u : State) : u.imgChosen .invalid = u.enterRecovery 3 := rfl
theorem State.imgChosen_slot (u : State) (x : Nat) : u.imgChosen (.slot x) = ((u.imgTaken x).applyRegs 1).v5Follow := rfl

section
variable {ident : BitVec 24}

theorem exec_imageValidate (load : (s.tickTo dt).dev = .configLoad) (start : (s.tickTo dt).boot.stage = 0) (por : (s.tickTo dt).boot.fromCore = false)
    (up : (s.tickTo dt).surveyorUp = true) :
    exec (.imageValidate dt ident) s = done (((s.tickTo dt).flashRead ident.toNat).imgChosen ((s.tickTo dt).imgPick ident.toNat)) := by
  rw [State.imgChosen_eq]
  exact congrArg done (if_neg (by rw [load, start, por, up]; decide))

theorem imageValidate_stands :
    let u := s.tickTo dt
    (u.dev ≠ .configLoad ∨ u.boot.stage ≠ 0 ∨ u.boot.fromCore = true ∨ u.surveyorUp = false) →
    ∃ t, Machine.exec (.imageValidate dt ident) s = .next t ∧ u.sameBut t [] := by
  intro u idle
  have off : (u.dev != .configLoad || decide (u.boot.stage ≠ 0) || u.boot.fromCore || !u.surveyorUp) = true := by
    simp only [Bool.or_eq_true, bne_iff_ne, decide_eq_true_eq, Bool.not_eq_true', or_assoc]
    exact idle
  exact exec_same (congrArg done (if_pos off))

theorem State.imgNone_leaves (u : State) (k : Nat) :
    let t := (u.flashRead k).imgNone.settle
    ({ u with boot := { u.boot with flashId := k, imgOk := false, stage := 1 }, nvm := { u.nvm with lastImg := none } }).sameBut t [0x4, 0x12] ∧
      t.word 0x4 = 0 ∧ t.word 0x12 = (u.put DEV_BOOTSTAT_NO_IMAGE 1).word 0x12 := by
  have none_ := ((((((State.sameBut.refl (s := u) (A := [0x4, 0x12])).bt fun b => { b with flashId := k }).put DEV_BOOTSTAT_NO_IMAGE 1 (by decide)).setWord
    0x4 0 (by decide)).nv fun m => { m with lastImg := none }).bt fun b => { b with imgOk := false, stage := 1 })
  refine ⟨none_.settle, ?_, ?_⟩
  · rw [State.settle_word _ _ (by decide)]
    unfold State.imgNone
    rw [State.bt_word, State.nv_word, State.setWord_word_same]
  · rw [State.settle_word _ _ (by decide)]
    unfold State.imgNone
    rw [State.bt_word, State.nv_word, State.setWord_word_ne _ _ _ _ (by decide)]
    rfl

/-- The image in slot `x` is in use, and only registers, the field clock and the supplies may have moved beside. -/
def State.imgUsed (s t : State) (k x : Nat) : Prop :=
  t.now = s.now ∧ t.pending = s.pending ∧ t.dev = s.dev ∧
    t.boot = { s.boot with flashId := k, imgOk := true, imgSlot := x, stage := 1 } ∧ t.nvm = { s.nvm with lastImg := some x } ∧
    t.otp = s.otp ∧ t.flash = s.flash ∧ t.axes = s.axes ∧ t.coils = s.coils ∧ t.cmds = s.cmds

theorem State.imgTaken_leaves (u : State) (k x : Nat) : u.imgUsed (((u.flashRead k).imgTaken x).applyRegs 1).v5Follow.settle k x := by
  have taken : ((u.flashRead k).imgTaken x).unwritten = ({ u with
      boot := { u.boot with flashId := k, imgOk := true, imgSlot := x, stage := 1 }, nvm := { u.nvm with lastImg := some x } } : State).unwritten := id rfl
  have written := (((u.flashRead k).imgTaken x).applyRegs_unwritten 1).trans taken
  obtain ⟨now, bare⟩ := (((u.flashRead k).imgTaken x).applyRegs 1).v5Follow_bare
  have step := State.settle_step (((u.flashRead k).imgTaken x).applyRegs 1).v5Follow
  generalize ((u.flashRead k).imgTaken x).applyRegs 1 = r at written now bare step ⊢
  obtain ⟨now', core⟩ := State.core_of_parts written now bare step
  exact State.core_parts now' core

theorem imageValidate_chooses :
    let u := s.tickTo dt
    let pick := u.imgPick ident.toNat
    u.dev = .configLoad → u.boot.stage = 0 → u.boot.fromCore = false → u.surveyorUp = true →
    ∃ t, Machine.exec (.imageValidate dt ident) s = .next t ∧
      (pick = .noImage →
        ({ u with boot := { u.boot with flashId := ident.toNat, imgOk := false, stage := 1 }, nvm := { u.nvm with lastImg := none } }).sameBut t [0x4, 0x12] ∧
        t.word 0x4 = 0 ∧       t.word 0x12 = (u.put DEV_BOOTSTAT_NO_IMAGE 1).word 0x12) ∧
      (pick = .invalid → ({ u with boot := { u.boot with flashId := ident.toNat } }).recovers t 3 []) ∧
      ∀ x : Fin 2, pick = .slot x →
        t.now = u.now ∧ t.pending = u.pending ∧ t.dev = .configLoad ∧
        t.boot = { u.boot with flashId := ident.toNat, imgOk := true, imgSlot := x, stage := 1 } ∧ t.nvm = { u.nvm with lastImg := some x.val } ∧
        t.otp = u.otp ∧ t.flash = u.flash ∧ t.axes = u.axes ∧ t.coils = u.coils ∧ t.cmds = u.cmds := by
  intro u pick load start por up
  have out := exec_imageValidate (ident := ident) load start por up
  cases chosen : u.imgPick ident.toNat with
  | noImage =>
    rw [chosen, State.imgChosen_noImage] at out
    refine exec_next out ⟨fun _ => u.imgNone_leaves _, fun e => ?_, fun x e => ?_⟩ <;> exact absurd (chosen.symm.trans e) nofun
  | invalid =>
    rw [chosen, State.imgChosen_invalid] at out
    refine exec_next out ⟨fun e => ?_, fun _ => .of_enter .refl (by decide), fun x e => ?_⟩ <;> exact absurd (chosen.symm.trans e) nofun
  | slot y =>
    rw [chosen, State.imgChosen_slot] at out
    obtain ⟨t, next, kept⟩ := exec_next (Q := fun t => u.imgUsed t ident.toNat y) out (u.imgTaken_leaves ident.toNat y)
    refine ⟨t, next, fun e => absurd (chosen.symm.trans e) nofun, fun e => absurd (chosen.symm.trans e) nofun, fun x e => ?_⟩
    obtain ⟨now, pending, dev, kept⟩ := kept
    obtain rfl : y = x := ImgPick.slot.inj (chosen.symm.trans e)
    exact ⟨now, pending, dev.trans load, kept⟩

end

/-- The choice of firmware, whichever it is. -/
theorem firmwareSelect_chooses :
    let u := s.tickTo dt
    let ok := fun (x : Fin 2) => u.nvm.fw[x].rd.fwValid u.boot.opts (u.g DEV_REV_REV)
    let pick := u.nvm.fwOrder.find? ok
    let bad := u.nvm.fwOrder.takeWhile fun x => !ok x
    let nvm : Nvm := { u.nvm with fw := Vector.ofFn fun (x : Fin 2) => if x ∈ bad then { u.nvm.fw[x] with state := 3 } else u.nvm.fw[x] }
    let wait := u.boot.fromCore && !u.flMay && !u.flOn
    u.dev = .boot → u.surveyorUp = true → u.boot.failRead = 0 →
    ∃ t, Machine.exec (.firmwareSelect dt) s = .next t ∧
      (pick = none → ({ u with nvm := nvm, boot := { u.boot with pulseEnd := t.boot.pulseEnd } }).recovers t 2 ((List.range 16).map (0x1000210 + ·))) ∧
      ∀ x ∈ pick,
        ({ u with
          dev := .configLoad, nvm := { nvm with
            lastFw := x.val, lastTrial := u.nvm.fw[x].state == 2, failcnt := if wait then 0 else u.nvm.failcnt },
          boot := { u.boot with
            fwRunning := true, stage := if u.boot.fromCore then 2 else 0, wdOn := u.boot.wdOn && !wait, pulseEnd := t.boot.pulseEnd } }).sameBut t
            ([0x3, 0x10, 0x12, 0x1000005] ++ (List.range 16).map (0x1000210 + ·)) ∧
        t.g DEV_BOOTSTAT_FW_SLOT = x.val ∧ t.g DEV_BOOTSTAT_FAILCNT = (if wait then 0 else u.g DEV_BOOTSTAT_FAILCNT) ∧
        t.gb DEV_STATE_WAIT_FL = (wait || u.gb DEV_STATE_WAIT_FL) ∧ t.gb MG_SV_STAT_FW = true := by
  intro u ok pick bad nvm wait boot up first
  cases chosen : u.nvm.fwOrder.find? u.fwOk with
  | none =>
    obtain ⟨t, out, fails⟩ := firmwareSelect_fails boot up first chosen
    exact ⟨t, out, fun _ => fails, fun x mem => absurd (chosen.symm.trans mem) (by simp)⟩
  | some y =>
    obtain ⟨t, out, takes⟩ := firmwareSelect_takes boot up first y chosen
    refine ⟨t, out, fun none_ => absurd (chosen.symm.trans none_) (by simp), fun x mem => ?_⟩
    obtain rfl : y = x := Option.some.inj (chosen.symm.trans mem)
    exact takes

/-- Settles O20: firmware and image, by the choice that the stores lead to. -/
theorem firmwareAndImage : Obligations.FirmwareAndImage :=
  ⟨fun _ _ => firmwareSelect_chooses, fun _ _ => firmwareSelect_stands, fun _ _ _ => imageValidate_chooses, fun _ _ _ => imageValidate_stands⟩

end Sys2Proof.Machine
end

section
/-!
PROOF. What a tick leaves of event 0 and of the SAFE causes: one lemma per operation, in the order of the definitions.
-/

namespace Sys2Proof.Machine

open Host

/-! ## What a tick leaves alone of event 0 and of the SAFE causes -/

/-- Where event 0 is pending in `o` or a SAFE cause is active, so it is in `s`. -/
structure State.alarms (o s : State) : Prop where
  raised : o.evPending 0 = true → s.evPending 0 = true
  standing : o.g DEV_STATE_SAFE_CAUSE ≠ 0 → s.g DEV_STATE_SAFE_CAUSE ≠ 0

/-- A field neither of DEV_STATE nor of DEV_EVST of group 0. -/
def Fld.aside (f : Fld) : Bool := f.a != 0x10 && f.a != 0x20E

theorem Fld.aside_iff (f : Fld) : f.aside = true ↔ f.a ≠ 0x10 ∧ f.a ≠ 0x20E := by simp [Fld.aside]

theorem Fld.aside_of {f : Fld} (h : f.a ≠ 0x10 ∧ f.a ≠ 0x20E) : f.aside = true := f.aside_iff.2 h

theorem cntFld_aside (m : Mem) {k : Nat} (h : k < 2) : (cntFld m k).aside := by
  rw [Fld.aside_iff]
  cases m <;> simp [cntFld] <;> omega

/-- A group takes buffered fields only, and neither register has one. -/
theorem groupAddrs_aside (g : Fin 11) (a : Nat) (mem : a ∈ groupAddrs g) : Fld.aside ⟨a, 0, 0⟩ = true := by
  have buffered : hasBuffered a = true := (List.mem_filter.1 mem).2
  refine Fld.aside_of ⟨fun (state : a = 0x10) => ?_, fun (pend : a = 0x20E) => ?_⟩
  · exact absurd (state ▸ buffered) (by decide +kernel)
  · exact absurd (pend ▸ buffered) (by decide +kernel)

namespace State.alarms

variable {o s t : State}

theorem refl : o.alarms o := ⟨id, id⟩

theorem trans (h : o.alarms s) (k : s.alarms t) : o.alarms t := ⟨fun was => k.raised (h.raised was), fun was => k.standing (h.standing was)⟩

/-- A step on which causes and pending events only rise. -/
theorem worse (h : o.alarms s) (k : s.graver t) : o.alarms t := by
  refine ⟨fun pend => k.pend 0 (by decide) (h.raised pend), fun cause => ?_⟩
  obtain ⟨i, up⟩ : ∃ i, bit (s.g DEV_STATE_SAFE_CAUSE) i = true := by
    obtain ⟨i, hi⟩ := Nat.exists_testBit_of_ne_zero (h.standing cause)
    exact ⟨i, by simpa [bit, Nat.testBit_eq_decide_div_mod_eq] using hi⟩
  intro none
  have := k.cause i up
  rw [none] at this
  simp [bit] at this

theorem setWord (h : o.alarms s) (a : Nat) (w : Word) (ha : Fld.aside ⟨a, 0, 0⟩) : o.alarms (s.setWord a w) := by
  obtain ⟨dev, ev⟩ := (Fld.aside_iff _).1 ha
  have state : (s.setWord a w).g DEV_STATE_SAFE_CAUSE = s.g DEV_STATE_SAFE_CAUSE := State.word_eq_of_g _ _ _ (s.setWord_word_ne _ _ _ dev)
  have pend : (s.setWord a w).evPending 0 = s.evPending 0 :=
    congrArg (bit · 0) (State.word_eq_of_g s (s.setWord a w) (DEV_EVST_PEND 0) (s.setWord_word_ne _ _ _ ev))
  exact ⟨fun was => pend.trans (h.raised was), fun was => state.trans_ne (h.standing was)⟩

theorem put (h : o.alarms s) (f : Fld) (v : Nat) (hf : f.aside) : o.alarms (s.put f v) := h.setWord _ _ hf
theorem putB (h : o.alarms s) (f : Fld) (v : Bool) (hf : f.aside) : o.alarms (s.putB f v) := h.put _ _ hf
theorem putI (h : o.alarms s) (f : Fld) (v : Int) (hf : f.aside) : o.alarms (s.putI f v) := h.put _ _ hf
theorem putBit (h : o.alarms s) (f : Fld) (i : Nat) (v : Bool) (hf : f.aside) : o.alarms (s.putBit f i v) := h.put _ _ hf
theorem addSat (h : o.alarms s) (f : Fld) (k : Nat) (hf : f.aside) : o.alarms (s.addSat f k) := h.put _ _ hf
theorem inc (h : o.alarms s) (f : Fld) (hf : f.aside) : o.alarms (s.inc f) := h.put _ _ hf

theorem ite {c : Prop} [Decidable c] (h : o.alarms s) (k : o.alarms t) : o.alarms (if c then s else t) := by
  split
  · exact h
  · exact k

theorem foldl {ι : Type} {l : List ι} {f : State → ι → State} (each : ∀ x i, o.alarms x → o.alarms (f x i)) (h : o.alarms s) :
    o.alarms (l.foldl f s) := foldl_ind (fun t => o.alarms t) l f each s h

theorem forFin {k : Nat} {f : Fin k → State → State} (each : ∀ i x, o.alarms x → o.alarms (f i x)) (h : o.alarms s) :
    o.alarms (Machine.forFin k f s) := forFin_ind (fun t => o.alarms t) k f each s h

/-- A change of no register. -/
theorem upd {pending now dev staged groups links grelas mbox indQ window cmds nextId lastEnd backlog rings evq evLost levels cap tick arb ecc axes coils stations ctxs store chain chainOut chainRst chainRej chainReach chainStall chainMode boot power surv nvm otp flash free cyc}
    (h : o.alarms s) :
    o.alarms ⟨⟨dev, s.regs, staged, groups, links, grelas, mbox, indQ, window, cmds, nextId, lastEnd, backlog, rings, evq, evLost, levels, cap, tick, arb, ecc, axes, coils, stations, ctxs, store, chain, chainOut, chainRst, chainRej, chainReach, chainStall, chainMode, boot, power, surv, nvm, otp, flash, free⟩, pending, now, cyc⟩ := ⟨h.raised, h.standing⟩

theorem ax (h : o.alarms s) (n : Fin 8) (f : Axis → Axis) : o.alarms (s.ax n f) := h.upd
theorem mon (h : o.alarms s) (n : Fin 8) (f : MonSt → MonSt) : o.alarms (s.mon n f) := h.upd
theorem co (h : o.alarms s) (c : Fin 16) (f : Coil → Coil) : o.alarms (s.co c f) := h.upd
theorem stn (h : o.alarms s) (x : Fin 2) (f : Station → Station) : o.alarms (s.stn x f) := h.upd
theorem svu (h : o.alarms s) (x : Fin 2) (f : SurveySt → SurveySt) : o.alarms (s.svu x f) := h.upd
theorem ctx (h : o.alarms s) (x : Fin 4) (f : Ctx → Ctx) : o.alarms (s.ctx x f) := h.upd
theorem ring (h : o.alarms s) (q : Fin 5) (f : RecRing → RecRing) : o.alarms (s.ring q f) := h.upd
theorem bt (h : o.alarms s) (f : BootSt → BootSt) : o.alarms (s.bt f) := h.upd
theorem su (h : o.alarms s) (f : SurvSt → SurvSt) : o.alarms (s.su f) := h.upd
theorem mm (h : o.alarms s) (m : Mem) (f : EccSt → EccSt) : o.alarms (s.mm m f) := h.upd
theorem useFree (h : o.alarms s) : o.alarms s.useFree := h.upd

/-- The same registers. -/
theorem regs (h : o.alarms s) (same : t.regs = s.regs) : o.alarms t := by
  have word (a : Nat) : t.word a = s.word a := congrArg (fun m => kvGet m a (resetWord a)) same
  exact h.trans ⟨fun was => (congrArg (bit · 0) (State.word_eq_of_g s t (DEV_EVST_PEND 0) (word _))).trans was,
    fun was => (State.word_eq_of_g s t DEV_STATE_SAFE_CAUSE (word _)).trans_ne was⟩

theorem resetRegs (h : o.alarms s) (p : Nat → Bool) (dev : p 0x10 = false) (ev : p 0x20E = false) : o.alarms (s.resetRegs p) := by
  have word (a : Nat) (out : p a = false) : (s.resetRegs p).word a = s.word a := kvGet_kvDrop _ _ _ _ out
  exact h.trans ⟨fun was => (congrArg (bit · 0) (State.word_eq_of_g s (s.resetRegs p) (DEV_EVST_PEND 0) (word _ ev))).trans was,
    fun was => (State.word_eq_of_g s (s.resetRegs p) DEV_STATE_SAFE_CAUSE (word _ dev)).trans_ne was⟩

/-! ### Operations on which causes and pending events only rise -/

theorem axisFault (h : o.alarms s) (n : Fin 8) (pwr ax st : Nat) : o.alarms (s.axisFault n pwr ax st) := h.worse (State.axisFault_graver _ n pwr ax st .refl)
theorem axisFaultIf (h : o.alarms s) (n : Fin 8) (pwr ax st : Nat) : o.alarms (s.axisFaultIf n pwr ax st) :=
  h.worse (State.axisFaultIf_graver _ n pwr ax st .refl)
theorem bridgesOff (h : o.alarms s) (n : Fin 8) : o.alarms (s.bridgesOff n) := h.worse (State.bridgesOff_graver _ n .refl)
theorem capture (h : o.alarms s) (item idx : Nat) (ws : List Nat) : o.alarms (s.capture item idx ws) := h.worse (State.capture_graver _ item idx ws .refl)
theorem fbAdd (h : o.alarms s) (typ : Nat) (payload : List Nat) : o.alarms (s.fbAdd typ payload) := h.worse (State.fbAdd_graver _ typ payload .refl)
theorem followLeave (h : o.alarms s) (n : Fin 8) : o.alarms (s.followLeave n) := h.worse (State.followLeave_graver _ n .refl)
theorem gathered {f : State → State} (each : ∀ x, o.alarms x → o.alarms (f x)) (h : o.alarms s) : o.alarms (s.gathered f) := by
  unfold State.gathered
  split
  · exact each _ h
  · exact (each { s with cyc := { s.cyc with ends := some [] } } h.upd).worse (State.flushEnds_graver _ .refl)
theorem memResponse (h : o.alarms s) (m : Mem) (a : Nat) (x : Option (Fin 4)) : o.alarms (s.memResponse m a x) :=
  h.worse (State.memResponse_graver _ m a x .refl)
theorem mwAbandon (h : o.alarms s) : o.alarms s.mwAbandon := h.worse (State.mwAbandon_graver _ .refl)
theorem noteLast (h : o.alarms s) (c : Cmd) (st : Nat) : o.alarms (s.noteLast c st) := h.worse (State.noteLast_graver _ c st .refl)
theorem pulse (h : o.alarms s) (e i d : Nat) (he : e < 64) : o.alarms (s.pulse e i d) := h.worse (State.pulse_graver _ e i d he .refl)
theorem stopCtx (h : o.alarms s) (x : Fin 4) (cause : Nat) : o.alarms (s.stopCtx x cause) := h.worse (State.stopCtx_graver _ x cause .refl)
theorem tripAxis (h : o.alarms s) (n : Fin 8) : o.alarms (s.tripAxis n) := h.worse (State.tripAxis_graver _ n .refl)

/-! ### The operations of a tick, of the coils and of the surveyor -/

theorem cmdUpd (h : o.alarms s) (id : Nat) (f : Cmd → Cmd) : o.alarms (s.cmdUpd id f) := by
  unfold State.cmdUpd
  repeat' with_reducible first | assumption | apply upd

theorem setPh (h : o.alarms s) (id : Nat) (p : Phase) : o.alarms (s.setPh id p) := by
  unfold State.setPh
  repeat' with_reducible first | assumption | apply cmdUpd

theorem markEnd (h : o.alarms s) (id : Nat) (st : Nat) : o.alarms (s.markEnd id st) := by
  unfold State.markEnd
  repeat' first | with_reducible (first | assumption | apply cmdUpd | apply noteLast | apply setPh) | split

theorem doneNow (h : o.alarms s) (id : Nat) : o.alarms (s.doneNow id) := by
  unfold State.doneNow
  repeat' with_reducible first | assumption | apply markEnd

theorem bdu (h : o.alarms s) (n : Fin 8) (f : BackdriveSt → BackdriveSt) : o.alarms (s.bdu n f) := by
  unfold State.bdu
  repeat' with_reducible first | assumption | apply ax

theorem bdEnd (h : o.alarms s) (n : Fin 8) : o.alarms (s.bdEnd n) := by
  unfold State.bdEnd
  repeat' first
    | with_reducible (first | assumption | apply ite | apply bdu | apply capture | apply fbAdd | apply inc | apply put | apply putB)
    | exact Fld.aside_of (by constructor <;> simp <;> omega)

theorem mwLeave (h : o.alarms s) (n : Fin 8) : o.alarms (s.mwLeave n) := by
  unfold State.mwLeave
  repeat' with_reducible first | assumption | apply ite | apply mwAbandon

theorem doEnable (h : o.alarms s) (n : Fin 8) : o.alarms (s.doEnable n) := by
  unfold State.doEnable
  repeat' first
    | with_reducible (first | assumption | apply ite | apply ax | apply bdEnd | apply mwLeave | apply put)
    | exact Fld.aside_of (by constructor <;> simp <;> omega)

theorem doRelease (h : o.alarms s) (n : Fin 8) : o.alarms (s.doRelease n) := by
  unfold State.doRelease
  repeat' with_reducible first | assumption | apply ite | apply ax | apply bridgesOff

theorem flushRing (h : o.alarms s) (r : Nat) : o.alarms (s.flushRing r).1 := by
  unfold State.flushRing
  repeat' first | intro _ | with_reducible (first | assumption | apply ite | apply foldl | apply markEnd | apply stn)

theorem cause (h : o.alarms s) (id : Nat) (st : Nat) : o.alarms (s.cause id st) := by
  unfold State.cause
  repeat' with_reducible first | assumption | apply cmdUpd

theorem stopMove (h : o.alarms s) (t : Fin 2) (quick : Bool) (st : List Nat) : o.alarms (s.stopMove t quick st) := by
  unfold State.stopMove
  repeat' first | intro _ | with_reducible (first | assumption | apply foldl | apply ax | apply cause | apply markEnd | apply stn) | split

theorem quiesce (h : o.alarms s) (n : Fin 8) (dec : Nat) (j : Nat) (k : Nat) : o.alarms (s.quiesce n dec j k) := by
  unfold State.quiesce
  repeat' with_reducible first | assumption | apply ite | apply ax

theorem stopAxis (h : o.alarms s) (n : Fin 8) (quick : Bool) (st : Nat) (k : Nat) : o.alarms (s.stopAxis n quick st k) := by
  unfold State.stopAxis
  repeat' first | with_reducible (first | assumption | apply ite | apply ax | apply cause | apply followLeave | apply quiesce) | split

theorem applyWait (h : o.alarms s) (id : Nat) (w : List Nat) : o.alarms (s.applyWait id w) := by
  unfold State.applyWait
  repeat' with_reducible first | assumption | apply cmdUpd

theorem doStop (h : o.alarms s) (n : Fin 8) (c : Cmd) : o.alarms (s.doStop n c) := by
  unfold State.doStop
  repeat' first | with_reducible (first | assumption | apply applyWait | apply flushRing | apply stopAxis | apply stopMove) | split

theorem doClearFault (h : o.alarms s) (n : Fin 8) : o.alarms (s.doClearFault n) := by
  unfold State.doClearFault
  repeat' first | with_reducible (first | assumption | apply ax | apply put) | exact Fld.aside_of (by constructor <;> simp <;> omega)

theorem recoord (h : o.alarms s) (n : Fin 8) (p : Int) (m : Int) : o.alarms (s.recoord n p m) := by
  unfold State.recoord
  repeat' with_reducible first | assumption | apply ax

theorem doSetPosition (h : o.alarms s) (n : Fin 8) (c : Cmd) : o.alarms (s.doSetPosition n c) := by
  unfold State.doSetPosition
  repeat' first
    | with_reducible (first | assumption | apply ax | apply putB | apply recoord)
    | exact Fld.aside_of (by constructor <;> simp <;> omega)

theorem ob (h : o.alarms s) (n : Fin 8) (f : ObsSt → ObsSt) : o.alarms (s.ob n f) := by
  unfold State.ob
  repeat' with_reducible first | assumption | apply ax

theorem enterMotion (h : o.alarms s) (n : Fin 8) (st : AxState) : o.alarms (s.enterMotion n st) := by
  unfold State.enterMotion
  repeat' with_reducible first | assumption | apply ite | apply ax | apply ob

theorem followOn (h : o.alarms s) (n : Fin 8) : o.alarms (s.followOn n) := by
  unfold State.followOn
  repeat' first
    | with_reducible (first | assumption | apply ax | apply enterMotion | apply setWord)
    | exact Fld.aside_of (by constructor <;> simp <;> omega)

theorem stakeStart (h : o.alarms s) (n : Fin 8) (c : Cmd) (base : Int) : o.alarms (s.stakeStart n c base) := by
  unfold State.stakeStart
  repeat' first
    | with_reducible (first | assumption | apply ax | apply enterMotion | apply put)
    | exact Fld.aside_of (by constructor <;> simp <;> omega)

theorem doReplace (h : o.alarms s) (n : Fin 8) (c : Cmd) : o.alarms (s.doReplace n c) := by
  unfold State.doReplace
  repeat' first | with_reducible (first | assumption | apply ite | apply cmdUpd | apply markEnd | apply stakeStart) | split

theorem doStationStop (h : o.alarms s) (t : Fin 2) (c : Cmd) : o.alarms (s.doStationStop t c) := by
  unfold State.doStationStop
  repeat' first | with_reducible (first | assumption | apply applyWait | apply flushRing | apply stopMove) | split

theorem cancelOne (h : o.alarms s) (id : Nat) (quick : Bool) : o.alarms (s.cancelOne id quick) := by
  unfold State.cancelOne
  repeat' first
    | intro _
    | with_reducible (first | assumption | apply foldl | apply markEnd | apply stn | apply stopAxis | apply stopMove)
    | split

theorem doCancelTag (h : o.alarms s) (c : Cmd) : o.alarms (s.doCancelTag c) := by
  unfold State.doCancelTag
  repeat' first | intro _ | with_reducible (first | assumption | apply ite | apply foldl | apply applyWait | apply cancelOne | apply cmdUpd)

theorem doCancelRing (h : o.alarms s) (c : Cmd) : o.alarms (s.doCancelRing c) := by
  unfold State.doCancelRing
  repeat' first | intro _ | with_reducible (first | assumption | apply foldl | apply applyWait | apply cancelOne)

theorem progStart (h : o.alarms s) (x : Fin 4) (entry : Nat) : o.alarms (s.progStart x entry) := by
  unfold State.progStart
  repeat' with_reducible first | assumption | apply ctx

theorem applyOp (h : o.alarms s) (c : Cmd) : o.alarms (s.applyOp c) := by
  unfold State.applyOp
  repeat' first
    | with_reducible (first | assumption | apply applyWait | apply doCancelRing | apply doCancelTag | apply doClearFault | apply doEnable)
    | with_reducible (first | apply doRelease | apply doReplace | apply doSetPosition | apply doStationStop | apply doStop | apply doneNow)
    | with_reducible (first | apply followOn | apply progStart | apply stopAxis | apply stopCtx)
    | split

theorem applyImm (h : o.alarms s) (id : Nat) : o.alarms (s.applyImm id) := by
  unfold State.applyImm
  repeat' first | with_reducible (first | assumption | apply applyOp | apply markEnd) | split

theorem applyImms (h : o.alarms s) : o.alarms s.applyImms := by
  unfold State.applyImms
  repeat' first | intro _ | with_reducible (first | assumption | apply foldl | apply applyImm)

theorem takeSetpoint (h : o.alarms s) (c : Fin 16) : o.alarms (s.takeSetpoint c) := by
  unfold State.takeSetpoint
  repeat' with_reducible first | assumption | apply ite | apply co

theorem transfer (h : o.alarms s) (c : Fin 16) : o.alarms (s.transfer c) := by
  unfold State.transfer
  repeat' first
    | with_reducible (first | assumption | apply co | apply put | apply putB)
    | exact Fld.aside_of (by constructor <;> simp <;> omega)
    | split

theorem takeMode (h : o.alarms s) (c : Fin 16) : o.alarms (s.takeMode c) := by
  unfold State.takeMode
  repeat' first
    | with_reducible (first | assumption | apply ite | apply co | apply put)
    | exact Fld.aside_of (by constructor <;> simp <;> omega)

theorem testDuty (h : o.alarms s) (c : Fin 16) : o.alarms (s.testDuty c) := by
  unfold State.testDuty
  repeat' with_reducible first | assumption | apply ite | apply ax

theorem slotPlan (h : o.alarms s) (c : Fin 16) (l : Nat) (chop : Bool) : o.alarms (s.slotPlan c l chop).1 := by
  unfold State.slotPlan
  repeat' first
    | with_reducible (first | assumption | apply addSat | apply put)
    | exact Fld.aside_of (by constructor <;> simp <;> omega)
    | split
    | dsimp only

theorem settleSlot (h : o.alarms s) (c : Fin 16) (es : List Nat) (tb : Nat) (l : Nat) (acc : List (Nat × Nat)) (x : Nat × Nat) :
    o.alarms (s.settleSlot c es tb l acc x).1 := by
  unfold State.settleSlot
  repeat' first
    | with_reducible (first | assumption | apply inc)
    | exact Fld.aside_of (by constructor <;> simp <;> omega)
    | split
    | dsimp only

theorem slotsFixed (h : o.alarms s) (c : Fin 16) (l : Nat) (es : List Nat) : o.alarms (s.slotsFixed c l es) := by
  unfold State.slotsFixed
  dsimp only
  exact (foldl_ind (fun a : State × List (Nat × Nat) => o.alarms a.1) _ _ (fun _ x k => k.settleSlot c es _ l _ x) (_, [])
    (h.slotPlan c l false)).co c _

theorem fixedPeriod (h : o.alarms s) (c : Fin 16) (pj : Nat) (p16 : Nat) (j : Nat) : o.alarms (s.fixedPeriod c pj p16 j) := by
  unfold State.fixedPeriod
  repeat' first
    | with_reducible (first | assumption | apply ite | apply co | apply inc | apply put | apply putB | apply slotsFixed)
    | exact Fld.aside_of (by constructor <;> simp <;> omega)

theorem relayOn (h : o.alarms s) (c : Fin 16) (pj : Nat) (j : Nat) : o.alarms (s.relayOn c pj j) := by
  unfold State.relayOn
  repeat' first | with_reducible (first | assumption | apply co) | split

theorem slotsChop (h : o.alarms s) (c : Fin 16) (l : Nat) : o.alarms (s.slotsChop c l) := by
  unfold State.slotsChop
  repeat' with_reducible first | assumption | apply co

theorem chopPeriod (h : o.alarms s) (c : Fin 16) : o.alarms (s.chopPeriod c) := by
  unfold State.chopPeriod
  repeat' first
    | with_reducible (first | assumption | apply ite | apply co | apply put | apply slotPlan | apply slotsChop)
    | exact Fld.aside_of (by constructor <;> simp <;> omega)

theorem boundary (h : o.alarms s) (c : Fin 16) (pulse : Option (Nat × Nat)) (start : Bool) : o.alarms (s.boundary c pulse start) := by
  unfold State.boundary
  repeat' first
    | with_reducible (first | assumption | apply ite | apply chopPeriod | apply fixedPeriod | apply inc | apply put | apply relayOn)
    | with_reducible (first | apply takeMode | apply takeSetpoint | apply testDuty | apply transfer)
    | exact Fld.aside_of (by constructor <;> simp <;> omega)

theorem unpair (h : o.alarms s) (t : Fin 2) (p : Nat) (same : Bool) : o.alarms (s.unpair t p same) := by
  unfold State.unpair
  repeat' first | intro _ | with_reducible (first | assumption | apply foldl | apply markEnd | apply stn) | split

theorem bdStop (h : o.alarms s) (n : Fin 8) : o.alarms (s.bdStop n) := by
  unfold State.bdStop
  repeat' first | with_reducible (first | assumption | apply bdu | apply put) | exact Fld.aside_of (by constructor <;> simp <;> omega)

theorem bdTick (h : o.alarms s) (n : Fin 8) : o.alarms (s.bdTick n) := by
  unfold State.bdTick
  repeat' first
    | with_reducible (first | assumption | apply ite | apply bdStop | apply bdu | apply put)
    | exact Fld.aside_of (by constructor <;> simp <;> omega)

theorem dpt (h : o.alarms s) (n : Fin 8) (f : DatumSt → DatumSt) : o.alarms (s.dpt n f) := by
  unfold State.dpt
  repeat' with_reducible first | assumption | apply ax

theorem memFirst (h : o.alarms s) (m : Mem) (a : Nat) (uncorr : Bool) (scrub : Bool) (sym : Nat) : o.alarms (s.memFirst m a uncorr scrub sym) := 
  (h.setWord 0x66 _ (by decide)).regs rfl

theorem memCorrected (h : o.alarms s) (m : Mem) (a : Nat) (sym : Nat) (scrub : Bool) : o.alarms (s.memCorrected m a sym scrub) := by
  unfold State.memCorrected
  repeat' first
    | with_reducible (first | assumption | apply ite | apply inc | apply memFirst | apply mm | apply pulse)
    | with_reducible exact cntFld_aside m (by decide)
    | decide

theorem memUncorr (h : o.alarms s) (m : Mem) (a : Nat) (scrub : Bool) (x : Option (Fin 4)) : o.alarms (s.memUncorr m a scrub x) := by
  unfold State.memUncorr
  repeat' with_reducible first | assumption | apply inc | apply memFirst | apply memResponse | exact cntFld_aside m (by decide)

theorem memRead (h : o.alarms s) (m : Mem) (a : Nat) (scrub : Bool) (x : Option (Fin 4)) : o.alarms (s.memRead m a scrub x) := by
  unfold State.memRead
  repeat' with_reducible first | assumption | apply ite | apply memCorrected | apply memUncorr | apply useFree

theorem dpRestart (h : o.alarms s) (n : Fin 8) : o.alarms (s.dpRestart n) := by
  unfold State.dpRestart
  repeat' first
    | with_reducible (first | assumption | apply dpt | apply put | apply setWord)
    | exact Fld.aside_of (by constructor <;> simp <;> omega)

theorem idStat (h : o.alarms s) (n : Fin 8) : o.alarms (s.idStat n) := by
  unfold State.idStat
  repeat' first
    | with_reducible (first | assumption | apply put | apply putB | apply putBit)
    | exact Fld.aside_of (by constructor <;> simp <;> omega)

theorem monChange (h : o.alarms s) (n : Fin 8) (f : MonSt → MonSt) : o.alarms (s.monChange n f) := by
  unfold State.monChange
  repeat' with_reducible first | assumption | apply ite | apply dpRestart | apply idStat | apply mon

theorem homePhase (h : o.alarms s) (n : Fin 8) (hm : HomeSt) (ph : Nat) (k : Nat) : o.alarms (s.homePhase n hm ph k) := by
  unfold State.homePhase
  repeat' first | with_reducible (first | assumption | apply ax | apply put) | exact Fld.aside_of (by constructor <;> simp <;> omega)

theorem setField (h : o.alarms s) (a : Nat) (r : FRow) (v : Nat) (ha : Fld.aside ⟨a, 0, 0⟩) : o.alarms (s.setField a r v) := h.put _ _ ha

theorem svRun (h : o.alarms s) (st : Fin 2) (kind : Nat) (idx : Nat) : o.alarms (s.svRun st kind idx) := by
  unfold State.svRun
  repeat' with_reducible first | assumption | apply svu

theorem svInj (h : o.alarms s) (st : Fin 2) : o.alarms (s.svInj st) := by
  unfold State.svInj
  repeat' first
    | with_reducible (first | assumption | apply put | apply svRun | apply svu)
    | exact Fld.aside_of (by constructor <;> simp <;> omega)
    | split

theorem svHk (h : o.alarms s) (st : Fin 2) (ends : Bool) : o.alarms (s.svHk st ends) := by
  unfold State.svHk
  repeat' with_reducible first | assumption | apply svRun | apply svu

theorem svRound (h : o.alarms s) (st : Fin 2) : o.alarms (s.svRound st) := by
  unfold State.svRound
  repeat' first
    | with_reducible (first | assumption | apply ite | apply put | apply putB | apply svHk | apply svRun | apply svu)
    | exact Fld.aside_of (by constructor <;> simp <;> omega)

theorem svNext (h : o.alarms s) (st : Fin 2) : o.alarms (s.svNext st) := by
  unfold State.svNext
  repeat' first
    | with_reducible (first | assumption | apply ite | apply put | apply svHk | apply svInj | apply svRound | apply svu)
    | exact Fld.aside_of (by constructor <;> simp <;> omega)
    | split

theorem svWork (h : o.alarms s) (st : Fin 2) (b : Nat) : o.alarms (s.svWork st b) := by
  unfold State.svWork
  repeat' first
    | with_reducible (first | assumption | apply ite | apply put | apply svNext | apply svu)
    | exact Fld.aside_of (by constructor <;> simp <;> omega)

theorem surveyStart (h : o.alarms s) : o.alarms s.surveyStart := by
  unfold State.surveyStart
  repeat' first | intro _ | with_reducible (first | assumption | apply ite | apply forFin | apply svWork | apply svu)

theorem rstMoves (h : o.alarms s) (n : Fin 8) : o.alarms (s.rstMoves n) := by
  unfold State.rstMoves
  repeat' first | intro _ | with_reducible (first | assumption | apply ite | apply foldl | apply markEnd | apply stopMove)

theorem rstBegin (h : o.alarms s) (n : Fin 8) : o.alarms (s.rstBegin n) := by
  unfold State.rstBegin
  repeat' first
    | intro _
    | with_reducible (first | assumption | apply ite | apply foldl | apply ax | apply markEnd | apply rstMoves | apply stopAxis)

theorem pinActs (h : o.alarms s) (n : Fin 8) : o.alarms (s.pinActs n) := by
  unfold State.pinActs
  repeat' first
    | with_reducible (first | assumption | apply ite | apply ax | apply dpRestart | apply idStat | apply put | apply putB)
    | exact Fld.aside_of (by constructor <;> simp <;> omega)

theorem pinApply (h : o.alarms s) (n : Fin 8) (w : Nat) : o.alarms (s.pinApply n w) := by
  unfold State.pinApply
  repeat' first
    | with_reducible (first | assumption | apply ax | apply pinActs | apply put | apply setWord)
    | exact Fld.aside_of (by constructor <;> simp <;> omega)

theorem pinOffer (h : o.alarms s) (n : Fin 8) (w : Nat) : o.alarms (s.pinOffer n w) := by
  unfold State.pinOffer
  repeat' first
    | with_reducible (first | assumption | apply ite | apply ax | apply pinApply | apply put)
    | exact Fld.aside_of (by constructor <;> simp <;> omega)

theorem applyAddr (h : o.alarms s) (snap : RegFile) (a : Nat) (ha : Fld.aside ⟨a, 0, 0⟩) : o.alarms (s.applyAddr snap a) :=
  foldl (fun _ r k => ite (k.setField a r _ ha) k) h

theorem ceilTick (h : o.alarms s) : o.alarms s.ceilTick := by
  unfold State.ceilTick
  repeat' first | with_reducible (first | assumption | apply bt | apply su) | split

theorem moveTick (h : o.alarms s) (t : Fin 2) : o.alarms (s.moveTick t) := by
  unfold State.moveTick
  repeat' first
    | intro _
    | with_reducible (first | assumption | apply foldl | apply cause | apply put | apply putB | apply stn)
    | exact Fld.aside_of (by constructor <;> simp <;> omega)
    | split

theorem dirCheck (h : o.alarms s) (n : Fin 8) : o.alarms (s.dirCheck n) := by
  unfold State.dirCheck
  repeat' first
    | with_reducible (first | assumption | apply ite | apply dpt | apply fbAdd | apply pulse | apply put)
    | exact Fld.aside_of (by constructor <;> simp <;> omega)
    | decide
    | split

theorem idchkStart (h : o.alarms s) (n : Fin 8) (ok : Bool) : o.alarms (s.idchkStart n ok) := by
  unfold State.idchkStart
  repeat' first
    | with_reducible (first | assumption | apply ite | apply ax | apply put | apply setWord)
    | exact Fld.aside_of (by constructor <;> simp <;> omega)

theorem idchkEnd (h : o.alarms s) (n : Fin 8) (res : Nat) : o.alarms (s.idchkEnd n res) := by
  unfold State.idchkEnd
  repeat' first
    | with_reducible (first | assumption | apply ax | apply bridgesOff | apply fbAdd | apply pulse | apply put)
    | exact Fld.aside_of (by constructor <;> simp <;> omega)
    | decide

theorem idZero (h : o.alarms s) (n : Fin 8) : o.alarms (s.idZero n) := by
  unfold State.idZero
  repeat' first
    | with_reducible (first | assumption | apply ax | apply put)
    | exact Fld.aside_of (by constructor <;> simp <;> omega)
    | split

theorem idchkTick (h : o.alarms s) (n : Fin 8) : o.alarms (s.idchkTick n) := by
  unfold State.idchkTick
  repeat' first | with_reducible (first | assumption | apply ax | apply idZero | apply idchkEnd | apply idchkStart) | split | dsimp only

theorem calEnd (h : o.alarms s) (n : Fin 8) (res : Nat) : o.alarms (s.calEnd n res) := by
  unfold State.calEnd
  repeat' first
    | with_reducible (first | assumption | apply fbAdd | apply ob | apply pulse | apply put)
    | exact Fld.aside_of (by constructor <;> simp <;> omega)
    | decide

theorem calAbort (h : o.alarms s) (n : Fin 8) : o.alarms (s.calAbort n) := by
  unfold State.calAbort
  repeat' with_reducible first | assumption | apply ite | apply calEnd

theorem calMark (h : o.alarms s) (n : Fin 8) : o.alarms (s.calMark n) := by
  unfold State.calMark
  repeat' first
    | with_reducible (first | assumption | apply ax | apply calAbort | apply ob | apply put)
    | exact Fld.aside_of (by constructor <;> simp <;> omega)
    | split
    | dsimp only

theorem scrubNext (h : o.alarms s) (m : Mem) : o.alarms (s.scrubNext m) := by
  unfold State.scrubNext
  dsimp only
  refine ite (h.mm _ _) ((h.mm _ _).put _ _ ?_)
  cases m <;> decide

theorem overdue (h : o.alarms s) (k : Nat) : o.alarms (s.overdue k) := by
  induction k generalizing s with
  | zero => exact h
  | succ k ih => exact ite (ih (((h.memRead .motion _ true none).scrubNext .motion).mm .motion _)) h

theorem scrubTick (h : o.alarms s) : o.alarms s.scrubTick := by
  unfold State.scrubTick
  repeat' with_reducible first | assumption | apply ite | apply mm | apply overdue

theorem markRun (h : o.alarms s) : o.alarms (s.markRun) := by
  have moved : o.alarms (Machine.forFin 8 (fun n s => (((s.bdTick n).calMark n).idchkTick n).dirCheck n) ((s.moveTick 0).moveTick 1)) :=
    forFin (fun n _ k => (((k.bdTick n).calMark n).idchkTick n).dirCheck n) ((h.moveTick 0).moveTick 1)
  unfold State.markRun
  dsimp only
  generalize Machine.forFin 8 _ _ = v at moved ⊢
  exact scrubTick (moved.regs rfl)

theorem evMon (h : o.alarms s) (n : Fin 8) (d : Nat) : o.alarms (s.evMon n d) := h.pulse 51 _ _ (by decide)

theorem recordForce (h : o.alarms s) (n : Fin 8) (b : List Byte) : o.alarms (s.recordForce n b) := by
  unfold State.recordForce
  repeat' first
    | with_reducible (first | assumption | apply ite | apply evMon | apply fbAdd | apply monChange | apply put)
    | exact Fld.aside_of (by constructor <;> simp <;> omega)

theorem idTick (h : o.alarms s) (n : Fin 8) : o.alarms (s.idTick n) := by
  unfold State.idTick
  repeat' first | with_reducible (first | assumption | apply recordForce) | split

theorem tickApply (h : o.alarms s) (p : Nat) (src : Nat) : o.alarms (s.tickApply p src) := by
  have sourced (v : State) (k : o.alarms v) : o.alarms { v.put CLK_TICK_STAT_SRC_LOST 0 with tick := { v.tick with lost := false } } :=
    (k.put CLK_TICK_STAT_SRC_LOST 0 (by decide)).regs rfl
  have freed (v : State) (k : o.alarms v) : o.alarms { v with tick := { v.tick with held := none } } := k.regs rfl
  exact freed _ ((((ite (sourced s h) h).put CLK_TICK_CFG_PERIOD p (by decide)).put CLK_TICK_CFG_SRC src (by decide)).put CLK_TICK_STAT_PEND 0
    (by decide))

theorem seqApply (h : o.alarms s) (n : Fin 8) (r : Nat) (e : Nat) : o.alarms (s.seqApply n r e) := by
  unfold State.seqApply
  repeat' first | with_reducible (first | assumption | apply ax | apply put) | exact Fld.aside_of (by constructor <;> simp <;> omega)

theorem dpApply (h : o.alarms s) (n : Fin 8) (inv : Nat) (cpr : Nat) : o.alarms (s.dpApply n inv cpr) := by
  unfold State.dpApply
  repeat' first
    | with_reducible (first | assumption | apply ite | apply dpRestart | apply dpt | apply put)
    | exact Fld.aside_of (by constructor <;> simp <;> omega)

theorem heldTick (h : o.alarms s) : o.alarms s.heldTick := by
  unfold State.heldTick
  repeat' first
    | intro _
    | with_reducible (first | assumption | apply forFin | apply dpApply | apply pinApply | apply seqApply | apply tickApply)
    | split
    | dsimp only

theorem seqOffer (h : o.alarms s) (n : Fin 8) (r : Nat) (e : Nat) : o.alarms (s.seqOffer n r e) := by
  unfold State.seqOffer
  repeat' first
    | with_reducible (first | assumption | apply ite | apply ax | apply put | apply seqApply)
    | exact Fld.aside_of (by constructor <;> simp <;> omega)

theorem dpOffer (h : o.alarms s) (n : Fin 8) (inv : Nat) (cpr : Nat) : o.alarms (s.dpOffer n inv cpr) := by
  unfold State.dpOffer
  repeat' first
    | with_reducible (first | assumption | apply ite | apply dpApply | apply dpt | apply put)
    | exact Fld.aside_of (by constructor <;> simp <;> omega)

theorem rmodeTook (h : o.alarms s) (st : Fin 2) (was : Nat) : o.alarms (s.rmodeTook st was) := by
  unfold State.rmodeTook
  repeat' first | with_reducible (first | assumption | apply ite | apply put) | exact Fld.aside_of (by constructor <;> simp <;> omega)

theorem tickOffer (h : o.alarms s) (p : Nat) (src : Nat) : o.alarms (s.tickOffer p src) := 
  ite (h.tickApply p src) (ite ((h.put CLK_TICK_STAT_PEND 0 (by decide)).regs rfl) ((h.put CLK_TICK_STAT_PEND 1 (by decide)).regs rfl))

theorem applyGroup (h : o.alarms s) (g : Fin 11) (snap : RegFile) : o.alarms (s.applyGroup g snap) := by
  have taken : ∀ l : List Nat, (∀ a ∈ l, Fld.aside ⟨a, 0, 0⟩ = true) → ∀ {s}, o.alarms s →
      o.alarms (l.foldl (fun s a => s.applyAddr snap a) s) := by
    intro l aside
    induction l with
    | nil => exact fun h => h
    | cons a l ih =>
      exact fun h => ih (fun x mem => aside x (List.mem_cons_of_mem _ mem)) (h.applyAddr snap a (aside a (List.mem_cons_self ..)))
  have done := taken _ (groupAddrs_aside g) h
  unfold State.applyGroup
  dsimp only
  generalize (groupAddrs g).foldl _ s = v at done ⊢
  split
  · exact ((done.pinOffer _ _).seqOffer _ _ _).dpOffer _ _ _
  · exact ite (done.rmodeTook 0 _) (ite (done.rmodeTook 1 _) (ite (done.tickOffer _ _) done))

theorem applyStrobes (h : o.alarms s) : o.alarms (s.applyStrobes) := by
  refine heldTick (forFin (fun g x k => ?_) h)
  split
  · refine ite (applyGroup ?_ _ _) k
    exact k.regs rfl
  · exact k

theorem pinFlags (h : o.alarms s) (n : Fin 8) : o.alarms (s.pinFlags n) := by
  unfold State.pinFlags
  repeat' first | with_reducible (first | assumption | apply putB) | exact Fld.aside_of (by constructor <;> simp <;> omega)

theorem encTick (h : o.alarms s) (n : Fin 8) : o.alarms (s.encTick n) := by
  unfold State.encTick
  repeat' with_reducible first | assumption | apply ite | apply axisFaultIf | apply dpt

theorem dueFaults (h : o.alarms s) (n : Fin 8) : o.alarms (s.dueFaults n) := by
  unfold State.dueFaults
  repeat' with_reducible first | assumption | apply ite | apply ax | apply axisFault | apply encTick

theorem rstCoil (h : o.alarms s) (c : Fin 16) : o.alarms (s.rstCoil c) := by
  unfold State.rstCoil
  repeat' with_reducible first | assumption | apply co

theorem rstFinish (h : o.alarms s) (n : Fin 8) : o.alarms (s.rstFinish n) := by
  have cleared := h.resetRegs (fun a => axAddr n a && !pwmFld a) (by revert n; decide) (by revert n; decide)
  have shown : o.alarms (if (s.dev == .safe && s.axes[n].st == .fault) then (s.resetRegs fun a => axAddr n a && !pwmFld a).put (AX_FAULT_BITS n)
      (s.g (AX_FAULT_BITS n)) else (s.resetRegs fun a => axAddr n a && !pwmFld a).put (PWR_FLTCAUSE_BITS n) 0) :=
    ite (cleared.put _ _ (Fld.aside_of (by constructor <;> simp <;> omega))) (cleared.put _ _ (Fld.aside_of (by constructor <;> simp <;> omega)))
  unfold State.rstFinish
  dsimp only
  generalize (if (s.dev == .safe && s.axes[n].st == .fault) then _ else _) = v at shown ⊢
  refine putBit (pinActs (rstCoil (rstCoil ?_ _) _) n) _ _ _ (by decide)
  exact shown.regs rfl

theorem rstAxis (h : o.alarms s) (n : Fin 8) : o.alarms (s.rstAxis n) := by
  unfold State.rstAxis
  repeat' first | with_reducible (first | assumption | apply ite | apply rstBegin | apply rstFinish | apply rstMoves) | split

theorem moveEngage (h : o.alarms s) (t : Fin 2) : o.alarms (s.moveEngage t) := by
  unfold State.moveEngage
  repeat' first | intro _ | with_reducible (first | assumption | apply foldl | apply ax | apply enterMotion) | split

theorem moveStart (h : o.alarms s) (t : Fin 2) : o.alarms (s.moveStart t) := by
  unfold State.moveStart
  repeat' first | intro _ | with_reducible (first | assumption | apply foldl | apply moveEngage | apply stn)

theorem moveTake (h : o.alarms s) (t : Fin 2) (parts : List Cmd) (waiting : Bool) : o.alarms (s.moveTake t parts waiting) := by
  unfold State.moveTake
  repeat' first | intro _ | with_reducible (first | assumption | apply foldl | apply cmdUpd | apply stn)

theorem startMove (h : o.alarms s) (t : Fin 2) (parts : List Cmd) : o.alarms (s.startMove t parts) := by
  unfold State.startMove
  repeat' first
    | intro _
    | with_reducible (first | assumption | apply ite | apply foldl | apply cmdUpd | apply moveStart | apply moveTake | apply stn)
    | with_reducible apply unpair
    | split

theorem startStation (h : o.alarms s) (t : Fin 2) (busy : List Nat) (k : Nat) (l : List Cmd) : o.alarms (s.startStation t busy k l) := by
  induction k generalizing s l with
  | zero => exact h
  | succ k ih =>
    cases l with
    | nil => exact h
    | cons c l =>
      have ended (st : Nat) : o.alarms ((moveParts (c :: l)).foldl (fun s x => s.markEnd x.id st) s) := foldl (fun _ x k => k.markEnd x.id st) h
      unfold State.startStation
      refine ite (ite (ih (h.markEnd _ _) _) ((h.unpair _ _ _).cmdUpd _ _)) ?_
      exact ite h (ite (ih ((ended _).unpair _ _ _) _) (ite (ih (ended _) _) (ite h (ite (ih (ite (ended _) ((ended _).unpair _ _ _)) _)
        (h.startMove t _)))))

theorem stationMark (h : o.alarms s) (t : Fin 2) (busy : List Nat) : o.alarms (s.stationMark t busy) := by
  unfold State.stationMark
  repeat' with_reducible first | assumption | apply ite | apply startStation

theorem moveLimit (h : o.alarms s) (t : Fin 2) : o.alarms (s.moveLimit t) := by
  unfold State.moveLimit
  repeat' first | intro _ | with_reducible (first | assumption | apply ite | apply foldl | apply pulse | apply stopMove) | decide | split

theorem homeStart (h : o.alarms s) (n : Fin 8) (c : Cmd) : o.alarms (s.homeStart n c) := by
  unfold State.homeStart
  repeat' first
    | with_reducible (first | assumption | apply ax | apply enterMotion | apply homePhase | apply put)
    | exact Fld.aside_of (by constructor <;> simp <;> omega)

theorem startOn (h : o.alarms s) (n : Fin 8) (c : Cmd) : o.alarms (s.startOn n c) := by
  unfold State.startOn
  repeat' with_reducible first | assumption | apply ite | apply cmdUpd | apply homeStart | apply stakeStart

theorem startAxis (h : o.alarms s) (n : Fin 8) (l : List Cmd) : o.alarms (s.startAxis n l) := by
  induction l generalizing s with
  | nil => exact h
  | cons c l ih => exact ite h (ite (ih (h.markEnd _ _)) (h.startOn n c))

theorem axisMark (h : o.alarms s) (n : Fin 8) (busy : List Nat) : o.alarms (s.axisMark n busy) := by
  unfold State.axisMark
  repeat' with_reducible first | assumption | apply ite | apply startAxis

theorem startDevice (h : o.alarms s) (l : List Cmd) : o.alarms (s.startDevice l) := by
  induction l generalizing s with
  | nil => exact h
  | cons c l ih => exact ite (ih (h.markEnd _ _)) (h.cmdUpd _ _)

theorem execMark (h : o.alarms s) : o.alarms s.execMark := by
  unfold State.execMark
  repeat' first
    | intro _
    | with_reducible (first | assumption | apply ite | apply forFin | apply applyImms | apply axisMark | apply moveLimit)
    | with_reducible (first | apply startDevice | apply stationMark)

theorem rstRing (h : o.alarms s) (r : Fin 16) : o.alarms (s.rstRing r) := by
  have cleared := h.putBit DEV_BLKRST_STAT_RING_REF r false (by decide)
  unfold State.rstRing
  refine ite (h.putBit _ _ _ (by decide)) ?_
  dsimp only
  split
  · exact cleared.regs rfl
  · refine ite ?_ (cleared.ring _ _)
    exact cleared.regs rfl

theorem rstRings (h : o.alarms s) : o.alarms (s.rstRings) := foldl (fun _ r k => k.rstRing r) (regs h rfl)

theorem tripTick (h : o.alarms s) (n : Fin 8) : o.alarms (s.tripTick n) := by
  unfold State.tripTick
  repeat' with_reducible first | assumption | apply ite | apply ax | apply tripAxis

theorem causeTick (h : o.alarms s) (n : Fin 8) : o.alarms (s.causeTick n) := by
  unfold State.causeTick
  repeat' with_reducible first | assumption | apply ite | apply axisFault

theorem markApply (h : o.alarms s) : o.alarms s.markApply := by
  unfold State.markApply
  repeat' first
    | intro _
    | with_reducible (first | assumption | apply forFin | apply applyStrobes | apply causeTick | apply ceilTick | apply dueFaults)
    | with_reducible (first | apply execMark | apply gathered | apply idTick | apply pinFlags | apply rstAxis | apply rstRings)
    | with_reducible apply tripTick

theorem restTick (h : o.alarms s) (n : Fin 8) : o.alarms (s.restTick n) := by
  unfold State.restTick
  repeat' with_reducible first | assumption | apply ax

theorem obsMark (h : o.alarms s) (n : Fin 8) : o.alarms (s.obsMark n) := by
  unfold State.obsMark
  repeat' with_reducible first | assumption | apply ax

theorem dpTick (h : o.alarms s) (n : Fin 8) : o.alarms (s.dpTick n) := by
  unfold State.dpTick
  repeat' first
    | with_reducible (first | assumption | apply dpt | apply put | apply putB | apply putI)
    | exact Fld.aside_of (by constructor <;> simp <;> omega)

theorem pinSample (h : o.alarms s) (n : Fin 8) (pins : BitVec 48) : o.alarms (s.pinSample n pins) := by
  unfold State.pinSample
  repeat' first
    | with_reducible (first | assumption | apply ite | apply ax | apply setWord)
    | exact Fld.aside_of (by constructor <;> simp <;> omega)

theorem coilTick (h : o.alarms s) (c : Fin 16) : o.alarms (s.coilTick c) := by
  unfold State.coilTick
  repeat' first | with_reducible (first | assumption | apply co | apply putB) | exact Fld.aside_of (by constructor <;> simp <;> omega)

theorem markSample (h : o.alarms s) (pins : BitVec 48) : o.alarms (s.markSample pins) := by
  unfold State.markSample
  repeat' first
    | intro _
    | with_reducible (first | assumption | apply forFin | apply coilTick | apply dpTick | apply obsMark | apply pinSample | apply put)
    | with_reducible apply restTick
    | decide

theorem markOkTick (h : o.alarms s) : o.alarms s.markOkTick := by
  unfold State.markOkTick
  repeat' first | with_reducible (first | assumption | apply ite | apply put) | decide | split

theorem arbTick (h : o.alarms s) : o.alarms (s.arbTick) := ite h ((h.put DEV_ARB_STAT_MODE_ACT _ (by decide)).regs rfl)

theorem startPwm (h : o.alarms s) : o.alarms s.startPwm := by
  unfold State.startPwm
  repeat' first | intro _ | with_reducible (first | assumption | apply foldl | apply boundary | apply co)

theorem tickMark (h : o.alarms s) (pins : BitVec 48) : o.alarms (s.tickMark pins) := by
  have begun : o.alarms s.tickBegun := h.regs rfl
  exact (((begun.arbTick.markOkTick).markSample pins).markApply).markRun

end State.alarms
end Sys2Proof.Machine
end

section
/-!
PROOF. What the start of PWM and of the survey leaves of the stores.
-/

namespace Sys2Proof.Machine

open Host

/-! ## What the start of PWM and of the survey leaves of the stores -/

/-- The stores and the queued indirect writes. -/
def State.hoard (s : State) : (Otp × List (Nat × Byte) × Nvm × List (Nat × BitVec 64) × RegFile × RegFile) × List IndWrite :=
  (s.stored, s.indQ)

theorem State.ite_hoard (c : Prop) [Decidable c] (a b : State) : (if c then a else b).hoard = if c then a.hoard else b.hoard :=
  apply_ite State.hoard c a b

theorem foldl_hoard {ι : Type} (s : State) (l : List ι) (f : State → ι → State) (h : ∀ x i, (f x i).hoard = x.hoard) :
    (l.foldl f s).hoard = s.hoard := foldl_ind (fun t => t.hoard = s.hoard) l f (fun x i k => (h x i).trans k) s rfl

theorem forFin_hoard {k : Nat} (s : State) (f : Fin k → State → State) (h : ∀ i x, (f i x).hoard = x.hoard) :
    (forFin k f s).hoard = s.hoard := forFin_ind (fun t => t.hoard = s.hoard) k f (fun i x c => (h i x).trans c) s rfl

theorem State.put_hoard (s : State) (f : Fld) (v : Nat) : (s.put f v).hoard = s.hoard := id rfl
theorem State.putB_hoard (s : State) (f : Fld) (v : Bool) : (s.putB f v).hoard = s.hoard := id rfl
theorem State.inc_hoard (s : State) (f : Fld) : (s.inc f).hoard = s.hoard := id rfl
theorem State.addSat_hoard (s : State) (f : Fld) (v : Nat) : (s.addSat f v).hoard = s.hoard := id rfl
theorem State.ax_hoard (s : State) (n : Fin 8) (f : Axis → Axis) : (s.ax n f).hoard = s.hoard := id rfl
theorem State.co_hoard (s : State) (c : Fin 16) (f : Coil → Coil) : (s.co c f).hoard = s.hoard := id rfl
theorem State.svu_hoard (s : State) (x : Fin 2) (f : SurveySt → SurveySt) : (s.svu x f).hoard = s.hoard := id rfl

theorem State.settleSlot_hoard (s : State) (c : Fin 16) (es : List Nat) (tb : Nat) (l : Nat) (acc : List (Nat × Nat)) (x : Nat × Nat) :
    (s.settleSlot c es tb l acc x).1.hoard = s.hoard := by
  unfold State.settleSlot
  dsimp only
  repeat' split
  all_goals simp only [State.inc_hoard]

theorem State.slotPlan_hoard (s : State) (c : Fin 16) (l : Nat) (chop : Bool) : (s.slotPlan c l chop).1.hoard = s.hoard := by
  unfold State.slotPlan
  dsimp only
  split <;> simp only [State.put_hoard, State.addSat_hoard]

theorem State.slotsFixed_hoard (s : State) (c : Fin 16) (l : Nat) (es : List Nat) : (s.slotsFixed c l es).hoard = s.hoard := by
  unfold State.slotsFixed
  dsimp only
  rw [State.co_hoard]
  exact foldl_ind (fun a : State × List (Nat × Nat) => a.1.hoard = s.hoard) _ _
    (fun a x h => (State.settleSlot_hoard _ _ _ _ _ _ _).trans h) _ (s.slotPlan_hoard c l false)

theorem State.takeMode_hoard (s : State) (c : Fin 16) : (s.takeMode c).hoard = s.hoard := by
  unfold State.takeMode
  simp only [State.co_hoard, State.put_hoard, State.ite_hoard, ite_self]

theorem State.transfer_hoard (s : State) (c : Fin 16) : (s.transfer c).hoard = s.hoard := by
  unfold State.transfer
  dsimp only
  split <;> simp only [State.put_hoard, State.putB_hoard, State.co_hoard, State.ite_hoard, ite_self]

theorem State.relayOn_hoard (s : State) (c : Fin 16) (pj : Nat) (j : Nat) : (s.relayOn c pj j).hoard = s.hoard := by
  unfold State.relayOn
  split
  · exact State.co_hoard _ _ _
  · rfl

theorem State.takeSetpoint_hoard (s : State) (c : Fin 16) : (s.takeSetpoint c).hoard = s.hoard := by
  unfold State.takeSetpoint
  simp only [State.co_hoard, State.ite_hoard, ite_self]

theorem State.testDuty_hoard (s : State) (c : Fin 16) : (s.testDuty c).hoard = s.hoard := by
  unfold State.testDuty
  simp only [State.ax_hoard, State.ite_hoard, ite_self]

theorem State.fixedPeriod_hoard (s : State) (c : Fin 16) (pj : Nat) (p16 : Nat) (j : Nat) : (s.fixedPeriod c pj p16 j).hoard = s.hoard := by
  unfold State.fixedPeriod
  simp only [State.inc_hoard, State.putB_hoard, State.put_hoard, State.co_hoard, State.slotsFixed_hoard, State.ite_hoard, ite_self]

theorem State.slotsChop_hoard (s : State) (c : Fin 16) (l : Nat) : (s.slotsChop c l).hoard = s.hoard := by
  unfold State.slotsChop
  simp only [State.co_hoard]

theorem State.chopPeriod_hoard (s : State) (c : Fin 16) : (s.chopPeriod c).hoard = s.hoard := by
  unfold State.chopPeriod
  simp only [State.slotPlan_hoard, State.put_hoard, State.co_hoard, State.slotsChop_hoard, State.ite_hoard, ite_self]

theorem State.boundary_hoard (s : State) (c : Fin 16) (pulse : Option (Nat × Nat)) (start : Bool) : (s.boundary c pulse start).hoard = s.hoard := by
  unfold State.boundary
  simp only [State.inc_hoard, State.takeMode_hoard, State.transfer_hoard, State.takeSetpoint_hoard, State.fixedPeriod_hoard, State.put_hoard,
    State.testDuty_hoard, State.relayOn_hoard, State.chopPeriod_hoard, State.ite_hoard, ite_self]

theorem State.startPwm_hoard (s : State) : s.startPwm.hoard = s.hoard := by
  unfold State.startPwm
  simp only [State.co_hoard, State.boundary_hoard, foldl_hoard, implies_true]

theorem State.svRun_hoard (s : State) (st : Fin 2) (kind : Nat) (idx : Nat) : (s.svRun st kind idx).hoard = s.hoard := by
  unfold State.svRun
  simp only [State.svu_hoard]

theorem State.svInj_hoard (s : State) (st : Fin 2) : (s.svInj st).hoard = s.hoard := by
  unfold State.svInj
  simp only [State.put_hoard, State.svu_hoard, State.svRun_hoard, State.ite_hoard, ite_self]

theorem State.svHk_hoard (s : State) (st : Fin 2) (ends : Bool) : (s.svHk st ends).hoard = s.hoard := by
  unfold State.svHk
  simp only [State.svu_hoard, State.svRun_hoard]

theorem State.svRound_hoard (s : State) (st : Fin 2) : (s.svRound st).hoard = s.hoard := by
  unfold State.svRound
  simp only [State.put_hoard, State.svu_hoard, State.putB_hoard, State.svHk_hoard, State.svRun_hoard, State.ite_hoard, ite_self]

theorem State.svNext_hoard (s : State) (st : Fin 2) : (s.svNext st).hoard = s.hoard := by
  unfold State.svNext
  dsimp only
  repeat' split
  all_goals simp only [State.put_hoard, State.svu_hoard, State.svInj_hoard, State.svHk_hoard, State.svRound_hoard]

theorem State.svWork_hoard (s : State) (st : Fin 2) (b : Nat) : (s.svWork st b).hoard = s.hoard := by
  unfold State.svWork
  simp only [State.put_hoard, State.svu_hoard, State.svNext_hoard, State.ite_hoard, ite_self]

theorem State.surveyStart_hoard (s : State) : s.surveyStart.hoard = s.hoard := by
  unfold State.surveyStart
  simp only [State.svu_hoard, State.svWork_hoard, State.ite_hoard, forFin_hoard, implies_true, ite_self]

end Sys2Proof.Machine
end

section
/-!
PROOF. The entry to READY, with its first tick (R111, R116, R125).
-/

namespace Sys2Proof.Machine

open Host

variable {s t u : State} {dt : Nat}

/-! ## ENTER_READY (R111, R116, R125) -/

/-- READY as the device enters it: a peripheral configuration is valid. -/
def State.readyMarks (s : State) : State :=
  { s with dev := .ready }.bt fun b => { b with cfgValid := true, ceilFrozen := false, reload := false, stage := 0 }

/-- The same with event 0 raised, which tells the cause of the last reset. -/
def State.readyBegun (s : State) : State :=
  s.readyMarks.pulse 0 0 (s.readyMarks.g DEV_RSTCAUSE_CAUSE + 4 * s.readyMarks.g DEV_RSTCAUSE_PROMOTED + 8 * s.readyMarks.g DEV_RSTCAUSE_HELDOFF)

/-- The survey begins, and V5OUT follows. -/
def State.readySurvey (s : State) : State :=
  ((forFin 2 (fun st (s : State) => s.svu st fun v => { v with first := false }) s).surveyStart.v5Follow).su fun v => { v with idPollAt := s.now }

/-- The tick runs, and so does PWM: the state in which the first tick is marked. -/
def State.readyTick (s : State) : State :=
  let s := { s with tick := { s.tick with on := true, lost := false } }
  let s := forFin 8 (fun n (s : State) => s.ax n fun a => { a with at_ := s.tick.no + 1 }) s
  (s.put CLK_TICK_STAT_SRC_LOST 0).startPwm


theorem State.enterReady_eq (s : State) (pins : BitVec 48) :
    s.enterReady pins = if (s.readyBegun.readySurvey.readyTick.tickMark pins).g DEV_STATE_SAFE_CAUSE ≠ 0
      then (s.readyBegun.readySurvey.readyTick.tickMark pins).enterSafe else s.readyBegun.readySurvey.readyTick.tickMark pins := by
  unfold State.readyTick State.readySurvey State.readyBegun State.readyMarks
  rfl

theorem State.quelled.hoard {A : List Nat} (h : s.quelled t A) : t.hoard = s.hoard := by
  unfold State.hoard State.stored
  rw [h.otp, h.flash, h.nvm, h.store, h.window, h.chain, h.indQ]

/-- A part of the entry keeps causes and event 0, the stores, and the tick's own state, which it may set running. -/
structure State.readying (s t : State) : Prop where
  alarms : s.alarms t
  hoard : t.hoard = s.hoard
  now : t.now = s.now
  no : t.tick.no = s.tick.no

theorem State.readying.trans (h : s.readying t) (k : t.readying u) : s.readying u :=
  ⟨h.alarms.trans k.alarms, k.hoard.trans h.hoard, k.now.trans h.now, k.no.trans h.no⟩

theorem State.readyBegun_raises (s : State) : s.readyBegun.evPending 0 = true := State.pulse_raises _ 0 _ _ (by decide)

theorem State.readyBegun_readying (s : State) : s.readying s.readyBegun := by
  have pulsed (e : State) (d : Nat) (alarms : s.alarms e) (hoard : e.hoard = s.hoard) (now : e.now = s.now) (no : e.tick.no = s.tick.no) :
      s.readying (e.pulse 0 0 d) := by
    have step := e.pulse_step 0 0 d (by decide)
    have kept := congrArg State.hoard step.rest
    have ticks := congrArg (fun x : State => x.tick.no) step.rest
    exact ⟨alarms.pulse 0 _ _ (by decide), Eq.trans kept hoard, step.now.trans now, Eq.trans ticks no⟩
  have alarms : s.alarms s.readyMarks := State.alarms.regs (s := s) .refl rfl
  have hoard : s.readyMarks.hoard = s.hoard := rfl
  have now : s.readyMarks.now = s.now := rfl
  have no : s.readyMarks.tick.no = s.tick.no := rfl
  unfold State.readyBegun
  exact pulsed s.readyMarks _ alarms hoard now no

theorem State.readySurvey_readying (s : State) : s.readying s.readySurvey := by
  have firsts : s.alarms (forFin 2 (fun st (s : State) => s.svu st fun v => { v with first := false }) s) :=
    .forFin (fun st x h => h.svu st _) .refl
  have calm : Calm s s.readySurvey := State.su_calm _ _ (State.v5Follow_calm _ (State.surveyStart_calm _
    (Calm.forFin (fun st x h => State.svu_calm x st _ h) (Calm.refl s))))
  refine ⟨(State.alarms.worse firsts.surveyStart (State.v5Follow_graver _ .refl)).su _, ?_, calm.now, congrArg (·.2.2.1) calm.clock⟩
  have followed (x : State) (f : SurvSt → SurvSt) : (x.surveyStart.v5Follow.su f).hoard = x.hoard := by
    have v5 : x.surveyStart.v5Follow.hoard = x.surveyStart.hoard := State.quelled.hoard (A := []) (State.v5Follow_quell _ .refl)
    exact v5.trans x.surveyStart_hoard
  exact (followed _ _).trans (forFin_hoard s _ fun st x => State.svu_hoard x st _)

/-- The state whose tick has been set running. -/
def State.tickOn (s : State) : State := { s with tick := { s.tick with on := true, lost := false } }

theorem State.readyTick_calm (s : State) : Calm s.tickOn s.readyTick :=
  State.startPwm_calm _ (State.put_calm _ _ _ (Calm.forFin (fun n x h => State.ax_calm x n _ h) (Calm.refl s.tickOn)))

theorem State.readyTick_on (s : State) : s.readyTick.tick.on = true := congrArg (·.1) s.readyTick_calm.clock

theorem State.readyTick_readying (s : State) : s.readying s.readyTick := by
  have ready : s.alarms (forFin 8 (fun n (x : State) => x.ax n fun a => { a with at_ := x.tick.no + 1 }) s.tickOn) :=
    .forFin (fun n x h => h.ax n _) State.alarms.refl.upd
  refine ⟨(ready.put CLK_TICK_STAT_SRC_LOST 0 (by decide)).startPwm, ?_, s.readyTick_calm.now, congrArg (·.2.2.1) s.readyTick_calm.clock⟩
  refine (State.startPwm_hoard _).trans ?_
  exact forFin_hoard s.tickOn _ fun n x => State.ax_hoard x n _

/-- What the device is found to be once READY, or SAFE, has been entered, and its first tick has begun. -/
def State.readies (u t : State) : Prop :=
  ({ u with dev := .ready }).outlives t ∧ t.boot.cfgValid = true ∧ t.tick.on = true ∧ t.tick.mark = u.now ∧
    t.tick.no = u.tick.no + 1 ∧ t.tick.commitDue = true ∧ t.evPending 0 = true ∧ (u.g DEV_STATE_SAFE_CAUSE ≠ 0 → t.dev = .safe)

/-- The state after the first mark. -/
theorem State.enterReady_marked (s : State) (pins : BitVec 48) :
    ∃ v, s.enterReady pins = (if v.g DEV_STATE_SAFE_CAUSE ≠ 0 then v.enterSafe else v) ∧ s.alarms v ∧ v.evPending 0 = true ∧ v.hoard = s.hoard ∧
      v.tick.on = true ∧ v.tick.mark = s.now ∧ v.tick.no = s.tick.no + 1 ∧ v.tick.commitDue = true := by
  have begun := s.readyBegun_raises
  have until_ := s.readyBegun_readying
  have after := s.readyBegun.readySurvey_readying.trans s.readyBegun.readySurvey.readyTick_readying
  have on := s.readyBegun.readySurvey.readyTick_on
  rw [s.enterReady_eq]
  generalize s.readyBegun.readySurvey.readyTick = r at *
  generalize s.readyBegun = b at *
  have ready := until_.trans after
  have marked : r.alarms (r.tickMark pins) := State.alarms.refl.tickMark pins
  have clock := (r.tickMark_calm pins).clock
  obtain ⟨stored, indQ, -, -⟩ := State.lasting_parts (r.tickMark_lasting pins)
  generalize r.tickMark pins = v at *
  obtain ⟨mark, no, due⟩ := State.clockwork_parts clock
  refine ⟨v, rfl, ready.alarms.trans marked, marked.raised (after.alarms.raised begun), ?_, (congrArg (·.1) clock).trans on, mark.trans ready.now,
    no.trans (congrArg (· + 1) ready.no), due⟩
  exact (congrArg₂ Prod.mk stored indQ).trans ready.hoard

/-- Where a cause stands the device goes on to SAFE. -/
theorem State.enterReady_readies (u : State) (pins : BitVec 48) : u.readies (u.enterReady pins).settle := by
  obtain ⟨dev, rest⟩ := u.enterReady_standing pins
  obtain ⟨v, entered, alarms, raised, hoard, on, mark, no, due⟩ := u.enterReady_marked pins
  have cfg : (u.enterReady pins).boot.cfgValid = true := congrArg (·.2.2.2.1) rest
  have pending : (u.enterReady pins).pending = u.pending := congrArg (·.2.2.2.2.1) rest
  have now : (u.enterReady pins).now = u.now := congrArg (·.2.2.2.2.2) rest
  have safe : u.g DEV_STATE_SAFE_CAUSE ≠ 0 → (u.enterReady pins).dev = .safe := fun cause => by
    rw [entered, if_pos (alarms.standing cause)]
    exact v.enterSafe_dev
  have last : (u.enterReady pins).hoard = u.hoard ∧ (u.enterReady pins).clockwork = v.clockwork ∧ (u.enterReady pins).evPending 0 = true := by
    rw [entered]
    split
    · exact ⟨((State.enterSafe_quell v (A := []) .refl).hoard).trans hoard, (State.enterSafe_calm v (Calm.refl v)).clock,
        (State.enterSafe_graver v .refl).pend 0 (by decide) raised⟩
    · exact ⟨hoard, rfl, raised⟩
  obtain ⟨hoarded, clock, pend⟩ := last
  generalize u.enterReady pins = e at *
  have step := e.settle_step
  have tick : e.settle.tick = e.tick := State.settle_tick _
  obtain ⟨markV, noV, dueV⟩ := State.clockwork_parts clock
  have kept := congrArg State.hoard step.rest
  have boot := congrArg (fun x : State => x.boot.cfgValid) step.rest
  have devs : e.settle.dev = e.dev := e.settle_dev
  refine ⟨⟨step.now.trans now, (State.settle_pending _).trans pending, congrArg (·.1) (Eq.trans kept hoarded), congrArg (·.2) (Eq.trans kept hoarded), ?_⟩,
    Eq.trans boot cfg, ?_, ?_, ?_, ?_, step.pend 0 (by decide) pend, fun cause => devs.trans (safe cause)⟩
  · rw [devs]
    exact dev
  · rw [tick]
    exact (congrArg (·.1) clock).trans on
  · rw [tick, markV, mark]
  · rw [tick, noV, no]
  · rw [tick, dueV, due]

theorem enterReady_readies :
    let u := s.tickTo dt
    ∀ pins : BitVec 48, u.dev = .configLoad → u.boot.stage = 3 → u.flOn = true → ∃ t, exec (.enterReady dt pins) s = .next t ∧ u.readies t := by
  intro u pins load stage on
  have due : (u.dev == .configLoad && u.boot.stage = 3 && u.flOn) = true := by
    rw [load, stage, on]
    rfl
  have enters : exec (.enterReady dt pins) s = done (u.enterReady pins) := congrArg done (if_pos due)
  exact exec_next enters (u.enterReady_readies pins)

theorem enterReady_stands :
    let u := s.tickTo dt
    ∀ pins : BitVec 48, (u.dev ≠ .configLoad ∨ u.boot.stage ≠ 3 ∨ u.flOn = false) → ∃ t, exec (.enterReady dt pins) s = .next t ∧ u.sameBut t [] := by
  intro u pins early
  have off : ¬ (u.dev == .configLoad && u.boot.stage = 3 && u.flOn) = true := by
    simp only [Bool.and_eq_true, beq_iff_eq, decide_eq_true_eq]
    rintro ⟨⟨load, stage⟩, on⟩
    obtain other | other | other := early
    · exact other load
    · exact other stage
    · exact Bool.noConfusion (on.symm.trans other)
  have stands : exec (.enterReady dt pins) s = done u := congrArg done (if_neg off)
  exact exec_next stands State.sameBut.refl.settle

end Sys2Proof.Machine
end

section
/-!
PROOF. The entry to RUN, and the obligation on both (O22).
-/

namespace Sys2Proof.Machine

open Host

variable {s t u : State} {A : List Nat} {dt : Nat}

/-! ## ENTER_RUN (R125, R439, R462) -/

/-- A slot on trial is confirmed. -/
def FwSlot.confirmed (f : FwSlot) : FwSlot := if f.state = 2 then { f with state := 1 } else f

/-- The end of the trials: the slot in use is confirmed, the image's trial is `trial`, the NVM's last pulse ends at `p`. -/
def State.tried (s : State) (trial : Option (Nat × Nat)) (p : Nat) : State :=
  { s with
    nvm := { s.nvm with fw := vupd s.nvm.fw (Fin.ofNat 2 s.nvm.lastFw) FwSlot.confirmed, imgTrial := trial }
    boot := { s.boot with pulseEnd := p } }

theorem State.trialsEnd_eq (s : State) : ∃ trial p, s.trialsEnd = s.tried trial p ∧
    ∀ y ∈ s.nvm.imgTrial, trial = if s.boot.imgOk = true ∧ s.boot.imgSlot = y.1 then none else some y := by
  have slot : ∃ p, (if s.nvm.fw[Fin.ofNat 2 s.nvm.lastFw].state = 2 then s.fwState (Fin.ofNat 2 s.nvm.lastFw) 1 else s) = s.tried s.nvm.imgTrial p := by
    by_cases tried : s.nvm.fw[Fin.ofNat 2 s.nvm.lastFw].state = 2
    · have confirmed : vupd s.nvm.fw (Fin.ofNat 2 s.nvm.lastFw) (fun f => { f with state := 1 }) =
          vupd s.nvm.fw (Fin.ofNat 2 s.nvm.lastFw) FwSlot.confirmed := by
        unfold vupd FwSlot.confirmed
        rw [if_pos tried]
      refine ⟨s.now + usCyc 20, (if_pos tried).trans ?_⟩
      unfold State.tried
      rw [← confirmed]
      rfl
    · have same : vupd s.nvm.fw (Fin.ofNat 2 s.nvm.lastFw) FwSlot.confirmed = s.nvm.fw := vupd_self _ _ _ (if_neg tried)
      refine ⟨s.boot.pulseEnd, (if_neg tried).trans ?_⟩
      unfold State.tried
      rw [same]
  obtain ⟨p, slot⟩ := slot
  have low : s.nvm.lastFw % 2 < 2 := Nat.mod_lt _ (by decide)
  change (if s.nvm.fw[(⟨s.nvm.lastFw % 2, low⟩ : Fin 2)].state = 2 then s.fwState ⟨s.nvm.lastFw % 2, low⟩ 1 else s) = s.tried s.nvm.imgTrial p at slot
  unfold State.trialsEnd
  dsimp only
  rw [slot]
  cases trial : s.nvm.imgTrial with
  | none => exact ⟨none, p, rfl, fun y mem => nomatch mem⟩
  | some x =>
    by_cases used : s.boot.imgOk = true ∧ s.boot.imgSlot = x.1
    · refine ⟨none, p, if_pos (by rw [Bool.and_eq_true, decide_eq_true_eq]; exact used), fun y mem => ?_⟩
      obtain rfl := Option.some.inj mem
      exact (if_pos used).symm
    · refine ⟨some x, p, if_neg (by rw [Bool.and_eq_true, decide_eq_true_eq]; exact used), fun y mem => ?_⟩
      obtain rfl := Option.some.inj mem
      exact (if_neg used).symm

/-! ### The contexts that start by themselves (R439) -/

/-- A context that starts by itself stands at its entry. -/
def Ctx.started (c : Ctx) : Ctx :=
  if c.auto then { c with running := true, pc := c.entry % 4096, lc := Vector.replicate 4 0, trk := [], wait := .none, lastSt := 0, n := 0, hold := false }
  else c

/-- The same with its event latch cleared where it starts. -/
def Ctx.startedAnew (c : Ctx) : Ctx := if c.auto then { c.started with ev := 0 } else c

theorem State.progStart_auto (s : State) (x : Fin 4) :
    (if s.ctxs[x].auto then s.progStart x s.ctxs[x].entry else s) = s.ctx x Ctx.startedAnew := by
  by_cases auto : s.ctxs[x].auto = true
  · have anew : vupd s.ctxs x (fun c => { c with
        running := true, pc := s.ctxs[x].entry % 4096, lc := Vector.replicate 4 0, ev := 0, trk := [], wait := .none, lastSt := 0, n := 0
        hold := false }) = vupd s.ctxs x Ctx.startedAnew := by
      unfold vupd Ctx.startedAnew Ctx.started
      rw [if_pos auto, if_pos auto]
    rw [if_pos auto]
    exact congrArg (fun v => ({ s with ctxs := v } : State)) anew
  · rw [if_neg auto]
    exact (congrArg (fun v => ({ s with ctxs := v } : State)) (vupd_self s.ctxs x Ctx.startedAnew (if_neg auto))).symm

theorem vupd_all (v : Vector Ctx 4) (f : Ctx → Ctx) : (List.finRange 4).foldl (fun v x => vupd v x f) v = v.map f := by
  change vupd (vupd (vupd (vupd v 0 f) 1 f) 2 f) 3 f = v.map f
  ext i hi
  interval_cases i <;> simp [vupd]

theorem State.ctx_foldl (s : State) (f : Ctx → Ctx) (l : List (Fin 4)) :
    l.foldl (fun s x => s.ctx x f) s = { s with ctxs := l.foldl (fun v x => vupd v x f) s.ctxs } := by
  induction l generalizing s with
  | nil => rfl
  | cons x l ih => exact ih (s.ctx x f)

/-- Every context takes its turn. -/
theorem State.progStart_all (s : State) :
    forFin 4 (fun x s => if s.ctxs[x].auto then s.progStart x s.ctxs[x].entry else s) s = { s with ctxs := s.ctxs.map Ctx.startedAnew } := by
  have turns : (fun (x : Fin 4) (s : State) => if s.ctxs[x].auto then s.progStart x s.ctxs[x].entry else s) = fun x s => s.ctx x Ctx.startedAnew :=
    funext fun x => funext fun t => t.progStart_auto x
  rw [turns, ← vupd_all]
  exact s.ctx_foldl _ _

/-- Event latches aside, the contexts start alike on both sides. -/
theorem State.sameBut.startCtxs (h : s.sameBut t A) :
    ({ s with ctxs := s.ctxs.map Ctx.started }).sameBut { t with ctxs := t.ctxs.map Ctx.startedAnew } A := by
  have quiet (c : Ctx) : ({ c.started with ev := 0 } : Ctx) = ({ c with ev := 0 } : Ctx).started := by
    unfold Ctx.started
    dsimp only
    split <;> rfl
  have quietAnew (c : Ctx) : ({ c.startedAnew with ev := 0 } : Ctx) = ({ c with ev := 0 } : Ctx).started := by
    unfold Ctx.startedAnew Ctx.started
    dsimp only
    split <;> rfl
  refine h.rest rfl rfl (fun same => ?_) rfl rfl
  have ctxs := congrArg (fun x : State => x.ctxs) same
  change s.ctxs.map (fun c => { c with ev := 0 }) = t.ctxs.map (fun c => { c with ev := 0 }) at ctxs
  have left : (s.ctxs.map Ctx.started).map (fun c => ({ c with ev := 0 } : Ctx)) = (t.ctxs.map Ctx.startedAnew).map fun c => { c with ev := 0 } := by
    rw [Vector.map_map, Vector.map_map]
    calc s.ctxs.map ((fun c => { c with ev := 0 }) ∘ Ctx.started)
      _ = (s.ctxs.map fun c => { c with ev := 0 }).map Ctx.started := by
          rw [Vector.map_map]
          exact congrArg (s.ctxs.map ·) (funext quiet)
      _ = (t.ctxs.map fun c => { c with ev := 0 }).map Ctx.started := by rw [ctxs]
      _ = t.ctxs.map ((fun c => { c with ev := 0 }) ∘ Ctx.startedAnew) := by
          rw [Vector.map_map]
          exact congrArg (t.ctxs.map ·) (funext fun c => (quietAnew c).symm)
  exact congrArg₂ (fun (x : State) (v : Vector Ctx 4) => ({ x with ctxs := v } : State)) same left


/-! ### RUN -/

/-- RUN as the device enters it, before the trials end. -/
def State.runSet (s : State) : State :=
  let s := { s with dev := .run }.setFail 0
  let s := s.put DEV_BOOTSTAT_BOOT_MS (satU 16 ((s.now - s.boot.relAt) / msCyc 1))
  s.bt fun b => { b with wdOn := false, hostAt := s.now }

/-- What of it is not a register. -/
def State.runBase (s : State) (p : Nat) : State :=
  { s with dev := .run, nvm := { s.nvm with failcnt := 0 }, boot := { s.boot with wdOn := false, hostAt := s.now, pulseEnd := p } }

theorem State.runSet_frame (u : State) : (u.runBase (u.now + usCyc 20)).sameBut u.runSet [0x12] := by
  unfold State.runSet
  dsimp only
  rw [State.setFail_eq]
  have counted : ({ u with dev := .run, nvm := { u.nvm with failcnt := 0 } } : State).sameBut
      (({ u with dev := .run } : State).nv fun m => { m with failcnt := 0 }) [0x12] := .refl
  exact (((counted.put DEV_BOOTSTAT_FAILCNT 0 (by decide)).bt fun b => { b with pulseEnd := u.now + usCyc 20 }).put DEV_BOOTSTAT_BOOT_MS _
    (by decide)).bt fun b => { b with wdOn := false, hostAt := u.now }

theorem State.runSet_reads (u : State) :
    u.runSet.g DEV_BOOTSTAT_FAILCNT = 0 ∧ u.runSet.g DEV_BOOTSTAT_BOOT_MS = min ((u.now - u.boot.relAt) / 400000) 65535 := by
  unfold State.runSet
  dsimp only
  rw [State.bt_g, State.bt_g]
  constructor
  · rw [State.put_g_disj _ _ _ _ (by decide) (by decide), State.setFail_count _ (by decide)]
  · rw [State.put_g_same _ _ _ (by decide)]
    exact Nat.mod_eq_of_lt (Nat.lt_of_le_of_lt (Nat.min_le_right _ _) (by decide))

theorem State.sameBut.tried (h : s.sameBut t A) (trial : Option (Nat × Nat)) (p : Nat) : (s.tried trial p).sameBut (t.tried trial p) A :=
  h.rest rfl rfl (fun r => congrArg (fun x : State => x.tried trial p) r) rfl rfl

/-- The record of the start enters the field book. -/
def State.runBooked (s : State) : State :=
  let w := fun (a : Nat) => beBytes 4 (s.word a).toNat
  s.fbAdd 0x01 (w 0x11 ++ w 0x3 ++ w 0x4)

/-- The words of the entry to RUN. -/
def runWords : List Nat := [0x12, MG_FB_STAT_LOST.a] ++ slotWords

theorem State.sameBut.runBooked (h : s.sameBut t runWords) : ({ s with surv := t.runBooked.surv }).sameBut t.runBooked runWords := by
  have booked : ({ t with surv := t.runBooked.surv }).sameBut t.runBooked runWords :=
    ((State.alike.refl (scope := .book)).fbAdd (by decide) _ _).sameBut_surv
  exact State.sameBut.trans (h.su fun _ => t.runBooked.surv) booked

/-- The whole entry. -/
def State.enterRun (s : State) : State :=
  forFin 4 (fun x s => if s.ctxs[x].auto then s.progStart x s.ctxs[x].entry else s) s.runSet.trialsEnd.slotStat.runBooked

/-- What the entry to RUN leaves. -/
def State.runs (u t : State) : Prop :=
  let x : Fin 2 := Fin.ofNat 2 u.nvm.lastFw
  ({ u with
    dev := .run, boot := { u.boot with wdOn := false, hostAt := u.now, pulseEnd := t.boot.pulseEnd }, surv := t.surv,
    nvm := { u.nvm with failcnt := 0, fw := vupd u.nvm.fw x (fun f => if f.state = 2 then { f with state := 1 } else f), imgTrial := t.nvm.imgTrial },
    ctxs := u.ctxs.map fun (c : Ctx) => if c.auto then { c with
      running := true, pc := c.entry % 4096, lc := Vector.replicate 4 0, trk := [], wait := .none, lastSt := 0, n := 0, hold := false } else c
    }).sameBut t ([0x12, MG_FB_STAT_LOST.a] ++ (List.range 16).map (0x1000210 + ·)) ∧
  t.g DEV_BOOTSTAT_FAILCNT = 0 ∧ t.g DEV_BOOTSTAT_BOOT_MS = min ((u.now - u.boot.relAt) / 400000) 65535 ∧
  (∀ y ∈ u.nvm.imgTrial, t.nvm.imgTrial = if u.boot.imgOk = true ∧ u.boot.imgSlot = y.1 then none else some y)

/-- The frame of `runs`, by what the entry made of pulse, field book and trial. -/
def State.runFrame (u : State) (sv : SurvSt) (trial : Option (Nat × Nat)) (p : Nat) : State :=
  let v := { (u.runBase 0).tried trial p with surv := sv }
  { v with ctxs := v.ctxs.map Ctx.started }

theorem State.enterRun_frame (u : State) : ∃ sv trial p, (u.runFrame sv trial p).sameBut u.enterRun runWords ∧
    ∀ y ∈ u.nvm.imgTrial, trial = if u.boot.imgOk = true ∧ u.boot.imgSlot = y.1 then none else some y := by
  obtain ⟨trial, p, tried, last⟩ := u.runSet.trialsEnd_eq
  have set : ((u.runBase (u.now + usCyc 20)).tried trial p).sameBut u.runSet.trialsEnd runWords := by
    rw [tried]
    exact (u.runSet_frame.mono (by decide)).tried trial p
  have shown := (set.slotStat (by decide)).runBooked.startCtxs
  refine ⟨u.runSet.trialsEnd.slotStat.runBooked.surv, trial, p, ?_, last⟩
  unfold State.enterRun
  rw [State.progStart_all]
  exact shown

theorem State.enterRun_reads (u : State) :
    u.enterRun.g DEV_BOOTSTAT_FAILCNT = 0 ∧ u.enterRun.g DEV_BOOTSTAT_BOOT_MS = min ((u.now - u.boot.relAt) / 400000) 65535 := by
  obtain ⟨trial, p, tried, -⟩ := u.runSet.trialsEnd_eq
  obtain ⟨count, time⟩ := u.runSet_reads
  have same (f : Fld) (h : f.a = 0x12) : u.enterRun.g f = u.runSet.g f := by
    have started (x : State) (v : Vector Ctx 4) : State.g { x with ctxs := v } f = x.g f := rfl
    have kept : (u.runSet.tried trial p).g f = u.runSet.g f := rfl
    unfold State.enterRun State.runBooked
    rw [State.progStart_all, started, State.fbAdd_g _ _ _ _ (by rw [h]; decide), State.slotStat_g _ _ (by rw [h]; decide), tried, kept]
  exact ⟨(same _ rfl).trans count, (same _ rfl).trans time⟩

theorem State.enterRun_runs (u : State) : u.runs u.enterRun.settle := by
  obtain ⟨sv, trial, p, frame, last⟩ := u.enterRun_frame
  obtain ⟨count, time⟩ := u.enterRun_reads
  have countS := u.enterRun.settle_g DEV_BOOTSTAT_FAILCNT rfl
  have timeS := u.enterRun.settle_g DEV_BOOTSTAT_BOOT_MS rfl
  have frameS := frame.settle
  generalize u.enterRun.settle = t at *
  have pulse := congrArg (fun x : State => x.boot.pulseEnd) frameS.2.1
  have book := congrArg (fun x : State => x.surv) frameS.2.1
  have image := congrArg (fun x : State => x.nvm.imgTrial) frameS.2.1
  change t.boot.pulseEnd = p at pulse
  change t.surv = sv at book
  change t.nvm.imgTrial = trial at image
  subst pulse book image
  exact ⟨frameS, countS.trans count, timeS.trans time, last⟩

theorem enterRun_runs (s : State) (dt : Nat) :
    let u := s.tickTo dt
    u.dev = .ready → u.stations[0].sv.first = true → u.stations[1].sv.first = true → u.gb XCHK_STAT_LAST_OK = true →
    ∃ t, exec (.enterRun dt) s = .next t ∧ u.runs t := by
  intro u ready first second passed
  have enters : exec (.enterRun dt) s = done u.enterRun := by
    change done (if !(u.dev == .ready && u.stations[0].sv.first && u.stations[1].sv.first && u.gb XCHK_STAT_LAST_OK) then u else u.enterRun) = _
    rw [ready, first, second, passed]
    rfl
  exact exec_next enters u.enterRun_runs

theorem enterRun_stands (s : State) (dt : Nat) :
    let u := s.tickTo dt
    (u.dev ≠ .ready ∨ u.stations[0].sv.first = false ∨ u.stations[1].sv.first = false ∨ u.gb XCHK_STAT_LAST_OK = false) →
    ∃ t, exec (.enterRun dt) s = .next t ∧ u.sameBut t [] := by
  intro u early
  have off : (u.dev == .ready && u.stations[0].sv.first && u.stations[1].sv.first && u.gb XCHK_STAT_LAST_OK) = false := by
    obtain other | first | second | failed := early
    · rw [beq_false_of_ne other]
      rfl
    · rw [first, Bool.and_false]
      rfl
    · rw [second, Bool.and_false]
      rfl
    · rw [failed, Bool.and_false]
  have stands : exec (.enterRun dt) s = done u := by
    change done (if !(u.dev == .ready && u.stations[0].sv.first && u.stations[1].sv.first && u.gb XCHK_STAT_LAST_OK) then u else u.enterRun) = _
    rw [off]
    rfl
  exact exec_next stands State.sameBut.refl.settle

/-- Settles O22: no operation of a tick takes event 0 or a SAFE cause away (`alarms`), and of what RUN changes each part has its own frame. -/
theorem readyAndRun : Obligations.ReadyAndRun :=
  ⟨fun _ _ pins => enterReady_readies pins, fun _ _ pins => enterReady_stands pins, enterRun_runs, enterRun_stands⟩

end Sys2Proof.Machine
end

section
/-!
PROOF. Power-on reset and system reset (O17).
-/

namespace Sys2Proof.Machine

open Host

variable {s t u : State} {A : List Nat} {dt : Nat}

/-! ## What the end of the surveyor's work at a reset leaves alone (R114, R450) -/

/-- The supplies, the authentication epoch and PWR_STAT: what no cut operation of the surveyor touches. -/
def State.supplied (s : State) : PowerSt × Nat × Word := (s.power, s.nvm.epoch, s.word 0x140)

theorem State.supplied_put (u : State) (f : Fld) (v : Nat) (h : f.a ≠ 0x140) : (u.put f v).supplied = u.supplied :=
  congrArg (fun w => (u.power, u.nvm.epoch, w)) (u.put_word_ne f v 0x140 h)

theorem State.supplied_nv (u : State) (f : Nvm → Nvm) (h : (f u.nvm).epoch = u.nvm.epoch) : (u.nv f).supplied = u.supplied :=
  congrArg (fun e => (u.power, e, u.word 0x140)) h

theorem State.evStep.supplied (h : s.evStep t) : t.supplied = s.supplied := by
  have power := congrArg (fun x : State => x.power) h.rest
  have nvm := congrArg (fun x : State => x.nvm) h.rest
  exact Prod.ext power (Prod.ext (congrArg Nvm.epoch nvm) (h.word 0x140 rfl))

theorem State.supplied_ite {c : Prop} [Decidable c] (h : t.supplied = s.supplied) (k : u.supplied = s.supplied) :
    (if c then t else u).supplied = s.supplied := by
  split
  · exact h
  · exact k

theorem State.fbErase_supplied (u : State) (k : Nat) : (u.fbErase k).supplied = u.supplied := by
  have worn (v : State) (n old : Nat) (f g : Nvm → Nvm) (hf : ∀ m, (f m).epoch = m.epoch) (hg : ∀ m, (g m).epoch = m.epoch) (i : Nat) :
      ((((v.nv f).nv g).put (MG_FB_WEAR_ERASES i) n).put MG_FB_OLD_OLD old).supplied = v.supplied := by
    rw [State.supplied_put _ _ _ (by decide), State.supplied_put _ _ _ (show 0x1000340 + i ≠ 0x140 by omega), State.supplied_nv _ _ (hg _), State.supplied_nv _ _ (hf _)]
  have noted (v : State) (c : Bool) (f : SurvSt → SurvSt) :
      (if c then ((v.su f).put MG_FB_STAT_WEAR 1).pulse 52 0 0 else v).supplied = v.supplied := by
    cases c
    · rfl
    · exact (State.pulse_step _ 52 0 0 (by decide)).supplied.trans (State.supplied_put (v.su f) _ _ (by decide))
  exact (noted _ _ _).trans (worn _ _ _ _ _ (fun _ => rfl) (fun _ => rfl) _)

theorem State.fbStore_supplied (u : State) (r : FbRec) : (u.fbStore r).supplied = u.supplied := by
  have written (v : State) (k : Nat) (f : Nvm → Nvm) (hf : ∀ m, (f m).epoch = m.epoch) :
      ((v.nv f).put MG_FB_HEAD_HEAD k).supplied = v.supplied := by
    rw [State.supplied_put _ _ _ (by decide), State.supplied_nv _ _ (hf _)]
  have last (v : State) (k : Nat) : (if v.g MG_FB_OLD_OLD = 0 then v.put MG_FB_OLD_OLD k else v).supplied = v.supplied :=
    State.supplied_ite (v.supplied_put _ _ (by decide)) rfl
  exact (last _ _).trans ((written _ _ _ fun _ => rfl).trans (State.supplied_ite (u.fbErase_supplied _) rfl))

theorem State.fbCut_supplied (u : State) : u.fbCut.supplied = u.supplied := by
  unfold State.fbCut
  split
  · rfl
  · dsimp only
    split
    · rfl
    split
    · exact State.fbStore_supplied _ _
    rw [State.supplied_nv _ _ rfl]
    split
    · exact State.fbErase_supplied _ _
    · rfl

theorem State.imgTorn_supplied (u : State) : u.imgTorn.supplied = u.supplied := by
  unfold State.imgTorn
  split
  · dsimp only
    split <;> rfl
  · rfl

theorem State.updCut_supplied (u : State) : u.updCut.supplied = u.supplied := by
  have ended (v : State) (f : SurvSt → SurvSt) : (((v.put MG_UPD_STAT_STATE 0).put MG_UPD_STAT_BUSY 0).su f).supplied = v.supplied := by
    change ((v.put MG_UPD_STAT_STATE 0).put MG_UPD_STAT_BUSY 0).supplied = _
    rw [State.supplied_put _ _ _ (by decide), State.supplied_put _ _ _ (by decide)]
  have revoked (v : State) (q : UpdSt) (op : q.op = 6) : (v.updEffect q).supplied = v.supplied := by
    unfold State.updEffect
    rw [op]
    rfl
  unfold State.updCut
  dsimp only
  rw [ended]
  split
  · split
    · exact u.imgTorn_supplied
    split
    next op =>
      split
      · exact revoked _ _ op
      · rfl
    · rfl
  · rfl

theorem State.surveyorCut_supplied (u : State) : u.surveyorCut.supplied = u.supplied := by
  have sealed (v : State) : v.sealCut.supplied = v.supplied := by
    unfold State.sealCut
    split <;> rfl
  have ended (v : State) (f : SurvSt → SurvSt) : ((v.put MG_SEAL_STAT_BUSY 0).su f).supplied = v.supplied :=
    State.supplied_put v _ _ (by decide)
  unfold State.surveyorCut
  dsimp only
  rw [ended]
  split
  · rw [State.updCut_supplied, sealed, State.fbCut_supplied]
  · rw [State.updCut_supplied]

/-- The surveyor has no operation of NVM or OTP to cut. -/
structure State.atEase (s : State) : Prop where
  book : s.surv.fbQ = []
  sealing : s.surv.sealing = none
  update : s.gb MG_UPD_STAT_BUSY = false

/-- The marks of operations that a reset takes away. -/
def State.unmarked (s : State) : State :=
  ((((s.put MG_UPD_STAT_STATE 0).put MG_UPD_STAT_BUSY 0).su fun v => { v with upd := { v.upd with first := none } }).put MG_SEAL_STAT_BUSY 0).su
    fun v => { v with fbQ := [], lostSince := 0, sealing := none }

theorem State.atEase.surveyorCut (h : s.atEase) : s.surveyorCut = s.unmarked := by
  have book : s.fbCut = s := by unfold State.fbCut; rw [h.book]
  have uncut : s.sealCut = s := by unfold State.sealCut; rw [h.sealing]
  unfold State.surveyorCut State.unmarked
  rw [book, uncut, ite_self]
  unfold State.updCut
  rw [h.update]
  rfl

theorem State.atEase.nvBusy (h : s.atEase) : s.nvBusy = false := by
  unfold State.nvBusy
  rw [h.book, h.sealing, h.update]
  exact Bool.and_false _


/-! ## The state after a reset (R107, Table 4-1) -/

/-- The reset state with what outlives a power-on reset, or a system reset, of `c`. -/
def State.afresh (c : State) (por : Bool) : State :=
  let nvm : Nvm := { c.nvm with epoch := (c.nvm.epoch + 1) % 2 ^ 32 }
  let kept : State := { State.reset with
    pending := c.pending, now := if por then 0 else c.now, nvm := nvm, otp := c.otp, flash := c.flash, free := c.free
    levels := c.levels.filter fun x => x.1 == 11 || (!por && (x.1 == 9 || x.1 == 10 || (x.1 == 19 && bit c.power.tBack x.2)))
    power :=
      if por then { PowerSt.init with
        sw := c.power.sw, clampAt := Vector.replicate 2 0, clampPeak := c.power.clampPeak, clampOn := c.power.clampOn }
      else { PowerSt.init with
        sw := c.power.sw, clampAt := c.power.clampAt, clampPeak := c.power.clampPeak, clampOn := c.power.clampOn
        vbakSet := c.power.vbakSet, tBack := c.power.tBack, seenRev := c.power.seenRev } }
  let clocked := kept.su fun v =>
    if por then { v with fcMs := nvm.clockFrom, fcAt := 0 } else { v with fcMs := c.surv.fcMs, fcAt := c.surv.fcAt }
  clocked.bt fun b => { b with por := por, porCause := por }

/-- The supply levels that a reset leaves in PWR_STAT, and the epoch shown. -/
def State.showsSupply (t c : State) (por : Bool) : State :=
  (t.setWord 0x140 (W ((c.word 0x140).toNat &&& supplyLevels por))).put LNK_GR_EPOCH_EPOCH ((c.nvm.epoch + 1) % 2 ^ 32)

theorem State.hardReset_powerOn (u : State) : u.hardReset true = (u.surveyorCut.afresh true).showsSupply u.surveyorCut true := rfl

theorem State.sameBut.showsSupply (h : s.sameBut t A) (c : State) (por : Bool) (stat : 0x140 ∈ A) (epoch : 0x54 ∈ A) :
    s.sameBut (t.showsSupply c por) A := (h.setWord _ _ stat).put _ _ epoch

/-- A level of PWR_STAT outlives the reset where `supplyLevels` names it. -/
theorem State.showsSupply_level (t c : State) (por : Bool) (i : Nat) :
    (t.showsSupply c por).g ⟨0x140, i, 1⟩ = c.g ⟨0x140, i, 1⟩ &&& bits (supplyLevels por) i 1 := by
  have small : (c.word 0x140).toNat &&& supplyLevels por < 2 ^ 32 := Nat.lt_of_le_of_lt Nat.and_le_left (c.word 0x140).isLt
  unfold State.showsSupply
  rw [State.put_g_ne _ _ _ _ (show 0x54 ≠ 0x140 by decide)]
  unfold State.g
  dsimp only
  rw [State.setWord_word_same, W_toNat _ small]
  unfold bits
  rw [Nat.and_div_two_pow, Nat.and_mod_two_pow]

theorem State.showsSupply_kept (t c : State) (por : Bool) (i : Nat) (keep : bits (supplyLevels por) i 1 = 1) :
    (t.showsSupply c por).g ⟨0x140, i, 1⟩ = c.g ⟨0x140, i, 1⟩ := by
  rw [State.showsSupply_level, keep, Nat.and_one_is_mod]
  exact Nat.mod_mod _ 2

/-- The pins of a block in RESET: the reset column of Table 2-7. -/
theorem State.pins_of_reset (dev : t.dev = .reset) (alive : t.power.dead = false) (mark : t.tick.sync = none) (v5 : t.gb PWR_STAT_V5_ON = false) :
    (∀ x ∈ resetPins, t.pinState x.1 = x.2) ∧ ∀ n : Fin 8, t.pinState (.fbClock n) = .pd ∧ t.pinState (.fbIn n) = .pd := by
  have phase : t.pinPhase = .reset := by
    unfold State.pinPhase
    rw [alive, dev]
    rfl
  have low : t.syncOut = false := by
    unfold State.syncOut
    rw [mark]
    exact Bool.and_false _
  refine ⟨?_, fun n => ⟨?_, ?_⟩⟩
  · simp [resetPins, State.pinState, phase, low, v5, PinPhase.flPin, PinPhase.pick]
  · simp [State.pinState, phase, PinPhase.flPin]
  · simp [State.pinState, phase, PinPhase.flPin]

/-! ## POWER_ON_RESET and its release -/

/-- What POWER_ON_RESET leaves. -/
def State.powersOn (u t : State) : Prop :=
  ({ State.reset with
    pending := u.pending, nvm := t.nvm, otp := t.otp, flash := t.flash, free := t.free,
    power := { PowerSt.init with sw := u.power.sw, clampPeak := u.power.clampPeak, clampOn := u.power.clampOn },
    surv := { State.reset.surv with fcMs := t.nvm.clockFrom, fcAt := 0 },
    boot := { State.reset.boot with por := true, porCause := true } }).sameBut t [0x140, 0x54] ∧
  (∀ x ∈ resetPins, t.pinState x.1 = x.2) ∧ (∀ n : Fin 8, t.pinState (.fbClock n) = .pd ∧ t.pinState (.fbIn n) = .pd) ∧
  (∀ st : Fin 2, t.gb (PWR_STAT_CLAMP st) = u.gb (PWR_STAT_CLAMP st)) ∧ t.nvm.epoch = (u.nvm.epoch + 1) % 2 ^ 32 ∧
  (u.surv.fbQ = [] → u.surv.sealing = none → u.gb MG_UPD_STAT_BUSY = false →
    t.nvm = { u.nvm with epoch := (u.nvm.epoch + 1) % 2 ^ 32 } ∧ t.otp = u.otp ∧ t.flash = u.flash)

/-- Of the reset state what outlives a power-on reset is `afresh`, events aside. -/
theorem State.afresh_por (c u t : State) (pending : c.pending = u.pending) (power : c.power = u.power)
    (same : (c.afresh true).sameBut t [0x140, 0x54]) :
    ({ State.reset with
      pending := u.pending, nvm := t.nvm, otp := t.otp, flash := t.flash, free := t.free,
      power := { PowerSt.init with sw := u.power.sw, clampPeak := u.power.clampPeak, clampOn := u.power.clampOn },
      surv := { State.reset.surv with fcMs := t.nvm.clockFrom, fcAt := 0 },
      boot := { State.reset.boot with por := true, porCause := true } } : State).sameBut t [0x140, 0x54] := by
  have nvm := congrArg (fun x : State => x.nvm) same.2.1
  have otp := congrArg (fun x : State => x.otp) same.2.1
  have flash := congrArg (fun x : State => x.flash) same.2.1
  have free := congrArg (fun x : State => x.free) same.2.1
  change t.nvm = (c.afresh true).nvm at nvm
  change t.otp = c.otp at otp
  change t.flash = c.flash at flash
  change t.free = c.free at free
  refine ⟨same.1, same.2.1.trans ?_, same.2.2⟩
  rw [nvm, otp, flash, free, ← pending, ← power]
  rfl


/-- PWR_STAT reads after the surveyor's cut as before. -/
theorem State.surveyorCut_stat (u : State) (i : Nat) : u.surveyorCut.g ⟨0x140, i, 1⟩ = u.g ⟨0x140, i, 1⟩ :=
  State.word_eq_of_g _ _ _ (congrArg (·.2.2) u.surveyorCut_supplied)

theorem State.hardReset_powersOn (u : State) : u.powersOn (u.hardReset true).settle := by
  obtain ⟨power, epoch, -⟩ : u.surveyorCut.power = u.power ∧ u.surveyorCut.nvm.epoch = u.nvm.epoch ∧ u.surveyorCut.word 0x140 = u.word 0x140 :=
    ⟨congrArg (·.1) u.surveyorCut_supplied, congrArg (·.2.1) u.surveyorCut_supplied, congrArg (·.2.2) u.surveyorCut_supplied⟩
  have stat := u.surveyorCut_stat
  have pending := u.surveyorCut_pending
  have eased : u.atEase → u.surveyorCut.nvm = u.nvm ∧ u.surveyorCut.otp = u.otp ∧ u.surveyorCut.flash = u.flash := by
    intro ease
    rw [ease.surveyorCut]
    exact ⟨rfl, rfl, rfl⟩
  rw [State.hardReset_powerOn]
  generalize u.surveyorCut = c at *
  have same : (c.afresh true).sameBut ((c.afresh true).showsSupply c true).settle [0x140, 0x54] :=
    (State.sameBut.refl.showsSupply c true (by decide) (by decide)).settle
  have level (i : Nat) : ((c.afresh true).showsSupply c true).settle.g ⟨0x140, i, 1⟩ = u.g ⟨0x140, i, 1⟩ &&& bits (supplyLevels true) i 1 := by
    rw [State.settle_g _ _ rfl, State.showsSupply_level, stat]
  have nvm := congrArg (fun x : State => x.nvm) same.2.1
  have otp := congrArg (fun x : State => x.otp) same.2.1
  have flash := congrArg (fun x : State => x.flash) same.2.1
  have dev := congrArg (fun x : State => x.dev) same.2.1
  have dead := congrArg (fun x : State => x.power.dead) same.2.1
  have mark := congrArg (fun x : State => x.tick.sync) same.2.1
  have clamp (st : Fin 2) : ((c.afresh true).showsSupply c true).settle.gb (PWR_STAT_CLAMP st) = u.gb (PWR_STAT_CLAMP st) := by
    have kept := (((c.afresh true).showsSupply c true).settle_g (PWR_STAT_CLAMP st) rfl).trans
      ((State.showsSupply_kept _ c true (8 + st.val) (by revert st; decide)).trans (stat _))
    exact congrArg (· != 0) kept
  generalize ((c.afresh true).showsSupply c true).settle = t at *
  change t.nvm = { c.nvm with epoch := (c.nvm.epoch + 1) % 2 ^ 32 } at nvm
  have v5 : t.gb PWR_STAT_V5_ON = false := by
    have off := (level 16).trans (Nat.and_zero _)
    exact congrArg (· != 0) off
  obtain ⟨pins, encoders⟩ := State.pins_of_reset (t := t) dev dead mark v5
  refine ⟨State.afresh_por c u t pending power same, pins, encoders, clamp, ?_, fun book sealing update => ?_⟩
  · rw [nvm, ← epoch]
  · obtain ⟨sameNvm, sameOtp, sameFlash⟩ := eased ⟨book, sealing, update⟩
    exact ⟨nvm.trans (by rw [sameNvm]), otp.trans sameOtp, flash.trans sameFlash⟩


/-- POWER_ON_RESET. -/
theorem powerOnReset_powersOn (s : State) (dt : Nat) : ∃ t, exec (.powerOnReset dt) s = .next t ∧ (s.tickTo dt).powersOn t :=
  ⟨_, rfl, (s.tickTo dt).hardReset_powersOn⟩

/-- A released block at the beginning of option load. -/
def State.released (s : State) : State :=
  { s with dev := .optionLoad, boot := { s.boot with por := false, sys := false, optDone := false, relAt := s.now, wdAt := s.now, wdOn := true } }

theorem State.clampNote_step (u : State) : u.evStep u.clampNote := by
  refine forFin_ind (fun x => u.evStep x) 2 _ (fun st x step => ?_) u (.refl u)
  split
  · exact step.trans (x.levelOn_step 11 st.val 0 (by decide))
  · exact step

theorem State.optionLoad_released (u : State) : u.released.evStep u.optionLoad := State.clampNote_step u.released

theorem powerOnResetRelease_starts (s : State) (dt : Nat) :
    let u := s.tickTo dt
    ∃ t, exec (.powerOnResetRelease dt) s = .next t ∧
      (if u.boot.por = false then u else if u.boot.sys then { u with boot := { u.boot with por := false } } else u.released).sameBut t [] := by
  intro u
  change ∃ t, done (if !u.boot.por then u else if u.boot.sys then u.bt fun b => { b with por := false } else u.optionLoad) = .next t ∧ _
  refine ⟨_, rfl, ?_⟩
  have begun := u.optionLoad_released
  generalize u.optionLoad = e at *
  cases u.boot.por with
  | false => exact State.sameBut.refl.settle
  | true =>
    cases u.boot.sys with
    | true => exact State.sameBut.refl.settle
    | false => exact (State.sameBut.refl.step begun).settle

/-! ## SYSTEM_RESET -/

/-- The supplies after a system reset. -/
def PowerSt.restarted (p : PowerSt) : PowerSt :=
  { PowerSt.init with
    sw := p.sw, clampAt := p.clampAt, clampPeak := p.clampPeak, clampOn := p.clampOn, vbakSet := p.vbakSet, tBack := p.tBack, seenRev := p.seenRev }

/-- What a system reset leaves of a surveyor at ease. -/
def State.restarts (u t : State) : Prop :=
  ({ State.reset with
    now := u.now, pending := u.pending, nvm := { u.nvm with epoch := (u.nvm.epoch + 1) % 2 ^ 32 }, otp := u.otp, flash := u.flash, free := u.free,
    power := u.power.restarted,
    surv := { State.reset.surv with fcMs := u.surv.fcMs, fcAt := u.surv.fcAt },
    boot := { State.reset.boot with por := false, porCause := false, sys := true } }).sameBut t [0x11, 0x140, 0x54, MG_FCLK_STAT_SYNC.a] ∧
  t.g DEV_RSTCAUSE_CAUSE = 1 ∧ t.g DEV_RSTCAUSE_PROMOTED = 0 ∧ t.g DEV_RSTCAUSE_HELDOFF = 0 ∧
  t.g DEV_RSTCAUSE_LOWTIME = u.g DEV_RSTCAUSE_LOWTIME ∧ t.g DEV_RSTCAUSE_RSTCNT = u.g DEV_RSTCAUSE_RSTCNT ∧
  t.g LNK_GR_EPOCH_EPOCH = t.nvm.epoch ∧
  ∀ st : Fin 2, t.gb (PWR_STAT_VM_OK st) = u.gb (PWR_STAT_VM_OK st) ∧ t.gb (PWR_STAT_CLAMP st) = u.gb (PWR_STAT_CLAMP st)

/-- `f` is none of the temperature levels, bits 19 to 23 of PWR_STAT. -/
def Fld.cool (f : Fld) : Prop := f.a ≠ 0x140 ∨ f.lo + f.w ≤ 19 ∨ 24 ≤ f.lo

theorem State.tempStat_g (u : State) (f : Fld) (h : f.cool) : u.tempStat.g f = u.g f := by
  have level (v : State) (i : Nat) (b : Bool) (lo : 19 ≤ i) (hi : i < 24) : (v.putB ⟨0x140, i, 1⟩ b).g f = v.g f := by
    refine v.put_g_disj ⟨0x140, i, 1⟩ f (b2n b) (show i + 1 ≤ 32 by omega) ?_
    obtain other | below | above := h
    · exact .inl other.symm
    · exact .inr (.inr (show f.lo + f.w ≤ i by omega))
    · exact .inr (.inl (show i + 1 ≤ f.lo by omega))
  unfold State.tempStat
  exact (level _ 23 _ (by decide) (by decide)).trans <| (level _ 22 _ (by decide) (by decide)).trans <|
    (level _ 21 _ (by decide) (by decide)).trans <| (level _ 20 _ (by decide) (by decide)).trans (level _ 19 _ (by decide) (by decide))

theorem State.sameBut.tempStat (h : s.sameBut t A) (stat : 0x140 ∈ A) : s.sameBut t.tempStat A :=
  ((((h.put _ _ stat).put _ _ stat).put _ _ stat).put _ _ stat).put _ _ stat

/-- The block after a system reset of which `c` outlives, its cause recorded. -/
def State.recaused (c : State) : State :=
  let t := ((((c.afresh false).showsSupply c false).setWord 0x11 (c.word 0x11)).put MG_FCLK_STAT_SYNC (c.g MG_FCLK_STAT_SYNC)).tempStat
  (((t.bt fun b => { b with sys := true }).put DEV_RSTCAUSE_CAUSE 1).putB DEV_RSTCAUSE_PROMOTED false).putB DEV_RSTCAUSE_HELDOFF false

theorem State.sysReset_recaused (u : State) : u.sysReset false false = u.surveyorCut.recaused := rfl

theorem State.recaused_sameBut (c : State) :
    ((c.afresh false).bt fun b => { b with sys := true }).sameBut c.recaused [0x11, 0x140, 0x54, MG_FCLK_STAT_SYNC.a] := by
  have supplied : (c.afresh false).sameBut ((c.afresh false).showsSupply c false) [0x11, 0x140, 0x54, MG_FCLK_STAT_SYNC.a] :=
    State.sameBut.refl.showsSupply c false (by decide) (by decide)
  have warm := ((supplied.setWord 0x11 (c.word 0x11) (by decide)).put MG_FCLK_STAT_SYNC (c.g MG_FCLK_STAT_SYNC) (by decide)).tempStat (by decide)
  exact (((warm.bt _).put DEV_RSTCAUSE_CAUSE 1 (by decide)).put DEV_RSTCAUSE_PROMOTED _ (by decide)).put DEV_RSTCAUSE_HELDOFF _ (by decide)

/-- A level that outlives a system reset. -/
theorem State.recaused_level (c : State) (i : Nat) (keep : bits (supplyLevels false) i 1 = 1) (low : i < 19) :
    c.recaused.g ⟨0x140, i, 1⟩ = c.g ⟨0x140, i, 1⟩ := by
  unfold State.recaused State.putB
  dsimp only
  rw [State.put_g_ne _ _ _ _ (show 0x11 ≠ 0x140 by decide), State.put_g_ne _ _ _ _ (show 0x11 ≠ 0x140 by decide),
    State.put_g_ne _ _ _ _ (show 0x11 ≠ 0x140 by decide), State.bt_g, State.tempStat_g _ ⟨0x140, i, 1⟩ (.inr (.inl (Nat.succ_le_of_lt low))),
    State.put_g_ne _ _ _ _ (show MG_FCLK_STAT_SYNC.a ≠ 0x140 by decide)]
  refine (State.word_eq_of_g _ _ _ (State.setWord_word_ne _ 0x11 0x140 _ (by decide))).trans ?_
  exact State.showsSupply_kept _ c false i keep

/-- The epoch shown. -/
theorem State.recaused_epoch (c : State) : c.recaused.g LNK_GR_EPOCH_EPOCH = (c.nvm.epoch + 1) % 2 ^ 32 := by
  unfold State.recaused State.putB
  dsimp only
  rw [State.put_g_ne _ _ _ _ (by decide), State.put_g_ne _ _ _ _ (by decide), State.put_g_ne _ _ _ _ (by decide), State.bt_g,
    State.tempStat_g _ _ (.inl (by decide)), State.put_g_ne _ _ _ _ (by decide)]
  refine (State.word_eq_of_g _ _ _ (State.setWord_word_ne _ 0x11 0x54 _ (by decide))).trans ?_
  unfold State.showsSupply
  rw [State.put_g_same _ _ _ (by decide)]
  exact Nat.mod_mod _ _

/-- The cause recorded, the pulse's length and count as they stood. -/
theorem State.recaused_cause (c : State) :
    c.recaused.g DEV_RSTCAUSE_CAUSE = 1 ∧ c.recaused.g DEV_RSTCAUSE_PROMOTED = 0 ∧ c.recaused.g DEV_RSTCAUSE_HELDOFF = 0 ∧
      c.recaused.g DEV_RSTCAUSE_LOWTIME = c.g DEV_RSTCAUSE_LOWTIME ∧ c.recaused.g DEV_RSTCAUSE_RSTCNT = c.g DEV_RSTCAUSE_RSTCNT := by
  have before (v : State) (n : Nat) (f : Fld) (a : f.a = 0x11) :
      (((v.setWord 0x11 (c.word 0x11)).put MG_FCLK_STAT_SYNC n).tempStat.bt fun b => { b with sys := true }).g f = c.g f := by
    rw [State.bt_g, State.tempStat_g _ _ (.inl (by rw [a]; decide)), State.put_g_ne _ _ _ _ (by rw [a]; decide)]
    unfold State.g
    rw [a, State.setWord_word_same]
  unfold State.recaused State.putB
  dsimp only
  refine ⟨?_, ?_, ?_, ?_, ?_⟩
  · rw [State.put_g_disj _ _ _ _ (by decide) (by decide), State.put_g_disj _ _ _ _ (by decide) (by decide), State.put_g_same _ _ _ (by decide)]
    rfl
  · rw [State.put_g_disj _ _ _ _ (by decide) (by decide), State.put_g_same _ _ _ (by decide)]
    rfl
  · rw [State.put_g_same _ _ _ (by decide)]
    rfl
  · rw [State.put_g_disj _ _ _ _ (by decide) (by decide), State.put_g_disj _ _ _ _ (by decide) (by decide),
      State.put_g_disj _ _ _ _ (by decide) (by decide), before _ _ _ rfl]
  · rw [State.put_g_disj _ _ _ _ (by decide) (by decide), State.put_g_disj _ _ _ _ (by decide) (by decide),
      State.put_g_disj _ _ _ _ (by decide) (by decide), before _ _ _ rfl]

theorem State.atEase.sysReset_restarts (ease : u.atEase) : u.restarts (u.sysReset false false).settle := by
  have stat := u.surveyorCut_stat
  have pending := u.surveyorCut_pending
  have now := u.surveyorCut_now
  have power : u.surveyorCut.power = u.power := congrArg (·.1) u.surveyorCut_supplied
  have pulse (f : Fld) (a : f.a = 0x11) : u.surveyorCut.g f = u.g f := by
    rw [ease.surveyorCut]
    unfold State.unmarked
    rw [State.su_g, State.put_g_ne _ _ _ _ (by rw [a]; decide), State.su_g, State.put_g_ne _ _ _ _ (by rw [a]; decide),
      State.put_g_ne _ _ _ _ (by rw [a]; decide)]
  obtain ⟨nvm, otp, flash, free, clock, since⟩ : u.surveyorCut.nvm = u.nvm ∧ u.surveyorCut.otp = u.otp ∧ u.surveyorCut.flash = u.flash ∧
      u.surveyorCut.free = u.free ∧ u.surveyorCut.surv.fcMs = u.surv.fcMs ∧ u.surveyorCut.surv.fcAt = u.surv.fcAt := by
    rw [ease.surveyorCut]
    exact ⟨rfl, rfl, rfl, rfl, rfl, rfl⟩
  rw [State.sysReset_recaused]
  generalize u.surveyorCut = c at *
  have same := c.recaused_sameBut.settle
  have shownNvm := congrArg (fun x : State => x.nvm) same.2.1
  obtain ⟨cause, promoted, heldoff, low, count⟩ := c.recaused_cause
  have epoch := c.recaused_epoch
  have level := c.recaused_level
  have after (f : Fld) (h : evWord f.a = false) : c.recaused.settle.g f = c.recaused.g f := c.recaused.settle_g f h
  generalize c.recaused.settle = t at *
  change t.nvm = { c.nvm with epoch := (c.nvm.epoch + 1) % 2 ^ 32 } at shownNvm
  have both (i : Nat) (keep : bits (supplyLevels false) i 1 = 1) (under : i < 19) : t.gb ⟨0x140, i, 1⟩ = u.gb ⟨0x140, i, 1⟩ :=
    congrArg (· != 0) ((after ⟨0x140, i, 1⟩ rfl).trans ((level i keep under).trans (stat i)))
  refine ⟨⟨same.1.trans now, same.2.1.trans ?_, same.2.2⟩, (after _ rfl).trans cause, (after _ rfl).trans promoted, (after _ rfl).trans heldoff,
    (after _ rfl).trans (low.trans (pulse _ rfl)), (after _ rfl).trans (count.trans (pulse _ rfl)), ?_, fun st => ⟨both _ ?_ ?_, both _ ?_ ?_⟩⟩
  · rw [← nvm, ← otp, ← flash, ← free, ← clock, ← since, ← pending, ← power]
    rfl
  · rw [after _ rfl, epoch, shownNvm]
  all_goals revert st; decide

/-- A system reset can be held off only where a pulse is in progress on the NVM or OTP (R114). -/
theorem State.mayPulse_system (u : State) : u.mayPulse 1251 = u.nvBusy := by
  unfold State.mayPulse State.pulseMax
  cases u.nvBusy with
  | true => rfl
  | false => by_cases early : u.now < u.boot.pulseEnd <;> simp [early, usCyc]

/-- SYSTEM_RESET where no reset class asserts. -/
theorem exec_systemReset (s : State) (dt : Nat) (por : (s.tickTo dt).boot.por = false) (sys : (s.tickTo dt).boot.sys = false) :
    exec (.systemReset dt) s = done ((s.tickTo dt).resetDue true 0) := by
  change done (if (s.tickTo dt).boot.por || (s.tickTo dt).boot.sys then s.tickTo dt else (s.tickTo dt).resetDue true 0) = _
  rw [por, sys]
  rfl

theorem systemReset_restarts (s : State) (dt : Nat) :
    let u := s.tickTo dt
    u.boot.por = false → u.boot.sys = false → u.surv.fbQ = [] → u.surv.sealing = none → u.gb MG_UPD_STAT_BUSY = false →
    ∃ t, exec (.systemReset dt) s = .next t ∧ u.restarts t := by
  intro u por sys book sealing update
  have ease : u.atEase := ⟨book, sealing, update⟩
  have acts : u.resetDue true 0 = u.sysReset false false := by
    unfold State.resetDue
    rw [if_pos rfl, u.mayPulse_system, ease.nvBusy]
    rfl
  refine ⟨_, exec_systemReset s dt por sys, ?_⟩
  rw [acts]
  exact ease.sysReset_restarts

/-- The system reset acts, whatever the surveyor was doing. -/
def State.systemActs (u t : State) : Prop :=
  t.dev = .reset ∧ t.now = u.now ∧ t.pending = u.pending ∧ t.boot.sys = true ∧ t.cmds = [] ∧ t.g DEV_RSTCAUSE_CAUSE = 1 ∧
    t.nvm.epoch = (u.nvm.epoch + 1) % 2 ^ 32

theorem State.sysReset_acts (u : State) : u.systemActs (u.sysReset false false).settle := by
  have pending := u.surveyorCut_pending
  have now := u.surveyorCut_now
  have epoch : u.surveyorCut.nvm.epoch = u.nvm.epoch := congrArg (·.2.1) u.surveyorCut_supplied
  rw [State.sysReset_recaused]
  generalize u.surveyorCut = c at *
  have same := c.recaused_sameBut.settle
  have cause := (c.recaused.settle_g DEV_RSTCAUSE_CAUSE rfl).trans c.recaused_cause.1
  have dev := congrArg (fun x : State => x.dev) same.2.1
  have queue := congrArg (fun x : State => x.pending) same.2.1
  have sys := congrArg (fun x : State => x.boot.sys) same.2.1
  have cmds := congrArg (fun x : State => x.cmds) same.2.1
  have shown := congrArg (fun x : State => x.nvm.epoch) same.2.1
  generalize c.recaused.settle = t at *
  change t.nvm.epoch = (c.nvm.epoch + 1) % 2 ^ 32 at shown
  exact ⟨dev, same.1.trans now, queue.trans pending, sys, cmds, cause, by rw [shown, epoch]⟩

theorem systemReset_heldOrActs (s : State) (dt : Nat) :
    let u := s.tickTo dt
    u.boot.por = false → u.boot.sys = false → u.nvBusy = true → ∃ t, exec (.systemReset dt) s = .next t ∧
      (({ u with boot := { u.boot with held := some (true, 0) }, free := u.free + 1 }).sameBut t [] ∨ u.systemActs t) := by
  intro u por sys busy
  have due : u.resetDue true 0 =
      if (Config.freeValue u.free).getLsbD 0 then u.useFree.bt fun b => { b with held := some (true, 0) } else u.useFree.sysReset false false := by
    unfold State.resetDue
    rw [if_pos rfl, u.mayPulse_system, busy]
    rfl
  refine ⟨_, exec_systemReset s dt por sys, ?_⟩
  rw [due]
  split
  · exact .inl State.sameBut.refl.settle
  · exact .inr u.useFree.sysReset_acts

theorem systemReset_stands (s : State) (dt : Nat) :
    let u := s.tickTo dt
    (u.boot.por = true ∨ u.boot.sys = true) → ∃ t, exec (.systemReset dt) s = .next t ∧ u.sameBut t [] := by
  intro u asserted
  have runs : (u.boot.por || u.boot.sys) = true := (Bool.or_eq_true _ _).mpr asserted
  have stands : exec (.systemReset dt) s = done u := congrArg done (if_pos runs)
  exact exec_next stands State.sameBut.refl.settle

/-! ## SYSTEM_RESET_RELEASE -/

/-- What the release leaves. -/
def State.releases (u : State) (count : BitVec 32) (t : State) : Prop :=
  (if u.boot.por then { u with boot := { u.boot with sys := false } } else u.released).sameBut t [0x11] ∧
  t.g DEV_RSTCAUSE_LOWTIME = min (count.toNat / 25) 4095 ∧ t.g DEV_RSTCAUSE_RSTCNT = min (u.g DEV_RSTCAUSE_RSTCNT + 1) 255 ∧
  t.g DEV_RSTCAUSE_CAUSE = u.g DEV_RSTCAUSE_CAUSE

/-- The pulse's length and count are in the register, its cause stays. -/
theorem State.lowTime_cause (u : State) (c : Nat) :
    (u.lowTime c).g DEV_RSTCAUSE_LOWTIME = min (c / 25) 4095 ∧ (u.lowTime c).g DEV_RSTCAUSE_RSTCNT = min (u.g DEV_RSTCAUSE_RSTCNT + 1) 255 ∧
      (u.lowTime c).g DEV_RSTCAUSE_CAUSE = u.g DEV_RSTCAUSE_CAUSE := by
  unfold State.lowTime State.inc State.addSat
  refine ⟨?_, ?_, ?_⟩
  · rw [State.put_g_disj _ _ _ _ (by decide) (by decide), State.put_g_same _ _ _ (by decide)]
    exact Nat.mod_eq_of_lt (Nat.lt_of_le_of_lt (Nat.min_le_right _ _) (by decide))
  · rw [State.put_g_same _ _ _ (by decide), State.put_g_disj _ _ _ _ (by decide) (by decide)]
    exact Nat.mod_eq_of_lt (Nat.lt_of_le_of_lt (Nat.min_le_right _ _) (by decide))
  · rw [State.put_g_disj _ _ _ _ (by decide) (by decide), State.put_g_disj _ _ _ _ (by decide) (by decide)]

/-- Registers of the reset's cause as `lowTime` left them. -/
theorem State.releases_of {count : BitVec 32}
    (h : (if u.boot.por then { u with boot := { u.boot with sys := false } } else u.released).sameBut t [0x11])
    (k : t.word 0x11 = (u.lowTime count.toNat).word 0x11) : u.releases count t := by
  obtain ⟨low, pulses, cause⟩ := u.lowTime_cause count.toNat
  have shows (f : Fld) (a : f.a = 0x11) : t.g f = (u.lowTime count.toNat).g f := by
    unfold State.g
    rw [a, k]
  exact ⟨h, (shows _ rfl).trans low, (shows _ rfl).trans pulses, (shows _ rfl).trans cause⟩

theorem systemResetRelease_releases (s : State) (dt : Nat) (count : BitVec 32) :
    let u := s.tickTo dt
    u.boot.sys = true → ∃ t, exec (.systemResetRelease dt count) s = .next t ∧ u.releases count t := by
  intro u sys
  have ends : exec (.systemResetRelease dt count) s = done (if u.boot.por then (u.lowTime count.toNat).bt fun b => { b with sys := false }
      else (u.lowTime count.toNat).optionLoad) := by
    change done (if !u.boot.sys then u else _) = _
    rw [sys]
    rfl
  refine ⟨_, ends, ?_⟩
  have counted : u.sameBut (u.lowTime count.toNat) [0x11] := (State.sameBut.refl.put _ _ (by decide)).put _ _ (by decide)
  have begun := (u.lowTime count.toNat).optionLoad_released
  have released : u.released.sameBut (u.lowTime count.toNat).released [0x11] :=
    counted.rest rfl rfl (fun r => congrArg (fun x : State => ({ x with
      dev := .optionLoad
      boot := { x.boot with por := false, sys := false, optDone := false, relAt := u.now, wdAt := u.now, wdOn := true } } : State)) r) rfl rfl
  cases por : u.boot.por with
  | true =>
    refine State.releases_of ?_ (State.settle_word _ 0x11 rfl)
    rw [por]
    exact (counted.bt _).settle
  | false =>
    refine State.releases_of ?_ ((State.settle_word _ 0x11 rfl).trans (begun.word 0x11 rfl))
    rw [por]
    exact (released.step begun).settle

theorem systemResetRelease_stands (s : State) (dt : Nat) (count : BitVec 32) :
    let u := s.tickTo dt
    u.boot.sys = false → ∃ t, exec (.systemResetRelease dt count) s = .next t ∧ u.sameBut t [] := by
  intro u sys
  have stands : exec (.systemResetRelease dt count) s = done u := congrArg done (if_pos (by rw [sys]; rfl))
  exact exec_next stands State.sameBut.refl.settle

/-- Settles O17: what outlives either reset is named field by field (`afresh`), the surveyor's cut operations touch neither supplies nor
epoch, and a surveyor at ease has nothing to cut. -/
theorem powerOnAndSystemReset : Obligations.PowerOnAndSystemReset :=
  ⟨powerOnReset_powersOn, powerOnResetRelease_starts, systemReset_restarts, systemReset_heldOrActs, systemReset_stands,
    systemResetRelease_releases, systemResetRelease_stands⟩

end Sys2Proof.Machine
end
